-- ==== Sys2Proof/Word.lean ====
section
/-!
DEFINITION. The plain words of the device: bytes, 32-bit registers (R4), 64-bit thread registers (R239) and 128-bit
microwords (R245), and the sparse map that every large table of the model is held in.
-/

namespace Sys2Proof

/-- One byte of a descriptor, record or frame. -/
abbrev Byte := BitVec 8

/-- One register: 32 bits, little-endian (R4). -/
abbrev Word32 := BitVec 32

/-- A general register r0–r15 of a thread (R239). -/
abbrev Word64 := BitVec 64

/-- A microword of the control store (R245). -/
abbrev Microword := BitVec 128

/-- A frame as it lies in the packet buffer: its bytes in network order, without FCS (R349). -/
abbrev Frame := List Byte

/-- A sparse table: entries of key and value, keys strictly rising. An unlisted key holds what the table's reader says. -/
structure NMap (α : Type) where
  entries : List (Nat × α) := []
  deriving DecidableEq, Repr

end Sys2Proof
end

