-- ==== Sys2Proof/Syntax.lean ====
section
/-!
DEFINITION. The commands of the block: one constructor of `Instr` for each row of the table of steps, with the operands that
the world outside must name for that step, and the operand types, the Repertoire image among them.
-/

namespace Sys2Proof

/-- The three parts of R1. -/
inductive Variant where
  | s9640 | s9632 | s9616
  deriving DecidableEq, Repr

/-- One record of the defaults section (R66): field, instance (0xFFFF: every instance), code (true: K) and value. -/
structure DefRec where
  unit : Nat
  inst : Nat
  off : Nat
  lsb : Nat
  width : Nat
  isK : Bool
  value : Nat
  deriving DecidableEq, Repr

/-- A PF record of the identity section (R67); bit sets are numbers. -/
structure PfRec where
  present : Bool := true
  link : Nat
  function : Nat
  vfKind : Nat := 0
  totalVfs : Nat := 0
  bar0Log2 : Nat := 24
  bar2Log2 : Nat := 16
  vfBar0Log2 : Nat := 17
  msixPf : Nat := 64
  msixVf : Nat := 64
  reach : Nat := 0
  evtPermit : Nat := 0
  deriving DecidableEq, Repr

/-- The identity section (R67): `pfs` lists the sixteen PF records in order. -/
structure Identity where
  subsysVendor : Nat := 0
  subsysDevice : Nat := 0
  ideEnable : Nat := 0
  evtCore : Nat := 0
  stpChannels : Nat := 0
  pfs : List (Nat × PfRec) := []
  deriving DecidableEq, Repr

/-- A port record with its calendars (R69): a calendar lists the MAC instance of each used slot under the slot number. -/
structure PortRec where
  speed : Nat
  flexe : Bool := false
  fec25 : Nat := 0
  calB : Bool := false
  macInst : Nat := 0
  slotsA : List (Nat × Nat) := []
  slotsB : List (Nat × Nat) := []
  deriving DecidableEq, Repr

/-- The match-table schema section (R72): tables by number with table_cfg and base_mib, action records as 128-bit numbers. -/
structure Schema where
  txEntry : Nat := 0
  rxSaTable : Nat := 0
  rxSaValid : Bool := false
  tables : List (Nat × (Nat × Nat)) := []
  actions : List (Nat × Nat) := []
  deriving DecidableEq, Repr

/-- The content of one section (R61); a control store lists its microwords by address, unlisted words being all zero.
`defaultsBut named` names in short a defaults section with a record for every field: a K field has its first-ever value, and an I field
that `named` does not list has the value that the other sections give it, else 0 (notes/assumptions/53.md). `malformed` holds the bytes of
a section whose type is known and whose length, reserved bytes or records are not as its layout has them. -/
inductive SecBody where
  | identity (i : Identity)
  | bifurcation (shapes : List Nat)
  | portMap (ports : List (Nat × PortRec))
  | hbmSizes (exactGib deepGib : Nat)
  | bindings (pairs : List (Nat × (Nat × Nat)))
  | controlStore (words : List (Nat × Microword))
  | schemas (s : Schema)
  | firmware (protocol version : Nat) (code : List Byte)
  | defaults (recs : List DefRec)
  | defaultsBut (named : List DefRec)
  | unknown (type : Nat) (bytes : List Byte)
  | malformed (type : Nat) (bytes : List Byte)
  deriving DecidableEq, Repr

/-- A section with its directory entry (R60): offset, length and digest as the entry gives them. -/
structure Section where
  required : Bool := true
  offset : Nat := 0
  length : Nat := 0
  target : Nat := 0xFFFFFFFF
  digest : BitVec 384 := 0
  body : SecBody
  deriving DecidableEq, Repr

/-- A Repertoire image (R59): its header fields and sections. -/
structure Image where
  magic : Nat := 0x52455054
  formatMajor : Nat := 1
  formatMinor : Nat := 0
  imageBytes : Nat := 0x1200
  variantMask : Nat := 7
  securityVersion : Nat := 0
  keySlot : Nat := 0
  raiseFloor : Bool := false
  buildId : Nat := 0
  schemaId : Nat := 0
  publicKey : BitVec 768 := 0
  signature : BitVec 768 := 0
  sections : List Section := []
  deriving DecidableEq, Repr

/-- What the start finds out about the part and its surroundings (R53 steps 5 and 9, R54): sites that fail their self-test,
host links whose PERST_N pin is held low, the flash's answer, HBM stacks that do not train, the measured duration in µs, and the first
measurements of Pace (R88), power (R99) and temperature (R104; none given: as last sampled). -/
structure StartFindings where
  badSets : List Nat := []
  badCrypto : List Nat := []
  perstLow : List Nat := []
  flashError : Bool := false
  hbmBad : Bool := false
  startUs : Nat := 0
  ringCounts : List Nat := List.replicate 16 10000
  sensors : List Int := []
  currentMa : Nat := 0
  otherDw : Nat := 0
  deriving DecidableEq, Repr

/-- What a provisioning message asks of a key slot (R63, R84): to program it with the digest of its public key, or to blow its revoke
fuse. -/
inductive KeySlotOp where
  | program (digest : BitVec 384)
  | revoke
  deriving DecidableEq, Repr

/-- The ways an SPDM request arrives (R84, R115). -/
inductive SpdmPath where
  | sideband
  | doe (pf : Nat)
  deriving DecidableEq, Repr

/-- The numeric sensors of PLDM Type 2 (R84). -/
inductive Sensor where
  | tj | power | pace | headroom
  deriving DecidableEq, Repr

/-- How an AVSBus transaction ends (R96). -/
inductive AvsResult where
  | ok | nack | statusFault | noResponse
  deriving DecidableEq, Repr

/-- The status of a read completion (R123). -/
inductive CplStatus where
  | success | unsupportedRequest | completerAbort | poisoned
  deriving DecidableEq, Repr

/-- Capabilities that R115 and R116 name, for a function to have or not to have. -/
inductive PciCap where
  | powerManagement | msix | pciExpress | aer | sriov | ari | ats | pasid | tph | ltr | doe | ide | dvsec
  | dataLinkFeature | physicalLayer | laneMargining | flitLogging
  | msi | acs | resizableBar | readinessTime | l1Substates | pageRequest
  deriving DecidableEq, Repr

/-- Configuration space of a function (R50, R114-R118): the fields the manual names. -/
inductive CfgField where
  | vendorId | deviceId | classCode | revisionId | subsysVendor | subsysId | interruptPin
  | busMaster | memorySpace | maxPayload | maxReadRequest | tagWidth | relaxedOrdering | noSnoop | ctoRange
  | initiateFlr | msixEnable | msixFunctionMask | msixTableSize | vfEnable | numVfs | totalVfs | firstVfOffset | vfStride
  | vfDeviceId | systemPageSize | romEnable | powerState | aspmL1 | atsEnable | atsQueueDepth | pasidEnable | tphEnable
  | dvsecVendor | dvsecId | dvsecBar | dvsecOffset | dvsecFormat | ideCapability
  | capability (c : PciCap)
  | bar (n : Nat) | romBar | vfBar (n : Nat)
  | msixTableBir | msixTableOffset | msixPbaBir | msixPbaOffset
  | maxPayloadSupported | tagWidthSupported | flrCapable | ctoRanges | ctoDisable | extendedSynch
  | noSoftReset | d1Support | d2Support | pmeSupport
  | aerUncorStatus | aerUncorMask | aerUncorSeverity | aerCorStatus | aerCorMask | aerHeader (n : Nat) | aerPrefix (n : Nat) | ecrcCapable
  | initialVfs | supportedPageSizes | vfMigration | ariCapableHierarchy | ariNextFunction
  | atsPageAligned | atsRelaxedOrdering | atsStu
  | pasidWidth | pasidExecute | pasidPrivileged
  | tphTableLocation | tphDeviceSpecific | tphExtended
  | ltrEnable | ltrMaxSnoop | ltrMaxNoSnoop
  deriving DecidableEq, Repr

/-- A configuration request (R125, R128). -/
inductive ConfigReq where
  | read (f : CfgField)
  | write (f : CfgField) (value : Nat)
  deriving DecidableEq, Repr

/-- What a BAR address of a function names (R117, R118): the card, a unit window by card entry, a doorbell page, an offset of BAR4,
the expansion ROM, or a plain offset of a VF's BAR0. -/
inductive BarAddr where
  | card (off : Nat)
  | window (entry off : Nat)
  | doorbell (page off : Nat)
  | bar4 (off : Nat)
  | rom (off : Nat)
  | vf (off : Nat)
  deriving DecidableEq, Repr

/-- The memories that a scrubber visits (R442, R264). -/
inductive Memory where
  | controlStore (position : Nat)
  | setSram (position : Nat)
  | ledger | prefixTernary | keyCache | hbm
  deriving DecidableEq, Repr

/-- Where an ECC error stands, with what R446 reports of it. HBM errors give region (0 ring contexts, 1 connections, 2 keys,
3 counters, 4 control, 5 exact-match, 6 deep buffer, else the controller), byte offset, stack, and the index of what the
offset lies in: ring, context or counter; in region 4 the core, 8 for the Ledger save area, 9 for the image copy; in region 5
the table plus 16 x bucket plus 2^30 x slot. An error in an entry of a match table names the command port whose command
detected it, if one did (R235). -/
inductive EccSite where
  | setSram (position off : Nat) (thread : Option Nat)
  | controlStore (position addr : Nat) (thread : Option Nat)
  | packetBuffer (item : Nat)
  | ledger (item : Nat) (bothCopies : Bool)
  | contextCache (ring : Nat) (dirty : Bool)
  | hotCache (table bucket slot : Nat)
  | prefixEntry (index : Nat) (port : Option Nat)
  | ternaryEntry (index : Nat) (port : Option Nat)
  | keyCache (position : Nat)
  | hbm (region off stack index : Nat) (port : Option Nat)
  | linkBuffers (link : Nat)
  | streamPort (stream : Nat)
  | ownState (unit inst : Nat)
  deriving DecidableEq, Repr

/-- One finding of a scrub pass: the place, and whether the code could correct it. -/
structure EccFinding where
  place : EccSite
  correctable : Bool
  deriving DecidableEq, Repr

/-- A Set fault as its finder reports it (R260): the code, the word of an uncorrectable error, and the thread that met it. -/
structure SetFinding where
  code : Nat
  addr : Nat := 0
  thread : Option Nat := none
  deriving DecidableEq, Repr

/-- A port that goes down, and the MAC instances whose frame it cuts (R344). -/
structure PortLoss where
  port : Nat
  cut : List Nat := []
  deriving DecidableEq, Repr

/-- A learn offer as microcode makes it (R226): virtual network and source MAC, first octet most significant. -/
structure Offer where
  vnid : Nat
  mac : Nat
  deriving DecidableEq, Repr

/-- What a write of MTB_CMD names beside its op (R237): the table, the stage slot of op 7, and the irq bit. -/
structure MtbCmd where
  table : Nat := 0
  stage : Nat := 0
  irq : Bool := false
  deriving DecidableEq, Repr

/-- A flit of the Stream Port (R461): type, stream, fseq, the acknowledgement and credit fields every flit carries, and the
payload in use. -/
structure Flit where
  kind : Nat := 0
  stream : Nat := 0
  fseq : Nat := 0
  ackSeq : Nat := 0
  ackValid : Bool := false
  nak : Bool := false
  msgCredits : Nat := 0
  crStream : Nat := 0
  crCount : Nat := 0
  payload : List Byte := []
  crcOk : Bool := true
  deriving DecidableEq, Repr

/-- Where a pass sends its item (R183, R496): a ring, a line port's MAC instance, or the exception ring. -/
inductive Dest where
  | ring (r : Nat)
  | mac (m : Nat)
  | exception
  deriving DecidableEq, Repr

/-- A change that a pass asks the retire stage for (R159, R190). -/
inductive Edit where
  | rewrite (off : Nat) (bytes : List Byte)
  | insert (off : Nat) (bytes : List Byte)
  | strip (off len : Nat)
  | encap (template : Nat)
  | esp (sa : Nat)
  | tls (ctx : Nat)
  deriving DecidableEq, Repr

/-- A retire commit (R160, R250 class 8). -/
inductive Commit where
  | counter (cell amount : Nat)
  | state (cell value : Nat)
  | number (kind ctx : Nat)
  deriving DecidableEq, Repr


/-- The commands of the block: every row of the table of steps, in its order. -/
inductive Instr where
  | standbyPowerOn
  | mainRailFail
  | standbyBrownout
  | sysRstNAssert
  | coldStart (findings : StartFindings)
  | serviceReset
  | doorbellLogDrained (link : Nat)
  | serviceReplayDone
  | snapshotNow
  | orderlyShutdown
  | shutdownDrainDone
  | confirmTrial
  | discardRetained
  | serviceResetCommand
  | snapshotIntervalExpiry
  | snapshotWriteDone (ok : Bool)
  | retentionRecordClose
  | mctpSetEndpointId (eid : Nat)
  | mctpKeySlotProvision (slot : Nat) (op : KeySlotOp)
  | mctpDiscard
  | mctpIdeKeyLoad (link : Nat) (keys : List Byte)
  | mctpFaultLogRead (slot : Nat)
  | pldmSensorRead (sensor : Sensor)
  | pldmFirmwareUpdate (img : Image)
  | getVersion (via : SpdmPath)
  | getCapabilities (via : SpdmPath)
  | negotiateAlgorithms (via : SpdmPath)
  | getDigests (via : SpdmPath)
  | getCertificate (via : SpdmPath) (slot off len : Nat)
  | challenge (via : SpdmPath) (slot nonce : Nat)
  | getMeasurements (via : SpdmPath) (index nonce : Nat)
  | paceMeasure (counts : List Nat)
  | paceLowPersist
  | governorTick
  | boostIntervalExpiry
  | boostBucketAge
  | avsTransactionDone (result : AvsResult)
  | avsRetryExpiry
  | powerPublish (currentMa otherDw : Nat)
  | tjSample (sensors : List Int)
  | thermalSitout
  | thermalRejoin
  | sitoutGraceExpiry (position : Nat)
  | thermtrip
  | domainOffCmd (domain : Nat)
  | domainWakeCmd (domain : Nat)
  | domainReady (domain : Nat)
  | perstNAssert (link : Nat)
  | perstNDeassert (link : Nat)
  | hotReset (link : Nat)
  | dlDown (link : Nat)
  | linkUp (link rate width : Nat) (flit : Bool)
  | initiateFlr (fn : Nat)
  | resetSquashComplete (fn : Nat)
  | busMasterEnableClear (fn : Nat)
  | busMasterEnableSet (fn : Nat)
  | vfEnableSet (pf numVfs : Nat)
  | vfEnableClear (pf : Nat)
  | configRequest (fn : Nat) (req : ConfigReq)
  | barMemoryRead (fn : Nat) (addr : BarAddr) (len : Nat)
  | readCompletion (link tag : Nat) (status : CplStatus) (data : List Byte)
  | completionTimeout (link tag : Nat)
  | msixVectorUnmask (fn vector : Nat)
  | atsInvalidateRequest (link tag addr size : Nat)
  | ideIntegrityFailure (link : Nat)
  | p2pCommit (link : Nat)
  | p2pCommitDone (link : Nat)
  | doorbellProducerWrite (fn page slot producer : Nat)
  | doorbellCqHeadWrite (fn page slot cqHead : Nat) (arm : Bool)
  | irqTimeExpiry (ring : Nat)
  | qmgCtxSnap (mid ring : Nat)
  | qmgCtxSnapDone
  | qmgErrFifoRead (mid : Nat)
  | waitingFrameDelivery (ring : Nat)
  | txDescriptorPlain (ring : Nat)
  | txDescriptorOffload (ring : Nat)
  | txDescriptorNoop (ring : Nat)
  | itemDispatch (item : Nat)
  | itemRetire (item : Nat)
  | owedCompletionWrite (ring : Nat)
  | setFault (position : Nat) (finding : SetFinding)
  | replayDone (position stallNs : Nat)
  | figureFullPersist (figure : Nat)
  | lgrFailLogRead (mid : Nat)
  | frameReceived (mac : Nat) (frame : Frame) (fcsOk : Bool)
  | losslessFifoAdmit (mac cls : Nat)
  | inboundEspJobDone (job : Nat)
  | cryptoInstanceFault (position : Nat)
  | cryCtxSnap (mid index : Nat)
  | cryCtxSnapDone
  | threadStartPass (position thread : Nat)
  | seq (position thread : Nat)
  | jump (position thread : Nat)
  | branch (position thread : Nat)
  | call (position thread : Nat)
  | callIf (position thread : Nat)
  | popReturn (position thread : Nat)
  | popReturnIf (position thread : Nat)
  | wait (position thread : Nat)
  | table (position thread : Nat)
  | passEnd (position thread : Nat)
  | trap (position thread : Nat)
  | aluAdd (position thread : Nat)
  | aluSub (position thread : Nat)
  | aluAnd (position thread : Nat)
  | aluOr (position thread : Nat)
  | aluXor (position thread : Nat)
  | aluCompare (position thread : Nat)
  | aluMove (position thread : Nat)
  | addWithCarry (position thread : Nat)
  | shiftLeft (position thread : Nat)
  | shiftRight (position thread : Nat)
  | rotate (position thread : Nat)
  | fieldExtract (position thread : Nat)
  | fieldInsert (position thread : Nat)
  | load8b (position thread : Nat)
  | store8b (position thread : Nat)
  | atomicAdd (position thread : Nat)
  | compareAndSwap (position thread : Nat)
  | readHead (position thread : Nat)
  | readParseRecord (position thread : Nat)
  | readPacketBuffer (position thread : Nat)
  | appendEdit (position thread : Nat) (edit : Edit)
  | readLedgerFields (position thread : Nat)
  | payloadRead (position thread : Nat)
  | parse (position thread : Nat)
  | classify (position thread : Nat)
  | lookup (position thread : Nat) (table : Nat) (key : List Byte)
  | checksum (position thread : Nat) (off len : Nat)
  | hash (position thread : Nat)
  | headerRewrite (position thread : Nat) (edit : Edit)
  | setDestination (position thread : Nat) (dest : Dest)
  | dropRequest (position thread : Nat)
  | learnOffer (position thread : Nat) (offer : Offer)
  | dmaAssist (position thread : Nat)
  | partnerChannelSend (position thread : Nat)
  | channelWrite (position thread : Nat)
  | channelClose (position thread : Nat)
  | channelRead (position thread : Nat)
  | channelDiscard (position thread : Nat)
  | flagSet (position thread : Nat)
  | flagClear (position thread : Nat)
  | counterAdd (position thread : Nat) (cell amount : Nat)
  | stateWrite (position thread : Nat) (cell value : Nat)
  | sequenceBearingRequest (position thread : Nat) (kind ctx : Nat)
  | assistAnswer (position thread kind : Nat)
  | channelWordDelivery (position channel : Nat)
  | waitLimitExpiry (position thread : Nat)
  | standstill (position : Nat)
  | dbgStop (position thread : Nat)
  | dbgResume (position thread : Nat)
  | dbgStep (position thread : Nat)
  | dbgKill (position thread : Nat)
  | csRead (position : Nat)
  | csWrite (position : Nat)
  | memoryScrub (mem : Memory) (found : List EccFinding)
  | eccError (place : EccSite) (correctable : Bool)
  | handshakeTimeout (unit inst silent : Nat)
  | hbmStackLost (stack : Nat)
  | moverFault (mover : Nat)
  | controlCoreFault (core code : Nat)
  | faultAck (seq : Nat)
  | mtbRead (mid port : Nat) (cmd : MtbCmd)
  | mtbWrite (mid port : Nat) (cmd : MtbCmd)
  | mtbInsert (mid port : Nat) (cmd : MtbCmd)
  | mtbDelete (mid port : Nat) (cmd : MtbCmd)
  | mtbSearch (mid port : Nat) (cmd : MtbCmd)
  | mtbAgeQuery (mid port : Nat) (cmd : MtbCmd)
  | mtbStage (mid port : Nat) (cmd : MtbCmd)
  | mtbDirectWrite (mid port : Nat) (cmd : MtbCmd)
  | mtbDirectRead (mid port : Nat) (cmd : MtbCmd)
  | prefixAdd (mid port : Nat) (cmd : MtbCmd)
  | prefixDelete (mid port : Nat) (cmd : MtbCmd)
  | prefixSearch (mid port : Nat) (cmd : MtbCmd)
  | ternaryWrite (mid port : Nat) (cmd : MtbCmd)
  | ternaryRead (mid port : Nat) (cmd : MtbCmd)
  | mtbCommandDone (port : Nat)
  | learnOfferProcess (figure : Nat)
  | ageScanVisit (table bucket slot : Nat)
  | rehashStart (table : Nat)
  | rehashResume (table : Nat)
  | rehashWalkBucket (table : Nat)
  | compareStart (table : Nat)
  | compareRegion (table : Nat) (data : List Byte)
  | compareRecheck (table : Nat) (data : List Byte)
  | compareIntervalExpiry (table : Nat)
  | compareFifoRead (mid : Nat)
  | roceAckTimeout (qpn : Nat)
  | cnpRateStep (qpn : Nat)
  | send (ring : Nat)
  | sendWithImmediate (ring : Nat)
  | rdmaWrite (ring : Nat)
  | rdmaWriteWithImmediate (ring : Nat)
  | rdmaRead (ring : Nat)
  | recv (ring : Nat)
  | nvmeSqTailDoorbell (fn sq tail : Nat)
  | nvmeCcEnClear (fn : Nat)
  | nvmeIdentify (fn : Nat)
  | nvmeCreateIoSq (fn : Nat)
  | nvmeCreateIoCq (fn : Nat)
  | nvmeDeleteIoSq (fn : Nat)
  | nvmeDeleteIoCq (fn : Nat)
  | nvmeGetFeatures (fn : Nat)
  | nvmeSetFeatures (fn : Nat)
  | nvmeGetLogPage (fn : Nat)
  | nvmeAbort (fn : Nat)
  | nvmeAsyncEventRequest (fn : Nat)
  | nvmeRead (fn sq : Nat)
  | nvmeWrite (fn sq : Nat)
  | nvmeFlush (fn sq : Nat)
  | nvmeWriteZeroes (fn sq : Nat)
  | nvmeDatasetManagement (fn sq : Nat)
  | nvmeTcpRtoExpiry (conn : Nat)
  | barStart
  | schNodeRead (mid level index : Nat)
  | schNodeWrite (mid level index : Nat)
  | schNodeCmdDone
  | dmaStart (mid channel : Nat)
  | dmaStop (mid channel : Nat)
  | dmaResume (mid channel : Nat)
  | dmaRequest (mid channel : Nat)
  | dmaDescriptorFetched (channel : Nat)
  | dmaBurstStart (channel : Nat)
  | dmaBurstComplete (channel : Nat)
  | portUp (port : Nat)
  | portDown (loss : PortLoss)
  | laneCalibrationDone (lane value : Nat)
  | laneCalCheck (lane drift : Nat)
  | frameTransmit (mac cls : Nat)
  | pauseFrame (mac quanta : Nat)
  | pfcFrame (mac classes : Nat) (quanta : List Nat)
  | pauseTimerExpiry (mac cls : Nat)
  | xoffRefresh (mac cls : Nat)
  | stormWatchdogExpiry (mac cls : Nat)
  | stormEnd (mac cls : Nat)
  | lpiIdleExpiry (port : Nat)
  | flexeCalendarSwitch (port : Nat)
  | flexeSwitchDone (port : Nat)
  | flexeSwitchTimeout (port : Nat)
  | flexeOverheadLockLoss (loss : PortLoss)
  | macCounterRead (mid mac counter : Nat)
  | tempoTick (ticks : Nat)
  | referenceLost
  | referenceRestored
  | uncertaintyUpdate
  | holdoverEntry (domain : Nat)
  | incrementCommit (domain value : Nat)
  | domainSet (domain : Nat)
  | domainAdd (domain : Nat)
  | domainTimeRead (mid domain : Nat)
  | tempoSnapshot
  | domainAnchor (domain value : Nat)
  | slotArm (slot : Nat)
  | slotDisarm (slot : Nat)
  | slotSwitch (slot toSource : Nat)
  | slotPulse (slot : Nat)
  | pulseWidthEnd (slot : Nat)
  | slewComplete (slot : Nat)
  | launchGateOpen (item : Nat)
  | launchTime (mac : Nat)
  | timeIoEdge (pin : Nat) (rising : Bool)
  | captureIntervalEnd (pin : Nat)
  | pinConfigWrite (pin value : Nat)
  | mbxSend (mid channel len : Nat)
  | mbxRxLatch (mid channel : Nat)
  | mbxRxAck (mid channel code : Nat)
  | eventSwTrigger (bits : Nat)
  | eventEoi (pf source : Nat)
  | eventRouteWrite (pf source value : Nat)
  | eventMessageIssue (pf source : Nat)
  | stormLimitMillisecond
  | causeMaskWrite (unit inst off value : Nat)
  | registerWrite (mid unit inst off : Nat) (bytes : Nat) (value : Nat)
  | ringGroupCreate (fn : Nat)
  | ringGroupDestroy (fn : Nat)
  | ringCreate (fn : Nat)
  | ringEnable (fn : Nat)
  | ringDisable (fn : Nat)
  | ringRestart (fn : Nat)
  | ringDestroy (fn : Nat)
  | ringTune (fn : Nat)
  | tenantCreate (fn : Nat)
  | tenantDestroy (fn : Nat)
  | vfAssign (fn : Nat)
  | vfProperties (fn : Nat)
  | functionReset (fn : Nat)
  | drainEnd (fn : Nat)
  | contextCreate (fn : Nat)
  | contextChange (fn : Nat)
  | contextDestroy (fn : Nat)
  | sitOut (fn : Nat)
  | rejoin (fn : Nat)
  | rejoinTestDone (unit inst : Nat) (pass : Bool)
  | imageStage (fn : Nat) (img : Image)
  | imageApply (fn : Nat)
  | epilogueResend (fn : Nat)
  | getConfiguration (fn : Nat)
  | setMacFilter (fn : Nat)
  | setVlanFilter (fn : Nat)
  | linkQuery (fn : Nat)
  | s44SoftReset (fn : Nat)
  | s44QueueEnable (fn queue value : Nat)
  | s44QueueDisable (fn queue value : Nat)
  | bulkTransfer (fn : Nat)
  | cancel (fn : Nat)
  | stpTrainingDone (width : Nat)
  | stpTrainingRetry
  | stpFlitSend
  | stpDataFlit (flit : Flit)
  | stpDataLastFlit (flit : Flit)
  | stpMessageFlit (flit : Flit)
  | stpControlFlit (flit : Flit) (peerId : Nat) (peerS9640 : Bool)
  | stpIdleFlit (flit : Flit)
  | stpAckTimeout
  | stpMatchTimeout (stream : Nat)
  | bypass
  | samplePreload
  | extest
  | idcode
  | dbgChallenge
  | dbgResponse (slot signature : Nat)
  | trstNAssert
  | switchedWaitExpiry (item : Nat)
  | stpFlitDiscard (flit : Flit)
  | stpPeerDown
  | aspmL1Entry (link : Nat)
  | peerLpiChange (port : Nat) (lpi : Bool)
  | nvmeCcEnSet (fn : Nat)
  | testenAssert
  | mainRailsRestored (findings : StartFindings)
  | doeDiscovery (pf index : Nat)
  deriving DecidableEq, Repr

end Sys2Proof
end

