-- ==== Sys2Proof/Decode.lean ====
section
/-!
DEFINITION. The rows of the table of steps give no bits: a step is an event at the block's pins, links and registers, and no word
spells one.
-/

namespace Sys2Proof

/-- The command that a word spells by the table's bits: no row gives bits, so none. -/
def decodeTableWord (_nbits _w : Nat) : Option Instr := none

end Sys2Proof
end

