-- ==== Sys2Proof/Config.lean ====
section
/-!
DEFINITION. What the spec leaves open and the model leaves free: opaque constants without a body, so that no proof can
see a value of them (notes/assumptions 2 and 3 list them one by one).
-/

namespace Sys2Proof.Config

/-- A value the spec leaves undefined after a step that goes on; the step applies it to `State.freeCtr`. -/
opaque freeWord : Nat → BitVec 64

/-- A byte the spec leaves undefined (R335, R469), by free counter and position. -/
opaque freeByte : Nat → Nat → BitVec 8

/-- The fresh random challenge of DBG_CHALLENGE (R486) and the nonce of the SPDM responder. -/
opaque challenge : Nat → BitVec 384

/-- `window_offset` of card entry `e`, in units of 4 KiB (R6, R38: the part chooses its own windows). -/
opaque windowPage : Nat → Nat

/-- `window_size` of card entry `e`, in units of 4 KiB, where no rule states it (R38). -/
opaque windowPages : Nat → Nat

/-- The minor of `unit_version` of card entry `e` (R40: software may not depend on it). -/
opaque unitMinor : Nat → Nat

/-- AES-GCM seal under key bytes, nonce, AAD and plaintext (RFC 4106, RFC 4543, 802.1AE, RFC 8446 by R279, R283, R286):
ciphertext followed by the 16-byte ICV. -/
opaque gcmSeal : List (BitVec 8) → List (BitVec 8) → List (BitVec 8) → List (BitVec 8) → List (BitVec 8)

/-- AES-GCM open: the plaintext, where the ICV verifies. -/
opaque gcmOpen : List (BitVec 8) → List (BitVec 8) → List (BitVec 8) → List (BitVec 8) → Option (List (BitVec 8))

/-- The SHA-384 digest of a byte string (FIPS 180-4, named by R59 and R84). -/
opaque sha384 : List (BitVec 8) → BitVec 384

/-- One public key of P-384, x then y (R59). -/
opaque ecdsaKey : BitVec 768

/-- A signature, r then s, of each message digest under that key. -/
opaque ecdsaSignature : BitVec 384 → BitVec 768

/-- ECDSA P-384 verification beyond that key and its signatures: SHA-384 of the public key, message digest, signature (FIPS 186-5,
named by R59 and R486). -/
opaque ecdsaVerify : BitVec 384 → BitVec 384 → BitVec 768 → Bool

/-- The digest of the boot ROM, which is measurement 1 (R84). -/
opaque bootRomDigest : BitVec 384

/-- The bytes of the die identity as a debug response signs them (R486): no rule gives their number or order. -/
opaque dieBytes : Nat → List (BitVec 8)

/-- The CRC-64 guard that NVM Express defines (R305 names it and does not give its polynomial). -/
opaque crc64Nvme : List (BitVec 8) → BitVec 64

/-- The invariant CRC of a RoCEv2 packet (R294 names it; the IBTA defines it). -/
opaque icrc : List (BitVec 8) → BitVec 32

/-- Field `n` of a connection context of a type whose layout the spec does not give (types 9, 10 and 11), from its bytes. -/
opaque ctxField : Nat → Nat → List (BitVec 8) → Nat

/-- The entry address of a work descriptor's pass, by ring (R240: the serving unit's entry, no rule gives its value). -/
opaque workEntry : Nat → BitVec 14

/-- The index that firmware gives a created object, by free counter, where no rule names the choice (R419). -/
opaque pickIndex : Nat → Nat

/-- The parent entry of card entry `e` where no rule names it (R38 gives a Set's Figure as an example). -/
opaque cardParent : Nat → Nat

/-- The handles that the Ledger keeps of an item's bytes, edit area and descriptor copy (R158), by item and kind. -/
opaque handle : Nat → Nat → BitVec 32

/-- Does firmware create a PF with source checking (R192)? No rule says which. -/
opaque pfSourceCheck : Nat → Bool

end Sys2Proof.Config
end

