-- ==== Sys2Proof/Machine/Field.lean ====
section
/-!
DEFINITION. Sparse tables and register fields: the two data types everything else is held in. A register field is named by
unit type, window instance, byte offset and least significant bit, the key under which R74 also retains it.
-/

namespace Sys2Proof

/-- The value of the first entry with key `k`. -/
def findKey {α : Type} (k : Nat) : List (Nat × α) → Option α
  | [] => none
  | (k', v) :: m => if k = k' then some v else findKey k m

/-- The entries with `v` under `k`, before the first greater key. -/
def insertKey {α : Type} (k : Nat) (v : α) : List (Nat × α) → List (Nat × α)
  | [] => [(k, v)]
  | (k', v') :: m =>
    if k = k' then (k, v) :: m else if k < k' then (k, v) :: (k', v') :: m else (k', v') :: insertKey k v m

/-- The entries without those of key `k`. -/
def eraseKey {α : Type} (k : Nat) (m : List (Nat × α)) : List (Nat × α) := m.filter (fun p => p.1 ≠ k)

/-- The value listed under `k`, if any. -/
def NMap.get? {α : Type} (m : NMap α) (k : Nat) : Option α := findKey k m.entries

/-- The value listed under `k`, or `d`. -/
def NMap.getD {α : Type} (m : NMap α) (k : Nat) (d : α) : α := (m.get? k).getD d

/-- Is `k` listed? -/
def NMap.has {α : Type} (m : NMap α) (k : Nat) : Bool := (m.get? k).isSome

/-- List `v` under `k`. -/
def NMap.set {α : Type} (m : NMap α) (k : Nat) (v : α) : NMap α := ⟨insertKey k v m.entries⟩

/-- Unlist `k`. -/
def NMap.erase {α : Type} (m : NMap α) (k : Nat) : NMap α := ⟨eraseKey k m.entries⟩

/-- Replace the value under `k` by `f` of it, starting from `d`. -/
def NMap.upd {α : Type} (m : NMap α) (k : Nat) (d : α) (f : α → α) : NMap α := m.set k (f (m.getD k d))

/-- Apply `f` to the value under `k`, where there is one. -/
def NMap.modify {α : Type} (m : NMap α) (k : Nat) (f : α → α) : NMap α :=
  match m.get? k with
  | some v => m.set k (f v)
  | none => m

/-- Apply `f` to every value. -/
def NMap.mapVals {α β : Type} (m : NMap α) (f : Nat → α → β) : NMap β := ⟨m.entries.map (fun p => (p.1, f p.1 p.2))⟩

/-- Keep the entries that `f` holds for. -/
def NMap.filter {α : Type} (m : NMap α) (f : Nat → α → Bool) : NMap α := ⟨m.entries.filter (fun p => f p.1 p.2)⟩

/-- Keys strictly rising: the one canonical form of a table. -/
def keysRise {α : Type} : List (Nat × α) → Bool
  | [] => true
  | (k, _) :: m => m.all (fun p => k < p.1) && keysRise m

/-- The table is in canonical form. -/
def NMap.wf {α : Type} (m : NMap α) : Bool := keysRise m.entries

/-- The keys listed. -/
def NMap.keys {α : Type} (m : NMap α) : List Nat := m.entries.map Prod.fst

/-- The values listed, by rising key. -/
def NMap.vals {α : Type} (m : NMap α) : List α := m.entries.map Prod.snd

/-- How many entries are listed. -/
def NMap.size {α : Type} (m : NMap α) : Nat := m.entries.length

/-- The first key whose value `f` holds for. -/
def NMap.find? {α : Type} (m : NMap α) (f : Nat → α → Bool) : Option Nat := (m.entries.find? (fun p => f p.1 p.2)).map Prod.fst

/-- The table that lists these pairs. -/
def NMap.ofList {α : Type} (l : List (Nat × α)) : NMap α := l.foldl (fun m p => m.set p.1 p.2) {}

/-- The lowest key from `k` on that is not listed, at most `fuel` further (firmware's "lowest free", R421, R423). -/
def NMap.lowestFree {α : Type} (m : NMap α) (k : Nat) : Nat → Nat
  | 0 => k
  | fuel + 1 => if m.has k then m.lowestFree (k + 1) fuel else k

end Sys2Proof

namespace Sys2Proof.Machine

/-- The access codes of R8. -/
inductive Access where
  | rw | ro | wo | w1c | rc | rwl
  deriving DecidableEq, Repr

/-- The start codes of R9: K with its first-ever value, I, or a literal. -/
inductive Start where
  | retained (firstEver : Nat)
  | image
  | literal (v : Nat)
  deriving DecidableEq, Repr

/-- Which window instances have the register (R205: some PPL registers exist in one instance only). -/
inductive Insts where
  | any
  | only (i : Nat)
  deriving DecidableEq, Repr

/-- One row of a register map: unit type, offset of the register, its repeats as (stride, count), outermost first, place and
width of the field, access and start codes, and the instances that have it. -/
structure Field where
  unit : Nat
  off : Nat
  reps : List (Nat × Nat)
  lsb : Nat
  width : Nat
  acc : Access
  start : Start
  insts : Insts
  deriving DecidableEq, Repr

/-- The value an unlisted field holds: its literal or first-ever value; 0 where the image gives it and none is loaded
(DESIGN CHOICE, notes/assumptions/1.md). -/
def Field.dflt (f : Field) : Nat :=
  match f.start with
  | .retained v => v
  | .image => 0
  | .literal v => v

/-- The retention key of a field (R74): unit type, instance, byte offset with the repeats' strides in `add`, and lsb. -/
def Field.key (f : Field) (inst add : Nat) : Nat :=
  ((f.unit * 65536 + inst) * 33554432 + (f.off + add)) * 32 + f.lsb

/-- Start code K. -/
def Field.isK (f : Field) : Bool :=
  match f.start with
  | .retained _ => true
  | _ => false

/-- Start code I. -/
def Field.isI (f : Field) : Bool :=
  match f.start with
  | .image => true
  | _ => false

/-- Does instance `i` have the field? -/
def Field.onInst (f : Field) (i : Nat) : Bool :=
  match f.insts with
  | .any => true
  | .only n => i == n

/-- `rest` is a sum of repeats: the outer stride as often as it fits, then the inner. -/
def fitsReps : List (Nat × Nat) → Nat → Bool
  | [], rest => rest == 0
  | (s, c) :: reps, rest => rest / s < c && fitsReps reps (rest % s)

/-- Does the register at byte offset `off` hold this field? -/
def Field.at (f : Field) (inst off : Nat) : Bool :=
  f.onInst inst && f.off ≤ off && fitsReps f.reps (off - f.off)

end Sys2Proof.Machine
end

