-- ==== Sys2Proof/Machine/RegMap.lean ====
section
/-!
DEFINITION. The register maps of the spec, one constant for each field of each register (R8: access; R9: start code), named
REGISTER_field as the spec names them; reserved fields read as zero and are not listed (R7).
-/

namespace Sys2Proof.Machine.R

def BOOT_STATUS_snap_busy : Field := ⟨2, 0x0, [], 0, 1, .ro, .literal 0, .any⟩
def BOOT_STATUS_locked : Field := ⟨2, 0x0, [], 1, 1, .ro, .literal 1, .any⟩
def BOOT_RET_COMMITS_commits : Field := ⟨2, 0x4, [], 0, 32, .ro, .literal 1, .any⟩
def BOOT_SNAP_COUNT_snapshots : Field := ⟨2, 0x8, [], 0, 32, .ro, .literal 0, .any⟩
def BOOT_SNAP_RESULT_last : Field := ⟨2, 0xc, [], 0, 2, .ro, .literal 0, .any⟩
def BOOT_CONTROL_snap_interval : Field := ⟨2, 0x10, [], 0, 24, .rw, .retained 3600, .any⟩
def BOOT_CONTROL_snap_at_shutdown : Field := ⟨2, 0x10, [], 24, 1, .rw, .retained 1, .any⟩
def BOOT_CMD_command : Field := ⟨2, 0x14, [], 0, 16, .wo, .literal 0, .any⟩
def BOOT_CMD_key : Field := ⟨2, 0x14, [], 16, 16, .wo, .literal 0, .any⟩
def PWR_PACE_pace : Field := ⟨3, 0x0, [], 0, 16, .ro, .literal 32768, .any⟩
def PWR_HEADROOM_headroom : Field := ⟨3, 0x4, [], 0, 16, .ro, .literal 0, .any⟩
def PWR_HEADROOM_filled : Field := ⟨3, 0x4, [], 16, 6, .ro, .literal 0, .any⟩
def PWR_PACE_LOW_pace_low : Field := ⟨3, 0x8, [], 0, 16, .rc, .literal 65535, .any⟩
def PWR_VDD_request_mv : Field := ⟨3, 0xc, [], 0, 12, .ro, .literal 750, .any⟩
def PWR_VDD_cause : Field := ⟨3, 0xc, [], 12, 4, .ro, .literal 0, .any⟩
def PWR_VDD_boost_open : Field := ⟨3, 0xc, [], 16, 1, .ro, .literal 0, .any⟩
def PWR_TARGET_pace_target : Field := ⟨3, 0x10, [], 0, 16, .rw, .retained 29491, .any⟩
def PWR_TARGET_boost_enable : Field := ⟨3, 0x10, [], 16, 1, .rw, .retained 0, .any⟩
def PWR_LIMIT_power_limit : Field := ⟨3, 0x14, [], 0, 9, .rw, .retained 300, .any⟩
def PWR_POWER_power_1ms : Field := ⟨3, 0x18, [], 0, 16, .ro, .literal 0, .any⟩
def PWR_POWER_power_1s : Field := ⟨3, 0x18, [], 16, 16, .ro, .literal 0, .any⟩
def PWR_TJ_tj : Field := ⟨3, 0x1c, [], 0, 8, .ro, .literal 0, .any⟩
def PWR_TJ_sensor : Field := ⟨3, 0x1c, [], 8, 5, .ro, .literal 0, .any⟩
def PWR_TJ_PEAK_tj_peak : Field := ⟨3, 0x20, [], 0, 8, .rc, .literal 128, .any⟩
def PWR_BOOST_used_s : Field := ⟨3, 0x24, [], 0, 17, .ro, .literal 0, .any⟩
def PWR_THERMAL_sat_out : Field := ⟨3, 0x28, [], 0, 5, .ro, .literal 0, .any⟩
def PWR_DOMAIN_CMD_domain : Field := ⟨3, 0x38, [], 0, 6, .wo, .literal 0, .any⟩
def PWR_DOMAIN_CMD_op : Field := ⟨3, 0x38, [], 6, 2, .wo, .literal 0, .any⟩
def PWR_DOMAIN_RESULT_domain : Field := ⟨3, 0x3c, [], 0, 6, .ro, .literal 0, .any⟩
def PWR_DOMAIN_RESULT_code : Field := ⟨3, 0x3c, [], 8, 2, .ro, .literal 0, .any⟩
def PWR_STICKY_pace_low : Field := ⟨3, 0x40, [], 0, 1, .w1c, .literal 0, .any⟩
def PWR_STICKY_pace_floor : Field := ⟨3, 0x40, [], 1, 1, .w1c, .literal 0, .any⟩
def PWR_STICKY_power_cap : Field := ⟨3, 0x40, [], 2, 1, .w1c, .literal 0, .any⟩
def PWR_STICKY_thermal_cap : Field := ⟨3, 0x40, [], 3, 1, .w1c, .literal 0, .any⟩
def PWR_STICKY_thermal_sitout : Field := ⟨3, 0x40, [], 4, 1, .w1c, .literal 0, .any⟩
def PWR_STICKY_boost_spent : Field := ⟨3, 0x40, [], 5, 1, .w1c, .literal 0, .any⟩
def PWR_STICKY_avs_error : Field := ⟨3, 0x40, [], 6, 1, .w1c, .literal 0, .any⟩
def PWR_STICKY_thermtrip_prev : Field := ⟨3, 0x40, [], 7, 1, .w1c, .literal 0, .any⟩
def PWR_AVS_CONFIG_avs_vmin : Field := ⟨3, 0x44, [], 0, 12, .rwl, .image, .any⟩
def PWR_AVS_CONFIG_avs_slew : Field := ⟨3, 0x44, [], 12, 8, .rwl, .image, .any⟩
def PCX_LINK_STATUS_state : Field := ⟨16, 0x0, [], 0, 4, .ro, .literal 0, .any⟩
def PCX_LINK_STATUS_rate : Field := ⟨16, 0x0, [], 4, 4, .ro, .literal 0, .any⟩
def PCX_LINK_STATUS_width : Field := ⟨16, 0x0, [], 8, 5, .ro, .literal 0, .any⟩
def PCX_LINK_STATUS_flit : Field := ⟨16, 0x0, [], 13, 1, .ro, .literal 0, .any⟩
def PCX_LINK_STATUS_ide_secure : Field := ⟨16, 0x0, [], 14, 1, .ro, .literal 0, .any⟩
def PCX_LINK_STATUS_perst : Field := ⟨16, 0x0, [], 15, 1, .ro, .literal 0, .any⟩
def PCX_LINK_SHAPE_shape : Field := ⟨16, 0x4, [], 0, 2, .ro, .image, .any⟩
def PCX_LINK_SHAPE_group : Field := ⟨16, 0x4, [], 2, 3, .ro, .image, .any⟩
def PCX_LINK_SHAPE_two_pf : Field := ⟨16, 0x4, [], 5, 1, .ro, .image, .any⟩
def PCX_LINK_SHAPE_pf_a : Field := ⟨16, 0x4, [], 6, 4, .ro, .image, .any⟩
def PCX_LINK_SHAPE_pf_b : Field := ⟨16, 0x4, [], 10, 4, .ro, .image, .any⟩
def PCX_LINK_SHAPE_ide_enabled : Field := ⟨16, 0x4, [], 14, 1, .ro, .image, .any⟩
def PCX_RESET_RECORD_last : Field := ⟨16, 0x8, [], 0, 2, .ro, .literal 0, .any⟩
def PCX_RESET_COUNT_resets : Field := ⟨16, 0xc, [], 0, 32, .ro, .literal 0, .any⟩
def PCX_ABANDONED_LO_abandoned : Field := ⟨16, 0x10, [], 0, 32, .ro, .literal 0, .any⟩
def PCX_ABANDONED_HI_abandoned : Field := ⟨16, 0x14, [], 0, 32, .ro, .literal 0, .any⟩
def PCX_CAUSE_link_down : Field := ⟨16, 0x18, [], 0, 1, .w1c, .literal 0, .any⟩
def PCX_CAUSE_link_up : Field := ⟨16, 0x18, [], 1, 1, .w1c, .literal 0, .any⟩
def PCX_CAUSE_link_reset : Field := ⟨16, 0x18, [], 2, 1, .w1c, .literal 0, .any⟩
def PCX_CAUSE_flr : Field := ⟨16, 0x18, [], 3, 1, .w1c, .literal 0, .any⟩
def PCX_CAUSE_cpl_timeout : Field := ⟨16, 0x18, [], 4, 1, .w1c, .literal 0, .any⟩
def PCX_CAUSE_cpl_error : Field := ⟨16, 0x18, [], 5, 1, .w1c, .literal 0, .any⟩
def PCX_CAUSE_p2p_commit_done : Field := ⟨16, 0x18, [], 6, 1, .w1c, .literal 0, .any⟩
def PCX_CAUSE_p2p_overrun : Field := ⟨16, 0x18, [], 7, 1, .w1c, .literal 0, .any⟩
def PCX_CAUSE_speed_change : Field := ⟨16, 0x18, [], 8, 1, .w1c, .literal 0, .any⟩
def PCX_CAUSE_ide_error : Field := ⟨16, 0x18, [], 9, 1, .w1c, .literal 0, .any⟩
def PCX_CAUSE_MASK_enable : Field := ⟨16, 0x1c, [], 0, 10, .rw, .retained 1023, .any⟩
def PCX_CPL_TIMEOUTS_timeouts : Field := ⟨16, 0x20, [], 0, 32, .rc, .literal 0, .any⟩
def PCX_CPL_ERRORS_errors : Field := ⟨16, 0x24, [], 0, 32, .rc, .literal 0, .any⟩
def PCX_TAGS_outstanding : Field := ⟨16, 0x28, [], 0, 13, .ro, .literal 0, .any⟩
def PCX_TAGS_quarantined : Field := ⟨16, 0x28, [], 16, 13, .ro, .literal 0, .any⟩
def PCX_P2P_COMMIT_commit : Field := ⟨16, 0x2c, [], 0, 1, .wo, .literal 0, .any⟩
def PCX_P2P_COMMIT_commit_busy : Field := ⟨16, 0x2c, [], 1, 1, .ro, .literal 0, .any⟩
def PCX_P2P_GEN_commits : Field := ⟨16, 0x30, [], 0, 32, .ro, .literal 0, .any⟩
def PCX_P2P_ATTR_enable : Field := ⟨16, 0x50, [(32, 16)], 0, 1, .rw, .literal 0, .any⟩
def PCX_P2P_ATTR_at_translated : Field := ⟨16, 0x50, [(32, 16)], 1, 1, .rw, .literal 0, .any⟩
def PCX_P2P_ATTR_force_no_snoop : Field := ⟨16, 0x50, [(32, 16)], 2, 1, .rw, .literal 0, .any⟩
def PCX_P2P_ATTR_allow_ro : Field := ⟨16, 0x50, [(32, 16)], 3, 1, .rw, .literal 0, .any⟩
def QMG_CTX_SELECT_ring : Field := ⟨32, 0x0, [], 0, 22, .rw, .literal 0, .any⟩
def QMG_CTX_CMD_snap : Field := ⟨32, 0x4, [], 0, 1, .wo, .literal 0, .any⟩
def QMG_CTX_STATUS_busy : Field := ⟨32, 0x8, [], 0, 1, .ro, .literal 0, .any⟩
def QMG_CTX_STATUS_valid : Field := ⟨32, 0x8, [], 1, 1, .ro, .literal 0, .any⟩
def QMG_CTX_STATUS_denied : Field := ⟨32, 0x8, [], 2, 1, .ro, .literal 0, .any⟩
def QMG_ERR_FIFO_ring : Field := ⟨32, 0x10, [], 0, 22, .rc, .literal 0, .any⟩
def QMG_ERR_FIFO_cause : Field := ⟨32, 0x10, [], 22, 5, .rc, .literal 0, .any⟩
def QMG_ERR_FIFO_valid : Field := ⟨32, 0x10, [], 31, 1, .rc, .literal 0, .any⟩
def QMG_ERR_DROPPED_dropped : Field := ⟨32, 0x14, [], 0, 32, .rc, .literal 0, .any⟩
def QMG_DB_OVERRUNS_count : Field := ⟨32, 0x18, [], 0, 32, .rc, .literal 0, .any⟩
def QMG_DB_IGNORED_count : Field := ⟨32, 0x1c, [], 0, 32, .rc, .literal 0, .any⟩
def QMG_RX_REFUSED_count : Field := ⟨32, 0x20, [], 0, 32, .rc, .literal 0, .any⟩
def QMG_CACHE_MISSES_count : Field := ⟨32, 0x24, [], 0, 32, .rc, .literal 0, .any⟩
def QMG_CACHE_STATUS_cached : Field := ⟨32, 0x28, [], 0, 17, .ro, .literal 0, .any⟩
def QMG_CAUSE_ring_error : Field := ⟨32, 0x30, [], 0, 1, .w1c, .literal 0, .any⟩
def QMG_CAUSE_err_overflow : Field := ⟨32, 0x30, [], 1, 1, .w1c, .literal 0, .any⟩
def QMG_CAUSE_db_ignored : Field := ⟨32, 0x30, [], 2, 1, .w1c, .literal 0, .any⟩
def QMG_CAUSE_rx_refused : Field := ⟨32, 0x30, [], 3, 1, .w1c, .literal 0, .any⟩
def QMG_CAUSE_ctx_uncorrectable : Field := ⟨32, 0x30, [], 4, 1, .w1c, .literal 0, .any⟩
def QMG_CAUSE_notify_full : Field := ⟨32, 0x30, [], 5, 1, .w1c, .literal 0, .any⟩
def QMG_CAUSE_MASK_enable : Field := ⟨32, 0x34, [], 0, 6, .rw, .retained 59, .any⟩
def LGR_STATUS_replay_active : Field := ⟨33, 0x0, [], 0, 1, .ro, .literal 0, .any⟩
def LGR_STATUS_service_replay : Field := ⟨33, 0x0, [], 1, 1, .ro, .literal 0, .any⟩
def LGR_STATUS_save_valid : Field := ⟨33, 0x0, [], 2, 1, .ro, .literal 0, .any⟩
def LGR_TOTAL_open : Field := ⟨33, 0x4, [], 0, 15, .ro, .literal 0, .any⟩
def LGR_FAILOVERS_failovers : Field := ⟨33, 0x8, [], 0, 32, .ro, .literal 0, .any⟩
def LGR_REPLAYED_LO_replayed : Field := ⟨33, 0x10, [], 0, 32, .ro, .literal 0, .any⟩
def LGR_REPLAYED_HI_replayed : Field := ⟨33, 0x14, [], 0, 32, .ro, .literal 0, .any⟩
def LGR_FAILED_failed : Field := ⟨33, 0x18, [], 0, 32, .rc, .literal 0, .any⟩
def LGR_LAST_FAILOVER_position : Field := ⟨33, 0x20, [], 0, 6, .ro, .literal 0, .any⟩
def LGR_LAST_FAILOVER_trigger : Field := ⟨33, 0x20, [], 6, 2, .ro, .literal 0, .any⟩
def LGR_LAST_FAILOVER_items : Field := ⟨33, 0x20, [], 8, 10, .ro, .literal 0, .any⟩
def LGR_LAST_STALL_stall_ns : Field := ⟨33, 0x24, [], 0, 24, .ro, .literal 0, .any⟩
def LGR_STALL_MAX_stall_ns : Field := ⟨33, 0x28, [], 0, 24, .rc, .literal 0, .any⟩
def LGR_STALL_LIMIT_stall_limit : Field := ⟨33, 0x2c, [], 0, 24, .rw, .retained 290000, .any⟩
def LGR_FAIL_DROPPED_dropped : Field := ⟨33, 0x3c, [], 0, 32, .rc, .literal 0, .any⟩
def LGR_CAUSE_replay_begun : Field := ⟨33, 0x40, [], 0, 1, .w1c, .literal 0, .any⟩
def LGR_CAUSE_replay_done : Field := ⟨33, 0x40, [], 1, 1, .w1c, .literal 0, .any⟩
def LGR_CAUSE_item_failed : Field := ⟨33, 0x40, [], 2, 1, .w1c, .literal 0, .any⟩
def LGR_CAUSE_log_overflow : Field := ⟨33, 0x40, [], 3, 1, .w1c, .literal 0, .any⟩
def LGR_CAUSE_stall_over : Field := ⟨33, 0x40, [], 4, 1, .w1c, .literal 0, .any⟩
def LGR_CAUSE_service_done : Field := ⟨33, 0x40, [], 5, 1, .w1c, .literal 0, .any⟩
def LGR_CAUSE_figure_full : Field := ⟨33, 0x40, [], 6, 1, .w1c, .literal 0, .any⟩
def LGR_CAUSE_save_lost : Field := ⟨33, 0x40, [], 7, 1, .w1c, .literal 0, .any⟩
def LGR_CAUSE_MASK_enable : Field := ⟨33, 0x44, [], 0, 8, .rw, .retained 255, .any⟩
def LGR_SQUASHED_LO_squashed : Field := ⟨33, 0x48, [], 0, 32, .ro, .literal 0, .any⟩
def LGR_SQUASHED_HI_squashed : Field := ⟨33, 0x4c, [], 0, 32, .ro, .literal 0, .any⟩
def LGR_OCCUPANCY_open : Field := ⟨33, 0x100, [(4, 34)], 0, 10, .ro, .literal 0, .any⟩
def PPL_HASH_CONFIG_symmetric : Field := ⟨48, 0x0, [], 0, 1, .rw, .retained 1, .any⟩
def PPL_HASH_CONFIG_l4_ports : Field := ⟨48, 0x0, [], 1, 1, .rw, .retained 1, .any⟩
def PPL_HASH_CONFIG_vni : Field := ⟨48, 0x0, [], 2, 1, .rw, .retained 0, .any⟩
def PPL_HASH_SEED_seed : Field := ⟨48, 0x4, [], 0, 32, .rw, .retained 1511506142, .any⟩
def PPL_DISPATCH_set_select : Field := ⟨48, 0x8, [], 0, 1, .rw, .retained 0, .any⟩
def PPL_TPID_tpid_a : Field := ⟨48, 0xc, [], 0, 16, .rw, .retained 37120, .only 0⟩
def PPL_TPID_tpid_b : Field := ⟨48, 0xc, [], 16, 16, .rw, .retained 37376, .only 0⟩
def PPL_TUNNEL_PORTS_vxlan_port : Field := ⟨48, 0x10, [], 0, 16, .rw, .retained 4789, .only 0⟩
def PPL_TUNNEL_PORTS_geneve_port : Field := ⟨48, 0x10, [], 16, 16, .rw, .retained 6081, .only 0⟩
def PPL_REFUSED_count : Field := ⟨48, 0x100, [(4, 8)], 0, 32, .rc, .literal 0, .only 0⟩
def PPL_EXCEPTIONS_count : Field := ⟨48, 0x140, [], 0, 32, .rc, .literal 0, .only 0⟩
def PPL_PARSE_TRUNC_count : Field := ⟨48, 0x144, [], 0, 32, .rc, .literal 0, .only 0⟩
def PPL_PORT_VLAN_default_vid : Field := ⟨48, 0x800, [(16, 256)], 0, 12, .rw, .retained 0, .only 0⟩
def PPL_PORT_VLAN_vlan_mode : Field := ⟨48, 0x800, [(16, 256)], 12, 2, .rw, .retained 0, .only 0⟩
def PPL_PORT_VLAN_strip_outer : Field := ⟨48, 0x800, [(16, 256)], 14, 1, .rw, .retained 1, .only 0⟩
def PPL_PORT_VLAN_default_pcp : Field := ⟨48, 0x800, [(16, 256)], 15, 3, .rw, .retained 0, .only 0⟩
def PPL_PORT_VLAN_trust_dscp : Field := ⟨48, 0x800, [(16, 256)], 18, 1, .rw, .retained 0, .only 0⟩
def PPL_PORT_FLOW_port_affinity : Field := ⟨48, 0x804, [(16, 256)], 0, 1, .rw, .retained 0, .only 0⟩
def PPL_PORT_FLOW_affinity_figure : Field := ⟨48, 0x804, [(16, 256)], 1, 2, .rw, .retained 0, .only 0⟩
def PPL_PORT_FLOW_hash_inner : Field := ⟨48, 0x804, [(16, 256)], 3, 1, .rw, .retained 1, .only 0⟩
def PPL_PORT_FLOW_tunnel_term : Field := ⟨48, 0x804, [(16, 256)], 4, 1, .rw, .retained 1, .only 0⟩
def PPL_PORT_FLOW_malformed_refuse : Field := ⟨48, 0x804, [(16, 256)], 5, 1, .rw, .retained 1, .only 0⟩
def PPL_PORT_FLOW_miss_action : Field := ⟨48, 0x804, [(16, 256)], 6, 12, .rw, .retained 0, .only 0⟩
def PPL_PORT_EXC_exception_ring : Field := ⟨48, 0x808, [(16, 256)], 0, 22, .rw, .retained 0, .only 0⟩
def PPL_PORT_EXC_exception_valid : Field := ⟨48, 0x808, [(16, 256)], 22, 1, .rw, .retained 0, .only 0⟩
def PPL_PORT_QUOTA_quota_kib : Field := ⟨48, 0x80c, [(16, 256)], 0, 16, .rw, .retained 2048, .only 0⟩
def PPL_TX_ENTRY_tx_entry : Field := ⟨48, 0x10, [], 0, 14, .ro, .image, .only 1⟩
def PPL_SW_WAIT_sw_wait_us : Field := ⟨48, 0x14, [], 0, 16, .rw, .retained 50, .only 1⟩
def PPL_TX_ACTION_DROPS_count : Field := ⟨48, 0x100, [], 0, 32, .rc, .literal 0, .only 1⟩
def PPL_TX_MTU_DROPS_count : Field := ⟨48, 0x104, [], 0, 32, .rc, .literal 0, .only 1⟩
def PPL_SW_TIMEOUTS_count : Field := ⟨48, 0x108, [], 0, 32, .rc, .literal 0, .only 1⟩
def PPL_SPOOF_DROPS_count : Field := ⟨48, 0x10c, [], 0, 32, .rc, .literal 0, .only 1⟩
def MTB_STATUS_rehash_active : Field := ⟨49, 0x0, [], 0, 1, .ro, .literal 0, .any⟩
def MTB_STATUS_rehash_table : Field := ⟨49, 0x0, [], 1, 4, .ro, .literal 0, .any⟩
def MTB_STATUS_rehash_stalled : Field := ⟨49, 0x0, [], 5, 1, .ro, .literal 0, .any⟩
def MTB_STATUS_compare_active : Field := ⟨49, 0x0, [], 6, 1, .ro, .literal 0, .any⟩
def MTB_AGE_CONFIG_stamp_grain : Field := ⟨49, 0x8, [], 0, 16, .rw, .retained 100, .any⟩
def MTB_AGE_CONFIG_scan_enable : Field := ⟨49, 0x8, [], 16, 1, .rw, .retained 1, .any⟩
def MTB_LEARN_CONFIG_move_window : Field := ⟨49, 0xc, [], 0, 16, .rw, .retained 1000, .any⟩
def MTB_LEARN_CONFIG_flap_threshold : Field := ⟨49, 0xc, [], 16, 3, .rw, .retained 4, .any⟩
def MTB_FLAP_flap_window : Field := ⟨49, 0x10, [], 0, 16, .rw, .retained 10000, .any⟩
def MTB_FLAP_hold_s : Field := ⟨49, 0x10, [], 16, 16, .rw, .retained 60, .any⟩
def MTB_LEARN_ACTION_port_action : Field := ⟨49, 0x14, [], 0, 12, .rw, .retained 0, .any⟩
def MTB_LEARN_ACTION_function_action : Field := ⟨49, 0x14, [], 12, 12, .rw, .retained 0, .any⟩
def MTB_REHASH_REQ_table : Field := ⟨49, 0x18, [], 0, 4, .rc, .literal 0, .any⟩
def MTB_REHASH_REQ_from_learn : Field := ⟨49, 0x18, [], 4, 1, .rc, .literal 0, .any⟩
def MTB_REHASH_REQ_valid : Field := ⟨49, 0x18, [], 31, 1, .rc, .literal 0, .any⟩
def MTB_REHASH_CMD_table : Field := ⟨49, 0x1c, [], 0, 4, .wo, .literal 0, .any⟩
def MTB_REHASH_CMD_op : Field := ⟨49, 0x1c, [], 4, 2, .wo, .literal 0, .any⟩
def MTB_REHASH_POS_bucket : Field := ⟨49, 0x20, [], 0, 26, .ro, .literal 0, .any⟩
def MTB_CAUSE_rehash_request : Field := ⟨49, 0x24, [], 0, 1, .w1c, .literal 0, .any⟩
def MTB_CAUSE_rehash_done : Field := ⟨49, 0x24, [], 1, 1, .w1c, .literal 0, .any⟩
def MTB_CAUSE_rehash_stall : Field := ⟨49, 0x24, [], 2, 1, .w1c, .literal 0, .any⟩
def MTB_CAUSE_flap : Field := ⟨49, 0x24, [], 3, 1, .w1c, .literal 0, .any⟩
def MTB_CAUSE_notify_lost : Field := ⟨49, 0x24, [], 4, 1, .w1c, .literal 0, .any⟩
def MTB_CAUSE_compare_mismatch : Field := ⟨49, 0x24, [], 5, 1, .w1c, .literal 0, .any⟩
def MTB_CAUSE_compare_pass : Field := ⟨49, 0x24, [], 6, 1, .w1c, .literal 0, .any⟩
def MTB_CAUSE_uncorrectable : Field := ⟨49, 0x24, [], 7, 1, .w1c, .literal 0, .any⟩
def MTB_CAUSE_prefix_full : Field := ⟨49, 0x24, [], 8, 1, .w1c, .literal 0, .any⟩
def MTB_CAUSE_learn_drop : Field := ⟨49, 0x24, [], 9, 1, .w1c, .literal 0, .any⟩
def MTB_CAUSE_wrong_port : Field := ⟨49, 0x24, [], 10, 1, .w1c, .literal 0, .any⟩
def MTB_CAUSE_static_conflict : Field := ⟨49, 0x24, [], 11, 1, .w1c, .literal 0, .any⟩
def MTB_CAUSE_command_done : Field := ⟨49, 0x24, [], 12, 1, .w1c, .literal 0, .any⟩
def MTB_CAUSE_MASK_enable : Field := ⟨49, 0x28, [], 0, 13, .rw, .retained 4351, .any⟩
def MTB_COMPARE_COUNT_records : Field := ⟨49, 0x38, [], 0, 24, .rw, .literal 0, .any⟩
def MTB_COMPARE_CTRL_table : Field := ⟨49, 0x3c, [], 0, 4, .rw, .literal 0, .any⟩
def MTB_COMPARE_CTRL_compare_pf : Field := ⟨49, 0x3c, [], 4, 4, .rw, .literal 0, .any⟩
def MTB_COMPARE_CTRL_enable : Field := ⟨49, 0x3c, [], 8, 1, .rw, .literal 0, .any⟩
def MTB_COMPARE_CTRL_compare_settle : Field := ⟨49, 0x3c, [], 16, 8, .rw, .literal 0, .any⟩
def MTB_COMPARE_CTRL_compare_interval : Field := ⟨49, 0x3c, [], 24, 8, .rw, .literal 0, .any⟩
def MTB_COMPARE_RATE_compare_kib_s : Field := ⟨49, 0x40, [], 0, 20, .rw, .literal 0, .any⟩
def MTB_COMPARE_STATUS_host_error : Field := ⟨49, 0x44, [], 0, 1, .w1c, .literal 0, .any⟩
def MTB_COMPARE_STATUS_passes : Field := ⟨49, 0x44, [], 8, 24, .ro, .literal 0, .any⟩
def MTB_COMPARE_FIFO_record : Field := ⟨49, 0x48, [], 0, 24, .rc, .literal 0, .any⟩
def MTB_COMPARE_FIFO_kind : Field := ⟨49, 0x48, [], 24, 2, .rc, .literal 0, .any⟩
def MTB_COMPARE_FIFO_valid : Field := ⟨49, 0x48, [], 31, 1, .rc, .literal 0, .any⟩
def MTB_COMPARE_DROPPED_dropped : Field := ⟨49, 0x4c, [], 0, 32, .rc, .literal 0, .any⟩
def MTB_INSERT_FAILS_count : Field := ⟨49, 0x80, [], 0, 32, .rc, .literal 0, .any⟩
def MTB_CACHE_MISSES_count : Field := ⟨49, 0x84, [], 0, 32, .rc, .literal 0, .any⟩
def MTB_AGED_count : Field := ⟨49, 0x88, [], 0, 32, .rc, .literal 0, .any⟩
def MTB_LEARN_DROPS_count : Field := ⟨49, 0x8c, [], 0, 32, .rc, .literal 0, .any⟩
def MTB_NOTIFY_LOST_count : Field := ⟨49, 0x90, [], 0, 32, .rc, .literal 0, .any⟩
def MTB_STATIC_CONFLICTS_count : Field := ⟨49, 0x94, [], 0, 32, .rc, .literal 0, .any⟩
def MTB_FLAP_IGNORED_count : Field := ⟨49, 0x98, [], 0, 32, .rc, .literal 0, .any⟩
def MTB_WRONG_PORT_count : Field := ⟨49, 0x9c, [], 0, 32, .rc, .literal 0, .any⟩
def MTB_TABLE_CFG_kind : Field := ⟨49, 0x100, [(32, 16)], 0, 2, .ro, .image, .any⟩
def MTB_TABLE_CFG_key_len : Field := ⟨49, 0x100, [(32, 16)], 2, 6, .ro, .image, .any⟩
def MTB_TABLE_CFG_log2_size : Field := ⟨49, 0x100, [(32, 16)], 8, 5, .ro, .image, .any⟩
def MTB_TABLE_CFG_entry128 : Field := ⟨49, 0x100, [(32, 16)], 13, 1, .ro, .image, .any⟩
def MTB_TABLE_CFG_aging : Field := ⟨49, 0x100, [(32, 16)], 14, 1, .ro, .image, .any⟩
def MTB_TABLE_CFG_cache_pin : Field := ⟨49, 0x100, [(32, 16)], 15, 1, .ro, .image, .any⟩
def MTB_TABLE_CFG_host_write : Field := ⟨49, 0x100, [(32, 16)], 16, 1, .ro, .image, .any⟩
def MTB_TABLE_BASE_base_mib : Field := ⟨49, 0x104, [(32, 16)], 0, 14, .ro, .image, .any⟩
def MTB_TABLE_GEN_cur_gen : Field := ⟨49, 0x118, [(32, 16)], 0, 1, .ro, .retained 0, .any⟩
def MTB_TABLE_AGE_age_limit : Field := ⟨49, 0x11c, [(32, 16)], 0, 31, .rw, .retained 300000, .any⟩
def MTB_LEARN_RING_ring : Field := ⟨49, 0x300, [(4, 5)], 0, 22, .rw, .retained 0, .any⟩
def MTB_LEARN_RING_valid : Field := ⟨49, 0x300, [(4, 5)], 22, 1, .rw, .retained 0, .any⟩
def MTB_CMD_op : Field := ⟨49, 0x1000, [(256, 16)], 0, 4, .wo, .literal 0, .any⟩
def MTB_CMD_table : Field := ⟨49, 0x1000, [(256, 16)], 4, 4, .wo, .literal 0, .any⟩
def MTB_CMD_stage : Field := ⟨49, 0x1000, [(256, 16)], 8, 2, .wo, .literal 0, .any⟩
def MTB_CMD_irq : Field := ⟨49, 0x1000, [(256, 16)], 10, 1, .wo, .literal 0, .any⟩
def MTB_CMD_ARG_index : Field := ⟨49, 0x1004, [(256, 16)], 0, 26, .rw, .literal 0, .any⟩
def MTB_CMD_ARG_slot : Field := ⟨49, 0x1004, [(256, 16)], 26, 2, .rw, .literal 0, .any⟩
def MTB_CMD_ARG_gen : Field := ⟨49, 0x1004, [(256, 16)], 28, 1, .rw, .literal 0, .any⟩
def MTB_CMD_STATUS_busy : Field := ⟨49, 0x1008, [(256, 16)], 0, 1, .ro, .literal 0, .any⟩
def MTB_CMD_STATUS_overrun : Field := ⟨49, 0x1008, [(256, 16)], 1, 1, .ro, .literal 0, .any⟩
def MTB_CMD_STATUS_result : Field := ⟨49, 0x1008, [(256, 16)], 2, 4, .ro, .literal 0, .any⟩
def MTB_CMD_STATUS_steps : Field := ⟨49, 0x1008, [(256, 16)], 6, 6, .ro, .literal 0, .any⟩
def MTB_CMD_WHERE_bucket : Field := ⟨49, 0x100c, [(256, 16)], 0, 26, .ro, .literal 0, .any⟩
def MTB_CMD_WHERE_slot : Field := ⟨49, 0x100c, [(256, 16)], 26, 2, .ro, .literal 0, .any⟩
def MTB_CMD_WHERE_gen : Field := ⟨49, 0x100c, [(256, 16)], 28, 1, .ro, .literal 0, .any⟩
def MTB_CMD_WHERE_in_b1 : Field := ⟨49, 0x100c, [(256, 16)], 29, 1, .ro, .literal 0, .any⟩
def MTB_CMD_AGE_age_ms : Field := ⟨49, 0x1010, [(256, 16)], 0, 32, .ro, .literal 0, .any⟩
def SET_STATUS_busy : Field := ⟨65, 0x0, [], 0, 8, .ro, .literal 0, .any⟩
def SET_STATUS_queued : Field := ⟨65, 0x0, [], 8, 10, .ro, .literal 0, .any⟩
def SET_STATUS_stopped : Field := ⟨65, 0x0, [], 18, 1, .ro, .literal 0, .any⟩
def SET_STATUS_cs_writable : Field := ⟨65, 0x0, [], 19, 1, .ro, .literal 0, .any⟩
def SET_CAUSE_thread_fault : Field := ⟨65, 0x4, [], 0, 1, .w1c, .literal 0, .any⟩
def SET_CAUSE_set_fault : Field := ⟨65, 0x4, [], 1, 1, .w1c, .literal 0, .any⟩
def SET_CAUSE_cs_corrected : Field := ⟨65, 0x4, [], 2, 1, .w1c, .literal 0, .any⟩
def SET_CAUSE_sram_corrected : Field := ⟨65, 0x4, [], 3, 1, .w1c, .literal 0, .any⟩
def SET_CAUSE_standstill : Field := ⟨65, 0x4, [], 4, 1, .w1c, .literal 0, .any⟩
def SET_CAUSE_chan_abandoned : Field := ⟨65, 0x4, [], 5, 1, .w1c, .literal 0, .any⟩
def SET_CAUSE_debug_stop : Field := ⟨65, 0x4, [], 6, 1, .w1c, .literal 0, .any⟩
def SET_CAUSE_cs_write_bad : Field := ⟨65, 0x4, [], 7, 1, .w1c, .literal 0, .any⟩
def SET_CAUSE_MASK_enable : Field := ⟨65, 0x8, [], 0, 8, .rw, .retained 51, .any⟩
def SET_FAULT_FIFO_thread : Field := ⟨65, 0xc, [], 0, 8, .rc, .literal 0, .any⟩
def SET_FAULT_FIFO_code : Field := ⟨65, 0xc, [], 8, 4, .rc, .literal 0, .any⟩
def SET_FAULT_FIFO_pc : Field := ⟨65, 0xc, [], 12, 14, .rc, .literal 0, .any⟩
def SET_FAULT_FIFO_valid : Field := ⟨65, 0xc, [], 31, 1, .rc, .literal 0, .any⟩
def SET_FAULT_DROPPED_count : Field := ⟨65, 0x10, [], 0, 32, .rc, .literal 0, .any⟩
def SET_THREAD_FAULTS_count : Field := ⟨65, 0x14, [], 0, 32, .rc, .literal 0, .any⟩
def SET_WAIT_TIMEOUTS_count : Field := ⟨65, 0x18, [], 0, 32, .rc, .literal 0, .any⟩
def SET_STANDSTILLS_count : Field := ⟨65, 0x1c, [], 0, 32, .rc, .literal 0, .any⟩
def SET_CS_CORRECTED_count : Field := ⟨65, 0x20, [], 0, 32, .rc, .literal 0, .any⟩
def SET_SRAM_CORRECTED_count : Field := ⟨65, 0x24, [], 0, 32, .rc, .literal 0, .any⟩
def SET_ISSUED_LO_issued : Field := ⟨65, 0x28, [], 0, 32, .ro, .literal 0, .any⟩
def SET_ISSUED_HI_issued : Field := ⟨65, 0x2c, [], 0, 32, .ro, .literal 0, .any⟩
def SET_PASSES_LO_passes : Field := ⟨65, 0x30, [], 0, 32, .ro, .literal 0, .any⟩
def SET_PASSES_HI_passes : Field := ⟨65, 0x34, [], 0, 32, .ro, .literal 0, .any⟩
def SET_LAST_STANDSTILL_thread : Field := ⟨65, 0x58, [], 0, 7, .ro, .literal 0, .any⟩
def SET_LAST_STANDSTILL_cond : Field := ⟨65, 0x58, [], 7, 7, .ro, .literal 0, .any⟩
def SET_ENGINE_CFG_floor2 : Field := ⟨65, 0x100, [(4, 16)], 0, 8, .rw, .retained 0, .any⟩
def SET_ENGINE_CFG_priority : Field := ⟨65, 0x100, [(4, 16)], 8, 8, .rw, .retained 0, .any⟩
def SET_CS_ADDR_addr : Field := ⟨65, 0x200, [], 0, 14, .rw, .literal 0, .any⟩
def SET_CS_CMD_read : Field := ⟨65, 0x208, [], 0, 1, .wo, .literal 0, .any⟩
def SET_CS_CMD_write : Field := ⟨65, 0x208, [], 1, 1, .wo, .literal 0, .any⟩
def SET_DBG_SELECT_thread : Field := ⟨65, 0x300, [], 0, 7, .rw, .literal 0, .any⟩
def SET_DBG_CMD_cmd : Field := ⟨65, 0x304, [], 0, 3, .wo, .literal 0, .any⟩
def SET_DBG_STATE_state : Field := ⟨65, 0x308, [], 0, 3, .ro, .literal 0, .any⟩
def SET_DBG_STATE_pc : Field := ⟨65, 0x308, [], 3, 14, .ro, .literal 0, .any⟩
def SET_DBG_STATE_depth : Field := ⟨65, 0x308, [], 17, 4, .ro, .literal 0, .any⟩
def SET_DBG_STATE_cond : Field := ⟨65, 0x308, [], 21, 7, .ro, .literal 0, .any⟩
def SET_DBG_STATE_send_open : Field := ⟨65, 0x308, [], 28, 1, .ro, .literal 0, .any⟩
def SET_DBG_STATE_read_held : Field := ⟨65, 0x308, [], 29, 1, .ro, .literal 0, .any⟩
def SET_DBG_STATE_holds_item : Field := ⟨65, 0x308, [], 30, 1, .ro, .literal 0, .any⟩
def SET_DBG_CHAN_send_chan : Field := ⟨65, 0x30c, [], 0, 6, .ro, .literal 0, .any⟩
def SET_DBG_CHAN_staged : Field := ⟨65, 0x30c, [], 6, 4, .ro, .literal 0, .any⟩
def SET_DBG_CHAN_read_chan : Field := ⟨65, 0x30c, [], 10, 6, .ro, .literal 0, .any⟩
def SET_DBG_STACK_entry_2k : Field := ⟨65, 0x310, [(4, 4)], 0, 14, .ro, .literal 0, .any⟩
def SET_DBG_STACK_entry_2k_1 : Field := ⟨65, 0x310, [(4, 4)], 16, 14, .ro, .literal 0, .any⟩
def CRY_INST_STATUS_busy : Field := ⟨80, 0x0, [], 0, 1, .ro, .literal 0, .any⟩
def CRY_INST_STATUS_kat_pass : Field := ⟨80, 0x0, [], 1, 1, .ro, .literal 0, .any⟩
def CRY_INST_CAUSE_corrected : Field := ⟨80, 0x4, [], 0, 1, .w1c, .literal 0, .any⟩
def CRY_INST_CAUSE_uncorrectable : Field := ⟨80, 0x4, [], 1, 1, .w1c, .literal 0, .any⟩
def CRY_INST_CAUSE_kat_fail : Field := ⟨80, 0x4, [], 2, 1, .w1c, .literal 0, .any⟩
def CRY_INST_MASK_enable : Field := ⟨80, 0x8, [], 0, 3, .rw, .retained 6, .any⟩
def CRY_INST_BYTES_LO_bytes : Field := ⟨80, 0x10, [], 0, 32, .ro, .literal 0, .any⟩
def CRY_INST_BYTES_HI_bytes : Field := ⟨80, 0x14, [], 0, 32, .ro, .literal 0, .any⟩
def CRY_INST_CORRECTED_count : Field := ⟨80, 0x18, [], 0, 32, .rc, .literal 0, .any⟩
def CRY_NOTIFY_ring : Field := ⟨80, 0x100, [], 0, 22, .rw, .retained 0, .any⟩
def CRY_NOTIFY_valid : Field := ⟨80, 0x100, [], 22, 1, .rw, .retained 0, .any⟩
def CRY_RX_TABLE_table : Field := ⟨80, 0x104, [], 0, 4, .ro, .image, .any⟩
def CRY_RX_TABLE_valid : Field := ⟨80, 0x104, [], 4, 1, .ro, .image, .any⟩
def CRY_CAUSE_limit_record : Field := ⟨80, 0x108, [], 0, 1, .w1c, .literal 0, .any⟩
def CRY_CAUSE_ctx_failed : Field := ⟨80, 0x108, [], 1, 1, .w1c, .literal 0, .any⟩
def CRY_CAUSE_notify_lost : Field := ⟨80, 0x108, [], 2, 1, .w1c, .literal 0, .any⟩
def CRY_CAUSE_rx_queue_full : Field := ⟨80, 0x108, [], 3, 1, .w1c, .literal 0, .any⟩
def CRY_CAUSE_MASK_enable : Field := ⟨80, 0x10c, [], 0, 4, .rw, .retained 15, .any⟩
def CRY_RX_AUTH_FAIL_count : Field := ⟨80, 0x110, [], 0, 32, .rc, .literal 0, .any⟩
def CRY_RX_REPLAY_count : Field := ⟨80, 0x114, [], 0, 32, .rc, .literal 0, .any⟩
def CRY_RX_MALFORMED_count : Field := ⟨80, 0x118, [], 0, 32, .rc, .literal 0, .any⟩
def CRY_RX_QUEUE_REFUSED_count : Field := ⟨80, 0x11c, [], 0, 32, .rc, .literal 0, .any⟩
def CRY_TX_REFUSED_count : Field := ⟨80, 0x120, [], 0, 32, .rc, .literal 0, .any⟩
def CRY_TX_LIMIT_DROPS_count : Field := ⟨80, 0x124, [], 0, 32, .rc, .literal 0, .any⟩
def CRY_NOTIFY_LOST_count : Field := ⟨80, 0x128, [], 0, 32, .rc, .literal 0, .any⟩
def CRY_CTX_SELECT_context : Field := ⟨80, 0x140, [], 0, 24, .rw, .literal 0, .any⟩
def CRY_CTX_CMD_snap : Field := ⟨80, 0x144, [], 0, 1, .wo, .literal 0, .any⟩
def CRY_CTX_STATUS_busy : Field := ⟨80, 0x148, [], 0, 1, .ro, .literal 0, .any⟩
def CRY_CTX_STATUS_valid : Field := ⟨80, 0x148, [], 1, 1, .ro, .literal 0, .any⟩
def CRY_CTX_STATUS_denied : Field := ⟨80, 0x148, [], 2, 1, .ro, .literal 0, .any⟩
def CRY_MACSEC_TX_tx_sc : Field := ⟨80, 0x1000, [(8, 256)], 0, 24, .rw, .retained 0, .any⟩
def CRY_MACSEC_TX_tx_enable : Field := ⟨80, 0x1000, [(8, 256)], 24, 1, .rw, .retained 0, .any⟩
def CRY_MACSEC_RX_rx_sc_base : Field := ⟨80, 0x1004, [(8, 256)], 0, 24, .rw, .retained 0, .any⟩
def CRY_MACSEC_RX_rx_sc_count : Field := ⟨80, 0x1004, [(8, 256)], 24, 5, .rw, .retained 0, .any⟩
def CRY_MACSEC_RX_rx_enable : Field := ⟨80, 0x1004, [(8, 256)], 29, 1, .rw, .retained 0, .any⟩
def CRY_MACSEC_RX_strict : Field := ⟨80, 0x1004, [(8, 256)], 30, 1, .rw, .retained 1, .any⟩
def STO_STATUS_controllers : Field := ⟨81, 0x0, [], 0, 13, .ro, .literal 0, .any⟩
def STO_DEEP_USED_used_mib : Field := ⟨81, 0x4, [], 0, 16, .ro, .literal 0, .any⟩
def STO_DEEP_LIMIT_deep_limit_mib : Field := ⟨81, 0x8, [], 0, 12, .rw, .retained 64, .any⟩
def STO_TCP_CONFIG_rto_min : Field := ⟨81, 0xc, [], 0, 8, .rw, .retained 5, .any⟩
def STO_TCP_CONFIG_rto_max : Field := ⟨81, 0xc, [], 8, 16, .rw, .retained 2000, .any⟩
def STO_TCP_CONFIG_max_retries : Field := ⟨81, 0xc, [], 24, 4, .rw, .retained 8, .any⟩
def STO_NOTIFY_ring : Field := ⟨81, 0x10, [], 0, 22, .rw, .retained 0, .any⟩
def STO_NOTIFY_valid : Field := ⟨81, 0x10, [], 22, 1, .rw, .retained 0, .any⟩
def STO_CAUSE_digest_error : Field := ⟨81, 0x14, [], 0, 1, .w1c, .literal 0, .any⟩
def STO_CAUSE_pi_error : Field := ⟨81, 0x14, [], 1, 1, .w1c, .literal 0, .any⟩
def STO_CAUSE_conn_lost : Field := ⟨81, 0x14, [], 2, 1, .w1c, .literal 0, .any⟩
def STO_CAUSE_deep_full : Field := ⟨81, 0x14, [], 3, 1, .w1c, .literal 0, .any⟩
def STO_CAUSE_notify_lost : Field := ⟨81, 0x14, [], 4, 1, .w1c, .literal 0, .any⟩
def STO_CAUSE_ctrl_reset : Field := ⟨81, 0x14, [], 5, 1, .w1c, .literal 0, .any⟩
def STO_CAUSE_bad_doorbell : Field := ⟨81, 0x14, [], 6, 1, .w1c, .literal 0, .any⟩
def STO_CAUSE_uncorrectable : Field := ⟨81, 0x14, [], 7, 1, .w1c, .literal 0, .any⟩
def STO_CAUSE_MASK_enable : Field := ⟨81, 0x18, [], 0, 8, .rw, .retained 191, .any⟩
def STO_HDGST_ERRORS_count : Field := ⟨81, 0x20, [], 0, 32, .rc, .literal 0, .any⟩
def STO_DDGST_ERRORS_count : Field := ⟨81, 0x24, [], 0, 32, .rc, .literal 0, .any⟩
def STO_PI_ERRORS_count : Field := ⟨81, 0x28, [], 0, 32, .rc, .literal 0, .any⟩
def STO_TCP_RETRANS_count : Field := ⟨81, 0x2c, [], 0, 32, .rc, .literal 0, .any⟩
def STO_DEEP_WAITS_count : Field := ⟨81, 0x30, [], 0, 32, .rc, .literal 0, .any⟩
def STO_RX_OOO_DROPS_count : Field := ⟨81, 0x34, [], 0, 32, .rc, .literal 0, .any⟩
def STO_BAD_DOORBELLS_count : Field := ⟨81, 0x38, [], 0, 32, .rc, .literal 0, .any⟩
def STO_NOTIFY_LOST_count : Field := ⟨81, 0x3c, [], 0, 32, .rc, .literal 0, .any⟩
def SCH_CONFIG_bar_ticks : Field := ⟨96, 0x0, [], 0, 11, .rw, .retained 250, .any⟩
def SCH_DEVICE_dev_ceiling : Field := ⟨96, 0x4, [], 0, 24, .rw, .retained 0, .any⟩
def SCH_STATUS_cap : Field := ⟨96, 0x8, [], 0, 24, .ro, .literal 0, .any⟩
def SCH_BARS_LO_bars : Field := ⟨96, 0xc, [], 0, 32, .ro, .literal 0, .any⟩
def SCH_BARS_HI_bars : Field := ⟨96, 0x10, [], 0, 32, .ro, .literal 0, .any⟩
def SCH_PKT_CAPPED_count : Field := ⟨96, 0x14, [], 0, 32, .rc, .literal 0, .any⟩
def SCH_FLOOR_SCALED_count : Field := ⟨96, 0x18, [], 0, 32, .rc, .literal 0, .any⟩
def SCH_NODE_SELECT_index : Field := ⟨96, 0x20, [], 0, 22, .rw, .literal 0, .any⟩
def SCH_NODE_SELECT_level : Field := ⟨96, 0x20, [], 22, 3, .rw, .literal 0, .any⟩
def SCH_NODE_CMD_op : Field := ⟨96, 0x24, [], 0, 2, .wo, .literal 0, .any⟩
def SCH_NODE_STATUS_busy : Field := ⟨96, 0x28, [], 0, 1, .ro, .literal 0, .any⟩
def SCH_NODE_STATUS_result : Field := ⟨96, 0x28, [], 1, 2, .ro, .literal 0, .any⟩
def SCH_PORT_rate_gbps : Field := ⟨96, 0x800, [(4, 256)], 0, 21, .ro, .image, .any⟩
def SCH_PORT_paused : Field := ⟨96, 0x800, [(4, 256)], 24, 8, .ro, .literal 0, .any⟩
def DMA_CTRL_burst_log2 : Field := ⟨97, 0x0, [], 0, 3, .rw, .retained 6, .any⟩
def DMA_CTRL_share_permille : Field := ⟨97, 0x0, [], 3, 10, .rw, .retained 0, .any⟩
def DMA_CTRL_paced : Field := ⟨97, 0x0, [], 13, 1, .rw, .retained 0, .any⟩
def DMA_CTRL_line : Field := ⟨97, 0x0, [], 14, 6, .rw, .retained 48, .any⟩
def DMA_CTRL_ro : Field := ⟨97, 0x0, [], 20, 1, .rw, .retained 0, .any⟩
def DMA_CTRL_ns : Field := ⟨97, 0x0, [], 21, 1, .rw, .retained 0, .any⟩
def DMA_CTRL_tph : Field := ⟨97, 0x0, [], 22, 1, .rw, .retained 0, .any⟩
def DMA_CTRL_pasid_en : Field := ⟨97, 0x0, [], 23, 1, .rw, .retained 0, .any⟩
def DMA_CTRL_tph_tag : Field := ⟨97, 0x0, [], 24, 8, .rw, .retained 0, .any⟩
def DMA_PASID_pasid : Field := ⟨97, 0x4, [], 0, 20, .rw, .retained 0, .any⟩
def DMA_FUNC_function : Field := ⟨97, 0x8, [], 0, 14, .rw, .retained 0, .any⟩
def DMA_CMD_op : Field := ⟨97, 0x18, [], 0, 3, .wo, .literal 0, .any⟩
def DMA_STATUS_state : Field := ⟨97, 0x1c, [], 0, 3, .ro, .literal 0, .any⟩
def DMA_STATUS_code : Field := ⟨97, 0x1c, [], 3, 4, .ro, .literal 0, .any⟩
def DMA_STATUS_requests : Field := ⟨97, 0x1c, [], 8, 8, .ro, .literal 0, .any⟩
def DMA_STATUS_owner : Field := ⟨97, 0x1c, [], 16, 16, .ro, .literal 0, .any⟩
def DMA_CUR_LO_cur : Field := ⟨97, 0x20, [], 0, 32, .ro, .literal 0, .any⟩
def DMA_CUR_HI_cur : Field := ⟨97, 0x24, [], 0, 32, .ro, .literal 0, .any⟩
def DMA_REMAIN_remain : Field := ⟨97, 0x28, [], 0, 24, .ro, .literal 0, .any⟩
def DMA_CAUSE_half : Field := ⟨97, 0x30, [], 0, 1, .w1c, .literal 0, .any⟩
def DMA_CAUSE_full : Field := ⟨97, 0x30, [], 1, 1, .w1c, .literal 0, .any⟩
def DMA_CAUSE_list_end : Field := ⟨97, 0x30, [], 2, 1, .w1c, .literal 0, .any⟩
def DMA_CAUSE_error : Field := ⟨97, 0x30, [], 3, 1, .w1c, .literal 0, .any⟩
def DMA_CAUSE_overrun : Field := ⟨97, 0x30, [], 4, 1, .w1c, .literal 0, .any⟩
def DMA_CAUSE_mover_retry : Field := ⟨97, 0x30, [], 5, 1, .w1c, .literal 0, .any⟩
def DMA_CAUSE_halted : Field := ⟨97, 0x30, [], 6, 1, .w1c, .literal 0, .any⟩
def DMA_CAUSE_start_refused : Field := ⟨97, 0x30, [], 7, 1, .w1c, .literal 0, .any⟩
def DMA_CAUSE_req_overflow : Field := ⟨97, 0x30, [], 8, 1, .w1c, .literal 0, .any⟩
def DMA_CAUSE_MASK_enable : Field := ⟨97, 0x34, [], 0, 9, .rw, .retained 479, .any⟩
def DMA_BYTES_LO_bytes : Field := ⟨97, 0x38, [], 0, 32, .ro, .literal 0, .any⟩
def DMA_BYTES_HI_bytes : Field := ⟨97, 0x3c, [], 0, 32, .ro, .literal 0, .any⟩
def DMA_DESC_DONE_count : Field := ⟨97, 0x40, [], 0, 32, .rc, .literal 0, .any⟩
def DMA_REFUSED_count : Field := ⟨97, 0x44, [], 0, 32, .rc, .literal 0, .any⟩
def MAC_LANE_STATUS_rate : Field := ⟨112, 0x0, [], 0, 3, .ro, .image, .any⟩
def MAC_LANE_STATUS_port : Field := ⟨112, 0x0, [], 3, 5, .ro, .image, .any⟩
def MAC_LANE_STATUS_state : Field := ⟨112, 0x0, [], 8, 2, .ro, .literal 0, .any⟩
def MAC_LANE_STATUS_cal_valid : Field := ⟨112, 0x0, [], 10, 1, .ro, .literal 0, .any⟩
def MAC_LANE_CAUSE_link_down : Field := ⟨112, 0x4, [], 0, 1, .w1c, .literal 0, .any⟩
def MAC_LANE_CAUSE_link_up : Field := ⟨112, 0x4, [], 1, 1, .w1c, .literal 0, .any⟩
def MAC_LANE_CAUSE_fec_uncorrected : Field := ⟨112, 0x4, [], 2, 1, .w1c, .literal 0, .any⟩
def MAC_LANE_CAUSE_cal_done : Field := ⟨112, 0x4, [], 3, 1, .w1c, .literal 0, .any⟩
def MAC_LANE_CAUSE_cal_lost : Field := ⟨112, 0x4, [], 4, 1, .w1c, .literal 0, .any⟩
def MAC_LANE_MASK_enable : Field := ⟨112, 0x8, [], 0, 5, .rw, .retained 27, .any⟩
def MAC_LANE_CAL_int_rx : Field := ⟨112, 0x20, [], 0, 16, .ro, .literal 0, .any⟩
def MAC_LANE_CAL_int_tx : Field := ⟨112, 0x20, [], 16, 16, .ro, .literal 0, .any⟩
def MAC_LANE_BOARD_board_rx : Field := ⟨112, 0x24, [], 0, 16, .rw, .retained 0, .any⟩
def MAC_LANE_BOARD_board_tx : Field := ⟨112, 0x24, [], 16, 16, .rw, .retained 0, .any⟩
def MAC_LANE_TXEQ_pre2 : Field := ⟨112, 0x28, [], 0, 6, .rwl, .image, .any⟩
def MAC_LANE_TXEQ_pre1 : Field := ⟨112, 0x28, [], 6, 6, .rwl, .image, .any⟩
def MAC_LANE_TXEQ_main : Field := ⟨112, 0x28, [], 12, 6, .rwl, .image, .any⟩
def MAC_LANE_TXEQ_post1 : Field := ⟨112, 0x28, [], 18, 6, .rwl, .image, .any⟩
def MAC_CAUSE_port_change : Field := ⟨113, 0x0, [], 0, 1, .w1c, .literal 0, .any⟩
def MAC_CAUSE_storm : Field := ⟨113, 0x0, [], 1, 1, .w1c, .literal 0, .any⟩
def MAC_CAUSE_rx_overflow : Field := ⟨113, 0x0, [], 2, 1, .w1c, .literal 0, .any⟩
def MAC_CAUSE_tx_stomped : Field := ⟨113, 0x0, [], 3, 1, .w1c, .literal 0, .any⟩
def MAC_CAUSE_flexe_switch : Field := ⟨113, 0x0, [], 4, 1, .w1c, .literal 0, .any⟩
def MAC_CAUSE_flexe_fault : Field := ⟨113, 0x0, [], 5, 1, .w1c, .literal 0, .any⟩
def MAC_CAUSE_rx_failed : Field := ⟨113, 0x0, [], 6, 1, .w1c, .literal 0, .any⟩
def MAC_CAUSE_MASK_enable : Field := ⟨113, 0x4, [], 0, 7, .rw, .retained 127, .any⟩
def MAC_PORT_CFG_speed : Field := ⟨113, 0x100, [(16, 32)], 0, 3, .ro, .image, .any⟩
def MAC_PORT_CFG_flexe : Field := ⟨113, 0x100, [(16, 32)], 3, 1, .ro, .image, .any⟩
def MAC_PORT_CFG_eee_enable : Field := ⟨113, 0x100, [(16, 32)], 4, 1, .rw, .retained 0, .any⟩
def MAC_PORT_CFG_lpi_idle_us : Field := ⟨113, 0x100, [(16, 32)], 8, 8, .rw, .retained 10, .any⟩
def MAC_PORT_CFG_tx_tw_us : Field := ⟨113, 0x100, [(16, 32)], 16, 16, .rw, .retained 0, .any⟩
def MAC_PORT_STATUS_up : Field := ⟨113, 0x104, [(16, 32)], 0, 1, .ro, .literal 0, .any⟩
def MAC_PORT_STATUS_lpi_tx : Field := ⟨113, 0x104, [(16, 32)], 1, 1, .ro, .literal 0, .any⟩
def MAC_PORT_STATUS_lpi_rx : Field := ⟨113, 0x104, [(16, 32)], 2, 1, .ro, .literal 0, .any⟩
def MAC_PORT_STATUS_cal_b : Field := ⟨113, 0x104, [(16, 32)], 3, 1, .ro, .literal 0, .any⟩
def MAC_PORT_STATUS_flexe_lock : Field := ⟨113, 0x104, [(16, 32)], 4, 1, .ro, .literal 0, .any⟩
def MAC_PORT_STATUS_switch_busy : Field := ⟨113, 0x104, [(16, 32)], 5, 1, .ro, .literal 0, .any⟩
def MAC_PORT_FLEXE_CMD_switch : Field := ⟨113, 0x108, [(16, 32)], 0, 1, .wo, .literal 0, .any⟩
def MAC_INST_CFG_max_frame : Field := ⟨113, 0x800, [(16, 256)], 0, 15, .rw, .retained 9216, .any⟩
def MAC_INST_CFG_fc_mode : Field := ⟨113, 0x800, [(16, 256)], 15, 2, .rw, .retained 0, .any⟩
def MAC_INST_CFG_pfc_classes : Field := ⟨113, 0x800, [(16, 256)], 17, 8, .rw, .retained 0, .any⟩
def MAC_INST_CFG_rx_honour : Field := ⟨113, 0x800, [(16, 256)], 25, 1, .rw, .retained 1, .any⟩
def MAC_INST_CFG_tx_generate : Field := ⟨113, 0x800, [(16, 256)], 26, 1, .rw, .retained 1, .any⟩
def MAC_INST_PFC_xoff : Field := ⟨113, 0x80c, [(16, 256)], 0, 4, .rw, .retained 8, .any⟩
def MAC_INST_PFC_xon : Field := ⟨113, 0x80c, [(16, 256)], 4, 4, .rw, .retained 4, .any⟩
def MAC_INST_PFC_quanta : Field := ⟨113, 0x80c, [(16, 256)], 8, 16, .rw, .retained 65535, .any⟩
def MAC_INST_PFC_watchdog_ms : Field := ⟨113, 0x80c, [(16, 256)], 24, 8, .rw, .retained 100, .any⟩
def MAC_INST_STATE_formed : Field := ⟨113, 0x2000, [(4, 256)], 0, 1, .ro, .literal 0, .any⟩
def MAC_INST_STATE_up : Field := ⟨113, 0x2000, [(4, 256)], 1, 1, .ro, .literal 0, .any⟩
def MAC_INST_STATE_paused : Field := ⟨113, 0x2000, [(4, 256)], 8, 8, .ro, .literal 0, .any⟩
def MAC_INST_STATE_storm : Field := ⟨113, 0x2000, [(4, 256)], 16, 8, .ro, .literal 0, .any⟩
def MAC_INST_STATE_xoff_sent : Field := ⟨113, 0x2000, [(4, 256)], 24, 8, .ro, .literal 0, .any⟩
def TMP_STATUS_ref_lost : Field := ⟨128, 0x0, [], 0, 1, .ro, .literal 0, .any⟩
def TMP_STATUS_lead_holdover : Field := ⟨128, 0x0, [], 1, 1, .ro, .literal 0, .any⟩
def TMP_STATUS_follow_holdover : Field := ⟨128, 0x0, [], 2, 1, .ro, .literal 0, .any⟩
def TMP_CAUSE_MASK_enable : Field := ⟨128, 0x8, [], 0, 21, .rw, .retained 1048575, .any⟩
def TMP_CONFIG_tc_switched : Field := ⟨128, 0xc, [], 0, 1, .rw, .retained 1, .any⟩
def TMP_CONFIG_tc_hairpin : Field := ⟨128, 0xc, [], 1, 1, .rw, .retained 1, .any⟩
def TMP_TICKS_LO_value : Field := ⟨128, 0x10, [], 0, 32, .ro, .literal 0, .any⟩
def TMP_TICKS_HI_value : Field := ⟨128, 0x14, [], 0, 32, .ro, .literal 0, .any⟩
def TMP_UPTIME_MS_value : Field := ⟨128, 0x18, [], 0, 32, .ro, .literal 0, .any⟩
def TMP_REF_CFG_ref_sub_ppb : Field := ⟨128, 0x1c, [], 0, 20, .rw, .retained 100000, .any⟩
def TMP_SNAP_CMD_snap : Field := ⟨128, 0x20, [], 0, 1, .wo, .literal 0, .any⟩
def TMP_CAP_RING_ring : Field := ⟨128, 0x24, [], 0, 22, .rw, .retained 0, .any⟩
def TMP_CAP_RING_valid : Field := ⟨128, 0x24, [], 22, 1, .rw, .retained 0, .any⟩
def TMP_ONESTEP_SKIPPED_count : Field := ⟨128, 0x28, [], 0, 32, .rc, .literal 0, .any⟩
def TMP_CAP_LOST_count : Field := ⟨128, 0x2c, [], 0, 32, .rc, .literal 0, .any⟩
def TMP_PIN_CFG_dir : Field := ⟨128, 0x40, [(4, 4)], 0, 2, .rw, .retained 0, .any⟩
def TMP_PIN_CFG_polarity : Field := ⟨128, 0x40, [(4, 4)], 2, 1, .rw, .retained 1, .any⟩
def TMP_PIN_CFG_edge : Field := ⟨128, 0x40, [(4, 4)], 3, 2, .rw, .retained 1, .any⟩
def TMP_PIN_CFG_cap_domain : Field := ⟨128, 0x40, [(4, 4)], 5, 1, .rw, .retained 0, .any⟩
def TMP_PIN_CFG_min_interval : Field := ⟨128, 0x40, [(4, 4)], 8, 16, .rw, .retained 100, .any⟩
def TMP_PIN_OFFSET_offset : Field := ⟨128, 0x50, [(4, 4)], 0, 16, .rw, .retained 0, .any⟩
def TMP_PORT_rx_ts_mode : Field := ⟨128, 0x3000, [(4, 256)], 0, 2, .rw, .retained 1, .any⟩
def TMP_PORT_ts_domain : Field := ⟨128, 0x3000, [(4, 256)], 2, 1, .rw, .retained 0, .any⟩
def TMP_PORT_one_step : Field := ⟨128, 0x3000, [(4, 256)], 3, 1, .rw, .retained 0, .any⟩
def TMP_RX_TS_RING_ring : Field := ⟨128, 0x3400, [(4, 256)], 0, 22, .rw, .retained 0, .any⟩
def TMP_RX_TS_RING_valid : Field := ⟨128, 0x3400, [(4, 256)], 22, 1, .rw, .retained 0, .any⟩
def MBX_CAUSE_collision : Field := ⟨144, 0x0, [], 0, 1, .w1c, .literal 0, .any⟩
def MBX_CAUSE_wrong_mid : Field := ⟨144, 0x0, [], 1, 1, .w1c, .literal 0, .any⟩
def MBX_CAUSE_redelivered : Field := ⟨144, 0x0, [], 2, 1, .w1c, .literal 0, .any⟩
def MBX_CAUSE_woke : Field := ⟨144, 0x0, [], 3, 1, .w1c, .literal 0, .any⟩
def MBX_CAUSE_MASK_enable : Field := ⟨144, 0x4, [], 0, 4, .rw, .retained 6, .any⟩
def MBX_WRONG_MID_count : Field := ⟨144, 0x8, [], 0, 32, .rc, .literal 0, .any⟩
def MBX_COLLISIONS_count : Field := ⟨144, 0xc, [], 0, 32, .rc, .literal 0, .any⟩
def MBX_LAST_COLLISION_channel : Field := ⟨144, 0x10, [], 0, 15, .ro, .literal 0, .any⟩
def MBX_BIND_SELECT_channel : Field := ⟨144, 0x14, [], 0, 15, .rw, .literal 0, .any⟩
def MBX_BIND_DATA_sender : Field := ⟨144, 0x18, [], 0, 16, .ro, .image, .any⟩
def MBX_BIND_DATA_receiver : Field := ⟨144, 0x18, [], 16, 16, .ro, .image, .any⟩
def EVT_SW_TRIGGER_trigger : Field := ⟨145, 0x0, [], 0, 10, .wo, .literal 0, .any⟩
def EVT_STORM_LIMIT_storm_max : Field := ⟨145, 0x4, [], 0, 16, .rw, .retained 64, .any⟩
def EVT_STORM_DROPS_count : Field := ⟨145, 0x8, [], 0, 32, .rc, .literal 0, .any⟩
def EVT_EOI_source : Field := ⟨145, 0xc, [], 0, 9, .wo, .literal 0, .any⟩
def EVT_ROUTE_vector : Field := ⟨145, 0x1000, [(4, 384)], 0, 11, .rw, .retained 0, .any⟩
def EVT_ROUTE_enable : Field := ⟨145, 0x1000, [(4, 384)], 11, 1, .rw, .retained 0, .any⟩
def EVT_ROUTE_level : Field := ⟨145, 0x1000, [(4, 384)], 12, 1, .rw, .retained 0, .any⟩
def S44_VF_ID_model : Field := ⟨17408, 0x0, [], 0, 16, .ro, .literal 17408, .any⟩
def S44_VF_ID_revision : Field := ⟨17408, 0x0, [], 16, 16, .ro, .literal 1, .any⟩
def S44_VF_CTRL_soft_reset : Field := ⟨17408, 0x4, [], 0, 1, .wo, .literal 0, .any⟩
def S44_VF_STATUS_reset_busy : Field := ⟨17408, 0x8, [], 0, 1, .ro, .literal 0, .any⟩
def S44_VF_STATUS_link_up : Field := ⟨17408, 0x8, [], 1, 1, .ro, .literal 0, .any⟩
def S44_Q_CTRL_tx_log2 : Field := ⟨17408, 0x900, [(4, 64)], 0, 4, .rw, .literal 0, .any⟩
def S44_Q_CTRL_rx_log2 : Field := ⟨17408, 0x900, [(4, 64)], 4, 4, .rw, .literal 0, .any⟩
def S44_Q_CTRL_vector : Field := ⟨17408, 0x900, [(4, 64)], 8, 11, .rw, .literal 0, .any⟩
def S44_Q_CTRL_enable : Field := ⟨17408, 0x900, [(4, 64)], 19, 1, .rw, .literal 0, .any⟩
def S44_Q_CTRL_ready : Field := ⟨17408, 0x900, [(4, 64)], 20, 1, .ro, .literal 0, .any⟩
def S44_Q_CTRL_error : Field := ⟨17408, 0x900, [(4, 64)], 21, 1, .ro, .literal 0, .any⟩
def FLT_STATUS_held : Field := ⟨146, 0x0, [], 0, 9, .ro, .literal 0, .any⟩
def FLT_STATUS_overflow : Field := ⟨146, 0x0, [], 9, 1, .w1c, .literal 0, .any⟩
def FLT_STATUS_fault_stop : Field := ⟨146, 0x0, [], 10, 1, .ro, .literal 0, .any⟩
def FLT_CAUSE_MASK_enable : Field := ⟨146, 0x8, [], 0, 10, .rw, .retained 253, .any⟩
def FLT_CONFIG_corr_window_ms : Field := ⟨146, 0xc, [], 0, 16, .rw, .retained 1000, .any⟩
def FLT_CONFIG_corr_threshold : Field := ⟨146, 0xc, [], 16, 8, .rw, .retained 64, .any⟩
def FLT_CONFIG_esc_limit : Field := ⟨146, 0xc, [], 24, 4, .rw, .retained 3, .any⟩
def FLT_CONFIG_nest_escalate : Field := ⟨146, 0xc, [], 28, 1, .rw, .retained 0, .any⟩
def FLT_LAST_SEQ_seq : Field := ⟨146, 0x10, [], 0, 32, .ro, .literal 0, .any⟩
def FLT_DROPPED_CORR_count : Field := ⟨146, 0x14, [], 0, 32, .rc, .literal 0, .any⟩
def FLT_DROPPED_UNC_count : Field := ⟨146, 0x18, [], 0, 32, .rc, .literal 0, .any⟩
def FLT_ACK_seq : Field := ⟨146, 0x1c, [], 0, 32, .wo, .literal 0, .any⟩
def FLT_OLDEST_slot : Field := ⟨146, 0x20, [], 0, 8, .ro, .literal 0, .any⟩
def FLT_OLDEST_valid : Field := ⟨146, 0x20, [], 8, 1, .ro, .literal 0, .any⟩
def FLT_ESCALATIONS_count : Field := ⟨146, 0x24, [], 0, 32, .ro, .literal 0, .any⟩
def FLT_SCRUB_hbm_scrub_h : Field := ⟨146, 0x28, [], 0, 8, .rw, .retained 24, .any⟩
def FLT_SCRUB_passes : Field := ⟨146, 0x28, [], 8, 24, .ro, .literal 0, .any⟩
def STP_CTRL_link_enable : Field := ⟨160, 0x0, [], 0, 1, .rw, .retained 1, .any⟩
def STP_CTRL_pair_enable : Field := ⟨160, 0x0, [], 1, 1, .rwl, .image, .any⟩
def STP_CTRL_allow_x8 : Field := ⟨160, 0x0, [], 2, 1, .rw, .retained 1, .any⟩
def STP_STATUS_state : Field := ⟨160, 0x4, [], 0, 3, .ro, .literal 0, .any⟩
def STP_STATUS_peer_s9640 : Field := ⟨160, 0x4, [], 3, 1, .ro, .literal 0, .any⟩
def STP_STATUS_open_streams : Field := ⟨160, 0x4, [], 4, 5, .ro, .literal 0, .any⟩
def STP_STATUS_credits_free : Field := ⟨160, 0x4, [], 9, 11, .ro, .literal 0, .any⟩
def STP_CONFIG_stream_credits : Field := ⟨160, 0x10, [], 0, 11, .rw, .retained 256, .any⟩
def STP_CONFIG_replay_limit : Field := ⟨160, 0x10, [], 11, 4, .rw, .retained 8, .any⟩
def STP_CONFIG_retrain_limit : Field := ⟨160, 0x10, [], 15, 4, .rw, .retained 3, .any⟩
def STP_CONFIG_match_ms : Field := ⟨160, 0x10, [], 19, 13, .rw, .retained 1000, .any⟩
def STP_CAUSE_link_up : Field := ⟨160, 0x14, [], 0, 1, .w1c, .literal 0, .any⟩
def STP_CAUSE_link_down : Field := ⟨160, 0x14, [], 1, 1, .w1c, .literal 0, .any⟩
def STP_CAUSE_retrain : Field := ⟨160, 0x14, [], 2, 1, .w1c, .literal 0, .any⟩
def STP_CAUSE_degraded : Field := ⟨160, 0x14, [], 3, 1, .w1c, .literal 0, .any⟩
def STP_CAUSE_crc_error : Field := ⟨160, 0x14, [], 4, 1, .w1c, .literal 0, .any⟩
def STP_CAUSE_xfer_done : Field := ⟨160, 0x14, [], 5, 1, .w1c, .literal 0, .any⟩
def STP_CAUSE_xfer_error : Field := ⟨160, 0x14, [], 6, 1, .w1c, .literal 0, .any⟩
def STP_CAUSE_proto_error : Field := ⟨160, 0x14, [], 7, 1, .w1c, .literal 0, .any⟩
def STP_CAUSE_uncorrectable : Field := ⟨160, 0x14, [], 8, 1, .w1c, .literal 0, .any⟩
def STP_CAUSE_match_timeout : Field := ⟨160, 0x14, [], 9, 1, .w1c, .literal 0, .any⟩
def STP_CAUSE_MASK_enable : Field := ⟨160, 0x18, [], 0, 10, .rw, .retained 975, .any⟩
def STP_CRC_ERRORS_count : Field := ⟨160, 0x20, [], 0, 32, .rc, .literal 0, .any⟩
def STP_REPLAYS_count : Field := ⟨160, 0x24, [], 0, 32, .rc, .literal 0, .any⟩
def STP_RETRAINS_count : Field := ⟨160, 0x28, [], 0, 32, .rc, .literal 0, .any⟩
def STP_PROTO_ERRORS_count : Field := ⟨160, 0x2c, [], 0, 32, .rc, .literal 0, .any⟩
def PWR_DOMAIN_ON_LO_on : Field := ⟨3, 0x30, [], 0, 32, .ro, .literal 0, .any⟩
def PWR_DOMAIN_ON_HI_on : Field := ⟨3, 0x34, [], 0, 16, .ro, .literal 0, .any⟩
def PCX_P2P_BASE_LO_base : Field := ⟨16, 0x40, [(32, 16)], 12, 20, .rw, .literal 0, .any⟩
def PCX_P2P_BASE_HI_base : Field := ⟨16, 0x44, [(32, 16)], 0, 32, .rw, .literal 0, .any⟩
def PCX_P2P_LIMIT_LO_page : Field := ⟨16, 0x48, [(32, 16)], 0, 12, .ro, .literal 4095, .any⟩
def PCX_P2P_LIMIT_LO_limit : Field := ⟨16, 0x48, [(32, 16)], 12, 20, .rw, .literal 0, .any⟩
def PCX_P2P_LIMIT_HI_limit : Field := ⟨16, 0x4c, [(32, 16)], 0, 32, .rw, .literal 0, .any⟩
def PCX_P2P_ACTIVE_BASE_LO_base : Field := ⟨16, 0x240, [(32, 16)], 12, 20, .ro, .literal 0, .any⟩
def PCX_P2P_ACTIVE_BASE_HI_base : Field := ⟨16, 0x244, [(32, 16)], 0, 32, .ro, .literal 0, .any⟩
def PCX_P2P_ACTIVE_LIMIT_LO_limit : Field := ⟨16, 0x248, [(32, 16)], 12, 20, .ro, .literal 0, .any⟩
def PCX_P2P_ACTIVE_LIMIT_HI_limit : Field := ⟨16, 0x24c, [(32, 16)], 0, 32, .ro, .literal 0, .any⟩
def PCX_P2P_ACTIVE_ATTR_enable : Field := ⟨16, 0x250, [(32, 16)], 0, 1, .ro, .literal 0, .any⟩
def PCX_P2P_ACTIVE_ATTR_at_translated : Field := ⟨16, 0x250, [(32, 16)], 1, 1, .ro, .literal 0, .any⟩
def PCX_P2P_ACTIVE_ATTR_force_no_snoop : Field := ⟨16, 0x250, [(32, 16)], 2, 1, .ro, .literal 0, .any⟩
def PCX_P2P_ACTIVE_ATTR_allow_ro : Field := ⟨16, 0x250, [(32, 16)], 3, 1, .ro, .literal 0, .any⟩
def PCX_P2P_ACTIVE_LIMIT_LO_page : Field := ⟨16, 0x248, [(32, 16)], 0, 12, .ro, .literal 4095, .any⟩
def QMG_CTX_DATA_data : Field := ⟨32, 0x100, [(4, 32)], 0, 32, .ro, .literal 0, .any⟩
def LGR_FAIL_LOG_0_source : Field := ⟨33, 0x30, [], 0, 22, .rc, .literal 0, .any⟩
def LGR_FAIL_LOG_0_on_port : Field := ⟨33, 0x30, [], 22, 1, .rc, .literal 0, .any⟩
def LGR_FAIL_LOG_0_reason : Field := ⟨33, 0x30, [], 23, 4, .rc, .literal 0, .any⟩
def LGR_FAIL_LOG_0_valid : Field := ⟨33, 0x30, [], 31, 1, .rc, .literal 0, .any⟩
def LGR_FAIL_LOG_1_seq_lo : Field := ⟨33, 0x34, [], 0, 32, .ro, .literal 0, .any⟩
def LGR_FAIL_LOG_2_seq_hi : Field := ⟨33, 0x38, [], 0, 16, .ro, .literal 0, .any⟩
def LGR_FAIL_LOG_2_function : Field := ⟨33, 0x38, [], 16, 14, .ro, .literal 0, .any⟩
def MTB_COMPARE_BASE_LO_base : Field := ⟨49, 0x30, [], 12, 20, .rw, .literal 0, .any⟩
def MTB_COMPARE_BASE_HI_base : Field := ⟨49, 0x34, [], 0, 32, .rw, .literal 0, .any⟩
def MTB_TABLE_SEED0_seed : Field := ⟨49, 0x108, [(32, 16)], 0, 32, .rw, .retained 1013904242, .any⟩
def MTB_TABLE_SEED1_seed : Field := ⟨49, 0x10c, [(32, 16)], 0, 32, .rw, .retained 2600822924, .any⟩
def MTB_TABLE_SEED2_seed : Field := ⟨49, 0x110, [(32, 16)], 0, 32, .rw, .retained 1359893119, .any⟩
def MTB_TABLE_SEED3_seed : Field := ⟨49, 0x114, [(32, 16)], 0, 32, .rw, .retained 528734635, .any⟩
def MTB_CMD_DATA_data : Field := ⟨49, 0x1040, [(256, 16), (4, 16)], 0, 32, .rw, .literal 0, .any⟩
def SET_WAIT_LIMIT_0_limit : Field := ⟨65, 0x40, [], 0, 20, .rw, .retained 1000, .any⟩
def SET_WAIT_LIMIT_1_limit : Field := ⟨65, 0x44, [], 0, 20, .rw, .retained 100, .any⟩
def SET_WAIT_LIMIT_2_limit : Field := ⟨65, 0x48, [], 0, 20, .rw, .retained 10000, .any⟩
def SET_WAIT_LIMIT_3_limit : Field := ⟨65, 0x4c, [], 0, 20, .rw, .retained 0, .any⟩
def SET_CHAN_ABANDONED_abandoned : Field := ⟨65, 0x50, [(4, 2)], 0, 32, .w1c, .literal 0, .any⟩
def SET_CS_DATA_data : Field := ⟨65, 0x210, [(4, 4)], 0, 32, .rw, .literal 0, .any⟩
def SET_DBG_REG_data : Field := ⟨65, 0x340, [(4, 32)], 0, 32, .ro, .literal 0, .any⟩
def CRY_CTX_DATA_data : Field := ⟨80, 0x200, [(4, 64)], 0, 32, .ro, .literal 0, .any⟩
def SCH_NODE_DATA0_weight : Field := ⟨96, 0x30, [], 0, 16, .rw, .literal 0, .any⟩
def SCH_NODE_DATA0_burst_kib : Field := ⟨96, 0x30, [], 16, 16, .rw, .literal 0, .any⟩
def SCH_NODE_DATA1_floor_mbps : Field := ⟨96, 0x34, [], 0, 24, .rw, .literal 0, .any⟩
def SCH_NODE_DATA2_ceiling_mbps : Field := ⟨96, 0x38, [], 0, 24, .rw, .literal 0, .any⟩
def SCH_NODE_DATA3_mac_instance : Field := ⟨96, 0x3c, [], 0, 8, .rw, .literal 0, .any⟩
def SCH_NODE_DATA3_mac_valid : Field := ⟨96, 0x3c, [], 8, 1, .rw, .literal 0, .any⟩
def SCH_NODE_DATA3_tc : Field := ⟨96, 0x3c, [], 9, 3, .rw, .literal 0, .any⟩
def SCH_LINK_W_weight : Field := ⟨96, 0x100, [(16, 16)], 0, 16, .rw, .retained 256, .any⟩
def SCH_LINK_FLOOR_floor_mbps : Field := ⟨96, 0x104, [(16, 16)], 0, 24, .rw, .retained 0, .any⟩
def SCH_LINK_CEIL_ceiling_mbps : Field := ⟨96, 0x108, [(16, 16)], 0, 24, .rw, .retained 0, .any⟩
def DMA_LIST_LO_list : Field := ⟨97, 0x10, [], 5, 27, .rw, .literal 0, .any⟩
def DMA_LIST_HI_list : Field := ⟨97, 0x14, [], 0, 32, .rw, .literal 0, .any⟩
def MAC_LANE_FEC_CORR_LO_count : Field := ⟨112, 0x10, [], 0, 32, .rc, .literal 0, .any⟩
def MAC_LANE_FEC_CORR_HI_count : Field := ⟨112, 0x14, [], 0, 32, .ro, .literal 0, .any⟩
def MAC_LANE_FEC_UNCORR_LO_count : Field := ⟨112, 0x18, [], 0, 32, .rc, .literal 0, .any⟩
def MAC_LANE_FEC_UNCORR_HI_count : Field := ⟨112, 0x1c, [], 0, 32, .ro, .literal 0, .any⟩
def MAC_INST_ADDR_LO_addr : Field := ⟨113, 0x804, [(16, 256)], 0, 32, .rw, .retained 0, .any⟩
def MAC_INST_ADDR_HI_addr : Field := ⟨113, 0x808, [(16, 256)], 0, 16, .rw, .retained 0, .any⟩
def MAC_COUNTER_LO_count : Field := ⟨113, 0x10000, [(256, 256), (8, 32)], 0, 32, .rc, .literal 0, .any⟩
def MAC_COUNTER_HI_count : Field := ⟨113, 0x10004, [(256, 256), (8, 32)], 0, 32, .ro, .literal 0, .any⟩
def TMP_CAUSE_c0 : Field := ⟨128, 0x4, [], 0, 1, .w1c, .literal 0, .any⟩
def TMP_CAUSE_c1 : Field := ⟨128, 0x4, [], 1, 1, .w1c, .literal 0, .any⟩
def TMP_CAUSE_c2 : Field := ⟨128, 0x4, [], 2, 1, .w1c, .literal 0, .any⟩
def TMP_CAUSE_c3 : Field := ⟨128, 0x4, [], 3, 1, .w1c, .literal 0, .any⟩
def TMP_CAUSE_c4 : Field := ⟨128, 0x4, [], 4, 1, .w1c, .literal 0, .any⟩
def TMP_CAUSE_c5 : Field := ⟨128, 0x4, [], 5, 1, .w1c, .literal 0, .any⟩
def TMP_CAUSE_c6 : Field := ⟨128, 0x4, [], 6, 1, .w1c, .literal 0, .any⟩
def TMP_CAUSE_c7 : Field := ⟨128, 0x4, [], 7, 1, .w1c, .literal 0, .any⟩
def TMP_CAUSE_c8 : Field := ⟨128, 0x4, [], 8, 1, .w1c, .literal 0, .any⟩
def TMP_CAUSE_c9 : Field := ⟨128, 0x4, [], 9, 1, .w1c, .literal 0, .any⟩
def TMP_CAUSE_c10 : Field := ⟨128, 0x4, [], 10, 1, .w1c, .literal 0, .any⟩
def TMP_CAUSE_c11 : Field := ⟨128, 0x4, [], 11, 1, .w1c, .literal 0, .any⟩
def TMP_CAUSE_c12 : Field := ⟨128, 0x4, [], 12, 1, .w1c, .literal 0, .any⟩
def TMP_CAUSE_c13 : Field := ⟨128, 0x4, [], 13, 1, .w1c, .literal 0, .any⟩
def TMP_CAUSE_c14 : Field := ⟨128, 0x4, [], 14, 1, .w1c, .literal 0, .any⟩
def TMP_CAUSE_c15 : Field := ⟨128, 0x4, [], 15, 1, .w1c, .literal 0, .any⟩
def TMP_CAUSE_c16 : Field := ⟨128, 0x4, [], 16, 1, .w1c, .literal 0, .any⟩
def TMP_CAUSE_c17 : Field := ⟨128, 0x4, [], 17, 1, .w1c, .literal 0, .any⟩
def TMP_CAUSE_c18 : Field := ⟨128, 0x4, [], 18, 1, .w1c, .literal 0, .any⟩
def TMP_CAUSE_c19 : Field := ⟨128, 0x4, [], 19, 1, .w1c, .literal 0, .any⟩
def TMP_CAUSE_c20 : Field := ⟨128, 0x4, [], 20, 1, .w1c, .literal 0, .any⟩
def TMP_SLOT_FLAGS_flags : Field := ⟨128, 0x30, [(4, 4)], 0, 32, .w1c, .literal 0, .any⟩
def TMP_PIN_COUNT_count : Field := ⟨128, 0x60, [(4, 4)], 0, 32, .ro, .literal 0, .any⟩
def TMP_PIN_OVERRUN_count : Field := ⟨128, 0x70, [(4, 4)], 0, 32, .rc, .literal 0, .any⟩
def TMP_SNAP_LEAD_NS_value : Field := ⟨128, 0x80, [], 0, 32, .ro, .literal 0, .any⟩
def TMP_SNAP_LEAD_SEC_LO_value : Field := ⟨128, 0x84, [], 0, 32, .ro, .literal 0, .any⟩
def TMP_SNAP_LEAD_SEC_HI_value : Field := ⟨128, 0x88, [], 0, 32, .ro, .literal 0, .any⟩
def TMP_SNAP_LEAD_FRAC_value : Field := ⟨128, 0x8c, [], 0, 32, .ro, .literal 0, .any⟩
def TMP_SNAP_LEAD_UNC_value : Field := ⟨128, 0x90, [], 0, 32, .ro, .literal 0, .any⟩
def TMP_SNAP_FOLLOW_NS_value : Field := ⟨128, 0xa0, [], 0, 32, .ro, .literal 0, .any⟩
def TMP_SNAP_FOLLOW_SEC_LO_value : Field := ⟨128, 0xa4, [], 0, 32, .ro, .literal 0, .any⟩
def TMP_SNAP_FOLLOW_SEC_HI_value : Field := ⟨128, 0xa8, [], 0, 32, .ro, .literal 0, .any⟩
def TMP_SNAP_FOLLOW_FRAC_value : Field := ⟨128, 0xac, [], 0, 32, .ro, .literal 0, .any⟩
def TMP_SNAP_FOLLOW_UNC_value : Field := ⟨128, 0xb0, [], 0, 32, .ro, .literal 0, .any⟩
def TMP_SNAP_TICKS_LO_value : Field := ⟨128, 0xb8, [], 0, 32, .ro, .literal 0, .any⟩
def TMP_SNAP_TICKS_HI_value : Field := ⟨128, 0xbc, [], 0, 32, .ro, .literal 0, .any⟩
def TMP_DOM_INC_LO_inc : Field := ⟨128, 0x100, [(128, 2)], 0, 32, .rw, .retained 0, .any⟩
def TMP_DOM_INC_HI_inc : Field := ⟨128, 0x104, [(128, 2)], 0, 8, .rw, .retained 4, .any⟩
def TMP_DOM_NS_ns : Field := ⟨128, 0x108, [(128, 2)], 0, 30, .ro, .literal 0, .any⟩
def TMP_DOM_SEC_LO_sec : Field := ⟨128, 0x10c, [(128, 2)], 0, 32, .ro, .literal 0, .any⟩
def TMP_DOM_SEC_HI_sec : Field := ⟨128, 0x110, [(128, 2)], 0, 16, .ro, .literal 0, .any⟩
def TMP_DOM_FRAC_frac : Field := ⟨128, 0x114, [(128, 2)], 0, 32, .ro, .literal 0, .any⟩
def TMP_DOM_UNC_unc : Field := ⟨128, 0x118, [(128, 2)], 0, 16, .ro, .literal 65535, .any⟩
def TMP_DOM_UNC_valid : Field := ⟨128, 0x118, [(128, 2)], 16, 1, .ro, .literal 0, .any⟩
def TMP_DOM_UNC_holdover : Field := ⟨128, 0x118, [(128, 2)], 17, 1, .ro, .literal 0, .any⟩
def TMP_DOM_UNC_step_refused : Field := ⟨128, 0x118, [(128, 2)], 18, 1, .w1c, .literal 0, .any⟩
def TMP_DOM_BASE_base_unc : Field := ⟨128, 0x11c, [(128, 2)], 0, 16, .rw, .retained 65535, .any⟩
def TMP_DOM_DRIFT_drift : Field := ⟨128, 0x120, [(128, 2)], 0, 24, .rw, .retained 1000, .any⟩
def TMP_DOM_ALARM_alarm_unc : Field := ⟨128, 0x124, [(128, 2)], 0, 16, .rw, .retained 640, .any⟩
def TMP_DOM_ALARM_anchor_timeout_ms : Field := ⟨128, 0x124, [(128, 2)], 16, 16, .rw, .retained 2000, .any⟩
def TMP_DOM_ANCHOR_AGE_age_ms : Field := ⟨128, 0x128, [(128, 2)], 0, 32, .ro, .literal 0, .any⟩
def TMP_DOM_SET_NS_value : Field := ⟨128, 0x130, [(128, 2)], 0, 32, .rw, .literal 0, .any⟩
def TMP_DOM_SET_SEC_LO_value : Field := ⟨128, 0x134, [(128, 2)], 0, 32, .rw, .literal 0, .any⟩
def TMP_DOM_SET_SEC_HI_value : Field := ⟨128, 0x138, [(128, 2)], 0, 16, .rw, .literal 0, .any⟩
def TMP_DOM_ADJ_value : Field := ⟨128, 0x13c, [(128, 2)], 0, 32, .rw, .literal 0, .any⟩
def TMP_DOM_CMD_op : Field := ⟨128, 0x140, [(128, 2)], 0, 2, .wo, .literal 0, .any⟩
def TMP_SLOT_CFG_kind : Field := ⟨128, 0x1000, [(64, 128)], 0, 2, .rw, .literal 0, .any⟩
def TMP_SLOT_CFG_source : Field := ⟨128, 0x1000, [(64, 128)], 2, 1, .rw, .literal 0, .any⟩
def TMP_SLOT_CFG_use_desc_domain : Field := ⟨128, 0x1000, [(64, 128)], 3, 1, .rw, .literal 0, .any⟩
def TMP_SLOT_CFG_pin : Field := ⟨128, 0x1000, [(64, 128)], 4, 2, .rw, .literal 0, .any⟩
def TMP_SLOT_CFG_irq_done : Field := ⟨128, 0x1000, [(64, 128)], 6, 1, .rw, .literal 0, .any⟩
def TMP_SLOT_START_NS_value : Field := ⟨128, 0x1004, [(64, 128)], 0, 30, .rw, .literal 0, .any⟩
def TMP_SLOT_START_SEC_LO_value : Field := ⟨128, 0x1008, [(64, 128)], 0, 32, .rw, .literal 0, .any⟩
def TMP_SLOT_START_SEC_HI_value : Field := ⟨128, 0x100c, [(64, 128)], 0, 16, .rw, .literal 0, .any⟩
def TMP_SLOT_PERIOD_value : Field := ⟨128, 0x1010, [(64, 128)], 0, 32, .rw, .literal 0, .any⟩
def TMP_SLOT_WIDTH_value : Field := ⟨128, 0x1014, [(64, 128)], 0, 32, .rw, .literal 0, .any⟩
def TMP_SLOT_GATE_lead_ns : Field := ⟨128, 0x1018, [(64, 128)], 0, 16, .rw, .literal 0, .any⟩
def TMP_SLOT_GATE_max_hold_ms : Field := ⟨128, 0x1018, [(64, 128)], 16, 16, .rw, .literal 0, .any⟩
def TMP_SLOT_SLEW_slew_ppb : Field := ⟨128, 0x101c, [(64, 128)], 0, 20, .rw, .literal 0, .any⟩
def TMP_SLOT_CMD_op : Field := ⟨128, 0x1020, [(64, 128)], 0, 2, .wo, .literal 0, .any⟩
def TMP_SLOT_CMD_to_source : Field := ⟨128, 0x1020, [(64, 128)], 2, 1, .wo, .literal 0, .any⟩
def TMP_SLOT_STATUS_state : Field := ⟨128, 0x1024, [(64, 128)], 0, 2, .ro, .literal 0, .any⟩
def TMP_SLOT_STATUS_slewing : Field := ⟨128, 0x1024, [(64, 128)], 2, 1, .ro, .literal 0, .any⟩
def TMP_SLOT_STATUS_source_now : Field := ⟨128, 0x1024, [(64, 128)], 3, 1, .ro, .literal 0, .any⟩
def TMP_SLOT_STATUS_switch_refused : Field := ⟨128, 0x1024, [(64, 128)], 4, 1, .ro, .literal 0, .any⟩
def TMP_SLOT_STATUS_bad_config : Field := ⟨128, 0x1024, [(64, 128)], 5, 1, .ro, .literal 0, .any⟩
def TMP_SLOT_OFFSET_value : Field := ⟨128, 0x1028, [(64, 128)], 0, 32, .ro, .literal 0, .any⟩
def TMP_SLOT_NEXT_NS_value : Field := ⟨128, 0x102c, [(64, 128)], 0, 32, .ro, .literal 0, .any⟩
def TMP_SLOT_NEXT_SEC_value : Field := ⟨128, 0x1030, [(64, 128)], 0, 32, .ro, .literal 0, .any⟩
def TMP_SLOT_COUNT_value : Field := ⟨128, 0x1034, [(64, 128)], 0, 32, .ro, .literal 0, .any⟩
def TMP_SLOT_LATE_late : Field := ⟨128, 0x1038, [(64, 128)], 0, 16, .rc, .literal 0, .any⟩
def TMP_SLOT_LATE_too_early : Field := ⟨128, 0x1038, [(64, 128)], 16, 16, .rc, .literal 0, .any⟩
def TMP_TS_LOST_count : Field := ⟨128, 0x4000, [(8, 256)], 0, 32, .rc, .literal 0, .any⟩
def TMP_TS_LAST_LOST_ring : Field := ⟨128, 0x4004, [(8, 256)], 0, 22, .ro, .literal 0, .any⟩
def TMP_TS_LAST_LOST_rx : Field := ⟨128, 0x4004, [(8, 256)], 22, 1, .ro, .literal 0, .any⟩
def EVT_STORM_storm : Field := ⟨145, 0x10, [(4, 12)], 0, 32, .w1c, .literal 0, .any⟩
def EVT_PERMIT_permit : Field := ⟨145, 0x40, [(4, 12)], 0, 32, .ro, .image, .any⟩
def EVT_CORE_core : Field := ⟨145, 0x80, [(4, 12)], 0, 32, .ro, .image, .any⟩
def S44_VF_MAC_LO_mac : Field := ⟨17408, 0xc, [], 0, 32, .ro, .literal 0, .any⟩
def S44_VF_MAC_HI_mac : Field := ⟨17408, 0x10, [], 0, 16, .ro, .literal 0, .any⟩
def S44_Q_BASE_addr : Field := ⟨17408, 0x100, [(32, 64), (4, 8)], 0, 32, .rw, .literal 0, .any⟩
def FLT_CAUSE_c0 : Field := ⟨146, 0x4, [], 0, 1, .w1c, .literal 0, .any⟩
def FLT_CAUSE_c1 : Field := ⟨146, 0x4, [], 1, 1, .w1c, .literal 0, .any⟩
def FLT_CAUSE_c2 : Field := ⟨146, 0x4, [], 2, 1, .w1c, .literal 0, .any⟩
def FLT_CAUSE_c3 : Field := ⟨146, 0x4, [], 3, 1, .w1c, .literal 0, .any⟩
def FLT_CAUSE_c4 : Field := ⟨146, 0x4, [], 4, 1, .w1c, .literal 0, .any⟩
def FLT_CAUSE_c5 : Field := ⟨146, 0x4, [], 5, 1, .w1c, .literal 0, .any⟩
def FLT_CAUSE_c6 : Field := ⟨146, 0x4, [], 6, 1, .w1c, .literal 0, .any⟩
def FLT_CAUSE_c7 : Field := ⟨146, 0x4, [], 7, 1, .w1c, .literal 0, .any⟩
def FLT_CAUSE_c8 : Field := ⟨146, 0x4, [], 8, 1, .w1c, .literal 0, .any⟩
def FLT_CAUSE_c9 : Field := ⟨146, 0x4, [], 9, 1, .w1c, .literal 0, .any⟩
def FLT_RECORD_data : Field := ⟨146, 0x400, [(32, 256), (4, 8)], 0, 32, .ro, .literal 0, .any⟩
def STP_PEER_ID_peer_id : Field := ⟨160, 0x8, [], 0, 32, .ro, .literal 0, .any⟩
def STP_LOCAL_ID_local_id : Field := ⟨160, 0xc, [], 0, 32, .rwl, .image, .any⟩
def STP_STREAM_STATE_state : Field := ⟨160, 0x100, [(16, 16)], 0, 2, .ro, .literal 0, .any⟩
def STP_STREAM_STATE_dir : Field := ⟨160, 0x100, [(16, 16)], 2, 1, .ro, .literal 0, .any⟩
def STP_STREAM_STATE_channel : Field := ⟨160, 0x100, [(16, 16)], 3, 6, .ro, .literal 0, .any⟩
def STP_STREAM_STATE_credits : Field := ⟨160, 0x100, [(16, 16)], 9, 11, .ro, .literal 0, .any⟩
def STP_STREAM_STATE_outcome : Field := ⟨160, 0x100, [(16, 16)], 20, 4, .ro, .literal 0, .any⟩
def STP_STREAM_XFER_value : Field := ⟨160, 0x104, [(16, 16)], 0, 32, .ro, .literal 0, .any⟩
def STP_STREAM_LEN_value : Field := ⟨160, 0x108, [(16, 16)], 0, 32, .ro, .literal 0, .any⟩
def STP_STREAM_DONE_value : Field := ⟨160, 0x10c, [(16, 16)], 0, 32, .ro, .literal 0, .any⟩
def STP_TX_FLITS_LO_flits : Field := ⟨160, 0x30, [], 0, 32, .ro, .literal 0, .any⟩
def STP_TX_FLITS_HI_flits : Field := ⟨160, 0x34, [], 0, 32, .ro, .literal 0, .any⟩
def STP_RX_FLITS_LO_flits : Field := ⟨160, 0x38, [], 0, 32, .ro, .literal 0, .any⟩
def STP_RX_FLITS_HI_flits : Field := ⟨160, 0x3c, [], 0, 32, .ro, .literal 0, .any⟩
def PPL_FIG_MAP_figures : Field := ⟨48, 0x40, [(4, 16)], 0, 32, .rw, .retained 3840206052, .any⟩
def PPL_ACTION_record : Field := ⟨48, 0x10000, [(16, 4096), (4, 4)], 0, 32, .ro, .image, .only 0⟩
def MBX_TX_DATA_data : Field := ⟨144, 0x10000, [(256, 18432), (4, 16)], 0, 32, .rw, .literal 0, .any⟩
def MBX_TX_CMD_len : Field := ⟨144, 0x10040, [(256, 18432)], 0, 7, .wo, .literal 0, .any⟩
def MBX_TX_CMD_send : Field := ⟨144, 0x10040, [(256, 18432)], 7, 1, .wo, .literal 0, .any⟩
def MBX_TX_STATUS_full : Field := ⟨144, 0x10044, [(256, 18432)], 0, 1, .ro, .literal 0, .any⟩
def MBX_TX_STATUS_collision : Field := ⟨144, 0x10044, [(256, 18432)], 1, 1, .w1c, .literal 0, .any⟩
def MBX_TX_STATUS_acked : Field := ⟨144, 0x10044, [(256, 18432)], 2, 1, .w1c, .literal 0, .any⟩
def MBX_TX_STATUS_tx_bad : Field := ⟨144, 0x10044, [(256, 18432)], 3, 1, .w1c, .literal 0, .any⟩
def MBX_TX_STATUS_seq : Field := ⟨144, 0x10044, [(256, 18432)], 16, 16, .ro, .literal 0, .any⟩
def MBX_TX_ACK_code : Field := ⟨144, 0x10048, [(256, 18432)], 0, 16, .ro, .literal 0, .any⟩
def MBX_TX_ACK_ack_seq : Field := ⟨144, 0x10048, [(256, 18432)], 16, 16, .ro, .literal 0, .any⟩
def MBX_TX_IRQ_vector : Field := ⟨144, 0x1004c, [(256, 18432)], 0, 11, .rw, .literal 0, .any⟩
def MBX_TX_IRQ_enable : Field := ⟨144, 0x1004c, [(256, 18432)], 11, 1, .rw, .literal 0, .any⟩
def MBX_RX_DATA_data : Field := ⟨144, 0x10080, [(256, 18432), (4, 16)], 0, 32, .ro, .literal 0, .any⟩
def MBX_RX_STATUS_len : Field := ⟨144, 0x100c0, [(256, 18432)], 0, 7, .ro, .literal 0, .any⟩
def MBX_RX_STATUS_full : Field := ⟨144, 0x100c0, [(256, 18432)], 7, 1, .ro, .literal 0, .any⟩
def MBX_RX_STATUS_collision : Field := ⟨144, 0x100c0, [(256, 18432)], 8, 1, .w1c, .literal 0, .any⟩
def MBX_RX_STATUS_redelivered : Field := ⟨144, 0x100c0, [(256, 18432)], 9, 1, .ro, .literal 0, .any⟩
def MBX_RX_STATUS_stale_ack : Field := ⟨144, 0x100c0, [(256, 18432)], 10, 1, .w1c, .literal 0, .any⟩
def MBX_RX_STATUS_seq : Field := ⟨144, 0x100c0, [(256, 18432)], 16, 16, .ro, .literal 0, .any⟩
def MBX_RX_ACK_code : Field := ⟨144, 0x100c4, [(256, 18432)], 0, 16, .wo, .literal 0, .any⟩
def MBX_RX_ACK_ack : Field := ⟨144, 0x100c4, [(256, 18432)], 16, 1, .wo, .literal 0, .any⟩
def MBX_RX_IRQ_vector : Field := ⟨144, 0x100c8, [(256, 18432)], 0, 11, .rw, .literal 0, .any⟩
def MBX_RX_IRQ_enable : Field := ⟨144, 0x100c8, [(256, 18432)], 11, 1, .rw, .literal 0, .any⟩
def BOOT_START_cause : Field := ⟨2, 0x100, [], 0, 4, .ro, .literal 0, .any⟩
def BOOT_START_slot : Field := ⟨2, 0x100, [], 4, 1, .ro, .literal 0, .any⟩
def BOOT_START_trial : Field := ⟨2, 0x100, [], 5, 1, .ro, .literal 0, .any⟩
def BOOT_START_fallback : Field := ⟨2, 0x100, [], 6, 1, .ro, .literal 0, .any⟩
def BOOT_START_retention_valid : Field := ⟨2, 0x100, [], 7, 1, .ro, .literal 0, .any⟩
def BOOT_START_snapshot_valid : Field := ⟨2, 0x100, [], 8, 1, .ro, .literal 0, .any⟩
def BOOT_START_discarded : Field := ⟨2, 0x100, [], 9, 1, .ro, .literal 0, .any⟩
def BOOT_START_snapshot_seq : Field := ⟨2, 0x104, [], 0, 32, .ro, .literal 0, .any⟩
def BOOT_START_ret_rejects : Field := ⟨2, 0x108, [], 0, 32, .ro, .literal 0, .any⟩
def BOOT_START_ret_missing : Field := ⟨2, 0x10c, [], 0, 32, .ro, .literal 0, .any⟩
def BOOT_START_build_id_lo : Field := ⟨2, 0x110, [], 0, 32, .ro, .literal 0, .any⟩
def BOOT_START_build_id_hi : Field := ⟨2, 0x114, [], 0, 32, .ro, .literal 0, .any⟩
def BOOT_START_security_version : Field := ⟨2, 0x118, [], 0, 16, .ro, .literal 0, .any⟩
def BOOT_START_key_slot : Field := ⟨2, 0x118, [], 16, 2, .ro, .literal 0, .any⟩
def BOOT_START_schema_id : Field := ⟨2, 0x11c, [], 0, 32, .ro, .literal 0, .any⟩
def BOOT_START_svc_count : Field := ⟨2, 0x120, [], 0, 32, .ro, .literal 0, .any⟩
def BOOT_START_start_us : Field := ⟨2, 0x124, [], 0, 32, .ro, .literal 0, .any⟩
def BOOT_START_ledger_save_lost : Field := ⟨2, 0x128, [], 0, 1, .ro, .literal 0, .any⟩

/-- Every field of the BOOT registers (R85, R86). -/
def mapBOOT0 : List Field :=
  [BOOT_STATUS_snap_busy, BOOT_STATUS_locked, BOOT_RET_COMMITS_commits, BOOT_SNAP_COUNT_snapshots,
   BOOT_SNAP_RESULT_last, BOOT_CONTROL_snap_interval, BOOT_CONTROL_snap_at_shutdown, BOOT_CMD_command,
   BOOT_CMD_key, BOOT_START_cause, BOOT_START_slot, BOOT_START_trial,
   BOOT_START_fallback, BOOT_START_retention_valid, BOOT_START_snapshot_valid, BOOT_START_discarded,
   BOOT_START_snapshot_seq, BOOT_START_ret_rejects, BOOT_START_ret_missing, BOOT_START_build_id_lo,
   BOOT_START_build_id_hi, BOOT_START_security_version, BOOT_START_key_slot, BOOT_START_schema_id,
   BOOT_START_svc_count, BOOT_START_start_us, BOOT_START_ledger_save_lost]
def mapBOOT : List Field := mapBOOT0

/-- Every field of the PWR registers (R108). -/
def mapPWR0 : List Field :=
  [PWR_PACE_pace, PWR_HEADROOM_headroom, PWR_HEADROOM_filled, PWR_PACE_LOW_pace_low,
   PWR_VDD_request_mv, PWR_VDD_cause, PWR_VDD_boost_open, PWR_TARGET_pace_target,
   PWR_TARGET_boost_enable, PWR_LIMIT_power_limit, PWR_POWER_power_1ms, PWR_POWER_power_1s,
   PWR_TJ_tj, PWR_TJ_sensor, PWR_TJ_PEAK_tj_peak, PWR_BOOST_used_s,
   PWR_THERMAL_sat_out, PWR_DOMAIN_CMD_domain, PWR_DOMAIN_CMD_op, PWR_DOMAIN_RESULT_domain,
   PWR_DOMAIN_RESULT_code, PWR_STICKY_pace_low, PWR_STICKY_pace_floor, PWR_STICKY_power_cap,
   PWR_STICKY_thermal_cap, PWR_STICKY_thermal_sitout, PWR_STICKY_boost_spent, PWR_STICKY_avs_error,
   PWR_STICKY_thermtrip_prev, PWR_AVS_CONFIG_avs_vmin, PWR_AVS_CONFIG_avs_slew, PWR_DOMAIN_ON_LO_on,
   PWR_DOMAIN_ON_HI_on]
def mapPWR : List Field := mapPWR0

/-- Every field of the PCX registers (R132). -/
def mapPCX0 : List Field :=
  [PCX_LINK_STATUS_state, PCX_LINK_STATUS_rate, PCX_LINK_STATUS_width, PCX_LINK_STATUS_flit,
   PCX_LINK_STATUS_ide_secure, PCX_LINK_STATUS_perst, PCX_LINK_SHAPE_shape, PCX_LINK_SHAPE_group,
   PCX_LINK_SHAPE_two_pf, PCX_LINK_SHAPE_pf_a, PCX_LINK_SHAPE_pf_b, PCX_LINK_SHAPE_ide_enabled,
   PCX_RESET_RECORD_last, PCX_RESET_COUNT_resets, PCX_ABANDONED_LO_abandoned, PCX_ABANDONED_HI_abandoned,
   PCX_CAUSE_link_down, PCX_CAUSE_link_up, PCX_CAUSE_link_reset, PCX_CAUSE_flr,
   PCX_CAUSE_cpl_timeout, PCX_CAUSE_cpl_error, PCX_CAUSE_p2p_commit_done, PCX_CAUSE_p2p_overrun,
   PCX_CAUSE_speed_change, PCX_CAUSE_ide_error, PCX_CAUSE_MASK_enable, PCX_CPL_TIMEOUTS_timeouts,
   PCX_CPL_ERRORS_errors, PCX_TAGS_outstanding, PCX_TAGS_quarantined, PCX_P2P_COMMIT_commit,
   PCX_P2P_COMMIT_commit_busy, PCX_P2P_GEN_commits, PCX_P2P_ATTR_enable, PCX_P2P_ATTR_at_translated,
   PCX_P2P_ATTR_force_no_snoop, PCX_P2P_ATTR_allow_ro, PCX_P2P_BASE_LO_base, PCX_P2P_BASE_HI_base]
def mapPCX1 : List Field :=
  [PCX_P2P_LIMIT_LO_page, PCX_P2P_LIMIT_LO_limit, PCX_P2P_LIMIT_HI_limit, PCX_P2P_ACTIVE_BASE_LO_base,
   PCX_P2P_ACTIVE_BASE_HI_base, PCX_P2P_ACTIVE_LIMIT_LO_limit, PCX_P2P_ACTIVE_LIMIT_HI_limit, PCX_P2P_ACTIVE_ATTR_enable,
   PCX_P2P_ACTIVE_ATTR_at_translated, PCX_P2P_ACTIVE_ATTR_force_no_snoop, PCX_P2P_ACTIVE_ATTR_allow_ro, PCX_P2P_ACTIVE_LIMIT_LO_page]
def mapPCX : List Field := mapPCX0 ++ mapPCX1

/-- Every field of the QMG registers (R152). -/
def mapQMG0 : List Field :=
  [QMG_CTX_SELECT_ring, QMG_CTX_CMD_snap, QMG_CTX_STATUS_busy, QMG_CTX_STATUS_valid,
   QMG_CTX_STATUS_denied, QMG_ERR_FIFO_ring, QMG_ERR_FIFO_cause, QMG_ERR_FIFO_valid,
   QMG_ERR_DROPPED_dropped, QMG_DB_OVERRUNS_count, QMG_DB_IGNORED_count, QMG_RX_REFUSED_count,
   QMG_CACHE_MISSES_count, QMG_CACHE_STATUS_cached, QMG_CAUSE_ring_error, QMG_CAUSE_err_overflow,
   QMG_CAUSE_db_ignored, QMG_CAUSE_rx_refused, QMG_CAUSE_ctx_uncorrectable, QMG_CAUSE_notify_full,
   QMG_CAUSE_MASK_enable, QMG_CTX_DATA_data]
def mapQMG : List Field := mapQMG0

/-- Every field of the LGR registers (R172). -/
def mapLGR0 : List Field :=
  [LGR_STATUS_replay_active, LGR_STATUS_service_replay, LGR_STATUS_save_valid, LGR_TOTAL_open,
   LGR_FAILOVERS_failovers, LGR_REPLAYED_LO_replayed, LGR_REPLAYED_HI_replayed, LGR_FAILED_failed,
   LGR_LAST_FAILOVER_position, LGR_LAST_FAILOVER_trigger, LGR_LAST_FAILOVER_items, LGR_LAST_STALL_stall_ns,
   LGR_STALL_MAX_stall_ns, LGR_STALL_LIMIT_stall_limit, LGR_FAIL_DROPPED_dropped, LGR_CAUSE_replay_begun,
   LGR_CAUSE_replay_done, LGR_CAUSE_item_failed, LGR_CAUSE_log_overflow, LGR_CAUSE_stall_over,
   LGR_CAUSE_service_done, LGR_CAUSE_figure_full, LGR_CAUSE_save_lost, LGR_CAUSE_MASK_enable,
   LGR_SQUASHED_LO_squashed, LGR_SQUASHED_HI_squashed, LGR_OCCUPANCY_open, LGR_FAIL_LOG_0_source,
   LGR_FAIL_LOG_0_on_port, LGR_FAIL_LOG_0_reason, LGR_FAIL_LOG_0_valid, LGR_FAIL_LOG_1_seq_lo,
   LGR_FAIL_LOG_2_seq_hi, LGR_FAIL_LOG_2_function]
def mapLGR : List Field := mapLGR0

/-- Every field of the PPL registers (R205). -/
def mapPPL0 : List Field :=
  [PPL_HASH_CONFIG_symmetric, PPL_HASH_CONFIG_l4_ports, PPL_HASH_CONFIG_vni, PPL_HASH_SEED_seed,
   PPL_DISPATCH_set_select, PPL_TPID_tpid_a, PPL_TPID_tpid_b, PPL_TUNNEL_PORTS_vxlan_port,
   PPL_TUNNEL_PORTS_geneve_port, PPL_REFUSED_count, PPL_EXCEPTIONS_count, PPL_PARSE_TRUNC_count,
   PPL_PORT_VLAN_default_vid, PPL_PORT_VLAN_vlan_mode, PPL_PORT_VLAN_strip_outer, PPL_PORT_VLAN_default_pcp,
   PPL_PORT_VLAN_trust_dscp, PPL_PORT_FLOW_port_affinity, PPL_PORT_FLOW_affinity_figure, PPL_PORT_FLOW_hash_inner,
   PPL_PORT_FLOW_tunnel_term, PPL_PORT_FLOW_malformed_refuse, PPL_PORT_FLOW_miss_action, PPL_PORT_EXC_exception_ring,
   PPL_PORT_EXC_exception_valid, PPL_PORT_QUOTA_quota_kib, PPL_TX_ENTRY_tx_entry, PPL_SW_WAIT_sw_wait_us,
   PPL_TX_ACTION_DROPS_count, PPL_TX_MTU_DROPS_count, PPL_SW_TIMEOUTS_count, PPL_SPOOF_DROPS_count,
   PPL_FIG_MAP_figures, PPL_ACTION_record]
def mapPPL : List Field := mapPPL0

/-- Every field of the MTB registers (R237). -/
def mapMTB0 : List Field :=
  [MTB_STATUS_rehash_active, MTB_STATUS_rehash_table, MTB_STATUS_rehash_stalled, MTB_STATUS_compare_active,
   MTB_AGE_CONFIG_stamp_grain, MTB_AGE_CONFIG_scan_enable, MTB_LEARN_CONFIG_move_window, MTB_LEARN_CONFIG_flap_threshold,
   MTB_FLAP_flap_window, MTB_FLAP_hold_s, MTB_LEARN_ACTION_port_action, MTB_LEARN_ACTION_function_action,
   MTB_REHASH_REQ_table, MTB_REHASH_REQ_from_learn, MTB_REHASH_REQ_valid, MTB_REHASH_CMD_table,
   MTB_REHASH_CMD_op, MTB_REHASH_POS_bucket, MTB_CAUSE_rehash_request, MTB_CAUSE_rehash_done,
   MTB_CAUSE_rehash_stall, MTB_CAUSE_flap, MTB_CAUSE_notify_lost, MTB_CAUSE_compare_mismatch,
   MTB_CAUSE_compare_pass, MTB_CAUSE_uncorrectable, MTB_CAUSE_prefix_full, MTB_CAUSE_learn_drop,
   MTB_CAUSE_wrong_port, MTB_CAUSE_static_conflict, MTB_CAUSE_command_done, MTB_CAUSE_MASK_enable,
   MTB_COMPARE_COUNT_records, MTB_COMPARE_CTRL_table, MTB_COMPARE_CTRL_compare_pf, MTB_COMPARE_CTRL_enable,
   MTB_COMPARE_CTRL_compare_settle, MTB_COMPARE_CTRL_compare_interval, MTB_COMPARE_RATE_compare_kib_s, MTB_COMPARE_STATUS_host_error]
def mapMTB1 : List Field :=
  [MTB_COMPARE_STATUS_passes, MTB_COMPARE_FIFO_record, MTB_COMPARE_FIFO_kind, MTB_COMPARE_FIFO_valid,
   MTB_COMPARE_DROPPED_dropped, MTB_INSERT_FAILS_count, MTB_CACHE_MISSES_count, MTB_AGED_count,
   MTB_LEARN_DROPS_count, MTB_NOTIFY_LOST_count, MTB_STATIC_CONFLICTS_count, MTB_FLAP_IGNORED_count,
   MTB_WRONG_PORT_count, MTB_TABLE_CFG_kind, MTB_TABLE_CFG_key_len, MTB_TABLE_CFG_log2_size,
   MTB_TABLE_CFG_entry128, MTB_TABLE_CFG_aging, MTB_TABLE_CFG_cache_pin, MTB_TABLE_CFG_host_write,
   MTB_TABLE_BASE_base_mib, MTB_TABLE_GEN_cur_gen, MTB_TABLE_AGE_age_limit, MTB_LEARN_RING_ring,
   MTB_LEARN_RING_valid, MTB_CMD_op, MTB_CMD_table, MTB_CMD_stage,
   MTB_CMD_irq, MTB_CMD_ARG_index, MTB_CMD_ARG_slot, MTB_CMD_ARG_gen,
   MTB_CMD_STATUS_busy, MTB_CMD_STATUS_overrun, MTB_CMD_STATUS_result, MTB_CMD_STATUS_steps,
   MTB_CMD_WHERE_bucket, MTB_CMD_WHERE_slot, MTB_CMD_WHERE_gen, MTB_CMD_WHERE_in_b1]
def mapMTB2 : List Field :=
  [MTB_CMD_AGE_age_ms, MTB_COMPARE_BASE_LO_base, MTB_COMPARE_BASE_HI_base, MTB_TABLE_SEED0_seed,
   MTB_TABLE_SEED1_seed, MTB_TABLE_SEED2_seed, MTB_TABLE_SEED3_seed, MTB_CMD_DATA_data]
def mapMTB : List Field := mapMTB0 ++ mapMTB1 ++ mapMTB2

/-- Every field of the SET registers (R268). -/
def mapSET0 : List Field :=
  [SET_STATUS_busy, SET_STATUS_queued, SET_STATUS_stopped, SET_STATUS_cs_writable,
   SET_CAUSE_thread_fault, SET_CAUSE_set_fault, SET_CAUSE_cs_corrected, SET_CAUSE_sram_corrected,
   SET_CAUSE_standstill, SET_CAUSE_chan_abandoned, SET_CAUSE_debug_stop, SET_CAUSE_cs_write_bad,
   SET_CAUSE_MASK_enable, SET_FAULT_FIFO_thread, SET_FAULT_FIFO_code, SET_FAULT_FIFO_pc,
   SET_FAULT_FIFO_valid, SET_FAULT_DROPPED_count, SET_THREAD_FAULTS_count, SET_WAIT_TIMEOUTS_count,
   SET_STANDSTILLS_count, SET_CS_CORRECTED_count, SET_SRAM_CORRECTED_count, SET_ISSUED_LO_issued,
   SET_ISSUED_HI_issued, SET_PASSES_LO_passes, SET_PASSES_HI_passes, SET_LAST_STANDSTILL_thread,
   SET_LAST_STANDSTILL_cond, SET_ENGINE_CFG_floor2, SET_ENGINE_CFG_priority, SET_CS_ADDR_addr,
   SET_CS_CMD_read, SET_CS_CMD_write, SET_DBG_SELECT_thread, SET_DBG_CMD_cmd,
   SET_DBG_STATE_state, SET_DBG_STATE_pc, SET_DBG_STATE_depth, SET_DBG_STATE_cond]
def mapSET1 : List Field :=
  [SET_DBG_STATE_send_open, SET_DBG_STATE_read_held, SET_DBG_STATE_holds_item, SET_DBG_CHAN_send_chan,
   SET_DBG_CHAN_staged, SET_DBG_CHAN_read_chan, SET_DBG_STACK_entry_2k, SET_DBG_STACK_entry_2k_1,
   SET_WAIT_LIMIT_0_limit, SET_WAIT_LIMIT_1_limit, SET_WAIT_LIMIT_2_limit, SET_WAIT_LIMIT_3_limit,
   SET_CHAN_ABANDONED_abandoned, SET_CS_DATA_data, SET_DBG_REG_data]
def mapSET : List Field := mapSET0 ++ mapSET1

/-- Every field of the CRY registers (R290). -/
def mapCRY0 : List Field :=
  [CRY_INST_STATUS_busy, CRY_INST_STATUS_kat_pass, CRY_INST_CAUSE_corrected, CRY_INST_CAUSE_uncorrectable,
   CRY_INST_CAUSE_kat_fail, CRY_INST_MASK_enable, CRY_INST_BYTES_LO_bytes, CRY_INST_BYTES_HI_bytes,
   CRY_INST_CORRECTED_count, CRY_NOTIFY_ring, CRY_NOTIFY_valid, CRY_RX_TABLE_table,
   CRY_RX_TABLE_valid, CRY_CAUSE_limit_record, CRY_CAUSE_ctx_failed, CRY_CAUSE_notify_lost,
   CRY_CAUSE_rx_queue_full, CRY_CAUSE_MASK_enable, CRY_RX_AUTH_FAIL_count, CRY_RX_REPLAY_count,
   CRY_RX_MALFORMED_count, CRY_RX_QUEUE_REFUSED_count, CRY_TX_REFUSED_count, CRY_TX_LIMIT_DROPS_count,
   CRY_NOTIFY_LOST_count, CRY_CTX_SELECT_context, CRY_CTX_CMD_snap, CRY_CTX_STATUS_busy,
   CRY_CTX_STATUS_valid, CRY_CTX_STATUS_denied, CRY_MACSEC_TX_tx_sc, CRY_MACSEC_TX_tx_enable,
   CRY_MACSEC_RX_rx_sc_base, CRY_MACSEC_RX_rx_sc_count, CRY_MACSEC_RX_rx_enable, CRY_MACSEC_RX_strict,
   CRY_CTX_DATA_data]
def mapCRY : List Field := mapCRY0

/-- Every field of the STO registers (R308). -/
def mapSTO0 : List Field :=
  [STO_STATUS_controllers, STO_DEEP_USED_used_mib, STO_DEEP_LIMIT_deep_limit_mib, STO_TCP_CONFIG_rto_min,
   STO_TCP_CONFIG_rto_max, STO_TCP_CONFIG_max_retries, STO_NOTIFY_ring, STO_NOTIFY_valid,
   STO_CAUSE_digest_error, STO_CAUSE_pi_error, STO_CAUSE_conn_lost, STO_CAUSE_deep_full,
   STO_CAUSE_notify_lost, STO_CAUSE_ctrl_reset, STO_CAUSE_bad_doorbell, STO_CAUSE_uncorrectable,
   STO_CAUSE_MASK_enable, STO_HDGST_ERRORS_count, STO_DDGST_ERRORS_count, STO_PI_ERRORS_count,
   STO_TCP_RETRANS_count, STO_DEEP_WAITS_count, STO_RX_OOO_DROPS_count, STO_BAD_DOORBELLS_count,
   STO_NOTIFY_LOST_count]
def mapSTO : List Field := mapSTO0

/-- Every field of the SCH registers (R323). -/
def mapSCH0 : List Field :=
  [SCH_CONFIG_bar_ticks, SCH_DEVICE_dev_ceiling, SCH_STATUS_cap, SCH_BARS_LO_bars,
   SCH_BARS_HI_bars, SCH_PKT_CAPPED_count, SCH_FLOOR_SCALED_count, SCH_NODE_SELECT_index,
   SCH_NODE_SELECT_level, SCH_NODE_CMD_op, SCH_NODE_STATUS_busy, SCH_NODE_STATUS_result,
   SCH_PORT_rate_gbps, SCH_PORT_paused, SCH_NODE_DATA0_weight, SCH_NODE_DATA0_burst_kib,
   SCH_NODE_DATA1_floor_mbps, SCH_NODE_DATA2_ceiling_mbps, SCH_NODE_DATA3_mac_instance, SCH_NODE_DATA3_mac_valid,
   SCH_NODE_DATA3_tc, SCH_LINK_W_weight, SCH_LINK_FLOOR_floor_mbps, SCH_LINK_CEIL_ceiling_mbps]
def mapSCH : List Field := mapSCH0

/-- Every field of the DMA registers (R340). -/
def mapDMA0 : List Field :=
  [DMA_CTRL_burst_log2, DMA_CTRL_share_permille, DMA_CTRL_paced, DMA_CTRL_line,
   DMA_CTRL_ro, DMA_CTRL_ns, DMA_CTRL_tph, DMA_CTRL_pasid_en,
   DMA_CTRL_tph_tag, DMA_PASID_pasid, DMA_FUNC_function, DMA_CMD_op,
   DMA_STATUS_state, DMA_STATUS_code, DMA_STATUS_requests, DMA_STATUS_owner,
   DMA_CUR_LO_cur, DMA_CUR_HI_cur, DMA_REMAIN_remain, DMA_CAUSE_half,
   DMA_CAUSE_full, DMA_CAUSE_list_end, DMA_CAUSE_error, DMA_CAUSE_overrun,
   DMA_CAUSE_mover_retry, DMA_CAUSE_halted, DMA_CAUSE_start_refused, DMA_CAUSE_req_overflow,
   DMA_CAUSE_MASK_enable, DMA_BYTES_LO_bytes, DMA_BYTES_HI_bytes, DMA_DESC_DONE_count,
   DMA_REFUSED_count, DMA_LIST_LO_list, DMA_LIST_HI_list]
def mapDMA : List Field := mapDMA0

/-- Every field of the MAC_LANE registers (R360). -/
def mapMAC_LANE0 : List Field :=
  [MAC_LANE_STATUS_rate, MAC_LANE_STATUS_port, MAC_LANE_STATUS_state, MAC_LANE_STATUS_cal_valid,
   MAC_LANE_CAUSE_link_down, MAC_LANE_CAUSE_link_up, MAC_LANE_CAUSE_fec_uncorrected, MAC_LANE_CAUSE_cal_done,
   MAC_LANE_CAUSE_cal_lost, MAC_LANE_MASK_enable, MAC_LANE_CAL_int_rx, MAC_LANE_CAL_int_tx,
   MAC_LANE_BOARD_board_rx, MAC_LANE_BOARD_board_tx, MAC_LANE_TXEQ_pre2, MAC_LANE_TXEQ_pre1,
   MAC_LANE_TXEQ_main, MAC_LANE_TXEQ_post1, MAC_LANE_FEC_CORR_LO_count, MAC_LANE_FEC_CORR_HI_count,
   MAC_LANE_FEC_UNCORR_LO_count, MAC_LANE_FEC_UNCORR_HI_count]
def mapMAC_LANE : List Field := mapMAC_LANE0

/-- Every field of the MAC registers (R361). -/
def mapMAC0 : List Field :=
  [MAC_CAUSE_port_change, MAC_CAUSE_storm, MAC_CAUSE_rx_overflow, MAC_CAUSE_tx_stomped,
   MAC_CAUSE_flexe_switch, MAC_CAUSE_flexe_fault, MAC_CAUSE_rx_failed, MAC_CAUSE_MASK_enable,
   MAC_PORT_CFG_speed, MAC_PORT_CFG_flexe, MAC_PORT_CFG_eee_enable, MAC_PORT_CFG_lpi_idle_us,
   MAC_PORT_CFG_tx_tw_us, MAC_PORT_STATUS_up, MAC_PORT_STATUS_lpi_tx, MAC_PORT_STATUS_lpi_rx,
   MAC_PORT_STATUS_cal_b, MAC_PORT_STATUS_flexe_lock, MAC_PORT_STATUS_switch_busy, MAC_PORT_FLEXE_CMD_switch,
   MAC_INST_CFG_max_frame, MAC_INST_CFG_fc_mode, MAC_INST_CFG_pfc_classes, MAC_INST_CFG_rx_honour,
   MAC_INST_CFG_tx_generate, MAC_INST_PFC_xoff, MAC_INST_PFC_xon, MAC_INST_PFC_quanta,
   MAC_INST_PFC_watchdog_ms, MAC_INST_STATE_formed, MAC_INST_STATE_up, MAC_INST_STATE_paused,
   MAC_INST_STATE_storm, MAC_INST_STATE_xoff_sent, MAC_INST_ADDR_LO_addr, MAC_INST_ADDR_HI_addr,
   MAC_COUNTER_LO_count, MAC_COUNTER_HI_count]
def mapMAC : List Field := mapMAC0

/-- Every field of the TMP registers (R391). -/
def mapTMP0 : List Field :=
  [TMP_STATUS_ref_lost, TMP_STATUS_lead_holdover, TMP_STATUS_follow_holdover, TMP_CAUSE_MASK_enable,
   TMP_CONFIG_tc_switched, TMP_CONFIG_tc_hairpin, TMP_TICKS_LO_value, TMP_TICKS_HI_value,
   TMP_UPTIME_MS_value, TMP_REF_CFG_ref_sub_ppb, TMP_SNAP_CMD_snap, TMP_CAP_RING_ring,
   TMP_CAP_RING_valid, TMP_ONESTEP_SKIPPED_count, TMP_CAP_LOST_count, TMP_PIN_CFG_dir,
   TMP_PIN_CFG_polarity, TMP_PIN_CFG_edge, TMP_PIN_CFG_cap_domain, TMP_PIN_CFG_min_interval,
   TMP_PIN_OFFSET_offset, TMP_PORT_rx_ts_mode, TMP_PORT_ts_domain, TMP_PORT_one_step,
   TMP_RX_TS_RING_ring, TMP_RX_TS_RING_valid, TMP_CAUSE_c0, TMP_CAUSE_c1,
   TMP_CAUSE_c2, TMP_CAUSE_c3, TMP_CAUSE_c4, TMP_CAUSE_c5,
   TMP_CAUSE_c6, TMP_CAUSE_c7, TMP_CAUSE_c8, TMP_CAUSE_c9,
   TMP_CAUSE_c10, TMP_CAUSE_c11, TMP_CAUSE_c12, TMP_CAUSE_c13]
def mapTMP1 : List Field :=
  [TMP_CAUSE_c14, TMP_CAUSE_c15, TMP_CAUSE_c16, TMP_CAUSE_c17,
   TMP_CAUSE_c18, TMP_CAUSE_c19, TMP_CAUSE_c20, TMP_SLOT_FLAGS_flags,
   TMP_PIN_COUNT_count, TMP_PIN_OVERRUN_count, TMP_SNAP_LEAD_NS_value, TMP_SNAP_LEAD_SEC_LO_value,
   TMP_SNAP_LEAD_SEC_HI_value, TMP_SNAP_LEAD_FRAC_value, TMP_SNAP_LEAD_UNC_value, TMP_SNAP_FOLLOW_NS_value,
   TMP_SNAP_FOLLOW_SEC_LO_value, TMP_SNAP_FOLLOW_SEC_HI_value, TMP_SNAP_FOLLOW_FRAC_value, TMP_SNAP_FOLLOW_UNC_value,
   TMP_SNAP_TICKS_LO_value, TMP_SNAP_TICKS_HI_value, TMP_DOM_INC_LO_inc, TMP_DOM_INC_HI_inc,
   TMP_DOM_NS_ns, TMP_DOM_SEC_LO_sec, TMP_DOM_SEC_HI_sec, TMP_DOM_FRAC_frac,
   TMP_DOM_UNC_unc, TMP_DOM_UNC_valid, TMP_DOM_UNC_holdover, TMP_DOM_UNC_step_refused,
   TMP_DOM_BASE_base_unc, TMP_DOM_DRIFT_drift, TMP_DOM_ALARM_alarm_unc, TMP_DOM_ALARM_anchor_timeout_ms,
   TMP_DOM_ANCHOR_AGE_age_ms, TMP_DOM_SET_NS_value, TMP_DOM_SET_SEC_LO_value, TMP_DOM_SET_SEC_HI_value]
def mapTMP2 : List Field :=
  [TMP_DOM_ADJ_value, TMP_DOM_CMD_op, TMP_SLOT_CFG_kind, TMP_SLOT_CFG_source,
   TMP_SLOT_CFG_use_desc_domain, TMP_SLOT_CFG_pin, TMP_SLOT_CFG_irq_done, TMP_SLOT_START_NS_value,
   TMP_SLOT_START_SEC_LO_value, TMP_SLOT_START_SEC_HI_value, TMP_SLOT_PERIOD_value, TMP_SLOT_WIDTH_value,
   TMP_SLOT_GATE_lead_ns, TMP_SLOT_GATE_max_hold_ms, TMP_SLOT_SLEW_slew_ppb, TMP_SLOT_CMD_op,
   TMP_SLOT_CMD_to_source, TMP_SLOT_STATUS_state, TMP_SLOT_STATUS_slewing, TMP_SLOT_STATUS_source_now,
   TMP_SLOT_STATUS_switch_refused, TMP_SLOT_STATUS_bad_config, TMP_SLOT_OFFSET_value, TMP_SLOT_NEXT_NS_value,
   TMP_SLOT_NEXT_SEC_value, TMP_SLOT_COUNT_value, TMP_SLOT_LATE_late, TMP_SLOT_LATE_too_early,
   TMP_TS_LOST_count, TMP_TS_LAST_LOST_ring, TMP_TS_LAST_LOST_rx]
def mapTMP : List Field := mapTMP0 ++ mapTMP1 ++ mapTMP2

/-- Every field of the MBX registers (R407, R408). -/
def mapMBX0 : List Field :=
  [MBX_CAUSE_collision, MBX_CAUSE_wrong_mid, MBX_CAUSE_redelivered, MBX_CAUSE_woke,
   MBX_CAUSE_MASK_enable, MBX_WRONG_MID_count, MBX_COLLISIONS_count, MBX_LAST_COLLISION_channel,
   MBX_BIND_SELECT_channel, MBX_BIND_DATA_sender, MBX_BIND_DATA_receiver, MBX_TX_DATA_data,
   MBX_TX_CMD_len, MBX_TX_CMD_send, MBX_TX_STATUS_full, MBX_TX_STATUS_collision,
   MBX_TX_STATUS_acked, MBX_TX_STATUS_tx_bad, MBX_TX_STATUS_seq, MBX_TX_ACK_code,
   MBX_TX_ACK_ack_seq, MBX_TX_IRQ_vector, MBX_TX_IRQ_enable, MBX_RX_DATA_data,
   MBX_RX_STATUS_len, MBX_RX_STATUS_full, MBX_RX_STATUS_collision, MBX_RX_STATUS_redelivered,
   MBX_RX_STATUS_stale_ack, MBX_RX_STATUS_seq, MBX_RX_ACK_code, MBX_RX_ACK_ack,
   MBX_RX_IRQ_vector, MBX_RX_IRQ_enable]
def mapMBX : List Field := mapMBX0

/-- Every field of the EVT registers (R416). -/
def mapEVT0 : List Field :=
  [EVT_SW_TRIGGER_trigger, EVT_STORM_LIMIT_storm_max, EVT_STORM_DROPS_count, EVT_EOI_source,
   EVT_ROUTE_vector, EVT_ROUTE_enable, EVT_ROUTE_level, EVT_STORM_storm,
   EVT_PERMIT_permit, EVT_CORE_core]
def mapEVT : List Field := mapEVT0

/-- Every field of the S44 registers (R429). -/
def mapS440 : List Field :=
  [S44_VF_ID_model, S44_VF_ID_revision, S44_VF_CTRL_soft_reset, S44_VF_STATUS_reset_busy,
   S44_VF_STATUS_link_up, S44_Q_CTRL_tx_log2, S44_Q_CTRL_rx_log2, S44_Q_CTRL_vector,
   S44_Q_CTRL_enable, S44_Q_CTRL_ready, S44_Q_CTRL_error, S44_VF_MAC_LO_mac,
   S44_VF_MAC_HI_mac, S44_Q_BASE_addr]
def mapS44 : List Field := mapS440

/-- Every field of the FLT registers (R456). -/
def mapFLT0 : List Field :=
  [FLT_STATUS_held, FLT_STATUS_overflow, FLT_STATUS_fault_stop, FLT_CAUSE_MASK_enable,
   FLT_CONFIG_corr_window_ms, FLT_CONFIG_corr_threshold, FLT_CONFIG_esc_limit, FLT_CONFIG_nest_escalate,
   FLT_LAST_SEQ_seq, FLT_DROPPED_CORR_count, FLT_DROPPED_UNC_count, FLT_ACK_seq,
   FLT_OLDEST_slot, FLT_OLDEST_valid, FLT_ESCALATIONS_count, FLT_SCRUB_hbm_scrub_h,
   FLT_SCRUB_passes, FLT_CAUSE_c0, FLT_CAUSE_c1, FLT_CAUSE_c2,
   FLT_CAUSE_c3, FLT_CAUSE_c4, FLT_CAUSE_c5, FLT_CAUSE_c6,
   FLT_CAUSE_c7, FLT_CAUSE_c8, FLT_CAUSE_c9, FLT_RECORD_data]
def mapFLT : List Field := mapFLT0

/-- Every field of the STP registers (R472). -/
def mapSTP0 : List Field :=
  [STP_CTRL_link_enable, STP_CTRL_pair_enable, STP_CTRL_allow_x8, STP_STATUS_state,
   STP_STATUS_peer_s9640, STP_STATUS_open_streams, STP_STATUS_credits_free, STP_CONFIG_stream_credits,
   STP_CONFIG_replay_limit, STP_CONFIG_retrain_limit, STP_CONFIG_match_ms, STP_CAUSE_link_up,
   STP_CAUSE_link_down, STP_CAUSE_retrain, STP_CAUSE_degraded, STP_CAUSE_crc_error,
   STP_CAUSE_xfer_done, STP_CAUSE_xfer_error, STP_CAUSE_proto_error, STP_CAUSE_uncorrectable,
   STP_CAUSE_match_timeout, STP_CAUSE_MASK_enable, STP_CRC_ERRORS_count, STP_REPLAYS_count,
   STP_RETRAINS_count, STP_PROTO_ERRORS_count, STP_PEER_ID_peer_id, STP_LOCAL_ID_local_id,
   STP_STREAM_STATE_state, STP_STREAM_STATE_dir, STP_STREAM_STATE_channel, STP_STREAM_STATE_credits,
   STP_STREAM_STATE_outcome, STP_STREAM_XFER_value, STP_STREAM_LEN_value, STP_STREAM_DONE_value,
   STP_TX_FLITS_LO_flits, STP_TX_FLITS_HI_flits, STP_RX_FLITS_LO_flits, STP_RX_FLITS_HI_flits]
def mapSTP : List Field := mapSTP0

/-- The register map of a unit type; a type without registers has none. -/
def map (unit : Nat) : List Field :=
  if unit = 2 then mapBOOT
  else if unit = 3 then mapPWR
  else if unit = 16 then mapPCX
  else if unit = 32 then mapQMG
  else if unit = 33 then mapLGR
  else if unit = 48 then mapPPL
  else if unit = 49 then mapMTB
  else if unit = 65 then mapSET
  else if unit = 80 then mapCRY
  else if unit = 81 then mapSTO
  else if unit = 96 then mapSCH
  else if unit = 97 then mapDMA
  else if unit = 112 then mapMAC_LANE
  else if unit = 113 then mapMAC
  else if unit = 128 then mapTMP
  else if unit = 144 then mapMBX
  else if unit = 145 then mapEVT
  else if unit = 17408 then mapS44
  else if unit = 146 then mapFLT
  else if unit = 160 then mapSTP
  else []

/-- The unit types that have a register map. -/
def units : List Nat := [2, 3, 16, 32, 33, 48, 49, 65, 80, 81, 96, 97, 112, 113, 128, 144, 145, 17408, 146, 160]

end Sys2Proof.Machine.R
end

