-- ==== Sys2Proof/Machine/Parts.lean ====
section
/-!
DEFINITION. The pieces of the device's state beside its registers, chapter by chapter: plain data, every field with the value
it has at reset.
-/

namespace Sys2Proof.Machine

/-! ## What leaves the device -/

/-- The attributes of an issued request (R120, R129). -/
structure Attr where
  relaxed : Bool := false
  noSnoop : Bool := false
  translated : Bool := false
  ats : Bool := false             -- the address is translated through ATS (notes/assumptions/11.md)
  steering : Option Nat := none
  pasid : Option Nat := none
  deriving DecidableEq, Repr

/-- An error that AER reports (R454). -/
inductive AerError where
  | completionTimeout | completerAbort | poisoned | unsupported | ideCheck | correctedInternal | uncorrectableInternal
  deriving DecidableEq, Repr

/-- What the device puts out, at its pins and links. `answer` is the value a read returns to the master `mid`. -/
inductive Output where
  | msix (fn vector : Nat) (steering : Option Nat)
  | answer (mid value : Nat)
  | readData (fn : Nat) (data : List Byte)
  | completerAbort (fn : Nat)
  | unsupported (fn : Nat)
  | retryStatus (fn : Nat)
  | configData (fn value : Nat)
  | configDone (fn : Nat)
  | hostRead (fn tag addr len : Nat) (attr : Attr)
  | hostWrite (fn addr : Nat) (data : List Byte) (attr : Attr)
  | translationRequest (fn tag addr : Nat) (pasid : Option Nat)
  | atsInvalidateDone (link tag : Nat)
  | ltr (fn snoop noSnoop : Nat)
  | aer (link : Nat) (fn : Nat) (error : AerError)
  | coreEvent (source : Nat)
  | lineFrame (mac : Nat) (frame : Frame) (stomped : Bool)
  | lpi (port : Nat) (on : Bool)
  | flexeRequest (port : Nat)
  | pin (pin : Nat) (active : Bool)
  | avsWrite (mv : Nat)
  | avsSlew (rate : Nat)
  | avsRetry
  | avsRead
  | avsCurrentRead
  | avsStatus
  | thermTrip (asserted : Bool)
  | flashReset (asserted : Bool)
  | smbAlert (asserted : Bool)
  | flashSfdp
  | flashRead (octal : Bool) (addr len : Nat)
  | flashErase (addr sectors : Nat)
  | flashProgram (addr pages : Nat)
  | sideband (kind : String) (words : List Nat)
  | spdm (via : SpdmPath) (kind : String) (words : List Nat)
  | jtag (bits value : Nat)
  | flitOut (f : Flit)
  | stpControl (words : List Nat)
  deriving DecidableEq, Repr

/-! ## Life of the device (R53, R65, R82, R107, R453) -/

/-- Where the device stands between power-off and running. -/
inductive Phase where
  | held           -- standby rail up, SYS_RST_N low, TESTEN high or a main rail out of tolerance
  | recovery       -- no slot verified (R65)
  | running
  | serviceReset   -- between step 1 and step 7 of R82
  | faultStop      -- R453
  | tripped        -- THERMTRIP_N asserted (R107)
  deriving DecidableEq, Repr

/-! ## Dance Card (R36-R52) and the map of sites to positions (R19-R23, R272) -/

/-- How a position of the array stands. -/
inductive PosPhase where
  | inService      -- carries work, or waits warm in a reserve position
  | grace          -- dispatch stopped; what it holds may still retire (R106, R431)
  | out            -- sat out, vacant, or departed in a reserve position
  | testing        -- a rejoin test runs (R432)
  deriving DecidableEq, Repr

/-- A position: the site that fills it and how it stands; `thermal` marks a thermal sit-out (R105). -/
structure Slot where
  site : Nat
  phase : PosPhase := .inService
  thermal : Bool := false
  deriving DecidableEq, Repr

/-- The live card: validity, generation, the generation of each entry that changed since the build, and each PF's words of
the expansion-ROM copy as built (R52). -/
structure Card where
  valid : Bool := false
  gen : Nat := 0
  entryGen : NMap Nat := {}
  rom : NMap (List Nat) := {}
  deriving DecidableEq, Repr

/-! ## Retained settings and flash (R56-R58, R74-R79) -/

/-- A boot directory copy (R58); one whose magic or check does not match is not valid. -/
structure DirCopy where
  magic : Nat := 0
  seq : Nat := 0
  slotSize : Nat := 0
  active : Nat := 0
  trial : Bool := false
  trialLeft : Nat := 0
  check : Nat := 0
  deriving DecidableEq, Repr

/-- A retained source (R74): one value per field key, and the map of sites to positions. A source holds every K field of the part and
of the PFs in `pfs` but those in `lacks`; a value that `vals` does not list is the first-ever one. `crcOk` says whether its closing
CRC-32C is there and matches. -/
structure Retained where
  crcOk : Bool := true
  seq : Nat := 0
  dieId : Nat := 0
  schemaId : Nat := 0
  pfs : List Nat := []
  lacks : List Nat := []
  vals : NMap Nat := {}
  setSites : NMap Slot := {}
  crySites : NMap Slot := {}
  deriving DecidableEq, Repr

/-- The attached flash (R56, R57). -/
structure Flash where
  sizeMib : Nat := 256
  octal : Bool := true
  dir0 : DirCopy := {}
  dir1 : DirCopy := {}
  slotA : Option Image := none
  slotB : Option Image := none
  snap0 : Option Retained := none
  snap1 : Option Retained := none
  deriving DecidableEq, Repr

/-- The retention store of the always-on domain (R74, R76, R79): its two alternating records, the one that is being closed, whether a K
field was written since, whether a brown-out came after the last record, and whether the discard command awaits the next start. -/
structure Keep where
  rec0 : Option Retained := none
  rec1 : Option Retained := none
  closing : Option Retained := none
  dirty : Bool := false
  brownout : Bool := false
  discard : Bool := false
  deriving DecidableEq, Repr

/-- A posted write that waits on its link: to a doorbell slot (word 0 the producer, 1 cq_head with arm in bit 16), or to a register. -/
inductive HeldWrite where
  | doorbell (fn page slot word value : Nat)
  | register (mid unit inst off value : Nat)
  deriving DecidableEq, Repr

/-- What the starts and the loader leave behind outside the registers (R77, R78, R80-R83, R86, R495). -/
structure Boot where
  image : Option Image := none        -- the running image, the copy in the HBM control region
  slot : Nat := 0
  onTrial : Bool := false
  copyBad : Bool := false             -- the HBM copy no longer matches its digest (R82 step 5)
  saveBad : Bool := false             -- the Ledger save no longer verifies (R170)
  snapshot : Option Retained := none  -- a snapshot being written, and its slot
  snapSlot : Nat := 0
  snapCut : Bool := false             -- a snapshot write was cut short (R77)
  shutdown : Bool := false            -- the orderly-shutdown command was given (R78)
  shutdownDone : Bool := false
  cause : Nat := 1                    -- the cause of the start that comes (R86)
  log : List (Nat × Nat × Nat × Nat × Nat) := []   -- the doorbell log (R83): function, page, slot, word, value
  logFull : List Nat := []            -- links whose posted credits are withheld
  withheld : List HeldWrite := []     -- posted writes that the withheld credits keep on their links, in order (R83)
  resetCause : Nat := 0
  deriving DecidableEq, Repr

/-! ## Power and temperature (R88-R107) -/

/-- State of the power governor and its island beside the PWR registers. -/
structure Power where
  history : List Nat := []          -- Pace as last published, newest first, over the preceding 100 µs (R90)
  eventHeadroom : Nat := 0          -- Headroom when PWR event 2 was last raised (R91)
  unproven : List Nat := []         -- positions filled whose first item has not retired yet (R91)
  sinceThermal : Nat := 200         -- governor ticks since the last thermal step (R93 rule 2), up to 200
  powerRule : Bool := false         -- rule 3 applied at the last tick
  started : Bool := false           -- cold-start step 3 has been (R97)
  tripPin : Bool := false           -- THERMTRIP_N is asserted (R107)
  buckets : List Nat := List.replicate 96 0   -- boost seconds, newest bucket first (R95)
  boostBan : Nat := 0               -- buckets still to age before the 24 h after a loss of standby are over (R95)
  boostTicks : Nat := 0             -- governor ticks of the open boost interval
  sinceBoost : Nat := 200000        -- governor ticks since the last interval closed, up to 10 s
  avsFailures : Nat := 0
  avsStopped : Bool := false        -- steering is stopped (R96)
  powerLog : List Nat := []         -- 1 ms powers, newest first, at most 1,000
  overMs : Nat := 0                 -- published milliseconds above power_limit in a row
  capped : Bool := false            -- an excursion steps down until below power_limit (R99)
  waking : List Nat := []           -- domains that are waking, in the order of R101
  hot : Bool := false               -- Tj at or above 105 °C
  coolMs : Nat := 0                 -- samples in a row below 105 °C, up to 1,000
  satOut : List Nat := []           -- thermally sat-out positions, the last one first (R106)
  sitOutWaits : Bool := false       -- a thermal sit-out waits for a replay to end (R106)
  trippedBefore : Bool := false     -- the run before ended in THERMTRIP (R107)
  heldTj : Int := 0                 -- Tj as last sampled, kept through a cold reset (R489)
  deriving DecidableEq, Repr

/-! ## Host links (R110-R131) -/

/-- What an outstanding read was issued for. -/
inductive ReadFor where
  | descriptors (ring first count : Nat)
  | payload (item : Nat) (addr : Nat)
  | submission (ctrl sq first : Nat)
  | resend (qpn request off : Nat)
  | dmaDescriptor (channel : Nat)
  | dmaBurst (channel burst : Nat)
  | shadow (table : Nat)
  | context (job off : Nat)
  | translation (pasid : Option Nat)
  deriving DecidableEq, Repr

/-- A non-posted request of the device (R122), with the attributes that its class asks for. `dead` marks data that is to be discarded, `quarantined` a tag held back after
FLR (R126). -/
structure Read where
  fn : Nat
  addr : Nat
  len : Nat
  why : ReadFor
  attr : Attr := {}
  dead : Bool := false
  quarantined : Bool := false
  deriving DecidableEq, Repr

/-- An entry of a link's address translation cache (R115): `size` bytes from `base` on of a function and PASID lie at `target`. -/
structure AtcEntry where
  fn : Nat
  pasid : Option Nat
  base : Nat
  size : Nat
  target : Nat
  deriving DecidableEq, Repr

/-- A posted request that a translation holds back, with those of its function behind it: a write, or an MSI-X message. -/
inductive Posted where
  | write (fn addr : Nat) (data : List Byte) (attr : Attr)
  | message (fn vector : Nat)
  deriving DecidableEq, Repr

/-- The link reset in progress (R125). -/
inductive LinkReset where
  | none | fundamental | hot | dlDown
  deriving DecidableEq, Repr

/-- A host link beside its PCX registers. -/
structure Link where
  enabled : Bool := false             -- enabled at step 9 of R53
  reset : LinkReset := .none
  training : Bool := false
  ready : Bool := false               -- answers configuration requests normally
  reads : NMap Read := {}             -- outstanding, by tag
  queue : List Read := []             -- held back by R122, in issue order
  parked : List Read := []            -- reads whose address awaits its translation
  posted : List Posted := []          -- posted requests that a translation holds back, oldest first
  atc : List AtcEntry := []           -- the address translation cache, oldest first
  ideKeys : Option (List Byte) := none
  commit : Option (List Nat) := none  -- the shadow set as it stood at the commit in progress (R130)
  deriving DecidableEq, Repr

/-- One MSI-X table entry. -/
structure Vec where
  addr : Nat := 0
  data : Nat := 0
  masked : Bool := true
  pending : Bool := false
  steering : Nat := 0
  deriving DecidableEq, Repr

/-- The AER capability of a function (R115, R454), with the start values of the Base specification (PRESUMED, notes/assumptions/48.md):
status, mask and severity of uncorrectable errors, status and mask of correctable ones, the header log and the TLP prefix log. -/
structure Aer where
  uncor : Nat := 0
  uncorMask : Nat := 0x00400000
  severity : Nat := 0x00462030
  cor : Nat := 0
  corMask : Nat := 0xE000
  header : List Nat := [0, 0, 0, 0]
  prefixes : List Nat := [0, 0, 0, 0]
  deriving DecidableEq, Repr

/-- A reset that a function is in (R125, R126, R425). -/
inductive FnReset where
  | none | flr | link | function | draining
  deriving DecidableEq, Repr

/-- The properties of a VF (R422). -/
structure VfProps where
  macs : List Nat := []
  uplink : Option Nat := none
  vids : List Nat := []
  anyVid : Bool := false
  ringQuota : Nat := 256
  groupQuota : Nat := 16
  ctxQuota : Nat := 1024
  slotFirst : Nat := 0
  slotCount : Nat := 0
  deriving DecidableEq, Repr

/-- A function beside its rings: configuration space (R115), MSI-X table, generation, reset and Tenant (R421, R422). -/
structure Func where
  present : Bool := false
  busMaster : Bool := false
  memSpace : Bool := false
  relaxedOrdering : Bool := true
  noSnoop : Bool := true
  tagBits : Nat := 8
  maxPayload : Nat := 128
  maxRead : Nat := 512
  ctoRange : Nat := 0
  msixEnable : Bool := false
  msixMask : Bool := false
  vfEnable : Bool := false
  numVfs : Nat := 0
  romEnable : Bool := false
  d3 : Bool := false
  aspmL1 : Bool := false
  atsEnable : Bool := false
  pasidEnable : Bool := false
  tphEnable : Bool := false
  pageSize64 : Bool := false
  ariHierarchy : Bool := false
  atsStu : Nat := 0
  ltrEnable : Bool := false
  ltrSnoop : Nat := 0
  ltrNoSnoop : Nat := 0
  bars : List Nat := [0, 0, 0, 0, 0, 0]   -- BAR registers as written
  romBar : Nat := 0
  vfBars : List Nat := [0, 0]
  aer : Aer := {}
  vecs : NMap Vec := {}
  gen : Nat := 0
  reset : FnReset := .none
  tenant : Nat := 0
  sourceCheck : Bool := false     -- a PF that firmware created with source checking (R192)
  cardGen : Nat := 0              -- generation of a VF's card; 0 before it can first be read
  props : VfProps := {}
  outbox : List (List Nat) := []  -- responses and notices not yet sent (R417)
  deriving DecidableEq, Repr

/-! ## Set-up requests (R417-R437) -/

/-- What a taken request waits for before its response. -/
inductive Awaits where
  | ringDisable (ring : Nat)
  | s44Disable (queue : Nat)
  | functionReset (target : Nat)
  | context (index : Option Nat) (type : Nat)
  | destroy (index : Nat)
  | sitOut (unit inst : Nat)
  | rejoin (unit inst : Nat)
  deriving DecidableEq, Repr

/-- A request that firmware has taken and not answered: who asked, kind, tag, its words, and the bytes that firmware's reads
have brought. -/
structure Job where
  fn : Nat
  kind : Nat
  tag : Nat
  words : List Nat
  awaits : Awaits
  want : Nat := 0
  pieces : NMap (List Byte) := {}
  bad : Bool := false
  deriving DecidableEq, Repr

/-- An image apply (R435): the requester, the image, the step it stands at, the units of the step still to do, the unit that is
sat out or whose rejoin test runs, the site that it is about, whether the apply has stopped, and the last progress record. -/
structure Apply where
  fn : Nat
  tag : Nat
  image : Image
  step : Nat := 1
  todo : List Nat := []
  unit : Option (Nat × Nat) := none
  site : Nat := 0
  stopped : Bool := false
  record : List Nat := []
  deriving DecidableEq, Repr

/-! ## Partner channels and events (R394-R415) -/

/-- A message held in a channel. -/
structure Msg where
  words : List Nat
  len : Nat
  seq : Nat
  redelivered : Bool := false
  deriving DecidableEq, Repr

/-- A channel beside its block of registers: the held message, whether the receiver's view is empty (R400), and whether the
held message was latched and not acknowledged (R405). -/
structure Chan where
  held : Option Msg := none
  viewEmpty : Bool := true
  latched : Bool := false
  deriving DecidableEq, Repr

/-- A route of one PF beside EVT_ROUTE (R412-R414): edge pending, level in service, messages sent in this millisecond, and
whether the limiter withheld one. -/
structure Route where
  pending : Bool := false
  inService : Bool := false
  sent : Nat := 0
  withheld : Bool := false
  deriving DecidableEq, Repr

/-- A control core (R405, R431): in service, and the firmware version its entry shows. -/
structure CtrlCore where
  out : Bool := false
  testing : Bool := false
  version : Nat := 0
  deriving DecidableEq, Repr

/-! ## Rings (R134-R151) -/

/-- How a ring stands (R149). -/
inductive RingState where
  | disabled | enabled | stalled | error
  deriving DecidableEq, Repr

/-- An accepted descriptor: the sequence it was stamped with and its bytes. -/
structure Desc where
  seq : Nat
  bytes : List Byte
  deriving DecidableEq, Repr

/-- What a completion says (R143). -/
structure Cpl where
  length : Nat := 0
  status : Nat := 0
  hash : Nat := 0
  tci : Nat := 0
  l3 : Nat := 0
  l4 : Nat := 0
  tunnelled : Bool := false
  csum : Nat := 0
  stripped : Bool := false
  eop : Bool := false
  tsLost : Bool := false
  mark : Nat := 0
  deriving DecidableEq, Repr

/-- A completion that is owed: its sequence and its bytes (R143, R162); one that waits for its frame to start, or for its
timestamp record, is not ready (R374, R384). -/
structure Owed where
  seq : Nat
  bytes : List Byte
  ready : Bool := true
  deriving DecidableEq, Repr

/-- The time of a frame or an edge as a record carries it (R372, R373): eighths of a nanosecond in `frac`. -/
structure Stamp where
  sec : Nat := 0
  ns : Nat := 0
  frac : Nat := 0
  domain : Nat := 0
  unc : Nat := 0
  deriving DecidableEq, Repr

/-- A Ring Group (R134, R423): its function, doorbell page, and the ring in each slot. -/
structure Group where
  fn : Nat
  page : Nat
  slots : NMap Nat := {}
  deriving DecidableEq, Repr

/-- A ring context (R135) with what the Queue Manager holds for the ring: descriptors landed and not yet stamped, accepted
descriptors not yet taken up, the descriptors of an open frame, receive buffers not yet used, completions owed, the sequence that
retires next, frames waiting for buffers and the running moderation timer. `unit` holds words 0x40-0x7F. -/
structure Ring where
  descBase : Nat := 0
  cplBase : Nat := 0
  log2 : Nat := 6
  kind : Nat := 0
  formatA : Bool := false
  state : RingState := .disabled
  roData : Bool := false
  nsData : Bool := false
  tph : Bool := false
  pasidEn : Bool := false
  ats : Bool := false
  lateDrop : Bool := false
  vector : Nat := 0
  errorCause : Nat := 0
  fn : Nat := 0
  gen : Nat := 0
  group : Nat := 0
  slot : Nat := 0
  pasid : Nat := 0
  tphTag : Nat := 0
  rxHoldKib : Nat := 0
  irqCount : Nat := 0
  irqTime : Nat := 0
  armed : Bool := false
  nextSeq : Nat := 0
  producer : Nat := 0
  fetchPos : Nat := 0
  cplPos : Nat := 0
  cqHead : Nat := 0
  launchSlot : Nat := 0
  launchBound : Bool := false
  tsRing : Nat := 0
  tsEnable : Bool := false
  unit : NMap Nat := {}
  slotProducer : Nat := 0
  landed : NMap (List Byte) := {}
  accepted : List Desc := []
  saved : Nat := 0                -- of those, the oldest that a service reset saved and that are not taken up again (R169)
  frame : List Desc := []
  buffers : List Desc := []
  owed : List Owed := []
  retireSeq : Nat := 0
  waiting : List Nat := []        -- items waiting for buffers, in arrival order
  heldBytes : Nat := 0            -- bytes that count against rx_hold_kib
  timer : Bool := false           -- irq_time runs since the first pending completion
  expired : Bool := false         -- irq_time has passed since then
  stopping : Bool := false        -- being disabled (R420)
  deriving DecidableEq, Repr

/-! ## Items and the Ledger (R157-R171) -/

/-- An IP header that the parser reported: addresses in network order, protocol, fragment flags, DSCP and ECN, its offset, the
L4 header's offset (0: none) and the end of the L4 data, ports (TCP and UDP only), and the offset after its last header. -/
structure Ip where
  v4 : Bool
  src : List Byte
  dst : List Byte
  proto : Nat
  hashProto : Nat := 0            -- the protocol as the flow hash takes it (R176)
  fragFirst : Bool := false
  fragLater : Bool := false
  dscp : Nat := 0
  ecn : Nat := 0
  off : Nat
  l4 : Nat := 0
  offL4 : Nat := 0
  endL4 : Nat := 0
  ports : Option (Nat × Nat) := none
  payload : Nat := 0
  deriving DecidableEq, Repr

/-- The parse record (R178) with what later stages take from the headers: IP headers, EtherTypes, tunnel key and options. -/
structure Parse where
  offL3 : Nat := 0
  offL4 : Nat := 0
  offTunnel : Nat := 0
  offInnerL2 : Nat := 0
  offInnerL3 : Nat := 0
  offInnerL4 : Nat := 0
  offPayload : Nat := 0
  parseEnd : Nat := 0
  l3 : Nat := 0
  l4 : Nat := 0
  tunnel : Nat := 0
  terminated : Bool := false
  vlanCount : Nat := 0
  fragFirst : Bool := false
  fragLater : Bool := false
  innerL3 : Nat := 0
  innerL4 : Nat := 0
  truncated : Bool := false
  outerBad : Bool := false
  innerBad : Bool := false
  lenBad : Bool := false
  roce : Bool := false
  ptp : Bool := false
  geneveCritical : Bool := false
  geneveOam : Bool := false
  tc : Nat := 0
  outerTci : Nat := 0
  secondTci : Nat := 0
  hash : Nat := 0
  vnid : Nat := 0
  source : Nat := 0
  fromRing : Bool := false
  len : Nat := 0
  action : Nat := 0
  csum : Nat := 0                 -- the csum nibble of R143: L3 good, L4 good, L3 bad, L4 bad
  udpZero6 : Bool := false        -- an outer UDP checksum of zero over IPv6
  innerCsum : Nat := 0
  ip : Option Ip := none
  innerIp : Option Ip := none
  etherType : Nat := 0
  innerEtherType : Nat := 0
  innerAt : Nat := 0              -- where a tunnel's payload begins, and the EtherType that names it
  innerType : Nat := 0
  tunnelKey : Nat := 0            -- VNI, or the whole GRE key
  tunnelOk : Bool := false        -- may be terminated (R196, R197)
  hashInner : Bool := false       -- the flow hash uses the inner headers
  deriving DecidableEq, Repr

/-- What classification chose (R180, R181): the action record with a hit's ring, template and mark in force. -/
structure Verdict where
  action : Nat := 0
  entry : Nat := 0
  drop : Bool := false
  spoof : Bool := false
  toException : Bool := false
  learn : Bool := false
  decap : Bool := false
  hairpin : Bool := false
  tc : Nat := 15
  ring : Option Nat := none
  template : Option Nat := none
  mark : Nat := 0
  macInst : Option Nat := none
  termFlags : Nat := 0            -- the termination entry's opt_ok, oam_ok, zero_csum6_ok
  hit : Bool := false
  deriving DecidableEq, Repr

/-- Where an item stands between acceptance and retirement. -/
inductive Stage where
  | crypto        -- an inbound job before admission
  | queued        -- accepted, before dispatch
  | delivered     -- in a Set's input queue
  | running       -- held by a thread
  | retiring      -- handed to the retire stage
  | waiting       -- at a ring, waiting for buffers (R147, R191)
  | gated         -- at its launch gate (R383)
  deriving DecidableEq, Repr

/-- A launch: the slot, the domain of the gate clock where the descriptor names it, and the time in ns (R383). -/
structure Launch where
  slot : Nat
  domain : Option Nat
  time : Nat
  late : Bool := false
  deriving DecidableEq, Repr

/-- An item: its Ledger entry (R158) and the bytes that the device holds for it. -/
structure Item where
  kind : Nat := 0
  seq : Nat := 0
  count : Nat := 1                -- descriptors of the frame
  source : Nat := 0
  fn : Nat := 0
  gen : Nat := 0
  descs : List Desc := []
  bytes : List Byte := []
  want : Nat := 0                 -- payload reads not yet returned
  pieces : NMap (List Byte) := {}
  readIssued : Bool := false
  readBad : Bool := false
  parse : Parse := {}
  verdict : Verdict := {}
  stage : Stage := .queued
  figure : Nat := 0
  position : Nat := 64            -- 64: in no Ledger table
  replays : Nat := 0
  order : Nat := 0
  actionIndex : Nat := 0
  actionKind : Nat := 0
  dest : Option Dest := none
  edits : List Edit := []
  commits : List Commit := []
  status : Nat := 0
  failed : Option Nat := none
  failedIn : Bool := false        -- failed during a reset of its function, whose record counts it so (R171)
  direct : Bool := false          -- no Set sees it: malformed, or no-ops
  held : Nat := 0                 -- bytes counted at a ring
  heldAt : Option Nat := none     -- the ring that counts them, and where a waiting item waits
  template : Option (List Byte) := none   -- the tunnel template as the pass read it (R204)
  job : Nat := 0                  -- in the crypto stage: 0 an ESP job, 1 an ESP job that passed, 3 no job, 4 under MACsec still
  jobCtx : Option (List Byte × List Byte) := none   -- context and keys as a job that has started read them (R274)
  espMark : Option Nat := none    -- the mark of the context that decrypted the frame (R281)
  cryPosition : Nat := 0          -- crypto position of the job
  sa : Nat := 0                   -- context of the job
  restored : Bool := false        -- restored by a service-reset replay (R169)
  launch : Option Launch := none  -- fixed when the item first is next in order (R383)
  launched : Bool := false        -- the launch gate opened, or the item is late
  stalled : Bool := false
  stamp : Stamp := {}             -- the receive timestamp (R375)
  since : Int := 0                -- where residence began, in eighths of a nanosecond of reference ticks (R379)
  switched : Bool := false
  conn : Option Nat := none       -- the connection context of an inbound or work item
  nvme : Option (Nat × Nat) := none   -- the controller and queue of an NVMe command
  deriving DecidableEq, Repr

/-! ## Transmit shares (R310-R322) -/

/-- The parameters of a node (R313). -/
structure Node where
  weight : Nat := 256
  burst : Nat := 64
  floor : Nat := 0
  ceiling : Nat := 0
  mac : Nat := 0
  macValid : Bool := false
  tc : Nat := 0
  deriving DecidableEq, Repr

/-- A node command that runs (R320). -/
structure NodeCmd where
  write : Bool
  mid : Nat
  level : Nat
  index : Nat
  node : Node
  deriving DecidableEq, Repr

/-- The scheduler: the node table and the parameters in force in the bar; balances by leaf and ancestors' debts by node key, in 1/256
byte; port budgets; the classes paused at the bar's start; items accepted in the bar, and whether the cap bound. -/
structure Sched where
  nodes : NMap Node := {}
  force : NMap Node := {}
  balances : NMap Int := {}
  debts : NMap Nat := {}
  budgets : NMap Int := {}
  paused : NMap Nat := {}
  taken : Nat := 0
  capped : Bool := false
  cmd : Option NodeCmd := none
  deriving DecidableEq, Repr

/-! ## The MAC complex (R345-R355) -/

/-- A frame in an egress FIFO or launch queue, with what its start decides: the completions at its source ring (by
sequence, the last of them that of its record), its timestamp and its residence. -/
structure TxFrame where
  item : Nat := 0
  stomp : Bool := false
  cls : Nat
  bytes : Frame
  ring : Option Nat := none
  seq : Nat := 0
  cpls : List (Nat × Cpl) := []
  tsReq : Bool := false
  launch : Option Launch := none
  sync : Bool := false            -- before protection, a one-step Sync (R378)
  ipsec : Bool := false
  since : Option Int := none
  deriving DecidableEq, Repr

/-- A MAC instance beside its registers and counters: egress FIFO and launch queue, oldest first; the lossless receive FIFO; the
IPv4 identification counter (R199); for each class the uptime at which it was paused and that of the last non-zero pause. -/
structure Mac where
  fifo : List TxFrame := []
  launch : List TxFrame := []
  rx : List Item := []
  ident : Nat := 0
  pausedAt : NMap Nat := {}
  lastPause : NMap Nat := {}
  deriving DecidableEq, Repr

/-! ## Tempo (R363-R389) -/

/-- A time domain: its counter, the increment and one committed for the next tick, validity, the base uncertainty with the
additions of R364, anchor age in ns and the part of it on substitute ticks, the uncertainty, and whether the alarm stands. -/
structure Domain where
  sec : Nat := 0
  ns : Nat := 0
  frac : Nat := 0
  inc : Nat := 0x400000000
  base : Nat := 0xFFFF
  age : Nat := 0
  subAge : Nat := 0
  unc : Nat := 0xFFFF
  alarm : Bool := false
  deriving DecidableEq, Repr

/-- What a reader latched of a domain (R369). -/
structure Latch where
  sec : Nat := 0
  frac : Nat := 0
  unc : Nat := 0xFFFF
  deriving DecidableEq, Repr

/-- A timed-action slot (R380-R387): the configuration it was armed with, its offset in 10^-9 ns and the slew of the switch in
progress, the next pulse in ns of the slot clock, the lead in ns and the longest hold in ms of a launch gate, and whether a pulse is in
progress and on which pin. -/
structure TSlot where
  kind : Nat := 0
  source : Nat := 0
  useDesc : Bool := false
  pin : Nat := 0
  irqDone : Bool := false
  start : Nat := 0
  period : Nat := 0
  width : Nat := 0
  offset : Int := 0
  slew : Nat := 0
  next : Nat := 0
  lead : Nat := 1000
  hold : Nat := 1000
  pulsing : Bool := false
  pulsePin : Nat := 0
  deriving DecidableEq, Repr

/-- A TIME_IO pin (R389): a capture interval that runs, edges coalesced in it, whether the next report carries overrun, and the
level of an input, none before its first edge under the pin's configuration. -/
structure TimePin where
  interval : Bool := false
  coalesced : Nat := 0
  overrun : Bool := false
  level : Option Bool := none
  deriving DecidableEq, Repr

/-- The Tempo unit beside its registers; `latches` by 2 × MID + domain; `held` keeps the capture records of a service reset. -/
structure Tempo where
  lead : Domain := {}
  follow : Domain := {}
  latches : NMap Latch := {}
  slots : NMap TSlot := {}
  pins : NMap TimePin := {}
  held : List (List Nat) := []
  deriving DecidableEq, Repr

/-! ## RDMA and storage (R292-R309) -/

/-- A request of a QP's send ring that the peer has not acknowledged (R299): its descriptor, its PSNs, and a resend that reads the
payload anew. -/
structure QpReq where
  ring : Nat
  seq : Nat
  desc : List Byte
  opcode : Nat
  first : Nat
  last : Nat
  got : Nat := 0                  -- bytes of a READ's response placed
  own : List Byte := []           -- bytes that the device itself holds, of an NVMe capsule
  resend : Option Nat := none     -- the PSN a resend begins at
  want : Nat := 0
  pieces : NMap (List Byte) := {}
  deriving DecidableEq, Repr

/-- A command that an NVMe/TCP connection or QP carries: its tag on the wire, where it came from, its data as it goes to the
controller, the host segments of its data and of separate metadata, and the region a QP's peer reaches them by. -/
structure NvmeCmd where
  tag : Nat
  fn : Nat
  sq : Nat
  cid : Nat
  ns : Nat
  entry : List Byte := []
  data : List Byte := []
  segs : List (Nat × Nat) := []
  meta_ : List (Nat × Nat) := []
  placed : Nat := 0
  early : List Byte := []         -- bytes of a block not yet whole
  piFault : Option Nat := none
  region : Option Nat := none
  deriving DecidableEq, Repr

/-- A QP beside its context (R294, R299, R300). Times are reference ticks; the rate is in 2^-16 of the line rate. -/
structure Qp where
  reqs : List QpReq := []
  retries : Nat := 0
  rnrTries : Nat := 0
  rate : Nat := 65536
  halvedAt : Option Nat := none
  cnpAt : Option Nat := none             -- when a CNP was last sent
  msn : Nat := 0
  nakOut : Bool := false
  buffer : Option (Nat × Desc) := none   -- the buffer that the message in progress fills, and its ring
  offset : Nat := 0                      -- bytes of the message in progress placed
  target : Option (Nat × Nat × Nat) := none   -- address, rkey and bytes left of a WRITE in progress
  owedAck : Nat := 0
  cmds : List NvmeCmd := []              -- the NVMe commands that a QP carries (R303)
  sendRing : Option Nat := none          -- where its most recent request was accepted (R319)
  deriving DecidableEq, Repr

/-- An NVMe/TCP connection beside its context (R303, R304, R306): TCP state, bytes kept until acknowledged, segments out of order,
bytes of a PDU not yet whole, and the commands outstanding. -/
structure Conn where
  sndNxt : Nat := 0
  sndUna : Nat := 0
  rcvNxt : Nat := 0
  window : Nat := 65535
  cwnd : Nat := 0
  ssthresh : Nat := 0
  dupAcks : Nat := 0
  kept : List (Nat × List Byte) := []
  early : List (Nat × List Byte) := []
  inBytes : List Byte := []
  retries : Nat := 0
  lost : Bool := false
  tsRecent : Nat := 0             -- the peer's last timestamp
  cmds : List NvmeCmd := []
  deriving DecidableEq, Repr

/-- A submission queue (R302). -/
structure Sq where
  base : Nat := 0
  size : Nat := 0
  cq : Nat := 0
  tail : Nat := 0
  fetchPos : Nat := 0
  nextSeq : Nat := 0
  landed : NMap (List Byte) := {}
  accepted : List (Nat × List Byte) := []
  saved : Nat := 0                -- as for a ring (R169)
  deriving DecidableEq, Repr

/-- A completion queue. -/
structure Cq where
  base : Nat := 0
  size : Nat := 0
  tail : Nat := 0
  head : Nat := 0
  phase : Bool := true
  irq : Bool := false
  vector : Nat := 0
  deriving DecidableEq, Repr

/-- A virtual NVMe controller (R301, R302): its properties, queues, features, Asynchronous Event Requests held and events due. -/
structure Nvme where
  cc : Nat := 0
  ready : Bool := false
  intMask : Nat := 0
  aqa : Nat := 0
  asq : Nat := 0
  acq : Nat := 0
  sqs : NMap Sq := {}
  cqs : NMap Cq := {}
  features : NMap Nat := {}
  aers : List Nat := []
  events : List Nat := []
  owed : List (Nat × Nat × Nat × Nat) := []   -- completions due: queue, command identifier, status, result
  nextTag : Nat := 0
  closing : Bool := false         -- CC.EN was cleared and commands remain (R302)
  deriving DecidableEq, Repr

/-! ## DMA channels (R325-R341) -/

/-- A descriptor that a channel has fetched; `bad` holds the code that stops the channel at it. -/
structure DmaDesc where
  addr : Nat
  src : Nat := 0
  dst : Nat := 0
  length : Nat := 0
  srcSpace : Nat := 0
  dstSpace : Nat := 0
  swap : Nat := 0
  irqHalf : Bool := false
  irqFull : Bool := false
  last : Bool := false
  next : Nat := 0
  bad : Option Nat := none
  started : Nat := 0              -- bytes whose bursts have started
  written : Nat := 0
  half : Bool := false
  early : List Byte := []         -- bytes of a direct entry not yet whole
  deriving DecidableEq, Repr

/-- A burst in flight: the descriptor's address, its bytes, and the data that has come; `failed` marks a failed read, `site` the Set whose
request line it was started for. -/
structure Burst where
  id : Nat
  desc : Nat
  off : Nat
  len : Nat
  attr : Attr := {}
  data : Option (List Byte) := none
  failed : Bool := false
  site : Option Nat := none
  deriving DecidableEq, Repr

/-- A channel beside its registers: descriptors fetched and not complete, oldest first; the fetch under way with its bytes; bursts
in flight, in address order; the settings the current descriptor runs with; the last burst start. -/
structure DmaChan where
  descs : List DmaDesc := []
  fetching : Option Nat := none
  fetched : Option (List Byte) := none
  fetchBad : Bool := false
  flight : List Burst := []
  nextBurst : Nat := 0
  burstLog2 : Nat := 6
  attr : Attr := {}
  lastStart : Option (Nat × Nat) := none
  stopping : Bool := false
  inner : Bool := false           -- a list that firmware keeps in the control region
  deriving DecidableEq, Repr

/-! ## The Stream Port (R458-R473) -/

/-- A stream of one direction beside its registers: bytes staged to send, bytes received and not read, credits to return, bytes
acknowledged by the peer or received from it. -/
structure Stream where
  staged : List Byte := []
  window : List Byte := []
  owed : Nat := 0                 -- bytes of flits read out, not yet given back as credits
  flits : List Nat := []          -- lengths of the flits that lie in the window
  moved : Nat := 0
  credits : Nat := 0              -- held by the sender, or granted by the receiver
  deriving DecidableEq, Repr

/-- A bulk transfer that was asked for here, and the peer's announcement of its own side. -/
structure Xfer where
  fn : Nat
  tag : Nat
  receive : Bool
  id : Nat
  addr : Nat
  length : Nat
  relaxed : Bool := false
  noSnoop : Bool := false
  stream : Option Nat := none
  channel : Nat := 0
  running : Bool := false
  deriving DecidableEq, Repr

/-- A message flit's content: channel, kind (acknowledgement), sequence, code, and bytes. -/
structure StpMsg where
  channel : Nat
  ack : Bool
  seq : Nat := 0
  code : Nat := 0
  len : Nat := 0
  words : List Nat := []
  deriving DecidableEq, Repr

/-- The Stream Port beside its registers: next fseq to send and to expect, flits kept, those still to be resent, messages
waiting, credits, streams and transfers, the retrains of the last second. -/
structure Stp where
  fseq : Nat := 0
  expect : Nat := 0
  kept : List Flit := []
  resend : List Flit := []
  nakDue : Bool := false
  nakOut : Bool := false
  msgs : List StpMsg := []
  outbox : List (List Nat) := []      -- messages of this end's firmware to the peer's, not yet sent
  sentMsgs : List (Nat × Nat) := []   -- channel and seq of messages the peer has not acknowledged
  msgCredits : Nat := 0
  msgOwed : Nat := 0
  streams : NMap Stream := {}
  xfers : List Xfer := []
  heard : List (Nat × Nat × Bool × Nat) := []   -- announcements of the peer: id, length, whether it receives, its stream
  waits : Bool := false           -- a failed training waits 10 ms
  good : Option Nat := none       -- fseq of the last flit received in order
  firstAck : Bool := false        -- the peer has not acknowledged anything since a retrain
  taken : List (Nat × Nat × Nat) := []   -- messages of the peer in channels: channel, seq here, seq at the peer
  fails : Nat := 0
  retrains : List Nat := []
  resends : Nat := 0
  turn : Nat := 0                 -- the stream served last
  deriving DecidableEq, Repr

/-- The debug port (R486): TAP instruction, the challenge in force, failures, and whether the debug master is unlocked. -/
structure Debug where
  tap : Nat := 0
  nonce : Option Nat := none
  fails : Nat := 0
  unlocked : Bool := false
  deriving DecidableEq, Repr

/-- An entry of the failed-item log (R172). -/
structure Failure where
  source : Nat
  onPort : Bool
  reason : Nat
  seq : Nat
  fn : Nat
  deriving DecidableEq, Repr

/-- A failover replay in progress (R165): the departed position and the items not yet through. -/
structure Replay where
  position : Nat
  items : List Nat
  deriving DecidableEq, Repr

/-- An epilogue record in the making (R171). -/
structure Epilogue where
  cause : Nat := 0
  merged : Bool := false
  oldGen : Nat := 0
  retired : Nat := 0
  abandoned : Nat := 0
  failed : Nat := 0
  owedWritten : Nat := 0
  rings : Nat := 0
  ready : Bool := false      -- the reset ended; the record may be sent
  sent : Bool := false
  deriving DecidableEq, Repr

/-! ## Match tables (R207-R237) -/

/-- An exact-match entry (R210): its flags and stamps, and the 32 key and 16 result bytes. -/
structure MtbEntry where
  valid : Bool := false
  static : Bool := false
  learned : Bool := false
  pinned : Bool := false
  gen : Nat := 0
  moves : Nat := 0
  table : Nat := 0
  scope : Nat := 0
  lastHit : Nat := 0
  moveStart : Nat := 0
  pinUntil : Nat := 0
  key : List Byte := []
  result : List Byte := []
  deriving DecidableEq, Repr

/-- A cuckoo table: entries under 4 × bucket + slot, an unlisted slot being all zero, and the bucket versions (R209). -/
structure Cuckoo where
  slots : NMap MtbEntry := {}
  bver : NMap Nat := {}
  deriving DecidableEq, Repr

/-- A prefix (R232, R233): virtual table, family, length, address bytes and result. -/
structure Prefix where
  vrf : Nat
  ipv6 : Bool
  length : Nat
  addr : List Byte
  result : Nat
  deriving DecidableEq, Repr

/-- Where an insertion goes (R215): the slot it writes last (4 × bucket + slot, and in_b1), whether the key stands there, the
victims' places on its path and the free place at its end, the generation, and its buckets with the versions that its search read. -/
structure MtbPlan where
  place : Nat × Bool
  found : Bool := false
  path : List Nat := []
  free : Nat := 0
  gen : Nat := 0
  seen : List (Nat × Nat) := []
  deriving DecidableEq, Repr

/-- The commands that change an exact-match table by key (R222): ops 2, 3 and 4. -/
inductive PutOp where
  | write | insert | delete
  deriving DecidableEq, Repr

/-- A change by key that a port has not carried out yet (R217): its plan, none while the engine serves another port, whether its
buckets are locked, and the checks that failed. -/
structure Put where
  op : PutOp
  entry : MtbEntry
  plan : Option MtbPlan := none
  locked : Bool := false
  fails : Nat := 0
  deriving DecidableEq, Repr

/-- A command port's running command (R222, R223): what MTB_COMMAND_DONE posts, or the change that it still has to carry out. -/
structure PortRun where
  table : Nat := 0
  result : Nat := 0
  steps : Nat := 0
  place : Option (Nat × Bool) := none          -- 4 × bucket + slot, and in_b1
  gen : Nat := 0
  age : Option Nat := none
  window : Option (List Byte) := none
  irq : Bool := false
  put : Option Put := none
  deriving DecidableEq, Repr

/-- An offer in a learn unit's queue (R226). -/
structure LearnOffer where
  vnid : Nat
  mac : Nat
  source : Nat
  fromFunction : Bool
  deriving DecidableEq, Repr

/-- An offer that a learn unit has taken and that found its buckets locked (R217): the buckets with their versions, and the checks that
failed. -/
structure Learning where
  offer : LearnOffer
  seen : List (Nat × Nat) := []
  fails : Nat := 0
  deriving DecidableEq, Repr

/-- The background compare (R230, R231): the region that is being read, records to be checked again, a pass waiting for its
interval, and the words of MTB_COMPARE_FIFO, oldest first. -/
structure Compare where
  region : Nat := 0
  recheck : List Nat := []
  waits : Bool := false
  fifo : List Nat := []
  deriving DecidableEq, Repr

/-- The Match Table Unit beside its registers: cuckoo tables, direct entries under 2^26 × table + index, prefixes, ternary entries
(value, mask, result), stage slots under 4 × port + slot, running commands, learn queues by Figure with the offers that wait on
locked buckets, the hot cache's lines as the clock replacement passes them (line, referenced), and the compare. -/
structure Mtb where
  tables : NMap Cuckoo := {}
  direct : NMap (List Byte) := {}
  prefixes : List Prefix := []
  ternary : NMap (List Byte × List Byte × List Byte) := {}
  stages : NMap (List Byte) := {}
  runs : NMap PortRun := {}
  offers : NMap (List LearnOffer) := {}
  learning : NMap Learning := {}
  cache : List (Nat × Bool) := []
  compare : Compare := {}
  deriving DecidableEq, Repr

/-! ## Sets (R239-R265) -/

/-- The five states of R241. -/
inductive ThreadState where
  | idle | ready | waiting | stopped | stopPending
  deriving DecidableEq, Repr

/-- A WAIT under way: its condition with the channel of imm, its limit, when it began, and whether its microword has Y. -/
structure Wait where
  cond : Nat
  invert : Bool
  channel : Nat
  limit : Nat
  began : Nat
  yield : Bool
  deriving DecidableEq, Repr

/-- An assist request not yet answered: its kind (the class 5 function; 12 a Promenade read, 13 a retire commit), the register
that takes the answer, and the answer. -/
structure Assist where
  kind : Nat
  dst : Nat
  answer : Word64 := 0
  writes : Bool := false
  deriving DecidableEq, Repr

/-- A thread that is not idle, or was used (R239). -/
structure Thread where
  state : ThreadState := .idle
  item : Option Nat := none
  pc : Nat := 0
  stack : List Nat := []
  regs : List Word64 := List.replicate 16 0
  uf : Nat := 0
  zero : Bool := false
  carry : Bool := false
  negative : Bool := false
  overflow : Bool := false
  wait : Option Wait := none
  timedOut : Bool := false
  broken : Bool := false
  stage : List Word64 := []
  sendChan : Option Nat := none
  delivering : Option Nat := none
  readChan : Option (Nat × Nat) := none   -- channel and message of the read side
  sinceYield : Nat := 0
  assists : List Assist := []
  issuedData : Bool := false              -- the datapath part of the microword at pc has issued
  kill : Bool := false
  deriving DecidableEq, Repr

/-- A word in a Set channel's FIFO: its message, the word, and the last-word tag (R254). -/
structure ChanWord where
  msg : Nat
  word : Word64
  last : Bool
  deriving DecidableEq, Repr

/-- A Set channel (R254): FIFO, the thread that holds it open, the words still in a stage after the close, and the closed
messages that no thread has acquired, oldest first. -/
structure SetChan where
  fifo : List ChanWord := []
  open_ : Option Nat := none
  delivery : List ChanWord := []
  closed : List Nat := []
  nextMsg : Nat := 0
  deriving DecidableEq, Repr

/-- The Caller of an engine (R243, R244): tokens of the round, how many each thread has claimed, the marks in force, the thread
granted last, and the priority thread granted last. 16 grants: the round is over. -/
structure Caller where
  granted : Nat := 16
  claimed : List Nat := List.replicate 8 0
  floor2 : Nat := 0
  priority : Nat := 0
  last : Nat := 7
  lastPrio : Nat := 8
  deriving DecidableEq, Repr

/-- A Set position's site: control store, local SRAM, threads, channels, Set flags, input queue, fault FIFO. -/
structure SetSite where
  store : NMap Microword := {}
  sram : NMap Byte := {}
  threads : NMap Thread := {}
  channels : NMap SetChan := {}
  callers : NMap Caller := {}
  flags : Nat := 0
  input : List Nat := []
  faults : List Nat := []       -- words of SET_FAULT_FIFO, oldest first
  waits : Nat := 0              -- numbers the waits in the order they began
  deriving DecidableEq, Repr

end Sys2Proof.Machine
end

