-- ==== Sys2Proof/Machine/State.lean ====
section
/-!
DEFINITION. The state of the device as plain data, the state right after reset, and the reasons a step can stop.
-/

namespace Sys2Proof.Machine

/-- What is fixed on the die beside its fuses: variant, stepping, die identity and the fused references of the sixteen rings (R1, R74,
R88, R115). -/
structure Die where
  variant : Variant := .s9640
  stepping : Nat := 1
  dieId : Nat := 1
  ringRefs : List Nat := List.replicate 16 10000
  deriving DecidableEq, Repr

/-- A fused key slot (R63). -/
structure KeySlot where
  programmed : Bool := false
  revoked : Bool := false
  digest : BitVec 384 := 0
  deriving DecidableEq, Repr

/-- The fuses (R63): four key slots and the security floor. -/
structure Fuses where
  slot0 : KeySlot := { programmed := true }
  slot1 : KeySlot := {}
  slot2 : KeySlot := {}
  slot3 : KeySlot := {}
  floor : Nat := 0
  deriving DecidableEq, Repr

/-- The device beside its fuses, flash and queue. `regs` holds every register field of the register maps (an unlisted field
holds its default); `freeCtr` numbers the values the spec leaves open; `out` lists what left the device, oldest first. -/
structure Dev where
  phase : Phase := .held
  railsGood : Bool := true
  resetLow : Bool := true
  testen : Bool := false
  regs : NMap Nat := {}
  freeCtr : Nat := 0
  out : List Output := []
  die : Die := {}
  boot : Boot := {}
  keep : Keep := {}
  card : Card := {}
  setPos : NMap Slot := {}
  cryPos : NMap Slot := {}
  power : Power := {}
  links : NMap Link := {}
  funcs : NMap Func := {}
  chans : NMap Chan := {}
  routes : NMap Route := {}
  cores : NMap CtrlCore := {}
  escalations : List Nat := []
  rings : NMap Ring := {}
  groups : NMap Group := {}
  ringErrors : List Nat := []
  ctxCache : List Nat := []       -- rings whose context is cached (R136)
  ctxSnap : Option (Nat × Nat) := none
  items : NMap Item := {}
  nextItem : Nat := 0
  admitted : NMap Nat := {}
  dispatched : Nat := 0
  failures : List Failure := []
  replays : List Replay := []
  epilogues : NMap Epilogue := {}
  credits : Nat := 1024000        -- packet credits of R184 in 1/250 packet, at most 4,096 packets
  sched : Sched := {}
  macs : NMap Mac := {}
  tempo : Tempo := {}
  tenants : NMap Nat := {}        -- the PF of each Tenant that is no host Tenant (R28, R421)
  mtb : Mtb := {}
  ctxs : NMap (List Byte) := {}
  ctxKeys : NMap (List Byte) := {}
  ctxFailed : List Nat := []
  crySnap : Option (Nat × Nat) := none
  idents : NMap Nat := {}
  counters : NMap Nat := {}
  cells : NMap Nat := {}
  sites : NMap SetSite := {}
  jobs : NMap Job := {}
  nextJob : Nat := 0
  apply : Option Apply := none
  drains : NMap Nat := {}         -- functions whose drain runs (R425)
  qps : NMap Qp := {}
  conns : NMap Conn := {}
  nvmes : NMap Nvme := {}
  dma : NMap DmaChan := {}
  region : NMap Byte := {}        -- the windows of the control region (R27, R328)
  movers : Nat := 18              -- movers that have not faulted (R337)
  stp : Stp := {}
  dbg : Debug := {}
  eid : Nat := 0                  -- the sideband's endpoint ID (R84)
  macCounts : NMap Nat := {}
  deriving DecidableEq, Repr

/-- The whole state: the commands waiting, first in, first out; fuses; flash; the device. -/
structure State where
  pending : List Instr := []
  fuses : Fuses := {}
  flash : Flash := {}
  dev : Dev := {}
  deriving DecidableEq, Repr

/-- Why a step faults. The spec lets every command end in a state, so there is no reason and no command faults. -/
inductive Fault where
  deriving DecidableEq, Repr

/-- Why a step is refused. -/
inductive Refusal where
  /-- Raised by a command whose meaning is not written yet; safe. -/
  | notModelled (mnemonic : String)
  deriving DecidableEq, Repr

/-- The device held in cold reset: every register at its start value, nothing queued, an empty flash. -/
def State.reset : State := {}

end Sys2Proof.Machine
end

