-- ==== Sys2Proof/Machine/Ops.lean ====
section
/-!
DEFINITION. The named operations that the meanings share: register fields, free values, outputs, what the image says of
functions and links, cause bits and events, MSI-X messages, the fault log.
-/

namespace Sys2Proof

/-! ## The variant (R1, R31, R39) -/

/-- Set positions in service at most. -/
def Variant.sets : Variant → Nat
  | .s9640 => 32
  | .s9632 => 24
  | .s9616 => 16

/-- Line lanes. -/
def Variant.lanes : Variant → Nat
  | .s9640 => 32
  | .s9632 => 24
  | .s9616 => 16

/-- MAC instances. -/
def Variant.macs : Variant → Nat
  | .s9640 => 256
  | .s9632 => 192
  | .s9616 => 128

/-- Host links at most. -/
def Variant.links : Variant → Nat
  | .s9616 => 8
  | _ => 16

/-- AES-GCM positions in service at most; positions 46 and 47 are the reserve on every variant. -/
def Variant.cryptos : Variant → Nat
  | .s9640 => 46
  | .s9632 => 34
  | .s9616 => 22

/-- Virtual functions. -/
def Variant.vfs : Variant → Nat
  | .s9616 => 4096
  | _ => 8192

/-- The variant code of the card and of the PF Device ID. -/
def Variant.code : Variant → Nat
  | .s9640 => 0x9640
  | .s9632 => 0x9632
  | .s9616 => 0x9616

/-- HBM in GiB. -/
def Variant.hbmGib : Variant → Nat
  | .s9640 => 48
  | _ => 24

/-- The Storage Offload Unit is present. -/
def Variant.hasSto : Variant → Bool
  | .s9616 => false
  | _ => true

/-- The Stream Port is present. -/
def Variant.hasStp : Variant → Bool
  | .s9640 => true
  | _ => false

/-! ## The image -/

/-- The identity section of an image. -/
def Image.identity (img : Image) : Identity :=
  (img.sections.findSome? (fun s => match s.body with
    | .identity i => some i
    | _ => none)).getD {}

end Sys2Proof

namespace Sys2Proof.Machine

/-- The outcome of a command. -/
abbrev Out := Host.Outcome State Fault Refusal

/-! ## Register fields -/

/-- The value of a field. -/
def Dev.rd (d : Dev) (f : Field) (i : Nat := 0) (a : Nat := 0) : Nat := d.regs.getD (f.key i a) f.dflt

/-- Is a field non-zero? -/
def Dev.on (d : Dev) (f : Field) (i : Nat := 0) (a : Nat := 0) : Bool := d.rd f i a != 0

/-- Store the low `width` bits of `v` in a field; the default value is never listed. A written K field is one that the next
retention record must take in (R76). -/
def Dev.wr (d : Dev) (f : Field) (v : Nat) (i : Nat := 0) (a : Nat := 0) : Dev :=
  let v := v % 2 ^ f.width
  { d with
    regs := if v = f.dflt then d.regs.erase (f.key i a) else d.regs.set (f.key i a) v
    keep := if f.isK then { d.keep with dirty := true } else d.keep }

/-- Add to a counter field, which wraps at its width. -/
def Dev.bump (d : Dev) (f : Field) (i : Nat := 0) (a : Nat := 0) (n : Nat := 1) : Dev := d.wr f (d.rd f i a + n) i a

/-- Add to a counter field that stops at its greatest value. -/
def Dev.bumpSat (d : Dev) (f : Field) (i : Nat := 0) (a : Nat := 0) (n : Nat := 1) : Dev :=
  d.wr f (min (d.rd f i a + n) (2 ^ f.width - 1)) i a

/-- A 64-bit value in two consecutive registers, low word first (R4). -/
def Dev.rd64 (d : Dev) (lo hi : Field) (i : Nat := 0) (a : Nat := 0) : Nat := d.rd lo i a + 2 ^ 32 * d.rd hi i a

/-- Store a 64-bit value in two consecutive registers. -/
def Dev.wr64 (d : Dev) (lo hi : Field) (v : Nat) (i : Nat := 0) (a : Nat := 0) : Dev :=
  (d.wr lo (v % 2 ^ 32) i a).wr hi (v / 2 ^ 32) i a

/-- Put something out. -/
def Dev.emit (d : Dev) (o : Output) : Dev := { d with out := d.out ++ [o] }

/-- The next value that the spec leaves open, and the device with the counter advanced. -/
def Dev.free (d : Dev) : Nat × Dev := ((Config.freeWord d.freeCtr).toNat, { d with freeCtr := d.freeCtr + 1 })

/-- Apply `f` to each element in order. -/
def Dev.each {α : Type} (l : List α) (f : α → Dev → Dev) (d : Dev) : Dev := l.foldl (fun d a => f a d) d

/-- Apply `f` where the condition holds. -/
def Dev.when (d : Dev) (c : Bool) (f : Dev → Dev) : Dev := if c then f d else d

/-- The bit `b` of `n`, as a number. -/
def bit (n b : Nat) : Nat := n / 2 ^ b % 2

/-- Is bit `b` of `n` set? -/
def hasBit (n b : Nat) : Bool := bit n b == 1

/-- The field of `n` from bit `lsb` on, `w` bits wide. -/
def bits (n lsb w : Nat) : Nat := n / 2 ^ lsb % 2 ^ w

/-- `n` with bit `b` set. -/
def setBit (n b : Nat) : Nat := if hasBit n b then n else n + 2 ^ b

/-- `n` with bit `b` cleared. -/
def clearBit (n b : Nat) : Nat := if hasBit n b then n - 2 ^ b else n

/-! ## Lifting to the whole state -/

/-- The state with its device changed. -/
def State.onDev (s : State) (f : Dev → Dev) : Out := .next { s with dev := f s.dev }

/-- As `onDev`, where the device runs; otherwise nothing happens. -/
def State.onRun (s : State) (f : Dev → Dev) : Out :=
  .next (if s.dev.phase = .running then { s with dev := f s.dev } else s)

/-- As `onRun`, also while a service reset keeps links and ports up (R83, R350). -/
def State.onLive (s : State) (f : Dev → Dev) : Out :=
  .next (if s.dev.phase = .running ∨ s.dev.phase = .serviceReset ∨ s.dev.phase = .faultStop then { s with dev := f s.dev } else s)

/-- Is Set position `p` (and Set site `p`) on the part? -/
def Dev.hasSet (d : Dev) (p : Nat) : Bool := p < d.die.variant.sets || p == 32 || p == 33

/-- Is crypto position `p` on the part? -/
def Dev.hasCry (d : Dev) (p : Nat) : Bool := p < d.die.variant.cryptos || p == 46 || p == 47

/-! ## Positions (R19-R23) -/

/-- Set position `p`; at first start site `p` fills it. -/
def Dev.setAt (d : Dev) (p : Nat) : Slot := d.setPos.getD p { site := p }

/-- Crypto position `p`. -/
def Dev.cryAt (d : Dev) (p : Nat) : Slot := d.cryPos.getD p { site := p }

/-- Is Set position `p` filled and carrying work? -/
def Dev.setInService (d : Dev) (p : Nat) : Bool := p < 32 && d.hasSet p && decide ((d.setAt p).phase = .inService)

/-- Does the reserve position `p` hold a Set fit for service? -/
def Dev.setFit (d : Dev) (p : Nat) : Bool := (p == 32 || p == 33) && decide ((d.setAt p).phase = .inService)

/-! ## What the image says -/

/-- The identity the device runs with. -/
def Dev.identity (d : Dev) : Identity := (d.boot.image.map Image.identity).getD {}

/-- The record of PF `n`, where PF `n` exists. -/
def Dev.pf? (d : Dev) (n : Nat) : Option PfRec := (d.identity.pfs.find? (fun p => p.1 == n && p.2.present)).map Prod.snd

/-- The PF numbers present. -/
def Dev.pfs (d : Dev) : List Nat := (List.range 16).filter (fun n => (d.pf? n).isSome)

/-- base_p: the sum of TotalVFs over the PFs before `p` (R113). -/
def Dev.vfBase (d : Dev) (p : Nat) : Nat := ((List.range p).map (fun n => ((d.pf? n).map PfRec.totalVfs).getD 0)).sum

/-- The PF that a global function index belongs to (R29). -/
def Dev.pfOf (d : Dev) (fn : Nat) : Nat :=
  if fn < 16 then fn
  else ((List.range 16).find? (fun p => d.vfBase p ≤ fn - 16 &&
    fn - 16 < d.vfBase p + ((d.pf? p).map PfRec.totalVfs).getD 0)).getD 16

/-- The host link that carries a function. -/
def Dev.linkOf (d : Dev) (fn : Nat) : Nat := ((d.pf? (d.pfOf fn)).map PfRec.link).getD 16

/-- A function's state. -/
def Dev.fn (d : Dev) (fn : Nat) : Func := d.funcs.getD fn {}

/-- Change a function's state. -/
def Dev.onFn (d : Dev) (fn : Nat) (f : Func → Func) : Dev := { d with funcs := d.funcs.upd fn {} f }

/-- Does the function exist now (R113, R421)? -/
def Dev.hasFn (d : Dev) (fn : Nat) : Bool := (d.fn fn).present

/-- The VFs of PF `p` by global function index (R29). -/
def Dev.vfsOf (d : Dev) (p : Nat) : List Nat :=
  (List.range ((d.pf? p).map PfRec.totalVfs |>.getD 0)).map (fun k => 16 + d.vfBase p + k)

/-- The functions of a host link. -/
def Dev.fnsOf (d : Dev) (link : Nat) : List Nat := d.funcs.keys.filter (fun f => d.linkOf f == link && d.hasFn f)

/-- A link's state. -/
def Dev.link (d : Dev) (n : Nat) : Link := d.links.getD n {}

/-- Change a link's state. -/
def Dev.onLink (d : Dev) (n : Nat) (f : Link → Link) : Dev := { d with links := d.links.upd n {} f }

/-- Is host link `n` formed by the bifurcation (R111)? -/
def Dev.formed (d : Dev) (n : Nat) : Bool := n < d.die.variant.links && d.on R.PCX_LINK_SHAPE_shape n

/-- Size of a function's MSI-X table (R115). -/
def Dev.msixSize (d : Dev) (fn : Nat) : Nat :=
  match d.pf? (d.pfOf fn) with
  | some p => if fn < 16 then p.msixPf else p.msixVf
  | none => 0

/-- The MID of a function, a Set position and a control core (R32). -/
def midFn (fn : Nat) : Nat := 0x1000 + fn
def midSet (p : Nat) : Nat := 0x100 + p
def midCore (k : Nat) : Nat := 1 + k
def midStp : Nat := 0x10
def midDebug : Nat := 0xFF

/-- Is `m` a host function's MID, a Set's, a control core's? -/
def isFnMid (m : Nat) : Bool := 0x1000 ≤ m && m ≤ 0x300F
def isSetMid (m : Nat) : Bool := 0x100 ≤ m && m ≤ 0x121
def isCoreMid (m : Nat) : Bool := 1 ≤ m && m ≤ 8

/-- TMP_UPTIME_MS. -/
def Dev.uptime (d : Dev) : Nat := d.rd R.TMP_UPTIME_MS_value

/-! ## MSI-X messages (R127, R402, R412) -/

/-- A function's vector. -/
def Dev.vec (d : Dev) (fn v : Nat) : Vec := (d.fn fn).vecs.getD v {}

/-- Is a message on this vector discarded: beyond the table, the function absent, or its link in reset (R408, R412)? -/
def Dev.vectorLost (d : Dev) (fn v : Nat) : Bool :=
  d.msixSize fn ≤ v || !d.hasFn fn || decide ((d.link (d.linkOf fn)).reset ≠ .none)

/-- Must a message on this vector wait in the pending bit: Bus Master Enable clear (R127), MSI-X off, or masked? -/
def Dev.vectorHeld (d : Dev) (fn v : Nat) : Bool :=
  !(d.fn fn).busMaster || !(d.fn fn).msixEnable || (d.fn fn).msixMask || (d.vec fn v).masked

/-- An MSI-X message leaves, with the steering tag of its table entry where TPH is enabled (R115, R120); it does not pass the posted
writes of its function that await a translation. -/
def Dev.sendMessage (d : Dev) (fn v : Nat) : Dev :=
  let link := d.linkOf fn
  if (d.link link).posted.any (fun p => match p with
    | .write f _ _ _ => f == fn
    | .message f _ => f == fn) then d.onLink link (fun l => { l with posted := l.posted ++ [.message fn v] })
  else d.emit (.msix fn v (if (d.fn fn).tphEnable then some (d.vec fn v).steering else none))

/-- Send the message of a function's vector. -/
def Dev.sendVector (d : Dev) (fn v : Nat) : Dev :=
  if d.vectorLost fn v then d
  else if d.vectorHeld fn v then d.onFn fn (fun f => { f with vecs := f.vecs.upd v {} (fun e => { e with pending := true }) })
  else d.sendMessage fn v

/-- Deliver what a vector holds pending, if nothing holds it any longer. -/
def Dev.releaseVector (d : Dev) (fn v : Nat) : Dev :=
  if (d.vec fn v).pending && !d.vectorHeld fn v && !d.vectorLost fn v then
    (d.onFn fn (fun f => { f with vecs := f.vecs.upd v {} (fun e => { e with pending := false }) })).sendMessage fn v
  else d

/-! ## AER (R115, R454) -/

/-- The status bit of an error in its register (Base specification, PRESUMED, notes/assumptions/48.md). -/
def AerError.bit : AerError → Nat
  | .completionTimeout => 14
  | .completerAbort => 15
  | .poisoned => 12
  | .unsupported => 20
  | .ideCheck => 28
  | .uncorrectableInternal => 22
  | .correctedInternal => 14

/-- Does an error's message leave under the function's masks? A poisoned completion is an advisory non-fatal error, reported as a
correctable one (R454). -/
def Aer.reports (a : Aer) (e : AerError) : Bool :=
  match e with
  | .correctedInternal => !hasBit a.corMask 14
  | .poisoned => !hasBit a.uncorMask 12 && !hasBit a.corMask 13
  | _ => !hasBit a.uncorMask e.bit

/-- An error sets its status; the first uncorrectable one that no mask covers has its header logged, whose words no rule states. -/
def Dev.logAer (fn : Nat) (e : AerError) (d : Dev) : Dev :=
  let a := (d.fn fn).aer
  match e with
  | .correctedInternal => d.onFn fn (fun f => { f with aer := { f.aer with cor := setBit f.aer.cor 14 } })
  | _ =>
    let advisory := if e = .poisoned then setBit a.cor 13 else a.cor
    let d := d.onFn fn (fun f => { f with aer := { f.aer with uncor := setBit f.aer.uncor e.bit, cor := advisory } })
    if hasBit a.uncorMask e.bit || a.uncor != 0 then d
    else
      let w := fun n => (Config.freeWord (d.freeCtr + n)).toNat % 2 ^ 32
      { d with freeCtr := d.freeCtr + 8 }.onFn fn (fun f => { f with aer := { f.aer with
        header := [w 0, w 1, w 2, w 3]
        prefixes := [w 4, w 5, w 6, w 7] } })

/-- An error of a function is reported under AER, within its masks. -/
def Dev.reportAer (link fn : Nat) (e : AerError) (d : Dev) : Dev :=
  let shown := (d.fn fn).aer.reports e
  let d := d.logAer fn e
  if shown then d.emit (.aer link fn e) else d

/-- The PF that is function 0 of a link. -/
def Dev.function0 (d : Dev) (link : Nat) : Nat :=
  ((d.identity.pfs.find? (fun p => p.2.present && p.2.link == link && p.2.function == 0)).map Prod.fst).getD 0

/-! ## Causes, masks and events (R409-R414, R493) -/

/-- A cause register with its mask: unit, offset of the causes, mask field, and the event of bit `b` of window `i`:
`base + perInst * i + perBit * b`. -/
structure Causes where
  unit : Nat
  off : Nat
  count : Nat
  mask : Field
  base : Nat
  perInst : Nat
  perBit : Nat
  deriving DecidableEq, Repr

/-- The field of cause bit `b`. -/
def Causes.bit (c : Causes) (b : Nat) : Field := ⟨c.unit, c.off, [], b, 1, .w1c, .literal 0, .any⟩

/-- The event that bit `b` of window `i` raises. -/
def Causes.event (c : Causes) (i b : Nat) : Nat := c.base + c.perInst * i + c.perBit * b

def pcxCauses : Causes := ⟨0x10, 0x18, 10, R.PCX_CAUSE_MASK_enable, 78, 1, 0⟩
def qmgCauses : Causes := ⟨0x20, 0x30, 6, R.QMG_CAUSE_MASK_enable, 94, 0, 1⟩
def lgrCauses : Causes := ⟨0x21, 0x40, 8, R.LGR_CAUSE_MASK_enable, 110, 0, 1⟩
def mtbCauses : Causes := ⟨0x31, 0x24, 13, R.MTB_CAUSE_MASK_enable, 118, 0, 1⟩
def setCauses : Causes := ⟨0x41, 0x4, 8, R.SET_CAUSE_MASK_enable, 0, 1, 0⟩
def cryCauses : Causes := ⟨0x50, 0x108, 4, R.CRY_CAUSE_MASK_enable, 134, 0, 0⟩
def cryInstCauses : Causes := ⟨0x50, 0x4, 3, R.CRY_INST_MASK_enable, 134, 1, 0⟩
def laneCauses : Causes := ⟨0x70, 0x4, 5, R.MAC_LANE_MASK_enable, 38, 1, 0⟩
def stoCauses : Causes := ⟨0x51, 0x14, 8, R.STO_CAUSE_MASK_enable, 182, 0, 1⟩
def dmaCauses : Causes := ⟨0x61, 0x30, 9, R.DMA_CAUSE_MASK_enable, 190, 1, 0⟩
def macCauses : Causes := ⟨0x71, 0x0, 7, R.MAC_CAUSE_MASK_enable, 70, 0, 1⟩
def tmpCauses : Causes := ⟨0x80, 0x4, 21, R.TMP_CAUSE_MASK_enable, 254, 0, 1⟩
def mbxCauses : Causes := ⟨0x90, 0x0, 4, R.MBX_CAUSE_MASK_enable, 311, 0, 1⟩
def fltCauses : Causes := ⟨0x92, 0x4, 10, R.FLT_CAUSE_MASK_enable, 350, 0, 1⟩
def stpCauses : Causes := ⟨0xA0, 0x14, 10, R.STP_CAUSE_MASK_enable, 286, 0, 1⟩

/-- Every cause register that raises events under a mask. -/
def allCauses : List Causes :=
  [pcxCauses, qmgCauses, lgrCauses, mtbCauses, setCauses, cryCauses, cryInstCauses, laneCauses, stoCauses, dmaCauses, macCauses,
   tmpCauses, mbxCauses, fltCauses, stpCauses]

/-- How many windows have the cause register. -/
def Causes.windows (c : Causes) : Nat :=
  if c.perInst = 0 then 1
  else if c.unit = 0x10 then 16
  else if c.unit = 0x41 then 34
  else if c.unit = 0x50 then 48
  else if c.unit = 0x70 then 32
  else 64

/-- Is bit `b` of window `i` set together with its mask bit? -/
def Dev.causeActive (d : Dev) (c : Causes) (i b : Nat) : Bool := d.on (c.bit b) i && hasBit (d.rd c.mask i) b

/-- The cause bits that raise event `src`: register, window and bit. -/
def causesFor (src : Nat) : List (Causes × Nat × Nat) :=
  allCauses.flatMap (fun c =>
    if c.perInst = 1 then
      (if c.base ≤ src ∧ src < c.base + c.windows then (List.range c.count).map (fun b => (c, src - c.base, b)) else [])
    else if c.perBit = 1 then (if c.base ≤ src ∧ src < c.base + c.count then [(c, 0, src - c.base)] else [])
    else (if src = c.base then (List.range c.count).map (fun b => (c, 0, b)) else []))

/-- A source raised from cause bits has a level: at least one of its bits is set under its mask (R413). -/
def Dev.levelActive (d : Dev) (src : Nat) : Bool := (causesFor src).any (fun x => d.causeActive x.1 x.2.1 x.2.2)

/-- The key of a PF's route. -/
def routeKey (pf src : Nat) : Nat := 384 * pf + src

/-- A PF's route beside its register. -/
def Dev.route (d : Dev) (pf src : Nat) : Route := d.routes.getD (routeKey pf src) {}

/-- Change a PF's route. -/
def Dev.onRoute (d : Dev) (pf src : Nat) (f : Route → Route) : Dev :=
  { d with routes := d.routes.upd (routeKey pf src) {} f }

/-- Is the route enabled, and in level mode? -/
def Dev.routeOn (d : Dev) (pf src : Nat) : Bool := d.on R.EVT_ROUTE_enable pf (4 * src)
def Dev.routeLevel (d : Dev) (pf src : Nat) : Bool := d.on R.EVT_ROUTE_level pf (4 * src)

/-- Raise event `src` to one PF: edge routes become pending (R412); a level route sends when its source becomes active while it
is not in service (R413). -/
def Dev.raisePf (src : Nat) (fresh : Bool) (pf : Nat) (d : Dev) : Dev :=
  if !d.routeOn pf src then d
  else if d.routeLevel pf src then
    (if fresh && !(d.route pf src).inService then d.onRoute pf src (fun r => { r with pending := true }) else d)
  else d.onRoute pf src (fun r => { r with pending := true })

/-- Raise event `src`: to the control cores where the image says so, and to every PF's route. -/
def Dev.raise (d : Dev) (src : Nat) (fresh : Bool := true) : Dev :=
  let d := if hasBit (d.rd R.EVT_CORE_core 0 (4 * (src / 32))) (src % 32) then d.emit (.coreEvent src) else d
  Dev.each d.pfs (Dev.raisePf src fresh) d

/-- Set cause bit `b` of window `i`, and raise its event if the bit was clear and its mask bit is set (R493). -/
def Dev.cause (d : Dev) (c : Causes) (b : Nat) (i : Nat := 0) : Dev :=
  if d.on (c.bit b) i then d
  else
    let was := d.levelActive (c.event i b)
    let d := d.wr (c.bit b) 1 i
    if hasBit (d.rd c.mask i) b then d.raise (c.event i b) (!was) else d

/-- Write a mask: each bit that goes from 0 to 1 while its cause bit is set raises the event (R493). -/
def Dev.writeMask (d : Dev) (c : Causes) (i v : Nat) : Dev :=
  let old := d.rd c.mask i
  let fresh := (List.range c.count).filter (fun b => d.on (c.bit b) i && !hasBit old b && hasBit v b)
  let wasOn := fresh.map (fun b => (b, d.levelActive (c.event i b)))
  Dev.each wasOn (fun p d => d.raise (c.event i p.1) (!p.2)) (d.wr c.mask v i)

/-! ## The fault log (R444-R449) -/

/-- Word `w` of slot `s`. -/
def Dev.logWord (d : Dev) (s w : Nat) : Nat := d.rd R.FLT_RECORD_data 0 (32 * s + 4 * w)

/-- Write word `w` of slot `s`. -/
def Dev.setLogWord (s w v : Nat) (d : Dev) : Dev := d.wr R.FLT_RECORD_data v 0 (32 * s + 4 * w)

/-- Does slot `s` hold a record? -/
def Dev.logHeld (d : Dev) (s : Nat) : Bool := hasBit (d.logWord s 7) 0

/-- The held slots, rising. -/
def Dev.heldSlots (d : Dev) : List Nat := (List.range 256).filter d.logHeld

/-- What an error is recorded with (R445, R446). -/
structure Err where
  unit : Nat
  inst : Nat := 0
  severity : Nat
  code : Nat
  handling : Nat := 0
  site : Nat := 0xFF
  domain : Nat := 0xFF
  detail0 : Nat := 0
  detail1 : Nat := 0
  deriving DecidableEq, Repr

/-- severity, handling, code and count of a held record. -/
def Dev.recSeverity (d : Dev) (s : Nat) : Nat := bits (d.logWord s 3) 0 3
def Dev.recHandling (d : Dev) (s : Nat) : Nat := bits (d.logWord s 3) 4 3
def Dev.recCode (d : Dev) (s : Nat) : Nat := bits (d.logWord s 3) 8 8
def Dev.recCount (d : Dev) (s : Nat) : Nat := bits (d.logWord s 3) 16 16

/-- Word 0x0C of a record (R445). -/
def recWord3 (severity : Nat) (nested : Bool) (handling code count : Nat) : Nat :=
  severity + 8 * nested.toNat + 16 * handling + 256 * code + 65536 * count

/-- Rewrite the handling of slot `s`. -/
def Dev.setHandling (s h : Nat) (d : Dev) : Dev :=
  d.setLogWord s 3 (recWord3 (d.recSeverity s) (hasBit (d.logWord s 3) 3) h (d.recCode s) (d.recCount s))

/-- FLT_STATUS.held and FLT_OLDEST follow the slots (R456). -/
def Dev.refreshLog (d : Dev) : Dev :=
  let held := d.heldSlots
  let oldest := held.foldl (fun o s => match o with
    | none => some s
    | some t => if d.logWord s 0 < d.logWord t 0 then some s else some t) none
  ((d.wr R.FLT_STATUS_held held.length).wr R.FLT_OLDEST_slot (oldest.getD 0)).wr R.FLT_OLDEST_valid oldest.isSome.toNat

/-- The earlier record in handling of the same unit and site that an uncorrectable error nests under (R449). -/
def Dev.nestsUnder (d : Dev) (e : Err) : Option Nat :=
  if 1 ≤ e.severity && e.severity ≤ 3 then
    d.heldSlots.find? (fun s => d.recHandling s == 1 && d.logWord s 2 == e.unit + 65536 * e.inst && d.logWord s 4 % 256 == e.site)
  else none

/-- The lowest free slot a record of this severity may use (R444). -/
def Dev.freeLogSlot (d : Dev) (severity : Nat) : Option Nat :=
  (List.range (if 1 ≤ severity && severity ≤ 3 then 256 else 224)).find? (fun s => !d.logHeld s)

/-- The sequence of the next record: 1 upward, never 0 (R445). -/
def Dev.nextLogSeq (d : Dev) : Nat :=
  let last := d.rd R.FLT_LAST_SEQ_seq
  if last + 1 = 2 ^ 32 then 1 else last + 1

/-- Write a new record, or count it as dropped (R444, R445, R457). -/
def Dev.newRecord (e : Err) (d : Dev) : Dev :=
  let seq := d.nextLogSeq
  let d := d.wr R.FLT_LAST_SEQ_seq seq
  match d.freeLogSlot e.severity with
  | none =>
    let d := if e.severity = 0 ∨ e.severity = 4 then d.bump R.FLT_DROPPED_CORR_count else d.bump R.FLT_DROPPED_UNC_count
    (d.wr R.FLT_STATUS_overflow 1).cause fltCauses 3
  | some s =>
    let under := d.nestsUnder e
    let related := (under.map (fun t => d.logWord t 0 % 65536)).getD 0
    let d := d.setLogWord s 0 seq
    let d := d.setLogWord s 1 d.uptime
    let d := d.setLogWord s 2 (e.unit + 65536 * e.inst)
    let d := d.setLogWord s 3 (recWord3 e.severity under.isSome e.handling e.code 1)
    let d := d.setLogWord s 4 (e.site + 256 * e.domain + 65536 * related)
    let d := d.setLogWord s 5 e.detail0
    let d := d.setLogWord s 6 e.detail1
    let d := (d.setLogWord s 7 1).refreshLog
    let d := if e.severity = 0 then d.cause fltCauses 1 else if e.severity = 4 then d.cause fltCauses 7 else d.cause fltCauses 0
    if under.isSome then d.cause fltCauses 2 else d

/-- corr_threshold, 0 acting as 1. -/
def Dev.corrThreshold (d : Dev) : Nat := max 1 (d.rd R.FLT_CONFIG_corr_threshold)

/-- Record an error: a corrected error merges into its unit's held record inside corr_window_ms, any other error writes a new
record (R447). In fault stop nothing is recorded (R455). -/
def Dev.record (e : Err) (d : Dev) : Dev :=
  if d.phase = .faultStop then d
  else
    let into := if e.severity = 0 then
        d.heldSlots.find? (fun s => d.recSeverity s == 0 && d.recCode s == e.code && d.logWord s 2 == e.unit + 65536 * e.inst &&
          d.uptime - d.logWord s 1 < max 1 (d.rd R.FLT_CONFIG_corr_window_ms))
      else none
    match into with
    | some s =>
      let n := min (d.recCount s + 1) 0xFFFF
      let d := d.setLogWord s 3 (recWord3 0 false (d.recHandling s) e.code n)
      if n = d.corrThreshold then d.cause fltCauses 6 else d
    | none =>
      let room := (d.freeLogSlot e.severity).isSome
      let d := d.newRecord e
      if e.severity = 0 && room && d.corrThreshold = 1 then d.cause fltCauses 6 else d

/-- The slot of the record with this sequence. -/
def Dev.slotOfSeq (d : Dev) (seq : Nat) : Option Nat := d.heldSlots.find? (fun s => d.logWord s 0 == seq)

/-- Set the handling of the record with sequence `seq`, if it is still held. -/
def Dev.handleSeq (seq h : Nat) (d : Dev) : Dev :=
  match d.slotOfSeq seq with
  | some s => d.setHandling s h
  | none => d

/-! ## Channel bindings and power domains -/

/-- The binding of channel `c`, sender and receiver, where it is bound (R394, R395). -/
def Dev.binding (d : Dev) (c : Nat) : Option (Nat × Nat) :=
  (d.boot.image.bind (fun img => img.sections.findSome? (fun s => match s.body with
    | .bindings l => some l
    | _ => none))).bind (fun l => (l.find? (fun p => p.1 == c)).map Prod.snd)

/-- The channels bound to a MID as sender, and as receiver, rising. -/
def Dev.channelsOf (d : Dev) (mid : Nat) (asSender : Bool) : List Nat :=
  (List.range 18432).filter (fun c => match d.binding c with
    | some (t, r) => if asSender then t == mid else r == mid
    | none => false)

/-- The `k`-th channel bound to a Set's MID (R396). -/
def Dev.setChannel (d : Dev) (mid k : Nat) : Option Nat :=
  ((List.range 18432).filter (fun c => match d.binding c with
    | some (t, r) => t == mid || r == mid
    | none => false))[k]?

/-- A channel's state beside its block. -/
def Dev.chan (d : Dev) (c : Nat) : Chan := d.chans.getD c {}

/-- Change a channel's state. -/
def Dev.onChan (d : Dev) (c : Nat) (f : Chan → Chan) : Dev := { d with chans := d.chans.upd c {} f }

/-- Is power domain `n` on and ready (PWR_DOMAIN_ON)? -/
def Dev.domainOn (d : Dev) (n : Nat) : Bool :=
  if n < 32 then hasBit (d.rd R.PWR_DOMAIN_ON_LO_on) n else hasBit (d.rd R.PWR_DOMAIN_ON_HI_on) (n - 32)

/-- Switch the ready bit of power domain `n`. -/
def Dev.setDomain (d : Dev) (n : Nat) (up : Bool) : Dev :=
  if n < 32 then d.wr R.PWR_DOMAIN_ON_LO_on ((if up then setBit else clearBit) (d.rd R.PWR_DOMAIN_ON_LO_on) n)
  else d.wr R.PWR_DOMAIN_ON_HI_on ((if up then setBit else clearBit) (d.rd R.PWR_DOMAIN_ON_HI_on) (n - 32))

end Sys2Proof.Machine
end

