-- ==== Sys2Proof/Machine/Items.lean ====
section
/-!
DEFINITION. Items and the Ledger (R154-R172): finding and changing items, what a position holds, the failed-item log, and the
counters that the line side keeps per MAC window.
-/

namespace Sys2Proof.Machine

/-- A ring. -/
def Dev.ring? (d : Dev) (r : Nat) : Option Ring := d.rings.get? r

/-- Change a ring that exists. -/
def Dev.onRing (d : Dev) (r : Nat) (f : Ring → Ring) : Dev := { d with rings := d.rings.modify r f }

/-- The number of entries of a ring. -/
def Ring.size (g : Ring) : Nat := 2 ^ g.log2

/-- An item. -/
def Dev.item? (d : Dev) (i : Nat) : Option Item := d.items.get? i

/-- Change an item that exists. -/
def Dev.onItem (d : Dev) (i : Nat) (f : Item → Item) : Dev := { d with items := d.items.modify i f }

/-- Take up a new item; its number is the one given back. -/
def Dev.addItem (d : Dev) (it : Item) : Nat × Dev :=
  (d.nextItem, { d with items := d.items.set d.nextItem it, nextItem := d.nextItem + 1 })

/-- Does the Ledger hold an open entry for the item (R157)? A failed item's entry is closed. -/
def Item.inLedger (it : Item) : Bool :=
  it.failed.isNone &&
  match it.stage with
  | .crypto => false
  | .queued => false
  | _ => true

/-- Is the item accepted and not retired? -/
def Item.isAccepted (it : Item) : Bool := it.stage != .crypto

/-- The items whose Ledger entry stands at position `p`, rising by number. -/
def Dev.heldAt (d : Dev) (p : Nat) : List Nat := (d.items.filter (fun _ it => it.inLedger && it.position == p)).keys

/-- Open Ledger entries of position `p` (LGR_OCCUPANCY). -/
def Dev.occupancy (d : Dev) (p : Nat) : Nat := (d.heldAt p).length

/-- The counters of a MAC instance (R358). -/
def Dev.countMac (d : Dev) (m c : Nat) (n : Nat := 1) : Dev :=
  { d with macCounts := d.macCounts.upd (32 * m + c) 0 (fun v => (v + n) % 2 ^ 64) }

/-- The destination ring that an item has now: where it waits (R204), else decided in its pass, else provisional (R183, R185). -/
def Dev.itemRing (d : Dev) (it : Item) : Option Nat :=
  if it.stage = .waiting then it.heldAt
  else match it.dest with
  | some (.ring r) => some r
  | some (.mac _) => none
  | some .exception =>
    if d.on R.PPL_PORT_EXC_exception_valid 0 (16 * (it.source % 256)) then
      some (d.rd R.PPL_PORT_EXC_exception_ring 0 (16 * (it.source % 256))) else none
  | none =>
    if it.kind = 1 then
      (if it.verdict.toException || (it.verdict.ring.isNone && it.verdict.macInst.isNone) then
        (if d.on R.PPL_PORT_EXC_exception_valid 0 (16 * (it.source % 256)) then
          some (d.rd R.PPL_PORT_EXC_exception_ring 0 (16 * (it.source % 256))) else none)
      else it.verdict.ring)
    else if it.kind = 3 then it.verdict.ring
    else none

/-- Is the item's destination ring decided (dest_known, R158)? A line port is no ring, nor is an exception without its ring; the retire
stage decides for a pass that chose nothing. -/
def Dev.destKnown (d : Dev) (it : Item) : Bool :=
  match it.dest with
  | some (.ring _) => true
  | some (.mac _) => false
  | some .exception => (d.itemRing it).isSome
  | none => it.switched || ((it.stage == .retiring || it.stage == .waiting) && (d.itemRing it).isSome)

/-- An item that came from a ring: transmit, work or switched. -/
def Item.fromRing (it : Item) : Bool := it.kind != 1

/-- Push into the failed-item log (R168, R172). -/
def Dev.logFailure (f : Failure) (d : Dev) : Dev :=
  if d.failures.length < 32 then { d with failures := d.failures ++ [f] }
  else (d.bump R.LGR_FAIL_DROPPED_dropped).cause lgrCauses 3

/-- An index below `size` that is not in use, from where `Config.pickIndex` points (notes/assumptions/2.md). -/
def Dev.pickIndex {α : Type} (m : NMap α) (size : Nat) (d : Dev) : Nat × Dev :=
  let start := Config.pickIndex d.freeCtr % size
  let up := m.lowestFree start (m.size + 1)
  (if up < size then up else m.lowestFree 0 (m.size + 1), { d with freeCtr := d.freeCtr + 1 })

/-- Take an item out of the device. -/
def Dev.dropItem (i : Nat) (d : Dev) : Dev := { d with items := d.items.erase i }

/-- Does a reset of the function run, whose epilogue record counts what becomes of its items (R171)? -/
def Dev.epilogueOpen (d : Dev) (fn : Nat) : Bool := (d.fn fn).reset != .none || ((d.nvmes.get? fn).map Nvme.closing).getD false

/-- The epilogue record that a reset of the function is preparing counts something (R171). -/
def Dev.countEpilogue (fn : Nat) (f : Epilogue → Epilogue) (d : Dev) : Dev :=
  if d.epilogueOpen fn then { d with epilogues := d.epilogues.modify fn f } else d

/-- The item's bytes count no longer against its ring (R147, R168). -/
def Dev.releaseHeld (it : Item) (d : Dev) : Dev :=
  match it.heldAt with
  | some r => d.onRing r (fun g => { g with heldBytes := g.heldBytes - it.held })
  | none => d

/-- A frame leaves the waiting list of a ring. -/
def Dev.leaveWaiting (i : Nat) (it : Item) (d : Dev) : Dev :=
  match it.heldAt with
  | some r => (d.releaseHeld it).onRing r (fun g => { g with waiting := g.waiting.filter (· != i) })
  | none => d

/-- An item fails with a reason of R168: it is logged and counted; one from a ring or with a decided ring goes on to complete
with status 0x06, any other received frame is counted by its MAC instance and gone. A received frame that waits for buffers keeps its
place. -/
def Dev.failItem (i reason : Nat) (d : Dev) : Dev :=
  match d.item? i with
  | none => d
  | some it =>
    if it.failed.isSome || it.stage = .crypto then d
    else
      let onPort := !it.fromRing && !d.destKnown it
      let waits := !it.fromRing && it.stage == .waiting
      let src := if onPort then it.source else if it.fromRing then it.source else (d.itemRing it).getD it.source
      let d := (if waits then d.releaseHeld it else d.leaveWaiting i it).onItem i (fun it => { it with held := 0 })
      let d := (d.bump R.LGR_FAILED_failed).cause lgrCauses 2
      let d := d.logFailure { source := src, onPort := onPort, reason := reason, seq := it.seq, fn := it.fn }
      let d := d.countEpilogue it.fn (fun e => { e with failed := e.failed + 1 })
      if onPort then (d.countMac it.source 9).cause macCauses 6 |>.dropItem i
      else d.onItem i (fun it => { it with
        failed := some reason
        failedIn := d.epilogueOpen it.fn
        status := 6
        stage := if waits then .waiting else .retiring })

/-- A QMG_ERR_FIFO entry (R149, R152): 64 deep. -/
def Dev.pushRingError (r cause : Nat) (d : Dev) : Dev :=
  if d.ringErrors.length < 64 then { d with ringErrors := d.ringErrors ++ [r % 2 ^ 22 + 2 ^ 22 * cause + 2 ^ 31] }
  else (d.bump R.QMG_ERR_DROPPED_dropped).cause qmgCauses 1

end Sys2Proof.Machine
end

