-- ==== Sys2Proof/Machine/Operands.lean ====
section
/-!
DEFINITION. The operand forms of a microword (R245, R250), its legality (R245-R251), its check byte (R264), and the little-endian
and network-order readers of bytes.
-/

namespace Sys2Proof.Machine

/-! ## Bytes -/

/-- Byte `n` of a list, 0 beyond its end. -/
def byteAt (l : List Byte) (n : Nat) : Nat := (l.getD n 0).toNat

/-- The little-endian number of `w` bytes from offset `o` (R4). -/
def leAt (l : List Byte) (o w : Nat) : Nat := (List.range w).foldr (fun k acc => byteAt l (o + k) + 256 * acc) 0

/-- The big-endian number of `w` bytes from offset `o`: network order. -/
def beAt (l : List Byte) (o w : Nat) : Nat := (List.range w).foldl (fun acc k => 256 * acc + byteAt l (o + k)) 0

/-- `w` little-endian bytes of `v`. -/
def leBytes (v w : Nat) : List Byte := (List.range w).map (fun k => BitVec.ofNat 8 (v / 256 ^ k))

/-- `w` big-endian bytes of `v`. -/
def beBytes (v w : Nat) : List Byte := (leBytes v w).reverse

/-- The bytes from `o` on, `n` of them at most. -/
def sliceBytes (l : List Byte) (o n : Nat) : List Byte := (l.drop o).take n

/-- Put bytes over those from `o` on. -/
def putBytes (l : List Byte) (o : Nat) (b : List Byte) : List Byte := l.take o ++ b ++ l.drop (o + b.length)

/-- Insert bytes before offset `o`. -/
def insertBytes (l : List Byte) (o : Nat) (b : List Byte) : List Byte := l.take o ++ b ++ l.drop o

/-- Remove `n` bytes from offset `o` on. -/
def removeBytes (l : List Byte) (o n : Nat) : List Byte := l.take o ++ l.drop (o + n)

/-- One bit of CRC-32C, reflected (R45). -/
def crcBit (c : BitVec 32) : BitVec 32 := if c.getLsbD 0 then (c >>> 1) ^^^ 0x82F63B78#32 else c >>> 1

/-- One byte of CRC-32C. -/
def crcByte (c : BitVec 32) (b : Byte) : BitVec 32 :=
  let c := c ^^^ b.setWidth 32
  crcBit (crcBit (crcBit (crcBit (crcBit (crcBit (crcBit (crcBit c)))))))

/-- CRC-32C with initial value `init`, final XOR 0xFFFFFFFF (R45, R179). -/
def crc32cFrom (init : Nat) (l : List Byte) : Nat := (l.foldl crcByte (BitVec.ofNat 32 init) ^^^ 0xFFFFFFFF#32).toNat

/-- CRC-32C of R45. -/
def crc32c (l : List Byte) : Nat := crc32cFrom 0xFFFFFFFF l

/-! ## Microword fields (R245, R250) -/

def Microword.field (w : Microword) (lsb n : Nat) : Nat := bits w.toNat lsb n
def mwNext (w : Microword) : Nat := Microword.field w 116 4
def mwYield (w : Microword) : Bool := Microword.field w 115 1 == 1
def mwCond (w : Microword) : Nat := Microword.field w 105 7
def mwInvert (w : Microword) : Bool := Microword.field w 104 1 == 1
def mwLimitSel (w : Microword) : Nat := Microword.field w 102 2
def mwImm (w : Microword) : Nat := Microword.field w 64 32
def mwTarget (w : Microword) : Nat := mwImm w % 16384
def mwChannel (w : Microword) : Nat := bits (mwImm w) 16 6
def mwClass (w : Microword) : Nat := Microword.field w 59 5
def mwFunc (w : Microword) : Nat := Microword.field w 54 5
def mwDst (w : Microword) : Nat := Microword.field w 50 4
def mwSrcA (w : Microword) : Nat := Microword.field w 46 4
def mwSrcB (w : Microword) : Nat := Microword.field w 42 4
def mwBImm (w : Microword) : Bool := Microword.field w 41 1 == 1
def mwExt (w : Microword) : Nat := Microword.field w 0 41

/-- Functions of a datapath class (R250). -/
def classFunctions : Nat → Nat
  | 0 => 1
  | 1 => 8
  | 2 => 5
  | 3 => 4
  | 4 => 5
  | 5 => 12
  | 6 => 4
  | 7 => 2
  | 8 => 3
  | _ => 0

/-- Is a condition number defined (R247)? -/
def condDefined (c : Nat) : Bool := c < 0x22 || (0x40 ≤ c && c ≤ 0x46)

/-- Class F conditions (R247). -/
def condF (c : Nat) : Bool := c < 0x10

/-- Class I conditions (R247). -/
def condI (c : Nat) : Bool := 0x10 ≤ c && c < 0x22

/-- Is the microword legal in itself (R245, R247, R248, R250, R251)? -/
def mwLegal (w : Microword) : Bool :=
  Microword.field w 112 3 == 0 && Microword.field w 96 6 == 0 && mwNext w ≤ 0xA && mwFunc w < classFunctions (mwClass w) &&
  (if mwNext w = 8 then mwImm w % 16 == 0 && mwCond w % 8 == 0 && !mwInvert w else condDefined (mwCond w)) &&
  (mwNext w != 7 || !condF (mwCond w) || (mwCond w == 0 && mwInvert w))

/-- The register file's value of `n`. -/
def Thread.reg (t : Thread) (n : Nat) : Word64 := t.regs.getD n 0

/-- Write a general register. -/
def Thread.setReg (t : Thread) (n : Nat) (v : Word64) : Thread := { t with regs := t.regs.set n v }

/-- srcA and srcB; b_imm takes srcB from imm, zero-extended. -/
def opA (w : Microword) (t : Thread) : Word64 := t.reg (mwSrcA w)
def opB (w : Microword) (t : Thread) : Word64 := if mwBImm w then BitVec.ofNat 64 (mwImm w) else t.reg (mwSrcB w)

/-- Offset and width of class 2 (extension [5:0] and [11:6], notes/assumptions/20.md). -/
def mwOffset (w : Microword) : Nat := bits (mwExt w) 0 6
def mwWidth (w : Microword) : Nat := bits (mwExt w) 6 6

/-- The byte address of a class 3 or class 4 access: srcA plus extension [20:0]. -/
def mwAddress (w : Microword) (t : Thread) : Nat := ((opA w t).toNat + bits (mwExt w) 0 21) % 2 ^ 21

/-! ## The check byte (R264) -/

/-- Is `n` a power of two? -/
def isPow2 (n : Nat) : Bool := (List.range 8).any (fun k => n == 2 ^ k)

/-- P(0), P(1), ..., P(119): the integers from 3 upward that are no powers of two. -/
def checkPositions : List Nat := (List.range 128).filter (fun n => 3 ≤ n && !isPow2 n)

/-- The parity of a list of bits. -/
def parity (l : List Bool) : Bool := l.foldl xor false

/-- check[6:0] as the data bits [119:0] give it. -/
def checkLow (w : Microword) : Nat :=
  ((List.range 7).map (fun j =>
    if parity (checkPositions.zipIdx.map (fun p => hasBit p.1 j && w.getLsbD p.2)) then 2 ^ j else 0)).sum

/-- The syndrome of check[6:0], and whether the overall parity is wrong. -/
def syndrome (w : Microword) : Nat × Bool :=
  (Nat.xor (checkLow w) (Microword.field w 120 7), parity ((List.range 128).map (fun i => w.getLsbD i)))

/-- The check byte is right. -/
def checkOk (w : Microword) : Bool := syndrome w == (0, false)

/-- The bit that a single error with syndrome `n` turned over: check[7], another check bit, or a data bit. -/
def flippedBit (n : Nat) : Nat :=
  if n = 0 then 127 else if isPow2 n then 120 + Nat.log2 n else (checkPositions.findIdx? (· == n)).getD 0

/-- What a fetch makes of a stored microword (R264): the word and whether it was corrected; none where the error is uncorrectable. -/
def fetchWord (w : Microword) : Option (Microword × Bool) :=
  match syndrome w with
  | (0, false) => some (w, false)
  | (n, true) => some (w ^^^ (1#128 <<< flippedBit n), true)
  | _ => none

/-- GiB of the exact-match region and of the deep buffer, as the image sizes them (R27). -/
def imgSizes (img : Image) : Nat × Nat := (img.sections.findSome? (fun s => match s.body with
  | .hbmSizes a b => some (a, b)
  | _ => none)).getD (0, 0)

end Sys2Proof.Machine
end

