-- ==== Sys2Proof/Machine/Parser.lean ====
section
/-!
DEFINITION. The parser (R175-R178, R194, R196-R198), checksums (R177, R190), the parse record's words and the flow hash (R179).
-/

namespace Sys2Proof.Machine

/-! ## Checksums -/

/-- The sum of the 16-bit words of a byte string in network order, an odd last byte padded with zero. -/
def sum16 : List Byte → Nat
  | [] => 0
  | [a] => 256 * a.toNat
  | a :: b :: r => 256 * a.toNat + b.toNat + sum16 r

/-- One's-complement folding of a sum. -/
def fold16 (s : Nat) : Nat := if s = 0 then 0 else (s - 1) % 65535 + 1

/-- The checksum field that makes a sum good. -/
def csumOf (s : Nat) : Nat := 65535 - fold16 s

/-- The pseudo-header of an L4 segment of `n` bytes. -/
def Ip.pseudo (i : Ip) (n : Nat) : List Byte :=
  i.src ++ i.dst ++ (if i.v4 then beBytes i.proto 2 ++ beBytes n 2 else beBytes n 4 ++ beBytes i.proto 4)

/-- The sum over pseudo-header and segment. -/
def Ip.l4Sum (i : Ip) (f : Frame) : Nat :=
  let seg := sliceBytes f i.offL4 (i.endL4 - i.offL4)
  sum16 (i.pseudo seg.length ++ seg)

/-! ## IP and L4 (R175-R177) -/

/-- The bytes of a frame that the parser examines. -/
def parseWindow (f : Frame) : Nat := min f.length 256

/-- What an IP layer reports. `ip` is none where no IP header is reported; csum is the nibble of R143. -/
structure Layer where
  ip : Option Ip := none
  payload : Nat
  truncated : Bool := false
  lenBad : Bool := false
  csum : Nat := 0
  udpZero6 : Bool := false

/-- How far a walk over IPv6 extension headers has come: the next header and its offset, whether the walk stopped, and whether at the
window's edge, the fragment flags, and the protocol that a fragment header names. -/
structure Ext6 where
  proto : Nat
  pos : Nat
  stopped : Bool := false
  edge : Bool := false
  first : Bool := false
  later : Bool := false
  frag : Option Nat := none

/-- The walk over IPv6 extension headers, at most four. What follows the header of a later fragment is no header (R176). -/
def ext6 (f : Frame) : Nat → Ext6 → Ext6
  | n, e =>
    if e.stopped then e
    else if e.proto = 0 ∨ e.proto = 43 ∨ e.proto = 44 ∨ e.proto = 60 then
      match n with
      | 0 => { e with stopped := true }
      | n + 1 =>
        let size := if e.proto = 44 then 8 else 8 * (byteAt f (e.pos + 1) + 1)
        let next := byteAt f e.pos
        if parseWindow f < e.pos + 8 ∨ parseWindow f < e.pos + size then { e with stopped := true, edge := true }
        else if e.proto = 44 then
          let w := beAt f (e.pos + 2) 2
          ext6 f n { e with
            proto := next
            pos := e.pos + size
            stopped := w / 8 != 0
            first := e.first || (w / 8 == 0 && w % 2 == 1)
            later := w / 8 != 0
            frag := if w / 8 != 0 || w % 2 == 1 then some (e.frag.getD next) else e.frag }
        else ext6 f n { e with proto := next, pos := e.pos + size }
    else e

/-- Code of a recognised L4 protocol in l4 (R178), 7 for any other. -/
def l4Code (proto : Nat) : Nat :=
  if proto = 6 then 1 else if proto = 17 then 2 else if proto = 1 ∨ proto = 58 then 3
  else if proto = 50 then 4 else if proto = 51 then 5 else if proto = 47 then 6 else 7

/-- Length of an L4 header at `pos`; 257 where its own length lies beyond the window. -/
def l4Len (f : Frame) (proto pos : Nat) : Nat :=
  let w := parseWindow f
  if proto = 6 then (if pos + 13 ≤ w then 4 * (byteAt f (pos + 12) / 16) else 257)
  else if proto = 51 then (if pos + 2 ≤ w then 4 * (byteAt f (pos + 1) + 2) else 257)
  else if proto = 47 then
    (if pos < w then 4 + 4 * (bit (byteAt f pos) 7 + bit (byteAt f pos) 5 + bit (byteAt f pos) 4) else 257)
  else 8

/-- The L4 header of an IP header: `stopped` says that extension headers ended the parse. A TCP header below 20 bytes, and GRE of version
1 or with a routing bit (R198), are not recognised. -/
def parseL4 (f : Frame) (i : Ip) (pos : Nat) (stopped : Bool) (l : Layer) : Layer :=
  let i := { i with payload := pos }
  let l := { l with ip := some i, payload := pos }
  let code := l4Code i.proto
  if stopped || i.fragLater then l
  else if code = 7 then { l with ip := some { i with l4 := 7 } }
  else
    let n := l4Len f i.proto pos
    if parseWindow f < pos + n then { l with truncated := true }
    else if (i.proto = 6 ∧ n < 20) ∨ (i.proto = 47 ∧ (byteAt f (pos + 1) % 8 ≠ 0 ∨ hasBit (byteAt f pos) 6 = true)) then
      { l with ip := some { i with l4 := 7 } }
    else
      let i := { i with
        l4 := code
        offL4 := pos
        payload := pos + n
        ports := if code ≤ 2 then some (beAt f pos 2, beAt f (pos + 2) 2) else none }
      let zeroUdp := code == 2 && beAt f (pos + 6) 2 == 0
      let checked := code ≤ 2 && !i.fragFirst && !(zeroUdp && i.v4)
      { l with
        ip := some i
        payload := pos + n
        csum := l.csum + (if checked then (if fold16 (i.l4Sum f) = 65535 then 2 else 8) else 0)
        udpZero6 := zeroUdp && !i.v4 }

/-- An IPv4 header at `off`. -/
def parseV4 (f : Frame) (off : Nat) : Layer :=
  let size := max 20 (4 * (byteAt f off % 16))
  if parseWindow f < off + size then
    { payload := off, truncated := off + size ≤ f.length, lenBad := f.length < off + size }
  else if byteAt f off / 16 ≠ 4 ∨ byteAt f off % 16 < 5 then { payload := off }
  else
    let total := beAt f (off + 2) 2
    let bad := f.length < off + total || total < size
    let fo := beAt f (off + 6) 2
    let i : Ip := {
      v4 := true
      src := sliceBytes f (off + 12) 4
      dst := sliceBytes f (off + 16) 4
      proto := byteAt f (off + 9)
      hashProto := byteAt f (off + 9)
      fragFirst := fo % 8192 == 0 && hasBit fo 13
      fragLater := fo % 8192 != 0
      dscp := byteAt f (off + 1) / 4
      ecn := byteAt f (off + 1) % 4
      off := off
      endL4 := if bad then f.length else off + total }
    parseL4 f i (off + size) false
      { payload := off + size, lenBad := bad, csum := if fold16 (sum16 (sliceBytes f off size)) = 65535 then 1 else 4 }

/-- An IPv6 header at `off`. -/
def parseV6 (f : Frame) (off : Nat) : Layer :=
  if parseWindow f < off + 40 then { payload := off, truncated := off + 40 ≤ f.length, lenBad := f.length < off + 40 }
  else if byteAt f off / 16 ≠ 6 then { payload := off }
  else
    let stop := off + 40 + beAt f (off + 4) 2
    let e := ext6 f 4 { proto := byteAt f (off + 6), pos := off + 40 }
    let tos := beAt f off 2 / 16 % 256
    let i : Ip := {
      v4 := false
      src := sliceBytes f (off + 8) 16
      dst := sliceBytes f (off + 24) 16
      proto := e.proto
      hashProto := e.frag.getD e.proto
      fragFirst := e.first && !e.later
      fragLater := e.later
      dscp := tos / 4
      ecn := tos % 4
      off := off
      endL4 := min stop f.length }
    parseL4 f i e.pos e.stopped { payload := e.pos, truncated := e.edge, lenBad := f.length < stop }

/-- The IP layer that an EtherType names. -/
def parseIp (f : Frame) (etherType off : Nat) : Layer := if etherType = 0x0800 then parseV4 f off else parseV6 f off

/-! ## L2 and tunnels -/

/-- The settings that steer the parser: tpid_a, tpid_b, the VXLAN and the Geneve port. -/
structure ParseCfg where
  tpidA : Nat
  tpidB : Nat
  vxlan : Nat
  geneve : Nat

/-- Is it a recognised TPID (R194)? -/
def ParseCfg.isTpid (c : ParseCfg) (v : Nat) : Bool := v == 0x8100 || v == 0x88A8 || v == c.tpidA || v == c.tpidB

/-- The tags from `off` (an EtherType's place): the TCIs, the place of the EtherType after them, and whether the parse stopped
inside them at the window's edge. -/
def parseTags (c : ParseCfg) (f : Frame) : Nat → Nat → List Nat × Nat × Bool
  | 0, off => ([], off, false)
  | n + 1, off =>
    if c.isTpid (beAt f off 2) then
      (if parseWindow f < off + 6 then ([], off, true)
       else
        let r := parseTags c f n (off + 4)
        (beAt f (off + 2) 2 :: r.1, r.2))
    else ([], off, false)

/-- The tunnel that starts after an outer L4 header: code, the tunnel header's offset, the offset and EtherType of what it
carries; with key, Geneve flags and whether it may be terminated (R196-R198). -/
def parseTunnel (c : ParseCfg) (f : Frame) (i : Ip) (p : Parse) : Parse × Option (Nat × Nat) :=
  match i.l4, i.ports with
  | 2, some (_, dport) =>
    let x := i.payload
    if dport = 4791 ∨ (dport ≠ c.vxlan ∧ dport ≠ c.geneve) then (p, none)
    else if parseWindow f < x + 8 then ({ p with truncated := true }, none)
    else if dport = c.vxlan then
      ({ p with tunnel := 1, offTunnel := x, tunnelKey := beAt f (x + 4) 3, tunnelOk := hasBit (byteAt f x) 3 }, some (x + 8, 0x6558))
    else
      ({ p with
          tunnel := 2
          offTunnel := x
          tunnelKey := beAt f (x + 4) 3
          tunnelOk := byteAt f x / 64 == 0
          geneveOam := hasBit (byteAt f (x + 1)) 7
          geneveCritical := hasBit (byteAt f (x + 1)) 6 }, some (x + 8 + 4 * (byteAt f x % 64), beAt f (x + 2) 2))
  | 6, _ =>
    let g := i.offL4
    let b := byteAt f g
    let kind := beAt f (g + 2) 2
    if byteAt f (g + 1) % 8 ≠ 0 ∨ hasBit b 6 ∨ (kind ≠ 0x6558 ∧ kind ≠ 0x0800 ∧ kind ≠ 0x86DD) then (p, none)
    else
      let bad := hasBit b 7 && fold16 (sum16 (sliceBytes f g (i.endL4 - g))) != 65535
      ({ p with
          tunnel := if kind = 0x6558 then 3 else 4
          offTunnel := g
          tunnelKey := if hasBit b 5 then beAt f (g + 4 + 4 * bit b 7) 4 else 0
          tunnelOk := true
          outerBad := p.outerBad || bad }, some (i.payload, kind))
  | _, _ => (p, none)

/-- The inner headers, from `pos` on, of the named EtherType (0x6558: an Ethernet header first). -/
def parseInner (c : ParseCfg) (f : Frame) (pos etherType : Nat) (p : Parse) : Parse :=
  let w := parseWindow f
  if w < pos ∨ (etherType = 0x6558 ∧ w < pos + 14) then { p with truncated := true, offPayload := min pos w }
  else
    let (p, et, at_) := if etherType = 0x6558 then
        let (tags, off, edge) := parseTags c f 1 (pos + 12)
        ({ p with
            offInnerL2 := pos
            truncated := p.truncated || edge
            secondTci := if p.vlanCount < 2 then tags.headD p.secondTci else p.secondTci }, beAt f off 2, if c.isTpid (beAt f off 2) then off else off + 2)
      else (p, etherType, pos)
    let p := { p with innerEtherType := et, offPayload := at_ }
    if et = 0x0800 ∨ et = 0x86DD then
      let l := parseIp f et at_
      let p := { p with truncated := p.truncated || l.truncated, lenBad := p.lenBad || l.lenBad, offPayload := l.payload }
      match l.ip with
      | none => p
      | some i =>
        { p with
          innerIp := some i
          innerL3 := if i.v4 then 1 else 2
          innerL4 := if i.l4 = 1 then 1 else if i.l4 = 2 then 2 else 0
          offInnerL3 := i.off
          offInnerL4 := i.offL4
          innerCsum := l.csum
          innerBad := decide (4 ≤ l.csum) }
    else p

/-- The outer IP layer and what it carries. -/
def parseOuter (c : ParseCfg) (f : Frame) (etherType off : Nat) (p : Parse) : Parse :=
  let l := parseIp f etherType off
  let p := { p with truncated := p.truncated || l.truncated, lenBad := l.lenBad, offPayload := l.payload, l3 := 7 }
  match l.ip with
  | none => p
  | some i =>
    let udp := (i.ports.map Prod.snd).getD 0
    let p := { p with
      ip := some i
      l3 := if i.v4 then 1 else 2
      offL3 := i.off
      l4 := i.l4
      offL4 := i.offL4
      fragFirst := i.fragFirst
      fragLater := i.fragLater
      csum := l.csum
      outerBad := decide (4 ≤ l.csum)
      udpZero6 := l.udpZero6
      roce := i.l4 == 2 && udp == 4791
      ptp := i.l4 == 2 && (udp == 319 || udp == 320) }
    if i.fragFirst || i.fragLater || i.offL4 == 0 then p
    else
      match parseTunnel c f i p with
      | (p, none) => p
      | (p, some (pos, et)) => parseInner c f pos et { p with innerAt := pos, innerType := et }

/-- The parser: everything of the record that the frame's bytes give. -/
def parse (c : ParseCfg) (f : Frame) : Parse :=
  let p : Parse := { len := f.length }
  let p :=
    if parseWindow f < 14 then { p with truncated := true }
    else
      let (tags, at_, edge) := parseTags c f 2 12
      let et := beAt f at_ 2
      let p := { p with
        vlanCount := tags.length
        outerTci := tags.headD 0
        secondTci := tags.getD 1 0
        tc := tags.headD 0 / 8192
        etherType := et
        truncated := edge
        offPayload := at_ + 2 }
      if c.isTpid et then { p with l3 := 7, offPayload := at_ }
      else if et = 0x0806 then { p with l3 := 3 }
      else if et = 0x88F7 then { p with l3 := 4, ptp := true }
      else if et = 0x88E5 then { p with l3 := 5 }
      else if et = 0x88CC then { p with l3 := 6 }
      else if et = 0x0800 ∨ et = 0x86DD then parseOuter c f et (at_ + 2) p
      else { p with l3 := 7 }
  { p with parseEnd := (if p.truncated then parseWindow f else min p.offPayload (parseWindow f)) % 256 }

/-! ## The record (R178) -/

/-- The eight words of the parse record. -/
def Parse.words (p : Parse) : List Nat :=
  [p.offL3 % 256 + 256 * (p.offL4 % 256) + 65536 * (p.offTunnel % 256) + 2 ^ 24 * (p.offInnerL2 % 256),
   p.offInnerL3 % 256 + 256 * (p.offInnerL4 % 256) + 65536 * (p.offPayload % 256) + 2 ^ 24 * p.parseEnd,
   p.l3 + 16 * p.l4 + 256 * p.tunnel + 2 ^ 11 * p.terminated.toNat + 2 ^ 12 * p.vlanCount + 2 ^ 14 * p.fragFirst.toNat +
     2 ^ 15 * p.fragLater.toNat + 2 ^ 16 * p.innerL3 + 2 ^ 18 * p.innerL4 + 2 ^ 20 * p.truncated.toNat + 2 ^ 21 * p.outerBad.toNat +
     2 ^ 22 * p.innerBad.toNat + 2 ^ 23 * p.lenBad.toNat + 2 ^ 24 * p.roce.toNat + 2 ^ 25 * p.ptp.toNat +
     2 ^ 26 * p.geneveCritical.toNat + 2 ^ 27 * p.geneveOam.toNat + 2 ^ 28 * (p.tc % 16),
   p.outerTci + 65536 * p.secondTci, p.hash, p.vnid % 2 ^ 24, p.source + 2 ^ 22 * p.fromRing.toNat,
   p.len % 32768 + 65536 * p.action]

/-! ## The flow hash (R179) -/

/-- The byte string that is hashed over one set of headers; the protocol of an IPv6 fragment is the one that its fragment header names, so
that all fragments hash alike (R176, R179; DEDUCED, notes/assumptions/77.md). -/
def hashString (f : Frame) (symmetric l4Ports : Bool) (ip : Option Ip) (l2 etherType : Nat) : List Byte :=
  match ip with
  | none => sliceBytes f l2 12 ++ beBytes etherType 2
  | some i =>
    let swap := symmetric && beAt i.dst 0 i.dst.length < beAt i.src 0 i.src.length
    let ports := match i.ports with
      | some (s, t) =>
        if l4Ports && !i.fragFirst && !i.fragLater then (if swap then beBytes t 2 ++ beBytes s 2 else beBytes s 2 ++ beBytes t 2) else []
      | none => []
    (if swap then i.dst ++ i.src else i.src ++ i.dst) ++ [BitVec.ofNat 8 i.hashProto] ++ ports

/-- The flow hash under a seed. -/
def flowHash (p : Parse) (f : Frame) (seed : Nat) (symmetric l4Ports vni : Bool) : Nat :=
  let s := if p.hashInner then hashString f symmetric l4Ports p.innerIp p.offInnerL2 p.innerEtherType
    else hashString f symmetric l4Ports p.ip 0 p.etherType
  crc32cFrom seed (s ++ if vni then beBytes p.vnid 3 else [])

/-! ## Inserting checksums (R190 order 2) -/

/-- Put a header's checksums into a frame: the IPv4 header's and, where the frame is no fragment, TCP's or UDP's. -/
def putChecksums (doIp doL4 : Bool) (i : Ip) (f : Frame) : Frame :=
  let f := if doIp && i.v4 then
      let size := 4 * (byteAt f i.off % 16)
      let f := putBytes f (i.off + 10) [0, 0]
      putBytes f (i.off + 10) (beBytes (csumOf (sum16 (sliceBytes f i.off size))) 2)
    else f
  if doL4 && i.ports.isSome && !i.fragFirst && !i.fragLater && i.offL4 != 0 then
    let at_ := i.offL4 + (if i.l4 = 1 then 16 else 6)
    let f := putBytes f at_ [0, 0]
    let v := csumOf (i.l4Sum f)
    putBytes f at_ (beBytes (if i.l4 = 2 ∧ v = 0 then 65535 else v) 2)
  else f

end Sys2Proof.Machine
end

