-- ==== Sys2Proof/Machine/Card.lean ====
section
/-!
DEFINITION. The Dance Card (R36-R52): its entries as the state of the units gives them, its words, its check, and how a change
moves the generation and raises event 373.
-/

namespace Sys2Proof.Machine

/-! ## Lanes and ports (R342, R343) -/

/-- Lanes of a port by speed code. -/
def speedLanes : Nat → Nat
  | 0 => 0
  | 5 => 2
  | 6 => 4
  | 7 => 8
  | _ => 1

/-- Raw rate of a port by speed code, in Gb/s. -/
def speedGbps : Nat → Nat
  | 1 => 25
  | 2 => 50
  | 3 => 100
  | 4 => 200
  | 5 => 400
  | 6 => 800
  | 7 => 1600
  | _ => 0

/-- Speed code of the port whose first lane is `p`; 0 where no port starts. -/
def Dev.portSpeed (d : Dev) (p : Nat) : Nat := d.rd R.MAC_PORT_CFG_speed 0 (16 * p)

/-- The formed ports, rising. -/
def Dev.ports (d : Dev) : List Nat := (List.range 32).filter (fun p => d.portSpeed p != 0)

/-- The lanes of port `p`. -/
def Dev.lanesOf (d : Dev) (p : Nat) : List Nat := (List.range (speedLanes (d.portSpeed p))).map (p + ·)

/-- The port that lane `l` belongs to. -/
def Dev.portOfLane (d : Dev) (l : Nat) : Option Nat := d.ports.find? (fun p => p ≤ l && l < p + speedLanes (d.portSpeed p))

/-! ## Entries (R38, R39, R41, R494) -/

/-- Unit type and instance of PF card entry `e`. -/
def cardUnit (e : Nat) : Nat × Nat :=
  if e < 3 then (e + 1, 0)
  else if e < 19 then (0x10, e - 3)
  else if e < 21 then (0x20 + (e - 19), 0)
  else if e < 23 then (0x30, e - 21)
  else if e = 23 then (0x31, 0)
  else if e < 28 then (0x40, e - 24)
  else if e < 62 then (0x41, e - 28)
  else if e < 110 then (0x50, e - 62)
  else if e = 110 then (0x51, 0)
  else if e = 111 then (0x60, 0)
  else if e < 176 then (0x61, e - 112)
  else if e < 208 then (0x70, e - 176)
  else if e = 208 then (0x71, 0)
  else if e = 209 then (0x80, 0)
  else if e < 213 then (0x90 + (e - 210), 0)
  else if e = 213 then (0xA0, 0)
  else if e < 222 then (0xB0, e - 214)
  else (0xB1, e - 222)

/-- The PF card entry of a unit. -/
def cardIndex (unit inst : Nat) : Option Nat := (List.range 224).find? (fun e => cardUnit e == (unit, inst))

/-- First event and event count of entry `e`. -/
def cardEvents (e : Nat) : Nat × Nat :=
  match cardUnit e with
  | (0x01, _) => (373, 1)
  | (0x02, _) => (366, 7)
  | (0x03, _) => (334, 16)
  | (0x10, n) => (78 + n, 1)
  | (0x20, _) => (94, 16)
  | (0x21, _) => (110, 8)
  | (0x31, _) => (118, 16)
  | (0x40, n) => (34 + n, 1)
  | (0x41, n) => (n, 1)
  | (0x50, n) => (134 + n, 1)
  | (0x51, _) => (182, 8)
  | (0x61, n) => (190 + n, 1)
  | (0x70, n) => (38 + n, 1)
  | (0x71, _) => (70, 8)
  | (0x80, _) => (254, 32)
  | (0x90, _) => (302, 32)
  | (0x91, _) => (374, 10)
  | (0x92, _) => (350, 16)
  | (0xA0, _) => (286, 16)
  | _ => (0xFFFF, 0)

/-- Is the unit on the part? -/
def Dev.unitPresent (d : Dev) (unit inst : Nat) : Bool :=
  if unit = 0x10 then inst < d.die.variant.links
  else if unit = 0x40 then 8 * inst < d.die.variant.sets
  else if unit = 0x41 then d.hasSet inst
  else if unit = 0x50 then d.hasCry inst
  else if unit = 0x51 then d.die.variant.hasSto
  else if unit = 0x70 then inst < d.die.variant.lanes
  else if unit = 0xA0 then d.die.variant.hasStp
  else if unit = 0xB1 then inst == 0 || decide (d.die.variant = .s9640)
  else true

/-- The flag values of R41, as numbers: present, in_service, reserve, optional, sit_out from bit 0 on. -/
def flagWord (present service reserve optional sitOut : Bool) : Nat :=
  present.toNat + 2 * service.toNat + 4 * reserve.toNat + 8 * optional.toNat + 16 * sitOut.toNat

/-- Flags of a position. One whose planned sit-out has not ended is in service still; a thermal one is sat out from its start
(R105, R165). -/
def slotFlags (reserve : Bool) (s : Slot) : Nat :=
  match (if s.phase = .grace ∧ s.thermal = false then PosPhase.inService else s.phase) with
  | .inService => if reserve then flagWord true false true false false else flagWord true true false false false
  | _ => flagWord true false reserve false true

/-- Flags of a unit (R41): links, lanes and the Stream Port are what an image may leave unused. The Stream Port is in service where the
image pairs it (R458), as a formed link is, whatever its state (DEDUCED, notes/assumptions/56.md). -/
def Dev.unitFlags (d : Dev) (unit inst : Nat) : Nat :=
  if !d.unitPresent unit inst then flagWord false false (((unit == 0x41) && 32 ≤ inst) || ((unit == 0x50) && 46 ≤ inst)) false false
  else if unit = 0x41 then slotFlags (32 ≤ inst) (d.setAt inst)
  else if unit = 0x50 then slotFlags (46 ≤ inst) (d.cryAt inst)
  else if unit = 0x10 then flagWord true (d.formed inst) false true false
  else if unit = 0x70 then flagWord true (d.portOfLane inst).isSome false true false
  else if unit = 0xA0 then flagWord true (d.on R.STP_CTRL_pair_enable) false true false
  else if unit = 0xB0 then
    (if (d.cores.getD inst {}).out then flagWord true false false false true else flagWord true true false false false)
  else flagWord true true false false false

/-- power_domain of a unit (R494). -/
def Dev.unitDomain (d : Dev) (unit inst : Nat) : Nat :=
  if unit = 0x41 then (d.setAt inst).site
  else if unit = 0x50 then (if (d.cryAt inst).site < 24 then 43 else 44)
  else if unit = 0xB1 then 34 + inst
  else if unit = 0x70 then 36 + inst / 8
  else if unit = 0x10 then (if inst < 8 then 40 else 41)
  else if unit = 0xA0 then 42
  else if unit = 0x51 then 45
  else if unit = 0x31 then 46
  else if unit = 0x20 then 47
  else if unit = 0x71 ∨ unit = 0x80 ∨ unit = 0x02 then 0xFE
  else if unit = 0x03 ∨ unit = 0x92 then 0xFF
  else 0xFD

/-- unit_version: major 1, but for a control core the running firmware's version (R40, R73). -/
def Dev.unitVersion (d : Dev) (e : Nat) : Nat :=
  if (cardUnit e).1 = 0xB0 then (d.cores.getD (cardUnit e).2 {}).version % 65536 else 256 + Config.unitMinor e % 256

/-- parent of an entry: a Set's Figure; what no rule names is `Config.cardParent`, an index of the card or 0xFFFF. -/
def cardParent (e : Nat) : Nat :=
  if 28 ≤ e ∧ e < 60 then 24 + (e - 28) / 8 else if Config.cardParent e < 224 then Config.cardParent e else 0xFFFF

/-- May PF `pf` reach the window of entry `e` (R67, R116)? -/
def Dev.reaches (d : Dev) (pf e : Nat) : Bool := ((d.pf? pf).map (fun p => hasBit p.reach e)).getD false

/-- window_offset of entry `e`: a free place, from which the window ends within 1 GiB, the largest BAR0 there is (R117). -/
def windowOffset (e : Nat) : Nat :=
  if e = 0 then 0
  else if e = 210 then 4096 * (Config.windowPage e % (2 ^ 18 - 0x48F))
  else 4096 * (Config.windowPage e % 2 ^ 18)

/-- Bytes of the window of entry `e`, to a PF that reaches it: the Figures, control cores and HBM controllers have none (R39), the
partner channels' is that of R396, and of the rest no rule states the size; it ends within 1 GiB. -/
def windowBytes (e : Nat) : Nat :=
  if (24 ≤ e ∧ e < 28) ∨ 214 ≤ e then 0
  else if e = 0 then 0x2000
  else if e = 210 then 0x490000
  else 4096 * (Config.windowPages e % (2 ^ 18 + 1 - Config.windowPage e % 2 ^ 18))

/-- window_size of entry `e` on the card of PF `pf`. Every PF reaches its own card, entry 0, and its window is the least multiple of
4 KiB that holds the 7,232 bytes of R37-R39: no rule states either (DESIGN CHOICE, notes/assumptions/57.md). -/
def Dev.windowSize (d : Dev) (pf e : Nat) : Nat := if e = 0 ∨ d.reaches pf e then windowBytes e else 0

/-- entry_generation of an entry; the build gives 2. -/
def Dev.entryGen (d : Dev) (e : Nat) : Nat := d.card.entryGen.getD e 2

/-- The eight words of entry `e` on the card of PF `pf`. -/
def Dev.entryWords (d : Dev) (pf e : Nat) : List Nat :=
  let u := cardUnit e
  let ev := cardEvents e
  [u.1 + 65536 * u.2,
   d.unitVersion e + 65536 * d.unitFlags u.1 u.2 + 2 ^ 24 * d.unitDomain u.1 u.2,
   windowOffset e % 2 ^ 32, windowOffset e / 2 ^ 32 % 2 ^ 32,
   d.windowSize pf e % 2 ^ 32,
   ev.1 + 65536 * ev.2,
   d.entryGen e,
   cardParent e]

/-! ## Whole cards (R37, R45, R49, R51) -/

/-- The format major of the card (R36, R50). -/
def formatMajor : Nat := 1

/-- The sixteen header words, with the check given. -/
def Dev.headerWords (d : Dev) (fn count kind gen check : Nat) : List Nat :=
  [0x53484443, 0x00400000 + 256 * formatMajor, count + 65536 * 0x20, d.die.variant.code + 65536 * kind, gen % 2 ^ 32, gen / 2 ^ 32, check, fn] ++
    List.replicate 8 0

/-- A card: header and entries with the CRC-32C of R45. -/
def Dev.wholeCard (d : Dev) (fn count kind gen : Nat) (entries : List Nat) : List Nat :=
  let check := crc32c ((d.headerWords fn count kind gen 0 ++ entries).flatMap (fun w => leBytes w 4))
  d.headerWords fn count kind gen check ++ entries

/-- The card of PF `pf` of a card kind. -/
def Dev.pfCard (d : Dev) (pf kind : Nat) : List Nat :=
  d.wholeCard pf 224 kind d.card.gen ((List.range 224).flatMap (d.entryWords pf))

/-- Unit type of VF card entry `e` (R49). -/
def vfUnit : Nat → Nat
  | 0 => 0x01
  | 1 => 0x20
  | 2 => 0x90
  | 3 => 0x80
  | _ => 0x51

/-- Ring Groups of a function. -/
def Dev.groupsOf (d : Dev) (fn : Nat) : List Nat := (d.groups.filter (fun _ g => g.fn == fn)).keys

/-- vf_kind of the function's PF record (R67): 0 native, 1 S4400, 2 NVMe. -/
def Dev.vfKind (d : Dev) (fn : Nat) : Nat := if fn < 16 then 0 else ((d.pf? (d.pfOf fn)).map PfRec.vfKind).getD 0

/-- window_offset of VF card entry `e` (R49, R118, R428). -/
def vfOffset (s44 : Bool) : Nat → Nat
  | 0 => if s44 then 0xF000 else 0
  | 1 => if s44 then 0x4000 else 0x10000
  | 2 => 0x1000
  | 3 => 0x2000
  | _ => if s44 then 0 else 0x4000

/-- The words of VF card entry `e`. Only entry 1 ever changes (R42), so the others carry the generation of the build. -/
def Dev.vfEntryWords (d : Dev) (fn e : Nat) : List Nat :=
  let sto := d.vfKind fn == 2 && d.die.variant.hasSto
  let here := e != 4 || sto
  let size := if e = 1 then 4096 * (d.groupsOf fn).length else if e = 4 then (if sto then 0x4000 else 0) else 0x1000
  [vfUnit e, 256 + Config.unitMinor (224 + e) % 256 + 65536 * flagWord here here false false false + 2 ^ 24 * 0xFE,
   vfOffset (d.vfKind fn == 1) e, 0, size, 0xFFFF, if e = 1 then (d.fn fn).cardGen % 2 ^ 32 else 2, 0xFFFF]

/-- The card of a VF. -/
def Dev.vfCard (d : Dev) (fn : Nat) : List Nat :=
  d.wholeCard fn 5 1 (d.fn fn).cardGen ((List.range 5).flatMap (d.vfEntryWords fn))

/-- A 32-bit word of a function's card at a byte offset; 0 while the card is not valid (R48) and beyond its end. -/
def Dev.cardWord (d : Dev) (fn off : Nat) : Nat :=
  if !d.card.valid then 0
  else (if fn < 16 then d.pfCard fn 0 else d.vfCard fn).getD (off / 4) 0

/-! ## Changes (R44, R47) -/

/-- Entries changed: the generation moves by two, the entries carry it, and event 373 is raised. -/
def Dev.cardChanged (es : List Nat) (d : Dev) : Dev :=
  if !d.card.valid then d
  else
    let g := d.card.gen + 2
    ({ d with card := { d.card with gen := g, entryGen := es.foldl (fun m e => m.set e (g % 2 ^ 32)) d.card.entryGen } }).raise 373

/-- Build the card: generation 2 in every entry, and the expansion-ROM copy of each PF from it (R48, R52). The card of a VF that does not
exist yet gets its generation when it first can be read. -/
def Dev.buildCard (d : Dev) : Dev :=
  let d := { d with card := { valid := true, gen := 2 }, funcs := d.funcs.mapVals (fun _ f => { f with cardGen := if f.present then 2 else 0 }) }
  { d with card := { d.card with rom := NMap.ofList (d.pfs.map (fun pf => (pf, d.pfCard pf 2))) } }

/-- A VF card changes when Ring Groups come and go; it raises no event (R49). A card that nobody could read yet has no generation. -/
def Dev.vfCardChanged (fn : Nat) (d : Dev) : Dev :=
  if fn < 16 then d else d.onFn fn (fun f => { f with cardGen := if f.cardGen = 0 then 0 else f.cardGen + 2 })

/-- A VF card that can be read for the first time since the start holds generation 2 (R37); one that could be read before goes on
from its generation, which never decreases while the device runs (R44). -/
def Dev.vfCardReadable (fn : Nat) (d : Dev) : Dev := d.onFn fn (fun f => { f with cardGen := max 2 f.cardGen })

/-- The entries of a Set position and of a crypto position. -/
def setEntry (p : Nat) : Nat := 28 + p
def cryEntry (p : Nat) : Nat := 62 + p

/-- A byte of the expansion ROM (R51). The places inside the PCI data structure are those of the PCI Firmware specification (PRESUMED),
and the fields of it that R51 does not name (structure length, revisions, class code, image length) read 0 (DESIGN CHOICE): both in
notes/assumptions/12.md. -/
def Dev.romByte (d : Dev) (pf off : Nat) : Nat :=
  let words := d.card.rom.getD pf []
  if !d.card.valid then 0
  else if off = 0 then 0x55
  else if off = 1 then 0xAA
  else if off = 0x18 then 0x1C
  else if 0x1C ≤ off ∧ off < 0x34 then
    byteAt ([0x50, 0x43, 0x49, 0x52] ++ leBytes 0x1E8C 2 ++ leBytes d.die.variant.code 2 ++ List.replicate 12 0 ++ [0xFF, 0x80]) (off - 0x1C)
  else if 0x200 ≤ off then byteAt (leBytes (words.getD ((off - 0x200) / 4) 0) 4) ((off - 0x200) % 4)
  else 0

end Sys2Proof.Machine
end

