-- ==== Sys2Proof/Machine/Flags.lean ====
section
/-!
DEFINITION. The arithmetic of the datapath (R250): results and the four ALU flags of class 1, and the shifts and fields of
class 2. What the spec leaves open of a flag or result comes from a free value.
-/

namespace Sys2Proof.Machine

/-- Store the ALU flags of a result, with carry and overflow given. -/
def Thread.setFlags (t : Thread) (r : Word64) (carry overflow : Bool) : Thread :=
  { t with zero := r == 0, negative := r.msb, carry := carry, overflow := overflow }

/-- Signed overflow of a sum. -/
def addOverflow (a b r : Word64) : Bool := (a.msb == b.msb) && (r.msb != a.msb)

/-- Signed overflow of a difference. -/
def subOverflow (a b r : Word64) : Bool := (a.msb != b.msb) && (r.msb != a.msb)

/-- The result of an ALU function with its carry and overflow, where the spec gives them; `none` is left open
(notes/assumptions/21.md). -/
def aluResult (f : Nat) (a b : Word64) (carryIn : Bool) : Word64 × Option Bool × Option Bool :=
  if f = 0 then (a + b, some (2 ^ 64 ≤ a.toNat + b.toNat), some (addOverflow a b (a + b)))
  else if f = 1 ∨ f = 5 then (a - b, none, some (subOverflow a b (a - b)))
  else if f = 2 then (a &&& b, none, none)
  else if f = 3 then (a ||| b, none, none)
  else if f = 4 then (a ^^^ b, none, none)
  else if f = 7 then
    let c : Word64 := if carryIn then 1 else 0
    (a + b + c, some (2 ^ 64 ≤ a.toNat + b.toNat + carryIn.toNat), some (addOverflow a b (a + b + c)))
  else (b, none, none)

/-- The low `w` bits, `w` at least 1. -/
def maskWord (w : Nat) : Word64 := BitVec.ofNat 64 (2 ^ w - 1)

/-- The result of a class 2 function; `none` where the width is 0, for which the spec states no result. -/
def shiftResult (f : Nat) (a b : Word64) (off width : Nat) : Option Word64 :=
  if f = 0 then some (a <<< off)
  else if f = 1 then some (a >>> off)
  else if f = 2 then some (a.rotateLeft off)
  else if width = 0 then none
  else if f = 3 then some ((a >>> off) &&& maskWord width)
  else some ((b &&& ~~~(maskWord width <<< off)) ||| ((a &&& maskWord width) <<< off))

end Sys2Proof.Machine
end

