-- ==== Sys2Proof/Machine/Threads.lean ====
section
/-!
DEFINITION. The threads of a Set: conditions, waits and how they end, channels, yield points, faults (R241-R261).
-/

namespace Sys2Proof.Machine

/-- The site in position `p`. -/
def Dev.siteAt (d : Dev) (p : Nat) : SetSite := d.sites.getD (d.setAt p).site {}

/-- Change the site in position `p`. -/
def Dev.onSite (d : Dev) (p : Nat) (f : SetSite → SetSite) : Dev := { d with sites := d.sites.upd (d.setAt p).site {} f }

/-- A thread of position `p`. -/
def Dev.thread (d : Dev) (p t : Nat) : Thread := (d.siteAt p).threads.getD t {}

/-- Change a thread. -/
def Dev.onThread (d : Dev) (p t : Nat) (f : Thread → Thread) : Dev :=
  d.onSite p (fun s => { s with threads := s.threads.upd t {} f })

/-- A channel of position `p`. -/
def Dev.setChan (d : Dev) (p c : Nat) : SetChan := (d.siteAt p).channels.getD c {}

/-- Change a channel. -/
def Dev.onSetChan (d : Dev) (p c : Nat) (f : SetChan → SetChan) : Dev :=
  d.onSite p (fun s => { s with channels := s.channels.upd c {} f })

/-- The microword at the thread's pc. -/
def Dev.word (d : Dev) (p t : Nat) : Microword := (d.siteAt p).store.getD (d.thread p t).pc 0

/-- Does a partner channel bound to the Set's MID hold a message (condition 0x45)? -/
def Dev.mailFor (d : Dev) (p : Nat) : Bool :=
  (d.chans.filter (fun c h => h.held.isSome && (match d.binding c with
    | some (_, r) => r == midSet p
    | none => false))).size != 0

/-- Are no assist requests of these kinds pending? -/
def Thread.answered (t : Thread) (kinds : Nat → Bool) : Bool := t.assists.all (fun a => !kinds a.kind)

/-- Has the thread's item been replayed; is its transmit payload in the packet buffer? -/
def Dev.itemReplayed (d : Dev) (t : Thread) : Bool := ((t.item.bind d.item?).map (fun it => decide (0 < it.replays))).getD false
def Dev.payloadIn (d : Dev) (t : Thread) : Bool := ((t.item.bind d.item?).map (fun it => it.readIssued && it.want == 0)).getD false

/-- chan_data: a closed message that no thread has acquired (R247). -/
def SetChan.holds (c : SetChan) : Bool := !c.closed.isEmpty

/-- chan_open: no message open or in delivery. -/
def SetChan.free (c : SetChan) : Bool := c.open_.isNone && c.delivery.isEmpty

/-- The value of a condition for thread `t` of position `p` (R247). -/
def Dev.condValue (d : Dev) (p : Nat) (t : Thread) (cond channel : Nat) : Bool :=
  if cond = 0x00 then true
  else if cond = 0x01 then t.timedOut
  else if cond = 0x02 then t.broken
  else if cond = 0x03 then t.zero
  else if cond = 0x04 then t.carry
  else if cond = 0x05 then t.negative
  else if cond = 0x06 then t.overflow
  else if cond = 0x07 then d.itemReplayed t
  else if cond < 0x10 then hasBit t.uf (cond - 8)
  else if cond < 0x20 then hasBit (d.siteAt p).flags (cond - 0x10)
  else if cond = 0x20 then (d.setChan p channel).holds
  else if cond = 0x21 then (d.setChan p channel).free
  else if cond = 0x40 then t.answered (fun k => k < 12)
  else if cond = 0x41 then t.answered (fun k => k == 12)
  else if cond = 0x42 then d.payloadIn t
  else if cond = 0x43 then t.answered (fun k => k == 3)
  else if cond = 0x44 then t.answered (fun k => k == 13)
  else if cond = 0x45 then d.mailFor p
  else t.answered (fun k => k == 10)

/-- c = value(cond) XOR invert (R246). -/
def Dev.condTest (d : Dev) (p : Nat) (t : Thread) (w : Microword) : Bool :=
  xor (d.condValue p t (mwCond w) (mwChannel w)) (mwInvert w)

/-! ## Faults and channels -/

/-- Push into the position's SET_FAULT_FIFO (R260): 16 entries. -/
def Dev.pushFault (p thread code pc : Nat) (d : Dev) : Dev :=
  if (d.siteAt p).faults.length < 16 then
    d.onSite p (fun s => { s with faults := s.faults ++ [thread + 256 * code + 4096 * pc + 2 ^ 31] })
  else d.bump R.SET_FAULT_DROPPED_count p

/-- Mark a channel's abandoned bit and raise chan_abandoned (R256). -/
def Dev.abandonChan (p c : Nat) (d : Dev) : Dev :=
  let a := 4 * (c / 32)
  (d.wr R.SET_CHAN_ABANDONED_abandoned (setBit (d.rd R.SET_CHAN_ABANDONED_abandoned p a) (c % 32)) p a).cause setCauses 5 p

/-- A channel's delivery has ended: the stage that it came from is empty (R254). -/
def Dev.stageEmptied (p c : Nat) (d : Dev) : Dev :=
  if (d.setChan p c).delivery.isEmpty then
    d.onSite p (fun s => { s with threads := s.threads.mapVals (fun _ t =>
      if t.delivering == some c then { t with delivering := none } else t) })
  else d

/-- A thread that holds an open channel or a read side loses both (R256). -/
def Dev.releaseChannels (p t : Nat) (d : Dev) : Dev :=
  let th := d.thread p t
  let d := match th.sendChan with
    | some c => (d.onSetChan p c (fun h => { h with open_ := none })).abandonChan p c
    | none => d
  let d := match th.readChan with
    | some (c, m) =>
      ((d.onSetChan p c (fun h => { h with
        fifo := h.fifo.filter (fun w => w.msg != m)
        delivery := h.delivery.filter (fun w => w.msg != m) })).stageEmptied p c).abandonChan p c
    | none => d
  d.onThread p t (fun th => { th with sendChan := none, readChan := none, stage := [] })

/-- An idle thread (R240): registers and flags as a pass will find them are set at its start. -/
def Thread.toIdle (t : Thread) : Thread := { delivering := t.delivering }

/-- An item fault (R260). -/
def Dev.threadFault (p t code : Nat) (d : Dev) : Dev :=
  let th := d.thread p t
  let d := d.releaseChannels p t
  let d := match th.item with
    | some i => d.failItem i 4
    | none => d
  let d := d.onThread p t Thread.toIdle
  let d := d.pushFault p t code th.pc
  (d.bump R.SET_THREAD_FAULTS_count p).cause setCauses 0 p

/-! ## The Caller (R242-R244, R266) -/

/-- May the thread take a token: ready, or stop pending on its way to a yield point, and in no WAIT. -/
def Thread.mayIssue (t : Thread) : Bool := (t.state == .ready || t.state == .stopPending) && t.item.isSome && t.wait.isNone

/-- Thread `k` of engine `e` may take a token. -/
def Dev.readyIn (d : Dev) (p e k : Nat) : Bool := (d.thread p (8 * e + k)).mayIssue

/-- The Caller of engine `e` as the next grant finds it: a round that is over gives way to one under the marks that SET_ENGINE_CFG
holds by then. -/
def Dev.caller (d : Dev) (p e : Nat) : Caller :=
  let c := (d.siteAt p).callers.getD e {}
  if c.granted < 16 then c
  else
    { c with
      granted := 0
      claimed := List.replicate 8 0
      floor2 := d.rd R.SET_ENGINE_CFG_floor2 p (4 * e)
      priority := d.rd R.SET_ENGINE_CFG_priority p (4 * e) }

/-- The thread that the Caller grants the next token, and whether rule 2 names it (R243). Where the first round robin starts and which
priority thread comes first is not stated: they start at thread 0 and at the lower one (notes/assumptions/66.md). -/
def Caller.next (c : Caller) (ready : Nat → Bool) : Option (Nat × Bool) :=
  let order := (List.range 8).map (fun k => (c.last + 1 + k) % 8)
  match order.find? (fun k => ready k && c.claimed.getD k 0 < (if hasBit c.floor2 k then 2 else 1)) with
  | some k => some (k, false)
  | none =>
    match (List.range 8).filter (fun k => ready k && hasBit c.priority k) with
    | [] => (order.find? ready).map (fun k => (k, false))
    | [a] => some (a, true)
    | a :: b :: _ => some (if c.lastPrio = a then b else a, true)

/-- Does the engine's next step fall to thread `t`: the thread whose microword is half issued, else the one that the Caller names? -/
def Dev.named (d : Dev) (p t : Nat) : Bool :=
  match (List.range 8).find? (fun k => (d.thread p (t / 8 * 8 + k)).issuedData) with
  | some k => k == t % 8
  | none => ((d.caller p (t / 8)).next (d.readyIn p (t / 8))).map Prod.fst == some (t % 8)

/-- Microwords issued since start (R268). -/
def Dev.countIssued (p : Nat) (d : Dev) : Dev :=
  d.wr64 R.SET_ISSUED_LO_issued R.SET_ISSUED_HI_issued ((d.rd64 R.SET_ISSUED_LO_issued R.SET_ISSUED_HI_issued p + 1) % 2 ^ 64) p

/-- Thread `t` takes the next token of its engine. -/
def Dev.takeToken (p t : Nat) (d : Dev) : Dev :=
  let c := d.caller p (t / 8)
  let two := ((c.next (d.readyIn p (t / 8))).map Prod.snd).getD false
  d.onSite p (fun s => { s with callers := s.callers.set (t / 8) { c with
    granted := c.granted + 1
    claimed := c.claimed.set (t % 8) (c.claimed.getD (t % 8) 0 + 1)
    last := t % 8
    lastPrio := if two then t % 8 else c.lastPrio } })

/-- A thread becomes ready by `f`. Where no other of its engine was, the engine's round had ended. -/
def Dev.makeReady (p t : Nat) (f : Thread → Thread) (d : Dev) : Dev :=
  let d := if (List.range 8).any (d.readyIn p (t / 8)) then d
    else d.onSite p (fun s => { s with callers := s.callers.upd (t / 8) {} (fun c => { c with granted := 16 }) })
  d.onThread p t f

/-! ## Ends of waits, events at yield points -/

/-- A thread takes what the debugger requested, at a yield point or at the end of a wait (R257, R262). -/
def Dev.takeEvent (p t : Nat) (d : Dev) : Dev :=
  let th := d.thread p t
  if th.kill then d.threadFault p t 8
  else if th.state = .stopPending then
    (d.onThread p t (fun th => { th with state := .stopped })).cause setCauses 6 p
  else d

/-- A wait ends: the thread goes on at pc + 1; a condition on a channel gives it the channel (R251, R253). -/
def Dev.endWait (p t : Nat) (timedOut broken : Bool) (d : Dev) : Dev :=
  match (d.thread p t).wait with
  | none => d
  | some w =>
    let won := !timedOut && !broken && !w.invert
    let d := if won && w.cond == 0x21 then
        (d.onSetChan p w.channel (fun c => { c with open_ := some t })).onThread p t (fun th => { th with sendChan := some w.channel })
      else if won && w.cond == 0x20 && (d.thread p t).readChan.isNone then
        match (d.setChan p w.channel).closed with
        | m :: _ => (d.onSetChan p w.channel (fun c => { c with closed := c.closed.drop 1 })).onThread p t
            (fun th => { th with readChan := some (w.channel, m) })
        | [] => d
      else d
    let d := d.makeReady p t (fun th => { th with
      wait := none
      timedOut := timedOut
      broken := broken
      pc := (th.pc + 1) % 16384
      issuedData := false
      state := if th.state = .waiting then .ready else th.state })
    d.takeEvent p t

/-- May this wait end true now? A thread opens a channel only when its stage has emptied and it holds none; with a read side held, a
wait on chan_data ends when the next word of that message arrives (R254, R255), and one on another channel does not end so, since a
thread holds one read side at a time (notes/assumptions/67.md). -/
def Dev.waitDone (d : Dev) (p : Nat) (t : Thread) (w : Wait) : Bool :=
  if w.cond = 0 then false
  else if w.cond = 0x21 ∧ w.invert = false then (d.setChan p w.channel).free && t.delivering.isNone && t.sendChan.isNone
  else if w.cond = 0x20 ∧ w.invert = false then
    match t.readChan with
    | some (c, m) => c == w.channel && (d.setChan p c).fifo.any (fun x => x.msg == m)
    | none => (d.setChan p w.channel).holds
  else xor (d.condValue p t w.cond w.channel) w.invert

/-- End the wait of one thread if its condition holds; a frozen wait sees it at resume. -/
def Dev.settleThread (p t : Nat) (d : Dev) : Dev :=
  let th := d.thread p t
  match th.wait with
  | some w => if th.state != .stopped && d.waitDone p th w then d.endWait p t false false else d
  | none => d

/-- The waiting threads of a position in the order their waits began, a tie going to the lowest index (R253). -/
def Dev.waiters (d : Dev) (p : Nat) : List Nat :=
  let l := (d.siteAt p).threads.entries.filterMap (fun e => e.2.wait.map (fun w => (w.began, e.1)))
  (l.mergeSort (fun a b => a.1 < b.1 || (a.1 == b.1 && a.2 ≤ b.2))).map Prod.snd

/-- Every wait whose condition has become true ends, the earliest first. -/
def Dev.settle (p : Nat) (d : Dev) : Dev := Dev.each (d.waiters p) (Dev.settleThread p) d

/-- The position that a thread event concerns settles, where it is a Set's. -/
def Dev.settleMail (mid : Nat) (d : Dev) : Dev := if isSetMid mid then d.settle (mid - 0x100) else d

/-- Set flags and other shared inputs changed: settle. The words of a closed message move into the FIFO as room allows (R254). -/
def Dev.deliver (p c : Nat) (d : Dev) : Dev :=
  let ch := d.setChan p c
  let n := 4 - ch.fifo.length
  let moved := ch.delivery.take n
  let left := ch.delivery.drop n
  ((d.onSetChan p c (fun h => { h with fifo := h.fifo ++ moved, delivery := left })).stageEmptied p c).settle p

end Sys2Proof.Machine
end

