-- ==== Sys2Proof/Machine/Mailbox.lean ====
section
/-!
DEFINITION. Partner channels (R394-R409): bindings, sending, latching, acknowledging, announcements, and what resets and
departures do to a channel.
-/

namespace Sys2Proof.Machine

/-- The receiver that a function sends its requests on, and the channel firmware answers on (R394). -/
def requestChannel (fn : Nat) : Nat := if fn < 16 then 16384 + 2 * fn else 2 * (fn - 16)
def receiveChannel (fn : Nat) : Nat := requestChannel fn + 1

/-- The domain a receiver sits in, if it can be off (R100, R402): the site of a Set position that is not out, or the port. -/
def Dev.domainOfMid (d : Dev) (mid : Nat) : Option Nat :=
  if isSetMid mid then (if (d.setAt (mid - 0x100)).phase = .out then none else some (d.setAt (mid - 0x100)).site)
  else if mid = midStp then some 42 else none

/-- A domain absent on the variant is off for good (R100). -/
def Dev.domainExists (d : Dev) (n : Nat) : Bool :=
  if n < 34 then d.hasSet n
  else match d.die.variant with
    | .s9640 => n < 48
    | .s9632 => n < 48 && n != 35 && n != 39 && n != 42
    | .s9616 => n < 48 && n != 35 && n != 38 && n != 39 && n != 41 && n != 42 && n != 45

/-- The power-up order of R101. -/
def powerUpOrder : List Nat := [47, 46, 34, 35, 40, 41, 36, 37, 38, 39, 43, 44, 45, 42] ++ List.range 34

/-- Wake a domain: it joins those that wake, in the order of R101, and PWR event 11 is raised; a domain on or waking is left
alone (R101, R102). -/
def Dev.wake (n : Nat) (d : Dev) : Dev :=
  if d.domainOn n || d.power.waking.contains n || !d.domainExists n then d
  else
    let l := match d.power.waking with
      | [] => [n]
      | h :: t => h :: (powerUpOrder.filter (fun m => m == n || t.contains m))
    ({ d with power := { d.power with waking := l } }).raise (334 + 11)

/-- Announce an arrival to its receiver, and wake the receiver's domain if it is off (R402). -/
def Dev.announceArrival (c : Nat) (d : Dev) : Dev :=
  match d.binding c with
  | none => d
  | some (_, mid) =>
    let d := if isFnMid mid then
        (if d.on R.MBX_RX_IRQ_enable 0 (256 * c) then d.sendVector (mid - 0x1000) (d.rd R.MBX_RX_IRQ_vector 0 (256 * c)) else d)
      else if isCoreMid mid then d.raise (302 + (mid - 1))
      else if mid = midStp then d.raise 310
      else d.settleMail mid
    match d.domainOfMid mid with
    | some n => if d.domainOn n || d.power.waking.contains n then d else (d.wake n).cause mbxCauses 3
    | none => d

/-- MBX_TX_ACK takes a code and the seq it answers, acked is set and announced to a host sender (R402), or carried to the Stream
Port's peer (R466). -/
def Dev.acknowledge (c code seq : Nat) (d : Dev) : Dev :=
  let a := 256 * c
  let d := ((d.wr R.MBX_TX_ACK_code code 0 a).wr R.MBX_TX_ACK_ack_seq seq 0 a).wr R.MBX_TX_STATUS_acked 1 0 a
  match d.binding c with
  | some (t, _) =>
    if t = midStp then
      match d.stp.taken.find? (fun x => x.1 == c && x.2.1 == seq) with
      | some x => { d with stp := { d.stp with
          taken := d.stp.taken.erase x
          msgs := d.stp.msgs ++ [{ channel := c, ack := true, seq := x.2.2, code := code }] } }
      | none => d
    else if isFnMid t && d.on R.MBX_TX_IRQ_enable 0 a then d.sendVector (t - 0x1000) (d.rd R.MBX_TX_IRQ_vector 0 a) else d
  | none => d

/-- Set or clear full in both halves of the block. -/
def Dev.setFull (c : Nat) (v : Bool) (d : Dev) : Dev :=
  (d.wr R.MBX_TX_STATUS_full v.toNat 0 (256 * c)).wr R.MBX_RX_STATUS_full v.toNat 0 (256 * c)

/-- Is the Stream Port up, or retraining (R466)? -/
def Dev.stpUp (d : Dev) : Bool := 2 ≤ d.rd R.STP_STATUS_state && d.rd R.STP_STATUS_state ≤ 4

/-- Is the receiver absent: a Set position the variant lacks, or the Stream Port's peer while the port is not up (R401, R466)? -/
def Dev.receiverAbsent (d : Dev) (mid : Nat) : Bool :=
  (isSetMid mid && !d.hasSet (mid - 0x100)) || (mid == midStp && !d.stpUp)

/-- The words of the first `len` bytes of a message; bytes beyond `len` are zero. -/
def cutWords (words : List Nat) (len : Nat) : List Nat :=
  (List.range 16).map (fun n =>
    let keep := min 4 (len - 4 * n)
    words.getD n 0 % 2 ^ (8 * keep))

/-- Put a message into channel `c` (R398, R399, R401): seq advances; a held message is answered 0xFFFF and counted. -/
def Dev.post (c : Nat) (words : List Nat) (len : Nat) (d : Dev) : Dev :=
  let a := 256 * c
  match d.binding c with
  | none => d
  | some (_, mid) =>
    let seq := (d.rd R.MBX_TX_STATUS_seq 0 a + 1) % 65536
    let d := d.wr R.MBX_TX_STATUS_seq seq 0 a
    if d.receiverAbsent mid then d.acknowledge c 0xFFFC seq
    else
      let d := match (d.chan c).held with
        | none => d
        | some m =>
          let d := (d.wr R.MBX_TX_STATUS_collision 1 0 a).wr R.MBX_RX_STATUS_collision 1 0 a
          let d := (d.bump R.MBX_COLLISIONS_count).wr R.MBX_LAST_COLLISION_channel c
          (d.acknowledge c 0xFFFF m.seq).cause mbxCauses 0
      let d := d.onChan c (fun h => { h with held := some { words := cutWords words len, len := len, seq := seq }, latched := false })
      (d.setFull c true).announceArrival c

/-- Count a refused access (R397). -/
def Dev.wrongMid (d : Dev) : Dev := (d.bump R.MBX_WRONG_MID_count).cause mbxCauses 1

/-- MBX_TX_CMD with send: the staged words go out, or tx_bad is set (R398). -/
def Dev.mbxSend (mid c len : Nat) (d : Dev) : Dev :=
  match d.binding c with
  | none => d
  | some (t, _) =>
    if t ≠ mid then d.wrongMid
    else if len = 0 ∨ 64 < len then d.wr R.MBX_TX_STATUS_tx_bad 1 0 (256 * c)
    else d.post c ((List.range 16).map (fun n => d.rd R.MBX_TX_DATA_data 0 (256 * c + 4 * n))) len

/-- Store a view: its words, len, seq and redelivered (R400). -/
def Dev.setView (c : Nat) (words : List Nat) (len seq : Nat) (redelivered : Bool) (d : Dev) : Dev :=
  let a := 256 * c
  let d := Dev.each (List.range 16) (fun n d => d.wr R.MBX_RX_DATA_data (words.getD n 0) 0 (a + 4 * n)) d
  ((d.wr R.MBX_RX_STATUS_len len 0 a).wr R.MBX_RX_STATUS_seq seq 0 a).wr R.MBX_RX_STATUS_redelivered redelivered.toNat 0 a

/-- The value of MBX_RX_STATUS. -/
def Dev.rxStatus (d : Dev) (c : Nat) : Nat :=
  let a := 256 * c
  d.rd R.MBX_RX_STATUS_len 0 a + 128 * d.rd R.MBX_RX_STATUS_full 0 a + 256 * d.rd R.MBX_RX_STATUS_collision 0 a +
    512 * d.rd R.MBX_RX_STATUS_redelivered 0 a + 1024 * d.rd R.MBX_RX_STATUS_stale_ack 0 a +
    65536 * d.rd R.MBX_RX_STATUS_seq 0 a

/-- Latch the held message, or an empty view, into the receiver's view (R400). -/
def Dev.latchView (c : Nat) (d : Dev) : Dev :=
  match (d.chan c).held with
  | some m => (d.setView c m.words m.len m.seq m.redelivered).onChan c (fun h => { h with viewEmpty := false, latched := true })
  | none => (d.setView c [] 0 (d.rd R.MBX_TX_STATUS_seq 0 (256 * c)) false).onChan c (fun h => { h with viewEmpty := true })

/-- A read of MBX_RX_STATUS by `mid`: latches and answers; a wrong MID reads zero and is counted (R397, R400). -/
def Dev.mbxLatch (mid c : Nat) (d : Dev) : Dev :=
  match d.binding c with
  | none => d.emit (.answer mid 0)
  | some (_, r) =>
    if r ≠ mid then d.wrongMid.emit (.answer mid 0)
    else
      let d := d.latchView c
      d.emit (.answer mid (d.rxStatus c))

/-- Code 0xFF00-0xFFFF of a receiver is stored as 0xFEFF (R401). -/
def ackCode (code : Nat) : Nat := if 0xFF00 ≤ code then 0xFEFF else code

/-- Are messages to a function held back: through an FLR or link reset, and until its epilogue record has gone first (R171)? -/
def Dev.quietFn (d : Dev) (fn : Nat) : Bool :=
  (d.fn fn).reset == .flr || (d.fn fn).reset == .link ||
  (!(d.fn fn).busMaster && ((d.epilogues.get? fn).map (fun e => e.ready && !e.sent)).getD false)

/-- Firmware sends the next message on a function's receiving channel once the previous one has been acknowledged (R417). -/
def Dev.sendNext (fn : Nat) (d : Dev) : Dev :=
  let c := receiveChannel fn
  match (d.fn fn).outbox with
  | [] => d
  | w :: rest =>
    if (d.chan c).held.isSome || (d.binding c).isNone || d.quietFn fn then d
    else (d.onFn fn (fun f => { f with outbox := rest })).post c w (4 * w.length)

/-- Acknowledge the view of channel `c`, or refuse it as stale (R400). -/
def Dev.ackView (c code : Nat) (d : Dev) : Dev :=
  let a := 256 * c
  match (d.chan c).held with
  | some m =>
    if !(d.chan c).viewEmpty && m.seq == d.rd R.MBX_RX_STATUS_seq 0 a then
      let d := d.onChan c (fun h => { h with held := none, latched := false })
      let d := (d.setFull c false).acknowledge c (ackCode code) m.seq
      match d.binding c with
      | some (_, r) => if isFnMid r && c == receiveChannel (r - 0x1000) then d.sendNext (r - 0x1000) else d
      | none => d
    else d.wr R.MBX_RX_STATUS_stale_ack 1 0 a
  | none => d.wr R.MBX_RX_STATUS_stale_ack 1 0 a

/-- MBX_RX_ACK with ack, written by `mid`. -/
def Dev.mbxAck (mid c code : Nat) (d : Dev) : Dev :=
  match d.binding c with
  | none => d
  | some (_, r) => if r ≠ mid then d.wrongMid else d.ackView c code

/-- The value of MBX_TX_STATUS. -/
def Dev.txStatus (d : Dev) (c : Nat) : Nat :=
  let a := 256 * c
  d.rd R.MBX_TX_STATUS_full 0 a + 2 * d.rd R.MBX_TX_STATUS_collision 0 a + 4 * d.rd R.MBX_TX_STATUS_acked 0 a +
    8 * d.rd R.MBX_TX_STATUS_tx_bad 0 a + 65536 * d.rd R.MBX_TX_STATUS_seq 0 a

/-- May `mid` reach the half of block `c` that offset `off` lies in (R397)? `none`: the channel is unbound. -/
def Dev.mbxMayAccess (d : Dev) (mid c off : Nat) : Option Bool :=
  (d.binding c).map (fun b => if off < 0x80 then b.1 == mid else b.2 == mid)

/-- A 32-bit read of a channel block (R396-R400, R408): its value, and the device after it. -/
def Dev.mbxRead (mid c off : Nat) (d : Dev) : Nat × Dev :=
  let a := 256 * c
  match d.mbxMayAccess mid c off with
  | none => (0, d)
  | some false => (0, d.wrongMid)
  | some true =>
    if off < 0x40 then (d.rd R.MBX_TX_DATA_data 0 (a + off / 4 * 4), d)
    else if off = 0x44 then (d.txStatus c, d)
    else if off = 0x48 then (d.rd R.MBX_TX_ACK_code 0 a + 65536 * d.rd R.MBX_TX_ACK_ack_seq 0 a, d)
    else if off = 0x4C then (d.rd R.MBX_TX_IRQ_vector 0 a + 2048 * d.rd R.MBX_TX_IRQ_enable 0 a, d)
    else if 0x80 ≤ off ∧ off < 0xC0 then (d.rd R.MBX_RX_DATA_data 0 (a + (off - 0x80) / 4 * 4), d)
    else if off = 0xC0 then (d.latchView c).rxStatus c |> fun v => (v, d.latchView c)
    else if off = 0xC8 then (d.rd R.MBX_RX_IRQ_vector 0 a + 2048 * d.rd R.MBX_RX_IRQ_enable 0 a, d)
    else (0, d)

/-- Clear a W1C field where the written bit is 1. -/
def Dev.clearIf (d : Dev) (v b : Nat) (f : Field) (a : Nat) : Dev := if hasBit v b then d.wr f 0 0 a else d

/-- A 32-bit write of a channel block (R397-R401, R408). -/
def Dev.mbxWrite (mid c off v : Nat) (d : Dev) : Dev :=
  let a := 256 * c
  match d.mbxMayAccess mid c off with
  | none => d
  | some false => d.wrongMid
  | some true =>
    if off < 0x40 then d.wr R.MBX_TX_DATA_data v 0 (a + off / 4 * 4)
    else if off = 0x40 then (if hasBit v 7 then d.mbxSend mid c (v % 128) else d)
    else if off = 0x44 then
      ((d.clearIf v 1 R.MBX_TX_STATUS_collision a).clearIf v 2 R.MBX_TX_STATUS_acked a).clearIf v 3 R.MBX_TX_STATUS_tx_bad a
    else if off = 0x4C then (d.wr R.MBX_TX_IRQ_vector (v % 2048) 0 a).wr R.MBX_TX_IRQ_enable (bit v 11) 0 a
    else if off = 0xC0 then (d.clearIf v 8 R.MBX_RX_STATUS_collision a).clearIf v 10 R.MBX_RX_STATUS_stale_ack a
    else if off = 0xC4 then (if hasBit v 16 then d.ackView c (v % 65536) else d)
    else if off = 0xC8 then (d.wr R.MBX_RX_IRQ_vector (v % 2048) 0 a).wr R.MBX_RX_IRQ_enable (bit v 11) 0 a
    else d

/-- A reset of a function acts on its channels (R403). -/
def Dev.resetChannels (fn : Nat) (d : Dev) : Dev :=
  let sent := d.channelsOf (midFn fn) true
  let taken := d.channelsOf (midFn fn) false
  let d := Dev.each sent (fun c d =>
    let a := 256 * c
    let d := Dev.each (List.range 16) (fun n d => d.wr R.MBX_TX_DATA_data 0 0 (a + 4 * n)) d
    ((d.wr R.MBX_TX_STATUS_tx_bad 0 0 a).wr R.MBX_TX_IRQ_vector 0 0 a).wr R.MBX_TX_IRQ_enable 0 0 a) d
  Dev.each taken (fun c d =>
    let a := 256 * c
    let d := match (d.chan c).held with
      | some m => (d.onChan c (fun h => { h with held := none, latched := false })).setFull c false |>.acknowledge c 0xFFFE m.seq
      | none => d
    let d := (d.setView c [] 0 0 false).onChan c (fun h => { h with viewEmpty := true })
    (d.wr R.MBX_RX_IRQ_vector 0 0 a).wr R.MBX_RX_IRQ_enable 0 0 a) d

/-- A departed receiver's latched messages stay held, are marked redelivered and announced again; its staged words are
discarded (R405). -/
def Dev.redeliver (mid : Nat) (d : Dev) : Dev :=
  let d := Dev.each (d.channelsOf mid false) (fun c d =>
    if (d.chan c).latched && (d.chan c).held.isSome then
      let d := d.onChan c (fun h => { h with latched := false, held := h.held.map (fun m => { m with redelivered := true }) })
      (d.announceArrival c).cause mbxCauses 2
    else d) d
  Dev.each (d.channelsOf mid true) (fun c d =>
    Dev.each (List.range 16) (fun n d => d.wr R.MBX_TX_DATA_data 0 0 (256 * c + 4 * n)) d) d

/-- Empty every channel and its block (R404). -/
def Dev.emptyChannels (d : Dev) : Dev :=
  { d with
    chans := {}
    regs := d.regs.filter (fun k _ => !(Field.key ⟨0x90, 0x10000, [], 0, 1, .rw, .literal 0, .any⟩ 0 0 ≤ k &&
      k < Field.key ⟨0x90, 0x490000, [], 0, 1, .rw, .literal 0, .any⟩ 0 0)) }

/-- MBX_TX_CMD.send by master `mid` on channel `channel`. -/
def execMbxSend (mid channel len : Nat) (s : State) : Out := s.onRun (Dev.mbxSend mid channel len)

/-- A read of MBX_RX_STATUS by master `mid`. -/
def execMbxRxLatch (mid channel : Nat) (s : State) : Out := s.onRun (Dev.mbxLatch mid channel)

/-- MBX_RX_ACK.ack by master `mid`. -/
def execMbxRxAck (mid channel code : Nat) (s : State) : Out := s.onRun (Dev.mbxAck mid channel code)

end Sys2Proof.Machine
end

