-- ==== Sys2Proof/Machine/Requests.lean ====
section
/-!
DEFINITION. Requests that the device issues on its host links (R120-R124, R129): attributes, how a transfer is cut into requests,
tags, and the requests held back by a limit.
-/

namespace Sys2Proof.Machine

/-! ## Peer-to-peer windows (R129) -/

/-- Base and limit of window `w` of the active set. -/
def Dev.winBase (d : Dev) (link w : Nat) : Nat :=
  4096 * d.rd R.PCX_P2P_ACTIVE_BASE_LO_base link (32 * w) + 2 ^ 32 * d.rd R.PCX_P2P_ACTIVE_BASE_HI_base link (32 * w)
def Dev.winLimit (d : Dev) (link w : Nat) : Nat :=
  4096 * d.rd R.PCX_P2P_ACTIVE_LIMIT_LO_limit link (32 * w) + 0xFFF + 2 ^ 32 * d.rd R.PCX_P2P_ACTIVE_LIMIT_HI_limit link (32 * w)

/-- The lowest-numbered enabled window that holds an address. -/
def Dev.windowOf (d : Dev) (link addr : Nat) : Option Nat :=
  (List.range 16).find? (fun w => d.on R.PCX_P2P_ACTIVE_ATTR_enable link (32 * w) &&
    d.winBase link w ≤ addr && addr ≤ d.winLimit link w)

/-- The attributes that a request of a class leaves with (R120, R129). PASID, steering tag and translation need their capability enabled
(PRESUMED, Base specification, notes/assumptions/48.md). -/
def Dev.attrFor (d : Dev) (fn addr : Nat) (a : Attr) : Attr :=
  let f := d.fn fn
  let link := d.linkOf fn
  let ro := a.relaxed && f.relaxedOrdering
  let ns := a.noSnoop && f.noSnoop
  let a := { a with
    steering := if f.tphEnable then a.steering else none
    pasid := if f.pasidEnable then a.pasid else none
    ats := a.ats && f.atsEnable }
  match d.windowOf link addr with
  | some w =>
    let translated := d.on R.PCX_P2P_ACTIVE_ATTR_at_translated link (32 * w)
    { a with
      relaxed := ro && d.on R.PCX_P2P_ACTIVE_ATTR_allow_ro link (32 * w)
      noSnoop := ns || d.on R.PCX_P2P_ACTIVE_ATTR_force_no_snoop link (32 * w)
      translated := translated
      ats := a.ats && !translated }
  | none => { a with relaxed := ro, noSnoop := ns }

/-! ## Issue -/

/-- Link state (PCX_LINK_STATUS.state): L0 or L1, from which a request wakes the link. -/
def Dev.linkUp (d : Dev) (link : Nat) : Bool :=
  d.rd R.PCX_LINK_STATUS_state link == 3 || d.rd R.PCX_LINK_STATUS_state link == 6

/-- May the function issue a request now (R125-R127)? A drain goes on with host access (R425). -/
def Dev.canIssue (d : Dev) (fn : Nat) : Bool :=
  d.hasFn fn && (d.fn fn).busMaster && !(d.fn fn).d3 && ((d.fn fn).reset == .none || (d.fn fn).reset == .draining) &&
  d.linkUp (d.linkOf fn)

/-- A link in L1 returns to L0. -/
def Dev.leaveL1 (link : Nat) (d : Dev) : Dev :=
  if d.rd R.PCX_LINK_STATUS_state link = 6 then d.wr R.PCX_LINK_STATUS_state 3 link else d

/-- Cut a transfer at 4 KiB boundaries, where every window edge lies, and to `max` bytes: (offset, length) of each request. -/
def cutRequests (addr len max : Nat) : Nat → Nat → List (Nat × Nat)
  | 0, _ => []
  | fuel + 1, off =>
    if len ≤ off then []
    else
      let n := min (len - off) (min (Nat.max 1 max) (4096 - (addr + off) % 4096))
      (off, n) :: cutRequests addr len max fuel (off + n)

/-- Non-posted requests that a function may have outstanding (R122). -/
def Dev.tagLimit (d : Dev) (fn : Nat) : Nat :=
  match (d.fn fn).tagBits with
  | 14 => if d.on R.PCX_LINK_STATUS_flit (d.linkOf fn) then 4096 else 768
  | 10 => 768
  | _ => 256

/-- Outstanding requests of a function. -/
def Link.outstandingOf (l : Link) (fn : Nat) : Nat := (l.reads.filter (fun _ r => r.fn == fn)).size

/-! ## Address translation (R115, R120, notes/assumptions/11.md) -/

/-- A read request's page, where it asks for a translation. -/
def Read.asks (r : Read) (fn : Nat) (pasid : Option Nat) (page : Nat) : Bool :=
  r.why == ReadFor.translation pasid && r.fn == fn && r.addr == 4096 * page && !r.dead

/-- Where an address that is to be translated lies by the link's cache. -/
def Dev.atcHit (d : Dev) (fn addr : Nat) (pasid : Option Nat) : Option Nat :=
  ((d.link (d.linkOf fn)).atc.find? (fun e => e.fn == fn && e.pasid == pasid && e.base ≤ addr && addr < e.base + e.size)).map
    (fun e => e.target + (addr - e.base))

/-- The translation request for a page joins the requests of the link, where none is under way. -/
def Dev.queueTranslation (fn addr : Nat) (pasid : Option Nat) (d : Dev) : Dev :=
  let link := d.linkOf fn
  let l := d.link link
  if (l.queue ++ l.reads.vals).any (fun r => r.asks fn pasid (addr / 4096)) then d
  else d.onLink link (fun l => { l with
    queue := l.queue ++ [{ fn := fn, addr := addr / 4096 * 4096, len := 8, why := .translation pasid, attr := { pasid := pasid } }] })

/-- Where a request with these attributes goes: its address and attributes, none where it must await a translation. -/
def Dev.resolve (d : Dev) (fn addr : Nat) (a : Attr) : Option (Nat × Attr) :=
  let x := d.attrFor fn addr a
  if !x.ats then some (addr, x)
  else (d.atcHit fn addr x.pasid).map (fun t => (t, { x with ats := false, translated := true }))

/-- Issue the oldest request held back on a link, where the limits allow it; a read whose address awaits its translation steps aside. -/
def Dev.issueHeld (link : Nat) (d : Dev) : Dev :=
  let l := d.link link
  match l.queue with
  | [] => d
  | r :: rest =>
    if 4096 ≤ l.reads.size ∨ d.tagLimit r.fn ≤ l.outstandingOf r.fn then d
    else
      let tag := l.reads.lowestFree 0 4096
      match r.why with
      | .translation pasid =>
        (d.onLink link (fun l => { l with queue := rest, reads := l.reads.set tag r })).emit (.translationRequest r.fn tag r.addr pasid)
      | _ =>
        match d.resolve r.fn r.addr r.attr with
        | some (addr, a) =>
          (d.onLink link (fun l => { l with queue := rest, reads := l.reads.set tag { r with attr := a } })).emit
            (.hostRead r.fn tag addr r.len a)
        | none =>
          (d.onLink link (fun l => { l with queue := rest, parked := l.parked ++ [r] })).queueTranslation r.fn r.addr
            (d.attrFor r.fn r.addr r.attr).pasid

/-- Issue what the limits allow, in issue order (R122). -/
def Dev.pump (link : Nat) (d : Dev) : Dev :=
  Dev.each (List.range (2 * (d.link link).queue.length)) (fun _ d => d.issueHeld link) d

/-- The function of a posted request. -/
def Posted.fn : Posted → Nat
  | .write fn _ _ _ => fn
  | .message fn _ => fn

/-- Send the posted requests of a function in their order, up to one that must await its translation. -/
def Dev.flushPosted (fn : Nat) : List Posted → Dev → Dev
  | [], d => d
  | p :: l, d =>
    let link := d.linkOf fn
    let out := d.onLink link (fun l => { l with posted := l.posted.erase p })
    match p with
    | .message _ v => Dev.flushPosted fn l (out.sendMessage fn v)
    | .write _ addr data a =>
      match d.resolve fn addr a with
      | some (t, x) => Dev.flushPosted fn l (out.emit (.hostWrite fn t data x))
      | none => (d.queueTranslation fn addr (d.attrFor fn addr a).pasid).pump link

/-- The posted requests of a function that wait. -/
def Dev.postedOf (d : Dev) (fn : Nat) : List Posted := (d.link (d.linkOf fn)).posted.filter (fun p => p.fn == fn)

/-- Send what waits of a function's posted requests. -/
def Dev.sendPosted (fn : Nat) (d : Dev) : Dev := d.flushPosted fn (d.postedOf fn)

/-- One posted write of at most Max Payload Size. -/
def Dev.writePiece (fn addr : Nat) (data : List Byte) (a : Attr) (d : Dev) : Dev :=
  match d.resolve fn addr a, d.postedOf fn with
  | some (t, x), [] => d.emit (.hostWrite fn t data x)
  | _, l =>
    let d := d.onLink (d.linkOf fn) (fun k => { k with posted := k.posted ++ [.write fn addr data a] })
    if l.isEmpty then d.sendPosted fn else d

/-- A posted write of a function, in pieces of Max Payload Size. -/
def Dev.hostWrite (fn addr : Nat) (data : List Byte) (a : Attr) (d : Dev) : Dev :=
  Dev.each (cutRequests addr data.length (d.fn fn).maxPayload data.length 0)
    (fun p d => d.writePiece fn (addr + p.1) (sliceBytes data p.1 p.2) a) (d.leaveL1 (d.linkOf fn))

/-- A read of a function, in pieces of Max Read Request Size; `why` names what each piece is for by its offset and length. -/
def Dev.hostRead (fn addr len : Nat) (a : Attr) (why : Nat → Nat → ReadFor) (d : Dev) : Dev :=
  let link := d.linkOf fn
  let reqs := (cutRequests addr len (d.fn fn).maxRead len 0).map
    (fun p => ({ fn := fn, addr := addr + p.1, len := p.2, why := why p.1 p.2, attr := a } : Read))
  ((d.leaveL1 link).onLink link (fun l => { l with queue := l.queue ++ reqs })).pump link

/-- The cache entry that a translation completion gives for a page (PRESUMED, the ATS chapter of the Base specification): eight bytes,
the most significant first; bits 0 and 1 the permissions, bit 2 untranslated access only, bit 11 a size above 4 KiB. -/
def atcEntry (fn : Nat) (pasid : Option Nat) (page : Nat) (data : List Byte) : Option AtcEntry :=
  let w := beAt data 0 8
  if bits w 0 2 = 0 ∨ hasBit w 2 = true then none
  else
    let size := if hasBit w 11 then 8192 * 2 ^ (((List.range 51).find? (fun k => !hasBit w (12 + k))).getD 51) else 4096
    some { fn := fn, pasid := pasid, base := page * 4096 / size * size, size := size, target := w / size * size }

/-- A translation has come for a page, or none was granted; in that case what waits for it goes untranslated. -/
def Dev.translationDone (fn : Nat) (pasid : Option Nat) (page : Nat) (e : Option AtcEntry) (d : Dev) : Dev :=
  let link := d.linkOf fn
  let due (f addr : Nat) (a : Attr) : Bool := f == fn && addr / 4096 == page && a.ats && (d.attrFor f addr a).pasid == pasid
  let plain (a : Attr) : Attr := { a with ats := a.ats && e.isSome }
  let d := d.onLink link (fun l => { l with
    atc := match e with
      | some x => (if 16384 ≤ l.atc.length then l.atc.drop 1 else l.atc) ++ [x]
      | none => l.atc
    queue := ((l.parked.filter (fun r => due r.fn r.addr r.attr)).map (fun r => { r with attr := plain r.attr })) ++ l.queue
    parked := l.parked.filter (fun r => !due r.fn r.addr r.attr)
    posted := l.posted.map (fun p => match p with
      | .write f addr data a => if due f addr a then .write f addr data (plain a) else p
      | .message _ _ => p) })
  (d.pump link).sendPosted fn

/-- Translations of a range leave the link's cache; one that is under way is asked for again. -/
def Dev.invalidate (link addr size : Nat) (d : Dev) : Dev :=
  let hit (b n : Nat) : Bool := b < addr + size && addr < b + n
  let stale := ((d.link link).reads.filter (fun _ r => (match r.why with
    | .translation _ => !r.dead && hit r.addr 4096
    | _ => false))).vals
  let d := d.onLink link (fun l => { l with
    atc := l.atc.filter (fun e => !hit e.base e.size)
    reads := l.reads.mapVals (fun _ r => match r.why with
      | .translation _ => if hit r.addr 4096 then { r with dead := true } else r
      | _ => r)
    queue := l.queue ++ stale })
  d.pump link

/-- The translations of a function leave its link's cache. -/
def Dev.dropTranslations (fn : Nat) (d : Dev) : Dev :=
  d.onLink (d.linkOf fn) (fun l => { l with atc := l.atc.filter (fun e => e.fn != fn) })

/-- Data of the function's outstanding reads is to be discarded (R126, R127); requests held back are dropped. -/
def Dev.killReads (fn : Nat) (quarantine : Bool) (d : Dev) : Dev :=
  d.onLink (d.linkOf fn) (fun l => { l with
    queue := l.queue.filter (fun r => r.fn != fn)
    parked := l.parked.filter (fun r => r.fn != fn)
    reads := l.reads.mapVals (fun _ r => if r.fn == fn then { r with dead := true, quarantined := r.quarantined || quarantine } else r) })

/-- Descriptor reads of ring `r` are forgotten: what they bring is discarded. -/
def Dev.killFetches (r : Nat) (d : Dev) : Dev :=
  let its (x : Read) : Bool := match x.why with
    | .descriptors q _ _ => q == r
    | _ => false
  { d with links := d.links.mapVals (fun _ l => { l with
      queue := l.queue.filter (fun x => !its x)
      parked := l.parked.filter (fun x => !its x)
      reads := l.reads.mapVals (fun _ x => if its x then { x with dead := true } else x) }) }

end Sys2Proof.Machine
end

