-- ==== Sys2Proof/Machine/Firmware.lean ====
section
/-!
DEFINITION. Firmware's side of the partner channels (R417-R419): taking a request, answering it, and the notices that firmware
sends of its own.
-/

namespace Sys2Proof.Machine

/-- Messages that firmware holds or owes to a function: those not sent, and the answers of the requests it has taken. -/
def Dev.heldFor (d : Dev) (fn : Nat) : Nat := (d.fn fn).outbox.length + (d.jobs.filter (fun _ j => j.fn == fn && j.kind != 0)).size

/-- Queue a message on a function's receiving channel (R417). -/
def Dev.sendTo (fn : Nat) (words : List Nat) (d : Dev) : Dev :=
  if d.hasFn fn then (d.onFn fn (fun f => { f with outbox := f.outbox ++ [words] })).sendNext fn else d

/-- A notice of firmware's own; with sixteen messages held it is dropped (notes/assumptions/30.md). -/
def Dev.tell (fn : Nat) (words : List Nat) (d : Dev) : Dev := if 16 ≤ d.heldFor fn then d else d.sendTo fn words

/-- The response to a taken request. -/
def Dev.answerRequest (fn kind tag status : Nat) (results : List Nat) (d : Dev) : Dev :=
  d.sendTo fn ([0x80 + 256 * (kind % 256) + 65536 * (tag % 65536), status] ++ results)

/-- The S4400 answer: the kind with bit 7 set and the status in byte 1 (R430); the tag is kept. -/
def Dev.answerS44 (fn kind tag status : Nat) (results : List Nat) (d : Dev) : Dev :=
  d.sendTo fn ([kind + 0x80 + 256 * status + 65536 * (tag % 65536)] ++ results)

/-- The request that stands in a function's request channel. -/
def Dev.requestOf (d : Dev) (fn : Nat) : Option Msg := if d.hasFn fn then (d.chan (requestChannel fn)).held else none

/-- Kind and tag of a message; a word 0 whose bits 15:8 are not zero names no kind. -/
def Msg.kind (m : Msg) : Nat := m.words.getD 0 0 % 65536
def Msg.tag (m : Msg) : Nat := m.words.getD 0 0 / 65536 % 65536

/-- Firmware reads the request and acknowledges it. -/
def Dev.ackRequest (fn code : Nat) (d : Dev) : Dev := (d.latchView (requestChannel fn)).ackView (requestChannel fn) code

/-- Is the function a VF of S4400 personality (R428)? -/
def Dev.isS44 (d : Dev) (fn : Nat) : Bool := 16 ≤ fn && ((d.pf? (d.pfOf fn)).map PfRec.vfKind).getD 0 == 1

/-- Kinds that an S4400 VF may send, and kinds that it alone may send (R428, R430). -/
def s44Kind (kind : Nat) : Bool := 0x60 ≤ kind && kind ≤ 0x63

/-- Take the request in a function's channel where it has this kind: acknowledged as unknown where it is too short or of a kind
that the function's personality has not, as busy where sixteen messages are held, else acted on (R417, R428). -/
def Dev.takeKind (fn kind words : Nat) (act : Nat → List Nat → Dev → Dev) (d : Dev) : Dev :=
  match d.requestOf fn with
  | none => d
  | some m =>
    if m.kind ≠ kind then d
    else if m.len < 4 * words || (s44Kind kind && !d.isS44 fn) then d.ackRequest fn 2
    else if 16 ≤ d.heldFor fn then d.ackRequest fn 1
    else
      let d := d.ackRequest fn 0
      if d.isS44 fn && !s44Kind kind && kind != 0x34 then d.answerRequest fn kind m.tag 1 []
      else act m.tag m.words d

/-- The request kinds of R419, R430 and R467. -/
def requestKinds : List Nat :=
  [0x01, 0x02, 0x03, 0x04, 0x05, 0x06, 0x07, 0x08, 0x10, 0x11, 0x12, 0x13, 0x14, 0x20, 0x21, 0x22, 0x30, 0x31, 0x32, 0x33, 0x34,
   0x50, 0x51, 0x60, 0x61, 0x62, 0x63]

/-- A request of a kind that firmware does not know is acknowledged so. -/
def Dev.refuseUnknown (fn : Nat) (d : Dev) : Dev :=
  match d.requestOf fn with
  | some m => if requestKinds.contains m.kind then d else d.ackRequest fn 2
  | none => d

/-- A ring enters its error state: nothing that it was reading is accepted, and firmware tells the owner (R149, R419). One that is in
error stays as it is. -/
def Dev.ringError (r cause : Nat) (d : Dev) : Dev :=
  match d.ring? r with
  | none => d
  | some g =>
    if g.state = .error then d
    else
      let d := (d.killFetches r).onRing r (fun g => { g with state := .error, errorCause := cause, landed := {} })
      ((d.pushRingError r cause).cause qmgCauses 0).tell g.fn [0x46, r, cause]

end Sys2Proof.Machine
end

