-- ==== Sys2Proof/Machine/Shares.lean ====
section
/-!
DEFINITION. Transmit shares (R310-R321): the hierarchy's nodes, the distribution of a bar's credit, when a ring may issue a
descriptor read, and the debit at acceptance. Credit and balances are kept in 1/256 byte, rounded down (notes/assumptions/22.md).
-/

namespace Sys2Proof.Machine

/-- The key of a node: level and index; the leaf of an NVMe submission queue has an index of 2^22 or more. -/
def nodeKey (level index : Nat) : Nat := 8 * index + level

/-- The leaf of an NVMe submission queue. -/
def sqLeaf (fn q : Nat) : Nat := 2 ^ 22 + 65536 * fn + q

/-- The Tenant of a function: its own, or the host Tenant of its PF (R28, R421). -/
def Dev.tenantOf (d : Dev) (fn : Nat) : Nat := if fn < 16 then fn else (d.fn fn).tenant

/-- The node indices of a leaf from level 1 to level 7 (R28, R311). -/
def Dev.chain (d : Dev) (leaf group fn : Nat) : List Nat :=
  [leaf, group, fn, d.tenantOf fn, d.pfOf fn, d.linkOf fn, 0]

/-- The chain of an NVMe submission queue, which lies in no Ring Group (notes/assumptions/22.md). -/
def Dev.sqChain (d : Dev) (fn q : Nat) : List Nat := d.chain (sqLeaf fn q) (sqLeaf fn q) fn

/-- The parameters in force of a node in this bar (R312, R313, R317); the bar's start takes them from the node table, and those of links
and the root from their registers. -/
def Dev.nodeIn (d : Dev) (level index : Nat) : Node := d.sched.force.getD (nodeKey level index) {}

/-- A rate in Mb/s over `ticks` reference ticks, in 1/256 byte (R314). -/
def rateCredit (mbps ticks : Nat) : Nat := mbps * ticks * 128 / 1000

/-- A ceiling as credit; 0 is none. -/
def ceilCredit (mbps ticks : Nat) : Option Nat := if mbps = 0 then none else some (rateCredit mbps ticks)

/-- The lower of two credits, `none` being infinite. -/
def minCredit : Option Nat → Option Nat → Option Nat
  | none, b => b
  | a, none => a
  | some a, some b => some (min a b)

/-- A child in the distribution: index, weight, credit still below its ceiling, credit given. -/
structure Share where
  index : Nat
  weight : Nat
  room : Option Nat
  given : Nat
  deriving DecidableEq, Repr

/-- Does the child stand below its ceiling? -/
def Share.below (c : Share) : Bool := c.room != some 0

/-- Give a child more credit, up to its ceiling. -/
def Share.give (c : Share) (n : Nat) : Share :=
  match c.room with
  | none => { c with given := c.given + n }
  | some m => { c with given := c.given + min n m, room := some (m - min n m) }

/-- Share `rest` by weight among the children below their ceilings, again while some of it comes back (R314). -/
def shareRest : Nat → Nat → List Share → List Share
  | 0, _, l => l
  | fuel + 1, rest, l =>
    let w := ((l.filter Share.below).map Share.weight).sum
    if rest = 0 ∨ w = 0 then l
    else
      let l' := l.map (fun c => if c.below then c.give (rest * c.weight / w) else c)
      shareRest fuel (rest - ((l'.map Share.given).sum - (l.map Share.given).sum)) l'

/-- The credits of a parent's children, and whether floors were scaled. -/
def shareOut (credit : Option Nat) (kids : List (Nat × Node × Option Nat)) (ticks : Nat) : List (Nat × Option Nat) × Bool :=
  let c := kids.filter (fun k => k.2.1.weight != 0)
  match credit with
  | none => (c.map (fun k => (k.1, k.2.2)), false)
  | some total =>
    let floorOf := fun (k : Nat × Node × Option Nat) => (minCredit (some (rateCredit k.2.1.floor ticks)) k.2.2).getD 0
    let floors := (c.map floorOf).sum
    let scaled := total < floors
    let first := c.map (fun k =>
      let f := if scaled then floorOf k * total / floors else floorOf k
      ({ index := k.1, weight := k.2.1.weight, room := k.2.2.map (· - f), given := f } : Share))
    let l := shareRest (c.length + 2) (total - (first.map Share.given).sum) first
    (l.map (fun s => (s.index, some s.given)), scaled)

/-- The node index of a chain at a level. -/
def atLevel (c : List Nat) (level : Nat) : Option Nat := (c.drop (level - 1)).head?

/-- The nodes below node `p` of `level` that lie on the chains. -/
def kidsOf (chains : List (List Nat)) (level p : Nat) : List Nat :=
  ((chains.filter (fun c => atLevel c level == some p)).filterMap (fun c => atLevel c (level - 1))).dedup

/-- The distribution under way: the credit of each node reached, the debts left, and whether any floors were scaled. -/
structure Spread where
  credit : NMap (Option Nat) := {}
  debts : NMap Nat := {}
  scaled : Bool := false
  deriving DecidableEq, Repr

/-- A node's credit pays its debt first (R318, notes/assumptions/22.md). -/
def Spread.pay (s : Spread) (key : Nat) (credit : Option Nat) : Option Nat × Spread :=
  match credit with
  | none => (none, { s with debts := s.debts.erase key })
  | some c =>
    let debt := s.debts.getD key 0
    let left := debt - min debt c
    (some (c - min debt c), { s with debts := if left = 0 then s.debts.erase key else s.debts.set key left })

/-- The ceilings of a child: its own, and for a leaf those of the QPs that send on it (R319). -/
def Dev.ceilingOf (d : Dev) (level index ticks : Nat) (qpCeiling : Nat → Option Nat) : Option Nat :=
  let own := ceilCredit (d.nodeIn level index).ceiling ticks
  if level = 1 then minCredit own ((qpCeiling index).map (fun m => rateCredit m ticks)) else own

/-- Distribute one node's credit to its children. -/
def Dev.spreadNode (d : Dev) (chains : List (List Nat)) (ticks : Nat) (qpCeiling : Nat → Option Nat) (level p : Nat)
    (s : Spread) : Spread :=
  match s.credit.get? (nodeKey level p) with
  | none => s
  | some c =>
    let (c, s) := s.pay (nodeKey level p) c
    let kids := (kidsOf chains level p).map (fun k => (k, d.nodeIn (level - 1) k, d.ceilingOf (level - 1) k ticks qpCeiling))
    let (given, scaled) := shareOut c kids ticks
    { s with
      credit := given.foldl (fun m g => m.set (nodeKey (level - 1) g.1) g.2) s.credit
      scaled := s.scaled || scaled }

/-- The nodes of a level on the chains. -/
def levelNodes (chains : List (List Nat)) (level : Nat) : List Nat := (chains.filterMap (fun c => atLevel c level)).dedup

/-- The whole distribution, from level 7 to level 2 (R314); leaves in `exempt` take no part in their parent's (R318). -/
def Dev.spread (d : Dev) (chains : List (List Nat)) (exempt : List Nat) (ticks : Nat) (qpCeiling : Nat → Option Nat) : Spread :=
  let root : Spread := {
    credit := NMap.ofList [(nodeKey 7 0, ceilCredit (d.nodeIn 7 0).ceiling ticks)]
    debts := d.sched.debts }
  [7, 6, 5, 4, 3, 2].foldl (fun s level =>
    let down := if level = 2 then chains.filter (fun c => !exempt.contains (c.headD 0)) else chains
    (levelNodes chains level).foldl (fun s p => d.spreadNode down ticks qpCeiling level p s) s) root

/-- Does no node of the chain have weight 0 (R317)? -/
def Dev.chainOpen (d : Dev) (chain : List Nat) : Bool :=
  (chain.take 6).zipIdx.all (fun p => (d.nodeIn (p.2 + 1) p.1).weight != 0)

/-- The balance of a leaf. -/
def Dev.balance (d : Dev) (leaf : Nat) : Int := d.sched.balances.getD leaf 0

/-- The burst limit of a leaf, in 1/256 byte; 0 acts as stored, 1 KiB (R313). -/
def Dev.burstOf (d : Dev) (leaf : Nat) : Int := 256 * 1024 * (max 1 (d.nodeIn 1 leaf).burst : Nat)

/-- Is the port binding open: budget above zero, and the class not paused at the bar's start (R316)? -/
def Dev.bindingOpen (d : Dev) (leaf : Nat) (timed : Bool) : Bool :=
  let n := d.nodeIn 1 leaf
  !n.macValid || ((timed || decide (0 < d.sched.budgets.getD n.mac 0)) && !hasBit (d.sched.paused.getD n.mac 0) n.tc)

/-- May a leaf issue a descriptor read now (R314-R318)? The packet cap is not among the conditions. -/
def Dev.creditOpen (d : Dev) (chain : List Nat) (timed : Bool) : Bool :=
  let leaf := chain.headD 0
  d.chainOpen chain && d.bindingOpen leaf timed &&
  (if timed then decide (d.burstOf leaf - 256 * 2048 < d.balance leaf) else decide (0 < d.balance leaf))

/-- Is the packet cap of the bar reached (R315)? -/
def Dev.capReached (d : Dev) : Bool := d.rd R.SCH_STATUS_cap ≤ d.sched.taken

/-- Debit the `bytes` of an accepted descriptor: the leaf's balance, its port budget, and for a timed ring every ancestor;
`item` counts an item against the cap (R314-R316, R318). -/
def Dev.debit (chain : List Nat) (bytes : Nat) (timed item : Bool) (d : Dev) : Dev :=
  let leaf := chain.headD 0
  let n := d.nodeIn 1 leaf
  let s := d.sched
  let taken := if item && !timed then s.taken + 1 else s.taken
  let debts := if timed then
      (chain.zipIdx.drop 1).foldl (fun m p => m.upd (nodeKey (p.2 + 1) p.1) 0 (· + 256 * bytes)) s.debts
    else s.debts
  { d with sched := { s with
    balances := s.balances.set leaf (d.balance leaf - 256 * bytes)
    budgets := if n.macValid then s.budgets.upd n.mac 0 (· - 256 * bytes) else s.budgets
    debts := debts
    taken := taken
    capped := s.capped || (s.taken < taken && decide (d.rd R.SCH_STATUS_cap ≤ taken)) } }

/-- Nodes are removed with their objects, and what they owe with them (R321). -/
def Dev.dropNodes (keys : List Nat) (d : Dev) : Dev :=
  let drop {α : Type} (m : NMap α) : NMap α := m.filter (fun k _ => !keys.contains k)
  { d with sched := { d.sched with nodes := drop d.sched.nodes, force := drop d.sched.force, debts := drop d.sched.debts } }

/-- A leaf that is created starts with a balance of zero (R321). -/
def Dev.freshBalance (leaf : Nat) (d : Dev) : Dev := { d with sched := { d.sched with balances := d.sched.balances.erase leaf } }

/-- A read was withheld because of the cap. -/
def Dev.markCapped (d : Dev) : Dev := { d with sched := { d.sched with capped := true } }

end Sys2Proof.Machine
end

