-- ==== Sys2Proof/Machine/Rings.lean ====
section
/-!
DEFINITION. Rings (R134-R153): contexts, doorbells, descriptor reads and acceptance, completions and their interrupts, notify
records, waiting frames' accounting, and the QMG registers' commands.
-/

namespace Sys2Proof.Machine

/-! ## Contexts (R135) -/

/-- The code of a ring's state. -/
def RingState.code : RingState → Nat
  | .disabled => 0
  | .enabled => 1
  | .stalled => 2
  | .error => 3

/-- The 32 words of a ring context. -/
def Ring.contextWords (g : Ring) : List Nat :=
  [g.descBase % 2 ^ 32, g.descBase / 2 ^ 32, g.cplBase % 2 ^ 32, g.cplBase / 2 ^ 32,
   g.log2 + 32 * g.kind + 128 * g.formatA.toNat + 256 * g.state.code + 1024 * g.roData.toNat + 2048 * g.nsData.toNat +
     4096 * g.tph.toNat + 8192 * g.pasidEn.toNat + 16384 * g.ats.toNat + 32768 * g.lateDrop.toNat + 65536 * g.vector +
     2 ^ 27 * g.errorCause,
   g.fn + 16384 * g.gen, g.group + 2 ^ 18 * g.slot, g.pasid, g.tphTag + 65536 * g.rxHoldKib,
   g.irqCount + 256 * g.irqTime + 65536 * g.armed.toNat,
   g.nextSeq % 2 ^ 32, g.nextSeq / 2 ^ 32 + 65536 * g.producer, g.fetchPos + 65536 * g.cplPos,
   g.cqHead + 65536 * g.waiting.length, g.launchSlot + 128 * g.launchBound.toNat, g.tsRing + 2 ^ 22 * g.tsEnable.toNat] ++
  (List.range 16).map (fun n => g.unit.getD n 0)

/-- Bytes of a descriptor and of a completion. -/
def Ring.descSize (g : Ring) : Nat := if g.formatA then 16 else 32
def Ring.cplSize (g : Ring) : Nat := if g.formatA then 8 else 16

/-- Attributes that a ring's requests ask for, by class (R120). -/
def Ring.descAttr (g : Ring) : Attr := { ats := g.ats, pasid := if g.pasidEn then some g.pasid else none }
def Ring.readAttr (g : Ring) : Attr := { g.descAttr with relaxed := g.roData, noSnoop := g.nsData }
def Ring.writeAttr (g : Ring) : Attr := { g.readAttr with steering := if g.tph then some g.tphTag else none }
def Ring.cplAttr (g : Ring) : Attr := { g.descAttr with steering := if g.tph then some g.tphTag else none }

/-- Completions written and not consumed (R145). -/
def Ring.pendingCpl (g : Ring) : Nat := (g.cplPos + g.size - g.cqHead % g.size) % g.size

/-- Descriptors posted and not yet completed (R138). -/
def Ring.outstanding (g : Ring) : Nat := (g.producer + g.size - g.cplPos) % g.size

/-- May the ring reach its host now? -/
def Dev.ringReady (d : Dev) (r : Nat) : Bool :=
  match d.ring? r with
  | some g => d.canIssue g.fn
  | none => false

/-! ## The context cache (R136) -/

/-- A context is used: a miss counts and fills the cache; the one that leaves a full cache is free (notes/assumptions/2.md). -/
def Dev.useContext (r : Nat) (d : Dev) : Dev :=
  if d.ctxCache.contains r then d
  else
    let (v, d) := if 65536 ≤ d.ctxCache.length then d.free else (0, d)
    let kept := if 65536 ≤ d.ctxCache.length then d.ctxCache.eraseIdx (v % d.ctxCache.length) else d.ctxCache
    { d with ctxCache := r :: kept }.bump R.QMG_CACHE_MISSES_count

/-! ## Interrupts (R145) -/

/-- irq_count, 0 meaning 256. -/
def Ring.irqLimit (g : Ring) : Nat := if g.irqCount = 0 then 256 else g.irqCount

/-- Is the raising condition met? -/
def Ring.irqDue (g : Ring) : Bool := 0 < g.pendingCpl && (g.irqLimit ≤ g.pendingCpl || g.expired)

/-- Raise the ring's vector once, where it is armed and the condition is met. -/
def Dev.checkIrq (r : Nat) (d : Dev) : Dev :=
  match d.ring? r with
  | some g => if g.armed && g.irqDue then (d.onRing r (fun g => { g with armed := false })).sendVector g.fn g.vector else d
  | none => d

/-- cpl_pos moves by `n`: the timer starts at the first pending completion, an irq_time of 0 at once. -/
def Dev.advanceCpl (r n : Nat) (d : Dev) : Dev :=
  (d.onRing r (fun g =>
    let first := g.pendingCpl == 0
    let g := { g with cplPos := (g.cplPos + n) % g.size }
    if first then { g with timer := g.irqTime != 0, expired := g.irqTime == 0 } else g)).checkIrq r

/-- cq_head takes a value; at cpl_pos the timer is cancelled (R145). -/
def Dev.moveHead (r head : Nat) (arm : Bool) (d : Dev) : Dev :=
  (d.onRing r (fun g =>
    let g := { g with cqHead := head, armed := g.armed || arm }
    if g.pendingCpl == 0 then { g with timer := false, expired := false } else g)).checkIrq r

/-! ## Completions (R143, R144) -/

/-- The phase of sequence `s` in a ring. -/
def Ring.phase (g : Ring) (s : Nat) : Nat := 1 - s / g.size % 2

/-- Word 3 of a Format B completion or record. -/
def Ring.seqWord (g : Ring) (s mark : Nat) : Nat := s % 65536 + 65536 * (mark % 16384) + 2 ^ 31 * g.phase s

/-- A status of Format A (R151). -/
def statusA : Nat → Nat
  | 0 => 0
  | 1 => 1
  | 2 => 2
  | 6 => 3
  | _ => 4

/-- The bytes of a completion for sequence `s`. -/
def Ring.cplBytes (g : Ring) (s : Nat) (c : Cpl) : List Byte :=
  if g.formatA then
    leBytes (c.length % 65536 + 65536 * c.eop.toNat + 2 ^ 17 * bit c.csum 1 + 2 ^ 18 * bit c.csum 0 + 2 ^ 19 * c.stripped.toNat +
      2 ^ 20 * statusA c.status + 2 ^ 31) 4 ++ leBytes (c.tci % 65536) 2 ++ leBytes (c.hash % 65536) 2
  else
    leBytes (c.length % 2 ^ 24) 3 ++ leBytes c.status 1 ++ leBytes c.hash 4 ++
      leBytes (c.tci % 65536 + 2 ^ 16 * c.l3 + 2 ^ 18 * c.l4 + 2 ^ 20 * c.tunnelled.toNat + 2 ^ 24 * c.csum +
        2 ^ 28 * c.stripped.toNat + 2 ^ 29 * c.eop.toNat + 2 ^ 30 * c.tsLost.toNat) 4 ++ leBytes (g.seqWord s c.mark) 4

/-- A completion becomes owed. -/
def Dev.owe (r s : Nat) (c : Cpl) (d : Dev) : Dev :=
  d.onRing r (fun g => { g with owed := g.owed ++ [{ seq := s, bytes := g.cplBytes s c }] })

/-- How many of the owed entries one write may hold: consecutive, at most four, inside one 64-byte block (R144). -/
def Ring.batch (g : Ring) : Nat :=
  match g.owed with
  | [] => 0
  | o :: rest =>
    let at_ := o.seq % g.size * g.cplSize
    let room := min 4 ((64 - at_ % 64) / g.cplSize)
    if o.ready then 1 + ((rest.take (room - 1)).zipIdx.takeWhile (fun p => p.1.ready && p.1.seq == o.seq + 1 + p.2)).length else 0

/-- Write one batch of owed entries, where the host can be reached. -/
def Dev.writeOwed (r : Nat) (d : Dev) : Dev :=
  match d.ring? r with
  | none => d
  | some g =>
    match g.owed with
    | [] => d
    | o :: _ =>
      if !d.canIssue g.fn || !o.ready then d
      else
        let n := g.batch
        let data := (g.owed.take n).flatMap Owed.bytes
        let d := (d.useContext r).onRing r (fun g => { g with owed := g.owed.drop n })
        let d := d.hostWrite g.fn (g.cplBase + g.cplSize * (o.seq % g.size)) data g.cplAttr
        if g.kind = 3 then d else d.advanceCpl r n

/-- Write every owed entry. -/
def Dev.flushOwed (r : Nat) (d : Dev) : Dev :=
  match d.ring? r with
  | some g => Dev.each (List.range g.owed.length) (fun _ d => d.writeOwed r) d
  | none => d

/-! ## Notify records (R148) -/

/-- Does the ring take records? On a stalled one they wait to be written. -/
def Ring.takesRecords (g : Ring) : Bool := g.kind == 3 && (decide (g.state = .enabled) || decide (g.state = .stalled))

/-- Is there a notify ring with room? -/
def Dev.notifyRoom (d : Dev) (r : Nat) : Bool :=
  match d.ring? r with
  | some g => g.takesRecords && g.pendingCpl < g.size - 1
  | none => false

/-- Write a record's three words; the answer says whether the ring took it. A full ring sets notify_full. -/
def Dev.notify (r : Nat) (words : List Nat) (d : Dev) : Bool × Dev :=
  match d.ring? r with
  | some g =>
    if d.notifyRoom r then
      let s := g.nextSeq
      let bytes := (words ++ [g.seqWord s 0]).flatMap (fun w => leBytes w 4)
      let d := (d.useContext r).onRing r (fun g => { g with nextSeq := (g.nextSeq + 1) % 2 ^ 48, owed := g.owed ++ [{ seq := s, bytes := bytes }] })
      (true, (d.advanceCpl r 1).flushOwed r)
    else (false, if g.takesRecords then d.cause qmgCauses 5 else d)
  | none => (false, d)

/-! ## Ring errors and acceptance (R138, R139, R142, R149) -/

/-- A received frame's buffer of a descriptor. -/
def Desc.bufLen (x : Desc) : Nat := if x.bytes.length = 16 then leAt x.bytes 8 2 else leAt x.bytes 8 3
def Desc.addr (x : Desc) : Nat := leAt x.bytes 0 8

/-- Is a receive descriptor well formed (R142, R151)? -/
def Desc.rxOk (x : Desc) : Bool :=
  256 ≤ x.bufLen &&
  (if x.bytes.length = 16 then leAt x.bytes 10 6 == 0
   else x.bufLen ≤ 65536 && byteAt x.bytes 11 == 0 && leAt x.bytes 12 20 == 0)

/-- Malformed descriptors at the head of a receive ring's buffers complete with status 0x01 (R142, R143). -/
def Dev.rejectBuffers (r : Nat) : Nat → Dev → Dev
  | 0, d => d
  | fuel + 1, d =>
    match d.ring? r with
    | some g =>
      match g.buffers with
      | b :: rest =>
        if b.rxOk then d
        else
          Dev.rejectBuffers r fuel ((d.onRing r (fun g => { g with buffers := rest })).owe r b.seq { status := 1, eop := true } |>.flushOwed r)
      | [] => d
    | none => d

/-- Is the ring one of those the scheduler gates (R310)? -/
def Ring.scheduled (g : Ring) : Bool := g.kind == 0 || g.kind == 2

/-- The chain of nodes of ring `r`. -/
def Dev.ringChain (d : Dev) (r : Nat) (g : Ring) : List Nat := d.chain r g.group g.fn

/-- Does the descriptor end an item: a frame's last descriptor, or any work descriptor? -/
def Ring.endsItem (g : Ring) (bytes : List Byte) : Bool :=
  g.kind == 2 || hasBit (leAt bytes 8 4) (if g.formatA then 16 else 25)

/-- A request accepted on a work ring names the ring that its QP's rate limits (R319). -/
def Dev.noteSendRing (r fn : Nat) (bytes : List Byte) (d : Dev) : Dev :=
  let q := leAt bytes 5 3
  if leAt bytes 11 1 % 16 ≤ 4 && ((d.ctxs.get? q).map (fun b => leAt b 4 2 % 16384)) == some fn then
    { d with qps := d.qps.modify q (fun x => { x with sendRing := some r }) }
  else d

/-- Accept one descriptor (R139): a scheduled ring is debited by its length field (R314). -/
def Dev.accept (r : Nat) (bytes : List Byte) (d : Dev) : Dev :=
  let d := d.useContext r
  match d.ring? r with
  | none => d
  | some g =>
    let x : Desc := { seq := g.nextSeq, bytes := bytes }
    let d := if g.scheduled then d.debit (d.ringChain r g) x.bufLen g.launchBound (g.endsItem bytes) else d
    let d := if g.kind = 2 then d.noteSendRing r g.fn bytes else d
    d.onRing r (fun g => { g with
      nextSeq := (g.nextSeq + 1) % 2 ^ 48
      gen := (d.fn g.fn).gen
      accepted := if g.kind = 1 then g.accepted else g.accepted ++ [x]
      buffers := if g.kind = 1 then g.buffers ++ [x] else g.buffers })

/-- Stamp what has landed, in index order; what waits in the ring's order is left to later commands (R139). -/
def Dev.stampLanded (r : Nat) : Nat → Dev → Dev
  | 0, d => d
  | fuel + 1, d =>
    match d.ring? r with
    | none => d
    | some g =>
      match g.landed.get? (g.nextSeq % g.size) with
      | none => d
      | some b =>
        Dev.stampLanded r fuel ((d.onRing r (fun g => { g with landed := g.landed.erase (g.nextSeq % g.size) })).accept r b)

/-- The descriptor reads of at most 2 KiB that cover `n` entries from `pos` on, inside the array. -/
def fetchRuns (size per : Nat) : Nat → Nat → Nat → List (Nat × Nat)
  | 0, _, _ => []
  | fuel + 1, pos, n =>
    if n = 0 then []
    else
      let k := min n (min per (size - pos))
      (pos, k) :: fetchRuns size per fuel ((pos + k) % size) (n - k)

/-- Issue reads of the next `n` eligible descriptors. -/
def Dev.issueFetch (r : Nat) (g : Ring) (n : Nat) (d : Dev) : Dev :=
  let runs := fetchRuns g.size (2048 / g.descSize) n g.fetchPos n
  let d := d.onRing r (fun g => { g with fetchPos := (g.fetchPos + n) % g.size })
  Dev.each runs (fun p d => d.hostRead g.fn (g.descBase + g.descSize * p.1) (g.descSize * p.2) g.descAttr
    (fun off len => .descriptors r (p.1 + off / g.descSize) (len / g.descSize))) d

/-- Descriptors posted and not yet read; read and not yet accepted. -/
def Ring.eligible (g : Ring) : Nat := (g.producer + g.size - g.fetchPos) % g.size
def Ring.inFlight (g : Ring) : Nat := (g.fetchPos + g.size - g.nextSeq % g.size) % g.size

/-- Read eligible descriptors, as far as the scheduler gives credit (R139, R310, R314, R315); after the orderly-shutdown command,
while the ring is being disabled, and from the first step of a function reset on, none (R78, R420, R425). -/
def Dev.fetch (r : Nat) (d : Dev) : Dev :=
  match d.ring? r with
  | none => d
  | some g =>
    if d.boot.shutdown || g.stopping || g.state != .enabled || !d.canIssue g.fn || (d.fn g.fn).reset != .none then d
    else if !g.scheduled then d.issueFetch r g g.eligible
    else
      let n := min g.eligible (64 - min 64 g.inFlight)
      if n = 0 || !d.creditOpen (d.ringChain r g) g.launchBound then d
      else if d.capReached && !g.launchBound then d.markCapped
      else d.issueFetch r g n

/-- The descriptors that were being read, and have not come, are read again; fetch_pos stays (R136, R139). -/
def Dev.refetch (r : Nat) (d : Dev) : Dev :=
  match d.ring? r with
  | none => d
  | some g =>
    if g.state = .enabled ∧ d.canIssue g.fn = true then
      (d.onRing r (fun g => { g with landed := {}, fetchPos := g.nextSeq % g.size })).issueFetch r { g with fetchPos := g.nextSeq % g.size } g.inFlight
    else d

/-- Act on a producer value (R138). -/
def Dev.actProducer (r v : Nat) (d : Dev) : Dev :=
  match d.ring? r with
  | none => d
  | some g =>
    if g.size ≤ v then d.ringError r 3
    else
      let advance := (v + g.size - g.producer) % g.size
      let free := g.size - 1 - g.outstanding
      if advance = 0 then d
      else if free < advance then (d.ringError r 2).bump R.QMG_DB_OVERRUNS_count
      else (d.onRing r (fun g => { g with producer := v })).fetch r

/-- A doorbell that nothing takes (R137, R149). -/
def Dev.ignoreDoorbell (d : Dev) : Dev := (d.bump R.QMG_DB_IGNORED_count).cause qmgCauses 2

/-- The ring that a function's doorbell page and slot name. -/
def Dev.doorbellRing (d : Dev) (fn page slot : Nat) : Option Nat :=
  (d.groups.find? (fun _ g => g.fn == fn && g.page == page)).bind (fun k => (d.groups.getD k { fn := fn, page := page }).slots.get? slot)

/-- Do writes of the function's BARs act: it is in D0 and not in reset, and Memory Space Enable is set (R115, R119, R126)? -/
def Dev.doorbellOpen (d : Dev) (fn : Nat) : Bool :=
  d.hasFn fn && (d.fn fn).memSpace && !(d.fn fn).d3 && decide ((d.fn fn).reset = .none)

/-- A producer write to a doorbell slot, by the ring's state (R149); after the orderly-shutdown command nothing is fetched (R78). -/
def Dev.producerWrite (fn page slot v : Nat) (d : Dev) : Dev :=
  if !d.doorbellOpen fn then d
  else
    match d.doorbellRing fn page slot with
    | none => d.ignoreDoorbell
    | some r =>
      match d.ring? r with
      | none => d.ignoreDoorbell
      | some g =>
        let record (d : Dev) : Dev := d.onRing r (fun g => { g with slotProducer := v % 65536 })
        let d := d.useContext r
        match g.state with
        | .disabled => d.ignoreDoorbell
        | .error => record d
        | .stalled => record d
        | .enabled => if g.kind = 3 || g.stopping then record d else (record d).actProducer r v

/-- A cq_head write (R145). -/
def Dev.headWrite (fn page slot head : Nat) (arm : Bool) (d : Dev) : Dev :=
  if !d.doorbellOpen fn then d
  else
    match d.doorbellRing fn page slot with
    | none => d.ignoreDoorbell
    | some r =>
      if (d.ring? r).isNone then d.ignoreDoorbell else (d.useContext r).moveHead r head arm

/-- The value of a doorbell slot's word (R137). -/
def Dev.doorbellWord (d : Dev) (fn page off : Nat) : Nat :=
  match (d.doorbellRing fn page (off / 16)).bind d.ring? with
  | none => 0
  | some g =>
    if off % 16 / 4 = 0 then g.slotProducer
    else if off % 16 / 4 = 1 then g.cqHead + 65536 * g.armed.toNat
    else 0

/-- A stalled ring resumes, or firmware restarts one in error: what it was reading is forgotten from its last committed position on and
read again, and the slot's producer value acts where R138 admits it (R127, R149). A value that R138 does not admit puts the ring in
error again, with its counts (DEDUCED, notes/assumptions/70.md). -/
def Dev.resumeRing (r : Nat) (d : Dev) : Dev :=
  match d.ring? r with
  | none => d
  | some g =>
    let d := (d.killFetches r).onRing r (fun g => { g with
      state := .enabled
      landed := {}
      fetchPos := g.nextSeq % g.size })
    let d := if g.kind = 3 then d else (d.fetch r).actProducer r g.slotProducer
    d.flushOwed r

/-- Mark a ring stalled (R126, R127). -/
def Dev.stallRing (r : Nat) (d : Dev) : Dev :=
  (d.killFetches r).onRing r (fun g => if g.state = .enabled then { g with state := .stalled, landed := {}, fetchPos := g.nextSeq % g.size } else g)

/-- The rings of a function. -/
def Dev.ringsOf (d : Dev) (fn : Nat) : List Nat := (d.rings.filter (fun _ g => g.fn == fn)).keys

/-- The descriptors of a read that returned with success; after the orderly-shutdown command none is accepted (R78). -/
def Dev.landDescriptors (r first : Nat) (data : List Byte) (d : Dev) : Dev :=
  match d.ring? r with
  | none => d
  | some g =>
    if g.state ≠ .enabled ∨ d.boot.shutdown = true then d
    else
      let n := data.length / g.descSize
      let got := (List.range n).foldl (fun m k => m.set (first + k) (sliceBytes data (k * g.descSize) g.descSize)) g.landed
      let d := d.onRing r (fun g => { g with landed := got })
      let d := Dev.stampLanded r g.size d
      (d.rejectBuffers r g.size).fetch r

/-! ## Commands -/

/-- Are the posted credits of the function's link withheld (R83)? -/
def Dev.withholds (d : Dev) (fn : Nat) : Bool := d.boot.logFull.contains (d.linkOf fn)

/-- A posted write stays on its link. -/
def Dev.withhold (w : HeldWrite) (d : Dev) : Dev := { d with boot := { d.boot with withheld := d.boot.withheld ++ [w] } }

/-- Log a doorbell write during a service reset (R83). When 65,536 entries are in the log, the link's posted credits are withheld, and
the write waits on the link. -/
def Dev.logDoorbell (fn page slot word value : Nat) (d : Dev) : Dev :=
  if d.boot.log.length < 65536 then { d with boot := { d.boot with log := d.boot.log ++ [(fn, page, slot, word, value)] } }
  else
    { d with boot := { d.boot with logFull := d.linkOf fn :: d.boot.logFull } }.withhold (.doorbell fn page slot word value)

/-- A write to a doorbell slot: the producer (word 0), or cq_head with arm in bit 16 (word 1). -/
def Dev.doorbellWrite (fn page slot word value : Nat) (d : Dev) : Dev :=
  if word = 0 then d.producerWrite fn page slot value else d.headWrite fn page slot (value % 65536) (65536 ≤ value)

/-- As it arrives: withheld on its link, logged by a service reset, or acted on (R83). -/
def Dev.doorbellArrives (fn page slot word value : Nat) (d : Dev) : Dev :=
  if d.withholds fn then d.withhold (.doorbell fn page slot word value)
  else if d.phase = .running then d.doorbellWrite fn page slot word value
  else if d.phase = .serviceReset then d.logDoorbell fn page slot word value
  else d

/-- DOORBELL_PRODUCER_WRITE. -/
def execDoorbellProducerWrite (fn page slot producer : Nat) (s : State) : Out := s.onDev (Dev.doorbellArrives fn page slot 0 producer)

/-- DOORBELL_CQ_HEAD_WRITE. -/
def execDoorbellCqHeadWrite (fn page slot cqHead : Nat) (arm : Bool) (s : State) : Out :=
  s.onDev (Dev.doorbellArrives fn page slot 1 (cqHead % 65536 + 65536 * arm.toNat))

/-- IRQ_TIME_EXPIRY: irq_time has passed since the first pending completion. -/
def execIrqTimeExpiry (ring : Nat) (s : State) : Out :=
  s.onRun (fun d => match d.ring? ring with
    | some g => if g.timer then (d.onRing ring (fun g => { g with timer := false, expired := true })).checkIrq ring else d
    | none => d)

/-- May master `mid` see the context of ring `r` (R152)? -/
def Dev.mayRead (d : Dev) (mid r : Nat) : Bool :=
  match d.ring? r with
  | some g => if isFnMid mid then d.pfOf g.fn == mid - 0x1000 else isCoreMid mid || mid == midDebug
  | none => false

/-- QMG_CTX_CMD.snap: starts a snapshot, or denies it. -/
def Dev.ctxSnapStart (mid ring : Nat) (d : Dev) : Dev :=
  if d.on R.QMG_CTX_STATUS_busy then d
  else { d with ctxSnap := some (mid, ring) }.wr R.QMG_CTX_STATUS_busy 1

/-- The snapshot lands. -/
def Dev.ctxSnapEnd (d : Dev) : Dev :=
  match d.ctxSnap with
  | none => d
  | some (mid, r) =>
    let words := match d.ring? r with
      | some g => if d.mayRead mid r then g.contextWords else List.replicate 32 0
      | none => List.replicate 32 0
    let ok := d.mayRead mid r
    let d := { d with ctxSnap := none }
    let d := Dev.each (List.range 32) (fun n d => d.wr R.QMG_CTX_DATA_data (words.getD n 0) 0 (4 * n)) d
    ((d.wr R.QMG_CTX_STATUS_busy 0).wr R.QMG_CTX_STATUS_valid ok.toNat).wr R.QMG_CTX_STATUS_denied (!ok).toNat

/-- QMG_CTX_SNAP: the snap bit is written while QMG_CTX_SELECT names `ring`. -/
def execQmgCtxSnap (mid ring : Nat) (s : State) : Out :=
  s.onRun (fun d => (d.wr R.QMG_CTX_SELECT_ring ring).ctxSnapStart mid (ring % 2 ^ 22))

/-- QMG_CTX_SNAP_DONE. -/
def execQmgCtxSnapDone (s : State) : Out := s.onRun Dev.ctxSnapEnd

/-- Pop QMG_ERR_FIFO: its value, and the device after it. -/
def Dev.popRingError (d : Dev) : Nat × Dev :=
  match d.ringErrors with
  | [] => (0, d)
  | w :: rest => (w, { d with ringErrors := rest })

/-- QMG_ERR_FIFO_READ. -/
def execQmgErrFifoRead (mid : Nat) (s : State) : Out :=
  s.onRun (fun d => let p := d.popRingError; p.2.emit (.answer mid p.1))

end Sys2Proof.Machine
end

