-- ==== Sys2Proof/Machine/Tables.lean ====
section
/-!
DEFINITION. The Match Table Unit (R207-R238): entries, hashing, lookup, insertion and its do-si-do paths, rehash, the hot cache,
command ports, aging, learning, the background compare, prefixes and ternary entries.
-/

namespace Sys2Proof.Machine

/-- Change the Match Table Unit. -/
def Dev.onMtb (d : Dev) (f : Mtb → Mtb) : Dev := { d with mtb := f d.mtb }

/-! ## Entries (R209-R211) -/

/-- A byte string cut or padded with zeros to `n` bytes. -/
def padTo (n : Nat) (l : List Byte) : List Byte := (l ++ List.replicate n 0).take n

/-- The 64 bytes of an entry; `bver` is 0 for slots 1-3. -/
def MtbEntry.bytes (e : MtbEntry) (bver : Nat) : List Byte :=
  leBytes (e.valid.toNat + 2 * e.static.toNat + 4 * e.learned.toNat + 8 * e.pinned.toNat + 16 * e.gen + 32 * e.moves +
    256 * e.table + 4096 * e.scope + 65536 * bver) 4 ++
  leBytes e.lastHit 4 ++ leBytes e.moveStart 4 ++ leBytes e.pinUntil 4 ++ padTo 32 e.key ++ padTo 16 e.result

/-- The entry that 64 bytes spell. -/
def MtbEntry.ofBytes (b : List Byte) : MtbEntry :=
  let w := leAt b 0 4
  { valid := hasBit w 0
    static := hasBit w 1
    learned := hasBit w 2
    pinned := hasBit w 3
    gen := bit w 4
    moves := bits w 5 3
    table := bits w 8 4
    scope := bits w 12 4
    lastHit := leAt b 4 4
    moveStart := leAt b 8 4
    pinUntil := leAt b 12 4
    key := sliceBytes b 16 32
    result := sliceBytes b 48 16 }

/-- Slot `i` (4 × bucket + slot). -/
def Cuckoo.slot (c : Cuckoo) (i : Nat) : MtbEntry := c.slots.getD i {}

/-- The bytes of slot `i`. -/
def Cuckoo.slotBytes (c : Cuckoo) (i : Nat) : List Byte :=
  (c.slot i).bytes (if i % 4 = 0 then c.bver.getD (i / 4) 0 else 0)

/-- Write slot `i`; the bucket's version moves on when valid flag, scope, key or result change (R209). -/
def Cuckoo.put (c : Cuckoo) (i : Nat) (e : MtbEntry) : Cuckoo :=
  let o := c.slot i
  { slots := if e = {} then c.slots.erase i else c.slots.set i e
    bver := if o.valid == e.valid && o.scope == e.scope && padTo 32 o.key == padTo 32 e.key && padTo 16 o.result == padTo 16 e.result
      then c.bver else c.bver.upd (i / 4) 0 (fun v => (v + 1) % 65536) }

/-- Erase slot `i`. -/
def Cuckoo.erase (c : Cuckoo) (i : Nat) : Cuckoo := c.put i {}

/-! ## Tables and seeds (R207, R208, R212, R219) -/

def Dev.tabKind (d : Dev) (t : Nat) : Nat := if t < 16 then d.rd R.MTB_TABLE_CFG_kind 0 (32 * t) else 0
def Dev.tabKeyLen (d : Dev) (t : Nat) : Nat := d.rd R.MTB_TABLE_CFG_key_len 0 (32 * t)
def Dev.tabSize (d : Dev) (t : Nat) : Nat := 2 ^ d.rd R.MTB_TABLE_CFG_log2_size 0 (32 * t)
def Dev.tabWide (d : Dev) (t : Nat) : Bool := d.on R.MTB_TABLE_CFG_entry128 0 (32 * t)
def Dev.curGen (d : Dev) (t : Nat) : Nat := d.rd R.MTB_TABLE_GEN_cur_gen 0 (32 * t)

/-- Is table `t` being rehashed? -/
def Dev.rehashing (d : Dev) (t : Nat) : Bool := d.on R.MTB_STATUS_rehash_active && d.rd R.MTB_STATUS_rehash_table == t

/-- The generation that new entries are placed under. -/
def Dev.newGen (d : Dev) (t : Nat) : Nat := if d.rehashing t then 1 - d.curGen t else d.curGen t

/-- A cuckoo table. -/
def Dev.cuckoo (d : Dev) (t : Nat) : Cuckoo := d.mtb.tables.getD t {}

/-- Replace a cuckoo table. -/
def Dev.setCuckoo (t : Nat) (c : Cuckoo) (d : Dev) : Dev := d.onMtb (fun m => { m with tables := m.tables.set t c })

/-- seed0 and seed1 of generation `g`. -/
def Dev.seeds (d : Dev) (t g : Nat) : Nat × Nat :=
  if g = 0 then (d.rd R.MTB_TABLE_SEED0_seed 0 (32 * t), d.rd R.MTB_TABLE_SEED1_seed 0 (32 * t))
  else (d.rd R.MTB_TABLE_SEED2_seed 0 (32 * t), d.rd R.MTB_TABLE_SEED3_seed 0 (32 * t))

/-- h0, b0 and b1 of a key under generation `g` (R212). -/
def Dev.buckets (d : Dev) (t g scope : Nat) (key : List Byte) : Nat × Nat × Nat :=
  let str := BitVec.ofNat 8 t :: BitVec.ofNat 8 scope :: padTo (d.tabKeyLen t) key
  let h0 := crc32cFrom (d.seeds t g).1 str
  let b0 := h0 % d.tabSize t
  let b1 := crc32cFrom (d.seeds t g).2 str % d.tabSize t
  (h0, b0, if b1 = b0 then Nat.xor b0 1 else b1)

/-- Does the entry hold this key? -/
def Dev.keyIs (d : Dev) (t scope : Nat) (key : List Byte) (e : MtbEntry) : Bool :=
  e.valid && e.scope == scope && padTo (d.tabKeyLen t) e.key == padTo (d.tabKeyLen t) key

/-- The slots that a lookup reads, in its order, each with whether it lies in a b1 (R213). -/
def Dev.probe (d : Dev) (t scope : Nat) (key : List Byte) : List (Nat × Bool) :=
  let gens := if d.rehashing t then [d.curGen t, 1 - d.curGen t] else [d.curGen t]
  gens.flatMap (fun g =>
    let b := d.buckets t g scope key
    (List.range 4).map (fun s => (4 * b.2.1 + s, false)) ++ (List.range 4).map (fun s => (4 * b.2.2 + s, true)))

/-- The place of a key: 4 × bucket + slot, and whether in its b1. -/
def Dev.findKey (d : Dev) (t scope : Nat) (key : List Byte) : Option (Nat × Bool) :=
  (d.probe t scope key).find? (fun p => d.keyIs t scope key ((d.cuckoo t).slot p.1))

/-! ## The hot cache (R220) -/

/-- Bytes of a line of table `t`. -/
def Dev.lineBytes (d : Dev) (t : Nat) : Nat := if d.tabKind t = 1 then 256 else if d.tabWide t then 128 else 64

/-- Bytes of the hot cache that pinned tables leave. -/
def Dev.cacheBytes (d : Dev) : Nat :=
  (if d.die.variant = .s9616 then 32 else 48) * 2 ^ 20 -
    ((List.range 16).filter (fun t => d.on R.MTB_TABLE_CFG_cache_pin 0 (32 * t))).foldl (fun n t => n + d.lineBytes t * d.tabSize t) 0

/-- Clock replacement: a referenced line at the hand is passed over once, an unreferenced one leaves. -/
def clockEvict (size : Nat → Nat) (cap need : Nat) : Nat → List (Nat × Bool) → List (Nat × Bool)
  | 0, l => l
  | fuel + 1, l =>
    if (l.map (fun p => size p.1)).sum + need ≤ cap then l
    else
      match l with
      | [] => []
      | (k, true) :: r => clockEvict size cap need fuel (r ++ [(k, false)])
      | (_, false) :: r => clockEvict size cap need fuel r

/-- A bucket of a cuckoo table, or an entry of a direct table, as the hot cache numbers its line. -/
def lineKey (t i : Nat) : Nat := 2 ^ 32 * t + i

/-- Does the hot cache hold a line? A pinned table stands in it whole. -/
def Dev.cached (d : Dev) (t i : Nat) : Bool :=
  d.on R.MTB_TABLE_CFG_cache_pin 0 (32 * t) || d.mtb.cache.any (fun p => p.1 == lineKey t i)

/-- A lookup reads a line, which fills it where the cache does not hold it. -/
def Dev.touchLine (t i : Nat) (d : Dev) : Dev :=
  if d.on R.MTB_TABLE_CFG_cache_pin 0 (32 * t) then d
  else
    let k := lineKey t i
    let l := d.mtb.cache
    if d.cached t i then d.onMtb (fun m => { m with cache := l.map (fun p => if p.1 == k then (k, true) else p) })
    else
      let kept := clockEvict (fun k => d.lineBytes (k / 2 ^ 32)) d.cacheBytes (d.lineBytes t) (2 * l.length + 1) l
      d.onMtb (fun m => { m with cache := kept ++ [(k, true)] })

/-- A lookup that filled a line counts once (R220, R237). -/
def Dev.countFill (filled : Bool) (d : Dev) : Dev := if filled then d.bump R.MTB_CACHE_MISSES_count else d

/-! ## Lookup (R213, R224) -/

/-- Milliseconds of uptime, as stamps count them. -/
def Dev.stampNow (d : Dev) : Nat := d.uptime % 2 ^ 32

/-- Age of an entry. -/
def Dev.ageOf (d : Dev) (e : MtbEntry) : Nat := (d.stampNow + 2 ^ 32 - e.lastHit) % 2 ^ 32

/-- A hit or a learn refresh stamps an entry, no finer than stamp_grain. -/
def Dev.stampHit (t i : Nat) (d : Dev) : Dev :=
  let e := (d.cuckoo t).slot i
  if d.rd R.MTB_AGE_CONFIG_stamp_grain ≤ d.ageOf e then d.setCuckoo t ((d.cuckoo t).put i { e with lastHit := d.stampNow }) else d

/-- The buckets that a probe of a scope reads. -/
def Dev.bucketsRead (d : Dev) (t scope : Nat) (key : List Byte) : List Nat := ((d.probe t scope key).map (fun p => p.1 / 4)).dedup

/-- Does a probe of a scope fill a line? -/
def Dev.fills (d : Dev) (t scope : Nat) (key : List Byte) : Bool := (d.bucketsRead t scope key).any (fun b => !d.cached t b)

/-- A probe of a scope: its entry, and the device with lines and stamp moved. -/
def Dev.lookupScope (t scope : Nat) (key : List Byte) (d : Dev) : Option MtbEntry × Dev :=
  if d.tabKind t ≠ 1 then (none, d)
  else
    let d := Dev.each (d.bucketsRead t scope key) (Dev.touchLine t) d
    match d.findKey t scope key with
    | some p => (some ((d.cuckoo t).slot p.1), d.stampHit t p.1)
    | none => (none, d)

/-- A lookup of classification or of the lookup assist: table 0 probes the shared scope, then the Figure's own. -/
def Dev.lookup (t figure : Nat) (key : List Byte) (d : Dev) : Option MtbEntry × Dev :=
  let r := d.lookupScope t 15 key
  let filled := d.tabKind t == 1 && d.fills t 15 key
  if r.1.isSome ∨ t ≠ 0 then (r.1, r.2.countFill filled)
  else
    let x := r.2.lookupScope t figure key
    (x.1, x.2.countFill (filled || (d.tabKind t == 1 && r.2.fills t figure key)))

/-- A direct entry; an entry never written is zero. -/
def Dev.directEntry (d : Dev) (t i : Nat) : List Byte :=
  d.mtb.direct.getD (2 ^ 26 * t + i) (List.replicate (d.lineBytes t) 0)

/-- A lookup of a direct table. -/
def Dev.lookupDirect (t i : Nat) (d : Dev) : Option (List Byte) × Dev :=
  if d.tabKind t = 2 ∧ i < d.tabSize t then (some (d.directEntry t i), (d.touchLine t i).countFill (!d.cached t i)) else (none, d)

/-! ## Insertion (R215, R216) -/

/-- The lowest free slot of a bucket outside `avoid`. -/
def Cuckoo.freeSlot (c : Cuckoo) (avoid : List Nat) (b : Nat) : Option Nat :=
  ((List.range 4).map (4 * b + ·)).find? (fun i => !(c.slot i).valid && !avoid.contains i)

/-- The bucket beside `b` of an entry under generation `g`. -/
def Dev.otherBucket (d : Dev) (t g : Nat) (e : MtbEntry) (b : Nat) : Nat :=
  let n := d.buckets t g e.scope e.key
  if n.2.1 = b then n.2.2 else n.2.1

/-- The path of do-si-do steps from bucket `b`, victim slot `v`: the victims' places in order, and the free place at its end. -/
def Dev.searchPath (d : Dev) (t g : Nat) (avoid : List Nat) : Nat → Nat → Nat → List Nat → Option (List Nat × Nat)
  | 0, _, _, _ => none
  | fuel + 1, b, v, path =>
    let order := [v % 4, (v + 1) % 4, (v + 2) % 4, (v + 3) % 4]
    match order.find? (fun s => !path.contains (4 * b + s) && !avoid.contains (4 * b + s)) with
    | none => none
    | some s =>
      let alt := d.otherBucket t g ((d.cuckoo t).slot (4 * b + s)) b
      let path := path ++ [4 * b + s]
      match (d.cuckoo t).freeSlot avoid alt with
      | some i => some (path, i)
      | none => Dev.searchPath d t g avoid fuel alt (s + 1) path

/-- Carry a path out from its free end; the first victim's place stays to be written. -/
def Cuckoo.doSiDo (c : Cuckoo) (g : Nat) : List Nat → Nat → Cuckoo
  | [], _ => c
  | i :: rest, free =>
    let c := Cuckoo.doSiDo c g rest free
    c.put (rest.headD free) { c.slot i with gen := g }

/-- Buckets with the versions that they have now. -/
def Dev.asRead (d : Dev) (t : Nat) (bs : List Nat) : List (Nat × Nat) := bs.map (fun b => (b, (d.cuckoo t).bver.getD b 0))

/-- Are the versions still those that a search read (R217)? -/
def Dev.stillAsRead (d : Dev) (t : Nat) (seen : List (Nat × Nat)) : Bool := d.asRead t (seen.map (·.1)) == seen

/-- The plan of an absent key: a free slot of b0, of b1, or a path of at most 32 steps (R215). Nothing is written. -/
def Dev.planNew (d : Dev) (t : Nat) (avoid : List Nat) (e : MtbEntry) : Option MtbPlan :=
  let g := d.newGen t
  let b := d.buckets t g e.scope e.key
  match (d.cuckoo t).freeSlot avoid b.2.1 with
  | some i => some { place := (i, false), free := i, gen := g, seen := d.asRead t [b.2.1] }
  | none =>
    match (d.cuckoo t).freeSlot avoid b.2.2 with
    | some i => some { place := (i, true), free := i, gen := g, seen := d.asRead t [b.2.1, b.2.2] }
    | none =>
      (d.searchPath t g avoid 32 b.2.1 (b.1 % 4) []).map (fun x =>
        { place := (x.1.headD x.2, false), path := x.1, free := x.2, gen := g, seen := d.asRead t ((x.1 ++ [x.2]).map (· / 4)).dedup })

/-- The plan of a key that may be present. -/
def Dev.planKey (d : Dev) (t : Nat) (e : MtbEntry) : Option MtbPlan :=
  match d.findKey t e.scope e.key with
  | some p => some { place := p, found := true, free := p.1, gen := ((d.cuckoo t).slot p.1).gen, seen := d.asRead t [p.1 / 4] }
  | none => d.planNew t [] e

/-- Carry a plan out, from its free end (R216). An entry that is replaced keeps its generation and its last hit (R222). -/
def Dev.carryOut (t : Nat) (e : MtbEntry) (p : MtbPlan) (d : Dev) : Dev :=
  let c := d.cuckoo t
  let o := c.slot p.place.1
  if p.found then d.setCuckoo t (c.put p.place.1 { e with gen := o.gen, lastHit := o.lastHit, table := t })
  else d.setCuckoo t ((c.doSiDo p.gen p.path p.free).put p.place.1 { e with gen := p.gen, table := t })

/-- A failed insertion is counted and asks for a rehash (R218). -/
def Dev.insertFailed (t : Nat) (fromLearn : Bool) (d : Dev) : Dev :=
  let d := d.bump R.MTB_INSERT_FAILS_count
  let d := if d.on R.MTB_REHASH_REQ_valid then d
    else ((d.wr R.MTB_REHASH_REQ_table t).wr R.MTB_REHASH_REQ_from_learn fromLearn.toNat).wr R.MTB_REHASH_REQ_valid 1
  d.cause mtbCauses 0

/-- Insert a new key, reporting failure; the answer says whether it found a place. -/
def Dev.insertNew (t : Nat) (fromLearn : Bool) (e : MtbEntry) (d : Dev) : Bool × Dev :=
  match d.planNew t [] e with
  | some p => (true, d.carryOut t e p)
  | none => (false, d.insertFailed t fromLearn)

/-! ## Locks (R217) -/

/-- Does a port's command hold a plan? The command ports share one insertion engine. -/
def Dev.engineBusy (d : Dev) : Bool := d.mtb.runs.entries.any (fun x => (x.2.put.bind Put.plan).isSome)

/-- The buckets of table `t` that the engine of the command ports has locked. -/
def Dev.lockedBuckets (d : Dev) (t : Nat) : List Nat :=
  d.mtb.runs.entries.flatMap (fun x => match x.2.put with
    | some q => if q.locked && x.2.table == t then ((q.plan.map MtbPlan.seen).getD []).map (·.1) else []
    | none => [])

/-- Does any of these buckets stand locked? -/
def Dev.meetsLock (d : Dev) (t : Nat) (bs : List Nat) : Bool := bs.any (d.lockedBuckets t).contains

/-! ## Command ports (R221-R223, R233, R234) -/

/-- The data window of port `p`. -/
def Dev.window (d : Dev) (p : Nat) : List Byte :=
  (List.range 16).flatMap (fun n => leBytes (d.rd R.MTB_CMD_DATA_data 0 (256 * p + 4 * n)) 4)

/-- Put bytes into the data window. -/
def Dev.setWindow (p : Nat) (b : List Byte) (d : Dev) : Dev :=
  Dev.each (List.range 16) (fun n d => d.wr R.MTB_CMD_DATA_data (leAt b (4 * n) 4) 0 (256 * p + 4 * n)) d

/-- MTB_CMD_ARG of port `p`. -/
def Dev.argIndex (d : Dev) (p : Nat) : Nat := d.rd R.MTB_CMD_ARG_index 0 (256 * p)
def Dev.argSlot (d : Dev) (p : Nat) : Nat := d.rd R.MTB_CMD_ARG_slot 0 (256 * p)

/-- Stage slot `n` of port `p`. -/
def Dev.stage (d : Dev) (p n : Nat) : List Byte := d.mtb.stages.getD (4 * p + n) (List.replicate 64 0)
def Dev.setStage (p n : Nat) (b : List Byte) (d : Dev) : Dev := d.onMtb (fun m => { m with stages := m.stages.set (4 * p + n) b })
def Dev.clearStage (p n : Nat) (d : Dev) : Dev := d.onMtb (fun m => { m with stages := m.stages.erase (4 * p + n) })

/-- A write of MTB_CMD: refused for a wrong master or a busy port, else the port runs `act` and holds what it gives. -/
def Dev.runPort (mid p : Nat) (irq : Bool) (act : Dev → PortRun × Dev) (d : Dev) : Dev :=
  if p ≥ 16 then d
  else if mid ≠ midFn p then (d.bump R.MTB_WRONG_PORT_count).cause mtbCauses 10
  else if d.on R.MTB_CMD_STATUS_busy 0 (256 * p) then d.wr R.MTB_CMD_STATUS_overrun 1 0 (256 * p)
  else
    let d := (d.wr R.MTB_CMD_STATUS_busy 1 0 (256 * p)).wr R.MTB_CMD_STATUS_overrun 0 0 (256 * p)
    let r := act d
    r.2.onMtb (fun m => { m with runs := m.runs.set p { r.1 with irq := irq } })

/-- A command on a table of one kind: result 4 on any other, result 6 for a write where the schema forbids it. -/
def Dev.onTable (t kind : Nat) (writes : Bool) (act : Dev → PortRun × Dev) (d : Dev) : PortRun × Dev :=
  if d.tabKind t ≠ kind then ({ result := 4 }, d)
  else if writes && !d.on R.MTB_TABLE_CFG_host_write 0 (32 * t) then ({ result := 6 }, d)
  else
    let r := act d
    ({ r.1 with table := t }, r.2)

/-- op 1. -/
def Dev.mtbRead (p t : Nat) (d : Dev) : PortRun × Dev :=
  if d.tabSize t ≤ d.argIndex p then ({ result := 4 }, d)
  else ({ window := some ((d.cuckoo t).slotBytes (4 * d.argIndex p + d.argSlot p)) }, d)

/-- The entry that the window asks for: bver, gen and last_hit are the device's (R222), and unused key bytes are zero (R210). -/
def Dev.windowEntry (d : Dev) (p t : Nat) : MtbEntry :=
  let e := MtbEntry.ofBytes (d.window p)
  { e with lastHit := d.stampNow, gen := 0, key := padTo 32 (padTo (d.tabKeyLen t) e.key) }

/-- The plan of ops 2 to 4, or the result that ends them without one. -/
def Dev.planPut (d : Dev) (t : Nat) (op : PutOp) (e : MtbEntry) : Option MtbPlan × Nat :=
  let there := (d.findKey t e.scope e.key).isSome
  if op = .insert ∧ there then (none, 2)
  else if op = .delete ∧ !there then (none, 1)
  else (d.planKey t e, 3)

/-- Ops 2 to 4 end without a change; result 3 asks for a rehash (R218). -/
def Dev.endPut (t result : Nat) (d : Dev) : PortRun × Dev := ({ result := result }, if result = 3 then d.insertFailed t false else d)

/-- Ops 2 to 4 write. -/
def Dev.putNow (t : Nat) (op : PutOp) (e : MtbEntry) (p : MtbPlan) (d : Dev) : PortRun × Dev :=
  ({ place := some p.place, gen := p.gen, steps := p.path.length },
   if op = .delete then d.setCuckoo t ((d.cuckoo t).erase p.place.1) else d.carryOut t e p)

/-- Ops 2 to 4 start: the search, where the engine is free. Whether the command has written before it ends, holds its locks until
then, or locks its buckets only then is open (notes/assumptions/86.md). -/
def Dev.startPut (p t : Nat) (op : PutOp) (d : Dev) : PortRun × Dev :=
  let e := d.windowEntry p t
  if d.engineBusy then ({ put := some { op := op, entry := e } }, d)
  else
    match d.planPut t op e with
    | (none, r) => d.endPut t r
    | (some pl, _) =>
      let k := d.free.1 % 3
      if k = 0 then d.free.2.putNow t op e pl
      else ({ put := some { op := op, entry := e, plan := some pl, locked := k == 1 } }, d.free.2)

/-- The engine goes on with a command (R217): the versions are checked, and where any moved the search is made again; the fourth
failed check ends the command with result 9. -/
def Dev.retryPut (t : Nat) (q : Put) (d : Dev) : PortRun × Dev :=
  match q.plan with
  | some pl =>
    if d.stillAsRead t pl.seen then d.putNow t q.op q.entry pl
    else if 3 ≤ q.fails then ({ result := 9 }, d)
    else
      match d.planPut t q.op q.entry with
      | (none, r) => d.endPut t r
      | (some new, _) => ({ put := some { q with plan := some new, locked := false, fails := q.fails + 1 } }, d)
  | none =>
    match d.planPut t q.op q.entry with
    | (none, r) => d.endPut t r
    | (some pl, _) => d.putNow t q.op q.entry pl

/-- ops 5 and 6. -/
def Dev.mtbSearch (p t : Nat) (withAge : Bool) (d : Dev) : PortRun × Dev :=
  let e := d.windowEntry p t
  match d.findKey t e.scope e.key with
  | some (i, b1) =>
    let o := (d.cuckoo t).slot i
    ({ place := some (i, b1), gen := o.gen, window := some ((d.cuckoo t).slotBytes i), age := if withAge then some (d.ageOf o) else none }, d)
  | none => ({ result := 1 }, d)

/-- op 7. -/
def Dev.mtbStageOp (p n : Nat) (d : Dev) : PortRun × Dev :=
  if 3 ≤ n then ({ result := 4 }, d) else ({}, d.setStage p n (d.window p))

/-- op 8. -/
def Dev.mtbDirectPut (p t : Nat) (d : Dev) : PortRun × Dev :=
  if d.tabSize t ≤ d.argIndex p then ({ result := 4 }, d)
  else
    let b := if d.tabWide t then d.stage p 0 ++ d.window p else d.window p
    let d := d.onMtb (fun m => { m with direct := m.direct.set (2 ^ 26 * t + d.argIndex p) b })
    ({}, if d.tabWide t then d.clearStage p 0 else d)

/-- op 9. -/
def Dev.mtbDirectGet (p t : Nat) (d : Dev) : PortRun × Dev :=
  if d.tabSize t ≤ d.argIndex p then ({ result := 4 }, d)
  else
    let b := d.directEntry t (d.argIndex p)
    if d.tabWide t then ({ window := some (b.drop 64) }, d.setStage p 0 (b.take 64)) else ({ window := some b }, d)

/-- Capacity units of a prefix (R232). -/
def Prefix.units (x : Prefix) : Nat := if !x.ipv6 then 1 else if x.length ≤ 64 then 2 else 4

/-- The prefix that the window spells, where it is well formed. -/
def prefixOf (w : List Byte) : Option Prefix :=
  let x : Prefix := { vrf := bits (leAt w 0 4) 0 4, ipv6 := hasBit (leAt w 0 4) 4, length := byteAt w 1
                      addr := sliceBytes w 16 (if hasBit (leAt w 0 4) 4 then 16 else 4), result := leAt w 32 4 }
  let wide := 8 * x.addr.length
  if wide < x.length ∨ beAt x.addr 0 x.addr.length % 2 ^ (wide - x.length) ≠ 0 then none else some x

/-- Is it the same prefix, whatever the result? -/
def Prefix.same (x y : Prefix) : Bool := x.vrf == y.vrf && x.ipv6 == y.ipv6 && x.length == y.length && x.addr == y.addr

/-- op 10. -/
def Dev.prefixAdd (p : Nat) (d : Dev) : PortRun × Dev :=
  match prefixOf (d.window p) with
  | none => ({ result := 4 }, d)
  | some x =>
    let others := d.mtb.prefixes.filter (fun y => !x.same y)
    if (others.map Prefix.units).sum + x.units ≤ 1048576 then ({}, d.onMtb (fun m => { m with prefixes := others ++ [x] }))
    else ({ result := 8 }, d.cause mtbCauses 8)

/-- op 11. -/
def Dev.prefixDelete (p : Nat) (d : Dev) : PortRun × Dev :=
  match prefixOf (d.window p) with
  | none => ({ result := 4 }, d)
  | some x =>
    if d.mtb.prefixes.any x.same then ({}, d.onMtb (fun m => { m with prefixes := m.prefixes.filter (fun y => !x.same y) }))
    else ({ result := 1 }, d)

/-- op 12. -/
def Dev.prefixSearch (p : Nat) (d : Dev) : PortRun × Dev :=
  match prefixOf (d.window p) with
  | none => ({ result := 4 }, d)
  | some x =>
    match d.mtb.prefixes.find? x.same with
    | some y => ({ window := some (putBytes (d.window p) 32 (leBytes y.result 4)) }, d)
    | none => ({ result := 1 }, d)

/-- The result of the longest matching prefix (R232). -/
def Dev.longestPrefix (d : Dev) (vrf : Nat) (addr : List Byte) : Option Nat :=
  let wide := 8 * addr.length
  let hits := d.mtb.prefixes.filter (fun x => x.vrf == vrf && x.addr.length == addr.length &&
    beAt x.addr 0 addr.length / 2 ^ (wide - x.length) == beAt addr 0 addr.length / 2 ^ (wide - x.length))
  (hits.foldl (fun best x => match best with
    | none => some x
    | some y => if y.length < x.length then some x else best) (none : Option Prefix)).map Prefix.result

/-- op 13. -/
def Dev.ternaryPut (p : Nat) (d : Dev) : PortRun × Dev :=
  if 16384 ≤ d.argIndex p then ({ result := 4 }, d)
  else
    let v := (d.stage p 0, d.stage p 1, (d.window p).take 16)
    ({}, ((d.onMtb (fun m => { m with ternary := m.ternary.set (d.argIndex p) v })).clearStage p 0).clearStage p 1)

/-- op 14. -/
def Dev.ternaryGet (p : Nat) (d : Dev) : PortRun × Dev :=
  if 16384 ≤ d.argIndex p then ({ result := 4 }, d)
  else
    let z := List.replicate 64 (0 : Byte)
    let v := d.mtb.ternary.getD (d.argIndex p) (z, z, z.take 16)
    ({ window := some (padTo 64 v.2.2) }, (d.setStage p 0 v.1).setStage p 1 v.2.1)

/-- The result of the lowest-numbered ternary entry that matches; an entry never written, or erased, matches nothing. -/
def Dev.ternaryHit (d : Dev) (key : List Byte) : Option (List Byte) :=
  (d.mtb.ternary.entries.find? (fun e =>
    (List.zip key (List.zip e.2.1 e.2.2.1)).all (fun x => x.1 &&& x.2.2 == x.2.1 &&& x.2.2))).map (fun e => e.2.2.2)

/-- A command ends: busy clears and what it found is posted (R222, R223). -/
def Dev.postRun (p : Nat) (r : PortRun) (d : Dev) : Dev :=
  let a := 256 * p
  let d := d.onMtb (fun m => { m with runs := m.runs.erase p })
  let d := ((d.wr R.MTB_CMD_STATUS_busy 0 0 a).wr R.MTB_CMD_STATUS_result r.result 0 a).wr R.MTB_CMD_STATUS_steps r.steps 0 a
  let d := match r.place with
    | some (i, b1) =>
      (((d.wr R.MTB_CMD_WHERE_bucket (i / 4) 0 a).wr R.MTB_CMD_WHERE_slot (i % 4) 0 a).wr R.MTB_CMD_WHERE_gen r.gen 0 a).wr
        R.MTB_CMD_WHERE_in_b1 b1.toNat 0 a
    | none => d
  let d := match r.age with
    | some v => d.wr R.MTB_CMD_AGE_age_ms v 0 a
    | none => d
  let d := match r.window with
    | some b => d.setWindow p b
    | none => d
  if r.irq then d.cause mtbCauses 12 else d

/-- The end of a port's command comes: one that has still to write waits for the engine, or checks and writes or searches again. -/
def Dev.portDone (p : Nat) (d : Dev) : Dev :=
  match d.mtb.runs.get? p with
  | none => d
  | some r =>
    match r.put with
    | none => d.postRun p r
    | some q =>
      if q.plan.isNone && d.engineBusy then d
      else
        let x := d.retryPut r.table q
        let new := { x.1 with table := r.table, irq := r.irq }
        if new.put.isSome then x.2.onMtb (fun m => { m with runs := m.runs.set p new }) else x.2.postRun p new

/-! ## Learning (R226-R229) -/

/-- A table 0 key. -/
def destKey (vnid mac : Nat) : List Byte := leBytes (vnid % 2 ^ 24) 4 ++ beBytes mac 6

/-- The source of a table 0 entry: from_function and number (R211). -/
def MtbEntry.source (e : MtbEntry) : Bool × Nat :=
  let w := leAt e.result 8 4
  if hasBit w 22 then (true, bits w 0 14) else (false, bits w 14 8)

/-- Write a learn record (R229), or count it as lost. -/
def Dev.learnRecord (kind : Nat) (e : MtbEntry) (d : Dev) : Dev :=
  let shared := e.scope == 15
  let f := if shared then 4 else e.scope
  let mac := beAt e.key 4 6
  let (fromFn, src) := e.source
  let words := [kind + 16 * (if shared then 0 else e.scope) + 64 * shared.toNat + 256 * (leAt e.key 0 3), mac % 2 ^ 32,
    mac / 2 ^ 32 + 65536 * src + 2 ^ 30 * fromFn.toNat]
  let r := if d.on R.MTB_LEARN_RING_valid 0 (4 * f) then d.notify (d.rd R.MTB_LEARN_RING_ring 0 (4 * f)) words else (false, d)
  if r.1 then r.2 else (r.2.bump R.MTB_NOTIFY_LOST_count).cause mtbCauses 4

/-- The result of an entry that an offer makes. -/
def Dev.learnResult (d : Dev) (o : LearnOffer) : List Byte :=
  leBytes (if o.fromFunction then d.rd R.MTB_LEARN_ACTION_function_action else d.rd R.MTB_LEARN_ACTION_port_action) 4 ++
    leBytes 0 4 ++ leBytes (if o.fromFunction then o.source + 2 ^ 22 else 2 ^ 14 * o.source) 4 ++ leBytes 0 4

/-- flap_threshold, stored as 2 at least. -/
def Dev.flapThreshold (d : Dev) : Nat := max 2 (d.rd R.MTB_LEARN_CONFIG_flap_threshold)

/-- An offer meets a learned entry with another source (R227, R228): the source fields are replaced, and the stamp is refreshed as
R224 says (notes/assumptions/88.md). -/
def Dev.learnMove (i : Nat) (e : MtbEntry) (o : LearnOffer) (d : Dev) : Dev :=
  let now := d.stampNow
  let e := { e with result := putBytes (padTo 16 e.result) 8 (sliceBytes (d.learnResult o) 8 4) }
  if d.rd R.MTB_LEARN_CONFIG_move_window ≤ d.ageOf e then ((d.setCuckoo 0 ((d.cuckoo 0).put i e)).stampHit 0 i).learnRecord 1 e
  else
    let fresh := e.moves == 0 || d.rd R.MTB_FLAP_flap_window < (now + 2 ^ 32 - e.moveStart) % 2 ^ 32
    let e := { e with moves := if fresh then 1 else min 7 (e.moves + 1), moveStart := if fresh then now else e.moveStart }
    let flaps := d.flapThreshold ≤ e.moves
    let e := if flaps then { e with pinned := true, pinUntil := (now + 1000 * d.rd R.MTB_FLAP_hold_s) % 2 ^ 32 } else e
    let d := ((d.setCuckoo 0 ((d.cuckoo 0).put i e)).stampHit 0 i).learnRecord 2 e
    if flaps then (d.learnRecord 4 e).cause mtbCauses 3 else d

/-- The buckets that an offer writes: of an entry that it inserts, or whose source it replaces. -/
def Dev.learnBuckets (d : Dev) (f : Nat) (o : LearnOffer) : List Nat :=
  let key := destKey o.vnid o.mac
  match d.findKey 0 f key with
  | none => ((d.planNew 0 [] { scope := f, key := key }).map (fun p => p.seen.map (·.1))).getD []
  | some (i, _) => if ((d.cuckoo 0).slot i).source = (o.fromFunction, o.source) then [] else [i / 4]

/-- The learn unit of Figure `f` acts on one offer. A software entry that is not static and has another source stays as it is
(notes/assumptions/88.md). -/
def Dev.learn (f : Nat) (o : LearnOffer) (d : Dev) : Dev :=
  let key := destKey o.vnid o.mac
  match d.findKey 0 f key with
  | none =>
    if d.tabKind 0 ≠ 1 then d
    else
      let e : MtbEntry := { valid := true, learned := true, scope := f, lastHit := d.stampNow, key := padTo 32 key, result := d.learnResult o }
      let r := d.insertNew 0 true e
      if r.1 then r.2.learnRecord 1 e else r.2
  | some (i, _) =>
    let e := (d.cuckoo 0).slot i
    if e.source = (o.fromFunction, o.source) then d.stampHit 0 i
    else if e.static then (d.bump R.MTB_STATIC_CONFLICTS_count).cause mtbCauses 11
    else if e.pinned then d.bump R.MTB_FLAP_IGNORED_count
    else if !e.learned then d
    else d.learnMove i e o

/-- The learn unit of Figure `f` takes an offer, or goes on with the one that waits: on locked buckets it waits; after the wait the
versions are checked, and the fourth failed check drops the offer (R217). -/
def Dev.learnNext (f : Nat) (l : Learning) (d : Dev) : Dev :=
  let hold (l : Learning) : Dev := d.onMtb (fun m => { m with learning := m.learning.set f l })
  let bs := d.learnBuckets f l.offer
  if d.meetsLock 0 bs then (if l.seen.isEmpty then hold { l with seen := d.asRead 0 bs } else hold l)
  else if d.stillAsRead 0 l.seen then (d.onMtb (fun m => { m with learning := m.learning.erase f })).learn f l.offer
  else if 3 ≤ l.fails then
    ((d.onMtb (fun m => { m with learning := m.learning.erase f })).bump R.MTB_LEARN_DROPS_count).cause mtbCauses 9
  else hold { l with seen := d.asRead 0 bs, fails := l.fails + 1 }

/-- An offer joins a Figure's queue of 1,024, or is dropped. -/
def Dev.offer (f : Nat) (o : LearnOffer) (d : Dev) : Dev :=
  if (d.mtb.offers.getD f []).length < 1024 then d.onMtb (fun m => { m with offers := m.offers.upd f [] (fun l => l ++ [o]) })
  else (d.bump R.MTB_LEARN_DROPS_count).cause mtbCauses 9

/-- Drop every offer of a Figure that lost its last position (R236). -/
def Dev.dropOffers (f : Nat) (d : Dev) : Dev :=
  let n := (d.mtb.offers.getD f []).length + (d.mtb.learning.get? f).isSome.toNat
  if n = 0 then d
  else ((d.onMtb (fun m => { m with offers := m.offers.erase f, learning := m.learning.erase f })).bump R.MTB_LEARN_DROPS_count 0 0 n).cause mtbCauses 9

/-! ## Aging (R225) -/

/-- Has a time passed, modulo 2^32? -/
def timePassed (now t : Nat) : Bool := (now + 2 ^ 32 - t) % 2 ^ 32 < 2 ^ 31

/-- The age scanner visits a slot; locked buckets it skips (R217). -/
def Dev.ageVisit (t i : Nat) (d : Dev) : Dev :=
  if !d.on R.MTB_AGE_CONFIG_scan_enable || d.tabKind t != 1 || !d.on R.MTB_TABLE_CFG_aging 0 (32 * t) || 4 * d.tabSize t ≤ i ||
    d.meetsLock t [i / 4] then d
  else
    let e := (d.cuckoo t).slot i
    if !e.valid then d
    else
      let unpin := e.pinned && timePassed d.stampNow e.pinUntil
      let e := if unpin then { e with pinned := false, moves := 0 } else e
      let d := if unpin then (d.setCuckoo t ((d.cuckoo t).put i e)).learnRecord 5 e else d
      if !e.static && !e.pinned && (d.rd R.MTB_TABLE_AGE_age_limit 0 (32 * t) < d.ageOf e || 2 ^ 31 ≤ d.ageOf e) then
        ((d.setCuckoo t ((d.cuckoo t).erase i)).bump R.MTB_AGED_count).learnRecord 3 e
      else d

/-! ## Rehash (R219) -/

/-- Start a walk. -/
def Dev.rehashStart (t : Nat) (d : Dev) : Dev :=
  if d.on R.MTB_STATUS_rehash_active || d.tabKind t != 1 then d
  else
    (((d.wr R.MTB_STATUS_rehash_active 1).wr R.MTB_STATUS_rehash_table t).wr R.MTB_STATUS_rehash_stalled 0).wr R.MTB_REHASH_POS_bucket 0

/-- Resume a stalled walk. -/
def Dev.rehashResume (t : Nat) (d : Dev) : Dev :=
  if d.rehashing t && d.on R.MTB_STATUS_rehash_stalled then d.wr R.MTB_STATUS_rehash_stalled 0 else d

/-- Is the entry of a slot still to be moved by the walk? -/
def Dev.awaitsWalk (d : Dev) (t i : Nat) : Bool := ((d.cuckoo t).slot i).valid && ((d.cuckoo t).slot i).gen == d.curGen t

/-- Move the entry of one slot under the new seeds, written before its original is erased; a failure stalls the walk. On a locked
bucket the walker waits (R217). -/
def Dev.rehashSlot (t i : Nat) (d : Dev) : Dev :=
  let e := (d.cuckoo t).slot i
  if d.on R.MTB_STATUS_rehash_stalled || !d.awaitsWalk t i then d
  else
    match d.planNew t [i] e with
    | some p =>
      if d.meetsLock t (i / 4 :: p.seen.map (·.1)) then d
      else
        let d := d.carryOut t e p
        d.setCuckoo t ((d.cuckoo t).erase i)
    | none => ((d.bump R.MTB_INSERT_FAILS_count).wr R.MTB_STATUS_rehash_stalled 1).cause mtbCauses 2

/-- The walker visits its next bucket. -/
def Dev.rehashWalk (t : Nat) (d : Dev) : Dev :=
  if !d.rehashing t || d.on R.MTB_STATUS_rehash_stalled then d
  else
    let b := d.rd R.MTB_REHASH_POS_bucket
    let d := Dev.each (List.range 4) (fun s d => d.rehashSlot t (4 * b + s)) d
    if (List.range 4).any (fun s => d.awaitsWalk t (4 * b + s)) then d
    else if b + 1 < d.tabSize t then d.wr R.MTB_REHASH_POS_bucket (b + 1)
    else
      ((d.wr R.MTB_TABLE_GEN_cur_gen (1 - d.curGen t) 0 (32 * t)).wr R.MTB_STATUS_rehash_active 0).cause mtbCauses 1

/-! ## Background compare (R230, R231) -/

/-- Change the compare. -/
def Dev.onCompare (d : Dev) (f : Compare → Compare) : Dev := d.onMtb (fun m => { m with compare := f m.compare })

/-- A pass ends: with a host error, or counted. -/
def Dev.comparePassEnd (hostError : Bool) (d : Dev) : Dev :=
  let again := d.rd R.MTB_COMPARE_CTRL_compare_interval != 0
  let d := (d.wr R.MTB_STATUS_compare_active 0).onCompare (fun c => { c with waits := again })
  let d := if hostError then d.wr R.MTB_COMPARE_STATUS_host_error 1 else d.bump R.MTB_COMPARE_STATUS_passes
  d.cause mtbCauses 6

/-- Read the region in turn: snooped, no Relaxed Ordering, for PF compare_pf. -/
def Dev.compareFetch (d : Dev) : Dev :=
  let pf := d.rd R.MTB_COMPARE_CTRL_compare_pf
  let base := 4096 * d.rd R.MTB_COMPARE_BASE_LO_base + 2 ^ 32 * d.rd R.MTB_COMPARE_BASE_HI_base
  if d.rd R.MTB_COMPARE_COUNT_records ≤ 64 * d.mtb.compare.region then d.comparePassEnd false
  else if !d.canIssue pf then d.comparePassEnd true
  else d.hostRead pf (base + 4096 * d.mtb.compare.region) 4096 {} (fun _ _ => .shadow (d.rd R.MTB_COMPARE_CTRL_table))

/-- A pass starts; records that wait to be checked again go on waiting. -/
def Dev.compareStart (d : Dev) : Dev :=
  if d.on R.MTB_STATUS_compare_active then d
  else ((d.wr R.MTB_STATUS_compare_active 1).onCompare (fun c => { c with region := 0, waits := false })).compareFetch

/-- How a shadow record stands: 0 equal or not in use, 1 mismatch, 2 missing. -/
def Dev.compareRecord (d : Dev) (t : Nat) (b : List Byte) : Nat :=
  let e := MtbEntry.ofBytes b
  if !e.valid then 0
  else
    match d.findKey t e.scope e.key with
    | none => 2
    | some (i, _) =>
      let o := (d.cuckoo t).slot i
      if padTo 16 o.result == padTo 16 e.result && o.static == e.static then 0 else 1

/-- A region returns: records that differ wait to be checked again, and the pass goes on. -/
def Dev.compareRegion (t : Nat) (data : List Byte) (d : Dev) : Dev :=
  if !d.on R.MTB_STATUS_compare_active then d
  else
    let first := 64 * d.mtb.compare.region
    let bad := (List.range (min 64 (d.rd R.MTB_COMPARE_COUNT_records - first))).filter
      (fun k => d.compareRecord t (sliceBytes data (64 * k) 64) != 0)
    let d := d.onCompare (fun c => { c with region := c.region + 1, recheck := c.recheck ++ bad.map (first + ·) })
    if d.on R.MTB_COMPARE_CTRL_enable then d.compareFetch else d.wr R.MTB_STATUS_compare_active 0

/-- The oldest record that waits is checked again, as it reads now. -/
def Dev.compareRecheck (t : Nat) (data : List Byte) (d : Dev) : Dev :=
  match d.mtb.compare.recheck with
  | [] => d
  | n :: rest =>
    let d := d.onCompare (fun c => { c with recheck := rest })
    let k := d.compareRecord t data
    if k = 0 then d
    else
      let d := if d.mtb.compare.fifo.length < 64 then d.onCompare (fun c => { c with fifo := c.fifo ++ [n + 2 ^ 24 * k + 2 ^ 31] })
        else d.bump R.MTB_COMPARE_DROPPED_dropped
      d.cause mtbCauses 5

/-- Pop MTB_COMPARE_FIFO. -/
def Dev.popCompare (d : Dev) : Nat × Dev :=
  match d.mtb.compare.fifo with
  | [] => (0, d)
  | w :: rest => (w, d.onCompare (fun c => { c with fifo := rest }))

/-! ## Tunnel templates (R200, R204) -/

/-- A tunnel template: its word 0, largest outer IP length, egress instance, owner and header image (R200). -/
structure Template where
  w0 : Nat
  mtu : Nat
  mac : Nat
  owner : Nat
  image : List Byte
  deriving DecidableEq, Repr

/-- The table that holds the tunnel templates. -/
def templateTable : Nat := 3

/-- A template's entry. -/
def Template.ofBytes (b : List Byte) : Template :=
  let w0 := leAt b 0 4
  { w0 := w0, mtu := leAt b 4 4 % 2 ^ 14, mac := byteAt b 8, owner := bits (leAt b 8 4) 8 14, image := sliceBytes b 16 (bits w0 0 7) }

/-- Type of a template; whether its outer header is IPv6. -/
def Template.type (t : Template) : Nat := bits t.w0 8 3
def Template.v6 (t : Template) : Bool := hasBit t.w0 11

/-- The template that an item leaves in: the pass's choice, the descriptor's, or the record's. -/
def Item.templateOf (it : Item) : Option Nat :=
  match it.edits.reverse.findSome? (fun e => match e with
    | .encap n => some n
    | _ => none) with
  | some n => some n
  | none => if it.actionKind = 1 then some it.actionIndex else it.verdict.template

/-- The pass of item `i` reads template `n`. -/
def Dev.readTemplate (i n : Nat) (d : Dev) : Dev :=
  d.onItem i (fun it => { it with template := some (d.directEntry templateTable n) })

/-- A pass that ends has read the template that its item leaves in. -/
def Dev.holdTemplate (i : Nat) (d : Dev) : Dev :=
  match d.item? i with
  | some it =>
    match it.templateOf with
    | some n => if it.template.isSome then d else d.readTemplate i n
    | none => d
  | none => d

/-! ## Commands -/

def execMtbRead (mid port : Nat) (cmd : MtbCmd) (s : State) : Out :=
  s.onRun (Dev.runPort mid port cmd.irq (Dev.onTable cmd.table 1 false (Dev.mtbRead port cmd.table)))
def execMtbWrite (mid port : Nat) (cmd : MtbCmd) (s : State) : Out :=
  s.onRun (Dev.runPort mid port cmd.irq (Dev.onTable cmd.table 1 true (Dev.startPut port cmd.table .write)))
def execMtbInsert (mid port : Nat) (cmd : MtbCmd) (s : State) : Out :=
  s.onRun (Dev.runPort mid port cmd.irq (Dev.onTable cmd.table 1 true (Dev.startPut port cmd.table .insert)))
def execMtbDelete (mid port : Nat) (cmd : MtbCmd) (s : State) : Out :=
  s.onRun (Dev.runPort mid port cmd.irq (Dev.onTable cmd.table 1 true (Dev.startPut port cmd.table .delete)))
def execMtbSearch (mid port : Nat) (cmd : MtbCmd) (s : State) : Out :=
  s.onRun (Dev.runPort mid port cmd.irq (Dev.onTable cmd.table 1 false (Dev.mtbSearch port cmd.table false)))
def execMtbAgeQuery (mid port : Nat) (cmd : MtbCmd) (s : State) : Out :=
  s.onRun (Dev.runPort mid port cmd.irq (Dev.onTable cmd.table 1 false (Dev.mtbSearch port cmd.table true)))
def execMtbStage (mid port : Nat) (cmd : MtbCmd) (s : State) : Out :=
  s.onRun (Dev.runPort mid port cmd.irq (Dev.mtbStageOp port cmd.stage))
def execMtbDirectWrite (mid port : Nat) (cmd : MtbCmd) (s : State) : Out :=
  s.onRun (Dev.runPort mid port cmd.irq (Dev.onTable cmd.table 2 true (Dev.mtbDirectPut port cmd.table)))
def execMtbDirectRead (mid port : Nat) (cmd : MtbCmd) (s : State) : Out :=
  s.onRun (Dev.runPort mid port cmd.irq (Dev.onTable cmd.table 2 false (Dev.mtbDirectGet port cmd.table)))
def execPrefixAdd (mid port : Nat) (cmd : MtbCmd) (s : State) : Out := s.onRun (Dev.runPort mid port cmd.irq (Dev.prefixAdd port))
def execPrefixDelete (mid port : Nat) (cmd : MtbCmd) (s : State) : Out := s.onRun (Dev.runPort mid port cmd.irq (Dev.prefixDelete port))
def execPrefixSearch (mid port : Nat) (cmd : MtbCmd) (s : State) : Out := s.onRun (Dev.runPort mid port cmd.irq (Dev.prefixSearch port))
def execTernaryWrite (mid port : Nat) (cmd : MtbCmd) (s : State) : Out := s.onRun (Dev.runPort mid port cmd.irq (Dev.ternaryPut port))
def execTernaryRead (mid port : Nat) (cmd : MtbCmd) (s : State) : Out := s.onRun (Dev.runPort mid port cmd.irq (Dev.ternaryGet port))

/-- MTB_COMMAND_DONE. -/
def execMtbCommandDone (port : Nat) (s : State) : Out := s.onRun (Dev.portDone port)

/-- LEARN_OFFER_PROCESS: the offer that waits on a lock, or the oldest of a Figure's queue. -/
def execLearnOfferProcess (figure : Nat) (s : State) : Out :=
  s.onRun (fun d => match d.mtb.learning.get? figure, d.mtb.offers.getD figure [] with
    | some l, _ => d.learnNext figure l
    | none, o :: rest => (d.onMtb (fun m => { m with offers := m.offers.set figure rest })).learnNext figure { offer := o }
    | none, [] => d)

def execAgeScanVisit (table bucket slot : Nat) (s : State) : Out := s.onRun (Dev.ageVisit table (4 * bucket + slot % 4))
def execRehashStart (table : Nat) (s : State) : Out := s.onRun (Dev.rehashStart table)
def execRehashResume (table : Nat) (s : State) : Out := s.onRun (Dev.rehashResume table)
def execRehashWalkBucket (table : Nat) (s : State) : Out := s.onRun (Dev.rehashWalk table)

/-- COMPARE_START: enable is written 1 with this table. -/
def execCompareStart (table : Nat) (s : State) : Out :=
  s.onRun (fun d => ((d.wr R.MTB_COMPARE_CTRL_table table).wr R.MTB_COMPARE_CTRL_enable 1).compareStart)

def execCompareRegion (table : Nat) (data : List Byte) (s : State) : Out := s.onRun (Dev.compareRegion table data)
def execCompareRecheck (table : Nat) (data : List Byte) (s : State) : Out := s.onRun (Dev.compareRecheck table data)

/-- COMPARE_INTERVAL_EXPIRY: the next pass starts. -/
def execCompareIntervalExpiry (table : Nat) (s : State) : Out :=
  s.onRun (fun d => if d.mtb.compare.waits && d.on R.MTB_COMPARE_CTRL_enable && d.rd R.MTB_COMPARE_CTRL_table == table % 16
    then d.compareStart else d)

/-- COMPARE_FIFO_READ. -/
def execCompareFifoRead (mid : Nat) (s : State) : Out := s.onRun (fun d => let p := d.popCompare; p.2.emit (.answer mid p.1))

end Sys2Proof.Machine
end

