-- ==== Sys2Proof/Machine/Crypto.lean ====
section
/-!
DEFINITION. Encryption offload (R270-R291): contexts and keys, ESP in both directions, MACsec, TLS records, limit records, context
snapshots. AES-GCM itself is `Config.gcmSeal` and `Config.gcmOpen` (notes/assumptions/3.md).
-/

namespace Sys2Proof.Machine

/-! ## Contexts (R273-R278) -/

/-- A connection context, 256 bytes; one never created is all zero. -/
def Dev.ctx (d : Dev) (c : Nat) : List Byte := d.ctxs.getD c (List.replicate 256 0)

/-- A little-endian field of a context. -/
def Dev.ctxAt (d : Dev) (c off width : Nat) : Nat := leAt (d.ctx c) off width

/-- Write a field of a context that exists. -/
def Dev.setCtx (c off width v : Nat) (d : Dev) : Dev :=
  { d with ctxs := d.ctxs.modify c (fun b => putBytes b off (leBytes v width)) }

/-- Add to a counter of a context. -/
def Dev.bumpCtx (c off width n : Nat) (d : Dev) : Dev := d.setCtx c off width ((d.ctxAt c off width + n) % 256 ^ width)

/-- Type and owner of a context, and bit `b` of its word 0. -/
def Dev.ctxType (d : Dev) (c : Nat) : Nat := d.ctxAt c 0 4 % 16
def Dev.ctxOwner (d : Dev) (c : Nat) : Nat := d.ctxAt c 4 2 % 16384
def Dev.ctxBit (d : Dev) (c b : Nat) : Bool := hasBit (d.ctxAt c 0 4) b

/-- Set or clear bit `b` of word 0. -/
def Dev.putCtxBit (c b : Nat) (v : Bool) (d : Dev) : Dev :=
  d.setCtx c 0 4 ((if v then setBit else clearBit) (d.ctxAt c 0 4) b)

/-- Was the context marked failed by an HBM error (R443)? -/
def Dev.ctxBad (d : Dev) (c : Nat) : Bool := d.ctxFailed.contains c

/-- The key of a slot: 16 or 32 bytes by key256 (R273). -/
def Dev.ctxKey (d : Dev) (c slot : Nat) : List Byte :=
  sliceBytes (d.ctxKeys.getD c (List.replicate 64 0)) (32 * slot) (if d.ctxBit c 4 then 32 else 16)

/-- A record to CRY_NOTIFY (R288), or its loss. -/
def Dev.cryRecord (kind c number : Nat) (d : Dev) : Dev :=
  let d := if kind = 3 then d.cause cryCauses 1 else d.cause cryCauses 0
  let r := if d.on R.CRY_NOTIFY_valid then
      d.notify (d.rd R.CRY_NOTIFY_ring) [kind + 256 * c, number % 2 ^ 32, number / 2 ^ 32 % 2 ^ 32]
    else (false, d)
  if r.1 then r.2 else (r.2.bump R.CRY_NOTIFY_LOST_count).cause cryCauses 2

/-! ## The instance pool (R270) -/

/-- The inbound jobs at a crypto position, oldest first. -/
def Dev.cryJobs (d : Dev) (p : Nat) : NMap Item := d.items.filter (fun _ it => it.stage == .crypto && it.job == 0 && it.cryPosition == p)

/-- Bytes of the inbound jobs queued at a crypto position. -/
def Dev.cryLoad (d : Dev) (p : Nat) : Nat := ((d.cryJobs p).vals.map (fun it => it.bytes.length)).sum

/-- Crypto positions in service, rising. -/
def Dev.cryInService (d : Dev) : List Nat :=
  (List.range 46).filter (fun p => d.hasCry p && decide ((d.cryAt p).phase = .inService))

/-- The position that an inbound job goes to: the least work queued in its direction, the lowest on a tie. -/
def Dev.cryPick (d : Dev) : Option Nat :=
  d.cryInService.foldl (fun best p => match best with
    | none => some p
    | some q => if d.cryLoad p < d.cryLoad q then some p else best) none

/-- Bytes processed at a position. -/
def Dev.cryCount (p n : Nat) (d : Dev) : Dev :=
  d.wr64 R.CRY_INST_BYTES_LO_bytes R.CRY_INST_BYTES_HI_bytes
    ((d.rd64 R.CRY_INST_BYTES_LO_bytes R.CRY_INST_BYTES_HI_bytes p + n) % 2 ^ 64) p

/-- A job of `n` bytes runs inside one step of the retire stage or of the MAC: none of its kind is ever queued, so the lowest position
takes it (notes/assumptions/83.md). -/
def Dev.cryJob (n : Nat) (d : Dev) : Dev :=
  match d.cryInService.head? with
  | some p => d.cryCount p n
  | none => d

/-- The job that runs at a position: one that has started, else the oldest (R270). -/
def Dev.cryHead (d : Dev) (p : Nat) : Option Nat :=
  match ((d.cryJobs p).filter (fun _ it => it.jobCtx.isSome)).keys.head? with
  | some i => some i
  | none => (d.cryJobs p).keys.head?

/-- The job at the head of each position's queue starts: it reads its context (R274). -/
def Dev.startJobs (d : Dev) : Dev :=
  Dev.each d.cryInService (fun p d =>
    match d.cryHead p with
    | some i => d.onItem i (fun it => if it.jobCtx.isSome then it else
        { it with jobCtx := some (d.ctx it.sa, d.ctxKeys.getD it.sa (List.replicate 64 0)) })
    | none => d) d

/-- Jobs whose position does not run them go to another, where one is in service: a vacated position's, and those not started at one
that sits out (R272). -/
def Dev.assignJobs (d : Dev) : Dev :=
  let lost := (d.items.filter (fun _ it => it.stage == .crypto && it.job == 0 && (d.cryAt it.cryPosition).phase != .inService &&
    !(decide ((d.cryAt it.cryPosition).phase = .grace) && it.jobCtx.isSome))).keys
  (Dev.each lost (fun i d => match d.cryPick with
    | some q => d.onItem i (fun it => { it with cryPosition := q })
    | none => d) d).startJobs

/-! ## IP headers in a frame -/

/-- The IP header that a frame's outermost layer holds. -/
def outerIp (c : ParseCfg) (f : Frame) : Option Ip := (parse c f).ip

/-- Rewrite an IPv4 header's checksum. -/
def fixV4 (off : Nat) (f : Frame) : Frame :=
  let size := 4 * (byteAt f off % 16)
  let f := putBytes f (off + 10) [0, 0]
  putBytes f (off + 10) (beBytes (csumOf (sum16 (sliceBytes f off size))) 2)

/-- Set the length fields of an IP header so that the datagram ends at `stop`. -/
def setIpLen (i : Ip) (stop : Nat) (f : Frame) : Frame :=
  if i.v4 then fixV4 i.off (putBytes f (i.off + 2) (beBytes (stop - i.off) 2))
  else putBytes f (i.off + 4) (beBytes (stop - i.off - 40) 2)

/-- The place of the byte that names the header at the end of the extension headers of IPv6 that `keep` admits, and that header's
offset. -/
def nextHeaderPlace (f : Frame) (keep : Nat → Bool) : Nat → Nat → Nat → Nat × Nat
  | 0, place, pos => (place, pos)
  | n + 1, place, pos =>
    if keep (byteAt f place) then
      nextHeaderPlace f keep n pos (pos + (if byteAt f place = 44 then 8 else 8 * (byteAt f (pos + 1) + 1)))
    else (place, pos)

/-- The byte that names the payload of an IP header, and where the payload begins; hop-by-hop and routing headers stay before
it (R280). -/
def Ip.protoPlace (i : Ip) (f : Frame) : Nat × Nat :=
  if i.v4 then (i.off + 9, i.off + 4 * (byteAt f i.off % 16))
  else nextHeaderPlace f (fun p => p == 0 || p == 43) 4 (i.off + 6) (i.off + 40)

/-! ## ESP (R276, R279-R281) -/

/-- Nonce and AAD of ESP, and the authenticated text under gmac. -/
def Dev.espAad (d : Dev) (c number : Nat) : List Byte :=
  beBytes (d.ctxAt c 8 4) 4 ++ (if d.ctxBit c 6 then beBytes (number / 2 ^ 32) 4 else []) ++ beBytes (number % 2 ^ 32) 4

/-- The ESP payload after its IV: ciphertext and ICV (R280 steps 3 and 6). -/
def Dev.espSeal (d : Dev) (c number : Nat) (plain : List Byte) : List Byte :=
  let iv := beBytes number 8
  let nonce := sliceBytes (d.ctx c) 12 4 ++ iv
  if d.ctxBit c 5 then plain ++ Config.gcmSeal (d.ctxKey c 0) nonce (d.espAad c number ++ iv ++ plain) []
  else Config.gcmSeal (d.ctxKey c 0) nonce (d.espAad c number) plain

/-- The plaintext of an inbound ESP payload, where the ICV verifies. -/
def Dev.espOpen (d : Dev) (c number : Nat) (iv body : List Byte) : Option (List Byte) :=
  let nonce := sliceBytes (d.ctx c) 12 4 ++ iv
  if d.ctxBit c 5 then
    let plain := body.take (body.length - 16)
    (Config.gcmOpen (d.ctxKey c 0) nonce (d.espAad c number ++ iv ++ plain) (body.drop (body.length - 16))).map (fun _ => plain)
  else Config.gcmOpen (d.ctxKey c 0) nonce (d.espAad c number) body

/-- The last number of an SA. -/
def Dev.espLast (d : Dev) (c : Nat) : Nat := if d.ctxBit c 6 then 2 ^ 64 - 1 else 2 ^ 32 - 1

/-- Has an outbound SA `k` numbers left? None once exhausted is set (R276). -/
def Dev.espRoom (d : Dev) (c k : Nat) : Bool :=
  !d.ctxBit c 8 && d.ctxAt c 0x10 8 != 0 && d.ctxAt c 0x10 8 + k ≤ d.espLast c + 1

/-- An item's allocation would pass the last number (R279). -/
def Dev.espExhaust (c : Nat) (d : Dev) : Dev :=
  (((d.putCtxBit c 8 true).bumpCtx c 0x38 4 1).bump R.CRY_TX_LIMIT_DROPS_count).cryRecord 2 c (d.ctxAt c 0x10 8)

/-- Allocate the next number of an outbound SA (R163, R279). -/
def Dev.espNumber (c : Nat) (d : Dev) : Nat × Dev :=
  let n := d.ctxAt c 0x10 8
  let d := d.setCtx c 0x10 8 ((n + 1) % 2 ^ 64)
  (n, if n = d.ctxAt c 0x18 8 then d.cryRecord 1 c n else d)

/-- The trailer of R280 step 6 for a payload of `n` bytes. -/
def espTrailer (n nextHeader : Nat) : List Byte :=
  let pad := (4 - (n + 2) % 4) % 4
  (List.range pad).map (fun k => BitVec.ofNat 8 (k + 1)) ++ [BitVec.ofNat 8 pad, BitVec.ofNat 8 nextHeader]

/-- Encapsulate a frame under an allocated number; `ident` is the IPv4 identification of R199. -/
def Dev.espWrap (d : Dev) (c number ident : Nat) (i : Ip) (f : Frame) : Frame :=
  let header := beBytes (d.ctxAt c 8 4) 4 ++ beBytes (number % 2 ^ 32) 4 ++ beBytes number 8
  if d.ctxBit c 7 then
    let inner := sliceBytes f i.off (i.endL4 - i.off)
    let plain := inner ++ espTrailer inner.length (if i.v4 then 4 else 41)
    let n := d.ctxAt c 0x20 1 % 64
    let image := sliceBytes (d.ctx c) 0x40 n
    let v4 := n == 20
    let tos := 4 * i.dscp + i.ecn
    let image := if v4 then
        let image := putBytes (putBytes image 1 [BitVec.ofNat 8 tos]) 9 [50]
        if hasBit (byteAt image 6) 6 then image else putBytes image 4 (beBytes ident 2)
      else
        let w := beAt image 0 4
        putBytes (putBytes image 0 (beBytes (w / 2 ^ 28 * 2 ^ 28 + tos * 2 ^ 20 + w % 2 ^ 20) 4)) 6 [50]
    let body := image ++ header ++ d.espSeal c number plain
    let f := f.take (i.off - 2) ++ beBytes (if v4 then 0x0800 else 0x86DD) 2 ++ body
    setIpLen { i with v4 := v4 } (i.off + body.length) f
  else
    let at_ := i.protoPlace f
    let rest := sliceBytes f at_.2 (i.endL4 - at_.2)
    let plain := rest ++ espTrailer rest.length (byteAt f at_.1)
    let f := (putBytes f at_.1 [50]).take at_.2 ++ header ++ d.espSeal c number plain
    setIpLen i f.length f

/-- Bytes that outbound ESP adds to a frame (R202). -/
def Dev.espGrowth (d : Dev) (c : Nat) (i : Ip) (f : Frame) : Nat :=
  let n := if d.ctxBit c 7 then i.endL4 - i.off else i.endL4 - (i.protoPlace f).2
  16 + (espTrailer n 0).length + 16 + (if d.ctxBit c 7 then d.ctxAt c 0x20 1 % 64 else 0)

/-- Replay window in packets. -/
def Dev.replayWindow (d : Dev) (c : Nat) : Nat := 64 * bits (d.ctxAt c 0 4) 9 4

/-- The full number of an inbound packet (RFC 4303 Appendix A). -/
def Dev.espInfer (d : Dev) (c low : Nat) : Nat :=
  if !d.ctxBit c 6 then low
  else
    let t := d.ctxAt c 0x10 8
    let w := max 1 (d.replayWindow c)
    let tl := t % 2 ^ 32
    let th := t / 2 ^ 32
    let high := if w - 1 ≤ tl then (if tl - (w - 1) ≤ low then th else th + 1)
      else (if (tl + 2 ^ 32 - (w - 1)) % 2 ^ 32 ≤ low then th + 2 ^ 32 - 1 else th)
    high % 2 ^ 32 * 2 ^ 32 + low

/-- The inbound window as a number: bit k stands for seq − k. -/
def Dev.replayBits (d : Dev) (c : Nat) : Nat := leAt (d.ctx c) 0x80 128

/-- Does the window admit a number? -/
def Dev.replayOk (d : Dev) (c number : Nat) : Bool :=
  let w := d.replayWindow c
  let t := d.ctxAt c 0x10 8
  w == 0 || t < number || (t - number < w && !hasBit (d.replayBits c) (t - number))

/-- Take a number into the window. -/
def Dev.replayTake (c number : Nat) (d : Dev) : Dev :=
  let t := d.ctxAt c 0x10 8
  if t < number then
    (d.setCtx c 0x80 128 ((d.replayBits c * 2 ^ (min 1024 (number - t)) + 1) % 2 ^ 1024)).setCtx c 0x10 8 number
  else d.setCtx c 0x80 128 (setBit (d.replayBits c) (t - number))

/-- How an inbound job ends: the stripped frame, or the kind of its refusal (0 authentication, 1 replay, 2 malformed). -/
inductive EspEnd where
  | passed (f : Frame)
  | refused (kind : Nat)
  deriving DecidableEq, Repr

/-- The frame with its ESP taken off; in tunnel mode the EtherType follows the inner header's version. -/
def espStrip (tunnel : Bool) (i : Ip) (f : Frame) (plain : List Byte) (next : Nat) : Frame :=
  if tunnel then f.take (i.off - 2) ++ beBytes (if byteAt plain 0 / 16 = 4 then 0x0800 else 0x86DD) 2 ++ plain
  else
    let place := if i.v4 then i.off + 9 else (nextHeaderPlace f (fun p => p == 0 || p == 43 || p == 44 || p == 60) 4 (i.off + 6) (i.off + 40)).1
    let f := (putBytes f place [BitVec.ofNat 8 next]).take i.offL4 ++ plain
    setIpLen i f.length f

/-- The device as a job sees it: the configuration that it read when it started, with the live window (R274). -/
def Dev.jobView (c : Nat) (cfg : List Byte × List Byte) (d : Dev) : Dev :=
  let live := d.ctx c
  let b := if d.ctxType c = 2 then putBytes (putBytes cfg.1 0x10 (sliceBytes live 0x10 8)) 0x80 (live.drop 0x80) else cfg.1
  { d with ctxs := d.ctxs.set c b, ctxKeys := d.ctxKeys.set c cfg.2 }

/-- The checks of R281 in their order; `v` is the device with the configuration that the job read. -/
def Dev.espJob (c : Nat) (i : Ip) (f : Frame) (v d : Dev) : EspEnd × Dev :=
  let body := sliceBytes f (i.offL4 + 16) (i.endL4 - (i.offL4 + 16))
  let number := v.espInfer c (beAt f (i.offL4 + 4) 4)
  if v.ctxType c ≠ 2 ∨ d.ctxBad c = true ∨ body.length < 18 then (.refused 2, d)
  else if !v.replayOk c number then (.refused 1, d.bumpCtx c 0x3C 4 1)
  else
    match v.espOpen c number (sliceBytes f (i.offL4 + 8) 8) body with
    | none => (.refused 0, d.bumpCtx c 0x38 4 1)
    | some plain =>
      let d := ((d.replayTake c number).bumpCtx c 0x28 8 1).bumpCtx c 0x30 8 f.length
      let n := plain.length
      let pad := byteAt plain (n - 2)
      let next := byteAt plain (n - 1)
      let padOk := pad + 2 ≤ n && (List.range pad).all (fun k => byteAt plain (n - 2 - pad + k) == (k + 1) % 256)
      if padOk && (!v.ctxBit c 7 || next == 4 || next == 41) then
        (.passed (espStrip (v.ctxBit c 7) i f (plain.take (n - 2 - pad)) next), d)
      else (.refused 2, d)

/-- Count a refusal of the crypto stage. -/
def Dev.countEspRefusal (kind : Nat) (d : Dev) : Dev :=
  if kind = 0 then d.bump R.CRY_RX_AUTH_FAIL_count
  else if kind = 1 then d.bump R.CRY_RX_REPLAY_count
  else d.bump R.CRY_RX_MALFORMED_count

/-! ## MACsec (R278, R283-R285) -/

/-- The transmit SC of a MAC instance, where tx_enable is set. -/
def Dev.macsecTx (d : Dev) (m : Nat) : Option Nat :=
  if d.on R.CRY_MACSEC_TX_tx_enable 0 (8 * m) then some (d.rd R.CRY_MACSEC_TX_tx_sc 0 (8 * m)) else none

/-- Bytes that MACsec adds (R284). -/
def Dev.macsecGrowth (d : Dev) (m : Nat) : Nat :=
  match d.macsecTx m with
  | some c => if d.ctxBit c 7 then 32 else 24
  | none => 0

/-- Association number, next or lowest PN, short SCI and salt of a slot. -/
def Dev.secAn (d : Dev) (c slot : Nat) : Nat := bits (d.ctxAt c 0 4) (9 + 2 * slot) 2
def Dev.secValid (d : Dev) (c slot : Nat) : Bool := d.ctxBit c (13 + slot)
def Dev.secPn (d : Dev) (c slot : Nat) : Nat := d.ctxAt c (0x10 + 8 * slot) 8

/-- The nonce of MACsec: SCI and PN, or under XPN short SCI and PN XOR salt. -/
def Dev.secNonce (d : Dev) (c slot pn : Nat) (sci : List Byte) : List Byte :=
  if d.ctxBit c 5 then
    List.zipWith (· ^^^ ·) (beBytes (d.ctxAt c (0x20 + 4 * slot) 4) 4 ++ beBytes pn 8) (sliceBytes (d.ctx c) (0x28 + 12 * slot) 12)
  else sci ++ beBytes (pn % 2 ^ 32) 4

/-- May the SC send: type 4, active slot valid, its PN inside the space (R284)? -/
def Dev.macsecReady (d : Dev) (c : Nat) : Bool :=
  let slot := (d.ctxBit c 8).toNat
  d.ctxType c == 4 && !d.ctxBad c && d.secValid c slot && d.secPn c slot != 0 &&
  d.secPn c slot ≤ (if d.ctxBit c 5 then 2 ^ 64 - 1 else 2 ^ 32 - 1)

/-- Protect a frame with the next PN of the active slot. -/
def Dev.macsecSeal (c : Nat) (f : Frame) (d : Dev) : Frame × Dev :=
  let slot := (d.ctxBit c 8).toNat
  let pn := d.secPn c slot
  let conf := d.ctxBit c 6
  let sci := sliceBytes (d.ctx c) 8 8
  let tci := d.secAn c slot + (if conf then 12 else 0) + (if d.ctxBit c 7 then 32 else 0)
  let data := f.drop 12
  let sl := if data.length < 48 then data.length else 0
  let tag := beBytes 0x88E5 2 ++ [BitVec.ofNat 8 tci, BitVec.ofNat 8 sl] ++ beBytes (pn % 2 ^ 32) 4 ++ (if d.ctxBit c 7 then sci else [])
  let head := f.take 12 ++ tag
  let nonce := d.secNonce c slot pn sci
  let out := if conf then head ++ Config.gcmSeal (d.ctxKey c slot) nonce head data
    else head ++ data ++ Config.gcmSeal (d.ctxKey c slot) nonce (head ++ data) []
  let d := ((d.setCtx c (0x10 + 8 * slot) 8 ((pn + 1) % 2 ^ 64)).bumpCtx c 0x48 8 1).bumpCtx c 0x50 8 f.length
  let d := if pn = (if d.ctxBit c 5 then 3 * 2 ^ 62 else 3 * 2 ^ 30) then d.cryRecord 4 c pn else d
  (out, d.cryJob f.length)

/-- Is a SecTAG valid: version 0, no explicit SCI with ES or SCB, C and E alike, a short length below 48, and a frame that holds what it
says? These and the recovery of a PN's high half are IEEE 802.1AE's (PRESUMED, notes/assumptions/84.md). -/
def secTagOk (f : Frame) : Bool :=
  let tci := byteAt f 14
  let sl := byteAt f 15
  let n := f.length - (if hasBit tci 5 then 28 else 20)
  !hasBit tci 7 && !(hasBit tci 5 && (hasBit tci 6 || hasBit tci 4)) && hasBit tci 3 == hasBit tci 2 && sl < 48 &&
  (if sl = 0 then 64 ≤ n else sl + 16 ≤ n)

/-- The full PN under XPN: the high half goes up where the lowest acceptable PN's low half has its top bit set and the received one has
not. -/
def xpnOf (lowest low : Nat) : Nat :=
  (lowest / 2 ^ 32 + (hasBit lowest 31 && !hasBit low 31).toNat) * 2 ^ 32 + low

/-- How a received frame fares in the SecY of its MAC instance: the frame that goes on, or a refusal. -/
def Dev.macsecReceive (m : Nat) (f : Frame) (d : Dev) : Option Frame × Dev :=
  let a := 8 * m
  if !d.on R.CRY_MACSEC_RX_rx_enable 0 a then (some f, d)
  else
    let strict := d.on R.CRY_MACSEC_RX_strict 0 a
    let fails (d : Dev) : Option Frame × Dev := (if strict then none else some f, d)
    if beAt f 12 2 ≠ 0x88E5 then (if strict && beAt f 12 2 != 0x888E then none else some f, d)
    else
      let tci := byteAt f 14
      let low := beAt f 16 4
      let explicit := hasBit tci 5
      let n := min 16 (d.rd R.CRY_MACSEC_RX_rx_sc_count 0 a)
      let base := d.rd R.CRY_MACSEC_RX_rx_sc_base 0 a
      let scs := (List.range n).map (base + ·)
      let sci := if explicit then sliceBytes f 20 8 else sliceBytes f 6 6 ++ (if hasBit tci 4 then [0, 0] else [0, 1])
      let sc := scs.find? (fun c => d.ctxType c == 5 && (sliceBytes (d.ctx c) 8 8 == sci || (!explicit && !hasBit tci 6 && n == 1)))
      match (if secTagOk f then sc else none) with
      | none => fails d
      | some c =>
        let slot := if d.secValid c 0 && d.secAn c 0 == tci % 4 then some 0
          else if d.secValid c 1 && d.secAn c 1 == tci % 4 then some 1 else none
        match slot with
        | none => fails (d.bumpCtx c 0x58 4 1)
        | some k =>
          let lowest := d.secPn c k
          let pn := if d.ctxBit c 5 then xpnOf lowest low else low
          if pn < lowest ∨ pn = 0 then fails (d.bumpCtx c 0x5C 4 1)
          else
            let head := 20 + (if explicit then 8 else 0)
            let sl := byteAt f 15
            let body := (f.drop head).take (if sl = 0 then f.length else sl + 16)
            let nonce := d.secNonce c k pn (sliceBytes (d.ctx c) 8 8)
            let data := body.take (body.length - 16)
            let conf := hasBit tci 3
            let plain := if body.length < 16 ∨ d.ctxBad c = true then none
              else if conf then Config.gcmOpen (d.ctxKey c k) nonce (f.take head) body
              else (Config.gcmOpen (d.ctxKey c k) nonce (f.take head ++ data) (body.drop (body.length - 16))).map (fun _ => data)
            match plain with
            | none => fails (d.bumpCtx c 0x58 4 1)
            | some p =>
              let floor := pn - d.ctxAt c 0x40 4
              let d := if lowest < floor then d.setCtx c (0x10 + 8 * k) 8 floor else d
              (some (f.take 12 ++ p), ((d.bumpCtx c 0x48 8 1).bumpCtx c 0x50 8 f.length).cryJob f.length)

/-! ## TLS records (R277, R286, R287) -/

/-- A record of a TLS payload: its offset from the payload's start and its length field L. -/
def tlsRecords : Nat → Nat → List Byte → Option (List (Nat × Nat))
  | 0, _, b => if b.isEmpty then some [] else none
  | fuel + 1, off, b =>
    if b.isEmpty then some []
    else
      let l := beAt b 3 2
      if b.length < 5 + l ∨ byteAt b 0 ≠ 23 ∨ beAt b 1 2 ≠ 0x0303 ∨ l < 17 ∨ 16640 < l then none
      else (tlsRecords fuel (off + 5 + l) (b.drop (5 + l))).map (fun r => (off, l) :: r)

/-- The number state of a TLS context. -/
structure TlsNum where
  active : Nat
  next : Nat
  prev : Nat
  deriving DecidableEq, Repr

/-- What a record asks for: slot, number and whether it is a resend; with the state after it. -/
def tlsPlan (tag : List Byte) (n : TlsNum) : Option ((Nat × Nat × Bool) × TlsNum) :=
  let zero (a b : Nat) : Bool := (List.range (b - a)).all (fun k => byteAt tag (a + k) == 0)
  let op := byteAt tag 15
  if op = 1 then
    let slot := byteAt tag 8
    let num := leAt tag 0 8
    if zero 9 15 && slot < 2 && num < (if slot = n.active then n.next else n.prev) then some ((slot, num, true), n) else none
  else if !zero 0 15 then none
  else if op = 0 then some ((n.active, n.next, false), { n with next := n.next + 1 })
  else if op = 2 then some ((1 - n.active, 0, false), { active := 1 - n.active, next := 1, prev := n.next })
  else none

/-- The plans of an item's records, with op 2 at most once. -/
def tlsPlans (payload : List Byte) : List (Nat × Nat) → TlsNum → Bool → Option (List ((Nat × Nat) × Nat × Nat × Bool) × TlsNum)
  | [], n, _ => some ([], n)
  | (off, l) :: rest, n, switched =>
    let tag := sliceBytes payload (off + 5 + l - 16) 16
    let sw := byteAt tag 15 == 2
    if sw && switched then none
    else
      match tlsPlan tag n with
      | none => none
      | some (p, n) => (tlsPlans payload rest n (switched || sw)).map (fun r => (((off, l), p) :: r.1, r.2))

/-- The number state of a context. -/
def Dev.tlsState (d : Dev) (c : Nat) : TlsNum :=
  { active := (d.ctxBit c 5).toNat, next := d.ctxAt c 0x20 8, prev := d.ctxAt c 0x28 8 }

/-- One record encrypted in place. -/
def Dev.tlsSeal (d : Dev) (c : Nat) (payload : List Byte) (r : (Nat × Nat) × Nat × Nat × Bool) : List Byte :=
  let off := r.1.1
  let l := r.1.2
  let iv := sliceBytes (d.ctx c) (8 + 12 * r.2.1) 12
  let nonce := List.zipWith (· ^^^ ·) iv (List.replicate 4 0 ++ beBytes r.2.2.1 8)
  putBytes payload (off + 5) (Config.gcmSeal (d.ctxKey c r.2.1) nonce (sliceBytes payload off 5) (sliceBytes payload (off + 5) (l - 16)))

/-- TLS processing of an item's frame (R287): the frame with its records sealed, or a refusal with nothing allocated. -/
def Dev.tlsProcess (c : Nat) (cfg : ParseCfg) (f : Frame) (d : Dev) : Option Frame × Dev :=
  let refused : Option Frame × Dev := (none, (d.bumpCtx c 0x44 4 1).bump R.CRY_TX_REFUSED_count)
  match outerIp cfg f with
  | none => refused
  | some i =>
    let payload := sliceBytes f i.payload (i.endL4 - i.payload)
    if i.l4 ≠ 1 ∨ d.ctxBit c 6 = true ∨ d.ctxBad c = true ∨ payload.isEmpty then refused
    else
      match (tlsRecords payload.length 0 payload).bind (fun rs => tlsPlans payload rs (d.tlsState c) false) with
      | none => refused
      | some (plans, n) =>
        let sealed := plans.foldl (fun b r => d.tlsSeal c b r) payload
        let d := ((d.putCtxBit c 5 (n.active == 1)).setCtx c 0x20 8 n.next).setCtx c 0x28 8 n.prev
        let d := (d.bumpCtx c 0x38 8 plans.length).bumpCtx c 0x40 4 (plans.filter (fun r => r.2.2.2)).length
        let limit := d.ctxAt c 0x30 8
        let d := if limit ≠ 0 ∧ plans.any (fun r => !r.2.2.2 && r.2.2.1 == limit) then d.cryRecord 1 c limit else d
        (some (putBytes f i.payload sealed), d.cryJob f.length)

/-! ## Snapshots (R290) -/

/-- The bytes of a context without salts, IVs and SSCIs. -/
def maskedCtx (b : List Byte) : List Byte :=
  let blank (o n : Nat) (b : List Byte) := putBytes b o (List.replicate n 0)
  match leAt b 0 4 % 16 with
  | 1 => blank 0x0C 4 b
  | 2 => blank 0x0C 4 b
  | 3 => blank 8 24 b
  | 4 => blank 0x20 32 b
  | 5 => blank 0x20 32 b
  | _ => b

/-- The snapshot of context `c` starts for a master. -/
def Dev.crySnapStart (mid c : Nat) (d : Dev) : Dev :=
  if d.on R.CRY_CTX_STATUS_busy then d
  else { d with crySnap := some (mid, c) }.wr R.CRY_CTX_STATUS_busy 1

/-- May `mid` see the context? -/
def Dev.mayReadCtx (d : Dev) (mid c : Nat) : Bool :=
  d.ctxType c != 0 && (if isFnMid mid then d.pfOf (d.ctxOwner c) == mid - 0x1000 || d.ctxOwner c == mid - 0x1000 else true)

/-- The snapshot lands. -/
def Dev.crySnapEnd (d : Dev) : Dev :=
  match d.crySnap with
  | none => d
  | some (mid, c) =>
    let ok := d.mayReadCtx mid c
    let b := if ok then maskedCtx (d.ctx c) else []
    let d := { d with crySnap := none }
    let d := Dev.each (List.range 64) (fun n d => d.wr R.CRY_CTX_DATA_data (leAt b (4 * n) 4) 0 (4 * n)) d
    ((d.wr R.CRY_CTX_STATUS_busy 0).wr R.CRY_CTX_STATUS_valid ok.toNat).wr R.CRY_CTX_STATUS_denied (!ok).toNat

/-- CRY_CTX_SNAP: the snap bit is written while CRY_CTX_SELECT names the context. -/
def execCryCtxSnap (mid index : Nat) (s : State) : Out :=
  s.onRun (fun d => (d.wr R.CRY_CTX_SELECT_context index).crySnapStart mid (index % 2 ^ 24))

/-- CRY_CTX_SNAP_DONE. -/
def execCryCtxSnapDone (s : State) : Out := s.onRun Dev.crySnapEnd

end Sys2Proof.Machine
end

