-- ==== Sys2Proof/Machine/Tempo.lean ====
section
/-!
DEFINITION. The Tempo unit (R363-R393): domains and their steering, uncertainty, latched reads, timed-action slots, TIME_IO pins
and capture records. A command that stands for a moment (a pulse time, the end of an interval) is sent when the moment comes
(notes/assumptions/23.md).
-/

namespace Sys2Proof.Machine

/-! ## Domains -/

/-- Domain `k`: 0 Lead, 1 Follow. -/
def Dev.dom (d : Dev) (k : Nat) : Domain := if k = 0 then d.tempo.lead else d.tempo.follow

/-- Change domain `k`. -/
def Dev.onDom (d : Dev) (k : Nat) (f : Domain → Domain) : Dev :=
  if k = 0 then { d with tempo := { d.tempo with lead := f d.tempo.lead } }
  else { d with tempo := { d.tempo with follow := f d.tempo.follow } }

/-- Has the domain been set? -/
def Dev.domValid (d : Dev) (k : Nat) : Bool := d.on R.TMP_DOM_UNC_valid 0 (128 * k)

/-- A whole time in ns, and in 2^-32 ns. -/
def Domain.nsTotal (t : Domain) : Nat := t.sec * 1000000000 + t.ns
def Domain.total (t : Domain) : Nat := t.nsTotal * 2 ^ 32 + t.frac

/-- The domain at a time given in 2^-32 ns; seconds wrap modulo 2^48 (R363). -/
def Domain.setTotal (t : Domain) (v : Nat) : Domain :=
  { t with
    sec := v / 2 ^ 32 / 1000000000 % 2 ^ 48
    ns := v / 2 ^ 32 % 1000000000
    frac := v % 2 ^ 32 }

/-- The clamp of R367. -/
def clampInc (v : Nat) : Nat := max 0x3FEF9DB23 (min v 0x4010624DD)

/-- Growth since the anchor, in 0.01 ppb × ns, with the age rounded up to a whole millisecond (R364, R370). -/
def Dev.growth (d : Dev) (k : Nat) : Nat :=
  let t := d.dom k
  let up := (t.age + 999999) / 1000000 * 1000000
  let sub := if d.on R.TMP_STATUS_ref_lost then t.subAge + (up - t.age) else t.subAge
  let drift := d.rd R.TMP_DOM_DRIFT_drift 0 (128 * k)
  drift * (up - sub) + max drift (100 * d.rd R.TMP_REF_CFG_ref_sub_ppb) * sub

/-- The uncertainty as R370 computes it, saturating at 0xFFFE. -/
def Dev.computeUnc (d : Dev) (k : Nat) : Nat :=
  min 0xFFFE ((d.dom k).base + (d.growth k * 8 + (100000000000 - 1)) / 100000000000)

/-- The uncertainty as it reads. -/
def Dev.unc (d : Dev) (k : Nat) : Nat :=
  if !d.domValid k || (d.dom k).base = 0xFFFF then 0xFFFF else (d.dom k).unc

/-- An uncertainty with terms added (R372). -/
def addUnc (u n : Nat) : Nat := if u = 0xFFFF then u else min 0xFFFE (u + n)

/-- The alarm: raised at each rise to alarm_unc or above, and again only after an anchor below it (R371); 0xFFFF of a valid domain is
above every alarm_unc (DEDUCED, notes/assumptions/91.md). -/
def Dev.checkAlarm (k : Nat) (d : Dev) : Dev :=
  if d.domValid k && d.rd R.TMP_DOM_ALARM_alarm_unc 0 (128 * k) ≤ d.unc k && !(d.dom k).alarm then
    (d.onDom k (fun t => { t with alarm := true })).cause tmpCauses (4 + k)
  else d

/-- Recompute a domain's uncertainty. -/
def Dev.updateUnc (k : Nat) (d : Dev) : Dev := (d.onDom k (fun t => { t with unc := d.computeUnc k })).checkAlarm k

/-- Store the anchor age as the register shows it. -/
def Dev.showAge (k : Nat) (d : Dev) : Dev :=
  d.wr R.TMP_DOM_ANCHOR_AGE_age_ms (min 0xFFFFFFFF ((d.dom k).age / 1000000)) 0 (128 * k)

/-- Set or clear holdover, in TMP_STATUS and in the domain. -/
def Dev.setHoldover (k : Nat) (v : Bool) (d : Dev) : Dev :=
  (d.wr R.TMP_DOM_UNC_holdover v.toNat 0 (128 * k)).wr (if k = 0 then R.TMP_STATUS_lead_holdover else R.TMP_STATUS_follow_holdover) v.toNat

/-- A write of TMP_DOM_BASE anchors the domain (R370, R371). -/
def Dev.anchor (k v : Nat) (d : Dev) : Dev :=
  let v := v % 65536
  let d := d.wr R.TMP_DOM_BASE_base_unc v 0 (128 * k)
  let d := d.onDom k (fun t => { t with
    base := v
    age := 0
    subAge := 0
    unc := min 0xFFFE v
    alarm := t.alarm && d.rd R.TMP_DOM_ALARM_alarm_unc 0 (128 * k) ≤ v })
  (d.setHoldover k false |>.showAge k).checkAlarm k

/-- A write of TMP_DOM_INC_HI commits the increment (R367). -/
def Dev.commitInc (k hi : Nat) (d : Dev) : Dev :=
  let v := clampInc (d.rd R.TMP_DOM_INC_LO_inc 0 (128 * k) + 2 ^ 32 * (hi % 256))
  ((d.onDom k (fun t => { t with inc := v })).wr R.TMP_DOM_INC_LO_inc (v % 2 ^ 32) 0 (128 * k)).wr R.TMP_DOM_INC_HI_inc (v / 2 ^ 32) 0 (128 * k)

/-! ## Slots -/

/-- Slot `n`. -/
def Dev.slot (d : Dev) (n : Nat) : TSlot := d.tempo.slots.getD n {}

/-- Change slot `n`. -/
def Dev.onSlot (d : Dev) (n : Nat) (f : TSlot → TSlot) : Dev :=
  { d with tempo := { d.tempo with slots := d.tempo.slots.upd n {} f } }

/-- Slot state: 0 idle, 1 armed, 2 done, 3 missed. -/
def Dev.slotState (d : Dev) (n : Nat) : Nat := d.rd R.TMP_SLOT_STATUS_state 0 (64 * n)
def Dev.setSlotState (n v : Nat) (d : Dev) : Dev := d.wr R.TMP_SLOT_STATUS_state v 0 (64 * n)

/-- Set slot flag `n`. -/
def Dev.slotFlag (n : Nat) (d : Dev) : Dev :=
  d.wr R.TMP_SLOT_FLAGS_flags (setBit (d.rd R.TMP_SLOT_FLAGS_flags 0 (4 * (n / 32))) (n % 32)) 0 (4 * (n / 32))

/-- The source that a slot follows now. -/
def Dev.slotSource (d : Dev) (n : Nat) : Nat := d.rd R.TMP_SLOT_STATUS_source_now 0 (64 * n)

/-- A domain's time in 10^-9 ns. -/
def Dev.fine (d : Dev) (k : Nat) : Int := ((d.dom k).total * 1000000000 / 2 ^ 32 : Nat)

/-- The slot clock in 10^-9 ns, and in whole ns (R380, R387). -/
def Dev.slotFine (d : Dev) (n : Nat) : Int := d.fine (d.slotSource n) + (d.slot n).offset
def Dev.slotNow (d : Dev) (n : Nat) : Nat := (d.slotFine n / 1000000000).toNat

/-- Show the remaining offset and the next pulse time. -/
def Dev.showSlot (n : Nat) (d : Dev) : Dev :=
  let s := d.slot n
  let d := d.wr R.TMP_SLOT_OFFSET_value ((s.offset / 1000000000) % 2 ^ 32).toNat 0 (64 * n)
  (d.wr R.TMP_SLOT_NEXT_NS_value (s.next % 1000000000) 0 (64 * n)).wr R.TMP_SLOT_NEXT_SEC_value (s.next / 1000000000) 0 (64 * n)

/-- The first boundary of a periodic slot after `now`. -/
def firstAfter (start period now : Nat) : Nat :=
  if now < start then start else start + ((now - start) / max 1 period + 1) * max 1 period

/-- A pulse time was missed (R382, R386). -/
def Dev.missPulse (n : Nat) (d : Dev) : Dev := ((d.setSlotState n 3).slotFlag n).cause tmpCauses 7

/-- Is the slot a pulse slot that is armed? -/
def Dev.pulseArmed (d : Dev) (n : Nat) : Bool := d.slotState n == 1 && ((d.slot n).kind == 1 || (d.slot n).kind == 2)

/-- Must an arm be refused (R380)? -/
def Dev.badArm (d : Dev) (n source : Nat) : Bool :=
  let a := 64 * n
  let kind := d.rd R.TMP_SLOT_CFG_kind 0 a
  let period := d.rd R.TMP_SLOT_PERIOD_value 0 a
  let width := d.rd R.TMP_SLOT_WIDTH_value 0 a
  let pulse := kind == 1 || kind == 2
  (kind == 2 && (period < 100 || period < width + 8)) || (pulse && width < 8) ||
  (pulse && d.rd R.TMP_PIN_CFG_dir 0 (4 * d.rd R.TMP_SLOT_CFG_pin 0 a) != 2) || !d.domValid source

/-- A register value that acts as another where it is below `lo`. -/
def actsAs (lo instead v : Nat) : Nat := if v < lo then instead else v

/-- Arm a slot (R380, R382): a slot that was disarmed while it slewed keeps its source and its offset (R390). A slot whose kind is off
has nothing to start: it is left idle (DESIGN CHOICE, notes/assumptions/91.md). -/
def Dev.arm (n : Nat) (d : Dev) : Dev :=
  let a := 64 * n
  let kind := d.rd R.TMP_SLOT_CFG_kind 0 a
  if kind = 0 then (d.setSlotState n 0).wr R.TMP_SLOT_STATUS_bad_config 0 0 a
  else
    let slewing := d.on R.TMP_SLOT_STATUS_slewing 0 a
    let source := if slewing then d.slotSource n else d.rd R.TMP_SLOT_CFG_source 0 a
    if d.badArm n source then (d.setSlotState n 0).wr R.TMP_SLOT_STATUS_bad_config 1 0 a
    else
      let start := (d.rd R.TMP_SLOT_START_SEC_LO_value 0 a + 2 ^ 32 * bits (d.rd R.TMP_SLOT_START_SEC_HI_value 0 a) 0 16) * 1000000000 +
        bits (d.rd R.TMP_SLOT_START_NS_value 0 a) 0 30
      let d := ((d.wr R.TMP_SLOT_STATUS_bad_config 0 0 a).wr R.TMP_SLOT_STATUS_source_now source 0 a).wr R.TMP_SLOT_COUNT_value 0 0 a
      let period := d.rd R.TMP_SLOT_PERIOD_value 0 a
      let d := d.onSlot n (fun s => { s with
        kind := kind
        source := source
        useDesc := d.on R.TMP_SLOT_CFG_use_desc_domain 0 a
        pin := d.rd R.TMP_SLOT_CFG_pin 0 a
        irqDone := d.on R.TMP_SLOT_CFG_irq_done 0 a
        start := start
        period := period
        width := d.rd R.TMP_SLOT_WIDTH_value 0 a
        lead := actsAs 1000 1000 (d.rd R.TMP_SLOT_GATE_lead_ns 0 a)
        hold := actsAs 1 1000 (d.rd R.TMP_SLOT_GATE_max_hold_ms 0 a) })
      let now := d.slotNow n
      if kind = 1 ∧ start ≤ now then (d.onSlot n (fun s => { s with next := start })).missPulse n |>.showSlot n
      else
        (((d.onSlot n (fun s => { s with
          next := if kind = 1 then start else if kind = 2 then firstAfter start period now else 0 })).setSlotState n 1).showSlot n)

/-- Disarm a slot; a pulse in progress completes its width (R390). -/
def Dev.disarm (n : Nat) (d : Dev) : Dev := if d.slotState n = 1 then d.setSlotState n 0 else d

/-- Drive a TIME_IO output by the slots that pulse on it (R381, R388). -/
def Dev.drivePin (p : Nat) (d : Dev) : Dev :=
  if d.rd R.TMP_PIN_CFG_dir 0 (4 * p) = 2 then
    d.emit (.pin p ((d.tempo.slots.filter (fun _ s => s.pulsing && s.pulsePin == p)).size != 0))
  else d

/-- A pulse slot's time arrives (R381). -/
def Dev.pulse (n : Nat) (d : Dev) : Dev :=
  if !d.pulseArmed n then d
  else
    let s := d.slot n
    let d := d.onSlot n (fun s => { s with
      pulsing := true
      pulsePin := s.pin
      next := if s.kind = 2 then s.next + s.period else s.next })
    let d := (d.bump R.TMP_SLOT_COUNT_value 0 (64 * n)).drivePin s.pin |>.showSlot n
    if s.kind = 1 then
      let d := (d.setSlotState n 2).slotFlag n
      if s.irqDone then d.cause tmpCauses 9 else d
    else d

/-- The pulse's width has passed. -/
def Dev.pulseEnd (n : Nat) (d : Dev) : Dev :=
  if (d.slot n).pulsing then (d.onSlot n (fun s => { s with pulsing := false })).drivePin (d.slot n).pulsePin else d

/-- A slew ends when its offset has reached zero (R387 step 4). -/
def Dev.slewEnd (n : Nat) (d : Dev) : Dev :=
  if d.on R.TMP_SLOT_STATUS_slewing 0 (64 * n) && (d.slot n).offset == 0 then
    ((d.wr R.TMP_SLOT_STATUS_slewing 0 0 (64 * n)).showSlot n).slotFlag n |>.cause tmpCauses 10
  else d

/-- Move an armed slot to another source (R387). -/
def Dev.switchSlot (n dst : Nat) (d : Dev) : Dev :=
  let a := 64 * n
  if d.slotState n ≠ 1 then d
  else
    let off := d.slotFine n - d.fine dst
    if !d.domValid dst || 2 ^ 31 * 1000000000 ≤ off.natAbs then
      ((d.wr R.TMP_SLOT_STATUS_switch_refused 1 0 a).slotFlag n).cause tmpCauses 11
    else
      let ppb := d.rd R.TMP_SLOT_SLEW_slew_ppb 0 a
      let d := d.onSlot n (fun s => { s with
        offset := off
        source := dst
        slew := if ppb = 0 then 1000 else ppb })
      let d := ((d.wr R.TMP_SLOT_STATUS_switch_refused 0 0 a).wr R.TMP_SLOT_STATUS_source_now dst 0 a).wr R.TMP_SLOT_STATUS_slewing 1 0 a
      if off = 0 then d.slewEnd n else d.showSlot n

/-- What a step of domain `k` does to the slots that follow it (R386). -/
def Dev.slotStepped (k n : Nat) (d : Dev) : Dev :=
  if !d.pulseArmed n || d.slotSource n != k then d
  else
    let s := d.slot n
    let now := d.slotNow n
    if s.kind = 1 then (if s.next ≤ now then d.missPulse n else d)
    else (d.onSlot n (fun s => { s with next := firstAfter s.start s.period now })).showSlot n

/-- A step puts domain `k` at a time given in 2^-32 ns (R368, R386). -/
def Dev.stepDomain (k v : Nat) (d : Dev) : Dev :=
  let d := d.onDom k (fun t => t.setTotal v)
  (Dev.each (List.range 128) (Dev.slotStepped k) d).cause tmpCauses 6

/-- TMP_DOM_CMD set. -/
def Dev.domainSet (k : Nat) (d : Dev) : Dev :=
  let a := 128 * k
  let ns := d.rd R.TMP_DOM_SET_NS_value 0 a
  if 1000000000 ≤ ns then d.wr R.TMP_DOM_UNC_step_refused 1 0 a
  else
    let sec := d.rd R.TMP_DOM_SET_SEC_LO_value 0 a + 2 ^ 32 * bits (d.rd R.TMP_DOM_SET_SEC_HI_value 0 a) 0 16
    (d.wr R.TMP_DOM_UNC_valid 1 0 a).stepDomain k ((sec * 1000000000 + ns) * 2 ^ 32)

/-- TMP_DOM_CMD add: the signed 32-bit TMP_DOM_ADJ, through seconds modulo 2^48. -/
def Dev.domainAdd (k : Nat) (d : Dev) : Dev :=
  if !d.domValid k then d
  else
    let adj := (BitVec.ofNat 32 (d.rd R.TMP_DOM_ADJ_value 0 (128 * k))).toInt
    let span : Int := 2 ^ 48 * 1000000000 * 2 ^ 32
    d.stepDomain k ((((d.dom k).total : Int) + adj * 2 ^ 32) % span).toNat

/-! ## Reads -/

/-- A read of TMP_DOM_NS by `mid` latches the rest (R369). -/
def Dev.latchDomain (mid k : Nat) (d : Dev) : Dev :=
  let t := d.dom k
  { d with tempo := { d.tempo with latches := d.tempo.latches.set (2 * mid + k) { sec := t.sec, frac := t.frac, unc := d.unc k } } }

/-- The latch of a reader. -/
def Dev.latchOf (d : Dev) (mid k : Nat) : Latch := d.tempo.latches.getD (2 * mid + k) {}

/-- TMP_SNAP_CMD. -/
def Dev.snapshotTime (d : Dev) : Dev :=
  let word := fun (d : Dev) k => d.unc k + 65536 * d.rd R.TMP_DOM_UNC_valid 0 (128 * k) + 131072 * d.rd R.TMP_DOM_UNC_holdover 0 (128 * k) +
    262144 * d.rd R.TMP_DOM_UNC_step_refused 0 (128 * k)
  let a := d.dom 0
  let b := d.dom 1
  let d := (d.wr R.TMP_SNAP_LEAD_NS_value a.ns).wr R.TMP_SNAP_LEAD_SEC_LO_value (a.sec % 2 ^ 32)
  let d := (d.wr R.TMP_SNAP_LEAD_SEC_HI_value (a.sec / 2 ^ 32)).wr R.TMP_SNAP_LEAD_FRAC_value a.frac
  let d := (d.wr R.TMP_SNAP_LEAD_UNC_value (word d 0)).wr R.TMP_SNAP_FOLLOW_NS_value b.ns
  let d := (d.wr R.TMP_SNAP_FOLLOW_SEC_LO_value (b.sec % 2 ^ 32)).wr R.TMP_SNAP_FOLLOW_SEC_HI_value (b.sec / 2 ^ 32)
  let d := (d.wr R.TMP_SNAP_FOLLOW_FRAC_value b.frac).wr R.TMP_SNAP_FOLLOW_UNC_value (word d 1)
  (d.wr R.TMP_SNAP_TICKS_LO_value (d.rd R.TMP_TICKS_LO_value)).wr R.TMP_SNAP_TICKS_HI_value (d.rd R.TMP_TICKS_HI_value)

/-! ## Ticks -/

/-- TMP_TICKS. -/
def Dev.ticks (d : Dev) : Nat := d.rd64 R.TMP_TICKS_LO_value R.TMP_TICKS_HI_value

/-- One domain over `n` ticks (R363); the anchor age grows by 4 ns a tick. -/
def Domain.tick (n : Nat) (substitute : Bool) (t : Domain) : Domain :=
  { t.setTotal (t.total + n * t.inc) with
    age := t.age + 4 * n
    subAge := if substitute then t.subAge + 4 * n else t.subAge }

/-- An armed slot's offset over `n` ticks: toward zero by 4 ns × slew_ppb × 10^-9 each (R387 step 3). -/
def TSlot.tick (n : Nat) (s : TSlot) : TSlot :=
  let by_ : Int := (4 * s.slew * n : Nat)
  { s with offset := if 0 ≤ s.offset then max 0 (s.offset - by_) else min 0 (s.offset + by_) }

/-- `n` reference ticks: counters, domains, slewing slots, and the refill of packet credits at Headroom (R184). -/
def Dev.tick (n : Nat) (d : Dev) : Dev :=
  let now := (d.ticks + n) % 2 ^ 64
  let sub := d.on R.TMP_STATUS_ref_lost
  let d := (d.wr64 R.TMP_TICKS_LO_value R.TMP_TICKS_HI_value now).wr R.TMP_UPTIME_MS_value (now / 250000)
  let d := ((d.onDom 0 (Domain.tick n sub)).onDom 1 (Domain.tick n sub)).showAge 0 |>.showAge 1
  let moving := (List.range 128).filter (fun k => d.on R.TMP_SLOT_STATUS_slewing 0 (64 * k) && d.slotState k == 1)
  let d := Dev.each moving (fun k d => (d.onSlot k (TSlot.tick n)).showSlot k) d
  { d with credits := min 1024000 (d.credits + n * d.rd R.PWR_HEADROOM_headroom) }

/-- A change of tick source adds 4 ns to the base uncertainty of both domains (R364). -/
def Dev.sourceChanged (d : Dev) : Dev :=
  let f := fun (t : Domain) => { t with base := if t.base = 0xFFFF then t.base else min 0xFFFE (t.base + 32) }
  (((d.onDom 0 f).onDom 1 f).updateUnc 0).updateUnc 1

/-! ## Records (R372, R373) -/

/-- The time of domain `k` now, moved by `corr` eighths of a ns, with the uncertainty given. -/
def Dev.stampAt (d : Dev) (k : Nat) (corr : Int) (unc : Nat) : Stamp :=
  let t8 := (((d.dom k).total / 2 ^ 29 : Nat) + corr).toNat
  { sec := t8 / 8000000000, ns := t8 / 8 % 1000000000, frac := t8 % 8, domain := k, unc := unc }

/-- The first three words of a record. -/
def Stamp.words (t : Stamp) (flag : Bool) (cseq where_ : Nat) : List Nat :=
  [t.ns + 2 ^ 30 * t.domain + 2 ^ 31 * flag.toNat, t.unc + 65536 * (cseq % 65536),
   where_ % 2 ^ 22 + 2 ^ 22 * t.frac + 2 ^ 25 * (t.sec % 128)]

/-- A signed 16-bit offset in eighths of a ns. -/
def signed16 (v : Nat) : Int := (BitVec.ofNat 16 v).toInt

/-! ## TIME_IO (R388, R389) -/

/-- Pin `p`, and a change of it. -/
def Dev.timePin (d : Dev) (p : Nat) : TimePin := d.tempo.pins.getD p {}
def Dev.onTimePin (d : Dev) (p : Nat) (f : TimePin → TimePin) : Dev :=
  { d with tempo := { d.tempo with pins := d.tempo.pins.upd p {} f } }

/-- Write a capture record, hold it during a service reset, or lose it. -/
def Dev.writeCapture (words : List Nat) (d : Dev) : Dev :=
  let lose := fun (d : Dev) => (d.bump R.TMP_CAP_LOST_count).cause tmpCauses 15
  if !d.on R.TMP_CAP_RING_valid then lose d
  else if d.phase = .serviceReset then
    (if d.tempo.held.length < 64 then { d with tempo := { d.tempo with held := d.tempo.held ++ [words] } } else lose d)
  else
    match d.notify (d.rd R.TMP_CAP_RING_ring) words with
    | (true, d) => d
    | (false, d) => lose d

/-- Write the records held through a service reset. -/
def Dev.writeHeld (d : Dev) : Dev :=
  Dev.each d.tempo.held Dev.writeCapture { d with tempo := { d.tempo with held := [] } }

/-- An edge at an input pin; a level that stays is none (R389). -/
def Dev.edge (p : Nat) (rising : Bool) (d : Dev) : Dev :=
  let a := 4 * p
  let into := rising == d.on R.TMP_PIN_CFG_polarity 0 a
  if d.rd R.TMP_PIN_CFG_dir 0 a ≠ 1 ∨ (d.timePin p).level = some into then d
  else
    let d := d.onTimePin p (fun x => { x with level := some into })
    if !hasBit (d.rd R.TMP_PIN_CFG_edge 0 a) (if into then 0 else 1) then d
    else if (d.timePin p).interval then
      (d.onTimePin p (fun x => { x with coalesced := x.coalesced + 1 })).bump R.TMP_PIN_OVERRUN_count 0 a
    else
      let k := d.rd R.TMP_PIN_CFG_cap_domain 0 a
      let t := d.stampAt k (- signed16 (d.rd R.TMP_PIN_OFFSET_offset 0 a)) (addUnc (d.unc k) 16)
      let d := d.bump R.TMP_PIN_COUNT_count 0 a
      let words := t.words (d.timePin p).overrun (d.rd R.TMP_PIN_COUNT_count 0 a) (p + 4 * (!into).toNat)
      ((d.onTimePin p (fun x => { x with interval := true, coalesced := 0, overrun := false })).writeCapture words).cause tmpCauses (16 + p)

/-- min_interval has passed since the reported edge. -/
def Dev.intervalEnd (p : Nat) (d : Dev) : Dev :=
  let x := d.timePin p
  if !x.interval then d
  else
    let d := d.onTimePin p (fun x => { x with interval := false, coalesced := 0, overrun := 0 < x.coalesced })
    if 0 < x.coalesced then d.cause tmpCauses 14 else d

/-- A write of TMP_PIN_CFG_p: dir 3 is stored as 0; a pin that stops being an output disarms its pulse slots with bad_config; a
running capture interval ends (R388, R390). -/
def Dev.pinConfig (p v : Nat) (d : Dev) : Dev :=
  let a := 4 * p
  let was := d.rd R.TMP_PIN_CFG_dir 0 a
  let dir := if bits v 0 2 = 3 then 0 else bits v 0 2
  let d := (d.wr R.TMP_PIN_CFG_dir dir 0 a).wr R.TMP_PIN_CFG_polarity (bit v 2) 0 a
  let d := (d.wr R.TMP_PIN_CFG_edge (bits v 3 2) 0 a).wr R.TMP_PIN_CFG_cap_domain (bit v 5) 0 a
  let d := (d.wr R.TMP_PIN_CFG_min_interval (bits v 8 16) 0 a).intervalEnd p
  let d := d.onTimePin p (fun x => { x with level := none })
  if was = 2 ∧ dir ≠ 2 then
    Dev.each ((List.range 128).filter (fun n => d.pulseArmed n && (d.slot n).pin == p))
      (fun n d => (d.setSlotState n 0).wr R.TMP_SLOT_STATUS_bad_config 1 0 (64 * n)) d
  else d

/-! ## Commands -/

/-- TEMPO_TICK: `ticks` reference ticks, the substitute's included (R364, R365). -/
def execTempoTick (ticks : Nat) (s : State) : Out := s.onLive (Dev.tick ticks)

/-- REFERENCE_LOST. -/
def execReferenceLost (s : State) : Out :=
  s.onLive (fun d => if d.on R.TMP_STATUS_ref_lost then d
    else ((d.wr R.TMP_STATUS_ref_lost 1).sourceChanged).cause tmpCauses 0)

/-- REFERENCE_RESTORED. -/
def execReferenceRestored (s : State) : Out :=
  s.onLive (fun d => if d.on R.TMP_STATUS_ref_lost then ((d.wr R.TMP_STATUS_ref_lost 0).sourceChanged).cause tmpCauses 1 else d)

/-- UNCERTAINTY_UPDATE, every 1 ms. -/
def execUncertaintyUpdate (s : State) : Out := s.onLive (fun d => (d.updateUnc 0).updateUnc 1)

/-- Does the anchor age of domain `k` exceed anchor_timeout_ms, 0 acting as 1 (R371)? -/
def Dev.anchorOld (d : Dev) (k : Nat) : Bool :=
  1000000 * actsAs 1 1 (d.rd R.TMP_DOM_ALARM_anchor_timeout_ms 0 (128 * k)) < (d.dom k).age

/-- HOLDOVER_ENTRY: the anchor age exceeds anchor_timeout_ms. -/
def execHoldoverEntry (domain : Nat) (s : State) : Out :=
  s.onLive (fun d => if 2 ≤ domain ∨ d.on R.TMP_DOM_UNC_holdover 0 (128 * domain) = true ∨ d.anchorOld domain = false then d
    else (d.setHoldover domain true).cause tmpCauses (2 + domain))

/-- INCREMENT_COMMIT: a write of TMP_DOM_INC_HI. -/
def execIncrementCommit (domain value : Nat) (s : State) : Out :=
  s.onRun (fun d => if 2 ≤ domain then d else d.commitInc domain value)

/-- DOMAIN_SET. -/
def execDomainSet (domain : Nat) (s : State) : Out := s.onRun (fun d => if 2 ≤ domain then d else d.domainSet domain)

/-- DOMAIN_ADD. -/
def execDomainAdd (domain : Nat) (s : State) : Out := s.onRun (fun d => if 2 ≤ domain then d else d.domainAdd domain)

/-- DOMAIN_TIME_READ: a read of TMP_DOM_NS. -/
def execDomainTimeRead (mid domain : Nat) (s : State) : Out :=
  s.onRun (fun d => if 2 ≤ domain then d else (d.latchDomain mid domain).emit (.answer mid (d.dom domain).ns))

/-- TEMPO_SNAPSHOT. -/
def execTempoSnapshot (s : State) : Out := s.onRun Dev.snapshotTime

/-- DOMAIN_ANCHOR. -/
def execDomainAnchor (domain value : Nat) (s : State) : Out :=
  s.onRun (fun d => if 2 ≤ domain then d else d.anchor domain value)

/-- SLOT_ARM. -/
def execSlotArm (slot : Nat) (s : State) : Out := s.onRun (fun d => if 128 ≤ slot then d else d.arm slot)

/-- SLOT_DISARM. -/
def execSlotDisarm (slot : Nat) (s : State) : Out := s.onRun (Dev.disarm slot)

/-- SLOT_SWITCH. -/
def execSlotSwitch (slot toSource : Nat) (s : State) : Out :=
  s.onRun (fun d => if 128 ≤ slot then d else d.switchSlot slot (toSource % 2))

/-- SLOT_PULSE: a pulse slot's time arrives, also during a service reset (R390). -/
def execSlotPulse (slot : Nat) (s : State) : Out := s.onLive (Dev.pulse slot)

/-- PULSE_WIDTH_END. -/
def execPulseWidthEnd (slot : Nat) (s : State) : Out := s.onLive (Dev.pulseEnd slot)

/-- SLEW_COMPLETE: the offset has reached zero. -/
def execSlewComplete (slot : Nat) (s : State) : Out := s.onLive (Dev.slewEnd slot)

/-- TIME_IO_EDGE. -/
def execTimeIoEdge (pin : Nat) (rising : Bool) (s : State) : Out :=
  s.onLive (fun d => if 4 ≤ pin then d else d.edge pin rising)

/-- CAPTURE_INTERVAL_END. -/
def execCaptureIntervalEnd (pin : Nat) (s : State) : Out := s.onLive (Dev.intervalEnd pin)

/-- PIN_CONFIG_WRITE. -/
def execPinConfigWrite (pin value : Nat) (s : State) : Out := s.onRun (fun d => if 4 ≤ pin then d else d.pinConfig pin value)

end Sys2Proof.Machine
end

