-- ==== Sys2Proof/Machine/Mac.lean ====
section
/-!
DEFINITION. The MAC complex (R342-R362): ports and lanes, instances and Flex Ethernet, egress FIFOs and launch queues, the start
of a frame with its timestamp and one-step update, pause and PFC, storm, low-power idle, counters.
-/

namespace Sys2Proof.Machine

/-! ## Ports and instances (R343-R347) -/

/-- The image's record of port `p`. -/
def Dev.portRec (d : Dev) (p : Nat) : Option PortRec :=
  (d.boot.image.bind (fun img => img.sections.findSome? (fun s => match s.body with
    | .portMap l => some l
    | _ => none))).bind (fun l => (l.find? (fun x => x.1 == p)).map Prod.snd)

/-- The calendar of a group: the instance of each used slot. -/
def portSlots (r : PortRec) (b : Bool) : List Nat := (if b then r.slotsB else r.slotsA).map Prod.snd

/-- The instances of port `p` under calendar B or A; a port that is no group has one. -/
def Dev.instancesUnder (d : Dev) (p : Nat) (b : Bool) : List Nat :=
  match d.portRec p with
  | some r => if r.flexe then (portSlots r b).dedup else [r.macInst]
  | none => []

/-- The instances of port `p` in the calendar in force. -/
def Dev.instancesOf (d : Dev) (p : Nat) : List Nat := d.instancesUnder p (d.on R.MAC_PORT_STATUS_cal_b 0 (16 * p))

/-- The rate in Gb/s of instance `m` of port `p` under a calendar. -/
def Dev.rateUnder (d : Dev) (p m : Nat) (b : Bool) : Nat :=
  match d.portRec p with
  | some r => if r.flexe then 25 * ((portSlots r b).filter (· == m)).length else speedGbps r.speed
  | none => 0

/-- The port that carries instance `m`. -/
def Dev.portOf (d : Dev) (m : Nat) : Option Nat :=
  (List.range 32).find? (fun p => (d.instancesUnder p false).contains m || (d.instancesUnder p true).contains m)

/-- Is the instance formed, up; its rate in Gb/s. -/
def Dev.macFormed (d : Dev) (m : Nat) : Bool := d.on R.MAC_INST_STATE_formed 0 (4 * m)
def Dev.macUp (d : Dev) (m : Nat) : Bool := d.on R.MAC_INST_STATE_up 0 (4 * m)
def Dev.macRate (d : Dev) (m : Nat) : Nat := d.rd R.SCH_PORT_rate_gbps 0 (4 * m)

/-- A MAC instance beside its registers. -/
def Dev.mac (d : Dev) (m : Nat) : Mac := d.macs.getD m {}
def Dev.onMac (d : Dev) (m : Nat) (f : Mac → Mac) : Dev := { d with macs := d.macs.upd m {} f }

/-- Bytes of an instance's egress FIFO, and of its receive FIFO (R351, R353). -/
def Dev.fifoSize (d : Dev) (m : Nat) : Nat := 16384 * d.macRate m / 25

/-- fc_mode; is a class lossless (R353)? -/
def Dev.fcMode (d : Dev) (m : Nat) : Nat := d.rd R.MAC_INST_CFG_fc_mode 0 (16 * m)
def Dev.lossless (d : Dev) (m cls : Nat) : Bool :=
  d.fcMode m == 1 || (d.fcMode m == 2 && hasBit (d.rd R.MAC_INST_CFG_pfc_classes 0 (16 * m)) cls)

/-- Is a class paused, in storm? -/
def Dev.paused (d : Dev) (m cls : Nat) : Bool := hasBit (d.rd R.MAC_INST_STATE_paused 0 (4 * m)) cls
def Dev.stormy (d : Dev) (m cls : Nat) : Bool := hasBit (d.rd R.MAC_INST_STATE_storm 0 (4 * m)) cls

/-- Store the paused classes, which the scheduler sees (R316, R352). -/
def Dev.setPaused (m v : Nat) (d : Dev) : Dev :=
  (d.wr R.MAC_INST_STATE_paused v 0 (4 * m)).wr R.SCH_PORT_paused v 0 (4 * m)

/-- The lane whose calibration and board offsets a port's timestamps use (R356). -/
def Dev.laneOf (d : Dev) (m : Nat) : Nat := (d.portOf m).getD 0

/-! ## Completions of frames that have started (R374, R384) -/

/-- An owed completion becomes ready. -/
def Dev.readyOwed (r s : Nat) (c : Cpl) (d : Dev) : Dev :=
  d.onRing r (fun g => { g with
    owed := g.owed.map (fun o => if o.seq = s ∧ o.ready = false then { o with bytes := g.cplBytes s c, ready := true } else o) })

/-- A timestamp record was lost (R376). -/
def Dev.loseStamp (m r : Nat) (rx : Bool) (d : Dev) : Dev :=
  let d := d.bump R.TMP_TS_LOST_count 0 (8 * m)
  ((d.wr R.TMP_TS_LAST_LOST_ring r 0 (8 * m)).wr R.TMP_TS_LAST_LOST_rx rx.toNat 0 (8 * m)).cause tmpCauses 12

/-- The completion of a frame that left, or that never will: ts_lost says that its record was lost. -/
def Dev.finishFrame (f : TxFrame) (late lost : Bool) (d : Dev) : Dev :=
  match f.ring with
  | some r => Dev.each f.cpls (fun c d => d.readyOwed r c.1 { c.2 with
      tsLost := lost && c.1 == f.seq
      status := if late then 4 else c.2.status }) d
  | none => d

/-- A frame in a FIFO is discarded: no record, and its completion as it would have been (R344, R374). -/
def Dev.discardFrame (m c : Nat) (f : TxFrame) (d : Dev) : Dev :=
  let d := d.countMac m c
  let d := if f.tsReq then d.loseStamp m (f.ring.getD 0) false else d
  d.finishFrame f ((f.launch.map Launch.late).getD false) f.tsReq

/-! ## Timestamps of a port (R356, R372) -/

/-- A timestamp of instance `m`: receive is earlier than the boundary by the delays, transmit later. -/
def Dev.portStamp (d : Dev) (m : Nat) (rx : Bool) : Stamp :=
  let l := d.laneOf m
  let k := d.rd R.TMP_PORT_ts_domain 0 (4 * m)
  let flexe := ((d.portOf m).bind d.portRec).map PortRec.flexe == some true
  let unc := if d.on R.MAC_LANE_STATUS_cal_valid l then addUnc (d.unc k) (if flexe then 80 else 16) else 0xFFFF
  let corr : Int := if rx then - ((d.rd R.MAC_LANE_CAL_int_rx l : Int) + signed16 (d.rd R.MAC_LANE_BOARD_board_rx l))
    else (d.rd R.MAC_LANE_CAL_int_tx l : Int) + signed16 (d.rd R.MAC_LANE_BOARD_board_tx l)
  d.stampAt k corr unc

/-- The reference plane of instance `m` in eighths of a ns of nominal 4 ns ticks (R379). -/
def Dev.plane (d : Dev) (m : Nat) (rx : Bool) : Int :=
  let l := d.laneOf m
  if rx then (32 * d.ticks : Nat) - ((d.rd R.MAC_LANE_CAL_int_rx l : Int) + signed16 (d.rd R.MAC_LANE_BOARD_board_rx l))
  else (32 * d.ticks : Nat) + ((d.rd R.MAC_LANE_CAL_int_tx l : Int) + signed16 (d.rd R.MAC_LANE_BOARD_board_tx l))

/-! ## PTP (R377-R379); the places in a PTP header are those of IEEE 1588 (PRESUMED, notes/assumptions/24.md) -/

/-- The offset of the PTP message of a parsed frame. -/
def ptpOffset (p : Parse) : Nat := if p.l3 = 4 then p.offPayload else p.offL4 + 8

/-- Is the frame a PTP event message? -/
def isEvent (p : Parse) (f : Frame) : Bool :=
  let o := ptpOffset p
  p.ptp && byteAt f (o + 1) % 16 == 2 && byteAt f (o + 1) / 16 ≤ 1 && byteAt f o % 16 ≤ 3

/-- Is it a Sync message with twoStepFlag clear? -/
def isOneStepSync (p : Parse) (f : Frame) : Bool :=
  isEvent p f && byteAt f (ptpOffset p) % 16 == 0 && !hasBit (byteAt f (ptpOffset p + 6)) 1

/-- Add to correctionField, in 2^-16 ns, modulo 2^64. -/
def addCorrection (o : Nat) (v : Int) (f : Frame) : Frame :=
  putBytes f (o + 8) (beBytes (((beAt f (o + 8) 8 : Int) + v) % 2 ^ 64).toNat 8)

/-- Recompute the UDP checksum of a frame whose PTP message changed. -/
def refreshUdp (p : Parse) (f : Frame) : Frame :=
  match p.ip with
  | some ip => if ip.proto = 17 then putChecksums false true ip f else f
  | none => f

/-- Write the egress time into originTimestamp and the eighths into correctionField (R378). -/
def oneStep (p : Parse) (t : Stamp) (f : Frame) : Frame :=
  let o := ptpOffset p
  refreshUdp p (addCorrection o (8192 * t.frac : Nat) (putBytes f (o + 34) (beBytes t.sec 6 ++ beBytes t.ns 4)))

/-- The parser's settings in force. -/
def Dev.parseCfg (d : Dev) : ParseCfg :=
  { tpidA := d.rd R.PPL_TPID_tpid_a, tpidB := d.rd R.PPL_TPID_tpid_b
    vxlan := d.rd R.PPL_TUNNEL_PORTS_vxlan_port, geneve := d.rd R.PPL_TUNNEL_PORTS_geneve_port }

/-! ## Sending -/

/-- Bytes that a frame occupies on the line with its FCS. -/
def wireLen (f : Frame) : Nat := max 60 f.length + 4

/-- Put a frame on the line: padding, counters, and the inverted FCS of a stomped one (R348, R358). -/
def Dev.putOnLine (m : Nat) (f : Frame) (stomped : Bool) (d : Dev) : Dev :=
  let d := (d.countMac m 12).countMac m 13 (wireLen f)
  d.emit (.lineFrame m (f ++ List.replicate (60 - f.length) 0) stomped)

/-- A port leaves transmit LPI (R355). -/
def Dev.wakeLpi (p : Nat) (d : Dev) : Dev :=
  if d.on R.MAC_PORT_STATUS_lpi_tx 0 (16 * p) then (d.wr R.MAC_PORT_STATUS_lpi_tx 0 0 (16 * p)).emit (.lpi p false) else d

/-- Wake the port of an instance. -/
def Dev.wakeMac (m : Nat) (d : Dev) : Dev :=
  match d.portOf m with
  | some p => d.wakeLpi p
  | none => d

/-- The first bit of a frame passes the reference plane: residence, one-step, timestamp record, completion (R348, R374-R379).
`late` says that it started later than its launch time allows. -/
def Dev.startFrame (m : Nat) (f : TxFrame) (late : Bool) (d : Dev) : Dev :=
  let t := d.portStamp m false
  let p := parse d.parseCfg f.bytes
  let bytes := match f.since with
    | some from_ => if isEvent p f.bytes then
        refreshUdp p (addCorrection (ptpOffset p) ((d.plane m false - from_) * 8192) f.bytes) else f.bytes
    | none => f.bytes
  let want := d.on R.TMP_PORT_one_step 0 (4 * m) && f.sync
  let skip := d.on R.CRY_MACSEC_TX_tx_enable 0 (8 * m) || f.ipsec
  let d := if want && skip then (d.bump R.TMP_ONESTEP_SKIPPED_count).cause tmpCauses 20 else d
  let bytes := if want && !skip then oneStep p t bytes else bytes
  let d := if f.stomp then
      ((d.countMac m 16).record { unit := 0x71, severity := 1, code := 8, handling := 2, domain := 0xFE, detail0 := m }).cause macCauses 3
    else d
  let d := d.putOnLine m bytes f.stomp
  if !f.tsReq then d.finishFrame f late false
  else
    match f.ring with
    | none => d
    | some r =>
      match (d.ring? r).bind (fun g => if g.tsEnable then some g.tsRing else none) with
      | none => (d.loseStamp m r false).finishFrame f late true
      | some n =>
        match d.notify n (t.words false f.seq m) with
        | (true, d) => d.finishFrame f late false
        | (false, d) => (d.loseStamp m r false).finishFrame f late true

/-! ## Egress FIFO (R351) and launch queue (R384) -/

/-- Bytes in the FIFO, of one class or of all. -/
def Mac.used (x : Mac) (cls : Option Nat) : Nat :=
  ((x.fifo.filter (fun f => cls == none || cls == some f.cls)).map (fun f => f.bytes.length)).sum

/-- May frames of `n` bytes and this class enter the FIFO now? A downed port and a class in storm take everything. -/
def Dev.fifoRoom (d : Dev) (m cls n : Nat) : Bool :=
  !d.macUp m || d.stormy m cls ||
  ((d.mac m).used none + n ≤ d.fifoSize m && (!d.paused m cls || (d.mac m).used (some cls) + n ≤ d.fifoSize m / 2))

/-- A frame enters the egress FIFO; its completion is owed and waits for the frame where it must (R344, R354). -/
def Dev.enterFifo (m : Nat) (f : TxFrame) (d : Dev) : Dev :=
  if !d.macUp m then d.discardFrame m 15 f
  else if d.stormy m f.cls then d.discardFrame m 17 f
  else (d.onMac m (fun x => { x with fifo := x.fifo ++ [f] })).wakeMac m

/-- Insert by launch time, ties in order of entry. -/
def insertLaunch (f : TxFrame) : List TxFrame → List TxFrame
  | [] => [f]
  | g :: l => if (f.launch.map Launch.time).getD 0 < (g.launch.map Launch.time).getD 0 then f :: g :: l else g :: insertLaunch f l

/-- Has the launch queue room? -/
def Dev.launchRoom (d : Dev) (m : Nat) (cls : Nat) : Bool := !d.macUp m || d.stormy m cls || (d.mac m).launch.length < 16

/-- A frame enters the launch queue. -/
def Dev.enterLaunch (m : Nat) (f : TxFrame) (d : Dev) : Dev :=
  if !d.macUp m then d.discardFrame m 15 f
  else if d.stormy m f.cls then d.discardFrame m 17 f
  else (d.onMac m (fun x => { x with launch := insertLaunch f x.launch })).wakeMac m

/-- The gate clock of a launch, in ns. -/
def Dev.gateNow (d : Dev) (l : Launch) : Nat :=
  match l.domain with
  | some k => (d.dom k).nsTotal
  | none => d.slotNow l.slot

/-- Time in ns that a frame and its inter-frame gap take at the instance's rate. -/
def Dev.duration (d : Dev) (m : Nat) (f : Frame) : Nat := (8 * (wireLen f + 20) + d.macRate m - 1) / max 1 (d.macRate m)

/-- May the MAC start this frame although a timed one waits (R384)? -/
def Dev.launchClear (d : Dev) (m : Nat) (f : Frame) : Bool :=
  (d.mac m).launch.all (fun g => match g.launch with
    | some l => d.gateNow l + d.duration m f ≤ l.time || l.time < d.gateNow l
    | none => true)

/-- Take the first frame of a class out of a list. -/
def takeClass (cls : Nat) : List TxFrame → Option (TxFrame × List TxFrame)
  | [] => none
  | f :: l => if f.cls = cls then some (f, l) else (takeClass cls l).map (fun x => (x.1, f :: x.2))

/-- FRAME_TRANSMIT: the MAC starts the oldest frame of a class. -/
def Dev.transmit (m cls : Nat) (d : Dev) : Dev :=
  match takeClass cls (d.mac m).fifo with
  | none => d
  | some (f, rest) =>
    if !d.macUp m || d.paused m cls || !d.launchClear m f.bytes then d
    else (d.onMac m (fun x => { x with fifo := rest })).startFrame m f false

/-- LAUNCH_TIME: the first frame of the launch queue whose class is not paused starts; more than 8 ns after its launch time it is
late (R384). -/
def Dev.launchFirst (m : Nat) (d : Dev) : Dev :=
  match (d.mac m).launch.find? (fun f => !d.paused m f.cls) with
  | none => d
  | some f =>
    if !d.macUp m then d
    else
      let late := match f.launch with
        | some l => l.late || decide (l.time + 8 < d.gateNow l)
        | none => false
      let d := d.onMac m (fun x => { x with launch := x.launch.erase f })
      let d := match f.launch with
        | some l => d.bump R.TMP_SLOT_COUNT_value 0 (64 * l.slot)
        | none => d
      d.startFrame m f late

/-! ## Control frames (R352, R353); their layout is that of IEEE 802.3 Annex 31B and 31D (PRESUMED, notes/assumptions/24.md) -/

/-- The station address. -/
def Dev.station (d : Dev) (m : Nat) : Nat := d.rd R.MAC_INST_ADDR_LO_addr 0 (16 * m) + 2 ^ 32 * d.rd R.MAC_INST_ADDR_HI_addr 0 (16 * m)

/-- Send a pause or PFC frame for a class with a time, ahead of queued frames (R352, R353). -/
def Dev.sendControl (m cls time : Nat) (d : Dev) : Dev :=
  if !d.macUp m then d
  else
    let head := beBytes 0x0180C2000001 6 ++ beBytes (d.station m) 6 ++ beBytes 0x8808 2
    let body := if d.fcMode m = 1 then beBytes 1 2 ++ beBytes time 2
      else beBytes 0x0101 2 ++ beBytes (2 ^ cls) 2 ++ (List.range 8).flatMap (fun c => beBytes (if c = cls then time else 0) 2)
    ((d.wakeMac m).countMac m 14).putOnLine m (head ++ body) false

/-- Classes that a pause affects: all of them under fc_mode 1. -/
def Dev.pauseScope (d : Dev) (m cls : Nat) : List Nat := if d.fcMode m = 1 then List.range 8 else [cls]

/-- The thresholds in bytes. -/
def Dev.xoffAt (d : Dev) (m : Nat) : Nat := d.rd R.MAC_INST_PFC_xoff 0 (16 * m) * d.fifoSize m / 16
def Dev.xonAt (d : Dev) (m : Nat) : Nat := d.rd R.MAC_INST_PFC_xon 0 (16 * m) * d.fifoSize m / 16

/-- Bytes of a class that wait in the receive FIFO. -/
def Dev.waitingOf (d : Dev) (m cls : Nat) : Nat :=
  (((d.mac m).rx.filter (fun it => it.parse.tc == cls)).map (fun it => it.bytes.length)).sum

/-- Bit of xoff_sent. -/
def Dev.xoffSent (d : Dev) (m cls : Nat) : Bool := hasBit (d.rd R.MAC_INST_STATE_xoff_sent 0 (4 * m)) cls
def Dev.setXoff (m cls : Nat) (v : Bool) (d : Dev) : Dev :=
  d.wr R.MAC_INST_STATE_xoff_sent ((if v then setBit else clearBit) (d.rd R.MAC_INST_STATE_xoff_sent 0 (4 * m)) cls) 0 (4 * m)

/-- quanta of XOFF. -/
def Dev.quanta (d : Dev) (m : Nat) : Nat := d.rd R.MAC_INST_PFC_quanta 0 (16 * m)

/-- Class `cls` pauses its sender once its waiting bytes reach the XOFF threshold, where generation is on and no XOFF stands. -/
def Dev.checkXoff (m cls : Nat) (d : Dev) : Dev :=
  if d.on R.MAC_INST_CFG_tx_generate 0 (16 * m) && d.xoffAt m ≤ d.waitingOf m cls && !d.xoffSent m cls then
    (d.setXoff m cls true).sendControl m cls (d.quanta m)
  else d

/-- At the xon threshold or below, a time of zero. -/
def Dev.checkXon (m cls : Nat) (d : Dev) : Dev :=
  if d.xoffSent m cls && d.waitingOf m cls ≤ d.xonAt m then
    let d := d.setXoff m cls false
    if d.on R.MAC_INST_CFG_tx_generate 0 (16 * m) then
      (if d.fcMode m = 1 && d.rd R.MAC_INST_STATE_xoff_sent 0 (4 * m) != 0 then d else d.sendControl m cls 0)
    else d
  else d

/-- XOFF for every lossless class of every instance at step 1 of a service reset (R350). -/
def Dev.serviceXoff (d : Dev) : Dev :=
  let ms := (List.range 256).filter (fun m => d.macFormed m && d.on R.MAC_INST_CFG_tx_generate 0 (16 * m) && (d.fcMode m == 1 || d.fcMode m == 2))
  Dev.each ms (fun m d => if d.fcMode m = 1 then (d.sendControl m 0 (d.quanta m)).wr R.MAC_INST_STATE_xoff_sent 0xFF 0 (4 * m)
    else Dev.each ((List.range 8).filter (d.lossless m)) (fun c d => (d.setXoff m c true).sendControl m c (d.quanta m)) d) d

/-- Each instance that holds its peer paused sends a time of zero (R350, R453). -/
def Dev.serviceXon (d : Dev) : Dev :=
  let ms := (List.range 256).filter (fun m => d.rd R.MAC_INST_STATE_xoff_sent 0 (4 * m) != 0)
  Dev.each ms (fun m d =>
    let held := (List.range 8).filter (fun c => d.xoffSent m c && (d.phase == .faultStop || d.waitingOf m c ≤ d.xonAt m))
    if d.fcMode m = 1 then
      (if held.length == ((List.range 8).filter (d.xoffSent m)).length then (d.wr R.MAC_INST_STATE_xoff_sent 0 0 (4 * m)).sendControl m 0 0 else d)
    else Dev.each held (fun c d => (d.setXoff m c false).sendControl m c 0) d) d

/-- Act on a received time for one class (R352, R354): zero resumes, another pauses; in storm pause is ignored. -/
def Dev.pauseClass (m cls time : Nat) (d : Dev) : Dev :=
  let d := if time = 0 then d else d.onMac m (fun x => { x with lastPause := x.lastPause.set cls d.uptime })
  if d.stormy m cls then d
  else
    let now := d.rd R.MAC_INST_STATE_paused 0 (4 * m)
    if time = 0 then d.setPaused m (clearBit now cls)
    else
      let d := if hasBit now cls then d else d.onMac m (fun x => { x with pausedAt := x.pausedAt.set cls d.uptime })
      d.setPaused m (setBit now cls)

/-- A control frame that is not acted on. -/
def Dev.ignoreControl (m : Nat) (d : Dev) : Dev := d.countMac m 11

/-- A pause frame (Annex 31B) with this time. -/
def Dev.rxPause (m time : Nat) (d : Dev) : Dev :=
  if !d.macUp m then d
  else if d.on R.MAC_INST_CFG_rx_honour 0 (16 * m) && d.fcMode m == 1 then
    Dev.each (List.range 8) (fun c d => d.pauseClass m c time) (d.countMac m 10)
  else d.ignoreControl m

/-- A PFC frame: the enabled classes with their times. -/
def Dev.rxPfc (m enabled : Nat) (times : List Nat) (d : Dev) : Dev :=
  if !d.macUp m then d
  else if d.on R.MAC_INST_CFG_rx_honour 0 (16 * m) && d.fcMode m == 2 then
    Dev.each ((List.range 8).filter (fun c => hasBit enabled c && d.lossless m c)) (fun c d => d.pauseClass m c (times.getD c 0)) (d.countMac m 10)
  else d.ignoreControl m

/-- A received MAC control frame (R352). -/
def Dev.rxControl (m : Nat) (f : Frame) (d : Dev) : Dev :=
  let dst := beAt f 0 6
  let op := beAt f 14 2
  if dst ≠ 0x0180C2000001 ∧ dst ≠ d.station m then d.ignoreControl m
  else if op = 1 then d.rxPause m (beAt f 16 2)
  else if op = 0x0101 then d.rxPfc m (beAt f 16 2 % 256) ((List.range 8).map (fun c => beAt f (18 + 2 * c) 2))
  else d.ignoreControl m

/-- Discard a class's frames in a storm (R354). -/
def Dev.stormDiscard (m cls : Nat) (d : Dev) : Dev :=
  let gone := ((d.mac m).fifo ++ (d.mac m).launch).filter (fun f => f.cls == cls)
  let d := d.onMac m (fun x => { x with
    fifo := x.fifo.filter (fun f => f.cls != cls)
    launch := x.launch.filter (fun f => f.cls != cls) })
  Dev.each gone (Dev.discardFrame m 17) d

/-- Has watchdog_ms passed since a millisecond of uptime? The last one counts as begun (R354). -/
def Dev.watchdogRan (d : Dev) (m since : Nat) : Bool := d.rd R.MAC_INST_PFC_watchdog_ms 0 (16 * m) ≤ d.uptime - since + 1

/-- A class has stayed paused for watchdog_ms (R354). -/
def Dev.storm (m cls : Nat) (d : Dev) : Dev :=
  if d.paused m cls && d.rd R.MAC_INST_PFC_watchdog_ms 0 (16 * m) != 0 && d.watchdogRan m ((d.mac m).pausedAt.getD cls 0) then
    let d := d.setPaused m (clearBit (d.rd R.MAC_INST_STATE_paused 0 (4 * m)) cls)
    let d := d.wr R.MAC_INST_STATE_storm (setBit (d.rd R.MAC_INST_STATE_storm 0 (4 * m)) cls) 0 (4 * m)
    (d.cause macCauses 1).stormDiscard m cls
  else d

/-- The storm of a class ends: for watchdog_ms no pause frame with a time came. -/
def Dev.calm (m cls : Nat) (d : Dev) : Dev :=
  if d.watchdogRan m ((d.mac m).lastPause.getD cls 0) then
    d.wr R.MAC_INST_STATE_storm (clearBit (d.rd R.MAC_INST_STATE_storm 0 (4 * m)) cls) 0 (4 * m)
  else d

/-- What follows a write of MAC_PORT_CFG, MAC_INST_CFG or MAC_INST_PFC (R355, R359): without eee_enable transmit LPI is left, timers of
classes no longer lossless clear, and with the watchdog off every storm ends. -/
def Dev.macWritten (off : Nat) (d : Dev) : Dev :=
  let m := (off - 0x800) / 16
  if 0x100 ≤ off ∧ off < 0x300 ∧ off % 16 = 0 then
    let p := (off - 0x100) / 16
    if d.on R.MAC_PORT_CFG_eee_enable 0 (16 * p) then d else d.wakeLpi p
  else if 0x800 ≤ off ∧ off < 0x1800 ∧ off % 16 = 0 then
    Dev.each ((List.range 8).filter (fun c => d.paused m c && !d.lossless m c))
      (fun c d => d.setPaused m (clearBit (d.rd R.MAC_INST_STATE_paused 0 (4 * m)) c)) d
  else if 0x800 ≤ off ∧ off < 0x1800 ∧ off % 16 = 12 then
    (if d.rd R.MAC_INST_PFC_watchdog_ms 0 (16 * m) = 0 then d.wr R.MAC_INST_STATE_storm 0 0 (4 * m) else d)
  else d

/-! ## Ports up and down (R344) -/

/-- An instance goes down: pause cleared, FIFOs discarded. -/
def Dev.instDown (m : Nat) (d : Dev) : Dev :=
  let gone := (d.mac m).fifo ++ (d.mac m).launch
  let d := (d.wr R.MAC_INST_STATE_up 0 0 (4 * m)).setPaused m 0
  let d := d.onMac m (fun x => { x with fifo := [], launch := [] })
  Dev.each gone (Dev.discardFrame m 15) d

/-- A port comes up. -/
def Dev.portUp (p : Nat) (d : Dev) : Dev :=
  let a := 16 * p
  if d.portSpeed p = 0 || d.on R.MAC_PORT_STATUS_up 0 a then d
  else
    let d := Dev.each (d.lanesOf p) (fun l d => (d.wr R.MAC_LANE_STATUS_state 3 l).cause laneCauses 1 l) d
    let d := (d.wr R.MAC_PORT_STATUS_up 1 0 a).wr R.MAC_PORT_STATUS_flexe_lock (d.rd R.MAC_PORT_CFG_flexe 0 a) 0 a
    (Dev.each (d.instancesOf p) (fun m d => d.wr R.MAC_INST_STATE_up 1 0 (4 * m)) d).cause macCauses 0

/-- A port goes down; a frame that one of its instances `cut` was receiving is counted (R344). -/
def Dev.portDown (p : Nat) (cut : List Nat) (d : Dev) : Dev :=
  let a := 16 * p
  if !d.on R.MAC_PORT_STATUS_up 0 a then d
  else
    let d := Dev.each ((d.instancesOf p).filter cut.contains) (fun m d => d.countMac m 2) d
    let d := Dev.each (d.lanesOf p) (fun l d => (d.wr R.MAC_LANE_STATUS_state 1 l).cause laneCauses 0 l) d
    let d := ((d.wr R.MAC_PORT_STATUS_up 0 0 a).wr R.MAC_PORT_STATUS_flexe_lock 0 0 a).wr R.MAC_PORT_STATUS_lpi_tx 0 0 a
    let d := d.wr R.MAC_PORT_STATUS_lpi_rx 0 0 a
    (Dev.each (d.instancesOf p) Dev.instDown d).cause macCauses 0

/-- A calendar switch takes effect (R347). -/
def Dev.flexeSwitch (p : Nat) (d : Dev) : Dev :=
  let a := 16 * p
  if !d.on R.MAC_PORT_STATUS_switch_busy 0 a || !d.on R.MAC_PORT_STATUS_up 0 a then d
  else
    let was := d.on R.MAC_PORT_STATUS_cal_b 0 a
    let old := d.instancesUnder p was
    let new := d.instancesUnder p (!was)
    let d := (d.wr R.MAC_PORT_STATUS_cal_b (!was).toNat 0 a).wr R.MAC_PORT_STATUS_switch_busy 0 0 a
    let gone := old.filter (fun m => !new.contains m)
    let come := new.filter (fun m => !old.contains m)
    let d := Dev.each gone Dev.instDown d
    let d := Dev.each (old ++ new) (fun m d => d.wr R.SCH_PORT_rate_gbps (d.rateUnder p m (!was)) 0 (4 * m)) d
    let d := if d.on R.MAC_PORT_STATUS_up 0 a then Dev.each come (fun m d => d.wr R.MAC_INST_STATE_up 1 0 (4 * m)) d else d
    let d := if gone.isEmpty && come.isEmpty then d else d.cause macCauses 0
    d.cause macCauses 4

/-- A write of switch to MAC_PORT_FLEXE_CMD. -/
def Dev.flexeCommand (p : Nat) (d : Dev) : Dev :=
  let a := 16 * p
  match d.portRec p with
  | some r =>
    if !r.flexe then d
    else if !r.calB || d.on R.MAC_PORT_STATUS_switch_busy 0 a then d.cause macCauses 5
    else (d.wr R.MAC_PORT_STATUS_switch_busy 1 0 a).emit (.flexeRequest p)
  | none => d

/-- Does a timed item bound for the port wait at the retire stage (R355)? -/
def Dev.timedWaiting (d : Dev) (p : Nat) : Bool :=
  d.items.vals.any (fun it => it.stage == .gated && (match it.dest with
    | some (.mac m) => (d.instancesOf p).contains m
    | _ => false))

/-- The port's egress FIFOs have been empty for lpi_idle_us (R355). -/
def Dev.enterLpi (p : Nat) (d : Dev) : Dev :=
  let a := 16 * p
  if d.on R.MAC_PORT_CFG_eee_enable 0 a && d.portSpeed p == 1 && d.on R.MAC_PORT_STATUS_up 0 a && !d.on R.MAC_PORT_STATUS_lpi_tx 0 a &&
      (d.instancesOf p).all (fun m => (d.mac m).fifo.isEmpty && (d.mac m).launch.isEmpty) && !d.timedWaiting p then
    Dev.each (d.instancesOf p) (fun m d => d.countMac m 18) ((d.wr R.MAC_PORT_STATUS_lpi_tx 1 0 a).emit (.lpi p true))
  else d

/-! ## Counters (R358) -/

/-- The value of counter `c` of instance `m`. -/
def Dev.macCount (d : Dev) (m c : Nat) : Nat := d.macCounts.getD (32 * m + c) 0

/-- A read of a counter's low word: the low half, with the high half latched and the counter cleared. -/
def Dev.readMacCount (m c : Nat) (d : Dev) : Nat × Dev :=
  let v := d.macCount m c
  (v % 2 ^ 32, { d with macCounts := d.macCounts.erase (32 * m + c) }.wr R.MAC_COUNTER_HI_count (v / 2 ^ 32) 0 (256 * m + 8 * c))

/-! ## Commands -/

/-- PORT_UP: every lane has locked and the PCS has aligned. -/
def execPortUp (port : Nat) (s : State) : Out := s.onLive (Dev.portUp port)

/-- PORT_DOWN. -/
def execPortDown (x : PortLoss) (s : State) : Out := s.onLive (Dev.portDown x.port x.cut)

/-- LANE_CALIBRATION_DONE: `value` is MAC_LANE_CAL as measured. -/
def execLaneCalibrationDone (lane value : Nat) (s : State) : Out :=
  s.onLive (fun d => if (d.portOfLane lane).isNone then d
    else (((d.wr R.MAC_LANE_CAL_int_rx (bits value 0 16) lane).wr R.MAC_LANE_CAL_int_tx (bits value 16 16) lane).wr
      R.MAC_LANE_STATUS_cal_valid 1 lane).cause laneCauses 3 lane)

/-- LANE_CAL_CHECK: `drift` in picoseconds since the measurement (R357). -/
def execLaneCalCheck (lane drift : Nat) (s : State) : Out :=
  s.onLive (fun d => if 250 < drift && d.on R.MAC_LANE_STATUS_cal_valid lane then
      (d.wr R.MAC_LANE_STATUS_cal_valid 0 lane).cause laneCauses 4 lane
    else d)

/-- FRAME_TRANSMIT. -/
def execFrameTransmit (mac cls : Nat) (s : State) : Out := s.onLive (Dev.transmit mac cls)

/-- LAUNCH_TIME. -/
def execLaunchTime (mac : Nat) (s : State) : Out := s.onLive (Dev.launchFirst mac)

/-- PAUSE_FRAME: a good pause frame addressed to the instance. -/
def execPauseFrame (mac quanta : Nat) (s : State) : Out := s.onLive (Dev.rxPause mac (quanta % 65536))

/-- PFC_FRAME. -/
def execPfcFrame (mac classes : Nat) (quanta : List Nat) (s : State) : Out :=
  s.onLive (Dev.rxPfc mac (classes % 256) (quanta.map (· % 65536)))

/-- PAUSE_TIMER_EXPIRY. -/
def execPauseTimerExpiry (mac cls : Nat) (s : State) : Out :=
  s.onLive (fun d => Dev.each (d.pauseScope mac cls) (fun c d => d.setPaused mac (clearBit (d.rd R.MAC_INST_STATE_paused 0 (4 * mac)) c)) d)

/-- XOFF_REFRESH: half the sent time has passed; above the xon threshold, or during a service reset, XOFF is sent again. -/
def execXoffRefresh (mac cls : Nat) (s : State) : Out :=
  s.onLive (fun d => if d.phase ≠ .faultStop ∧ d.xoffSent mac cls = true ∧ d.on R.MAC_INST_CFG_tx_generate 0 (16 * mac) = true ∧
      (d.phase = .serviceReset ∨ d.xonAt mac < d.waitingOf mac cls) then d.sendControl mac cls (d.quanta mac)
    else d)

/-- STORM_WATCHDOG_EXPIRY, of a class, or of the whole instance under fc_mode 1. -/
def execStormWatchdogExpiry (mac cls : Nat) (s : State) : Out :=
  s.onLive (fun d => Dev.each (d.pauseScope mac cls) (Dev.storm mac) d)

/-- STORM_END. -/
def execStormEnd (mac cls : Nat) (s : State) : Out := s.onLive (fun d => Dev.each (d.pauseScope mac cls) (Dev.calm mac) d)

/-- LPI_IDLE_EXPIRY. -/
def execLpiIdleExpiry (port : Nat) (s : State) : Out := s.onLive (Dev.enterLpi port)

/-- PEER_LPI_CHANGE. -/
def execPeerLpiChange (port : Nat) (lpi : Bool) (s : State) : Out :=
  s.onLive (fun d => if d.on R.MAC_PORT_STATUS_up 0 (16 * port) then d.wr R.MAC_PORT_STATUS_lpi_rx lpi.toNat 0 (16 * port) else d)

/-- FLEXE_CALENDAR_SWITCH. -/
def execFlexeCalendarSwitch (port : Nat) (s : State) : Out := s.onRun (Dev.flexeCommand port)

/-- FLEXE_SWITCH_DONE. -/
def execFlexeSwitchDone (port : Nat) (s : State) : Out := s.onLive (Dev.flexeSwitch port)

/-- FLEXE_SWITCH_TIMEOUT: no acknowledgement within 10 ms. -/
def execFlexeSwitchTimeout (port : Nat) (s : State) : Out :=
  s.onLive (fun d => if d.on R.MAC_PORT_STATUS_switch_busy 0 (16 * port) then
      (d.wr R.MAC_PORT_STATUS_switch_busy 0 0 (16 * port)).cause macCauses 5
    else d)

/-- FLEXE_OVERHEAD_LOCK_LOSS: handled as port down. -/
def execFlexeOverheadLockLoss (x : PortLoss) (s : State) : Out :=
  s.onLive (fun d => if d.on R.MAC_PORT_STATUS_flexe_lock 0 (16 * x.port) then (d.portDown x.port x.cut).cause macCauses 5 else d)

/-- MAC_COUNTER_READ. -/
def execMacCounterRead (mid mac counter : Nat) (s : State) : Out :=
  s.onRun (fun d => let r := d.readMacCount mac counter; r.2.emit (.answer mid r.1))

end Sys2Proof.Machine
end

