-- ==== Sys2Proof/Machine/Power.lean ====
section
/-!
DEFINITION. Pace, Headroom, the governor with boost and AVSBus, package power, temperature thresholds and power-domain commands
(R88-R109).
-/

namespace Sys2Proof.Machine

/-- Change the power state beside the registers. -/
def Dev.onPower (d : Dev) (f : Power → Power) : Dev := { d with power := f d.power }

/-- PWR event `n` (R109). -/
def Dev.pwrEvent (n : Nat) (d : Dev) : Dev := d.raise (334 + n)

/-- Does the device run with its main rails up, so that the always-on domain measures and governs? -/
def Phase.powered : Phase → Bool
  | .held => false
  | _ => true

/-- The state with its device changed, where the always-on domain measures. -/
def State.onIsland (s : State) (f : Dev → Dev) : Out :=
  .next (if s.dev.phase.powered then { s with dev := f s.dev } else s)

/-- Has cold-start step 9 passed? -/
def Phase.live : Phase → Bool
  | .running => true
  | .serviceReset => true
  | .faultStop => true
  | _ => false

/-! ## Headroom (R90, R91) -/

/-- Does position `p` count as filled: in service, or in the grace of a planned sit-out? -/
def Dev.setFilled (d : Dev) (p : Nat) : Bool :=
  d.setInService p || (p < 32 && d.hasSet p && (d.setAt p).phase == .grace && !(d.setAt p).thermal)

/-- k: filled in-service positions; one filled anew counts once its first item has retired (R91). -/
def Dev.filledCount (d : Dev) : Nat := ((List.range 32).filter (fun p => d.setFilled p && !d.power.unproven.contains p)).length

/-- p: the lower of the Pace now published and the lowest of the preceding 100 µs. -/
def Dev.slowPace (d : Dev) : Nat := d.power.history.foldl min (d.rd R.PWR_PACE_pace)

/-- 312.5 × p × k Mpps, rounded down. -/
def Dev.headroomNow (d : Dev) : Nat := 3125 * d.slowPace * d.filledCount / 327680

/-- Publish Headroom; a change of k, or of more than 1/32 since the last event, raises PWR event 2. -/
def Dev.updateHeadroom (d : Dev) : Dev :=
  if !d.phase.live then d
  else
    let h := d.headroomNow
    let k := d.filledCount
    let last := d.power.eventHeadroom
    let fresh := k != d.rd R.PWR_HEADROOM_filled || last < 32 * (h - last) || last < 32 * (last - h)
    let d := (d.wr R.PWR_HEADROOM_headroom h).wr R.PWR_HEADROOM_filled k
    if fresh then (d.onPower (fun p => { p with eventHeadroom := h })).pwrEvent 2 else d

/-- The first item of a position that was filled anew has retired. -/
def Dev.provePosition (p : Nat) (d : Dev) : Dev :=
  if d.power.unproven.contains p then (d.onPower (fun w => { w with unproven := w.unproven.filter (· != p) })).updateHeadroom else d

/-! ## Requests of the governor (R92-R97) -/

/-- The ceiling of the request in mV. -/
def Dev.vddCeiling (d : Dev) : Nat := if d.on R.PWR_VDD_boost_open then 850 else 800

/-- Send a request over AVSBus, unless steering is stopped. A stopped governor keeps its request as it stands. -/
def Dev.requestVdd (mv cause : Nat) (d : Dev) : Dev :=
  if d.power.avsStopped then d.wr R.PWR_VDD_cause cause
  else
    let d := if mv = d.rd R.PWR_VDD_request_mv then d else d.emit (.avsWrite mv)
    (d.wr R.PWR_VDD_request_mv mv).wr R.PWR_VDD_cause cause

/-- Does the governor steer under R93: it was started, and the Dance Card is valid (R97) or THERMTRIP_N asserted? In a service reset and
in fault stop, which never gets the card valid again (R453), it holds 0.750 V. -/
def Dev.steers (d : Dev) : Bool := d.power.started && (d.phase == .running || d.phase == .tripped)

/-- Is Pace below 0.70 (R89)? -/
def paceLow70 (raw : Nat) : Bool := 10 * raw < 7 * 32768

/-- Power above the limit, by the 1 ms figure or the 1 s average (R93 rule 3). -/
def Dev.overLimit (d : Dev) : Bool :=
  10 * d.rd R.PWR_LIMIT_power_limit < d.rd R.PWR_POWER_power_1ms || 10 * d.rd R.PWR_LIMIT_power_limit < d.rd R.PWR_POWER_power_1s ||
  d.power.capped

/-- The request is raised to the ceiling at once when Pace is below 0.70 (R94); rules 1 and 2 override this. -/
def Dev.floorJump (d : Dev) : Dev :=
  if d.steers && d.phase != .tripped && !d.power.hot && paceLow70 (d.rd R.PWR_PACE_pace) && d.rd R.PWR_VDD_request_mv < d.vddCeiling then
    d.requestVdd d.vddCeiling 3
  else d

/-- Clamp a request to [avs_vmin, ceiling]. -/
def Dev.clampVdd (d : Dev) (mv : Nat) : Nat := min d.vddCeiling (max (d.rd R.PWR_AVS_CONFIG_avs_vmin) mv)

/-- The rule of R93 that applies: the next request, its cause, and whether it is rule 2 or 3. -/
def Dev.governorRule (d : Dev) : Nat × Nat :=
  let now := d.rd R.PWR_VDD_request_mv
  let vmin := d.rd R.PWR_AVS_CONFIG_avs_vmin
  let pace := d.rd R.PWR_PACE_pace
  let target := d.rd R.PWR_TARGET_pace_target
  let floored (mv cause : Nat) : Nat × Nat := (d.clampVdd mv, if d.clampVdd mv ≤ vmin then 4 else cause)
  if d.phase = .tripped then (vmin, 6)
  else if d.power.hot then floored (if 200 ≤ d.power.sinceThermal then now - 5 else now) 2
  else if paceLow70 pace && now < d.vddCeiling then (d.vddCeiling, if pace < target then 3 else 0)
  else if d.overLimit then floored (now - 5) 1
  else if pace < target then (d.clampVdd (now + 5), if d.vddCeiling ≤ d.clampVdd (now + 5) then 3 else 0)
  else if target * 1000 + 20 * 32768 < pace * 1000 then (d.clampVdd (now - 5), 0)
  else (d.clampVdd now, 0)

/-! ## Boost (R95) -/

/-- Boost seconds of the last 24 h. -/
def Dev.boostUsed (d : Dev) : Nat := d.power.buckets.sum

/-- Show used_s; when an open interval brings it to 1,728 s the budget is exhausted. -/
def Dev.showBoost (d : Dev) : Dev :=
  let was := d.rd R.PWR_BOOST_used_s
  let d := d.wr R.PWR_BOOST_used_s d.boostUsed
  if 1728 ≤ d.boostUsed && was < 1728 && d.on R.PWR_VDD_boost_open then (d.wr R.PWR_STICKY_boost_spent 1).pwrEvent 9 else d

/-- Tj in °C, from its two's complement field. -/
def Dev.tj (d : Dev) : Int := if d.rd R.PWR_TJ_tj < 128 then d.rd R.PWR_TJ_tj else (d.rd R.PWR_TJ_tj : Int) - 256

/-- The conditions of an interval beside the 10 s since the last; for 24 h after a loss of standby none opens. -/
def Dev.boostOk (d : Dev) : Bool :=
  d.on R.PWR_TARGET_boost_enable && d.tj < 100 && d.rd R.PWR_POWER_power_1s < 10 * d.rd R.PWR_LIMIT_power_limit && d.boostUsed < 1728 &&
  d.power.boostBan == 0

/-- Count a started second of boost. -/
def Dev.countBoost (d : Dev) : Dev :=
  (d.onPower (fun p => { p with buckets := match p.buckets with
    | [] => []
    | b :: l => (b + 1) :: l })).showBoost

/-- Close the open interval: the request falls to 0.800 V. -/
def Dev.closeBoost (d : Dev) : Dev :=
  if d.on R.PWR_VDD_boost_open then
    let d := (d.wr R.PWR_VDD_boost_open 0).onPower (fun p => { p with boostTicks := 0, sinceBoost := 0 })
    if 800 < d.rd R.PWR_VDD_request_mv then d.requestVdd 800 (d.rd R.PWR_VDD_cause) else d
  else d

/-- Close the interval where a condition has failed. -/
def Dev.checkBoost (d : Dev) : Dev := if d.on R.PWR_VDD_boost_open && !d.boostOk then d.closeBoost else d

/-- Open an interval where every condition holds; 200,000 governor ticks are 10 s. -/
def Dev.openBoost (d : Dev) : Dev :=
  if !d.on R.PWR_VDD_boost_open && d.boostOk && 200000 ≤ d.power.sinceBoost && d.phase == .running then
    (((d.wr R.PWR_VDD_boost_open 1).onPower (fun p => { p with boostTicks := 0 })).countBoost).pwrEvent 8
  else d

/-- One governor tick of boost time: a second that starts is counted, 20,000 ticks being 1 s. -/
def Dev.boostTick (d : Dev) : Dev :=
  if d.on R.PWR_VDD_boost_open then
    let d := d.onPower (fun p => { p with boostTicks := p.boostTicks + 1 })
    if d.power.boostTicks % 20000 = 0 then d.countBoost else d
  else d.onPower (fun p => { p with sinceBoost := min 200000 (p.sinceBoost + 1) })

/-! ## The measurements -/

/-- The count of ring `k` over its fused reference, in 1.15 fixed point rounded down. -/
def Dev.ringQuotient (d : Dev) (counts : List Nat) (k : Nat) : Nat := counts.getD k 0 * 32768 / d.die.ringRefs.getD k 1

/-- The smallest of the sixteen quotients less 1 %, as far as the field goes (R88, R89). -/
def Dev.paceOf (d : Dev) (counts : List Nat) : Nat :=
  min 0xFFFF (((List.range 16).map (d.ringQuotient counts)).foldl min (d.ringQuotient counts 0) * 99 / 100)

/-- PACE_MEASURE (R88-R90). -/
def Dev.measurePace (counts : List Nat) (d : Dev) : Dev :=
  let pace := d.paceOf counts
  let old := d.rd R.PWR_PACE_pace
  let d := d.onPower (fun p => { p with history := (old :: p.history).take 10 })
  let d := (d.wr R.PWR_PACE_pace pace).wr R.PWR_PACE_LOW_pace_low (min pace (d.rd R.PWR_PACE_LOW_pace_low))
  let d := if paceLow70 pace && !paceLow70 old then
      ((d.wr R.PWR_STICKY_pace_floor 1).pwrEvent 1).record
        { unit := 3, severity := 4, code := 9, detail0 := pace }
    else d
  d.floorJump.updateHeadroom

/-- GOVERNOR_TICK (R93, R95); where the governor does not steer, its request stands (R97). -/
def Dev.governorTick (d : Dev) : Dev :=
  let d := d.onPower (fun p => { p with sinceThermal := min 200 (p.sinceThermal + 1) })
  if !d.steers then d
  else
    let d := (d.boostTick.checkBoost).openBoost
    let next := d.governorRule
    let rule3 := next.2 == 1 || (next.2 == 4 && !d.power.hot)
    let stepped := d.power.hot && d.phase != .tripped && 200 ≤ d.power.sinceThermal
    let d := if rule3 && !d.power.powerRule then d.pwrEvent 3 else d
    let d := d.onPower (fun p => { p with powerRule := rule3, sinceThermal := if stepped then 0 else p.sinceThermal })
    d.requestVdd next.1 next.2

/-- AVS_TRANSACTION_DONE (R96). 'Retried up to three times' and 'after the third failure' differ by one: the third failure in all, after
two retries, stops the governor (DESIGN CHOICE, notes/assumptions/59.md). After a status fault the governor asks for AVSBus Status, and at
the success that lets steering resume it reads the voltage back (DESIGN CHOICE, notes/assumptions/60.md); a request of 0.750 V that
was due meanwhile is made then (R97). -/
def Dev.avsDone (r : AvsResult) (d : Dev) : Dev :=
  let failed (code : Nat) : Dev :=
    if d.power.avsStopped then d
    else if d.power.avsFailures < 2 then (d.onPower (fun p => { p with avsFailures := p.avsFailures + 1 })).emit .avsRetry
    else
      let d := d.onPower (fun p => { p with avsFailures := 0, avsStopped := true })
      ((d.wr R.PWR_STICKY_avs_error 1).pwrEvent 10).record { unit := 3, severity := 4, code := 0xB, detail0 := code }
  match r with
  | .ok =>
    let was := d.power.avsStopped
    let d := d.onPower (fun p => { p with avsFailures := 0, avsStopped := false })
    if !was then d
    else
      let d := d.emit .avsRead
      if d.steers then d else d.requestVdd 750 0
  | .nack => failed 1
  | .statusFault => (failed 2).emit .avsStatus
  | .noResponse => failed 3

/-- POWER_PUBLISH: VDD_CORE power in 0.1 W from the current that AVSBus Current Read gave, in mA, and the request in mV, plus the other
rails (R99). Until 1,000 figures have been published, the 1 s average is that of those there are (DESIGN CHOICE,
notes/assumptions/61.md). -/
def Dev.publishPower (currentMa otherDw : Nat) (d : Dev) : Dev :=
  let p := min 0xFFFF (currentMa * d.rd R.PWR_VDD_request_mv / 100000 + otherDw)
  let log := (p :: d.power.powerLog).take 1000
  let limit := 10 * d.rd R.PWR_LIMIT_power_limit
  let run := if limit < p then d.power.overMs + 1 else 0
  let d := d.onPower (fun w => { w with powerLog := log, overMs := run, capped := w.capped && limit ≤ p })
  let d := (d.wr R.PWR_POWER_power_1ms p).wr R.PWR_POWER_power_1s (log.sum / log.length)
  let d := d.emit .avsCurrentRead
  let d := if 3600 < p || run = 50 then
      (((d.onPower (fun w => { w with capped := limit ≤ p })).wr R.PWR_STICKY_power_cap 1).pwrEvent 4).record
        { unit := 3, severity := 4, code := 0xA, detail0 := p }
    else d
  d.checkBoost

/-- The hottest reading and its sensor; of several with that reading the lowest-numbered is shown (DESIGN CHOICE,
notes/assumptions/62.md). -/
def hottest (sensors : List Int) : Int × Nat :=
  sensors.zipIdx.foldl (fun best s => if best.1 < s.1 then (s.1, s.2) else best) (sensors.headD 0, 0)

/-- A temperature as the eight bits of its field. -/
def tjBits (t : Int) : Nat := (t % 256).toNat

/-- The temperature of a field. -/
def tjOf (v : Nat) : Int := if v < 128 then v else (v : Int) - 256

/-- TJ_SAMPLE (R104); temperatures outside -128 to 127 °C read as the nearer limit. -/
def Dev.sampleTj (sensors : List Int) (d : Dev) : Dev :=
  let h := hottest sensors
  let t := max (-128) (min 127 h.1)
  let d := d.onPower (fun p => { p with heldTj := t })
  let d := (d.wr R.PWR_TJ_tj (tjBits t)).wr R.PWR_TJ_sensor h.2
  let d := if tjOf (d.rd R.PWR_TJ_PEAK_tj_peak) ≤ t then d.wr R.PWR_TJ_PEAK_tj_peak (tjBits t) else d
  let d := d.onPower (fun p => { p with coolMs := if t < 105 then min 1000 (p.coolMs + 1) else 0 })
  let d := if 105 ≤ t then
      (if d.power.hot then d else ((d.onPower (fun p => { p with hot := true })).wr R.PWR_STICKY_thermal_cap 1).pwrEvent 5)
    else if d.power.hot then (d.onPower (fun p => { p with hot := false })).pwrEvent 14
    else d
  d.checkBoost

/-! ## Power domains (R100-R103) -/

/-- The positions that site `n` of a map stands in. -/
def Dev.positionsOfSite (d : Dev) (n : Nat) : List Nat := (List.range 34).filter (fun p => d.hasSet p && (d.setAt p).site == n)

/-- The crypto positions whose sites belong to a cluster. -/
def Dev.clusterPositions (d : Dev) (c : Nat) : List Nat :=
  (List.range 48).filter (fun p => d.hasCry p && (d.cryAt p).site / 24 == c)

/-- Does R100 allow the domain to be off now? -/
def Dev.mayBeOff (d : Dev) (n : Nat) : Bool :=
  if n < 34 then (d.positionsOfSite n).all (fun p => (d.setAt p).phase == .out)
  else if 36 ≤ n ∧ n < 40 then (List.range 8).all (fun k => (d.portOfLane (8 * (n - 36) + k)).isNone)
  else if n = 40 ∨ n = 41 then (List.range 8).all (fun k => !d.formed (8 * (n - 40) + k))
  else if n = 42 then !d.on R.STP_CTRL_pair_enable
  else if n = 43 ∨ n = 44 then (d.clusterPositions (n - 43)).all (fun p => (d.cryAt p).phase == .out)
  else if n = 45 then d.funcs.keys.all (fun f => !(d.hasFn f && d.vfKind f == 2))
  else false

/-- Is accepted work held inside the domain? -/
def Dev.domainHolds (d : Dev) (n : Nat) : Bool :=
  if n < 34 then (d.positionsOfSite n).any (fun p => d.occupancy p != 0)
  else if n = 43 ∨ n = 44 then (d.clusterPositions (n - 43)).any (fun p =>
    (d.items.filter (fun _ it => it.stage == .crypto && it.cryPosition == p)).size != 0)
  else false

/-- Post the result of a domain command. -/
def Dev.domainResult (n code : Nat) (d : Dev) : Dev :=
  let d := (d.wr R.PWR_DOMAIN_RESULT_domain n).wr R.PWR_DOMAIN_RESULT_code code
  if code = 0 then d else d.pwrEvent 12

/-- PWR_DOMAIN_CMD op 1 (R103). -/
def Dev.domainOff (n : Nat) (d : Dev) : Dev :=
  if 48 ≤ n then d
  else if d.power.waking.contains n then d.domainResult n 3
  else if d.domainExists n && !d.mayBeOff n then d.domainResult n 1
  else if d.domainHolds n then d.domainResult n 2
  else (d.setDomain n false).domainResult n 0

/-- PWR_DOMAIN_CMD op 2 (R102). -/
def Dev.domainWake (n : Nat) (d : Dev) : Dev := if 48 ≤ n then d else (d.wake n).domainResult n 0

/-- The domain at the head of those that wake is ready; the next one proceeds (R101). -/
def Dev.domainReady (n : Nat) (d : Dev) : Dev :=
  match d.power.waking with
  | h :: t =>
    if h ≠ n then d
    else
      let d := (d.onPower (fun p => { p with waking := t })).setDomain n true
      Dev.each (d.positionsOfSite n) Dev.settle d
  | [] => d

/-! ## Commands -/

/-- PACE_MEASURE: the sixteen ring counts. -/
def execPaceMeasure (counts : List Nat) (s : State) : Out := s.onIsland (Dev.measurePace counts)

/-- PACE_LOW_PERSIST: Pace has stayed below pace_target for 1 ms (R94). -/
def execPaceLowPersist (s : State) : Out :=
  s.onIsland (fun d => if d.rd R.PWR_PACE_pace < d.rd R.PWR_TARGET_pace_target then (d.wr R.PWR_STICKY_pace_low 1).pwrEvent 0 else d)

/-- GOVERNOR_TICK. -/
def execGovernorTick (s : State) : Out := s.onIsland Dev.governorTick

/-- BOOST_INTERVAL_EXPIRY. -/
def execBoostIntervalExpiry (s : State) : Out := s.onIsland Dev.closeBoost

/-- BOOST_BUCKET_AGE: 15 min have passed. -/
def execBoostBucketAge (s : State) : Out :=
  s.onDev (fun d => (d.onPower (fun p => { p with buckets := 0 :: p.buckets.dropLast, boostBan := p.boostBan - 1 })).showBoost)

/-- AVS_TRANSACTION_DONE. -/
def execAvsTransactionDone (result : AvsResult) (s : State) : Out := s.onIsland (Dev.avsDone result)

/-- AVS_RETRY_EXPIRY: the governor tries the bus again. -/
def execAvsRetryExpiry (s : State) : Out :=
  s.onIsland (fun d => if d.power.avsStopped then d.emit (.avsWrite (d.rd R.PWR_VDD_request_mv)) else d)

/-- POWER_PUBLISH. -/
def execPowerPublish (currentMa otherDw : Nat) (s : State) : Out := s.onIsland (Dev.publishPower currentMa otherDw)

/-- TJ_SAMPLE; in a cold reset the always-on domain only notes Tj, which the next start looks at (R489). -/
def execTjSample (sensors : List Int) (s : State) : Out :=
  if s.dev.phase = .held then
    s.onDev (fun d => d.onPower (fun p => { p with heldTj := max (-128) (min 127 (hottest sensors).1) }))
  else s.onIsland (Dev.sampleTj sensors)

/-- DOMAIN_OFF_CMD. -/
def execDomainOffCmd (domain : Nat) (s : State) : Out := s.onRun (Dev.domainOff domain)

/-- DOMAIN_WAKE_CMD. -/
def execDomainWakeCmd (domain : Nat) (s : State) : Out := s.onRun (Dev.domainWake domain)

/-- DOMAIN_READY. -/
def execDomainReady (domain : Nat) (s : State) : Out := s.onRun (Dev.domainReady domain)

end Sys2Proof.Machine
end

