-- ==== Sys2Proof/Machine/Classify.lean ====
section
/-!
DEFINITION. Classification and admission (R180-R188, R192-R195, R201, R211, R234, R281, R282, R300, R349, R353): the stages of a
frame, the checks that refuse a received frame, its acceptance, the crypto stage and the lossless receive FIFO.
-/

namespace Sys2Proof.Machine

/-! ## Figures (R186-R188) -/

/-- Entry `i` of the Figure map of a direction: 0 ingress, 1 egress. -/
def Dev.figureEntry (d : Dev) (dir i : Nat) : Nat := bits (d.rd R.PPL_FIG_MAP_figures dir (4 * (i / 16))) (2 * (i % 16)) 2

/-- The in-service positions of a Figure, rising. -/
def Dev.figurePositions (d : Dev) (f : Nat) : List Nat := ((List.range 8).map (8 * f + ·)).filter d.setInService

/-- The Figure that carries a map entry's work: itself, or the next with a position in service. -/
def Dev.redirect (d : Dev) (f : Nat) : Option Nat :=
  ([f, f + 1, f + 2, f + 3].map (· % 4)).find? (fun g => !(d.figurePositions g).isEmpty)

/-- The Figure that a received frame's port and hash name. -/
def Dev.rxFigure (d : Dev) (m hash : Nat) : Nat :=
  if d.on R.PPL_PORT_FLOW_port_affinity 0 (16 * m) then d.rd R.PPL_PORT_FLOW_affinity_figure 0 (16 * m)
  else d.figureEntry 0 (hash % 256)

/-- The Figure that a ring's items go to. -/
def Dev.txFigure (d : Dev) (r : Nat) : Nat := d.figureEntry 1 (Nat.xor (Nat.xor r (r / 256)) (r / 65536) % 256)

/-! ## Keys and records (R181, R211, R234) -/

/-- An IP address as a 16-byte string, IPv4 mapped. -/
def mapIp (a : List Byte) : List Byte := if a.length = 4 then List.replicate 10 0 ++ [0xFF, 0xFF] ++ a else padTo 16 a

/-- Word `k` of action record `a`. -/
def Dev.actionWord (d : Dev) (a k : Nat) : Nat := d.rd R.PPL_ACTION_record 0 (16 * a + 4 * k)

/-- The headers that the flow hash and the ternary key use: IP, EtherType and the offset of the L2 header. -/
def Parse.hashHeaders (p : Parse) : Option Ip × Nat × Nat :=
  if p.hashInner then (p.innerIp, p.innerEtherType, p.offInnerL2) else (p.ip, p.etherType, 0)

/-- The ternary key of a frame. -/
def policyKey (p : Parse) (f : Frame) : List Byte :=
  let h := p.hashHeaders
  let w := p.words
  let addr (g : Ip → List Byte) : List Byte := (h.1.map (fun i => mapIp (g i))).getD (List.replicate 16 0)
  let ports := (h.1.bind Ip.ports).getD (0, 0)
  leBytes (w.getD 6 0) 4 ++ leBytes (p.vnid % 2 ^ 24 + 2 ^ 24 * p.tc) 4 ++ leBytes (w.getD 2 0) 4 ++ leBytes (w.getD 3 0) 4 ++
    addr Ip.src ++ addr Ip.dst ++ leBytes (ports.1 + 65536 * ports.2) 4 ++
    leBytes ((h.1.map Ip.proto).getD 0 + 256 * (h.1.map Ip.dscp).getD 0) 4 ++ padTo 6 (sliceBytes f h.2.2 6) ++ beBytes h.2.1 2

/-- The verdict of an action record: `given` is the ring base, ring_log2 and mark of a destination hit with ring_valid set;
`setMark` a policy hit's mark. -/
def Dev.recordVerdict (d : Dev) (action hash : Nat) (given : Option (Nat × Nat × Nat)) (setMark : Option Nat) : Verdict :=
  let w0 := d.actionWord action 0
  let w1 := d.actionWord action 1
  let w2 := d.actionWord action 2
  let own := if hasBit w1 26 then some (bits w1 0 22, bits w1 22 4) else none
  let base := match given with
    | some g => some (g.1, g.2.1)
    | none => own
  { action := action
    entry := bits w0 0 14
    drop := hasBit w0 14
    toException := hasBit w0 15
    learn := hasBit w0 16
    decap := hasBit w0 17
    hairpin := hasBit w0 18
    tc := bits w0 19 4
    ring := base.map (fun b => (b.1 + hash / 2 ^ 24 % 2 ^ b.2) % 2 ^ 22)
    template := if hasBit w2 24 then some (bits w2 0 24) else none
    mark := setMark.getD ((given.map (fun g => g.2.2)).getD (bits (d.actionWord action 3) 0 14)) }

/-! ## Stages 4 to 6 -/

/-- The destination MAC that stage 4 looks up: the inner one of a terminated frame that has an inner Ethernet header. -/
def destMac (p : Parse) (f : Frame) : Nat := beAt f (if p.terminated then p.offInnerL2 else 0) 6

/-- Stages 4, 5 and 6 for a lookup made by `figure`: the parse record and the verdict. -/
def Dev.chooseAction (figure miss : Nat) (p : Parse) (f : Frame) (d : Dev) : (Parse × Verdict) × Dev :=
  let r := d.lookup 0 figure (destKey p.vnid (destMac p f))
  let d := r.2
  let w (o : Nat) : Nat := (r.1.map (fun e => leAt e.result o 4)).getD 0
  let action := if r.1.isSome then bits (w 0) 0 12 else miss
  let given := if hasBit (w 0) 16 then some (bits (w 4) 0 22, bits (w 0) 12 4, bits (w 0) 17 14) else none
  let policy := (d.ternaryHit (policyKey p f)).map (fun b => leAt b 0 4)
  let valid := policy.filter (fun v => hasBit v 26)
  let action := (valid.map (fun v => bits v 0 12)).getD action
  let mark := (valid.filter (fun v => hasBit v 27)).map (fun v => bits v 12 14)
  let v := d.recordVerdict action p.hash given mark
  let v := { v with
    hit := r.1.isSome
    macInst := if r.1.isSome ∧ hasBit (w 8) 22 = false then some (bits (w 8) 14 8) else none }
  (({ p with
      tc := if v.tc = 15 then p.tc else v.tc % 8
      action := action }, v), d)

/-! ## Received frames: stages 1 to 3 -/

/-- The virtual network that a port gives a frame, or its refusal (R195). -/
def Dev.portVnid (d : Dev) (m : Nat) (p : Parse) (f : Frame) : Option Nat :=
  let dflt := d.rd R.PPL_PORT_VLAN_default_vid 0 (16 * m)
  let tagged := p.vlanCount != 0
  match d.rd R.PPL_PORT_VLAN_vlan_mode 0 (16 * m) with
  | 0 => some dflt
  | 1 => if tagged then none else some dflt
  | 2 => some (if tagged then p.outerTci % 4096 else dflt)
  | _ => if tagged && beAt f 12 2 == 0x88A8 then some (p.outerTci % 4096) else none

/-- The class that a port reads from a frame (R194). -/
def Dev.portTc (d : Dev) (m : Nat) (p : Parse) : Nat :=
  match p.ip with
  | some i => if d.on R.PPL_PORT_VLAN_trust_dscp 0 (16 * m) then i.dscp / 8 else p.tc
  | none => p.tc

/-- The key of the termination table. -/
def termKey (p : Parse) (i : Ip) : List Byte :=
  mapIp i.dst ++ leBytes p.tunnel 4 ++ leBytes (if p.tunnel = 3 then p.tunnelKey / 256 else p.tunnelKey) 4

/-- Stage 2: the record with a hit's virtual network, and the entry's flags. -/
def Dev.terminate (m : Nat) (p : Parse) (d : Dev) : (Parse × Nat) × Dev :=
  match p.ip with
  | some i =>
    if p.tunnel = 0 ∨ p.tunnelOk = false ∨ d.on R.PPL_PORT_FLOW_tunnel_term 0 (16 * m) = false then ((p, 0), d)
    else
      let r := d.lookup 1 0 (termKey p i)
      match r.1 with
      | some e => (({ p with terminated := true, vnid := leAt e.result 0 3 }, byteAt e.result 3 % 8), r.2)
      | none => ((p, 0), r.2)
  | none => ((p, 0), d)

/-- The flow hash under a direction's settings. -/
def Dev.hashOf (d : Dev) (dir : Nat) (p : Parse) (f : Frame) : Nat :=
  flowHash p f (d.rd R.PPL_HASH_SEED_seed dir) (d.on R.PPL_HASH_CONFIG_symmetric dir) (d.on R.PPL_HASH_CONFIG_l4_ports dir)
    (d.on R.PPL_HASH_CONFIG_vni dir)

/-- Congestion met on the outer headers, and not to be told to the inner ones (R199). -/
def ecnFault (p : Parse) (v : Verdict) : Bool :=
  v.decap && p.terminated && (match p.ip, p.innerIp with
    | some o, some i => o.ecn == 3 && i.ecn == 0
    | _, _ => false)

/-! ## Connections (R294, R300, R304) -/

/-- The QP that a RoCE packet names: its Base Transport Header follows the UDP header (PRESUMED, notes/assumptions/24.md). -/
def bthQpn (p : Parse) (f : Frame) : Nat := beAt f (p.offL4 + 13) 3

/-- State of a QP context (R295). -/
def Dev.qpState (d : Dev) (q : Nat) : Nat := bits (d.ctxAt q 0 4) 4 3

/-- Does the packet's ICRC verify? Its last four bytes are the ICRC. -/
def icrcOk (i : Ip) (f : Frame) : Bool :=
  i.offL4 + 24 ≤ i.endL4 && leAt f (i.endL4 - 4) 4 == (Config.icrc (sliceBytes f i.off (i.endL4 - 4 - i.off))).toNat

/-- The QP check of R300. -/
def Dev.qpTakes (d : Dev) (m q : Nat) : Bool :=
  d.ctxType q == 8 && (d.qpState q == 2 || d.qpState q == 3) && d.ctxAt q 4 4 / 2 ^ 14 % 256 == m && !d.ctxBad q

/-- A field of a context whose layout the spec does not give (notes/assumptions/3.md). -/
def Dev.ctxField (d : Dev) (c n : Nat) : Nat := Config.ctxField (d.ctxType c) n (d.ctx c)

/-- The NVMe/TCP connection whose addresses and ports a segment carries: fields 0-3 of a type 10 context are local and remote
address, local and remote port, field 4 its MAC instance. -/
def Dev.tcpConn (d : Dev) (m : Nat) (p : Parse) : Option Nat :=
  match p.ip with
  | some i =>
    match i.ports with
    | some (src, dst) =>
      if i.l4 ≠ 1 ∨ p.fragFirst = true ∨ d.die.variant.hasSto = false then none
      else
        d.conns.find? (fun c _ => d.ctxType c == 10 && d.ctxField c 0 == beAt (mapIp i.dst) 0 16 &&
          d.ctxField c 1 == beAt (mapIp i.src) 0 16 && d.ctxField c 2 == dst && d.ctxField c 3 == src && d.ctxField c 4 % 256 == m)
    | none => none
  | none => none

/-- Bytes of a connection that lie in the deep overflow buffer (R306). -/
def Conn.deep (x : Conn) : Nat := ((x.kept ++ x.early).map (fun b => b.2.length)).sum + (x.cmds.map (fun c => c.early.length)).sum

/-- deep_limit_mib, 0 acting as 1, in bytes. -/
def Dev.deepLimit (d : Dev) : Nat := 2 ^ 20 * max 1 (d.rd R.STO_DEEP_LIMIT_deep_limit_mib)

/-- Bytes that the deep buffer holds, and that it can hold (R27). -/
def Dev.deepHeld (d : Dev) : Nat := (d.conns.vals.map Conn.deep).sum
def Dev.deepRoom (d : Dev) : Nat := 2 ^ 30 * ((d.boot.image.map imgSizes).getD (0, 0)).2

/-- A segment that can neither be processed in order nor be held: beyond the window, or the connection's share or the buffer is full
(R304). -/
def Dev.segmentLost (d : Dev) (c : Nat) (p : Parse) (f : Frame) : Bool :=
  match p.ip with
  | some i =>
    let x := d.conns.getD c {}
    let ahead := (beAt f (i.offL4 + 4) 4 + 2 ^ 32 - x.rcvNxt) % 2 ^ 32
    let n := i.endL4 - i.payload
    ahead != 0 && ahead < 2 ^ 31 && (65535 < ahead + n || d.deepLimit < x.deep + n || d.deepRoom < d.deepHeld + n)
  | none => false

/-! ## Admission (R182-R185) -/

/-- The exception ring of a port. -/
def Dev.exceptionRing (d : Dev) (m : Nat) : Option Nat :=
  if d.on R.PPL_PORT_EXC_exception_valid 0 (16 * m) then some (d.rd R.PPL_PORT_EXC_exception_ring 0 (16 * m)) else none

/-- Is it an enabled receive ring? -/
def Dev.rxRingOpen (d : Dev) (r : Nat) : Bool :=
  match d.ring? r with
  | some g => g.kind == 1 && decide (g.state = .enabled) && !g.stopping
  | none => false

/-- Has the function Bus Master Enable set and no reset in progress? -/
def Dev.takesFrames (d : Dev) (fn : Nat) : Bool := d.hasFn fn && (d.fn fn).busMaster && decide ((d.fn fn).reset = .none)

/-- Do the free accepted buffers of the ring cover `n` bytes? -/
def Ring.covers (g : Ring) (n : Nat) : Bool := n ≤ ((g.buffers.filter Desc.rxOk).map Desc.bufLen).sum

/-- Is a frame of `n` bytes covered by buffers not yet taken, with no frame waiting (R147)? -/
def Dev.coveredAt (d : Dev) (r n : Nat) : Bool :=
  match d.ring? r with
  | some g => g.waiting.isEmpty && g.covers n
  | none => false

/-- Does R147 admit a frame of `n` bytes? -/
def Dev.holdAdmits (d : Dev) (r n : Nat) : Bool :=
  match d.ring? r with
  | some g => d.coveredAt r n || g.heldBytes + n ≤ 1024 * g.rxHoldKib
  | none => false

/-- Bytes of the shared packet buffer (R33). -/
def bufferBytes : Variant → Nat
  | .s9640 => 64 * 2 ^ 20
  | .s9632 => 48 * 2 ^ 20
  | .s9616 => 32 * 2 ^ 20

/-- Bytes that items hold in the packet buffer, of one port or of all. -/
def Dev.bufferUse (d : Dev) (port : Option Nat) : Nat :=
  ((d.items.filter (fun _ it => match port with
    | some m => it.kind == 1 && it.source == m
    | none => true)).vals.map (fun it => it.bytes.length)).sum

/-- Are the outer headers of a terminated frame unacceptable (R182 reason 1, R201)? -/
def tunnelBad (p : Parse) (flags : Nat) : Bool :=
  let zero6 := p.udpZero6 && hasBit flags 2
  p.terminated && (hasBit p.csum 2 || (hasBit p.csum 3 && !zero6) || (p.outerBad && p.csum < 4) ||
    (p.geneveCritical && !hasBit flags 0) || (p.geneveOam && !hasBit flags 1))

/-- Is a received item bound for the exception ring, or its destination undecided? -/
def Item.needsException (it : Item) : Bool := it.conn.isNone && (it.verdict.toException || it.verdict.ring.isNone)

/-- The function whose ring or connection is the provisional destination. -/
def Dev.provisionalFn (d : Dev) (it : Item) : Option Nat :=
  match it.conn with
  | some c => some (d.ctxOwner c)
  | none => ((d.itemRing it).bind d.ring?).map Ring.fn

/-- The reason that refuses a received item, if any (R182). -/
def Dev.refusal (d : Dev) (it : Item) : Option Nat :=
  let m := it.source
  let n := it.bytes.length
  let ring := if it.conn.isSome then none else d.itemRing it
  if it.verdict.drop then some 0
  else if tunnelBad it.parse it.verdict.termFlags then some 1
  else if it.parse.lenBad && d.on R.PPL_PORT_FLOW_malformed_refuse 0 (16 * m) then some 7
  else if it.needsException && !((d.exceptionRing m).map d.rxRingOpen).getD false then some 6
  else if !((d.provisionalFn it).map d.takesFrames).getD false || !(it.conn.isSome || (ring.map d.rxRingOpen).getD false) then some 2
  else if !(ring.map (fun r => d.holdAdmits r n)).getD true then some 3
  else if bufferBytes d.die.variant < d.bufferUse none + n || 1024 * d.rd R.PPL_PORT_QUOTA_quota_kib 0 (16 * m) < d.bufferUse (some m) + n
    then some 4
  else if d.credits < 250 then some 5
  else none

/-- Count a refusal. -/
def Dev.countRefusal (m reason : Nat) (d : Dev) : Dev :=
  let d := (d.bump R.PPL_REFUSED_count 0 (4 * reason)).countMac m 5
  if reason = 3 then (d.bump R.QMG_RX_REFUSED_count).cause qmgCauses 3 else d

/-- Accept a received item: its admission sequence, its credit, and its place before dispatch (R155, R182, R184). -/
def Dev.acceptFrame (it : Item) (d : Dev) : Dev :=
  let m := it.source
  let n := it.bytes.length
  let seq := d.admitted.getD m 0
  let ring := if it.conn.isSome then none else d.itemRing it
  let held := match ring with
    | some r => if d.coveredAt r n then 0 else n
    | none => 0
  let fn := (d.provisionalFn it).getD 0
  let d := { d with admitted := d.admitted.set m ((seq + 1) % 2 ^ 48), credits := d.credits - 250 }
  let d := (d.countMac m 0).countMac m 1 (n + 4)
  let d := match ring with
    | some r => d.onRing r (fun g => { g with heldBytes := g.heldBytes + held })
    | none => d
  (d.addItem { it with
    seq := seq
    fn := fn
    gen := (d.fn fn).gen
    stage := .queued
    held := held
    heldAt := ring
    actionIndex := it.verdict.action }).2

/-- A refused frame that a connection must not lose silently is counted with the unit that refused it (R304). -/
def Dev.admitOrRefuse (it : Item) (d : Dev) : Dev :=
  if d.boot.shutdown then d.countMac it.source 5
  else
  match d.refusal it with
  | some reason => d.countRefusal it.source reason
  | none => d.acceptFrame it

/-- Does a lossless class's frame wait rather than being refused (R184)? -/
def Dev.mustWait (d : Dev) (it : Item) : Bool :=
  d.lossless it.source it.parse.tc && (d.boot.shutdown ||
  match d.refusal it with
    | some reason => reason == 4 || reason == 5
    | none => (d.mac it.source).rx.any (fun w => w.parse.tc == it.parse.tc))

/-- A frame goes to the receive FIFO, or finds no room in it (R353). -/
def Dev.enterRxFifo (it : Item) (d : Dev) : Dev :=
  let m := it.source
  if ((d.mac m).rx.map (fun w => w.bytes.length)).sum + it.bytes.length ≤ d.fifoSize m then
    (d.onMac m (fun x => { x with rx := x.rx ++ [it] })).checkXoff m it.parse.tc
  else (d.countMac m 7).cause macCauses 2

/-- Admission of a classified frame. -/
def Dev.admitItem (it : Item) (d : Dev) : Dev := if d.mustWait it then d.enterRxFifo it else d.admitOrRefuse it

/-! ## The stages of a received frame -/

/-- The flow hash and Figure, and stages 4 to 6 (R180, R186): the item as it meets admission. -/
def Dev.classified (it : Item) (d : Dev) : Item × Dev :=
  let m := it.source
  let p := { it.parse with hash := d.hashOf 0 it.parse it.bytes }
  let figure := d.rxFigure m p.hash
  let r := d.chooseAction ((d.redirect figure).getD figure) (d.rd R.PPL_PORT_FLOW_miss_action 0 (16 * m)) p it.bytes
  let v := { r.1.2 with
    termFlags := it.verdict.termFlags
    macInst := none
    mark := it.espMark.getD r.1.2.mark }
  let v := { v with toException := v.toException || ecnFault r.1.1 v }
  ({ it with parse := r.1.1, verdict := v, figure := figure }, r.2)

/-- Classification and admission. -/
def Dev.classifyRx (it : Item) (d : Dev) : Dev := (d.classified it).2.admitItem (d.classified it).1

/-- The context of the inbound SA table that an ESP frame hits (R281); the SPI lies in the key as a number, low byte first (R4). -/
def Dev.inboundSa (p : Parse) (f : Frame) (d : Dev) : Option Nat × Dev :=
  match p.ip with
  | some i =>
    if p.l4 ≠ 4 ∨ p.fragFirst = true ∨ p.fragLater = true ∨ d.on R.CRY_RX_TABLE_valid = false then (none, d)
    else
      let r := d.lookup (d.rd R.CRY_RX_TABLE_table) 0 (mapIp i.dst ++ leBytes (beAt f i.offL4 4) 4)
      (r.1.bind (fun e => if hasBit (byteAt e.result 3) 0 then some (leAt e.result 0 3) else none), r.2)
  | none => (none, d)

/-- Stages 1 and 2 under the port's registers as they stand: the record and the termination entry's flags; none where the port refuses
the frame. A decrypted frame meets no stage 2. -/
def Dev.portStages (m : Nat) (term : Bool) (f : Frame) (d : Dev) : Option (Parse × Nat) × Dev :=
  let p := parse d.parseCfg f
  let p := { p with source := m, tc := d.portTc m p }
  match d.portVnid m p f with
  | none => (none, d)
  | some vnid =>
    let t := if term then d.terminate m { p with vnid := vnid } else (({ p with vnid := vnid }, 0), d)
    (some ({ t.1.1 with hashInner := t.1.1.terminated && t.2.on R.PPL_PORT_FLOW_hash_inner 0 (16 * m) }, t.1.2), t.2)

/-- What an item shows of its frame after stages 1 and 2. -/
def Item.after (it : Item) (x : Parse × Nat) : Item := { it with parse := x.1, verdict := { termFlags := x.2 } }

/-- A frame that the MAC passed, up to the crypto stage: parse, port, termination, transport checks, inbound SA. The item says what the
stage has to do with it; none where the frame is refused. -/
def Dev.preStage (m : Nat) (f : Frame) (stamp : Stamp) (since : Int) (d : Dev) : Option Item × Dev :=
  let d := d.when (parse d.parseCfg f).truncated (fun d => d.bump R.PPL_PARSE_TRUNC_count)
  match d.portStages m true f with
  | (none, d) => (none, d.countRefusal m 0)
  | (some x, d) =>
    let p := x.1
    let it : Item := Item.after { kind := 1, source := m, bytes := f, stamp := stamp, since := since, job := 3, cryPosition := 64 } x
    if p.roce then
      (match p.ip with
      | some i =>
        if icrcOk i f && d.qpTakes m (bthQpn p f) then (some { it with conn := some (bthQpn p f) }, d) else (none, d.countRefusal m 0)
      | none => (none, d.countRefusal m 0))
    else
      match d.tcpConn m p with
      | some c =>
        if d.segmentLost c p f then (none, (d.bump R.STO_RX_OOO_DROPS_count).countMac m 5) else (some { it with conn := some c }, d)
      | none =>
        let sa := d.inboundSa p f
        match sa.1 with
        | none => (some it, sa.2)
        | some c => (some { it with job := 0, sa := c, cryPosition := (sa.2.cryPick).getD 64 }, sa.2)

/-! ## The crypto stage (R281, R282) -/

/-- The frames of a MAC instance in the crypto stage, in arrival order. -/
def Dev.cryStage (d : Dev) (m : Nat) : List Nat := (d.items.filter (fun _ it => it.stage == .crypto && it.source == m)).keys

/-- A frame enters the crypto stage, where there is room. -/
def Dev.enterStage (it : Item) (d : Dev) : Dev :=
  if 512 ≤ (d.items.filter (fun _ x => x.stage == .crypto)).size then
    ((d.bump R.CRY_RX_QUEUE_REFUSED_count).cause cryCauses 3).countRefusal it.source 5
  else ((d.addItem { it with stage := .crypto }).2).startJobs

/-- A frame that meets the crypto stage: one without a job passes, unless earlier frames of its MAC instance are in the stage (R282;
DEDUCED, notes/assumptions/82.md). -/
def Dev.ingress (m : Nat) (f : Frame) (stamp : Stamp) (since : Int) (d : Dev) : Dev :=
  match d.preStage m f stamp since with
  | (none, d) => d
  | (some it, d) => if it.job = 3 ∧ (d.cryStage m).isEmpty then d.classifyRx it else d.enterStage it

/-- Frames leave the stage in arrival order, as far as their jobs have ended: under the port's registers as they stand (R204). A frame that
MACsec kept waiting for an instance is validated first (R272). -/
def Dev.leaveCrypto (m : Nat) : Nat → Dev → Dev
  | 0, d => d
  | fuel + 1, d =>
    match (d.cryStage m).head?.bind (fun i => (d.item? i).map (fun it => (i, it))) with
    | none => d
    | some (i, it) =>
      if it.job = 4 ∧ d.cryInService.isEmpty = false then
        match d.macsecReceive m it.bytes with
        | (none, d) => Dev.leaveCrypto m fuel ((d.countMac m 6).dropItem i)
        | (some g, d) =>
          match d.preStage m g it.stamp it.since with
          | (none, d) => Dev.leaveCrypto m fuel (d.dropItem i)
          | (some x, d) => Dev.leaveCrypto m fuel (d.onItem i (fun _ => { x with stage := .crypto })).startJobs
      else if it.job = 1 ∨ it.job = 3 then
        let d := d.dropItem i
        Dev.leaveCrypto m fuel (match d.portStages m (it.job == 3) it.bytes with
          | (none, d) => d.countRefusal m 0
          | (some x, d) => d.classifyRx (it.after x))
      else d

/-- An inbound ESP job ends at the instance that runs it; at a vacant position it waits (R270, R272). -/
def Dev.espJobDone (i : Nat) (d : Dev) : Dev :=
  let d := d.assignJobs
  match d.item? i with
  | none => d
  | some it =>
    match it.parse.ip, it.jobCtx with
    | some ip, some cfg =>
      if it.stage ≠ .crypto ∨ it.job ≠ 0 ∨ (d.cryAt it.cryPosition).phase = .out ∨ d.cryHead it.cryPosition ≠ some i then d
      else
        let d := d.cryCount it.cryPosition it.bytes.length
        let v := d.jobView it.sa cfg
        let d := match Dev.espJob it.sa ip it.bytes v d with
          | (.passed f, d) => d.onItem i (fun x => { x with
              bytes := f
              job := 1
              espMark := if v.ctxBit it.sa 13 then some (bits (v.ctxAt it.sa 0 4) 14 14) else none })
          | (.refused kind, d) => ((d.countEspRefusal kind).countRefusal it.source 0).dropItem i
        (d.leaveCrypto it.source (2 * (d.cryStage it.source).length)).startJobs
    | _, _ => d

/-- An instance is in service again: jobs that waited for one go on (R272). -/
def Dev.cryReturns (d : Dev) : Dev :=
  let ms := ((d.items.filter (fun _ it => it.stage == .crypto)).vals.map Item.source).dedup
  Dev.each ms (fun m d => d.leaveCrypto m (2 * (d.cryStage m).length)) d.assignJobs

/-! ## Frames at the MAC -/

/-- FRAME_RECEIVED: the MAC's checks in order (R349, R352); during a service reset, and in fault stop, a frame is counted and
gone, but pause frames still act (R350, R454). -/
def Dev.receiveFrame (m : Nat) (f : Frame) (fcsOk : Bool) (d : Dev) : Dev :=
  if !d.macUp m then d
  else if !fcsOk then d.countMac m 2
  else if beAt f 12 2 = 0x8808 then d.rxControl m f
  else if d.phase ≠ .running then d.countMac m 8
  else if f.length < 60 then d.countMac m 3
  else if d.rd R.MAC_INST_CFG_max_frame 0 (16 * m) < f.length + 4 then d.countMac m 4
  else
    let stamp := d.portStamp m true
    let since := d.plane m true
    if d.on R.CRY_MACSEC_RX_rx_enable 0 (8 * m) ∧ beAt f 12 2 = 0x88E5 ∧ d.cryInService.isEmpty = true then
      d.enterStage { kind := 1, source := m, bytes := f, stamp := stamp, since := since, job := 4, cryPosition := 64 }
    else
      match d.macsecReceive m f with
      | (none, d) => d.countMac m 6
      | (some g, d) => d.ingress m g stamp since

/-- LOSSLESS_FIFO_ADMIT: the oldest waiting frame of a class meets admission again, under the port's registers as they stand (R204). -/
def Dev.admitWaiting (m cls : Nat) (d : Dev) : Dev :=
  match (d.mac m).rx.find? (fun it => it.parse.tc == cls) with
  | none => d
  | some it =>
    let gone (d : Dev) : Dev := d.onMac m (fun x => { x with rx := x.rx.erase it })
    match d.portStages m (it.job != 1) it.bytes with
    | (none, d') => ((gone d').countRefusal m 0).checkXon m cls
    | (some x, d') =>
      let r := d'.classified (it.after x)
      let full := r.2.refusal r.1 == some 4 || r.2.refusal r.1 == some 5
      if d.boot.shutdown || (full && d.lossless m r.1.parse.tc) then d else ((gone r.2).admitOrRefuse r.1).checkXon m cls

/-! ## Commands -/

/-- FRAME_RECEIVED: the frame without preamble and FCS, and whether the FCS is right and the frame whole. -/
def execFrameReceived (mac : Nat) (frame : Frame) (fcsOk : Bool) (s : State) : Out := s.onLive (Dev.receiveFrame mac frame fcsOk)

/-- LOSSLESS_FIFO_ADMIT. -/
def execLosslessFifoAdmit (mac cls : Nat) (s : State) : Out := s.onRun (Dev.admitWaiting mac cls)

end Sys2Proof.Machine
end

