-- ==== Sys2Proof/Machine/Transmit.lean ====
section
/-!
DEFINITION. Transmit descriptors (R141, R142, R151), how a frame's descriptors become an item, and dispatch to a Set position
(R157, R186-R188).
-/

namespace Sys2Proof.Machine

/-! ## Descriptor fields -/

/-- The fields of a transmit descriptor, of either format; `reserved` says that a reserved field is non-zero. -/
structure TxFields where
  length : Nat
  sop : Bool
  eop : Bool
  tsReq : Bool
  launch : Bool := false
  opcode : Nat
  csum : Nat := 0
  vlanInsert : Bool := false
  seg : Bool := false
  tci : Nat := 0
  mss : Nat := 0
  actionIndex : Nat := 0
  actionKind : Nat := 0
  launchNs : Nat := 0
  launchSec : Nat := 0
  launchDomain : Nat := 0
  reserved : Bool := false
  deriving DecidableEq, Repr

/-- Format B (R141). -/
def txFieldsB (b : List Byte) : TxFields :=
  let w := leAt b 8 4
  let o := leAt b 12 4
  let l := leAt b 24 8
  { length := bits w 0 24
    sop := hasBit w 24
    eop := hasBit w 25
    tsReq := hasBit w 26
    launch := hasBit w 27
    opcode := bits o 0 4
    csum := bits o 4 4
    vlanInsert := hasBit o 8
    seg := hasBit o 9
    tci := leAt b 16 2
    mss := leAt b 18 2
    actionIndex := leAt b 20 3
    actionKind := byteAt b 23
    launchNs := bits l 0 30
    launchSec := bits l 30 16
    launchDomain := bit l 46
    reserved := bits w 28 4 != 0 || o / 1024 != 0 || l / 2 ^ 47 != 0 }

/-- Format A (R151): a descriptor begins a frame where none is open, and its offload bits stand for opcode 1. -/
def txFieldsA (first : Bool) (b : List Byte) : TxFields :=
  let w := leAt b 8 4
  let csum := bit w 18 + 2 * bit w 17
  let vlan := hasBit w 19
  { length := bits w 0 16
    sop := first
    eop := hasBit w 16
    tsReq := hasBit w 20
    opcode := if csum != 0 || vlan then 1 else 0
    csum := csum
    vlanInsert := vlan
    tci := leAt b 12 2
    reserved := w / 2 ^ 21 != 0 || leAt b 14 2 != 0 }

/-- The fields of a descriptor of ring `g`; `first` says that no frame is open. -/
def Ring.txFields (g : Ring) (first : Bool) (x : Desc) : TxFields :=
  if g.formatA then txFieldsA first x.bytes else txFieldsB x.bytes

/-- Is a transmit descriptor malformed (R142), where `n` descriptors of an open frame precede it? A Format A descriptor is held to the same
rules by its fields as `txFieldsA` reads them (DEDUCED, notes/assumptions/74.md). -/
def Ring.txBad (g : Ring) (n : Nat) (t : TxFields) : Bool :=
  2 < t.opcode || t.length < 1 || (if g.formatA then 65535 else 262144) < t.length || t.reserved ||
  (!t.sop && ((t.opcode != 0 && (t.opcode != 2 || n != 0)) || t.csum != 0 || t.actionKind != 0 || t.actionIndex != 0 || t.tsReq ||
    t.launch)) ||
  (t.sop && n != 0) || (!t.sop && n == 0 && t.opcode != 2) ||
  (t.sop && t.opcode == 0 && (t.csum != 0 || t.vlanInsert || t.seg || t.actionKind != 0)) ||
  (if g.formatA then 8 else 16) ≤ n || (t.launch && !g.launchBound)

/-! ## From descriptors to an item -/

/-- The fields that a frame takes from its sop descriptor. -/
def Ring.sopFields (g : Ring) (descs : List Desc) : TxFields :=
  match descs with
  | x :: _ => g.txFields true x
  | [] => { length := 0, sop := false, eop := false, tsReq := false, opcode := 0 }

/-- An item of ring `r` made of these descriptors. -/
def Dev.ringItem (d : Dev) (r : Nat) (g : Ring) (kind : Nat) (descs : List Desc) : Item :=
  let t := g.sopFields descs
  { kind := kind
    seq := (descs.head?.map Desc.seq).getD 0
    count := descs.length
    source := r
    fn := g.fn
    gen := g.gen
    descs := descs
    parse := { source := r, fromRing := true }
    verdict := { entry := if kind = 0 then d.rd R.PPL_TX_ENTRY_tx_entry 1 else (Config.workEntry r).toNat }
    actionIndex := if kind = 0 then t.actionIndex else 0
    actionKind := if kind = 0 then t.actionKind else 0
    restored := g.saved != 0
    since := (32 * d.ticks : Nat) }

/-- An item that no Set sees: it goes to the retire stage with its status. -/
def Dev.directItem (it : Item) (status : Nat) (d : Dev) : Dev :=
  (d.addItem { it with stage := .retiring, direct := true, status := status }).2

/-- Take the descriptor at the head of ring `r`, where it is of the command's kind: `want` is opcode 1, 2, or 0 for any other. -/
def Dev.takeDescriptor (r want : Nat) (d : Dev) : Dev :=
  match d.ring? r with
  | none => d
  | some g =>
    match g.accepted with
    | [] => d
    | x :: rest =>
      let t := g.txFields g.frame.isEmpty x
      let kind := if t.opcode = 1 ∨ t.opcode = 2 then t.opcode else 0
      if g.kind ≠ 0 ∨ kind ≠ want then d
      else
        let frame := g.frame ++ [x]
        let bad := g.txBad g.frame.length t
        let d := d.onRing r (fun g => { g with
          accepted := rest
          saved := g.saved - 1
          frame := if bad || t.eop || t.opcode == 2 then [] else frame })
        let it := d.ringItem r g 0 frame
        if bad then d.directItem it 1
        else if t.opcode = 2 then d.directItem it 0
        else if t.eop then (d.addItem it).2
        else d

/-! ## Dispatch (R157, R186-R188) -/

/-- The Figure that an item goes to now. -/
def Dev.figureOf (d : Dev) (it : Item) : Option Nat :=
  d.redirect (if it.kind = 1 then d.rxFigure it.source it.parse.hash
    else match it.nvme with
      | some (fn, _) => d.txFigure fn
      | none => d.txFigure it.source)

/-- Items of one direction that wait for a Figure, in the order of their queue: those dispatched before, that a replay or a service
reset sent back, come first, by dispatch order (R165, R169). -/
def Dev.queueOf (d : Dev) (figure : Nat) (ingress : Bool) : List Nat :=
  let l := (d.items.filter (fun _ it => it.stage == .queued && (it.kind == 1) == ingress && d.figureOf it == some figure)).entries
  let old := (l.filter (fun e => e.2.order != 0)).mergeSort (fun a b => a.2.order ≤ b.2.order)
  let mid := l.filter (fun e => e.2.restored && e.2.order == 0)
  (old ++ mid ++ l.filter (fun e => !e.2.restored && e.2.order == 0)).map Prod.fst

/-- Does work that a service reset saved still lie before a Figure's egress queue, its descriptors not taken up again (R169)? -/
def Dev.savedFor (d : Dev) (figure : Nat) : Bool :=
  d.rings.entries.any (fun e => e.2.saved != 0 && d.redirect (d.txFigure e.1) == some figure) ||
  d.nvmes.entries.any (fun e => e.2.sqs.vals.any (fun q => q.saved != 0) && d.redirect (d.txFigure e.1) == some figure)

/-- The least occupied of some positions, the lowest on a tie. -/
def Dev.leastOccupied (d : Dev) (ps : List Nat) : Option Nat :=
  ps.foldl (fun best p => match best with
    | none => some p
    | some q => if d.occupancy p < d.occupancy q then some p else best) none

/-- The position that dispatch takes inside a Figure (R187); none where every table is full. -/
def Dev.pickPosition (d : Dev) (figure : Nat) (it : Item) : Option Nat :=
  let ps := d.figurePositions figure
  let least := d.leastOccupied ps
  let chosen := if d.on R.PPL_DISPATCH_set_select (if it.kind = 1 then 0 else 1) then
      let h := if it.kind = 1 then it.parse.hash / 256 % 256 else it.source
      match (ps.drop (h % max 1 ps.length)).head? with
      | some p => if d.occupancy p < 512 then some p else least
      | none => least
    else least
  chosen.filter (fun p => d.occupancy p < 512)

/-- Open a Ledger entry at position `p` and deliver the item; a kept dispatch order stays (R165, R169). -/
def Dev.deliverItem (i p : Nat) (d : Dev) : Dev :=
  let d := { d with dispatched := d.dispatched + 1 }
  let d := d.onItem i (fun it => { it with
    stage := .delivered
    position := p
    figure := p / 8
    order := if it.order = 0 then d.dispatched else it.order })
  d.onSite p (fun s => { s with input := s.input ++ [i] })

/-- ITEM_DISPATCH: the item must be the first of its Figure's queue; what a service reset saved goes ahead of new work (R169). -/
def Dev.dispatchItem (i : Nat) (d : Dev) : Dev :=
  match d.item? i with
  | none => d
  | some it =>
    match d.figureOf it with
    | none => d
    | some f =>
      if it.stage ≠ .queued ∨ (d.queueOf f (it.kind == 1)).head? ≠ some i then d
      else if it.kind != 1 && it.order == 0 && !it.restored && d.savedFor f then d
      else
        match d.pickPosition f it with
        | some p => d.deliverItem i p
        | none => d

/-! ## Commands -/

/-- TX_DESCRIPTOR_PLAIN: the accepted descriptor at the head of the ring has opcode 0, or a reserved one (R142). -/
def execTxDescriptorPlain (ring : Nat) (s : State) : Out := s.onRun (Dev.takeDescriptor ring 0)

/-- TX_DESCRIPTOR_OFFLOAD: it has opcode 1. -/
def execTxDescriptorOffload (ring : Nat) (s : State) : Out := s.onRun (Dev.takeDescriptor ring 1)

/-- TX_DESCRIPTOR_NOOP: it has opcode 2. -/
def execTxDescriptorNoop (ring : Nat) (s : State) : Out := s.onRun (Dev.takeDescriptor ring 2)

/-- ITEM_DISPATCH. -/
def execItemDispatch (item : Nat) (s : State) : Out := s.onRun (Dev.dispatchItem item)

end Sys2Proof.Machine
end

