-- ==== Sys2Proof/Machine/Gather.lean ====
section
/-!
DEFINITION. Where a work item's bytes lie in host memory: memory regions and RoCE descriptors (R296, R297), and the PRPs and SGLs
of an NVMe command. The spec names NVM Express for these and gives no layout; the places are those of NVM Express (PRESUMED,
notes/assumptions/24.md).
-/

namespace Sys2Proof.Machine

/-! ## Memory regions (R296); fields of a type 9 context by number: base, length, access bits, key, pasid word, ats -/

/-- The region that a key names. -/
def keyRegion (key : Nat) : Nat := key / 256 % 2 ^ 24

/-- May a QP owned by `owner` reach `n` bytes at offset `off` of the region of `key`; `need` is an access bit, if one is needed. -/
def Dev.regionOk (d : Dev) (key owner off n : Nat) (need : Option Nat) : Bool :=
  let c := keyRegion key
  d.ctxType c == 9 && !d.ctxBad c && d.ctxField c 3 % 256 == key % 256 && d.ctxOwner c == owner &&
  off + n ≤ d.ctxField c 1 && (need.map (fun b => hasBit (d.ctxField c 2) b)).getD true

/-- The host address of an offset in a region. -/
def Dev.regionAddr (d : Dev) (key off : Nat) : Nat := (d.ctxField (keyRegion key) 0 + off) % 2 ^ 64

/-- What payload requests to a region ask for: its owner's pasid and ats settings (R296), and Relaxed Ordering, No Snoop and steering tag
as the work ring `r` has them (R120). -/
def Dev.regionAttr (d : Dev) (r key : Nat) : Attr :=
  let p := d.ctxField (keyRegion key) 4
  { (((d.ring? r).map Ring.writeAttr).getD {}) with
    ats := d.ctxField (keyRegion key) 5 != 0, pasid := if hasBit p 20 then some (p % 2 ^ 20) else none }

/-! ## RoCE work descriptors (R297) -/

/-- The fields of a RoCE work descriptor. -/
structure WorkFields where
  offset : Nat
  qpn : Nat
  length : Nat
  opcode : Nat
  fence : Bool
  solicited : Bool
  lkey : Nat
  rkey : Nat
  imm : Nat
  remote : Nat
  reserved : Bool
  deriving DecidableEq, Repr

/-- Read a RoCE work descriptor. -/
def workFields (b : List Byte) : WorkFields :=
  let w := leAt b 8 4
  { offset := leAt b 0 5
    qpn := leAt b 5 3
    length := bits w 0 24
    opcode := bits w 24 4
    fence := hasBit w 28
    solicited := hasBit w 29
    lkey := leAt b 12 4
    rkey := leAt b 16 4
    imm := leAt b 20 4
    remote := leAt b 24 8
    reserved := bits w 30 2 != 0 }

/-- The request that a work item carries. -/
def Item.work (it : Item) : WorkFields := workFields ((it.descs.head?.map Desc.bytes).getD [])

/-- Is a send descriptor well formed for a function (R142, R297)? -/
def Dev.sendOk (d : Dev) (fn : Nat) (w : WorkFields) : Bool :=
  !w.reserved && w.opcode ≤ 4 && d.ctxType w.qpn == 8 && d.ctxOwner w.qpn == fn && d.qpState w.qpn == 3 && !d.ctxBad w.qpn &&
  d.regionOk w.lkey fn w.offset w.length (if w.opcode = 4 then some 0 else none)

/-! ## NVMe commands -/

/-- The fields of a submission entry. -/
structure NvmeFields where
  opcode : Nat
  psdt : Nat
  cid : Nat
  nsid : Nat
  mptr : Nat
  prp1 : Nat
  prp2 : Nat
  sgl : List Byte
  cdw10 : Nat
  cdw11 : Nat
  cdw12 : Nat
  cdw14 : Nat
  cdw15 : Nat
  deriving DecidableEq, Repr

/-- Read a submission entry. -/
def nvmeFields (b : List Byte) : NvmeFields :=
  { opcode := byteAt b 0
    psdt := byteAt b 1 / 64
    cid := leAt b 2 2
    nsid := leAt b 4 4
    mptr := leAt b 16 8
    prp1 := leAt b 24 8
    prp2 := leAt b 32 8
    sgl := sliceBytes b 24 16
    cdw10 := leAt b 40 4
    cdw11 := leAt b 44 4
    cdw12 := leAt b 48 4
    cdw14 := leAt b 56 4
    cdw15 := leAt b 60 4 }

/-- Starting block, blocks, and PRACT of a read or write. -/
def NvmeFields.slba (x : NvmeFields) : Nat := x.cdw10 + 2 ^ 32 * x.cdw11
def NvmeFields.blocks (x : NvmeFields) : Nat := x.cdw12 % 65536 + 1
def NvmeFields.pract (x : NvmeFields) : Bool := hasBit x.cdw12 29

/-- The namespace context of a controller: fields of a type 11 context by number are the connection or QP, the remote namespace
ID, the transport (1: RoCE), block size, PI format, PI type, PI location (1: separate), whether to reconnect, capacity and the
local namespace ID. -/
def Dev.namespaceOf (d : Dev) (fn nsid : Nat) : Option Nat :=
  d.ctxs.find? (fun c _ => d.ctxType c == 11 && d.ctxOwner c == fn && d.ctxField c 9 == nsid && !d.ctxBad c)

/-- Bytes of a block, and of its protection information (R305). -/
def Dev.lbaSize (d : Dev) (ns : Nat) : Nat := if d.ctxField ns 3 = 4096 then 4096 else 512
def Dev.piSize (d : Dev) (ns : Nat) : Nat := if d.ctxField ns 4 = 1 then 8 else if d.ctxField ns 4 = 2 then 16 else 0

/-- Is the protection information in a buffer of its own? -/
def Dev.piApart (d : Dev) (ns : Nat) : Bool := d.ctxField ns 6 == 1

/-- Bytes of a block in the host's data buffer. -/
def Dev.hostBlock (d : Dev) (ns : Nat) (pract : Bool) : Nat :=
  d.lbaSize ns + (if pract || d.piApart ns then 0 else d.piSize ns)

/-- How far a walk over PRPs or SGLs has come: segments (address, length), or the list that must be read first. -/
inductive Walk where
  | needs (addr len : Nat)
  | done (segs : List (Nat × Nat))
  | bad
  deriving DecidableEq, Repr

/-- Segments of the entries of a PRP list; `rest` bytes remain. -/
def prpEntries (page : Nat) : List Nat → Nat → List (Nat × Nat)
  | [], _ => []
  | a :: l, rest => if rest = 0 then [] else (a, min page rest) :: prpEntries page l (rest - page)

/-- The walk over PRP lists: `lists` holds the lists read so far, by address. -/
def prpWalk (page : Nat) (lists : NMap (List Byte)) : Nat → Nat → Nat → List (Nat × Nat) → Walk
  | 0, _, _, _ => .bad
  | fuel + 1, at_, rest, segs =>
    let room := (page - at_ % page) / 8
    let need := (rest + page - 1) / page
    match lists.get? at_ with
    | none => .needs at_ (8 * min need room)
    | some b =>
      let l := (List.range (min need room)).map (fun k => leAt b (8 * k) 8)
      if need ≤ room then .done (segs ++ prpEntries page l rest)
      else
        let used := prpEntries page l.dropLast rest
        prpWalk page lists fuel (l.getLastD 0) (rest - page * (l.length - 1)) (segs ++ used)

/-- The walk over SGL segments. -/
def sglWalk (lists : NMap (List Byte)) : Nat → List Byte → Nat → List (Nat × Nat) → Walk
  | 0, _, _, _ => .bad
  | fuel + 1, b, rest, segs =>
    let n := b.length / 16
    let each := (List.range n).map (fun k => (leAt b (16 * k) 8, leAt b (16 * k + 8) 4, byteAt b (16 * k + 15) / 16))
    let data := each.takeWhile (fun e => e.2.2 == 0)
    let segs := segs ++ data.map (fun e => (e.1, e.2.1))
    let got := (data.map (fun e => e.2.1)).sum
    if rest ≤ got then .done segs
    else
      match each.drop data.length with
      | (at_, len, kind) :: _ =>
        if kind = 2 ∨ kind = 3 then
          match lists.get? at_ with
          | none => .needs at_ len
          | some l => sglWalk lists fuel l (rest - got) segs
        else .bad
      | [] => .bad

/-- The segments of an NVMe command's data buffer of `n` bytes. -/
def nvmeWalk (x : NvmeFields) (page n : Nat) (lists : NMap (List Byte)) : Walk :=
  if n = 0 then .done []
  else if x.psdt = 0 then
    let first := min n (page - x.prp1 % page)
    if n = first then .done [(x.prp1, n)]
    else if n - first ≤ page then .done [(x.prp1, first), (x.prp2, n - first)]
    else prpWalk page lists (n + 1) x.prp2 (n - first) [(x.prp1, first)]
  else sglWalk lists (n + 1) x.sgl n []

/-- Take `n` bytes from offset `off` of a run of segments. -/
def segSlice : List (Nat × Nat) → Nat → Nat → List (Nat × Nat)
  | [], _, _ => []
  | (a, len) :: l, off, n =>
    if n = 0 then []
    else if len ≤ off then segSlice l (off - len) n
    else (a + off, min n (len - off)) :: segSlice l 0 (n - min n (len - off))

/-- Page size of a controller (CC.MPS). -/
def Nvme.page (x : Nvme) : Nat := 4096 * 2 ^ (min 4 (bits x.cc 7 4))

/-- Bytes of a command's data buffer. -/
def Dev.nvmeHostBytes (d : Dev) (fn : Nat) (x : NvmeFields) : Nat :=
  match d.namespaceOf fn x.nsid with
  | some ns => if x.opcode = 1 ∨ x.opcode = 2 then x.blocks * d.hostBlock ns x.pract else if x.opcode = 9 then 16 * (x.cdw10 % 256 + 1) else 0
  | none => 0

end Sys2Proof.Machine
end

