-- ==== Sys2Proof/Machine/Sets.lean ====
section
/-!
DEFINITION. Microcode (R239-R268): passes, next-address operations, the datapath classes that stay inside the Set, channels,
flags, commits, waits that expire, standstill, the debugger and the control-store port.
-/

namespace Sys2Proof.Machine

/-! ## Issuing a microword -/

/-- The SET_WAIT_LIMIT register that limit_sel names (R252). -/
def waitLimit (n : Nat) : Field :=
  match n with
  | 0 => R.SET_WAIT_LIMIT_0_limit
  | 1 => R.SET_WAIT_LIMIT_1_limit
  | 2 => R.SET_WAIT_LIMIT_2_limit
  | _ => R.SET_WAIT_LIMIT_3_limit

/-- Is the microword legal for a thread of the position (R245-R251): in itself, and no delay whose limit is 0? -/
def Dev.legalAt (d : Dev) (p : Nat) (w : Microword) : Bool :=
  mwLegal w && !(mwNext w == 7 && mwCond w == 0 && d.rd (waitLimit (mwLimitSel w)) p == 0)

/-- A thread issues the microword at its pc: its engine's token goes to it, and an illegal one is a fault with code 4 (R259). A command
for a thread that the Caller does not name issues nothing (R243). `none`: nothing more is issued. -/
def Dev.issueWord (p t : Nat) (w : Microword) (d : Dev) : Bool × Dev :=
  if !(d.thread p t).mayIssue || !d.named p t then (false, d)
  else
    let d := d.takeToken p t
    if d.legalAt p w then (true, d.countIssued p) else (false, (d.threadFault p t 4).settle p)

/-- The next-address part of the microword at pc, where it is of the operation `op`; a datapath part has issued before it (R248). -/
def Dev.nextOp (p t op : Nat) (f : Microword → Thread → Dev → Dev) (d : Dev) : Dev :=
  let w := d.word p t
  if (d.thread p t).issuedData then (if mwNext w = op then (f w (d.thread p t) d).settle p else d)
  else if mwLegal w && (mwNext w != op || mwClass w != 0) then d
  else
    let r := d.issueWord p t w
    if r.1 then (f w (r.2.thread p t) r.2).settle p else r.2

/-- The datapath part of the microword at pc, where it is of this class and function and has not issued yet. -/
def Dev.dataOp (p t cls fn : Nat) (f : Microword → Thread → Dev → Dev) (d : Dev) : Dev :=
  let w := d.word p t
  if (d.thread p t).issuedData then d
  else if mwLegal w && (mwClass w != cls || mwFunc w != fn) then d
  else
    let r := d.issueWord p t w
    if r.1 then (f w (r.2.thread p t) (r.2.onThread p t (fun th => { th with issuedData := true }))).settle p else r.2

/-- Go on at an address. A microword that makes 1,024 without a yield point is a fault with code 5 (R258); at a yield point the thread
takes what the debugger requested (R257). -/
def Dev.goTo (p t pc : Nat) (w : Microword) (d : Dev) : Dev :=
  if !mwYield w && 1023 ≤ (d.thread p t).sinceYield then d.threadFault p t 5
  else
    let d := d.onThread p t (fun th => { th with
      pc := pc % 16384
      issuedData := false
      sinceYield := if mwYield w then 0 else th.sinceYield + 1 })
    if mwYield w then d.takeEvent p t else d

/-- Call: push pc + 1, or fault with code 2 at depth 8 (R249). -/
def Dev.callTo (p t : Nat) (w : Microword) (th : Thread) (d : Dev) : Dev :=
  if 8 ≤ th.stack.length then d.threadFault p t 2
  else (d.onThread p t (fun th => { th with stack := (th.pc + 1) % 16384 :: th.stack })).goTo p t (mwTarget w) w

/-- Return: pop, or fault with code 3 at depth 0 (R249). -/
def Dev.returnTo (p t : Nat) (w : Microword) (th : Thread) (d : Dev) : Dev :=
  match th.stack with
  | [] => d.threadFault p t 3
  | a :: rest => (d.onThread p t (fun th => { th with stack := rest })).goTo p t a w

/-- Write a thread's register. -/
def Dev.setReg (p t n : Nat) (v : Word64) (d : Dev) : Dev := d.onThread p t (fun th => th.setReg n v)

/-! ## Local SRAM (R250 class 3, R396) -/

/-- Byte `a` of the position's local SRAM. -/
def SetSite.byte (s : SetSite) (a : Nat) : Byte := s.sram.getD a 0

/-- Write a byte; a zero byte is not listed. -/
def SetSite.putByte (s : SetSite) (a : Nat) (b : Byte) : SetSite :=
  { s with sram := if b = 0 then s.sram.erase a else s.sram.set a b }

/-- Eight bytes from `a` on, little-endian. -/
def SetSite.load8 (s : SetSite) (a : Nat) : Word64 :=
  BitVec.ofNat 64 (leAt ((List.range 8).map (fun k => s.byte (a + k))) 0 8)

/-- Store eight bytes. -/
def SetSite.store8 (s : SetSite) (a : Nat) (v : Word64) : SetSite :=
  ((List.range 8).zip (leBytes v.toNat 8)).foldl (fun s p => s.putByte (a + p.1) p.2) s

/-- Does the address lie in the mapped channel blocks above the 1,792 KiB? -/
def inBlocks (a : Nat) : Bool := 0x1C0000 ≤ a

/-- Load 8 bytes for a Set: from SRAM, or two 32-bit reads of a mapped channel block (R396). -/
def Dev.load8 (p a : Nat) (d : Dev) : Word64 × Dev :=
  if inBlocks a then
    match d.setChannel (midSet p) ((a - 0x1C0000) / 256) with
    | some c =>
      let lo := d.mbxRead (midSet p) c (a % 256 / 4 * 4)
      let hi := lo.2.mbxRead (midSet p) c ((a + 4) % 256 / 4 * 4)
      (BitVec.ofNat 64 (lo.1 + 2 ^ 32 * hi.1), hi.2)
    | none => (0, d)
  else ((d.siteAt p).load8 a, d)

/-- Store 8 bytes for a Set. -/
def Dev.store8 (p a : Nat) (v : Word64) (d : Dev) : Dev :=
  if inBlocks a then
    match d.setChannel (midSet p) ((a - 0x1C0000) / 256) with
    | some c =>
      (d.mbxWrite (midSet p) c (a % 256 / 4 * 4) (v.toNat % 2 ^ 32)).mbxWrite (midSet p) c ((a + 4) % 256 / 4 * 4) (v.toNat / 2 ^ 32)
    | none => d
  else d.onSite p (fun s => s.store8 a v)

/-! ## Passes (R240) -/

/-- Does position `p` run passes: in service, or in the grace of a sit-out (R106), its site's domain on? -/
def Dev.setRuns (d : Dev) (p : Nat) : Bool :=
  p < 32 && d.hasSet p && ((d.setAt p).phase == .inService || (d.setAt p).phase == .grace) && d.domainOn (d.setAt p).site

/-- A thread begins a pass on the oldest item of the input queue. -/
def Dev.startPass (p t : Nat) (d : Dev) : Dev :=
  let th := d.thread p t
  match (d.siteAt p).input with
  | i :: rest =>
    if th.state = .idle ∧ t < 128 ∧ d.setRuns p = true then
      let entry := match d.item? i with
        | some it => it.verdict.entry
        | none => 0
      let d := d.onSite p (fun s => { s with input := rest })
      let d := d.makeReady p t (fun th => { state := .ready, item := some i, pc := entry % 16384, delivering := th.delivering })
      d.onItem i (fun it => { it with stage := .running })
    else d
  | [] => d

/-- END: the item goes to the retire stage and the thread becomes idle; holding a channel is a fault with code 10 (R255). END is a
yield point: a stop leaves the thread stopped without an item, and a kill is a fault that has no item left to fail
(notes/assumptions/68.md). -/
def Dev.endPass (p t : Nat) (_w : Microword) (th : Thread) (d : Dev) : Dev :=
  if th.sendChan.isSome ∨ th.readChan.isSome then d.threadFault p t 10
  else
    let d := d.wr64 R.SET_PASSES_LO_passes R.SET_PASSES_HI_passes
      ((d.rd64 R.SET_PASSES_LO_passes R.SET_PASSES_HI_passes p + 1) % 2 ^ 64) p
    let d := match th.item with
      | some i => (d.holdTemplate i).onItem i (fun it => { it with stage := .retiring })
      | none => d
    let d := d.onThread p t (fun th => { th.toIdle with
      pc := if th.kill then th.pc else 0
      kill := th.kill
      state := if th.state = .stopPending then .stopPending else .idle })
    d.takeEvent p t

/-- WAIT (R251-R253). -/
def Dev.beginWait (p t : Nat) (w : Microword) (_th : Thread) (d : Dev) : Dev :=
  if !mwYield w && 1023 ≤ (d.thread p t).sinceYield then d.threadFault p t 5
  else
    let n := (d.siteAt p).waits
    let limit := d.rd (waitLimit (mwLimitSel w)) p
    let d := d.onSite p (fun s => { s with waits := s.waits + 1 })
    let d := d.onThread p t (fun th => { th with
      state := if th.state = .ready then .waiting else th.state
      timedOut := false
      broken := false
      sinceYield := if mwYield w then 0 else th.sinceYield + 1
      wait := some { cond := mwCond w, invert := mwInvert w, channel := mwChannel w, limit := limit, began := n, yield := mwYield w } })
    let d := d.settleThread p t
    if mwYield w ∧ (d.thread p t).wait.isSome then d.takeEvent p t else d

/-! ## Meanings: next-address operations -/

def execThreadStartPass (position thread : Nat) (s : State) : Out := s.onRun (Dev.startPass position thread)

/-! ## Meanings: ALU and shifts -/

/-- A flag bit that the spec leaves open. -/
def Dev.flagOr (o : Option Bool) (d : Dev) : Bool × Dev :=
  match o with
  | some b => (b, d)
  | none => (hasBit d.free.1 0, d.free.2)

/-- A class 1 function: result into dst except for compare, flags from the result. -/
def Dev.alu (p t f : Nat) (w : Microword) (th : Thread) (d : Dev) : Dev :=
  let r := aluResult f (opA w th) (opB w th) th.carry
  let c := d.flagOr r.2.1
  let v := c.2.flagOr r.2.2
  v.2.onThread p t (fun th => (if f = 5 then th else th.setReg (mwDst w) r.1).setFlags r.1 c.1 v.1)

/-- A class 2 function. -/
def Dev.shift (p t f : Nat) (w : Microword) (th : Thread) (d : Dev) : Dev :=
  match shiftResult f (opA w th) (opB w th) (mwOffset w) (mwWidth w) with
  | some r => d.setReg p t (mwDst w) r
  | none => d.free.2.setReg p t (mwDst w) (BitVec.ofNat 64 d.free.1)

/-! ## Meanings: local SRAM and mapped channel blocks -/

/-! ## Meanings: head, edits, Ledger fields -/

/-- Eight bytes of a list as a register value. -/
def word8 (l : List Byte) (a : Nat) : Word64 := BitVec.ofNat 64 (leAt l a 8)

/-- The thread's item. -/
def Dev.threadItem (d : Dev) (th : Thread) : Item := ((th.item.bind d.item?)).getD {}

/-- The 64-byte Ledger entry of item `i` (R158). -/
def Dev.ledgerBytes (d : Dev) (i : Nat) (it : Item) : List Byte :=
  let known := d.destKnown it
  leBytes (it.seq % 2 ^ 48 + 2 ^ 48 * (it.kind % 16) + 2 ^ 52 * (it.position % 64) + 2 ^ 58 * (it.replays % 4) +
    2 ^ 60 * (!it.edits.isEmpty).toNat) 8 ++
  leBytes (it.source % 2 ^ 22 + 2 ^ 22 * known.toNat) 4 ++
  leBytes (if known then (d.itemRing it).getD 0 else 0) 4 ++
  leBytes (it.fn % 2 ^ 14 + 2 ^ 14 * (it.gen % 65536)) 4 ++
  leBytes (Config.handle i 0).toNat 4 ++
  leBytes (if it.edits.isEmpty then 0 else (Config.handle i 1).toNat) 4 ++
  leBytes (if it.kind = 1 then 0 else (Config.handle i 2).toNat) 4 ++
  leBytes it.order 8 ++
  leBytes (it.actionIndex % 2 ^ 24 + 2 ^ 24 * it.actionKind) 4 ++ leBytes 0 20

/-- Append an edit to the item's edit area (R159); a template that it names is read (R204). -/
def Dev.addEdit (th : Thread) (e : Edit) (d : Dev) : Dev :=
  match th.item with
  | some i =>
    let d := d.onItem i (fun it => { it with edits := it.edits ++ [e] })
    (match e with
    | .encap n => d.readTemplate i n
    | _ => d)
  | none => d

/-- A pending assist request of a kind, with its answer (R250). -/
def Dev.request (p t kind dst : Nat) (answer : Word64) (writes : Bool) (d : Dev) : Dev :=
  d.onThread p t (fun th => { th with assists := th.assists ++ [{ kind := kind, dst := dst, answer := answer, writes := writes }] })

/-! ## Meanings: channels -/

/-- The words of a message with their tags (R254). -/
def messageWords (m : Nat) (l : List Word64) : List ChanWord :=
  l.zipIdx.map (fun p => { msg := m, word := p.1, last := p.2 + 1 == l.length })

/-- Staged words of a closed message move into the FIFO as room appears (R254). -/
def execChannelWordDelivery (position channel : Nat) (s : State) : Out := s.onRun (Dev.deliver position channel)

/-! ## Meanings: flags and retire commits -/

/-- Set or clear uf0-uf7 or sf0-sf15 by extension [4:0] (R250 class 7); 8-15 name no flag. -/
def Dev.putFlag (p t : Nat) (up : Bool) (w : Microword) (_th : Thread) (d : Dev) : Dev :=
  let n := bits (mwExt w) 0 5
  let f := if up then setBit else clearBit
  if n < 8 then d.onThread p t (fun th => { th with uf := f th.uf n })
  else if 16 ≤ n then d.onSite p (fun s => { s with flags := f s.flags (n - 16) })
  else d

/-- A retire commit joins those of the item, at most 8; a ninth is a thread fault with code 7 (R160, R259). -/
def Dev.commit (p t : Nat) (c : Commit) (_w : Microword) (th : Thread) (d : Dev) : Dev :=
  match th.item with
  | none => d
  | some i =>
    if 8 ≤ (d.threadItem th).commits.length then d.threadFault p t 7
    else (d.onItem i (fun it => { it with commits := it.commits ++ [c] })).request p t 13 0 0 false

/-! ## Meanings: answers, limits, standstill -/

/-- Take the oldest pending request of a kind out of a list. -/
def takeAssist (kind : Nat) : List Assist → Option (Assist × List Assist)
  | [] => none
  | a :: l => if a.kind = kind then some (a, l) else (takeAssist kind l).map (fun r => (r.1, a :: r.2))

/-- An outside unit answers the oldest request of a kind (R250); a payload read is answered when the payload has come. -/
def execAssistAnswer (position thread kind : Nat) (s : State) : Out :=
  s.onRun (fun d =>
    match (if kind = 0 then none else takeAssist kind (d.thread position thread).assists) with
    | none => d
    | some (a, rest) =>
      (d.onThread position thread (fun t => { (if a.writes then t.setReg a.dst a.answer else t) with assists := rest })).settle position)

/-- A wait's limit expires (R251, R252): the condition wins where both come together. -/
def execWaitLimitExpiry (position thread : Nat) (s : State) : Out :=
  s.onRun (fun d =>
    let th := d.thread position thread
    match th.wait with
    | some w =>
      if w.limit = 0 ∨ th.state = .stopped then d
      else if d.waitDone position th w then (d.endWait position thread false false).settle position
      else ((d.bump R.SET_WAIT_TIMEOUTS_count position).endWait position thread true false).settle position
    | none => d)

/-- Is the Set at a standstill (R261)? -/
def Dev.atStandstill (d : Dev) (p : Nat) : Bool :=
  let ts := (d.siteAt p).threads.vals.filter (fun t => t.state != .idle)
  ts.any (fun t => t.item.isSome) && (d.siteAt p).input.isEmpty &&
  ts.all (fun t => t.state == .waiting && t.assists.isEmpty && (match t.wait with
    | some w => condI w.cond
    | none => false))

/-- The standstill of R261 breaks the class I wait that began earliest. -/
def execStandstill (position : Nat) (s : State) : Out :=
  s.onRun (fun d =>
    if d.atStandstill position then
      match d.waiters position with
      | t :: _ =>
        let cond := ((d.thread position t).wait.map Wait.cond).getD 0
        let d := (d.bump R.SET_STANDSTILLS_count position).cause setCauses 4 position
        let d := (d.wr R.SET_LAST_STANDSTILL_thread t position).wr R.SET_LAST_STANDSTILL_cond cond position
        (d.endWait position t false true).settle position
      | [] => d
    else d)

/-! ## Meanings: the debugger (R262) -/

/-- Stop: taken at the next yield point; a WAIT with Y set is frozen at once. -/
def Dev.dbgStop (p t : Nat) (d : Dev) : Dev :=
  let th := d.thread p t
  if th.state = .ready then d.onThread p t (fun th => { th with state := .stopPending })
  else if th.state = .waiting then
    let d := d.onThread p t (fun th => { th with state := .stopPending })
    if (th.wait.map Wait.yield).getD false then d.takeEvent p t else d
  else d

/-- Resume from the frozen point. -/
def Dev.dbgResume (p t : Nat) (d : Dev) : Dev :=
  let th := d.thread p t
  if th.state = .stopped ∨ th.state = .stopPending then
    (d.makeReady p t (fun th => { th with
      state := if th.item.isNone then .idle else if th.wait.isSome then .waiting else .ready })).settle p
  else d

def execDbgStop (position thread : Nat) (s : State) : Out := s.onRun (Dev.dbgStop position thread)
def execDbgResume (position thread : Nat) (s : State) : Out := s.onRun (Dev.dbgResume position thread)

/-- Step: as resume, then stop again at the next yield point. -/
def Dev.dbgStepOp (p t : Nat) (d : Dev) : Dev :=
  if (d.thread p t).state = .stopped then
    (d.dbgResume p t).onThread p t (fun th => if th.state = .idle then th else { th with state := .stopPending })
  else d

/-- Kill: thread fault 8 at the next yield point, at once if stopped or waiting at a yield point. -/
def Dev.dbgKillOp (p t : Nat) (d : Dev) : Dev :=
  let th := d.thread p t
  if th.state = .idle then d
  else if th.state = .stopped ∨ (th.wait.map Wait.yield).getD false then (d.threadFault p t 8).settle p
  else d.onThread p t (fun th => { th with kill := true })

def execDbgStep (position thread : Nat) (s : State) : Out := s.onRun (Dev.dbgStepOp position thread)
def execDbgKill (position thread : Nat) (s : State) : Out := s.onRun (Dev.dbgKillOp position thread)

/-! ## Meanings: the control-store port (R265) -/

/-- Is the position's site not in service, so that its store accepts writes (cs_writable)? A reserve position's never is in service
(R41), and one under its rejoin test is not yet. -/
def Dev.csWritable (d : Dev) (p : Nat) : Bool := d.hasSet p && (32 ≤ p || (d.setAt p).phase == .out || (d.setAt p).phase == .testing)

/-- The microword that SET_CS_DATA0-3 hold. -/
def Dev.csData (d : Dev) (p : Nat) : Microword :=
  BitVec.ofNat 128 ((List.range 4).foldr (fun n acc => d.rd R.SET_CS_DATA_data p (4 * n) + 2 ^ 32 * acc) 0)

/-- SET_CS_ADDR steps on, modulo 16,384. -/
def Dev.csStep (p : Nat) (d : Dev) : Dev := d.wr R.SET_CS_ADDR_addr ((d.rd R.SET_CS_ADDR_addr p + 1) % 16384) p

/-- SET_CS_CMD read. -/
def Dev.csRead (p : Nat) (d : Dev) : Dev :=
  let w := ((d.siteAt p).store.getD (d.rd R.SET_CS_ADDR_addr p) 0).toNat
  (Dev.each (List.range 4) (fun n d => d.wr R.SET_CS_DATA_data (bits w (32 * n) 32) p (4 * n)) d).csStep p

/-- Store a microword; a zero word is not listed. -/
def SetSite.putWord (s : SetSite) (a : Nat) (w : Microword) : SetSite :=
  { s with store := if w = 0 then s.store.erase a else s.store.set a w }

/-- SET_CS_CMD write by a control core while the site is out of service: a word whose check fails is not stored. -/
def Dev.csWrite (p : Nat) (d : Dev) : Dev :=
  if !d.csWritable p then d
  else
    let w := d.csData p
    let d := if checkOk w then d.onSite p (fun s => s.putWord (d.rd R.SET_CS_ADDR_addr p) w) else d.cause setCauses 7 p
    d.csStep p

def execCsRead (position : Nat) (s : State) : Out := s.onRun (Dev.csRead position)
def execCsWrite (position : Nat) (s : State) : Out := s.onRun (Dev.csWrite position)

end Sys2Proof.Machine
end

