-- ==== Sys2Proof/Machine/Assists.lean ====
section
/-!
DEFINITION. The assists that reach outside the Set (R189, R250): payload read, parse, classify, lookup, checksum, hash, set
destination, learn offer, the DMA assist's request line, and reads of the parse record.
-/

namespace Sys2Proof.Machine

/-! ## Payload reads (R159, R189) -/

/-- Requests that a read is cut into. -/
def Dev.requestCount (d : Dev) (fn addr len : Nat) : Nat := (cutRequests addr len (d.fn fn).maxRead len 0).length

/-- Read segments (address, length) one after the other for item `i`, the pieces keyed from `base` on. -/
def Dev.readSegments (i fn : Nat) (a : Attr) : List (Nat × Nat) → Nat → Dev → Dev
  | [], _, d => d
  | (addr, len) :: l, base, d =>
    let d := d.onItem i (fun it => { it with want := it.want + d.requestCount fn addr len })
    Dev.readSegments i fn a l (base + len) (d.hostRead fn addr len a (fun off _ => .payload i (base + off)))

/-- Pieces of lists (PRP lists, SGL segments) are keyed from here on, by list address. -/
def listBase : Nat := 2 ^ 80

/-- The lists that item `i` has read, each whole. -/
def Item.lists (it : Item) : NMap (List Byte) :=
  (it.pieces.entries.filter (fun p => listBase ≤ p.1)).foldl (fun m p =>
    m.upd ((p.1 - listBase) / 65536) [] (fun b => b ++ p.2)) {}

/-- The controller's attributes for its function's payload. No rule gives an NVMe queue the settings that a ring has: they are clear
(DESIGN CHOICE, notes/assumptions/73.md). -/
def nvmeAttr : Attr := {}

/-- The segments of a work or transmit item's payload, where they are known; `needs` names a list to read first. -/
def Dev.payloadWalk (d : Dev) (it : Item) : Walk :=
  match it.nvme with
  | some (fn, _) =>
    let x := nvmeFields ((it.descs.head?.map Desc.bytes).getD [])
    nvmeWalk x (d.nvmes.getD fn {}).page (d.nvmeHostBytes fn x) it.lists
  | none =>
    if it.kind = 2 then
      let w := it.work
      if d.sendOk it.fn w && w.opcode ≤ 3 && w.length != 0 then .done [(d.regionAddr w.lkey w.offset, w.length)] else .done []
    else
      match d.ring? it.source with
      | some g => .done ((it.descs.zipIdx).map (fun p => (p.1.addr, (g.txFields (p.2 == 0) p.1).length)))
      | none => .done []

/-- What the item's payload requests ask for. -/
def Dev.payloadAttr (d : Dev) (it : Item) : Attr :=
  match it.nvme with
  | some _ => nvmeAttr
  | none => if it.kind = 2 then { d.regionAttr it.source it.work.lkey with steering := none } else ((d.ring? it.source).map Ring.readAttr).getD {}

/-- Separate metadata of an NVMe write: its address and length. -/
def Dev.metaSegment (d : Dev) (it : Item) : List (Nat × Nat) :=
  match it.nvme with
  | some (fn, _) =>
    let x := nvmeFields ((it.descs.head?.map Desc.bytes).getD [])
    match d.namespaceOf fn x.nsid with
    | some ns => if x.opcode = 1 ∧ d.piApart ns = true ∧ x.pract = false ∧ d.piSize ns ≠ 0 then [(x.mptr, x.blocks * d.piSize ns)] else []
    | none => []
  | none => []

/-- The thread that holds item `i` takes the answer of its payload read. -/
def Dev.answerPayload (i : Nat) (d : Dev) : Dev :=
  match d.item? i with
  | none => d
  | some it =>
    if it.position < 34 then
      let p := it.position
      let d := d.onSite p (fun s => { s with threads := s.threads.mapVals (fun _ t =>
        if t.item == some i then { t with assists := t.assists.filter (fun a => a.kind != 0) } else t) })
      d.settle p
    else d

/-- Is the item an NVMe Read, whose lists alone are read? -/
def Item.nvmeReads (it : Item) : Bool := it.nvme.isSome && byteAt ((it.descs.head?.map Desc.bytes).getD []) 0 == 2

/-- Nothing is outstanding: read on from a list that has come, or put the item's bytes together. -/
def Dev.payloadDone (i : Nat) (d : Dev) : Dev :=
  match d.item? i with
  | none => d
  | some it =>
    if it.want ≠ 0 ∨ it.readIssued = false ∨ it.kind = 1 then d
    else
      let whole (d : Dev) : Dev :=
        (d.onItem i (fun it => { it with
          bytes := ((it.pieces.entries.filter (fun p => p.1 < listBase)).map Prod.snd).flatten })).answerPayload i
      match it.nvme with
      | none => whole d
      | some (fn, _) =>
        if it.readBad then whole d
        else
          match d.payloadWalk it with
          | .needs addr len =>
            let d := d.onItem i (fun it => { it with want := d.requestCount fn addr len })
            d.hostRead fn addr len nvmeAttr (fun off _ => .payload i (listBase + 65536 * addr + off))
          | .done segs =>
            if (it.pieces.entries.any (fun p => p.1 < listBase)) || segs.isEmpty || it.nvmeReads then whole d
            else d.readSegments i fn nvmeAttr (segs ++ d.metaSegment it) 0
          | .bad => whole (d.onItem i (fun it => { it with readBad := true }))

/-- The payload of an item of an older generation is not read: its pass goes on without (notes/assumptions/32.md). -/
def Dev.skipPayload (i : Nat) (d : Dev) : Dev :=
  (d.onItem i (fun it => { it with readIssued := true, readBad := true, stalled := false, want := 0 })).answerPayload i

/-- Issue the payload read of an item; where its function cannot issue now, the item waits for that and its ring is stalled
(R127, R149). -/
def Dev.issuePayload (i : Nat) (d : Dev) : Dev :=
  match d.item? i with
  | none => d
  | some it =>
    if it.kind = 1 ∨ (it.readIssued = true ∧ it.want = 0 ∧ it.stalled = false) then d.answerPayload i
    else if (d.fn it.fn).gen != it.gen then d.skipPayload i
    else if !d.canIssue it.fn then
      let d := d.onItem i (fun it => { it with stalled := true })
      if it.nvme.isSome then d else d.stallRing it.source
    else
      let d := d.onItem i (fun it => { it with readIssued := true, stalled := false, want := 0, pieces := {}, readBad := false })
      let d := match d.payloadWalk { it with pieces := {} }, it.nvme with
        | .done segs, none => d.readSegments i it.fn (d.payloadAttr it) segs 0
        | _, _ => d
      d.payloadDone i

/-- A piece of an item's payload has come, or failed (R123: the item will complete with status 0x02). -/
def Dev.payloadPiece (i key : Nat) (data : Option (List Byte)) (d : Dev) : Dev :=
  let d := d.onItem i (fun it => { it with
    want := it.want - 1
    pieces := match data with
      | some b => it.pieces.set key b
      | none => it.pieces
    readBad := it.readBad || data.isNone
    status := if data.isNone && it.status == 0 then 2 else it.status })
  d.payloadDone i

/-! ## Parse and classify of a transmit item (R180, R189, R192) -/

/-- Insert a tag as the outermost (R195). -/
def insertTag (tpid tci : Nat) (f : Frame) : Frame := insertBytes f 12 (beBytes tpid 2 ++ beBytes tci 2)

/-- The VID of the outermost tag after the descriptor's insertion, 0 for none. -/
def Dev.txVid (d : Dev) (it : Item) : Nat :=
  let t := ((d.ring? it.source).map (fun g => g.sopFields it.descs))
  match t with
  | some t => if t.vlanInsert then t.tci % 4096 else it.parse.outerTci % 4096
  | none => it.parse.outerTci % 4096

/-- The parse record of an item's frame as the host wrote it. -/
def Dev.parseItem (it : Item) (d : Dev) : Parse :=
  { parse d.parseCfg it.bytes with source := it.source, fromRing := true }

/-- Does the source check pass (R192, R211)? A PF has one where firmware created it so (notes/assumptions/25.md). -/
def Dev.sourceOk (it : Item) (vid : Nat) (d : Dev) : Bool × Dev :=
  if it.fn < 16 ∧ (d.fn it.fn).sourceCheck = false then (true, d)
  else
    let r := d.lookup 2 0 (leBytes it.fn 4 ++ padTo 6 (sliceBytes it.bytes 6 6))
    match r.1 with
    | some e =>
      let n := bits (byteAt e.result 0) 1 3
      let vids := [leAt e.result 4 2 % 4096, leAt e.result 6 2 % 4096, leAt e.result 8 2 % 4096, leAt e.result 10 2 % 4096]
      (hasBit (byteAt e.result 0) 0 || (vids.take n).contains vid, r.2)
    | none => (false, r.2)

/-- Stages 1 and 3 to 6 of a transmit item: the record, the verdict, and what the verdict means for it. -/
def Dev.classifyTx (i : Nat) (it : Item) (d : Dev) : Dev :=
  let p := d.parseItem it
  let vid := d.txVid { it with parse := p }
  let p := { p with vnid := vid }
  let p := { p with hash := d.hashOf 1 p it.bytes }
  let s := d.sourceOk it vid
  let d := s.2
  if !s.1 then (d.onItem i (fun it => { it with parse := p, status := 7 })).bump R.PPL_SPOOF_DROPS_count 1
  else
    let r := d.chooseAction it.figure 0 p it.bytes
    let d := r.2
    let v := { r.1.2 with entry := it.verdict.entry, toException := false }
    let ring := v.ring.filter (fun n => ((d.ring? n).map (fun g => g.kind == 1)).getD false)
    let d := d.onItem i (fun it => { it with
      parse := r.1.1
      verdict := { v with ring := ring }
      actionIndex := if it.actionKind = 0 then v.action else it.actionIndex
      kind := if ring.isSome && !v.drop then 3 else it.kind
      switched := ring.isSome && !v.drop
      status := if v.drop then 7 else it.status })
    if v.drop then d.bump R.PPL_TX_ACTION_DROPS_count 1 else d

/-- Is it an item whose pass handles a frame of the host? -/
def Item.isTx (it : Item) : Bool := it.kind == 0 || it.kind == 3

/-! ## Set destination (R183, R185, R191, R496) -/

/-- A received frame leaves its ring's waiting total and joins another's. -/
def Dev.moveHeld (i : Nat) (dst : Option Nat) (d : Dev) : Dev :=
  match d.item? i with
  | none => d
  | some it =>
    let d := d.releaseHeld it
    let n := match dst with
      | some r => if d.coveredAt r it.bytes.length then 0 else it.bytes.length
      | none => 0
    let d := match dst with
      | some r => d.onRing r (fun g => { g with heldBytes := g.heldBytes + n })
      | none => d
    d.onItem i (fun it => { it with held := n, heldAt := dst })

/-- A received item takes a destination; its function follows. -/
def Dev.redirectRx (i : Nat) (dest : Dest) (d : Dev) : Dev :=
  match d.item? i with
  | none => d
  | some it =>
    let ring := match dest with
      | .ring r => some r
      | .mac _ => none
      | .exception => d.exceptionRing it.source
    let d := d.moveHeld i ring
    let fn := (ring.bind d.ring?).map Ring.fn
    d.onItem i (fun it => { it with
      dest := some dest
      fn := fn.getD it.fn
      gen := match fn with
        | some f => if f = it.fn then it.gen else (d.fn f).gen
        | none => it.gen })

/-- The set-destination assist; a destination that the item cannot have changes nothing. -/
def Dev.setDest (i : Nat) (dest : Dest) (d : Dev) : Dev :=
  match d.item? i with
  | none => d
  | some it =>
    let rxRing (r : Nat) : Bool := ((d.ring? r).map (fun g => g.kind == 1)).getD false
    if it.kind = 2 ∨ it.conn.isSome then d
    else if it.kind = 1 then
      match dest with
      | .ring r => if rxRing r then d.redirectRx i dest else d
      | .mac m => if it.verdict.hairpin && m < 256 then d.redirectRx i dest else d
      | .exception => d.redirectRx i dest
    else
      match dest with
      | .ring r => if rxRing r then d.onItem i (fun it => { it with dest := some dest, kind := 3, switched := true }) else d
      | .mac m => if m < 256 then d.onItem i (fun it => { it with dest := some dest, kind := 0, switched := false }) else d
      | .exception => d

/-! ## Commands -/

/-- Ask for an assist: what it does to the item, and its answer; `none` writes no register. -/
def Dev.assist (p t kind : Nat) (act : Nat → Item → Dev → Dev) (answer : Option Word64) (w : Microword) (th : Thread) (d : Dev) : Dev :=
  let d := d.request p t kind (mwDst w) (answer.getD 0) answer.isSome
  match th.item with
  | some i =>
    match d.item? i with
    | some it => act i it d
    | none => d
  | none => d

/-- As `assist`, with an answer that the spec leaves open. -/
def Dev.assistOpen (p t kind : Nat) (act : Nat → Item → Dev → Dev) (w : Microword) (th : Thread) (d : Dev) : Dev :=
  d.free.2.assist p t kind act (some (BitVec.ofNat 64 d.free.1)) w th

end Sys2Proof.Machine
end

