-- ==== Sys2Proof/Machine/Build.lean ====
section
/-!
DEFINITION. How the retire stage builds the outgoing frames of an item (R190, R195-R203, R279, R280, R284, R287, R496): every check
that can refuse the item first, then the allocations.
-/

namespace Sys2Proof.Machine

/-! ## Orders 1 to 3 -/

/-- Where the data of a frame that is to be segmented ends: at its end, where it is too long for the IP header's length field (R203;
DEDUCED, notes/assumptions/78.md). -/
def segmentEnd (i : Ip) (f : Frame) : Nat := if 65535 < f.length - i.off then f.length else i.endL4

/-- Segments of a frame at `mss` (R203); none where the item is malformed for it. -/
def segmentFrame (c : ParseCfg) (f : Frame) (mss : Nat) : Option (List Frame) :=
  match outerIp c f with
  | none => none
  | some i =>
    let data := sliceBytes f i.payload (segmentEnd i f - i.payload)
    let n := max 1 ((data.length + mss - 1) / max 1 mss)
    if mss < 64 ∨ 16000 < mss ∨ (i.l4 ≠ 1 ∧ i.l4 ≠ 2) ∨ i.fragFirst = true ∨ i.fragLater = true ∨ 4096 < n then none
    else
      some ((List.range n).map (fun k =>
        let chunk := sliceBytes data (k * mss) mss
        let g := f.take i.payload ++ chunk
        let g := if i.v4 then putBytes g (i.off + 4) (beBytes (beAt f (i.off + 4) 2 + k) 2) else g
        let g := if i.l4 = 1 then
            let flags := byteAt f (i.offL4 + 13)
            let flags := if k = 0 then flags else clearBit flags 7
            let flags := if k + 1 = n then flags else clearBit (clearBit flags 0) 3
            putBytes (putBytes g (i.offL4 + 4) (beBytes (beAt f (i.offL4 + 4) 4 + k * mss) 4)) (i.offL4 + 13) [BitVec.ofNat 8 flags]
          else putBytes g (i.offL4 + 4) (beBytes (g.length - i.offL4) 2)
        putChecksums true true { i with endL4 := g.length } (setIpLen i g.length g)))

/-- The checksums that csum_req names (R190 order 2). -/
def namedChecksums (c : ParseCfg) (req : Nat) (f : Frame) : Frame :=
  if req = 0 then f
  else
    let p := parse c f
    let f := match p.innerIp with
      | some i => putChecksums (hasBit req 2) (hasBit req 3) i f
      | none => f
    match p.ip with
    | some i => putChecksums (hasBit req 0) (hasBit req 1) i f
    | none => f

/-- The rule of the egress port (R195). -/
def Dev.portVlan (d : Dev) (m : Nat) (f : Frame) : Frame :=
  let vid := d.rd R.PPL_PORT_VLAN_default_vid 0 (16 * m)
  let tci := vid + 8192 * d.rd R.PPL_PORT_VLAN_default_pcp 0 (16 * m)
  let tagged := d.parseCfg.isTpid (beAt f 12 2)
  match d.rd R.PPL_PORT_VLAN_vlan_mode 0 (16 * m) with
  | 0 => f
  | 1 => if tagged && beAt f 14 2 % 4096 == vid then removeBytes f 12 4 else f
  | 2 => if tagged then f else insertTag 0x8100 tci f
  | _ => insertTag 0x88A8 tci f

/-! ## Orders 4 and 5 -/

/-- Apply one edit; offsets count from the start of the frame as the edits before it left it (notes/assumptions/26.md). -/
def applyEdit (f : Frame) : Edit → Frame
  | .rewrite off b => if off + b.length ≤ f.length then putBytes f off b else f
  | .insert off b => if off ≤ f.length then insertBytes f off b else f
  | .strip off n => if off + n ≤ f.length then removeBytes f off n else f
  | .encap _ => f
  | .esp _ => f
  | .tls _ => f

/-- RFC 6040 normal mode on decapsulation: the inner ECN of a frame whose outer ECN is `outer`. -/
def ecnOut (outer inner : Nat) : Nat :=
  if outer = 3 ∧ inner ≠ 0 then 3 else if outer = 1 ∧ inner = 2 then 1 else inner

/-- Set the ECN of an IP header. -/
def setEcn (i : Ip) (e : Nat) (f : Frame) : Frame :=
  if i.ecn = e then f
  else if i.v4 then fixV4 i.off (putBytes f (i.off + 1) [BitVec.ofNat 8 (4 * i.dscp + e)])
  else
    let b := byteAt f (i.off + 1)
    putBytes f (i.off + 1) [BitVec.ofNat 8 (b / 64 * 64 + e * 16 + b % 16)]

/-- Take the outer headers off a terminated frame (R199, R201). A tunnel that carries no Ethernet header leaves the outer one, with the
EtherType of what it carries; so does Geneve (DEDUCED, notes/assumptions/79.md). -/
def decapFrame (p : Parse) (f : Frame) : Frame :=
  match p.ip with
  | none => f
  | some o =>
    let f := match p.innerIp with
      | some i => setEcn i (ecnOut o.ecn i.ecn) f
      | none => f
    if p.innerType = 0x6558 then f.drop p.innerAt else f.take (o.off - 2) ++ beBytes p.innerType 2 ++ f.drop p.innerAt

/-- Does the item leave without its outer headers? -/
def Item.decaps (it : Item) : Bool := it.kind == 1 && it.verdict.decap && it.parse.terminated

/-- Put a frame behind a template's header (R196-R200); `ident` is the value of the egress instance's counter. -/
def Template.wrap (t : Template) (c : ParseCfg) (hash ident : Nat) (f : Frame) : Frame :=
  let inner := outerIp c f
  let body := if t.type = 4 then (inner.map (fun i => f.drop i.off)).getD f else f
  let o3 := bits t.w0 16 8
  let o4 := bits t.w0 24 8
  let img := t.image
  let dscp (old : Nat) : Nat := if hasBit t.w0 14 then (inner.map Ip.dscp).getD old else old
  let ecn := (inner.map Ip.ecn).getD 0
  let total := img.length - o3 + body.length
  let img := if t.v6 then
      let w := beAt img o3 4
      putBytes (putBytes img o3 (beBytes (w / 2 ^ 28 * 2 ^ 28 + (4 * dscp (bits w 22 6) + ecn) * 2 ^ 20 + w % 2 ^ 20) 4)) (o3 + 4)
        (beBytes (total - 40) 2)
    else
      let img := putBytes img (o3 + 1) [BitVec.ofNat 8 (4 * dscp (byteAt img (o3 + 1) / 4) + ecn)]
      let img := putBytes img (o3 + 2) (beBytes total 2 ++ beBytes (if hasBit t.w0 15 then 0 else ident) 2)
      let b := byteAt img (o3 + 6)
      putBytes img (o3 + 6) [BitVec.ofNat 8 ((if hasBit t.w0 15 then setBit else clearBit) b 6)]
  let udp := t.type == 1 || t.type == 2
  let img := if udp then putBytes (putBytes img o4 (beBytes (0xC000 + hash % 2 ^ 14) 2)) (o4 + 4) (beBytes (img.length - o4 + body.length) 2)
    else img
  let img := if t.type = 1 then putBytes (putBytes img (o4 + 8) [8, 0, 0, 0]) (o4 + 15) [0] else img
  let g := img ++ body
  let g := if !udp && hasBit t.w0 13 then
      let g := putBytes g (o4 + 4) [0, 0]
      putBytes g (o4 + 4) (beBytes (csumOf (sum16 (g.drop o4))) 2)
    else g
  match outerIp c g with
  | some i => putChecksums true (udp && (t.v6 || hasBit t.w0 12)) { i with fragFirst := false, fragLater := false } g
  | none => g

/-! ## What an item asks for -/

/-- The SA that an item leaves under, the TLS context of its records: the descriptor's action, an edit, or a number asked for
(notes/assumptions/26.md). -/
def Item.espOf (it : Item) : Option Nat :=
  if it.actionKind = 2 then some it.actionIndex
  else
    match it.edits.reverse.findSome? (fun e => match e with
      | .esp c => some c
      | _ => none) with
    | some c => some c
    | none => it.commits.findSome? (fun c => match c with
      | .number 0 x => some x
      | _ => none)
def Item.tlsOf (it : Item) : Option Nat :=
  if it.actionKind = 3 then some it.actionIndex
  else
    match it.edits.reverse.findSome? (fun e => match e with
      | .tls c => some c
      | _ => none) with
    | some c => some c
    | none => it.commits.findSome? (fun c => match c with
      | .number 1 x => some x
      | _ => none)

/-- The template that an item leaves in, as its pass read it (R204). -/
def Dev.templateFor (d : Dev) (it : Item) : Option Template :=
  it.templateOf.map (fun n => Template.ofBytes (it.template.getD (d.directEntry templateTable n)))

/-- Are the item's descriptor actions permitted (R193, R275)? -/
def Dev.actionsOk (d : Dev) (it : Item) : Bool :=
  let t := Template.ofBytes (it.template.getD (d.directEntry templateTable it.actionIndex))
  (it.actionKind != 1 || t.owner == it.fn || (t.owner == 0x3FFF && it.fn < 16)) &&
  (it.actionKind != 2 || d.ctxOwner it.actionIndex == it.fn) && (it.actionKind != 3 || d.ctxOwner it.actionIndex == it.fn) &&
  ((it.espOf.map (fun c => d.ctxType c == 1 && !d.ctxBad c)).getD true) && ((it.tlsOf.map (fun c => d.ctxType c == 3)).getD true)

/-- The function's uplink instance (R422). -/
def Dev.uplinkOf (d : Dev) (fn : Nat) : Option Nat := (d.fn fn).props.uplink

/-- The egress instance of R496. -/
def Dev.egressOf (d : Dev) (it : Item) : Option Nat :=
  let m := match it.dest with
    | some (.mac m) => some m
    | _ => match d.templateFor it with
      | some t => some t.mac
      | none => match it.verdict.macInst with
        | some m => some m
        | none => d.uplinkOf it.fn
  m.filter d.macFormed

/-! ## The plan: every check before any allocation -/

/-- What becomes of an item: a status with the counters of its refusal, or frames for an instance, before orders 6 and 8. -/
inductive Plan where
  | refused (status : Nat) (counts : List (Field × Nat))
  | frames (mac : Nat) (l : List Frame)
  deriving DecidableEq, Repr

/-- Order 3 to 5 of one segment. -/
def Dev.shape (d : Dev) (it : Item) (m : Nat) (ident : Nat) (f : Frame) : Frame :=
  let f := if it.decaps then decapFrame it.parse f else f
  let f := it.edits.foldl applyEdit f
  match d.templateFor it with
  | some t => t.wrap d.parseCfg it.parse.hash ((d.mac m).ident + ident) f
  | none => f

/-- Bytes that ESP will add to a frame; none where ESP cannot take it (R280 step 1). -/
def Dev.espAdds (d : Dev) (it : Item) (f : Frame) : Option Nat :=
  match it.espOf with
  | none => some 0
  | some c =>
    match outerIp d.parseCfg f with
    | some i => if i.fragFirst || i.fragLater then none else some (d.espGrowth c i f)
    | none => none

/-- Does the outer datagram of a frame that grows by `esp` fit its template (R202)? -/
def Dev.fitsTemplate (d : Dev) (it : Item) (esp : Nat) (f : Frame) : Bool :=
  ((d.templateFor it).map (fun t => decide (f.length - bits t.w0 16 8 + esp ≤ t.mtu))).getD true

/-- Does a frame that grows by `esp` fit its port and its template (R202)? -/
def Dev.fitsMtu (d : Dev) (it : Item) (m esp : Nat) (f : Frame) : Bool :=
  f.length + esp + 4 + d.macsecGrowth m ≤ d.rd R.MAC_INST_CFG_max_frame 0 (16 * m) && d.fitsTemplate it esp f

/-- May MACsec of the instance send `k` frames (R284)? -/
def Dev.macsecRoom (d : Dev) (m k : Nat) : Bool :=
  match d.macsecTx m with
  | none => true
  | some c => d.macsecReady c &&
      d.secPn c (d.ctxBit c 8).toNat + k ≤ (if d.ctxBit c 5 then 2 ^ 64 else 2 ^ 32)

/-- Checks of orders 6 to 8 over the frames of an item. -/
def Dev.checkFrames (d : Dev) (it : Item) (m : Nat) (l : List Frame) : Plan :=
  let crypto := [(R.CRY_TX_REFUSED_count, 0)]
  if l.any (fun f => (d.espAdds it f).isNone) then .refused 7 crypto
  else if l.any (fun f => !d.fitsMtu it m ((d.espAdds it f).getD 0) f) then .refused 8 [(R.PPL_TX_MTU_DROPS_count, 1)]
  else if !d.macsecRoom m l.length then .refused 7 crypto
  else .frames m l

/-- Orders 1 to 5 and the checks, over a frame as the host wrote it or with its TLS records sealed. -/
def Dev.planTx (d : Dev) (it : Item) (t : TxFields) (f : Frame) : Plan :=
  match (if t.seg then segmentFrame d.parseCfg f t.mss else some [f]) with
  | none => .refused 1 []
  | some segs =>
    if !d.actionsOk it then .refused 7 [(R.CRY_TX_REFUSED_count, 0)]
    else
      match d.egressOf it with
      | none => .refused 7 [(R.PPL_TX_ACTION_DROPS_count, 1)]
      | some m =>
        let one (p : Frame × Nat) : Frame :=
          let f := namedChecksums d.parseCfg t.csum p.1
          let f := if t.vlanInsert then insertTag 0x8100 t.tci f else f
          d.shape it m p.2 (d.portVlan m f)
        d.checkFrames it m (segs.zipIdx.map one)

/-- The plan of a hairpinned received frame. -/
def Dev.planHairpin (d : Dev) (it : Item) : Plan :=
  match d.egressOf it with
  | none => .refused 7 [(R.PPL_TX_ACTION_DROPS_count, 1)]
  | some m =>
    if !d.actionsOk it then .refused 7 [(R.CRY_TX_REFUSED_count, 0)]
    else d.checkFrames it m [d.shape it m 0 (d.portVlan m it.bytes)]

/-- Count a refusal. -/
def Dev.countPlan (counts : List (Field × Nat)) (d : Dev) : Dev := Dev.each counts (fun c d => d.bump c.1 c.2) d

/-! ## Allocation and protection -/

/-- Take the IPv4 identifications that a plan used (R199). -/
def Dev.takeIdents (m : Nat) (it : Item) (k : Nat) (d : Dev) : Dev :=
  match d.templateFor it with
  | some t =>
    if t.v6 || hasBit t.w0 15 then d else d.onMac m (fun x => { x with ident := (x.ident + k) % 65536 })
  | none => d

/-- ESP over a frame with the next number (R280). -/
def Dev.protectEsp (m c : Nat) (f : Frame) (d : Dev) : Frame × Dev :=
  match outerIp d.parseCfg f with
  | none => (f, d)
  | some i =>
    let n := d.espNumber c
    let d := n.2
    let own := d.ctxBit c 7 && d.ctxAt c 0x20 1 % 64 == 20 && !hasBit (byteAt (d.ctx c) 0x46) 6
    let g := d.espWrap c n.1 (d.mac m).ident i f
    let d := if own then d.onMac m (fun x => { x with ident := (x.ident + 1) % 65536 }) else d
    (g, ((d.bumpCtx c 0x28 8 1).bumpCtx c 0x30 8 f.length).cryJob f.length)

/-- Orders 6 and 8: ESP, then MACsec, of one frame; with it, whether the frame before protection is a one-step Sync. -/
def Dev.protect (m : Nat) (esp : Option Nat) (f : Frame) (d : Dev) : (Frame × Bool) × Dev :=
  let sync := isOneStepSync (parse d.parseCfg f) f
  let r := match esp with
    | some c => d.protectEsp m c f
    | none => (f, d)
  match r.2.macsecTx m with
  | some c => let x := r.2.macsecSeal c r.1; ((x.1, sync), x.2)
  | none => ((r.1, sync), r.2)

/-- `protect` over the frames of an item in order. -/
def Dev.protectAll (m : Nat) (esp : Option Nat) : List Frame → Dev → List (Frame × Bool) × Dev
  | [], d => ([], d)
  | f :: l, d =>
    let r := d.protect m esp f
    let rest := Dev.protectAll m esp l r.2
    (r.1 :: rest.1, rest.2)

end Sys2Proof.Machine
end

