-- ==== Sys2Proof/Machine/Retire.lean ====
section
/-!
DEFINITION. The retire stage (R154-R164, R168, R190, R191, R199, R203, R375, R383-R385): order, retirement and squash of items,
completions of transmit items, entry to the line, delivery to rings, waiting frames, switched items and launch gates.
-/

namespace Sys2Proof.Machine

/-! ## Order (R155) -/

/-- Do two items of the same ring, or of the same submission queue, retire in order? -/
def sameSource (a b : Item) : Bool := a.kind != 1 && b.kind != 1 && a.nvme == b.nvme && a.source == b.source

/-- Do two received frames retire in order: same MAC instance, same ring, instance or connection? -/
def Dev.sameDest (d : Dev) (a b : Item) : Bool :=
  a.kind == 1 && b.kind == 1 && a.source == b.source && a.conn == b.conn && d.itemRing a == d.itemRing b &&
  (match a.dest, b.dest with
    | some (.mac m), some (.mac n) => m == n
    | some (.mac _), _ => false
    | _, some (.mac _) => false
    | _, _ => true)

/-- Is item `i` next in order? An earlier frame that waits for buffers at the ring does not keep a frame from waiting there. -/
def Dev.nextInOrder (d : Dev) (i : Nat) (it : Item) : Bool :=
  d.items.entries.all (fun e => i ≤ e.1 || !e.2.isAccepted ||
    !(sameSource e.2 it || (d.sameDest e.2 it && e.2.stage != .waiting)))

/-! ## The end of an item -/

/-- Apply a retire commit (R160). -/
def Dev.applyCommit (c : Commit) (d : Dev) : Dev :=
  match c with
  | .counter cell n => { d with counters := d.counters.upd cell 0 (fun v => (v + n) % 2 ^ 64) }
  | .state cell v => { d with cells := d.cells.set cell v }
  | .number _ _ => d

/-- Item `i` retires: its commits apply once, and its Ledger entry closes. -/
def Dev.retired (i : Nat) (d : Dev) : Dev :=
  match d.item? i with
  | none => d
  | some it =>
    let d := Dev.each it.commits Dev.applyCommit d
    let d := if it.failedIn then d else d.countEpilogue it.fn (fun e => { e with retired := e.retired + 1 })
    let d := if it.kind = 1 then d else d.onRing it.source (fun g => { g with retireSeq := (it.seq + it.count) % 2 ^ 48 })
    (d.provePosition it.position).dropItem i

/-- Count `n` items of a function as abandoned (R125, R171, R172). -/
def Dev.countAbandoned (fn n : Nat) (d : Dev) : Dev :=
  let link := d.linkOf fn
  let d := d.wr64 R.LGR_SQUASHED_LO_squashed R.LGR_SQUASHED_HI_squashed
    ((d.rd64 R.LGR_SQUASHED_LO_squashed R.LGR_SQUASHED_HI_squashed + n) % 2 ^ 64)
  let d := if (d.fn fn).reset = .link then
      d.wr64 R.PCX_ABANDONED_LO_abandoned R.PCX_ABANDONED_HI_abandoned
        ((d.rd64 R.PCX_ABANDONED_LO_abandoned R.PCX_ABANDONED_HI_abandoned link + n) % 2 ^ 64) link
    else d
  d.countEpilogue fn (fun e => { e with abandoned := e.abandoned + n })

/-- Item `i` is squashed: counted as abandoned, and gone (R125, R426); one that failed during the reset is counted so already (R154,
R171). -/
def Dev.squash (i : Nat) (d : Dev) : Dev :=
  match d.item? i with
  | none => d
  | some it =>
    let d := d.leaveWaiting i it
    (if it.failedIn then d else d.countAbandoned it.fn 1).dropItem i

/-- The eight words of an epilogue record (R171). -/
def Epilogue.words (fn : Nat) (e : Epilogue) : List Nat :=
  let w := [0x45 + 256 * e.cause + 4096 * e.merged.toNat, fn + 2 ^ 14 * e.oldGen, e.retired % 2 ^ 32, e.abandoned % 2 ^ 32,
    e.failed % 2 ^ 32, e.owedWritten % 2 ^ 32, e.rings % 2 ^ 22]
  w ++ [crc32c (w.flatMap (fun n => leBytes n 4))]

/-- Firmware sends an epilogue record that waits, ahead of everything else. -/
def Dev.sendEpilogue (fn : Nat) (d : Dev) : Dev :=
  match d.epilogues.get? fn with
  | some e =>
    if e.ready && !e.sent then
      let d := { d with epilogues := d.epilogues.set fn { e with sent := true } }
      (d.onFn fn (fun f => { f with outbox := e.words fn :: f.outbox })).sendNext fn
    else d
  | none => d

/-- Does the item belong to an older generation of its function? -/
def Dev.stale (d : Dev) (it : Item) : Bool := (d.fn it.fn).gen != it.gen

/-! ## Completions of items from rings -/

/-- Bytes that were read of a range of the item's payload. -/
def Item.readIn (it : Item) (off len : Nat) : Nat :=
  (it.pieces.entries.map (fun p => min (p.1 + p.2.length) (off + len) - max p.1 off)).sum

/-- The completions of an item's descriptors, all with one status, eop on the last (R143). -/
def Ring.txCpls (g : Ring) (it : Item) (status : Nat) : List (Nat × Cpl) :=
  let lens := it.descs.zipIdx.map (fun p => (g.txFields (p.2 == 0) p.1).length)
  it.descs.zipIdx.map (fun p =>
    (p.1.seq, { length := it.readIn ((lens.take p.2).sum) (lens.getD p.2 0), status := status, eop := p.2 + 1 == it.descs.length }))

/-- Owe a completion that is not ready: its frame has not started. -/
def Dev.oweLater (r s : Nat) (c : Cpl) (d : Dev) : Dev :=
  d.onRing r (fun g => { g with owed := g.owed ++ [{ seq := s, bytes := g.cplBytes s c, ready := false }] })

/-- May a completion be written on the ring now, with every one before it? -/
def Dev.cplOpen (d : Dev) (r : Nat) : Bool :=
  match d.ring? r with
  | some g => d.canIssue g.fn && g.owed.all Owed.ready
  | none => false

/-- Complete item `i` on its source ring with a status; that write retires it. -/
def Dev.completeSource (i status : Nat) (d : Dev) : Dev :=
  match d.item? i with
  | none => d
  | some it =>
    match d.ring? it.source with
    | none => d
    | some g =>
      if !d.cplOpen it.source then d
      else
        let d := Dev.each (g.txCpls it status) (fun c d => d.owe it.source c.1 c.2) d
        (d.flushOwed it.source).retired i

/-- As `completeSource`, with counters that go with it. -/
def Dev.refuseSource (i status : Nat) (counts : List (Field × Nat)) (d : Dev) : Dev :=
  match d.item? i with
  | none => d
  | some it => if d.cplOpen it.source then (d.countPlan counts).completeSource i status else d

/-! ## Launch gates (R383-R385) -/

/-- A launch time seen from the gate clock: the seconds nearest `now` with the low 16 bits given; 0 for one that lies before the start of
the domain's time, which has passed. -/
def launchTotal (now sec ns : Nat) : Nat :=
  let s := now / 1000000000
  let ahead := s + (sec + 2 ^ 15 + (2 ^ 16 - s % 2 ^ 16)) % 2 ^ 16
  if ahead < 2 ^ 15 then 0 else (ahead - 2 ^ 15) * 1000000000 + ns

/-- The gate clock of ring `g` for a descriptor: the domain it names, or none for the slot clock (R383). -/
def Dev.gateDomain (d : Dev) (g : Ring) (t : TxFields) : Option Nat :=
  if (d.slot g.launchSlot).useDesc then some t.launchDomain else none

/-- How an item with launch fares when it is first next in order. -/
inductive Gate where
  | waits (l : Launch)
  | late
  | tooEarly
  deriving DecidableEq, Repr

/-- The gate of ring `g` for a descriptor's launch fields. -/
def Dev.gateOf (d : Dev) (g : Ring) (t : TxFields) : Gate :=
  let n := g.launchSlot
  let domain := d.gateDomain g t
  let now := d.gateNow { slot := n, domain := domain, time := 0 }
  let time := launchTotal now t.launchSec t.launchNs
  if 1000000000 ≤ t.launchNs || !(d.slotState n == 1 && (d.slot n).kind == 3) || time ≤ now + 500 then .late
  else if now + 1000000 * (d.slot n).hold < time then .tooEarly
  else .waits { slot := n, domain := domain, time := time }

/-- Has the gate of a launch opened? -/
def Dev.gateOpen (d : Dev) (l : Launch) : Bool := l.time ≤ d.gateNow l + (d.slot l.slot).lead

/-- Take up the launch of item `i`. A dropped item needs its completion written. -/
def Dev.evalLaunch (i : Nat) (g : Ring) (t : TxFields) (d : Dev) : Dev :=
  let n := g.launchSlot
  let k := d.gateDomain g t
  match d.gateOf g t with
  | .waits l => d.onItem i (fun it => { it with launch := some l, launched := d.gateOpen l, stage := if d.gateOpen l then .retiring else .gated })
  | .late =>
    let count (d : Dev) : Dev := ((d.bump R.TMP_SLOT_LATE_late 0 (64 * n)).slotFlag n).cause tmpCauses 8
    if g.lateDrop then (if d.cplOpen ((d.item? i).map Item.source |>.getD 0) then (count d).completeSource i 5 else d)
    else
      (count d).onItem i (fun it => { it with
        launch := some { slot := n, domain := k, time := d.gateNow { slot := n, domain := k, time := 0 }, late := true }
        launched := true })
  | .tooEarly =>
    if d.cplOpen ((d.item? i).map Item.source |>.getD 0) then
      ((d.bump R.TMP_SLOT_LATE_too_early 0 (64 * n)).cause tmpCauses 13).completeSource i 5
    else d

/-! ## To the line -/

/-- Is there room for the frames of an item, and an instance for MACsec (R272)? A FIFO that is empty takes any item. -/
def Dev.lineRoom (d : Dev) (m cls : Nat) (timed : Bool) (l : List Frame) : Bool :=
  ((d.macsecTx m).isNone || !d.cryInService.isEmpty) &&
  if timed then d.launchRoom m cls && ((d.mac m).launch.isEmpty || (d.mac m).launch.length + l.length ≤ 16)
  else d.fifoRoom m cls ((l.map List.length).sum) || ((d.mac m).used none == 0 && !d.paused m cls)

/-- The frames of an item enter the egress FIFO or the launch queue; completions and timestamp go with the first. -/
def Dev.enterLine (m : Nat) (first : TxFrame) (l : List (Frame × Bool)) (d : Dev) : Dev :=
  Dev.each l.zipIdx (fun p d =>
    let f : TxFrame := { first with
      bytes := p.1.1
      sync := p.1.2
      tsReq := first.tsReq && p.2 == 0
      cpls := if p.2 = 0 then first.cpls else [] }
    if f.launch.isSome then d.enterLaunch m f else d.enterFifo m f) d

/-- A transmit item enters the line: its numbers are allocated, its completions owed, and it retires (R161-R163, R374, R384). -/
def Dev.sendItem (i : Nat) (it : Item) (g : Ring) (t : TxFields) (m : Nat) (l : List Frame) (d : Dev) : Dev :=
  let d := d.takeIdents m it l.length
  let p := d.protectAll m it.espOf l
  let timed := it.launch.isSome
  let cpls := g.txCpls it 0
  let last := (cpls.getLast?.map Prod.fst).getD 0
  let later (c : Nat × Cpl) : Bool := timed || (t.tsReq && c.1 == last)
  let d := Dev.each cpls (fun c d => if later c then d.oweLater it.source c.1 c.2 else d.owe it.source c.1 c.2) p.2
  let first : TxFrame := { item := i, cls := it.parse.tc, bytes := [], ring := some it.source, seq := last, cpls := cpls.filter later
                           tsReq := t.tsReq, launch := it.launch, ipsec := it.espOf.isSome }
  (d.enterLine m first p.1).retired i

/-- Has the item's SA numbers for its frames? -/
def Dev.espCovers (d : Dev) (it : Item) (k : Nat) : Bool := (it.espOf.map (fun c => d.espRoom c k)).getD true

/-- The SA of an item is exhausted (R279): status 0x07. -/
def Dev.exhaustItem (i : Nat) (it : Item) (d : Dev) : Dev :=
  if !d.cplOpen it.source then d
  else
    match it.espOf with
    | some c => (d.espExhaust c).completeSource i 7
    | none => d

/-- Carry out the plan of a transmit item. -/
def Dev.runPlan (i : Nat) (it : Item) (g : Ring) (t : TxFields) (p : Plan) (d : Dev) : Dev :=
  match p with
  | .refused status counts => d.refuseSource i status counts
  | .frames m l =>
    if !d.espCovers it l.length then d.exhaustItem i it
    else if !d.lineRoom m it.parse.tc it.launch.isSome l then d
    else d.sendItem i it g t m l

/-- A failure after a record number was allocated (R164, R287): status 0x06, and the TLS context is failed. The failed-item log has no
reason for it (DEDUCED, notes/assumptions/76.md). -/
def Dev.failTls (i c : Nat) (d : Dev) : Dev := ((d.putCtxBit c 6 true).cryRecord 3 c (d.ctxAt c 0x20 8)).completeSource i 6

/-- A TLS item, whose plan as the host wrote it stands: its records are sealed and the frames built again; a number of its SA and room on
the line are there before a record number is allocated (R163, R164, R287). -/
def Dev.retireTls (i c : Nat) (it : Item) (g : Ring) (t : TxFields) (d : Dev) : Dev :=
  match d.tlsProcess c d.parseCfg it.bytes with
  | (none, d') => if d.cplOpen it.source then d'.completeSource i 7 else d
  | (some f, d') =>
    match d'.planTx it t f with
    | .refused _ counts => if d.cplOpen it.source then (d'.countPlan counts).failTls i c else d
    | .frames m l =>
      if !d'.espCovers it l.length then d.exhaustItem i it
      else if !d'.lineRoom m it.parse.tc it.launch.isSome l then d
      else d'.sendItem i it g t m l

/-- A transmit item that leaves on the line: its plan with the frame as the host wrote it, then, for a TLS item, with its records
sealed. -/
def Dev.retireTx (i : Nat) (it : Item) (g : Ring) (d : Dev) : Dev :=
  let t := g.sopFields it.descs
  if t.launch && !it.launched then d.evalLaunch i g t
  else
    match it.tlsOf, d.planTx it t it.bytes with
    | some c, .frames _ _ => d.retireTls i c it g t
    | _, p => d.runPlan i it g t p

/-! ## To a ring -/

/-- Take the outermost tag off, where it has one: the frame and the tag (R195). -/
def stripTag (c : ParseCfg) (f : Frame) : Frame × Option Nat :=
  if c.isTpid (beAt f 12 2) then (removeBytes f 12 4, some (beAt f 14 2)) else (f, none)

/-- The pieces of a frame in its buffers; a malformed descriptor among them takes none (R142, R147). -/
def fillBuffers : List Desc → List Byte → List (Desc × Option (List Byte))
  | [], _ => []
  | b :: l, f =>
    if !b.rxOk then (b, none) :: fillBuffers l f
    else (b, some (f.take b.bufLen)) :: (if f.length ≤ b.bufLen then [] else fillBuffers l (f.drop b.bufLen))

/-- The buffers left after a frame of `n` bytes, where they cover it. -/
def takeBuffers : List Desc → Nat → Option (List Desc)
  | [], _ => none
  | b :: l, n => if !b.rxOk then takeBuffers l n else if n ≤ b.bufLen then some l else takeBuffers l (n - b.bufLen)

/-- May frames of these lengths be written into the ring's buffers now (R147)? -/
def Dev.mayFill (d : Dev) (r : Nat) (l : List Nat) : Bool :=
  match d.ring? r with
  | some g => d.canIssue g.fn && g.owed.all Owed.ready && (l.foldl (fun o n => o.bind (takeBuffers · n)) (some g.buffers)).isSome
  | none => false

/-- Write a frame into its buffers with one completion each, the last as `c` says (R143, R147). -/
def Dev.fillRing (r : Nat) (f : Frame) (c : Cpl) (d : Dev) : Dev :=
  match d.ring? r with
  | none => d
  | some g =>
    let parts := fillBuffers g.buffers f
    let d := d.onRing r (fun g => { g with buffers := g.buffers.drop parts.length })
    let d := Dev.each parts (fun p d => match p.2 with
      | some b => if b.isEmpty then d else d.hostWrite g.fn p.1.addr b g.writeAttr
      | none => d) d
    let d := Dev.each parts.zipIdx (fun p d =>
      d.owe r p.1.1.seq (match p.1.2 with
        | none => { status := 1, eop := true }
        | some b => if p.2 + 1 = parts.length then { c with length := b.length, eop := true } else { length := b.length })) d
    (d.rejectBuffers r g.buffers.length).flushOwed r

/-- The sequence of the buffer that ends a frame. -/
def Ring.eopSeq (g : Ring) (f : Frame) : Nat := ((fillBuffers g.buffers f).getLast?.map (fun p => p.1.seq)).getD 0

/-- The receive timestamp record of a frame that ends on ring `r` (R375). -/
def Dev.rxRecord (it : Item) (r seq : Nat) (d : Dev) : Dev :=
  let m := it.source
  let want := match d.rd R.TMP_PORT_rx_ts_mode 0 (4 * m) with
    | 0 => false
    | 1 => isEvent it.parse it.bytes
    | 2 => it.parse.ptp
    | _ => true
  if !want then d
  else if !d.on R.TMP_RX_TS_RING_valid 0 (4 * m) then d.loseStamp m r true
  else
    match d.notify (d.rd R.TMP_RX_TS_RING_ring 0 (4 * m)) (it.stamp.words true seq r) with
    | (true, d) => d
    | (false, d) => d.loseStamp m r true

/-- What a received frame's completion says, with the bytes delivered (R143, R195, R201). -/
def Dev.rxDelivery (d : Dev) (it : Item) : Frame × Cpl :=
  let p := it.parse
  let f := it.edits.foldl applyEdit (if it.decaps then decapFrame p it.bytes else it.bytes)
  let s := if d.on R.PPL_PORT_VLAN_strip_outer 0 (16 * it.source) then stripTag d.parseCfg f else (f, none)
  let inner := it.decaps
  let l3 := if inner then p.innerL3 else if p.l3 ≤ 2 then p.l3 else 0
  let l4 := if inner then p.innerL4 else if p.l4 ≤ 2 then p.l4 else 0
  (s.1, { hash := p.hash, tci := s.2.getD 0, l3 := l3, l4 := l4, tunnelled := inner, csum := if inner then p.innerCsum else p.csum
          stripped := s.2.isSome, mark := it.verdict.mark })

/-- Does the frame go to its port's exception ring? -/
def Item.toException (it : Item) : Bool :=
  match it.dest with
  | some .exception => true
  | some _ => false
  | none => it.needsException

/-- Deliver received frame `i` to ring `r`, which can take it. A failed frame takes one buffer and writes nothing (R168). -/
def Dev.deliverRx (i : Nat) (it : Item) (r : Nat) (d : Dev) : Dev :=
  match d.ring? r with
  | none => d
  | some g =>
    let d := d.leaveWaiting i it
    if it.failed.isSome then
      match g.buffers with
      | b :: rest =>
        ((((d.onRing r (fun g => { g with buffers := rest })).owe r b.seq { status := 6, eop := true }).rejectBuffers r rest.length).flushOwed r).retired i
      | [] => d
    else
      let x := d.rxDelivery it
      let d := d.rxRecord it r (g.eopSeq x.1)
      let d := if it.toException then d.bump R.PPL_EXCEPTIONS_count else d
      (d.fillRing r x.1 x.2).retired i

/-- Bytes of buffers that received frame `it` needs at its ring. -/
def Dev.rxNeeds (d : Dev) (it : Item) : Nat := if it.failed.isSome then 0 else (d.rxDelivery it).1.length

/-- The place of item `i` among the frames that wait: behind those that came before it, but ahead of later ones of its MAC instance
(R155, R165, R168). -/
def Dev.placeWaiting (d : Dev) (i : Nat) (it : Item) (l : List Nat) : List Nat :=
  let before := l.takeWhile (fun j => !(i < j && it.kind == 1 && ((d.item? j).map (fun x => x.kind == 1 && x.source == it.source)).getD false))
  before ++ i :: l.drop before.length

/-- Item `i` joins the frames that wait at ring `r`; a failed frame counts nothing (R147, R168). -/
def Dev.joinWaiting (i : Nat) (it : Item) (r : Nat) (d : Dev) : Dev :=
  let held := if it.failed.isSome then 0 else if it.held = 0 then it.bytes.length else it.held
  let d := (d.releaseHeld it).onRing r (fun g => { g with
    waiting := d.placeWaiting i it g.waiting
    heldBytes := g.heldBytes + held })
  d.onItem i (fun it => { it with stage := .waiting, held := held, heldAt := some r })

/-- A received item bound for ring `r`: delivered, or it waits there behind the frames that came before. -/
def Dev.retireToRing (i : Nat) (it : Item) (r : Nat) (d : Dev) : Dev :=
  match d.ring? r with
  | none => d
  | some g => if g.waiting.isEmpty && d.mayFill r [d.rxNeeds it] then d.deliverRx i it r else d.joinWaiting i it r

/-- A hairpinned frame that its port refuses goes to its exception ring. -/
def Dev.hairpinRefused (i : Nat) (counts : List (Field × Nat)) (d : Dev) : Dev := (d.countPlan counts).redirectRx i .exception

/-- A hairpinned received frame enters the line (R379). -/
def Dev.retireHairpin (i : Nat) (it : Item) (d : Dev) : Dev :=
  match d.planHairpin it with
  | .refused _ counts => d.hairpinRefused i counts
  | .frames m l =>
    if !d.espCovers it l.length then
      (match it.espOf with
      | some c => (d.espExhaust c).hairpinRefused i []
      | none => d)
    else if !d.lineRoom m it.parse.tc false l then d
    else
      let p := (d.takeIdents m it l.length).protectAll m it.espOf l
      let first : TxFrame := { item := i, cls := it.parse.tc, bytes := [], ipsec := it.espOf.isSome
                               since := if d.on R.TMP_CONFIG_tc_hairpin then some it.since else none }
      (p.2.enterLine m first p.1).retired i

/-- A received item that the retire stage takes. -/
def Dev.retireRx (i : Nat) (it : Item) (d : Dev) : Dev :=
  if it.failed.isSome then
    (match d.itemRing it with
    | some r => d.retireToRing i it r
    | none => (d.countMac it.source 9).cause macCauses 6 |>.retired i)
  else
    match it.dest with
    | some (.mac _) => d.retireHairpin i it
    | _ =>
      match d.itemRing it with
      | some r => d.retireToRing i it r
      | none => d

/-! ## Switched items (R191, R374, R379) -/

/-- A segment of a switched item before protection: orders 2 and 3 and the descriptor's tag act as on any transmit item, the rules of a
port do not (notes/assumptions/27.md). -/
def Dev.switchedFrame (d : Dev) (it : Item) (t : TxFields) (k : Nat) (f : Frame) : Frame :=
  let f := namedChecksums d.parseCfg t.csum f
  let f := if t.vlanInsert then insertTag 0x8100 t.tci f else f
  d.shape it ((d.uplinkOf it.fn).getD 0) k f

/-- The frames of a switched item before protection, `f` being the frame as the host wrote it or with its records sealed; none where the
item is malformed for segmentation (R190, R203). -/
def Dev.switchedFrames (d : Dev) (it : Item) (t : TxFields) (f : Frame) : Option (List Frame) :=
  (if t.seg then segmentFrame d.parseCfg f t.mss else some [f]).map (fun l => l.zipIdx.map (fun p => d.switchedFrame it t p.2 p.1))

/-- Does the destination take the outermost tag off? -/
def Dev.stripsFor (d : Dev) (fn : Nat) : Bool :=
  fn ≥ 16 && (match d.uplinkOf fn with
    | some m => d.on R.PPL_PORT_VLAN_strip_outer 0 (16 * m)
    | none => false)

/-- Bytes of buffers that each frame of a switched item needs at ring `g`. -/
def Dev.switchedNeeds (d : Dev) (it : Item) (g : Ring) (l : List Frame) : List Nat :=
  l.map (fun f => (if d.stripsFor g.fn then (stripTag d.parseCfg f).1.length else f.length) + (d.espAdds it f).getD 0)

/-- The timestamp record of a switched item, which has no MAC instance: that of instance 0, which its record shows, names the domain and
counts a loss (DESIGN CHOICE, notes/assumptions/91.md). The answer says whether the record was lost. -/
def Dev.switchedRecord (it : Item) (seq : Nat) (src : Ring) (d : Dev) : Bool × Dev :=
  let k := d.rd R.TMP_PORT_ts_domain 0 0
  let t := d.stampAt k 0 (addUnc (d.unc k) 256)
  let r := if src.tsEnable then d.notify src.tsRing (t.words false seq 256) else (false, d)
  if r.1 then (false, r.2) else (true, r.2.loseStamp 0 it.source false)

/-- Write one frame of a switched item to ring `r`, under ESP where the item asks for it. -/
def Dev.switchOne (it : Item) (r : Nat) (f : Frame) (d : Dev) : Dev :=
  let m := (d.uplinkOf it.fn).getD 0
  let x := match it.espOf with
    | some c => d.protectEsp m c f
    | none => (f, d)
  let d := x.2
  let p := parse d.parseCfg x.1
  let f := if d.on R.TMP_CONFIG_tc_switched && isEvent p x.1 then
      refreshUdp p (addCorrection (ptpOffset p) (((32 * d.ticks : Nat) - it.since) * 8192) x.1) else x.1
  let s := if d.stripsFor (((d.ring? r).map Ring.fn).getD 0) then stripTag d.parseCfg f else (f, none)
  d.fillRing r s.1 { hash := it.parse.hash, tci := s.2.getD 0, l3 := if p.l3 ≤ 2 then p.l3 else 0
                     l4 := if p.l4 ≤ 2 then p.l4 else 0, csum := p.csum, stripped := s.2.isSome, mark := it.verdict.mark }

/-- Write a switched item to ring `r`, which can take its frames, and owe the source's completion. -/
def Dev.deliverSwitched (i : Nat) (it : Item) (src : Ring) (r : Nat) (d : Dev) : Dev :=
  let t := src.sopFields it.descs
  let sealed := match it.tlsOf with
    | some c => d.tlsProcess c d.parseCfg it.bytes
    | none => (some it.bytes, d)
  let d := sealed.2.leaveWaiting i it
  match sealed.1.bind (d.switchedFrames it t) with
  | none => d.completeSource i 7
  | some l =>
    let d := d.takeIdents ((d.uplinkOf it.fn).getD 0) it l.length
    let d := Dev.each l (Dev.switchOne it r) d
    let cpls := src.txCpls it 0
    let last := (cpls.getLast?.map Prod.fst).getD 0
    let rec_ := if t.tsReq then d.switchedRecord it last src else (false, d)
    (Dev.each cpls (fun c d => d.owe it.source c.1 { c.2 with tsLost := rec_.1 && c.1 == last }) rec_.2).retired i

/-- The destination of a switched item was reset, or its link (R191 step 4). -/
def Dev.destReset (d : Dev) (r : Nat) : Bool :=
  match d.ring? r with
  | some g => !d.hasFn g.fn || ((d.fn g.fn).reset != .none && (d.fn g.fn).reset != .draining)
  | none => true

/-- Give up on a switched item (R191 step 3). -/
def Dev.switchTimeout (i : Nat) (it : Item) (d : Dev) : Dev :=
  if d.cplOpen it.source then
    ((d.leaveWaiting i it).refuseSource i 7 [(R.PPL_SW_TIMEOUTS_count, 1)])
  else d

/-- What the checks of the retire stage leave of a switched item: the frames it needs buffers for, or a status with its counters. A port's
length is none of them (R202). -/
def Dev.planSwitched (d : Dev) (it : Item) (t : TxFields) : Plan :=
  match d.switchedFrames it t it.bytes with
  | none => .refused 1 []
  | some l =>
    if !d.actionsOk it || l.any (fun f => (d.espAdds it f).isNone) then .refused 7 [(R.CRY_TX_REFUSED_count, 0)]
    else if l.any (fun f => !d.fitsTemplate it ((d.espAdds it f).getD 0) f) then .refused 8 [(R.PPL_TX_MTU_DROPS_count, 1)]
    else .frames 0 l

/-- Go on with a switched item at ring `r`: refused, delivered where the buffers cover it, else `wait`. -/
def Dev.trySwitched (i : Nat) (it : Item) (src : Ring) (r : Nat) (first : Bool) (wait : Dev → Dev) (d : Dev) : Dev :=
  match d.planSwitched it (src.sopFields it.descs) with
  | .refused status counts => if d.cplOpen it.source then (d.leaveWaiting i it).refuseSource i status counts else d
  | .frames _ l =>
    if !d.espCovers it l.length then (if d.cplOpen it.source then (d.leaveWaiting i it).exhaustItem i it else d)
    else
      match d.ring? r with
      | none => d
      | some g =>
        if first && d.mayFill r (d.switchedNeeds it g l) && (it.tlsOf.isNone || d.cplOpen it.source) then d.deliverSwitched i it src r
        else wait d

/-- A switched item that is next in its source ring's order. -/
def Dev.retireSwitched (i : Nat) (it : Item) (src : Ring) (d : Dev) : Dev :=
  match d.itemRing it with
  | none => d.completeSource i 3
  | some r =>
    let g := (d.ring? r).getD {}
    if d.destReset r then d.completeSource i 3
    else
      d.trySwitched i it src r g.waiting.isEmpty (fun d =>
        if d.rd R.PPL_SW_WAIT_sw_wait_us 1 = 0 ∨ 1024 * g.rxHoldKib < g.heldBytes + it.bytes.length then d.switchTimeout i it
        else d.joinWaiting i it r)

/-! ## Waiting frames (R147, R191) -/

/-- The frame at the head of a ring's waiting list, where the buffers have come. -/
def Dev.deliverWaiting (r : Nat) (d : Dev) : Dev :=
  match d.ring? r with
  | none => d
  | some g =>
    match g.waiting with
    | [] => d
    | i :: _ =>
      match d.item? i with
      | none => d.onRing r (fun g => { g with waiting := g.waiting.drop 1 })
      | some it =>
        if !d.nextInOrder i it then d
        else if it.kind = 1 then (if d.mayFill r [d.rxNeeds it] then d.deliverRx i it r else d)
        else
          match d.ring? it.source with
          | none => d
          | some src => d.trySwitched i it src r true id

/-! ## Commands -/

/-- OWED_COMPLETION_WRITE: one write of consecutive completions. -/
def execOwedCompletionWrite (ring : Nat) (s : State) : Out := s.onRun (Dev.writeOwed ring)

/-- WAITING_FRAME_DELIVERY. -/
def execWaitingFrameDelivery (ring : Nat) (s : State) : Out := s.onRun (Dev.deliverWaiting ring)

/-- SWITCHED_WAIT_EXPIRY: sw_wait_us has passed since the item began to wait. -/
def execSwitchedWaitExpiry (item : Nat) (s : State) : Out :=
  s.onRun (fun d => match d.item? item with
    | some it => if it.kind = 3 ∧ it.stage = .waiting then d.switchTimeout item it else d
    | none => d)

/-- LAUNCH_GATE_OPEN: the gate clock has reached launch − lead_ns; the item enters its instance's launch queue, or waits on where
that is full. -/
def execLaunchGateOpen (item : Nat) (s : State) : Out :=
  s.onRun (fun d => match d.item? item with
    | some it =>
      if it.stage ≠ .gated || !it.launch.all d.gateOpen then d
      else
        let d := d.onItem item (fun it => { it with stage := .retiring, launched := true })
        match d.ring? it.source with
        | some g => if d.stale it then d.squash item else d.retireTx item { it with stage := .retiring, launched := true } g
        | none => d
    | none => d)

end Sys2Proof.Machine
end

