-- ==== Sys2Proof/Machine/Roce.lean ====
section
/-!
DEFINITION. RoCEv2 (R292-R300): QPs, packets, requests, the responder, acknowledgements, retransmission, congestion notices. The
places of the BTH, RETH and AETH and the opcodes of the packets are those of the InfiniBand specification that R294 takes up
(PRESUMED, notes/assumptions/24.md).
-/

namespace Sys2Proof.Machine

/-! ## QP contexts (R295) -/

/-- A QP beside its context. -/
def Dev.qp (d : Dev) (q : Nat) : Qp := d.qps.getD q {}
def Dev.onQp (d : Dev) (q : Nat) (f : Qp → Qp) : Dev := { d with qps := d.qps.upd q {} f }

/-- Fields of a QP context. -/
def Dev.qpMtu (d : Dev) (q : Nat) : Nat := 128 * 2 ^ (max 1 (min 5 (bits (d.ctxAt q 0 4) 8 3)))
def Dev.qpRetryCnt (d : Dev) (q : Nat) : Nat := bits (d.ctxAt q 0 4) 11 3
def Dev.qpRnrRetry (d : Dev) (q : Nat) : Nat := bits (d.ctxAt q 0 4) 14 3
def Dev.qpRnrTimer (d : Dev) (q : Nat) : Nat := bits (d.ctxAt q 0 4) 22 5
def Dev.qpMac (d : Dev) (q : Nat) : Nat := bits (d.ctxAt q 4 4) 14 8
def Dev.qpDest (d : Dev) (q : Nat) : Nat := bits (d.ctxAt q 8 4) 0 24
def Dev.qpMaxRd (d : Dev) (q : Nat) : Nat := max 1 (bits (d.ctxAt q 8 4) 24 5)
def Dev.sqPsn (d : Dev) (q : Nat) : Nat := bits (d.ctxAt q 0xC 4) 0 24
def Dev.rqPsn (d : Dev) (q : Nat) : Nat := bits (d.ctxAt q 0x10 4) 0 24
def Dev.unaPsn (d : Dev) (q : Nat) : Nat := bits (d.ctxAt q 0x14 4) 0 24
def Dev.rqRing (d : Dev) (q : Nat) : Nat := bits (d.ctxAt q 0x18 4) 0 22
def Dev.qpTc (d : Dev) (q : Nat) : Nat := bits (d.ctxAt q 0x48 4) 12 6 / 8

/-- PSN arithmetic modulo 2^24 (R299). -/
def psn24 (n : Nat) : Nat := n % 2 ^ 24
def psnGap (a b : Nat) : Nat := (b + 2 ^ 24 - a) % 2 ^ 24

/-- Store sq_psn, rq_psn and una_psn. -/
def Dev.setSqPsn (q v : Nat) (d : Dev) : Dev := d.setCtx q 0xC 3 (psn24 v)
def Dev.setRqPsn (q v : Nat) (d : Dev) : Dev := d.setCtx q 0x10 3 (psn24 v)
def Dev.setUnaPsn (q v : Nat) (d : Dev) : Dev := d.setCtx q 0x14 3 (psn24 v)

/-- Counters of a QP: packets sent, received, retransmitted, sequence NAKs. -/
def Dev.countQp (q n : Nat) (k : Nat := 1) (d : Dev) : Dev := d.bumpCtx q (0x80 + 8 * n) 8 k

/-- The QPs whose receive work ring is `r`; is the ring shared by several (R296, R297)? -/
def Dev.qpsOf (d : Dev) (r : Nat) : List Nat := (d.ctxs.filter (fun q _ => d.ctxType q == 8 && d.rqRing q == r)).keys
def Dev.isRecvRing (d : Dev) (r : Nat) : Bool := !(d.qpsOf r).isEmpty
def Dev.sharedRing (d : Dev) (r : Nat) : Bool := 2 ≤ (d.qpsOf r).length

/-! ## Packets -/

/-- An IP header as the QP's context names it, for `n` bytes behind it. -/
def Dev.qpIp (d : Dev) (q n : Nat) : List Byte :=
  let dscp := bits (d.ctxAt q 0x48 4) 12 6
  let src := sliceBytes (d.ctx q) 0x20 16
  let dst := sliceBytes (d.ctx q) 0x30 16
  if d.ctxBit q 7 then beBytes (6 * 2 ^ 28 + (4 * dscp + 2) * 2 ^ 20) 4 ++ beBytes n 2 ++ beBytes (17 * 256 + 64) 2 ++ src ++ dst
  else fixV4 0 (beBytes 0x45 1 ++ beBytes (4 * dscp + 2) 1 ++ beBytes (20 + n) 2 ++ beBytes 0x4000 4 ++ beBytes (64 * 256 + 17) 2 ++
    [0, 0] ++ src.drop 12 ++ dst.drop 12)

/-- A packet of a QP: BTH, extension headers and payload in UDP, ICRC at the end (R294). -/
def Dev.rocePacket (d : Dev) (q opcode psn : Nat) (ackReq solicited : Bool) (ext payload : List Byte) : Frame :=
  let pad := (4 - payload.length % 4) % 4
  let bth := beBytes opcode 1 ++ beBytes (128 * solicited.toNat + 64 + 16 * pad) 1 ++ beBytes 0xFFFF 2 ++ beBytes (d.qpDest q) 4 ++
    beBytes (2 ^ 31 * ackReq.toNat + psn24 psn) 4
  let body := bth ++ ext ++ payload ++ List.replicate pad 0
  let n := body.length + 12
  let ip := d.qpIp q n ++ beBytes (d.ctxAt q 0x46 2) 2 ++ beBytes 4791 2 ++ beBytes n 2 ++ [0, 0] ++ body
  let f := sliceBytes (d.ctx q) 0x40 6 ++ beBytes (d.station (d.qpMac q)) 6 ++ beBytes (if d.ctxBit q 7 then 0x86DD else 0x0800) 2 ++
    ip ++ leBytes (Config.icrc ip).toNat 4
  let vid := d.ctxAt q 0x48 2 % 4096
  if vid = 0 then f else insertTag 0x8100 vid f

/-- An RETH, and an AETH with the QP's message number. -/
def reth (addr key len : Nat) : List Byte := beBytes addr 8 ++ beBytes key 4 ++ beBytes len 4
def Dev.aeth (d : Dev) (q syndrome : Nat) : List Byte := beBytes syndrome 1 ++ beBytes ((d.qp q).msn) 3

/-- Packets that `n` bytes take at the QP's path MTU. -/
def Dev.packetsFor (d : Dev) (q n : Nat) : Nat := max 1 ((n + d.qpMtu q - 1) / d.qpMtu q)

/-- The packets of a request from packet `from_` on, the first of the request having PSN `first`. A READ asks again for what has
not been placed. -/
def Dev.requestPackets (d : Dev) (w : WorkFields) (data : List Byte) (first from_ got : Nat) : List Frame :=
  let q := w.qpn
  let mtu := d.qpMtu q
  if w.opcode = 4 then
    [d.rocePacket q 0xC (first + got / mtu) true false (reth (w.remote + got) w.rkey (w.length - got)) []]
  else
    let n := d.packetsFor q w.length
    let base := if w.opcode ≤ 1 then 0 else 6
    let withImm := w.opcode % 2 == 1
    ((List.range n).filter (fun k => from_ ≤ k)).map (fun k =>
      let isLast := k + 1 == n
      let kind := if n = 1 then 4 + withImm.toNat else if k = 0 then 0 else if isLast then 2 + withImm.toNat else 1
      let ext := (if base = 6 ∧ k = 0 then reth w.remote w.rkey w.length else []) ++ (if withImm && isLast then beBytes w.imm 4 else [])
      d.rocePacket q (base + kind) (first + k) isLast (isLast && w.solicited) ext (sliceBytes data (k * mtu) mtu))

/-! ## Frames that the transports send -/

/-- Is there room for transport frames on an instance? Those that its MACsec cannot send take none. -/
def Dev.pushRoom (d : Dev) (m cls : Nat) (l : List Frame) : Bool := l.isEmpty || !d.macsecRoom m l.length || d.lineRoom m cls false l

/-- Transport frames enter the egress FIFO; those that the port's MACsec cannot send are counted, and not sent (R284). -/
def Dev.pushFrames (m cls : Nat) (l : List Frame) (d : Dev) : Dev :=
  if !d.macsecRoom m l.length then d.bump R.CRY_TX_REFUSED_count
  else
    let p := d.protectAll m none l
    p.2.enterLine m { cls := cls, bytes := [] } p.1

/-- Resent frames enter where there is room; a frame that finds none is lost, and its timer recovers it. -/
def Dev.pushLossy (m cls : Nat) (l : List Frame) (d : Dev) : Dev :=
  Dev.each l (fun f d => if d.pushRoom m cls [f] then d.pushFrames m cls [f] else d) d

/-! ## Work completions (R298) -/

/-- What a work completion says. -/
structure Wc where
  length : Nat := 0
  opcode : Nat := 0
  imm : Option Nat := none
  solicited : Bool := false
  qpn : Nat := 0
  error : Nat := 0
  deriving DecidableEq, Repr

/-- Its bytes with a status. -/
def Ring.wcBytes (g : Ring) (s status : Nat) (w : Wc) : List Byte :=
  leBytes (w.length % 2 ^ 24) 3 ++ leBytes (status % 256) 1 ++ leBytes (w.imm.getD 0) 4 ++
    leBytes (w.opcode % 16 + 16 * w.imm.isSome.toNat + 32 * w.solicited.toNat + 256 * w.qpn) 4 ++ leBytes (g.seqWord s w.error) 4

/-- A descriptor's completion stands in its place, not ready. -/
def Dev.oweWork (r s : Nat) (d : Dev) : Dev := d.oweLater r s {}

/-- It becomes ready. The status of a completion with a wc_error is not stated (notes/assumptions/2.md). -/
def Dev.endWork (r s : Nat) (w : Wc) (d : Dev) : Dev :=
  let v := if w.error = 0 then (0, d) else d.free
  (v.2.onRing r (fun g => { g with
    owed := g.owed.map (fun o => if o.seq = s ∧ o.ready = false then { o with bytes := g.wcBytes s v.1 w, ready := true } else o) })).flushOwed r

/-- A work descriptor that ends at the retire stage completes in its place; that write retires it. -/
def Dev.completeWork (i status : Nat) (w : Wc) (d : Dev) : Dev :=
  match d.item? i with
  | none => d
  | some it =>
    match d.ring? it.source with
    | none => d
    | some g =>
      if !d.cplOpen it.source then d
      else
        let st := if w.error = 0 then (status, d) else d.free
        let d := st.2.onRing it.source (fun h => { h with owed := h.owed ++ [{ seq := it.seq, bytes := g.wcBytes it.seq st.1 w }] })
        (d.flushOwed it.source).retired i

/-! ## The error state of a QP (R299) -/

/-- The fields of an outstanding request. -/
def QpReq.work (x : QpReq) : WorkFields := workFields x.desc

/-- Posted receives of a ring that no other QP uses complete as flushed; the buffer of a message in progress with them. On a shared
ring the buffer goes back. -/
def Dev.flushReceives (q : Nat) (d : Dev) : Dev :=
  let r := d.rqRing q
  let x := d.qp q
  if d.sharedRing r then
    match x.buffer with
    | some (n, b) => (d.onQp q (fun x => { x with buffer := none })).onRing n (fun g => { g with
        buffers := b :: g.buffers
        owed := g.owed.filter (fun o => o.ready || o.seq != b.seq) })
    | none => d
  else
    let d := match x.buffer with
      | some (n, b) => (d.onQp q (fun x => { x with buffer := none })).endWork n b.seq { opcode := 5, qpn := q, error := 8 }
      | none => d
    let left := ((d.ring? r).map Ring.buffers).getD []
    let d := d.onRing r (fun g => { g with buffers := [] })
    Dev.each left (fun b d => (d.oweWork r b.seq).endWork r b.seq { opcode := 5, qpn := q, error := 8 }) d

/-- Outstanding requests complete, the oldest with its error and the others flushed; posted receives follow. -/
def Dev.flushQp (q first : Nat) (d : Dev) : Dev :=
  let reqs := (d.qp q).reqs
  let d := d.onQp q (fun x => { x with reqs := [], target := none, offset := 0, owedAck := 0 })
  let d := Dev.each reqs.zipIdx (fun p d =>
    d.endWork p.1.ring p.1.seq { opcode := p.1.opcode, qpn := q, error := if p.2 = 0 then first else 8 }) d
  d.flushReceives q

/-- A QP enters state 4, with its async record. -/
def Dev.qpError (q kind psn first : Nat) (d : Dev) : Dev :=
  let w := d.ctxAt q 0 4
  let d := d.setCtx q 0 4 (w - bits w 4 3 * 16 + 64)
  let d := if d.ctxAt q 0x1C 4 / 2 ^ 22 % 2 = 1 then (d.notify (d.ctxAt q 0x1C 4 % 2 ^ 22) [kind + 256 * q, psn24 psn, 0]).2 else d
  d.flushQp q first

/-! ## Retransmission (R299) -/

/-- The packets of a resent request that are due from PSN `at_` on. -/
def Dev.resendPackets (d : Dev) (x : QpReq) (at_ : Nat) : List Frame :=
  let data := if x.own.isEmpty then (x.pieces.entries.map Prod.snd).flatten else x.own
  d.requestPackets x.work data x.first (psnGap x.first at_) x.got

/-- Send the requests at the head of the resend whose payload has come, in order. -/
def Dev.pumpResend (q : Nat) : List QpReq → Dev → Dev
  | [], d => d
  | x :: l, d =>
    match x.resend with
    | none => Dev.pumpResend q l d
    | some at_ =>
      if x.want ≠ 0 then d
      else
        let frames := d.resendPackets x at_
        let d := (d.pushLossy (d.qpMac q) (d.qpTc q) frames).countQp q 2 frames.length
        let d := d.onQp q (fun y => { y with reqs := y.reqs.map (fun z => if z.first = x.first then { z with resend := none, pieces := {} } else z) })
        Dev.pumpResend q l d

/-- Resend every packet from `psn` on: payload is read from host memory again. -/
def Dev.resendFrom (q psn : Nat) (d : Dev) : Dev :=
  let due := (d.qp q).reqs.filter (fun x => psnGap psn x.last < 2 ^ 23)
  let d := Dev.each due (fun x d =>
    let w := x.work
    let at_ := if psnGap x.first psn < 2 ^ 23 then psn else x.first
    let fn := d.ctxOwner q
    let reads := w.opcode ≤ 3 && w.length != 0 && x.own.isEmpty
    let addr := d.regionAddr w.lkey w.offset
    let n := if reads then d.requestCount fn addr w.length else 0
    let d := d.onQp q (fun y => { y with reqs := y.reqs.map (fun z =>
      if z.first = x.first then { z with resend := some at_, want := n, pieces := {} } else z) })
    if reads && d.canIssue fn then d.hostRead fn addr w.length ({ d.regionAttr x.ring w.lkey with steering := none }) (fun off _ => .resend q x.first off) else d) d
  d.pumpResend q (d.qp q).reqs

/-- A piece of a resent payload has come; a failed read fails the request (R123). -/
def Dev.resendPiece (q first off : Nat) (data : Option (List Byte)) (d : Dev) : Dev :=
  match data with
  | some b =>
    let d := d.onQp q (fun y => { y with reqs := y.reqs.map (fun z =>
      if z.first = first ∧ z.want ≠ 0 then { z with want := z.want - 1, pieces := z.pieces.set off b } else z) })
    d.pumpResend q (d.qp q).reqs
  | none => if (d.qp q).reqs.any (fun z => z.first == first) then d.qpError q 1 first 2 else d

/-- A NAK or timeout asks for a resend from `psn`, unless the tries are used up. -/
def Dev.retryFrom (q psn : Nat) (d : Dev) : Dev :=
  if d.qpRetryCnt q < (d.qp q).retries + 1 then d.qpError q 2 psn 6
  else (d.onQp q (fun x => { x with retries := x.retries + 1 })).resendFrom q psn

/-! ## Acknowledgements -/

/-- Is the request answered by an acknowledgement of `psn`? -/
def QpReq.answered (x : QpReq) (psn : Nat) : Bool := psnGap x.last psn < 2 ^ 23 && (x.opcode != 4 || x.got == x.work.length)

/-- Requests up to `psn` are acknowledged: their completions are written. -/
def Dev.ackedTo (q psn : Nat) (d : Dev) : Dev :=
  let reqs := (d.qp q).reqs
  let done := reqs.takeWhile (fun x => x.answered psn)
  let rest := reqs.drop done.length
  let fresh := psnGap (d.unaPsn q) (psn + 1) < 2 ^ 23 && psnGap (psn + 1) (d.sqPsn q) < 2 ^ 23
  let una := match rest.head? with
    | some x => if x.opcode = 4 ∧ psnGap x.first psn < 2 ^ 23 then x.first else psn + 1
    | none => psn + 1
  let d := if fresh then (d.setUnaPsn q una).onQp q (fun x => { x with retries := 0, rnrTries := 0 }) else d
  let d := d.onQp q (fun x => { x with reqs := rest })
  Dev.each done (fun x d => d.endWork x.ring x.seq { length := x.work.length, opcode := x.opcode, qpn := q }) d

/-- A received ACK or NAK. -/
def Dev.takeAck (q psn syndrome : Nat) (d : Dev) : Dev :=
  let before := psn24 (psn + 2 ^ 24 - 1)
  match syndrome / 32 with
  | 0 => d.ackedTo q psn
  | 1 =>
    let d := d.ackedTo q before
    if d.qpRnrRetry q ≠ 7 ∧ d.qpRnrRetry q < (d.qp q).rnrTries + 1 then d.qpError q 3 psn 7
    else (d.onQp q (fun x => { x with rnrTries := x.rnrTries + 1 })).resendFrom q psn
  | 3 =>
    let d := d.ackedTo q before
    match syndrome % 32 with
    | 0 => (d.countQp q 3).retryFrom q psn
    | 1 => d.qpError q 1 psn 4
    | 2 => d.qpError q 4 psn 3
    | _ => d.qpError q 1 psn 5
  | _ => d

/-- A READ response packet: placed in order at the request's local region. -/
def Dev.takeResponse (q psn : Nat) (data : List Byte) (isLast : Bool) (d : Dev) : Dev :=
  match (d.qp q).reqs.find? (fun x => x.opcode == 4 && psnGap x.first psn ≤ psnGap x.first x.last) with
  | none => d
  | some x =>
    let d := d.ackedTo q (psn24 (x.first + 2 ^ 24 - 1))
    let w := x.work
    let due := psn24 (x.first + x.got / d.qpMtu q)
    if psn ≠ due then (if psnGap due psn < 2 ^ 23 then d.retryFrom q due else d)
    else if !d.regionOk w.lkey (d.ctxOwner q) (w.offset + x.got) data.length (some 0) || w.length < x.got + data.length then
      d.qpError q 1 psn 2
    else
      let d := if data.isEmpty then d
        else d.hostWrite (d.ctxOwner q) (d.regionAddr w.lkey (w.offset + x.got)) data (d.regionAttr x.ring w.lkey)
      let d := d.onQp q (fun y => { y with reqs := y.reqs.map (fun z => if z.first = x.first then { z with got := z.got + data.length } else z) })
      if isLast then d.ackedTo q psn else d

/-! ## Congestion (R294) -/

/-- Reference ticks of 50 µs. -/
def cnpTicks : Nat := 12500

/-- A received CNP halves the rate, at most once per 50 µs. -/
def Dev.takeCnp (q : Nat) (d : Dev) : Dev :=
  if ((d.qp q).halvedAt.map (fun t => decide (d.ticks < t + cnpTicks))).getD false then d
  else d.onQp q (fun x => { x with rate := max 1 (x.rate / 2), halvedAt := some d.ticks })

/-- The CNP that a CE-marked packet causes, at most one per QP per 50 µs. -/
def Dev.cnpFrames (q : Nat) (marked : Bool) (d : Dev) : List Frame × Dev :=
  if !marked || ((d.qp q).cnpAt.map (fun t => decide (d.ticks < t + cnpTicks))).getD false then ([], d)
  else ([d.rocePacket q 0x81 0 false false (List.replicate 16 0) []], d.onQp q (fun x => { x with cnpAt := some d.ticks }))

/-! ## Requests at the retire stage (R292, R297, R299) -/

/-- Must a request wait: too many PSNs unacknowledged, too many READs, or a fence behind one? -/
def Dev.requestWaits (d : Dev) (w : WorkFields) : Bool :=
  let q := w.qpn
  let n := d.packetsFor q w.length
  let reads := ((d.qp q).reqs.filter (fun x => x.opcode == 4)).length
  2 ^ 23 - 1 < psnGap (d.unaPsn q) (d.sqPsn q) + n || (w.opcode == 4 && d.qpMaxRd q ≤ reads) || (w.fence && reads != 0)

/-- A RoCE work item that is next in order: its packets take their PSNs and enter the FIFO. -/
def Dev.retireWork (i : Nat) (it : Item) (d : Dev) : Dev :=
  let w := it.work
  let q := w.qpn
  if it.failed.isSome then d.completeWork i 6 { opcode := w.opcode, qpn := q }
  else if it.status ≠ 0 then d.completeWork i it.status { opcode := w.opcode, qpn := q }
  else if d.ctxType q ≠ 8 ∨ d.qpState q ≠ 3 then d.completeWork i 0 { opcode := w.opcode, qpn := q, error := 8 }
  else if w.opcode ≤ 3 ∧ it.bytes.length ≠ w.length then d.completeWork i 0 { opcode := w.opcode, qpn := q, error := 2 }
  else if d.requestWaits w then d
  else
    let first := d.sqPsn q
    let n := d.packetsFor q w.length
    let frames := d.requestPackets w it.bytes first 0 0
    if !d.macsecRoom (d.qpMac q) frames.length then
      (if d.cplOpen it.source then (d.bump R.CRY_TX_REFUSED_count).completeWork i 7 { opcode := w.opcode, qpn := q } else d)
    else if !d.pushRoom (d.qpMac q) (d.qpTc q) frames then d
    else
      let d := (d.setSqPsn q (first + n)).countQp q 0 frames.length
      let d := d.onQp q (fun x => { x with reqs := x.reqs ++
        [{ ring := it.source, seq := it.seq, desc := (it.descs.head?.map Desc.bytes).getD [], opcode := w.opcode
           first := first, last := psn24 (first + n - 1) }] })
      ((d.oweWork it.source it.seq).pushFrames (d.qpMac q) (d.qpTc q) frames).retired i

/-! ## The responder (R300) -/

/-- Fields of a received packet. -/
structure Bth where
  opcode : Nat
  solicited : Bool
  psn : Nat
  ackReq : Bool
  ext : Nat          -- offset of what follows the BTH
  stop : Nat         -- end of the payload
  deriving DecidableEq, Repr

/-- Read the BTH of a frame. -/
def bthOf (p : Parse) (f : Frame) : Bth :=
  let o := p.offL4 + 8
  { opcode := byteAt f o
    solicited := hasBit (byteAt f (o + 1)) 7
    psn := beAt f (o + 9) 3
    ackReq := hasBit (byteAt f (o + 8)) 7
    ext := o + 12
    stop := (p.ip.map Ip.endL4).getD 0 - 4 - bits (byteAt f (o + 1)) 4 2 }

/-- A NAK frame. -/
def Dev.nak (d : Dev) (q syndrome psn : Nat) : List Frame := [d.rocePacket q 0x11 psn false false (d.aeth q syndrome) []]

/-- An ACK of `psn`. -/
def Dev.ackFrame (d : Dev) (q psn : Nat) : List Frame := [d.rocePacket q 0x11 psn false false (d.aeth q 0x1F) []]

/-- A request of the peer that the QP cannot take: a NAK, and the error state. -/
def Dev.respondError (q syndrome kind psn recvError : Nat) (d : Dev) : List Frame × Dev :=
  let l := d.nak q syndrome psn
  let d := match (d.qp q).buffer with
    | some (r, b) => if d.sharedRing r then d
        else (d.onQp q (fun x => { x with buffer := none })).endWork r b.seq { opcode := 5, qpn := q, error := recvError }
    | none => d
  (l, d.qpError q kind psn 8)

/-- A packet was placed: rq_psn advances by `n`; it is acknowledged when asked for, and every 16 packets. -/
def Dev.placed (q n : Nat) (ask endsMessage : Bool) (d : Dev) : List Frame × Dev :=
  let psn := psn24 (d.rqPsn q + n - 1)
  let d := (d.setRqPsn q (psn + 1)).onQp q (fun x => { x with
    nakOut := false
    msn := if endsMessage then psn24 (x.msn + 1) else x.msn
    owedAck := x.owedAck + 1 })
  if ask || 16 ≤ (d.qp q).owedAck then (d.ackFrame q psn, d.onQp q (fun x => { x with owedAck := 0 })) else ([], d)

/-- Take the next buffer of the QP's receive ring for a message. -/
def Dev.takeRecv (q : Nat) (d : Dev) : Option (Nat × Desc) × Dev :=
  let r := d.rqRing q
  match (d.qp q).buffer with
  | some b => (some b, d)
  | none =>
    match ((d.ring? r).map Ring.buffers).getD [] with
    | [] => (none, d)
    | b :: rest =>
      let d := (d.onRing r (fun g => { g with buffers := rest })).oweWork r b.seq
      (some (r, b), d.onQp q (fun x => { x with buffer := some (r, b) }))

/-- A message ends in its buffer. -/
def Dev.endRecv (q : Nat) (b : Nat × Desc) (w : Wc) (d : Dev) : Dev :=
  (d.onQp q (fun x => { x with buffer := none, offset := 0 })).endWork b.1 b.2.seq { w with opcode := 5, qpn := q }

/-- A SEND packet in order. -/
def Dev.respondSend (q : Nat) (b : Bth) (f : Frame) (d : Dev) : List Frame × Dev :=
  let starts := b.opcode == 0 || 4 ≤ b.opcode
  let ends := 2 ≤ b.opcode
  let withImm := b.opcode == 3 || b.opcode == 5
  let at_ := b.ext + (if withImm then 4 else 0)
  let data := sliceBytes f at_ (b.stop - at_)
  if starts == (d.qp q).buffer.isSome || (d.qp q).target.isSome then d.respondError q 0x61 1 b.psn 4
  else
    match d.takeRecv q with
    | (none, d) => (d.nak q (0x20 + d.qpRnrTimer q) b.psn, d)
    | (some buf, d) =>
      let w := workFields buf.2.bytes
      let off := if starts then 0 else (d.qp q).offset
      if w.length < off + data.length then d.respondError q 0x61 1 b.psn 1
      else if !d.regionOk w.lkey (d.ctxOwner q) (w.offset + off) data.length (some 0) then d.respondError q 0x63 1 b.psn 2
      else
        let d := if data.isEmpty then d
          else d.hostWrite (d.ctxOwner q) (d.regionAddr w.lkey (w.offset + off)) data (d.regionAttr (d.rqRing q) w.lkey)
        let d := d.onQp q (fun x => { x with offset := off + data.length })
        let p := d.placed q 1 b.ackReq ends
        if ends then (p.1, p.2.endRecv q buf { length := off + data.length, imm := if withImm then some (beAt f b.ext 4) else none
                                               solicited := b.solicited })
        else p

/-- A WRITE packet in order. -/
def Dev.respondWrite (q : Nat) (b : Bth) (f : Frame) (d : Dev) : List Frame × Dev :=
  let k := b.opcode - 6
  let starts := k == 0 || 4 ≤ k
  let ends := 2 ≤ k
  let withImm := k == 3 || k == 5
  let at_ := b.ext + (if starts then 16 else 0)
  let imm := beAt f at_ 4
  let at_ := at_ + (if withImm then 4 else 0)
  let data := sliceBytes f at_ (b.stop - at_)
  if starts == (d.qp q).target.isSome || (d.qp q).buffer.isSome then d.respondError q 0x61 1 b.psn 4
  else
    let t := if starts then (beAt f b.ext 8, beAt f (b.ext + 8) 4, beAt f (b.ext + 12) 4) else (d.qp q).target.getD (0, 0, 0)
    let c := keyRegion t.2.1
    let off := (t.1 + 2 ^ 64 - d.ctxField c 0) % 2 ^ 64
    if t.2.2 < data.length || (ends && t.2.2 != data.length) then d.respondError q 0x61 1 b.psn 4
    else if t.2.2 ≠ 0 ∧ d.regionOk t.2.1 (d.ctxOwner q) off t.2.2 (some 2) = false then d.respondError q 0x62 4 b.psn 3
    else if withImm && (((d.ring? (d.rqRing q)).map Ring.buffers).getD []).isEmpty then (d.nak q (0x20 + d.qpRnrTimer q) b.psn, d)
    else
      let d := if data.isEmpty then d else d.hostWrite (d.ctxOwner q) t.1 data (d.regionAttr (d.rqRing q) t.2.1)
      let got := (if starts then 0 else (d.qp q).offset) + data.length
      let d := d.onQp q (fun x => { x with
        target := if ends then none else some ((t.1 + data.length) % 2 ^ 64, t.2.1, t.2.2 - data.length)
        offset := if ends then 0 else got })
      let p := d.placed q 1 b.ackReq ends
      if !withImm then p
      else
        match p.2.takeRecv q with
        | (some buf, d) => (p.1, d.endRecv q buf { length := got, imm := some imm, solicited := b.solicited })
        | (none, d) => (p.1, d)

/-- The response packets of a READ whose data has come. -/
def Dev.responsePackets (d : Dev) (q psn : Nat) (data : List Byte) : List Frame :=
  let mtu := d.qpMtu q
  let n := d.packetsFor q data.length
  (List.range n).map (fun k =>
    let ends := k == 0 || k + 1 == n
    let op := if n = 1 then 0x10 else if k = 0 then 0xD else if k + 1 = n then 0xF else 0xE
    d.rocePacket q op (psn + k) false false (if ends then d.aeth q 0x1F else []) (sliceBytes data (k * mtu) mtu))

/-- A READ request, in order or a duplicate, whose data item `it` has read. -/
def Dev.respondRead (q : Nat) (it : Item) (b : Bth) (fresh : Bool) (d : Dev) : List Frame × Dev :=
  let f := it.bytes
  let len := beAt f (b.ext + 12) 4
  if it.readBad then d.respondError q 0x63 1 b.psn 5
  else
    let data := (it.pieces.entries.map Prod.snd).flatten
    let d := if fresh then
        (d.setRqPsn q (b.psn + d.packetsFor q len)).onQp q (fun x => { x with nakOut := false, msn := psn24 (x.msn + 1), owedAck := 0 })
      else d
    (d.responsePackets q b.psn data, d)

/-- What a received packet does and which frames it causes. -/
def Dev.respond (q : Nat) (it : Item) (b : Bth) (d : Dev) : List Frame × Dev :=
  let f := it.bytes
  let ahead := psnGap (d.rqPsn q) b.psn
  if b.opcode = 0x81 then ([], d.takeCnp q)
  else if b.opcode = 0x11 then ([], d.takeAck q b.psn (byteAt f b.ext))
  else if 0xD ≤ b.opcode ∧ b.opcode ≤ 0x10 then
    let at_ := b.ext + (if b.opcode = 0xE then 0 else 4)
    ([], d.takeResponse q b.psn (sliceBytes f at_ (b.stop - at_)) (b.opcode != 0xD && b.opcode != 0xE))
  else if 0xC < b.opcode then ([], d)
  else if ahead = 0 then
    (if b.opcode ≤ 5 then d.respondSend q b f
    else if b.opcode ≤ 0xB then d.respondWrite q b f
    else d.respondRead q it b true)
  else if 2 ^ 23 ≤ ahead then
    (if b.opcode = 0xC then d.respondRead q it b false else (d.ackFrame q (psn24 (d.rqPsn q + 2 ^ 24 - 1)), d))
  else if (d.qp q).nakOut then ([], d)
  else (d.nak q 0x60 (d.rqPsn q), (d.countQp q 3).onQp q (fun x => { x with nakOut := true }))

/-- Does the item still have to read the data of a READ? -/
def Dev.readDue (d : Dev) (q : Nat) (it : Item) (b : Bth) : Bool :=
  let ahead := psnGap (d.rqPsn q) b.psn
  b.opcode == 0xC && (ahead == 0 || 2 ^ 23 ≤ ahead) && !it.readIssued

/-- A received RoCE packet that is next in order. -/
def Dev.retireRoce (i : Nat) (it : Item) (q : Nat) (d : Dev) : Dev :=
  let b := bthOf it.parse it.bytes
  let fn := d.ctxOwner q
  if d.ctxType q ≠ 8 ∨ it.failed.isSome ∨ (d.qpState q ≠ 2 ∧ d.qpState q ≠ 3) then d.retired i
  else if !d.canIssue fn then d
  else if d.readDue q it b then
    let addr := beAt it.bytes b.ext 8
    let key := beAt it.bytes (b.ext + 8) 4
    let len := beAt it.bytes (b.ext + 12) 4
    let off := (addr + 2 ^ 64 - d.ctxField (keyRegion key) 0) % 2 ^ 64
    if len ≠ 0 ∧ d.regionOk key fn off len (some 1) = false then
      let r := d.respondError q 0x62 4 b.psn 3
      if d.pushRoom (d.qpMac q) (d.qpTc q) r.1 then (r.2.pushFrames (d.qpMac q) (d.qpTc q) r.1).retired i else d
    else
      let d := d.onItem i (fun it => { it with readIssued := true, want := 0, pieces := {} })
      if len = 0 then d else d.readSegments i fn ({ d.regionAttr (d.rqRing q) key with steering := none }) [(addr, len)] 0
  else if it.want ≠ 0 then d
  else
    let cnp := (d.countQp q 1).cnpFrames q ((it.parse.ip.map (fun x => x.ecn == 3)).getD false && b.opcode != 0x81)
    let r := cnp.2.respond q it b
    let frames := cnp.1 ++ r.1
    if d.pushRoom (d.qpMac q) (d.qpTc q) frames then
      ((r.2.countQp q 0 frames.length).pushFrames (d.qpMac q) (d.qpTc q) frames).retired i
    else d

/-! ## Work descriptors -/

/-- A receive posted for a QP in state 4 completes as flushed, where no other QP uses its ring (R299). -/
def Dev.flushLateReceives (r : Nat) (d : Dev) : Dev :=
  match d.qpsOf r with
  | [q] => if d.qpState q = 4 then d.flushReceives q else d
  | _ => d

/-- Take the work descriptor at the head of ring `r`, where its opcode is `want` (5 stands for 5 and above). -/
def Dev.takeWork (r want : Nat) (d : Dev) : Dev :=
  match d.ring? r with
  | none => d
  | some g =>
    match g.accepted with
    | [] => d
    | x :: rest =>
      let w := workFields x.bytes
      if g.kind ≠ 2 ∨ min 5 w.opcode ≠ want then d
      else
        let it := d.ringItem r g 2 [x]
        let d := d.onRing r (fun g => { g with accepted := rest, saved := g.saved - 1 })
        if d.isRecvRing r then
          if w.opcode = 5 ∧ w.reserved = false ∧ w.qpn = 0 then (d.onRing r (fun g => { g with buffers := g.buffers ++ [x] })).flushLateReceives r
          else d.directItem it 1
        else if d.sendOk g.fn w then (d.addItem it).2
        else d.directItem it 1

/-! ## Commands -/

def execSend (ring : Nat) (s : State) : Out := s.onRun (Dev.takeWork ring 0)
def execSendWithImmediate (ring : Nat) (s : State) : Out := s.onRun (Dev.takeWork ring 1)
def execRdmaWrite (ring : Nat) (s : State) : Out := s.onRun (Dev.takeWork ring 2)
def execRdmaWriteWithImmediate (ring : Nat) (s : State) : Out := s.onRun (Dev.takeWork ring 3)
def execRdmaRead (ring : Nat) (s : State) : Out := s.onRun (Dev.takeWork ring 4)

/-- RECV: a posted buffer joins its ring; on a send ring such a descriptor is malformed. -/
def execRecv (ring : Nat) (s : State) : Out := s.onRun (Dev.takeWork ring 5)

/-- CNP_RATE_STEP: 50 µs have passed without a CNP. -/
def execCnpRateStep (qpn : Nat) (s : State) : Out :=
  s.onRun (fun d => if d.ctxType qpn = 8 then d.onQp qpn (fun x => { x with rate := min 65536 (x.rate + 1024) }) else d)

end Sys2Proof.Machine
end

