-- ==== Sys2Proof/Machine/Nvme.lean ====
section
/-!
DEFINITION. Virtual NVMe controllers (R301, R302, R305): properties, doorbells, submission and completion queues, the admin commands
that firmware executes, the I/O commands as items, protection information. Property offsets, opcodes, status codes and entry
layouts are those of NVM Express, which R301 takes up without giving them (PRESUMED, notes/assumptions/24.md).
-/

namespace Sys2Proof.Machine

/-- The controller of a function. -/
def Dev.nvme (d : Dev) (fn : Nat) : Nvme := d.nvmes.getD fn {}
def Dev.onNvme (d : Dev) (fn : Nat) (f : Nvme → Nvme) : Dev := { d with nvmes := d.nvmes.upd fn {} f }

/-- May the function be a controller? -/
def Dev.isNvme (d : Dev) (fn : Nat) : Bool := d.vfKind fn == 2 && d.die.variant.hasSto && d.hasFn fn

/-- STO_STATUS counts the enabled controllers. -/
def Dev.countControllers (d : Dev) : Dev := d.wr R.STO_STATUS_controllers (d.nvmes.filter (fun _ x => x.ready)).size

/-- An STO record, or its loss (R308). -/
def Dev.stoRecord (kind c : Nat) (d : Dev) : Dev :=
  let r := if d.on R.STO_NOTIFY_valid then d.notify (d.rd R.STO_NOTIFY_ring) [kind + 256 * c, 0, 0] else (false, d)
  if r.1 then r.2 else (r.2.bump R.STO_NOTIFY_LOST_count).cause stoCauses 4

/-! ## Completion queues -/

/-- Statuses of NVM Express: status code, and status code type times 256. -/
def nvSuccess : Nat := 0
def nvBadOpcode : Nat := 1
def nvBadField : Nat := 2
def nvDataError : Nat := 4
def nvInternal : Nat := 6
def nvAborted : Nat := 7
def nvBadNamespace : Nat := 0x0B
def nvTransient : Nat := 0x22
def nvRange : Nat := 0x80

/-- Has a completion queue room? -/
def Cq.room (c : Cq) : Bool := (c.tail + 1) % max 1 c.size != c.head

/-- Write the oldest completion due, where its queue has room and the host can be reached. -/
def Dev.postOwed (fn : Nat) (d : Dev) : Dev :=
  let x := d.nvme fn
  match x.owed with
  | [] => d
  | (q, cid, status, result) :: rest =>
    match x.sqs.get? q with
    | none => d.onNvme fn (fun x => { x with owed := rest })
    | some s =>
      match x.cqs.get? s.cq with
      | none => d.onNvme fn (fun x => { x with owed := rest })
      | some c =>
        if !c.room || !d.canIssue fn then d
        else
          let w3 := cid + 65536 * c.phase.toNat + 2 ^ 17 * status
          let bytes := leBytes result 4 ++ leBytes 0 4 ++ leBytes (s.nextSeq % max 1 s.size + 65536 * q) 4 ++ leBytes w3 4
          let wraps := c.tail + 1 == c.size
          let d := d.onNvme fn (fun x => { x with
            owed := rest
            cqs := x.cqs.set s.cq { c with tail := (c.tail + 1) % max 1 c.size, phase := if wraps then !c.phase else c.phase } })
          let d := d.hostWrite fn (c.base + 16 * c.tail) bytes {}
          if c.irq then d.sendVector fn c.vector else d

/-- Write what is due, in the order it came due. -/
def Dev.flushNvme (fn : Nat) (d : Dev) : Dev := Dev.each (List.range (d.nvme fn).owed.length) (fun _ d => d.postOwed fn) d

/-- A command of queue `q` completes. -/
def Dev.completeNvme (fn q cid status result : Nat) (d : Dev) : Dev :=
  (d.onNvme fn (fun x => { x with owed := x.owed ++ [(q, cid, status, result)] })).flushNvme fn

/-! ## Asynchronous events -/

/-- An event meets a held Asynchronous Event Request, or waits for one. -/
def Dev.nvmeEvent (fn ev : Nat) (d : Dev) : Dev :=
  match (d.nvme fn).aers with
  | [] => d.onNvme fn (fun x => { x with events := x.events ++ [ev] })
  | cid :: rest => (d.onNvme fn (fun x => { x with aers := rest })).completeNvme fn 0 cid nvSuccess ev

/-! ## Submission queues (R302) -/

/-- The connections of a controller: those of its namespaces. -/
def Dev.connsOf (d : Dev) (fn : Nat) : List Nat :=
  ((d.ctxs.filter (fun c _ => d.ctxType c == 11 && d.ctxOwner c == fn)).keys.map (fun c => d.ctxField c 0)).dedup

/-- Is the deep buffer full, or the share of one of the controller's connections? -/
def Dev.deepFull (d : Dev) (fn : Nat) : Bool :=
  !(d.connsOf fn).isEmpty && d.deepRoom ≤ d.deepHeld || (d.connsOf fn).any (fun c => d.deepLimit ≤ (d.conns.getD c {}).deep)

/-- Entries posted and not read. -/
def Sq.eligible (s : Sq) : Nat := (s.tail + s.size - s.fetchPos) % max 1 s.size

/-- Entries being read. -/
def Sq.inFlight (s : Sq) : Nat := (s.fetchPos + s.size - s.nextSeq % max 1 s.size) % max 1 s.size

/-- Read posted entries as far as the scheduler gives credit (R310); an I/O queue waits while the deep buffer has no room (R306). -/
def Dev.fetchSq (fn q : Nat) (d : Dev) : Dev :=
  match (d.nvme fn).sqs.get? q with
  | none => d
  | some s =>
    let n := min s.eligible (64 - min 64 s.inFlight)
    if n = 0 ∨ d.canIssue fn = false ∨ (d.fn fn).reset ≠ .none ∨ d.boot.shutdown = true ∨ (d.nvme fn).closing = true then d
    else if q ≠ 0 ∧ d.deepFull fn = true then (d.bump R.STO_DEEP_WAITS_count).cause stoCauses 3
    else if d.creditOpen (d.sqChain fn q) false = false then d
    else if d.capReached then d.markCapped
    else
      let runs := fetchRuns s.size 64 n s.fetchPos n
      let d := d.onNvme fn (fun x => { x with sqs := x.sqs.set q { s with fetchPos := (s.fetchPos + n) % max 1 s.size } })
      Dev.each runs (fun p d => d.hostRead fn (s.base + 64 * p.1) (64 * p.2) {} (fun off _ => .submission fn q (p.1 + off / 64))) d

/-- Stamp what has landed, in order. -/
def Sq.stamp : Nat → Sq → Sq
  | 0, s => s
  | fuel + 1, s =>
    match s.landed.get? (s.nextSeq % max 1 s.size) with
    | none => s
    | some b =>
      Sq.stamp fuel { s with
        landed := s.landed.erase (s.nextSeq % max 1 s.size)
        nextSeq := (s.nextSeq + 1) % 2 ^ 48
        accepted := s.accepted ++ [(s.nextSeq, b)] }

/-- An accepted entry is debited; what its length is as the scheduler counts it is not stated (notes/assumptions/22.md). -/
def Dev.debitSq (fn q : Nat) (d : Dev) : Dev :=
  let (n, d) := d.free
  d.debit (d.sqChain fn q) (n % 2 ^ 32) false true

/-- Submission entries have come; in an orderly shutdown none is accepted any more (R78). Requests that are no multiple of 64 bytes do not arise. -/
def Dev.landSubmissions (fn q first : Nat) (data : List Byte) (d : Dev) : Dev :=
  let count (d : Dev) : Nat := (((d.nvme fn).sqs.get? q).map (fun s => s.accepted.length)).getD 0
  if d.boot.shutdown then d
  else
    let e := d.onNvme fn (fun x => { x with sqs := x.sqs.modify q (fun s =>
      Sq.stamp s.size { s with landed := (List.range (data.length / 64)).foldl (fun m k => m.set (first + k) (sliceBytes data (64 * k) 64)) s.landed }) })
    (Dev.each (List.range (count e - count d)) (fun _ d => d.debitSq fn q) e).fetchSq fn q

/-- A doorbell that is ignored (R302): counted, and reported by an event (error status, invalid doorbell write value). -/
def Dev.badSqDoorbell (fn : Nat) (d : Dev) : Dev := ((d.bump R.STO_BAD_DOORBELLS_count).cause stoCauses 6).nvmeEvent fn 0x010100

/-- A tail doorbell. -/
def Dev.sqDoorbell (fn q tail : Nat) (d : Dev) : Dev :=
  if !d.doorbellOpen fn || !d.isNvme fn || (d.nvme fn).closing then d
  else
    match (d.nvme fn).sqs.get? q with
    | none => d.badSqDoorbell fn
    | some s =>
      let advance := (tail + s.size - s.tail) % max 1 s.size
      let posted := (s.tail + s.size - s.nextSeq % max 1 s.size) % max 1 s.size
      if s.size ≤ tail ∨ s.size - 1 < posted + advance then d.badSqDoorbell fn
      else (d.onNvme fn (fun x => { x with sqs := x.sqs.set q { s with tail := tail } })).fetchSq fn q

/-- A head doorbell of a completion queue. -/
def Dev.cqDoorbell (fn q head : Nat) (d : Dev) : Dev :=
  match (d.nvme fn).cqs.get? q with
  | none => d.badSqDoorbell fn
  | some c => if c.size ≤ head then d.badSqDoorbell fn
    else (d.onNvme fn (fun x => { x with cqs := x.cqs.set q { c with head := head } })).flushNvme fn

/-! ## Properties -/

/-- CAP (R301). -/
def nvmeCap : Nat := 4095 + 2 ^ 16 + 2 ^ 24 * 100 + 2 ^ 37 + 2 ^ 52 * 4

/-- The value of a property register (CSTS shows a shutdown that CC.SHN asks for as complete), or of a doorbell, at an offset of the range. -/
def Dev.nvmeRead (d : Dev) (fn off : Nat) : Nat :=
  let x := d.nvme fn
  match off with
  | 0x00 => nvmeCap % 2 ^ 32
  | 0x04 => nvmeCap / 2 ^ 32
  | 0x08 => 0x00020000
  | 0x0C => x.intMask
  | 0x10 => x.intMask
  | 0x14 => x.cc
  | 0x1C => x.ready.toNat + (if bits x.cc 14 2 = 0 then 0 else 8)
  | 0x24 => x.aqa
  | 0x28 => x.asq % 2 ^ 32
  | 0x2C => x.asq / 2 ^ 32
  | 0x30 => x.acq % 2 ^ 32
  | 0x34 => x.acq / 2 ^ 32
  | _ => 0

/-- Empty the controller (CC.EN is clear and nothing remains). -/
def Dev.nvmeCleared (fn : Nat) (d : Dev) : Dev :=
  let d := d.onNvme fn (fun x => { x with
    ready := false, closing := false, sqs := {}, cqs := {}, aers := [], events := [], owed := [] })
  let d := { d with epilogues := d.epilogues.modify fn (fun e => { e with ready := true }) }
  let d := if (d.fn fn).busMaster then d.sendEpilogue fn else d
  (d.countControllers.cause stoCauses 5).stoRecord 3 fn

/-- Has a controller that closes nothing left in the device? -/
def Dev.checkClosed (fn : Nat) (d : Dev) : Dev :=
  if (d.nvme fn).closing && d.items.vals.all (fun it => (it.nvme.map Prod.fst) != some fn) then d.nvmeCleared fn else d

/-- Is an item where a reset squashes it at once (R426)? -/
def Item.squashable (it : Item) : Bool := it.stage != .delivered && it.stage != .running && it.stage != .crypto

/-- Commands that a controller has accepted and not taken up, and commands whose answers it awaits. -/
def Dev.nvmeHeld (d : Dev) (fn : Nat) : Nat := ((d.nvme fn).sqs.vals.map (fun s => s.accepted.length)).sum
def Dev.nvmeOutstanding (d : Dev) (fn : Nat) : Nat :=
  ((d.conns.vals.flatMap Conn.cmds ++ d.qps.vals.flatMap Qp.cmds).filter (fun k => k.fn == fn)).length

/-- The region of a command's buffers is invalidated (R303). -/
def Dev.dropRegion (k : NvmeCmd) (d : Dev) : Dev :=
  match k.region with
  | some key => { d with ctxs := d.ctxs.erase (key / 256) }
  | none => d

/-- CC.EN is cleared (R302): its accepted work is squashed with cause 5, its outstanding commands are forgotten and counted with it
(R307), its connections are closed. -/
def Dev.nvmeDisable (fn : Nat) (d : Dev) : Dev :=
  let x := d.nvme fn
  if !hasBit x.cc 0 then d
  else
    let conns := d.connsOf fn
    let held := d.nvmeHeld fn + d.nvmeOutstanding fn
    let regions := (d.qps.vals.flatMap Qp.cmds).filter (fun k => k.fn == fn)
    let d := d.onNvme fn (fun x => { x with
      cc := clearBit x.cc 0, closing := true, sqs := x.sqs.mapVals (fun _ s => { s with accepted := [], saved := 0, landed := {} }) })
    let d := { d with
      conns := conns.foldl (fun m k => m.erase k) d.conns
      qps := d.qps.mapVals (fun _ q => { q with cmds := q.cmds.filter (fun c => c.fn != fn) })
      epilogues := if (d.fn fn).reset = .none then d.epilogues.set fn { cause := 5, oldGen := (d.fn fn).gen }
        else d.epilogues.modify fn (fun e => { e with merged := true }) }
    let d := (Dev.each regions Dev.dropRegion d).countAbandoned fn held
    let gone := (d.items.filter (fun _ it => (it.nvme.map Prod.fst) == some fn && it.squashable)).keys
    (Dev.each gone Dev.squash (d.killReads fn false)).checkClosed fn

/-- A connection as firmware sets it up: the sequence numbers that TCP chose are free (notes/assumptions/2.md). -/
def Dev.openConn (c : Nat) (d : Dev) : Dev :=
  let a := d.free
  let b := a.2.free
  let mss := max 1 (b.2.ctxField c 7)
  { b.2 with conns := b.2.conns.set c {
      sndNxt := a.1 % 2 ^ 32, sndUna := a.1 % 2 ^ 32, rcvNxt := b.1 % 2 ^ 32, cwnd := 3 * mss, ssthresh := 65535 } }

/-- CC.EN is set: the admin queues take effect, and firmware sets the connections up. -/
def Dev.nvmeEnable (fn : Nat) (d : Dev) : Dev :=
  let x := d.nvme fn
  if !d.isNvme fn || hasBit x.cc 0 || x.closing then d
  else
    let d := d.onNvme fn (fun x => { x with
      cc := setBit x.cc 0
      ready := true
      sqs := ({} : NMap Sq).set 0 { base := x.asq / 4096 * 4096, size := x.aqa % 4096 + 1 }
      cqs := ({} : NMap Cq).set 0 { base := x.acq / 4096 * 4096, size := bits x.aqa 16 12 + 1, irq := true } })
    let fresh := (d.connsOf fn).filter (fun c => d.ctxType c == 10 && !d.conns.has c)
    ((Dev.each fresh Dev.openConn d).freshBalance (sqLeaf fn 0)).countControllers

/-- A write of a property register or doorbell. -/
def Dev.nvmeWrite (fn off v : Nat) (d : Dev) : Dev :=
  if !d.isNvme fn then d
  else if 0x1000 ≤ off then
    (if off % 8 = 0 then d.sqDoorbell fn ((off - 0x1000) / 8) (v % 65536) else d.cqDoorbell fn ((off - 0x1000) / 8) (v % 65536))
  else
    match off with
    | 0x0C => d.onNvme fn (fun x => { x with intMask := x.intMask ||| v })
    | 0x10 => d.onNvme fn (fun x => { x with intMask := x.intMask &&& (2 ^ 32 - 1 - v % 2 ^ 32) })
    | 0x14 =>
      let was := hasBit (d.nvme fn).cc 0
      let d := d.onNvme fn (fun x => { x with cc := v % 2 ^ 32 / 2 * 2 + bit x.cc 0 })
      if hasBit v 0 && !was then d.nvmeEnable fn else if !hasBit v 0 && was then d.nvmeDisable fn else d
    | 0x24 => d.onNvme fn (fun x => { x with aqa := v % 2 ^ 32 })
    | 0x28 => d.onNvme fn (fun x => { x with asq := x.asq / 2 ^ 32 * 2 ^ 32 + v })
    | 0x2C => d.onNvme fn (fun x => { x with asq := x.asq % 2 ^ 32 + 2 ^ 32 * v })
    | 0x30 => d.onNvme fn (fun x => { x with acq := x.acq / 2 ^ 32 * 2 ^ 32 + v })
    | 0x34 => d.onNvme fn (fun x => { x with acq := x.acq % 2 ^ 32 + 2 ^ 32 * v })
    | _ => d

/-! ## Admin commands, executed by firmware (R301) -/

/-- Opcodes that the admin queue, and an I/O queue, offers. -/
def adminOpcodes : List Nat := [0, 1, 2, 4, 5, 6, 8, 9, 10, 12]
def ioOpcodes : List Nat := [0, 1, 2, 8, 9]

/-- The command at the head of the admin queue, where its opcode is `want`; a head with an opcode that is not offered completes as
such instead. -/
def Dev.adminCommand (fn want : Nat) (act : NvmeFields → Dev → Dev) (d : Dev) : Dev :=
  match (d.nvme fn).sqs.get? 0 with
  | none => d
  | some s =>
    match s.accepted with
    | [] => d
    | (_, b) :: rest =>
      let x := nvmeFields b
      let taken (d : Dev) : Dev := d.onNvme fn (fun x => { x with sqs := x.sqs.set 0 { s with accepted := rest, saved := s.saved - 1 } })
      if x.opcode = want then act x (taken d)
      else if adminOpcodes.contains x.opcode then d
      else (taken d).completeNvme fn 0 x.cid nvBadOpcode 0

/-- Complete an admin command. -/
def Dev.adminDone (fn : Nat) (x : NvmeFields) (status result : Nat) (d : Dev) : Dev := d.completeNvme fn 0 x.cid status result

/-- Write a data buffer of an admin command; one that needs a list of its own is refused as an invalid field. -/
def Dev.adminData (fn : Nat) (x : NvmeFields) (data : List Byte) (d : Dev) : Dev :=
  match nvmeWalk x (d.nvme fn).page data.length {} with
  | .done segs =>
    let offs := segs.zipIdx.map (fun p => (p.1.1, ((segs.take p.2).map Prod.snd).sum, p.1.2))
    (Dev.each offs (fun p d => d.hostWrite fn p.1 (sliceBytes data p.2.1 p.2.2) {}) d).adminDone fn x nvSuccess 0
  | _ => d.adminDone fn x nvBadField 0

/-- `n` bytes that the spec leaves to firmware. -/
def Dev.freeBytes (n : Nat) (d : Dev) : List Byte × Dev :=
  ((List.range n).map (Config.freeByte d.freeCtr), { d with freeCtr := d.freeCtr + 1 })

/-- The namespaces of a controller, rising from above `after`. -/
def Dev.namespaces (d : Dev) (fn after : Nat) : List Nat :=
  (((d.ctxs.filter (fun c _ => d.ctxType c == 11 && d.ctxOwner c == fn)).keys.map (fun c => d.ctxField c 9)).filter (after < ·)).mergeSort (· ≤ ·)

/-- Identify: CNS 2 lists the active namespaces; the other structures hold what firmware puts there. -/
def Dev.nvmeIdentify (fn : Nat) (x : NvmeFields) (d : Dev) : Dev :=
  let cns := x.cdw10 % 256
  if cns = 2 then d.adminData fn x (padTo 4096 (((d.namespaces fn x.nsid).take 1024).flatMap (fun n => leBytes n 4)))
  else if 3 < cns then d.adminDone fn x nvBadField 0
  else if cns ≠ 1 ∧ (d.namespaceOf fn x.nsid).isNone then d.adminDone fn x nvBadNamespace 0
  else let b := d.freeBytes 4096; b.2.adminData fn x b.1

/-- Create I/O CQ. -/
def Dev.nvmeCreateCq (fn : Nat) (x : NvmeFields) (d : Dev) : Dev :=
  let q := x.cdw10 % 65536
  let n := x.cdw10 / 65536 + 1
  let v := x.cdw11 / 65536
  if q = 0 ∨ 64 < q ∨ (d.nvme fn).cqs.has q = true then d.adminDone fn x 0x101 0
  else if n < 2 ∨ 4096 < n then d.adminDone fn x 0x102 0
  else if hasBit x.cdw11 0 = false then d.adminDone fn x nvBadField 0
  else if d.msixSize fn ≤ v then d.adminDone fn x 0x108 0
  else (d.onNvme fn (fun c => { c with cqs := c.cqs.set q { base := x.prp1, size := n, irq := hasBit x.cdw11 1, vector := v } })).adminDone fn x nvSuccess 0

/-- Create I/O SQ. -/
def Dev.nvmeCreateSq (fn : Nat) (x : NvmeFields) (d : Dev) : Dev :=
  let q := x.cdw10 % 65536
  let n := x.cdw10 / 65536 + 1
  let cq := x.cdw11 / 65536
  if cq = 0 ∨ (d.nvme fn).cqs.has cq = false then d.adminDone fn x 0x100 0
  else if q = 0 ∨ 64 < q ∨ (d.nvme fn).sqs.has q = true then d.adminDone fn x 0x101 0
  else if n < 2 ∨ 4096 < n then d.adminDone fn x 0x102 0
  else if hasBit x.cdw11 0 = false then d.adminDone fn x nvBadField 0
  else
    let d := d.freshBalance (sqLeaf fn q)
    (d.onNvme fn (fun c => { c with sqs := c.sqs.set q { base := x.prp1, size := n, cq := cq } })).adminDone fn x nvSuccess 0

/-- Commands of an I/O queue that the device still carries. -/
def Dev.sqBusy (d : Dev) (fn q : Nat) : Bool :=
  ((d.nvme fn).sqs.get? q).any (fun s => !s.accepted.isEmpty || s.fetchPos != s.nextSeq % max 1 s.size) ||
  d.items.vals.any (fun it => it.nvme == some (fn, q)) || (d.nvme fn).owed.any (fun o => o.1 == q) ||
  d.conns.vals.any (fun c => c.cmds.any (fun k => k.fn == fn && k.sq == q)) ||
  d.qps.vals.any (fun c => c.cmds.any (fun k => k.fn == fn && k.sq == q))

/-- Delete I/O SQ: firmware carries it out once the queue's commands have completed. -/
def Dev.nvmeDeleteSq (fn : Nat) (x : NvmeFields) (d : Dev) : Dev :=
  let q := x.cdw10 % 65536
  if q = 0 ∨ (d.nvme fn).sqs.has q = false then d.adminDone fn x 0x101 0
  else (d.onNvme fn (fun c => { c with sqs := c.sqs.erase q })).adminDone fn x nvSuccess 0

/-- Delete I/O CQ: refused while a submission queue names it. -/
def Dev.nvmeDeleteCq (fn : Nat) (x : NvmeFields) (d : Dev) : Dev :=
  let q := x.cdw10 % 65536
  if q = 0 ∨ (d.nvme fn).cqs.has q = false then d.adminDone fn x 0x101 0
  else if (d.nvme fn).sqs.vals.any (fun s => s.cq == q) then d.adminDone fn x 0x10C 0
  else (d.onNvme fn (fun c => { c with cqs := c.cqs.erase q })).adminDone fn x nvSuccess 0

/-- Features that NVM Express requires of an NVM command set controller. -/
def nvmeFeatures : List Nat := [1, 2, 4, 5, 7, 8, 9, 10, 11]

/-- Get Features: 7 answers 64 queues of each kind, the others what was set, else a value that the spec does not give. -/
def Dev.nvmeGetFeature (fn : Nat) (x : NvmeFields) (d : Dev) : Dev :=
  let f := x.cdw10 % 256
  if !nvmeFeatures.contains f then d.adminDone fn x nvBadField 0
  else if f = 7 then d.adminDone fn x nvSuccess (63 + 65536 * 63)
  else
    match (d.nvme fn).features.get? f with
    | some v => d.adminDone fn x nvSuccess v
    | none => d.free.2.adminDone fn x nvSuccess (d.free.1 % 2 ^ 32)

/-- Set Features. -/
def Dev.nvmeSetFeature (fn : Nat) (x : NvmeFields) (d : Dev) : Dev :=
  let f := x.cdw10 % 256
  if !nvmeFeatures.contains f then d.adminDone fn x nvBadField 0
  else if f = 7 then d.adminDone fn x nvSuccess (63 + 65536 * 63)
  else (d.onNvme fn (fun c => { c with features := c.features.set f x.cdw11 })).adminDone fn x nvSuccess 0

/-- Get Log Page: error information, health and firmware slots, as firmware holds them. -/
def Dev.nvmeLogPage (fn : Nat) (x : NvmeFields) (d : Dev) : Dev :=
  let n := 4 * (x.cdw10 / 65536 + 65536 * (x.cdw11 % 65536) + 1)
  if [1, 2, 3].contains (x.cdw10 % 256) = false then d.adminDone fn x 0x109 0
  else let b := d.freeBytes n; b.2.adminData fn x b.1

/-- Abort: a command that no unit has taken up is taken out of its queue; any other is not aborted. -/
def Dev.nvmeAbort (fn : Nat) (x : NvmeFields) (d : Dev) : Dev :=
  let q := x.cdw10 % 65536
  let cid := x.cdw10 / 65536
  match (d.nvme fn).sqs.get? q with
  | none => d.adminDone fn x nvSuccess 1
  | some s =>
    match s.accepted.find? (fun e => leAt e.2 2 2 == cid) with
    | none => d.adminDone fn x nvSuccess 1
    | some e =>
      ((d.onNvme fn (fun c => { c with sqs := c.sqs.set q { s with
        accepted := s.accepted.erase e
        saved := s.saved - (s.accepted.idxOf e < s.saved : Bool).toNat } })).completeNvme fn q cid nvAborted 0).adminDone fn x nvSuccess 0

/-- Asynchronous Event Request: held until an event is due. -/
def Dev.nvmeAer (fn : Nat) (x : NvmeFields) (d : Dev) : Dev :=
  match (d.nvme fn).events with
  | [] => d.onNvme fn (fun c => { c with aers := c.aers ++ [x.cid] })
  | ev :: rest => (d.onNvme fn (fun c => { c with events := rest })).adminDone fn x nvSuccess ev

/-! ## I/O commands (R301, R302) -/

/-- The command at the head of an I/O queue becomes a work item, where its opcode is `want`; an opcode that is not offered completes
as such. -/
def Dev.ioCommand (fn q want : Nat) (d : Dev) : Dev :=
  match (d.nvme fn).sqs.get? q with
  | none => d
  | some s =>
    match s.accepted with
    | [] => d
    | (seq, b) :: rest =>
      let x := nvmeFields b
      let taken (d : Dev) : Dev := d.onNvme fn (fun x => { x with sqs := x.sqs.set q { s with accepted := rest, saved := s.saved - 1 } })
      if q = 0 then d
      else if x.opcode = want then
        ((taken d).addItem {
          kind := 2, seq := seq, fn := fn, gen := (d.fn fn).gen, descs := [{ seq := seq, bytes := b }], nvme := some (fn, q)
          verdict := { entry := (Config.workEntry (2 ^ 22 + fn)).toNat }, restored := s.saved != 0, since := (32 * d.ticks : Nat) }).2
      else if ioOpcodes.contains x.opcode then d
      else (taken d).completeNvme fn q x.cid nvBadOpcode 0

/-! ## Protection information (R305) -/

/-- The CRC-16 of T10: polynomial 0x8BB7, initial value 0. -/
def crc16T10 (l : List Byte) : Nat :=
  l.foldl (fun c b => (List.range 8).foldl (fun c _ => if 2 ^ 15 ≤ c then Nat.xor (2 * c % 2 ^ 16) 0x8BB7 else 2 * c) (Nat.xor c (256 * b.toNat))) 0

/-- Guard of a block, and the bytes of the guard and the reference tag, by pi_format. -/
def piGuard (fmt : Nat) (b : List Byte) : Nat := if fmt = 1 then crc16T10 b else (Config.crc64Nvme b).toNat
def guardSize (fmt : Nat) : Nat := if fmt = 1 then 2 else 8
def refSize (fmt : Nat) : Nat := if fmt = 1 then 4 else 6

/-- The reference tag of block `k`: it counts up, but for type 3. -/
def piRef (type initial k : Nat) : Nat := if type = 3 then initial else initial + k

/-- The protection information of a block. -/
def piBytes (fmt type initial k app : Nat) (b : List Byte) : List Byte :=
  beBytes (piGuard fmt b) (guardSize fmt) ++ beBytes app 2 ++ beBytes (piRef type initial k) (refSize fmt)

/-- The status of a block's check: guard, application tag, reference tag (PRCHK of CDW12 [28:26]); an application tag of all ones
switches the checks off. -/
def piCheck (fmt type : Nat) (x : NvmeFields) (k : Nat) (b pi : List Byte) : Option Nat :=
  let g := guardSize fmt
  let app := beAt pi g 2
  let ref := beAt pi (g + 2) (refSize fmt)
  let mask := x.cdw15 / 65536
  if app = 0xFFFF ∧ (type ≠ 3 ∨ ref = 2 ^ (8 * refSize fmt) - 1) then none
  else if hasBit x.cdw12 28 && beAt pi 0 g != piGuard fmt b then some 0x282
  else if hasBit x.cdw12 27 && Nat.land app mask != Nat.land x.cdw15 mask % 65536 then some 0x283
  else if hasBit x.cdw12 26 && type != 3 && ref != piRef type x.cdw14 k % 2 ^ (8 * refSize fmt) then some 0x284
  else none

/-- The data of a write as it leaves the device, from what the host gave; or the failing check (R305). -/
def Dev.piWrite (d : Dev) (ns : Nat) (x : NvmeFields) (host : List Byte) : List Byte × Option Nat :=
  let fmt := d.ctxField ns 4
  let p := d.piSize ns
  if p = 0 then (host, none)
  else
    let l := d.lbaSize ns
    let type := d.ctxField ns 5
    let step := d.hostBlock ns x.pract
    let block (k : Nat) : List Byte := sliceBytes host (k * step) l
    let pi (k : Nat) : List Byte :=
      if x.pract then piBytes fmt type x.cdw14 k (x.cdw15 % 65536) (block k)
      else if d.piApart ns then sliceBytes host (x.blocks * step + k * p) p
      else sliceBytes host (k * step + l) p
    ((List.range x.blocks).flatMap (fun k => block k ++ pi k),
     if x.pract then none else (List.range x.blocks).findSome? (fun k => piCheck fmt type x k (block k) (pi k)))

/-! ## Commands -/

/-- NVME_SQ_TAIL_DOORBELL. -/
def execNvmeSqTailDoorbell (fn sq tail : Nat) (s : State) : Out := s.onRun (Dev.sqDoorbell fn sq (tail % 65536))

/-- NVME_CC_EN_CLEAR. -/
def execNvmeCcEnClear (fn : Nat) (s : State) : Out := s.onRun (Dev.nvmeDisable fn)

/-- NVME_CC_EN_SET. -/
def execNvmeCcEnSet (fn : Nat) (s : State) : Out := s.onRun (Dev.nvmeEnable fn)

def execNvmeIdentify (fn : Nat) (s : State) : Out := s.onRun (Dev.adminCommand fn 6 (Dev.nvmeIdentify fn))
def execNvmeCreateIoSq (fn : Nat) (s : State) : Out := s.onRun (Dev.adminCommand fn 1 (Dev.nvmeCreateSq fn))
def execNvmeCreateIoCq (fn : Nat) (s : State) : Out := s.onRun (Dev.adminCommand fn 5 (Dev.nvmeCreateCq fn))

/-- NVME_DELETE_IO_SQ: the command waits while the queue's commands are outstanding. -/
def execNvmeDeleteIoSq (fn : Nat) (s : State) : Out :=
  s.onRun (fun d =>
    let head := (((d.nvme fn).sqs.get? 0).bind (fun s => s.accepted.head?)).map (fun e => nvmeFields e.2)
    match head with
    | some x => if x.opcode = 0 ∧ d.sqBusy fn (x.cdw10 % 65536) = true ∧ x.cdw10 % 65536 ≠ 0 then d else d.adminCommand fn 0 (Dev.nvmeDeleteSq fn)
    | none => d)

def execNvmeDeleteIoCq (fn : Nat) (s : State) : Out := s.onRun (Dev.adminCommand fn 4 (Dev.nvmeDeleteCq fn))
def execNvmeGetFeatures (fn : Nat) (s : State) : Out := s.onRun (Dev.adminCommand fn 10 (Dev.nvmeGetFeature fn))
def execNvmeSetFeatures (fn : Nat) (s : State) : Out := s.onRun (Dev.adminCommand fn 9 (Dev.nvmeSetFeature fn))
def execNvmeGetLogPage (fn : Nat) (s : State) : Out := s.onRun (Dev.adminCommand fn 2 (Dev.nvmeLogPage fn))
def execNvmeAbort (fn : Nat) (s : State) : Out := s.onRun (Dev.adminCommand fn 8 (Dev.nvmeAbort fn))
def execNvmeAsyncEventRequest (fn : Nat) (s : State) : Out := s.onRun (Dev.adminCommand fn 12 (Dev.nvmeAer fn))

def execNvmeRead (fn sq : Nat) (s : State) : Out := s.onRun (Dev.ioCommand fn sq 2)
def execNvmeWrite (fn sq : Nat) (s : State) : Out := s.onRun (Dev.ioCommand fn sq 1)
def execNvmeFlush (fn sq : Nat) (s : State) : Out := s.onRun (Dev.ioCommand fn sq 0)
def execNvmeWriteZeroes (fn sq : Nat) (s : State) : Out := s.onRun (Dev.ioCommand fn sq 8)
def execNvmeDatasetManagement (fn sq : Nat) (s : State) : Out := s.onRun (Dev.ioCommand fn sq 9)

end Sys2Proof.Machine
end

