-- ==== Sys2Proof/Machine/Fabric.lean ====
section
/-!
DEFINITION. NVMe/TCP and NVMe over RoCEv2 (R292, R303-R306): connections, segments, PDUs, the commands on their way, placement of
their data, completion and loss. Fields of a type 10 context by number: 0-3 local and remote address, local and remote port,
4 MAC instance, 5 header digest, 6 data digest, 7 MSS, 8 destination MAC address, 9 VID, 10 IPv6, 11 DSCP, 12 timestamps, 13 the
peer's window shift. PDU, TCP and option layouts are those of their standards (PRESUMED, notes/assumptions/24.md).
-/

namespace Sys2Proof.Machine

/-! ## Connections -/

/-- A connection beside its context. -/
def Dev.conn (d : Dev) (c : Nat) : Conn := d.conns.getD c {}
def Dev.onConn (d : Dev) (c : Nat) (f : Conn → Conn) : Dev := { d with conns := d.conns.modify c f }

/-- MAC instance, class and MSS of a connection. -/
def Dev.connMac (d : Dev) (c : Nat) : Nat := d.ctxField c 4 % 256
def Dev.connTc (d : Dev) (c : Nat) : Nat := d.ctxField c 11 % 64 / 8
def Dev.connMss (d : Dev) (c : Nat) : Nat := max 1 (d.ctxField c 7)

/-- Is the connection there to send on? -/
def Dev.connOpen (d : Dev) (c : Nat) : Bool := d.conns.has c && d.ctxType c == 10 && !d.ctxBad c && !(d.conn c).lost

/-- Sequence arithmetic modulo 2^32. -/
def seqGap (a b : Nat) : Nat := (b + 2 ^ 32 - a % 2 ^ 32) % 2 ^ 32

/-- A TCP segment of a connection. -/
def Dev.tcpSegment (d : Dev) (c seq : Nat) (push : Bool) (data : List Byte) : Frame :=
  let x := d.conn c
  let v6 := d.ctxField c 10 != 0
  let ts := d.ctxField c 12 != 0
  let opts := if ts then [1, 1, 8, 10] ++ beBytes d.uptime 4 ++ beBytes x.tsRecent 4 else []
  let tcp := beBytes (d.ctxField c 2) 2 ++ beBytes (d.ctxField c 3) 2 ++ beBytes seq 4 ++ beBytes x.rcvNxt 4 ++
    [BitVec.ofNat 8 (16 * ((20 + opts.length) / 4)), BitVec.ofNat 8 (16 + 8 * push.toNat)] ++ beBytes 65535 2 ++ [0, 0, 0, 0] ++ opts ++ data
  let dscp := d.ctxField c 11 % 64
  let src := beBytes (d.ctxField c 0) 16
  let dst := beBytes (d.ctxField c 1) 16
  let ip := if v6 then beBytes (6 * 2 ^ 28 + 4 * dscp * 2 ^ 20) 4 ++ beBytes tcp.length 2 ++ [6, 64] ++ src ++ dst
    else fixV4 0 ([0x45] ++ beBytes (4 * dscp) 1 ++ beBytes (20 + tcp.length) 2 ++ beBytes 0x4000 4 ++ [64, 6, 0, 0] ++ src.drop 12 ++ dst.drop 12)
  let f := beBytes (d.ctxField c 8) 6 ++ beBytes (d.station (d.connMac c)) 6 ++ beBytes (if v6 then 0x86DD else 0x0800) 2 ++ ip ++ tcp
  let f := match outerIp d.parseCfg f with
    | some i => putChecksums false true i f
    | none => f
  let vid := d.ctxField c 9 % 4096
  if vid = 0 then f else insertTag 0x8100 vid f

/-- An acknowledgement without data. -/
def Dev.tcpAck (d : Dev) (c : Nat) : List Frame := [d.tcpSegment c (d.conn c).sndNxt false []]

/-- Cut bytes at the MSS. -/
def cutMss (mss : Nat) : Nat → List Byte → List (List Byte)
  | 0, _ => []
  | fuel + 1, b => if b.isEmpty then [] else b.take mss :: cutMss mss fuel (b.drop mss)

/-- Bytes sent and not acknowledged. -/
def Conn.flight (x : Conn) : Nat := seqGap x.sndUna x.sndNxt

/-- May `n` bytes be sent: inside the peer's window and the congestion window, or nothing is in flight? -/
def Conn.mayHold (x : Conn) (n : Nat) : Bool := x.flight == 0 || x.flight + n ≤ min x.window x.cwnd

/-- Bytes take their sequence numbers: the segments, and a copy kept until they are acknowledged (R304, R306). -/
def Dev.tcpSend (c : Nat) (b : List Byte) (d : Dev) : List Frame × Dev :=
  let parts := cutMss (d.connMss c) b.length b
  let base := (d.conn c).sndNxt
  let at_ := parts.zipIdx.map (fun p => ((base + ((parts.take p.2).map List.length).sum) % 2 ^ 32, p.1))
  let frames := at_.zipIdx.map (fun p => d.tcpSegment c p.1.1 (p.2 + 1 == at_.length) p.1.2)
  (frames, d.onConn c (fun x => { x with sndNxt := (base + b.length) % 2 ^ 32, kept := x.kept ++ at_ }))

/-! ## PDUs -/

/-- Digests of a connection. -/
def Dev.hdrDigest (d : Dev) (c : Nat) : Bool := d.ctxField c 5 != 0
def Dev.dataDigest (d : Dev) (c : Nat) : Bool := d.ctxField c 6 != 0

/-- A PDU: common header, specific header, digests and data. -/
def Dev.pdu (d : Dev) (c type flags : Nat) (psh data : List Byte) : List Byte :=
  let hd := d.hdrDigest c
  let dd := d.dataDigest c && !data.isEmpty
  let hlen := 8 + psh.length
  let pdo := if data.isEmpty then 0 else hlen + 4 * hd.toNat
  let plen := hlen + 4 * hd.toNat + data.length + 4 * dd.toNat
  let head := [BitVec.ofNat 8 type, BitVec.ofNat 8 (flags + hd.toNat + 2 * dd.toNat), BitVec.ofNat 8 hlen, BitVec.ofNat 8 pdo] ++
    leBytes plen 4 ++ psh
  head ++ (if hd then leBytes (crc32c head) 4 else []) ++ data ++ (if dd then leBytes (crc32c data) 4 else [])

/-- The submission entry as it goes to the remote controller: its tag, namespace and transport SGL. -/
def Dev.capsuleEntry (d : Dev) (k : NvmeCmd) (sgl : List Byte) : List Byte :=
  let b := putBytes k.entry 1 [BitVec.ofNat 8 (byteAt k.entry 1 % 64 + 64)]
  putBytes (putBytes (putBytes b 2 (leBytes k.tag 2)) 4 (leBytes (d.ctxField k.ns 1) 4)) 24 sgl

/-- Bytes of data that the device takes from the remote controller. -/
def Dev.wireBytes (d : Dev) (k : NvmeCmd) : Nat :=
  let x := nvmeFields k.entry
  if x.opcode = 2 then x.blocks * (d.lbaSize k.ns + d.piSize k.ns) else 0

/-- CapsuleCmd, with data of up to 8 KiB in it (R303). -/
def Dev.capsule (d : Dev) (c : Nat) (k : NvmeCmd) : List Byte :=
  let inline_ := k.data.length ≤ 8192
  let n := if k.data.isEmpty then d.wireBytes k else k.data.length
  let sgl := leBytes 0 8 ++ leBytes n 4 ++ [0, 0, 0, if !k.data.isEmpty && inline_ then 0x01 else 0x5A]
  d.pdu c 4 0 (d.capsuleEntry k sgl) (if inline_ then k.data else [])

/-! ## Commands on their way -/

/-- A command completes at its controller; the region of its buffers ends with it. -/
def Dev.endCmd (k : NvmeCmd) (status result : Nat) (d : Dev) : Dev :=
  let st := if status = 0 then k.piFault.getD 0 else status
  let d := d.dropRegion k
  if hasBit (d.nvme k.fn).cc 0 then d.completeNvme k.fn k.sq k.cid st result else d

/-- A PI check failed (R305). -/
def Dev.countPi (d : Dev) : Dev := (d.bump R.STO_PI_ERRORS_count).cause stoCauses 1

/-- Write to the host at an offset of a run of segments. -/
def Dev.placeAt (fn : Nat) (segs : List (Nat × Nat)) (off : Nat) (data : List Byte) (d : Dev) : Dev :=
  let parts := segSlice segs off data.length
  let cuts := parts.zipIdx.map (fun p => (p.1.1, sliceBytes data (((parts.take p.2).map Prod.snd).sum) p.1.2))
  Dev.each cuts (fun p d => d.hostWrite fn p.1 p.2 {}) d

/-- Place whole blocks of a read, checking their protection information (R305). -/
def Dev.placeBlocks (k : NvmeCmd) : Nat → Dev → NvmeCmd × Dev
  | 0, d => (k, d)
  | fuel + 1, d =>
    let x := nvmeFields k.entry
    let l := d.lbaSize k.ns
    let p := d.piSize k.ns
    if k.early.length < l + p then (k, d)
    else
      let n := k.placed / (l + p)
      let block := k.early.take l
      let pi := sliceBytes k.early l p
      let bad := if p = 0 then none else piCheck (d.ctxField k.ns 4) (d.ctxField k.ns 5) x n block pi
      let d := if bad.isSome then d.countPi else d
      let step := d.hostBlock k.ns x.pract
      let d := d.placeAt k.fn k.segs (n * step) (if p = 0 ∨ x.pract = true ∨ d.piApart k.ns = true then block else block ++ pi)
      let d := if p ≠ 0 ∧ x.pract = false ∧ d.piApart k.ns = true then d.placeAt k.fn k.meta_ (n * p) pi else d
      Dev.placeBlocks { k with
        placed := k.placed + l + p
        early := k.early.drop (l + p)
        piFault := if k.piFault.isNone then bad else k.piFault } fuel d

/-- Data of a read has come, in order. -/
def Dev.placeRead (k : NvmeCmd) (data : List Byte) (d : Dev) : NvmeCmd × Dev :=
  let k := { k with early := k.early ++ data }
  d.placeBlocks k (k.early.length / 512 + 1)

/-- A command as it leaves the retire stage, or the status that ends it there. -/
def Dev.prepareCmd (d : Dev) (it : Item) (fn q tag : Nat) : Except Nat NvmeCmd :=
  let b := (it.descs.head?.map Desc.bytes).getD []
  let x := nvmeFields b
  match d.namespaceOf fn x.nsid with
  | none => .error nvBadNamespace
  | some ns =>
    let io := x.opcode == 1 || x.opcode == 2 || x.opcode == 8
    if it.failed.isSome then .error nvInternal
    else if it.readBad then .error nvDataError
    else if io && d.ctxField ns 8 < x.slba + x.blocks then .error nvRange
    else
      let k : NvmeCmd := { tag := tag, fn := fn, sq := q, cid := x.cid, ns := ns, entry := b }
      if x.opcode = 2 then
        match nvmeWalk x (d.nvme fn).page (d.nvmeHostBytes fn x) it.lists with
        | .done segs => .ok { k with segs := segs, meta_ := if d.piApart ns && !x.pract then [(x.mptr, x.blocks * d.piSize ns)] else [] }
        | _ => .error nvDataError
      else if x.opcode = 1 then
        if it.bytes.length < d.nvmeHostBytes fn x then .error nvDataError
        else
          match d.piWrite ns x it.bytes with
          | (_, some bad) => .error bad
          | (w, none) => .ok { k with data := w }
      else if x.opcode = 9 then .ok { k with data := it.bytes }
      else .ok k

/-- The region of a command's buffers (R303): a type 9 context of the function, written for the life of the command, and its key. Where
a type 9 context holds the buffers, and which index and key bits firmware takes, the spec does not state (notes/assumptions/89.md). -/
def Dev.writeBuffers (fn tag : Nat) (d : Dev) : Nat × Dev :=
  let c := d.pickIndex d.ctxs (2 ^ 24)
  let b := c.2.freeBytes 248
  (c.1 * 256 + tag % 256, { b.2 with ctxs := b.2.ctxs.set c.1 (leBytes 9 4 ++ leBytes fn 4 ++ b.1) })

/-- The connection or QP of a namespace; is it a QP? -/
def Dev.nsPath (d : Dev) (ns : Nat) : Nat := d.ctxField ns 0
def Dev.nsRoce (d : Dev) (ns : Nat) : Bool := d.ctxField ns 2 == 1

/-- An NVMe item completes at its queue, where the entry can be written; that write retires it. One that MACsec cannot send is counted
(R284; DEDUCED, notes/assumptions/85.md). -/
def Dev.refuseNvme (i fn q cid status : Nat) (d : Dev) (unsent : Bool := false) : Dev :=
  let x := d.nvme fn
  let open_ := match x.sqs.get? q with
    | some s => ((x.cqs.get? s.cq).map Cq.room).getD false && x.owed.isEmpty && d.canIssue fn
    | none => true
  let d := if open_ && unsent then d.bump R.CRY_TX_REFUSED_count else d
  if open_ then ((if 0x282 ≤ status ∧ status ≤ 0x284 then d.countPi else d).completeNvme fn q cid status 0).retired i else d

/-- An NVMe item that is next in its queue's order: its capsule takes its bytes or PSNs and enters the FIFO. -/
def Dev.retireNvme (i : Nat) (it : Item) (fn q : Nat) (d : Dev) : Dev :=
  let cid := leAt ((it.descs.head?.map Desc.bytes).getD []) 2 2
  if (d.nvme fn).closing ∨ hasBit (d.nvme fn).cc 0 = false then (d.squash i).checkClosed fn
  else
    let tag := (d.nvme fn).nextTag
    match d.prepareCmd it fn q tag with
    | .error status => d.refuseNvme i fn q cid status
    | .ok k =>
      let c := d.nsPath k.ns
      let next (d : Dev) : Dev := d.onNvme fn (fun x => { x with nextTag := (x.nextTag + 1) % 65536 })
      if d.nsRoce k.ns then
        if d.ctxType c ≠ 8 ∨ d.qpState c ≠ 3 then d.refuseNvme i fn q cid nvTransient
        else
          let x := d.writeBuffers fn tag
          let k := { k with region := some x.1 }
          let n := if k.data.isEmpty then d.wireBytes k else k.data.length
          let sgl := leBytes 0 8 ++ leBytes n 3 ++ leBytes (k.region.getD 0) 4 ++ [0x40]
          let entry := d.capsuleEntry k sgl
          let w : WorkFields := { offset := 0, qpn := c, length := 64, opcode := 0, fence := false, solicited := false
                                  lkey := 0, rkey := 0, imm := 0, remote := 0, reserved := false }
          if d.requestWaits w then d
          else
            let first := d.sqPsn c
            let m := d.packetsFor c 64
            let frames := d.requestPackets w entry first 0 0
            if !d.macsecRoom (d.qpMac c) frames.length then d.refuseNvme i fn q cid nvTransient true
            else if !d.pushRoom (d.qpMac c) (d.qpTc c) frames then d
            else
              let d := ((next x.2).setSqPsn c (first + m)).countQp c 0 frames.length
              let desc := leBytes 0 5 ++ leBytes c 3 ++ leBytes 64 4 ++ List.replicate 20 0
              let d := d.onQp c (fun x => { x with
                cmds := x.cmds ++ [k]
                reqs := x.reqs ++ [{ ring := 2 ^ 22, seq := 0, desc := desc, opcode := 0, first := first, last := psn24 (first + m - 1), own := entry }] })
              (d.pushFrames (d.qpMac c) (d.qpTc c) frames).retired i
      else if !d.connOpen c then d.refuseNvme i fn q cid nvTransient
      else
        let b := d.capsule c k
        if !(d.conn c).mayHold b.length then d
        else
          let r := (next d).tcpSend c b
          if !d.macsecRoom (d.connMac c) r.1.length then d.refuseNvme i fn q cid nvTransient true
          else if !d.pushRoom (d.connMac c) (d.connTc c) r.1 then d
          else
            let d := r.2.onConn c (fun x => { x with cmds := x.cmds ++ [k] })
            (d.pushFrames (d.connMac c) (d.connTc c) r.1).retired i

/-! ## Loss of a connection (R304) -/

/-- Every command of a lost connection completes with Transient Transport Error; firmware reconnects where the namespace's context
allows it. -/
def Dev.loseConn (c kind : Nat) (d : Dev) : Dev :=
  let cmds := (d.conn c).cmds
  let again := (d.ctxs.filter (fun n _ => d.ctxType n == 11 && d.ctxField n 0 == c && d.ctxField n 7 != 0)).size != 0
  let d := d.onConn c (fun x => { x with lost := true, cmds := [], kept := [], early := [], inBytes := [] })
  let d := Dev.each cmds (fun k d => d.endCmd k nvTransient 0) d
  let d := if kind = 2 then ((d.cause stoCauses 0).stoRecord 2 c) else d
  let d := (d.cause stoCauses 2).stoRecord 1 c
  if again then d.openConn c else d

/-! ## Received segments (R304) -/

/-- The timestamp value of a segment's options. -/
def tsOption : Nat → List Byte → Option Nat
  | 0, _ => none
  | fuel + 1, b =>
    match byteAt b 0 with
    | 0 => none
    | 1 => tsOption fuel (b.drop 1)
    | 8 => if 10 ≤ b.length then some (beAt b 2 4) else none
    | _ => if byteAt b 1 < 2 then none else tsOption fuel (b.drop (byteAt b 1))

/-- The segments that a connection resends: their retained copies, the first of them or all from a point (R304). -/
def Dev.resendFirst (c : Nat) (d : Dev) : List Frame × Dev :=
  match (d.conn c).kept with
  | [] => ([], d)
  | (seq, b) :: _ => ([d.tcpSegment c seq true b], d.bump R.STO_TCP_RETRANS_count)

/-- Drop what an acknowledgement covers. -/
def trimKept (una : Nat) : List (Nat × List Byte) → List (Nat × List Byte)
  | [] => []
  | (seq, b) :: l =>
    let n := seqGap seq una
    if n < 2 ^ 31 ∧ b.length ≤ n then trimKept una l
    else if n < 2 ^ 31 then ((seq + n) % 2 ^ 32, b.drop n) :: l
    else (seq, b) :: l

/-- The acknowledgement of a segment (NewReno, RFC 5681 and RFC 6582); with the segments it makes the device resend. -/
def Dev.tcpAcked (c ack window len : Nat) (d : Dev) : List Frame × Dev :=
  let x := d.conn c
  let mss := d.connMss c
  let n := seqGap x.sndUna ack
  let d := d.onConn c (fun x => { x with window := window })
  if n ≠ 0 ∧ n ≤ x.flight then
    let recovering := 3 ≤ x.dupAcks
    let whole := n == x.flight
    let d := d.onConn c (fun x => { x with
      sndUna := ack
      kept := trimKept ack x.kept
      retries := 0
      dupAcks := if recovering && !whole then x.dupAcks else 0
      cwnd := if recovering then (if whole then x.ssthresh else max mss (x.cwnd + mss - n))
        else if x.cwnd < x.ssthresh then x.cwnd + min n mss else x.cwnd + max 1 (mss * mss / max 1 x.cwnd) })
    if recovering && !whole then d.resendFirst c else ([], d)
  else if n = 0 ∧ len = 0 ∧ x.flight ≠ 0 ∧ window = x.window then
    let k := x.dupAcks + 1
    let half := max (x.flight / 2) (2 * mss)
    let d := d.onConn c (fun x => { x with
      dupAcks := k
      ssthresh := if k = 3 then half else x.ssthresh
      cwnd := if k = 3 then half + 3 * mss else if 3 < k then x.cwnd + mss else x.cwnd })
    if k = 3 then d.resendFirst c else ([], d)
  else ([], d)

/-- Take what is in order out of the segments held. -/
def Conn.drain : Nat → Conn → Conn
  | 0, x => x
  | fuel + 1, x =>
    match x.early.find? (fun e => let n := seqGap e.1 x.rcvNxt; n < 2 ^ 31 && n < e.2.length) with
    | none => { x with early := x.early.filter (fun e => 2 ^ 31 ≤ seqGap e.1 x.rcvNxt) }
    | some e =>
      let b := e.2.drop (seqGap e.1 x.rcvNxt)
      Conn.drain fuel { x with
        rcvNxt := (x.rcvNxt + b.length) % 2 ^ 32
        inBytes := x.inBytes ++ b
        early := x.early.erase e }

/-- The command of a connection with this tag. -/
def Conn.cmd (x : Conn) (tag : Nat) : Option NvmeCmd := x.cmds.find? (fun k => k.tag == tag)

/-- Replace a command, or take it away. -/
def Dev.putCmd (c : Nat) (k : NvmeCmd) (d : Dev) : Dev :=
  d.onConn c (fun x => { x with cmds := x.cmds.map (fun y => if y.tag = k.tag then k else y) })
def Dev.dropCmd (c : Nat) (k : NvmeCmd) (d : Dev) : Dev := d.onConn c (fun x => { x with cmds := x.cmds.filter (fun y => y.tag != k.tag) })

/-- The H2CData PDUs that answer an R2T, one for each 8 KiB. -/
def Dev.h2cData (d : Dev) (c : Nat) (k : NvmeCmd) (ttag off len : Nat) : List Byte :=
  let parts := cutMss 8192 len (sliceBytes k.data off len)
  (parts.zipIdx.map (fun p =>
    let at_ := off + 8192 * p.2
    d.pdu c 6 (if p.2 + 1 = parts.length then 4 else 0) (leBytes k.tag 2 ++ leBytes ttag 2 ++ leBytes at_ 4 ++ leBytes p.1.length 4 ++ leBytes 0 4) p.1)).flatten

/-- What a whole PDU does: the bytes that the device sends for it. A response for a command that is gone is discarded (R302). -/
def Dev.takePdu (c type flags : Nat) (psh data : List Byte) (d : Dev) : List Byte × Dev :=
  match type with
  | 5 =>
    match (d.conn c).cmd (leAt psh 12 2) with
    | some k => ([], (d.dropCmd c k).endCmd k (leAt psh 14 2 / 2) (leAt psh 0 4))
    | none => ([], d)
  | 7 =>
    match (d.conn c).cmd (leAt psh 0 2) with
    | some k =>
      if leAt psh 4 4 ≠ k.placed + k.early.length ∨ d.wireBytes k < k.placed + k.early.length + data.length then ([], d.loseConn c 1)
      else
        let r := d.placeRead k data
        if hasBit flags 2 && hasBit flags 3 then ([], (r.2.dropCmd c r.1).endCmd r.1 0 0) else ([], r.2.putCmd c r.1)
    | none => ([], d)
  | 9 =>
    match (d.conn c).cmd (leAt psh 0 2) with
    | some k =>
      let off := leAt psh 4 4
      let len := leAt psh 8 4
      if k.data.length < off + len then ([], d.loseConn c 1) else (d.h2cData c k (leAt psh 2 2) off len, d)
    | none => ([], d)
  | _ => ([], d.loseConn c 1)

/-- Take the whole PDUs out of a connection's bytes; a digest that is wrong is fatal (R304). -/
def Dev.takePdus (c : Nat) : Nat → List Byte × Dev → List Byte × Dev
  | 0, r => r
  | fuel + 1, (out, d) =>
    let b := (d.conn c).inBytes
    let plen := leAt b 4 4
    if b.length < 8 then (out, d)
    else if plen < 8 ∨ (d.conn c).lost = true then (out, d.loseConn c 1)
    else if b.length < plen then (out, d)
    else
      let hlen := byteAt b 2
      let flags := byteAt b 1
      let hd := hasBit flags 0
      let dd := hasBit flags 1
      let pdo := byteAt b 3
      let data := if pdo = 0 then [] else sliceBytes b pdo (plen - pdo - 4 * dd.toNat)
      if d.hdrDigest c && (!hd || leAt b hlen 4 != crc32c (b.take hlen)) then (out, (d.bump R.STO_HDGST_ERRORS_count).loseConn c 2)
      else if d.dataDigest c && !data.isEmpty && (!dd || leAt b (plen - 4) 4 != crc32c data) then
        (out, (d.bump R.STO_DDGST_ERRORS_count).loseConn c 2)
      else
        let d := d.onConn c (fun x => { x with inBytes := x.inBytes.drop plen })
        let r := d.takePdu c (byteAt b 0) flags (sliceBytes b 8 (hlen - 8)) data
        Dev.takePdus c fuel (out ++ r.1, r.2)

/-- What a received segment does, and the frames it causes. -/
def Dev.takeSegment (c : Nat) (i : Ip) (f : Frame) (d : Dev) : List Frame × Dev :=
  let o := i.offL4
  let seq := beAt f (o + 4) 4
  let data := sliceBytes f i.payload (i.endL4 - i.payload)
  let flags := byteAt f (o + 13)
  let opts := sliceBytes f (o + 20) (byteAt f (o + 12) / 16 * 4 - 20)
  let d := match tsOption opts.length opts with
    | some v => d.onConn c (fun x => { x with tsRecent := v })
    | none => d
  if hasBit flags 2 then ([], d.loseConn c 1)
  else
    let a := if hasBit flags 4 then d.tcpAcked c (beAt f (o + 8) 4) (beAt f (o + 14) 2 * 2 ^ (min 14 (d.ctxField c 13))) data.length else ([], d)
    let d := a.2
    if hasBit flags 0 then (a.1, d.loseConn c 1)
    else if data.isEmpty then a
    else
      let d := d.onConn c (fun x => Conn.drain (x.early.length + 1) { x with early := x.early ++ [(seq, data)] })
      let r := Dev.takePdus c ((d.conn c).inBytes.length) ([], d)
      if !r.2.connOpen c then (a.1, r.2)
      else
        let s := r.2.tcpSend c r.1
        (a.1 ++ (if s.1.isEmpty then s.2.tcpAck c else s.1), s.2)

/-- Which function's host memory a connection's segment may place into. -/
def Dev.connCanPlace (d : Dev) (c : Nat) : Bool := d.canIssue (d.ctxOwner c)

/-- A received NVMe/TCP segment that is next in order. -/
def Dev.retireTcp (i : Nat) (it : Item) (c : Nat) (d : Dev) : Dev :=
  match it.parse.ip with
  | none => d.retired i
  | some ip =>
    if it.failed.isSome || !d.connOpen c then d.retired i
    else if !d.connCanPlace c then d
    else
      let r := d.takeSegment c ip it.bytes
      if d.pushRoom (d.connMac c) (d.connTc c) r.1 then (r.2.pushFrames (d.connMac c) (d.connTc c) r.1).retired i else d

/-- The retransmission timer of a connection (R304). -/
def Dev.rtoExpiry (c : Nat) (d : Dev) : Dev :=
  let x := d.conn c
  if !d.connOpen c || x.kept.isEmpty then d
  else if d.rd R.STO_TCP_CONFIG_max_retries ≤ x.retries then d.loseConn c 1
  else
    let mss := d.connMss c
    let d := d.onConn c (fun x => { x with
      retries := x.retries + 1, dupAcks := 0, cwnd := mss, ssthresh := max (x.flight / 2) (2 * mss) })
    let r := d.resendFirst c
    r.2.pushLossy (d.connMac c) (d.connTc c) r.1

/-! ## NVMe over RoCEv2 (R303) -/

/-- Does the QP carry NVMe commands: does a namespace's context name it? -/
def Dev.isNvmeQp (d : Dev) (q : Nat) : Bool := (d.ctxs.find? (fun n _ => d.ctxType n == 11 && d.ctxField n 2 == 1 && d.ctxField n 0 == q)).isSome

/-- The command of a QP whose region a key names. -/
def Dev.cmdOfKey (d : Dev) (q key : Nat) : Option NvmeCmd :=
  (d.qp q).cmds.find? (fun k => k.region == some key && !d.ctxBad (key / 256))

/-- Replace or take away a command of a QP. -/
def Dev.putQpCmd (q : Nat) (k : NvmeCmd) (d : Dev) : Dev :=
  d.onQp q (fun x => { x with cmds := x.cmds.map (fun y => if y.tag = k.tag then k else y) })
def Dev.dropQpCmd (q : Nat) (k : NvmeCmd) (d : Dev) : Dev := d.onQp q (fun x => { x with cmds := x.cmds.filter (fun y => y.tag != k.tag) })

/-- An in-order packet of an NVMe QP: the peer writes a read's data, reads a write's data, or sends the response capsule. -/
def Dev.respondNvme (q : Nat) (b : Bth) (f : Frame) (d : Dev) : List Frame × Dev :=
  if b.opcode ≤ 5 then
    let at_ := b.ext + (if b.opcode = 3 ∨ b.opcode = 5 then 4 else 0)
    let cqe := sliceBytes f at_ (b.stop - at_)
    let p := d.placed q 1 b.ackReq true
    match (d.qp q).cmds.find? (fun k => k.tag == leAt cqe 12 2) with
    | some k => (p.1, (p.2.dropQpCmd q k).endCmd k (leAt cqe 14 2 / 2) (leAt cqe 0 4))
    | none => p
  else if b.opcode ≤ 0xB then
    let k := b.opcode - 6
    let starts := k == 0 || 4 ≤ k
    let ends := 2 ≤ k
    let at_ := b.ext + (if starts then 16 else 0) + (if k = 3 ∨ k = 5 then 4 else 0)
    let data := sliceBytes f at_ (b.stop - at_)
    let t := if starts then (beAt f b.ext 8, beAt f (b.ext + 8) 4, beAt f (b.ext + 12) 4) else (d.qp q).target.getD (0, 0, 0)
    match d.cmdOfKey q t.2.1 with
    | none => d.respondError q 0x62 4 b.psn 3
    | some c =>
      if t.1 ≠ c.placed + c.early.length ∨ d.wireBytes c < t.1 + t.2.2 ∨ t.2.2 < data.length then d.respondError q 0x62 4 b.psn 3
      else
        let r := d.placeRead c data
        let d := (r.2.putQpCmd q r.1).onQp q (fun x => { x with
          target := if ends then none else some (t.1 + data.length, t.2.1, t.2.2 - data.length) })
        d.placed q 1 b.ackReq ends
  else
    let off := beAt f b.ext 8
    let len := beAt f (b.ext + 12) 4
    match d.cmdOfKey q (beAt f (b.ext + 8) 4) with
    | none => d.respondError q 0x62 4 b.psn 3
    | some c =>
      if c.data.length < off + len then d.respondError q 0x62 4 b.psn 3
      else
        let d := (d.setRqPsn q (b.psn + d.packetsFor q len)).onQp q (fun x => { x with nakOut := false, msn := psn24 (x.msn + 1), owedAck := 0 })
        (d.responsePackets q b.psn (sliceBytes c.data off len), d)

/-- The commands of an NVMe QP complete as lost (R304). -/
def Dev.endQpCmds (q : Nat) (d : Dev) : Dev :=
  let cmds := (d.qp q).cmds
  if cmds.isEmpty then d
  else
    let d := d.onQp q (fun x => { x with cmds := [] })
    ((Dev.each cmds (fun k d => d.endCmd k nvTransient 0) d).cause stoCauses 2).stoRecord 1 q

/-- They do when the QP has entered state 4. -/
def Dev.loseQpCmds (q : Nat) (d : Dev) : Dev := if d.qpState q = 4 then d.endQpCmds q else d

/-- A received packet of an NVMe QP that is next in order. -/
def Dev.retireNvmeQp (i : Nat) (it : Item) (q : Nat) (d : Dev) : Dev :=
  let b := bthOf it.parse it.bytes
  if b.opcode ≤ 0xC ∧ psnGap (d.rqPsn q) b.psn = 0 then
    if it.failed.isSome ∨ (d.qpState q ≠ 2 ∧ d.qpState q ≠ 3) then d.retired i
    else if !d.canIssue (d.ctxOwner q) then d
    else
      let cnp := (d.countQp q 1).cnpFrames q ((it.parse.ip.map (fun x => x.ecn == 3)).getD false)
      let r := cnp.2.respondNvme q b it.bytes
      let frames := cnp.1 ++ r.1
      if d.pushRoom (d.qpMac q) (d.qpTc q) frames then
        (((r.2.countQp q 0 frames.length).pushFrames (d.qpMac q) (d.qpTc q) frames).retired i).loseQpCmds q
      else d
  else (d.retireRoce i it q).loseQpCmds q

/-! ## The retire stage's command -/

/-- An item that is next in order at the retire stage. -/
def Dev.retireItem (i : Nat) (d : Dev) : Dev :=
  match d.item? i with
  | none => d
  | some it =>
    if it.stage ≠ .retiring ∨ d.nextInOrder i it = false then d
    else if d.stale it then d.squash i
    else if (it.espOf.isSome || it.tlsOf.isSome) && d.cryInService.isEmpty then d
    else if it.kind = 1 then
      match it.conn with
      | some c => if d.ctxType c = 10 then d.retireTcp i it c else if d.isNvmeQp c then d.retireNvmeQp i it c else d.retireRoce i it c
      | none => d.retireRx i it
    else
      match it.nvme with
      | some (fn, q) => d.retireNvme i it fn q
      | none =>
        if it.kind = 2 then d.retireWork i it
        else
          match d.ring? it.source with
          | none => d
          | some g =>
            if it.failed.isSome then d.completeSource i 6
            else if it.status ≠ 0 then d.completeSource i it.status
            else if it.descs.all (fun x => (g.txFields true x).opcode == 2) then d.completeSource i 0
            else if it.kind = 3 then d.retireSwitched i it g
            else d.retireTx i it g

/-- ITEM_RETIRE. -/
def execItemRetire (item : Nat) (s : State) : Out := s.onRun (Dev.retireItem item)

/-- ROCE_ACK_TIMEOUT: resend from una_psn, or the error state. -/
def execRoceAckTimeout (qpn : Nat) (s : State) : Out :=
  s.onRun (fun d =>
    if d.ctxType qpn == 8 && d.qpState qpn == 3 && !(d.qp qpn).reqs.isEmpty then (d.retryFrom qpn (d.unaPsn qpn)).loseQpCmds qpn
    else d)

/-- NVME_TCP_RTO_EXPIRY. -/
def execNvmeTcpRtoExpiry (conn : Nat) (s : State) : Out := s.onRun (Dev.rtoExpiry conn)

end Sys2Proof.Machine
end

