-- ==== Sys2Proof/Machine/Dma.lean ====
section
/-!
DEFINITION. General DMA channels (R325-R341): lists and descriptors, bursts, request lines, the rate limiter, stops and errors. A
list lies in host memory, but for those that firmware keeps in the control region for the Stream Port (notes/assumptions/28.md).
-/

namespace Sys2Proof.Machine

/-- A channel beside its registers. -/
def Dev.chanDma (d : Dev) (c : Nat) : DmaChan := d.dma.getD c {}
def Dev.onDma (d : Dev) (c : Nat) (f : DmaChan → DmaChan) : Dev := { d with dma := d.dma.upd c {} f }

/-- State, owner and function of a channel (R326, R340). -/
def Dev.dmaState (d : Dev) (c : Nat) : Nat := d.rd R.DMA_STATUS_state c
def Dev.dmaOwner (d : Dev) (c : Nat) : Nat := d.rd R.DMA_STATUS_owner c
def Dev.dmaFn (d : Dev) (c : Nat) : Nat :=
  if isFnMid (d.dmaOwner c) then d.dmaOwner c - 0x1000 else d.rd R.DMA_FUNC_function c

/-- May the owner use a space (R326)? -/
def spaceOk (owner space : Nat) : Bool :=
  space == 0 || (space == 1 && (isCoreMid owner || owner == midDebug)) || (space == 2 && (isCoreMid owner || isFnMid owner))

/-- The attributes that a channel's requests ask for now. -/
def Dev.dmaAttr (d : Dev) (c : Nat) : Attr :=
  { relaxed := d.on R.DMA_CTRL_ro c
    noSnoop := d.on R.DMA_CTRL_ns c
    steering := if d.on R.DMA_CTRL_tph c then some (d.rd R.DMA_CTRL_tph_tag c) else none
    pasid := if d.on R.DMA_CTRL_pasid_en c then some (d.rd R.DMA_PASID_pasid c) else none }

/-- Show the descriptor a channel stands at. -/
def Dev.showCur (c addr remain : Nat) (d : Dev) : Dev :=
  (d.wr64 R.DMA_CUR_LO_cur R.DMA_CUR_HI_cur addr c).wr R.DMA_REMAIN_remain remain c

/-! ## The control region (R27, R328, R467) -/

/-- Bytes of the control region. -/
def regionSize : Nat := 2 ^ 29

/-- The stream whose transmit window, or receive window, holds an address of space 1; those that receive are numbered from 16 on. -/
def txWindow (a : Nat) : Option Nat := if 0x0F000000 ≤ a ∧ a < 0x0F100000 then some ((a - 0x0F000000) / 65536) else none
def rxWindow (a : Nat) : Option Nat := if 0x0F100000 ≤ a ∧ a < 0x0F200000 then some (16 + (a - 0x0F100000) / 65536) else none

/-- A byte of the control region; one never written reads zero (notes/assumptions/29.md). -/
def Dev.regionByte (d : Dev) (a : Nat) : Byte := d.region.getD a 0

/-- Write a byte of the control region; a zero byte is not listed. -/
def Dev.putRegion (a : Nat) (b : Byte) (d : Dev) : Dev :=
  { d with region := if b = 0 then d.region.erase a else d.region.set a b }

/-- A stream of the Stream Port. -/
def Dev.stream (d : Dev) (n : Nat) : Stream := d.stp.streams.getD n {}
def Dev.onStream (d : Dev) (n : Nat) (f : Stream → Stream) : Dev := { d with stp := { d.stp with streams := d.stp.streams.upd n {} f } }

/-- Bytes leave a stream's receive window: flits read out whole give their credits back (R465). -/
def takeFlits : Nat → List Nat → Nat × List Nat
  | _, [] => (0, [])
  | n, l :: rest => if l ≤ n then (1 + (takeFlits (n - l) rest).1, (takeFlits (n - l) rest).2) else (0, (l - n) :: rest)

/-- Read `n` bytes of space 1; a receive window gives its oldest bytes. -/
def Dev.readRegion (a n : Nat) (d : Dev) : Option (List Byte) × Dev :=
  match rxWindow a with
  | some k =>
    let s := d.stream k
    let t := takeFlits n s.flits
    (some (s.window.take n), d.onStream k (fun s => { s with window := s.window.drop n, owed := s.owed + t.1, flits := t.2 }))
  | none =>
    if regionSize < a + n then (none, d) else (some ((List.range n).map (fun k => d.regionByte (a + k))), d)

/-- Write bytes to space 1; a transmit window stages them. -/
def Dev.writeRegion (a : Nat) (b : List Byte) (d : Dev) : Option Dev :=
  match txWindow a with
  | some k => some (d.onStream k (fun s => { s with staged := s.staged ++ b }))
  | none =>
    if regionSize < a + b.length then none
    else some (Dev.each ((List.range b.length).zip b) (fun p d => d.putRegion (a + p.1) p.2) d)

/-! ## Swaps (R329) -/

/-- The unit of a swap in bytes. -/
def swapUnit : Nat → Nat
  | 0 => 1
  | 1 => 2
  | _ => 4

/-- The order of the bytes of one unit. -/
def swapOrder : Nat → List Nat
  | 0 => [0]
  | 1 => [1, 0]
  | 2 => [3, 2, 1, 0]
  | _ => [2, 3, 0, 1]

/-- Byte `k` of the destination is this byte of the source, counted from the descriptor's first byte. -/
def swapIndex (swap k : Nat) : Nat := k / swapUnit swap * swapUnit swap + (swapOrder swap).getD (k % swapUnit swap) 0

/-! ## Descriptors (R327, R330) -/

/-- Read a descriptor at an address. -/
def dmaDesc (addr : Nat) (b : List Byte) : DmaDesc :=
  let w := leAt b 16 4
  { addr := addr
    src := leAt b 0 8
    dst := leAt b 8 8
    length := bits w 0 24
    srcSpace := bits w 24 2
    dstSpace := bits w 26 2
    swap := bits w 28 2
    irqHalf := hasBit w 30
    irqFull := hasBit w 31
    last := hasBit (leAt b 24 8) 0
    next := leAt b 24 8 / 32 * 32 }

/-- The table and entry size of a destination in space 2. -/
def DmaDesc.table (x : DmaDesc) : Nat := bits x.dst 32 4
def Dev.entrySize (d : Dev) (t : Nat) : Nat := if d.tabWide t then 128 else 64

/-- Is the descriptor malformed (R330)? Reserved are bits 31:5 of word 0x14 and 4:1 of word 0x18. -/
def Dev.dmaBad (d : Dev) (owner : Nat) (b : List Byte) (x : DmaDesc) : Bool :=
  x.length == 0 || 2 ≤ x.srcSpace || 3 ≤ x.dstSpace || !spaceOk owner x.srcSpace || !spaceOk owner x.dstSpace ||
  x.length % swapUnit x.swap != 0 || bits (leAt b 24 8) 1 4 != 0 || leAt b 20 4 / 32 != 0 ||
  (x.dstSpace == 2 && x.length % d.entrySize x.table != 0)

/-! ## Stops and errors (R335, R336) -/

/-- Word 0x14 of a descriptor (R327, R332). -/
def Dev.writeDone (c : Nat) (x : DmaDesc) (code : Nat) (d : Dev) : Dev :=
  let a := x.addr + 0x14
  let data := leBytes (1 + 2 * code) 4
  if (d.chanDma c).inner then (d.writeRegion a data).getD d
  else if d.canIssue (d.dmaFn c) then
    d.hostWrite (d.dmaFn c) a data { pasid := (d.dmaAttr c).pasid }
  else d

/-- What the channel's reads bring from now on is discarded. -/
def Dev.dropBursts (c : Nat) (d : Dev) : Dev :=
  let mine (r : Read) : Bool := match r.why with
    | .dmaBurst k _ => k == c
    | .dmaDescriptor k => k == c
    | _ => false
  { d with links := d.links.mapVals (fun _ l => { l with
    queue := l.queue.filter (fun r => !mine r)
    reads := l.reads.mapVals (fun _ r => if mine r then { r with dead := true } else r) }) }

/-- The channel stops with an error code at descriptor `x`. -/
def Dev.dmaStop (c code : Nat) (x : DmaDesc) (d : Dev) : Dev :=
  let d := ((d.dropBursts c).wr R.DMA_STATUS_state 5 c).wr R.DMA_STATUS_code code c
  let d := d.showCur c x.addr (x.length - x.written)
  let d := if code = 1 ∨ code = 5 then d else d.writeDone c x code
  let d := d.onDma c (fun h => { h with descs := [], fetching := none, fetched := none, fetchBad := false, flight := [], stopping := false })
  d.cause dmaCauses 3 c

/-- Fetch the descriptor at an address. -/
def Dev.dmaFetch (c addr : Nat) (d : Dev) : Dev :=
  let d := d.onDma c (fun h => { h with fetching := some addr, fetched := none, fetchBad := false })
  if (d.chanDma c).inner then d
  else if !d.hasFn (d.dmaFn c) then d.onDma c (fun h => { h with fetchBad := true })
  else if d.canIssue (d.dmaFn c) then d.hostRead (d.dmaFn c) addr 32 { pasid := (d.dmaAttr c).pasid } (fun _ _ => .dmaDescriptor c)
  else d

/-- A fetched descriptor that stops the channel does so once those before it have completed (R331). -/
def Dev.dmaSettle (c : Nat) (d : Dev) : Dev :=
  match (d.chanDma c).descs with
  | [] => match (d.chanDma c).fetching with
    | some a => if (d.chanDma c).fetchBad then d.dmaStop c 1 { addr := a } else d
    | none => d
  | x :: _ => match x.bad with
    | some code => d.dmaStop c code x
    | none => d

/-- A channel whose function may not issue requests reads halted (R339). -/
def Dev.dmaHalt (c : Nat) (d : Dev) : Dev :=
  if d.dmaState c = 1 then (d.wr R.DMA_STATUS_state 3 c).cause dmaCauses 6 c else d

/-- The paused state, once no burst is in flight. -/
def Dev.dmaPause (c : Nat) (d : Dev) : Dev :=
  if (d.chanDma c).stopping && (d.chanDma c).flight.isEmpty && d.dmaState c == 1 then
    (d.onDma c (fun h => { h with stopping := false })).wr R.DMA_STATUS_state 2 c
  else d

/-- DMA_CMD op 1 by master `mid`. -/
def Dev.dmaStart (mid c : Nat) (d : Dev) : Dev :=
  if d.dmaState c ≠ 0 ∧ d.dmaState c ≠ 4 ∧ d.dmaState c ≠ 5 then (d.bump R.DMA_REFUSED_count c).cause dmaCauses 7 c
  else
    let list := 32 * d.rd R.DMA_LIST_LO_list c + 2 ^ 32 * d.rd R.DMA_LIST_HI_list c
    let d := { d with dma := d.dma.set c {} }
    let d := ((d.wr R.DMA_STATUS_owner mid c).wr R.DMA_STATUS_state 1 c).wr R.DMA_STATUS_code 0 c
    let d := (d.wr64 R.DMA_BYTES_LO_bytes R.DMA_BYTES_HI_bytes 0 c).showCur c list 0
    let d := (d.dmaFetch c list).dmaSettle c
    if d.canIssue (d.dmaFn c) then d else d.dmaHalt c

/-- DMA_DESCRIPTOR_FETCHED: the descriptor whose bytes have come joins the channel's list. -/
def Dev.dmaFetched (c : Nat) (d : Dev) : Dev :=
  let h := d.chanDma c
  match h.fetching, h.fetched with
  | some a, some b =>
    let x := dmaDesc a b
    let x := if d.dmaBad (d.dmaOwner c) b x then { x with bad := some 2 }
      else if x.dstSpace = 2 ∧ (d.tabKind x.table ≠ 2 ∨ d.on R.MTB_TABLE_CFG_host_write 0 (32 * x.table) = false) then { x with bad := some 4 }
      else x
    let d := d.onDma c (fun h => { h with descs := h.descs ++ [x], fetching := none, fetched := none })
    let d := if h.descs.isEmpty then d.showCur c a x.length else d
    d.dmaSettle c
  | _, _ => d.dmaSettle c

/-! ## Bursts (R331-R334) -/

/-- The raw rate of a link in Mb/s: the trained width times the trained rate (R333). -/
def Dev.linkRawRate (d : Dev) (link : Nat) : Nat :=
  d.rd R.PCX_LINK_STATUS_width link * [0, 2500, 5000, 8000, 16000, 32000, 64000, 128000].getD (d.rd R.PCX_LINK_STATUS_rate link) 0

/-- Has the spacing after the last burst passed? Ticks are 4 ns. -/
def Dev.spaced (d : Dev) (c : Nat) : Bool :=
  let s := d.rd R.DMA_CTRL_share_permille c
  match (d.chanDma c).lastStart with
  | some (t, b) => s == 0 || 8000000 * b ≤ (d.rd64 R.TMP_TICKS_LO_value R.TMP_TICKS_HI_value - t) * 4 * s * d.linkRawRate (d.linkOf (d.dmaFn c))
  | none => true

/-- The length of the next burst of descriptor `x`. -/
def Dev.burstLen (d : Dev) (c : Nat) (x : DmaDesc) : Nat :=
  let h := d.chanDma c
  let most := 2 ^ (6 + min 6 (if x.started = 0 then d.rd R.DMA_CTRL_burst_log2 c else h.burstLog2))
  let n := min (x.length - x.started) most
  let n := min n (4096 - (x.src + x.started) % 4096)
  let n := if x.dstSpace = 2 then n else min n (4096 - (x.dst + x.started) % 4096)
  if x.srcSpace = 0 then min n (d.fn (d.dmaFn c)).maxRead else n

/-- Is the request line of the channel raised for a burst of `n` bytes of descriptor `x`? -/
def Dev.lineRaised (d : Dev) (c : Nat) (x : DmaDesc) (n : Nat) : Bool :=
  let line := d.rd R.DMA_CTRL_line c
  let h := d.chanDma c
  if line < 34 then (d.sites.getD (d.setAt line).site {}).threads.vals.any (fun t => t.assists.any (fun a => a.kind == 10))
  else if line = 34 then (match txWindow x.dst with
    | some k => d.die.variant.hasStp && (d.stream k).staged.length + (h.flight.map Burst.len).sum + n ≤ 32768
    | none => false)
  else if line = 35 then (match rxWindow x.src with
    | some k => d.die.variant.hasStp && n ≤ (d.stream k).window.length
    | none => false)
  else 48 ≤ line && 0 < d.rd R.DMA_STATUS_requests c

/-- The first descriptor with bytes whose bursts have not started. -/
def DmaChan.current (h : DmaChan) : Option DmaDesc := h.descs.find? (fun x => x.bad.isNone && x.started < x.length)

/-- DMA_BURST_START. -/
def Dev.dmaBurst (c : Nat) (d : Dev) : Dev :=
  let h := d.chanDma c
  match h.current with
  | none => d
  | some x =>
    let n := d.burstLen c x
    let paced := d.on R.DMA_CTRL_paced c
    let fn := d.dmaFn c
    if d.dmaState c ≠ 1 ∨ h.stopping = true ∨ 4 ≤ h.flight.length ∨ d.spaced c = false ∨ d.canIssue fn = false ∨
       (paced = true ∧ d.lineRaised c x n = false) then d
    else
      let d := if paced && 48 ≤ d.rd R.DMA_CTRL_line c then d.wr R.DMA_STATUS_requests (d.rd R.DMA_STATUS_requests c - 1) c else d
      let attr := if x.started = 0 then d.dmaAttr c else h.attr
      let log2 := if x.started = 0 then d.rd R.DMA_CTRL_burst_log2 c else h.burstLog2
      let id := h.nextBurst
      let moved : DmaDesc := { x with started := x.started + n }
      let line := d.rd R.DMA_CTRL_line c
      let site := if paced && line < 34 then some (d.setAt line).site else none
      let d := d.onDma c (fun h => { h with
        attr := attr
        burstLog2 := log2
        nextBurst := id + 1
        lastStart := some (d.rd64 R.TMP_TICKS_LO_value R.TMP_TICKS_HI_value, n)
        flight := h.flight ++ [{ id := id, desc := x.addr, off := x.started, len := n, attr := attr, site := site }]
        descs := h.descs.map (fun y => if y = x then moved else y) })
      let d := if x.srcSpace = 0 then
          d.hostRead fn (x.src + x.started) n { attr with steering := none } (fun _ _ => .dmaBurst c id)
        else
          let r := d.readRegion (x.src + x.started) n
          r.2.onDma c (fun h => { h with flight := h.flight.map (fun b => if b.id = id then
            { b with data := r.1, failed := r.1.isNone } else b) })
      if moved.started = x.length ∧ x.last = false ∧ h.inner = false then d.dmaFetch c x.next else d

/-- Write direct entries that have come whole (R328); a refused one says so. -/
def Dev.putEntries (t first : Nat) (b : List Byte) : Nat → Dev → Option Dev
  | 0, d => some d
  | n + 1, d =>
    let size := d.entrySize t
    if b.length < size then some d
    else if d.tabSize t ≤ first then none
    else Dev.putEntries t (first + 1) (b.drop size) n (d.onMtb (fun m => { m with direct := m.direct.set (2 ^ 26 * t + first) (b.take size) }))

/-- Put a burst's bytes at their destination; none where it refuses them. -/
def Dev.putBurst (c : Nat) (x : DmaDesc) (b : Burst) (data : List Byte) (d : Dev) : Option (DmaDesc × Dev) :=
  let unit := swapUnit x.swap
  let have_ := x.early ++ data
  -- swap units are counted from the descriptor's first byte: a unit that is not whole waits
  let size := if x.dstSpace = 2 then d.entrySize x.table else unit
  let n := have_.length / size * size
  let at_ := b.off - x.early.length
  let whole := (List.range n).map (fun k => have_.getD (swapIndex x.swap k) 0)
  let x := { x with early := have_.drop n }
  if x.dstSpace = 0 then some (x, d.hostWrite (d.dmaFn c) (x.dst + at_) whole b.attr)
  else if x.dstSpace = 1 then (d.writeRegion (x.dst + at_) whole).map (fun d => (x, d))
  else (d.putEntries x.table (bits x.dst 0 26 + at_ / size) whole n).map (fun d => (x, d))

/-- A descriptor whose last writes have been issued completes (R331, R332). -/
def Dev.dmaComplete (c : Nat) (x : DmaDesc) (d : Dev) : Dev :=
  let d := (d.writeDone c x 0).bump R.DMA_DESC_DONE_count c
  let d := if x.irqFull then d.cause dmaCauses 1 c else d
  let d := d.onDma c (fun h => { h with descs := h.descs.drop 1 })
  if x.last then ((d.onDma c (fun h => { h with descs := [], stopping := false })).wr R.DMA_STATUS_state 4 c).cause dmaCauses 2 c
  else
    let d := match (d.chanDma c).descs with
      | y :: _ => d.showCur c y.addr y.length
      | [] => d.showCur c x.next 0
    d.dmaSettle c

/-- A burst started for a Set's request line, whose site has departed, loses its data unless the incoming site raises the line again
(R339). -/
def Dev.burstLost (d : Dev) (c : Nat) (x : DmaDesc) (b : Burst) : Bool :=
  match b.site with
  | some s => s != (d.setAt (d.rd R.DMA_CTRL_line c)).site && !d.lineRaised c x b.len
  | none => false

/-- DMA_BURST_COMPLETE: the oldest burst's writes are issued. -/
def Dev.dmaBurstDone (c : Nat) (d : Dev) : Dev :=
  let h := d.chanDma c
  match h.flight, h.descs with
  | b :: rest, x :: _ =>
    if b.failed then d.dmaStop c 3 x
    else
      match b.data with
      | none => d
      | some data =>
        if d.dmaState c ≠ 1 ∨ ((x.dstSpace = 0 ∨ h.inner = false) ∧ d.canIssue (d.dmaFn c) = false) then d
        else
          let lost := d.burstLost c x b
          match if lost then some (x, d) else d.putBurst c x b data with
          | none => d.dmaStop c 4 x
          | some (x', d) =>
            let written := x.written + b.len
            let half := x.length / 2 ≤ written
            let y : DmaDesc := { x' with written := written, half := half }
            let d := d.onDma c (fun h => { h with flight := rest, descs := y :: h.descs.drop 1 })
            let d := d.wr64 R.DMA_BYTES_LO_bytes R.DMA_BYTES_HI_bytes
              ((d.rd64 R.DMA_BYTES_LO_bytes R.DMA_BYTES_HI_bytes c + (if lost then 0 else b.len)) % 2 ^ 64) c
            let d := d.showCur c x.addr (x.length - written)
            let d := if half && !x.half && x.irqHalf then
                (if d.on R.DMA_CAUSE_half c then d.cause dmaCauses 4 c else d.cause dmaCauses 0 c)
              else d
            let d := if written = x.length then d.dmaComplete c y else d
            d.dmaPause c
  | _, _ => d

/-! ## What comes from outside a channel -/

/-- A descriptor read has returned; `none` where it failed. -/
def Dev.dmaDescArrived (c : Nat) (data : Option (List Byte)) (d : Dev) : Dev :=
  d.onDma c (fun h => { h with fetched := data, fetchBad := data.isNone })

/-- A burst's read has returned. -/
def Dev.dmaBurstArrived (c id : Nat) (data : Option (List Byte)) (d : Dev) : Dev :=
  d.onDma c (fun h => { h with flight := h.flight.map (fun b => if b.id = id then
    { b with data := data, failed := data.isNone } else b) })

/-- The channels whose requests carry a function. -/
def Dev.dmaChannelsOf (d : Dev) (fn : Nat) : List Nat :=
  (List.range 64).filter (fun c => d.dmaFn c == fn && (d.dmaState c == 1 || d.dmaState c == 2 || d.dmaState c == 3))

/-- Bus Master Enable was cleared: read data not yet come is discarded (R127, R339). -/
def Dev.dmaHaltAll (fn : Nat) (d : Dev) : Dev := Dev.each (d.dmaChannelsOf fn) Dev.dmaHalt d

/-- Issue a burst's host read again whole. -/
def Dev.dmaReissue (c : Nat) (b : Burst) (d : Dev) : Dev :=
  match (d.chanDma c).descs.find? (fun x => x.addr == b.desc) with
  | some x =>
    if x.srcSpace = 0 ∧ b.data.isNone = true ∧ b.failed = false then
      d.hostRead (d.dmaFn c) (x.src + b.off) b.len { b.attr with steering := none } (fun _ _ => .dmaBurst c b.id)
    else d
  | none => d

/-- Bus Master Enable was set: discarded bursts are issued again, and the channels run on. -/
def Dev.dmaRunAll (fn : Nat) (d : Dev) : Dev :=
  Dev.each ((d.dmaChannelsOf fn).filter (fun c => d.dmaState c == 3)) (fun c d =>
    let d := d.wr R.DMA_STATUS_state 1 c
    let d := match (d.chanDma c).fetching with
      | some a => if (d.chanDma c).fetched.isNone && !(d.chanDma c).fetchBad then d.dmaFetch c a else d
      | none => d
    (Dev.each (d.chanDma c).flight (Dev.dmaReissue c) d).dmaPause c) d

/-- The owner was reset (R335 code 5). -/
def Dev.dmaOwnerReset (fn : Nat) (d : Dev) : Dev :=
  Dev.each (d.dmaChannelsOf fn) (fun c d =>
    let a := d.rd64 R.DMA_CUR_LO_cur R.DMA_CUR_HI_cur c
    d.dmaStop c 5 ((d.chanDma c).descs.headD { addr := a })) d

/-- Every channel reads idle, without owner and requests (R338). -/
def Dev.dmaServiceReset (d : Dev) : Dev :=
  Dev.each (List.range 64) (fun c d =>
    let d := ((d.wr R.DMA_STATUS_state 0 c).wr R.DMA_STATUS_code 0 c).wr R.DMA_STATUS_requests 0 c
    (d.wr R.DMA_STATUS_owner 0 c).showCur c 0 0) { d with dma := {} }

/-- Release a channel that firmware used. -/
def Dev.dmaRelease (c : Nat) (d : Dev) : Dev :=
  (((d.dropBursts c).wr R.DMA_STATUS_state 0 c).wr R.DMA_STATUS_owner 0 c).onDma c (fun _ => {})

/-- DMA_CMD op 2: no further burst starts, and the channel reads paused once those in flight have ended (R336). -/
def Dev.dmaStopOp (c : Nat) (d : Dev) : Dev :=
  if d.dmaState c = 1 ∨ d.dmaState c = 3 then (d.onDma c (fun h => { h with stopping := true })).dmaPause c else d

/-- DMA_CMD op 3: a paused channel goes on (R336). -/
def Dev.dmaResumeOp (c : Nat) (d : Dev) : Dev :=
  if d.dmaState c = 2 then
    (let d := d.wr R.DMA_STATUS_state 1 c
     if d.canIssue (d.dmaFn c) then d else d.dmaHalt c)
  else d

/-- DMA_CMD op 4: one more request, up to 255 (R334). -/
def Dev.dmaRequestOp (c : Nat) (d : Dev) : Dev :=
  if d.rd R.DMA_STATUS_requests c = 255 then d.cause dmaCauses 8 c
  else d.wr R.DMA_STATUS_requests (d.rd R.DMA_STATUS_requests c + 1) c

/-! ## Commands -/

/-- DMA_START. -/
def execDmaStart (mid channel : Nat) (s : State) : Out := s.onRun (Dev.dmaStart mid channel)

/-- DMA_STOP. -/
def execDmaStop (_mid channel : Nat) (s : State) : Out := s.onRun (Dev.dmaStopOp channel)

/-- DMA_RESUME. -/
def execDmaResume (_mid channel : Nat) (s : State) : Out := s.onRun (Dev.dmaResumeOp channel)

/-- DMA_REQUEST. -/
def execDmaRequest (_mid channel : Nat) (s : State) : Out := s.onRun (Dev.dmaRequestOp channel)

/-- DMA_DESCRIPTOR_FETCHED. -/
def execDmaDescriptorFetched (channel : Nat) (s : State) : Out := s.onRun (Dev.dmaFetched channel)

/-- DMA_BURST_START. -/
def execDmaBurstStart (channel : Nat) (s : State) : Out := s.onRun (Dev.dmaBurst channel)

end Sys2Proof.Machine
end

