-- ==== Sys2Proof/Machine/Stream.lean ====
section
/-!
DEFINITION. The Stream Port (R458-R473): training, flits, retry, credits, messages and bulk streams. The messages by which the
firmware of the two ends announces, opens and ends a transfer are the model's own (notes/assumptions/31.md).
-/

namespace Sys2Proof.Machine

/-- Change the port's state. -/
def Dev.onStp (d : Dev) (f : Stp → Stp) : Dev := { d with stp := f d.stp }

/-- STP_STATUS.state: 0 off; 1 training; 2 up x16; 3 up x8; 4 retraining; 5 down. -/
def Dev.stpState (d : Dev) : Nat := d.rd R.STP_STATUS_state
def Dev.setStpState (v : Nat) (d : Dev) : Dev := d.wr R.STP_STATUS_state v
def Dev.stpRuns (d : Dev) : Bool := d.stpState == 2 || d.stpState == 3

/-- replay_limit and retrain_limit; 0 acts as 1. -/
def Dev.replayLimit (d : Dev) : Nat := max 1 (d.rd R.STP_CONFIG_replay_limit)
def Dev.retrainLimit (d : Dev) : Nat := max 1 (d.rd R.STP_CONFIG_retrain_limit)

/-- Begin training where the port is paired, enabled and powered (R458). -/
def Dev.stpTrain (d : Dev) : Dev :=
  if d.die.variant.hasStp && d.on R.STP_CTRL_pair_enable && d.on R.STP_CTRL_link_enable && d.domainOn 42 &&
     (d.stpState == 0 || d.stpState == 5) then
    (d.onStp (fun s => { s with waits := false, fails := 0 })).setStpState 1
  else d

/-! ## Messages of firmware to its peer -/

/-- The core channel to the peer, and the one from it. -/
def Dev.peerChannel (d : Dev) (out : Bool) : Option Nat :=
  (List.range 18432).find? (fun c => match d.binding c with
    | some (t, r) => if out then isCoreMid t && r == midStp else t == midStp && isCoreMid r
    | none => false)

/-- The next message of firmware goes into its channel. -/
def Dev.sayNext (d : Dev) : Dev :=
  match d.peerChannel true, d.stp.outbox with
  | some c, w :: rest => if (d.chan c).held.isSome then d else (d.onStp (fun s => { s with outbox := rest })).post c w (4 * w.length)
  | _, _ => d

/-- Firmware tells its peer; while the port is not up nobody hears it. -/
def Dev.say (words : List Nat) (d : Dev) : Dev :=
  if d.stpUp then (d.onStp (fun s => { s with outbox := s.outbox ++ [words] })).sayNext else d

/-- An announcement of a send, the opening of a stream by its receiver, and the end of a transfer. -/
def sayAnnounce (x : Xfer) : List Nat := [0x52, x.id, x.length, x.stream.getD 0]
def sayOpen (x : Xfer) (credits : Nat) : List Nat := [0x53, x.id, credits]
def sayEnd (id outcome moved : Nat) : List Nat := [0x54, id, outcome, moved]

/-! ## Transfers (R467-R469) -/

/-- The register block of a stream, and its key in the stream table. -/
def Xfer.block (x : Xfer) : Nat := 16 * x.stream.getD 0
def Xfer.key (x : Xfer) : Nat := x.stream.getD 0 + (if x.receive then 16 else 0)

/-- Bytes that the transfer's channel has written. -/
def Dev.xferBytes (d : Dev) (x : Xfer) : Nat := d.rd64 R.DMA_BYTES_LO_bytes R.DMA_BYTES_HI_bytes x.channel

/-- Show a transfer: its state, bytes moved, and the counts of STP_STATUS. -/
def Dev.showXfer (x : Xfer) (state : Nat) (d : Dev) : Dev :=
  let a := x.block
  let d := ((d.wr R.STP_STREAM_STATE_state state 0 a).wr R.STP_STREAM_STATE_dir x.receive.toNat 0 a).wr R.STP_STREAM_STATE_channel x.channel 0 a
  let d := (d.wr R.STP_STREAM_STATE_credits (d.stream x.key).credits 0 a).wr R.STP_STREAM_XFER_value x.id 0 a
  let d := (d.wr R.STP_STREAM_LEN_value x.length 0 a).wr R.STP_STREAM_DONE_value (if x.receive then d.xferBytes x else (d.stream x.key).moved) 0 a
  d.wr R.STP_STATUS_open_streams d.stp.xfers.length

/-- Replace a transfer in the list. -/
def Dev.putXfer (x : Xfer) (d : Dev) : Dev := d.onStp (fun s => { s with xfers := s.xfers.map (fun y => if y.id == x.id then x else y) })

/-- The descriptor that moves the next 64 KiB of a transfer. -/
def Xfer.desc (x : Xfer) (done : Nat) : DmaDesc :=
  let n := min 65536 (x.length - done)
  let window := (if x.receive then 0x0F100000 else 0x0F000000) + 65536 * x.stream.getD 0
  { addr := 0x0F200000 + 32 * x.channel
    src := if x.receive then window else x.addr + done
    dst := if x.receive then x.addr + done else window
    length := n
    srcSpace := x.receive.toNat
    dstSpace := (!x.receive).toNat
    last := done + n == x.length
    next := 0x0F200000 + 32 * x.channel }

/-- Start a transfer's channel (R467). -/
def Dev.startXfer (x : Xfer) (d : Dev) : Dev :=
  let c := x.channel
  let x := { x with running := true }
  let d := d.putXfer x
  let owner := ((d.peerChannel true).bind d.binding).map Prod.fst
  let d := { d with dma := d.dma.set c { inner := true, descs := [x.desc 0] } }
  let d := ((d.wr R.DMA_STATUS_owner (owner.getD 1) c).wr R.DMA_STATUS_state 1 c).wr R.DMA_STATUS_code 0 c
  let d := ((d.wr64 R.DMA_BYTES_LO_bytes R.DMA_BYTES_HI_bytes 0 c).wr R.DMA_FUNC_function x.fn c).wr R.DMA_CTRL_paced 1 c
  let d := ((d.wr R.DMA_CTRL_line (if x.receive then 35 else 34) c).wr R.DMA_CTRL_ro x.relaxed.toNat c).wr R.DMA_CTRL_ns x.noSnoop.toNat c
  let d := (d.wr R.DMA_CTRL_burst_log2 6 c).showXfer x 2
  if d.canIssue x.fn then d else d.dmaHalt c

/-- A transfer ends (R469): its channel is released, its grant returned, its requester answered. -/
def Dev.finishXfer (x : Xfer) (outcome moved : Nat) (answer : Bool) (d : Dev) : Dev :=
  let grant := if x.receive && x.running then (d.stream x.key).credits else 0
  let d := d.onStp (fun s => { s with xfers := s.xfers.filter (fun y => y.id != x.id) })
  let d := if x.running then d.dmaRelease x.channel else d
  let d := (d.onStream x.key (fun _ => {})).showXfer x 0
  let d := (d.wr R.STP_STREAM_STATE_outcome outcome 0 x.block).wr R.STP_STREAM_DONE_value moved 0 x.block
  let d := d.wr R.STP_STATUS_credits_free (d.rd R.STP_STATUS_credits_free + grant)
  let d := d.cause stpCauses (if outcome = 0 then 5 else 6)
  let d := if outcome = 7 then d.cause stpCauses 8 else if outcome = 6 then d.cause stpCauses 9 else d
  if answer then d.answerRequest x.fn 0x50 x.tag (if outcome = 0 then 0 else 4) [x.stream.getD 0, moved, outcome] else d

/-- The bytes that a transfer has moved so far. -/
def Dev.movedOf (d : Dev) (x : Xfer) : Nat :=
  if !x.running then 0 else if x.receive then d.xferBytes x else (d.stream x.key).moved

/-- The lowest stream that no transfer here uses. -/
def Dev.freeStream (d : Dev) : Option Nat := (List.range 16).find? (fun n => d.stp.xfers.all (fun x => x.stream != some n))

/-- A channel of those reserved for the port that is not in use. -/
def Dev.freeStpChannel (d : Dev) : Option Nat :=
  (List.range 64).find? (fun c => hasBit d.identity.stpChannels c && d.stp.xfers.all (fun x => x.channel != c) &&
    (d.dmaState c == 0 || d.dmaState c == 4 || d.dmaState c == 5))

/-- A receive takes the stream of the sender; one that waits under that number changes with it. -/
def Dev.adoptStream (x : Xfer) (n : Nat) (d : Dev) : Dev :=
  d.onStp (fun s => { s with xfers := s.xfers.map (fun y =>
    if y.id == x.id then { y with stream := some n }
    else if y.receive && !y.running && y.stream == some n then { y with stream := x.stream }
    else y) })

/-- Pair a receive with an announced send: refused on another length, opened where its grant fits (R465, R469). -/
def Dev.tryMatch (x : Xfer) (d : Dev) : Dev :=
  match d.stp.heard.find? (fun h => h.1 == x.id) with
  | none => d
  | some (id, length, _, n) =>
    let grant := d.rd R.STP_CONFIG_stream_credits
    let free := d.rd R.STP_STATUS_credits_free
    if length ≠ x.length then
      (((d.onStp (fun s => { s with heard := s.heard.filter (fun h => h.1 != id) })).say (sayEnd id 5 0)).finishXfer x 5 0 true)
    else if free < grant then d
    else
      let d := (d.onStp (fun s => { s with heard := s.heard.filter (fun h => h.1 != id) })).adoptStream x n
      let y := { x with stream := some n }
      let d := (d.onStream y.key (fun _ => { credits := grant })).wr R.STP_STATUS_credits_free (free - grant)
      (d.say (sayOpen y grant)).startXfer y

/-- Receives that wait in matching are tried again. -/
def Dev.retryMatches (d : Dev) : Dev := Dev.each (d.stp.xfers.filter (fun x => x.receive && !x.running)) Dev.tryMatch d

/-- A transfer ends here, and the peer is told. -/
def Dev.endXfer (x : Xfer) (outcome : Nat) (d : Dev) : Dev :=
  let moved := if outcome = 0 then x.length else d.movedOf x
  ((d.say (sayEnd x.id outcome moved)).finishXfer x outcome moved true).retryMatches

/-- A message of the peer's firmware. -/
def Dev.heardPeer (w : List Nat) (d : Dev) : Dev :=
  let id := w.getD 1 0
  let x := d.stp.xfers.find? (fun x => x.id == id)
  match w.getD 0 0 % 256, x with
  | 0x52, x =>
    let d := d.onStp (fun s => { s with heard := s.heard.filter (fun h => h.1 != id) ++ [(id, w.getD 2 0, false, w.getD 3 0 % 16)] })
    match x with
    | some x => if x.receive && !x.running then d.tryMatch x else d
    | none => d
  | 0x53, some x =>
    if x.receive || x.running then d else (d.onStream x.key (fun _ => { credits := w.getD 2 0 })).startXfer x
  | 0x54, some x => (d.finishXfer x (w.getD 2 0 % 16) (if x.receive then d.movedOf x else w.getD 3 0) true).retryMatches
  | 0x54, none => d.onStp (fun s => { s with heard := s.heard.filter (fun h => h.1 != id) })
  | _, _ => d

/-- Firmware looks after the transfer of a channel whose burst has completed: the next 64 KiB, the end, or a failure. -/
def Dev.serveXfer (c : Nat) (d : Dev) : Dev :=
  match d.stp.xfers.find? (fun x => x.running && x.channel == c) with
  | none => d
  | some x =>
    if d.dmaState c = 5 then d.endXfer x 4
    else if d.dmaState c = 4 then (if x.receive then d.endXfer x 0 else d.showXfer x 3)
    else if (d.chanDma c).descs.isEmpty then (d.onDma c (fun h => { h with descs := [x.desc (d.xferBytes x)] })).showXfer x 2
    else d.showXfer x 2

/-- 0x50 (R468). -/
def Dev.bulkRequest (fn tag : Nat) (w : List Nat) (d : Dev) : Dev :=
  let x : Xfer := {
    fn := fn
    tag := tag
    receive := hasBit (w.getD 1 0) 0
    noSnoop := hasBit (w.getD 1 0) 1
    relaxed := hasBit (w.getD 1 0) 2
    id := w.getD 2 0
    addr := w.getD 3 0 + 2 ^ 32 * w.getD 4 0
    length := w.getD 5 0 }
  if !d.die.variant.hasStp then d.answerRequest fn 0x50 tag 5 []
  else if 16 ≤ fn || !d.reaches fn 213 then d.answerRequest fn 0x50 tag 1 []
  else if x.length = 0 then d.answerRequest fn 0x50 tag 3 []
  else if d.stp.xfers.any (fun y => y.id == x.id) then d.answerRequest fn 0x50 tag 4 []
  else if !d.stpUp then (d.answerRequest fn 0x50 tag 4 [0, 0, 2]).cause stpCauses 6
  else
    match d.freeStream, d.freeStpChannel with
    | some n, some c =>
      let x := { x with stream := some n, channel := c }
      let d := (d.onStp (fun s => { s with xfers := s.xfers ++ [x] })).showXfer x 1
      if x.receive then d.tryMatch x else d.say (sayAnnounce x)
    | _, _ => d.answerRequest fn 0x50 tag 2 []

/-- 0x51: only the requester cancels its transfer. -/
def Dev.bulkCancel (fn tag : Nat) (w : List Nat) (d : Dev) : Dev :=
  if !d.die.variant.hasStp then d.answerRequest fn 0x51 tag 5 []
  else if 16 ≤ fn || !d.reaches fn 213 then d.answerRequest fn 0x51 tag 1 []
  else
    match d.stp.xfers.find? (fun x => x.id == w.getD 2 0) with
    | none => d.answerRequest fn 0x51 tag 3 []
    | some x => if x.fn ≠ fn then d.answerRequest fn 0x51 tag 1 [] else (d.endXfer x 3).answerRequest fn 0x51 tag 0 []

/-- A reset of a function ends its transfers with outcome 3, unanswered (R470). -/
def Dev.stpFnReset (fn : Nat) (d : Dev) : Dev :=
  (Dev.each (d.stp.xfers.filter (fun x => x.fn == fn)) (fun x d =>
    (d.say (sayEnd x.id 3 (d.movedOf x))).finishXfer x 3 (d.movedOf x) false) d).retryMatches

/-! ## Loss of the link (R464, R470) -/

/-- The link goes down. -/
def Dev.stpDown (state : Nat) (d : Dev) : Dev :=
  let d := d.setStpState state
  let d := Dev.each d.stp.xfers (fun x d => d.finishXfer x 2 (d.movedOf x) true) d
  let held := (d.chans.filter (fun c h => h.held.isSome && (match d.binding c with
    | some (_, r) => r == midStp
    | none => false))).keys
  let d := Dev.each held (fun c d =>
    match (d.chan c).held with
    | some m => ((d.onChan c (fun h => { h with held := none, latched := false })).setFull c false).acknowledge c 0xFFFE m.seq
    | none => d) d
  { d with stp := { fails := d.stp.fails, retrains := d.stp.retrains } }.cause stpCauses 1

/-- The link retrains, or goes down at the limit (R464). -/
def Dev.stpRetrain (d : Dev) : Dev :=
  let recent := (d.uptime :: d.stp.retrains).filter (fun t => d.uptime < t + 1000)
  let d := ((d.onStp (fun s => { s with retrains := recent, waits := false })).bump R.STP_RETRAINS_count).cause stpCauses 2
  if d.retrainLimit < recent.length then d.stpDown 5 else d.setStpState 4

/-- Training ends up at 16 or 8 lanes; kept flits are resent after a retrain (R460, R464). -/
def Dev.stpEnter (state : Nat) (d : Dev) : Dev :=
  let again := d.stpState = 4
  let d := if again then d.onStp (fun s => { s with
      resend := s.kept
      firstAck := true
      nakDue := false
      nakOut := false
      fails := 0 }) |>.when (!d.stp.kept.isEmpty) (Dev.bump · R.STP_REPLAYS_count)
    else ({ d with stp := { retrains := d.stp.retrains, msgCredits := 16 } }).wr R.STP_STATUS_credits_free 2032
  let d := (d.setStpState state).cause stpCauses 0
  let d := if state = 3 then d.cause stpCauses 3 else d
  d.emit (.stpControl [d.rd R.STP_LOCAL_ID_local_id, if state = 3 then 8 else 16, 16, 2032])

/-! ## Sending (R461-R463) -/

/-- The stream of this end that has credits to return. -/
def Dev.owingStream (d : Dev) : Option Nat := (List.range 16).find? (fun n => (d.stream (16 + n)).owed != 0)

/-- Put a flit out with the acknowledgement and credits that are due. -/
def Dev.putFlit (f : Flit) (d : Dev) : Dev :=
  let s := d.stp
  let k := d.owingStream.getD 0
  let n := min 255 (d.stream (16 + k)).owed
  let d := d.emit (.flitOut { f with
    ackSeq := (s.expect + 4095) % 4096
    ackValid := s.good.isSome
    nak := s.nakDue
    msgCredits := min 3 s.msgOwed
    crStream := k
    crCount := n })
  let d := d.onStp (fun s => { s with nakDue := false, msgOwed := s.msgOwed - 3 })
  if n = 0 then d else d.onStream (16 + k) (fun x => { x with owed := x.owed - n })

/-- Count a data or message flit that is sent. -/
def Dev.countTx (d : Dev) : Dev :=
  d.wr64 R.STP_TX_FLITS_LO_flits R.STP_TX_FLITS_HI_flits ((d.rd64 R.STP_TX_FLITS_LO_flits R.STP_TX_FLITS_HI_flits + 1) % 2 ^ 64)

/-- Send a flit that takes a sequence, and keep it. -/
def Dev.sendFlit (f : Flit) (d : Dev) : Dev :=
  let f := { f with fseq := d.stp.fseq }
  ((d.onStp (fun s => { s with fseq := (s.fseq + 1) % 4096, kept := s.kept ++ [f] })).putFlit f).countTx

/-- The payload of a message flit (R466). -/
def StpMsg.payload (m : StpMsg) : List Byte :=
  leBytes (m.channel + 32768 * m.ack.toNat + 65536 * m.len) 4 ++ leBytes (m.seq + 65536 * m.code) 4 ++
    (m.words.flatMap (fun w => leBytes w 4)).take m.len

/-- A held message for the peer that has not been sent. -/
def Dev.waitingMsg (d : Dev) : Option StpMsg :=
  (d.chans.entries.findSome? (fun e => match d.binding e.1, e.2.held with
    | some (_, r), some m =>
      if r == midStp && !d.stp.sentMsgs.contains (e.1, m.seq) then
        some { channel := e.1, ack := false, seq := m.seq, len := m.len, words := m.words } else none
    | _, _ => none))

/-- The next message: acknowledgements first (notes/assumptions/31.md). -/
def Dev.nextMsg (d : Dev) : Option StpMsg := d.stp.msgs.head?.orElse (fun _ => d.waitingMsg)

/-- Bytes of a send that flits have taken. -/
def Dev.sentOf (d : Dev) (x : Xfer) : Nat := d.xferBytes x - (d.stream x.key).staged.length

/-- Does a send hold a credit and the bytes of its next flit? -/
def Dev.sendReady (d : Dev) (x : Xfer) : Bool :=
  let s := d.stream x.key
  !x.receive && x.running && s.credits != 0 && s.staged.length != 0 && (240 ≤ s.staged.length || d.xferBytes x == x.length)

/-- The send whose turn it is. -/
def Dev.nextSend (d : Dev) : Option Xfer :=
  ((List.range 16).map (fun k => (d.stp.turn + 1 + k) % 16)).findSome? (fun n =>
    d.stp.xfers.find? (fun x => x.stream == some n && d.sendReady x))

/-- STP_FLIT_SEND. -/
def Dev.chooseFlit (d : Dev) : Dev :=
  let idle (d : Dev) : Dev := d.putFlit { kind := 0, fseq := d.stp.fseq }
  if !d.stpRuns then d
  else
    match d.stp.resend with
    | f :: rest => ((d.onStp (fun s => { s with resend := rest })).putFlit f).countTx
    | [] =>
      if 512 ≤ d.stp.kept.length then idle d
      else
        match d.nextMsg, decide (0 < d.stp.msgCredits) with
        | some m, true =>
          let d := d.onStp (fun s => { s with
            msgCredits := s.msgCredits - 1
            msgs := if m.ack then s.msgs.drop 1 else s.msgs
            sentMsgs := if m.ack then s.sentMsgs else s.sentMsgs.filter (fun p => p.1 != m.channel) ++ [(m.channel, m.seq)] })
          d.sendFlit { kind := 3, payload := m.payload }
        | _, _ =>
          match d.nextSend with
          | none => idle d
          | some x =>
            let b := (d.stream x.key).staged.take 240
            let last := d.sentOf x + b.length == x.length
            let d := d.onStream x.key (fun s => { s with staged := s.staged.drop 240, credits := s.credits - 1 })
            let d := d.onStp (fun s => { s with turn := x.stream.getD 0 })
            (d.sendFlit { kind := if last then 2 else 1, stream := x.stream.getD 0, payload := b }).showXfer x 2

/-! ## Receiving (R463-R466) -/

/-- Data flits that an acknowledgement covers are bytes moved. -/
def Dev.countMoved (gone : List Flit) (d : Dev) : Dev :=
  Dev.each (gone.filter (fun f => f.kind == 1 || f.kind == 2)) (fun f d =>
    match d.stp.xfers.find? (fun x => !x.receive && x.running && x.stream == some f.stream) with
    | some x => (d.onStream x.key (fun s => { s with moved := s.moved + f.payload.length })).showXfer x 2
    | none => d) d

/-- The acknowledgement, nak and credits that a flit carries. -/
def Dev.takeFields (f : Flit) (d : Dev) : Dev :=
  let s := d.stp
  let first := ((s.kept.head?.map Flit.fseq).getD s.fseq + 4095) % 4096
  let n := (s.kept.map Flit.fseq).idxOf f.ackSeq
  let inside := n < s.kept.length
  if f.ackValid ∧ inside = false ∧ f.ackSeq ≠ first ∧ s.firstAck = true then d.stpDown 5
  else
    let gone := if f.ackValid && inside then s.kept.take (n + 1) else []
    let d := d.onStp (fun s => { s with
      kept := s.kept.drop gone.length
      resend := s.resend.filter (fun r => !gone.any (fun g => g.fseq == r.fseq))
      firstAck := s.firstAck && !f.ackValid
      resends := if gone.isEmpty then s.resends else 0
      msgCredits := s.msgCredits + f.msgCredits })
    let d := d.countMoved gone
    let d := match d.stp.xfers.find? (fun x => !x.receive && x.running && x.stream == some f.crStream) with
      | some x => (d.onStream x.key (fun s => { s with credits := s.credits + f.crCount })).showXfer x 2
      | none => d
    if !f.nak then d
    else if d.replayLimit ≤ d.stp.resends then d.stpRetrain
    else (d.onStp (fun s => { s with resend := s.kept, resends := s.resends + 1 })).bump R.STP_REPLAYS_count

/-- A flit that the receiver discards: the first after an in-order flit sends a nak (R463). -/
def Dev.discardFlit (f : Flit) (d : Dev) : Dev :=
  if d.stp.nakOut then d
  else
    let d := d.onStp (fun s => { s with nakOut := true, nakDue := true })
    if f.crcOk then (d.bump R.STP_PROTO_ERRORS_count).cause stpCauses 7
    else (d.bump R.STP_CRC_ERRORS_count).cause stpCauses 4

/-- Is the flit one that the receiver takes? -/
def Dev.flitGood (d : Dev) (f : Flit) : Bool := f.crcOk && f.kind < 5 && f.fseq == d.stp.expect

/-- Count a flit that is delivered in order. -/
def Dev.countRx (d : Dev) : Dev :=
  d.wr64 R.STP_RX_FLITS_LO_flits R.STP_RX_FLITS_HI_flits ((d.rd64 R.STP_RX_FLITS_LO_flits R.STP_RX_FLITS_HI_flits + 1) % 2 ^ 64)

/-- A flit reaches the receiver: discarded, or taken in order with what it carries. -/
def Dev.receiveFlit (f : Flit) (body : Dev → Dev) (d : Dev) : Dev :=
  if !d.stpRuns then d
  else if !d.flitGood f then d.discardFlit f
  else
    let counts := 1 ≤ f.kind && f.kind ≤ 3
    let d := d.onStp (fun s => { s with
      nakOut := false
      expect := if counts then (s.expect + 1) % 4096 else s.expect
      good := if counts then some f.fseq else s.good })
    let d := d.takeFields f
    if d.stpUp then body d else d

/-- A data flit goes to its stream's window (R465, R467). -/
def Dev.takeData (f : Flit) (d : Dev) : Dev :=
  let violated (d : Dev) : Dev := (d.bump R.STP_PROTO_ERRORS_count).cause stpCauses 7
  match d.stp.xfers.find? (fun x => x.receive && x.running && x.stream == some f.stream) with
  | none => violated d
  | some x =>
    let s := d.stream x.key
    if s.credits ≤ s.flits.length + s.owed then (violated d).endXfer x 8
    else
      let d := d.countRx.onStream x.key (fun s => { s with
        window := s.window ++ f.payload
        flits := s.flits ++ [f.payload.length]
        moved := s.moved + f.payload.length })
      let got := (d.stream x.key).moved
      if (f.kind = 2 ∧ got ≠ x.length) ∨ (f.kind = 1 ∧ x.length ≤ got) then d.endXfer x 1 else d

/-- A message of the peer is sent on its channel; an acknowledgement ends one of this end's (R466). -/
def Dev.takeMessage (f : Flit) (d : Dev) : Dev :=
  let w := leAt f.payload 0 4
  let c := bits w 0 15
  let len := bits w 16 7
  let seq := leAt f.payload 4 2
  let code := leAt f.payload 6 2
  let d := d.countRx.onStp (fun s => { s with msgOwed := s.msgOwed + 1 })
  if hasBit w 15 then
    let d := d.onStp (fun s => { s with sentMsgs := s.sentMsgs.filter (fun p => p != (c, seq)) })
    match (d.chan c).held, d.binding c with
    | some m, some (_, r) =>
      if r = midStp ∧ m.seq = seq then
        (((d.onChan c (fun h => { h with held := none, latched := false })).setFull c false).acknowledge c code seq).sayNext
      else d
    | _, _ => d
  else
    let words := (List.range 16).map (fun n => leAt f.payload (8 + 4 * n) 4)
    match d.binding c with
    | some (t, _) =>
      if t ≠ midStp then d.onStp (fun s => { s with msgs := s.msgs ++ [{ channel := c, ack := true, seq := seq, code := 0xFFFC, len := 1 }] })
      else
        let here := (d.rd R.MBX_TX_STATUS_seq 0 (256 * c) + 1) % 65536
        let d := (d.onStp (fun s => { s with taken := s.taken ++ [(c, here, seq)] })).post c words len
        if d.peerChannel false = some c ∧ 0x52 ≤ words.getD 0 0 % 256 ∧ words.getD 0 0 % 256 ≤ 0x54 then
          ((d.latchView c).ackView c 0).heardPeer words
        else d
    | none => d.onStp (fun s => { s with msgs := s.msgs ++ [{ channel := c, ack := true, seq := seq, code := 0xFFFC, len := 1 }] })

/-! ## Commands -/

/-- STP_TRAINING_DONE: 16 or 8 lanes, or 0 where training failed. -/
def execStpTrainingDone (width : Nat) (s : State) : Out :=
  s.onRun (fun d =>
    if (d.stpState ≠ 1 ∧ d.stpState ≠ 4) ∨ d.stp.waits = true then d
    else if width = 16 then d.stpEnter 2
    else if width = 8 ∧ d.on R.STP_CTRL_allow_x8 = true then d.stpEnter 3
    else d.onStp (fun s => { s with waits := true, fails := s.fails + 1 }))

/-- STP_TRAINING_RETRY: 10 ms after a failed training. -/
def execStpTrainingRetry (s : State) : Out :=
  s.onRun (fun d =>
    if !d.stp.waits then d
    else if d.retrainLimit ≤ d.stp.fails then d.stpDown 5
    else d.onStp (fun s => { s with waits := false }))

/-- STP_FLIT_SEND. -/
def execStpFlitSend (s : State) : Out := s.onRun Dev.chooseFlit

/-- STP_DATA_FLIT. -/
def execStpDataFlit (flit : Flit) (s : State) : Out :=
  s.onRun (Dev.receiveFlit { flit with kind := 1 } (Dev.takeData { flit with kind := 1 }))

/-- STP_DATA_LAST_FLIT. -/
def execStpDataLastFlit (flit : Flit) (s : State) : Out :=
  s.onRun (Dev.receiveFlit { flit with kind := 2 } (Dev.takeData { flit with kind := 2 }))

/-- STP_MESSAGE_FLIT. -/
def execStpMessageFlit (flit : Flit) (s : State) : Out :=
  s.onRun (Dev.receiveFlit { flit with kind := 3 } (Dev.takeMessage { flit with kind := 3 }))

/-- STP_CONTROL_FLIT: the peer's local_id and whether it is an S9640; during training it is taken as it comes. -/
def execStpControlFlit (flit : Flit) (peerId : Nat) (peerS9640 : Bool) (s : State) : Out :=
  s.onRun (fun d =>
    let show_ (d : Dev) : Dev := (d.wr R.STP_PEER_ID_peer_id peerId).wr R.STP_STATUS_peer_s9640 peerS9640.toNat
    if (d.stpState = 1 ∨ d.stpState = 4) ∧ d.stp.waits = false then show_ d
    else d.receiveFlit { flit with kind := 4 } show_)

/-- STP_IDLE_FLIT. -/
def execStpIdleFlit (flit : Flit) (s : State) : Out := s.onRun (Dev.receiveFlit { flit with kind := 0 } id)

/-- STP_FLIT_DISCARD: a flit that the receiver does not take; a good one is none of these. -/
def execStpFlitDiscard (flit : Flit) (s : State) : Out :=
  s.onRun (fun d => if d.stpRuns && !d.flitGood flit then d.discardFlit flit else d)

/-- STP_ACK_TIMEOUT. -/
def execStpAckTimeout (s : State) : Out :=
  s.onRun (fun d => if d.stpRuns && !d.stp.kept.isEmpty then d.stpRetrain else d)

/-- STP_MATCH_TIMEOUT. -/
def execStpMatchTimeout (stream : Nat) (s : State) : Out :=
  s.onRun (fun d => match d.stp.xfers.find? (fun x => !x.running && x.stream == some stream) with
    | some x => d.endXfer x 6
    | none => d)

/-- STP_PEER_DOWN: this end goes down, and trains again. -/
def execStpPeerDown (s : State) : Out :=
  s.onRun (fun d => if d.stpUp then (d.stpDown 5).stpTrain else d)

/-- BULK_TRANSFER. -/
def execBulkTransfer (fn : Nat) (s : State) : Out := s.onRun (Dev.takeKind fn 0x50 6 (Dev.bulkRequest fn))

/-- CANCEL. -/
def execCancel (fn : Nat) (s : State) : Out := s.onRun (Dev.takeKind fn 0x51 3 (Dev.bulkCancel fn))

/-- DMA_BURST_COMPLETE. -/
def execDmaBurstComplete (channel : Nat) (s : State) : Out := s.onRun (fun d => (d.dmaBurstDone channel).serveXfer channel)

end Sys2Proof.Machine
end

