-- ==== Sys2Proof/Machine/Links.lean ====
section
/-!
DEFINITION. Host links and functions (R110-R133, R171, R421-R427): link resets, FLR, VF Enable, Bus Master Enable, the squash and
its end, epilogue records, peer-to-peer commits, MSI-X unmask, ATS invalidation, IDE failures and ASPM.
-/

namespace Sys2Proof.Machine

/-! ## Epilogue records (R171, R427) -/

/-- Descriptors of a ring that are accepted and not yet taken up, counted as items: an open frame is one (R171). -/
def Ring.openItems (g : Ring) : Nat :=
  let l := g.frame ++ g.accepted
  (l.filter (fun x => g.endsItem x.bytes)).length + ((l.getLast?.map (fun x => (!g.endsItem x.bytes).toNat)).getD 0)

/-- Does ring `r` hold accepted work? -/
def Dev.ringWorks (d : Dev) (r : Nat) (g : Ring) : Bool :=
  g.openItems != 0 || !g.waiting.isEmpty ||
  d.items.vals.any (fun it => it.isAccepted && ((it.fromRing && it.nvme.isNone && it.source == r) || d.itemRing it == some r))

/-- A record is opened, or the reset that comes is merged into the one that runs, or, for `merge`, into one that has ended with the
link's reset still under way: the later cause stands (R128, R171). -/
def Dev.openEpilogue (fn cause : Nat) (merge : Bool) (d : Dev) : Dev :=
  if (d.fn fn).reset = .none ∧ merge = false then
    { d with epilogues := d.epilogues.set fn {
        cause := cause
        oldGen := (d.fn fn).gen
        rings := (d.rings.filter (fun r g => g.fn == fn && d.ringWorks r g)).size } }
  else { d with epilogues := d.epilogues.modify fn (fun e => { e with merged := true, cause := cause, ready := false, sent := false }) }

/-! ## Reads that a function loses -/

/-- A taken request whose context cannot be read is answered with status 3 (notes/assumptions/33.md). -/
def Dev.failJob (j : Nat) (d : Dev) : Dev :=
  match d.jobs.get? j with
  | some x => { d with jobs := d.jobs.erase j }.answerRequest x.fn x.kind x.tag 3 []
  | none => d

/-- What the loss of a read means to the one it was issued for: it is issued again when the function may issue, but a compare pass
ends with a host error and a set-up request fails. -/
def Dev.loseRead (w : ReadFor) (d : Dev) : Dev :=
  match w with
  | .descriptors r _ _ => d.stallRing r
  | .payload i _ =>
    let d := d.onItem i (fun it => { it with stalled := true })
    (match d.item? i with
    | some it => if it.nvme.isSome then d else d.stallRing it.source
    | none => d)
  | .submission fn q _ => d.onNvme fn (fun x => { x with sqs := x.sqs.modify q (fun s => { s with
      landed := {}
      fetchPos := s.nextSeq % max 1 s.size }) })
  | .shadow _ => if d.on R.MTB_STATUS_compare_active then d.comparePassEnd true else d
  | .context j _ => d.failJob j
  | _ => d

/-- The requests of a function that are outstanding or held back, and not yet discarded. -/
def Dev.readsOf (d : Dev) (fn : Nat) : List Read :=
  let l := d.link (d.linkOf fn)
  (l.reads.vals ++ l.queue ++ l.parked).filter (fun r => r.fn == fn && !r.dead)

/-- Data of the function's outstanding reads is to be discarded, and each loser is told. -/
def Dev.loseReads (fn : Nat) (d : Dev) : Dev :=
  Dev.each ((d.readsOf fn).map Read.why) Dev.loseRead (d.killReads fn false)

/-! ## Bus Master Enable (R127) -/

/-- Has ring `r` an accepted item that needs a host request: a transmit or work item whose payload is not yet read, or a received frame
to be written? -/
def Dev.ringNeedsHost (d : Dev) (r : Nat) (g : Ring) : Bool :=
  !g.accepted.isEmpty || !g.frame.isEmpty || !g.waiting.isEmpty ||
  d.items.vals.any (fun it => it.isAccepted &&
    (if it.kind = 1 then d.itemRing it == some r else it.nvme.isNone && it.source == r && !(it.readIssued && it.want == 0)))

/-- The function may issue no longer (R127): rings with a read outstanding or an accepted item that needs the host are stalled. -/
def Dev.haltFn (fn : Nat) (d : Dev) : Dev :=
  let d := d.loseReads fn
  let hungry := (d.ringsOf fn).filter (fun r => match d.ring? r with
    | some g => g.kind != 3 && d.ringNeedsHost r g
    | none => false)
  (Dev.each hungry Dev.stallRing d).dmaHaltAll fn

/-- What waits for the function's requests goes on. -/
def Dev.resumeFn (fn : Nat) (d : Dev) : Dev :=
  let d := d.sendPosted fn
  let d := Dev.each (d.ringsOf fn) (fun r d => match d.ring? r with
    | some g => if g.state = .stalled then d.resumeRing r else (d.fetch r).flushOwed r
    | none => d) d
  let d := Dev.each ((d.items.filter (fun _ it => it.fn == fn && it.stalled)).keys) Dev.issuePayload d
  let qps := (d.qps.filter (fun q _ => d.ctxOwner q == fn)).keys
  let d := Dev.each qps (fun q d => match (d.qp q).reqs.find? (fun z => z.resend.isSome && z.want != 0) with
    | some z => d.resendFrom q (z.resend.getD z.first)
    | none => d) d
  let d := if d.nvmes.has fn then Dev.each (d.nvme fn).sqs.keys (d := d.flushNvme fn) (Dev.fetchSq fn) else d
  let d := Dev.each (d.fn fn).vecs.keys (fun v d => d.releaseVector fn v) d
  d.dmaRunAll fn

/-- Bus Master Enable goes to 0. -/
def Dev.bmeClear (fn : Nat) (d : Dev) : Dev :=
  if !d.hasFn fn || !(d.fn fn).busMaster || (d.fn fn).reset == .flr || (d.fn fn).reset == .link then d
  else (d.onFn fn (fun f => { f with busMaster := false })).haltFn fn

/-- Bus Master Enable goes to 1: the epilogue record first, then all that waits. -/
def Dev.bmeSet (fn : Nat) (d : Dev) : Dev :=
  if !d.hasFn fn || (d.fn fn).busMaster || (d.fn fn).reset == .flr || (d.fn fn).reset == .link then d
  else (((d.onFn fn (fun f => { f with busMaster := true })).sendEpilogue fn).resumeFn fn).sendNext fn

/-! ## The start of a reset (R125 steps 1-4, R126 steps 1-3, R425 step 3) -/

/-- Accepted descriptors of a ring whose owner is reset are abandoned; what it read ahead is forgotten. -/
def Dev.emptyRing (r : Nat) (d : Dev) : Dev :=
  match d.ring? r with
  | none => d
  | some g =>
    (d.countAbandoned g.fn g.openItems).onRing r (fun g => { g with
      accepted := []
      saved := 0
      frame := []
      buffers := []
      landed := {}
      fetchPos := g.nextSeq % g.size })

/-- Commands accepted by a controller and not yet taken up are abandoned. -/
def Dev.emptyNvme (fn : Nat) (d : Dev) : Dev :=
  if d.nvmes.has fn then
    (d.countAbandoned fn (d.nvmeHeld fn)).onNvme fn (fun x => { x with
      sqs := x.sqs.mapVals (fun _ s => { s with accepted := [], saved := 0, landed := {} })
      owed := [] })
  else d

/-- Ports whose exception ring is released take no frame that needs it (R185). -/
def Dev.dropException (r : Nat) (d : Dev) : Dev :=
  Dev.each (List.range 256) (fun m d =>
    if d.on R.PPL_PORT_EXC_exception_valid 0 (16 * m) && d.rd R.PPL_PORT_EXC_exception_ring 0 (16 * m) == r then
      d.wr R.PPL_PORT_EXC_exception_valid 0 0 (16 * m)
    else d) d

/-- Squash the items of a function that stand where a reset reaches them (R426). -/
def Dev.squashStale (fn : Nat) (d : Dev) : Dev :=
  Dev.each ((d.items.filter (fun _ it => it.fn == fn && it.squashable && d.stale it)).keys) Dev.squash d

/-- Switched items of other functions that wait at the function's rings go back to complete with status 0x03 (R125, R191). -/
def Dev.turnSwitched (fn : Nat) (d : Dev) : Dev :=
  let gone := d.items.filter (fun _ it => it.stage == .waiting && it.fn != fn &&
    ((d.itemRing it).bind d.ring?).map Ring.fn == some fn)
  Dev.each gone.entries (fun e d => (d.leaveWaiting e.1 e.2).onItem e.1 (fun it => { it with stage := .retiring, held := 0, heldAt := none })) d

/-- Requests that firmware has taken from a function are forgotten, but the reset it asks for itself stays (R425). -/
def Dev.dropJobs (fn : Nat) (kind : FnReset) (d : Dev) : Dev :=
  { d with jobs := d.jobs.filter (fun _ j => j.fn != fn ||
      (kind == .function && (match j.awaits with
        | .functionReset _ => true
        | _ => false))) }

/-- What happens to a function when its reset of a kind begins: the generation advances and the squash starts. A reset that
supersedes another lets that go on under its own rules. -/
def Dev.beginReset (fn : Nat) (kind : FnReset) (d : Dev) : Dev :=
  let link := d.linkOf fn
  let lost := (d.readsOf fn).map Read.why
  let hungry := (d.items.filter (fun _ it => it.fn == fn && it.readIssued && it.want != 0)).keys
  let d := d.onFn fn (fun f => { f with
    gen := (f.gen + 1) % 65536
    reset := kind
    outbox := []
    vecs := if kind = .function then f.vecs else f.vecs.mapVals (fun _ v => { v with pending := false }) })
  let d := { d with drains := d.drains.erase fn }.dropJobs fn kind
  let d := (d.onLink link (fun l => { l with posted := l.posted.filter (fun p => p.fn != fn) })).dropTranslations fn
  let d := if kind = .link then
      d.onLink link (fun l => { l with
        reads := l.reads.filter (fun _ r => r.fn != fn)
        queue := l.queue.filter (fun r => r.fn != fn)
        parked := l.parked.filter (fun r => r.fn != fn) })
    else d.killReads fn (kind == .flr)
  let d := Dev.each (lost.filter (fun w => match w with
    | .shadow _ => true
    | _ => false)) Dev.loseRead d
  let d := ((d.resetChannels fn).dmaOwnerReset fn).stpFnReset fn
  let rings := d.ringsOf fn
  let d := Dev.each rings Dev.dropException d
  let d := (Dev.each rings Dev.emptyRing d).emptyNvme fn
  let d := (d.turnSwitched fn).squashStale fn
  let stalled := (d.items.filter (fun _ it => it.fn == fn && it.stalled)).keys
  Dev.each (hungry ++ stalled) Dev.skipPayload d

/-- A reset of a function starts, or takes over the one that runs; `merge`: its link's reset is taken over. -/
def Dev.resetFn (fn cause : Nat) (kind : FnReset) (d : Dev) (merge : Bool := false) : Dev :=
  if d.hasFn fn then (d.openEpilogue fn cause merge).beginReset fn kind else d

/-- The VFs of a PF that exist. -/
def Dev.vfsPresent (d : Dev) (pf : Nat) : List Nat := (d.vfsOf pf).filter d.hasFn

/-- An FLR (R126, R128): one that runs already is left alone; that of a PF clears its VF Enable and resets its VFs. -/
def Dev.flr (fn : Nat) (d : Dev) : Dev :=
  if !d.hasFn fn || (d.fn fn).reset == .flr || (d.fn fn).reset == .link then d
  else
    let d := d.resetFn fn 1 .flr
    if fn < 16 then
      Dev.each (d.vfsPresent fn) (fun v d => d.resetFn v 2 .flr) (d.onFn fn (fun f => { f with vfEnable := false, numVfs := 0 }))
    else d

/-! ## Ring Groups and VFs (R421-R423, R428) -/

/-- The registers of one unit instance go back to their start values. -/
def Dev.clearUnit (unit inst : Nat) (d : Dev) : Dev :=
  { d with regs := d.regs.filter (fun k _ => k / (33554432 * 32) != unit * 65536 + inst) }

/-- The lowest doorbell page that no group of the function has (R423). -/
def Dev.freePage (d : Dev) (fn : Nat) : Nat :=
  let used := (d.groups.filter (fun _ g => g.fn == fn)).vals.map Group.page
  ((List.range (used.length + 1)).find? (fun p => !used.contains p)).getD 0

/-- Firmware creates a Ring Group for a function: its index, and the device with it. -/
def Dev.newGroup (fn : Nat) (d : Dev) : Nat × Dev :=
  let page := d.freePage fn
  let (g, d) := d.pickIndex d.groups (2 ^ 18)
  (g, ({ d with groups := d.groups.set g { fn := fn, page := page } }.dropNodes [nodeKey 2 g]).vfCardChanged fn)

/-- An S4400 VF as it stands from VF Enable: registers at their start values, one Ring Group (R428, R429). -/
def Dev.startS44 (fn : Nat) (d : Dev) : Dev := if d.isS44 fn then ((d.clearUnit 0x4400 fn).newGroup fn).2 else d

/-- The source-check entries of a function leave table 2 (R422). -/
def Dev.dropSources (fn : Nat) (d : Dev) : Dev :=
  let gone := ((d.cuckoo 2).slots.filter (fun _ e => e.valid && e.key.take 4 == leBytes fn 4)).keys
  Dev.each gone (fun i d => d.setCuckoo 2 ((d.cuckoo 2).erase i)) d

/-- VF Enable of PF `pf` is set: its first `n` VFs appear in the host Tenant with default properties (R421, R422). -/
def Dev.vfEnableSet (pf n : Nat) (d : Dev) : Dev :=
  if (d.pf? pf).isNone || !d.hasFn pf || (d.fn pf).vfEnable || (d.fn pf).reset == .flr || (d.fn pf).reset == .link then d
  else
    let vfs := ((d.vfsOf pf).take n).filter (fun v => !d.hasFn v)
    let d := d.onFn pf (fun f => { f with vfEnable := true, numVfs := min n (d.vfsOf pf).length })
    Dev.each vfs (fun v d => ((d.onFn v (fun f => { present := true, gen := f.gen, tenant := pf, cardGen := f.cardGen })).startS44 v).vfCardReadable v) d

/-- VF Enable is cleared: each VF is reset as by FLR, and removed when that ends (R421). -/
def Dev.vfEnableClear (pf : Nat) (d : Dev) : Dev :=
  if !(d.fn pf).vfEnable || (d.fn pf).reset == .flr || (d.fn pf).reset == .link then d
  else
    let d := d.onFn pf (fun f => { f with vfEnable := false, numVfs := 0 })
    Dev.each (d.vfsPresent pf) (fun v d => if (d.fn v).reset = .flr then d else d.resetFn v 1 .flr) d

/-! ## The end of a reset (R125 step 5, R126 step 4, R424, R426) -/

/-- Does the function's host take completions at the end of a function reset (R425)? -/
def Dev.hostTakes (d : Dev) (fn : Nat) : Bool :=
  (d.fn fn).busMaster && !(d.fn fn).d3 && d.linkUp (d.linkOf fn)

/-- Nothing of the old generation is left in the device (R426); a PF waits for its VFs. -/
def Dev.resetQuiet (d : Dev) (fn : Nat) : Bool :=
  d.items.vals.all (fun it => it.fn != fn || !it.isAccepted) &&
  (d.link (d.linkOf fn)).reads.vals.all (fun r => r.fn != fn || r.quarantined) &&
  (d.dmaChannelsOf fn).isEmpty &&
  (fn ≥ 16 || (d.vfsPresent fn).all (fun v => (d.fn v).reset == .none)) &&
  ((d.fn fn).reset != .function || !d.hostTakes fn || (d.ringsOf fn).all (fun r => ((d.ring? r).map (fun g => g.owed.all Owed.ready)).getD true))

/-- Owed completions of a function reset: written where the host takes them, counted in any case (R425). The function issues here as
in a drain. -/
def Dev.settleOwed (fn : Nat) (d : Dev) : Dev :=
  if (d.fn fn).reset ≠ .function then d
  else
    let n := ((d.ringsOf fn).map (fun r => ((d.ring? r).map (fun g => g.owed.length)).getD 0)).sum
    let d := d.countEpilogue fn (fun e => { e with owedWritten := e.owedWritten + n })
    let d := d.onFn fn (fun f => { f with reset := .draining })
    let d := Dev.each (d.ringsOf fn) Dev.flushOwed d
    d.onFn fn (fun f => { f with reset := .function })

/-- Release what a reset of a function releases (R424): rings, groups, contexts, and their scheduler nodes. -/
def Dev.releaseFn (fn : Nat) (d : Dev) : Dev :=
  let rings := d.ringsOf fn
  let groups := d.groupsOf fn
  let ctxs := (d.ctxs.filter (fun c _ => d.ctxOwner c == fn)).keys
  let sqs := ((d.nvmes.get? fn).map (fun x => x.sqs.keys.map (sqLeaf fn))).getD []
  let gone := (rings ++ sqs).map (nodeKey 1) ++ groups.map (nodeKey 2)
  let drop {α : Type} (m : NMap α) (l : List Nat) : NMap α := m.filter (fun k _ => !l.contains k)
  let d := { d with
    rings := drop d.rings rings
    groups := drop d.groups groups
    ctxCache := d.ctxCache.filter (fun r => !rings.contains r)
    ctxs := drop d.ctxs ctxs
    ctxKeys := drop d.ctxKeys ctxs
    qps := drop d.qps ctxs
    conns := drop d.conns ctxs
    ctxFailed := d.ctxFailed.filter (fun c => !ctxs.contains c)
    nvmes := d.nvmes.erase fn
    sched := { d.sched with balances := drop d.sched.balances (rings ++ sqs) } }.dropNodes gone
  if groups.isEmpty then d.countControllers else d.countControllers.vfCardChanged fn

/-- The Tenants of a PF that are no host Tenant are released, with their nodes (R424). -/
def Dev.releaseTenants (pf : Nat) (d : Dev) : Dev :=
  let gone := (d.tenants.filter (fun _ p => p == pf)).keys
  { d with tenants := d.tenants.filter (fun _ p => p != pf) }.dropNodes (gone.map (nodeKey 4))

/-- A VF whose VF Enable is clear leaves its Tenant and is gone; what it had asked for is discarded (R421). -/
def Dev.removeVf (fn : Nat) (d : Dev) : Dev :=
  let c := requestChannel fn
  let d := (d.onChan c (fun h => { h with held := none, latched := false })).setFull c false
  let d := (d.dropSources fn).clearUnit 0x4400 fn
  let d := d.dropNodes [nodeKey 3 fn]
  d.onFn fn (fun f => { gen := f.gen, cardGen := f.cardGen })

/-- The record's other reader: an S4400 VF's goes to its PF, any other waits for Bus Master Enable (R427). -/
def Dev.readyEpilogue (fn : Nat) (d : Dev) : Dev :=
  let s44 := d.isS44 fn
  let d := { d with epilogues := d.epilogues.modify fn (fun e => { e with ready := true, sent := s44 }) }
  match d.epilogues.get? fn with
  | some e => if s44 then d.sendTo (d.pfOf fn) (e.words fn) else d
  | none => d

/-- The answers to the function resets that asked for this one, with the record (R427). -/
def Dev.answerResets (fn : Nat) (d : Dev) : Dev :=
  let due := d.jobs.filter (fun _ j => match j.awaits with
    | .functionReset t => t == fn
    | _ => false)
  let words := ((d.epilogues.get? fn).map (Epilogue.words fn)).getD []
  Dev.each due.entries (fun e d => { d with jobs := d.jobs.erase e.1 }.answerRequest e.2.fn e.2.kind e.2.tag 0 words) d

/-- The reset of a function ends, where nothing is left of its old generation. -/
def Dev.endReset (fn : Nat) (d : Dev) : Dev :=
  let kind := (d.fn fn).reset
  if kind = .none ∨ kind = .draining then d
  else
    let d := d.squashStale fn
    if !d.resetQuiet fn then d
    else
      let vf := fn ≥ 16
      let gone := vf && !(d.fn (d.pfOf fn)).vfEnable
      let d := (d.settleOwed fn).releaseFn fn
      let d := if kind = .function then d.onFn fn (fun f => { f with reset := .none })
        else d.onFn fn (fun f => { present := true, gen := f.gen, tenant := f.tenant, sourceCheck := f.sourceCheck, cardGen := f.cardGen, props := f.props, outbox := f.outbox })
      let d := if vf then d else if kind = .function then d else d.releaseTenants fn
      let d := d.readyEpilogue fn
      let d := if (d.fn fn).busMaster && !gone then d.sendEpilogue fn else d
      let d := d.answerResets fn
      let d := if kind = .flr then d.cause pcxCauses 3 (d.linkOf fn) else d
      if gone then d.removeVf fn
      else
        (d.startS44 fn).sendNext fn

/-! ## Link resets (R125, R128) -/

/-- Both window sets of a link and its commit count are cleared (R130). -/
def Dev.clearWindows (link : Nat) (d : Dev) : Dev :=
  let lo := Field.key { R.PCX_P2P_BASE_LO_base with lsb := 0 } link 0
  let hi := Field.key { R.PCX_P2P_BASE_LO_base with off := 0x440, lsb := 0 } link 0
  { d with regs := d.regs.filter (fun k _ => !(lo ≤ k && k < hi)) }.wr R.PCX_P2P_GEN_commits 0 link

/-- The functions of a link in reset begin theirs: the record's cause is that of the link's reset. -/
def Dev.resetFns (link : Nat) (d : Dev) (merge : Bool := false) : Dev :=
  let cause := if (d.link link).reset = .fundamental then 4 else 3
  Dev.each (d.fnsOf link) (fun fn d =>
    (d.resetFn fn cause .link merge).onFn fn (fun f => { f with vfEnable := false, numVfs := 0 })) d

/-- A link leaves L0, or any other state. -/
def Dev.linkLeaves (link state : Nat) (d : Dev) : Dev :=
  let was := d.rd R.PCX_LINK_STATUS_state link
  let d := (d.wr R.PCX_LINK_STATUS_state state link).wr R.PCX_LINK_STATUS_ide_secure 0 link
  if was = 3 ∨ was = 4 ∨ was = 6 then d.cause pcxCauses 0 link else d

/-- A reset of a link starts. A fundamental reset takes over a hot reset, and counts as a link reset of its own (DESIGN CHOICE,
notes/assumptions/71.md); a hot reset of a link in reset changes nothing. While a service reset runs, the functions are left until it
ends (R128). -/
def Dev.linkReset (link code : Nat) (kind : LinkReset) (state : Nat) (d : Dev) : Dev :=
  if !d.formed link then d
  else if (d.link link).reset ≠ .none ∧ (kind ≠ .fundamental ∨ (d.link link).reset = .fundamental) then d
  else
    let merge := (d.link link).reset ≠ .none
    let d := d.linkLeaves link state
    let d := (d.wr R.PCX_RESET_RECORD_last code link).bump R.PCX_RESET_COUNT_resets link
    let d := (d.onLink link (fun l => { l with reset := kind, training := false, ready := false, ideKeys := none, commit := none, atc := [] })).wr
      R.PCX_P2P_COMMIT_commit_busy 0 link
    if d.phase = .running then d.resetFns link merge else d

/-- Does nothing keep the link's reset from ending: its functions are through, and PERST_N has deasserted? -/
def Dev.linkResetOver (d : Dev) (link : Nat) : Bool :=
  (d.link link).reset != .none && (d.fnsOf link).all (fun fn => (d.fn fn).reset == .none) &&
  ((d.link link).reset != .fundamental || !d.on R.PCX_LINK_STATUS_perst link)

/-- Step 6: the reset ends, and training starts. -/
def Dev.endLinkReset (link : Nat) (d : Dev) : Dev :=
  if d.phase = .running && d.linkResetOver link then
    let d := (d.clearWindows link).onLink link (fun l => { l with reset := .none, training := true, enabled := true })
    (d.wr R.PCX_LINK_STATUS_state 2 link).cause pcxCauses 2 link
  else d

/-- PERST_N of a link is asserted. -/
def Dev.perstAssert (link : Nat) (d : Dev) : Dev :=
  if !d.formed link || d.on R.PCX_LINK_STATUS_perst link then d
  else (d.linkReset link 1 .fundamental 1).wr R.PCX_LINK_STATUS_perst 1 link

/-- PERST_N is deasserted. -/
def Dev.perstDeassert (link : Nat) (d : Dev) : Dev :=
  if !d.formed link then d else (d.wr R.PCX_LINK_STATUS_perst 0 link).endLinkReset link

/-- Lanes of a link of full width (R132). -/
def Dev.linkWidth (d : Dev) (link : Nat) : Nat :=
  match d.rd R.PCX_LINK_SHAPE_shape link with
  | 1 => 4
  | 2 => 8
  | _ => 16

/-- A link reaches L0 at a rate and width (R112): training ends, or a link in L0 has been through recovery. -/
def Dev.linkUpAt (link rate width : Nat) (flit : Bool) (d : Dev) : Dev :=
  let state := d.rd R.PCX_LINK_STATUS_state link
  if !d.formed link || (d.link link).reset != .none || (state != 2 && state != 3 && state != 4 && state != 6) then d
  else
    let was := (d.rd R.PCX_LINK_STATUS_rate link, d.rd R.PCX_LINK_STATUS_width link)
    let changed := was.1 != 0 && was != (rate % 8, width % 32)
    let below := rate % 8 != 7 || width % 32 != d.linkWidth link
    let d := (((d.wr R.PCX_LINK_STATUS_state 3 link).wr R.PCX_LINK_STATUS_rate rate link).wr R.PCX_LINK_STATUS_width width link).wr
      R.PCX_LINK_STATUS_flit flit.toNat link
    let d := d.onLink link (fun l => { l with training := false, ready := true })
    let d := if changed || below then d.cause pcxCauses 8 link else d
    let d := if state = 3 ∨ state = 6 then d else d.cause pcxCauses 1 link
    Dev.each (d.fnsOf link) (fun fn d => if (d.fn fn).busMaster && (d.fn fn).reset == .none then d.resumeFn fn else d) (d.pump link)

/-! ## Function resets asked for (R425) -/

/-- Step 1 of a function reset: fetching stops, ports lose their exception ring where the function owns it (R185), and frames for the
function are refused; without a drain the squash starts. A reset of
the function that runs takes this one up. -/
def Dev.functionReset (fn : Nat) (drain : Bool) (ms : Nat) (d : Dev) : Dev :=
  if (d.fn fn).reset ≠ .none then
    { d with epilogues := d.epilogues.modify fn (fun e => { e with merged := true }) }
  else
    let d := Dev.each (d.ringsOf fn) Dev.dropException (d.openEpilogue fn 5 false)
    if drain then
      { d.onFn fn (fun f => { f with reset := .draining }) with drains := d.drains.set fn (min ms 1000) }
    else d.beginReset fn .function

/-- Step 2 ends: nothing of the function is accepted any more, or drain_ms has passed. -/
def Dev.drainEnd (fn : Nat) (d : Dev) : Dev := if (d.fn fn).reset = .draining then d.beginReset fn .function else d

/-! ## Peer-to-peer windows (R130) -/

/-- The five values of a shadow window, and of an active one. -/
def p2pShadow : List Field :=
  [R.PCX_P2P_BASE_LO_base, R.PCX_P2P_BASE_HI_base, R.PCX_P2P_LIMIT_LO_limit, R.PCX_P2P_LIMIT_HI_limit, R.PCX_P2P_ATTR_enable,
   R.PCX_P2P_ATTR_at_translated, R.PCX_P2P_ATTR_force_no_snoop, R.PCX_P2P_ATTR_allow_ro]
def p2pActive : List Field :=
  [R.PCX_P2P_ACTIVE_BASE_LO_base, R.PCX_P2P_ACTIVE_BASE_HI_base, R.PCX_P2P_ACTIVE_LIMIT_LO_limit, R.PCX_P2P_ACTIVE_LIMIT_HI_limit,
   R.PCX_P2P_ACTIVE_ATTR_enable, R.PCX_P2P_ACTIVE_ATTR_at_translated, R.PCX_P2P_ACTIVE_ATTR_force_no_snoop, R.PCX_P2P_ACTIVE_ATTR_allow_ro]

/-- The whole shadow set. -/
def Dev.shadowSet (d : Dev) (link : Nat) : List Nat :=
  (List.range 16).flatMap (fun w => p2pShadow.map (fun f => d.rd f link (32 * w)))

/-- A commit is written: the set as it stands is taken; ignored while one runs, and through a link reset (R128). -/
def Dev.p2pCommit (link : Nat) (d : Dev) : Dev :=
  if !d.formed link || (d.link link).reset != .none then d
  else if (d.link link).commit.isSome then d.cause pcxCauses 7 link
  else
    let set := d.shadowSet link
    (d.onLink link (fun l => { l with commit := some set })).wr R.PCX_P2P_COMMIT_commit_busy 1 link

/-- The copy is done. -/
def Dev.p2pDone (link : Nat) (d : Dev) : Dev :=
  match (d.link link).commit with
  | none => d
  | some set =>
    let d := d.onLink link (fun l => { l with commit := none })
    let d := Dev.each (List.range 16) (fun w d =>
      Dev.each p2pActive.zipIdx (fun f d => d.wr f.1 (set.getD (8 * w + f.2) 0) link (32 * w)) d) d
    ((d.wr R.PCX_P2P_COMMIT_commit_busy 0 link).bump R.PCX_P2P_GEN_commits link).cause pcxCauses 6 link

/-! ## Commands -/

/-- A meaning of the links: they keep their state while a service reset runs (R80, R128). -/
def State.onLinks (s : State) (f : Dev → Dev) : Out :=
  .next (if s.dev.phase = .running ∨ s.dev.phase = .serviceReset then { s with dev := f s.dev } else s)

/-- PERST_N_ASSERT, for at least 1 µs. -/
def execPerstNAssert (link : Nat) (s : State) : Out := s.onLinks (Dev.perstAssert link)

/-- PERST_N_DEASSERT. -/
def execPerstNDeassert (link : Nat) (s : State) : Out := s.onLinks (Dev.perstDeassert link)

/-- HOT_RESET: the link receives an in-band Hot Reset. -/
def execHotReset (link : Nat) (s : State) : Out := s.onLinks (fun d => (d.linkReset link 2 .hot 5).endLinkReset link)

/-- DL_DOWN: handled as a hot reset. -/
def execDlDown (link : Nat) (s : State) : Out := s.onLinks (fun d => (d.linkReset link 3 .dlDown 1).endLinkReset link)

/-- LINK_UP. -/
def execLinkUp (link rate width : Nat) (flit : Bool) (s : State) : Out := s.onLinks (Dev.linkUpAt link rate width flit)

/-- INITIATE_FLR. -/
def execInitiateFlr (fn : Nat) (s : State) : Out := s.onRun (Dev.flr fn)

/-- RESET_SQUASH_COMPLETE: the squash of a function's reset is through. -/
def execResetSquashComplete (fn : Nat) (s : State) : Out :=
  s.onRun (fun d => (d.endReset fn).endLinkReset (d.linkOf fn))

/-- BUS_MASTER_ENABLE_CLEAR. -/
def execBusMasterEnableClear (fn : Nat) (s : State) : Out := s.onRun (Dev.bmeClear fn)

/-- BUS_MASTER_ENABLE_SET. -/
def execBusMasterEnableSet (fn : Nat) (s : State) : Out := s.onRun (Dev.bmeSet fn)

/-- VF_ENABLE_SET, with NumVFs as it stands. -/
def execVfEnableSet (pf numVfs : Nat) (s : State) : Out := s.onRun (Dev.vfEnableSet pf numVfs)

/-- VF_ENABLE_CLEAR. -/
def execVfEnableClear (pf : Nat) (s : State) : Out := s.onRun (Dev.vfEnableClear pf)

/-- DRAIN_END. -/
def execDrainEnd (fn : Nat) (s : State) : Out := s.onRun (Dev.drainEnd fn)

/-- MSIX_VECTOR_UNMASK: a message that waited leaves (R412). -/
def execMsixVectorUnmask (fn vector : Nat) (s : State) : Out :=
  s.onRun (fun d =>
    if d.hasFn fn && vector < d.msixSize fn then
      (d.onFn fn (fun f => { f with vecs := f.vecs.upd vector {} (fun v => { v with masked := false }) })).releaseVector fn vector
    else d)

/-- ATS_INVALIDATE_REQUEST: the translations of the range leave the link's cache, and the request is answered
(notes/assumptions/11.md). -/
def execAtsInvalidateRequest (link tag addr size : Nat) (s : State) : Out :=
  s.onRun (fun d => if d.linkUp link then ((d.leaveL1 link).invalidate link addr size).emit (.atsInvalidateDone link tag) else d)

/-- IDE_INTEGRITY_FAILURE: the stream leaves the secure state (R131). -/
def execIdeIntegrityFailure (link : Nat) (s : State) : Out :=
  s.onLinks (fun d =>
    if d.on R.PCX_LINK_STATUS_ide_secure link then
      (((d.wr R.PCX_LINK_STATUS_ide_secure 0 link).onLink link (fun l => { l with ideKeys := none })).cause pcxCauses 9 link).reportAer
        link (d.function0 link) .ideCheck
    else d)

/-- P2P_COMMIT. -/
def execP2pCommit (link : Nat) (s : State) : Out := s.onRun (Dev.p2pCommit link)

/-- P2P_COMMIT_DONE. -/
def execP2pCommitDone (link : Nat) (s : State) : Out := s.onRun (Dev.p2pDone link)

/-- ASPM_L1_ENTRY: an idle link enters L1, where the host has enabled it on every function of the link (R116). -/
def execAspmL1Entry (link : Nat) (s : State) : Out :=
  s.onLinks (fun d =>
    if d.rd R.PCX_LINK_STATUS_state link = 3 ∧ (d.link link).reads.size = 0 ∧ (d.link link).queue.isEmpty ∧
        ((d.fnsOf link).filter (· < 16)).all (fun f => (d.fn f).aspmL1) then d.wr R.PCX_LINK_STATUS_state 6 link
    else d)

end Sys2Proof.Machine
end

