-- ==== Sys2Proof/Machine/Failover.lean ====
section
/-!
DEFINITION. Units that leave service and come back (R19-R23, R105, R106, R165-R167, R259, R272, R405, R431, R451): takeover by a
reserve or vacancy, the Ledger replay, thermal sit-outs, crypto instances and control cores.
-/

namespace Sys2Proof.Machine

/-! ## Replay of a departed position (R159, R165-R167) -/

/-- An item as it starts afresh: its edits are gone, and what its pass had decided; a payload read whole is kept. -/
def Dev.freshItem (d : Dev) (it : Item) : Item :=
  let it := { it with
    stage := .queued
    dest := none
    template := none
    edits := []
    commits := []
    held := 0
    heldAt := none
    switched := false
    stalled := false
    status := if it.readBad then it.status else 0 }
  let it := if it.want = 0 then it else { it with want := 0, pieces := {}, readIssued := false }
  if it.kind = 1 then it
  else
    match it.nvme, d.ring? it.source with
    | none, some g =>
      let kind := if it.kind = 3 then 0 else it.kind
      let again := d.ringItem it.source g kind it.descs
      { it with kind := kind, verdict := again.verdict, parse := again.parse, actionIndex := again.actionIndex }
    | _, _ => it

/-- Data of payload reads that an item no longer waits for is discarded. -/
def Dev.forgetReads (i : Nat) (d : Dev) : Dev :=
  { d with links := d.links.mapVals (fun _ l => { l with
      queue := l.queue.filter (fun r => match r.why with
        | .payload j _ => j != i
        | _ => true)
      reads := l.reads.mapVals (fun _ r => match r.why with
        | .payload j _ => if j = i then { r with dead := true } else r
        | _ => r) }) }

/-- An item starts afresh before dispatch: it leaves the ring that its pass had chosen, and its bytes count at its provisional ring
again. -/
def Dev.restartItem (i : Nat) (it : Item) (d : Dev) : Dev :=
  let d := (d.leaveWaiting i it).forgetReads i
  let x := d.freshItem it
  let ring := if it.kind = 1 ∧ it.conn.isNone then d.itemRing x else none
  let n := if ring.isSome then it.held else 0
  let d := match ring with
    | some r => d.onRing r (fun g => { g with heldBytes := g.heldBytes + n })
    | none => d
  d.onItem i (fun _ => { x with stage := .queued, position := 64, held := n, heldAt := ring })

/-- Take one item off the departed position, or fail it at its third departure (R167). -/
def Dev.recall (i : Nat) (d : Dev) : Dev :=
  match d.item? i with
  | none => d
  | some it =>
    if 2 ≤ it.replays then (d.forgetReads i).failItem i 3
    else (d.restartItem i it).onItem i (fun x => { x with replays := x.replays + 1 })

/-- Deliver a recalled item: to the position, where a reserve took it; else to a surviving position of its Figure, or it waits before
dispatch (R22, R157). -/
def Dev.redeliverItem (p : Nat) (taken : Bool) (i : Nat) (d : Dev) : Dev :=
  match d.item? i with
  | none => d
  | some it =>
    if it.stage ≠ .queued then d
    else if taken then d.deliverItem i p
    else
      match (d.redirect (p / 8)).bind (fun f => d.pickPosition f it) with
      | some q => d.deliverItem i q
      | none => d

/-- The replay of what position `p` holds, in dispatch order; trigger 0 fault, 1 planned sit-out, 2 thermal (R165, R172). -/
def Dev.replay (p trigger : Nat) (taken : Bool) (d : Dev) : Dev :=
  let held := (d.items.filter (fun _ it => it.inLedger && it.position == p)).entries
  let l := (held.mergeSort (fun a b => a.2.order ≤ b.2.order)).map Prod.fst
  let d := Dev.each l Dev.recall d
  let again := l.filter (fun i => ((d.item? i).map (fun it => it.stage == .queued)).getD false)
  let d := ((d.wr R.LGR_LAST_FAILOVER_position p).wr R.LGR_LAST_FAILOVER_trigger trigger).wr R.LGR_LAST_FAILOVER_items again.length
  if again.isEmpty then d
  else
    let d := { d with replays := d.replays ++ [({ position := p, items := again } : Replay)] }
    let d := (d.wr R.LGR_STATUS_replay_active 1).bump R.LGR_FAILOVERS_failovers
    let d := d.wr64 R.LGR_REPLAYED_LO_replayed R.LGR_REPLAYED_HI_replayed
      ((d.rd64 R.LGR_REPLAYED_LO_replayed R.LGR_REPLAYED_HI_replayed + again.length) % 2 ^ 64)
    Dev.each again (Dev.redeliverItem p taken) (d.cause lgrCauses 0)

/-- Is a failover replay in progress? -/
def Dev.replaying (d : Dev) : Bool := !d.replays.isEmpty

/-! ## Set positions -/

/-- What a site loses as it leaves its position: threads, channels, flags and input queue (R266). -/
def SetSite.emptied (s : SetSite) : SetSite := { s with threads := {}, channels := {}, flags := 0, input := [] }

/-- The lowest reserve position that holds a Set fit for service (R431). -/
def Dev.fitReserve (d : Dev) : Option Nat := [32, 33].find? d.setFit

/-- Change a position. The map is retained, so it counts as a K write (R23). -/
def Dev.putSlot (p : Nat) (s : Slot) (d : Dev) : Dev :=
  { d with setPos := d.setPos.set p s, keep := { d.keep with dirty := true } }

/-- Change a crypto position. -/
def Dev.putCry (p : Nat) (s : Slot) (d : Dev) : Dev :=
  { d with cryPos := d.cryPos.set p s, keep := { d.keep with dirty := true } }

/-- The site of reserve position `r` takes position `p`; the departed site stands in `r`, sat out. The fault FIFO stays with the
position (R21, R267). -/
def Dev.swapSets (p r : Nat) (d : Dev) : Dev :=
  let a := d.setAt p
  let b := d.setAt r
  let fa := (d.siteAt p).faults
  let fb := (d.siteAt r).faults
  let d := d.onSite p (fun s => { s.emptied with faults := fb })
  let d := d.onSite r (fun s => { s with faults := fa })
  (d.putSlot p { site := b.site }).putSlot r { site := a.site, phase := .out }

/-- A Figure without a position that passes run on drops its offers (R236). -/
def Dev.dropLost (f : Nat) (d : Dev) : Dev :=
  if (List.range 8).any (fun n => (d.setAt (8 * f + n)).phase == .inService || (d.setAt (8 * f + n)).phase == .grace) then d
  else d.dropOffers f

/-- Position `p` leaves service (R21, R22, R165): a fit reserve takes it over, or it stays vacant; what it holds is replayed. The
answer says whether a reserve took it. -/
def Dev.leaveSet (p trigger : Nat) (d : Dev) : Bool × Dev :=
  let d := d.onPower (fun w => { w with unproven := w.unproven.filter (· != p) })
  match d.fitReserve with
  | some r =>
    let d := (d.swapSets p r).onPower (fun w => { w with unproven := p :: w.unproven })
    let d := (d.updateHeadroom.cardChanged [setEntry p, setEntry r]).redeliver (midSet p)
    (true, d.replay p trigger true)
  | none =>
    let d := ((d.onSite p SetSite.emptied).putSlot p { d.setAt p with phase := .out, thermal := false }).dropLost (p / 8)
    let d := (d.updateHeadroom.cardChanged [setEntry p]).redeliver (midSet p)
    (false, d.replay p trigger false)

/-- Record an error of a unit in handling, and answer its sequence. -/
def Dev.recordSeq (e : Err) (d : Dev) : Nat × Dev :=
  let d := d.record e
  (if d.phase = .faultStop then 0 else d.rd R.FLT_LAST_SEQ_seq, d)

/-- The record with sequence `seq` takes its final handling; the record that it nests under takes the same (R450). A vacancy raises
FLT offset 4 (R451). -/
def Dev.finishRecord (seq h : Nat) (d : Dev) : Dev :=
  let under := match d.slotOfSeq seq with
    | some s => if hasBit (d.logWord s 3) 3 then d.heldSlots.find? (fun t => d.logWord t 0 % 65536 == d.logWord s 4 / 65536 && d.recHandling t == 1) else none
    | none => none
  let d := match under with
    | some t => d.setHandling t h
    | none => d
  let d := d.handleSeq seq h
  if h = 4 then d.cause fltCauses 4 else d

/-- Show how many positions are thermally sat out. -/
def Dev.showSatOut (d : Dev) : Dev := d.wr R.PWR_THERMAL_sat_out d.power.satOut.length

/-- A Set fault (R259, R260): code 1, an error in a microword, or 9, one in local SRAM, at address `addr`, found by a thread, or by the
scrubber or a write-back, recorded with thread 0xFF. The pc is the microword's; of an SRAM error, that of the thread that found it,
else 0 (notes/assumptions/69.md). -/
def Dev.setFault (p code addr : Nat) (thread : Option Nat) (d : Dev) : Dev :=
  if !d.hasSet p then d
  else
    let s := d.setAt p
    let pc := if code = 1 then addr % 16384 else ((thread.map (d.thread p)).map Thread.pc).getD 0
    let d := (d.pushFault p (thread.getD 0xFF) code pc).cause setCauses 1 p
    let x := d.recordSeq { unit := 0x41, inst := p, severity := 2, code := if code = 9 then 5 else 4, handling := 1, site := s.site
                           domain := s.site, detail0 := addr }
    let d := x.2
    if p < 32 ∧ (s.phase = .inService ∨ s.phase = .grace) then
      let d := (d.onPower (fun w => { w with satOut := w.satOut.filter (· != p) })).showSatOut
      let y := d.leaveSet p 0
      y.2.finishRecord x.1 (if y.1 then 3 else 4)
    else
      let d := if s.phase = .out then d else (d.putSlot p { s with phase := .out }).cardChanged [setEntry p]
      d.finishRecord x.1 2

/-! ## Thermal sit-out and rejoin (R105, R106) -/

/-- The order of thermal sit-outs. -/
def thermalOrder : List Nat := [31, 23, 15, 7, 30, 22, 14, 6, 29, 21, 13, 5, 28, 20, 12, 4]

/-- The position that a thermal sit-out takes next, up to half the variant's in-service count. -/
def Dev.thermalNext (d : Dev) : Option Nat :=
  if d.die.variant.sets / 2 ≤ d.power.satOut.length then none else thermalOrder.find? d.setInService

/-- A thermal sit-out begins: dispatch to the position stops, and its entry shows it. -/
def Dev.thermalStart (d : Dev) : Dev :=
  match d.thermalNext with
  | none => d
  | some p =>
    let d := { d with setPos := d.setPos.set p { d.setAt p with phase := .grace, thermal := true } }
    let d := d.onPower (fun w => { w with satOut := p :: w.satOut, unproven := w.unproven.filter (· != p) })
    ((d.showSatOut.wr R.PWR_STICKY_thermal_sitout 1).updateHeadroom.cardChanged [setEntry p]).pwrEvent 6

/-- THERMAL_SITOUT: Tj stays at or above 115 °C; one that comes during a replay waits for its end. -/
def Dev.thermalSitout (d : Dev) : Dev :=
  if d.tj < 115 then d
  else if d.replaying then d.onPower (fun w => { w with sitOutWaits := true })
  else d.thermalStart

/-- The last position sat out returns with its site, once Tj has stayed below 105 °C for 1 s and its grace has ended. -/
def Dev.thermalRejoin (d : Dev) : Dev :=
  match d.power.satOut with
  | [] => d
  | p :: rest =>
    let s := d.setAt p
    if d.power.coolMs < 1000 ∨ s.phase ≠ .out ∨ s.thermal = false then d
    else
      let d := { d with setPos := d.setPos.set p { site := s.site } }
      let d := d.onPower (fun w => { w with satOut := rest, unproven := p :: w.unproven })
      (((d.wake s.site).showSatOut.updateHeadroom).cardChanged [setEntry p]).pwrEvent 7

/-! ## Crypto positions (R272) -/

/-- The lowest reserve position that holds a fit instance. -/
def Dev.fitCry (d : Dev) : Option Nat := [46, 47].find? (fun r => (d.cryAt r).phase == .inService)

/-- Crypto position `p` leaves service: a reserve takes it, or it stays vacant and its jobs go to another position. -/
def Dev.leaveCry (p : Nat) (d : Dev) : Bool × Dev :=
  let a := d.cryAt p
  match d.fitCry with
  | some r =>
    let b := d.cryAt r
    (true, ((d.putCry p { site := b.site }).putCry r { site := a.site, phase := .out }).cardChanged [cryEntry p, cryEntry r])
  | none =>
    let d := (d.putCry p { a with phase := .out }).cardChanged [cryEntry p]
    (false, d.assignJobs)

/-- The record of a crypto instance. -/
def Dev.cryErr (d : Dev) (p code : Nat) : Err :=
  { unit := 0x50, inst := p, severity := 2, code := code, handling := 1, site := (d.cryAt p).site, domain := d.unitDomain 0x50 p }

/-- An instance faults: code 0x03 a datapath check, 0x02 the key cache. -/
def Dev.cryFault (p code : Nat) (d : Dev) : Dev :=
  if !d.hasCry p then d
  else
    let s := d.cryAt p
    let x := (d.cause cryInstCauses 1 p).recordSeq (d.cryErr p code)
    if p < 46 ∧ (s.phase = .inService ∨ s.phase = .grace) then
      let y := x.2.leaveCry p
      y.2.finishRecord x.1 (if y.1 then 3 else 4)
    else
      let d := if s.phase = .out then x.2 else (x.2.putCry p { s with phase := .out }).cardChanged [cryEntry p]
      d.finishRecord x.1 2

/-- Does a job run at a crypto position? -/
def Dev.cryBusy (d : Dev) (p : Nat) : Bool := (d.cryJobs p).vals.any (fun it => it.jobCtx.isSome)

/-! ## Control cores (R405, R431) -/

/-- Control cores in service, rising. -/
def Dev.coresIn (d : Dev) : List Nat := (List.range 8).filter (fun k => !(d.cores.getD k {}).out)

/-- The entry of a control core. -/
def coreEntry (k : Nat) : Nat := 214 + k

/-- A core leaves service: the messages it held are announced again to the core that takes its MID. -/
def Dev.leaveCore (k : Nat) (d : Dev) : Dev :=
  let d := { d with cores := d.cores.upd k {} (fun c => { c with out := true }) }
  (d.cardChanged [coreEntry k]).redeliver (midCore k)

/-! ## The answers of sit-outs (R431) -/

/-- Requests that wait for a unit are answered. -/
def Dev.answerUnit (rejoin : Bool) (unit inst status : Nat) (d : Dev) : Dev :=
  let due := d.jobs.filter (fun _ j => match j.awaits with
    | .sitOut u n => !rejoin && u == unit && n == inst
    | .rejoin u n => rejoin && u == unit && n == inst
    | _ => false)
  Dev.each due.entries (fun e d => { d with jobs := d.jobs.erase e.1 }.answerRequest e.2.fn e.2.kind e.2.tag status []) d

/-- A planned sit-out of Set position `p` begins: dispatch stops; with nothing held it ends at once. -/
def Dev.graceStart (p : Nat) (d : Dev) : Dev :=
  { d with setPos := d.setPos.set p { d.setAt p with phase := .grace } }

/-- The grace of a sit-out has passed (R106): the remainder is replayed, and the position is out. -/
def Dev.graceEnd (p : Nat) (d : Dev) : Dev :=
  let s := d.setAt p
  if s.phase ≠ .grace then d
  else if s.thermal then
    let d := ((d.onSite p SetSite.emptied).redeliver (midSet p))
    let d := { d with setPos := d.setPos.set p { s with phase := .out } }
    (d.replay p 2 false).setDomain s.site false
  else (d.leaveSet p 1).2.answerUnit false 0x41 p 0

/-- What waited for a replay to end goes on: sit-outs asked for, then a thermal one (R106, R431). -/
def Dev.afterReplay (d : Dev) : Dev :=
  if d.replaying then d
  else
    let waits := d.jobs.vals.filterMap (fun j => match j.awaits with
      | .sitOut u n => if u == 0x41 && n < 32 && d.setInService n then some n else none
      | _ => none)
    let d := Dev.each waits Dev.graceStart d
    if d.power.sitOutWaits then (d.onPower (fun w => { w with sitOutWaits := false })).thermalSitout else d

/-- A replay is through: no entry of it remains open (R165 step 5, R166). -/
def Dev.replayEnd (p stallNs : Nat) (d : Dev) : Dev :=
  match d.replays.find? (fun r => r.position == p &&
      r.items.all (fun i => ((d.item? i).map (fun it => !(it.inLedger || it.stage == .queued))).getD true)) with
  | none => d
  | some r =>
    let stall := min stallNs 0xFFFFFF
    let d := { d with replays := d.replays.erase r }
    let d := (d.wr R.LGR_LAST_STALL_stall_ns stall).wr R.LGR_STALL_MAX_stall_ns (max stall (d.rd R.LGR_STALL_MAX_stall_ns))
    let d := if d.rd R.LGR_STALL_LIMIT_stall_limit < stallNs then d.cause lgrCauses 4 else d
    let d := if d.replaying then d else d.wr R.LGR_STATUS_replay_active 0
    (d.cause lgrCauses 1).afterReplay

/-- Pop the failed-item log (R172). -/
def Dev.popFailure (d : Dev) : Nat × Dev :=
  match d.failures with
  | [] => (0, d)
  | f :: rest =>
    let w0 := f.source % 2 ^ 22 + 2 ^ 22 * f.onPort.toNat + 2 ^ 23 * f.reason + 2 ^ 31
    let d := { d with failures := rest }
    (w0, ((d.wr R.LGR_FAIL_LOG_1_seq_lo (f.seq % 2 ^ 32)).wr R.LGR_FAIL_LOG_2_seq_hi (f.seq / 2 ^ 32)).wr R.LGR_FAIL_LOG_2_function f.fn)

/-! ## Commands -/

/-- SET_FAULT, with the finder. -/
def execSetFault (position : Nat) (x : SetFinding) (s : State) : Out :=
  s.onLinks (fun d => if x.code = 1 ∨ x.code = 9 then d.setFault position x.code x.addr x.thread else d)

/-- REPLAY_DONE, with the measured stall. -/
def execReplayDone (position stallNs : Nat) (s : State) : Out := s.onRun (Dev.replayEnd position stallNs)

/-- SITOUT_GRACE_EXPIRY. -/
def execSitoutGraceExpiry (position : Nat) (s : State) : Out := s.onRun (Dev.graceEnd position)

/-- THERMAL_SITOUT. -/
def execThermalSitout (s : State) : Out := s.onRun Dev.thermalSitout

/-- THERMAL_REJOIN. -/
def execThermalRejoin (s : State) : Out := s.onRun Dev.thermalRejoin

/-- CRYPTO_INSTANCE_FAULT. -/
def execCryptoInstanceFault (position : Nat) (s : State) : Out := s.onLinks (Dev.cryFault position 3)

/-- INBOUND_ESP_JOB_DONE; the last job of a position that sits out lets it go (R272). -/
def execInboundEspJobDone (job : Nat) (s : State) : Out :=
  s.onRun (fun d =>
    let p := ((d.item? job).map Item.cryPosition).getD 0
    let d := d.espJobDone job
    if (d.cryAt p).phase = .grace ∧ d.cryBusy p = false then (d.leaveCry p).2.answerUnit false 0x50 p 0 else d)

/-- FIGURE_FULL_PERSIST: every in-service position of the Figure has held 512 entries for 100 µs. -/
def execFigureFullPersist (figure : Nat) (s : State) : Out :=
  s.onRun (fun d =>
    let ps := d.figurePositions figure
    if !ps.isEmpty && ps.all (fun p => 512 ≤ d.occupancy p) then d.cause lgrCauses 6 else d)

/-- LGR_FAIL_LOG_READ. -/
def execLgrFailLogRead (mid : Nat) (s : State) : Out := s.onRun (fun d => let x := d.popFailure; x.2.emit (.answer mid x.1))

end Sys2Proof.Machine
end

