-- ==== Sys2Proof/Machine/Image.lean ====
section
/-!
DEFINITION. Repertoire images: what each section says, the checks of verification (R27, R59-R73, R110-R113, R207, R343, R346, R395),
and how a verified image's sections become register fields and control stores (R53 step 7). A `DefRec.off` is a byte offset.
-/

namespace Sys2Proof.Machine

/-! ## Sections -/

/-- The type code of a section (R61). -/
def sectionType : SecBody → Nat
  | .identity _ => 0x0001
  | .bifurcation _ => 0x0002
  | .portMap _ => 0x0003
  | .hbmSizes _ _ => 0x0004
  | .bindings _ => 0x0005
  | .controlStore _ => 0x0010
  | .schemas _ => 0x0011
  | .firmware _ _ _ => 0x0020
  | .defaults _ => 0x0030
  | .defaultsBut _ => 0x0030
  | .unknown t _ => t
  | .malformed t _ => t

/-- The sections of a type. -/
def sectionsOf (img : Image) (type : Nat) : List Section := img.sections.filter (fun s => sectionType s.body == type)

/-- What the sections hold; an absent one is empty. -/
def imgShapes (img : Image) : List Nat := (img.sections.findSome? (fun s => match s.body with
  | .bifurcation l => some l
  | _ => none)).getD []
def imgPorts (img : Image) : List (Nat × PortRec) := (img.sections.findSome? (fun s => match s.body with
  | .portMap l => some l
  | _ => none)).getD []
def imgBindings (img : Image) : List (Nat × (Nat × Nat)) := (img.sections.findSome? (fun s => match s.body with
  | .bindings l => some l
  | _ => none)).getD []
def imgSchema (img : Image) : Schema := (img.sections.findSome? (fun s => match s.body with
  | .schemas l => some l
  | _ => none)).getD {}
/-- Protocol level, version and length of the firmware. -/
def imgFirmware (img : Image) : Nat × Nat × Nat := (img.sections.findSome? (fun s => match s.body with
  | .firmware p v code => some (p, v, 8 + code.length)
  | _ => none)).getD (0, 0, 0)
def imgDefaults (img : Image) : List DefRec := (img.sections.findSome? (fun s => match s.body with
  | .defaults l => some l
  | .defaultsBut l => some l
  | _ => none)).getD []
def imgDefaultsBut (img : Image) : Bool := img.sections.any (fun s => match s.body with
  | .defaultsBut _ => true
  | _ => false)

/-- The control store of position `p`: the first section whose target is the position or every instance (R263). -/
def imgStore (img : Image) (p : Nat) : Option (List (Nat × Microword)) := img.sections.findSome? (fun s => match s.body with
  | .controlStore l => if s.target = p ∨ s.target = 0xFFFFFFFF then some l else none
  | _ => none)

/-- The Set positions of a variant. -/
def setPositions (v : Variant) : List Nat := List.range v.sets ++ [32, 33]

/-! ## Checks of contents -/

/-- Bifurcation (R68, R110). -/
def shapesOk (v : Variant) (l : List Nat) : Bool :=
  l.length == 8 && l.all (fun s => s ≤ 3) &&
  (List.range 8).all (fun g => 2 * g < v.links || l.getD g 0 == 0) &&
  (List.range 4).all (fun h => (l.getD (2 * h) 0 == 3) == (l.getD (2 * h + 1) 0 == 3))

/-- The links a bifurcation forms, with their shape codes (R111, R132). -/
def linksFormed (l : List Nat) : List (Nat × Nat) :=
  (List.range 8).flatMap (fun g => match l.getD g 0 with
    | 1 => [(2 * g, 2)]
    | 2 => [(2 * g, 1), (2 * g + 1, 1)]
    | 3 => if g % 2 = 0 then [(2 * g, 3)] else []
    | _ => [])

/-- Calendar slots of a Flex Ethernet group (R346). -/
def groupSlots : Nat → Nat
  | 4 => 8
  | 5 => 16
  | 6 => 32
  | _ => 0

/-- Slots of a calendar are used once each, inside the group's count. -/
def slotsOk (n : Nat) (l : List (Nat × Nat)) : Bool := l.all (fun s => s.1 < n) && decide (l.map Prod.fst).Nodup

/-- The instances that a port names. -/
def portMacs (r : PortRec) : List Nat :=
  if r.flexe then ((r.slotsA ++ r.slotsB).map Prod.snd).dedup else [r.macInst]

/-- One port of the map (R69, R343, R346). -/
def portOk (v : Variant) (p : Nat × PortRec) : Bool :=
  let r := p.2
  let n := speedLanes r.speed
  1 ≤ r.speed && r.speed ≤ 7 && p.1 % n == 0 && p.1 + n ≤ v.lanes && r.fec25 ≤ 2 && (r.speed == 1 || r.fec25 == 0) &&
  (if r.flexe then groupSlots r.speed != 0 && slotsOk (groupSlots r.speed) r.slotsA && slotsOk (groupSlots r.speed) r.slotsB &&
      (r.calB || r.slotsB.isEmpty)
   else !r.calB && r.slotsA.isEmpty && r.slotsB.isEmpty)

/-- The port map (R69, R343). -/
def portsOk (v : Variant) (l : List (Nat × PortRec)) : Bool :=
  l.all (portOk v) &&
  decide (l.flatMap (fun p => (List.range (speedLanes p.2.speed)).map (p.1 + ·))).Nodup &&
  decide (l.flatMap (fun p => portMacs p.2)).Nodup &&
  (l.flatMap (fun p => portMacs p.2)).all (fun m => m < v.macs)

/-- HBM sizes: 8 GiB are fixed (R27). -/
def sizesOk (v : Variant) (s : Nat × Nat) : Bool :=
  s.1 ≤ 16 && (if v.hasSto then 2 ≤ s.2 else s.2 == 0) && s.1 + s.2 + 8 == v.hbmGib

/-- A master ID that R32 assigns and the part has. -/
def midOk (v : Variant) (m : Nat) : Bool :=
  isCoreMid m || (m == midStp) || (m == midDebug) || (isSetMid m) || (0x1000 ≤ m && m < 0x1010 + v.vfs)

/-- The function of one of the fixed channels (R394). -/
def channelFn (c : Nat) : Nat := if c < 16384 then 16 + c / 2 else (c - 16384) / 2

/-- An entry of the binding table (R394, R395). -/
def bindingOk (v : Variant) (b : Nat × (Nat × Nat)) : Bool :=
  let c := b.1
  let t := b.2.1
  let r := b.2.2
  c < 18432 && midOk v t && midOk v r && t != r &&
  (16416 ≤ c || (!(decide (v = .s9616) && ((8192 ≤ c && c < 16384) || 16400 ≤ c)) &&
    (if c % 2 = 0 then t == midFn (channelFn c) && isCoreMid r else r == midFn (channelFn c) && isCoreMid t)))

/-- The core that a fixed channel names. -/
def boundCore (l : List (Nat × (Nat × Nat))) (c : Nat) : Option Nat :=
  (l.find? (fun b => b.1 == c)).map (fun b => if c % 2 = 0 then b.2.2 else b.2.1)

/-- The binding table (R394, R395): the answer channel comes from the core that takes the requests. -/
def bindingsOk (v : Variant) (l : List (Nat × (Nat × Nat))) : Bool :=
  l.all (bindingOk v) && decide (l.map Prod.fst).Nodup &&
  (List.range 8208).all (fun k => boundCore l (2 * k) == boundCore l (2 * k + 1) ||
    (boundCore l (2 * k)).isNone || (boundCore l (2 * k + 1)).isNone) &&
  (List.range 34).all (fun p => (l.filter (fun b => b.2.1 == midSet p || b.2.2 == midSet p)).length ≤ 1024)

/-- PFs at most (R31): sixteen, eight on the S9616. -/
def maxPfs : Variant → Nat
  | .s9616 => 8
  | _ => 16

/-- The identity section (R31, R67, R113, R396), beside the bifurcation's links. -/
def identityOk (v : Variant) (links : List Nat) (i : Identity) : Bool :=
  let pfs := i.pfs.filter (fun p => p.2.present)
  pfs.all (fun p => p.1 < 16 && links.contains p.2.link && p.2.function ≤ 1 && p.2.vfKind ≤ 2 && p.2.totalVfs ≤ 1024 &&
    24 ≤ p.2.bar0Log2 && p.2.bar0Log2 ≤ 30 && 16 ≤ p.2.bar2Log2 && p.2.bar2Log2 ≤ 30 && 17 ≤ p.2.vfBar0Log2 && p.2.vfBar0Log2 ≤ 24 &&
    1 ≤ p.2.msixPf && p.2.msixPf ≤ 2048 && 1 ≤ p.2.msixVf && p.2.msixVf ≤ 256 && (v.hasSto || p.2.vfKind != 2) &&
    hasBit p.2.reach 210 && (List.range 224).all (fun e => !hasBit p.2.reach e ||
      windowOffset e + windowBytes e ≤ 2 ^ p.2.bar0Log2)) && pfs.length ≤ maxPfs v &&
  decide (pfs.map Prod.fst).Nodup && decide (pfs.map (fun p => (p.2.link, p.2.function))).Nodup &&
  links.all (fun l => pfs.any (fun p => p.2.link == l && p.2.function == 0)) &&
  (pfs.map (fun p => p.2.totalVfs)).sum ≤ v.vfs && (v.hasStp || i.stpChannels == 0)

/-- Kind, key length, log2_size, entry128, cache_pin of a table_cfg word (R72). -/
def cfgKind (c : Nat) : Nat := bits c 0 2
def cfgKeyLen (c : Nat) : Nat := bits c 2 6
def cfgLog2 (c : Nat) : Nat := bits c 8 5
def cfg128 (c : Nat) : Bool := hasBit c 13
def cfgPin (c : Nat) : Bool := hasBit c 15

/-- Bytes of a table. -/
def tableBytes (c : Nat) : Nat :=
  if cfgKind c = 1 then 256 * 2 ^ cfgLog2 c else if cfgKind c = 2 then (if cfg128 c then 128 else 64) * 2 ^ cfgLog2 c else 0

/-- Match-table schemas (R72, R207, R211, R220). -/
def schemaOk (v : Variant) (exactGib : Nat) (s : Schema) : Bool :=
  let used := s.tables.filter (fun t => cfgKind t.2.1 != 0)
  let room := exactGib * 2 ^ 30
  let cfg (t : Nat) : Nat := ((s.tables.find? (fun x => x.1 == t)).map (fun x => x.2.1)).getD 0
  let span (x : Nat × (Nat × Nat)) : Nat × Nat := (x.2.2 * 2 ^ 20, x.2.2 * 2 ^ 20 + tableBytes x.2.1)
  decide (s.tables.map Prod.fst).Nodup && s.tables.all (fun t => t.1 < 16 && t.2.1 < 2 ^ 17 && t.2.2 < 2 ^ 14) &&
  used.all (fun t => cfgKind t.2.1 ≤ 2 && (span t).2 ≤ room &&
    (if cfgKind t.2.1 = 1 then 1 ≤ cfgKeyLen t.2.1 && cfgKeyLen t.2.1 ≤ 32 && 10 ≤ cfgLog2 t.2.1 && cfgLog2 t.2.1 ≤ 26
     else cfgKeyLen t.2.1 == 0) &&
    used.all (fun u => u.1 == t.1 || (span u).2 ≤ (span t).1 || (span t).2 ≤ (span u).1)) &&
  cfgKind (cfg 0) == 1 && cfgKind (cfg 1) == 1 && cfgKind (cfg 2) == 1 && cfgKind (cfg 3) == 2 && cfg128 (cfg 3) &&
  cfgKeyLen (cfg 0) == 10 && cfgKeyLen (cfg 1) == 24 && cfgKeyLen (cfg 2) == 10 &&
  2 * ((used.filter (fun t => cfgPin t.2.1)).map (fun t => tableBytes t.2.1)).sum ≤ (if v = .s9616 then 32 else 48) * 2 ^ 20 &&
  s.txEntry < 2 ^ 14 && s.rxSaTable < 16 && s.actions.all (fun a => a.1 < 4096 && a.2 < 2 ^ 128)

/-- Control stores (R71, R263): check bytes, and a section for every position. -/
def storesOk (v : Variant) (img : Image) : Bool :=
  img.sections.all (fun s => match s.body with
    | .controlStore l => l.all (fun w => w.1 < 16384 && checkOk w.2) && decide (l.map Prod.fst).Nodup
    | _ => true) &&
  (setPositions v).all (fun p => (imgStore img p).isSome)

/-! ## Defaults (R62, R66) -/

/-- The byte offsets of a field's repeats. -/
def repOffsets : List (Nat × Nat) → List Nat
  | [] => [0]
  | (s, c) :: reps => (List.range c).flatMap (fun k => (repOffsets reps).map (k * s + ·))

/-- Does the field belong to the bank of each PF (R411), or to the device-wide part of the crypto window? -/
def Field.banked (f : Field) : Bool := f.unit == 0x91 && (f.off == 0x1000 || f.off == 0x40 || f.off == 0x10 || f.off == 0xC)
def Field.deviceWide (f : Field) : Bool := (f.unit == 0x50 && 0x100 ≤ f.off) || (f.unit == 0x91 && !f.banked)

/-- The instances of a field on a part. -/
def fieldInsts (v : Variant) (pfs : List Nat) (f : Field) : List Nat :=
  if f.banked then pfs
  else if f.deviceWide then [0]
  else if f.unit = 0x10 then List.range v.links
  else if f.unit = 0x30 then (List.range 2).filter f.onInst
  else if f.unit = 0x41 then setPositions v
  else if f.unit = 0x50 then List.range v.cryptos ++ [46, 47]
  else if f.unit = 0x61 then List.range 64
  else if f.unit = 0x70 then List.range v.lanes
  else if f.unit = 0x51 then (if v.hasSto then [0] else [])
  else if f.unit = 0xA0 then (if v.hasStp then [0] else [])
  else if f.unit = 0x4400 then []
  else [0]

/-- The field that a record names, with the record's start code. -/
def recField (r : DefRec) : Option Field :=
  (R.map r.unit).find? (fun f => f.lsb == r.lsb && f.width == r.width && (if r.isK then f.isK else f.isI) &&
    f.off ≤ r.off && fitsReps f.reps (r.off - f.off))

/-- The instances that a record gives a value to. -/
def recInsts (v : Variant) (pfs : List Nat) (r : DefRec) (f : Field) : List Nat :=
  let l := fieldInsts v pfs f
  if r.inst = 0xFFFF then l else l.filter (· == r.inst)

/-- The keys that a record gives a value to. -/
def recKeys (v : Variant) (pfs : List Nat) (r : DefRec) : List Nat :=
  match recField r with
  | some f => (recInsts v pfs r f).map (fun i => f.key i (r.off - f.off))
  | none => []

/-- The range that the manual states for an I field where it is narrower than the field's width. -/
def iRange (f : Field) : Nat × Nat :=
  if f = R.PWR_AVS_CONFIG_avs_vmin then (650, 750)
  else if f = R.MTB_TABLE_CFG_kind then (0, 2)
  else if f = R.MTB_TABLE_CFG_key_len then (0, 32)
  else if f = R.MTB_TABLE_CFG_log2_size then (0, 26)
  else if f = R.MAC_LANE_STATUS_rate then (0, 4)
  else (0, 2 ^ f.width - 1)

/-- A record's own checks (R66): a field of the map, K with its first-ever value, an I field in its range. -/
def recOk (v : Variant) (pfs : List Nat) (r : DefRec) : Bool :=
  match recField r with
  | some f => !(recKeys v pfs r).isEmpty && r.value < 2 ^ r.width &&
      (if r.isK then r.value == f.dflt else (iRange f).1 ≤ r.value && r.value ≤ (iRange f).2)
  | none => false

/-- Every K and I field of the part, by key. -/
def startKeys (v : Variant) (pfs : List Nat) : List Nat :=
  R.units.flatMap (fun u => ((R.map u).filter (fun f => f.isK || f.isI)).flatMap (fun f =>
    (fieldInsts v pfs f).flatMap (fun i => (repOffsets f.reps).map (f.key i))))

/-- The defaults section: it names every field once. The short form leaves out fields that 0 suits, so not avs_vmin. -/
def defaultsOk (v : Variant) (pfs : List Nat) (but : Bool) (l : List DefRec) : Bool :=
  l.all (recOk v pfs) && decide (l.flatMap (recKeys v pfs)).Nodup &&
  (if but then l.all (fun r => !r.isK) && (l.flatMap (recKeys v pfs)).contains (R.PWR_AVS_CONFIG_avs_vmin.key 0 0)
   else (startKeys v pfs).all (fun k => (l.flatMap (recKeys v pfs)).contains k))

/-! ## Applying the sections (R53 step 7) -/

/-- Write a register word by its 32-bit pieces: 384 bits as twelve words. -/
def Dev.wrBits (f : Field) (v i : Nat) (d : Dev) : Dev :=
  Dev.each (List.range 12) (fun w d => d.wr f (bits v (32 * w) 32) i (4 * w)) d

/-- Bifurcation and identity as the links show them (R132). -/
def Dev.applyLinks (img : Image) (d : Dev) : Dev :=
  Dev.each (linksFormed (imgShapes img)) (fun l d =>
    let pf (fun_ : Nat) : Option Nat :=
      (img.identity.pfs.find? (fun p => p.2.present && p.2.link == l.1 && p.2.function == fun_)).map Prod.fst
    let d := (d.wr R.PCX_LINK_SHAPE_shape l.2 l.1).wr R.PCX_LINK_SHAPE_group (l.1 / 2) l.1
    let d := (d.wr R.PCX_LINK_SHAPE_two_pf (pf 1).isSome.toNat l.1).wr R.PCX_LINK_SHAPE_pf_a ((pf 0).getD 0) l.1
    (d.wr R.PCX_LINK_SHAPE_pf_b ((pf 1).getD 0) l.1).wr R.PCX_LINK_SHAPE_ide_enabled (bit img.identity.ideEnable l.1) l.1) d

/-- The port map: ports, lanes, instances and their rates (R69, R343-R346). -/
def Dev.applyPorts (img : Image) (d : Dev) : Dev :=
  Dev.each (imgPorts img) (fun p d =>
    let r := p.2
    let d := (d.wr R.MAC_PORT_CFG_speed r.speed 0 (16 * p.1)).wr R.MAC_PORT_CFG_flexe r.flexe.toNat 0 (16 * p.1)
    let d := Dev.each (List.range (speedLanes r.speed)) (fun k d =>
      (d.wr R.MAC_LANE_STATUS_rate (min r.speed 4) (p.1 + k)).wr R.MAC_LANE_STATUS_port p.1 (p.1 + k)) d
    Dev.each (portMacs r) (fun m d =>
      let d := d.wr R.MAC_INST_STATE_formed 1 0 (4 * m)
      d.wr R.SCH_PORT_rate_gbps (if r.flexe then 25 * (r.slotsA.filter (fun s => s.2 == m)).length else speedGbps r.speed) 0 (4 * m)) d) d

/-- The schemas: tables, action records, entry and inbound SA table (R72). -/
def Dev.applySchema (img : Image) (d : Dev) : Dev :=
  let s := imgSchema img
  let d := Dev.each s.tables (fun t d =>
    let a := 32 * t.1
    let c := t.2.1
    let d := ((d.wr R.MTB_TABLE_CFG_kind (cfgKind c) 0 a).wr R.MTB_TABLE_CFG_key_len (cfgKeyLen c) 0 a).wr R.MTB_TABLE_CFG_log2_size (cfgLog2 c) 0 a
    let d := ((d.wr R.MTB_TABLE_CFG_entry128 (bit c 13) 0 a).wr R.MTB_TABLE_CFG_aging (bit c 14) 0 a).wr R.MTB_TABLE_CFG_cache_pin (bit c 15) 0 a
    (d.wr R.MTB_TABLE_CFG_host_write (bit c 16) 0 a).wr R.MTB_TABLE_BASE_base_mib t.2.2 0 a) d
  let d := Dev.each s.actions (fun x d =>
    Dev.each (List.range 4) (fun w d => d.wr R.PPL_ACTION_record (bits x.2 (32 * w) 32) 0 (16 * x.1 + 4 * w)) d) d
  (((d.wr R.PPL_TX_ENTRY_tx_entry s.txEntry 1).wr R.CRY_RX_TABLE_table s.rxSaTable).wr R.CRY_RX_TABLE_valid s.rxSaValid.toNat)

/-- Load the control store of the site in position `p` (R263). -/
def Dev.loadStore (img : Image) (p : Nat) (d : Dev) : Dev :=
  match imgStore img p with
  | some l => { d with sites := d.sites.upd (d.setAt p).site {} (fun s => { s with
      store := l.foldl (fun m w => if w.2 = 0 then m else m.set w.1 w.2) {} }) }
  | none => d

/-- The positions whose site is kept loaded: in service, or fit in reserve (R20). -/
def Dev.loadedPositions (d : Dev) : List Nat :=
  (setPositions d.die.variant).filter (fun p => decide ((d.setAt p).phase = .inService))

/-- Identity: events and the functions' presence (R411, R421). -/
def Dev.applyIdentity (img : Image) (d : Dev) : Dev :=
  let i := img.identity
  let d := d.wrBits R.EVT_CORE_core i.evtCore 0
  Dev.each (i.pfs.filter (fun p => p.2.present)) (fun p d =>
    let d := d.wrBits R.EVT_PERMIT_permit p.2.evtPermit p.1
    d.onFn p.1 (fun f => { f with present := true, tenant := p.1, sourceCheck := Config.pfSourceCheck p.1 })) d

/-- Store a value under a key; the default value is never listed. -/
def Dev.wrKey (f : Field) (k v : Nat) (d : Dev) : Dev :=
  { d with regs := if v = f.dflt then d.regs.erase k else d.regs.set k v }

/-! ## The bytes of an image (R59, R60, R66-R73, R395) -/

/-- A list of bytes brought to a length: cut, or filled up with zeros. -/
def fillTo (n : Nat) (l : List Byte) : List Byte := l.take n ++ List.replicate (n - l.length) 0

/-- The identity section (R67). -/
def identityBytes (i : Identity) : List Byte :=
  let recOf (n : Nat) : List Byte := match i.pfs.find? (fun p => p.1 == n) with
    | none => List.replicate 128 0
    | some p =>
      let r := p.2
      let w0 := r.present.toNat + 2 * (r.link % 16) + 32 * (r.function % 2) + 64 * (r.vfKind % 4) + 256 * (r.totalVfs % 2048)
      let w1 := r.bar0Log2 % 32 + 32 * (r.bar2Log2 % 32) + 1024 * (r.vfBar0Log2 % 32) + 32768 * (r.msixPf % 4096)
      fillTo 0x30 (fillTo 0x10 (leBytes w0 4 ++ leBytes w1 4 ++ leBytes (r.msixVf % 512) 4) ++ leBytes r.reach 28) ++
        fillTo 0x50 (leBytes r.evtPermit 48)
  leBytes i.subsysVendor 2 ++ leBytes i.subsysDevice 2 ++ leBytes i.ideEnable 2 ++ leBytes 0 2 ++ leBytes i.evtCore 48 ++
    leBytes i.stpChannels 8 ++ (List.range 16).flatMap recOf

/-- The port map (R69). -/
def portMapBytes (ports : List (Nat × PortRec)) : List Byte :=
  let port (p : Nat) : Option PortRec := (ports.find? (fun x => x.1 == p)).map Prod.snd
  let recOf (p : Nat) : List Byte := match port p with
    | none => List.replicate 8 0
    | some r => fillTo 8 (leBytes (r.speed % 8 + 8 * r.flexe.toNat + 16 * (r.fec25 % 4) + 64 * r.calB.toNat + 256 * (r.macInst % 256)) 2)
  let calendar (l : List (Nat × Nat)) : List Byte := (List.range 32).flatMap (fun k => match l.find? (fun s => s.1 == k) with
    | some s => leBytes (s.2 % 256 + 0x8000) 2
    | none => leBytes 0 2)
  (List.range 32).flatMap recOf ++
    (List.range 32).flatMap (fun p => calendar ((port p).map PortRec.slotsA |>.getD []) ++ calendar ((port p).map PortRec.slotsB |>.getD []))

/-- The schemas (R72). -/
def schemaBytes (s : Schema) : List Byte :=
  let table (t : Nat) : List Byte := match s.tables.find? (fun x => x.1 == t) with
    | some x => fillTo 16 (leBytes x.2.1 4 ++ leBytes x.2.2 4)
    | none => List.replicate 16 0
  let action (a : Nat) : List Byte := leBytes (((s.actions.find? (fun x => x.1 == a)).map Prod.snd).getD 0) 16
  fillTo 16 (leBytes (s.txEntry % 2 ^ 14 + 2 ^ 16 * (s.rxSaTable % 16) + 2 ^ 20 * s.rxSaValid.toNat) 4) ++
    fillTo 0x1F0 ((List.range 16).flatMap table) ++ (List.range 4096).flatMap action

/-- A record of the defaults section (R66). -/
def recBytes (r : DefRec) : List Byte :=
  leBytes r.unit 2 ++ leBytes r.inst 2 ++
    leBytes (r.off / 4 % 2 ^ 21 + 2 ^ 21 * (r.lsb % 32) + 2 ^ 26 * ((r.width - 1) % 32) + 2 ^ 31 * r.isK.toNat) 4 ++ leBytes r.value 8

/-- What the sections of an image but its defaults give the register fields. -/
def imageGiven (v : Variant) (img : Image) : NMap Nat :=
  let d : Dev := { die := { variant := v }, boot := { image := some img } }
  ((((d.applyLinks img).applyPorts img).applySchema img).applyIdentity img).regs

/-- The records that the short form of a defaults section stands for (notes/assumptions/53.md). -/
def expandDefaults (v : Variant) (pfs : List Nat) (img : Image) (named : List DefRec) : List DefRec :=
  let own := named.flatMap (recKeys v pfs)
  let given := imageGiven v img
  named ++ R.units.flatMap (fun u => ((R.map u).filter (fun f => f.isK || f.isI)).flatMap (fun f =>
    (fieldInsts v pfs f).flatMap (fun i => ((repOffsets f.reps).filter (fun a => !own.contains (f.key i a))).map (fun a =>
      { unit := f.unit, inst := i, off := f.off + a, lsb := f.lsb, width := f.width, isK := f.isK
        value := if f.isK then f.dflt else given.getD (f.key i a) 0 }))))

/-- How many K and I fields the part has. -/
def startCount (v : Variant) (pfs : List Nat) : Nat :=
  (R.units.map (fun u => (((R.map u).filter (fun f => f.isK || f.isI)).map (fun f =>
    (fieldInsts v pfs f).length * (f.reps.map Prod.snd).prod)).sum)).sum

/-- The PFs that an image names. -/
def imgPfs (img : Image) : List Nat := (img.identity.pfs.filter (fun p => p.2.present)).map Prod.fst

/-- The bytes of a section. -/
def sectionBytes (v : Variant) (img : Image) : SecBody → List Byte
  | .identity i => identityBytes i
  | .bifurcation l => fillTo 16 (l.map (BitVec.ofNat 8 ·))
  | .portMap l => portMapBytes l
  | .hbmSizes a b => fillTo 16 [BitVec.ofNat 8 a, BitVec.ofNat 8 b]
  | .bindings l => (List.range 18432).flatMap (fun c => match l.find? (fun b => b.1 == c) with
      | some b => leBytes b.2.1 2 ++ leBytes b.2.2 2
      | none => leBytes 0 4)
  | .controlStore l => (List.range 16384).flatMap (fun a => leBytes (((l.find? (fun w => w.1 == a)).map (fun w => w.2.toNat)).getD 0) 16)
  | .schemas s => schemaBytes s
  | .firmware p n code => leBytes p 4 ++ leBytes n 4 ++ code
  | .defaults l => l.flatMap recBytes
  | .defaultsBut l => (expandDefaults v (imgPfs img) img l).flatMap recBytes
  | .unknown _ b => b
  | .malformed _ b => b

/-- The length of a section, without writing its bytes out. -/
def sectionLength (v : Variant) (img : Image) : SecBody → Nat
  | .identity _ => 2112
  | .bifurcation _ => 16
  | .portMap _ => 4352
  | .hbmSizes _ _ => 16
  | .bindings _ => 73728
  | .controlStore _ => 262144
  | .schemas _ => 66048
  | .firmware _ _ code => 8 + code.length
  | .defaults l => 16 * l.length
  | .defaultsBut l => 16 * (l.length + startCount v (imgPfs img) - (l.flatMap (recKeys v (imgPfs img))).length)
  | .unknown _ b => b.length
  | .malformed _ b => b.length

/-- A directory entry (R60); the digest is the byte string of FIPS 180-4. -/
def entryBytes (s : Section) : List Byte :=
  leBytes (sectionType s.body) 2 ++ leBytes s.required.toNat 2 ++ leBytes s.offset 4 ++ leBytes s.length 4 ++ leBytes s.target 4 ++
    beBytes s.digest.toNat 48

/-- Header bytes 0x000-0x0DF and the 4 KiB directory, which the signature covers (R59, R63) and measurement 2 digests (R84); reserved
header bytes are zero. -/
def signedBytes (img : Image) : List Byte :=
  let head := leBytes img.magic 4 ++ leBytes (img.formatMinor % 256 + 256 * (img.formatMajor % 256)) 4 ++ leBytes img.imageBytes 4 ++
    leBytes img.sections.length 4 ++ leBytes img.variantMask 4 ++
    leBytes (img.securityVersion % 65536 + 2 ^ 16 * (img.keySlot % 4) + 2 ^ 18 * img.raiseFloor.toNat) 4 ++ leBytes img.buildId 8 ++
    leBytes img.schemaId 4
  fillTo 0x80 head ++ beBytes img.publicKey.toNat 96 ++ fillTo 4096 (img.sections.flatMap entryBytes)

/-! ## Verification (R63) -/

/-- SHA-384 of a public key. -/
def keyDigest (key : BitVec 768) : BitVec 384 := Config.sha384 (beBytes key.toNat 96)

/-- ECDSA P-384 verification under the key that has this digest. -/
def ecdsaOk (key hash : BitVec 384) (signature : BitVec 768) : Bool :=
  (key == keyDigest Config.ecdsaKey && signature == Config.ecdsaSignature hash) || Config.ecdsaVerify key hash signature

/-- Does the signature verify over header and directory? -/
def signatureOk (img : Image) : Bool := ecdsaOk (keyDigest img.publicKey) (Config.sha384 (signedBytes img)) img.signature

/-- A section's entry (R60): on a 4 KiB boundary behind the directory, inside the image, of its layout's length, and with the digest of
its bytes. -/
def sectionPlaced (v : Variant) (img : Image) (s : Section) : Bool :=
  s.offset % 4096 == 0 && 0x1200 ≤ s.offset && s.offset + s.length ≤ img.imageBytes && s.length == sectionLength v img s.body &&
  (match s.body with
    | .malformed _ _ => false
    | _ => true)
def sectionDigestOk (v : Variant) (img : Image) (s : Section) : Bool := s.digest == Config.sha384 (sectionBytes v img s.body)

/-- How often a section type may appear. -/
def countsOk (img : Image) : Bool :=
  [0x0001, 0x0002, 0x0003, 0x0004, 0x0005, 0x0011, 0x0020, 0x0030].all (fun t => (sectionsOf img t).length == 1) &&
  1 ≤ (sectionsOf img 0x0010).length &&
  img.sections.all (fun s => match s.body with
    | .unknown _ _ => !s.required
    | _ => true)

/-- The fused slot that an image names. -/
def keySlotOf (fuses : Fuses) : Nat → KeySlot
  | 0 => fuses.slot0
  | 1 => fuses.slot1
  | 2 => fuses.slot2
  | _ => fuses.slot3

/-- Header, variant and floor. -/
def headerOk (v : Variant) (fuses : Fuses) (slotSize : Nat) (img : Image) : Bool :=
  img.magic == 0x52455054 && img.formatMajor == 1 && img.imageBytes ≤ slotSize &&
  1 ≤ img.sections.length && img.sections.length ≤ 64 &&
  hasBit img.variantMask (match v with
    | .s9640 => 0
    | .s9632 => 1
    | .s9616 => 2) &&
  fuses.floor ≤ img.securityVersion && img.securityVersion < 65536 && img.keySlot < 4

/-- The key slot that the image names is programmed, not revoked, and holds the digest of its public key. -/
def keyOk (fuses : Fuses) (img : Image) : Bool :=
  let k := keySlotOf fuses img.keySlot
  k.programmed && !k.revoked && keyDigest img.publicKey == k.digest

/-- Contents of every section. -/
def contentsOk (v : Variant) (img : Image) : Bool :=
  let links := (linksFormed (imgShapes img)).map Prod.fst
  shapesOk v (imgShapes img) && portsOk v (imgPorts img) && sizesOk v (imgSizes img) && bindingsOk v (imgBindings img) &&
  identityOk v links img.identity && schemaOk v (imgSizes img).1 (imgSchema img) && storesOk v img &&
  4096 ≤ (imgFirmware img).2.2 && (imgFirmware img).2.2 ≤ 32 * 2 ^ 20 && defaultsOk v (imgPfs img) (imgDefaultsBut img) (imgDefaults img)

/-- R63 as a whole. -/
def verifies (v : Variant) (fuses : Fuses) (slotSize : Nat) (img : Image) : Bool :=
  headerOk v fuses slotSize img && keyOk fuses img && signatureOk img &&
  img.sections.all (fun s => sectionPlaced v img s && sectionDigestOk v img s) && countsOk img && contentsOk v img

/-! ## The defaults and the whole (R53 step 7) -/

/-- The defaults section: every I field takes the image's value (R75); a K field's record holds its first-ever value. -/
def Dev.applyDefaults (img : Image) (d : Dev) : Dev :=
  Dev.each ((imgDefaults img).filter (fun r => !r.isK)) (fun r d =>
    match recField r with
    | some f => Dev.each (recInsts d.die.variant d.pfs r f) (fun i d => d.wrKey f (f.key i (r.off - f.off)) r.value) d
    | none => d) d

/-- The I fields that an image's defaults name stand at their start value again, before another image's values come (R434). -/
def Dev.dropDefaults (img : Image) (d : Dev) : Dev :=
  Dev.each ((imgDefaults img).filter (fun r => !r.isK)) (fun r d =>
    match recField r with
    | some f => Dev.each (recInsts d.die.variant d.pfs r f) (fun i d => d.wrKey f (f.key i (r.off - f.off)) f.dflt) d
    | none => d) d

/-- Everything that an image gives, in the order of R53 step 7. Where the defaults give an I field another value than the section that
the field belongs to, the defaults, applied last, stand (DESIGN CHOICE, notes/assumptions/58.md). -/
def Dev.applySections (img : Image) (d : Dev) : Dev :=
  let d := { d with boot := { d.boot with image := some img } }
  let d := (d.applyLinks img).applyPorts img
  let d := Dev.each d.loadedPositions (Dev.loadStore img) d
  ((d.applySchema img).applyIdentity img).applyDefaults img

end Sys2Proof.Machine
end

