-- ==== Sys2Proof/Machine/Startup.lean ====
section
/-!
DEFINITION. Starts and device-level resets (R53-R65, R74-R87, R107, R169, R170, R453, R481, R488, R489, R495): the boot directory,
retained sources, snapshots, the cold start, the service reset, orderly shutdown, THERMTRIP and fault stop.
-/

namespace Sys2Proof.Machine

/-! ## Fields by key (R74) -/

/-- Unit type, instance and byte offset of a key. -/
def keyUnit (k : Nat) : Nat := k / 32 / 33554432 / 65536
def keyInst (k : Nat) : Nat := k / 32 / 33554432 % 65536
def keyOff (k : Nat) : Nat := k / 32 % 33554432

/-- The field that a key names. -/
def fieldOfKey (k : Nat) : Option Field := (R.map (keyUnit k)).find? (fun f => f.lsb == k % 32 && f.at (keyInst k) (keyOff k))

/-- Is the key that of a K field? -/
def isKKey (k : Nat) : Bool := ((fieldOfKey k).map Field.isK).getD false

/-- Every K field of the part and its PFs: the field with its key. -/
def kKeys (v : Variant) (pfs : List Nat) : List (Field × Nat) :=
  R.units.flatMap (fun u => ((R.map u).filter Field.isK).flatMap (fun f =>
    (fieldInsts v pfs f).flatMap (fun i => (repOffsets f.reps).map (fun a => (f, f.key i a)))))

/-! ## Retained sources (R74-R77) -/

/-- Does a source hold a K field? -/
def Retained.holds (r : Retained) (f : Field) (k : Nat) : Bool := !r.lacks.contains k && (!f.banked || r.pfs.contains (keyInst k))

/-- How a position is retained: thermal sit-outs are not (R106), a grace that has not ended has changed nothing, and a site under test
is still sat out. -/
def Slot.kept (s : Slot) : Slot :=
  { site := s.site
    phase := if s.thermal then .inService else match s.phase with
      | .grace => .inService
      | .testing => .out
      | p => p }

/-- The source that the device would write now. -/
def Dev.retain (seq : Nat) (d : Dev) : Retained :=
  { seq := seq
    dieId := d.die.dieId
    schemaId := (d.boot.image.map Image.schemaId).getD 0
    pfs := d.pfs
    vals := d.regs.filter (fun k _ => isKKey k)
    setSites := d.setPos.mapVals (fun _ s => s.kept)
    crySites := d.cryPos.mapVals (fun _ s => s.kept) }

/-- Is a retained source this die's, with a CRC that matches (R74)? -/
def Dev.sourceValid (d : Dev) (r : Retained) : Bool := r.crcOk && r.dieId == d.die.dieId

/-- The record of the store with the higher sequence. -/
def Keep.record (k : Keep) : Option Retained :=
  match k.rec0, k.rec1 with
  | some a, some b => if a.seq < b.seq then some b else some a
  | some a, none => some a
  | none, b => b

/-- The device begins to close a record: it holds every K field as it stands, and later writes go into the next (R76). -/
def Dev.beginRecord (d : Dev) : Dev :=
  if d.keep.closing.isSome then d
  else { d with keep := { d.keep with closing := some (d.retain ((d.keep.record.map Retained.seq).getD 0 + 1)), dirty := false } }

/-- The record that is being closed takes the older place; it stands on a standby rail in regulation. -/
def Dev.endRecord (d : Dev) : Dev :=
  match d.keep.closing with
  | none => d
  | some r =>
    let second : Bool := match d.keep.rec0, d.keep.rec1 with
      | some a, some b => decide (b.seq ≤ a.seq)
      | some _, none => true
      | none, _ => false
    let k := { d.keep with closing := none, brownout := false }
    { d with keep := if second then { k with rec1 := some r } else { k with rec0 := some r } }

/-- Close a retention record at once: one that was begun first, then one that holds what was written since. -/
def Dev.closeRecord (d : Dev) : Dev := d.endRecord.beginRecord.endRecord

/-- The retention record, where it is valid. -/
def Dev.validRecord (d : Dev) : Option Retained :=
  if d.keep.discard || d.keep.brownout then none else d.keep.record.filter d.sourceValid

/-- The valid snapshot of the higher sequence. -/
def Dev.validSnapshot (d : Dev) (fl : Flash) : Option Retained :=
  if d.keep.discard then none
  else
    let ok (r : Option Retained) : Option Retained := r.filter d.sourceValid
    match ok fl.snap0, ok fl.snap1 with
    | some a, some b => if a.seq < b.seq then some b else some a
    | some a, none => some a
    | none, b => b

/-- The older snapshot slot: one that holds nothing valid counts as older. -/
def Flash.olderSnap (fl : Flash) : Nat :=
  match fl.snap0, fl.snap1 with
  | none, _ => 0
  | some _, none => 1
  | some a, some b => if a.seq ≤ b.seq then 0 else 1

/-- Store into a snapshot slot. -/
def Flash.putSnap (n : Nat) (r : Option Retained) (fl : Flash) : Flash := if n = 0 then { fl with snap0 := r } else { fl with snap1 := r }

/-- The sequence of the next snapshot. -/
def Flash.snapSeq (fl : Flash) : Nat := max ((fl.snap0.map Retained.seq).getD 0) ((fl.snap1.map Retained.seq).getD 0) + 1

/-- BOOT event offset `n` (R87). -/
def Dev.bootEvent (n : Nat) (d : Dev) : Dev := d.raise (366 + n)

/-- Byte offset of snapshot slot `n` (R57). -/
def Flash.snapAddr (fl : Flash) (n : Nat) : Nat := (fl.sizeMib - 4 + 2 * n) * 2 ^ 20

/-- Put something out at a pin. -/
def State.emit (s : State) (o : Output) : State := { s with dev := s.dev.emit o }

/-- A snapshot write starts by erasing the older slot; a request while one runs joins it (notes/assumptions/35.md). -/
def State.snapStart (s : State) : State :=
  if s.dev.boot.snapshot.isSome then s
  else
    let n := s.flash.olderSnap
    let rec_ := s.dev.retain s.flash.snapSeq
    { s with
      flash := s.flash.putSnap n none
      dev := { s.dev with boot := { s.dev.boot with snapshot := some rec_, snapSlot := n } }.wr R.BOOT_STATUS_snap_busy 1 }.emit
        (.flashErase (s.flash.snapAddr n) 32)

/-- The write ends: its pages are programmed, in a number that no rule states. A flash error raises offset 6 beside offset 3 (R87). -/
def State.snapDone (ok : Bool) (s : State) : State :=
  match s.dev.boot.snapshot with
  | none => s
  | some r =>
    let (pages, d) := s.dev.free
    let d := ({ d with boot := { d.boot with snapshot := none } }.wr R.BOOT_STATUS_snap_busy 0).emit
      (.flashProgram (s.flash.snapAddr s.dev.boot.snapSlot) (pages % 8193))
    if ok then
      { s with
        flash := s.flash.putSnap s.dev.boot.snapSlot (some r)
        dev := ((d.bump R.BOOT_SNAP_COUNT_snapshots).wr R.BOOT_SNAP_RESULT_last 1).bootEvent 2 }
    else { s with dev := ((d.wr R.BOOT_SNAP_RESULT_last 2).bootEvent 3).bootEvent 6 }

/-! ## Boot directory and slots (R57, R58, R64) -/

/-- Bytes 0x00-0x1B of a directory copy (R58). -/
def DirCopy.bytes (c : DirCopy) : List Byte :=
  leBytes c.magic 4 ++ leBytes c.seq 4 ++ leBytes c.slotSize 4 ++ leBytes (c.active % 2 + 2 * c.trial.toNat + 4 * (c.trialLeft % 4)) 4 ++
    List.replicate 12 0

/-- Do magic and CRC-32C match (R58)? -/
def DirCopy.valid (c : DirCopy) : Bool := c.magic == 0x51444952 && c.check == crc32c c.bytes

/-- The copy with the magic and the check of its content. -/
def DirCopy.sealed (c : DirCopy) : DirCopy :=
  let c := { c with magic := 0x51444952 }
  { c with check := crc32c c.bytes }

/-- Is a directory copy valid on a flash of this size (R56-R58)? -/
def DirCopy.usable (sizeMib : Nat) (c : DirCopy) : Bool :=
  64 ≤ sizeMib && sizeMib ≤ 256 && c.valid && c.slotSize % 2 ^ 20 == 0 && c.slotSize ≤ 96 * 2 ^ 20 && 0x20000 + 2 * c.slotSize ≤ (sizeMib - 4) * 2 ^ 20

/-- The directory in force: of two valid copies the one with the higher sequence. -/
def Flash.dir (fl : Flash) : Option DirCopy :=
  match fl.dir0.usable fl.sizeMib, fl.dir1.usable fl.sizeMib with
  | true, true => some (if fl.dir0.seq < fl.dir1.seq then fl.dir1 else fl.dir0)
  | true, false => some fl.dir0
  | false, true => some fl.dir1
  | false, false => none

/-- Write the directory into the older copy. -/
def Flash.writeDir (c : DirCopy) (fl : Flash) : Flash :=
  let c := ({ c with seq := (((fl.dir.map DirCopy.seq).getD 0) + 1) % 2 ^ 32 }).sealed
  let second := fl.dir0.usable fl.sizeMib && (!fl.dir1.usable fl.sizeMib || fl.dir1.seq ≤ fl.dir0.seq)
  if second then { fl with dir1 := c } else { fl with dir0 := c }

/-- What the flash bus carries for the directory writes that lead from one flash to another: one sector erased and one page programmed
for each (R56, R58). -/
def dirWrites (a b : Flash) : List Output :=
  let at_ (addr : Nat) (x y : DirCopy) : List Output := if x = y then [] else [.flashErase addr 1, .flashProgram addr 1]
  at_ 0 a.dir0 b.dir0 ++ at_ 0x10000 a.dir1 b.dir1

/-- Store the flash after directory writes, with what the bus carried. -/
def State.putFlash (fl : Flash) (s : State) : State :=
  { s with flash := fl, dev := Dev.each (dirWrites s.flash fl) (fun o d => d.emit o) s.dev }

/-- Byte offset of image slot `n` (R57). -/
def DirCopy.slotAddr (c : DirCopy) (n : Nat) : Nat := 0x20000 + n * c.slotSize

/-- An image goes into the inactive slot: its 64 KiB sectors are erased and its 256-byte pages programmed (R56). -/
def State.writeSlot (c : DirCopy) (img : Image) (s : State) : State :=
  let at_ := c.slotAddr (1 - c.active)
  let s := { s with flash := if c.active = 0 then { s.flash with slotB := some img } else { s.flash with slotA := some img } }
  (s.emit (.flashErase at_ ((img.imageBytes + 65535) / 65536))).emit (.flashProgram at_ ((img.imageBytes + 255) / 256))

/-- The image of a slot. -/
def Flash.slot (fl : Flash) (n : Nat) : Option Image := if n = 0 then fl.slotA else fl.slotB

/-- What the loader chose: slot, image, whether it is on trial, whether the first slot tried failed. -/
structure Pick where
  slot : Nat
  image : Image
  trial : Bool := false
  fallback : Bool := false
  deriving DecidableEq, Repr

/-- The image of a slot, where it passes R63. -/
def Flash.verified (fl : Flash) (v : Variant) (fuses : Fuses) (c : DirCopy) (n : Nat) : Option Image :=
  (fl.slot n).filter (verifies v fuses c.slotSize)

/-- Try the active slot, then the other where it may be tried (R64). -/
def Flash.pickActive (fl : Flash) (v : Variant) (fuses : Fuses) (c : DirCopy) (fallback spare : Bool) : Option Pick :=
  match fl.verified v fuses c c.active with
  | some img => some { slot := c.active, image := img, fallback := fallback }
  | none =>
    if spare then (fl.verified v fuses c (1 - c.active)).map (fun img => { slot := 1 - c.active, image := img, fallback := true }) else none

/-- The choice of R64 and the flash after it; without a valid directory no slot can be chosen. -/
def Flash.pick (fl : Flash) (v : Variant) (fuses : Fuses) : Option Pick × Flash :=
  match fl.dir with
  | none => (none, fl)
  | some c =>
    if c.trial && 0 < c.trialLeft then
      let once := { c with trialLeft := c.trialLeft - 1 }
      let fl := fl.writeDir once
      match fl.verified v fuses c (1 - c.active) with
      | some img => (some { slot := 1 - c.active, image := img, trial := true }, fl)
      | none => let fl := fl.writeDir { once with trial := false }
                (fl.pickActive v fuses c true false, fl)
    else if c.trial then
      let fl := fl.writeDir { c with trial := false }
      (fl.pickActive v fuses c false false, fl)
    else (fl.pickActive v fuses c false true, fl)

/-- Confirm the running trial image (R63, R64): its slot becomes active, and the 64-step floor may rise. -/
def State.confirmTrial (s : State) : State :=
  match s.flash.dir, s.dev.boot.image with
  | some c, some img =>
    if c.trial && s.dev.boot.onTrial then
      let s := s.putFlash (s.flash.writeDir { c with active := 1 - c.active, trial := false, trialLeft := 0 })
      { s with
        fuses := if img.raiseFloor then { s.fuses with floor := max s.fuses.floor (min 64 img.securityVersion) } else s.fuses
        dev := { s.dev with boot := { s.dev.boot with onTrial := false } } }
    else s
  | _, _ => s

/-- Both snapshot slots are erased. -/
def State.eraseSnaps (s : State) : State :=
  ({ s with flash := { s.flash with snap0 := none, snap1 := none } }.emit (.flashErase (s.flash.snapAddr 0) 32)).emit
    (.flashErase (s.flash.snapAddr 1) 32)

/-- Discard what is retained (R79), at once. -/
def State.discard (s : State) : State :=
  let s := s.eraseSnaps
  { s with dev := { s.dev with keep := { s.dev.keep with rec0 := none, rec1 := none, closing := none, discard := true } } }

/-! ## Cold reset (R80, R481, R488) -/

/-- SMB_ALERT_N is asserted in the recovery state and in fault stop (R485). -/
def Dev.alerting (d : Dev) : Bool := d.phase == .recovery || d.phase == .faultStop

/-- The recovery state (R65). -/
def Dev.recover (d : Dev) : Dev := ({ d with phase := .recovery }).emit (.smbAlert true)

/-- The device in cold reset. What the always-on domain holds stays: the retention store, with a K write that waits for its record
(notes/assumptions/36.md), the boost count and the memory of a trip. -/
def Dev.coldReset (cause : Nat) (d : Dev) : Dev :=
  let d := if d.keep.dirty then d.closeRecord else d.endRecord
  let out := if d.phase = .held then d.out else (if d.alerting then d.out ++ [.smbAlert false] else d.out) ++ [.flashReset true]
  let r : Dev := {
    phase := .held
    railsGood := d.railsGood
    resetLow := d.resetLow
    testen := d.testen
    freeCtr := d.freeCtr
    out := out
    die := d.die
    keep := d.keep
    eid := d.eid
    dbg := { tap := d.dbg.tap }
    power := { buckets := d.power.buckets
               boostBan := d.power.boostBan
               sinceBoost := if d.on R.PWR_VDD_boost_open then 0 else d.power.sinceBoost
               tripPin := d.power.tripPin
               trippedBefore := d.power.trippedBefore || decide (d.phase = .tripped)
               heldTj := d.power.heldTj }
    boot := { cause := if d.phase = .held then d.boot.cause else cause
              snapCut := d.boot.snapCut || d.boot.snapshot.isSome } }
  r.showBoost

/-- THERMTRIP_N is released (R107). -/
def Dev.releaseTrip (d : Dev) : Dev :=
  if d.power.tripPin then ({ d with power := { d.power with tripPin := false } }).emit (.thermTrip false) else d

/-- SYS_RST_N is asserted; it releases THERMTRIP_N (R488). -/
def Dev.sysReset (d : Dev) : Dev := (({ d with resetLow := true }).coldReset 3).releaseTrip

/-- A main rail falls: as SYS_RST_N, but the next start records cause 2, and 1 where standby was lost before (R86, R481). -/
def Dev.railFail (d : Dev) : Dev :=
  let d := ({ d with railsGood := false }).coldReset 2
  { d with boot := { d.boot with cause := min 2 d.boot.cause } }

/-- The standby rail comes up: everything of the always-on domain is new, and the preceding 24 h count as boost used (R80, R95). A
discard command that no start has honoured yet stands (R79; DEDUCED, notes/assumptions/63.md). -/
def Dev.standbyOn (d : Dev) : Dev :=
  let r : Dev := {
    phase := .held
    freeCtr := d.freeCtr
    out := d.releaseTrip.out
    testen := d.testen
    die := d.die
    keep := { discard := d.keep.discard }
    power := { buckets := List.replicate 96 900, boostBan := 96, trippedBefore := d.power.trippedBefore || decide (d.phase = .tripped) }
    boot := { cause := 1, snapCut := d.boot.snapCut || d.boot.snapshot.isSome } }
  r.showBoost

/-! ## THERMTRIP (R107, R489) -/

/-- Accepted work is lost, and no request stays open. -/
def Dev.loseWork (d : Dev) : Dev :=
  { d with
    items := {}
    replays := []
    links := d.links.mapVals (fun _ l => { l with queue := [], reads := l.reads.mapVals (fun _ r => { r with dead := true }) })
    rings := d.rings.mapVals (fun _ g => { g with accepted := [], saved := 0, frame := [], landed := {}, waiting := [], heldBytes := 0, owed := [] })
    nvmes := d.nvmes.mapVals (fun _ x => { x with owed := [], sqs := x.sqs.mapVals (fun _ q => { q with accepted := [], saved := 0, landed := {} }) }) }

/-- THERMTRIP_N asserts, unless it is asserted already; before cold-start step 3 the governor sends nothing. -/
def Dev.trip (d : Dev) : Dev :=
  if d.phase = .tripped then d
  else
    let asserted := d.power.tripPin
    let d := { d.loseWork with phase := .tripped, power := { d.power with trippedBefore := true, tripPin := true } }
    let d := if asserted then d else d.emit (.thermTrip true)
    if d.power.started then (d.closeBoost).requestVdd (d.rd R.PWR_AVS_CONFIG_avs_vmin) 6 else d

/-! ## Retained values at a start (R75) -/

/-- What the sources give: the value of each K field that one of them holds and the image has, and how many fields none holds. -/
structure Chosen where
  vals : NMap Nat := {}
  missing : Nat := 0
  setSites : NMap Slot := {}
  crySites : NMap Slot := {}
  deriving DecidableEq, Repr

/-- Does the image on this part define the field: its instance, its MAC instance, its link (R75, R323, R345)? -/
def Dev.definesKey (d : Dev) (f : Field) (k : Nat) : Bool :=
  (fieldInsts d.die.variant d.pfs f).contains (keyInst k) &&
  (!(f.unit == 0x71 && f.reps == [(16, 256)]) || d.on R.MAC_INST_STATE_formed 0 ((keyOff k - f.off) / 4)) &&
  (!(f.unit == 0x60 && f.reps == [(16, 16)]) || d.formed ((keyOff k - f.off) / 16)) &&
  (f.unit != 0x10 || d.formed (keyInst k))

/-- The retention store first, then the snapshot, then the first-ever value. -/
def Dev.chooseRetained (d : Dev) (store snap : Option Retained) : Chosen :=
  let defined (k : Nat) : Bool := match fieldOfKey k with
    | some f => f.isK && d.definesKey f k
    | none => false
  let inStore (k : Nat) : Bool := match store, fieldOfKey k with
    | some r, some f => r.holds f k
    | _, _ => false
  let held (r : Option Retained) (f : Field) (k : Nat) : Bool := (r.map (fun r => r.holds f k)).getD false
  let listed (r : Option Retained) : NMap Nat := match r with
    | some r => r.vals.filter (fun k _ => !r.lacks.contains k)
    | none => {}
  let fromSnap := (listed snap).filter (fun k _ => !inStore k)
  let from_ := store.or snap
  { vals := ((listed store).entries.foldl (fun m e => m.set e.1 e.2) fromSnap).filter (fun k _ => defined k)
    missing := ((kKeys d.die.variant d.pfs).filter (fun x => !held store x.1 x.2 && !held snap x.1 x.2)).length
    setSites := (from_.map Retained.setSites).getD {}
    crySites := (from_.map Retained.crySites).getD {} }

/-- Is a retained value of a route out of range under this image: its vector beyond the PF's table, or its source not permitted
(R75, R411)? -/
def Dev.routeOut (d : Dev) (vals : NMap Nat) (k : Nat) : Bool :=
  keyUnit k == 0x91 && 0x1000 ≤ keyOff k &&
  (let pf := keyInst k
   let src := (keyOff k - 0x1000) / 4
   ((d.pf? pf).map PfRec.msixPf).getD 0 ≤ vals.getD (R.EVT_ROUTE_vector.key pf (4 * src)) 0 ||
   (vals.getD (R.EVT_ROUTE_enable.key pf (4 * src)) 0 != 0 && !hasBit (d.rd R.EVT_PERMIT_permit pf (4 * (src / 32))) (src % 32)))

/-- Is a retained DMA_FUNC.function one that names no function of the part under this image (R75)? -/
def Dev.functionOut (d : Dev) (k v : Nat) : Bool :=
  keyUnit k == 0x61 && keyOff k == R.DMA_FUNC_function.off && v != 0 &&
  (16 + d.die.variant.vfs ≤ v || (v < 16 && (d.pf? v).isNone))

/-- Is a retained floor of a host link a share beyond its parent, more than a ceiling of the root (R75, R313; DEDUCED,
notes/assumptions/14.md)? -/
def floorOut (vals : NMap Nat) (k v : Nat) : Bool :=
  let top := vals.getD (R.SCH_DEVICE_dev_ceiling.key 0 0) 0
  top != 0 && top < v && (List.range 16).any (fun n => k == R.SCH_LINK_FLOOR_floor_mbps.key 0 (16 * n))

/-- Put the chosen values in force; the answer is how many were replaced by their first-ever value. -/
def Dev.applyRetained (c : Chosen) (d : Dev) : Nat × Dev :=
  let bad := c.vals.filter (fun k v => d.routeOut c.vals k || d.functionOut k v || floorOut c.vals k v)
  let d := Dev.each (c.vals.filter (fun k _ => !bad.has k)).entries (fun e d => match fieldOfKey e.1 with
    | some f => d.wrKey f e.1 (e.2 % 2 ^ f.width)
    | none => d) d
  let dom (k : Nat) : Domain :=
    { inc := d.rd64 R.TMP_DOM_INC_LO_inc R.TMP_DOM_INC_HI_inc 0 (128 * k), base := d.rd R.TMP_DOM_BASE_base_unc 0 (128 * k) }
  (bad.size, { d with
    setPos := c.setSites.filter (fun p _ => d.hasSet p)
    cryPos := c.crySites.filter (fun p _ => d.hasCry p)
    tempo := { d.tempo with lead := dom 0, follow := dom 1 } })

/-! ## The start record (R86, R87) -/

/-- What a start notes beside what the image says. -/
structure StartNote where
  cause : Nat
  fallback : Bool := false
  retention : Bool := false
  snapshot : Option Nat := none
  discarded : Bool := false
  rejects : Nat := 0
  missing : Nat := 0
  svcCount : Nat := 0
  startUs : Nat := 0
  saveLost : Bool := false
  deriving DecidableEq, Repr

/-- Write the record. -/
def Dev.noteStart (n : StartNote) (d : Dev) : Dev :=
  let img := d.boot.image.getD {}
  let d := ((d.wr R.BOOT_START_cause n.cause).wr R.BOOT_START_slot d.boot.slot).wr R.BOOT_START_trial d.boot.onTrial.toNat
  let d := (d.wr R.BOOT_START_fallback n.fallback.toNat).wr R.BOOT_START_retention_valid n.retention.toNat
  let d := (d.wr R.BOOT_START_snapshot_valid n.snapshot.isSome.toNat).wr R.BOOT_START_discarded n.discarded.toNat
  let d := (d.wr R.BOOT_START_snapshot_seq (n.snapshot.getD 0)).wr R.BOOT_START_ret_rejects n.rejects
  let d := (d.wr R.BOOT_START_ret_missing n.missing).wr64 R.BOOT_START_build_id_lo R.BOOT_START_build_id_hi img.buildId
  let d := (d.wr R.BOOT_START_security_version img.securityVersion).wr R.BOOT_START_key_slot img.keySlot
  let d := (d.wr R.BOOT_START_schema_id img.schemaId).wr R.BOOT_START_svc_count n.svcCount
  (d.wr R.BOOT_START_start_us n.startUs).wr R.BOOT_START_ledger_save_lost n.saveLost.toNat

/-- The events that go with a record: offset 1, a snapshot cut short, a trial image. -/
def Dev.startEvents (n : StartNote) (d : Dev) : Dev :=
  let d := if n.rejects != 0 || n.missing != 0 || !n.retention then d.bootEvent 1 else d
  let d := if d.boot.snapCut then ({ d with boot := { d.boot with snapCut := false } }).bootEvent 3 else d
  if d.boot.onTrial then d.bootEvent 4 else d

/-- All power domains of the part come up, in the order of R101; this is no wake. -/
def Dev.domainsOn (d : Dev) : Dev :=
  Dev.each powerUpOrder (fun n d => d.setDomain n (d.domainExists n)) { d with power := { d.power with waking := [] } }

/-! ## The cold start (R53) -/

/-- A site that failed its self-test departs under R21, R22 or R272 (R54). The step that failed is not stated. -/
def Dev.departSite (unit site : Nat) (d : Dev) : Dev :=
  let ps := if unit = 0x41 then setPositions d.die.variant else (List.range 48).filter d.hasCry
  let slot (p : Nat) : Slot := if unit = 0x41 then d.setAt p else d.cryAt p
  match ps.find? (fun p => (slot p).site == site) with
  | none => d
  | some p =>
    if (slot p).phase ≠ .inService then d
    else
      let (v, d) := d.free
      let x := d.recordSeq { unit := unit, inst := p, severity := 2, code := 6, handling := 1, site := site, domain := d.unitDomain unit p
                             detail0 := v % 2 ^ 32 }
      if (unit = 0x41 ∧ 32 ≤ p) ∨ (unit ≠ 0x41 ∧ 46 ≤ p) then
        ((if unit = 0x41 then x.2.putSlot p { site := site, phase := .out } else x.2.putCry p { site := site, phase := .out }).finishRecord x.1 2)
      else
        let y := if unit = 0x41 then x.2.leaveSet p 0 else x.2.leaveCry p
        y.2.finishRecord x.1 (if y.1 then 3 else 4)

/-- Bad sites leave the reserve first, so that none takes a position over. -/
def Dev.departSites (unit : Nat) (bad : List Nat) (d : Dev) : Dev :=
  let first := if unit = 0x41 then 32 else 46
  let siteAt (p : Nat) : Nat := if unit = 0x41 then (d.setAt p).site else (d.cryAt p).site
  let spare := bad.filter (fun b => siteAt first == b || siteAt (first + 1) == b)
  Dev.each (spare ++ bad.filter (fun b => !spare.contains b)) (Dev.departSite unit) d

/-- Step 9: links are enabled, each by the level of its PERST_N (R54). -/
def Dev.enableLinks (low : List Nat) (d : Dev) : Dev :=
  Dev.each ((List.range 16).filter d.formed) (fun n d =>
    if low.contains n then
      ((d.wr R.PCX_LINK_STATUS_perst 1 n).wr R.PCX_LINK_STATUS_state 1 n).onLink n (fun l => { l with enabled := true, reset := .fundamental })
    else (d.wr R.PCX_LINK_STATUS_state 2 n).onLink n (fun l => { l with enabled := true, training := true })) d

/-- Lanes of the formed ports begin acquisition (R344). -/
def Dev.acquireLanes (d : Dev) : Dev := Dev.each d.ports (fun p d => Dev.each (d.lanesOf p) (fun l d => d.wr R.MAC_LANE_STATUS_state 2 l) d) d

/-- Steps 6 to 9 with a verified image. The first measurements are there when software can first read (R10). -/
def Dev.startWith (p : Pick) (f : StartFindings) (fl : Flash) (d : Dev) : Dev :=
  let store := d.validRecord
  let snap := d.validSnapshot fl
  let discarded := d.keep.discard
  let cause := d.boot.cause
  let d := { d with boot := { d.boot with slot := p.slot, onTrial := p.trial, cause := 3, resetCause := cause } }
  let sites := d.chooseRetained store snap
  let d := { d with setPos := sites.setSites.filter (fun p _ => d.hasSet p) }
  let d := d.applySections p.image
  let d := d.emit (.avsSlew (d.rd R.PWR_AVS_CONFIG_avs_slew))
  let c := d.chooseRetained store snap
  let r := d.applyRetained c
  let d := r.2
  let version := (imgFirmware p.image).2.1
  let d := { d with cores := NMap.ofList ((List.range 8).map (fun k => (k, ({ version := version } : CtrlCore)))) }
  let d := Dev.each ((List.range 48).filter (fun c => d.hasCry c && !f.badCrypto.contains (d.cryAt c).site))
    (fun c d => d.wr R.CRY_INST_STATUS_kat_pass 1 c) d
  let d := (d.departSites 0x41 f.badSets).departSites 0x50 f.badCrypto
  let d := ({ d with power := { d.power with unproven := [] } }).closeRecord
  let d := { d with keep := { d.keep with discard := false } }
  let d := d.domainsOn.acquireLanes
  let d := d.sampleTj (if f.sensors.isEmpty then [d.power.heldTj] else f.sensors)
  let d := (d.measurePace f.ringCounts).publishPower f.currentMa f.otherDw
  let n : StartNote := { cause := cause, fallback := p.fallback, retention := store.isSome, snapshot := snap.map Retained.seq
                         discarded := discarded, rejects := r.1, missing := c.missing, startUs := f.startUs }
  let d := (d.noteStart n).buildCard
  let d := ((d.bootEvent 0).startEvents n).when f.flashError (Dev.bootEvent 6)
  let d := if d.power.trippedBefore then
      ((({ d with power := { d.power with trippedBefore := false } }).wr R.PWR_STICKY_thermtrip_prev 1).pwrEvent 13).record
        { unit := 3, severity := 4, code := 0xC }
    else d
  ({ d with phase := .running }.enableLinks f.perstLow).stpTrain.updateHeadroom

/-- What the flash bus carries while the loader looks for an image: SFDP, both directory copies, and the slot that it loads (R53, R56). -/
def State.loadReads (p : Option Pick) (s : State) : List Output :=
  let at_ (addr len : Nat) : Output := .flashRead s.flash.octal addr len
  [.flashSfdp, at_ 0 32, at_ 0x10000 32] ++
    (match s.flash.dir, p with
    | some c, some p => [at_ (c.slotAddr p.slot) p.image.imageBytes]
    | some c, none => [at_ (c.slotAddr c.active) 0x1200]
    | none, _ => [])

/-- The cold start, from the release of reset (R53). A start while Tj is still at 125 °C, or while THERMTRIP_N still is asserted, stops
before step 3 (R107, R489). HBM that does not train at step 5 leaves the device in recovery (R481). -/
def State.start (f : StartFindings) (s : State) : State :=
  let s := s.emit (.flashReset false)
  if 125 ≤ s.dev.power.heldTj ∨ s.dev.power.tripPin = true then { s with dev := s.dev.trip }
  else
    let s := { s with dev := ({ s.dev with power := { s.dev.power with started := true } }).emit (.avsWrite 750) }
    let r := s.flash.pick s.dev.die.variant s.fuses
    let s := { s with dev := Dev.each (s.loadReads r.1) (fun o d => d.emit o) s.dev }.putFlash r.2
    match (if f.hbmBad then none else r.1) with
    | none => { s with dev := s.dev.recover.when f.flashError (Dev.bootEvent 6) }
    | some p =>
      let d := s.dev.startWith p f s.flash
      if s.dev.keep.discard then { s with dev := d }.eraseSnaps else { s with dev := d }

/-! ## Stopping for a service reset or fault stop (R82 steps 1-4, R169) -/

/-- Step 1: the card reads 0, and the Stream Port goes down (R48, R470). -/
def Dev.stopCard (d : Dev) : Dev :=
  let d := { d with card := { d.card with valid := false } }
  if 1 ≤ d.stpState ∧ d.stpState ≤ 4 then d.stpDown 5 else d

/-- Frames in the crypto stage are not accepted (R350). -/
def Dev.dropCryptoStage (d : Dev) : Dev :=
  Dev.each (d.items.filter (fun _ it => it.stage == .crypto)).entries (fun e d => (d.countMac e.2.source 8).dropItem e.1) d

/-- Reads under way are given up, with what they were for: descriptors are to be read again, a ring's fetch_pos staying as it is (R136),
and a resend begins anew. -/
def Dev.dropReads (d : Dev) : Dev :=
  { d with
    links := d.links.mapVals (fun _ l => { l with queue := [], parked := [], reads := l.reads.mapVals (fun _ r => { r with dead := true }) })
    rings := d.rings.mapVals (fun _ g => { g with landed := {} })
    nvmes := d.nvmes.mapVals (fun _ x => { x with sqs := x.sqs.mapVals (fun _ q => { q with
      landed := {}
      fetchPos := q.nextSeq % max 1 q.size }) })
    qps := d.qps.mapVals (fun _ x => { x with reqs := x.reqs.map (fun r => { r with resend := none, want := 0, pieces := {} }) }) }

/-- Sets stop: threads, channels, flags and input queues go; what a site stores stays (notes/assumptions/37.md). -/
def Dev.stopSets (d : Dev) : Dev := { d with sites := d.sites.mapVals (fun _ s => s.emptied) }

/-- Positions as they stand after the reset: a planned sit-out that has not ended is off, a thermal one has ended, a site under test
stays sat out. -/
def Dev.settlePositions (d : Dev) : Dev :=
  let f (s : Slot) : Slot := match s.phase with
    | .grace => if s.thermal then { s with phase := .out } else { s with phase := .inService }
    | .testing => { s with phase := .out }
    | _ => s
  { d with setPos := d.setPos.mapVals (fun _ s => f s), cryPos := d.cryPos.mapVals (fun _ s => f s)
           cores := d.cores.mapVals (fun _ c => { c with testing := false }) }

/-- Step 3: every accepted item is saved without its edits, and the accepted descriptors that no item holds; an item that no Set sees
stays at the retire stage. -/
def Dev.saveItems (d : Dev) : Dev :=
  let d := Dev.each (d.items.filter (fun _ it => it.failed.isNone)).entries (fun e d =>
    (if e.2.direct then d else d.restartItem e.1 e.2).onItem e.1 (fun x => { x with restored := true })) d
  { d with
    rings := d.rings.mapVals (fun _ g => { g with saved := g.accepted.length })
    nvmes := d.nvmes.mapVals (fun _ x => { x with sqs := x.sqs.mapVals (fun _ q => { q with saved := q.accepted.length }) }) }

/-- Does a restored item, or a saved descriptor, remain (R169)? -/
def Dev.savedOpen (d : Dev) : Bool :=
  d.items.vals.any Item.restored || d.rings.vals.any (fun g => g.saved != 0) ||
  d.nvmes.vals.any (fun x => x.sqs.vals.any (fun q => q.saved != 0))

/-- A record that is being closed is closed, and counted (R76). -/
def Dev.commitRecord (d : Dev) : Dev := if d.keep.closing.isSome then d.endRecord.bump R.BOOT_RET_COMMITS_commits else d

/-- Registers that a service reset clears (R495). -/
def Dev.clearForService (d : Dev) : Dev :=
  let d := (d.emptyChannels.dmaServiceReset)
  let clear (u lo hi : Nat) (d : Dev) : Dev :=
    { d with regs := d.regs.filter (fun k _ => !(keyUnit k == u && lo ≤ keyOff k && keyOff k < hi)) }
  let d := ((clear 0x20 8 12 d) |> clear 0x20 0x100 0x180) |> clear 0x50 0x148 0x14C |> clear 0x50 0x200 0x400 |> clear 0x60 0x28 0x2C
  let d := clear 0x31 0x30 0x50 d
  let d := Dev.each (List.range 16) (fun p d => (d.wr R.MTB_CMD_STATUS_busy 0 0 (256 * p)).wr R.MTB_CMD_STATUS_result 0 0 (256 * p)) d
  let d := (d.wr R.MTB_STATUS_compare_active 0).wr R.LGR_STATUS_replay_active 0
  { d with
    ctxSnap := none
    crySnap := none
    replays := []
    mtb := { d.mtb with runs := {}, stages := d.mtb.stages, compare := {} }
    sched := { d.sched with cmd := none }
    jobs := {}
    apply := none
    funcs := d.funcs.mapVals (fun _ f => { f with outbox := [] }) }

/-- Records still in handling are superseded; an escalation's own record keeps its handling (R452). -/
def Dev.supersedeRecords (d : Dev) : Dev :=
  Dev.each (d.heldSlots.filter (fun s => d.recHandling s == 1)) (Dev.setHandling · 6) d

/-- A service reset begins (R81, R82): steps 1 to 4. A trigger in any other phase starts none. -/
def Dev.beginService (cause : Nat) (d : Dev) : Dev :=
  if d.phase ≠ .running then d
  else
    let d := d.stopCard
    let d := ({ d with phase := .serviceReset, boot := { d.boot with resetCause := cause } }).serviceXoff
    let d := (d.dropCryptoStage.dropReads).saveItems
    let d := d.stopSets.settlePositions.commitRecord.beginRecord.commitRecord.supersedeRecords
    let d := if d.boot.snapshot.isSome then
        ({ d with boot := { d.boot with snapshot := none, snapCut := true } }.wr R.BOOT_STATUS_snap_busy 0).wr R.BOOT_SNAP_RESULT_last 3
      else d
    d.clearForService.closeBoost.requestVdd 750 0

/-- Fault stop (R453): steps 1 to 4 without an end; accepted work is lost, and peers held paused are released. -/
def Dev.faultStop (d : Dev) : Dev :=
  if d.phase = .faultStop then d
  else
    let d := d.stopCard.dropCryptoStage.dropReads
    let d := { d.stopSets.loseWork with phase := .faultStop, dma := {}, jobs := {}, apply := none }.emit (.smbAlert true)
    let d := (d.commitRecord.beginRecord.commitRecord).wr R.FLT_STATUS_fault_stop 1
    (d.closeBoost.requestVdd 750 0).serviceXon

/-! ## Steps 5-7 of a service reset (R82, R83, R169, R170) -/

/-- A logged doorbell is applied. -/
def Dev.applyLogged (e : Nat × Nat × Nat × Nat × Nat) (d : Dev) : Dev := d.doorbellWrite e.1 e.2.1 e.2.2.1 e.2.2.2.1 e.2.2.2.2

/-- Without a valid save nothing is replayed: saved items, queues and owed completions are lost (R170). -/
def Dev.loseSave (d : Dev) : Dev :=
  let d := { d with
    items := {}
    rings := d.rings.mapVals (fun _ g => { g with
      accepted := [], saved := 0, frame := [], waiting := [], heldBytes := 0, owed := [], retireSeq := g.nextSeq })
    nvmes := d.nvmes.mapVals (fun _ x => { x with owed := [], sqs := x.sqs.mapVals (fun _ q => { q with accepted := [], saved := 0 }) })
    boot := { d.boot with saveBad := false } }
  (d.wr R.LGR_STATUS_save_valid 0).wr R.LGR_STATUS_service_replay 0 |>.cause lgrCauses 7

/-- What the start of the replay lets go on: owed completions, logged doorbells, fetches, captures, deferred link resets and the
Stream Port. -/
def Dev.resumeService (d : Dev) : Dev :=
  let log := d.boot.log
  let d := ({ d with boot := { d.boot with log := [] } }).serviceXon
  let d := Dev.each d.funcs.keys Dev.sendPosted d
  let d := Dev.each d.rings.keys (fun r d => (d.flushOwed r).refetch r) d
  let d := Dev.each log Dev.applyLogged d
  let d := Dev.each d.rings.keys Dev.fetch d
  let d := Dev.each d.nvmes.keys (fun fn d => Dev.each (d.nvme fn).sqs.keys (Dev.fetchSq fn) d) d
  let d := d.writeHeld
  let late := (List.range 16).filter (fun n => (d.link n).reset != .none && (d.fnsOf n).all (fun f => (d.fn f).reset == .none))
  (Dev.each late Dev.resetFns d).stpTrain

/-- The running image as step 5 finds it: the HBM copy, or the verified slot; none of them leaves the device in recovery. -/
def State.serviceImage (s : State) : Option Image :=
  if !s.dev.boot.copyBad then s.dev.boot.image
  else s.flash.dir.bind (fun c => s.flash.verified s.dev.die.variant s.fuses c s.dev.boot.slot)

/-- Steps 5 to 7 with the image. The duration of the reset is not stated. The reset is a start (R86), so it ends an orderly shutdown
(R78; DEDUCED, notes/assumptions/64.md). -/
def Dev.finishService (img : Image) (fl : Flash) (d : Dev) : Dev :=
  let (us, d) := d.free
  let lost := d.boot.saveBad
  let d := { d with boot := { d.boot with image := some img, copyBad := false, shutdown := false, shutdownDone := false } }
  let d := Dev.each d.loadedPositions (Dev.loadStore img) d
  let version := (imgFirmware img).2.1
  let d := { d with cores := d.cores.mapVals (fun _ c => { c with version := version }) }
  let n : StartNote := { cause := d.boot.resetCause, retention := d.validRecord.isSome, snapshot := (d.validSnapshot fl).map Retained.seq
                         svcCount := d.rd R.BOOT_START_svc_count + 1, startUs := us % 2 ^ 32, saveLost := lost }
  let d := (d.domainsOn.noteStart n).buildCard
  let d := { d with phase := .running }
  let d := (d.bootEvent 5).startEvents n
  let d := if lost then d.loseSave else (d.wr R.LGR_STATUS_save_valid 1).wr R.LGR_STATUS_service_replay 1
  d.resumeService.updateHeadroom

/-- Step 5 onward, where a service reset is in progress. -/
def State.finishService (s : State) : State :=
  if s.dev.phase ≠ .serviceReset then s
  else match s.serviceImage with
    | some img => { s with dev := s.dev.finishService img s.flash }
    | none => { s with dev := s.dev.recover }

/-! ## Orderly shutdown (R78) -/

/-- Has every accepted item retired? -/
def Dev.drained (d : Dev) : Bool :=
  d.items.vals.all (fun it => !it.isAccepted) && d.rings.vals.all (fun g => g.accepted.isEmpty) &&
  d.nvmes.vals.all (fun x => x.sqs.vals.all (fun q => q.accepted.isEmpty))

/-- The drain has ended: a snapshot where snap_at_shutdown asks for one, whose end raises event 368; else the event at once. -/
def State.shutdownDrained (s : State) : State :=
  let b := s.dev.boot
  if !b.shutdown || b.shutdownDone || !s.dev.drained then s
  else
    let s := { s with dev := { s.dev with boot := { b with shutdownDone := true } } }
    if s.dev.on R.BOOT_CONTROL_snap_at_shutdown then s.snapStart else { s with dev := s.dev.bootEvent 2 }

/-! ## Commands -/

/-- A meaning over the whole state, where the device runs. -/
def State.ifRunning (s : State) (f : State → State) : Out := .next (if s.dev.phase = .running then f s else s)

/-- STANDBY_POWER_ON: the standby rail was lost, and is in regulation. -/
def execStandbyPowerOn (s : State) : Out := s.onDev Dev.standbyOn

/-- MAIN_RAIL_FAIL. -/
def execMainRailFail (s : State) : Out := s.onDev Dev.railFail

/-- STANDBY_BROWNOUT: the records before it are invalid, and one that is being closed has to be begun anew (R74). -/
def execStandbyBrownout (s : State) : Out :=
  s.onDev (fun d => { d with keep := { d.keep with brownout := true, closing := none, dirty := d.keep.dirty || d.keep.closing.isSome } })

/-- SYS_RST_N_ASSERT, for at least 10 µs. -/
def execSysRstNAssert (s : State) : Out := s.onDev Dev.sysReset

/-- TESTEN_ASSERT: held as under SYS_RST_N. -/
def execTestenAssert (s : State) : Out := s.onDev (fun d => ({ d with testen := true }).coldReset 3)

/-- COLD_START: SYS_RST_N is released, or TESTEN falls; with a main rail out of tolerance the release waits for it (R481). -/
def execColdStart (findings : StartFindings) (s : State) : Out :=
  .next (if s.dev.phase ≠ .held then s
    else
      let s := { s with dev := { s.dev with resetLow := false, testen := false } }
      if s.dev.railsGood then s.start findings else s)

/-- MAIN_RAILS_RESTORED: the start that the rails held back begins. -/
def execMainRailsRestored (findings : StartFindings) (s : State) : Out :=
  .next (
    let s := { s with dev := { s.dev with railsGood := true } }
    if s.dev.phase = .held ∧ s.dev.resetLow = false ∧ s.dev.testen = false then s.start findings else s)

/-- SERVICE_RESET: the falling edge of SVC_RST_N. -/
def execServiceReset (s : State) : Out := s.onDev (Dev.beginService 4)

/-- SERVICE_RESET_COMMAND. -/
def execServiceResetCommand (s : State) : Out := s.onDev (Dev.beginService 5)

/-- SERVICE_REPLAY_DONE. -/
def execServiceReplayDone (s : State) : Out :=
  s.finishService.onRun (fun d =>
    if d.on R.LGR_STATUS_service_replay && !d.savedOpen then
      (d.wr R.LGR_STATUS_service_replay 0).cause lgrCauses 5
    else d)

/-- SNAPSHOT_NOW. -/
def execSnapshotNow (s : State) : Out := s.ifRunning State.snapStart

/-- SNAPSHOT_INTERVAL_EXPIRY; a snap_interval of 0 stops interval snapshots. -/
def execSnapshotIntervalExpiry (s : State) : Out :=
  s.ifRunning (fun s => if s.dev.on R.BOOT_CONTROL_snap_interval then s.snapStart else s)

/-- SNAPSHOT_WRITE_DONE. -/
def execSnapshotWriteDone (ok : Bool) (s : State) : Out := .next (s.snapDone ok)

/-- ORDERLY_SHUTDOWN. -/
def execOrderlyShutdown (s : State) : Out := s.onRun (fun d => { d with boot := { d.boot with shutdown := true } })

/-- SHUTDOWN_DRAIN_DONE. -/
def execShutdownDrainDone (s : State) : Out := s.ifRunning State.shutdownDrained

/-- CONFIRM_TRIAL. -/
def execConfirmTrial (s : State) : Out := s.ifRunning State.confirmTrial

/-- DISCARD_RETAINED. -/
def execDiscardRetained (s : State) : Out := s.ifRunning State.discard

/-- RETENTION_RECORD_CLOSE: within 2 ms of the first K write, the record that time has begun (notes/assumptions/5.md) or, where none is
begun, one of the fields as they stand. -/
def execRetentionRecordClose (s : State) : Out :=
  s.onLive (fun d => (if d.keep.dirty then d.beginRecord else d).commitRecord)

/-- THERMTRIP. -/
def execThermtrip (s : State) : Out := s.onDev Dev.trip

end Sys2Proof.Machine
end

