-- ==== Sys2Proof/Machine/Faults.lean ====
section
/-!
DEFINITION. Errors, their containment and escalation (R441-R455): ECC errors and scrub passes, handshakes, movers, HBM stacks and
control cores, and the acknowledgement of records.
-/

namespace Sys2Proof.Machine

/-! ## Escalation (R452, R453) -/

/-- An error that escalates: its record reads handling 5, a code 0x0D record is written, and a service reset begins, or fault stop
past esc_limit. In a service reset it joins the reset. -/
def Dev.escalate (seq : Nat) (e : Err) (d : Dev) : Dev :=
  if d.phase = .serviceReset then d.handleSeq seq 6
  else if d.phase ≠ .running then d
  else
    let before := d.escalations.filter (fun t => d.uptime - t < 3600000)
    let d := { d.finishRecord seq 5 with escalations := before ++ [d.uptime] }
    let d := d.bump R.FLT_ESCALATIONS_count
    let d := (d.record { e with severity := 3, code := 0x0D, handling := 5, detail0 := seq, detail1 := 0 }).cause fltCauses 5
    if d.rd R.FLT_CONFIG_esc_limit ≤ before.length then d.faultStop else d.beginService 6

/-- Record an error of severity 3 and escalate. -/
def Dev.deviceError (e : Err) (d : Dev) : Dev :=
  let x := d.recordSeq { e with severity := 3, handling := 1 }
  x.2.escalate x.1 e

/-- Record a contained error; nested, it takes severity 2, or escalates where nest_escalate is set (R450). -/
def Dev.contained (e : Err) (d : Dev) : Dev :=
  match d.nestsUnder { e with severity := 1 } with
  | none => d.record { e with severity := 1, handling := 2 }
  | some _ =>
    if d.on R.FLT_CONFIG_nest_escalate then d.deviceError e
    else
      let x := d.recordSeq { e with severity := 2, handling := 1 }
      x.2.finishRecord x.1 2

/-! ## Control cores (R405, R443, R450-R452) -/

/-- The record of a control core. -/
def Dev.coreErr (d : Dev) (k severity code detail0 detail1 : Nat) : Err :=
  { unit := 0xB0, inst := k, severity := severity, code := code, handling := 1, domain := d.unitDomain 0xB0 k, detail0 := detail0
    detail1 := detail1 }

/-- A core faults: it leaves service at once; fewer than two cores left in service escalate. -/
def Dev.coreFault (k code detail0 detail1 : Nat) (d : Dev) : Dev :=
  if 8 ≤ k ∨ (d.cores.getD k {}).out = true then d
  else
    let last := d.coresIn.length ≤ 2
    let e := d.coreErr k (if last then 3 else 2) code detail0 detail1
    let x := d.recordSeq e
    let d := x.2.leaveCore k
    let d := { d with cores := d.cores.upd k {} (fun c => { c with testing := false }) }
    if last then d.escalate x.1 e else d.finishRecord x.1 3

/-- An error in a core's working memory: the task is restarted from the held request, and the record stays in handling meanwhile;
nested, the core leaves service. -/
def Dev.coreMemory (k detail0 detail1 : Nat) (d : Dev) : Dev :=
  let e := d.coreErr k 1 2 detail0 detail1
  if (d.nestsUnder e).isSome then d.coreFault k 2 detail0 detail1 else d.record e

/-- Tasks restarted from their requests have gone on: their records read handling 2 (R443). -/
def Dev.coresGoOn (d : Dev) : Dev :=
  Dev.each (d.heldSlots.filter (fun s => d.logWord s 2 % 65536 == 0xB0 && d.recHandling s == 1 && d.recCode s == 2))
    (fun s d => d.setHandling s 2) d

/-! ## ECC errors (R235, R259, R442, R443) -/

/-- Units whose own state escalates: Queue Manager, Ledger, retire stage, Promenade spine and HBM controller. -/
def vitalUnit (unit inst : Nat) : Bool :=
  unit == 0x20 || unit == 0x21 || unit == 0x40 || unit == 0xB1 || (unit == 0x30 && inst == 1)

/-- The unit that an error of connection and key contexts is recorded against, by type of context. -/
def ctxUnit (type : Nat) : Nat × Nat := if type = 8 ∨ type = 9 then (0x30, 1) else if 10 ≤ type then (0x51, 0) else (0x50, 0)

/-- Where an ECC error is recorded: unit, instance and site of the unit, and the two details. -/
def Dev.eccErr (d : Dev) (place : EccSite) (code : Nat) : Err :=
  let at_ (unit inst site detail0 detail1 : Nat) : Err :=
    { unit := unit, inst := inst, severity := 1, code := code, site := site, domain := d.unitDomain unit inst, detail0 := detail0
      detail1 := detail1 }
  match place with
  | .setSram p off _ => at_ 0x41 p (d.setAt p).site off 0
  | .controlStore p addr _ => at_ 0x41 p (d.setAt p).site addr 0
  | .packetBuffer _ => at_ 0x30 0 0xFF 0 0
  | .ledger _ _ => at_ 0x21 0 0xFF 0 0
  | .contextCache ring _ => at_ 0x20 0 0xFF ring 0
  | .hotCache t b s => at_ 0x31 0 0xFF (t + 16 * b + 2 ^ 30 * s) 0
  | .prefixEntry i _ => at_ 0x31 0 0xFF i 0
  | .ternaryEntry i _ => at_ 0x31 0 0xFF i 0
  | .keyCache p => at_ 0x50 p (d.cryAt p).site 0 0
  | .linkBuffers l => at_ 0x10 l 0xFF 0 0
  | .streamPort n => at_ 0xA0 0 0xFF n 0
  | .ownState u i => at_ u i 0xFF 0 0
  | .hbm region off stack index _ =>
    let x := region % 256 + 256 * stack
    match region with
    | 0 => at_ 0x20 0 0xFF index x
    | 1 => let u := ctxUnit (d.ctxType index); at_ u.1 u.2 0xFF index x
    | 2 => let u := ctxUnit (d.ctxType index); at_ u.1 u.2 0xFF index x
    | 3 => at_ 0x30 1 0xFF off x
    | 4 => if index < 8 then at_ 0xB0 index 0xFF off x else if index = 8 then at_ 0x21 0 0xFF off x else at_ 2 0 0xFF off x
    | 5 => at_ 0x31 0 0xFF index x
    | 6 => at_ 0x51 0 0xFF index x
    | _ => at_ 0xB1 stack 0xFF off x

/-- A correctable error: corrected where it stands, recorded with severity 0, and counted where its unit counts. -/
def Dev.eccCorrected (place : EccSite) (d : Dev) : Dev :=
  let d := d.record { d.eccErr place 1 with severity := 0 }
  match place with
  | .setSram p _ _ => (d.bump R.SET_SRAM_CORRECTED_count p).cause setCauses 3 p
  | .controlStore p _ _ => (d.bump R.SET_CS_CORRECTED_count p).cause setCauses 2 p
  | .keyCache p => (d.bump R.CRY_INST_CORRECTED_count p).cause cryInstCauses 0 p
  | .linkBuffers l => d.reportAer l (d.function0 l) .correctedInternal
  | _ => d

/-- A context in HBM is lost: what its type makes of it. -/
def Dev.loseContext (c : Nat) (d : Dev) : Dev :=
  let t := d.ctxType c
  let failed := { d with ctxFailed := if d.ctxFailed.contains c then d.ctxFailed else d.ctxFailed ++ [c] }
  if t = 8 then (d.qpError c 1 (d.unaPsn c) 8).loseQpCmds c
  else if t = 9 then failed
  else if t = 10 then (d.loseConn c 1).cause stoCauses 7
  else if t = 11 then (if d.nsRoce c then failed else d.loseConn (d.ctxField c 0) 1).cause stoCauses 7
  else if t = 3 then (failed.putCtxBit c 6 true).cryRecord 3 c 0
  else if t = 0 then d
  else failed.cause cryCauses 1

/-- The command of the port that detected an error ends with result 7 (R223, R235). -/
def Dev.portError (port : Option Nat) (d : Dev) : Dev :=
  match port with
  | none => d
  | some p =>
    match d.mtb.runs.get? p with
    | some r => d.onMtb (fun m => { m with runs := m.runs.set p { table := r.table, irq := r.irq, result := 7 } })
    | none => d

/-- An exact-match entry in HBM is erased. -/
def Dev.loseEntry (index : Nat) (d : Dev) : Dev :=
  let t := index % 16
  let i := bits index 4 26
  let slot := index / 2 ^ 30
  let d := if d.tabKind t = 1 then d.setCuckoo t ((d.cuckoo t).erase (4 * i + slot))
    else d.onMtb (fun m => { m with direct := m.direct.erase (2 ^ 26 * t + i) })
  d.cause mtbCauses 7

/-- A frame whose item has retired is stomped as it is sent. -/
def Dev.stompFrames (i : Nat) (d : Dev) : Dev :=
  { d with macs := d.macs.mapVals (fun _ m =>
    let mark (f : TxFrame) : TxFrame := if f.item = i then { f with stomp := true } else f
    { m with fifo := m.fifo.map mark, launch := m.launch.map mark }) }

/-- Drop the n-th element of a list. -/
def dropNth {α : Type} (l : List α) (n : Nat) : List α := l.take n ++ l.drop (n + 1)

/-- An uncorrectable error (R442, R443). -/
def Dev.eccUncorrectable (place : EccSite) (d : Dev) : Dev :=
  let e := d.eccErr place 2
  match place with
  | .setSram p off t => d.setFault p 9 off t
  | .controlStore p addr t => d.setFault p 1 addr t
  | .packetBuffer i =>
    if (d.item? i).isSome then (d.failItem i 1).contained e else d.stompFrames i
  | .ledger i both =>
    if both then (d.failItem i 2).contained e else d.record { e with severity := 0, code := 1 }
  | .contextCache r dirty =>
    let d := { d with ctxCache := d.ctxCache.filter (· != r) }
    if dirty then (d.ringError r 4).contained e |>.cause qmgCauses 4
    else d.record { e with severity := 0 }
  | .hotCache t b _ =>
    (d.onMtb (fun m => { m with cache := m.cache.filter (fun l => l.1 != lineKey t b) })).record
      { e with severity := 0 }
  | .prefixEntry i port => (((d.onMtb (fun m => { m with prefixes := dropNth m.prefixes i })).portError port).contained e).cause mtbCauses 7
  | .ternaryEntry i port => (((d.onMtb (fun m => { m with ternary := m.ternary.erase i })).portError port).contained e).cause mtbCauses 7
  | .keyCache p => d.cryFault p 2
  | .linkBuffers l => (((d.contained e).reportAer l (d.function0 l) .uncorrectableInternal).linkReset l 2 .hot 5).endLinkReset l
  | .streamPort n =>
    let d := d.contained e
    Dev.each (d.stp.xfers.filter (fun x => x.running && x.stream == some n)) (fun x d => d.endXfer x 7) d
  | .ownState u i =>
    if vitalUnit u i then d.deviceError e
    else if u = 0x61 then
      let x := (d.chanDma i).descs.head?.getD ({ addr := d.rd64 R.DMA_CUR_LO_cur R.DMA_CUR_HI_cur i } : DmaDesc)
      let busy := d.dmaState i = 1 ∨ d.dmaState i = 2 ∨ d.dmaState i = 3
      (if busy then d.dmaStop i 6 x else d).contained e
    else d.contained e
  | .hbm region off stack index port =>
    match region with
    | 0 => ((d.ringError index 4).contained e).cause qmgCauses 4
    | 1 => (d.loseContext index).contained e
    | 2 => (d.loseContext index).contained e
    | 3 => ({ d with counters := d.counters.erase index }).contained e
    | 4 =>
      if index < 8 then d.coreMemory index off (4 + 256 * stack)
      else if index = 8 then ({ d with boot := { d.boot with saveBad := true } }).contained e
      else ({ d with boot := { d.boot with copyBad := true } }).contained e
    | 5 => ((d.loseEntry index).portError port).contained e
    | 6 => (d.loseConn index 1).contained e
    | _ => d.deviceError e

/-- An ECC error that a reader or scrubber finds. -/
def Dev.eccError (place : EccSite) (correctable : Bool) (d : Dev) : Dev :=
  if correctable then d.eccCorrected place else d.eccUncorrectable place

/-- Does a scrub pass of this memory reach that place? -/
def memCovers : Memory → EccSite → Bool
  | .controlStore p, .controlStore q _ _ => p == q
  | .setSram p, .setSram q _ _ => p == q
  | .ledger, .ledger _ _ => true
  | .prefixTernary, .prefixEntry _ _ => true
  | .prefixTernary, .ternaryEntry _ _ => true
  | .keyCache, .keyCache _ => true
  | .hbm, .hbm _ _ _ _ _ => true
  | _, _ => false

/-- A scrub pass with what it finds; the HBM patrol counts its passes. -/
def Dev.scrub (mem : Memory) (found : List EccFinding) (d : Dev) : Dev :=
  let d := Dev.each (found.filter (fun f => memCovers mem f.place)) (fun f d => d.eccError f.place f.correctable) d
  if mem = .hbm then (d.bump R.FLT_SCRUB_passes).cause fltCauses 9 else d

/-! ## Handshakes, HBM stacks and movers (R337, R446, R452, R453) -/

/-- A handshake unanswered for 1 ms: the recorded unit leaves service, or a vital unit's silence escalates. -/
def Dev.handshake (unit inst silent : Nat) (d : Dev) : Dev :=
  let e : Err := { unit := unit, inst := inst, severity := 2, code := 7, handling := 1, domain := d.unitDomain unit inst, detail0 := silent }
  if vitalUnit silent 1 then d.deviceError e
  else if unit = 0x41 ∧ inst < 32 ∧ d.setInService inst = true then
    let x := d.recordSeq { e with site := (d.setAt inst).site }
    let y := x.2.leaveSet inst 0
    y.2.finishRecord x.1 (if y.1 then 3 else 4)
  else if unit = 0x50 ∧ inst < 46 ∧ d.cryInService.contains inst = true then
    let x := d.recordSeq { e with site := (d.cryAt inst).site }
    let y := x.2.leaveCry inst
    y.2.finishRecord x.1 (if y.1 then 3 else 4)
  else if unit = 0xB0 then d.coreFault inst 7 silent 0
  else
    let x := d.recordSeq e
    x.2.finishRecord x.1 2

/-- The loss of an HBM stack: a code 0x0E record and fault stop. -/
def Dev.stackLost (stack : Nat) (d : Dev) : Dev :=
  (d.record { unit := 0xB1, inst := stack, severity := 3, code := 0x0E, handling := 5, domain := d.unitDomain 0xB1 stack
              detail0 := stack }).faultStop

/-- The bursts of a channel that a faulted mover carried are issued again whole; which channels those are is not stated. -/
def Dev.moverRetry (c : Nat) (d : Dev) : Dev :=
  let h := d.chanDma c
  if h.flight.isEmpty then d
  else
    let (w, d) := d.free
    if w % 2 = 0 then d
    else
      let fresh := { d with links := d.links.mapVals (fun _ l => { l with reads := l.reads.mapVals (fun _ r =>
        if h.flight.any (fun b => r.why == ReadFor.dmaBurst c b.id) then { r with dead := true } else r) }) }
      let fresh := fresh.onDma c (fun x => { x with flight := x.flight.map (fun b => ({ b with data := none } : Burst)) })
      (Dev.each h.flight (fun b d => d.dmaReissue c ({ b with data := none } : Burst)) fresh).cause dmaCauses 5 c

/-- A mover faults: a spare takes its place, or the pool runs on with fewer. -/
def Dev.moverFault (m : Nat) (d : Dev) : Dev :=
  if d.movers = 0 ∨ 18 ≤ m then d
  else
    let spare := 16 < d.movers
    let e : Err := { unit := 0x61, inst := m, severity := 2, code := 3, handling := 1, domain := d.unitDomain 0x61 m }
    let x := d.recordSeq e
    let d := { x.2 with movers := x.2.movers - 1 }
    let d := d.finishRecord x.1 (if spare then 3 else 4)
    Dev.each (List.range 64) Dev.moverRetry d

/-! ## Acknowledgement (R448) -/

/-- A seq written to FLT_ACK. -/
def Dev.faultAck (seq : Nat) (d : Dev) : Dev :=
  match d.slotOfSeq seq with
  | some s => (d.setLogWord s 7 0).refreshLog
  | none => d.cause fltCauses 8

/-! ## Commands -/

/-- MEMORY_SCRUB. -/
def execMemoryScrub (mem : Memory) (found : List EccFinding) (s : State) : Out := s.onLinks (Dev.scrub mem found)

/-- ECC_ERROR. -/
def execEccError (place : EccSite) (correctable : Bool) (s : State) : Out := s.onLinks (Dev.eccError place correctable)

/-- HANDSHAKE_TIMEOUT, by recorded unit and unit type of the silent one. -/
def execHandshakeTimeout (unit inst silent : Nat) (s : State) : Out := s.onLinks (Dev.handshake unit inst silent)

/-- HBM_STACK_LOST. -/
def execHbmStackLost (stack : Nat) (s : State) : Out := s.onLinks (Dev.stackLost stack)

/-- MOVER_FAULT. -/
def execMoverFault (mover : Nat) (s : State) : Out := s.onLinks (Dev.moverFault mover)

/-- CONTROL_CORE_FAULT, with the code that its record shows. -/
def execControlCoreFault (core code : Nat) (s : State) : Out := s.onLinks (Dev.coreFault core code 0 0)

/-- FAULT_ACK, by a master that reaches the FLT window. -/
def execFaultAck (seq : Nat) (s : State) : Out := s.onRun (Dev.faultAck seq)

end Sys2Proof.Machine
end

