-- ==== Sys2Proof/Machine/Sched.lean ====
section
/-!
DEFINITION. Bars of the transmit scheduler (R312-R319) and its node commands (R320, R321).
-/

namespace Sys2Proof.Machine

/-! ## Bars -/

/-- A leaf that is active at a bar's start: its chain of nodes, and whether it is a timed-launch ring. -/
structure Leaf where
  chain : List Nat
  timed : Bool
  deriving DecidableEq, Repr

/-- The active rings and submission queues (R310, R311, R322). -/
def Dev.activeLeaves (d : Dev) : List Leaf :=
  let rings := (d.rings.entries.filter (fun e =>
    e.2.scheduled && (e.2.state == .enabled || e.2.state == .stalled) && (e.2.eligible != 0 || e.2.inFlight != 0))).map
      (fun e => ({ chain := d.ringChain e.1 e.2, timed := e.2.launchBound } : Leaf))
  let sqs := d.nvmes.entries.flatMap (fun x => (x.2.sqs.entries.filter (fun e => e.2.eligible != 0 || e.2.inFlight != 0)).map
    (fun e => ({ chain := d.sqChain x.1 e.1, timed := false } : Leaf)))
  rings ++ sqs

/-- The ceiling in Mb/s that the current rates of QPs put on a send ring (R319). -/
def Dev.qpCeiling (d : Dev) (r : Nat) : Option Nat :=
  ((d.qps.entries.filter (fun e => e.2.sendRing == some r && decide (e.2.rate < 65536))).map
    (fun e => e.2.rate * (1000 * d.macRate (d.qpMac e.1)) / 65536)).min?

/-- The parameters that the bar takes: the node table's, the links' and the root's (R313, R317). -/
def Dev.nodesInForce (d : Dev) : NMap Node :=
  let links := (List.range 16).map (fun n => (nodeKey 6 n,
    ({ weight := d.rd R.SCH_LINK_W_weight 0 (16 * n), floor := d.rd R.SCH_LINK_FLOOR_floor_mbps 0 (16 * n)
       ceiling := d.rd R.SCH_LINK_CEIL_ceiling_mbps 0 (16 * n) } : Node)))
  let root : Node := { ceiling := d.rd R.SCH_DEVICE_dev_ceiling }
  (links ++ [(nodeKey 7 0, root)]).foldl (fun m e => m.set e.1 e.2) d.sched.nodes

/-- The credit of the bar reaches a leaf's balance, up to its burst limit; a paused leaf's balance is held (R314, R317, R318). -/
def Dev.creditLeaf (s : Spread) (x : Leaf) (d : Dev) : Dev :=
  let leaf := x.chain.headD 0
  let burst := d.burstOf leaf
  let put (v : Int) : Dev := { d with sched := { d.sched with balances := d.sched.balances.set leaf (min v burst) } }
  if !d.chainOpen x.chain then d
  else if x.timed then put burst
  else match s.credit.get? (nodeKey 1 leaf) with
    | some (some c) => put (d.balance leaf + c)
    | some none => put burst
    | none => d

/-- A bar begins: the count of the one before, the parameters in force, cap, port budgets, pause state, and the distribution; then reads
are issued. -/
def Dev.barStart (d : Dev) : Dev :=
  let ticks := d.rd R.SCH_CONFIG_bar_ticks
  let d := d.wr64 R.SCH_BARS_LO_bars R.SCH_BARS_HI_bars ((d.rd64 R.SCH_BARS_LO_bars R.SCH_BARS_HI_bars + 1) % 2 ^ 64)
  let d := d.when d.sched.capped (fun d => d.bump R.SCH_PKT_CAPPED_count)
  let d := d.wr R.SCH_STATUS_cap (d.rd R.PWR_HEADROOM_headroom * ticks * 4 / 1000)
  let macs := (List.range 256).filter (fun m => d.macRate m != 0)
  let d := { d with sched := { d.sched with
    force := d.nodesInForce
    taken := 0
    capped := false
    budgets := NMap.ofList (macs.map (fun m =>
      (m, min (d.sched.budgets.getD m 0) (256 * 65536) + ((d.macRate m * ticks * 128 : Nat) : Int))))
    paused := NMap.ofList (macs.filterMap (fun m =>
      let v := d.rd R.SCH_PORT_paused 0 (4 * m)
      if v = 0 then none else some (m, v))) } }
  let leaves := d.activeLeaves
  let s := d.spread (leaves.map Leaf.chain) ((leaves.filter Leaf.timed).map (fun x => x.chain.headD 0)) ticks d.qpCeiling
  let d := { d with sched := { d.sched with debts := s.debts } }
  let d := d.when s.scaled (fun d => d.bump R.SCH_FLOOR_SCALED_count)
  let d := Dev.each leaves (Dev.creditLeaf s) d
  let d := Dev.each d.rings.keys Dev.fetch d
  Dev.each d.nvmes.keys (fun fn d => Dev.each (d.nvme fn).sqs.keys (Dev.fetchSq fn) d) d

/-! ## Node commands (R320) -/

/-- A command of the node interface takes the select and data registers as they stand; while one runs it is ignored. -/
def Dev.nodeCommand (mid : Nat) (write : Bool) (d : Dev) : Dev :=
  if d.on R.SCH_NODE_STATUS_busy then d
  else
    let node : Node := {
      weight := d.rd R.SCH_NODE_DATA0_weight
      burst := max 1 (d.rd R.SCH_NODE_DATA0_burst_kib)
      floor := d.rd R.SCH_NODE_DATA1_floor_mbps
      ceiling := d.rd R.SCH_NODE_DATA2_ceiling_mbps
      mac := d.rd R.SCH_NODE_DATA3_mac_instance
      macValid := d.on R.SCH_NODE_DATA3_mac_valid
      tc := d.rd R.SCH_NODE_DATA3_tc }
    let cmd : NodeCmd := { write := write, mid := mid, level := d.rd R.SCH_NODE_SELECT_level, index := d.rd R.SCH_NODE_SELECT_index
                           node := node }
    { d with sched := { d.sched with cmd := some cmd } }.wr R.SCH_NODE_STATUS_busy 1

/-- The PF that a node of levels 1 to 5 lies under, where the object exists; a function node exists with its PF's range. -/
def Dev.nodePf (d : Dev) (level index : Nat) : Option Nat :=
  match level with
  | 1 => (d.ring? index).map (fun g => d.pfOf g.fn)
  | 2 => (d.groups.get? index).map (fun g => d.pfOf g.fn)
  | 3 => if (d.pf? (d.pfOf index)).isSome then some (d.pfOf index) else none
  | 4 => if index < 16 then (if (d.pf? index).isSome then some index else none) else d.tenants.get? index
  | 5 => if (d.pf? index).isSome then some index else none
  | _ => none

/-- The result of a node command's checks. -/
def Dev.nodeResult (d : Dev) (c : NodeCmd) : Nat :=
  match d.nodePf c.level c.index with
  | none => 1
  | some pf =>
    if !(isCoreMid c.mid || c.mid == midDebug || c.mid == midFn pf) then 1
    else if c.level = 3 ∧ d.hasFn c.index = false then 2
    else if c.write && c.node.macValid && d.die.variant.macs ≤ c.node.mac then 3
    else 0

/-- A node command completes. -/
def Dev.nodeDone (d : Dev) : Dev :=
  match d.sched.cmd with
  | none => d
  | some c =>
    let r := d.nodeResult c
    let d := { d with sched := { d.sched with cmd := none } }
    let d := (d.wr R.SCH_NODE_STATUS_busy 0).wr R.SCH_NODE_STATUS_result r
    let key := nodeKey c.level c.index
    if r ≠ 0 then d
    else if c.write then { d with sched := { d.sched with nodes := d.sched.nodes.set key c.node } }
    else
      let n := d.sched.nodes.getD key {}
      let d := (d.wr R.SCH_NODE_DATA0_weight n.weight).wr R.SCH_NODE_DATA0_burst_kib n.burst
      let d := (d.wr R.SCH_NODE_DATA1_floor_mbps n.floor).wr R.SCH_NODE_DATA2_ceiling_mbps n.ceiling
      ((d.wr R.SCH_NODE_DATA3_mac_instance n.mac).wr R.SCH_NODE_DATA3_mac_valid n.macValid.toNat).wr R.SCH_NODE_DATA3_tc n.tc

/-- The select register is written, and then the command. -/
def Dev.selectNode (mid level index : Nat) (write : Bool) (d : Dev) : Dev :=
  ((d.wr R.SCH_NODE_SELECT_index index).wr R.SCH_NODE_SELECT_level level).nodeCommand mid write

/-! ## Commands -/

/-- BAR_START. -/
def execBarStart (s : State) : Out := s.onRun Dev.barStart

/-- SCH_NODE_READ, by master, level and index. -/
def execSchNodeRead (mid level index : Nat) (s : State) : Out := s.onRun (Dev.selectNode mid level index false)

/-- SCH_NODE_WRITE: the data registers hold the parameters. -/
def execSchNodeWrite (mid level index : Nat) (s : State) : Out := s.onRun (Dev.selectNode mid level index true)

/-- SCH_NODE_CMD_DONE. -/
def execSchNodeCmdDone (s : State) : Out := s.onRun Dev.nodeDone

end Sys2Proof.Machine
end

