-- ==== Sys2Proof/Machine/Setup.lean ====
section
/-!
DEFINITION. Set-up through partner channels (R417-R430): Ring Groups and rings, Tenants and VFs, function resets, contexts, and the
S4400 personality. What a request waits for is looked at again at every idle step (notes/assumptions/5.md).
-/

namespace Sys2Proof.Machine

/-! ## Shared checks -/

/-- Take up a job: a request that is answered later. -/
def Dev.addJob (j : Job) (d : Dev) : Dev := { d with jobs := d.jobs.set d.nextJob j, nextJob := d.nextJob + 1 }

/-- Is a reset of the function in progress? -/
def Dev.inReset (d : Dev) (fn : Nat) : Bool := (d.fn fn).reset != .none

/-- May `fn` act on an object of `owner`: its own, or, where `pf` says so, one of its VFs (R419)? -/
def Dev.owns (d : Dev) (fn owner : Nat) (pf : Bool) : Bool := fn == owner || (pf && fn < 16 && 16 ≤ owner && d.pfOf owner == fn)

/-- Word `n` of a request. -/
def reqWord (w : List Nat) (n : Nat) : Nat := w.getD n 0

/-! ## Ring Groups (R419, R423) -/

/-- Doorbell pages that the function's BAR has room for (R117, R118); an S4400 VF has its one. -/
def Dev.pageRoom (d : Dev) (fn : Nat) : Nat :=
  match d.pf? (d.pfOf fn) with
  | some p => if fn < 16 then 2 ^ p.bar2Log2 / 4096 else if d.isS44 fn then 1 else (2 ^ p.vfBar0Log2 - 65536) / 4096
  | none => 0

/-- A Ring Group is created where quota, BAR and device have room. -/
def Dev.groupCreate (fn tag : Nat) (d : Dev) : Dev :=
  let n := (d.groupsOf fn).length
  if d.inReset fn then d.answerRequest fn 0x01 tag 4 []
  else if d.pageRoom fn ≤ n ∨ 2 ^ 18 ≤ d.groups.size ∨ (16 ≤ fn ∧ (d.fn fn).props.groupQuota ≤ n) then d.answerRequest fn 0x01 tag 2 []
  else
    let (g, d) := d.newGroup fn
    d.answerRequest fn 0x01 tag 0 [g, ((d.groups.get? g).map Group.page).getD 0]

/-- A Ring Group is destroyed while it holds no ring; a VF gives up its last one first (R423). -/
def Dev.groupDestroy (fn tag g : Nat) (d : Dev) : Dev :=
  let answer (status : Nat) (d : Dev) : Dev := d.answerRequest fn 0x02 tag status []
  match d.groups.get? g with
  | none => answer 3 d
  | some x =>
    if !d.owns fn x.fn true then answer 1 d
    else if d.inReset x.fn ∨ x.slots.size ≠ 0 ∨ (16 ≤ x.fn ∧ x.page + 1 ≠ (d.groupsOf x.fn).length) then answer 4 d
    else
      let d := { d with
        groups := d.groups.erase g }.dropNodes [nodeKey 2 g]
      answer 0 (d.vfCardChanged x.fn)

/-! ## Rings (R419, R420) -/

/-- The ring that the words 1 to 12 of a create request describe. -/
def ringOf (fn : Nat) (w : List Nat) : Ring :=
  let c := reqWord w 5
  { descBase := reqWord w 1 + 2 ^ 32 * reqWord w 2
    cplBase := reqWord w 3 + 2 ^ 32 * reqWord w 4
    log2 := bits c 0 5
    kind := bits c 5 2
    formatA := hasBit c 7
    roData := hasBit c 10
    nsData := hasBit c 11
    tph := hasBit c 12
    pasidEn := hasBit c 13
    ats := hasBit c 14
    lateDrop := hasBit c 15
    vector := bits c 16 11
    fn := fn
    group := bits (reqWord w 7) 0 18
    slot := bits (reqWord w 7) 18 8
    pasid := bits (reqWord w 8) 0 20
    tphTag := bits (reqWord w 9) 0 16
    rxHoldKib := bits (reqWord w 9) 16 16
    irqCount := bits (reqWord w 10) 0 8
    irqTime := bits (reqWord w 10) 8 8
    armed := hasBit (reqWord w 10) 16
    launchSlot := bits (reqWord w 11) 0 7
    launchBound := hasBit (reqWord w 11) 7
    tsRing := bits (reqWord w 12) 0 22
    tsEnable := hasBit (reqWord w 12) 22 }

/-- Are the device-owned fields and the reserved bits of a create request all zero? -/
def ringFieldsClear (w : List Nat) : Bool :=
  bits (reqWord w 5) 8 2 == 0 && bits (reqWord w 5) 27 5 == 0 && reqWord w 6 == 0 && bits (reqWord w 7) 26 6 == 0 &&
  bits (reqWord w 8) 20 12 == 0 && bits (reqWord w 10) 17 15 == 0 && bits (reqWord w 11) 8 24 == 0 && bits (reqWord w 12) 23 9 == 0

/-- Is launch slot `n` granted to the function (R420, R422)? A PF has every slot (notes/assumptions/39.md). -/
def Dev.slotGranted (d : Dev) (fn n : Nat) : Bool :=
  fn < 16 || ((d.fn fn).props.slotFirst ≤ n && n < (d.fn fn).props.slotFirst + (d.fn fn).props.slotCount)

/-- Are the ring's values those that ring create takes (R420)? -/
def Dev.ringArgsOk (d : Dev) (fn : Nat) (w : List Nat) (g : Ring) (x : Group) : Bool :=
  ringFieldsClear w && g.descBase % 4096 == 0 && g.cplBase % 4096 == 0 && 6 ≤ g.log2 && g.log2 ≤ 16 &&
  (g.kind != 3 || g.descBase == 0) && !g.formatA && !x.slots.has g.slot && g.vector < d.msixSize fn &&
  (!g.tsEnable || ((d.ring? g.tsRing).map (fun n => n.kind == 3 && n.fn == fn)).getD false) &&
  (!g.launchBound || d.slotGranted fn g.launchSlot)

/-- Has the function room for `n` more rings? -/
def Dev.ringRoom (d : Dev) (fn n : Nat) : Bool :=
  d.rings.size + n ≤ 2 ^ 22 && (fn < 16 || (d.ringsOf fn).length + n ≤ (d.fn fn).props.ringQuota)

/-- Put a new ring in place: its index, and the device with it. -/
def Dev.newRing (g : Ring) (d : Dev) : Nat × Dev :=
  let (r, d) := d.pickIndex d.rings (2 ^ 22)
  let d := { d with
    rings := d.rings.set r { g with gen := (d.fn g.fn).gen }
    groups := d.groups.modify g.group (fun x => { x with slots := x.slots.set g.slot r }) }
  (r, (d.dropNodes [nodeKey 1 r]).freshBalance r)

/-- Ring create. -/
def Dev.ringCreate (fn tag : Nat) (w : List Nat) (d : Dev) : Dev :=
  let answer (status : Nat) (d : Dev) : Dev := d.answerRequest fn 0x03 tag status []
  let g := ringOf fn w
  match d.groups.get? g.group with
  | none => answer 3 d
  | some x =>
    if x.fn ≠ fn then answer 1 d
    else if d.inReset fn then answer 4 d
    else if !d.ringArgsOk fn w g x then answer 3 d
    else if !d.ringRoom fn 1 then answer 2 d
    else
      let (r, d) := d.newRing g
      d.answerRequest fn 0x03 tag 0 [r]

/-- Act on a ring that the requester may act on. -/
def Dev.onOwnRing (fn kind tag r : Nat) (pf : Bool) (act : Ring → Dev → Dev) (d : Dev) : Dev :=
  match d.ring? r with
  | none => d.answerRequest fn kind tag 3 []
  | some g =>
    if !d.owns fn g.fn pf then d.answerRequest fn kind tag 1 []
    else if d.inReset g.fn then d.answerRequest fn kind tag 4 []
    else act g d

/-- Ring enable. -/
def Dev.ringEnable (fn tag r : Nat) (d : Dev) : Dev :=
  d.onOwnRing fn 0x04 tag r false (fun g d =>
    if g.state ≠ .disabled then d.answerRequest fn 0x04 tag 4 []
    else
      let d := d.onRing r (fun g => { g with
        state := if d.canIssue g.fn then .enabled else .stalled
        landed := {}
        fetchPos := g.nextSeq % g.size })
      (d.fetch r).answerRequest fn 0x04 tag 0 [])

/-- Does a port name the ring as its exception ring (R185)? -/
def Dev.isException (d : Dev) (r : Nat) : Bool :=
  (List.range 256).any (fun m => d.on R.PPL_PORT_EXC_exception_valid 0 (16 * m) && d.rd R.PPL_PORT_EXC_exception_ring 0 (16 * m) == r)

/-- Nothing accepted on the ring, or on its way to it, is left but an open frame and unused buffers. -/
def Dev.ringQuiet (d : Dev) (r : Nat) (g : Ring) : Bool :=
  g.accepted.isEmpty && g.waiting.isEmpty && (g.state != .enabled || g.inFlight == 0) &&
  d.items.vals.all (fun it => !(it.isAccepted && ((it.fromRing && it.nvme.isNone && it.source == r) || d.itemRing it == some r))) &&
  d.qps.vals.all (fun q => q.reqs.all (fun x => x.ring != r) && q.buffer.all (fun b => b.1 != r))

/-- The descriptors of an open frame complete with status 0x01, eop on the last as on any malformed frame, and unused buffers with status
0x09 (R142, R143, R420). -/
def Dev.returnDescriptors (r : Nat) (d : Dev) : Dev :=
  match d.ring? r with
  | none => d
  | some g =>
    let d := Dev.each g.frame.zipIdx (fun x d => d.owe r x.1.seq { status := 1, eop := x.2 + 1 == g.frame.length }) d
    let back (x : Desc) : Dev → Dev :=
      if g.kind = 2 then fun d => d.onRing r (fun g => { g with owed := g.owed ++ [{ seq := x.seq, bytes := g.wcBytes x.seq 9 { opcode := 5 } }] })
      else Dev.owe r x.seq { status := if x.rxOk then 9 else 1, eop := true }
    let d := Dev.each g.buffers back d
    (d.onRing r (fun g => { g with frame := [], buffers := [] })).flushOwed r

/-- A ring that is being disabled goes as far as it can; it is disabled once the last completion is written. -/
def Dev.goOnDisable (r : Nat) (d : Dev) : Dev :=
  match d.ring? r with
  | none => d
  | some g =>
    if !g.stopping || !d.ringQuiet r g then d
    else
      let d := d.returnDescriptors r
      d.onRing r (fun g => if g.owed.isEmpty then { g with state := .disabled, stopping := false } else g)

/-- Ring disable: fetching stops; the response follows the last completion. -/
def Dev.ringDisable (fn tag r : Nat) (d : Dev) : Dev :=
  d.onOwnRing fn 0x05 tag r true (fun g d =>
    if d.isException r then d.answerRequest fn 0x05 tag 4 []
    else if g.state = .disabled then d.answerRequest fn 0x05 tag 0 []
    else
      (d.onRing r (fun g => { g with stopping := true })).addJob
        { fn := fn, kind := 0x05, tag := tag, words := [], awaits := .ringDisable r })

/-- Ring restart: a ring in error resumes at its last committed position (R149). -/
def Dev.ringRestart (fn tag r : Nat) (d : Dev) : Dev :=
  d.onOwnRing fn 0x06 tag r false (fun g d =>
    if g.state ≠ .error ∨ g.stopping = true then d.answerRequest fn 0x06 tag 4 []
    else
      let d := if d.canIssue g.fn then d.resumeRing r else d.onRing r (fun g => { g with
        state := .stalled
        landed := {}
        fetchPos := g.nextSeq % g.size })
      d.answerRequest fn 0x06 tag 0 [])

/-- A ring leaves the device, with its slot and its node. -/
def Dev.eraseRing (r : Nat) (g : Ring) (d : Dev) : Dev :=
  let d := { d with
    rings := d.rings.erase r
    ctxCache := d.ctxCache.filter (· != r)
    groups := d.groups.modify g.group (fun x => { x with slots := x.slots.erase g.slot }) }
  (d.dropNodes [nodeKey 1 r]).freshBalance r

/-- Ring destroy, only while disabled. -/
def Dev.ringDestroy (fn tag r : Nat) (d : Dev) : Dev :=
  d.onOwnRing fn 0x07 tag r true (fun g d =>
    if g.state ≠ .disabled then d.answerRequest fn 0x07 tag 4 [] else (d.eraseRing r g).answerRequest fn 0x07 tag 0 [])

/-- Ring tune: context bytes 0x20 to 0x27; reserved bits must be zero. -/
def Dev.ringTune (fn tag r : Nat) (w : List Nat) (d : Dev) : Dev :=
  d.onOwnRing fn 0x08 tag r false (fun _ d =>
    if bits (reqWord w 3) 17 15 ≠ 0 then d.answerRequest fn 0x08 tag 3 []
    else
      let d := d.onRing r (fun g => { g with
        tphTag := bits (reqWord w 2) 0 16
        rxHoldKib := bits (reqWord w 2) 16 16
        irqCount := bits (reqWord w 3) 0 8
        irqTime := bits (reqWord w 3) 8 8
        armed := hasBit (reqWord w 3) 16 })
      (d.checkIrq r).answerRequest fn 0x08 tag 0 [])

/-! ## Tenants and VFs (R421, R422) -/

/-- Tenant create: the lowest free index from 16 on. -/
def Dev.tenantCreate (fn tag : Nat) (d : Dev) : Dev :=
  let t := d.tenants.lowestFree 16 (d.tenants.size + 1)
  if 16 ≤ fn then d.answerRequest fn 0x10 tag 1 []
  else if d.inReset fn then d.answerRequest fn 0x10 tag 4 []
  else if 16 + d.die.variant.vfs ≤ t then d.answerRequest fn 0x10 tag 2 []
  else
    let d := { d with
      tenants := d.tenants.set t fn }.dropNodes [nodeKey 4 t]
    d.answerRequest fn 0x10 tag 0 [t]

/-- The PF that a Tenant belongs to, a host Tenant among them. -/
def Dev.tenantPf (d : Dev) (t : Nat) : Option Nat :=
  if t < 16 then (if (d.pf? t).isSome then some t else none) else d.tenants.get? t

/-- Tenant destroy, only without functions; a host Tenant always holds its PF's. -/
def Dev.tenantDestroy (fn tag t : Nat) (d : Dev) : Dev :=
  let answer (status : Nat) (d : Dev) : Dev := d.answerRequest fn 0x11 tag status []
  match d.tenantPf t with
  | none => answer (if 16 ≤ fn then 1 else 3) d
  | some p =>
    if fn ≠ p then answer 1 d
    else if t < 16 ∨ (d.vfsPresent p).any (fun v => (d.fn v).tenant == t) = true then answer 4 d
    else answer 0 ({ d with tenants := d.tenants.erase t }.dropNodes [nodeKey 4 t])

/-- The status that keeps a PF from acting on function `v` as on a VF of its own, where there is one. -/
def Dev.vfRefusal (d : Dev) (fn v : Nat) : Option Nat :=
  if 16 ≤ fn then some 1
  else if v < 16 ∨ d.hasFn v = false then some 3
  else if d.pfOf v ≠ fn then some 1
  else none

/-- VF assign. -/
def Dev.vfAssign (fn tag v t : Nat) (d : Dev) : Dev :=
  let answer (status : Nat) (d : Dev) : Dev := d.answerRequest fn 0x12 tag status []
  match d.vfRefusal fn v, d.tenantPf t with
  | some s, _ => answer s d
  | none, none => answer 3 d
  | none, some p =>
    if p ≠ fn then answer 1 d
    else if d.inReset v ∨ (d.groupsOf v).isEmpty = false then answer 4 d
    else answer 0 (d.onFn v (fun f => { f with tenant := t }))

/-- The properties that the words of a request give, and whether they lie in their ranges. -/
def propsOf (w : List Nat) : VfProps :=
  let n := bits (reqWord w 1) 14 3
  let m := bits (reqWord w 11) 28 3
  { macs := (List.range (min n 4)).map (fun k => reqWord w (2 + 2 * k) + 2 ^ 32 * (reqWord w (3 + 2 * k) % 65536))
    uplink := if hasBit (reqWord w 1) 25 then some (bits (reqWord w 1) 17 8) else none
    vids := ([bits (reqWord w 10) 0 12, bits (reqWord w 10) 16 12, bits (reqWord w 11) 0 12, bits (reqWord w 11) 16 12]).take (min m 4)
    anyVid := hasBit (reqWord w 10) 31
    ringQuota := bits (reqWord w 12) 0 23
    groupQuota := bits (reqWord w 13) 0 18
    ctxQuota := bits (reqWord w 14) 0 24
    slotFirst := bits (reqWord w 15) 0 7
    slotCount := bits (reqWord w 15) 8 7 }

/-- Counts, slots and the uplink in range? The slot count has seven bits here, so 128 cannot be written (notes/assumptions/40.md). -/
def Dev.propsOk (d : Dev) (w : List Nat) : Bool :=
  let p := propsOf w
  bits (reqWord w 1) 14 3 ≤ 4 && bits (reqWord w 11) 28 3 ≤ 4 && p.slotFirst + p.slotCount ≤ 128 &&
  (p.uplink.map (fun m => decide (m < d.die.variant.macs))).getD true

/-- The source-check entry of one MAC address of a function (R192, R211). -/
def sourceEntry (fn mac : Nat) (p : VfProps) : MtbEntry :=
  { valid := true
    static := true
    key := leBytes fn 4 ++ beBytes mac 6
    result := padTo 16 (leBytes (p.anyVid.toNat + 2 * p.vids.length) 4 ++ p.vids.flatMap (fun v => leBytes v 2)) }

/-- Firmware writes the function's source-check entries anew (R422); the answer says whether all found a place. -/
def Dev.putSources (fn : Nat) (p : VfProps) (d : Dev) : Bool × Dev :=
  if d.tabKind 2 ≠ 1 then (true, d)
  else p.macs.foldl (fun x mac =>
    let r := x.2.insertNew 2 false (sourceEntry fn mac p)
    (x.1 && r.1, r.2)) (true, d.dropSources fn)

/-- VF properties. -/
def Dev.vfProperties (fn tag : Nat) (w : List Nat) (d : Dev) : Dev :=
  let v := bits (reqWord w 1) 0 14
  let answer (status : Nat) (d : Dev) : Dev := d.answerRequest fn 0x13 tag status []
  match d.vfRefusal fn v with
  | some s => answer s d
  | none =>
    if d.inReset v then answer 4 d
    else if !d.propsOk w then answer 3 d
    else
      let p := propsOf w
      let r := (d.onFn v (fun f => { f with props := p })).putSources v p
      answer (if r.1 then 0 else 2) r.2

/-! ## Function reset (R419, R425, R427) -/

/-- Function reset: by the PF for its VFs, by a VF for itself; it joins one that runs. -/
def Dev.resetRequest (fn tag : Nat) (w : List Nat) (d : Dev) : Dev :=
  let t := bits (reqWord w 1) 0 14
  let answer (status : Nat) (d : Dev) : Dev := d.answerRequest fn 0x14 tag status []
  if t < 16 ∨ (fn ≠ t ∧ (16 ≤ fn ∨ d.pfOf t ≠ fn)) then answer 1 d
  else if !d.hasFn t then answer 3 d
  else if (d.fn t).reset = .flr ∨ (d.fn t).reset = .link then answer 4 d
  else
    (d.addJob { fn := fn, kind := 0x14, tag := tag, words := w, awaits := .functionReset t }).functionReset t
      (hasBit (reqWord w 1) 16) (reqWord w 2 % 65536)

/-- Epilogue resend. -/
def Dev.epilogueResend (fn tag : Nat) (d : Dev) : Dev :=
  match d.epilogues.get? fn with
  | some e => if e.ready then d.answerRequest fn 0x34 tag 0 (e.words fn) else d.answerRequest fn 0x34 tag 4 []
  | none => d.answerRequest fn 0x34 tag 3 []

/-! ## Contexts (R274, R419) -/

/-- Types of context that firmware creates. -/
def ctxTypes : List Nat := [1, 2, 3, 4, 5, 8, 9, 10, 11]

/-- Contexts that a function owns. -/
def Dev.ctxsOf (d : Dev) (fn : Nat) : Nat := (d.ctxs.filter (fun c _ => d.ctxOwner c == fn)).size

/-- Firmware reads the context image, and the key context where the request names one. -/
def Dev.readContext (fn tag kind : Nat) (index : Option Nat) (type : Nat) (w : List Nat) (d : Dev) : Dev :=
  if !d.canIssue fn then d.answerRequest fn kind tag 3 []
  else
    let addr := reqWord w 2 + 2 ^ 32 * reqWord w 3
    let keys := reqWord w 4 + 2 ^ 32 * reqWord w 5
    let j := d.nextJob
    let n := d.requestCount fn addr 256 + (if keys = 0 then 0 else d.requestCount fn keys 64)
    let d := d.addJob { fn := fn, kind := kind, tag := tag, words := w, awaits := .context index type, want := n }
    let d := d.hostRead fn addr 256 {} (fun off _ => .context j off)
    if keys = 0 then d else d.hostRead fn keys 64 {} (fun off _ => .context j (256 + off))

/-- Context create. -/
def Dev.contextCreate (fn tag : Nat) (w : List Nat) (d : Dev) : Dev :=
  let t := bits (reqWord w 1) 0 4
  let answer (status : Nat) (d : Dev) : Dev := d.answerRequest fn 0x20 tag status []
  if d.inReset fn then answer 4 d
  else if !ctxTypes.contains t then answer 3 d
  else if (t = 10 ∨ t = 11) ∧ d.die.variant.hasSto = false then answer 5 d
  else if 2 ^ 24 ≤ d.ctxs.size ∨ (16 ≤ fn ∧ (d.fn fn).props.ctxQuota ≤ d.ctxsOf fn) then answer 2 d
  else d.readContext fn tag 0x20 none t w

/-- Context change, by the owner. -/
def Dev.contextChange (fn tag : Nat) (w : List Nat) (d : Dev) : Dev :=
  let c := bits (reqWord w 1) 0 24
  let answer (status : Nat) (d : Dev) : Dev := d.answerRequest fn 0x21 tag status []
  if !d.ctxs.has c then answer 3 d
  else if d.ctxOwner c ≠ fn then answer 1 d
  else if d.inReset fn then answer 4 d
  else d.readContext fn tag 0x21 (some c) (d.ctxType c) w

/-- What follows a context's new content: a QP in state 4 is flushed (R299), a connection is opened. -/
def Dev.contextWritten (c : Nat) (fresh : Bool) (d : Dev) : Dev :=
  match d.ctxType c with
  | 8 =>
    let d := if fresh then { d with qps := d.qps.set c {} } else d
    if d.qpState c = 4 then (d.flushQp c 8).loseQpCmds c else d
  | 10 => if fresh then d.openConn c else d
  | _ => d

/-- All of a context's bytes have come: its type must be the one asked for; the owner is the requester (R274). -/
def Dev.contextRead (j : Nat) (x : Job) (index : Option Nat) (type : Nat) (d : Dev) : Dev :=
  let part (lo hi : Nat) : List Byte := ((x.pieces.filter (fun k _ => lo ≤ k && k < hi)).vals).flatten
  let image := putBytes (padTo 256 (part 0 256)) 4 (leBytes (leAt (part 0 256) 4 2 / 16384 * 16384 + x.fn) 2)
  let keys := part 256 320
  let d := { d with jobs := d.jobs.erase j }
  let answer (status : Nat) (l : List Nat) (d : Dev) : Dev := d.answerRequest x.fn x.kind x.tag status l
  if leAt image 0 1 % 16 ≠ type then answer 3 [] d
  else
    match index with
    | some c =>
      if !d.ctxs.has c then answer 3 [] d
      else
        let d := { d with ctxs := d.ctxs.set c image, ctxKeys := if keys.isEmpty then d.ctxKeys else d.ctxKeys.set c keys }
        answer 0 [] (d.contextWritten c false)
    | none =>
      let (c, d) := d.pickIndex d.ctxs (2 ^ 24)
      let d := { d with ctxs := d.ctxs.set c image, ctxKeys := d.ctxKeys.set c (padTo 64 keys) }
      answer 0 [c] (d.contextWritten c true)

/-- A piece of a context, or the failure of its read. -/
def Dev.contextPiece (j off : Nat) (data : Option (List Byte)) (d : Dev) : Dev :=
  match data, d.jobs.get? j with
  | none, _ => d.failJob j
  | _, none => d
  | some b, some x =>
    let x := { x with pieces := x.pieces.set off b, want := x.want - 1 }
    let d := { d with jobs := d.jobs.set j x }
    match x.awaits, x.want with
    | .context index type, 0 => d.contextRead j x index type
    | _, _ => d

/-- Does accepted work name the context (R274)? -/
def Dev.ctxNamed (d : Dev) (c : Nat) : Bool :=
  d.items.vals.any (fun it => it.isAccepted &&
    (it.espOf == some c || it.tlsOf == some c || it.conn == some c || it.edits.any (fun e => e == .esp c || e == .tls c) ||
     (it.kind == 2 && it.nvme.isNone && it.work.qpn == c))) ||
  d.rings.vals.any (fun g => (g.frame ++ g.accepted).any (fun x =>
    if g.kind = 2 then (workFields x.bytes).qpn == c
    else if g.kind = 0 ∧ g.formatA = false then
      let t := txFieldsB x.bytes
      (t.actionKind == 2 || t.actionKind == 3) && t.actionIndex == c
    else false))

/-- A context is gone, with its keys and what runs on it. -/
def Dev.eraseContext (c : Nat) (d : Dev) : Dev :=
  let d := if d.ctxType c = 8 ∧ d.qpState c ≠ 4 then (d.flushQp c 8).endQpCmds c else d
  let d := if d.ctxType c = 10 ∧ d.connOpen c = true then d.loseConn c 1 else d
  { d with
    ctxs := d.ctxs.erase c
    ctxKeys := d.ctxKeys.erase c
    ctxFailed := d.ctxFailed.filter (· != c)
    qps := d.qps.erase c
    conns := d.conns.erase c }

/-- Context destroy: carried out once no accepted item names the context. -/
def Dev.contextDestroy (fn tag : Nat) (w : List Nat) (d : Dev) : Dev :=
  let c := bits (reqWord w 1) 0 24
  let answer (status : Nat) (d : Dev) : Dev := d.answerRequest fn 0x22 tag status []
  if !d.ctxs.has c then answer 3 d
  else if !d.owns fn (d.ctxOwner c) true then answer 1 d
  else if d.inReset (d.ctxOwner c) then answer 4 d
  else if d.ctxNamed c then d.addJob { fn := fn, kind := 0x22, tag := tag, words := w, awaits := .destroy c }
  else answer 0 (d.eraseContext c)

/-! ## The S4400 personality (R428-R430) -/

/-- Does the VF see its uplink up? -/
def Dev.s44LinkUp (d : Dev) (fn : Nat) : Bool := ((d.fn fn).props.uplink.map d.macUp).getD false

/-- A base address of a queue: transmit descriptors and completions, receive descriptors and completions. -/
def Dev.s44Base (d : Dev) (fn q n : Nat) : Nat :=
  d.rd R.S44_Q_BASE_addr fn (32 * q + 8 * n) + 2 ^ 32 * d.rd R.S44_Q_BASE_addr fn (32 * q + 8 * n + 4)

/-- One of a queue's two Format A rings (R430). -/
def Dev.s44Ring (d : Dev) (fn group q : Nat) (rx : Bool) : Ring :=
  { descBase := d.s44Base fn q (if rx then 2 else 0)
    cplBase := d.s44Base fn q (if rx then 3 else 1)
    log2 := if rx then d.rd R.S44_Q_CTRL_rx_log2 fn (4 * q) else d.rd R.S44_Q_CTRL_tx_log2 fn (4 * q)
    kind := rx.toNat
    formatA := true
    state := if d.canIssue fn then .enabled else .stalled
    vector := d.rd R.S44_Q_CTRL_vector fn (4 * q)
    fn := fn
    group := group
    slot := 2 * q + rx.toNat
    irqCount := 32
    irqTime := 20
    rxHoldKib := 256 }

/-- Are a queue's values in their ranges? -/
def Dev.s44QueueOk (d : Dev) (fn q : Nat) : Bool :=
  let size (v : Nat) : Bool := 6 ≤ v && v ≤ 13
  size (d.rd R.S44_Q_CTRL_tx_log2 fn (4 * q)) && size (d.rd R.S44_Q_CTRL_rx_log2 fn (4 * q)) &&
  d.rd R.S44_Q_CTRL_vector fn (4 * q) < d.msixSize fn && (List.range 4).all (fun n => d.s44Base fn q n % 4096 == 0)

/-- Write the fields of S44_Q_CTRL that software writes. -/
def Dev.s44Ctrl (fn q v : Nat) (d : Dev) : Dev :=
  let d := (d.wr R.S44_Q_CTRL_tx_log2 (bits v 0 4) fn (4 * q)).wr R.S44_Q_CTRL_rx_log2 (bits v 4 4) fn (4 * q)
  (d.wr R.S44_Q_CTRL_vector (bits v 8 11) fn (4 * q)).wr R.S44_Q_CTRL_enable (bit v 19) fn (4 * q)

/-- Are the queue registers of the VF open to writes? -/
def Dev.s44Open (d : Dev) (fn q : Nat) : Bool := d.isS44 fn && d.hasFn fn && !d.inReset fn && q < 64

/-- The queue's rings. -/
def Dev.s44Rings (d : Dev) (fn q : Nat) : List Nat :=
  d.rings.entries.filterMap (fun e => if e.2.fn = fn ∧ e.2.slot / 2 = q then some e.1 else none)

/-- A write that sets enable: firmware creates and enables both rings, or clears enable and sets error. While the queue is enabled, or
its rings are being taken down, nothing is created (notes/assumptions/41.md). -/
def Dev.s44Enable (fn q v : Nat) (d : Dev) : Dev :=
  if !d.s44Open fn q || d.on R.S44_Q_CTRL_enable fn (4 * q) || !(d.s44Rings fn q).isEmpty then d
  else
    let d := d.s44Ctrl fn q (setBit v 19)
    match (d.groupsOf fn).head? with
    | some g =>
      if d.s44QueueOk fn q && d.ringRoom fn 2 then
        let d := (d.newRing (d.s44Ring fn g q false)).2
        let d := (d.newRing (d.s44Ring fn g q true)).2
        (d.wr R.S44_Q_CTRL_ready 1 fn (4 * q)).wr R.S44_Q_CTRL_error 0 fn (4 * q)
      else (d.wr R.S44_Q_CTRL_enable 0 fn (4 * q)).wr R.S44_Q_CTRL_error 1 fn (4 * q)
    | none => (d.wr R.S44_Q_CTRL_enable 0 fn (4 * q)).wr R.S44_Q_CTRL_error 1 fn (4 * q)

/-- A write that clears enable: both rings are disabled and destroyed, and then ready clears. While a port names one of them as its
exception ring firmware refuses (R185), and enable stays set (DEDUCED, notes/assumptions/80.md). -/
def Dev.s44Disable (fn q v : Nat) (d : Dev) : Dev :=
  if !d.s44Open fn q then d
  else
    let was := d.on R.S44_Q_CTRL_enable fn (4 * q)
    let stays := was && (d.s44Rings fn q).any d.isException
    let d := d.s44Ctrl fn q (if stays then setBit v 19 else clearBit v 19)
    if !was || stays then d
    else
      let d := Dev.each (d.s44Rings fn q) (fun r d => d.onRing r (fun g => { g with stopping := true })) d
      d.addJob { fn := fn, kind := 0, tag := 0, words := [], awaits := .s44Disable q }

/-- A filter request goes to the PF, and is answered at once. -/
def Dev.s44Forward (fn kind tag : Nat) (w : List Nat) (d : Dev) : Dev :=
  (d.sendTo (d.pfOf fn) ([0x48, fn] ++ (List.range 8).map (reqWord w))).answerS44 fn kind tag 0 []

/-- Take a filter request, busy where the PF's messages have no room for it. -/
def Dev.takeFilter (fn kind : Nat) (d : Dev) : Dev :=
  match d.requestOf fn with
  | some m =>
    if m.kind = kind ∧ d.isS44 fn = true ∧ 16 ≤ d.heldFor (d.pfOf fn) then d.ackRequest fn 1
    else d.takeKind fn kind 1 (fun tag w d => d.s44Forward fn kind tag w)
  | none => d

/-- The results of a configuration request: MAC 0, the queue count and max_frame of the uplink (notes/assumptions/42.md). -/
def Dev.s44Config (d : Dev) (fn : Nat) : List Nat :=
  let mac := (d.fn fn).props.macs.headD 0
  [mac % 2 ^ 32, mac / 2 ^ 32, 64, ((d.fn fn).props.uplink.map (fun m => d.rd R.MAC_INST_CFG_max_frame 0 (16 * m))).getD 0]

/-! ## What requests wait for -/

/-- A job goes on as far as it can. -/
def Dev.goOnJob (j : Nat) (x : Job) (d : Dev) : Dev :=
  let answer (d : Dev) : Dev := { d with jobs := d.jobs.erase j }.answerRequest x.fn x.kind x.tag 0 []
  match x.awaits with
  | .ringDisable r =>
    let d := d.goOnDisable r
    if ((d.ring? r).map (fun g => !g.stopping)).getD true then answer d else d
  | .s44Disable q =>
    let l := d.s44Rings x.fn q
    let d := Dev.each l Dev.goOnDisable d
    if l.all (fun r => ((d.ring? r).map (fun g => !g.stopping)).getD true) then
      let d := Dev.each l (fun r d => match d.ring? r with
        | some g => d.eraseRing r g
        | none => d) d
      { d with jobs := d.jobs.erase j }.wr R.S44_Q_CTRL_ready 0 x.fn (4 * q)
    else d
  | .destroy c => if d.ctxNamed c then d else answer (d.eraseContext c)
  | _ => d

/-- Every job that waits for rings or contexts. -/
def Dev.goOnJobs (d : Dev) : Dev := Dev.each d.jobs.entries (fun e d => d.goOnJob e.1 e.2) d

/-! ## Commands -/

/-- A set-up request that stands in a function's channel is taken, and what it waits for may be there at once. -/
def State.setup (s : State) (fn kind words : Nat) (act : Nat → List Nat → Dev → Dev) : Out :=
  s.onRun (fun d => (d.takeKind fn kind words act).goOnJobs)

/-- RING_GROUP_CREATE. -/
def execRingGroupCreate (fn : Nat) (s : State) : Out := s.setup fn 0x01 1 (fun tag _ d => d.groupCreate fn tag)

/-- RING_GROUP_DESTROY. -/
def execRingGroupDestroy (fn : Nat) (s : State) : Out :=
  s.setup fn 0x02 2 (fun tag w d => d.groupDestroy fn tag (bits (reqWord w 1) 0 18))

/-- RING_CREATE. -/
def execRingCreate (fn : Nat) (s : State) : Out := s.setup fn 0x03 13 (fun tag w d => d.ringCreate fn tag w)

/-- RING_ENABLE. -/
def execRingEnable (fn : Nat) (s : State) : Out := s.setup fn 0x04 2 (fun tag w d => d.ringEnable fn tag (bits (reqWord w 1) 0 22))

/-- RING_DISABLE. -/
def execRingDisable (fn : Nat) (s : State) : Out := s.setup fn 0x05 2 (fun tag w d => d.ringDisable fn tag (bits (reqWord w 1) 0 22))

/-- RING_RESTART. -/
def execRingRestart (fn : Nat) (s : State) : Out := s.setup fn 0x06 2 (fun tag w d => d.ringRestart fn tag (bits (reqWord w 1) 0 22))

/-- RING_DESTROY. -/
def execRingDestroy (fn : Nat) (s : State) : Out := s.setup fn 0x07 2 (fun tag w d => d.ringDestroy fn tag (bits (reqWord w 1) 0 22))

/-- RING_TUNE. -/
def execRingTune (fn : Nat) (s : State) : Out := s.setup fn 0x08 4 (fun tag w d => d.ringTune fn tag (bits (reqWord w 1) 0 22) w)

/-- TENANT_CREATE. -/
def execTenantCreate (fn : Nat) (s : State) : Out := s.setup fn 0x10 1 (fun tag _ d => d.tenantCreate fn tag)

/-- TENANT_DESTROY. -/
def execTenantDestroy (fn : Nat) (s : State) : Out :=
  s.setup fn 0x11 2 (fun tag w d => d.tenantDestroy fn tag (bits (reqWord w 1) 0 14))

/-- VF_ASSIGN. -/
def execVfAssign (fn : Nat) (s : State) : Out :=
  s.setup fn 0x12 3 (fun tag w d => d.vfAssign fn tag (bits (reqWord w 1) 0 14) (bits (reqWord w 2) 0 14))

/-- VF_PROPERTIES. -/
def execVfProperties (fn : Nat) (s : State) : Out := s.setup fn 0x13 16 (fun tag w d => d.vfProperties fn tag w)

/-- FUNCTION_RESET. -/
def execFunctionReset (fn : Nat) (s : State) : Out := s.setup fn 0x14 3 (fun tag w d => d.resetRequest fn tag w)

/-- CONTEXT_CREATE. -/
def execContextCreate (fn : Nat) (s : State) : Out := s.setup fn 0x20 6 (fun tag w d => d.contextCreate fn tag w)

/-- CONTEXT_CHANGE. -/
def execContextChange (fn : Nat) (s : State) : Out := s.setup fn 0x21 6 (fun tag w d => d.contextChange fn tag w)

/-- CONTEXT_DESTROY. -/
def execContextDestroy (fn : Nat) (s : State) : Out := s.setup fn 0x22 2 (fun tag w d => d.contextDestroy fn tag w)

/-- EPILOGUE_RESEND. -/
def execEpilogueResend (fn : Nat) (s : State) : Out := s.setup fn 0x34 1 (fun tag _ d => d.epilogueResend fn tag)

/-- GET_CONFIGURATION. -/
def execGetConfiguration (fn : Nat) (s : State) : Out :=
  s.setup fn 0x60 1 (fun tag _ d => d.answerS44 fn 0x60 tag 0 (d.s44Config fn))

/-- SET_MAC_FILTER. -/
def execSetMacFilter (fn : Nat) (s : State) : Out := s.onRun (Dev.takeFilter fn 0x61)

/-- SET_VLAN_FILTER. -/
def execSetVlanFilter (fn : Nat) (s : State) : Out := s.onRun (Dev.takeFilter fn 0x62)

/-- LINK_QUERY. -/
def execLinkQuery (fn : Nat) (s : State) : Out :=
  s.setup fn 0x63 1 (fun tag _ d => d.answerS44 fn 0x63 tag 0 [(d.s44LinkUp fn).toNat])

/-- soft_reset: a function reset without drain; a reset of the function or of its link that runs takes it up. -/
def Dev.s44Reset (fn : Nat) (d : Dev) : Dev :=
  if d.isS44 fn && d.hasFn fn && (d.fn fn).reset != .flr && (d.fn fn).reset != .link then d.functionReset fn false 0 else d

/-- S44_SOFT_RESET: S44_VF_CTRL.soft_reset is written. -/
def execS44SoftReset (fn : Nat) (s : State) : Out := s.onRun (Dev.s44Reset fn)

/-- S44_QUEUE_ENABLE: a write of S44_Q_CTRL that sets enable. -/
def execS44QueueEnable (fn queue value : Nat) (s : State) : Out := s.onRun (Dev.s44Enable fn queue value)

/-- S44_QUEUE_DISABLE: a write of S44_Q_CTRL with enable clear. -/
def execS44QueueDisable (fn queue value : Nat) (s : State) : Out := s.onRun (fun d => (d.s44Disable fn queue value).goOnJobs)

end Sys2Proof.Machine
end

