-- ==== Sys2Proof/Machine/Change.lean ====
section
/-!
DEFINITION. In-service change (R431-R437): sit-out and rejoin of units, image staging, and the image apply, unit by unit.
-/

namespace Sys2Proof.Machine

/-- Is the function a service PF: may it reach the BOOT window (R419)? -/
def Dev.isService (d : Dev) (fn : Nat) : Bool := fn < 16 && d.reaches fn 1

/-- Is an apply running (R440)? One that has stopped is not. -/
def Dev.applying (d : Dev) : Bool := (d.apply.map (fun a => !a.stopped)).getD false

/-! ## Sit-out (R431) -/

/-- In-service positions that stay filled if `p` sits out too: those that leave are filled again while fit reserves last (R431). -/
def Dev.staysFilled (d : Dev) (p : Nat) : Nat :=
  let filled := (List.range 32).filter d.setFilled
  let going := filled.filter (fun q => q == p || (d.setAt q).phase == .grace || d.jobs.vals.any (fun j => j.awaits == .sitOut 0x41 q))
  filled.length - going.length + min going.length ([32, 33].filter d.setFit).length

/-- Sit-out of a Set position. -/
def Dev.sitOutSet (fn tag p : Nat) (d : Dev) : Dev :=
  let answer (status : Nat) (d : Dev) : Dev := d.answerRequest fn 0x30 tag status []
  let s := d.setAt p
  if 34 ≤ p then answer 3 d
  else if !d.hasSet p then answer 5 d
  else if s.phase ≠ .inService then answer 4 d
  else if 32 ≤ p then answer 0 ((d.putSlot p { s with phase := .out }).cardChanged [setEntry p])
  else if d.power.satOut.isEmpty = false ∨ 2 * d.staysFilled p < d.die.variant.sets then answer 6 d
  else
    let d := d.addJob { fn := fn, kind := 0x30, tag := tag, words := [], awaits := .sitOut 0x41 p }
    if d.replaying then d else d.graceStart p

/-- Sit-out of a crypto position: its jobs finish first. -/
def Dev.sitOutCry (fn tag p : Nat) (d : Dev) : Dev :=
  let answer (status : Nat) (d : Dev) : Dev := d.answerRequest fn 0x30 tag status []
  let s := d.cryAt p
  if 48 ≤ p then answer 3 d
  else if !d.hasCry p then answer 5 d
  else if s.phase ≠ .inService then answer 4 d
  else if 46 ≤ p then answer 0 ((d.putCry p { s with phase := .out }).cardChanged [cryEntry p])
  else if d.cryInService.length < 2 then answer 6 d
  else if d.cryBusy p then
    ({ d with cryPos := d.cryPos.set p { s with phase := .grace } }.assignJobs).addJob
      { fn := fn, kind := 0x30, tag := tag, words := [], awaits := .sitOut 0x50 p }
  else answer 0 (d.leaveCry p).2

/-- Sit-out of a control core: four others must stay. -/
def Dev.sitOutCore (fn tag k : Nat) (d : Dev) : Dev :=
  let answer (status : Nat) (d : Dev) : Dev := d.answerRequest fn 0x30 tag status []
  if 8 ≤ k then answer 3 d
  else if (d.cores.getD k {}).out then answer 4 d
  else if d.coresIn.length < 5 then answer 6 d
  else answer 0 (d.leaveCore k)

/-- A sit-out request. -/
def Dev.sitOut (fn tag : Nat) (w : List Nat) (d : Dev) : Dev :=
  let unit := bits (reqWord w 1) 0 16
  let inst := bits (reqWord w 1) 16 16
  if !d.isService fn then d.answerRequest fn 0x30 tag 1 []
  else if d.applying then d.answerRequest fn 0x30 tag 4 []
  else if unit = 0x41 then d.sitOutSet fn tag inst
  else if unit = 0x50 then d.sitOutCry fn tag inst
  else if unit = 0xB0 then d.sitOutCore fn tag inst
  else d.answerRequest fn 0x30 tag 3 []

/-! ## Rejoin (R432) -/

/-- A rejoin test of a unit begins. -/
def Dev.startTest (unit inst : Nat) (d : Dev) : Dev :=
  if unit = 0x41 then ({ d with setPos := d.setPos.set inst { d.setAt inst with phase := .testing } }).wake (d.setAt inst).site
  else if unit = 0x50 then
    ({ d with cryPos := d.cryPos.set inst { d.cryAt inst with phase := .testing } }).wake (43 + (d.cryAt inst).site / 24)
  else { d with cores := d.cores.upd inst {} (fun c => { c with testing := true }) }

/-- The status that refuses a rejoin of a unit, where there is one. -/
def Dev.rejoinRefusal (d : Dev) (unit inst : Nat) : Option Nat :=
  let bySlot (s : Slot) : Option Nat :=
    match s.phase with
    | .out => if s.thermal then some 4 else none
    | .inService => some 3
    | _ => some 4
  if unit = 0x41 then
    (if 34 ≤ inst then some 3 else if !d.hasSet inst then some 5 else bySlot (d.setAt inst))
  else if unit = 0x50 then
    (if 48 ≤ inst then some 3 else if !d.hasCry inst then some 5 else bySlot (d.cryAt inst))
  else if unit = 0xB0 then
    (if 8 ≤ inst ∨ (d.cores.getD inst {}).out = false then some 3 else if (d.cores.getD inst {}).testing then some 4 else none)
  else some 3

/-- A rejoin request. -/
def Dev.rejoin (fn tag : Nat) (w : List Nat) (d : Dev) : Dev :=
  let unit := bits (reqWord w 1) 0 16
  let inst := bits (reqWord w 1) 16 16
  if !d.isService fn then d.answerRequest fn 0x31 tag 1 []
  else if d.applying then d.answerRequest fn 0x31 tag 4 []
  else
    match d.rejoinRefusal unit inst with
    | some s => d.answerRequest fn 0x31 tag s []
    | none => (d.addJob { fn := fn, kind := 0x31, tag := tag, words := [], awaits := .rejoin unit inst }).startTest unit inst

/-- The image that a site or core loads: that of the apply in its step for the unit, else the one in force. -/
def Dev.loadImage (d : Dev) (unit inst : Nat) : Option Image :=
  match d.apply with
  | some a => if a.unit = some (unit, inst) then some a.image else d.boot.image
  | none => d.boot.image

/-- A passed test returns the unit. -/
def Dev.returnUnit (unit inst : Nat) (d : Dev) : Dev :=
  let img := d.loadImage unit inst
  if unit = 0x41 then
    let d := d.putSlot inst { site := (d.setAt inst).site }
    let d := match img with
      | some i => d.loadStore i inst
      | none => d
    let d := if inst < 32 then (d.onPower (fun w => { w with unproven := inst :: w.unproven })).updateHeadroom else d
    d.cardChanged [setEntry inst]
  else if unit = 0x50 then
    (((d.putCry inst { site := (d.cryAt inst).site }).wr R.CRY_INST_STATUS_kat_pass 1 inst).cardChanged [cryEntry inst]).cryReturns
  else
    let version := (img.map (fun i => (imgFirmware i).2.1)).getD 0
    { d with cores := d.cores.set inst { version := version } }.cardChanged [coreEntry inst]

/-- A failed test leaves the unit out, with a record; the test's step is not stated. -/
def Dev.failTest (unit inst : Nat) (d : Dev) : Dev :=
  let (v, d) := d.free
  let site := if unit = 0x41 then (d.setAt inst).site else if unit = 0x50 then (d.cryAt inst).site else 0xFF
  let d := d.record { unit := unit, inst := inst, severity := 2, code := 6, handling := 2, site := site
                      domain := d.unitDomain unit inst, detail0 := v % 2 ^ 32 }
  if unit = 0x41 then { d with setPos := d.setPos.set inst { d.setAt inst with phase := .out } }
  else if unit = 0x50 then
    (({ d with cryPos := d.cryPos.set inst { d.cryAt inst with phase := .out } }).wr R.CRY_INST_STATUS_kat_pass 0 inst).cause cryInstCauses 2 inst
  else { d with cores := d.cores.upd inst {} (fun c => { c with testing := false }) }

/-- Does a test run on the unit? -/
def Dev.testing (d : Dev) (unit inst : Nat) : Bool :=
  if unit = 0x41 then inst < 34 && (d.setAt inst).phase == .testing
  else if unit = 0x50 then inst < 48 && (d.cryAt inst).phase == .testing
  else unit == 0xB0 && inst < 8 && (d.cores.getD inst {}).testing

/-! ## Image stage (R433) -/

/-- Would a request of this kind and length be taken now? -/
def Dev.takes (d : Dev) (fn kind words : Nat) : Option Msg :=
  (d.requestOf fn).filter (fun m => m.kind == kind && 4 * words ≤ m.len && d.heldFor fn < 16 && !d.isS44 fn)

/-- An image is written into the inactive slot, and marked trial if it verifies; the answer says so. An image that runs on trial from
that slot is no longer the one that a confirm would confirm. -/
def State.stageImage (img : Image) (length : Nat) (s : State) : Bool × State :=
  match s.flash.dir with
  | none => (false, s)
  | some c =>
    if c.slotSize < length then (false, s)
    else
      let s := s.writeSlot c img
      let s := { s with dev := { s.dev with boot := { s.dev.boot with onTrial := false } } }
      if img.imageBytes ≤ length ∧ verifies s.dev.die.variant s.fuses c.slotSize img = true then
        (true, s.putFlash (s.flash.writeDir { c with trial := true, trialLeft := 3 }))
      else (false, s)

/-- Image stage: the host's bytes, which firmware reads under the requester's ID, are the image (notes/assumptions/92.md). -/
def State.imageStage (fn : Nat) (img : Image) (s : State) : State :=
  match s.dev.takes fn 0x32 4 with
  | none => { s with dev := s.dev.takeKind fn 0x32 4 (fun _ _ d => d) }
  | some m =>
    let s := { s with dev := s.dev.ackRequest fn 0 }
    let answer (status : Nat) (s : State) : State := { s with dev := s.dev.answerRequest fn 0x32 m.tag status [] }
    if !s.dev.isService fn then answer 1 s
    else if s.dev.applying then answer 4 s
    else if !s.dev.canIssue fn then answer 3 s
    else
      let r := s.stageImage img (reqWord m.words 3)
      answer (if r.1 then 0 else 3) r.2

/-! ## Image apply (R434-R436) -/

/-- The content of one section type, whatever the digests say. -/
def bodiesOf (img : Image) (type : Nat) : List SecBody := (sectionsOf img type).map Section.body

/-- The parts of table `t`'s configuration that must not change: all but aging, cache_pin and host_write. -/
def tableShape (s : Schema) (t : Nat) : Nat × Nat :=
  match s.tables.find? (fun x => x.1 == t) with
  | some x => (x.2.1 % 2 ^ 14, x.2.2)
  | none => (0, 0)

/-- The entry of action record `a`. -/
def actionEntry (s : Schema) (a : Nat) : Nat := ((s.actions.find? (fun x => x.1 == a)).map (fun x => x.2 % 2 ^ 14)).getD 0

/-- May the image be applied in service beside the running one (R434)? -/
def applyOk (old new : Image) : Bool :=
  [1, 2, 4, 5].all (fun t => bodiesOf old t == bodiesOf new t) &&
  (List.range 16).all (fun t => tableShape (imgSchema old) t == tableShape (imgSchema new) t) &&
  (imgSchema old).txEntry == (imgSchema new).txEntry &&
  ((imgSchema old).actions ++ (imgSchema new).actions).all (fun a =>
    actionEntry (imgSchema old) a.1 == actionEntry (imgSchema new) a.1) &&
  (imgFirmware new).1 ≤ (imgFirmware old).1 + 1 && (imgFirmware old).1 ≤ (imgFirmware new).1 + 1

/-- Send a progress record. -/
def Dev.progress (step outcome unit inst status : Nat) (d : Dev) : Dev :=
  match d.apply with
  | none => d
  | some a =>
    let l := [step + 16 * outcome, unit + 65536 * inst, status]
    { d with apply := some { a with record := l } }.tell a.fn (0x47 :: l)

/-- Change the apply. -/
def Dev.onApply (d : Dev) (f : Apply → Apply) : Dev := { d with apply := d.apply.map f }

/-- The apply stops, with its response (R436). -/
def Dev.stopApply (step unit inst status : Nat) (d : Dev) : Dev :=
  let d := (d.progress step 3 unit inst status).onApply (fun a => { a with stopped := true, unit := none })
  match d.apply with
  | some a => d.answerRequest a.fn 0x33 a.tag status a.record
  | none => d

/-- A unit of a step is through. -/
def Dev.unitDone (step unit inst status : Nat) (d : Dev) : Dev :=
  (d.progress step 0 unit inst status).onApply (fun a => { a with todo := a.todo.tail, unit := none })

/-- A step is through, and the next has these units to do. -/
def Dev.stepDone (step : Nat) (todo : List Nat) (d : Dev) : Dev :=
  (d.progress step 1 0 0 0).onApply (fun a => { a with step := step + 1, todo := todo, unit := none })

/-- Ports whose record differs between two images. -/
def changedPorts (old new : Image) : List Nat :=
  (List.range 32).filter (fun p => (imgPorts old).find? (fun x => x.1 == p) != (imgPorts new).find? (fun x => x.1 == p))

/-- A changed port goes down and its lanes and instances are free again; then it re-forms as the new image has it, which wakes the
quadrants that it needs (R102, R344, R434). -/
def Dev.reformPort (old new : Image) (p : Nat) (d : Dev) : Dev :=
  let d := match (imgPorts old).find? (fun x => x.1 == p) with
    | none => d
    | some r =>
      let d := d.portDown p []
      let d := Dev.each (portMacs r.2) (fun m d =>
        (d.wr R.MAC_INST_STATE_formed 0 0 (4 * m)).wr R.SCH_PORT_rate_gbps 0 0 (4 * m)) d
      let d := Dev.each (List.range (speedLanes r.2.speed)) (fun k d =>
        (d.wr R.MAC_LANE_STATUS_rate 0 (p + k)).wr R.MAC_LANE_STATUS_port R.MAC_LANE_STATUS_port.dflt (p + k)) d
      (d.wr R.MAC_PORT_CFG_speed 0 0 (16 * p)).wr R.MAC_PORT_CFG_flexe 0 0 (16 * p)
  match (imgPorts new).find? (fun x => x.1 == p) with
  | none => d
  | some r =>
    let d := Dev.each ((List.range (speedLanes r.2.speed)).map (fun k => 36 + (p + k) / 8)).dedup Dev.wake d
    d.applyPorts { sections := [{ body := .portMap [r] }] }

/-- The lanes of the ports that a change touches. -/
def portLanes (img : Image) (p : Nat) : List Nat :=
  match (imgPorts img).find? (fun x => x.1 == p) with
  | some r => (List.range (speedLanes r.2.speed)).map (fun k => p + k)
  | none => []

/-- Every changed port: all leave first, then all form. -/
def Dev.reformPorts (old new : Image) (d : Dev) : Dev :=
  let ps := changedPorts old new
  let d := Dev.each ps (Dev.reformPort old { sections := [] }) d
  let d := Dev.each ps (Dev.reformPort { sections := [] } new) d
  let d := Dev.each ps (fun p d =>
    let ls := (portLanes old p ++ portLanes new p).dedup.filterMap (cardIndex 0x70)
    (d.cardChanged ls).progress 4 0 0x71 p 0) d
  d

/-- Step 5: everything that remains changes at once. The pairing of the Stream Port stands (R471). -/
def State.finishApply (s : State) (a : Apply) : State :=
  let paired := s.dev.rd R.STP_CTRL_pair_enable
  let d := (match s.dev.boot.image with
    | some old => if imgDefaultsBut a.image then s.dev.dropDefaults old else s.dev
    | none => s.dev)
  let d := ((d.applySchema a.image).applyDefaults a.image).wr R.STP_CTRL_pair_enable paired
  match s.flash.dir with
  | none => s
  | some c =>
    let d := { d with boot := { d.boot with image := some a.image, slot := 1 - c.active, onTrial := false, copyBad := false } }
    let d := d.progress 5 2 0 0 0
    let d := match d.apply with
      | some a => { d with apply := none }.answerRequest a.fn 0x33 a.tag 0 a.record
      | none => d
    { { s with dev := d }.putFlash (s.flash.writeDir { c with active := 1 - c.active, trial := false, trialLeft := 0 }) with
      fuses := if a.image.raiseFloor then { s.fuses with floor := max s.fuses.floor (min 64 a.image.securityVersion) } else s.fuses }

/-- Step 2: the next core sits out and tests, or the step is through. -/
def Dev.applyCores (a : Apply) (d : Dev) : Dev :=
  match a.todo with
  | [] =>
    let d := Dev.each ([32, 33].filter d.setFit) (Dev.loadStore a.image) (d.stepDone 2 (List.range 32))
    d
  | k :: _ =>
    if (d.cores.getD k {}).out then d.onApply (fun a => { a with todo := a.todo.tail })
    else if d.coresIn.length < 5 then d.stopApply 2 0xB0 k 6
    else ((d.leaveCore k).startTest 0xB0 k).onApply (fun a => { a with unit := some (0xB0, k) })

/-- Step 3: the next position sits out, or, with its site gone to the reserve, the site tests. -/
def Dev.applySets (a : Apply) (d : Dev) : Dev :=
  match a.todo, a.unit with
  | [], _ => d.stepDone 3 []
  | p :: _, none =>
    if !d.setInService p then d.onApply (fun a => { a with todo := a.todo.tail })
    else if d.fitReserve.isNone ∨ d.power.satOut.isEmpty = false then d.stopApply 3 0x41 p 6
    else if d.replaying then d
    else (d.graceStart p).onApply (fun a => { a with unit := some (0x41, p), site := (d.setAt p).site })
  | p :: _, some (_, q) =>
    if q ≠ p then d
    else if (d.setAt p).phase = .grace then d
    else
      match [32, 33].find? (fun r => (d.setAt r).site == a.site && (d.setAt r).phase == .out) with
      | some r => (d.startTest 0x41 r).onApply (fun a => { a with unit := some (0x41, r) })
      | none => d.unitDone 3 0x41 p 6

/-- The apply goes on by one unit or step, unless it waits for a test. -/
def State.goOnApply (s : State) : State :=
  match s.dev.apply, s.dev.boot.image with
  | some a, some old =>
    if a.stopped then s
    else if (a.unit.map (fun u => s.dev.testing u.1 u.2)).getD false then s
    else
      match a.step with
      | 2 => { s with dev := s.dev.applyCores a }
      | 3 => { s with dev := s.dev.applySets a }
      | 4 => { s with dev := (s.dev.reformPorts old a.image).stepDone 4 [] }
      | 5 => s.finishApply a
      | _ => s
  | _, _ => s

/-- Image apply: step 1 verifies and compares; a stopped apply of the same image is resumed (R436), another image starts anew
(DEDUCED, notes/assumptions/92.md). -/
def State.imageApply (fn : Nat) (s : State) : State :=
  match s.dev.takes fn 0x33 1 with
  | none => { s with dev := s.dev.takeKind fn 0x33 1 (fun _ _ d => d) }
  | some m =>
    let s := { s with dev := s.dev.ackRequest fn 0 }
    let answer (status : Nat) (s : State) : State := { s with dev := s.dev.answerRequest fn 0x33 m.tag status [] }
    if !s.dev.isService fn then answer 1 s
    else if s.dev.applying then answer 4 s
    else
      match (s.flash.dir.bind (fun c => s.flash.verified s.dev.die.variant s.fuses c (1 - c.active))), s.dev.boot.image with
      | some img, some old =>
        if !applyOk old img then answer 3 s
        else if (s.dev.apply.map Apply.image) = some img then
          { s with dev := s.dev.onApply (fun a => { a with fn := fn, tag := m.tag, stopped := false }) }
        else
          let d := { s.dev with apply := some { fn := fn, tag := m.tag, image := img } }
          { s with dev := d.stepDone 1 (List.range 8) }
      | _, _ => answer 3 s

/-- A rejoin test ends, for a request or for the apply's unit. -/
def Dev.testDone (unit inst : Nat) (pass : Bool) (d : Dev) : Dev :=
  if !d.testing unit inst then d
  else
    let mine := d.apply.filter (fun a => a.unit == some (unit, inst) && !a.stopped)
    let d := if pass then d.returnUnit unit inst else d.failTest unit inst
    let status := if pass then 0 else 6
    match mine with
    | some a => d.unitDone a.step unit (a.todo.headD inst) status
    | none => d.answerUnit true unit inst status

/-! ## Commands -/

/-- SIT_OUT. -/
def execSitOut (fn : Nat) (s : State) : Out := s.setup fn 0x30 2 (fun tag w d => d.sitOut fn tag w)

/-- REJOIN. -/
def execRejoin (fn : Nat) (s : State) : Out := s.setup fn 0x31 2 (fun tag w d => d.rejoin fn tag w)

/-- REJOIN_TEST_DONE. -/
def execRejoinTestDone (unit inst : Nat) (pass : Bool) (s : State) : Out := s.onRun (Dev.testDone unit inst pass)

/-- IMAGE_STAGE. -/
def execImageStage (fn : Nat) (img : Image) (s : State) : Out := s.ifRunning (State.imageStage fn img)

/-- IMAGE_APPLY. -/
def execImageApply (fn : Nat) (s : State) : Out := s.ifRunning (State.imageApply fn)

end Sys2Proof.Machine
end

