-- ==== Sys2Proof/Machine/Events.lean ====
section
/-!
DEFINITION. The event matrix (R410-R416): software triggers, end of service, route writes, the issue of messages and the storm
limiter, and writes of cause masks (R493).
-/

namespace Sys2Proof.Machine

/-- storm_max, 0 acting as 1 (R414). -/
def Dev.stormMax (d : Dev) : Nat := max 1 (d.rd R.EVT_STORM_LIMIT_storm_max)

/-- A level route that is enabled, active and out of service sends. -/
def Dev.sendLevel (pf src : Nat) (d : Dev) : Dev :=
  if d.routeOn pf src && d.routeLevel pf src && d.levelActive src && !(d.route pf src).inService then
    d.onRoute pf src (fun r => { r with pending := true })
  else d

/-- Issue a route's pending message (R412-R414). -/
def Dev.issue (pf src : Nat) (d : Dev) : Dev :=
  let r := d.route pf src
  let v := d.rd R.EVT_ROUTE_vector pf (4 * src)
  if !r.pending then d
  else
    let d := d.onRoute pf src (fun r => { r with pending := false })
    if !d.routeOn pf src then d
    else if d.routeLevel pf src then
      if d.vectorLost pf v then d
      else if d.stormMax ≤ r.sent then
        let d := d.onRoute pf src (fun r => { r with withheld := true })
        let d := d.wr R.EVT_STORM_storm (setBit (d.rd R.EVT_STORM_storm pf (4 * (src / 32))) (src % 32)) pf (4 * (src / 32))
        d.bump R.EVT_STORM_DROPS_count
      else (d.onRoute pf src (fun r => { r with inService := true, sent := r.sent + 1 })).sendVector pf v
    else d.sendVector pf v

/-- End service of a level route; a source still active sends again (R413). -/
def Dev.endOfInterrupt (pf src : Nat) (d : Dev) : Dev :=
  if src < 384 && (d.pf? pf).isSome then (d.onRoute pf src (fun r => { r with inService := false })).sendLevel pf src else d

/-- A PF's EVT_ROUTE write: enable only for permitted sources, level only for sources with a level; leaving enabled level mode
leaves service; an active route out of service sends at once (R411, R413). -/
def Dev.writeRoute (pf src v : Nat) (d : Dev) : Dev :=
  if 384 ≤ src ∨ (d.pf? pf).isNone then d
  else
    let ok := hasBit (d.rd R.EVT_PERMIT_permit pf (4 * (src / 32))) (src % 32)
    let d := d.wr R.EVT_ROUTE_vector (bits v 0 11) pf (4 * src)
    let d := d.wr R.EVT_ROUTE_enable (if ok then bit v 11 else 0) pf (4 * src)
    let d := d.wr R.EVT_ROUTE_level (if (causesFor src).isEmpty then 0 else bit v 12) pf (4 * src)
    let d := if d.routeOn pf src && d.routeLevel pf src then d
             else d.onRoute pf src (fun r => { r with inService := false })
    let d := if d.routeOn pf src then d else d.onRoute pf src (fun r => { r with pending := false })
    d.sendLevel pf src

/-- Software triggers (R415). -/
def Dev.swTrigger (v : Nat) (d : Dev) : Dev :=
  Dev.each ((List.range 10).filter (hasBit v)) (fun n d => d.raise (374 + n)) d

/-- A new uptime millisecond: every route counts anew, and a withheld route that is still active sends one message (R414). -/
def Dev.stormMs (d : Dev) : Dev :=
  let held := (d.routes.filter (fun _ r => r.withheld)).keys
  let d := { d with routes := d.routes.mapVals (fun _ r => { r with sent := 0, withheld := false }) }
  Dev.each held (fun k d => d.sendLevel (k / 384) (k % 384)) d

/-- The cause register beside the mask register at an offset of a unit type's window. -/
def causesOf (unit off : Nat) : Option Causes := allCauses.find? (fun c => c.unit == unit && c.mask.off == off)

/-- EVT_SW_TRIGGER. -/
def execEventSwTrigger (bits : Nat) (s : State) : Out := s.onRun (Dev.swTrigger bits)

/-- EVT_EOI, written by PF `pf`. -/
def execEventEoi (pf source : Nat) (s : State) : Out := s.onRun (Dev.endOfInterrupt pf source)

/-- EVT_ROUTE_s, written by PF `pf`. -/
def execEventRouteWrite (pf source value : Nat) (s : State) : Out := s.onRun (Dev.writeRoute pf source value)

/-- The matrix issues a route's pending message (R412). -/
def execEventMessageIssue (pf source : Nat) (s : State) : Out := s.onRun (Dev.issue pf source)

/-- Each millisecond of TMP_UPTIME_MS (R414). -/
def execStormLimitMillisecond (s : State) : Out := s.onRun Dev.stormMs

/-- A write of a cause mask, by unit type, instance and offset (R493). -/
def execCauseMaskWrite (unit inst off value : Nat) (s : State) : Out :=
  s.onRun (fun d => match causesOf unit off with
    | some c => d.writeMask c (if c.perInst = 1 then inst else 0) value
    | none => d)

end Sys2Proof.Machine
end

