-- ==== Sys2Proof/Machine/Registers.lean ====
section
/-!
DEFINITION. Register access (R4-R8): who reaches which window, what a read returns and does, and what a write does by the access
codes, by the ranges a value is stored in, and by the actions that registers with a command of their own carry out.
-/

namespace Sys2Proof.Machine

/-! ## Windows (R2, R7, R38, R111, R116, R345, R397) -/

/-- The MAC instance that a register of the MAC window belongs to. -/
def macOfOff (off : Nat) : Option Nat :=
  if 0x800 ≤ off ∧ off < 0x1800 then some ((off - 0x800) / 16)
  else if 0x2000 ≤ off ∧ off < 0x2400 then some ((off - 0x2000) / 4)
  else if 0x10000 ≤ off ∧ off < 0x20000 then some ((off - 0x10000) / 256)
  else none

/-- The MAC instance that a register of the TMP window belongs to (R391). -/
def tmpMacOfOff (off : Nat) : Option Nat :=
  if 0x3000 ≤ off ∧ off < 0x3800 then some (off % 0x400 / 4)
  else if 0x4000 ≤ off ∧ off < 0x4800 then some ((off - 0x4000) / 8)
  else none

/-- Does the register exist on the part as the image forms it? What does not reads as zero and ignores writes. -/
def Dev.registerLive (d : Dev) (unit inst off : Nat) : Bool :=
  (cardIndex unit inst).isSome && d.unitPresent unit inst &&
  (unit != 0x10 || d.formed inst) &&
  (unit != 0x60 || off < 0x100 || 0x200 ≤ off || d.formed ((off - 0x100) / 16)) &&
  (unit != 0x71 || (macOfOff off).all d.macFormed) &&
  (unit != 0x80 || (tmpMacOfOff off).all d.macFormed)

/-- Is the MID one that an access to a unit's window may carry? A control core reaches every window, the debug master once it is
unlocked (R486), a PF those that its card gives. -/
def Dev.mayReach (d : Dev) (mid unit inst : Nat) : Bool :=
  if isCoreMid mid then true
  else if mid = midDebug then d.dbg.unlocked
  else if isFnMid mid then mid - 0x1000 < 16 && (cardIndex unit inst).any (d.reaches (mid - 0x1000))
  else false

/-- The instance under which a register's value is kept: registers common to all crypto positions lie at instance 0, those of the
event matrix that are banked in the caller's bank (R411). -/
def bankOf (mid unit inst off : Nat) : Nat :=
  if unit = 0x50 ∧ 0x100 ≤ off then 0
  else if unit = 0x91 then
    (if (0x10 ≤ off ∧ off < 0x80) ∨ 0x1000 ≤ off then (if isFnMid mid then mid - 0x1000 else 16) else 0)
  else inst

/-- The fields of the register at an offset. -/
def fieldsAt (unit inst off : Nat) : List Field := (R.map unit).filter (fun f => f.at inst off)

/-! ## Reads -/

/-- A register whose value is what its fields hold: a WO field reads zero, and an RC field stands at its start value after it is read,
0 for all but PWR_PACE_LOW and PWR_TJ_PEAK, which follow the extreme since the read (R8, R108; DEDUCED, notes/assumptions/65.md). -/
def Dev.plainRead (unit inst off : Nat) (d : Dev) : Nat × Dev :=
  let fs := fieldsAt unit inst off
  ((fs.map (fun f => if f.acc = .wo then 0 else 2 ^ f.lsb * d.rd f inst (off - f.off))).sum,
   Dev.each (fs.filter (fun f => f.acc == .rc)) (fun f d => d.wr f f.dflt inst (off - f.off)) d)

/-- Number of a thread state (R268). -/
def ThreadState.code : ThreadState → Nat
  | .idle => 0
  | .ready => 1
  | .waiting => 2
  | .stopped => 3
  | .stopPending => 4

/-- SET_STATUS. -/
def Dev.setStatus (d : Dev) (p : Nat) : Nat :=
  let s := d.siteAt p
  let stopped := s.threads.vals.any (fun t => t.state == .stopped || t.state == .stopPending)
  (s.threads.vals.filter (fun t => t.item.isSome)).length + 256 * s.input.length + 2 ^ 18 * stopped.toNat +
    2 ^ 19 * (d.csWritable p).toNat

/-- SET_DBG_STATE, SET_DBG_CHAN, SET_DBG_STACK and SET_DBG_REG of the selected thread (R262, R268); `moving` words of a closed message
are still in its stage. -/
def Thread.debugWord (t : Thread) (moving off : Nat) : Nat :=
  if off = 0x308 then
    t.state.code + 8 * t.pc + 2 ^ 17 * t.stack.length + 2 ^ 21 * ((t.wait.map Wait.cond).getD 0) + 2 ^ 28 * t.sendChan.isSome.toNat +
      2 ^ 29 * t.readChan.isSome.toNat + 2 ^ 30 * t.item.isSome.toNat
  else if off = 0x30C then t.sendChan.getD 0 + 64 * (t.stage.length + moving) + 1024 * ((t.readChan.map Prod.fst).getD 0)
  else if 0x310 ≤ off ∧ off < 0x320 then
    let k := (off - 0x310) / 4
    t.stack.reverse.getD (2 * k) 0 + 65536 * t.stack.reverse.getD (2 * k + 1) 0
  else if 0x340 ≤ off ∧ off < 0x3C0 ∧ t.state = .stopped then
    bits (t.reg ((off - 0x340) / 8)).toNat (if (off - 0x340) % 8 = 0 then 0 else 32) 32
  else 0

/-- A SET_DBG register of position `p`. -/
def Dev.debugWord (d : Dev) (p off : Nat) : Nat :=
  let t := d.thread p (d.rd R.SET_DBG_SELECT_thread p)
  t.debugWord ((t.delivering.map (fun c => (d.setChan p c).delivery.length)).getD 0) off

/-- A pop of SET_FAULT_FIFO. -/
def Dev.popFault (p : Nat) (d : Dev) : Nat × Dev :=
  match (d.siteAt p).faults with
  | [] => (0, d)
  | w :: rest => (w, d.onSite p (fun s => { s with faults := rest }))

/-- PCX_TAGS (R122, R126): outstanding requests, and tags held back after FLR. -/
def Dev.tagsWord (d : Dev) (link : Nat) : Nat :=
  let l := (d.link link).reads
  l.size + 65536 * (l.filter (fun _ r => r.quarantined)).size

/-- STO_DEEP_USED: whole MiB in use (notes/assumptions/44.md). -/
def Dev.deepUsed (d : Dev) : Nat := d.deepHeld / 2 ^ 20 % 65536

/-- TMP_DOM_NS to TMP_DOM_UNC of domain `k` (R369): a read of NS latches the others for its reader. -/
def Dev.readDomain (mid k r : Nat) (d : Dev) : Nat × Dev :=
  let l := d.latchOf mid k
  if r = 0x08 then ((d.dom k).ns, d.latchDomain mid k)
  else if r = 0x0C then (l.sec % 2 ^ 32, d)
  else if r = 0x10 then (l.sec / 2 ^ 32, d)
  else if r = 0x14 then (l.frac, d)
  else (l.unc + 65536 * d.rd R.TMP_DOM_UNC_valid 0 (128 * k) + 2 ^ 17 * d.rd R.TMP_DOM_UNC_holdover 0 (128 * k) +
    2 ^ 18 * d.rd R.TMP_DOM_UNC_step_refused 0 (128 * k), d)

/-- MBX_BIND_DATA of the selected channel (R407). -/
def Dev.bindData (d : Dev) : Nat :=
  match d.binding (d.rd R.MBX_BIND_SELECT_channel) with
  | some (t, r) => t + 65536 * r
  | none => 0

/-- Is the offset one of TMP_DOM_NS to TMP_DOM_UNC of a domain? -/
def isDomainOff (off : Nat) : Bool := 0x100 ≤ off && off < 0x200 && 0x08 ≤ off % 0x80 && off % 0x80 ≤ 0x18

/-- A read of a register that exists, by a master that reaches it. -/
def Dev.readLive (mid unit inst off : Nat) (d : Dev) : Nat × Dev :=
  if unit = 0x10 ∧ off = 0x28 then (d.tagsWord inst, d)
  else if unit = 0x20 ∧ off = 0x10 then d.popRingError
  else if unit = 0x20 ∧ off = 0x28 then (d.ctxCache.length, d)
  else if unit = 0x21 ∧ off = 0x04 then (((List.range 34).map d.occupancy).sum, d)
  else if unit = 0x21 ∧ off = 0x30 then d.popFailure
  else if unit = 0x21 ∧ 0x100 ≤ off ∧ off < 0x188 then (d.occupancy ((off - 0x100) / 4), d)
  else if unit = 0x31 ∧ off = 0x48 then d.popCompare
  else if unit = 0x41 ∧ off = 0x00 then (d.setStatus inst, d)
  else if unit = 0x41 ∧ off = 0x0C then d.popFault inst
  else if unit = 0x41 ∧ 0x308 ≤ off then (d.debugWord inst off, d)
  else if unit = 0x50 ∧ off = 0x00 then ((d.wr R.CRY_INST_STATUS_busy (d.cryBusy inst).toNat inst).plainRead unit inst off |>.1, d)
  else if unit = 0x51 ∧ off = 0x04 then (d.deepUsed, d)
  else if unit = 0x71 ∧ 0x10000 ≤ off ∧ off % 8 = 0 then d.readMacCount ((off - 0x10000) / 256) (off % 256 / 8)
  else if unit = 0x80 ∧ isDomainOff off then d.readDomain mid ((off - 0x100) / 128) (off % 128)
  else if unit = 0x90 ∧ off = 0x18 then (d.bindData, d)
  else d.plainRead unit (bankOf mid unit inst off) off

/-- A 32-bit read of a unit window by a master. Channel blocks look at the MID themselves (R397). -/
def Dev.readReg (mid unit inst off : Nat) (d : Dev) : Nat × Dev :=
  if unit = 0x90 ∧ 0x10000 ≤ off then
    (if 0x490000 ≤ off then (0, d) else d.mbxRead mid ((off - 0x10000) / 256) (off % 256 / 4 * 4))
  else if d.mayReach mid unit inst && d.registerLive unit inst off then d.readLive mid unit inst off
  else (0, d)

/-- A word of the S44 registers of a VF (R429). -/
def Dev.readS44 (fn off : Nat) (d : Dev) : Nat :=
  if off = 0x08 then (d.inReset fn).toNat + 2 * (d.s44LinkUp fn).toNat
  else if off = 0x0C then ((d.fn fn).props.macs.headD 0) % 2 ^ 32
  else if off = 0x10 then ((d.fn fn).props.macs.headD 0) / 2 ^ 32
  else (d.plainRead 0x4400 fn off).1

/-! ## Stored ranges -/

/-- `n` with the field from `lsb` on, `w` bits wide, made `v`. -/
def putBits (n lsb w v : Nat) : Nat := n - 2 ^ lsb * bits n lsb w + 2 ^ lsb * (v % 2 ^ w)

/-- Clamp a value to a range. -/
def clampTo (lo hi v : Nat) : Nat := max lo (min hi v)

/-- The two lowest-numbered marks of a priority field (R244). -/
def firstTwo (v : Nat) : Nat := (((List.range 8).filter (hasBit v)).take 2).foldl (fun m b => m + 2 ^ b) 0

/-- The word that is stored where a register keeps a written value in its range (R94, R99, R224, R225, R228, R244, R312, R331,
R333, R349, R353, R465, and the field tables). -/
def Dev.storedWord (d : Dev) (unit off v : Nat) : Nat :=
  if unit = 0x03 ∧ off = 0x10 then putBits v 0 16 (clampTo 0x6666 0x8CCD (bits v 0 16))
  else if unit = 0x03 ∧ off = 0x14 then putBits v 0 9 (clampTo 150 300 (bits v 0 9))
  else if unit = 0x31 ∧ off = 0x08 then putBits v 0 16 (max 10 (bits v 0 16))
  else if unit = 0x31 ∧ off = 0x0C then putBits v 16 3 (max 2 (bits v 16 3))
  else if unit = 0x31 ∧ 0x100 ≤ off ∧ off < 0x300 ∧ off % 32 = 0x1C then
    putBits v 0 31 (max (2 * d.rd R.MTB_AGE_CONFIG_stamp_grain) (bits v 0 31))
  else if unit = 0x41 ∧ 0x100 ≤ off ∧ off < 0x140 then putBits v 8 8 (firstTwo (bits v 8 8))
  else if unit = 0x50 ∧ 0x1000 ≤ off ∧ off % 8 = 4 then putBits v 24 5 (min 16 (bits v 24 5))
  else if unit = 0x60 ∧ off = 0x00 then putBits v 0 11 (max 64 (bits v 0 11))
  else if unit = 0x61 ∧ off = 0x00 then putBits (putBits v 0 3 (min 6 (bits v 0 3))) 3 10 (min 1000 (bits v 3 10))
  else if unit = 0x71 ∧ 0x800 ≤ off ∧ off < 0x1800 ∧ off % 16 = 0 then
    putBits (putBits v 0 15 (clampTo 64 16384 (bits v 0 15))) 15 2 (if bits v 15 2 = 3 then 0 else bits v 15 2)
  else if unit = 0x71 ∧ 0x800 ≤ off ∧ off < 0x1800 ∧ off % 16 = 12 then
    let xoff := max 1 (bits v 0 4)
    putBits (putBits v 0 4 xoff) 4 4 (min (xoff - 1) (bits v 4 4))
  else if unit = 0xA0 ∧ off = 0x10 then putBits v 0 11 (clampTo 16 2032 (bits v 0 11))
  else v

/-! ## Writes -/

/-- A write by the access codes of the fields (R8). The start-up lock is set whenever software can write, so an RWL field ignores it. -/
def Dev.plainWrite (unit inst off v : Nat) (d : Dev) : Dev :=
  Dev.each (fieldsAt unit inst off) (fun f d =>
    let a := off - f.off
    match f.acc with
    | .rw => d.wr f (bits v f.lsb f.width) inst a
    | .w1c => d.wr f (Nat.land (d.rd f inst a) (2 ^ f.width - 1 - bits v f.lsb f.width)) inst a
    | _ => d) d

/-- DMA_CMD (R325, R334, R336). -/
def Dev.dmaCommand (mid c op : Nat) (d : Dev) : Dev :=
  if op = 1 then d.dmaStart mid c
  else if op = 2 then d.dmaStopOp c
  else if op = 3 then d.dmaResumeOp c
  else if op = 4 then d.dmaRequestOp c
  else d

/-- TMP_DOM and TMP_SLOT commands (R368, R380, R387). -/
def Dev.domainCommand (k op : Nat) (d : Dev) : Dev := if op = 1 then d.domainSet k else if op = 2 then d.domainAdd k else d
def Dev.slotCommand (n v : Nat) (d : Dev) : Dev :=
  if bits v 0 2 = 1 then d.arm n else if bits v 0 2 = 2 then d.disarm n else if bits v 0 2 = 3 then d.switchSlot n (bit v 2) else d

/-- SET_DBG_CMD (R262). -/
def Dev.dbgCommand (p cmd : Nat) (d : Dev) : Dev :=
  let t := d.rd R.SET_DBG_SELECT_thread p
  if cmd = 1 then d.dbgStop p t
  else if cmd = 2 then d.dbgResume p t
  else if cmd = 3 then d.dbgStepOp p t
  else if cmd = 4 then d.dbgKillOp p t
  else d

/-- MTB_CMD of a port (R222): the op with its table, stage and irq. -/
def Dev.mtbCommand (mid p v : Nat) (d : Dev) : Dev :=
  let t := bits v 4 4
  let run (act : Dev → PortRun × Dev) : Dev := d.runPort mid p (hasBit v 10) act
  match bits v 0 4 with
  | 1 => run (Dev.onTable t 1 false (Dev.mtbRead p t))
  | 2 => run (Dev.onTable t 1 true (Dev.startPut p t .write))
  | 3 => run (Dev.onTable t 1 true (Dev.startPut p t .insert))
  | 4 => run (Dev.onTable t 1 true (Dev.startPut p t .delete))
  | 5 => run (Dev.onTable t 1 false (Dev.mtbSearch p t false))
  | 6 => run (Dev.onTable t 1 false (Dev.mtbSearch p t true))
  | 7 => run (Dev.mtbStageOp p (bits v 8 2))
  | 8 => run (Dev.onTable t 2 true (Dev.mtbDirectPut p t))
  | 9 => run (Dev.onTable t 2 false (Dev.mtbDirectGet p t))
  | 10 => run (Dev.prefixAdd p)
  | 11 => run (Dev.prefixDelete p)
  | 12 => run (Dev.prefixSearch p)
  | 13 => run (Dev.ternaryPut p)
  | 14 => run (Dev.ternaryGet p)
  | _ => run (fun d => ({ result := 4 }, d))

/-- STP_CTRL (R460, R470): link_enable taken away takes the port down; given, it trains. -/
def Dev.stpControlWrite (v : Nat) (d : Dev) : Dev :=
  let was := d.on R.STP_CTRL_link_enable
  let d := d.plainWrite 0xA0 0 0 v
  if was && !hasBit v 0 then
    (if 1 ≤ d.stpState ∧ d.stpState ≤ 4 then d.stpDown 5 else d).onStp (fun s => { s with waits := false })
  else if !was && hasBit v 0 then d.stpTrain
  else d

/-- Is a seed of MTB one whose writes are ignored (R219): of the current generation, or of a table being rehashed? -/
def Dev.seedHeld (d : Dev) (t gen : Nat) : Bool :=
  d.rd R.MTB_TABLE_GEN_cur_gen 0 (32 * t) == gen || (d.on R.MTB_STATUS_rehash_active && d.rd R.MTB_STATUS_rehash_table == t)

/-- A write of the MTB window (R219-R221, R230). -/
def Dev.writeMtb (mid off v : Nat) (d : Dev) : Dev :=
  if 0x1000 ≤ off then
    let p := (off - 0x1000) / 256
    if 16 ≤ p then d
    else if mid ≠ midFn p then (d.bump R.MTB_WRONG_PORT_count).cause mtbCauses 10
    else if off % 256 = 0 then d.mtbCommand mid p v
    else d.plainWrite 0x31 0 off v
  else if off = 0x1C then
    (if bits v 4 2 = 1 then d.rehashStart (bits v 0 4) else if bits v 4 2 = 2 then d.rehashResume (bits v 0 4) else d)
  else if off = 0x3C then
    let d := d.plainWrite 0x31 0 off v
    if hasBit v 8 then d.compareStart else d
  else if 0x100 ≤ off ∧ off < 0x300 ∧ 0x08 ≤ off % 32 ∧ off % 32 ≤ 0x14 then
    (if d.seedHeld ((off - 0x100) / 32) ((off % 32 - 8) / 8) then d else d.plainWrite 0x31 0 off v)
  else d.plainWrite 0x31 0 off (d.storedWord 0x31 off v)

/-- A write of the TMP window. -/
def Dev.writeTmp (off v : Nat) (d : Dev) : Dev :=
  if off = 0x20 then (if hasBit v 0 then d.snapshotTime else d)
  else if 0x40 ≤ off ∧ off < 0x50 then d.pinConfig ((off - 0x40) / 4) v
  else if 0x100 ≤ off ∧ off < 0x200 then
    let k := (off - 0x100) / 128
    if off % 128 = 0x04 then d.commitInc k v
    else if off % 128 = 0x1C then d.anchor k v
    else if off % 128 = 0x40 then d.domainCommand k (bits v 0 2)
    else d.plainWrite 0x80 0 off v
  else if 0x1000 ≤ off ∧ off < 0x3000 ∧ off % 64 = 0x20 then d.slotCommand ((off - 0x1000) / 64) v
  else d.plainWrite 0x80 0 off v

/-- A write of a SET window (R262, R265). -/
def Dev.writeSet (mid p off v : Nat) (d : Dev) : Dev :=
  if off = 0x300 then (if mid = midDebug then d.plainWrite 0x41 p off v else d)
  else if off = 0x304 then (if mid = midDebug then d.dbgCommand p (bits v 0 3) else d)
  else if off = 0x208 then
    (if hasBit v 1 then (if isCoreMid mid then d.csWrite p else d) else if hasBit v 0 then d.csRead p else d)
  else d.plainWrite 0x41 p off (d.storedWord 0x41 off v)

/-- A write of the EVT window by a PF in its bank; a control core only triggers (R411, R415). -/
def Dev.writeEvt (mid off v : Nat) (d : Dev) : Dev :=
  let pf := mid - 0x1000
  if off = 0x00 then (if isFnMid mid || isCoreMid mid then d.swTrigger (v % 1024) else d)
  else if off = 0x0C then (if isFnMid mid then d.endOfInterrupt pf (v % 512) else d)
  else if 0x1000 ≤ off ∧ off < 0x1600 then (if isFnMid mid then d.writeRoute pf ((off - 0x1000) / 4) v else d)
  else d.plainWrite 0x91 (bankOf mid 0x91 0 off) off v

/-- A write of a register that exists, by a master that reaches it. -/
def Dev.writeLive (mid unit inst off v : Nat) (d : Dev) : Dev :=
  match causesOf unit off with
  | some c => d.writeMask c (if c.perInst = 1 then inst else 0) v
  | none =>
    if unit = 0x03 ∧ (off = 0x10 ∨ off = 0x14) then (d.plainWrite 0x03 0 off (d.storedWord 0x03 off v)).checkBoost
    else if unit = 0x03 ∧ off = 0x38 then
      (if 48 ≤ bits v 0 6 then d else if bits v 6 2 = 1 then d.domainOff (bits v 0 6) else if bits v 6 2 = 2 then d.domainWake (bits v 0 6) else d)
    else if unit = 0x10 ∧ off = 0x2C then (if hasBit v 0 then d.p2pCommit inst else d)
    else if unit = 0x20 ∧ off = 0x04 then (if hasBit v 0 then d.ctxSnapStart mid (d.rd R.QMG_CTX_SELECT_ring) else d)
    else if unit = 0x31 then d.writeMtb mid off v
    else if unit = 0x41 then d.writeSet mid inst off v
    else if unit = 0x50 ∧ off = 0x144 then (if hasBit v 0 then d.crySnapStart mid (d.rd R.CRY_CTX_SELECT_context) else d)
    else if unit = 0x60 ∧ off = 0x24 then
      (if bits v 0 2 = 1 then d.nodeCommand mid false else if bits v 0 2 = 2 then d.nodeCommand mid true else d)
    else if unit = 0x61 ∧ off = 0x18 then d.dmaCommand mid inst (bits v 0 3)
    else if unit = 0x61 ∧ off = 0x08 then (if isCoreMid mid || mid == midDebug then d.plainWrite 0x61 inst off v else d)
    else if unit = 0x71 ∧ 0x100 ≤ off ∧ off < 0x300 ∧ off % 16 = 8 then (if hasBit v 0 then d.flexeCommand ((off - 0x100) / 16) else d)
    else if unit = 0x71 then (d.plainWrite 0x71 0 off (d.storedWord 0x71 off v)).macWritten off
    else if unit = 0x80 then d.writeTmp off v
    else if unit = 0x91 then d.writeEvt mid off v
    else if unit = 0x92 ∧ off = 0x1C then d.faultAck v
    else if unit = 0xA0 ∧ off = 0x00 then d.stpControlWrite v
    else d.plainWrite unit (bankOf mid unit inst off) off (d.storedWord unit off v)

/-- A write of a VF's S44 registers (R429, R430). -/
def Dev.writeS44 (fn off v : Nat) (d : Dev) : Dev :=
  if off = 0x04 then (if hasBit v 0 then d.s44Reset fn else d)
  else if 0x900 ≤ off ∧ off < 0xA00 then
    let q := (off - 0x900) / 4
    if hasBit v 19 then d.s44Enable fn q v else (d.s44Disable fn q v).goOnJobs
  else if 0x100 ≤ off ∧ off < 0x900 then
    let q := (off - 0x100) / 32
    if d.s44Open fn q && !d.on R.S44_Q_CTRL_enable fn (4 * q) then d.plainWrite 0x4400 fn off v else d
  else d

/-- The number that names the writing function's own MSI-X table as a unit (notes/assumptions/46.md); no unit type is as large (R39). -/
def msixUnit : Nat := 0x10000

/-- A word of an entry of the MSI-X table: address, data, vector control with the steering tag in its upper half (PRESUMED, Base
specification, notes/assumptions/48.md). -/
def Dev.writeVector (fn off v : Nat) (d : Dev) : Dev :=
  let n := off / 16
  if d.msixSize fn ≤ n then d
  else
    let put (f : Vec → Vec) : Dev := d.onFn fn (fun x => { x with vecs := x.vecs.upd n {} f })
    if off % 16 = 0 then put (fun e => { e with addr := e.addr / 2 ^ 32 * 2 ^ 32 + v })
    else if off % 16 = 4 then put (fun e => { e with addr := e.addr % 2 ^ 32 + 2 ^ 32 * v })
    else if off % 16 = 8 then put (fun e => { e with data := v })
    else (put (fun e => { e with masked := hasBit v 0, steering := bits v 16 16 })).releaseVector fn n

/-- May writes of a function's BARs act (R119, R126)? The functions of a link in reset are in reset themselves. -/
def Dev.barOpen (d : Dev) (mid : Nat) : Bool := !isFnMid mid || d.doorbellOpen (mid - 0x1000)

/-- A 32-bit write of a window by a master (R5, R8). -/
def Dev.writeReg (mid unit inst off v : Nat) (d : Dev) : Dev :=
  let fn := mid - 0x1000
  if !d.barOpen mid then d
  else if unit = 0x90 ∧ 0x10000 ≤ off then (if 0x490000 ≤ off then d else d.mbxWrite mid ((off - 0x10000) / 256) (off % 256) v)
  else if unit = msixUnit then (if isFnMid mid then d.writeVector fn off v else d)
  else if unit = 0x4400 then (if isFnMid mid && d.isS44 fn then d.writeS44 fn off v else d)
  else if unit = 0x51 ∧ isFnMid mid = true ∧ 16 ≤ fn then d.nvmeWrite fn off v
  else if d.mayReach mid unit inst && d.registerLive unit inst off then d.writeLive mid unit inst off v
  else d

/-- BOOT_CMD (R64, R77-R81): a wrong key or an unknown command is ignored. -/
def State.bootCommand (v : Nat) (s : State) : State :=
  if bits v 16 16 ≠ 0xA5C3 then s
  else if bits v 0 16 = 1 then s.snapStart
  else if bits v 0 16 = 2 then { s with dev := { s.dev with boot := { s.dev.boot with shutdown := true } } }
  else if bits v 0 16 = 3 then s.confirmTrial
  else if bits v 0 16 = 4 then s.discard
  else if bits v 0 16 = 5 then { s with dev := s.dev.beginService 5 }
  else s

/-- One 32-bit write; outside service it is ignored (R83, R453), but one that withheld credits keep on its link acts when they are
released. -/
def State.writeWord (mid unit inst off v : Nat) (s : State) : State :=
  if isFnMid mid && s.dev.withholds (mid - 0x1000) then { s with dev := s.dev.withhold (.register mid unit inst off v) }
  else if s.dev.phase ≠ .running then s
  else if unit = 0x02 ∧ off = 0x14 then
    (if s.dev.barOpen mid && s.dev.mayReach mid unit inst then s.bootCommand v else s)
  else { s with dev := s.dev.writeReg mid unit inst off v }

/-- REGISTER_WRITE of `bytes` bytes at `off`: carried out as 32-bit accesses in ascending order; a part narrower than 32 bits is
ignored (R5, R119). -/
def execRegisterWrite (mid unit inst off bytes value : Nat) (s : State) : Out :=
  let first := (off + 3) / 4
  let count := (off + bytes) / 4 - first
  .next ((List.range count).foldl (fun s k =>
    s.writeWord mid unit inst (4 * (first + k)) (bits value (8 * (4 * (first + k) - off)) 32)) s)

/-- A posted write that waited on its link acts. -/
def State.releaseWrite (w : HeldWrite) (s : State) : State :=
  match w with
  | .doorbell fn page slot word value => { s with dev := s.dev.doorbellArrives fn page slot word value }
  | .register mid unit inst off value => s.writeWord mid unit inst off value

/-- The link that a waiting write came over. -/
def Dev.heldLink (d : Dev) : HeldWrite → Nat
  | .doorbell fn _ _ _ _ => d.linkOf fn
  | .register mid _ _ _ _ => d.linkOf (mid - 0x1000)

/-- Replay has drained the log: the link's posted credits are released, and the writes that they kept on it arrive in order (R83). -/
def State.releaseLink (link : Nat) (s : State) : State :=
  let b := s.dev.boot
  let (mine, rest) := b.withheld.partition (fun w => s.dev.heldLink w == link)
  let s := { s with dev := { s.dev with boot := { b with logFull := b.logFull.filter (· != link), withheld := rest } } }
  mine.foldl (fun s w => s.releaseWrite w) s

/-- DOORBELL_LOG_DRAINED: replay has begun, and the log has been drained. -/
def execDoorbellLogDrained (link : Nat) (s : State) : Out :=
  let s := s.finishService
  .next (if s.dev.phase = .running then s.releaseLink link else s)

end Sys2Proof.Machine
end

