-- ==== Sys2Proof/Machine/Access.lean ====
section
/-!
DEFINITION. What a host link brings to the device as a completer and requester (R83, R114-R119, R122-R128): configuration
requests, memory reads of the BARs, and the completions of its own reads.
-/

namespace Sys2Proof.Machine

/-! ## Configuration space (R113-R115) -/

/-- First VF Offset of a PF (R114). -/
def Dev.firstVfOffset (d : Dev) (pf : Nat) : Nat :=
  match d.pf? pf with
  | none => 0
  | some p =>
    let others := d.identity.pfs.filter (fun q => q.2.present && q.2.link == p.link)
    if p.function = 0 then others.length
    else 1 + ((others.find? (fun q => q.2.function == 0)).map (fun q => q.2.totalVfs)).getD 0

/-- Device ID of the VFs of a PF. -/
def Dev.vfDeviceId (d : Dev) (pf : Nat) : Nat := if ((d.pf? pf).map PfRec.vfKind) = some 1 then 0x4401 else 0x96F0

/-- Does a function have a capability (R115, R116)? That the physical-layer and LTR capabilities stand in function 0 alone is the Base
specification's (PRESUMED, notes/assumptions/48.md). -/
def Dev.hasCap (d : Dev) (fn : Nat) (c : PciCap) : Bool :=
  let pf := fn < 16
  let first := pf && ((d.pf? fn).map PfRec.function) == some 0
  match c with
  | .powerManagement => true
  | .msix => true
  | .pciExpress => true
  | .aer => true
  | .ats => true
  | .pasid => true
  | .tph => true
  | .sriov => pf
  | .doe => pf
  | .dvsec => pf
  | .ari => first
  | .ltr => first
  | .ide => first && d.on R.PCX_LINK_SHAPE_ide_enabled (d.linkOf fn)
  | .dataLinkFeature => first
  | .physicalLayer => first
  | .laneMargining => first
  | .flitLogging => first
  | .msi => false
  | .acs => false
  | .resizableBar => false
  | .readinessTime => false
  | .l1Substates => false
  | .pageRequest => false

/-- A BAR register (R117): the address bits above the size that software wrote, and the type bits: 64-bit, BAR2 prefetchable. A VF has
no BAR registers of its own (Base specification, PRESUMED, notes/assumptions/48.md). -/
def Dev.barValue (d : Dev) (fn n : Nat) : Nat :=
  match if fn < 16 then d.pf? fn else none with
  | none => 0
  | some p =>
    let v := (d.fn fn).bars.getD n 0
    match n with
    | 0 => v / 2 ^ p.bar0Log2 * 2 ^ p.bar0Log2 + 4
    | 2 => v / 2 ^ p.bar2Log2 * 2 ^ p.bar2Log2 + 12
    | 4 => v / 2 ^ 16 * 2 ^ 16 + 4
    | 1 => v
    | 3 => v
    | 5 => v
    | _ => 0

/-- VF BAR0 and VF BAR1 of a PF (R118): 64-bit, not prefetchable, sized for one VF. -/
def Dev.vfBarValue (d : Dev) (fn n : Nat) : Nat :=
  match if fn < 16 then d.pf? fn else none with
  | none => 0
  | some p =>
    let v := (d.fn fn).vfBars.getD n 0
    if n = 0 then v / 2 ^ p.vfBar0Log2 * 2 ^ p.vfBar0Log2 + 4 else v

/-- The value of a configuration field. The class code of an S4400 VF is one that the spec does not state. -/
def Dev.cfgRead (fn : Nat) (f : CfgField) (d : Dev) : Nat × Dev :=
  let x := d.fn fn
  let pf := fn < 16
  match f with
  | .vendorId => (0x1E8C, d)
  | .deviceId => (if pf then d.die.variant.code else d.vfDeviceId (d.pfOf fn), d)
  | .classCode =>
    if d.vfKind fn = 2 then (0x010802, d)
    else if d.vfKind fn = 1 then (d.free.1 % 2 ^ 24, d.free.2)
    else (0x020000, d)
  | .revisionId => (d.die.stepping % 256, d)
  | .subsysVendor => (d.identity.subsysVendor, d)
  | .subsysId => (d.identity.subsysDevice, d)
  | .interruptPin => (0, d)
  | .busMaster => (x.busMaster.toNat, d)
  | .memorySpace => (x.memSpace.toNat, d)
  | .maxPayload => (x.maxPayload, d)
  | .maxReadRequest => (x.maxRead, d)
  | .tagWidth => (x.tagBits, d)
  | .relaxedOrdering => (x.relaxedOrdering.toNat, d)
  | .noSnoop => (x.noSnoop.toNat, d)
  | .ctoRange => (x.ctoRange, d)
  | .initiateFlr => (0, d)
  | .msixEnable => (x.msixEnable.toNat, d)
  | .msixFunctionMask => (x.msixMask.toNat, d)
  | .msixTableSize => (d.msixSize fn, d)
  | .vfEnable => (x.vfEnable.toNat, d)
  | .numVfs => (x.numVfs, d)
  | .totalVfs => (if pf then ((d.pf? fn).map PfRec.totalVfs).getD 0 else 0, d)
  | .firstVfOffset => (if pf then d.firstVfOffset fn else 0, d)
  | .vfStride => (if pf then 1 else 0, d)
  | .vfDeviceId => (if pf then d.vfDeviceId fn else 0, d)
  | .systemPageSize => (x.pageSize64.toNat, d)
  | .romEnable => (x.romEnable.toNat, d)
  | .powerState => (if x.d3 then 3 else 0, d)
  | .aspmL1 => (x.aspmL1.toNat, d)
  | .atsEnable => (x.atsEnable.toNat, d)
  | .atsQueueDepth => (32, d)
  | .pasidEnable => (x.pasidEnable.toNat, d)
  | .tphEnable => (x.tphEnable.toNat, d)
  | .dvsecVendor => (if pf then 0x1E8C else 0, d)
  | .dvsecId => (if pf then 1 else 0, d)
  | .dvsecBar => (0, d)
  | .dvsecOffset => (0, d)
  | .dvsecFormat => (if pf then formatMajor else 0, d)
  | .ideCapability => ((d.hasCap fn .ide).toNat, d)
  | .capability c => ((d.hasCap fn c).toNat, d)
  | .bar n => (d.barValue fn n, d)
  | .romBar => (if pf then x.romBar / 65536 * 65536 + x.romEnable.toNat else 0, d)
  | .vfBar n => (d.vfBarValue fn n, d)
  | .msixTableBir => (if pf then 4 else 0, d)
  | .msixTableOffset => (if pf then 0 else 0x8000, d)
  | .msixPbaBir => (if pf then 4 else 0, d)
  | .msixPbaOffset => (if pf then 0x8000 else 0x9000, d)
  | .maxPayloadSupported => (512, d)
  | .tagWidthSupported => (14, d)
  | .flrCapable => (1, d)
  | .ctoRanges => (7, d)
  | .ctoDisable => (0, d)
  | .extendedSynch => (0, d)
  | .noSoftReset => (1, d)
  | .d1Support => (0, d)
  | .d2Support => (0, d)
  | .pmeSupport => (0, d)
  | .aerUncorStatus => (x.aer.uncor, d)
  | .aerUncorMask => (x.aer.uncorMask, d)
  | .aerUncorSeverity => (x.aer.severity, d)
  | .aerCorStatus => (x.aer.cor, d)
  | .aerCorMask => (x.aer.corMask, d)
  | .aerHeader n => (x.aer.header.getD n 0, d)
  | .aerPrefix n => (x.aer.prefixes.getD n 0, d)
  | .ecrcCapable => (0, d)
  | .initialVfs => (if pf then ((d.pf? fn).map PfRec.totalVfs).getD 0 else 0, d)
  | .supportedPageSizes => (if pf then 0x11 else 0, d)
  | .vfMigration => (0, d)
  | .ariCapableHierarchy => (x.ariHierarchy.toNat, d)
  | .ariNextFunction => (if d.hasCap fn .ari && (d.identity.pfs.filter (fun q => q.2.present && q.2.link == d.linkOf fn)).length == 2 then 1 else 0, d)
  | .atsPageAligned => (1, d)
  | .atsRelaxedOrdering => (0, d)
  | .atsStu => (x.atsStu, d)
  | .pasidWidth => (20, d)
  | .pasidExecute => (0, d)
  | .pasidPrivileged => (0, d)
  | .tphTableLocation => (2, d)
  | .tphDeviceSpecific => (0, d)
  | .tphExtended => (1, d)
  | .ltrEnable => (x.ltrEnable.toNat, d)
  | .ltrMaxSnoop => (x.ltrSnoop, d)
  | .ltrMaxNoSnoop => (x.ltrNoSnoop, d)

/-- Pending messages that nothing holds any longer leave. -/
def Dev.releaseVectors (fn : Nat) (d : Dev) : Dev := Dev.each (d.fn fn).vecs.keys (fun v d => d.releaseVector fn v) d

/-- D3hot and D0 (R115): in D3hot the function issues nothing and keeps all its state. -/
def Dev.powerState (fn v : Nat) (d : Dev) : Dev :=
  if v = 3 ∧ (d.fn fn).d3 = false then (d.onFn fn (fun f => { f with d3 := true })).haltFn fn
  else if v = 0 ∧ (d.fn fn).d3 = true then
    let d := d.onFn fn (fun f => { f with d3 := false })
    if (d.fn fn).busMaster then d.resumeFn fn else d
  else d

/-- Latency Tolerance Reporting is switched (R115): a link in L0 reports its two latencies, which no rule states. -/
def Dev.ltrSet (fn : Nat) (on : Bool) (d : Dev) : Dev :=
  let d := d.onFn fn (fun x => { x with ltrEnable := on })
  if on && d.rd R.PCX_LINK_STATUS_state (d.linkOf fn) == 3 then
    let (a, d) := d.free
    let (b, d) := d.free
    d.emit (.ltr fn (a % 65536) (b % 65536))
  else d

/-- A write of a configuration field. A field the function has not, a read-only field and a value that is no supported option
(R115) change nothing. -/
def Dev.cfgWrite (fn : Nat) (f : CfgField) (v : Nat) (d : Dev) : Dev :=
  let on := v % 2 == 1
  let pf := fn < 16
  let put (g : Func → Func) : Dev := d.onFn fn g
  match f with
  | .busMaster => if on then d.bmeSet fn else d.bmeClear fn
  | .memorySpace => put (fun x => { x with memSpace := on })
  | .maxPayload => if [128, 256, 512].contains v then put (fun x => { x with maxPayload := v }) else d
  | .maxReadRequest => if [128, 256, 512, 1024, 2048, 4096].contains v then put (fun x => { x with maxRead := v }) else d
  | .tagWidth => if [8, 10, 14].contains v then put (fun x => { x with tagBits := v }) else d
  | .relaxedOrdering => put (fun x => { x with relaxedOrdering := on })
  | .noSnoop => put (fun x => { x with noSnoop := on })
  | .ctoRange => if v ≤ 3 then put (fun x => { x with ctoRange := v }) else d
  | .initiateFlr => if on then d.flr fn else d
  | .msixEnable => (put (fun x => { x with msixEnable := on })).releaseVectors fn
  | .msixFunctionMask => (put (fun x => { x with msixMask := on })).releaseVectors fn
  | .vfEnable => if !pf then d else if on then d.vfEnableSet fn (d.fn fn).numVfs else d.vfEnableClear fn
  | .numVfs => if pf && !(d.fn fn).vfEnable then put (fun x => { x with numVfs := v % 65536 }) else d
  | .systemPageSize => if pf && !(d.fn fn).vfEnable then put (fun x => { x with pageSize64 := on }) else d
  | .romEnable => if pf then put (fun x => { x with romEnable := on }) else d
  | .powerState => d.powerState fn v
  | .aspmL1 => put (fun x => { x with aspmL1 := on })
  | .atsEnable => (put (fun x => { x with atsEnable := on })).dropTranslations fn
  | .pasidEnable => put (fun x => { x with pasidEnable := on })
  | .tphEnable => put (fun x => { x with tphEnable := on })
  | .vendorId => d
  | .deviceId => d
  | .classCode => d
  | .revisionId => d
  | .subsysVendor => d
  | .subsysId => d
  | .interruptPin => d
  | .msixTableSize => d
  | .totalVfs => d
  | .firstVfOffset => d
  | .vfStride => d
  | .vfDeviceId => d
  | .atsQueueDepth => d
  | .dvsecVendor => d
  | .dvsecId => d
  | .dvsecBar => d
  | .ideCapability => d
  | .bar n => if pf then put (fun x => { x with bars := x.bars.set n (v % 2 ^ 32) }) else d
  | .romBar => if pf then put (fun x => { x with romBar := v % 2 ^ 32, romEnable := on }) else d
  | .vfBar n => if pf then put (fun x => { x with vfBars := x.vfBars.set n (v % 2 ^ 32) }) else d
  | .aerUncorStatus => put (fun x => { x with aer := { x.aer with uncor := x.aer.uncor &&& ((2 ^ 32 - 1) ^^^ (v % 2 ^ 32)) } })
  | .aerUncorMask => put (fun x => { x with aer := { x.aer with uncorMask := v % 2 ^ 32 } })
  | .aerUncorSeverity => put (fun x => { x with aer := { x.aer with severity := v % 2 ^ 32 } })
  | .aerCorStatus => put (fun x => { x with aer := { x.aer with cor := x.aer.cor &&& ((2 ^ 32 - 1) ^^^ (v % 2 ^ 32)) } })
  | .aerCorMask => put (fun x => { x with aer := { x.aer with corMask := v % 2 ^ 32 } })
  | .ariCapableHierarchy => if pf then put (fun x => { x with ariHierarchy := on }) else d
  | .atsStu => put (fun x => { x with atsStu := v % 32 })
  | .ltrEnable => if d.hasCap fn .ltr then d.ltrSet fn on else d
  | .ltrMaxSnoop => if d.hasCap fn .ltr then put (fun x => { x with ltrSnoop := v % 65536 }) else d
  | .ltrMaxNoSnoop => if d.hasCap fn .ltr then put (fun x => { x with ltrNoSnoop := v % 65536 }) else d
  | .dvsecOffset => d
  | .dvsecFormat => d
  | .msixTableBir => d
  | .msixTableOffset => d
  | .msixPbaBir => d
  | .msixPbaOffset => d
  | .maxPayloadSupported => d
  | .tagWidthSupported => d
  | .flrCapable => d
  | .ctoRanges => d
  | .ctoDisable => d
  | .extendedSynch => d
  | .noSoftReset => d
  | .d1Support => d
  | .d2Support => d
  | .pmeSupport => d
  | .ecrcCapable => d
  | .initialVfs => d
  | .supportedPageSizes => d
  | .vfMigration => d
  | .ariNextFunction => d
  | .atsPageAligned => d
  | .atsRelaxedOrdering => d
  | .pasidWidth => d
  | .pasidExecute => d
  | .pasidPrivileged => d
  | .tphTableLocation => d
  | .tphDeviceSpecific => d
  | .tphExtended => d
  | .capability _ => d
  | .aerHeader _ => d
  | .aerPrefix _ => d

/-- Is a configuration request to the function answered with Request Retry Status (R125 step 7, R126 step 5, R128)? -/
def Dev.cfgRetries (d : Dev) (fn : Nat) : Bool :=
  let l := d.link (d.linkOf fn)
  !l.ready || l.reset != .none || (d.fn fn).reset == .flr || (d.fn fn).reset == .link

/-- A configuration request. Through a service reset and in fault stop a read is answered and a write changes nothing
(notes/assumptions/47.md). -/
def Dev.cfgRequest (fn : Nat) (req : ConfigReq) (d : Dev) : Dev :=
  if !d.formed (d.linkOf fn) then d
  else if d.cfgRetries fn then d.emit (.retryStatus fn)
  else if !d.hasFn fn then d.emit (.unsupported fn)
  else
    let d := d.leaveL1 (d.linkOf fn)
    match req with
    | .read f => (d.cfgRead fn f).2.emit (.configData fn (d.cfgRead fn f).1)
    | .write f v => (if d.phase = .running then d.cfgWrite fn f v else d).emit (.configDone fn)

/-! ## Memory reads (R5, R83, R117-R119) -/

/-- A word of the MSI-X table, and of the Pending Bit Array. -/
def Dev.vectorWord (d : Dev) (fn off : Nat) : Nat :=
  let e := d.vec fn (off / 16)
  if d.msixSize fn ≤ off / 16 then 0
  else if off % 16 / 4 = 0 then e.addr % 2 ^ 32
  else if off % 16 / 4 = 1 then e.addr / 2 ^ 32
  else if off % 16 / 4 = 2 then e.data
  else e.masked.toNat + 65536 * e.steering
def Dev.pendingWord (d : Dev) (fn off : Nat) : Nat :=
  ((List.range 32).map (fun b => if (d.vec fn (8 * (off / 4 * 4) + b)).pending then 2 ^ b else 0)).sum

/-- The read-only Tempo window of a VF (R392). -/
def Dev.vfTempo (fn off : Nat) (d : Dev) : Nat × Dev :=
  if isDomainOff off then d.readDomain (midFn fn) ((off - 0x100) / 128) (off % 128)
  else if off = 0x10 then (d.rd R.TMP_TICKS_LO_value, d)
  else if off = 0x14 then (d.rd R.TMP_TICKS_HI_value, d)
  else (0, d)

/-- The two partner channels of a VF (R396). -/
def Dev.vfChannels (fn off : Nat) (d : Dev) : Nat × Dev :=
  if off < 0x100 then d.mbxRead (midFn fn) (requestChannel fn) off
  else if off < 0x200 then d.mbxRead (midFn fn) (receiveChannel fn) (off - 0x100)
  else (0, d)

/-- A word of a VF's BAR0: its native layout, and that of the S4400 personality (R118, R428). -/
def Dev.vfWord (fn off : Nat) (d : Dev) : Nat × Dev :=
  let s44 := d.isS44 fn
  if off < 0x1000 then (if s44 then (d.readS44 fn off, d) else (d.cardWord fn off, d))
  else if off < 0x2000 then d.vfChannels fn (off - 0x1000)
  else if off < 0x3000 then d.vfTempo fn (off - 0x2000)
  else if off < 0x4000 then (0, d)
  else if off < 0x8000 then
    (if s44 then (if off < 0x5000 then d.doorbellWord fn 0 (off - 0x4000) else 0, d)
     else (if d.isNvme fn then d.nvmeRead fn (off - 0x4000) else 0, d))
  else if off < 0x9000 then (d.vectorWord fn (off - 0x8000), d)
  else if off < 0xA000 then (d.pendingWord fn (off - 0x9000), d)
  else if off < 0xF000 then (0, d)
  else if off < 0x10000 then (if s44 then d.cardWord fn (off - 0xF000) else 0, d)
  else (if s44 then 0 else d.doorbellWord fn ((off - 0x10000) / 4096) (off % 4096), d)

/-- An address with its offset moved to the 32-bit word `k` after the one it lies in. -/
def barAddrWord (a : BarAddr) (k : Nat) : BarAddr :=
  match a with
  | .card o => .card (4 * (o / 4 + k))
  | .window e o => .window e (4 * (o / 4 + k))
  | .doorbell p o => .doorbell (p + (4 * (o / 4 + k)) / 4096) ((4 * (o / 4 + k)) % 4096)
  | .bar4 o => .bar4 (4 * (o / 4 + k))
  | .rom o => .rom (4 * (o / 4 + k))
  | .vf o => .vf (4 * (o / 4 + k))

/-- The offset of an address. -/
def barAddrOffset : BarAddr → Nat
  | .card o => o
  | .window _ o => o
  | .doorbell _ o => o
  | .bar4 o => o
  | .rom o => o
  | .vf o => o

/-- One 32-bit read. -/
def Dev.barWord (fn : Nat) (a : BarAddr) (d : Dev) : Nat × Dev :=
  match a with
  | .card o => (d.cardWord fn o, d)
  | .window e o => if e = 0 then (d.cardWord fn o, d) else d.readReg (midFn fn) (cardUnit e).1 (cardUnit e).2 o
  | .doorbell p o => (d.doorbellWord fn p o, d)
  | .bar4 o => (if fn < 16 then (if o < 0x8000 then d.vectorWord fn o else d.pendingWord fn (o - 0x8000)) else 0, d)
  | .rom o => (((List.range 4).map (fun k => 256 ^ k * d.romByte fn (o + k))).sum, d)
  | .vf o => if fn < 16 then (0, d) else d.vfWord fn o

/-- The bytes of a read, word by word in ascending order; a part of a word has the effect of the whole (R5). -/
def Dev.barBytes (fn : Nat) (a : BarAddr) (len : Nat) (d : Dev) : List Byte × Dev :=
  let lead := (barAddrOffset a) % 4
  let r := (List.range ((lead + len + 3) / 4)).foldl (fun (x : List Byte × Dev) k =>
    let w := x.2.barWord fn (barAddrWord a k)
    (x.1 ++ leBytes w.1 4, w.2)) ([], d)
  (sliceBytes r.1 lead len, r.2)

/-- Does a read of `len` bytes touch a doorbell page? -/
def Dev.touchesDoorbell (d : Dev) (fn len : Nat) : BarAddr → Bool
  | .doorbell _ _ => true
  | .vf o => if d.isS44 fn then 0x4000 < o + len && o < 0x5000 else 0x10000 < o + len
  | _ => false

/-- The expansion ROM answers only where it is enabled (R51). -/
def Dev.romClosed (d : Dev) (fn : Nat) : BarAddr → Bool
  | .rom _ => !(d.fn fn).romEnable
  | _ => false

/-- A memory request that no function takes completes as Unsupported Request, an error that AER reports (R119, R454). -/
def Dev.refuseRead (fn : Nat) (d : Dev) : Dev :=
  let d := d.emit (.unsupported fn)
  if d.hasFn fn then d.reportAer (d.linkOf fn) fn .unsupported else d

/-- A memory read of a function while the device runs. -/
def Dev.barRead (fn : Nat) (a : BarAddr) (len : Nat) (d : Dev) : Dev :=
  if !d.doorbellOpen fn || d.romClosed fn a then d.refuseRead fn
  else if 64 < len || (d.touchesDoorbell fn len a && 4096 < (barAddrOffset a) % 4096 + len) then
    (d.emit (.completerAbort fn)).reportAer (d.linkOf fn) fn .completerAbort
  else
    let r := d.barBytes fn a len
    r.2.emit (.readData fn r.1)

/-- CONFIG_REQUEST. -/
def execConfigRequest (fn : Nat) (req : ConfigReq) (s : State) : Out := s.onLive (Dev.cfgRequest fn req)

/-- BAR_MEMORY_READ: through a service reset and in fault stop every BAR reads zero (R83, R453). -/
def execBarMemoryRead (fn : Nat) (addr : BarAddr) (len : Nat) (s : State) : Out :=
  s.onLive (fun d =>
    if !d.linkUp (d.linkOf fn) then d
    else
      let d := d.leaveL1 (d.linkOf fn)
      if d.phase = .running then d.barRead fn addr len
      else if d.hasFn fn then d.emit (.readData fn (List.replicate len 0)) else d.emit (.unsupported fn))

/-! ## Completions of the device's reads (R122, R123) -/

/-- What a read brought, `none` where it failed, goes to the one it was issued for. -/
def Dev.deliverRead (w : ReadFor) (data : Option (List Byte)) (d : Dev) : Dev :=
  match w with
  | .descriptors r first _ => (match data with
    | some b => d.landDescriptors r first b
    | none => d.ringError r 1)
  | .payload i key => d.payloadPiece i key data
  | .submission fn q first => (match data with
    | some b => d.landSubmissions fn q first b
    | none => d)
  | .resend q first off => (d.resendPiece q first off data).loseQpCmds q
  | .dmaDescriptor c => (d.dmaDescArrived c data).dmaSettle c
  | .dmaBurst c id => (d.dmaBurstArrived c id data).dmaSettle c
  | .shadow _ => if data.isNone && d.on R.MTB_STATUS_compare_active then d.comparePassEnd true else d
  | .context j off => d.contextPiece j off data
  | .translation _ => d

/-- A tag comes back: its request is over, and requests that were held back may leave. -/
def Dev.endRead (link tag : Nat) (r : Read) (data : Option (List Byte)) (d : Dev) : Dev :=
  let d := d.onLink link (fun l => { l with reads := l.reads.erase tag })
  let d := match r.why with
    | .translation pasid =>
      if r.dead then d else d.translationDone r.fn pasid (r.addr / 4096) (data.bind (atcEntry r.fn pasid (r.addr / 4096)))
    | w => if r.dead then d else d.deliverRead w data
  d.pump link

/-- A read failed: it is counted, reported under AER, and handled by what it was for. -/
def Dev.failRead (link tag : Nat) (r : Read) (timeout : Bool) (d : Dev) : Dev :=
  let d := if timeout then (d.bump R.PCX_CPL_TIMEOUTS_timeouts link).cause pcxCauses 4 link
    else (d.bump R.PCX_CPL_ERRORS_errors link).cause pcxCauses 5 link
  (d.reportAer link r.fn (if timeout then .completionTimeout else .poisoned)).endRead link tag r none

/-- READ_COMPLETION of the request with a tag. -/
def execReadCompletion (link tag : Nat) (status : CplStatus) (data : List Byte) (s : State) : Out :=
  s.onLive (fun d => match (d.link link).reads.get? tag with
    | none => d
    | some r => if status = .success then d.endRead link tag r (some data) else d.failRead link tag r false)

/-- COMPLETION_TIMEOUT. -/
def execCompletionTimeout (link tag : Nat) (s : State) : Out :=
  s.onLive (fun d => match (d.link link).reads.get? tag with
    | none => d
    | some r => d.failRead link tag r true)

end Sys2Proof.Machine
end

