-- ==== Sys2Proof/Machine/Jtag.lean ====
section
/-!
DEFINITION. The JTAG port (R486): boundary scan, IDCODE, and the challenge that unlocks the debug master.
-/

namespace Sys2Proof.Machine

/-- IDCODE: revision, variant code, manufacturer code, 1. -/
def idcode (die : Die) : Nat :=
  die.stepping % 16 * 2 ^ 28 + die.variant.code * 2 ^ 12 + 5 * 2 ^ 8 + 0x2D * 2 + 1

/-- The device with another TAP instruction. -/
def Dev.tapTo (n : Nat) (d : Dev) : Dev := { d with dbg := { d.dbg with tap := n } }

/-- The pins as a boundary scan sees them: the levels at the balls are not modelled. -/
def Dev.scan (d : Dev) : Dev := d.free.2.emit (.jtag 64 d.free.1)

/-- Shift out a challenge: fresh, or zeros after eight failures. -/
def Dev.challenge (d : Dev) : Dev :=
  if 8 ≤ d.dbg.fails then d.emit (.jtag 384 0)
  else
    let n := (Config.challenge d.freeCtr).toNat
    { d with freeCtr := d.freeCtr + 1, dbg := { d.dbg with nonce := some n } }.emit (.jtag 384 n)

/-- `n` as `len` bytes, the most significant first. -/
def bigBytes (len n : Nat) : List Byte := (List.range len).map (fun k => BitVec.ofNat 8 (n / 2 ^ (8 * (len - 1 - k))))

/-- The message that a response signs: SHA-384 of challenge and die identity. -/
def responseDigest (nonce dieId : Nat) : BitVec 384 := Config.sha384 (bigBytes 48 nonce ++ Config.dieBytes dieId)

/-- Does a response verify: a challenge is in force and the slot is programmed and not revoked? -/
def State.responseOk (slot signature : Nat) (s : State) : Bool :=
  match s.dev.dbg.nonce with
  | none => false
  | some n =>
    let k := keySlotOf s.fuses slot
    slot < 4 && k.programmed && !k.revoked &&
    ecdsaOk k.digest (responseDigest n s.dev.die.dieId) (BitVec.ofNat 768 signature)

/-- A response unlocks, or uses up the challenge; the challenge serves for one response. -/
def State.respond (slot signature : Nat) (s : State) : State :=
  let g := s.dev.dbg
  if s.responseOk slot signature then { s with dev := { s.dev with dbg := { g with unlocked := true, nonce := none } } }
  else { s with dev := { s.dev with dbg := { g with fails := g.fails + 1, nonce := none } } }

/-- BYPASS. -/
def execBypass (s : State) : Out := s.onDev (fun d => (d.tapTo 0).emit (.jtag 1 0))

/-- SAMPLE_PRELOAD. -/
def execSamplePreload (s : State) : Out := s.onDev (fun d => (d.tapTo 1).scan)

/-- EXTEST. -/
def execExtest (s : State) : Out := s.onDev (fun d => (d.tapTo 2).scan)

/-- IDCODE. -/
def execIdcode (s : State) : Out := s.onDev (fun d => (d.tapTo 3).emit (.jtag 32 (idcode d.die)))

/-- DBG_CHALLENGE. -/
def execDbgChallenge (s : State) : Out := s.onDev (fun d => (d.tapTo 4).challenge)

/-- DBG_RESPONSE. -/
def execDbgResponse (slot signature : Nat) (s : State) : Out :=
  .next (State.respond slot signature { s with dev := s.dev.tapTo 5 })

/-- TRST_N_ASSERT: the TAP only; it then holds IDCODE (IEEE 1149.1). -/
def execTrstNAssert (s : State) : Out := s.onDev (Dev.tapTo 3)

end Sys2Proof.Machine
end

