-- ==== Sys2Proof/Machine/Microcode.lean ====
section
/-!
DEFINITION. The commands of the microword at a thread's pc (R248, R250): its next-address operation and its datapath part, each after
the fetch with its check (R264).
-/

namespace Sys2Proof.Machine

/-- The fetch of the microword that the thread issues next (R264): a single error is corrected and written back, an uncorrectable one
is a Set fault that the thread finds, and no microword issues (R266). -/
def Dev.fetchMicroword (p t : Nat) (d : Dev) : Dev :=
  let th := d.thread p t
  if !th.mayIssue || th.issuedData || !d.named p t then d
  else
    match fetchWord (d.word p t) with
    | some (_, false) => d
    | some (w, true) => ((d.onSite p (fun s => s.putWord th.pc w)).bump R.SET_CS_CORRECTED_count p).cause setCauses 2 p
    | none => d.setFault p 1 th.pc (some t)

/-- The next-address operation `op` of a thread's microword. -/
def State.onNext (s : State) (p t op : Nat) (f : Microword → Thread → Dev → Dev) : Out :=
  s.onRun (fun d => (d.fetchMicroword p t).nextOp p t op f)

/-- The datapath function `fn` of class `cls` of a thread's microword. -/
def State.onData (s : State) (p t cls fn : Nat) (f : Microword → Thread → Dev → Dev) : Out :=
  s.onRun (fun d => (d.fetchMicroword p t).dataOp p t cls fn f)

/-! ## Next-address operations (R248) -/

def execSeq (position thread : Nat) (s : State) : Out :=
  s.onNext position thread 0 (fun w th d => d.goTo position thread (th.pc + 1) w)

def execJump (position thread : Nat) (s : State) : Out :=
  s.onNext position thread 1 (fun w _ d => d.goTo position thread (mwTarget w) w)

def execBranch (position thread : Nat) (s : State) : Out :=
  s.onNext position thread 2 (fun w th d =>
    d.goTo position thread (if d.condTest position th w then mwTarget w else th.pc + 1) w)

def execCall (position thread : Nat) (s : State) : Out :=
  s.onNext position thread 3 (Dev.callTo position thread)

def execCallIf (position thread : Nat) (s : State) : Out :=
  s.onNext position thread 4 (fun w th d =>
    if d.condTest position th w then d.callTo position thread w th else d.goTo position thread (th.pc + 1) w)

def execPopReturn (position thread : Nat) (s : State) : Out :=
  s.onNext position thread 5 (Dev.returnTo position thread)

def execPopReturnIf (position thread : Nat) (s : State) : Out :=
  s.onNext position thread 6 (fun w th d =>
    if d.condTest position th w then d.returnTo position thread w th else d.goTo position thread (th.pc + 1) w)

def execWait (position thread : Nat) (s : State) : Out :=
  s.onNext position thread 7 (Dev.beginWait position thread)

def execTable (position thread : Nat) (s : State) : Out :=
  s.onNext position thread 8 (fun w th d =>
    d.goTo position thread (mwTarget w / 16 * 16 + (th.reg (bits (mwCond w) 3 4)).toNat % 16) w)

def execPassEnd (position thread : Nat) (s : State) : Out :=
  s.onNext position thread 9 (Dev.endPass position thread)

def execTrap (position thread : Nat) (s : State) : Out :=
  s.onNext position thread 10 (fun _ _ d => d.threadFault position thread 6)

/-! ## ALU and shifts -/

def execAluAdd (position thread : Nat) (s : State) : Out := s.onData position thread 1 0 (Dev.alu position thread 0)

def execAluSub (position thread : Nat) (s : State) : Out := s.onData position thread 1 1 (Dev.alu position thread 1)

def execAluAnd (position thread : Nat) (s : State) : Out := s.onData position thread 1 2 (Dev.alu position thread 2)

def execAluOr (position thread : Nat) (s : State) : Out := s.onData position thread 1 3 (Dev.alu position thread 3)

def execAluXor (position thread : Nat) (s : State) : Out := s.onData position thread 1 4 (Dev.alu position thread 4)

def execAluCompare (position thread : Nat) (s : State) : Out := s.onData position thread 1 5 (Dev.alu position thread 5)

def execAluMove (position thread : Nat) (s : State) : Out := s.onData position thread 1 6 (Dev.alu position thread 6)

def execAddWithCarry (position thread : Nat) (s : State) : Out := s.onData position thread 1 7 (Dev.alu position thread 7)

def execShiftLeft (position thread : Nat) (s : State) : Out := s.onData position thread 2 0 (Dev.shift position thread 0)

def execShiftRight (position thread : Nat) (s : State) : Out := s.onData position thread 2 1 (Dev.shift position thread 1)

def execRotate (position thread : Nat) (s : State) : Out := s.onData position thread 2 2 (Dev.shift position thread 2)

def execFieldExtract (position thread : Nat) (s : State) : Out := s.onData position thread 2 3 (Dev.shift position thread 3)

def execFieldInsert (position thread : Nat) (s : State) : Out := s.onData position thread 2 4 (Dev.shift position thread 4)

/-! ## Local SRAM and mapped channel blocks -/

def execLoad8b (position thread : Nat) (s : State) : Out :=
  s.onData position thread 3 0 (fun w th d =>
    let r := d.load8 position (mwAddress w th)
    r.2.setReg position thread (mwDst w) r.1)

def execStore8b (position thread : Nat) (s : State) : Out :=
  s.onData position thread 3 1 (fun w th d => d.store8 position (mwAddress w th) (opB w th))

def execAtomicAdd (position thread : Nat) (s : State) : Out :=
  s.onData position thread 3 2 (fun w th d =>
    let a := mwAddress w th
    if inBlocks a then d.setReg position thread (mwDst w) 0
    else
      let old := (d.siteAt position).load8 a
      (d.onSite position (fun s => s.store8 a (old + opB w th))).setReg position thread (mwDst w) old)

def execCompareAndSwap (position thread : Nat) (s : State) : Out :=
  s.onData position thread 3 3 (fun w th d =>
    let a := mwAddress w th
    if inBlocks a then d.setReg position thread (mwDst w) 0
    else
      let old := (d.siteAt position).load8 a
      let d := if old = th.reg (mwDst w) then d.onSite position (fun s => s.store8 a (opB w th)) else d
      d.setReg position thread (mwDst w) old)

/-! ## Head, edits, Ledger fields -/

def execReadHead (position thread : Nat) (s : State) : Out :=
  s.onData position thread 4 0 (fun w th d =>
    d.setReg position thread (mwDst w) (word8 ((d.threadItem th).bytes.take 256) (mwAddress w th)))

/-- Read of the parse record: eight bytes at the address (R250 class 4). -/
def execReadParseRecord (position thread : Nat) (s : State) : Out :=
  s.onData position thread 4 1 (fun w th d =>
    d.setReg position thread (mwDst w) (word8 ((d.threadItem th).parse.words.flatMap (fun x => leBytes x 4)) (mwAddress w th)))

/-- The bytes of a whole packet are read through the Promenade; condition 0x41 awaits them. -/
def execReadPacketBuffer (position thread : Nat) (s : State) : Out :=
  s.onData position thread 4 2 (fun w th d =>
    d.onThread position thread (fun t => { t with
      assists := t.assists ++ [{ kind := 12, dst := mwDst w, answer := word8 (d.threadItem th).bytes (mwAddress w th), writes := true }] }))

def execAppendEdit (position thread : Nat) (edit : Edit) (s : State) : Out :=
  s.onData position thread 4 3 (fun _ th d => d.addEdit th edit)

def execReadLedgerFields (position thread : Nat) (s : State) : Out :=
  s.onData position thread 4 4 (fun w th d =>
    let it := d.threadItem th
    d.setReg position thread (mwDst w) (word8 (d.ledgerBytes (th.item.getD 0) it) (mwAddress w th)))

/-! ## Assists -/

def execPayloadRead (position thread : Nat) (s : State) : Out :=
  s.onData position thread 5 0 (Dev.assist position thread 0 (fun i _ d => d.issuePayload i) none)

def execParse (position thread : Nat) (s : State) : Out :=
  s.onData position thread 5 1 (Dev.assist position thread 1
    (fun i it d => if it.isTx then d.onItem i (fun it => { it with parse := d.parseItem it }) else d) none)

def execClassify (position thread : Nat) (s : State) : Out :=
  s.onData position thread 5 2 (Dev.assist position thread 2 (fun i it d => if it.isTx then d.classifyTx i it else d) none)

/-- What a lookup of the assist finds (R213, R232, R234): the result of an exact-match entry of table 0-15, a direct entry, the result of
the longest prefix (16; virtual table and address in the key) or that of the ternary table (17). -/
def Dev.assistLookup (table figure : Nat) (key : List Byte) (d : Dev) : Option (List Byte) × Dev :=
  if table = 16 then ((d.longestPrefix (byteAt key 0 % 16) (key.drop 1)).map (fun v => leBytes v 4), d)
  else if table = 17 then (d.ternaryHit key, d)
  else if d.tabKind table = 2 then d.lookupDirect table (leAt key 0 4)
  else
    let r := d.lookup table figure key
    (r.1.map (fun e => padTo 16 e.result), r.2)

/-- A lookup answers the first eight bytes of what it found; what it answers where nothing matches is not stated
(notes/assumptions/87.md). -/
def execLookup (position thread table : Nat) (key : List Byte) (s : State) : Out :=
  s.onData position thread 5 3 (fun w th d =>
    let r := d.assistLookup table (d.threadItem th).figure key
    match r.1 with
    | some b => r.2.assist position thread 3 (fun _ _ d => d) (some (word8 b 0)) w th
    | none => r.2.assistOpen position thread 3 (fun _ _ d => d) w th)

/-- The checksum assist over a run of the item's bytes; what it sums is not stated. -/
def execChecksum (position thread : Nat) (_off _len : Nat) (s : State) : Out :=
  s.onData position thread 5 4 (Dev.assistOpen position thread 4 (fun _ _ d => d))

/-- The hash assist: the flow hash of R179, into the parse record and the answer. -/
def execHash (position thread : Nat) (s : State) : Out :=
  s.onData position thread 5 5 (fun w th d =>
    let it := d.threadItem th
    let h := d.hashOf (if it.kind = 1 then 0 else 1) it.parse it.bytes
    d.assist position thread 5 (fun i it d => if it.isTx then d.onItem i (fun it => { it with parse := { it.parse with hash := h } }) else d)
      (some (BitVec.ofNat 64 h)) w th)

/-- The header rewrite assist records its change in the edit area (R190). -/
def execHeaderRewrite (position thread : Nat) (edit : Edit) (s : State) : Out :=
  s.onData position thread 5 6 (fun w th d =>
    (d.addEdit th edit).request position thread 6 (mwDst w) 0 false)

def execSetDestination (position thread : Nat) (dest : Dest) (s : State) : Out :=
  s.onData position thread 5 7 (Dev.assist position thread 7 (fun i _ d => d.setDest i dest) none)

/-- The drop request: a transmit or switched item will complete with status 0x07 (R189); for a received frame it is refused with
a thread fault (R185). -/
def execDropRequest (position thread : Nat) (s : State) : Out :=
  s.onData position thread 5 8 (fun w th d =>
    match th.item with
    | some i =>
      if (d.threadItem th).kind = 1 then d.threadFault position thread 7
      else ((d.onItem i (fun it => { it with status := 7 })).bump R.PPL_TX_ACTION_DROPS_count 1).request position thread 8 (mwDst w) 0 false
    | none => d)

/-- A learn offer, taken from a pass whose action record sets learn (R226). -/
def execLearnOffer (position thread : Nat) (offer : Offer) (s : State) : Out :=
  s.onData position thread 5 9 (Dev.assist position thread 9 (fun _ it d =>
    if !it.verdict.learn then d
    else if it.kind = 1 then d.offer it.figure { vnid := offer.vnid, mac := offer.mac, source := it.source, fromFunction := false }
    else d.offer it.figure { vnid := offer.vnid, mac := offer.mac, source := it.fn, fromFunction := true }) none)

/-- The DMA assist raises the position's request line until it is answered (R334). -/
def execDmaAssist (position thread : Nat) (s : State) : Out :=
  s.onData position thread 5 10 (Dev.assist position thread 10 (fun _ _ d => d) none)

/-- The partner-channel send assist: up to 64 bytes from local SRAM at srcA (R398). -/
def execPartnerChannelSend (position thread : Nat) (s : State) : Out :=
  s.onData position thread 5 11 (fun w th d =>
    let len := bits (mwExt w) 10 7
    let a := (opA w th).toNat % 2 ^ 21
    let d := d.request position thread 11 (mwDst w) 0 false
    match d.setChannel (midSet position) (bits (mwExt w) 0 10) with
    | some c =>
      (match d.binding c with
       | some (t, _) =>
         if t ≠ midSet position then d.wrongMid
         else if len = 0 ∨ 64 < len then d.wr R.MBX_TX_STATUS_tx_bad 1 0 (256 * c)
         else
           let bytes := (List.range 64).map (fun k => (d.siteAt position).byte (a + k))
           d.post c ((List.range 16).map (fun n => leAt bytes (4 * n) 4)) len
       | none => d)
    | none => d)

/-! ## Channels (R253-R255) -/

def execChannelWrite (position thread : Nat) (s : State) : Out :=
  s.onData position thread 6 0 (fun w th d =>
    if th.sendChan.isNone ∨ 8 ≤ th.stage.length then d.threadFault position thread 10
    else d.onThread position thread (fun t => { t with stage := t.stage ++ [opA w th] }))

def execChannelClose (position thread : Nat) (s : State) : Out :=
  s.onData position thread 6 1 (fun _ th d =>
    match th.sendChan with
    | none => d.threadFault position thread 10
    | some c =>
      if th.stage.isEmpty then
        (d.onSetChan position c (fun h => { h with open_ := none })).onThread position thread (fun t => { t with sendChan := none })
      else
        let d := d.onSetChan position c (fun h => { h with
          open_ := none
          delivery := messageWords h.nextMsg th.stage
          closed := h.closed ++ [h.nextMsg]
          nextMsg := h.nextMsg + 1 })
        d.onThread position thread (fun t => { t with sendChan := none, stage := [], delivering := some c }))

def execChannelRead (position thread : Nat) (s : State) : Out :=
  s.onData position thread 6 2 (fun w th d =>
    match th.readChan with
    | none => d.threadFault position thread 10
    | some (c, m) =>
      match (d.setChan position c).fifo.find? (fun x => x.msg == m) with
      | none => d.threadFault position thread 10
      | some x =>
        let d := d.onSetChan position c (fun h => { h with fifo := h.fifo.erase x })
        d.onThread position thread (fun t => { t.setReg (mwDst w) x.word with
          zero := x.last, readChan := if x.last then none else t.readChan }))

def execChannelDiscard (position thread : Nat) (s : State) : Out :=
  s.onData position thread 6 3 (fun _ th d =>
    match th.sendChan with
    | none => d.threadFault position thread 10
    | some c =>
      (d.onSetChan position c (fun h => { h with open_ := none })).onThread position thread (fun t => { t with sendChan := none, stage := [] }))

/-! ## Flags and retire commits -/

def execFlagSet (position thread : Nat) (s : State) : Out := s.onData position thread 7 0 (Dev.putFlag position thread true)

def execFlagClear (position thread : Nat) (s : State) : Out := s.onData position thread 7 1 (Dev.putFlag position thread false)

def execCounterAdd (position thread cell amount : Nat) (s : State) : Out :=
  s.onData position thread 8 0 (Dev.commit position thread (.counter cell amount))

def execStateWrite (position thread cell value : Nat) (s : State) : Out :=
  s.onData position thread 8 1 (Dev.commit position thread (.state cell value))

def execSequenceBearingRequest (position thread kind ctx : Nat) (s : State) : Out :=
  s.onData position thread 8 2 (Dev.commit position thread (.number kind ctx))

end Sys2Proof.Machine
end

