-- ==== Sys2Proof/Machine/Sideband.lean ====
section
/-!
DEFINITION. The sideband endpoint on standby power (R84, R453), the DOE mailboxes of the PFs (R115), and the SPDM responder
behind both.
-/

namespace Sys2Proof.Machine

/-! ## MCTP and PLDM (R84) -/

/-- The answer on the sideband. -/
def State.answerSideband (kind : String) (words : List Nat) (s : State) : State :=
  { s with dev := s.dev.emit (.sideband kind words) }

/-- The device with the fused key slot `n` changed. -/
def Fuses.setSlot (n : Nat) (k : KeySlot) (f : Fuses) : Fuses :=
  if n = 0 then { f with slot0 := k } else if n = 1 then { f with slot1 := k } else if n = 2 then { f with slot2 := k }
  else { f with slot3 := k }

/-- Program an owner key slot, 1 to 3, once each; blow the revoke fuse of any slot, which cannot be undone (R63). That revoking goes by the
same provisioning message is the model's (DESIGN CHOICE, notes/assumptions/50.md). -/
def State.provision (slot : Nat) (op : KeySlotOp) (s : State) : State :=
  let k := keySlotOf s.fuses slot
  match op with
  | .program digest =>
    if 1 ≤ slot ∧ slot ≤ 3 ∧ k.programmed = false then
      { s with fuses := s.fuses.setSlot slot { k with programmed := true, digest := digest } }.answerSideband "KeySlotProvision" [0]
    else s.answerSideband "KeySlotProvision" [1]
  | .revoke =>
    if slot ≤ 3 then { s with fuses := s.fuses.setSlot slot { k with revoked := true } }.answerSideband "KeySlotProvision" [0]
    else s.answerSideband "KeySlotProvision" [1]

/-- Load the keys of a link's IDE stream: the stream is secure from then on (R131). -/
def Dev.loadIdeKeys (link : Nat) (keys : List Byte) (d : Dev) : Dev :=
  if d.formed link && d.linkUp link && d.on R.PCX_LINK_STATUS_flit link && d.on R.PCX_LINK_SHAPE_ide_enabled link then
    let d := d.onLink link (fun l => { l with ideKeys := some keys })
    (d.wr R.PCX_LINK_STATUS_ide_secure 1 link).emit (.sideband "IdeKeyLoad" [0])
  else d.emit (.sideband "IdeKeyLoad" [1])

/-- The value of a numeric sensor. -/
def Dev.sensor (d : Dev) : Sensor → Nat
  | .tj => d.rd R.PWR_TJ_tj
  | .power => d.rd R.PWR_POWER_power_1ms
  | .pace => d.rd R.PWR_PACE_pace
  | .headroom => d.rd R.PWR_HEADROOM_headroom

/-- PLDM Type 2 is available from cold-start step 3. -/
def Dev.sensorRead (x : Sensor) (d : Dev) : Dev :=
  if d.phase.powered then d.emit (.sideband "GetSensorReading" [0, d.sensor x]) else d.emit (.sideband "GetSensorReading" [1])

/-- The directory that an update works with; a flash without a valid one gets one (notes/assumptions/49.md). -/
def Flash.dirOrNew (fl : Flash) : DirCopy :=
  fl.dir.getD { slotSize := min 96 (((fl.sizeMib - 4) * 2 ^ 20 - 0x20000) / 2 / 2 ^ 20) * 2 ^ 20, active := 1 }

/-- PLDM Type 5: the image goes to the inactive slot, which is marked trial with three starts; R63 judges it at the next start. -/
def State.pldmUpdate (img : Image) (s : State) : State :=
  let c := s.flash.dirOrNew
  if c.slotSize < img.imageBytes ∨ s.dev.applying then s.answerSideband "UpdateComponent" [1]
  else
    let s := s.writeSlot c img
    let s := s.putFlash (s.flash.writeDir { c with trial := true, trialLeft := 3 })
    { s with dev := { s.dev with boot := { s.dev.boot with onTrial := false } } }.answerSideband "UpdateComponent" [0]

/-- MCTP_SET_ENDPOINT_ID: 0 and 0xFF are no endpoint IDs (notes/assumptions/51.md). -/
def execMctpSetEndpointId (eid : Nat) (s : State) : Out :=
  s.onDev (fun d =>
    if eid % 256 = 0 ∨ eid % 256 = 255 then d.emit (.sideband "SetEndpointId" [1, d.eid])
    else ({ d with eid := eid % 256 }).emit (.sideband "SetEndpointId" [0, eid % 256]))

/-- MCTP_KEY_SLOT_PROVISION. -/
def execMctpKeySlotProvision (slot : Nat) (op : KeySlotOp) (s : State) : Out := .next (s.provision slot op)

/-- MCTP_DISCARD: the discard command of R79. -/
def execMctpDiscard (s : State) : Out := .next (s.discard.answerSideband "Discard" [0])

/-- MCTP_IDE_KEY_LOAD. -/
def execMctpIdeKeyLoad (link : Nat) (keys : List Byte) (s : State) : Out := s.onDev (Dev.loadIdeKeys link keys)

/-- MCTP_FAULT_LOG_READ: the eight words of a slot, in fault stop too. -/
def execMctpFaultLogRead (slot : Nat) (s : State) : Out :=
  s.onDev (fun d => d.emit (.sideband "FaultLogRead" ((List.range 8).map (d.logWord (slot % 256)))))

/-- PLDM_SENSOR_READ. -/
def execPldmSensorRead (sensor : Sensor) (s : State) : Out := s.onDev (Dev.sensorRead sensor)

/-- PLDM_FIRMWARE_UPDATE. -/
def execPldmFirmwareUpdate (img : Image) (s : State) : Out := .next (s.pldmUpdate img)

/-! ## SPDM (R84) -/

/-- Does a request reach the responder: over the sideband always, over DOE where the PF answers configuration requests? -/
def Dev.spdmReached (d : Dev) : SpdmPath → Bool
  | .sideband => true
  | .doe pf => pf < 16 && d.phase.live && d.formed (d.linkOf pf) && !d.cfgRetries pf && d.hasFn pf

/-- Answer an SPDM request with what `f` gives; before the end of cold-start step 4 the answer is ResponseNotReady. -/
def State.spdm (via : SpdmPath) (f : Dev → Dev) (s : State) : Out :=
  s.onDev (fun d =>
    if !d.spdmReached via then d
    else if d.boot.image.isNone then d.emit (.spdm via "ResponseNotReady" [])
    else f d)

/-- The measurement with this index: digests as numbers, index 3 the security version and the fused floor. -/
def State.measurement (s : State) (index : Nat) : Option (List Nat) :=
  match index, s.dev.boot.image with
  | 1, _ => some [1, Config.bootRomDigest.toNat]
  | 2, some img => some [2, (Config.sha384 (signedBytes img)).toNat]
  | 3, some img => some [3, img.securityVersion, s.fuses.floor]
  | _, _ => none

/-- GET_VERSION: 1.2 and 1.3. -/
def execGetVersion (via : SpdmPath) (s : State) : Out := s.spdm via (fun d => d.emit (.spdm via "VERSION" [0x12, 0x13]))

/-- GET_CAPABILITIES: certificates, challenge, signed measurements; no sessions (notes/assumptions/52.md). -/
def execGetCapabilities (via : SpdmPath) (s : State) : Out := s.spdm via (fun d => d.emit (.spdm via "CAPABILITIES" [0x16]))

/-- NEGOTIATE_ALGORITHMS: ECDSA P-384 and SHA-384, by the selection bits of notes/assumptions/52.md. -/
def execNegotiateAlgorithms (via : SpdmPath) (s : State) : Out := s.spdm via (fun d => d.emit (.spdm via "ALGORITHMS" [0x80, 2]))

/-- GET_DIGESTS: the certificate chains are not stated. -/
def execGetDigests (via : SpdmPath) (s : State) : Out :=
  s.spdm via (fun d => d.free.2.emit (.spdm via "DIGESTS" [d.free.1]))

/-- GET_CERTIFICATE: the bytes of the chain are not stated. -/
def execGetCertificate (via : SpdmPath) (slot off len : Nat) (s : State) : Out :=
  s.spdm via (fun d => d.free.2.emit (.spdm via "CERTIFICATE" [slot, off, len, d.free.1]))

/-- CHALLENGE: the signature is not stated. -/
def execChallenge (via : SpdmPath) (slot nonce : Nat) (s : State) : Out :=
  s.spdm via (fun d => d.free.2.emit (.spdm via "CHALLENGE_AUTH" [slot, nonce, d.free.1]))

/-- GET_MEASUREMENTS: index 0 asks for their number and 0xFF for all. -/
def execGetMeasurements (via : SpdmPath) (index nonce : Nat) (s : State) : Out :=
  s.spdm via (fun d =>
    let all := [1, 2, 3].filterMap s.measurement
    if index = 0 then d.free.2.emit (.spdm via "MEASUREMENTS" [3, nonce, d.free.1])
    else if index = 0xFF then d.free.2.emit (.spdm via "MEASUREMENTS" (all.flatten ++ [nonce, d.free.1]))
    else match s.measurement index with
      | some m => d.free.2.emit (.spdm via "MEASUREMENTS" (m ++ [nonce, d.free.1]))
      | none => d.emit (.spdm via "ERROR" [1]))

/-- DOE_DISCOVERY: the vendor ID and type of protocol `index`, and the next index. -/
def execDoeDiscovery (pf index : Nat) (s : State) : Out :=
  s.onDev (fun d =>
    if !d.spdmReached (.doe pf) then d
    else if index = 0 then d.emit (.spdm (.doe pf) "DOE_DISCOVERY" [1, 0, 1])
    else if index = 1 then d.emit (.spdm (.doe pf) "DOE_DISCOVERY" [1, 1, 0])
    else d.emit (.spdm (.doe pf) "DOE_DISCOVERY" [0xFFFF, 0, 0]))

end Sys2Proof.Machine
end

