-- ==== Sys2Proof/Machine/Dispatch.lean ====
section
/-!
DEFINITION. The dispatch: one arm for each command, one direct call of its meaning.
-/

namespace Sys2Proof.Machine

/-- The effect of a command on everything but the queue. -/
def exec (i : Instr) (s : State) : Host.Outcome State Fault Refusal :=
  match i with
  | .standbyPowerOn => Sys2Proof.Machine.execStandbyPowerOn s
  | .mainRailFail => Sys2Proof.Machine.execMainRailFail s
  | .standbyBrownout => Sys2Proof.Machine.execStandbyBrownout s
  | .sysRstNAssert => Sys2Proof.Machine.execSysRstNAssert s
  | .coldStart findings => Sys2Proof.Machine.execColdStart findings s
  | .serviceReset => Sys2Proof.Machine.execServiceReset s
  | .doorbellLogDrained link => Sys2Proof.Machine.execDoorbellLogDrained link s
  | .serviceReplayDone => Sys2Proof.Machine.execServiceReplayDone s
  | .snapshotNow => Sys2Proof.Machine.execSnapshotNow s
  | .orderlyShutdown => Sys2Proof.Machine.execOrderlyShutdown s
  | .shutdownDrainDone => Sys2Proof.Machine.execShutdownDrainDone s
  | .confirmTrial => Sys2Proof.Machine.execConfirmTrial s
  | .discardRetained => Sys2Proof.Machine.execDiscardRetained s
  | .serviceResetCommand => Sys2Proof.Machine.execServiceResetCommand s
  | .snapshotIntervalExpiry => Sys2Proof.Machine.execSnapshotIntervalExpiry s
  | .snapshotWriteDone ok => Sys2Proof.Machine.execSnapshotWriteDone ok s
  | .retentionRecordClose => Sys2Proof.Machine.execRetentionRecordClose s
  | .mctpSetEndpointId eid => Sys2Proof.Machine.execMctpSetEndpointId eid s
  | .mctpKeySlotProvision slot op => Sys2Proof.Machine.execMctpKeySlotProvision slot op s
  | .mctpDiscard => Sys2Proof.Machine.execMctpDiscard s
  | .mctpIdeKeyLoad link keys => Sys2Proof.Machine.execMctpIdeKeyLoad link keys s
  | .mctpFaultLogRead slot => Sys2Proof.Machine.execMctpFaultLogRead slot s
  | .pldmSensorRead sensor => Sys2Proof.Machine.execPldmSensorRead sensor s
  | .pldmFirmwareUpdate img => Sys2Proof.Machine.execPldmFirmwareUpdate img s
  | .getVersion via => Sys2Proof.Machine.execGetVersion via s
  | .getCapabilities via => Sys2Proof.Machine.execGetCapabilities via s
  | .negotiateAlgorithms via => Sys2Proof.Machine.execNegotiateAlgorithms via s
  | .getDigests via => Sys2Proof.Machine.execGetDigests via s
  | .getCertificate via slot off len => Sys2Proof.Machine.execGetCertificate via slot off len s
  | .challenge via slot nonce => Sys2Proof.Machine.execChallenge via slot nonce s
  | .getMeasurements via index nonce => Sys2Proof.Machine.execGetMeasurements via index nonce s
  | .paceMeasure counts => Sys2Proof.Machine.execPaceMeasure counts s
  | .paceLowPersist => Sys2Proof.Machine.execPaceLowPersist s
  | .governorTick => Sys2Proof.Machine.execGovernorTick s
  | .boostIntervalExpiry => Sys2Proof.Machine.execBoostIntervalExpiry s
  | .boostBucketAge => Sys2Proof.Machine.execBoostBucketAge s
  | .avsTransactionDone result => Sys2Proof.Machine.execAvsTransactionDone result s
  | .avsRetryExpiry => Sys2Proof.Machine.execAvsRetryExpiry s
  | .powerPublish currentMa otherDw => Sys2Proof.Machine.execPowerPublish currentMa otherDw s
  | .tjSample sensors => Sys2Proof.Machine.execTjSample sensors s
  | .thermalSitout => Sys2Proof.Machine.execThermalSitout s
  | .thermalRejoin => Sys2Proof.Machine.execThermalRejoin s
  | .sitoutGraceExpiry position => Sys2Proof.Machine.execSitoutGraceExpiry position s
  | .thermtrip => Sys2Proof.Machine.execThermtrip s
  | .domainOffCmd domain => Sys2Proof.Machine.execDomainOffCmd domain s
  | .domainWakeCmd domain => Sys2Proof.Machine.execDomainWakeCmd domain s
  | .domainReady domain => Sys2Proof.Machine.execDomainReady domain s
  | .perstNAssert link => Sys2Proof.Machine.execPerstNAssert link s
  | .perstNDeassert link => Sys2Proof.Machine.execPerstNDeassert link s
  | .hotReset link => Sys2Proof.Machine.execHotReset link s
  | .dlDown link => Sys2Proof.Machine.execDlDown link s
  | .linkUp link rate width flit => Sys2Proof.Machine.execLinkUp link rate width flit s
  | .initiateFlr fn => Sys2Proof.Machine.execInitiateFlr fn s
  | .resetSquashComplete fn => Sys2Proof.Machine.execResetSquashComplete fn s
  | .busMasterEnableClear fn => Sys2Proof.Machine.execBusMasterEnableClear fn s
  | .busMasterEnableSet fn => Sys2Proof.Machine.execBusMasterEnableSet fn s
  | .vfEnableSet pf numVfs => Sys2Proof.Machine.execVfEnableSet pf numVfs s
  | .vfEnableClear pf => Sys2Proof.Machine.execVfEnableClear pf s
  | .configRequest fn req => Sys2Proof.Machine.execConfigRequest fn req s
  | .barMemoryRead fn addr len => Sys2Proof.Machine.execBarMemoryRead fn addr len s
  | .readCompletion link tag status data => Sys2Proof.Machine.execReadCompletion link tag status data s
  | .completionTimeout link tag => Sys2Proof.Machine.execCompletionTimeout link tag s
  | .msixVectorUnmask fn vector => Sys2Proof.Machine.execMsixVectorUnmask fn vector s
  | .atsInvalidateRequest link tag addr size => Sys2Proof.Machine.execAtsInvalidateRequest link tag addr size s
  | .ideIntegrityFailure link => Sys2Proof.Machine.execIdeIntegrityFailure link s
  | .p2pCommit link => Sys2Proof.Machine.execP2pCommit link s
  | .p2pCommitDone link => Sys2Proof.Machine.execP2pCommitDone link s
  | .doorbellProducerWrite fn page slot producer => Sys2Proof.Machine.execDoorbellProducerWrite fn page slot producer s
  | .doorbellCqHeadWrite fn page slot cqHead arm => Sys2Proof.Machine.execDoorbellCqHeadWrite fn page slot cqHead arm s
  | .irqTimeExpiry ring => Sys2Proof.Machine.execIrqTimeExpiry ring s
  | .qmgCtxSnap mid ring => Sys2Proof.Machine.execQmgCtxSnap mid ring s
  | .qmgCtxSnapDone => Sys2Proof.Machine.execQmgCtxSnapDone s
  | .qmgErrFifoRead mid => Sys2Proof.Machine.execQmgErrFifoRead mid s
  | .waitingFrameDelivery ring => Sys2Proof.Machine.execWaitingFrameDelivery ring s
  | .txDescriptorPlain ring => Sys2Proof.Machine.execTxDescriptorPlain ring s
  | .txDescriptorOffload ring => Sys2Proof.Machine.execTxDescriptorOffload ring s
  | .txDescriptorNoop ring => Sys2Proof.Machine.execTxDescriptorNoop ring s
  | .itemDispatch item => Sys2Proof.Machine.execItemDispatch item s
  | .itemRetire item => Sys2Proof.Machine.execItemRetire item s
  | .owedCompletionWrite ring => Sys2Proof.Machine.execOwedCompletionWrite ring s
  | .setFault position finding => Sys2Proof.Machine.execSetFault position finding s
  | .replayDone position stallNs => Sys2Proof.Machine.execReplayDone position stallNs s
  | .figureFullPersist figure => Sys2Proof.Machine.execFigureFullPersist figure s
  | .lgrFailLogRead mid => Sys2Proof.Machine.execLgrFailLogRead mid s
  | .frameReceived mac frame fcsOk => Sys2Proof.Machine.execFrameReceived mac frame fcsOk s
  | .losslessFifoAdmit mac cls => Sys2Proof.Machine.execLosslessFifoAdmit mac cls s
  | .inboundEspJobDone job => Sys2Proof.Machine.execInboundEspJobDone job s
  | .cryptoInstanceFault position => Sys2Proof.Machine.execCryptoInstanceFault position s
  | .cryCtxSnap mid index => Sys2Proof.Machine.execCryCtxSnap mid index s
  | .cryCtxSnapDone => Sys2Proof.Machine.execCryCtxSnapDone s
  | .threadStartPass position thread => Sys2Proof.Machine.execThreadStartPass position thread s
  | .seq position thread => Sys2Proof.Machine.execSeq position thread s
  | .jump position thread => Sys2Proof.Machine.execJump position thread s
  | .branch position thread => Sys2Proof.Machine.execBranch position thread s
  | .call position thread => Sys2Proof.Machine.execCall position thread s
  | .callIf position thread => Sys2Proof.Machine.execCallIf position thread s
  | .popReturn position thread => Sys2Proof.Machine.execPopReturn position thread s
  | .popReturnIf position thread => Sys2Proof.Machine.execPopReturnIf position thread s
  | .wait position thread => Sys2Proof.Machine.execWait position thread s
  | .table position thread => Sys2Proof.Machine.execTable position thread s
  | .passEnd position thread => Sys2Proof.Machine.execPassEnd position thread s
  | .trap position thread => Sys2Proof.Machine.execTrap position thread s
  | .aluAdd position thread => Sys2Proof.Machine.execAluAdd position thread s
  | .aluSub position thread => Sys2Proof.Machine.execAluSub position thread s
  | .aluAnd position thread => Sys2Proof.Machine.execAluAnd position thread s
  | .aluOr position thread => Sys2Proof.Machine.execAluOr position thread s
  | .aluXor position thread => Sys2Proof.Machine.execAluXor position thread s
  | .aluCompare position thread => Sys2Proof.Machine.execAluCompare position thread s
  | .aluMove position thread => Sys2Proof.Machine.execAluMove position thread s
  | .addWithCarry position thread => Sys2Proof.Machine.execAddWithCarry position thread s
  | .shiftLeft position thread => Sys2Proof.Machine.execShiftLeft position thread s
  | .shiftRight position thread => Sys2Proof.Machine.execShiftRight position thread s
  | .rotate position thread => Sys2Proof.Machine.execRotate position thread s
  | .fieldExtract position thread => Sys2Proof.Machine.execFieldExtract position thread s
  | .fieldInsert position thread => Sys2Proof.Machine.execFieldInsert position thread s
  | .load8b position thread => Sys2Proof.Machine.execLoad8b position thread s
  | .store8b position thread => Sys2Proof.Machine.execStore8b position thread s
  | .atomicAdd position thread => Sys2Proof.Machine.execAtomicAdd position thread s
  | .compareAndSwap position thread => Sys2Proof.Machine.execCompareAndSwap position thread s
  | .readHead position thread => Sys2Proof.Machine.execReadHead position thread s
  | .readParseRecord position thread => Sys2Proof.Machine.execReadParseRecord position thread s
  | .readPacketBuffer position thread => Sys2Proof.Machine.execReadPacketBuffer position thread s
  | .appendEdit position thread edit => Sys2Proof.Machine.execAppendEdit position thread edit s
  | .readLedgerFields position thread => Sys2Proof.Machine.execReadLedgerFields position thread s
  | .payloadRead position thread => Sys2Proof.Machine.execPayloadRead position thread s
  | .parse position thread => Sys2Proof.Machine.execParse position thread s
  | .classify position thread => Sys2Proof.Machine.execClassify position thread s
  | .lookup position thread table key => Sys2Proof.Machine.execLookup position thread table key s
  | .checksum position thread off len => Sys2Proof.Machine.execChecksum position thread off len s
  | .hash position thread => Sys2Proof.Machine.execHash position thread s
  | .headerRewrite position thread edit => Sys2Proof.Machine.execHeaderRewrite position thread edit s
  | .setDestination position thread dest => Sys2Proof.Machine.execSetDestination position thread dest s
  | .dropRequest position thread => Sys2Proof.Machine.execDropRequest position thread s
  | .learnOffer position thread offer => Sys2Proof.Machine.execLearnOffer position thread offer s
  | .dmaAssist position thread => Sys2Proof.Machine.execDmaAssist position thread s
  | .partnerChannelSend position thread => Sys2Proof.Machine.execPartnerChannelSend position thread s
  | .channelWrite position thread => Sys2Proof.Machine.execChannelWrite position thread s
  | .channelClose position thread => Sys2Proof.Machine.execChannelClose position thread s
  | .channelRead position thread => Sys2Proof.Machine.execChannelRead position thread s
  | .channelDiscard position thread => Sys2Proof.Machine.execChannelDiscard position thread s
  | .flagSet position thread => Sys2Proof.Machine.execFlagSet position thread s
  | .flagClear position thread => Sys2Proof.Machine.execFlagClear position thread s
  | .counterAdd position thread cell amount => Sys2Proof.Machine.execCounterAdd position thread cell amount s
  | .stateWrite position thread cell value => Sys2Proof.Machine.execStateWrite position thread cell value s
  | .sequenceBearingRequest position thread kind ctx => Sys2Proof.Machine.execSequenceBearingRequest position thread kind ctx s
  | .assistAnswer position thread kind => Sys2Proof.Machine.execAssistAnswer position thread kind s
  | .channelWordDelivery position channel => Sys2Proof.Machine.execChannelWordDelivery position channel s
  | .waitLimitExpiry position thread => Sys2Proof.Machine.execWaitLimitExpiry position thread s
  | .standstill position => Sys2Proof.Machine.execStandstill position s
  | .dbgStop position thread => Sys2Proof.Machine.execDbgStop position thread s
  | .dbgResume position thread => Sys2Proof.Machine.execDbgResume position thread s
  | .dbgStep position thread => Sys2Proof.Machine.execDbgStep position thread s
  | .dbgKill position thread => Sys2Proof.Machine.execDbgKill position thread s
  | .csRead position => Sys2Proof.Machine.execCsRead position s
  | .csWrite position => Sys2Proof.Machine.execCsWrite position s
  | .memoryScrub mem found => Sys2Proof.Machine.execMemoryScrub mem found s
  | .eccError place correctable => Sys2Proof.Machine.execEccError place correctable s
  | .handshakeTimeout unit inst silent => Sys2Proof.Machine.execHandshakeTimeout unit inst silent s
  | .hbmStackLost stack => Sys2Proof.Machine.execHbmStackLost stack s
  | .moverFault mover => Sys2Proof.Machine.execMoverFault mover s
  | .controlCoreFault core code => Sys2Proof.Machine.execControlCoreFault core code s
  | .faultAck seq => Sys2Proof.Machine.execFaultAck seq s
  | .mtbRead mid port cmd => Sys2Proof.Machine.execMtbRead mid port cmd s
  | .mtbWrite mid port cmd => Sys2Proof.Machine.execMtbWrite mid port cmd s
  | .mtbInsert mid port cmd => Sys2Proof.Machine.execMtbInsert mid port cmd s
  | .mtbDelete mid port cmd => Sys2Proof.Machine.execMtbDelete mid port cmd s
  | .mtbSearch mid port cmd => Sys2Proof.Machine.execMtbSearch mid port cmd s
  | .mtbAgeQuery mid port cmd => Sys2Proof.Machine.execMtbAgeQuery mid port cmd s
  | .mtbStage mid port cmd => Sys2Proof.Machine.execMtbStage mid port cmd s
  | .mtbDirectWrite mid port cmd => Sys2Proof.Machine.execMtbDirectWrite mid port cmd s
  | .mtbDirectRead mid port cmd => Sys2Proof.Machine.execMtbDirectRead mid port cmd s
  | .prefixAdd mid port cmd => Sys2Proof.Machine.execPrefixAdd mid port cmd s
  | .prefixDelete mid port cmd => Sys2Proof.Machine.execPrefixDelete mid port cmd s
  | .prefixSearch mid port cmd => Sys2Proof.Machine.execPrefixSearch mid port cmd s
  | .ternaryWrite mid port cmd => Sys2Proof.Machine.execTernaryWrite mid port cmd s
  | .ternaryRead mid port cmd => Sys2Proof.Machine.execTernaryRead mid port cmd s
  | .mtbCommandDone port => Sys2Proof.Machine.execMtbCommandDone port s
  | .learnOfferProcess figure => Sys2Proof.Machine.execLearnOfferProcess figure s
  | .ageScanVisit table bucket slot => Sys2Proof.Machine.execAgeScanVisit table bucket slot s
  | .rehashStart table => Sys2Proof.Machine.execRehashStart table s
  | .rehashResume table => Sys2Proof.Machine.execRehashResume table s
  | .rehashWalkBucket table => Sys2Proof.Machine.execRehashWalkBucket table s
  | .compareStart table => Sys2Proof.Machine.execCompareStart table s
  | .compareRegion table data => Sys2Proof.Machine.execCompareRegion table data s
  | .compareRecheck table data => Sys2Proof.Machine.execCompareRecheck table data s
  | .compareIntervalExpiry table => Sys2Proof.Machine.execCompareIntervalExpiry table s
  | .compareFifoRead mid => Sys2Proof.Machine.execCompareFifoRead mid s
  | .roceAckTimeout qpn => Sys2Proof.Machine.execRoceAckTimeout qpn s
  | .cnpRateStep qpn => Sys2Proof.Machine.execCnpRateStep qpn s
  | .send ring => Sys2Proof.Machine.execSend ring s
  | .sendWithImmediate ring => Sys2Proof.Machine.execSendWithImmediate ring s
  | .rdmaWrite ring => Sys2Proof.Machine.execRdmaWrite ring s
  | .rdmaWriteWithImmediate ring => Sys2Proof.Machine.execRdmaWriteWithImmediate ring s
  | .rdmaRead ring => Sys2Proof.Machine.execRdmaRead ring s
  | .recv ring => Sys2Proof.Machine.execRecv ring s
  | .nvmeSqTailDoorbell fn sq tail => Sys2Proof.Machine.execNvmeSqTailDoorbell fn sq tail s
  | .nvmeCcEnClear fn => Sys2Proof.Machine.execNvmeCcEnClear fn s
  | .nvmeIdentify fn => Sys2Proof.Machine.execNvmeIdentify fn s
  | .nvmeCreateIoSq fn => Sys2Proof.Machine.execNvmeCreateIoSq fn s
  | .nvmeCreateIoCq fn => Sys2Proof.Machine.execNvmeCreateIoCq fn s
  | .nvmeDeleteIoSq fn => Sys2Proof.Machine.execNvmeDeleteIoSq fn s
  | .nvmeDeleteIoCq fn => Sys2Proof.Machine.execNvmeDeleteIoCq fn s
  | .nvmeGetFeatures fn => Sys2Proof.Machine.execNvmeGetFeatures fn s
  | .nvmeSetFeatures fn => Sys2Proof.Machine.execNvmeSetFeatures fn s
  | .nvmeGetLogPage fn => Sys2Proof.Machine.execNvmeGetLogPage fn s
  | .nvmeAbort fn => Sys2Proof.Machine.execNvmeAbort fn s
  | .nvmeAsyncEventRequest fn => Sys2Proof.Machine.execNvmeAsyncEventRequest fn s
  | .nvmeRead fn sq => Sys2Proof.Machine.execNvmeRead fn sq s
  | .nvmeWrite fn sq => Sys2Proof.Machine.execNvmeWrite fn sq s
  | .nvmeFlush fn sq => Sys2Proof.Machine.execNvmeFlush fn sq s
  | .nvmeWriteZeroes fn sq => Sys2Proof.Machine.execNvmeWriteZeroes fn sq s
  | .nvmeDatasetManagement fn sq => Sys2Proof.Machine.execNvmeDatasetManagement fn sq s
  | .nvmeTcpRtoExpiry conn => Sys2Proof.Machine.execNvmeTcpRtoExpiry conn s
  | .barStart => Sys2Proof.Machine.execBarStart s
  | .schNodeRead mid level index => Sys2Proof.Machine.execSchNodeRead mid level index s
  | .schNodeWrite mid level index => Sys2Proof.Machine.execSchNodeWrite mid level index s
  | .schNodeCmdDone => Sys2Proof.Machine.execSchNodeCmdDone s
  | .dmaStart mid channel => Sys2Proof.Machine.execDmaStart mid channel s
  | .dmaStop mid channel => Sys2Proof.Machine.execDmaStop mid channel s
  | .dmaResume mid channel => Sys2Proof.Machine.execDmaResume mid channel s
  | .dmaRequest mid channel => Sys2Proof.Machine.execDmaRequest mid channel s
  | .dmaDescriptorFetched channel => Sys2Proof.Machine.execDmaDescriptorFetched channel s
  | .dmaBurstStart channel => Sys2Proof.Machine.execDmaBurstStart channel s
  | .dmaBurstComplete channel => Sys2Proof.Machine.execDmaBurstComplete channel s
  | .portUp port => Sys2Proof.Machine.execPortUp port s
  | .portDown loss => Sys2Proof.Machine.execPortDown loss s
  | .laneCalibrationDone lane value => Sys2Proof.Machine.execLaneCalibrationDone lane value s
  | .laneCalCheck lane drift => Sys2Proof.Machine.execLaneCalCheck lane drift s
  | .frameTransmit mac cls => Sys2Proof.Machine.execFrameTransmit mac cls s
  | .pauseFrame mac quanta => Sys2Proof.Machine.execPauseFrame mac quanta s
  | .pfcFrame mac classes quanta => Sys2Proof.Machine.execPfcFrame mac classes quanta s
  | .pauseTimerExpiry mac cls => Sys2Proof.Machine.execPauseTimerExpiry mac cls s
  | .xoffRefresh mac cls => Sys2Proof.Machine.execXoffRefresh mac cls s
  | .stormWatchdogExpiry mac cls => Sys2Proof.Machine.execStormWatchdogExpiry mac cls s
  | .stormEnd mac cls => Sys2Proof.Machine.execStormEnd mac cls s
  | .lpiIdleExpiry port => Sys2Proof.Machine.execLpiIdleExpiry port s
  | .flexeCalendarSwitch port => Sys2Proof.Machine.execFlexeCalendarSwitch port s
  | .flexeSwitchDone port => Sys2Proof.Machine.execFlexeSwitchDone port s
  | .flexeSwitchTimeout port => Sys2Proof.Machine.execFlexeSwitchTimeout port s
  | .flexeOverheadLockLoss loss => Sys2Proof.Machine.execFlexeOverheadLockLoss loss s
  | .macCounterRead mid mac counter => Sys2Proof.Machine.execMacCounterRead mid mac counter s
  | .tempoTick ticks => Sys2Proof.Machine.execTempoTick ticks s
  | .referenceLost => Sys2Proof.Machine.execReferenceLost s
  | .referenceRestored => Sys2Proof.Machine.execReferenceRestored s
  | .uncertaintyUpdate => Sys2Proof.Machine.execUncertaintyUpdate s
  | .holdoverEntry domain => Sys2Proof.Machine.execHoldoverEntry domain s
  | .incrementCommit domain value => Sys2Proof.Machine.execIncrementCommit domain value s
  | .domainSet domain => Sys2Proof.Machine.execDomainSet domain s
  | .domainAdd domain => Sys2Proof.Machine.execDomainAdd domain s
  | .domainTimeRead mid domain => Sys2Proof.Machine.execDomainTimeRead mid domain s
  | .tempoSnapshot => Sys2Proof.Machine.execTempoSnapshot s
  | .domainAnchor domain value => Sys2Proof.Machine.execDomainAnchor domain value s
  | .slotArm slot => Sys2Proof.Machine.execSlotArm slot s
  | .slotDisarm slot => Sys2Proof.Machine.execSlotDisarm slot s
  | .slotSwitch slot toSource => Sys2Proof.Machine.execSlotSwitch slot toSource s
  | .slotPulse slot => Sys2Proof.Machine.execSlotPulse slot s
  | .pulseWidthEnd slot => Sys2Proof.Machine.execPulseWidthEnd slot s
  | .slewComplete slot => Sys2Proof.Machine.execSlewComplete slot s
  | .launchGateOpen item => Sys2Proof.Machine.execLaunchGateOpen item s
  | .launchTime mac => Sys2Proof.Machine.execLaunchTime mac s
  | .timeIoEdge pin rising => Sys2Proof.Machine.execTimeIoEdge pin rising s
  | .captureIntervalEnd pin => Sys2Proof.Machine.execCaptureIntervalEnd pin s
  | .pinConfigWrite pin value => Sys2Proof.Machine.execPinConfigWrite pin value s
  | .mbxSend mid channel len => Sys2Proof.Machine.execMbxSend mid channel len s
  | .mbxRxLatch mid channel => Sys2Proof.Machine.execMbxRxLatch mid channel s
  | .mbxRxAck mid channel code => Sys2Proof.Machine.execMbxRxAck mid channel code s
  | .eventSwTrigger bits => Sys2Proof.Machine.execEventSwTrigger bits s
  | .eventEoi pf source => Sys2Proof.Machine.execEventEoi pf source s
  | .eventRouteWrite pf source value => Sys2Proof.Machine.execEventRouteWrite pf source value s
  | .eventMessageIssue pf source => Sys2Proof.Machine.execEventMessageIssue pf source s
  | .stormLimitMillisecond => Sys2Proof.Machine.execStormLimitMillisecond s
  | .causeMaskWrite unit inst off value => Sys2Proof.Machine.execCauseMaskWrite unit inst off value s
  | .registerWrite mid unit inst off bytes value => Sys2Proof.Machine.execRegisterWrite mid unit inst off bytes value s
  | .ringGroupCreate fn => Sys2Proof.Machine.execRingGroupCreate fn s
  | .ringGroupDestroy fn => Sys2Proof.Machine.execRingGroupDestroy fn s
  | .ringCreate fn => Sys2Proof.Machine.execRingCreate fn s
  | .ringEnable fn => Sys2Proof.Machine.execRingEnable fn s
  | .ringDisable fn => Sys2Proof.Machine.execRingDisable fn s
  | .ringRestart fn => Sys2Proof.Machine.execRingRestart fn s
  | .ringDestroy fn => Sys2Proof.Machine.execRingDestroy fn s
  | .ringTune fn => Sys2Proof.Machine.execRingTune fn s
  | .tenantCreate fn => Sys2Proof.Machine.execTenantCreate fn s
  | .tenantDestroy fn => Sys2Proof.Machine.execTenantDestroy fn s
  | .vfAssign fn => Sys2Proof.Machine.execVfAssign fn s
  | .vfProperties fn => Sys2Proof.Machine.execVfProperties fn s
  | .functionReset fn => Sys2Proof.Machine.execFunctionReset fn s
  | .drainEnd fn => Sys2Proof.Machine.execDrainEnd fn s
  | .contextCreate fn => Sys2Proof.Machine.execContextCreate fn s
  | .contextChange fn => Sys2Proof.Machine.execContextChange fn s
  | .contextDestroy fn => Sys2Proof.Machine.execContextDestroy fn s
  | .sitOut fn => Sys2Proof.Machine.execSitOut fn s
  | .rejoin fn => Sys2Proof.Machine.execRejoin fn s
  | .rejoinTestDone unit inst pass => Sys2Proof.Machine.execRejoinTestDone unit inst pass s
  | .imageStage fn img => Sys2Proof.Machine.execImageStage fn img s
  | .imageApply fn => Sys2Proof.Machine.execImageApply fn s
  | .epilogueResend fn => Sys2Proof.Machine.execEpilogueResend fn s
  | .getConfiguration fn => Sys2Proof.Machine.execGetConfiguration fn s
  | .setMacFilter fn => Sys2Proof.Machine.execSetMacFilter fn s
  | .setVlanFilter fn => Sys2Proof.Machine.execSetVlanFilter fn s
  | .linkQuery fn => Sys2Proof.Machine.execLinkQuery fn s
  | .s44SoftReset fn => Sys2Proof.Machine.execS44SoftReset fn s
  | .s44QueueEnable fn queue value => Sys2Proof.Machine.execS44QueueEnable fn queue value s
  | .s44QueueDisable fn queue value => Sys2Proof.Machine.execS44QueueDisable fn queue value s
  | .bulkTransfer fn => Sys2Proof.Machine.execBulkTransfer fn s
  | .cancel fn => Sys2Proof.Machine.execCancel fn s
  | .stpTrainingDone width => Sys2Proof.Machine.execStpTrainingDone width s
  | .stpTrainingRetry => Sys2Proof.Machine.execStpTrainingRetry s
  | .stpFlitSend => Sys2Proof.Machine.execStpFlitSend s
  | .stpDataFlit flit => Sys2Proof.Machine.execStpDataFlit flit s
  | .stpDataLastFlit flit => Sys2Proof.Machine.execStpDataLastFlit flit s
  | .stpMessageFlit flit => Sys2Proof.Machine.execStpMessageFlit flit s
  | .stpControlFlit flit peerId peerS9640 => Sys2Proof.Machine.execStpControlFlit flit peerId peerS9640 s
  | .stpIdleFlit flit => Sys2Proof.Machine.execStpIdleFlit flit s
  | .stpAckTimeout => Sys2Proof.Machine.execStpAckTimeout s
  | .stpMatchTimeout stream => Sys2Proof.Machine.execStpMatchTimeout stream s
  | .bypass => Sys2Proof.Machine.execBypass s
  | .samplePreload => Sys2Proof.Machine.execSamplePreload s
  | .extest => Sys2Proof.Machine.execExtest s
  | .idcode => Sys2Proof.Machine.execIdcode s
  | .dbgChallenge => Sys2Proof.Machine.execDbgChallenge s
  | .dbgResponse slot signature => Sys2Proof.Machine.execDbgResponse slot signature s
  | .trstNAssert => Sys2Proof.Machine.execTrstNAssert s
  | .switchedWaitExpiry item => Sys2Proof.Machine.execSwitchedWaitExpiry item s
  | .stpFlitDiscard flit => Sys2Proof.Machine.execStpFlitDiscard flit s
  | .stpPeerDown => Sys2Proof.Machine.execStpPeerDown s
  | .aspmL1Entry link => Sys2Proof.Machine.execAspmL1Entry link s
  | .peerLpiChange port lpi => Sys2Proof.Machine.execPeerLpiChange port lpi s
  | .nvmeCcEnSet fn => Sys2Proof.Machine.execNvmeCcEnSet fn s
  | .testenAssert => Sys2Proof.Machine.execTestenAssert s
  | .mainRailsRestored findings => Sys2Proof.Machine.execMainRailsRestored findings s
  | .doeDiscovery pf index => Sys2Proof.Machine.execDoeDiscovery pf index s

end Sys2Proof.Machine
end

