-- ==== Sys2Proof/Machine/Idle.lean ====
section
/-!
DEFINITION. What the block does while no command waits: a service reset in progress goes on from step 5 of R82, firmware goes on
with the requests it holds and with an apply, a retention record begins to close, and firmware refuses requests of kinds that no rule names (notes/assumptions/5.md).
-/

namespace Sys2Proof.Machine

/-- Firmware's own work while the device runs. -/
def Dev.firmwareIdle (d : Dev) : Dev := Dev.each d.funcs.keys Dev.refuseUnknown d.coresGoOn.goOnJobs

/-- A retention record begins to close where a K field was written since the last (R76). -/
def Dev.recordIdle (d : Dev) : Dev := if d.keep.dirty then d.beginRecord else d

/-- An idle step. -/
def idle (s : State) : State :=
  let s := s.finishService
  if s.dev.phase = .running then State.goOnApply { s with dev := s.dev.firmwareIdle.recordIdle } else s

end Sys2Proof.Machine
end

