-- ==== Sys2Proof/Safety.lean ====
section
/-!
DEFINITION. What counts as a safe state and a safe step of the block, in the terms that statements use.
-/

namespace Sys2Proof.Machine

/-- The fuses stand as the die allows: the floor is a 64-step counter, and Qorsol's slot 0 is programmed (R63). -/
def Fuses.ok (f : Fuses) : Prop := f.floor ≤ 64 ∧ f.slot0.programmed = true

/-- A fuse slot changed only as a fuse can: once programmed it keeps its digest, and a revoked slot stays revoked (R63). -/
def KeySlot.grows (a b : KeySlot) : Prop := (a.programmed = true → b.programmed = true ∧ b.digest = a.digest) ∧ (a.revoked = true → b.revoked = true)

/-- The fuses changed only as fuses can. -/
def Fuses.grows (a b : Fuses) : Prop :=
  a.slot0.grows b.slot0 ∧ a.slot1.grows b.slot1 ∧ a.slot2.grows b.slot2 ∧ a.slot3.grows b.slot3 ∧ a.floor ≤ b.floor

/-! ## Starts and resets -/

/-- The device of `t` is held in a cold reset that `s` went into: what R80 loses is lost, what it keeps outside the device is there. -/
def heldFrom (s t : State) : Prop :=
  t.dev.phase = .held ∧ t.dev.items = {} ∧ t.dev.rings = {} ∧ t.dev.links = {} ∧ t.dev.funcs = {} ∧
  (∀ n, n < 256 → t.dev.logHeld n = false) ∧ t.dev.dbg.unlocked = false ∧ t.dev.dbg.fails = 0 ∧ t.dev.die = s.dev.die ∧
  t.fuses = s.fuses ∧ t.flash.slotA = s.flash.slotA ∧ t.flash.slotB = s.flash.slotB ∧ t.pending = s.pending

/-- A cold start from `s` has ended in `t`: with the image that the loader picked (R64), or in recovery (R65, R481). -/
def startedFrom (f : StartFindings) (s t : State) : Prop :=
  match (if f.hbmBad then none else (s.flash.pick s.dev.die.variant s.fuses).1) with
  | none => t.dev.phase = .recovery
  | some p => t.dev.phase = .running ∧ t.dev.card.valid = true ∧ t.dev.card.gen = 2 ∧ t.dev.boot.image = some p.image ∧ t.dev.boot.slot = p.slot

/-- A snapshot write began in `s`: the older slot is erased, the record waits, snap_busy reads 1 (R77). -/
def snapshotBegun (s t : State) : Prop :=
  t.flash = s.flash.putSnap s.flash.olderSnap none ∧ t.dev.boot.snapshot = some (s.dev.retain s.flash.snapSeq) ∧
  t.dev.boot.snapSlot = s.flash.olderSnap ∧ t.dev.rd R.BOOT_STATUS_snap_busy = 1 ∧ t.fuses = s.fuses

/-- What was retained in `s` is discarded in `t` (R79). -/
def discardedFrom (s t : State) : Prop :=
  t.dev.keep.record = none ∧ t.dev.keep.discard = true ∧ t.flash.snap0 = none ∧ t.flash.snap1 = none ∧ t.flash.dir0 = s.flash.dir0 ∧
  t.flash.dir1 = s.flash.dir1 ∧ t.flash.slotA = s.flash.slotA ∧ t.flash.slotB = s.flash.slotB ∧ t.fuses = s.fuses ∧
  t.dev.regs = s.dev.regs ∧ t.dev.phase = s.dev.phase

/-! ## Power -/

/-- The request that the rules 2 to 6 of R93 and R94 ask for with boost closed, before the clamp. -/
def steppedRequest (d : Dev) : Nat :=
  let now := d.rd R.PWR_VDD_request_mv
  let pace := d.rd R.PWR_PACE_pace
  if d.power.hot then (if 199 ≤ d.power.sinceThermal then now - 5 else now)
  else if 10 * pace < 7 * 32768 ∧ now < 800 then 800
  else if d.overLimit then now - 5
  else if pace < d.rd R.PWR_TARGET_pace_target then now + 5
  else if d.rd R.PWR_TARGET_pace_target * 1000 + 20 * 32768 < pace * 1000 then now - 5
  else now

/-! ## The debug port and the responder -/

/-- The JTAG commands beside a response. -/
def tapCommands : List Instr := [.bypass, .samplePreload, .extest, .idcode, .dbgChallenge, .trstNAssert]

/-- The SPDM requests that need no operands. -/
def spdmRequests (via : SpdmPath) : List Instr := [.getVersion via, .getCapabilities via, .negotiateAlgorithms via, .getDigests via]

/-! ## Links and functions -/

/-- Function `fn` exists and holds nothing that a reset of it would have to take back. -/
def Dev.holdsNothing (d : Dev) (fn : Nat) : Prop :=
  d.hasFn fn = true ∧ d.ringsOf fn = [] ∧ d.readsOf fn = [] ∧ d.dmaChannelsOf fn = [] ∧ d.nvmes.has fn = false ∧
  d.items = {} ∧ d.qps = {} ∧ d.jobs = {} ∧ d.stp.xfers = [] ∧ (d.fn fn).outbox = [] ∧ d.postedOf fn = []

/-- As `holdsNothing`, a native function, and no epilogue record of it stands. -/
def Dev.quiet (d : Dev) (fn : Nat) : Prop := d.holdsNothing fn ∧ d.isS44 fn = false ∧ d.epilogues.get? fn = none

/-- Function `fn` of `s` is in a reset of `kind` in `t`: its generation advanced, its epilogue record open with `cause` (R125, R126,
R171). -/
def resetBegun (fn cause : Nat) (kind : FnReset) (s t : State) : Prop :=
  (t.dev.fn fn).reset = kind ∧ (t.dev.fn fn).gen = ((s.dev.fn fn).gen + 1) % 65536 ∧
  t.dev.epilogues.get? fn = some { cause := cause, oldGen := (s.dev.fn fn).gen }

/-- PCX_RESET_RECORD and PCX_RESET_COUNT took a link reset of this code; keys and a commit in progress are lost (R125, R131). -/
def linkTaken (link code : Nat) (s t : State) : Prop :=
  t.dev.rd R.PCX_RESET_RECORD_last link = code ∧
  t.dev.rd R.PCX_RESET_COUNT_resets link = (s.dev.rd R.PCX_RESET_COUNT_resets link + 1) % 2 ^ R.PCX_RESET_COUNT_resets.width ∧
  (t.dev.link link).ideKeys = none ∧ (t.dev.link link).commit = none ∧ t.dev.rd R.PCX_LINK_STATUS_ide_secure link = 0

/-- The link of `t` trains after a reset (R125 step 6). -/
def linkTrains (link : Nat) (t : State) : Prop :=
  (t.dev.link link).reset = .none ∧ (t.dev.link link).training = true ∧ t.dev.rd R.PCX_LINK_STATUS_state link = 2 ∧
  t.dev.on (pcxCauses.bit 2) link = true

/-! ## Rings and items -/

/-- A ring after its interrupt condition was looked at: an armed ring whose condition is met is disarmed (R145). -/
def Ring.afterIrq (g : Ring) : Ring := if g.armed && g.irqDue then { g with armed := false } else g

/-- What has left the device once ring `g` came to stand so: the ring's vector is raised where it is armed and due. -/
def Dev.outAfterIrq (d : Dev) (g : Ring) : List Output := if g.armed && g.irqDue then (d.sendVector g.fn g.vector).out else d.out

/-- Ring `g` with a new `cqHead`. -/
def Ring.headMoved (g : Ring) (head : Nat) (arm : Bool) : Ring :=
  let g := { g with cqHead := head, armed := g.armed || arm }
  if g.pendingCpl == 0 then { g with timer := false, expired := false } else g

/-- The parse record of a frame at port `m`, with its class. -/
def Dev.portParse (d : Dev) (m : Nat) (f : Frame) : Parse :=
  let p := parse d.parseCfg f
  { p with source := m, tc := d.portTc m p }

/-- The item that port `m` makes of a frame that is neither tunnelled nor for a connection or an SA. -/
def Dev.plainItem (d : Dev) (m : Nat) (f : Frame) (vnid : Nat) : Item :=
  let p := { d.portParse m f with vnid := vnid }
  { kind := 1, source := m, bytes := f, stamp := d.portStamp m true, since := d.plane m true, job := 3, cryPosition := 64
    parse := { p with hashInner := p.terminated && d.on R.PPL_PORT_FLOW_hash_inner 0 (16 * m) } }

/-! ## Microcode -/

/-- Thread `t` of position `p` stands ready at a legal microword whose check is right, with an item; its engine's next step falls to it,
and nothing in the position waits. -/
def Dev.atWord (d : Dev) (p t : Nat) : Prop :=
  (d.thread p t).state = .ready ∧ (d.thread p t).item.isSome = true ∧ (d.thread p t).wait = none ∧ d.named p t = true ∧
  checkOk (d.word p t) = true ∧ d.legalAt p (d.word p t) = true ∧ d.waiters p = []

/-- Its datapath part is function `f` of class `cls`, and has not issued. -/
def Dev.atData (d : Dev) (p t cls f : Nat) : Prop :=
  d.atWord p t ∧ mwClass (d.word p t) = cls ∧ mwFunc (d.word p t) = f ∧ (d.thread p t).issuedData = false

/-- Its next-address operation is `op`, the datapath part is through, and neither the distance from a yield point nor the debugger
intervenes. -/
def Dev.atNext (d : Dev) (p t op : Nat) : Prop :=
  d.atWord p t ∧ mwNext (d.word p t) = op ∧ (mwClass (d.word p t) = 0 ∨ (d.thread p t).issuedData = true) ∧
  (d.thread p t).kill = false ∧ (mwYield (d.word p t) = true ∨ (d.thread p t).sinceYield < 1023)

/-- In `s'` thread `t` of position `p` is `th`, every other thread and, but for the Callers, the rest of every site are as in `s`. -/
def threadBecomes (p t : Nat) (th : Thread) (s s' : State) : Prop :=
  s'.dev.thread p t = th ∧ (∀ u, u ≠ t → s'.dev.thread p u = s.dev.thread p u) ∧
  s'.dev.siteAt p = { s.dev.siteAt p with threads := (s'.dev.siteAt p).threads, callers := (s'.dev.siteAt p).callers } ∧
  (∀ q, (s.dev.setAt q).site ≠ (s.dev.setAt p).site → s'.dev.siteAt q = s.dev.siteAt q)

/-- Nothing but sites and the count of free values differs. -/
def onlySites (s s' : State) : Prop :=
  s' = { s with dev := { s.dev with sites := s'.dev.sites, freeCtr := s'.dev.freeCtr } }

/-- The device once thread `t` of position `p` has taken its engine's token for the microword at its pc, which SET_ISSUED counts, or has had
it for the datapath part (R242, R243, R268). -/
def Dev.tokenFor (p t : Nat) (d : Dev) : Dev := if (d.thread p t).issuedData then d else (d.takeToken p t).countIssued p

/-- The device as the datapath part of that microword acts on it. -/
def Dev.issued (p t : Nat) (d : Dev) : Dev := (d.tokenFor p t).onThread p t (fun th => { th with issuedData := true })

/-- Thread `t` of position `p` issued, with the token and the count that this takes; beside them sites and the count of free values differ
at most. -/
def issues (p t : Nat) (s s' : State) : Prop :=
  s' = { s with dev := { s.dev with sites := s'.dev.sites, freeCtr := s'.dev.freeCtr, regs := (s.dev.tokenFor p t).regs } } ∧
  (s'.dev.siteAt p).callers = ((s.dev.tokenFor p t).siteAt p).callers

/-- A thread after an arithmetic function with result `r`. -/
def Thread.computed (th : Thread) (k : Option Nat) (r : Word64) (carry overflow : Bool) : Thread :=
  { th with
    issuedData := true
    regs := match k with
      | some n => th.regs.set n r
      | none => th.regs
    zero := r == 0
    negative := r.msb
    carry := carry
    overflow := overflow }

/-- A thread that goes on at `pc`. -/
def Thread.goesTo (th : Thread) (w : Microword) (pc : Nat) : Thread :=
  { th with pc := pc % 16384, issuedData := false, sinceYield := if mwYield w then 0 else th.sinceYield + 1 }

/-- SET_ISSUED of position `p` counted one microword. -/
def issuedOne (p : Nat) (s s' : State) : Prop :=
  s'.dev.rd64 R.SET_ISSUED_LO_issued R.SET_ISSUED_HI_issued p = (s.dev.rd64 R.SET_ISSUED_LO_issued R.SET_ISSUED_HI_issued p + 1) % 2 ^ 64

/-- Thread `t` of position `p` took a fault: it is idle, its item failed with reason 4, and the fault is counted (R259, R260). -/
def faulted (p t i : Nat) (s s' : State) : Prop :=
  (s'.dev.thread p t).state = .idle ∧ (s'.dev.thread p t).item = none ∧
  s'.dev.rd R.SET_THREAD_FAULTS_count p = (s.dev.rd R.SET_THREAD_FAULTS_count p + 1) % 2 ^ R.SET_THREAD_FAULTS_count.width ∧
  s'.dev.on (setCauses.bit 0) p = true ∧ ∀ x, s'.dev.item? i = some x → x.failed = some 4 ∧ x.status = 6

/-- An item that an edit joins (R159); a template that the edit names is read (R204). -/
def Dev.edited (d : Dev) (it : Item) (e : Edit) : Item :=
  { it with edits := it.edits ++ [e], template := match e with
    | .encap n => some (d.directEntry templateTable n)
    | _ => it.template }

/-- Is ring `r` a receive ring? -/
def Dev.isRxRing (d : Dev) (r : Nat) : Bool := ((d.ring? r).map (fun g => g.kind == 1)).getD false

/-- The request of kind `kind` that thread `th` adds, with its answer. -/
def Thread.asked (th : Thread) (kind dst : Nat) (answer : Word64) (writes : Bool) : Thread :=
  { th with issuedData := true, assists := th.assists ++ [{ kind := kind, dst := dst, answer := answer, writes := writes }] }

/-- One more wait of position `p` has begun. -/
def waitCounted (p : Nat) (s : State) : State := { s with dev := s.dev.onSite p (fun x => { x with waits := x.waits + 1 }) }

/-! ## Match tables and faults -/

/-- Port `p` takes a command of its own PF (R221). -/
def Dev.portTakes (d : Dev) (mid p : Nat) : Prop := p < 16 ∧ mid = 0x1000 + p ∧ d.on R.MTB_CMD_STATUS_busy 0 (256 * p) = false

/-- Table `t` is of a kind, and the schema lets hosts write it (R208). -/
def Dev.tableTakes (d : Dev) (t kind : Nat) : Prop := d.tabKind t = kind ∧ d.on R.MTB_TABLE_CFG_host_write 0 (32 * t) = true

/-- Port `p` of `s'` runs a command that will post `r`, and shows that it is busy. -/
def portRuns (p : Nat) (r : PortRun) (s' : State) : Prop :=
  s'.dev.mtb.runs.get? p = some r ∧ s'.dev.on R.MTB_CMD_STATUS_busy 0 (256 * p) = true

/-- The command of port `p` has ended with a result, the place that it found and that entry's generation (R222, R223). -/
def portPosted (p result : Nat) (place : Option (Nat × Bool)) (gen : Nat) (s' : State) : Prop :=
  s'.dev.mtb.runs.get? p = none ∧ s'.dev.rd R.MTB_CMD_STATUS_busy 0 (256 * p) = 0 ∧
  s'.dev.rd R.MTB_CMD_STATUS_result 0 (256 * p) = result ∧
  ∀ k b1, place = some (k, b1) → s'.dev.rd R.MTB_CMD_WHERE_bucket 0 (256 * p) = k / 4 % 2 ^ R.MTB_CMD_WHERE_bucket.width ∧
    s'.dev.rd R.MTB_CMD_WHERE_slot 0 (256 * p) = k % 4 ∧ s'.dev.rd R.MTB_CMD_WHERE_gen 0 (256 * p) = gen % 2 ^ R.MTB_CMD_WHERE_gen.width ∧
    s'.dev.rd R.MTB_CMD_WHERE_in_b1 0 (256 * p) = b1.toNat

/-- Command `i` of port `p` is taken, and its end, where nothing comes between, leaves `t`. -/
def portEnds (p : Nat) (i : Instr) (s t : State) : Prop :=
  ∃ s', exec i s = .next s' ∧ s'.dev.on R.MTB_CMD_STATUS_busy 0 (256 * p) = true ∧ exec (.mtbCommandDone p) s' = .next t

/-- The whole table `t` of `s'` is that of `s`. -/
def sameTable (t : Nat) (s s' : State) : Prop := s'.dev.cuckoo t = s.dev.cuckoo t

/-- An error was recorded: the sequence moved on by one, past 0 (R445). -/
def recorded (s t : State) : Prop :=
  t.dev.rd R.FLT_LAST_SEQ_seq = if s.dev.rd R.FLT_LAST_SEQ_seq + 1 = 2 ^ 32 then 1 else (s.dev.rd R.FLT_LAST_SEQ_seq + 1) % 2 ^ 32

/-- A correctable error has no record that it would join, and the log has room for it (R444, R447). -/
def Dev.logsAnew (d : Dev) : Prop := d.heldSlots = []

/-! ## Work requests, NVMe, scheduler, DMA -/

/-- Work descriptor `x` of opcode `op` (5 and above count as 5) stands at the head of ring `r`. -/
def Dev.workStands (d : Dev) (r : Nat) (g : Ring) (x : Desc) (l : List Desc) (op : Nat) : Prop :=
  d.ring? r = some g ∧ g.kind = 2 ∧ g.accepted = x :: l ∧ min 5 (workFields x.bytes).opcode = op

/-- Ring `g` once that descriptor is taken. -/
def Ring.taken (g : Ring) (l : List Desc) : Ring := { g with accepted := l, saved := g.saved - 1 }

/-- Command `x` stands at the head of submission queue `q` of controller `fn`. -/
def Dev.nvmeStands (d : Dev) (fn q seq : Nat) (a : Sq) (b : List Byte) (l : List (Nat × List Byte)) (op : Nat) : Prop :=
  (d.nvme fn).sqs.get? q = some a ∧ a.accepted = (seq, b) :: l ∧ (nvmeFields b).opcode = op

/-- The device with the head of submission queue `q` taken up. -/
def Dev.nvmeTaken (d : Dev) (fn q : Nat) (a : Sq) (l : List (Nat × List Byte)) : Dev :=
  d.onNvme fn (fun x => { x with sqs := x.sqs.set q { a with accepted := l, saved := a.saved - 1 } })

/-- In `t`, QP `q` is in the error state with nothing outstanding (R299). -/
def qpFailed (q : Nat) (t : State) : Prop := t.dev.qpState q = 4 ∧ (t.dev.qp q).reqs = []

/-- Channel `c` runs, nothing in flight, nothing stopping. -/
def Dev.dmaRuns (d : Dev) (c : Nat) : Prop := c < 64 ∧ d.dmaState c = 1 ∧ (d.chanDma c).stopping = false

/-! ## MAC and Tempo -/

/-- A frame left on the line of instance `m` between `s` and `t`, and what left before stands as it was. -/
def frameLeft (m : Nat) (s t : State) : Prop :=
  s.dev.out <+: t.dev.out ∧ ∃ f stomped, Output.lineFrame m f stomped ∈ t.dev.out.drop s.dev.out.length

/-- Class `c` of instance `m` is paused, in the scheduler's sight as well (R316, R352). -/
def Dev.pausedNow (d : Dev) (m c : Nat) : Prop := d.paused m c = true ∧ hasBit (d.rd R.SCH_PORT_paused 0 (4 * m)) c = true

/-- Every instance of port `p` has its registers. -/
def Dev.portSane (d : Dev) (p : Nat) : Prop := p < 32 ∧ ∀ m ∈ d.instancesOf p, m < 256

/-- Slot `n` is in a state. -/
def slotIs (n v : Nat) (t : State) : Prop := t.dev.slotState n = v

/-- What TIME_IO pin `p` shows when a slot drives it to a level: a pin that is no output shows nothing (R388). -/
def Dev.drives (d : Dev) (p : Nat) (level : Bool) : List Output :=
  if d.rd R.TMP_PIN_CFG_dir 0 (4 * p) = 2 then [.pin p level] else []

/-! ## Channels, requests and their answers -/

/-- The message that send command takes from the staged words of channel `c`. -/
def Dev.stagedMsg (d : Dev) (c len : Nat) : Msg :=
  { words := cutWords ((List.range 16).map (fun n => d.rd R.MBX_TX_DATA_data 0 (256 * c + 4 * n))) len
    len := len
    seq := (d.rd R.MBX_TX_STATUS_seq 0 (256 * c) + 1) % 65536 }

/-- Channel `c` of `t` shows its sender that the message with `seq` was answered with `code` (R400, R401). -/
def ackShown (c code seq : Nat) (t : State) : Prop :=
  t.dev.rd R.MBX_TX_ACK_code 0 (256 * c) = code % 65536 ∧ t.dev.rd R.MBX_TX_ACK_ack_seq 0 (256 * c) = seq % 65536 ∧
  t.dev.on R.MBX_TX_STATUS_acked 0 (256 * c) = true

/-- Firmware may send to function `fn` at once: its receiving channel is bound and free, and nothing is owed to it (R417). -/
def Dev.hears (d : Dev) (fn : Nat) : Prop :=
  fn < 8208 ∧ d.hasFn fn = true ∧ (d.fn fn).outbox = [] ∧ d.jobs = {} ∧ d.quietFn fn = false ∧ (d.chan (receiveChannel fn)).held = none ∧
  ∃ m, isCoreMid m = true ∧ d.binding (receiveChannel fn) = some (m, midFn fn)

/-- Function `fn` has sent a request of this kind and tag, of at least `n` words `w`, and can take the answer. -/
def Dev.asks (d : Dev) (fn kind n : Nat) (s44 : Bool) (tag : Nat) (w : List Nat) : Prop :=
  d.hears fn ∧ d.isS44 fn = s44 ∧ (∃ m, isCoreMid m = true ∧ d.binding (requestChannel fn) = some (midFn fn, m)) ∧
  ∃ m, (d.chan (requestChannel fn)).held = some m ∧ m.words = w ∧ m.kind = kind ∧ m.tag = tag ∧ 4 * n ≤ m.len ∧ m.seq < 65536

/-- A message of words `l` stands in the receiving channel of `fn`. -/
def told (fn : Nat) (l : List Nat) (t : State) : Prop :=
  ∃ m, (t.dev.chan (receiveChannel fn)).held = some m ∧ m.words = cutWords l (4 * l.length) ∧ m.len = 4 * l.length

/-- The request of `fn` was taken, and its answer stands in the receiving channel (R417, R418). -/
def answered (fn kind tag status : Nat) (results : List Nat) (t : State) : Prop :=
  (t.dev.chan (requestChannel fn)).held = none ∧
  told fn ([0x80 + 256 * (kind % 256) + 65536 * (tag % 65536), status] ++ results) t

/-- The same in the form of the S4400 personality (R430). -/
def answeredS44 (fn kind tag : Nat) (results : List Nat) (t : State) : Prop :=
  (t.dev.chan (requestChannel fn)).held = none ∧ told fn ([kind + 0x80 + 65536 * (tag % 65536)] ++ results) t

/-- The request of `fn` was taken, and firmware works on it. -/
def takenUp (fn kind tag : Nat) (awaits : Awaits) (s t : State) : Prop :=
  (t.dev.chan (requestChannel fn)).held = none ∧ ∃ j, t.dev.jobs.get? s.dev.nextJob = some j ∧ j.fn = fn ∧ j.kind = kind ∧ j.tag = tag ∧
  j.awaits = awaits

/-! ## The event matrix -/

/-- Does a posted write or message of function `fn` await a translation? -/
def Dev.postsWait (d : Dev) (fn : Nat) : Prop :=
  ∃ p ∈ (d.link (d.linkOf fn)).posted, (∃ addr data a, p = .write fn addr data a) ∨ ∃ v, p = .message fn v

/-- A message of function `fn` on vector `vec` has left, with the entry's steering tag where TPH is enabled (R120), or it has joined the
posted writes of the function that await a translation, which it may not pass. -/
def messageOf (fn vec : Nat) (s t : State) : Prop :=
  (¬ s.dev.postsWait fn →
    t.dev.out = s.dev.out ++ [.msix fn vec (if (s.dev.fn fn).tphEnable = true then some (s.dev.vec fn vec).steering else none)]) ∧
  (s.dev.postsWait fn → t.dev.out = s.dev.out ∧
    (t.dev.link (s.dev.linkOf fn)).posted = (s.dev.link (s.dev.linkOf fn)).posted ++ [.message fn vec])

/-- PF `pf` has an enabled route for `src`, in the mode. -/
def Dev.routeIs (d : Dev) (pf src : Nat) (level : Bool) : Prop := src < 384 ∧ d.routeOn pf src = true ∧ d.routeLevel pf src = level

/-! ## The Stream Port -/

/-- The port is up, and flit `f` is the next in order; it carries no acknowledgement and no nak. -/
def Dev.takesFlit (d : Dev) (f : Flit) : Prop :=
  d.stpRuns = true ∧ f.crcOk = true ∧ f.fseq = d.stp.expect ∧ f.ackValid = false ∧ f.nak = false

/-! ## Set-up and change -/

/-- The ring that word 1 of a request names. -/
def namedRing (w : List Nat) : Nat := bits (reqWord w 1) 0 22

/-- Nothing of a disabled ring's is left to complete (R420). -/
def Dev.ringIdle (d : Dev) (r : Nat) (g : Ring) : Prop :=
  d.ring? r = some g ∧ d.ringQuiet r g = true ∧ g.frame = [] ∧ g.buffers = [] ∧ g.owed = []

/-- The unit and the instance that a request of the in-service change names. -/
def namesUnit (w : List Nat) (unit inst : Nat) : Prop := bits (reqWord w 1) 0 16 = unit ∧ bits (reqWord w 1) 16 16 = inst

/-- Set positions that are filled. -/
def Dev.positionsFilled (d : Dev) : Nat := ((List.range 32).filter d.setFilled).length

/-- PF `fn` is a service PF, and no apply runs (R419, R440). -/
def Dev.serves (d : Dev) (fn : Nat) : Prop := d.isService fn = true ∧ d.applying = false

/-- Every transfer of the Stream Port names a channel and a function of the part, and so does every channel that holds a message. -/
def Dev.stpSane (d : Dev) : Prop := (∀ x ∈ d.stp.xfers, x.channel < 64 ∧ x.fn < 8208) ∧ ∀ c ∈ d.chans.keys, c < 18432

/-! ## Parts of the state -/

/-- The parts that the frames speak of. -/
inductive Part where
  | start
  | debug
  | positions
  | power
  | links
  | functions
  | tenants
  | work
  | channels
  | routes
  | rings
  | items
  | shares
  | ports
  | time
  | tables
  | contexts
  | sets
  | storage
  | engines
  | stream
  | retained
  | registers
  | output
  | flash
  | fuses
  deriving DecidableEq, Repr

/-- The part is the same in both states. -/
def Part.same (p : Part) (s t : State) : Prop :=
  match p with
  | .start => t.dev.phase = s.dev.phase ∧ t.dev.railsGood = s.dev.railsGood ∧ t.dev.resetLow = s.dev.resetLow ∧ t.dev.testen = s.dev.testen ∧
    t.dev.boot = s.dev.boot ∧ t.dev.card = s.dev.card ∧ t.dev.die = s.dev.die
  | .debug => t.dev.dbg = s.dev.dbg ∧ t.dev.eid = s.dev.eid
  | .positions => t.dev.setPos = s.dev.setPos ∧ t.dev.cryPos = s.dev.cryPos ∧ t.dev.cores = s.dev.cores
  | .power => t.dev.power = s.dev.power ∧ t.dev.movers = s.dev.movers
  | .links => t.dev.links = s.dev.links
  | .functions => t.dev.funcs = s.dev.funcs
  | .tenants => t.dev.tenants = s.dev.tenants ∧ t.dev.drains = s.dev.drains
  | .work => t.dev.jobs = s.dev.jobs ∧ t.dev.nextJob = s.dev.nextJob ∧ t.dev.apply = s.dev.apply
  | .channels => t.dev.chans = s.dev.chans
  | .routes => t.dev.routes = s.dev.routes ∧ t.dev.escalations = s.dev.escalations
  | .rings => t.dev.rings = s.dev.rings ∧ t.dev.groups = s.dev.groups ∧ t.dev.ringErrors = s.dev.ringErrors ∧ t.dev.ctxCache = s.dev.ctxCache ∧
    t.dev.ctxSnap = s.dev.ctxSnap
  | .items => t.dev.items = s.dev.items ∧ t.dev.nextItem = s.dev.nextItem ∧ t.dev.admitted = s.dev.admitted ∧
    t.dev.dispatched = s.dev.dispatched ∧ t.dev.failures = s.dev.failures ∧ t.dev.replays = s.dev.replays ∧ t.dev.epilogues = s.dev.epilogues
  | .shares => t.dev.credits = s.dev.credits ∧ t.dev.sched = s.dev.sched
  | .ports => t.dev.macs = s.dev.macs ∧ t.dev.macCounts = s.dev.macCounts
  | .time => t.dev.tempo = s.dev.tempo
  | .tables => t.dev.mtb = s.dev.mtb ∧ t.dev.idents = s.dev.idents ∧ t.dev.counters = s.dev.counters ∧ t.dev.cells = s.dev.cells
  | .contexts => t.dev.ctxs = s.dev.ctxs ∧ t.dev.ctxKeys = s.dev.ctxKeys ∧ t.dev.ctxFailed = s.dev.ctxFailed ∧ t.dev.crySnap = s.dev.crySnap
  | .sets => t.dev.sites = s.dev.sites
  | .storage => t.dev.qps = s.dev.qps ∧ t.dev.conns = s.dev.conns ∧ t.dev.nvmes = s.dev.nvmes
  | .engines => t.dev.dma = s.dev.dma ∧ t.dev.region = s.dev.region
  | .stream => t.dev.stp = s.dev.stp
  | .retained => t.dev.keep = s.dev.keep
  | .registers => t.dev.regs = s.dev.regs
  | .output => t.dev.out = s.dev.out
  | .flash => t.flash = s.flash
  | .fuses => t.fuses = s.fuses

/-- The parts that a command may change; everything else it leaves as it is. -/
def mayChange (c : Instr) : List Part :=
  match c with
  | .standbyPowerOn | .mainRailFail | .sysRstNAssert | .serviceReplayDone | .imageApply _ | .testenAssert =>
    [.start, .debug, .positions, .power, .links, .functions, .tenants, .work, .channels, .routes, .rings, .items, .shares, .ports, .time,
      .tables, .contexts, .sets, .storage, .engines, .stream, .retained, .registers, .output]
  | .standbyBrownout => [.retained]
  | .coldStart _ | .imageStage _ _ | .mainRailsRestored _ =>
    [.start, .debug, .positions, .power, .links, .functions, .tenants, .work, .channels, .routes, .rings, .items, .shares, .ports, .time,
      .tables, .contexts, .sets, .storage, .engines, .stream, .retained, .registers, .output, .flash]
  | .serviceReset | .serviceResetCommand | .handshakeTimeout _ _ _ | .controlCoreFault _ _ =>
    [.start, .positions, .power, .links, .functions, .work, .channels, .routes, .rings, .items, .shares, .ports, .tables, .contexts,
      .sets, .storage, .engines, .stream, .retained, .registers, .output]
  | .doorbellLogDrained _ =>
    [.start, .debug, .positions, .power, .links, .functions, .tenants, .work, .channels, .routes, .rings, .items, .shares, .ports, .time,
      .tables, .contexts, .sets, .storage, .engines, .stream, .retained, .registers, .output, .flash, .fuses]
  | .snapshotNow | .snapshotIntervalExpiry => [.start, .retained, .registers, .output, .flash]
  | .orderlyShutdown => [.start]
  | .shutdownDrainDone | .snapshotWriteDone _ => [.start, .routes, .retained, .registers, .output, .flash]
  | .confirmTrial => [.start, .output, .flash, .fuses]
  | .discardRetained | .mctpDiscard => [.retained, .output, .flash]
  | .retentionRecordClose | .csRead _ | .rehashStart _ | .rehashResume _ | .pauseTimerExpiry _ _ | .stormEnd _ _ | .tempoSnapshot
  | .slotDisarm _ | .aspmL1Entry _ | .peerLpiChange _ _ => [.retained, .registers]
  | .mctpSetEndpointId _ | .bypass | .samplePreload | .extest | .idcode | .dbgChallenge => [.debug, .output]
  | .mctpKeySlotProvision _ _ => [.output, .fuses]
  | .mctpIdeKeyLoad _ _ | .atsInvalidateRequest _ _ _ _ => [.links, .retained, .registers, .output]
  | .mctpFaultLogRead _ | .pldmSensorRead _ | .getVersion _ | .getCapabilities _ | .negotiateAlgorithms _ | .getDigests _
  | .getCertificate _ _ _ _ | .challenge _ _ _ | .getMeasurements _ _ _ | .avsRetryExpiry | .doeDiscovery _ _ => [.output]
  | .pldmFirmwareUpdate _ => [.start, .output, .flash]
  | .paceMeasure _ | .governorTick | .boostBucketAge | .avsTransactionDone _ | .powerPublish _ _ | .tjSample _ | .domainWakeCmd _ =>
    [.power, .routes, .retained, .registers, .output]
  | .paceLowPersist | .domainOffCmd _ | .figureFullPersist _ | .faultAck _ | .dmaResume _ _ | .dmaRequest _ _ | .portUp _
  | .laneCalibrationDone _ _ | .laneCalCheck _ _ | .flexeCalendarSwitch _ | .flexeSwitchTimeout _ | .holdoverEntry _ | .slewComplete _
  | .causeMaskWrite _ _ _ _ => [.routes, .retained, .registers, .output]
  | .boostIntervalExpiry => [.power, .retained, .registers, .output]
  | .thermalSitout | .thermalRejoin => [.start, .positions, .power, .routes, .retained, .registers, .output]
  | .sitoutGraceExpiry _ =>
    [.start, .positions, .power, .links, .functions, .work, .channels, .routes, .rings, .items, .ports, .tables, .sets, .stream,
      .retained, .registers, .output]
  | .thermtrip => [.start, .power, .links, .rings, .items, .storage, .retained, .registers, .output]
  | .domainReady _ => [.power, .routes, .rings, .items, .ports, .sets, .retained, .registers, .output]
  | .perstNAssert _ | .hotReset _ | .dlDown _ | .initiateFlr _ | .vfEnableClear _ | .drainEnd _ | .s44SoftReset _ =>
    [.power, .links, .functions, .tenants, .work, .channels, .routes, .rings, .items, .ports, .tables, .sets, .storage, .engines, .stream,
      .retained, .registers, .output]
  | .perstNDeassert _ | .p2pCommit _ | .p2pCommitDone _ => [.links, .routes, .retained, .registers, .output]
  | .linkUp _ _ _ _ | .busMasterEnableSet _ =>
    [.power, .links, .functions, .channels, .routes, .rings, .items, .shares, .ports, .contexts, .sets, .storage, .engines, .stream,
      .retained, .registers, .output]
  | .resetSquashComplete _ =>
    [.power, .links, .functions, .tenants, .work, .channels, .routes, .rings, .items, .shares, .ports, .tables, .contexts, .sets,
      .storage, .stream, .retained, .registers, .output]
  | .busMasterEnableClear _ =>
    [.power, .links, .functions, .work, .channels, .routes, .rings, .items, .ports, .tables, .sets, .storage, .stream, .retained,
      .registers, .output]
  | .vfEnableSet _ _ => [.functions, .rings, .shares, .registers]
  | .configRequest _ _ | .functionReset _ =>
    [.power, .links, .functions, .tenants, .work, .channels, .routes, .rings, .items, .shares, .ports, .tables, .contexts, .sets,
      .storage, .engines, .stream, .retained, .registers, .output]
  | .barMemoryRead _ _ _ =>
    [.functions, .channels, .routes, .rings, .items, .ports, .time, .tables, .sets, .retained, .registers, .output]
  | .readCompletion _ _ _ _ | .completionTimeout _ _ =>
    [.power, .links, .functions, .work, .channels, .routes, .rings, .items, .shares, .ports, .tables, .contexts, .sets, .storage,
      .engines, .stream, .retained, .registers, .output]
  | .msixVectorUnmask _ _ => [.links, .functions, .output]
  | .ideIntegrityFailure _ | .eventMessageIssue _ _ => [.links, .functions, .routes, .retained, .registers, .output]
  | .doorbellProducerWrite _ _ _ _ | .doorbellCqHeadWrite _ _ _ _ _ =>
    [.start, .power, .links, .functions, .channels, .routes, .rings, .items, .shares, .ports, .sets, .stream, .retained, .registers,
      .output]
  | .irqTimeExpiry _ => [.links, .functions, .rings, .output]
  | .qmgCtxSnap _ _ | .qmgCtxSnapDone => [.rings, .retained, .registers]
  | .qmgErrFifoRead _ => [.rings, .output]
  | .waitingFrameDelivery _ | .launchGateOpen _ =>
    [.power, .links, .functions, .routes, .rings, .items, .ports, .tables, .contexts, .retained, .registers, .output]
  | .txDescriptorPlain _ | .txDescriptorOffload _ | .txDescriptorNoop _ => [.rings, .items]
  | .itemDispatch _ | .threadStartPass _ _ => [.items, .sets]
  | .itemRetire _ =>
    [.power, .links, .functions, .channels, .routes, .rings, .items, .ports, .tables, .contexts, .sets, .storage, .stream, .retained,
      .registers, .output]
  | .owedCompletionWrite _ => [.links, .functions, .rings, .retained, .registers, .output]
  | .setFault _ _ | .seq _ _ | .jump _ _ | .branch _ _ | .call _ _ | .callIf _ _ | .popReturn _ _ | .popReturnIf _ _ | .wait _ _
  | .table _ _ | .passEnd _ _ | .trap _ _ | .aluAdd _ _ | .aluSub _ _ | .aluAnd _ _ | .aluOr _ _ | .aluXor _ _ | .aluCompare _ _
  | .aluMove _ _ | .addWithCarry _ _ | .shiftLeft _ _ | .shiftRight _ _ | .rotate _ _ | .fieldExtract _ _ | .fieldInsert _ _ | .load8b _ _
  | .atomicAdd _ _ | .compareAndSwap _ _ | .readHead _ _ | .readParseRecord _ _ | .readPacketBuffer _ _ | .appendEdit _ _ _
  | .readLedgerFields _ _ | .payloadRead _ _ | .parse _ _ | .classify _ _ | .lookup _ _ _ _ | .checksum _ _ _ _ | .hash _ _
  | .headerRewrite _ _ _ | .setDestination _ _ _ | .dropRequest _ _ | .learnOffer _ _ _ | .dmaAssist _ _ | .channelWrite _ _
  | .channelClose _ _ | .channelRead _ _ | .channelDiscard _ _ | .flagSet _ _ | .flagClear _ _ | .counterAdd _ _ _ _ | .stateWrite _ _ _ _
  | .sequenceBearingRequest _ _ _ _ =>
    [.start, .positions, .power, .links, .functions, .channels, .routes, .rings, .items, .ports, .tables, .sets, .retained, .registers,
      .output]
  | .replayDone _ _ => [.start, .positions, .power, .routes, .items, .retained, .registers, .output]
  | .lgrFailLogRead _ => [.items, .retained, .registers, .output]
  | .frameReceived _ _ _ => [.routes, .rings, .items, .shares, .ports, .tables, .contexts, .retained, .registers, .output]
  | .losslessFifoAdmit _ _ => [.routes, .rings, .items, .shares, .ports, .tables, .retained, .registers, .output]
  | .inboundEspJobDone _ | .rejoinTestDone _ _ _ =>
    [.start, .positions, .power, .links, .functions, .work, .channels, .routes, .rings, .items, .shares, .ports, .tables, .contexts,
      .sets, .stream, .retained, .registers, .output]
  | .cryptoInstanceFault _ => [.start, .positions, .routes, .items, .retained, .registers, .output]
  | .cryCtxSnap _ _ | .cryCtxSnapDone => [.contexts, .retained, .registers]
  | .store8b _ _ | .partnerChannelSend _ _ =>
    [.start, .positions, .power, .links, .functions, .channels, .routes, .rings, .items, .ports, .tables, .sets, .stream, .retained,
      .registers, .output]
  | .assistAnswer _ _ _ | .channelWordDelivery _ _ | .waitLimitExpiry _ _ | .standstill _ | .dbgStop _ _ | .dbgResume _ _ | .dbgStep _ _
  | .dbgKill _ _ => [.routes, .rings, .items, .ports, .sets, .retained, .registers, .output]
  | .csWrite _ => [.routes, .sets, .retained, .registers, .output]
  | .memoryScrub _ _ | .eccError _ _ =>
    [.start, .positions, .power, .links, .functions, .tenants, .work, .channels, .routes, .rings, .items, .shares, .ports, .tables,
      .contexts, .sets, .storage, .engines, .stream, .retained, .registers, .output]
  | .hbmStackLost _ =>
    [.start, .power, .links, .functions, .work, .channels, .routes, .rings, .items, .ports, .sets, .storage, .engines, .stream, .retained,
      .registers, .output]
  | .moverFault _ => [.power, .links, .routes, .engines, .retained, .registers, .output]
  | .mtbRead _ _ _ | .mtbWrite _ _ _ | .mtbInsert _ _ _ | .mtbDelete _ _ _ | .mtbSearch _ _ _ | .mtbAgeQuery _ _ _ | .mtbStage _ _ _
  | .mtbDirectWrite _ _ _ | .mtbDirectRead _ _ _ | .prefixAdd _ _ _ | .prefixDelete _ _ _ | .prefixSearch _ _ _ | .ternaryWrite _ _ _
  | .ternaryRead _ _ _ | .mtbCommandDone _ | .rehashWalkBucket _ | .compareRecheck _ _ =>
    [.routes, .tables, .retained, .registers, .output]
  | .learnOfferProcess _ | .ageScanVisit _ _ _ => [.links, .functions, .routes, .rings, .tables, .retained, .registers, .output]
  | .compareStart _ | .compareRegion _ _ | .compareIntervalExpiry _ => [.links, .routes, .tables, .retained, .registers, .output]
  | .compareFifoRead _ => [.tables, .output]
  | .roceAckTimeout _ | .nvmeTcpRtoExpiry _ =>
    [.links, .functions, .routes, .rings, .ports, .contexts, .storage, .retained, .registers, .output]
  | .cnpRateStep _ => [.storage]
  | .send _ | .sendWithImmediate _ | .rdmaWrite _ | .rdmaWriteWithImmediate _ | .rdmaRead _ | .recv _ =>
    [.links, .functions, .rings, .items, .storage, .retained, .registers, .output]
  | .nvmeSqTailDoorbell _ _ _ => [.links, .functions, .routes, .shares, .storage, .retained, .registers, .output]
  | .nvmeCcEnClear _ =>
    [.power, .links, .functions, .channels, .routes, .rings, .items, .ports, .contexts, .sets, .storage, .stream, .retained, .registers,
      .output]
  | .nvmeIdentify _ | .nvmeCreateIoCq _ | .nvmeDeleteIoSq _ | .nvmeDeleteIoCq _ | .nvmeGetFeatures _ | .nvmeSetFeatures _
  | .nvmeGetLogPage _ | .nvmeAbort _ | .nvmeAsyncEventRequest _ => [.links, .functions, .storage, .retained, .registers, .output]
  | .nvmeCreateIoSq _ => [.links, .functions, .shares, .storage, .retained, .registers, .output]
  | .nvmeRead _ _ | .nvmeWrite _ _ | .nvmeFlush _ _ | .nvmeWriteZeroes _ _ | .nvmeDatasetManagement _ _ =>
    [.links, .functions, .items, .storage, .retained, .registers, .output]
  | .barStart => [.links, .routes, .rings, .shares, .storage, .retained, .registers, .output]
  | .schNodeRead _ _ _ | .schNodeWrite _ _ _ | .schNodeCmdDone => [.shares, .retained, .registers]
  | .dmaStart _ _ | .dmaDescriptorFetched _ => [.links, .routes, .engines, .stream, .retained, .registers, .output]
  | .dmaStop _ _ => [.engines, .retained, .registers]
  | .dmaBurstStart _ => [.links, .engines, .stream, .retained, .registers, .output]
  | .dmaBurstComplete _ =>
    [.power, .links, .functions, .channels, .routes, .rings, .items, .ports, .tables, .sets, .engines, .stream, .retained, .registers,
      .output]
  | .portDown _ | .stormWatchdogExpiry _ _ | .flexeSwitchDone _ | .flexeOverheadLockLoss _ =>
    [.routes, .rings, .ports, .retained, .registers, .output]
  | .frameTransmit _ _ | .launchTime _ => [.links, .functions, .routes, .rings, .ports, .retained, .registers, .output]
  | .pauseFrame _ _ | .pfcFrame _ _ _ => [.ports, .retained, .registers]
  | .xoffRefresh _ _ | .lpiIdleExpiry _ | .macCounterRead _ _ _ => [.ports, .retained, .registers, .output]
  | .tempoTick _ => [.shares, .time, .retained, .registers]
  | .referenceLost | .referenceRestored | .uncertaintyUpdate | .domainSet _ | .domainAdd _ | .domainAnchor _ _ | .slotArm _
  | .slotSwitch _ _ | .slotPulse _ | .captureIntervalEnd _ | .pinConfigWrite _ _ => [.routes, .time, .retained, .registers, .output]
  | .incrementCommit _ _ => [.time, .retained, .registers]
  | .domainTimeRead _ _ | .pulseWidthEnd _ => [.time, .output]
  | .timeIoEdge _ _ => [.links, .functions, .routes, .rings, .time, .retained, .registers, .output]
  | .mbxSend _ _ _ | .mbxRxAck _ _ _ | .setMacFilter _ | .setVlanFilter _ =>
    [.power, .links, .functions, .channels, .routes, .rings, .items, .ports, .sets, .stream, .retained, .registers, .output]
  | .mbxRxLatch _ _ => [.channels, .routes, .retained, .registers, .output]
  | .eventSwTrigger _ => [.routes, .output]
  | .eventEoi _ _ | .stormLimitMillisecond => [.routes]
  | .eventRouteWrite _ _ _ => [.routes, .retained, .registers]
  | .registerWrite _ _ _ _ _ _ =>
    [.start, .positions, .power, .links, .functions, .tenants, .work, .channels, .routes, .rings, .items, .shares, .ports, .time, .tables,
      .contexts, .sets, .storage, .engines, .stream, .retained, .registers, .output, .flash, .fuses]
  | .ringGroupCreate _ | .ringGroupDestroy _ | .ringCreate _ | .ringEnable _ | .ringDisable _ | .ringRestart _ | .ringDestroy _
  | .ringTune _ | .vfAssign _ | .contextCreate _ | .contextChange _ | .contextDestroy _ | .epilogueResend _ | .getConfiguration _
  | .linkQuery _ | .s44QueueDisable _ _ _ =>
    [.power, .links, .functions, .work, .channels, .routes, .rings, .items, .shares, .ports, .contexts, .sets, .storage, .stream,
      .retained, .registers, .output]
  | .tenantCreate _ | .tenantDestroy _ =>
    [.power, .links, .functions, .tenants, .work, .channels, .routes, .rings, .items, .shares, .ports, .contexts, .sets, .storage,
      .stream, .retained, .registers, .output]
  | .vfProperties _ =>
    [.power, .links, .functions, .work, .channels, .routes, .rings, .items, .shares, .ports, .tables, .contexts, .sets, .storage, .stream,
      .retained, .registers, .output]
  | .sitOut _ =>
    [.start, .positions, .power, .links, .functions, .work, .channels, .routes, .rings, .items, .shares, .ports, .contexts, .sets,
      .storage, .stream, .retained, .registers, .output]
  | .rejoin _ =>
    [.positions, .power, .links, .functions, .work, .channels, .routes, .rings, .items, .shares, .ports, .contexts, .sets, .storage,
      .stream, .retained, .registers, .output]
  | .s44QueueEnable _ _ _ => [.rings, .shares, .retained, .registers]
  | .bulkTransfer _ | .cancel _ | .stpTrainingRetry | .stpDataFlit _ | .stpDataLastFlit _ | .stpMessageFlit _ | .stpControlFlit _ _ _
  | .stpIdleFlit _ | .stpAckTimeout | .stpMatchTimeout _ | .stpPeerDown =>
    [.power, .links, .functions, .channels, .routes, .rings, .items, .ports, .sets, .engines, .stream, .retained, .registers, .output]
  | .stpTrainingDone _ | .stpFlitDiscard _ => [.routes, .stream, .retained, .registers, .output]
  | .stpFlitSend => [.stream, .retained, .registers, .output]
  | .dbgResponse _ _ | .trstNAssert => [.debug]
  | .switchedWaitExpiry _ => [.power, .links, .functions, .routes, .rings, .items, .tables, .retained, .registers, .output]
  | .nvmeCcEnSet _ => [.shares, .storage, .retained, .registers]

end Sys2Proof.Machine
end

