-- ==== Sys2Proof/Certificates/Slice0/Obligations.lean ====
section
/-!
DEFINITION. The statements for the provers. Where a statement is about a reading or a choice of the model's own, its comment names the
log entry; the conditions of a statement are on the state and the operands alone.
-/

open Sys2Proof Sys2Proof.Machine

/-- One step takes the command at the front of the queue and answers what the command's meaning gives on the state with the queue's rest:
commands wait first in, first out. -/
def Obligations.StepRunsTheFrontCommand : Prop :=
  ∀ (c : Instr) (rest : List Instr) (s : State), s.pending = c :: rest → step s = exec c { s with pending := rest }

/-- On an empty queue the block idles: the answer is a next state with an empty queue, and where the device neither runs nor is in a service
reset it is the state itself (the model's choice, notes/assumptions/5.md). -/
def Obligations.IdleStep : Prop :=
  ∀ s : State, s.pending = [] →
    (∃ t, step s = .next t ∧ t.pending = []) ∧
    (s.dev.phase ≠ .running → s.dev.phase ≠ .serviceReset → step s = .next s)

/-- Every command completes: it faults in no state and is refused in none, and it leaves the queue to the step. -/
def Obligations.EveryCommandAnswersANextState : Prop :=
  ∀ (c : Instr) (s : State), ∃ t, exec c s = .next t ∧ t.pending = s.pending

/-- Fuses only blow: whatever command a step runs, a programmed slot keeps its digest, a revoked slot stays revoked, and the security floor
never falls (R63). The security floor stays inside its 64-step counter and slot 0 programmed (R63), whatever a step does. -/
def Obligations.FusesOnlyBlow : Prop :=
  (∀ s t : State, step s = .next t → s.fuses.grows t.fuses) ∧
  (∀ s t : State, s.fuses.ok → step s = .next t → t.fuses.ok)

/-- At reset the security floor is inside its 64-step counter and slot 0 is programmed (R63). -/
def Obligations.FusesLegalAtReset : Prop := State.reset.fuses.ok

/-- A command changes nothing of how the device started, of flash and fuses, of positions, Tenants, time and retention but the parts that
`mayChange` lists for it. -/
def Obligations.FramesOfTheDevice : Prop :=
  ∀ (c : Instr) (s t : State) (p : Part), p ∈ [.start, .debug, .positions, .power, .tenants, .time, .retained, .registers, .flash, .fuses] →
    exec c s = .next t → p ∉ mayChange c → p.same s t

/-- A command changes no ring, item, share, port, table, context and Set but those parts that `mayChange` lists for it. -/
def Obligations.FramesOfTheDatapath : Prop :=
  ∀ (c : Instr) (s t : State) (p : Part), p ∈ [.rings, .items, .shares, .ports, .tables, .contexts, .sets] →
    exec c s = .next t → p ∉ mayChange c → p.same s t

/-- A command changes no link, function, request, channel, route, controller, engine and stream, and puts nothing out, but where `mayChange`
lists that part for it. -/
def Obligations.FramesOfTheHostSide : Prop :=
  ∀ (c : Instr) (s t : State) (p : Part), p ∈ [.links, .functions, .work, .channels, .routes, .storage, .engines, .stream, .output] →
    exec c s = .next t → p ∉ mayChange c → p.same s t

/-- R415: a write to EVT_SW_TRIGGER by a PF that reaches the window, or by a control core, raises source 374 + n for each bit n set: an enabled
edge route of any PF for such a source takes a message to send, as from any other source, and no other route changes. -/
def Obligations.SoftwareTriggers : Prop :=
  ∀ (mid v : Nat) (s : State), s.dev.phase = .running →
    (isCoreMid mid = true ∨ (∃ pf, pf < 16 ∧ mid = midFn pf ∧ s.dev.doorbellOpen pf = true ∧ s.dev.withholds pf = false ∧ s.dev.mayReach mid 0x91 0 = true) →
      exec (.registerWrite mid 0x91 0 0 4 v) s = exec (.eventSwTrigger (v % 1024)) s) ∧
    ∃ t, exec (.eventSwTrigger v) s = .next t ∧
      t.dev = ((List.range 10).filter (hasBit v)).foldl (fun d n => d.raise (374 + n)) s.dev ∧
      (∀ pf n, n < 10 → hasBit v n = true → pf ∈ s.dev.pfs → s.dev.routeIs pf (374 + n) false → (t.dev.route pf (374 + n)).pending = true) ∧
      (∀ pf src, src < 384 → (∀ n, n < 10 → hasBit v n = true → src ≠ 374 + n) → t.dev.route pf src = s.dev.route pf src)

/-- R392: the Tempo window of a VF holds TMP_TICKS_LO and TMP_TICKS_HI, and TMP_DOM_NS to TMP_DOM_UNC of each domain, where the TMP window holds
them and with the same latch per MID; every other offset reads zero, and a write is ignored. -/
def Obligations.VfTempoWindow : Prop :=
  ∀ (fn off v : Nat) (s : State), s.dev.phase = .running → 16 ≤ fn → fn < 8208 → s.dev.doorbellOpen fn = true →
    s.dev.linkUp (s.dev.linkOf fn) = true → off % 4 = 0 → off < 0x1000 →
    let reads (x : Nat) (t : State) : Prop :=
      exec (.barMemoryRead fn (.vf (0x2000 + off)) 4) s = .next t ∧ t.dev.out = s.dev.out ++ [.readData fn (leBytes x 4)]
    (off = 0x10 → ∃ t, reads (s.dev.rd R.TMP_TICKS_LO_value) t) ∧ (off = 0x14 → ∃ t, reads (s.dev.rd R.TMP_TICKS_HI_value) t) ∧
    (isDomainOff off = true → ∃ t, reads (s.dev.readLive (midFn fn) 0x80 0 off).1 t ∧
      t.dev.tempo = (s.dev.readLive (midFn fn) 0x80 0 off).2.tempo) ∧
    (off ≠ 0x10 → off ≠ 0x14 → isDomainOff off = false → ∃ t, reads 0 t ∧ t.dev.tempo = s.dev.tempo) ∧
    (s.dev.withholds fn = false → exec (.registerWrite (midFn fn) 0x80 0 off 4 v) s = .next s)

/-- R449: an uncorrectable error in a unit and site of which another error is in handling writes a record of its own, with nested set and the
earlier record named; with none in handling there, and for a corrected error or a notice, no record is nested. -/
def Obligations.NestedErrors : Prop :=
  ∀ (e : Err) (d : Dev), d.phase ≠ .faultStop → e.severity ≤ 4 → e.site < 256 → e.domain < 256 →
    let t := d.record e
    let handled (u : Nat) : Prop := u < 256 ∧ d.logHeld u = true ∧ d.recHandling u = 1 ∧ d.logWord u 2 = e.unit + 65536 * e.inst ∧
      d.logWord u 4 % 256 = e.site
    (∀ r, d.freeLogSlot e.severity = some r → 1 ≤ e.severity → e.severity ≤ 3 → t.logHeld r = true ∧
      ((∃ u, handled u) → hasBit (t.logWord r 3) 3 = true ∧ ∃ u, handled u ∧ bits (t.logWord r 4) 16 16 = d.logWord u 0 % 65536) ∧
      ((∀ u, ¬ handled u) → hasBit (t.logWord r 3) 3 = false)) ∧
    (e.severity = 0 ∨ e.severity = 4 → ∀ r, r < 256 → d.logHeld r = false → t.logHeld r = true → hasBit (t.logWord r 3) 3 = false)

/-- R80, R481, R488: SYS_RST_N, TESTEN, a failing main rail and a new standby rail each hold the device in cold reset: accepted work, links,
functions and the fault log are gone and the debug port is locked; fuses, flash and die stay. Standby power coming up also loses the
retention store, but no discard command (R79), and counts the preceding 24 h as boost used (R95). SYS_RST_N and a new standby rail release
THERMTRIP_N, the others do not (R107, R488). A brown-out invalidates the retention record (R74). R53, R65, R481: a start from cold reset
with the rails in regulation, Tj below 125 °C and THERMTRIP_N released runs the image that the loader picks and has the card valid at
generation 2, or, where no slot verifies or HBM does not train, enters the recovery state. The release of reset and the return of the main
rails both start it. -/
def Obligations.ColdStarts : Prop :=
  (∀ s : State,
     (∃ t, exec .sysRstNAssert s = .next t ∧ heldFrom s t ∧ t.dev.resetLow = true ∧ t.dev.keep.dirty = false ∧ t.dev.power.tripPin = false) ∧
     (∃ t, exec .testenAssert s = .next t ∧ heldFrom s t ∧ t.dev.testen = true ∧ t.dev.power.tripPin = s.dev.power.tripPin) ∧
     (∃ t, exec .mainRailFail s = .next t ∧ heldFrom s t ∧ t.dev.railsGood = false ∧ (s.dev.phase ≠ .held → t.dev.boot.cause = 2) ∧
       t.dev.power.tripPin = s.dev.power.tripPin) ∧
     (∃ t, exec .standbyPowerOn s = .next t ∧ heldFrom s t ∧ t.dev.keep = { discard := s.dev.keep.discard } ∧ t.dev.boot.cause = 1 ∧
       t.dev.rd R.PWR_BOOST_used_s = 86400 ∧ t.dev.power.tripPin = false) ∧
     (∃ t, exec .standbyBrownout s = .next t ∧ t.dev.validRecord = none ∧ t = { s with dev := { s.dev with keep := t.dev.keep } })) ∧
  (∀ (f : StartFindings) (s : State), s.dev.phase = .held → s.dev.power.heldTj < 125 → s.dev.power.tripPin = false →
     (s.dev.railsGood = true → ∃ t, exec (.coldStart f) s = .next t ∧ startedFrom f s t) ∧
     (s.dev.resetLow = false → s.dev.testen = false → ∃ t, exec (.mainRailsRestored f) s = .next t ∧ startedFrom f s t))

/-- R81, R82: a trigger in a running device begins a service reset: the card is invalid and no set-up request, image apply or replay remains;
the start record will name the trigger. A trigger at any other time starts none. R83, R168: once the log of a link is drained its posted
credits are released, and a doorbell that they kept on the link arrives. A replay with no restored item and no saved descriptor left shows
no service replay and sets LGR cause 5. -/
def Obligations.ServiceResets : Prop :=
  (∀ s : State,
     (s.dev.phase = .running →
       (∃ t, exec .serviceReset s = .next t ∧ t.dev.phase = .serviceReset ∧ t.dev.card.valid = false ∧ t.dev.boot.resetCause = 4 ∧
         t.dev.jobs = {} ∧ t.dev.apply = none ∧ t.dev.replays = []) ∧
       (∃ t, exec .serviceResetCommand s = .next t ∧ t.dev.phase = .serviceReset ∧ t.dev.card.valid = false ∧ t.dev.boot.resetCause = 5 ∧
         t.dev.jobs = {} ∧ t.dev.apply = none ∧ t.dev.replays = [])) ∧
     (s.dev.phase ≠ .running → exec .serviceReset s = .next s ∧ exec .serviceResetCommand s = .next s)) ∧
  (∀ (link : Nat) (s : State), s.dev.phase = .running →
     ((∀ w ∈ s.dev.boot.withheld, s.dev.heldLink w ≠ link) →
       ∃ t, exec (.doorbellLogDrained link) s = .next t ∧ link ∉ t.dev.boot.logFull ∧
         (∀ n, n ≠ link → (n ∈ t.dev.boot.logFull ↔ n ∈ s.dev.boot.logFull)) ∧ t = { s with dev := { s.dev with boot := t.dev.boot } }) ∧
     (∀ fn page slot word value, s.dev.boot.withheld = [.doorbell fn page slot word value] → s.dev.linkOf fn = link →
       exec (.doorbellLogDrained link) s = .next { s with
         dev := { s.dev with boot := { s.dev.boot with logFull := s.dev.boot.logFull.filter (· != link), withheld := [] } }.doorbellArrives
           fn page slot word value }) ∧
     (s.dev.on R.LGR_STATUS_service_replay → s.dev.savedOpen = false →
       ∃ t, exec .serviceReplayDone s = .next t ∧ t.dev.rd R.LGR_STATUS_service_replay = 0 ∧ t.dev.on (lgrCauses.bit 5) = true))

/-- R76, R77: a snapshot erases the older slot and shows snap_busy; its end writes the record there, counts it and shows the result, or leaves
both slots alone. A K field written is closed into a retention record, which takes the older place; while it is being closed, a brown-out
undoes it. R79: the discard command, in band or over the sideband, invalidates the retention record and erases both snapshot slots at once,
and nothing else but what it answers. -/
def Obligations.RetainedState : Prop :=
  (∀ s : State,
     (s.dev.phase = .running → s.dev.boot.snapshot = none →
       (∃ t, exec .snapshotNow s = .next t ∧ snapshotBegun s t) ∧
       (s.dev.on R.BOOT_CONTROL_snap_interval → ∃ t, exec .snapshotIntervalExpiry s = .next t ∧ snapshotBegun s t)) ∧
     (∀ r, s.dev.boot.snapshot = some r →
       (∃ t, exec (.snapshotWriteDone true) s = .next t ∧ t.flash = s.flash.putSnap s.dev.boot.snapSlot (some r) ∧
         t.dev.rd R.BOOT_SNAP_RESULT_last = 1 ∧ t.dev.rd R.BOOT_STATUS_snap_busy = 0 ∧
         t.dev.rd R.BOOT_SNAP_COUNT_snapshots = (s.dev.rd R.BOOT_SNAP_COUNT_snapshots + 1) % 2 ^ 32) ∧
       (∃ t, exec (.snapshotWriteDone false) s = .next t ∧ t.flash = s.flash ∧ t.dev.rd R.BOOT_SNAP_RESULT_last = 2 ∧
         t.dev.rd R.BOOT_STATUS_snap_busy = 0)) ∧
     (s.dev.keep.closing.isSome = true → ∃ t, exec .standbyBrownout s = .next t ∧ t.dev.keep.closing = none ∧ t.dev.keep.dirty = true) ∧
     (s.dev.phase = .running → s.dev.keep.dirty = true → s.dev.keep.closing = none →
       ∃ t r, exec .retentionRecordClose s = .next t ∧ t.dev.keep.record = some r ∧ r.vals = s.dev.regs.filter (fun k _ => isKKey k) ∧
         r.dieId = s.dev.die.dieId ∧ t.dev.keep.dirty = false ∧
         t.dev.rd R.BOOT_RET_COMMITS_commits = (s.dev.rd R.BOOT_RET_COMMITS_commits + 1) % 2 ^ 32)) ∧
  (∀ s : State,
     (s.dev.phase = .running → ∃ t, exec .discardRetained s = .next t ∧ discardedFrom s t ∧
       t.dev.out = s.dev.out ++ [.flashErase (s.flash.snapAddr 0) 32, .flashErase (s.flash.snapAddr 1) 32]) ∧
     (∃ t, exec .mctpDiscard s = .next t ∧ discardedFrom s t))

/-- R78: the orderly-shutdown command closes fetching; when every accepted item has retired, the shutdown is complete, and with snap_at_shutdown
a snapshot is begun. R63, R64: the confirm command makes the trial slot active, clears trial, and raises the floor to at most 64 where the
image asks for it. -/
def Obligations.ShutdownAndTrial : Prop :=
  (∀ s : State, s.dev.phase = .running →
     (∃ t, exec .orderlyShutdown s = .next t ∧ t.dev.boot.shutdown = true ∧ t = { s with dev := { s.dev with boot := t.dev.boot } }) ∧
     (s.dev.boot.shutdown = true → s.dev.boot.shutdownDone = false → s.dev.drained = true →
       ∃ t, exec .shutdownDrainDone s = .next t ∧ t.dev.boot.shutdownDone = true ∧
         (s.dev.on R.BOOT_CONTROL_snap_at_shutdown → t.dev.boot.snapshot.isSome = true) ∧
         (s.dev.on R.BOOT_CONTROL_snap_at_shutdown = false → t.flash = s.flash))) ∧
  (∀ (c : DirCopy) (img : Image) (s : State), s.dev.phase = .running → s.flash.dir = some c → c.trial = true →
     s.dev.boot.onTrial = true → s.dev.boot.image = some img →
     ∃ t, exec .confirmTrial s = .next t ∧
       t.flash = s.flash.writeDir { c with active := 1 - c.active, trial := false, trialLeft := 0 } ∧
       t.fuses.floor = (if img.raiseFloor then max s.fuses.floor (min 64 img.securityVersion) else s.fuses.floor) ∧
       t.fuses.slot0 = s.fuses.slot0 ∧ t.fuses.slot1 = s.fuses.slot1 ∧ t.fuses.slot2 = s.fuses.slot2 ∧ t.fuses.slot3 = s.fuses.slot3 ∧
       t.dev = { s.dev with boot := t.dev.boot, out := t.dev.out })

/-- R88, R89, R94: the smallest of the sixteen rings' counts over their fused references, in 1.15 fixed point, less 1 % is published as Pace,
and the lowest Pace is kept; while Pace stays below its target, pace_low is set. R99: package power is the core's current times the request
plus the other rails, in tenths of a watt; a figure above 360 W caps it and sets power_cap. -/
def Obligations.PowerAndPacePublished : Prop :=
  (∀ s : State, s.dev.phase.powered = true →
     (∀ counts, ∃ t k, exec (.paceMeasure counts) s = .next t ∧ k < 16 ∧
       (∀ j, j < 16 → counts.getD k 0 * 32768 / s.dev.die.ringRefs.getD k 1 ≤ counts.getD j 0 * 32768 / s.dev.die.ringRefs.getD j 1) ∧
       t.dev.rd R.PWR_PACE_pace = min 0xFFFF (counts.getD k 0 * 32768 / s.dev.die.ringRefs.getD k 1 * 99 / 100) ∧
       t.dev.rd R.PWR_PACE_LOW_pace_low = min (t.dev.rd R.PWR_PACE_pace) (s.dev.rd R.PWR_PACE_LOW_pace_low)) ∧
     (s.dev.rd R.PWR_PACE_pace < s.dev.rd R.PWR_TARGET_pace_target →
       ∃ t, exec .paceLowPersist s = .next t ∧ t.dev.on R.PWR_STICKY_pace_low = true ∧
         t.dev.rd R.PWR_PACE_pace = s.dev.rd R.PWR_PACE_pace)) ∧
  (∀ (ma dw : Nat) (s : State), s.dev.phase.powered = true →
     ∃ t, exec (.powerPublish ma dw) s = .next t ∧
       t.dev.rd R.PWR_POWER_power_1ms = min 0xFFFF (ma * s.dev.rd R.PWR_VDD_request_mv / 100000 + dw) ∧
       (10 * s.dev.rd R.PWR_LIMIT_power_limit < 3600 → 3600 < ma * s.dev.rd R.PWR_VDD_request_mv / 100000 + dw →
         t.dev.power.capped = true ∧ t.dev.on R.PWR_STICKY_power_cap = true))

/-- R93, R97, R489: with boost disabled and closed and steering at work, a governor tick requests what the first rule that applies asks for:
hold or one step of 5 mV down under heat, the ceiling of 800 mV below Pace 0.70, one step down over the power limit, one step up below the
target, one step down above the target + 0.020; all clamped to avs_vmin and the ceiling. THERMTRIP_N requests avs_vmin. A governor that was
not started, or whose card is not valid, leaves its request as it stands. R95: an open boost interval that ends leaves no interval open and
no request above 800 mV; the buckets age by 15 min, used_s is their sum, and the 24 h without boost after a loss of standby shorten by as
much. R96, R97: a success resumes steering, or makes the request of 0.750 V where the card is not valid; the third failure in a row stops it
and sets avs_error (three in all: the model's choice, notes/assumptions/59.md); while it is stopped, the retry sends the request again. -/
def Obligations.GovernorAndBoost : Prop :=
  (∀ s : State, s.dev.power.avsStopped = false →
     (s.dev.power.started = true → s.dev.phase = .tripped → ∃ t, exec .governorTick s = .next t ∧
       t.dev.rd R.PWR_VDD_request_mv = s.dev.rd R.PWR_AVS_CONFIG_avs_vmin % 4096 ∧ t.dev.rd R.PWR_VDD_cause = 6) ∧
     (s.dev.phase ≠ .held → s.dev.power.started = false ∨ (s.dev.phase ≠ .tripped ∧ s.dev.phase ≠ .running) →
       ∃ t, exec .governorTick s = .next t ∧ t.dev.regs = s.dev.regs ∧ t.dev.out = s.dev.out) ∧
     (s.dev.power.started = true → s.dev.phase = .running → s.dev.on R.PWR_TARGET_boost_enable = false → s.dev.on R.PWR_VDD_boost_open = false →
       ∃ t, exec .governorTick s = .next t ∧
         t.dev.rd R.PWR_VDD_request_mv = min 800 (max (s.dev.rd R.PWR_AVS_CONFIG_avs_vmin) (steppedRequest s.dev)) % 4096)) ∧
  (∀ s : State,
     (s.dev.phase.powered = true → s.dev.power.avsStopped = false → s.dev.on R.PWR_VDD_boost_open = true →
       ∃ t, exec .boostIntervalExpiry s = .next t ∧ t.dev.on R.PWR_VDD_boost_open = false ∧ t.dev.rd R.PWR_VDD_request_mv ≤ 800 ∧
         t.dev.power.sinceBoost = 0) ∧
     (∃ t, exec .boostBucketAge s = .next t ∧ t.dev.power.buckets = 0 :: s.dev.power.buckets.dropLast ∧
       t.dev.rd R.PWR_BOOST_used_s = s.dev.power.buckets.dropLast.sum % 2 ^ 17 ∧ t.dev.power.boostBan = s.dev.power.boostBan - 1)) ∧
  (∀ s : State, s.dev.phase.powered = true →
     (∃ t, exec (.avsTransactionDone .ok) s = .next t ∧ t.dev.power.avsStopped = false ∧ t.dev.power.avsFailures = 0 ∧
       (s.dev.power.avsStopped = false ∨ s.dev.steers = true → t.dev.regs = s.dev.regs) ∧
       (s.dev.power.avsStopped = true → s.dev.steers = false → t.dev.rd R.PWR_VDD_request_mv = 750)) ∧
     (∀ r, r ≠ .ok → s.dev.power.avsStopped = false →
       ∃ t, exec (.avsTransactionDone r) s = .next t ∧
         (if s.dev.power.avsFailures < 2 then t.dev.power.avsFailures = s.dev.power.avsFailures + 1 ∧ t.dev.power.avsStopped = false
          else t.dev.power.avsStopped = true ∧ t.dev.on R.PWR_STICKY_avs_error = true)) ∧
     (s.dev.power.avsStopped = true →
       exec .avsRetryExpiry s = .next { s with dev := s.dev.emit (.avsWrite (s.dev.rd R.PWR_VDD_request_mv)) }))

/-- R104, R107 with R489: a sample of at least one sensor publishes the largest reading as Tj, and the thermal cap holds exactly while Tj is at
or above 105 °C; in a cold reset the reading is only noted. R105, R106: a thermal sit-out stops dispatch to the next position of the order,
counts it and sets thermal_sitout; when its grace ends the position is out; once Tj has stayed below 105 °C for 1 s, the last position sat
out returns with its site. R107: THERMTRIP_N asserts: accepted work is lost, nothing is issued any longer, and the board sees the pin. -/
def Obligations.ThermalLimits : Prop :=
  (∀ (x : Int) (l : List Int) (s : State), (∀ y ∈ x :: l, -128 ≤ y ∧ y ≤ 127) →
     (s.dev.phase ≠ .held → ∃ t, exec (.tjSample (x :: l)) s = .next t ∧ t.dev.tj = l.foldl max x ∧
       t.dev.power.hot = decide (105 ≤ l.foldl max x) ∧ (105 ≤ l.foldl max x → s.dev.power.hot = false → t.dev.on R.PWR_STICKY_thermal_cap = true)) ∧
     (s.dev.phase = .held → ∃ t, exec (.tjSample (x :: l)) s = .next t ∧ t.dev.power.heldTj = l.foldl max x ∧
       t.dev.regs = s.dev.regs)) ∧
  (∀ s : State, s.dev.phase = .running →
     (115 ≤ s.dev.tj → s.dev.replays = [] → ∀ p, s.dev.thermalNext = some p →
       ∃ t, exec .thermalSitout s = .next t ∧ (t.dev.setAt p).phase = .grace ∧ (t.dev.setAt p).thermal = true ∧
         (t.dev.setAt p).site = (s.dev.setAt p).site ∧ t.dev.power.satOut = p :: s.dev.power.satOut ∧
         t.dev.on R.PWR_STICKY_thermal_sitout = true) ∧
     (∀ p, (s.dev.setAt p).phase = .grace → (s.dev.setAt p).thermal = true →
       (s.dev.items.filter (fun _ it => it.inLedger && it.position == p)).entries = [] →
       ∃ t, exec (.sitoutGraceExpiry p) s = .next t ∧ (t.dev.setAt p).phase = .out ∧ (t.dev.setAt p).site = (s.dev.setAt p).site) ∧
     (∀ p rest, s.dev.power.satOut = p :: rest → 1000 ≤ s.dev.power.coolMs → (s.dev.setAt p).phase = .out →
       (s.dev.setAt p).thermal = true →
       ∃ t, exec .thermalRejoin s = .next t ∧ t.dev.setAt p = { site := (s.dev.setAt p).site } ∧ t.dev.power.satOut = rest)) ∧
  (∀ s : State, s.dev.phase ≠ .tripped → s.dev.power.tripPin = false →
     ∃ t, exec .thermtrip s = .next t ∧ t.dev.phase = .tripped ∧ t.dev.items = {} ∧ t.dev.power.tripPin = true ∧ Output.thermTrip true ∈ t.dev.out ∧
       (∀ n, (t.dev.link n).queue = []) ∧ t.flash = s.flash ∧ t.fuses = s.fuses ∧ t.dev.keep.record = s.dev.keep.record)

/-- R101-R103: an off command for a domain that may be off and holds nothing switches it off with result 0; refused, because R100 does not allow
it (1) or it wakes (3), it changes no domain; a wake command answers 0, and the domain at the head of those that wake is on once it is
ready. -/
def Obligations.PowerDomains : Prop :=
  ∀ (n : Nat) (s : State), s.dev.phase = .running → n < 48 →
    (s.dev.domainExists n = true → s.dev.power.waking.contains n = false → s.dev.mayBeOff n = true → s.dev.domainHolds n = false →
      ∃ t, exec (.domainOffCmd n) s = .next t ∧ t.dev.domainOn n = false ∧ t.dev.rd R.PWR_DOMAIN_RESULT_code = 0 ∧
        t.dev.rd R.PWR_DOMAIN_RESULT_domain = n) ∧
    (s.dev.domainExists n = true → s.dev.power.waking.contains n = false → s.dev.mayBeOff n = false →
      ∃ t, exec (.domainOffCmd n) s = .next t ∧ t.dev.rd R.PWR_DOMAIN_RESULT_code = 1 ∧ t.dev.power = s.dev.power ∧
        ∀ m, m < 48 → t.dev.domainOn m = s.dev.domainOn m) ∧
    (s.dev.power.waking.contains n = true →
      ∃ t, exec (.domainOffCmd n) s = .next t ∧ t.dev.rd R.PWR_DOMAIN_RESULT_code = 3 ∧ t.dev.power = s.dev.power ∧
        ∀ m, m < 48 → t.dev.domainOn m = s.dev.domainOn m) ∧
    (∃ t, exec (.domainWakeCmd n) s = .next t ∧ t.dev.rd R.PWR_DOMAIN_RESULT_code = 0 ∧
      (s.dev.domainExists n = true → t.dev.domainOn n = true ∨ t.dev.power.waking.contains n = true)) ∧
    (∀ rest, s.dev.power.waking = n :: rest → s.dev.positionsOfSite n = [] →
      ∃ t, exec (.domainReady n) s = .next t ∧ t.dev.domainOn n = true ∧ t.dev.power.waking = rest)

/-- R84: the sideband answers MCTP and PLDM on standby power. A slot of the owner is programmed once; any slot's revoke fuse can be blown (over
this path: the model's choice, notes/assumptions/50.md); an endpoint ID is taken; a record of the fault log is read, in fault stop too;
sensors read from cold-start step 3; an update goes to the inactive slot, on trial with three starts. R84: once an image is verified, the
responder answers over both paths; before, it answers ResponseNotReady. Measurement 2 is the digest of the signed header and directory,
measurement 3 the security version and the fused floor. Nothing but the answer and the count of free values changes. -/
def Obligations.SidebandAndResponder : Prop :=
  (∀ s : State,
     (∀ eid, 1 ≤ eid → eid ≤ 254 → exec (.mctpSetEndpointId eid) s =
       .next { s with dev := ({ s.dev with eid := eid }).emit (.sideband "SetEndpointId" [0, eid]) }) ∧
     (∀ slot digest, 1 ≤ slot → slot ≤ 3 → (keySlotOf s.fuses slot).programmed = false →
       ∃ t, exec (.mctpKeySlotProvision slot (.program digest)) s = .next t ∧
         keySlotOf t.fuses slot = { keySlotOf s.fuses slot with programmed := true, digest := digest } ∧
         (∀ m, m < 4 → m ≠ slot → keySlotOf t.fuses m = keySlotOf s.fuses m) ∧ t.fuses.floor = s.fuses.floor ∧ t.flash = s.flash) ∧
     (∀ slot digest, slot = 0 ∨ 3 < slot ∨ (keySlotOf s.fuses slot).programmed = true →
       ∃ t, exec (.mctpKeySlotProvision slot (.program digest)) s = .next t ∧ t.fuses = s.fuses) ∧
     (∀ slot, slot ≤ 3 → ∃ t, exec (.mctpKeySlotProvision slot .revoke) s = .next t ∧
       keySlotOf t.fuses slot = { keySlotOf s.fuses slot with revoked := true } ∧
       (∀ m, m < 4 → m ≠ slot → keySlotOf t.fuses m = keySlotOf s.fuses m) ∧ t.fuses.floor = s.fuses.floor ∧ t.flash = s.flash) ∧
     (∀ slot, slot < 256 → exec (.mctpFaultLogRead slot) s =
       .next { s with dev := s.dev.emit (.sideband "FaultLogRead" ((List.range 8).map (s.dev.logWord slot))) }) ∧
     (∀ x, s.dev.phase ≠ .held → exec (.pldmSensorRead x) s =
       .next { s with dev := s.dev.emit (.sideband "GetSensorReading" [0, s.dev.sensor x]) }) ∧
     (∀ img c, s.flash.dir = some c → img.imageBytes ≤ c.slotSize → s.dev.applying = false →
       ∃ t, exec (.pldmFirmwareUpdate img) s = .next t ∧
         t.flash = (if c.active = 0 then { s.flash with slotB := some img } else { s.flash with slotA := some img }).writeDir
           { c with trial := true, trialLeft := 3 } ∧ t.fuses = s.fuses) ∧
     (∀ link keys, s.dev.formed link = true → s.dev.linkUp link = true → s.dev.on R.PCX_LINK_STATUS_flit link = true →
       s.dev.on R.PCX_LINK_SHAPE_ide_enabled link = true →
       ∃ t, exec (.mctpIdeKeyLoad link keys) s = .next t ∧ (t.dev.link link).ideKeys = some keys ∧
         t.dev.rd R.PCX_LINK_STATUS_ide_secure link = 1)) ∧
  (∀ (via : SpdmPath) (s : State), s.dev.spdmReached via = true →
     (s.dev.boot.image = none → ∀ c ∈ spdmRequests via, exec c s = .next { s with dev := s.dev.emit (.spdm via "ResponseNotReady" []) }) ∧
     (∀ img, s.dev.boot.image = some img →
       exec (.getVersion via) s = .next { s with dev := s.dev.emit (.spdm via "VERSION" [0x12, 0x13]) } ∧
       exec (.getCapabilities via) s = .next { s with dev := s.dev.emit (.spdm via "CAPABILITIES" [0x16]) } ∧
       exec (.negotiateAlgorithms via) s = .next { s with dev := s.dev.emit (.spdm via "ALGORITHMS" [0x80, 2]) } ∧
       (∃ t v, exec (.getDigests via) s = .next t ∧ t.dev.out = s.dev.out ++ [.spdm via "DIGESTS" [v]]) ∧
       (∀ slot off len, ∃ t v, exec (.getCertificate via slot off len) s = .next t ∧
         t.dev.out = s.dev.out ++ [.spdm via "CERTIFICATE" [slot, off, len, v]]) ∧
       (∀ slot nonce, ∃ t v, exec (.challenge via slot nonce) s = .next t ∧
         t.dev.out = s.dev.out ++ [.spdm via "CHALLENGE_AUTH" [slot, nonce, v]]) ∧
       (∀ nonce, ∃ t v, exec (.getMeasurements via 3 nonce) s = .next t ∧
         t.dev.out = s.dev.out ++ [.spdm via "MEASUREMENTS" [3, img.securityVersion, s.fuses.floor, nonce, v]]) ∧
       (∀ nonce, ∃ t v, exec (.getMeasurements via 2 nonce) s = .next t ∧
         t.dev.out = s.dev.out ++ [.spdm via "MEASUREMENTS" [2, (Config.sha384 (signedBytes img)).toNat, nonce, v]])) ∧
     (∀ pf, via = .doe pf → exec (.doeDiscovery pf 0) s = .next { s with dev := s.dev.emit (.spdm (.doe pf) "DOE_DISCOVERY" [1, 0, 1]) }))

/-- R486: the debug port. IDCODE gives revision, variant and manufacturer; a response unlocks the debug master exactly where it verifies over
the challenge in force under a programmed slot that is not revoked, and uses the challenge up; after eight failures a challenge is zeros;
TRST_N resets the TAP alone. Each of these changes nothing but the port, the output and the count of free values. -/
def Obligations.DebugPort : Prop :=
  ∀ s : State,
    (∀ c ∈ tapCommands, ∃ t, exec c s = .next t ∧
      t = { s with dev := { s.dev with dbg := t.dev.dbg, out := t.dev.out, freeCtr := t.dev.freeCtr } } ∧
      t.dev.dbg.unlocked = s.dev.dbg.unlocked ∧ t.dev.dbg.fails = s.dev.dbg.fails) ∧
    (∃ t, exec .idcode s = .next t ∧ t.dev.out = s.dev.out ++
      [.jtag 32 (s.dev.die.stepping % 16 * 2 ^ 28 + s.dev.die.variant.code * 2 ^ 12 + 5 * 2 ^ 8 + 0x2D * 2 + 1)]) ∧
    (∃ t, exec .dbgChallenge s = .next t ∧
      (if 8 ≤ s.dev.dbg.fails then t.dev.out = s.dev.out ++ [.jtag 384 0] ∧ t.dev.dbg.nonce = s.dev.dbg.nonce
       else ∃ n, t.dev.out = s.dev.out ++ [.jtag 384 n] ∧ t.dev.dbg.nonce = some n)) ∧
    (∀ slot signature, ∃ t, exec (.dbgResponse slot signature) s = .next t ∧ t.dev.dbg.nonce = none ∧
      (t.dev.dbg.unlocked = true ↔ s.dev.dbg.unlocked = true ∨ s.responseOk slot signature = true) ∧
      (s.responseOk slot signature = false → t.dev.dbg.fails = s.dev.dbg.fails + 1) ∧
      t = { s with dev := { s.dev with dbg := t.dev.dbg } })

/-- R125, R128: PERST_N, a hot reset and the loss of the data link reset a link: the reset is recorded and counted. With no function on the
link, one that is not held by PERST_N ends at once and trains; the end of a reset clears every peer-to-peer window (R130). R112, R116:
training ends in L0 at a rate and width, and the link answers from then on; an idle link enters L1 where every PF on it allows that. -/
def Obligations.HostLinks : Prop :=
  (∀ (link : Nat) (s : State), s.dev.phase = .running → s.dev.formed link = true → s.dev.fnsOf link = [] →
     ((s.dev.link link).reset = .none →
       (s.dev.on R.PCX_LINK_STATUS_perst link = false → ∃ t, exec (.perstNAssert link) s = .next t ∧ linkTaken link 1 s t ∧
         (t.dev.link link).reset = .fundamental ∧ t.dev.rd R.PCX_LINK_STATUS_perst link = 1 ∧ t.dev.rd R.PCX_LINK_STATUS_state link = 1) ∧
       (∃ t, exec (.hotReset link) s = .next t ∧ linkTaken link 2 s t ∧ linkTrains link t) ∧
       (∃ t, exec (.dlDown link) s = .next t ∧ linkTaken link 3 s t ∧ linkTrains link t)) ∧
     ((s.dev.link link).reset = .fundamental → ∃ t, exec (.perstNDeassert link) s = .next t ∧ linkTrains link t ∧
       t.dev.rd R.PCX_LINK_STATUS_perst link = 0 ∧
       ∀ f ∈ p2pShadow ++ p2pActive, ∀ w, w < 16 → t.dev.rd f link (32 * w) = 0)) ∧
  (∀ (link : Nat) (s : State), s.dev.phase = .running → s.dev.formed link = true →
     (∀ rate width flit, rate < 8 → width < 32 → (s.dev.link link).reset = .none → (s.dev.link link).queue = [] →
       s.dev.rd R.PCX_LINK_STATUS_state link = 2 → (∀ fn ∈ s.dev.fnsOf link, (s.dev.fn fn).busMaster = false) →
       ∃ t, exec (.linkUp link rate width flit) s = .next t ∧ t.dev.rd R.PCX_LINK_STATUS_state link = 3 ∧
         t.dev.rd R.PCX_LINK_STATUS_rate link = rate ∧ t.dev.rd R.PCX_LINK_STATUS_width link = width ∧
         t.dev.on R.PCX_LINK_STATUS_flit link = flit ∧ (t.dev.link link).ready = true ∧ (t.dev.link link).training = false ∧
         t.dev.on (pcxCauses.bit 1) link = true) ∧
     (s.dev.rd R.PCX_LINK_STATUS_state link = 3 → (s.dev.link link).reads = {} → (s.dev.link link).queue = [] →
       (∀ fn ∈ s.dev.fnsOf link, fn < 16 → (s.dev.fn fn).aspmL1 = true) →
       exec (.aspmL1Entry link) s = .next { s with dev := s.dev.wr R.PCX_LINK_STATUS_state 6 link }))

/-- R125-R128: an FLR of a function that holds nothing, and PERST_N on a link with such a function alone, begin the reset of the function; the
end of its squash ends the reset: the function is back with Bus Master Enable clear, and one of an FLR sets PCX cause 3. R127: Bus Master
Enable of a function that holds nothing goes down, and up, and nothing else about functions, registers and the links' requests changes.
R421: VF Enable brings the first NumVFs VFs of a PF, at least as many as there are, into being; cleared, it begins an FLR of a VF. -/
def Obligations.Functions : Prop :=
  (∀ (fn : Nat) (s : State), s.dev.phase = .running → fn < 8208 → s.dev.vfsPresent fn = [] →
     (s.dev.quiet fn → (s.dev.fn fn).reset = .none → ∃ t, exec (.initiateFlr fn) s = .next t ∧ resetBegun fn 1 .flr s t) ∧
     (s.dev.quiet fn → (s.dev.fn fn).reset = .none → s.dev.fnsOf (s.dev.linkOf fn) = [fn] → s.dev.formed (s.dev.linkOf fn) = true →
       (s.dev.link (s.dev.linkOf fn)).reset = .none → s.dev.on R.PCX_LINK_STATUS_perst (s.dev.linkOf fn) = false →
       ∃ t, exec (.perstNAssert (s.dev.linkOf fn)) s = .next t ∧ resetBegun fn 4 .link s t) ∧
     ((s.dev.fn fn).reset = .flr → s.dev.items = {} → (s.dev.link (s.dev.linkOf fn)).reads = {} → s.dev.dmaChannelsOf fn = [] →
       s.dev.ringsOf fn = [] → s.dev.jobs = {} → s.dev.isS44 fn = false → (s.dev.fn fn).outbox = [] → s.dev.formed (s.dev.linkOf fn) = true →
       (fn < 16 ∨ (s.dev.fn (s.dev.pfOf fn)).vfEnable = true) → (s.dev.link (s.dev.linkOf fn)).reset = .none →
       ∃ t, exec (.resetSquashComplete fn) s = .next t ∧ (t.dev.fn fn).reset = .none ∧ (t.dev.fn fn).gen = (s.dev.fn fn).gen ∧
         (t.dev.fn fn).busMaster = false ∧ t.dev.hasFn fn = true ∧ t.dev.on (pcxCauses.bit 3) (s.dev.linkOf fn) = true)) ∧
  (∀ (fn : Nat) (s : State), s.dev.phase = .running → s.dev.quiet fn → (s.dev.fn fn).reset = .none →
     ((s.dev.fn fn).busMaster = true → ∃ t, exec (.busMasterEnableClear fn) s = .next t ∧
       t.dev.fn fn = { s.dev.fn fn with busMaster := false } ∧ (∀ g, g ≠ fn → t.dev.fn g = s.dev.fn g) ∧ t.dev.regs = s.dev.regs ∧
       t.dev.out = s.dev.out) ∧
     ((s.dev.fn fn).busMaster = false → (s.dev.fn fn).vecs = {} → ∃ t, exec (.busMasterEnableSet fn) s = .next t ∧
       t.dev.fn fn = { s.dev.fn fn with busMaster := true } ∧ (∀ g, g ≠ fn → t.dev.fn g = s.dev.fn g) ∧ t.dev.regs = s.dev.regs ∧
       t.dev.out = s.dev.out)) ∧
  (∀ (pf n : Nat) (s : State), s.dev.phase = .running → pf < 16 → (s.dev.pf? pf).isSome = true → s.dev.hasFn pf = true →
     (s.dev.fn pf).reset = .none →
     ((s.dev.fn pf).vfEnable = false → ∃ t, exec (.vfEnableSet pf n) s = .next t ∧ (t.dev.fn pf).vfEnable = true ∧
       (t.dev.fn pf).numVfs = min n (s.dev.vfsOf pf).length ∧
       ∀ v ∈ (s.dev.vfsOf pf).take n, t.dev.hasFn v = true ∧ (s.dev.hasFn v = false → (t.dev.fn v).tenant = pf)) ∧
     (∀ v, (s.dev.fn pf).vfEnable = true → s.dev.vfsPresent pf = [v] → s.dev.quiet v → (s.dev.fn v).reset = .none →
       ∃ t, exec (.vfEnableClear pf) s = .next t ∧ (t.dev.fn pf).vfEnable = false ∧ resetBegun v 1 .flr s t))

/-- R113-R115, R125, R126: a configuration request to a function that exists is answered; through a reset it is answered with Request Retry
Status, and where there is no function as unsupported. A field that is writable and a supported value takes the write. R5, R83, R117, R119,
R454: a memory read returns the bytes of the card; one of more than 64 bytes gets Completer Abort; one of a function that does not answer is
unsupported, both reported under AER where the function does not mask them; through a service reset and in fault stop every BAR reads zero. -/
def Obligations.HostRequests : Prop :=
  (∀ (fn : Nat) (s : State), s.dev.phase = .running → s.dev.formed (s.dev.linkOf fn) = true →
     (∀ req, s.dev.cfgRetries fn = true → exec (.configRequest fn req) s = .next { s with dev := s.dev.emit (.retryStatus fn) }) ∧
     (∀ req, s.dev.cfgRetries fn = false → s.dev.hasFn fn = false →
       exec (.configRequest fn req) s = .next { s with dev := s.dev.emit (.unsupported fn) }) ∧
     (s.dev.cfgRetries fn = false → s.dev.hasFn fn = true →
       (∃ t, exec (.configRequest fn (.read .vendorId)) s = .next t ∧ t.dev.out = s.dev.out ++ [.configData fn 0x1E8C]) ∧
       (fn < 16 → ∃ t, exec (.configRequest fn (.read .deviceId)) s = .next t ∧
         t.dev.out = s.dev.out ++ [.configData fn s.dev.die.variant.code]) ∧
       (∀ v, v ∈ [128, 256, 512] → ∃ t, exec (.configRequest fn (.write .maxPayload v)) s = .next t ∧
         t.dev.fn fn = { s.dev.fn fn with maxPayload := v } ∧ t.dev.out = s.dev.out ++ [.configDone fn]) ∧
       (∀ v, ∃ t, exec (.configRequest fn (.write .vendorId v)) s = .next t ∧ t.dev.fn fn = s.dev.fn fn ∧
         t.dev.out = s.dev.out ++ [.configDone fn]))) ∧
  (∀ (fn : Nat) (s : State), s.dev.linkUp (s.dev.linkOf fn) = true →
     (s.dev.phase = .running → s.dev.doorbellOpen fn = true →
       (∀ k, ∃ t, exec (.barMemoryRead fn (.card (4 * k)) 4) s = .next t ∧
         t.dev.out = s.dev.out ++ [.readData fn (leBytes ((s.dev.leaveL1 (s.dev.linkOf fn)).cardWord fn (4 * k)) 4)]) ∧
       (∀ k len, 64 < len → ∃ t, exec (.barMemoryRead fn (.card k) len) s = .next t ∧
         t.dev.out = s.dev.out ++ [.completerAbort fn] ++
           (if (s.dev.fn fn).aer.reports .completerAbort then [.aer (s.dev.linkOf fn) fn .completerAbort] else []))) ∧
     (∀ a len, s.dev.phase = .running → s.dev.doorbellOpen fn = false →
       ∃ t, exec (.barMemoryRead fn a len) s = .next t ∧ t.dev.out = s.dev.out ++ [.unsupported fn] ++
         (if s.dev.hasFn fn = true ∧ (s.dev.fn fn).aer.reports .unsupported = true then [.aer (s.dev.linkOf fn) fn .unsupported] else [])) ∧
     (∀ a len, s.dev.phase = .serviceReset ∨ s.dev.phase = .faultStop → s.dev.hasFn fn = true →
       ∃ t, exec (.barMemoryRead fn a len) s = .next t ∧ t.dev.out = s.dev.out ++ [.readData fn (List.replicate len 0)]))

/-- R122, R123: a completion with the tag of an outstanding request ends it. A failed one is counted, raises PCX cause 5 and, where the function
does not mask it, an AER report; one that does not come raises cause 4; data that is to be discarded goes nowhere. A tag of no request is
ignored. R412, R115, R120, R131: an unmasked vector sends what it holds, with the steering tag of its entry where TPH is enabled; an ATS
invalidation takes every translation of its range out of the link's cache and is answered; a failed IDE check ends the stream. R130: a
commit takes the whole shadow set as it stands, and leaves the active set as it is until the copy is done; then the active set is the set
taken, and the commit is counted. A commit during another one raises PCX cause 7. -/
def Obligations.HostMessagesAndWindows : Prop :=
  (∀ (link tag : Nat) (data : List Byte) (r : Read) (s : State), s.dev.phase = .running → link < 16 →
     ((s.dev.link link).reads.get? tag = none → ∀ status, exec (.readCompletion link tag status data) s = .next s ∧
       exec (.completionTimeout link tag) s = .next s) ∧
     ((s.dev.link link).reads.get? tag = some r → (s.dev.link link).queue = [] → r.dead = true →
       (∃ t, exec (.readCompletion link tag .success data) s = .next t ∧ (t.dev.link link).reads.get? tag = none ∧
         t.dev.regs = s.dev.regs ∧ t.dev.out = s.dev.out) ∧
       (∀ status, status ≠ .success → ∃ t, exec (.readCompletion link tag status data) s = .next t ∧
         (t.dev.link link).reads.get? tag = none ∧ t.dev.on (pcxCauses.bit 5) link = true ∧
         t.dev.rd R.PCX_CPL_ERRORS_errors link = (s.dev.rd R.PCX_CPL_ERRORS_errors link + 1) % 2 ^ R.PCX_CPL_ERRORS_errors.width ∧
         ((s.dev.fn r.fn).aer.reports .poisoned = true → Output.aer link r.fn .poisoned ∈ t.dev.out)) ∧
       (∃ t, exec (.completionTimeout link tag) s = .next t ∧
         (t.dev.link link).reads.get? tag = none ∧ t.dev.on (pcxCauses.bit 4) link = true ∧
         t.dev.rd R.PCX_CPL_TIMEOUTS_timeouts link = (s.dev.rd R.PCX_CPL_TIMEOUTS_timeouts link + 1) % 2 ^ R.PCX_CPL_TIMEOUTS_timeouts.width ∧
         ((s.dev.fn r.fn).aer.reports .completionTimeout = true → Output.aer link r.fn .completionTimeout ∈ t.dev.out)))) ∧
  (∀ s : State, s.dev.phase = .running →
     (∀ fn v, s.dev.hasFn fn = true → v < s.dev.msixSize fn → (s.dev.link (s.dev.linkOf fn)).reset = .none → s.dev.postedOf fn = [] →
       ∃ t, exec (.msixVectorUnmask fn v) s = .next t ∧ (t.dev.vec fn v).masked = false ∧ (t.dev.vec fn v).addr = (s.dev.vec fn v).addr ∧
         (if (s.dev.vec fn v).pending = true ∧ (s.dev.fn fn).busMaster = true ∧ (s.dev.fn fn).msixEnable = true ∧ (s.dev.fn fn).msixMask = false
          then (t.dev.vec fn v).pending = false ∧ t.dev.out = s.dev.out ++
            [.msix fn v (if (s.dev.fn fn).tphEnable then some (s.dev.vec fn v).steering else none)]
          else (t.dev.vec fn v).pending = (s.dev.vec fn v).pending ∧ t.dev.out = s.dev.out)) ∧
     (∀ link tag addr size, s.dev.linkUp link = true →
       ∃ t, exec (.atsInvalidateRequest link tag addr size) s = .next t ∧ t.dev.out.getLast? = some (.atsInvalidateDone link tag) ∧
         ∀ e ∈ (t.dev.link link).atc, e ∈ (s.dev.link link).atc ∧ (e.base + e.size ≤ addr ∨ addr + size ≤ e.base)) ∧
     (∀ link, link < 16 → s.dev.on R.PCX_LINK_STATUS_ide_secure link = true →
       ∃ t, exec (.ideIntegrityFailure link) s = .next t ∧ t.dev.rd R.PCX_LINK_STATUS_ide_secure link = 0 ∧
         (t.dev.link link).ideKeys = none ∧ t.dev.on (pcxCauses.bit 9) link = true ∧
         ((s.dev.fn (s.dev.function0 link)).aer.reports .ideCheck = true → Output.aer link (s.dev.function0 link) .ideCheck ∈ t.dev.out))) ∧
  (∀ (link : Nat) (s : State), s.dev.phase = .running → s.dev.formed link = true → (s.dev.link link).reset = .none →
     ((s.dev.link link).commit = none → ∃ t, exec (.p2pCommit link) s = .next t ∧
       (t.dev.link link).commit = some (s.dev.shadowSet link) ∧ t.dev.rd R.PCX_P2P_COMMIT_commit_busy link = 1 ∧
       ∀ f ∈ p2pShadow ++ p2pActive, ∀ w, w < 16 → t.dev.rd f link (32 * w) = s.dev.rd f link (32 * w)) ∧
     (∀ set, (s.dev.link link).commit = some set →
       (∃ t, exec (.p2pCommit link) s = .next t ∧ (t.dev.link link).commit = some set ∧ t.dev.on (pcxCauses.bit 7) link = true) ∧
       (∃ t, exec (.p2pCommitDone link) s = .next t ∧ (t.dev.link link).commit = none ∧ t.dev.rd R.PCX_P2P_COMMIT_commit_busy link = 0 ∧
         t.dev.rd R.PCX_P2P_GEN_commits link = (s.dev.rd R.PCX_P2P_GEN_commits link + 1) % 2 ^ R.PCX_P2P_GEN_commits.width ∧
         t.dev.on (pcxCauses.bit 6) link = true ∧
         ∀ w k f, w < 16 → p2pActive[k]? = some f → t.dev.rd f link (32 * w) = set.getD (8 * w + k) 0 % 2 ^ f.width)))

/-- R138, R149: a producer value beyond what is free is an overrun: the ring enters its error state with cause 2; a value outside the ring does
so with cause 3; a valid advance of an enabled ring is taken. R83, R137, R149: a doorbell that no ring takes is counted as ignored; one
written during a service reset is logged, and where the log is full it stays on its link, whose credits are withheld. -/
def Obligations.Doorbells : Prop :=
  (∀ (fn page slot v r : Nat) (g : Ring) (s : State), s.dev.phase = .running → s.dev.doorbellOpen fn = true → s.dev.canIssue g.fn = true →
     s.dev.withholds fn = false → s.dev.boot.shutdown = false → s.dev.doorbellRing fn page slot = some r → s.dev.ring? r = some g → g.kind ≠ 3 → g.state = .enabled →
     g.stopping = false → g.producer < g.size → g.size ≤ 65536 →
     (v < g.size → (v + g.size - g.producer) % g.size + g.outstanding < g.size →
       ∃ t h, exec (.doorbellProducerWrite fn page slot v) s = .next t ∧ t.dev.ring? r = some h ∧ h.producer = v ∧ h.slotProducer = v ∧
         h.state = .enabled) ∧
     (v < g.size → g.outstanding < g.size → g.size ≤ (v + g.size - g.producer) % g.size + g.outstanding → v ≠ g.producer →
       ∃ t h, exec (.doorbellProducerWrite fn page slot v) s = .next t ∧ t.dev.ring? r = some h ∧ h.producer = g.producer ∧
         h.state = .error ∧ h.errorCause = 2 ∧
         t.dev.rd R.QMG_DB_OVERRUNS_count = (s.dev.rd R.QMG_DB_OVERRUNS_count + 1) % 2 ^ R.QMG_DB_OVERRUNS_count.width) ∧
     (g.size ≤ v → ∃ t h, exec (.doorbellProducerWrite fn page slot v) s = .next t ∧ t.dev.ring? r = some h ∧ h.producer = g.producer ∧
         h.state = .error ∧ h.errorCause = 3)) ∧
  (∀ (fn page slot v : Nat) (arm : Bool) (s : State),
     (s.dev.phase = .running → s.dev.withholds fn = false → s.dev.doorbellOpen fn = true → s.dev.doorbellRing fn page slot = none →
       exec (.doorbellProducerWrite fn page slot v) s = .next { s with dev := s.dev.ignoreDoorbell } ∧
       exec (.doorbellCqHeadWrite fn page slot v arm) s = .next { s with dev := s.dev.ignoreDoorbell } ∧
       s.dev.ignoreDoorbell.rd R.QMG_DB_IGNORED_count =
         (s.dev.rd R.QMG_DB_IGNORED_count + 1) % 2 ^ R.QMG_DB_IGNORED_count.width ∧
       s.dev.ignoreDoorbell.on (qmgCauses.bit 2) = true ∧ s.dev.ignoreDoorbell.rings = s.dev.rings) ∧
     (s.dev.phase = .serviceReset → s.dev.withholds fn = false → ∃ t, exec (.doorbellProducerWrite fn page slot v) s = .next t ∧
       (if s.dev.boot.log.length < 65536 then t.dev.boot.log = s.dev.boot.log ++ [(fn, page, slot, 0, v)]
        else t.dev.boot.withheld = s.dev.boot.withheld ++ [.doorbell fn page slot 0 v] ∧ t.dev.withholds fn = true) ∧
       t = { s with dev := { s.dev with boot := t.dev.boot } }) ∧
     (s.dev.withholds fn = true → ∃ t, exec (.doorbellProducerWrite fn page slot v) s = .next t ∧
       t.dev.boot.withheld = s.dev.boot.withheld ++ [.doorbell fn page slot 0 v] ∧ t = { s with dev := { s.dev with boot := t.dev.boot } }))

/-- R145: cq_head takes its value, and arms the ring where arm is set; at cpl_pos the timer is cancelled; the end of the timer is a raising
condition; an armed ring whose condition is met raises its vector once. R143, R144: one write takes the consecutive owed entries that it may
hold off the list, and the bytes leave for the host. -/
def Obligations.RingCompletions : Prop :=
  (∀ (r : Nat) (g : Ring) (s : State), s.dev.phase = .running → s.dev.ring? r = some g →
     (∀ fn page slot head arm, s.dev.withholds fn = false → s.dev.doorbellOpen fn = true → s.dev.doorbellRing fn page slot = some r →
       head < 65536 → s.dev.ctxCache.contains r = true →
       ∃ t, exec (.doorbellCqHeadWrite fn page slot head arm) s = .next t ∧
         t.dev.ring? r = some (g.headMoved head arm).afterIrq ∧ t.dev.out = s.dev.outAfterIrq (g.headMoved head arm) ∧
         t.dev.regs = s.dev.regs) ∧
     (g.timer = true → ∃ t, exec (.irqTimeExpiry r) s = .next t ∧
       t.dev.ring? r = some { g with timer := false, expired := true }.afterIrq ∧
       t.dev.out = s.dev.outAfterIrq { g with timer := false, expired := true } ∧ t.dev.regs = s.dev.regs) ∧
     (g.timer = false → exec (.irqTimeExpiry r) s = .next s)) ∧
  (∀ (r : Nat) (g : Ring) (o : Owed) (l : List Owed) (s : State), s.dev.phase = .running → s.dev.ring? r = some g → g.owed = o :: l →
     (o.ready = true → o.bytes ≠ [] → s.dev.canIssue g.fn = true → g.ats = false → s.dev.postedOf g.fn = [] →
       ∃ t h m, exec (.owedCompletionWrite r) s = .next t ∧ t.dev.ring? r = some h ∧ h.owed = g.owed.drop g.batch ∧ 1 ≤ g.batch ∧ g.batch ≤ 4 ∧
         m ≠ [] ∧ t.dev.out.take (s.dev.out.length + m.length) = s.dev.out ++ m ∧ ∀ x ∈ m, ∃ a b c, x = Output.hostWrite g.fn a b c) ∧
     (o.ready = false → exec (.owedCompletionWrite r) s = .next s))

/-- R152: a snapshot of a ring context is taken when it is done: 32 words for a master that may read it, zeros and denied otherwise. R149, R152,
R172: the error FIFO of the rings and the failed-item log give their oldest entry and zero when they are empty. R290: a snapshot of a
connection context gives its words without salts and IVs to a master that may read it, and zeros and denied to any other. -/
def Obligations.SnapshotsAndLogs : Prop :=
  (∀ (mid r : Nat) (s : State), s.dev.phase = .running →
     (s.dev.on R.QMG_CTX_STATUS_busy = false → r < 2 ^ 22 → ∃ t, exec (.qmgCtxSnap mid r) s = .next t ∧ t.dev.ctxSnap = some (mid, r) ∧
       t.dev.rd R.QMG_CTX_STATUS_busy = 1 ∧ t.dev.rd R.QMG_CTX_SELECT_ring = r ∧ t.dev.rings = s.dev.rings) ∧
     (s.dev.ctxSnap = some (mid, r) → ∃ t, exec .qmgCtxSnapDone s = .next t ∧ t.dev.rd R.QMG_CTX_STATUS_busy = 0 ∧ t.dev.ctxSnap = none ∧
       t.dev.rings = s.dev.rings ∧
       (s.dev.mayRead mid r = false → t.dev.rd R.QMG_CTX_STATUS_denied = 1 ∧ t.dev.rd R.QMG_CTX_STATUS_valid = 0 ∧
         ∀ n, n < 32 → t.dev.rd R.QMG_CTX_DATA_data 0 (4 * n) = 0) ∧
       (∀ g, s.dev.mayRead mid r = true → s.dev.ring? r = some g → t.dev.rd R.QMG_CTX_STATUS_valid = 1 ∧ t.dev.rd R.QMG_CTX_STATUS_denied = 0 ∧
         ∀ n, n < 32 → t.dev.rd R.QMG_CTX_DATA_data 0 (4 * n) = g.contextWords.getD n 0 % 2 ^ 32))) ∧
  (∀ (mid : Nat) (s : State), s.dev.phase = .running →
     (∀ w l, s.dev.ringErrors = w :: l →
       exec (.qmgErrFifoRead mid) s = .next { s with dev := { s.dev with ringErrors := l }.emit (.answer mid w) }) ∧
     (s.dev.ringErrors = [] → exec (.qmgErrFifoRead mid) s = .next { s with dev := s.dev.emit (.answer mid 0) }) ∧
     (∀ f l, s.dev.failures = f :: l → ∃ t, exec (.lgrFailLogRead mid) s = .next t ∧ t.dev.failures = l ∧
       t.dev.out = s.dev.out ++ [.answer mid (f.source % 2 ^ 22 + 2 ^ 22 * f.onPort.toNat + 2 ^ 23 * f.reason + 2 ^ 31)] ∧
       t.dev.rd R.LGR_FAIL_LOG_1_seq_lo = f.seq % 2 ^ 32) ∧
     (s.dev.failures = [] → exec (.lgrFailLogRead mid) s = .next { s with dev := s.dev.emit (.answer mid 0) })) ∧
  (∀ (mid c : Nat) (s : State), s.dev.phase = .running →
     (s.dev.on R.CRY_CTX_STATUS_busy = false → c < 2 ^ 24 → ∃ t, exec (.cryCtxSnap mid c) s = .next t ∧ t.dev.crySnap = some (mid, c) ∧
       t.dev.rd R.CRY_CTX_STATUS_busy = 1 ∧ t.dev.rd R.CRY_CTX_SELECT_context = c ∧ t.dev.ctxs = s.dev.ctxs) ∧
     (s.dev.crySnap = some (mid, c) → ∃ t, exec .cryCtxSnapDone s = .next t ∧ t.dev.rd R.CRY_CTX_STATUS_busy = 0 ∧ t.dev.crySnap = none ∧
       t.dev.ctxs = s.dev.ctxs ∧
       (s.dev.mayReadCtx mid c = false → t.dev.rd R.CRY_CTX_STATUS_denied = 1 ∧ t.dev.rd R.CRY_CTX_STATUS_valid = 0 ∧
         ∀ n, n < 64 → t.dev.rd R.CRY_CTX_DATA_data 0 (4 * n) = 0) ∧
       (s.dev.mayReadCtx mid c = true → t.dev.rd R.CRY_CTX_STATUS_valid = 1 ∧ t.dev.rd R.CRY_CTX_STATUS_denied = 0 ∧
         ∀ n, n < 64 → t.dev.rd R.CRY_CTX_DATA_data 0 (4 * n) = leAt (maskedCtx (s.dev.ctx c)) (4 * n) 4 % 2 ^ 32)))

/-- R141, R142: the descriptor at the head of a transmit ring is taken up: it joins the open frame, ends it as an item, or is an item of its
own; a malformed one ends with status 0x01. -/
def Obligations.TransmitDescriptors : Prop :=
  ∀ (r : Nat) (g : Ring) (x : Desc) (l : List Desc) (s : State), s.dev.phase = .running → s.dev.ring? r = some g → g.kind = 0 →
    g.accepted = x :: l →
    let f := g.txFields g.frame.isEmpty x
    (∀ c, (c = .txDescriptorPlain r ∧ f.opcode = 0) ∨ (c = .txDescriptorOffload r ∧ f.opcode = 1) →
      g.txBad g.frame.length f = false →
      (f.eop = false → ∃ t, exec c s = .next t ∧ t.dev.ring? r = some { g with accepted := l, saved := g.saved - 1, frame := g.frame ++ [x] } ∧
        t.dev.items = s.dev.items) ∧
      (f.eop = true → ∃ t, exec c s = .next t ∧ t.dev.ring? r = some { g with accepted := l, saved := g.saved - 1, frame := [] } ∧
        t.dev.item? s.dev.nextItem = some (s.dev.ringItem r g 0 (g.frame ++ [x])))) ∧
    (f.opcode = 2 → g.txBad g.frame.length f = false →
      ∃ t, exec (.txDescriptorNoop r) s = .next t ∧ t.dev.ring? r = some { g with accepted := l, saved := g.saved - 1, frame := [] } ∧
        t.dev.item? s.dev.nextItem = some { s.dev.ringItem r g 0 (g.frame ++ [x]) with stage := .retiring, direct := true }) ∧
    (f.opcode = 0 → g.txBad g.frame.length f = true →
      ∃ t, exec (.txDescriptorPlain r) s = .next t ∧ t.dev.ring? r = some { g with accepted := l, saved := g.saved - 1, frame := [] } ∧
        t.dev.item? s.dev.nextItem = some { s.dev.ringItem r g 0 (g.frame ++ [x]) with stage := .retiring, direct := true, status := 1 })

/-- R157, R169, R187: the first item of its Figure's queue is delivered to the position that dispatch picks, and keeps its place in the dispatch
order; with every table full it waits, and so does new work behind work of its Figure that a service reset saved. R155, R161, R426: an item
retires only in its source's order; then a transmit item that failed, or that has a status, completes on its ring and is gone; one of an
older generation is squashed and, where it has not failed during the reset, counted. -/
def Obligations.DispatchAndRetirement : Prop :=
  (∀ (i f : Nat) (it : Item) (s : State), s.dev.phase = .running → s.dev.item? i = some it → it.stage = .queued →
     s.dev.figureOf it = some f → (s.dev.queueOf f (it.kind == 1)).head? = some i →
     (∀ p, s.dev.pickPosition f it = some p → it.kind = 1 ∨ it.order ≠ 0 ∨ it.restored = true ∨ s.dev.savedFor f = false →
       ∃ t, exec (.itemDispatch i) s = .next t ∧
       t.dev.item? i = some { it with stage := .delivered, position := p, figure := p / 8
                                      order := if it.order = 0 then s.dev.dispatched + 1 else it.order } ∧
       (t.dev.siteAt p).input = (s.dev.siteAt p).input ++ [i] ∧ t.dev.regs = s.dev.regs ∧ t.dev.rings = s.dev.rings) ∧
     (s.dev.pickPosition f it = none → exec (.itemDispatch i) s = .next s) ∧
     (it.kind ≠ 1 → it.order = 0 → it.restored = false → s.dev.savedFor f = true → exec (.itemDispatch i) s = .next s)) ∧
  (∀ (i : Nat) (it : Item) (s : State), s.dev.phase = .running → s.dev.item? i = some it → it.stage = .retiring → s.dev.linkOf it.fn < 17 →
     (s.dev.nextInOrder i it = false → exec (.itemRetire i) s = .next s) ∧
     (s.dev.nextInOrder i it = true → s.dev.stale it = true → it.failedIn = false → ∃ t, exec (.itemRetire i) s = .next t ∧ t.dev.item? i = none ∧
       t.dev.rd64 R.LGR_SQUASHED_LO_squashed R.LGR_SQUASHED_HI_squashed =
         (s.dev.rd64 R.LGR_SQUASHED_LO_squashed R.LGR_SQUASHED_HI_squashed + 1) % 2 ^ 64) ∧
     (∀ g, s.dev.nextInOrder i it = true → s.dev.stale it = false → it.espOf = none → it.tlsOf = none → it.kind = 0 → it.nvme = none →
       s.dev.ring? it.source = some g → s.dev.cplOpen it.source = true → it.failed.isSome = true ∨ it.status ≠ 0 →
       ∃ t h, exec (.itemRetire i) s = .next t ∧ t.dev.item? i = none ∧ t.dev.ring? it.source = some h ∧
         h.retireSeq = (it.seq + it.count) % 2 ^ 48))

/-- R349: the MAC's checks come in order: FCS, length, size, each with its counter; a frame that passes, classified and refused by no rule of
R182, is accepted with the next admission sequence of its instance, queued for dispatch. R184, R204, R353: the oldest frame of a class in
the lossless receive FIFO meets admission again, under its port's registers as they stand: it leaves the FIFO and is accepted once no rule
refuses it; while the packet buffer or the packet credits are used up, it stays. R147, R168, R191: a frame that waits at a ring is delivered
once buffers cover it, and is gone; a failed one takes a buffer; a switched item whose wait has passed completes at its source, counted. -/
def Obligations.ReceptionAndDelivery : Prop :=
  (∀ (m : Nat) (f : Frame) (s : State), s.dev.phase = .running → s.dev.macUp m = true →
     exec (.frameReceived m f false) s = .next { s with dev := s.dev.countMac m 2 } ∧
     (beAt f 12 2 ≠ 0x8808 → f.length < 60 → exec (.frameReceived m f true) s = .next { s with dev := s.dev.countMac m 3 }) ∧
     (beAt f 12 2 ≠ 0x8808 → 60 ≤ f.length → s.dev.rd R.MAC_INST_CFG_max_frame 0 (16 * m) < f.length + 4 →
       exec (.frameReceived m f true) s = .next { s with dev := s.dev.countMac m 4 }) ∧
     (∀ vnid, beAt f 12 2 ≠ 0x8808 → 60 ≤ f.length → f.length + 4 ≤ s.dev.rd R.MAC_INST_CFG_max_frame 0 (16 * m) →
       s.dev.on R.CRY_MACSEC_RX_rx_enable 0 (8 * m) = false → (parse s.dev.parseCfg f).truncated = false →
       s.dev.cryStage m = [] →
       let x := s.dev.plainItem m f vnid
       let y := s.dev.classified x
       s.dev.portVnid m (s.dev.portParse m f) f = some vnid → x.parse.tunnel = 0 → x.parse.roce = false →
       s.dev.tcpConn m x.parse = none → x.parse.l4 ≠ 4 → y.2.mustWait y.1 = false → y.2.boot.shutdown = false → y.2.refusal y.1 = none →
       ∃ t z, exec (.frameReceived m f true) s = .next t ∧ t.dev.item? y.2.nextItem = some z ∧ z.stage = .queued ∧ z.bytes = f ∧
         z.seq = y.2.admitted.getD m 0 ∧ z.verdict = y.1.verdict ∧ t.dev.admitted.getD m 0 = (y.2.admitted.getD m 0 + 1) % 2 ^ 48)) ∧
  (∀ (m cls : Nat) (it : Item) (l : List Item) (s : State), s.dev.phase = .running → (s.dev.mac m).rx = it :: l → it.parse.tc = cls →
     it.source = m → s.dev.boot.shutdown = false →
     ∀ x, (s.dev.portStages m (it.job != 1) it.bytes).1 = some x →
     let y := (s.dev.portStages m (it.job != 1) it.bytes).2.classified (it.after x)
     (y.2.refusal y.1 = none → ∃ t z, exec (.losslessFifoAdmit m cls) s = .next t ∧ (t.dev.mac m).rx = l ∧
       t.dev.item? s.dev.nextItem = some z ∧ z.stage = .queued ∧ z.bytes = it.bytes ∧ z.seq = s.dev.admitted.getD m 0) ∧
     (y.2.refusal y.1 = some 4 ∨ y.2.refusal y.1 = some 5 → s.dev.lossless m y.1.parse.tc = true → exec (.losslessFifoAdmit m cls) s = .next s)) ∧
  (∀ (r i : Nat) (g : Ring) (it : Item) (s : State), s.dev.phase = .running → s.dev.item? i = some it → s.dev.itemRing it = some r →
     s.dev.ring? r = some g → g.kind = 1 → it.stage = .waiting →
     (∀ l, g.waiting = i :: l → it.kind = 1 → s.dev.nextInOrder i it = true → s.dev.mayFill r [s.dev.rxNeeds it] = true →
       ∃ t h, exec (.waitingFrameDelivery r) s = .next t ∧ t.dev.item? i = none ∧ t.dev.ring? r = some h ∧
         h.waiting = g.waiting.filter (· != i) ∧ h.buffers.length < g.buffers.length) ∧
     (∀ l, g.waiting = i :: l → it.kind = 1 → s.dev.nextInOrder i it = false ∨ s.dev.mayFill r [s.dev.rxNeeds it] = false →
       exec (.waitingFrameDelivery r) s = .next s) ∧
     (it.kind = 3 → it.source ≠ r → s.dev.cplOpen it.source = true →
       ∃ t h, exec (.switchedWaitExpiry i) s = .next t ∧ t.dev.item? i = none ∧ t.dev.ring? r = some h ∧
         h.waiting = g.waiting.filter (· != i) ∧
         t.dev.rd R.PPL_SW_TIMEOUTS_count 1 = (s.dev.rd R.PPL_SW_TIMEOUTS_count 1 + 1) % 2 ^ R.PPL_SW_TIMEOUTS_count.width))

/-- R21, R22: at a Set fault a fit reserve takes the position over and the departed site stands in the reserve, out; without one the position is
vacant. What the position held is delivered afresh to the site that took it, one replay the more (R165). R166: when the items of a replay
are through, the stall is stored, and its greatest value; the last replay to end clears replay_active and sets LGR cause 1. R157: a Figure
whose every in-service position has held 512 entries sets LGR cause 6. R272: at the fault of a crypto instance a fit reserve takes its
position over; without one the position is vacant. -/
def Obligations.Takeovers : Prop :=
  (∀ (p code addr : Nat) (thread : Option Nat) (s : State), s.dev.phase = .running → code = 1 ∨ code = 9 → p < 32 → s.dev.hasSet p = true →
     (s.dev.setAt p).phase = .inService → s.dev.chans = {} →
     (s.dev.items = {} →
       (∀ r, s.dev.fitReserve = some r → ∃ t, exec (.setFault p ⟨code, addr, thread⟩) s = .next t ∧ t.dev.setAt p = { site := (s.dev.setAt r).site } ∧
         t.dev.setAt r = { site := (s.dev.setAt p).site, phase := .out } ∧
         t.dev.rd R.LGR_LAST_FAILOVER_position = p ∧ t.dev.rd R.LGR_LAST_FAILOVER_trigger = 0 ∧
         recorded s t) ∧
       (s.dev.fitReserve = none → ∃ t, exec (.setFault p ⟨code, addr, thread⟩) s = .next t ∧
         t.dev.setAt p = { site := (s.dev.setAt p).site, phase := .out } ∧ ∀ q, q ≠ p → t.dev.setAt q = s.dev.setAt q)) ∧
     (∀ r i it, s.dev.fitReserve = some r → s.dev.items = { entries := [(i, it)] } → it.inLedger = true → it.position = p → it.kind = 1 →
       it.conn = none → it.replays < 2 →
       ∃ t x, exec (.setFault p ⟨code, addr, thread⟩) s = .next t ∧ t.dev.item? i = some x ∧ x.stage = .delivered ∧ x.position = p ∧
         x.replays = it.replays + 1 ∧ x.edits = [] ∧ x.dest = none ∧ (t.dev.siteAt p).input.getLast? = some i)) ∧
  (∀ (p stall : Nat) (l : List Nat) (s : State), s.dev.phase = .running → s.dev.replays = [{ position := p, items := l }] →
     s.dev.items = {} → s.dev.jobs = {} → s.dev.power.sitOutWaits = false →
     ∃ t, exec (.replayDone p stall) s = .next t ∧ t.dev.replays = [] ∧ t.dev.rd R.LGR_STATUS_replay_active = 0 ∧
       t.dev.rd R.LGR_LAST_STALL_stall_ns = min stall 0xFFFFFF ∧
       t.dev.rd R.LGR_STALL_MAX_stall_ns = max (min stall 0xFFFFFF) (s.dev.rd R.LGR_STALL_MAX_stall_ns) % 2 ^ R.LGR_STALL_MAX_stall_ns.width ∧
       t.dev.on (lgrCauses.bit 1) = true ∧ (s.dev.rd R.LGR_STALL_LIMIT_stall_limit < stall → t.dev.on (lgrCauses.bit 4) = true)) ∧
  (∀ (f : Nat) (s : State), s.dev.phase = .running →
     (s.dev.figurePositions f ≠ [] → (∀ p ∈ s.dev.figurePositions f, 512 ≤ s.dev.occupancy p) →
       ∃ t, exec (.figureFullPersist f) s = .next t ∧ t.dev.on (lgrCauses.bit 6) = true ∧ t.dev.items = s.dev.items) ∧
     (∀ p ∈ s.dev.figurePositions f, s.dev.occupancy p < 512 → exec (.figureFullPersist f) s = .next s)) ∧
  (∀ (p : Nat) (s : State), s.dev.phase = .running → p < 46 → s.dev.hasCry p = true → (s.dev.cryAt p).phase = .inService →
     (∀ r, s.dev.fitCry = some r → ∃ t, exec (.cryptoInstanceFault p) s = .next t ∧ t.dev.cryAt p = { site := (s.dev.cryAt r).site } ∧
       t.dev.cryAt r = { site := (s.dev.cryAt p).site, phase := .out } ∧ t.dev.on (cryInstCauses.bit 1) p = true ∧
       recorded s t ∧ t.dev.items = s.dev.items) ∧
     (s.dev.fitCry = none → ∃ t, exec (.cryptoInstanceFault p) s = .next t ∧ t.dev.cryAt p = { s.dev.cryAt p with phase := .out } ∧
       ∀ q, q ≠ p → t.dev.cryAt q = s.dev.cryAt q))

/-- R270, R274, R281, R282: an inbound ESP job ends under the configuration that it read when it started. One that fails its checks drops its
frame, counted; one that passes leaves the stripped frame, which waits behind a frame of its port that came before. -/
def Obligations.EspJobs : Prop :=
  ∀ (i j p q : Nat) (it x : Item) (ip : Ip) (cfg : List Byte × List Byte) (s : State), s.dev.phase = .running → j < i →
    s.dev.items = { entries := [(j, x), (i, it)] } → it.stage = .crypto → x.stage = .crypto → it.source = x.source → it.job = 0 → x.job = 0 →
    it.cryPosition = p → x.cryPosition = q → p < 46 → q < 46 → p ≠ q → s.dev.hasCry p = true → s.dev.hasCry q = true →
    (s.dev.cryAt p).phase = .inService → (s.dev.cryAt q).phase = .inService → it.parse.ip = some ip → it.jobCtx = some cfg →
    x.jobCtx.isSome = true →
    let d := s.dev.cryCount p it.bytes.length
    let v := d.jobView it.sa cfg
    ∃ t, exec (.inboundEspJobDone i) s = .next t ∧ t.dev.item? j = some x ∧
      (∀ f, (Dev.espJob it.sa ip it.bytes v d).1 = .passed f → t.dev.item? i = some { it with
        bytes := f
        job := 1
        espMark := if v.ctxBit it.sa 13 then some (bits (v.ctxAt it.sa 0 4) 14 14) else none }) ∧
      (∀ k, (Dev.espJob it.sa ip it.bytes v d).1 = .refused k → t.dev.item? i = none ∧
        (k = 2 → t.dev.rd R.CRY_RX_MALFORMED_count = (s.dev.rd R.CRY_RX_MALFORMED_count + 1) % 2 ^ R.CRY_RX_MALFORMED_count.width)) ∧
      (v.ctxType it.sa ≠ 2 → t.dev.item? i = none)

/-- R250 class 1: the arithmetic and logic functions write their result to dst and the flags of the result; compare writes flags alone. R250
class 2: shifts, rotate and fields by the offset and width of the extension; flags and every other register stay. A field of no width has a
result that the spec does not state. -/
def Obligations.ArithmeticAndShifts : Prop :=
  (∀ (p t : Nat) (s : State), s.dev.phase = .running →
     let w := s.dev.word p t
     let th := s.dev.thread p t
     let a := opA w th
     let b := opB w th
     let k := some (mwDst w)
     (s.dev.atData p t 1 0 → ∃ s', exec (.aluAdd p t) s = .next s' ∧ issues p t s s' ∧
       threadBecomes p t (th.computed k (a + b) (decide (2 ^ 64 ≤ a.toNat + b.toNat)) ((a.msb == b.msb) && ((a + b).msb != a.msb))) s s') ∧
     (s.dev.atData p t 1 1 → ∃ s' c, exec (.aluSub p t) s = .next s' ∧ issues p t s s' ∧
       threadBecomes p t (th.computed k (a - b) c ((a.msb != b.msb) && ((a - b).msb != a.msb))) s s') ∧
     (s.dev.atData p t 1 2 → ∃ s' c v, exec (.aluAnd p t) s = .next s' ∧ issues p t s s' ∧ threadBecomes p t (th.computed k (a &&& b) c v) s s') ∧
     (s.dev.atData p t 1 3 → ∃ s' c v, exec (.aluOr p t) s = .next s' ∧ issues p t s s' ∧ threadBecomes p t (th.computed k (a ||| b) c v) s s') ∧
     (s.dev.atData p t 1 4 → ∃ s' c v, exec (.aluXor p t) s = .next s' ∧ issues p t s s' ∧ threadBecomes p t (th.computed k (a ^^^ b) c v) s s') ∧
     (s.dev.atData p t 1 5 → ∃ s' c, exec (.aluCompare p t) s = .next s' ∧ issues p t s s' ∧
       threadBecomes p t (th.computed none (a - b) c ((a.msb != b.msb) && ((a - b).msb != a.msb))) s s') ∧
     (s.dev.atData p t 1 6 → ∃ s' c v, exec (.aluMove p t) s = .next s' ∧ issues p t s s' ∧ threadBecomes p t (th.computed k b c v) s s') ∧
     (s.dev.atData p t 1 7 → ∃ s', exec (.addWithCarry p t) s = .next s' ∧ issues p t s s' ∧
       let r := a + b + (if th.carry then 1 else 0)
       threadBecomes p t (th.computed k r (decide (2 ^ 64 ≤ a.toNat + b.toNat + th.carry.toNat)) ((a.msb == b.msb) && (r.msb != a.msb))) s s')) ∧
  (∀ (p t : Nat) (s : State), s.dev.phase = .running →
     let w := s.dev.word p t
     let th := s.dev.thread p t
     let a := opA w th
     let wrote (r : Word64) : Thread := { th with issuedData := true, regs := th.regs.set (mwDst w) r }
     (s.dev.atData p t 2 0 → ∃ s', exec (.shiftLeft p t) s = .next s' ∧ issues p t s s' ∧ threadBecomes p t (wrote (a <<< mwOffset w)) s s') ∧
     (s.dev.atData p t 2 1 → ∃ s', exec (.shiftRight p t) s = .next s' ∧ issues p t s s' ∧ threadBecomes p t (wrote (a >>> mwOffset w)) s s') ∧
     (s.dev.atData p t 2 2 → ∃ s', exec (.rotate p t) s = .next s' ∧ issues p t s s' ∧ threadBecomes p t (wrote (a.rotateLeft (mwOffset w))) s s') ∧
     (s.dev.atData p t 2 3 → ∃ s' r, exec (.fieldExtract p t) s = .next s' ∧ issues p t s s' ∧ threadBecomes p t (wrote r) s s' ∧
       (mwWidth w ≠ 0 → ∀ i, i < 64 → r.getLsbD i = (decide (i < mwWidth w) && a.getLsbD (mwOffset w + i)))) ∧
     (s.dev.atData p t 2 4 → ∃ s' r, exec (.fieldInsert p t) s = .next s' ∧ issues p t s s' ∧ threadBecomes p t (wrote r) s s' ∧
       (mwWidth w ≠ 0 → ∀ i, i < 64 → r.getLsbD i =
         (if mwOffset w ≤ i ∧ i < mwOffset w + mwWidth w then a.getLsbD (i - mwOffset w) else (opB w th).getLsbD i))))

/-- R242-R244: a command for a thread that is not the one its engine's step falls to issues nothing. The Caller names a ready thread below its
floor while there is one, else a ready priority thread, the two in turn, else any ready thread; none where none is ready. The token moves
the round on; after 16 the next round starts under the marks that SET_ENGINE_CFG then holds. Where the very first round robin starts is the
model's choice (notes/assumptions/66.md). -/
def Obligations.TheCaller : Prop :=
  ∀ (p t : Nat) (s : State), s.dev.phase = .running → p < 34 → t < 128 →
    let d := s.dev
    let e := t / 8
    let c := d.caller p e
    let ready := d.readyIn p e
    let floor (k : Nat) : Nat := if hasBit c.floor2 k then 2 else 1
    let below (k : Nat) : Prop := ready k = true ∧ c.claimed.getD k 0 < floor k
    let prio (k : Nat) : Prop := ready k = true ∧ hasBit c.priority k = true
    (∀ op, d.named p t = false → op ∈ [Instr.seq, .jump, .branch, .call, .callIf, .popReturn, .popReturnIf, .wait, .table, .passEnd, .trap,
        .aluAdd, .aluSub, .shiftLeft, .load8b, .store8b, .readHead, .classify, .channelWrite, .channelRead, .flagSet] →
      (d.thread p t).issuedData = false → exec (op p t) s = .next s) ∧
    (∀ k, k < 8 → below k → ∃ j, j < 8 ∧ c.next ready = some (j, false) ∧ below j) ∧
    ((∀ k, k < 8 → ¬ below k) → ∀ a, a < 8 → prio a →
      (∃ j, j < 8 ∧ c.next ready = some (j, true) ∧ prio j) ∧
      (∀ b, b < 8 → a ≠ b → prio b → (∀ x, x < 8 → prio x → x = a ∨ x = b) → c.lastPrio = a → c.next ready = some (b, true))) ∧
    ((∀ k, k < 8 → ¬ below k ∧ ¬ prio k) → ∀ a, a < 8 → ready a = true → ∃ j, j < 8 ∧ c.next ready = some (j, false) ∧ ready j = true) ∧
    ((∀ k, k < 8 → ready k = false) → c.next ready = none) ∧
    (((d.siteAt p).callers.getD e {}).granted < 16 → c = (d.siteAt p).callers.getD e {}) ∧
    (16 ≤ ((d.siteAt p).callers.getD e {}).granted → c.granted = 0 ∧ c.claimed = List.replicate 8 0 ∧
      c.floor2 = d.rd R.SET_ENGINE_CFG_floor2 p (4 * e) ∧ c.priority = d.rd R.SET_ENGINE_CFG_priority p (4 * e)) ∧
    (d.atNext p t 0 → (d.thread p t).issuedData = false → ∃ s', exec (.seq p t) s = .next s' ∧
      let c' := (s'.dev.siteAt p).callers.getD e {}
      c'.granted = c.granted + 1 ∧ c'.last = t % 8 ∧ c'.floor2 = c.floor2 ∧ c'.priority = c.priority ∧
      (c.claimed.length = 8 → ∀ k, k < 8 → c'.claimed.getD k 0 = c.claimed.getD k 0 + (if k = t % 8 then 1 else 0)))

/-- R248, R249: what each next-address operation makes of pc and stack; a call at depth 8 and a return at depth 0 are faults. R240, R255: a pass
begins on the oldest item of the input queue at its entry, with registers and flags zero; END sends the item to the retire stage, in the
template that its pass read (R204), and the thread is idle again; END with a channel held is a fault. -/
def Obligations.ControlFlow : Prop :=
  (∀ (p t : Nat) (s : State), s.dev.phase = .running → p < 34 →
     let w := s.dev.word p t
     let th := s.dev.thread p t
     let c := s.dev.condTest p th w
     (s.dev.atNext p t 0 → ∃ s', exec (.seq p t) s = .next s' ∧ threadBecomes p t (th.goesTo w (th.pc + 1)) s s' ∧ issues p t s s' ∧
       ((s.dev.thread p t).issuedData = false → issuedOne p s s')) ∧
     (s.dev.atNext p t 1 → ∃ s', exec (.jump p t) s = .next s' ∧ threadBecomes p t (th.goesTo w (mwImm w % 16384)) s s' ∧ issues p t s s' ∧
       ((s.dev.thread p t).issuedData = false → issuedOne p s s')) ∧
     (s.dev.atNext p t 2 → ∃ s', exec (.branch p t) s = .next s' ∧ issues p t s s' ∧
       threadBecomes p t (th.goesTo w (if c then mwImm w % 16384 else th.pc + 1)) s s') ∧
     (s.dev.atNext p t 3 → th.stack.length < 8 → ∃ s', exec (.call p t) s = .next s' ∧ issues p t s s' ∧
       threadBecomes p t ({ th with stack := (th.pc + 1) % 16384 :: th.stack : Thread }.goesTo w (mwImm w % 16384)) s s') ∧
     (s.dev.atNext p t 4 → th.stack.length < 8 → ∃ s', exec (.callIf p t) s = .next s' ∧ issues p t s s' ∧
       threadBecomes p t (if c then { th with stack := (th.pc + 1) % 16384 :: th.stack : Thread }.goesTo w (mwImm w % 16384)
         else th.goesTo w (th.pc + 1)) s s') ∧
     (∀ a l, s.dev.atNext p t 5 → th.stack = a :: l → ∃ s', exec (.popReturn p t) s = .next s' ∧ issues p t s s' ∧
       threadBecomes p t ({ th with stack := l : Thread }.goesTo w a) s s') ∧
     (∀ a l, s.dev.atNext p t 6 → th.stack = a :: l → ∃ s', exec (.popReturnIf p t) s = .next s' ∧ issues p t s s' ∧
       threadBecomes p t (if c then { th with stack := l : Thread }.goesTo w a else th.goesTo w (th.pc + 1)) s s') ∧
     (s.dev.atNext p t 8 → ∃ s', exec (.table p t) s = .next s' ∧ issues p t s s' ∧
       threadBecomes p t (th.goesTo w (mwImm w % 16384 / 16 * 16 + (th.reg (mwCond w / 8 % 16)).toNat % 16)) s s') ∧
     (∀ i it, s.dev.atNext p t 3 → 8 ≤ th.stack.length → th.item = some i → s.dev.item? i = some it → it.failed = none → it.stage = .running →
       ∃ s', exec (.call p t) s = .next s' ∧ faulted p t i s s') ∧
     (∀ i it, s.dev.atNext p t 5 → th.stack = [] → th.item = some i → s.dev.item? i = some it → it.failed = none → it.stage = .running →
       ∃ s', exec (.popReturn p t) s = .next s' ∧ faulted p t i s s') ∧
     (∀ i it, s.dev.atNext p t 10 → th.item = some i → s.dev.item? i = some it → it.failed = none → it.stage = .running →
       ∃ s', exec (.trap p t) s = .next s' ∧ faulted p t i s s')) ∧
  (∀ (p t i : Nat) (it : Item) (s : State), s.dev.phase = .running → s.dev.item? i = some it →
     (∀ l, (s.dev.siteAt p).input = i :: l → (s.dev.thread p t).state = .idle → t < 128 → s.dev.setRuns p = true →
       ∃ s', exec (.threadStartPass p t) s = .next s' ∧ (s'.dev.siteAt p).input = l ∧
         s'.dev.thread p t = { state := .ready, item := some i, pc := it.verdict.entry % 16384, delivering := (s.dev.thread p t).delivering } ∧
         s'.dev.item? i = some { it with stage := .running } ∧ s'.dev.regs = s.dev.regs) ∧
     (p < 34 → s.dev.atNext p t 9 → (s.dev.thread p t).item = some i → (s.dev.thread p t).sendChan = none → (s.dev.thread p t).readChan = none →
       ∃ s', exec (.passEnd p t) s = .next s' ∧ s'.dev.thread p t = { delivering := (s.dev.thread p t).delivering } ∧
         s'.dev.item? i = some { it with
           stage := .retiring
           template := if it.template.isSome then it.template else it.templateOf.map (s.dev.directEntry templateTable) } ∧
         s'.dev.rd64 R.SET_PASSES_LO_passes R.SET_PASSES_HI_passes p =
           (s.dev.rd64 R.SET_PASSES_LO_passes R.SET_PASSES_HI_passes p + 1) % 2 ^ 64) ∧
     (p < 34 → s.dev.atNext p t 9 → (s.dev.thread p t).item = some i → it.failed = none → it.stage = .running →
       ((s.dev.thread p t).sendChan.isSome ∨ (s.dev.thread p t).readChan.isSome) →
       ∃ s', exec (.passEnd p t) s = .next s' ∧ faulted p t i s s'))

/-- R251-R253: WAIT on a condition that holds goes on at once; else the thread waits at its pc, as a delay does in any case; a wait on a channel
gives the thread its send side, or its read side with the oldest message; the limit ends it as timed out. The standstill of R261 breaks the
wait that began first. R250 classes 7 and 8: flags of the thread and of the Set; retire commits wait with the item, at most eight; a ninth
is a fault. -/
def Obligations.WaitsAndCommits : Prop :=
  (∀ (p t : Nat) (s : State), s.dev.phase = .running → p < 34 →
     let w := s.dev.word p t
     let th := s.dev.thread p t
     let limit := s.dev.rd ([R.SET_WAIT_LIMIT_0_limit, R.SET_WAIT_LIMIT_1_limit, R.SET_WAIT_LIMIT_2_limit, R.SET_WAIT_LIMIT_3_limit].getD
       (mwLimitSel w) R.SET_WAIT_LIMIT_0_limit) p
     let goes : Thread := { th.goesTo w (th.pc + 1) with timedOut := false, broken := false }
     let onChan := mwInvert w = false ∧ (mwCond w = 0x20 ∨ mwCond w = 0x21)
     let c := mwChannel w
     let ch := s.dev.setChan p c
     let opens := ch.open_ = none ∧ ch.delivery = [] ∧ th.delivering = none ∧ th.sendChan = none
     (s.dev.atNext p t 7 →
       (¬ onChan → mwCond w ≠ 0 → s.dev.condTest p th w = true → ∃ s', exec (.wait p t) s = .next s' ∧
         s'.dev.regs = (s.dev.tokenFor p t).regs ∧ threadBecomes p t goes (waitCounted p s) s') ∧
       (mwInvert w = false → mwCond w = 0x21 → opens → ∃ s', exec (.wait p t) s = .next s' ∧
         s'.dev.thread p t = { goes with sendChan := some c } ∧ (s'.dev.setChan p c).open_ = some t) ∧
       (∀ m l, mwInvert w = false → mwCond w = 0x20 → th.readChan = none → ch.closed = m :: l → ∃ s', exec (.wait p t) s = .next s' ∧
         s'.dev.thread p t = { goes with readChan := some (c, m) } ∧ (s'.dev.setChan p c).closed = l) ∧
       ((¬ onChan ∧ s.dev.condTest p th w = false) ∨ mwCond w = 0 ∨ (mwInvert w = false ∧ mwCond w = 0x21 ∧ ¬ opens) ∨
           (mwInvert w = false ∧ mwCond w = 0x20 ∧ th.readChan = none ∧ ch.closed = []) → ∃ s', exec (.wait p t) s = .next s' ∧ (s'.dev.thread p t).state = .waiting ∧
         (s'.dev.thread p t).pc = th.pc ∧ (s'.dev.thread p t).regs = th.regs ∧
         (s'.dev.thread p t).wait = some { cond := mwCond w, invert := mwInvert w, channel := mwChannel w, limit := limit
                                           began := (s.dev.siteAt p).waits, yield := mwYield w })) ∧
     (∀ x, th.wait = some x → th.state = .waiting → th.kill = false → x.limit ≠ 0 → s.dev.waitDone p th x = false → s.dev.waiters p = [t] →
       (∃ s', exec (.waitLimitExpiry p t) s = .next s' ∧ (s'.dev.thread p t).wait = none ∧ (s'.dev.thread p t).timedOut = true ∧
         (s'.dev.thread p t).pc = (th.pc + 1) % 16384 ∧ (s'.dev.thread p t).state = .ready ∧
         s'.dev.rd R.SET_WAIT_TIMEOUTS_count p = (s.dev.rd R.SET_WAIT_TIMEOUTS_count p + 1) % 2 ^ R.SET_WAIT_TIMEOUTS_count.width) ∧
       (s.dev.atStandstill p = true → ∃ s', exec (.standstill p) s = .next s' ∧ (s'.dev.thread p t).wait = none ∧
         (s'.dev.thread p t).broken = true ∧ (s'.dev.thread p t).timedOut = false ∧ (s'.dev.thread p t).pc = (th.pc + 1) % 16384 ∧
         s'.dev.on (setCauses.bit 4) p = true ∧ (t < 128 → s'.dev.rd R.SET_LAST_STANDSTILL_thread p = t)))) ∧
  (∀ (p t : Nat) (s : State), s.dev.phase = .running →
     let th := s.dev.thread p t
     let n := mwExt (s.dev.word p t) % 32
     (s.dev.atData p t 7 0 → n < 8 → ∃ s' u, exec (.flagSet p t) s = .next s' ∧ issues p t s s' ∧
       threadBecomes p t { th with issuedData := true, uf := u } s s' ∧ ∀ b, b < 8 → hasBit u b = (b == n || hasBit th.uf b)) ∧
     (s.dev.atData p t 7 1 → n < 8 → ∃ s' u, exec (.flagClear p t) s = .next s' ∧ issues p t s s' ∧
       threadBecomes p t { th with issuedData := true, uf := u } s s' ∧ ∀ b, b < 8 → hasBit u b = (b != n && hasBit th.uf b)) ∧
     (s.dev.atData p t 7 0 → 16 ≤ n → ∃ s', exec (.flagSet p t) s = .next s' ∧ issues p t s s' ∧
       ∀ b, b < 16 → hasBit (s'.dev.siteAt p).flags b = (b == n - 16 || hasBit (s.dev.siteAt p).flags b)) ∧
     (∀ i it, th.item = some i → s.dev.item? i = some it → it.commits.length < 8 →
       (∀ cell n, s.dev.atData p t 8 0 → ∃ s', exec (.counterAdd p t cell n) s = .next s' ∧
         s'.dev.item? i = some { it with commits := it.commits ++ [.counter cell n] } ∧ threadBecomes p t (th.asked 13 0 0 false) s s' ∧
         s'.dev.counters = s.dev.counters) ∧
       (∀ cell v, s.dev.atData p t 8 1 → ∃ s', exec (.stateWrite p t cell v) s = .next s' ∧
         s'.dev.item? i = some { it with commits := it.commits ++ [.state cell v] } ∧ threadBecomes p t (th.asked 13 0 0 false) s s' ∧
         s'.dev.cells = s.dev.cells) ∧
       (∀ kind ctx, s.dev.atData p t 8 2 → ∃ s', exec (.sequenceBearingRequest p t kind ctx) s = .next s' ∧
         s'.dev.item? i = some { it with commits := it.commits ++ [.number kind ctx] } ∧ threadBecomes p t (th.asked 13 0 0 false) s s')) ∧
     (∀ i it, p < 34 → th.item = some i → s.dev.item? i = some it → 8 ≤ it.commits.length → it.failed = none → it.stage = .running →
       (∀ cell n, s.dev.atData p t 8 0 → ∃ s', exec (.counterAdd p t cell n) s = .next s' ∧ faulted p t i s s') ∧
       (∀ cell v, s.dev.atData p t 8 1 → ∃ s', exec (.stateWrite p t cell v) s = .next s' ∧ faulted p t i s s') ∧
       (∀ kind ctx, s.dev.atData p t 8 2 → ∃ s', exec (.sequenceBearingRequest p t kind ctx) s = .next s' ∧ faulted p t i s s')))

/-- R250 class 3: loads, stores and the atomic operations on local SRAM; a store changes the eight bytes that it addresses and no other. R250
class 4: reads of the head, the parse record and the Ledger entry write dst; a read of the packet buffer is answered later; an edit joins
the item's. -/
def Obligations.LocalMemoryAndItems : Prop :=
  (∀ (p t : Nat) (s : State), s.dev.phase = .running →
     let w := s.dev.word p t
     let th := s.dev.thread p t
     let a := mwAddress w th
     let old := (s.dev.siteAt p).load8 a
     let wrote (r : Word64) : Thread := { th with issuedData := true, regs := th.regs.set (mwDst w) r }
     let stored (v : Word64) (s' : State) : Prop := (s'.dev.siteAt p).load8 a = v ∧ (∀ b, b < a ∨ a + 8 ≤ b → (s'.dev.siteAt p).byte b = (s.dev.siteAt p).byte b)
     a < 0x1C0000 →
     (s.dev.atData p t 3 0 → ∃ s', exec (.load8b p t) s = .next s' ∧ issues p t s s' ∧ threadBecomes p t (wrote old) s s') ∧
     (s.dev.atData p t 3 1 → ∃ s', exec (.store8b p t) s = .next s' ∧ issues p t s s' ∧ stored (opB w th) s' ∧
       s'.dev.thread p t = { th with issuedData := true }) ∧
     (s.dev.atData p t 3 2 → ∃ s', exec (.atomicAdd p t) s = .next s' ∧ issues p t s s' ∧ stored (old + opB w th) s' ∧
       s'.dev.thread p t = wrote old) ∧
     (s.dev.atData p t 3 3 → ∃ s', exec (.compareAndSwap p t) s = .next s' ∧ issues p t s s' ∧ s'.dev.thread p t = wrote old ∧
       stored (if old = th.reg (mwDst w) then opB w th else old) s')) ∧
  (∀ (p t i : Nat) (it : Item) (s : State), s.dev.phase = .running → (s.dev.thread p t).item = some i → s.dev.item? i = some it →
     let w := s.dev.word p t
     let th := s.dev.thread p t
     let a := mwAddress w th
     let wrote (r : Nat) : Thread := { th with issuedData := true, regs := th.regs.set (mwDst w) (BitVec.ofNat 64 r) }
     (s.dev.atData p t 4 0 → ∃ s', exec (.readHead p t) s = .next s' ∧ issues p t s s' ∧
       threadBecomes p t (wrote (leAt (it.bytes.take 256) a 8)) s s') ∧
     (s.dev.atData p t 4 1 → ∃ s', exec (.readParseRecord p t) s = .next s' ∧ issues p t s s' ∧
       threadBecomes p t (wrote (leAt (it.parse.words.flatMap (fun x => leBytes x 4)) a 8)) s s') ∧
     (s.dev.atData p t 4 2 → ∃ s', exec (.readPacketBuffer p t) s = .next s' ∧ issues p t s s' ∧
       threadBecomes p t (th.asked 12 (mwDst w) (BitVec.ofNat 64 (leAt it.bytes a 8)) true) s s') ∧
     (∀ e, s.dev.atData p t 4 3 → ∃ s', exec (.appendEdit p t e) s = .next s' ∧ threadBecomes p t { th with issuedData := true } s s' ∧
       s'.dev.item? i = some (s.dev.edited it e) ∧ s'.dev.regs = (s.dev.tokenFor p t).regs) ∧
     (s.dev.atData p t 4 4 → ∃ s', exec (.readLedgerFields p t) s = .next s' ∧ issues p t s s' ∧
       threadBecomes p t (wrote (leAt (s.dev.ledgerBytes i it) a 8)) s s' ∧
       leAt (s.dev.ledgerBytes i it) 0 6 = it.seq % 2 ^ 48))

/-- R250 class 5: each assist is a pending request of its kind, with its effect on the item; a drop request for a received frame is a fault.
What a checksum sums, and what a lookup without a hit answers, is not stated (notes/assumptions/3.md, 87.md). R180, R192: the classify
assist puts the record and the verdict of stages 3 to 6 on the item; a frame that fails its function's source check will complete with
status 0x07, counted as a spoof drop; one whose record names a receive ring becomes a switched item. -/
def Obligations.Assists : Prop :=
  (∀ (p t i : Nat) (it : Item) (s : State), s.dev.phase = .running → (s.dev.thread p t).item = some i → s.dev.item? i = some it →
     let w := s.dev.word p t
     let th := s.dev.thread p t
     let k := mwDst w
     let d := s.dev.issued p t
     (s.dev.atData p t 5 0 → it.kind ≠ 1 → it.nvme = none → it.readIssued = false → (s.dev.fn it.fn).gen = it.gen →
       (s.dev.canIssue it.fn = false → ∃ s', exec (.payloadRead p t) s = .next s' ∧ threadBecomes p t (th.asked 0 k 0 false) s s' ∧
         s'.dev.item? i = some { it with stalled := true } ∧
         ∀ g, s.dev.ring? it.source = some g → g.state = .enabled → (s'.dev.ring? it.source).map Ring.state = some .stalled) ∧
       (s.dev.canIssue it.fn = true → ∃ s' x, exec (.payloadRead p t) s = .next s' ∧ s'.dev.item? i = some x ∧
         x.readIssued = true ∧ x.stalled = false)) ∧
     (s.dev.atData p t 5 0 → it.kind = 1 → it.position = p → p < 34 → ∃ s', exec (.payloadRead p t) s = .next s' ∧
       (s'.dev.thread p t).assists = th.assists.filter (fun a => a.kind != 0) ∧ s'.dev.items = s.dev.items) ∧
     (s.dev.atData p t 5 1 → it.isTx = true → ∃ s', exec (.parse p t) s = .next s' ∧ threadBecomes p t (th.asked 1 k 0 false) s s' ∧
       s'.dev.item? i = some { it with parse := { parse s.dev.parseCfg it.bytes with source := it.source, fromRing := true } }) ∧
     (∀ table key, s.dev.atData p t 5 3 →
       (∀ e, table < 16 → s.dev.tabKind table ≠ 2 → (d.lookup table it.figure key).1 = some e → ∃ s', exec (.lookup p t table key) s = .next s' ∧
         threadBecomes p t (th.asked 3 k (BitVec.ofNat 64 (leAt (padTo 16 e.result) 0 8)) true) s s' ∧ s'.dev.items = s.dev.items) ∧
       (table < 16 → s.dev.tabKind table = 2 → leAt key 0 4 < s.dev.tabSize table → ∃ s', exec (.lookup p t table key) s = .next s' ∧
         threadBecomes p t (th.asked 3 k (BitVec.ofNat 64 (leAt (s.dev.directEntry table (leAt key 0 4)) 0 8)) true) s s' ∧
         s'.dev.items = s.dev.items) ∧
       (∀ v, table = 16 → s.dev.longestPrefix (byteAt key 0 % 16) (key.drop 1) = some v → ∃ s', exec (.lookup p t table key) s = .next s' ∧
         threadBecomes p t (th.asked 3 k (BitVec.ofNat 64 (v % 2 ^ 32)) true) s s' ∧ issues p t s s') ∧
       (∀ b, table = 17 → s.dev.ternaryHit key = some b → ∃ s', exec (.lookup p t table key) s = .next s' ∧
         threadBecomes p t (th.asked 3 k (BitVec.ofNat 64 (leAt b 0 8)) true) s s' ∧ issues p t s s') ∧
       ((d.assistLookup table it.figure key).1 = none → ∃ s' v, exec (.lookup p t table key) s = .next s' ∧
         threadBecomes p t (th.asked 3 k v true) s s' ∧ s'.dev.items = s.dev.items)) ∧
     (∀ off len, s.dev.atData p t 5 4 → ∃ s' v, exec (.checksum p t off len) s = .next s' ∧ threadBecomes p t (th.asked 4 k v true) s s' ∧
       issues p t s s') ∧
     (s.dev.atData p t 5 5 →
       let h := s.dev.hashOf (if it.kind = 1 then 0 else 1) it.parse it.bytes
       ∃ s', exec (.hash p t) s = .next s' ∧ threadBecomes p t (th.asked 5 k (BitVec.ofNat 64 h) true) s s' ∧
         s'.dev.item? i = some (if it.isTx then { it with parse := { it.parse with hash := h } } else it)) ∧
     (∀ e, s.dev.atData p t 5 6 → ∃ s', exec (.headerRewrite p t e) s = .next s' ∧ threadBecomes p t (th.asked 6 k 0 false) s s' ∧
       s'.dev.item? i = some (s.dev.edited it e)) ∧
     (s.dev.atData p t 5 7 → it.conn = none →
       (∀ m, it.isTx = true → m < 256 → ∃ s', exec (.setDestination p t (.mac m)) s = .next s' ∧ threadBecomes p t (th.asked 7 k 0 false) s s' ∧
         s'.dev.item? i = some { it with dest := some (.mac m), kind := 0, switched := false }) ∧
       (∀ r, it.isTx = true → s.dev.isRxRing r = true → ∃ s', exec (.setDestination p t (.ring r)) s = .next s' ∧
         threadBecomes p t (th.asked 7 k 0 false) s s' ∧ s'.dev.item? i = some { it with dest := some (.ring r), kind := 3, switched := true }) ∧
       (∀ r g, it.kind = 1 → s.dev.ring? r = some g → g.kind = 1 → ∃ s' x, exec (.setDestination p t (.ring r)) s = .next s' ∧
         threadBecomes p t (th.asked 7 k 0 false) s s' ∧ s'.dev.item? i = some x ∧ x.dest = some (.ring r) ∧ x.fn = g.fn) ∧
       (∀ m, it.kind = 1 → m < 256 → it.verdict.hairpin = true → ∃ s' x, exec (.setDestination p t (.mac m)) s = .next s' ∧
         threadBecomes p t (th.asked 7 k 0 false) s s' ∧ s'.dev.item? i = some x ∧ x.dest = some (.mac m) ∧ x.fn = it.fn) ∧
       (∀ m, it.kind = 1 → it.verdict.hairpin = false → ∃ s', exec (.setDestination p t (.mac m)) s = .next s' ∧
         threadBecomes p t (th.asked 7 k 0 false) s s' ∧ issues p t s s')) ∧
     (s.dev.atData p t 5 8 → it.kind ≠ 1 → ∃ s', exec (.dropRequest p t) s = .next s' ∧ threadBecomes p t (th.asked 8 k 0 false) s s' ∧
       s'.dev.item? i = some { it with status := 7 } ∧
       s'.dev.rd R.PPL_TX_ACTION_DROPS_count 1 = (s.dev.rd R.PPL_TX_ACTION_DROPS_count 1 + 1) % 2 ^ R.PPL_TX_ACTION_DROPS_count.width) ∧
     (s.dev.atData p t 5 8 → it.kind = 1 → p < 34 → it.failed = none → it.stage = .running →
       ∃ s', exec (.dropRequest p t) s = .next s' ∧ faulted p t i s s') ∧
     (∀ o, s.dev.atData p t 5 9 → it.verdict.learn = false → ∃ s', exec (.learnOffer p t o) s = .next s' ∧
       threadBecomes p t (th.asked 9 k 0 false) s s' ∧ issues p t s s') ∧
     (∀ o, s.dev.atData p t 5 9 → it.verdict.learn = true →
       let old := s.dev.mtb.offers.getD it.figure []
       let joins : LearnOffer := { vnid := o.vnid, mac := o.mac, source := if it.kind = 1 then it.source else it.fn, fromFunction := it.fromRing }
       (old.length < 1024 → ∃ s', exec (.learnOffer p t o) s = .next s' ∧ threadBecomes p t (th.asked 9 k 0 false) s s' ∧
         s'.dev.mtb.offers.getD it.figure [] = old ++ [joins]) ∧
       (1024 ≤ old.length → ∃ s', exec (.learnOffer p t o) s = .next s' ∧ threadBecomes p t (th.asked 9 k 0 false) s s' ∧
         s'.dev.mtb.offers = s.dev.mtb.offers ∧
         s'.dev.rd R.MTB_LEARN_DROPS_count = (s.dev.rd R.MTB_LEARN_DROPS_count + 1) % 2 ^ R.MTB_LEARN_DROPS_count.width)) ∧
     (s.dev.atData p t 5 10 → ∃ s', exec (.dmaAssist p t) s = .next s' ∧ threadBecomes p t (th.asked 10 k 0 false) s s' ∧ issues p t s s')) ∧
  (∀ (p t i : Nat) (it : Item) (s : State), s.dev.phase = .running → (s.dev.thread p t).item = some i → s.dev.item? i = some it →
     it.kind = 0 → s.dev.atData p t 5 2 →
     let x := { parse s.dev.parseCfg it.bytes with source := it.source, fromRing := true }
     let vid := s.dev.txVid { it with parse := x }
     let y := { x with vnid := vid, hash := s.dev.hashOf 1 { x with vnid := vid } it.bytes }
     let d := (s.dev.issued p t).onThread p t (fun th => th.asked 2 (mwDst (s.dev.word p t)) 0 false)
     ((d.sourceOk it vid).1 = false → ∃ s' z, exec (.classify p t) s = .next s' ∧ s'.dev.item? i = some z ∧ z.status = 7 ∧ z.parse = y ∧
       z.kind = 0 ∧ s'.dev.rd R.PPL_SPOOF_DROPS_count 1 = (s.dev.rd R.PPL_SPOOF_DROPS_count 1 + 1) % 2 ^ R.PPL_SPOOF_DROPS_count.width) ∧
     (it.fn < 16 → (s.dev.fn it.fn).sourceCheck = false → (d.sourceOk it vid).1 = true) ∧
     ((d.sourceOk it vid).1 = true → ∃ s' z, exec (.classify p t) s = .next s' ∧ s'.dev.item? i = some z ∧
       let r := ((d.sourceOk it vid).2.chooseAction it.figure 0 y it.bytes).1
       z.parse = r.1 ∧ z.verdict.action = r.2.action ∧ z.verdict.mark = r.2.mark ∧ (r.2.drop = true → z.status = 7 ∧ z.kind = 0) ∧
       (r.2.drop = false → r.2.ring = none → z.kind = 0 ∧ z.status = it.status) ∧
       (∀ n, r.2.drop = false → r.2.ring = some n → s.dev.isRxRing n = true → z.kind = 3 ∧ z.switched = true ∧ z.verdict.ring = some n)))

/-- R254-R256, class 6: words are staged under an open channel and go out as one message at the close, whose last word is tagged; a reader takes
them in order; a discard leaves nothing. A write beyond eight words or without a channel is a fault. R250, R398: an answer is taken by the
oldest request of its kind; the partner-channel send assist puts up to 64 bytes of local SRAM into a channel of the Set. -/
def Obligations.ChannelsAndAnswers : Prop :=
  (∀ (p t c : Nat) (s : State), s.dev.phase = .running → p < 34 →
     let w := s.dev.word p t
     let th := s.dev.thread p t
     (s.dev.atData p t 6 0 → th.sendChan = some c → th.stage.length < 8 → ∃ s', exec (.channelWrite p t) s = .next s' ∧ issues p t s s' ∧
       threadBecomes p t { th with issuedData := true, stage := th.stage ++ [opA w th] } s s') ∧
     (s.dev.atData p t 6 1 → th.sendChan = some c → th.stage ≠ [] → ∃ s', exec (.channelClose p t) s = .next s' ∧ issues p t s s' ∧
       s'.dev.thread p t = { th with issuedData := true, sendChan := none, stage := [], delivering := some c } ∧
       (s'.dev.setChan p c).open_ = none ∧ (s'.dev.setChan p c).closed = (s.dev.setChan p c).closed ++ [(s.dev.setChan p c).nextMsg] ∧
       (s'.dev.setChan p c).delivery.map ChanWord.word = th.stage ∧
       (s'.dev.setChan p c).delivery.map ChanWord.last = List.replicate (th.stage.length - 1) false ++ [true]) ∧
     (s.dev.atData p t 6 3 → th.sendChan = some c → ∃ s', exec (.channelDiscard p t) s = .next s' ∧ issues p t s s' ∧
       s'.dev.thread p t = { th with issuedData := true, sendChan := none, stage := [] } ∧ (s'.dev.setChan p c).open_ = none ∧
       (s'.dev.setChan p c).closed = (s.dev.setChan p c).closed) ∧
     (∀ m x l, s.dev.atData p t 6 2 → th.readChan = some (c, m) → (s.dev.setChan p c).fifo = x :: l → x.msg = m →
       ∃ s', exec (.channelRead p t) s = .next s' ∧ issues p t s s' ∧ (s'.dev.setChan p c).fifo = l ∧
         s'.dev.thread p t = { th with issuedData := true, regs := th.regs.set (mwDst w) x.word, zero := x.last
                                       readChan := if x.last then none else th.readChan }) ∧
     (s.dev.waiters p = [] → ∃ s', exec (.channelWordDelivery p c) s = .next s' ∧ onlySites s s' ∧
       (s'.dev.setChan p c).fifo = (s.dev.setChan p c).fifo ++ (s.dev.setChan p c).delivery.take (4 - (s.dev.setChan p c).fifo.length) ∧
       (s'.dev.setChan p c).delivery = (s.dev.setChan p c).delivery.drop (4 - (s.dev.setChan p c).fifo.length)) ∧
     (∀ i it, s.dev.atData p t 6 0 → (th.sendChan = none ∨ 8 ≤ th.stage.length) → th.item = some i → s.dev.item? i = some it → it.failed = none → it.stage = .running →
       ∃ s', exec (.channelWrite p t) s = .next s' ∧ faulted p t i s s')) ∧
  (∀ (p t : Nat) (s : State), s.dev.phase = .running → p < 34 →
     let th := s.dev.thread p t
     (∀ a l, th.assists = a :: l → a.kind ≠ 0 → s.dev.waiters p = [] → ∃ s', exec (.assistAnswer p t a.kind) s = .next s' ∧ onlySites s s' ∧
       threadBecomes p t { th with assists := l, regs := if a.writes then th.regs.set a.dst a.answer else th.regs } s s') ∧
     (∀ c r, s.dev.atData p t 5 11 →
       let len := mwExt (s.dev.word p t) / 1024 % 128
       s.dev.setChannel (0x100 + p) (mwExt (s.dev.word p t) % 1024) = some c → s.dev.binding c = some (0x100 + p, r) → 1 ≤ r → r ≤ 8 →
       c < 18432 → 1 ≤ len → len ≤ 64 → (s.dev.chan c).held = none →
       ∃ s' m, exec (.partnerChannelSend p t) s = .next s' ∧ (s'.dev.chan c).held = some m ∧ m.len = len ∧ m.redelivered = false ∧
         m.seq = (s.dev.rd R.MBX_TX_STATUS_seq 0 (256 * c) + 1) % 65536 ∧ s'.dev.rd R.MBX_TX_STATUS_full 0 (256 * c) = 1 ∧
         s'.dev.thread p t = th.asked 11 (mwDst (s.dev.word p t)) 0 false))

/-- R262: the debugger stops a thread at its next yield point, or at once in a wait that yields; it resumes, steps and kills it. R264, R265: the
control store of a position is read at any time and written only while its site is out of service and the check byte is right; both step the
address, modulo 16,384. A single error that a fetch meets is corrected, written back and counted. -/
def Obligations.DebuggerAndControlStore : Prop :=
  (∀ (p t : Nat) (s : State), s.dev.phase = .running → p < 34 →
     let th := s.dev.thread p t
     (th.state = .ready → ∃ s', exec (.dbgStop p t) s = .next s' ∧ onlySites s s' ∧ threadBecomes p t { th with state := .stopPending } s s') ∧
     (∀ x, th.state = .waiting → th.wait = some x → x.yield = true → th.kill = false → ∃ s', exec (.dbgStop p t) s = .next s' ∧
       (s'.dev.thread p t).state = .stopped ∧ (s'.dev.thread p t).wait = some x ∧ s'.dev.on (setCauses.bit 6) p = true) ∧
     (∀ x, th.state = .waiting → th.wait = some x → x.yield = false → ∃ s', exec (.dbgStop p t) s = .next s' ∧ onlySites s s' ∧
       threadBecomes p t { th with state := .stopPending } s s') ∧
     (th.state = .stopped → th.wait = none → s.dev.waiters p = [] →
       (∃ s', exec (.dbgResume p t) s = .next s' ∧ onlySites s s' ∧ threadBecomes p t { th with state := if th.item.isSome then .ready else .idle } s s') ∧
       (∃ s', exec (.dbgStep p t) s = .next s' ∧ onlySites s s' ∧ threadBecomes p t { th with state := if th.item.isSome then .stopPending else .idle } s s') ∧
       (∀ i it, th.item = some i → s.dev.item? i = some it → it.failed = none → it.stage = .running →
         ∃ s', exec (.dbgKill p t) s = .next s' ∧ faulted p t i s s')) ∧
     (th.state = .ready → th.item.isSome = true → th.wait = none →
       ∃ s', exec (.dbgKill p t) s = .next s' ∧ onlySites s s' ∧ threadBecomes p t { th with kill := true } s s')) ∧
  (∀ (p : Nat) (s : State), s.dev.phase = .running → p < 34 →
     let a := s.dev.rd R.SET_CS_ADDR_addr p
     (∃ s', exec (.csRead p) s = .next s' ∧ s'.dev.rd R.SET_CS_ADDR_addr p = (a + 1) % 16384 ∧ s'.dev.sites = s.dev.sites ∧
       ∀ n, n < 4 → s'.dev.rd R.SET_CS_DATA_data p (4 * n) = ((s.dev.siteAt p).store.getD a 0).toNat / 2 ^ (32 * n) % 2 ^ 32) ∧
     (s.dev.csWritable p = false → exec (.csWrite p) s = .next s) ∧
     (s.dev.csWritable p = true → checkOk (s.dev.csData p) = true → ∃ s', exec (.csWrite p) s = .next s' ∧
       (s'.dev.siteAt p).store.getD a 0 = s.dev.csData p ∧ (∀ b, b ≠ a → (s'.dev.siteAt p).store.getD b 0 = (s.dev.siteAt p).store.getD b 0) ∧
       s'.dev.rd R.SET_CS_ADDR_addr p = (a + 1) % 16384) ∧
     (s.dev.csWritable p = true → checkOk (s.dev.csData p) = false → ∃ s', exec (.csWrite p) s = .next s' ∧ s'.dev.sites = s.dev.sites ∧
       s'.dev.on (setCauses.bit 7) p = true) ∧
     (∀ t w, t < 128 → (s.dev.thread p t).state = .ready → (s.dev.thread p t).item.isSome = true → (s.dev.thread p t).wait = none →
       (s.dev.thread p t).issuedData = false → s.dev.named p t = true → fetchWord (s.dev.word p t) = some (w, true) →
       ∃ s', exec (.seq p t) s = .next s' ∧ (s'.dev.siteAt p).store.getD (s.dev.thread p t).pc 0 = w ∧
         s'.dev.rd R.SET_CS_CORRECTED_count p = (s.dev.rd R.SET_CS_CORRECTED_count p + 1) % 2 ^ R.SET_CS_CORRECTED_count.width))

/-- R222: what the commands on an exact-match table do and post: read, write, insert, delete, search and age query. A write, insert or delete
has changed the table by its end, at the latest, if nothing else touched its buckets (notes/assumptions/86.md); an insertion that finds no
place ends with result 3 and asks for a rehash (R218). -/
def Obligations.ExactMatchCommands : Prop :=
  ∀ (mid p : Nat) (c : MtbCmd) (s : State), s.dev.phase = .running → s.dev.portTakes mid p → s.dev.tableTakes c.table 1 →
    let e := s.dev.windowEntry p c.table
    let now := s.dev.findKey c.table e.scope e.key
    let tab := s.dev.cuckoo c.table
    let i := s.dev.argIndex p
    let g := s.dev.newGen c.table
    (i < s.dev.tabSize c.table → ∃ s', exec (.mtbRead mid p c) s = .next s' ∧ sameTable c.table s s' ∧
      portRuns p { table := c.table, irq := c.irq, window := some (tab.slotBytes (4 * i + s.dev.argSlot p)) } s') ∧
    (s.dev.engineBusy = false →
      (∀ k, e.valid = true → now = none → tab.freeSlot [] (s.dev.buckets c.table g e.scope e.key).2.1 = some k →
        (∃ t, portEnds p (.mtbInsert mid p c) s t ∧ portPosted p 0 (some (k, false)) g t ∧
          (t.dev.cuckoo c.table).slot k = { e with gen := g, table := c.table } ∧
          ∀ j, j ≠ k → (t.dev.cuckoo c.table).slot j = tab.slot j) ∧
        (∃ t, portEnds p (.mtbWrite mid p c) s t ∧ portPosted p 0 (some (k, false)) g t ∧
          (t.dev.cuckoo c.table).slot k = { e with gen := g, table := c.table } ∧
          ∀ j, j ≠ k → (t.dev.cuckoo c.table).slot j = tab.slot j)) ∧
      (now = none → s.dev.planNew c.table [] e = none →
        (∃ s', exec (.mtbInsert mid p c) s = .next s' ∧ sameTable c.table s s' ∧ s'.dev.on (mtbCauses.bit 0) = true ∧
          portRuns p { table := c.table, irq := c.irq, result := 3 } s' ∧ s'.dev.on R.MTB_REHASH_REQ_valid = true) ∧
        (∃ s', exec (.mtbWrite mid p c) s = .next s' ∧ sameTable c.table s s' ∧ portRuns p { table := c.table, irq := c.irq, result := 3 } s')) ∧
      (∀ k b1, now = some (k, b1) →
        (∃ s', exec (.mtbInsert mid p c) s = .next s' ∧ sameTable c.table s s' ∧ portRuns p { table := c.table, irq := c.irq, result := 2 } s') ∧
        (e.valid = true → ∃ t, portEnds p (.mtbWrite mid p c) s t ∧ portPosted p 0 (some (k, b1)) (tab.slot k).gen t ∧
          (t.dev.cuckoo c.table).slot k = { e with gen := (tab.slot k).gen, lastHit := (tab.slot k).lastHit, table := c.table } ∧
          ∀ j, j ≠ k → (t.dev.cuckoo c.table).slot j = tab.slot j) ∧
        (∃ t, portEnds p (.mtbDelete mid p c) s t ∧ portPosted p 0 (some (k, b1)) (tab.slot k).gen t ∧
          (t.dev.cuckoo c.table).slot k = {} ∧ ∀ j, j ≠ k → (t.dev.cuckoo c.table).slot j = tab.slot j)) ∧
      (now = none → ∃ s', exec (.mtbDelete mid p c) s = .next s' ∧ sameTable c.table s s' ∧
        portRuns p { table := c.table, irq := c.irq, result := 1 } s')) ∧
    (∀ k b1, now = some (k, b1) →
      (∃ s', exec (.mtbSearch mid p c) s = .next s' ∧ sameTable c.table s s' ∧
        portRuns p { table := c.table, irq := c.irq, place := some (k, b1), gen := (tab.slot k).gen, window := some (tab.slotBytes k) } s') ∧
      (∃ s', exec (.mtbAgeQuery mid p c) s = .next s' ∧ sameTable c.table s s' ∧
        portRuns p { table := c.table, irq := c.irq, place := some (k, b1), gen := (tab.slot k).gen, window := some (tab.slotBytes k)
                     age := some (s.dev.ageOf (tab.slot k)) } s')) ∧
    (now = none →
      (∃ s', exec (.mtbSearch mid p c) s = .next s' ∧ sameTable c.table s s' ∧ portRuns p { table := c.table, irq := c.irq, result := 1 } s') ∧
      (∃ s', exec (.mtbAgeQuery mid p c) s = .next s' ∧ sameTable c.table s s' ∧ portRuns p { table := c.table, irq := c.irq, result := 1 } s'))

/-- R222, R233, R234: staging, direct entries, prefixes and ternary entries. R221-R223: a command of a wrong master is counted; one on a busy
port sets overrun; the end of a command clears busy and posts its result. R217: a write whose buckets changed since its search is searched
again, and ends with result 9 when that happens a fourth time. -/
def Obligations.TableCommands : Prop :=
  (∀ (mid p : Nat) (c : MtbCmd) (s : State), s.dev.phase = .running → s.dev.portTakes mid p →
     let i := s.dev.argIndex p
     (c.stage < 3 → ∃ s', exec (.mtbStage mid p c) s = .next s' ∧ s'.dev.stage p c.stage = s.dev.window p ∧ portRuns p { irq := c.irq } s') ∧
     (s.dev.tableTakes c.table 2 → i < s.dev.tabSize c.table →
       (s.dev.tabWide c.table = false → ∃ s', exec (.mtbDirectWrite mid p c) s = .next s' ∧
         s'.dev.directEntry c.table i = s.dev.window p ∧ portRuns p { table := c.table, irq := c.irq } s') ∧
       (s.dev.tabWide c.table = true → ∃ s', exec (.mtbDirectWrite mid p c) s = .next s' ∧
         s'.dev.directEntry c.table i = s.dev.stage p 0 ++ s.dev.window p) ∧
       (s.dev.tabWide c.table = false → ∃ s', exec (.mtbDirectRead mid p c) s = .next s' ∧ s'.dev.mtb.direct = s.dev.mtb.direct ∧
         portRuns p { table := c.table, irq := c.irq, window := some (s.dev.directEntry c.table i) } s')) ∧
     (∀ x, prefixOf (s.dev.window p) = some x →
       (((s.dev.mtb.prefixes.filter (fun y => !x.same y)).map Prefix.units).sum + x.units ≤ 1048576 →
         ∃ s', exec (.prefixAdd mid p c) s = .next s' ∧ portRuns p { irq := c.irq } s' ∧ x ∈ s'.dev.mtb.prefixes ∧
           ∀ y, x.same y = false → (y ∈ s'.dev.mtb.prefixes ↔ y ∈ s.dev.mtb.prefixes)) ∧
       (s.dev.mtb.prefixes.any x.same = true → ∃ s', exec (.prefixDelete mid p c) s = .next s' ∧ portRuns p { irq := c.irq } s' ∧
         ∀ y, y ∈ s'.dev.mtb.prefixes ↔ y ∈ s.dev.mtb.prefixes ∧ x.same y = false) ∧
       (∀ y, s.dev.mtb.prefixes.find? x.same = some y → ∃ s', exec (.prefixSearch mid p c) s = .next s' ∧
         portRuns p { irq := c.irq, window := some (putBytes (s.dev.window p) 32 (leBytes y.result 4)) } s' ∧
         s'.dev.mtb.prefixes = s.dev.mtb.prefixes)) ∧
     (i < 16384 →
       (∃ s', exec (.ternaryWrite mid p c) s = .next s' ∧ portRuns p { irq := c.irq } s' ∧
         s'.dev.mtb.ternary.get? i = some (s.dev.stage p 0, s.dev.stage p 1, (s.dev.window p).take 16)) ∧
       (∀ v m r, s.dev.mtb.ternary.get? i = some (v, m, r) → ∃ s', exec (.ternaryRead mid p c) s = .next s' ∧
         portRuns p { irq := c.irq, window := some (padTo 64 r) } s' ∧ s'.dev.stage p 0 = v ∧ s'.dev.stage p 1 = m ∧
         s'.dev.mtb.ternary = s.dev.mtb.ternary))) ∧
  (∀ (mid p : Nat) (c : MtbCmd) (s : State), s.dev.phase = .running → p < 16 →
     (mid ≠ 0x1000 + p → ∃ s', exec (.mtbRead mid p c) s = .next s' ∧ s'.dev.mtb = s.dev.mtb ∧
       s'.dev.rd R.MTB_WRONG_PORT_count = (s.dev.rd R.MTB_WRONG_PORT_count + 1) % 2 ^ R.MTB_WRONG_PORT_count.width) ∧
     (mid = 0x1000 + p → s.dev.on R.MTB_CMD_STATUS_busy 0 (256 * p) = true → ∃ s', exec (.mtbRead mid p c) s = .next s' ∧
       s'.dev.mtb = s.dev.mtb ∧ s'.dev.rd R.MTB_CMD_STATUS_overrun 0 (256 * p) = 1) ∧
     (∀ r, s.dev.mtb.runs.get? p = some r → r.put = none → r.result < 16 → r.steps < 64 → ∃ s', exec (.mtbCommandDone p) s = .next s' ∧
       s'.dev.rd R.MTB_CMD_STATUS_busy 0 (256 * p) = 0 ∧ s'.dev.rd R.MTB_CMD_STATUS_result 0 (256 * p) = r.result ∧
       s'.dev.rd R.MTB_CMD_STATUS_steps 0 (256 * p) = r.steps ∧ s'.dev.mtb.runs.get? p = none ∧ s'.dev.mtb.tables = s.dev.mtb.tables ∧
       (∀ b, r.window = some b → b.length = 64 → s'.dev.window p = b) ∧
       (∀ k b1, r.place = some (k, b1) → s'.dev.rd R.MTB_CMD_WHERE_bucket 0 (256 * p) =
         k / 4 % 2 ^ R.MTB_CMD_WHERE_bucket.width ∧ s'.dev.rd R.MTB_CMD_WHERE_slot 0 (256 * p) = k % 4) ∧
       (r.irq = true → s'.dev.on (mtbCauses.bit 12) = true)) ∧
     (∀ r q pl, s.dev.mtb.runs.get? p = some r → r.put = some q → q.plan = some pl → s.dev.stillAsRead r.table pl.seen = false →
       (3 ≤ q.fails → ∃ s', exec (.mtbCommandDone p) s = .next s' ∧ portPosted p 9 none 0 s' ∧ s'.dev.mtb.tables = s.dev.mtb.tables) ∧
       (∀ new n, q.fails < 3 → s.dev.planPut r.table q.op q.entry = (some new, n) → ∃ s', exec (.mtbCommandDone p) s = .next s' ∧
         s'.dev.mtb.runs.get? p = some { table := r.table, irq := r.irq
                                         put := some { q with plan := some new, locked := false, fails := q.fails + 1 } } ∧
         s'.dev.regs = s.dev.regs ∧ s'.dev.mtb.tables = s.dev.mtb.tables)))

/-- R217, R225-R229: a learn unit makes an entry of an offer whose key is absent, in the Figure's scope, and replaces the source of a learned
one; static and pinned entries stay. On a locked bucket the offer waits, and is dropped at its fourth failed check. The age scanner erases
an entry past its table's age limit, and skips locked buckets. R219: a rehash starts at bucket 0 where none runs, moves the entries of one
bucket at a time to places under the new seeds, and ends with the generation turned. A stalled walk resumes. -/
def Obligations.LearningAndRehash : Prop :=
  (∀ s : State, s.dev.phase = .running →
     (∀ f o l, s.dev.mtb.offers.getD f [] = o :: l → s.dev.mtb.learning.get? f = none → s.dev.tabKind 0 = 1 →
       let key := destKey o.vnid o.mac
       (s.dev.lockedBuckets 0 = [] → ∃ s', exec (.learnOfferProcess f) s = .next s' ∧ s'.dev.mtb.offers.getD f [] = l ∧
         (∀ k, s.dev.findKey 0 f key = none → (s.dev.cuckoo 0).freeSlot [] (s.dev.buckets 0 (s.dev.newGen 0) f (padTo 32 key)).2.1 = some k →
           (s'.dev.cuckoo 0).slot k = { valid := true, learned := true, gen := s.dev.newGen 0, scope := f, lastHit := s.dev.stampNow
                                        key := padTo 32 key, result := s.dev.learnResult o } ∧
           ∀ j, j ≠ k → (s'.dev.cuckoo 0).slot j = (s.dev.cuckoo 0).slot j) ∧
         (∀ k b1, s.dev.findKey 0 f key = some (k, b1) →
           let e := (s.dev.cuckoo 0).slot k
           (∀ j, j ≠ k → (s'.dev.cuckoo 0).slot j = (s.dev.cuckoo 0).slot j) ∧
           (e.source ≠ (o.fromFunction, o.source) → e.static = true → (s'.dev.cuckoo 0).slot k = e ∧ s'.dev.on (mtbCauses.bit 11) = true ∧
             s'.dev.rd R.MTB_STATIC_CONFLICTS_count = (s.dev.rd R.MTB_STATIC_CONFLICTS_count + 1) % 2 ^ R.MTB_STATIC_CONFLICTS_count.width) ∧
           (e.source ≠ (o.fromFunction, o.source) → e.static = false → e.pinned = true → (s'.dev.cuckoo 0).slot k = e ∧
             s'.dev.rd R.MTB_FLAP_IGNORED_count = (s.dev.rd R.MTB_FLAP_IGNORED_count + 1) % 2 ^ R.MTB_FLAP_IGNORED_count.width) ∧
           (e.valid = true → e.source ≠ (o.fromFunction, o.source) → e.static = false → e.pinned = false → e.learned = true →
             ((s'.dev.cuckoo 0).slot k).result = putBytes (padTo 16 e.result) 8 (sliceBytes (s.dev.learnResult o) 8 4) ∧
             ((s'.dev.cuckoo 0).slot k).key = e.key ∧ ((s'.dev.cuckoo 0).slot k).scope = e.scope))) ∧
       (s.dev.meetsLock 0 (s.dev.learnBuckets f o) = true → ∃ s' w, exec (.learnOfferProcess f) s = .next s' ∧
         s'.dev.mtb.learning.get? f = some w ∧ w.offer = o ∧ sameTable 0 s s' ∧ s'.dev.regs = s.dev.regs)) ∧
     (∀ f w, s.dev.mtb.learning.get? f = some w → s.dev.meetsLock 0 (s.dev.learnBuckets f w.offer) = false →
       s.dev.stillAsRead 0 w.seen = false → 3 ≤ w.fails →
       ∃ s', exec (.learnOfferProcess f) s = .next s' ∧ s'.dev.mtb.learning.get? f = none ∧ sameTable 0 s s' ∧
         s'.dev.rd R.MTB_LEARN_DROPS_count = (s.dev.rd R.MTB_LEARN_DROPS_count + 1) % 2 ^ R.MTB_LEARN_DROPS_count.width) ∧
     (∀ t b n, s.dev.on R.MTB_AGE_CONFIG_scan_enable = true → s.dev.tabKind t = 1 → s.dev.on R.MTB_TABLE_CFG_aging 0 (32 * t) = true →
       b < s.dev.tabSize t → n < 4 →
       let e := (s.dev.cuckoo t).slot (4 * b + n)
       e.valid = true → e.static = false → e.pinned = false →
       (s.dev.meetsLock t [b] = false → s.dev.rd R.MTB_TABLE_AGE_age_limit 0 (32 * t) < s.dev.ageOf e →
         ∃ s', exec (.ageScanVisit t b n) s = .next s' ∧
           (s'.dev.cuckoo t).slot (4 * b + n) = {} ∧ s'.dev.rd R.MTB_AGED_count = (s.dev.rd R.MTB_AGED_count + 1) % 2 ^ R.MTB_AGED_count.width ∧
           ∀ j, j ≠ 4 * b + n → (s'.dev.cuckoo t).slot j = (s.dev.cuckoo t).slot j) ∧
       (s.dev.meetsLock t [b] = true → exec (.ageScanVisit t b n) s = .next s) ∧
       (s.dev.ageOf e ≤ s.dev.rd R.MTB_TABLE_AGE_age_limit 0 (32 * t) → s.dev.ageOf e < 2 ^ 31 → exec (.ageScanVisit t b n) s = .next s))) ∧
  (∀ (t : Nat) (s : State), s.dev.phase = .running → t < 16 → s.dev.tabKind t = 1 →
     (s.dev.on R.MTB_STATUS_rehash_active = false → ∃ s', exec (.rehashStart t) s = .next s' ∧ s'.dev.rehashing t = true ∧
       s'.dev.rd R.MTB_REHASH_POS_bucket = 0 ∧ s'.dev.rd R.MTB_STATUS_rehash_stalled = 0 ∧ s'.dev.mtb = s.dev.mtb) ∧
     (s.dev.rehashing t = true →
       (s.dev.on R.MTB_STATUS_rehash_stalled = true → ∃ s', exec (.rehashResume t) s = .next s' ∧ s'.dev.rd R.MTB_STATUS_rehash_stalled = 0 ∧
         s'.dev.mtb = s.dev.mtb) ∧
       (s.dev.on R.MTB_STATUS_rehash_stalled = false →
         let b := s.dev.rd R.MTB_REHASH_POS_bucket
         let tab := s.dev.cuckoo t
         ((∀ n, n < 4 → (tab.slot (4 * b + n)).valid = false) → ∃ s', exec (.rehashWalkBucket t) s = .next s' ∧ s'.dev.mtb = s.dev.mtb ∧
           (if b + 1 < s.dev.tabSize t then s'.dev.rd R.MTB_REHASH_POS_bucket = (b + 1) % 2 ^ R.MTB_REHASH_POS_bucket.width ∧ s'.dev.rehashing t = true
            else s'.dev.curGen t = (1 - s.dev.curGen t) % 2 ∧ s'.dev.on R.MTB_STATUS_rehash_active = false ∧ s'.dev.on (mtbCauses.bit 1) = true)) ∧
         (∀ k, s.dev.lockedBuckets t = [] → (tab.slot (4 * b)).valid = true → (tab.slot (4 * b)).gen = s.dev.curGen t →
           (∀ n, 1 ≤ n → n < 4 → (tab.slot (4 * b + n)).valid = false) →
           tab.freeSlot [4 * b] (s.dev.buckets t (1 - s.dev.curGen t) (tab.slot (4 * b)).scope (tab.slot (4 * b)).key).2.1 = some k →
           k / 4 ≠ b →
           ∃ s', exec (.rehashWalkBucket t) s = .next s' ∧ (s'.dev.cuckoo t).slot (4 * b) = {} ∧
             (s'.dev.cuckoo t).slot k = { tab.slot (4 * b) with gen := 1 - s.dev.curGen t, table := t }))))

/-- R230, R231: a compare pass reads the shadow region by region; a record that differs is checked again, and what then still differs goes to
the FIFO, which a read gives back oldest first. -/
def Obligations.BackgroundCompare : Prop :=
  ∀ (t mid : Nat) (data : List Byte) (s : State), s.dev.phase = .running →
    (s.dev.on R.MTB_STATUS_compare_active = false → s.dev.rd R.MTB_COMPARE_COUNT_records = 0 →
      ∃ s', exec (.compareStart t) s = .next s' ∧ s'.dev.on R.MTB_STATUS_compare_active = false ∧
        s'.dev.rd R.MTB_COMPARE_CTRL_table = t % 16 ∧ s'.dev.on R.MTB_COMPARE_CTRL_enable = true ∧
        s'.dev.rd R.MTB_COMPARE_STATUS_passes = (s.dev.rd R.MTB_COMPARE_STATUS_passes + 1) % 2 ^ R.MTB_COMPARE_STATUS_passes.width ∧
        s'.dev.on (mtbCauses.bit 6) = true ∧ s'.dev.mtb.compare.recheck = s.dev.mtb.compare.recheck) ∧
    (s.dev.on R.MTB_STATUS_compare_active = false → s.dev.mtb.compare.waits = true → s.dev.on R.MTB_COMPARE_CTRL_enable = true →
      s.dev.rd R.MTB_COMPARE_CTRL_table = t → t < 16 → 0 < s.dev.rd R.MTB_COMPARE_COUNT_records →
      s.dev.canIssue (s.dev.rd R.MTB_COMPARE_CTRL_compare_pf) = false →
      ∃ s', exec (.compareIntervalExpiry t) s = .next s' ∧ s'.dev.rd R.MTB_COMPARE_STATUS_host_error = 1 ∧
        s'.dev.on R.MTB_STATUS_compare_active = false ∧ s'.dev.mtb.compare.region = 0) ∧
    (s.dev.on R.MTB_STATUS_compare_active = true → s.dev.on R.MTB_COMPARE_CTRL_enable = false → s.dev.mtb.compare.region = 0 →
      1 ≤ s.dev.rd R.MTB_COMPARE_COUNT_records → s.dev.rd R.MTB_COMPARE_COUNT_records ≤ 64 →
      ∃ s', exec (.compareRegion t data) s = .next s' ∧ s'.dev.mtb.compare.region = 1 ∧
        ∀ k, k < s.dev.rd R.MTB_COMPARE_COUNT_records → s.dev.mtb.compare.recheck = [] →
          (k ∈ s'.dev.mtb.compare.recheck ↔ s.dev.compareRecord t (sliceBytes data (64 * k) 64) ≠ 0)) ∧
    (∀ n l, s.dev.mtb.compare.recheck = n :: l → s.dev.mtb.compare.fifo.length < 64 →
      ∃ s', exec (.compareRecheck t data) s = .next s' ∧ s'.dev.mtb.compare.recheck = l ∧
        s'.dev.mtb.compare.fifo = s.dev.mtb.compare.fifo ++
          (if s.dev.compareRecord t data = 0 then [] else [n + 2 ^ 24 * s.dev.compareRecord t data + 2 ^ 31]) ∧
        (s.dev.compareRecord t data ≠ 0 → s'.dev.on (mtbCauses.bit 5) = true)) ∧
    (∀ w l, s.dev.mtb.compare.fifo = w :: l → ∃ s', exec (.compareFifoRead mid) s = .next s' ∧ s'.dev.mtb.compare.fifo = l ∧
      s'.dev.out = s.dev.out ++ [.answer mid w]) ∧
    (s.dev.mtb.compare.fifo = [] → exec (.compareFifoRead mid) s = .next { s with dev := s.dev.emit (.answer mid 0) })

/-- R442, R443, R447: a correctable error is recorded, or joins its unit's record inside the window, and counted where its unit counts; an
uncorrectable one costs what it lay in: an item, a ring's context, a table entry, whose reader's command ends with result 7. The HBM patrol
counts its passes (R441). R446, R451-R453: an unanswered handshake is recorded against its unit; the silence of the Queue Manager, of the
Ledger or of the Promenade escalates: a service reset, or fault stop beyond esc_limit. The loss of an HBM stack is a fault stop. R337, R405,
R451: a mover that faults leaves the pool; a control core that faults leaves service, and where fewer than two remain the error escalates.
R448: the acknowledgement of a record frees its slot; one that names no record sets FLT cause 8. -/
def Obligations.ErrorsAndEscalation : Prop :=
  (∀ s : State, s.dev.phase = .running →
     (∀ p off th, p < 34 → s.dev.logsAnew →
       (∃ t, exec (.eccError (.setSram p off th) true) s = .next t ∧ recorded s t ∧ t.dev.on (setCauses.bit 3) p = true ∧
         t.dev.rd R.SET_SRAM_CORRECTED_count p = (s.dev.rd R.SET_SRAM_CORRECTED_count p + 1) % 2 ^ R.SET_SRAM_CORRECTED_count.width ∧
         t.dev.sites = s.dev.sites) ∧
       (∃ t, exec (.memoryScrub (.setSram p) [{ place := .setSram p off th, correctable := true }]) s = .next t ∧ recorded s t ∧
         t.dev.rd R.SET_SRAM_CORRECTED_count p = (s.dev.rd R.SET_SRAM_CORRECTED_count p + 1) % 2 ^ R.SET_SRAM_CORRECTED_count.width)) ∧
     (∀ p off th n, p < 34 → n < 256 → s.dev.heldSlots = [n] → s.dev.recSeverity n = 0 → s.dev.recCode n = 1 → s.dev.recCount n < 0xFFFF →
       s.dev.logWord n 2 = 0x41 + 65536 * p → s.dev.uptime - s.dev.logWord n 1 < s.dev.rd R.FLT_CONFIG_corr_window_ms →
       ∃ t, exec (.eccError (.setSram p off th) true) s = .next t ∧ t.dev.heldSlots = [n] ∧ t.dev.recCount n = s.dev.recCount n + 1 ∧
         t.dev.rd R.FLT_LAST_SEQ_seq = s.dev.rd R.FLT_LAST_SEQ_seq) ∧
     (∀ p off th, s.dev.hasSet p = true → ∃ t, exec (.eccError (.setSram p off th) false) s = .next t ∧ recorded s t) ∧
     (∃ t, exec (.memoryScrub .hbm []) s = .next t ∧ t.dev.on (fltCauses.bit 9) = true ∧
       t.dev.rd R.FLT_SCRUB_passes = (s.dev.rd R.FLT_SCRUB_passes + 1) % 2 ^ R.FLT_SCRUB_passes.width) ∧
     (∀ i it, s.dev.logsAnew → s.dev.item? i = some it → it.failed = none → it.stage ≠ .crypto → it.fromRing = true →
       ∃ t x, exec (.eccError (.ledger i true) false) s = .next t ∧ recorded s t ∧ t.dev.item? i = some x ∧ x.failed = some 2 ∧ x.status = 6 ∧
         x.stage = .retiring) ∧
     (∀ i port, s.dev.logsAnew → ∃ t, exec (.eccError (.ternaryEntry i port) false) s = .next t ∧ recorded s t ∧
       t.dev.mtb.ternary.get? i = none ∧ (∀ j, j ≠ i → t.dev.mtb.ternary.get? j = s.dev.mtb.ternary.get? j) ∧
       ∀ p r, port = some p → s.dev.mtb.runs.get? p = some r →
         t.dev.mtb.runs.get? p = some { table := r.table, irq := r.irq, result := 7 })) ∧
  (∀ s : State, s.dev.phase = .running →
     (∀ unit inst silent, vitalUnit silent 1 = false → unit ≠ 0x41 → unit ≠ 0x50 → unit ≠ 0xB0 →
       ∃ t, exec (.handshakeTimeout unit inst silent) s = .next t ∧ recorded s t ∧ t.dev.phase = .running ∧ t.dev.items = s.dev.items) ∧
     (∀ unit inst silent, vitalUnit silent 1 = true →
       ∃ t, exec (.handshakeTimeout unit inst silent) s = .next t ∧
         (if s.dev.rd R.FLT_CONFIG_esc_limit ≤ (s.dev.escalations.filter (fun x => s.dev.uptime - x < 3600000)).length
          then t.dev.phase = .faultStop else t.dev.phase = .serviceReset)) ∧
     (∀ stack, ∃ t, exec (.hbmStackLost stack) s = .next t ∧ t.dev.phase = .faultStop ∧ t.dev.rd R.FLT_STATUS_fault_stop = 1 ∧ t.dev.items = {})) ∧
  (∀ s : State, s.dev.phase = .running →
     (∀ m, m < 18 → 0 < s.dev.movers → s.dev.dma = {} → ∃ t, exec (.moverFault m) s = .next t ∧ t.dev.movers = s.dev.movers - 1 ∧ recorded s t) ∧
     (∀ k code, k < 8 → (s.dev.cores.getD k {}).out = false → 2 < s.dev.coresIn.length → s.dev.chans = {} →
       ∃ t, exec (.controlCoreFault k code) s = .next t ∧ (t.dev.cores.getD k {}).out = true ∧ recorded s t ∧ t.dev.phase = .running ∧
         ∀ j, j ≠ k → t.dev.cores.getD j {} = s.dev.cores.getD j {}) ∧
     (∀ seq n, s.dev.slotOfSeq seq = some n → ∃ t, exec (.faultAck seq) s = .next t ∧ t.dev.logHeld n = false ∧
       (∀ m, m < 256 → m ≠ n → t.dev.logHeld m = s.dev.logHeld m) ∧ t.dev.rd R.FLT_STATUS_held = t.dev.heldSlots.length % 2 ^ R.FLT_STATUS_held.width) ∧
     (∀ seq, s.dev.slotOfSeq seq = none → ∃ t, exec (.faultAck seq) s = .next t ∧ t.dev.on (fltCauses.bit 8) = true ∧ t.dev.heldSlots = s.dev.heldSlots))

/-- R297, R299: the work descriptor at the head of a send ring becomes an item, a malformed one completes with status 0x01 and sees no Set, and
a receive joins the posted buffers; an acknowledgement timer resends, or puts the QP into its error state when its tries are used up. R294:
a rate step. -/
def Obligations.WorkRequests : Prop :=
  ∀ (r q : Nat) (s : State), s.dev.phase = .running →
    (∀ c op g x l, (c, op) ∈ [(Instr.send r, 0), (.sendWithImmediate r, 1), (.rdmaWrite r, 2), (.rdmaWriteWithImmediate r, 3), (.rdmaRead r, 4),
        (.recv r, 5)] → s.dev.workStands r g x l op → s.dev.isRecvRing r = false →
      (s.dev.sendOk g.fn (workFields x.bytes) = true → ∃ t, exec c s = .next t ∧ t.dev.ring? r = some (g.taken l) ∧
        t.dev.item? s.dev.nextItem = some (s.dev.ringItem r g 2 [x]) ∧ t.dev.regs = s.dev.regs) ∧
      (s.dev.sendOk g.fn (workFields x.bytes) = false → ∃ t, exec c s = .next t ∧ t.dev.ring? r = some (g.taken l) ∧
        t.dev.item? s.dev.nextItem = some { s.dev.ringItem r g 2 [x] with stage := .retiring, direct := true, status := 1 })) ∧
    (∀ c op g x l, (c, op) ∈ [(Instr.send r, 0), (.sendWithImmediate r, 1), (.rdmaWrite r, 2), (.rdmaWriteWithImmediate r, 3), (.rdmaRead r, 4),
        (.recv r, 5)] → s.dev.workStands r g x l op → s.dev.isRecvRing r = true →
      ¬ ((workFields x.bytes).opcode = 5 ∧ (workFields x.bytes).reserved = false ∧ (workFields x.bytes).qpn = 0) →
      ∃ t, exec c s = .next t ∧ t.dev.ring? r = some (g.taken l) ∧
        t.dev.item? s.dev.nextItem = some { s.dev.ringItem r g 2 [x] with stage := .retiring, direct := true, status := 1 }) ∧
    (∀ g x l, s.dev.workStands r g x l 5 → s.dev.isRecvRing r = true → (workFields x.bytes).opcode = 5 →
      (workFields x.bytes).reserved = false → (workFields x.bytes).qpn = 0 → (∀ p ∈ s.dev.qpsOf r, s.dev.qpState p ≠ 4) →
      ∃ t, exec (.recv r) s = .next t ∧ t.dev.ring? r = some { g.taken l with buffers := g.buffers ++ [x] } ∧
        t.dev.items = s.dev.items ∧ t.dev.regs = s.dev.regs) ∧
    (s.dev.ctxType q = 8 → s.dev.qpState q = 3 → (s.dev.qp q).reqs ≠ [] →
      (s.dev.qpRetryCnt q < (s.dev.qp q).retries + 1 → ∃ t, exec (.roceAckTimeout q) s = .next t ∧ qpFailed q t) ∧
      ((s.dev.qp q).retries + 1 ≤ s.dev.qpRetryCnt q → ∃ t, exec (.roceAckTimeout q) s = .next t ∧
        (t.dev.qp q).retries = (s.dev.qp q).retries + 1 ∧ (t.dev.qp q).reqs.map QpReq.first = (s.dev.qp q).reqs.map QpReq.first)) ∧
    (s.dev.ctxType q = 8 → ∃ t, exec (.cnpRateStep q) s = .next t ∧
      t.dev.qp q = { s.dev.qp q with rate := min 65536 ((s.dev.qp q).rate + 1024) } ∧ ∀ p, p ≠ q → t.dev.qp p = s.dev.qp p) ∧
    (s.dev.connOpen q = true → (s.dev.conn q).kept ≠ [] → (s.dev.conn q).retries < s.dev.rd R.STO_TCP_CONFIG_max_retries →
      ∃ t, exec (.nvmeTcpRtoExpiry q) s = .next t ∧ (t.dev.conn q).retries = (s.dev.conn q).retries + 1 ∧
        (t.dev.conn q).cwnd = s.dev.connMss q ∧ (t.dev.conn q).kept = (s.dev.conn q).kept)

/-- R301, R302: what enabling and disabling a controller leaves, its tail doorbell, its admin commands with the status of their completion, and
its I/O commands, which become items. Property places, opcodes and status codes are the model's (notes/assumptions/24.md). -/
def Obligations.NvmeControllers : Prop :=
  ∀ (fn q : Nat) (s : State), s.dev.phase = .running →
    (s.dev.isNvme fn = true → hasBit (s.dev.nvme fn).cc 0 = false → (s.dev.nvme fn).closing = false →
      ∃ t, exec (.nvmeCcEnSet fn) s = .next t ∧ (t.dev.nvme fn).ready = true ∧ hasBit (t.dev.nvme fn).cc 0 = true ∧
        ((t.dev.nvme fn).sqs.get? 0).map Sq.size = some ((s.dev.nvme fn).aqa % 4096 + 1) ∧
        ((t.dev.nvme fn).cqs.get? 0).map Cq.size = some (bits (s.dev.nvme fn).aqa 16 12 + 1)) ∧
    (hasBit (s.dev.nvme fn).cc 0 = true → s.dev.items = {} →
      ∃ t, exec (.nvmeCcEnClear fn) s = .next t ∧ (t.dev.nvme fn).ready = false ∧ hasBit (t.dev.nvme fn).cc 0 = false ∧
        (t.dev.nvme fn).sqs = {} ∧ (t.dev.nvme fn).cqs = {} ∧ (t.dev.nvme fn).owed = [] ∧ t.dev.on (stoCauses.bit 5) = true) ∧
    (∀ tail a, s.dev.doorbellOpen fn = true → s.dev.isNvme fn = true → (s.dev.nvme fn).closing = false →
        (s.dev.nvme fn).sqs.get? q = some a → a.size ≤ 65536 →
      let posted := (a.tail + a.size - a.nextSeq % max 1 a.size) % max 1 a.size
      (tail < a.size → posted + (tail + a.size - a.tail) % max 1 a.size < a.size → ∃ t b, exec (.nvmeSqTailDoorbell fn q tail) s = .next t ∧
        (t.dev.nvme fn).sqs.get? q = some b ∧ b.tail = tail) ∧
      (a.size ≤ tail → tail < 65536 → ∃ t, exec (.nvmeSqTailDoorbell fn q tail) s = .next t ∧ t.dev.on (stoCauses.bit 6) = true ∧
        t.dev.rd R.STO_BAD_DOORBELLS_count = (s.dev.rd R.STO_BAD_DOORBELLS_count + 1) % 2 ^ R.STO_BAD_DOORBELLS_count.width)) ∧
    (∀ seq a b l op, s.dev.nvmeStands fn 0 seq a b l op →
      let x := nvmeFields b
      let d := s.dev.nvmeTaken fn 0 a l
      let k := x.cdw10 % 65536
      let ends (c : Instr) (d : Dev) (status result : Nat) : Prop :=
        exec c s = .next { s with dev := d.completeNvme fn 0 x.cid status result }
      (op = 6 → 3 < x.cdw10 % 256 → ends (.nvmeIdentify fn) d 2 0) ∧
      (op = 6 → x.cdw10 % 256 = 1 → ∃ data, data.length = 4096 ∧
        exec (.nvmeIdentify fn) s = .next { s with dev := { d with freeCtr := d.freeCtr + 1 }.adminData fn x data }) ∧
      (op = 5 → 1 ≤ k → k ≤ 64 → (s.dev.nvme fn).cqs.has k = false → 1 ≤ x.cdw10 / 65536 → x.cdw10 / 65536 < 4096 → hasBit x.cdw11 0 = true →
        x.cdw11 / 65536 < s.dev.msixSize fn →
        let y : Cq := { base := x.prp1, size := x.cdw10 / 65536 + 1, irq := hasBit x.cdw11 1, vector := x.cdw11 / 65536 }
        ends (.nvmeCreateIoCq fn) (d.onNvme fn (fun c => { c with cqs := c.cqs.set k y })) 0 0) ∧
      (op = 1 → 1 ≤ k → k ≤ 64 → (s.dev.nvme fn).sqs.has k = false → 1 ≤ x.cdw10 / 65536 → x.cdw10 / 65536 < 4096 → hasBit x.cdw11 0 = true →
        x.cdw11 / 65536 ≠ 0 → (s.dev.nvme fn).cqs.has (x.cdw11 / 65536) = true →
        let y : Sq := { base := x.prp1, size := x.cdw10 / 65536 + 1, cq := x.cdw11 / 65536 }
        ends (.nvmeCreateIoSq fn) ((d.freshBalance (sqLeaf fn k)).onNvme fn (fun c => { c with sqs := c.sqs.set k y })) 0 0) ∧
      (op = 0 → k ≠ 0 → (s.dev.nvme fn).sqs.has k = true → s.dev.sqBusy fn k = false →
        ends (.nvmeDeleteIoSq fn) (d.onNvme fn (fun c => { c with sqs := c.sqs.erase k })) 0 0) ∧
      (op = 4 → k ≠ 0 → (s.dev.nvme fn).cqs.has k = true → (∀ y ∈ (d.nvme fn).sqs.vals, y.cq ≠ k) →
        ends (.nvmeDeleteIoCq fn) (d.onNvme fn (fun c => { c with cqs := c.cqs.erase k })) 0 0) ∧
      (op = 10 → x.cdw10 % 256 = 7 → ends (.nvmeGetFeatures fn) d 0 (63 + 65536 * 63)) ∧
      (op = 9 → x.cdw10 % 256 = 11 → ends (.nvmeSetFeatures fn)
        (d.onNvme fn (fun c => { c with features := c.features.set 11 x.cdw11 })) 0 0) ∧
      (op = 2 → x.cdw10 % 256 = 0 → ends (.nvmeGetLogPage fn) d 0x109 0) ∧
      (op = 2 → x.cdw10 % 256 = 2 → ∃ data, data.length = 4 * (x.cdw10 / 65536 + 65536 * (x.cdw11 % 65536) + 1) ∧
        exec (.nvmeGetLogPage fn) s = .next { s with dev := { d with freeCtr := d.freeCtr + 1 }.adminData fn x data }) ∧
      (op = 8 → (s.dev.nvme fn).sqs.get? k = none → k ≠ 0 → ends (.nvmeAbort fn) d 0 1) ∧
      (op = 12 → (s.dev.nvme fn).events = [] → exec (.nvmeAsyncEventRequest fn) s =
        .next { s with dev := d.onNvme fn (fun c => { c with aers := c.aers ++ [x.cid] }) }) ∧
      (adminOpcodes.contains op = false → ends (.nvmeIdentify fn) d 1 0)) ∧
    (∀ c op seq a b l, (c, op) ∈ [(Instr.nvmeRead fn q, 2), (.nvmeWrite fn q, 1), (.nvmeFlush fn q, 0), (.nvmeWriteZeroes fn q, 8),
        (.nvmeDatasetManagement fn q, 9)] → q ≠ 0 → s.dev.nvmeStands fn q seq a b l op →
      ∃ t it, exec c s = .next t ∧ (t.dev.nvme fn).sqs.get? q = some { a with accepted := l, saved := a.saved - 1 } ∧ t.dev.item? s.dev.nextItem = some it ∧
        it.nvme = some (fn, q) ∧ it.seq = seq ∧ it.kind = 2 ∧ it.stage = .queued ∧ t.dev.regs = s.dev.regs)

/-- R312, R313, R317, R320: a bar counts, takes the parameters that the node table and the link registers then hold, and stores the cap of R314;
a node command runs until it is done, and then writes or reads its node and shows its result. -/
def Obligations.Scheduler : Prop :=
  ∀ s : State, s.dev.phase = .running →
    (∃ t, exec .barStart s = .next t ∧ t.dev.sched.nodes = s.dev.sched.nodes ∧ t.dev.sched.force = s.dev.nodesInForce ∧
      t.dev.rd64 R.SCH_BARS_LO_bars R.SCH_BARS_HI_bars = (s.dev.rd64 R.SCH_BARS_LO_bars R.SCH_BARS_HI_bars + 1) % 2 ^ 64 ∧
      t.dev.rd R.SCH_STATUS_cap =
        s.dev.rd R.PWR_HEADROOM_headroom * s.dev.rd R.SCH_CONFIG_bar_ticks * 4 / 1000 % 2 ^ R.SCH_STATUS_cap.width) ∧
    (∀ mid level index, level < 8 → index < 2 ^ 22 → s.dev.on R.SCH_NODE_STATUS_busy = false →
      (∃ t c, exec (.schNodeRead mid level index) s = .next t ∧ t.dev.sched.cmd = some c ∧ t.dev.on R.SCH_NODE_STATUS_busy = true ∧
        c.write = false ∧ c.mid = mid ∧ c.level = level ∧ c.index = index) ∧
      (∃ t c, exec (.schNodeWrite mid level index) s = .next t ∧ t.dev.sched.cmd = some c ∧ t.dev.on R.SCH_NODE_STATUS_busy = true ∧
        c.write = true ∧ c.mid = mid ∧ c.level = level ∧ c.index = index ∧ c.node.weight = s.dev.rd R.SCH_NODE_DATA0_weight ∧
        c.node.burst = max 1 (s.dev.rd R.SCH_NODE_DATA0_burst_kib) ∧ c.node.floor = s.dev.rd R.SCH_NODE_DATA1_floor_mbps ∧
        c.node.ceiling = s.dev.rd R.SCH_NODE_DATA2_ceiling_mbps)) ∧
    (∀ c, s.dev.sched.cmd = some c → ∃ t, exec .schNodeCmdDone s = .next t ∧ t.dev.sched.cmd = none ∧ t.dev.on R.SCH_NODE_STATUS_busy = false ∧
      t.dev.rd R.SCH_NODE_STATUS_result = s.dev.nodeResult c ∧ s.dev.nodeResult c ≤ 3 ∧
      (s.dev.nodeResult c ≠ 0 ∨ c.write = false → t.dev.sched.nodes = s.dev.sched.nodes) ∧
      (s.dev.nodeResult c = 0 → c.write = true → t.dev.sched.nodes.get? (nodeKey c.level c.index) = some c.node) ∧
      (∀ n, s.dev.nodeResult c = 0 → c.write = false → s.dev.sched.nodes.get? (nodeKey c.level c.index) = some n →
        t.dev.rd R.SCH_NODE_DATA0_weight = n.weight % 2 ^ R.SCH_NODE_DATA0_weight.width ∧
        t.dev.rd R.SCH_NODE_DATA1_floor_mbps = n.floor % 2 ^ R.SCH_NODE_DATA1_floor_mbps.width ∧
        t.dev.rd R.SCH_NODE_DATA2_ceiling_mbps = n.ceiling % 2 ^ R.SCH_NODE_DATA2_ceiling_mbps.width))

/-- R325, R330-R336: a channel starts at its list, takes each descriptor as it comes, starts bursts of the stated length, issues their writes
and ends; it is paused, resumed and requested; a malformed descriptor, a refused table and a failed read stop it with their codes. The bytes
of a burst whose Set has departed are not written and not counted (R339). -/
def Obligations.DmaChannels : Prop :=
  ∀ (c mid : Nat) (s : State), s.dev.phase = .running → c < 64 →
    (s.dev.dmaState c ∈ [0, 4, 5] → mid < 65536 → s.dev.canIssue (if isFnMid mid then mid - 0x1000 else s.dev.rd R.DMA_FUNC_function c) = true →
      ∃ t, exec (.dmaStart mid c) s = .next t ∧ t.dev.dmaState c = 1 ∧ t.dev.dmaOwner c = mid ∧ t.dev.rd R.DMA_STATUS_code c = 0 ∧
        (t.dev.chanDma c).fetching = some (32 * s.dev.rd R.DMA_LIST_LO_list c + 2 ^ 32 * s.dev.rd R.DMA_LIST_HI_list c) ∧
        (t.dev.chanDma c).descs = [] ∧ t.dev.rd64 R.DMA_BYTES_LO_bytes R.DMA_BYTES_HI_bytes c = 0) ∧
    (s.dev.dmaState c ∈ [1, 2, 3] → ∃ t, exec (.dmaStart mid c) s = .next t ∧ t.dev.dma = s.dev.dma ∧ t.dev.dmaState c = s.dev.dmaState c ∧
      t.dev.rd R.DMA_REFUSED_count c = (s.dev.rd R.DMA_REFUSED_count c + 1) % 2 ^ R.DMA_REFUSED_count.width) ∧
    (s.dev.dmaState c = 1 → (s.dev.chanDma c).flight = [] → ∃ t, exec (.dmaStop mid c) s = .next t ∧ t.dev.dmaState c = 2) ∧
    (s.dev.dmaState c = 2 → s.dev.canIssue (s.dev.dmaFn c) = true →
      exec (.dmaResume mid c) s = .next { s with dev := s.dev.wr R.DMA_STATUS_state 1 c }) ∧
    (s.dev.dmaState c = 2 → s.dev.canIssue (s.dev.dmaFn c) = false → ∃ t, exec (.dmaResume mid c) s = .next t ∧ t.dev.dmaState c = 3 ∧
      t.dev.on (dmaCauses.bit 6) c = true) ∧
    (s.dev.rd R.DMA_STATUS_requests c < 255 → ∃ t, exec (.dmaRequest mid c) s = .next t ∧
      t.dev.rd R.DMA_STATUS_requests c = s.dev.rd R.DMA_STATUS_requests c + 1 ∧ t.dev.dma = s.dev.dma) ∧
    (s.dev.rd R.DMA_STATUS_requests c = 255 → ∃ t, exec (.dmaRequest mid c) s = .next t ∧
      t.dev.rd R.DMA_STATUS_requests c = 255 ∧ t.dev.on (dmaCauses.bit 8) c = true) ∧
    (∀ a b, (s.dev.chanDma c).fetching = some a → (s.dev.chanDma c).fetched = some b → (s.dev.chanDma c).descs = [] →
      (s.dev.dmaBad (s.dev.dmaOwner c) b (dmaDesc a b) = false →
        ((dmaDesc a b).dstSpace = 2 → s.dev.tableTakes (dmaDesc a b).table 2) → ∃ t, exec (.dmaDescriptorFetched c) s = .next t ∧
        (t.dev.chanDma c).descs = [dmaDesc a b] ∧ (t.dev.chanDma c).fetching = none ∧ t.dev.dmaState c = s.dev.dmaState c) ∧
      (s.dev.dmaBad (s.dev.dmaOwner c) b (dmaDesc a b) = false → (dmaDesc a b).dstSpace = 2 → ¬ s.dev.tableTakes (dmaDesc a b).table 2 →
        ∃ t, exec (.dmaDescriptorFetched c) s = .next t ∧ (t.dev.chanDma c).descs = [] ∧ t.dev.dmaState c = 5 ∧
        t.dev.rd R.DMA_STATUS_code c = 4 ∧ t.dev.on (dmaCauses.bit 3) c = true) ∧
      (s.dev.dmaBad (s.dev.dmaOwner c) b (dmaDesc a b) = true → ∃ t, exec (.dmaDescriptorFetched c) s = .next t ∧
        (t.dev.chanDma c).descs = [] ∧ t.dev.dmaState c = 5 ∧ t.dev.rd R.DMA_STATUS_code c = 2 ∧ t.dev.on (dmaCauses.bit 3) c = true)) ∧
    (∀ x, s.dev.dmaRuns c → (s.dev.chanDma c).flight = [] → (s.dev.chanDma c).descs = [x] → x.bad = none → x.started < x.length →
      s.dev.spaced c = true → s.dev.canIssue (s.dev.dmaFn c) = true → s.dev.on R.DMA_CTRL_paced c = false →
      ∃ t b, exec (.dmaBurstStart c) s = .next t ∧ (t.dev.chanDma c).flight = [b] ∧ b.desc = x.addr ∧ b.off = x.started ∧
        b.len = s.dev.burstLen c x ∧ (t.dev.chanDma c).descs = [{ x with started := x.started + b.len }]) ∧
    (∀ x b data, s.dev.dmaRuns c → s.dev.stp.xfers = [] → (s.dev.chanDma c).flight = [b] → (s.dev.chanDma c).descs = [x] →
      (b.failed = true → ∃ t, exec (.dmaBurstComplete c) s = .next t ∧ t.dev.dmaState c = 5 ∧ t.dev.rd R.DMA_STATUS_code c = 3) ∧
      (b.failed = false → b.data = some data → x.dstSpace = 0 → s.dev.canIssue (s.dev.dmaFn c) = true →
        ∃ t, exec (.dmaBurstComplete c) s = .next t ∧ (t.dev.chanDma c).flight = [] ∧
          t.dev.rd64 R.DMA_BYTES_LO_bytes R.DMA_BYTES_HI_bytes c =
            (s.dev.rd64 R.DMA_BYTES_LO_bytes R.DMA_BYTES_HI_bytes c + (if s.dev.burstLost c x b then 0 else b.len)) % 2 ^ 64 ∧
          (x.written + b.len = x.length → x.last = true → t.dev.dmaState c = 4 ∧ (t.dev.chanDma c).descs = [] ∧
            t.dev.on (dmaCauses.bit 2) c = true ∧
            t.dev.rd R.DMA_DESC_DONE_count c = (s.dev.rd R.DMA_DESC_DONE_count c + 1) % 2 ^ R.DMA_DESC_DONE_count.width) ∧
          (x.written + b.len < x.length → t.dev.dmaState c = 1)))

/-- R344, R347, R355-R357: ports and their instances come up and go down, a frame that is being received then being counted as cut; lanes are
calibrated; a calendar switch is asked for, takes effect or fails; a port enters low-power idle and follows its peer. R348, R351-R354, R358,
R384: an instance starts the oldest frame of a class that is not paused, and the first launch frame; pause and PFC frames pause and resume
the classes they name, a timer resumes them, XOFF is refreshed; a storm begins and ends after its watchdog time, and discards; a counter
read clears. -/
def Obligations.PortsAndInstances : Prop :=
  (∀ (p : Nat) (s : State), s.dev.phase = .running → s.dev.portSane p →
     (s.dev.portSpeed p ≠ 0 → s.dev.on R.MAC_PORT_STATUS_up 0 (16 * p) = false → ∃ t, exec (.portUp p) s = .next t ∧
       t.dev.on R.MAC_PORT_STATUS_up 0 (16 * p) = true ∧ t.dev.on (macCauses.bit 0) = true ∧ ∀ m ∈ s.dev.instancesOf p, t.dev.macUp m = true) ∧
     (s.dev.on R.MAC_PORT_STATUS_up 0 (16 * p) = true →
       (∀ cut, ∃ t, exec (.portDown ⟨p, cut⟩) s = .next t ∧ t.dev.on R.MAC_PORT_STATUS_up 0 (16 * p) = false ∧ t.dev.on (macCauses.bit 0) = true ∧
         ∀ m ∈ s.dev.instancesOf p, t.dev.macUp m = false ∧ (t.dev.mac m).fifo = [] ∧ (t.dev.mac m).launch = [] ∧
           t.dev.rd R.MAC_INST_STATE_paused 0 (4 * m) = 0 ∧
           (m ∈ cut → t.dev.macCount m 2 = (s.dev.macCount m 2 + 1) % 2 ^ 64)) ∧
       (∀ cut, s.dev.on R.MAC_PORT_STATUS_flexe_lock 0 (16 * p) = true → ∃ t, exec (.flexeOverheadLockLoss ⟨p, cut⟩) s = .next t ∧
         t.dev.on R.MAC_PORT_STATUS_up 0 (16 * p) = false ∧ t.dev.on (macCauses.bit 5) = true) ∧
       (∀ lpi, ∃ t, exec (.peerLpiChange p lpi) s = .next t ∧ t.dev.on R.MAC_PORT_STATUS_lpi_rx 0 (16 * p) = lpi ∧ t.dev.out = s.dev.out) ∧
       (s.dev.on R.MAC_PORT_CFG_eee_enable 0 (16 * p) = true → s.dev.portSpeed p = 1 → s.dev.on R.MAC_PORT_STATUS_lpi_tx 0 (16 * p) = false →
         (∀ m ∈ s.dev.instancesOf p, (s.dev.mac m).fifo = [] ∧ (s.dev.mac m).launch = []) → s.dev.timedWaiting p = false →
         ∃ t, exec (.lpiIdleExpiry p) s = .next t ∧ t.dev.on R.MAC_PORT_STATUS_lpi_tx 0 (16 * p) = true ∧
           t.dev.out = s.dev.out ++ [.lpi p true])) ∧
     (∀ l v, l < 32 → (s.dev.portOfLane l).isSome = true → ∃ t, exec (.laneCalibrationDone l v) s = .next t ∧
       t.dev.rd R.MAC_LANE_CAL_int_rx l = bits v 0 16 ∧ t.dev.rd R.MAC_LANE_CAL_int_tx l = bits v 16 16 ∧
       t.dev.on R.MAC_LANE_STATUS_cal_valid l = true ∧ t.dev.on (laneCauses.bit 3) l = true) ∧
     (∀ l drift, l < 32 → s.dev.on R.MAC_LANE_STATUS_cal_valid l = true →
       (250 < drift → ∃ t, exec (.laneCalCheck l drift) s = .next t ∧ t.dev.on R.MAC_LANE_STATUS_cal_valid l = false ∧
         t.dev.on (laneCauses.bit 4) l = true) ∧
       (drift ≤ 250 → exec (.laneCalCheck l drift) s = .next s)) ∧
     (∀ r, s.dev.portRec p = some r → r.flexe = true → r.calB = true → s.dev.on R.MAC_PORT_STATUS_switch_busy 0 (16 * p) = false →
       ∃ t, exec (.flexeCalendarSwitch p) s = .next t ∧ t.dev.on R.MAC_PORT_STATUS_switch_busy 0 (16 * p) = true ∧
         t.dev.out = s.dev.out ++ [.flexeRequest p]) ∧
     (s.dev.on R.MAC_PORT_STATUS_switch_busy 0 (16 * p) = true →
       (∃ t, exec (.flexeSwitchTimeout p) s = .next t ∧ t.dev.on R.MAC_PORT_STATUS_switch_busy 0 (16 * p) = false ∧
         t.dev.on R.MAC_PORT_STATUS_cal_b 0 (16 * p) = s.dev.on R.MAC_PORT_STATUS_cal_b 0 (16 * p) ∧ t.dev.on (macCauses.bit 5) = true) ∧
       (s.dev.on R.MAC_PORT_STATUS_up 0 (16 * p) = true → (∀ m b, m ∈ s.dev.instancesUnder p b → m < 256) → ∃ t, exec (.flexeSwitchDone p) s = .next t ∧
         t.dev.on R.MAC_PORT_STATUS_switch_busy 0 (16 * p) = false ∧
         t.dev.on R.MAC_PORT_STATUS_cal_b 0 (16 * p) = !s.dev.on R.MAC_PORT_STATUS_cal_b 0 (16 * p) ∧ t.dev.on (macCauses.bit 4) = true))) ∧
  (∀ (m cls : Nat) (s : State), s.dev.phase = .running → m < 256 → cls < 8 →
     (s.dev.macUp m = true →
       (∀ f l, takeClass cls (s.dev.mac m).fifo = some (f, l) → s.dev.paused m cls = false → s.dev.launchClear m f.bytes = true →
         ∃ t, exec (.frameTransmit m cls) s = .next t ∧ (t.dev.mac m).fifo = l ∧ frameLeft m s t) ∧
       (s.dev.paused m cls = true → exec (.frameTransmit m cls) s = .next s) ∧
       (∀ f, (s.dev.mac m).launch.find? (fun f => !s.dev.paused m f.cls) = some f →
         ∃ t, exec (.launchTime m) s = .next t ∧ (t.dev.mac m).launch = (s.dev.mac m).launch.erase f ∧ frameLeft m s t) ∧
       (∀ q, q < 65536 → s.dev.on R.MAC_INST_CFG_rx_honour 0 (16 * m) = true → s.dev.fcMode m = 1 → s.dev.rd R.MAC_INST_STATE_storm 0 (4 * m) = 0 →
         ∃ t, exec (.pauseFrame m q) s = .next t ∧ t.dev.out = s.dev.out ∧
           ∀ c, c < 8 → (if q = 0 then t.dev.paused m c = false else t.dev.pausedNow m c)) ∧
       (s.dev.on R.MAC_INST_CFG_rx_honour 0 (16 * m) = false → (∀ q, exec (.pauseFrame m q) s = .next { s with dev := s.dev.countMac m 11 }) ∧
         ∀ e q, exec (.pfcFrame m e q) s = .next { s with dev := s.dev.countMac m 11 }) ∧
       (∀ e q, s.dev.on R.MAC_INST_CFG_rx_honour 0 (16 * m) = true → s.dev.fcMode m = 2 → s.dev.rd R.MAC_INST_STATE_storm 0 (4 * m) = 0 →
         ∃ t, exec (.pfcFrame m e q) s = .next t ∧ t.dev.out = s.dev.out ∧
           ∀ c, c < 8 → t.dev.paused m c =
             if hasBit e c && s.dev.lossless m c then (q.getD c 0 % 65536 != 0) else s.dev.paused m c) ∧
       (s.dev.xoffSent m cls = true → s.dev.on R.MAC_INST_CFG_tx_generate 0 (16 * m) = true → s.dev.xonAt m < s.dev.waitingOf m cls →
         ∃ t, exec (.xoffRefresh m cls) s = .next t ∧ frameLeft m s t)) ∧
     (s.dev.fcMode m ≠ 1 → ∃ t, exec (.pauseTimerExpiry m cls) s = .next t ∧ t.dev.paused m cls = false ∧
       ∀ c, c < 8 → c ≠ cls → t.dev.paused m c = s.dev.paused m c) ∧
     (s.dev.paused m cls = true → s.dev.rd R.MAC_INST_PFC_watchdog_ms 0 (16 * m) ≠ 0 →
       s.dev.watchdogRan m ((s.dev.mac m).pausedAt.getD cls 0) = true → ∃ t, exec (.stormWatchdogExpiry m cls) s = .next t ∧
       t.dev.paused m cls = false ∧ t.dev.stormy m cls = true ∧ t.dev.on (macCauses.bit 1) = true ∧
       (s.dev.fcMode m ≠ 1 → (t.dev.mac m).fifo = (s.dev.mac m).fifo.filter (fun f => f.cls != cls))) ∧
     (s.dev.watchdogRan m ((s.dev.mac m).lastPause.getD cls 0) = true → ∃ t, exec (.stormEnd m cls) s = .next t ∧ t.dev.stormy m cls = false ∧
       t.dev.macs = s.dev.macs ∧ (s.dev.fcMode m ≠ 1 → ∀ c, c < 8 → c ≠ cls → t.dev.stormy m c = s.dev.stormy m c)) ∧
     (s.dev.fcMode m ≠ 1 → s.dev.watchdogRan m ((s.dev.mac m).lastPause.getD cls 0) = false → exec (.stormEnd m cls) s = .next s) ∧
     (∀ mid c, c < 32 → s.dev.macCount m c < 2 ^ 64 → ∃ t, exec (.macCounterRead mid m c) s = .next t ∧ t.dev.macCount m c = 0 ∧
       t.dev.out = s.dev.out ++ [.answer mid (s.dev.macCount m c % 2 ^ 32)] ∧
       t.dev.rd R.MAC_COUNTER_HI_count 0 (256 * m + 8 * c) = s.dev.macCount m c / 2 ^ 32))

/-- R363, R364, R367-R371: ticks advance the domains by their increments; the loss and return of the reference add to the base uncertainty;
commits, sets, additions and anchors; reads latch, and the snapshot takes both domains. R380-R390: arming, disarming, switching, pulses and
their ends, which drive the pin while it is an output, the end of a slew, the opening of a launch gate, and the TIME_IO pins. -/
def Obligations.TimeAndActions : Prop :=
  (∀ (k : Nat) (s : State), s.dev.phase = .running → k < 2 →
     (∀ n, ∃ t, exec (.tempoTick n) s = .next t ∧ t.dev.ticks = (s.dev.ticks + n) % 2 ^ 64 ∧
       t.dev.dom k = Domain.tick n (s.dev.on R.TMP_STATUS_ref_lost) (s.dev.dom k) ∧
       ((s.dev.dom k).total + n * (s.dev.dom k).inc < 2 ^ 48 * 1000000000 * 2 ^ 32 →
         (t.dev.dom k).total = (s.dev.dom k).total + n * (s.dev.dom k).inc)) ∧
     (s.dev.on R.TMP_STATUS_ref_lost = false → ∃ t, exec .referenceLost s = .next t ∧ t.dev.on R.TMP_STATUS_ref_lost = true ∧
       t.dev.on (tmpCauses.bit 0) = true ∧ ((s.dev.dom k).base < 0xFFDE → (t.dev.dom k).base = (s.dev.dom k).base + 32)) ∧
     (s.dev.on R.TMP_STATUS_ref_lost = true → ∃ t, exec .referenceRestored s = .next t ∧ t.dev.on R.TMP_STATUS_ref_lost = false ∧
       t.dev.on (tmpCauses.bit 1) = true ∧ ((s.dev.dom k).base < 0xFFDE → (t.dev.dom k).base = (s.dev.dom k).base + 32)) ∧
     (∃ t, exec .uncertaintyUpdate s = .next t ∧ (t.dev.dom k).unc = s.dev.computeUnc k ∧ (t.dev.dom k).total = (s.dev.dom k).total) ∧
     (s.dev.anchorOld k = false → exec (.holdoverEntry k) s = .next s) ∧
     (s.dev.on R.TMP_DOM_UNC_holdover 0 (128 * k) = false → s.dev.anchorOld k = true → ∃ t, exec (.holdoverEntry k) s = .next t ∧
       t.dev.on R.TMP_DOM_UNC_holdover 0 (128 * k) = true ∧ t.dev.on (tmpCauses.bit (2 + k)) = true) ∧
     (∀ hi, hi < 256 → ∃ t, exec (.incrementCommit k hi) s = .next t ∧
       (t.dev.dom k).inc = max 0x3FEF9DB23 (min (s.dev.rd R.TMP_DOM_INC_LO_inc 0 (128 * k) + 2 ^ 32 * hi) 0x4010624DD) ∧
       (t.dev.dom k).total = (s.dev.dom k).total) ∧
     (s.dev.rd R.TMP_DOM_SET_NS_value 0 (128 * k) < 1000000000 → ∃ t, exec (.domainSet k) s = .next t ∧
       (t.dev.dom k).ns = s.dev.rd R.TMP_DOM_SET_NS_value 0 (128 * k) ∧ (t.dev.dom k).frac = 0 ∧ t.dev.domValid k = true ∧
       (t.dev.dom k).sec = (s.dev.rd R.TMP_DOM_SET_SEC_LO_value 0 (128 * k) +
         2 ^ 32 * s.dev.rd R.TMP_DOM_SET_SEC_HI_value 0 (128 * k)) % 2 ^ 48 ∧ t.dev.on (tmpCauses.bit 6) = true) ∧
     (1000000000 ≤ s.dev.rd R.TMP_DOM_SET_NS_value 0 (128 * k) → ∃ t, exec (.domainSet k) s = .next t ∧ t.dev.dom k = s.dev.dom k ∧
       t.dev.on R.TMP_DOM_UNC_step_refused 0 (128 * k) = true) ∧
     (s.dev.domValid k = true → ∃ t, exec (.domainAdd k) s = .next t ∧ ((t.dev.dom k).total : Int) =
       (((s.dev.dom k).total : Int) + (BitVec.ofNat 32 (s.dev.rd R.TMP_DOM_ADJ_value 0 (128 * k))).toInt * 2 ^ 32) %
         (2 ^ 48 * 1000000000 * 2 ^ 32)) ∧
     (∀ v, v < 65536 → ∃ t, exec (.domainAnchor k v) s = .next t ∧ (t.dev.dom k).base = v ∧ (t.dev.dom k).age = 0 ∧
       (t.dev.dom k).unc = min 0xFFFE v ∧ t.dev.on R.TMP_DOM_UNC_holdover 0 (128 * k) = false) ∧
     (∀ mid, ∃ t, exec (.domainTimeRead mid k) s = .next t ∧ t.dev.out = s.dev.out ++ [.answer mid (s.dev.dom k).ns] ∧
       t.dev.latchOf mid k = { sec := (s.dev.dom k).sec, frac := (s.dev.dom k).frac, unc := s.dev.unc k } ∧ t.dev.regs = s.dev.regs) ∧
     (∃ t, exec .tempoSnapshot s = .next t ∧ t.dev.rd R.TMP_SNAP_LEAD_NS_value = (s.dev.dom 0).ns % 2 ^ 32 ∧
       t.dev.rd R.TMP_SNAP_FOLLOW_NS_value = (s.dev.dom 1).ns % 2 ^ 32 ∧ t.dev.rd R.TMP_SNAP_LEAD_SEC_LO_value = (s.dev.dom 0).sec % 2 ^ 32 ∧
       t.dev.rd R.TMP_SNAP_TICKS_LO_value = s.dev.rd R.TMP_TICKS_LO_value % 2 ^ 32 ∧ t.dev.tempo = s.dev.tempo)) ∧
  (∀ (n : Nat) (s : State), s.dev.phase = .running → n < 128 →
     (s.dev.rd R.TMP_SLOT_CFG_kind 0 (64 * n) ≠ 0 → s.dev.on R.TMP_SLOT_STATUS_slewing 0 (64 * n) = false →
       let start := (s.dev.rd R.TMP_SLOT_START_SEC_LO_value 0 (64 * n) + 2 ^ 32 * s.dev.rd R.TMP_SLOT_START_SEC_HI_value 0 (64 * n)) * 1000000000 +
         s.dev.rd R.TMP_SLOT_START_NS_value 0 (64 * n)
       (s.dev.badArm n (s.dev.rd R.TMP_SLOT_CFG_source 0 (64 * n)) = true → ∃ t, exec (.slotArm n) s = .next t ∧ slotIs n 0 t ∧
         t.dev.on R.TMP_SLOT_STATUS_bad_config 0 (64 * n) = true ∧ t.dev.tempo = s.dev.tempo) ∧
       (s.dev.badArm n (s.dev.rd R.TMP_SLOT_CFG_source 0 (64 * n)) = false → s.dev.rd R.TMP_SLOT_CFG_kind 0 (64 * n) ≠ 1 →
         ∃ t, exec (.slotArm n) s = .next t ∧ slotIs n 1 t ∧ (t.dev.slot n).kind = s.dev.rd R.TMP_SLOT_CFG_kind 0 (64 * n) ∧
           (t.dev.slot n).start = start ∧ t.dev.rd R.TMP_SLOT_COUNT_value 0 (64 * n) = 0) ∧
       (s.dev.badArm n (s.dev.rd R.TMP_SLOT_CFG_source 0 (64 * n)) = false → s.dev.rd R.TMP_SLOT_CFG_kind 0 (64 * n) = 1 →
         (s.dev.slot n).offset = 0 → s.dev.rd R.TMP_SLOT_CFG_source 0 (64 * n) < 2 →
         (s.dev.dom (s.dev.rd R.TMP_SLOT_CFG_source 0 (64 * n))).frac < 2 ^ 32 →
         ∃ t, exec (.slotArm n) s = .next t ∧ (t.dev.slot n).next = start ∧
           slotIs n (if start ≤ (s.dev.dom (s.dev.rd R.TMP_SLOT_CFG_source 0 (64 * n))).nsTotal then 3 else 1) t)) ∧
     (s.dev.slotState n = 1 →
       exec (.slotDisarm n) s = .next { s with dev := s.dev.setSlotState n 0 } ∧
       (∀ dst, dst < 2 → s.dev.domValid dst = true → (s.dev.slotFine n - s.dev.fine dst).natAbs < 2 ^ 31 * 1000000000 →
         ∃ t, exec (.slotSwitch n dst) s = .next t ∧ t.dev.slotSource n = dst ∧ slotIs n 1 t ∧
           (t.dev.slot n).offset = s.dev.slotFine n - s.dev.fine dst ∧
           t.dev.on R.TMP_SLOT_STATUS_slewing 0 (64 * n) = decide (s.dev.slotFine n ≠ s.dev.fine dst)) ∧
       (∀ dst, dst < 2 → s.dev.domValid dst = false → ∃ t, exec (.slotSwitch n dst) s = .next t ∧ t.dev.tempo = s.dev.tempo ∧
         t.dev.on R.TMP_SLOT_STATUS_switch_refused 0 (64 * n) = true ∧ t.dev.on (tmpCauses.bit 11) = true ∧
         t.dev.slotSource n = s.dev.slotSource n) ∧
       ((s.dev.slot n).kind = 1 → ∃ t, exec (.slotPulse n) s = .next t ∧ slotIs n 2 t ∧ (t.dev.slot n).pulsing = true ∧
         s.dev.out ++ s.dev.drives (s.dev.slot n).pin true <+: t.dev.out) ∧
       ((s.dev.slot n).kind = 2 → ∃ t, exec (.slotPulse n) s = .next t ∧ slotIs n 1 t ∧ (t.dev.slot n).pulsing = true ∧
         (t.dev.slot n).next = (s.dev.slot n).next + (s.dev.slot n).period ∧ t.dev.out = s.dev.out ++ s.dev.drives (s.dev.slot n).pin true)) ∧
     ((s.dev.slot n).pulsing = true → ∃ t level, exec (.pulseWidthEnd n) s = .next t ∧ (t.dev.slot n).pulsing = false ∧
       t.dev.out = s.dev.out ++ s.dev.drives (s.dev.slot n).pulsePin level ∧ t.dev.regs = s.dev.regs) ∧
     (s.dev.on R.TMP_SLOT_STATUS_slewing 0 (64 * n) = true → (s.dev.slot n).offset = 0 → ∃ t, exec (.slewComplete n) s = .next t ∧
       t.dev.on R.TMP_SLOT_STATUS_slewing 0 (64 * n) = false ∧ t.dev.on (tmpCauses.bit 10) = true) ∧
     ((s.dev.slot n).offset ≠ 0 → exec (.slewComplete n) s = .next s) ∧
     (∀ i it g, s.dev.item? i = some it → it.stage = .gated → it.launch.all s.dev.gateOpen = true → s.dev.ring? it.source = some g →
       s.dev.stale it = true →
       ∃ t, exec (.launchGateOpen i) s = .next t ∧ t.dev.item? i = none) ∧
     (∀ i it g m l, s.dev.item? i = some it → it.stage = .gated → it.launch.all s.dev.gateOpen = true → s.dev.ring? it.source = some g →
       s.dev.stale it = false →
       it.espOf = none → it.tlsOf = none →
       let e := s.dev.onItem i (fun it => { it with stage := .retiring, launched := true })
       e.planTx { it with stage := .retiring, launched := true } (g.sopFields it.descs) it.bytes = .frames m l →
       (e.lineRoom m it.parse.tc it.launch.isSome l = true → ∃ t, exec (.launchGateOpen i) s = .next t ∧ t.dev.item? i = none) ∧
       (e.lineRoom m it.parse.tc it.launch.isSome l = false → exec (.launchGateOpen i) s = .next { s with dev := e })) ∧
     (∀ i it, s.dev.item? i = some it → it.launch.all s.dev.gateOpen = false → exec (.launchGateOpen i) s = .next s) ∧
     (∀ p rising, p < 4 → (s.dev.timePin p).level = some (rising == s.dev.on R.TMP_PIN_CFG_polarity 0 (4 * p)) →
       exec (.timeIoEdge p rising) s = .next s) ∧
     (∀ p, p < 4 →
       (∀ rising, s.dev.rd R.TMP_PIN_CFG_dir 0 (4 * p) = 1 → s.dev.rd R.TMP_PIN_CFG_edge 0 (4 * p) = 3 → (s.dev.timePin p).interval = false →
         (s.dev.timePin p).level ≠ some (rising == s.dev.on R.TMP_PIN_CFG_polarity 0 (4 * p)) → ∃ t, exec (.timeIoEdge p rising) s = .next t ∧ (t.dev.timePin p).interval = true ∧ t.dev.on (tmpCauses.bit (16 + p)) = true ∧
           t.dev.rd R.TMP_PIN_COUNT_count 0 (4 * p) = (s.dev.rd R.TMP_PIN_COUNT_count 0 (4 * p) + 1) % 2 ^ 32) ∧
       ((s.dev.timePin p).interval = true → ∃ t, exec (.captureIntervalEnd p) s = .next t ∧ (t.dev.timePin p).interval = false ∧
         (t.dev.timePin p).overrun = decide (0 < (s.dev.timePin p).coalesced)) ∧
       (∀ v, ∃ t, exec (.pinConfigWrite p v) s = .next t ∧
         t.dev.rd R.TMP_PIN_CFG_dir 0 (4 * p) = (if bits v 0 2 = 3 then 0 else bits v 0 2) ∧
         t.dev.rd R.TMP_PIN_CFG_edge 0 (4 * p) = bits v 3 2 ∧ t.dev.rd R.TMP_PIN_CFG_min_interval 0 (4 * p) = bits v 8 16)))

/-- R397-R401: a send puts the staged words into the channel, answers a message that stood there with 0xFFFF, and refuses a wrong length and a
wrong master; a read of MBX_RX_STATUS shows the message to its receiver; an acknowledgement frees the channel and shows the sender its code. -/
def Obligations.PartnerChannels : Prop :=
  ∀ (mid c : Nat) (s : State), s.dev.phase = .running → c < 18432 →
    (∀ len r, s.dev.binding c = some (mid, r) → isFnMid r = true ∨ isCoreMid r = true → 0 < len → len ≤ 64 →
      ((s.dev.chan c).held = none → ∃ t, exec (.mbxSend mid c len) s = .next t ∧ (t.dev.chan c).held = some (s.dev.stagedMsg c len) ∧
        t.dev.on R.MBX_TX_STATUS_full 0 (256 * c) = true ∧ t.dev.on R.MBX_RX_STATUS_full 0 (256 * c) = true ∧
        t.dev.rd R.MBX_TX_STATUS_seq 0 (256 * c) = (s.dev.stagedMsg c len).seq) ∧
      (∀ m, (s.dev.chan c).held = some m → ∃ t, exec (.mbxSend mid c len) s = .next t ∧
        (t.dev.chan c).held = some (s.dev.stagedMsg c len) ∧ ackShown c 0xFFFF m.seq t ∧
        t.dev.on R.MBX_TX_STATUS_collision 0 (256 * c) = true ∧ t.dev.on R.MBX_RX_STATUS_collision 0 (256 * c) = true ∧
        t.dev.rd R.MBX_LAST_COLLISION_channel = c ∧
        t.dev.rd R.MBX_COLLISIONS_count = (s.dev.rd R.MBX_COLLISIONS_count + 1) % 2 ^ R.MBX_COLLISIONS_count.width)) ∧
    (∀ len r, s.dev.binding c = some (mid, r) → len = 0 ∨ 64 < len → ∃ t, exec (.mbxSend mid c len) s = .next t ∧
      t.dev.chans = s.dev.chans ∧ t.dev.on R.MBX_TX_STATUS_tx_bad 0 (256 * c) = true) ∧
    (∀ x r k, s.dev.binding c = some (x, r) →
      (x ≠ mid → ∃ t, exec (.mbxSend mid c k) s = .next t ∧ t.dev.chans = s.dev.chans ∧
        t.dev.rd R.MBX_WRONG_MID_count = (s.dev.rd R.MBX_WRONG_MID_count + 1) % 2 ^ R.MBX_WRONG_MID_count.width) ∧
      (r ≠ mid → ∃ t, exec (.mbxRxAck mid c k) s = .next t ∧ t.dev.chans = s.dev.chans ∧
        t.dev.rd R.MBX_WRONG_MID_count = (s.dev.rd R.MBX_WRONG_MID_count + 1) % 2 ^ R.MBX_WRONG_MID_count.width)) ∧
    (∀ x, s.dev.binding c = some (x, mid) →
      (∀ m, (s.dev.chan c).held = some m → ∃ t, exec (.mbxRxLatch mid c) s = .next t ∧ (t.dev.chan c).held = some m ∧
        (t.dev.chan c).viewEmpty = false ∧ t.dev.rd R.MBX_RX_STATUS_len 0 (256 * c) = m.len % 128 ∧
        t.dev.rd R.MBX_RX_STATUS_seq 0 (256 * c) = m.seq % 65536 ∧
        (∀ n, n < 16 → t.dev.rd R.MBX_RX_DATA_data 0 (256 * c + 4 * n) = m.words.getD n 0 % 2 ^ 32) ∧
        t.dev.out = s.dev.out ++ [.answer mid (t.dev.rxStatus c)]) ∧
      (∀ m code, (s.dev.chan c).held = some m → (s.dev.chan c).viewEmpty = false → s.dev.rd R.MBX_RX_STATUS_seq 0 (256 * c) = m.seq →
        (∀ fn, mid = midFn fn → (s.dev.fn fn).outbox = []) → ∃ t, exec (.mbxRxAck mid c code) s = .next t ∧
        (t.dev.chan c).held = none ∧ t.dev.on R.MBX_TX_STATUS_full 0 (256 * c) = false ∧
        ackShown c (if 0xFF00 ≤ code then 0xFEFF else code) m.seq t) ∧
      (∀ code, (s.dev.chan c).held = none → ∃ t, exec (.mbxRxAck mid c code) s = .next t ∧ t.dev.chans = s.dev.chans ∧
        t.dev.on R.MBX_RX_STATUS_stale_ack 0 (256 * c) = true))

/-- R411-R415, R493: software triggers make routes pending; a PF's write of a route keeps only what it is permitted; a pending message is issued
on its vector, or kept in the vector's pending bit while that is held, a level route's once per service, and withheld beyond the storm
limit; the end of service lets an active source send again; each millisecond counts anew; a cause mask takes what is written. -/
def Obligations.EventMatrix : Prop :=
  ∀ (pf src v : Nat) (s : State), s.dev.phase = .running → pf < 16 →
    (∀ n, n < 10 → hasBit v n = true → pf ∈ s.dev.pfs → s.dev.routeIs pf (374 + n) false →
      ∃ t, exec (.eventSwTrigger v) s = .next t ∧ (t.dev.route pf (374 + n)).pending = true ∧ t.dev.regs = s.dev.regs) ∧
    (src < 384 → (s.dev.pf? pf).isSome = true → ∃ t, exec (.eventRouteWrite pf src v) s = .next t ∧
      t.dev.rd R.EVT_ROUTE_vector pf (4 * src) = v % 2048 ∧
      t.dev.rd R.EVT_ROUTE_enable pf (4 * src) =
        (if hasBit (s.dev.rd R.EVT_PERMIT_permit pf (4 * (src / 32))) (src % 32) = true then bit v 11 else 0) ∧
      t.dev.rd R.EVT_ROUTE_level pf (4 * src) = (if (causesFor src).isEmpty = true then 0 else bit v 12)) ∧
    (src < 384 → (s.dev.pf? pf).isSome = true → bit v 11 = 0 → ∃ t, exec (.eventRouteWrite pf src v) s = .next t ∧
      (t.dev.route pf src).pending = false ∧ (t.dev.route pf src).inService = false) ∧
    ((s.dev.route pf src).pending = true → s.dev.vectorLost pf (s.dev.rd R.EVT_ROUTE_vector pf (4 * src)) = false →
      let vec := s.dev.rd R.EVT_ROUTE_vector pf (4 * src)
      (s.dev.routeIs pf src false → s.dev.vectorHeld pf vec = false → ∃ t, exec (.eventMessageIssue pf src) s = .next t ∧
        (t.dev.route pf src).pending = false ∧ messageOf pf vec s t) ∧
      (s.dev.routeIs pf src false → s.dev.vectorHeld pf vec = true → ∃ t, exec (.eventMessageIssue pf src) s = .next t ∧
        (t.dev.route pf src).pending = false ∧ (t.dev.vec pf vec).pending = true ∧ t.dev.out = s.dev.out) ∧
      (s.dev.routeIs pf src true → (s.dev.route pf src).sent < s.dev.stormMax → s.dev.vectorHeld pf vec = false →
        ∃ t, exec (.eventMessageIssue pf src) s = .next t ∧ (t.dev.route pf src).pending = false ∧
        (t.dev.route pf src).inService = true ∧ (t.dev.route pf src).sent = (s.dev.route pf src).sent + 1 ∧ messageOf pf vec s t) ∧
      (s.dev.routeIs pf src true → s.dev.stormMax ≤ (s.dev.route pf src).sent → ∃ t, exec (.eventMessageIssue pf src) s = .next t ∧
        (t.dev.route pf src).withheld = true ∧ t.dev.out = s.dev.out ∧
        hasBit (t.dev.rd R.EVT_STORM_storm pf (4 * (src / 32))) (src % 32) = true)) ∧
    (src < 384 → (s.dev.pf? pf).isSome = true → ∃ t, exec (.eventEoi pf src) s = .next t ∧ (t.dev.route pf src).inService = false ∧ t.dev.regs = s.dev.regs ∧
      (s.dev.routeIs pf src true → s.dev.levelActive src = true → (t.dev.route pf src).pending = true)) ∧
    (∃ t, exec .stormLimitMillisecond s = .next t ∧ ∀ q n, (t.dev.route q n).sent = 0 ∧ (t.dev.route q n).withheld = false ∧
      (n < 384 → (s.dev.route q n).withheld = true → (s.dev.route q n).inService = false → s.dev.routeIs q n true →
        s.dev.levelActive n = true → (t.dev.route q n).pending = true)) ∧
    (∀ unit inst off c, causesOf unit off = some c → ∃ t, exec (.causeMaskWrite unit inst off v) s = .next t ∧
      t.dev.rd c.mask (if c.perInst = 1 then inst else 0) = v % 2 ^ c.mask.width)

/-- R5, R8, R38, R83: a write that covers no whole word, one while the device does not run, and one of a PF to a window out of its reach change
nothing; one on a link whose posted credits are withheld waits there (R83); a control core's write stores RW fields, and clears the bits of
W1C fields that it writes 1 to; a function writes its MSI-X table (its name as a unit is the model's, notes/assumptions/46.md). -/
def Obligations.RegisterWrites : Prop :=
  ∀ (mid unit inst off v : Nat) (s : State),
    (∀ bytes, bytes < 4 → exec (.registerWrite mid unit inst off bytes v) s = .next s) ∧
    (∀ bytes, s.dev.phase ≠ .running → (isFnMid mid = true → s.dev.withholds (mid - 0x1000) = false) →
      exec (.registerWrite mid unit inst off bytes v) s = .next s) ∧
    (∀ fn, fn < 8208 → mid = midFn fn → s.dev.withholds fn = true → off % 4 = 0 →
      ∃ t, exec (.registerWrite mid unit inst off 4 v) s = .next t ∧ t.dev.regs = s.dev.regs ∧
        t.dev.boot.withheld = s.dev.boot.withheld ++ [.register mid unit inst off (v % 2 ^ 32)]) ∧
    (∀ fn, fn < 16 → mid = midFn fn → s.dev.withholds fn = false → s.dev.mayReach mid unit inst = false →
      (unit = 0x90 → off < 0x10000) → unit ≠ msixUnit → unit ≠ 0x4400 → off % 4 = 0 → exec (.registerWrite mid unit inst off 4 v) s = .next s) ∧
    (s.dev.phase = .running → isCoreMid mid = true →
      (∃ t, exec (.registerWrite mid 0x92 0 0x0C 4 v) s = .next t ∧ t.dev.rd R.FLT_CONFIG_corr_window_ms = bits v 0 16 ∧
        t.dev.rd R.FLT_CONFIG_corr_threshold = bits v 16 8 ∧ t.dev.rd R.FLT_CONFIG_esc_limit = bits v 24 4 ∧
        t.dev.rd R.FLT_CONFIG_nest_escalate = bits v 28 1 ∧ t.dev.keep.dirty = true) ∧
      (∃ t, exec (.registerWrite mid 0x92 0 0x04 4 v) s = .next t ∧ ∀ b, b < 10 →
        t.dev.rd (fltCauses.bit b) = if hasBit v b = true then 0 else s.dev.rd (fltCauses.bit b) % 2)) ∧
    (∀ fn n, s.dev.phase = .running → fn < 8208 → mid = midFn fn → s.dev.doorbellOpen fn = true → s.dev.withholds fn = false → n < s.dev.msixSize fn →
      ∃ t, exec (.registerWrite mid msixUnit inst (16 * n + 8) 4 v) s = .next t ∧ (t.dev.vec fn n).data = v % 2 ^ 32 ∧
        t.dev.regs = s.dev.regs)

/-- R419, R420, R423: Ring Groups and rings come and go as their requests say, each answered on the function's receiving channel; a ring of
another function is refused with status 1, one that does not exist with 3, one in the wrong state or named as an exception ring with 4.
Indices that the spec leaves open are some free one. -/
def Obligations.RingsAndGroups : Prop :=
  ∀ (fn tag : Nat) (w : List Nat) (s : State), s.dev.phase = .running → (s.dev.fn fn).reset = .none →
    (s.dev.asks fn 1 1 false tag w → (s.dev.groupsOf fn).length < s.dev.pageRoom fn → s.dev.groups.size < 2 ^ 18 →
      (fn < 16 ∨ (s.dev.groupsOf fn).length < (s.dev.fn fn).props.groupQuota) → ∃ t g, exec (.ringGroupCreate fn) s = .next t ∧
        s.dev.groups.has g = false ∧ t.dev.groups.get? g = some { fn := fn, page := s.dev.freePage fn } ∧
        answered fn 1 tag 0 [g, s.dev.freePage fn] t) ∧
    (∀ g x, s.dev.asks fn 2 2 false tag w → bits (reqWord w 1) 0 18 = g → s.dev.groups.get? g = some x → x.fn = fn →
      x.slots.entries = [] → (fn < 16 ∨ x.page + 1 = (s.dev.groupsOf fn).length) → ∃ t, exec (.ringGroupDestroy fn) s = .next t ∧
        t.dev.groups.has g = false ∧ answered fn 2 tag 0 [] t) ∧
    (∀ x, s.dev.asks fn 3 13 false tag w → s.dev.groups.get? (ringOf fn w).group = some x → x.fn = fn →
      s.dev.ringArgsOk fn w (ringOf fn w) x = true → s.dev.rings.size < 2 ^ 22 →
      (fn < 16 ∨ (s.dev.ringsOf fn).length < (s.dev.fn fn).props.ringQuota) → ∃ t r, exec (.ringCreate fn) s = .next t ∧
        s.dev.rings.has r = false ∧ t.dev.ring? r = some { ringOf fn w with gen := (s.dev.fn fn).gen } ∧
        (∀ q, q ≠ r → t.dev.ring? q = s.dev.ring? q) ∧ answered fn 3 tag 0 [r] t) ∧
    (∀ c k n pf, (c, k, n, pf) ∈ [(Instr.ringEnable fn, 0x04, 2, false), (.ringDisable fn, 0x05, 2, true), (.ringRestart fn, 0x06, 2, false),
        (.ringDestroy fn, 0x07, 2, true), (.ringTune fn, 0x08, 4, false)] → s.dev.asks fn k n false tag w →
      (s.dev.ring? (namedRing w) = none → ∃ t, exec c s = .next t ∧ t.dev.rings = s.dev.rings ∧ answered fn k tag 3 [] t) ∧
      (∀ g, s.dev.ring? (namedRing w) = some g → s.dev.owns fn g.fn pf = false → ∃ t, exec c s = .next t ∧ t.dev.rings = s.dev.rings ∧
        answered fn k tag 1 [] t)) ∧
    (∀ c k (wrong : Ring → Prop), (c, k, wrong) ∈ [(Instr.ringEnable fn, 0x04, fun g => g.state ≠ .disabled),
        (.ringDisable fn, 0x05, fun _ => s.dev.isException (namedRing w) = true), (.ringRestart fn, 0x06, fun g => g.state ≠ .error),
        (.ringDestroy fn, 0x07, fun g => g.state ≠ .disabled)] → s.dev.asks fn k 2 false tag w →
      ∀ g, s.dev.ring? (namedRing w) = some g → g.fn = fn → wrong g → ∃ t, exec c s = .next t ∧ t.dev.rings = s.dev.rings ∧
        answered fn k tag 4 [] t) ∧
    (∀ g, s.dev.ring? (namedRing w) = some g → g.fn = fn →
      (s.dev.asks fn 4 2 false tag w → g.state = .disabled → ∃ t h, exec (.ringEnable fn) s = .next t ∧ t.dev.ring? (namedRing w) = some h ∧
        h.state = (if s.dev.canIssue fn then .enabled else .stalled) ∧ h.nextSeq = g.nextSeq ∧ answered fn 4 tag 0 [] t) ∧
      (s.dev.asks fn 5 2 false tag w → g.state ≠ .disabled → s.dev.isException (namedRing w) = false → s.dev.ringIdle (namedRing w) g →
        ∃ t, exec (.ringDisable fn) s = .next t ∧
        t.dev.ring? (namedRing w) = some { g with state := .disabled, stopping := false } ∧ answered fn 5 tag 0 [] t) ∧
      (s.dev.asks fn 5 2 false tag w → g.state ≠ .disabled → s.dev.isException (namedRing w) = false → g.accepted ≠ [] →
        ∃ t, exec (.ringDisable fn) s = .next t ∧ t.dev.ring? (namedRing w) = some { g with stopping := true } ∧
        takenUp fn 5 tag (.ringDisable (namedRing w)) s t) ∧
      (s.dev.asks fn 6 2 false tag w → g.state = .error → g.stopping = false → g.slotProducer = g.producer → g.producer < g.size → g.owed = [] →
        ∃ t h, exec (.ringRestart fn) s = .next t ∧ t.dev.ring? (namedRing w) = some h ∧
        h.state = (if s.dev.canIssue fn then .enabled else .stalled) ∧ h.nextSeq = g.nextSeq ∧ h.landed = {} ∧ answered fn 6 tag 0 [] t) ∧
      (s.dev.asks fn 7 2 false tag w → g.state = .disabled → ∃ t, exec (.ringDestroy fn) s = .next t ∧ t.dev.ring? (namedRing w) = none ∧
        (∀ q, q ≠ namedRing w → t.dev.ring? q = s.dev.ring? q) ∧ answered fn 7 tag 0 [] t) ∧
      (s.dev.asks fn 8 4 false tag w → bits (reqWord w 3) 17 15 = 0 →
        let h : Ring := { g with tphTag := bits (reqWord w 2) 0 16, rxHoldKib := bits (reqWord w 2) 16 16 }
        let h : Ring := { h with irqCount := bits (reqWord w 3) 0 8, irqTime := bits (reqWord w 3) 8 8, armed := hasBit (reqWord w 3) 16 }
        ∃ t, exec (.ringTune fn) s = .next t ∧ answered fn 8 tag 0 [] t ∧ t.dev.ring? (namedRing w) = some h.afterIrq))

/-- R419, R421, R422, R425: Tenants are created and destroyed, VFs assigned and given their properties by the PF; a function reset starts, with
a drain or without, and the end of the drain starts the squash; an epilogue record that is ready is sent again. -/
def Obligations.TenantsAndFunctions : Prop :=
  ∀ (fn v tag : Nat) (w : List Nat) (s : State), s.dev.phase = .running →
    (s.dev.asks fn 0x10 1 false tag w → fn < 16 → (s.dev.fn fn).reset = .none →
      (∃ k, 16 ≤ k ∧ k < 16 + s.dev.die.variant.vfs ∧ s.dev.tenants.has k = false) → ∃ t n, exec (.tenantCreate fn) s = .next t ∧
        16 ≤ n ∧ s.dev.tenants.has n = false ∧ (∀ k, 16 ≤ k → k < n → s.dev.tenants.has k = true) ∧
        t.dev.tenants.get? n = some fn ∧ answered fn 0x10 tag 0 [n] t) ∧
    (∀ n, s.dev.asks fn 0x11 2 false tag w → bits (reqWord w 1) 0 14 = n → 16 ≤ n → s.dev.tenants.get? n = some fn →
      ((∀ x ∈ s.dev.vfsPresent fn, (s.dev.fn x).tenant ≠ n) → ∃ t, exec (.tenantDestroy fn) s = .next t ∧ t.dev.tenants.has n = false ∧
        answered fn 0x11 tag 0 [] t) ∧
      (∀ x ∈ s.dev.vfsPresent fn, (s.dev.fn x).tenant = n → ∃ t, exec (.tenantDestroy fn) s = .next t ∧
        t.dev.tenants.get? n = some fn ∧ answered fn 0x11 tag 4 [] t)) ∧
    (fn < 16 → 16 ≤ v → s.dev.hasFn v = true → s.dev.pfOf v = fn → (s.dev.fn v).reset = .none → bits (reqWord w 1) 0 14 = v →
      (s.dev.asks fn 0x12 3 false tag w → s.dev.tenantPf (bits (reqWord w 2) 0 14) = some fn → s.dev.groupsOf v = [] →
        ∃ t, exec (.vfAssign fn) s = .next t ∧ (t.dev.fn v).tenant = bits (reqWord w 2) 0 14 ∧ answered fn 0x12 tag 0 [] t) ∧
      (s.dev.asks fn 0x13 16 false tag w → s.dev.propsOk w = true → ∃ t status, exec (.vfProperties fn) s = .next t ∧
        (t.dev.fn v).props = propsOf w ∧ answered fn 0x13 tag status [] t ∧ (s.dev.tabKind 2 ≠ 1 → status = 0)) ∧
      (s.dev.asks fn 0x14 3 false tag w → s.dev.holdsNothing v → s.dev.epilogues.get? v = none →
        (hasBit (reqWord w 1) 16 = false → ∃ t, exec (.functionReset fn) s = .next t ∧ resetBegun v 5 .function s t ∧
          takenUp fn 0x14 tag (.functionReset v) s t) ∧
        (hasBit (reqWord w 1) 16 = true → ∃ t, exec (.functionReset fn) s = .next t ∧ (t.dev.fn v).reset = .draining ∧
          t.dev.drains.get? v = some (min (reqWord w 2 % 65536) 1000) ∧ takenUp fn 0x14 tag (.functionReset v) s t))) ∧
    (s.dev.holdsNothing v → (s.dev.fn v).reset = .draining → ∃ t, exec (.drainEnd v) s = .next t ∧ (t.dev.fn v).reset = .function ∧
      (t.dev.fn v).gen = ((s.dev.fn v).gen + 1) % 65536) ∧
    (∀ e s44, s.dev.asks fn 0x34 1 s44 tag w → s.dev.epilogues.get? fn = some e → e.ready = true →
      ∃ t, exec (.epilogueResend fn) s = .next t ∧ answered fn 0x34 tag 0 (e.words fn) t)

/-- R274, R419: firmware reads the image of a context that is created or changed, makes the requester its owner once the image has come, and
takes a context out that nothing names, or waits until nothing does. R428-R430: the requests of the S4400 personality are answered in its
form, a filter request goes to the PF; enabling a queue makes its two Format A rings or shows an error, disabling it takes them out, but not
while a port names one as its exception ring (the model's reading, notes/assumptions/80.md); a soft reset resets the function. -/
def Obligations.ContextsAndS4400 : Prop :=
  (∀ (fn tag : Nat) (w : List Nat) (s : State), s.dev.phase = .running → (s.dev.fn fn).reset = .none →
     (∀ ty, s.dev.asks fn 0x20 6 false tag w → bits (reqWord w 1) 0 4 = ty → ty ∈ ctxTypes →
       (ty = 10 ∨ ty = 11 → s.dev.die.variant.hasSto = true) → s.dev.ctxs.size < 2 ^ 24 →
       (fn < 16 ∨ s.dev.ctxsOf fn < (s.dev.fn fn).props.ctxQuota) → s.dev.canIssue fn = true →
       ∃ t, exec (.contextCreate fn) s = .next t ∧ takenUp fn 0x20 tag (.context none ty) s t ∧ t.dev.ctxs = s.dev.ctxs) ∧
     (∀ c, s.dev.asks fn 0x20 6 false tag w → bits (reqWord w 1) 0 4 = c → c ∈ ctxTypes →
       (c = 10 ∨ c = 11 → s.dev.die.variant.hasSto = true) → s.dev.ctxs.size < 2 ^ 24 →
       (fn < 16 ∨ s.dev.ctxsOf fn < (s.dev.fn fn).props.ctxQuota) → s.dev.canIssue fn = false →
       ∃ t, exec (.contextCreate fn) s = .next t ∧ answered fn 0x20 tag 3 [] t ∧ t.dev.ctxs = s.dev.ctxs) ∧
     (∀ c, s.dev.asks fn 0x21 6 false tag w → bits (reqWord w 1) 0 24 = c → s.dev.ctxs.has c = true → s.dev.ctxOwner c = fn →
       s.dev.canIssue fn = true →
       ∃ t, exec (.contextChange fn) s = .next t ∧ takenUp fn 0x21 tag (.context (some c) (s.dev.ctxType c)) s t ∧ t.dev.ctxs = s.dev.ctxs) ∧
     (∀ link n r j x ty data, s.dev.hears fn → (s.dev.link link).reads.get? n = some r → r.dead = false → r.why = .context j 0 →
       (s.dev.link link).queue = [] → data.length = 256 → ty ∉ [8, 10] → s.dev.ctxs.size < 2 ^ 24 →
       x.fn = fn → x.want = 1 → x.pieces = {} → x.awaits = .context none ty →
       let u : State := { s with dev := { s.dev with jobs := ({} : NMap Job).set j x } }
       (leAt data 0 1 % 16 = ty → ∃ t c b, exec (.readCompletion link n .success data) u = .next t ∧ s.dev.ctxs.has c = false ∧
         t.dev.ctxs.get? c = some b ∧ leAt b 4 2 % 16384 = fn ∧ (∀ k, k < 256 → k ≠ 4 → k ≠ 5 → b.getD k 0 = data.getD k 0) ∧
         told fn [0x80 + 256 * (x.kind % 256) + 65536 * (x.tag % 65536), 0, c] t) ∧
       (leAt data 0 1 % 16 ≠ ty → ∃ t, exec (.readCompletion link n .success data) u = .next t ∧ t.dev.ctxs = s.dev.ctxs ∧
         told fn [0x80 + 256 * (x.kind % 256) + 65536 * (x.tag % 65536), 3] t)) ∧
     (∀ c, s.dev.asks fn 0x22 2 false tag w → bits (reqWord w 1) 0 24 = c → s.dev.ctxs.has c = true → s.dev.ctxOwner c = fn →
       (s.dev.ctxNamed c = false → ∃ t, exec (.contextDestroy fn) s = .next t ∧ t.dev.ctxs.has c = false ∧
         (s.dev.ctxType c ≠ 8 → s.dev.ctxType c ≠ 10 → answered fn 0x22 tag 0 [] t)) ∧
       (s.dev.ctxNamed c = true → ∃ t, exec (.contextDestroy fn) s = .next t ∧ t.dev.ctxs = s.dev.ctxs ∧
         takenUp fn 0x22 tag (.destroy c) s t))) ∧
  (∀ (fn q v tag : Nat) (w : List Nat) (s : State), s.dev.phase = .running →
     (s.dev.asks fn 0x60 1 true tag w → ∃ t, exec (.getConfiguration fn) s = .next t ∧ answeredS44 fn 0x60 tag (s.dev.s44Config fn) t) ∧
     (s.dev.asks fn 0x63 1 true tag w → ∃ t, exec (.linkQuery fn) s = .next t ∧
       answeredS44 fn 0x63 tag [(s.dev.s44LinkUp fn).toNat] t) ∧
     (∀ c k, (c, k) ∈ [(Instr.setMacFilter fn, 0x61), (.setVlanFilter fn, 0x62)] → s.dev.asks fn k 1 true tag w → s.dev.pfOf fn < 16 →
       s.dev.hears (s.dev.pfOf fn) → ∃ t, exec c s = .next t ∧ answeredS44 fn k tag [] t ∧
         told (s.dev.pfOf fn) ([0x48, fn] ++ (List.range 8).map (reqWord w)) t) ∧
     (s.dev.isS44 fn = true → s.dev.holdsNothing fn → (s.dev.fn fn).reset = .none → s.dev.epilogues.get? fn = none →
       ∃ t, exec (.s44SoftReset fn) s = .next t ∧ resetBegun fn 5 .function s t) ∧
     (s.dev.s44Open fn q = true → fn < 8208 → s.dev.on R.S44_Q_CTRL_enable fn (4 * q) = false → s.dev.s44Rings fn q = [] →
       (6 ≤ bits v 0 4 → bits v 0 4 ≤ 13 → 6 ≤ bits v 4 4 → bits v 4 4 ≤ 13 → bits v 8 11 < s.dev.msixSize fn →
         (∀ n, n < 4 → s.dev.s44Base fn q n % 4096 = 0) → s.dev.groupsOf fn ≠ [] → s.dev.ringRoom fn 2 = true →
         ∃ t a b x y, exec (.s44QueueEnable fn q v) s = .next t ∧ s.dev.rings.has a = false ∧ s.dev.rings.has b = false ∧ a ≠ b ∧
           t.dev.ring? a = some x ∧ t.dev.ring? b = some y ∧ x.fn = fn ∧ y.fn = fn ∧ x.kind = 0 ∧ y.kind = 1 ∧ x.formatA = true ∧
           y.formatA = true ∧ x.slot = 2 * q ∧ y.slot = 2 * q + 1 ∧ x.log2 = bits v 0 4 ∧ y.log2 = bits v 4 4 ∧
           x.descBase = s.dev.s44Base fn q 0 ∧ y.descBase = s.dev.s44Base fn q 2 ∧ t.dev.on R.S44_Q_CTRL_enable fn (4 * q) = true ∧
           t.dev.on R.S44_Q_CTRL_ready fn (4 * q) = true ∧ t.dev.on R.S44_Q_CTRL_error fn (4 * q) = false) ∧
       (bits v 0 4 < 6 ∨ 13 < bits v 0 4 ∨ bits v 4 4 < 6 ∨ 13 < bits v 4 4 ∨ s.dev.msixSize fn ≤ bits v 8 11 →
         ∃ t, exec (.s44QueueEnable fn q v) s = .next t ∧ t.dev.rings = s.dev.rings ∧
           t.dev.on R.S44_Q_CTRL_enable fn (4 * q) = false ∧ t.dev.on R.S44_Q_CTRL_error fn (4 * q) = true)) ∧
     (s.dev.s44Open fn q = true → fn < 8208 → s.dev.on R.S44_Q_CTRL_enable fn (4 * q) = true → s.dev.jobs = {} →
       (∀ r ∈ s.dev.s44Rings fn q, s.dev.isException r = false) → (∀ r ∈ s.dev.s44Rings fn q, ∃ g, s.dev.ringIdle r g ∧ g.fn = fn ∧ g.slot / 2 = q ∧ g.stopping = false) →
       ∃ t, exec (.s44QueueDisable fn q v) s = .next t ∧ (∀ r ∈ s.dev.s44Rings fn q, t.dev.ring? r = none) ∧
         t.dev.on R.S44_Q_CTRL_enable fn (4 * q) = false ∧ t.dev.on R.S44_Q_CTRL_ready fn (4 * q) = false) ∧
     (∀ r ∈ s.dev.s44Rings fn q, s.dev.isException r = true → s.dev.s44Open fn q = true → fn < 8208 → s.dev.jobs = {} →
       s.dev.on R.S44_Q_CTRL_enable fn (4 * q) = true → ∃ t, exec (.s44QueueDisable fn q v) s = .next t ∧ t.dev.rings = s.dev.rings ∧
         t.dev.on R.S44_Q_CTRL_enable fn (4 * q) = true))

/-- R431, R432: a sit-out takes a reserve position out at once, starts the grace of a Set position in service, takes out a crypto position
without a job, its site changing places with a fit reserve's, and takes out a core while four others stay; it is refused with status 6 where
too few would be left. A rejoin starts the unit's test; the test's end puts the unit into service, or leaves it out with a record. R433,
R434: an image that verifies stands in the inactive slot, marked trial with three starts; one that does not is answered with status 3. An
apply of the image in the inactive slot begins with step 2 where only the listed parts differ; one that stopped is taken up again where the
slot still holds its image. -/
def Obligations.InServiceChange : Prop :=
  (∀ (fn tag p : Nat) (w : List Nat) (s : State), s.dev.phase = .running →
     (s.dev.asks fn 0x30 2 false tag w → s.dev.serves fn →
       (namesUnit w 0x41 p → 32 ≤ p → p < 34 → (s.dev.setAt p).phase = .inService → ∃ t, exec (.sitOut fn) s = .next t ∧
         (t.dev.setAt p).phase = .out ∧ t.dev.keep.dirty = true ∧ answered fn 0x30 tag 0 [] t) ∧
       (namesUnit w 0x41 p → p < 32 → s.dev.hasSet p = true → (s.dev.setAt p).phase = .inService →
         (s.dev.power.satOut = [] → (∀ n, n < 32 → n ≠ p → (s.dev.setAt n).phase ≠ .grace) → s.dev.replays = [] →
           (s.dev.die.variant.sets / 2 + 1 ≤ s.dev.positionsFilled ∨
             (s.dev.fitReserve.isSome = true ∧ s.dev.die.variant.sets / 2 ≤ s.dev.positionsFilled)) → ∃ t, exec (.sitOut fn) s = .next t ∧ (t.dev.setAt p).phase = .grace ∧ takenUp fn 0x30 tag (.sitOut 0x41 p) s t) ∧
         (s.dev.power.satOut ≠ [] ∨ s.dev.positionsFilled < s.dev.die.variant.sets / 2 ∨
           (s.dev.fitReserve = none ∧ s.dev.positionsFilled < s.dev.die.variant.sets / 2 + 1) → ∃ t, exec (.sitOut fn) s = .next t ∧ t.dev.setPos = s.dev.setPos ∧
           answered fn 0x30 tag 6 [] t)) ∧
       (namesUnit w 0x50 p → s.dev.hasCry p = true → p < 48 → (s.dev.cryAt p).phase = .inService →
         (46 ≤ p → ∃ t, exec (.sitOut fn) s = .next t ∧ (t.dev.cryAt p).phase = .out ∧ answered fn 0x30 tag 0 [] t) ∧
         (p < 46 → s.dev.cryInService.length < 2 → ∃ t, exec (.sitOut fn) s = .next t ∧ t.dev.cryPos = s.dev.cryPos ∧
           answered fn 0x30 tag 6 [] t) ∧
         (p < 46 → 2 ≤ s.dev.cryInService.length → s.dev.items = {} →
           (s.dev.fitCry = none → ∃ t, exec (.sitOut fn) s = .next t ∧ (t.dev.cryAt p).phase = .out ∧
             (t.dev.cryAt p).site = (s.dev.cryAt p).site ∧ answered fn 0x30 tag 0 [] t) ∧
           (∀ b, s.dev.fitCry = some b → ∃ t, exec (.sitOut fn) s = .next t ∧ (t.dev.cryAt p).phase = .inService ∧
             (t.dev.cryAt p).site = (s.dev.cryAt b).site ∧ (t.dev.cryAt b).phase = .out ∧
             (t.dev.cryAt b).site = (s.dev.cryAt p).site ∧ answered fn 0x30 tag 0 [] t))) ∧
       (namesUnit w 0xB0 p → p < 8 → (s.dev.cores.getD p {}).out = false →
         (5 ≤ s.dev.coresIn.length → ∃ t, exec (.sitOut fn) s = .next t ∧ (t.dev.cores.getD p {}).out = true ∧
           answered fn 0x30 tag 0 [] t) ∧
         (s.dev.coresIn.length < 5 → ∃ t, exec (.sitOut fn) s = .next t ∧ t.dev.cores = s.dev.cores ∧ answered fn 0x30 tag 6 [] t))) ∧
     (s.dev.asks fn 0x31 2 false tag w → s.dev.serves fn →
       (namesUnit w 0x41 p → p < 34 → s.dev.hasSet p = true → (s.dev.setAt p).phase = .out → (s.dev.setAt p).thermal = false →
         ∃ t, exec (.rejoin fn) s = .next t ∧ (t.dev.setAt p).phase = .testing ∧ takenUp fn 0x31 tag (.rejoin 0x41 p) s t) ∧
       (namesUnit w 0x41 p → p < 34 → s.dev.hasSet p = true → (s.dev.setAt p).phase = .out → (s.dev.setAt p).thermal = true →
         ∃ t, exec (.rejoin fn) s = .next t ∧ t.dev.setPos = s.dev.setPos ∧ answered fn 0x31 tag 4 [] t) ∧
       (namesUnit w 0x50 p → p < 48 → s.dev.hasCry p = true → (s.dev.cryAt p).phase = .out →
         ∃ t, exec (.rejoin fn) s = .next t ∧ (t.dev.cryAt p).phase = .testing ∧ takenUp fn 0x31 tag (.rejoin 0x50 p) s t) ∧
       (namesUnit w 0xB0 p → p < 8 → (s.dev.cores.getD p {}).out = true → (s.dev.cores.getD p {}).testing = false →
         ∃ t, exec (.rejoin fn) s = .next t ∧ (t.dev.cores.getD p {}).testing = true ∧ takenUp fn 0x31 tag (.rejoin 0xB0 p) s t)) ∧
     (s.dev.jobs = {} → s.dev.apply = none →
       (p < 34 → (s.dev.setAt p).phase = .testing →
         (∃ t, exec (.rejoinTestDone 0x41 p true) s = .next t ∧ (t.dev.setAt p).phase = .inService ∧
           (t.dev.setAt p).site = (s.dev.setAt p).site) ∧
         (∃ t, exec (.rejoinTestDone 0x41 p false) s = .next t ∧ (t.dev.setAt p).phase = .out ∧ recorded s t)) ∧
       (p < 48 → (s.dev.cryAt p).phase = .testing →
         (∃ t, exec (.rejoinTestDone 0x50 p true) s = .next t ∧ (t.dev.cryAt p).phase = .inService ∧
           t.dev.on R.CRY_INST_STATUS_kat_pass p = true) ∧
         (∃ t, exec (.rejoinTestDone 0x50 p false) s = .next t ∧ (t.dev.cryAt p).phase = .out ∧
           t.dev.on R.CRY_INST_STATUS_kat_pass p = false ∧ recorded s t)) ∧
       (p < 8 → (s.dev.cores.getD p {}).testing = true →
         (∃ t, exec (.rejoinTestDone 0xB0 p true) s = .next t ∧ (t.dev.cores.getD p {}).out = false ∧
           (t.dev.cores.getD p {}).testing = false) ∧
         (∃ t, exec (.rejoinTestDone 0xB0 p false) s = .next t ∧ (t.dev.cores.getD p {}).out = (s.dev.cores.getD p {}).out ∧
           (t.dev.cores.getD p {}).testing = false ∧ recorded s t)))) ∧
  (∀ (fn tag : Nat) (w : List Nat) (img : Image) (s : State), s.dev.phase = .running → s.dev.serves fn →
     (s.dev.asks fn 0x32 4 false tag w → s.dev.canIssue fn = false → ∃ t, exec (.imageStage fn img) s = .next t ∧ t.flash = s.flash ∧
       answered fn 0x32 tag 3 [] t) ∧
     (∀ c, s.dev.asks fn 0x32 4 false tag w → s.dev.canIssue fn = true → s.flash.dir = some c →
       (c.slotSize < reqWord w 3 → ∃ t, exec (.imageStage fn img) s = .next t ∧ t.flash = s.flash ∧ answered fn 0x32 tag 3 [] t) ∧
       (reqWord w 3 ≤ c.slotSize → img.imageBytes ≤ reqWord w 3 → verifies s.dev.die.variant s.fuses c.slotSize img = true →
         ∃ t, exec (.imageStage fn img) s = .next t ∧
           t.flash = (s.writeSlot c img).flash.writeDir { c with trial := true, trialLeft := 3 } ∧ t.dev.boot.onTrial = false ∧
           t.dev.boot.image = s.dev.boot.image ∧ answered fn 0x32 tag 0 [] t) ∧
       (reqWord w 3 ≤ c.slotSize → verifies s.dev.die.variant s.fuses c.slotSize img = false → ∃ t, exec (.imageStage fn img) s = .next t ∧
         t.flash = (s.writeSlot c img).flash ∧ t.dev.boot.onTrial = false ∧ answered fn 0x32 tag 3 [] t)) ∧
     (s.dev.asks fn 0x33 1 false tag w →
       (∀ c new old, s.dev.apply = none → s.flash.dir = some c → s.flash.verified s.dev.die.variant s.fuses c (1 - c.active) = some new →
         s.dev.boot.image = some old →
         (applyOk old new = true → ∃ t a, exec (.imageApply fn) s = .next t ∧ t.dev.apply = some a ∧ a.step = 2 ∧ a.todo = List.range 8 ∧
           a.image = new ∧ a.fn = fn ∧ a.tag = tag ∧ a.stopped = false ∧ t.flash = s.flash) ∧
         (applyOk old new = false → ∃ t, exec (.imageApply fn) s = .next t ∧ t.dev.apply = none ∧ answered fn 0x33 tag 3 [] t)) ∧
       (∀ c a old, s.dev.apply = some a → s.flash.dir = some c →
         s.flash.verified s.dev.die.variant s.fuses c (1 - c.active) = some a.image → s.dev.boot.image = some old →
         applyOk old a.image = true → ∃ t, exec (.imageApply fn) s = .next t ∧
           t.dev.apply = some { a with fn := fn, tag := tag, stopped := false })))

/-- R460, R464, R470: training ends at 16 or, where allowed, 8 lanes, else it is tried again after 10 ms, up to the limit; an acknowledgement
that does not come makes the link retrain, or takes it down at the limit; a peer that goes down takes this end down, and it trains again.
R461-R466: what a flit's turn sends, oldest of a resend first, then messages, then streams, then an idle flit; what a flit that comes in
order does with its stream's window, its channel, the acknowledged flits and a nak; a flit that is not taken is answered by one nak.
R467-R469: a transfer request takes a stream and a channel and waits for its match; while the port is not up it ends with outcome 2; its
requester cancels it, another is refused; the match that does not come ends it with outcome 6. -/
def Obligations.StreamPort : Prop :=
  (∀ s : State, s.dev.phase = .running →
     (s.dev.stpState = 1 ∨ s.dev.stpState = 4 → s.dev.stp.waits = false →
       (∃ t, exec (.stpTrainingDone 16) s = .next t ∧ t.dev.stpState = 2 ∧ t.dev.on (stpCauses.bit 0) = true ∧
         (s.dev.stpState = 1 → t.dev.rd R.STP_STATUS_credits_free = 2032 ∧ t.dev.stp.kept = []) ∧
         (s.dev.stpState = 4 → t.dev.stp.kept = s.dev.stp.kept ∧ t.dev.stp.resend = s.dev.stp.kept)) ∧
       (s.dev.on R.STP_CTRL_allow_x8 = true → ∃ t, exec (.stpTrainingDone 8) s = .next t ∧ t.dev.stpState = 3 ∧
         t.dev.on (stpCauses.bit 3) = true) ∧
       (∀ width, width ≠ 16 → width ≠ 8 ∨ s.dev.on R.STP_CTRL_allow_x8 = false → ∃ t, exec (.stpTrainingDone width) s = .next t ∧
         t.dev.stpState = s.dev.stpState ∧ t.dev.stp.waits = true ∧ t.dev.stp.fails = s.dev.stp.fails + 1)) ∧
     (s.dev.stp.waits = true → s.dev.stpSane →
       (s.dev.stp.fails < s.dev.retrainLimit → ∃ t, exec .stpTrainingRetry s = .next t ∧ t.dev.stp.waits = false ∧
         t.dev.regs = s.dev.regs) ∧
       (s.dev.retrainLimit ≤ s.dev.stp.fails → ∃ t, exec .stpTrainingRetry s = .next t ∧ t.dev.stpState = 5 ∧ t.dev.stp.xfers = [])) ∧
     (∀ peer big f, s.dev.stpState = 1 ∨ s.dev.stpState = 4 → s.dev.stp.waits = false → ∃ t, exec (.stpControlFlit f peer big) s = .next t ∧
       t.dev.rd R.STP_PEER_ID_peer_id = peer % 2 ^ 32 ∧ t.dev.on R.STP_STATUS_peer_s9640 = big) ∧
     (s.dev.stpRuns = true → s.dev.stpSane → s.dev.stp.kept ≠ [] →
       let recent := (s.dev.uptime :: s.dev.stp.retrains).filter (fun x => s.dev.uptime < x + 1000)
       ∃ t, exec .stpAckTimeout s = .next t ∧ t.dev.stpState = (if s.dev.retrainLimit < recent.length then 5 else 4) ∧
         t.dev.rd R.STP_RETRAINS_count = (s.dev.rd R.STP_RETRAINS_count + 1) % 2 ^ R.STP_RETRAINS_count.width) ∧
     (s.dev.stpUp = true → s.dev.stpSane → ∃ t, exec .stpPeerDown s = .next t ∧ t.dev.stp.xfers = [] ∧ t.dev.stp.kept = [] ∧
       t.dev.stpState = (if s.dev.die.variant.hasStp && s.dev.on R.STP_CTRL_pair_enable && s.dev.on R.STP_CTRL_link_enable &&
         s.dev.domainOn 42 then 1 else 5))) ∧
  (∀ (f : Flit) (s : State), s.dev.phase = .running → s.dev.stpRuns = true →
     (∀ g l, s.dev.stp.resend = g :: l → ∃ t h, exec .stpFlitSend s = .next t ∧ t.dev.stp.resend = l ∧ t.dev.stp.fseq = s.dev.stp.fseq ∧
       t.dev.out = s.dev.out ++ [.flitOut h] ∧ h.fseq = g.fseq ∧ h.kind = g.kind ∧ h.payload = g.payload ∧ h.stream = g.stream) ∧
     (s.dev.stp.resend = [] → 512 ≤ s.dev.stp.kept.length → ∃ t h, exec .stpFlitSend s = .next t ∧ t.dev.stp.kept = s.dev.stp.kept ∧
       t.dev.stp.fseq = s.dev.stp.fseq ∧ t.dev.out = s.dev.out ++ [.flitOut h] ∧ h.kind = 0) ∧
     (s.dev.stp.resend = [] → s.dev.stp.kept.length < 512 →
       (∀ m, s.dev.nextMsg = some m → 0 < s.dev.stp.msgCredits → ∃ t, exec .stpFlitSend s = .next t ∧
         t.dev.stp.kept = s.dev.stp.kept ++ [{ kind := 3, payload := m.payload, fseq := s.dev.stp.fseq }] ∧
         t.dev.stp.fseq = (s.dev.stp.fseq + 1) % 4096 ∧ t.dev.stp.msgCredits = s.dev.stp.msgCredits - 1) ∧
       (∀ x, s.dev.nextMsg = none ∨ s.dev.stp.msgCredits = 0 → s.dev.nextSend = some x →
         let b := (s.dev.stream x.key).staged.take 240
         ∃ t n, exec .stpFlitSend s = .next t ∧ x.stream = some n ∧ t.dev.stp.fseq = (s.dev.stp.fseq + 1) % 4096 ∧
         t.dev.stp.kept = s.dev.stp.kept ++
           [{ kind := if s.dev.sentOf x + b.length = x.length then 2 else 1, stream := n, payload := b, fseq := s.dev.stp.fseq }] ∧
         (t.dev.stream x.key).credits = (s.dev.stream x.key).credits - 1 ∧
         (t.dev.stream x.key).staged = (s.dev.stream x.key).staged.drop 240) ∧
       (s.dev.nextMsg = none ∨ s.dev.stp.msgCredits = 0 → s.dev.nextSend = none → ∃ t h, exec .stpFlitSend s = .next t ∧ t.dev.stp.kept = s.dev.stp.kept ∧
         t.dev.stp.fseq = s.dev.stp.fseq ∧ t.dev.out = s.dev.out ++ [.flitOut h] ∧ h.kind = 0 ∧ h.fseq = s.dev.stp.fseq)) ∧
     (∀ x n, s.dev.takesFlit f → s.dev.stp.xfers = [x] → x.receive = true → x.running = true → x.stream = some n → f.stream = n →
       let y := s.dev.stream x.key
       (y.flits.length + y.owed < y.credits → y.moved + f.payload.length < x.length → ∃ t, exec (.stpDataFlit f) s = .next t ∧
         (t.dev.stream x.key).window = y.window ++ f.payload ∧ (t.dev.stream x.key).moved = y.moved + f.payload.length ∧
         t.dev.rd64 R.STP_RX_FLITS_LO_flits R.STP_RX_FLITS_HI_flits =
           (s.dev.rd64 R.STP_RX_FLITS_LO_flits R.STP_RX_FLITS_HI_flits + 1) % 2 ^ 64 ∧ t.dev.stp.expect = (s.dev.stp.expect + 1) % 4096) ∧
       (y.flits.length + y.owed < y.credits → y.moved + f.payload.length = x.length → ∃ t, exec (.stpDataLastFlit f) s = .next t ∧
         (t.dev.stream x.key).window = y.window ++ f.payload ∧ (t.dev.stream x.key).moved = x.length ∧ t.dev.stp.xfers = [x]) ∧
       (y.flits.length + y.owed < y.credits → y.moved + f.payload.length < x.length → ∃ t, exec (.stpDataLastFlit f) s = .next t ∧
         t.dev.stp.xfers = []) ∧
       (y.credits ≤ y.flits.length + y.owed → ∃ t, exec (.stpDataFlit f) s = .next t ∧ t.dev.stp.xfers = [])) ∧
     (∀ c, s.dev.takesFlit f → bits (leAt f.payload 0 4) 0 15 = c → c < 18432 →
       (∀ m x, hasBit (leAt f.payload 0 4) 15 = true → s.dev.binding c = some (x, midStp) → (s.dev.chan c).held = some m →
         m.seq = leAt f.payload 4 2 → s.dev.stp.outbox = [] → ∃ t, exec (.stpMessageFlit f) s = .next t ∧ (t.dev.chan c).held = none ∧
         ackShown c (leAt f.payload 6 2) m.seq t) ∧
       (∀ r, hasBit (leAt f.payload 0 4) 15 = false → s.dev.binding c = some (midStp, r) → isFnMid r = true ∨ isCoreMid r = true →
         (s.dev.chan c).held = none → leAt f.payload 8 4 % 256 < 0x52 → ∃ t m, exec (.stpMessageFlit f) s = .next t ∧
         (t.dev.chan c).held = some m ∧ m.len = bits (leAt f.payload 0 4) 16 7 ∧
         m.words = cutWords ((List.range 16).map (fun n => leAt f.payload (8 + 4 * n) 4)) m.len)) ∧
     (f.crcOk = true → f.fseq = s.dev.stp.expect →
       (∀ g l, s.dev.stp.kept = g :: l → f.ackValid = true → f.ackSeq = g.fseq → f.nak = false → ∃ t, exec (.stpIdleFlit f) s = .next t ∧
         t.dev.stp.kept = l ∧ t.dev.stp.expect = s.dev.stp.expect) ∧
       (f.ackValid = false → f.nak = true → s.dev.stp.resends < s.dev.replayLimit → ∃ t, exec (.stpIdleFlit f) s = .next t ∧
         t.dev.stp.resend = s.dev.stp.kept ∧ t.dev.stp.kept = s.dev.stp.kept ∧
         t.dev.rd R.STP_REPLAYS_count = (s.dev.rd R.STP_REPLAYS_count + 1) % 2 ^ R.STP_REPLAYS_count.width)) ∧
     (s.dev.flitGood f = false → s.dev.stp.nakOut = false → ∃ t, exec (.stpFlitDiscard f) s = .next t ∧ t.dev.stp.nakOut = true ∧
       t.dev.stp.nakDue = true ∧ t.dev.stp.expect = s.dev.stp.expect ∧
       (f.crcOk = false → t.dev.on (stpCauses.bit 4) = true ∧
         t.dev.rd R.STP_CRC_ERRORS_count = (s.dev.rd R.STP_CRC_ERRORS_count + 1) % 2 ^ R.STP_CRC_ERRORS_count.width) ∧
       (f.crcOk = true → t.dev.on (stpCauses.bit 7) = true ∧
         t.dev.rd R.STP_PROTO_ERRORS_count = (s.dev.rd R.STP_PROTO_ERRORS_count + 1) % 2 ^ R.STP_PROTO_ERRORS_count.width))) ∧
  (∀ (fn tag : Nat) (w : List Nat) (s : State), s.dev.phase = .running →
     (s.dev.asks fn 0x50 6 false tag w → s.dev.die.variant.hasStp = true → fn < 16 → s.dev.reaches fn 213 = true → reqWord w 5 ≠ 0 →
       (∀ x ∈ s.dev.stp.xfers, x.id ≠ reqWord w 2) →
       (s.dev.stpUp = false → ∃ t, exec (.bulkTransfer fn) s = .next t ∧ t.dev.stp.xfers = s.dev.stp.xfers ∧
         t.dev.on (stpCauses.bit 6) = true ∧ answered fn 0x50 tag 4 [0, 0, 2] t) ∧
       (s.dev.stpUp = true → s.dev.freeStream = none ∨ s.dev.freeStpChannel = none → ∃ t, exec (.bulkTransfer fn) s = .next t ∧
         t.dev.stp.xfers = s.dev.stp.xfers ∧ answered fn 0x50 tag 2 [] t) ∧
       (∀ n c, s.dev.stpUp = true → s.dev.freeStream = some n → s.dev.freeStpChannel = some c →
         (hasBit (reqWord w 1) 0 = false ∨ ∀ h ∈ s.dev.stp.heard, h.1 ≠ reqWord w 2) → ∃ t x, exec (.bulkTransfer fn) s = .next t ∧
         t.dev.stp.xfers = s.dev.stp.xfers ++ [x] ∧ x.fn = fn ∧ x.tag = tag ∧ x.id = reqWord w 2 ∧ x.length = reqWord w 5 ∧
         x.addr = reqWord w 3 + 2 ^ 32 * reqWord w 4 ∧ x.receive = hasBit (reqWord w 1) 0 ∧ x.stream = some n ∧ x.channel = c ∧
         x.running = false ∧ t.dev.rd R.STP_STREAM_STATE_state 0 (16 * n) = 1)) ∧
     (∀ x, s.dev.asks fn 0x51 3 false tag w → s.dev.die.variant.hasStp = true → fn < 16 → s.dev.reaches fn 213 = true →
       s.dev.stp.xfers = [x] → x.id = reqWord w 2 →
       (x.fn ≠ fn → ∃ t, exec (.cancel fn) s = .next t ∧ t.dev.stp.xfers = [x] ∧ answered fn 0x51 tag 1 [] t) ∧
       (∀ n, x.fn = fn → x.stream = some n → n < 16 → ∃ t, exec (.cancel fn) s = .next t ∧ t.dev.stp.xfers = [] ∧
         t.dev.rd R.STP_STREAM_STATE_outcome 0 (16 * n) = 3)) ∧
     (∀ x n, s.dev.stp.xfers = [x] → x.running = false → x.stream = some n → n < 16 → x.fn < 8208 → ∃ t, exec (.stpMatchTimeout n) s = .next t ∧
       t.dev.stp.xfers = [] ∧ t.dev.rd R.STP_STREAM_STATE_outcome 0 (16 * n) = 6 ∧ t.dev.on (stpCauses.bit 9) = true))
end

