-- ==== Sys2Proof/Laws/State.lean ====
section
/-!
SUPPORT. One lemma per field per update of the device, true by unfolding, for the simplifier; and what the lifts to the whole state
answer.
-/

namespace Sys2Proof.Machine

variable (d : Dev)

/-! ## emit -/

@[simp] theorem Dev.emit_phase (o : Output) : (d.emit o).phase = d.phase := rfl
@[simp] theorem Dev.emit_railsGood (o : Output) : (d.emit o).railsGood = d.railsGood := rfl
@[simp] theorem Dev.emit_resetLow (o : Output) : (d.emit o).resetLow = d.resetLow := rfl
@[simp] theorem Dev.emit_testen (o : Output) : (d.emit o).testen = d.testen := rfl
@[simp] theorem Dev.emit_regs (o : Output) : (d.emit o).regs = d.regs := rfl
@[simp] theorem Dev.emit_freeCtr (o : Output) : (d.emit o).freeCtr = d.freeCtr := rfl
@[simp] theorem Dev.emit_die (o : Output) : (d.emit o).die = d.die := rfl
@[simp] theorem Dev.emit_boot (o : Output) : (d.emit o).boot = d.boot := rfl
@[simp] theorem Dev.emit_keep (o : Output) : (d.emit o).keep = d.keep := rfl
@[simp] theorem Dev.emit_card (o : Output) : (d.emit o).card = d.card := rfl
@[simp] theorem Dev.emit_setPos (o : Output) : (d.emit o).setPos = d.setPos := rfl
@[simp] theorem Dev.emit_cryPos (o : Output) : (d.emit o).cryPos = d.cryPos := rfl
@[simp] theorem Dev.emit_power (o : Output) : (d.emit o).power = d.power := rfl
@[simp] theorem Dev.emit_links (o : Output) : (d.emit o).links = d.links := rfl
@[simp] theorem Dev.emit_funcs (o : Output) : (d.emit o).funcs = d.funcs := rfl
@[simp] theorem Dev.emit_chans (o : Output) : (d.emit o).chans = d.chans := rfl
@[simp] theorem Dev.emit_routes (o : Output) : (d.emit o).routes = d.routes := rfl
@[simp] theorem Dev.emit_cores (o : Output) : (d.emit o).cores = d.cores := rfl
@[simp] theorem Dev.emit_escalations (o : Output) : (d.emit o).escalations = d.escalations := rfl
@[simp] theorem Dev.emit_rings (o : Output) : (d.emit o).rings = d.rings := rfl
@[simp] theorem Dev.emit_groups (o : Output) : (d.emit o).groups = d.groups := rfl
@[simp] theorem Dev.emit_ringErrors (o : Output) : (d.emit o).ringErrors = d.ringErrors := rfl
@[simp] theorem Dev.emit_ctxCache (o : Output) : (d.emit o).ctxCache = d.ctxCache := rfl
@[simp] theorem Dev.emit_ctxSnap (o : Output) : (d.emit o).ctxSnap = d.ctxSnap := rfl
@[simp] theorem Dev.emit_items (o : Output) : (d.emit o).items = d.items := rfl
@[simp] theorem Dev.emit_nextItem (o : Output) : (d.emit o).nextItem = d.nextItem := rfl
@[simp] theorem Dev.emit_admitted (o : Output) : (d.emit o).admitted = d.admitted := rfl
@[simp] theorem Dev.emit_dispatched (o : Output) : (d.emit o).dispatched = d.dispatched := rfl
@[simp] theorem Dev.emit_failures (o : Output) : (d.emit o).failures = d.failures := rfl
@[simp] theorem Dev.emit_replays (o : Output) : (d.emit o).replays = d.replays := rfl
@[simp] theorem Dev.emit_epilogues (o : Output) : (d.emit o).epilogues = d.epilogues := rfl
@[simp] theorem Dev.emit_credits (o : Output) : (d.emit o).credits = d.credits := rfl
@[simp] theorem Dev.emit_sched (o : Output) : (d.emit o).sched = d.sched := rfl
@[simp] theorem Dev.emit_macs (o : Output) : (d.emit o).macs = d.macs := rfl
@[simp] theorem Dev.emit_tempo (o : Output) : (d.emit o).tempo = d.tempo := rfl
@[simp] theorem Dev.emit_tenants (o : Output) : (d.emit o).tenants = d.tenants := rfl
@[simp] theorem Dev.emit_mtb (o : Output) : (d.emit o).mtb = d.mtb := rfl
@[simp] theorem Dev.emit_ctxs (o : Output) : (d.emit o).ctxs = d.ctxs := rfl
@[simp] theorem Dev.emit_ctxKeys (o : Output) : (d.emit o).ctxKeys = d.ctxKeys := rfl
@[simp] theorem Dev.emit_ctxFailed (o : Output) : (d.emit o).ctxFailed = d.ctxFailed := rfl
@[simp] theorem Dev.emit_crySnap (o : Output) : (d.emit o).crySnap = d.crySnap := rfl
@[simp] theorem Dev.emit_idents (o : Output) : (d.emit o).idents = d.idents := rfl
@[simp] theorem Dev.emit_counters (o : Output) : (d.emit o).counters = d.counters := rfl
@[simp] theorem Dev.emit_cells (o : Output) : (d.emit o).cells = d.cells := rfl
@[simp] theorem Dev.emit_sites (o : Output) : (d.emit o).sites = d.sites := rfl
@[simp] theorem Dev.emit_jobs (o : Output) : (d.emit o).jobs = d.jobs := rfl
@[simp] theorem Dev.emit_nextJob (o : Output) : (d.emit o).nextJob = d.nextJob := rfl
@[simp] theorem Dev.emit_apply (o : Output) : (d.emit o).apply = d.apply := rfl
@[simp] theorem Dev.emit_drains (o : Output) : (d.emit o).drains = d.drains := rfl
@[simp] theorem Dev.emit_qps (o : Output) : (d.emit o).qps = d.qps := rfl
@[simp] theorem Dev.emit_conns (o : Output) : (d.emit o).conns = d.conns := rfl
@[simp] theorem Dev.emit_nvmes (o : Output) : (d.emit o).nvmes = d.nvmes := rfl
@[simp] theorem Dev.emit_dma (o : Output) : (d.emit o).dma = d.dma := rfl
@[simp] theorem Dev.emit_region (o : Output) : (d.emit o).region = d.region := rfl
@[simp] theorem Dev.emit_movers (o : Output) : (d.emit o).movers = d.movers := rfl
@[simp] theorem Dev.emit_stp (o : Output) : (d.emit o).stp = d.stp := rfl
@[simp] theorem Dev.emit_dbg (o : Output) : (d.emit o).dbg = d.dbg := rfl
@[simp] theorem Dev.emit_eid (o : Output) : (d.emit o).eid = d.eid := rfl
@[simp] theorem Dev.emit_macCounts (o : Output) : (d.emit o).macCounts = d.macCounts := rfl

/-! ## wr -/

@[simp] theorem Dev.wr_phase (f : Field) (v i a : Nat) : (d.wr f v i a).phase = d.phase := rfl
@[simp] theorem Dev.wr_railsGood (f : Field) (v i a : Nat) : (d.wr f v i a).railsGood = d.railsGood := rfl
@[simp] theorem Dev.wr_resetLow (f : Field) (v i a : Nat) : (d.wr f v i a).resetLow = d.resetLow := rfl
@[simp] theorem Dev.wr_testen (f : Field) (v i a : Nat) : (d.wr f v i a).testen = d.testen := rfl
@[simp] theorem Dev.wr_freeCtr (f : Field) (v i a : Nat) : (d.wr f v i a).freeCtr = d.freeCtr := rfl
@[simp] theorem Dev.wr_out (f : Field) (v i a : Nat) : (d.wr f v i a).out = d.out := rfl
@[simp] theorem Dev.wr_die (f : Field) (v i a : Nat) : (d.wr f v i a).die = d.die := rfl
@[simp] theorem Dev.wr_boot (f : Field) (v i a : Nat) : (d.wr f v i a).boot = d.boot := rfl
@[simp] theorem Dev.wr_card (f : Field) (v i a : Nat) : (d.wr f v i a).card = d.card := rfl
@[simp] theorem Dev.wr_setPos (f : Field) (v i a : Nat) : (d.wr f v i a).setPos = d.setPos := rfl
@[simp] theorem Dev.wr_cryPos (f : Field) (v i a : Nat) : (d.wr f v i a).cryPos = d.cryPos := rfl
@[simp] theorem Dev.wr_power (f : Field) (v i a : Nat) : (d.wr f v i a).power = d.power := rfl
@[simp] theorem Dev.wr_links (f : Field) (v i a : Nat) : (d.wr f v i a).links = d.links := rfl
@[simp] theorem Dev.wr_funcs (f : Field) (v i a : Nat) : (d.wr f v i a).funcs = d.funcs := rfl
@[simp] theorem Dev.wr_chans (f : Field) (v i a : Nat) : (d.wr f v i a).chans = d.chans := rfl
@[simp] theorem Dev.wr_routes (f : Field) (v i a : Nat) : (d.wr f v i a).routes = d.routes := rfl
@[simp] theorem Dev.wr_cores (f : Field) (v i a : Nat) : (d.wr f v i a).cores = d.cores := rfl
@[simp] theorem Dev.wr_escalations (f : Field) (v i a : Nat) : (d.wr f v i a).escalations = d.escalations := rfl
@[simp] theorem Dev.wr_rings (f : Field) (v i a : Nat) : (d.wr f v i a).rings = d.rings := rfl
@[simp] theorem Dev.wr_groups (f : Field) (v i a : Nat) : (d.wr f v i a).groups = d.groups := rfl
@[simp] theorem Dev.wr_ringErrors (f : Field) (v i a : Nat) : (d.wr f v i a).ringErrors = d.ringErrors := rfl
@[simp] theorem Dev.wr_ctxCache (f : Field) (v i a : Nat) : (d.wr f v i a).ctxCache = d.ctxCache := rfl
@[simp] theorem Dev.wr_ctxSnap (f : Field) (v i a : Nat) : (d.wr f v i a).ctxSnap = d.ctxSnap := rfl
@[simp] theorem Dev.wr_items (f : Field) (v i a : Nat) : (d.wr f v i a).items = d.items := rfl
@[simp] theorem Dev.wr_nextItem (f : Field) (v i a : Nat) : (d.wr f v i a).nextItem = d.nextItem := rfl
@[simp] theorem Dev.wr_admitted (f : Field) (v i a : Nat) : (d.wr f v i a).admitted = d.admitted := rfl
@[simp] theorem Dev.wr_dispatched (f : Field) (v i a : Nat) : (d.wr f v i a).dispatched = d.dispatched := rfl
@[simp] theorem Dev.wr_failures (f : Field) (v i a : Nat) : (d.wr f v i a).failures = d.failures := rfl
@[simp] theorem Dev.wr_replays (f : Field) (v i a : Nat) : (d.wr f v i a).replays = d.replays := rfl
@[simp] theorem Dev.wr_epilogues (f : Field) (v i a : Nat) : (d.wr f v i a).epilogues = d.epilogues := rfl
@[simp] theorem Dev.wr_credits (f : Field) (v i a : Nat) : (d.wr f v i a).credits = d.credits := rfl
@[simp] theorem Dev.wr_sched (f : Field) (v i a : Nat) : (d.wr f v i a).sched = d.sched := rfl
@[simp] theorem Dev.wr_macs (f : Field) (v i a : Nat) : (d.wr f v i a).macs = d.macs := rfl
@[simp] theorem Dev.wr_tempo (f : Field) (v i a : Nat) : (d.wr f v i a).tempo = d.tempo := rfl
@[simp] theorem Dev.wr_tenants (f : Field) (v i a : Nat) : (d.wr f v i a).tenants = d.tenants := rfl
@[simp] theorem Dev.wr_mtb (f : Field) (v i a : Nat) : (d.wr f v i a).mtb = d.mtb := rfl
@[simp] theorem Dev.wr_ctxs (f : Field) (v i a : Nat) : (d.wr f v i a).ctxs = d.ctxs := rfl
@[simp] theorem Dev.wr_ctxKeys (f : Field) (v i a : Nat) : (d.wr f v i a).ctxKeys = d.ctxKeys := rfl
@[simp] theorem Dev.wr_ctxFailed (f : Field) (v i a : Nat) : (d.wr f v i a).ctxFailed = d.ctxFailed := rfl
@[simp] theorem Dev.wr_crySnap (f : Field) (v i a : Nat) : (d.wr f v i a).crySnap = d.crySnap := rfl
@[simp] theorem Dev.wr_idents (f : Field) (v i a : Nat) : (d.wr f v i a).idents = d.idents := rfl
@[simp] theorem Dev.wr_counters (f : Field) (v i a : Nat) : (d.wr f v i a).counters = d.counters := rfl
@[simp] theorem Dev.wr_cells (f : Field) (v i a : Nat) : (d.wr f v i a).cells = d.cells := rfl
@[simp] theorem Dev.wr_sites (f : Field) (v i a : Nat) : (d.wr f v i a).sites = d.sites := rfl
@[simp] theorem Dev.wr_jobs (f : Field) (v i a : Nat) : (d.wr f v i a).jobs = d.jobs := rfl
@[simp] theorem Dev.wr_nextJob (f : Field) (v i a : Nat) : (d.wr f v i a).nextJob = d.nextJob := rfl
@[simp] theorem Dev.wr_apply (f : Field) (v i a : Nat) : (d.wr f v i a).apply = d.apply := rfl
@[simp] theorem Dev.wr_drains (f : Field) (v i a : Nat) : (d.wr f v i a).drains = d.drains := rfl
@[simp] theorem Dev.wr_qps (f : Field) (v i a : Nat) : (d.wr f v i a).qps = d.qps := rfl
@[simp] theorem Dev.wr_conns (f : Field) (v i a : Nat) : (d.wr f v i a).conns = d.conns := rfl
@[simp] theorem Dev.wr_nvmes (f : Field) (v i a : Nat) : (d.wr f v i a).nvmes = d.nvmes := rfl
@[simp] theorem Dev.wr_dma (f : Field) (v i a : Nat) : (d.wr f v i a).dma = d.dma := rfl
@[simp] theorem Dev.wr_region (f : Field) (v i a : Nat) : (d.wr f v i a).region = d.region := rfl
@[simp] theorem Dev.wr_movers (f : Field) (v i a : Nat) : (d.wr f v i a).movers = d.movers := rfl
@[simp] theorem Dev.wr_stp (f : Field) (v i a : Nat) : (d.wr f v i a).stp = d.stp := rfl
@[simp] theorem Dev.wr_dbg (f : Field) (v i a : Nat) : (d.wr f v i a).dbg = d.dbg := rfl
@[simp] theorem Dev.wr_eid (f : Field) (v i a : Nat) : (d.wr f v i a).eid = d.eid := rfl
@[simp] theorem Dev.wr_macCounts (f : Field) (v i a : Nat) : (d.wr f v i a).macCounts = d.macCounts := rfl

/-! ## onFn -/

@[simp] theorem Dev.onFn_phase (n : Nat) (g : Func → Func) : (d.onFn n g).phase = d.phase := rfl
@[simp] theorem Dev.onFn_railsGood (n : Nat) (g : Func → Func) : (d.onFn n g).railsGood = d.railsGood := rfl
@[simp] theorem Dev.onFn_resetLow (n : Nat) (g : Func → Func) : (d.onFn n g).resetLow = d.resetLow := rfl
@[simp] theorem Dev.onFn_testen (n : Nat) (g : Func → Func) : (d.onFn n g).testen = d.testen := rfl
@[simp] theorem Dev.onFn_regs (n : Nat) (g : Func → Func) : (d.onFn n g).regs = d.regs := rfl
@[simp] theorem Dev.onFn_freeCtr (n : Nat) (g : Func → Func) : (d.onFn n g).freeCtr = d.freeCtr := rfl
@[simp] theorem Dev.onFn_out (n : Nat) (g : Func → Func) : (d.onFn n g).out = d.out := rfl
@[simp] theorem Dev.onFn_die (n : Nat) (g : Func → Func) : (d.onFn n g).die = d.die := rfl
@[simp] theorem Dev.onFn_boot (n : Nat) (g : Func → Func) : (d.onFn n g).boot = d.boot := rfl
@[simp] theorem Dev.onFn_keep (n : Nat) (g : Func → Func) : (d.onFn n g).keep = d.keep := rfl
@[simp] theorem Dev.onFn_card (n : Nat) (g : Func → Func) : (d.onFn n g).card = d.card := rfl
@[simp] theorem Dev.onFn_setPos (n : Nat) (g : Func → Func) : (d.onFn n g).setPos = d.setPos := rfl
@[simp] theorem Dev.onFn_cryPos (n : Nat) (g : Func → Func) : (d.onFn n g).cryPos = d.cryPos := rfl
@[simp] theorem Dev.onFn_power (n : Nat) (g : Func → Func) : (d.onFn n g).power = d.power := rfl
@[simp] theorem Dev.onFn_links (n : Nat) (g : Func → Func) : (d.onFn n g).links = d.links := rfl
@[simp] theorem Dev.onFn_chans (n : Nat) (g : Func → Func) : (d.onFn n g).chans = d.chans := rfl
@[simp] theorem Dev.onFn_routes (n : Nat) (g : Func → Func) : (d.onFn n g).routes = d.routes := rfl
@[simp] theorem Dev.onFn_cores (n : Nat) (g : Func → Func) : (d.onFn n g).cores = d.cores := rfl
@[simp] theorem Dev.onFn_escalations (n : Nat) (g : Func → Func) : (d.onFn n g).escalations = d.escalations := rfl
@[simp] theorem Dev.onFn_rings (n : Nat) (g : Func → Func) : (d.onFn n g).rings = d.rings := rfl
@[simp] theorem Dev.onFn_groups (n : Nat) (g : Func → Func) : (d.onFn n g).groups = d.groups := rfl
@[simp] theorem Dev.onFn_ringErrors (n : Nat) (g : Func → Func) : (d.onFn n g).ringErrors = d.ringErrors := rfl
@[simp] theorem Dev.onFn_ctxCache (n : Nat) (g : Func → Func) : (d.onFn n g).ctxCache = d.ctxCache := rfl
@[simp] theorem Dev.onFn_ctxSnap (n : Nat) (g : Func → Func) : (d.onFn n g).ctxSnap = d.ctxSnap := rfl
@[simp] theorem Dev.onFn_items (n : Nat) (g : Func → Func) : (d.onFn n g).items = d.items := rfl
@[simp] theorem Dev.onFn_nextItem (n : Nat) (g : Func → Func) : (d.onFn n g).nextItem = d.nextItem := rfl
@[simp] theorem Dev.onFn_admitted (n : Nat) (g : Func → Func) : (d.onFn n g).admitted = d.admitted := rfl
@[simp] theorem Dev.onFn_dispatched (n : Nat) (g : Func → Func) : (d.onFn n g).dispatched = d.dispatched := rfl
@[simp] theorem Dev.onFn_failures (n : Nat) (g : Func → Func) : (d.onFn n g).failures = d.failures := rfl
@[simp] theorem Dev.onFn_replays (n : Nat) (g : Func → Func) : (d.onFn n g).replays = d.replays := rfl
@[simp] theorem Dev.onFn_epilogues (n : Nat) (g : Func → Func) : (d.onFn n g).epilogues = d.epilogues := rfl
@[simp] theorem Dev.onFn_credits (n : Nat) (g : Func → Func) : (d.onFn n g).credits = d.credits := rfl
@[simp] theorem Dev.onFn_sched (n : Nat) (g : Func → Func) : (d.onFn n g).sched = d.sched := rfl
@[simp] theorem Dev.onFn_macs (n : Nat) (g : Func → Func) : (d.onFn n g).macs = d.macs := rfl
@[simp] theorem Dev.onFn_tempo (n : Nat) (g : Func → Func) : (d.onFn n g).tempo = d.tempo := rfl
@[simp] theorem Dev.onFn_tenants (n : Nat) (g : Func → Func) : (d.onFn n g).tenants = d.tenants := rfl
@[simp] theorem Dev.onFn_mtb (n : Nat) (g : Func → Func) : (d.onFn n g).mtb = d.mtb := rfl
@[simp] theorem Dev.onFn_ctxs (n : Nat) (g : Func → Func) : (d.onFn n g).ctxs = d.ctxs := rfl
@[simp] theorem Dev.onFn_ctxKeys (n : Nat) (g : Func → Func) : (d.onFn n g).ctxKeys = d.ctxKeys := rfl
@[simp] theorem Dev.onFn_ctxFailed (n : Nat) (g : Func → Func) : (d.onFn n g).ctxFailed = d.ctxFailed := rfl
@[simp] theorem Dev.onFn_crySnap (n : Nat) (g : Func → Func) : (d.onFn n g).crySnap = d.crySnap := rfl
@[simp] theorem Dev.onFn_idents (n : Nat) (g : Func → Func) : (d.onFn n g).idents = d.idents := rfl
@[simp] theorem Dev.onFn_counters (n : Nat) (g : Func → Func) : (d.onFn n g).counters = d.counters := rfl
@[simp] theorem Dev.onFn_cells (n : Nat) (g : Func → Func) : (d.onFn n g).cells = d.cells := rfl
@[simp] theorem Dev.onFn_sites (n : Nat) (g : Func → Func) : (d.onFn n g).sites = d.sites := rfl
@[simp] theorem Dev.onFn_jobs (n : Nat) (g : Func → Func) : (d.onFn n g).jobs = d.jobs := rfl
@[simp] theorem Dev.onFn_nextJob (n : Nat) (g : Func → Func) : (d.onFn n g).nextJob = d.nextJob := rfl
@[simp] theorem Dev.onFn_apply (n : Nat) (g : Func → Func) : (d.onFn n g).apply = d.apply := rfl
@[simp] theorem Dev.onFn_drains (n : Nat) (g : Func → Func) : (d.onFn n g).drains = d.drains := rfl
@[simp] theorem Dev.onFn_qps (n : Nat) (g : Func → Func) : (d.onFn n g).qps = d.qps := rfl
@[simp] theorem Dev.onFn_conns (n : Nat) (g : Func → Func) : (d.onFn n g).conns = d.conns := rfl
@[simp] theorem Dev.onFn_nvmes (n : Nat) (g : Func → Func) : (d.onFn n g).nvmes = d.nvmes := rfl
@[simp] theorem Dev.onFn_dma (n : Nat) (g : Func → Func) : (d.onFn n g).dma = d.dma := rfl
@[simp] theorem Dev.onFn_region (n : Nat) (g : Func → Func) : (d.onFn n g).region = d.region := rfl
@[simp] theorem Dev.onFn_movers (n : Nat) (g : Func → Func) : (d.onFn n g).movers = d.movers := rfl
@[simp] theorem Dev.onFn_stp (n : Nat) (g : Func → Func) : (d.onFn n g).stp = d.stp := rfl
@[simp] theorem Dev.onFn_dbg (n : Nat) (g : Func → Func) : (d.onFn n g).dbg = d.dbg := rfl
@[simp] theorem Dev.onFn_eid (n : Nat) (g : Func → Func) : (d.onFn n g).eid = d.eid := rfl
@[simp] theorem Dev.onFn_macCounts (n : Nat) (g : Func → Func) : (d.onFn n g).macCounts = d.macCounts := rfl

/-! ## onLink -/

@[simp] theorem Dev.onLink_phase (n : Nat) (g : Link → Link) : (d.onLink n g).phase = d.phase := rfl
@[simp] theorem Dev.onLink_railsGood (n : Nat) (g : Link → Link) : (d.onLink n g).railsGood = d.railsGood := rfl
@[simp] theorem Dev.onLink_resetLow (n : Nat) (g : Link → Link) : (d.onLink n g).resetLow = d.resetLow := rfl
@[simp] theorem Dev.onLink_testen (n : Nat) (g : Link → Link) : (d.onLink n g).testen = d.testen := rfl
@[simp] theorem Dev.onLink_regs (n : Nat) (g : Link → Link) : (d.onLink n g).regs = d.regs := rfl
@[simp] theorem Dev.onLink_freeCtr (n : Nat) (g : Link → Link) : (d.onLink n g).freeCtr = d.freeCtr := rfl
@[simp] theorem Dev.onLink_out (n : Nat) (g : Link → Link) : (d.onLink n g).out = d.out := rfl
@[simp] theorem Dev.onLink_die (n : Nat) (g : Link → Link) : (d.onLink n g).die = d.die := rfl
@[simp] theorem Dev.onLink_boot (n : Nat) (g : Link → Link) : (d.onLink n g).boot = d.boot := rfl
@[simp] theorem Dev.onLink_keep (n : Nat) (g : Link → Link) : (d.onLink n g).keep = d.keep := rfl
@[simp] theorem Dev.onLink_card (n : Nat) (g : Link → Link) : (d.onLink n g).card = d.card := rfl
@[simp] theorem Dev.onLink_setPos (n : Nat) (g : Link → Link) : (d.onLink n g).setPos = d.setPos := rfl
@[simp] theorem Dev.onLink_cryPos (n : Nat) (g : Link → Link) : (d.onLink n g).cryPos = d.cryPos := rfl
@[simp] theorem Dev.onLink_power (n : Nat) (g : Link → Link) : (d.onLink n g).power = d.power := rfl
@[simp] theorem Dev.onLink_funcs (n : Nat) (g : Link → Link) : (d.onLink n g).funcs = d.funcs := rfl
@[simp] theorem Dev.onLink_chans (n : Nat) (g : Link → Link) : (d.onLink n g).chans = d.chans := rfl
@[simp] theorem Dev.onLink_routes (n : Nat) (g : Link → Link) : (d.onLink n g).routes = d.routes := rfl
@[simp] theorem Dev.onLink_cores (n : Nat) (g : Link → Link) : (d.onLink n g).cores = d.cores := rfl
@[simp] theorem Dev.onLink_escalations (n : Nat) (g : Link → Link) : (d.onLink n g).escalations = d.escalations := rfl
@[simp] theorem Dev.onLink_rings (n : Nat) (g : Link → Link) : (d.onLink n g).rings = d.rings := rfl
@[simp] theorem Dev.onLink_groups (n : Nat) (g : Link → Link) : (d.onLink n g).groups = d.groups := rfl
@[simp] theorem Dev.onLink_ringErrors (n : Nat) (g : Link → Link) : (d.onLink n g).ringErrors = d.ringErrors := rfl
@[simp] theorem Dev.onLink_ctxCache (n : Nat) (g : Link → Link) : (d.onLink n g).ctxCache = d.ctxCache := rfl
@[simp] theorem Dev.onLink_ctxSnap (n : Nat) (g : Link → Link) : (d.onLink n g).ctxSnap = d.ctxSnap := rfl
@[simp] theorem Dev.onLink_items (n : Nat) (g : Link → Link) : (d.onLink n g).items = d.items := rfl
@[simp] theorem Dev.onLink_nextItem (n : Nat) (g : Link → Link) : (d.onLink n g).nextItem = d.nextItem := rfl
@[simp] theorem Dev.onLink_admitted (n : Nat) (g : Link → Link) : (d.onLink n g).admitted = d.admitted := rfl
@[simp] theorem Dev.onLink_dispatched (n : Nat) (g : Link → Link) : (d.onLink n g).dispatched = d.dispatched := rfl
@[simp] theorem Dev.onLink_failures (n : Nat) (g : Link → Link) : (d.onLink n g).failures = d.failures := rfl
@[simp] theorem Dev.onLink_replays (n : Nat) (g : Link → Link) : (d.onLink n g).replays = d.replays := rfl
@[simp] theorem Dev.onLink_epilogues (n : Nat) (g : Link → Link) : (d.onLink n g).epilogues = d.epilogues := rfl
@[simp] theorem Dev.onLink_credits (n : Nat) (g : Link → Link) : (d.onLink n g).credits = d.credits := rfl
@[simp] theorem Dev.onLink_sched (n : Nat) (g : Link → Link) : (d.onLink n g).sched = d.sched := rfl
@[simp] theorem Dev.onLink_macs (n : Nat) (g : Link → Link) : (d.onLink n g).macs = d.macs := rfl
@[simp] theorem Dev.onLink_tempo (n : Nat) (g : Link → Link) : (d.onLink n g).tempo = d.tempo := rfl
@[simp] theorem Dev.onLink_tenants (n : Nat) (g : Link → Link) : (d.onLink n g).tenants = d.tenants := rfl
@[simp] theorem Dev.onLink_mtb (n : Nat) (g : Link → Link) : (d.onLink n g).mtb = d.mtb := rfl
@[simp] theorem Dev.onLink_ctxs (n : Nat) (g : Link → Link) : (d.onLink n g).ctxs = d.ctxs := rfl
@[simp] theorem Dev.onLink_ctxKeys (n : Nat) (g : Link → Link) : (d.onLink n g).ctxKeys = d.ctxKeys := rfl
@[simp] theorem Dev.onLink_ctxFailed (n : Nat) (g : Link → Link) : (d.onLink n g).ctxFailed = d.ctxFailed := rfl
@[simp] theorem Dev.onLink_crySnap (n : Nat) (g : Link → Link) : (d.onLink n g).crySnap = d.crySnap := rfl
@[simp] theorem Dev.onLink_idents (n : Nat) (g : Link → Link) : (d.onLink n g).idents = d.idents := rfl
@[simp] theorem Dev.onLink_counters (n : Nat) (g : Link → Link) : (d.onLink n g).counters = d.counters := rfl
@[simp] theorem Dev.onLink_cells (n : Nat) (g : Link → Link) : (d.onLink n g).cells = d.cells := rfl
@[simp] theorem Dev.onLink_sites (n : Nat) (g : Link → Link) : (d.onLink n g).sites = d.sites := rfl
@[simp] theorem Dev.onLink_jobs (n : Nat) (g : Link → Link) : (d.onLink n g).jobs = d.jobs := rfl
@[simp] theorem Dev.onLink_nextJob (n : Nat) (g : Link → Link) : (d.onLink n g).nextJob = d.nextJob := rfl
@[simp] theorem Dev.onLink_apply (n : Nat) (g : Link → Link) : (d.onLink n g).apply = d.apply := rfl
@[simp] theorem Dev.onLink_drains (n : Nat) (g : Link → Link) : (d.onLink n g).drains = d.drains := rfl
@[simp] theorem Dev.onLink_qps (n : Nat) (g : Link → Link) : (d.onLink n g).qps = d.qps := rfl
@[simp] theorem Dev.onLink_conns (n : Nat) (g : Link → Link) : (d.onLink n g).conns = d.conns := rfl
@[simp] theorem Dev.onLink_nvmes (n : Nat) (g : Link → Link) : (d.onLink n g).nvmes = d.nvmes := rfl
@[simp] theorem Dev.onLink_dma (n : Nat) (g : Link → Link) : (d.onLink n g).dma = d.dma := rfl
@[simp] theorem Dev.onLink_region (n : Nat) (g : Link → Link) : (d.onLink n g).region = d.region := rfl
@[simp] theorem Dev.onLink_movers (n : Nat) (g : Link → Link) : (d.onLink n g).movers = d.movers := rfl
@[simp] theorem Dev.onLink_stp (n : Nat) (g : Link → Link) : (d.onLink n g).stp = d.stp := rfl
@[simp] theorem Dev.onLink_dbg (n : Nat) (g : Link → Link) : (d.onLink n g).dbg = d.dbg := rfl
@[simp] theorem Dev.onLink_eid (n : Nat) (g : Link → Link) : (d.onLink n g).eid = d.eid := rfl
@[simp] theorem Dev.onLink_macCounts (n : Nat) (g : Link → Link) : (d.onLink n g).macCounts = d.macCounts := rfl

/-! ## onChan -/

@[simp] theorem Dev.onChan_phase (n : Nat) (g : Chan → Chan) : (d.onChan n g).phase = d.phase := rfl
@[simp] theorem Dev.onChan_railsGood (n : Nat) (g : Chan → Chan) : (d.onChan n g).railsGood = d.railsGood := rfl
@[simp] theorem Dev.onChan_resetLow (n : Nat) (g : Chan → Chan) : (d.onChan n g).resetLow = d.resetLow := rfl
@[simp] theorem Dev.onChan_testen (n : Nat) (g : Chan → Chan) : (d.onChan n g).testen = d.testen := rfl
@[simp] theorem Dev.onChan_regs (n : Nat) (g : Chan → Chan) : (d.onChan n g).regs = d.regs := rfl
@[simp] theorem Dev.onChan_freeCtr (n : Nat) (g : Chan → Chan) : (d.onChan n g).freeCtr = d.freeCtr := rfl
@[simp] theorem Dev.onChan_out (n : Nat) (g : Chan → Chan) : (d.onChan n g).out = d.out := rfl
@[simp] theorem Dev.onChan_die (n : Nat) (g : Chan → Chan) : (d.onChan n g).die = d.die := rfl
@[simp] theorem Dev.onChan_boot (n : Nat) (g : Chan → Chan) : (d.onChan n g).boot = d.boot := rfl
@[simp] theorem Dev.onChan_keep (n : Nat) (g : Chan → Chan) : (d.onChan n g).keep = d.keep := rfl
@[simp] theorem Dev.onChan_card (n : Nat) (g : Chan → Chan) : (d.onChan n g).card = d.card := rfl
@[simp] theorem Dev.onChan_setPos (n : Nat) (g : Chan → Chan) : (d.onChan n g).setPos = d.setPos := rfl
@[simp] theorem Dev.onChan_cryPos (n : Nat) (g : Chan → Chan) : (d.onChan n g).cryPos = d.cryPos := rfl
@[simp] theorem Dev.onChan_power (n : Nat) (g : Chan → Chan) : (d.onChan n g).power = d.power := rfl
@[simp] theorem Dev.onChan_links (n : Nat) (g : Chan → Chan) : (d.onChan n g).links = d.links := rfl
@[simp] theorem Dev.onChan_funcs (n : Nat) (g : Chan → Chan) : (d.onChan n g).funcs = d.funcs := rfl
@[simp] theorem Dev.onChan_routes (n : Nat) (g : Chan → Chan) : (d.onChan n g).routes = d.routes := rfl
@[simp] theorem Dev.onChan_cores (n : Nat) (g : Chan → Chan) : (d.onChan n g).cores = d.cores := rfl
@[simp] theorem Dev.onChan_escalations (n : Nat) (g : Chan → Chan) : (d.onChan n g).escalations = d.escalations := rfl
@[simp] theorem Dev.onChan_rings (n : Nat) (g : Chan → Chan) : (d.onChan n g).rings = d.rings := rfl
@[simp] theorem Dev.onChan_groups (n : Nat) (g : Chan → Chan) : (d.onChan n g).groups = d.groups := rfl
@[simp] theorem Dev.onChan_ringErrors (n : Nat) (g : Chan → Chan) : (d.onChan n g).ringErrors = d.ringErrors := rfl
@[simp] theorem Dev.onChan_ctxCache (n : Nat) (g : Chan → Chan) : (d.onChan n g).ctxCache = d.ctxCache := rfl
@[simp] theorem Dev.onChan_ctxSnap (n : Nat) (g : Chan → Chan) : (d.onChan n g).ctxSnap = d.ctxSnap := rfl
@[simp] theorem Dev.onChan_items (n : Nat) (g : Chan → Chan) : (d.onChan n g).items = d.items := rfl
@[simp] theorem Dev.onChan_nextItem (n : Nat) (g : Chan → Chan) : (d.onChan n g).nextItem = d.nextItem := rfl
@[simp] theorem Dev.onChan_admitted (n : Nat) (g : Chan → Chan) : (d.onChan n g).admitted = d.admitted := rfl
@[simp] theorem Dev.onChan_dispatched (n : Nat) (g : Chan → Chan) : (d.onChan n g).dispatched = d.dispatched := rfl
@[simp] theorem Dev.onChan_failures (n : Nat) (g : Chan → Chan) : (d.onChan n g).failures = d.failures := rfl
@[simp] theorem Dev.onChan_replays (n : Nat) (g : Chan → Chan) : (d.onChan n g).replays = d.replays := rfl
@[simp] theorem Dev.onChan_epilogues (n : Nat) (g : Chan → Chan) : (d.onChan n g).epilogues = d.epilogues := rfl
@[simp] theorem Dev.onChan_credits (n : Nat) (g : Chan → Chan) : (d.onChan n g).credits = d.credits := rfl
@[simp] theorem Dev.onChan_sched (n : Nat) (g : Chan → Chan) : (d.onChan n g).sched = d.sched := rfl
@[simp] theorem Dev.onChan_macs (n : Nat) (g : Chan → Chan) : (d.onChan n g).macs = d.macs := rfl
@[simp] theorem Dev.onChan_tempo (n : Nat) (g : Chan → Chan) : (d.onChan n g).tempo = d.tempo := rfl
@[simp] theorem Dev.onChan_tenants (n : Nat) (g : Chan → Chan) : (d.onChan n g).tenants = d.tenants := rfl
@[simp] theorem Dev.onChan_mtb (n : Nat) (g : Chan → Chan) : (d.onChan n g).mtb = d.mtb := rfl
@[simp] theorem Dev.onChan_ctxs (n : Nat) (g : Chan → Chan) : (d.onChan n g).ctxs = d.ctxs := rfl
@[simp] theorem Dev.onChan_ctxKeys (n : Nat) (g : Chan → Chan) : (d.onChan n g).ctxKeys = d.ctxKeys := rfl
@[simp] theorem Dev.onChan_ctxFailed (n : Nat) (g : Chan → Chan) : (d.onChan n g).ctxFailed = d.ctxFailed := rfl
@[simp] theorem Dev.onChan_crySnap (n : Nat) (g : Chan → Chan) : (d.onChan n g).crySnap = d.crySnap := rfl
@[simp] theorem Dev.onChan_idents (n : Nat) (g : Chan → Chan) : (d.onChan n g).idents = d.idents := rfl
@[simp] theorem Dev.onChan_counters (n : Nat) (g : Chan → Chan) : (d.onChan n g).counters = d.counters := rfl
@[simp] theorem Dev.onChan_cells (n : Nat) (g : Chan → Chan) : (d.onChan n g).cells = d.cells := rfl
@[simp] theorem Dev.onChan_sites (n : Nat) (g : Chan → Chan) : (d.onChan n g).sites = d.sites := rfl
@[simp] theorem Dev.onChan_jobs (n : Nat) (g : Chan → Chan) : (d.onChan n g).jobs = d.jobs := rfl
@[simp] theorem Dev.onChan_nextJob (n : Nat) (g : Chan → Chan) : (d.onChan n g).nextJob = d.nextJob := rfl
@[simp] theorem Dev.onChan_apply (n : Nat) (g : Chan → Chan) : (d.onChan n g).apply = d.apply := rfl
@[simp] theorem Dev.onChan_drains (n : Nat) (g : Chan → Chan) : (d.onChan n g).drains = d.drains := rfl
@[simp] theorem Dev.onChan_qps (n : Nat) (g : Chan → Chan) : (d.onChan n g).qps = d.qps := rfl
@[simp] theorem Dev.onChan_conns (n : Nat) (g : Chan → Chan) : (d.onChan n g).conns = d.conns := rfl
@[simp] theorem Dev.onChan_nvmes (n : Nat) (g : Chan → Chan) : (d.onChan n g).nvmes = d.nvmes := rfl
@[simp] theorem Dev.onChan_dma (n : Nat) (g : Chan → Chan) : (d.onChan n g).dma = d.dma := rfl
@[simp] theorem Dev.onChan_region (n : Nat) (g : Chan → Chan) : (d.onChan n g).region = d.region := rfl
@[simp] theorem Dev.onChan_movers (n : Nat) (g : Chan → Chan) : (d.onChan n g).movers = d.movers := rfl
@[simp] theorem Dev.onChan_stp (n : Nat) (g : Chan → Chan) : (d.onChan n g).stp = d.stp := rfl
@[simp] theorem Dev.onChan_dbg (n : Nat) (g : Chan → Chan) : (d.onChan n g).dbg = d.dbg := rfl
@[simp] theorem Dev.onChan_eid (n : Nat) (g : Chan → Chan) : (d.onChan n g).eid = d.eid := rfl
@[simp] theorem Dev.onChan_macCounts (n : Nat) (g : Chan → Chan) : (d.onChan n g).macCounts = d.macCounts := rfl

/-! ## onRoute -/

@[simp] theorem Dev.onRoute_phase (p n : Nat) (g : Route → Route) : (d.onRoute p n g).phase = d.phase := rfl
@[simp] theorem Dev.onRoute_railsGood (p n : Nat) (g : Route → Route) : (d.onRoute p n g).railsGood = d.railsGood := rfl
@[simp] theorem Dev.onRoute_resetLow (p n : Nat) (g : Route → Route) : (d.onRoute p n g).resetLow = d.resetLow := rfl
@[simp] theorem Dev.onRoute_testen (p n : Nat) (g : Route → Route) : (d.onRoute p n g).testen = d.testen := rfl
@[simp] theorem Dev.onRoute_regs (p n : Nat) (g : Route → Route) : (d.onRoute p n g).regs = d.regs := rfl
@[simp] theorem Dev.onRoute_freeCtr (p n : Nat) (g : Route → Route) : (d.onRoute p n g).freeCtr = d.freeCtr := rfl
@[simp] theorem Dev.onRoute_out (p n : Nat) (g : Route → Route) : (d.onRoute p n g).out = d.out := rfl
@[simp] theorem Dev.onRoute_die (p n : Nat) (g : Route → Route) : (d.onRoute p n g).die = d.die := rfl
@[simp] theorem Dev.onRoute_boot (p n : Nat) (g : Route → Route) : (d.onRoute p n g).boot = d.boot := rfl
@[simp] theorem Dev.onRoute_keep (p n : Nat) (g : Route → Route) : (d.onRoute p n g).keep = d.keep := rfl
@[simp] theorem Dev.onRoute_card (p n : Nat) (g : Route → Route) : (d.onRoute p n g).card = d.card := rfl
@[simp] theorem Dev.onRoute_setPos (p n : Nat) (g : Route → Route) : (d.onRoute p n g).setPos = d.setPos := rfl
@[simp] theorem Dev.onRoute_cryPos (p n : Nat) (g : Route → Route) : (d.onRoute p n g).cryPos = d.cryPos := rfl
@[simp] theorem Dev.onRoute_power (p n : Nat) (g : Route → Route) : (d.onRoute p n g).power = d.power := rfl
@[simp] theorem Dev.onRoute_links (p n : Nat) (g : Route → Route) : (d.onRoute p n g).links = d.links := rfl
@[simp] theorem Dev.onRoute_funcs (p n : Nat) (g : Route → Route) : (d.onRoute p n g).funcs = d.funcs := rfl
@[simp] theorem Dev.onRoute_chans (p n : Nat) (g : Route → Route) : (d.onRoute p n g).chans = d.chans := rfl
@[simp] theorem Dev.onRoute_cores (p n : Nat) (g : Route → Route) : (d.onRoute p n g).cores = d.cores := rfl
@[simp] theorem Dev.onRoute_escalations (p n : Nat) (g : Route → Route) : (d.onRoute p n g).escalations = d.escalations := rfl
@[simp] theorem Dev.onRoute_rings (p n : Nat) (g : Route → Route) : (d.onRoute p n g).rings = d.rings := rfl
@[simp] theorem Dev.onRoute_groups (p n : Nat) (g : Route → Route) : (d.onRoute p n g).groups = d.groups := rfl
@[simp] theorem Dev.onRoute_ringErrors (p n : Nat) (g : Route → Route) : (d.onRoute p n g).ringErrors = d.ringErrors := rfl
@[simp] theorem Dev.onRoute_ctxCache (p n : Nat) (g : Route → Route) : (d.onRoute p n g).ctxCache = d.ctxCache := rfl
@[simp] theorem Dev.onRoute_ctxSnap (p n : Nat) (g : Route → Route) : (d.onRoute p n g).ctxSnap = d.ctxSnap := rfl
@[simp] theorem Dev.onRoute_items (p n : Nat) (g : Route → Route) : (d.onRoute p n g).items = d.items := rfl
@[simp] theorem Dev.onRoute_nextItem (p n : Nat) (g : Route → Route) : (d.onRoute p n g).nextItem = d.nextItem := rfl
@[simp] theorem Dev.onRoute_admitted (p n : Nat) (g : Route → Route) : (d.onRoute p n g).admitted = d.admitted := rfl
@[simp] theorem Dev.onRoute_dispatched (p n : Nat) (g : Route → Route) : (d.onRoute p n g).dispatched = d.dispatched := rfl
@[simp] theorem Dev.onRoute_failures (p n : Nat) (g : Route → Route) : (d.onRoute p n g).failures = d.failures := rfl
@[simp] theorem Dev.onRoute_replays (p n : Nat) (g : Route → Route) : (d.onRoute p n g).replays = d.replays := rfl
@[simp] theorem Dev.onRoute_epilogues (p n : Nat) (g : Route → Route) : (d.onRoute p n g).epilogues = d.epilogues := rfl
@[simp] theorem Dev.onRoute_credits (p n : Nat) (g : Route → Route) : (d.onRoute p n g).credits = d.credits := rfl
@[simp] theorem Dev.onRoute_sched (p n : Nat) (g : Route → Route) : (d.onRoute p n g).sched = d.sched := rfl
@[simp] theorem Dev.onRoute_macs (p n : Nat) (g : Route → Route) : (d.onRoute p n g).macs = d.macs := rfl
@[simp] theorem Dev.onRoute_tempo (p n : Nat) (g : Route → Route) : (d.onRoute p n g).tempo = d.tempo := rfl
@[simp] theorem Dev.onRoute_tenants (p n : Nat) (g : Route → Route) : (d.onRoute p n g).tenants = d.tenants := rfl
@[simp] theorem Dev.onRoute_mtb (p n : Nat) (g : Route → Route) : (d.onRoute p n g).mtb = d.mtb := rfl
@[simp] theorem Dev.onRoute_ctxs (p n : Nat) (g : Route → Route) : (d.onRoute p n g).ctxs = d.ctxs := rfl
@[simp] theorem Dev.onRoute_ctxKeys (p n : Nat) (g : Route → Route) : (d.onRoute p n g).ctxKeys = d.ctxKeys := rfl
@[simp] theorem Dev.onRoute_ctxFailed (p n : Nat) (g : Route → Route) : (d.onRoute p n g).ctxFailed = d.ctxFailed := rfl
@[simp] theorem Dev.onRoute_crySnap (p n : Nat) (g : Route → Route) : (d.onRoute p n g).crySnap = d.crySnap := rfl
@[simp] theorem Dev.onRoute_idents (p n : Nat) (g : Route → Route) : (d.onRoute p n g).idents = d.idents := rfl
@[simp] theorem Dev.onRoute_counters (p n : Nat) (g : Route → Route) : (d.onRoute p n g).counters = d.counters := rfl
@[simp] theorem Dev.onRoute_cells (p n : Nat) (g : Route → Route) : (d.onRoute p n g).cells = d.cells := rfl
@[simp] theorem Dev.onRoute_sites (p n : Nat) (g : Route → Route) : (d.onRoute p n g).sites = d.sites := rfl
@[simp] theorem Dev.onRoute_jobs (p n : Nat) (g : Route → Route) : (d.onRoute p n g).jobs = d.jobs := rfl
@[simp] theorem Dev.onRoute_nextJob (p n : Nat) (g : Route → Route) : (d.onRoute p n g).nextJob = d.nextJob := rfl
@[simp] theorem Dev.onRoute_apply (p n : Nat) (g : Route → Route) : (d.onRoute p n g).apply = d.apply := rfl
@[simp] theorem Dev.onRoute_drains (p n : Nat) (g : Route → Route) : (d.onRoute p n g).drains = d.drains := rfl
@[simp] theorem Dev.onRoute_qps (p n : Nat) (g : Route → Route) : (d.onRoute p n g).qps = d.qps := rfl
@[simp] theorem Dev.onRoute_conns (p n : Nat) (g : Route → Route) : (d.onRoute p n g).conns = d.conns := rfl
@[simp] theorem Dev.onRoute_nvmes (p n : Nat) (g : Route → Route) : (d.onRoute p n g).nvmes = d.nvmes := rfl
@[simp] theorem Dev.onRoute_dma (p n : Nat) (g : Route → Route) : (d.onRoute p n g).dma = d.dma := rfl
@[simp] theorem Dev.onRoute_region (p n : Nat) (g : Route → Route) : (d.onRoute p n g).region = d.region := rfl
@[simp] theorem Dev.onRoute_movers (p n : Nat) (g : Route → Route) : (d.onRoute p n g).movers = d.movers := rfl
@[simp] theorem Dev.onRoute_stp (p n : Nat) (g : Route → Route) : (d.onRoute p n g).stp = d.stp := rfl
@[simp] theorem Dev.onRoute_dbg (p n : Nat) (g : Route → Route) : (d.onRoute p n g).dbg = d.dbg := rfl
@[simp] theorem Dev.onRoute_eid (p n : Nat) (g : Route → Route) : (d.onRoute p n g).eid = d.eid := rfl
@[simp] theorem Dev.onRoute_macCounts (p n : Nat) (g : Route → Route) : (d.onRoute p n g).macCounts = d.macCounts := rfl

/-! ## onRing -/

@[simp] theorem Dev.onRing_phase (n : Nat) (g : Ring → Ring) : (d.onRing n g).phase = d.phase := rfl
@[simp] theorem Dev.onRing_railsGood (n : Nat) (g : Ring → Ring) : (d.onRing n g).railsGood = d.railsGood := rfl
@[simp] theorem Dev.onRing_resetLow (n : Nat) (g : Ring → Ring) : (d.onRing n g).resetLow = d.resetLow := rfl
@[simp] theorem Dev.onRing_testen (n : Nat) (g : Ring → Ring) : (d.onRing n g).testen = d.testen := rfl
@[simp] theorem Dev.onRing_regs (n : Nat) (g : Ring → Ring) : (d.onRing n g).regs = d.regs := rfl
@[simp] theorem Dev.onRing_freeCtr (n : Nat) (g : Ring → Ring) : (d.onRing n g).freeCtr = d.freeCtr := rfl
@[simp] theorem Dev.onRing_out (n : Nat) (g : Ring → Ring) : (d.onRing n g).out = d.out := rfl
@[simp] theorem Dev.onRing_die (n : Nat) (g : Ring → Ring) : (d.onRing n g).die = d.die := rfl
@[simp] theorem Dev.onRing_boot (n : Nat) (g : Ring → Ring) : (d.onRing n g).boot = d.boot := rfl
@[simp] theorem Dev.onRing_keep (n : Nat) (g : Ring → Ring) : (d.onRing n g).keep = d.keep := rfl
@[simp] theorem Dev.onRing_card (n : Nat) (g : Ring → Ring) : (d.onRing n g).card = d.card := rfl
@[simp] theorem Dev.onRing_setPos (n : Nat) (g : Ring → Ring) : (d.onRing n g).setPos = d.setPos := rfl
@[simp] theorem Dev.onRing_cryPos (n : Nat) (g : Ring → Ring) : (d.onRing n g).cryPos = d.cryPos := rfl
@[simp] theorem Dev.onRing_power (n : Nat) (g : Ring → Ring) : (d.onRing n g).power = d.power := rfl
@[simp] theorem Dev.onRing_links (n : Nat) (g : Ring → Ring) : (d.onRing n g).links = d.links := rfl
@[simp] theorem Dev.onRing_funcs (n : Nat) (g : Ring → Ring) : (d.onRing n g).funcs = d.funcs := rfl
@[simp] theorem Dev.onRing_chans (n : Nat) (g : Ring → Ring) : (d.onRing n g).chans = d.chans := rfl
@[simp] theorem Dev.onRing_routes (n : Nat) (g : Ring → Ring) : (d.onRing n g).routes = d.routes := rfl
@[simp] theorem Dev.onRing_cores (n : Nat) (g : Ring → Ring) : (d.onRing n g).cores = d.cores := rfl
@[simp] theorem Dev.onRing_escalations (n : Nat) (g : Ring → Ring) : (d.onRing n g).escalations = d.escalations := rfl
@[simp] theorem Dev.onRing_groups (n : Nat) (g : Ring → Ring) : (d.onRing n g).groups = d.groups := rfl
@[simp] theorem Dev.onRing_ringErrors (n : Nat) (g : Ring → Ring) : (d.onRing n g).ringErrors = d.ringErrors := rfl
@[simp] theorem Dev.onRing_ctxCache (n : Nat) (g : Ring → Ring) : (d.onRing n g).ctxCache = d.ctxCache := rfl
@[simp] theorem Dev.onRing_ctxSnap (n : Nat) (g : Ring → Ring) : (d.onRing n g).ctxSnap = d.ctxSnap := rfl
@[simp] theorem Dev.onRing_items (n : Nat) (g : Ring → Ring) : (d.onRing n g).items = d.items := rfl
@[simp] theorem Dev.onRing_nextItem (n : Nat) (g : Ring → Ring) : (d.onRing n g).nextItem = d.nextItem := rfl
@[simp] theorem Dev.onRing_admitted (n : Nat) (g : Ring → Ring) : (d.onRing n g).admitted = d.admitted := rfl
@[simp] theorem Dev.onRing_dispatched (n : Nat) (g : Ring → Ring) : (d.onRing n g).dispatched = d.dispatched := rfl
@[simp] theorem Dev.onRing_failures (n : Nat) (g : Ring → Ring) : (d.onRing n g).failures = d.failures := rfl
@[simp] theorem Dev.onRing_replays (n : Nat) (g : Ring → Ring) : (d.onRing n g).replays = d.replays := rfl
@[simp] theorem Dev.onRing_epilogues (n : Nat) (g : Ring → Ring) : (d.onRing n g).epilogues = d.epilogues := rfl
@[simp] theorem Dev.onRing_credits (n : Nat) (g : Ring → Ring) : (d.onRing n g).credits = d.credits := rfl
@[simp] theorem Dev.onRing_sched (n : Nat) (g : Ring → Ring) : (d.onRing n g).sched = d.sched := rfl
@[simp] theorem Dev.onRing_macs (n : Nat) (g : Ring → Ring) : (d.onRing n g).macs = d.macs := rfl
@[simp] theorem Dev.onRing_tempo (n : Nat) (g : Ring → Ring) : (d.onRing n g).tempo = d.tempo := rfl
@[simp] theorem Dev.onRing_tenants (n : Nat) (g : Ring → Ring) : (d.onRing n g).tenants = d.tenants := rfl
@[simp] theorem Dev.onRing_mtb (n : Nat) (g : Ring → Ring) : (d.onRing n g).mtb = d.mtb := rfl
@[simp] theorem Dev.onRing_ctxs (n : Nat) (g : Ring → Ring) : (d.onRing n g).ctxs = d.ctxs := rfl
@[simp] theorem Dev.onRing_ctxKeys (n : Nat) (g : Ring → Ring) : (d.onRing n g).ctxKeys = d.ctxKeys := rfl
@[simp] theorem Dev.onRing_ctxFailed (n : Nat) (g : Ring → Ring) : (d.onRing n g).ctxFailed = d.ctxFailed := rfl
@[simp] theorem Dev.onRing_crySnap (n : Nat) (g : Ring → Ring) : (d.onRing n g).crySnap = d.crySnap := rfl
@[simp] theorem Dev.onRing_idents (n : Nat) (g : Ring → Ring) : (d.onRing n g).idents = d.idents := rfl
@[simp] theorem Dev.onRing_counters (n : Nat) (g : Ring → Ring) : (d.onRing n g).counters = d.counters := rfl
@[simp] theorem Dev.onRing_cells (n : Nat) (g : Ring → Ring) : (d.onRing n g).cells = d.cells := rfl
@[simp] theorem Dev.onRing_sites (n : Nat) (g : Ring → Ring) : (d.onRing n g).sites = d.sites := rfl
@[simp] theorem Dev.onRing_jobs (n : Nat) (g : Ring → Ring) : (d.onRing n g).jobs = d.jobs := rfl
@[simp] theorem Dev.onRing_nextJob (n : Nat) (g : Ring → Ring) : (d.onRing n g).nextJob = d.nextJob := rfl
@[simp] theorem Dev.onRing_apply (n : Nat) (g : Ring → Ring) : (d.onRing n g).apply = d.apply := rfl
@[simp] theorem Dev.onRing_drains (n : Nat) (g : Ring → Ring) : (d.onRing n g).drains = d.drains := rfl
@[simp] theorem Dev.onRing_qps (n : Nat) (g : Ring → Ring) : (d.onRing n g).qps = d.qps := rfl
@[simp] theorem Dev.onRing_conns (n : Nat) (g : Ring → Ring) : (d.onRing n g).conns = d.conns := rfl
@[simp] theorem Dev.onRing_nvmes (n : Nat) (g : Ring → Ring) : (d.onRing n g).nvmes = d.nvmes := rfl
@[simp] theorem Dev.onRing_dma (n : Nat) (g : Ring → Ring) : (d.onRing n g).dma = d.dma := rfl
@[simp] theorem Dev.onRing_region (n : Nat) (g : Ring → Ring) : (d.onRing n g).region = d.region := rfl
@[simp] theorem Dev.onRing_movers (n : Nat) (g : Ring → Ring) : (d.onRing n g).movers = d.movers := rfl
@[simp] theorem Dev.onRing_stp (n : Nat) (g : Ring → Ring) : (d.onRing n g).stp = d.stp := rfl
@[simp] theorem Dev.onRing_dbg (n : Nat) (g : Ring → Ring) : (d.onRing n g).dbg = d.dbg := rfl
@[simp] theorem Dev.onRing_eid (n : Nat) (g : Ring → Ring) : (d.onRing n g).eid = d.eid := rfl
@[simp] theorem Dev.onRing_macCounts (n : Nat) (g : Ring → Ring) : (d.onRing n g).macCounts = d.macCounts := rfl

/-! ## onItem -/

@[simp] theorem Dev.onItem_phase (n : Nat) (g : Item → Item) : (d.onItem n g).phase = d.phase := rfl
@[simp] theorem Dev.onItem_railsGood (n : Nat) (g : Item → Item) : (d.onItem n g).railsGood = d.railsGood := rfl
@[simp] theorem Dev.onItem_resetLow (n : Nat) (g : Item → Item) : (d.onItem n g).resetLow = d.resetLow := rfl
@[simp] theorem Dev.onItem_testen (n : Nat) (g : Item → Item) : (d.onItem n g).testen = d.testen := rfl
@[simp] theorem Dev.onItem_regs (n : Nat) (g : Item → Item) : (d.onItem n g).regs = d.regs := rfl
@[simp] theorem Dev.onItem_freeCtr (n : Nat) (g : Item → Item) : (d.onItem n g).freeCtr = d.freeCtr := rfl
@[simp] theorem Dev.onItem_out (n : Nat) (g : Item → Item) : (d.onItem n g).out = d.out := rfl
@[simp] theorem Dev.onItem_die (n : Nat) (g : Item → Item) : (d.onItem n g).die = d.die := rfl
@[simp] theorem Dev.onItem_boot (n : Nat) (g : Item → Item) : (d.onItem n g).boot = d.boot := rfl
@[simp] theorem Dev.onItem_keep (n : Nat) (g : Item → Item) : (d.onItem n g).keep = d.keep := rfl
@[simp] theorem Dev.onItem_card (n : Nat) (g : Item → Item) : (d.onItem n g).card = d.card := rfl
@[simp] theorem Dev.onItem_setPos (n : Nat) (g : Item → Item) : (d.onItem n g).setPos = d.setPos := rfl
@[simp] theorem Dev.onItem_cryPos (n : Nat) (g : Item → Item) : (d.onItem n g).cryPos = d.cryPos := rfl
@[simp] theorem Dev.onItem_power (n : Nat) (g : Item → Item) : (d.onItem n g).power = d.power := rfl
@[simp] theorem Dev.onItem_links (n : Nat) (g : Item → Item) : (d.onItem n g).links = d.links := rfl
@[simp] theorem Dev.onItem_funcs (n : Nat) (g : Item → Item) : (d.onItem n g).funcs = d.funcs := rfl
@[simp] theorem Dev.onItem_chans (n : Nat) (g : Item → Item) : (d.onItem n g).chans = d.chans := rfl
@[simp] theorem Dev.onItem_routes (n : Nat) (g : Item → Item) : (d.onItem n g).routes = d.routes := rfl
@[simp] theorem Dev.onItem_cores (n : Nat) (g : Item → Item) : (d.onItem n g).cores = d.cores := rfl
@[simp] theorem Dev.onItem_escalations (n : Nat) (g : Item → Item) : (d.onItem n g).escalations = d.escalations := rfl
@[simp] theorem Dev.onItem_rings (n : Nat) (g : Item → Item) : (d.onItem n g).rings = d.rings := rfl
@[simp] theorem Dev.onItem_groups (n : Nat) (g : Item → Item) : (d.onItem n g).groups = d.groups := rfl
@[simp] theorem Dev.onItem_ringErrors (n : Nat) (g : Item → Item) : (d.onItem n g).ringErrors = d.ringErrors := rfl
@[simp] theorem Dev.onItem_ctxCache (n : Nat) (g : Item → Item) : (d.onItem n g).ctxCache = d.ctxCache := rfl
@[simp] theorem Dev.onItem_ctxSnap (n : Nat) (g : Item → Item) : (d.onItem n g).ctxSnap = d.ctxSnap := rfl
@[simp] theorem Dev.onItem_nextItem (n : Nat) (g : Item → Item) : (d.onItem n g).nextItem = d.nextItem := rfl
@[simp] theorem Dev.onItem_admitted (n : Nat) (g : Item → Item) : (d.onItem n g).admitted = d.admitted := rfl
@[simp] theorem Dev.onItem_dispatched (n : Nat) (g : Item → Item) : (d.onItem n g).dispatched = d.dispatched := rfl
@[simp] theorem Dev.onItem_failures (n : Nat) (g : Item → Item) : (d.onItem n g).failures = d.failures := rfl
@[simp] theorem Dev.onItem_replays (n : Nat) (g : Item → Item) : (d.onItem n g).replays = d.replays := rfl
@[simp] theorem Dev.onItem_epilogues (n : Nat) (g : Item → Item) : (d.onItem n g).epilogues = d.epilogues := rfl
@[simp] theorem Dev.onItem_credits (n : Nat) (g : Item → Item) : (d.onItem n g).credits = d.credits := rfl
@[simp] theorem Dev.onItem_sched (n : Nat) (g : Item → Item) : (d.onItem n g).sched = d.sched := rfl
@[simp] theorem Dev.onItem_macs (n : Nat) (g : Item → Item) : (d.onItem n g).macs = d.macs := rfl
@[simp] theorem Dev.onItem_tempo (n : Nat) (g : Item → Item) : (d.onItem n g).tempo = d.tempo := rfl
@[simp] theorem Dev.onItem_tenants (n : Nat) (g : Item → Item) : (d.onItem n g).tenants = d.tenants := rfl
@[simp] theorem Dev.onItem_mtb (n : Nat) (g : Item → Item) : (d.onItem n g).mtb = d.mtb := rfl
@[simp] theorem Dev.onItem_ctxs (n : Nat) (g : Item → Item) : (d.onItem n g).ctxs = d.ctxs := rfl
@[simp] theorem Dev.onItem_ctxKeys (n : Nat) (g : Item → Item) : (d.onItem n g).ctxKeys = d.ctxKeys := rfl
@[simp] theorem Dev.onItem_ctxFailed (n : Nat) (g : Item → Item) : (d.onItem n g).ctxFailed = d.ctxFailed := rfl
@[simp] theorem Dev.onItem_crySnap (n : Nat) (g : Item → Item) : (d.onItem n g).crySnap = d.crySnap := rfl
@[simp] theorem Dev.onItem_idents (n : Nat) (g : Item → Item) : (d.onItem n g).idents = d.idents := rfl
@[simp] theorem Dev.onItem_counters (n : Nat) (g : Item → Item) : (d.onItem n g).counters = d.counters := rfl
@[simp] theorem Dev.onItem_cells (n : Nat) (g : Item → Item) : (d.onItem n g).cells = d.cells := rfl
@[simp] theorem Dev.onItem_sites (n : Nat) (g : Item → Item) : (d.onItem n g).sites = d.sites := rfl
@[simp] theorem Dev.onItem_jobs (n : Nat) (g : Item → Item) : (d.onItem n g).jobs = d.jobs := rfl
@[simp] theorem Dev.onItem_nextJob (n : Nat) (g : Item → Item) : (d.onItem n g).nextJob = d.nextJob := rfl
@[simp] theorem Dev.onItem_apply (n : Nat) (g : Item → Item) : (d.onItem n g).apply = d.apply := rfl
@[simp] theorem Dev.onItem_drains (n : Nat) (g : Item → Item) : (d.onItem n g).drains = d.drains := rfl
@[simp] theorem Dev.onItem_qps (n : Nat) (g : Item → Item) : (d.onItem n g).qps = d.qps := rfl
@[simp] theorem Dev.onItem_conns (n : Nat) (g : Item → Item) : (d.onItem n g).conns = d.conns := rfl
@[simp] theorem Dev.onItem_nvmes (n : Nat) (g : Item → Item) : (d.onItem n g).nvmes = d.nvmes := rfl
@[simp] theorem Dev.onItem_dma (n : Nat) (g : Item → Item) : (d.onItem n g).dma = d.dma := rfl
@[simp] theorem Dev.onItem_region (n : Nat) (g : Item → Item) : (d.onItem n g).region = d.region := rfl
@[simp] theorem Dev.onItem_movers (n : Nat) (g : Item → Item) : (d.onItem n g).movers = d.movers := rfl
@[simp] theorem Dev.onItem_stp (n : Nat) (g : Item → Item) : (d.onItem n g).stp = d.stp := rfl
@[simp] theorem Dev.onItem_dbg (n : Nat) (g : Item → Item) : (d.onItem n g).dbg = d.dbg := rfl
@[simp] theorem Dev.onItem_eid (n : Nat) (g : Item → Item) : (d.onItem n g).eid = d.eid := rfl
@[simp] theorem Dev.onItem_macCounts (n : Nat) (g : Item → Item) : (d.onItem n g).macCounts = d.macCounts := rfl

/-! ## onSite -/

@[simp] theorem Dev.onSite_phase (p : Nat) (g : SetSite → SetSite) : (d.onSite p g).phase = d.phase := rfl
@[simp] theorem Dev.onSite_railsGood (p : Nat) (g : SetSite → SetSite) : (d.onSite p g).railsGood = d.railsGood := rfl
@[simp] theorem Dev.onSite_resetLow (p : Nat) (g : SetSite → SetSite) : (d.onSite p g).resetLow = d.resetLow := rfl
@[simp] theorem Dev.onSite_testen (p : Nat) (g : SetSite → SetSite) : (d.onSite p g).testen = d.testen := rfl
@[simp] theorem Dev.onSite_regs (p : Nat) (g : SetSite → SetSite) : (d.onSite p g).regs = d.regs := rfl
@[simp] theorem Dev.onSite_freeCtr (p : Nat) (g : SetSite → SetSite) : (d.onSite p g).freeCtr = d.freeCtr := rfl
@[simp] theorem Dev.onSite_out (p : Nat) (g : SetSite → SetSite) : (d.onSite p g).out = d.out := rfl
@[simp] theorem Dev.onSite_die (p : Nat) (g : SetSite → SetSite) : (d.onSite p g).die = d.die := rfl
@[simp] theorem Dev.onSite_boot (p : Nat) (g : SetSite → SetSite) : (d.onSite p g).boot = d.boot := rfl
@[simp] theorem Dev.onSite_keep (p : Nat) (g : SetSite → SetSite) : (d.onSite p g).keep = d.keep := rfl
@[simp] theorem Dev.onSite_card (p : Nat) (g : SetSite → SetSite) : (d.onSite p g).card = d.card := rfl
@[simp] theorem Dev.onSite_setPos (p : Nat) (g : SetSite → SetSite) : (d.onSite p g).setPos = d.setPos := rfl
@[simp] theorem Dev.onSite_cryPos (p : Nat) (g : SetSite → SetSite) : (d.onSite p g).cryPos = d.cryPos := rfl
@[simp] theorem Dev.onSite_power (p : Nat) (g : SetSite → SetSite) : (d.onSite p g).power = d.power := rfl
@[simp] theorem Dev.onSite_links (p : Nat) (g : SetSite → SetSite) : (d.onSite p g).links = d.links := rfl
@[simp] theorem Dev.onSite_funcs (p : Nat) (g : SetSite → SetSite) : (d.onSite p g).funcs = d.funcs := rfl
@[simp] theorem Dev.onSite_chans (p : Nat) (g : SetSite → SetSite) : (d.onSite p g).chans = d.chans := rfl
@[simp] theorem Dev.onSite_routes (p : Nat) (g : SetSite → SetSite) : (d.onSite p g).routes = d.routes := rfl
@[simp] theorem Dev.onSite_cores (p : Nat) (g : SetSite → SetSite) : (d.onSite p g).cores = d.cores := rfl
@[simp] theorem Dev.onSite_escalations (p : Nat) (g : SetSite → SetSite) : (d.onSite p g).escalations = d.escalations := rfl
@[simp] theorem Dev.onSite_rings (p : Nat) (g : SetSite → SetSite) : (d.onSite p g).rings = d.rings := rfl
@[simp] theorem Dev.onSite_groups (p : Nat) (g : SetSite → SetSite) : (d.onSite p g).groups = d.groups := rfl
@[simp] theorem Dev.onSite_ringErrors (p : Nat) (g : SetSite → SetSite) : (d.onSite p g).ringErrors = d.ringErrors := rfl
@[simp] theorem Dev.onSite_ctxCache (p : Nat) (g : SetSite → SetSite) : (d.onSite p g).ctxCache = d.ctxCache := rfl
@[simp] theorem Dev.onSite_ctxSnap (p : Nat) (g : SetSite → SetSite) : (d.onSite p g).ctxSnap = d.ctxSnap := rfl
@[simp] theorem Dev.onSite_items (p : Nat) (g : SetSite → SetSite) : (d.onSite p g).items = d.items := rfl
@[simp] theorem Dev.onSite_nextItem (p : Nat) (g : SetSite → SetSite) : (d.onSite p g).nextItem = d.nextItem := rfl
@[simp] theorem Dev.onSite_admitted (p : Nat) (g : SetSite → SetSite) : (d.onSite p g).admitted = d.admitted := rfl
@[simp] theorem Dev.onSite_dispatched (p : Nat) (g : SetSite → SetSite) : (d.onSite p g).dispatched = d.dispatched := rfl
@[simp] theorem Dev.onSite_failures (p : Nat) (g : SetSite → SetSite) : (d.onSite p g).failures = d.failures := rfl
@[simp] theorem Dev.onSite_replays (p : Nat) (g : SetSite → SetSite) : (d.onSite p g).replays = d.replays := rfl
@[simp] theorem Dev.onSite_epilogues (p : Nat) (g : SetSite → SetSite) : (d.onSite p g).epilogues = d.epilogues := rfl
@[simp] theorem Dev.onSite_credits (p : Nat) (g : SetSite → SetSite) : (d.onSite p g).credits = d.credits := rfl
@[simp] theorem Dev.onSite_sched (p : Nat) (g : SetSite → SetSite) : (d.onSite p g).sched = d.sched := rfl
@[simp] theorem Dev.onSite_macs (p : Nat) (g : SetSite → SetSite) : (d.onSite p g).macs = d.macs := rfl
@[simp] theorem Dev.onSite_tempo (p : Nat) (g : SetSite → SetSite) : (d.onSite p g).tempo = d.tempo := rfl
@[simp] theorem Dev.onSite_tenants (p : Nat) (g : SetSite → SetSite) : (d.onSite p g).tenants = d.tenants := rfl
@[simp] theorem Dev.onSite_mtb (p : Nat) (g : SetSite → SetSite) : (d.onSite p g).mtb = d.mtb := rfl
@[simp] theorem Dev.onSite_ctxs (p : Nat) (g : SetSite → SetSite) : (d.onSite p g).ctxs = d.ctxs := rfl
@[simp] theorem Dev.onSite_ctxKeys (p : Nat) (g : SetSite → SetSite) : (d.onSite p g).ctxKeys = d.ctxKeys := rfl
@[simp] theorem Dev.onSite_ctxFailed (p : Nat) (g : SetSite → SetSite) : (d.onSite p g).ctxFailed = d.ctxFailed := rfl
@[simp] theorem Dev.onSite_crySnap (p : Nat) (g : SetSite → SetSite) : (d.onSite p g).crySnap = d.crySnap := rfl
@[simp] theorem Dev.onSite_idents (p : Nat) (g : SetSite → SetSite) : (d.onSite p g).idents = d.idents := rfl
@[simp] theorem Dev.onSite_counters (p : Nat) (g : SetSite → SetSite) : (d.onSite p g).counters = d.counters := rfl
@[simp] theorem Dev.onSite_cells (p : Nat) (g : SetSite → SetSite) : (d.onSite p g).cells = d.cells := rfl
@[simp] theorem Dev.onSite_jobs (p : Nat) (g : SetSite → SetSite) : (d.onSite p g).jobs = d.jobs := rfl
@[simp] theorem Dev.onSite_nextJob (p : Nat) (g : SetSite → SetSite) : (d.onSite p g).nextJob = d.nextJob := rfl
@[simp] theorem Dev.onSite_apply (p : Nat) (g : SetSite → SetSite) : (d.onSite p g).apply = d.apply := rfl
@[simp] theorem Dev.onSite_drains (p : Nat) (g : SetSite → SetSite) : (d.onSite p g).drains = d.drains := rfl
@[simp] theorem Dev.onSite_qps (p : Nat) (g : SetSite → SetSite) : (d.onSite p g).qps = d.qps := rfl
@[simp] theorem Dev.onSite_conns (p : Nat) (g : SetSite → SetSite) : (d.onSite p g).conns = d.conns := rfl
@[simp] theorem Dev.onSite_nvmes (p : Nat) (g : SetSite → SetSite) : (d.onSite p g).nvmes = d.nvmes := rfl
@[simp] theorem Dev.onSite_dma (p : Nat) (g : SetSite → SetSite) : (d.onSite p g).dma = d.dma := rfl
@[simp] theorem Dev.onSite_region (p : Nat) (g : SetSite → SetSite) : (d.onSite p g).region = d.region := rfl
@[simp] theorem Dev.onSite_movers (p : Nat) (g : SetSite → SetSite) : (d.onSite p g).movers = d.movers := rfl
@[simp] theorem Dev.onSite_stp (p : Nat) (g : SetSite → SetSite) : (d.onSite p g).stp = d.stp := rfl
@[simp] theorem Dev.onSite_dbg (p : Nat) (g : SetSite → SetSite) : (d.onSite p g).dbg = d.dbg := rfl
@[simp] theorem Dev.onSite_eid (p : Nat) (g : SetSite → SetSite) : (d.onSite p g).eid = d.eid := rfl
@[simp] theorem Dev.onSite_macCounts (p : Nat) (g : SetSite → SetSite) : (d.onSite p g).macCounts = d.macCounts := rfl

/-! ## onPower -/

@[simp] theorem Dev.onPower_phase (g : Power → Power) : (d.onPower g).phase = d.phase := rfl
@[simp] theorem Dev.onPower_railsGood (g : Power → Power) : (d.onPower g).railsGood = d.railsGood := rfl
@[simp] theorem Dev.onPower_resetLow (g : Power → Power) : (d.onPower g).resetLow = d.resetLow := rfl
@[simp] theorem Dev.onPower_testen (g : Power → Power) : (d.onPower g).testen = d.testen := rfl
@[simp] theorem Dev.onPower_regs (g : Power → Power) : (d.onPower g).regs = d.regs := rfl
@[simp] theorem Dev.onPower_freeCtr (g : Power → Power) : (d.onPower g).freeCtr = d.freeCtr := rfl
@[simp] theorem Dev.onPower_out (g : Power → Power) : (d.onPower g).out = d.out := rfl
@[simp] theorem Dev.onPower_die (g : Power → Power) : (d.onPower g).die = d.die := rfl
@[simp] theorem Dev.onPower_boot (g : Power → Power) : (d.onPower g).boot = d.boot := rfl
@[simp] theorem Dev.onPower_keep (g : Power → Power) : (d.onPower g).keep = d.keep := rfl
@[simp] theorem Dev.onPower_card (g : Power → Power) : (d.onPower g).card = d.card := rfl
@[simp] theorem Dev.onPower_setPos (g : Power → Power) : (d.onPower g).setPos = d.setPos := rfl
@[simp] theorem Dev.onPower_cryPos (g : Power → Power) : (d.onPower g).cryPos = d.cryPos := rfl
@[simp] theorem Dev.onPower_links (g : Power → Power) : (d.onPower g).links = d.links := rfl
@[simp] theorem Dev.onPower_funcs (g : Power → Power) : (d.onPower g).funcs = d.funcs := rfl
@[simp] theorem Dev.onPower_chans (g : Power → Power) : (d.onPower g).chans = d.chans := rfl
@[simp] theorem Dev.onPower_routes (g : Power → Power) : (d.onPower g).routes = d.routes := rfl
@[simp] theorem Dev.onPower_cores (g : Power → Power) : (d.onPower g).cores = d.cores := rfl
@[simp] theorem Dev.onPower_escalations (g : Power → Power) : (d.onPower g).escalations = d.escalations := rfl
@[simp] theorem Dev.onPower_rings (g : Power → Power) : (d.onPower g).rings = d.rings := rfl
@[simp] theorem Dev.onPower_groups (g : Power → Power) : (d.onPower g).groups = d.groups := rfl
@[simp] theorem Dev.onPower_ringErrors (g : Power → Power) : (d.onPower g).ringErrors = d.ringErrors := rfl
@[simp] theorem Dev.onPower_ctxCache (g : Power → Power) : (d.onPower g).ctxCache = d.ctxCache := rfl
@[simp] theorem Dev.onPower_ctxSnap (g : Power → Power) : (d.onPower g).ctxSnap = d.ctxSnap := rfl
@[simp] theorem Dev.onPower_items (g : Power → Power) : (d.onPower g).items = d.items := rfl
@[simp] theorem Dev.onPower_nextItem (g : Power → Power) : (d.onPower g).nextItem = d.nextItem := rfl
@[simp] theorem Dev.onPower_admitted (g : Power → Power) : (d.onPower g).admitted = d.admitted := rfl
@[simp] theorem Dev.onPower_dispatched (g : Power → Power) : (d.onPower g).dispatched = d.dispatched := rfl
@[simp] theorem Dev.onPower_failures (g : Power → Power) : (d.onPower g).failures = d.failures := rfl
@[simp] theorem Dev.onPower_replays (g : Power → Power) : (d.onPower g).replays = d.replays := rfl
@[simp] theorem Dev.onPower_epilogues (g : Power → Power) : (d.onPower g).epilogues = d.epilogues := rfl
@[simp] theorem Dev.onPower_credits (g : Power → Power) : (d.onPower g).credits = d.credits := rfl
@[simp] theorem Dev.onPower_sched (g : Power → Power) : (d.onPower g).sched = d.sched := rfl
@[simp] theorem Dev.onPower_macs (g : Power → Power) : (d.onPower g).macs = d.macs := rfl
@[simp] theorem Dev.onPower_tempo (g : Power → Power) : (d.onPower g).tempo = d.tempo := rfl
@[simp] theorem Dev.onPower_tenants (g : Power → Power) : (d.onPower g).tenants = d.tenants := rfl
@[simp] theorem Dev.onPower_mtb (g : Power → Power) : (d.onPower g).mtb = d.mtb := rfl
@[simp] theorem Dev.onPower_ctxs (g : Power → Power) : (d.onPower g).ctxs = d.ctxs := rfl
@[simp] theorem Dev.onPower_ctxKeys (g : Power → Power) : (d.onPower g).ctxKeys = d.ctxKeys := rfl
@[simp] theorem Dev.onPower_ctxFailed (g : Power → Power) : (d.onPower g).ctxFailed = d.ctxFailed := rfl
@[simp] theorem Dev.onPower_crySnap (g : Power → Power) : (d.onPower g).crySnap = d.crySnap := rfl
@[simp] theorem Dev.onPower_idents (g : Power → Power) : (d.onPower g).idents = d.idents := rfl
@[simp] theorem Dev.onPower_counters (g : Power → Power) : (d.onPower g).counters = d.counters := rfl
@[simp] theorem Dev.onPower_cells (g : Power → Power) : (d.onPower g).cells = d.cells := rfl
@[simp] theorem Dev.onPower_sites (g : Power → Power) : (d.onPower g).sites = d.sites := rfl
@[simp] theorem Dev.onPower_jobs (g : Power → Power) : (d.onPower g).jobs = d.jobs := rfl
@[simp] theorem Dev.onPower_nextJob (g : Power → Power) : (d.onPower g).nextJob = d.nextJob := rfl
@[simp] theorem Dev.onPower_apply (g : Power → Power) : (d.onPower g).apply = d.apply := rfl
@[simp] theorem Dev.onPower_drains (g : Power → Power) : (d.onPower g).drains = d.drains := rfl
@[simp] theorem Dev.onPower_qps (g : Power → Power) : (d.onPower g).qps = d.qps := rfl
@[simp] theorem Dev.onPower_conns (g : Power → Power) : (d.onPower g).conns = d.conns := rfl
@[simp] theorem Dev.onPower_nvmes (g : Power → Power) : (d.onPower g).nvmes = d.nvmes := rfl
@[simp] theorem Dev.onPower_dma (g : Power → Power) : (d.onPower g).dma = d.dma := rfl
@[simp] theorem Dev.onPower_region (g : Power → Power) : (d.onPower g).region = d.region := rfl
@[simp] theorem Dev.onPower_movers (g : Power → Power) : (d.onPower g).movers = d.movers := rfl
@[simp] theorem Dev.onPower_stp (g : Power → Power) : (d.onPower g).stp = d.stp := rfl
@[simp] theorem Dev.onPower_dbg (g : Power → Power) : (d.onPower g).dbg = d.dbg := rfl
@[simp] theorem Dev.onPower_eid (g : Power → Power) : (d.onPower g).eid = d.eid := rfl
@[simp] theorem Dev.onPower_macCounts (g : Power → Power) : (d.onPower g).macCounts = d.macCounts := rfl

/-! ## onMtb -/

@[simp] theorem Dev.onMtb_phase (g : Mtb → Mtb) : (d.onMtb g).phase = d.phase := rfl
@[simp] theorem Dev.onMtb_railsGood (g : Mtb → Mtb) : (d.onMtb g).railsGood = d.railsGood := rfl
@[simp] theorem Dev.onMtb_resetLow (g : Mtb → Mtb) : (d.onMtb g).resetLow = d.resetLow := rfl
@[simp] theorem Dev.onMtb_testen (g : Mtb → Mtb) : (d.onMtb g).testen = d.testen := rfl
@[simp] theorem Dev.onMtb_regs (g : Mtb → Mtb) : (d.onMtb g).regs = d.regs := rfl
@[simp] theorem Dev.onMtb_freeCtr (g : Mtb → Mtb) : (d.onMtb g).freeCtr = d.freeCtr := rfl
@[simp] theorem Dev.onMtb_out (g : Mtb → Mtb) : (d.onMtb g).out = d.out := rfl
@[simp] theorem Dev.onMtb_die (g : Mtb → Mtb) : (d.onMtb g).die = d.die := rfl
@[simp] theorem Dev.onMtb_boot (g : Mtb → Mtb) : (d.onMtb g).boot = d.boot := rfl
@[simp] theorem Dev.onMtb_keep (g : Mtb → Mtb) : (d.onMtb g).keep = d.keep := rfl
@[simp] theorem Dev.onMtb_card (g : Mtb → Mtb) : (d.onMtb g).card = d.card := rfl
@[simp] theorem Dev.onMtb_setPos (g : Mtb → Mtb) : (d.onMtb g).setPos = d.setPos := rfl
@[simp] theorem Dev.onMtb_cryPos (g : Mtb → Mtb) : (d.onMtb g).cryPos = d.cryPos := rfl
@[simp] theorem Dev.onMtb_power (g : Mtb → Mtb) : (d.onMtb g).power = d.power := rfl
@[simp] theorem Dev.onMtb_links (g : Mtb → Mtb) : (d.onMtb g).links = d.links := rfl
@[simp] theorem Dev.onMtb_funcs (g : Mtb → Mtb) : (d.onMtb g).funcs = d.funcs := rfl
@[simp] theorem Dev.onMtb_chans (g : Mtb → Mtb) : (d.onMtb g).chans = d.chans := rfl
@[simp] theorem Dev.onMtb_routes (g : Mtb → Mtb) : (d.onMtb g).routes = d.routes := rfl
@[simp] theorem Dev.onMtb_cores (g : Mtb → Mtb) : (d.onMtb g).cores = d.cores := rfl
@[simp] theorem Dev.onMtb_escalations (g : Mtb → Mtb) : (d.onMtb g).escalations = d.escalations := rfl
@[simp] theorem Dev.onMtb_rings (g : Mtb → Mtb) : (d.onMtb g).rings = d.rings := rfl
@[simp] theorem Dev.onMtb_groups (g : Mtb → Mtb) : (d.onMtb g).groups = d.groups := rfl
@[simp] theorem Dev.onMtb_ringErrors (g : Mtb → Mtb) : (d.onMtb g).ringErrors = d.ringErrors := rfl
@[simp] theorem Dev.onMtb_ctxCache (g : Mtb → Mtb) : (d.onMtb g).ctxCache = d.ctxCache := rfl
@[simp] theorem Dev.onMtb_ctxSnap (g : Mtb → Mtb) : (d.onMtb g).ctxSnap = d.ctxSnap := rfl
@[simp] theorem Dev.onMtb_items (g : Mtb → Mtb) : (d.onMtb g).items = d.items := rfl
@[simp] theorem Dev.onMtb_nextItem (g : Mtb → Mtb) : (d.onMtb g).nextItem = d.nextItem := rfl
@[simp] theorem Dev.onMtb_admitted (g : Mtb → Mtb) : (d.onMtb g).admitted = d.admitted := rfl
@[simp] theorem Dev.onMtb_dispatched (g : Mtb → Mtb) : (d.onMtb g).dispatched = d.dispatched := rfl
@[simp] theorem Dev.onMtb_failures (g : Mtb → Mtb) : (d.onMtb g).failures = d.failures := rfl
@[simp] theorem Dev.onMtb_replays (g : Mtb → Mtb) : (d.onMtb g).replays = d.replays := rfl
@[simp] theorem Dev.onMtb_epilogues (g : Mtb → Mtb) : (d.onMtb g).epilogues = d.epilogues := rfl
@[simp] theorem Dev.onMtb_credits (g : Mtb → Mtb) : (d.onMtb g).credits = d.credits := rfl
@[simp] theorem Dev.onMtb_sched (g : Mtb → Mtb) : (d.onMtb g).sched = d.sched := rfl
@[simp] theorem Dev.onMtb_macs (g : Mtb → Mtb) : (d.onMtb g).macs = d.macs := rfl
@[simp] theorem Dev.onMtb_tempo (g : Mtb → Mtb) : (d.onMtb g).tempo = d.tempo := rfl
@[simp] theorem Dev.onMtb_tenants (g : Mtb → Mtb) : (d.onMtb g).tenants = d.tenants := rfl
@[simp] theorem Dev.onMtb_ctxs (g : Mtb → Mtb) : (d.onMtb g).ctxs = d.ctxs := rfl
@[simp] theorem Dev.onMtb_ctxKeys (g : Mtb → Mtb) : (d.onMtb g).ctxKeys = d.ctxKeys := rfl
@[simp] theorem Dev.onMtb_ctxFailed (g : Mtb → Mtb) : (d.onMtb g).ctxFailed = d.ctxFailed := rfl
@[simp] theorem Dev.onMtb_crySnap (g : Mtb → Mtb) : (d.onMtb g).crySnap = d.crySnap := rfl
@[simp] theorem Dev.onMtb_idents (g : Mtb → Mtb) : (d.onMtb g).idents = d.idents := rfl
@[simp] theorem Dev.onMtb_counters (g : Mtb → Mtb) : (d.onMtb g).counters = d.counters := rfl
@[simp] theorem Dev.onMtb_cells (g : Mtb → Mtb) : (d.onMtb g).cells = d.cells := rfl
@[simp] theorem Dev.onMtb_sites (g : Mtb → Mtb) : (d.onMtb g).sites = d.sites := rfl
@[simp] theorem Dev.onMtb_jobs (g : Mtb → Mtb) : (d.onMtb g).jobs = d.jobs := rfl
@[simp] theorem Dev.onMtb_nextJob (g : Mtb → Mtb) : (d.onMtb g).nextJob = d.nextJob := rfl
@[simp] theorem Dev.onMtb_apply (g : Mtb → Mtb) : (d.onMtb g).apply = d.apply := rfl
@[simp] theorem Dev.onMtb_drains (g : Mtb → Mtb) : (d.onMtb g).drains = d.drains := rfl
@[simp] theorem Dev.onMtb_qps (g : Mtb → Mtb) : (d.onMtb g).qps = d.qps := rfl
@[simp] theorem Dev.onMtb_conns (g : Mtb → Mtb) : (d.onMtb g).conns = d.conns := rfl
@[simp] theorem Dev.onMtb_nvmes (g : Mtb → Mtb) : (d.onMtb g).nvmes = d.nvmes := rfl
@[simp] theorem Dev.onMtb_dma (g : Mtb → Mtb) : (d.onMtb g).dma = d.dma := rfl
@[simp] theorem Dev.onMtb_region (g : Mtb → Mtb) : (d.onMtb g).region = d.region := rfl
@[simp] theorem Dev.onMtb_movers (g : Mtb → Mtb) : (d.onMtb g).movers = d.movers := rfl
@[simp] theorem Dev.onMtb_stp (g : Mtb → Mtb) : (d.onMtb g).stp = d.stp := rfl
@[simp] theorem Dev.onMtb_dbg (g : Mtb → Mtb) : (d.onMtb g).dbg = d.dbg := rfl
@[simp] theorem Dev.onMtb_eid (g : Mtb → Mtb) : (d.onMtb g).eid = d.eid := rfl
@[simp] theorem Dev.onMtb_macCounts (g : Mtb → Mtb) : (d.onMtb g).macCounts = d.macCounts := rfl

/-! ## onStp -/

@[simp] theorem Dev.onStp_phase (g : Stp → Stp) : (d.onStp g).phase = d.phase := rfl
@[simp] theorem Dev.onStp_railsGood (g : Stp → Stp) : (d.onStp g).railsGood = d.railsGood := rfl
@[simp] theorem Dev.onStp_resetLow (g : Stp → Stp) : (d.onStp g).resetLow = d.resetLow := rfl
@[simp] theorem Dev.onStp_testen (g : Stp → Stp) : (d.onStp g).testen = d.testen := rfl
@[simp] theorem Dev.onStp_regs (g : Stp → Stp) : (d.onStp g).regs = d.regs := rfl
@[simp] theorem Dev.onStp_freeCtr (g : Stp → Stp) : (d.onStp g).freeCtr = d.freeCtr := rfl
@[simp] theorem Dev.onStp_out (g : Stp → Stp) : (d.onStp g).out = d.out := rfl
@[simp] theorem Dev.onStp_die (g : Stp → Stp) : (d.onStp g).die = d.die := rfl
@[simp] theorem Dev.onStp_boot (g : Stp → Stp) : (d.onStp g).boot = d.boot := rfl
@[simp] theorem Dev.onStp_keep (g : Stp → Stp) : (d.onStp g).keep = d.keep := rfl
@[simp] theorem Dev.onStp_card (g : Stp → Stp) : (d.onStp g).card = d.card := rfl
@[simp] theorem Dev.onStp_setPos (g : Stp → Stp) : (d.onStp g).setPos = d.setPos := rfl
@[simp] theorem Dev.onStp_cryPos (g : Stp → Stp) : (d.onStp g).cryPos = d.cryPos := rfl
@[simp] theorem Dev.onStp_power (g : Stp → Stp) : (d.onStp g).power = d.power := rfl
@[simp] theorem Dev.onStp_links (g : Stp → Stp) : (d.onStp g).links = d.links := rfl
@[simp] theorem Dev.onStp_funcs (g : Stp → Stp) : (d.onStp g).funcs = d.funcs := rfl
@[simp] theorem Dev.onStp_chans (g : Stp → Stp) : (d.onStp g).chans = d.chans := rfl
@[simp] theorem Dev.onStp_routes (g : Stp → Stp) : (d.onStp g).routes = d.routes := rfl
@[simp] theorem Dev.onStp_cores (g : Stp → Stp) : (d.onStp g).cores = d.cores := rfl
@[simp] theorem Dev.onStp_escalations (g : Stp → Stp) : (d.onStp g).escalations = d.escalations := rfl
@[simp] theorem Dev.onStp_rings (g : Stp → Stp) : (d.onStp g).rings = d.rings := rfl
@[simp] theorem Dev.onStp_groups (g : Stp → Stp) : (d.onStp g).groups = d.groups := rfl
@[simp] theorem Dev.onStp_ringErrors (g : Stp → Stp) : (d.onStp g).ringErrors = d.ringErrors := rfl
@[simp] theorem Dev.onStp_ctxCache (g : Stp → Stp) : (d.onStp g).ctxCache = d.ctxCache := rfl
@[simp] theorem Dev.onStp_ctxSnap (g : Stp → Stp) : (d.onStp g).ctxSnap = d.ctxSnap := rfl
@[simp] theorem Dev.onStp_items (g : Stp → Stp) : (d.onStp g).items = d.items := rfl
@[simp] theorem Dev.onStp_nextItem (g : Stp → Stp) : (d.onStp g).nextItem = d.nextItem := rfl
@[simp] theorem Dev.onStp_admitted (g : Stp → Stp) : (d.onStp g).admitted = d.admitted := rfl
@[simp] theorem Dev.onStp_dispatched (g : Stp → Stp) : (d.onStp g).dispatched = d.dispatched := rfl
@[simp] theorem Dev.onStp_failures (g : Stp → Stp) : (d.onStp g).failures = d.failures := rfl
@[simp] theorem Dev.onStp_replays (g : Stp → Stp) : (d.onStp g).replays = d.replays := rfl
@[simp] theorem Dev.onStp_epilogues (g : Stp → Stp) : (d.onStp g).epilogues = d.epilogues := rfl
@[simp] theorem Dev.onStp_credits (g : Stp → Stp) : (d.onStp g).credits = d.credits := rfl
@[simp] theorem Dev.onStp_sched (g : Stp → Stp) : (d.onStp g).sched = d.sched := rfl
@[simp] theorem Dev.onStp_macs (g : Stp → Stp) : (d.onStp g).macs = d.macs := rfl
@[simp] theorem Dev.onStp_tempo (g : Stp → Stp) : (d.onStp g).tempo = d.tempo := rfl
@[simp] theorem Dev.onStp_tenants (g : Stp → Stp) : (d.onStp g).tenants = d.tenants := rfl
@[simp] theorem Dev.onStp_mtb (g : Stp → Stp) : (d.onStp g).mtb = d.mtb := rfl
@[simp] theorem Dev.onStp_ctxs (g : Stp → Stp) : (d.onStp g).ctxs = d.ctxs := rfl
@[simp] theorem Dev.onStp_ctxKeys (g : Stp → Stp) : (d.onStp g).ctxKeys = d.ctxKeys := rfl
@[simp] theorem Dev.onStp_ctxFailed (g : Stp → Stp) : (d.onStp g).ctxFailed = d.ctxFailed := rfl
@[simp] theorem Dev.onStp_crySnap (g : Stp → Stp) : (d.onStp g).crySnap = d.crySnap := rfl
@[simp] theorem Dev.onStp_idents (g : Stp → Stp) : (d.onStp g).idents = d.idents := rfl
@[simp] theorem Dev.onStp_counters (g : Stp → Stp) : (d.onStp g).counters = d.counters := rfl
@[simp] theorem Dev.onStp_cells (g : Stp → Stp) : (d.onStp g).cells = d.cells := rfl
@[simp] theorem Dev.onStp_sites (g : Stp → Stp) : (d.onStp g).sites = d.sites := rfl
@[simp] theorem Dev.onStp_jobs (g : Stp → Stp) : (d.onStp g).jobs = d.jobs := rfl
@[simp] theorem Dev.onStp_nextJob (g : Stp → Stp) : (d.onStp g).nextJob = d.nextJob := rfl
@[simp] theorem Dev.onStp_apply (g : Stp → Stp) : (d.onStp g).apply = d.apply := rfl
@[simp] theorem Dev.onStp_drains (g : Stp → Stp) : (d.onStp g).drains = d.drains := rfl
@[simp] theorem Dev.onStp_qps (g : Stp → Stp) : (d.onStp g).qps = d.qps := rfl
@[simp] theorem Dev.onStp_conns (g : Stp → Stp) : (d.onStp g).conns = d.conns := rfl
@[simp] theorem Dev.onStp_nvmes (g : Stp → Stp) : (d.onStp g).nvmes = d.nvmes := rfl
@[simp] theorem Dev.onStp_dma (g : Stp → Stp) : (d.onStp g).dma = d.dma := rfl
@[simp] theorem Dev.onStp_region (g : Stp → Stp) : (d.onStp g).region = d.region := rfl
@[simp] theorem Dev.onStp_movers (g : Stp → Stp) : (d.onStp g).movers = d.movers := rfl
@[simp] theorem Dev.onStp_dbg (g : Stp → Stp) : (d.onStp g).dbg = d.dbg := rfl
@[simp] theorem Dev.onStp_eid (g : Stp → Stp) : (d.onStp g).eid = d.eid := rfl
@[simp] theorem Dev.onStp_macCounts (g : Stp → Stp) : (d.onStp g).macCounts = d.macCounts := rfl

@[simp] theorem Dev.emit_out (o : Output) : (d.emit o).out = d.out ++ [o] := rfl

/-! ## Lifts to the whole state -/

/-- A command on the device answers a next state, with the queue, the fuses and the flash as they were. -/
theorem State.onDev_next (s : State) (f : Dev → Dev) : s.onDev f = .next { s with dev := f s.dev } := rfl

theorem State.onRun_running {s : State} (f : Dev → Dev) (h : s.dev.phase = .running) : s.onRun f = .next { s with dev := f s.dev } := by
  simp [State.onRun, h]

theorem State.onRun_idle {s : State} (f : Dev → Dev) (h : s.dev.phase ≠ .running) : s.onRun f = .next s := by
  simp [State.onRun, h]

theorem State.onLive_running {s : State} (f : Dev → Dev) (h : s.dev.phase = .running) : s.onLive f = .next { s with dev := f s.dev } := by
  simp [State.onLive, h]

/-- Whatever `onRun` and `onLive` answer, only the device may differ. -/
theorem State.onRun_keeps {s t : State} {f : Dev → Dev} (h : s.onRun f = .next t) :
    t.pending = s.pending ∧ t.fuses = s.fuses ∧ t.flash = s.flash := by
  unfold State.onRun at h
  split at h <;> cases h <;> exact ⟨rfl, rfl, rfl⟩

theorem State.onLive_keeps {s t : State} {f : Dev → Dev} (h : s.onLive f = .next t) :
    t.pending = s.pending ∧ t.fuses = s.fuses ∧ t.flash = s.flash := by
  unfold State.onLive at h
  split at h <;> cases h <;> exact ⟨rfl, rfl, rfl⟩

end Sys2Proof.Machine
end

