-- ==== Sys2Proof/Laws/Tables.lean ====
section
/-!
SUPPORT. Sparse tables: what a lookup finds after each operation, and that every operation keeps the canonical form, keys strictly
rising; the control region, whose bytes of zero are not listed.
-/

namespace Sys2Proof

variable {α β : Type}

/-! ## Lookups -/

theorem findKey_insertKey (k j : Nat) (v : α) (m : List (Nat × α)) :
    findKey j (insertKey k v m) = if j = k then some v else findKey j m := by
  induction m with
  | nil => simp [insertKey, findKey]
  | cons p m ih =>
    obtain ⟨k', v'⟩ := p
    unfold insertKey
    split
    · subst_vars
      by_cases h : j = k' <;> simp [findKey, h]
    · split
      · by_cases h : j = k <;> simp [findKey, h]
      · by_cases h : j = k'
        · subst h
          have : ¬ j = k := fun e => by simp_all
          simp [findKey, this]
        · simp [findKey, h, ih]

theorem findKey_eraseKey (k j : Nat) (m : List (Nat × α)) :
    findKey j (eraseKey k m) = if j = k then none else findKey j m := by
  unfold eraseKey
  induction m with
  | nil => simp [findKey]
  | cons p m ih =>
    obtain ⟨k', v'⟩ := p
    by_cases hk : k' = k
    · subst hk
      by_cases h : j = k' <;> simp_all [findKey, List.filter]
    · by_cases h : j = k'
      · subst h
        simp [findKey, List.filter, hk]
      · simpa [findKey, List.filter, hk, h] using ih

namespace NMap

@[simp] theorem get?_empty (k : Nat) : ({} : NMap α).get? k = none := rfl

theorem get?_set (m : NMap α) (k j : Nat) (v : α) : (m.set k v).get? j = if j = k then some v else m.get? j :=
  findKey_insertKey k j v m.entries

@[simp] theorem get?_set_self (m : NMap α) (k : Nat) (v : α) : (m.set k v).get? k = some v := by simp [get?_set]

theorem get?_set_ne (m : NMap α) {k j : Nat} (v : α) (h : j ≠ k) : (m.set k v).get? j = m.get? j := by simp [get?_set, h]

theorem get?_erase (m : NMap α) (k j : Nat) : (m.erase k).get? j = if j = k then none else m.get? j := findKey_eraseKey k j m.entries

@[simp] theorem get?_erase_self (m : NMap α) (k : Nat) : (m.erase k).get? k = none := by simp [get?_erase]

theorem get?_upd (m : NMap α) (k j : Nat) (x : α) (f : α → α) :
    (m.upd k x f).get? j = if j = k then some (f (m.getD k x)) else m.get? j := get?_set m k j _

theorem get?_modify (m : NMap α) (k j : Nat) (f : α → α) :
    (m.modify k f).get? j = if j = k then (m.get? k).map f else m.get? j := by
  unfold modify
  cases h : m.get? k with
  | none => by_cases e : j = k <;> simp [e, h]
  | some v => simp [get?_set]

theorem get?_mapVals (m : NMap α) (f : Nat → α → β) (k : Nat) : (m.mapVals f).get? k = (m.get? k).map (f k) := by
  obtain ⟨l⟩ := m
  show findKey k (l.map _) = (findKey k l).map (f k)
  induction l with
  | nil => rfl
  | cons p l ih =>
    obtain ⟨k', v⟩ := p
    by_cases h : k = k'
    · subst h; simp [findKey]
    · simp [findKey, h, ih]

@[simp] theorem getD_set_self (m : NMap α) (k : Nat) (v x : α) : (m.set k v).getD k x = v := by simp [getD]

theorem getD_set_ne (m : NMap α) {k j : Nat} (v x : α) (h : j ≠ k) : (m.set k v).getD j x = m.getD j x := by simp [getD, get?_set_ne m v h]

@[simp] theorem getD_erase_self (m : NMap α) (k : Nat) (x : α) : (m.erase k).getD k x = x := by simp [getD]

@[simp] theorem getD_upd_self (m : NMap α) (k : Nat) (x : α) (f : α → α) : (m.upd k x f).getD k x = f (m.getD k x) := by simp [getD, get?_upd]

theorem getD_upd_ne (m : NMap α) {k j : Nat} (x y : α) (f : α → α) (h : j ≠ k) : (m.upd k x f).getD j y = m.getD j y := by
  simp [getD, get?_upd, h]

end NMap

/-! ## The canonical form -/

theorem keysRise_cons (p : Nat × α) (m : List (Nat × α)) :
    keysRise (p :: m) = true ↔ (∀ q ∈ m, p.1 < q.1) ∧ keysRise m = true := by
  obtain ⟨k, v⟩ := p
  simp [keysRise]

theorem mem_insertKey {k : Nat} {v : α} {q : Nat × α} {m : List (Nat × α)} (h : q ∈ insertKey k v m) : q.1 = k ∨ q ∈ m := by
  induction m with
  | nil => simp [insertKey] at h; exact .inl (by rw [h])
  | cons p m ih =>
    obtain ⟨k', v'⟩ := p
    unfold insertKey at h
    split at h
    · rcases List.mem_cons.1 h with rfl | h
      · exact .inl rfl
      · exact .inr (List.mem_cons_of_mem _ h)
    · split at h
      · rcases List.mem_cons.1 h with rfl | h
        · exact .inl rfl
        · exact .inr h
      · rcases List.mem_cons.1 h with rfl | h
        · exact .inr (List.mem_cons_self ..)
        · exact (ih h).imp id (List.mem_cons_of_mem _)

theorem keysRise_insertKey (k : Nat) (v : α) (m : List (Nat × α)) (h : keysRise m = true) : keysRise (insertKey k v m) = true := by
  induction m with
  | nil => simp [insertKey, keysRise]
  | cons p m ih =>
    obtain ⟨k', v'⟩ := p
    obtain ⟨h1, h2⟩ := (keysRise_cons _ _).1 h
    unfold insertKey
    split
    · subst_vars; exact (keysRise_cons _ _).2 ⟨h1, h2⟩
    · split
      · rename_i _ hlt
        refine (keysRise_cons _ _).2 ⟨fun q hq => ?_, h⟩
        rcases List.mem_cons.1 hq with rfl | hq
        · exact hlt
        · exact Nat.lt_trans hlt (h1 q hq)
      · refine (keysRise_cons _ _).2 ⟨fun q hq => ?_, ih h2⟩
        rcases mem_insertKey hq with e | hq
        · show k' < q.1
          omega
        · exact h1 q hq

theorem keysRise_filter (f : Nat × α → Bool) (m : List (Nat × α)) (h : keysRise m = true) : keysRise (m.filter f) = true := by
  induction m with
  | nil => rfl
  | cons p m ih =>
    obtain ⟨h1, h2⟩ := (keysRise_cons _ _).1 h
    by_cases hp : f p = true
    · simp only [List.filter_cons, hp, if_true]
      exact (keysRise_cons _ _).2 ⟨fun q hq => h1 q (List.mem_filter.1 hq).1, ih h2⟩
    · simp only [List.filter_cons, hp]
      exact ih h2

namespace NMap

theorem wf_set {m : NMap α} (k : Nat) (v : α) (h : m.wf = true) : (m.set k v).wf = true := keysRise_insertKey k v m.entries h

theorem wf_erase {m : NMap α} (k : Nat) (h : m.wf = true) : (m.erase k).wf = true := keysRise_filter _ m.entries h

theorem wf_filter {m : NMap α} (f : Nat → α → Bool) (h : m.wf = true) : (m.filter f).wf = true := keysRise_filter _ m.entries h

theorem wf_upd {m : NMap α} (k : Nat) (x : α) (f : α → α) (h : m.wf = true) : (m.upd k x f).wf = true := wf_set k _ h

theorem wf_modify {m : NMap α} (k : Nat) (f : α → α) (h : m.wf = true) : (m.modify k f).wf = true := by
  unfold modify
  split
  · exact wf_set k _ h
  · exact h

end NMap

namespace Machine

/-! ## The control region -/

/-- The canonical form of the control region: addresses rise, and no byte of zero is listed. -/
def regionWf (m : NMap Byte) : Bool := m.wf && m.entries.all (fun p => p.2 != 0)

/-- Storing a byte keeps the canonical form. -/
theorem regionWf_putRegion (d : Dev) (a : Nat) (b : Byte) (h : regionWf d.region = true) : regionWf (d.putRegion a b).region = true := by
  simp only [regionWf, Bool.and_eq_true, List.all_eq_true] at h ⊢
  obtain ⟨h1, h2⟩ := h
  unfold Dev.putRegion
  split
  · exact ⟨NMap.wf_erase a h1, fun p hp => h2 p (List.mem_filter.1 hp).1⟩
  · rename_i hb
    refine ⟨NMap.wf_set a b h1, fun p hp => ?_⟩
    have : p = (a, b) ∨ p ∈ d.region.entries := by
      revert hp
      show p ∈ insertKey a b d.region.entries → _
      generalize d.region.entries = m
      intro hp
      induction m with
      | nil => simp [insertKey] at hp; exact .inl hp
      | cons q m ih =>
        obtain ⟨k', v'⟩ := q
        unfold insertKey at hp
        split at hp
        · rcases List.mem_cons.1 hp with e | hp
          · exact .inl e
          · exact .inr (List.mem_cons_of_mem _ hp)
        · split at hp
          · rcases List.mem_cons.1 hp with e | hp
            · exact .inl e
            · exact .inr hp
          · rcases List.mem_cons.1 hp with e | hp
            · exact .inr (e ▸ List.mem_cons_self ..)
            · exact (ih hp).imp id (List.mem_cons_of_mem _)
    rcases this with rfl | hp
    · simpa using hb
    · exact h2 p hp

/-- A byte stored is read back, and every other byte reads as before. -/
theorem regionByte_putRegion (d : Dev) (a j : Nat) (b : Byte) : (d.putRegion a b).regionByte j = if j = a then b else d.regionByte j := by
  unfold Dev.putRegion Dev.regionByte
  split
  · subst_vars
    by_cases e : j = a <;> simp [NMap.getD, NMap.get?_erase, e]
  · by_cases e : j = a <;> simp [NMap.getD, NMap.get?_set, e]

end Machine

end Sys2Proof
end

