-- ==== Sys2Proof/Laws/Ops.lean ====
section
/-!
SUPPORT. One lemma per shared operation that says everything it can do: register fields, outputs, vectors, events, causes, the fault log.
-/

namespace Sys2Proof.Machine

/-! ## Register fields -/

/-- A field written reads the low bits of what was written. -/
@[simp] theorem Dev.rd_wr_self (d : Dev) (f : Field) (v i a : Nat) : (d.wr f v i a).rd f i a = v % 2 ^ f.width := by
  by_cases h : v % 2 ^ f.width = f.dflt <;> simp [Dev.wr, Dev.rd, h]

/-- A field under another key reads as before. -/
theorem Dev.rd_wr_ne (d : Dev) (f g : Field) (v i a j b : Nat) (h : g.key j b ≠ f.key i a) : (d.wr f v i a).rd g j b = d.rd g j b := by
  by_cases e : v % 2 ^ f.width = f.dflt <;> simp [Dev.wr, Dev.rd, e, NMap.getD, NMap.get?_erase, NMap.get?_set, h]

/-- A write changes the register table and, for a K field, the mark of R76; nothing else. -/
theorem Dev.wr_changes (d : Dev) (f : Field) (v i a : Nat) :
    ∃ r k, d.wr f v i a = { d with regs := r, keep := k } := ⟨_, _, rfl⟩

theorem Dev.rd_congr {d e : Dev} (h : d.regs = e.regs) (f : Field) (i a : Nat) : d.rd f i a = e.rd f i a := by
  unfold Dev.rd; rw [h]

/-- What holds before a fold and is kept by each of its steps holds after it. -/
theorem Dev.each_induct {α : Type} (P : Dev → Prop) (l : List α) (f : α → Dev → Dev) (d : Dev) (h0 : P d)
    (h : ∀ a e, P e → P (f a e)) : P (Dev.each l f d) := by
  unfold Dev.each
  induction l generalizing d with
  | nil => exact h0
  | cons a l ih => exact ih _ (h a d h0)

/-! ## Functions, links, channels -/

@[simp] theorem Dev.fn_onFn_self (d : Dev) (n : Nat) (f : Func → Func) : (d.onFn n f).fn n = f (d.fn n) := NMap.getD_upd_self ..

theorem Dev.fn_onFn_ne (d : Dev) {n m : Nat} (f : Func → Func) (h : m ≠ n) : (d.onFn n f).fn m = d.fn m := NMap.getD_upd_ne _ _ _ _ h

@[simp] theorem Dev.link_onLink_self (d : Dev) (n : Nat) (f : Link → Link) : (d.onLink n f).link n = f (d.link n) := NMap.getD_upd_self ..

theorem Dev.link_onLink_ne (d : Dev) {n m : Nat} (f : Link → Link) (h : m ≠ n) : (d.onLink n f).link m = d.link m :=
  NMap.getD_upd_ne _ _ _ _ h

@[simp] theorem Dev.chan_onChan_self (d : Dev) (n : Nat) (f : Chan → Chan) : (d.onChan n f).chan n = f (d.chan n) := NMap.getD_upd_self ..

theorem Dev.chan_onChan_ne (d : Dev) {n m : Nat} (f : Chan → Chan) (h : m ≠ n) : (d.onChan n f).chan m = d.chan m :=
  NMap.getD_upd_ne _ _ _ _ h

/-! ## Vectors -/

/-- A message leaves, or waits behind its function's posted writes: links and the output may change, nothing else. -/
theorem Dev.sendMessage_changes (d : Dev) (fn v : Nat) :
    ∃ l o, d.sendMessage fn v = { d with links := l, out := d.out ++ o } := by
  unfold Dev.sendMessage
  dsimp only
  split
  · exact ⟨_, [], by rw [List.append_nil]; rfl⟩
  · exact ⟨d.links, _, rfl⟩

/-- A message leaves or waits, is pending in its vector, or is discarded: functions, links and the output may change, nothing else. -/
theorem Dev.sendVector_changes (d : Dev) (fn v : Nat) :
    ∃ g l o, d.sendVector fn v = { d with funcs := g, links := l, out := d.out ++ o } := by
  unfold Dev.sendVector
  split
  · exact ⟨d.funcs, d.links, [], by simp⟩
  · split
    · exact ⟨_, d.links, [], by rw [List.append_nil]; rfl⟩
    · obtain ⟨l, o, h⟩ := d.sendMessage_changes fn v
      exact ⟨d.funcs, l, o, h⟩

/-- Only the pending bits of the function's vectors differ. -/
theorem Dev.sendVector_fn (d : Dev) (fn v n : Nat) :
    ∃ l, (d.sendVector fn v).fn n = { d.fn n with vecs := l } := by
  unfold Dev.sendVector
  split
  · exact ⟨_, rfl⟩
  · split
    · by_cases h : n = fn
      · subst h
        exact ⟨_, Dev.fn_onFn_self ..⟩
      · exact ⟨_, Dev.fn_onFn_ne d _ h⟩
    · obtain ⟨l, o, h⟩ := d.sendMessage_changes fn v
      rw [h]
      exact ⟨_, rfl⟩

/-! ## Events and causes -/

theorem Dev.raisePf_changes (d : Dev) (src pf : Nat) (fresh : Bool) : ∃ r, Dev.raisePf src fresh pf d = { d with routes := r } := by
  unfold Dev.raisePf
  split
  · exact ⟨d.routes, rfl⟩
  · split
    · split
      · exact ⟨_, rfl⟩
      · exact ⟨d.routes, rfl⟩
    · exact ⟨_, rfl⟩

/-- An event reaches routes and control cores: routes and the output may change, nothing else. -/
theorem Dev.raise_changes (d : Dev) (src : Nat) (fresh : Bool) :
    ∃ r o, d.raise src fresh = { d with routes := r, out := d.out ++ o } := by
  unfold Dev.raise
  apply Dev.each_induct (fun e => ∃ r o, e = { d with routes := r, out := d.out ++ o })
  · split
    · exact ⟨d.routes, _, rfl⟩
    · exact ⟨d.routes, [], by simp⟩
  · rintro pf _ ⟨r, o, rfl⟩
    obtain ⟨r', h⟩ := Dev.raisePf_changes { d with routes := r, out := d.out ++ o } src pf fresh
    exact ⟨r', o, h⟩

@[simp] theorem Dev.raise_regs (d : Dev) (src : Nat) (fresh : Bool) : (d.raise src fresh).regs = d.regs := by
  obtain ⟨r, o, h⟩ := d.raise_changes src fresh; rw [h]

/-- A cause that is set changes registers, retention, routes and the output, nothing else. -/
theorem Dev.cause_changes (d : Dev) (c : Causes) (b i : Nat) :
    ∃ g k r o, d.cause c b i = { d with regs := g, keep := k, routes := r, out := d.out ++ o } := by
  unfold Dev.cause
  split
  · exact ⟨d.regs, d.keep, d.routes, [], by simp⟩
  · dsimp only
    split
    · obtain ⟨r, o, h⟩ := Dev.raise_changes (d.wr (c.bit b) 1 i) (c.event i b) (!d.levelActive (c.event i b))
      exact ⟨(d.wr (c.bit b) 1 i).regs, (d.wr (c.bit b) 1 i).keep, r, o, by rw [h]; rfl⟩
    · exact ⟨(d.wr (c.bit b) 1 i).regs, (d.wr (c.bit b) 1 i).keep, d.routes, [], by simp [Dev.wr]⟩

/-- The bit that a cause names is set after it (R493). -/
theorem Dev.cause_on (d : Dev) (c : Causes) (b i : Nat) : (d.cause c b i).on (c.bit b) i = true := by
  unfold Dev.cause
  split
  · assumption
  · dsimp only
    have h : (d.wr (c.bit b) 1 i).on (c.bit b) i = true := by
      simp [Dev.on, Causes.bit]
    split
    · rw [Dev.on, Dev.rd_congr (Dev.raise_regs ..)]; exact h
    · exact h

/-- A field under another key reads as before a cause was set. -/
theorem Dev.rd_cause_ne (d : Dev) (c : Causes) (b i : Nat) (g : Field) (j a : Nat) (h : g.key j a ≠ (c.bit b).key i 0) :
    (d.cause c b i).rd g j a = d.rd g j a := by
  unfold Dev.cause
  split
  · rfl
  · dsimp only
    split
    · rw [Dev.rd_congr (Dev.raise_regs ..)]; exact Dev.rd_wr_ne d _ g 1 i 0 j a h
    · exact Dev.rd_wr_ne d _ g 1 i 0 j a h

/-- A bump adds to a counter, modulo its width. -/
theorem Dev.rd_bump_self (d : Dev) (f : Field) (i a n : Nat) : (d.bump f i a n).rd f i a = (d.rd f i a + n) % 2 ^ f.width :=
  Dev.rd_wr_self d f _ i a

/-! ## The fault log -/

/-- What changes registers, retention, routes and the output alone. -/
def Dev.logs (d e : Dev) : Prop := ∃ g k r o, e = { d with regs := g, keep := k, routes := r, out := d.out ++ o }

theorem Dev.logs_refl (d : Dev) : d.logs d := ⟨d.regs, d.keep, d.routes, [], by simp⟩

theorem Dev.logs_trans {a b c : Dev} (h : a.logs b) (k : b.logs c) : a.logs c := by
  obtain ⟨g, q, r, o, rfl⟩ := h
  obtain ⟨g', q', r', o', rfl⟩ := k
  exact ⟨g', q', r', o ++ o', by simp⟩

theorem Dev.logs_wr (d : Dev) (f : Field) (v i a : Nat) : d.logs (d.wr f v i a) :=
  ⟨(d.wr f v i a).regs, (d.wr f v i a).keep, d.routes, [], by simp [Dev.wr]⟩

theorem Dev.logs_cause (d : Dev) (c : Causes) (b i : Nat) : d.logs (d.cause c b i) := d.cause_changes c b i

/-- A record, new, merged or dropped, changes registers, retention, routes and the output, nothing else. -/
theorem Dev.record_changes (d : Dev) (e : Err) : d.logs (d.record e) := by
  have wr := fun (x : Dev) (h : d.logs x) f v i a => Dev.logs_trans h (Dev.logs_wr x f v i a)
  have cause := fun (x : Dev) (h : d.logs x) c b i => Dev.logs_trans h (Dev.logs_cause x c b i)
  have fresh : ∀ x, d.logs x → d.logs (x.newRecord e) := by
    intro x h
    unfold Dev.newRecord
    dsimp only
    split
    · apply cause; apply wr
      split <;> exact wr _ (wr _ h ..) ..
    · have all : ∀ y, d.logs y → d.logs (((y.refreshLog))) := by
        intro y hy
        exact wr _ (wr _ (wr _ hy ..) ..) ..
      split
      · apply cause
        split
        · apply cause; apply all
          exact wr _ (wr _ (wr _ (wr _ (wr _ (wr _ (wr _ (wr _ (wr _ h ..) ..) ..) ..) ..) ..) ..) ..) ..
        · split <;> · apply cause; apply all
                      exact wr _ (wr _ (wr _ (wr _ (wr _ (wr _ (wr _ (wr _ (wr _ h ..) ..) ..) ..) ..) ..) ..) ..) ..
      · split
        · apply cause; apply all
          exact wr _ (wr _ (wr _ (wr _ (wr _ (wr _ (wr _ (wr _ (wr _ h ..) ..) ..) ..) ..) ..) ..) ..) ..
        · split <;> · apply cause; apply all
                      exact wr _ (wr _ (wr _ (wr _ (wr _ (wr _ (wr _ (wr _ (wr _ h ..) ..) ..) ..) ..) ..) ..) ..) ..
  unfold Dev.record
  split
  · exact d.logs_refl
  · dsimp only
    split
    · split
      · exact cause _ (wr _ d.logs_refl ..) ..
      · exact wr _ d.logs_refl ..
    · split
      · exact cause _ (fresh _ d.logs_refl) ..
      · exact fresh _ d.logs_refl

end Sys2Proof.Machine
end

