-- ==== Sys2Proof/WellFormed.lean ====
section
/-!
DEFINITION. Which operands a command can name at all: the ranges that the spec gives functions, links, positions, threads, rings,
channels and the like. No meaning assumes them: a command outside them has the effect the spec gives an absent object.
-/

namespace Sys2Proof

/-- A global function index (R29): sixteen PFs, then at most 8,192 VFs. -/
def fnOk (fn : Nat) : Bool := fn < 8208

/-- The path of an SPDM request: DOE exists on PFs only (R115). -/
def SpdmPath.wf : SpdmPath → Bool
  | .sideband => true
  | .doe pf => pf < 16

/-- The fields of a flit (R461). -/
def Flit.wf (f : Flit) : Bool :=
  f.kind < 16 && f.stream < 16 && f.fseq < 4096 && f.ackSeq < 4096 && f.msgCredits < 4 && f.crStream < 16 && f.crCount < 256 &&
  f.payload.length ≤ 240

/-- What a start finds: sites, crypto instances and links of the part, and the counts of its sixteen replica rings (R53, R88). -/
def StartFindings.wf (f : StartFindings) : Bool :=
  f.badSets.all (fun p => p < 34) && f.badCrypto.all (fun p => p < 48) && f.perstLow.all (fun l => l < 16) && f.ringCounts.length == 16

/-- A command port and what it detected an error for. -/
def portOk (port : Option Nat) : Bool := port.all (fun p => p < 16)

/-- The place of an ECC error. -/
def EccSite.wf : EccSite → Bool
  | .setSram p off t => p < 34 && off < 1835008 && t.all (fun t => t < 128)
  | .controlStore p addr t => p < 34 && addr < 16384 && t.all (fun t => t < 128)
  | .packetBuffer _ => true
  | .ledger _ _ => true
  | .contextCache ring _ => ring < 4194304
  | .hotCache table _ slot => table < 16 && slot < 4
  | .prefixEntry _ port => portOk port
  | .ternaryEntry _ port => portOk port
  | .keyCache p => p < 48
  | .hbm _ _ _ _ port => portOk port
  | .linkBuffers l => l < 16
  | .streamPort n => n < 16
  | .ownState _ _ => true

/-- A match-table command. -/
def MtbCmd.wf (c : MtbCmd) : Bool := c.table < 16 && c.stage < 4

/-- Is the command well-formed? -/
def Instr.wf : Instr → Bool
  | .standbyPowerOn => true
  | .mainRailFail => true
  | .standbyBrownout => true
  | .sysRstNAssert => true
  | .coldStart findings => findings.wf
  | .serviceReset => true
  | .doorbellLogDrained link => link < 16
  | .serviceReplayDone => true
  | .snapshotNow => true
  | .orderlyShutdown => true
  | .shutdownDrainDone => true
  | .confirmTrial => true
  | .discardRetained => true
  | .serviceResetCommand => true
  | .snapshotIntervalExpiry => true
  | .snapshotWriteDone _ => true
  | .retentionRecordClose => true
  | .mctpSetEndpointId eid => eid < 256
  | .mctpKeySlotProvision slot _ => slot < 256
  | .mctpDiscard => true
  | .mctpIdeKeyLoad link _ => link < 16
  | .mctpFaultLogRead slot => slot < 256
  | .pldmSensorRead _ => true
  | .pldmFirmwareUpdate _ => true
  | .getVersion via => via.wf
  | .getCapabilities via => via.wf
  | .negotiateAlgorithms via => via.wf
  | .getDigests via => via.wf
  | .getCertificate via _ _ _ => via.wf
  | .challenge via _ _ => via.wf
  | .getMeasurements via _ _ => via.wf
  | .paceMeasure counts => counts.length == 16
  | .paceLowPersist => true
  | .governorTick => true
  | .boostIntervalExpiry => true
  | .boostBucketAge => true
  | .avsTransactionDone _ => true
  | .avsRetryExpiry => true
  | .powerPublish _ _ => true
  | .tjSample _ => true
  | .thermalSitout => true
  | .thermalRejoin => true
  | .sitoutGraceExpiry position => position < 34
  | .thermtrip => true
  | .domainOffCmd domain => domain < 48
  | .domainWakeCmd domain => domain < 48
  | .domainReady domain => domain < 48
  | .perstNAssert link => link < 16
  | .perstNDeassert link => link < 16
  | .hotReset link => link < 16
  | .dlDown link => link < 16
  | .linkUp link _ _ _ => link < 16
  | .initiateFlr fn => fnOk fn
  | .resetSquashComplete fn => fnOk fn
  | .busMasterEnableClear fn => fnOk fn
  | .busMasterEnableSet fn => fnOk fn
  | .vfEnableSet pf _ => pf < 16
  | .vfEnableClear pf => pf < 16
  | .configRequest fn _ => fnOk fn
  | .barMemoryRead fn _ _ => fnOk fn
  | .readCompletion link tag _ _ => link < 16 && tag < 16384
  | .completionTimeout link tag => link < 16 && tag < 16384
  | .msixVectorUnmask fn vector => fnOk fn && vector < 2048
  | .atsInvalidateRequest link tag _ _ => link < 16 && tag < 16384
  | .ideIntegrityFailure link => link < 16
  | .p2pCommit link => link < 16
  | .p2pCommitDone link => link < 16
  | .doorbellProducerWrite fn _ slot producer => fnOk fn && slot < 256 && producer < 2 ^ 32
  | .doorbellCqHeadWrite fn _ slot _ _ => fnOk fn && slot < 256
  | .irqTimeExpiry ring => ring < 4194304
  | .qmgCtxSnap mid ring => mid < 65536 && ring < 4194304
  | .qmgCtxSnapDone => true
  | .qmgErrFifoRead mid => mid < 65536
  | .waitingFrameDelivery ring => ring < 4194304
  | .txDescriptorPlain ring => ring < 4194304
  | .txDescriptorOffload ring => ring < 4194304
  | .txDescriptorNoop ring => ring < 4194304
  | .itemDispatch _ => true
  | .itemRetire _ => true
  | .owedCompletionWrite ring => ring < 4194304
  | .setFault position _ => position < 34
  | .replayDone position _ => position < 34
  | .figureFullPersist figure => figure < 4
  | .lgrFailLogRead mid => mid < 65536
  | .frameReceived mac _ _ => mac < 256
  | .losslessFifoAdmit mac cls => mac < 256 && cls < 8
  | .inboundEspJobDone _ => true
  | .cryptoInstanceFault position => position < 48
  | .cryCtxSnap mid _ => mid < 65536
  | .cryCtxSnapDone => true
  | .threadStartPass position thread => position < 34 && thread < 128
  | .seq position thread => position < 34 && thread < 128
  | .jump position thread => position < 34 && thread < 128
  | .branch position thread => position < 34 && thread < 128
  | .call position thread => position < 34 && thread < 128
  | .callIf position thread => position < 34 && thread < 128
  | .popReturn position thread => position < 34 && thread < 128
  | .popReturnIf position thread => position < 34 && thread < 128
  | .wait position thread => position < 34 && thread < 128
  | .table position thread => position < 34 && thread < 128
  | .passEnd position thread => position < 34 && thread < 128
  | .trap position thread => position < 34 && thread < 128
  | .aluAdd position thread => position < 34 && thread < 128
  | .aluSub position thread => position < 34 && thread < 128
  | .aluAnd position thread => position < 34 && thread < 128
  | .aluOr position thread => position < 34 && thread < 128
  | .aluXor position thread => position < 34 && thread < 128
  | .aluCompare position thread => position < 34 && thread < 128
  | .aluMove position thread => position < 34 && thread < 128
  | .addWithCarry position thread => position < 34 && thread < 128
  | .shiftLeft position thread => position < 34 && thread < 128
  | .shiftRight position thread => position < 34 && thread < 128
  | .rotate position thread => position < 34 && thread < 128
  | .fieldExtract position thread => position < 34 && thread < 128
  | .fieldInsert position thread => position < 34 && thread < 128
  | .load8b position thread => position < 34 && thread < 128
  | .store8b position thread => position < 34 && thread < 128
  | .atomicAdd position thread => position < 34 && thread < 128
  | .compareAndSwap position thread => position < 34 && thread < 128
  | .readHead position thread => position < 34 && thread < 128
  | .readParseRecord position thread => position < 34 && thread < 128
  | .readPacketBuffer position thread => position < 34 && thread < 128
  | .appendEdit position thread _ => position < 34 && thread < 128
  | .readLedgerFields position thread => position < 34 && thread < 128
  | .payloadRead position thread => position < 34 && thread < 128
  | .parse position thread => position < 34 && thread < 128
  | .classify position thread => position < 34 && thread < 128
  | .lookup position thread _ _ => position < 34 && thread < 128
  | .checksum position thread _ _ => position < 34 && thread < 128
  | .hash position thread => position < 34 && thread < 128
  | .headerRewrite position thread _ => position < 34 && thread < 128
  | .setDestination position thread _ => position < 34 && thread < 128
  | .dropRequest position thread => position < 34 && thread < 128
  | .learnOffer position thread _ => position < 34 && thread < 128
  | .dmaAssist position thread => position < 34 && thread < 128
  | .partnerChannelSend position thread => position < 34 && thread < 128
  | .channelWrite position thread => position < 34 && thread < 128
  | .channelClose position thread => position < 34 && thread < 128
  | .channelRead position thread => position < 34 && thread < 128
  | .channelDiscard position thread => position < 34 && thread < 128
  | .flagSet position thread => position < 34 && thread < 128
  | .flagClear position thread => position < 34 && thread < 128
  | .counterAdd position thread _ _ => position < 34 && thread < 128
  | .stateWrite position thread _ _ => position < 34 && thread < 128
  | .sequenceBearingRequest position thread _ _ => position < 34 && thread < 128
  | .assistAnswer position thread _ => position < 34 && thread < 128
  | .channelWordDelivery position channel => position < 34 && channel < 16
  | .waitLimitExpiry position thread => position < 34 && thread < 128
  | .standstill position => position < 34
  | .dbgStop position thread => position < 34 && thread < 128
  | .dbgResume position thread => position < 34 && thread < 128
  | .dbgStep position thread => position < 34 && thread < 128
  | .dbgKill position thread => position < 34 && thread < 128
  | .csRead position => position < 34
  | .csWrite position => position < 34
  | .memoryScrub _ found => found.all (fun f => f.place.wf)
  | .eccError place _ => place.wf
  | .handshakeTimeout _ _ _ => true
  | .hbmStackLost stack => stack < 8
  | .moverFault mover => mover < 18
  | .controlCoreFault core _ => core < 8
  | .faultAck _ => true
  | .mtbRead mid port cmd => mid < 65536 && port < 16 && cmd.wf
  | .mtbWrite mid port cmd => mid < 65536 && port < 16 && cmd.wf
  | .mtbInsert mid port cmd => mid < 65536 && port < 16 && cmd.wf
  | .mtbDelete mid port cmd => mid < 65536 && port < 16 && cmd.wf
  | .mtbSearch mid port cmd => mid < 65536 && port < 16 && cmd.wf
  | .mtbAgeQuery mid port cmd => mid < 65536 && port < 16 && cmd.wf
  | .mtbStage mid port cmd => mid < 65536 && port < 16 && cmd.wf
  | .mtbDirectWrite mid port cmd => mid < 65536 && port < 16 && cmd.wf
  | .mtbDirectRead mid port cmd => mid < 65536 && port < 16 && cmd.wf
  | .prefixAdd mid port cmd => mid < 65536 && port < 16 && cmd.wf
  | .prefixDelete mid port cmd => mid < 65536 && port < 16 && cmd.wf
  | .prefixSearch mid port cmd => mid < 65536 && port < 16 && cmd.wf
  | .ternaryWrite mid port cmd => mid < 65536 && port < 16 && cmd.wf
  | .ternaryRead mid port cmd => mid < 65536 && port < 16 && cmd.wf
  | .mtbCommandDone port => port < 16
  | .learnOfferProcess figure => figure < 4
  | .ageScanVisit _ _ _ => true
  | .rehashStart _ => true
  | .rehashResume _ => true
  | .rehashWalkBucket _ => true
  | .compareStart _ => true
  | .compareRegion _ _ => true
  | .compareRecheck _ _ => true
  | .compareIntervalExpiry _ => true
  | .compareFifoRead mid => mid < 65536
  | .roceAckTimeout qpn => qpn < 16777216
  | .cnpRateStep qpn => qpn < 16777216
  | .send ring => ring < 4194304
  | .sendWithImmediate ring => ring < 4194304
  | .rdmaWrite ring => ring < 4194304
  | .rdmaWriteWithImmediate ring => ring < 4194304
  | .rdmaRead ring => ring < 4194304
  | .recv ring => ring < 4194304
  | .nvmeSqTailDoorbell fn _ _ => fnOk fn
  | .nvmeCcEnClear fn => fnOk fn
  | .nvmeIdentify fn => fnOk fn
  | .nvmeCreateIoSq fn => fnOk fn
  | .nvmeCreateIoCq fn => fnOk fn
  | .nvmeDeleteIoSq fn => fnOk fn
  | .nvmeDeleteIoCq fn => fnOk fn
  | .nvmeGetFeatures fn => fnOk fn
  | .nvmeSetFeatures fn => fnOk fn
  | .nvmeGetLogPage fn => fnOk fn
  | .nvmeAbort fn => fnOk fn
  | .nvmeAsyncEventRequest fn => fnOk fn
  | .nvmeRead fn _ => fnOk fn
  | .nvmeWrite fn _ => fnOk fn
  | .nvmeFlush fn _ => fnOk fn
  | .nvmeWriteZeroes fn _ => fnOk fn
  | .nvmeDatasetManagement fn _ => fnOk fn
  | .nvmeTcpRtoExpiry _ => true
  | .barStart => true
  | .schNodeRead mid level _ => mid < 65536 && level < 8
  | .schNodeWrite mid level _ => mid < 65536 && level < 8
  | .schNodeCmdDone => true
  | .dmaStart mid channel => mid < 65536 && channel < 64
  | .dmaStop mid channel => mid < 65536 && channel < 64
  | .dmaResume mid channel => mid < 65536 && channel < 64
  | .dmaRequest mid channel => mid < 65536 && channel < 64
  | .dmaDescriptorFetched channel => channel < 64
  | .dmaBurstStart channel => channel < 64
  | .dmaBurstComplete channel => channel < 64
  | .portUp port => port < 32
  | .portDown loss => loss.port < 32 && loss.cut.all (fun m => m < 256)
  | .laneCalibrationDone lane _ => lane < 32
  | .laneCalCheck lane _ => lane < 32
  | .frameTransmit mac cls => mac < 256 && cls < 8
  | .pauseFrame mac _ => mac < 256
  | .pfcFrame mac _ _ => mac < 256
  | .pauseTimerExpiry mac cls => mac < 256 && cls < 8
  | .xoffRefresh mac cls => mac < 256 && cls < 8
  | .stormWatchdogExpiry mac cls => mac < 256 && cls < 8
  | .stormEnd mac cls => mac < 256 && cls < 8
  | .lpiIdleExpiry port => port < 32
  | .flexeCalendarSwitch port => port < 32
  | .flexeSwitchDone port => port < 32
  | .flexeSwitchTimeout port => port < 32
  | .flexeOverheadLockLoss loss => loss.port < 32 && loss.cut.all (fun m => m < 256)
  | .macCounterRead mid mac _ => mid < 65536 && mac < 256
  | .tempoTick _ => true
  | .referenceLost => true
  | .referenceRestored => true
  | .uncertaintyUpdate => true
  | .holdoverEntry domain => domain < 2
  | .incrementCommit domain _ => domain < 2
  | .domainSet domain => domain < 2
  | .domainAdd domain => domain < 2
  | .domainTimeRead mid domain => mid < 65536 && domain < 2
  | .tempoSnapshot => true
  | .domainAnchor domain _ => domain < 2
  | .slotArm slot => slot < 128
  | .slotDisarm slot => slot < 128
  | .slotSwitch slot toSource => slot < 128 && toSource < 8
  | .slotPulse slot => slot < 128
  | .pulseWidthEnd slot => slot < 128
  | .slewComplete slot => slot < 128
  | .launchGateOpen _ => true
  | .launchTime mac => mac < 256
  | .timeIoEdge pin _ => pin < 4
  | .captureIntervalEnd pin => pin < 4
  | .pinConfigWrite pin _ => pin < 4
  | .mbxSend mid channel _ => mid < 65536 && channel < 18432
  | .mbxRxLatch mid channel => mid < 65536 && channel < 18432
  | .mbxRxAck mid channel _ => mid < 65536 && channel < 18432
  | .eventSwTrigger _ => true
  | .eventEoi pf source => pf < 16 && source < 384
  | .eventRouteWrite pf source _ => pf < 16 && source < 384
  | .eventMessageIssue pf source => pf < 16 && source < 384
  | .stormLimitMillisecond => true
  | .causeMaskWrite _ _ _ _ => true
  | .registerWrite mid _ _ _ _ _ => mid < 65536
  | .ringGroupCreate fn => fnOk fn
  | .ringGroupDestroy fn => fnOk fn
  | .ringCreate fn => fnOk fn
  | .ringEnable fn => fnOk fn
  | .ringDisable fn => fnOk fn
  | .ringRestart fn => fnOk fn
  | .ringDestroy fn => fnOk fn
  | .ringTune fn => fnOk fn
  | .tenantCreate fn => fnOk fn
  | .tenantDestroy fn => fnOk fn
  | .vfAssign fn => fnOk fn
  | .vfProperties fn => fnOk fn
  | .functionReset fn => fnOk fn
  | .drainEnd fn => fnOk fn
  | .contextCreate fn => fnOk fn
  | .contextChange fn => fnOk fn
  | .contextDestroy fn => fnOk fn
  | .sitOut fn => fnOk fn
  | .rejoin fn => fnOk fn
  | .rejoinTestDone _ _ _ => true
  | .imageStage fn _ => fnOk fn
  | .imageApply fn => fnOk fn
  | .epilogueResend fn => fnOk fn
  | .getConfiguration fn => fnOk fn
  | .setMacFilter fn => fnOk fn
  | .setVlanFilter fn => fnOk fn
  | .linkQuery fn => fnOk fn
  | .s44SoftReset fn => fnOk fn
  | .s44QueueEnable fn _ _ => fnOk fn
  | .s44QueueDisable fn _ _ => fnOk fn
  | .bulkTransfer fn => fnOk fn
  | .cancel fn => fnOk fn
  | .stpTrainingDone _ => true
  | .stpTrainingRetry => true
  | .stpFlitSend => true
  | .stpDataFlit flit => flit.wf
  | .stpDataLastFlit flit => flit.wf
  | .stpMessageFlit flit => flit.wf
  | .stpControlFlit flit _ _ => flit.wf
  | .stpIdleFlit flit => flit.wf
  | .stpAckTimeout => true
  | .stpMatchTimeout stream => stream < 16
  | .bypass => true
  | .samplePreload => true
  | .extest => true
  | .idcode => true
  | .dbgChallenge => true
  | .dbgResponse slot _ => slot < 256
  | .trstNAssert => true
  | .switchedWaitExpiry _ => true
  | .stpFlitDiscard flit => flit.wf
  | .stpPeerDown => true
  | .aspmL1Entry link => link < 16
  | .peerLpiChange port _ => port < 32
  | .nvmeCcEnSet fn => fnOk fn
  | .testenAssert => true
  | .mainRailsRestored findings => findings.wf
  | .doeDiscovery pf _ => pf < 16

end Sys2Proof
end

