-- ==== Sys2Proof/Tests/Slice0.lean ====
section
/-!
SUPPORT. The model's own tests: the operand ranges, the worked examples of the spec, and for each statement with hypotheses the states and
operands that meet them. A theorem `meets_<statement>` names the statement; each of its parts meets the hypotheses of one clause.
-/

set_option maxRecDepth 4000
set_option Elab.async false

namespace Sys2Proof.Tests
open Sys2Proof.Machine

/-! ## A device to start from -/

/-- A PF on link 0 with one VF, which reaches every entry of the card. -/
def pf0 : PfRec :=
  { link := 0, function := 0, totalVfs := 1, bar0Log2 := 30, bar2Log2 := 24, vfBar0Log2 := 20, reach := 2 ^ 224 - 1, evtPermit := 1 }

/-- avs_vmin, which an image must state (R71). -/
def avs : DefRec := { unit := 3, inst := 0xFFFF, off := 0x44, lsb := 0, width := 12, isK := false, value := 650 }

/-- The channels of PF 0 and of its VF, one of a Set, one of the Stream Port each way. -/
def bindings : List (Nat × (Nat × Nat)) :=
  [(16384, (0x1000, 1)), (16385, (1, 0x1000)), (0, (0x1010, 1)), (1, (1, 0x1010)), (16416, (0x100, 2)), (16417, (2, 0x10)), (16418, (0x10, 2))]

/-- Tables 0, 1, 2 and 4 exact match, table 3 direct, all 1,024 entries or buckets (R72). -/
def tables : List (Nat × (Nat × Nat)) :=
  [(0, (1 + 4 * 10 + 256 * 10 + 2 ^ 16, 0)), (1, (1 + 4 * 24 + 256 * 10, 1)), (2, (1 + 4 * 10 + 256 * 10, 2)), (3, (2 + 256 * 10 + 2 ^ 13, 3)),
   (4, (1 + 4 * 8 + 256 * 10 + 2 ^ 16, 8))]

/-- What the sections of an image of one PF and one port say. -/
def bodies : List SecBody :=
  [.identity { pfs := [(0, pf0)] }, .bifurcation [1, 0, 0, 0, 0, 0, 0, 0], .portMap [(0, { speed := 3, macInst := 0 })], .hbmSizes 16 24,
   .bindings bindings, .controlStore [], .schemas { tables := tables }, .firmware 1 1 (List.replicate 4096 0), .defaultsBut [avs]]

/-- An image without its directory entries' offsets, lengths and digests. -/
def bareOf (l : List SecBody) : Image := { imageBytes := 0x400000, raiseFloor := true, securityVersion := 65, sections := l.map (fun b => { body := b }) }

/-- Sections one behind the other, on 4 KiB boundaries. -/
def lay (im : Image) : Nat → List SecBody → List Section
  | _, [] => []
  | at_, b :: l =>
    let n := sectionLength .s9640 im b
    { offset := at_, length := n, digest := Config.sha384 (sectionBytes .s9640 im b), body := b } :: lay im ((at_ + n + 4095) / 4096 * 4096) l

/-- The image of these sections, not signed. -/
def unsignedOf (l : List SecBody) : Image := { bareOf l with publicKey := Config.ecdsaKey, sections := lay (bareOf l) 0x2000 l }

/-- The image of these sections, signed by the one key that a signature is known of (notes/assumptions/9.md). -/
def imgOf (l : List SecBody) : Image := { unsignedOf l with signature := Config.ecdsaSignature (Config.sha384 (signedBytes (unsignedOf l))) }

def bare : Image := bareOf bodies
def img : Image := imgOf bodies

/-- Fuses whose key slot 0 holds that key's digest. -/
def fuses0 : Fuses := { slot0 := { programmed := true, digest := keyDigest Config.ecdsaKey } }

/-- The PF as its driver has set it up. -/
def fn0 : Func := { present := true, busMaster := true, memSpace := true, msixEnable := true }

/-- A running device with one link in L0 and one PF. -/
def dev0 : Dev :=
  let d : Dev := { phase := .running, boot := { image := some img }, funcs := { entries := [(0, fn0)] },
                   links := { entries := [(0, { enabled := true, ready := true })] }, card := { valid := true, gen := 2 } }
  (d.wr R.PCX_LINK_SHAPE_shape 1).wr R.PCX_LINK_STATUS_state 3

/-- A directory whose slot A is active. -/
def dirA : DirCopy := { seq := 1, slotSize := 0x2000000 : DirCopy }.sealed

/-- The running device, changed by `f`. -/
def up (f : Dev → Dev := id) : State := { fuses := fuses0, flash := { dir0 := dirA, slotA := some img }, dev := f dev0 }

/-- The `n` bytes of `v`, least significant first. -/
def le (v n : Nat) : List Byte := (List.range n).map fun k => BitVec.ofNat 8 (v / 256 ^ k)
/-- An enabled transmit ring near the end of its first pass. -/
def ringT : Ring := { state := .enabled, producer := 60, slotProducer := 60, fetchPos := 60, cplPos := 60, cqHead := 60 }
/-- An enabled receive ring at the same place. -/
def ringR : Ring := { ringT with kind := 1, rxHoldKib := 64 }
/-- Ring `r` of function 0, slot 3 of a Ring Group at page 2. -/
def withRing (r : Nat) (g : Ring) (d : Dev) : Dev :=
  { d with rings := { entries := [(r, g)] }, groups := { entries := [(1, { fn := 0, page := 2, slots := { entries := [(3, r)] } })] } }
/-- Item `i`, the youngest. -/
def withItem (i : Nat) (it : Item) (d : Dev) : Dev := { d with items := { entries := [(i, it)] }, nextItem := i + 1 }
/-- A frame of `n` bytes to 0xAAAAAAAAAAAA, EtherType 0x0806. -/
def frame (n : Nat) : Frame := List.replicate 12 0xAA ++ [0x08, 0x06] ++ List.replicate (n - 14) 0
def frame60 := frame 60
/-- A microword with its check bits (R253, R265). -/
def checked (w : Microword) : Microword :=
  let v := w ||| BitVec.ofNat 128 (checkLow w * 2 ^ 120)
  v ||| BitVec.ofNat 128 (if (syndrome v).2 then 2 ^ 127 else 0)
/-- A microword of a class and function with condition, yield, next address, immediate and extension; operands r1, r2 and r3. -/
def mw (cls fn ext : Nat) (next : Nat := 0) (imm : Nat := 0) (cond : Nat := 0) (yield inv : Bool := false) : Microword :=
  checked <| BitVec.ofNat 128 (next * 2 ^ 116 + yield.toNat * 2 ^ 115 + cond * 2 ^ 105 + inv.toNat * 2 ^ 104 + imm * 2 ^ 64 + cls * 2 ^ 59 + fn * 2 ^ 54 + 3 * 2 ^ 50 + 1 * 2 ^ 46 + 2 * 2 ^ 42 + ext)
/-- A ready thread at the last microword of its store. -/
def th0 : Thread := { state := .ready, item := some 3, pc := 16383, regs := [0, 8, 1, 5] ++ List.replicate 12 0 }
/-- An item that a microword thread handles. -/
def itemM : Item := { kind := 1, stage := .running, bytes := List.replicate 64 9, position := 0 }
/-- A running device whose thread 4 of position `p` is about to issue `w` for item 3. -/
def coreOf (w : Microword) (th : Thread := th0) (it : Item := itemM) (p : Nat := 0) (site : SetSite := {}) (f : Dev → Dev := id) : State :=
  up fun d => f { d with items := { entries := [(3, it)] }, nextItem := 4, sites := { entries := [(p, { site with store := { entries := [(th.pc, w)] }, threads := { entries := [(4, th)] } })] } }
/-- A table with its kind, key length and size. -/
def tab (t kind len log2 : Nat) (d : Dev) : Dev :=
  ((d.wr R.MTB_TABLE_CFG_kind kind 0 (32 * t)).wr R.MTB_TABLE_CFG_key_len len 0 (32 * t)).wr R.MTB_TABLE_CFG_log2_size log2 0 (32 * t)
/-- A key of ten bytes. -/
def key0 : List Byte := [9, 8, 7, 6, 5, 4, 3, 2, 1, 0]
/-- An entry with that key. -/
def entry0 : MtbEntry := { valid := true, scope := 15, key := key0, result := [1, 2, 3] }
/-- The device with an entry in a slot of one of its two buckets. -/
def putAt (t : Nat) (e : MtbEntry) (b1 : Bool) (slot : Nat) (d : Dev) : Dev :=
  let b := d.buckets t 0 e.scope e.key
  let i := 4 * (if b1 then b.2.2 else b.2.1) + slot
  d.setCuckoo t ((d.cuckoo t).put i { e with table := t })

/-- Can function `fn` take a message now? As `Dev.hears`, with the core's MID as an operand. -/
def hearsB (d : Dev) (fn : Nat) : Bool :=
  decide (fn < 8208 ∧ d.hasFn fn = true ∧ (d.fn fn).outbox = [] ∧ d.jobs = {} ∧ d.quietFn fn = false ∧ (d.chan (receiveChannel fn)).held = none ∧
    isCoreMid 1 = true ∧ d.binding (receiveChannel fn) = some (1, midFn fn))

theorem hears_of {d : Dev} {fn : Nat} (h : hearsB d fn = true) : d.hears fn := by
  obtain ⟨a, b, c, e, f, g, k, l⟩ := of_decide_eq_true h
  exact ⟨a, b, c, e, f, g, 1, k, l⟩

/-- Has function `fn` sent this request? As `Dev.asks`. -/
def asksB (d : Dev) (fn kind n : Nat) (s44 : Bool) (tag : Nat) (w : List Nat) : Bool :=
  hearsB d fn && d.isS44 fn == s44 && decide (d.binding (requestChannel fn) = some (midFn fn, 1)) &&
  (d.chan (requestChannel fn)).held.any (fun m => decide (m.words = w ∧ m.kind = kind ∧ m.tag = tag ∧ 4 * n ≤ m.len ∧ m.seq < 65536))

theorem asks_of {d : Dev} {fn kind n : Nat} {s44 : Bool} {tag : Nat} {w : List Nat} (h : asksB d fn kind n s44 tag w = true) :
    d.asks fn kind n s44 tag w := by
  unfold asksB at h
  simp only [Bool.and_eq_true, beq_iff_eq, decide_eq_true_eq, Option.any_eq_true] at h
  obtain ⟨⟨⟨a, b⟩, c⟩, m, hm, e⟩ := h
  exact ⟨hears_of a, b, ⟨1, by decide, c⟩, m, hm, e⟩

theorem lay_says (im : Image) : ∀ (l : List SecBody) (n : Nat) (s : Section), s ∈ lay im n l →
    s.length = sectionLength .s9640 im s.body ∧ s.digest = Config.sha384 (sectionBytes .s9640 im s.body) := by
  intro l
  induction l with
  | nil => intro n s h; simp [lay] at h
  | cons b l ih =>
    intro n s h
    simp only [lay, List.mem_cons] at h
    rcases h with rfl | h
    · simp
    · exact ih _ s h

/-- An image's sections say the same with its header and directory as without. -/
theorem sectionBytes_eq {im im' : Image} (hp : imgPfs im = imgPfs im') (hg : imageGiven .s9640 im = imageGiven .s9640 im') (b : SecBody) :
    sectionBytes .s9640 im b = sectionBytes .s9640 im' b ∧ sectionLength .s9640 im b = sectionLength .s9640 im' b := by
  cases b <;> simp [sectionBytes, sectionLength, expandDefaults, hp, hg]

theorem window_ends (e : Nat) : windowOffset e + windowBytes e ≤ 2 ^ 30 := by
  have h := Nat.mod_lt (Config.windowPage e) (show 0 < 2 ^ 18 by decide)
  have h' := Nat.mod_lt (Config.windowPage e) (show 0 < 2 ^ 18 - 0x48F by decide)
  have h'' := Nat.mod_lt (Config.windowPages e) (show 0 < 2 ^ 18 + 1 - Config.windowPage e % 2 ^ 18 by omega)
  unfold windowOffset windowBytes
  split_ifs <;> omega

theorem img_identityOk : identityOk .s9640 ((linksFormed (imgShapes img)).map Prod.fst) img.identity = true := by
  have h : (List.range 224).all (fun e => !hasBit pf0.reach e || decide (windowOffset e + windowBytes e ≤ 2 ^ pf0.bar0Log2)) = true := by
    rw [List.all_eq_true]
    intro e _
    simp only [show pf0.bar0Log2 = 30 from rfl, window_ends e, decide_true, Bool.or_true]
  rw [show img.identity = { pfs := [(0, pf0)] } from rfl]
  simp only [identityOk, List.filter, show pf0.present = true from rfl, List.all_cons, List.all_nil, h, Bool.and_true]
  decide +kernel

theorem img_placed : ∀ s ∈ img.sections, s.offset % 4096 = 0 ∧ 0x1200 ≤ s.offset ∧ s.offset + s.length ≤ img.imageBytes ∧
    (match s.body with | .malformed _ _ => false | _ => true) = true := by decide +kernel

theorem imgOf_signed (l : List SecBody) : signatureOk (imgOf l) = true := by
  show ecdsaOk (keyDigest Config.ecdsaKey) (Config.sha384 (signedBytes (unsignedOf l)))
    (Config.ecdsaSignature (Config.sha384 (signedBytes (unsignedOf l)))) = true
  simp [ecdsaOk]

/-- The image passes R63. -/
theorem img_verifies : verifies .s9640 fuses0 0x2000000 img = true := by
  have hp : imgPfs img = imgPfs bare := by decide +kernel
  have hg : imageGiven .s9640 img = imageGiven .s9640 bare := by decide +kernel
  have hh : headerOk .s9640 fuses0 0x2000000 img = true := by decide +kernel
  have hc : countsOk img = true := by decide +kernel
  have key : keyOk fuses0 img = true := by
    have h : keyOk fuses0 img = (true && !false && keyDigest Config.ecdsaKey == keyDigest Config.ecdsaKey) := rfl
    rw [h]
    generalize keyDigest Config.ecdsaKey = k
    simp
  have sig : signatureOk img = true := imgOf_signed bodies
  have con : contentsOk .s9640 img = true := by
    unfold contentsOk
    simp only [img_identityOk, Bool.and_true]
    decide +kernel
  have sec : img.sections.all (fun s => sectionPlaced .s9640 img s && sectionDigestOk .s9640 img s) = true := by
    rw [List.all_eq_true]
    intro s h
    obtain ⟨hl, hd⟩ := lay_says bare bodies 0x2000 s h
    obtain ⟨eb, el⟩ := sectionBytes_eq hp hg s.body
    obtain ⟨p1, p2, p3, p4⟩ := img_placed s h
    rw [hl] at p3
    simp only [sectionPlaced, sectionDigestOk, hd, eb, hl, el, beq_self_eq_true, Bool.and_true, p1, decide_eq_true p2, decide_eq_true p3,
      Bool.true_and]
    split
    · next hb => simp [hb] at p4
    · rfl
  unfold verifies
  rw [hh, key, sig, hc, con, sec]
  rfl

theorem bare_does_not_verify : verifies .s9640 fuses0 0x2000000 bare = false := by
  have h : bare.sections.all (fun s => sectionPlaced .s9640 bare s && sectionDigestOk .s9640 bare s) = false := by decide +kernel
  simp [verifies, h]

/-- A flash whose slot B holds the image answers it. -/
theorem slotB_verified {fl : Flash} (h : fl.slotB = some img) : fl.verified .s9640 fuses0 dirA (1 - dirA.active) = some img := by
  have s : fl.slot (1 - dirA.active) = some img := h
  have v : verifies .s9640 fuses0 dirA.slotSize img = true := img_verifies
  unfold Flash.verified
  rw [s, Option.filter_some, v]
  rfl

/-! ## Operand ranges: for each check of `Instr.wf` the commands that make it, with the largest operand they take and the next -/

theorem test_wf_link :
    ∀ c ∈ ([.doorbellLogDrained, fun link => .mctpIdeKeyLoad link [], .perstNAssert, .perstNDeassert, .hotReset, .dlDown, fun link => .linkUp link 0
      0 false, .ideIntegrityFailure, .p2pCommit, .p2pCommitDone, .aspmL1Entry] : List (Nat → Instr)), (c 15).wf = true ∧ (c 16).wf = false := by decide +kernel

theorem test_wf_eid :
    ∀ c ∈ ([.mctpSetEndpointId] : List (Nat → Instr)), (c 255).wf = true ∧ (c 256).wf = false := by decide +kernel

theorem test_wf_slot :
    ∀ c ∈ ([fun slot => .mctpKeySlotProvision slot .revoke, .mctpFaultLogRead, fun slot => .dbgResponse slot 0] : List (Nat → Instr)), (c 255).wf =
      true ∧ (c 256).wf = false := by decide +kernel

theorem test_wf_via :
    ∀ c ∈ ([.getVersion, .getCapabilities, .negotiateAlgorithms, .getDigests, fun via => .getCertificate via 0 0 0, fun via => .challenge via 0 0,
      fun via => .getMeasurements via 0 0] : List (SpdmPath → Instr)), (c (.doe 15)).wf = true ∧ (c (.doe 16)).wf = false := by decide +kernel

theorem test_wf_position :
    ∀ c ∈ ([.sitoutGraceExpiry, fun position => .setFault position { code := 0 }, fun position => .replayDone position 0, .standstill, .csRead,
      .csWrite] : List (Nat → Instr)), (c 33).wf = true ∧ (c 34).wf = false := by decide +kernel

theorem test_wf_domain :
    ∀ c ∈ ([.domainOffCmd, .domainWakeCmd, .domainReady] : List (Nat → Instr)), (c 47).wf = true ∧ (c 48).wf = false := by decide +kernel

theorem test_wf_fn :
    ∀ c ∈ ([.initiateFlr, .resetSquashComplete, .busMasterEnableClear, .busMasterEnableSet, fun fn => .configRequest fn (.read .vendorId), fun fn =>
      .barMemoryRead fn (.card 0) 0, fun fn => .nvmeSqTailDoorbell fn 0 0, .nvmeCcEnClear, .nvmeIdentify, .nvmeCreateIoSq, .nvmeCreateIoCq,
      .nvmeDeleteIoSq, .nvmeDeleteIoCq, .nvmeGetFeatures, .nvmeSetFeatures, .nvmeGetLogPage, .nvmeAbort, .nvmeAsyncEventRequest, fun fn => .nvmeRead
      fn 0, fun fn => .nvmeWrite fn 0, fun fn => .nvmeFlush fn 0, fun fn => .nvmeWriteZeroes fn 0, fun fn => .nvmeDatasetManagement fn 0,
      .ringGroupCreate, .ringGroupDestroy, .ringCreate, .ringEnable, .ringDisable, .ringRestart, .ringDestroy, .ringTune, .tenantCreate,
      .tenantDestroy, .vfAssign, .vfProperties, .functionReset, .drainEnd, .contextCreate, .contextChange, .contextDestroy, .sitOut, .rejoin, fun fn
      => .imageStage fn bare, .imageApply, .epilogueResend, .getConfiguration, .setMacFilter, .setVlanFilter, .linkQuery, .s44SoftReset, fun fn =>
      .s44QueueEnable fn 0 0, fun fn => .s44QueueDisable fn 0 0, .bulkTransfer, .cancel, .nvmeCcEnSet] : List (Nat → Instr)), (c 8207).wf = true ∧
      (c 8208).wf = false := by decide +kernel

theorem test_wf_pf :
    ∀ c ∈ ([fun pf => .vfEnableSet pf 0, .vfEnableClear, fun pf => .doeDiscovery pf 0] : List (Nat → Instr)), (c 15).wf = true ∧ (c 16).wf = false := by decide +kernel

theorem test_wf_link_tag :
    ∀ c ∈ ([fun link tag => .readCompletion link tag .success [], .completionTimeout, fun link tag => .atsInvalidateRequest link tag 0 0] : List (Nat
      → Nat → Instr)), (c 15 16383).wf = true ∧ (c 16 16383).wf = false ∧ (c 15 16384).wf = false := by decide +kernel

theorem test_wf_fn_vector :
    ∀ c ∈ ([.msixVectorUnmask] : List (Nat → Nat → Instr)), (c 8207 2047).wf = true ∧ (c 8208 2047).wf = false ∧ (c 8207 2048).wf = false := by decide +kernel

theorem test_wf_fn_slot_producer :
    ∀ c ∈ ([fun fn slot producer => .doorbellProducerWrite fn 0 slot producer] : List (Nat → Nat → Nat → Instr)), (c 8207 255 4294967295).wf = true ∧
      (c 8208 255 4294967295).wf = false ∧ (c 8207 256 4294967295).wf = false ∧ (c 8207 255 4294967296).wf = false := by decide +kernel

theorem test_wf_fn_slot :
    ∀ c ∈ ([fun fn slot => .doorbellCqHeadWrite fn 0 slot 0 false] : List (Nat → Nat → Instr)), (c 8207 255).wf = true ∧ (c 8208 255).wf = false ∧
      (c 8207 256).wf = false := by decide +kernel

theorem test_wf_ring :
    ∀ c ∈ ([.irqTimeExpiry, .waitingFrameDelivery, .txDescriptorPlain, .txDescriptorOffload, .txDescriptorNoop, .owedCompletionWrite, .send,
      .sendWithImmediate, .rdmaWrite, .rdmaWriteWithImmediate, .rdmaRead, .recv] : List (Nat → Instr)), (c 4194303).wf = true ∧ (c 4194304).wf = false := by decide +kernel

theorem test_wf_mid_ring :
    ∀ c ∈ ([.qmgCtxSnap] : List (Nat → Nat → Instr)), (c 65535 4194303).wf = true ∧ (c 65536 4194303).wf = false ∧ (c 65535 4194304).wf = false := by decide +kernel

theorem test_wf_mid :
    ∀ c ∈ ([.qmgErrFifoRead, .lgrFailLogRead, fun mid => .cryCtxSnap mid 0, .compareFifoRead, fun mid => .registerWrite mid 0 0 0 0 0] : List (Nat →
      Instr)), (c 65535).wf = true ∧ (c 65536).wf = false := by decide +kernel

theorem test_wf_figure :
    ∀ c ∈ ([.figureFullPersist, .learnOfferProcess] : List (Nat → Instr)), (c 3).wf = true ∧ (c 4).wf = false := by decide +kernel

theorem test_wf_mac :
    ∀ c ∈ ([fun mac => .frameReceived mac [] false, fun mac => .pauseFrame mac 0, fun mac => .pfcFrame mac 0 [], .launchTime] : List (Nat → Instr)),
      (c 255).wf = true ∧ (c 256).wf = false := by decide +kernel

theorem test_wf_mac_cls :
    ∀ c ∈ ([.losslessFifoAdmit, .frameTransmit, .pauseTimerExpiry, .xoffRefresh, .stormWatchdogExpiry, .stormEnd] : List (Nat → Nat → Instr)), (c 255
      7).wf = true ∧ (c 256 7).wf = false ∧ (c 255 8).wf = false := by decide +kernel

theorem test_wf_position' :
    ∀ c ∈ ([.cryptoInstanceFault] : List (Nat → Instr)), (c 47).wf = true ∧ (c 48).wf = false := by decide +kernel

theorem test_wf_position_thread :
    ∀ c ∈ ([.threadStartPass, .seq, .jump, .branch, .call, .callIf, .popReturn, .popReturnIf, .wait, .table, .passEnd, .trap, .aluAdd, .aluSub,
      .aluAnd, .aluOr, .aluXor, .aluCompare, .aluMove, .addWithCarry, .shiftLeft, .shiftRight, .rotate, .fieldExtract, .fieldInsert, .load8b,
      .store8b, .atomicAdd, .compareAndSwap, .readHead, .readParseRecord, .readPacketBuffer, fun position thread => .appendEdit position thread (.esp
      0), .readLedgerFields, .payloadRead, .parse, .classify, fun position thread => .lookup position thread 0 [], fun position thread => .checksum
      position thread 0 0, .hash, fun position thread => .headerRewrite position thread (.esp 0), fun position thread => .setDestination position
      thread .exception, .dropRequest, fun position thread => .learnOffer position thread { vnid := 0, mac := 0 }, .dmaAssist, .partnerChannelSend,
      .channelWrite, .channelClose, .channelRead, .channelDiscard, .flagSet, .flagClear, fun position thread => .counterAdd position thread 0 0, fun
      position thread => .stateWrite position thread 0 0, fun position thread => .sequenceBearingRequest position thread 0 0, fun position thread =>
      .assistAnswer position thread 0, .waitLimitExpiry, .dbgStop, .dbgResume, .dbgStep, .dbgKill] : List (Nat → Nat → Instr)), (c 33 127).wf = true
      ∧ (c 34 127).wf = false ∧ (c 33 128).wf = false := by decide +kernel

theorem test_wf_position_channel :
    ∀ c ∈ ([.channelWordDelivery] : List (Nat → Nat → Instr)), (c 33 15).wf = true ∧ (c 34 15).wf = false ∧ (c 33 16).wf = false := by decide +kernel

theorem test_wf_place :
    ∀ c ∈ ([fun place => .eccError place false] : List (EccSite → Instr)), (c (.streamPort 15)).wf = true ∧ (c (.streamPort 16)).wf = false := by decide +kernel

theorem test_wf_stack :
    ∀ c ∈ ([.hbmStackLost] : List (Nat → Instr)), (c 7).wf = true ∧ (c 8).wf = false := by decide +kernel

theorem test_wf_mover :
    ∀ c ∈ ([.moverFault] : List (Nat → Instr)), (c 17).wf = true ∧ (c 18).wf = false := by decide +kernel

theorem test_wf_core :
    ∀ c ∈ ([fun core => .controlCoreFault core 0] : List (Nat → Instr)), (c 7).wf = true ∧ (c 8).wf = false := by decide +kernel

theorem test_wf_mid_port_cmd :
    ∀ c ∈ ([.mtbRead, .mtbWrite, .mtbInsert, .mtbDelete, .mtbSearch, .mtbAgeQuery, .mtbStage, .mtbDirectWrite, .mtbDirectRead, .prefixAdd,
      .prefixDelete, .prefixSearch, .ternaryWrite, .ternaryRead] : List (Nat → Nat → MtbCmd → Instr)), (c 65535 15 ({ table := 15, stage := 3 })).wf
      = true ∧ (c 65536 15 ({ table := 15, stage := 3 })).wf = false ∧ (c 65535 16 ({ table := 15, stage := 3 })).wf = false ∧
      (c 65535 15 ({ table := 16, stage := 3 })).wf = false := by decide +kernel

theorem test_wf_port :
    ∀ c ∈ ([.mtbCommandDone] : List (Nat → Instr)), (c 15).wf = true ∧ (c 16).wf = false := by decide +kernel

theorem test_wf_qpn :
    ∀ c ∈ ([.roceAckTimeout, .cnpRateStep] : List (Nat → Instr)), (c 16777215).wf = true ∧ (c 16777216).wf = false := by decide +kernel

theorem test_wf_mid_level :
    ∀ c ∈ ([fun mid level => .schNodeRead mid level 0, fun mid level => .schNodeWrite mid level 0] : List (Nat → Nat → Instr)), (c 65535 7).wf = true
      ∧ (c 65536 7).wf = false ∧ (c 65535 8).wf = false := by decide +kernel

theorem test_wf_mid_channel :
    ∀ c ∈ ([.dmaStart, .dmaStop, .dmaResume, .dmaRequest] : List (Nat → Nat → Instr)), (c 65535 63).wf = true ∧ (c 65536 63).wf = false ∧
      (c 65535 64).wf = false := by decide +kernel

theorem test_wf_channel :
    ∀ c ∈ ([.dmaDescriptorFetched, .dmaBurstStart, .dmaBurstComplete] : List (Nat → Instr)), (c 63).wf = true ∧ (c 64).wf = false := by decide +kernel

theorem test_wf_port' :
    ∀ c ∈ ([.portUp, .lpiIdleExpiry, .flexeCalendarSwitch, .flexeSwitchDone, .flexeSwitchTimeout, fun port => .peerLpiChange port false] : List (Nat
      → Instr)), (c 31).wf = true ∧ (c 32).wf = false := by decide +kernel

theorem test_wf_lane :
    ∀ c ∈ ([fun lane => .laneCalibrationDone lane 0, fun lane => .laneCalCheck lane 0] : List (Nat → Instr)), (c 31).wf = true ∧ (c 32).wf = false := by decide +kernel

theorem test_wf_mid_mac :
    ∀ c ∈ ([fun mid mac => .macCounterRead mid mac 0] : List (Nat → Nat → Instr)), (c 65535 255).wf = true ∧ (c 65536 255).wf = false ∧
      (c 65535 256).wf = false := by decide +kernel

theorem test_wf_domain' :
    ∀ c ∈ ([.holdoverEntry, fun domain => .incrementCommit domain 0, .domainSet, .domainAdd, fun domain => .domainAnchor domain 0] : List (Nat →
      Instr)), (c 1).wf = true ∧ (c 2).wf = false := by decide +kernel

theorem test_wf_mid_domain :
    ∀ c ∈ ([.domainTimeRead] : List (Nat → Nat → Instr)), (c 65535 1).wf = true ∧ (c 65536 1).wf = false ∧ (c 65535 2).wf = false := by decide +kernel

theorem test_wf_slot' :
    ∀ c ∈ ([.slotArm, .slotDisarm, .slotPulse, .pulseWidthEnd, .slewComplete] : List (Nat → Instr)), (c 127).wf = true ∧ (c 128).wf = false := by decide +kernel

theorem test_wf_slot_toSource :
    ∀ c ∈ ([.slotSwitch] : List (Nat → Nat → Instr)), (c 127 7).wf = true ∧ (c 128 7).wf = false ∧ (c 127 8).wf = false := by decide +kernel

theorem test_wf_pin :
    ∀ c ∈ ([fun pin => .timeIoEdge pin false, .captureIntervalEnd, fun pin => .pinConfigWrite pin 0] : List (Nat → Instr)), (c 3).wf = true ∧
      (c 4).wf = false := by decide +kernel

theorem test_wf_mid_channel' :
    ∀ c ∈ ([fun mid channel => .mbxSend mid channel 0, .mbxRxLatch, fun mid channel => .mbxRxAck mid channel 0] : List (Nat → Nat → Instr)), (c 65535
      18431).wf = true ∧ (c 65536 18431).wf = false ∧ (c 65535 18432).wf = false := by decide +kernel

theorem test_wf_pf_source :
    ∀ c ∈ ([.eventEoi, fun pf source => .eventRouteWrite pf source 0, .eventMessageIssue] : List (Nat → Nat → Instr)), (c 15 383).wf = true ∧
      (c 16 383).wf = false ∧ (c 15 384).wf = false := by decide +kernel

theorem test_wf_flit :
    ∀ c ∈ ([.stpDataFlit, .stpDataLastFlit, .stpMessageFlit, fun flit => .stpControlFlit flit 0 false, .stpIdleFlit, .stpFlitDiscard] : List (Flit →
      Instr)), (c ({ stream := 15, fseq := 4095, payload := List.replicate 240 0 })).wf = true ∧ (c ({ payload := List.replicate 241 0 })).wf = false := by decide +kernel

theorem test_wf_stream :
    ∀ c ∈ ([.stpMatchTimeout] : List (Nat → Instr)), (c 15).wf = true ∧ (c 16).wf = false := by decide +kernel

theorem test_wf_starts :
    ∀ c ∈ ([.coldStart, .mainRailsRestored] : List (StartFindings → Instr)),
      (c { ringCounts := List.replicate 16 9900, perstLow := [15], badSets := [33], badCrypto := [47] }).wf = true ∧
      (c { ringCounts := List.replicate 15 9900 }).wf = false ∧ (c { ringCounts := List.replicate 16 9900, perstLow := [16] }).wf = false ∧
      (c { ringCounts := List.replicate 16 9900, badSets := [34] }).wf = false ∧
      (c { ringCounts := List.replicate 16 9900, badCrypto := [48] }).wf = false := by decide +kernel

theorem test_wf_counts :
    (Instr.paceMeasure (List.replicate 16 9900)).wf = true ∧ (Instr.paceMeasure []).wf = false := by decide +kernel

theorem test_wf_losses :
    ∀ c ∈ ([.portDown, .flexeOverheadLockLoss] : List (PortLoss → Instr)),
      (c { port := 31, cut := [255] }).wf = true ∧ (c { port := 32, cut := [] }).wf = false ∧
      (c { port := 31, cut := [256] }).wf = false := by decide +kernel

theorem test_wf_scrub :
    (Instr.memoryScrub .hbm [{ place := .setSram 33 0 none, correctable := true }]).wf = true ∧
    (Instr.memoryScrub .hbm [{ place := .setSram 34 0 none, correctable := true }]).wf = false := by decide +kernel

/-! ## Worked examples and check values of the spec -/

/-- The check value of CRC-32C (Castagnoli), the polynomial that R45 names: 0xE3069283 for the nine ASCII digits. -/
theorem test_crc32c : crc32c ("123456789".toList.map (fun c => BitVec.ofNat 8 c.toNat)) = 0xE3069283 := by decide +kernel

/-- Chapter 6, "a transmit": the words 0x08 and 0x0C of its three descriptors. -/
theorem test_transmit_descriptors :
    (let f := fun w o => txFieldsB (leBytes 0x42_7700_1000 8 ++ leBytes w 4 ++ leBytes o 4 ++ leBytes 0 16)
     let a := f 0x01000080 0x31
     let b := f 0x0200056A 0
     let c := f 0x07000046 0
     a.length = 128 ∧ a.sop = true ∧ a.eop = false ∧ a.opcode = 1 ∧ a.csum = 3 ∧ a.reserved = false ∧
     b.length = 1386 ∧ b.sop = false ∧ b.eop = true ∧ b.opcode = 0 ∧
     c.length = 70 ∧ c.sop = true ∧ c.eop = true ∧ c.tsReq = true ∧ c.launch = false) := by decide +kernel

/-- Chapter 6, "a transmit": words 0x08 and 0x0C of the three completions on a ring of 1,024 entries, and of the third had the notify ring
been full. -/
theorem test_transmit_completions :
    (let g : Ring := { log2 := 10 }
     let w := fun s (c : Cpl) => (leAt (g.cplBytes s c) 0 4, leAt (g.cplBytes s c) 8 4, leAt (g.cplBytes s c) 12 4)
     w 0x1000003FE { length := 128 } = (0x80, 0, 0x800003FE) ∧ w 0x1000003FF { length := 1386, eop := true } = (0x56A, 0x20000000, 0x800003FF) ∧
     w 0x100000400 { length := 70, eop := true } = (0x46, 0x20000000, 0x400) ∧
     w 0x100000400 { length := 70, eop := true, tsLost := true } = (0x46, 0x60000000, 0x400)) := by decide +kernel

/-- Chapter 6, "a receive": the four words of entry 0xFF. -/
theorem test_receive_completion :
    (let b := ({ log2 := 8 } : Ring).cplBytes 0x32FF
       { length := 952, hash := 0x5E0B91C4, tci := 100, l3 := 1, l4 := 1, csum := 3, stripped := true, eop := true }
     b = leBytes 0x3B8 4 ++ leBytes 0x5E0B91C4 4 ++ leBytes 0x33050064 4 ++ leBytes 0x800032FF 4) := by decide +kernel

/-- Chapter 13, "shares under one PF": 100,000 bytes over Tenants 6 (weight 100), 300 (weight 300, floor 100 Gb/s) and 301 (weight 100,
ceiling 150 Gb/s) give 17,500, 65,000 and 17,500 bytes; with the weight of 301 at 0, 21,875 and 78,125. Credit is in 1/256 byte. -/
theorem test_shares :
    (let n := fun w f c => ({ weight := w, floor := f, ceiling := c } : Node)
     let a := fun w => shareOut (some 25600000)
       [(6, n 100 0 0, none), (300, n 300 100000 0, none), (301, n w 0 150000, ceilCredit 150000 250)] 250
     a 100 = ([(6, some (17500 * 256)), (300, some (65000 * 256)), (301, some (17500 * 256))], false) ∧
     a 0 = ([(6, some (21875 * 256)), (300, some (78125 * 256))], false)) := by decide +kernel

/-- Chapter 17's worked example: VF 605 and its two channels. -/
theorem test_channel_numbers : midFn 605 = 0x125D ∧ requestChannel 605 = 1178 ∧ receiveChannel 605 = 1179 := by decide

/-- A device whose image binds those channels to control core 2. -/
def mbx605 : Dev := { dev0 with boot := { image := some (bareOf [.bindings [(1178, (0x125D, 3)), (1179, (3, 0x125D))]]) } }

/-- A write of the VF's half of its request channel. -/
def vfWrites (off v : Nat) (d : Dev) : Dev := d.mbxWrite 0x125D 1178 off v

/-- The example's second request, sent before the first is acknowledged, and its stale acknowledgement. -/
def mbxStale : Dev := (vfWrites 0x40 0x90 ((vfWrites 0x40 0x8C mbx605).mbxRead 3 1178 0xC0).2).mbxWrite 3 1178 0xC4 0x10000

/-- Steps 1 to 3: MBX_RX_STATUS reads 0x0001_008C. -/
theorem test_mailbox_request : ((vfWrites 0x40 0x8C mbx605).mbxRead 3 1178 0xC0).1 = 0x1008C := by decide +kernel

/-- Steps 4 to 7: MBX_TX_ACK reads 0x0001_FFFF, MBX_RX_STATUS 0x0002_0590, and after the acknowledgement MBX_TX_ACK reads 0x0002_0000. -/
theorem test_mailbox_overwrite :
    (mbxStale.mbxRead 0x125D 1178 0x48).1 = 0x1FFFF ∧ (mbxStale.mbxRead 3 1178 0xC0).1 = 0x20590 ∧
    (((mbxStale.mbxRead 3 1178 0xC0).2.mbxWrite 3 1178 0xC4 0x10000).mbxRead 0x125D 1178 0x48).1 = 0x20000 := by decide +kernel

/-! ## Arithmetic -/

/-- A sum that wraps sets carry and leaves overflow clear; one that changes its sign sets overflow (R250). -/
theorem test_alu_add :
    aluResult 0 (-1) 1 false = (0, some true, some false) ∧
    aluResult 0 0x7FFFFFFFFFFFFFFF 1 false = (0x8000000000000000, some false, some true) ∧
    aluResult 7 (-1) 0 true = (0, some true, some false) := by decide +kernel

/-- A difference whose sign is wrong sets overflow (R250). -/
theorem test_alu_sub : aluResult 1 0x8000000000000000 1 false = (0x7FFFFFFFFFFFFFFF, none, some true) := by decide +kernel

/-- An extract and an insert of eight bits at offset 4, and a rotate to the left (R250). -/
theorem test_shift :
    shiftResult 3 0xABC 0 4 8 = some 0xAB ∧ shiftResult 4 0xCD 0xFFFF 4 8 = some 0xFCDF ∧
    shiftResult 2 0x8000000000000001 0 4 0 = some 0x18 := by decide +kernel

/-! ## Pace and reset -/

/-- R88: the smallest quotient less 1 %, in 1.15 fixed point: counts of 10,000 and one of 9,000 over references of 10,000 give
29,491 · 99 / 100 = 29,196. -/
theorem test_pace : dev0.paceOf (9000 :: List.replicate 15 10000) = 29196 := by decide +kernel

/-- The device right after reset: nothing waits, no image runs, no function exists, the card is not valid. -/
theorem test_reset :
    State.reset.pending = [] ∧ State.reset.dev.phase = .held ∧ State.reset.dev.boot.image = none ∧ State.reset.dev.card.valid = false ∧
    State.reset.dev.funcs = {} := by decide +kernel

/-! ## The statements about every command -/

/-- A state with two commands waiting. -/
def queued : State := { up with pending := [.orderlyShutdown, .shutdownDrainDone] }

theorem meets_StepRunsTheFrontCommand : queued.pending = Instr.orderlyShutdown :: [.shutdownDrainDone] := rfl

theorem meets_IdleStep :
    (up.pending = [] ∧ up.dev.phase = .running) ∧
    (State.reset.pending = [] ∧ State.reset.dev.phase ≠ .running ∧ State.reset.dev.phase ≠ .serviceReset) := by decide +kernel

theorem meets_FusesOnlyBlow : step State.reset = .next State.reset ∧ State.reset.fuses.ok := ⟨rfl, by unfold Fuses.ok; decide⟩

theorem meets_FramesOfTheDevice :
    (∃ t, exec .orderlyShutdown queued = .next t) ∧ Part.positions ∉ mayChange .orderlyShutdown := ⟨⟨_, rfl⟩, by decide⟩

theorem meets_FramesOfTheDatapath :
    (∃ t, exec .orderlyShutdown queued = .next t) ∧ Part.rings ∉ mayChange .orderlyShutdown := ⟨⟨_, rfl⟩, by decide⟩

theorem meets_FramesOfTheHostSide :
    (∃ t, exec .orderlyShutdown queued = .next t) ∧ Part.output ∉ mayChange .orderlyShutdown := ⟨⟨_, rfl⟩, by decide⟩

/-! ## Starts, resets, power and temperature -/

namespace Device

def sUp0 : State := up
def sVf0 : State := up fun d => { d with funcs := { entries := [(0, { fn0 with vfEnable := true, numVfs := 1 }), (16, fn0)] } }
def sRoute : State := up fun d => (d.wr R.EVT_ROUTE_enable 1 0 (4 * 374)).wr R.EVT_ROUTE_enable 1 0 (4 * 383)
def dNest : Dev := dev0.record { unit := 0x20, severity := 2, code := 1, handling := 1 }
def err1 : Err := { unit := 0x20, severity := 1, code := 2 }
def err2 : Err := { unit := 0x20, severity := 3, code := 2 }
def err3 : Err := { unit := 0x21, severity := 3, code := 2 }
def err4 : Err := { unit := 0x20, severity := 0, code := 2 }
def err5 : Err := { unit := 0x20, severity := 4, code := 2 }
def sHeld : State := { flash := { dir0 := dirA, slotA := some img } }
def sHeldFree : State := { dev := { resetLow := false } }
def sUp : State := up
def findings1 : StartFindings := {}
def sLog : State := up fun d => { d with boot := { d.boot with logFull := [0] } }
def sWithheld : State := up fun d => { d with boot := { d.boot with logFull := [0], withheld := [.doorbell 0 0 0 0 1] } }
def sReplay : State := up fun d => d.wr R.LGR_STATUS_service_replay 1
def sSnapOn : State := up fun d => d.wr R.BOOT_CONTROL_snap_interval 1
def sSnap : State := up fun d => { d with boot := { d.boot with snapshot := some {} } }
def sDirty : State := up fun d => { d with keep := { d.keep with dirty := true } }
def retained1 : Retained := {}
def sClosing : State := up fun d => { d with keep := { d.keep with dirty := true, closing := some {} } }
def sDown : State := up fun d => (d.wr R.BOOT_CONTROL_snap_at_shutdown 1 |> fun d => { d with boot := { d.boot with shutdown := true } })
def sDown2 : State := up fun d => (d.wr R.BOOT_CONTROL_snap_at_shutdown 0 |> fun d => { d with boot := { d.boot with shutdown := true } })
def dirT : DirCopy := { dirA with trial := true, trialLeft := 2 }.sealed
def sTrial : State := { flash := { dir0 := dirT, slotA := some img, slotB := some img }, dev := { dev0 with boot := { image := some img, onTrial := true, slot := 1 } } }
def sPace : State := up fun d => (d.wr R.PWR_PACE_pace 26213).wr R.PWR_TARGET_pace_target 26214
def sLow : State := up fun d => d.wr R.PWR_LIMIT_power_limit 359
def started (f : Dev → Dev := id) : State := up fun d => f { d with power := { d.power with started := true } }
def sTrip : State := started fun d => { d with phase := .tripped }
def sRecovery : State := up fun d => { d with phase := .recovery }
def sNoBoost : State := started fun d => d.wr R.PWR_TARGET_boost_enable 0
def sNoBoost2 : State := started fun d => ((d.wr R.PWR_TARGET_boost_enable 0).wr R.PWR_PACE_pace 20000).wr R.PWR_VDD_request_mv 790
def sNoBoost3 : State := started fun d => (((d.wr R.PWR_TARGET_boost_enable 0).wr R.PWR_PACE_pace 33000).wr R.PWR_VDD_request_mv 790).wr R.PWR_LIMIT_power_limit 0 |>.wr R.PWR_POWER_power_1ms 100
def sBoost : State := up fun d => (d.wr R.PWR_VDD_boost_open 1).wr R.PWR_VDD_request_mv 850
def sAvs2 : State := up fun d => { d with power := { d.power with avsFailures := 2 } }
def sStopped : State := up fun d => { d with power := { d.power with avsStopped := true } }
def sHot : State := up fun d => (d.wr R.PWR_TJ_tj 115)
def sGrace : State := up fun d => { d with setPos := { entries := [(31, { site := 31, phase := .grace, thermal := true })] } }
def sCool : State := up fun d => { d with setPos := { entries := [(31, { site := 31, phase := .out, thermal := true })] }, power := { d.power with satOut := [31], coolMs := 1000 } }
def sSite : State := up fun d => ({ d with setPos := { entries := [(5, { site := 5, phase := .out })] } }).setDomain 5 true
def sWake : State := up fun d => { d with power := { d.power with waking := [42] } }

theorem meets_SoftwareTriggers :
    (sUp0.dev.phase = Phase.running ∧ (isCoreMid 8 = true ∨ ∃ pf < 16, 8 = midFn pf ∧ sUp0.dev.doorbellOpen pf = true ∧
      sUp0.dev.withholds pf = false ∧ sUp0.dev.mayReach 8 145 0 = true)) ∧
    (sUp0.dev.phase = Phase.running ∧ (isCoreMid 4096 = true ∨ ∃ pf < 16, 4096 = midFn pf ∧ sUp0.dev.doorbellOpen pf = true ∧
      sUp0.dev.withholds pf = false ∧ sUp0.dev.mayReach 4096 145 0 = true)) ∧
    (sRoute.dev.phase = Phase.running) := by decide +kernel

theorem meets_VfTempoWindow :
    (sVf0.dev.phase = Phase.running ∧ 16 ≤ 16 ∧ 16 < 8208 ∧ sVf0.dev.doorbellOpen 16 = true ∧ sVf0.dev.linkUp (sVf0.dev.linkOf 16) = true ∧
      16 % 4 = 0 ∧ 16 < 4096 ∧ 16 = 16) ∧
    (sVf0.dev.phase = Phase.running ∧ 16 ≤ 16 ∧ 16 < 8208 ∧ sVf0.dev.doorbellOpen 16 = true ∧ sVf0.dev.linkUp (sVf0.dev.linkOf 16) = true ∧
      20 % 4 = 0 ∧ 20 < 4096 ∧ 20 = 20) ∧
    (sVf0.dev.phase = Phase.running ∧ 16 ≤ 16 ∧ 16 < 8208 ∧ sVf0.dev.doorbellOpen 16 = true ∧ sVf0.dev.linkUp (sVf0.dev.linkOf 16) = true ∧
      264 % 4 = 0 ∧ 264 < 4096 ∧ isDomainOff 264 = true) ∧
    (sVf0.dev.phase = Phase.running ∧ 16 ≤ 16 ∧ 16 < 8208 ∧ sVf0.dev.doorbellOpen 16 = true ∧ sVf0.dev.linkUp (sVf0.dev.linkOf 16) = true ∧
      408 % 4 = 0 ∧ 408 < 4096 ∧ isDomainOff 408 = true) ∧
    (sVf0.dev.phase = Phase.running ∧ 16 ≤ 16 ∧ 16 < 8208 ∧ sVf0.dev.doorbellOpen 16 = true ∧ sVf0.dev.linkUp (sVf0.dev.linkOf 16) = true ∧
      4092 % 4 = 0 ∧ 4092 < 4096 ∧ 4092 ≠ 16 ∧ 4092 ≠ 20 ∧ isDomainOff 4092 = false) ∧
    (sVf0.dev.phase = Phase.running ∧ 16 ≤ 16 ∧ 16 < 8208 ∧ sVf0.dev.doorbellOpen 16 = true ∧ sVf0.dev.linkUp (sVf0.dev.linkOf 16) = true ∧
      0 % 4 = 0 ∧ 0 < 4096 ∧ sVf0.dev.withholds 16 = false) := by decide +kernel

theorem meets_NestedErrors :
    (dNest.phase ≠ Phase.faultStop ∧ err1.severity ≤ 4 ∧ err1.site < 256 ∧ err1.domain < 256 ∧ dNest.freeLogSlot err1.severity = some 1 ∧
      1 ≤ err1.severity ∧ err1.severity ≤ 3) ∧
    (dNest.phase ≠ Phase.faultStop ∧ err2.severity ≤ 4 ∧ err2.site < 256 ∧ err2.domain < 256 ∧ dNest.freeLogSlot err2.severity = some 1 ∧
      1 ≤ err2.severity ∧ err2.severity ≤ 3 ∧ (∃ u, (fun u => u < 256 ∧ dNest.logHeld u = true ∧ dNest.recHandling u = 1 ∧
      dNest.logWord u 2 = err2.unit + 65536 * err2.inst ∧ dNest.logWord u 4 % 256 = err2.site) u)) ∧
    (dNest.phase ≠ Phase.faultStop ∧ err3.severity ≤ 4 ∧ err3.site < 256 ∧ err3.domain < 256 ∧ dNest.freeLogSlot err3.severity = some 1 ∧
      1 ≤ err3.severity ∧ err3.severity ≤ 3 ∧ (∀ (u : ℕ), ¬(fun u => u < 256 ∧ dNest.logHeld u = true ∧ dNest.recHandling u = 1 ∧
      dNest.logWord u 2 = err3.unit + 65536 * err3.inst ∧ dNest.logWord u 4 % 256 = err3.site) u)) ∧
    (dNest.phase ≠ Phase.faultStop ∧ err4.severity ≤ 4 ∧ err4.site < 256 ∧ err4.domain < 256 ∧ (err4.severity = 0 ∨ err4.severity = 4) ∧ 1 < 256 ∧
      dNest.logHeld 1 = false ∧ (Dev.record err4 dNest).logHeld 1 = true) ∧
    (dNest.phase ≠ Phase.faultStop ∧ err5.severity ≤ 4 ∧ err5.site < 256 ∧ err5.domain < 256 ∧ (err5.severity = 0 ∨ err5.severity = 4) ∧ 1 < 256 ∧
      dNest.logHeld 1 = false ∧ (Dev.record err5 dNest).logHeld 1 = true) :=
  ⟨by decide +kernel,
   ⟨by decide +kernel, by decide +kernel, by decide +kernel, by decide +kernel, by decide +kernel, by decide +kernel, by decide +kernel, ⟨0, by decide +kernel⟩⟩,
   ⟨by decide +kernel, by decide +kernel, by decide +kernel, by decide +kernel, by decide +kernel, by decide +kernel, by decide +kernel, by rintro u ⟨hu, h⟩; revert h; revert u; decide +kernel⟩,
   by decide +kernel,
   by decide +kernel⟩

theorem meets_ColdStarts_start :
    (sHeld.dev.phase = Phase.held ∧ sHeld.dev.power.heldTj < 125 ∧ sHeld.dev.power.tripPin = false ∧ sHeld.dev.railsGood = true) ∧
    (sHeldFree.dev.phase = Phase.held ∧ sHeldFree.dev.power.heldTj < 125 ∧ sHeldFree.dev.power.tripPin = false ∧ sHeldFree.dev.resetLow = false ∧
      sHeldFree.dev.testen = false) := by decide +kernel

theorem meets_ServiceResets_begin :
    (sUp.dev.phase = Phase.running) ∧
    (sHeld.dev.phase ≠ Phase.running) := by decide +kernel

theorem meets_ServiceResets_end :
    (sWithheld.dev.phase = Phase.running ∧ sWithheld.dev.boot.withheld = [HeldWrite.doorbell 0 0 0 0 1] ∧ sWithheld.dev.linkOf 0 = 0) ∧
    (sLog.dev.phase = Phase.running ∧ (∀ w ∈ sLog.dev.boot.withheld, sLog.dev.heldLink w ≠ 0)) ∧
    (sReplay.dev.phase = Phase.running ∧ sReplay.dev.on R.LGR_STATUS_service_replay = true ∧ sReplay.dev.savedOpen = false) := by decide +kernel

theorem meets_RetainedState_snapshots :
    (sUp.dev.phase = Phase.running ∧ sUp.dev.boot.snapshot = none) ∧
    (sSnapOn.dev.phase = Phase.running ∧ sSnapOn.dev.boot.snapshot = none ∧ sSnapOn.dev.on R.BOOT_CONTROL_snap_interval = true) ∧
    (sSnap.dev.boot.snapshot = some retained1) ∧
    (sClosing.dev.keep.closing.isSome = true) ∧
    (sDirty.dev.phase = Phase.running ∧ sDirty.dev.keep.dirty = true ∧ sDirty.dev.keep.closing = none) := by decide +kernel

theorem meets_RetainedState_discard :
    sUp.dev.phase = Phase.running := by decide +kernel

theorem meets_ShutdownAndTrial_shutdown :
    (sUp.dev.phase = Phase.running) ∧
    (sDown.dev.phase = Phase.running ∧ sDown.dev.boot.shutdown = true ∧ sDown.dev.boot.shutdownDone = false ∧ sDown.dev.drained = true) ∧
    (sDown2.dev.phase = Phase.running ∧ sDown2.dev.boot.shutdown = true ∧ sDown2.dev.boot.shutdownDone = false ∧ sDown2.dev.drained = true) := by decide +kernel

theorem meets_ShutdownAndTrial_trial :
    sTrial.dev.phase = Phase.running ∧ sTrial.flash.dir = some dirT ∧ dirT.trial = true ∧ sTrial.dev.boot.onTrial = true ∧
      sTrial.dev.boot.image = some img := ⟨by decide +kernel, by decide +kernel, by decide +kernel, by decide +kernel, rfl⟩

theorem meets_PowerAndPacePublished_pace :
    (sUp.dev.phase.powered = true) ∧
    (sPace.dev.phase.powered = true ∧ sPace.dev.rd R.PWR_PACE_pace < sPace.dev.rd R.PWR_TARGET_pace_target) := by decide +kernel

theorem meets_PowerAndPacePublished_power :
    (sLow.dev.phase.powered = true) ∧
    (sUp.dev.phase.powered = true) := by decide +kernel

theorem meets_GovernorAndBoost_governor :
    (sTrip.dev.power.avsStopped = false ∧ sTrip.dev.power.started = true ∧ sTrip.dev.phase = Phase.tripped) ∧
    (sRecovery.dev.power.avsStopped = false ∧ sRecovery.dev.phase ≠ Phase.held ∧
      (sRecovery.dev.power.started = false ∨ sRecovery.dev.phase ≠ Phase.tripped ∧ sRecovery.dev.phase ≠ Phase.running)) ∧
    (sNoBoost.dev.power.avsStopped = false ∧ sNoBoost.dev.power.started = true ∧ sNoBoost.dev.phase = Phase.running ∧
      sNoBoost.dev.on R.PWR_TARGET_boost_enable = false ∧ sNoBoost.dev.on R.PWR_VDD_boost_open = false) ∧
    (sNoBoost2.dev.power.avsStopped = false ∧ sNoBoost2.dev.power.started = true ∧ sNoBoost2.dev.phase = Phase.running ∧
      sNoBoost2.dev.on R.PWR_TARGET_boost_enable = false ∧ sNoBoost2.dev.on R.PWR_VDD_boost_open = false) ∧
    (sNoBoost3.dev.power.avsStopped = false ∧ sNoBoost3.dev.power.started = true ∧ sNoBoost3.dev.phase = Phase.running ∧
      sNoBoost3.dev.on R.PWR_TARGET_boost_enable = false ∧ sNoBoost3.dev.on R.PWR_VDD_boost_open = false) := by decide +kernel

theorem meets_GovernorAndBoost_boost :
    sBoost.dev.phase.powered = true ∧ sBoost.dev.power.avsStopped = false ∧ sBoost.dev.on R.PWR_VDD_boost_open = true := by decide +kernel

theorem meets_GovernorAndBoost_avs :
    (sAvs2.dev.phase.powered = true) ∧
    (sAvs2.dev.phase.powered = true ∧ AvsResult.nack ≠ AvsResult.ok ∧ sAvs2.dev.power.avsStopped = false) ∧
    (sUp.dev.phase.powered = true ∧ AvsResult.noResponse ≠ AvsResult.ok ∧ sUp.dev.power.avsStopped = false) ∧
    (sStopped.dev.phase.powered = true ∧ sStopped.dev.power.avsStopped = true) := by decide +kernel

theorem meets_ThermalLimits_sample :
    ((∀ y ∈ [105, -128, 127], -128 ≤ y ∧ y ≤ 127) ∧ sUp.dev.phase ≠ Phase.held) ∧
    ((∀ y ∈ [104], -128 ≤ y ∧ y ≤ 127) ∧ sUp.dev.phase ≠ Phase.held) ∧
    ((∀ y ∈ [104], -128 ≤ y ∧ y ≤ 127) ∧ sHeld.dev.phase = Phase.held) := by decide +kernel

theorem meets_ThermalLimits_sitout :
    (sHot.dev.phase = Phase.running ∧ 115 ≤ sHot.dev.tj ∧ sHot.dev.replays = [] ∧ sHot.dev.thermalNext = some 31) ∧
    (sGrace.dev.phase = Phase.running ∧ (sGrace.dev.setAt 31).phase = PosPhase.grace ∧ (sGrace.dev.setAt 31).thermal = true ∧
      ((sGrace.dev.items.filter fun _ it => it.inLedger && it.position == 31).entries = [])) ∧
    (sCool.dev.phase = Phase.running ∧ sCool.dev.power.satOut = [31] ∧ 1000 ≤ sCool.dev.power.coolMs ∧ (sCool.dev.setAt 31).phase = PosPhase.out ∧
      (sCool.dev.setAt 31).thermal = true) := by decide +kernel

theorem meets_ThermalLimits_trip :
    sUp.dev.phase ≠ Phase.tripped ∧ sUp.dev.power.tripPin = false := by decide +kernel

theorem meets_PowerDomains :
    (sSite.dev.phase = Phase.running ∧ 5 < 48 ∧ sSite.dev.domainExists 5 = true ∧ sSite.dev.power.waking.contains 5 = false ∧
      sSite.dev.mayBeOff 5 = true ∧ sSite.dev.domainHolds 5 = false) ∧
    (sUp.dev.phase = Phase.running ∧ 47 < 48 ∧ sUp.dev.domainExists 47 = true ∧ sUp.dev.power.waking.contains 47 = false ∧
      sUp.dev.mayBeOff 47 = false) ∧
    (sWake.dev.phase = Phase.running ∧ 42 < 48 ∧ sWake.dev.power.waking.contains 42 = true) ∧
    (sWake.dev.phase = Phase.running ∧ 0 < 48) ∧
    (sWake.dev.phase = Phase.running ∧ 42 < 48 ∧ sWake.dev.power.waking = [42] ∧ sWake.dev.positionsOfSite 42 = []) := by decide +kernel

end Device

/-! ## The sideband, the debug port, links, functions and host requests -/

namespace Links

def sUp : State := up
def sHeld : State := { flash := { dir0 := dirA, slotA := some img } }
def sIde : State := up fun d => (d.wr R.PCX_LINK_STATUS_flit 1).wr R.PCX_LINK_SHAPE_ide_enabled 1
def sNoFn : State := up fun d => { d with funcs := {} }
def sPerst : State := up fun d => { d with funcs := {}, links := { entries := [(0, { enabled := true, reset := .fundamental })] } }.wr R.PCX_LINK_STATUS_perst 1
def sTraining : State := up fun d => { d with funcs := {} }.wr R.PCX_LINK_STATUS_state 2
def sAspm : State := up fun d => { d with funcs := { entries := [(0, { fn0 with aspmL1 := true })] } }
def sFlr : State := up fun d => { d with funcs := { entries := [(0, { fn0 with reset := .flr })] } }
def sNoMaster : State := up fun d => { d with funcs := { entries := [(0, { fn0 with busMaster := false })] } }
def sVf : State := up fun d => { d with funcs := { entries := [(0, { fn0 with vfEnable := true, numVfs := 1 }), (16, fn0)] } }
def sClosed : State := up fun d => { d with funcs := { entries := [(0, { fn0 with memSpace := false })] } }
def sStop : State := up fun d => { d with phase := .faultStop }
def sService : State := up fun d => { d with phase := .serviceReset }
def rdead : Read := { fn := 0, addr := 0, len := 64, why := .payload 0 0, dead := true }
def sRead : State := up fun d => { d with links := { entries := [(0, { enabled := true, ready := true, reads := { entries := [(5, rdead)] } })] } }
def sVec : State := up fun d => { d with funcs := { entries := [(0, { fn0 with vecs := { entries := [(63, { pending := true })] } })] } }
def sSecure : State := up fun d => d.wr R.PCX_LINK_STATUS_ide_secure 1
def sCommit : State := up fun d => { d with links := { entries := [(0, { enabled := true, ready := true, commit := some (List.range 128) })] } }
def err0 : Err := { unit := 0x41, inst := 3, severity := 1, code := 2, handling := 1 }
def sNest : State := up fun d => d.record err0

theorem meets_SidebandAndResponder_sideband :
    (1 ≤ 1 ∧ 1 ≤ 254) ∧
    (1 ≤ 254 ∧ 254 ≤ 254) ∧
    (1 ≤ 3 ∧ 3 ≤ 3 ∧ (keySlotOf sUp.fuses 3).programmed = false) ∧
    ((0 = 0 ∨ 3 < 0 ∨ (keySlotOf sUp.fuses 0).programmed = true)) ∧
    ((4 = 0 ∨ 3 < 4 ∨ (keySlotOf sUp.fuses 4).programmed = true)) ∧
    (3 ≤ 3) ∧
    (255 < 256) ∧
    (sUp.dev.phase ≠ Phase.held) ∧
    (sUp.flash.dir = some dirA ∧ img.imageBytes ≤ dirA.slotSize ∧ sUp.dev.applying = false) ∧
    (sIde.dev.formed 0 = true ∧ sIde.dev.linkUp 0 = true ∧ sIde.dev.on R.PCX_LINK_STATUS_flit = true ∧
      sIde.dev.on R.PCX_LINK_SHAPE_ide_enabled = true) := by decide +kernel

theorem meets_SidebandAndResponder_responder :
    (sHeld.dev.spdmReached SpdmPath.sideband = true ∧ sHeld.dev.boot.image = none ∧
      Instr.getVersion SpdmPath.sideband ∈ spdmRequests SpdmPath.sideband) ∧
    (sHeld.dev.spdmReached SpdmPath.sideband = true ∧ sHeld.dev.boot.image = none ∧
      Instr.getDigests SpdmPath.sideband ∈ spdmRequests SpdmPath.sideband) ∧
    (sUp.dev.spdmReached (SpdmPath.doe 0) = true ∧ sUp.dev.boot.image = some img) ∧
    (sUp.dev.spdmReached SpdmPath.sideband = true ∧ sUp.dev.boot.image = some img) ∧
    (sUp.dev.spdmReached (SpdmPath.doe 0) = true ∧ SpdmPath.doe 0 = SpdmPath.doe 0) :=
  ⟨by decide +kernel,
   by decide +kernel,
   ⟨by decide +kernel, rfl⟩,
   ⟨by decide +kernel, rfl⟩,
   by decide +kernel⟩

theorem meets_DebugPort :
    (Instr.bypass ∈ tapCommands) ∧
    (Instr.extest ∈ tapCommands) ∧
    (Instr.idcode ∈ tapCommands) ∧
    (Instr.samplePreload ∈ tapCommands) ∧
    (Instr.dbgChallenge ∈ tapCommands) ∧
    (Instr.trstNAssert ∈ tapCommands) := by decide +kernel

theorem meets_HostLinks_resets :
    (sNoFn.dev.phase = Phase.running ∧ sNoFn.dev.formed 0 = true ∧ sNoFn.dev.fnsOf 0 = [] ∧ (sNoFn.dev.link 0).reset = LinkReset.none ∧
      sNoFn.dev.on R.PCX_LINK_STATUS_perst = false) ∧
    (sNoFn.dev.phase = Phase.running ∧ sNoFn.dev.formed 0 = true ∧ sNoFn.dev.fnsOf 0 = [] ∧ (sNoFn.dev.link 0).reset = LinkReset.none) ∧
    (sPerst.dev.phase = Phase.running ∧ sPerst.dev.formed 0 = true ∧ sPerst.dev.fnsOf 0 = [] ∧ ((sPerst.dev.link 0).reset = LinkReset.fundamental)) := by decide +kernel

theorem meets_HostLinks_training :
    (sTraining.dev.phase = Phase.running ∧ sTraining.dev.formed 0 = true ∧ 7 < 8 ∧ 31 < 32 ∧ (sTraining.dev.link 0).reset = LinkReset.none ∧
      (sTraining.dev.link 0).queue = [] ∧ sTraining.dev.rd R.PCX_LINK_STATUS_state = 2 ∧
      (∀ fn ∈ sTraining.dev.fnsOf 0, (sTraining.dev.fn fn).busMaster = false)) ∧
    (sTraining.dev.phase = Phase.running ∧ sTraining.dev.formed 0 = true ∧ 0 < 8 ∧ 0 < 32 ∧ (sTraining.dev.link 0).reset = LinkReset.none ∧
      (sTraining.dev.link 0).queue = [] ∧ sTraining.dev.rd R.PCX_LINK_STATUS_state = 2 ∧
      (∀ fn ∈ sTraining.dev.fnsOf 0, (sTraining.dev.fn fn).busMaster = false)) ∧
    (sAspm.dev.phase = Phase.running ∧ sAspm.dev.formed 0 = true ∧ sAspm.dev.rd R.PCX_LINK_STATUS_state = 3 ∧ (sAspm.dev.link 0).reads = { } ∧
      (sAspm.dev.link 0).queue = [] ∧ (∀ fn ∈ sAspm.dev.fnsOf 0, fn < 16 → (sAspm.dev.fn fn).aspmL1 = true)) := by decide +kernel

theorem meets_Functions_resets :
    (sUp.dev.phase = Phase.running ∧ 0 < 8208 ∧ sUp.dev.vfsPresent 0 = [] ∧ (sUp.dev.fn 0).reset = FnReset.none ∧ sUp.dev.quiet 0) ∧
    (sUp.dev.phase = Phase.running ∧ 0 < 8208 ∧ sUp.dev.vfsPresent 0 = [] ∧ (sUp.dev.fn 0).reset = FnReset.none ∧
      sUp.dev.fnsOf (sUp.dev.linkOf 0) = [0] ∧ sUp.dev.formed (sUp.dev.linkOf 0) = true ∧ (sUp.dev.link (sUp.dev.linkOf 0)).reset = LinkReset.none ∧
      sUp.dev.on R.PCX_LINK_STATUS_perst (sUp.dev.linkOf 0) = false ∧ sUp.dev.quiet 0) ∧
    (sFlr.dev.phase = Phase.running ∧ 0 < 8208 ∧ sFlr.dev.vfsPresent 0 = [] ∧ (sFlr.dev.fn 0).reset = FnReset.flr ∧ sFlr.dev.items = { } ∧
      (sFlr.dev.link (sFlr.dev.linkOf 0)).reads = { } ∧ sFlr.dev.dmaChannelsOf 0 = [] ∧ sFlr.dev.ringsOf 0 = [] ∧ sFlr.dev.jobs = { } ∧
      sFlr.dev.isS44 0 = false ∧ (sFlr.dev.fn 0).outbox = [] ∧ sFlr.dev.formed (sFlr.dev.linkOf 0) = true ∧
      (0 < 16 ∨ (sFlr.dev.fn (sFlr.dev.pfOf 0)).vfEnable = true) ∧ (sFlr.dev.link (sFlr.dev.linkOf 0)).reset = LinkReset.none) :=
  ⟨⟨by decide +kernel, by decide +kernel, by decide +kernel, by decide +kernel, by unfold Dev.quiet Dev.holdsNothing; decide +kernel⟩,
   ⟨by decide +kernel, by decide +kernel, by decide +kernel, by decide +kernel, by decide +kernel, by decide +kernel, by decide +kernel, by decide +kernel, by unfold Dev.quiet Dev.holdsNothing; decide +kernel⟩,
   by decide +kernel⟩

theorem meets_Functions_master :
    (sUp.dev.phase = Phase.running ∧ (sUp.dev.fn 0).reset = FnReset.none ∧ (sUp.dev.fn 0).busMaster = true ∧ sUp.dev.quiet 0) ∧
    (sNoMaster.dev.phase = Phase.running ∧ (sNoMaster.dev.fn 0).reset = FnReset.none ∧ (sNoMaster.dev.fn 0).busMaster = false ∧
      (sNoMaster.dev.fn 0).vecs = { } ∧ sNoMaster.dev.quiet 0) :=
  ⟨⟨by decide +kernel, by decide +kernel, by decide +kernel, by unfold Dev.quiet Dev.holdsNothing; decide +kernel⟩,
   ⟨by decide +kernel, by decide +kernel, by decide +kernel, by decide +kernel, by unfold Dev.quiet Dev.holdsNothing; decide +kernel⟩⟩

theorem meets_Functions_vfs :
    (sUp.dev.phase = Phase.running ∧ 0 < 16 ∧ (sUp.dev.pf? 0).isSome = true ∧ sUp.dev.hasFn 0 = true ∧ (sUp.dev.fn 0).reset = FnReset.none ∧
      (sUp.dev.fn 0).vfEnable = false) ∧
    (sVf.dev.phase = Phase.running ∧ 0 < 16 ∧ (sVf.dev.pf? 0).isSome = true ∧ sVf.dev.hasFn 0 = true ∧ (sVf.dev.fn 0).reset = FnReset.none ∧
      (sVf.dev.fn 0).vfEnable = true ∧ sVf.dev.vfsPresent 0 = [16] ∧ (sVf.dev.fn 16).reset = FnReset.none ∧ sVf.dev.quiet 16) :=
  ⟨by decide +kernel,
   ⟨by decide +kernel, by decide +kernel, by decide +kernel, by decide +kernel, by decide +kernel, by decide +kernel, by decide +kernel, by decide +kernel, by unfold Dev.quiet Dev.holdsNothing; decide +kernel⟩⟩

theorem meets_HostRequests_config :
    (sFlr.dev.phase = Phase.running ∧ sFlr.dev.formed (sFlr.dev.linkOf 0) = true ∧ sFlr.dev.cfgRetries 0 = true) ∧
    (sUp.dev.phase = Phase.running ∧ sUp.dev.formed (sUp.dev.linkOf 16) = true ∧ sUp.dev.cfgRetries 16 = false ∧ sUp.dev.hasFn 16 = false) ∧
    (sUp.dev.phase = Phase.running ∧ sUp.dev.formed (sUp.dev.linkOf 0) = true ∧ sUp.dev.cfgRetries 0 = false ∧ sUp.dev.hasFn 0 = true) ∧
    (sUp.dev.phase = Phase.running ∧ sUp.dev.formed (sUp.dev.linkOf 0) = true ∧ sUp.dev.cfgRetries 0 = false ∧ sUp.dev.hasFn 0 = true ∧ 0 < 16) ∧
    (sUp.dev.phase = Phase.running ∧ sUp.dev.formed (sUp.dev.linkOf 0) = true ∧ sUp.dev.cfgRetries 0 = false ∧ sUp.dev.hasFn 0 = true ∧
      512 ∈ [128, 256, 512]) ∧
    (sVf.dev.phase = Phase.running ∧ sVf.dev.formed (sVf.dev.linkOf 16) = true ∧ sVf.dev.cfgRetries 16 = false ∧ sVf.dev.hasFn 16 = true) := by decide +kernel

theorem meets_HostRequests_memory :
    (sUp.dev.linkUp (sUp.dev.linkOf 0) = true ∧ sUp.dev.phase = Phase.running ∧ sUp.dev.doorbellOpen 0 = true) ∧
    (sUp.dev.linkUp (sUp.dev.linkOf 0) = true ∧ sUp.dev.phase = Phase.running ∧ sUp.dev.doorbellOpen 0 = true ∧ 64 < 65) ∧
    (sClosed.dev.linkUp (sClosed.dev.linkOf 0) = true ∧ sClosed.dev.phase = Phase.running ∧ sClosed.dev.doorbellOpen 0 = false) ∧
    (sStop.dev.linkUp (sStop.dev.linkOf 0) = true ∧ (sStop.dev.phase = Phase.serviceReset ∨ sStop.dev.phase = Phase.faultStop) ∧
      sStop.dev.hasFn 0 = true) ∧
    (sService.dev.linkUp (sService.dev.linkOf 0) = true ∧ (sService.dev.phase = Phase.serviceReset ∨ sService.dev.phase = Phase.faultStop) ∧
      sService.dev.hasFn 0 = true) := by decide +kernel

theorem meets_HostMessagesAndWindows_completions :
    (sUp.dev.phase = Phase.running ∧ 15 < 16 ∧ (sUp.dev.link 15).reads.get? 1023 = none) ∧
    (sRead.dev.phase = Phase.running ∧ 0 < 16 ∧ (sRead.dev.link 0).reads.get? 5 = some rdead ∧ (sRead.dev.link 0).queue = [] ∧ rdead.dead = true) ∧
    (sRead.dev.phase = Phase.running ∧ 0 < 16 ∧ (sRead.dev.link 0).reads.get? 5 = some rdead ∧ (sRead.dev.link 0).queue = [] ∧ rdead.dead = true ∧
      CplStatus.poisoned ≠ CplStatus.success) := by decide +kernel

theorem meets_HostMessagesAndWindows_messages :
    (sVec.dev.phase = Phase.running ∧ sVec.dev.hasFn 0 = true ∧ 63 < sVec.dev.msixSize 0 ∧
      (sVec.dev.link (sVec.dev.linkOf 0)).reset = LinkReset.none ∧ sVec.dev.postedOf 0 = []) ∧
    (sVec.dev.phase = Phase.running ∧ sVec.dev.hasFn 0 = true ∧ 0 < sVec.dev.msixSize 0 ∧
      (sVec.dev.link (sVec.dev.linkOf 0)).reset = LinkReset.none ∧ sVec.dev.postedOf 0 = []) ∧
    (sUp.dev.phase = Phase.running ∧ sUp.dev.linkUp 0 = true) ∧
    (sSecure.dev.phase = Phase.running ∧ 0 < 16 ∧ sSecure.dev.on R.PCX_LINK_STATUS_ide_secure = true) := by decide +kernel

theorem meets_HostMessagesAndWindows_windows :
    (sUp.dev.phase = Phase.running ∧ sUp.dev.formed 0 = true ∧ (sUp.dev.link 0).reset = LinkReset.none ∧ (sUp.dev.link 0).commit = none) ∧
    (sCommit.dev.phase = Phase.running ∧ sCommit.dev.formed 0 = true ∧ (sCommit.dev.link 0).reset = LinkReset.none ∧
      (sCommit.dev.link 0).commit = some (List.range 128)) := by decide +kernel

end Links

/-! ## Doorbells, rings and retirement -/

namespace Queues

def ringT : Ring := { state := .enabled, producer := 60, slotProducer := 60, fetchPos := 60, cplPos := 60, cqHead := 60 }
def withRing (r : Nat) (g : Ring) (d : Dev) : Dev :=
  { d with rings := { entries := [(r, g)] }, groups := { entries := [(1, { fn := 0, page := 2, slots := { entries := [(3, r)] } })] } }
def sRing : State := up (withRing 5 ringT)
def ringFull : Ring := { ringT with producer := 59 }
def sRingFull : State := up (withRing 5 { ringT with cplPos := 59 })
def ringF : Ring := { ringT with cplPos := 59 }
def sUp : State := up
def sFull : State := up fun d => { d with boot.logFull := [0] }
def sService : State := up fun d => { d with phase := .serviceReset }
def ringArm : Ring := { ringT with armed := false, cqHead := 59, irqCount := 1, timer := true, vector := 1 }
def ringNo : Ring := { ringArm with timer := false }
def sArm : State := up fun d => { withRing 5 ringArm d with ctxCache := [5] }
def sNo : State := up (withRing 5 ringNo)
def owed0 : Owed := { seq := 60, bytes := List.replicate 16 0 }
def owed1 : Owed := { seq := 61, bytes := List.replicate 16 0, ready := false }
def ringOwed : Ring := { ringT with owed := [owed0, owed1] }
def ringOwed1 : Ring := { ringT with owed := [owed1] }
def sOwed : State := up (withRing 5 ringOwed)
def sOwed1 : State := up (withRing 5 ringOwed1)
def sSnapR : State := up fun d => { withRing 5 ringT d with ctxSnap := some (0x1000, 5) }
def sSnapN : State := up fun d => { d with ctxSnap := some (0x1010, 5) }
def fail0 : Failure := { source := 5, onPort := false, reason := 2, seq := 1, fn := 0 }
def sFails : State := up fun d => { d with ringErrors := [7], failures := [fail0] }
def ctxSa : List Byte := [2, 0, 0, 0, 0, 0] ++ List.replicate 250 7
def sCtx : State := up fun d => { d with ctxs := { entries := [(9, ctxSa)] }, crySnap := some (0x1000, 9) }
def sCtxN : State := up fun d => { d with crySnap := some (0x1000, 9) }
def le (v n : Nat) : List Byte := (List.range n).map fun k => BitVec.ofNat 8 (v / 256 ^ k)
def txDesc (len flags op : Nat) : Desc := { seq := 59, bytes := le 0x1000 8 ++ le (len + 2 ^ 24 * flags) 4 ++ le op 4 ++ le 0 16 }
def ringAcc (x : Desc) : Ring := { ringT with accepted := [x] }
def sAcc (x : Desc) : State := up (withRing 5 (ringAcc x))
def dOpen := txDesc 64 1 0
def dWhole := txDesc 262144 3 0
def dOff := txDesc 1 3 1
def dNoop := txDesc 1 3 2
def dBad := txDesc 262145 3 0
def itemQ : Item := { source := 5, descs := [dWhole], stage := .queued, parse := { source := 5, fromRing := true } }
def withItem (i : Nat) (it : Item) (d : Dev) : Dev := { d with items := { entries := [(i, it)] }, nextItem := i + 1 }
def sQueued : State := up fun d => withItem 3 itemQ (withRing 5 ringT d)
def sJam : State := up fun d => { withRing 5 ringT d with
  setPos := { entries := (List.range 7).map fun k => (9 + k, { site := 9 + k, phase := .out }) }
  items := { entries := (List.range 512).map (fun k => (k, { itemQ with stage := .delivered, position := 8 })) ++ [(512, itemQ)] } }
def itemF : Item := { itemQ with stage := .retiring, status := 7, position := 0 }
def itemF2 : Item := { itemQ with stage := .delivered, position := 0 }
def sRet : State := up fun d => withItem 3 itemF (withRing 5 ringT d)
def sRet2 : State := up fun d => { withItem 3 itemF (withRing 5 ringT d) with items := { entries := [(2, itemF2), (3, itemF)] } }
def itemOld : Item := { itemF with gen := 65535 }
def sOld : State := up fun d => withItem 3 itemOld (withRing 5 ringT d)
-- full tables: position pick none
def itemD (p : Nat) : Item := { itemQ with stage := .delivered, position := p }

def sSaved : State := up fun d => withItem 3 itemQ (withRing 5 { ringT with saved := 1 } d)

theorem meets_Doorbells_rings :
    (sRing.dev.phase = Phase.running ∧ sRing.dev.doorbellOpen 0 = true ∧ sRing.dev.canIssue ringT.fn = true ∧ sRing.dev.withholds 0 = false ∧
      sRing.dev.boot.shutdown = false ∧ sRing.dev.doorbellRing 0 2 3 = some 5 ∧ sRing.dev.ring? 5 = some ringT ∧ ringT.kind ≠ 3 ∧
      ringT.state = RingState.enabled ∧ ringT.stopping = false ∧ ringT.producer < ringT.size ∧ ringT.size ≤ 65536 ∧ 59 < ringT.size ∧
      (59 + ringT.size - ringT.producer) % ringT.size + ringT.outstanding < ringT.size) ∧
    (sRing.dev.phase = Phase.running ∧ sRing.dev.doorbellOpen 0 = true ∧ sRing.dev.canIssue ringT.fn = true ∧ sRing.dev.withholds 0 = false ∧
      sRing.dev.boot.shutdown = false ∧ sRing.dev.doorbellRing 0 2 3 = some 5 ∧ sRing.dev.ring? 5 = some ringT ∧ ringT.kind ≠ 3 ∧
      ringT.state = RingState.enabled ∧ ringT.stopping = false ∧ ringT.producer < ringT.size ∧ ringT.size ≤ 65536 ∧ 61 < ringT.size ∧
      (61 + ringT.size - ringT.producer) % ringT.size + ringT.outstanding < ringT.size) ∧
    (sRingFull.dev.phase = Phase.running ∧ sRingFull.dev.doorbellOpen 0 = true ∧ sRingFull.dev.canIssue ringF.fn = true ∧
      sRingFull.dev.withholds 0 = false ∧ sRingFull.dev.boot.shutdown = false ∧ sRingFull.dev.doorbellRing 0 2 3 = some 5 ∧
      sRingFull.dev.ring? 5 = some ringF ∧ ringF.kind ≠ 3 ∧ ringF.state = RingState.enabled ∧ ringF.stopping = false ∧ ringF.producer < ringF.size ∧
      ringF.size ≤ 65536 ∧ 59 < ringF.size ∧ ringF.outstanding < ringF.size ∧
      ringF.size ≤ (59 + ringF.size - ringF.producer) % ringF.size + ringF.outstanding ∧ 59 ≠ ringF.producer) ∧
    (sRing.dev.phase = Phase.running ∧ sRing.dev.doorbellOpen 0 = true ∧ sRing.dev.canIssue ringT.fn = true ∧ sRing.dev.withholds 0 = false ∧
      sRing.dev.boot.shutdown = false ∧ sRing.dev.doorbellRing 0 2 3 = some 5 ∧ sRing.dev.ring? 5 = some ringT ∧ ringT.kind ≠ 3 ∧
      ringT.state = RingState.enabled ∧ ringT.stopping = false ∧ ringT.producer < ringT.size ∧ ringT.size ≤ 65536 ∧ ringT.size ≤ 64) := by decide +kernel

theorem meets_Doorbells_ignored :
    (sUp.dev.phase = Phase.running ∧ sUp.dev.withholds 0 = false ∧ sUp.dev.doorbellOpen 0 = true ∧ sUp.dev.doorbellRing 0 511 7 = none) ∧
    (sService.dev.phase = Phase.serviceReset ∧ sService.dev.withholds 0 = false) ∧
    (sFull.dev.withholds 0 = true) := by decide +kernel

theorem meets_RingCompletions_interrupts :
    (sArm.dev.phase = Phase.running ∧ sArm.dev.ring? 5 = some ringArm ∧ sArm.dev.withholds 0 = false ∧ sArm.dev.doorbellOpen 0 = true ∧
      sArm.dev.doorbellRing 0 2 3 = some 5 ∧ 59 < 65536 ∧ sArm.dev.ctxCache.contains 5 = true) ∧
    (sArm.dev.phase = Phase.running ∧ sArm.dev.ring? 5 = some ringArm ∧ sArm.dev.withholds 0 = false ∧ sArm.dev.doorbellOpen 0 = true ∧
      sArm.dev.doorbellRing 0 2 3 = some 5 ∧ 60 < 65536 ∧ sArm.dev.ctxCache.contains 5 = true) ∧
    (sArm.dev.phase = Phase.running ∧ sArm.dev.ring? 5 = some ringArm ∧ sArm.dev.withholds 0 = false ∧ sArm.dev.doorbellOpen 0 = true ∧
      sArm.dev.doorbellRing 0 2 3 = some 5 ∧ 65535 < 65536 ∧ sArm.dev.ctxCache.contains 5 = true) ∧
    (sArm.dev.phase = Phase.running ∧ sArm.dev.ring? 5 = some ringArm ∧ ringArm.timer = true) ∧
    (sNo.dev.phase = Phase.running ∧ sNo.dev.ring? 5 = some ringNo ∧ ringNo.timer = false) := by decide +kernel

theorem meets_RingCompletions_writes :
    (sOwed.dev.phase = Phase.running ∧ sOwed.dev.ring? 5 = some ringOwed ∧ ringOwed.owed = [owed0, owed1] ∧ owed0.ready = true ∧ owed0.bytes ≠ [] ∧
      sOwed.dev.canIssue ringOwed.fn = true ∧ ringOwed.ats = false ∧ sOwed.dev.postedOf ringOwed.fn = []) ∧
    (sOwed1.dev.phase = Phase.running ∧ sOwed1.dev.ring? 5 = some ringOwed1 ∧ ringOwed1.owed = [owed1] ∧ owed1.ready = false) := by decide +kernel

theorem meets_SnapshotsAndLogs_rings :
    (sUp.dev.phase = Phase.running ∧ sUp.dev.on R.QMG_CTX_STATUS_busy = false ∧ 4194303 < 2 ^ 22) ∧
    (sSnapR.dev.phase = Phase.running ∧ sSnapR.dev.ctxSnap = some (4096, 5)) ∧
    (sSnapN.dev.phase = Phase.running ∧ sSnapN.dev.ctxSnap = some (4112, 5)) := by decide +kernel

theorem meets_SnapshotsAndLogs_logs :
    (sFails.dev.phase = Phase.running ∧ sFails.dev.ringErrors = [7]) ∧
    (sUp.dev.phase = Phase.running ∧ sUp.dev.ringErrors = []) ∧
    (sFails.dev.phase = Phase.running ∧ sFails.dev.failures = [fail0]) ∧
    (sUp.dev.phase = Phase.running ∧ sUp.dev.failures = []) := by decide +kernel

theorem meets_SnapshotsAndLogs_contexts :
    (sUp.dev.phase = Phase.running ∧ sUp.dev.on R.CRY_CTX_STATUS_busy = false ∧ 16777215 < 2 ^ 24) ∧
    (sCtx.dev.phase = Phase.running ∧ sCtx.dev.crySnap = some (4096, 9)) ∧
    (sCtxN.dev.phase = Phase.running ∧ sCtxN.dev.crySnap = some (4096, 9)) := by decide +kernel

theorem meets_TransmitDescriptors :
    ((sAcc dOpen).dev.phase = Phase.running ∧ (sAcc dOpen).dev.ring? 5 = some (ringAcc dOpen) ∧ (ringAcc dOpen).kind = 0 ∧
      (ringAcc dOpen).accepted = [dOpen] ∧ (Instr.txDescriptorPlain 5 = Instr.txDescriptorPlain 5 ∧
      ((ringAcc dOpen).txFields (ringAcc dOpen).frame.isEmpty dOpen).opcode = 0 ∨ Instr.txDescriptorPlain 5 = Instr.txDescriptorOffload 5 ∧
      ((ringAcc dOpen).txFields (ringAcc dOpen).frame.isEmpty dOpen).opcode = 1) ∧
      (ringAcc dOpen).txBad (ringAcc dOpen).frame.length ((ringAcc dOpen).txFields (ringAcc dOpen).frame.isEmpty dOpen) = false ∧
      ((ringAcc dOpen).txFields (ringAcc dOpen).frame.isEmpty dOpen).eop = false) ∧
    ((sAcc dWhole).dev.phase = Phase.running ∧ (sAcc dWhole).dev.ring? 5 = some (ringAcc dWhole) ∧ (ringAcc dWhole).kind = 0 ∧
      (ringAcc dWhole).accepted = [dWhole] ∧ (Instr.txDescriptorPlain 5 = Instr.txDescriptorPlain 5 ∧
      ((ringAcc dWhole).txFields (ringAcc dWhole).frame.isEmpty dWhole).opcode = 0 ∨ Instr.txDescriptorPlain 5 = Instr.txDescriptorOffload 5 ∧
      ((ringAcc dWhole).txFields (ringAcc dWhole).frame.isEmpty dWhole).opcode = 1) ∧
      (ringAcc dWhole).txBad (ringAcc dWhole).frame.length ((ringAcc dWhole).txFields (ringAcc dWhole).frame.isEmpty dWhole) = false ∧
      ((ringAcc dWhole).txFields (ringAcc dWhole).frame.isEmpty dWhole).eop = true) ∧
    ((sAcc dOff).dev.phase = Phase.running ∧ (sAcc dOff).dev.ring? 5 = some (ringAcc dOff) ∧ (ringAcc dOff).kind = 0 ∧
      (ringAcc dOff).accepted = [dOff] ∧ (Instr.txDescriptorOffload 5 = Instr.txDescriptorPlain 5 ∧
      ((ringAcc dOff).txFields (ringAcc dOff).frame.isEmpty dOff).opcode = 0 ∨ Instr.txDescriptorOffload 5 = Instr.txDescriptorOffload 5 ∧
      ((ringAcc dOff).txFields (ringAcc dOff).frame.isEmpty dOff).opcode = 1) ∧
      (ringAcc dOff).txBad (ringAcc dOff).frame.length ((ringAcc dOff).txFields (ringAcc dOff).frame.isEmpty dOff) = false ∧
      ((ringAcc dOff).txFields (ringAcc dOff).frame.isEmpty dOff).eop = true) ∧
    ((sAcc dNoop).dev.phase = Phase.running ∧ (sAcc dNoop).dev.ring? 5 = some (ringAcc dNoop) ∧ (ringAcc dNoop).kind = 0 ∧
      (ringAcc dNoop).accepted = [dNoop] ∧ ((ringAcc dNoop).txFields (ringAcc dNoop).frame.isEmpty dNoop).opcode = 2 ∧
      (ringAcc dNoop).txBad (ringAcc dNoop).frame.length ((ringAcc dNoop).txFields (ringAcc dNoop).frame.isEmpty dNoop) = false) ∧
    ((sAcc dBad).dev.phase = Phase.running ∧ (sAcc dBad).dev.ring? 5 = some (ringAcc dBad) ∧ (ringAcc dBad).kind = 0 ∧
      (ringAcc dBad).accepted = [dBad] ∧ ((ringAcc dBad).txFields (ringAcc dBad).frame.isEmpty dBad).opcode = 0 ∧
      (ringAcc dBad).txBad (ringAcc dBad).frame.length ((ringAcc dBad).txFields (ringAcc dBad).frame.isEmpty dBad) = true) :=
  ⟨by decide +kernel,
   by decide +kernel,
   by decide +kernel,
   by decide +kernel,
   by decide +kernel⟩

theorem meets_DispatchAndRetirement_dispatch :
    (sQueued.dev.phase = Phase.running ∧ sQueued.dev.item? 3 = some itemQ ∧ itemQ.stage = Stage.queued ∧ sQueued.dev.figureOf itemQ = some 1 ∧
      (sQueued.dev.queueOf 1 (itemQ.kind == 1)).head? = some 3 ∧ sQueued.dev.pickPosition 1 itemQ = some 8 ∧
      (itemQ.kind = 1 ∨ itemQ.order ≠ 0 ∨ itemQ.restored = true ∨ sQueued.dev.savedFor 1 = false)) ∧
    (sJam.dev.phase = Phase.running ∧ sJam.dev.item? 512 = some itemQ ∧ itemQ.stage = Stage.queued ∧ sJam.dev.figureOf itemQ = some 1 ∧
      (sJam.dev.queueOf 1 (itemQ.kind == 1)).head? = some 512 ∧ sJam.dev.pickPosition 1 itemQ = none) ∧
    (sSaved.dev.phase = Phase.running ∧ sSaved.dev.item? 3 = some itemQ ∧ itemQ.stage = Stage.queued ∧ sSaved.dev.figureOf itemQ = some 1 ∧
      (sSaved.dev.queueOf 1 (itemQ.kind == 1)).head? = some 3 ∧ itemQ.kind ≠ 1 ∧ itemQ.order = 0 ∧ itemQ.restored = false ∧
      sSaved.dev.savedFor 1 = true) := by decide +kernel

theorem meets_DispatchAndRetirement_retirement :
    (sRet2.dev.phase = Phase.running ∧ sRet2.dev.item? 3 = some itemF ∧ itemF.stage = Stage.retiring ∧ sRet2.dev.linkOf itemF.fn < 17 ∧
      sRet2.dev.nextInOrder 3 itemF = false) ∧
    (sOld.dev.phase = Phase.running ∧ sOld.dev.item? 3 = some itemOld ∧ itemOld.stage = Stage.retiring ∧ sOld.dev.linkOf itemOld.fn < 17 ∧
      sOld.dev.nextInOrder 3 itemOld = true ∧ sOld.dev.stale itemOld = true ∧ itemOld.failedIn = false) ∧
    (sRet.dev.phase = Phase.running ∧ sRet.dev.item? 3 = some itemF ∧ itemF.stage = Stage.retiring ∧ sRet.dev.linkOf itemF.fn < 17 ∧
      sRet.dev.nextInOrder 3 itemF = true ∧ sRet.dev.stale itemF = false ∧ itemF.espOf = none ∧ itemF.tlsOf = none ∧ itemF.kind = 0 ∧
      itemF.nvme = none ∧ sRet.dev.ring? itemF.source = some ringT ∧ sRet.dev.cplOpen itemF.source = true ∧
      (itemF.failed.isSome = true ∨ itemF.status ≠ 0)) := by decide +kernel

end Queues

/-! ## Reception, delivery and takeovers -/

namespace Frames

def le (v n : Nat) : List Byte := (List.range n).map fun k => BitVec.ofNat 8 (v / 256 ^ k)
def ringT : Ring := { state := .enabled, producer := 60, slotProducer := 60, fetchPos := 60, cplPos := 60, cqHead := 60 }
def ringR : Ring := { ringT with kind := 1, rxHoldKib := 64 }
def withRing (r : Nat) (g : Ring) (d : Dev) : Dev :=
  { d with rings := { entries := [(r, g)] }, groups := { entries := [(1, { fn := 0, page := 2, slots := { entries := [(3, r)] } })] } }
def withItem (i : Nat) (it : Item) (d : Dev) : Dev := { d with items := { entries := [(i, it)] }, nextItem := i + 1 }
def port0 (d : Dev) : Dev := (((withRing 5 ringR d).wr R.MAC_INST_STATE_up 1).wr R.PPL_PORT_EXC_exception_valid 1).wr R.PPL_PORT_EXC_exception_ring 5
def sPort : State := up port0
def frame (n : Nat) : Frame := List.replicate 12 0xAA ++ [0x08, 0x06] ++ List.replicate (n - 14) 0
def frame59 := frame 59
def frame60 := frame 60
def frameMax := frame 1515

def frameBig : Frame := frame 9213
def frameTop : Frame := frame 9212
def itemX : Item := { kind := 1, bytes := frame60 }
def sFifo : State := up fun d => { port0 d with macs := { entries := [(0, { rx := [itemX] })] } }
def sFifoDry : State := up fun d => { port0 d with macs := { entries := [(0, { rx := [itemX] })] }, credits := 249 }
def buf : Desc := { seq := 60, bytes := le 0x2000 8 ++ le 256 4 ++ le 0 20 }
def itemW : Item := { kind := 1, bytes := frame60, stage := .waiting, dest := some (.ring 5), heldAt := some 5, held := 60, status := 0 }
def itemS : Item := { kind := 3, source := 6, bytes := frame60, stage := .waiting, dest := some (.ring 5), heldAt := some 5, held := 60, descs := [{seq := 60, bytes := le 0x1000 8 ++ le (60 + 2 ^ 24 * 3) 4 ++ le 0 20}] }
def ringW : Ring := { ringR with waiting := [3], buffers := [buf], heldBytes := 60 }
def ringW0 : Ring := { ringW with buffers := [] }
def sWait : State := up fun d => withItem 3 itemW (withRing 5 ringW d)
def sWait0 : State := up fun d => withItem 3 itemW (withRing 5 ringW0 d)
def sSw : State := up fun d => { withItem 3 itemS (withRing 5 ringW0 d) with rings := { entries := [(5, ringW0), (6, ringT)] } }
def sUp : State := up
def sNoRes : State := up fun d => { d with setPos := { entries := [(32, { site := 32, phase := .out }), (33, { site := 33, phase := .out })] } }
def itemL : Item := { kind := 1, bytes := frame60, stage := .delivered, position := 31, figure := 3, order := 1, replays := 1, dest := some (.ring 5) }
def sHeldItem : State := up fun d => withItem 3 itemL (withRing 5 ringR d)
def sRep : State := up fun d => { d with replays := [{ position := 4, items := [7] }] }.wr R.LGR_STATUS_replay_active 1
def sJam : State := up fun d => { d with
  setPos := { entries := (List.range 7).map fun k => (9 + k, { site := 9 + k, phase := .out }) }
  items := { entries := (List.range 512).map (fun k => (k, { stage := .delivered, position := 8 })) } }
def sNoCry : State := up fun d => { d with cryPos := { entries := [(46, { site := 46, phase := .out }), (47, { site := 47, phase := .out })] } }
def ip0 : Ip := { v4 := true, src := [1,2,3,4], dst := [5,6,7,8], proto := 50, off := 14, offL4 := 34, endL4 := 60 }

def cfg0 : List Byte × List Byte := ([2, 0, 0, 0] ++ List.replicate 252 0, List.replicate 64 0)
def itemE (p : Nat) : Item := { kind := 1, bytes := frame60, stage := .crypto, parse := { ip := some ip0 }, sa := 9, cryPosition := p, jobCtx := some cfg0 }
def sEsp : State := up fun d => { d with items := { entries := [(2, itemE 1), (3, itemE 0)] } }
def sEsp2 : State := up fun d => { d with items := { entries := [(2, itemE 0), (3, itemE 45)] } }

theorem meets_ReceptionAndDelivery_mac :
    (sPort.dev.phase = Phase.running ∧ sPort.dev.macUp 0 = true) ∧
    (sPort.dev.phase = Phase.running ∧ sPort.dev.macUp 0 = true ∧ beAt frame59 12 2 ≠ 34824 ∧ List.length frame59 < 60) ∧
    (sPort.dev.phase = Phase.running ∧ sPort.dev.macUp 0 = true ∧ beAt frameBig 12 2 ≠ 34824 ∧ 60 ≤ List.length frameBig ∧
      sPort.dev.rd R.MAC_INST_CFG_max_frame 0 (16 * 0) < List.length frameBig + 4) ∧
    (sPort.dev.phase = Phase.running ∧ sPort.dev.macUp 0 = true ∧ beAt frame60 12 2 ≠ 34824 ∧ 60 ≤ List.length frame60 ∧
      List.length frame60 + 4 ≤ sPort.dev.rd R.MAC_INST_CFG_max_frame 0 (16 * 0) ∧ sPort.dev.on R.CRY_MACSEC_RX_rx_enable 0 (8 * 0) = false ∧
      (parse sPort.dev.parseCfg frame60).truncated = false ∧ sPort.dev.cryStage 0 = [] ∧
      sPort.dev.portVnid 0 (sPort.dev.portParse 0 frame60) frame60 = some 0 ∧ (sPort.dev.plainItem 0 frame60 0).parse.tunnel = 0 ∧
      (sPort.dev.plainItem 0 frame60 0).parse.roce = false ∧ sPort.dev.tcpConn 0 (sPort.dev.plainItem 0 frame60 0).parse = none ∧
      (sPort.dev.plainItem 0 frame60 0).parse.l4 ≠ 4 ∧
      (Dev.classified (sPort.dev.plainItem 0 frame60 0) sPort.dev).2.mustWait (Dev.classified (sPort.dev.plainItem 0 frame60 0) sPort.dev).1 = false
      ∧ (Dev.classified (sPort.dev.plainItem 0 frame60 0) sPort.dev).2.boot.shutdown = false ∧
      (Dev.classified (sPort.dev.plainItem 0 frame60 0) sPort.dev).2.refusal (Dev.classified (sPort.dev.plainItem 0 frame60 0) sPort.dev).1 = none) ∧
    (sPort.dev.phase = Phase.running ∧ sPort.dev.macUp 0 = true ∧ beAt frameTop 12 2 ≠ 34824 ∧ 60 ≤ List.length frameTop ∧
      List.length frameTop + 4 ≤ sPort.dev.rd R.MAC_INST_CFG_max_frame 0 (16 * 0) ∧ sPort.dev.on R.CRY_MACSEC_RX_rx_enable 0 (8 * 0) = false ∧
      (parse sPort.dev.parseCfg frameTop).truncated = false ∧ sPort.dev.cryStage 0 = [] ∧
      sPort.dev.portVnid 0 (sPort.dev.portParse 0 frameTop) frameTop = some 0 ∧ (sPort.dev.plainItem 0 frameTop 0).parse.tunnel = 0 ∧
      (sPort.dev.plainItem 0 frameTop 0).parse.roce = false ∧ sPort.dev.tcpConn 0 (sPort.dev.plainItem 0 frameTop 0).parse = none ∧
      (sPort.dev.plainItem 0 frameTop 0).parse.l4 ≠ 4 ∧
      (Dev.classified (sPort.dev.plainItem 0 frameTop 0) sPort.dev).2.mustWait (Dev.classified (sPort.dev.plainItem 0 frameTop 0) sPort.dev).1 =
      false ∧ (Dev.classified (sPort.dev.plainItem 0 frameTop 0) sPort.dev).2.boot.shutdown = false ∧
      (Dev.classified (sPort.dev.plainItem 0 frameTop 0) sPort.dev).2.refusal (Dev.classified (sPort.dev.plainItem 0 frameTop 0) sPort.dev).1 = none) := by decide +kernel

theorem meets_ReceptionAndDelivery_fifo :
    (sFifo.dev.phase = Phase.running ∧ (sFifo.dev.mac 0).rx = [itemX] ∧ itemX.parse.tc = 0 ∧ itemX.source = 0 ∧ sFifo.dev.boot.shutdown = false) ∧
    (sFifoDry.dev.phase = Phase.running ∧ (sFifoDry.dev.mac 0).rx = [itemX] ∧ itemX.parse.tc = 0 ∧ itemX.source = 0 ∧
      sFifoDry.dev.boot.shutdown = false) := by decide +kernel

theorem meets_ReceptionAndDelivery_waiting :
    (sWait.dev.phase = Phase.running ∧ sWait.dev.item? 3 = some itemW ∧ sWait.dev.itemRing itemW = some 5 ∧ sWait.dev.ring? 5 = some ringW ∧
      ringW.kind = 1 ∧ itemW.stage = Stage.waiting ∧ ringW.waiting = [3] ∧ itemW.kind = 1 ∧ sWait.dev.nextInOrder 3 itemW = true ∧
      sWait.dev.mayFill 5 [sWait.dev.rxNeeds itemW] = true) ∧
    (sWait0.dev.phase = Phase.running ∧ sWait0.dev.item? 3 = some itemW ∧ sWait0.dev.itemRing itemW = some 5 ∧ sWait0.dev.ring? 5 = some ringW0 ∧
      ringW0.kind = 1 ∧ itemW.stage = Stage.waiting ∧ ringW0.waiting = [3] ∧ itemW.kind = 1 ∧
      (sWait0.dev.nextInOrder 3 itemW = false ∨ sWait0.dev.mayFill 5 [sWait0.dev.rxNeeds itemW] = false)) ∧
    (sSw.dev.phase = Phase.running ∧ sSw.dev.item? 3 = some itemS ∧ sSw.dev.itemRing itemS = some 5 ∧ sSw.dev.ring? 5 = some ringW0 ∧
      ringW0.kind = 1 ∧ itemS.stage = Stage.waiting ∧ itemS.kind = 3 ∧ itemS.source ≠ 5 ∧ sSw.dev.cplOpen itemS.source = true) := by decide +kernel

theorem meets_Takeovers_sets :
    (sUp.dev.phase = Phase.running ∧ (1 = 1 ∨ 1 = 9) ∧ 0 < 32 ∧ sUp.dev.hasSet 0 = true ∧ (sUp.dev.setAt 0).phase = PosPhase.inService ∧
      sUp.dev.chans = { } ∧ sUp.dev.items = { } ∧ sUp.dev.fitReserve = some 32) ∧
    (sUp.dev.phase = Phase.running ∧ (9 = 1 ∨ 9 = 9) ∧ 31 < 32 ∧ sUp.dev.hasSet 31 = true ∧ (sUp.dev.setAt 31).phase = PosPhase.inService ∧
      sUp.dev.chans = { } ∧ sUp.dev.items = { } ∧ sUp.dev.fitReserve = some 32) ∧
    (sNoRes.dev.phase = Phase.running ∧ (9 = 1 ∨ 9 = 9) ∧ 31 < 32 ∧ sNoRes.dev.hasSet 31 = true ∧ (sNoRes.dev.setAt 31).phase = PosPhase.inService ∧
      sNoRes.dev.chans = { } ∧ sNoRes.dev.items = { } ∧ sNoRes.dev.fitReserve = none) ∧
    (sHeldItem.dev.phase = Phase.running ∧ (9 = 1 ∨ 9 = 9) ∧ 31 < 32 ∧ sHeldItem.dev.hasSet 31 = true ∧
      (sHeldItem.dev.setAt 31).phase = PosPhase.inService ∧ sHeldItem.dev.chans = { } ∧ sHeldItem.dev.fitReserve = some 32 ∧
      sHeldItem.dev.items = { entries := [(3, itemL)] } ∧ itemL.inLedger = true ∧ itemL.position = 31 ∧ itemL.kind = 1 ∧ itemL.conn = none ∧
      itemL.replays < 2) := by decide +kernel

theorem meets_Takeovers_replay :
    sRep.dev.phase = Phase.running ∧ sRep.dev.replays = [{ position := 4, items := [7] }] ∧ sRep.dev.items = { } ∧ sRep.dev.jobs = { } ∧
      sRep.dev.power.sitOutWaits = false := by decide +kernel

theorem meets_Takeovers_full :
    (sJam.dev.phase = Phase.running ∧ sJam.dev.figurePositions 1 ≠ [] ∧ (∀ p ∈ sJam.dev.figurePositions 1, 512 ≤ sJam.dev.occupancy p)) ∧
    (sUp.dev.phase = Phase.running ∧ 7 ∈ sUp.dev.figurePositions 0 ∧ sUp.dev.occupancy 7 < 512) := by decide +kernel

theorem meets_Takeovers_crypto :
    (sUp.dev.phase = Phase.running ∧ 45 < 46 ∧ sUp.dev.hasCry 45 = true ∧ (sUp.dev.cryAt 45).phase = PosPhase.inService ∧ sUp.dev.fitCry = some 46) ∧
    (sNoCry.dev.phase = Phase.running ∧ 45 < 46 ∧ sNoCry.dev.hasCry 45 = true ∧ (sNoCry.dev.cryAt 45).phase = PosPhase.inService ∧
      sNoCry.dev.fitCry = none) := by decide +kernel

theorem meets_EspJobs :
    (sEsp.dev.phase = Phase.running ∧ 2 < 3 ∧ sEsp.dev.items = { entries := [(2, itemE 1), (3, itemE 0)] } ∧ (itemE 0).stage = Stage.crypto ∧
      (itemE 1).stage = Stage.crypto ∧ (itemE 0).source = (itemE 1).source ∧ (itemE 0).job = 0 ∧ (itemE 1).job = 0 ∧ (itemE 0).cryPosition = 0 ∧
      (itemE 1).cryPosition = 1 ∧ 0 < 46 ∧ 1 < 46 ∧ 0 ≠ 1 ∧ sEsp.dev.hasCry 0 = true ∧ sEsp.dev.hasCry 1 = true ∧
      (sEsp.dev.cryAt 0).phase = PosPhase.inService ∧ (sEsp.dev.cryAt 1).phase = PosPhase.inService ∧ (itemE 0).parse.ip = some ip0 ∧
      (itemE 0).jobCtx = some cfg0 ∧ (itemE 1).jobCtx.isSome = true) ∧
    (sEsp2.dev.phase = Phase.running ∧ 2 < 3 ∧ sEsp2.dev.items = { entries := [(2, itemE 0), (3, itemE 45)] } ∧ (itemE 45).stage = Stage.crypto ∧
      (itemE 0).stage = Stage.crypto ∧ (itemE 45).source = (itemE 0).source ∧ (itemE 45).job = 0 ∧ (itemE 0).job = 0 ∧ (itemE 45).cryPosition = 45 ∧
      (itemE 0).cryPosition = 0 ∧ 45 < 46 ∧ 0 < 46 ∧ 45 ≠ 0 ∧ sEsp2.dev.hasCry 45 = true ∧ sEsp2.dev.hasCry 0 = true ∧
      (sEsp2.dev.cryAt 45).phase = PosPhase.inService ∧ (sEsp2.dev.cryAt 0).phase = PosPhase.inService ∧ (itemE 45).parse.ip = some ip0 ∧
      (itemE 45).jobCtx = some cfg0 ∧ (itemE 0).jobCtx.isSome = true) := by decide +kernel

end Frames

/-! ## Arithmetic, control flow and waits of microcode -/

namespace Flow

/-- A microword with its check byte (R264). -/
def checked (w : Microword) : Microword :=
  let v := w ||| BitVec.ofNat 128 (checkLow w * 2 ^ 120)
  v ||| BitVec.ofNat 128 (if (syndrome v).2 then 2 ^ 127 else 0)
def mw (cls fn ext : Nat) (next : Nat := 0) (imm : Nat := 0) (cond : Nat := 0) (yield inv : Bool := false) : Microword :=
  checked <| BitVec.ofNat 128 (next * 2 ^ 116 + yield.toNat * 2 ^ 115 + cond * 2 ^ 105 + inv.toNat * 2 ^ 104 + imm * 2 ^ 64 + cls * 2 ^ 59 + fn * 2 ^ 54 + 3 * 2 ^ 50 + 1 * 2 ^ 46 + 2 * 2 ^ 42 + ext)
def th0 : Thread := { state := .ready, item := some 3, pc := 16383, regs := [0, 0xFFFFFFFFFFFFFFFF, 1, 5] ++ List.replicate 12 0 }
def itemM : Item := { kind := 1, stage := .running, bytes := List.replicate 64 9, position := 0 }
def coreOf (w : Microword) (th : Thread := th0) (it : Item := itemM) (p : Nat := 0) (site : SetSite := {}) : State :=
  up fun d => { d with items := { entries := [(3, it)] }, nextItem := 4, sites := { entries := [(p, { site with store := { entries := [(th.pc, w)] }, threads := { entries := [(4, th)] } })] } }
def s10 := coreOf (mw 1 0 0)
def s11 := coreOf (mw 1 1 0)
def s12 := coreOf (mw 1 2 0)
def s13 := coreOf (mw 1 3 0)
def s14 := coreOf (mw 1 4 0)
def s15 := coreOf (mw 1 5 0)
def s16 := coreOf (mw 1 6 0)
def s17 := coreOf (mw 1 7 0) { th0 with carry := true }
def s20 := coreOf (mw 2 0 63)
def s21 := coreOf (mw 2 1 0)
def s22 := coreOf (mw 2 2 1)
def s23 := coreOf (mw 2 3 (60 + 64 * 63))
def s24 := coreOf (mw 2 4 (4 + 64 * 8))
def n0 := coreOf (mw 0 0 0 0) (p := 33)
def n1 := coreOf (mw 0 0 0 1 16383)
def n2 := coreOf (mw 0 0 0 2 100) -- condition 0
def n3 := coreOf (mw 0 0 0 3 100) { th0 with stack := List.replicate 7 1 }
def n4 := coreOf (mw 0 0 0 4 100)
def n4i := coreOf (mw 0 0 0 4 100 (inv := true))
def n5 := coreOf (mw 0 0 0 5) { th0 with stack := [8] }
def n6 := coreOf (mw 0 0 0 6 0) { th0 with stack := [8] }
def n6i := coreOf (mw 0 0 0 6 0 (inv := true)) { th0 with stack := [8] }
def n8 := coreOf (mw 0 0 0 8 (16 * 5) 8)
def n3f := coreOf (mw 0 0 0 3 100) { th0 with stack := List.replicate 8 1 }
def n5f := coreOf (mw 0 0 0 5)
def n10 := coreOf (mw 0 0 0 10)
def itemI : Item := { itemM with stage := .delivered, verdict := { entry := 16384 } }
def pIn : State := up fun d => { d with items := { entries := [(3, itemI)] }, sites := { entries := [(0, { input := [3] })] } }.setDomain 0 true
def pEnd := coreOf (mw 0 0 0 9)
def w1 := coreOf (mw 0 0 0 7 0 0x10 (yield := true)) th0 itemM 0 { flags := 1 }
def w2 := coreOf (mw 0 0 0 7 (63 * 65536) 0x21 (yield := true))
def w3 := coreOf (mw 0 0 0 7 (63 * 65536) 0x20 (yield := true)) th0 itemM 0 { channels := { entries := [(63, { closed := [5, 6], nextMsg := 7, fifo := [⟨5, 1, true⟩, ⟨6, 1, true⟩] })] } }
def w4 := coreOf (mw 0 0 0 7 0 0x45)
def w5 := coreOf (mw 0 0 0 7 0 0x20 (yield := true))
def w6 := coreOf (mw 0 0 0 7 0 0 (inv := true) (yield := true)) |> fun s => { s with dev := s.dev.wr R.SET_WAIT_LIMIT_0_limit 7 0 }
def wx : Wait := { cond := 0x20, invert := false, channel := 63, limit := 1, began := 0, yield := true }
def w7 := coreOf (mw 0 0 0 7 (63 * 65536) 0x20 (yield := true)) { th0 with state := .waiting, wait := some wx }
def f0 := coreOf (mw 7 0 7) { th0 with uf := 128 }
def f1 := coreOf (mw 7 1 0) { th0 with uf := 255 }
def f2 := coreOf (mw 7 0 31)
def itemC : Item := { itemM with commits := List.replicate 7 (.counter 1 1) }
def c0 := coreOf (mw 8 0 0) th0 itemC
def c1 := coreOf (mw 8 1 0) th0 itemC
def c2 := coreOf (mw 8 2 0) th0 itemC

def itemC8 : Item := { itemM with commits := List.replicate 8 (.counter 1 1) }
def e0 := coreOf (mw 8 0 0) th0 itemC8
def e1 := coreOf (mw 8 1 0) th0 itemC8
def e2 := coreOf (mw 8 2 0) th0 itemC8
def pOpen := coreOf (mw 0 0 0 9) { th0 with sendChan := some 3 } itemM 0 { channels := { entries := [(3, { open_ := some 4 })] } }
def sNop := coreOf (mw 0 0 0 0 0)
def rdyTh : Thread := th0
def engine (c : Caller) (l : List Nat) : State :=
  coreOf (mw 0 0 0 0) th0 itemM 0 {} |> fun s => { s with dev := { s.dev with sites := { entries := [(0, { store := { entries := [(16383, mw 0 0 0 0)] }, callers := { entries := [(0, c)] }, threads := { entries := l.map fun k => (k, th0) } })] } } }
def q1 := engine {} [4, 5]
def cMid : Caller := { granted := 5, claimed := [1, 1, 1, 1, 1, 1, 1, 1], floor2 := 0x30, priority := 3, last := 4, lastPrio := 1 }
def q2 := engine cMid [0, 1, 4, 5]
def cPrio : Caller := { cMid with claimed := List.replicate 8 2 }
def q3 := engine cPrio [0, 1, 4, 5]
def q4 := engine cPrio [4, 5]
def q5 := engine cPrio []
def q6 := engine { cPrio with granted := 16 } [0, 1, 4, 5]

theorem meets_ArithmeticAndShifts_arithmetic :
    (s10.dev.phase = Phase.running ∧ s10.dev.atData 0 4 1 0) ∧
    (s11.dev.phase = Phase.running ∧ s11.dev.atData 0 4 1 1) ∧
    (s12.dev.phase = Phase.running ∧ s12.dev.atData 0 4 1 2) ∧
    (s13.dev.phase = Phase.running ∧ s13.dev.atData 0 4 1 3) ∧
    (s14.dev.phase = Phase.running ∧ s14.dev.atData 0 4 1 4) ∧
    (s15.dev.phase = Phase.running ∧ s15.dev.atData 0 4 1 5) ∧
    (s16.dev.phase = Phase.running ∧ s16.dev.atData 0 4 1 6) ∧
    (s17.dev.phase = Phase.running ∧ s17.dev.atData 0 4 1 7) :=
  ⟨⟨by decide +kernel, by unfold Dev.atData Dev.atWord; decide +kernel⟩,
   ⟨by decide +kernel, by unfold Dev.atData Dev.atWord; decide +kernel⟩,
   ⟨by decide +kernel, by unfold Dev.atData Dev.atWord; decide +kernel⟩,
   ⟨by decide +kernel, by unfold Dev.atData Dev.atWord; decide +kernel⟩,
   ⟨by decide +kernel, by unfold Dev.atData Dev.atWord; decide +kernel⟩,
   ⟨by decide +kernel, by unfold Dev.atData Dev.atWord; decide +kernel⟩,
   ⟨by decide +kernel, by unfold Dev.atData Dev.atWord; decide +kernel⟩,
   ⟨by decide +kernel, by unfold Dev.atData Dev.atWord; decide +kernel⟩⟩

theorem meets_ArithmeticAndShifts_shifts :
    (s20.dev.phase = Phase.running ∧ s20.dev.atData 0 4 2 0) ∧
    (s21.dev.phase = Phase.running ∧ s21.dev.atData 0 4 2 1) ∧
    (s22.dev.phase = Phase.running ∧ s22.dev.atData 0 4 2 2) ∧
    (s23.dev.phase = Phase.running ∧ s23.dev.atData 0 4 2 3) ∧
    (s24.dev.phase = Phase.running ∧ s24.dev.atData 0 4 2 4) :=
  ⟨⟨by decide +kernel, by unfold Dev.atData Dev.atWord; decide +kernel⟩,
   ⟨by decide +kernel, by unfold Dev.atData Dev.atWord; decide +kernel⟩,
   ⟨by decide +kernel, by unfold Dev.atData Dev.atWord; decide +kernel⟩,
   ⟨by decide +kernel, by unfold Dev.atData Dev.atWord; decide +kernel⟩,
   ⟨by decide +kernel, by unfold Dev.atData Dev.atWord; decide +kernel⟩⟩

theorem meets_ControlFlow_next :
    (n0.dev.phase = Phase.running ∧ 33 < 34 ∧ n0.dev.atNext 33 4 0) ∧
    (n1.dev.phase = Phase.running ∧ 0 < 34 ∧ n1.dev.atNext 0 4 1) ∧
    (n2.dev.phase = Phase.running ∧ 0 < 34 ∧ n2.dev.atNext 0 4 2) ∧
    (n3.dev.phase = Phase.running ∧ 0 < 34 ∧ (n3.dev.thread 0 4).stack.length < 8 ∧ n3.dev.atNext 0 4 3) ∧
    (n4.dev.phase = Phase.running ∧ 0 < 34 ∧ (n4.dev.thread 0 4).stack.length < 8 ∧ n4.dev.atNext 0 4 4) ∧
    (n4i.dev.phase = Phase.running ∧ 0 < 34 ∧ (n4i.dev.thread 0 4).stack.length < 8 ∧ n4i.dev.atNext 0 4 4) ∧
    (n5.dev.phase = Phase.running ∧ 0 < 34 ∧ (n5.dev.thread 0 4).stack = [8] ∧ n5.dev.atNext 0 4 5) ∧
    (n6.dev.phase = Phase.running ∧ 0 < 34 ∧ (n6.dev.thread 0 4).stack = [8] ∧ n6.dev.atNext 0 4 6) ∧
    (n6i.dev.phase = Phase.running ∧ 0 < 34 ∧ (n6i.dev.thread 0 4).stack = [8] ∧ n6i.dev.atNext 0 4 6) ∧
    (n8.dev.phase = Phase.running ∧ 0 < 34 ∧ n8.dev.atNext 0 4 8) ∧
    (n3f.dev.phase = Phase.running ∧ 0 < 34 ∧ 8 ≤ (n3f.dev.thread 0 4).stack.length ∧ (n3f.dev.thread 0 4).item = some 3 ∧
      n3f.dev.item? 3 = some itemM ∧ itemM.failed = none ∧ itemM.stage = Stage.running ∧ n3f.dev.atNext 0 4 3) ∧
    (n5f.dev.phase = Phase.running ∧ 0 < 34 ∧ (n5f.dev.thread 0 4).stack = [] ∧ (n5f.dev.thread 0 4).item = some 3 ∧ n5f.dev.item? 3 = some itemM ∧
      itemM.failed = none ∧ itemM.stage = Stage.running ∧ n5f.dev.atNext 0 4 5) ∧
    (n10.dev.phase = Phase.running ∧ 0 < 34 ∧ (n10.dev.thread 0 4).item = some 3 ∧ n10.dev.item? 3 = some itemM ∧ itemM.failed = none ∧
      itemM.stage = Stage.running ∧ n10.dev.atNext 0 4 10) :=
  ⟨⟨by decide +kernel, by decide +kernel, by unfold Dev.atNext Dev.atWord; decide +kernel⟩,
   ⟨by decide +kernel, by decide +kernel, by unfold Dev.atNext Dev.atWord; decide +kernel⟩,
   ⟨by decide +kernel, by decide +kernel, by unfold Dev.atNext Dev.atWord; decide +kernel⟩,
   ⟨by decide +kernel, by decide +kernel, by decide +kernel, by unfold Dev.atNext Dev.atWord; decide +kernel⟩,
   ⟨by decide +kernel, by decide +kernel, by decide +kernel, by unfold Dev.atNext Dev.atWord; decide +kernel⟩,
   ⟨by decide +kernel, by decide +kernel, by decide +kernel, by unfold Dev.atNext Dev.atWord; decide +kernel⟩,
   ⟨by decide +kernel, by decide +kernel, by decide +kernel, by unfold Dev.atNext Dev.atWord; decide +kernel⟩,
   ⟨by decide +kernel, by decide +kernel, by decide +kernel, by unfold Dev.atNext Dev.atWord; decide +kernel⟩,
   ⟨by decide +kernel, by decide +kernel, by decide +kernel, by unfold Dev.atNext Dev.atWord; decide +kernel⟩,
   ⟨by decide +kernel, by decide +kernel, by unfold Dev.atNext Dev.atWord; decide +kernel⟩,
   ⟨by decide +kernel, by decide +kernel, by decide +kernel, by decide +kernel, by decide +kernel, by decide +kernel, by decide +kernel, by unfold Dev.atNext Dev.atWord; decide +kernel⟩,
   ⟨by decide +kernel, by decide +kernel, by decide +kernel, by decide +kernel, by decide +kernel, by decide +kernel, by decide +kernel, by unfold Dev.atNext Dev.atWord; decide +kernel⟩,
   ⟨by decide +kernel, by decide +kernel, by decide +kernel, by decide +kernel, by decide +kernel, by decide +kernel, by unfold Dev.atNext Dev.atWord; decide +kernel⟩⟩

theorem meets_ControlFlow_pass :
    (pIn.dev.phase = Phase.running ∧ pIn.dev.item? 3 = some itemI ∧ (pIn.dev.siteAt 0).input = [3] ∧
      (pIn.dev.thread 0 127).state = ThreadState.idle ∧ 127 < 128 ∧ pIn.dev.setRuns 0 = true) ∧
    (pEnd.dev.phase = Phase.running ∧ pEnd.dev.item? 3 = some itemM ∧ 0 < 34 ∧ (pEnd.dev.thread 0 4).item = some 3 ∧
      (pEnd.dev.thread 0 4).sendChan = none ∧ (pEnd.dev.thread 0 4).readChan = none ∧ pEnd.dev.atNext 0 4 9) ∧
    (pOpen.dev.phase = Phase.running ∧ pOpen.dev.item? 3 = some itemM ∧ 0 < 34 ∧ (pOpen.dev.thread 0 4).item = some 3 ∧ itemM.failed = none ∧
      itemM.stage = Stage.running ∧ ((pOpen.dev.thread 0 4).sendChan.isSome = true ∨ (pOpen.dev.thread 0 4).readChan.isSome = true) ∧
      pOpen.dev.atNext 0 4 9) :=
  ⟨by decide +kernel,
   ⟨by decide +kernel, by decide +kernel, by decide +kernel, by decide +kernel, by decide +kernel, by decide +kernel, by unfold Dev.atNext Dev.atWord; decide +kernel⟩,
   ⟨by decide +kernel, by decide +kernel, by decide +kernel, by decide +kernel, by decide +kernel, by decide +kernel, by decide +kernel, by unfold Dev.atNext Dev.atWord; decide +kernel⟩⟩

theorem meets_WaitsAndCommits_wait :
    (w1.dev.phase = Phase.running ∧ 0 < 34 ∧ (¬(mwInvert (w1.dev.word 0 4) = false ∧
      (mwCond (w1.dev.word 0 4) = 32 ∨ mwCond (w1.dev.word 0 4) = 33))) ∧ mwCond (w1.dev.word 0 4) ≠ 0 ∧
      w1.dev.condTest 0 (w1.dev.thread 0 4) (w1.dev.word 0 4) = true ∧ w1.dev.atNext 0 4 7) ∧
    (w2.dev.phase = Phase.running ∧ 0 < 34 ∧ mwInvert (w2.dev.word 0 4) = false ∧ mwCond (w2.dev.word 0 4) = 33 ∧
      ((w2.dev.setChan 0 (mwChannel (w2.dev.word 0 4))).open_ = none ∧ (w2.dev.setChan 0 (mwChannel (w2.dev.word 0 4))).delivery = [] ∧
      (w2.dev.thread 0 4).delivering = none ∧ (w2.dev.thread 0 4).sendChan = none) ∧ w2.dev.atNext 0 4 7) ∧
    (w3.dev.phase = Phase.running ∧ 0 < 34 ∧ mwInvert (w3.dev.word 0 4) = false ∧ mwCond (w3.dev.word 0 4) = 32 ∧
      (w3.dev.thread 0 4).readChan = none ∧ (w3.dev.setChan 0 (mwChannel (w3.dev.word 0 4))).closed = [5, 6] ∧ w3.dev.atNext 0 4 7) ∧
    (w4.dev.phase = Phase.running ∧ 0 < 34 ∧ (¬(mwInvert (w4.dev.word 0 4) = false ∧
      (mwCond (w4.dev.word 0 4) = 32 ∨ mwCond (w4.dev.word 0 4) = 33)) ∧
      w4.dev.condTest 0 (w4.dev.thread 0 4) (w4.dev.word 0 4) = false ∨ mwCond (w4.dev.word 0 4) = 0 ∨ mwInvert (w4.dev.word 0 4) = false ∧
      mwCond (w4.dev.word 0 4) = 33 ∧ ¬((w4.dev.setChan 0 (mwChannel (w4.dev.word 0 4))).open_ = none ∧
      (w4.dev.setChan 0 (mwChannel (w4.dev.word 0 4))).delivery = [] ∧ (w4.dev.thread 0 4).delivering = none ∧
      (w4.dev.thread 0 4).sendChan = none) ∨ mwInvert (w4.dev.word 0 4) = false ∧ mwCond (w4.dev.word 0 4) = 32 ∧
      (w4.dev.thread 0 4).readChan = none ∧ (w4.dev.setChan 0 (mwChannel (w4.dev.word 0 4))).closed = []) ∧ w4.dev.atNext 0 4 7) ∧
    (w5.dev.phase = Phase.running ∧ 0 < 34 ∧ (¬(mwInvert (w5.dev.word 0 4) = false ∧
      (mwCond (w5.dev.word 0 4) = 32 ∨ mwCond (w5.dev.word 0 4) = 33)) ∧
      w5.dev.condTest 0 (w5.dev.thread 0 4) (w5.dev.word 0 4) = false ∨ mwCond (w5.dev.word 0 4) = 0 ∨ mwInvert (w5.dev.word 0 4) = false ∧
      mwCond (w5.dev.word 0 4) = 33 ∧ ¬((w5.dev.setChan 0 (mwChannel (w5.dev.word 0 4))).open_ = none ∧
      (w5.dev.setChan 0 (mwChannel (w5.dev.word 0 4))).delivery = [] ∧ (w5.dev.thread 0 4).delivering = none ∧
      (w5.dev.thread 0 4).sendChan = none) ∨ mwInvert (w5.dev.word 0 4) = false ∧ mwCond (w5.dev.word 0 4) = 32 ∧
      (w5.dev.thread 0 4).readChan = none ∧ (w5.dev.setChan 0 (mwChannel (w5.dev.word 0 4))).closed = []) ∧ w5.dev.atNext 0 4 7) ∧
    (w6.dev.phase = Phase.running ∧ 0 < 34 ∧ (¬(mwInvert (w6.dev.word 0 4) = false ∧
      (mwCond (w6.dev.word 0 4) = 32 ∨ mwCond (w6.dev.word 0 4) = 33)) ∧
      w6.dev.condTest 0 (w6.dev.thread 0 4) (w6.dev.word 0 4) = false ∨ mwCond (w6.dev.word 0 4) = 0 ∨ mwInvert (w6.dev.word 0 4) = false ∧
      mwCond (w6.dev.word 0 4) = 33 ∧ ¬((w6.dev.setChan 0 (mwChannel (w6.dev.word 0 4))).open_ = none ∧
      (w6.dev.setChan 0 (mwChannel (w6.dev.word 0 4))).delivery = [] ∧ (w6.dev.thread 0 4).delivering = none ∧
      (w6.dev.thread 0 4).sendChan = none) ∨ mwInvert (w6.dev.word 0 4) = false ∧ mwCond (w6.dev.word 0 4) = 32 ∧
      (w6.dev.thread 0 4).readChan = none ∧ (w6.dev.setChan 0 (mwChannel (w6.dev.word 0 4))).closed = []) ∧ w6.dev.atNext 0 4 7) ∧
    (w7.dev.phase = Phase.running ∧ 0 < 34 ∧ (w7.dev.thread 0 4).wait = some wx ∧ (w7.dev.thread 0 4).state = ThreadState.waiting ∧
      (w7.dev.thread 0 4).kill = false ∧ wx.limit ≠ 0 ∧ w7.dev.waitDone 0 (w7.dev.thread 0 4) wx = false ∧ w7.dev.waiters 0 = [4]) ∧
    (w7.dev.phase = Phase.running ∧ 0 < 34 ∧ (w7.dev.thread 0 4).wait = some wx ∧ (w7.dev.thread 0 4).state = ThreadState.waiting ∧
      (w7.dev.thread 0 4).kill = false ∧ wx.limit ≠ 0 ∧ w7.dev.waitDone 0 (w7.dev.thread 0 4) wx = false ∧ w7.dev.waiters 0 = [4] ∧
      w7.dev.atStandstill 0 = true) :=
  ⟨⟨by decide +kernel, by decide +kernel, by decide +kernel, by decide +kernel, by decide +kernel, by unfold Dev.atNext Dev.atWord; decide +kernel⟩,
   ⟨by decide +kernel, by decide +kernel, by decide +kernel, by decide +kernel, by decide +kernel, by unfold Dev.atNext Dev.atWord; decide +kernel⟩,
   ⟨by decide +kernel, by decide +kernel, by decide +kernel, by decide +kernel, by decide +kernel, by decide +kernel, by unfold Dev.atNext Dev.atWord; decide +kernel⟩,
   ⟨by decide +kernel, by decide +kernel, by decide +kernel, by unfold Dev.atNext Dev.atWord; decide +kernel⟩,
   ⟨by decide +kernel, by decide +kernel, by decide +kernel, by unfold Dev.atNext Dev.atWord; decide +kernel⟩,
   ⟨by decide +kernel, by decide +kernel, by decide +kernel, by unfold Dev.atNext Dev.atWord; decide +kernel⟩,
   by decide +kernel,
   by decide +kernel⟩

theorem meets_WaitsAndCommits_flags :
    (f0.dev.phase = Phase.running ∧ mwExt (f0.dev.word 0 4) % 32 < 8 ∧ f0.dev.atData 0 4 7 0) ∧
    (f1.dev.phase = Phase.running ∧ mwExt (f1.dev.word 0 4) % 32 < 8 ∧ f1.dev.atData 0 4 7 1) ∧
    (f2.dev.phase = Phase.running ∧ 16 ≤ mwExt (f2.dev.word 0 4) % 32 ∧ f2.dev.atData 0 4 7 0) ∧
    (c0.dev.phase = Phase.running ∧ (c0.dev.thread 0 4).item = some 3 ∧ c0.dev.item? 3 = some itemC ∧ itemC.commits.length < 8 ∧
      c0.dev.atData 0 4 8 0) ∧
    (c1.dev.phase = Phase.running ∧ (c1.dev.thread 0 4).item = some 3 ∧ c1.dev.item? 3 = some itemC ∧ itemC.commits.length < 8 ∧
      c1.dev.atData 0 4 8 1) ∧
    (c2.dev.phase = Phase.running ∧ (c2.dev.thread 0 4).item = some 3 ∧ c2.dev.item? 3 = some itemC ∧ itemC.commits.length < 8 ∧
      c2.dev.atData 0 4 8 2) :=
  ⟨⟨by decide +kernel, by decide +kernel, by unfold Dev.atData Dev.atWord; decide +kernel⟩,
   ⟨by decide +kernel, by decide +kernel, by unfold Dev.atData Dev.atWord; decide +kernel⟩,
   ⟨by decide +kernel, by decide +kernel, by unfold Dev.atData Dev.atWord; decide +kernel⟩,
   ⟨by decide +kernel, by decide +kernel, by decide +kernel, by decide +kernel, by unfold Dev.atData Dev.atWord; decide +kernel⟩,
   ⟨by decide +kernel, by decide +kernel, by decide +kernel, by decide +kernel, by unfold Dev.atData Dev.atWord; decide +kernel⟩,
   ⟨by decide +kernel, by decide +kernel, by decide +kernel, by decide +kernel, by unfold Dev.atData Dev.atWord; decide +kernel⟩⟩

theorem meets_WaitsAndCommits_commits :
    (e0.dev.phase = Phase.running ∧ 0 < 34 ∧ (e0.dev.thread 0 4).item = some 3 ∧ e0.dev.item? 3 = some itemC8 ∧ 8 ≤ itemC8.commits.length ∧
      itemC8.failed = none ∧ itemC8.stage = Stage.running ∧ e0.dev.atData 0 4 8 0) ∧
    (e1.dev.phase = Phase.running ∧ 0 < 34 ∧ (e1.dev.thread 0 4).item = some 3 ∧ e1.dev.item? 3 = some itemC8 ∧ 8 ≤ itemC8.commits.length ∧
      itemC8.failed = none ∧ itemC8.stage = Stage.running ∧ e1.dev.atData 0 4 8 1) ∧
    (e2.dev.phase = Phase.running ∧ 0 < 34 ∧ (e2.dev.thread 0 4).item = some 3 ∧ e2.dev.item? 3 = some itemC8 ∧ 8 ≤ itemC8.commits.length ∧
      itemC8.failed = none ∧ itemC8.stage = Stage.running ∧ e2.dev.atData 0 4 8 2) :=
  ⟨⟨by decide +kernel, by decide +kernel, by decide +kernel, by decide +kernel, by decide +kernel, by decide +kernel, by decide +kernel, by unfold Dev.atData Dev.atWord; decide +kernel⟩,
   ⟨by decide +kernel, by decide +kernel, by decide +kernel, by decide +kernel, by decide +kernel, by decide +kernel, by decide +kernel, by unfold Dev.atData Dev.atWord; decide +kernel⟩,
   ⟨by decide +kernel, by decide +kernel, by decide +kernel, by decide +kernel, by decide +kernel, by decide +kernel, by decide +kernel, by unfold Dev.atData Dev.atWord; decide +kernel⟩⟩

theorem meets_TheCaller :
    (q2.dev.phase = Phase.running ∧ 0 < 34 ∧ 4 < 128 ∧ q2.dev.named 0 4 = false ∧ (q2.dev.thread 0 4).issuedData = false ∧
      Instr.aluAdd ∈ [Instr.seq, Instr.jump, Instr.branch, Instr.call, Instr.callIf, Instr.popReturn, Instr.popReturnIf, Instr.wait, Instr.table,
      Instr.passEnd, Instr.trap, Instr.aluAdd, Instr.aluSub, Instr.shiftLeft, Instr.load8b, Instr.store8b, Instr.readHead, Instr.classify,
      Instr.channelWrite, Instr.channelRead, Instr.flagSet]) ∧
    (q2.dev.phase = Phase.running ∧ 0 < 34 ∧ 4 < 128 ∧ 4 < 8 ∧ ((fun k => q2.dev.readyIn 0 (4 / 8) k = true ∧
      (q2.dev.caller 0 (4 / 8)).claimed.getD k 0 < (fun k => if hasBit (q2.dev.caller 0 (4 / 8)).floor2 k = true then 2 else 1) k) 4)) ∧
    (q3.dev.phase = Phase.running ∧ 0 < 34 ∧ 4 < 128 ∧ (∀ k < 8, ¬(fun k => q3.dev.readyIn 0 (4 / 8) k = true ∧
      (q3.dev.caller 0 (4 / 8)).claimed.getD k 0 < (fun k => if hasBit (q3.dev.caller 0 (4 / 8)).floor2 k = true then 2 else 1) k) k) ∧ 0 < 8 ∧
      ((fun k => q3.dev.readyIn 0 (4 / 8) k = true ∧ hasBit (q3.dev.caller 0 (4 / 8)).priority k = true) 0)) ∧
    (q3.dev.phase = Phase.running ∧ 0 < 34 ∧ 4 < 128 ∧ (∀ k < 8, ¬(fun k => q3.dev.readyIn 0 (4 / 8) k = true ∧
      (q3.dev.caller 0 (4 / 8)).claimed.getD k 0 < (fun k => if hasBit (q3.dev.caller 0 (4 / 8)).floor2 k = true then 2 else 1) k) k) ∧ 1 < 8 ∧
      ((fun k => q3.dev.readyIn 0 (4 / 8) k = true ∧ hasBit (q3.dev.caller 0 (4 / 8)).priority k = true) 1)) ∧
    (q3.dev.phase = Phase.running ∧ 0 < 34 ∧ 4 < 128 ∧ (∀ k < 8, ¬(fun k => q3.dev.readyIn 0 (4 / 8) k = true ∧
      (q3.dev.caller 0 (4 / 8)).claimed.getD k 0 < (fun k => if hasBit (q3.dev.caller 0 (4 / 8)).floor2 k = true then 2 else 1) k) k) ∧ 1 < 8 ∧
      ((fun k => q3.dev.readyIn 0 (4 / 8) k = true ∧ hasBit (q3.dev.caller 0 (4 / 8)).priority k = true) 1) ∧ 0 < 8 ∧ 1 ≠ 0 ∧
      ((fun k => q3.dev.readyIn 0 (4 / 8) k = true ∧ hasBit (q3.dev.caller 0 (4 / 8)).priority k = true) 0) ∧
      (∀ x < 8, (fun k => q3.dev.readyIn 0 (4 / 8) k = true ∧ hasBit (q3.dev.caller 0 (4 / 8)).priority k = true) x → x = 1 ∨ x = 0) ∧
      (q3.dev.caller 0 (4 / 8)).lastPrio = 1) ∧
    (q4.dev.phase = Phase.running ∧ 0 < 34 ∧ 4 < 128 ∧ (∀ k < 8, ¬(fun k => q4.dev.readyIn 0 (4 / 8) k = true ∧
      (q4.dev.caller 0 (4 / 8)).claimed.getD k 0 < (fun k => if hasBit (q4.dev.caller 0 (4 / 8)).floor2 k = true then 2 else 1) k) k ∧
      ¬(fun k => q4.dev.readyIn 0 (4 / 8) k = true ∧ hasBit (q4.dev.caller 0 (4 / 8)).priority k = true) k) ∧ 5 < 8 ∧
      q4.dev.readyIn 0 (4 / 8) 5 = true) ∧
    (q5.dev.phase = Phase.running ∧ 0 < 34 ∧ 4 < 128 ∧ (∀ k < 8, q5.dev.readyIn 0 (4 / 8) k = false)) ∧
    (q2.dev.phase = Phase.running ∧ 0 < 34 ∧ 4 < 128 ∧ ((q2.dev.siteAt 0).callers.getD (4 / 8) { }).granted < 16) ∧
    (q6.dev.phase = Phase.running ∧ 0 < 34 ∧ 4 < 128 ∧ 16 ≤ ((q6.dev.siteAt 0).callers.getD (4 / 8) { }).granted) ∧
    (q2.dev.phase = Phase.running ∧ 0 < 34 ∧ 5 < 128 ∧ (q2.dev.thread 0 5).issuedData = false ∧ q2.dev.atNext 0 5 0) :=
  ⟨⟨by decide +kernel, by decide +kernel, by decide +kernel, by decide +kernel, by decide +kernel, by simp⟩,
   by decide +kernel,
   by decide +kernel,
   by decide +kernel,
   by decide +kernel,
   by decide +kernel,
   by decide +kernel,
   by decide +kernel,
   by decide +kernel,
   ⟨by decide +kernel, by decide +kernel, by decide +kernel, by decide +kernel, by unfold Dev.atNext Dev.atWord; decide +kernel⟩⟩

end Flow

/-! ## Local memory, items, assists and channels of microcode -/

namespace Items

def l0 := coreOf (mw 3 0 0) { th0 with regs := [0, 0x1BFFFF, 1, 5] ++ List.replicate 12 0 }
def l1 := coreOf (mw 3 1 (0x1BFFFF)) { th0 with regs := [0, 0, 1, 5] ++ List.replicate 12 0 }
def l2 := coreOf (mw 3 2 0)
def l3 := coreOf (mw 3 3 0)
def i0 := coreOf (mw 4 0 0)
def i1 := coreOf (mw 4 1 0)
def i2 := coreOf (mw 4 2 0)
def i3 := coreOf (mw 4 3 0)
def i4 := coreOf (mw 4 4 0)
def txDesc (len flags op : Nat) : Desc := { seq := 59, bytes := le 0x1000 8 ++ le (len + 2 ^ 24 * flags) 4 ++ le op 4 ++ le 0 16 }
def itemT : Item := { source := 5, descs := [txDesc 64 3 0], stage := .running, position := 0, bytes := List.replicate 64 9, fn := 0 }
def noMaster (d : Dev) : Dev := { d with funcs := { entries := [(0, { fn0 with busMaster := false })] } }
def p0 := coreOf (mw 5 0 0) th0 itemT 0 {} (fun d => withRing 5 ringT (noMaster d))
def p1 := coreOf (mw 5 0 0) th0 itemT 0 {} (withRing 5 ringT)
def p2 := coreOf (mw 5 0 0)
def p3 := coreOf (mw 5 1 0) th0 itemT 0 {} (withRing 5 ringT)
def k0 := coreOf (mw 5 3 0) th0 itemM 0 {} (fun d => putAt 0 entry0 true 3 (tab 0 1 10 10 d))
def k1 := coreOf (mw 5 3 0) th0 itemM 0 {} (fun d => tab 3 2 4 13 d)
def k2 := coreOf (mw 5 3 0) th0 itemM 0 {} (fun d => { d with mtb := { d.mtb with prefixes := [{ vrf := 5, ipv6 := false, length := 8, addr := [10, 0, 0, 0], result := 1 }, { vrf := 5, ipv6 := false, length := 31, addr := [10, 0, 0, 2], result := 7 }] } })
def k3 := coreOf (mw 5 3 0) th0 itemM 0 {} (fun d => { d with mtb := { d.mtb with ternary := { entries := [(4, (List.replicate 64 0, List.replicate 64 0, [9, 9]))] } } })
def entryHit1 : MtbEntry := { entry0 with table := 0 }
def cs := coreOf (mw 5 4 0)
def hs := coreOf (mw 5 5 0) th0 itemT
def hs1 := coreOf (mw 5 5 0)
def hr := coreOf (mw 5 6 0)
def sdT := coreOf (mw 5 7 0) th0 itemT 0 {} (withRing 6 ringR)
def sdR := coreOf (mw 5 7 0) th0 itemM 0 {} (withRing 6 ringR)
def itemHp : Item := { itemM with verdict := { hairpin := true } }
def sdH := coreOf (mw 5 7 0) th0 itemHp
def drT := coreOf (mw 5 8 0) th0 itemT
def drR := coreOf (mw 5 8 0)
def lo := coreOf (mw 5 9 0)
def itemLn : Item := { itemM with verdict := { learn := true } }
def lo1 := coreOf (mw 5 9 0) th0 itemLn
def off0 : LearnOffer := { vnid := 1, mac := 2, source := 0, fromFunction := false }
def lo2 := coreOf (mw 5 9 0) th0 itemLn 0 {} (fun d => { d with mtb := { d.mtb with offers := { entries := [(0, List.replicate 1024 off0)] } } })
def lo3 := coreOf (mw 5 9 0) th0 itemLn 0 {} (fun d => { d with mtb := { d.mtb with offers := { entries := [(0, List.replicate 1023 off0)] } } })
def offer1 : Offer := { vnid := 1, mac := 2 }
def dm := coreOf (mw 5 10 0)
def itemV : Item := { itemT with fn := 16, bytes := List.replicate 64 9 }
def clV := coreOf (mw 5 2 0) th0 itemV 0 {} (fun d => { withRing 5 { ringT with fn := 16 } d with funcs := { entries := [(0, { fn0 with vfEnable := true, numVfs := 1 }), (16, { fn0 with sourceCheck := true })] } })
def clT := coreOf (mw 5 2 0) th0 itemT 0 {} (withRing 5 ringT)
def thS : Thread := { th0 with sendChan := some 63, stage := [1, 2, 3, 4, 5, 6, 7] }
def chS : SetSite := { channels := { entries := [(63, { open_ := some 4 })] } }
def h0 := coreOf (mw 6 0 0) thS itemM 0 chS
def h1 := coreOf (mw 6 1 0) thS itemM 0 chS
def h3 := coreOf (mw 6 3 0) thS itemM 0 chS
def word1 : ChanWord := { msg := 7, word := 99, last := true }
def h2 := coreOf (mw 6 2 0) { th0 with readChan := some (63, 7) } itemM 0 { channels := { entries := [(63, { fifo := [word1, { word1 with msg := 8 }] })] } }
def laterWords1 : List ChanWord := [{ word1 with msg := 8 }]
def h4 := coreOf (mw 6 2 0) { th0 with delivering := some 63 } itemM 0 { channels := { entries := [(63, { fifo := [word1], delivery := List.replicate 5 { word1 with last := false, msg := 9 } })] } }
def h5 := coreOf (mw 6 0 0)
def h6 := coreOf (mw 6 0 0) { thS with stage := List.replicate 8 1 } itemM 0 chS
def as0 : Assist := { kind := 3, dst := 2, answer := 77, writes := true }
def an := coreOf (mw 0 0 0) { th0 with assists := [as0, { as0 with dst := 4 }] }
def otherAnswers1 : List Assist := [{ as0 with dst := 4 }]
def snd := coreOf (mw 5 11 (1024 * 64))

theorem meets_LocalMemoryAndItems_LocalMemory :
    (l0.dev.phase = Phase.running ∧ mwAddress (l0.dev.word 0 4) (l0.dev.thread 0 4) < 1835008 ∧ l0.dev.atData 0 4 3 0) ∧
    (l1.dev.phase = Phase.running ∧ mwAddress (l1.dev.word 0 4) (l1.dev.thread 0 4) < 1835008 ∧ l1.dev.atData 0 4 3 1) ∧
    (l2.dev.phase = Phase.running ∧ mwAddress (l2.dev.word 0 4) (l2.dev.thread 0 4) < 1835008 ∧ l2.dev.atData 0 4 3 2) ∧
    (l3.dev.phase = Phase.running ∧ mwAddress (l3.dev.word 0 4) (l3.dev.thread 0 4) < 1835008 ∧ l3.dev.atData 0 4 3 3) :=
  ⟨⟨by decide +kernel, by decide +kernel, by unfold Dev.atData Dev.atWord; decide +kernel⟩,
   ⟨by decide +kernel, by decide +kernel, by unfold Dev.atData Dev.atWord; decide +kernel⟩,
   ⟨by decide +kernel, by decide +kernel, by unfold Dev.atData Dev.atWord; decide +kernel⟩,
   ⟨by decide +kernel, by decide +kernel, by unfold Dev.atData Dev.atWord; decide +kernel⟩⟩

theorem meets_LocalMemoryAndItems_ItemReads :
    (i0.dev.phase = Phase.running ∧ (i0.dev.thread 0 4).item = some 3 ∧ i0.dev.item? 3 = some itemM ∧ i0.dev.atData 0 4 4 0) ∧
    (i1.dev.phase = Phase.running ∧ (i1.dev.thread 0 4).item = some 3 ∧ i1.dev.item? 3 = some itemM ∧ i1.dev.atData 0 4 4 1) ∧
    (i2.dev.phase = Phase.running ∧ (i2.dev.thread 0 4).item = some 3 ∧ i2.dev.item? 3 = some itemM ∧ i2.dev.atData 0 4 4 2) ∧
    (i3.dev.phase = Phase.running ∧ (i3.dev.thread 0 4).item = some 3 ∧ i3.dev.item? 3 = some itemM ∧ i3.dev.atData 0 4 4 3) ∧
    (i4.dev.phase = Phase.running ∧ (i4.dev.thread 0 4).item = some 3 ∧ i4.dev.item? 3 = some itemM ∧ i4.dev.atData 0 4 4 4) :=
  ⟨⟨by decide +kernel, by decide +kernel, by decide +kernel, by unfold Dev.atData Dev.atWord; decide +kernel⟩,
   ⟨by decide +kernel, by decide +kernel, by decide +kernel, by unfold Dev.atData Dev.atWord; decide +kernel⟩,
   ⟨by decide +kernel, by decide +kernel, by decide +kernel, by unfold Dev.atData Dev.atWord; decide +kernel⟩,
   ⟨by decide +kernel, by decide +kernel, by decide +kernel, by unfold Dev.atData Dev.atWord; decide +kernel⟩,
   ⟨by decide +kernel, by decide +kernel, by decide +kernel, by unfold Dev.atData Dev.atWord; decide +kernel⟩⟩

theorem meets_Assists_payload :
    (p0.dev.phase = Phase.running ∧ (p0.dev.thread 0 4).item = some 3 ∧ p0.dev.item? 3 = some itemT ∧ itemT.kind ≠ 1 ∧ itemT.nvme = none ∧
      itemT.readIssued = false ∧ (p0.dev.fn itemT.fn).gen = itemT.gen ∧ p0.dev.canIssue itemT.fn = false ∧ p0.dev.atData 0 4 5 0) ∧
    (p1.dev.phase = Phase.running ∧ (p1.dev.thread 0 4).item = some 3 ∧ p1.dev.item? 3 = some itemT ∧ itemT.kind ≠ 1 ∧ itemT.nvme = none ∧
      itemT.readIssued = false ∧ (p1.dev.fn itemT.fn).gen = itemT.gen ∧ p1.dev.canIssue itemT.fn = true ∧ p1.dev.atData 0 4 5 0) ∧
    (p2.dev.phase = Phase.running ∧ (p2.dev.thread 0 4).item = some 3 ∧ p2.dev.item? 3 = some itemM ∧ itemM.kind = 1 ∧ itemM.position = 0 ∧ 0 < 34 ∧
      p2.dev.atData 0 4 5 0) :=
  ⟨⟨by decide +kernel, by decide +kernel, by decide +kernel, by decide +kernel, by decide +kernel, by decide +kernel, by decide +kernel, by decide +kernel, by unfold Dev.atData Dev.atWord; decide +kernel⟩,
   ⟨by decide +kernel, by decide +kernel, by decide +kernel, by decide +kernel, by decide +kernel, by decide +kernel, by decide +kernel, by decide +kernel, by unfold Dev.atData Dev.atWord; decide +kernel⟩,
   ⟨by decide +kernel, by decide +kernel, by decide +kernel, by decide +kernel, by decide +kernel, by decide +kernel, by unfold Dev.atData Dev.atWord; decide +kernel⟩⟩

theorem meets_Assists_parse :
    p3.dev.phase = Phase.running ∧ (p3.dev.thread 0 4).item = some 3 ∧ p3.dev.item? 3 = some itemT ∧ itemT.isTx = true ∧ p3.dev.atData 0 4 5 1 := ⟨by decide +kernel, by decide +kernel, by decide +kernel, by decide +kernel, by unfold Dev.atData Dev.atWord; decide +kernel⟩

theorem meets_Assists_lookup :
    (k0.dev.phase = Phase.running ∧ (k0.dev.thread 0 4).item = some 3 ∧ k0.dev.item? 3 = some itemM ∧ 0 < 16 ∧ k0.dev.tabKind 0 ≠ 2 ∧
      (Dev.lookup 0 itemM.figure key0 (Dev.issued 0 4 k0.dev)).1 = some entryHit1 ∧ k0.dev.atData 0 4 5 3) ∧
    (k1.dev.phase = Phase.running ∧ (k1.dev.thread 0 4).item = some 3 ∧ k1.dev.item? 3 = some itemM ∧ 3 < 16 ∧ k1.dev.tabKind 3 = 2 ∧
      leAt [255, 31, 0, 0] 0 4 < k1.dev.tabSize 3 ∧ k1.dev.atData 0 4 5 3) ∧
    (k2.dev.phase = Phase.running ∧ (k2.dev.thread 0 4).item = some 3 ∧ k2.dev.item? 3 = some itemM ∧ 16 = 16 ∧
      k2.dev.longestPrefix (byteAt [21, 10, 0, 0, 3] 0 % 16) (List.drop 1 [21, 10, 0, 0, 3]) = some 7 ∧ k2.dev.atData 0 4 5 3) ∧
    (k3.dev.phase = Phase.running ∧ (k3.dev.thread 0 4).item = some 3 ∧ k3.dev.item? 3 = some itemM ∧ 17 = 17 ∧
      k3.dev.ternaryHit (List.replicate 64 5) = some [9, 9] ∧ k3.dev.atData 0 4 5 3) ∧
    (k0.dev.phase = Phase.running ∧ (k0.dev.thread 0 4).item = some 3 ∧ k0.dev.item? 3 = some itemM ∧
      (Dev.assistLookup 0 itemM.figure [1] (Dev.issued 0 4 k0.dev)).1 = none ∧ k0.dev.atData 0 4 5 3) :=
  ⟨⟨by decide +kernel, by decide +kernel, by decide +kernel, by decide +kernel, by decide +kernel, by decide +kernel, by unfold Dev.atData Dev.atWord; decide +kernel⟩,
   ⟨by decide +kernel, by decide +kernel, by decide +kernel, by decide +kernel, by decide +kernel, by decide +kernel, by unfold Dev.atData Dev.atWord; decide +kernel⟩,
   ⟨by decide +kernel, by decide +kernel, by decide +kernel, by decide +kernel, by decide +kernel, by unfold Dev.atData Dev.atWord; decide +kernel⟩,
   ⟨by decide +kernel, by decide +kernel, by decide +kernel, by decide +kernel, by decide +kernel, by unfold Dev.atData Dev.atWord; decide +kernel⟩,
   ⟨by decide +kernel, by decide +kernel, by decide +kernel, by decide +kernel, by unfold Dev.atData Dev.atWord; decide +kernel⟩⟩

theorem meets_Assists_checksum :
    cs.dev.phase = Phase.running ∧ (cs.dev.thread 0 4).item = some 3 ∧ cs.dev.item? 3 = some itemM ∧ cs.dev.atData 0 4 5 4 := ⟨by decide +kernel, by decide +kernel, by decide +kernel, by unfold Dev.atData Dev.atWord; decide +kernel⟩

theorem meets_Assists_hash :
    (hs.dev.phase = Phase.running ∧ (hs.dev.thread 0 4).item = some 3 ∧ hs.dev.item? 3 = some itemT ∧ hs.dev.atData 0 4 5 5) ∧
    (hs1.dev.phase = Phase.running ∧ (hs1.dev.thread 0 4).item = some 3 ∧ hs1.dev.item? 3 = some itemM ∧ hs1.dev.atData 0 4 5 5) :=
  ⟨⟨by decide +kernel, by decide +kernel, by decide +kernel, by unfold Dev.atData Dev.atWord; decide +kernel⟩,
   ⟨by decide +kernel, by decide +kernel, by decide +kernel, by unfold Dev.atData Dev.atWord; decide +kernel⟩⟩

theorem meets_Assists_edit :
    hr.dev.phase = Phase.running ∧ (hr.dev.thread 0 4).item = some 3 ∧ hr.dev.item? 3 = some itemM ∧ hr.dev.atData 0 4 5 6 := ⟨by decide +kernel, by decide +kernel, by decide +kernel, by unfold Dev.atData Dev.atWord; decide +kernel⟩

theorem meets_Assists_destination :
    (sdT.dev.phase = Phase.running ∧ (sdT.dev.thread 0 4).item = some 3 ∧ sdT.dev.item? 3 = some itemT ∧ itemT.conn = none ∧ itemT.isTx = true ∧
      255 < 256 ∧ sdT.dev.atData 0 4 5 7) ∧
    (sdT.dev.phase = Phase.running ∧ (sdT.dev.thread 0 4).item = some 3 ∧ sdT.dev.item? 3 = some itemT ∧ itemT.conn = none ∧ itemT.isTx = true ∧
      sdT.dev.isRxRing 6 = true ∧ sdT.dev.atData 0 4 5 7) ∧
    (sdR.dev.phase = Phase.running ∧ (sdR.dev.thread 0 4).item = some 3 ∧ sdR.dev.item? 3 = some itemM ∧ itemM.conn = none ∧ itemM.kind = 1 ∧
      sdR.dev.ring? 6 = some ringR ∧ ringR.kind = 1 ∧ sdR.dev.atData 0 4 5 7) ∧
    (sdH.dev.phase = Phase.running ∧ (sdH.dev.thread 0 4).item = some 3 ∧ sdH.dev.item? 3 = some itemHp ∧ itemHp.conn = none ∧ itemHp.kind = 1 ∧
      255 < 256 ∧ itemHp.verdict.hairpin = true ∧ sdH.dev.atData 0 4 5 7) ∧
    (sdR.dev.phase = Phase.running ∧ (sdR.dev.thread 0 4).item = some 3 ∧ sdR.dev.item? 3 = some itemM ∧ itemM.conn = none ∧ itemM.kind = 1 ∧
      itemM.verdict.hairpin = false ∧ sdR.dev.atData 0 4 5 7) :=
  ⟨⟨by decide +kernel, by decide +kernel, by decide +kernel, by decide +kernel, by decide +kernel, by decide +kernel, by unfold Dev.atData Dev.atWord; decide +kernel⟩,
   ⟨by decide +kernel, by decide +kernel, by decide +kernel, by decide +kernel, by decide +kernel, by decide +kernel, by unfold Dev.atData Dev.atWord; decide +kernel⟩,
   ⟨by decide +kernel, by decide +kernel, by decide +kernel, by decide +kernel, by decide +kernel, by decide +kernel, by decide +kernel, by unfold Dev.atData Dev.atWord; decide +kernel⟩,
   ⟨by decide +kernel, by decide +kernel, by decide +kernel, by decide +kernel, by decide +kernel, by decide +kernel, by decide +kernel, by unfold Dev.atData Dev.atWord; decide +kernel⟩,
   ⟨by decide +kernel, by decide +kernel, by decide +kernel, by decide +kernel, by decide +kernel, by decide +kernel, by unfold Dev.atData Dev.atWord; decide +kernel⟩⟩

theorem meets_Assists_drop :
    (drT.dev.phase = Phase.running ∧ (drT.dev.thread 0 4).item = some 3 ∧ drT.dev.item? 3 = some itemT ∧ itemT.kind ≠ 1 ∧ drT.dev.atData 0 4 5 8) ∧
    (drR.dev.phase = Phase.running ∧ (drR.dev.thread 0 4).item = some 3 ∧ drR.dev.item? 3 = some itemM ∧ itemM.kind = 1 ∧ 0 < 34 ∧
      itemM.failed = none ∧ itemM.stage = Stage.running ∧ drR.dev.atData 0 4 5 8) :=
  ⟨⟨by decide +kernel, by decide +kernel, by decide +kernel, by decide +kernel, by unfold Dev.atData Dev.atWord; decide +kernel⟩,
   ⟨by decide +kernel, by decide +kernel, by decide +kernel, by decide +kernel, by decide +kernel, by decide +kernel, by decide +kernel, by unfold Dev.atData Dev.atWord; decide +kernel⟩⟩

theorem meets_Assists_learn :
    (lo.dev.phase = Phase.running ∧ (lo.dev.thread 0 4).item = some 3 ∧ lo.dev.item? 3 = some itemM ∧ itemM.verdict.learn = false ∧
      lo.dev.atData 0 4 5 9) ∧
    (lo1.dev.phase = Phase.running ∧ (lo1.dev.thread 0 4).item = some 3 ∧ lo1.dev.item? 3 = some itemLn ∧ itemLn.verdict.learn = true ∧
      (lo1.dev.mtb.offers.getD itemLn.figure []).length < 1024 ∧ lo1.dev.atData 0 4 5 9) ∧
    (lo3.dev.phase = Phase.running ∧ (lo3.dev.thread 0 4).item = some 3 ∧ lo3.dev.item? 3 = some itemLn ∧ itemLn.verdict.learn = true ∧
      (lo3.dev.mtb.offers.getD itemLn.figure []).length < 1024 ∧ lo3.dev.atData 0 4 5 9) ∧
    (lo2.dev.phase = Phase.running ∧ (lo2.dev.thread 0 4).item = some 3 ∧ lo2.dev.item? 3 = some itemLn ∧ itemLn.verdict.learn = true ∧
      1024 ≤ (lo2.dev.mtb.offers.getD itemLn.figure []).length ∧ lo2.dev.atData 0 4 5 9) :=
  ⟨⟨by decide +kernel, by decide +kernel, by decide +kernel, by decide +kernel, by unfold Dev.atData Dev.atWord; decide +kernel⟩,
   ⟨by decide +kernel, by decide +kernel, by decide +kernel, by decide +kernel, by decide +kernel, by unfold Dev.atData Dev.atWord; decide +kernel⟩,
   ⟨by decide +kernel, by decide +kernel, by decide +kernel, by decide +kernel, by decide +kernel, by unfold Dev.atData Dev.atWord; decide +kernel⟩,
   ⟨by decide +kernel, by decide +kernel, by decide +kernel, by decide +kernel, by decide +kernel, by unfold Dev.atData Dev.atWord; decide +kernel⟩⟩

theorem meets_Assists_dma :
    dm.dev.phase = Phase.running ∧ (dm.dev.thread 0 4).item = some 3 ∧ dm.dev.item? 3 = some itemM ∧ dm.dev.atData 0 4 5 10 := ⟨by decide +kernel, by decide +kernel, by decide +kernel, by unfold Dev.atData Dev.atWord; decide +kernel⟩

theorem meets_Assists_classify :
    (clV.dev.phase = Phase.running ∧ (clV.dev.thread 0 4).item = some 3 ∧ clV.dev.item? 3 = some itemV ∧ itemV.kind = 0 ∧
      ((Dev.sourceOk itemV (clV.dev.txVid { itemV with parse := { (parse clV.dev.parseCfg itemV.bytes) with source := itemV.source, fromRing := true
      } }) ((Dev.issued 0 4 clV.dev).onThread 0 4 fun th => th.asked 2 (mwDst (clV.dev.word 0 4)) 0 false)).1 = false) ∧ clV.dev.atData 0 4 5 2) ∧
    (clT.dev.phase = Phase.running ∧ (clT.dev.thread 0 4).item = some 3 ∧ clT.dev.item? 3 = some itemT ∧ itemT.kind = 0 ∧ itemT.fn < 16 ∧
      (clT.dev.fn itemT.fn).sourceCheck = false ∧ clT.dev.atData 0 4 5 2) ∧
    (clT.dev.phase = Phase.running ∧ (clT.dev.thread 0 4).item = some 3 ∧ clT.dev.item? 3 = some itemT ∧ itemT.kind = 0 ∧
      ((Dev.sourceOk itemT (clT.dev.txVid { itemT with parse := { (parse clT.dev.parseCfg itemT.bytes) with source := itemT.source, fromRing := true
      } }) ((Dev.issued 0 4 clT.dev).onThread 0 4 fun th => th.asked 2 (mwDst (clT.dev.word 0 4)) 0 false)).1 = true) ∧ clT.dev.atData 0 4 5 2) :=
  ⟨⟨by decide +kernel, by decide +kernel, by decide +kernel, by decide +kernel, by decide +kernel, by unfold Dev.atData Dev.atWord; decide +kernel⟩,
   ⟨by decide +kernel, by decide +kernel, by decide +kernel, by decide +kernel, by decide +kernel, by decide +kernel, by unfold Dev.atData Dev.atWord; decide +kernel⟩,
   ⟨by decide +kernel, by decide +kernel, by decide +kernel, by decide +kernel, by decide +kernel, by unfold Dev.atData Dev.atWord; decide +kernel⟩⟩

theorem meets_ChannelsAndAnswers_Channels :
    (h0.dev.phase = Phase.running ∧ 0 < 34 ∧ (h0.dev.thread 0 4).sendChan = some 63 ∧ (h0.dev.thread 0 4).stage.length < 8 ∧ h0.dev.atData 0 4 6 0) ∧
    (h1.dev.phase = Phase.running ∧ 0 < 34 ∧ (h1.dev.thread 0 4).sendChan = some 63 ∧ (h1.dev.thread 0 4).stage ≠ [] ∧ h1.dev.atData 0 4 6 1) ∧
    (h3.dev.phase = Phase.running ∧ 0 < 34 ∧ (h3.dev.thread 0 4).sendChan = some 63 ∧ h3.dev.atData 0 4 6 3) ∧
    (h2.dev.phase = Phase.running ∧ 0 < 34 ∧ (h2.dev.thread 0 4).readChan = some (63, 7) ∧ (h2.dev.setChan 0 63).fifo = word1 :: laterWords1 ∧
      word1.msg = 7 ∧ h2.dev.atData 0 4 6 2) ∧
    (h4.dev.phase = Phase.running ∧ 0 < 34 ∧ h4.dev.waiters 0 = []) ∧
    (h5.dev.phase = Phase.running ∧ 0 < 34 ∧ ((h5.dev.thread 0 4).sendChan = none ∨ 8 ≤ (h5.dev.thread 0 4).stage.length) ∧
      (h5.dev.thread 0 4).item = some 3 ∧ h5.dev.item? 3 = some itemM ∧ itemM.failed = none ∧ itemM.stage = Stage.running ∧ h5.dev.atData 0 4 6 0) ∧
    (h6.dev.phase = Phase.running ∧ 0 < 34 ∧ ((h6.dev.thread 0 4).sendChan = none ∨ 8 ≤ (h6.dev.thread 0 4).stage.length) ∧
      (h6.dev.thread 0 4).item = some 3 ∧ h6.dev.item? 3 = some itemM ∧ itemM.failed = none ∧ itemM.stage = Stage.running ∧ h6.dev.atData 0 4 6 0) :=
  ⟨⟨by decide +kernel, by decide +kernel, by decide +kernel, by decide +kernel, by unfold Dev.atData Dev.atWord; decide +kernel⟩,
   ⟨by decide +kernel, by decide +kernel, by decide +kernel, by decide +kernel, by unfold Dev.atData Dev.atWord; decide +kernel⟩,
   ⟨by decide +kernel, by decide +kernel, by decide +kernel, by unfold Dev.atData Dev.atWord; decide +kernel⟩,
   ⟨by decide +kernel, by decide +kernel, by decide +kernel, by decide +kernel, by decide +kernel, by unfold Dev.atData Dev.atWord; decide +kernel⟩,
   by decide +kernel,
   ⟨by decide +kernel, by decide +kernel, by decide +kernel, by decide +kernel, by decide +kernel, by decide +kernel, by decide +kernel, by unfold Dev.atData Dev.atWord; decide +kernel⟩,
   ⟨by decide +kernel, by decide +kernel, by decide +kernel, by decide +kernel, by decide +kernel, by decide +kernel, by decide +kernel, by unfold Dev.atData Dev.atWord; decide +kernel⟩⟩

theorem meets_ChannelsAndAnswers_Answers :
    (an.dev.phase = Phase.running ∧ 0 < 34 ∧ (an.dev.thread 0 4).assists = as0 :: otherAnswers1 ∧ as0.kind ≠ 0 ∧ an.dev.waiters 0 = []) ∧
    (snd.dev.phase = Phase.running ∧ 0 < 34 ∧ snd.dev.setChannel (256 + 0) (mwExt (snd.dev.word 0 4) % 1024) = some 16416 ∧
      snd.dev.binding 16416 = some (256 + 0, 2) ∧ 1 ≤ 2 ∧ 2 ≤ 8 ∧ 16416 < 18432 ∧ 1 ≤ mwExt (snd.dev.word 0 4) / 1024 % 128 ∧
      mwExt (snd.dev.word 0 4) / 1024 % 128 ≤ 64 ∧ (snd.dev.chan 16416).held = none ∧ snd.dev.atData 0 4 5 11) :=
  ⟨by decide +kernel,
   ⟨by decide +kernel, by decide +kernel, by decide +kernel, by decide +kernel, by decide +kernel, by decide +kernel, by decide +kernel, by decide +kernel, by decide +kernel, by decide +kernel, by unfold Dev.atData Dev.atWord; decide +kernel⟩⟩

end Items

/-! ## The debugger, the control store and table commands -/

namespace Debugging

def t0 := coreOf (mw 0 0 0)
def wy : Wait := { cond := 0x20, invert := false, channel := 63, limit := 5, began := 0, yield := true }
def tw := coreOf (mw 0 0 0 7 (63 * 65536) 0x20 (yield := true)) { th0 with state := .waiting, wait := some wy }
def tn := coreOf (mw 0 0 0 7 (63 * 65536) 0x20) { th0 with state := .waiting, wait := some { wy with yield := false } }
def waitNoYield1 : Wait := { wy with yield := false }
def ts := coreOf (mw 0 0 0) { th0 with state := .stopped }
def csUp (v : Nat) (f : Dev → Dev := id) : State := up fun d => f { Dev.each (List.range 4) (fun k d => d.wr R.SET_CS_DATA_data (v / 2 ^ (32 * k) % 2 ^ 32) 33 (4 * k)) (d.wr R.SET_CS_ADDR_addr 16383 33) with setPos := { entries := [(33, { site := 33, phase := .out })] } }
def sCsIn : State := up id
def sCsOk := csUp (mw 1 0 0).toNat
def sCsBad := csUp 1
def bad1 : Microword := mw 0 0 0 ^^^ 1
def sFix := coreOf bad1
def ports (l : Nat) (f : Dev → Dev := id) : State := up fun d => f ((tab 0 1 10 l d).wr R.MTB_TABLE_CFG_host_write 1 0 0)
def asks (e : MtbEntry) (d : Dev) : Dev := d.setWindow 15 (e.bytes 0)
def entryW : MtbEntry := { entry0 with key := padTo 32 key0, result := List.replicate 16 7 }
def sRd := ports 10 (fun d => d.wr R.MTB_CMD_ARG_index 1023 0 (256 * 15))
def sNew := ports 10 (asks entryW)
def fullTab : Cuckoo := { slots := { entries := (List.range 8).map (fun k => (k, { valid := true, scope := 1, key := [5, BitVec.ofNat 8 k] })) } }
def sFull := ports 1 (fun d => asks entryW (d.setCuckoo 0 fullTab))
def sThere := ports 10 (fun d => putAt 0 entryW true 3 (asks entryW d))
def kThere : Nat := ((sThere.dev.findKey 0 15 key0).getD (0, false)).1
def kNew : Nat := 4 * (sNew.dev.buckets 0 0 15 (padTo 32 key0)).2.1
def cmd0 : MtbCmd := { table := 0, irq := true }
def tableCmd1 : MtbCmd := { stage := 2 }
def dirTab (w : Nat) : State := up fun d => ((((tab 3 2 4 13 d).wr R.MTB_TABLE_CFG_host_write 1 0 96).wr R.MTB_TABLE_CFG_entry128 w 0 96).wr R.MTB_CMD_ARG_index 8191 0 (256 * 15)).setWindow 15 (List.replicate 64 3)
def dTab := dirTab 0
def dTabW := dirTab 1
def tableCmd2 : MtbCmd := { table := 3 }
def pfx : Prefix := { vrf := 5, ipv6 := false, length := 31, addr := [10, 0, 0, 2], result := 7 }
def pfxBytes : List Byte := [5, 31] ++ le 0 14 ++ [10, 0, 0, 2] ++ le 0 12 ++ le 7 4 ++ le 0 28
def sPfx (l : List Prefix) : State := up fun d => { d.setWindow 15 pfxBytes with mtb := { d.mtb with prefixes := l } }
def sPfx0 := sPfx []
def sPfx1 := sPfx [pfx]
def sTern : State := up fun d => { d.wr R.MTB_CMD_ARG_index 16383 0 (256 * 15) with mtb := { d.mtb with ternary := { entries := [(16383, ([1], [2], [3]))] } } }
def tableCmd3 : MtbCmd := {}
def sBusy : State := up fun d => d.wr R.MTB_CMD_STATUS_busy 1 0 (256 * 15)
def run0 : PortRun := { result := 9, steps := 63, place := some (3, true), irq := true }
def sRun (r : PortRun) (f : Dev → Dev := id) : State := up fun d => f { tab 0 1 10 10 (d.wr R.MTB_CMD_STATUS_busy 1 0 (256 * 15)) with mtb := { d.mtb with runs := { entries := [(15, r)] } } }
def sRun0 := sRun run0
def plan0 : MtbPlan := { place := (0, false), free := 0, seen := [(0, 9)] }
def put0 (n : Nat) : Put := { op := .insert, entry := entryW, plan := some plan0, fails := n }
def run1 (n : Nat) : PortRun := { put := some (put0 n) }
def sRun3 := sRun (run1 3)
def sRun2 := sRun (run1 2)
def plan2 : MtbPlan := ((sRun2.dev.planPut 0 .insert entryW).1).getD plan0

theorem meets_DebuggerAndControlStore_Debugger :
    (t0.dev.phase = Phase.running ∧ 0 < 34 ∧ (t0.dev.thread 0 4).state = ThreadState.ready) ∧
    (tw.dev.phase = Phase.running ∧ 0 < 34 ∧ (tw.dev.thread 0 4).state = ThreadState.waiting ∧ (tw.dev.thread 0 4).wait = some wy ∧ wy.yield = true ∧
      (tw.dev.thread 0 4).kill = false) ∧
    (tn.dev.phase = Phase.running ∧ 0 < 34 ∧ (tn.dev.thread 0 4).state = ThreadState.waiting ∧ (tn.dev.thread 0 4).wait = some waitNoYield1 ∧
      waitNoYield1.yield = false) ∧
    (ts.dev.phase = Phase.running ∧ 0 < 34 ∧ (ts.dev.thread 0 4).state = ThreadState.stopped ∧ (ts.dev.thread 0 4).wait = none ∧
      ts.dev.waiters 0 = []) ∧
    (ts.dev.phase = Phase.running ∧ 0 < 34 ∧ (ts.dev.thread 0 4).state = ThreadState.stopped ∧ (ts.dev.thread 0 4).wait = none ∧
      ts.dev.waiters 0 = [] ∧ (ts.dev.thread 0 4).item = some 3 ∧ ts.dev.item? 3 = some itemM ∧ itemM.failed = none ∧ itemM.stage = Stage.running) ∧
    (t0.dev.phase = Phase.running ∧ 0 < 34 ∧ (t0.dev.thread 0 4).state = ThreadState.ready ∧ (t0.dev.thread 0 4).item.isSome = true ∧
      (t0.dev.thread 0 4).wait = none) := by decide +kernel

theorem meets_DebuggerAndControlStore_ControlStore :
    (sCsIn.dev.phase = Phase.running ∧ 0 < 34) ∧
    (sCsIn.dev.phase = Phase.running ∧ 0 < 34 ∧ sCsIn.dev.csWritable 0 = false) ∧
    (sCsOk.dev.phase = Phase.running ∧ 33 < 34 ∧ sCsOk.dev.csWritable 33 = true ∧ checkOk (sCsOk.dev.csData 33) = true) ∧
    (sCsBad.dev.phase = Phase.running ∧ 33 < 34 ∧ sCsBad.dev.csWritable 33 = true ∧ checkOk (sCsBad.dev.csData 33) = false) ∧
    (sFix.dev.phase = Phase.running ∧ 0 < 34 ∧ 4 < 128 ∧ (sFix.dev.thread 0 4).state = ThreadState.ready ∧ (sFix.dev.thread 0 4).item.isSome = true ∧
      (sFix.dev.thread 0 4).wait = none ∧ (sFix.dev.thread 0 4).issuedData = false ∧ sFix.dev.named 0 4 = true ∧
      fetchWord (sFix.dev.word 0 4) = some (mw 0 0 0, true)) := by decide +kernel

theorem meets_ExactMatchCommands_ExactMatch :
    (sRd.dev.phase = Phase.running ∧ sRd.dev.argIndex 15 < sRd.dev.tabSize cmd0.table ∧ sRd.dev.portTakes 4111 15 ∧ sRd.dev.tableTakes cmd0.table 1) ∧
    (sNew.dev.phase = Phase.running ∧ sNew.dev.engineBusy = false ∧ (sNew.dev.windowEntry 15 cmd0.table).valid = true ∧
      sNew.dev.findKey cmd0.table (sNew.dev.windowEntry 15 cmd0.table).scope (sNew.dev.windowEntry 15 cmd0.table).key = none ∧
      (sNew.dev.cuckoo cmd0.table).freeSlot [] (sNew.dev.buckets cmd0.table (sNew.dev.newGen cmd0.table) (sNew.dev.windowEntry 15 cmd0.table).scope
      (sNew.dev.windowEntry 15 cmd0.table).key).2.1 = some kNew ∧ sNew.dev.portTakes 4111 15 ∧ sNew.dev.tableTakes cmd0.table 1) ∧
    (sFull.dev.phase = Phase.running ∧ sFull.dev.engineBusy = false ∧
      sFull.dev.findKey cmd0.table (sFull.dev.windowEntry 15 cmd0.table).scope (sFull.dev.windowEntry 15 cmd0.table).key = none ∧
      sFull.dev.planNew cmd0.table [] (sFull.dev.windowEntry 15 cmd0.table) = none ∧ sFull.dev.portTakes 4111 15 ∧
      sFull.dev.tableTakes cmd0.table 1) ∧
    (sThere.dev.phase = Phase.running ∧ sThere.dev.engineBusy = false ∧
      sThere.dev.findKey cmd0.table (sThere.dev.windowEntry 15 cmd0.table).scope (sThere.dev.windowEntry 15 cmd0.table).key = some (kThere, true) ∧
      sThere.dev.portTakes 4111 15 ∧ sThere.dev.tableTakes cmd0.table 1) ∧
    (sThere.dev.phase = Phase.running ∧ sThere.dev.engineBusy = false ∧
      sThere.dev.findKey cmd0.table (sThere.dev.windowEntry 15 cmd0.table).scope (sThere.dev.windowEntry 15 cmd0.table).key = some (kThere, true) ∧
      (sThere.dev.windowEntry 15 cmd0.table).valid = true ∧ sThere.dev.portTakes 4111 15 ∧ sThere.dev.tableTakes cmd0.table 1) ∧
    (sNew.dev.phase = Phase.running ∧ sNew.dev.engineBusy = false ∧
      sNew.dev.findKey cmd0.table (sNew.dev.windowEntry 15 cmd0.table).scope (sNew.dev.windowEntry 15 cmd0.table).key = none ∧
      sNew.dev.portTakes 4111 15 ∧ sNew.dev.tableTakes cmd0.table 1) ∧
    (sThere.dev.phase = Phase.running ∧
      sThere.dev.findKey cmd0.table (sThere.dev.windowEntry 15 cmd0.table).scope (sThere.dev.windowEntry 15 cmd0.table).key = some (kThere, true) ∧
      sThere.dev.portTakes 4111 15 ∧ sThere.dev.tableTakes cmd0.table 1) ∧
    (sNew.dev.phase = Phase.running ∧
      sNew.dev.findKey cmd0.table (sNew.dev.windowEntry 15 cmd0.table).scope (sNew.dev.windowEntry 15 cmd0.table).key = none ∧
      sNew.dev.portTakes 4111 15 ∧ sNew.dev.tableTakes cmd0.table 1) :=
  ⟨⟨by decide +kernel, by decide +kernel, by unfold Dev.portTakes; decide +kernel, by unfold Dev.tableTakes; decide +kernel⟩,
   ⟨by decide +kernel, by decide +kernel, by decide +kernel, by decide +kernel, by decide +kernel, by unfold Dev.portTakes; decide +kernel, by unfold Dev.tableTakes; decide +kernel⟩,
   ⟨by decide +kernel, by decide +kernel, by decide +kernel, by decide +kernel, by unfold Dev.portTakes; decide +kernel, by unfold Dev.tableTakes; decide +kernel⟩,
   ⟨by decide +kernel, by decide +kernel, by decide +kernel, by unfold Dev.portTakes; decide +kernel, by unfold Dev.tableTakes; decide +kernel⟩,
   ⟨by decide +kernel, by decide +kernel, by decide +kernel, by decide +kernel, by unfold Dev.portTakes; decide +kernel, by unfold Dev.tableTakes; decide +kernel⟩,
   ⟨by decide +kernel, by decide +kernel, by decide +kernel, by unfold Dev.portTakes; decide +kernel, by unfold Dev.tableTakes; decide +kernel⟩,
   ⟨by decide +kernel, by decide +kernel, by unfold Dev.portTakes; decide +kernel, by unfold Dev.tableTakes; decide +kernel⟩,
   ⟨by decide +kernel, by decide +kernel, by unfold Dev.portTakes; decide +kernel, by unfold Dev.tableTakes; decide +kernel⟩⟩

theorem meets_TableCommands :
    (sNew.dev.phase = Phase.running ∧ tableCmd1.stage < 3 ∧ sNew.dev.portTakes 4111 15) ∧
    (dTab.dev.phase = Phase.running ∧ dTab.dev.argIndex 15 < dTab.dev.tabSize tableCmd2.table ∧ dTab.dev.tabWide tableCmd2.table = false ∧
      dTab.dev.portTakes 4111 15 ∧ dTab.dev.tableTakes tableCmd2.table 2) ∧
    (dTabW.dev.phase = Phase.running ∧ dTabW.dev.argIndex 15 < dTabW.dev.tabSize tableCmd2.table ∧ dTabW.dev.tabWide tableCmd2.table = true ∧
      dTabW.dev.portTakes 4111 15 ∧ dTabW.dev.tableTakes tableCmd2.table 2) ∧
    (sPfx0.dev.phase = Phase.running ∧ prefixOf (sPfx0.dev.window 15) = some pfx ∧
      ((List.map Prefix.units (List.filter (fun y => !pfx.same y) sPfx0.dev.mtb.prefixes)).sum + pfx.units ≤ 1048576) ∧ sPfx0.dev.portTakes 4111 15) ∧
    (sPfx1.dev.phase = Phase.running ∧ prefixOf (sPfx1.dev.window 15) = some pfx ∧ sPfx1.dev.mtb.prefixes.any pfx.same = true ∧
      sPfx1.dev.portTakes 4111 15) ∧
    (sPfx1.dev.phase = Phase.running ∧ prefixOf (sPfx1.dev.window 15) = some pfx ∧ List.find? pfx.same sPfx1.dev.mtb.prefixes = some pfx ∧
      sPfx1.dev.portTakes 4111 15) ∧
    (sTern.dev.phase = Phase.running ∧ sTern.dev.argIndex 15 < 16384 ∧ sTern.dev.portTakes 4111 15) ∧
    (sTern.dev.phase = Phase.running ∧ sTern.dev.argIndex 15 < 16384 ∧ sTern.dev.mtb.ternary.get? (sTern.dev.argIndex 15) = some ([1], [2], [3]) ∧
      sTern.dev.portTakes 4111 15) ∧
    (sNew.dev.phase = Phase.running ∧ 15 < 16 ∧ 4110 ≠ 4096 + 15) ∧
    (sBusy.dev.phase = Phase.running ∧ 15 < 16 ∧ 4111 = 4096 + 15 ∧ sBusy.dev.on R.MTB_CMD_STATUS_busy 0 (256 * 15) = true) ∧
    (sRun0.dev.phase = Phase.running ∧ 15 < 16 ∧ sRun0.dev.mtb.runs.get? 15 = some run0 ∧ run0.put = none ∧ run0.result < 16 ∧ run0.steps < 64) ∧
    (sRun3.dev.phase = Phase.running ∧ 15 < 16 ∧ sRun3.dev.mtb.runs.get? 15 = some (run1 3) ∧ (run1 3).put = some (put0 3) ∧
      (put0 3).plan = some plan0 ∧ sRun3.dev.stillAsRead (run1 3).table plan0.seen = false ∧ 3 ≤ (put0 3).fails) ∧
    (sRun2.dev.phase = Phase.running ∧ 15 < 16 ∧ sRun2.dev.mtb.runs.get? 15 = some (run1 2) ∧ (run1 2).put = some (put0 2) ∧
      (put0 2).plan = some plan0 ∧ sRun2.dev.stillAsRead (run1 2).table plan0.seen = false ∧ (put0 2).fails < 3 ∧
      sRun2.dev.planPut (run1 2).table (put0 2).op (put0 2).entry = (some plan2, 3)) :=
  ⟨⟨by decide +kernel, by decide +kernel, by unfold Dev.portTakes; decide +kernel⟩,
   ⟨by decide +kernel, by decide +kernel, by decide +kernel, by unfold Dev.portTakes; decide +kernel, by unfold Dev.tableTakes; decide +kernel⟩,
   ⟨by decide +kernel, by decide +kernel, by decide +kernel, by unfold Dev.portTakes; decide +kernel, by unfold Dev.tableTakes; decide +kernel⟩,
   ⟨by decide +kernel, by decide +kernel, by decide +kernel, by unfold Dev.portTakes; decide +kernel⟩,
   ⟨by decide +kernel, by decide +kernel, by decide +kernel, by unfold Dev.portTakes; decide +kernel⟩,
   ⟨by decide +kernel, by decide +kernel, by decide +kernel, by unfold Dev.portTakes; decide +kernel⟩,
   ⟨by decide +kernel, by decide +kernel, by unfold Dev.portTakes; decide +kernel⟩,
   ⟨by decide +kernel, by decide +kernel, by decide +kernel, by unfold Dev.portTakes; decide +kernel⟩,
   by decide +kernel,
   by decide +kernel,
   by decide +kernel,
   by decide +kernel,
   by decide +kernel⟩

end Debugging

/-! ## Learning, rehash, the background compare and errors -/

namespace Learning

def lt (f : Dev → Dev) : State := up fun d => f (tab 0 1 10 10 d)
def off0 : LearnOffer := { vnid := 5, mac := 0x112233445566, source := 3, fromFunction := false }
def offs (f : Nat) (o : LearnOffer) (d : Dev) : Dev := d.onMtb fun m => { m with offers := { entries := [(f, [o])] } }
def sL0 := lt (offs 2 off0)
def lkey : List Byte := destKey 5 0x112233445566
def eL : MtbEntry := { valid := true, learned := true, scope := 2, key := padTo 32 lkey, result := [1, 1, 1, 1, 1, 1, 1, 1, 9, 0, 0, 0, 2, 2, 2, 2] }
def sL1 := lt fun d => offs 2 off0 (putAt 0 eL true 2 d)
def sL2 := lt fun d => offs 2 off0 (putAt 0 { eL with static := true, learned := false } true 2 d)
def sL3 := lt fun d => offs 2 off0 (putAt 0 { eL with pinned := true } false 0 d)
def lockB (b : Nat) (d : Dev) : Dev := d.onMtb fun m => { m with runs := { entries := [(4, { put := some { op := .insert, entry := eL, locked := true, plan := some { place := (4 * b, false), free := 4 * b, seen := [(b, 0)] } } })] } }
def b0L : Nat := (sL0.dev.buckets 0 0 2 (padTo 32 lkey)).2.1
def sL4 := lt fun d => lockB b0L (offs 2 off0 d)
def wait3 : Learning := { offer := off0, seen := [(b0L, 7)], fails := 3 }
def sL5 := lt fun d => d.onMtb fun m => { m with learning := { entries := [(2, wait3)] } }
def aged (up lim : Nat) (f : Dev → Dev := id) : State := lt fun d => f <| ((((d.wr R.TMP_UPTIME_MS_value up).wr R.MTB_AGE_CONFIG_scan_enable 1).wr R.MTB_TABLE_CFG_aging 1 0 0).wr R.MTB_TABLE_AGE_age_limit lim 0 0).setCuckoo 0 { slots := { entries := [(4 * 1023 + 3, eL)] } }
def sA1 := aged 1001 1000
def sA2 := aged 1001 1000 (lockB 1023)
def sA3 := aged 1000 1000
def sR0 := lt id
def rehash (b : Nat) (stall : Nat) (c : Cuckoo) : State := lt fun d => ((((d.wr R.MTB_STATUS_rehash_active 1).wr R.MTB_STATUS_rehash_table 0).wr R.MTB_STATUS_rehash_stalled stall).wr R.MTB_REHASH_POS_bucket b).setCuckoo 0 c
def sR1 := rehash 5 1 {}
def sR2 := rehash 5 0 {}
def sR3 := rehash 1023 0 {}
def sR4 := rehash 5 0 { slots := { entries := [(20, eL)] } }
def kR4 : Nat := 4 * (sR4.dev.buckets 0 1 2 (padTo 32 lkey)).2.1
def cmpS (f : Dev → Dev) : State := lt f
def sC0 := cmpS id
def sC1 := cmpS fun d => { ((d.wr R.MTB_COMPARE_COUNT_records 1).wr R.MTB_COMPARE_CTRL_enable 1) with mtb := { d.mtb with compare := { waits := true } }, funcs := {} }
def sC2 := cmpS fun d => (d.wr R.MTB_COMPARE_COUNT_records 64).wr R.MTB_STATUS_compare_active 1
def sC3 := cmpS fun d => { d with mtb := { d.mtb with compare := { recheck := [9], fifo := List.replicate 63 0 } } }
def sC4 := cmpS fun d => { d with mtb := { d.mtb with compare := { fifo := [77] } } }
def sE0 : State := up
def sE1 : State := up fun d => (((((d.setLogWord 255 7 1).setLogWord 255 3 0x100).setLogWord 255 2 (0x41 + 65536 * 3)).wr R.FLT_CONFIG_corr_window_ms 10)).wr R.TMP_UPTIME_MS_value 9
def itemT : Item := { source := 5, stage := .running, position := 0, bytes := List.replicate 64 9, fn := 0 }
def sE2 : State := up fun d => withItem 3 itemT (withRing 5 ringT d)
def sE3 : State := up fun d => { d with mtb := { d.mtb with ternary := { entries := [(4, ([1], [2], [3]))] }, runs := { entries := [(15, { table := 3, irq := true, result := 0 })] } } }
def sE4 : State := up fun d => { d with escalations := List.replicate 200 0 }

theorem meets_LearningAndRehash_Learning :
    (sL0.dev.phase = Phase.running ∧ sL0.dev.mtb.offers.getD 2 [] = [off0] ∧ sL0.dev.mtb.learning.get? 2 = none ∧ sL0.dev.tabKind 0 = 1 ∧
      sL0.dev.lockedBuckets 0 = []) ∧
    (sL1.dev.phase = Phase.running ∧ sL1.dev.mtb.offers.getD 2 [] = [off0] ∧ sL1.dev.mtb.learning.get? 2 = none ∧ sL1.dev.tabKind 0 = 1 ∧
      sL1.dev.lockedBuckets 0 = []) ∧
    (sL2.dev.phase = Phase.running ∧ sL2.dev.mtb.offers.getD 2 [] = [off0] ∧ sL2.dev.mtb.learning.get? 2 = none ∧ sL2.dev.tabKind 0 = 1 ∧
      sL2.dev.lockedBuckets 0 = []) ∧
    (sL3.dev.phase = Phase.running ∧ sL3.dev.mtb.offers.getD 2 [] = [off0] ∧ sL3.dev.mtb.learning.get? 2 = none ∧ sL3.dev.tabKind 0 = 1 ∧
      sL3.dev.lockedBuckets 0 = []) ∧
    (sL4.dev.phase = Phase.running ∧ sL4.dev.mtb.offers.getD 2 [] = [off0] ∧ sL4.dev.mtb.learning.get? 2 = none ∧ sL4.dev.tabKind 0 = 1 ∧
      sL4.dev.meetsLock 0 (sL4.dev.learnBuckets 2 off0) = true) ∧
    (sL5.dev.phase = Phase.running ∧ sL5.dev.mtb.learning.get? 2 = some wait3 ∧ sL5.dev.meetsLock 0 (sL5.dev.learnBuckets 2 wait3.offer) = false ∧
      sL5.dev.stillAsRead 0 wait3.seen = false ∧ 3 ≤ wait3.fails) := by decide +kernel

theorem meets_LearningAndRehash_Aging :
    (sA1.dev.phase = Phase.running ∧ sA1.dev.on R.MTB_AGE_CONFIG_scan_enable = true ∧ sA1.dev.tabKind 0 = 1 ∧
      sA1.dev.on R.MTB_TABLE_CFG_aging 0 (32 * 0) = true ∧ 1023 < sA1.dev.tabSize 0 ∧ 3 < 4 ∧ ((sA1.dev.cuckoo 0).slot (4 * 1023 + 3)).valid = true ∧
      ((sA1.dev.cuckoo 0).slot (4 * 1023 + 3)).static = false ∧ ((sA1.dev.cuckoo 0).slot (4 * 1023 + 3)).pinned = false ∧
      sA1.dev.meetsLock 0 [1023] = false ∧ sA1.dev.rd R.MTB_TABLE_AGE_age_limit 0 (32 * 0) < sA1.dev.ageOf ((sA1.dev.cuckoo 0).slot (4 * 1023 + 3))) ∧
    (sA2.dev.phase = Phase.running ∧ sA2.dev.on R.MTB_AGE_CONFIG_scan_enable = true ∧ sA2.dev.tabKind 0 = 1 ∧
      sA2.dev.on R.MTB_TABLE_CFG_aging 0 (32 * 0) = true ∧ 1023 < sA2.dev.tabSize 0 ∧ 3 < 4 ∧ ((sA2.dev.cuckoo 0).slot (4 * 1023 + 3)).valid = true ∧
      ((sA2.dev.cuckoo 0).slot (4 * 1023 + 3)).static = false ∧ ((sA2.dev.cuckoo 0).slot (4 * 1023 + 3)).pinned = false ∧
      sA2.dev.meetsLock 0 [1023] = true) ∧
    (sA3.dev.phase = Phase.running ∧ sA3.dev.on R.MTB_AGE_CONFIG_scan_enable = true ∧ sA3.dev.tabKind 0 = 1 ∧
      sA3.dev.on R.MTB_TABLE_CFG_aging 0 (32 * 0) = true ∧ 1023 < sA3.dev.tabSize 0 ∧ 3 < 4 ∧ ((sA3.dev.cuckoo 0).slot (4 * 1023 + 3)).valid = true ∧
      ((sA3.dev.cuckoo 0).slot (4 * 1023 + 3)).static = false ∧ ((sA3.dev.cuckoo 0).slot (4 * 1023 + 3)).pinned = false ∧
      sA3.dev.ageOf ((sA3.dev.cuckoo 0).slot (4 * 1023 + 3)) ≤ sA3.dev.rd R.MTB_TABLE_AGE_age_limit 0 (32 * 0) ∧
      sA3.dev.ageOf ((sA3.dev.cuckoo 0).slot (4 * 1023 + 3)) < 2 ^ 31) := by decide +kernel

theorem meets_LearningAndRehash_Rehash :
    (sR0.dev.phase = Phase.running ∧ 0 < 16 ∧ sR0.dev.tabKind 0 = 1 ∧ sR0.dev.on R.MTB_STATUS_rehash_active = false) ∧
    (sR1.dev.phase = Phase.running ∧ 0 < 16 ∧ sR1.dev.tabKind 0 = 1 ∧ sR1.dev.rehashing 0 = true ∧ sR1.dev.on R.MTB_STATUS_rehash_stalled = true) ∧
    (sR2.dev.phase = Phase.running ∧ 0 < 16 ∧ sR2.dev.tabKind 0 = 1 ∧ sR2.dev.rehashing 0 = true ∧ sR2.dev.on R.MTB_STATUS_rehash_stalled = false ∧
      (∀ n < 4, ((sR2.dev.cuckoo 0).slot (4 * sR2.dev.rd R.MTB_REHASH_POS_bucket + n)).valid = false)) ∧
    (sR3.dev.phase = Phase.running ∧ 0 < 16 ∧ sR3.dev.tabKind 0 = 1 ∧ sR3.dev.rehashing 0 = true ∧ sR3.dev.on R.MTB_STATUS_rehash_stalled = false ∧
      (∀ n < 4, ((sR3.dev.cuckoo 0).slot (4 * sR3.dev.rd R.MTB_REHASH_POS_bucket + n)).valid = false)) ∧
    (sR4.dev.phase = Phase.running ∧ 0 < 16 ∧ sR4.dev.tabKind 0 = 1 ∧ sR4.dev.rehashing 0 = true ∧ sR4.dev.on R.MTB_STATUS_rehash_stalled = false ∧
      sR4.dev.lockedBuckets 0 = [] ∧ ((sR4.dev.cuckoo 0).slot (4 * sR4.dev.rd R.MTB_REHASH_POS_bucket)).valid = true ∧
      ((sR4.dev.cuckoo 0).slot (4 * sR4.dev.rd R.MTB_REHASH_POS_bucket)).gen = sR4.dev.curGen 0 ∧
      (∀ (n : ℕ), 1 ≤ n → n < 4 → ((sR4.dev.cuckoo 0).slot (4 * sR4.dev.rd R.MTB_REHASH_POS_bucket + n)).valid = false) ∧
      (sR4.dev.cuckoo 0).freeSlot [4 * sR4.dev.rd R.MTB_REHASH_POS_bucket] (sR4.dev.buckets 0 (1 - sR4.dev.curGen 0) ((sR4.dev.cuckoo 0).slot (4 *
      sR4.dev.rd R.MTB_REHASH_POS_bucket)).scope ((sR4.dev.cuckoo 0).slot (4 * sR4.dev.rd R.MTB_REHASH_POS_bucket)).key).2.1 = some kR4 ∧
      kR4 / 4 ≠ sR4.dev.rd R.MTB_REHASH_POS_bucket) := by decide +kernel

theorem meets_BackgroundCompare_Compare :
    (sC0.dev.phase = Phase.running ∧ sC0.dev.on R.MTB_STATUS_compare_active = false ∧ sC0.dev.rd R.MTB_COMPARE_COUNT_records = 0) ∧
    (sC1.dev.phase = Phase.running ∧ sC1.dev.on R.MTB_STATUS_compare_active = false ∧ sC1.dev.mtb.compare.waits = true ∧
      sC1.dev.on R.MTB_COMPARE_CTRL_enable = true ∧ sC1.dev.rd R.MTB_COMPARE_CTRL_table = 0 ∧ 0 < 16 ∧ 0 < sC1.dev.rd R.MTB_COMPARE_COUNT_records ∧
      sC1.dev.canIssue (sC1.dev.rd R.MTB_COMPARE_CTRL_compare_pf) = false) ∧
    (sC2.dev.phase = Phase.running ∧ sC2.dev.on R.MTB_STATUS_compare_active = true ∧ sC2.dev.on R.MTB_COMPARE_CTRL_enable = false ∧
      sC2.dev.mtb.compare.region = 0 ∧ 1 ≤ sC2.dev.rd R.MTB_COMPARE_COUNT_records ∧ sC2.dev.rd R.MTB_COMPARE_COUNT_records ≤ 64) ∧
    (sC3.dev.phase = Phase.running ∧ sC3.dev.mtb.compare.recheck = [9] ∧ sC3.dev.mtb.compare.fifo.length < 64) ∧
    (sC4.dev.phase = Phase.running ∧ sC4.dev.mtb.compare.fifo = [77]) ∧
    (sC0.dev.phase = Phase.running ∧ sC0.dev.mtb.compare.fifo = []) := by decide +kernel

theorem meets_ErrorsAndEscalation_Errors :
    (sE0.dev.phase = Phase.running ∧ 33 < 34 ∧ sE0.dev.logsAnew) ∧
    (sE0.dev.phase = Phase.running ∧ 0 < 34 ∧ sE0.dev.logsAnew) ∧
    (sE1.dev.phase = Phase.running ∧ 3 < 34 ∧ 255 < 256 ∧ sE1.dev.heldSlots = [255] ∧ sE1.dev.recSeverity 255 = 0 ∧ sE1.dev.recCode 255 = 1 ∧
      sE1.dev.recCount 255 < 65535 ∧ sE1.dev.logWord 255 2 = 65 + 65536 * 3 ∧
      sE1.dev.uptime - sE1.dev.logWord 255 1 < sE1.dev.rd R.FLT_CONFIG_corr_window_ms) ∧
    (sE0.dev.phase = Phase.running ∧ sE0.dev.hasSet 33 = true) ∧
    (sE0.dev.phase = Phase.running ∧ sE0.dev.hasSet 0 = true) ∧
    (sE0.dev.phase = Phase.running) ∧
    (sE2.dev.phase = Phase.running ∧ sE2.dev.item? 3 = some itemT ∧ itemT.failed = none ∧ itemT.stage ≠ Stage.crypto ∧ itemT.fromRing = true ∧
      sE2.dev.logsAnew) ∧
    (sE3.dev.phase = Phase.running ∧ sE3.dev.logsAnew) :=
  ⟨⟨by decide +kernel, by decide +kernel, by unfold Dev.logsAnew; decide +kernel⟩,
   ⟨by decide +kernel, by decide +kernel, by unfold Dev.logsAnew; decide +kernel⟩,
   by decide +kernel,
   by decide +kernel,
   by decide +kernel,
   by decide +kernel,
   ⟨by decide +kernel, by decide +kernel, by decide +kernel, by decide +kernel, by decide +kernel, by unfold Dev.logsAnew; decide +kernel⟩,
   ⟨by decide +kernel, by unfold Dev.logsAnew; decide +kernel⟩⟩

theorem meets_ErrorsAndEscalation_Handshake :
    (sE0.dev.phase = Phase.running ∧ vitalUnit 17 1 = false ∧ 16 ≠ 65 ∧ 16 ≠ 80 ∧ 16 ≠ 176) ∧
    (sE0.dev.phase = Phase.running ∧ vitalUnit 96 1 = false ∧ 16 ≠ 65 ∧ 16 ≠ 80 ∧ 16 ≠ 176) ∧
    (sE0.dev.phase = Phase.running ∧ vitalUnit 32 1 = true) ∧
    (sE0.dev.phase = Phase.running ∧ vitalUnit 48 1 = true) ∧
    (sE4.dev.phase = Phase.running ∧ vitalUnit 64 1 = true) ∧
    (sE2.dev.phase = Phase.running) := by decide +kernel

theorem meets_ErrorsAndEscalation_Engines :
    (sE0.dev.phase = Phase.running ∧ 17 < 18 ∧ 0 < sE0.dev.movers ∧ sE0.dev.dma = { }) ∧
    (sE0.dev.phase = Phase.running ∧ 7 < 8 ∧ (sE0.dev.cores.getD 7 { }).out = false ∧ 2 < sE0.dev.coresIn.length ∧ sE0.dev.chans = { }) ∧
    (sE1.dev.phase = Phase.running ∧ sE1.dev.slotOfSeq 0 = some 255) ∧
    (sE1.dev.phase = Phase.running ∧ sE1.dev.slotOfSeq 9 = none) := by decide +kernel

end Learning

/-! ## Work requests, NVMe, the scheduler and DMA -/

namespace Work

def ctxBytes (w0 w4 : Nat) : List Byte := le w0 4 ++ le w4 4 ++ List.replicate 248 0
def workDesc (off qpn len op lkey : Nat) : Desc := { seq := 59, bytes := le off 5 ++ le qpn 3 ++ le (len + 2 ^ 24 * op) 4 ++ le lkey 4 ++ le 0 16 }
def ringWk (x : Desc) : Ring := { ringT with kind := 2, accepted := [x] }
def wk (x : Desc) : State := up fun d => { withRing 5 (ringWk x) d with ctxs := { entries := [(9, ctxBytes (8 + 16 * 3) 0), (10, ctxBytes 9 0)] } }
def dGood := workDesc 0 9 0 0 (256 * 10)
def dBad := workDesc 0 9 1 2 (256 * 11)
def dRecv := workDesc 0 0 0 5 0
def sGood := wk dGood
def sBad := wk dBad
def qpOf5 : List Byte := le (8 + 16 * 3) 4 ++ List.replicate 20 0 ++ le 5 4 ++ List.replicate 228 0
def rwk (x : Desc) : State := up fun d => { withRing 5 (ringWk x) d with ctxs := { entries := [(9, qpOf5)] } }
def sRb := rwk dBad
def sRg := rwk dRecv
def req0 : QpReq := { ring := 5, seq := 59, desc := dGood.bytes, opcode := 0, first := 0, last := 0 }
def qpS (cnt : Nat) (q : Qp) : State := up fun d => { withRing 5 (ringWk dGood) d with ctxs := { entries := [(9, ctxBytes (8 + 16 * 3 + 2048 * cnt) 0), (10, ctxBytes 9 0)] }, qps := { entries := [(9, q)] } }
def sQ0 := qpS 0 { reqs := [req0] }
def sQ7 := qpS 7 { reqs := [req0], retries := 6 }
def sTcp : State := up fun d => { d with ctxs := { entries := [(12, ctxBytes 10 0)] }, conns := { entries := [(12, { kept := [(0, [1, 2, 3])] })] } }
def imgN : Image := { img with sections := img.sections.map (fun s => match s.body with | .identity _ => { s with body := .identity { pfs := [(0, { pf0 with vfKind := 2 })] } } | _ => s) }
def nv (c : Nvme) (f : Dev → Dev := id) : State := up fun d => f { d with boot := { d.boot with image := some imgN }, funcs := { entries := [(0, { fn0 with vfEnable := true, numVfs := 1 }), (16, fn0)] }, nvmes := { entries := [(16, c)] } }
def sN0 := nv { aqa := 31 + 65536 * 4095 }
def sN1 := nv { cc := 1, ready := true, sqs := { entries := [(0, { size := 32 })] }, cqs := { entries := [(0, { size := 32 })] } }
def sq0 : Sq := { base := 0x1000, size := 32 }
def queue1 : Sq := { size := 32 }
def sqe (op cdw10 cdw11 : Nat) : List Byte := le (op + 65536 * 7) 4 ++ le 1 4 ++ List.replicate 16 0 ++ le 0x10000 8 ++ le 0 8 ++ le cdw10 4 ++ le cdw11 4 ++ List.replicate 16 0
def sqA (b : List Byte) : Sq := { sq0 with nextSeq := 1, tail := 1, fetchPos := 1, accepted := [(0, b)] }
def cq0 : Cq := { base := 0x2000, size := 32 }
def adm (b : List Byte) (sqs : List (Nat × Sq) := []) (cqs : List (Nat × Cq) := []) : State :=
  nv { cc := 1, ready := true, sqs := { entries := (0, sqA b) :: sqs }, cqs := { entries := (0, cq0) :: cqs } }
def b1 := sqe 6 4 0
def sb1 := adm b1
def b2 := sqe 6 1 0
def sb2 := adm b2
def b3 := sqe 5 (64 + 65536 * 4095) (3 + 65536 * 63)
def sb3 := adm b3
def b4 := sqe 1 (64 + 65536) (1 + 65536 * 64)
def sb4 := adm b4 [] [(64, cq0)]
def b5 := sqe 0 64 0
def sb5 := adm b5 [(64, { sq0 with cq := 64 })] [(64, cq0)]
def b6 := sqe 4 64 0
def sb6 := adm b6 [] [(64, cq0)]
def b7 := sqe 10 7 0
def sb7 := adm b7
def b8 := sqe 9 11 5
def sb8 := adm b8
def b9 := sqe 2 0 0
def sb9 := adm b9
def b10 := sqe 2 (2 + 65536 * 127) 0
def sb10 := adm b10
def b11 := sqe 8 (9 + 65536 * 3) 0
def sb11 := adm b11
def b12 := sqe 12 0 0
def sb12 := adm b12
def b13 := sqe 0x7F 0 0
def sb13 := adm b13
def b14 := sqe 2 0 0
def sb14 := nv { cc := 1, ready := true, sqs := { entries := [(0, sq0), (64, { sqA b14 with cq := 64 })] }, cqs := { entries := [(0, cq0), (64, cq0)] } }
def queue2 : Sq := { sqA b14 with cq := 64 }
def sS0 : State := up
def sS1 : State := (match exec (.schNodeWrite 1 1 5) sS0 with | .next t => t | _ => sS0)
def cS1 : NodeCmd := { mid := 1, level := 1, index := 5, write := true, node := ((sS1.dev.sched.cmd.map NodeCmd.node).getD {}) }
def sD (st : Nat) (c : DmaChan := {}) (f : Dev → Dev := id) : State := up fun d => f { (d.wr R.DMA_STATUS_state st 63).wr R.DMA_STATUS_owner 0x1000 63 with dma := { entries := [(63, c)] } }
def sD0 := sD 0
def sD1 := sD 1
def sD2 := sD 2
def sD2x := sD 2 {} (fun d => { d with funcs := {} })
def sDq (n : Nat) : State := sD 1 {} (fun d => d.wr R.DMA_STATUS_requests n 63)
def sDq254 := sDq 254
def sDq255 := sDq 255
def dd (len flags next : Nat) : List Byte := le 0x4000 8 ++ le 0x8000 8 ++ le (len + 2 ^ 24 * flags) 4 ++ le 0 4 ++ le next 8
def fd (b : List Byte) : DmaChan := { fetching := some 0x100, fetched := some b }
def ddOk := dd (2 ^ 24 - 1) 0 1
def ddTab := dd 64 8 1
def ddBad := dd 0 0 1
def sF0 := sD 1 (fd ddOk)
def sF1 := sD 1 (fd ddTab)
def sF2 := sD 1 (fd ddBad)
def x0 : DmaDesc := dmaDesc 0x100 ddOk
def sB0 := sD 1 { descs := [x0] }
def xS : DmaDesc := { dmaDesc 0x100 (dd 64 0 1) with started := 64 }
def bu0 : Burst := { id := 0, desc := 0x100, off := 0, len := 64, data := some (List.replicate 64 1) }
def sB1 := sD 1 { descs := [xS], flight := [{ bu0 with failed := true }] }
def sB2 := sD 1 { descs := [xS], flight := [bu0] }
def failedBurst1 : Burst := { bu0 with failed := true }

/-- A send of no bytes through the region 10, with key byte `k`. -/
def dKey (k : Nat) : Desc := workDesc 0 9 0 0 (256 * 10 + k)
def sKey (k : Nat) : State := wk (dKey k)

theorem dKey_fields : ∀ k < 256, (workFields (dKey k).bytes).reserved = false ∧ (workFields (dKey k).bytes).opcode = 0 ∧
    (workFields (dKey k).bytes).qpn = 9 ∧ (workFields (dKey k).bytes).offset = 0 ∧ (workFields (dKey k).bytes).length = 0 ∧
    (workFields (dKey k).bytes).lkey = 256 * 10 + k := by decide +kernel

theorem sendOk_of {k : Nat} (hk : k < 256) (h : Config.ctxField 9 3 (ctxBytes 9 0) % 256 = k) :
    (sKey k).dev.sendOk (ringWk (dKey k)).fn (workFields (dKey k).bytes) = true := by
  obtain ⟨a, b, c, e, f, g⟩ := dKey_fields k hk
  have r : keyRegion (256 * 10 + k) = 10 := by unfold keyRegion; omega
  have m : (256 * 10 + k) % 256 = k := by omega
  have q : (sKey k).dev.ctxField 10 3 = Config.ctxField 9 3 (ctxBytes 9 0) := rfl
  unfold Dev.sendOk Dev.regionOk
  rw [a, b, c, e, f, g]
  have t (i : Nat) : (sKey k).dev.ctxAt 9 0 4 = sGood.dev.ctxAt 9 0 4 ∧ (sKey k).dev.ctxAt i 4 2 = sGood.dev.ctxAt i 4 2 ∧
      (sKey k).dev.ctxAt 10 0 4 = sGood.dev.ctxAt 10 0 4 ∧ (sKey k).dev.ctxFailed = [] := ⟨rfl, rfl, rfl, rfl⟩
  have v : sGood.dev.ctxAt 9 0 4 = 56 ∧ sGood.dev.ctxAt 9 4 2 = 0 ∧ sGood.dev.ctxAt 10 0 4 = 9 ∧ sGood.dev.ctxAt 10 4 2 = 0 := by decide +kernel
  simp [r, m, q, h, Dev.ctxType, Dev.ctxOwner, Dev.qpState, Dev.ctxBad, (t 9).1, (t 9).2.1, (t 10).2.1, (t 9).2.2.1, (t 9).2.2.2, v.1, v.2.1, v.2.2.1,
    v.2.2.2, bits, show (ringWk (dKey k)).fn = 0 from rfl]

/-- The key byte that the region's context shows is open (notes/assumptions/3.md); whatever it is, the send that names it stands. -/
theorem meets_WorkRequests_send : ∃ k, (sKey k).dev.phase = .running ∧
    (Instr.send 5, 0) ∈ [(Instr.send 5, 0), (Instr.sendWithImmediate 5, 1), (Instr.rdmaWrite 5, 2), (Instr.rdmaWriteWithImmediate 5, 3),
      (Instr.rdmaRead 5, 4), (Instr.recv 5, 5)] ∧
    (sKey k).dev.workStands 5 (ringWk (dKey k)) (dKey k) [] 0 ∧ (sKey k).dev.isRecvRing 5 = false ∧
    (sKey k).dev.sendOk (ringWk (dKey k)).fn (workFields (dKey k).bytes) = true := by
  have hk : Config.ctxField 9 3 (ctxBytes 9 0) % 256 < 256 := Nat.mod_lt _ (by decide)
  refine ⟨_, rfl, by decide +kernel, ⟨rfl, rfl, rfl, ?_⟩, ?_, sendOk_of hk rfl⟩
  · rw [(dKey_fields _ hk).2.1]; rfl
  · rfl

theorem meets_WorkRequests_Work :
    (sBad.dev.phase = Phase.running ∧
      (Instr.rdmaWrite 5, 2) ∈ [(Instr.send 5, 0), (Instr.sendWithImmediate 5, 1), (Instr.rdmaWrite 5, 2), (Instr.rdmaWriteWithImmediate 5, 3),
      (Instr.rdmaRead 5, 4), (Instr.recv 5, 5)] ∧ sBad.dev.isRecvRing 5 = false ∧ sBad.dev.sendOk (ringWk dBad).fn (workFields dBad.bytes) = false ∧
      sBad.dev.workStands 5 (ringWk dBad) dBad [] 2) ∧
    (sRb.dev.phase = Phase.running ∧
      (Instr.rdmaWrite 5, 2) ∈ [(Instr.send 5, 0), (Instr.sendWithImmediate 5, 1), (Instr.rdmaWrite 5, 2), (Instr.rdmaWriteWithImmediate 5, 3),
      (Instr.rdmaRead 5, 4), (Instr.recv 5, 5)] ∧ sRb.dev.isRecvRing 5 = true ∧ (¬((workFields dBad.bytes).opcode = 5 ∧
      (workFields dBad.bytes).reserved = false ∧ (workFields dBad.bytes).qpn = 0)) ∧ sRb.dev.workStands 5 (ringWk dBad) dBad [] 2) ∧
    (sRg.dev.phase = Phase.running ∧ sRg.dev.isRecvRing 5 = true ∧ (workFields dRecv.bytes).opcode = 5 ∧ (workFields dRecv.bytes).reserved = false ∧
      (workFields dRecv.bytes).qpn = 0 ∧ (∀ p ∈ sRg.dev.qpsOf 5, sRg.dev.qpState p ≠ 4) ∧ sRg.dev.workStands 5 (ringWk dRecv) dRecv [] 5) ∧
    (sQ0.dev.phase = Phase.running ∧ sQ0.dev.ctxType 9 = 8 ∧ sQ0.dev.qpState 9 = 3 ∧ (sQ0.dev.qp 9).reqs ≠ [] ∧
      sQ0.dev.qpRetryCnt 9 < (sQ0.dev.qp 9).retries + 1) ∧
    (sQ7.dev.phase = Phase.running ∧ sQ7.dev.ctxType 9 = 8 ∧ sQ7.dev.qpState 9 = 3 ∧ (sQ7.dev.qp 9).reqs ≠ [] ∧
      (sQ7.dev.qp 9).retries + 1 ≤ sQ7.dev.qpRetryCnt 9) ∧
    (sQ0.dev.phase = Phase.running ∧ sQ0.dev.ctxType 9 = 8) ∧
    (sTcp.dev.phase = Phase.running ∧ sTcp.dev.connOpen 12 = true ∧ (sTcp.dev.conn 12).kept ≠ [] ∧
      (sTcp.dev.conn 12).retries < sTcp.dev.rd R.STO_TCP_CONFIG_max_retries) :=
  ⟨⟨by decide +kernel, by decide +kernel, by decide +kernel, by decide +kernel, by unfold Dev.workStands; decide +kernel⟩,
   ⟨by decide +kernel, by decide +kernel, by decide +kernel, by decide +kernel, by unfold Dev.workStands; decide +kernel⟩,
   ⟨by decide +kernel, by decide +kernel, by decide +kernel, by decide +kernel, by decide +kernel, by decide +kernel, by unfold Dev.workStands; decide +kernel⟩,
   by decide +kernel,
   by decide +kernel,
   by decide +kernel,
   by decide +kernel⟩

theorem meets_NvmeControllers_Nvme :
    (sN0.dev.phase = Phase.running ∧ sN0.dev.isNvme 16 = true ∧ hasBit (sN0.dev.nvme 16).cc 0 = false ∧ (sN0.dev.nvme 16).closing = false) ∧
    (sN1.dev.phase = Phase.running ∧ hasBit (sN1.dev.nvme 16).cc 0 = true ∧ sN1.dev.items = { }) ∧
    (sN1.dev.phase = Phase.running ∧ sN1.dev.doorbellOpen 16 = true ∧ sN1.dev.isNvme 16 = true ∧ (sN1.dev.nvme 16).closing = false ∧
      (sN1.dev.nvme 16).sqs.get? 0 = some queue1 ∧ queue1.size ≤ 65536 ∧ 31 < queue1.size ∧
      (queue1.tail + queue1.size - queue1.nextSeq % max 1 queue1.size) % max 1 queue1.size + (31 + queue1.size - queue1.tail) % max 1 queue1.size <
      queue1.size) ∧
    (sN1.dev.phase = Phase.running ∧ sN1.dev.doorbellOpen 16 = true ∧ sN1.dev.isNvme 16 = true ∧ (sN1.dev.nvme 16).closing = false ∧
      (sN1.dev.nvme 16).sqs.get? 0 = some queue1 ∧ queue1.size ≤ 65536 ∧ queue1.size ≤ 65535 ∧ 65535 < 65536) := by decide +kernel

theorem meets_NvmeControllers_Nvme_admin :
    (sb1.dev.phase = Phase.running ∧ 6 = 6 ∧ 3 < (nvmeFields b1).cdw10 % 256 ∧ sb1.dev.nvmeStands 16 0 0 (sqA b1) b1 [] 6) ∧
    (sb2.dev.phase = Phase.running ∧ 6 = 6 ∧ (nvmeFields b2).cdw10 % 256 = 1 ∧ sb2.dev.nvmeStands 16 0 0 (sqA b2) b2 [] 6) ∧
    (sb3.dev.phase = Phase.running ∧ 5 = 5 ∧ 1 ≤ (nvmeFields b3).cdw10 % 65536 ∧ (nvmeFields b3).cdw10 % 65536 ≤ 64 ∧
      (sb3.dev.nvme 16).cqs.has ((nvmeFields b3).cdw10 % 65536) = false ∧ 1 ≤ (nvmeFields b3).cdw10 / 65536 ∧ (nvmeFields b3).cdw10 / 65536 < 4096 ∧
      hasBit (nvmeFields b3).cdw11 0 = true ∧ (nvmeFields b3).cdw11 / 65536 < sb3.dev.msixSize 16 ∧ sb3.dev.nvmeStands 16 0 0 (sqA b3) b3 [] 5) ∧
    (sb4.dev.phase = Phase.running ∧ 1 = 1 ∧ 1 ≤ (nvmeFields b4).cdw10 % 65536 ∧ (nvmeFields b4).cdw10 % 65536 ≤ 64 ∧
      (sb4.dev.nvme 16).sqs.has ((nvmeFields b4).cdw10 % 65536) = false ∧ 1 ≤ (nvmeFields b4).cdw10 / 65536 ∧ (nvmeFields b4).cdw10 / 65536 < 4096 ∧
      hasBit (nvmeFields b4).cdw11 0 = true ∧ (nvmeFields b4).cdw11 / 65536 ≠ 0 ∧ (sb4.dev.nvme 16).cqs.has ((nvmeFields b4).cdw11 / 65536) = true ∧
      sb4.dev.nvmeStands 16 0 0 (sqA b4) b4 [] 1) ∧
    (sb5.dev.phase = Phase.running ∧ 0 = 0 ∧ (nvmeFields b5).cdw10 % 65536 ≠ 0 ∧ (sb5.dev.nvme 16).sqs.has ((nvmeFields b5).cdw10 % 65536) = true ∧
      sb5.dev.sqBusy 16 ((nvmeFields b5).cdw10 % 65536) = false ∧ sb5.dev.nvmeStands 16 0 0 (sqA b5) b5 [] 0) ∧
    (sb6.dev.phase = Phase.running ∧ 4 = 4 ∧ (nvmeFields b6).cdw10 % 65536 ≠ 0 ∧ (sb6.dev.nvme 16).cqs.has ((nvmeFields b6).cdw10 % 65536) = true ∧
      (∀ y ∈ ((sb6.dev.nvmeTaken 16 0 (sqA b6) []).nvme 16).sqs.vals, y.cq ≠ (nvmeFields b6).cdw10 % 65536) ∧
      sb6.dev.nvmeStands 16 0 0 (sqA b6) b6 [] 4) ∧
    (sb7.dev.phase = Phase.running ∧ 10 = 10 ∧ (nvmeFields b7).cdw10 % 256 = 7 ∧ sb7.dev.nvmeStands 16 0 0 (sqA b7) b7 [] 10) ∧
    (sb8.dev.phase = Phase.running ∧ 9 = 9 ∧ (nvmeFields b8).cdw10 % 256 = 11 ∧ sb8.dev.nvmeStands 16 0 0 (sqA b8) b8 [] 9) ∧
    (sb9.dev.phase = Phase.running ∧ 2 = 2 ∧ (nvmeFields b9).cdw10 % 256 = 0 ∧ sb9.dev.nvmeStands 16 0 0 (sqA b9) b9 [] 2) ∧
    (sb10.dev.phase = Phase.running ∧ 2 = 2 ∧ (nvmeFields b10).cdw10 % 256 = 2 ∧ sb10.dev.nvmeStands 16 0 0 (sqA b10) b10 [] 2) ∧
    (sb11.dev.phase = Phase.running ∧ 8 = 8 ∧ (sb11.dev.nvme 16).sqs.get? ((nvmeFields b11).cdw10 % 65536) = none ∧
      (nvmeFields b11).cdw10 % 65536 ≠ 0 ∧ sb11.dev.nvmeStands 16 0 0 (sqA b11) b11 [] 8) ∧
    (sb12.dev.phase = Phase.running ∧ 12 = 12 ∧ (sb12.dev.nvme 16).events = [] ∧ sb12.dev.nvmeStands 16 0 0 (sqA b12) b12 [] 12) ∧
    (sb13.dev.phase = Phase.running ∧ adminOpcodes.contains 127 = false ∧ sb13.dev.nvmeStands 16 0 0 (sqA b13) b13 [] 127) :=
  ⟨⟨by decide +kernel, by decide +kernel, by decide +kernel, by unfold Dev.nvmeStands; decide +kernel⟩,
   ⟨by decide +kernel, by decide +kernel, by decide +kernel, by unfold Dev.nvmeStands; decide +kernel⟩,
   ⟨by decide +kernel, by decide +kernel, by decide +kernel, by decide +kernel, by decide +kernel, by decide +kernel, by decide +kernel, by decide +kernel, by decide +kernel, by unfold Dev.nvmeStands; decide +kernel⟩,
   ⟨by decide +kernel, by decide +kernel, by decide +kernel, by decide +kernel, by decide +kernel, by decide +kernel, by decide +kernel, by decide +kernel, by decide +kernel, by decide +kernel, by unfold Dev.nvmeStands; decide +kernel⟩,
   ⟨by decide +kernel, by decide +kernel, by decide +kernel, by decide +kernel, by decide +kernel, by unfold Dev.nvmeStands; decide +kernel⟩,
   ⟨by decide +kernel, by decide +kernel, by decide +kernel, by decide +kernel, by decide +kernel, by unfold Dev.nvmeStands; decide +kernel⟩,
   ⟨by decide +kernel, by decide +kernel, by decide +kernel, by unfold Dev.nvmeStands; decide +kernel⟩,
   ⟨by decide +kernel, by decide +kernel, by decide +kernel, by unfold Dev.nvmeStands; decide +kernel⟩,
   ⟨by decide +kernel, by decide +kernel, by decide +kernel, by unfold Dev.nvmeStands; decide +kernel⟩,
   ⟨by decide +kernel, by decide +kernel, by decide +kernel, by unfold Dev.nvmeStands; decide +kernel⟩,
   ⟨by decide +kernel, by decide +kernel, by decide +kernel, by decide +kernel, by unfold Dev.nvmeStands; decide +kernel⟩,
   ⟨by decide +kernel, by decide +kernel, by decide +kernel, by unfold Dev.nvmeStands; decide +kernel⟩,
   ⟨by decide +kernel, by decide +kernel, by unfold Dev.nvmeStands; decide +kernel⟩⟩

theorem meets_NvmeControllers_Nvme_io :
    sb14.dev.phase = Phase.running ∧
      (Instr.nvmeRead 16 64, 2) ∈ [(Instr.nvmeRead 16 64, 2), (Instr.nvmeWrite 16 64, 1), (Instr.nvmeFlush 16 64, 0), (Instr.nvmeWriteZeroes 16 64,
      8), (Instr.nvmeDatasetManagement 16 64, 9)] ∧ 64 ≠ 0 ∧ sb14.dev.nvmeStands 16 64 0 queue2 b14 [] 2 := ⟨by decide +kernel, by decide +kernel, by decide +kernel, by unfold Dev.nvmeStands; decide +kernel⟩

theorem meets_Scheduler_Sched :
    (sS0.dev.phase = Phase.running) ∧
    (sS0.dev.phase = Phase.running ∧ 7 < 8 ∧ 2 ^ 22 - 1 < 2 ^ 22 ∧ sS0.dev.on R.SCH_NODE_STATUS_busy = false) ∧
    (sS0.dev.phase = Phase.running ∧ 0 < 8 ∧ 0 < 2 ^ 22 ∧ sS0.dev.on R.SCH_NODE_STATUS_busy = false) ∧
    (sS1.dev.phase = Phase.running ∧ sS1.dev.sched.cmd = some cS1) := by decide +kernel

theorem meets_DmaChannels_Dma :
    (sD0.dev.phase = Phase.running ∧ 63 < 64 ∧ sD0.dev.dmaState 63 ∈ [0, 4, 5] ∧ 4096 < 65536 ∧
      (sD0.dev.canIssue (if isFnMid 4096 = true then 4096 - 4096 else sD0.dev.rd R.DMA_FUNC_function 63) = true)) ∧
    (sD0.dev.phase = Phase.running ∧ 63 < 64 ∧ sD0.dev.dmaState 63 ∈ [0, 4, 5] ∧ 1 < 65536 ∧
      (sD0.dev.canIssue (if isFnMid 1 = true then 1 - 4096 else sD0.dev.rd R.DMA_FUNC_function 63) = true)) ∧
    (sD1.dev.phase = Phase.running ∧ 63 < 64 ∧ sD1.dev.dmaState 63 ∈ [1, 2, 3]) ∧
    (sD1.dev.phase = Phase.running ∧ 63 < 64 ∧ sD1.dev.dmaState 63 = 1 ∧ (sD1.dev.chanDma 63).flight = []) ∧
    (sD2.dev.phase = Phase.running ∧ 63 < 64 ∧ sD2.dev.dmaState 63 = 2 ∧ sD2.dev.canIssue (sD2.dev.dmaFn 63) = true) ∧
    (sD2x.dev.phase = Phase.running ∧ 63 < 64 ∧ sD2x.dev.dmaState 63 = 2 ∧ sD2x.dev.canIssue (sD2x.dev.dmaFn 63) = false) ∧
    (sDq254.dev.phase = Phase.running ∧ 63 < 64 ∧ sDq254.dev.rd R.DMA_STATUS_requests 63 < 255) ∧
    (sDq255.dev.phase = Phase.running ∧ 63 < 64 ∧ sDq255.dev.rd R.DMA_STATUS_requests 63 = 255) := by decide +kernel

theorem meets_DmaChannels_Dma_fetch :
    (sF0.dev.phase = Phase.running ∧ 63 < 64 ∧ (sF0.dev.chanDma 63).fetching = some 256 ∧ (sF0.dev.chanDma 63).fetched = some ddOk ∧
      (sF0.dev.chanDma 63).descs = [] ∧ sF0.dev.dmaBad (sF0.dev.dmaOwner 63) ddOk (dmaDesc 256 ddOk) = false ∧
      ((dmaDesc 256 ddOk).dstSpace = 2 → sF0.dev.tableTakes (dmaDesc 256 ddOk).table 2)) ∧
    (sF1.dev.phase = Phase.running ∧ 63 < 64 ∧ (sF1.dev.chanDma 63).fetching = some 256 ∧ (sF1.dev.chanDma 63).fetched = some ddTab ∧
      (sF1.dev.chanDma 63).descs = [] ∧ sF1.dev.dmaBad (sF1.dev.dmaOwner 63) ddTab (dmaDesc 256 ddTab) = false ∧ (dmaDesc 256 ddTab).dstSpace = 2 ∧
      (¬sF1.dev.tableTakes (dmaDesc 256 ddTab).table 2)) ∧
    (sF2.dev.phase = Phase.running ∧ 63 < 64 ∧ (sF2.dev.chanDma 63).fetching = some 256 ∧ (sF2.dev.chanDma 63).fetched = some ddBad ∧
      (sF2.dev.chanDma 63).descs = [] ∧ sF2.dev.dmaBad (sF2.dev.dmaOwner 63) ddBad (dmaDesc 256 ddBad) = true) :=
  ⟨⟨by decide +kernel, by decide +kernel, by decide +kernel, by decide +kernel, by decide +kernel, by decide +kernel, by unfold Dev.tableTakes; decide +kernel⟩,
   ⟨by decide +kernel, by decide +kernel, by decide +kernel, by decide +kernel, by decide +kernel, by decide +kernel, by decide +kernel, by unfold Dev.tableTakes; decide +kernel⟩,
   by decide +kernel⟩

theorem meets_DmaChannels_Dma_burst :
    (sB0.dev.phase = Phase.running ∧ 63 < 64 ∧ (sB0.dev.chanDma 63).flight = [] ∧ (sB0.dev.chanDma 63).descs = [x0] ∧ x0.bad = none ∧
      x0.started < x0.length ∧ sB0.dev.spaced 63 = true ∧ sB0.dev.canIssue (sB0.dev.dmaFn 63) = true ∧ sB0.dev.on R.DMA_CTRL_paced 63 = false ∧
      sB0.dev.dmaRuns 63) ∧
    (sB1.dev.phase = Phase.running ∧ 63 < 64 ∧ sB1.dev.stp.xfers = [] ∧ (sB1.dev.chanDma 63).flight = [failedBurst1] ∧
      (sB1.dev.chanDma 63).descs = [xS] ∧ failedBurst1.failed = true ∧ sB1.dev.dmaRuns 63) ∧
    (sB2.dev.phase = Phase.running ∧ 63 < 64 ∧ sB2.dev.stp.xfers = [] ∧ (sB2.dev.chanDma 63).flight = [bu0] ∧ (sB2.dev.chanDma 63).descs = [xS] ∧
      bu0.failed = false ∧ bu0.data = some (List.replicate 64 1) ∧ xS.dstSpace = 0 ∧ sB2.dev.canIssue (sB2.dev.dmaFn 63) = true ∧ sB2.dev.dmaRuns 63) :=
  ⟨⟨by decide +kernel, by decide +kernel, by decide +kernel, by decide +kernel, by decide +kernel, by decide +kernel, by decide +kernel, by decide +kernel, by decide +kernel, by unfold Dev.dmaRuns; decide +kernel⟩,
   ⟨by decide +kernel, by decide +kernel, by decide +kernel, by decide +kernel, by decide +kernel, by decide +kernel, by unfold Dev.dmaRuns; decide +kernel⟩,
   ⟨by decide +kernel, by decide +kernel, by decide +kernel, by decide +kernel, by decide +kernel, by decide +kernel, by decide +kernel, by decide +kernel, by decide +kernel, by unfold Dev.dmaRuns; decide +kernel⟩⟩

end Work

/-! ## Ports, MAC instances, time and actions -/

namespace Ports

def withPorts (l : List (Nat × PortRec)) (im : Image) : Image := { im with sections := im.sections.map (fun s => match s.body with | .portMap _ => { s with body := .portMap l } | _ => s) }
def imgF : Image := withPorts [(0, { speed := 7, flexe := true, calB := true, slotsA := [(0, 255)], slotsB := [(0, 254)] })] img
def port (sp : Nat) (f : Dev → Dev) (im : Image := img) : State := up fun d => f { d.wr R.MAC_PORT_CFG_speed sp 0 0 with boot := { d.boot with image := some im } }
def upOn (d : Dev) : Dev := d.wr R.MAC_PORT_STATUS_up 1 0 0
def sP0 := port 3 id
def sP1 := port 3 upOn
def sP2 := port 3 (fun d => (upOn d).wr R.MAC_PORT_STATUS_flexe_lock 1 0 0)
def sP3 := port 1 (fun d => (upOn d).wr R.MAC_PORT_CFG_eee_enable 1 0 0)
def sP4 := port 3 (fun d => d.wr R.MAC_LANE_STATUS_cal_valid 1 31)
def rF : PortRec := { speed := 7, flexe := true, calB := true, slotsA := [(0, 255)], slotsB := [(0, 254)] }
def sP5 := port 7 upOn imgF
def sP6 := port 7 (fun d => (upOn d).wr R.MAC_PORT_STATUS_switch_busy 1 0 0) imgF
def mac (x : Mac) (f : Dev → Dev := id) : State := port 3 fun d => f { (upOn d).wr R.MAC_INST_STATE_up 1 0 0 with macs := { entries := [(0, x)] } }
def tx7 : TxFrame := { cls := 7, bytes := frame60 }
def sM0 := mac { fifo := [{ tx7 with cls := 0 }, tx7] }
def otherFrames1 : List TxFrame := [{ tx7 with cls := 0 }]
def sM1 := mac { fifo := [tx7] } (fun d => d.wr R.MAC_INST_STATE_paused 128 0 0)
def txL : TxFrame := { tx7 with cls := 1 }
def sM2 := mac { launch := [tx7, txL] } (fun d => d.wr R.MAC_INST_STATE_paused 128 0 0)
def hon (md : Nat) (d : Dev) : Dev := (d.wr R.MAC_INST_CFG_rx_honour 1 0 0).wr R.MAC_INST_CFG_fc_mode md 0 0
def sM3 := mac {} (hon 1)
def sM4 := mac {} (fun d => d.wr R.MAC_INST_CFG_rx_honour 0 0 0)
def sM5 := mac {} (fun d => (hon 2 d).wr R.MAC_INST_CFG_pfc_classes 0xC0 0 0)
def itX : Item := { kind := 1, bytes := frame60, parse := { tc := 7 } }
def sM6 := mac { rx := [itX] } (fun d => (((hon 2 d).wr R.MAC_INST_CFG_tx_generate 1 0 0).wr R.MAC_INST_STATE_xoff_sent 128 0 0).wr R.MAC_INST_PFC_xon 0 0 0)
def sM7 := mac { fifo := [tx7, txL], pausedAt := { entries := [(7, 5)] }, lastPause := { entries := [(7, 5)] } } (fun d => ((((hon 2 d).wr R.MAC_INST_STATE_paused 128 0 0).wr R.MAC_INST_PFC_watchdog_ms 10 0 0).wr R.TMP_UPTIME_MS_value 15).wr R.MAC_INST_STATE_storm 128 0 0)
def sM8 := mac { lastPause := { entries := [(7, 5)] } } (fun d => ((((hon 2 d).wr R.MAC_INST_STATE_paused 128 0 0).wr R.MAC_INST_PFC_watchdog_ms 10 0 0).wr R.TMP_UPTIME_MS_value 13).wr R.MAC_INST_STATE_storm 128 0 0)
def sM9 := mac {} (fun d => d.countMac 0 31 (2 ^ 33 + 5))
def sT0 : State := up
def sT1 : State := up fun d => { (d.wr R.TMP_STATUS_ref_lost 1) with tempo := { lead := { base := 5 } } }
def sT2 : State := up fun d => { (d.wr R.TMP_DOM_ALARM_anchor_timeout_ms 1 0 128) with tempo := { follow := { age := 1000001 } } }
def sT3 : State := up fun d => (d.wr R.TMP_DOM_SET_NS_value 999999999 0 128).wr R.TMP_DOM_SET_SEC_HI_value 65535 0 128
def sT4 : State := up fun d => (d.wr R.TMP_DOM_SET_NS_value 1000000000 0 128)
def sT5 : State := up fun d => { (d.wr R.TMP_DOM_UNC_valid 1 0 128).wr R.TMP_DOM_ADJ_value 0x80000000 0 128 with tempo := { follow := { sec := 1, ns := 5, frac := 9 } } }
def slotS (kind : Nat) (f : Dev → Dev) : State := up fun d => f ((((((d.wr R.TMP_SLOT_CFG_kind kind 0 (64 * 127)).wr R.TMP_DOM_UNC_valid 1 0 0).wr R.TMP_PIN_CFG_dir 2 0 0).wr R.TMP_SLOT_WIDTH_value 8 0 (64 * 127)).wr R.TMP_SLOT_PERIOD_value 100 0 (64 * 127)).wr R.TMP_SLOT_START_NS_value 500 0 (64 * 127))
def sK0 := slotS 2 (fun d => d.wr R.TMP_SLOT_PERIOD_value 99 0 (64 * 127))
def sK1 := slotS 2 id
def sK1b := slotS 3 id
def sK2 := slotS 1 id
def sK2b := slotS 1 (fun d => { d with tempo := { lead := { ns := 500 } } })
def armed (kind : Nat) (f : Dev → Dev := id) : State := slotS kind fun d => f { d.setSlotState 127 1 with tempo := { d.tempo with slots := { entries := [(127, { kind := kind, period := 100, next := 500, width := 8 })] } } }
def sK3 := armed 1
def sK4 := armed 2
def sK3b := armed 1 (fun d => { d.wr R.TMP_DOM_UNC_valid 1 0 128 with tempo := { d.tempo with follow := { ns := 77 } } })
def puls : State := up fun d => { d.wr R.TMP_PIN_CFG_dir 2 0 12 with tempo := { slots := { entries := [(127, { pulsing := true, pulsePin := 3 })] } } }
def slew (o : Int) : State := up fun d => { d.wr R.TMP_SLOT_STATUS_slewing 1 0 (64 * 127) with tempo := { slots := { entries := [(127, { offset := o })] } } }
def sK5 := slew 0
def sK6 := slew (-1)
def txDesc (len flags op : Nat) : Desc := { seq := 59, bytes := le 0x1000 8 ++ le (len + 2 ^ 24 * flags) 4 ++ le op 4 ++ le 0 16 }
def itemG : Item := { source := 5, descs := [txDesc 64 3 0], stage := .gated, position := 0, bytes := List.replicate 64 9, fn := 0, verdict := { macInst := some 0 } }
def sG1 (it : Item) (f : Dev → Dev := id) : State := port 3 fun d => f (withItem 3 it (withRing 5 ringT (((upOn d).wr R.MAC_INST_STATE_up 1 0 0).wr R.MAC_INST_STATE_formed 1 0 0)))
def itemGo : Item := { itemG with gen := 9 }
def sGo := sG1 itemGo
def sGf := sG1 itemG
def itemGL : Item := { itemG with launch := some { slot := 0, domain := some 0, time := 0 } }
def sGn := sG1 itemGL (fun d => { d with macs := { entries := [(0, { launch := List.replicate 16 tx7 })] } })
def itemLate : Item := { itemG with launch := some { slot := 0, domain := some 0, time := 1001 } }
def sGl := sG1 itemLate
def pinS (l : Option Bool) (iv : Bool) : State := up fun d => { (d.wr R.TMP_PIN_CFG_dir 1 0 12).wr R.TMP_PIN_CFG_edge 3 0 12 with tempo := { pins := { entries := [(3, { level := l, interval := iv, coalesced := 2 })] } } }
def sT6 := pinS (some true) false
def sT7 := pinS (some false) false
def sT8 := pinS (some false) true
def sT9 := pinS none false

theorem meets_PortsAndInstances_Ports :
    (sP0.dev.phase = Phase.running ∧ sP0.dev.portSpeed 0 ≠ 0 ∧ sP0.dev.on R.MAC_PORT_STATUS_up 0 (16 * 0) = false ∧ sP0.dev.portSane 0) ∧
    (sP1.dev.phase = Phase.running ∧ sP1.dev.on R.MAC_PORT_STATUS_up 0 (16 * 0) = true ∧ sP1.dev.portSane 0) ∧
    (sP2.dev.phase = Phase.running ∧ sP2.dev.on R.MAC_PORT_STATUS_up 0 (16 * 0) = true ∧ sP2.dev.on R.MAC_PORT_STATUS_flexe_lock 0 (16 * 0) = true ∧
      sP2.dev.portSane 0) ∧
    (sP3.dev.phase = Phase.running ∧ sP3.dev.on R.MAC_PORT_STATUS_up 0 (16 * 0) = true ∧ sP3.dev.on R.MAC_PORT_CFG_eee_enable 0 (16 * 0) = true ∧
      sP3.dev.portSpeed 0 = 1 ∧ sP3.dev.on R.MAC_PORT_STATUS_lpi_tx 0 (16 * 0) = false ∧ (∀ m ∈ sP3.dev.instancesOf 0, (sP3.dev.mac m).fifo = [] ∧
      (sP3.dev.mac m).launch = []) ∧ sP3.dev.timedWaiting 0 = false ∧ sP3.dev.portSane 0) :=
  ⟨⟨by decide +kernel, by decide +kernel, by decide +kernel, by unfold Dev.portSane; decide +kernel⟩,
   ⟨by decide +kernel, by decide +kernel, by unfold Dev.portSane; decide +kernel⟩,
   ⟨by decide +kernel, by decide +kernel, by decide +kernel, by unfold Dev.portSane; decide +kernel⟩,
   ⟨by decide +kernel, by decide +kernel, by decide +kernel, by decide +kernel, by decide +kernel, by decide +kernel, by decide +kernel, by unfold Dev.portSane; decide +kernel⟩⟩

theorem meets_PortsAndInstances_Lanes :
    (sP0.dev.phase = Phase.running ∧ 0 < 32 ∧ (sP0.dev.portOfLane 0).isSome = true ∧ sP0.dev.portSane 0) ∧
    (sP4.dev.phase = Phase.running ∧ 31 < 32 ∧ sP4.dev.on R.MAC_LANE_STATUS_cal_valid 31 = true ∧ 250 < 251 ∧ sP4.dev.portSane 0) ∧
    (sP4.dev.phase = Phase.running ∧ 31 < 32 ∧ sP4.dev.on R.MAC_LANE_STATUS_cal_valid 31 = true ∧ 250 ≤ 250 ∧ sP4.dev.portSane 0) :=
  ⟨⟨by decide +kernel, by decide +kernel, by decide +kernel, by unfold Dev.portSane; decide +kernel⟩,
   ⟨by decide +kernel, by decide +kernel, by decide +kernel, by decide +kernel, by unfold Dev.portSane; decide +kernel⟩,
   ⟨by decide +kernel, by decide +kernel, by decide +kernel, by decide +kernel, by unfold Dev.portSane; decide +kernel⟩⟩

theorem meets_PortsAndInstances_FlexE :
    (sP5.dev.phase = Phase.running ∧ sP5.dev.portRec 0 = some rF ∧ rF.flexe = true ∧ rF.calB = true ∧
      sP5.dev.on R.MAC_PORT_STATUS_switch_busy 0 (16 * 0) = false ∧ sP5.dev.portSane 0) ∧
    (sP6.dev.phase = Phase.running ∧ sP6.dev.on R.MAC_PORT_STATUS_switch_busy 0 (16 * 0) = true ∧ sP6.dev.portSane 0) ∧
    (sP6.dev.phase = Phase.running ∧ sP6.dev.on R.MAC_PORT_STATUS_switch_busy 0 (16 * 0) = true ∧ sP6.dev.on R.MAC_PORT_STATUS_up 0 (16 * 0) = true ∧
      sP6.dev.portSane 0 ∧ (∀ (m : ℕ) (b : Bool), m ∈ sP6.dev.instancesUnder 0 b → m < 256)) :=
  ⟨⟨by decide +kernel, by decide +kernel, by decide +kernel, by decide +kernel, by decide +kernel, by unfold Dev.portSane; decide +kernel⟩,
   ⟨by decide +kernel, by decide +kernel, by unfold Dev.portSane; decide +kernel⟩,
   ⟨by decide +kernel, by decide +kernel, by decide +kernel, by unfold Dev.portSane; decide +kernel, by intro m b h; revert h; revert m; cases b <;> decide +kernel⟩⟩

theorem meets_PortsAndInstances_Instances :
    (sM0.dev.phase = Phase.running ∧ 0 < 256 ∧ 7 < 8 ∧ sM0.dev.macUp 0 = true ∧ takeClass 7 (sM0.dev.mac 0).fifo = some (tx7, otherFrames1) ∧
      sM0.dev.paused 0 7 = false ∧ sM0.dev.launchClear 0 tx7.bytes = true) ∧
    (sM1.dev.phase = Phase.running ∧ 0 < 256 ∧ 7 < 8 ∧ sM1.dev.macUp 0 = true ∧ sM1.dev.paused 0 7 = true) ∧
    (sM2.dev.phase = Phase.running ∧ 0 < 256 ∧ 0 < 8 ∧ sM2.dev.macUp 0 = true ∧
      (List.find? (fun f => !sM2.dev.paused 0 f.cls) (sM2.dev.mac 0).launch = some txL)) := by decide +kernel

theorem meets_PortsAndInstances_Pause :
    (sM3.dev.phase = Phase.running ∧ 0 < 256 ∧ 0 < 8 ∧ sM3.dev.macUp 0 = true ∧ 65535 < 65536 ∧
      sM3.dev.on R.MAC_INST_CFG_rx_honour 0 (16 * 0) = true ∧ sM3.dev.fcMode 0 = 1 ∧ sM3.dev.rd R.MAC_INST_STATE_storm 0 (4 * 0) = 0) ∧
    (sM3.dev.phase = Phase.running ∧ 0 < 256 ∧ 0 < 8 ∧ sM3.dev.macUp 0 = true ∧ 0 < 65536 ∧ sM3.dev.on R.MAC_INST_CFG_rx_honour 0 (16 * 0) = true ∧
      sM3.dev.fcMode 0 = 1 ∧ sM3.dev.rd R.MAC_INST_STATE_storm 0 (4 * 0) = 0) ∧
    (sM4.dev.phase = Phase.running ∧ 0 < 256 ∧ 0 < 8 ∧ sM4.dev.macUp 0 = true ∧ sM4.dev.on R.MAC_INST_CFG_rx_honour 0 (16 * 0) = false) ∧
    (sM5.dev.phase = Phase.running ∧ 0 < 256 ∧ 0 < 8 ∧ sM5.dev.macUp 0 = true ∧ sM5.dev.on R.MAC_INST_CFG_rx_honour 0 (16 * 0) = true ∧
      sM5.dev.fcMode 0 = 2 ∧ sM5.dev.rd R.MAC_INST_STATE_storm 0 (4 * 0) = 0) ∧
    (sM6.dev.phase = Phase.running ∧ 0 < 256 ∧ 7 < 8 ∧ sM6.dev.macUp 0 = true ∧ sM6.dev.xoffSent 0 7 = true ∧
      sM6.dev.on R.MAC_INST_CFG_tx_generate 0 (16 * 0) = true ∧ sM6.dev.xonAt 0 < sM6.dev.waitingOf 0 7) ∧
    (sM1.dev.phase = Phase.running ∧ 0 < 256 ∧ 7 < 8 ∧ sM1.dev.fcMode 0 ≠ 1) ∧
    (sM7.dev.phase = Phase.running ∧ 0 < 256 ∧ 7 < 8 ∧ sM7.dev.paused 0 7 = true ∧ sM7.dev.rd R.MAC_INST_PFC_watchdog_ms 0 (16 * 0) ≠ 0 ∧
      sM7.dev.watchdogRan 0 ((sM7.dev.mac 0).pausedAt.getD 7 0) = true) ∧
    (sM7.dev.phase = Phase.running ∧ 0 < 256 ∧ 7 < 8 ∧ sM7.dev.watchdogRan 0 ((sM7.dev.mac 0).lastPause.getD 7 0) = true) ∧
    (sM8.dev.phase = Phase.running ∧ 0 < 256 ∧ 7 < 8 ∧ sM8.dev.fcMode 0 ≠ 1 ∧ sM8.dev.watchdogRan 0 ((sM8.dev.mac 0).lastPause.getD 7 0) = false) := by decide +kernel

theorem meets_PortsAndInstances_Counter :
    sM9.dev.phase = Phase.running ∧ 0 < 256 ∧ 7 < 8 ∧ 31 < 32 ∧ sM9.dev.macCount 0 31 < 2 ^ 64 := by decide +kernel

theorem meets_TimeAndActions_Time :
    (sT0.dev.phase = Phase.running ∧ 0 < 2) ∧
    (sT0.dev.phase = Phase.running ∧ 1 < 2) ∧
    (sT0.dev.phase = Phase.running ∧ 1 < 2 ∧ sT0.dev.on R.TMP_STATUS_ref_lost = false) ∧
    (sT1.dev.phase = Phase.running ∧ 0 < 2 ∧ sT1.dev.on R.TMP_STATUS_ref_lost = true) ∧
    (sT1.dev.phase = Phase.running ∧ 0 < 2) ∧
    (sT1.dev.phase = Phase.running ∧ 0 < 2 ∧ sT1.dev.anchorOld 0 = false) ∧
    (sT2.dev.phase = Phase.running ∧ 1 < 2 ∧ sT2.dev.on R.TMP_DOM_UNC_holdover 0 (128 * 1) = false ∧ sT2.dev.anchorOld 1 = true) ∧
    (sT2.dev.phase = Phase.running ∧ 1 < 2 ∧ 255 < 256) ∧
    (sT2.dev.phase = Phase.running ∧ 0 < 2 ∧ 0 < 256) ∧
    (sT3.dev.phase = Phase.running ∧ 1 < 2 ∧ sT3.dev.rd R.TMP_DOM_SET_NS_value 0 (128 * 1) < 1000000000) ∧
    (sT4.dev.phase = Phase.running ∧ 1 < 2 ∧ 1000000000 ≤ sT4.dev.rd R.TMP_DOM_SET_NS_value 0 (128 * 1)) ∧
    (sT5.dev.phase = Phase.running ∧ 1 < 2 ∧ sT5.dev.domValid 1 = true) ∧
    (sT5.dev.phase = Phase.running ∧ 1 < 2 ∧ 65535 < 65536) ∧
    (sT5.dev.phase = Phase.running ∧ 1 < 2) := by decide +kernel

theorem meets_TimeAndActions_Slots :
    (sK0.dev.phase = Phase.running ∧ 127 < 128 ∧ sK0.dev.rd R.TMP_SLOT_CFG_kind 0 (64 * 127) ≠ 0 ∧
      sK0.dev.on R.TMP_SLOT_STATUS_slewing 0 (64 * 127) = false ∧ sK0.dev.badArm 127 (sK0.dev.rd R.TMP_SLOT_CFG_source 0 (64 * 127)) = true) ∧
    (sK1.dev.phase = Phase.running ∧ 127 < 128 ∧ sK1.dev.rd R.TMP_SLOT_CFG_kind 0 (64 * 127) ≠ 0 ∧
      sK1.dev.on R.TMP_SLOT_STATUS_slewing 0 (64 * 127) = false ∧ sK1.dev.badArm 127 (sK1.dev.rd R.TMP_SLOT_CFG_source 0 (64 * 127)) = false ∧
      sK1.dev.rd R.TMP_SLOT_CFG_kind 0 (64 * 127) ≠ 1) ∧
    (sK1b.dev.phase = Phase.running ∧ 127 < 128 ∧ sK1b.dev.rd R.TMP_SLOT_CFG_kind 0 (64 * 127) ≠ 0 ∧
      sK1b.dev.on R.TMP_SLOT_STATUS_slewing 0 (64 * 127) = false ∧ sK1b.dev.badArm 127 (sK1b.dev.rd R.TMP_SLOT_CFG_source 0 (64 * 127)) = false ∧
      sK1b.dev.rd R.TMP_SLOT_CFG_kind 0 (64 * 127) ≠ 1) ∧
    (sK2.dev.phase = Phase.running ∧ 127 < 128 ∧ sK2.dev.rd R.TMP_SLOT_CFG_kind 0 (64 * 127) ≠ 0 ∧
      sK2.dev.on R.TMP_SLOT_STATUS_slewing 0 (64 * 127) = false ∧ sK2.dev.badArm 127 (sK2.dev.rd R.TMP_SLOT_CFG_source 0 (64 * 127)) = false ∧
      sK2.dev.rd R.TMP_SLOT_CFG_kind 0 (64 * 127) = 1 ∧ (sK2.dev.slot 127).offset = 0 ∧ sK2.dev.rd R.TMP_SLOT_CFG_source 0 (64 * 127) < 2 ∧
      (sK2.dev.dom (sK2.dev.rd R.TMP_SLOT_CFG_source 0 (64 * 127))).frac < 2 ^ 32) ∧
    (sK2b.dev.phase = Phase.running ∧ 127 < 128 ∧ sK2b.dev.rd R.TMP_SLOT_CFG_kind 0 (64 * 127) ≠ 0 ∧
      sK2b.dev.on R.TMP_SLOT_STATUS_slewing 0 (64 * 127) = false ∧ sK2b.dev.badArm 127 (sK2b.dev.rd R.TMP_SLOT_CFG_source 0 (64 * 127)) = false ∧
      sK2b.dev.rd R.TMP_SLOT_CFG_kind 0 (64 * 127) = 1 ∧ (sK2b.dev.slot 127).offset = 0 ∧ sK2b.dev.rd R.TMP_SLOT_CFG_source 0 (64 * 127) < 2 ∧
      (sK2b.dev.dom (sK2b.dev.rd R.TMP_SLOT_CFG_source 0 (64 * 127))).frac < 2 ^ 32) ∧
    (sK3.dev.phase = Phase.running ∧ 127 < 128 ∧ sK3.dev.slotState 127 = 1) ∧
    (sK3.dev.phase = Phase.running ∧ 127 < 128 ∧ sK3.dev.slotState 127 = 1 ∧ 0 < 2 ∧ sK3.dev.domValid 0 = true ∧
      (sK3.dev.slotFine 127 - sK3.dev.fine 0).natAbs < 2 ^ 31 * 1000000000) ∧
    (sK3b.dev.phase = Phase.running ∧ 127 < 128 ∧ sK3b.dev.slotState 127 = 1 ∧ 1 < 2 ∧ sK3b.dev.domValid 1 = true ∧
      (sK3b.dev.slotFine 127 - sK3b.dev.fine 1).natAbs < 2 ^ 31 * 1000000000) ∧
    (sK3.dev.phase = Phase.running ∧ 127 < 128 ∧ sK3.dev.slotState 127 = 1 ∧ 1 < 2 ∧ sK3.dev.domValid 1 = false) ∧
    (sK3.dev.phase = Phase.running ∧ 127 < 128 ∧ sK3.dev.slotState 127 = 1 ∧ (sK3.dev.slot 127).kind = 1) ∧
    (sK4.dev.phase = Phase.running ∧ 127 < 128 ∧ sK4.dev.slotState 127 = 1 ∧ (sK4.dev.slot 127).kind = 2) ∧
    (puls.dev.phase = Phase.running ∧ 127 < 128 ∧ (puls.dev.slot 127).pulsing = true) ∧
    (sK5.dev.phase = Phase.running ∧ 127 < 128 ∧ sK5.dev.on R.TMP_SLOT_STATUS_slewing 0 (64 * 127) = true ∧ (sK5.dev.slot 127).offset = 0) ∧
    (sK6.dev.phase = Phase.running ∧ 127 < 128 ∧ (sK6.dev.slot 127).offset ≠ 0) :=
  ⟨by decide +kernel,
   by decide +kernel,
   by decide +kernel,
   by decide +kernel,
   by decide +kernel,
   by decide +kernel,
   by decide +kernel,
   by decide +kernel,
   by decide +kernel,
   by decide +kernel,
   by decide +kernel,
   by decide +kernel,
   by decide +kernel,
   by decide +kernel⟩

theorem meets_TimeAndActions_Gate :
    (sGo.dev.phase = Phase.running ∧ 0 < 128 ∧ sGo.dev.item? 3 = some itemGo ∧ itemGo.stage = Stage.gated ∧
      Option.all sGo.dev.gateOpen itemGo.launch = true ∧ sGo.dev.ring? itemGo.source = some ringT ∧ sGo.dev.stale itemGo = true) ∧
    (sGf.dev.phase = Phase.running ∧ 0 < 128 ∧ sGf.dev.item? 3 = some itemG ∧ itemG.stage = Stage.gated ∧
      Option.all sGf.dev.gateOpen itemG.launch = true ∧ sGf.dev.ring? itemG.source = some ringT ∧ sGf.dev.stale itemG = false ∧ itemG.espOf = none ∧
      itemG.tlsOf = none ∧
      ((sGf.dev.onItem 3 fun it => { it with stage := Stage.retiring, launched := true }).planTx { itemG with stage := Stage.retiring, launched :=
      true } (ringT.sopFields itemG.descs) itemG.bytes = Plan.frames 0 [List.replicate 64 9]) ∧
      ((sGf.dev.onItem 3 fun it => { it with stage := Stage.retiring, launched := true }).lineRoom 0 itemG.parse.tc itemG.launch.isSome
      [List.replicate 64 9] = true)) ∧
    (sGn.dev.phase = Phase.running ∧ 0 < 128 ∧ sGn.dev.item? 3 = some itemGL ∧ itemGL.stage = Stage.gated ∧
      Option.all sGn.dev.gateOpen itemGL.launch = true ∧ sGn.dev.ring? itemGL.source = some ringT ∧ sGn.dev.stale itemGL = false ∧
      itemGL.espOf = none ∧ itemGL.tlsOf = none ∧
      ((sGn.dev.onItem 3 fun it => { it with stage := Stage.retiring, launched := true }).planTx { itemGL with stage := Stage.retiring, launched :=
      true } (ringT.sopFields itemGL.descs) itemGL.bytes = Plan.frames 0 [List.replicate 64 9]) ∧
      ((sGn.dev.onItem 3 fun it => { it with stage := Stage.retiring, launched := true }).lineRoom 0 itemGL.parse.tc itemGL.launch.isSome
      [List.replicate 64 9] = false)) ∧
    (sGl.dev.phase = Phase.running ∧ 0 < 128 ∧ sGl.dev.item? 3 = some itemLate ∧ Option.all sGl.dev.gateOpen itemLate.launch = false) := by decide +kernel

theorem meets_TimeAndActions_Pins :
    (sT6.dev.phase = Phase.running ∧ 0 < 128 ∧ 3 < 4 ∧ (sT6.dev.timePin 3).level = some (true == sT6.dev.on R.TMP_PIN_CFG_polarity 0 (4 * 3))) ∧
    (sT7.dev.phase = Phase.running ∧ 0 < 128 ∧ 3 < 4 ∧ sT7.dev.rd R.TMP_PIN_CFG_dir 0 (4 * 3) = 1 ∧ sT7.dev.rd R.TMP_PIN_CFG_edge 0 (4 * 3) = 3 ∧
      (sT7.dev.timePin 3).interval = false ∧ (sT7.dev.timePin 3).level ≠ some (true == sT7.dev.on R.TMP_PIN_CFG_polarity 0 (4 * 3))) ∧
    (sT9.dev.phase = Phase.running ∧ 0 < 128 ∧ 3 < 4 ∧ sT9.dev.rd R.TMP_PIN_CFG_dir 0 (4 * 3) = 1 ∧ sT9.dev.rd R.TMP_PIN_CFG_edge 0 (4 * 3) = 3 ∧
      (sT9.dev.timePin 3).interval = false ∧ (sT9.dev.timePin 3).level ≠ some (true == sT9.dev.on R.TMP_PIN_CFG_polarity 0 (4 * 3))) ∧
    (sT8.dev.phase = Phase.running ∧ 0 < 128 ∧ 3 < 4 ∧ (sT8.dev.timePin 3).interval = true) ∧
    (sT8.dev.phase = Phase.running ∧ 0 < 128 ∧ 3 < 4) := by decide +kernel

end Ports

/-! ## Partner channels, the event matrix, registers, rings and Tenants -/

namespace Setup

def rg (r : Ring) : Ring := { r with group := 1, slot := 3 }
def msg (words : List Nat) (len : Nat) (seq : Nat := 1) : Msg := { words := words, len := len, seq := seq }
def ask (kind : Nat) (l : List Nat) (f : Dev → Dev := id) (fn : Nat := 0) : State :=
  up fun d => f { d with chans := { entries := [(requestChannel fn, { held := some (msg ((kind + 65536 * 7) :: l) 64 )})] } }
def words (kind : Nat) (l : List Nat) : List Nat := (kind + 65536 * 7) :: l
def vf0 (f : Func → Func := id) (d : Dev) : Dev := { d with funcs := { entries := [(0, { fn0 with vfEnable := true, numVfs := 1 }), (16, f fn0)] } }
def sC0 := up
def stage (c : Nat) (d : Dev) : Dev := { d with chans := { entries := [(c, { })] } }
def sC1 := up fun d => { d with chans := { entries := [(16384, { held := some (msg [5, 6] 8 9) })] } }
def sC2 := up fun d => { (d.wr R.MBX_RX_STATUS_seq 9 0 (256 * 16385)) with chans := { entries := [(16385, { held := some (msg [5, 6] 8 9), viewEmpty := false })] } }
def sE0 := up fun d => (d.wr R.EVT_ROUTE_enable 1 0 (4 * 374)).wr R.EVT_ROUTE_enable 1 0 (4 * 383)
def w12_1 : State := up fun d => (d.wr R.EVT_ROUTE_enable 1 0 (4 * 374)).onRoute 0 374 (fun r => { r with pending := true, inService := true })
def pend (src : Nat) (lvl : Nat) (r : Route) (f : Dev → Dev := id) : State := up fun d => f ((((d.wr R.EVT_ROUTE_enable 1 0 (4 * src)).wr R.EVT_ROUTE_level lvl 0 (4 * src)).wr R.EVT_ROUTE_vector 63 0 (4 * src)).onRoute 0 src (fun _ => { r with pending := true }))
def unmask (d : Dev) : Dev := d.onFn 0 (fun f => { f with vecs := ({} : NMap Vec).set 63 { masked := false } })
def w12_2 : State := pend 374 0 {} unmask
def w12_3 : State := pend 0 0 {} unmask
def w12_4 : State := pend 374 0 {}
def w12_5 : State := pend 0 1 {} unmask
def w12_6 : State := pend 0 1 { sent := 5 } (fun d => (unmask d).wr R.EVT_STORM_LIMIT_storm_max 5)
def w12_7 : State := pend 0 1 { inService := true } (fun d => (d.wr R.MBX_CAUSE_wrong_mid 1))
def w12_8 : State := pend 0 1 { sent := 5, withheld := true }
def held1 : State := {}
def w12_9 : State := up fun d => { d with boot := { d.boot with logFull := [0] } }
def noReach (im : Image) : Image := { im with sections := im.sections.map (fun s => match s.body with | .identity _ => { s with body := .identity { pfs := [(0, { pf0 with reach := 0 })] } } | _ => s) }
def withImg (g : Image → Image) (d : Dev) : Dev := { d with boot := { d.boot with image := d.boot.image.map g } }
def w12_10 : State := up fun d => d.wr (fltCauses.bit 9) 1
def grp (d : Dev) : Dev := { d with groups := { entries := [(5, { fn := 0, page := 2 })] } }
def group1 : Group := { fn := 0, page := 2 }
def ringW : List Nat := [0x1000, 1, 0x2000, 2, 16 + 32 * 1 + 2^10 + 63 * 2 ^ 16, 0, 5 + 255 * 2 ^ 18, 0xFFFFF, 0xFFFFFFFF, 0x1FFFF, 0xFF, 0]
def ringX (r : Ring) : State → State := fun s => { s with dev := withRing 6 { r with group := 1, slot := 3 } s.dev }
def exc (d : Dev) : Dev := (d.wr R.PPL_PORT_EXC_exception_valid 1 0 (16*255)).wr R.PPL_PORT_EXC_exception_ring 6 0 (16*255)
def rD : Ring := { ringT with state := .disabled }
def w12_11 : State := ringX rD (ask 4 [6] (fun d => d.onFn 0 (fun f => { f with busMaster := false })))
def w12_12 : State := ringX { ringT with nextSeq := 60 } (ask 5 [6])
def w12_13 : Ring := rg { ringT with nextSeq := 60 }
def w12_14 : State := ringX { ringT with stopping := true, state := .error } (ask 5 [6])
def w12_15 : Ring := rg { ringT with stopping := true, state := .error }
def rA : Ring := { ringT with accepted := [{ seq := 60, bytes := List.replicate 32 0 }] }
def rE : Ring := { ringT with state := .error }
def w12_16 : State := ringX rE (ask 6 [6] (fun d => d.onFn 0 (fun f => { f with busMaster := false })))
def w12_17 : State := ask 17 [16] (fun d => { d with tenants := { entries := [(16, 0)] } })
def w12_18 : State := ask 17 [16] (fun d => vf0 (fun f => { f with tenant := 16 }) { d with tenants := { entries := [(16, 0)] } })
def w12_19 : State := ask 18 [16, 17] (fun d => vf0 (fun f => f) { d with tenants := { entries := [(17, 0)] } })
def props : List Nat := [16 + 1 * 2 ^ 14, 0x11223344, 0x5566, 0, 0, 0, 0, 0, 0, 0, 0, 100, 10, 1000, 0]
def w12_20 : State := up (vf0 (fun f => { f with reset := .draining }))
def w12_21 : State := up (fun d => vf0 (fun f => { f with reset := .draining }) { d with drains := { entries := [(16, 5)] } })
def w12_22 : State := ask 0x34 [] (fun d => { d with epilogues := { entries := [(0, { cause := 1, ready := true, sent := true, retired := 77, failed := 1 })] } })
def epilogue1 : Epilogue := { cause := 1, ready := true, sent := true, retired := 77, failed := 1 }

theorem meets_PartnerChannels_Channels :
    (up.dev.phase = Phase.running ∧ 16384 < 18432 ∧ up.dev.binding 16384 = some (4096, 1) ∧ (isFnMid 1 = true ∨ isCoreMid 1 = true) ∧ 0 < 64 ∧
      64 ≤ 64 ∧ (up.dev.chan 16384).held = none) ∧
    (up.dev.phase = Phase.running ∧ 16384 < 18432 ∧ up.dev.binding 16384 = some (4096, 1) ∧ (isFnMid 1 = true ∨ isCoreMid 1 = true) ∧ 0 < 1 ∧
      1 ≤ 64 ∧ (up.dev.chan 16384).held = none) ∧
    (up.dev.phase = Phase.running ∧ 16385 < 18432 ∧ up.dev.binding 16385 = some (1, 4096) ∧ (isFnMid 4096 = true ∨ isCoreMid 4096 = true) ∧ 0 < 3 ∧
      3 ≤ 64 ∧ (up.dev.chan 16385).held = none) ∧
    (sC1.dev.phase = Phase.running ∧ 16384 < 18432 ∧ sC1.dev.binding 16384 = some (4096, 1) ∧ (isFnMid 1 = true ∨ isCoreMid 1 = true) ∧ 0 < 64 ∧
      64 ≤ 64 ∧ (sC1.dev.chan 16384).held = some (msg [5, 6] 8 9)) ∧
    (sC1.dev.phase = Phase.running ∧ 16384 < 18432 ∧ sC1.dev.binding 16384 = some (4096, 1) ∧ (0 = 0 ∨ 64 < 0)) ∧
    (sC1.dev.phase = Phase.running ∧ 16384 < 18432 ∧ sC1.dev.binding 16384 = some (4096, 1) ∧ (65 = 0 ∨ 64 < 65)) ∧
    (sC1.dev.phase = Phase.running ∧ 16384 < 18432 ∧ sC1.dev.binding 16384 = some (4096, 1) ∧ 4096 ≠ 4097) ∧
    (sC1.dev.phase = Phase.running ∧ 16384 < 18432 ∧ sC1.dev.binding 16384 = some (4096, 1) ∧ 1 ≠ 4096) ∧
    (sC1.dev.phase = Phase.running ∧ 16384 < 18432 ∧ sC1.dev.binding 16384 = some (4096, 1) ∧ (sC1.dev.chan 16384).held = some (msg [5, 6] 8 9)) ∧
    (sC2.dev.phase = Phase.running ∧ 16385 < 18432 ∧ sC2.dev.binding 16385 = some (1, 4096) ∧ (sC2.dev.chan 16385).held = some (msg [5, 6] 8 9) ∧
      (sC2.dev.chan 16385).viewEmpty = false ∧ sC2.dev.rd R.MBX_RX_STATUS_seq 0 (256 * 16385) = (msg [5, 6] 8 9).seq ∧
      (∀ (fn : ℕ), 4096 = midFn fn → (sC2.dev.fn fn).outbox = [])) ∧
    (sC0.dev.phase = Phase.running ∧ 16385 < 18432 ∧ sC0.dev.binding 16385 = some (1, 4096) ∧ (sC0.dev.chan 16385).held = none) :=
  ⟨by decide +kernel,
   by decide +kernel,
   by decide +kernel,
   by decide +kernel,
   by decide +kernel,
   by decide +kernel,
   by decide +kernel,
   by decide +kernel,
   by decide +kernel,
   ⟨by decide +kernel, by decide +kernel, by decide +kernel, by decide +kernel, by decide +kernel, by decide +kernel, by intro fn h; obtain rfl : fn = 0 := (by unfold midFn at h; omega); decide +kernel⟩,
   by decide +kernel⟩

theorem meets_EventMatrix_Matrix :
    (sE0.dev.phase = Phase.running ∧ 0 < 16 ∧ 9 < 10 ∧ hasBit 512 9 = true ∧ 0 ∈ sE0.dev.pfs ∧ sE0.dev.routeIs 0 (374 + 9) false) ∧
    (sE0.dev.phase = Phase.running ∧ 0 < 16 ∧ 0 < 10 ∧ hasBit 1023 0 = true ∧ 0 ∈ sE0.dev.pfs ∧ sE0.dev.routeIs 0 (374 + 0) false) ∧
    (sE0.dev.phase = Phase.running ∧ 0 < 16 ∧ 383 < 384 ∧ (sE0.dev.pf? 0).isSome = true) ∧
    (sE0.dev.phase = Phase.running ∧ 0 < 16 ∧ 0 < 384 ∧ (sE0.dev.pf? 0).isSome = true) ∧
    (sE0.dev.phase = Phase.running ∧ 0 < 16 ∧ 63 < 384 ∧ (sE0.dev.pf? 0).isSome = true) ∧
    (w12_1.dev.phase = Phase.running ∧ 0 < 16 ∧ 374 < 384 ∧ (w12_1.dev.pf? 0).isSome = true ∧ bit 5 11 = 0) ∧
    (w12_2.dev.phase = Phase.running ∧ 0 < 16 ∧ (w12_2.dev.route 0 374).pending = true ∧
      w12_2.dev.vectorLost 0 (w12_2.dev.rd R.EVT_ROUTE_vector 0 (4 * 374)) = false ∧
      w12_2.dev.vectorHeld 0 (w12_2.dev.rd R.EVT_ROUTE_vector 0 (4 * 374)) = false ∧ w12_2.dev.routeIs 0 374 false) ∧
    (w12_3.dev.phase = Phase.running ∧ 0 < 16 ∧ (w12_3.dev.route 0 0).pending = true ∧
      w12_3.dev.vectorLost 0 (w12_3.dev.rd R.EVT_ROUTE_vector 0 (4 * 0)) = false ∧
      w12_3.dev.vectorHeld 0 (w12_3.dev.rd R.EVT_ROUTE_vector 0 (4 * 0)) = false ∧ w12_3.dev.routeIs 0 0 false) ∧
    (w12_4.dev.phase = Phase.running ∧ 0 < 16 ∧ (w12_4.dev.route 0 374).pending = true ∧
      w12_4.dev.vectorLost 0 (w12_4.dev.rd R.EVT_ROUTE_vector 0 (4 * 374)) = false ∧
      w12_4.dev.vectorHeld 0 (w12_4.dev.rd R.EVT_ROUTE_vector 0 (4 * 374)) = true ∧ w12_4.dev.routeIs 0 374 false) ∧
    (w12_5.dev.phase = Phase.running ∧ 0 < 16 ∧ (w12_5.dev.route 0 0).pending = true ∧
      w12_5.dev.vectorLost 0 (w12_5.dev.rd R.EVT_ROUTE_vector 0 (4 * 0)) = false ∧ (w12_5.dev.route 0 0).sent < w12_5.dev.stormMax ∧
      w12_5.dev.vectorHeld 0 (w12_5.dev.rd R.EVT_ROUTE_vector 0 (4 * 0)) = false ∧ w12_5.dev.routeIs 0 0 true) ∧
    (w12_6.dev.phase = Phase.running ∧ 0 < 16 ∧ (w12_6.dev.route 0 0).pending = true ∧
      w12_6.dev.vectorLost 0 (w12_6.dev.rd R.EVT_ROUTE_vector 0 (4 * 0)) = false ∧ w12_6.dev.stormMax ≤ (w12_6.dev.route 0 0).sent ∧
      w12_6.dev.routeIs 0 0 true) ∧
    (w12_7.dev.phase = Phase.running ∧ 0 < 16 ∧ 0 < 384 ∧ (w12_7.dev.pf? 0).isSome = true) ∧
    (w12_8.dev.phase = Phase.running ∧ 0 < 16) ∧
    (sE0.dev.phase = Phase.running ∧ 0 < 16 ∧ causesOf 146 8 = some fltCauses) :=
  ⟨⟨by decide +kernel, by decide +kernel, by decide +kernel, by decide +kernel, by decide +kernel, by unfold Dev.routeIs; decide +kernel⟩,
   ⟨by decide +kernel, by decide +kernel, by decide +kernel, by decide +kernel, by decide +kernel, by unfold Dev.routeIs; decide +kernel⟩,
   by decide +kernel,
   by decide +kernel,
   by decide +kernel,
   by decide +kernel,
   ⟨by decide +kernel, by decide +kernel, by decide +kernel, by decide +kernel, by decide +kernel, by unfold Dev.routeIs; decide +kernel⟩,
   ⟨by decide +kernel, by decide +kernel, by decide +kernel, by decide +kernel, by decide +kernel, by unfold Dev.routeIs; decide +kernel⟩,
   ⟨by decide +kernel, by decide +kernel, by decide +kernel, by decide +kernel, by decide +kernel, by unfold Dev.routeIs; decide +kernel⟩,
   ⟨by decide +kernel, by decide +kernel, by decide +kernel, by decide +kernel, by decide +kernel, by decide +kernel, by unfold Dev.routeIs; decide +kernel⟩,
   ⟨by decide +kernel, by decide +kernel, by decide +kernel, by decide +kernel, by decide +kernel, by unfold Dev.routeIs; decide +kernel⟩,
   by decide +kernel,
   by decide +kernel,
   by decide +kernel⟩

theorem meets_RegisterWrites_Registers :
    (3 < 4) ∧
    (held1.dev.phase ≠ Phase.running ∧ (isFnMid 4096 = true → held1.dev.withholds (4096 - 4096) = false)) ∧
    (0 < 8208 ∧ 4096 = midFn 0 ∧ w12_9.dev.withholds 0 = true ∧ 0 % 4 = 0) ∧
    (0 < 16 ∧ 4096 = midFn 0 ∧ (up (withImg noReach)).dev.withholds 0 = false ∧ (up (withImg noReach)).dev.mayReach 4096 146 0 = false ∧
      (146 = 144 → 12 < 65536) ∧ 146 ≠ msixUnit ∧ 146 ≠ 17408 ∧ 12 % 4 = 0) ∧
    (0 < 16 ∧ 4096 = midFn 0 ∧ (up (withImg noReach)).dev.withholds 0 = false ∧ (up (withImg noReach)).dev.mayReach 4096 144 0 = false ∧
      (144 = 144 → 65532 < 65536) ∧ 144 ≠ msixUnit ∧ 144 ≠ 17408 ∧ 65532 % 4 = 0) ∧
    (up.dev.phase = Phase.running ∧ isCoreMid 8 = true) ∧
    (w12_10.dev.phase = Phase.running ∧ isCoreMid 8 = true) ∧
    (up.dev.phase = Phase.running ∧ 0 < 8208 ∧ 4096 = midFn 0 ∧ up.dev.doorbellOpen 0 = true ∧ up.dev.withholds 0 = false ∧ 63 < up.dev.msixSize 0) ∧
    ((up vf0).dev.phase = Phase.running ∧ 16 < 8208 ∧ 4112 = midFn 16 ∧ (up vf0).dev.doorbellOpen 16 = true ∧ (up vf0).dev.withholds 16 = false ∧
      63 < (up vf0).dev.msixSize 16) := by decide +kernel

theorem meets_RingsAndGroups_Groups :
    ((ask 1 []).dev.phase = Phase.running ∧ ((ask 1 []).dev.fn 0).reset = FnReset.none ∧
      ((ask 1 []).dev.groupsOf 0).length < (ask 1 []).dev.pageRoom 0 ∧ (ask 1 []).dev.groups.size < 2 ^ 18 ∧
      (0 < 16 ∨ ((ask 1 []).dev.groupsOf 0).length < ((ask 1 []).dev.fn 0).props.groupQuota) ∧ (ask 1 []).dev.asks 0 1 1 false 7 (words 1 [])) ∧
    ((ask 1 [] vf0 16).dev.phase = Phase.running ∧ ((ask 1 [] vf0 16).dev.fn 16).reset = FnReset.none ∧
      ((ask 1 [] vf0 16).dev.groupsOf 16).length < (ask 1 [] vf0 16).dev.pageRoom 16 ∧ (ask 1 [] vf0 16).dev.groups.size < 2 ^ 18 ∧
      (16 < 16 ∨ ((ask 1 [] vf0 16).dev.groupsOf 16).length < ((ask 1 [] vf0 16).dev.fn 16).props.groupQuota) ∧
      (ask 1 [] vf0 16).dev.asks 16 1 1 false 7 (words 1 [])) ∧
    ((ask 2 [5] grp).dev.phase = Phase.running ∧ ((ask 2 [5] grp).dev.fn 0).reset = FnReset.none ∧ bits (reqWord (words 2 [5]) 1) 0 18 = 5 ∧
      (ask 2 [5] grp).dev.groups.get? 5 = some group1 ∧ group1.fn = 0 ∧ group1.slots.entries = [] ∧
      (0 < 16 ∨ group1.page + 1 = ((ask 2 [5] grp).dev.groupsOf 0).length) ∧ (ask 2 [5] grp).dev.asks 0 2 2 false 7 (words 2 [5])) :=
  ⟨⟨by decide +kernel, by decide +kernel, by decide +kernel, by decide +kernel, by decide +kernel, asks_of rfl⟩,
   ⟨by decide +kernel, by decide +kernel, by decide +kernel, by decide +kernel, by decide +kernel, asks_of rfl⟩,
   ⟨by decide +kernel, by decide +kernel, by decide +kernel, by decide +kernel, by decide +kernel, by decide +kernel, by decide +kernel, asks_of rfl⟩⟩

theorem meets_RingsAndGroups_Rings :
    ((ask 3 ringW grp).dev.phase = Phase.running ∧ ((ask 3 ringW grp).dev.fn 0).reset = FnReset.none ∧
      (ask 3 ringW grp).dev.groups.get? (ringOf 0 (words 3 ringW)).group = some group1 ∧ group1.fn = 0 ∧
      (ask 3 ringW grp).dev.ringArgsOk 0 (words 3 ringW) (ringOf 0 (words 3 ringW)) group1 = true ∧ (ask 3 ringW grp).dev.rings.size < 2 ^ 22 ∧
      (0 < 16 ∨ ((ask 3 ringW grp).dev.ringsOf 0).length < ((ask 3 ringW grp).dev.fn 0).props.ringQuota) ∧
      (ask 3 ringW grp).dev.asks 0 3 13 false 7 (words 3 ringW)) ∧
    ((ask 4 [6]).dev.phase = Phase.running ∧ ((ask 4 [6]).dev.fn 0).reset = FnReset.none ∧
      (Instr.ringEnable 0, 4, 2, false) ∈ [(Instr.ringEnable 0, 4, 2, false), (Instr.ringDisable 0, 5, 2, true), (Instr.ringRestart 0, 6, 2, false),
      (Instr.ringDestroy 0, 7, 2, true), (Instr.ringTune 0, 8, 4, false)] ∧ (ask 4 [6]).dev.ring? (namedRing (words 4 [6])) = none ∧
      (ask 4 [6]).dev.asks 0 4 2 false 7 (words 4 [6])) ∧
    ((ask 5 [6]).dev.phase = Phase.running ∧ ((ask 5 [6]).dev.fn 0).reset = FnReset.none ∧
      (Instr.ringDisable 0, 5, 2, true) ∈ [(Instr.ringEnable 0, 4, 2, false), (Instr.ringDisable 0, 5, 2, true), (Instr.ringRestart 0, 6, 2, false),
      (Instr.ringDestroy 0, 7, 2, true), (Instr.ringTune 0, 8, 4, false)] ∧ (ask 5 [6]).dev.ring? (namedRing (words 5 [6])) = none ∧
      (ask 5 [6]).dev.asks 0 5 2 false 7 (words 5 [6])) ∧
    ((ask 6 [6]).dev.phase = Phase.running ∧ ((ask 6 [6]).dev.fn 0).reset = FnReset.none ∧
      (Instr.ringRestart 0, 6, 2, false) ∈ [(Instr.ringEnable 0, 4, 2, false), (Instr.ringDisable 0, 5, 2, true), (Instr.ringRestart 0, 6, 2, false),
      (Instr.ringDestroy 0, 7, 2, true), (Instr.ringTune 0, 8, 4, false)] ∧ (ask 6 [6]).dev.ring? (namedRing (words 6 [6])) = none ∧
      (ask 6 [6]).dev.asks 0 6 2 false 7 (words 6 [6])) ∧
    ((ask 7 [6]).dev.phase = Phase.running ∧ ((ask 7 [6]).dev.fn 0).reset = FnReset.none ∧
      (Instr.ringDestroy 0, 7, 2, true) ∈ [(Instr.ringEnable 0, 4, 2, false), (Instr.ringDisable 0, 5, 2, true), (Instr.ringRestart 0, 6, 2, false),
      (Instr.ringDestroy 0, 7, 2, true), (Instr.ringTune 0, 8, 4, false)] ∧ (ask 7 [6]).dev.ring? (namedRing (words 7 [6])) = none ∧
      (ask 7 [6]).dev.asks 0 7 2 false 7 (words 7 [6])) ∧
    ((ask 8 [6]).dev.phase = Phase.running ∧ ((ask 8 [6]).dev.fn 0).reset = FnReset.none ∧
      (Instr.ringTune 0, 8, 4, false) ∈ [(Instr.ringEnable 0, 4, 2, false), (Instr.ringDisable 0, 5, 2, true), (Instr.ringRestart 0, 6, 2, false),
      (Instr.ringDestroy 0, 7, 2, true), (Instr.ringTune 0, 8, 4, false)] ∧ (ask 8 [6]).dev.ring? (namedRing (words 8 [6])) = none ∧
      (ask 8 [6]).dev.asks 0 8 4 false 7 (words 8 [6])) ∧
    ((ringX ringT (ask 4 [6] vf0 16)).dev.phase = Phase.running ∧ ((ringX ringT (ask 4 [6] vf0 16)).dev.fn 16).reset = FnReset.none ∧
      (Instr.ringEnable 16, 4, 2, false) ∈ [(Instr.ringEnable 16, 4, 2, false), (Instr.ringDisable 16, 5, 2, true), (Instr.ringRestart 16, 6, 2,
      false), (Instr.ringDestroy 16, 7, 2, true), (Instr.ringTune 16, 8, 4, false)] ∧
      (ringX ringT (ask 4 [6] vf0 16)).dev.ring? (namedRing (words 4 [6])) = some (rg ringT) ∧
      (ringX ringT (ask 4 [6] vf0 16)).dev.owns 16 (rg ringT).fn false = false ∧
      (ringX ringT (ask 4 [6] vf0 16)).dev.asks 16 4 2 false 7 (words 4 [6])) ∧
    ((ringX ringT (ask 5 [6] vf0 16)).dev.phase = Phase.running ∧ ((ringX ringT (ask 5 [6] vf0 16)).dev.fn 16).reset = FnReset.none ∧
      (Instr.ringDisable 16, 5, 2, true) ∈ [(Instr.ringEnable 16, 4, 2, false), (Instr.ringDisable 16, 5, 2, true), (Instr.ringRestart 16, 6, 2,
      false), (Instr.ringDestroy 16, 7, 2, true), (Instr.ringTune 16, 8, 4, false)] ∧
      (ringX ringT (ask 5 [6] vf0 16)).dev.ring? (namedRing (words 5 [6])) = some (rg ringT) ∧
      (ringX ringT (ask 5 [6] vf0 16)).dev.owns 16 (rg ringT).fn true = false ∧
      (ringX ringT (ask 5 [6] vf0 16)).dev.asks 16 5 2 false 7 (words 5 [6])) ∧
    ((ringX ringT (ask 8 [6] vf0 16)).dev.phase = Phase.running ∧ ((ringX ringT (ask 8 [6] vf0 16)).dev.fn 16).reset = FnReset.none ∧
      (Instr.ringTune 16, 8, 4, false) ∈ [(Instr.ringEnable 16, 4, 2, false), (Instr.ringDisable 16, 5, 2, true), (Instr.ringRestart 16, 6, 2,
      false), (Instr.ringDestroy 16, 7, 2, true), (Instr.ringTune 16, 8, 4, false)] ∧
      (ringX ringT (ask 8 [6] vf0 16)).dev.ring? (namedRing (words 8 [6])) = some (rg ringT) ∧
      (ringX ringT (ask 8 [6] vf0 16)).dev.owns 16 (rg ringT).fn false = false ∧
      (ringX ringT (ask 8 [6] vf0 16)).dev.asks 16 8 4 false 7 (words 8 [6])) ∧
    ((ringX ringT (ask 4 [6])).dev.phase = Phase.running ∧ ((ringX ringT (ask 4 [6])).dev.fn 0).reset = FnReset.none ∧
      (ringX ringT (ask 4 [6])).dev.ring? (namedRing (words 4 [6])) = some (rg ringT) ∧ (rg ringT).fn = 0 ∧
      ((fun g : Ring => g.state ≠ RingState.disabled) (rg ringT)) ∧
      ((Instr.ringEnable 0, 4, fun g : Ring => g.state ≠ RingState.disabled) ∈ [(Instr.ringEnable 0, 4, fun g : Ring => g.state ≠
      RingState.disabled), (Instr.ringDisable 0, 5, fun _ : Ring => (ringX ringT (ask 4 [6])).dev.isException (namedRing (words 4 [6])) = true),
      (Instr.ringRestart 0, 6, fun g : Ring => g.state ≠ RingState.error), (Instr.ringDestroy 0, 7, fun g : Ring => g.state ≠ RingState.disabled)]) ∧
      (ringX ringT (ask 4 [6])).dev.asks 0 4 2 false 7 (words 4 [6])) ∧
    ((ringX ringT (ask 7 [6])).dev.phase = Phase.running ∧ ((ringX ringT (ask 7 [6])).dev.fn 0).reset = FnReset.none ∧
      (ringX ringT (ask 7 [6])).dev.ring? (namedRing (words 7 [6])) = some (rg ringT) ∧ (rg ringT).fn = 0 ∧
      ((fun g : Ring => g.state ≠ RingState.disabled) (rg ringT)) ∧
      ((Instr.ringDestroy 0, 7, fun g : Ring => g.state ≠ RingState.disabled) ∈ [(Instr.ringEnable 0, 4, fun g : Ring => g.state ≠
      RingState.disabled), (Instr.ringDisable 0, 5, fun _ : Ring => (ringX ringT (ask 7 [6])).dev.isException (namedRing (words 7 [6])) = true),
      (Instr.ringRestart 0, 6, fun g : Ring => g.state ≠ RingState.error), (Instr.ringDestroy 0, 7, fun g : Ring => g.state ≠ RingState.disabled)]) ∧
      (ringX ringT (ask 7 [6])).dev.asks 0 7 2 false 7 (words 7 [6])) ∧
    ((ringX ringT (ask 6 [6])).dev.phase = Phase.running ∧ ((ringX ringT (ask 6 [6])).dev.fn 0).reset = FnReset.none ∧
      (ringX ringT (ask 6 [6])).dev.ring? (namedRing (words 6 [6])) = some (rg ringT) ∧ (rg ringT).fn = 0 ∧
      ((fun g : Ring => g.state ≠ RingState.error) (rg ringT)) ∧
      ((Instr.ringRestart 0, 6, fun g : Ring => g.state ≠ RingState.error) ∈ [(Instr.ringEnable 0, 4, fun g : Ring => g.state ≠ RingState.disabled),
      (Instr.ringDisable 0, 5, fun _ : Ring => (ringX ringT (ask 6 [6])).dev.isException (namedRing (words 6 [6])) = true), (Instr.ringRestart 0, 6,
      fun g : Ring => g.state ≠ RingState.error), (Instr.ringDestroy 0, 7, fun g : Ring => g.state ≠ RingState.disabled)]) ∧
      (ringX ringT (ask 6 [6])).dev.asks 0 6 2 false 7 (words 6 [6])) ∧
    ((ringX ringR (ask 5 [6] exc)).dev.phase = Phase.running ∧ ((ringX ringR (ask 5 [6] exc)).dev.fn 0).reset = FnReset.none ∧
      (ringX ringR (ask 5 [6] exc)).dev.ring? (namedRing (words 5 [6])) = some (rg ringR) ∧ (rg ringR).fn = 0 ∧
      ((fun _ : Ring => (ringX ringR (ask 5 [6] exc)).dev.isException (namedRing (words 5 [6])) = true) (rg ringR)) ∧
      ((Instr.ringDisable 0, 5, fun _ : Ring => (ringX ringR (ask 5 [6] exc)).dev.isException (namedRing (words 5 [6])) = true) ∈ [(Instr.ringEnable
      0, 4, fun g : Ring => g.state ≠ RingState.disabled), (Instr.ringDisable 0, 5, fun _ : Ring => (ringX ringR (ask 5 [6] exc)).dev.isException
      (namedRing (words 5 [6])) = true), (Instr.ringRestart 0, 6, fun g : Ring => g.state ≠ RingState.error), (Instr.ringDestroy 0, 7, fun g : Ring
      => g.state ≠ RingState.disabled)]) ∧ (ringX ringR (ask 5 [6] exc)).dev.asks 0 5 2 false 7 (words 5 [6])) ∧
    ((ringX rD (ask 4 [6])).dev.phase = Phase.running ∧ ((ringX rD (ask 4 [6])).dev.fn 0).reset = FnReset.none ∧
      (ringX rD (ask 4 [6])).dev.ring? (namedRing (words 4 [6])) = some (rg rD) ∧ (rg rD).fn = 0 ∧ (rg rD).state = RingState.disabled ∧
      (ringX rD (ask 4 [6])).dev.asks 0 4 2 false 7 (words 4 [6])) ∧
    (w12_11.dev.phase = Phase.running ∧ (w12_11.dev.fn 0).reset = FnReset.none ∧ w12_11.dev.ring? (namedRing (words 4 [6])) = some (rg rD) ∧
      (rg rD).fn = 0 ∧ (rg rD).state = RingState.disabled ∧ w12_11.dev.asks 0 4 2 false 7 (words 4 [6])) ∧
    (w12_12.dev.phase = Phase.running ∧ (w12_12.dev.fn 0).reset = FnReset.none ∧ w12_12.dev.ring? (namedRing (words 5 [6])) = some w12_13 ∧
      w12_13.fn = 0 ∧ w12_13.state ≠ RingState.disabled ∧ w12_12.dev.isException (namedRing (words 5 [6])) = false ∧
      w12_12.dev.asks 0 5 2 false 7 (words 5 [6]) ∧ w12_12.dev.ringIdle (namedRing (words 5 [6])) w12_13) ∧
    (w12_14.dev.phase = Phase.running ∧ (w12_14.dev.fn 0).reset = FnReset.none ∧ w12_14.dev.ring? (namedRing (words 5 [6])) = some w12_15 ∧
      w12_15.fn = 0 ∧ w12_15.state ≠ RingState.disabled ∧ w12_14.dev.isException (namedRing (words 5 [6])) = false ∧
      w12_14.dev.asks 0 5 2 false 7 (words 5 [6]) ∧ w12_14.dev.ringIdle (namedRing (words 5 [6])) w12_15) ∧
    ((ringX rA (ask 5 [6])).dev.phase = Phase.running ∧ ((ringX rA (ask 5 [6])).dev.fn 0).reset = FnReset.none ∧
      (ringX rA (ask 5 [6])).dev.ring? (namedRing (words 5 [6])) = some (rg rA) ∧ (rg rA).fn = 0 ∧ (rg rA).state ≠ RingState.disabled ∧
      (ringX rA (ask 5 [6])).dev.isException (namedRing (words 5 [6])) = false ∧ (rg rA).accepted ≠ [] ∧
      (ringX rA (ask 5 [6])).dev.asks 0 5 2 false 7 (words 5 [6])) ∧
    ((ringX rE (ask 6 [6])).dev.phase = Phase.running ∧ ((ringX rE (ask 6 [6])).dev.fn 0).reset = FnReset.none ∧
      (ringX rE (ask 6 [6])).dev.ring? (namedRing (words 6 [6])) = some (rg rE) ∧ (rg rE).fn = 0 ∧ (rg rE).state = RingState.error ∧
      (rg rE).stopping = false ∧ (rg rE).slotProducer = (rg rE).producer ∧ (rg rE).producer < (rg rE).size ∧ (rg rE).owed = [] ∧
      (ringX rE (ask 6 [6])).dev.asks 0 6 2 false 7 (words 6 [6])) ∧
    (w12_16.dev.phase = Phase.running ∧ (w12_16.dev.fn 0).reset = FnReset.none ∧ w12_16.dev.ring? (namedRing (words 6 [6])) = some (rg rE) ∧
      (rg rE).fn = 0 ∧ (rg rE).state = RingState.error ∧ (rg rE).stopping = false ∧ (rg rE).slotProducer = (rg rE).producer ∧
      (rg rE).producer < (rg rE).size ∧ (rg rE).owed = [] ∧ w12_16.dev.asks 0 6 2 false 7 (words 6 [6])) ∧
    ((ringX rD (ask 7 [6])).dev.phase = Phase.running ∧ ((ringX rD (ask 7 [6])).dev.fn 0).reset = FnReset.none ∧
      (ringX rD (ask 7 [6])).dev.ring? (namedRing (words 7 [6])) = some (rg rD) ∧ (rg rD).fn = 0 ∧ (rg rD).state = RingState.disabled ∧
      (ringX rD (ask 7 [6])).dev.asks 0 7 2 false 7 (words 7 [6])) ∧
    ((ringX rD (ask 8 [6, 4294967295, 131071])).dev.phase = Phase.running ∧
      ((ringX rD (ask 8 [6, 4294967295, 131071])).dev.fn 0).reset = FnReset.none ∧
      (ringX rD (ask 8 [6, 4294967295, 131071])).dev.ring? (namedRing (words 8 [6, 4294967295, 131071])) = some (rg rD) ∧ (rg rD).fn = 0 ∧
      bits (reqWord (words 8 [6, 4294967295, 131071]) 3) 17 15 = 0 ∧
      (ringX rD (ask 8 [6, 4294967295, 131071])).dev.asks 0 8 4 false 7 (words 8 [6, 4294967295, 131071])) ∧
    ((ringX ringR (ask 8 [6, 4294967295, 0])).dev.phase = Phase.running ∧ ((ringX ringR (ask 8 [6, 4294967295, 0])).dev.fn 0).reset = FnReset.none ∧
      (ringX ringR (ask 8 [6, 4294967295, 0])).dev.ring? (namedRing (words 8 [6, 4294967295, 0])) = some (rg ringR) ∧ (rg ringR).fn = 0 ∧
      bits (reqWord (words 8 [6, 4294967295, 0]) 3) 17 15 = 0 ∧
      (ringX ringR (ask 8 [6, 4294967295, 0])).dev.asks 0 8 4 false 7 (words 8 [6, 4294967295, 0])) :=
  ⟨⟨by decide +kernel, by decide +kernel, by decide +kernel, by decide +kernel, by decide +kernel, by decide +kernel, by decide +kernel, asks_of rfl⟩,
   ⟨by decide +kernel, by decide +kernel, by decide +kernel, by decide +kernel, asks_of rfl⟩,
   ⟨by decide +kernel, by decide +kernel, by decide +kernel, by decide +kernel, asks_of rfl⟩,
   ⟨by decide +kernel, by decide +kernel, by decide +kernel, by decide +kernel, asks_of rfl⟩,
   ⟨by decide +kernel, by decide +kernel, by decide +kernel, by decide +kernel, asks_of rfl⟩,
   ⟨by decide +kernel, by decide +kernel, by decide +kernel, by decide +kernel, asks_of rfl⟩,
   ⟨by decide +kernel, by decide +kernel, by decide +kernel, by decide +kernel, by decide +kernel, asks_of rfl⟩,
   ⟨by decide +kernel, by decide +kernel, by decide +kernel, by decide +kernel, by decide +kernel, asks_of rfl⟩,
   ⟨by decide +kernel, by decide +kernel, by decide +kernel, by decide +kernel, by decide +kernel, asks_of rfl⟩,
   ⟨by decide +kernel, by decide +kernel, by decide +kernel, by decide +kernel, by decide +kernel, by simp, asks_of rfl⟩,
   ⟨by decide +kernel, by decide +kernel, by decide +kernel, by decide +kernel, by decide +kernel, by simp, asks_of rfl⟩,
   ⟨by decide +kernel, by decide +kernel, by decide +kernel, by decide +kernel, by decide +kernel, by simp, asks_of rfl⟩,
   ⟨by decide +kernel, by decide +kernel, by decide +kernel, by decide +kernel, by decide +kernel, by simp, asks_of rfl⟩,
   ⟨by decide +kernel, by decide +kernel, by decide +kernel, by decide +kernel, by decide +kernel, asks_of rfl⟩,
   ⟨by decide +kernel, by decide +kernel, by decide +kernel, by decide +kernel, by decide +kernel, asks_of rfl⟩,
   ⟨by decide +kernel, by decide +kernel, by decide +kernel, by decide +kernel, by decide +kernel, by decide +kernel, asks_of rfl, by unfold Dev.ringIdle; decide +kernel⟩,
   ⟨by decide +kernel, by decide +kernel, by decide +kernel, by decide +kernel, by decide +kernel, by decide +kernel, asks_of rfl, by unfold Dev.ringIdle; decide +kernel⟩,
   ⟨by decide +kernel, by decide +kernel, by decide +kernel, by decide +kernel, by decide +kernel, by decide +kernel, by decide +kernel, asks_of rfl⟩,
   ⟨by decide +kernel, by decide +kernel, by decide +kernel, by decide +kernel, by decide +kernel, by decide +kernel, by decide +kernel, by decide +kernel, by decide +kernel, asks_of rfl⟩,
   ⟨by decide +kernel, by decide +kernel, by decide +kernel, by decide +kernel, by decide +kernel, by decide +kernel, by decide +kernel, by decide +kernel, by decide +kernel, asks_of rfl⟩,
   ⟨by decide +kernel, by decide +kernel, by decide +kernel, by decide +kernel, by decide +kernel, asks_of rfl⟩,
   ⟨by decide +kernel, by decide +kernel, by decide +kernel, by decide +kernel, by decide +kernel, asks_of rfl⟩,
   ⟨by decide +kernel, by decide +kernel, by decide +kernel, by decide +kernel, by decide +kernel, asks_of rfl⟩⟩

theorem meets_TenantsAndFunctions_Tenants :
    ((ask 16 []).dev.phase = Phase.running ∧ 0 < 16 ∧ ((ask 16 []).dev.fn 0).reset = FnReset.none ∧
      (ask 16 []).dev.asks 0 16 1 false 7 (words 16 []) ∧ (∃ k, 16 ≤ k ∧ k < 16 + (ask 16 []).dev.die.variant.vfs ∧
      (ask 16 []).dev.tenants.has k = false)) ∧
    (w12_17.dev.phase = Phase.running ∧ bits (reqWord (words 17 [16]) 1) 0 14 = 16 ∧ 16 ≤ 16 ∧ w12_17.dev.tenants.get? 16 = some 0 ∧
      (∀ x ∈ w12_17.dev.vfsPresent 0, (w12_17.dev.fn x).tenant ≠ 16) ∧ w12_17.dev.asks 0 17 2 false 7 (words 17 [16])) ∧
    (w12_18.dev.phase = Phase.running ∧ bits (reqWord (words 17 [16]) 1) 0 14 = 16 ∧ 16 ≤ 16 ∧ w12_18.dev.tenants.get? 16 = some 0 ∧
      16 ∈ w12_18.dev.vfsPresent 0 ∧ (w12_18.dev.fn 16).tenant = 16 ∧ w12_18.dev.asks 0 17 2 false 7 (words 17 [16])) ∧
    (w12_19.dev.phase = Phase.running ∧ 0 < 16 ∧ 16 ≤ 16 ∧ w12_19.dev.hasFn 16 = true ∧ w12_19.dev.pfOf 16 = 0 ∧
      (w12_19.dev.fn 16).reset = FnReset.none ∧ bits (reqWord (words 18 [16, 17]) 1) 0 14 = 16 ∧
      w12_19.dev.tenantPf (bits (reqWord (words 18 [16, 17]) 2) 0 14) = some 0 ∧ w12_19.dev.groupsOf 16 = [] ∧
      w12_19.dev.asks 0 18 3 false 7 (words 18 [16, 17])) ∧
    ((ask 19 props vf0).dev.phase = Phase.running ∧ 0 < 16 ∧ 16 ≤ 16 ∧ (ask 19 props vf0).dev.hasFn 16 = true ∧ (ask 19 props vf0).dev.pfOf 16 = 0 ∧
      ((ask 19 props vf0).dev.fn 16).reset = FnReset.none ∧ bits (reqWord (words 19 props) 1) 0 14 = 16 ∧
      (ask 19 props vf0).dev.propsOk (words 19 props) = true ∧ (ask 19 props vf0).dev.asks 0 19 16 false 7 (words 19 props)) ∧
    ((ask 20 [16, 0] vf0).dev.phase = Phase.running ∧ 0 < 16 ∧ 16 ≤ 16 ∧ (ask 20 [16, 0] vf0).dev.hasFn 16 = true ∧
      (ask 20 [16, 0] vf0).dev.pfOf 16 = 0 ∧ ((ask 20 [16, 0] vf0).dev.fn 16).reset = FnReset.none ∧ bits (reqWord (words 20 [16, 0]) 1) 0 14 = 16 ∧
      (ask 20 [16, 0] vf0).dev.epilogues.get? 16 = none ∧ hasBit (reqWord (words 20 [16, 0]) 1) 16 = false ∧
      (ask 20 [16, 0] vf0).dev.asks 0 20 3 false 7 (words 20 [16, 0]) ∧ (ask 20 [16, 0] vf0).dev.holdsNothing 16) ∧
    ((ask 20 [16 + 65536, 2000] vf0).dev.phase = Phase.running ∧ 0 < 16 ∧ 16 ≤ 16 ∧ (ask 20 [16 + 65536, 2000] vf0).dev.hasFn 16 = true ∧
      (ask 20 [16 + 65536, 2000] vf0).dev.pfOf 16 = 0 ∧ ((ask 20 [16 + 65536, 2000] vf0).dev.fn 16).reset = FnReset.none ∧
      bits (reqWord (words 20 [16 + 65536, 2000]) 1) 0 14 = 16 ∧ (ask 20 [16 + 65536, 2000] vf0).dev.epilogues.get? 16 = none ∧
      hasBit (reqWord (words 20 [16 + 65536, 2000]) 1) 16 = true ∧
      (ask 20 [16 + 65536, 2000] vf0).dev.asks 0 20 3 false 7 (words 20 [16 + 65536, 2000]) ∧ (ask 20 [16 + 65536, 2000] vf0).dev.holdsNothing 16) ∧
    (w12_20.dev.phase = Phase.running ∧ (w12_20.dev.fn 16).reset = FnReset.draining ∧ w12_20.dev.holdsNothing 16) ∧
    (w12_21.dev.phase = Phase.running ∧ (w12_21.dev.fn 16).reset = FnReset.draining ∧ w12_21.dev.holdsNothing 16) :=
  ⟨⟨by decide +kernel, by decide +kernel, by decide +kernel, asks_of rfl, ⟨16, by decide +kernel⟩⟩,
   ⟨by decide +kernel, by decide +kernel, by decide +kernel, by decide +kernel, by decide +kernel, asks_of rfl⟩,
   ⟨by decide +kernel, by decide +kernel, by decide +kernel, by decide +kernel, by decide +kernel, by decide +kernel, asks_of rfl⟩,
   ⟨by decide +kernel, by decide +kernel, by decide +kernel, by decide +kernel, by decide +kernel, by decide +kernel, by decide +kernel, by decide +kernel, by decide +kernel, asks_of rfl⟩,
   ⟨by decide +kernel, by decide +kernel, by decide +kernel, by decide +kernel, by decide +kernel, by decide +kernel, by decide +kernel, by decide +kernel, asks_of rfl⟩,
   ⟨by decide +kernel, by decide +kernel, by decide +kernel, by decide +kernel, by decide +kernel, by decide +kernel, by decide +kernel, by decide +kernel, by decide +kernel, asks_of rfl, by unfold Dev.holdsNothing; decide +kernel⟩,
   ⟨by decide +kernel, by decide +kernel, by decide +kernel, by decide +kernel, by decide +kernel, by decide +kernel, by decide +kernel, by decide +kernel, by decide +kernel, asks_of rfl, by unfold Dev.holdsNothing; decide +kernel⟩,
   ⟨by decide +kernel, by decide +kernel, by unfold Dev.holdsNothing; decide +kernel⟩,
   ⟨by decide +kernel, by decide +kernel, by unfold Dev.holdsNothing; decide +kernel⟩⟩

theorem meets_TenantsAndFunctions_Epilogue :
    w12_22.dev.phase = Phase.running ∧ w12_22.dev.epilogues.get? 0 = some epilogue1 ∧ epilogue1.ready = true ∧
      w12_22.dev.asks 0 52 1 false 7 (words 52 []) := ⟨by decide +kernel, by decide +kernel, by decide +kernel, asks_of rfl⟩

end Setup

/-! ## Contexts, the S4400 personality, in-service change and the Stream Port -/

namespace Change

def rg (r : Ring) : Ring := { r with group := 1, slot := 3 }
def msg (words : List Nat) (len : Nat) (seq : Nat := 1) : Msg := { words := words, len := len, seq := seq }
def ask (kind : Nat) (l : List Nat) (f : Dev → Dev := id) (fn : Nat := 0) : State :=
  up fun d => f { d with chans := { entries := [(requestChannel fn, { held := some (msg ((kind + 65536 * 7) :: l) 64 )})] } }
def words (kind : Nat) (l : List Nat) : List Nat := (kind + 65536 * 7) :: l
def vf0 (f : Func → Func := id) (d : Dev) : Dev := { d with funcs := { entries := [(0, { fn0 with vfEnable := true, numVfs := 1 }), (16, f fn0)] } }
def sC0 := up
def stage (c : Nat) (d : Dev) : Dev := { d with chans := { entries := [(c, { })] } }
def sC1 := up fun d => { d with chans := { entries := [(16384, { held := some (msg [5, 6] 8 9) })] } }
def sC2 := up fun d => { (d.wr R.MBX_RX_STATUS_seq 9 0 (256 * 16385)) with chans := { entries := [(16385, { held := some (msg [5, 6] 8 9), viewEmpty := false })] } }
def sE0 := up fun d => (d.wr R.EVT_ROUTE_enable 1 0 (4 * 374)).wr R.EVT_ROUTE_enable 1 0 (4 * 383)
def pend (src : Nat) (lvl : Nat) (r : Route) (f : Dev → Dev := id) : State := up fun d => f ((((d.wr R.EVT_ROUTE_enable 1 0 (4 * src)).wr R.EVT_ROUTE_level lvl 0 (4 * src)).wr R.EVT_ROUTE_vector 63 0 (4 * src)).onRoute 0 src (fun _ => { r with pending := true }))
def unmask (d : Dev) : Dev := d.onFn 0 (fun f => { f with vecs := ({} : NMap Vec).set 63 { masked := false } })
def noReach (im : Image) : Image := { im with sections := im.sections.map (fun s => match s.body with | .identity _ => { s with body := .identity { pfs := [(0, { pf0 with reach := 0 })] } } | _ => s) }
def withImg (g : Image → Image) (d : Dev) : Dev := { d with boot := { d.boot with image := d.boot.image.map g } }
def grp (d : Dev) : Dev := { d with groups := { entries := [(5, { fn := 0, page := 2 })] } }
def ringW : List Nat := [0x1000, 1, 0x2000, 2, 16 + 32 * 1 + 2^10 + 63 * 2 ^ 16, 0, 5 + 255 * 2 ^ 18, 0xFFFFF, 0xFFFFFFFF, 0x1FFFF, 0xFF, 0]
def ringX (r : Ring) : State → State := fun s => { s with dev := withRing 6 { r with group := 1, slot := 3 } s.dev }
def exc (d : Dev) : Dev := (d.wr R.PPL_PORT_EXC_exception_valid 1 0 (16*255)).wr R.PPL_PORT_EXC_exception_ring 6 0 (16*255)
def rD : Ring := { ringT with state := .disabled }
def rA : Ring := { ringT with accepted := [{ seq := 60, bytes := List.replicate 32 0 }] }
def rE : Ring := { ringT with state := .error }
def props : List Nat := [16 + 1 * 2 ^ 14, 0x11223344, 0x5566, 0, 0, 0, 0, 0, 0, 0, 0, 100, 10, 1000, 0]
def cw : List Nat := [1, 2, 3, 4, 5]
def noBm (d : Dev) : Dev := d.onFn 0 (fun f => { f with busMaster := false })
def ctxB (ty : Nat) : List Byte := [BitVec.ofNat 8 ty] ++ List.replicate 255 0
def ctx (ty : Nat) (d : Dev) : Dev := { d with ctxs := { entries := [(9, ctxB ty)] } }
def rdS : State := up fun d => { d with links := { entries := [(0, { (d.link 0) with reads := { entries := [(3, { fn := 0, addr := 0, len := 256, why := .context 5 0 })] } })] } }
def ctxRead1 : Read := { fn := 0, addr := 0, len := 256, why := .context 5 0 }
def ctxJob1 : Job := { fn := 0, kind := 32, tag := 7, words := [], awaits := .context none 4, want := 1 }
def ctxJob2 : Job := { fn := 0, kind := 32, tag := 7, words := [], awaits := .context none 5, want := 1 }
def withIden (p : PfRec) (im : Image) : Image := { im with sections := im.sections.map (fun s => match s.body with | .identity _ => { s with body := .identity { pfs := [(0, p)] } } | _ => s) }
def s44 (d : Dev) : Dev := vf0 id (withImg (withIden { pf0 with vfKind := 1, vfBar0Log2 := 15 }) d)
def ctxItem (d : Dev) : Dev := { ctx 4 d with items := { entries := [(3, { kind := 0, stage := .running, edits := [.esp 9] })] }, nextItem := 4 }
def s44G (d : Dev) : Dev := { (s44 d) with groups := { entries := [(5, { fn := 16, page := 0 })] } }
def ringS44 (r : Ring) (slot : Nat) : Ring := { r with fn := 16, nextSeq := 60, formatA := true, group := 5, slot := slot }
def s44R (f : Dev → Dev := id) : State := up fun d => f { ((s44 d).wr R.S44_Q_CTRL_enable 1 16 4) with groups := { entries := [(5, { fn := 16, page := 0, slots := { entries := [(2, 8), (3, 9)] } })] }, rings := { entries := [(8, ringS44 ringT 2), (9, ringS44 ringR 3)] } }
def w13_1 : State := s44R fun d => (d.wr R.PPL_PORT_EXC_exception_valid 1 0 (16*255)).wr R.PPL_PORT_EXC_exception_ring 9 0 (16*255)
def unitW (u i : Nat) : List Nat := [u + 65536 * i]
def outs (l : List Nat) (d : Dev) : Dev := { d with setPos := { entries := l.map (fun n => (n, { site := n, phase := .out })) } }
def w13_2 : State := ask 0x30 (unitW 0x41 31) (fun d => { d with power := { d.power with satOut := [5] } })
def couts (l : List Nat) (d : Dev) : Dev := { d with cryPos := { entries := l.map (fun n => (n, { site := n, phase := .out })) } }
def cOuts (l : List Nat) (d : Dev) : Dev := { d with cores := { entries := l.map (fun n => (n, { out := true })) } }
def w13_3 : State := ask 0x31 (unitW 0x41 31) (fun d => { d with setPos := { entries := [(31, { site := 31, phase := .out, thermal := true })] } })
def testing (d : Dev) : Dev := { d with setPos := { entries := [(33, { site := 5, phase := .testing })] }, cryPos := { entries := [(47, { site := 47, phase := .testing })] }, cores := { entries := [(7, { out := true, testing := true })] } }
def stg (sz : Nat) : List Nat := [0, 0, sz]
def both (s : State) (im : Image := img) : State := { s with flash := { s.flash with slotB := some im } }
def w13_4 : State := both (ask 0x33 [] (fun d => { d with apply := some { fn := 0, tag := 3, image := img, step := 3, todo := [5], stopped := true } }))
def stoppedApply1 : Apply := { fn := 0, tag := 3, image := img, step := 3, todo := [5], stopped := true }
def stp (st : Nat) (f : Dev → Dev := id) : State := up fun d => f (((d.wr R.STP_STATUS_state st).wr R.STP_CTRL_pair_enable 1).wr R.STP_CTRL_link_enable 1)
def withStp (x : Stp) (f : Dev → Dev := id) : Dev → Dev := fun d => f { d with stp := x }
def w13_5 : State := stp 4 (withStp { kept := [{}] })
def w13_6 : State := stp 1 (fun d => d.wr R.STP_CTRL_allow_x8 1)
def w13_7 : State := stp 1 (fun d => d.wr R.STP_CTRL_allow_x8 0)
def w13_8 : State := stp 4 (withStp { waits := true, fails := 1 })
def w13_9 : State := stp 4 (withStp { waits := true, fails := 16 })
def flit1 : Flit := {}
def w13_10 : State := stp 2 (withStp { kept := [{}] })
def w13_11 : State := stp 3 (withStp { kept := [{}], retrains := List.replicate 16 0 })
def xf : Xfer := { fn := 0, tag := 9, receive := false, id := 77, addr := 0x1000, length := 480, stream := some 2, channel := 63, running := true }
def w13_12 : State := stp 2 (withStp { kept := [{}], xfers := [xf] })
def w13_13 : State := stp 2 (withStp { kept := [{ fseq := 9, kind := 1, payload := [1] }], resend := [{ fseq := 9, kind := 1, payload := [1] }], fseq := 10 })
def flit2 : Flit := { fseq := 9, kind := 1, payload := [1] }
def w13_14 : State := stp 2 (withStp { kept := List.replicate 512 {} })
def mX : StpMsg := { channel := 5, ack := false, len := 4, words := [7] }
def w13_15 : State := stp 2 (withStp { msgs := [mX], msgCredits := 1, fseq := 4095 })
def sndS : Stp := { fseq := 4095, xfers := [xf], streams := { entries := [(xf.key, { staged := List.replicate 240 7, credits := 300, moved := 240 })] } }
def w13_16 : State := stp 2 (withStp {})
def xr : Xfer := { xf with receive := true }
def rcv (c : Nat) (mv : Nat := 0) : State := stp 2 (withStp { expect := 4095, xfers := [xr], streams := { entries := [(xr.key, { credits := c, moved := mv })] } })
def fl (n : Nat) : Flit := { kind := 1, stream := 2, fseq := 4095, payload := List.replicate n 5 }
def fm (c ack len seq code k : Nat) : Flit := { kind := 3, fseq := 4095, payload := le (c + 2 ^ 15 * ack + 65536 * len) 4 ++ le seq 2 ++ le code 2 ++ le k 4 ++ List.replicate 60 3 }
def w13_17 : State := stp 2 (withStp { expect := 4095 } (fun d => { d with chans := { entries := [(16417, { held := some (msg [5] 4 9) })] } }))
def w13_18 : State := stp 2 (withStp { expect := 4095 })
def w13_19 : State := stp 2 (withStp { expect := 4095, kept := [{ fseq := 3 }, { fseq := 4 }] })
def flit3 : Flit := { fseq := 4095, ackValid := true, ackSeq := 3 }
def flit4 : Flit := { fseq := 3 }
def laterFlits1 : List Flit := [{ fseq := 4 }]
def flit5 : Flit := { fseq := 4095, nak := true }
def flit6 : Flit := { fseq := 4095, crcOk := false }
def flit7 : Flit := { fseq := 5 }
def flit8 : Flit := { fseq := 4095, kind := 7 }
def stpCh (d : Dev) : Dev := withImg (fun im => { im with sections := im.sections.map (fun s => match s.body with | .identity _ => { s with body := .identity { pfs := [(0, pf0)], stpChannels := 2 ^ 63 } } | _ => s) }) d
def bw (rx : Nat) : List Nat := [rx, 77, 0x1000, 1, 480]
def stpA (k : Nat) (l : List Nat) (st : Nat) (x : Stp := {}) (f : Dev → Dev := id) : State := ask k l (fun d => f { (((d.wr R.STP_STATUS_state st).wr R.STP_CTRL_pair_enable 1).wr R.STP_CTRL_link_enable 1) with stp := x })
def w13_20 : State := stpA 0x50 (bw 1) 2 { xfers := (List.range 16).map (fun n => { xf with id := 100 + n, stream := some n, channel := n }) }
def w13_21 : State := stpA 0x50 (bw 1) 2 {} stpCh
def w13_22 : State := stpA 0x50 (bw 0) 3 {} stpCh
def w13_23 : State := stpA 0x51 [0, 77] 3 { xfers := [{ xf with fn := 1 }] }
def xferOf1 : Xfer := { xf with fn := 1 }
def w13_24 : State := stpA 0x51 [0, 77] 3 { xfers := [{ xf with stream := some 15, running := false }] }
def xferOf2 : Xfer := { xf with stream := some 15, running := false }

/-- An image whose firmware is two versions on: the other may not be applied over it (R434). -/
def otherImg : Image := bareOf (bodies.map (fun b => match b with | .firmware _ n c => .firmware 3 n c | b => b))
def onOther : State := both (ask 0x33 [] (fun d => { d with boot := { d.boot with image := some otherImg } }))

theorem s44_rings_idle : ∀ r ∈ s44R.dev.s44Rings 16 1, ∃ g, s44R.dev.ringIdle r g ∧ g.fn = 16 ∧ g.slot / 2 = 1 ∧ g.stopping = false := by
  rw [show s44R.dev.s44Rings 16 1 = [8, 9] by decide +kernel]
  intro r h
  rcases List.mem_pair.mp h with rfl | rfl
  · exact ⟨ringS44 ringT 2, by unfold Dev.ringIdle; decide +kernel⟩
  · exact ⟨ringS44 ringR 3, by unfold Dev.ringIdle; decide +kernel⟩

theorem meets_ContextsAndS4400_Ctx :
    ((ask 32 [4]).dev.phase = Phase.running ∧ ((ask 32 [4]).dev.fn 0).reset = FnReset.none ∧ bits (reqWord (words 32 [4]) 1) 0 4 = 4 ∧ 4 ∈ ctxTypes ∧
      (4 = 10 ∨ 4 = 11 → (ask 32 [4]).dev.die.variant.hasSto = true) ∧ (ask 32 [4]).dev.ctxs.size < 2 ^ 24 ∧
      (0 < 16 ∨ (ask 32 [4]).dev.ctxsOf 0 < ((ask 32 [4]).dev.fn 0).props.ctxQuota) ∧ (ask 32 [4]).dev.canIssue 0 = true ∧
      (ask 32 [4]).dev.asks 0 32 6 false 7 (words 32 [4])) ∧
    ((ask 32 [10]).dev.phase = Phase.running ∧ ((ask 32 [10]).dev.fn 0).reset = FnReset.none ∧ bits (reqWord (words 32 [10]) 1) 0 4 = 10 ∧
      10 ∈ ctxTypes ∧ (10 = 10 ∨ 10 = 11 → (ask 32 [10]).dev.die.variant.hasSto = true) ∧ (ask 32 [10]).dev.ctxs.size < 2 ^ 24 ∧
      (0 < 16 ∨ (ask 32 [10]).dev.ctxsOf 0 < ((ask 32 [10]).dev.fn 0).props.ctxQuota) ∧ (ask 32 [10]).dev.canIssue 0 = true ∧
      (ask 32 [10]).dev.asks 0 32 6 false 7 (words 32 [10])) ∧
    ((ask 32 [4] noBm).dev.phase = Phase.running ∧ ((ask 32 [4] noBm).dev.fn 0).reset = FnReset.none ∧ bits (reqWord (words 32 [4]) 1) 0 4 = 4 ∧
      4 ∈ ctxTypes ∧ (4 = 10 ∨ 4 = 11 → (ask 32 [4] noBm).dev.die.variant.hasSto = true) ∧ (ask 32 [4] noBm).dev.ctxs.size < 2 ^ 24 ∧
      (0 < 16 ∨ (ask 32 [4] noBm).dev.ctxsOf 0 < ((ask 32 [4] noBm).dev.fn 0).props.ctxQuota) ∧ (ask 32 [4] noBm).dev.canIssue 0 = false ∧
      (ask 32 [4] noBm).dev.asks 0 32 6 false 7 (words 32 [4])) ∧
    ((ask 33 [9] (ctx 4)).dev.phase = Phase.running ∧ ((ask 33 [9] (ctx 4)).dev.fn 0).reset = FnReset.none ∧
      bits (reqWord (words 33 [9]) 1) 0 24 = 9 ∧ (ask 33 [9] (ctx 4)).dev.ctxs.has 9 = true ∧ (ask 33 [9] (ctx 4)).dev.ctxOwner 9 = 0 ∧
      (ask 33 [9] (ctx 4)).dev.canIssue 0 = true ∧ (ask 33 [9] (ctx 4)).dev.asks 0 33 6 false 7 (words 33 [9])) ∧
    (rdS.dev.phase = Phase.running ∧ (rdS.dev.fn 0).reset = FnReset.none ∧ (rdS.dev.link 0).reads.get? 3 = some ctxRead1 ∧ ctxRead1.dead = false ∧
      ctxRead1.why = ReadFor.context 5 0 ∧ (rdS.dev.link 0).queue = [] ∧ (ctxB 4).length = 256 ∧ 4 ∉ [8, 10] ∧ rdS.dev.ctxs.size < 2 ^ 24 ∧
      ctxJob1.fn = 0 ∧ ctxJob1.want = 1 ∧ ctxJob1.pieces = { } ∧ ctxJob1.awaits = Awaits.context none 4 ∧ leAt (ctxB 4) 0 1 % 16 = 4 ∧
      rdS.dev.hears 0) ∧
    (rdS.dev.phase = Phase.running ∧ (rdS.dev.fn 0).reset = FnReset.none ∧ (rdS.dev.link 0).reads.get? 3 = some ctxRead1 ∧ ctxRead1.dead = false ∧
      ctxRead1.why = ReadFor.context 5 0 ∧ (rdS.dev.link 0).queue = [] ∧ (ctxB 4).length = 256 ∧ 5 ∉ [8, 10] ∧ rdS.dev.ctxs.size < 2 ^ 24 ∧
      ctxJob2.fn = 0 ∧ ctxJob2.want = 1 ∧ ctxJob2.pieces = { } ∧ ctxJob2.awaits = Awaits.context none 5 ∧ leAt (ctxB 4) 0 1 % 16 ≠ 5 ∧
      rdS.dev.hears 0) ∧
    ((ask 34 [9] (ctx 4)).dev.phase = Phase.running ∧ ((ask 34 [9] (ctx 4)).dev.fn 0).reset = FnReset.none ∧
      bits (reqWord (words 34 [9]) 1) 0 24 = 9 ∧ (ask 34 [9] (ctx 4)).dev.ctxs.has 9 = true ∧ (ask 34 [9] (ctx 4)).dev.ctxOwner 9 = 0 ∧
      (ask 34 [9] (ctx 4)).dev.ctxNamed 9 = false ∧ (ask 34 [9] (ctx 4)).dev.asks 0 34 2 false 7 (words 34 [9])) ∧
    ((ask 34 [9] (ctx 8)).dev.phase = Phase.running ∧ ((ask 34 [9] (ctx 8)).dev.fn 0).reset = FnReset.none ∧
      bits (reqWord (words 34 [9]) 1) 0 24 = 9 ∧ (ask 34 [9] (ctx 8)).dev.ctxs.has 9 = true ∧ (ask 34 [9] (ctx 8)).dev.ctxOwner 9 = 0 ∧
      (ask 34 [9] (ctx 8)).dev.ctxNamed 9 = false ∧ (ask 34 [9] (ctx 8)).dev.asks 0 34 2 false 7 (words 34 [9])) ∧
    ((ask 34 [9] (ctx 10)).dev.phase = Phase.running ∧ ((ask 34 [9] (ctx 10)).dev.fn 0).reset = FnReset.none ∧
      bits (reqWord (words 34 [9]) 1) 0 24 = 9 ∧ (ask 34 [9] (ctx 10)).dev.ctxs.has 9 = true ∧ (ask 34 [9] (ctx 10)).dev.ctxOwner 9 = 0 ∧
      (ask 34 [9] (ctx 10)).dev.ctxNamed 9 = false ∧ (ask 34 [9] (ctx 10)).dev.asks 0 34 2 false 7 (words 34 [9])) ∧
    ((ask 34 [9] (ctx 1)).dev.phase = Phase.running ∧ ((ask 34 [9] (ctx 1)).dev.fn 0).reset = FnReset.none ∧
      bits (reqWord (words 34 [9]) 1) 0 24 = 9 ∧ (ask 34 [9] (ctx 1)).dev.ctxs.has 9 = true ∧ (ask 34 [9] (ctx 1)).dev.ctxOwner 9 = 0 ∧
      (ask 34 [9] (ctx 1)).dev.ctxNamed 9 = false ∧ (ask 34 [9] (ctx 1)).dev.asks 0 34 2 false 7 (words 34 [9])) ∧
    ((ask 34 [9] ctxItem).dev.phase = Phase.running ∧ ((ask 34 [9] ctxItem).dev.fn 0).reset = FnReset.none ∧
      bits (reqWord (words 34 [9]) 1) 0 24 = 9 ∧ (ask 34 [9] ctxItem).dev.ctxs.has 9 = true ∧ (ask 34 [9] ctxItem).dev.ctxOwner 9 = 0 ∧
      (ask 34 [9] ctxItem).dev.ctxNamed 9 = true ∧ (ask 34 [9] ctxItem).dev.asks 0 34 2 false 7 (words 34 [9])) :=
  ⟨⟨by decide +kernel, by decide +kernel, by decide +kernel, by decide +kernel, by decide +kernel, by decide +kernel, by decide +kernel, by decide +kernel, asks_of rfl⟩,
   ⟨by decide +kernel, by decide +kernel, by decide +kernel, by decide +kernel, by decide +kernel, by decide +kernel, by decide +kernel, by decide +kernel, asks_of rfl⟩,
   ⟨by decide +kernel, by decide +kernel, by decide +kernel, by decide +kernel, by decide +kernel, by decide +kernel, by decide +kernel, by decide +kernel, asks_of rfl⟩,
   ⟨by decide +kernel, by decide +kernel, by decide +kernel, by decide +kernel, by decide +kernel, by decide +kernel, asks_of rfl⟩,
   ⟨by decide +kernel, by decide +kernel, by decide +kernel, by decide +kernel, by decide +kernel, by decide +kernel, by decide +kernel, by decide +kernel, by decide +kernel, by decide +kernel, by decide +kernel, by decide +kernel, by decide +kernel, by decide +kernel, hears_of rfl⟩,
   ⟨by decide +kernel, by decide +kernel, by decide +kernel, by decide +kernel, by decide +kernel, by decide +kernel, by decide +kernel, by decide +kernel, by decide +kernel, by decide +kernel, by decide +kernel, by decide +kernel, by decide +kernel, by decide +kernel, hears_of rfl⟩,
   ⟨by decide +kernel, by decide +kernel, by decide +kernel, by decide +kernel, by decide +kernel, by decide +kernel, asks_of rfl⟩,
   ⟨by decide +kernel, by decide +kernel, by decide +kernel, by decide +kernel, by decide +kernel, by decide +kernel, asks_of rfl⟩,
   ⟨by decide +kernel, by decide +kernel, by decide +kernel, by decide +kernel, by decide +kernel, by decide +kernel, asks_of rfl⟩,
   ⟨by decide +kernel, by decide +kernel, by decide +kernel, by decide +kernel, by decide +kernel, by decide +kernel, asks_of rfl⟩,
   ⟨by decide +kernel, by decide +kernel, by decide +kernel, by decide +kernel, by decide +kernel, by decide +kernel, asks_of rfl⟩⟩

theorem meets_ContextsAndS4400_S44 :
    ((ask 96 [] s44 16).dev.phase = Phase.running ∧ (ask 96 [] s44 16).dev.asks 16 96 1 true 7 (words 96 [])) ∧
    ((ask 99 [] s44 16).dev.phase = Phase.running ∧ (ask 99 [] s44 16).dev.asks 16 99 1 true 7 (words 99 [])) ∧
    ((ask 97 [5] s44 16).dev.phase = Phase.running ∧ (Instr.setMacFilter 16, 97) ∈ [(Instr.setMacFilter 16, 97), (Instr.setVlanFilter 16, 98)] ∧
      (ask 97 [5] s44 16).dev.pfOf 16 < 16 ∧ (ask 97 [5] s44 16).dev.asks 16 97 1 true 7 (words 97 [5]) ∧
      (ask 97 [5] s44 16).dev.hears ((ask 97 [5] s44 16).dev.pfOf 16)) ∧
    ((ask 98 [5] s44 16).dev.phase = Phase.running ∧ (Instr.setVlanFilter 16, 98) ∈ [(Instr.setMacFilter 16, 97), (Instr.setVlanFilter 16, 98)] ∧
      (ask 98 [5] s44 16).dev.pfOf 16 < 16 ∧ (ask 98 [5] s44 16).dev.asks 16 98 1 true 7 (words 98 [5]) ∧
      (ask 98 [5] s44 16).dev.hears ((ask 98 [5] s44 16).dev.pfOf 16)) ∧
    ((up s44).dev.phase = Phase.running ∧ (up s44).dev.isS44 16 = true ∧ ((up s44).dev.fn 16).reset = FnReset.none ∧
      (up s44).dev.epilogues.get? 16 = none ∧ (up s44).dev.holdsNothing 16) ∧
    ((up s44G).dev.phase = Phase.running ∧ (up s44G).dev.s44Open 16 1 = true ∧ 16 < 8208 ∧ (up s44G).dev.on R.S44_Q_CTRL_enable 16 (4 * 1) = false ∧
      (up s44G).dev.s44Rings 16 1 = [] ∧ 6 ≤ bits (221 + 63 * 256 + 2 ^ 31) 0 4 ∧ bits (221 + 63 * 256 + 2 ^ 31) 0 4 ≤ 13 ∧
      6 ≤ bits (221 + 63 * 256 + 2 ^ 31) 4 4 ∧ bits (221 + 63 * 256 + 2 ^ 31) 4 4 ≤ 13 ∧
      bits (221 + 63 * 256 + 2 ^ 31) 8 11 < (up s44G).dev.msixSize 16 ∧ (∀ n < 4, (up s44G).dev.s44Base 16 1 n % 4096 = 0) ∧
      (up s44G).dev.groupsOf 16 ≠ [] ∧ (up s44G).dev.ringRoom 16 2 = true) ∧
    ((up s44G).dev.phase = Phase.running ∧ (up s44G).dev.s44Open 16 0 = true ∧ 16 < 8208 ∧ (up s44G).dev.on R.S44_Q_CTRL_enable 16 (4 * 0) = false ∧
      (up s44G).dev.s44Rings 16 0 = [] ∧ 6 ≤ bits 102 0 4 ∧ bits 102 0 4 ≤ 13 ∧ 6 ≤ bits 102 4 4 ∧ bits 102 4 4 ≤ 13 ∧
      bits 102 8 11 < (up s44G).dev.msixSize 16 ∧ (∀ n < 4, (up s44G).dev.s44Base 16 0 n % 4096 = 0) ∧ (up s44G).dev.groupsOf 16 ≠ [] ∧
      (up s44G).dev.ringRoom 16 2 = true) ∧
    ((up s44G).dev.phase = Phase.running ∧ (up s44G).dev.s44Open 16 0 = true ∧ 16 < 8208 ∧ (up s44G).dev.on R.S44_Q_CTRL_enable 16 (4 * 0) = false ∧
      (up s44G).dev.s44Rings 16 0 = [] ∧
      (bits 101 0 4 < 6 ∨ 13 < bits 101 0 4 ∨ bits 101 4 4 < 6 ∨ 13 < bits 101 4 4 ∨ (up s44G).dev.msixSize 16 ≤ bits 101 8 11)) ∧
    ((up s44G).dev.phase = Phase.running ∧ (up s44G).dev.s44Open 16 0 = true ∧ 16 < 8208 ∧ (up s44G).dev.on R.S44_Q_CTRL_enable 16 (4 * 0) = false ∧
      (up s44G).dev.s44Rings 16 0 = [] ∧
      (bits (102 + 64 * 256) 0 4 < 6 ∨ 13 < bits (102 + 64 * 256) 0 4 ∨ bits (102 + 64 * 256) 4 4 < 6 ∨ 13 < bits (102 + 64 * 256) 4 4 ∨ (up
      s44G).dev.msixSize 16 ≤ bits (102 + 64 * 256) 8 11)) ∧
    (s44R.dev.phase = Phase.running ∧ s44R.dev.s44Open 16 1 = true ∧ 16 < 8208 ∧ s44R.dev.on R.S44_Q_CTRL_enable 16 (4 * 1) = true ∧
      s44R.dev.jobs = { } ∧ (∀ r ∈ s44R.dev.s44Rings 16 1, s44R.dev.isException r = false) ∧
      (∀ r ∈ s44R.dev.s44Rings 16 1, ∃ g, s44R.dev.ringIdle r g ∧ g.fn = 16 ∧ g.slot / 2 = 1 ∧ g.stopping = false)) ∧
    (w13_1.dev.phase = Phase.running ∧ 9 ∈ w13_1.dev.s44Rings 16 1 ∧ w13_1.dev.isException 9 = true ∧ w13_1.dev.s44Open 16 1 = true ∧ 16 < 8208 ∧
      w13_1.dev.jobs = { } ∧ w13_1.dev.on R.S44_Q_CTRL_enable 16 (4 * 1) = true) :=
  ⟨⟨by decide +kernel, asks_of rfl⟩,
   ⟨by decide +kernel, asks_of rfl⟩,
   ⟨by decide +kernel, by decide +kernel, by decide +kernel, asks_of rfl, hears_of rfl⟩,
   ⟨by decide +kernel, by decide +kernel, by decide +kernel, asks_of rfl, hears_of rfl⟩,
   ⟨by decide +kernel, by decide +kernel, by decide +kernel, by decide +kernel, by unfold Dev.holdsNothing; decide +kernel⟩,
   by decide +kernel,
   by decide +kernel,
   by decide +kernel,
   by decide +kernel,
   ⟨by decide +kernel, by decide +kernel, by decide +kernel, by decide +kernel, by decide +kernel, by decide +kernel, s44_rings_idle⟩,
   by decide +kernel⟩

theorem meets_InServiceChange_SitOut :
    ((ask 48 (unitW 65 33)).dev.phase = Phase.running ∧ 32 ≤ 33 ∧ 33 < 34 ∧ ((ask 48 (unitW 65 33)).dev.setAt 33).phase = PosPhase.inService ∧
      (ask 48 (unitW 65 33)).dev.asks 0 48 2 false 7 (words 48 (unitW 65 33)) ∧ (ask 48 (unitW 65 33)).dev.serves 0 ∧
      namesUnit (words 48 (unitW 65 33)) 65 33) ∧
    ((ask 48 (unitW 65 31)).dev.phase = Phase.running ∧ 31 < 32 ∧ (ask 48 (unitW 65 31)).dev.hasSet 31 = true ∧
      ((ask 48 (unitW 65 31)).dev.setAt 31).phase = PosPhase.inService ∧ (ask 48 (unitW 65 31)).dev.power.satOut = [] ∧
      (∀ n < 32, n ≠ 31 → ((ask 48 (unitW 65 31)).dev.setAt n).phase ≠ PosPhase.grace) ∧ (ask 48 (unitW 65 31)).dev.replays = [] ∧
      ((ask 48 (unitW 65 31)).dev.die.variant.sets / 2 + 1 ≤ (ask 48 (unitW 65 31)).dev.positionsFilled ∨ (ask 48 (unitW 65
      31)).dev.fitReserve.isSome = true ∧ (ask 48 (unitW 65 31)).dev.die.variant.sets / 2 ≤ (ask 48 (unitW 65 31)).dev.positionsFilled) ∧
      (ask 48 (unitW 65 31)).dev.asks 0 48 2 false 7 (words 48 (unitW 65 31)) ∧ (ask 48 (unitW 65 31)).dev.serves 0 ∧
      namesUnit (words 48 (unitW 65 31)) 65 31) ∧
    ((ask 48 (unitW 65 31) (outs (List.range 16 ++ [32, 33]))).dev.phase = Phase.running ∧ 31 < 32 ∧
      (ask 48 (unitW 65 31) (outs (List.range 16 ++ [32, 33]))).dev.hasSet 31 = true ∧
      ((ask 48 (unitW 65 31) (outs (List.range 16 ++ [32, 33]))).dev.setAt 31).phase = PosPhase.inService ∧
      ((ask 48 (unitW 65 31) (outs (List.range 16 ++ [32, 33]))).dev.power.satOut ≠ [] ∨ (ask 48 (unitW 65 31) (outs (List.range 16 ++ [32,
      33]))).dev.positionsFilled < (ask 48 (unitW 65 31) (outs (List.range 16 ++ [32, 33]))).dev.die.variant.sets / 2 ∨ (ask 48 (unitW 65 31) (outs
      (List.range 16 ++ [32, 33]))).dev.fitReserve = none ∧
      (ask 48 (unitW 65 31) (outs (List.range 16 ++ [32, 33]))).dev.positionsFilled < (ask 48 (unitW 65 31) (outs (List.range 16 ++ [32,
      33]))).dev.die.variant.sets / 2 + 1) ∧
      (ask 48 (unitW 65 31) (outs (List.range 16 ++ [32, 33]))).dev.asks 0 48 2 false 7 (words 48 (unitW 65 31)) ∧
      (ask 48 (unitW 65 31) (outs (List.range 16 ++ [32, 33]))).dev.serves 0 ∧ namesUnit (words 48 (unitW 65 31)) 65 31) ∧
    ((ask 48 (unitW 65 31) (outs (List.range 16))).dev.phase = Phase.running ∧ 31 < 32 ∧
      (ask 48 (unitW 65 31) (outs (List.range 16))).dev.hasSet 31 = true ∧
      ((ask 48 (unitW 65 31) (outs (List.range 16))).dev.setAt 31).phase = PosPhase.inService ∧
      (ask 48 (unitW 65 31) (outs (List.range 16))).dev.power.satOut = [] ∧
      (∀ n < 32, n ≠ 31 → ((ask 48 (unitW 65 31) (outs (List.range 16))).dev.setAt n).phase ≠ PosPhase.grace) ∧
      (ask 48 (unitW 65 31) (outs (List.range 16))).dev.replays = [] ∧
      ((ask 48 (unitW 65 31) (outs (List.range 16))).dev.die.variant.sets / 2 + 1 ≤ (ask 48 (unitW 65 31) (outs (List.range 16))).dev.positionsFilled
      ∨ (ask 48 (unitW 65 31) (outs (List.range 16))).dev.fitReserve.isSome = true ∧
      (ask 48 (unitW 65 31) (outs (List.range 16))).dev.die.variant.sets / 2 ≤ (ask 48 (unitW 65 31) (outs (List.range 16))).dev.positionsFilled) ∧
      (ask 48 (unitW 65 31) (outs (List.range 16))).dev.asks 0 48 2 false 7 (words 48 (unitW 65 31)) ∧
      (ask 48 (unitW 65 31) (outs (List.range 16))).dev.serves 0 ∧ namesUnit (words 48 (unitW 65 31)) 65 31) ∧
    ((ask 48 (unitW 65 31) (outs (List.range 15 ++ [32, 33]))).dev.phase = Phase.running ∧ 31 < 32 ∧
      (ask 48 (unitW 65 31) (outs (List.range 15 ++ [32, 33]))).dev.hasSet 31 = true ∧
      ((ask 48 (unitW 65 31) (outs (List.range 15 ++ [32, 33]))).dev.setAt 31).phase = PosPhase.inService ∧
      (ask 48 (unitW 65 31) (outs (List.range 15 ++ [32, 33]))).dev.power.satOut = [] ∧
      (∀ n < 32, n ≠ 31 → ((ask 48 (unitW 65 31) (outs (List.range 15 ++ [32, 33]))).dev.setAt n).phase ≠ PosPhase.grace) ∧
      (ask 48 (unitW 65 31) (outs (List.range 15 ++ [32, 33]))).dev.replays = [] ∧
      ((ask 48 (unitW 65 31) (outs (List.range 15 ++ [32, 33]))).dev.die.variant.sets / 2 + 1 ≤ (ask 48 (unitW 65 31) (outs (List.range 15 ++ [32,
      33]))).dev.positionsFilled ∨ (ask 48 (unitW 65 31) (outs (List.range 15 ++ [32, 33]))).dev.fitReserve.isSome = true ∧
      (ask 48 (unitW 65 31) (outs (List.range 15 ++ [32, 33]))).dev.die.variant.sets / 2 ≤ (ask 48 (unitW 65 31) (outs (List.range 15 ++ [32,
      33]))).dev.positionsFilled) ∧ (ask 48 (unitW 65 31) (outs (List.range 15 ++ [32, 33]))).dev.asks 0 48 2 false 7 (words 48 (unitW 65 31)) ∧
      (ask 48 (unitW 65 31) (outs (List.range 15 ++ [32, 33]))).dev.serves 0 ∧ namesUnit (words 48 (unitW 65 31)) 65 31) ∧
    ((ask 48 (unitW 65 31) (outs (List.range 17))).dev.phase = Phase.running ∧ 31 < 32 ∧
      (ask 48 (unitW 65 31) (outs (List.range 17))).dev.hasSet 31 = true ∧
      ((ask 48 (unitW 65 31) (outs (List.range 17))).dev.setAt 31).phase = PosPhase.inService ∧
      ((ask 48 (unitW 65 31) (outs (List.range 17))).dev.power.satOut ≠ [] ∨ (ask 48 (unitW 65 31) (outs (List.range 17))).dev.positionsFilled < (ask
      48 (unitW 65 31) (outs (List.range 17))).dev.die.variant.sets / 2 ∨ (ask 48 (unitW 65 31) (outs (List.range 17))).dev.fitReserve = none ∧
      (ask 48 (unitW 65 31) (outs (List.range 17))).dev.positionsFilled < (ask 48 (unitW 65 31) (outs (List.range 17))).dev.die.variant.sets / 2 + 1)
      ∧ (ask 48 (unitW 65 31) (outs (List.range 17))).dev.asks 0 48 2 false 7 (words 48 (unitW 65 31)) ∧
      (ask 48 (unitW 65 31) (outs (List.range 17))).dev.serves 0 ∧ namesUnit (words 48 (unitW 65 31)) 65 31) ∧
    (w13_2.dev.phase = Phase.running ∧ 31 < 32 ∧ w13_2.dev.hasSet 31 = true ∧ (w13_2.dev.setAt 31).phase = PosPhase.inService ∧
      (w13_2.dev.power.satOut ≠ [] ∨ w13_2.dev.positionsFilled < w13_2.dev.die.variant.sets / 2 ∨ w13_2.dev.fitReserve = none ∧
      w13_2.dev.positionsFilled < w13_2.dev.die.variant.sets / 2 + 1) ∧ w13_2.dev.asks 0 48 2 false 7 (words 48 (unitW 65 31)) ∧ w13_2.dev.serves 0 ∧
      namesUnit (words 48 (unitW 65 31)) 65 31) ∧
    ((ask 48 (unitW 80 47)).dev.phase = Phase.running ∧ (ask 48 (unitW 80 47)).dev.hasCry 47 = true ∧ 47 < 48 ∧
      ((ask 48 (unitW 80 47)).dev.cryAt 47).phase = PosPhase.inService ∧ 46 ≤ 47 ∧
      (ask 48 (unitW 80 47)).dev.asks 0 48 2 false 7 (words 48 (unitW 80 47)) ∧ (ask 48 (unitW 80 47)).dev.serves 0 ∧
      namesUnit (words 48 (unitW 80 47)) 80 47) ∧
    ((ask 48 (unitW 80 45) (couts (List.range 45))).dev.phase = Phase.running ∧ (ask 48 (unitW 80 45) (couts (List.range 45))).dev.hasCry 45 = true ∧
      45 < 48 ∧ ((ask 48 (unitW 80 45) (couts (List.range 45))).dev.cryAt 45).phase = PosPhase.inService ∧ 45 < 46 ∧
      (ask 48 (unitW 80 45) (couts (List.range 45))).dev.cryInService.length < 2 ∧
      (ask 48 (unitW 80 45) (couts (List.range 45))).dev.asks 0 48 2 false 7 (words 48 (unitW 80 45)) ∧
      (ask 48 (unitW 80 45) (couts (List.range 45))).dev.serves 0 ∧ namesUnit (words 48 (unitW 80 45)) 80 45) ∧
    ((ask 48 (unitW 80 45) (couts [46, 47])).dev.phase = Phase.running ∧ (ask 48 (unitW 80 45) (couts [46, 47])).dev.hasCry 45 = true ∧ 45 < 48 ∧
      ((ask 48 (unitW 80 45) (couts [46, 47])).dev.cryAt 45).phase = PosPhase.inService ∧ 45 < 46 ∧
      2 ≤ (ask 48 (unitW 80 45) (couts [46, 47])).dev.cryInService.length ∧ (ask 48 (unitW 80 45) (couts [46, 47])).dev.items = { } ∧
      (ask 48 (unitW 80 45) (couts [46, 47])).dev.fitCry = none ∧
      (ask 48 (unitW 80 45) (couts [46, 47])).dev.asks 0 48 2 false 7 (words 48 (unitW 80 45)) ∧
      (ask 48 (unitW 80 45) (couts [46, 47])).dev.serves 0 ∧ namesUnit (words 48 (unitW 80 45)) 80 45) ∧
    ((ask 48 (unitW 80 45)).dev.phase = Phase.running ∧ (ask 48 (unitW 80 45)).dev.hasCry 45 = true ∧ 45 < 48 ∧
      ((ask 48 (unitW 80 45)).dev.cryAt 45).phase = PosPhase.inService ∧ 45 < 46 ∧ 2 ≤ (ask 48 (unitW 80 45)).dev.cryInService.length ∧
      (ask 48 (unitW 80 45)).dev.items = { } ∧ (ask 48 (unitW 80 45)).dev.fitCry = some 46 ∧
      (ask 48 (unitW 80 45)).dev.asks 0 48 2 false 7 (words 48 (unitW 80 45)) ∧ (ask 48 (unitW 80 45)).dev.serves 0 ∧
      namesUnit (words 48 (unitW 80 45)) 80 45) ∧
    ((ask 48 (unitW 80 45) (couts [46])).dev.phase = Phase.running ∧ (ask 48 (unitW 80 45) (couts [46])).dev.hasCry 45 = true ∧ 45 < 48 ∧
      ((ask 48 (unitW 80 45) (couts [46])).dev.cryAt 45).phase = PosPhase.inService ∧ 45 < 46 ∧
      2 ≤ (ask 48 (unitW 80 45) (couts [46])).dev.cryInService.length ∧ (ask 48 (unitW 80 45) (couts [46])).dev.items = { } ∧
      (ask 48 (unitW 80 45) (couts [46])).dev.fitCry = some 47 ∧
      (ask 48 (unitW 80 45) (couts [46])).dev.asks 0 48 2 false 7 (words 48 (unitW 80 45)) ∧ (ask 48 (unitW 80 45) (couts [46])).dev.serves 0 ∧
      namesUnit (words 48 (unitW 80 45)) 80 45) ∧
    ((ask 48 (unitW 176 7)).dev.phase = Phase.running ∧ 7 < 8 ∧ ((ask 48 (unitW 176 7)).dev.cores.getD 7 { }).out = false ∧
      5 ≤ (ask 48 (unitW 176 7)).dev.coresIn.length ∧ (ask 48 (unitW 176 7)).dev.asks 0 48 2 false 7 (words 48 (unitW 176 7)) ∧
      (ask 48 (unitW 176 7)).dev.serves 0 ∧ namesUnit (words 48 (unitW 176 7)) 176 7) ∧
    ((ask 48 (unitW 176 7) (cOuts [0, 1, 2])).dev.phase = Phase.running ∧ 7 < 8 ∧
      ((ask 48 (unitW 176 7) (cOuts [0, 1, 2])).dev.cores.getD 7 { }).out = false ∧ 5 ≤ (ask 48 (unitW 176 7) (cOuts [0, 1, 2])).dev.coresIn.length ∧
      (ask 48 (unitW 176 7) (cOuts [0, 1, 2])).dev.asks 0 48 2 false 7 (words 48 (unitW 176 7)) ∧
      (ask 48 (unitW 176 7) (cOuts [0, 1, 2])).dev.serves 0 ∧ namesUnit (words 48 (unitW 176 7)) 176 7) ∧
    ((ask 48 (unitW 176 7) (cOuts [0, 1, 2, 3])).dev.phase = Phase.running ∧ 7 < 8 ∧
      ((ask 48 (unitW 176 7) (cOuts [0, 1, 2, 3])).dev.cores.getD 7 { }).out = false ∧
      (ask 48 (unitW 176 7) (cOuts [0, 1, 2, 3])).dev.coresIn.length < 5 ∧
      (ask 48 (unitW 176 7) (cOuts [0, 1, 2, 3])).dev.asks 0 48 2 false 7 (words 48 (unitW 176 7)) ∧
      (ask 48 (unitW 176 7) (cOuts [0, 1, 2, 3])).dev.serves 0 ∧ namesUnit (words 48 (unitW 176 7)) 176 7) :=
  ⟨⟨by decide +kernel, by decide +kernel, by decide +kernel, by decide +kernel, asks_of rfl, by unfold Dev.serves; decide +kernel, by unfold namesUnit; decide +kernel⟩,
   ⟨by decide +kernel, by decide +kernel, by decide +kernel, by decide +kernel, by decide +kernel, by decide +kernel, by decide +kernel, by decide +kernel, asks_of rfl, by unfold Dev.serves; decide +kernel, by unfold namesUnit; decide +kernel⟩,
   ⟨by decide +kernel, by decide +kernel, by decide +kernel, by decide +kernel, by decide +kernel, asks_of rfl, by unfold Dev.serves; decide +kernel, by unfold namesUnit; decide +kernel⟩,
   ⟨by decide +kernel, by decide +kernel, by decide +kernel, by decide +kernel, by decide +kernel, by decide +kernel, by decide +kernel, by decide +kernel, asks_of rfl, by unfold Dev.serves; decide +kernel, by unfold namesUnit; decide +kernel⟩,
   ⟨by decide +kernel, by decide +kernel, by decide +kernel, by decide +kernel, by decide +kernel, by decide +kernel, by decide +kernel, by decide +kernel, asks_of rfl, by unfold Dev.serves; decide +kernel, by unfold namesUnit; decide +kernel⟩,
   ⟨by decide +kernel, by decide +kernel, by decide +kernel, by decide +kernel, by decide +kernel, asks_of rfl, by unfold Dev.serves; decide +kernel, by unfold namesUnit; decide +kernel⟩,
   ⟨by decide +kernel, by decide +kernel, by decide +kernel, by decide +kernel, by decide +kernel, asks_of rfl, by unfold Dev.serves; decide +kernel, by unfold namesUnit; decide +kernel⟩,
   ⟨by decide +kernel, by decide +kernel, by decide +kernel, by decide +kernel, by decide +kernel, asks_of rfl, by unfold Dev.serves; decide +kernel, by unfold namesUnit; decide +kernel⟩,
   ⟨by decide +kernel, by decide +kernel, by decide +kernel, by decide +kernel, by decide +kernel, by decide +kernel, asks_of rfl, by unfold Dev.serves; decide +kernel, by unfold namesUnit; decide +kernel⟩,
   ⟨by decide +kernel, by decide +kernel, by decide +kernel, by decide +kernel, by decide +kernel, by decide +kernel, by decide +kernel, by decide +kernel, asks_of rfl, by unfold Dev.serves; decide +kernel, by unfold namesUnit; decide +kernel⟩,
   ⟨by decide +kernel, by decide +kernel, by decide +kernel, by decide +kernel, by decide +kernel, by decide +kernel, by decide +kernel, by decide +kernel, asks_of rfl, by unfold Dev.serves; decide +kernel, by unfold namesUnit; decide +kernel⟩,
   ⟨by decide +kernel, by decide +kernel, by decide +kernel, by decide +kernel, by decide +kernel, by decide +kernel, by decide +kernel, by decide +kernel, asks_of rfl, by unfold Dev.serves; decide +kernel, by unfold namesUnit; decide +kernel⟩,
   ⟨by decide +kernel, by decide +kernel, by decide +kernel, by decide +kernel, asks_of rfl, by unfold Dev.serves; decide +kernel, by unfold namesUnit; decide +kernel⟩,
   ⟨by decide +kernel, by decide +kernel, by decide +kernel, by decide +kernel, asks_of rfl, by unfold Dev.serves; decide +kernel, by unfold namesUnit; decide +kernel⟩,
   ⟨by decide +kernel, by decide +kernel, by decide +kernel, by decide +kernel, asks_of rfl, by unfold Dev.serves; decide +kernel, by unfold namesUnit; decide +kernel⟩⟩

theorem meets_InServiceChange_Rejoin :
    ((ask 49 (unitW 65 33) (outs [33])).dev.phase = Phase.running ∧ 33 < 34 ∧ (ask 49 (unitW 65 33) (outs [33])).dev.hasSet 33 = true ∧
      ((ask 49 (unitW 65 33) (outs [33])).dev.setAt 33).phase = PosPhase.out ∧ ((ask 49 (unitW 65 33) (outs [33])).dev.setAt 33).thermal = false ∧
      (ask 49 (unitW 65 33) (outs [33])).dev.asks 0 49 2 false 7 (words 49 (unitW 65 33)) ∧ (ask 49 (unitW 65 33) (outs [33])).dev.serves 0 ∧
      namesUnit (words 49 (unitW 65 33)) 65 33) ∧
    (w13_3.dev.phase = Phase.running ∧ 31 < 34 ∧ w13_3.dev.hasSet 31 = true ∧ (w13_3.dev.setAt 31).phase = PosPhase.out ∧
      (w13_3.dev.setAt 31).thermal = true ∧ w13_3.dev.asks 0 49 2 false 7 (words 49 (unitW 65 31)) ∧ w13_3.dev.serves 0 ∧
      namesUnit (words 49 (unitW 65 31)) 65 31) ∧
    ((ask 49 (unitW 80 47) (couts [47])).dev.phase = Phase.running ∧ 47 < 48 ∧ (ask 49 (unitW 80 47) (couts [47])).dev.hasCry 47 = true ∧
      ((ask 49 (unitW 80 47) (couts [47])).dev.cryAt 47).phase = PosPhase.out ∧
      (ask 49 (unitW 80 47) (couts [47])).dev.asks 0 49 2 false 7 (words 49 (unitW 80 47)) ∧ (ask 49 (unitW 80 47) (couts [47])).dev.serves 0 ∧
      namesUnit (words 49 (unitW 80 47)) 80 47) ∧
    ((ask 49 (unitW 176 7) (cOuts [7])).dev.phase = Phase.running ∧ 7 < 8 ∧ ((ask 49 (unitW 176 7) (cOuts [7])).dev.cores.getD 7 { }).out = true ∧
      ((ask 49 (unitW 176 7) (cOuts [7])).dev.cores.getD 7 { }).testing = false ∧
      (ask 49 (unitW 176 7) (cOuts [7])).dev.asks 0 49 2 false 7 (words 49 (unitW 176 7)) ∧ (ask 49 (unitW 176 7) (cOuts [7])).dev.serves 0 ∧
      namesUnit (words 49 (unitW 176 7)) 176 7) :=
  ⟨⟨by decide +kernel, by decide +kernel, by decide +kernel, by decide +kernel, by decide +kernel, asks_of rfl, by unfold Dev.serves; decide +kernel, by unfold namesUnit; decide +kernel⟩,
   ⟨by decide +kernel, by decide +kernel, by decide +kernel, by decide +kernel, by decide +kernel, asks_of rfl, by unfold Dev.serves; decide +kernel, by unfold namesUnit; decide +kernel⟩,
   ⟨by decide +kernel, by decide +kernel, by decide +kernel, by decide +kernel, asks_of rfl, by unfold Dev.serves; decide +kernel, by unfold namesUnit; decide +kernel⟩,
   ⟨by decide +kernel, by decide +kernel, by decide +kernel, by decide +kernel, asks_of rfl, by unfold Dev.serves; decide +kernel, by unfold namesUnit; decide +kernel⟩⟩

theorem meets_InServiceChange_Tested :
    ((up testing).dev.phase = Phase.running ∧ (up testing).dev.jobs = { } ∧ (up testing).dev.apply = none ∧ 33 < 34 ∧
      ((up testing).dev.setAt 33).phase = PosPhase.testing) ∧
    ((up testing).dev.phase = Phase.running ∧ (up testing).dev.jobs = { } ∧ (up testing).dev.apply = none ∧ 47 < 48 ∧
      ((up testing).dev.cryAt 47).phase = PosPhase.testing) ∧
    ((up testing).dev.phase = Phase.running ∧ (up testing).dev.jobs = { } ∧ (up testing).dev.apply = none ∧ 7 < 8 ∧
      ((up testing).dev.cores.getD 7 { }).testing = true) := by decide +kernel

theorem meets_InServiceChange_Stage :
    ((ask 50 (stg 5) noBm).dev.phase = Phase.running ∧ (ask 50 (stg 5) noBm).dev.canIssue 0 = false ∧ (ask 50 (stg 5) noBm).dev.serves 0 ∧
      (ask 50 (stg 5) noBm).dev.asks 0 50 4 false 7 (words 50 (stg 5))) ∧
    ((ask 50 (stg 33554433)).dev.phase = Phase.running ∧ (ask 50 (stg 33554433)).dev.canIssue 0 = true ∧
      (ask 50 (stg 33554433)).flash.dir = some dirA ∧ dirA.slotSize < reqWord (words 50 (stg 33554433)) 3 ∧ (ask 50 (stg 33554433)).dev.serves 0 ∧
      (ask 50 (stg 33554433)).dev.asks 0 50 4 false 7 (words 50 (stg 33554433))) ∧
    ((ask 50 (stg 33554432)).dev.phase = Phase.running ∧ (ask 50 (stg 33554432)).dev.canIssue 0 = true ∧
      (ask 50 (stg 33554432)).flash.dir = some dirA ∧ reqWord (words 50 (stg 33554432)) 3 ≤ dirA.slotSize ∧
      img.imageBytes ≤ reqWord (words 50 (stg 33554432)) 3 ∧ (ask 50 (stg 33554432)).dev.serves 0 ∧
      (ask 50 (stg 33554432)).dev.asks 0 50 4 false 7 (words 50 (stg 33554432)) ∧
      verifies (ask 50 (stg 33554432)).dev.die.variant (ask 50 (stg 33554432)).fuses dirA.slotSize img = true) ∧
    ((ask 50 (stg 4194304)).dev.phase = Phase.running ∧ (ask 50 (stg 4194304)).dev.canIssue 0 = true ∧ (ask 50 (stg 4194304)).flash.dir = some dirA ∧
      reqWord (words 50 (stg 4194304)) 3 ≤ dirA.slotSize ∧ img.imageBytes ≤ reqWord (words 50 (stg 4194304)) 3 ∧
      (ask 50 (stg 4194304)).dev.serves 0 ∧ (ask 50 (stg 4194304)).dev.asks 0 50 4 false 7 (words 50 (stg 4194304)) ∧
      verifies (ask 50 (stg 4194304)).dev.die.variant (ask 50 (stg 4194304)).fuses dirA.slotSize img = true) ∧
    ((ask 50 (stg 4194304)).dev.phase = Phase.running ∧ (ask 50 (stg 4194304)).dev.canIssue 0 = true ∧ (ask 50 (stg 4194304)).flash.dir = some dirA ∧
      reqWord (words 50 (stg 4194304)) 3 ≤ dirA.slotSize ∧ (ask 50 (stg 4194304)).dev.serves 0 ∧
      (ask 50 (stg 4194304)).dev.asks 0 50 4 false 7 (words 50 (stg 4194304)) ∧
      verifies (ask 50 (stg 4194304)).dev.die.variant (ask 50 (stg 4194304)).fuses dirA.slotSize bare = false) :=
  ⟨⟨by decide +kernel, by decide +kernel, by unfold Dev.serves; decide +kernel, asks_of rfl⟩,
   ⟨by decide +kernel, by decide +kernel, by decide +kernel, by decide +kernel, by unfold Dev.serves; decide +kernel, asks_of rfl⟩,
   ⟨by decide +kernel, by decide +kernel, by decide +kernel, by decide +kernel, by decide +kernel, by unfold Dev.serves; decide +kernel, asks_of rfl, img_verifies⟩,
   ⟨by decide +kernel, by decide +kernel, by decide +kernel, by decide +kernel, by decide +kernel, by unfold Dev.serves; decide +kernel, asks_of rfl, img_verifies⟩,
   ⟨by decide +kernel, by decide +kernel, by decide +kernel, by decide +kernel, by unfold Dev.serves; decide +kernel, asks_of rfl, bare_does_not_verify⟩⟩

theorem meets_InServiceChange_Apply :
    ((both (ask 51 [])).dev.phase = Phase.running ∧ (both (ask 51 [])).dev.apply = none ∧ (both (ask 51 [])).flash.dir = some dirA ∧
      applyOk img img = true ∧ (both (ask 51 [])).dev.serves 0 ∧ (both (ask 51 [])).dev.asks 0 51 1 false 7 (words 51 []) ∧
      (both (ask 51 [])).flash.verified (both (ask 51 [])).dev.die.variant (both (ask 51 [])).fuses dirA (1 - dirA.active) = some img ∧
      (both (ask 51 [])).dev.boot.image = some img) ∧
    (w13_4.dev.phase = Phase.running ∧ w13_4.flash.dir = some dirA ∧ applyOk img stoppedApply1.image = true ∧ w13_4.dev.serves 0 ∧
      w13_4.dev.asks 0 51 1 false 7 (words 51 []) ∧ w13_4.dev.apply = some stoppedApply1 ∧
      w13_4.flash.verified w13_4.dev.die.variant w13_4.fuses dirA (1 - dirA.active) = some stoppedApply1.image ∧ w13_4.dev.boot.image = some img) ∧
    (onOther.dev.phase = Phase.running ∧ onOther.dev.apply = none ∧ onOther.flash.dir = some dirA ∧ applyOk otherImg img = false ∧
      onOther.dev.serves 0 ∧ onOther.dev.asks 0 51 1 false 7 (words 51 []) ∧
      onOther.flash.verified onOther.dev.die.variant onOther.fuses dirA (1 - dirA.active) = some img ∧ onOther.dev.boot.image = some otherImg) :=
  ⟨⟨by decide +kernel, by decide +kernel, by decide +kernel, by decide +kernel, by unfold Dev.serves; decide +kernel, asks_of rfl, slotB_verified rfl, rfl⟩,
   ⟨by decide +kernel, by decide +kernel, by decide +kernel, by unfold Dev.serves; decide +kernel, asks_of rfl, rfl, slotB_verified rfl, rfl⟩,
   ⟨by decide +kernel, by decide +kernel, by decide +kernel, by decide +kernel, by unfold Dev.serves; decide +kernel, asks_of rfl, slotB_verified rfl, rfl⟩⟩

theorem meets_StreamPort_Train :
    ((stp 1).dev.phase = Phase.running ∧ ((stp 1).dev.stpState = 1 ∨ (stp 1).dev.stpState = 4) ∧ (stp 1).dev.stp.waits = false) ∧
    (w13_5.dev.phase = Phase.running ∧ (w13_5.dev.stpState = 1 ∨ w13_5.dev.stpState = 4) ∧ w13_5.dev.stp.waits = false) ∧
    (w13_6.dev.phase = Phase.running ∧ (w13_6.dev.stpState = 1 ∨ w13_6.dev.stpState = 4) ∧ w13_6.dev.stp.waits = false ∧
      w13_6.dev.on R.STP_CTRL_allow_x8 = true) ∧
    (w13_7.dev.phase = Phase.running ∧ (w13_7.dev.stpState = 1 ∨ w13_7.dev.stpState = 4) ∧ w13_7.dev.stp.waits = false ∧ 8 ≠ 16 ∧
      (8 ≠ 8 ∨ w13_7.dev.on R.STP_CTRL_allow_x8 = false)) ∧
    ((stp 4).dev.phase = Phase.running ∧ ((stp 4).dev.stpState = 1 ∨ (stp 4).dev.stpState = 4) ∧ (stp 4).dev.stp.waits = false ∧ 4 ≠ 16 ∧
      (4 ≠ 8 ∨ (stp 4).dev.on R.STP_CTRL_allow_x8 = false)) ∧
    (w13_8.dev.phase = Phase.running ∧ w13_8.dev.stp.waits = true ∧ w13_8.dev.stp.fails < w13_8.dev.retrainLimit ∧ w13_8.dev.stpSane) ∧
    (w13_9.dev.phase = Phase.running ∧ w13_9.dev.stp.waits = true ∧ w13_9.dev.retrainLimit ≤ w13_9.dev.stp.fails ∧ w13_9.dev.stpSane) ∧
    ((stp 4).dev.phase = Phase.running ∧ ((stp 4).dev.stpState = 1 ∨ (stp 4).dev.stpState = 4) ∧ (stp 4).dev.stp.waits = false) ∧
    (w13_10.dev.phase = Phase.running ∧ w13_10.dev.stpRuns = true ∧ w13_10.dev.stp.kept ≠ [] ∧ w13_10.dev.stpSane) ∧
    (w13_11.dev.phase = Phase.running ∧ w13_11.dev.stpRuns = true ∧ w13_11.dev.stp.kept ≠ [] ∧ w13_11.dev.stpSane) ∧
    (w13_12.dev.phase = Phase.running ∧ w13_12.dev.stpUp = true ∧ w13_12.dev.stpSane) :=
  ⟨by decide +kernel,
   by decide +kernel,
   by decide +kernel,
   by decide +kernel,
   by decide +kernel,
   ⟨by decide +kernel, by decide +kernel, by decide +kernel, by unfold Dev.stpSane; decide +kernel⟩,
   ⟨by decide +kernel, by decide +kernel, by decide +kernel, by unfold Dev.stpSane; decide +kernel⟩,
   by decide +kernel,
   ⟨by decide +kernel, by decide +kernel, by decide +kernel, by unfold Dev.stpSane; decide +kernel⟩,
   ⟨by decide +kernel, by decide +kernel, by decide +kernel, by unfold Dev.stpSane; decide +kernel⟩,
   ⟨by decide +kernel, by decide +kernel, by unfold Dev.stpSane; decide +kernel⟩⟩

theorem meets_StreamPort_Flits :
    (w13_13.dev.phase = Phase.running ∧ w13_13.dev.stpRuns = true ∧ w13_13.dev.stp.resend = [flit2]) ∧
    (w13_14.dev.phase = Phase.running ∧ w13_14.dev.stpRuns = true ∧ w13_14.dev.stp.resend = [] ∧ 512 ≤ w13_14.dev.stp.kept.length) ∧
    (w13_15.dev.phase = Phase.running ∧ w13_15.dev.stpRuns = true ∧ w13_15.dev.stp.resend = [] ∧ w13_15.dev.stp.kept.length < 512 ∧
      w13_15.dev.nextMsg = some mX ∧ 0 < w13_15.dev.stp.msgCredits) ∧
    ((stp 2 (withStp sndS)).dev.phase = Phase.running ∧ (stp 2 (withStp sndS)).dev.stpRuns = true ∧ (stp 2 (withStp sndS)).dev.stp.resend = [] ∧
      (stp 2 (withStp sndS)).dev.stp.kept.length < 512 ∧
      ((stp 2 (withStp sndS)).dev.nextMsg = none ∨ (stp 2 (withStp sndS)).dev.stp.msgCredits = 0) ∧ (stp 2 (withStp sndS)).dev.nextSend = some xf) ∧
    (w13_16.dev.phase = Phase.running ∧ w13_16.dev.stpRuns = true ∧ w13_16.dev.stp.resend = [] ∧ w13_16.dev.stp.kept.length < 512 ∧
      (w13_16.dev.nextMsg = none ∨ w13_16.dev.stp.msgCredits = 0) ∧ w13_16.dev.nextSend = none) ∧
    ((rcv 240).dev.phase = Phase.running ∧ (rcv 240).dev.stpRuns = true ∧ (rcv 240).dev.stp.xfers = [xr] ∧ xr.receive = true ∧ xr.running = true ∧
      xr.stream = some 2 ∧ (fl 240).stream = 2 ∧
      ((rcv 240).dev.stream xr.key).flits.length + ((rcv 240).dev.stream xr.key).owed < ((rcv 240).dev.stream xr.key).credits ∧
      ((rcv 240).dev.stream xr.key).moved + (fl 240).payload.length < xr.length ∧ (rcv 240).dev.takesFlit (fl 240)) ∧
    ((rcv 240 240).dev.phase = Phase.running ∧ (rcv 240 240).dev.stpRuns = true ∧ (rcv 240 240).dev.stp.xfers = [xr] ∧ xr.receive = true ∧
      xr.running = true ∧ xr.stream = some 2 ∧ (fl 240).stream = 2 ∧
      ((rcv 240 240).dev.stream xr.key).flits.length + ((rcv 240 240).dev.stream xr.key).owed < ((rcv 240 240).dev.stream xr.key).credits ∧
      ((rcv 240 240).dev.stream xr.key).moved + (fl 240).payload.length = xr.length ∧ (rcv 240 240).dev.takesFlit (fl 240)) ∧
    ((rcv 240 240).dev.phase = Phase.running ∧ (rcv 240 240).dev.stpRuns = true ∧ (rcv 240 240).dev.stp.xfers = [xr] ∧ xr.receive = true ∧
      xr.running = true ∧ xr.stream = some 2 ∧ (fl 239).stream = 2 ∧
      ((rcv 240 240).dev.stream xr.key).flits.length + ((rcv 240 240).dev.stream xr.key).owed < ((rcv 240 240).dev.stream xr.key).credits ∧
      ((rcv 240 240).dev.stream xr.key).moved + (fl 239).payload.length < xr.length ∧ (rcv 240 240).dev.takesFlit (fl 239)) ∧
    ((rcv 0).dev.phase = Phase.running ∧ (rcv 0).dev.stpRuns = true ∧ (rcv 0).dev.stp.xfers = [xr] ∧ xr.receive = true ∧ xr.running = true ∧
      xr.stream = some 2 ∧ (fl 240).stream = 2 ∧
      ((rcv 0).dev.stream xr.key).credits ≤ ((rcv 0).dev.stream xr.key).flits.length + ((rcv 0).dev.stream xr.key).owed ∧
      (rcv 0).dev.takesFlit (fl 240)) ∧
    (w13_17.dev.phase = Phase.running ∧ w13_17.dev.stpRuns = true ∧ bits (leAt (fm 16417 1 0 9 0 0).payload 0 4) 0 15 = 16417 ∧ 16417 < 18432 ∧
      hasBit (leAt (fm 16417 1 0 9 0 0).payload 0 4) 15 = true ∧ w13_17.dev.binding 16417 = some (2, midStp) ∧
      (w13_17.dev.chan 16417).held = some (msg [5] 4 9) ∧ (msg [5] 4 9).seq = leAt (fm 16417 1 0 9 0 0).payload 4 2 ∧ w13_17.dev.stp.outbox = [] ∧
      w13_17.dev.takesFlit (fm 16417 1 0 9 0 0)) ∧
    (w13_18.dev.phase = Phase.running ∧ w13_18.dev.stpRuns = true ∧ bits (leAt (fm 16418 0 12 9 0 81).payload 0 4) 0 15 = 16418 ∧ 16418 < 18432 ∧
      hasBit (leAt (fm 16418 0 12 9 0 81).payload 0 4) 15 = false ∧ w13_18.dev.binding 16418 = some (midStp, 2) ∧
      (isFnMid 2 = true ∨ isCoreMid 2 = true) ∧ (w13_18.dev.chan 16418).held = none ∧ leAt (fm 16418 0 12 9 0 81).payload 8 4 % 256 < 82 ∧
      w13_18.dev.takesFlit (fm 16418 0 12 9 0 81)) ∧
    (w13_19.dev.phase = Phase.running ∧ w13_19.dev.stpRuns = true ∧ flit3.crcOk = true ∧ flit3.fseq = w13_19.dev.stp.expect ∧
      w13_19.dev.stp.kept = flit4 :: laterFlits1 ∧ flit3.ackValid = true ∧ flit3.ackSeq = flit4.fseq ∧ flit3.nak = false) ∧
    (w13_19.dev.phase = Phase.running ∧ w13_19.dev.stpRuns = true ∧ flit5.crcOk = true ∧ flit5.fseq = w13_19.dev.stp.expect ∧
      flit5.ackValid = false ∧ flit5.nak = true ∧ w13_19.dev.stp.resends < w13_19.dev.replayLimit) ∧
    (w13_19.dev.phase = Phase.running ∧ w13_19.dev.stpRuns = true ∧ w13_19.dev.flitGood flit6 = false ∧ w13_19.dev.stp.nakOut = false) ∧
    (w13_18.dev.phase = Phase.running ∧ w13_18.dev.stpRuns = true ∧ w13_18.dev.flitGood flit7 = false ∧ w13_18.dev.stp.nakOut = false) ∧
    (w13_18.dev.phase = Phase.running ∧ w13_18.dev.stpRuns = true ∧ w13_18.dev.flitGood flit8 = false ∧ w13_18.dev.stp.nakOut = false) :=
  ⟨by decide +kernel,
   by decide +kernel,
   by decide +kernel,
   by decide +kernel,
   by decide +kernel,
   ⟨by decide +kernel, by decide +kernel, by decide +kernel, by decide +kernel, by decide +kernel, by decide +kernel, by decide +kernel, by decide +kernel, by decide +kernel, by unfold Dev.takesFlit; decide +kernel⟩,
   ⟨by decide +kernel, by decide +kernel, by decide +kernel, by decide +kernel, by decide +kernel, by decide +kernel, by decide +kernel, by decide +kernel, by decide +kernel, by unfold Dev.takesFlit; decide +kernel⟩,
   ⟨by decide +kernel, by decide +kernel, by decide +kernel, by decide +kernel, by decide +kernel, by decide +kernel, by decide +kernel, by decide +kernel, by decide +kernel, by unfold Dev.takesFlit; decide +kernel⟩,
   ⟨by decide +kernel, by decide +kernel, by decide +kernel, by decide +kernel, by decide +kernel, by decide +kernel, by decide +kernel, by decide +kernel, by unfold Dev.takesFlit; decide +kernel⟩,
   ⟨by decide +kernel, by decide +kernel, by decide +kernel, by decide +kernel, by decide +kernel, by decide +kernel, by decide +kernel, by decide +kernel, by decide +kernel, by unfold Dev.takesFlit; decide +kernel⟩,
   ⟨by decide +kernel, by decide +kernel, by decide +kernel, by decide +kernel, by decide +kernel, by decide +kernel, by decide +kernel, by decide +kernel, by decide +kernel, by unfold Dev.takesFlit; decide +kernel⟩,
   by decide +kernel,
   by decide +kernel,
   by decide +kernel,
   by decide +kernel,
   by decide +kernel⟩

theorem meets_StreamPort_Bulk :
    ((stpA 80 (bw 1) 5).dev.phase = Phase.running ∧ (stpA 80 (bw 1) 5).dev.die.variant.hasStp = true ∧ 0 < 16 ∧
      (stpA 80 (bw 1) 5).dev.reaches 0 213 = true ∧ reqWord (words 80 (bw 1)) 5 ≠ 0 ∧
      (∀ x ∈ (stpA 80 (bw 1) 5).dev.stp.xfers, x.id ≠ reqWord (words 80 (bw 1)) 2) ∧ (stpA 80 (bw 1) 5).dev.stpUp = false ∧
      (stpA 80 (bw 1) 5).dev.asks 0 80 6 false 7 (words 80 (bw 1))) ∧
    (w13_20.dev.phase = Phase.running ∧ w13_20.dev.die.variant.hasStp = true ∧ 0 < 16 ∧ w13_20.dev.reaches 0 213 = true ∧
      reqWord (words 80 (bw 1)) 5 ≠ 0 ∧ (∀ x ∈ w13_20.dev.stp.xfers, x.id ≠ reqWord (words 80 (bw 1)) 2) ∧ w13_20.dev.stpUp = true ∧
      (w13_20.dev.freeStream = none ∨ w13_20.dev.freeStpChannel = none) ∧ w13_20.dev.asks 0 80 6 false 7 (words 80 (bw 1))) ∧
    (w13_21.dev.phase = Phase.running ∧ w13_21.dev.die.variant.hasStp = true ∧ 0 < 16 ∧ w13_21.dev.reaches 0 213 = true ∧
      reqWord (words 80 (bw 1)) 5 ≠ 0 ∧ (∀ x ∈ w13_21.dev.stp.xfers, x.id ≠ reqWord (words 80 (bw 1)) 2) ∧ w13_21.dev.stpUp = true ∧
      w13_21.dev.freeStream = some 0 ∧ w13_21.dev.freeStpChannel = some 63 ∧
      (hasBit (reqWord (words 80 (bw 1)) 1) 0 = false ∨ ∀ h ∈ w13_21.dev.stp.heard, h.1 ≠ reqWord (words 80 (bw 1)) 2) ∧
      w13_21.dev.asks 0 80 6 false 7 (words 80 (bw 1))) ∧
    (w13_22.dev.phase = Phase.running ∧ w13_22.dev.die.variant.hasStp = true ∧ 0 < 16 ∧ w13_22.dev.reaches 0 213 = true ∧
      reqWord (words 80 (bw 0)) 5 ≠ 0 ∧ (∀ x ∈ w13_22.dev.stp.xfers, x.id ≠ reqWord (words 80 (bw 0)) 2) ∧ w13_22.dev.stpUp = true ∧
      w13_22.dev.freeStream = some 0 ∧ w13_22.dev.freeStpChannel = some 63 ∧
      (hasBit (reqWord (words 80 (bw 0)) 1) 0 = false ∨ ∀ h ∈ w13_22.dev.stp.heard, h.1 ≠ reqWord (words 80 (bw 0)) 2) ∧
      w13_22.dev.asks 0 80 6 false 7 (words 80 (bw 0))) ∧
    (w13_23.dev.phase = Phase.running ∧ w13_23.dev.die.variant.hasStp = true ∧ 0 < 16 ∧ w13_23.dev.reaches 0 213 = true ∧
      w13_23.dev.stp.xfers = [xferOf1] ∧ xferOf1.id = reqWord (words 81 [0, 77]) 2 ∧ xferOf1.fn ≠ 0 ∧
      w13_23.dev.asks 0 81 3 false 7 (words 81 [0, 77])) ∧
    (w13_24.dev.phase = Phase.running ∧ w13_24.dev.die.variant.hasStp = true ∧ 0 < 16 ∧ w13_24.dev.reaches 0 213 = true ∧
      w13_24.dev.stp.xfers = [xferOf2] ∧ xferOf2.id = reqWord (words 81 [0, 77]) 2 ∧ xferOf2.fn = 0 ∧ xferOf2.stream = some 15 ∧ 15 < 16 ∧
      w13_24.dev.asks 0 81 3 false 7 (words 81 [0, 77])) ∧
    (w13_24.dev.phase = Phase.running ∧ w13_24.dev.stp.xfers = [xferOf2] ∧ xferOf2.running = false ∧ xferOf2.stream = some 15 ∧ 15 < 16 ∧
      xferOf2.fn < 8208) :=
  ⟨⟨by decide +kernel, by decide +kernel, by decide +kernel, by decide +kernel, by decide +kernel, by decide +kernel, by decide +kernel, asks_of rfl⟩,
   ⟨by decide +kernel, by decide +kernel, by decide +kernel, by decide +kernel, by decide +kernel, by decide +kernel, by decide +kernel, by decide +kernel, asks_of rfl⟩,
   ⟨by decide +kernel, by decide +kernel, by decide +kernel, by decide +kernel, by decide +kernel, by decide +kernel, by decide +kernel, by decide +kernel, by decide +kernel, by decide +kernel, asks_of rfl⟩,
   ⟨by decide +kernel, by decide +kernel, by decide +kernel, by decide +kernel, by decide +kernel, by decide +kernel, by decide +kernel, by decide +kernel, by decide +kernel, by decide +kernel, asks_of rfl⟩,
   ⟨by decide +kernel, by decide +kernel, by decide +kernel, by decide +kernel, by decide +kernel, by decide +kernel, by decide +kernel, asks_of rfl⟩,
   ⟨by decide +kernel, by decide +kernel, by decide +kernel, by decide +kernel, by decide +kernel, by decide +kernel, by decide +kernel, by decide +kernel, by decide +kernel, asks_of rfl⟩,
   by decide +kernel⟩

end Change

end Sys2Proof.Tests
end

section
/-!
The read-only Tempo window of a VF (R392).
-/

namespace Sys2Proof.Machine

/-! ## A read wakes its link, and the Tempo registers do not see it -/

/-- The key of a link's state has byte offset 0 and lsb 0, so a field at any other place reads as before, whatever the link. -/
theorem Dev.rd_leaveL1_ne (d : Dev) (link : Nat) (g : Field) (j b : Nat) (h : g.key j b % 2 ^ 30 ≠ 0) :
    (d.leaveL1 link).rd g j b = d.rd g j b := by
  have hkey : g.key j b ≠ R.PCX_LINK_STATUS_state.key link 0 := fun e => h (by
    rw [e]
    simp only [Field.key, R.PCX_LINK_STATUS_state]
    omega)
  unfold Dev.leaveL1
  split
  · exact d.rd_wr_ne _ _ _ _ _ _ _ hkey
  · rfl

@[simp] theorem Dev.leaveL1_phase (d : Dev) (link : Nat) : (d.leaveL1 link).phase = d.phase := by
  unfold Dev.leaveL1; split <;> rfl

@[simp] theorem Dev.leaveL1_out (d : Dev) (link : Nat) : (d.leaveL1 link).out = d.out := by
  unfold Dev.leaveL1; split <;> rfl

@[simp] theorem Dev.leaveL1_funcs (d : Dev) (link : Nat) : (d.leaveL1 link).funcs = d.funcs := by
  unfold Dev.leaveL1; split <;> rfl

@[simp] theorem Dev.leaveL1_tempo (d : Dev) (link : Nat) : (d.leaveL1 link).tempo = d.tempo := by
  unfold Dev.leaveL1; split <;> rfl

@[simp] theorem Dev.doorbellOpen_leaveL1 (d : Dev) (link fn : Nat) : (d.leaveL1 link).doorbellOpen fn = d.doorbellOpen fn := by
  have hfn : (d.leaveL1 link).fn fn = d.fn fn := by simp [Dev.fn]
  rw [Dev.doorbellOpen, Dev.doorbellOpen, Dev.hasFn, Dev.hasFn, hfn]

/-! ## The registers of a domain -/

@[simp] theorem Dev.readDomain_out (mid k r : Nat) (d : Dev) : (d.readDomain mid k r).2.out = d.out := by
  simp only [Dev.readDomain]
  split_ifs <;> rfl

/-- A read of a domain register and the latch it sets depend on the Tempo unit and the flags of TMP_DOM_UNC alone. -/
theorem Dev.readDomain_congr (mid k r : Nat) {d e : Dev} (htempo : d.tempo = e.tempo)
    (hvalid : d.rd R.TMP_DOM_UNC_valid 0 (128 * k) = e.rd R.TMP_DOM_UNC_valid 0 (128 * k))
    (hholdover : d.rd R.TMP_DOM_UNC_holdover 0 (128 * k) = e.rd R.TMP_DOM_UNC_holdover 0 (128 * k))
    (hrefused : d.rd R.TMP_DOM_UNC_step_refused 0 (128 * k) = e.rd R.TMP_DOM_UNC_step_refused 0 (128 * k)) :
    (d.readDomain mid k r).1 = (e.readDomain mid k r).1 ∧ (d.readDomain mid k r).2.tempo = (e.readDomain mid k r).2.tempo := by
  have hdom : d.dom k = e.dom k := by simp only [Dev.dom, htempo]
  have hlatch : d.latchOf mid k = e.latchOf mid k := by simp only [Dev.latchOf, htempo]
  have hunc : d.unc k = e.unc k := by
    rw [Dev.unc, Dev.unc, Dev.domValid, Dev.domValid, Dev.on, Dev.on, hdom, hvalid]
  have hset : (d.latchDomain mid k).tempo = (e.latchDomain mid k).tempo := by simp only [Dev.latchDomain, htempo, hdom, hunc]
  simp only [Dev.readDomain, hlatch, hdom, hvalid, hholdover, hrefused]
  split_ifs
  · exact ⟨rfl, hset⟩
  all_goals exact ⟨rfl, htempo⟩

/-- A domain register reads the same over a link that wakes for the read. -/
theorem Dev.readDomain_leaveL1 (d : Dev) (link mid k r : Nat) :
    ((d.leaveL1 link).readDomain mid k r).1 = (d.readDomain mid k r).1 ∧
      ((d.leaveL1 link).readDomain mid k r).2.tempo = (d.readDomain mid k r).2.tempo := by
  apply Dev.readDomain_congr _ _ _ (d.leaveL1_tempo link) <;> apply Dev.rd_leaveL1_ne
  · simp only [Field.key, R.TMP_DOM_UNC_valid]; omega
  · simp only [Field.key, R.TMP_DOM_UNC_holdover]; omega
  · simp only [Field.key, R.TMP_DOM_UNC_step_refused]; omega

/-- In the TMP window the domain registers are read by `readDomain`. -/
theorem Dev.readLive_domain (d : Dev) (mid off : Nat) (h : isDomainOff off = true) :
    d.readLive mid 0x80 0 off = d.readDomain mid ((off - 0x100) / 128) (off % 128) := by
  simp [Dev.readLive, h]

/-! ## The window -/

theorem exec_barMemoryRead (fn : Nat) (a : BarAddr) (len : Nat) (s : State) :
    exec (.barMemoryRead fn a len) s = execBarMemoryRead fn a len s := rfl

theorem exec_registerWrite (mid unit inst off bytes v : Nat) (s : State) :
    exec (.registerWrite mid unit inst off bytes v) s = execRegisterWrite mid unit inst off bytes v s := rfl

theorem Dev.vfTempo_domain (fn off : Nat) (d : Dev) (h : isDomainOff off = true) :
    d.vfTempo fn off = d.readLive (midFn fn) 0x80 0 off := by
  rw [d.readLive_domain _ _ h, Dev.vfTempo, if_pos h]

@[simp] theorem Dev.vfTempo_ticksLo (fn : Nat) (d : Dev) : d.vfTempo fn 0x10 = (d.rd R.TMP_TICKS_LO_value, d) := rfl

@[simp] theorem Dev.vfTempo_ticksHi (fn : Nat) (d : Dev) : d.vfTempo fn 0x14 = (d.rd R.TMP_TICKS_HI_value, d) := rfl

theorem Dev.vfTempo_other (fn off : Nat) (d : Dev) (hlo : off ≠ 0x10) (hhi : off ≠ 0x14) (h : isDomainOff off = false) :
    d.vfTempo fn off = (0, d) := by
  simp [Dev.vfTempo, hlo, hhi, h]

@[simp] theorem Dev.vfTempo_out (fn off : Nat) (d : Dev) : (d.vfTempo fn off).2.out = d.out := by
  unfold Dev.vfTempo
  split_ifs
  · exact d.readDomain_out ..
  · rfl
  · rfl
  · rfl

/-- A word of the window in a VF's BAR0 (R49). -/
theorem Dev.vfWord_tempo (fn off : Nat) (d : Dev) (hoff : off < 0x1000) : d.vfWord fn (0x2000 + off) = d.vfTempo fn off := by
  simp only [Dev.vfWord]
  rw [if_neg (by omega), if_neg (by omega), if_pos (by omega), Nat.add_sub_cancel_left]

/-- An aligned read of four bytes reads one word. -/
theorem Dev.barBytes_vfWord (fn o : Nat) (d : Dev) (hfn : 16 ≤ fn) (hal : o % 4 = 0) :
    d.barBytes fn (.vf o) 4 = (leBytes (d.vfWord fn o).1 4, (d.vfWord fn o).2) := by
  have hword : 4 * (o / 4) = o := by omega
  simp [Dev.barBytes, barAddrOffset, hal, List.range_succ, barAddrWord, Dev.barWord, hword, Nat.not_lt.mpr hfn, sliceBytes, leBytes]

theorem Dev.barRead_tempo (fn off : Nat) (d : Dev) (hfn : 16 ≤ fn) (hopen : d.doorbellOpen fn = true) (hal : off % 4 = 0)
    (hoff : off < 0x1000) :
    d.barRead fn (.vf (0x2000 + off)) 4 = (d.vfTempo fn off).2.emit (.readData fn (leBytes (d.vfTempo fn off).1 4)) := by
  have hdoorbell : d.touchesDoorbell fn 4 (.vf (0x2000 + off)) = false := by
    have hlow : ¬ 0x10000 < 0x2000 + off + 4 := by omega
    have hnot44 : ¬ 0x4000 < 0x2000 + off + 4 := by omega
    simp [Dev.touchesDoorbell, hlow, hnot44]
  simp [Dev.barRead, hopen, Dev.romClosed, hdoorbell, d.barBytes_vfWord fn (0x2000 + off) hfn (by omega), d.vfWord_tempo fn off hoff]

/-- A read of the window by a running device over a link that is up (R5). -/
theorem exec_barMemoryRead_tempo (fn off : Nat) (s : State) (hrun : s.dev.phase = .running) (hfn : 16 ≤ fn)
    (hopen : s.dev.doorbellOpen fn = true) (hup : s.dev.linkUp (s.dev.linkOf fn) = true) (hal : off % 4 = 0) (hoff : off < 0x1000) :
    let w := (s.dev.leaveL1 (s.dev.linkOf fn)).vfTempo fn off
    exec (.barMemoryRead fn (.vf (0x2000 + off)) 4) s = .next { s with dev := w.2.emit (.readData fn (leBytes w.1 4)) } := by
  have hread := (s.dev.leaveL1 (s.dev.linkOf fn)).barRead_tempo fn off hfn (by simpa using hopen) hal hoff
  simp [exec_barMemoryRead, execBarMemoryRead, State.onLive, hrun, hup, hread]

/-- What such a read answers: the word, with the Tempo unit as the word's read leaves it. -/
theorem exec_barMemoryRead_tempo_reads (fn off : Nat) (s : State) (hrun : s.dev.phase = .running) (hfn : 16 ≤ fn)
    (hopen : s.dev.doorbellOpen fn = true) (hup : s.dev.linkUp (s.dev.linkOf fn) = true) (hal : off % 4 = 0) (hoff : off < 0x1000) :
    let w := (s.dev.leaveL1 (s.dev.linkOf fn)).vfTempo fn off
    ∃ t, (exec (.barMemoryRead fn (.vf (0x2000 + off)) 4) s = .next t ∧ t.dev.out = s.dev.out ++ [.readData fn (leBytes w.1 4)]) ∧
      t.dev.tempo = w.2.tempo :=
  ⟨_, ⟨exec_barMemoryRead_tempo fn off s hrun hfn hopen hup hal hoff, by simp [Dev.emit]⟩, rfl⟩

/-- A function's MID is no core's and not the debugger's, and a VF has no card window: it reaches no unit (R32). -/
theorem Dev.mayReach_vf (d : Dev) (fn unit inst : Nat) (hfn : 16 ≤ fn) : d.mayReach (midFn fn) unit inst = false := by
  have hhigh : ¬ midFn fn ≤ 8 := by simp only [midFn]; omega
  have hcore : isCoreMid (midFn fn) = false := by simp [isCoreMid, hhigh]
  have hdebug : midFn fn ≠ midDebug := by simp only [midFn, midDebug]; omega
  have hfar : ¬ midFn fn - 0x1000 < 16 := by simp only [midFn]; omega
  simp [Dev.mayReach, hcore, hdebug, hfar]

/-- A 32-bit write by a VF to the Tempo window is dropped. -/
theorem State.writeWord_tempo_vf (fn off v : Nat) (s : State) (hfn : 16 ≤ fn) (hnot : s.dev.withholds fn = false) :
    s.writeWord (midFn fn) 0x80 0 off v = s := by
  have hreg : s.dev.writeReg (midFn fn) 0x80 0 off v = s.dev := by
    simp [Dev.writeReg, s.dev.mayReach_vf fn 0x80 0 hfn, msixUnit]
  have hfree : s.dev.withholds (midFn fn - 0x1000) = false := by simpa [midFn] using hnot
  simp [State.writeWord, hfree, hreg]

/-- An aligned write of four bytes writes one word. -/
theorem exec_registerWrite_word (mid unit inst off v : Nat) (s : State) (hal : off % 4 = 0) :
    exec (.registerWrite mid unit inst off 4 v) s = .next (s.writeWord mid unit inst off (bits v 0 32)) := by
  have hfirst : (off + 3) / 4 = off / 4 := by omega
  have hcount : (off + 4) / 4 - off / 4 = 1 := by omega
  have hword : 4 * (off / 4) = off := by omega
  simp [exec_registerWrite, execRegisterWrite, hfirst, hword]

/-- Settles O10: a read of the window is one `vfTempo` of the woken device, whose cases are those of R392, and a write by a VF reaches
no unit. -/
theorem vfTempoWindow : Obligations.VfTempoWindow := by
  unfold Obligations.VfTempoWindow
  intro fn off v s hrun hfn _ hopen hup hal hoff
  obtain ⟨t, hreads, htempo⟩ := exec_barMemoryRead_tempo_reads fn off s hrun hfn hopen hup hal hoff
  refine ⟨?ticksLo, ?ticksHi, ?domain, ?other, ?write⟩
  case ticksLo =>
    rintro rfl
    rw [Dev.vfTempo_ticksLo, Dev.rd_leaveL1_ne _ _ _ _ _ (by decide)] at hreads
    exact ⟨t, hreads⟩
  case ticksHi =>
    rintro rfl
    rw [Dev.vfTempo_ticksHi, Dev.rd_leaveL1_ne _ _ _ _ _ (by decide)] at hreads
    exact ⟨t, hreads⟩
  case domain =>
    intro hdom
    obtain ⟨hvalue, hlatch⟩ := s.dev.readDomain_leaveL1 (s.dev.linkOf fn) (midFn fn) ((off - 0x100) / 128) (off % 128)
    rw [Dev.vfTempo_domain _ _ _ hdom, Dev.readLive_domain _ _ _ hdom] at hreads htempo
    rw [Dev.readLive_domain _ _ _ hdom]
    exact ⟨t, hvalue ▸ hreads, htempo.trans hlatch⟩
  case other =>
    intro hlo hhi hdom
    rw [Dev.vfTempo_other _ _ _ hlo hhi hdom] at hreads htempo
    exact ⟨t, hreads, htempo.trans (s.dev.leaveL1_tempo _)⟩
  case write =>
    intro hnot
    rw [exec_registerWrite_word _ _ _ _ _ _ hal, State.writeWord_tempo_vf _ _ _ _ hfn hnot]

end Sys2Proof.Machine
end

section
/-!
Software triggers of the event matrix (R412, R415).
-/

namespace Sys2Proof.Machine

/-! ## Folds -/

/-- In a fold, the step of one listed element brings about `Q`, and every other step keeps it: so `Q` holds after the fold. The step
needs only what all steps before it keep. -/
theorem Dev.each_establishes {α : Type} {P Q : Dev → Prop} {f : α → Dev → Dev} {l : List α} {a : α} (hmem : a ∈ l)
    (keepP : ∀ b e, P e → P (f b e)) (establish : ∀ e, P e → Q (f a e)) (keepQ : ∀ b e, Q e → Q (f b e)) (d : Dev) (h : P d) :
    Q (Dev.each l f d) := by
  induction hmem generalizing d with
  | head l => exact Dev.each_induct Q l f _ (establish d h) keepQ
  | tail b _ ih => exact ih (f b d) (keepP b d h)

/-! ## Routes -/

/-- A PF's routes lie 384 apart, so the keys of two routes differ where their sources do. -/
theorem routeKey_ne_of_src_ne {pf src pf' src' : Nat} (hlt : src < 384) (hlt' : src' < 384) (hne : src ≠ src') :
    routeKey pf src ≠ routeKey pf' src' := by
  simp only [routeKey]
  omega

@[simp] theorem Dev.route_onRoute_self (d : Dev) (pf src : Nat) (f : Route → Route) :
    (d.onRoute pf src f).route pf src = f (d.route pf src) := NMap.getD_upd_self ..

theorem Dev.route_onRoute_ne (d : Dev) {pf src pf' src' : Nat} (f : Route → Route) (h : routeKey pf src ≠ routeKey pf' src') :
    (d.onRoute pf' src' f).route pf src = d.route pf src := NMap.getD_upd_ne _ _ _ _ h

/-- An event raised to one PF leaves the route under another key as it was. -/
theorem Dev.route_raisePf_ne (d : Dev) {pf src pf' src' : Nat} (fresh : Bool) (h : routeKey pf src ≠ routeKey pf' src') :
    (Dev.raisePf src' fresh pf' d).route pf src = d.route pf src := by
  unfold Dev.raisePf
  split_ifs
  · rfl
  · exact d.route_onRoute_ne _ h
  · rfl
  · exact d.route_onRoute_ne _ h

/-- A message that a route has to send stays to be sent, whatever event is raised: a raise coalesces into it (R412). -/
theorem Dev.route_raisePf_keeps_pending (d : Dev) {pf src : Nat} (src' : Nat) (fresh : Bool) (pf' : Nat)
    (h : (d.route pf src).pending = true) : ((Dev.raisePf src' fresh pf' d).route pf src).pending = true := by
  by_cases hkey : routeKey pf src = routeKey pf' src'
  · have hsame : ∀ e : Dev, e.route pf src = e.route pf' src' := fun e => by simp only [Dev.route, hkey]
    rw [hsame] at h ⊢
    unfold Dev.raisePf
    split_ifs <;> simp [h]
  · rwa [d.route_raisePf_ne fresh hkey]

/-- An enabled edge route takes a message to send (R412). -/
theorem Dev.route_raisePf_edge (d : Dev) {pf src : Nat} (fresh : Bool) (h : d.routeIs pf src false) :
    ((Dev.raisePf src fresh pf d).route pf src).pending = true := by
  obtain ⟨_, hon, hedge⟩ := h
  simp [Dev.raisePf, hon, hedge]

/-! ## Events -/

/-- Whether a route is enabled, and in which mode, is in the registers. -/
theorem Dev.routeIs_congr {d e : Dev} (h : e.regs = d.regs) (pf src : Nat) (level : Bool) :
    e.routeIs pf src level ↔ d.routeIs pf src level := by
  simp only [Dev.routeIs, Dev.routeOn, Dev.routeLevel, Dev.on, Dev.rd_congr h]

@[simp] theorem Dev.raisePf_regs (d : Dev) (src : Nat) (fresh : Bool) (pf : Nat) : (Dev.raisePf src fresh pf d).regs = d.regs := by
  obtain ⟨_, h⟩ := d.raisePf_changes src pf fresh
  rw [h]

@[simp] theorem Dev.raise_pfs (d : Dev) (src : Nat) (fresh : Bool) : (d.raise src fresh).pfs = d.pfs := by
  obtain ⟨_, _, h⟩ := d.raise_changes src fresh
  rw [h]
  rfl

/-- An event reaches every PF's route, with only the output longer by what the control cores take. -/
theorem Dev.raise_each (d : Dev) (src : Nat) (fresh : Bool) :
    ∃ o, d.raise src fresh = Dev.each d.pfs (Dev.raisePf src fresh) { d with out := d.out ++ o } := by
  unfold Dev.raise
  split
  · exact ⟨_, rfl⟩
  · exact ⟨[], by simp⟩

/-- An event changes no route for another source. -/
theorem Dev.route_raise_ne (d : Dev) {src src' : Nat} (fresh : Bool) (pf : Nat) (hlt : src < 384) (hlt' : src' < 384)
    (hne : src ≠ src') : (d.raise src' fresh).route pf src = d.route pf src := by
  obtain ⟨_, heach⟩ := d.raise_each src' fresh
  rw [heach]
  refine Dev.each_induct (fun e => e.route pf src = d.route pf src) _ _ _ rfl fun pf' e he => ?_
  rw [e.route_raisePf_ne fresh (routeKey_ne_of_src_ne hlt hlt' hne), he]

theorem Dev.route_raise_keeps_pending (d : Dev) {pf src : Nat} (src' : Nat) (fresh : Bool)
    (h : (d.route pf src).pending = true) : ((d.raise src' fresh).route pf src).pending = true := by
  obtain ⟨_, heach⟩ := d.raise_each src' fresh
  rw [heach]
  exact Dev.each_induct (fun e => (e.route pf src).pending = true) _ _ _ h fun pf' e => e.route_raisePf_keeps_pending src' fresh pf'

/-- An event gives each enabled edge route for its source a message to send. -/
theorem Dev.route_raise_edge (d : Dev) {pf src : Nat} (fresh : Bool) (hpf : pf ∈ d.pfs) (h : d.routeIs pf src false) :
    ((d.raise src fresh).route pf src).pending = true := by
  obtain ⟨_, heach⟩ := d.raise_each src fresh
  rw [heach]
  apply Dev.each_establishes (P := fun e => e.routeIs pf src false) (Q := fun e => (e.route pf src).pending = true) hpf
  · exact fun pf' e => (Dev.routeIs_congr (e.raisePf_regs ..) ..).2
  · exact fun e => e.route_raisePf_edge fresh
  · exact fun pf' e => e.route_raisePf_keeps_pending src fresh pf'
  · exact h

/-! ## Triggers -/

/-- A trigger gives each enabled edge route for a source it names a message to send. -/
theorem Dev.route_swTrigger_edge (d : Dev) {v pf n : Nat} (hn : n < 10) (hbit : hasBit v n = true) (hpf : pf ∈ d.pfs)
    (h : d.routeIs pf (374 + n) false) : ((d.swTrigger v).route pf (374 + n)).pending = true := by
  unfold Dev.swTrigger
  apply Dev.each_establishes (P := fun e => pf ∈ e.pfs ∧ e.routeIs pf (374 + n) false)
    (Q := fun e => (e.route pf (374 + n)).pending = true) (a := n) (by simp [hn, hbit])
  · rintro b e ⟨hpf, h⟩
    exact ⟨by rwa [e.raise_pfs], (Dev.routeIs_congr (e.raise_regs ..) ..).2 h⟩
  · exact fun e ⟨hpf, h⟩ => e.route_raise_edge true hpf h
  · exact fun b e => e.route_raise_keeps_pending (374 + b) true
  · exact ⟨hpf, h⟩

/-- A trigger changes no route for a source it does not name. -/
theorem Dev.route_swTrigger_ne (d : Dev) {v src : Nat} (pf : Nat) (hlt : src < 384)
    (h : ∀ n, n < 10 → hasBit v n = true → src ≠ 374 + n) : (d.swTrigger v).route pf src = d.route pf src := by
  unfold Dev.swTrigger Dev.each
  refine List.foldlRecOn (motive := fun e : Dev => e.route pf src = d.route pf src) _ _ rfl fun e he n hmem => ?_
  obtain ⟨hn, hbit⟩ : n < 10 ∧ hasBit v n = true := by simpa using hmem
  rw [e.route_raise_ne true pf hlt (by omega) (h n hn hbit), he]

/-! ## The register -/

theorem exec_eventSwTrigger {s : State} (v : Nat) (hrun : s.dev.phase = .running) :
    exec (.eventSwTrigger v) s = .next { s with dev := s.dev.swTrigger v } := State.onRun_running _ hrun

theorem isFnMid_of_isCoreMid {mid : Nat} (h : isCoreMid mid = true) : isFnMid mid = false := by
  simp only [isCoreMid, isFnMid, Bool.and_eq_true, decide_eq_true_eq, Bool.and_eq_false_iff, decide_eq_false_iff_not] at *
  omega

theorem isFnMid_midFn {fn : Nat} (h : fn < 8208) : isFnMid (midFn fn) = true := by
  have hlow : 0x1000 ≤ midFn fn := Nat.le_add_right ..
  have hhigh : midFn fn ≤ 0x300F := by simp only [midFn]; omega
  simp [isFnMid, hlow, hhigh]

theorem Dev.mayReach_core (d : Dev) {mid : Nat} (unit inst : Nat) (h : isCoreMid mid = true) : d.mayReach mid unit inst = true := by
  simp [Dev.mayReach, h]

/-- EVT_SW_TRIGGER stands on every part. -/
theorem Dev.registerLive_swTrigger (d : Dev) : d.registerLive 0x91 0 0 = true := by
  have hcard : (cardIndex 0x91 0).isSome = true := by decide
  simp [Dev.registerLive, Dev.unitPresent, hcard]

/-- A write of EVT_SW_TRIGGER by a function or a control core that reaches the window triggers by its low ten bits (R416). -/
theorem Dev.writeReg_swTrigger (d : Dev) (mid v : Nat) (hmid : (isFnMid mid || isCoreMid mid) = true) (hopen : d.barOpen mid = true)
    (hreach : d.mayReach mid 0x91 0 = true) : d.writeReg mid 0x91 0 0 v = d.swTrigger (v % 1024) := by
  have hcause : causesOf 0x91 0 = none := by decide
  simp [Dev.writeReg, hopen, hreach, msixUnit, d.registerLive_swTrigger, Dev.writeLive, hcause, Dev.writeEvt, hmid]

/-- Such a write, with its link's posted credits not withheld, is the trigger command. -/
theorem exec_registerWrite_swTrigger {s : State} (mid v : Nat) (hrun : s.dev.phase = .running)
    (hmid : (isFnMid mid || isCoreMid mid) = true) (hfree : (isFnMid mid && s.dev.withholds (mid - 0x1000)) = false)
    (hopen : s.dev.barOpen mid = true) (hreach : s.dev.mayReach mid 0x91 0 = true) :
    exec (.registerWrite mid 0x91 0 0 4 v) s = exec (.eventSwTrigger (v % 1024)) s := by
  have hlow : bits v 0 32 % 1024 = v % 1024 := by
    simp only [bits]
    omega
  have hword : s.writeWord mid 0x91 0 0 (bits v 0 32) = { s with dev := s.dev.swTrigger (v % 1024) } := by
    simp [State.writeWord, hfree, hrun, s.dev.writeReg_swTrigger mid _ hmid hopen hreach, hlow]
  rw [exec_registerWrite_word _ _ _ _ _ _ rfl, hword, exec_eventSwTrigger _ hrun]

/-- Settles O9: the write is the trigger command, a fold of raises, each of which is for a source of its own and reaches the edge routes
for it. -/
theorem softwareTriggers : Obligations.SoftwareTriggers := by
  unfold Obligations.SoftwareTriggers
  intro mid v s hrun
  refine ⟨?write, _, exec_eventSwTrigger v hrun, rfl, ?named, ?others⟩
  case write =>
    rintro (hcore | ⟨pf, hpf, rfl, hdoor, hfree, hreach⟩)
    · have hfn := isFnMid_of_isCoreMid hcore
      exact exec_registerWrite_swTrigger mid v hrun (by simp [hcore]) (by simp [hfn]) (by simp [Dev.barOpen, hfn])
        (s.dev.mayReach_core _ _ hcore)
    · have hfn : isFnMid (midFn pf) = true := isFnMid_midFn (by omega)
      have hpfOf : midFn pf - 0x1000 = pf := by simp [midFn]
      exact exec_registerWrite_swTrigger (midFn pf) v hrun (by simp [hfn]) (by simp [hpfOf, hfree]) (by simp [Dev.barOpen, hpfOf, hdoor])
        hreach
  case named =>
    exact fun pf n hn hbit hpf hroute => s.dev.route_swTrigger_edge hn hbit hpf hroute
  case others =>
    exact fun pf src hlt h => s.dev.route_swTrigger_ne pf hlt h

end Sys2Proof.Machine
end

section
/-!
The fault log's words, and the nested mark of a new record (R445, R449).
-/

namespace Sys2Proof.Machine

/-! ## The words of the log -/

/-- The registers of the unit below the log's window leave every word of the log. -/
theorem Dev.logWord_wr_below (d : Dev) {f : Field} (v : Nat) (h : f.key 0 0 < R.FLT_RECORD_data.key 0 0) :
    (d.wr f v).logWord = d.logWord := by
  funext s w
  refine d.rd_wr_ne _ _ _ _ _ _ _ fun hkey => ?_
  simp only [Field.key] at h hkey
  omega

@[simp] theorem Dev.logWord_wr_lastSeq (d : Dev) (v : Nat) : (d.wr R.FLT_LAST_SEQ_seq v).logWord = d.logWord :=
  d.logWord_wr_below v (by decide)

/-- A cause of the unit leaves every word of the log. -/
@[simp] theorem Dev.logWord_cause (d : Dev) {b : Nat} (h : b < 10) : (d.cause fltCauses b).logWord = d.logWord := by
  funext s w
  refine d.rd_cause_ne _ _ _ _ _ _ fun hkey => ?_
  simp only [Field.key, Causes.bit, fltCauses, R.FLT_RECORD_data] at h hkey
  omega

/-- FLT_STATUS.held and FLT_OLDEST are no words of the log. -/
@[simp] theorem Dev.logWord_refreshLog (d : Dev) : d.refreshLog.logWord = d.logWord := by
  unfold Dev.refreshLog
  rw [Dev.logWord_wr_below _ _ (by decide), Dev.logWord_wr_below _ _ (by decide), Dev.logWord_wr_below _ _ (by decide)]

@[simp] theorem Dev.logWord_setLogWord_self (d : Dev) (s w v : Nat) : (d.setLogWord s w v).logWord s w = v % 2 ^ 32 :=
  d.rd_wr_self ..

/-- The eight words of a slot, and the slots, lie apart. -/
theorem Dev.logWord_setLogWord_ne (d : Dev) {s w s' w' : Nat} (v : Nat) (hw : w < 8) (hw' : w' < 8) (hne : s' ≠ s ∨ w' ≠ w) :
    (d.setLogWord s w v).logWord s' w' = d.logWord s' w' := by
  refine d.rd_wr_ne _ _ _ _ _ _ _ fun hkey => ?_
  simp only [Field.key] at hkey
  omega

/-! ## What the log says depends on its words alone -/

theorem Dev.logHeld_congr {d e : Dev} {s : Nat} (h : e.logWord s 7 = d.logWord s 7) : e.logHeld s = d.logHeld s := by
  simp only [Dev.logHeld, h]

theorem Dev.freeLogSlot_congr {d e : Dev} (h : e.logWord = d.logWord) (severity : Nat) : e.freeLogSlot severity = d.freeLogSlot severity := by
  simp only [Dev.freeLogSlot, Dev.logHeld, h]

theorem Dev.nestsUnder_congr {d e : Dev} (h : e.logWord = d.logWord) (r : Err) : e.nestsUnder r = d.nestsUnder r := by
  have hheld : e.logHeld = d.logHeld := funext fun s => Dev.logHeld_congr (by rw [h])
  simp only [Dev.nestsUnder, Dev.heldSlots, Dev.recHandling, hheld, h]

/-! ## Packed words -/

/-- Bit 3 of word 0x0C is nested (R445). -/
theorem hasBit_recWord3_nested {severity : Nat} (nested : Bool) (handling code count : Nat) (h : severity < 8) :
    hasBit (recWord3 severity nested handling code count % 2 ^ 32) 3 = nested := by
  have hbit : bit (recWord3 severity nested handling code count % 2 ^ 32) 3 = nested.toNat := by
    have hle := nested.toNat_le
    simp only [bit, recWord3]
    omega
  simp only [hasBit, hbit]
  cases nested <;> rfl

/-- Bits 16 to 31 of word 0x10 are related (R445). -/
theorem bits_recWord4_related {site domain related : Nat} (hsite : site < 256) (hdomain : domain < 256) (hrelated : related < 65536) :
    bits ((site + 256 * domain + 65536 * related) % 2 ^ 32) 16 16 = related := by
  simp only [bits]
  omega

/-! ## The record in handling -/

/-- Slot `u` holds a record in handling of the error's unit and site (R449). -/
def Dev.handles (d : Dev) (e : Err) (u : Nat) : Prop :=
  u < 256 ∧ d.logHeld u = true ∧ d.recHandling u = 1 ∧ d.logWord u 2 = e.unit + 65536 * e.inst ∧ d.logWord u 4 % 256 = e.site

theorem Dev.mem_heldSlots (d : Dev) {u : Nat} : u ∈ d.heldSlots ↔ u < 256 ∧ d.logHeld u = true := by
  simp [Dev.heldSlots]

theorem Dev.handles_of_nestsUnder {d : Dev} {e : Err} {u : Nat} (h : d.nestsUnder e = some u) : d.handles e u := by
  unfold Dev.nestsUnder at h
  split at h
  · obtain ⟨hlt, hheld⟩ := d.mem_heldSlots.1 (List.mem_of_find?_eq_some h)
    simpa [Dev.handles, hlt, hheld, and_assoc] using List.find?_some h
  · cases h

/-- An uncorrectable error nests under some record where one is in handling. -/
theorem Dev.nestsUnder_isSome_of_handles {d : Dev} {e : Err} {u : Nat} (hlow : 1 ≤ e.severity) (hhigh : e.severity ≤ 3)
    (h : d.handles e u) : (d.nestsUnder e).isSome = true := by
  obtain ⟨hlt, hheld, hhandling, hunit, hsite⟩ := h
  simp only [Dev.nestsUnder, hlow, hhigh, decide_true, Bool.and_self, if_true, List.find?_isSome]
  exact ⟨u, d.mem_heldSlots.2 ⟨hlt, hheld⟩, by simp [hhandling, hunit, hsite]⟩

/-- A corrected error and a notice nest under no record. -/
theorem Dev.nestsUnder_of_correctable (d : Dev) {e : Err} (h : e.severity = 0 ∨ e.severity = 4) : d.nestsUnder e = none := by
  obtain h | h := h <;> simp [Dev.nestsUnder, h]

/-! ## A new record -/

/-- An error without a free slot is counted and leaves the log (R444). -/
theorem Dev.logWord_newRecord_full (d : Dev) {e : Err} (h : d.freeLogSlot e.severity = none) : (d.newRecord e).logWord = d.logWord := by
  have hfree := (Dev.freeLogSlot_congr (d.logWord_wr_lastSeq d.nextLogSeq) e.severity).trans h
  simp only [Dev.newRecord, hfree]
  rw [Dev.logWord_cause _ (by decide), Dev.logWord_wr_below _ _ (by decide)]
  split_ifs <;> rw [Dev.bump, Dev.logWord_wr_below _ _ (by decide), Dev.logWord_wr_lastSeq]

/-- The sequence of the record that the error nests under, or 0 (R449). -/
def Dev.relatedSeq (d : Dev) (e : Err) : Nat := ((d.nestsUnder e).map (fun u => d.logWord u 0 % 65536)).getD 0

theorem Dev.relatedSeq_lt (d : Dev) (e : Err) : d.relatedSeq e < 65536 := by
  unfold Dev.relatedSeq
  cases d.nestsUnder e with
  | none => simp
  | some u => exact Nat.mod_lt _ (by decide)

/-- What a new record of the error holds in word `w` (R445). -/
def Dev.newRecordWord (d : Dev) (e : Err) : Nat → Nat
  | 0 => d.nextLogSeq
  | 1 => d.uptime
  | 2 => e.unit + 65536 * e.inst
  | 3 => recWord3 e.severity (d.nestsUnder e).isSome e.handling e.code 1
  | 4 => e.site + 256 * e.domain + 65536 * d.relatedSeq e
  | 5 => e.detail0
  | 6 => e.detail1
  | _ => 1

/-- The uptime is in another unit. -/
theorem Dev.uptime_newRecord_stamp (d : Dev) (s v seq : Nat) : ((d.wr R.FLT_LAST_SEQ_seq v).setLogWord s 0 seq).uptime = d.uptime := by
  have hlog : R.TMP_UPTIME_MS_value.key 0 0 ≠ R.FLT_RECORD_data.key 0 (32 * s + 4 * 0) := by
    simp only [Field.key, R.TMP_UPTIME_MS_value, R.FLT_RECORD_data]
    omega
  exact (Dev.rd_wr_ne _ _ _ _ _ _ _ _ hlog).trans (d.rd_wr_ne _ _ _ _ _ _ _ (by decide))

/-- A new record fills its slot and leaves every other one (R445). -/
theorem Dev.logWord_newRecord (d : Dev) {e : Err} {s w : Nat} (u : Nat) (h : d.freeLogSlot e.severity = some s) (hw : w < 8) :
    (d.newRecord e).logWord u w = if u = s then d.newRecordWord e w % 2 ^ 32 else d.logWord u w := by
  have hlog := d.logWord_wr_lastSeq d.nextLogSeq
  have hfree := (Dev.freeLogSlot_congr hlog e.severity).trans h
  simp only [Dev.newRecord, hfree, Dev.nestsUnder_congr hlog, hlog, Dev.uptime_newRecord_stamp, apply_ite Dev.logWord, Nat.reduceLT,
    Dev.logWord_cause, ite_self, Dev.logWord_refreshLog]
  by_cases hu : u = s
  · subst hu
    interval_cases w <;> simp [Dev.logWord_setLogWord_ne, Dev.newRecordWord, Dev.relatedSeq]
  · simp [Dev.logWord_setLogWord_ne, hw, hu]

/-- The slot of a new record is held. -/
theorem Dev.logHeld_newRecord (d : Dev) {e : Err} {s : Nat} (h : d.freeLogSlot e.severity = some s) :
    (d.newRecord e).logHeld s = true := by
  rw [Dev.logHeld, d.logWord_newRecord s h (by decide), if_pos rfl]
  simp [hasBit, bit, Dev.newRecordWord]

/-- A new record shows nested exactly where the error nests under one (R449). -/
theorem Dev.nested_newRecord (d : Dev) {e : Err} {s : Nat} (h : d.freeLogSlot e.severity = some s) (hsev : e.severity ≤ 4) :
    hasBit ((d.newRecord e).logWord s 3) 3 = (d.nestsUnder e).isSome := by
  rw [d.logWord_newRecord s h (by decide), if_pos rfl]
  exact hasBit_recWord3_nested _ _ _ _ (by omega)

/-- A new record names the one that its error nests under (R449). -/
theorem Dev.related_newRecord (d : Dev) {e : Err} {s : Nat} (h : d.freeLogSlot e.severity = some s) (hsite : e.site < 256)
    (hdomain : e.domain < 256) : bits ((d.newRecord e).logWord s 4) 16 16 = d.relatedSeq e := by
  rw [d.logWord_newRecord s h (by decide), if_pos rfl]
  exact bits_recWord4_related hsite hdomain (d.relatedSeq_lt e)

/-- The slot that a new record takes into use holds that record, and no other slot becomes held. -/
theorem Dev.freeLogSlot_of_newRecord_holds (d : Dev) {e : Err} {r : Nat} (hfree : d.logHeld r = false)
    (hheld : (d.newRecord e).logHeld r = true) : d.freeLogSlot e.severity = some r := by
  cases hslot : d.freeLogSlot e.severity with
  | none => simp [Dev.logHeld_congr (congrFun₂ (d.logWord_newRecord_full hslot) r 7), hfree] at hheld
  | some s =>
    by_cases hrs : r = s
    · rw [hrs]
    · have hsame := d.logWord_newRecord r hslot (w := 7) (by decide)
      rw [if_neg hrs] at hsame
      simp [Dev.logHeld_congr hsame, hfree] at hheld

/-! ## Recording an error -/

/-- Any other error than a corrected one writes a record of its own (R447). -/
theorem Dev.record_of_not_corrected (d : Dev) {e : Err} (hphase : d.phase ≠ .faultStop) (h : e.severity ≠ 0) :
    d.record e = d.newRecord e := by
  simp [Dev.record, hphase, h]

/-- A recorded error leaves the words of the log as a new record does, or merges into a held record, of which it changes word 0x0C alone
(R447). -/
theorem Dev.logWord_record (d : Dev) (e : Err) (hphase : d.phase ≠ .faultStop) :
    (d.record e).logWord = (d.newRecord e).logWord ∨ ∃ s v, (d.record e).logWord = (d.setLogWord s 3 v).logWord := by
  simp only [Dev.record, hphase, if_false]
  split
  · next s _ => exact .inr ⟨s, _, by simp only [apply_ite Dev.logWord, Nat.reduceLT, Dev.logWord_cause, ite_self]; rfl⟩
  · exact .inl (by simp only [apply_ite Dev.logWord, Nat.reduceLT, Dev.logWord_cause, ite_self])

/-- The record that a corrected error or a notice brings into the log is not nested (R449). -/
theorem Dev.not_nested_record_of_correctable (d : Dev) {e : Err} {r : Nat} (hphase : d.phase ≠ .faultStop)
    (hsev : e.severity = 0 ∨ e.severity = 4) (hfree : d.logHeld r = false) (hheld : (d.record e).logHeld r = true) :
    hasBit ((d.record e).logWord r 3) 3 = false := by
  obtain hnew | ⟨s, v, hmerge⟩ := d.logWord_record e hphase
  · rw [Dev.logHeld_congr (congrFun₂ hnew r 7)] at hheld
    have hslot := d.freeLogSlot_of_newRecord_holds hfree hheld
    rw [hnew, d.nested_newRecord hslot (by omega), d.nestsUnder_of_correctable hsev]
    rfl
  · have hsame := (congrFun₂ hmerge r 7).trans (d.logWord_setLogWord_ne v (by decide) (by decide) (.inr (by decide)))
    simp [Dev.logHeld_congr hsame, hfree] at hheld

/-- Settles O11: an uncorrectable error always writes a new record, whose nested bit and related sequence come from the record in handling
that the log holds before it; one of another severity nests under none. -/
theorem nestedErrors : Obligations.NestedErrors := by
  unfold Obligations.NestedErrors
  intro e d hphase hsev hsite hdomain
  refine ⟨fun r hslot hlow hhigh => ?uncorrectable, fun hcorr r _ => d.not_nested_record_of_correctable hphase hcorr⟩
  case uncorrectable =>
    rw [d.record_of_not_corrected hphase (by omega), d.nested_newRecord hslot hsev, d.related_newRecord hslot hsite hdomain]
    refine ⟨d.logHeld_newRecord hslot, ?nested, ?alone⟩
    case nested =>
      rintro ⟨u, hu⟩
      have hsome := Dev.nestsUnder_isSome_of_handles hlow hhigh hu
      obtain ⟨first, hfirst⟩ := Option.isSome_iff_exists.1 hsome
      exact ⟨hsome, first, Dev.handles_of_nestsUnder hfirst, by simp [Dev.relatedSeq, hfirst]⟩
    case alone =>
      intro hnone
      cases hunder : d.nestsUnder e with
      | none => rfl
      | some u => exact absurd (Dev.handles_of_nestsUnder hunder) (hnone u)

end Sys2Proof.Machine
end

section
/-!
Proofs of statements about single commands, and of what every step keeps. Declarations are elaborated one after another: bodies elaborated at the same
time hold a thread each, and the text is one process.
-/

set_option Elab.async false

section
/-!
Frames of the device. `Dev.besides ps d` is what the device holds besides the parts `ps`; an operation that changes at most the parts `ps`
leaves that as it is. One lemma for each field, then one for each operation, in the order in which the operations are built of one another.
-/

namespace Sys2Proof.Machine

/-- What the device holds besides the parts `ps` and the count of free values: those are blotted out. -/
def Dev.besides (ps : List Part) (d : Dev) : Dev :=
  { d with
    freeCtr := 0
    phase := if .start ∈ ps then .held else d.phase
    railsGood := if .start ∈ ps then true else d.railsGood
    resetLow := if .start ∈ ps then true else d.resetLow
    testen := if .start ∈ ps then false else d.testen
    regs := if .registers ∈ ps then {} else d.regs
    out := if .output ∈ ps then [] else d.out
    die := if .start ∈ ps then {} else d.die
    boot := if .start ∈ ps then {} else d.boot
    keep := if .retained ∈ ps then {} else d.keep
    card := if .start ∈ ps then {} else d.card
    setPos := if .positions ∈ ps then {} else d.setPos
    cryPos := if .positions ∈ ps then {} else d.cryPos
    power := if .power ∈ ps then {} else d.power
    links := if .links ∈ ps then {} else d.links
    funcs := if .functions ∈ ps then {} else d.funcs
    chans := if .channels ∈ ps then {} else d.chans
    routes := if .routes ∈ ps then {} else d.routes
    cores := if .positions ∈ ps then {} else d.cores
    escalations := if .routes ∈ ps then [] else d.escalations
    rings := if .rings ∈ ps then {} else d.rings
    groups := if .rings ∈ ps then {} else d.groups
    ringErrors := if .rings ∈ ps then [] else d.ringErrors
    ctxCache := if .rings ∈ ps then [] else d.ctxCache
    ctxSnap := if .rings ∈ ps then none else d.ctxSnap
    items := if .items ∈ ps then {} else d.items
    nextItem := if .items ∈ ps then 0 else d.nextItem
    admitted := if .items ∈ ps then {} else d.admitted
    dispatched := if .items ∈ ps then 0 else d.dispatched
    failures := if .items ∈ ps then [] else d.failures
    replays := if .items ∈ ps then [] else d.replays
    epilogues := if .items ∈ ps then {} else d.epilogues
    credits := if .shares ∈ ps then 1024000 else d.credits
    sched := if .shares ∈ ps then {} else d.sched
    macs := if .ports ∈ ps then {} else d.macs
    tempo := if .time ∈ ps then {} else d.tempo
    tenants := if .tenants ∈ ps then {} else d.tenants
    mtb := if .tables ∈ ps then {} else d.mtb
    ctxs := if .contexts ∈ ps then {} else d.ctxs
    ctxKeys := if .contexts ∈ ps then {} else d.ctxKeys
    ctxFailed := if .contexts ∈ ps then [] else d.ctxFailed
    crySnap := if .contexts ∈ ps then none else d.crySnap
    idents := if .tables ∈ ps then {} else d.idents
    counters := if .tables ∈ ps then {} else d.counters
    cells := if .tables ∈ ps then {} else d.cells
    sites := if .sets ∈ ps then {} else d.sites
    jobs := if .work ∈ ps then {} else d.jobs
    nextJob := if .work ∈ ps then 0 else d.nextJob
    apply := if .work ∈ ps then none else d.apply
    drains := if .tenants ∈ ps then {} else d.drains
    qps := if .storage ∈ ps then {} else d.qps
    conns := if .storage ∈ ps then {} else d.conns
    nvmes := if .storage ∈ ps then {} else d.nvmes
    dma := if .engines ∈ ps then {} else d.dma
    region := if .engines ∈ ps then {} else d.region
    movers := if .power ∈ ps then 18 else d.movers
    stp := if .stream ∈ ps then {} else d.stp
    dbg := if .debug ∈ ps then {} else d.dbg
    eid := if .debug ∈ ps then 0 else d.eid
    macCounts := if .ports ∈ ps then {} else d.macCounts }

variable {ps : List Part}

theorem Dev.besides_phase (d : Dev) (x : Phase) (h : .start ∈ ps) : { d with phase := x }.besides ps = d.besides ps := by
  simp only [Dev.besides, if_pos h]

theorem Dev.besides_railsGood (d : Dev) (x : Bool) (h : .start ∈ ps) : { d with railsGood := x }.besides ps = d.besides ps := by
  simp only [Dev.besides, if_pos h]

theorem Dev.besides_resetLow (d : Dev) (x : Bool) (h : .start ∈ ps) : { d with resetLow := x }.besides ps = d.besides ps := by
  simp only [Dev.besides, if_pos h]

theorem Dev.besides_testen (d : Dev) (x : Bool) (h : .start ∈ ps) : { d with testen := x }.besides ps = d.besides ps := by
  simp only [Dev.besides, if_pos h]

theorem Dev.besides_regs (d : Dev) (x : NMap Nat) (h : .registers ∈ ps) : { d with regs := x }.besides ps = d.besides ps := by
  simp only [Dev.besides, if_pos h]

theorem Dev.besides_freeCtr (d : Dev) (x : Nat) : { d with freeCtr := x }.besides ps = d.besides ps := rfl

theorem Dev.besides_out (d : Dev) (x : List Output) (h : .output ∈ ps) : { d with out := x }.besides ps = d.besides ps := by
  simp only [Dev.besides, if_pos h]

theorem Dev.besides_die (d : Dev) (x : Die) (h : .start ∈ ps) : { d with die := x }.besides ps = d.besides ps := by
  simp only [Dev.besides, if_pos h]

theorem Dev.besides_boot (d : Dev) (x : Boot) (h : .start ∈ ps) : { d with boot := x }.besides ps = d.besides ps := by
  simp only [Dev.besides, if_pos h]

theorem Dev.besides_keep (d : Dev) (x : Keep) (h : .retained ∈ ps) : { d with keep := x }.besides ps = d.besides ps := by
  simp only [Dev.besides, if_pos h]

theorem Dev.besides_card (d : Dev) (x : Card) (h : .start ∈ ps) : { d with card := x }.besides ps = d.besides ps := by
  simp only [Dev.besides, if_pos h]

theorem Dev.besides_setPos (d : Dev) (x : NMap Slot) (h : .positions ∈ ps) : { d with setPos := x }.besides ps = d.besides ps := by
  simp only [Dev.besides, if_pos h]

theorem Dev.besides_cryPos (d : Dev) (x : NMap Slot) (h : .positions ∈ ps) : { d with cryPos := x }.besides ps = d.besides ps := by
  simp only [Dev.besides, if_pos h]

theorem Dev.besides_power (d : Dev) (x : Power) (h : .power ∈ ps) : { d with power := x }.besides ps = d.besides ps := by
  simp only [Dev.besides, if_pos h]

theorem Dev.besides_links (d : Dev) (x : NMap Link) (h : .links ∈ ps) : { d with links := x }.besides ps = d.besides ps := by
  simp only [Dev.besides, if_pos h]

theorem Dev.besides_funcs (d : Dev) (x : NMap Func) (h : .functions ∈ ps) : { d with funcs := x }.besides ps = d.besides ps := by
  simp only [Dev.besides, if_pos h]

theorem Dev.besides_chans (d : Dev) (x : NMap Chan) (h : .channels ∈ ps) : { d with chans := x }.besides ps = d.besides ps := by
  simp only [Dev.besides, if_pos h]

theorem Dev.besides_routes (d : Dev) (x : NMap Route) (h : .routes ∈ ps) : { d with routes := x }.besides ps = d.besides ps := by
  simp only [Dev.besides, if_pos h]

theorem Dev.besides_cores (d : Dev) (x : NMap CtrlCore) (h : .positions ∈ ps) : { d with cores := x }.besides ps = d.besides ps := by
  simp only [Dev.besides, if_pos h]

theorem Dev.besides_escalations (d : Dev) (x : List Nat) (h : .routes ∈ ps) : { d with escalations := x }.besides ps = d.besides ps := by
  simp only [Dev.besides, if_pos h]

theorem Dev.besides_rings (d : Dev) (x : NMap Ring) (h : .rings ∈ ps) : { d with rings := x }.besides ps = d.besides ps := by
  simp only [Dev.besides, if_pos h]

theorem Dev.besides_groups (d : Dev) (x : NMap Group) (h : .rings ∈ ps) : { d with groups := x }.besides ps = d.besides ps := by
  simp only [Dev.besides, if_pos h]

theorem Dev.besides_ringErrors (d : Dev) (x : List Nat) (h : .rings ∈ ps) : { d with ringErrors := x }.besides ps = d.besides ps := by
  simp only [Dev.besides, if_pos h]

theorem Dev.besides_ctxCache (d : Dev) (x : List Nat) (h : .rings ∈ ps) : { d with ctxCache := x }.besides ps = d.besides ps := by
  simp only [Dev.besides, if_pos h]

theorem Dev.besides_ctxSnap (d : Dev) (x : Option (Nat × Nat)) (h : .rings ∈ ps) : { d with ctxSnap := x }.besides ps = d.besides ps := by
  simp only [Dev.besides, if_pos h]

theorem Dev.besides_items (d : Dev) (x : NMap Item) (h : .items ∈ ps) : { d with items := x }.besides ps = d.besides ps := by
  simp only [Dev.besides, if_pos h]

theorem Dev.besides_nextItem (d : Dev) (x : Nat) (h : .items ∈ ps) : { d with nextItem := x }.besides ps = d.besides ps := by
  simp only [Dev.besides, if_pos h]

theorem Dev.besides_admitted (d : Dev) (x : NMap Nat) (h : .items ∈ ps) : { d with admitted := x }.besides ps = d.besides ps := by
  simp only [Dev.besides, if_pos h]

theorem Dev.besides_dispatched (d : Dev) (x : Nat) (h : .items ∈ ps) : { d with dispatched := x }.besides ps = d.besides ps := by
  simp only [Dev.besides, if_pos h]

theorem Dev.besides_failures (d : Dev) (x : List Failure) (h : .items ∈ ps) : { d with failures := x }.besides ps = d.besides ps := by
  simp only [Dev.besides, if_pos h]

theorem Dev.besides_replays (d : Dev) (x : List Replay) (h : .items ∈ ps) : { d with replays := x }.besides ps = d.besides ps := by
  simp only [Dev.besides, if_pos h]

theorem Dev.besides_epilogues (d : Dev) (x : NMap Epilogue) (h : .items ∈ ps) : { d with epilogues := x }.besides ps = d.besides ps := by
  simp only [Dev.besides, if_pos h]

theorem Dev.besides_credits (d : Dev) (x : Nat) (h : .shares ∈ ps) : { d with credits := x }.besides ps = d.besides ps := by
  simp only [Dev.besides, if_pos h]

theorem Dev.besides_sched (d : Dev) (x : Sched) (h : .shares ∈ ps) : { d with sched := x }.besides ps = d.besides ps := by
  simp only [Dev.besides, if_pos h]

theorem Dev.besides_macs (d : Dev) (x : NMap Mac) (h : .ports ∈ ps) : { d with macs := x }.besides ps = d.besides ps := by
  simp only [Dev.besides, if_pos h]

theorem Dev.besides_tempo (d : Dev) (x : Tempo) (h : .time ∈ ps) : { d with tempo := x }.besides ps = d.besides ps := by
  simp only [Dev.besides, if_pos h]

theorem Dev.besides_tenants (d : Dev) (x : NMap Nat) (h : .tenants ∈ ps) : { d with tenants := x }.besides ps = d.besides ps := by
  simp only [Dev.besides, if_pos h]

theorem Dev.besides_mtb (d : Dev) (x : Mtb) (h : .tables ∈ ps) : { d with mtb := x }.besides ps = d.besides ps := by
  simp only [Dev.besides, if_pos h]

theorem Dev.besides_ctxs (d : Dev) (x : NMap (List Byte)) (h : .contexts ∈ ps) : { d with ctxs := x }.besides ps = d.besides ps := by
  simp only [Dev.besides, if_pos h]

theorem Dev.besides_ctxKeys (d : Dev) (x : NMap (List Byte)) (h : .contexts ∈ ps) : { d with ctxKeys := x }.besides ps = d.besides ps := by
  simp only [Dev.besides, if_pos h]

theorem Dev.besides_ctxFailed (d : Dev) (x : List Nat) (h : .contexts ∈ ps) : { d with ctxFailed := x }.besides ps = d.besides ps := by
  simp only [Dev.besides, if_pos h]

theorem Dev.besides_crySnap (d : Dev) (x : Option (Nat × Nat)) (h : .contexts ∈ ps) : { d with crySnap := x }.besides ps = d.besides ps := by
  simp only [Dev.besides, if_pos h]

theorem Dev.besides_idents (d : Dev) (x : NMap Nat) (h : .tables ∈ ps) : { d with idents := x }.besides ps = d.besides ps := by
  simp only [Dev.besides, if_pos h]

theorem Dev.besides_counters (d : Dev) (x : NMap Nat) (h : .tables ∈ ps) : { d with counters := x }.besides ps = d.besides ps := by
  simp only [Dev.besides, if_pos h]

theorem Dev.besides_cells (d : Dev) (x : NMap Nat) (h : .tables ∈ ps) : { d with cells := x }.besides ps = d.besides ps := by
  simp only [Dev.besides, if_pos h]

theorem Dev.besides_sites (d : Dev) (x : NMap SetSite) (h : .sets ∈ ps) : { d with sites := x }.besides ps = d.besides ps := by
  simp only [Dev.besides, if_pos h]

theorem Dev.besides_jobs (d : Dev) (x : NMap Job) (h : .work ∈ ps) : { d with jobs := x }.besides ps = d.besides ps := by
  simp only [Dev.besides, if_pos h]

theorem Dev.besides_nextJob (d : Dev) (x : Nat) (h : .work ∈ ps) : { d with nextJob := x }.besides ps = d.besides ps := by
  simp only [Dev.besides, if_pos h]

theorem Dev.besides_apply (d : Dev) (x : Option Apply) (h : .work ∈ ps) : { d with apply := x }.besides ps = d.besides ps := by
  simp only [Dev.besides, if_pos h]

theorem Dev.besides_drains (d : Dev) (x : NMap Nat) (h : .tenants ∈ ps) : { d with drains := x }.besides ps = d.besides ps := by
  simp only [Dev.besides, if_pos h]

theorem Dev.besides_qps (d : Dev) (x : NMap Qp) (h : .storage ∈ ps) : { d with qps := x }.besides ps = d.besides ps := by
  simp only [Dev.besides, if_pos h]

theorem Dev.besides_conns (d : Dev) (x : NMap Conn) (h : .storage ∈ ps) : { d with conns := x }.besides ps = d.besides ps := by
  simp only [Dev.besides, if_pos h]

theorem Dev.besides_nvmes (d : Dev) (x : NMap Nvme) (h : .storage ∈ ps) : { d with nvmes := x }.besides ps = d.besides ps := by
  simp only [Dev.besides, if_pos h]

theorem Dev.besides_dma (d : Dev) (x : NMap DmaChan) (h : .engines ∈ ps) : { d with dma := x }.besides ps = d.besides ps := by
  simp only [Dev.besides, if_pos h]

theorem Dev.besides_region (d : Dev) (x : NMap Byte) (h : .engines ∈ ps) : { d with region := x }.besides ps = d.besides ps := by
  simp only [Dev.besides, if_pos h]

theorem Dev.besides_movers (d : Dev) (x : Nat) (h : .power ∈ ps) : { d with movers := x }.besides ps = d.besides ps := by
  simp only [Dev.besides, if_pos h]

theorem Dev.besides_stp (d : Dev) (x : Stp) (h : .stream ∈ ps) : { d with stp := x }.besides ps = d.besides ps := by
  simp only [Dev.besides, if_pos h]

theorem Dev.besides_dbg (d : Dev) (x : Debug) (h : .debug ∈ ps) : { d with dbg := x }.besides ps = d.besides ps := by
  simp only [Dev.besides, if_pos h]

theorem Dev.besides_eid (d : Dev) (x : Nat) (h : .debug ∈ ps) : { d with eid := x }.besides ps = d.besides ps := by
  simp only [Dev.besides, if_pos h]

theorem Dev.besides_macCounts (d : Dev) (x : NMap Nat) (h : .ports ∈ ps) : { d with macCounts := x }.besides ps = d.besides ps := by
  simp only [Dev.besides, if_pos h]


theorem Dev.besides_ite (c : Prop) [Decidable c] (a b : Dev) : (if c then a else b).besides ps = if c then a.besides ps else b.besides ps :=
  apply_ite ..

theorem Dev.besides_each {α : Type} (l : List α) (f : α → Dev → Dev) (d : Dev) (h : ∀ a e, (f a e).besides ps = e.besides ps) :
    (Dev.each l f d).besides ps = d.besides ps :=
  Dev.each_induct (fun e => e.besides ps = d.besides ps) l f d rfl (fun a e he => (h a e).trans he)

theorem Dev.besides_of_snd {α : Type} {r : α × Dev} {a : α} {e : Dev} (h : r = (a, e)) : e.besides ps = r.2.besides ps := by rw [h]

theorem Dev.besides_when (d : Dev) (c : Bool) (f : Dev → Dev) (h : ∀ e, (f e).besides ps = e.besides ps) :
    (d.when c f).besides ps = d.besides ps := by
  cases c
  · rfl
  · exact h d


theorem Dev.onTable_besides (t kind : Nat) (writes : Bool) (act : Dev → PortRun × Dev) (hact : ∀ e, (act e).2.besides ps = e.besides ps) (d : Dev) :
    (Dev.onTable t kind writes act d).2.besides ps = d.besides ps := by
  simp only [Dev.onTable, apply_ite Prod.snd, Dev.besides_ite, hact, ite_self]

theorem Dev.mtbRead_snd (p t : Nat) (d : Dev) : (Dev.mtbRead p t d).2 = d := by
  unfold Dev.mtbRead
  split <;> rfl

theorem Dev.mtbSearch_snd (p t : Nat) (withAge : Bool) (d : Dev) : (Dev.mtbSearch p t withAge d).2 = d := by
  unfold Dev.mtbSearch
  dsimp only
  split <;> rfl

theorem Dev.prefixSearch_snd (p : Nat) (d : Dev) : (Dev.prefixSearch p d).2 = d := by
  unfold Dev.prefixSearch
  repeat' split
  all_goals rfl


theorem Dev.besides_items_nextItem (d : Dev) (x0 : NMap Item) (x1 : Nat)
    (h0 : .items ∈ ps) :
    { d with items := x0, nextItem := x1 }.besides ps = d.besides ps := by
  simp only [Dev.besides, if_pos h0]

theorem Dev.besides_ctxs_ctxKeys (d : Dev) (x0 : NMap (List Byte)) (x1 : NMap (List Byte))
    (h0 : .contexts ∈ ps) :
    { d with ctxs := x0, ctxKeys := x1 }.besides ps = d.besides ps := by
  simp only [Dev.besides, if_pos h0]

theorem Dev.besides_phase_boot (d : Dev) (x0 : Phase) (x1 : Boot)
    (h0 : .start ∈ ps) :
    { d with phase := x0, boot := x1 }.besides ps = d.besides ps := by
  simp only [Dev.besides, if_pos h0]

theorem Dev.besides_jobs_nextJob (d : Dev) (x0 : NMap Job) (x1 : Nat)
    (h0 : .work ∈ ps) :
    { d with jobs := x0, nextJob := x1 }.besides ps = d.besides ps := by
  simp only [Dev.besides, if_pos h0]

theorem Dev.besides_links_rings_items_replays_nvmes (d : Dev) (x0 : NMap Link) (x1 : NMap Ring) (x2 : NMap Item) (x3 : List Replay) (x4 : NMap Nvme)
    (h0 : .links ∈ ps) (h1 : .rings ∈ ps) (h2 : .items ∈ ps) (h3 : .storage ∈ ps) :
    { d with links := x0, rings := x1, items := x2, replays := x3, nvmes := x4 }.besides ps = d.besides ps := by
  simp only [Dev.besides, if_pos h0, if_pos h1, if_pos h2, if_pos h3]

theorem Dev.besides_setPos_cryPos_tempo (d : Dev) (x0 : NMap Slot) (x1 : NMap Slot) (x2 : Tempo)
    (h0 : .positions ∈ ps) (h1 : .time ∈ ps) :
    { d with setPos := x0, cryPos := x1, tempo := x2 }.besides ps = d.besides ps := by
  simp only [Dev.besides, if_pos h0, if_pos h1]

theorem Dev.besides_setPos_cryPos_cores (d : Dev) (x0 : NMap Slot) (x1 : NMap Slot) (x2 : NMap CtrlCore)
    (h0 : .positions ∈ ps) :
    { d with setPos := x0, cryPos := x1, cores := x2 }.besides ps = d.besides ps := by
  simp only [Dev.besides, if_pos h0]

theorem Dev.besides_rings_nvmes (d : Dev) (x0 : NMap Ring) (x1 : NMap Nvme)
    (h0 : .rings ∈ ps) (h1 : .storage ∈ ps) :
    { d with rings := x0, nvmes := x1 }.besides ps = d.besides ps := by
  simp only [Dev.besides, if_pos h0, if_pos h1]

theorem Dev.besides_regs_chans (d : Dev) (x0 : NMap Nat) (x1 : NMap Chan)
    (h0 : .channels ∈ ps) (h1 : .registers ∈ ps) :
    { d with regs := x0, chans := x1 }.besides ps = d.besides ps := by
  simp only [Dev.besides, if_pos h0, if_pos h1]

theorem Dev.besides_rings_groups (d : Dev) (x0 : NMap Ring) (x1 : NMap Group)
    (h0 : .rings ∈ ps) :
    { d with rings := x0, groups := x1 }.besides ps = d.besides ps := by
  simp only [Dev.besides, if_pos h0]

theorem Dev.besides_regs_keep (d : Dev) (x0 : NMap Nat) (x1 : Keep)
    (h0 : .retained ∈ ps) (h1 : .registers ∈ ps) :
    { d with regs := x0, keep := x1 }.besides ps = d.besides ps := by
  simp only [Dev.besides, if_pos h0, if_pos h1]

theorem Dev.besides_freeCtr_dbg (d : Dev) (x0 : Nat) (x1 : Debug)
    (h0 : .debug ∈ ps) :
    { d with freeCtr := x0, dbg := x1 }.besides ps = d.besides ps := by
  simp only [Dev.besides, if_pos h0]

theorem Dev.besides_epilogues_qps_conns (d : Dev) (x0 : NMap Epilogue) (x1 : NMap Qp) (x2 : NMap Conn)
    (h0 : .items ∈ ps) (h1 : .storage ∈ ps) :
    { d with epilogues := x0, qps := x1, conns := x2 }.besides ps = d.besides ps := by
  simp only [Dev.besides, if_pos h0, if_pos h1]

theorem Dev.besides_keep_setPos (d : Dev) (x0 : Keep) (x1 : NMap Slot)
    (h0 : .positions ∈ ps) (h1 : .retained ∈ ps) :
    { d with keep := x0, setPos := x1 }.besides ps = d.besides ps := by
  simp only [Dev.besides, if_pos h0, if_pos h1]

theorem Dev.besides_ctxs_ctxKeys_ctxFailed_qps_conns (d : Dev) (x0 : NMap (List Byte)) (x1 : NMap (List Byte)) (x2 : List Nat)
    (x3 : NMap Qp) (x4 : NMap Conn)
    (h0 : .contexts ∈ ps) (h1 : .storage ∈ ps) :
    { d with ctxs := x0, ctxKeys := x1, ctxFailed := x2, qps := x3, conns := x4 }.besides ps = d.besides ps := by
  simp only [Dev.besides, if_pos h0, if_pos h1]

theorem Dev.besides_ownedByFn (d : Dev) (x0 : NMap Ring) (x1 : NMap Group) (x2 : List Nat) (x3 : Sched) (x4 : NMap (List Byte)) (x5 : NMap
    (List Byte)) (x6 : List Nat) (x7 : NMap Qp) (x8 : NMap Conn) (x9 : NMap Nvme)
    (h0 : .rings ∈ ps) (h1 : .shares ∈ ps) (h2 : .contexts ∈ ps) (h3 : .storage ∈ ps) :
    { d with rings := x0, groups := x1, ctxCache := x2, sched := x3, ctxs := x4, ctxKeys := x5, ctxFailed := x6, qps := x7, conns := x8,
             nvmes := x9 }.besides ps = d.besides ps := by
  simp only [Dev.besides, if_pos h0, if_pos h1, if_pos h2, if_pos h3]

theorem Dev.besides_links_rings_qps_nvmes (d : Dev) (x0 : NMap Link) (x1 : NMap Ring) (x2 : NMap Qp) (x3 : NMap Nvme)
    (h0 : .links ∈ ps) (h1 : .rings ∈ ps) (h2 : .storage ∈ ps) :
    { d with links := x0, rings := x1, qps := x2, nvmes := x3 }.besides ps = d.besides ps := by
  simp only [Dev.besides, if_pos h0, if_pos h1, if_pos h2]

theorem Dev.besides_admitted_credits (d : Dev) (x0 : NMap Nat) (x1 : Nat)
    (h0 : .items ∈ ps) (h1 : .shares ∈ ps) :
    { d with admitted := x0, credits := x1 }.besides ps = d.besides ps := by
  simp only [Dev.besides, if_pos h0, if_pos h1]

theorem Dev.besides_rings_groups_ctxCache (d : Dev) (x0 : NMap Ring) (x1 : NMap Group) (x2 : List Nat)
    (h0 : .rings ∈ ps) :
    { d with rings := x0, groups := x1, ctxCache := x2 }.besides ps = d.besides ps := by
  simp only [Dev.besides, if_pos h0]

theorem Dev.besides_card_funcs (d : Dev) (x0 : Card) (x1 : NMap Func)
    (h0 : .start ∈ ps) (h1 : .functions ∈ ps) :
    { d with card := x0, funcs := x1 }.besides ps = d.besides ps := by
  simp only [Dev.besides, if_pos h0, if_pos h1]

theorem Dev.besides_keep_cryPos (d : Dev) (x0 : Keep) (x1 : NMap Slot)
    (h0 : .positions ∈ ps) (h1 : .retained ∈ ps) :
    { d with keep := x0, cryPos := x1 }.besides ps = d.besides ps := by
  simp only [Dev.besides, if_pos h0, if_pos h1]

theorem Dev.besides_service (d : Dev) (x0 : NMap Func) (x1 : Option (Nat × Nat)) (x2 : List Replay) (x3 : Sched) (x4 : Mtb) (x5 : Option
    (Nat × Nat)) (x6 : NMap Job) (x7 : Option Apply)
    (h0 : .functions ∈ ps) (h1 : .work ∈ ps) (h2 : .rings ∈ ps) (h3 : .items ∈ ps) (h4 : .shares ∈ ps) (h5 : .tables ∈ ps) (h6 : .contexts ∈ ps) :
    { d with funcs := x0, ctxSnap := x1, replays := x2, sched := x3, mtb := x4, crySnap := x5, jobs := x6,
             apply := x7 }.besides ps = d.besides ps := by
  simp only [Dev.besides, if_pos h0, if_pos h1, if_pos h2, if_pos h3, if_pos h4, if_pos h5, if_pos h6]

theorem Dev.besides_boot_rings_items_nvmes (d : Dev) (x0 : Boot) (x1 : NMap Ring) (x2 : NMap Item) (x3 : NMap Nvme)
    (h0 : .start ∈ ps) (h1 : .rings ∈ ps) (h2 : .items ∈ ps) (h3 : .storage ∈ ps) :
    { d with boot := x0, rings := x1, items := x2, nvmes := x3 }.besides ps = d.besides ps := by
  simp only [Dev.besides, if_pos h0, if_pos h1, if_pos h2, if_pos h3]

theorem Dev.besides_phase_jobs_apply_dma (d : Dev) (x0 : Phase) (x1 : NMap Job) (x2 : Option Apply) (x3 : NMap DmaChan)
    (h0 : .start ∈ ps) (h1 : .work ∈ ps) (h2 : .engines ∈ ps) :
    { d with phase := x0, jobs := x1, apply := x2, dma := x3 }.besides ps = d.besides ps := by
  simp only [Dev.besides, if_pos h0, if_pos h1, if_pos h2]

theorem Dev.besides_phase_power (d : Dev) (x0 : Phase) (x1 : Power)
    (h0 : .start ∈ ps) (h1 : .power ∈ ps) :
    { d with phase := x0, power := x1 }.besides ps = d.besides ps := by
  simp only [Dev.besides, if_pos h0, if_pos h1]

theorem Dev.wr_besides (d : Dev) (f : Field) (v : Nat) (i : Nat) (a : Nat) (hps : [.retained, .registers] ⊆ ps) :
    (Dev.wr d f v i a).besides ps = d.besides ps := by
  simp only [List.cons_subset, List.nil_subset, and_true] at hps
  simp only [Dev.wr, ↓Dev.besides_regs_keep, hps]

theorem Dev.onRing_besides (d : Dev) (r : Nat) (f : Ring → Ring) (hps : [.rings] ⊆ ps) :
    (Dev.onRing d r f).besides ps = d.besides ps := by
  simp only [List.cons_subset, List.nil_subset, and_true] at hps
  simp only [Dev.onRing, ↓Dev.besides_rings, hps]

theorem Dev.onPower_besides (d : Dev) (f : Power → Power) (hps : [.power] ⊆ ps) :
    (Dev.onPower d f).besides ps = d.besides ps := by
  simp only [List.cons_subset, List.nil_subset, and_true] at hps
  simp only [Dev.onPower, ↓Dev.besides_power, hps]

theorem Dev.onDma_besides (d : Dev) (c : Nat) (f : DmaChan → DmaChan) (hps : [.engines] ⊆ ps) :
    (Dev.onDma d c f).besides ps = d.besides ps := by
  simp only [List.cons_subset, List.nil_subset, and_true] at hps
  simp only [Dev.onDma, ↓Dev.besides_dma, hps]

theorem Dev.onQp_besides (d : Dev) (q : Nat) (f : Qp → Qp) (hps : [.storage] ⊆ ps) :
    (Dev.onQp d q f).besides ps = d.besides ps := by
  simp only [List.cons_subset, List.nil_subset, and_true] at hps
  simp only [Dev.onQp, ↓Dev.besides_qps, hps]

theorem Dev.onMac_besides (d : Dev) (m : Nat) (f : Mac → Mac) (hps : [.ports] ⊆ ps) :
    (Dev.onMac d m f).besides ps = d.besides ps := by
  simp only [List.cons_subset, List.nil_subset, and_true] at hps
  simp only [Dev.onMac, ↓Dev.besides_macs, hps]

theorem Dev.onSite_besides (d : Dev) (p : Nat) (f : SetSite → SetSite) (hps : [.sets] ⊆ ps) :
    (Dev.onSite d p f).besides ps = d.besides ps := by
  simp only [List.cons_subset, List.nil_subset, and_true] at hps
  simp only [Dev.onSite, ↓Dev.besides_sites, hps]

theorem Dev.markCapped_besides (d : Dev) (hps : [.shares] ⊆ ps) :
    (Dev.markCapped d).besides ps = d.besides ps := by
  simp only [List.cons_subset, List.nil_subset, and_true] at hps
  simp only [Dev.markCapped, ↓Dev.besides_sched, hps]

theorem Dev.onConn_besides (d : Dev) (c : Nat) (f : Conn → Conn) (hps : [.storage] ⊆ ps) :
    (Dev.onConn d c f).besides ps = d.besides ps := by
  simp only [List.cons_subset, List.nil_subset, and_true] at hps
  simp only [Dev.onConn, ↓Dev.besides_conns, hps]

theorem Dev.applyCommit_besides (c : Commit) (d : Dev) (hps : [.tables] ⊆ ps) :
    (Dev.applyCommit c d).besides ps = d.besides ps := by
  simp only [List.cons_subset, List.nil_subset, and_true] at hps
  unfold Dev.applyCommit
  split <;> simp only [↓Dev.besides_cells, ↓Dev.besides_counters, hps]

theorem Dev.onItem_besides (d : Dev) (i : Nat) (f : Item → Item) (hps : [.items] ⊆ ps) :
    (Dev.onItem d i f).besides ps = d.besides ps := by
  simp only [List.cons_subset, List.nil_subset, and_true] at hps
  simp only [Dev.onItem, ↓Dev.besides_items, hps]

theorem Dev.emit_besides (d : Dev) (o : Output) (hps : [.output] ⊆ ps) :
    (Dev.emit d o).besides ps = d.besides ps := by
  simp only [List.cons_subset, List.nil_subset, and_true] at hps
  simp only [Dev.emit, ↓Dev.besides_out, hps]

theorem Dev.onLink_besides (d : Dev) (n : Nat) (f : Link → Link) (hps : [.links] ⊆ ps) :
    (Dev.onLink d n f).besides ps = d.besides ps := by
  simp only [List.cons_subset, List.nil_subset, and_true] at hps
  simp only [Dev.onLink, ↓Dev.besides_links, hps]

theorem Dev.onApply_besides (d : Dev) (f : Apply → Apply) (hps : [.work] ⊆ ps) :
    (Dev.onApply d f).besides ps = d.besides ps := by
  simp only [List.cons_subset, List.nil_subset, and_true] at hps
  simp only [Dev.onApply, ↓Dev.besides_apply, hps]

theorem Dev.onDom_besides (d : Dev) (k : Nat) (f : Domain → Domain) (hps : [.time] ⊆ ps) :
    (Dev.onDom d k f).besides ps = d.besides ps := by
  simp only [List.cons_subset, List.nil_subset, and_true] at hps
  simp only [Dev.onDom, ↓Dev.besides_tempo, ↓Dev.besides_ite, ite_self, hps]

theorem Dev.onSlot_besides (d : Dev) (n : Nat) (f : TSlot → TSlot) (hps : [.time] ⊆ ps) :
    (Dev.onSlot d n f).besides ps = d.besides ps := by
  simp only [List.cons_subset, List.nil_subset, and_true] at hps
  simp only [Dev.onSlot, ↓Dev.besides_tempo, hps]

theorem Dev.onMtb_besides (d : Dev) (f : Mtb → Mtb) (hps : [.tables] ⊆ ps) :
    (Dev.onMtb d f).besides ps = d.besides ps := by
  simp only [List.cons_subset, List.nil_subset, and_true] at hps
  simp only [Dev.onMtb, ↓Dev.besides_mtb, hps]

theorem Dev.dropNodes_besides (keys : List Nat) (d : Dev) (hps : [.shares] ⊆ ps) :
    (Dev.dropNodes keys d).besides ps = d.besides ps := by
  simp only [List.cons_subset, List.nil_subset, and_true] at hps
  simp only [Dev.dropNodes, ↓Dev.besides_sched, hps]

theorem Dev.freshBalance_besides (leaf : Nat) (d : Dev) (hps : [.shares] ⊆ ps) :
    (Dev.freshBalance leaf d).besides ps = d.besides ps := by
  simp only [List.cons_subset, List.nil_subset, and_true] at hps
  simp only [Dev.freshBalance, ↓Dev.besides_sched, hps]

theorem Dev.free_besides (d : Dev) :
    (Dev.free d).2.besides ps = d.besides ps := by
  simp only [Dev.free, ↓Dev.besides_freeCtr]

theorem Dev.withhold_besides (w : HeldWrite) (d : Dev) (hps : [.start] ⊆ ps) :
    (Dev.withhold w d).besides ps = d.besides ps := by
  simp only [List.cons_subset, List.nil_subset, and_true] at hps
  simp only [Dev.withhold, ↓Dev.besides_boot, hps]

theorem Dev.onFn_besides (d : Dev) (fn : Nat) (f : Func → Func) (hps : [.functions] ⊆ ps) :
    (Dev.onFn d fn f).besides ps = d.besides ps := by
  simp only [List.cons_subset, List.nil_subset, and_true] at hps
  simp only [Dev.onFn, ↓Dev.besides_funcs, hps]

theorem Dev.onStp_besides (d : Dev) (f : Stp → Stp) (hps : [.stream] ⊆ ps) :
    (Dev.onStp d f).besides ps = d.besides ps := by
  simp only [List.cons_subset, List.nil_subset, and_true] at hps
  simp only [Dev.onStp, ↓Dev.besides_stp, hps]

theorem Dev.endRecord_besides (d : Dev) (hps : [.retained] ⊆ ps) :
    (Dev.endRecord d).besides ps = d.besides ps := by
  simp only [List.cons_subset, List.nil_subset, and_true] at hps
  unfold Dev.endRecord
  split <;> simp only [↓Dev.besides_keep, hps]

theorem Dev.onNvme_besides (d : Dev) (fn : Nat) (f : Nvme → Nvme) (hps : [.storage] ⊆ ps) :
    (Dev.onNvme d fn f).besides ps = d.besides ps := by
  simp only [List.cons_subset, List.nil_subset, and_true] at hps
  simp only [Dev.onNvme, ↓Dev.besides_nvmes, hps]

theorem Dev.loseWork_besides (d : Dev) (hps : [.links, .rings, .items, .storage] ⊆ ps) :
    (Dev.loseWork d).besides ps = d.besides ps := by
  simp only [List.cons_subset, List.nil_subset, and_true] at hps
  simp only [Dev.loseWork, ↓Dev.besides_links_rings_items_replays_nvmes, hps]

theorem Dev.pickIndex_besides {α : Type} (m : NMap α) (size : Nat) (d : Dev) :
    (Dev.pickIndex m size d).2.besides ps = d.besides ps := by
  simp only [Dev.pickIndex, ↓Dev.besides_freeCtr]

theorem Dev.setCtx_besides (c off width v : Nat) (d : Dev) (hps : [.contexts] ⊆ ps) :
    (Dev.setCtx c off width v d).besides ps = d.besides ps := by
  simp only [List.cons_subset, List.nil_subset, and_true] at hps
  simp only [Dev.setCtx, ↓Dev.besides_ctxs, hps]

theorem Dev.loadStore_besides (img : Image) (p : Nat) (d : Dev) (hps : [.sets] ⊆ ps) :
    (Dev.loadStore img p d).besides ps = d.besides ps := by
  simp only [List.cons_subset, List.nil_subset, and_true] at hps
  unfold Dev.loadStore
  split <;> simp only [↓Dev.besides_sites, hps]

theorem Dev.emptyChannels_besides (d : Dev) (hps : [.channels, .registers] ⊆ ps) :
    (Dev.emptyChannels d).besides ps = d.besides ps := by
  simp only [List.cons_subset, List.nil_subset, and_true] at hps
  simp only [Dev.emptyChannels, ↓Dev.besides_regs_chans, hps]

theorem Dev.countMac_besides (d : Dev) (m c : Nat) (n : Nat) (hps : [.ports] ⊆ ps) :
    (Dev.countMac d m c n).besides ps = d.besides ps := by
  simp only [List.cons_subset, List.nil_subset, and_true] at hps
  simp only [Dev.countMac, ↓Dev.besides_macCounts, hps]

theorem Dev.openEpilogue_besides (fn cause : Nat) (merge : Bool) (d : Dev) (hps : [.items] ⊆ ps) :
    (Dev.openEpilogue fn cause merge d).besides ps = d.besides ps := by
  simp only [List.cons_subset, List.nil_subset, and_true] at hps
  simp only [Dev.openEpilogue, ↓Dev.besides_epilogues, ↓Dev.besides_ite, ite_self, hps]

theorem Dev.onStream_besides (d : Dev) (n : Nat) (f : Stream → Stream) (hps : [.stream] ⊆ ps) :
    (Dev.onStream d n f).besides ps = d.besides ps := by
  simp only [List.cons_subset, List.nil_subset, and_true] at hps
  simp only [Dev.onStream, ↓Dev.besides_stp, hps]

theorem Dev.addItem_besides (d : Dev) (it : Item) (hps : [.items] ⊆ ps) :
    (Dev.addItem d it).2.besides ps = d.besides ps := by
  simp only [List.cons_subset, List.nil_subset, and_true] at hps
  simp only [Dev.addItem, ↓Dev.besides_items_nextItem, hps]

theorem Dev.forgetReads_besides (i : Nat) (d : Dev) (hps : [.links] ⊆ ps) :
    (Dev.forgetReads i d).besides ps = d.besides ps := by
  simp only [List.cons_subset, List.nil_subset, and_true] at hps
  simp only [Dev.forgetReads, ↓Dev.besides_links, hps]

theorem Dev.onTimePin_besides (d : Dev) (p : Nat) (f : TimePin → TimePin) (hps : [.time] ⊆ ps) :
    (Dev.onTimePin d p f).besides ps = d.besides ps := by
  simp only [List.cons_subset, List.nil_subset, and_true] at hps
  simp only [Dev.onTimePin, ↓Dev.besides_tempo, hps]

theorem Dev.countEpilogue_besides (fn : Nat) (f : Epilogue → Epilogue) (d : Dev) (hps : [.items] ⊆ ps) :
    (Dev.countEpilogue fn f d).besides ps = d.besides ps := by
  simp only [List.cons_subset, List.nil_subset, and_true] at hps
  simp only [Dev.countEpilogue, ↓Dev.besides_epilogues, ↓Dev.besides_ite, ite_self, hps]

theorem Dev.graceStart_besides (p : Nat) (d : Dev) (hps : [.positions] ⊆ ps) :
    (Dev.graceStart p d).besides ps = d.besides ps := by
  simp only [List.cons_subset, List.nil_subset, and_true] at hps
  simp only [Dev.graceStart, ↓Dev.besides_setPos, hps]

theorem Dev.dropBursts_besides (c : Nat) (d : Dev) (hps : [.links] ⊆ ps) :
    (Dev.dropBursts c d).besides ps = d.besides ps := by
  simp only [List.cons_subset, List.nil_subset, and_true] at hps
  simp only [Dev.dropBursts, ↓Dev.besides_links, hps]

theorem Dev.popRingError_besides (d : Dev) (hps : [.rings] ⊆ ps) :
    (Dev.popRingError d).2.besides ps = d.besides ps := by
  simp only [List.cons_subset, List.nil_subset, and_true] at hps
  unfold Dev.popRingError
  split <;> simp only [↓Dev.besides_ringErrors, hps]

theorem Dev.onChan_besides (d : Dev) (c : Nat) (f : Chan → Chan) (hps : [.channels] ⊆ ps) :
    (Dev.onChan d c f).besides ps = d.besides ps := by
  simp only [List.cons_subset, List.nil_subset, and_true] at hps
  simp only [Dev.onChan, ↓Dev.besides_chans, hps]

theorem Dev.beginRecord_besides (d : Dev) (hps : [.retained] ⊆ ps) :
    (Dev.beginRecord d).besides ps = d.besides ps := by
  simp only [List.cons_subset, List.nil_subset, and_true] at hps
  simp only [Dev.beginRecord, ↓Dev.besides_keep, ↓Dev.besides_ite, ite_self, hps]

theorem Dev.putRegion_besides (a : Nat) (b : Byte) (d : Dev) (hps : [.engines] ⊆ ps) :
    (Dev.putRegion a b d).besides ps = d.besides ps := by
  simp only [List.cons_subset, List.nil_subset, and_true] at hps
  simp only [Dev.putRegion, ↓Dev.besides_region, hps]

theorem Dev.putCry_besides (p : Nat) (s : Slot) (d : Dev) (hps : [.positions, .retained] ⊆ ps) :
    (Dev.putCry p s d).besides ps = d.besides ps := by
  simp only [List.cons_subset, List.nil_subset, and_true] at hps
  simp only [Dev.putCry, ↓Dev.besides_keep_cryPos, hps]

theorem Dev.putSlot_besides (p : Nat) (s : Slot) (d : Dev) (hps : [.positions, .retained] ⊆ ps) :
    (Dev.putSlot p s d).besides ps = d.besides ps := by
  simp only [List.cons_subset, List.nil_subset, and_true] at hps
  simp only [Dev.putSlot, ↓Dev.besides_keep_setPos, hps]

theorem Dev.onRoute_besides (d : Dev) (pf src : Nat) (f : Route → Route) (hps : [.routes] ⊆ ps) :
    (Dev.onRoute d pf src f).besides ps = d.besides ps := by
  simp only [List.cons_subset, List.nil_subset, and_true] at hps
  simp only [Dev.onRoute, ↓Dev.besides_routes, hps]

theorem Dev.creditLeaf_besides (s : Spread) (x : Leaf) (d : Dev) (hps : [.shares] ⊆ ps) :
    (Dev.creditLeaf s x d).besides ps = d.besides ps := by
  simp only [List.cons_subset, List.nil_subset, and_true] at hps
  simp only [Dev.creditLeaf, ↓Dev.besides_sched, ↓Dev.besides_ite, hps]
  repeat' split
  all_goals simp only [↓Dev.besides_sched, hps]

theorem Dev.dropJobs_besides (fn : Nat) (kind : FnReset) (d : Dev) (hps : [.work] ⊆ ps) :
    (Dev.dropJobs fn kind d).besides ps = d.besides ps := by
  simp only [List.cons_subset, List.nil_subset, and_true] at hps
  simp only [Dev.dropJobs, ↓Dev.besides_jobs, hps]

theorem Dev.addJob_besides (j : Job) (d : Dev) (hps : [.work] ⊆ ps) :
    (Dev.addJob j d).besides ps = d.besides ps := by
  simp only [List.cons_subset, List.nil_subset, and_true] at hps
  simp only [Dev.addJob, ↓Dev.besides_jobs_nextJob, hps]

theorem Dev.stompFrames_besides (i : Nat) (d : Dev) (hps : [.ports] ⊆ ps) :
    (Dev.stompFrames i d).besides ps = d.besides ps := by
  simp only [List.cons_subset, List.nil_subset, and_true] at hps
  simp only [Dev.stompFrames, ↓Dev.besides_macs, hps]

theorem Dev.stopSets_besides (d : Dev) (hps : [.sets] ⊆ ps) :
    (Dev.stopSets d).besides ps = d.besides ps := by
  simp only [List.cons_subset, List.nil_subset, and_true] at hps
  simp only [Dev.stopSets, ↓Dev.besides_sites, hps]

theorem Dev.dropReads_besides (d : Dev) (hps : [.links, .rings, .storage] ⊆ ps) :
    (Dev.dropReads d).besides ps = d.besides ps := by
  simp only [List.cons_subset, List.nil_subset, and_true] at hps
  simp only [Dev.dropReads, ↓Dev.besides_links_rings_qps_nvmes, hps]

theorem Dev.dropRegion_besides (k : NvmeCmd) (d : Dev) (hps : [.contexts] ⊆ ps) :
    (Dev.dropRegion k d).besides ps = d.besides ps := by
  simp only [List.cons_subset, List.nil_subset, and_true] at hps
  unfold Dev.dropRegion
  split <;> simp only [↓Dev.besides_ctxs, hps]

theorem Dev.freeBytes_besides (n : Nat) (d : Dev) :
    (Dev.freeBytes n d).2.besides ps = d.besides ps := by
  simp only [Dev.freeBytes, ↓Dev.besides_freeCtr]

theorem Dev.dropItem_besides (i : Nat) (d : Dev) (hps : [.items] ⊆ ps) :
    (Dev.dropItem i d).besides ps = d.besides ps := by
  simp only [List.cons_subset, List.nil_subset, and_true] at hps
  simp only [Dev.dropItem, ↓Dev.besides_items, hps]

theorem Dev.jobView_besides (c : Nat) (cfg : List Byte × List Byte) (d : Dev) (hps : [.contexts] ⊆ ps) :
    (Dev.jobView c cfg d).besides ps = d.besides ps := by
  simp only [List.cons_subset, List.nil_subset, and_true] at hps
  simp only [Dev.jobView, ↓Dev.besides_ctxs_ctxKeys, hps]

theorem Dev.buildCard_besides (d : Dev) (hps : [.start, .functions] ⊆ ps) :
    (Dev.buildCard d).besides ps = d.besides ps := by
  simp only [List.cons_subset, List.nil_subset, and_true] at hps
  simp only [Dev.buildCard, ↓Dev.besides_card_funcs, hps]

theorem Dev.tapTo_besides (n : Nat) (d : Dev) (hps : [.debug] ⊆ ps) :
    (Dev.tapTo n d).besides ps = d.besides ps := by
  simp only [List.cons_subset, List.nil_subset, and_true] at hps
  simp only [Dev.tapTo, ↓Dev.besides_dbg, hps]

theorem Dev.clearUnit_besides (unit inst : Nat) (d : Dev) (hps : [.registers] ⊆ ps) :
    (Dev.clearUnit unit inst d).besides ps = d.besides ps := by
  simp only [List.cons_subset, List.nil_subset, and_true] at hps
  simp only [Dev.clearUnit, ↓Dev.besides_regs, hps]

theorem Dev.wrKey_besides (f : Field) (k v : Nat) (d : Dev) (hps : [.registers] ⊆ ps) :
    (Dev.wrKey f k v d).besides ps = d.besides ps := by
  simp only [List.cons_subset, List.nil_subset, and_true] at hps
  simp only [Dev.wrKey, ↓Dev.besides_regs, hps]

theorem Dev.latchDomain_besides (mid k : Nat) (d : Dev) (hps : [.time] ⊆ ps) :
    (Dev.latchDomain mid k d).besides ps = d.besides ps := by
  simp only [List.cons_subset, List.nil_subset, and_true] at hps
  simp only [Dev.latchDomain, ↓Dev.besides_tempo, hps]

theorem Dev.noteSendRing_besides (r fn : Nat) (bytes : List Byte) (d : Dev) (hps : [.storage] ⊆ ps) :
    (Dev.noteSendRing r fn bytes d).besides ps = d.besides ps := by
  simp only [List.cons_subset, List.nil_subset, and_true] at hps
  simp only [Dev.noteSendRing, ↓Dev.besides_qps, ↓Dev.besides_ite, ite_self, hps]

theorem Dev.debit_besides (chain : List Nat) (bytes : Nat) (timed item : Bool) (d : Dev) (hps : [.shares] ⊆ ps) :
    (Dev.debit chain bytes timed item d).besides ps = d.besides ps := by
  simp only [List.cons_subset, List.nil_subset, and_true] at hps
  simp only [Dev.debit, ↓Dev.besides_sched, hps]

theorem Dev.killFetches_besides (r : Nat) (d : Dev) (hps : [.links] ⊆ ps) :
    (Dev.killFetches r d).besides ps = d.besides ps := by
  simp only [List.cons_subset, List.nil_subset, and_true] at hps
  simp only [Dev.killFetches, ↓Dev.besides_links, hps]

theorem Dev.settlePositions_besides (d : Dev) (hps : [.positions] ⊆ ps) :
    (Dev.settlePositions d).besides ps = d.besides ps := by
  simp only [List.cons_subset, List.nil_subset, and_true] at hps
  simp only [Dev.settlePositions, ↓Dev.besides_setPos_cryPos_cores, hps]

theorem Dev.clearWindows_besides (link : Nat) (d : Dev) (hps : [.retained, .registers] ⊆ ps) :
    (Dev.clearWindows link d).besides ps = d.besides ps := by
  simp only [List.cons_subset, List.nil_subset, and_true] at hps
  simp only [Dev.clearWindows, ↓Dev.wr_besides, ↓Dev.besides_regs, List.cons_subset, List.nil_subset, and_true, hps]

theorem Dev.crySnapStart_besides (mid c : Nat) (d : Dev) (hps : [.contexts, .retained, .registers] ⊆ ps) :
    (Dev.crySnapStart mid c d).besides ps = d.besides ps := by
  simp only [List.cons_subset, List.nil_subset, and_true] at hps
  simp only [Dev.crySnapStart, ↓Dev.wr_besides, ↓Dev.besides_crySnap, ↓Dev.besides_ite, ite_self, List.cons_subset, List.nil_subset, and_true, hps]

theorem Dev.nodeCommand_besides (mid : Nat) (write : Bool) (d : Dev) (hps : [.shares, .retained, .registers] ⊆ ps) :
    (Dev.nodeCommand mid write d).besides ps = d.besides ps := by
  simp only [List.cons_subset, List.nil_subset, and_true] at hps
  simp only [Dev.nodeCommand, ↓Dev.wr_besides, ↓Dev.besides_sched, ↓Dev.besides_ite, ite_self, List.cons_subset, List.nil_subset, and_true, hps]

theorem Dev.setPaused_besides (m v : Nat) (d : Dev) (hps : [.retained, .registers] ⊆ ps) :
    (Dev.setPaused m v d).besides ps = d.besides ps := by
  simp only [List.cons_subset, List.nil_subset, and_true] at hps
  simp only [Dev.setPaused, ↓Dev.wr_besides, List.cons_subset, List.nil_subset, and_true, hps]

theorem Dev.showAge_besides (k : Nat) (d : Dev) (hps : [.retained, .registers] ⊆ ps) :
    (Dev.showAge k d).besides ps = d.besides ps := by
  simp only [List.cons_subset, List.nil_subset, and_true] at hps
  simp only [Dev.showAge, ↓Dev.wr_besides, List.cons_subset, List.nil_subset, and_true, hps]

theorem Dev.setStpState_besides (v : Nat) (d : Dev) (hps : [.retained, .registers] ⊆ ps) :
    (Dev.setStpState v d).besides ps = d.besides ps := by
  simp only [List.cons_subset, List.nil_subset, and_true] at hps
  simp only [Dev.setStpState, ↓Dev.wr_besides, List.cons_subset, List.nil_subset, and_true, hps]

theorem Dev.setWindow_besides (p : Nat) (b : List Byte) (d : Dev) (hps : [.retained, .registers] ⊆ ps) :
    (Dev.setWindow p b d).besides ps = d.besides ps := by
  simp only [List.cons_subset, List.nil_subset, and_true] at hps
  simp only [Dev.setWindow, ↓Dev.wr_besides, ↓Dev.besides_each, List.cons_subset, List.nil_subset, and_true, implies_true, hps]

theorem Dev.showSatOut_besides (d : Dev) (hps : [.retained, .registers] ⊆ ps) :
    (Dev.showSatOut d).besides ps = d.besides ps := by
  simp only [List.cons_subset, List.nil_subset, and_true] at hps
  simp only [Dev.showSatOut, ↓Dev.wr_besides, List.cons_subset, List.nil_subset, and_true, hps]

theorem Dev.setFull_besides (c : Nat) (v : Bool) (d : Dev) (hps : [.retained, .registers] ⊆ ps) :
    (Dev.setFull c v d).besides ps = d.besides ps := by
  simp only [List.cons_subset, List.nil_subset, and_true] at hps
  simp only [Dev.setFull, ↓Dev.wr_besides, List.cons_subset, List.nil_subset, and_true, hps]

theorem Dev.acquireLanes_besides (d : Dev) (hps : [.retained, .registers] ⊆ ps) :
    (Dev.acquireLanes d).besides ps = d.besides ps := by
  simp only [List.cons_subset, List.nil_subset, and_true] at hps
  simp only [Dev.acquireLanes]
  refine Dev.besides_each _ _ _ fun a e => ?_
  simp only [↓Dev.wr_besides, ↓Dev.besides_each, List.cons_subset, List.nil_subset, and_true, implies_true, hps]

theorem Dev.applyLinks_besides (img : Image) (d : Dev) (hps : [.retained, .registers] ⊆ ps) :
    (Dev.applyLinks img d).besides ps = d.besides ps := by
  simp only [List.cons_subset, List.nil_subset, and_true] at hps
  simp only [Dev.applyLinks, ↓Dev.wr_besides, ↓Dev.besides_each, List.cons_subset, List.nil_subset, and_true, implies_true, hps]

theorem Dev.bump_besides (d : Dev) (f : Field) (i : Nat) (a : Nat) (n : Nat) (hps : [.retained, .registers] ⊆ ps) :
    (Dev.bump d f i a n).besides ps = d.besides ps := by
  simp only [List.cons_subset, List.nil_subset, and_true] at hps
  simp only [Dev.bump, ↓Dev.wr_besides, List.cons_subset, List.nil_subset, and_true, hps]

theorem Dev.plainRead_besides (unit inst off : Nat) (d : Dev) (hps : [.retained, .registers] ⊆ ps) :
    (Dev.plainRead unit inst off d).2.besides ps = d.besides ps := by
  simp only [List.cons_subset, List.nil_subset, and_true] at hps
  simp only [Dev.plainRead, ↓Dev.wr_besides, ↓Dev.besides_each, List.cons_subset, List.nil_subset, and_true, implies_true, hps]

theorem Dev.setSlotState_besides (n v : Nat) (d : Dev) (hps : [.retained, .registers] ⊆ ps) :
    (Dev.setSlotState n v d).besides ps = d.besides ps := by
  simp only [List.cons_subset, List.nil_subset, and_true] at hps
  simp only [Dev.setSlotState, ↓Dev.wr_besides, List.cons_subset, List.nil_subset, and_true, hps]

theorem Dev.s44Ctrl_besides (fn q v : Nat) (d : Dev) (hps : [.retained, .registers] ⊆ ps) :
    (Dev.s44Ctrl fn q v d).besides ps = d.besides ps := by
  simp only [List.cons_subset, List.nil_subset, and_true] at hps
  simp only [Dev.s44Ctrl, ↓Dev.wr_besides, List.cons_subset, List.nil_subset, and_true, hps]

theorem Dev.calm_besides (m cls : Nat) (d : Dev) (hps : [.retained, .registers] ⊆ ps) :
    (Dev.calm m cls d).besides ps = d.besides ps := by
  simp only [List.cons_subset, List.nil_subset, and_true] at hps
  simp only [Dev.calm, ↓Dev.wr_besides, ↓Dev.besides_ite, ite_self, List.cons_subset, List.nil_subset, and_true, hps]

theorem Dev.slotFlag_besides (n : Nat) (d : Dev) (hps : [.retained, .registers] ⊆ ps) :
    (Dev.slotFlag n d).besides ps = d.besides ps := by
  simp only [List.cons_subset, List.nil_subset, and_true] at hps
  simp only [Dev.slotFlag, ↓Dev.wr_besides, List.cons_subset, List.nil_subset, and_true, hps]

theorem Dev.ctxSnapEnd_besides (d : Dev) (hps : [.rings, .retained, .registers] ⊆ ps) :
    (Dev.ctxSnapEnd d).besides ps = d.besides ps := by
  simp only [List.cons_subset, List.nil_subset, and_true] at hps
  unfold Dev.ctxSnapEnd
  split <;> simp only [↓Dev.wr_besides, ↓Dev.besides_ctxSnap, ↓Dev.besides_each, List.cons_subset, List.nil_subset, and_true, implies_true, hps]

theorem Dev.setLogWord_besides (s w v : Nat) (d : Dev) (hps : [.retained, .registers] ⊆ ps) :
    (Dev.setLogWord s w v d).besides ps = d.besides ps := by
  simp only [List.cons_subset, List.nil_subset, and_true] at hps
  simp only [Dev.setLogWord, ↓Dev.wr_besides, List.cons_subset, List.nil_subset, and_true, hps]

theorem Dev.rehashStart_besides (t : Nat) (d : Dev) (hps : [.retained, .registers] ⊆ ps) :
    (Dev.rehashStart t d).besides ps = d.besides ps := by
  simp only [List.cons_subset, List.nil_subset, and_true] at hps
  simp only [Dev.rehashStart, ↓Dev.wr_besides, ↓Dev.besides_ite, ite_self, List.cons_subset, List.nil_subset, and_true, hps]

theorem Dev.crySnapEnd_besides (d : Dev) (hps : [.contexts, .retained, .registers] ⊆ ps) :
    (Dev.crySnapEnd d).besides ps = d.besides ps := by
  simp only [List.cons_subset, List.nil_subset, and_true] at hps
  unfold Dev.crySnapEnd
  split <;> simp only [↓Dev.wr_besides, ↓Dev.besides_crySnap, ↓Dev.besides_each, List.cons_subset, List.nil_subset, and_true, implies_true, hps]

theorem Dev.refreshLog_besides (d : Dev) (hps : [.retained, .registers] ⊆ ps) :
    (Dev.refreshLog d).besides ps = d.besides ps := by
  simp only [List.cons_subset, List.nil_subset, and_true] at hps
  simp only [Dev.refreshLog, ↓Dev.wr_besides, List.cons_subset, List.nil_subset, and_true, hps]

theorem Dev.ctxSnapStart_besides (mid ring : Nat) (d : Dev) (hps : [.rings, .retained, .registers] ⊆ ps) :
    (Dev.ctxSnapStart mid ring d).besides ps = d.besides ps := by
  simp only [List.cons_subset, List.nil_subset, and_true] at hps
  simp only [Dev.ctxSnapStart, ↓Dev.wr_besides, ↓Dev.besides_ctxSnap, ↓Dev.besides_ite, ite_self, List.cons_subset, List.nil_subset, and_true, hps]

theorem Dev.snapshotTime_besides (d : Dev) (hps : [.retained, .registers] ⊆ ps) :
    (Dev.snapshotTime d).besides ps = d.besides ps := by
  simp only [List.cons_subset, List.nil_subset, and_true] at hps
  simp only [Dev.snapshotTime, ↓Dev.wr_besides, List.cons_subset, List.nil_subset, and_true, hps]

theorem Dev.wr64_besides (d : Dev) (lo hi : Field) (v : Nat) (i : Nat) (a : Nat) (hps : [.retained, .registers] ⊆ ps) :
    (Dev.wr64 d lo hi v i a).besides ps = d.besides ps := by
  simp only [List.cons_subset, List.nil_subset, and_true] at hps
  simp only [Dev.wr64, ↓Dev.wr_besides, List.cons_subset, List.nil_subset, and_true, hps]

theorem Dev.showXfer_besides (x : Xfer) (state : Nat) (d : Dev) (hps : [.retained, .registers] ⊆ ps) :
    (Dev.showXfer x state d).besides ps = d.besides ps := by
  simp only [List.cons_subset, List.nil_subset, and_true] at hps
  simp only [Dev.showXfer, ↓Dev.wr_besides, List.cons_subset, List.nil_subset, and_true, hps]

theorem Dev.leaveL1_besides (link : Nat) (d : Dev) (hps : [.retained, .registers] ⊆ ps) :
    (Dev.leaveL1 link d).besides ps = d.besides ps := by
  simp only [List.cons_subset, List.nil_subset, and_true] at hps
  simp only [Dev.leaveL1, ↓Dev.wr_besides, ↓Dev.besides_ite, ite_self, List.cons_subset, List.nil_subset, and_true, hps]

theorem Dev.readMacCount_besides (m c : Nat) (d : Dev) (hps : [.ports, .retained, .registers] ⊆ ps) :
    (Dev.readMacCount m c d).2.besides ps = d.besides ps := by
  simp only [List.cons_subset, List.nil_subset, and_true] at hps
  simp only [Dev.readMacCount, ↓Dev.wr_besides, ↓Dev.besides_macCounts, List.cons_subset, List.nil_subset, and_true, hps]

theorem Dev.rehashResume_besides (t : Nat) (d : Dev) (hps : [.retained, .registers] ⊆ ps) :
    (Dev.rehashResume t d).besides ps = d.besides ps := by
  simp only [List.cons_subset, List.nil_subset, and_true] at hps
  simp only [Dev.rehashResume, ↓Dev.wr_besides, ↓Dev.besides_ite, ite_self, List.cons_subset, List.nil_subset, and_true, hps]

theorem Dev.applyPorts_besides (img : Image) (d : Dev) (hps : [.retained, .registers] ⊆ ps) :
    (Dev.applyPorts img d).besides ps = d.besides ps := by
  simp only [List.cons_subset, List.nil_subset, and_true] at hps
  simp only [Dev.applyPorts]
  refine Dev.besides_each _ _ _ fun a e => ?_
  simp only [↓Dev.wr_besides, ↓Dev.besides_each, List.cons_subset, List.nil_subset, and_true, implies_true, hps]

theorem Dev.plainWrite_besides (unit inst off v : Nat) (d : Dev) (hps : [.retained, .registers] ⊆ ps) :
    (Dev.plainWrite unit inst off v d).besides ps = d.besides ps := by
  simp only [List.cons_subset, List.nil_subset, and_true] at hps
  simp only [Dev.plainWrite]
  refine Dev.besides_each _ _ _ fun a e => ?_
  split <;> simp only [↓Dev.wr_besides, List.cons_subset, List.nil_subset, and_true, hps]

theorem Dev.csStep_besides (p : Nat) (d : Dev) (hps : [.retained, .registers] ⊆ ps) :
    (Dev.csStep p d).besides ps = d.besides ps := by
  simp only [List.cons_subset, List.nil_subset, and_true] at hps
  simp only [Dev.csStep, ↓Dev.wr_besides, List.cons_subset, List.nil_subset, and_true, hps]

theorem Dev.clearIf_besides (d : Dev) (v b : Nat) (f : Field) (a : Nat) (hps : [.retained, .registers] ⊆ ps) :
    (Dev.clearIf d v b f a).besides ps = d.besides ps := by
  simp only [List.cons_subset, List.nil_subset, and_true] at hps
  simp only [Dev.clearIf, ↓Dev.wr_besides, ↓Dev.besides_ite, ite_self, List.cons_subset, List.nil_subset, and_true, hps]

theorem Dev.setXoff_besides (m cls : Nat) (v : Bool) (d : Dev) (hps : [.retained, .registers] ⊆ ps) :
    (Dev.setXoff m cls v d).besides ps = d.besides ps := by
  simp only [List.cons_subset, List.nil_subset, and_true] at hps
  simp only [Dev.setXoff, ↓Dev.wr_besides, List.cons_subset, List.nil_subset, and_true, hps]

theorem Dev.applySchema_besides (img : Image) (d : Dev) (hps : [.retained, .registers] ⊆ ps) :
    (Dev.applySchema img d).besides ps = d.besides ps := by
  simp only [List.cons_subset, List.nil_subset, and_true] at hps
  have hrecord (l : List (Nat × Nat)) (a : Dev) : (Dev.each l (fun x d =>
      Dev.each (List.range 4) (fun w d => d.wr R.PPL_ACTION_record (bits x.2 (32 * w) 32) 0 (16 * x.1 + 4 * w)) d) a).besides ps = a.besides ps :=
    Dev.besides_each _ _ _ fun x e => by simp only [↓Dev.wr_besides, ↓Dev.besides_each, List.cons_subset, List.nil_subset, and_true,
        implies_true, hps]
  simp only [Dev.applySchema, hrecord, ↓Dev.wr_besides, ↓Dev.besides_each, List.cons_subset, List.nil_subset, and_true, implies_true, hps]

theorem Dev.dropException_besides (r : Nat) (d : Dev) (hps : [.retained, .registers] ⊆ ps) :
    (Dev.dropException r d).besides ps = d.besides ps := by
  simp only [List.cons_subset, List.nil_subset, and_true] at hps
  simp only [Dev.dropException, ↓Dev.wr_besides, ↓Dev.besides_ite, ↓Dev.besides_each, ite_self, List.cons_subset, List.nil_subset,
      and_true, implies_true, hps]

theorem Dev.showSlot_besides (n : Nat) (d : Dev) (hps : [.retained, .registers] ⊆ ps) :
    (Dev.showSlot n d).besides ps = d.besides ps := by
  simp only [List.cons_subset, List.nil_subset, and_true] at hps
  simp only [Dev.showSlot, ↓Dev.wr_besides, List.cons_subset, List.nil_subset, and_true, hps]

theorem Dev.setDomain_besides (d : Dev) (n : Nat) (up : Bool) (hps : [.retained, .registers] ⊆ ps) :
    (Dev.setDomain d n up).besides ps = d.besides ps := by
  simp only [List.cons_subset, List.nil_subset, and_true] at hps
  simp only [Dev.setDomain, ↓Dev.wr_besides, ↓Dev.besides_ite, ite_self, List.cons_subset, List.nil_subset, and_true, hps]

theorem Dev.setView_besides (c : Nat) (words : List Nat) (len seq : Nat) (redelivered : Bool) (d : Dev) (hps : [.retained, .registers] ⊆ ps) :
    (Dev.setView c words len seq redelivered d).besides ps = d.besides ps := by
  simp only [List.cons_subset, List.nil_subset, and_true] at hps
  simp only [Dev.setView, ↓Dev.wr_besides, ↓Dev.besides_each, List.cons_subset, List.nil_subset, and_true, implies_true, hps]

theorem Dev.countControllers_besides (d : Dev) (hps : [.retained, .registers] ⊆ ps) :
    (Dev.countControllers d).besides ps = d.besides ps := by
  simp only [List.cons_subset, List.nil_subset, and_true] at hps
  simp only [Dev.countControllers, ↓Dev.wr_besides, List.cons_subset, List.nil_subset, and_true, hps]

theorem Dev.nodeDone_besides (d : Dev) (hps : [.shares, .retained, .registers] ⊆ ps) :
    (Dev.nodeDone d).besides ps = d.besides ps := by
  simp only [List.cons_subset, List.nil_subset, and_true] at hps
  unfold Dev.nodeDone
  split <;> simp only [↓Dev.wr_besides, ↓Dev.besides_sched, ↓Dev.besides_ite, ite_self, List.cons_subset, List.nil_subset, and_true, hps]

theorem Dev.wrBits_besides (f : Field) (v i : Nat) (d : Dev) (hps : [.retained, .registers] ⊆ ps) :
    (Dev.wrBits f v i d).besides ps = d.besides ps := by
  simp only [List.cons_subset, List.nil_subset, and_true] at hps
  simp only [Dev.wrBits, ↓Dev.wr_besides, ↓Dev.besides_each, List.cons_subset, List.nil_subset, and_true, implies_true, hps]

theorem Dev.popFailure_besides (d : Dev) (hps : [.items, .retained, .registers] ⊆ ps) :
    (Dev.popFailure d).2.besides ps = d.besides ps := by
  simp only [List.cons_subset, List.nil_subset, and_true] at hps
  unfold Dev.popFailure
  split <;> simp only [↓Dev.wr_besides, ↓Dev.besides_failures, List.cons_subset, List.nil_subset, and_true, hps]

theorem Dev.setHoldover_besides (k : Nat) (v : Bool) (d : Dev) (hps : [.retained, .registers] ⊆ ps) :
    (Dev.setHoldover k v d).besides ps = d.besides ps := by
  simp only [List.cons_subset, List.nil_subset, and_true] at hps
  simp only [Dev.setHoldover, ↓Dev.wr_besides, List.cons_subset, List.nil_subset, and_true, hps]

theorem Dev.owe_besides (r s : Nat) (c : Cpl) (d : Dev) (hps : [.rings] ⊆ ps) :
    (Dev.owe r s c d).besides ps = d.besides ps := by
  simp only [List.cons_subset, List.nil_subset, and_true] at hps
  simp only [Dev.owe, ↓Dev.onRing_besides, List.cons_subset, List.nil_subset, and_true, hps]

theorem Dev.releaseHeld_besides (it : Item) (d : Dev) (hps : [.rings] ⊆ ps) :
    (Dev.releaseHeld it d).besides ps = d.besides ps := by
  simp only [List.cons_subset, List.nil_subset, and_true] at hps
  unfold Dev.releaseHeld
  split <;> simp only [↓Dev.onRing_besides, List.cons_subset, List.nil_subset, and_true, hps]

theorem Dev.readyOwed_besides (r s : Nat) (c : Cpl) (d : Dev) (hps : [.rings] ⊆ ps) :
    (Dev.readyOwed r s c d).besides ps = d.besides ps := by
  simp only [List.cons_subset, List.nil_subset, and_true] at hps
  simp only [Dev.readyOwed, ↓Dev.onRing_besides, List.cons_subset, List.nil_subset, and_true, hps]

theorem Dev.oweLater_besides (r s : Nat) (c : Cpl) (d : Dev) (hps : [.rings] ⊆ ps) :
    (Dev.oweLater r s c d).besides ps = d.besides ps := by
  simp only [List.cons_subset, List.nil_subset, and_true] at hps
  simp only [Dev.oweLater, ↓Dev.onRing_besides, List.cons_subset, List.nil_subset, and_true, hps]

theorem Dev.dmaBurstArrived_besides (c id : Nat) (data : Option (List Byte)) (d : Dev) (hps : [.engines] ⊆ ps) :
    (Dev.dmaBurstArrived c id data d).besides ps = d.besides ps := by
  simp only [List.cons_subset, List.nil_subset, and_true] at hps
  simp only [Dev.dmaBurstArrived, ↓Dev.onDma_besides, List.cons_subset, List.nil_subset, and_true, hps]

theorem Dev.dmaPause_besides (c : Nat) (d : Dev) (hps : [.engines, .retained, .registers] ⊆ ps) :
    (Dev.dmaPause c d).besides ps = d.besides ps := by
  simp only [List.cons_subset, List.nil_subset, and_true] at hps
  simp only [Dev.dmaPause, ↓Dev.onDma_besides, ↓Dev.wr_besides, ↓Dev.besides_ite, ite_self, List.cons_subset, List.nil_subset, and_true, hps]

theorem Dev.dmaDescArrived_besides (c : Nat) (data : Option (List Byte)) (d : Dev) (hps : [.engines] ⊆ ps) :
    (Dev.dmaDescArrived c data d).besides ps = d.besides ps := by
  simp only [List.cons_subset, List.nil_subset, and_true] at hps
  simp only [Dev.dmaDescArrived, ↓Dev.onDma_besides, List.cons_subset, List.nil_subset, and_true, hps]

theorem Dev.takeCnp_besides (q : Nat) (d : Dev) (hps : [.storage] ⊆ ps) :
    (Dev.takeCnp q d).besides ps = d.besides ps := by
  simp only [List.cons_subset, List.nil_subset, and_true] at hps
  simp only [Dev.takeCnp, ↓Dev.onQp_besides, ↓Dev.besides_ite, ite_self, List.cons_subset, List.nil_subset, and_true, hps]

theorem Dev.cnpFrames_besides (q : Nat) (marked : Bool) (d : Dev) (hps : [.storage] ⊆ ps) :
    (Dev.cnpFrames q marked d).2.besides ps = d.besides ps := by
  simp only [List.cons_subset, List.nil_subset, and_true] at hps
  unfold Dev.cnpFrames
  split <;> simp only [↓Dev.onQp_besides, List.cons_subset, List.nil_subset, and_true, hps]

theorem Dev.putQpCmd_besides (q : Nat) (k : NvmeCmd) (d : Dev) (hps : [.storage] ⊆ ps) :
    (Dev.putQpCmd q k d).besides ps = d.besides ps := by
  simp only [List.cons_subset, List.nil_subset, and_true] at hps
  simp only [Dev.putQpCmd, ↓Dev.onQp_besides, List.cons_subset, List.nil_subset, and_true, hps]

theorem Dev.dropQpCmd_besides (q : Nat) (k : NvmeCmd) (d : Dev) (hps : [.storage] ⊆ ps) :
    (Dev.dropQpCmd q k d).besides ps = d.besides ps := by
  simp only [List.cons_subset, List.nil_subset, and_true] at hps
  simp only [Dev.dropQpCmd, ↓Dev.onQp_besides, List.cons_subset, List.nil_subset, and_true, hps]

theorem Dev.takeIdents_besides (m : Nat) (it : Item) (k : Nat) (d : Dev) (hps : [.ports] ⊆ ps) :
    (Dev.takeIdents m it k d).besides ps = d.besides ps := by
  simp only [List.cons_subset, List.nil_subset, and_true] at hps
  unfold Dev.takeIdents
  split <;> simp only [↓Dev.onMac_besides, ↓Dev.besides_ite, ite_self, List.cons_subset, List.nil_subset, and_true, hps]

theorem Dev.stageEmptied_besides (p c : Nat) (d : Dev) (hps : [.sets] ⊆ ps) :
    (Dev.stageEmptied p c d).besides ps = d.besides ps := by
  simp only [List.cons_subset, List.nil_subset, and_true] at hps
  simp only [Dev.stageEmptied, ↓Dev.onSite_besides, ↓Dev.besides_ite, ite_self, List.cons_subset, List.nil_subset, and_true, hps]

theorem Dev.onSetChan_besides (d : Dev) (p c : Nat) (f : SetChan → SetChan) (hps : [.sets] ⊆ ps) :
    (Dev.onSetChan d p c f).besides ps = d.besides ps := by
  simp only [List.cons_subset, List.nil_subset, and_true] at hps
  simp only [Dev.onSetChan, ↓Dev.onSite_besides, List.cons_subset, List.nil_subset, and_true, hps]

theorem Dev.takeToken_besides (p t : Nat) (d : Dev) (hps : [.sets] ⊆ ps) :
    (Dev.takeToken p t d).besides ps = d.besides ps := by
  simp only [List.cons_subset, List.nil_subset, and_true] at hps
  simp only [Dev.takeToken, ↓Dev.onSite_besides, List.cons_subset, List.nil_subset, and_true, hps]

theorem Dev.popFault_besides (p : Nat) (d : Dev) (hps : [.sets] ⊆ ps) :
    (Dev.popFault p d).2.besides ps = d.besides ps := by
  simp only [List.cons_subset, List.nil_subset, and_true] at hps
  unfold Dev.popFault
  split <;> simp only [↓Dev.onSite_besides, List.cons_subset, List.nil_subset, and_true, hps]

theorem Dev.onThread_besides (d : Dev) (p t : Nat) (f : Thread → Thread) (hps : [.sets] ⊆ ps) :
    (Dev.onThread d p t f).besides ps = d.besides ps := by
  simp only [List.cons_subset, List.nil_subset, and_true] at hps
  simp only [Dev.onThread, ↓Dev.onSite_besides, List.cons_subset, List.nil_subset, and_true, hps]

theorem Dev.putCmd_besides (c : Nat) (k : NvmeCmd) (d : Dev) (hps : [.storage] ⊆ ps) :
    (Dev.putCmd c k d).besides ps = d.besides ps := by
  simp only [List.cons_subset, List.nil_subset, and_true] at hps
  simp only [Dev.putCmd, ↓Dev.onConn_besides, List.cons_subset, List.nil_subset, and_true, hps]

theorem Dev.dropCmd_besides (c : Nat) (k : NvmeCmd) (d : Dev) (hps : [.storage] ⊆ ps) :
    (Dev.dropCmd c k d).besides ps = d.besides ps := by
  simp only [List.cons_subset, List.nil_subset, and_true] at hps
  simp only [Dev.dropCmd, ↓Dev.onConn_besides, List.cons_subset, List.nil_subset, and_true, hps]

theorem Dev.tcpSend_besides (c : Nat) (b : List Byte) (d : Dev) (hps : [.storage] ⊆ ps) :
    (Dev.tcpSend c b d).2.besides ps = d.besides ps := by
  simp only [List.cons_subset, List.nil_subset, and_true] at hps
  simp only [Dev.tcpSend, ↓Dev.onConn_besides, List.cons_subset, List.nil_subset, and_true, hps]

theorem Dev.readTemplate_besides (i n : Nat) (d : Dev) (hps : [.items] ⊆ ps) :
    (Dev.readTemplate i n d).besides ps = d.besides ps := by
  simp only [List.cons_subset, List.nil_subset, and_true] at hps
  simp only [Dev.readTemplate, ↓Dev.onItem_besides, List.cons_subset, List.nil_subset, and_true, hps]

theorem Dev.startJobs_besides (d : Dev) (hps : [.items] ⊆ ps) :
    (Dev.startJobs d).besides ps = d.besides ps := by
  simp only [List.cons_subset, List.nil_subset, and_true] at hps
  simp only [Dev.startJobs]
  refine Dev.besides_each _ _ _ fun a e => ?_
  split <;> simp only [↓Dev.onItem_besides, List.cons_subset, List.nil_subset, and_true, hps]

theorem Dev.deliverItem_besides (i p : Nat) (d : Dev) (hps : [.items, .sets] ⊆ ps) :
    (Dev.deliverItem i p d).besides ps = d.besides ps := by
  simp only [List.cons_subset, List.nil_subset, and_true] at hps
  simp only [Dev.deliverItem, ↓Dev.onItem_besides, ↓Dev.onSite_besides, ↓Dev.besides_dispatched, List.cons_subset, List.nil_subset, and_true, hps]

theorem Dev.recover_besides (d : Dev) (hps : [.start, .output] ⊆ ps) :
    (Dev.recover d).besides ps = d.besides ps := by
  simp only [List.cons_subset, List.nil_subset, and_true] at hps
  simp only [Dev.recover, ↓Dev.emit_besides, ↓Dev.besides_phase, List.cons_subset, List.nil_subset, and_true, hps]

theorem Dev.releaseTrip_besides (d : Dev) (hps : [.power, .output] ⊆ ps) :
    (Dev.releaseTrip d).besides ps = d.besides ps := by
  simp only [List.cons_subset, List.nil_subset, and_true] at hps
  simp only [Dev.releaseTrip, ↓Dev.emit_besides, ↓Dev.besides_power, ↓Dev.besides_ite, ite_self, List.cons_subset, List.nil_subset, and_true, hps]

theorem Dev.challenge_besides (d : Dev) (hps : [.debug, .output] ⊆ ps) :
    (Dev.challenge d).besides ps = d.besides ps := by
  simp only [List.cons_subset, List.nil_subset, and_true] at hps
  simp only [Dev.challenge, ↓Dev.emit_besides, ↓Dev.besides_freeCtr_dbg, ↓Dev.besides_ite, ite_self, List.cons_subset, List.nil_subset, and_true, hps]

theorem Dev.wakeLpi_besides (p : Nat) (d : Dev) (hps : [.retained, .registers, .output] ⊆ ps) :
    (Dev.wakeLpi p d).besides ps = d.besides ps := by
  simp only [List.cons_subset, List.nil_subset, and_true] at hps
  simp only [Dev.wakeLpi, ↓Dev.emit_besides, ↓Dev.wr_besides, ↓Dev.besides_ite, ite_self, List.cons_subset, List.nil_subset, and_true, hps]

theorem Dev.drivePin_besides (p : Nat) (d : Dev) (hps : [.output] ⊆ ps) :
    (Dev.drivePin p d).besides ps = d.besides ps := by
  simp only [List.cons_subset, List.nil_subset, and_true] at hps
  simp only [Dev.drivePin, ↓Dev.emit_besides, ↓Dev.besides_ite, ite_self, List.cons_subset, List.nil_subset, and_true, hps]

theorem Dev.requestVdd_besides (mv cause : Nat) (d : Dev) (hps : [.retained, .registers, .output] ⊆ ps) :
    (Dev.requestVdd mv cause d).besides ps = d.besides ps := by
  simp only [List.cons_subset, List.nil_subset, and_true] at hps
  simp only [Dev.requestVdd, ↓Dev.emit_besides, ↓Dev.wr_besides, ↓Dev.besides_ite, ite_self, List.cons_subset, List.nil_subset, and_true, hps]

theorem Dev.sensorRead_besides (x : Sensor) (d : Dev) (hps : [.output] ⊆ ps) :
    (Dev.sensorRead x d).besides ps = d.besides ps := by
  simp only [List.cons_subset, List.nil_subset, and_true] at hps
  simp only [Dev.sensorRead, ↓Dev.emit_besides, ↓Dev.besides_ite, ite_self, List.cons_subset, List.nil_subset, and_true, hps]

theorem Dev.loadIdeKeys_besides (link : Nat) (keys : List Byte) (d : Dev) (hps : [.links, .retained, .registers, .output] ⊆ ps) :
    (Dev.loadIdeKeys link keys d).besides ps = d.besides ps := by
  simp only [List.cons_subset, List.nil_subset, and_true] at hps
  simp only [Dev.loadIdeKeys, ↓Dev.emit_besides, ↓Dev.onLink_besides, ↓Dev.wr_besides, ↓Dev.besides_ite, ite_self, List.cons_subset,
      List.nil_subset, and_true, hps]

theorem Dev.sendMessage_besides (d : Dev) (fn v : Nat) (hps : [.links, .output] ⊆ ps) :
    (Dev.sendMessage d fn v).besides ps = d.besides ps := by
  simp only [List.cons_subset, List.nil_subset, and_true] at hps
  simp only [Dev.sendMessage, ↓Dev.emit_besides, ↓Dev.onLink_besides, ↓Dev.besides_ite, ite_self, List.cons_subset, List.nil_subset, and_true, hps]

theorem Dev.queueTranslation_besides (fn addr : Nat) (pasid : Option Nat) (d : Dev) (hps : [.links] ⊆ ps) :
    (Dev.queueTranslation fn addr pasid d).besides ps = d.besides ps := by
  simp only [List.cons_subset, List.nil_subset, and_true] at hps
  simp only [Dev.queueTranslation, ↓Dev.onLink_besides, ↓Dev.besides_ite, ite_self, List.cons_subset, List.nil_subset, and_true, hps]

theorem Dev.dropTranslations_besides (fn : Nat) (d : Dev) (hps : [.links] ⊆ ps) :
    (Dev.dropTranslations fn d).besides ps = d.besides ps := by
  simp only [List.cons_subset, List.nil_subset, and_true] at hps
  simp only [Dev.dropTranslations, ↓Dev.onLink_besides, List.cons_subset, List.nil_subset, and_true, hps]

theorem Dev.killReads_besides (fn : Nat) (quarantine : Bool) (d : Dev) (hps : [.links] ⊆ ps) :
    (Dev.killReads fn quarantine d).besides ps = d.besides ps := by
  simp only [List.cons_subset, List.nil_subset, and_true] at hps
  simp only [Dev.killReads, ↓Dev.onLink_besides, List.cons_subset, List.nil_subset, and_true, hps]

theorem Dev.enableLinks_besides (low : List Nat) (d : Dev) (hps : [.links, .retained, .registers] ⊆ ps) :
    (Dev.enableLinks low d).besides ps = d.besides ps := by
  simp only [List.cons_subset, List.nil_subset, and_true] at hps
  simp only [Dev.enableLinks, ↓Dev.onLink_besides, ↓Dev.wr_besides, ↓Dev.besides_ite, ↓Dev.besides_each, ite_self, List.cons_subset,
      List.nil_subset, and_true, implies_true, hps]

theorem Dev.commitInc_besides (k hi : Nat) (d : Dev) (hps : [.time, .retained, .registers] ⊆ ps) :
    (Dev.commitInc k hi d).besides ps = d.besides ps := by
  simp only [List.cons_subset, List.nil_subset, and_true] at hps
  simp only [Dev.commitInc, ↓Dev.onDom_besides, ↓Dev.wr_besides, List.cons_subset, List.nil_subset, and_true, hps]

theorem Dev.setStage_besides (p n : Nat) (b : List Byte) (d : Dev) (hps : [.tables] ⊆ ps) :
    (Dev.setStage p n b d).besides ps = d.besides ps := by
  simp only [List.cons_subset, List.nil_subset, and_true] at hps
  simp only [Dev.setStage, ↓Dev.onMtb_besides, List.cons_subset, List.nil_subset, and_true, hps]

theorem Dev.setCuckoo_besides (t : Nat) (c : Cuckoo) (d : Dev) (hps : [.tables] ⊆ ps) :
    (Dev.setCuckoo t c d).besides ps = d.besides ps := by
  simp only [List.cons_subset, List.nil_subset, and_true] at hps
  simp only [Dev.setCuckoo, ↓Dev.onMtb_besides, List.cons_subset, List.nil_subset, and_true, hps]

theorem Dev.touchLine_besides (t i : Nat) (d : Dev) (hps : [.tables] ⊆ ps) :
    (Dev.touchLine t i d).besides ps = d.besides ps := by
  simp only [List.cons_subset, List.nil_subset, and_true] at hps
  simp only [Dev.touchLine, ↓Dev.onMtb_besides, ↓Dev.besides_ite, ite_self, List.cons_subset, List.nil_subset, and_true, hps]

theorem Dev.onCompare_besides (d : Dev) (f : Compare → Compare) (hps : [.tables] ⊆ ps) :
    (Dev.onCompare d f).besides ps = d.besides ps := by
  simp only [List.cons_subset, List.nil_subset, and_true] at hps
  simp only [Dev.onCompare, ↓Dev.onMtb_besides, List.cons_subset, List.nil_subset, and_true, hps]

theorem Dev.clearStage_besides (p n : Nat) (d : Dev) (hps : [.tables] ⊆ ps) :
    (Dev.clearStage p n d).besides ps = d.besides ps := by
  simp only [List.cons_subset, List.nil_subset, and_true] at hps
  simp only [Dev.clearStage, ↓Dev.onMtb_besides, List.cons_subset, List.nil_subset, and_true, hps]

theorem Dev.prefixDelete_besides (p : Nat) (d : Dev) (hps : [.tables] ⊆ ps) :
    (Dev.prefixDelete p d).2.besides ps = d.besides ps := by
  simp only [List.cons_subset, List.nil_subset, and_true] at hps
  unfold Dev.prefixDelete
  split
  · simp only
  · split <;> simp only [↓Dev.onMtb_besides, List.cons_subset, List.nil_subset, and_true, hps]

theorem Dev.portError_besides (port : Option Nat) (d : Dev) (hps : [.tables] ⊆ ps) :
    (Dev.portError port d).besides ps = d.besides ps := by
  simp only [List.cons_subset, List.nil_subset, and_true] at hps
  unfold Dev.portError
  split
  · simp only
  · split <;> simp only [↓Dev.onMtb_besides, List.cons_subset, List.nil_subset, and_true, hps]

theorem Dev.releaseTenants_besides (pf : Nat) (d : Dev) (hps : [.tenants, .shares] ⊆ ps) :
    (Dev.releaseTenants pf d).besides ps = d.besides ps := by
  simp only [List.cons_subset, List.nil_subset, and_true] at hps
  simp only [Dev.releaseTenants, ↓Dev.dropNodes_besides, ↓Dev.besides_tenants, List.cons_subset, List.nil_subset, and_true, hps]

theorem Dev.eraseRing_besides (r : Nat) (g : Ring) (d : Dev) (hps : [.rings, .shares] ⊆ ps) :
    (Dev.eraseRing r g d).besides ps = d.besides ps := by
  simp only [List.cons_subset, List.nil_subset, and_true] at hps
  simp only [Dev.eraseRing, ↓Dev.dropNodes_besides, ↓Dev.freshBalance_besides, ↓Dev.besides_rings_groups_ctxCache, List.cons_subset,
      List.nil_subset, and_true, hps]

theorem Dev.flagOr_besides (o : Option Bool) (d : Dev) :
    (Dev.flagOr o d).2.besides ps = d.besides ps := by
  unfold Dev.flagOr
  split <;> simp only [↓Dev.free_besides]

theorem Dev.openConn_besides (c : Nat) (d : Dev) (hps : [.storage] ⊆ ps) :
    (Dev.openConn c d).besides ps = d.besides ps := by
  simp only [List.cons_subset, List.nil_subset, and_true] at hps
  simp only [Dev.openConn, ↓Dev.free_besides, ↓Dev.besides_conns, hps]

theorem Dev.cfgRead_besides (fn : Nat) (f : CfgField) (d : Dev) :
    (Dev.cfgRead fn f d).2.besides ps = d.besides ps := by
  simp only [Dev.cfgRead]
  repeat' split
  all_goals simp only [↓Dev.free_besides]

theorem Dev.scan_besides (d : Dev) (hps : [.output] ⊆ ps) :
    (Dev.scan d).besides ps = d.besides ps := by
  simp only [List.cons_subset, List.nil_subset, and_true] at hps
  simp only [Dev.scan, ↓Dev.emit_besides, ↓Dev.free_besides, List.cons_subset, List.nil_subset, and_true, hps]

theorem Dev.logDoorbell_besides (fn page slot word value : Nat) (d : Dev) (hps : [.start] ⊆ ps) :
    (Dev.logDoorbell fn page slot word value d).besides ps = d.besides ps := by
  simp only [List.cons_subset, List.nil_subset, and_true] at hps
  simp only [Dev.logDoorbell, ↓Dev.withhold_besides, ↓Dev.besides_boot, ↓Dev.besides_ite, ite_self, List.cons_subset, List.nil_subset, and_true, hps]

theorem Dev.logAer_besides (fn : Nat) (e : AerError) (d : Dev) (hps : [.functions] ⊆ ps) :
    (Dev.logAer fn e d).besides ps = d.besides ps := by
  simp only [List.cons_subset, List.nil_subset, and_true] at hps
  unfold Dev.logAer
  split <;> simp only [↓Dev.onFn_besides, ↓Dev.besides_freeCtr, ↓Dev.besides_ite, ite_self, List.cons_subset, List.nil_subset, and_true, hps]

theorem Dev.vfCardReadable_besides (fn : Nat) (d : Dev) (hps : [.functions] ⊆ ps) :
    (Dev.vfCardReadable fn d).besides ps = d.besides ps := by
  simp only [List.cons_subset, List.nil_subset, and_true] at hps
  simp only [Dev.vfCardReadable, ↓Dev.onFn_besides, List.cons_subset, List.nil_subset, and_true, hps]

theorem Dev.ltrSet_besides (fn : Nat) (on : Bool) (d : Dev) (hps : [.functions, .output] ⊆ ps) :
    (Dev.ltrSet fn on d).besides ps = d.besides ps := by
  simp only [List.cons_subset, List.nil_subset, and_true] at hps
  simp only [Dev.ltrSet, ↓Dev.emit_besides, ↓Dev.free_besides, ↓Dev.onFn_besides, ↓Dev.besides_ite, ite_self, List.cons_subset,
      List.nil_subset, and_true, hps]

theorem Dev.vfCardChanged_besides (fn : Nat) (d : Dev) (hps : [.functions] ⊆ ps) :
    (Dev.vfCardChanged fn d).besides ps = d.besides ps := by
  simp only [List.cons_subset, List.nil_subset, and_true] at hps
  simp only [Dev.vfCardChanged, ↓Dev.onFn_besides, ↓Dev.besides_ite, ite_self, List.cons_subset, List.nil_subset, and_true, hps]

theorem Dev.adoptStream_besides (x : Xfer) (n : Nat) (d : Dev) (hps : [.stream] ⊆ ps) :
    (Dev.adoptStream x n d).besides ps = d.besides ps := by
  simp only [List.cons_subset, List.nil_subset, and_true] at hps
  simp only [Dev.adoptStream, ↓Dev.onStp_besides, List.cons_subset, List.nil_subset, and_true, hps]

theorem Dev.putXfer_besides (x : Xfer) (d : Dev) (hps : [.stream] ⊆ ps) :
    (Dev.putXfer x d).besides ps = d.besides ps := by
  simp only [List.cons_subset, List.nil_subset, and_true] at hps
  simp only [Dev.putXfer, ↓Dev.onStp_besides, List.cons_subset, List.nil_subset, and_true, hps]

theorem Dev.newRing_besides (g : Ring) (d : Dev) (hps : [.rings, .shares] ⊆ ps) :
    (Dev.newRing g d).2.besides ps = d.besides ps := by
  simp only [List.cons_subset, List.nil_subset, and_true] at hps
  simp only [Dev.newRing, ↓Dev.dropNodes_besides, ↓Dev.freshBalance_besides, ↓Dev.pickIndex_besides, ↓Dev.besides_rings_groups,
      List.cons_subset, List.nil_subset, and_true, hps]

theorem Dev.setRqPsn_besides (q v : Nat) (d : Dev) (hps : [.contexts] ⊆ ps) :
    (Dev.setRqPsn q v d).besides ps = d.besides ps := by
  simp only [List.cons_subset, List.nil_subset, and_true] at hps
  simp only [Dev.setRqPsn, ↓Dev.setCtx_besides, List.cons_subset, List.nil_subset, and_true, hps]

theorem Dev.setUnaPsn_besides (q v : Nat) (d : Dev) (hps : [.contexts] ⊆ ps) :
    (Dev.setUnaPsn q v d).besides ps = d.besides ps := by
  simp only [List.cons_subset, List.nil_subset, and_true] at hps
  simp only [Dev.setUnaPsn, ↓Dev.setCtx_besides, List.cons_subset, List.nil_subset, and_true, hps]

theorem Dev.bumpCtx_besides (c off width n : Nat) (d : Dev) (hps : [.contexts] ⊆ ps) :
    (Dev.bumpCtx c off width n d).besides ps = d.besides ps := by
  simp only [List.cons_subset, List.nil_subset, and_true] at hps
  simp only [Dev.bumpCtx, ↓Dev.setCtx_besides, List.cons_subset, List.nil_subset, and_true, hps]

theorem Dev.setSqPsn_besides (q v : Nat) (d : Dev) (hps : [.contexts] ⊆ ps) :
    (Dev.setSqPsn q v d).besides ps = d.besides ps := by
  simp only [List.cons_subset, List.nil_subset, and_true] at hps
  simp only [Dev.setSqPsn, ↓Dev.setCtx_besides, List.cons_subset, List.nil_subset, and_true, hps]

theorem Dev.putCtxBit_besides (c b : Nat) (v : Bool) (d : Dev) (hps : [.contexts] ⊆ ps) :
    (Dev.putCtxBit c b v d).besides ps = d.besides ps := by
  simp only [List.cons_subset, List.nil_subset, and_true] at hps
  simp only [Dev.putCtxBit, ↓Dev.setCtx_besides, List.cons_subset, List.nil_subset, and_true, hps]

theorem Dev.replayTake_besides (c number : Nat) (d : Dev) (hps : [.contexts] ⊆ ps) :
    (Dev.replayTake c number d).besides ps = d.besides ps := by
  simp only [List.cons_subset, List.nil_subset, and_true] at hps
  simp only [Dev.replayTake, ↓Dev.setCtx_besides, ↓Dev.besides_ite, ite_self, List.cons_subset, List.nil_subset, and_true, hps]

theorem Dev.ignoreControl_besides (m : Nat) (d : Dev) (hps : [.ports] ⊆ ps) :
    (Dev.ignoreControl m d).besides ps = d.besides ps := by
  simp only [List.cons_subset, List.nil_subset, and_true] at hps
  simp only [Dev.ignoreControl, ↓Dev.countMac_besides, List.cons_subset, List.nil_subset, and_true, hps]

theorem Dev.putOnLine_besides (m : Nat) (f : Frame) (stomped : Bool) (d : Dev) (hps : [.ports, .output] ⊆ ps) :
    (Dev.putOnLine m f stomped d).besides ps = d.besides ps := by
  simp only [List.cons_subset, List.nil_subset, and_true] at hps
  simp only [Dev.putOnLine, ↓Dev.countMac_besides, ↓Dev.emit_besides, List.cons_subset, List.nil_subset, and_true, hps]

theorem Dev.enterLpi_besides (p : Nat) (d : Dev) (hps : [.ports, .retained, .registers, .output] ⊆ ps) :
    (Dev.enterLpi p d).besides ps = d.besides ps := by
  simp only [List.cons_subset, List.nil_subset, and_true] at hps
  simp only [Dev.enterLpi, ↓Dev.countMac_besides, ↓Dev.emit_besides, ↓Dev.wr_besides, ↓Dev.besides_ite, ↓Dev.besides_each, ite_self,
      List.cons_subset, List.nil_subset, and_true, implies_true, hps]

theorem Dev.readRegion_besides (a n : Nat) (d : Dev) (hps : [.stream] ⊆ ps) :
    (Dev.readRegion a n d).2.besides ps = d.besides ps := by
  simp only [List.cons_subset, List.nil_subset, and_true] at hps
  unfold Dev.readRegion
  split
  · simp only [↓Dev.onStream_besides, List.cons_subset, List.nil_subset, and_true, hps]
  · split <;> simp only

theorem Dev.putFlit_besides (f : Flit) (d : Dev) (hps : [.stream, .output] ⊆ ps) :
    (Dev.putFlit f d).besides ps = d.besides ps := by
  simp only [List.cons_subset, List.nil_subset, and_true] at hps
  simp only [Dev.putFlit, ↓Dev.emit_besides, ↓Dev.onStp_besides, ↓Dev.onStream_besides, ↓Dev.besides_ite, ite_self, List.cons_subset,
      List.nil_subset, and_true, hps]

theorem Dev.directItem_besides (it : Item) (status : Nat) (d : Dev) (hps : [.items] ⊆ ps) :
    (Dev.directItem it status d).besides ps = d.besides ps := by
  simp only [List.cons_subset, List.nil_subset, and_true] at hps
  simp only [Dev.directItem, ↓Dev.addItem_besides, List.cons_subset, List.nil_subset, and_true, hps]

theorem Dev.acceptFrame_besides (it : Item) (d : Dev) (hps : [.rings, .items, .shares, .ports] ⊆ ps) :
    (Dev.acceptFrame it d).besides ps = d.besides ps := by
  simp only [List.cons_subset, List.nil_subset, and_true] at hps
  simp only [Dev.acceptFrame, ↓Dev.addItem_besides, List.cons_subset, List.nil_subset, and_true, hps]
  split <;> simp only [↓Dev.countMac_besides, ↓Dev.onRing_besides, ↓Dev.besides_admitted_credits, List.cons_subset, List.nil_subset, and_true, hps]

theorem Dev.dmaRelease_besides (c : Nat) (d : Dev) (hps : [.links, .engines, .retained, .registers] ⊆ ps) :
    (Dev.dmaRelease c d).besides ps = d.besides ps := by
  simp only [List.cons_subset, List.nil_subset, and_true] at hps
  simp only [Dev.dmaRelease, ↓Dev.dropBursts_besides, ↓Dev.onDma_besides, ↓Dev.wr_besides, List.cons_subset, List.nil_subset, and_true, hps]

theorem Dev.recordIdle_besides (d : Dev) (hps : [.retained] ⊆ ps) :
    (Dev.recordIdle d).besides ps = d.besides ps := by
  simp only [List.cons_subset, List.nil_subset, and_true] at hps
  simp only [Dev.recordIdle, ↓Dev.beginRecord_besides, ↓Dev.besides_ite, ite_self, List.cons_subset, List.nil_subset, and_true, hps]

theorem Dev.closeRecord_besides (d : Dev) (hps : [.retained] ⊆ ps) :
    (Dev.closeRecord d).besides ps = d.besides ps := by
  simp only [List.cons_subset, List.nil_subset, and_true] at hps
  simp only [Dev.closeRecord, ↓Dev.beginRecord_besides, ↓Dev.endRecord_besides, List.cons_subset, List.nil_subset, and_true, hps]

theorem Dev.writeRegion_besides {a : Nat} {b : List Byte} {d e : Dev} (hps : [.engines, .stream] ⊆ ps)
    (h : Dev.writeRegion a b d = some e) : e.besides ps = d.besides ps := by
  simp only [List.cons_subset, List.nil_subset, and_true] at hps
  unfold Dev.writeRegion at h
  split at h
  · cases h
    simp only [↓Dev.onStream_besides, List.cons_subset, List.nil_subset, and_true, hps]
  · split at h
    · cases h
    · cases h
      simp only [↓Dev.putRegion_besides, ↓Dev.besides_each, List.cons_subset, List.nil_subset, and_true, implies_true, hps]

theorem Dev.swapSets_besides (p r : Nat) (d : Dev) (hps : [.positions, .sets, .retained] ⊆ ps) :
    (Dev.swapSets p r d).besides ps = d.besides ps := by
  simp only [List.cons_subset, List.nil_subset, and_true] at hps
  simp only [Dev.swapSets, ↓Dev.onSite_besides, ↓Dev.putSlot_besides, List.cons_subset, List.nil_subset, and_true, hps]

theorem Dev.raisePf_besides (src : Nat) (fresh : Bool) (pf : Nat) (d : Dev) (hps : [.routes] ⊆ ps) :
    (Dev.raisePf src fresh pf d).besides ps = d.besides ps := by
  simp only [List.cons_subset, List.nil_subset, and_true] at hps
  simp only [Dev.raisePf, ↓Dev.onRoute_besides, ↓Dev.besides_ite, ite_self, List.cons_subset, List.nil_subset, and_true, hps]

theorem Dev.sendLevel_besides (pf src : Nat) (d : Dev) (hps : [.routes] ⊆ ps) :
    (Dev.sendLevel pf src d).besides ps = d.besides ps := by
  simp only [List.cons_subset, List.nil_subset, and_true] at hps
  simp only [Dev.sendLevel, ↓Dev.onRoute_besides, ↓Dev.besides_ite, ite_self, List.cons_subset, List.nil_subset, and_true, hps]

theorem Dev.writeBuffers_besides (fn tag : Nat) (d : Dev) (hps : [.contexts] ⊆ ps) :
    (Dev.writeBuffers fn tag d).2.besides ps = d.besides ps := by
  simp only [List.cons_subset, List.nil_subset, and_true] at hps
  simp only [Dev.writeBuffers, ↓Dev.freeBytes_besides, ↓Dev.pickIndex_besides, ↓Dev.besides_ctxs, hps]

theorem Dev.dropCryptoStage_besides (d : Dev) (hps : [.items, .ports] ⊆ ps) :
    (Dev.dropCryptoStage d).besides ps = d.besides ps := by
  simp only [List.cons_subset, List.nil_subset, and_true] at hps
  simp only [Dev.dropCryptoStage, ↓Dev.countMac_besides, ↓Dev.dropItem_besides, ↓Dev.besides_each, List.cons_subset, List.nil_subset,
      and_true, implies_true, hps]

theorem Dev.dropDefaults_besides (img : Image) (d : Dev) (hps : [.registers] ⊆ ps) :
    (Dev.dropDefaults img d).besides ps = d.besides ps := by
  simp only [List.cons_subset, List.nil_subset, and_true] at hps
  simp only [Dev.dropDefaults]
  refine Dev.besides_each _ _ _ fun a e => ?_
  split <;> simp only [↓Dev.wrKey_besides, ↓Dev.besides_each, List.cons_subset, List.nil_subset, and_true, implies_true, hps]

theorem Dev.applyRetained_besides (c : Chosen) (d : Dev) (hps : [.positions, .time, .registers] ⊆ ps) :
    (Dev.applyRetained c d).2.besides ps = d.besides ps := by
  simp only [List.cons_subset, List.nil_subset, and_true] at hps
  simp only [Dev.applyRetained, ↓Dev.besides_setPos_cryPos_tempo, hps]
  refine Dev.besides_each _ _ _ fun a e => ?_
  split <;> simp only [↓Dev.wrKey_besides, List.cons_subset, List.nil_subset, and_true, hps]

theorem Dev.applyDefaults_besides (img : Image) (d : Dev) (hps : [.registers] ⊆ ps) :
    (Dev.applyDefaults img d).besides ps = d.besides ps := by
  simp only [List.cons_subset, List.nil_subset, and_true] at hps
  simp only [Dev.applyDefaults]
  refine Dev.besides_each _ _ _ fun a e => ?_
  split <;> simp only [↓Dev.wrKey_besides, ↓Dev.besides_each, List.cons_subset, List.nil_subset, and_true, implies_true, hps]

theorem Dev.readDomain_besides (mid k r : Nat) (d : Dev) (hps : [.time] ⊆ ps) :
    (Dev.readDomain mid k r d).2.besides ps = d.besides ps := by
  simp only [List.cons_subset, List.nil_subset, and_true] at hps
  unfold Dev.readDomain
  repeat' split
  all_goals simp only [↓Dev.latchDomain_besides, List.cons_subset, List.nil_subset, and_true, hps]

theorem Dev.debitSq_besides (fn q : Nat) (d : Dev) (hps : [.shares] ⊆ ps) :
    (Dev.debitSq fn q d).besides ps = d.besides ps := by
  simp only [List.cons_subset, List.nil_subset, and_true] at hps
  simp only [Dev.debitSq, ↓Dev.debit_besides, ↓Dev.free_besides, List.cons_subset, List.nil_subset, and_true, hps]

theorem Dev.stallRing_besides (r : Nat) (d : Dev) (hps : [.links, .rings] ⊆ ps) :
    (Dev.stallRing r d).besides ps = d.besides ps := by
  simp only [List.cons_subset, List.nil_subset, and_true] at hps
  simp only [Dev.stallRing, ↓Dev.killFetches_besides, ↓Dev.onRing_besides, List.cons_subset, List.nil_subset, and_true, hps]

theorem Dev.selectNode_besides (mid level index : Nat) (write : Bool) (d : Dev) (hps : [.shares, .retained, .registers] ⊆ ps) :
    (Dev.selectNode mid level index write d).besides ps = d.besides ps := by
  simp only [List.cons_subset, List.nil_subset, and_true] at hps
  simp only [Dev.selectNode, ↓Dev.nodeCommand_besides, ↓Dev.wr_besides, List.cons_subset, List.nil_subset, and_true, hps]

theorem Dev.pauseClass_besides (m cls time : Nat) (d : Dev) (hps : [.ports, .retained, .registers] ⊆ ps) :
    (Dev.pauseClass m cls time d).besides ps = d.besides ps := by
  simp only [List.cons_subset, List.nil_subset, and_true] at hps
  simp only [Dev.pauseClass, ↓Dev.onMac_besides, ↓Dev.setPaused_besides, ↓Dev.besides_ite, ite_self, List.cons_subset, List.nil_subset, and_true, hps]

theorem Dev.stpTrain_besides (d : Dev) (hps : [.stream, .retained, .registers] ⊆ ps) :
    (Dev.stpTrain d).besides ps = d.besides ps := by
  simp only [List.cons_subset, List.nil_subset, and_true] at hps
  simp only [Dev.stpTrain, ↓Dev.onStp_besides, ↓Dev.setStpState_besides, ↓Dev.besides_ite, ite_self, List.cons_subset, List.nil_subset, and_true, hps]

theorem Dev.useContext_besides (r : Nat) (d : Dev) (hps : [.rings, .retained, .registers] ⊆ ps) :
    (Dev.useContext r d).besides ps = d.besides ps := by
  simp only [List.cons_subset, List.nil_subset, and_true] at hps
  simp only [Dev.useContext, ↓Dev.bump_besides, ↓Dev.besides_ctxCache, ↓Dev.besides_ite, List.cons_subset, List.nil_subset, and_true, hps]
  repeat' split
  all_goals simp only [↓Dev.free_besides]

theorem Dev.resendFirst_besides (c : Nat) (d : Dev) (hps : [.retained, .registers] ⊆ ps) :
    (Dev.resendFirst c d).2.besides ps = d.besides ps := by
  simp only [List.cons_subset, List.nil_subset, and_true] at hps
  unfold Dev.resendFirst
  split <;> simp only [↓Dev.bump_besides, List.cons_subset, List.nil_subset, and_true, hps]

theorem Dev.pushFault_besides (p thread code pc : Nat) (d : Dev) (hps : [.sets, .retained, .registers] ⊆ ps) :
    (Dev.pushFault p thread code pc d).besides ps = d.besides ps := by
  simp only [List.cons_subset, List.nil_subset, and_true] at hps
  simp only [Dev.pushFault, ↓Dev.bump_besides, ↓Dev.onSite_besides, ↓Dev.besides_ite, ite_self, List.cons_subset, List.nil_subset, and_true, hps]

theorem Dev.countEspRefusal_besides (kind : Nat) (d : Dev) (hps : [.retained, .registers] ⊆ ps) :
    (Dev.countEspRefusal kind d).besides ps = d.besides ps := by
  simp only [List.cons_subset, List.nil_subset, and_true] at hps
  simp only [Dev.countEspRefusal, ↓Dev.bump_besides, ↓Dev.besides_ite, ite_self, List.cons_subset, List.nil_subset, and_true, hps]

theorem Dev.countPlan_besides (counts : List (Field × Nat)) (d : Dev) (hps : [.retained, .registers] ⊆ ps) :
    (Dev.countPlan counts d).besides ps = d.besides ps := by
  simp only [List.cons_subset, List.nil_subset, and_true] at hps
  simp only [Dev.countPlan, ↓Dev.bump_besides, ↓Dev.besides_each, List.cons_subset, List.nil_subset, and_true, implies_true, hps]

theorem Dev.countFill_besides (filled : Bool) (d : Dev) (hps : [.retained, .registers] ⊆ ps) :
    (Dev.countFill filled d).besides ps = d.besides ps := by
  simp only [List.cons_subset, List.nil_subset, and_true] at hps
  simp only [Dev.countFill, ↓Dev.bump_besides, ↓Dev.besides_ite, ite_self, List.cons_subset, List.nil_subset, and_true, hps]

theorem Dev.commitRecord_besides (d : Dev) (hps : [.retained, .registers] ⊆ ps) :
    (Dev.commitRecord d).besides ps = d.besides ps := by
  simp only [List.cons_subset, List.nil_subset, and_true] at hps
  simp only [Dev.commitRecord, ↓Dev.bump_besides, ↓Dev.endRecord_besides, ↓Dev.besides_ite, ite_self, List.cons_subset, List.nil_subset,
      and_true, hps]

theorem Dev.disarm_besides (n : Nat) (d : Dev) (hps : [.retained, .registers] ⊆ ps) :
    (Dev.disarm n d).besides ps = d.besides ps := by
  simp only [List.cons_subset, List.nil_subset, and_true] at hps
  simp only [Dev.disarm, ↓Dev.setSlotState_besides, ↓Dev.besides_ite, ite_self, List.cons_subset, List.nil_subset, and_true, hps]

theorem Dev.s44Disable_besides (fn q v : Nat) (d : Dev) (hps : [.work, .rings, .retained, .registers] ⊆ ps) :
    (Dev.s44Disable fn q v d).besides ps = d.besides ps := by
  simp only [List.cons_subset, List.nil_subset, and_true] at hps
  simp only [Dev.s44Disable, ↓Dev.addJob_besides, ↓Dev.onRing_besides, ↓Dev.s44Ctrl_besides, ↓Dev.besides_ite, ↓Dev.besides_each, ite_self,
      List.cons_subset, List.nil_subset, and_true, implies_true, hps]

theorem Dev.setHandling_besides (s h : Nat) (d : Dev) (hps : [.retained, .registers] ⊆ ps) :
    (Dev.setHandling s h d).besides ps = d.besides ps := by
  simp only [List.cons_subset, List.nil_subset, and_true] at hps
  simp only [Dev.setHandling, ↓Dev.setLogWord_besides, List.cons_subset, List.nil_subset, and_true, hps]

theorem Dev.countAbandoned_besides (fn n : Nat) (d : Dev) (hps : [.items, .retained, .registers] ⊆ ps) :
    (Dev.countAbandoned fn n d).besides ps = d.besides ps := by
  simp only [List.cons_subset, List.nil_subset, and_true] at hps
  simp only [Dev.countAbandoned, ↓Dev.countEpilogue_besides, ↓Dev.wr64_besides, ↓Dev.besides_ite, ite_self, List.cons_subset,
      List.nil_subset, and_true, hps]

theorem Dev.countTx_besides (d : Dev) (hps : [.retained, .registers] ⊆ ps) :
    (Dev.countTx d).besides ps = d.besides ps := by
  simp only [List.cons_subset, List.nil_subset, and_true] at hps
  simp only [Dev.countTx, ↓Dev.wr64_besides, List.cons_subset, List.nil_subset, and_true, hps]

theorem Dev.countRx_besides (d : Dev) (hps : [.retained, .registers] ⊆ ps) :
    (Dev.countRx d).besides ps = d.besides ps := by
  simp only [List.cons_subset, List.nil_subset, and_true] at hps
  simp only [Dev.countRx, ↓Dev.wr64_besides, List.cons_subset, List.nil_subset, and_true, hps]

theorem Dev.countIssued_besides (p : Nat) (d : Dev) (hps : [.retained, .registers] ⊆ ps) :
    (Dev.countIssued p d).besides ps = d.besides ps := by
  simp only [List.cons_subset, List.nil_subset, and_true] at hps
  simp only [Dev.countIssued, ↓Dev.wr64_besides, List.cons_subset, List.nil_subset, and_true, hps]

theorem Dev.showCur_besides (c addr remain : Nat) (d : Dev) (hps : [.retained, .registers] ⊆ ps) :
    (Dev.showCur c addr remain d).besides ps = d.besides ps := by
  simp only [List.cons_subset, List.nil_subset, and_true] at hps
  simp only [Dev.showCur, ↓Dev.wr_besides, ↓Dev.wr64_besides, List.cons_subset, List.nil_subset, and_true, hps]

theorem Dev.cryCount_besides (p n : Nat) (d : Dev) (hps : [.retained, .registers] ⊆ ps) :
    (Dev.cryCount p n d).besides ps = d.besides ps := by
  simp only [List.cons_subset, List.nil_subset, and_true] at hps
  simp only [Dev.cryCount, ↓Dev.wr64_besides, List.cons_subset, List.nil_subset, and_true, hps]

theorem Dev.noteStart_besides (n : StartNote) (d : Dev) (hps : [.retained, .registers] ⊆ ps) :
    (Dev.noteStart n d).besides ps = d.besides ps := by
  simp only [List.cons_subset, List.nil_subset, and_true] at hps
  simp only [Dev.noteStart, ↓Dev.wr_besides, ↓Dev.wr64_besides, List.cons_subset, List.nil_subset, and_true, hps]

theorem Dev.countMoved_besides (gone : List Flit) (d : Dev) (hps : [.stream, .retained, .registers] ⊆ ps) :
    (Dev.countMoved gone d).besides ps = d.besides ps := by
  simp only [List.cons_subset, List.nil_subset, and_true] at hps
  simp only [Dev.countMoved]
  refine Dev.besides_each _ _ _ fun a e => ?_
  split <;> simp only [↓Dev.onStream_besides, ↓Dev.showXfer_besides, List.cons_subset, List.nil_subset, and_true, hps]

theorem Dev.csRead_besides (p : Nat) (d : Dev) (hps : [.retained, .registers] ⊆ ps) :
    (Dev.csRead p d).besides ps = d.besides ps := by
  simp only [List.cons_subset, List.nil_subset, and_true] at hps
  simp only [Dev.csRead, ↓Dev.csStep_besides, ↓Dev.wr_besides, ↓Dev.besides_each, List.cons_subset, List.nil_subset, and_true, implies_true, hps]

theorem Dev.tick_besides (n : Nat) (d : Dev) (hps : [.shares, .time, .retained, .registers] ⊆ ps) :
    (Dev.tick n d).besides ps = d.besides ps := by
  simp only [List.cons_subset, List.nil_subset, and_true] at hps
  simp only [Dev.tick, ↓Dev.onDom_besides, ↓Dev.onSlot_besides, ↓Dev.showAge_besides, ↓Dev.showSlot_besides, ↓Dev.wr_besides,
      ↓Dev.wr64_besides, ↓Dev.besides_credits, ↓Dev.besides_each, List.cons_subset, List.nil_subset, and_true, implies_true, hps]

theorem Dev.domainsOn_besides (d : Dev) (hps : [.power, .retained, .registers] ⊆ ps) :
    (Dev.domainsOn d).besides ps = d.besides ps := by
  simp only [List.cons_subset, List.nil_subset, and_true] at hps
  simp only [Dev.domainsOn, ↓Dev.setDomain_besides, ↓Dev.besides_power, ↓Dev.besides_each, List.cons_subset, List.nil_subset, and_true,
      implies_true, hps]

theorem Dev.latchView_besides (c : Nat) (d : Dev) (hps : [.channels, .retained, .registers] ⊆ ps) :
    (Dev.latchView c d).besides ps = d.besides ps := by
  simp only [List.cons_subset, List.nil_subset, and_true] at hps
  unfold Dev.latchView
  split <;> simp only [↓Dev.onChan_besides, ↓Dev.setView_besides, List.cons_subset, List.nil_subset, and_true, hps]

theorem Dev.applyIdentity_besides (img : Image) (d : Dev) (hps : [.functions, .retained, .registers] ⊆ ps) :
    (Dev.applyIdentity img d).besides ps = d.besides ps := by
  simp only [List.cons_subset, List.nil_subset, and_true] at hps
  simp only [Dev.applyIdentity, ↓Dev.onFn_besides, ↓Dev.wrBits_besides, ↓Dev.besides_each, List.cons_subset, List.nil_subset, and_true,
      implies_true, hps]

theorem Dev.leaveWaiting_besides (i : Nat) (it : Item) (d : Dev) (hps : [.rings] ⊆ ps) :
    (Dev.leaveWaiting i it d).besides ps = d.besides ps := by
  simp only [List.cons_subset, List.nil_subset, and_true] at hps
  unfold Dev.leaveWaiting
  split <;> simp only [↓Dev.onRing_besides, ↓Dev.releaseHeld_besides, List.cons_subset, List.nil_subset, and_true, hps]

theorem Dev.joinWaiting_besides (i : Nat) (it : Item) (r : Nat) (d : Dev) (hps : [.rings, .items] ⊆ ps) :
    (Dev.joinWaiting i it r d).besides ps = d.besides ps := by
  simp only [List.cons_subset, List.nil_subset, and_true] at hps
  simp only [Dev.joinWaiting, ↓Dev.onItem_besides, ↓Dev.onRing_besides, ↓Dev.releaseHeld_besides, List.cons_subset, List.nil_subset, and_true, hps]

theorem Dev.moveHeld_besides (i : Nat) (dst : Option Nat) (d : Dev) (hps : [.rings, .items] ⊆ ps) :
    (Dev.moveHeld i dst d).besides ps = d.besides ps := by
  simp only [List.cons_subset, List.nil_subset, and_true] at hps
  unfold Dev.moveHeld
  split
  · simp only
  · split <;> simp only [↓Dev.onItem_besides, ↓Dev.onRing_besides, ↓Dev.releaseHeld_besides, List.cons_subset, List.nil_subset, and_true, hps]

theorem Dev.finishFrame_besides (f : TxFrame) (late lost : Bool) (d : Dev) (hps : [.rings] ⊆ ps) :
    (Dev.finishFrame f late lost d).besides ps = d.besides ps := by
  simp only [List.cons_subset, List.nil_subset, and_true] at hps
  unfold Dev.finishFrame
  split <;> simp only [↓Dev.readyOwed_besides, ↓Dev.besides_each, List.cons_subset, List.nil_subset, and_true, implies_true, hps]

theorem Dev.oweWork_besides (r s : Nat) (d : Dev) (hps : [.rings] ⊆ ps) :
    (Dev.oweWork r s d).besides ps = d.besides ps := by
  simp only [List.cons_subset, List.nil_subset, and_true] at hps
  simp only [Dev.oweWork, ↓Dev.oweLater_besides, List.cons_subset, List.nil_subset, and_true, hps]

theorem Dev.dmaStopOp_besides (c : Nat) (d : Dev) (hps : [.engines, .retained, .registers] ⊆ ps) :
    (Dev.dmaStopOp c d).besides ps = d.besides ps := by
  simp only [List.cons_subset, List.nil_subset, and_true] at hps
  simp only [Dev.dmaStopOp, ↓Dev.dmaPause_besides, ↓Dev.onDma_besides, ↓Dev.besides_ite, ite_self, List.cons_subset, List.nil_subset, and_true, hps]

theorem Dev.setReg_besides (p t n : Nat) (v : Word64) (d : Dev) (hps : [.sets] ⊆ ps) :
    (Dev.setReg p t n v d).besides ps = d.besides ps := by
  simp only [List.cons_subset, List.nil_subset, and_true] at hps
  simp only [Dev.setReg, ↓Dev.onThread_besides, List.cons_subset, List.nil_subset, and_true, hps]

theorem Dev.putFlag_besides (p t : Nat) (up : Bool) (w : Microword) (_th : Thread) (d : Dev) (hps : [.sets] ⊆ ps) :
    (Dev.putFlag p t up w _th d).besides ps = d.besides ps := by
  simp only [List.cons_subset, List.nil_subset, and_true] at hps
  simp only [Dev.putFlag, ↓Dev.onSite_besides, ↓Dev.onThread_besides, ↓Dev.besides_ite, ite_self, List.cons_subset, List.nil_subset, and_true, hps]

theorem Dev.request_besides (p t kind dst : Nat) (answer : Word64) (writes : Bool) (d : Dev) (hps : [.sets] ⊆ ps) :
    (Dev.request p t kind dst answer writes d).besides ps = d.besides ps := by
  simp only [List.cons_subset, List.nil_subset, and_true] at hps
  simp only [Dev.request, ↓Dev.onThread_besides, List.cons_subset, List.nil_subset, and_true, hps]

theorem Dev.makeReady_besides (p t : Nat) (f : Thread → Thread) (d : Dev) (hps : [.sets] ⊆ ps) :
    (Dev.makeReady p t f d).besides ps = d.besides ps := by
  simp only [List.cons_subset, List.nil_subset, and_true] at hps
  simp only [Dev.makeReady, ↓Dev.onSite_besides, ↓Dev.onThread_besides, ↓Dev.besides_ite, ite_self, List.cons_subset, List.nil_subset, and_true, hps]

theorem Dev.addEdit_besides (th : Thread) (e : Edit) (d : Dev) (hps : [.items] ⊆ ps) :
    (Dev.addEdit th e d).besides ps = d.besides ps := by
  simp only [List.cons_subset, List.nil_subset, and_true] at hps
  unfold Dev.addEdit
  split
  · split <;> simp only [↓Dev.onItem_besides, ↓Dev.readTemplate_besides, List.cons_subset, List.nil_subset, and_true, hps]
  · simp only

theorem Dev.holdTemplate_besides (i : Nat) (d : Dev) (hps : [.items] ⊆ ps) :
    (Dev.holdTemplate i d).besides ps = d.besides ps := by
  simp only [List.cons_subset, List.nil_subset, and_true] at hps
  unfold Dev.holdTemplate
  split
  · split <;> simp only [↓Dev.readTemplate_besides, ↓Dev.besides_ite, ite_self, List.cons_subset, List.nil_subset, and_true, hps]
  · simp only

theorem Dev.assignJobs_besides (d : Dev) (hps : [.items] ⊆ ps) :
    (Dev.assignJobs d).besides ps = d.besides ps := by
  simp only [List.cons_subset, List.nil_subset, and_true] at hps
  simp only [Dev.assignJobs, ↓Dev.startJobs_besides, List.cons_subset, List.nil_subset, and_true, hps]
  refine Dev.besides_each _ _ _ fun a e => ?_
  split <;> simp only [↓Dev.onItem_besides, List.cons_subset, List.nil_subset, and_true, hps]

theorem Dev.redeliverItem_besides (p : Nat) (taken : Bool) (i : Nat) (d : Dev) (hps : [.items, .sets] ⊆ ps) :
    (Dev.redeliverItem p taken i d).besides ps = d.besides ps := by
  simp only [List.cons_subset, List.nil_subset, and_true] at hps
  unfold Dev.redeliverItem
  repeat' split
  all_goals simp only [↓Dev.deliverItem_besides, List.cons_subset, List.nil_subset, and_true, hps]

theorem Dev.dispatchItem_besides (i : Nat) (d : Dev) (hps : [.items, .sets] ⊆ ps) :
    (Dev.dispatchItem i d).besides ps = d.besides ps := by
  simp only [List.cons_subset, List.nil_subset, and_true] at hps
  unfold Dev.dispatchItem
  repeat' split
  all_goals simp only [↓Dev.deliverItem_besides, List.cons_subset, List.nil_subset, and_true, hps]

theorem Dev.macWritten_besides (off : Nat) (d : Dev) (hps : [.retained, .registers, .output] ⊆ ps) :
    (Dev.macWritten off d).besides ps = d.besides ps := by
  simp only [List.cons_subset, List.nil_subset, and_true] at hps
  simp only [Dev.macWritten, ↓Dev.setPaused_besides, ↓Dev.wakeLpi_besides, ↓Dev.wr_besides, ↓Dev.besides_ite, ↓Dev.besides_each, ite_self,
      List.cons_subset, List.nil_subset, and_true, implies_true, hps]

theorem Dev.wakeMac_besides (m : Nat) (d : Dev) (hps : [.retained, .registers, .output] ⊆ ps) :
    (Dev.wakeMac m d).besides ps = d.besides ps := by
  simp only [List.cons_subset, List.nil_subset, and_true] at hps
  unfold Dev.wakeMac
  split <;> simp only [↓Dev.wakeLpi_besides, List.cons_subset, List.nil_subset, and_true, hps]

theorem Dev.pulseEnd_besides (n : Nat) (d : Dev) (hps : [.time, .output] ⊆ ps) :
    (Dev.pulseEnd n d).besides ps = d.besides ps := by
  simp only [List.cons_subset, List.nil_subset, and_true] at hps
  simp only [Dev.pulseEnd, ↓Dev.drivePin_besides, ↓Dev.onSlot_besides, ↓Dev.besides_ite, ite_self, List.cons_subset, List.nil_subset, and_true, hps]

theorem Dev.closeBoost_besides (d : Dev) (hps : [.power, .retained, .registers, .output] ⊆ ps) :
    (Dev.closeBoost d).besides ps = d.besides ps := by
  simp only [List.cons_subset, List.nil_subset, and_true] at hps
  simp only [Dev.closeBoost, ↓Dev.onPower_besides, ↓Dev.requestVdd_besides, ↓Dev.wr_besides, ↓Dev.besides_ite, ite_self, List.cons_subset,
      List.nil_subset, and_true, hps]

theorem Dev.floorJump_besides (d : Dev) (hps : [.retained, .registers, .output] ⊆ ps) :
    (Dev.floorJump d).besides ps = d.besides ps := by
  simp only [List.cons_subset, List.nil_subset, and_true] at hps
  simp only [Dev.floorJump, ↓Dev.requestVdd_besides, ↓Dev.besides_ite, ite_self, List.cons_subset, List.nil_subset, and_true, hps]

theorem Dev.releaseVector_besides (d : Dev) (fn v : Nat) (hps : [.links, .functions, .output] ⊆ ps) :
    (Dev.releaseVector d fn v).besides ps = d.besides ps := by
  simp only [List.cons_subset, List.nil_subset, and_true] at hps
  simp only [Dev.releaseVector, ↓Dev.onFn_besides, ↓Dev.sendMessage_besides, ↓Dev.besides_ite, ite_self, List.cons_subset, List.nil_subset,
      and_true, hps]

theorem Dev.sendVector_besides (d : Dev) (fn v : Nat) (hps : [.links, .functions, .output] ⊆ ps) :
    (Dev.sendVector d fn v).besides ps = d.besides ps := by
  simp only [List.cons_subset, List.nil_subset, and_true] at hps
  simp only [Dev.sendVector, ↓Dev.onFn_besides, ↓Dev.sendMessage_besides, ↓Dev.besides_ite, ite_self, List.cons_subset, List.nil_subset,
      and_true, hps]

theorem Dev.issueHeld_besides (link : Nat) (d : Dev) (hps : [.links, .output] ⊆ ps) :
    (Dev.issueHeld link d).besides ps = d.besides ps := by
  simp only [List.cons_subset, List.nil_subset, and_true] at hps
  simp only [Dev.issueHeld]
  repeat' split
  all_goals simp only [↓Dev.emit_besides, ↓Dev.onLink_besides, ↓Dev.queueTranslation_besides, List.cons_subset, List.nil_subset, and_true, hps]

theorem Dev.mtbStageOp_besides (p n : Nat) (d : Dev) (hps : [.tables] ⊆ ps) :
    (Dev.mtbStageOp p n d).2.besides ps = d.besides ps := by
  simp only [List.cons_subset, List.nil_subset, and_true] at hps
  unfold Dev.mtbStageOp
  split <;> simp only [↓Dev.setStage_besides, List.cons_subset, List.nil_subset, and_true, hps]

theorem Dev.ternaryGet_besides (p : Nat) (d : Dev) (hps : [.tables] ⊆ ps) :
    (Dev.ternaryGet p d).2.besides ps = d.besides ps := by
  simp only [List.cons_subset, List.nil_subset, and_true] at hps
  unfold Dev.ternaryGet
  split <;> simp only [↓Dev.setStage_besides, List.cons_subset, List.nil_subset, and_true, hps]

theorem Dev.mtbDirectGet_besides (p t : Nat) (d : Dev) (hps : [.tables] ⊆ ps) :
    (Dev.mtbDirectGet p t d).2.besides ps = d.besides ps := by
  simp only [List.cons_subset, List.nil_subset, and_true] at hps
  unfold Dev.mtbDirectGet
  split
  · simp only
  · split <;> simp only [↓Dev.setStage_besides, List.cons_subset, List.nil_subset, and_true, hps]

theorem Dev.carryOut_besides (t : Nat) (e : MtbEntry) (p : MtbPlan) (d : Dev) (hps : [.tables] ⊆ ps) :
    (Dev.carryOut t e p d).besides ps = d.besides ps := by
  simp only [List.cons_subset, List.nil_subset, and_true] at hps
  simp only [Dev.carryOut, ↓Dev.setCuckoo_besides, ↓Dev.besides_ite, ite_self, List.cons_subset, List.nil_subset, and_true, hps]

theorem Dev.dropSources_besides (fn : Nat) (d : Dev) (hps : [.tables] ⊆ ps) :
    (Dev.dropSources fn d).besides ps = d.besides ps := by
  simp only [List.cons_subset, List.nil_subset, and_true] at hps
  simp only [Dev.dropSources, ↓Dev.setCuckoo_besides, ↓Dev.besides_each, List.cons_subset, List.nil_subset, and_true, implies_true, hps]

theorem Dev.stampHit_besides (t i : Nat) (d : Dev) (hps : [.tables] ⊆ ps) :
    (Dev.stampHit t i d).besides ps = d.besides ps := by
  simp only [List.cons_subset, List.nil_subset, and_true] at hps
  simp only [Dev.stampHit, ↓Dev.setCuckoo_besides, ↓Dev.besides_ite, ite_self, List.cons_subset, List.nil_subset, and_true, hps]

theorem Dev.popCompare_besides (d : Dev) (hps : [.tables] ⊆ ps) :
    (Dev.popCompare d).2.besides ps = d.besides ps := by
  simp only [List.cons_subset, List.nil_subset, and_true] at hps
  unfold Dev.popCompare
  split <;> simp only [↓Dev.onCompare_besides, List.cons_subset, List.nil_subset, and_true, hps]

theorem Dev.mtbDirectPut_besides (p t : Nat) (d : Dev) (hps : [.tables] ⊆ ps) :
    (Dev.mtbDirectPut p t d).2.besides ps = d.besides ps := by
  simp only [List.cons_subset, List.nil_subset, and_true] at hps
  unfold Dev.mtbDirectPut
  split <;> simp only [↓Dev.clearStage_besides, ↓Dev.onMtb_besides, ↓Dev.besides_ite, ite_self, List.cons_subset, List.nil_subset, and_true, hps]

theorem Dev.ternaryPut_besides (p : Nat) (d : Dev) (hps : [.tables] ⊆ ps) :
    (Dev.ternaryPut p d).2.besides ps = d.besides ps := by
  simp only [List.cons_subset, List.nil_subset, and_true] at hps
  unfold Dev.ternaryPut
  split <;> simp only [↓Dev.clearStage_besides, ↓Dev.onMtb_besides, List.cons_subset, List.nil_subset, and_true, hps]

theorem Dev.putEntries_besides {t first : Nat} {b : List Byte} {n : Nat} {d e : Dev} (hps : [.tables] ⊆ ps)
    (h : Dev.putEntries t first b n d = some e) : e.besides ps = d.besides ps := by
  simp only [List.cons_subset, List.nil_subset, and_true] at hps
  induction n generalizing first b d with
  | zero => cases h; rfl
  | succ n ih =>
    unfold Dev.putEntries at h
    dsimp only at h
    split at h
    · cases h; rfl
    · split at h
      · cases h
      · exact (ih h).trans (by simp only [↓Dev.onMtb_besides, ↓Dev.onMtb_besides, List.cons_subset, List.nil_subset, and_true, hps])

theorem Dev.alu_besides (p t f : Nat) (w : Microword) (th : Thread) (d : Dev) (hps : [.sets] ⊆ ps) :
    (Dev.alu p t f w th d).besides ps = d.besides ps := by
  simp only [List.cons_subset, List.nil_subset, and_true] at hps
  simp only [Dev.alu, ↓Dev.flagOr_besides, ↓Dev.onThread_besides, List.cons_subset, List.nil_subset, and_true, hps]

theorem Dev.nvmeEnable_besides (fn : Nat) (d : Dev) (hps : [.shares, .storage, .retained, .registers] ⊆ ps) :
    (Dev.nvmeEnable fn d).besides ps = d.besides ps := by
  simp only [List.cons_subset, List.nil_subset, and_true] at hps
  simp only [Dev.nvmeEnable, ↓Dev.countControllers_besides, ↓Dev.freshBalance_besides, ↓Dev.onNvme_besides, ↓Dev.openConn_besides,
      ↓Dev.besides_ite, ↓Dev.besides_each, ite_self, List.cons_subset, List.nil_subset, and_true, implies_true, hps]

theorem Dev.reportAer_besides (link fn : Nat) (e : AerError) (d : Dev) (hps : [.functions, .output] ⊆ ps) :
    (Dev.reportAer link fn e d).besides ps = d.besides ps := by
  simp only [List.cons_subset, List.nil_subset, and_true] at hps
  simp only [Dev.reportAer, ↓Dev.emit_besides, ↓Dev.logAer_besides, ↓Dev.besides_ite, ite_self, List.cons_subset, List.nil_subset, and_true, hps]

theorem Dev.releaseFn_besides (fn : Nat) (d : Dev) (hps : [.functions, .rings, .shares, .contexts, .storage, .retained, .registers] ⊆ ps) :
    (Dev.releaseFn fn d).besides ps = d.besides ps := by
  simp only [List.cons_subset, List.nil_subset, and_true] at hps
  simp only [Dev.releaseFn, ↓Dev.countControllers_besides, ↓Dev.dropNodes_besides, ↓Dev.vfCardChanged_besides, ↓Dev.besides_ownedByFn,
      ↓Dev.besides_ite, ite_self, List.cons_subset, List.nil_subset, and_true, hps]

theorem Dev.newGroup_besides (fn : Nat) (d : Dev) (hps : [.functions, .rings, .shares] ⊆ ps) :
    (Dev.newGroup fn d).2.besides ps = d.besides ps := by
  simp only [List.cons_subset, List.nil_subset, and_true] at hps
  simp only [Dev.newGroup, ↓Dev.dropNodes_besides, ↓Dev.pickIndex_besides, ↓Dev.vfCardChanged_besides, ↓Dev.besides_groups,
      List.cons_subset, List.nil_subset, and_true, hps]

theorem Dev.s44Enable_besides (fn q v : Nat) (d : Dev) (hps : [.rings, .shares, .retained, .registers] ⊆ ps) :
    (Dev.s44Enable fn q v d).besides ps = d.besides ps := by
  simp only [List.cons_subset, List.nil_subset, and_true] at hps
  simp only [Dev.s44Enable, ↓Dev.besides_ite]
  repeat' split
  all_goals simp only [↓Dev.newRing_besides, ↓Dev.s44Ctrl_besides, ↓Dev.wr_besides, List.cons_subset, List.nil_subset, and_true, hps]

theorem Dev.placed_besides (q n : Nat) (ask endsMessage : Bool) (d : Dev) (hps : [.contexts, .storage] ⊆ ps) :
    (Dev.placed q n ask endsMessage d).2.besides ps = d.besides ps := by
  simp only [List.cons_subset, List.nil_subset, and_true] at hps
  simp only [Dev.placed]
  repeat' split
  all_goals simp only [↓Dev.onQp_besides, ↓Dev.setRqPsn_besides, List.cons_subset, List.nil_subset, and_true, hps]

theorem Dev.countQp_besides (q n : Nat) (k : Nat) (d : Dev) (hps : [.contexts] ⊆ ps) :
    (Dev.countQp q n k d).besides ps = d.besides ps := by
  simp only [List.cons_subset, List.nil_subset, and_true] at hps
  simp only [Dev.countQp, ↓Dev.bumpCtx_besides, List.cons_subset, List.nil_subset, and_true, hps]

theorem Dev.espJob_besides (c : Nat) (i : Ip) (f : Frame) (v d : Dev) (hps : [.contexts] ⊆ ps) :
    (Dev.espJob c i f v d).2.besides ps = d.besides ps := by
  simp only [List.cons_subset, List.nil_subset, and_true] at hps
  simp only [Dev.espJob]
  repeat' split
  all_goals simp only [↓Dev.bumpCtx_besides, ↓Dev.replayTake_besides, List.cons_subset, List.nil_subset, and_true, hps]

theorem Dev.takeDescriptor_besides (r want : Nat) (d : Dev) (hps : [.rings, .items] ⊆ ps) :
    (Dev.takeDescriptor r want d).besides ps = d.besides ps := by
  simp only [List.cons_subset, List.nil_subset, and_true] at hps
  unfold Dev.takeDescriptor
  split
  · simp only
  · split <;> simp only [↓Dev.addItem_besides, ↓Dev.directItem_besides, ↓Dev.onRing_besides, ↓Dev.besides_ite, ite_self, List.cons_subset,
        List.nil_subset, and_true, hps]

theorem Dev.raise_besides (d : Dev) (src : Nat) (fresh : Bool) (hps : [.routes, .output] ⊆ ps) :
    (Dev.raise d src fresh).besides ps = d.besides ps := by
  simp only [List.cons_subset, List.nil_subset, and_true] at hps
  simp only [Dev.raise, ↓Dev.emit_besides, ↓Dev.raisePf_besides, ↓Dev.besides_ite, ↓Dev.besides_each, ite_self, List.cons_subset,
      List.nil_subset, and_true, implies_true, hps]

theorem Dev.endOfInterrupt_besides (pf src : Nat) (d : Dev) (hps : [.routes] ⊆ ps) :
    (Dev.endOfInterrupt pf src d).besides ps = d.besides ps := by
  simp only [List.cons_subset, List.nil_subset, and_true] at hps
  simp only [Dev.endOfInterrupt, ↓Dev.onRoute_besides, ↓Dev.sendLevel_besides, ↓Dev.besides_ite, ite_self, List.cons_subset,
      List.nil_subset, and_true, hps]

theorem Dev.stormMs_besides (d : Dev) (hps : [.routes] ⊆ ps) :
    (Dev.stormMs d).besides ps = d.besides ps := by
  simp only [List.cons_subset, List.nil_subset, and_true] at hps
  simp only [Dev.stormMs, ↓Dev.sendLevel_besides, ↓Dev.besides_routes, ↓Dev.besides_each, List.cons_subset, List.nil_subset, and_true,
      implies_true, hps]

theorem Dev.writeRoute_besides (pf src v : Nat) (d : Dev) (hps : [.routes, .retained, .registers] ⊆ ps) :
    (Dev.writeRoute pf src v d).besides ps = d.besides ps := by
  simp only [List.cons_subset, List.nil_subset, and_true] at hps
  simp only [Dev.writeRoute, ↓Dev.onRoute_besides, ↓Dev.sendLevel_besides, ↓Dev.wr_besides, ↓Dev.besides_ite, ite_self, List.cons_subset,
      List.nil_subset, and_true, hps]

theorem Dev.vfTempo_besides (fn off : Nat) (d : Dev) (hps : [.time] ⊆ ps) :
    (Dev.vfTempo fn off d).2.besides ps = d.besides ps := by
  simp only [List.cons_subset, List.nil_subset, and_true] at hps
  unfold Dev.vfTempo
  repeat' split
  all_goals simp only [↓Dev.readDomain_besides, List.cons_subset, List.nil_subset, and_true, hps]

theorem Dev.rxPause_besides (m time : Nat) (d : Dev) (hps : [.ports, .retained, .registers] ⊆ ps) :
    (Dev.rxPause m time d).besides ps = d.besides ps := by
  simp only [List.cons_subset, List.nil_subset, and_true] at hps
  simp only [Dev.rxPause, ↓Dev.countMac_besides, ↓Dev.ignoreControl_besides, ↓Dev.pauseClass_besides, ↓Dev.besides_ite, ↓Dev.besides_each,
      ite_self, List.cons_subset, List.nil_subset, and_true, implies_true, hps]

theorem Dev.rxPfc_besides (m enabled : Nat) (times : List Nat) (d : Dev) (hps : [.ports, .retained, .registers] ⊆ ps) :
    (Dev.rxPfc m enabled times d).besides ps = d.besides ps := by
  simp only [List.cons_subset, List.nil_subset, and_true] at hps
  simp only [Dev.rxPfc, ↓Dev.countMac_besides, ↓Dev.ignoreControl_besides, ↓Dev.pauseClass_besides, ↓Dev.besides_ite, ↓Dev.besides_each,
      ite_self, List.cons_subset, List.nil_subset, and_true, implies_true, hps]

theorem Dev.accept_besides (r : Nat) (bytes : List Byte) (d : Dev) (hps : [.rings, .shares, .storage, .retained, .registers] ⊆ ps) :
    (Dev.accept r bytes d).besides ps = d.besides ps := by
  simp only [List.cons_subset, List.nil_subset, and_true] at hps
  simp only [Dev.accept]
  split <;> simp only [↓Dev.debit_besides, ↓Dev.noteSendRing_besides, ↓Dev.onRing_besides, ↓Dev.useContext_besides, ↓Dev.besides_ite,
      ite_self, List.cons_subset, List.nil_subset, and_true, hps]

theorem Dev.tcpAcked_besides (c ack window len : Nat) (d : Dev) (hps : [.storage, .retained, .registers] ⊆ ps) :
    (Dev.tcpAcked c ack window len d).2.besides ps = d.besides ps := by
  simp only [List.cons_subset, List.nil_subset, and_true] at hps
  simp only [Dev.tcpAcked]
  repeat' split
  all_goals simp only [↓Dev.onConn_besides, ↓Dev.resendFirst_besides, List.cons_subset, List.nil_subset, and_true, hps]

theorem Dev.lookupDirect_besides (t i : Nat) (d : Dev) (hps : [.tables, .retained, .registers] ⊆ ps) :
    (Dev.lookupDirect t i d).2.besides ps = d.besides ps := by
  simp only [List.cons_subset, List.nil_subset, and_true] at hps
  unfold Dev.lookupDirect
  split <;> simp only [↓Dev.countFill_besides, ↓Dev.touchLine_besides, List.cons_subset, List.nil_subset, and_true, hps]

theorem Dev.coresGoOn_besides (d : Dev) (hps : [.retained, .registers] ⊆ ps) :
    (Dev.coresGoOn d).besides ps = d.besides ps := by
  simp only [List.cons_subset, List.nil_subset, and_true] at hps
  simp only [Dev.coresGoOn, ↓Dev.setHandling_besides, ↓Dev.besides_each, List.cons_subset, List.nil_subset, and_true, implies_true, hps]

theorem Dev.handleSeq_besides (seq h : Nat) (d : Dev) (hps : [.retained, .registers] ⊆ ps) :
    (Dev.handleSeq seq h d).besides ps = d.besides ps := by
  simp only [List.cons_subset, List.nil_subset, and_true] at hps
  unfold Dev.handleSeq
  split <;> simp only [↓Dev.setHandling_besides, List.cons_subset, List.nil_subset, and_true, hps]

theorem Dev.supersedeRecords_besides (d : Dev) (hps : [.retained, .registers] ⊆ ps) :
    (Dev.supersedeRecords d).besides ps = d.besides ps := by
  simp only [List.cons_subset, List.nil_subset, and_true] at hps
  simp only [Dev.supersedeRecords, ↓Dev.setHandling_besides, ↓Dev.besides_each, List.cons_subset, List.nil_subset, and_true, implies_true, hps]

theorem Dev.emptyRing_besides (r : Nat) (d : Dev) (hps : [.rings, .items, .retained, .registers] ⊆ ps) :
    (Dev.emptyRing r d).besides ps = d.besides ps := by
  simp only [List.cons_subset, List.nil_subset, and_true] at hps
  unfold Dev.emptyRing
  split <;> simp only [↓Dev.countAbandoned_besides, ↓Dev.onRing_besides, List.cons_subset, List.nil_subset, and_true, hps]

theorem Dev.emptyNvme_besides (fn : Nat) (d : Dev) (hps : [.items, .storage, .retained, .registers] ⊆ ps) :
    (Dev.emptyNvme fn d).besides ps = d.besides ps := by
  simp only [List.cons_subset, List.nil_subset, and_true] at hps
  simp only [Dev.emptyNvme, ↓Dev.countAbandoned_besides, ↓Dev.onNvme_besides, ↓Dev.besides_ite, ite_self, List.cons_subset,
      List.nil_subset, and_true, hps]

theorem Dev.sendFlit_besides (f : Flit) (d : Dev) (hps : [.stream, .retained, .registers, .output] ⊆ ps) :
    (Dev.sendFlit f d).besides ps = d.besides ps := by
  simp only [List.cons_subset, List.nil_subset, and_true] at hps
  simp only [Dev.sendFlit, ↓Dev.countTx_besides, ↓Dev.onStp_besides, ↓Dev.putFlit_besides, List.cons_subset, List.nil_subset, and_true, hps]

theorem Dev.dmaServiceReset_besides (d : Dev) (hps : [.engines, .retained, .registers] ⊆ ps) :
    (Dev.dmaServiceReset d).besides ps = d.besides ps := by
  simp only [List.cons_subset, List.nil_subset, and_true] at hps
  simp only [Dev.dmaServiceReset, ↓Dev.showCur_besides, ↓Dev.wr_besides, ↓Dev.besides_dma, ↓Dev.besides_each, List.cons_subset,
      List.nil_subset, and_true, implies_true, hps]

theorem Dev.cryJob_besides (n : Nat) (d : Dev) (hps : [.retained, .registers] ⊆ ps) :
    (Dev.cryJob n d).besides ps = d.besides ps := by
  simp only [List.cons_subset, List.nil_subset, and_true] at hps
  unfold Dev.cryJob
  split <;> simp only [↓Dev.cryCount_besides, List.cons_subset, List.nil_subset, and_true, hps]

theorem Dev.applySections_besides (img : Image) (d : Dev) (hps : [.start, .functions, .sets, .retained, .registers] ⊆ ps) :
    (Dev.applySections img d).besides ps = d.besides ps := by
  simp only [List.cons_subset, List.nil_subset, and_true] at hps
  simp only [Dev.applySections, ↓Dev.applyDefaults_besides, ↓Dev.applyIdentity_besides, ↓Dev.applyLinks_besides, ↓Dev.applyPorts_besides,
      ↓Dev.applySchema_besides, ↓Dev.loadStore_besides, ↓Dev.besides_boot, ↓Dev.besides_each, List.cons_subset, List.nil_subset, and_true,
      implies_true, hps]

theorem Dev.restartItem_besides (i : Nat) (it : Item) (d : Dev) (hps : [.links, .rings, .items] ⊆ ps) :
    (Dev.restartItem i it d).besides ps = d.besides ps := by
  simp only [List.cons_subset, List.nil_subset, and_true] at hps
  simp only [Dev.restartItem, ↓Dev.onItem_besides, List.cons_subset, List.nil_subset, and_true, hps]
  split <;> simp only [↓Dev.forgetReads_besides, ↓Dev.leaveWaiting_besides, ↓Dev.onRing_besides, List.cons_subset, List.nil_subset, and_true, hps]

theorem Dev.turnSwitched_besides (fn : Nat) (d : Dev) (hps : [.rings, .items] ⊆ ps) :
    (Dev.turnSwitched fn d).besides ps = d.besides ps := by
  simp only [List.cons_subset, List.nil_subset, and_true] at hps
  simp only [Dev.turnSwitched, ↓Dev.leaveWaiting_besides, ↓Dev.onItem_besides, ↓Dev.besides_each, List.cons_subset, List.nil_subset,
      and_true, implies_true, hps]

theorem Dev.squash_besides (i : Nat) (d : Dev) (hps : [.rings, .items, .retained, .registers] ⊆ ps) :
    (Dev.squash i d).besides ps = d.besides ps := by
  simp only [List.cons_subset, List.nil_subset, and_true] at hps
  unfold Dev.squash
  split <;> simp only [↓Dev.countAbandoned_besides, ↓Dev.dropItem_besides, ↓Dev.leaveWaiting_besides, ↓Dev.besides_ite, ite_self,
      List.cons_subset, List.nil_subset, and_true, hps]

theorem Dev.redirectRx_besides (i : Nat) (dest : Dest) (d : Dev) (hps : [.rings, .items] ⊆ ps) :
    (Dev.redirectRx i dest d).besides ps = d.besides ps := by
  simp only [List.cons_subset, List.nil_subset, and_true] at hps
  unfold Dev.redirectRx
  split <;> simp only [↓Dev.moveHeld_besides, ↓Dev.onItem_besides, List.cons_subset, List.nil_subset, and_true, hps]

theorem Dev.takeRecv_besides (q : Nat) (d : Dev) (hps : [.rings, .storage] ⊆ ps) :
    (Dev.takeRecv q d).2.besides ps = d.besides ps := by
  simp only [List.cons_subset, List.nil_subset, and_true] at hps
  simp only [Dev.takeRecv]
  repeat' split
  all_goals simp only [↓Dev.onQp_besides, ↓Dev.onRing_besides, ↓Dev.oweWork_besides, List.cons_subset, List.nil_subset, and_true, hps]

theorem Dev.shift_besides (p t f : Nat) (w : Microword) (th : Thread) (d : Dev) (hps : [.sets] ⊆ ps) :
    (Dev.shift p t f w th d).besides ps = d.besides ps := by
  simp only [List.cons_subset, List.nil_subset, and_true] at hps
  unfold Dev.shift
  split <;> simp only [↓Dev.free_besides, ↓Dev.setReg_besides, List.cons_subset, List.nil_subset, and_true, hps]

theorem Dev.assist_besides (p t kind : Nat) (act : Nat → Item → Dev → Dev) (answer : Option Word64) (w : Microword) (th : Thread)
    (d : Dev) (hps : [.sets] ⊆ ps) (hact : ∀ a b e, (act a b e).besides ps = e.besides ps) :
    (Dev.assist p t kind act answer w th d).besides ps = d.besides ps := by
  simp only [List.cons_subset, List.nil_subset, and_true] at hps
  simp only [Dev.assist]
  repeat' split
  all_goals simp only [↓Dev.request_besides, List.cons_subset, List.nil_subset, and_true, hps, hact]

theorem Dev.startPass_besides (p t : Nat) (d : Dev) (hps : [.items, .sets] ⊆ ps) :
    (Dev.startPass p t d).besides ps = d.besides ps := by
  simp only [List.cons_subset, List.nil_subset, and_true] at hps
  unfold Dev.startPass
  split <;> simp only [↓Dev.makeReady_besides, ↓Dev.onItem_besides, ↓Dev.onSite_besides, ↓Dev.besides_ite, ite_self, List.cons_subset,
      List.nil_subset, and_true, hps]

theorem Dev.sendControl_besides (m cls time : Nat) (d : Dev) (hps : [.ports, .retained, .registers, .output] ⊆ ps) :
    (Dev.sendControl m cls time d).besides ps = d.besides ps := by
  simp only [List.cons_subset, List.nil_subset, and_true] at hps
  simp only [Dev.sendControl, ↓Dev.countMac_besides, ↓Dev.putOnLine_besides, ↓Dev.wakeMac_besides, ↓Dev.besides_ite, ite_self,
      List.cons_subset, List.nil_subset, and_true, hps]

theorem Dev.trip_besides (d : Dev) (hps : [.start, .power, .links, .rings, .items, .storage, .retained, .registers, .output] ⊆ ps) :
    (Dev.trip d).besides ps = d.besides ps := by
  simp only [List.cons_subset, List.nil_subset, and_true] at hps
  simp only [Dev.trip, ↓Dev.closeBoost_besides, ↓Dev.emit_besides, ↓Dev.loseWork_besides, ↓Dev.requestVdd_besides,
      ↓Dev.besides_phase_power, ↓Dev.besides_ite, ite_self, List.cons_subset, List.nil_subset, and_true, hps]

theorem Dev.checkBoost_besides (d : Dev) (hps : [.power, .retained, .registers, .output] ⊆ ps) :
    (Dev.checkBoost d).besides ps = d.besides ps := by
  simp only [List.cons_subset, List.nil_subset, and_true] at hps
  simp only [Dev.checkBoost, ↓Dev.closeBoost_besides, ↓Dev.besides_ite, ite_self, List.cons_subset, List.nil_subset, and_true, hps]

theorem Dev.writeVector_besides (fn off v : Nat) (d : Dev) (hps : [.links, .functions, .output] ⊆ ps) :
    (Dev.writeVector fn off v d).besides ps = d.besides ps := by
  simp only [List.cons_subset, List.nil_subset, and_true] at hps
  simp only [Dev.writeVector, ↓Dev.onFn_besides, ↓Dev.releaseVector_besides, ↓Dev.besides_ite, ite_self, List.cons_subset, List.nil_subset,
      and_true, hps]

theorem Dev.releaseVectors_besides (fn : Nat) (d : Dev) (hps : [.links, .functions, .output] ⊆ ps) :
    (Dev.releaseVectors fn d).besides ps = d.besides ps := by
  simp only [List.cons_subset, List.nil_subset, and_true] at hps
  simp only [Dev.releaseVectors, ↓Dev.releaseVector_besides, ↓Dev.besides_each, List.cons_subset, List.nil_subset, and_true, implies_true, hps]

theorem Dev.issue_besides (pf src : Nat) (d : Dev) (hps : [.links, .functions, .routes, .retained, .registers, .output] ⊆ ps) :
    (Dev.issue pf src d).besides ps = d.besides ps := by
  simp only [List.cons_subset, List.nil_subset, and_true] at hps
  simp only [Dev.issue, ↓Dev.bump_besides, ↓Dev.onRoute_besides, ↓Dev.sendVector_besides, ↓Dev.wr_besides, ↓Dev.besides_ite, ite_self,
      List.cons_subset, List.nil_subset, and_true, hps]

theorem Dev.acknowledge_besides (c code seq : Nat) (d : Dev) (hps : [.links, .functions, .stream, .retained, .registers, .output] ⊆ ps) :
    (Dev.acknowledge c code seq d).besides ps = d.besides ps := by
  simp only [List.cons_subset, List.nil_subset, and_true] at hps
  simp only [Dev.acknowledge]
  repeat' split
  all_goals simp only [↓Dev.sendVector_besides, ↓Dev.wr_besides, ↓Dev.besides_stp, List.cons_subset, List.nil_subset, and_true, hps]

theorem Dev.checkIrq_besides (r : Nat) (d : Dev) (hps : [.links, .functions, .rings, .output] ⊆ ps) :
    (Dev.checkIrq r d).besides ps = d.besides ps := by
  simp only [List.cons_subset, List.nil_subset, and_true] at hps
  unfold Dev.checkIrq
  split <;> simp only [↓Dev.onRing_besides, ↓Dev.sendVector_besides, ↓Dev.besides_ite, ite_self, List.cons_subset, List.nil_subset, and_true, hps]

theorem Dev.pump_besides (link : Nat) (d : Dev) (hps : [.links, .output] ⊆ ps) :
    (Dev.pump link d).besides ps = d.besides ps := by
  simp only [List.cons_subset, List.nil_subset, and_true] at hps
  simp only [Dev.pump, ↓Dev.issueHeld_besides, ↓Dev.besides_each, List.cons_subset, List.nil_subset, and_true, implies_true, hps]

theorem Dev.putNow_besides (t : Nat) (op : PutOp) (e : MtbEntry) (p : MtbPlan) (d : Dev) (hps : [.tables] ⊆ ps) :
    (Dev.putNow t op e p d).2.besides ps = d.besides ps := by
  simp only [List.cons_subset, List.nil_subset, and_true] at hps
  simp only [Dev.putNow, ↓Dev.carryOut_besides, ↓Dev.setCuckoo_besides, ↓Dev.besides_ite, ite_self, List.cons_subset, List.nil_subset, and_true, hps]

theorem Dev.removeVf_besides (fn : Nat) (d : Dev) (hps : [.functions, .channels, .shares, .tables, .retained, .registers] ⊆ ps) :
    (Dev.removeVf fn d).besides ps = d.besides ps := by
  simp only [List.cons_subset, List.nil_subset, and_true] at hps
  simp only [Dev.removeVf, ↓Dev.clearUnit_besides, ↓Dev.dropNodes_besides, ↓Dev.dropSources_besides, ↓Dev.onChan_besides,
      ↓Dev.onFn_besides, ↓Dev.setFull_besides, List.cons_subset, List.nil_subset, and_true, hps]

theorem Dev.lookupScope_besides (t scope : Nat) (key : List Byte) (d : Dev) (hps : [.tables] ⊆ ps) :
    (Dev.lookupScope t scope key d).2.besides ps = d.besides ps := by
  simp only [List.cons_subset, List.nil_subset, and_true] at hps
  simp only [Dev.lookupScope]
  repeat' split
  all_goals simp only [↓Dev.stampHit_besides, ↓Dev.touchLine_besides, ↓Dev.besides_each, List.cons_subset, List.nil_subset, and_true,
      implies_true, hps]

theorem Dev.readLive_besides (mid unit inst off : Nat) (d : Dev) (hps : [.rings, .items, .ports, .time, .tables, .sets, .retained, .registers] ⊆ ps) :
    (Dev.readLive mid unit inst off d).2.besides ps = d.besides ps := by
  simp only [List.cons_subset, List.nil_subset, and_true] at hps
  simp only [Dev.readLive, ↓apply_ite Prod.snd, ↓Dev.plainRead_besides, ↓Dev.popCompare_besides, ↓Dev.popFailure_besides,
      ↓Dev.popFault_besides, ↓Dev.popRingError_besides, ↓Dev.readDomain_besides, ↓Dev.readMacCount_besides, ↓Dev.besides_ite, ite_self,
      List.cons_subset, List.nil_subset, and_true, hps]

theorem Dev.refuseRead_besides (fn : Nat) (d : Dev) (hps : [.functions, .output] ⊆ ps) :
    (Dev.refuseRead fn d).besides ps = d.besides ps := by
  simp only [List.cons_subset, List.nil_subset, and_true] at hps
  simp only [Dev.refuseRead, ↓Dev.emit_besides, ↓Dev.reportAer_besides, ↓Dev.besides_ite, ite_self, List.cons_subset, List.nil_subset, and_true, hps]

theorem Dev.startS44_besides (fn : Nat) (d : Dev) (hps : [.functions, .rings, .shares, .registers] ⊆ ps) :
    (Dev.startS44 fn d).besides ps = d.besides ps := by
  simp only [List.cons_subset, List.nil_subset, and_true] at hps
  simp only [Dev.startS44, ↓Dev.clearUnit_besides, ↓Dev.newGroup_besides, ↓Dev.besides_ite, ite_self, List.cons_subset, List.nil_subset,
      and_true, hps]

theorem Dev.swTrigger_besides (v : Nat) (d : Dev) (hps : [.routes, .output] ⊆ ps) :
    (Dev.swTrigger v d).besides ps = d.besides ps := by
  simp only [List.cons_subset, List.nil_subset, and_true] at hps
  simp only [Dev.swTrigger, ↓Dev.raise_besides, ↓Dev.besides_each, List.cons_subset, List.nil_subset, and_true, implies_true, hps]

theorem Dev.pwrEvent_besides (n : Nat) (d : Dev) (hps : [.routes, .output] ⊆ ps) :
    (Dev.pwrEvent n d).besides ps = d.besides ps := by
  simp only [List.cons_subset, List.nil_subset, and_true] at hps
  simp only [Dev.pwrEvent, ↓Dev.raise_besides, List.cons_subset, List.nil_subset, and_true, hps]

theorem Dev.cardChanged_besides (es : List Nat) (d : Dev) (hps : [.start, .routes, .output] ⊆ ps) :
    (Dev.cardChanged es d).besides ps = d.besides ps := by
  simp only [List.cons_subset, List.nil_subset, and_true] at hps
  simp only [Dev.cardChanged, ↓Dev.raise_besides, ↓Dev.besides_card, ↓Dev.besides_ite, ite_self, List.cons_subset, List.nil_subset, and_true, hps]

theorem Dev.writeMask_besides (d : Dev) (c : Causes) (i v : Nat) (hps : [.routes, .retained, .registers, .output] ⊆ ps) :
    (Dev.writeMask d c i v).besides ps = d.besides ps := by
  simp only [List.cons_subset, List.nil_subset, and_true] at hps
  simp only [Dev.writeMask, ↓Dev.raise_besides, ↓Dev.wr_besides, ↓Dev.besides_each, List.cons_subset, List.nil_subset, and_true, implies_true, hps]

theorem Dev.wake_besides (n : Nat) (d : Dev) (hps : [.power, .routes, .output] ⊆ ps) :
    (Dev.wake n d).besides ps = d.besides ps := by
  simp only [List.cons_subset, List.nil_subset, and_true] at hps
  simp only [Dev.wake, ↓Dev.raise_besides, ↓Dev.besides_power, ↓Dev.besides_ite, ite_self, List.cons_subset, List.nil_subset, and_true, hps]

theorem Dev.bootEvent_besides (n : Nat) (d : Dev) (hps : [.routes, .output] ⊆ ps) :
    (Dev.bootEvent n d).besides ps = d.besides ps := by
  simp only [List.cons_subset, List.nil_subset, and_true] at hps
  simp only [Dev.bootEvent, ↓Dev.raise_besides, List.cons_subset, List.nil_subset, and_true, hps]

theorem Dev.cause_besides (d : Dev) (c : Causes) (b : Nat) (i : Nat) (hps : [.routes, .retained, .registers, .output] ⊆ ps) :
    (Dev.cause d c b i).besides ps = d.besides ps := by
  simp only [List.cons_subset, List.nil_subset, and_true] at hps
  simp only [Dev.cause, ↓Dev.raise_besides, ↓Dev.wr_besides, ↓Dev.besides_ite, ite_self, List.cons_subset, List.nil_subset, and_true, hps]

theorem Dev.rxControl_besides (m : Nat) (f : Frame) (d : Dev) (hps : [.ports, .retained, .registers] ⊆ ps) :
    (Dev.rxControl m f d).besides ps = d.besides ps := by
  simp only [List.cons_subset, List.nil_subset, and_true] at hps
  simp only [Dev.rxControl, ↓Dev.ignoreControl_besides, ↓Dev.rxPause_besides, ↓Dev.rxPfc_besides, ↓Dev.besides_ite, ite_self,
      List.cons_subset, List.nil_subset, and_true, hps]

theorem Dev.chooseFlit_besides (d : Dev) (hps : [.stream, .retained, .registers, .output] ⊆ ps) :
    (Dev.chooseFlit d).besides ps = d.besides ps := by
  simp only [List.cons_subset, List.nil_subset, and_true] at hps
  unfold Dev.chooseFlit
  repeat' split
  all_goals simp only [↓Dev.countTx_besides, ↓Dev.onStp_besides, ↓Dev.onStream_besides, ↓Dev.putFlit_besides, ↓Dev.sendFlit_besides,
      ↓Dev.showXfer_besides, List.cons_subset, List.nil_subset, and_true, hps]

theorem Dev.clearForService_besides (d : Dev) (hps : [.functions, .work, .channels, .rings, .items, .shares, .tables, .contexts, .engines,
    .retained, .registers] ⊆ ps) :
    (Dev.clearForService d).besides ps = d.besides ps := by
  simp only [List.cons_subset, List.nil_subset, and_true] at hps
  simp only [Dev.clearForService, ↓Dev.dmaServiceReset_besides, ↓Dev.emptyChannels_besides, ↓Dev.wr_besides, ↓Dev.besides_regs,
      ↓Dev.besides_service, ↓Dev.besides_each, List.cons_subset, List.nil_subset, and_true, implies_true, hps]

theorem Dev.macsecReceive_besides (m : Nat) (f : Frame) (d : Dev) (hps : [.contexts, .retained, .registers] ⊆ ps) :
    (Dev.macsecReceive m f d).2.besides ps = d.besides ps := by
  simp only [List.cons_subset, List.nil_subset, and_true] at hps
  simp only [Dev.macsecReceive]
  repeat' split
  all_goals simp only [↓Dev.bumpCtx_besides, ↓Dev.cryJob_besides, ↓Dev.setCtx_besides, List.cons_subset, List.nil_subset, and_true, hps]

theorem Dev.saveItems_besides (d : Dev) (hps : [.links, .rings, .items, .storage] ⊆ ps) :
    (Dev.saveItems d).besides ps = d.besides ps := by
  simp only [List.cons_subset, List.nil_subset, and_true] at hps
  simp only [Dev.saveItems, ↓Dev.onItem_besides, ↓Dev.restartItem_besides, ↓Dev.besides_rings_nvmes, ↓Dev.besides_ite, ↓Dev.besides_each,
      ite_self, List.cons_subset, List.nil_subset, and_true, implies_true, hps]

theorem Dev.squashStale_besides (fn : Nat) (d : Dev) (hps : [.rings, .items, .retained, .registers] ⊆ ps) :
    (Dev.squashStale fn d).besides ps = d.besides ps := by
  simp only [List.cons_subset, List.nil_subset, and_true] at hps
  simp only [Dev.squashStale, ↓Dev.squash_besides, ↓Dev.besides_each, List.cons_subset, List.nil_subset, and_true, implies_true, hps]

theorem Dev.setDest_besides (i : Nat) (dest : Dest) (d : Dev) (hps : [.rings, .items] ⊆ ps) :
    (Dev.setDest i dest d).besides ps = d.besides ps := by
  simp only [List.cons_subset, List.nil_subset, and_true] at hps
  unfold Dev.setDest
  repeat' split
  all_goals simp only [↓Dev.onItem_besides, ↓Dev.redirectRx_besides, ↓Dev.besides_ite, ite_self, List.cons_subset, List.nil_subset, and_true, hps]

theorem Dev.hairpinRefused_besides (i : Nat) (counts : List (Field × Nat)) (d : Dev) (hps : [.rings, .items, .retained, .registers] ⊆ ps) :
    (Dev.hairpinRefused i counts d).besides ps = d.besides ps := by
  simp only [List.cons_subset, List.nil_subset, and_true] at hps
  simp only [Dev.hairpinRefused, ↓Dev.countPlan_besides, ↓Dev.redirectRx_besides, List.cons_subset, List.nil_subset, and_true, hps]

theorem Dev.assistOpen_besides (p t kind : Nat) (act : Nat → Item → Dev → Dev) (w : Microword) (th : Thread) (d : Dev)
    (hps : [.sets] ⊆ ps) (hact : ∀ a b e, (act a b e).besides ps = e.besides ps) :
    (Dev.assistOpen p t kind act w th d).besides ps = d.besides ps := by
  simp only [List.cons_subset, List.nil_subset, and_true] at hps
  simp only [Dev.assistOpen, ↓Dev.assist_besides, ↓Dev.free_besides, List.cons_subset, List.nil_subset, and_true, implies_true, hps, hact]

theorem Dev.serviceXon_besides (d : Dev) (hps : [.ports, .retained, .registers, .output] ⊆ ps) :
    (Dev.serviceXon d).besides ps = d.besides ps := by
  simp only [List.cons_subset, List.nil_subset, and_true] at hps
  simp only [Dev.serviceXon]
  refine Dev.besides_each _ _ _ fun a e => ?_
  simp only [↓Dev.sendControl_besides, ↓Dev.setXoff_besides, ↓Dev.wr_besides, ↓Dev.besides_ite, ↓Dev.besides_each, ite_self,
      List.cons_subset, List.nil_subset, and_true, implies_true, hps]

theorem Dev.checkXoff_besides (m cls : Nat) (d : Dev) (hps : [.ports, .retained, .registers, .output] ⊆ ps) :
    (Dev.checkXoff m cls d).besides ps = d.besides ps := by
  simp only [List.cons_subset, List.nil_subset, and_true] at hps
  simp only [Dev.checkXoff, ↓Dev.sendControl_besides, ↓Dev.setXoff_besides, ↓Dev.besides_ite, ite_self, List.cons_subset, List.nil_subset,
      and_true, hps]

theorem Dev.checkXon_besides (m cls : Nat) (d : Dev) (hps : [.ports, .retained, .registers, .output] ⊆ ps) :
    (Dev.checkXon m cls d).besides ps = d.besides ps := by
  simp only [List.cons_subset, List.nil_subset, and_true] at hps
  simp only [Dev.checkXon, ↓Dev.sendControl_besides, ↓Dev.setXoff_besides, ↓Dev.besides_ite, ite_self, List.cons_subset, List.nil_subset,
      and_true, hps]

theorem Dev.serviceXoff_besides (d : Dev) (hps : [.ports, .retained, .registers, .output] ⊆ ps) :
    (Dev.serviceXoff d).besides ps = d.besides ps := by
  simp only [List.cons_subset, List.nil_subset, and_true] at hps
  simp only [Dev.serviceXoff]
  refine Dev.besides_each _ _ _ fun a e => ?_
  simp only [↓Dev.sendControl_besides, ↓Dev.setXoff_besides, ↓Dev.wr_besides, ↓Dev.besides_ite, ↓Dev.besides_each, ite_self,
      List.cons_subset, List.nil_subset, and_true, implies_true, hps]

theorem Dev.resetChannels_besides (fn : Nat) (d : Dev) (hps : [.links, .functions, .channels, .stream, .retained, .registers, .output] ⊆ ps) :
    (Dev.resetChannels fn d).besides ps = d.besides ps := by
  simp only [List.cons_subset, List.nil_subset, and_true] at hps
  have hblank (a : Nat) (e : Dev) : (Dev.each (List.range 16) (fun n d => d.wr R.MBX_TX_DATA_data 0 0 (a + 4 * n)) e).besides ps = e.besides ps := by
    simp only [↓Dev.wr_besides, ↓Dev.besides_each, List.cons_subset, List.nil_subset, and_true, implies_true, hps]
  simp only [Dev.resetChannels]
  refine (Dev.besides_each _ _ _ fun c e => ?_).trans (Dev.besides_each _ _ _ fun c e => ?_)
  · split <;> simp only [↓Dev.acknowledge_besides, ↓Dev.onChan_besides, ↓Dev.setFull_besides, ↓Dev.setView_besides, ↓Dev.wr_besides,
        List.cons_subset, List.nil_subset, and_true, hps]
  · simp only [↓Dev.wr_besides, ↓Dev.besides_each, List.cons_subset, List.nil_subset, and_true, implies_true, hps]

theorem Dev.advanceCpl_besides (r n : Nat) (d : Dev) (hps : [.links, .functions, .rings, .output] ⊆ ps) :
    (Dev.advanceCpl r n d).besides ps = d.besides ps := by
  simp only [List.cons_subset, List.nil_subset, and_true] at hps
  simp only [Dev.advanceCpl, ↓Dev.checkIrq_besides, ↓Dev.onRing_besides, List.cons_subset, List.nil_subset, and_true, hps]

theorem Dev.moveHead_besides (r head : Nat) (arm : Bool) (d : Dev) (hps : [.links, .functions, .rings, .output] ⊆ ps) :
    (Dev.moveHead r head arm d).besides ps = d.besides ps := by
  simp only [List.cons_subset, List.nil_subset, and_true] at hps
  simp only [Dev.moveHead, ↓Dev.checkIrq_besides, ↓Dev.onRing_besides, List.cons_subset, List.nil_subset, and_true, hps]

theorem Dev.invalidate_besides (link addr size : Nat) (d : Dev) (hps : [.links, .output] ⊆ ps) :
    (Dev.invalidate link addr size d).besides ps = d.besides ps := by
  simp only [List.cons_subset, List.nil_subset, and_true] at hps
  simp only [Dev.invalidate, ↓Dev.onLink_besides, ↓Dev.pump_besides, List.cons_subset, List.nil_subset, and_true, hps]

theorem Dev.hostRead_besides (fn addr len : Nat) (a : Attr) (why : Nat → Nat → ReadFor) (d : Dev) (hps : [.links, .retained, .registers,
    .output] ⊆ ps) :
    (Dev.hostRead fn addr len a why d).besides ps = d.besides ps := by
  simp only [List.cons_subset, List.nil_subset, and_true] at hps
  simp only [Dev.hostRead, ↓Dev.leaveL1_besides, ↓Dev.onLink_besides, ↓Dev.pump_besides, List.cons_subset, List.nil_subset, and_true, hps]

theorem Dev.lookup_besides (t figure : Nat) (key : List Byte) (d : Dev) (hps : [.tables, .retained, .registers] ⊆ ps) :
    (Dev.lookup t figure key d).2.besides ps = d.besides ps := by
  simp only [List.cons_subset, List.nil_subset, and_true] at hps
  simp only [Dev.lookup]
  split <;> simp only [↓Dev.countFill_besides, ↓Dev.lookupScope_besides, List.cons_subset, List.nil_subset, and_true, hps]

theorem Dev.vfEnableSet_besides (pf n : Nat) (d : Dev) (hps : [.functions, .rings, .shares, .registers] ⊆ ps) :
    (Dev.vfEnableSet pf n d).besides ps = d.besides ps := by
  simp only [List.cons_subset, List.nil_subset, and_true] at hps
  simp only [Dev.vfEnableSet, ↓Dev.onFn_besides, ↓Dev.startS44_besides, ↓Dev.vfCardReadable_besides, ↓Dev.besides_ite, ↓Dev.besides_each,
      ite_self, List.cons_subset, List.nil_subset, and_true, implies_true, hps]

theorem Dev.writeEvt_besides (mid off v : Nat) (d : Dev) (hps : [.routes, .retained, .registers, .output] ⊆ ps) :
    (Dev.writeEvt mid off v d).besides ps = d.besides ps := by
  simp only [List.cons_subset, List.nil_subset, and_true] at hps
  simp only [Dev.writeEvt, ↓Dev.endOfInterrupt_besides, ↓Dev.plainWrite_besides, ↓Dev.swTrigger_besides, ↓Dev.writeRoute_besides,
      ↓Dev.besides_ite, ite_self, List.cons_subset, List.nil_subset, and_true, hps]

theorem Dev.domainResult_besides (n code : Nat) (d : Dev) (hps : [.routes, .retained, .registers, .output] ⊆ ps) :
    (Dev.domainResult n code d).besides ps = d.besides ps := by
  simp only [List.cons_subset, List.nil_subset, and_true] at hps
  simp only [Dev.domainResult, ↓Dev.pwrEvent_besides, ↓Dev.wr_besides, ↓Dev.besides_ite, ite_self, List.cons_subset, List.nil_subset, and_true, hps]

theorem Dev.showBoost_besides (d : Dev) (hps : [.routes, .retained, .registers, .output] ⊆ ps) :
    (Dev.showBoost d).besides ps = d.besides ps := by
  simp only [List.cons_subset, List.nil_subset, and_true] at hps
  simp only [Dev.showBoost, ↓Dev.pwrEvent_besides, ↓Dev.wr_besides, ↓Dev.besides_ite, ite_self, List.cons_subset, List.nil_subset, and_true, hps]

theorem Dev.sampleTj_besides (sensors : List Int) (d : Dev) (hps : [.power, .routes, .retained, .registers, .output] ⊆ ps) :
    (Dev.sampleTj sensors d).besides ps = d.besides ps := by
  simp only [List.cons_subset, List.nil_subset, and_true] at hps
  simp only [Dev.sampleTj, ↓Dev.checkBoost_besides, ↓Dev.onPower_besides, ↓Dev.pwrEvent_besides, ↓Dev.wr_besides, ↓Dev.besides_ite,
      ite_self, List.cons_subset, List.nil_subset, and_true, hps]

theorem Dev.updateHeadroom_besides (d : Dev) (hps : [.power, .routes, .retained, .registers, .output] ⊆ ps) :
    (Dev.updateHeadroom d).besides ps = d.besides ps := by
  simp only [List.cons_subset, List.nil_subset, and_true] at hps
  simp only [Dev.updateHeadroom, ↓Dev.onPower_besides, ↓Dev.pwrEvent_besides, ↓Dev.wr_besides, ↓Dev.besides_ite, ite_self,
      List.cons_subset, List.nil_subset, and_true, hps]

theorem Dev.leaveCry_besides (p : Nat) (d : Dev) (hps : [.start, .positions, .routes, .items, .retained, .output] ⊆ ps) :
    (Dev.leaveCry p d).2.besides ps = d.besides ps := by
  simp only [List.cons_subset, List.nil_subset, and_true] at hps
  unfold Dev.leaveCry
  split <;> simp only [↓Dev.assignJobs_besides, ↓Dev.cardChanged_besides, ↓Dev.putCry_besides, List.cons_subset, List.nil_subset, and_true, hps]

theorem Dev.startTest_besides (unit inst : Nat) (d : Dev) (hps : [.positions, .power, .routes, .output] ⊆ ps) :
    (Dev.startTest unit inst d).besides ps = d.besides ps := by
  simp only [List.cons_subset, List.nil_subset, and_true] at hps
  simp only [Dev.startTest, ↓Dev.wake_besides, ↓Dev.besides_cores, ↓Dev.besides_cryPos, ↓Dev.besides_setPos, ↓Dev.besides_ite, ite_self,
      List.cons_subset, List.nil_subset, and_true, hps]

theorem Dev.startEvents_besides (n : StartNote) (d : Dev) (hps : [.start, .routes, .output] ⊆ ps) :
    (Dev.startEvents n d).besides ps = d.besides ps := by
  simp only [List.cons_subset, List.nil_subset, and_true] at hps
  simp only [Dev.startEvents, ↓Dev.bootEvent_besides, ↓Dev.besides_boot, ↓Dev.besides_ite, ite_self, List.cons_subset, List.nil_subset, and_true, hps]

theorem Dev.countPi_besides (d : Dev) (hps : [.routes, .retained, .registers, .output] ⊆ ps) :
    (Dev.countPi d).besides ps = d.besides ps := by
  simp only [List.cons_subset, List.nil_subset, and_true] at hps
  simp only [Dev.countPi, ↓Dev.bump_besides, ↓Dev.cause_besides, List.cons_subset, List.nil_subset, and_true, hps]

theorem Dev.newRecord_besides (e : Err) (d : Dev) (hps : [.routes, .retained, .registers, .output] ⊆ ps) :
    (Dev.newRecord e d).besides ps = d.besides ps := by
  simp only [List.cons_subset, List.nil_subset, and_true] at hps
  simp only [Dev.newRecord]
  split <;> simp only [↓Dev.bump_besides, ↓Dev.cause_besides, ↓Dev.refreshLog_besides, ↓Dev.setLogWord_besides, ↓Dev.wr_besides,
      ↓Dev.besides_ite, ite_self, List.cons_subset, List.nil_subset, and_true, hps]

theorem Dev.comparePassEnd_besides (hostError : Bool) (d : Dev) (hps : [.routes, .tables, .retained, .registers, .output] ⊆ ps) :
    (Dev.comparePassEnd hostError d).besides ps = d.besides ps := by
  simp only [List.cons_subset, List.nil_subset, and_true] at hps
  simp only [Dev.comparePassEnd, ↓Dev.bump_besides, ↓Dev.cause_besides, ↓Dev.onCompare_besides, ↓Dev.wr_besides, ↓Dev.besides_ite,
      ite_self, List.cons_subset, List.nil_subset, and_true, hps]

theorem Dev.rehashSlot_besides (t i : Nat) (d : Dev) (hps : [.routes, .tables, .retained, .registers, .output] ⊆ ps) :
    (Dev.rehashSlot t i d).besides ps = d.besides ps := by
  simp only [List.cons_subset, List.nil_subset, and_true] at hps
  simp only [Dev.rehashSlot, ↓Dev.besides_ite]
  repeat' split
  all_goals simp only [↓Dev.bump_besides, ↓Dev.carryOut_besides, ↓Dev.cause_besides, ↓Dev.setCuckoo_besides, ↓Dev.wr_besides,
      List.cons_subset, List.nil_subset, and_true, hps]

theorem Dev.faultAck_besides (seq : Nat) (d : Dev) (hps : [.routes, .retained, .registers, .output] ⊆ ps) :
    (Dev.faultAck seq d).besides ps = d.besides ps := by
  simp only [List.cons_subset, List.nil_subset, and_true] at hps
  unfold Dev.faultAck
  split <;> simp only [↓Dev.cause_besides, ↓Dev.refreshLog_besides, ↓Dev.setLogWord_besides, List.cons_subset, List.nil_subset, and_true, hps]

theorem Dev.discardFlit_besides (f : Flit) (d : Dev) (hps : [.routes, .stream, .retained, .registers, .output] ⊆ ps) :
    (Dev.discardFlit f d).besides ps = d.besides ps := by
  simp only [List.cons_subset, List.nil_subset, and_true] at hps
  simp only [Dev.discardFlit, ↓Dev.bump_besides, ↓Dev.cause_besides, ↓Dev.onStp_besides, ↓Dev.besides_ite, ite_self, List.cons_subset,
      List.nil_subset, and_true, hps]

theorem Dev.dmaRequestOp_besides (c : Nat) (d : Dev) (hps : [.routes, .retained, .registers, .output] ⊆ ps) :
    (Dev.dmaRequestOp c d).besides ps = d.besides ps := by
  simp only [List.cons_subset, List.nil_subset, and_true] at hps
  simp only [Dev.dmaRequestOp, ↓Dev.cause_besides, ↓Dev.wr_besides, ↓Dev.besides_ite, ite_self, List.cons_subset, List.nil_subset, and_true, hps]

theorem Dev.loseSave_besides (d : Dev) (hps : [.start, .routes, .rings, .items, .storage, .retained, .registers, .output] ⊆ ps) :
    (Dev.loseSave d).besides ps = d.besides ps := by
  simp only [List.cons_subset, List.nil_subset, and_true] at hps
  simp only [Dev.loseSave, ↓Dev.cause_besides, ↓Dev.wr_besides, ↓Dev.besides_boot_rings_items_nvmes, List.cons_subset, List.nil_subset, and_true, hps]

theorem Dev.p2pDone_besides (link : Nat) (d : Dev) (hps : [.links, .routes, .retained, .registers, .output] ⊆ ps) :
    (Dev.p2pDone link d).besides ps = d.besides ps := by
  simp only [List.cons_subset, List.nil_subset, and_true] at hps
  have hcopy (set : List Nat) (a : Dev) : (Dev.each (List.range 16) (fun w d =>
      Dev.each p2pActive.zipIdx (fun f d => d.wr f.1 (set.getD (8 * w + f.2) 0) link (32 * w)) d) a).besides ps = a.besides ps :=
    Dev.besides_each _ _ _ fun w e => by simp only [↓Dev.wr_besides, ↓Dev.besides_each, List.cons_subset, List.nil_subset, and_true,
        implies_true, hps]
  unfold Dev.p2pDone
  split
  · rfl
  · simp only [hcopy, ↓Dev.bump_besides, ↓Dev.cause_besides, ↓Dev.onLink_besides, ↓Dev.wr_besides, List.cons_subset, List.nil_subset, and_true, hps]

theorem Dev.slewEnd_besides (n : Nat) (d : Dev) (hps : [.routes, .retained, .registers, .output] ⊆ ps) :
    (Dev.slewEnd n d).besides ps = d.besides ps := by
  simp only [List.cons_subset, List.nil_subset, and_true] at hps
  simp only [Dev.slewEnd, ↓Dev.cause_besides, ↓Dev.showSlot_besides, ↓Dev.slotFlag_besides, ↓Dev.wr_besides, ↓Dev.besides_ite, ite_self,
      List.cons_subset, List.nil_subset, and_true, hps]

theorem Dev.compareRecheck_besides (t : Nat) (data : List Byte) (d : Dev) (hps : [.routes, .tables, .retained, .registers, .output] ⊆ ps) :
    (Dev.compareRecheck t data d).besides ps = d.besides ps := by
  simp only [List.cons_subset, List.nil_subset, and_true] at hps
  unfold Dev.compareRecheck
  split <;> simp only [↓Dev.bump_besides, ↓Dev.cause_besides, ↓Dev.onCompare_besides, ↓Dev.besides_ite, ite_self, List.cons_subset,
      List.nil_subset, and_true, hps]

theorem Dev.prefixAdd_besides (p : Nat) (d : Dev) (hps : [.routes, .tables, .retained, .registers, .output] ⊆ ps) :
    (Dev.prefixAdd p d).2.besides ps = d.besides ps := by
  simp only [List.cons_subset, List.nil_subset, and_true] at hps
  simp only [Dev.prefixAdd]
  repeat' split
  all_goals simp only [↓Dev.cause_besides, ↓Dev.onMtb_besides, List.cons_subset, List.nil_subset, and_true, hps]

theorem Dev.intervalEnd_besides (p : Nat) (d : Dev) (hps : [.routes, .time, .retained, .registers, .output] ⊆ ps) :
    (Dev.intervalEnd p d).besides ps = d.besides ps := by
  simp only [List.cons_subset, List.nil_subset, and_true] at hps
  simp only [Dev.intervalEnd, ↓Dev.cause_besides, ↓Dev.onTimePin_besides, ↓Dev.besides_ite, ite_self, List.cons_subset, List.nil_subset,
      and_true, hps]

theorem Dev.endLinkReset_besides (link : Nat) (d : Dev) (hps : [.links, .routes, .retained, .registers, .output] ⊆ ps) :
    (Dev.endLinkReset link d).besides ps = d.besides ps := by
  simp only [List.cons_subset, List.nil_subset, and_true] at hps
  simp only [Dev.endLinkReset, ↓Dev.cause_besides, ↓Dev.clearWindows_besides, ↓Dev.onLink_besides, ↓Dev.wr_besides, ↓Dev.besides_ite,
      ite_self, List.cons_subset, List.nil_subset, and_true, hps]

theorem Dev.wrongMid_besides (d : Dev) (hps : [.routes, .retained, .registers, .output] ⊆ ps) :
    (Dev.wrongMid d).besides ps = d.besides ps := by
  simp only [List.cons_subset, List.nil_subset, and_true] at hps
  simp only [Dev.wrongMid, ↓Dev.bump_besides, ↓Dev.cause_besides, List.cons_subset, List.nil_subset, and_true, hps]

theorem Dev.postRun_besides (p : Nat) (r : PortRun) (d : Dev) (hps : [.routes, .tables, .retained, .registers, .output] ⊆ ps) :
    (Dev.postRun p r d).besides ps = d.besides ps := by
  simp only [List.cons_subset, List.nil_subset, and_true] at hps
  unfold Dev.postRun
  repeat' split
  all_goals simp only [↓Dev.cause_besides, ↓Dev.onMtb_besides, ↓Dev.setWindow_besides, ↓Dev.wr_besides, List.cons_subset, List.nil_subset,
      and_true, hps]

theorem Dev.abandonChan_besides (p c : Nat) (d : Dev) (hps : [.routes, .retained, .registers, .output] ⊆ ps) :
    (Dev.abandonChan p c d).besides ps = d.besides ps := by
  simp only [List.cons_subset, List.nil_subset, and_true] at hps
  simp only [Dev.abandonChan, ↓Dev.cause_besides, ↓Dev.wr_besides, List.cons_subset, List.nil_subset, and_true, hps]

theorem Dev.linkLeaves_besides (link state : Nat) (d : Dev) (hps : [.routes, .retained, .registers, .output] ⊆ ps) :
    (Dev.linkLeaves link state d).besides ps = d.besides ps := by
  simp only [List.cons_subset, List.nil_subset, and_true] at hps
  simp only [Dev.linkLeaves, ↓Dev.cause_besides, ↓Dev.wr_besides, ↓Dev.besides_ite, ite_self, List.cons_subset, List.nil_subset, and_true, hps]

theorem Dev.pushRingError_besides (r cause : Nat) (d : Dev) (hps : [.routes, .rings, .retained, .registers, .output] ⊆ ps) :
    (Dev.pushRingError r cause d).besides ps = d.besides ps := by
  simp only [List.cons_subset, List.nil_subset, and_true] at hps
  simp only [Dev.pushRingError, ↓Dev.bump_besides, ↓Dev.cause_besides, ↓Dev.besides_ringErrors, ↓Dev.besides_ite, ite_self,
      List.cons_subset, List.nil_subset, and_true, hps]

theorem Dev.insertFailed_besides (t : Nat) (fromLearn : Bool) (d : Dev) (hps : [.routes, .retained, .registers, .output] ⊆ ps) :
    (Dev.insertFailed t fromLearn d).besides ps = d.besides ps := by
  simp only [List.cons_subset, List.nil_subset, and_true] at hps
  simp only [Dev.insertFailed, ↓Dev.bump_besides, ↓Dev.cause_besides, ↓Dev.wr_besides, ↓Dev.besides_ite, ite_self, List.cons_subset,
      List.nil_subset, and_true, hps]

theorem Dev.checkAlarm_besides (k : Nat) (d : Dev) (hps : [.routes, .time, .retained, .registers, .output] ⊆ ps) :
    (Dev.checkAlarm k d).besides ps = d.besides ps := by
  simp only [List.cons_subset, List.nil_subset, and_true] at hps
  simp only [Dev.checkAlarm, ↓Dev.cause_besides, ↓Dev.onDom_besides, ↓Dev.besides_ite, ite_self, List.cons_subset, List.nil_subset, and_true, hps]

theorem Dev.offer_besides (f : Nat) (o : LearnOffer) (d : Dev) (hps : [.routes, .tables, .retained, .registers, .output] ⊆ ps) :
    (Dev.offer f o d).besides ps = d.besides ps := by
  simp only [List.cons_subset, List.nil_subset, and_true] at hps
  simp only [Dev.offer, ↓Dev.bump_besides, ↓Dev.cause_besides, ↓Dev.onMtb_besides, ↓Dev.besides_ite, ite_self, List.cons_subset,
      List.nil_subset, and_true, hps]

theorem Dev.csWrite_besides (p : Nat) (d : Dev) (hps : [.routes, .sets, .retained, .registers, .output] ⊆ ps) :
    (Dev.csWrite p d).besides ps = d.besides ps := by
  simp only [List.cons_subset, List.nil_subset, and_true] at hps
  simp only [Dev.csWrite, ↓Dev.cause_besides, ↓Dev.csStep_besides, ↓Dev.onSite_besides, ↓Dev.besides_ite, ite_self, List.cons_subset,
      List.nil_subset, and_true, hps]

theorem Dev.dmaHalt_besides (c : Nat) (d : Dev) (hps : [.routes, .retained, .registers, .output] ⊆ ps) :
    (Dev.dmaHalt c d).besides ps = d.besides ps := by
  simp only [List.cons_subset, List.nil_subset, and_true] at hps
  simp only [Dev.dmaHalt, ↓Dev.cause_besides, ↓Dev.wr_besides, ↓Dev.besides_ite, ite_self, List.cons_subset, List.nil_subset, and_true, hps]

theorem Dev.flexeCommand_besides (p : Nat) (d : Dev) (hps : [.routes, .retained, .registers, .output] ⊆ ps) :
    (Dev.flexeCommand p d).besides ps = d.besides ps := by
  simp only [List.cons_subset, List.nil_subset, and_true] at hps
  unfold Dev.flexeCommand
  split <;> simp only [↓Dev.cause_besides, ↓Dev.emit_besides, ↓Dev.wr_besides, ↓Dev.besides_ite, ite_self, List.cons_subset,
      List.nil_subset, and_true, hps]

theorem Dev.pulse_besides (n : Nat) (d : Dev) (hps : [.routes, .time, .retained, .registers, .output] ⊆ ps) :
    (Dev.pulse n d).besides ps = d.besides ps := by
  simp only [List.cons_subset, List.nil_subset, and_true] at hps
  simp only [Dev.pulse, ↓Dev.bump_besides, ↓Dev.cause_besides, ↓Dev.drivePin_besides, ↓Dev.onSlot_besides, ↓Dev.setSlotState_besides,
      ↓Dev.showSlot_besides, ↓Dev.slotFlag_besides, ↓Dev.besides_ite, ite_self, List.cons_subset, List.nil_subset, and_true, hps]

theorem Dev.p2pCommit_besides (link : Nat) (d : Dev) (hps : [.links, .routes, .retained, .registers, .output] ⊆ ps) :
    (Dev.p2pCommit link d).besides ps = d.besides ps := by
  simp only [List.cons_subset, List.nil_subset, and_true] at hps
  simp only [Dev.p2pCommit, ↓Dev.cause_besides, ↓Dev.onLink_besides, ↓Dev.wr_besides, ↓Dev.besides_ite, ite_self, List.cons_subset,
      List.nil_subset, and_true, hps]

theorem Dev.runPort_besides (mid p : Nat) (irq : Bool) (act : Dev → PortRun × Dev) (d : Dev) (hps : [.routes, .tables, .retained,
    .registers, .output] ⊆ ps) (hact : ∀ e, (act e).2.besides ps = e.besides ps) :
    (Dev.runPort mid p irq act d).besides ps = d.besides ps := by
  simp only [List.cons_subset, List.nil_subset, and_true] at hps
  simp only [Dev.runPort, ↓Dev.bump_besides, ↓Dev.cause_besides, ↓Dev.onMtb_besides, ↓Dev.wr_besides, ↓Dev.besides_ite, ite_self,
      List.cons_subset, List.nil_subset, and_true, hps, hact]

theorem Dev.runPort_onTable_besides (mid p t kind : Nat) (irq writes : Bool) (act : Dev → PortRun × Dev) (d : Dev)
    (hps : [.routes, .tables, .retained, .registers, .output] ⊆ ps) (hact : ∀ e, (act e).2.besides ps = e.besides ps) :
    (Dev.runPort mid p irq (Dev.onTable t kind writes act) d).besides ps = d.besides ps :=
  Dev.runPort_besides mid p irq _ d hps (Dev.onTable_besides t kind writes act hact)

theorem Dev.finishRecord_besides (seq h : Nat) (d : Dev) (hps : [.routes, .retained, .registers, .output] ⊆ ps) :
    (Dev.finishRecord seq h d).besides ps = d.besides ps := by
  simp only [List.cons_subset, List.nil_subset, and_true] at hps
  simp only [Dev.finishRecord, ↓Dev.cause_besides, ↓Dev.handleSeq_besides, ↓Dev.besides_ite, ite_self, List.cons_subset, List.nil_subset,
      and_true, hps]
  split <;> simp only [↓Dev.setHandling_besides, List.cons_subset, List.nil_subset, and_true, hps]

theorem Dev.missPulse_besides (n : Nat) (d : Dev) (hps : [.routes, .retained, .registers, .output] ⊆ ps) :
    (Dev.missPulse n d).besides ps = d.besides ps := by
  simp only [List.cons_subset, List.nil_subset, and_true] at hps
  simp only [Dev.missPulse, ↓Dev.cause_besides, ↓Dev.setSlotState_besides, ↓Dev.slotFlag_besides, List.cons_subset, List.nil_subset, and_true, hps]

theorem Dev.loseStamp_besides (m r : Nat) (rx : Bool) (d : Dev) (hps : [.routes, .retained, .registers, .output] ⊆ ps) :
    (Dev.loseStamp m r rx d).besides ps = d.besides ps := by
  simp only [List.cons_subset, List.nil_subset, and_true] at hps
  simp only [Dev.loseStamp, ↓Dev.bump_besides, ↓Dev.cause_besides, ↓Dev.wr_besides, List.cons_subset, List.nil_subset, and_true, hps]

theorem Dev.ignoreDoorbell_besides (d : Dev) (hps : [.routes, .retained, .registers, .output] ⊆ ps) :
    (Dev.ignoreDoorbell d).besides ps = d.besides ps := by
  simp only [List.cons_subset, List.nil_subset, and_true] at hps
  simp only [Dev.ignoreDoorbell, ↓Dev.bump_besides, ↓Dev.cause_besides, List.cons_subset, List.nil_subset, and_true, hps]

theorem Dev.logFailure_besides (f : Failure) (d : Dev) (hps : [.routes, .items, .retained, .registers, .output] ⊆ ps) :
    (Dev.logFailure f d).besides ps = d.besides ps := by
  simp only [List.cons_subset, List.nil_subset, and_true] at hps
  simp only [Dev.logFailure, ↓Dev.bump_besides, ↓Dev.cause_besides, ↓Dev.besides_failures, ↓Dev.besides_ite, ite_self, List.cons_subset,
      List.nil_subset, and_true, hps]

theorem Dev.dropOffers_besides (f : Nat) (d : Dev) (hps : [.routes, .tables, .retained, .registers, .output] ⊆ ps) :
    (Dev.dropOffers f d).besides ps = d.besides ps := by
  simp only [List.cons_subset, List.nil_subset, and_true] at hps
  simp only [Dev.dropOffers, ↓Dev.bump_besides, ↓Dev.cause_besides, ↓Dev.onMtb_besides, ↓Dev.besides_ite, ite_self, List.cons_subset,
      List.nil_subset, and_true, hps]

theorem Dev.loseEntry_besides (index : Nat) (d : Dev) (hps : [.routes, .tables, .retained, .registers, .output] ⊆ ps) :
    (Dev.loseEntry index d).besides ps = d.besides ps := by
  simp only [List.cons_subset, List.nil_subset, and_true] at hps
  simp only [Dev.loseEntry, ↓Dev.cause_besides, ↓Dev.onMtb_besides, ↓Dev.setCuckoo_besides, ↓Dev.besides_ite, ite_self, List.cons_subset,
      List.nil_subset, and_true, hps]

theorem Dev.portUp_besides (p : Nat) (d : Dev) (hps : [.routes, .retained, .registers, .output] ⊆ ps) :
    (Dev.portUp p d).besides ps = d.besides ps := by
  simp only [List.cons_subset, List.nil_subset, and_true] at hps
  simp only [Dev.portUp, ↓Dev.cause_besides, ↓Dev.wr_besides, ↓Dev.besides_ite, ↓Dev.besides_each, ite_self, List.cons_subset,
      List.nil_subset, and_true, implies_true, hps]

theorem Dev.stpEnter_besides (state : Nat) (d : Dev) (hps : [.routes, .stream, .retained, .registers, .output] ⊆ ps) :
    (Dev.stpEnter state d).besides ps = d.besides ps := by
  simp only [List.cons_subset, List.nil_subset, and_true] at hps
  simp only [Dev.stpEnter, ↓Dev.bump_besides, ↓Dev.cause_besides, ↓Dev.emit_besides, ↓Dev.onStp_besides, ↓Dev.setStpState_besides,
      ↓Dev.wr_besides, ↓Dev.besides_stp, ↓Dev.besides_ite, ↓Dev.besides_when, ite_self, List.cons_subset, List.nil_subset, and_true,
      implies_true, hps]

theorem Dev.countRefusal_besides (m reason : Nat) (d : Dev) (hps : [.routes, .ports, .retained, .registers, .output] ⊆ ps) :
    (Dev.countRefusal m reason d).besides ps = d.besides ps := by
  simp only [List.cons_subset, List.nil_subset, and_true] at hps
  simp only [Dev.countRefusal, ↓Dev.bump_besides, ↓Dev.cause_besides, ↓Dev.countMac_besides, ↓Dev.besides_ite, ite_self, List.cons_subset,
      List.nil_subset, and_true, hps]

theorem Dev.stampLanded_besides (r n : Nat) (d : Dev) (hps : [.rings, .shares, .storage, .retained, .registers] ⊆ ps) :
    (Dev.stampLanded r n d).besides ps = d.besides ps := by
  simp only [List.cons_subset, List.nil_subset, and_true] at hps
  induction n generalizing d with
  | zero => rfl
  | succ n ih =>
    unfold Dev.stampLanded
    split
    · rfl
    · split
      · rfl
      · simp only [ih, ↓Dev.accept_besides, ↓Dev.onRing_besides, ↓Dev.accept_besides, ↓Dev.onRing_besides, List.cons_subset,
            List.nil_subset, and_true, hps]

theorem Dev.enterRxFifo_besides (it : Item) (d : Dev) (hps : [.routes, .ports, .retained, .registers, .output] ⊆ ps) :
    (Dev.enterRxFifo it d).besides ps = d.besides ps := by
  simp only [List.cons_subset, List.nil_subset, and_true] at hps
  simp only [Dev.enterRxFifo, ↓Dev.cause_besides, ↓Dev.checkXoff_besides, ↓Dev.countMac_besides, ↓Dev.onMac_besides, ↓Dev.besides_ite,
      ite_self, List.cons_subset, List.nil_subset, and_true, hps]

theorem Dev.flushPosted_besides (fn : Nat) (l : List Posted) (d : Dev) (hps : [.links, .output] ⊆ ps) :
    (Dev.flushPosted fn l d).besides ps = d.besides ps := by
  simp only [List.cons_subset, List.nil_subset, and_true] at hps
  induction l generalizing d with
  | nil => rfl
  | cons p l ih =>
    unfold Dev.flushPosted
    dsimp only
    split
    · simp only [ih, ↓Dev.onLink_besides, ↓Dev.sendMessage_besides, ↓Dev.onLink_besides, ↓Dev.sendMessage_besides, List.cons_subset,
          List.nil_subset, and_true, hps]
    · split <;> simp only [ih, ↓Dev.emit_besides, ↓Dev.onLink_besides, ↓Dev.pump_besides, ↓Dev.queueTranslation_besides, ↓Dev.emit_besides,
          ↓Dev.onLink_besides, ↓Dev.pump_besides, ↓Dev.queueTranslation_besides, List.cons_subset, List.nil_subset, and_true, hps]

theorem Dev.dmaFetch_besides (c addr : Nat) (d : Dev) (hps : [.links, .engines, .retained, .registers, .output] ⊆ ps) :
    (Dev.dmaFetch c addr d).besides ps = d.besides ps := by
  simp only [List.cons_subset, List.nil_subset, and_true] at hps
  simp only [Dev.dmaFetch, ↓Dev.hostRead_besides, ↓Dev.onDma_besides, ↓Dev.besides_ite, ite_self, List.cons_subset, List.nil_subset, and_true, hps]

theorem Dev.fetchSq_besides (fn q : Nat) (d : Dev) (hps : [.links, .routes, .shares, .storage, .retained, .registers, .output] ⊆ ps) :
    (Dev.fetchSq fn q d).besides ps = d.besides ps := by
  simp only [List.cons_subset, List.nil_subset, and_true] at hps
  unfold Dev.fetchSq
  split <;> simp only [↓Dev.bump_besides, ↓Dev.cause_besides, ↓Dev.hostRead_besides, ↓Dev.markCapped_besides, ↓Dev.onNvme_besides,
      ↓Dev.besides_ite, ↓Dev.besides_each, ite_self, List.cons_subset, List.nil_subset, and_true, implies_true, hps]

theorem Dev.issueFetch_besides (r : Nat) (g : Ring) (n : Nat) (d : Dev) (hps : [.links, .rings, .retained, .registers, .output] ⊆ ps) :
    (Dev.issueFetch r g n d).besides ps = d.besides ps := by
  simp only [List.cons_subset, List.nil_subset, and_true] at hps
  simp only [Dev.issueFetch, ↓Dev.hostRead_besides, ↓Dev.onRing_besides, ↓Dev.besides_each, List.cons_subset, List.nil_subset, and_true,
      implies_true, hps]

theorem Dev.dmaReissue_besides (c : Nat) (b : Burst) (d : Dev) (hps : [.links, .retained, .registers, .output] ⊆ ps) :
    (Dev.dmaReissue c b d).besides ps = d.besides ps := by
  simp only [List.cons_subset, List.nil_subset, and_true] at hps
  unfold Dev.dmaReissue
  split <;> simp only [↓Dev.hostRead_besides, ↓Dev.besides_ite, ite_self, List.cons_subset, List.nil_subset, and_true, hps]

theorem Dev.assistLookup_besides (table figure : Nat) (key : List Byte) (d : Dev) (hps : [.tables, .retained, .registers] ⊆ ps) :
    (Dev.assistLookup table figure key d).2.besides ps = d.besides ps := by
  simp only [List.cons_subset, List.nil_subset, and_true] at hps
  unfold Dev.assistLookup
  repeat' split
  all_goals simp only [↓Dev.lookup_besides, ↓Dev.lookupDirect_besides, List.cons_subset, List.nil_subset, and_true, hps]

theorem Dev.inboundSa_besides (p : Parse) (f : Frame) (d : Dev) (hps : [.tables, .retained, .registers] ⊆ ps) :
    (Dev.inboundSa p f d).2.besides ps = d.besides ps := by
  simp only [List.cons_subset, List.nil_subset, and_true] at hps
  unfold Dev.inboundSa
  split
  · split <;> simp only [↓Dev.lookup_besides, List.cons_subset, List.nil_subset, and_true, hps]
  · simp only

theorem Dev.chooseAction_besides (figure miss : Nat) (p : Parse) (f : Frame) (d : Dev) (hps : [.tables, .retained, .registers] ⊆ ps) :
    (Dev.chooseAction figure miss p f d).2.besides ps = d.besides ps := by
  simp only [List.cons_subset, List.nil_subset, and_true] at hps
  simp only [Dev.chooseAction, ↓Dev.lookup_besides, List.cons_subset, List.nil_subset, and_true, hps]

theorem Dev.sourceOk_besides (it : Item) (vid : Nat) (d : Dev) (hps : [.tables, .retained, .registers] ⊆ ps) :
    (Dev.sourceOk it vid d).2.besides ps = d.besides ps := by
  simp only [List.cons_subset, List.nil_subset, and_true] at hps
  simp only [Dev.sourceOk]
  repeat' split
  all_goals simp only [↓Dev.lookup_besides, List.cons_subset, List.nil_subset, and_true, hps]

theorem Dev.terminate_besides (m : Nat) (p : Parse) (d : Dev) (hps : [.tables, .retained, .registers] ⊆ ps) :
    (Dev.terminate m p d).2.besides ps = d.besides ps := by
  simp only [List.cons_subset, List.nil_subset, and_true] at hps
  simp only [Dev.terminate]
  repeat' split
  all_goals simp only [↓Dev.lookup_besides, List.cons_subset, List.nil_subset, and_true, hps]

theorem Dev.domainWake_besides (n : Nat) (d : Dev) (hps : [.power, .routes, .retained, .registers, .output] ⊆ ps) :
    (Dev.domainWake n d).besides ps = d.besides ps := by
  simp only [List.cons_subset, List.nil_subset, and_true] at hps
  simp only [Dev.domainWake, ↓Dev.domainResult_besides, ↓Dev.wake_besides, ↓Dev.besides_ite, ite_self, List.cons_subset, List.nil_subset,
      and_true, hps]

theorem Dev.domainOff_besides (n : Nat) (d : Dev) (hps : [.routes, .retained, .registers, .output] ⊆ ps) :
    (Dev.domainOff n d).besides ps = d.besides ps := by
  simp only [List.cons_subset, List.nil_subset, and_true] at hps
  simp only [Dev.domainOff, ↓Dev.domainResult_besides, ↓Dev.setDomain_besides, ↓Dev.besides_ite, ite_self, List.cons_subset,
      List.nil_subset, and_true, hps]

theorem Dev.standbyOn_besides (d : Dev) (hps : [.start, .debug, .positions, .power, .links, .functions, .tenants, .work, .channels,
    .routes, .rings, .items, .shares, .ports, .time, .tables, .contexts, .sets, .storage, .engines, .stream, .retained, .registers,
    .output] ⊆ ps) :
    (Dev.standbyOn d).besides ps = d.besides ps := by
  simp only [List.cons_subset, List.nil_subset, and_true] at hps
  unfold Dev.standbyOn
  dsimp only
  simp only [Dev.besides, hps, if_true]

theorem Dev.countBoost_besides (d : Dev) (hps : [.power, .routes, .retained, .registers, .output] ⊆ ps) :
    (Dev.countBoost d).besides ps = d.besides ps := by
  simp only [List.cons_subset, List.nil_subset, and_true] at hps
  simp only [Dev.countBoost, ↓Dev.onPower_besides, ↓Dev.showBoost_besides, List.cons_subset, List.nil_subset, and_true, hps]

theorem Dev.coldReset_besides (cause : Nat) (d : Dev) (hps : [.start, .debug, .positions, .power, .links, .functions, .tenants, .work,
    .channels, .routes, .rings, .items, .shares, .ports, .time, .tables, .contexts, .sets, .storage, .engines, .stream, .retained,
    .registers, .output] ⊆ ps) :
    (Dev.coldReset cause d).besides ps = d.besides ps := by
  simp only [List.cons_subset, List.nil_subset, and_true] at hps
  unfold Dev.coldReset
  dsimp only
  simp only [Dev.besides, hps, if_true]

theorem Dev.thermalRejoin_besides (d : Dev) (hps : [.start, .positions, .power, .routes, .retained, .registers, .output] ⊆ ps) :
    (Dev.thermalRejoin d).besides ps = d.besides ps := by
  simp only [List.cons_subset, List.nil_subset, and_true] at hps
  unfold Dev.thermalRejoin
  split <;> simp only [↓Dev.cardChanged_besides, ↓Dev.onPower_besides, ↓Dev.pwrEvent_besides, ↓Dev.showSatOut_besides,
      ↓Dev.updateHeadroom_besides, ↓Dev.wake_besides, ↓Dev.besides_setPos, ↓Dev.besides_ite, ite_self, List.cons_subset, List.nil_subset,
      and_true, hps]

theorem Dev.thermalStart_besides (d : Dev) (hps : [.start, .positions, .power, .routes, .retained, .registers, .output] ⊆ ps) :
    (Dev.thermalStart d).besides ps = d.besides ps := by
  simp only [List.cons_subset, List.nil_subset, and_true] at hps
  unfold Dev.thermalStart
  split <;> simp only [↓Dev.cardChanged_besides, ↓Dev.onPower_besides, ↓Dev.pwrEvent_besides, ↓Dev.showSatOut_besides,
      ↓Dev.updateHeadroom_besides, ↓Dev.wr_besides, ↓Dev.besides_setPos, List.cons_subset, List.nil_subset, and_true, hps]

theorem Dev.provePosition_besides (p : Nat) (d : Dev) (hps : [.power, .routes, .retained, .registers, .output] ⊆ ps) :
    (Dev.provePosition p d).besides ps = d.besides ps := by
  simp only [List.cons_subset, List.nil_subset, and_true] at hps
  simp only [Dev.provePosition, ↓Dev.onPower_besides, ↓Dev.updateHeadroom_besides, ↓Dev.besides_ite, ite_self, List.cons_subset,
      List.nil_subset, and_true, hps]

theorem Dev.record_besides (e : Err) (d : Dev) (hps : [.routes, .retained, .registers, .output] ⊆ ps) :
    (Dev.record e d).besides ps = d.besides ps := by
  simp only [List.cons_subset, List.nil_subset, and_true] at hps
  simp only [Dev.record, ↓Dev.besides_ite]
  repeat' split
  all_goals simp only [↓Dev.cause_besides, ↓Dev.newRecord_besides, ↓Dev.setLogWord_besides, List.cons_subset, List.nil_subset, and_true, hps]

theorem Dev.compareFetch_besides (d : Dev) (hps : [.links, .routes, .tables, .retained, .registers, .output] ⊆ ps) :
    (Dev.compareFetch d).besides ps = d.besides ps := by
  simp only [List.cons_subset, List.nil_subset, and_true] at hps
  simp only [Dev.compareFetch, ↓Dev.comparePassEnd_besides, ↓Dev.hostRead_besides, ↓Dev.besides_ite, ite_self, List.cons_subset,
      List.nil_subset, and_true, hps]

theorem Dev.rehashWalk_besides (t : Nat) (d : Dev) (hps : [.routes, .tables, .retained, .registers, .output] ⊆ ps) :
    (Dev.rehashWalk t d).besides ps = d.besides ps := by
  simp only [List.cons_subset, List.nil_subset, and_true] at hps
  simp only [Dev.rehashWalk, ↓Dev.cause_besides, ↓Dev.rehashSlot_besides, ↓Dev.wr_besides, ↓Dev.besides_ite, ↓Dev.besides_each, ite_self,
      List.cons_subset, List.nil_subset, and_true, implies_true, hps]

theorem Dev.switchSlot_besides (n dst : Nat) (d : Dev) (hps : [.routes, .time, .retained, .registers, .output] ⊆ ps) :
    (Dev.switchSlot n dst d).besides ps = d.besides ps := by
  simp only [List.cons_subset, List.nil_subset, and_true] at hps
  simp only [Dev.switchSlot, ↓Dev.cause_besides, ↓Dev.onSlot_besides, ↓Dev.showSlot_besides, ↓Dev.slewEnd_besides, ↓Dev.slotFlag_besides,
      ↓Dev.wr_besides, ↓Dev.besides_ite, ite_self, List.cons_subset, List.nil_subset, and_true, hps]

theorem Dev.pinConfig_besides (p v : Nat) (d : Dev) (hps : [.routes, .time, .retained, .registers, .output] ⊆ ps) :
    (Dev.pinConfig p v d).besides ps = d.besides ps := by
  simp only [List.cons_subset, List.nil_subset, and_true] at hps
  simp only [Dev.pinConfig, ↓Dev.intervalEnd_besides, ↓Dev.onTimePin_besides, ↓Dev.setSlotState_besides, ↓Dev.wr_besides, ↓Dev.besides_ite,
      ↓Dev.besides_each, ite_self, List.cons_subset, List.nil_subset, and_true, implies_true, hps]

theorem Dev.perstDeassert_besides (link : Nat) (d : Dev) (hps : [.links, .routes, .retained, .registers, .output] ⊆ ps) :
    (Dev.perstDeassert link d).besides ps = d.besides ps := by
  simp only [List.cons_subset, List.nil_subset, and_true] at hps
  simp only [Dev.perstDeassert, ↓Dev.endLinkReset_besides, ↓Dev.wr_besides, ↓Dev.besides_ite, ite_self, List.cons_subset, List.nil_subset,
      and_true, hps]

theorem Dev.mbxRead_besides (mid c off : Nat) (d : Dev) (hps : [.channels, .routes, .retained, .registers, .output] ⊆ ps) :
    (Dev.mbxRead mid c off d).2.besides ps = d.besides ps := by
  simp only [List.cons_subset, List.nil_subset, and_true] at hps
  unfold Dev.mbxRead
  repeat' split
  all_goals simp only [↓Dev.latchView_besides, ↓Dev.wrongMid_besides, List.cons_subset, List.nil_subset, and_true, hps]

theorem Dev.mbxLatch_besides (mid c : Nat) (d : Dev) (hps : [.channels, .routes, .retained, .registers, .output] ⊆ ps) :
    (Dev.mbxLatch mid c d).besides ps = d.besides ps := by
  simp only [List.cons_subset, List.nil_subset, and_true] at hps
  unfold Dev.mbxLatch
  split <;> simp only [↓Dev.emit_besides, ↓Dev.latchView_besides, ↓Dev.wrongMid_besides, ↓Dev.besides_ite, ite_self, List.cons_subset,
      List.nil_subset, and_true, hps]

theorem Dev.releaseChannels_besides (p t : Nat) (d : Dev) (hps : [.routes, .sets, .retained, .registers, .output] ⊆ ps) :
    (Dev.releaseChannels p t d).besides ps = d.besides ps := by
  simp only [List.cons_subset, List.nil_subset, and_true] at hps
  simp only [Dev.releaseChannels, ↓Dev.onThread_besides, List.cons_subset, List.nil_subset, and_true, hps]
  repeat' split
  all_goals simp only [↓Dev.abandonChan_besides, ↓Dev.onSetChan_besides, ↓Dev.stageEmptied_besides, List.cons_subset, List.nil_subset, and_true, hps]

theorem Dev.endPut_besides (t result : Nat) (d : Dev) (hps : [.routes, .retained, .registers, .output] ⊆ ps) :
    (Dev.endPut t result d).2.besides ps = d.besides ps := by
  simp only [List.cons_subset, List.nil_subset, and_true] at hps
  simp only [Dev.endPut, ↓Dev.insertFailed_besides, ↓Dev.besides_ite, ite_self, List.cons_subset, List.nil_subset, and_true, hps]

theorem Dev.insertNew_besides (t : Nat) (fromLearn : Bool) (e : MtbEntry) (d : Dev) (hps : [.routes, .tables, .retained, .registers, .output] ⊆ ps) :
    (Dev.insertNew t fromLearn e d).2.besides ps = d.besides ps := by
  simp only [List.cons_subset, List.nil_subset, and_true] at hps
  unfold Dev.insertNew
  split <;> simp only [↓Dev.carryOut_besides, ↓Dev.insertFailed_besides, List.cons_subset, List.nil_subset, and_true, hps]

theorem Dev.anchor_besides (k v : Nat) (d : Dev) (hps : [.routes, .time, .retained, .registers, .output] ⊆ ps) :
    (Dev.anchor k v d).besides ps = d.besides ps := by
  simp only [List.cons_subset, List.nil_subset, and_true] at hps
  simp only [Dev.anchor, ↓Dev.checkAlarm_besides, ↓Dev.onDom_besides, ↓Dev.setHoldover_besides, ↓Dev.showAge_besides, ↓Dev.wr_besides,
      List.cons_subset, List.nil_subset, and_true, hps]

theorem Dev.updateUnc_besides (k : Nat) (d : Dev) (hps : [.routes, .time, .retained, .registers, .output] ⊆ ps) :
    (Dev.updateUnc k d).besides ps = d.besides ps := by
  simp only [List.cons_subset, List.nil_subset, and_true] at hps
  simp only [Dev.updateUnc, ↓Dev.checkAlarm_besides, ↓Dev.onDom_besides, List.cons_subset, List.nil_subset, and_true, hps]

theorem Dev.startXfer_besides (x : Xfer) (d : Dev) (hps : [.routes, .engines, .stream, .retained, .registers, .output] ⊆ ps) :
    (Dev.startXfer x d).besides ps = d.besides ps := by
  simp only [List.cons_subset, List.nil_subset, and_true] at hps
  simp only [Dev.startXfer, ↓Dev.dmaHalt_besides, ↓Dev.putXfer_besides, ↓Dev.showXfer_besides, ↓Dev.wr_besides, ↓Dev.wr64_besides,
      ↓Dev.besides_dma, ↓Dev.besides_ite, ite_self, List.cons_subset, List.nil_subset, and_true, hps]

theorem Dev.dmaHaltAll_besides (fn : Nat) (d : Dev) (hps : [.routes, .retained, .registers, .output] ⊆ ps) :
    (Dev.dmaHaltAll fn d).besides ps = d.besides ps := by
  simp only [List.cons_subset, List.nil_subset, and_true] at hps
  simp only [Dev.dmaHaltAll, ↓Dev.dmaHalt_besides, ↓Dev.besides_each, List.cons_subset, List.nil_subset, and_true, implies_true, hps]

theorem Dev.dmaResumeOp_besides (c : Nat) (d : Dev) (hps : [.routes, .retained, .registers, .output] ⊆ ps) :
    (Dev.dmaResumeOp c d).besides ps = d.besides ps := by
  simp only [List.cons_subset, List.nil_subset, and_true] at hps
  simp only [Dev.dmaResumeOp, ↓Dev.dmaHalt_besides, ↓Dev.wr_besides, ↓Dev.besides_ite, ite_self, List.cons_subset, List.nil_subset, and_true, hps]

theorem Dev.arm_besides (n : Nat) (d : Dev) (hps : [.routes, .time, .retained, .registers, .output] ⊆ ps) :
    (Dev.arm n d).besides ps = d.besides ps := by
  simp only [List.cons_subset, List.nil_subset, and_true] at hps
  simp only [Dev.arm, ↓Dev.missPulse_besides, ↓Dev.onSlot_besides, ↓Dev.setSlotState_besides, ↓Dev.showSlot_besides, ↓Dev.wr_besides,
      ↓Dev.besides_ite, ite_self, List.cons_subset, List.nil_subset, and_true, hps]

theorem Dev.slotStepped_besides (k n : Nat) (d : Dev) (hps : [.routes, .time, .retained, .registers, .output] ⊆ ps) :
    (Dev.slotStepped k n d).besides ps = d.besides ps := by
  simp only [List.cons_subset, List.nil_subset, and_true] at hps
  simp only [Dev.slotStepped, ↓Dev.missPulse_besides, ↓Dev.onSlot_besides, ↓Dev.showSlot_besides, ↓Dev.besides_ite, ite_self,
      List.cons_subset, List.nil_subset, and_true, hps]

theorem Dev.discardFrame_besides (m c : Nat) (f : TxFrame) (d : Dev) (hps : [.routes, .rings, .ports, .retained, .registers, .output] ⊆ ps) :
    (Dev.discardFrame m c f d).besides ps = d.besides ps := by
  simp only [List.cons_subset, List.nil_subset, and_true] at hps
  simp only [Dev.discardFrame, ↓Dev.countMac_besides, ↓Dev.finishFrame_besides, ↓Dev.loseStamp_besides, ↓Dev.besides_ite, ite_self,
      List.cons_subset, List.nil_subset, and_true, hps]

theorem Dev.headWrite_besides (fn page slot head : Nat) (arm : Bool) (d : Dev) (hps : [.links, .functions, .routes, .rings, .retained,
    .registers, .output] ⊆ ps) :
    (Dev.headWrite fn page slot head arm d).besides ps = d.besides ps := by
  simp only [List.cons_subset, List.nil_subset, and_true] at hps
  unfold Dev.headWrite
  split
  · simp only
  · split <;> simp only [↓Dev.ignoreDoorbell_besides, ↓Dev.moveHead_besides, ↓Dev.useContext_besides, ↓Dev.besides_ite, ite_self,
        List.cons_subset, List.nil_subset, and_true, hps]

theorem Dev.failItem_besides (i reason : Nat) (d : Dev) (hps : [.routes, .rings, .items, .ports, .retained, .registers, .output] ⊆ ps) :
    (Dev.failItem i reason d).besides ps = d.besides ps := by
  simp only [List.cons_subset, List.nil_subset, and_true] at hps
  unfold Dev.failItem
  split <;> simp only [↓Dev.bump_besides, ↓Dev.cause_besides, ↓Dev.countEpilogue_besides, ↓Dev.countMac_besides, ↓Dev.dropItem_besides,
      ↓Dev.leaveWaiting_besides, ↓Dev.logFailure_besides, ↓Dev.onItem_besides, ↓Dev.releaseHeld_besides, ↓Dev.besides_ite, ite_self,
      List.cons_subset, List.nil_subset, and_true, hps]

theorem Dev.dropLost_besides (f : Nat) (d : Dev) (hps : [.routes, .tables, .retained, .registers, .output] ⊆ ps) :
    (Dev.dropLost f d).besides ps = d.besides ps := by
  simp only [List.cons_subset, List.nil_subset, and_true] at hps
  simp only [Dev.dropLost, ↓Dev.dropOffers_besides, ↓Dev.besides_ite, ite_self, List.cons_subset, List.nil_subset, and_true, hps]

theorem Dev.enterStage_besides (it : Item) (d : Dev) (hps : [.routes, .items, .ports, .retained, .registers, .output] ⊆ ps) :
    (Dev.enterStage it d).besides ps = d.besides ps := by
  simp only [List.cons_subset, List.nil_subset, and_true] at hps
  simp only [Dev.enterStage, ↓Dev.addItem_besides, ↓Dev.bump_besides, ↓Dev.cause_besides, ↓Dev.countRefusal_besides,
      ↓Dev.startJobs_besides, ↓Dev.besides_ite, ite_self, List.cons_subset, List.nil_subset, and_true, hps]

theorem Dev.admitOrRefuse_besides (it : Item) (d : Dev) (hps : [.routes, .rings, .items, .shares, .ports, .retained, .registers, .output] ⊆ ps) :
    (Dev.admitOrRefuse it d).besides ps = d.besides ps := by
  simp only [List.cons_subset, List.nil_subset, and_true] at hps
  unfold Dev.admitOrRefuse
  split
  · simp only [↓Dev.countMac_besides, List.cons_subset, List.nil_subset, and_true, hps]
  · split <;> simp only [↓Dev.acceptFrame_besides, ↓Dev.countRefusal_besides, List.cons_subset, List.nil_subset, and_true, hps]

theorem Dev.sendPosted_besides (fn : Nat) (d : Dev) (hps : [.links, .output] ⊆ ps) :
    (Dev.sendPosted fn d).besides ps = d.besides ps := by
  simp only [List.cons_subset, List.nil_subset, and_true] at hps
  simp only [Dev.sendPosted, ↓Dev.flushPosted_besides, List.cons_subset, List.nil_subset, and_true, hps]

theorem Dev.dmaBurst_besides (c : Nat) (d : Dev) (hps : [.links, .engines, .stream, .retained, .registers, .output] ⊆ ps) :
    (Dev.dmaBurst c d).besides ps = d.besides ps := by
  simp only [List.cons_subset, List.nil_subset, and_true] at hps
  simp only [Dev.dmaBurst]
  split <;> simp only [↓Dev.dmaFetch_besides, ↓Dev.hostRead_besides, ↓Dev.onDma_besides, ↓Dev.readRegion_besides, ↓Dev.wr_besides,
      ↓Dev.besides_ite, ite_self, List.cons_subset, List.nil_subset, and_true, hps]

theorem Dev.landSubmissions_besides (fn q first : Nat) (data : List Byte) (d : Dev) (hps : [.links, .routes, .shares, .storage, .retained,
    .registers, .output] ⊆ ps) :
    (Dev.landSubmissions fn q first data d).besides ps = d.besides ps := by
  simp only [List.cons_subset, List.nil_subset, and_true] at hps
  simp only [Dev.landSubmissions, ↓Dev.debitSq_besides, ↓Dev.fetchSq_besides, ↓Dev.onNvme_besides, ↓Dev.besides_ite, ↓Dev.besides_each,
      ite_self, List.cons_subset, List.nil_subset, and_true, implies_true, hps]

theorem Dev.fetch_besides (r : Nat) (d : Dev) (hps : [.links, .rings, .shares, .retained, .registers, .output] ⊆ ps) :
    (Dev.fetch r d).besides ps = d.besides ps := by
  simp only [List.cons_subset, List.nil_subset, and_true] at hps
  unfold Dev.fetch
  split <;> simp only [↓Dev.issueFetch_besides, ↓Dev.markCapped_besides, ↓Dev.besides_ite, ite_self, List.cons_subset, List.nil_subset, and_true, hps]

theorem Dev.refetch_besides (r : Nat) (d : Dev) (hps : [.links, .rings, .retained, .registers, .output] ⊆ ps) :
    (Dev.refetch r d).besides ps = d.besides ps := by
  simp only [List.cons_subset, List.nil_subset, and_true] at hps
  unfold Dev.refetch
  split <;> simp only [↓Dev.issueFetch_besides, ↓Dev.onRing_besides, ↓Dev.besides_ite, ite_self, List.cons_subset, List.nil_subset, and_true, hps]

theorem Dev.dmaRunAll_besides (fn : Nat) (d : Dev) (hps : [.links, .engines, .retained, .registers, .output] ⊆ ps) :
    (Dev.dmaRunAll fn d).besides ps = d.besides ps := by
  simp only [List.cons_subset, List.nil_subset, and_true] at hps
  simp only [Dev.dmaRunAll]
  refine Dev.besides_each _ _ _ fun a e => ?_
  split <;> simp only [↓Dev.dmaFetch_besides, ↓Dev.dmaPause_besides, ↓Dev.dmaReissue_besides, ↓Dev.wr_besides, ↓Dev.besides_ite,
      ↓Dev.besides_each, ite_self, List.cons_subset, List.nil_subset, and_true, implies_true, hps]

theorem Dev.moverRetry_besides (c : Nat) (d : Dev) (hps : [.links, .routes, .engines, .retained, .registers, .output] ⊆ ps) :
    (Dev.moverRetry c d).besides ps = d.besides ps := by
  simp only [List.cons_subset, List.nil_subset, and_true] at hps
  simp only [Dev.moverRetry, ↓Dev.cause_besides, ↓Dev.dmaReissue_besides, ↓Dev.free_besides, ↓Dev.onDma_besides, ↓Dev.besides_links,
      ↓Dev.besides_ite, ↓Dev.besides_each, ite_self, List.cons_subset, List.nil_subset, and_true, implies_true, hps]

theorem Dev.readSegments_besides (i fn : Nat) (a : Attr) (l : List (Nat × Nat)) (base : Nat) (d : Dev) (hps : [.links, .items, .retained,
    .registers, .output] ⊆ ps) :
    (Dev.readSegments i fn a l base d).besides ps = d.besides ps := by
  simp only [List.cons_subset, List.nil_subset, and_true] at hps
  induction l generalizing base d with
  | nil => rfl
  | cons x l ih => simp only [Dev.readSegments, ih, ↓Dev.hostRead_besides, ↓Dev.onItem_besides, ↓Dev.hostRead_besides, ↓Dev.onItem_besides,
      List.cons_subset, List.nil_subset, and_true, hps]

theorem Dev.classified_besides (it : Item) (d : Dev) (hps : [.tables, .retained, .registers] ⊆ ps) :
    (Dev.classified it d).2.besides ps = d.besides ps := by
  simp only [List.cons_subset, List.nil_subset, and_true] at hps
  simp only [Dev.classified, ↓Dev.chooseAction_besides, List.cons_subset, List.nil_subset, and_true, hps]

theorem Dev.classifyTx_besides (i : Nat) (it : Item) (d : Dev) (hps : [.items, .tables, .retained, .registers] ⊆ ps) :
    (Dev.classifyTx i it d).besides ps = d.besides ps := by
  simp only [List.cons_subset, List.nil_subset, and_true] at hps
  simp only [Dev.classifyTx, ↓Dev.bump_besides, ↓Dev.chooseAction_besides, ↓Dev.onItem_besides, ↓Dev.sourceOk_besides, ↓Dev.besides_ite,
      ite_self, List.cons_subset, List.nil_subset, and_true, hps]

theorem Dev.portStages_besides (m : Nat) (term : Bool) (f : Frame) (d : Dev) (hps : [.tables, .retained, .registers] ⊆ ps) :
    (Dev.portStages m term f d).2.besides ps = d.besides ps := by
  simp only [List.cons_subset, List.nil_subset, and_true] at hps
  simp only [Dev.portStages]
  repeat' split
  all_goals simp only [↓Dev.terminate_besides, List.cons_subset, List.nil_subset, and_true, hps]

theorem Dev.boostTick_besides (d : Dev) (hps : [.power, .routes, .retained, .registers, .output] ⊆ ps) :
    (Dev.boostTick d).besides ps = d.besides ps := by
  simp only [List.cons_subset, List.nil_subset, and_true] at hps
  simp only [Dev.boostTick, ↓Dev.countBoost_besides, ↓Dev.onPower_besides, ↓Dev.besides_ite, ite_self, List.cons_subset, List.nil_subset,
      and_true, hps]

theorem Dev.openBoost_besides (d : Dev) (hps : [.power, .routes, .retained, .registers, .output] ⊆ ps) :
    (Dev.openBoost d).besides ps = d.besides ps := by
  simp only [List.cons_subset, List.nil_subset, and_true] at hps
  simp only [Dev.openBoost, ↓Dev.countBoost_besides, ↓Dev.onPower_besides, ↓Dev.pwrEvent_besides, ↓Dev.wr_besides, ↓Dev.besides_ite,
      ite_self, List.cons_subset, List.nil_subset, and_true, hps]

theorem Dev.sysReset_besides (d : Dev) (hps : [.start, .debug, .positions, .power, .links, .functions, .tenants, .work, .channels, .routes,
    .rings, .items, .shares, .ports, .time, .tables, .contexts, .sets, .storage, .engines, .stream, .retained, .registers, .output] ⊆ ps) :
    (Dev.sysReset d).besides ps = d.besides ps := by
  simp only [List.cons_subset, List.nil_subset, and_true] at hps
  simp only [Dev.sysReset, ↓Dev.coldReset_besides, ↓Dev.releaseTrip_besides, ↓Dev.besides_resetLow, List.cons_subset, List.nil_subset, and_true, hps]

theorem Dev.railFail_besides (d : Dev) (hps : [.start, .debug, .positions, .power, .links, .functions, .tenants, .work, .channels, .routes,
    .rings, .items, .shares, .ports, .time, .tables, .contexts, .sets, .storage, .engines, .stream, .retained, .registers, .output] ⊆ ps) :
    (Dev.railFail d).besides ps = d.besides ps := by
  simp only [List.cons_subset, List.nil_subset, and_true] at hps
  simp only [Dev.railFail, ↓Dev.coldReset_besides, ↓Dev.besides_boot, ↓Dev.besides_railsGood, List.cons_subset, List.nil_subset, and_true, hps]

theorem Dev.thermalSitout_besides (d : Dev) (hps : [.start, .positions, .power, .routes, .retained, .registers, .output] ⊆ ps) :
    (Dev.thermalSitout d).besides ps = d.besides ps := by
  simp only [List.cons_subset, List.nil_subset, and_true] at hps
  simp only [Dev.thermalSitout, ↓Dev.onPower_besides, ↓Dev.thermalStart_besides, ↓Dev.besides_ite, ite_self, List.cons_subset,
      List.nil_subset, and_true, hps]

theorem Dev.retired_besides (i : Nat) (d : Dev) (hps : [.power, .routes, .rings, .items, .tables, .retained, .registers, .output] ⊆ ps) :
    (Dev.retired i d).besides ps = d.besides ps := by
  simp only [List.cons_subset, List.nil_subset, and_true] at hps
  unfold Dev.retired
  split <;> simp only [↓Dev.applyCommit_besides, ↓Dev.countEpilogue_besides, ↓Dev.dropItem_besides, ↓Dev.onRing_besides,
      ↓Dev.provePosition_besides, ↓Dev.besides_ite, ↓Dev.besides_each, ite_self, List.cons_subset, List.nil_subset, and_true, implies_true,
      hps]

theorem Dev.recordSeq_besides (e : Err) (d : Dev) (hps : [.routes, .retained, .registers, .output] ⊆ ps) :
    (Dev.recordSeq e d).2.besides ps = d.besides ps := by
  simp only [List.cons_subset, List.nil_subset, and_true] at hps
  simp only [Dev.recordSeq, ↓Dev.record_besides, List.cons_subset, List.nil_subset, and_true, hps]

theorem Dev.avsDone_besides (r : AvsResult) (d : Dev) (hps : [.power, .routes, .retained, .registers, .output] ⊆ ps) :
    (Dev.avsDone r d).besides ps = d.besides ps := by
  simp only [List.cons_subset, List.nil_subset, and_true] at hps
  simp only [Dev.avsDone]
  split <;> simp only [↓Dev.emit_besides, ↓Dev.onPower_besides, ↓Dev.pwrEvent_besides, ↓Dev.record_besides, ↓Dev.requestVdd_besides,
      ↓Dev.wr_besides, ↓Dev.besides_ite, ite_self, List.cons_subset, List.nil_subset, and_true, hps]

theorem Dev.publishPower_besides (currentMa otherDw : Nat) (d : Dev) (hps : [.power, .routes, .retained, .registers, .output] ⊆ ps) :
    (Dev.publishPower currentMa otherDw d).besides ps = d.besides ps := by
  simp only [List.cons_subset, List.nil_subset, and_true] at hps
  simp only [Dev.publishPower, ↓Dev.checkBoost_besides, ↓Dev.emit_besides, ↓Dev.onPower_besides, ↓Dev.pwrEvent_besides,
      ↓Dev.record_besides, ↓Dev.wr_besides, ↓Dev.besides_ite, ite_self, List.cons_subset, List.nil_subset, and_true, hps]

theorem Dev.eccCorrected_besides (place : EccSite) (d : Dev) (hps : [.functions, .routes, .retained, .registers, .output] ⊆ ps) :
    (Dev.eccCorrected place d).besides ps = d.besides ps := by
  simp only [List.cons_subset, List.nil_subset, and_true] at hps
  unfold Dev.eccCorrected
  split <;> simp only [↓Dev.bump_besides, ↓Dev.cause_besides, ↓Dev.record_besides, ↓Dev.reportAer_besides, List.cons_subset,
      List.nil_subset, and_true, hps]

theorem Dev.measurePace_besides (counts : List Nat) (d : Dev) (hps : [.power, .routes, .retained, .registers, .output] ⊆ ps) :
    (Dev.measurePace counts d).besides ps = d.besides ps := by
  simp only [List.cons_subset, List.nil_subset, and_true] at hps
  simp only [Dev.measurePace, ↓Dev.floorJump_besides, ↓Dev.onPower_besides, ↓Dev.pwrEvent_besides, ↓Dev.record_besides,
      ↓Dev.updateHeadroom_besides, ↓Dev.wr_besides, ↓Dev.besides_ite, ite_self, List.cons_subset, List.nil_subset, and_true, hps]

theorem Dev.failTest_besides (unit inst : Nat) (d : Dev) (hps : [.positions, .routes, .retained, .registers, .output] ⊆ ps) :
    (Dev.failTest unit inst d).besides ps = d.besides ps := by
  simp only [List.cons_subset, List.nil_subset, and_true] at hps
  simp only [Dev.failTest, ↓Dev.cause_besides, ↓Dev.free_besides, ↓Dev.record_besides, ↓Dev.wr_besides, ↓Dev.besides_cores,
      ↓Dev.besides_cryPos, ↓Dev.besides_setPos, ↓Dev.besides_ite, ite_self, List.cons_subset, List.nil_subset, and_true, hps]

theorem Dev.compareStart_besides (d : Dev) (hps : [.links, .routes, .tables, .retained, .registers, .output] ⊆ ps) :
    (Dev.compareStart d).besides ps = d.besides ps := by
  simp only [List.cons_subset, List.nil_subset, and_true] at hps
  simp only [Dev.compareStart, ↓Dev.compareFetch_besides, ↓Dev.onCompare_besides, ↓Dev.wr_besides, ↓Dev.besides_ite, ite_self,
      List.cons_subset, List.nil_subset, and_true, hps]

theorem Dev.compareRegion_besides (t : Nat) (data : List Byte) (d : Dev) (hps : [.links, .routes, .tables, .retained, .registers, .output] ⊆ ps) :
    (Dev.compareRegion t data d).besides ps = d.besides ps := by
  simp only [List.cons_subset, List.nil_subset, and_true] at hps
  simp only [Dev.compareRegion, ↓Dev.compareFetch_besides, ↓Dev.onCompare_besides, ↓Dev.wr_besides, ↓Dev.besides_ite, ite_self,
      List.cons_subset, List.nil_subset, and_true, hps]

theorem Dev.vfChannels_besides (fn off : Nat) (d : Dev) (hps : [.channels, .routes, .retained, .registers, .output] ⊆ ps) :
    (Dev.vfChannels fn off d).2.besides ps = d.besides ps := by
  simp only [List.cons_subset, List.nil_subset, and_true] at hps
  unfold Dev.vfChannels
  split
  · simp only [↓Dev.mbxRead_besides, List.cons_subset, List.nil_subset, and_true, hps]
  · split <;> simp only [↓Dev.mbxRead_besides, List.cons_subset, List.nil_subset, and_true, hps]

theorem Dev.load8_besides (p a : Nat) (d : Dev) (hps : [.channels, .routes, .retained, .registers, .output] ⊆ ps) :
    (Dev.load8 p a d).2.besides ps = d.besides ps := by
  simp only [List.cons_subset, List.nil_subset, and_true] at hps
  unfold Dev.load8
  split
  · split <;> simp only [↓Dev.mbxRead_besides, List.cons_subset, List.nil_subset, and_true, hps]
  · simp only

theorem Dev.readReg_besides (mid unit inst off : Nat) (d : Dev) (hps : [.channels, .routes, .rings, .items, .ports, .time, .tables, .sets,
    .retained, .registers, .output] ⊆ ps) :
    (Dev.readReg mid unit inst off d).2.besides ps = d.besides ps := by
  simp only [List.cons_subset, List.nil_subset, and_true] at hps
  unfold Dev.readReg
  split <;> split <;> simp only [↓Dev.mbxRead_besides, ↓Dev.readLive_besides, List.cons_subset, List.nil_subset, and_true, hps]

theorem Dev.retryPut_besides (t : Nat) (q : Put) (d : Dev) (hps : [.routes, .tables, .retained, .registers, .output] ⊆ ps) :
    (Dev.retryPut t q d).2.besides ps = d.besides ps := by
  simp only [List.cons_subset, List.nil_subset, and_true] at hps
  unfold Dev.retryPut
  repeat' split
  all_goals simp only [↓Dev.endPut_besides, ↓Dev.putNow_besides, List.cons_subset, List.nil_subset, and_true, hps]

theorem Dev.startPut_besides (p t : Nat) (op : PutOp) (d : Dev) (hps : [.routes, .tables, .retained, .registers, .output] ⊆ ps) :
    (Dev.startPut p t op d).2.besides ps = d.besides ps := by
  simp only [List.cons_subset, List.nil_subset, and_true] at hps
  simp only [Dev.startPut]
  repeat' split
  all_goals simp only [↓Dev.endPut_besides, ↓Dev.free_besides, ↓Dev.putNow_besides, List.cons_subset, List.nil_subset, and_true, hps]

theorem Dev.putSources_besides (fn : Nat) (p : VfProps) (d : Dev) (hps : [.routes, .tables, .retained, .registers, .output] ⊆ ps) :
    (Dev.putSources fn p d).2.besides ps = d.besides ps := by
  simp only [List.cons_subset, List.nil_subset, and_true] at hps
  have hfold (l : List Nat) (x : Bool × Dev) : (l.foldl (fun x mac =>
      let r := x.2.insertNew 2 false (sourceEntry fn mac p)
      (x.1 && r.1, r.2)) x).2.besides ps = x.2.besides ps := by
    induction l generalizing x with
    | nil => rfl
    | cons mac l ih => simp only [List.foldl_cons, ih, ↓Dev.insertNew_besides, List.cons_subset, List.nil_subset, and_true, hps]
  unfold Dev.putSources
  split
  · rfl
  · rw [hfold]
    simp only [↓Dev.dropSources_besides, List.cons_subset, List.nil_subset, and_true, hps]

theorem Dev.sourceChanged_besides (d : Dev) (hps : [.routes, .time, .retained, .registers, .output] ⊆ ps) :
    (Dev.sourceChanged d).besides ps = d.besides ps := by
  simp only [List.cons_subset, List.nil_subset, and_true] at hps
  simp only [Dev.sourceChanged, ↓Dev.onDom_besides, ↓Dev.updateUnc_besides, List.cons_subset, List.nil_subset, and_true, hps]

theorem Dev.slotCommand_besides (n v : Nat) (d : Dev) (hps : [.routes, .time, .retained, .registers, .output] ⊆ ps) :
    (Dev.slotCommand n v d).besides ps = d.besides ps := by
  simp only [List.cons_subset, List.nil_subset, and_true] at hps
  simp only [Dev.slotCommand, ↓Dev.arm_besides, ↓Dev.disarm_besides, ↓Dev.switchSlot_besides, ↓Dev.besides_ite, ite_self, List.cons_subset,
      List.nil_subset, and_true, hps]

theorem Dev.stepDomain_besides (k v : Nat) (d : Dev) (hps : [.routes, .time, .retained, .registers, .output] ⊆ ps) :
    (Dev.stepDomain k v d).besides ps = d.besides ps := by
  simp only [List.cons_subset, List.nil_subset, and_true] at hps
  simp only [Dev.stepDomain, ↓Dev.cause_besides, ↓Dev.onDom_besides, ↓Dev.slotStepped_besides, ↓Dev.besides_each, List.cons_subset,
      List.nil_subset, and_true, implies_true, hps]

theorem Dev.enterFifo_besides (m : Nat) (f : TxFrame) (d : Dev) (hps : [.routes, .rings, .ports, .retained, .registers, .output] ⊆ ps) :
    (Dev.enterFifo m f d).besides ps = d.besides ps := by
  simp only [List.cons_subset, List.nil_subset, and_true] at hps
  simp only [Dev.enterFifo, ↓Dev.discardFrame_besides, ↓Dev.onMac_besides, ↓Dev.wakeMac_besides, ↓Dev.besides_ite, ite_self,
      List.cons_subset, List.nil_subset, and_true, hps]

theorem Dev.instDown_besides (m : Nat) (d : Dev) (hps : [.routes, .rings, .ports, .retained, .registers, .output] ⊆ ps) :
    (Dev.instDown m d).besides ps = d.besides ps := by
  simp only [List.cons_subset, List.nil_subset, and_true] at hps
  simp only [Dev.instDown, ↓Dev.discardFrame_besides, ↓Dev.onMac_besides, ↓Dev.setPaused_besides, ↓Dev.wr_besides, ↓Dev.besides_each,
      List.cons_subset, List.nil_subset, and_true, implies_true, hps]

theorem Dev.enterLaunch_besides (m : Nat) (f : TxFrame) (d : Dev) (hps : [.routes, .rings, .ports, .retained, .registers, .output] ⊆ ps) :
    (Dev.enterLaunch m f d).besides ps = d.besides ps := by
  simp only [List.cons_subset, List.nil_subset, and_true] at hps
  simp only [Dev.enterLaunch, ↓Dev.discardFrame_besides, ↓Dev.onMac_besides, ↓Dev.wakeMac_besides, ↓Dev.besides_ite, ite_self,
      List.cons_subset, List.nil_subset, and_true, hps]

theorem Dev.stormDiscard_besides (m cls : Nat) (d : Dev) (hps : [.routes, .rings, .ports, .retained, .registers, .output] ⊆ ps) :
    (Dev.stormDiscard m cls d).besides ps = d.besides ps := by
  simp only [List.cons_subset, List.nil_subset, and_true] at hps
  simp only [Dev.stormDiscard, ↓Dev.discardFrame_besides, ↓Dev.onMac_besides, ↓Dev.besides_each, List.cons_subset, List.nil_subset,
      and_true, implies_true, hps]

theorem Dev.threadFault_besides (p t code : Nat) (d : Dev) (hps : [.routes, .rings, .items, .ports, .sets, .retained, .registers, .output] ⊆ ps) :
    (Dev.threadFault p t code d).besides ps = d.besides ps := by
  simp only [List.cons_subset, List.nil_subset, and_true] at hps
  simp only [Dev.threadFault, ↓Dev.bump_besides, ↓Dev.cause_besides, ↓Dev.onThread_besides, ↓Dev.pushFault_besides, List.cons_subset,
      List.nil_subset, and_true, hps]
  split <;> simp only [↓Dev.failItem_besides, ↓Dev.releaseChannels_besides, List.cons_subset, List.nil_subset, and_true, hps]

theorem Dev.recall_besides (i : Nat) (d : Dev) (hps : [.links, .routes, .rings, .items, .ports, .retained, .registers, .output] ⊆ ps) :
    (Dev.recall i d).besides ps = d.besides ps := by
  simp only [List.cons_subset, List.nil_subset, and_true] at hps
  unfold Dev.recall
  split <;> simp only [↓Dev.failItem_besides, ↓Dev.forgetReads_besides, ↓Dev.onItem_besides, ↓Dev.restartItem_besides, ↓Dev.besides_ite,
      ite_self, List.cons_subset, List.nil_subset, and_true, hps]

theorem Dev.admitItem_besides (it : Item) (d : Dev) (hps : [.routes, .rings, .items, .shares, .ports, .retained, .registers, .output] ⊆ ps) :
    (Dev.admitItem it d).besides ps = d.besides ps := by
  simp only [List.cons_subset, List.nil_subset, and_true] at hps
  simp only [Dev.admitItem, ↓Dev.admitOrRefuse_besides, ↓Dev.enterRxFifo_besides, ↓Dev.besides_ite, ite_self, List.cons_subset,
      List.nil_subset, and_true, hps]

theorem Dev.translationDone_besides (fn : Nat) (pasid : Option Nat) (page : Nat) (e : Option AtcEntry) (d : Dev) (hps : [.links, .output] ⊆ ps) :
    (Dev.translationDone fn pasid page e d).besides ps = d.besides ps := by
  simp only [List.cons_subset, List.nil_subset, and_true] at hps
  simp only [Dev.translationDone, ↓Dev.onLink_besides, ↓Dev.pump_besides, ↓Dev.sendPosted_besides, List.cons_subset, List.nil_subset, and_true, hps]

theorem Dev.writePiece_besides (fn addr : Nat) (data : List Byte) (a : Attr) (d : Dev) (hps : [.links, .output] ⊆ ps) :
    (Dev.writePiece fn addr data a d).besides ps = d.besides ps := by
  simp only [List.cons_subset, List.nil_subset, and_true] at hps
  unfold Dev.writePiece
  split <;> simp only [↓Dev.emit_besides, ↓Dev.onLink_besides, ↓Dev.sendPosted_besides, ↓Dev.besides_ite, ite_self, List.cons_subset,
      List.nil_subset, and_true, hps]

theorem Dev.barStart_besides (d : Dev) (hps : [.links, .routes, .rings, .shares, .storage, .retained, .registers, .output] ⊆ ps) :
    (Dev.barStart d).besides ps = d.besides ps := by
  simp only [List.cons_subset, List.nil_subset, and_true] at hps
  have hsqs (l : List Nat) (a : Dev) : (Dev.each l (fun fn d => Dev.each (d.nvme fn).sqs.keys (Dev.fetchSq fn) d) a).besides ps =
      a.besides ps :=
    Dev.besides_each _ _ _ fun fn e => by simp only [↓Dev.fetchSq_besides, ↓Dev.besides_each, List.cons_subset, List.nil_subset, and_true,
        implies_true, hps]
  simp only [Dev.barStart, hsqs, ↓Dev.bump_besides, ↓Dev.creditLeaf_besides, ↓Dev.fetch_besides, ↓Dev.wr_besides, ↓Dev.wr64_besides,
      ↓Dev.besides_sched, ↓Dev.besides_each, ↓Dev.besides_when, List.cons_subset, List.nil_subset, and_true, implies_true, hps]

theorem Dev.admitWaiting_besides (m cls : Nat) (d : Dev) (hps : [.routes, .rings, .items, .shares, .ports, .tables, .retained, .registers,
    .output] ⊆ ps) :
    (Dev.admitWaiting m cls d).besides ps = d.besides ps := by
  simp only [List.cons_subset, List.nil_subset, and_true] at hps
  unfold Dev.admitWaiting
  split
  · rfl
  · split
    · next heq => simp only [↓Dev.checkXon_besides, ↓Dev.countRefusal_besides, ↓Dev.onMac_besides, ↓Dev.portStages_besides,
          List.cons_subset, List.nil_subset, and_true, hps, Dev.besides_of_snd heq]
    · next heq => simp only [↓Dev.admitOrRefuse_besides, ↓Dev.checkXon_besides, ↓Dev.classified_besides, ↓Dev.onMac_besides,
          ↓Dev.portStages_besides, ↓Dev.besides_ite, ite_self, List.cons_subset, List.nil_subset, and_true, hps, Dev.besides_of_snd heq]

theorem Dev.preStage_besides (m : Nat) (f : Frame) (stamp : Stamp) (since : Int) (d : Dev) (hps : [.routes, .ports, .tables, .retained,
    .registers, .output] ⊆ ps) :
    (Dev.preStage m f stamp since d).2.besides ps = d.besides ps := by
  simp only [List.cons_subset, List.nil_subset, and_true] at hps
  simp only [Dev.preStage]
  repeat' split
  all_goals simp only [↓Dev.bump_besides, ↓Dev.countMac_besides, ↓Dev.countRefusal_besides, ↓Dev.inboundSa_besides,
      ↓Dev.portStages_besides, ↓Dev.besides_when, List.cons_subset, List.nil_subset, and_true, implies_true, hps,
      Dev.besides_of_snd ‹_ = (_, _)›]

theorem Dev.governorTick_besides (d : Dev) (hps : [.power, .routes, .retained, .registers, .output] ⊆ ps) :
    (Dev.governorTick d).besides ps = d.besides ps := by
  simp only [List.cons_subset, List.nil_subset, and_true] at hps
  simp only [Dev.governorTick, ↓Dev.boostTick_besides, ↓Dev.checkBoost_besides, ↓Dev.onPower_besides, ↓Dev.openBoost_besides,
      ↓Dev.pwrEvent_besides, ↓Dev.requestVdd_besides, ↓Dev.besides_ite, ite_self, List.cons_subset, List.nil_subset, and_true, hps]

theorem Dev.afterReplay_besides (d : Dev) (hps : [.start, .positions, .power, .routes, .retained, .registers, .output] ⊆ ps) :
    (Dev.afterReplay d).besides ps = d.besides ps := by
  simp only [List.cons_subset, List.nil_subset, and_true] at hps
  simp only [Dev.afterReplay, ↓Dev.graceStart_besides, ↓Dev.onPower_besides, ↓Dev.thermalSitout_besides, ↓Dev.besides_ite,
      ↓Dev.besides_each, ite_self, List.cons_subset, List.nil_subset, and_true, implies_true, hps]

theorem Dev.cryFault_besides (p code : Nat) (d : Dev) (hps : [.start, .positions, .routes, .items, .retained, .registers, .output] ⊆ ps) :
    (Dev.cryFault p code d).besides ps = d.besides ps := by
  simp only [List.cons_subset, List.nil_subset, and_true] at hps
  simp only [Dev.cryFault, ↓Dev.cardChanged_besides, ↓Dev.cause_besides, ↓Dev.finishRecord_besides, ↓Dev.leaveCry_besides,
      ↓Dev.putCry_besides, ↓Dev.recordSeq_besides, ↓Dev.besides_ite, ite_self, List.cons_subset, List.nil_subset, and_true, hps]

theorem Dev.moverFault_besides (m : Nat) (d : Dev) (hps : [.power, .links, .routes, .engines, .retained, .registers, .output] ⊆ ps) :
    (Dev.moverFault m d).besides ps = d.besides ps := by
  simp only [List.cons_subset, List.nil_subset, and_true] at hps
  simp only [Dev.moverFault, ↓Dev.finishRecord_besides, ↓Dev.moverRetry_besides, ↓Dev.recordSeq_besides, ↓Dev.besides_movers,
      ↓Dev.besides_ite, ↓Dev.besides_each, ite_self, List.cons_subset, List.nil_subset, and_true, implies_true, hps]

theorem Dev.vfWord_besides (fn off : Nat) (d : Dev) (hps : [.channels, .routes, .time, .retained, .registers, .output] ⊆ ps) :
    (Dev.vfWord fn off d).2.besides ps = d.besides ps := by
  simp only [List.cons_subset, List.nil_subset, and_true] at hps
  simp only [Dev.vfWord]
  repeat' split
  all_goals simp only [↓Dev.vfChannels_besides, ↓Dev.vfTempo_besides, List.cons_subset, List.nil_subset, and_true, hps]

theorem Dev.portDone_besides (p : Nat) (d : Dev) (hps : [.routes, .tables, .retained, .registers, .output] ⊆ ps) :
    (Dev.portDone p d).besides ps = d.besides ps := by
  simp only [List.cons_subset, List.nil_subset, and_true] at hps
  unfold Dev.portDone
  split
  · simp only
  · split <;> simp only [↓Dev.onMtb_besides, ↓Dev.postRun_besides, ↓Dev.retryPut_besides, ↓Dev.besides_ite, ite_self, List.cons_subset,
        List.nil_subset, and_true, hps]

theorem Dev.mtbCommand_besides (mid p v : Nat) (d : Dev) (hps : [.routes, .tables, .retained, .registers, .output] ⊆ ps) :
    (Dev.mtbCommand mid p v d).besides ps = d.besides ps := by
  simp only [List.cons_subset, List.nil_subset, and_true] at hps
  unfold Dev.mtbCommand
  split <;> simp only [↓Dev.mtbDirectGet_besides, ↓Dev.mtbDirectPut_besides, ↓Dev.mtbStageOp_besides, ↓Dev.prefixAdd_besides,
      ↓Dev.prefixDelete_besides, ↓Dev.runPort_besides, ↓Dev.startPut_besides, ↓Dev.ternaryGet_besides, ↓Dev.ternaryPut_besides,
      List.cons_subset, List.nil_subset, and_true, implies_true, hps, ↓Dev.runPort_onTable_besides, Dev.mtbRead_snd, Dev.mtbSearch_snd,
      Dev.prefixSearch_snd]

theorem Dev.domainSet_besides (k : Nat) (d : Dev) (hps : [.routes, .time, .retained, .registers, .output] ⊆ ps) :
    (Dev.domainSet k d).besides ps = d.besides ps := by
  simp only [List.cons_subset, List.nil_subset, and_true] at hps
  simp only [Dev.domainSet, ↓Dev.stepDomain_besides, ↓Dev.wr_besides, ↓Dev.besides_ite, ite_self, List.cons_subset, List.nil_subset, and_true, hps]

theorem Dev.domainAdd_besides (k : Nat) (d : Dev) (hps : [.routes, .time, .retained, .registers, .output] ⊆ ps) :
    (Dev.domainAdd k d).besides ps = d.besides ps := by
  simp only [List.cons_subset, List.nil_subset, and_true] at hps
  simp only [Dev.domainAdd, ↓Dev.stepDomain_besides, ↓Dev.besides_ite, ite_self, List.cons_subset, List.nil_subset, and_true, hps]

theorem Dev.flexeSwitch_besides (p : Nat) (d : Dev) (hps : [.routes, .rings, .ports, .retained, .registers, .output] ⊆ ps) :
    (Dev.flexeSwitch p d).besides ps = d.besides ps := by
  simp only [List.cons_subset, List.nil_subset, and_true] at hps
  simp only [Dev.flexeSwitch, ↓Dev.cause_besides, ↓Dev.instDown_besides, ↓Dev.wr_besides, ↓Dev.besides_ite, ↓Dev.besides_each, ite_self,
      List.cons_subset, List.nil_subset, and_true, implies_true, hps]

theorem Dev.portDown_besides (p : Nat) (cut : List Nat) (d : Dev) (hps : [.routes, .rings, .ports, .retained, .registers, .output] ⊆ ps) :
    (Dev.portDown p cut d).besides ps = d.besides ps := by
  simp only [List.cons_subset, List.nil_subset, and_true] at hps
  simp only [Dev.portDown, ↓Dev.cause_besides, ↓Dev.countMac_besides, ↓Dev.instDown_besides, ↓Dev.wr_besides, ↓Dev.besides_ite,
      ↓Dev.besides_each, ite_self, List.cons_subset, List.nil_subset, and_true, implies_true, hps]

theorem Dev.enterLine_besides (m : Nat) (first : TxFrame) (l : List (Frame × Bool)) (d : Dev) (hps : [.routes, .rings, .ports, .retained,
    .registers, .output] ⊆ ps) :
    (Dev.enterLine m first l d).besides ps = d.besides ps := by
  simp only [List.cons_subset, List.nil_subset, and_true] at hps
  simp only [Dev.enterLine, ↓Dev.enterFifo_besides, ↓Dev.enterLaunch_besides, ↓Dev.besides_ite, ↓Dev.besides_each, ite_self,
      List.cons_subset, List.nil_subset, and_true, implies_true, hps]

theorem Dev.storm_besides (m cls : Nat) (d : Dev) (hps : [.routes, .rings, .ports, .retained, .registers, .output] ⊆ ps) :
    (Dev.storm m cls d).besides ps = d.besides ps := by
  simp only [List.cons_subset, List.nil_subset, and_true] at hps
  simp only [Dev.storm, ↓Dev.cause_besides, ↓Dev.setPaused_besides, ↓Dev.stormDiscard_besides, ↓Dev.wr_besides, ↓Dev.besides_ite, ite_self,
      List.cons_subset, List.nil_subset, and_true, hps]

theorem Dev.takeEvent_besides (p t : Nat) (d : Dev) (hps : [.routes, .rings, .items, .ports, .sets, .retained, .registers, .output] ⊆ ps) :
    (Dev.takeEvent p t d).besides ps = d.besides ps := by
  simp only [List.cons_subset, List.nil_subset, and_true] at hps
  simp only [Dev.takeEvent, ↓Dev.cause_besides, ↓Dev.onThread_besides, ↓Dev.threadFault_besides, ↓Dev.besides_ite, ite_self,
      List.cons_subset, List.nil_subset, and_true, hps]

theorem Dev.commit_besides (p t : Nat) (c : Commit) (_w : Microword) (th : Thread) (d : Dev) (hps : [.routes, .rings, .items, .ports,
    .sets, .retained, .registers, .output] ⊆ ps) :
    (Dev.commit p t c _w th d).besides ps = d.besides ps := by
  simp only [List.cons_subset, List.nil_subset, and_true] at hps
  unfold Dev.commit
  split <;> simp only [↓Dev.onItem_besides, ↓Dev.request_besides, ↓Dev.threadFault_besides, ↓Dev.besides_ite, ite_self, List.cons_subset,
      List.nil_subset, and_true, hps]

theorem Dev.replay_besides (p trigger : Nat) (taken : Bool) (d : Dev) (hps : [.links, .routes, .rings, .items, .ports, .sets, .retained,
    .registers, .output] ⊆ ps) :
    (Dev.replay p trigger taken d).besides ps = d.besides ps := by
  simp only [List.cons_subset, List.nil_subset, and_true] at hps
  simp only [Dev.replay, ↓Dev.bump_besides, ↓Dev.cause_besides, ↓Dev.recall_besides, ↓Dev.redeliverItem_besides, ↓Dev.wr_besides,
      ↓Dev.wr64_besides, ↓Dev.besides_replays, ↓Dev.besides_ite, ↓Dev.besides_each, ite_self, List.cons_subset, List.nil_subset, and_true,
      implies_true, hps]

theorem Dev.classifyRx_besides (it : Item) (d : Dev) (hps : [.routes, .rings, .items, .shares, .ports, .tables, .retained, .registers,
    .output] ⊆ ps) :
    (Dev.classifyRx it d).besides ps = d.besides ps := by
  simp only [List.cons_subset, List.nil_subset, and_true] at hps
  simp only [Dev.classifyRx, ↓Dev.admitItem_besides, ↓Dev.classified_besides, List.cons_subset, List.nil_subset, and_true, hps]

theorem Dev.hostWrite_besides (fn addr : Nat) (data : List Byte) (a : Attr) (d : Dev) (hps : [.links, .retained, .registers, .output] ⊆ ps) :
    (Dev.hostWrite fn addr data a d).besides ps = d.besides ps := by
  simp only [List.cons_subset, List.nil_subset, and_true] at hps
  simp only [Dev.hostWrite, ↓Dev.leaveL1_besides, ↓Dev.writePiece_besides, ↓Dev.besides_each, List.cons_subset, List.nil_subset, and_true,
      implies_true, hps]

theorem Dev.replayEnd_besides (p stallNs : Nat) (d : Dev) (hps : [.start, .positions, .power, .routes, .items, .retained, .registers, .output] ⊆ ps) :
    (Dev.replayEnd p stallNs d).besides ps = d.besides ps := by
  simp only [List.cons_subset, List.nil_subset, and_true] at hps
  unfold Dev.replayEnd
  split <;> simp only [↓Dev.afterReplay_besides, ↓Dev.cause_besides, ↓Dev.wr_besides, ↓Dev.besides_replays, ↓Dev.besides_ite, ite_self,
      List.cons_subset, List.nil_subset, and_true, hps]

theorem Dev.barWord_besides (fn : Nat) (a : BarAddr) (d : Dev) (hps : [.channels, .routes, .rings, .items, .ports, .time, .tables, .sets,
    .retained, .registers, .output] ⊆ ps) :
    (Dev.barWord fn a d).2.besides ps = d.besides ps := by
  simp only [List.cons_subset, List.nil_subset, and_true] at hps
  unfold Dev.barWord
  repeat' split
  all_goals simp only [↓Dev.readReg_besides, ↓Dev.vfWord_besides, List.cons_subset, List.nil_subset, and_true, hps]

theorem Dev.writeMtb_besides (mid off v : Nat) (d : Dev) (hps : [.links, .routes, .tables, .retained, .registers, .output] ⊆ ps) :
    (Dev.writeMtb mid off v d).besides ps = d.besides ps := by
  simp only [List.cons_subset, List.nil_subset, and_true] at hps
  simp only [Dev.writeMtb, ↓Dev.bump_besides, ↓Dev.cause_besides, ↓Dev.compareStart_besides, ↓Dev.mtbCommand_besides,
      ↓Dev.plainWrite_besides, ↓Dev.rehashResume_besides, ↓Dev.rehashStart_besides, ↓Dev.besides_ite, ite_self, List.cons_subset,
      List.nil_subset, and_true, hps]

theorem Dev.domainCommand_besides (k op : Nat) (d : Dev) (hps : [.routes, .time, .retained, .registers, .output] ⊆ ps) :
    (Dev.domainCommand k op d).besides ps = d.besides ps := by
  simp only [List.cons_subset, List.nil_subset, and_true] at hps
  simp only [Dev.domainCommand, ↓Dev.domainAdd_besides, ↓Dev.domainSet_besides, ↓Dev.besides_ite, ite_self, List.cons_subset,
      List.nil_subset, and_true, hps]

theorem Dev.reformPort_besides (old new : Image) (p : Nat) (d : Dev) (hps : [.power, .routes, .rings, .ports, .retained, .registers, .output] ⊆ ps) :
    (Dev.reformPort old new p d).besides ps = d.besides ps := by
  simp only [List.cons_subset, List.nil_subset, and_true] at hps
  unfold Dev.reformPort
  split <;> split <;> simp only [↓Dev.applyPorts_besides, ↓Dev.portDown_besides, ↓Dev.wake_besides, ↓Dev.wr_besides, ↓Dev.besides_each,
      List.cons_subset, List.nil_subset, and_true, implies_true, hps]

theorem Dev.goTo_besides (p t pc : Nat) (w : Microword) (d : Dev) (hps : [.routes, .rings, .items, .ports, .sets, .retained, .registers,
    .output] ⊆ ps) :
    (Dev.goTo p t pc w d).besides ps = d.besides ps := by
  simp only [List.cons_subset, List.nil_subset, and_true] at hps
  simp only [Dev.goTo, ↓Dev.onThread_besides, ↓Dev.takeEvent_besides, ↓Dev.threadFault_besides, ↓Dev.besides_ite, ite_self,
      List.cons_subset, List.nil_subset, and_true, hps]

theorem Dev.dbgStop_besides (p t : Nat) (d : Dev) (hps : [.routes, .rings, .items, .ports, .sets, .retained, .registers, .output] ⊆ ps) :
    (Dev.dbgStop p t d).besides ps = d.besides ps := by
  simp only [List.cons_subset, List.nil_subset, and_true] at hps
  simp only [Dev.dbgStop, ↓Dev.onThread_besides, ↓Dev.takeEvent_besides, ↓Dev.besides_ite, ite_self, List.cons_subset, List.nil_subset, and_true, hps]

theorem Dev.endWait_besides (p t : Nat) (timedOut broken : Bool) (d : Dev) (hps : [.routes, .rings, .items, .ports, .sets, .retained,
    .registers, .output] ⊆ ps) :
    (Dev.endWait p t timedOut broken d).besides ps = d.besides ps := by
  simp only [List.cons_subset, List.nil_subset, and_true] at hps
  unfold Dev.endWait
  split
  · simp only
  · split <;> simp only [↓Dev.makeReady_besides, ↓Dev.onSetChan_besides, ↓Dev.onThread_besides, ↓Dev.takeEvent_besides, ↓Dev.besides_ite,
        ite_self, List.cons_subset, List.nil_subset, and_true, hps]

theorem Dev.endPass_besides (p t : Nat) (_w : Microword) (th : Thread) (d : Dev) (hps : [.routes, .rings, .items, .ports, .sets, .retained,
    .registers, .output] ⊆ ps) :
    (Dev.endPass p t _w th d).besides ps = d.besides ps := by
  simp only [List.cons_subset, List.nil_subset, and_true] at hps
  unfold Dev.endPass
  split
  · simp only [↓Dev.threadFault_besides, List.cons_subset, List.nil_subset, and_true, hps]
  · split <;> simp only [↓Dev.holdTemplate_besides, ↓Dev.onItem_besides, ↓Dev.onThread_besides, ↓Dev.takeEvent_besides, ↓Dev.wr64_besides,
        List.cons_subset, List.nil_subset, and_true, hps]

theorem Dev.ingress_besides (m : Nat) (f : Frame) (stamp : Stamp) (since : Int) (d : Dev) (hps : [.routes, .rings, .items, .shares, .ports,
    .tables, .retained, .registers, .output] ⊆ ps) :
    (Dev.ingress m f stamp since d).besides ps = d.besides ps := by
  simp only [List.cons_subset, List.nil_subset, and_true] at hps
  simp only [Dev.ingress]
  split
  all_goals simp only [↓Dev.classifyRx_besides, ↓Dev.enterStage_besides, ↓Dev.preStage_besides, ↓Dev.besides_ite, ite_self,
      List.cons_subset, List.nil_subset, and_true, hps, Dev.besides_of_snd ‹_ = (_, _)›]

theorem Dev.putBurst_besides {c : Nat} {x y : DmaDesc} {b : Burst} {data : List Byte} {d e : Dev} (hps : [.links, .tables, .engines,
    .stream, .retained, .registers, .output] ⊆ ps)
    (h : Dev.putBurst c x b data d = some (y, e)) : e.besides ps = d.besides ps := by
  simp only [List.cons_subset, List.nil_subset, and_true] at hps
  unfold Dev.putBurst at h
  dsimp only at h
  split at h
  · cases h
    simp only [↓Dev.hostWrite_besides, List.cons_subset, List.nil_subset, and_true, hps]
  · split at h
    · obtain ⟨e', he, hy⟩ := Option.map_eq_some_iff.1 h
      cases hy
      exact Dev.writeRegion_besides (by simp only [List.cons_subset, List.nil_subset, and_true, hps]) he
    · obtain ⟨e', he, hy⟩ := Option.map_eq_some_iff.1 h
      cases hy
      exact Dev.putEntries_besides (by simp only [List.cons_subset, List.nil_subset, and_true, hps]) he

theorem Dev.writeDone_besides (c : Nat) (x : DmaDesc) (code : Nat) (d : Dev) (hps : [.links, .engines, .stream, .retained, .registers,
    .output] ⊆ ps) :
    (Dev.writeDone c x code d).besides ps = d.besides ps := by
  simp only [List.cons_subset, List.nil_subset, and_true] at hps
  unfold Dev.writeDone
  split
  · cases hw : Dev.writeRegion (x.addr + 0x14) (leBytes (1 + 2 * code) 4) d with
    | none => simp only [hw, Option.getD_none]
    | some e => simp only [hw, Option.getD_some, Dev.writeRegion_besides (h := hw), List.cons_subset, List.nil_subset, and_true, hps]
  · simp only [↓Dev.hostWrite_besides, ↓Dev.besides_ite, ite_self, List.cons_subset, List.nil_subset, and_true, hps]

theorem Dev.placeAt_besides (fn : Nat) (segs : List (Nat × Nat)) (off : Nat) (data : List Byte) (d : Dev) (hps : [.links, .retained,
    .registers, .output] ⊆ ps) :
    (Dev.placeAt fn segs off data d).besides ps = d.besides ps := by
  simp only [List.cons_subset, List.nil_subset, and_true] at hps
  simp only [Dev.placeAt, ↓Dev.hostWrite_besides, ↓Dev.besides_each, List.cons_subset, List.nil_subset, and_true, implies_true, hps]

theorem Dev.postOwed_besides (fn : Nat) (d : Dev) (hps : [.links, .functions, .storage, .retained, .registers, .output] ⊆ ps) :
    (Dev.postOwed fn d).besides ps = d.besides ps := by
  simp only [List.cons_subset, List.nil_subset, and_true] at hps
  simp only [Dev.postOwed]
  repeat' split
  all_goals simp only [↓Dev.hostWrite_besides, ↓Dev.onNvme_besides, ↓Dev.sendVector_besides, List.cons_subset, List.nil_subset, and_true, hps]

theorem Dev.writeOwed_besides (r : Nat) (d : Dev) (hps : [.links, .functions, .rings, .retained, .registers, .output] ⊆ ps) :
    (Dev.writeOwed r d).besides ps = d.besides ps := by
  simp only [List.cons_subset, List.nil_subset, and_true] at hps
  unfold Dev.writeOwed
  split
  · simp only
  · split <;> simp only [↓Dev.advanceCpl_besides, ↓Dev.hostWrite_besides, ↓Dev.onRing_besides, ↓Dev.useContext_besides, ↓Dev.besides_ite,
        ite_self, List.cons_subset, List.nil_subset, and_true, hps]

theorem Dev.barBytes_besides (fn : Nat) (a : BarAddr) (len : Nat) (d : Dev) (hps : [.channels, .routes, .rings, .items, .ports, .time,
    .tables, .sets, .retained, .registers, .output] ⊆ ps) :
    (Dev.barBytes fn a len d).2.besides ps = d.besides ps := by
  simp only [List.cons_subset, List.nil_subset, and_true] at hps
  have hfold (l : List Nat) (x : List Byte × Dev) : (l.foldl (fun (x : List Byte × Dev) k =>
      let w := x.2.barWord fn (barAddrWord a k)
      (x.1 ++ leBytes w.1 4, w.2)) x).2.besides ps = x.2.besides ps := by
    induction l generalizing x with
    | nil => rfl
    | cons k l ih => simp only [List.foldl_cons, ih, ↓Dev.barWord_besides, List.cons_subset, List.nil_subset, and_true, hps]
  simp only [Dev.barBytes, hfold]

theorem Dev.writeTmp_besides (off v : Nat) (d : Dev) (hps : [.routes, .time, .retained, .registers, .output] ⊆ ps) :
    (Dev.writeTmp off v d).besides ps = d.besides ps := by
  simp only [List.cons_subset, List.nil_subset, and_true] at hps
  simp only [Dev.writeTmp, ↓Dev.anchor_besides, ↓Dev.commitInc_besides, ↓Dev.domainCommand_besides, ↓Dev.pinConfig_besides,
      ↓Dev.plainWrite_besides, ↓Dev.slotCommand_besides, ↓Dev.snapshotTime_besides, ↓Dev.besides_ite, ite_self, List.cons_subset,
      List.nil_subset, and_true, hps]

theorem Dev.callTo_besides (p t : Nat) (w : Microword) (th : Thread) (d : Dev) (hps : [.routes, .rings, .items, .ports, .sets, .retained,
    .registers, .output] ⊆ ps) :
    (Dev.callTo p t w th d).besides ps = d.besides ps := by
  simp only [List.cons_subset, List.nil_subset, and_true] at hps
  simp only [Dev.callTo, ↓Dev.goTo_besides, ↓Dev.onThread_besides, ↓Dev.threadFault_besides, ↓Dev.besides_ite, ite_self, List.cons_subset,
      List.nil_subset, and_true, hps]

theorem Dev.returnTo_besides (p t : Nat) (w : Microword) (th : Thread) (d : Dev) (hps : [.routes, .rings, .items, .ports, .sets, .retained,
    .registers, .output] ⊆ ps) :
    (Dev.returnTo p t w th d).besides ps = d.besides ps := by
  simp only [List.cons_subset, List.nil_subset, and_true] at hps
  unfold Dev.returnTo
  split <;> simp only [↓Dev.goTo_besides, ↓Dev.onThread_besides, ↓Dev.threadFault_besides, List.cons_subset, List.nil_subset, and_true, hps]

theorem Dev.settleThread_besides (p t : Nat) (d : Dev) (hps : [.routes, .rings, .items, .ports, .sets, .retained, .registers, .output] ⊆ ps) :
    (Dev.settleThread p t d).besides ps = d.besides ps := by
  simp only [List.cons_subset, List.nil_subset, and_true] at hps
  simp only [Dev.settleThread]
  split <;> simp only [↓Dev.endWait_besides, ↓Dev.besides_ite, ite_self, List.cons_subset, List.nil_subset, and_true, hps]

theorem Dev.receiveFrame_besides (m : Nat) (f : Frame) (fcsOk : Bool) (d : Dev) (hps : [.routes, .rings, .items, .shares, .ports, .tables,
    .contexts, .retained, .registers, .output] ⊆ ps) :
    (Dev.receiveFrame m f fcsOk d).besides ps = d.besides ps := by
  simp only [List.cons_subset, List.nil_subset, and_true] at hps
  unfold Dev.receiveFrame
  iterate 7
    split
    · simp only [↓Dev.countMac_besides, ↓Dev.enterStage_besides, ↓Dev.rxControl_besides, List.cons_subset, List.nil_subset, and_true, hps]
  split
  · next heq => simp only [↓Dev.countMac_besides, ↓Dev.macsecReceive_besides, List.cons_subset, List.nil_subset, and_true, hps,
        Dev.besides_of_snd heq]
  · next heq => simp only [↓Dev.ingress_besides, ↓Dev.macsecReceive_besides, List.cons_subset, List.nil_subset, and_true, hps, Dev.besides_of_snd heq]

theorem Dev.leaveCrypto_besides (m n : Nat) (d : Dev) (hps : [.routes, .rings, .items, .shares, .ports, .tables, .contexts, .retained,
    .registers, .output] ⊆ ps) :
    (Dev.leaveCrypto m n d).besides ps = d.besides ps := by
  simp only [List.cons_subset, List.nil_subset, and_true] at hps
  induction n generalizing d with
  | zero => rfl
  | succ n ih =>
    unfold Dev.leaveCrypto
    split
    · rfl
    · split
      · split
        · next heq => simp only [ih, ↓Dev.countMac_besides, ↓Dev.dropItem_besides, ↓Dev.macsecReceive_besides, ↓Dev.countMac_besides,
              ↓Dev.dropItem_besides, ↓Dev.macsecReceive_besides, List.cons_subset, List.nil_subset, and_true, hps, Dev.besides_of_snd heq]
        · next hseal =>
          split
          · next heq => simp only [ih, ↓Dev.dropItem_besides, ↓Dev.macsecReceive_besides, ↓Dev.preStage_besides, ↓Dev.dropItem_besides,
                ↓Dev.macsecReceive_besides, ↓Dev.preStage_besides, List.cons_subset, List.nil_subset, and_true, hps,
                Dev.besides_of_snd heq, Dev.besides_of_snd hseal]
          · next heq => simp only [ih, ↓Dev.macsecReceive_besides, ↓Dev.onItem_besides, ↓Dev.preStage_besides, ↓Dev.startJobs_besides,
                ↓Dev.macsecReceive_besides, ↓Dev.onItem_besides, ↓Dev.preStage_besides, ↓Dev.startJobs_besides, List.cons_subset,
                List.nil_subset, and_true, hps, Dev.besides_of_snd heq, Dev.besides_of_snd hseal]
      · split
        · rw [ih]
          split
          · next heq => simp only [↓Dev.countRefusal_besides, ↓Dev.dropItem_besides, ↓Dev.portStages_besides, ↓Dev.countRefusal_besides,
                ↓Dev.dropItem_besides, ↓Dev.portStages_besides, List.cons_subset, List.nil_subset, and_true, hps, Dev.besides_of_snd heq]
          · next heq => simp only [↓Dev.classifyRx_besides, ↓Dev.dropItem_besides, ↓Dev.portStages_besides, ↓Dev.classifyRx_besides,
                ↓Dev.dropItem_besides, ↓Dev.portStages_besides, List.cons_subset, List.nil_subset, and_true, hps, Dev.besides_of_snd heq]
        · rfl

theorem Dev.dmaStop_besides (c code : Nat) (x : DmaDesc) (d : Dev) (hps : [.links, .routes, .engines, .stream, .retained, .registers, .output] ⊆ ps) :
    (Dev.dmaStop c code x d).besides ps = d.besides ps := by
  simp only [List.cons_subset, List.nil_subset, and_true] at hps
  simp only [Dev.dmaStop, ↓Dev.cause_besides, ↓Dev.dropBursts_besides, ↓Dev.onDma_besides, ↓Dev.showCur_besides, ↓Dev.wr_besides,
      ↓Dev.writeDone_besides, ↓Dev.besides_ite, ite_self, List.cons_subset, List.nil_subset, and_true, hps]

theorem Dev.flushNvme_besides (fn : Nat) (d : Dev) (hps : [.links, .functions, .storage, .retained, .registers, .output] ⊆ ps) :
    (Dev.flushNvme fn d).besides ps = d.besides ps := by
  simp only [List.cons_subset, List.nil_subset, and_true] at hps
  simp only [Dev.flushNvme, ↓Dev.postOwed_besides, ↓Dev.besides_each, List.cons_subset, List.nil_subset, and_true, implies_true, hps]

theorem Dev.flushOwed_besides (r : Nat) (d : Dev) (hps : [.links, .functions, .rings, .retained, .registers, .output] ⊆ ps) :
    (Dev.flushOwed r d).besides ps = d.besides ps := by
  simp only [List.cons_subset, List.nil_subset, and_true] at hps
  unfold Dev.flushOwed
  split <;> simp only [↓Dev.writeOwed_besides, ↓Dev.besides_each, List.cons_subset, List.nil_subset, and_true, implies_true, hps]

theorem Dev.barRead_besides (fn : Nat) (a : BarAddr) (len : Nat) (d : Dev) (hps : [.functions, .channels, .routes, .rings, .items, .ports,
    .time, .tables, .sets, .retained, .registers, .output] ⊆ ps) :
    (Dev.barRead fn a len d).besides ps = d.besides ps := by
  simp only [List.cons_subset, List.nil_subset, and_true] at hps
  simp only [Dev.barRead, ↓Dev.barBytes_besides, ↓Dev.emit_besides, ↓Dev.refuseRead_besides, ↓Dev.reportAer_besides, ↓Dev.besides_ite,
      ite_self, List.cons_subset, List.nil_subset, and_true, hps]

theorem Dev.beginWait_besides (p t : Nat) (w : Microword) (_th : Thread) (d : Dev) (hps : [.routes, .rings, .items, .ports, .sets,
    .retained, .registers, .output] ⊆ ps) :
    (Dev.beginWait p t w _th d).besides ps = d.besides ps := by
  simp only [List.cons_subset, List.nil_subset, and_true] at hps
  simp only [Dev.beginWait, ↓Dev.onSite_besides, ↓Dev.onThread_besides, ↓Dev.settleThread_besides, ↓Dev.takeEvent_besides,
      ↓Dev.threadFault_besides, ↓Dev.besides_ite, ite_self, List.cons_subset, List.nil_subset, and_true, hps]

theorem Dev.settle_besides (p : Nat) (d : Dev) (hps : [.routes, .rings, .items, .ports, .sets, .retained, .registers, .output] ⊆ ps) :
    (Dev.settle p d).besides ps = d.besides ps := by
  simp only [List.cons_subset, List.nil_subset, and_true] at hps
  simp only [Dev.settle, ↓Dev.settleThread_besides, ↓Dev.besides_each, List.cons_subset, List.nil_subset, and_true, implies_true, hps]

theorem Dev.espJobDone_besides (i : Nat) (d : Dev) (hps : [.routes, .rings, .items, .shares, .ports, .tables, .contexts, .retained,
    .registers, .output] ⊆ ps) :
    (Dev.espJobDone i d).besides ps = d.besides ps := by
  simp only [List.cons_subset, List.nil_subset, and_true] at hps
  unfold Dev.espJobDone
  extract_lets e
  have he : e.besides ps = d.besides ps := by simp only [e, ↓Dev.assignJobs_besides, List.cons_subset, List.nil_subset, and_true, hps]
  split
  · exact he
  · split
    · split
      · exact he
      · simp only [↓Dev.leaveCrypto_besides, ↓Dev.startJobs_besides, List.cons_subset, List.nil_subset, and_true, hps]
        split
        · next heq => simp only [↓Dev.cryCount_besides, ↓Dev.espJob_besides, ↓Dev.onItem_besides, List.cons_subset, List.nil_subset,
              and_true, hps, Dev.besides_of_snd heq, he]
        · next heq => simp only [↓Dev.countEspRefusal_besides, ↓Dev.countRefusal_besides, ↓Dev.cryCount_besides, ↓Dev.dropItem_besides,
              ↓Dev.espJob_besides, List.cons_subset, List.nil_subset, and_true, hps, Dev.besides_of_snd heq, he]
    · exact he

theorem Dev.cryReturns_besides (d : Dev) (hps : [.routes, .rings, .items, .shares, .ports, .tables, .contexts, .retained, .registers, .output] ⊆ ps) :
    (Dev.cryReturns d).besides ps = d.besides ps := by
  simp only [List.cons_subset, List.nil_subset, and_true] at hps
  simp only [Dev.cryReturns, ↓Dev.assignJobs_besides, ↓Dev.leaveCrypto_besides, ↓Dev.besides_each, List.cons_subset, List.nil_subset,
      and_true, implies_true, hps]

theorem Dev.dmaSettle_besides (c : Nat) (d : Dev) (hps : [.links, .routes, .engines, .stream, .retained, .registers, .output] ⊆ ps) :
    (Dev.dmaSettle c d).besides ps = d.besides ps := by
  simp only [List.cons_subset, List.nil_subset, and_true] at hps
  unfold Dev.dmaSettle
  split <;> split <;> simp only [↓Dev.dmaStop_besides, ↓Dev.besides_ite, ite_self, List.cons_subset, List.nil_subset, and_true, hps]

theorem Dev.dmaOwnerReset_besides (fn : Nat) (d : Dev) (hps : [.links, .routes, .engines, .stream, .retained, .registers, .output] ⊆ ps) :
    (Dev.dmaOwnerReset fn d).besides ps = d.besides ps := by
  simp only [List.cons_subset, List.nil_subset, and_true] at hps
  simp only [Dev.dmaOwnerReset, ↓Dev.dmaStop_besides, ↓Dev.besides_each, List.cons_subset, List.nil_subset, and_true, implies_true, hps]

theorem Dev.placeBlocks_besides (k : NvmeCmd) (n : Nat) (d : Dev) (hps : [.links, .routes, .retained, .registers, .output] ⊆ ps) :
    (Dev.placeBlocks k n d).2.besides ps = d.besides ps := by
  simp only [List.cons_subset, List.nil_subset, and_true] at hps
  induction n generalizing k d with
  | zero => rfl
  | succ n ih =>
    unfold Dev.placeBlocks
    dsimp only
    split
    · rfl
    · simp only [ih, ↓Dev.countPi_besides, ↓Dev.placeAt_besides, ↓Dev.countPi_besides, ↓Dev.placeAt_besides, ↓Dev.besides_ite, ite_self,
          List.cons_subset, List.nil_subset, and_true, hps]

theorem Dev.completeNvme_besides (fn q cid status result : Nat) (d : Dev) (hps : [.links, .functions, .storage, .retained, .registers,
    .output] ⊆ ps) :
    (Dev.completeNvme fn q cid status result d).besides ps = d.besides ps := by
  simp only [List.cons_subset, List.nil_subset, and_true] at hps
  simp only [Dev.completeNvme, ↓Dev.flushNvme_besides, ↓Dev.onNvme_besides, List.cons_subset, List.nil_subset, and_true, hps]

theorem Dev.completeWork_besides (i status : Nat) (w : Wc) (d : Dev) (hps : [.power, .links, .functions, .routes, .rings, .items, .tables,
    .retained, .registers, .output] ⊆ ps) :
    (Dev.completeWork i status w d).besides ps = d.besides ps := by
  simp only [List.cons_subset, List.nil_subset, and_true] at hps
  unfold Dev.completeWork
  repeat' split
  all_goals simp only [↓Dev.flushOwed_besides, ↓Dev.free_besides, ↓Dev.onRing_besides, ↓Dev.retired_besides, List.cons_subset,
      List.nil_subset, and_true, hps]

theorem Dev.endWork_besides (r s : Nat) (w : Wc) (d : Dev) (hps : [.links, .functions, .rings, .retained, .registers, .output] ⊆ ps) :
    (Dev.endWork r s w d).besides ps = d.besides ps := by
  simp only [List.cons_subset, List.nil_subset, and_true] at hps
  unfold Dev.endWork
  split <;> simp only [↓Dev.flushOwed_besides, ↓Dev.free_besides, ↓Dev.onRing_besides, List.cons_subset, List.nil_subset, and_true, hps]

theorem Dev.notify_besides (r : Nat) (words : List Nat) (d : Dev) (hps : [.links, .functions, .routes, .rings, .retained, .registers, .output] ⊆ ps) :
    (Dev.notify r words d).2.besides ps = d.besides ps := by
  simp only [List.cons_subset, List.nil_subset, and_true] at hps
  unfold Dev.notify
  split
  · split <;> simp only [↓Dev.advanceCpl_besides, ↓Dev.cause_besides, ↓Dev.flushOwed_besides, ↓Dev.onRing_besides, ↓Dev.useContext_besides,
        ↓Dev.besides_ite, ite_self, List.cons_subset, List.nil_subset, and_true, hps]
  · simp only

theorem Dev.settleOwed_besides (fn : Nat) (d : Dev) (hps : [.links, .functions, .rings, .items, .retained, .registers, .output] ⊆ ps) :
    (Dev.settleOwed fn d).besides ps = d.besides ps := by
  simp only [List.cons_subset, List.nil_subset, and_true] at hps
  simp only [Dev.settleOwed, ↓Dev.countEpilogue_besides, ↓Dev.flushOwed_besides, ↓Dev.onFn_besides, ↓Dev.besides_ite, ↓Dev.besides_each,
      ite_self, List.cons_subset, List.nil_subset, and_true, implies_true, hps]

theorem Dev.completeSource_besides (i status : Nat) (d : Dev) (hps : [.power, .links, .functions, .routes, .rings, .items, .tables,
    .retained, .registers, .output] ⊆ ps) :
    (Dev.completeSource i status d).besides ps = d.besides ps := by
  simp only [List.cons_subset, List.nil_subset, and_true] at hps
  unfold Dev.completeSource
  split
  · simp only
  · split <;> simp only [↓Dev.flushOwed_besides, ↓Dev.owe_besides, ↓Dev.retired_besides, ↓Dev.besides_ite, ↓Dev.besides_each, ite_self,
        List.cons_subset, List.nil_subset, and_true, implies_true, hps]

theorem Dev.returnDescriptors_besides (r : Nat) (d : Dev) (hps : [.links, .functions, .rings, .retained, .registers, .output] ⊆ ps) :
    (Dev.returnDescriptors r d).besides ps = d.besides ps := by
  simp only [List.cons_subset, List.nil_subset, and_true] at hps
  unfold Dev.returnDescriptors
  split
  · simp only
  · split <;> simp only [↓Dev.flushOwed_besides, ↓Dev.onRing_besides, ↓Dev.owe_besides, ↓Dev.besides_each, List.cons_subset,
        List.nil_subset, and_true, implies_true, hps]

theorem Dev.domainReady_besides (n : Nat) (d : Dev) (hps : [.power, .routes, .rings, .items, .ports, .sets, .retained, .registers, .output] ⊆ ps) :
    (Dev.domainReady n d).besides ps = d.besides ps := by
  simp only [List.cons_subset, List.nil_subset, and_true] at hps
  unfold Dev.domainReady
  split <;> simp only [↓Dev.onPower_besides, ↓Dev.setDomain_besides, ↓Dev.settle_besides, ↓Dev.besides_ite, ↓Dev.besides_each, ite_self,
      List.cons_subset, List.nil_subset, and_true, implies_true, hps]

theorem Dev.dbgResume_besides (p t : Nat) (d : Dev) (hps : [.routes, .rings, .items, .ports, .sets, .retained, .registers, .output] ⊆ ps) :
    (Dev.dbgResume p t d).besides ps = d.besides ps := by
  simp only [List.cons_subset, List.nil_subset, and_true] at hps
  simp only [Dev.dbgResume, ↓Dev.makeReady_besides, ↓Dev.settle_besides, ↓Dev.besides_ite, ite_self, List.cons_subset, List.nil_subset, and_true, hps]

theorem Dev.deliver_besides (p c : Nat) (d : Dev) (hps : [.routes, .rings, .items, .ports, .sets, .retained, .registers, .output] ⊆ ps) :
    (Dev.deliver p c d).besides ps = d.besides ps := by
  simp only [List.cons_subset, List.nil_subset, and_true] at hps
  simp only [Dev.deliver, ↓Dev.onSetChan_besides, ↓Dev.settle_besides, ↓Dev.stageEmptied_besides, List.cons_subset, List.nil_subset, and_true, hps]

theorem Dev.issueWord_besides (p t : Nat) (w : Microword) (d : Dev) (hps : [.routes, .rings, .items, .ports, .sets, .retained, .registers,
    .output] ⊆ ps) :
    (Dev.issueWord p t w d).2.besides ps = d.besides ps := by
  simp only [List.cons_subset, List.nil_subset, and_true] at hps
  simp only [Dev.issueWord]
  repeat' split
  all_goals simp only [↓Dev.countIssued_besides, ↓Dev.settle_besides, ↓Dev.takeToken_besides, ↓Dev.threadFault_besides, List.cons_subset,
      List.nil_subset, and_true, hps]

theorem Dev.dbgKillOp_besides (p t : Nat) (d : Dev) (hps : [.routes, .rings, .items, .ports, .sets, .retained, .registers, .output] ⊆ ps) :
    (Dev.dbgKillOp p t d).besides ps = d.besides ps := by
  simp only [List.cons_subset, List.nil_subset, and_true] at hps
  simp only [Dev.dbgKillOp, ↓Dev.onThread_besides, ↓Dev.settle_besides, ↓Dev.threadFault_besides, ↓Dev.besides_ite, ite_self,
      List.cons_subset, List.nil_subset, and_true, hps]

theorem Dev.settleMail_besides (mid : Nat) (d : Dev) (hps : [.routes, .rings, .items, .ports, .sets, .retained, .registers, .output] ⊆ ps) :
    (Dev.settleMail mid d).besides ps = d.besides ps := by
  simp only [List.cons_subset, List.nil_subset, and_true] at hps
  simp only [Dev.settleMail, ↓Dev.settle_besides, ↓Dev.besides_ite, ite_self, List.cons_subset, List.nil_subset, and_true, hps]

theorem Dev.answerPayload_besides (i : Nat) (d : Dev) (hps : [.routes, .rings, .items, .ports, .sets, .retained, .registers, .output] ⊆ ps) :
    (Dev.answerPayload i d).besides ps = d.besides ps := by
  simp only [List.cons_subset, List.nil_subset, and_true] at hps
  unfold Dev.answerPayload
  split <;> simp only [↓Dev.onSite_besides, ↓Dev.settle_besides, ↓Dev.besides_ite, ite_self, List.cons_subset, List.nil_subset, and_true, hps]

theorem Dev.returnUnit_besides (unit inst : Nat) (d : Dev) (hps : [.start, .positions, .power, .routes, .rings, .items, .shares, .ports,
    .tables, .contexts, .sets, .retained, .registers, .output] ⊆ ps) :
    (Dev.returnUnit unit inst d).besides ps = d.besides ps := by
  simp only [List.cons_subset, List.nil_subset, and_true] at hps
  simp only [Dev.returnUnit, ↓Dev.cardChanged_besides, ↓Dev.cryReturns_besides, ↓Dev.onPower_besides, ↓Dev.putCry_besides,
      ↓Dev.updateHeadroom_besides, ↓Dev.wr_besides, ↓Dev.besides_cores, ↓Dev.besides_ite, ite_self, List.cons_subset, List.nil_subset,
      and_true, hps]
  repeat' split
  all_goals simp only [↓Dev.loadStore_besides, ↓Dev.putSlot_besides, List.cons_subset, List.nil_subset, and_true, hps]

theorem Dev.dmaFetched_besides (c : Nat) (d : Dev) (hps : [.links, .routes, .engines, .stream, .retained, .registers, .output] ⊆ ps) :
    (Dev.dmaFetched c d).besides ps = d.besides ps := by
  simp only [List.cons_subset, List.nil_subset, and_true] at hps
  simp only [Dev.dmaFetched]
  split <;> simp only [↓Dev.dmaSettle_besides, ↓Dev.onDma_besides, ↓Dev.showCur_besides, ↓Dev.besides_ite, ite_self, List.cons_subset,
      List.nil_subset, and_true, hps]

theorem Dev.dmaComplete_besides (c : Nat) (x : DmaDesc) (d : Dev) (hps : [.links, .routes, .engines, .stream, .retained, .registers, .output] ⊆ ps) :
    (Dev.dmaComplete c x d).besides ps = d.besides ps := by
  simp only [List.cons_subset, List.nil_subset, and_true] at hps
  simp only [Dev.dmaComplete, ↓Dev.bump_besides, ↓Dev.cause_besides, ↓Dev.dmaSettle_besides, ↓Dev.onDma_besides, ↓Dev.wr_besides,
      ↓Dev.writeDone_besides, ↓Dev.besides_ite, ite_self, List.cons_subset, List.nil_subset, and_true, hps]
  repeat' split
  all_goals simp only [↓Dev.bump_besides, ↓Dev.cause_besides, ↓Dev.onDma_besides, ↓Dev.showCur_besides, ↓Dev.writeDone_besides,
      List.cons_subset, List.nil_subset, and_true, hps]

theorem Dev.dmaStart_besides (mid c : Nat) (d : Dev) (hps : [.links, .routes, .engines, .stream, .retained, .registers, .output] ⊆ ps) :
    (Dev.dmaStart mid c d).besides ps = d.besides ps := by
  simp only [List.cons_subset, List.nil_subset, and_true] at hps
  simp only [Dev.dmaStart, ↓Dev.bump_besides, ↓Dev.cause_besides, ↓Dev.dmaFetch_besides, ↓Dev.dmaHalt_besides, ↓Dev.dmaSettle_besides,
      ↓Dev.showCur_besides, ↓Dev.wr_besides, ↓Dev.wr64_besides, ↓Dev.besides_dma, ↓Dev.besides_ite, ite_self, List.cons_subset,
      List.nil_subset, and_true, hps]

theorem Dev.placeRead_besides (k : NvmeCmd) (data : List Byte) (d : Dev) (hps : [.links, .routes, .retained, .registers, .output] ⊆ ps) :
    (Dev.placeRead k data d).2.besides ps = d.besides ps := by
  simp only [List.cons_subset, List.nil_subset, and_true] at hps
  simp only [Dev.placeRead, ↓Dev.placeBlocks_besides, List.cons_subset, List.nil_subset, and_true, hps]

theorem Dev.refuseNvme_besides (i fn q cid status : Nat) (d : Dev) (unsent : Bool) (hps : [.power, .links, .functions, .routes, .rings,
    .items, .tables, .storage, .retained, .registers, .output] ⊆ ps) :
    (Dev.refuseNvme i fn q cid status d unsent).besides ps = d.besides ps := by
  simp only [List.cons_subset, List.nil_subset, and_true] at hps
  simp only [Dev.refuseNvme, ↓Dev.bump_besides, ↓Dev.completeNvme_besides, ↓Dev.countPi_besides, ↓Dev.retired_besides, ↓Dev.besides_ite,
      ite_self, List.cons_subset, List.nil_subset, and_true, hps]

theorem Dev.adminDone_besides (fn : Nat) (x : NvmeFields) (status result : Nat) (d : Dev) (hps : [.links, .functions, .storage, .retained,
    .registers, .output] ⊆ ps) :
    (Dev.adminDone fn x status result d).besides ps = d.besides ps := by
  simp only [List.cons_subset, List.nil_subset, and_true] at hps
  simp only [Dev.adminDone, ↓Dev.completeNvme_besides, List.cons_subset, List.nil_subset, and_true, hps]

theorem Dev.ioCommand_besides (fn q want : Nat) (d : Dev) (hps : [.links, .functions, .items, .storage, .retained, .registers, .output] ⊆ ps) :
    (Dev.ioCommand fn q want d).besides ps = d.besides ps := by
  simp only [List.cons_subset, List.nil_subset, and_true] at hps
  unfold Dev.ioCommand
  split
  · simp only
  · split <;> simp only [↓Dev.addItem_besides, ↓Dev.completeNvme_besides, ↓Dev.onNvme_besides, ↓Dev.besides_ite, ite_self,
        List.cons_subset, List.nil_subset, and_true, hps]

theorem Dev.nvmeEvent_besides (fn ev : Nat) (d : Dev) (hps : [.links, .functions, .storage, .retained, .registers, .output] ⊆ ps) :
    (Dev.nvmeEvent fn ev d).besides ps = d.besides ps := by
  simp only [List.cons_subset, List.nil_subset, and_true] at hps
  unfold Dev.nvmeEvent
  split <;> simp only [↓Dev.completeNvme_besides, ↓Dev.onNvme_besides, List.cons_subset, List.nil_subset, and_true, hps]

theorem Dev.endCmd_besides (k : NvmeCmd) (status result : Nat) (d : Dev) (hps : [.links, .functions, .contexts, .storage, .retained,
    .registers, .output] ⊆ ps) :
    (Dev.endCmd k status result d).besides ps = d.besides ps := by
  simp only [List.cons_subset, List.nil_subset, and_true] at hps
  simp only [Dev.endCmd, ↓Dev.completeNvme_besides, ↓Dev.dropRegion_besides, ↓Dev.besides_ite, ite_self, List.cons_subset, List.nil_subset,
      and_true, hps]

theorem Dev.adminCommand_besides (fn want : Nat) (act : NvmeFields → Dev → Dev) (d : Dev) (hps : [.links, .functions, .storage, .retained,
    .registers, .output] ⊆ ps) (hact : ∀ a e, (act a e).besides ps = e.besides ps) :
    (Dev.adminCommand fn want act d).besides ps = d.besides ps := by
  simp only [List.cons_subset, List.nil_subset, and_true] at hps
  unfold Dev.adminCommand
  split
  · simp only
  · split <;> simp only [↓Dev.completeNvme_besides, ↓Dev.onNvme_besides, ↓Dev.besides_ite, ite_self, List.cons_subset, List.nil_subset,
        and_true, hps, hact]

theorem Dev.rejectBuffers_besides (r n : Nat) (d : Dev) (hps : [.links, .functions, .rings, .retained, .registers, .output] ⊆ ps) :
    (Dev.rejectBuffers r n d).besides ps = d.besides ps := by
  simp only [List.cons_subset, List.nil_subset, and_true] at hps
  induction n generalizing d with
  | zero => rfl
  | succ n ih =>
    unfold Dev.rejectBuffers
    split
    · split
      · split
        · rfl
        · simp only [ih, ↓Dev.flushOwed_besides, ↓Dev.onRing_besides, ↓Dev.owe_besides, ↓Dev.flushOwed_besides, ↓Dev.onRing_besides,
              ↓Dev.owe_besides, List.cons_subset, List.nil_subset, and_true, hps]
      · rfl
    · rfl

theorem Dev.ackedTo_besides (q psn : Nat) (d : Dev) (hps : [.links, .functions, .rings, .contexts, .storage, .retained, .registers, .output] ⊆ ps) :
    (Dev.ackedTo q psn d).besides ps = d.besides ps := by
  simp only [List.cons_subset, List.nil_subset, and_true] at hps
  simp only [Dev.ackedTo, ↓Dev.endWork_besides, ↓Dev.onQp_besides, ↓Dev.setUnaPsn_besides, ↓Dev.besides_ite, ↓Dev.besides_each, ite_self,
      List.cons_subset, List.nil_subset, and_true, implies_true, hps]

theorem Dev.endRecv_besides (q : Nat) (b : Nat × Desc) (w : Wc) (d : Dev) (hps : [.links, .functions, .rings, .storage, .retained,
    .registers, .output] ⊆ ps) :
    (Dev.endRecv q b w d).besides ps = d.besides ps := by
  simp only [List.cons_subset, List.nil_subset, and_true] at hps
  simp only [Dev.endRecv, ↓Dev.endWork_besides, ↓Dev.onQp_besides, List.cons_subset, List.nil_subset, and_true, hps]

theorem Dev.flushReceives_besides (q : Nat) (d : Dev) (hps : [.links, .functions, .rings, .storage, .retained, .registers, .output] ⊆ ps) :
    (Dev.flushReceives q d).besides ps = d.besides ps := by
  simp only [List.cons_subset, List.nil_subset, and_true] at hps
  simp only [Dev.flushReceives, ↓Dev.endWork_besides, ↓Dev.onRing_besides, ↓Dev.oweWork_besides, ↓Dev.besides_ite, ↓Dev.besides_each,
      List.cons_subset, List.nil_subset, and_true, implies_true, hps]
  repeat' split
  all_goals simp only [↓Dev.endWork_besides, ↓Dev.onQp_besides, ↓Dev.onRing_besides, List.cons_subset, List.nil_subset, and_true, hps]

theorem Dev.switchedRecord_besides (it : Item) (seq : Nat) (src : Ring) (d : Dev) (hps : [.links, .functions, .routes, .rings, .retained,
    .registers, .output] ⊆ ps) :
    (Dev.switchedRecord it seq src d).2.besides ps = d.besides ps := by
  simp only [List.cons_subset, List.nil_subset, and_true] at hps
  simp only [Dev.switchedRecord]
  repeat' split
  all_goals simp only [↓Dev.loseStamp_besides, ↓Dev.notify_besides, List.cons_subset, List.nil_subset, and_true, hps]

theorem Dev.writeCapture_besides (words : List Nat) (d : Dev) (hps : [.links, .functions, .routes, .rings, .time, .retained, .registers,
    .output] ⊆ ps) :
    (Dev.writeCapture words d).besides ps = d.besides ps := by
  simp only [List.cons_subset, List.nil_subset, and_true] at hps
  simp only [Dev.writeCapture]
  split
  · simp only [↓Dev.bump_besides, ↓Dev.cause_besides, List.cons_subset, List.nil_subset, and_true, hps]
  · split
    · simp only [↓Dev.bump_besides, ↓Dev.cause_besides, ↓Dev.besides_tempo, ↓Dev.besides_ite, ite_self, List.cons_subset, List.nil_subset,
          and_true, hps]
    · split
      · next heq => simp only [↓Dev.notify_besides, List.cons_subset, List.nil_subset, and_true, hps, Dev.besides_of_snd heq]
      · next heq => simp only [↓Dev.bump_besides, ↓Dev.cause_besides, ↓Dev.notify_besides, List.cons_subset, List.nil_subset, and_true,
            hps, Dev.besides_of_snd heq]

theorem Dev.startFrame_besides (m : Nat) (f : TxFrame) (late : Bool) (d : Dev) (hps : [.links, .functions, .routes, .rings, .ports,
    .retained, .registers, .output] ⊆ ps) :
    (Dev.startFrame m f late d).besides ps = d.besides ps := by
  simp only [List.cons_subset, List.nil_subset, and_true] at hps
  simp only [Dev.startFrame]
  split
  · simp only [↓Dev.bump_besides, ↓Dev.cause_besides, ↓Dev.countMac_besides, ↓Dev.finishFrame_besides, ↓Dev.putOnLine_besides,
        ↓Dev.record_besides, ↓Dev.besides_ite, ite_self, List.cons_subset, List.nil_subset, and_true, hps]
  · split
    · simp only [↓Dev.bump_besides, ↓Dev.cause_besides, ↓Dev.countMac_besides, ↓Dev.putOnLine_besides, ↓Dev.record_besides,
          ↓Dev.besides_ite, ite_self, List.cons_subset, List.nil_subset, and_true, hps]
    · split
      · simp only [↓Dev.bump_besides, ↓Dev.cause_besides, ↓Dev.countMac_besides, ↓Dev.finishFrame_besides, ↓Dev.loseStamp_besides,
            ↓Dev.putOnLine_besides, ↓Dev.record_besides, ↓Dev.besides_ite, ite_self, List.cons_subset, List.nil_subset, and_true, hps]
      · split
        · next heq => simp only [↓Dev.bump_besides, ↓Dev.cause_besides, ↓Dev.countMac_besides, ↓Dev.finishFrame_besides,
              ↓Dev.notify_besides, ↓Dev.putOnLine_besides, ↓Dev.record_besides, ↓Dev.besides_ite, ite_self, List.cons_subset,
              List.nil_subset, and_true, hps, Dev.besides_of_snd heq]
        · next heq => simp only [↓Dev.bump_besides, ↓Dev.cause_besides, ↓Dev.countMac_besides, ↓Dev.finishFrame_besides,
              ↓Dev.loseStamp_besides, ↓Dev.notify_besides, ↓Dev.putOnLine_besides, ↓Dev.record_besides, ↓Dev.besides_ite, ite_self,
              List.cons_subset, List.nil_subset, and_true, hps, Dev.besides_of_snd heq]

theorem Dev.cryRecord_besides (kind c number : Nat) (d : Dev) (hps : [.links, .functions, .routes, .rings, .retained, .registers, .output] ⊆ ps) :
    (Dev.cryRecord kind c number d).besides ps = d.besides ps := by
  simp only [List.cons_subset, List.nil_subset, and_true] at hps
  simp only [Dev.cryRecord, ↓Dev.bump_besides, ↓Dev.cause_besides, ↓Dev.besides_ite, ite_self, List.cons_subset, List.nil_subset, and_true, hps]
  repeat' split
  all_goals simp only [↓Dev.cause_besides, ↓Dev.notify_besides, List.cons_subset, List.nil_subset, and_true, hps]

theorem Dev.learnRecord_besides (kind : Nat) (e : MtbEntry) (d : Dev) (hps : [.links, .functions, .routes, .rings, .retained, .registers,
    .output] ⊆ ps) :
    (Dev.learnRecord kind e d).besides ps = d.besides ps := by
  simp only [List.cons_subset, List.nil_subset, and_true] at hps
  simp only [Dev.learnRecord, ↓Dev.bump_besides, ↓Dev.cause_besides, ↓Dev.besides_ite, ite_self, List.cons_subset, List.nil_subset, and_true, hps]
  repeat' split
  all_goals simp only [↓Dev.notify_besides, List.cons_subset, List.nil_subset, and_true, hps]

theorem Dev.stoRecord_besides (kind c : Nat) (d : Dev) (hps : [.links, .functions, .routes, .rings, .retained, .registers, .output] ⊆ ps) :
    (Dev.stoRecord kind c d).besides ps = d.besides ps := by
  simp only [List.cons_subset, List.nil_subset, and_true] at hps
  unfold Dev.stoRecord
  split <;> simp only [↓Dev.bump_besides, ↓Dev.cause_besides, ↓Dev.notify_besides, ↓Dev.besides_ite, ite_self, List.cons_subset,
      List.nil_subset, and_true, hps]

theorem Dev.rxRecord_besides (it : Item) (r seq : Nat) (d : Dev) (hps : [.links, .functions, .routes, .rings, .retained, .registers, .output] ⊆ ps) :
    (Dev.rxRecord it r seq d).besides ps = d.besides ps := by
  simp only [List.cons_subset, List.nil_subset, and_true] at hps
  unfold Dev.rxRecord
  extract_lets m want
  split
  · rfl
  · split
    · simp only [↓Dev.loseStamp_besides, List.cons_subset, List.nil_subset, and_true, hps]
    · split
      · next heq => simp only [↓Dev.notify_besides, List.cons_subset, List.nil_subset, and_true, hps, Dev.besides_of_snd heq]
      · next heq => simp only [↓Dev.loseStamp_besides, ↓Dev.notify_besides, List.cons_subset, List.nil_subset, and_true, hps, Dev.besides_of_snd heq]

theorem Dev.refuseSource_besides (i status : Nat) (counts : List (Field × Nat)) (d : Dev) (hps : [.power, .links, .functions, .routes,
    .rings, .items, .tables, .retained, .registers, .output] ⊆ ps) :
    (Dev.refuseSource i status counts d).besides ps = d.besides ps := by
  simp only [List.cons_subset, List.nil_subset, and_true] at hps
  unfold Dev.refuseSource
  split <;> simp only [↓Dev.completeSource_besides, ↓Dev.countPlan_besides, ↓Dev.besides_ite, ite_self, List.cons_subset, List.nil_subset,
      and_true, hps]

theorem Dev.evalLaunch_besides (i : Nat) (g : Ring) (t : TxFields) (d : Dev) (hps : [.power, .links, .functions, .routes, .rings, .items,
    .tables, .retained, .registers, .output] ⊆ ps) :
    (Dev.evalLaunch i g t d).besides ps = d.besides ps := by
  simp only [List.cons_subset, List.nil_subset, and_true] at hps
  unfold Dev.evalLaunch
  split <;> simp only [↓Dev.bump_besides, ↓Dev.cause_besides, ↓Dev.completeSource_besides, ↓Dev.onItem_besides, ↓Dev.slotFlag_besides,
      ↓Dev.besides_ite, ite_self, List.cons_subset, List.nil_subset, and_true, hps]

theorem Dev.goOnDisable_besides (r : Nat) (d : Dev) (hps : [.links, .functions, .rings, .retained, .registers, .output] ⊆ ps) :
    (Dev.goOnDisable r d).besides ps = d.besides ps := by
  simp only [List.cons_subset, List.nil_subset, and_true] at hps
  unfold Dev.goOnDisable
  split <;> simp only [↓Dev.onRing_besides, ↓Dev.returnDescriptors_besides, ↓Dev.besides_ite, ite_self, List.cons_subset, List.nil_subset,
      and_true, hps]

theorem Dev.dbgStepOp_besides (p t : Nat) (d : Dev) (hps : [.routes, .rings, .items, .ports, .sets, .retained, .registers, .output] ⊆ ps) :
    (Dev.dbgStepOp p t d).besides ps = d.besides ps := by
  simp only [List.cons_subset, List.nil_subset, and_true] at hps
  simp only [Dev.dbgStepOp, ↓Dev.dbgResume_besides, ↓Dev.onThread_besides, ↓Dev.besides_ite, ite_self, List.cons_subset, List.nil_subset,
      and_true, hps]

theorem Dev.dataOp_besides (p t cls fn : Nat) (f : Microword → Thread → Dev → Dev) (d : Dev) (hps : [.routes, .rings, .items, .ports,
    .sets, .retained, .registers, .output] ⊆ ps) (hf : ∀ a b e, (f a b e).besides ps = e.besides ps) :
    (Dev.dataOp p t cls fn f d).besides ps = d.besides ps := by
  simp only [List.cons_subset, List.nil_subset, and_true] at hps
  simp only [Dev.dataOp, ↓Dev.issueWord_besides, ↓Dev.onThread_besides, ↓Dev.settle_besides, ↓Dev.besides_ite, ite_self, List.cons_subset,
      List.nil_subset, and_true, hps, hf]

theorem Dev.nextOp_besides (p t op : Nat) (f : Microword → Thread → Dev → Dev) (d : Dev) (hps : [.routes, .rings, .items, .ports, .sets,
    .retained, .registers, .output] ⊆ ps) (hf : ∀ a b e, (f a b e).besides ps = e.besides ps) :
    (Dev.nextOp p t op f d).besides ps = d.besides ps := by
  simp only [List.cons_subset, List.nil_subset, and_true] at hps
  simp only [Dev.nextOp, ↓Dev.issueWord_besides, ↓Dev.settle_besides, ↓Dev.besides_ite, ite_self, List.cons_subset, List.nil_subset,
      and_true, hps, hf]

theorem Dev.announceArrival_besides (c : Nat) (d : Dev) (hps : [.power, .links, .functions, .routes, .rings, .items, .ports, .sets,
    .retained, .registers, .output] ⊆ ps) :
    (Dev.announceArrival c d).besides ps = d.besides ps := by
  simp only [List.cons_subset, List.nil_subset, and_true] at hps
  simp only [Dev.announceArrival]
  repeat' split
  all_goals simp only [↓Dev.cause_besides, ↓Dev.raise_besides, ↓Dev.sendVector_besides, ↓Dev.settleMail_besides, ↓Dev.wake_besides,
      List.cons_subset, List.nil_subset, and_true, hps]

theorem Dev.skipPayload_besides (i : Nat) (d : Dev) (hps : [.routes, .rings, .items, .ports, .sets, .retained, .registers, .output] ⊆ ps) :
    (Dev.skipPayload i d).besides ps = d.besides ps := by
  simp only [List.cons_subset, List.nil_subset, and_true] at hps
  simp only [Dev.skipPayload, ↓Dev.answerPayload_besides, ↓Dev.onItem_besides, List.cons_subset, List.nil_subset, and_true, hps]

theorem Dev.payloadDone_besides (i : Nat) (d : Dev) (hps : [.links, .routes, .rings, .items, .ports, .sets, .retained, .registers, .output] ⊆ ps) :
    (Dev.payloadDone i d).besides ps = d.besides ps := by
  simp only [List.cons_subset, List.nil_subset, and_true] at hps
  unfold Dev.payloadDone
  repeat' split
  all_goals simp only [↓Dev.answerPayload_besides, ↓Dev.hostRead_besides, ↓Dev.onItem_besides, ↓Dev.readSegments_besides, List.cons_subset,
      List.nil_subset, and_true, hps]

theorem Dev.dmaBurstDone_besides (c : Nat) (d : Dev) (hps : [.links, .routes, .tables, .engines, .stream, .retained, .registers, .output] ⊆ ps) :
    (Dev.dmaBurstDone c d).besides ps = d.besides ps := by
  simp only [List.cons_subset, List.nil_subset, and_true] at hps
  have hput (c : Nat) (x y : DmaDesc) (b : Burst) (data : List Byte) (lost : Bool) (e : Dev)
      (h : (if lost then some (x, d) else Dev.putBurst c x b data d) = some (y, e)) : e.besides ps = d.besides ps := by
    cases lost with
    | true => cases h; rfl
    | false => exact Dev.putBurst_besides (by simp only [List.cons_subset, List.nil_subset, and_true, hps]) h
  unfold Dev.dmaBurstDone
  dsimp only
  split
  · split
    · simp only [↓Dev.dmaStop_besides, List.cons_subset, List.nil_subset, and_true, hps]
    · split
      · rfl
      · split
        · rfl
        · split
          · simp only [↓Dev.dmaStop_besides, List.cons_subset, List.nil_subset, and_true, hps]
          · next heq => simp only [↓Dev.cause_besides, ↓Dev.dmaComplete_besides, ↓Dev.dmaPause_besides, ↓Dev.onDma_besides,
                ↓Dev.showCur_besides, ↓Dev.wr64_besides, ↓Dev.besides_ite, ite_self, List.cons_subset, List.nil_subset, and_true, hps,
                hput _ _ _ _ _ _ _ heq]
  · rfl

theorem Dev.dmaCommand_besides (mid c op : Nat) (d : Dev) (hps : [.links, .routes, .engines, .stream, .retained, .registers, .output] ⊆ ps) :
    (Dev.dmaCommand mid c op d).besides ps = d.besides ps := by
  simp only [List.cons_subset, List.nil_subset, and_true] at hps
  simp only [Dev.dmaCommand, ↓Dev.dmaRequestOp_besides, ↓Dev.dmaResumeOp_besides, ↓Dev.dmaStart_besides, ↓Dev.dmaStopOp_besides,
      ↓Dev.besides_ite, ite_self, List.cons_subset, List.nil_subset, and_true, hps]

theorem Dev.nvmeCreateCq_besides (fn : Nat) (x : NvmeFields) (d : Dev) (hps : [.links, .functions, .storage, .retained, .registers, .output] ⊆ ps) :
    (Dev.nvmeCreateCq fn x d).besides ps = d.besides ps := by
  simp only [List.cons_subset, List.nil_subset, and_true] at hps
  simp only [Dev.nvmeCreateCq, ↓Dev.adminDone_besides, ↓Dev.onNvme_besides, ↓Dev.besides_ite, ite_self, List.cons_subset, List.nil_subset,
      and_true, hps]

theorem Dev.nvmeAbort_besides (fn : Nat) (x : NvmeFields) (d : Dev) (hps : [.links, .functions, .storage, .retained, .registers, .output] ⊆ ps) :
    (Dev.nvmeAbort fn x d).besides ps = d.besides ps := by
  simp only [List.cons_subset, List.nil_subset, and_true] at hps
  simp only [Dev.nvmeAbort]
  repeat' split
  all_goals simp only [↓Dev.adminDone_besides, ↓Dev.completeNvme_besides, ↓Dev.onNvme_besides, List.cons_subset, List.nil_subset, and_true, hps]

theorem Dev.nvmeAer_besides (fn : Nat) (x : NvmeFields) (d : Dev) (hps : [.links, .functions, .storage, .retained, .registers, .output] ⊆ ps) :
    (Dev.nvmeAer fn x d).besides ps = d.besides ps := by
  simp only [List.cons_subset, List.nil_subset, and_true] at hps
  unfold Dev.nvmeAer
  split <;> simp only [↓Dev.adminDone_besides, ↓Dev.onNvme_besides, List.cons_subset, List.nil_subset, and_true, hps]

theorem Dev.nvmeCreateSq_besides (fn : Nat) (x : NvmeFields) (d : Dev) (hps : [.links, .functions, .shares, .storage, .retained,
    .registers, .output] ⊆ ps) :
    (Dev.nvmeCreateSq fn x d).besides ps = d.besides ps := by
  simp only [List.cons_subset, List.nil_subset, and_true] at hps
  simp only [Dev.nvmeCreateSq, ↓Dev.adminDone_besides, ↓Dev.freshBalance_besides, ↓Dev.onNvme_besides, ↓Dev.besides_ite, ite_self,
      List.cons_subset, List.nil_subset, and_true, hps]

theorem Dev.nvmeSetFeature_besides (fn : Nat) (x : NvmeFields) (d : Dev) (hps : [.links, .functions, .storage, .retained, .registers, .output] ⊆ ps) :
    (Dev.nvmeSetFeature fn x d).besides ps = d.besides ps := by
  simp only [List.cons_subset, List.nil_subset, and_true] at hps
  simp only [Dev.nvmeSetFeature, ↓Dev.adminDone_besides, ↓Dev.onNvme_besides, ↓Dev.besides_ite, ite_self, List.cons_subset,
      List.nil_subset, and_true, hps]

theorem Dev.nvmeGetFeature_besides (fn : Nat) (x : NvmeFields) (d : Dev) (hps : [.links, .functions, .storage, .retained, .registers, .output] ⊆ ps) :
    (Dev.nvmeGetFeature fn x d).besides ps = d.besides ps := by
  simp only [List.cons_subset, List.nil_subset, and_true] at hps
  simp only [Dev.nvmeGetFeature, ↓Dev.adminDone_besides, ↓Dev.besides_ite, List.cons_subset, List.nil_subset, and_true, hps]
  repeat' split
  all_goals simp only [↓Dev.adminDone_besides, ↓Dev.free_besides, List.cons_subset, List.nil_subset, and_true, hps]

theorem Dev.nvmeDeleteCq_besides (fn : Nat) (x : NvmeFields) (d : Dev) (hps : [.links, .functions, .storage, .retained, .registers, .output] ⊆ ps) :
    (Dev.nvmeDeleteCq fn x d).besides ps = d.besides ps := by
  simp only [List.cons_subset, List.nil_subset, and_true] at hps
  simp only [Dev.nvmeDeleteCq, ↓Dev.adminDone_besides, ↓Dev.onNvme_besides, ↓Dev.besides_ite, ite_self, List.cons_subset, List.nil_subset,
      and_true, hps]

theorem Dev.adminData_besides (fn : Nat) (x : NvmeFields) (data : List Byte) (d : Dev) (hps : [.links, .functions, .storage, .retained,
    .registers, .output] ⊆ ps) :
    (Dev.adminData fn x data d).besides ps = d.besides ps := by
  simp only [List.cons_subset, List.nil_subset, and_true] at hps
  unfold Dev.adminData
  split <;> simp only [↓Dev.adminDone_besides, ↓Dev.hostWrite_besides, ↓Dev.besides_each, List.cons_subset, List.nil_subset, and_true,
      implies_true, hps]

theorem Dev.nvmeDeleteSq_besides (fn : Nat) (x : NvmeFields) (d : Dev) (hps : [.links, .functions, .storage, .retained, .registers, .output] ⊆ ps) :
    (Dev.nvmeDeleteSq fn x d).besides ps = d.besides ps := by
  simp only [List.cons_subset, List.nil_subset, and_true] at hps
  simp only [Dev.nvmeDeleteSq, ↓Dev.adminDone_besides, ↓Dev.onNvme_besides, ↓Dev.besides_ite, ite_self, List.cons_subset, List.nil_subset,
      and_true, hps]

theorem Dev.badSqDoorbell_besides (fn : Nat) (d : Dev) (hps : [.links, .functions, .routes, .storage, .retained, .registers, .output] ⊆ ps) :
    (Dev.badSqDoorbell fn d).besides ps = d.besides ps := by
  simp only [List.cons_subset, List.nil_subset, and_true] at hps
  simp only [Dev.badSqDoorbell, ↓Dev.bump_besides, ↓Dev.cause_besides, ↓Dev.nvmeEvent_besides, List.cons_subset, List.nil_subset, and_true, hps]

theorem Dev.fillRing_besides (r : Nat) (f : Frame) (c : Cpl) (d : Dev) (hps : [.links, .functions, .rings, .retained, .registers, .output] ⊆ ps) :
    (Dev.fillRing r f c d).besides ps = d.besides ps := by
  simp only [List.cons_subset, List.nil_subset, and_true] at hps
  unfold Dev.fillRing
  split
  · rfl
  · simp only [↓Dev.flushOwed_besides, ↓Dev.owe_besides, ↓Dev.rejectBuffers_besides, ↓Dev.besides_each, List.cons_subset, List.nil_subset,
        and_true, implies_true, hps]
    refine (Dev.besides_each _ _ _ fun p e => ?_).trans ?_
    · split <;> simp only [↓Dev.hostWrite_besides, ↓Dev.besides_ite, ite_self, List.cons_subset, List.nil_subset, and_true, hps]
    · simp only [↓Dev.onRing_besides, List.cons_subset, List.nil_subset, and_true, hps]

theorem Dev.landDescriptors_besides (r first : Nat) (data : List Byte) (d : Dev) (hps : [.links, .functions, .rings, .shares, .storage,
    .retained, .registers, .output] ⊆ ps) :
    (Dev.landDescriptors r first data d).besides ps = d.besides ps := by
  simp only [List.cons_subset, List.nil_subset, and_true] at hps
  unfold Dev.landDescriptors
  split <;> simp only [↓Dev.fetch_besides, ↓Dev.onRing_besides, ↓Dev.rejectBuffers_besides, ↓Dev.stampLanded_besides, ↓Dev.besides_ite,
      ite_self, List.cons_subset, List.nil_subset, and_true, hps]

theorem Dev.flushQp_besides (q first : Nat) (d : Dev) (hps : [.links, .functions, .rings, .storage, .retained, .registers, .output] ⊆ ps) :
    (Dev.flushQp q first d).besides ps = d.besides ps := by
  simp only [List.cons_subset, List.nil_subset, and_true] at hps
  simp only [Dev.flushQp, ↓Dev.endWork_besides, ↓Dev.flushReceives_besides, ↓Dev.onQp_besides, ↓Dev.besides_each, List.cons_subset,
      List.nil_subset, and_true, implies_true, hps]

theorem Dev.flushLateReceives_besides (r : Nat) (d : Dev) (hps : [.links, .functions, .rings, .storage, .retained, .registers, .output] ⊆ ps) :
    (Dev.flushLateReceives r d).besides ps = d.besides ps := by
  simp only [List.cons_subset, List.nil_subset, and_true] at hps
  unfold Dev.flushLateReceives
  split <;> simp only [↓Dev.flushReceives_besides, ↓Dev.besides_ite, ite_self, List.cons_subset, List.nil_subset, and_true, hps]

theorem Dev.writeHeld_besides (d : Dev) (hps : [.links, .functions, .routes, .rings, .time, .retained, .registers, .output] ⊆ ps) :
    (Dev.writeHeld d).besides ps = d.besides ps := by
  simp only [List.cons_subset, List.nil_subset, and_true] at hps
  simp only [Dev.writeHeld, ↓Dev.writeCapture_besides, ↓Dev.besides_tempo, ↓Dev.besides_each, List.cons_subset, List.nil_subset, and_true,
      implies_true, hps]

theorem Dev.edge_besides (p : Nat) (rising : Bool) (d : Dev) (hps : [.links, .functions, .routes, .rings, .time, .retained, .registers,
    .output] ⊆ ps) :
    (Dev.edge p rising d).besides ps = d.besides ps := by
  simp only [List.cons_subset, List.nil_subset, and_true] at hps
  simp only [Dev.edge, ↓Dev.bump_besides, ↓Dev.cause_besides, ↓Dev.onTimePin_besides, ↓Dev.writeCapture_besides, ↓Dev.besides_ite,
      ite_self, List.cons_subset, List.nil_subset, and_true, hps]

theorem Dev.transmit_besides (m cls : Nat) (d : Dev) (hps : [.links, .functions, .routes, .rings, .ports, .retained, .registers, .output] ⊆ ps) :
    (Dev.transmit m cls d).besides ps = d.besides ps := by
  simp only [List.cons_subset, List.nil_subset, and_true] at hps
  unfold Dev.transmit
  split <;> simp only [↓Dev.onMac_besides, ↓Dev.startFrame_besides, ↓Dev.besides_ite, ite_self, List.cons_subset, List.nil_subset, and_true, hps]

theorem Dev.launchFirst_besides (m : Nat) (d : Dev) (hps : [.links, .functions, .routes, .rings, .ports, .retained, .registers, .output] ⊆ ps) :
    (Dev.launchFirst m d).besides ps = d.besides ps := by
  simp only [List.cons_subset, List.nil_subset, and_true] at hps
  unfold Dev.launchFirst
  repeat' split
  all_goals simp only [↓Dev.bump_besides, ↓Dev.onMac_besides, ↓Dev.startFrame_besides, List.cons_subset, List.nil_subset, and_true, hps]

theorem Dev.espExhaust_besides (c : Nat) (d : Dev) (hps : [.links, .functions, .routes, .rings, .contexts, .retained, .registers, .output] ⊆ ps) :
    (Dev.espExhaust c d).besides ps = d.besides ps := by
  simp only [List.cons_subset, List.nil_subset, and_true] at hps
  simp only [Dev.espExhaust, ↓Dev.bump_besides, ↓Dev.bumpCtx_besides, ↓Dev.cryRecord_besides, ↓Dev.putCtxBit_besides, List.cons_subset,
      List.nil_subset, and_true, hps]

theorem Dev.failTls_besides (i c : Nat) (d : Dev) (hps : [.power, .links, .functions, .routes, .rings, .items, .tables, .contexts,
    .retained, .registers, .output] ⊆ ps) :
    (Dev.failTls i c d).besides ps = d.besides ps := by
  simp only [List.cons_subset, List.nil_subset, and_true] at hps
  simp only [Dev.failTls, ↓Dev.completeSource_besides, ↓Dev.cryRecord_besides, ↓Dev.putCtxBit_besides, List.cons_subset, List.nil_subset,
      and_true, hps]

theorem Dev.espNumber_besides (c : Nat) (d : Dev) (hps : [.links, .functions, .routes, .rings, .contexts, .retained, .registers, .output] ⊆ ps) :
    (Dev.espNumber c d).2.besides ps = d.besides ps := by
  simp only [List.cons_subset, List.nil_subset, and_true] at hps
  simp only [Dev.espNumber, ↓Dev.cryRecord_besides, ↓Dev.setCtx_besides, ↓Dev.besides_ite, ite_self, List.cons_subset, List.nil_subset, and_true, hps]

theorem Dev.tlsProcess_besides (c : Nat) (cfg : ParseCfg) (f : Frame) (d : Dev) (hps : [.links, .functions, .routes, .rings, .contexts,
    .retained, .registers, .output] ⊆ ps) :
    (Dev.tlsProcess c cfg f d).2.besides ps = d.besides ps := by
  simp only [List.cons_subset, List.nil_subset, and_true] at hps
  simp only [Dev.tlsProcess]
  repeat' split
  all_goals simp only [↓Dev.bump_besides, ↓Dev.bumpCtx_besides, ↓Dev.cryJob_besides, ↓Dev.cryRecord_besides, ↓Dev.putCtxBit_besides,
      ↓Dev.setCtx_besides, List.cons_subset, List.nil_subset, and_true, hps]

theorem Dev.macsecSeal_besides (c : Nat) (f : Frame) (d : Dev) (hps : [.links, .functions, .routes, .rings, .contexts, .retained,
    .registers, .output] ⊆ ps) :
    (Dev.macsecSeal c f d).2.besides ps = d.besides ps := by
  simp only [List.cons_subset, List.nil_subset, and_true] at hps
  simp only [Dev.macsecSeal, ↓Dev.bumpCtx_besides, ↓Dev.cryJob_besides, ↓Dev.cryRecord_besides, ↓Dev.setCtx_besides, ↓Dev.besides_ite,
      ite_self, List.cons_subset, List.nil_subset, and_true, hps]

theorem Dev.ageVisit_besides (t i : Nat) (d : Dev) (hps : [.links, .functions, .routes, .rings, .tables, .retained, .registers, .output] ⊆ ps) :
    (Dev.ageVisit t i d).besides ps = d.besides ps := by
  simp only [List.cons_subset, List.nil_subset, and_true] at hps
  simp only [Dev.ageVisit, ↓Dev.bump_besides, ↓Dev.learnRecord_besides, ↓Dev.setCuckoo_besides, ↓Dev.besides_ite, ite_self,
      List.cons_subset, List.nil_subset, and_true, hps]

theorem Dev.learnMove_besides (i : Nat) (e : MtbEntry) (o : LearnOffer) (d : Dev) (hps : [.links, .functions, .routes, .rings, .tables,
    .retained, .registers, .output] ⊆ ps) :
    (Dev.learnMove i e o d).besides ps = d.besides ps := by
  simp only [List.cons_subset, List.nil_subset, and_true] at hps
  simp only [Dev.learnMove, ↓Dev.cause_besides, ↓Dev.learnRecord_besides, ↓Dev.setCuckoo_besides, ↓Dev.stampHit_besides, ↓Dev.besides_ite,
      ite_self, List.cons_subset, List.nil_subset, and_true, hps]

theorem Dev.loseConn_besides (c kind : Nat) (d : Dev) (hps : [.links, .functions, .routes, .rings, .contexts, .storage, .retained,
    .registers, .output] ⊆ ps) :
    (Dev.loseConn c kind d).besides ps = d.besides ps := by
  simp only [List.cons_subset, List.nil_subset, and_true] at hps
  simp only [Dev.loseConn, ↓Dev.cause_besides, ↓Dev.endCmd_besides, ↓Dev.onConn_besides, ↓Dev.openConn_besides, ↓Dev.stoRecord_besides,
      ↓Dev.besides_ite, ↓Dev.besides_each, ite_self, List.cons_subset, List.nil_subset, and_true, implies_true, hps]

theorem Dev.endQpCmds_besides (q : Nat) (d : Dev) (hps : [.links, .functions, .routes, .rings, .contexts, .storage, .retained, .registers,
    .output] ⊆ ps) :
    (Dev.endQpCmds q d).besides ps = d.besides ps := by
  simp only [List.cons_subset, List.nil_subset, and_true] at hps
  simp only [Dev.endQpCmds, ↓Dev.cause_besides, ↓Dev.endCmd_besides, ↓Dev.onQp_besides, ↓Dev.stoRecord_besides, ↓Dev.besides_ite,
      ↓Dev.besides_each, ite_self, List.cons_subset, List.nil_subset, and_true, implies_true, hps]

theorem Dev.switchTimeout_besides (i : Nat) (it : Item) (d : Dev) (hps : [.power, .links, .functions, .routes, .rings, .items, .tables,
    .retained, .registers, .output] ⊆ ps) :
    (Dev.switchTimeout i it d).besides ps = d.besides ps := by
  simp only [List.cons_subset, List.nil_subset, and_true] at hps
  simp only [Dev.switchTimeout, ↓Dev.leaveWaiting_besides, ↓Dev.refuseSource_besides, ↓Dev.besides_ite, ite_self, List.cons_subset,
      List.nil_subset, and_true, hps]

theorem Dev.dbgCommand_besides (p cmd : Nat) (d : Dev) (hps : [.routes, .rings, .items, .ports, .sets, .retained, .registers, .output] ⊆ ps) :
    (Dev.dbgCommand p cmd d).besides ps = d.besides ps := by
  simp only [List.cons_subset, List.nil_subset, and_true] at hps
  simp only [Dev.dbgCommand, ↓Dev.dbgKillOp_besides, ↓Dev.dbgResume_besides, ↓Dev.dbgStepOp_besides, ↓Dev.dbgStop_besides,
      ↓Dev.besides_ite, ite_self, List.cons_subset, List.nil_subset, and_true, hps]

theorem Dev.post_besides (c : Nat) (words : List Nat) (len : Nat) (d : Dev) (hps : [.power, .links, .functions, .channels, .routes, .rings,
    .items, .ports, .sets, .stream, .retained, .registers, .output] ⊆ ps) :
    (Dev.post c words len d).besides ps = d.besides ps := by
  simp only [List.cons_subset, List.nil_subset, and_true] at hps
  simp only [Dev.post]
  repeat' split
  all_goals simp only [↓Dev.acknowledge_besides, ↓Dev.announceArrival_besides, ↓Dev.bump_besides, ↓Dev.cause_besides, ↓Dev.onChan_besides,
      ↓Dev.setFull_besides, ↓Dev.wr_besides, List.cons_subset, List.nil_subset, and_true, hps]

theorem Dev.redeliver_besides (mid : Nat) (d : Dev) (hps : [.power, .links, .functions, .channels, .routes, .rings, .items, .ports, .sets,
    .retained, .registers, .output] ⊆ ps) :
    (Dev.redeliver mid d).besides ps = d.besides ps := by
  simp only [List.cons_subset, List.nil_subset, and_true] at hps
  have hblank (c : Nat) (e : Dev) : (Dev.each (List.range 16) (fun n d => d.wr R.MBX_TX_DATA_data 0 0 (256 * c + 4 * n)) e).besides ps =
      e.besides ps := by
    simp only [↓Dev.wr_besides, ↓Dev.besides_each, List.cons_subset, List.nil_subset, and_true, implies_true, hps]
  simp only [Dev.redeliver]
  refine (Dev.besides_each _ _ _ fun c e => hblank c e).trans (Dev.besides_each _ _ _ fun c e => ?_)
  simp only [↓Dev.announceArrival_besides, ↓Dev.cause_besides, ↓Dev.onChan_besides, ↓Dev.besides_ite, ite_self, List.cons_subset,
      List.nil_subset, and_true, hps]

theorem Dev.payloadPiece_besides (i key : Nat) (data : Option (List Byte)) (d : Dev) (hps : [.links, .routes, .rings, .items, .ports,
    .sets, .retained, .registers, .output] ⊆ ps) :
    (Dev.payloadPiece i key data d).besides ps = d.besides ps := by
  simp only [List.cons_subset, List.nil_subset, and_true] at hps
  simp only [Dev.payloadPiece, ↓Dev.onItem_besides, ↓Dev.payloadDone_besides, List.cons_subset, List.nil_subset, and_true, hps]

theorem Dev.issuePayload_besides (i : Nat) (d : Dev) (hps : [.links, .routes, .rings, .items, .ports, .sets, .retained, .registers, .output] ⊆ ps) :
    (Dev.issuePayload i d).besides ps = d.besides ps := by
  simp only [List.cons_subset, List.nil_subset, and_true] at hps
  simp only [Dev.issuePayload]
  repeat' split
  all_goals simp only [↓Dev.answerPayload_besides, ↓Dev.onItem_besides, ↓Dev.payloadDone_besides, ↓Dev.readSegments_besides,
      ↓Dev.skipPayload_besides, ↓Dev.stallRing_besides, List.cons_subset, List.nil_subset, and_true, hps]

theorem Dev.nvmeLogPage_besides (fn : Nat) (x : NvmeFields) (d : Dev) (hps : [.links, .functions, .storage, .retained, .registers, .output] ⊆ ps) :
    (Dev.nvmeLogPage fn x d).besides ps = d.besides ps := by
  simp only [List.cons_subset, List.nil_subset, and_true] at hps
  simp only [Dev.nvmeLogPage, ↓Dev.adminData_besides, ↓Dev.adminDone_besides, ↓Dev.freeBytes_besides, ↓Dev.besides_ite, ite_self,
      List.cons_subset, List.nil_subset, and_true, hps]

theorem Dev.nvmeIdentify_besides (fn : Nat) (x : NvmeFields) (d : Dev) (hps : [.links, .functions, .storage, .retained, .registers, .output] ⊆ ps) :
    (Dev.nvmeIdentify fn x d).besides ps = d.besides ps := by
  simp only [List.cons_subset, List.nil_subset, and_true] at hps
  simp only [Dev.nvmeIdentify, ↓Dev.adminData_besides, ↓Dev.adminDone_besides, ↓Dev.freeBytes_besides, ↓Dev.besides_ite, ite_self,
      List.cons_subset, List.nil_subset, and_true, hps]

theorem Dev.cqDoorbell_besides (fn q head : Nat) (d : Dev) (hps : [.links, .functions, .routes, .storage, .retained, .registers, .output] ⊆ ps) :
    (Dev.cqDoorbell fn q head d).besides ps = d.besides ps := by
  simp only [List.cons_subset, List.nil_subset, and_true] at hps
  unfold Dev.cqDoorbell
  split <;> simp only [↓Dev.badSqDoorbell_besides, ↓Dev.flushNvme_besides, ↓Dev.onNvme_besides, ↓Dev.besides_ite, ite_self,
      List.cons_subset, List.nil_subset, and_true, hps]

theorem Dev.sqDoorbell_besides (fn q tail : Nat) (d : Dev) (hps : [.links, .functions, .routes, .shares, .storage, .retained, .registers,
    .output] ⊆ ps) :
    (Dev.sqDoorbell fn q tail d).besides ps = d.besides ps := by
  simp only [List.cons_subset, List.nil_subset, and_true] at hps
  unfold Dev.sqDoorbell
  split
  · simp only
  · split <;> simp only [↓Dev.badSqDoorbell_besides, ↓Dev.fetchSq_besides, ↓Dev.onNvme_besides, ↓Dev.besides_ite, ite_self,
        List.cons_subset, List.nil_subset, and_true, hps]

theorem Dev.deliverRx_besides (i : Nat) (it : Item) (r : Nat) (d : Dev) (hps : [.power, .links, .functions, .routes, .rings, .items,
    .tables, .retained, .registers, .output] ⊆ ps) :
    (Dev.deliverRx i it r d).besides ps = d.besides ps := by
  simp only [List.cons_subset, List.nil_subset, and_true] at hps
  unfold Dev.deliverRx
  repeat' split
  all_goals simp only [↓Dev.bump_besides, ↓Dev.fillRing_besides, ↓Dev.flushOwed_besides, ↓Dev.leaveWaiting_besides, ↓Dev.onRing_besides,
      ↓Dev.owe_besides, ↓Dev.rejectBuffers_besides, ↓Dev.retired_besides, ↓Dev.rxRecord_besides, List.cons_subset, List.nil_subset,
      and_true, hps]

theorem Dev.qpError_besides (q kind psn first : Nat) (d : Dev) (hps : [.links, .functions, .routes, .rings, .contexts, .storage, .retained,
    .registers, .output] ⊆ ps) :
    (Dev.qpError q kind psn first d).besides ps = d.besides ps := by
  simp only [List.cons_subset, List.nil_subset, and_true] at hps
  simp only [Dev.qpError, ↓Dev.flushQp_besides, ↓Dev.notify_besides, ↓Dev.setCtx_besides, ↓Dev.besides_ite, ite_self, List.cons_subset,
      List.nil_subset, and_true, hps]

theorem Dev.takeWork_besides (r want : Nat) (d : Dev) (hps : [.links, .functions, .rings, .items, .storage, .retained, .registers, .output] ⊆ ps) :
    (Dev.takeWork r want d).besides ps = d.besides ps := by
  simp only [List.cons_subset, List.nil_subset, and_true] at hps
  unfold Dev.takeWork
  split
  · simp only
  · split <;> simp only [↓Dev.addItem_besides, ↓Dev.directItem_besides, ↓Dev.flushLateReceives_besides, ↓Dev.onRing_besides,
        ↓Dev.besides_ite, ite_self, List.cons_subset, List.nil_subset, and_true, hps]

theorem Dev.exhaustItem_besides (i : Nat) (it : Item) (d : Dev) (hps : [.power, .links, .functions, .routes, .rings, .items, .tables,
    .contexts, .retained, .registers, .output] ⊆ ps) :
    (Dev.exhaustItem i it d).besides ps = d.besides ps := by
  simp only [List.cons_subset, List.nil_subset, and_true] at hps
  unfold Dev.exhaustItem
  split
  · simp only
  · split <;> simp only [↓Dev.completeSource_besides, ↓Dev.espExhaust_besides, List.cons_subset, List.nil_subset, and_true, hps]

theorem Dev.protectEsp_besides (m c : Nat) (f : Frame) (d : Dev) (hps : [.links, .functions, .routes, .rings, .ports, .contexts, .retained,
    .registers, .output] ⊆ ps) :
    (Dev.protectEsp m c f d).2.besides ps = d.besides ps := by
  simp only [List.cons_subset, List.nil_subset, and_true] at hps
  unfold Dev.protectEsp
  split <;> simp only [↓Dev.bumpCtx_besides, ↓Dev.cryJob_besides, ↓Dev.espNumber_besides, ↓Dev.onMac_besides, ↓Dev.besides_ite, ite_self,
      List.cons_subset, List.nil_subset, and_true, hps]

theorem Dev.learn_besides (f : Nat) (o : LearnOffer) (d : Dev) (hps : [.links, .functions, .routes, .rings, .tables, .retained, .registers,
    .output] ⊆ ps) :
    (Dev.learn f o d).besides ps = d.besides ps := by
  simp only [List.cons_subset, List.nil_subset, and_true] at hps
  simp only [Dev.learn]
  split <;> simp only [↓Dev.bump_besides, ↓Dev.cause_besides, ↓Dev.insertNew_besides, ↓Dev.learnMove_besides, ↓Dev.learnRecord_besides,
      ↓Dev.stampHit_besides, ↓Dev.besides_ite, ite_self, List.cons_subset, List.nil_subset, and_true, hps]

theorem Dev.takePdu_besides (c type flags : Nat) (psh data : List Byte) (d : Dev) (hps : [.links, .functions, .routes, .rings, .contexts,
    .storage, .retained, .registers, .output] ⊆ ps) :
    (Dev.takePdu c type flags psh data d).2.besides ps = d.besides ps := by
  simp only [List.cons_subset, List.nil_subset, and_true] at hps
  simp only [Dev.takePdu]
  repeat' split
  all_goals simp only [↓Dev.dropCmd_besides, ↓Dev.endCmd_besides, ↓Dev.loseConn_besides, ↓Dev.placeRead_besides, ↓Dev.putCmd_besides,
      List.cons_subset, List.nil_subset, and_true, hps]

theorem Dev.eraseContext_besides (c : Nat) (d : Dev) (hps : [.links, .functions, .routes, .rings, .contexts, .storage, .retained,
    .registers, .output] ⊆ ps) :
    (Dev.eraseContext c d).besides ps = d.besides ps := by
  simp only [List.cons_subset, List.nil_subset, and_true] at hps
  simp only [Dev.eraseContext, ↓Dev.endQpCmds_besides, ↓Dev.flushQp_besides, ↓Dev.loseConn_besides,
      ↓Dev.besides_ctxs_ctxKeys_ctxFailed_qps_conns, ↓Dev.besides_ite, ite_self, List.cons_subset, List.nil_subset, and_true, hps]

theorem Dev.loseQpCmds_besides (q : Nat) (d : Dev) (hps : [.links, .functions, .routes, .rings, .contexts, .storage, .retained, .registers,
    .output] ⊆ ps) :
    (Dev.loseQpCmds q d).besides ps = d.besides ps := by
  simp only [List.cons_subset, List.nil_subset, and_true] at hps
  simp only [Dev.loseQpCmds, ↓Dev.endQpCmds_besides, ↓Dev.besides_ite, ite_self, List.cons_subset, List.nil_subset, and_true, hps]

theorem Dev.writeSet_besides (mid p off v : Nat) (d : Dev) (hps : [.routes, .rings, .items, .ports, .sets, .retained, .registers, .output] ⊆ ps) :
    (Dev.writeSet mid p off v d).besides ps = d.besides ps := by
  simp only [List.cons_subset, List.nil_subset, and_true] at hps
  simp only [Dev.writeSet, ↓Dev.csRead_besides, ↓Dev.csWrite_besides, ↓Dev.dbgCommand_besides, ↓Dev.plainWrite_besides, ↓Dev.besides_ite,
      ite_self, List.cons_subset, List.nil_subset, and_true, hps]

theorem Dev.sendNext_besides (fn : Nat) (d : Dev) (hps : [.power, .links, .functions, .channels, .routes, .rings, .items, .ports, .sets,
    .stream, .retained, .registers, .output] ⊆ ps) :
    (Dev.sendNext fn d).besides ps = d.besides ps := by
  simp only [List.cons_subset, List.nil_subset, and_true] at hps
  unfold Dev.sendNext
  split <;> simp only [↓Dev.onFn_besides, ↓Dev.post_besides, ↓Dev.besides_ite, ite_self, List.cons_subset, List.nil_subset, and_true, hps]

theorem Dev.mbxSend_besides (mid c len : Nat) (d : Dev) (hps : [.power, .links, .functions, .channels, .routes, .rings, .items, .ports,
    .sets, .stream, .retained, .registers, .output] ⊆ ps) :
    (Dev.mbxSend mid c len d).besides ps = d.besides ps := by
  simp only [List.cons_subset, List.nil_subset, and_true] at hps
  unfold Dev.mbxSend
  split <;> simp only [↓Dev.post_besides, ↓Dev.wr_besides, ↓Dev.wrongMid_besides, ↓Dev.besides_ite, ite_self, List.cons_subset,
      List.nil_subset, and_true, hps]

theorem Dev.sayNext_besides (d : Dev) (hps : [.power, .links, .functions, .channels, .routes, .rings, .items, .ports, .sets, .stream,
    .retained, .registers, .output] ⊆ ps) :
    (Dev.sayNext d).besides ps = d.besides ps := by
  simp only [List.cons_subset, List.nil_subset, and_true] at hps
  unfold Dev.sayNext
  split <;> simp only [↓Dev.onStp_besides, ↓Dev.post_besides, ↓Dev.besides_ite, ite_self, List.cons_subset, List.nil_subset, and_true, hps]

theorem Dev.leaveSet_besides (p trigger : Nat) (d : Dev) (hps : [.start, .positions, .power, .links, .functions, .channels, .routes,
    .rings, .items, .ports, .tables, .sets, .retained, .registers, .output] ⊆ ps) :
    (Dev.leaveSet p trigger d).2.besides ps = d.besides ps := by
  simp only [List.cons_subset, List.nil_subset, and_true] at hps
  simp only [Dev.leaveSet]
  split <;> simp only [↓Dev.cardChanged_besides, ↓Dev.dropLost_besides, ↓Dev.onPower_besides, ↓Dev.onSite_besides, ↓Dev.putSlot_besides,
      ↓Dev.redeliver_besides, ↓Dev.replay_besides, ↓Dev.swapSets_besides, ↓Dev.updateHeadroom_besides, List.cons_subset, List.nil_subset,
      and_true, hps]

theorem Dev.leaveCore_besides (k : Nat) (d : Dev) (hps : [.start, .positions, .power, .links, .functions, .channels, .routes, .rings,
    .items, .ports, .sets, .retained, .registers, .output] ⊆ ps) :
    (Dev.leaveCore k d).besides ps = d.besides ps := by
  simp only [List.cons_subset, List.nil_subset, and_true] at hps
  simp only [Dev.leaveCore, ↓Dev.cardChanged_besides, ↓Dev.redeliver_besides, ↓Dev.besides_cores, List.cons_subset, List.nil_subset, and_true, hps]

theorem Dev.retireToRing_besides (i : Nat) (it : Item) (r : Nat) (d : Dev) (hps : [.power, .links, .functions, .routes, .rings, .items,
    .tables, .retained, .registers, .output] ⊆ ps) :
    (Dev.retireToRing i it r d).besides ps = d.besides ps := by
  simp only [List.cons_subset, List.nil_subset, and_true] at hps
  unfold Dev.retireToRing
  split <;> simp only [↓Dev.deliverRx_besides, ↓Dev.joinWaiting_besides, ↓Dev.besides_ite, ite_self, List.cons_subset, List.nil_subset, and_true, hps]

theorem Dev.respondError_besides (q syndrome kind psn recvError : Nat) (d : Dev) (hps : [.links, .functions, .routes, .rings, .contexts,
    .storage, .retained, .registers, .output] ⊆ ps) :
    (Dev.respondError q syndrome kind psn recvError d).2.besides ps = d.besides ps := by
  simp only [List.cons_subset, List.nil_subset, and_true] at hps
  unfold Dev.respondError
  split <;> simp only [↓Dev.endWork_besides, ↓Dev.onQp_besides, ↓Dev.qpError_besides, ↓Dev.besides_ite, ite_self, List.cons_subset,
      List.nil_subset, and_true, hps]

theorem Dev.protect_besides (m : Nat) (esp : Option Nat) (f : Frame) (d : Dev) (hps : [.links, .functions, .routes, .rings, .ports,
    .contexts, .retained, .registers, .output] ⊆ ps) :
    (Dev.protect m esp f d).2.besides ps = d.besides ps := by
  simp only [List.cons_subset, List.nil_subset, and_true] at hps
  simp only [Dev.protect]
  repeat' split
  all_goals simp only [↓Dev.macsecSeal_besides, ↓Dev.protectEsp_besides, List.cons_subset, List.nil_subset, and_true, hps]

theorem Dev.switchOne_besides (it : Item) (r : Nat) (f : Frame) (d : Dev) (hps : [.links, .functions, .routes, .rings, .ports, .contexts,
    .retained, .registers, .output] ⊆ ps) :
    (Dev.switchOne it r f d).besides ps = d.besides ps := by
  simp only [List.cons_subset, List.nil_subset, and_true] at hps
  unfold Dev.switchOne
  split <;> simp only [↓Dev.fillRing_besides, ↓Dev.protectEsp_besides, List.cons_subset, List.nil_subset, and_true, hps]

theorem Dev.learnNext_besides (f : Nat) (l : Learning) (d : Dev) (hps : [.links, .functions, .routes, .rings, .tables, .retained,
    .registers, .output] ⊆ ps) :
    (Dev.learnNext f l d).besides ps = d.besides ps := by
  simp only [List.cons_subset, List.nil_subset, and_true] at hps
  simp only [Dev.learnNext, ↓Dev.bump_besides, ↓Dev.cause_besides, ↓Dev.learn_besides, ↓Dev.onMtb_besides, ↓Dev.besides_ite, ite_self,
      List.cons_subset, List.nil_subset, and_true, hps]

theorem Dev.loseContext_besides (c : Nat) (d : Dev) (hps : [.links, .functions, .routes, .rings, .contexts, .storage, .retained,
    .registers, .output] ⊆ ps) :
    (Dev.loseContext c d).besides ps = d.besides ps := by
  simp only [List.cons_subset, List.nil_subset, and_true] at hps
  simp only [Dev.loseContext, ↓Dev.cause_besides, ↓Dev.cryRecord_besides, ↓Dev.loseConn_besides, ↓Dev.loseQpCmds_besides,
      ↓Dev.putCtxBit_besides, ↓Dev.qpError_besides, ↓Dev.besides_ctxFailed, ↓Dev.besides_ite, ite_self, List.cons_subset, List.nil_subset,
      and_true, hps]

theorem Dev.contextWritten_besides (c : Nat) (fresh : Bool) (d : Dev) (hps : [.links, .functions, .routes, .rings, .contexts, .storage,
    .retained, .registers, .output] ⊆ ps) :
    (Dev.contextWritten c fresh d).besides ps = d.besides ps := by
  simp only [List.cons_subset, List.nil_subset, and_true] at hps
  unfold Dev.contextWritten
  split <;> simp only [↓Dev.flushQp_besides, ↓Dev.loseQpCmds_besides, ↓Dev.openConn_besides, ↓Dev.besides_qps, ↓Dev.besides_ite, ite_self,
      List.cons_subset, List.nil_subset, and_true, hps]

theorem Dev.sendTo_besides (fn : Nat) (words : List Nat) (d : Dev) (hps : [.power, .links, .functions, .channels, .routes, .rings, .items,
    .ports, .sets, .stream, .retained, .registers, .output] ⊆ ps) :
    (Dev.sendTo fn words d).besides ps = d.besides ps := by
  simp only [List.cons_subset, List.nil_subset, and_true] at hps
  simp only [Dev.sendTo, ↓Dev.onFn_besides, ↓Dev.sendNext_besides, ↓Dev.besides_ite, ite_self, List.cons_subset, List.nil_subset, and_true, hps]

theorem Dev.sendEpilogue_besides (fn : Nat) (d : Dev) (hps : [.power, .links, .functions, .channels, .routes, .rings, .items, .ports,
    .sets, .stream, .retained, .registers, .output] ⊆ ps) :
    (Dev.sendEpilogue fn d).besides ps = d.besides ps := by
  simp only [List.cons_subset, List.nil_subset, and_true] at hps
  unfold Dev.sendEpilogue
  split <;> simp only [↓Dev.onFn_besides, ↓Dev.sendNext_besides, ↓Dev.besides_epilogues, ↓Dev.besides_ite, ite_self, List.cons_subset,
      List.nil_subset, and_true, hps]

theorem Dev.ackView_besides (c code : Nat) (d : Dev) (hps : [.power, .links, .functions, .channels, .routes, .rings, .items, .ports, .sets,
    .stream, .retained, .registers, .output] ⊆ ps) :
    (Dev.ackView c code d).besides ps = d.besides ps := by
  simp only [List.cons_subset, List.nil_subset, and_true] at hps
  simp only [Dev.ackView]
  repeat' split
  all_goals simp only [↓Dev.acknowledge_besides, ↓Dev.onChan_besides, ↓Dev.sendNext_besides, ↓Dev.setFull_besides, ↓Dev.wr_besides,
      List.cons_subset, List.nil_subset, and_true, hps]

theorem Dev.say_besides (words : List Nat) (d : Dev) (hps : [.power, .links, .functions, .channels, .routes, .rings, .items, .ports, .sets,
    .stream, .retained, .registers, .output] ⊆ ps) :
    (Dev.say words d).besides ps = d.besides ps := by
  simp only [List.cons_subset, List.nil_subset, and_true] at hps
  simp only [Dev.say, ↓Dev.onStp_besides, ↓Dev.sayNext_besides, ↓Dev.besides_ite, ite_self, List.cons_subset, List.nil_subset, and_true, hps]

theorem Dev.departSite_besides (unit site : Nat) (d : Dev) (hps : [.start, .positions, .power, .links, .functions, .channels, .routes,
    .rings, .items, .ports, .tables, .sets, .retained, .registers, .output] ⊆ ps) :
    (Dev.departSite unit site d).besides ps = d.besides ps := by
  simp only [List.cons_subset, List.nil_subset, and_true] at hps
  simp only [Dev.departSite]
  repeat' split
  all_goals simp only [↓Dev.finishRecord_besides, ↓Dev.free_besides, ↓Dev.leaveCry_besides, ↓Dev.leaveSet_besides, ↓Dev.putCry_besides,
      ↓Dev.putSlot_besides, ↓Dev.recordSeq_besides, List.cons_subset, List.nil_subset, and_true, hps]

theorem Dev.setFault_besides (p code addr : Nat) (thread : Option Nat) (d : Dev) (hps : [.start, .positions, .power, .links, .functions,
    .channels, .routes, .rings, .items, .ports, .tables, .sets, .retained, .registers, .output] ⊆ ps) :
    (Dev.setFault p code addr thread d).besides ps = d.besides ps := by
  simp only [List.cons_subset, List.nil_subset, and_true] at hps
  simp only [Dev.setFault, ↓Dev.cardChanged_besides, ↓Dev.cause_besides, ↓Dev.finishRecord_besides, ↓Dev.leaveSet_besides,
      ↓Dev.onPower_besides, ↓Dev.pushFault_besides, ↓Dev.putSlot_besides, ↓Dev.recordSeq_besides, ↓Dev.showSatOut_besides,
      ↓Dev.besides_ite, ite_self, List.cons_subset, List.nil_subset, and_true, hps]

theorem Dev.respondRead_besides (q : Nat) (it : Item) (b : Bth) (fresh : Bool) (d : Dev) (hps : [.links, .functions, .routes, .rings,
    .contexts, .storage, .retained, .registers, .output] ⊆ ps) :
    (Dev.respondRead q it b fresh d).2.besides ps = d.besides ps := by
  simp only [List.cons_subset, List.nil_subset, and_true] at hps
  unfold Dev.respondRead
  split <;> simp only [↓Dev.onQp_besides, ↓Dev.respondError_besides, ↓Dev.setRqPsn_besides, ↓Dev.besides_ite, ite_self, List.cons_subset,
      List.nil_subset, and_true, hps]

theorem Dev.respondSend_besides (q : Nat) (b : Bth) (f : Frame) (d : Dev) (hps : [.links, .functions, .routes, .rings, .contexts, .storage,
    .retained, .registers, .output] ⊆ ps) :
    (Dev.respondSend q b f d).2.besides ps = d.besides ps := by
  simp only [List.cons_subset, List.nil_subset, and_true] at hps
  simp only [Dev.respondSend]
  repeat' split
  all_goals simp only [↓Dev.endRecv_besides, ↓Dev.hostWrite_besides, ↓Dev.onQp_besides, ↓Dev.placed_besides, ↓Dev.respondError_besides,
      List.cons_subset, List.nil_subset, and_true, hps]
  all_goals simp only [↓Dev.takeRecv_besides, List.cons_subset, List.nil_subset, and_true, hps, Dev.besides_of_snd ‹_ = (_, _)›]

theorem Dev.respondNvme_besides (q : Nat) (b : Bth) (f : Frame) (d : Dev) (hps : [.links, .functions, .routes, .rings, .contexts, .storage,
    .retained, .registers, .output] ⊆ ps) :
    (Dev.respondNvme q b f d).2.besides ps = d.besides ps := by
  simp only [List.cons_subset, List.nil_subset, and_true] at hps
  simp only [Dev.respondNvme]
  repeat' split
  all_goals simp only [↓Dev.dropQpCmd_besides, ↓Dev.endCmd_besides, ↓Dev.onQp_besides, ↓Dev.placeRead_besides, ↓Dev.placed_besides,
      ↓Dev.putQpCmd_besides, ↓Dev.respondError_besides, ↓Dev.setRqPsn_besides, List.cons_subset, List.nil_subset, and_true, hps]

theorem Dev.respondWrite_besides (q : Nat) (b : Bth) (f : Frame) (d : Dev) (hps : [.links, .functions, .routes, .rings, .contexts,
    .storage, .retained, .registers, .output] ⊆ ps) :
    (Dev.respondWrite q b f d).2.besides ps = d.besides ps := by
  simp only [List.cons_subset, List.nil_subset, and_true] at hps
  unfold Dev.respondWrite
  extract_lets k starts ends withImm at1 imm at2 data
  split
  · simp only [↓Dev.respondError_besides, List.cons_subset, List.nil_subset, and_true, hps]
  · rename_i t c off e got e' p _
    split
    · simp only [↓Dev.respondError_besides, List.cons_subset, List.nil_subset, and_true, hps]
    · split
      · simp only [↓Dev.respondError_besides, List.cons_subset, List.nil_subset, and_true, hps]
      · split
        · simp only
        · have he : p.2.besides ps = d.besides ps := by simp only [p, e', e, ↓Dev.hostWrite_besides, ↓Dev.onQp_besides,
              ↓Dev.placed_besides, ↓Dev.besides_ite, ite_self, List.cons_subset, List.nil_subset, and_true, hps]
          split
          · exact he
          · split
            · next heq => simp only [↓Dev.endRecv_besides, ↓Dev.takeRecv_besides, List.cons_subset, List.nil_subset, and_true, hps,
                  Dev.besides_of_snd heq, he]
            · next heq => simp only [↓Dev.takeRecv_besides, List.cons_subset, List.nil_subset, and_true, hps, Dev.besides_of_snd heq, he]

theorem Dev.deliverSwitched_besides (i : Nat) (it : Item) (src : Ring) (r : Nat) (d : Dev) (hps : [.power, .links, .functions, .routes,
    .rings, .items, .ports, .tables, .contexts, .retained, .registers, .output] ⊆ ps) :
    (Dev.deliverSwitched i it src r d).besides ps = d.besides ps := by
  simp only [List.cons_subset, List.nil_subset, and_true] at hps
  simp only [Dev.deliverSwitched]
  repeat' split
  all_goals simp only [↓Dev.completeSource_besides, ↓Dev.leaveWaiting_besides, ↓Dev.owe_besides, ↓Dev.retired_besides,
      ↓Dev.switchOne_besides, ↓Dev.switchedRecord_besides, ↓Dev.takeIdents_besides, ↓Dev.tlsProcess_besides, ↓Dev.besides_each,
      List.cons_subset, List.nil_subset, and_true, implies_true, hps]

theorem Dev.takePdus_besides (c n : Nat) (r : List Byte × Dev) (hps : [.links, .functions, .routes, .rings, .contexts, .storage, .retained,
    .registers, .output] ⊆ ps) :
    (Dev.takePdus c n r).2.besides ps = r.2.besides ps := by
  simp only [List.cons_subset, List.nil_subset, and_true] at hps
  induction n generalizing r with
  | zero => rfl
  | succ n ih =>
    obtain ⟨out, d⟩ := r
    simp only [Dev.takePdus, apply_ite Prod.snd, ih, ↓Dev.bump_besides, ↓Dev.loseConn_besides, ↓Dev.onConn_besides, ↓Dev.takePdu_besides,
        ↓Dev.bump_besides, ↓Dev.loseConn_besides, ↓Dev.onConn_besides, ↓Dev.takePdu_besides, ↓Dev.besides_ite, ite_self, List.cons_subset,
        List.nil_subset, and_true, hps]

theorem Dev.answerRequest_besides (fn kind tag status : Nat) (results : List Nat) (d : Dev) (hps : [.power, .links, .functions, .channels,
    .routes, .rings, .items, .ports, .sets, .stream, .retained, .registers, .output] ⊆ ps) :
    (Dev.answerRequest fn kind tag status results d).besides ps = d.besides ps := by
  simp only [List.cons_subset, List.nil_subset, and_true] at hps
  simp only [Dev.answerRequest, ↓Dev.sendTo_besides, List.cons_subset, List.nil_subset, and_true, hps]

theorem Dev.readyEpilogue_besides (fn : Nat) (d : Dev) (hps : [.power, .links, .functions, .channels, .routes, .rings, .items, .ports,
    .sets, .stream, .retained, .registers, .output] ⊆ ps) :
    (Dev.readyEpilogue fn d).besides ps = d.besides ps := by
  simp only [List.cons_subset, List.nil_subset, and_true] at hps
  simp only [Dev.readyEpilogue]
  split <;> simp only [↓Dev.sendTo_besides, ↓Dev.besides_epilogues, ↓Dev.besides_ite, ite_self, List.cons_subset, List.nil_subset, and_true, hps]

theorem Dev.tell_besides (fn : Nat) (words : List Nat) (d : Dev) (hps : [.power, .links, .functions, .channels, .routes, .rings, .items,
    .ports, .sets, .stream, .retained, .registers, .output] ⊆ ps) :
    (Dev.tell fn words d).besides ps = d.besides ps := by
  simp only [List.cons_subset, List.nil_subset, and_true] at hps
  simp only [Dev.tell, ↓Dev.sendTo_besides, ↓Dev.besides_ite, ite_self, List.cons_subset, List.nil_subset, and_true, hps]

theorem Dev.answerS44_besides (fn kind tag status : Nat) (results : List Nat) (d : Dev) (hps : [.power, .links, .functions, .channels,
    .routes, .rings, .items, .ports, .sets, .stream, .retained, .registers, .output] ⊆ ps) :
    (Dev.answerS44 fn kind tag status results d).besides ps = d.besides ps := by
  simp only [List.cons_subset, List.nil_subset, and_true] at hps
  simp only [Dev.answerS44, ↓Dev.sendTo_besides, List.cons_subset, List.nil_subset, and_true, hps]

theorem Dev.nvmeCleared_besides (fn : Nat) (d : Dev) (hps : [.power, .links, .functions, .channels, .routes, .rings, .items, .ports, .sets,
    .storage, .stream, .retained, .registers, .output] ⊆ ps) :
    (Dev.nvmeCleared fn d).besides ps = d.besides ps := by
  simp only [List.cons_subset, List.nil_subset, and_true] at hps
  simp only [Dev.nvmeCleared, ↓Dev.cause_besides, ↓Dev.countControllers_besides, ↓Dev.onNvme_besides, ↓Dev.sendEpilogue_besides,
      ↓Dev.stoRecord_besides, ↓Dev.besides_epilogues, ↓Dev.besides_ite, ite_self, List.cons_subset, List.nil_subset, and_true, hps]

theorem Dev.ackRequest_besides (fn code : Nat) (d : Dev) (hps : [.power, .links, .functions, .channels, .routes, .rings, .items, .ports,
    .sets, .stream, .retained, .registers, .output] ⊆ ps) :
    (Dev.ackRequest fn code d).besides ps = d.besides ps := by
  simp only [List.cons_subset, List.nil_subset, and_true] at hps
  simp only [Dev.ackRequest, ↓Dev.ackView_besides, ↓Dev.latchView_besides, List.cons_subset, List.nil_subset, and_true, hps]

theorem Dev.mbxAck_besides (mid c code : Nat) (d : Dev) (hps : [.power, .links, .functions, .channels, .routes, .rings, .items, .ports,
    .sets, .stream, .retained, .registers, .output] ⊆ ps) :
    (Dev.mbxAck mid c code d).besides ps = d.besides ps := by
  simp only [List.cons_subset, List.nil_subset, and_true] at hps
  unfold Dev.mbxAck
  split <;> simp only [↓Dev.ackView_besides, ↓Dev.wrongMid_besides, ↓Dev.besides_ite, ite_self, List.cons_subset, List.nil_subset, and_true, hps]

theorem Dev.mbxWrite_besides (mid c off v : Nat) (d : Dev) (hps : [.power, .links, .functions, .channels, .routes, .rings, .items, .ports,
    .sets, .stream, .retained, .registers, .output] ⊆ ps) :
    (Dev.mbxWrite mid c off v d).besides ps = d.besides ps := by
  simp only [List.cons_subset, List.nil_subset, and_true] at hps
  unfold Dev.mbxWrite
  split <;> simp only [↓Dev.ackView_besides, ↓Dev.clearIf_besides, ↓Dev.mbxSend_besides, ↓Dev.wr_besides, ↓Dev.wrongMid_besides,
      ↓Dev.besides_ite, ite_self, List.cons_subset, List.nil_subset, and_true, hps]

theorem Dev.departSites_besides (unit : Nat) (bad : List Nat) (d : Dev) (hps : [.start, .positions, .power, .links, .functions, .channels,
    .routes, .rings, .items, .ports, .tables, .sets, .retained, .registers, .output] ⊆ ps) :
    (Dev.departSites unit bad d).besides ps = d.besides ps := by
  simp only [List.cons_subset, List.nil_subset, and_true] at hps
  simp only [Dev.departSites, ↓Dev.departSite_besides, ↓Dev.besides_each, List.cons_subset, List.nil_subset, and_true, implies_true, hps]

theorem Dev.fetchMicroword_besides (p t : Nat) (d : Dev) (hps : [.start, .positions, .power, .links, .functions, .channels, .routes,
    .rings, .items, .ports, .tables, .sets, .retained, .registers, .output] ⊆ ps) :
    (Dev.fetchMicroword p t d).besides ps = d.besides ps := by
  simp only [List.cons_subset, List.nil_subset, and_true] at hps
  unfold Dev.fetchMicroword
  split <;> simp only [↓Dev.bump_besides, ↓Dev.cause_besides, ↓Dev.onSite_besides, ↓Dev.setFault_besides, ↓Dev.besides_ite, ite_self,
      List.cons_subset, List.nil_subset, and_true, hps]

theorem Dev.protectAll_besides (m : Nat) (esp : Option Nat) (l : List Frame) (d : Dev) (hps : [.links, .functions, .routes, .rings, .ports,
    .contexts, .retained, .registers, .output] ⊆ ps) :
    (Dev.protectAll m esp l d).2.besides ps = d.besides ps := by
  simp only [List.cons_subset, List.nil_subset, and_true] at hps
  induction l generalizing d with
  | nil => rfl
  | cons f l ih => simp only [Dev.protectAll, ih, ↓Dev.protect_besides, ↓Dev.protect_besides, List.cons_subset, List.nil_subset, and_true, hps]

theorem Dev.trySwitched_besides (i : Nat) (it : Item) (src : Ring) (r : Nat) (first : Bool) (wait : Dev → Dev) (d : Dev) (hps : [.power,
    .links, .functions, .routes, .rings, .items, .ports, .tables, .contexts, .retained, .registers, .output] ⊆ ps) (hwait : ∀ e,
    (wait e).besides ps = e.besides ps) :
    (Dev.trySwitched i it src r first wait d).besides ps = d.besides ps := by
  simp only [List.cons_subset, List.nil_subset, and_true] at hps
  unfold Dev.trySwitched
  repeat' split
  all_goals simp only [↓Dev.deliverSwitched_besides, ↓Dev.exhaustItem_besides, ↓Dev.leaveWaiting_besides, ↓Dev.refuseSource_besides,
      List.cons_subset, List.nil_subset, and_true, hps, hwait]

theorem Dev.takeSegment_besides (c : Nat) (i : Ip) (f : Frame) (d : Dev) (hps : [.links, .functions, .routes, .rings, .contexts, .storage,
    .retained, .registers, .output] ⊆ ps) :
    (Dev.takeSegment c i f d).2.besides ps = d.besides ps := by
  simp only [List.cons_subset, List.nil_subset, and_true] at hps
  unfold Dev.takeSegment
  extract_lets o seq data flags opts d' a e
  have hd' : d'.besides ps = d.besides ps := by
    unfold d'
    split <;> simp only [↓Dev.onConn_besides, List.cons_subset, List.nil_subset, and_true, hps]
  have he : e.besides ps = d.besides ps := by
    simp only [e, a, apply_ite Prod.snd, ↓Dev.tcpAcked_besides, ↓Dev.besides_ite, ite_self, List.cons_subset, List.nil_subset, and_true, hps, hd']
  split
  · simp only [↓Dev.loseConn_besides, List.cons_subset, List.nil_subset, and_true, hps, hd']
  · split
    · simp only [↓Dev.loseConn_besides, List.cons_subset, List.nil_subset, and_true, hps, he]
    · split
      · exact he
      · rename_i e' r s _ _ _
        have hr : r.2.besides ps = d.besides ps := by simp only [r, e', ↓Dev.onConn_besides, ↓Dev.takePdus_besides, List.cons_subset,
            List.nil_subset, and_true, hps, he]
        split
        · exact hr
        · simp only [s, ↓Dev.tcpSend_besides, List.cons_subset, List.nil_subset, and_true, hps, hr]

theorem Dev.failJob_besides (j : Nat) (d : Dev) (hps : [.power, .links, .functions, .work, .channels, .routes, .rings, .items, .ports,
    .sets, .stream, .retained, .registers, .output] ⊆ ps) :
    (Dev.failJob j d).besides ps = d.besides ps := by
  simp only [List.cons_subset, List.nil_subset, and_true] at hps
  unfold Dev.failJob
  split <;> simp only [↓Dev.answerRequest_besides, ↓Dev.besides_jobs, List.cons_subset, List.nil_subset, and_true, hps]

theorem Dev.onOwnRing_besides (fn kind tag r : Nat) (pf : Bool) (act : Ring → Dev → Dev) (d : Dev) (hps : [.power, .links, .functions,
    .channels, .routes, .rings, .items, .ports, .sets, .stream, .retained, .registers, .output] ⊆ ps) (hact : ∀ a e,
    (act a e).besides ps = e.besides ps) :
    (Dev.onOwnRing fn kind tag r pf act d).besides ps = d.besides ps := by
  simp only [List.cons_subset, List.nil_subset, and_true] at hps
  unfold Dev.onOwnRing
  split <;> simp only [↓Dev.answerRequest_besides, ↓Dev.besides_ite, ite_self, List.cons_subset, List.nil_subset, and_true, hps, hact]

theorem Dev.readContext_besides (fn tag kind : Nat) (index : Option Nat) (type : Nat) (w : List Nat) (d : Dev) (hps : [.power, .links,
    .functions, .work, .channels, .routes, .rings, .items, .ports, .sets, .stream, .retained, .registers, .output] ⊆ ps) :
    (Dev.readContext fn tag kind index type w d).besides ps = d.besides ps := by
  simp only [List.cons_subset, List.nil_subset, and_true] at hps
  simp only [Dev.readContext, ↓Dev.addJob_besides, ↓Dev.answerRequest_besides, ↓Dev.hostRead_besides, ↓Dev.besides_ite, ite_self,
      List.cons_subset, List.nil_subset, and_true, hps]

theorem Dev.tenantCreate_besides (fn tag : Nat) (d : Dev) (hps : [.power, .links, .functions, .tenants, .channels, .routes, .rings, .items,
    .shares, .ports, .sets, .stream, .retained, .registers, .output] ⊆ ps) :
    (Dev.tenantCreate fn tag d).besides ps = d.besides ps := by
  simp only [List.cons_subset, List.nil_subset, and_true] at hps
  simp only [Dev.tenantCreate, ↓Dev.answerRequest_besides, ↓Dev.dropNodes_besides, ↓Dev.besides_tenants, ↓Dev.besides_ite, ite_self,
      List.cons_subset, List.nil_subset, and_true, hps]

theorem Dev.rejoin_besides (fn tag : Nat) (w : List Nat) (d : Dev) (hps : [.positions, .power, .links, .functions, .work, .channels,
    .routes, .rings, .items, .ports, .sets, .stream, .retained, .registers, .output] ⊆ ps) :
    (Dev.rejoin fn tag w d).besides ps = d.besides ps := by
  simp only [List.cons_subset, List.nil_subset, and_true] at hps
  simp only [Dev.rejoin, ↓Dev.answerRequest_besides, ↓Dev.besides_ite, List.cons_subset, List.nil_subset, and_true, hps]
  repeat' split
  all_goals simp only [↓Dev.addJob_besides, ↓Dev.answerRequest_besides, ↓Dev.startTest_besides, List.cons_subset, List.nil_subset, and_true, hps]

theorem Dev.answerResets_besides (fn : Nat) (d : Dev) (hps : [.power, .links, .functions, .work, .channels, .routes, .rings, .items,
    .ports, .sets, .stream, .retained, .registers, .output] ⊆ ps) :
    (Dev.answerResets fn d).besides ps = d.besides ps := by
  simp only [List.cons_subset, List.nil_subset, and_true] at hps
  simp only [Dev.answerResets, ↓Dev.answerRequest_besides, ↓Dev.besides_jobs, ↓Dev.besides_each, List.cons_subset, List.nil_subset,
      and_true, implies_true, hps]

theorem Dev.contextDestroy_besides (fn tag : Nat) (w : List Nat) (d : Dev) (hps : [.power, .links, .functions, .work, .channels, .routes,
    .rings, .items, .ports, .contexts, .sets, .storage, .stream, .retained, .registers, .output] ⊆ ps) :
    (Dev.contextDestroy fn tag w d).besides ps = d.besides ps := by
  simp only [List.cons_subset, List.nil_subset, and_true] at hps
  simp only [Dev.contextDestroy, ↓Dev.addJob_besides, ↓Dev.answerRequest_besides, ↓Dev.eraseContext_besides, ↓Dev.besides_ite, ite_self,
      List.cons_subset, List.nil_subset, and_true, hps]

theorem Dev.finishXfer_besides (x : Xfer) (outcome moved : Nat) (answer : Bool) (d : Dev) (hps : [.power, .links, .functions, .channels,
    .routes, .rings, .items, .ports, .sets, .engines, .stream, .retained, .registers, .output] ⊆ ps) :
    (Dev.finishXfer x outcome moved answer d).besides ps = d.besides ps := by
  simp only [List.cons_subset, List.nil_subset, and_true] at hps
  simp only [Dev.finishXfer, ↓Dev.answerRequest_besides, ↓Dev.cause_besides, ↓Dev.dmaRelease_besides, ↓Dev.onStp_besides,
      ↓Dev.onStream_besides, ↓Dev.showXfer_besides, ↓Dev.wr_besides, ↓Dev.besides_ite, ite_self, List.cons_subset, List.nil_subset,
      and_true, hps]

theorem Dev.sitOutCry_besides (fn tag p : Nat) (d : Dev) (hps : [.start, .positions, .power, .links, .functions, .work, .channels, .routes,
    .rings, .items, .ports, .sets, .stream, .retained, .registers, .output] ⊆ ps) :
    (Dev.sitOutCry fn tag p d).besides ps = d.besides ps := by
  simp only [List.cons_subset, List.nil_subset, and_true] at hps
  simp only [Dev.sitOutCry, ↓Dev.addJob_besides, ↓Dev.answerRequest_besides, ↓Dev.assignJobs_besides, ↓Dev.cardChanged_besides,
      ↓Dev.leaveCry_besides, ↓Dev.putCry_besides, ↓Dev.besides_cryPos, ↓Dev.besides_ite, ite_self, List.cons_subset, List.nil_subset,
      and_true, hps]

theorem Dev.groupDestroy_besides (fn tag g : Nat) (d : Dev) (hps : [.power, .links, .functions, .channels, .routes, .rings, .items,
    .shares, .ports, .sets, .stream, .retained, .registers, .output] ⊆ ps) :
    (Dev.groupDestroy fn tag g d).besides ps = d.besides ps := by
  simp only [List.cons_subset, List.nil_subset, and_true] at hps
  unfold Dev.groupDestroy
  split <;> simp only [↓Dev.answerRequest_besides, ↓Dev.dropNodes_besides, ↓Dev.vfCardChanged_besides, ↓Dev.besides_groups,
      ↓Dev.besides_ite, ite_self, List.cons_subset, List.nil_subset, and_true, hps]

theorem Dev.groupCreate_besides (fn tag : Nat) (d : Dev) (hps : [.power, .links, .functions, .channels, .routes, .rings, .items, .shares,
    .ports, .sets, .stream, .retained, .registers, .output] ⊆ ps) :
    (Dev.groupCreate fn tag d).besides ps = d.besides ps := by
  simp only [List.cons_subset, List.nil_subset, and_true] at hps
  simp only [Dev.groupCreate, ↓Dev.answerRequest_besides, ↓Dev.newGroup_besides, ↓Dev.besides_ite, ite_self, List.cons_subset,
      List.nil_subset, and_true, hps]

theorem Dev.epilogueResend_besides (fn tag : Nat) (d : Dev) (hps : [.power, .links, .functions, .channels, .routes, .rings, .items, .ports,
    .sets, .stream, .retained, .registers, .output] ⊆ ps) :
    (Dev.epilogueResend fn tag d).besides ps = d.besides ps := by
  simp only [List.cons_subset, List.nil_subset, and_true] at hps
  unfold Dev.epilogueResend
  split <;> simp only [↓Dev.answerRequest_besides, ↓Dev.besides_ite, ite_self, List.cons_subset, List.nil_subset, and_true, hps]

theorem Dev.contextRead_besides (j : Nat) (x : Job) (index : Option Nat) (type : Nat) (d : Dev) (hps : [.power, .links, .functions, .work,
    .channels, .routes, .rings, .items, .ports, .contexts, .sets, .storage, .stream, .retained, .registers, .output] ⊆ ps) :
    (Dev.contextRead j x index type d).besides ps = d.besides ps := by
  simp only [List.cons_subset, List.nil_subset, and_true] at hps
  unfold Dev.contextRead
  split <;> simp only [↓Dev.answerRequest_besides, ↓Dev.contextWritten_besides, ↓Dev.pickIndex_besides, ↓Dev.besides_jobs,
      ↓Dev.besides_ctxs_ctxKeys, ↓Dev.besides_ite, ite_self, List.cons_subset, List.nil_subset, and_true, hps]

theorem Dev.vfAssign_besides (fn tag v t : Nat) (d : Dev) (hps : [.power, .links, .functions, .channels, .routes, .rings, .items, .ports,
    .sets, .stream, .retained, .registers, .output] ⊆ ps) :
    (Dev.vfAssign fn tag v t d).besides ps = d.besides ps := by
  simp only [List.cons_subset, List.nil_subset, and_true] at hps
  unfold Dev.vfAssign
  split <;> simp only [↓Dev.answerRequest_besides, ↓Dev.onFn_besides, ↓Dev.besides_ite, ite_self, List.cons_subset, List.nil_subset, and_true, hps]

theorem Dev.goOnJob_besides (j : Nat) (x : Job) (d : Dev) (hps : [.power, .links, .functions, .work, .channels, .routes, .rings, .items,
    .shares, .ports, .contexts, .sets, .storage, .stream, .retained, .registers, .output] ⊆ ps) :
    (Dev.goOnJob j x d).besides ps = d.besides ps := by
  simp only [List.cons_subset, List.nil_subset, and_true] at hps
  unfold Dev.goOnJob
  split
  · simp only [↓Dev.answerRequest_besides, ↓Dev.goOnDisable_besides, ↓Dev.besides_jobs, ↓Dev.besides_ite, ite_self, List.cons_subset,
        List.nil_subset, and_true, hps]
  · dsimp only
    split
    · simp only [↓Dev.wr_besides, ↓Dev.besides_jobs, List.cons_subset, List.nil_subset, and_true, hps]
      refine (Dev.besides_each _ _ _ fun r e => ?_).trans ?_
      · split <;> simp only [↓Dev.eraseRing_besides, List.cons_subset, List.nil_subset, and_true, hps]
      · simp only [↓Dev.goOnDisable_besides, ↓Dev.besides_each, List.cons_subset, List.nil_subset, and_true, implies_true, hps]
    · simp only [↓Dev.goOnDisable_besides, ↓Dev.besides_each, List.cons_subset, List.nil_subset, and_true, implies_true, hps]
  · simp only [↓Dev.answerRequest_besides, ↓Dev.eraseContext_besides, ↓Dev.besides_jobs, ↓Dev.besides_ite, ite_self, List.cons_subset,
        List.nil_subset, and_true, hps]
  · rfl

theorem Dev.answerUnit_besides (rejoin : Bool) (unit inst status : Nat) (d : Dev) (hps : [.power, .links, .functions, .work, .channels,
    .routes, .rings, .items, .ports, .sets, .stream, .retained, .registers, .output] ⊆ ps) :
    (Dev.answerUnit rejoin unit inst status d).besides ps = d.besides ps := by
  simp only [List.cons_subset, List.nil_subset, and_true] at hps
  simp only [Dev.answerUnit, ↓Dev.answerRequest_besides, ↓Dev.besides_jobs, ↓Dev.besides_each, List.cons_subset, List.nil_subset, and_true,
      implies_true, hps]

theorem Dev.sitOutCore_besides (fn tag k : Nat) (d : Dev) (hps : [.start, .positions, .power, .links, .functions, .channels, .routes,
    .rings, .items, .ports, .sets, .stream, .retained, .registers, .output] ⊆ ps) :
    (Dev.sitOutCore fn tag k d).besides ps = d.besides ps := by
  simp only [List.cons_subset, List.nil_subset, and_true] at hps
  simp only [Dev.sitOutCore, ↓Dev.answerRequest_besides, ↓Dev.leaveCore_besides, ↓Dev.besides_ite, ite_self, List.cons_subset,
      List.nil_subset, and_true, hps]

theorem Dev.vfProperties_besides (fn tag : Nat) (w : List Nat) (d : Dev) (hps : [.power, .links, .functions, .channels, .routes, .rings,
    .items, .ports, .tables, .sets, .stream, .retained, .registers, .output] ⊆ ps) :
    (Dev.vfProperties fn tag w d).besides ps = d.besides ps := by
  simp only [List.cons_subset, List.nil_subset, and_true] at hps
  simp only [Dev.vfProperties]
  split <;> simp only [↓Dev.answerRequest_besides, ↓Dev.onFn_besides, ↓Dev.putSources_besides, ↓Dev.besides_ite, ite_self,
      List.cons_subset, List.nil_subset, and_true, hps]

theorem Dev.tenantDestroy_besides (fn tag t : Nat) (d : Dev) (hps : [.power, .links, .functions, .tenants, .channels, .routes, .rings,
    .items, .shares, .ports, .sets, .stream, .retained, .registers, .output] ⊆ ps) :
    (Dev.tenantDestroy fn tag t d).besides ps = d.besides ps := by
  simp only [List.cons_subset, List.nil_subset, and_true] at hps
  unfold Dev.tenantDestroy
  split <;> simp only [↓Dev.answerRequest_besides, ↓Dev.dropNodes_besides, ↓Dev.besides_tenants, ↓Dev.besides_ite, ite_self,
      List.cons_subset, List.nil_subset, and_true, hps]

theorem Dev.ringCreate_besides (fn tag : Nat) (w : List Nat) (d : Dev) (hps : [.power, .links, .functions, .channels, .routes, .rings,
    .items, .shares, .ports, .sets, .stream, .retained, .registers, .output] ⊆ ps) :
    (Dev.ringCreate fn tag w d).besides ps = d.besides ps := by
  simp only [List.cons_subset, List.nil_subset, and_true] at hps
  simp only [Dev.ringCreate]
  split <;> simp only [↓Dev.answerRequest_besides, ↓Dev.newRing_besides, ↓Dev.besides_ite, ite_self, List.cons_subset, List.nil_subset, and_true, hps]

theorem Dev.sitOutSet_besides (fn tag p : Nat) (d : Dev) (hps : [.start, .positions, .power, .links, .functions, .work, .channels, .routes,
    .rings, .items, .ports, .sets, .stream, .retained, .registers, .output] ⊆ ps) :
    (Dev.sitOutSet fn tag p d).besides ps = d.besides ps := by
  simp only [List.cons_subset, List.nil_subset, and_true] at hps
  simp only [Dev.sitOutSet, ↓Dev.addJob_besides, ↓Dev.answerRequest_besides, ↓Dev.cardChanged_besides, ↓Dev.graceStart_besides,
      ↓Dev.putSlot_besides, ↓Dev.besides_ite, ite_self, List.cons_subset, List.nil_subset, and_true, hps]

theorem Dev.progress_besides (step outcome unit inst status : Nat) (d : Dev) (hps : [.power, .links, .functions, .work, .channels, .routes,
    .rings, .items, .ports, .sets, .stream, .retained, .registers, .output] ⊆ ps) :
    (Dev.progress step outcome unit inst status d).besides ps = d.besides ps := by
  simp only [List.cons_subset, List.nil_subset, and_true] at hps
  unfold Dev.progress
  split <;> simp only [↓Dev.tell_besides, ↓Dev.besides_apply, List.cons_subset, List.nil_subset, and_true, hps]

theorem Dev.ringError_besides (r cause : Nat) (d : Dev) (hps : [.power, .links, .functions, .channels, .routes, .rings, .items, .ports,
    .sets, .stream, .retained, .registers, .output] ⊆ ps) :
    (Dev.ringError r cause d).besides ps = d.besides ps := by
  simp only [List.cons_subset, List.nil_subset, and_true] at hps
  unfold Dev.ringError
  split <;> simp only [↓Dev.cause_besides, ↓Dev.killFetches_besides, ↓Dev.onRing_besides, ↓Dev.pushRingError_besides, ↓Dev.tell_besides,
      ↓Dev.besides_ite, ite_self, List.cons_subset, List.nil_subset, and_true, hps]

theorem Dev.s44Forward_besides (fn kind tag : Nat) (w : List Nat) (d : Dev) (hps : [.power, .links, .functions, .channels, .routes, .rings,
    .items, .ports, .sets, .stream, .retained, .registers, .output] ⊆ ps) :
    (Dev.s44Forward fn kind tag w d).besides ps = d.besides ps := by
  simp only [List.cons_subset, List.nil_subset, and_true] at hps
  simp only [Dev.s44Forward, ↓Dev.answerS44_besides, ↓Dev.sendTo_besides, List.cons_subset, List.nil_subset, and_true, hps]

theorem Dev.checkClosed_besides (fn : Nat) (d : Dev) (hps : [.power, .links, .functions, .channels, .routes, .rings, .items, .ports, .sets,
    .storage, .stream, .retained, .registers, .output] ⊆ ps) :
    (Dev.checkClosed fn d).besides ps = d.besides ps := by
  simp only [List.cons_subset, List.nil_subset, and_true] at hps
  simp only [Dev.checkClosed, ↓Dev.nvmeCleared_besides, ↓Dev.besides_ite, ite_self, List.cons_subset, List.nil_subset, and_true, hps]

theorem Dev.takeKind_besides (fn kind words : Nat) (act : Nat → List Nat → Dev → Dev) (d : Dev) (hps : [.power, .links, .functions,
    .channels, .routes, .rings, .items, .ports, .sets, .stream, .retained, .registers, .output] ⊆ ps) (hact : ∀ a b e,
    (act a b e).besides ps = e.besides ps) :
    (Dev.takeKind fn kind words act d).besides ps = d.besides ps := by
  simp only [List.cons_subset, List.nil_subset, and_true] at hps
  unfold Dev.takeKind
  split <;> simp only [↓Dev.ackRequest_besides, ↓Dev.answerRequest_besides, ↓Dev.besides_ite, ite_self, List.cons_subset, List.nil_subset,
      and_true, hps, hact]

theorem Dev.refuseUnknown_besides (fn : Nat) (d : Dev) (hps : [.power, .links, .functions, .channels, .routes, .rings, .items, .ports,
    .sets, .stream, .retained, .registers, .output] ⊆ ps) :
    (Dev.refuseUnknown fn d).besides ps = d.besides ps := by
  simp only [List.cons_subset, List.nil_subset, and_true] at hps
  unfold Dev.refuseUnknown
  split <;> simp only [↓Dev.ackRequest_besides, ↓Dev.besides_ite, ite_self, List.cons_subset, List.nil_subset, and_true, hps]

theorem Dev.store8_besides (p a : Nat) (v : Word64) (d : Dev) (hps : [.power, .links, .functions, .channels, .routes, .rings, .items,
    .ports, .sets, .stream, .retained, .registers, .output] ⊆ ps) :
    (Dev.store8 p a v d).besides ps = d.besides ps := by
  simp only [List.cons_subset, List.nil_subset, and_true] at hps
  unfold Dev.store8
  split
  · split <;> simp only [↓Dev.mbxWrite_besides, List.cons_subset, List.nil_subset, and_true, hps]
  · simp only [↓Dev.onSite_besides, List.cons_subset, List.nil_subset, and_true, hps]

theorem Dev.startWith_besides (p : Pick) (f : StartFindings) (fl : Flash) (d : Dev) (hps : [.start, .positions, .power, .links, .functions,
    .channels, .routes, .rings, .items, .ports, .time, .tables, .sets, .stream, .retained, .registers, .output] ⊆ ps) :
    (Dev.startWith p f fl d).besides ps = d.besides ps := by
  simp only [List.cons_subset, List.nil_subset, and_true] at hps
  unfold Dev.startWith
  split <;> simp only [↓Dev.acquireLanes_besides, ↓Dev.applyRetained_besides, ↓Dev.applySections_besides, ↓Dev.bootEvent_besides,
      ↓Dev.buildCard_besides, ↓Dev.closeRecord_besides, ↓Dev.departSites_besides, ↓Dev.domainsOn_besides, ↓Dev.emit_besides,
      ↓Dev.enableLinks_besides, ↓Dev.measurePace_besides, ↓Dev.noteStart_besides, ↓Dev.publishPower_besides, ↓Dev.pwrEvent_besides,
      ↓Dev.record_besides, ↓Dev.sampleTj_besides, ↓Dev.startEvents_besides, ↓Dev.stpTrain_besides, ↓Dev.updateHeadroom_besides,
      ↓Dev.wr_besides, ↓Dev.besides_boot, ↓Dev.besides_cores, ↓Dev.besides_keep, ↓Dev.besides_phase, ↓Dev.besides_power,
      ↓Dev.besides_setPos, ↓Dev.besides_ite, ↓Dev.besides_each, ↓Dev.besides_when, ite_self, List.cons_subset, List.nil_subset, and_true,
      implies_true, hps]

theorem Dev.retireHairpin_besides (i : Nat) (it : Item) (d : Dev) (hps : [.power, .links, .functions, .routes, .rings, .items, .ports,
    .tables, .contexts, .retained, .registers, .output] ⊆ ps) :
    (Dev.retireHairpin i it d).besides ps = d.besides ps := by
  simp only [List.cons_subset, List.nil_subset, and_true] at hps
  unfold Dev.retireHairpin
  repeat' split
  all_goals simp only [↓Dev.enterLine_besides, ↓Dev.espExhaust_besides, ↓Dev.hairpinRefused_besides, ↓Dev.protectAll_besides,
      ↓Dev.retired_besides, ↓Dev.takeIdents_besides, List.cons_subset, List.nil_subset, and_true, hps]

theorem Dev.sendItem_besides (i : Nat) (it : Item) (g : Ring) (t : TxFields) (m : Nat) (l : List Frame) (d : Dev) (hps : [.power, .links,
    .functions, .routes, .rings, .items, .ports, .tables, .contexts, .retained, .registers, .output] ⊆ ps) :
    (Dev.sendItem i it g t m l d).besides ps = d.besides ps := by
  simp only [List.cons_subset, List.nil_subset, and_true] at hps
  simp only [Dev.sendItem, ↓Dev.enterLine_besides, ↓Dev.owe_besides, ↓Dev.oweLater_besides, ↓Dev.protectAll_besides, ↓Dev.retired_besides,
      ↓Dev.takeIdents_besides, ↓Dev.besides_ite, ↓Dev.besides_each, ite_self, List.cons_subset, List.nil_subset, and_true, implies_true,
      hps]

theorem Dev.pushFrames_besides (m cls : Nat) (l : List Frame) (d : Dev) (hps : [.links, .functions, .routes, .rings, .ports, .contexts,
    .retained, .registers, .output] ⊆ ps) :
    (Dev.pushFrames m cls l d).besides ps = d.besides ps := by
  simp only [List.cons_subset, List.nil_subset, and_true] at hps
  simp only [Dev.pushFrames, ↓Dev.bump_besides, ↓Dev.enterLine_besides, ↓Dev.protectAll_besides, ↓Dev.besides_ite, ite_self,
      List.cons_subset, List.nil_subset, and_true, hps]

theorem Dev.deliverWaiting_besides (r : Nat) (d : Dev) (hps : [.power, .links, .functions, .routes, .rings, .items, .ports, .tables,
    .contexts, .retained, .registers, .output] ⊆ ps) :
    (Dev.deliverWaiting r d).besides ps = d.besides ps := by
  simp only [List.cons_subset, List.nil_subset, and_true] at hps
  unfold Dev.deliverWaiting
  repeat' split
  all_goals simp only [↓Dev.deliverRx_besides, ↓Dev.onRing_besides, ↓Dev.trySwitched_besides, List.cons_subset, List.nil_subset, and_true,
      implies_true, hps, id]

theorem Dev.retireSwitched_besides (i : Nat) (it : Item) (src : Ring) (d : Dev) (hps : [.power, .links, .functions, .routes, .rings,
    .items, .ports, .tables, .contexts, .retained, .registers, .output] ⊆ ps) :
    (Dev.retireSwitched i it src d).besides ps = d.besides ps := by
  simp only [List.cons_subset, List.nil_subset, and_true] at hps
  unfold Dev.retireSwitched
  split <;> simp only [↓Dev.completeSource_besides, ↓Dev.joinWaiting_besides, ↓Dev.switchTimeout_besides, ↓Dev.trySwitched_besides,
      ↓Dev.besides_ite, ite_self, List.cons_subset, List.nil_subset, and_true, implies_true, hps]

theorem Dev.loseRead_besides (w : ReadFor) (d : Dev) (hps : [.power, .links, .functions, .work, .channels, .routes, .rings, .items, .ports,
    .tables, .sets, .storage, .stream, .retained, .registers, .output] ⊆ ps) :
    (Dev.loseRead w d).besides ps = d.besides ps := by
  simp only [List.cons_subset, List.nil_subset, and_true] at hps
  simp only [Dev.loseRead]
  repeat' split
  all_goals simp only [↓Dev.comparePassEnd_besides, ↓Dev.failJob_besides, ↓Dev.onItem_besides, ↓Dev.onNvme_besides, ↓Dev.stallRing_besides,
      List.cons_subset, List.nil_subset, and_true, hps]

theorem Dev.ringEnable_besides (fn tag r : Nat) (d : Dev) (hps : [.power, .links, .functions, .channels, .routes, .rings, .items, .shares,
    .ports, .sets, .stream, .retained, .registers, .output] ⊆ ps) :
    (Dev.ringEnable fn tag r d).besides ps = d.besides ps := by
  simp only [List.cons_subset, List.nil_subset, and_true] at hps
  simp only [Dev.ringEnable, ↓Dev.answerRequest_besides, ↓Dev.fetch_besides, ↓Dev.onOwnRing_besides, ↓Dev.onRing_besides, ↓Dev.besides_ite,
      ite_self, List.cons_subset, List.nil_subset, and_true, implies_true, hps]

theorem Dev.ringDestroy_besides (fn tag r : Nat) (d : Dev) (hps : [.power, .links, .functions, .channels, .routes, .rings, .items, .shares,
    .ports, .sets, .stream, .retained, .registers, .output] ⊆ ps) :
    (Dev.ringDestroy fn tag r d).besides ps = d.besides ps := by
  simp only [List.cons_subset, List.nil_subset, and_true] at hps
  simp only [Dev.ringDestroy, ↓Dev.answerRequest_besides, ↓Dev.eraseRing_besides, ↓Dev.onOwnRing_besides, ↓Dev.besides_ite, ite_self,
      List.cons_subset, List.nil_subset, and_true, implies_true, hps]

theorem Dev.ringTune_besides (fn tag r : Nat) (w : List Nat) (d : Dev) (hps : [.power, .links, .functions, .channels, .routes, .rings,
    .items, .ports, .sets, .stream, .retained, .registers, .output] ⊆ ps) :
    (Dev.ringTune fn tag r w d).besides ps = d.besides ps := by
  simp only [List.cons_subset, List.nil_subset, and_true] at hps
  simp only [Dev.ringTune, ↓Dev.answerRequest_besides, ↓Dev.checkIrq_besides, ↓Dev.onOwnRing_besides, ↓Dev.onRing_besides,
      ↓Dev.besides_ite, ite_self, List.cons_subset, List.nil_subset, and_true, implies_true, hps]

theorem Dev.ringDisable_besides (fn tag r : Nat) (d : Dev) (hps : [.power, .links, .functions, .work, .channels, .routes, .rings, .items,
    .ports, .sets, .stream, .retained, .registers, .output] ⊆ ps) :
    (Dev.ringDisable fn tag r d).besides ps = d.besides ps := by
  simp only [List.cons_subset, List.nil_subset, and_true] at hps
  simp only [Dev.ringDisable, ↓Dev.addJob_besides, ↓Dev.answerRequest_besides, ↓Dev.onOwnRing_besides, ↓Dev.onRing_besides,
      ↓Dev.besides_ite, ite_self, List.cons_subset, List.nil_subset, and_true, implies_true, hps]

theorem Dev.contextChange_besides (fn tag : Nat) (w : List Nat) (d : Dev) (hps : [.power, .links, .functions, .work, .channels, .routes,
    .rings, .items, .ports, .sets, .stream, .retained, .registers, .output] ⊆ ps) :
    (Dev.contextChange fn tag w d).besides ps = d.besides ps := by
  simp only [List.cons_subset, List.nil_subset, and_true] at hps
  simp only [Dev.contextChange, ↓Dev.answerRequest_besides, ↓Dev.readContext_besides, ↓Dev.besides_ite, ite_self, List.cons_subset,
      List.nil_subset, and_true, hps]

theorem Dev.contextCreate_besides (fn tag : Nat) (w : List Nat) (d : Dev) (hps : [.power, .links, .functions, .work, .channels, .routes,
    .rings, .items, .ports, .sets, .stream, .retained, .registers, .output] ⊆ ps) :
    (Dev.contextCreate fn tag w d).besides ps = d.besides ps := by
  simp only [List.cons_subset, List.nil_subset, and_true] at hps
  simp only [Dev.contextCreate, ↓Dev.answerRequest_besides, ↓Dev.readContext_besides, ↓Dev.besides_ite, ite_self, List.cons_subset,
      List.nil_subset, and_true, hps]

theorem Dev.endReset_besides (fn : Nat) (d : Dev) (hps : [.power, .links, .functions, .tenants, .work, .channels, .routes, .rings, .items,
    .shares, .ports, .tables, .contexts, .sets, .storage, .stream, .retained, .registers, .output] ⊆ ps) :
    (Dev.endReset fn d).besides ps = d.besides ps := by
  simp only [List.cons_subset, List.nil_subset, and_true] at hps
  simp only [Dev.endReset, ↓Dev.answerResets_besides, ↓Dev.cause_besides, ↓Dev.onFn_besides, ↓Dev.readyEpilogue_besides,
      ↓Dev.releaseFn_besides, ↓Dev.releaseTenants_besides, ↓Dev.removeVf_besides, ↓Dev.sendEpilogue_besides, ↓Dev.sendNext_besides,
      ↓Dev.settleOwed_besides, ↓Dev.squashStale_besides, ↓Dev.startS44_besides, ↓Dev.besides_ite, ite_self, List.cons_subset,
      List.nil_subset, and_true, hps]

theorem Dev.tryMatch_besides (x : Xfer) (d : Dev) (hps : [.power, .links, .functions, .channels, .routes, .rings, .items, .ports, .sets,
    .engines, .stream, .retained, .registers, .output] ⊆ ps) :
    (Dev.tryMatch x d).besides ps = d.besides ps := by
  simp only [List.cons_subset, List.nil_subset, and_true] at hps
  unfold Dev.tryMatch
  split <;> simp only [↓Dev.adoptStream_besides, ↓Dev.finishXfer_besides, ↓Dev.onStp_besides, ↓Dev.onStream_besides, ↓Dev.say_besides,
      ↓Dev.startXfer_besides, ↓Dev.wr_besides, ↓Dev.besides_ite, ite_self, List.cons_subset, List.nil_subset, and_true, hps]

theorem Dev.stpDown_besides (state : Nat) (d : Dev) (hps : [.power, .links, .functions, .channels, .routes, .rings, .items, .ports, .sets,
    .engines, .stream, .retained, .registers, .output] ⊆ ps) :
    (Dev.stpDown state d).besides ps = d.besides ps := by
  simp only [List.cons_subset, List.nil_subset, and_true] at hps
  simp only [Dev.stpDown, ↓Dev.cause_besides, ↓Dev.besides_stp, List.cons_subset, List.nil_subset, and_true, hps]
  refine (Dev.besides_each _ _ _ fun c e => ?_).trans ?_
  · split <;> simp only [↓Dev.acknowledge_besides, ↓Dev.onChan_besides, ↓Dev.setFull_besides, List.cons_subset, List.nil_subset, and_true, hps]
  · simp only [↓Dev.finishXfer_besides, ↓Dev.setStpState_besides, ↓Dev.besides_each, List.cons_subset, List.nil_subset, and_true, implies_true, hps]

theorem Dev.contextPiece_besides (j off : Nat) (data : Option (List Byte)) (d : Dev) (hps : [.power, .links, .functions, .work, .channels,
    .routes, .rings, .items, .ports, .contexts, .sets, .storage, .stream, .retained, .registers, .output] ⊆ ps) :
    (Dev.contextPiece j off data d).besides ps = d.besides ps := by
  simp only [List.cons_subset, List.nil_subset, and_true] at hps
  simp only [Dev.contextPiece]
  repeat' split
  all_goals simp only [↓Dev.contextRead_besides, ↓Dev.failJob_besides, ↓Dev.besides_jobs, List.cons_subset, List.nil_subset, and_true, hps]

theorem Dev.goOnJobs_besides (d : Dev) (hps : [.power, .links, .functions, .work, .channels, .routes, .rings, .items, .shares, .ports,
    .contexts, .sets, .storage, .stream, .retained, .registers, .output] ⊆ ps) :
    (Dev.goOnJobs d).besides ps = d.besides ps := by
  simp only [List.cons_subset, List.nil_subset, and_true] at hps
  simp only [Dev.goOnJobs, ↓Dev.goOnJob_besides, ↓Dev.besides_each, List.cons_subset, List.nil_subset, and_true, implies_true, hps]

theorem Dev.graceEnd_besides (p : Nat) (d : Dev) (hps : [.start, .positions, .power, .links, .functions, .work, .channels, .routes, .rings,
    .items, .ports, .tables, .sets, .stream, .retained, .registers, .output] ⊆ ps) :
    (Dev.graceEnd p d).besides ps = d.besides ps := by
  simp only [List.cons_subset, List.nil_subset, and_true] at hps
  simp only [Dev.graceEnd, ↓Dev.answerUnit_besides, ↓Dev.leaveSet_besides, ↓Dev.onSite_besides, ↓Dev.redeliver_besides,
      ↓Dev.replay_besides, ↓Dev.setDomain_besides, ↓Dev.besides_setPos, ↓Dev.besides_ite, ite_self, List.cons_subset, List.nil_subset,
      and_true, hps]

theorem Dev.sitOut_besides (fn tag : Nat) (w : List Nat) (d : Dev) (hps : [.start, .positions, .power, .links, .functions, .work,
    .channels, .routes, .rings, .items, .ports, .sets, .stream, .retained, .registers, .output] ⊆ ps) :
    (Dev.sitOut fn tag w d).besides ps = d.besides ps := by
  simp only [List.cons_subset, List.nil_subset, and_true] at hps
  simp only [Dev.sitOut, ↓Dev.answerRequest_besides, ↓Dev.sitOutCore_besides, ↓Dev.sitOutCry_besides, ↓Dev.sitOutSet_besides,
      ↓Dev.besides_ite, ite_self, List.cons_subset, List.nil_subset, and_true, hps]

theorem Dev.stepDone_besides (step : Nat) (todo : List Nat) (d : Dev) (hps : [.power, .links, .functions, .work, .channels, .routes,
    .rings, .items, .ports, .sets, .stream, .retained, .registers, .output] ⊆ ps) :
    (Dev.stepDone step todo d).besides ps = d.besides ps := by
  simp only [List.cons_subset, List.nil_subset, and_true] at hps
  simp only [Dev.stepDone, ↓Dev.onApply_besides, ↓Dev.progress_besides, List.cons_subset, List.nil_subset, and_true, hps]

theorem Dev.stopApply_besides (step unit inst status : Nat) (d : Dev) (hps : [.power, .links, .functions, .work, .channels, .routes,
    .rings, .items, .ports, .sets, .stream, .retained, .registers, .output] ⊆ ps) :
    (Dev.stopApply step unit inst status d).besides ps = d.besides ps := by
  simp only [List.cons_subset, List.nil_subset, and_true] at hps
  simp only [Dev.stopApply]
  split <;> simp only [↓Dev.answerRequest_besides, ↓Dev.onApply_besides, ↓Dev.progress_besides, List.cons_subset, List.nil_subset, and_true, hps]

theorem Dev.unitDone_besides (step unit inst status : Nat) (d : Dev) (hps : [.power, .links, .functions, .work, .channels, .routes, .rings,
    .items, .ports, .sets, .stream, .retained, .registers, .output] ⊆ ps) :
    (Dev.unitDone step unit inst status d).besides ps = d.besides ps := by
  simp only [List.cons_subset, List.nil_subset, and_true] at hps
  simp only [Dev.unitDone, ↓Dev.onApply_besides, ↓Dev.progress_besides, List.cons_subset, List.nil_subset, and_true, hps]

theorem Dev.reformPorts_besides (old new : Image) (d : Dev) (hps : [.start, .power, .links, .functions, .work, .channels, .routes, .rings,
    .items, .ports, .sets, .stream, .retained, .registers, .output] ⊆ ps) :
    (Dev.reformPorts old new d).besides ps = d.besides ps := by
  simp only [List.cons_subset, List.nil_subset, and_true] at hps
  simp only [Dev.reformPorts, ↓Dev.cardChanged_besides, ↓Dev.progress_besides, ↓Dev.reformPort_besides, ↓Dev.besides_each,
      List.cons_subset, List.nil_subset, and_true, implies_true, hps]

theorem Dev.actProducer_besides (r v : Nat) (d : Dev) (hps : [.power, .links, .functions, .channels, .routes, .rings, .items, .shares,
    .ports, .sets, .stream, .retained, .registers, .output] ⊆ ps) :
    (Dev.actProducer r v d).besides ps = d.besides ps := by
  simp only [List.cons_subset, List.nil_subset, and_true] at hps
  unfold Dev.actProducer
  split <;> simp only [↓Dev.bump_besides, ↓Dev.fetch_besides, ↓Dev.onRing_besides, ↓Dev.ringError_besides, ↓Dev.besides_ite, ite_self,
      List.cons_subset, List.nil_subset, and_true, hps]

theorem Dev.nvmeDisable_besides (fn : Nat) (d : Dev) (hps : [.power, .links, .functions, .channels, .routes, .rings, .items, .ports,
    .contexts, .sets, .storage, .stream, .retained, .registers, .output] ⊆ ps) :
    (Dev.nvmeDisable fn d).besides ps = d.besides ps := by
  simp only [List.cons_subset, List.nil_subset, and_true] at hps
  simp only [Dev.nvmeDisable, ↓Dev.checkClosed_besides, ↓Dev.countAbandoned_besides, ↓Dev.dropRegion_besides, ↓Dev.killReads_besides,
      ↓Dev.onNvme_besides, ↓Dev.squash_besides, ↓Dev.besides_epilogues_qps_conns, ↓Dev.besides_ite, ↓Dev.besides_each, ite_self,
      List.cons_subset, List.nil_subset, and_true, implies_true, hps]

theorem Dev.takeFilter_besides (fn kind : Nat) (d : Dev) (hps : [.power, .links, .functions, .channels, .routes, .rings, .items, .ports,
    .sets, .stream, .retained, .registers, .output] ⊆ ps) :
    (Dev.takeFilter fn kind d).besides ps = d.besides ps := by
  simp only [List.cons_subset, List.nil_subset, and_true] at hps
  unfold Dev.takeFilter
  split <;> simp only [↓Dev.ackRequest_besides, ↓Dev.s44Forward_besides, ↓Dev.takeKind_besides, ↓Dev.besides_ite, ite_self,
      List.cons_subset, List.nil_subset, and_true, implies_true, hps]

theorem Dev.retireRx_besides (i : Nat) (it : Item) (d : Dev) (hps : [.power, .links, .functions, .routes, .rings, .items, .ports, .tables,
    .contexts, .retained, .registers, .output] ⊆ ps) :
    (Dev.retireRx i it d).besides ps = d.besides ps := by
  simp only [List.cons_subset, List.nil_subset, and_true] at hps
  unfold Dev.retireRx
  repeat' split
  all_goals simp only [↓Dev.cause_besides, ↓Dev.countMac_besides, ↓Dev.retireHairpin_besides, ↓Dev.retireToRing_besides,
      ↓Dev.retired_besides, List.cons_subset, List.nil_subset, and_true, hps]

theorem Dev.runPlan_besides (i : Nat) (it : Item) (g : Ring) (t : TxFields) (p : Plan) (d : Dev) (hps : [.power, .links, .functions,
    .routes, .rings, .items, .ports, .tables, .contexts, .retained, .registers, .output] ⊆ ps) :
    (Dev.runPlan i it g t p d).besides ps = d.besides ps := by
  simp only [List.cons_subset, List.nil_subset, and_true] at hps
  unfold Dev.runPlan
  split <;> simp only [↓Dev.exhaustItem_besides, ↓Dev.refuseSource_besides, ↓Dev.sendItem_besides, ↓Dev.besides_ite, ite_self,
      List.cons_subset, List.nil_subset, and_true, hps]

theorem Dev.retireTls_besides (i c : Nat) (it : Item) (g : Ring) (t : TxFields) (d : Dev) (hps : [.power, .links, .functions, .routes,
    .rings, .items, .ports, .tables, .contexts, .retained, .registers, .output] ⊆ ps) :
    (Dev.retireTls i c it g t d).besides ps = d.besides ps := by
  simp only [List.cons_subset, List.nil_subset, and_true] at hps
  simp only [Dev.retireTls]
  repeat' split
  all_goals simp only [↓Dev.completeSource_besides, ↓Dev.countPlan_besides, ↓Dev.exhaustItem_besides, ↓Dev.failTls_besides,
      ↓Dev.sendItem_besides, ↓Dev.tlsProcess_besides, List.cons_subset, List.nil_subset, and_true, hps, Dev.besides_of_snd ‹_ = (_, _)›]

theorem Dev.retireNvme_besides (i : Nat) (it : Item) (fn q : Nat) (d : Dev) (hps : [.power, .links, .functions, .channels, .routes, .rings,
    .items, .ports, .tables, .contexts, .sets, .storage, .stream, .retained, .registers, .output] ⊆ ps) :
    (Dev.retireNvme i it fn q d).besides ps = d.besides ps := by
  simp only [List.cons_subset, List.nil_subset, and_true] at hps
  simp only [Dev.retireNvme, ↓Dev.checkClosed_besides, ↓Dev.squash_besides, ↓Dev.besides_ite, List.cons_subset, List.nil_subset, and_true, hps]
  repeat' split
  all_goals simp only [↓Dev.countQp_besides, ↓Dev.onConn_besides, ↓Dev.onNvme_besides, ↓Dev.onQp_besides, ↓Dev.pushFrames_besides,
      ↓Dev.refuseNvme_besides, ↓Dev.retired_besides, ↓Dev.setSqPsn_besides, ↓Dev.tcpSend_besides, ↓Dev.writeBuffers_besides,
      List.cons_subset, List.nil_subset, and_true, hps]

theorem Dev.pushLossy_besides (m cls : Nat) (l : List Frame) (d : Dev) (hps : [.links, .functions, .routes, .rings, .ports, .contexts,
    .retained, .registers, .output] ⊆ ps) :
    (Dev.pushLossy m cls l d).besides ps = d.besides ps := by
  simp only [List.cons_subset, List.nil_subset, and_true] at hps
  simp only [Dev.pushLossy, ↓Dev.pushFrames_besides, ↓Dev.besides_ite, ↓Dev.besides_each, ite_self, List.cons_subset, List.nil_subset,
      and_true, implies_true, hps]

theorem Dev.retireTcp_besides (i : Nat) (it : Item) (c : Nat) (d : Dev) (hps : [.power, .links, .functions, .routes, .rings, .items,
    .ports, .tables, .contexts, .storage, .retained, .registers, .output] ⊆ ps) :
    (Dev.retireTcp i it c d).besides ps = d.besides ps := by
  simp only [List.cons_subset, List.nil_subset, and_true] at hps
  unfold Dev.retireTcp
  split <;> simp only [↓Dev.pushFrames_besides, ↓Dev.retired_besides, ↓Dev.takeSegment_besides, ↓Dev.besides_ite, ite_self,
      List.cons_subset, List.nil_subset, and_true, hps]

theorem Dev.retireWork_besides (i : Nat) (it : Item) (d : Dev) (hps : [.power, .links, .functions, .routes, .rings, .items, .ports,
    .tables, .contexts, .storage, .retained, .registers, .output] ⊆ ps) :
    (Dev.retireWork i it d).besides ps = d.besides ps := by
  simp only [List.cons_subset, List.nil_subset, and_true] at hps
  simp only [Dev.retireWork, ↓Dev.bump_besides, ↓Dev.completeWork_besides, ↓Dev.countQp_besides, ↓Dev.onQp_besides, ↓Dev.oweWork_besides,
      ↓Dev.pushFrames_besides, ↓Dev.retired_besides, ↓Dev.setSqPsn_besides, ↓Dev.besides_ite, ite_self, List.cons_subset, List.nil_subset,
      and_true, hps]

theorem Dev.loseReads_besides (fn : Nat) (d : Dev) (hps : [.power, .links, .functions, .work, .channels, .routes, .rings, .items, .ports,
    .tables, .sets, .storage, .stream, .retained, .registers, .output] ⊆ ps) :
    (Dev.loseReads fn d).besides ps = d.besides ps := by
  simp only [List.cons_subset, List.nil_subset, and_true] at hps
  simp only [Dev.loseReads, ↓Dev.killReads_besides, ↓Dev.loseRead_besides, ↓Dev.besides_each, List.cons_subset, List.nil_subset, and_true,
      implies_true, hps]

theorem Dev.bulkRequest_besides (fn tag : Nat) (w : List Nat) (d : Dev) (hps : [.power, .links, .functions, .channels, .routes, .rings,
    .items, .ports, .sets, .engines, .stream, .retained, .registers, .output] ⊆ ps) :
    (Dev.bulkRequest fn tag w d).besides ps = d.besides ps := by
  simp only [List.cons_subset, List.nil_subset, and_true] at hps
  unfold Dev.bulkRequest
  repeat' split
  all_goals simp only [↓Dev.answerRequest_besides, ↓Dev.cause_besides, ↓Dev.onStp_besides, ↓Dev.say_besides, ↓Dev.showXfer_besides,
      ↓Dev.tryMatch_besides, ↓Dev.besides_ite, ite_self, List.cons_subset, List.nil_subset, and_true, hps]

theorem Dev.retryMatches_besides (d : Dev) (hps : [.power, .links, .functions, .channels, .routes, .rings, .items, .ports, .sets, .engines,
    .stream, .retained, .registers, .output] ⊆ ps) :
    (Dev.retryMatches d).besides ps = d.besides ps := by
  simp only [List.cons_subset, List.nil_subset, and_true] at hps
  simp only [Dev.retryMatches, ↓Dev.tryMatch_besides, ↓Dev.besides_each, List.cons_subset, List.nil_subset, and_true, implies_true, hps]

theorem Dev.stpRetrain_besides (d : Dev) (hps : [.power, .links, .functions, .channels, .routes, .rings, .items, .ports, .sets, .engines,
    .stream, .retained, .registers, .output] ⊆ ps) :
    (Dev.stpRetrain d).besides ps = d.besides ps := by
  simp only [List.cons_subset, List.nil_subset, and_true] at hps
  simp only [Dev.stpRetrain, ↓Dev.bump_besides, ↓Dev.cause_besides, ↓Dev.onStp_besides, ↓Dev.setStpState_besides, ↓Dev.stpDown_besides,
      ↓Dev.besides_ite, ite_self, List.cons_subset, List.nil_subset, and_true, hps]

theorem Dev.stpControlWrite_besides (v : Nat) (d : Dev) (hps : [.power, .links, .functions, .channels, .routes, .rings, .items, .ports,
    .sets, .engines, .stream, .retained, .registers, .output] ⊆ ps) :
    (Dev.stpControlWrite v d).besides ps = d.besides ps := by
  simp only [List.cons_subset, List.nil_subset, and_true] at hps
  simp only [Dev.stpControlWrite, ↓Dev.onStp_besides, ↓Dev.plainWrite_besides, ↓Dev.stpDown_besides, ↓Dev.stpTrain_besides,
      ↓Dev.besides_ite, ite_self, List.cons_subset, List.nil_subset, and_true, hps]

theorem Dev.stopCard_besides (d : Dev) (hps : [.start, .power, .links, .functions, .channels, .routes, .rings, .items, .ports, .sets,
    .engines, .stream, .retained, .registers, .output] ⊆ ps) :
    (Dev.stopCard d).besides ps = d.besides ps := by
  simp only [List.cons_subset, List.nil_subset, and_true] at hps
  simp only [Dev.stopCard, ↓Dev.stpDown_besides, ↓Dev.besides_card, ↓Dev.besides_ite, ite_self, List.cons_subset, List.nil_subset, and_true, hps]

theorem Dev.firmwareIdle_besides (d : Dev) (hps : [.power, .links, .functions, .work, .channels, .routes, .rings, .items, .shares, .ports,
    .contexts, .sets, .storage, .stream, .retained, .registers, .output] ⊆ ps) :
    (Dev.firmwareIdle d).besides ps = d.besides ps := by
  simp only [List.cons_subset, List.nil_subset, and_true] at hps
  simp only [Dev.firmwareIdle, ↓Dev.coresGoOn_besides, ↓Dev.goOnJobs_besides, ↓Dev.refuseUnknown_besides, ↓Dev.besides_each,
      List.cons_subset, List.nil_subset, and_true, implies_true, hps]

theorem Dev.applyCores_besides (a : Apply) (d : Dev) (hps : [.start, .positions, .power, .links, .functions, .work, .channels, .routes,
    .rings, .items, .ports, .sets, .stream, .retained, .registers, .output] ⊆ ps) :
    (Dev.applyCores a d).besides ps = d.besides ps := by
  simp only [List.cons_subset, List.nil_subset, and_true] at hps
  unfold Dev.applyCores
  split <;> simp only [↓Dev.leaveCore_besides, ↓Dev.loadStore_besides, ↓Dev.onApply_besides, ↓Dev.startTest_besides, ↓Dev.stepDone_besides,
      ↓Dev.stopApply_besides, ↓Dev.besides_ite, ↓Dev.besides_each, ite_self, List.cons_subset, List.nil_subset, and_true, implies_true, hps]

theorem Dev.testDone_besides (unit inst : Nat) (pass : Bool) (d : Dev) (hps : [.start, .positions, .power, .links, .functions, .work,
    .channels, .routes, .rings, .items, .shares, .ports, .tables, .contexts, .sets, .stream, .retained, .registers, .output] ⊆ ps) :
    (Dev.testDone unit inst pass d).besides ps = d.besides ps := by
  simp only [List.cons_subset, List.nil_subset, and_true] at hps
  simp only [Dev.testDone, ↓Dev.besides_ite]
  repeat' split
  all_goals simp only [↓Dev.answerUnit_besides, ↓Dev.failTest_besides, ↓Dev.returnUnit_besides, ↓Dev.unitDone_besides, List.cons_subset,
      List.nil_subset, and_true, hps]

theorem Dev.applySets_besides (a : Apply) (d : Dev) (hps : [.positions, .power, .links, .functions, .work, .channels, .routes, .rings,
    .items, .ports, .sets, .stream, .retained, .registers, .output] ⊆ ps) :
    (Dev.applySets a d).besides ps = d.besides ps := by
  simp only [List.cons_subset, List.nil_subset, and_true] at hps
  unfold Dev.applySets
  repeat' split
  all_goals simp only [↓Dev.graceStart_besides, ↓Dev.onApply_besides, ↓Dev.startTest_besides, ↓Dev.stepDone_besides,
      ↓Dev.stopApply_besides, ↓Dev.unitDone_besides, List.cons_subset, List.nil_subset, and_true, hps]

theorem Dev.producerWrite_besides (fn page slot v : Nat) (d : Dev) (hps : [.power, .links, .functions, .channels, .routes, .rings, .items,
    .shares, .ports, .sets, .stream, .retained, .registers, .output] ⊆ ps) :
    (Dev.producerWrite fn page slot v d).besides ps = d.besides ps := by
  simp only [List.cons_subset, List.nil_subset, and_true] at hps
  unfold Dev.producerWrite
  repeat' split
  all_goals simp only [↓Dev.actProducer_besides, ↓Dev.ignoreDoorbell_besides, ↓Dev.onRing_besides, ↓Dev.useContext_besides,
      List.cons_subset, List.nil_subset, and_true, hps]

theorem Dev.resumeRing_besides (r : Nat) (d : Dev) (hps : [.power, .links, .functions, .channels, .routes, .rings, .items, .shares, .ports,
    .sets, .stream, .retained, .registers, .output] ⊆ ps) :
    (Dev.resumeRing r d).besides ps = d.besides ps := by
  simp only [List.cons_subset, List.nil_subset, and_true] at hps
  unfold Dev.resumeRing
  split <;> simp only [↓Dev.actProducer_besides, ↓Dev.fetch_besides, ↓Dev.flushOwed_besides, ↓Dev.killFetches_besides, ↓Dev.onRing_besides,
      ↓Dev.besides_ite, ite_self, List.cons_subset, List.nil_subset, and_true, hps]

theorem Dev.nvmeWrite_besides (fn off v : Nat) (d : Dev) (hps : [.power, .links, .functions, .channels, .routes, .rings, .items, .shares,
    .ports, .contexts, .sets, .storage, .stream, .retained, .registers, .output] ⊆ ps) :
    (Dev.nvmeWrite fn off v d).besides ps = d.besides ps := by
  simp only [List.cons_subset, List.nil_subset, and_true] at hps
  unfold Dev.nvmeWrite
  repeat' split
  all_goals simp only [↓Dev.cqDoorbell_besides, ↓Dev.nvmeDisable_besides, ↓Dev.nvmeEnable_besides, ↓Dev.onNvme_besides,
      ↓Dev.sqDoorbell_besides, ↓Dev.besides_ite, ite_self, List.cons_subset, List.nil_subset, and_true, hps]

theorem Dev.retireTx_besides (i : Nat) (it : Item) (g : Ring) (d : Dev) (hps : [.power, .links, .functions, .routes, .rings, .items,
    .ports, .tables, .contexts, .retained, .registers, .output] ⊆ ps) :
    (Dev.retireTx i it g d).besides ps = d.besides ps := by
  simp only [List.cons_subset, List.nil_subset, and_true] at hps
  simp only [Dev.retireTx, ↓Dev.evalLaunch_besides, ↓Dev.besides_ite, List.cons_subset, List.nil_subset, and_true, hps]
  repeat' split
  all_goals simp only [↓Dev.retireTls_besides, ↓Dev.runPlan_besides, List.cons_subset, List.nil_subset, and_true, hps]

theorem Dev.rtoExpiry_besides (c : Nat) (d : Dev) (hps : [.links, .functions, .routes, .rings, .ports, .contexts, .storage, .retained,
    .registers, .output] ⊆ ps) :
    (Dev.rtoExpiry c d).besides ps = d.besides ps := by
  simp only [List.cons_subset, List.nil_subset, and_true] at hps
  simp only [Dev.rtoExpiry, ↓Dev.loseConn_besides, ↓Dev.onConn_besides, ↓Dev.pushLossy_besides, ↓Dev.resendFirst_besides, ↓Dev.besides_ite,
      ite_self, List.cons_subset, List.nil_subset, and_true, hps]

theorem Dev.haltFn_besides (fn : Nat) (d : Dev) (hps : [.power, .links, .functions, .work, .channels, .routes, .rings, .items, .ports,
    .tables, .sets, .storage, .stream, .retained, .registers, .output] ⊆ ps) :
    (Dev.haltFn fn d).besides ps = d.besides ps := by
  simp only [List.cons_subset, List.nil_subset, and_true] at hps
  simp only [Dev.haltFn, ↓Dev.dmaHaltAll_besides, ↓Dev.loseReads_besides, ↓Dev.stallRing_besides, ↓Dev.besides_each, List.cons_subset,
      List.nil_subset, and_true, implies_true, hps]

theorem Dev.heardPeer_besides (w : List Nat) (d : Dev) (hps : [.power, .links, .functions, .channels, .routes, .rings, .items, .ports,
    .sets, .engines, .stream, .retained, .registers, .output] ⊆ ps) :
    (Dev.heardPeer w d).besides ps = d.besides ps := by
  simp only [List.cons_subset, List.nil_subset, and_true] at hps
  simp only [Dev.heardPeer]
  repeat' split
  all_goals simp only [↓Dev.finishXfer_besides, ↓Dev.onStp_besides, ↓Dev.onStream_besides, ↓Dev.retryMatches_besides,
      ↓Dev.startXfer_besides, ↓Dev.tryMatch_besides, List.cons_subset, List.nil_subset, and_true, hps]

theorem Dev.endXfer_besides (x : Xfer) (outcome : Nat) (d : Dev) (hps : [.power, .links, .functions, .channels, .routes, .rings, .items,
    .ports, .sets, .engines, .stream, .retained, .registers, .output] ⊆ ps) :
    (Dev.endXfer x outcome d).besides ps = d.besides ps := by
  simp only [List.cons_subset, List.nil_subset, and_true] at hps
  simp only [Dev.endXfer, ↓Dev.finishXfer_besides, ↓Dev.retryMatches_besides, ↓Dev.say_besides, List.cons_subset, List.nil_subset, and_true, hps]

theorem Dev.stpFnReset_besides (fn : Nat) (d : Dev) (hps : [.power, .links, .functions, .channels, .routes, .rings, .items, .ports, .sets,
    .engines, .stream, .retained, .registers, .output] ⊆ ps) :
    (Dev.stpFnReset fn d).besides ps = d.besides ps := by
  simp only [List.cons_subset, List.nil_subset, and_true] at hps
  simp only [Dev.stpFnReset, ↓Dev.finishXfer_besides, ↓Dev.retryMatches_besides, ↓Dev.say_besides, ↓Dev.besides_each, List.cons_subset,
      List.nil_subset, and_true, implies_true, hps]

theorem Dev.takeFields_besides (f : Flit) (d : Dev) (hps : [.power, .links, .functions, .channels, .routes, .rings, .items, .ports, .sets,
    .engines, .stream, .retained, .registers, .output] ⊆ ps) :
    (Dev.takeFields f d).besides ps = d.besides ps := by
  simp only [List.cons_subset, List.nil_subset, and_true] at hps
  simp only [Dev.takeFields, ↓Dev.bump_besides, ↓Dev.onStp_besides, ↓Dev.stpDown_besides, ↓Dev.stpRetrain_besides, ↓Dev.besides_ite,
      ite_self, List.cons_subset, List.nil_subset, and_true, hps]
  repeat' split
  all_goals simp only [↓Dev.countMoved_besides, ↓Dev.onStp_besides, ↓Dev.onStream_besides, ↓Dev.showXfer_besides, List.cons_subset,
      List.nil_subset, and_true, hps]

theorem Dev.writeLive_besides (mid unit inst off v : Nat) (d : Dev) (hps : [.power, .links, .functions, .channels, .routes, .rings, .items,
    .shares, .ports, .time, .tables, .contexts, .sets, .engines, .stream, .retained, .registers, .output] ⊆ ps) :
    (Dev.writeLive mid unit inst off v d).besides ps = d.besides ps := by
  simp only [List.cons_subset, List.nil_subset, and_true] at hps
  unfold Dev.writeLive
  split <;> simp only [↓Dev.checkBoost_besides, ↓Dev.crySnapStart_besides, ↓Dev.ctxSnapStart_besides, ↓Dev.dmaCommand_besides,
      ↓Dev.domainOff_besides, ↓Dev.domainWake_besides, ↓Dev.faultAck_besides, ↓Dev.flexeCommand_besides, ↓Dev.macWritten_besides,
      ↓Dev.nodeCommand_besides, ↓Dev.p2pCommit_besides, ↓Dev.plainWrite_besides, ↓Dev.stpControlWrite_besides, ↓Dev.writeEvt_besides,
      ↓Dev.writeMask_besides, ↓Dev.writeMtb_besides, ↓Dev.writeSet_besides, ↓Dev.writeTmp_besides, ↓Dev.besides_ite, ite_self,
      List.cons_subset, List.nil_subset, and_true, hps]

theorem Dev.faultStop_besides (d : Dev) (hps : [.start, .power, .links, .functions, .work, .channels, .routes, .rings, .items, .ports,
    .sets, .storage, .engines, .stream, .retained, .registers, .output] ⊆ ps) :
    (Dev.faultStop d).besides ps = d.besides ps := by
  simp only [List.cons_subset, List.nil_subset, and_true] at hps
  simp only [Dev.faultStop, ↓Dev.beginRecord_besides, ↓Dev.closeBoost_besides, ↓Dev.commitRecord_besides, ↓Dev.dropCryptoStage_besides,
      ↓Dev.dropReads_besides, ↓Dev.emit_besides, ↓Dev.loseWork_besides, ↓Dev.requestVdd_besides, ↓Dev.serviceXon_besides,
      ↓Dev.stopCard_besides, ↓Dev.stopSets_besides, ↓Dev.wr_besides, ↓Dev.besides_phase_jobs_apply_dma, ↓Dev.besides_ite, ite_self,
      List.cons_subset, List.nil_subset, and_true, hps]

theorem Dev.beginService_besides (cause : Nat) (d : Dev) (hps : [.start, .positions, .power, .links, .functions, .work, .channels, .routes,
    .rings, .items, .shares, .ports, .tables, .contexts, .sets, .storage, .engines, .stream, .retained, .registers, .output] ⊆ ps) :
    (Dev.beginService cause d).besides ps = d.besides ps := by
  simp only [List.cons_subset, List.nil_subset, and_true] at hps
  simp only [Dev.beginService, ↓Dev.beginRecord_besides, ↓Dev.clearForService_besides, ↓Dev.closeBoost_besides, ↓Dev.commitRecord_besides,
      ↓Dev.dropCryptoStage_besides, ↓Dev.dropReads_besides, ↓Dev.requestVdd_besides, ↓Dev.saveItems_besides, ↓Dev.serviceXoff_besides,
      ↓Dev.settlePositions_besides, ↓Dev.stopCard_besides, ↓Dev.stopSets_besides, ↓Dev.supersedeRecords_besides, ↓Dev.wr_besides,
      ↓Dev.besides_phase_boot, ↓Dev.besides_ite, ite_self, List.cons_subset, List.nil_subset, and_true, hps]

theorem Dev.doorbellWrite_besides (fn page slot word value : Nat) (d : Dev) (hps : [.power, .links, .functions, .channels, .routes, .rings,
    .items, .shares, .ports, .sets, .stream, .retained, .registers, .output] ⊆ ps) :
    (Dev.doorbellWrite fn page slot word value d).besides ps = d.besides ps := by
  simp only [List.cons_subset, List.nil_subset, and_true] at hps
  simp only [Dev.doorbellWrite, ↓Dev.headWrite_besides, ↓Dev.producerWrite_besides, ↓Dev.besides_ite, ite_self, List.cons_subset,
      List.nil_subset, and_true, hps]

theorem Dev.ringRestart_besides (fn tag r : Nat) (d : Dev) (hps : [.power, .links, .functions, .channels, .routes, .rings, .items, .shares,
    .ports, .sets, .stream, .retained, .registers, .output] ⊆ ps) :
    (Dev.ringRestart fn tag r d).besides ps = d.besides ps := by
  simp only [List.cons_subset, List.nil_subset, and_true] at hps
  simp only [Dev.ringRestart, ↓Dev.answerRequest_besides, ↓Dev.onOwnRing_besides, ↓Dev.onRing_besides, ↓Dev.resumeRing_besides,
      ↓Dev.besides_ite, ite_self, List.cons_subset, List.nil_subset, and_true, implies_true, hps]

theorem Dev.pumpResend_besides (q : Nat) (l : List QpReq) (d : Dev) (hps : [.links, .functions, .routes, .rings, .ports, .contexts,
    .storage, .retained, .registers, .output] ⊆ ps) :
    (Dev.pumpResend q l d).besides ps = d.besides ps := by
  simp only [List.cons_subset, List.nil_subset, and_true] at hps
  induction l generalizing d with
  | nil => rfl
  | cons x l ih =>
    unfold Dev.pumpResend
    split
    · exact ih d
    · split
      · rfl
      · simp only [ih, ↓Dev.countQp_besides, ↓Dev.onQp_besides, ↓Dev.pushLossy_besides, ↓Dev.countQp_besides, ↓Dev.onQp_besides,
            ↓Dev.pushLossy_besides, List.cons_subset, List.nil_subset, and_true, hps]

theorem Dev.bmeClear_besides (fn : Nat) (d : Dev) (hps : [.power, .links, .functions, .work, .channels, .routes, .rings, .items, .ports,
    .tables, .sets, .storage, .stream, .retained, .registers, .output] ⊆ ps) :
    (Dev.bmeClear fn d).besides ps = d.besides ps := by
  simp only [List.cons_subset, List.nil_subset, and_true] at hps
  simp only [Dev.bmeClear, ↓Dev.haltFn_besides, ↓Dev.onFn_besides, ↓Dev.besides_ite, ite_self, List.cons_subset, List.nil_subset, and_true, hps]

theorem Dev.takeMessage_besides (f : Flit) (d : Dev) (hps : [.power, .links, .functions, .channels, .routes, .rings, .items, .ports, .sets,
    .engines, .stream, .retained, .registers, .output] ⊆ ps) :
    (Dev.takeMessage f d).besides ps = d.besides ps := by
  simp only [List.cons_subset, List.nil_subset, and_true] at hps
  simp only [Dev.takeMessage, ↓Dev.besides_ite]
  repeat' split
  all_goals simp only [↓Dev.ackView_besides, ↓Dev.acknowledge_besides, ↓Dev.countRx_besides, ↓Dev.heardPeer_besides,
      ↓Dev.latchView_besides, ↓Dev.onChan_besides, ↓Dev.onStp_besides, ↓Dev.post_besides, ↓Dev.sayNext_besides, ↓Dev.setFull_besides,
      List.cons_subset, List.nil_subset, and_true, hps]

theorem Dev.serveXfer_besides (c : Nat) (d : Dev) (hps : [.power, .links, .functions, .channels, .routes, .rings, .items, .ports, .sets,
    .engines, .stream, .retained, .registers, .output] ⊆ ps) :
    (Dev.serveXfer c d).besides ps = d.besides ps := by
  simp only [List.cons_subset, List.nil_subset, and_true] at hps
  unfold Dev.serveXfer
  split <;> simp only [↓Dev.endXfer_besides, ↓Dev.onDma_besides, ↓Dev.showXfer_besides, ↓Dev.besides_ite, ite_self, List.cons_subset,
      List.nil_subset, and_true, hps]

theorem Dev.bulkCancel_besides (fn tag : Nat) (w : List Nat) (d : Dev) (hps : [.power, .links, .functions, .channels, .routes, .rings,
    .items, .ports, .sets, .engines, .stream, .retained, .registers, .output] ⊆ ps) :
    (Dev.bulkCancel fn tag w d).besides ps = d.besides ps := by
  simp only [List.cons_subset, List.nil_subset, and_true] at hps
  unfold Dev.bulkCancel
  repeat' split
  all_goals simp only [↓Dev.answerRequest_besides, ↓Dev.endXfer_besides, List.cons_subset, List.nil_subset, and_true, hps]

theorem Dev.takeData_besides (f : Flit) (d : Dev) (hps : [.power, .links, .functions, .channels, .routes, .rings, .items, .ports, .sets,
    .engines, .stream, .retained, .registers, .output] ⊆ ps) :
    (Dev.takeData f d).besides ps = d.besides ps := by
  simp only [List.cons_subset, List.nil_subset, and_true] at hps
  unfold Dev.takeData
  split <;> simp only [↓Dev.bump_besides, ↓Dev.cause_besides, ↓Dev.countRx_besides, ↓Dev.endXfer_besides, ↓Dev.onStream_besides,
      ↓Dev.besides_ite, ite_self, List.cons_subset, List.nil_subset, and_true, hps]

theorem Dev.beginReset_besides (fn : Nat) (kind : FnReset) (d : Dev) (hps : [.power, .links, .functions, .tenants, .work, .channels,
    .routes, .rings, .items, .ports, .tables, .sets, .storage, .engines, .stream, .retained, .registers, .output] ⊆ ps) :
    (Dev.beginReset fn kind d).besides ps = d.besides ps := by
  simp only [List.cons_subset, List.nil_subset, and_true] at hps
  simp only [Dev.beginReset, ↓Dev.dmaOwnerReset_besides, ↓Dev.dropException_besides, ↓Dev.dropJobs_besides, ↓Dev.dropTranslations_besides,
      ↓Dev.emptyNvme_besides, ↓Dev.emptyRing_besides, ↓Dev.killReads_besides, ↓Dev.loseRead_besides, ↓Dev.onFn_besides,
      ↓Dev.onLink_besides, ↓Dev.resetChannels_besides, ↓Dev.skipPayload_besides, ↓Dev.squashStale_besides, ↓Dev.stpFnReset_besides,
      ↓Dev.turnSwitched_besides, ↓Dev.besides_drains, ↓Dev.besides_ite, ↓Dev.besides_each, ite_self, List.cons_subset, List.nil_subset,
      and_true, implies_true, hps]

theorem Dev.receiveFlit_besides (f : Flit) (body : Dev → Dev) (d : Dev) (hps : [.power, .links, .functions, .channels, .routes, .rings,
    .items, .ports, .sets, .engines, .stream, .retained, .registers, .output] ⊆ ps) (hbody : ∀ e, (body e).besides ps = e.besides ps) :
    (Dev.receiveFlit f body d).besides ps = d.besides ps := by
  simp only [List.cons_subset, List.nil_subset, and_true] at hps
  simp only [Dev.receiveFlit, ↓Dev.discardFlit_besides, ↓Dev.onStp_besides, ↓Dev.takeFields_besides, ↓Dev.besides_ite, ite_self,
      List.cons_subset, List.nil_subset, and_true, hps, hbody]

theorem Dev.stackLost_besides (stack : Nat) (d : Dev) (hps : [.start, .power, .links, .functions, .work, .channels, .routes, .rings,
    .items, .ports, .sets, .storage, .engines, .stream, .retained, .registers, .output] ⊆ ps) :
    (Dev.stackLost stack d).besides ps = d.besides ps := by
  simp only [List.cons_subset, List.nil_subset, and_true] at hps
  simp only [Dev.stackLost, ↓Dev.faultStop_besides, ↓Dev.record_besides, List.cons_subset, List.nil_subset, and_true, hps]

theorem Dev.escalate_besides (seq : Nat) (e : Err) (d : Dev) (hps : [.start, .positions, .power, .links, .functions, .work, .channels,
    .routes, .rings, .items, .shares, .ports, .tables, .contexts, .sets, .storage, .engines, .stream, .retained, .registers,
    .output] ⊆ ps) :
    (Dev.escalate seq e d).besides ps = d.besides ps := by
  simp only [List.cons_subset, List.nil_subset, and_true] at hps
  simp only [Dev.escalate, ↓Dev.beginService_besides, ↓Dev.bump_besides, ↓Dev.cause_besides, ↓Dev.faultStop_besides,
      ↓Dev.finishRecord_besides, ↓Dev.handleSeq_besides, ↓Dev.record_besides, ↓Dev.besides_escalations, ↓Dev.besides_ite, ite_self,
      List.cons_subset, List.nil_subset, and_true, hps]

theorem Dev.applyLogged_besides (e : Nat × Nat × Nat × Nat × Nat) (d : Dev) (hps : [.power, .links, .functions, .channels, .routes, .rings,
    .items, .shares, .ports, .sets, .stream, .retained, .registers, .output] ⊆ ps) :
    (Dev.applyLogged e d).besides ps = d.besides ps := by
  simp only [List.cons_subset, List.nil_subset, and_true] at hps
  simp only [Dev.applyLogged, ↓Dev.doorbellWrite_besides, List.cons_subset, List.nil_subset, and_true, hps]

theorem Dev.doorbellArrives_besides (fn page slot word value : Nat) (d : Dev) (hps : [.start, .power, .links, .functions, .channels,
    .routes, .rings, .items, .shares, .ports, .sets, .stream, .retained, .registers, .output] ⊆ ps) :
    (Dev.doorbellArrives fn page slot word value d).besides ps = d.besides ps := by
  simp only [List.cons_subset, List.nil_subset, and_true] at hps
  simp only [Dev.doorbellArrives, ↓Dev.doorbellWrite_besides, ↓Dev.logDoorbell_besides, ↓Dev.withhold_besides, ↓Dev.besides_ite, ite_self,
      List.cons_subset, List.nil_subset, and_true, hps]

theorem Dev.resendPiece_besides (q first off : Nat) (data : Option (List Byte)) (d : Dev) (hps : [.links, .functions, .routes, .rings,
    .ports, .contexts, .storage, .retained, .registers, .output] ⊆ ps) :
    (Dev.resendPiece q first off data d).besides ps = d.besides ps := by
  simp only [List.cons_subset, List.nil_subset, and_true] at hps
  unfold Dev.resendPiece
  split <;> simp only [↓Dev.onQp_besides, ↓Dev.pumpResend_besides, ↓Dev.qpError_besides, ↓Dev.besides_ite, ite_self, List.cons_subset,
      List.nil_subset, and_true, hps]

theorem Dev.resendFrom_besides (q psn : Nat) (d : Dev) (hps : [.links, .functions, .routes, .rings, .ports, .contexts, .storage, .retained,
    .registers, .output] ⊆ ps) :
    (Dev.resendFrom q psn d).besides ps = d.besides ps := by
  simp only [List.cons_subset, List.nil_subset, and_true] at hps
  simp only [Dev.resendFrom, ↓Dev.hostRead_besides, ↓Dev.onQp_besides, ↓Dev.pumpResend_besides, ↓Dev.besides_ite, ↓Dev.besides_each,
      ite_self, List.cons_subset, List.nil_subset, and_true, implies_true, hps]

theorem Dev.drainEnd_besides (fn : Nat) (d : Dev) (hps : [.power, .links, .functions, .tenants, .work, .channels, .routes, .rings, .items,
    .ports, .tables, .sets, .storage, .engines, .stream, .retained, .registers, .output] ⊆ ps) :
    (Dev.drainEnd fn d).besides ps = d.besides ps := by
  simp only [List.cons_subset, List.nil_subset, and_true] at hps
  simp only [Dev.drainEnd, ↓Dev.beginReset_besides, ↓Dev.besides_ite, ite_self, List.cons_subset, List.nil_subset, and_true, hps]

theorem Dev.resetFn_besides (fn cause : Nat) (kind : FnReset) (d : Dev) (merge : Bool) (hps : [.power, .links, .functions, .tenants, .work,
    .channels, .routes, .rings, .items, .ports, .tables, .sets, .storage, .engines, .stream, .retained, .registers, .output] ⊆ ps) :
    (Dev.resetFn fn cause kind d merge).besides ps = d.besides ps := by
  simp only [List.cons_subset, List.nil_subset, and_true] at hps
  simp only [Dev.resetFn, ↓Dev.beginReset_besides, ↓Dev.openEpilogue_besides, ↓Dev.besides_ite, ite_self, List.cons_subset,
      List.nil_subset, and_true, hps]

theorem Dev.functionReset_besides (fn : Nat) (drain : Bool) (ms : Nat) (d : Dev) (hps : [.power, .links, .functions, .tenants, .work,
    .channels, .routes, .rings, .items, .ports, .tables, .sets, .storage, .engines, .stream, .retained, .registers, .output] ⊆ ps) :
    (Dev.functionReset fn drain ms d).besides ps = d.besides ps := by
  simp only [List.cons_subset, List.nil_subset, and_true] at hps
  simp only [Dev.functionReset, ↓Dev.beginReset_besides, ↓Dev.dropException_besides, ↓Dev.onFn_besides, ↓Dev.openEpilogue_besides,
      ↓Dev.besides_drains, ↓Dev.besides_epilogues, ↓Dev.besides_ite, ↓Dev.besides_each, ite_self, List.cons_subset, List.nil_subset,
      and_true, implies_true, hps]

theorem Dev.coreFault_besides (k code detail0 detail1 : Nat) (d : Dev) (hps : [.start, .positions, .power, .links, .functions, .work,
    .channels, .routes, .rings, .items, .shares, .ports, .tables, .contexts, .sets, .storage, .engines, .stream, .retained, .registers,
    .output] ⊆ ps) :
    (Dev.coreFault k code detail0 detail1 d).besides ps = d.besides ps := by
  simp only [List.cons_subset, List.nil_subset, and_true] at hps
  simp only [Dev.coreFault, ↓Dev.escalate_besides, ↓Dev.finishRecord_besides, ↓Dev.leaveCore_besides, ↓Dev.recordSeq_besides,
      ↓Dev.besides_cores, ↓Dev.besides_ite, ite_self, List.cons_subset, List.nil_subset, and_true, hps]

theorem Dev.deviceError_besides (e : Err) (d : Dev) (hps : [.start, .positions, .power, .links, .functions, .work, .channels, .routes,
    .rings, .items, .shares, .ports, .tables, .contexts, .sets, .storage, .engines, .stream, .retained, .registers, .output] ⊆ ps) :
    (Dev.deviceError e d).besides ps = d.besides ps := by
  simp only [List.cons_subset, List.nil_subset, and_true] at hps
  simp only [Dev.deviceError, ↓Dev.escalate_besides, ↓Dev.recordSeq_besides, List.cons_subset, List.nil_subset, and_true, hps]

theorem Dev.deliverRead_besides (w : ReadFor) (data : Option (List Byte)) (d : Dev) (hps : [.power, .links, .functions, .work, .channels,
    .routes, .rings, .items, .shares, .ports, .tables, .contexts, .sets, .storage, .engines, .stream, .retained, .registers,
    .output] ⊆ ps) :
    (Dev.deliverRead w data d).besides ps = d.besides ps := by
  simp only [List.cons_subset, List.nil_subset, and_true] at hps
  unfold Dev.deliverRead
  repeat' split
  all_goals simp only [↓Dev.comparePassEnd_besides, ↓Dev.contextPiece_besides, ↓Dev.dmaBurstArrived_besides, ↓Dev.dmaDescArrived_besides,
      ↓Dev.dmaSettle_besides, ↓Dev.landDescriptors_besides, ↓Dev.landSubmissions_besides, ↓Dev.loseQpCmds_besides,
      ↓Dev.payloadPiece_besides, ↓Dev.resendPiece_besides, ↓Dev.ringError_besides, List.cons_subset, List.nil_subset, and_true, hps]

theorem Dev.resumeFn_besides (fn : Nat) (d : Dev) (hps : [.power, .links, .functions, .channels, .routes, .rings, .items, .shares, .ports,
    .contexts, .sets, .storage, .engines, .stream, .retained, .registers, .output] ⊆ ps) :
    (Dev.resumeFn fn d).besides ps = d.besides ps := by
  simp only [List.cons_subset, List.nil_subset, and_true] at hps
  simp only [Dev.resumeFn, ↓Dev.dmaRunAll_besides, ↓Dev.fetchSq_besides, ↓Dev.flushNvme_besides, ↓Dev.releaseVector_besides,
      ↓Dev.besides_ite, ↓Dev.besides_each, ite_self, List.cons_subset, List.nil_subset, and_true, implies_true, hps]
  refine (Dev.besides_each _ _ _ fun q e => ?_).trans ?_
  · split <;> simp only [↓Dev.resendFrom_besides, List.cons_subset, List.nil_subset, and_true, hps]
  · simp only [↓Dev.issuePayload_besides, ↓Dev.besides_each, List.cons_subset, List.nil_subset, and_true, implies_true, hps]
    refine (Dev.besides_each _ _ _ fun r e => ?_).trans ?_
    · split <;> simp only [↓Dev.fetch_besides, ↓Dev.flushOwed_besides, ↓Dev.resumeRing_besides, ↓Dev.besides_ite, ite_self,
          List.cons_subset, List.nil_subset, and_true, hps]
    · simp only [↓Dev.sendPosted_besides, List.cons_subset, List.nil_subset, and_true, hps]

theorem Dev.retryFrom_besides (q psn : Nat) (d : Dev) (hps : [.links, .functions, .routes, .rings, .ports, .contexts, .storage, .retained,
    .registers, .output] ⊆ ps) :
    (Dev.retryFrom q psn d).besides ps = d.besides ps := by
  simp only [List.cons_subset, List.nil_subset, and_true] at hps
  simp only [Dev.retryFrom, ↓Dev.onQp_besides, ↓Dev.qpError_besides, ↓Dev.resendFrom_besides, ↓Dev.besides_ite, ite_self, List.cons_subset,
      List.nil_subset, and_true, hps]

theorem Dev.vfEnableClear_besides (pf : Nat) (d : Dev) (hps : [.power, .links, .functions, .tenants, .work, .channels, .routes, .rings,
    .items, .ports, .tables, .sets, .storage, .engines, .stream, .retained, .registers, .output] ⊆ ps) :
    (Dev.vfEnableClear pf d).besides ps = d.besides ps := by
  simp only [List.cons_subset, List.nil_subset, and_true] at hps
  simp only [Dev.vfEnableClear, ↓Dev.onFn_besides, ↓Dev.resetFn_besides, ↓Dev.besides_ite, ↓Dev.besides_each, ite_self, List.cons_subset,
      List.nil_subset, and_true, implies_true, hps]

theorem Dev.resetFns_besides (link : Nat) (d : Dev) (merge : Bool) (hps : [.power, .links, .functions, .tenants, .work, .channels, .routes,
    .rings, .items, .ports, .tables, .sets, .storage, .engines, .stream, .retained, .registers, .output] ⊆ ps) :
    (Dev.resetFns link d merge).besides ps = d.besides ps := by
  simp only [List.cons_subset, List.nil_subset, and_true] at hps
  simp only [Dev.resetFns, ↓Dev.onFn_besides, ↓Dev.resetFn_besides, ↓Dev.besides_each, List.cons_subset, List.nil_subset, and_true, implies_true, hps]

theorem Dev.flr_besides (fn : Nat) (d : Dev) (hps : [.power, .links, .functions, .tenants, .work, .channels, .routes, .rings, .items,
    .ports, .tables, .sets, .storage, .engines, .stream, .retained, .registers, .output] ⊆ ps) :
    (Dev.flr fn d).besides ps = d.besides ps := by
  simp only [List.cons_subset, List.nil_subset, and_true] at hps
  simp only [Dev.flr, ↓Dev.onFn_besides, ↓Dev.resetFn_besides, ↓Dev.besides_ite, ↓Dev.besides_each, ite_self, List.cons_subset,
      List.nil_subset, and_true, implies_true, hps]

theorem Dev.s44Reset_besides (fn : Nat) (d : Dev) (hps : [.power, .links, .functions, .tenants, .work, .channels, .routes, .rings, .items,
    .ports, .tables, .sets, .storage, .engines, .stream, .retained, .registers, .output] ⊆ ps) :
    (Dev.s44Reset fn d).besides ps = d.besides ps := by
  simp only [List.cons_subset, List.nil_subset, and_true] at hps
  simp only [Dev.s44Reset, ↓Dev.functionReset_besides, ↓Dev.besides_ite, ite_self, List.cons_subset, List.nil_subset, and_true, hps]

theorem Dev.resetRequest_besides (fn tag : Nat) (w : List Nat) (d : Dev) (hps : [.power, .links, .functions, .tenants, .work, .channels,
    .routes, .rings, .items, .ports, .tables, .sets, .storage, .engines, .stream, .retained, .registers, .output] ⊆ ps) :
    (Dev.resetRequest fn tag w d).besides ps = d.besides ps := by
  simp only [List.cons_subset, List.nil_subset, and_true] at hps
  simp only [Dev.resetRequest, ↓Dev.addJob_besides, ↓Dev.answerRequest_besides, ↓Dev.functionReset_besides, ↓Dev.besides_ite, ite_self,
      List.cons_subset, List.nil_subset, and_true, hps]

theorem Dev.coreMemory_besides (k detail0 detail1 : Nat) (d : Dev) (hps : [.start, .positions, .power, .links, .functions, .work,
    .channels, .routes, .rings, .items, .shares, .ports, .tables, .contexts, .sets, .storage, .engines, .stream, .retained, .registers,
    .output] ⊆ ps) :
    (Dev.coreMemory k detail0 detail1 d).besides ps = d.besides ps := by
  simp only [List.cons_subset, List.nil_subset, and_true] at hps
  simp only [Dev.coreMemory, ↓Dev.coreFault_besides, ↓Dev.record_besides, ↓Dev.besides_ite, ite_self, List.cons_subset, List.nil_subset,
      and_true, hps]

theorem Dev.handshake_besides (unit inst silent : Nat) (d : Dev) (hps : [.start, .positions, .power, .links, .functions, .work, .channels,
    .routes, .rings, .items, .shares, .ports, .tables, .contexts, .sets, .storage, .engines, .stream, .retained, .registers,
    .output] ⊆ ps) :
    (Dev.handshake unit inst silent d).besides ps = d.besides ps := by
  simp only [List.cons_subset, List.nil_subset, and_true] at hps
  simp only [Dev.handshake, ↓Dev.coreFault_besides, ↓Dev.deviceError_besides, ↓Dev.finishRecord_besides, ↓Dev.leaveCry_besides,
      ↓Dev.leaveSet_besides, ↓Dev.recordSeq_besides, ↓Dev.besides_ite, ite_self, List.cons_subset, List.nil_subset, and_true, hps]

theorem Dev.contained_besides (e : Err) (d : Dev) (hps : [.start, .positions, .power, .links, .functions, .work, .channels, .routes,
    .rings, .items, .shares, .ports, .tables, .contexts, .sets, .storage, .engines, .stream, .retained, .registers, .output] ⊆ ps) :
    (Dev.contained e d).besides ps = d.besides ps := by
  simp only [List.cons_subset, List.nil_subset, and_true] at hps
  unfold Dev.contained
  split <;> simp only [↓Dev.deviceError_besides, ↓Dev.finishRecord_besides, ↓Dev.record_besides, ↓Dev.recordSeq_besides, ↓Dev.besides_ite,
      ite_self, List.cons_subset, List.nil_subset, and_true, hps]

theorem Dev.endRead_besides (link tag : Nat) (r : Read) (data : Option (List Byte)) (d : Dev) (hps : [.power, .links, .functions, .work,
    .channels, .routes, .rings, .items, .shares, .ports, .tables, .contexts, .sets, .storage, .engines, .stream, .retained, .registers,
    .output] ⊆ ps) :
    (Dev.endRead link tag r data d).besides ps = d.besides ps := by
  simp only [List.cons_subset, List.nil_subset, and_true] at hps
  unfold Dev.endRead
  split <;> simp only [↓Dev.deliverRead_besides, ↓Dev.onLink_besides, ↓Dev.pump_besides, ↓Dev.translationDone_besides, ↓Dev.besides_ite,
      ite_self, List.cons_subset, List.nil_subset, and_true, hps]

theorem Dev.bmeSet_besides (fn : Nat) (d : Dev) (hps : [.power, .links, .functions, .channels, .routes, .rings, .items, .shares, .ports,
    .contexts, .sets, .storage, .engines, .stream, .retained, .registers, .output] ⊆ ps) :
    (Dev.bmeSet fn d).besides ps = d.besides ps := by
  simp only [List.cons_subset, List.nil_subset, and_true] at hps
  simp only [Dev.bmeSet, ↓Dev.onFn_besides, ↓Dev.resumeFn_besides, ↓Dev.sendEpilogue_besides, ↓Dev.sendNext_besides, ↓Dev.besides_ite,
      ite_self, List.cons_subset, List.nil_subset, and_true, hps]

theorem Dev.linkUpAt_besides (link rate width : Nat) (flit : Bool) (d : Dev) (hps : [.power, .links, .functions, .channels, .routes,
    .rings, .items, .shares, .ports, .contexts, .sets, .storage, .engines, .stream, .retained, .registers, .output] ⊆ ps) :
    (Dev.linkUpAt link rate width flit d).besides ps = d.besides ps := by
  simp only [List.cons_subset, List.nil_subset, and_true] at hps
  simp only [Dev.linkUpAt, ↓Dev.cause_besides, ↓Dev.onLink_besides, ↓Dev.pump_besides, ↓Dev.resumeFn_besides, ↓Dev.wr_besides,
      ↓Dev.besides_ite, ↓Dev.besides_each, ite_self, List.cons_subset, List.nil_subset, and_true, implies_true, hps]

theorem Dev.powerState_besides (fn v : Nat) (d : Dev) (hps : [.power, .links, .functions, .work, .channels, .routes, .rings, .items,
    .shares, .ports, .tables, .contexts, .sets, .storage, .engines, .stream, .retained, .registers, .output] ⊆ ps) :
    (Dev.powerState fn v d).besides ps = d.besides ps := by
  simp only [List.cons_subset, List.nil_subset, and_true] at hps
  simp only [Dev.powerState, ↓Dev.haltFn_besides, ↓Dev.onFn_besides, ↓Dev.resumeFn_besides, ↓Dev.besides_ite, ite_self, List.cons_subset,
      List.nil_subset, and_true, hps]

theorem Dev.takeResponse_besides (q psn : Nat) (data : List Byte) (isLast : Bool) (d : Dev) (hps : [.links, .functions, .routes, .rings,
    .ports, .contexts, .storage, .retained, .registers, .output] ⊆ ps) :
    (Dev.takeResponse q psn data isLast d).besides ps = d.besides ps := by
  simp only [List.cons_subset, List.nil_subset, and_true] at hps
  unfold Dev.takeResponse
  split <;> simp only [↓Dev.ackedTo_besides, ↓Dev.hostWrite_besides, ↓Dev.onQp_besides, ↓Dev.qpError_besides, ↓Dev.retryFrom_besides,
      ↓Dev.besides_ite, ite_self, List.cons_subset, List.nil_subset, and_true, hps]

theorem Dev.takeAck_besides (q psn syndrome : Nat) (d : Dev) (hps : [.links, .functions, .routes, .rings, .ports, .contexts, .storage,
    .retained, .registers, .output] ⊆ ps) :
    (Dev.takeAck q psn syndrome d).besides ps = d.besides ps := by
  simp only [List.cons_subset, List.nil_subset, and_true] at hps
  unfold Dev.takeAck
  repeat' split
  all_goals simp only [↓Dev.ackedTo_besides, ↓Dev.countQp_besides, ↓Dev.onQp_besides, ↓Dev.qpError_besides, ↓Dev.resendFrom_besides,
      ↓Dev.retryFrom_besides, ↓Dev.besides_ite, ite_self, List.cons_subset, List.nil_subset, and_true, hps]

theorem Dev.linkReset_besides (link code : Nat) (kind : LinkReset) (state : Nat) (d : Dev) (hps : [.power, .links, .functions, .tenants,
    .work, .channels, .routes, .rings, .items, .ports, .tables, .sets, .storage, .engines, .stream, .retained, .registers, .output] ⊆ ps) :
    (Dev.linkReset link code kind state d).besides ps = d.besides ps := by
  simp only [List.cons_subset, List.nil_subset, and_true] at hps
  simp only [Dev.linkReset, ↓Dev.bump_besides, ↓Dev.linkLeaves_besides, ↓Dev.onLink_besides, ↓Dev.resetFns_besides, ↓Dev.wr_besides,
      ↓Dev.besides_ite, ite_self, List.cons_subset, List.nil_subset, and_true, hps]

theorem Dev.resumeService_besides (d : Dev) (hps : [.start, .power, .links, .functions, .tenants, .work, .channels, .routes, .rings,
    .items, .shares, .ports, .time, .tables, .sets, .storage, .engines, .stream, .retained, .registers, .output] ⊆ ps) :
    (Dev.resumeService d).besides ps = d.besides ps := by
  simp only [List.cons_subset, List.nil_subset, and_true] at hps
  have hsqs (l : List Nat) (a : Dev) : (Dev.each l (fun fn d => Dev.each (d.nvme fn).sqs.keys (Dev.fetchSq fn) d) a).besides ps =
      a.besides ps :=
    Dev.besides_each _ _ _ fun fn e => by simp only [↓Dev.fetchSq_besides, ↓Dev.besides_each, List.cons_subset, List.nil_subset, and_true,
        implies_true, hps]
  simp only [Dev.resumeService, hsqs, ↓Dev.applyLogged_besides, ↓Dev.fetch_besides, ↓Dev.flushOwed_besides, ↓Dev.refetch_besides,
      ↓Dev.resetFns_besides, ↓Dev.sendPosted_besides, ↓Dev.serviceXon_besides, ↓Dev.stpTrain_besides, ↓Dev.writeHeld_besides,
      ↓Dev.besides_boot, ↓Dev.besides_each, List.cons_subset, List.nil_subset, and_true, implies_true, hps]

theorem Dev.writeS44_besides (fn off v : Nat) (d : Dev) (hps : [.power, .links, .functions, .tenants, .work, .channels, .routes, .rings,
    .items, .shares, .ports, .tables, .contexts, .sets, .storage, .engines, .stream, .retained, .registers, .output] ⊆ ps) :
    (Dev.writeS44 fn off v d).besides ps = d.besides ps := by
  simp only [List.cons_subset, List.nil_subset, and_true] at hps
  simp only [Dev.writeS44, ↓Dev.goOnJobs_besides, ↓Dev.plainWrite_besides, ↓Dev.s44Disable_besides, ↓Dev.s44Enable_besides,
      ↓Dev.s44Reset_besides, ↓Dev.besides_ite, ite_self, List.cons_subset, List.nil_subset, and_true, hps]

theorem Dev.failRead_besides (link tag : Nat) (r : Read) (timeout : Bool) (d : Dev) (hps : [.power, .links, .functions, .work, .channels,
    .routes, .rings, .items, .shares, .ports, .tables, .contexts, .sets, .storage, .engines, .stream, .retained, .registers,
    .output] ⊆ ps) :
    (Dev.failRead link tag r timeout d).besides ps = d.besides ps := by
  simp only [List.cons_subset, List.nil_subset, and_true] at hps
  simp only [Dev.failRead, ↓Dev.bump_besides, ↓Dev.cause_besides, ↓Dev.endRead_besides, ↓Dev.reportAer_besides, ↓Dev.besides_ite, ite_self,
      List.cons_subset, List.nil_subset, and_true, hps]

theorem Dev.cfgWrite_besides (fn : Nat) (f : CfgField) (v : Nat) (d : Dev) (hps : [.power, .links, .functions, .tenants, .work, .channels,
    .routes, .rings, .items, .shares, .ports, .tables, .contexts, .sets, .storage, .engines, .stream, .retained, .registers,
    .output] ⊆ ps) :
    (Dev.cfgWrite fn f v d).besides ps = d.besides ps := by
  simp only [List.cons_subset, List.nil_subset, and_true] at hps
  unfold Dev.cfgWrite
  split <;> simp only [↓Dev.bmeClear_besides, ↓Dev.bmeSet_besides, ↓Dev.dropTranslations_besides, ↓Dev.flr_besides, ↓Dev.ltrSet_besides,
      ↓Dev.onFn_besides, ↓Dev.powerState_besides, ↓Dev.releaseVectors_besides, ↓Dev.vfEnableClear_besides, ↓Dev.vfEnableSet_besides,
      ↓Dev.besides_ite, ite_self, List.cons_subset, List.nil_subset, and_true, hps]

theorem Dev.respond_besides (q : Nat) (it : Item) (b : Bth) (d : Dev) (hps : [.links, .functions, .routes, .rings, .ports, .contexts,
    .storage, .retained, .registers, .output] ⊆ ps) :
    (Dev.respond q it b d).2.besides ps = d.besides ps := by
  simp only [List.cons_subset, List.nil_subset, and_true] at hps
  simp only [Dev.respond]
  repeat' split
  all_goals simp only [↓Dev.countQp_besides, ↓Dev.onQp_besides, ↓Dev.respondRead_besides, ↓Dev.respondSend_besides,
      ↓Dev.respondWrite_besides, ↓Dev.takeAck_besides, ↓Dev.takeCnp_besides, ↓Dev.takeResponse_besides, List.cons_subset, List.nil_subset,
      and_true, hps]

theorem Dev.perstAssert_besides (link : Nat) (d : Dev) (hps : [.power, .links, .functions, .tenants, .work, .channels, .routes, .rings,
    .items, .ports, .tables, .sets, .storage, .engines, .stream, .retained, .registers, .output] ⊆ ps) :
    (Dev.perstAssert link d).besides ps = d.besides ps := by
  simp only [List.cons_subset, List.nil_subset, and_true] at hps
  simp only [Dev.perstAssert, ↓Dev.linkReset_besides, ↓Dev.wr_besides, ↓Dev.besides_ite, ite_self, List.cons_subset, List.nil_subset, and_true, hps]

theorem Dev.eccUncorrectable_besides (place : EccSite) (d : Dev) (hps : [.start, .positions, .power, .links, .functions, .tenants, .work,
    .channels, .routes, .rings, .items, .shares, .ports, .tables, .contexts, .sets, .storage, .engines, .stream, .retained, .registers,
    .output] ⊆ ps) :
    (Dev.eccUncorrectable place d).besides ps = d.besides ps := by
  simp only [List.cons_subset, List.nil_subset, and_true] at hps
  unfold Dev.eccUncorrectable
  repeat' split
  all_goals simp only [↓Dev.cause_besides, ↓Dev.contained_besides, ↓Dev.coreMemory_besides, ↓Dev.cryFault_besides,
      ↓Dev.deviceError_besides, ↓Dev.dmaStop_besides, ↓Dev.endLinkReset_besides, ↓Dev.endXfer_besides, ↓Dev.failItem_besides,
      ↓Dev.linkReset_besides, ↓Dev.loseConn_besides, ↓Dev.loseContext_besides, ↓Dev.loseEntry_besides, ↓Dev.onMtb_besides,
      ↓Dev.portError_besides, ↓Dev.record_besides, ↓Dev.reportAer_besides, ↓Dev.ringError_besides, ↓Dev.setFault_besides,
      ↓Dev.stompFrames_besides, ↓Dev.besides_boot, ↓Dev.besides_counters, ↓Dev.besides_ctxCache, ↓Dev.besides_ite, ↓Dev.besides_each,
      ite_self, List.cons_subset, List.nil_subset, and_true, implies_true, hps]

theorem Dev.finishService_besides (img : Image) (fl : Flash) (d : Dev) (hps : [.start, .positions, .power, .links, .functions, .tenants,
    .work, .channels, .routes, .rings, .items, .shares, .ports, .time, .tables, .sets, .storage, .engines, .stream, .retained, .registers,
    .output] ⊆ ps) :
    (Dev.finishService img fl d).besides ps = d.besides ps := by
  simp only [List.cons_subset, List.nil_subset, and_true] at hps
  simp only [Dev.finishService, ↓Dev.bootEvent_besides, ↓Dev.buildCard_besides, ↓Dev.domainsOn_besides, ↓Dev.free_besides,
      ↓Dev.loadStore_besides, ↓Dev.loseSave_besides, ↓Dev.noteStart_besides, ↓Dev.resumeService_besides, ↓Dev.startEvents_besides,
      ↓Dev.updateHeadroom_besides, ↓Dev.wr_besides, ↓Dev.besides_boot, ↓Dev.besides_cores, ↓Dev.besides_phase, ↓Dev.besides_ite,
      ↓Dev.besides_each, ite_self, List.cons_subset, List.nil_subset, and_true, implies_true, hps]

theorem Dev.writeReg_besides (mid unit inst off v : Nat) (d : Dev) (hps : [.power, .links, .functions, .tenants, .work, .channels, .routes,
    .rings, .items, .shares, .ports, .time, .tables, .contexts, .sets, .storage, .engines, .stream, .retained, .registers, .output] ⊆ ps) :
    (Dev.writeReg mid unit inst off v d).besides ps = d.besides ps := by
  simp only [List.cons_subset, List.nil_subset, and_true] at hps
  simp only [Dev.writeReg, ↓Dev.mbxWrite_besides, ↓Dev.nvmeWrite_besides, ↓Dev.writeLive_besides, ↓Dev.writeS44_besides,
      ↓Dev.writeVector_besides, ↓Dev.besides_ite, ite_self, List.cons_subset, List.nil_subset, and_true, hps]

theorem Dev.cfgRequest_besides (fn : Nat) (req : ConfigReq) (d : Dev) (hps : [.power, .links, .functions, .tenants, .work, .channels,
    .routes, .rings, .items, .shares, .ports, .tables, .contexts, .sets, .storage, .engines, .stream, .retained, .registers,
    .output] ⊆ ps) :
    (Dev.cfgRequest fn req d).besides ps = d.besides ps := by
  simp only [List.cons_subset, List.nil_subset, and_true] at hps
  unfold Dev.cfgRequest
  repeat' split
  all_goals simp only [↓Dev.cfgRead_besides, ↓Dev.cfgWrite_besides, ↓Dev.emit_besides, ↓Dev.leaveL1_besides, ↓Dev.besides_ite, ite_self,
      List.cons_subset, List.nil_subset, and_true, hps]

theorem Dev.retireRoce_besides (i : Nat) (it : Item) (q : Nat) (d : Dev) (hps : [.power, .links, .functions, .routes, .rings, .items,
    .ports, .tables, .contexts, .storage, .retained, .registers, .output] ⊆ ps) :
    (Dev.retireRoce i it q d).besides ps = d.besides ps := by
  simp only [List.cons_subset, List.nil_subset, and_true] at hps
  simp only [Dev.retireRoce, ↓Dev.cnpFrames_besides, ↓Dev.countQp_besides, ↓Dev.onItem_besides, ↓Dev.pushFrames_besides,
      ↓Dev.readSegments_besides, ↓Dev.respond_besides, ↓Dev.respondError_besides, ↓Dev.retired_besides, ↓Dev.besides_ite, ite_self,
      List.cons_subset, List.nil_subset, and_true, hps]

theorem Dev.eccError_besides (place : EccSite) (correctable : Bool) (d : Dev) (hps : [.start, .positions, .power, .links, .functions,
    .tenants, .work, .channels, .routes, .rings, .items, .shares, .ports, .tables, .contexts, .sets, .storage, .engines, .stream,
    .retained, .registers, .output] ⊆ ps) :
    (Dev.eccError place correctable d).besides ps = d.besides ps := by
  simp only [List.cons_subset, List.nil_subset, and_true] at hps
  simp only [Dev.eccError, ↓Dev.eccCorrected_besides, ↓Dev.eccUncorrectable_besides, ↓Dev.besides_ite, ite_self, List.cons_subset,
      List.nil_subset, and_true, hps]

theorem Dev.retireNvmeQp_besides (i : Nat) (it : Item) (q : Nat) (d : Dev) (hps : [.power, .links, .functions, .routes, .rings, .items,
    .ports, .tables, .contexts, .storage, .retained, .registers, .output] ⊆ ps) :
    (Dev.retireNvmeQp i it q d).besides ps = d.besides ps := by
  simp only [List.cons_subset, List.nil_subset, and_true] at hps
  simp only [Dev.retireNvmeQp, ↓Dev.cnpFrames_besides, ↓Dev.countQp_besides, ↓Dev.loseQpCmds_besides, ↓Dev.pushFrames_besides,
      ↓Dev.respondNvme_besides, ↓Dev.retireRoce_besides, ↓Dev.retired_besides, ↓Dev.besides_ite, ite_self, List.cons_subset,
      List.nil_subset, and_true, hps]

theorem Dev.scrub_besides (mem : Memory) (found : List EccFinding) (d : Dev) (hps : [.start, .positions, .power, .links, .functions,
    .tenants, .work, .channels, .routes, .rings, .items, .shares, .ports, .tables, .contexts, .sets, .storage, .engines, .stream,
    .retained, .registers, .output] ⊆ ps) :
    (Dev.scrub mem found d).besides ps = d.besides ps := by
  simp only [List.cons_subset, List.nil_subset, and_true] at hps
  simp only [Dev.scrub, ↓Dev.bump_besides, ↓Dev.cause_besides, ↓Dev.eccError_besides, ↓Dev.besides_ite, ↓Dev.besides_each, ite_self,
      List.cons_subset, List.nil_subset, and_true, implies_true, hps]

theorem Dev.retireItem_besides (i : Nat) (d : Dev) (hps : [.power, .links, .functions, .channels, .routes, .rings, .items, .ports, .tables,
    .contexts, .sets, .storage, .stream, .retained, .registers, .output] ⊆ ps) :
    (Dev.retireItem i d).besides ps = d.besides ps := by
  simp only [List.cons_subset, List.nil_subset, and_true] at hps
  unfold Dev.retireItem
  repeat' split
  all_goals simp only [↓Dev.completeSource_besides, ↓Dev.retireNvme_besides, ↓Dev.retireNvmeQp_besides, ↓Dev.retireRoce_besides,
      ↓Dev.retireRx_besides, ↓Dev.retireSwitched_besides, ↓Dev.retireTcp_besides, ↓Dev.retireTx_besides, ↓Dev.retireWork_besides,
      ↓Dev.squash_besides, List.cons_subset, List.nil_subset, and_true, hps]

end Sys2Proof.Machine
end

section
/-!
Frames of the whole state: the operations on flash, fuses and the device together.
-/

namespace Sys2Proof.Machine

variable {ps : List Part}

/-- What the state holds besides the parts `ps`. -/
def State.besides (ps : List Part) (s : State) : State :=
  { s with
    dev := s.dev.besides ps
    flash := if .flash ∈ ps then {} else s.flash
    fuses := if .fuses ∈ ps then {} else s.fuses }

theorem State.besides_dev (s : State) {d : Dev} (h : d.besides ps = s.dev.besides ps) : { s with dev := d }.besides ps = s.besides ps := by
  simp only [State.besides, h]

theorem State.besides_flash (s : State) (fl : Flash) (h : .flash ∈ ps) : { s with flash := fl }.besides ps = s.besides ps := by
  simp only [State.besides, if_pos h]

theorem State.besides_fuses (s : State) (f : Fuses) (h : .fuses ∈ ps) : { s with fuses := f }.besides ps = s.besides ps := by
  simp only [State.besides, if_pos h]

theorem State.besides_flash_dev (s : State) (fl : Flash) {d : Dev} (h : .flash ∈ ps) (hd : d.besides ps = s.dev.besides ps) :
    { s with flash := fl, dev := d }.besides ps = s.besides ps := by
  simp only [State.besides, if_pos h, hd]

theorem State.besides_fuses_dev (s : State) (f : Fuses) {d : Dev} (h : .fuses ∈ ps) (hd : d.besides ps = s.dev.besides ps) :
    { s with fuses := f, dev := d }.besides ps = s.besides ps := by
  simp only [State.besides, if_pos h, hd]

theorem State.besides_ite (c : Prop) [Decidable c] (a b : State) :
    (if c then a else b).besides ps = if c then a.besides ps else b.besides ps :=
  apply_ite ..

theorem State.pending_of_besides {s t : State} (h : t.besides ps = s.besides ps) : t.pending = s.pending := by
  have hp : (t.besides ps).pending = (s.besides ps).pending := congrArg State.pending h
  exact hp

theorem State.dev_of_besides {s t : State} (h : t.besides ps = s.besides ps) : t.dev.besides ps = s.dev.besides ps := by
  have hd : (t.besides ps).dev = (s.besides ps).dev := congrArg State.dev h
  exact hd

theorem State.respond_besides (slot signature : Nat) (s : State) (hps : [.debug] ⊆ ps) :
    (State.respond slot signature s).besides ps = s.besides ps := by
  simp only [List.cons_subset, List.nil_subset, and_true] at hps
  unfold State.respond
  split
  · exact s.besides_dev (Dev.besides_dbg _ _ hps)
  · exact s.besides_dev (Dev.besides_dbg _ _ hps)

theorem State.answerSideband_besides (kind : String) (words : List Nat) (s : State) (hps : [.output] ⊆ ps) :
    (State.answerSideband kind words s).besides ps = s.besides ps := by
  simp only [List.cons_subset, List.nil_subset, and_true] at hps
  exact s.besides_dev (Dev.emit_besides _ _ (by simp only [List.cons_subset, List.nil_subset, hps, and_true]))

theorem State.emit_besides (s : State) (o : Output) (hps : [.output] ⊆ ps) :
    (State.emit s o).besides ps = s.besides ps := by
  simp only [List.cons_subset, List.nil_subset, and_true] at hps
  exact s.besides_dev (Dev.emit_besides _ _ (by simp only [List.cons_subset, List.nil_subset, hps, and_true]))

theorem State.putFlash_besides (fl : Flash) (s : State) (hps : [.output, .flash] ⊆ ps) :
    (State.putFlash fl s).besides ps = s.besides ps := by
  simp only [List.cons_subset, List.nil_subset, and_true] at hps
  exact s.besides_flash_dev _ hps.2 (by simp only [↓Dev.emit_besides, ↓Dev.besides_each, List.cons_subset, List.nil_subset, and_true,
      implies_true, hps])

theorem State.provision_besides (slot : Nat) (op : KeySlotOp) (s : State) (hps : [.output, .fuses] ⊆ ps) :
    (State.provision slot op s).besides ps = s.besides ps := by
  simp only [List.cons_subset, List.nil_subset, and_true] at hps
  unfold State.provision
  simp only
  split
  · split <;> simp only [State.answerSideband_besides, State.besides_fuses, List.cons_subset, List.nil_subset, and_true, hps]
  · split <;> simp only [State.answerSideband_besides, State.besides_fuses, List.cons_subset, List.nil_subset, and_true, hps]

theorem State.writeSlot_besides (c : DirCopy) (img : Image) (s : State) (hps : [.output, .flash] ⊆ ps) :
    (State.writeSlot c img s).besides ps = s.besides ps := by
  simp only [List.cons_subset, List.nil_subset, and_true] at hps
  simp only [State.writeSlot, State.emit_besides, State.besides_flash, List.cons_subset, List.nil_subset, and_true, hps]

theorem State.snapStart_besides (s : State) (hps : [.start, .retained, .registers, .output, .flash] ⊆ ps) :
    (State.snapStart s).besides ps = s.besides ps := by
  simp only [List.cons_subset, List.nil_subset, and_true] at hps
  unfold State.snapStart
  split
  · rfl
  · exact s.besides_flash_dev _ hps.2.2.2.2
      (by simp only [↓Dev.emit_besides, ↓Dev.wr_besides, ↓Dev.besides_boot, List.cons_subset, List.nil_subset, and_true, hps])

theorem State.eraseSnaps_besides (s : State) (hps : [.output, .flash] ⊆ ps) :
    (State.eraseSnaps s).besides ps = s.besides ps := by
  simp only [List.cons_subset, List.nil_subset, and_true] at hps
  simp only [State.eraseSnaps, State.emit_besides, State.besides_flash, List.cons_subset, List.nil_subset, and_true, hps]

theorem State.confirmTrial_besides (s : State) (hps : [.start, .output, .flash, .fuses] ⊆ ps) :
    (State.confirmTrial s).besides ps = s.besides ps := by
  simp only [List.cons_subset, List.nil_subset, and_true] at hps
  unfold State.confirmTrial
  split
  · dsimp only
    split
    · exact (State.besides_fuses_dev _ _ hps.2.2.2 (Dev.besides_boot _ _ hps.1)).trans
        (State.putFlash_besides _ s (by simp only [List.cons_subset, List.nil_subset, and_true, hps]))
    · rfl
  · rfl

theorem State.stageImage_besides (img : Image) (length : Nat) (s : State) (hps : [.start, .debug, .positions, .power, .links, .functions,
    .tenants, .work, .channels, .routes, .rings, .items, .shares, .ports, .time, .tables, .contexts, .sets, .storage, .engines, .stream,
    .retained, .registers, .output, .flash] ⊆ ps) :
    (State.stageImage img length s).2.besides ps = s.besides ps := by
  simp only [List.cons_subset, List.nil_subset, and_true] at hps
  unfold State.stageImage
  split
  · rfl
  · next c _ =>
    have hslot : (s.writeSlot c img).besides ps = s.besides ps :=
      State.writeSlot_besides c img s (by simp only [List.cons_subset, List.nil_subset, and_true, hps])
    have hboot (b : Boot) : { s.writeSlot c img with dev := { (s.writeSlot c img).dev with boot := b } }.besides ps = s.besides ps :=
      (State.besides_dev _ (Dev.besides_boot _ _ hps.1)).trans hslot
    split
    · rfl
    · dsimp only
      split
      · exact (State.putFlash_besides _ _ (by simp only [List.cons_subset, List.nil_subset, and_true, hps])).trans (hboot _)
      · exact hboot _

theorem State.pldmUpdate_besides (img : Image) (s : State) (hps : [.start, .output, .flash] ⊆ ps) :
    (State.pldmUpdate img s).besides ps = s.besides ps := by
  simp only [List.cons_subset, List.nil_subset, and_true] at hps
  unfold State.pldmUpdate
  dsimp only
  split
  · exact State.answerSideband_besides _ _ _ (by simp only [List.cons_subset, List.nil_subset, and_true, hps])
  · rw [State.answerSideband_besides (hps := by simp only [List.cons_subset, List.nil_subset, and_true, hps]),
      State.besides_dev (h := Dev.besides_boot _ _ hps.1),
      State.putFlash_besides (hps := by simp only [List.cons_subset, List.nil_subset, and_true, hps]),
      State.writeSlot_besides (hps := by simp only [List.cons_subset, List.nil_subset, and_true, hps])]

theorem State.discard_besides (s : State) (hps : [.retained, .output, .flash] ⊆ ps) :
    (State.discard s).besides ps = s.besides ps := by
  simp only [List.cons_subset, List.nil_subset, and_true] at hps
  exact (State.besides_dev _ (Dev.besides_keep _ _ hps.1)).trans
    (State.eraseSnaps_besides s (by simp only [List.cons_subset, List.nil_subset, and_true, hps]))

theorem State.snapDone_besides (ok : Bool) (s : State) (hps : [.start, .routes, .retained, .registers, .output, .flash] ⊆ ps) :
    (State.snapDone ok s).besides ps = s.besides ps := by
  simp only [List.cons_subset, List.nil_subset, and_true] at hps
  unfold State.snapDone
  split
  · rfl
  · dsimp only
    split
    · exact s.besides_flash_dev _ hps.2.2.2.2.2 (by simp only [↓Dev.bootEvent_besides, ↓Dev.bump_besides, ↓Dev.emit_besides,
          ↓Dev.free_besides, ↓Dev.wr_besides, ↓Dev.besides_boot, List.cons_subset, List.nil_subset, and_true, hps])
    · exact s.besides_dev (by simp only [↓Dev.bootEvent_besides, ↓Dev.emit_besides, ↓Dev.free_besides, ↓Dev.wr_besides, ↓Dev.besides_boot,
          List.cons_subset, List.nil_subset, and_true, hps])

theorem State.shutdownDrained_besides (s : State) (hps : [.start, .routes, .retained, .registers, .output, .flash] ⊆ ps) :
    (State.shutdownDrained s).besides ps = s.besides ps := by
  simp only [List.cons_subset, List.nil_subset, and_true] at hps
  unfold State.shutdownDrained
  dsimp only
  split
  · rfl
  · split
    · rw [State.snapStart_besides (hps := by simp only [List.cons_subset, List.nil_subset, and_true, hps])]
      exact s.besides_dev (Dev.besides_boot _ _ hps.1)
    · exact s.besides_dev (by simp only [↓Dev.bootEvent_besides, ↓Dev.besides_boot, List.cons_subset, List.nil_subset, and_true, hps])

theorem State.finishApply_besides (s : State) (a : Apply) (hps : [.start, .power, .links, .functions, .work, .channels, .routes, .rings,
    .items, .ports, .sets, .stream, .retained, .registers, .output, .flash, .fuses] ⊆ ps) :
    (State.finishApply s a).besides ps = s.besides ps := by
  simp only [List.cons_subset, List.nil_subset, and_true] at hps
  unfold State.finishApply
  dsimp only
  split
  · rfl
  · rw [State.besides_fuses (h := hps.2.2.2.2.2.2.2.2.2.2.2.2.2.2.2.2),
      State.putFlash_besides (hps := by simp only [List.cons_subset, List.nil_subset, and_true, hps])]
    refine s.besides_dev ?_
    repeat' split
    all_goals simp only [↓Dev.answerRequest_besides, ↓Dev.applyDefaults_besides, ↓Dev.applySchema_besides, ↓Dev.dropDefaults_besides,
        ↓Dev.progress_besides, ↓Dev.wr_besides, ↓Dev.besides_apply, ↓Dev.besides_boot, List.cons_subset, List.nil_subset, and_true, hps]

theorem State.imageStage_besides (fn : Nat) (img : Image) (s : State) (hps : [.start, .debug, .positions, .power, .links, .functions,
    .tenants, .work, .channels, .routes, .rings, .items, .shares, .ports, .time, .tables, .contexts, .sets, .storage, .engines, .stream,
    .retained, .registers, .output, .flash] ⊆ ps) :
    (State.imageStage fn img s).besides ps = s.besides ps := by
  simp only [List.cons_subset, List.nil_subset, and_true] at hps
  unfold State.imageStage
  split
  · exact s.besides_dev (by simp only [↓Dev.takeKind_besides, List.cons_subset, List.nil_subset, and_true, implies_true, hps])
  · dsimp only
    split
    · exact s.besides_dev (by simp only [↓Dev.ackRequest_besides, ↓Dev.answerRequest_besides, List.cons_subset, List.nil_subset, and_true, hps])
    · split
      · exact s.besides_dev (by simp only [↓Dev.ackRequest_besides, ↓Dev.answerRequest_besides, List.cons_subset, List.nil_subset, and_true, hps])
      · split
        · exact s.besides_dev (by simp only [↓Dev.ackRequest_besides, ↓Dev.answerRequest_besides, List.cons_subset, List.nil_subset, and_true, hps])
        · rw [State.besides_dev (h := Dev.answerRequest_besides (hps := by simp only [List.cons_subset, List.nil_subset, and_true, hps]) ..),
            State.stageImage_besides (hps := by simp only [List.cons_subset, List.nil_subset, and_true, hps])]
          exact s.besides_dev (by simp only [↓Dev.ackRequest_besides, List.cons_subset, List.nil_subset, and_true, hps])

theorem State.start_besides (f : StartFindings) (s : State) (hps : [.start, .debug, .positions, .power, .links, .functions, .tenants,
    .work, .channels, .routes, .rings, .items, .shares, .ports, .time, .tables, .contexts, .sets, .storage, .engines, .stream, .retained,
    .registers, .output, .flash] ⊆ ps) :
    (State.start f s).besides ps = s.besides ps := by
  simp only [List.cons_subset, List.nil_subset, and_true] at hps
  unfold State.start
  dsimp only
  have hemit (o : Output) : (s.emit o).besides ps = s.besides ps :=
    State.emit_besides s o (by simp only [List.cons_subset, List.nil_subset, and_true, hps])
  split
  · exact (State.besides_dev _ (by simp only [↓Dev.trip_besides, List.cons_subset, List.nil_subset, and_true, hps])).trans (hemit _)
  · have hreads (l : List Output) (e : Dev) : (Dev.each l (fun o d => d.emit o) e).besides ps = e.besides ps := by
      simp only [↓Dev.emit_besides, ↓Dev.besides_each, List.cons_subset, List.nil_subset, and_true, implies_true, hps]
    generalize hs : State.putFlash _ _ = u
    have hu : u.besides ps = s.besides ps := by
      rw [← hs, State.putFlash_besides (hps := by simp only [List.cons_subset, List.nil_subset, and_true, hps]), ← hemit (.flashReset false)]
      exact State.besides_dev _ ((hreads _ _).trans (by simp only [↓Dev.emit_besides, ↓Dev.besides_power, List.cons_subset,
          List.nil_subset, and_true, hps]))
    split
    · exact (State.besides_dev u (by simp only [↓Dev.bootEvent_besides, ↓Dev.recover_besides, ↓Dev.besides_when, List.cons_subset,
          List.nil_subset, and_true, implies_true, hps])).trans hu
    · split
      · rw [State.eraseSnaps_besides (hps := by simp only [List.cons_subset, List.nil_subset, and_true, hps])]
        exact (State.besides_dev u (by simp only [↓Dev.startWith_besides, List.cons_subset, List.nil_subset, and_true, hps])).trans hu
      · exact (State.besides_dev u (by simp only [↓Dev.startWith_besides, List.cons_subset, List.nil_subset, and_true, hps])).trans hu

theorem State.imageApply_besides (fn : Nat) (s : State) (hps : [.start, .debug, .positions, .power, .links, .functions, .tenants, .work,
    .channels, .routes, .rings, .items, .shares, .ports, .time, .tables, .contexts, .sets, .storage, .engines, .stream, .retained,
    .registers, .output] ⊆ ps) :
    (State.imageApply fn s).besides ps = s.besides ps := by
  simp only [List.cons_subset, List.nil_subset, and_true] at hps
  unfold State.imageApply
  split
  · exact s.besides_dev (by simp only [↓Dev.takeKind_besides, List.cons_subset, List.nil_subset, and_true, implies_true, hps])
  · dsimp only
    repeat' split
    all_goals exact s.besides_dev (by simp only [↓Dev.ackRequest_besides, ↓Dev.answerRequest_besides, ↓Dev.onApply_besides,
        ↓Dev.stepDone_besides, ↓Dev.besides_apply, List.cons_subset, List.nil_subset, and_true, hps])

theorem State.goOnApply_besides (s : State) (hps : [.start, .positions, .power, .links, .functions, .work, .channels, .routes, .rings,
    .items, .ports, .sets, .stream, .retained, .registers, .output, .flash, .fuses] ⊆ ps) :
    (State.goOnApply s).besides ps = s.besides ps := by
  simp only [List.cons_subset, List.nil_subset, and_true] at hps
  unfold State.goOnApply
  split
  · split
    · rfl
    · split
      · rfl
      · split
        · exact s.besides_dev (by simp only [↓Dev.applyCores_besides, List.cons_subset, List.nil_subset, and_true, hps])
        · exact s.besides_dev (by simp only [↓Dev.applySets_besides, List.cons_subset, List.nil_subset, and_true, hps])
        · exact s.besides_dev (by simp only [↓Dev.reformPorts_besides, ↓Dev.stepDone_besides, List.cons_subset, List.nil_subset, and_true, hps])
        · exact State.finishApply_besides _ _ (by simp only [List.cons_subset, List.nil_subset, and_true, hps])
        · rfl
  · rfl

theorem State.bootCommand_besides (v : Nat) (s : State) (hps : [.start, .positions, .power, .links, .functions, .work, .channels, .routes,
    .rings, .items, .shares, .ports, .tables, .contexts, .sets, .storage, .engines, .stream, .retained, .registers, .output, .flash,
    .fuses] ⊆ ps) :
    (State.bootCommand v s).besides ps = s.besides ps := by
  simp only [List.cons_subset, List.nil_subset, and_true] at hps
  unfold State.bootCommand
  split
  · rfl
  · split
    · exact State.snapStart_besides s (by simp only [List.cons_subset, List.nil_subset, and_true, hps])
    · split
      · exact s.besides_dev (Dev.besides_boot _ _ hps.1)
      · split
        · exact State.confirmTrial_besides s (by simp only [List.cons_subset, List.nil_subset, and_true, hps])
        · split
          · exact State.discard_besides s (by simp only [List.cons_subset, List.nil_subset, and_true, hps])
          · split
            · exact s.besides_dev (by simp only [↓Dev.beginService_besides, List.cons_subset, List.nil_subset, and_true, hps])
            · rfl

theorem State.finishService_besides (s : State) (hps : [.start, .debug, .positions, .power, .links, .functions, .tenants, .work, .channels,
    .routes, .rings, .items, .shares, .ports, .time, .tables, .contexts, .sets, .storage, .engines, .stream, .retained, .registers,
    .output] ⊆ ps) :
    (State.finishService s).besides ps = s.besides ps := by
  simp only [List.cons_subset, List.nil_subset, and_true] at hps
  unfold State.finishService
  split
  · rfl
  · split
    · exact s.besides_dev (by simp only [↓Dev.finishService_besides, List.cons_subset, List.nil_subset, and_true, hps])
    · exact s.besides_dev (by simp only [↓Dev.recover_besides, List.cons_subset, List.nil_subset, and_true, hps])

theorem State.writeWord_besides (mid unit inst off v : Nat) (s : State) (hps : [.start, .positions, .power, .links, .functions, .tenants,
    .work, .channels, .routes, .rings, .items, .shares, .ports, .time, .tables, .contexts, .sets, .storage, .engines, .stream, .retained,
    .registers, .output, .flash, .fuses] ⊆ ps) :
    (State.writeWord mid unit inst off v s).besides ps = s.besides ps := by
  simp only [List.cons_subset, List.nil_subset, and_true] at hps
  unfold State.writeWord
  split
  · exact s.besides_dev (by simp only [↓Dev.withhold_besides, List.cons_subset, List.nil_subset, and_true, hps])
  · split
    · rfl
    · split
      · split
        · exact State.bootCommand_besides v s (by simp only [List.cons_subset, List.nil_subset, and_true, hps])
        · rfl
      · exact s.besides_dev (by simp only [↓Dev.writeReg_besides, List.cons_subset, List.nil_subset, and_true, hps])

theorem idle_besides (s : State) (hps : [.start, .debug, .positions, .power, .links, .functions, .tenants, .work, .channels, .routes,
    .rings, .items, .shares, .ports, .time, .tables, .contexts, .sets, .storage, .engines, .stream, .retained, .registers, .output, .flash,
    .fuses] ⊆ ps) :
    (idle s).besides ps = s.besides ps := by
  simp only [List.cons_subset, List.nil_subset, and_true] at hps
  unfold idle
  dsimp only
  have hfin : s.finishService.besides ps = s.besides ps :=
    State.finishService_besides s (by simp only [List.cons_subset, List.nil_subset, and_true, hps])
  split
  · rw [State.goOnApply_besides (hps := by simp only [List.cons_subset, List.nil_subset, and_true, hps])]
    exact (State.besides_dev _ (by simp only [↓Dev.firmwareIdle_besides, ↓Dev.recordIdle_besides, List.cons_subset, List.nil_subset,
        and_true, hps])).trans hfin
  · exact hfin

theorem State.releaseWrite_besides (w : HeldWrite) (s : State) (hps : [.start, .positions, .power, .links, .functions, .tenants, .work,
    .channels, .routes, .rings, .items, .shares, .ports, .time, .tables, .contexts, .sets, .storage, .engines, .stream, .retained,
    .registers, .output, .flash, .fuses] ⊆ ps) :
    (State.releaseWrite w s).besides ps = s.besides ps := by
  simp only [List.cons_subset, List.nil_subset, and_true] at hps
  cases w with
  | doorbell fn page slot word value => exact s.besides_dev (by simp only [↓Dev.doorbellArrives_besides, List.cons_subset, List.nil_subset,
      and_true, hps])
  | register mid unit inst off value => exact State.writeWord_besides mid unit inst off value s (by simp only [List.cons_subset,
      List.nil_subset, and_true, hps])

theorem State.releaseLink_besides (link : Nat) (s : State) (hps : [.start, .positions, .power, .links, .functions, .tenants, .work,
    .channels, .routes, .rings, .items, .shares, .ports, .time, .tables, .contexts, .sets, .storage, .engines, .stream, .retained,
    .registers, .output, .flash, .fuses] ⊆ ps) :
    (State.releaseLink link s).besides ps = s.besides ps := by
  simp only [List.cons_subset, List.nil_subset, and_true] at hps
  have hfold (l : List HeldWrite) (u : State) : (l.foldl (fun s w => s.releaseWrite w) u).besides ps = u.besides ps := by
    induction l generalizing u with
    | nil => rfl
    | cons w l ih =>
      rw [List.foldl_cons, ih, State.releaseWrite_besides (hps := by simp only [List.cons_subset, List.nil_subset, and_true, hps])]
  simp only [State.releaseLink, hfold]
  exact s.besides_dev (Dev.besides_boot _ _ hps.1)

end Sys2Proof.Machine
end

section
/-!
Frames of the commands: each changes at most the parts that `mayChange` lists for it.
-/

namespace Sys2Proof.Machine

variable {ps : List Part}

/-- An answer that is a next state and changes at most the parts `ps`. -/
def Frames (ps : List Part) (s : State) (o : Out) : Prop := ∃ t, o = .next t ∧ t.besides ps = s.besides ps

theorem Frames.next {s t : State} (h : t.besides ps = s.besides ps) : Frames ps s (.next t) := ⟨t, rfl, h⟩

theorem State.onDev_frames {s : State} {f : Dev → Dev} (h : ∀ d, (f d).besides ps = d.besides ps) : Frames ps s (s.onDev f) :=
  .next (s.besides_dev (h s.dev))

theorem Frames.guarded {s : State} {f : Dev → Dev} (c : Prop) [Decidable c] (h : ∀ d, (f d).besides ps = d.besides ps) :
    Frames ps s (.next (if c then { s with dev := f s.dev } else s)) := by
  split
  · exact .next (s.besides_dev (h s.dev))
  · exact .next rfl

theorem State.onRun_frames {s : State} {f : Dev → Dev} (h : ∀ d, (f d).besides ps = d.besides ps) : Frames ps s (s.onRun f) := .guarded _ h

theorem State.onLive_frames {s : State} {f : Dev → Dev} (h : ∀ d, (f d).besides ps = d.besides ps) : Frames ps s (s.onLive f) := .guarded _ h

theorem State.onIsland_frames {s : State} {f : Dev → Dev} (h : ∀ d, (f d).besides ps = d.besides ps) : Frames ps s (s.onIsland f) := .guarded _ h

theorem State.onLinks_frames {s : State} {f : Dev → Dev} (h : ∀ d, (f d).besides ps = d.besides ps) : Frames ps s (s.onLinks f) := .guarded _ h

theorem State.ifRunning_frames {s : State} {f : State → State} (h : (f s).besides ps = s.besides ps) : Frames ps s (s.ifRunning f) := by
  unfold State.ifRunning
  split
  · exact .next h
  · exact .next rfl

theorem State.spdm_frames {via : SpdmPath} {f : Dev → Dev} {s : State} (hps : [.output] ⊆ ps) (h : ∀ d, (f d).besides ps = d.besides ps) :
    Frames ps s (s.spdm via f) :=
  State.onDev_frames fun d => by simp only [Dev.besides_ite, ↓Dev.emit_besides, hps, h, ite_self]

theorem State.onNext_frames {s : State} {p t op : Nat} {f : Microword → Thread → Dev → Dev}
    (hps : [.start, .positions, .power, .links, .functions, .channels, .routes, .rings, .items, .ports, .tables, .sets, .retained,
        .registers, .output] ⊆ ps)
    (h : ∀ w th d, (f w th d).besides ps = d.besides ps) : Frames ps s (s.onNext p t op f) := by
  refine State.onRun_frames fun d => ?_
  simp only [List.cons_subset, List.nil_subset, and_true] at hps
  simp only [↓Dev.nextOp_besides, ↓Dev.fetchMicroword_besides, h, List.cons_subset, List.nil_subset, and_true, implies_true, hps]

theorem State.onData_frames {s : State} {p t cls fn : Nat} {f : Microword → Thread → Dev → Dev}
    (hps : [.start, .positions, .power, .links, .functions, .channels, .routes, .rings, .items, .ports, .tables, .sets, .retained,
        .registers, .output] ⊆ ps)
    (h : ∀ w th d, (f w th d).besides ps = d.besides ps) : Frames ps s (s.onData p t cls fn f) := by
  refine State.onRun_frames fun d => ?_
  simp only [List.cons_subset, List.nil_subset, and_true] at hps
  simp only [↓Dev.dataOp_besides, ↓Dev.fetchMicroword_besides, h, List.cons_subset, List.nil_subset, and_true, implies_true, hps]

theorem State.setup_frames {s : State} {fn kind words : Nat} {act : Nat → List Nat → Dev → Dev}
    (hps : [.power, .links, .functions, .work, .channels, .routes, .rings, .items, .shares, .ports, .contexts, .sets, .storage, .stream,
        .retained, .registers, .output] ⊆ ps)
    (h : ∀ tag w d, (act tag w d).besides ps = d.besides ps) : Frames ps s (s.setup fn kind words act) := by
  refine State.onRun_frames fun d => ?_
  simp only [List.cons_subset, List.nil_subset, and_true] at hps
  simp only [↓Dev.takeKind_besides, ↓Dev.goOnJobs_besides, h, List.cons_subset, List.nil_subset, and_true, implies_true, hps]

theorem execMbxSend_frames (mid channel len : Nat) (s : State) (hps : [.power, .links, .functions, .channels, .routes, .rings, .items,
    .ports, .sets, .stream, .retained, .registers, .output] ⊆ ps) :
    Frames ps s (execMbxSend mid channel len s) := by
  exact State.onRun_frames fun d => Dev.mbxSend_besides mid channel len d hps

theorem execMbxRxLatch_frames (mid channel : Nat) (s : State) (hps : [.channels, .routes, .retained, .registers, .output] ⊆ ps) :
    Frames ps s (execMbxRxLatch mid channel s) := by
  exact State.onRun_frames fun d => Dev.mbxLatch_besides mid channel d hps

theorem execMbxRxAck_frames (mid channel code : Nat) (s : State) (hps : [.power, .links, .functions, .channels, .routes, .rings, .items,
    .ports, .sets, .stream, .retained, .registers, .output] ⊆ ps) :
    Frames ps s (execMbxRxAck mid channel code s) := by
  exact State.onRun_frames fun d => Dev.mbxAck_besides mid channel code d hps

theorem execDoorbellProducerWrite_frames (fn page slot producer : Nat) (s : State) (hps : [.start, .power, .links, .functions, .channels,
    .routes, .rings, .items, .shares, .ports, .sets, .stream, .retained, .registers, .output] ⊆ ps) :
    Frames ps s (execDoorbellProducerWrite fn page slot producer s) := by
  exact State.onDev_frames fun d => Dev.doorbellArrives_besides fn page slot 0 producer d hps

theorem execDoorbellCqHeadWrite_frames (fn page slot cqHead : Nat) (arm : Bool) (s : State) (hps : [.start, .power, .links, .functions,
    .channels, .routes, .rings, .items, .shares, .ports, .sets, .stream, .retained, .registers, .output] ⊆ ps) :
    Frames ps s (execDoorbellCqHeadWrite fn page slot cqHead arm s) := by
  exact State.onDev_frames fun d => Dev.doorbellArrives_besides fn page slot 1 (cqHead % 65536 + 65536 * arm.toNat) d hps

theorem execIrqTimeExpiry_frames (ring : Nat) (s : State) (hps : [.links, .functions, .rings, .output] ⊆ ps) :
    Frames ps s (execIrqTimeExpiry ring s) := by
  simp only [List.cons_subset, List.nil_subset, and_true] at hps
  refine State.onRun_frames fun d => ?_
  split <;> simp only [↓Dev.checkIrq_besides, ↓Dev.onRing_besides, ↓Dev.besides_ite, ite_self, List.cons_subset, List.nil_subset, and_true, hps]

theorem execQmgCtxSnap_frames (mid ring : Nat) (s : State) (hps : [.rings, .retained, .registers] ⊆ ps) :
    Frames ps s (execQmgCtxSnap mid ring s) := by
  simp only [List.cons_subset, List.nil_subset, and_true] at hps
  refine State.onRun_frames fun d => ?_
  simp only [↓Dev.ctxSnapStart_besides, ↓Dev.wr_besides, List.cons_subset, List.nil_subset, and_true, hps]

theorem execQmgCtxSnapDone_frames (s : State) (hps : [.rings, .retained, .registers] ⊆ ps) :
    Frames ps s (execQmgCtxSnapDone s) := by
  exact State.onRun_frames fun d => Dev.ctxSnapEnd_besides d hps

theorem execQmgErrFifoRead_frames (mid : Nat) (s : State) (hps : [.rings, .output] ⊆ ps) :
    Frames ps s (execQmgErrFifoRead mid s) := by
  simp only [List.cons_subset, List.nil_subset, and_true] at hps
  refine State.onRun_frames fun d => ?_
  simp only [↓Dev.emit_besides, ↓Dev.popRingError_besides, List.cons_subset, List.nil_subset, and_true, hps]

theorem execMtbRead_frames (mid port : Nat) (cmd : MtbCmd) (s : State) (hps : [.routes, .tables, .retained, .registers, .output] ⊆ ps) :
    Frames ps s (execMtbRead mid port cmd s) := by
  simp only [List.cons_subset, List.nil_subset, and_true] at hps
  refine State.onRun_frames fun d => ?_
  simp only [↓Dev.runPort_onTable_besides, Dev.mtbRead_snd, List.cons_subset, List.nil_subset, and_true, implies_true, hps]

theorem execMtbWrite_frames (mid port : Nat) (cmd : MtbCmd) (s : State) (hps : [.routes, .tables, .retained, .registers, .output] ⊆ ps) :
    Frames ps s (execMtbWrite mid port cmd s) := by
  simp only [List.cons_subset, List.nil_subset, and_true] at hps
  refine State.onRun_frames fun d => ?_
  simp only [↓Dev.runPort_onTable_besides, ↓Dev.startPut_besides, List.cons_subset, List.nil_subset, and_true, implies_true, hps]

theorem execMtbInsert_frames (mid port : Nat) (cmd : MtbCmd) (s : State) (hps : [.routes, .tables, .retained, .registers, .output] ⊆ ps) :
    Frames ps s (execMtbInsert mid port cmd s) := by
  simp only [List.cons_subset, List.nil_subset, and_true] at hps
  refine State.onRun_frames fun d => ?_
  simp only [↓Dev.runPort_onTable_besides, ↓Dev.startPut_besides, List.cons_subset, List.nil_subset, and_true, implies_true, hps]

theorem execMtbDelete_frames (mid port : Nat) (cmd : MtbCmd) (s : State) (hps : [.routes, .tables, .retained, .registers, .output] ⊆ ps) :
    Frames ps s (execMtbDelete mid port cmd s) := by
  simp only [List.cons_subset, List.nil_subset, and_true] at hps
  refine State.onRun_frames fun d => ?_
  simp only [↓Dev.runPort_onTable_besides, ↓Dev.startPut_besides, List.cons_subset, List.nil_subset, and_true, implies_true, hps]

theorem execMtbSearch_frames (mid port : Nat) (cmd : MtbCmd) (s : State) (hps : [.routes, .tables, .retained, .registers, .output] ⊆ ps) :
    Frames ps s (execMtbSearch mid port cmd s) := by
  simp only [List.cons_subset, List.nil_subset, and_true] at hps
  refine State.onRun_frames fun d => ?_
  simp only [↓Dev.runPort_onTable_besides, Dev.mtbSearch_snd, List.cons_subset, List.nil_subset, and_true, implies_true, hps]

theorem execMtbAgeQuery_frames (mid port : Nat) (cmd : MtbCmd) (s : State) (hps : [.routes, .tables, .retained, .registers, .output] ⊆ ps) :
    Frames ps s (execMtbAgeQuery mid port cmd s) := by
  simp only [List.cons_subset, List.nil_subset, and_true] at hps
  refine State.onRun_frames fun d => ?_
  simp only [↓Dev.runPort_onTable_besides, Dev.mtbSearch_snd, List.cons_subset, List.nil_subset, and_true, implies_true, hps]

theorem execMtbStage_frames (mid port : Nat) (cmd : MtbCmd) (s : State) (hps : [.routes, .tables, .retained, .registers, .output] ⊆ ps) :
    Frames ps s (execMtbStage mid port cmd s) := by
  simp only [List.cons_subset, List.nil_subset, and_true] at hps
  refine State.onRun_frames fun d => ?_
  simp only [↓Dev.mtbStageOp_besides, ↓Dev.runPort_besides, List.cons_subset, List.nil_subset, and_true, implies_true, hps]

theorem execMtbDirectWrite_frames (mid port : Nat) (cmd : MtbCmd) (s : State) (hps : [.routes, .tables, .retained, .registers, .output] ⊆ ps) :
    Frames ps s (execMtbDirectWrite mid port cmd s) := by
  simp only [List.cons_subset, List.nil_subset, and_true] at hps
  refine State.onRun_frames fun d => ?_
  simp only [↓Dev.runPort_onTable_besides, ↓Dev.mtbDirectPut_besides, List.cons_subset, List.nil_subset, and_true, implies_true, hps]

theorem execMtbDirectRead_frames (mid port : Nat) (cmd : MtbCmd) (s : State) (hps : [.routes, .tables, .retained, .registers, .output] ⊆ ps) :
    Frames ps s (execMtbDirectRead mid port cmd s) := by
  simp only [List.cons_subset, List.nil_subset, and_true] at hps
  refine State.onRun_frames fun d => ?_
  simp only [↓Dev.runPort_onTable_besides, ↓Dev.mtbDirectGet_besides, List.cons_subset, List.nil_subset, and_true, implies_true, hps]

theorem execPrefixAdd_frames (mid port : Nat) (cmd : MtbCmd) (s : State) (hps : [.routes, .tables, .retained, .registers, .output] ⊆ ps) :
    Frames ps s (execPrefixAdd mid port cmd s) := by
  simp only [List.cons_subset, List.nil_subset, and_true] at hps
  refine State.onRun_frames fun d => ?_
  simp only [↓Dev.prefixAdd_besides, ↓Dev.runPort_besides, List.cons_subset, List.nil_subset, and_true, implies_true, hps]

theorem execPrefixDelete_frames (mid port : Nat) (cmd : MtbCmd) (s : State) (hps : [.routes, .tables, .retained, .registers, .output] ⊆ ps) :
    Frames ps s (execPrefixDelete mid port cmd s) := by
  simp only [List.cons_subset, List.nil_subset, and_true] at hps
  refine State.onRun_frames fun d => ?_
  simp only [↓Dev.prefixDelete_besides, ↓Dev.runPort_besides, List.cons_subset, List.nil_subset, and_true, implies_true, hps]

theorem execPrefixSearch_frames (mid port : Nat) (cmd : MtbCmd) (s : State) (hps : [.routes, .tables, .retained, .registers, .output] ⊆ ps) :
    Frames ps s (execPrefixSearch mid port cmd s) := by
  simp only [List.cons_subset, List.nil_subset, and_true] at hps
  refine State.onRun_frames fun d => ?_
  simp only [Dev.prefixSearch_snd, ↓Dev.runPort_besides, List.cons_subset, List.nil_subset, and_true, implies_true, hps]

theorem execTernaryWrite_frames (mid port : Nat) (cmd : MtbCmd) (s : State) (hps : [.routes, .tables, .retained, .registers, .output] ⊆ ps) :
    Frames ps s (execTernaryWrite mid port cmd s) := by
  simp only [List.cons_subset, List.nil_subset, and_true] at hps
  refine State.onRun_frames fun d => ?_
  simp only [↓Dev.runPort_besides, ↓Dev.ternaryPut_besides, List.cons_subset, List.nil_subset, and_true, implies_true, hps]

theorem execTernaryRead_frames (mid port : Nat) (cmd : MtbCmd) (s : State) (hps : [.routes, .tables, .retained, .registers, .output] ⊆ ps) :
    Frames ps s (execTernaryRead mid port cmd s) := by
  simp only [List.cons_subset, List.nil_subset, and_true] at hps
  refine State.onRun_frames fun d => ?_
  simp only [↓Dev.runPort_besides, ↓Dev.ternaryGet_besides, List.cons_subset, List.nil_subset, and_true, implies_true, hps]

theorem execMtbCommandDone_frames (port : Nat) (s : State) (hps : [.routes, .tables, .retained, .registers, .output] ⊆ ps) :
    Frames ps s (execMtbCommandDone port s) := by
  exact State.onRun_frames fun d => Dev.portDone_besides port d hps

theorem execLearnOfferProcess_frames (figure : Nat) (s : State) (hps : [.links, .functions, .routes, .rings, .tables, .retained,
    .registers, .output] ⊆ ps) :
    Frames ps s (execLearnOfferProcess figure s) := by
  simp only [List.cons_subset, List.nil_subset, and_true] at hps
  refine State.onRun_frames fun d => ?_
  split <;> simp only [↓Dev.learnNext_besides, ↓Dev.onMtb_besides, List.cons_subset, List.nil_subset, and_true, hps]

theorem execAgeScanVisit_frames (table bucket slot : Nat) (s : State) (hps : [.links, .functions, .routes, .rings, .tables, .retained,
    .registers, .output] ⊆ ps) :
    Frames ps s (execAgeScanVisit table bucket slot s) := by
  exact State.onRun_frames fun d => Dev.ageVisit_besides table (4 * bucket + slot % 4) d hps

theorem execRehashStart_frames (table : Nat) (s : State) (hps : [.retained, .registers] ⊆ ps) :
    Frames ps s (execRehashStart table s) := by
  exact State.onRun_frames fun d => Dev.rehashStart_besides table d hps

theorem execRehashResume_frames (table : Nat) (s : State) (hps : [.retained, .registers] ⊆ ps) :
    Frames ps s (execRehashResume table s) := by
  exact State.onRun_frames fun d => Dev.rehashResume_besides table d hps

theorem execRehashWalkBucket_frames (table : Nat) (s : State) (hps : [.routes, .tables, .retained, .registers, .output] ⊆ ps) :
    Frames ps s (execRehashWalkBucket table s) := by
  exact State.onRun_frames fun d => Dev.rehashWalk_besides table d hps

theorem execCompareStart_frames (table : Nat) (s : State) (hps : [.links, .routes, .tables, .retained, .registers, .output] ⊆ ps) :
    Frames ps s (execCompareStart table s) := by
  simp only [List.cons_subset, List.nil_subset, and_true] at hps
  refine State.onRun_frames fun d => ?_
  simp only [↓Dev.compareStart_besides, ↓Dev.wr_besides, List.cons_subset, List.nil_subset, and_true, hps]

theorem execCompareRegion_frames (table : Nat) (data : List Byte) (s : State) (hps : [.links, .routes, .tables, .retained, .registers,
    .output] ⊆ ps) :
    Frames ps s (execCompareRegion table data s) := by
  exact State.onRun_frames fun d => Dev.compareRegion_besides table data d hps

theorem execCompareRecheck_frames (table : Nat) (data : List Byte) (s : State) (hps : [.routes, .tables, .retained, .registers, .output] ⊆ ps) :
    Frames ps s (execCompareRecheck table data s) := by
  exact State.onRun_frames fun d => Dev.compareRecheck_besides table data d hps

theorem execCompareIntervalExpiry_frames (table : Nat) (s : State) (hps : [.links, .routes, .tables, .retained, .registers, .output] ⊆ ps) :
    Frames ps s (execCompareIntervalExpiry table s) := by
  simp only [List.cons_subset, List.nil_subset, and_true] at hps
  refine State.onRun_frames fun d => ?_
  simp only [↓Dev.compareStart_besides, ↓Dev.besides_ite, ite_self, List.cons_subset, List.nil_subset, and_true, hps]

theorem execCompareFifoRead_frames (mid : Nat) (s : State) (hps : [.tables, .output] ⊆ ps) :
    Frames ps s (execCompareFifoRead mid s) := by
  simp only [List.cons_subset, List.nil_subset, and_true] at hps
  refine State.onRun_frames fun d => ?_
  simp only [↓Dev.emit_besides, ↓Dev.popCompare_besides, List.cons_subset, List.nil_subset, and_true, hps]

theorem execCryCtxSnap_frames (mid index : Nat) (s : State) (hps : [.contexts, .retained, .registers] ⊆ ps) :
    Frames ps s (execCryCtxSnap mid index s) := by
  simp only [List.cons_subset, List.nil_subset, and_true] at hps
  refine State.onRun_frames fun d => ?_
  simp only [↓Dev.crySnapStart_besides, ↓Dev.wr_besides, List.cons_subset, List.nil_subset, and_true, hps]

theorem execCryCtxSnapDone_frames (s : State) (hps : [.contexts, .retained, .registers] ⊆ ps) :
    Frames ps s (execCryCtxSnapDone s) := by
  exact State.onRun_frames fun d => Dev.crySnapEnd_besides d hps

theorem execTempoTick_frames (ticks : Nat) (s : State) (hps : [.shares, .time, .retained, .registers] ⊆ ps) :
    Frames ps s (execTempoTick ticks s) := by
  exact State.onLive_frames fun d => Dev.tick_besides ticks d hps

theorem execReferenceLost_frames (s : State) (hps : [.routes, .time, .retained, .registers, .output] ⊆ ps) :
    Frames ps s (execReferenceLost s) := by
  simp only [List.cons_subset, List.nil_subset, and_true] at hps
  refine State.onLive_frames fun d => ?_
  simp only [↓Dev.cause_besides, ↓Dev.sourceChanged_besides, ↓Dev.wr_besides, ↓Dev.besides_ite, ite_self, List.cons_subset,
      List.nil_subset, and_true, hps]

theorem execReferenceRestored_frames (s : State) (hps : [.routes, .time, .retained, .registers, .output] ⊆ ps) :
    Frames ps s (execReferenceRestored s) := by
  simp only [List.cons_subset, List.nil_subset, and_true] at hps
  refine State.onLive_frames fun d => ?_
  simp only [↓Dev.cause_besides, ↓Dev.sourceChanged_besides, ↓Dev.wr_besides, ↓Dev.besides_ite, ite_self, List.cons_subset,
      List.nil_subset, and_true, hps]

theorem execUncertaintyUpdate_frames (s : State) (hps : [.routes, .time, .retained, .registers, .output] ⊆ ps) :
    Frames ps s (execUncertaintyUpdate s) := by
  simp only [List.cons_subset, List.nil_subset, and_true] at hps
  refine State.onLive_frames fun d => ?_
  simp only [↓Dev.updateUnc_besides, List.cons_subset, List.nil_subset, and_true, hps]

theorem execHoldoverEntry_frames (domain : Nat) (s : State) (hps : [.routes, .retained, .registers, .output] ⊆ ps) :
    Frames ps s (execHoldoverEntry domain s) := by
  simp only [List.cons_subset, List.nil_subset, and_true] at hps
  refine State.onLive_frames fun d => ?_
  simp only [↓Dev.cause_besides, ↓Dev.setHoldover_besides, ↓Dev.besides_ite, ite_self, List.cons_subset, List.nil_subset, and_true, hps]

theorem execIncrementCommit_frames (domain value : Nat) (s : State) (hps : [.time, .retained, .registers] ⊆ ps) :
    Frames ps s (execIncrementCommit domain value s) := by
  simp only [List.cons_subset, List.nil_subset, and_true] at hps
  refine State.onRun_frames fun d => ?_
  simp only [↓Dev.commitInc_besides, ↓Dev.besides_ite, ite_self, List.cons_subset, List.nil_subset, and_true, hps]

theorem execDomainSet_frames (domain : Nat) (s : State) (hps : [.routes, .time, .retained, .registers, .output] ⊆ ps) :
    Frames ps s (execDomainSet domain s) := by
  simp only [List.cons_subset, List.nil_subset, and_true] at hps
  refine State.onRun_frames fun d => ?_
  simp only [↓Dev.domainSet_besides, ↓Dev.besides_ite, ite_self, List.cons_subset, List.nil_subset, and_true, hps]

theorem execDomainAdd_frames (domain : Nat) (s : State) (hps : [.routes, .time, .retained, .registers, .output] ⊆ ps) :
    Frames ps s (execDomainAdd domain s) := by
  simp only [List.cons_subset, List.nil_subset, and_true] at hps
  refine State.onRun_frames fun d => ?_
  simp only [↓Dev.domainAdd_besides, ↓Dev.besides_ite, ite_self, List.cons_subset, List.nil_subset, and_true, hps]

theorem execDomainTimeRead_frames (mid domain : Nat) (s : State) (hps : [.time, .output] ⊆ ps) :
    Frames ps s (execDomainTimeRead mid domain s) := by
  simp only [List.cons_subset, List.nil_subset, and_true] at hps
  refine State.onRun_frames fun d => ?_
  simp only [↓Dev.emit_besides, ↓Dev.latchDomain_besides, ↓Dev.besides_ite, ite_self, List.cons_subset, List.nil_subset, and_true, hps]

theorem execTempoSnapshot_frames (s : State) (hps : [.retained, .registers] ⊆ ps) :
    Frames ps s (execTempoSnapshot s) := by
  exact State.onRun_frames fun d => Dev.snapshotTime_besides d hps

theorem execDomainAnchor_frames (domain value : Nat) (s : State) (hps : [.routes, .time, .retained, .registers, .output] ⊆ ps) :
    Frames ps s (execDomainAnchor domain value s) := by
  simp only [List.cons_subset, List.nil_subset, and_true] at hps
  refine State.onRun_frames fun d => ?_
  simp only [↓Dev.anchor_besides, ↓Dev.besides_ite, ite_self, List.cons_subset, List.nil_subset, and_true, hps]

theorem execSlotArm_frames (slot : Nat) (s : State) (hps : [.routes, .time, .retained, .registers, .output] ⊆ ps) :
    Frames ps s (execSlotArm slot s) := by
  simp only [List.cons_subset, List.nil_subset, and_true] at hps
  refine State.onRun_frames fun d => ?_
  simp only [↓Dev.arm_besides, ↓Dev.besides_ite, ite_self, List.cons_subset, List.nil_subset, and_true, hps]

theorem execSlotDisarm_frames (slot : Nat) (s : State) (hps : [.retained, .registers] ⊆ ps) :
    Frames ps s (execSlotDisarm slot s) := by
  exact State.onRun_frames fun d => Dev.disarm_besides slot d hps

theorem execSlotSwitch_frames (slot toSource : Nat) (s : State) (hps : [.routes, .time, .retained, .registers, .output] ⊆ ps) :
    Frames ps s (execSlotSwitch slot toSource s) := by
  simp only [List.cons_subset, List.nil_subset, and_true] at hps
  refine State.onRun_frames fun d => ?_
  simp only [↓Dev.switchSlot_besides, ↓Dev.besides_ite, ite_self, List.cons_subset, List.nil_subset, and_true, hps]

theorem execSlotPulse_frames (slot : Nat) (s : State) (hps : [.routes, .time, .retained, .registers, .output] ⊆ ps) :
    Frames ps s (execSlotPulse slot s) := by
  exact State.onLive_frames fun d => Dev.pulse_besides slot d hps

theorem execPulseWidthEnd_frames (slot : Nat) (s : State) (hps : [.time, .output] ⊆ ps) :
    Frames ps s (execPulseWidthEnd slot s) := by
  exact State.onLive_frames fun d => Dev.pulseEnd_besides slot d hps

theorem execSlewComplete_frames (slot : Nat) (s : State) (hps : [.routes, .retained, .registers, .output] ⊆ ps) :
    Frames ps s (execSlewComplete slot s) := by
  exact State.onLive_frames fun d => Dev.slewEnd_besides slot d hps

theorem execTimeIoEdge_frames (pin : Nat) (rising : Bool) (s : State) (hps : [.links, .functions, .routes, .rings, .time, .retained,
    .registers, .output] ⊆ ps) :
    Frames ps s (execTimeIoEdge pin rising s) := by
  simp only [List.cons_subset, List.nil_subset, and_true] at hps
  refine State.onLive_frames fun d => ?_
  simp only [↓Dev.edge_besides, ↓Dev.besides_ite, ite_self, List.cons_subset, List.nil_subset, and_true, hps]

theorem execCaptureIntervalEnd_frames (pin : Nat) (s : State) (hps : [.routes, .time, .retained, .registers, .output] ⊆ ps) :
    Frames ps s (execCaptureIntervalEnd pin s) := by
  exact State.onLive_frames fun d => Dev.intervalEnd_besides pin d hps

theorem execPinConfigWrite_frames (pin value : Nat) (s : State) (hps : [.routes, .time, .retained, .registers, .output] ⊆ ps) :
    Frames ps s (execPinConfigWrite pin value s) := by
  simp only [List.cons_subset, List.nil_subset, and_true] at hps
  refine State.onRun_frames fun d => ?_
  simp only [↓Dev.pinConfig_besides, ↓Dev.besides_ite, ite_self, List.cons_subset, List.nil_subset, and_true, hps]

theorem execPortUp_frames (port : Nat) (s : State) (hps : [.routes, .retained, .registers, .output] ⊆ ps) :
    Frames ps s (execPortUp port s) := by
  exact State.onLive_frames fun d => Dev.portUp_besides port d hps

theorem execPortDown_frames (x : PortLoss) (s : State) (hps : [.routes, .rings, .ports, .retained, .registers, .output] ⊆ ps) :
    Frames ps s (execPortDown x s) := by
  exact State.onLive_frames fun d => Dev.portDown_besides x.port x.cut d hps

theorem execLaneCalibrationDone_frames (lane value : Nat) (s : State) (hps : [.routes, .retained, .registers, .output] ⊆ ps) :
    Frames ps s (execLaneCalibrationDone lane value s) := by
  simp only [List.cons_subset, List.nil_subset, and_true] at hps
  refine State.onLive_frames fun d => ?_
  simp only [↓Dev.cause_besides, ↓Dev.wr_besides, ↓Dev.besides_ite, ite_self, List.cons_subset, List.nil_subset, and_true, hps]

theorem execLaneCalCheck_frames (lane drift : Nat) (s : State) (hps : [.routes, .retained, .registers, .output] ⊆ ps) :
    Frames ps s (execLaneCalCheck lane drift s) := by
  simp only [List.cons_subset, List.nil_subset, and_true] at hps
  refine State.onLive_frames fun d => ?_
  simp only [↓Dev.cause_besides, ↓Dev.wr_besides, ↓Dev.besides_ite, ite_self, List.cons_subset, List.nil_subset, and_true, hps]

theorem execFrameTransmit_frames (mac cls : Nat) (s : State) (hps : [.links, .functions, .routes, .rings, .ports, .retained, .registers,
    .output] ⊆ ps) :
    Frames ps s (execFrameTransmit mac cls s) := by
  exact State.onLive_frames fun d => Dev.transmit_besides mac cls d hps

theorem execLaunchTime_frames (mac : Nat) (s : State) (hps : [.links, .functions, .routes, .rings, .ports, .retained, .registers, .output] ⊆ ps) :
    Frames ps s (execLaunchTime mac s) := by
  exact State.onLive_frames fun d => Dev.launchFirst_besides mac d hps

theorem execPauseFrame_frames (mac quanta : Nat) (s : State) (hps : [.ports, .retained, .registers] ⊆ ps) :
    Frames ps s (execPauseFrame mac quanta s) := by
  exact State.onLive_frames fun d => Dev.rxPause_besides mac (quanta % 65536) d hps

theorem execPfcFrame_frames (mac classes : Nat) (quanta : List Nat) (s : State) (hps : [.ports, .retained, .registers] ⊆ ps) :
    Frames ps s (execPfcFrame mac classes quanta s) := by
  simp only [List.cons_subset, List.nil_subset, and_true] at hps
  refine State.onLive_frames fun d => ?_
  simp only [↓Dev.rxPfc_besides, List.cons_subset, List.nil_subset, and_true, hps]

theorem execPauseTimerExpiry_frames (mac cls : Nat) (s : State) (hps : [.retained, .registers] ⊆ ps) :
    Frames ps s (execPauseTimerExpiry mac cls s) := by
  simp only [List.cons_subset, List.nil_subset, and_true] at hps
  refine State.onLive_frames fun d => ?_
  simp only [↓Dev.setPaused_besides, ↓Dev.besides_each, List.cons_subset, List.nil_subset, and_true, implies_true, hps]

theorem execXoffRefresh_frames (mac cls : Nat) (s : State) (hps : [.ports, .retained, .registers, .output] ⊆ ps) :
    Frames ps s (execXoffRefresh mac cls s) := by
  simp only [List.cons_subset, List.nil_subset, and_true] at hps
  refine State.onLive_frames fun d => ?_
  simp only [↓Dev.sendControl_besides, ↓Dev.besides_ite, ite_self, List.cons_subset, List.nil_subset, and_true, hps]

theorem execStormWatchdogExpiry_frames (mac cls : Nat) (s : State) (hps : [.routes, .rings, .ports, .retained, .registers, .output] ⊆ ps) :
    Frames ps s (execStormWatchdogExpiry mac cls s) := by
  simp only [List.cons_subset, List.nil_subset, and_true] at hps
  refine State.onLive_frames fun d => ?_
  simp only [↓Dev.storm_besides, ↓Dev.besides_each, List.cons_subset, List.nil_subset, and_true, implies_true, hps]

theorem execStormEnd_frames (mac cls : Nat) (s : State) (hps : [.retained, .registers] ⊆ ps) :
    Frames ps s (execStormEnd mac cls s) := by
  simp only [List.cons_subset, List.nil_subset, and_true] at hps
  refine State.onLive_frames fun d => ?_
  simp only [↓Dev.calm_besides, ↓Dev.besides_each, List.cons_subset, List.nil_subset, and_true, implies_true, hps]

theorem execLpiIdleExpiry_frames (port : Nat) (s : State) (hps : [.ports, .retained, .registers, .output] ⊆ ps) :
    Frames ps s (execLpiIdleExpiry port s) := by
  exact State.onLive_frames fun d => Dev.enterLpi_besides port d hps

theorem execPeerLpiChange_frames (port : Nat) (lpi : Bool) (s : State) (hps : [.retained, .registers] ⊆ ps) :
    Frames ps s (execPeerLpiChange port lpi s) := by
  simp only [List.cons_subset, List.nil_subset, and_true] at hps
  refine State.onLive_frames fun d => ?_
  simp only [↓Dev.wr_besides, ↓Dev.besides_ite, ite_self, List.cons_subset, List.nil_subset, and_true, hps]

theorem execFlexeCalendarSwitch_frames (port : Nat) (s : State) (hps : [.routes, .retained, .registers, .output] ⊆ ps) :
    Frames ps s (execFlexeCalendarSwitch port s) := by
  exact State.onRun_frames fun d => Dev.flexeCommand_besides port d hps

theorem execFlexeSwitchDone_frames (port : Nat) (s : State) (hps : [.routes, .rings, .ports, .retained, .registers, .output] ⊆ ps) :
    Frames ps s (execFlexeSwitchDone port s) := by
  exact State.onLive_frames fun d => Dev.flexeSwitch_besides port d hps

theorem execFlexeSwitchTimeout_frames (port : Nat) (s : State) (hps : [.routes, .retained, .registers, .output] ⊆ ps) :
    Frames ps s (execFlexeSwitchTimeout port s) := by
  simp only [List.cons_subset, List.nil_subset, and_true] at hps
  refine State.onLive_frames fun d => ?_
  simp only [↓Dev.cause_besides, ↓Dev.wr_besides, ↓Dev.besides_ite, ite_self, List.cons_subset, List.nil_subset, and_true, hps]

theorem execFlexeOverheadLockLoss_frames (x : PortLoss) (s : State) (hps : [.routes, .rings, .ports, .retained, .registers, .output] ⊆ ps) :
    Frames ps s (execFlexeOverheadLockLoss x s) := by
  simp only [List.cons_subset, List.nil_subset, and_true] at hps
  refine State.onLive_frames fun d => ?_
  simp only [↓Dev.cause_besides, ↓Dev.portDown_besides, ↓Dev.besides_ite, ite_self, List.cons_subset, List.nil_subset, and_true, hps]

theorem execMacCounterRead_frames (mid mac counter : Nat) (s : State) (hps : [.ports, .retained, .registers, .output] ⊆ ps) :
    Frames ps s (execMacCounterRead mid mac counter s) := by
  simp only [List.cons_subset, List.nil_subset, and_true] at hps
  refine State.onRun_frames fun d => ?_
  simp only [↓Dev.emit_besides, ↓Dev.readMacCount_besides, List.cons_subset, List.nil_subset, and_true, hps]

theorem execPaceMeasure_frames (counts : List Nat) (s : State) (hps : [.power, .routes, .retained, .registers, .output] ⊆ ps) :
    Frames ps s (execPaceMeasure counts s) := by
  exact State.onIsland_frames fun d => Dev.measurePace_besides counts d hps

theorem execPaceLowPersist_frames (s : State) (hps : [.routes, .retained, .registers, .output] ⊆ ps) :
    Frames ps s (execPaceLowPersist s) := by
  simp only [List.cons_subset, List.nil_subset, and_true] at hps
  refine State.onIsland_frames fun d => ?_
  simp only [↓Dev.pwrEvent_besides, ↓Dev.wr_besides, ↓Dev.besides_ite, ite_self, List.cons_subset, List.nil_subset, and_true, hps]

theorem execGovernorTick_frames (s : State) (hps : [.power, .routes, .retained, .registers, .output] ⊆ ps) :
    Frames ps s (execGovernorTick s) := by
  exact State.onIsland_frames fun d => Dev.governorTick_besides d hps

theorem execBoostIntervalExpiry_frames (s : State) (hps : [.power, .retained, .registers, .output] ⊆ ps) :
    Frames ps s (execBoostIntervalExpiry s) := by
  exact State.onIsland_frames fun d => Dev.closeBoost_besides d hps

theorem execBoostBucketAge_frames (s : State) (hps : [.power, .routes, .retained, .registers, .output] ⊆ ps) :
    Frames ps s (execBoostBucketAge s) := by
  simp only [List.cons_subset, List.nil_subset, and_true] at hps
  refine State.onDev_frames fun d => ?_
  simp only [↓Dev.onPower_besides, ↓Dev.showBoost_besides, List.cons_subset, List.nil_subset, and_true, hps]

theorem execAvsTransactionDone_frames (result : AvsResult) (s : State) (hps : [.power, .routes, .retained, .registers, .output] ⊆ ps) :
    Frames ps s (execAvsTransactionDone result s) := by
  exact State.onIsland_frames fun d => Dev.avsDone_besides result d hps

theorem execAvsRetryExpiry_frames (s : State) (hps : [.output] ⊆ ps) :
    Frames ps s (execAvsRetryExpiry s) := by
  simp only [List.cons_subset, List.nil_subset, and_true] at hps
  refine State.onIsland_frames fun d => ?_
  simp only [↓Dev.emit_besides, ↓Dev.besides_ite, ite_self, List.cons_subset, List.nil_subset, and_true, hps]

theorem execPowerPublish_frames (currentMa otherDw : Nat) (s : State) (hps : [.power, .routes, .retained, .registers, .output] ⊆ ps) :
    Frames ps s (execPowerPublish currentMa otherDw s) := by
  exact State.onIsland_frames fun d => Dev.publishPower_besides currentMa otherDw d hps

theorem execTjSample_frames (sensors : List Int) (s : State) (hps : [.power, .routes, .retained, .registers, .output] ⊆ ps) :
    Frames ps s (execTjSample sensors s) := by
  simp only [List.cons_subset, List.nil_subset, and_true] at hps
  unfold execTjSample
  split
  · exact State.onDev_frames fun d => by simp only [↓Dev.onPower_besides, List.cons_subset, List.nil_subset, and_true, hps]
  · exact State.onIsland_frames fun d => by simp only [↓Dev.sampleTj_besides, List.cons_subset, List.nil_subset, and_true, hps]

theorem execDomainOffCmd_frames (domain : Nat) (s : State) (hps : [.routes, .retained, .registers, .output] ⊆ ps) :
    Frames ps s (execDomainOffCmd domain s) := by
  exact State.onRun_frames fun d => Dev.domainOff_besides domain d hps

theorem execDomainWakeCmd_frames (domain : Nat) (s : State) (hps : [.power, .routes, .retained, .registers, .output] ⊆ ps) :
    Frames ps s (execDomainWakeCmd domain s) := by
  exact State.onRun_frames fun d => Dev.domainWake_besides domain d hps

theorem execDomainReady_frames (domain : Nat) (s : State) (hps : [.power, .routes, .rings, .items, .ports, .sets, .retained, .registers,
    .output] ⊆ ps) :
    Frames ps s (execDomainReady domain s) := by
  exact State.onRun_frames fun d => Dev.domainReady_besides domain d hps

theorem execFrameReceived_frames (mac : Nat) (frame : Frame) (fcsOk : Bool) (s : State) (hps : [.routes, .rings, .items, .shares, .ports,
    .tables, .contexts, .retained, .registers, .output] ⊆ ps) :
    Frames ps s (execFrameReceived mac frame fcsOk s) := by
  exact State.onLive_frames fun d => Dev.receiveFrame_besides mac frame fcsOk d hps

theorem execLosslessFifoAdmit_frames (mac cls : Nat) (s : State) (hps : [.routes, .rings, .items, .shares, .ports, .tables, .retained,
    .registers, .output] ⊆ ps) :
    Frames ps s (execLosslessFifoAdmit mac cls s) := by
  exact State.onRun_frames fun d => Dev.admitWaiting_besides mac cls d hps

theorem execTxDescriptorPlain_frames (ring : Nat) (s : State) (hps : [.rings, .items] ⊆ ps) :
    Frames ps s (execTxDescriptorPlain ring s) := by
  exact State.onRun_frames fun d => Dev.takeDescriptor_besides ring 0 d hps

theorem execTxDescriptorOffload_frames (ring : Nat) (s : State) (hps : [.rings, .items] ⊆ ps) :
    Frames ps s (execTxDescriptorOffload ring s) := by
  exact State.onRun_frames fun d => Dev.takeDescriptor_besides ring 1 d hps

theorem execTxDescriptorNoop_frames (ring : Nat) (s : State) (hps : [.rings, .items] ⊆ ps) :
    Frames ps s (execTxDescriptorNoop ring s) := by
  exact State.onRun_frames fun d => Dev.takeDescriptor_besides ring 2 d hps

theorem execItemDispatch_frames (item : Nat) (s : State) (hps : [.items, .sets] ⊆ ps) :
    Frames ps s (execItemDispatch item s) := by
  exact State.onRun_frames fun d => Dev.dispatchItem_besides item d hps

theorem execThreadStartPass_frames (position thread : Nat) (s : State) (hps : [.items, .sets] ⊆ ps) :
    Frames ps s (execThreadStartPass position thread s) := by
  exact State.onRun_frames fun d => Dev.startPass_besides position thread d hps

theorem execChannelWordDelivery_frames (position channel : Nat) (s : State) (hps : [.routes, .rings, .items, .ports, .sets, .retained,
    .registers, .output] ⊆ ps) :
    Frames ps s (execChannelWordDelivery position channel s) := by
  exact State.onRun_frames fun d => Dev.deliver_besides position channel d hps

theorem execAssistAnswer_frames (position thread kind : Nat) (s : State) (hps : [.routes, .rings, .items, .ports, .sets, .retained,
    .registers, .output] ⊆ ps) :
    Frames ps s (execAssistAnswer position thread kind s) := by
  simp only [List.cons_subset, List.nil_subset, and_true] at hps
  refine State.onRun_frames fun d => ?_
  split <;> simp only [↓Dev.onThread_besides, ↓Dev.settle_besides, List.cons_subset, List.nil_subset, and_true, hps]

theorem execWaitLimitExpiry_frames (position thread : Nat) (s : State) (hps : [.routes, .rings, .items, .ports, .sets, .retained,
    .registers, .output] ⊆ ps) :
    Frames ps s (execWaitLimitExpiry position thread s) := by
  simp only [List.cons_subset, List.nil_subset, and_true] at hps
  refine State.onRun_frames fun d => ?_
  dsimp only
  repeat' split
  all_goals simp only [↓Dev.bump_besides, ↓Dev.endWait_besides, ↓Dev.settle_besides, List.cons_subset, List.nil_subset, and_true, hps]

theorem execStandstill_frames (position : Nat) (s : State) (hps : [.routes, .rings, .items, .ports, .sets, .retained, .registers, .output] ⊆ ps) :
    Frames ps s (execStandstill position s) := by
  simp only [List.cons_subset, List.nil_subset, and_true] at hps
  refine State.onRun_frames fun d => ?_
  dsimp only
  repeat' split
  all_goals simp only [↓Dev.bump_besides, ↓Dev.cause_besides, ↓Dev.endWait_besides, ↓Dev.settle_besides, ↓Dev.wr_besides, List.cons_subset,
      List.nil_subset, and_true, hps]

theorem execDbgStop_frames (position thread : Nat) (s : State) (hps : [.routes, .rings, .items, .ports, .sets, .retained, .registers, .output] ⊆ ps) :
    Frames ps s (execDbgStop position thread s) := by
  exact State.onRun_frames fun d => Dev.dbgStop_besides position thread d hps

theorem execDbgResume_frames (position thread : Nat) (s : State) (hps : [.routes, .rings, .items, .ports, .sets, .retained, .registers,
    .output] ⊆ ps) :
    Frames ps s (execDbgResume position thread s) := by
  exact State.onRun_frames fun d => Dev.dbgResume_besides position thread d hps

theorem execDbgStep_frames (position thread : Nat) (s : State) (hps : [.routes, .rings, .items, .ports, .sets, .retained, .registers, .output] ⊆ ps) :
    Frames ps s (execDbgStep position thread s) := by
  exact State.onRun_frames fun d => Dev.dbgStepOp_besides position thread d hps

theorem execDbgKill_frames (position thread : Nat) (s : State) (hps : [.routes, .rings, .items, .ports, .sets, .retained, .registers, .output] ⊆ ps) :
    Frames ps s (execDbgKill position thread s) := by
  exact State.onRun_frames fun d => Dev.dbgKillOp_besides position thread d hps

theorem execCsRead_frames (position : Nat) (s : State) (hps : [.retained, .registers] ⊆ ps) :
    Frames ps s (execCsRead position s) := by
  exact State.onRun_frames fun d => Dev.csRead_besides position d hps

theorem execCsWrite_frames (position : Nat) (s : State) (hps : [.routes, .sets, .retained, .registers, .output] ⊆ ps) :
    Frames ps s (execCsWrite position s) := by
  exact State.onRun_frames fun d => Dev.csWrite_besides position d hps

theorem execOwedCompletionWrite_frames (ring : Nat) (s : State) (hps : [.links, .functions, .rings, .retained, .registers, .output] ⊆ ps) :
    Frames ps s (execOwedCompletionWrite ring s) := by
  exact State.onRun_frames fun d => Dev.writeOwed_besides ring d hps

theorem execWaitingFrameDelivery_frames (ring : Nat) (s : State) (hps : [.power, .links, .functions, .routes, .rings, .items, .ports,
    .tables, .contexts, .retained, .registers, .output] ⊆ ps) :
    Frames ps s (execWaitingFrameDelivery ring s) := by
  exact State.onRun_frames fun d => Dev.deliverWaiting_besides ring d hps

theorem execSwitchedWaitExpiry_frames (item : Nat) (s : State) (hps : [.power, .links, .functions, .routes, .rings, .items, .tables,
    .retained, .registers, .output] ⊆ ps) :
    Frames ps s (execSwitchedWaitExpiry item s) := by
  simp only [List.cons_subset, List.nil_subset, and_true] at hps
  refine State.onRun_frames fun d => ?_
  split <;> simp only [↓Dev.switchTimeout_besides, ↓Dev.besides_ite, ite_self, List.cons_subset, List.nil_subset, and_true, hps]

theorem execLaunchGateOpen_frames (item : Nat) (s : State) (hps : [.power, .links, .functions, .routes, .rings, .items, .ports, .tables,
    .contexts, .retained, .registers, .output] ⊆ ps) :
    Frames ps s (execLaunchGateOpen item s) := by
  simp only [List.cons_subset, List.nil_subset, and_true] at hps
  refine State.onRun_frames fun d => ?_
  dsimp only
  repeat' split
  all_goals simp only [↓Dev.onItem_besides, ↓Dev.retireTx_besides, ↓Dev.squash_besides, List.cons_subset, List.nil_subset, and_true, hps]

theorem execSend_frames (ring : Nat) (s : State) (hps : [.links, .functions, .rings, .items, .storage, .retained, .registers, .output] ⊆ ps) :
    Frames ps s (execSend ring s) := by
  exact State.onRun_frames fun d => Dev.takeWork_besides ring 0 d hps

theorem execSendWithImmediate_frames (ring : Nat) (s : State) (hps : [.links, .functions, .rings, .items, .storage, .retained, .registers,
    .output] ⊆ ps) :
    Frames ps s (execSendWithImmediate ring s) := by
  exact State.onRun_frames fun d => Dev.takeWork_besides ring 1 d hps

theorem execRdmaWrite_frames (ring : Nat) (s : State) (hps : [.links, .functions, .rings, .items, .storage, .retained, .registers, .output] ⊆ ps) :
    Frames ps s (execRdmaWrite ring s) := by
  exact State.onRun_frames fun d => Dev.takeWork_besides ring 2 d hps

theorem execRdmaWriteWithImmediate_frames (ring : Nat) (s : State) (hps : [.links, .functions, .rings, .items, .storage, .retained,
    .registers, .output] ⊆ ps) :
    Frames ps s (execRdmaWriteWithImmediate ring s) := by
  exact State.onRun_frames fun d => Dev.takeWork_besides ring 3 d hps

theorem execRdmaRead_frames (ring : Nat) (s : State) (hps : [.links, .functions, .rings, .items, .storage, .retained, .registers, .output] ⊆ ps) :
    Frames ps s (execRdmaRead ring s) := by
  exact State.onRun_frames fun d => Dev.takeWork_besides ring 4 d hps

theorem execRecv_frames (ring : Nat) (s : State) (hps : [.links, .functions, .rings, .items, .storage, .retained, .registers, .output] ⊆ ps) :
    Frames ps s (execRecv ring s) := by
  exact State.onRun_frames fun d => Dev.takeWork_besides ring 5 d hps

theorem execCnpRateStep_frames (qpn : Nat) (s : State) (hps : [.storage] ⊆ ps) :
    Frames ps s (execCnpRateStep qpn s) := by
  simp only [List.cons_subset, List.nil_subset, and_true] at hps
  refine State.onRun_frames fun d => ?_
  simp only [↓Dev.onQp_besides, ↓Dev.besides_ite, ite_self, List.cons_subset, List.nil_subset, and_true, hps]

theorem execNvmeSqTailDoorbell_frames (fn sq tail : Nat) (s : State) (hps : [.links, .functions, .routes, .shares, .storage, .retained,
    .registers, .output] ⊆ ps) :
    Frames ps s (execNvmeSqTailDoorbell fn sq tail s) := by
  exact State.onRun_frames fun d => Dev.sqDoorbell_besides fn sq (tail % 65536) d hps

theorem execNvmeCcEnClear_frames (fn : Nat) (s : State) (hps : [.power, .links, .functions, .channels, .routes, .rings, .items, .ports,
    .contexts, .sets, .storage, .stream, .retained, .registers, .output] ⊆ ps) :
    Frames ps s (execNvmeCcEnClear fn s) := by
  exact State.onRun_frames fun d => Dev.nvmeDisable_besides fn d hps

theorem execNvmeCcEnSet_frames (fn : Nat) (s : State) (hps : [.shares, .storage, .retained, .registers] ⊆ ps) :
    Frames ps s (execNvmeCcEnSet fn s) := by
  exact State.onRun_frames fun d => Dev.nvmeEnable_besides fn d hps

theorem execNvmeIdentify_frames (fn : Nat) (s : State) (hps : [.links, .functions, .storage, .retained, .registers, .output] ⊆ ps) :
    Frames ps s (execNvmeIdentify fn s) := by
  simp only [List.cons_subset, List.nil_subset, and_true] at hps
  refine State.onRun_frames fun d => ?_
  simp only [↓Dev.adminCommand_besides, ↓Dev.nvmeIdentify_besides, List.cons_subset, List.nil_subset, and_true, implies_true, hps]

theorem execNvmeCreateIoSq_frames (fn : Nat) (s : State) (hps : [.links, .functions, .shares, .storage, .retained, .registers, .output] ⊆ ps) :
    Frames ps s (execNvmeCreateIoSq fn s) := by
  simp only [List.cons_subset, List.nil_subset, and_true] at hps
  refine State.onRun_frames fun d => ?_
  simp only [↓Dev.adminCommand_besides, ↓Dev.nvmeCreateSq_besides, List.cons_subset, List.nil_subset, and_true, implies_true, hps]

theorem execNvmeCreateIoCq_frames (fn : Nat) (s : State) (hps : [.links, .functions, .storage, .retained, .registers, .output] ⊆ ps) :
    Frames ps s (execNvmeCreateIoCq fn s) := by
  simp only [List.cons_subset, List.nil_subset, and_true] at hps
  refine State.onRun_frames fun d => ?_
  simp only [↓Dev.adminCommand_besides, ↓Dev.nvmeCreateCq_besides, List.cons_subset, List.nil_subset, and_true, implies_true, hps]

theorem execNvmeDeleteIoSq_frames (fn : Nat) (s : State) (hps : [.links, .functions, .storage, .retained, .registers, .output] ⊆ ps) :
    Frames ps s (execNvmeDeleteIoSq fn s) := by
  simp only [List.cons_subset, List.nil_subset, and_true] at hps
  refine State.onRun_frames fun d => ?_
  dsimp only
  repeat' split
  all_goals simp only [↓Dev.adminCommand_besides, ↓Dev.nvmeDeleteSq_besides, List.cons_subset, List.nil_subset, and_true, implies_true, hps]

theorem execNvmeDeleteIoCq_frames (fn : Nat) (s : State) (hps : [.links, .functions, .storage, .retained, .registers, .output] ⊆ ps) :
    Frames ps s (execNvmeDeleteIoCq fn s) := by
  simp only [List.cons_subset, List.nil_subset, and_true] at hps
  refine State.onRun_frames fun d => ?_
  simp only [↓Dev.adminCommand_besides, ↓Dev.nvmeDeleteCq_besides, List.cons_subset, List.nil_subset, and_true, implies_true, hps]

theorem execNvmeGetFeatures_frames (fn : Nat) (s : State) (hps : [.links, .functions, .storage, .retained, .registers, .output] ⊆ ps) :
    Frames ps s (execNvmeGetFeatures fn s) := by
  simp only [List.cons_subset, List.nil_subset, and_true] at hps
  refine State.onRun_frames fun d => ?_
  simp only [↓Dev.adminCommand_besides, ↓Dev.nvmeGetFeature_besides, List.cons_subset, List.nil_subset, and_true, implies_true, hps]

theorem execNvmeSetFeatures_frames (fn : Nat) (s : State) (hps : [.links, .functions, .storage, .retained, .registers, .output] ⊆ ps) :
    Frames ps s (execNvmeSetFeatures fn s) := by
  simp only [List.cons_subset, List.nil_subset, and_true] at hps
  refine State.onRun_frames fun d => ?_
  simp only [↓Dev.adminCommand_besides, ↓Dev.nvmeSetFeature_besides, List.cons_subset, List.nil_subset, and_true, implies_true, hps]

theorem execNvmeGetLogPage_frames (fn : Nat) (s : State) (hps : [.links, .functions, .storage, .retained, .registers, .output] ⊆ ps) :
    Frames ps s (execNvmeGetLogPage fn s) := by
  simp only [List.cons_subset, List.nil_subset, and_true] at hps
  refine State.onRun_frames fun d => ?_
  simp only [↓Dev.adminCommand_besides, ↓Dev.nvmeLogPage_besides, List.cons_subset, List.nil_subset, and_true, implies_true, hps]

theorem execNvmeAbort_frames (fn : Nat) (s : State) (hps : [.links, .functions, .storage, .retained, .registers, .output] ⊆ ps) :
    Frames ps s (execNvmeAbort fn s) := by
  simp only [List.cons_subset, List.nil_subset, and_true] at hps
  refine State.onRun_frames fun d => ?_
  simp only [↓Dev.adminCommand_besides, ↓Dev.nvmeAbort_besides, List.cons_subset, List.nil_subset, and_true, implies_true, hps]

theorem execNvmeAsyncEventRequest_frames (fn : Nat) (s : State) (hps : [.links, .functions, .storage, .retained, .registers, .output] ⊆ ps) :
    Frames ps s (execNvmeAsyncEventRequest fn s) := by
  simp only [List.cons_subset, List.nil_subset, and_true] at hps
  refine State.onRun_frames fun d => ?_
  simp only [↓Dev.adminCommand_besides, ↓Dev.nvmeAer_besides, List.cons_subset, List.nil_subset, and_true, implies_true, hps]

theorem execNvmeRead_frames (fn sq : Nat) (s : State) (hps : [.links, .functions, .items, .storage, .retained, .registers, .output] ⊆ ps) :
    Frames ps s (execNvmeRead fn sq s) := by
  exact State.onRun_frames fun d => Dev.ioCommand_besides fn sq 2 d hps

theorem execNvmeWrite_frames (fn sq : Nat) (s : State) (hps : [.links, .functions, .items, .storage, .retained, .registers, .output] ⊆ ps) :
    Frames ps s (execNvmeWrite fn sq s) := by
  exact State.onRun_frames fun d => Dev.ioCommand_besides fn sq 1 d hps

theorem execNvmeFlush_frames (fn sq : Nat) (s : State) (hps : [.links, .functions, .items, .storage, .retained, .registers, .output] ⊆ ps) :
    Frames ps s (execNvmeFlush fn sq s) := by
  exact State.onRun_frames fun d => Dev.ioCommand_besides fn sq 0 d hps

theorem execNvmeWriteZeroes_frames (fn sq : Nat) (s : State) (hps : [.links, .functions, .items, .storage, .retained, .registers, .output] ⊆ ps) :
    Frames ps s (execNvmeWriteZeroes fn sq s) := by
  exact State.onRun_frames fun d => Dev.ioCommand_besides fn sq 8 d hps

theorem execNvmeDatasetManagement_frames (fn sq : Nat) (s : State) (hps : [.links, .functions, .items, .storage, .retained, .registers,
    .output] ⊆ ps) :
    Frames ps s (execNvmeDatasetManagement fn sq s) := by
  exact State.onRun_frames fun d => Dev.ioCommand_besides fn sq 9 d hps

theorem execItemRetire_frames (item : Nat) (s : State) (hps : [.power, .links, .functions, .channels, .routes, .rings, .items, .ports,
    .tables, .contexts, .sets, .storage, .stream, .retained, .registers, .output] ⊆ ps) :
    Frames ps s (execItemRetire item s) := by
  exact State.onRun_frames fun d => Dev.retireItem_besides item d hps

theorem execRoceAckTimeout_frames (qpn : Nat) (s : State) (hps : [.links, .functions, .routes, .rings, .ports, .contexts, .storage,
    .retained, .registers, .output] ⊆ ps) :
    Frames ps s (execRoceAckTimeout qpn s) := by
  simp only [List.cons_subset, List.nil_subset, and_true] at hps
  refine State.onRun_frames fun d => ?_
  simp only [↓Dev.loseQpCmds_besides, ↓Dev.retryFrom_besides, ↓Dev.besides_ite, ite_self, List.cons_subset, List.nil_subset, and_true, hps]

theorem execNvmeTcpRtoExpiry_frames (conn : Nat) (s : State) (hps : [.links, .functions, .routes, .rings, .ports, .contexts, .storage,
    .retained, .registers, .output] ⊆ ps) :
    Frames ps s (execNvmeTcpRtoExpiry conn s) := by
  exact State.onRun_frames fun d => Dev.rtoExpiry_besides conn d hps

theorem execDmaStart_frames (mid channel : Nat) (s : State) (hps : [.links, .routes, .engines, .stream, .retained, .registers, .output] ⊆ ps) :
    Frames ps s (execDmaStart mid channel s) := by
  exact State.onRun_frames fun d => Dev.dmaStart_besides mid channel d hps

theorem execDmaStop_frames (_mid channel : Nat) (s : State) (hps : [.engines, .retained, .registers] ⊆ ps) :
    Frames ps s (execDmaStop _mid channel s) := by
  exact State.onRun_frames fun d => Dev.dmaStopOp_besides channel d hps

theorem execDmaResume_frames (_mid channel : Nat) (s : State) (hps : [.routes, .retained, .registers, .output] ⊆ ps) :
    Frames ps s (execDmaResume _mid channel s) := by
  exact State.onRun_frames fun d => Dev.dmaResumeOp_besides channel d hps

theorem execDmaRequest_frames (_mid channel : Nat) (s : State) (hps : [.routes, .retained, .registers, .output] ⊆ ps) :
    Frames ps s (execDmaRequest _mid channel s) := by
  exact State.onRun_frames fun d => Dev.dmaRequestOp_besides channel d hps

theorem execDmaDescriptorFetched_frames (channel : Nat) (s : State) (hps : [.links, .routes, .engines, .stream, .retained, .registers,
    .output] ⊆ ps) :
    Frames ps s (execDmaDescriptorFetched channel s) := by
  exact State.onRun_frames fun d => Dev.dmaFetched_besides channel d hps

theorem execDmaBurstStart_frames (channel : Nat) (s : State) (hps : [.links, .engines, .stream, .retained, .registers, .output] ⊆ ps) :
    Frames ps s (execDmaBurstStart channel s) := by
  exact State.onRun_frames fun d => Dev.dmaBurst_besides channel d hps

theorem execStpTrainingDone_frames (width : Nat) (s : State) (hps : [.routes, .stream, .retained, .registers, .output] ⊆ ps) :
    Frames ps s (execStpTrainingDone width s) := by
  simp only [List.cons_subset, List.nil_subset, and_true] at hps
  refine State.onRun_frames fun d => ?_
  simp only [↓Dev.onStp_besides, ↓Dev.stpEnter_besides, ↓Dev.besides_ite, ite_self, List.cons_subset, List.nil_subset, and_true, hps]

theorem execStpTrainingRetry_frames (s : State) (hps : [.power, .links, .functions, .channels, .routes, .rings, .items, .ports, .sets,
    .engines, .stream, .retained, .registers, .output] ⊆ ps) :
    Frames ps s (execStpTrainingRetry s) := by
  simp only [List.cons_subset, List.nil_subset, and_true] at hps
  refine State.onRun_frames fun d => ?_
  simp only [↓Dev.onStp_besides, ↓Dev.stpDown_besides, ↓Dev.besides_ite, ite_self, List.cons_subset, List.nil_subset, and_true, hps]

theorem execStpFlitSend_frames (s : State) (hps : [.stream, .retained, .registers, .output] ⊆ ps) :
    Frames ps s (execStpFlitSend s) := by
  exact State.onRun_frames fun d => Dev.chooseFlit_besides d hps

theorem execStpDataFlit_frames (flit : Flit) (s : State) (hps : [.power, .links, .functions, .channels, .routes, .rings, .items, .ports,
    .sets, .engines, .stream, .retained, .registers, .output] ⊆ ps) :
    Frames ps s (execStpDataFlit flit s) := by
  simp only [List.cons_subset, List.nil_subset, and_true] at hps
  refine State.onRun_frames fun d => ?_
  simp only [↓Dev.receiveFlit_besides, ↓Dev.takeData_besides, List.cons_subset, List.nil_subset, and_true, implies_true, hps]

theorem execStpDataLastFlit_frames (flit : Flit) (s : State) (hps : [.power, .links, .functions, .channels, .routes, .rings, .items,
    .ports, .sets, .engines, .stream, .retained, .registers, .output] ⊆ ps) :
    Frames ps s (execStpDataLastFlit flit s) := by
  simp only [List.cons_subset, List.nil_subset, and_true] at hps
  refine State.onRun_frames fun d => ?_
  simp only [↓Dev.receiveFlit_besides, ↓Dev.takeData_besides, List.cons_subset, List.nil_subset, and_true, implies_true, hps]

theorem execStpMessageFlit_frames (flit : Flit) (s : State) (hps : [.power, .links, .functions, .channels, .routes, .rings, .items, .ports,
    .sets, .engines, .stream, .retained, .registers, .output] ⊆ ps) :
    Frames ps s (execStpMessageFlit flit s) := by
  simp only [List.cons_subset, List.nil_subset, and_true] at hps
  refine State.onRun_frames fun d => ?_
  simp only [↓Dev.receiveFlit_besides, ↓Dev.takeMessage_besides, List.cons_subset, List.nil_subset, and_true, implies_true, hps]

theorem execStpControlFlit_frames (flit : Flit) (peerId : Nat) (peerS9640 : Bool) (s : State) (hps : [.power, .links, .functions,
    .channels, .routes, .rings, .items, .ports, .sets, .engines, .stream, .retained, .registers, .output] ⊆ ps) :
    Frames ps s (execStpControlFlit flit peerId peerS9640 s) := by
  simp only [List.cons_subset, List.nil_subset, and_true] at hps
  refine State.onRun_frames fun d => ?_
  simp only [↓Dev.receiveFlit_besides, ↓Dev.wr_besides, ↓Dev.besides_ite, ite_self, List.cons_subset, List.nil_subset, and_true, implies_true, hps]

theorem execStpIdleFlit_frames (flit : Flit) (s : State) (hps : [.power, .links, .functions, .channels, .routes, .rings, .items, .ports,
    .sets, .engines, .stream, .retained, .registers, .output] ⊆ ps) :
    Frames ps s (execStpIdleFlit flit s) := by
  simp only [List.cons_subset, List.nil_subset, and_true] at hps
  refine State.onRun_frames fun d => ?_
  simp only [id, ↓Dev.receiveFlit_besides, List.cons_subset, List.nil_subset, and_true, implies_true, hps]

theorem execStpFlitDiscard_frames (flit : Flit) (s : State) (hps : [.routes, .stream, .retained, .registers, .output] ⊆ ps) :
    Frames ps s (execStpFlitDiscard flit s) := by
  simp only [List.cons_subset, List.nil_subset, and_true] at hps
  refine State.onRun_frames fun d => ?_
  simp only [↓Dev.discardFlit_besides, ↓Dev.besides_ite, ite_self, List.cons_subset, List.nil_subset, and_true, hps]

theorem execStpAckTimeout_frames (s : State) (hps : [.power, .links, .functions, .channels, .routes, .rings, .items, .ports, .sets,
    .engines, .stream, .retained, .registers, .output] ⊆ ps) :
    Frames ps s (execStpAckTimeout s) := by
  simp only [List.cons_subset, List.nil_subset, and_true] at hps
  refine State.onRun_frames fun d => ?_
  simp only [↓Dev.stpRetrain_besides, ↓Dev.besides_ite, ite_self, List.cons_subset, List.nil_subset, and_true, hps]

theorem execStpMatchTimeout_frames (stream : Nat) (s : State) (hps : [.power, .links, .functions, .channels, .routes, .rings, .items,
    .ports, .sets, .engines, .stream, .retained, .registers, .output] ⊆ ps) :
    Frames ps s (execStpMatchTimeout stream s) := by
  simp only [List.cons_subset, List.nil_subset, and_true] at hps
  refine State.onRun_frames fun d => ?_
  split <;> simp only [↓Dev.endXfer_besides, List.cons_subset, List.nil_subset, and_true, hps]

theorem execStpPeerDown_frames (s : State) (hps : [.power, .links, .functions, .channels, .routes, .rings, .items, .ports, .sets, .engines,
    .stream, .retained, .registers, .output] ⊆ ps) :
    Frames ps s (execStpPeerDown s) := by
  simp only [List.cons_subset, List.nil_subset, and_true] at hps
  refine State.onRun_frames fun d => ?_
  simp only [↓Dev.stpDown_besides, ↓Dev.stpTrain_besides, ↓Dev.besides_ite, ite_self, List.cons_subset, List.nil_subset, and_true, hps]

theorem execBulkTransfer_frames (fn : Nat) (s : State) (hps : [.power, .links, .functions, .channels, .routes, .rings, .items, .ports,
    .sets, .engines, .stream, .retained, .registers, .output] ⊆ ps) :
    Frames ps s (execBulkTransfer fn s) := by
  simp only [List.cons_subset, List.nil_subset, and_true] at hps
  refine State.onRun_frames fun d => ?_
  simp only [↓Dev.bulkRequest_besides, ↓Dev.takeKind_besides, List.cons_subset, List.nil_subset, and_true, implies_true, hps]

theorem execCancel_frames (fn : Nat) (s : State) (hps : [.power, .links, .functions, .channels, .routes, .rings, .items, .ports, .sets,
    .engines, .stream, .retained, .registers, .output] ⊆ ps) :
    Frames ps s (execCancel fn s) := by
  simp only [List.cons_subset, List.nil_subset, and_true] at hps
  refine State.onRun_frames fun d => ?_
  simp only [↓Dev.bulkCancel_besides, ↓Dev.takeKind_besides, List.cons_subset, List.nil_subset, and_true, implies_true, hps]

theorem execDmaBurstComplete_frames (channel : Nat) (s : State) (hps : [.power, .links, .functions, .channels, .routes, .rings, .items,
    .ports, .tables, .sets, .engines, .stream, .retained, .registers, .output] ⊆ ps) :
    Frames ps s (execDmaBurstComplete channel s) := by
  simp only [List.cons_subset, List.nil_subset, and_true] at hps
  refine State.onRun_frames fun d => ?_
  simp only [↓Dev.dmaBurstDone_besides, ↓Dev.serveXfer_besides, List.cons_subset, List.nil_subset, and_true, hps]

theorem execPerstNAssert_frames (link : Nat) (s : State) (hps : [.power, .links, .functions, .tenants, .work, .channels, .routes, .rings,
    .items, .ports, .tables, .sets, .storage, .engines, .stream, .retained, .registers, .output] ⊆ ps) :
    Frames ps s (execPerstNAssert link s) := by
  exact State.onLinks_frames fun d => Dev.perstAssert_besides link d hps

theorem execPerstNDeassert_frames (link : Nat) (s : State) (hps : [.links, .routes, .retained, .registers, .output] ⊆ ps) :
    Frames ps s (execPerstNDeassert link s) := by
  exact State.onLinks_frames fun d => Dev.perstDeassert_besides link d hps

theorem execHotReset_frames (link : Nat) (s : State) (hps : [.power, .links, .functions, .tenants, .work, .channels, .routes, .rings,
    .items, .ports, .tables, .sets, .storage, .engines, .stream, .retained, .registers, .output] ⊆ ps) :
    Frames ps s (execHotReset link s) := by
  simp only [List.cons_subset, List.nil_subset, and_true] at hps
  refine State.onLinks_frames fun d => ?_
  simp only [↓Dev.endLinkReset_besides, ↓Dev.linkReset_besides, List.cons_subset, List.nil_subset, and_true, hps]

theorem execDlDown_frames (link : Nat) (s : State) (hps : [.power, .links, .functions, .tenants, .work, .channels, .routes, .rings, .items,
    .ports, .tables, .sets, .storage, .engines, .stream, .retained, .registers, .output] ⊆ ps) :
    Frames ps s (execDlDown link s) := by
  simp only [List.cons_subset, List.nil_subset, and_true] at hps
  refine State.onLinks_frames fun d => ?_
  simp only [↓Dev.endLinkReset_besides, ↓Dev.linkReset_besides, List.cons_subset, List.nil_subset, and_true, hps]

theorem execLinkUp_frames (link rate width : Nat) (flit : Bool) (s : State) (hps : [.power, .links, .functions, .channels, .routes, .rings,
    .items, .shares, .ports, .contexts, .sets, .storage, .engines, .stream, .retained, .registers, .output] ⊆ ps) :
    Frames ps s (execLinkUp link rate width flit s) := by
  exact State.onLinks_frames fun d => Dev.linkUpAt_besides link rate width flit d hps

theorem execInitiateFlr_frames (fn : Nat) (s : State) (hps : [.power, .links, .functions, .tenants, .work, .channels, .routes, .rings,
    .items, .ports, .tables, .sets, .storage, .engines, .stream, .retained, .registers, .output] ⊆ ps) :
    Frames ps s (execInitiateFlr fn s) := by
  exact State.onRun_frames fun d => Dev.flr_besides fn d hps

theorem execResetSquashComplete_frames (fn : Nat) (s : State) (hps : [.power, .links, .functions, .tenants, .work, .channels, .routes,
    .rings, .items, .shares, .ports, .tables, .contexts, .sets, .storage, .stream, .retained, .registers, .output] ⊆ ps) :
    Frames ps s (execResetSquashComplete fn s) := by
  simp only [List.cons_subset, List.nil_subset, and_true] at hps
  refine State.onRun_frames fun d => ?_
  simp only [↓Dev.endLinkReset_besides, ↓Dev.endReset_besides, List.cons_subset, List.nil_subset, and_true, hps]

theorem execBusMasterEnableClear_frames (fn : Nat) (s : State) (hps : [.power, .links, .functions, .work, .channels, .routes, .rings,
    .items, .ports, .tables, .sets, .storage, .stream, .retained, .registers, .output] ⊆ ps) :
    Frames ps s (execBusMasterEnableClear fn s) := by
  exact State.onRun_frames fun d => Dev.bmeClear_besides fn d hps

theorem execBusMasterEnableSet_frames (fn : Nat) (s : State) (hps : [.power, .links, .functions, .channels, .routes, .rings, .items,
    .shares, .ports, .contexts, .sets, .storage, .engines, .stream, .retained, .registers, .output] ⊆ ps) :
    Frames ps s (execBusMasterEnableSet fn s) := by
  exact State.onRun_frames fun d => Dev.bmeSet_besides fn d hps

theorem execVfEnableSet_frames (pf numVfs : Nat) (s : State) (hps : [.functions, .rings, .shares, .registers] ⊆ ps) :
    Frames ps s (execVfEnableSet pf numVfs s) := by
  exact State.onRun_frames fun d => Dev.vfEnableSet_besides pf numVfs d hps

theorem execVfEnableClear_frames (pf : Nat) (s : State) (hps : [.power, .links, .functions, .tenants, .work, .channels, .routes, .rings,
    .items, .ports, .tables, .sets, .storage, .engines, .stream, .retained, .registers, .output] ⊆ ps) :
    Frames ps s (execVfEnableClear pf s) := by
  exact State.onRun_frames fun d => Dev.vfEnableClear_besides pf d hps

theorem execDrainEnd_frames (fn : Nat) (s : State) (hps : [.power, .links, .functions, .tenants, .work, .channels, .routes, .rings, .items,
    .ports, .tables, .sets, .storage, .engines, .stream, .retained, .registers, .output] ⊆ ps) :
    Frames ps s (execDrainEnd fn s) := by
  exact State.onRun_frames fun d => Dev.drainEnd_besides fn d hps

theorem execMsixVectorUnmask_frames (fn vector : Nat) (s : State) (hps : [.links, .functions, .output] ⊆ ps) :
    Frames ps s (execMsixVectorUnmask fn vector s) := by
  simp only [List.cons_subset, List.nil_subset, and_true] at hps
  refine State.onRun_frames fun d => ?_
  simp only [↓Dev.onFn_besides, ↓Dev.releaseVector_besides, ↓Dev.besides_ite, ite_self, List.cons_subset, List.nil_subset, and_true, hps]

theorem execAtsInvalidateRequest_frames (link tag addr size : Nat) (s : State) (hps : [.links, .retained, .registers, .output] ⊆ ps) :
    Frames ps s (execAtsInvalidateRequest link tag addr size s) := by
  simp only [List.cons_subset, List.nil_subset, and_true] at hps
  refine State.onRun_frames fun d => ?_
  simp only [↓Dev.emit_besides, ↓Dev.invalidate_besides, ↓Dev.leaveL1_besides, ↓Dev.besides_ite, ite_self, List.cons_subset,
      List.nil_subset, and_true, hps]

theorem execIdeIntegrityFailure_frames (link : Nat) (s : State) (hps : [.links, .functions, .routes, .retained, .registers, .output] ⊆ ps) :
    Frames ps s (execIdeIntegrityFailure link s) := by
  simp only [List.cons_subset, List.nil_subset, and_true] at hps
  refine State.onLinks_frames fun d => ?_
  simp only [↓Dev.cause_besides, ↓Dev.onLink_besides, ↓Dev.reportAer_besides, ↓Dev.wr_besides, ↓Dev.besides_ite, ite_self,
      List.cons_subset, List.nil_subset, and_true, hps]

theorem execP2pCommit_frames (link : Nat) (s : State) (hps : [.links, .routes, .retained, .registers, .output] ⊆ ps) :
    Frames ps s (execP2pCommit link s) := by
  exact State.onRun_frames fun d => Dev.p2pCommit_besides link d hps

theorem execP2pCommitDone_frames (link : Nat) (s : State) (hps : [.links, .routes, .retained, .registers, .output] ⊆ ps) :
    Frames ps s (execP2pCommitDone link s) := by
  exact State.onRun_frames fun d => Dev.p2pDone_besides link d hps

theorem execAspmL1Entry_frames (link : Nat) (s : State) (hps : [.retained, .registers] ⊆ ps) :
    Frames ps s (execAspmL1Entry link s) := by
  simp only [List.cons_subset, List.nil_subset, and_true] at hps
  refine State.onLinks_frames fun d => ?_
  simp only [↓Dev.wr_besides, ↓Dev.besides_ite, ite_self, List.cons_subset, List.nil_subset, and_true, hps]

theorem execSetFault_frames (position : Nat) (x : SetFinding) (s : State) (hps : [.start, .positions, .power, .links, .functions,
    .channels, .routes, .rings, .items, .ports, .tables, .sets, .retained, .registers, .output] ⊆ ps) :
    Frames ps s (execSetFault position x s) := by
  simp only [List.cons_subset, List.nil_subset, and_true] at hps
  refine State.onLinks_frames fun d => ?_
  simp only [↓Dev.setFault_besides, ↓Dev.besides_ite, ite_self, List.cons_subset, List.nil_subset, and_true, hps]

theorem execReplayDone_frames (position stallNs : Nat) (s : State) (hps : [.start, .positions, .power, .routes, .items, .retained,
    .registers, .output] ⊆ ps) :
    Frames ps s (execReplayDone position stallNs s) := by
  exact State.onRun_frames fun d => Dev.replayEnd_besides position stallNs d hps

theorem execSitoutGraceExpiry_frames (position : Nat) (s : State) (hps : [.start, .positions, .power, .links, .functions, .work, .channels,
    .routes, .rings, .items, .ports, .tables, .sets, .stream, .retained, .registers, .output] ⊆ ps) :
    Frames ps s (execSitoutGraceExpiry position s) := by
  exact State.onRun_frames fun d => Dev.graceEnd_besides position d hps

theorem execThermalSitout_frames (s : State) (hps : [.start, .positions, .power, .routes, .retained, .registers, .output] ⊆ ps) :
    Frames ps s (execThermalSitout s) := by
  exact State.onRun_frames fun d => Dev.thermalSitout_besides d hps

theorem execThermalRejoin_frames (s : State) (hps : [.start, .positions, .power, .routes, .retained, .registers, .output] ⊆ ps) :
    Frames ps s (execThermalRejoin s) := by
  exact State.onRun_frames fun d => Dev.thermalRejoin_besides d hps

theorem execCryptoInstanceFault_frames (position : Nat) (s : State) (hps : [.start, .positions, .routes, .items, .retained, .registers,
    .output] ⊆ ps) :
    Frames ps s (execCryptoInstanceFault position s) := by
  exact State.onLinks_frames fun d => Dev.cryFault_besides position 3 d hps

theorem execInboundEspJobDone_frames (job : Nat) (s : State) (hps : [.start, .positions, .power, .links, .functions, .work, .channels,
    .routes, .rings, .items, .shares, .ports, .tables, .contexts, .sets, .stream, .retained, .registers, .output] ⊆ ps) :
    Frames ps s (execInboundEspJobDone job s) := by
  simp only [List.cons_subset, List.nil_subset, and_true] at hps
  refine State.onRun_frames fun d => ?_
  simp only [↓Dev.answerUnit_besides, ↓Dev.espJobDone_besides, ↓Dev.leaveCry_besides, ↓Dev.besides_ite, ite_self, List.cons_subset,
      List.nil_subset, and_true, hps]

theorem execFigureFullPersist_frames (figure : Nat) (s : State) (hps : [.routes, .retained, .registers, .output] ⊆ ps) :
    Frames ps s (execFigureFullPersist figure s) := by
  simp only [List.cons_subset, List.nil_subset, and_true] at hps
  refine State.onRun_frames fun d => ?_
  simp only [↓Dev.cause_besides, ↓Dev.besides_ite, ite_self, List.cons_subset, List.nil_subset, and_true, hps]

theorem execLgrFailLogRead_frames (mid : Nat) (s : State) (hps : [.items, .retained, .registers, .output] ⊆ ps) :
    Frames ps s (execLgrFailLogRead mid s) := by
  simp only [List.cons_subset, List.nil_subset, and_true] at hps
  refine State.onRun_frames fun d => ?_
  simp only [↓Dev.emit_besides, ↓Dev.popFailure_besides, List.cons_subset, List.nil_subset, and_true, hps]

theorem execStandbyPowerOn_frames (s : State) (hps : [.start, .debug, .positions, .power, .links, .functions, .tenants, .work, .channels,
    .routes, .rings, .items, .shares, .ports, .time, .tables, .contexts, .sets, .storage, .engines, .stream, .retained, .registers,
    .output] ⊆ ps) :
    Frames ps s (execStandbyPowerOn s) := by
  exact State.onDev_frames fun d => Dev.standbyOn_besides d hps

theorem execMainRailFail_frames (s : State) (hps : [.start, .debug, .positions, .power, .links, .functions, .tenants, .work, .channels,
    .routes, .rings, .items, .shares, .ports, .time, .tables, .contexts, .sets, .storage, .engines, .stream, .retained, .registers,
    .output] ⊆ ps) :
    Frames ps s (execMainRailFail s) := by
  exact State.onDev_frames fun d => Dev.railFail_besides d hps

theorem execStandbyBrownout_frames (s : State) (hps : [.retained] ⊆ ps) :
    Frames ps s (execStandbyBrownout s) := by
  simp only [List.cons_subset, List.nil_subset, and_true] at hps
  refine State.onDev_frames fun d => ?_
  simp only [↓Dev.besides_keep, hps]

theorem execSysRstNAssert_frames (s : State) (hps : [.start, .debug, .positions, .power, .links, .functions, .tenants, .work, .channels,
    .routes, .rings, .items, .shares, .ports, .time, .tables, .contexts, .sets, .storage, .engines, .stream, .retained, .registers,
    .output] ⊆ ps) :
    Frames ps s (execSysRstNAssert s) := by
  exact State.onDev_frames fun d => Dev.sysReset_besides d hps

theorem execTestenAssert_frames (s : State) (hps : [.start, .debug, .positions, .power, .links, .functions, .tenants, .work, .channels,
    .routes, .rings, .items, .shares, .ports, .time, .tables, .contexts, .sets, .storage, .engines, .stream, .retained, .registers,
    .output] ⊆ ps) :
    Frames ps s (execTestenAssert s) := by
  simp only [List.cons_subset, List.nil_subset, and_true] at hps
  refine State.onDev_frames fun d => ?_
  simp only [↓Dev.coldReset_besides, ↓Dev.besides_testen, List.cons_subset, List.nil_subset, and_true, hps]

theorem execColdStart_frames (findings : StartFindings) (s : State) (hps : [.start, .debug, .positions, .power, .links, .functions,
    .tenants, .work, .channels, .routes, .rings, .items, .shares, .ports, .time, .tables, .contexts, .sets, .storage, .engines, .stream,
    .retained, .registers, .output, .flash] ⊆ ps) :
    Frames ps s (execColdStart findings s) := by
  unfold execColdStart
  split
  · exact .next rfl
  · have hdev : { s with dev := { s.dev with resetLow := false, testen := false } }.besides ps = s.besides ps :=
      s.besides_dev (by simp only [Dev.besides, if_pos (show Part.start ∈ ps from hps (.head _))])
    dsimp only
    split
    · exact .next ((State.start_besides findings _ hps).trans hdev)
    · exact .next hdev

theorem execMainRailsRestored_frames (findings : StartFindings) (s : State) (hps : [.start, .debug, .positions, .power, .links, .functions,
    .tenants, .work, .channels, .routes, .rings, .items, .shares, .ports, .time, .tables, .contexts, .sets, .storage, .engines, .stream,
    .retained, .registers, .output, .flash] ⊆ ps) :
    Frames ps s (execMainRailsRestored findings s) := by
  have hdev : { s with dev := { s.dev with railsGood := true } }.besides ps = s.besides ps :=
    s.besides_dev (Dev.besides_railsGood _ _ (hps (.head _)))
  unfold execMainRailsRestored
  dsimp only
  split
  · exact .next ((State.start_besides findings _ hps).trans hdev)
  · exact .next hdev

theorem execServiceReset_frames (s : State) (hps : [.start, .positions, .power, .links, .functions, .work, .channels, .routes, .rings,
    .items, .shares, .ports, .tables, .contexts, .sets, .storage, .engines, .stream, .retained, .registers, .output] ⊆ ps) :
    Frames ps s (execServiceReset s) := by
  exact State.onDev_frames fun d => Dev.beginService_besides 4 d hps

theorem execServiceResetCommand_frames (s : State) (hps : [.start, .positions, .power, .links, .functions, .work, .channels, .routes,
    .rings, .items, .shares, .ports, .tables, .contexts, .sets, .storage, .engines, .stream, .retained, .registers, .output] ⊆ ps) :
    Frames ps s (execServiceResetCommand s) := by
  exact State.onDev_frames fun d => Dev.beginService_besides 5 d hps

theorem execServiceReplayDone_frames (s : State) (hps : [.start, .debug, .positions, .power, .links, .functions, .tenants, .work,
    .channels, .routes, .rings, .items, .shares, .ports, .time, .tables, .contexts, .sets, .storage, .engines, .stream, .retained,
    .registers, .output] ⊆ ps) :
    Frames ps s (execServiceReplayDone s) := by
  obtain ⟨t, ht, hb⟩ : Frames ps s.finishService (execServiceReplayDone s) :=
    State.onRun_frames fun d => by
      simp only [List.cons_subset, List.nil_subset, and_true] at hps
      simp only [↓Dev.cause_besides, ↓Dev.wr_besides, ↓Dev.besides_ite, ite_self, List.cons_subset, List.nil_subset, and_true, hps]
  exact ⟨t, ht, hb.trans (State.finishService_besides s hps)⟩

theorem execSnapshotNow_frames (s : State) (hps : [.start, .retained, .registers, .output, .flash] ⊆ ps) :
    Frames ps s (execSnapshotNow s) := by
  exact State.ifRunning_frames (State.snapStart_besides s hps)

theorem execSnapshotIntervalExpiry_frames (s : State) (hps : [.start, .retained, .registers, .output, .flash] ⊆ ps) :
    Frames ps s (execSnapshotIntervalExpiry s) := by
  refine State.ifRunning_frames ?_
  split
  · exact State.snapStart_besides s hps
  · rfl

theorem execSnapshotWriteDone_frames (ok : Bool) (s : State) (hps : [.start, .routes, .retained, .registers, .output, .flash] ⊆ ps) :
    Frames ps s (execSnapshotWriteDone ok s) := by
  exact .next (State.snapDone_besides ok s hps)

theorem execOrderlyShutdown_frames (s : State) (hps : [.start] ⊆ ps) :
    Frames ps s (execOrderlyShutdown s) := by
  simp only [List.cons_subset, List.nil_subset, and_true] at hps
  refine State.onRun_frames fun d => ?_
  simp only [↓Dev.besides_boot, hps]

theorem execShutdownDrainDone_frames (s : State) (hps : [.start, .routes, .retained, .registers, .output, .flash] ⊆ ps) :
    Frames ps s (execShutdownDrainDone s) := by
  exact State.ifRunning_frames (State.shutdownDrained_besides s hps)

theorem execConfirmTrial_frames (s : State) (hps : [.start, .output, .flash, .fuses] ⊆ ps) :
    Frames ps s (execConfirmTrial s) := by
  exact State.ifRunning_frames (State.confirmTrial_besides s hps)

theorem execDiscardRetained_frames (s : State) (hps : [.retained, .output, .flash] ⊆ ps) :
    Frames ps s (execDiscardRetained s) := by
  exact State.ifRunning_frames (State.discard_besides s hps)

theorem execRetentionRecordClose_frames (s : State) (hps : [.retained, .registers] ⊆ ps) :
    Frames ps s (execRetentionRecordClose s) := by
  simp only [List.cons_subset, List.nil_subset, and_true] at hps
  refine State.onLive_frames fun d => ?_
  simp only [↓Dev.beginRecord_besides, ↓Dev.commitRecord_besides, ↓Dev.besides_ite, ite_self, List.cons_subset, List.nil_subset, and_true, hps]

theorem execThermtrip_frames (s : State) (hps : [.start, .power, .links, .rings, .items, .storage, .retained, .registers, .output] ⊆ ps) :
    Frames ps s (execThermtrip s) := by
  exact State.onDev_frames fun d => Dev.trip_besides d hps

theorem execMemoryScrub_frames (mem : Memory) (found : List EccFinding) (s : State) (hps : [.start, .positions, .power, .links, .functions,
    .tenants, .work, .channels, .routes, .rings, .items, .shares, .ports, .tables, .contexts, .sets, .storage, .engines, .stream,
    .retained, .registers, .output] ⊆ ps) :
    Frames ps s (execMemoryScrub mem found s) := by
  exact State.onLinks_frames fun d => Dev.scrub_besides mem found d hps

theorem execEccError_frames (place : EccSite) (correctable : Bool) (s : State) (hps : [.start, .positions, .power, .links, .functions,
    .tenants, .work, .channels, .routes, .rings, .items, .shares, .ports, .tables, .contexts, .sets, .storage, .engines, .stream,
    .retained, .registers, .output] ⊆ ps) :
    Frames ps s (execEccError place correctable s) := by
  exact State.onLinks_frames fun d => Dev.eccError_besides place correctable d hps

theorem execHandshakeTimeout_frames (unit inst silent : Nat) (s : State) (hps : [.start, .positions, .power, .links, .functions, .work,
    .channels, .routes, .rings, .items, .shares, .ports, .tables, .contexts, .sets, .storage, .engines, .stream, .retained, .registers,
    .output] ⊆ ps) :
    Frames ps s (execHandshakeTimeout unit inst silent s) := by
  exact State.onLinks_frames fun d => Dev.handshake_besides unit inst silent d hps

theorem execHbmStackLost_frames (stack : Nat) (s : State) (hps : [.start, .power, .links, .functions, .work, .channels, .routes, .rings,
    .items, .ports, .sets, .storage, .engines, .stream, .retained, .registers, .output] ⊆ ps) :
    Frames ps s (execHbmStackLost stack s) := by
  exact State.onLinks_frames fun d => Dev.stackLost_besides stack d hps

theorem execMoverFault_frames (mover : Nat) (s : State) (hps : [.power, .links, .routes, .engines, .retained, .registers, .output] ⊆ ps) :
    Frames ps s (execMoverFault mover s) := by
  exact State.onLinks_frames fun d => Dev.moverFault_besides mover d hps

theorem execControlCoreFault_frames (core code : Nat) (s : State) (hps : [.start, .positions, .power, .links, .functions, .work, .channels,
    .routes, .rings, .items, .shares, .ports, .tables, .contexts, .sets, .storage, .engines, .stream, .retained, .registers,
    .output] ⊆ ps) :
    Frames ps s (execControlCoreFault core code s) := by
  exact State.onLinks_frames fun d => Dev.coreFault_besides core code 0 0 d hps

theorem execFaultAck_frames (seq : Nat) (s : State) (hps : [.routes, .retained, .registers, .output] ⊆ ps) :
    Frames ps s (execFaultAck seq s) := by
  exact State.onRun_frames fun d => Dev.faultAck_besides seq d hps

theorem execBarStart_frames (s : State) (hps : [.links, .routes, .rings, .shares, .storage, .retained, .registers, .output] ⊆ ps) :
    Frames ps s (execBarStart s) := by
  exact State.onRun_frames fun d => Dev.barStart_besides d hps

theorem execSchNodeRead_frames (mid level index : Nat) (s : State) (hps : [.shares, .retained, .registers] ⊆ ps) :
    Frames ps s (execSchNodeRead mid level index s) := by
  exact State.onRun_frames fun d => Dev.selectNode_besides mid level index false d hps

theorem execSchNodeWrite_frames (mid level index : Nat) (s : State) (hps : [.shares, .retained, .registers] ⊆ ps) :
    Frames ps s (execSchNodeWrite mid level index s) := by
  exact State.onRun_frames fun d => Dev.selectNode_besides mid level index true d hps

theorem execSchNodeCmdDone_frames (s : State) (hps : [.shares, .retained, .registers] ⊆ ps) :
    Frames ps s (execSchNodeCmdDone s) := by
  exact State.onRun_frames fun d => Dev.nodeDone_besides d hps

theorem execRingGroupCreate_frames (fn : Nat) (s : State) (hps : [.power, .links, .functions, .work, .channels, .routes, .rings, .items,
    .shares, .ports, .contexts, .sets, .storage, .stream, .retained, .registers, .output] ⊆ ps) :
    Frames ps s (execRingGroupCreate fn s) := by
  simp only [List.cons_subset, List.nil_subset, and_true] at hps
  refine State.setup_frames (by simp only [List.cons_subset, List.nil_subset, and_true, hps]) fun w th d => ?_
  simp only [↓Dev.groupCreate_besides, List.cons_subset, List.nil_subset, and_true, hps]

theorem execRingGroupDestroy_frames (fn : Nat) (s : State) (hps : [.power, .links, .functions, .work, .channels, .routes, .rings, .items,
    .shares, .ports, .contexts, .sets, .storage, .stream, .retained, .registers, .output] ⊆ ps) :
    Frames ps s (execRingGroupDestroy fn s) := by
  simp only [List.cons_subset, List.nil_subset, and_true] at hps
  refine State.setup_frames (by simp only [List.cons_subset, List.nil_subset, and_true, hps]) fun w th d => ?_
  simp only [↓Dev.groupDestroy_besides, List.cons_subset, List.nil_subset, and_true, hps]

theorem execRingCreate_frames (fn : Nat) (s : State) (hps : [.power, .links, .functions, .work, .channels, .routes, .rings, .items,
    .shares, .ports, .contexts, .sets, .storage, .stream, .retained, .registers, .output] ⊆ ps) :
    Frames ps s (execRingCreate fn s) := by
  simp only [List.cons_subset, List.nil_subset, and_true] at hps
  refine State.setup_frames (by simp only [List.cons_subset, List.nil_subset, and_true, hps]) fun w th d => ?_
  simp only [↓Dev.ringCreate_besides, List.cons_subset, List.nil_subset, and_true, hps]

theorem execRingEnable_frames (fn : Nat) (s : State) (hps : [.power, .links, .functions, .work, .channels, .routes, .rings, .items,
    .shares, .ports, .contexts, .sets, .storage, .stream, .retained, .registers, .output] ⊆ ps) :
    Frames ps s (execRingEnable fn s) := by
  simp only [List.cons_subset, List.nil_subset, and_true] at hps
  refine State.setup_frames (by simp only [List.cons_subset, List.nil_subset, and_true, hps]) fun w th d => ?_
  simp only [↓Dev.ringEnable_besides, List.cons_subset, List.nil_subset, and_true, hps]

theorem execRingDisable_frames (fn : Nat) (s : State) (hps : [.power, .links, .functions, .work, .channels, .routes, .rings, .items,
    .shares, .ports, .contexts, .sets, .storage, .stream, .retained, .registers, .output] ⊆ ps) :
    Frames ps s (execRingDisable fn s) := by
  simp only [List.cons_subset, List.nil_subset, and_true] at hps
  refine State.setup_frames (by simp only [List.cons_subset, List.nil_subset, and_true, hps]) fun w th d => ?_
  simp only [↓Dev.ringDisable_besides, List.cons_subset, List.nil_subset, and_true, hps]

theorem execRingRestart_frames (fn : Nat) (s : State) (hps : [.power, .links, .functions, .work, .channels, .routes, .rings, .items,
    .shares, .ports, .contexts, .sets, .storage, .stream, .retained, .registers, .output] ⊆ ps) :
    Frames ps s (execRingRestart fn s) := by
  simp only [List.cons_subset, List.nil_subset, and_true] at hps
  refine State.setup_frames (by simp only [List.cons_subset, List.nil_subset, and_true, hps]) fun w th d => ?_
  simp only [↓Dev.ringRestart_besides, List.cons_subset, List.nil_subset, and_true, hps]

theorem execRingDestroy_frames (fn : Nat) (s : State) (hps : [.power, .links, .functions, .work, .channels, .routes, .rings, .items,
    .shares, .ports, .contexts, .sets, .storage, .stream, .retained, .registers, .output] ⊆ ps) :
    Frames ps s (execRingDestroy fn s) := by
  simp only [List.cons_subset, List.nil_subset, and_true] at hps
  refine State.setup_frames (by simp only [List.cons_subset, List.nil_subset, and_true, hps]) fun w th d => ?_
  simp only [↓Dev.ringDestroy_besides, List.cons_subset, List.nil_subset, and_true, hps]

theorem execRingTune_frames (fn : Nat) (s : State) (hps : [.power, .links, .functions, .work, .channels, .routes, .rings, .items, .shares,
    .ports, .contexts, .sets, .storage, .stream, .retained, .registers, .output] ⊆ ps) :
    Frames ps s (execRingTune fn s) := by
  simp only [List.cons_subset, List.nil_subset, and_true] at hps
  refine State.setup_frames (by simp only [List.cons_subset, List.nil_subset, and_true, hps]) fun w th d => ?_
  simp only [↓Dev.ringTune_besides, List.cons_subset, List.nil_subset, and_true, hps]

theorem execTenantCreate_frames (fn : Nat) (s : State) (hps : [.power, .links, .functions, .tenants, .work, .channels, .routes, .rings,
    .items, .shares, .ports, .contexts, .sets, .storage, .stream, .retained, .registers, .output] ⊆ ps) :
    Frames ps s (execTenantCreate fn s) := by
  simp only [List.cons_subset, List.nil_subset, and_true] at hps
  refine State.setup_frames (by simp only [List.cons_subset, List.nil_subset, and_true, hps]) fun w th d => ?_
  simp only [↓Dev.tenantCreate_besides, List.cons_subset, List.nil_subset, and_true, hps]

theorem execTenantDestroy_frames (fn : Nat) (s : State) (hps : [.power, .links, .functions, .tenants, .work, .channels, .routes, .rings,
    .items, .shares, .ports, .contexts, .sets, .storage, .stream, .retained, .registers, .output] ⊆ ps) :
    Frames ps s (execTenantDestroy fn s) := by
  simp only [List.cons_subset, List.nil_subset, and_true] at hps
  refine State.setup_frames (by simp only [List.cons_subset, List.nil_subset, and_true, hps]) fun w th d => ?_
  simp only [↓Dev.tenantDestroy_besides, List.cons_subset, List.nil_subset, and_true, hps]

theorem execVfAssign_frames (fn : Nat) (s : State) (hps : [.power, .links, .functions, .work, .channels, .routes, .rings, .items, .shares,
    .ports, .contexts, .sets, .storage, .stream, .retained, .registers, .output] ⊆ ps) :
    Frames ps s (execVfAssign fn s) := by
  simp only [List.cons_subset, List.nil_subset, and_true] at hps
  refine State.setup_frames (by simp only [List.cons_subset, List.nil_subset, and_true, hps]) fun w th d => ?_
  simp only [↓Dev.vfAssign_besides, List.cons_subset, List.nil_subset, and_true, hps]

theorem execVfProperties_frames (fn : Nat) (s : State) (hps : [.power, .links, .functions, .work, .channels, .routes, .rings, .items,
    .shares, .ports, .tables, .contexts, .sets, .storage, .stream, .retained, .registers, .output] ⊆ ps) :
    Frames ps s (execVfProperties fn s) := by
  simp only [List.cons_subset, List.nil_subset, and_true] at hps
  refine State.setup_frames (by simp only [List.cons_subset, List.nil_subset, and_true, hps]) fun w th d => ?_
  simp only [↓Dev.vfProperties_besides, List.cons_subset, List.nil_subset, and_true, hps]

theorem execFunctionReset_frames (fn : Nat) (s : State) (hps : [.power, .links, .functions, .tenants, .work, .channels, .routes, .rings,
    .items, .shares, .ports, .tables, .contexts, .sets, .storage, .engines, .stream, .retained, .registers, .output] ⊆ ps) :
    Frames ps s (execFunctionReset fn s) := by
  simp only [List.cons_subset, List.nil_subset, and_true] at hps
  refine State.setup_frames (by simp only [List.cons_subset, List.nil_subset, and_true, hps]) fun w th d => ?_
  simp only [↓Dev.resetRequest_besides, List.cons_subset, List.nil_subset, and_true, hps]

theorem execContextCreate_frames (fn : Nat) (s : State) (hps : [.power, .links, .functions, .work, .channels, .routes, .rings, .items,
    .shares, .ports, .contexts, .sets, .storage, .stream, .retained, .registers, .output] ⊆ ps) :
    Frames ps s (execContextCreate fn s) := by
  simp only [List.cons_subset, List.nil_subset, and_true] at hps
  refine State.setup_frames (by simp only [List.cons_subset, List.nil_subset, and_true, hps]) fun w th d => ?_
  simp only [↓Dev.contextCreate_besides, List.cons_subset, List.nil_subset, and_true, hps]

theorem execContextChange_frames (fn : Nat) (s : State) (hps : [.power, .links, .functions, .work, .channels, .routes, .rings, .items,
    .shares, .ports, .contexts, .sets, .storage, .stream, .retained, .registers, .output] ⊆ ps) :
    Frames ps s (execContextChange fn s) := by
  simp only [List.cons_subset, List.nil_subset, and_true] at hps
  refine State.setup_frames (by simp only [List.cons_subset, List.nil_subset, and_true, hps]) fun w th d => ?_
  simp only [↓Dev.contextChange_besides, List.cons_subset, List.nil_subset, and_true, hps]

theorem execContextDestroy_frames (fn : Nat) (s : State) (hps : [.power, .links, .functions, .work, .channels, .routes, .rings, .items,
    .shares, .ports, .contexts, .sets, .storage, .stream, .retained, .registers, .output] ⊆ ps) :
    Frames ps s (execContextDestroy fn s) := by
  simp only [List.cons_subset, List.nil_subset, and_true] at hps
  refine State.setup_frames (by simp only [List.cons_subset, List.nil_subset, and_true, hps]) fun w th d => ?_
  simp only [↓Dev.contextDestroy_besides, List.cons_subset, List.nil_subset, and_true, hps]

theorem execEpilogueResend_frames (fn : Nat) (s : State) (hps : [.power, .links, .functions, .work, .channels, .routes, .rings, .items,
    .shares, .ports, .contexts, .sets, .storage, .stream, .retained, .registers, .output] ⊆ ps) :
    Frames ps s (execEpilogueResend fn s) := by
  simp only [List.cons_subset, List.nil_subset, and_true] at hps
  refine State.setup_frames (by simp only [List.cons_subset, List.nil_subset, and_true, hps]) fun w th d => ?_
  simp only [↓Dev.epilogueResend_besides, List.cons_subset, List.nil_subset, and_true, hps]

theorem execGetConfiguration_frames (fn : Nat) (s : State) (hps : [.power, .links, .functions, .work, .channels, .routes, .rings, .items,
    .shares, .ports, .contexts, .sets, .storage, .stream, .retained, .registers, .output] ⊆ ps) :
    Frames ps s (execGetConfiguration fn s) := by
  simp only [List.cons_subset, List.nil_subset, and_true] at hps
  refine State.setup_frames (by simp only [List.cons_subset, List.nil_subset, and_true, hps]) fun w th d => ?_
  simp only [↓Dev.answerS44_besides, List.cons_subset, List.nil_subset, and_true, hps]

theorem execSetMacFilter_frames (fn : Nat) (s : State) (hps : [.power, .links, .functions, .channels, .routes, .rings, .items, .ports,
    .sets, .stream, .retained, .registers, .output] ⊆ ps) :
    Frames ps s (execSetMacFilter fn s) := by
  exact State.onRun_frames fun d => Dev.takeFilter_besides fn 0x61 d hps

theorem execSetVlanFilter_frames (fn : Nat) (s : State) (hps : [.power, .links, .functions, .channels, .routes, .rings, .items, .ports,
    .sets, .stream, .retained, .registers, .output] ⊆ ps) :
    Frames ps s (execSetVlanFilter fn s) := by
  exact State.onRun_frames fun d => Dev.takeFilter_besides fn 0x62 d hps

theorem execLinkQuery_frames (fn : Nat) (s : State) (hps : [.power, .links, .functions, .work, .channels, .routes, .rings, .items, .shares,
    .ports, .contexts, .sets, .storage, .stream, .retained, .registers, .output] ⊆ ps) :
    Frames ps s (execLinkQuery fn s) := by
  simp only [List.cons_subset, List.nil_subset, and_true] at hps
  refine State.setup_frames (by simp only [List.cons_subset, List.nil_subset, and_true, hps]) fun w th d => ?_
  simp only [↓Dev.answerS44_besides, List.cons_subset, List.nil_subset, and_true, hps]

theorem execS44SoftReset_frames (fn : Nat) (s : State) (hps : [.power, .links, .functions, .tenants, .work, .channels, .routes, .rings,
    .items, .ports, .tables, .sets, .storage, .engines, .stream, .retained, .registers, .output] ⊆ ps) :
    Frames ps s (execS44SoftReset fn s) := by
  exact State.onRun_frames fun d => Dev.s44Reset_besides fn d hps

theorem execS44QueueEnable_frames (fn queue value : Nat) (s : State) (hps : [.rings, .shares, .retained, .registers] ⊆ ps) :
    Frames ps s (execS44QueueEnable fn queue value s) := by
  exact State.onRun_frames fun d => Dev.s44Enable_besides fn queue value d hps

theorem execS44QueueDisable_frames (fn queue value : Nat) (s : State) (hps : [.power, .links, .functions, .work, .channels, .routes,
    .rings, .items, .shares, .ports, .contexts, .sets, .storage, .stream, .retained, .registers, .output] ⊆ ps) :
    Frames ps s (execS44QueueDisable fn queue value s) := by
  simp only [List.cons_subset, List.nil_subset, and_true] at hps
  refine State.onRun_frames fun d => ?_
  simp only [↓Dev.goOnJobs_besides, ↓Dev.s44Disable_besides, List.cons_subset, List.nil_subset, and_true, hps]

theorem execSitOut_frames (fn : Nat) (s : State) (hps : [.start, .positions, .power, .links, .functions, .work, .channels, .routes, .rings,
    .items, .shares, .ports, .contexts, .sets, .storage, .stream, .retained, .registers, .output] ⊆ ps) :
    Frames ps s (execSitOut fn s) := by
  simp only [List.cons_subset, List.nil_subset, and_true] at hps
  refine State.setup_frames (by simp only [List.cons_subset, List.nil_subset, and_true, hps]) fun w th d => ?_
  simp only [↓Dev.sitOut_besides, List.cons_subset, List.nil_subset, and_true, hps]

theorem execRejoin_frames (fn : Nat) (s : State) (hps : [.positions, .power, .links, .functions, .work, .channels, .routes, .rings, .items,
    .shares, .ports, .contexts, .sets, .storage, .stream, .retained, .registers, .output] ⊆ ps) :
    Frames ps s (execRejoin fn s) := by
  simp only [List.cons_subset, List.nil_subset, and_true] at hps
  refine State.setup_frames (by simp only [List.cons_subset, List.nil_subset, and_true, hps]) fun w th d => ?_
  simp only [↓Dev.rejoin_besides, List.cons_subset, List.nil_subset, and_true, hps]

theorem execRejoinTestDone_frames (unit inst : Nat) (pass : Bool) (s : State) (hps : [.start, .positions, .power, .links, .functions,
    .work, .channels, .routes, .rings, .items, .shares, .ports, .tables, .contexts, .sets, .stream, .retained, .registers, .output] ⊆ ps) :
    Frames ps s (execRejoinTestDone unit inst pass s) := by
  exact State.onRun_frames fun d => Dev.testDone_besides unit inst pass d hps

theorem execImageStage_frames (fn : Nat) (img : Image) (s : State) (hps : [.start, .debug, .positions, .power, .links, .functions,
    .tenants, .work, .channels, .routes, .rings, .items, .shares, .ports, .time, .tables, .contexts, .sets, .storage, .engines, .stream,
    .retained, .registers, .output, .flash] ⊆ ps) :
    Frames ps s (execImageStage fn img s) := by
  exact State.ifRunning_frames (State.imageStage_besides fn img s hps)

theorem execImageApply_frames (fn : Nat) (s : State) (hps : [.start, .debug, .positions, .power, .links, .functions, .tenants, .work,
    .channels, .routes, .rings, .items, .shares, .ports, .time, .tables, .contexts, .sets, .storage, .engines, .stream, .retained,
    .registers, .output] ⊆ ps) :
    Frames ps s (execImageApply fn s) := by
  exact State.ifRunning_frames (State.imageApply_besides fn s hps)

theorem execEventSwTrigger_frames (bits : Nat) (s : State) (hps : [.routes, .output] ⊆ ps) :
    Frames ps s (execEventSwTrigger bits s) := by
  exact State.onRun_frames fun d => Dev.swTrigger_besides bits d hps

theorem execEventEoi_frames (pf source : Nat) (s : State) (hps : [.routes] ⊆ ps) :
    Frames ps s (execEventEoi pf source s) := by
  exact State.onRun_frames fun d => Dev.endOfInterrupt_besides pf source d hps

theorem execEventRouteWrite_frames (pf source value : Nat) (s : State) (hps : [.routes, .retained, .registers] ⊆ ps) :
    Frames ps s (execEventRouteWrite pf source value s) := by
  exact State.onRun_frames fun d => Dev.writeRoute_besides pf source value d hps

theorem execEventMessageIssue_frames (pf source : Nat) (s : State) (hps : [.links, .functions, .routes, .retained, .registers, .output] ⊆ ps) :
    Frames ps s (execEventMessageIssue pf source s) := by
  exact State.onRun_frames fun d => Dev.issue_besides pf source d hps

theorem execStormLimitMillisecond_frames (s : State) (hps : [.routes] ⊆ ps) :
    Frames ps s (execStormLimitMillisecond s) := by
  exact State.onRun_frames fun d => Dev.stormMs_besides d hps

theorem execCauseMaskWrite_frames (unit inst off value : Nat) (s : State) (hps : [.routes, .retained, .registers, .output] ⊆ ps) :
    Frames ps s (execCauseMaskWrite unit inst off value s) := by
  simp only [List.cons_subset, List.nil_subset, and_true] at hps
  refine State.onRun_frames fun d => ?_
  split <;> simp only [↓Dev.writeMask_besides, List.cons_subset, List.nil_subset, and_true, hps]

theorem execRegisterWrite_frames (mid unit inst off bytes value : Nat) (s : State) (hps : [.start, .positions, .power, .links, .functions,
    .tenants, .work, .channels, .routes, .rings, .items, .shares, .ports, .time, .tables, .contexts, .sets, .storage, .engines, .stream,
    .retained, .registers, .output, .flash, .fuses] ⊆ ps) :
    Frames ps s (execRegisterWrite mid unit inst off bytes value s) := by
  refine .next ?_
  induction (List.range ((off + bytes) / 4 - (off + 3) / 4)) generalizing s with
  | nil => rfl
  | cons k l ih => rw [List.foldl_cons, ih, State.writeWord_besides (hps := hps)]

theorem execDoorbellLogDrained_frames (link : Nat) (s : State) (hps : [.start, .debug, .positions, .power, .links, .functions, .tenants,
    .work, .channels, .routes, .rings, .items, .shares, .ports, .time, .tables, .contexts, .sets, .storage, .engines, .stream, .retained,
    .registers, .output, .flash, .fuses] ⊆ ps) :
    Frames ps s (execDoorbellLogDrained link s) := by
  simp only [List.cons_subset, List.nil_subset, and_true] at hps
  have hfin : s.finishService.besides ps = s.besides ps :=
    State.finishService_besides s (by simp only [List.cons_subset, List.nil_subset, and_true, hps])
  unfold execDoorbellLogDrained
  dsimp only
  split
  · exact .next ((State.releaseLink_besides link _ (by simp only [List.cons_subset, List.nil_subset, and_true, hps])).trans hfin)
  · exact .next hfin

theorem execConfigRequest_frames (fn : Nat) (req : ConfigReq) (s : State) (hps : [.power, .links, .functions, .tenants, .work, .channels,
    .routes, .rings, .items, .shares, .ports, .tables, .contexts, .sets, .storage, .engines, .stream, .retained, .registers,
    .output] ⊆ ps) :
    Frames ps s (execConfigRequest fn req s) := by
  exact State.onLive_frames fun d => Dev.cfgRequest_besides fn req d hps

theorem execBarMemoryRead_frames (fn : Nat) (addr : BarAddr) (len : Nat) (s : State) (hps : [.functions, .channels, .routes, .rings,
    .items, .ports, .time, .tables, .sets, .retained, .registers, .output] ⊆ ps) :
    Frames ps s (execBarMemoryRead fn addr len s) := by
  simp only [List.cons_subset, List.nil_subset, and_true] at hps
  refine State.onLive_frames fun d => ?_
  simp only [↓Dev.barRead_besides, ↓Dev.emit_besides, ↓Dev.leaveL1_besides, ↓Dev.besides_ite, ite_self, List.cons_subset, List.nil_subset,
      and_true, hps]

theorem execReadCompletion_frames (link tag : Nat) (status : CplStatus) (data : List Byte) (s : State) (hps : [.power, .links, .functions,
    .work, .channels, .routes, .rings, .items, .shares, .ports, .tables, .contexts, .sets, .storage, .engines, .stream, .retained,
    .registers, .output] ⊆ ps) :
    Frames ps s (execReadCompletion link tag status data s) := by
  simp only [List.cons_subset, List.nil_subset, and_true] at hps
  refine State.onLive_frames fun d => ?_
  split <;> simp only [↓Dev.endRead_besides, ↓Dev.failRead_besides, ↓Dev.besides_ite, ite_self, List.cons_subset, List.nil_subset, and_true, hps]

theorem execCompletionTimeout_frames (link tag : Nat) (s : State) (hps : [.power, .links, .functions, .work, .channels, .routes, .rings,
    .items, .shares, .ports, .tables, .contexts, .sets, .storage, .engines, .stream, .retained, .registers, .output] ⊆ ps) :
    Frames ps s (execCompletionTimeout link tag s) := by
  simp only [List.cons_subset, List.nil_subset, and_true] at hps
  refine State.onLive_frames fun d => ?_
  split <;> simp only [↓Dev.failRead_besides, List.cons_subset, List.nil_subset, and_true, hps]

theorem execBypass_frames (s : State) (hps : [.debug, .output] ⊆ ps) :
    Frames ps s (execBypass s) := by
  simp only [List.cons_subset, List.nil_subset, and_true] at hps
  refine State.onDev_frames fun d => ?_
  simp only [↓Dev.emit_besides, ↓Dev.tapTo_besides, List.cons_subset, List.nil_subset, and_true, hps]

theorem execSamplePreload_frames (s : State) (hps : [.debug, .output] ⊆ ps) :
    Frames ps s (execSamplePreload s) := by
  simp only [List.cons_subset, List.nil_subset, and_true] at hps
  refine State.onDev_frames fun d => ?_
  simp only [↓Dev.scan_besides, ↓Dev.tapTo_besides, List.cons_subset, List.nil_subset, and_true, hps]

theorem execExtest_frames (s : State) (hps : [.debug, .output] ⊆ ps) :
    Frames ps s (execExtest s) := by
  simp only [List.cons_subset, List.nil_subset, and_true] at hps
  refine State.onDev_frames fun d => ?_
  simp only [↓Dev.scan_besides, ↓Dev.tapTo_besides, List.cons_subset, List.nil_subset, and_true, hps]

theorem execIdcode_frames (s : State) (hps : [.debug, .output] ⊆ ps) :
    Frames ps s (execIdcode s) := by
  simp only [List.cons_subset, List.nil_subset, and_true] at hps
  refine State.onDev_frames fun d => ?_
  simp only [↓Dev.emit_besides, ↓Dev.tapTo_besides, List.cons_subset, List.nil_subset, and_true, hps]

theorem execDbgChallenge_frames (s : State) (hps : [.debug, .output] ⊆ ps) :
    Frames ps s (execDbgChallenge s) := by
  simp only [List.cons_subset, List.nil_subset, and_true] at hps
  refine State.onDev_frames fun d => ?_
  simp only [↓Dev.challenge_besides, ↓Dev.tapTo_besides, List.cons_subset, List.nil_subset, and_true, hps]

theorem execDbgResponse_frames (slot signature : Nat) (s : State) (hps : [.debug] ⊆ ps) :
    Frames ps s (execDbgResponse slot signature s) := by
  simp only [List.cons_subset, List.nil_subset, and_true] at hps
  exact .next ((State.respond_besides _ _ _ (by simp only [List.cons_subset, List.nil_subset, and_true, hps])).trans
    (s.besides_dev (by simp only [↓Dev.tapTo_besides, List.cons_subset, List.nil_subset, and_true, hps])))

theorem execTrstNAssert_frames (s : State) (hps : [.debug] ⊆ ps) :
    Frames ps s (execTrstNAssert s) := by
  exact State.onDev_frames fun d => Dev.tapTo_besides 3 d hps

theorem execSeq_frames (position thread : Nat) (s : State) (hps : [.start, .positions, .power, .links, .functions, .channels, .routes,
    .rings, .items, .ports, .tables, .sets, .retained, .registers, .output] ⊆ ps) :
    Frames ps s (execSeq position thread s) := by
  simp only [List.cons_subset, List.nil_subset, and_true] at hps
  refine State.onNext_frames (by simp only [List.cons_subset, List.nil_subset, and_true, hps]) fun w th d => ?_
  simp only [↓Dev.goTo_besides, List.cons_subset, List.nil_subset, and_true, hps]

theorem execJump_frames (position thread : Nat) (s : State) (hps : [.start, .positions, .power, .links, .functions, .channels, .routes,
    .rings, .items, .ports, .tables, .sets, .retained, .registers, .output] ⊆ ps) :
    Frames ps s (execJump position thread s) := by
  simp only [List.cons_subset, List.nil_subset, and_true] at hps
  refine State.onNext_frames (by simp only [List.cons_subset, List.nil_subset, and_true, hps]) fun w th d => ?_
  simp only [↓Dev.goTo_besides, List.cons_subset, List.nil_subset, and_true, hps]

theorem execBranch_frames (position thread : Nat) (s : State) (hps : [.start, .positions, .power, .links, .functions, .channels, .routes,
    .rings, .items, .ports, .tables, .sets, .retained, .registers, .output] ⊆ ps) :
    Frames ps s (execBranch position thread s) := by
  simp only [List.cons_subset, List.nil_subset, and_true] at hps
  refine State.onNext_frames (by simp only [List.cons_subset, List.nil_subset, and_true, hps]) fun w th d => ?_
  simp only [↓Dev.goTo_besides, List.cons_subset, List.nil_subset, and_true, hps]

theorem execCall_frames (position thread : Nat) (s : State) (hps : [.start, .positions, .power, .links, .functions, .channels, .routes,
    .rings, .items, .ports, .tables, .sets, .retained, .registers, .output] ⊆ ps) :
    Frames ps s (execCall position thread s) := by
  simp only [List.cons_subset, List.nil_subset, and_true] at hps
  refine State.onNext_frames (by simp only [List.cons_subset, List.nil_subset, and_true, hps]) fun w th d => ?_
  simp only [↓Dev.callTo_besides, List.cons_subset, List.nil_subset, and_true, hps]

theorem execCallIf_frames (position thread : Nat) (s : State) (hps : [.start, .positions, .power, .links, .functions, .channels, .routes,
    .rings, .items, .ports, .tables, .sets, .retained, .registers, .output] ⊆ ps) :
    Frames ps s (execCallIf position thread s) := by
  simp only [List.cons_subset, List.nil_subset, and_true] at hps
  refine State.onNext_frames (by simp only [List.cons_subset, List.nil_subset, and_true, hps]) fun w th d => ?_
  simp only [↓Dev.callTo_besides, ↓Dev.goTo_besides, ↓Dev.besides_ite, ite_self, List.cons_subset, List.nil_subset, and_true, hps]

theorem execPopReturn_frames (position thread : Nat) (s : State) (hps : [.start, .positions, .power, .links, .functions, .channels,
    .routes, .rings, .items, .ports, .tables, .sets, .retained, .registers, .output] ⊆ ps) :
    Frames ps s (execPopReturn position thread s) := by
  simp only [List.cons_subset, List.nil_subset, and_true] at hps
  refine State.onNext_frames (by simp only [List.cons_subset, List.nil_subset, and_true, hps]) fun w th d => ?_
  simp only [↓Dev.returnTo_besides, List.cons_subset, List.nil_subset, and_true, hps]

theorem execPopReturnIf_frames (position thread : Nat) (s : State) (hps : [.start, .positions, .power, .links, .functions, .channels,
    .routes, .rings, .items, .ports, .tables, .sets, .retained, .registers, .output] ⊆ ps) :
    Frames ps s (execPopReturnIf position thread s) := by
  simp only [List.cons_subset, List.nil_subset, and_true] at hps
  refine State.onNext_frames (by simp only [List.cons_subset, List.nil_subset, and_true, hps]) fun w th d => ?_
  simp only [↓Dev.goTo_besides, ↓Dev.returnTo_besides, ↓Dev.besides_ite, ite_self, List.cons_subset, List.nil_subset, and_true, hps]

theorem execWait_frames (position thread : Nat) (s : State) (hps : [.start, .positions, .power, .links, .functions, .channels, .routes,
    .rings, .items, .ports, .tables, .sets, .retained, .registers, .output] ⊆ ps) :
    Frames ps s (execWait position thread s) := by
  simp only [List.cons_subset, List.nil_subset, and_true] at hps
  refine State.onNext_frames (by simp only [List.cons_subset, List.nil_subset, and_true, hps]) fun w th d => ?_
  simp only [↓Dev.beginWait_besides, List.cons_subset, List.nil_subset, and_true, hps]

theorem execTable_frames (position thread : Nat) (s : State) (hps : [.start, .positions, .power, .links, .functions, .channels, .routes,
    .rings, .items, .ports, .tables, .sets, .retained, .registers, .output] ⊆ ps) :
    Frames ps s (execTable position thread s) := by
  simp only [List.cons_subset, List.nil_subset, and_true] at hps
  refine State.onNext_frames (by simp only [List.cons_subset, List.nil_subset, and_true, hps]) fun w th d => ?_
  simp only [↓Dev.goTo_besides, List.cons_subset, List.nil_subset, and_true, hps]

theorem execPassEnd_frames (position thread : Nat) (s : State) (hps : [.start, .positions, .power, .links, .functions, .channels, .routes,
    .rings, .items, .ports, .tables, .sets, .retained, .registers, .output] ⊆ ps) :
    Frames ps s (execPassEnd position thread s) := by
  simp only [List.cons_subset, List.nil_subset, and_true] at hps
  refine State.onNext_frames (by simp only [List.cons_subset, List.nil_subset, and_true, hps]) fun w th d => ?_
  simp only [↓Dev.endPass_besides, List.cons_subset, List.nil_subset, and_true, hps]

theorem execTrap_frames (position thread : Nat) (s : State) (hps : [.start, .positions, .power, .links, .functions, .channels, .routes,
    .rings, .items, .ports, .tables, .sets, .retained, .registers, .output] ⊆ ps) :
    Frames ps s (execTrap position thread s) := by
  simp only [List.cons_subset, List.nil_subset, and_true] at hps
  refine State.onNext_frames (by simp only [List.cons_subset, List.nil_subset, and_true, hps]) fun w th d => ?_
  simp only [↓Dev.threadFault_besides, List.cons_subset, List.nil_subset, and_true, hps]

theorem execAluAdd_frames (position thread : Nat) (s : State) (hps : [.start, .positions, .power, .links, .functions, .channels, .routes,
    .rings, .items, .ports, .tables, .sets, .retained, .registers, .output] ⊆ ps) :
    Frames ps s (execAluAdd position thread s) := by
  simp only [List.cons_subset, List.nil_subset, and_true] at hps
  refine State.onData_frames (by simp only [List.cons_subset, List.nil_subset, and_true, hps]) fun w th d => ?_
  simp only [↓Dev.alu_besides, List.cons_subset, List.nil_subset, and_true, hps]

theorem execAluSub_frames (position thread : Nat) (s : State) (hps : [.start, .positions, .power, .links, .functions, .channels, .routes,
    .rings, .items, .ports, .tables, .sets, .retained, .registers, .output] ⊆ ps) :
    Frames ps s (execAluSub position thread s) := by
  simp only [List.cons_subset, List.nil_subset, and_true] at hps
  refine State.onData_frames (by simp only [List.cons_subset, List.nil_subset, and_true, hps]) fun w th d => ?_
  simp only [↓Dev.alu_besides, List.cons_subset, List.nil_subset, and_true, hps]

theorem execAluAnd_frames (position thread : Nat) (s : State) (hps : [.start, .positions, .power, .links, .functions, .channels, .routes,
    .rings, .items, .ports, .tables, .sets, .retained, .registers, .output] ⊆ ps) :
    Frames ps s (execAluAnd position thread s) := by
  simp only [List.cons_subset, List.nil_subset, and_true] at hps
  refine State.onData_frames (by simp only [List.cons_subset, List.nil_subset, and_true, hps]) fun w th d => ?_
  simp only [↓Dev.alu_besides, List.cons_subset, List.nil_subset, and_true, hps]

theorem execAluOr_frames (position thread : Nat) (s : State) (hps : [.start, .positions, .power, .links, .functions, .channels, .routes,
    .rings, .items, .ports, .tables, .sets, .retained, .registers, .output] ⊆ ps) :
    Frames ps s (execAluOr position thread s) := by
  simp only [List.cons_subset, List.nil_subset, and_true] at hps
  refine State.onData_frames (by simp only [List.cons_subset, List.nil_subset, and_true, hps]) fun w th d => ?_
  simp only [↓Dev.alu_besides, List.cons_subset, List.nil_subset, and_true, hps]

theorem execAluXor_frames (position thread : Nat) (s : State) (hps : [.start, .positions, .power, .links, .functions, .channels, .routes,
    .rings, .items, .ports, .tables, .sets, .retained, .registers, .output] ⊆ ps) :
    Frames ps s (execAluXor position thread s) := by
  simp only [List.cons_subset, List.nil_subset, and_true] at hps
  refine State.onData_frames (by simp only [List.cons_subset, List.nil_subset, and_true, hps]) fun w th d => ?_
  simp only [↓Dev.alu_besides, List.cons_subset, List.nil_subset, and_true, hps]

theorem execAluCompare_frames (position thread : Nat) (s : State) (hps : [.start, .positions, .power, .links, .functions, .channels,
    .routes, .rings, .items, .ports, .tables, .sets, .retained, .registers, .output] ⊆ ps) :
    Frames ps s (execAluCompare position thread s) := by
  simp only [List.cons_subset, List.nil_subset, and_true] at hps
  refine State.onData_frames (by simp only [List.cons_subset, List.nil_subset, and_true, hps]) fun w th d => ?_
  simp only [↓Dev.alu_besides, List.cons_subset, List.nil_subset, and_true, hps]

theorem execAluMove_frames (position thread : Nat) (s : State) (hps : [.start, .positions, .power, .links, .functions, .channels, .routes,
    .rings, .items, .ports, .tables, .sets, .retained, .registers, .output] ⊆ ps) :
    Frames ps s (execAluMove position thread s) := by
  simp only [List.cons_subset, List.nil_subset, and_true] at hps
  refine State.onData_frames (by simp only [List.cons_subset, List.nil_subset, and_true, hps]) fun w th d => ?_
  simp only [↓Dev.alu_besides, List.cons_subset, List.nil_subset, and_true, hps]

theorem execAddWithCarry_frames (position thread : Nat) (s : State) (hps : [.start, .positions, .power, .links, .functions, .channels,
    .routes, .rings, .items, .ports, .tables, .sets, .retained, .registers, .output] ⊆ ps) :
    Frames ps s (execAddWithCarry position thread s) := by
  simp only [List.cons_subset, List.nil_subset, and_true] at hps
  refine State.onData_frames (by simp only [List.cons_subset, List.nil_subset, and_true, hps]) fun w th d => ?_
  simp only [↓Dev.alu_besides, List.cons_subset, List.nil_subset, and_true, hps]

theorem execShiftLeft_frames (position thread : Nat) (s : State) (hps : [.start, .positions, .power, .links, .functions, .channels,
    .routes, .rings, .items, .ports, .tables, .sets, .retained, .registers, .output] ⊆ ps) :
    Frames ps s (execShiftLeft position thread s) := by
  simp only [List.cons_subset, List.nil_subset, and_true] at hps
  refine State.onData_frames (by simp only [List.cons_subset, List.nil_subset, and_true, hps]) fun w th d => ?_
  simp only [↓Dev.shift_besides, List.cons_subset, List.nil_subset, and_true, hps]

theorem execShiftRight_frames (position thread : Nat) (s : State) (hps : [.start, .positions, .power, .links, .functions, .channels,
    .routes, .rings, .items, .ports, .tables, .sets, .retained, .registers, .output] ⊆ ps) :
    Frames ps s (execShiftRight position thread s) := by
  simp only [List.cons_subset, List.nil_subset, and_true] at hps
  refine State.onData_frames (by simp only [List.cons_subset, List.nil_subset, and_true, hps]) fun w th d => ?_
  simp only [↓Dev.shift_besides, List.cons_subset, List.nil_subset, and_true, hps]

theorem execRotate_frames (position thread : Nat) (s : State) (hps : [.start, .positions, .power, .links, .functions, .channels, .routes,
    .rings, .items, .ports, .tables, .sets, .retained, .registers, .output] ⊆ ps) :
    Frames ps s (execRotate position thread s) := by
  simp only [List.cons_subset, List.nil_subset, and_true] at hps
  refine State.onData_frames (by simp only [List.cons_subset, List.nil_subset, and_true, hps]) fun w th d => ?_
  simp only [↓Dev.shift_besides, List.cons_subset, List.nil_subset, and_true, hps]

theorem execFieldExtract_frames (position thread : Nat) (s : State) (hps : [.start, .positions, .power, .links, .functions, .channels,
    .routes, .rings, .items, .ports, .tables, .sets, .retained, .registers, .output] ⊆ ps) :
    Frames ps s (execFieldExtract position thread s) := by
  simp only [List.cons_subset, List.nil_subset, and_true] at hps
  refine State.onData_frames (by simp only [List.cons_subset, List.nil_subset, and_true, hps]) fun w th d => ?_
  simp only [↓Dev.shift_besides, List.cons_subset, List.nil_subset, and_true, hps]

theorem execFieldInsert_frames (position thread : Nat) (s : State) (hps : [.start, .positions, .power, .links, .functions, .channels,
    .routes, .rings, .items, .ports, .tables, .sets, .retained, .registers, .output] ⊆ ps) :
    Frames ps s (execFieldInsert position thread s) := by
  simp only [List.cons_subset, List.nil_subset, and_true] at hps
  refine State.onData_frames (by simp only [List.cons_subset, List.nil_subset, and_true, hps]) fun w th d => ?_
  simp only [↓Dev.shift_besides, List.cons_subset, List.nil_subset, and_true, hps]

theorem execLoad8b_frames (position thread : Nat) (s : State) (hps : [.start, .positions, .power, .links, .functions, .channels, .routes,
    .rings, .items, .ports, .tables, .sets, .retained, .registers, .output] ⊆ ps) :
    Frames ps s (execLoad8b position thread s) := by
  simp only [List.cons_subset, List.nil_subset, and_true] at hps
  refine State.onData_frames (by simp only [List.cons_subset, List.nil_subset, and_true, hps]) fun w th d => ?_
  simp only [↓Dev.load8_besides, ↓Dev.setReg_besides, List.cons_subset, List.nil_subset, and_true, hps]

theorem execStore8b_frames (position thread : Nat) (s : State) (hps : [.start, .positions, .power, .links, .functions, .channels, .routes,
    .rings, .items, .ports, .tables, .sets, .stream, .retained, .registers, .output] ⊆ ps) :
    Frames ps s (execStore8b position thread s) := by
  simp only [List.cons_subset, List.nil_subset, and_true] at hps
  refine State.onData_frames (by simp only [List.cons_subset, List.nil_subset, and_true, hps]) fun w th d => ?_
  simp only [↓Dev.store8_besides, List.cons_subset, List.nil_subset, and_true, hps]

theorem execAtomicAdd_frames (position thread : Nat) (s : State) (hps : [.start, .positions, .power, .links, .functions, .channels,
    .routes, .rings, .items, .ports, .tables, .sets, .retained, .registers, .output] ⊆ ps) :
    Frames ps s (execAtomicAdd position thread s) := by
  simp only [List.cons_subset, List.nil_subset, and_true] at hps
  refine State.onData_frames (by simp only [List.cons_subset, List.nil_subset, and_true, hps]) fun w th d => ?_
  simp only [↓Dev.onSite_besides, ↓Dev.setReg_besides, ↓Dev.besides_ite, ite_self, List.cons_subset, List.nil_subset, and_true, hps]

theorem execCompareAndSwap_frames (position thread : Nat) (s : State) (hps : [.start, .positions, .power, .links, .functions, .channels,
    .routes, .rings, .items, .ports, .tables, .sets, .retained, .registers, .output] ⊆ ps) :
    Frames ps s (execCompareAndSwap position thread s) := by
  simp only [List.cons_subset, List.nil_subset, and_true] at hps
  refine State.onData_frames (by simp only [List.cons_subset, List.nil_subset, and_true, hps]) fun w th d => ?_
  simp only [↓Dev.onSite_besides, ↓Dev.setReg_besides, ↓Dev.besides_ite, ite_self, List.cons_subset, List.nil_subset, and_true, hps]

theorem execReadHead_frames (position thread : Nat) (s : State) (hps : [.start, .positions, .power, .links, .functions, .channels, .routes,
    .rings, .items, .ports, .tables, .sets, .retained, .registers, .output] ⊆ ps) :
    Frames ps s (execReadHead position thread s) := by
  simp only [List.cons_subset, List.nil_subset, and_true] at hps
  refine State.onData_frames (by simp only [List.cons_subset, List.nil_subset, and_true, hps]) fun w th d => ?_
  simp only [↓Dev.setReg_besides, List.cons_subset, List.nil_subset, and_true, hps]

theorem execReadParseRecord_frames (position thread : Nat) (s : State) (hps : [.start, .positions, .power, .links, .functions, .channels,
    .routes, .rings, .items, .ports, .tables, .sets, .retained, .registers, .output] ⊆ ps) :
    Frames ps s (execReadParseRecord position thread s) := by
  simp only [List.cons_subset, List.nil_subset, and_true] at hps
  refine State.onData_frames (by simp only [List.cons_subset, List.nil_subset, and_true, hps]) fun w th d => ?_
  simp only [↓Dev.setReg_besides, List.cons_subset, List.nil_subset, and_true, hps]

theorem execReadPacketBuffer_frames (position thread : Nat) (s : State) (hps : [.start, .positions, .power, .links, .functions, .channels,
    .routes, .rings, .items, .ports, .tables, .sets, .retained, .registers, .output] ⊆ ps) :
    Frames ps s (execReadPacketBuffer position thread s) := by
  simp only [List.cons_subset, List.nil_subset, and_true] at hps
  refine State.onData_frames (by simp only [List.cons_subset, List.nil_subset, and_true, hps]) fun w th d => ?_
  simp only [↓Dev.onThread_besides, List.cons_subset, List.nil_subset, and_true, hps]

theorem execAppendEdit_frames (position thread : Nat) (edit : Edit) (s : State) (hps : [.start, .positions, .power, .links, .functions,
    .channels, .routes, .rings, .items, .ports, .tables, .sets, .retained, .registers, .output] ⊆ ps) :
    Frames ps s (execAppendEdit position thread edit s) := by
  simp only [List.cons_subset, List.nil_subset, and_true] at hps
  refine State.onData_frames (by simp only [List.cons_subset, List.nil_subset, and_true, hps]) fun w th d => ?_
  simp only [↓Dev.addEdit_besides, List.cons_subset, List.nil_subset, and_true, hps]

theorem execReadLedgerFields_frames (position thread : Nat) (s : State) (hps : [.start, .positions, .power, .links, .functions, .channels,
    .routes, .rings, .items, .ports, .tables, .sets, .retained, .registers, .output] ⊆ ps) :
    Frames ps s (execReadLedgerFields position thread s) := by
  simp only [List.cons_subset, List.nil_subset, and_true] at hps
  refine State.onData_frames (by simp only [List.cons_subset, List.nil_subset, and_true, hps]) fun w th d => ?_
  simp only [↓Dev.setReg_besides, List.cons_subset, List.nil_subset, and_true, hps]

theorem execPayloadRead_frames (position thread : Nat) (s : State) (hps : [.start, .positions, .power, .links, .functions, .channels,
    .routes, .rings, .items, .ports, .tables, .sets, .retained, .registers, .output] ⊆ ps) :
    Frames ps s (execPayloadRead position thread s) := by
  simp only [List.cons_subset, List.nil_subset, and_true] at hps
  refine State.onData_frames (by simp only [List.cons_subset, List.nil_subset, and_true, hps]) fun w th d => ?_
  simp only [↓Dev.assist_besides, ↓Dev.issuePayload_besides, List.cons_subset, List.nil_subset, and_true, implies_true, hps]

theorem execParse_frames (position thread : Nat) (s : State) (hps : [.start, .positions, .power, .links, .functions, .channels, .routes,
    .rings, .items, .ports, .tables, .sets, .retained, .registers, .output] ⊆ ps) :
    Frames ps s (execParse position thread s) := by
  simp only [List.cons_subset, List.nil_subset, and_true] at hps
  refine State.onData_frames (by simp only [List.cons_subset, List.nil_subset, and_true, hps]) fun w th d => ?_
  simp only [↓Dev.assist_besides, ↓Dev.onItem_besides, ↓Dev.besides_ite, ite_self, List.cons_subset, List.nil_subset, and_true, implies_true, hps]

theorem execClassify_frames (position thread : Nat) (s : State) (hps : [.start, .positions, .power, .links, .functions, .channels, .routes,
    .rings, .items, .ports, .tables, .sets, .retained, .registers, .output] ⊆ ps) :
    Frames ps s (execClassify position thread s) := by
  simp only [List.cons_subset, List.nil_subset, and_true] at hps
  refine State.onData_frames (by simp only [List.cons_subset, List.nil_subset, and_true, hps]) fun w th d => ?_
  simp only [↓Dev.assist_besides, ↓Dev.classifyTx_besides, ↓Dev.besides_ite, ite_self, List.cons_subset, List.nil_subset, and_true, implies_true, hps]

theorem execLookup_frames (position thread table : Nat) (key : List Byte) (s : State) (hps : [.start, .positions, .power, .links,
    .functions, .channels, .routes, .rings, .items, .ports, .tables, .sets, .retained, .registers, .output] ⊆ ps) :
    Frames ps s (execLookup position thread table key s) := by
  simp only [List.cons_subset, List.nil_subset, and_true] at hps
  refine State.onData_frames (by simp only [List.cons_subset, List.nil_subset, and_true, hps]) fun w th d => ?_
  dsimp only
  repeat' split
  all_goals simp only [↓Dev.assist_besides, ↓Dev.assistLookup_besides, ↓Dev.assistOpen_besides, List.cons_subset, List.nil_subset,
      and_true, implies_true, hps]

theorem execChecksum_frames (position thread : Nat) (_off _len : Nat) (s : State) (hps : [.start, .positions, .power, .links, .functions,
    .channels, .routes, .rings, .items, .ports, .tables, .sets, .retained, .registers, .output] ⊆ ps) :
    Frames ps s (execChecksum position thread _off _len s) := by
  simp only [List.cons_subset, List.nil_subset, and_true] at hps
  refine State.onData_frames (by simp only [List.cons_subset, List.nil_subset, and_true, hps]) fun w th d => ?_
  simp only [↓Dev.assistOpen_besides, List.cons_subset, List.nil_subset, and_true, implies_true, hps]

theorem execHash_frames (position thread : Nat) (s : State) (hps : [.start, .positions, .power, .links, .functions, .channels, .routes,
    .rings, .items, .ports, .tables, .sets, .retained, .registers, .output] ⊆ ps) :
    Frames ps s (execHash position thread s) := by
  simp only [List.cons_subset, List.nil_subset, and_true] at hps
  refine State.onData_frames (by simp only [List.cons_subset, List.nil_subset, and_true, hps]) fun w th d => ?_
  simp only [↓Dev.assist_besides, ↓Dev.onItem_besides, ↓Dev.besides_ite, ite_self, List.cons_subset, List.nil_subset, and_true, implies_true, hps]

theorem execHeaderRewrite_frames (position thread : Nat) (edit : Edit) (s : State) (hps : [.start, .positions, .power, .links, .functions,
    .channels, .routes, .rings, .items, .ports, .tables, .sets, .retained, .registers, .output] ⊆ ps) :
    Frames ps s (execHeaderRewrite position thread edit s) := by
  simp only [List.cons_subset, List.nil_subset, and_true] at hps
  refine State.onData_frames (by simp only [List.cons_subset, List.nil_subset, and_true, hps]) fun w th d => ?_
  simp only [↓Dev.addEdit_besides, ↓Dev.request_besides, List.cons_subset, List.nil_subset, and_true, hps]

theorem execSetDestination_frames (position thread : Nat) (dest : Dest) (s : State) (hps : [.start, .positions, .power, .links, .functions,
    .channels, .routes, .rings, .items, .ports, .tables, .sets, .retained, .registers, .output] ⊆ ps) :
    Frames ps s (execSetDestination position thread dest s) := by
  simp only [List.cons_subset, List.nil_subset, and_true] at hps
  refine State.onData_frames (by simp only [List.cons_subset, List.nil_subset, and_true, hps]) fun w th d => ?_
  simp only [↓Dev.assist_besides, ↓Dev.setDest_besides, List.cons_subset, List.nil_subset, and_true, implies_true, hps]

theorem execDropRequest_frames (position thread : Nat) (s : State) (hps : [.start, .positions, .power, .links, .functions, .channels,
    .routes, .rings, .items, .ports, .tables, .sets, .retained, .registers, .output] ⊆ ps) :
    Frames ps s (execDropRequest position thread s) := by
  simp only [List.cons_subset, List.nil_subset, and_true] at hps
  refine State.onData_frames (by simp only [List.cons_subset, List.nil_subset, and_true, hps]) fun w th d => ?_
  split <;> simp only [↓Dev.bump_besides, ↓Dev.onItem_besides, ↓Dev.request_besides, ↓Dev.threadFault_besides, ↓Dev.besides_ite, ite_self,
      List.cons_subset, List.nil_subset, and_true, hps]

theorem execLearnOffer_frames (position thread : Nat) (offer : Offer) (s : State) (hps : [.start, .positions, .power, .links, .functions,
    .channels, .routes, .rings, .items, .ports, .tables, .sets, .retained, .registers, .output] ⊆ ps) :
    Frames ps s (execLearnOffer position thread offer s) := by
  simp only [List.cons_subset, List.nil_subset, and_true] at hps
  refine State.onData_frames (by simp only [List.cons_subset, List.nil_subset, and_true, hps]) fun w th d => ?_
  simp only [↓Dev.assist_besides, ↓Dev.offer_besides, ↓Dev.besides_ite, ite_self, List.cons_subset, List.nil_subset, and_true, implies_true, hps]

theorem execDmaAssist_frames (position thread : Nat) (s : State) (hps : [.start, .positions, .power, .links, .functions, .channels,
    .routes, .rings, .items, .ports, .tables, .sets, .retained, .registers, .output] ⊆ ps) :
    Frames ps s (execDmaAssist position thread s) := by
  simp only [List.cons_subset, List.nil_subset, and_true] at hps
  refine State.onData_frames (by simp only [List.cons_subset, List.nil_subset, and_true, hps]) fun w th d => ?_
  simp only [↓Dev.assist_besides, List.cons_subset, List.nil_subset, and_true, implies_true, hps]

theorem execPartnerChannelSend_frames (position thread : Nat) (s : State) (hps : [.start, .positions, .power, .links, .functions,
    .channels, .routes, .rings, .items, .ports, .tables, .sets, .stream, .retained, .registers, .output] ⊆ ps) :
    Frames ps s (execPartnerChannelSend position thread s) := by
  simp only [List.cons_subset, List.nil_subset, and_true] at hps
  refine State.onData_frames (by simp only [List.cons_subset, List.nil_subset, and_true, hps]) fun w th d => ?_
  dsimp only
  repeat' split
  all_goals simp only [↓Dev.post_besides, ↓Dev.request_besides, ↓Dev.wr_besides, ↓Dev.wrongMid_besides, List.cons_subset, List.nil_subset,
      and_true, hps]

theorem execChannelWrite_frames (position thread : Nat) (s : State) (hps : [.start, .positions, .power, .links, .functions, .channels,
    .routes, .rings, .items, .ports, .tables, .sets, .retained, .registers, .output] ⊆ ps) :
    Frames ps s (execChannelWrite position thread s) := by
  simp only [List.cons_subset, List.nil_subset, and_true] at hps
  refine State.onData_frames (by simp only [List.cons_subset, List.nil_subset, and_true, hps]) fun w th d => ?_
  simp only [↓Dev.onThread_besides, ↓Dev.threadFault_besides, ↓Dev.besides_ite, ite_self, List.cons_subset, List.nil_subset, and_true, hps]

theorem execChannelClose_frames (position thread : Nat) (s : State) (hps : [.start, .positions, .power, .links, .functions, .channels,
    .routes, .rings, .items, .ports, .tables, .sets, .retained, .registers, .output] ⊆ ps) :
    Frames ps s (execChannelClose position thread s) := by
  simp only [List.cons_subset, List.nil_subset, and_true] at hps
  refine State.onData_frames (by simp only [List.cons_subset, List.nil_subset, and_true, hps]) fun w th d => ?_
  split <;> simp only [↓Dev.onSetChan_besides, ↓Dev.onThread_besides, ↓Dev.threadFault_besides, ↓Dev.besides_ite, ite_self,
      List.cons_subset, List.nil_subset, and_true, hps]

theorem execChannelRead_frames (position thread : Nat) (s : State) (hps : [.start, .positions, .power, .links, .functions, .channels,
    .routes, .rings, .items, .ports, .tables, .sets, .retained, .registers, .output] ⊆ ps) :
    Frames ps s (execChannelRead position thread s) := by
  simp only [List.cons_subset, List.nil_subset, and_true] at hps
  refine State.onData_frames (by simp only [List.cons_subset, List.nil_subset, and_true, hps]) fun w th d => ?_
  dsimp only
  repeat' split
  all_goals simp only [↓Dev.onSetChan_besides, ↓Dev.onThread_besides, ↓Dev.threadFault_besides, List.cons_subset, List.nil_subset, and_true, hps]

theorem execChannelDiscard_frames (position thread : Nat) (s : State) (hps : [.start, .positions, .power, .links, .functions, .channels,
    .routes, .rings, .items, .ports, .tables, .sets, .retained, .registers, .output] ⊆ ps) :
    Frames ps s (execChannelDiscard position thread s) := by
  simp only [List.cons_subset, List.nil_subset, and_true] at hps
  refine State.onData_frames (by simp only [List.cons_subset, List.nil_subset, and_true, hps]) fun w th d => ?_
  split <;> simp only [↓Dev.onSetChan_besides, ↓Dev.onThread_besides, ↓Dev.threadFault_besides, List.cons_subset, List.nil_subset, and_true, hps]

theorem execFlagSet_frames (position thread : Nat) (s : State) (hps : [.start, .positions, .power, .links, .functions, .channels, .routes,
    .rings, .items, .ports, .tables, .sets, .retained, .registers, .output] ⊆ ps) :
    Frames ps s (execFlagSet position thread s) := by
  simp only [List.cons_subset, List.nil_subset, and_true] at hps
  refine State.onData_frames (by simp only [List.cons_subset, List.nil_subset, and_true, hps]) fun w th d => ?_
  simp only [↓Dev.putFlag_besides, List.cons_subset, List.nil_subset, and_true, hps]

theorem execFlagClear_frames (position thread : Nat) (s : State) (hps : [.start, .positions, .power, .links, .functions, .channels,
    .routes, .rings, .items, .ports, .tables, .sets, .retained, .registers, .output] ⊆ ps) :
    Frames ps s (execFlagClear position thread s) := by
  simp only [List.cons_subset, List.nil_subset, and_true] at hps
  refine State.onData_frames (by simp only [List.cons_subset, List.nil_subset, and_true, hps]) fun w th d => ?_
  simp only [↓Dev.putFlag_besides, List.cons_subset, List.nil_subset, and_true, hps]

theorem execCounterAdd_frames (position thread cell amount : Nat) (s : State) (hps : [.start, .positions, .power, .links, .functions,
    .channels, .routes, .rings, .items, .ports, .tables, .sets, .retained, .registers, .output] ⊆ ps) :
    Frames ps s (execCounterAdd position thread cell amount s) := by
  simp only [List.cons_subset, List.nil_subset, and_true] at hps
  refine State.onData_frames (by simp only [List.cons_subset, List.nil_subset, and_true, hps]) fun w th d => ?_
  simp only [↓Dev.commit_besides, List.cons_subset, List.nil_subset, and_true, hps]

theorem execStateWrite_frames (position thread cell value : Nat) (s : State) (hps : [.start, .positions, .power, .links, .functions,
    .channels, .routes, .rings, .items, .ports, .tables, .sets, .retained, .registers, .output] ⊆ ps) :
    Frames ps s (execStateWrite position thread cell value s) := by
  simp only [List.cons_subset, List.nil_subset, and_true] at hps
  refine State.onData_frames (by simp only [List.cons_subset, List.nil_subset, and_true, hps]) fun w th d => ?_
  simp only [↓Dev.commit_besides, List.cons_subset, List.nil_subset, and_true, hps]

theorem execSequenceBearingRequest_frames (position thread kind ctx : Nat) (s : State) (hps : [.start, .positions, .power, .links,
    .functions, .channels, .routes, .rings, .items, .ports, .tables, .sets, .retained, .registers, .output] ⊆ ps) :
    Frames ps s (execSequenceBearingRequest position thread kind ctx s) := by
  simp only [List.cons_subset, List.nil_subset, and_true] at hps
  refine State.onData_frames (by simp only [List.cons_subset, List.nil_subset, and_true, hps]) fun w th d => ?_
  simp only [↓Dev.commit_besides, List.cons_subset, List.nil_subset, and_true, hps]

theorem execMctpSetEndpointId_frames (eid : Nat) (s : State) (hps : [.debug, .output] ⊆ ps) :
    Frames ps s (execMctpSetEndpointId eid s) := by
  simp only [List.cons_subset, List.nil_subset, and_true] at hps
  refine State.onDev_frames fun d => ?_
  simp only [↓Dev.emit_besides, ↓Dev.besides_eid, ↓Dev.besides_ite, ite_self, List.cons_subset, List.nil_subset, and_true, hps]

theorem execMctpKeySlotProvision_frames (slot : Nat) (op : KeySlotOp) (s : State) (hps : [.output, .fuses] ⊆ ps) :
    Frames ps s (execMctpKeySlotProvision slot op s) := by
  exact .next (State.provision_besides slot op s hps)

theorem execMctpDiscard_frames (s : State) (hps : [.retained, .output, .flash] ⊆ ps) :
    Frames ps s (execMctpDiscard s) := by
  exact .next ((State.answerSideband_besides _ _ _ (fun p hp => hps (by simp_all))).trans (State.discard_besides s hps))

theorem execMctpIdeKeyLoad_frames (link : Nat) (keys : List Byte) (s : State) (hps : [.links, .retained, .registers, .output] ⊆ ps) :
    Frames ps s (execMctpIdeKeyLoad link keys s) := by
  exact State.onDev_frames fun d => Dev.loadIdeKeys_besides link keys d hps

theorem execMctpFaultLogRead_frames (slot : Nat) (s : State) (hps : [.output] ⊆ ps) :
    Frames ps s (execMctpFaultLogRead slot s) := by
  simp only [List.cons_subset, List.nil_subset, and_true] at hps
  refine State.onDev_frames fun d => ?_
  simp only [↓Dev.emit_besides, List.cons_subset, List.nil_subset, and_true, hps]

theorem execPldmSensorRead_frames (sensor : Sensor) (s : State) (hps : [.output] ⊆ ps) :
    Frames ps s (execPldmSensorRead sensor s) := by
  exact State.onDev_frames fun d => Dev.sensorRead_besides sensor d hps

theorem execPldmFirmwareUpdate_frames (img : Image) (s : State) (hps : [.start, .output, .flash] ⊆ ps) :
    Frames ps s (execPldmFirmwareUpdate img s) := by
  exact .next (State.pldmUpdate_besides img s hps)

theorem execGetVersion_frames (via : SpdmPath) (s : State) (hps : [.output] ⊆ ps) :
    Frames ps s (execGetVersion via s) := by
  refine State.spdm_frames hps fun d => ?_
  simp only [List.cons_subset, List.nil_subset, and_true] at hps
  simp only [↓Dev.emit_besides, List.cons_subset, List.nil_subset, and_true, hps]

theorem execGetCapabilities_frames (via : SpdmPath) (s : State) (hps : [.output] ⊆ ps) :
    Frames ps s (execGetCapabilities via s) := by
  refine State.spdm_frames hps fun d => ?_
  simp only [List.cons_subset, List.nil_subset, and_true] at hps
  simp only [↓Dev.emit_besides, List.cons_subset, List.nil_subset, and_true, hps]

theorem execNegotiateAlgorithms_frames (via : SpdmPath) (s : State) (hps : [.output] ⊆ ps) :
    Frames ps s (execNegotiateAlgorithms via s) := by
  refine State.spdm_frames hps fun d => ?_
  simp only [List.cons_subset, List.nil_subset, and_true] at hps
  simp only [↓Dev.emit_besides, List.cons_subset, List.nil_subset, and_true, hps]

theorem execGetDigests_frames (via : SpdmPath) (s : State) (hps : [.output] ⊆ ps) :
    Frames ps s (execGetDigests via s) := by
  refine State.spdm_frames hps fun d => ?_
  simp only [List.cons_subset, List.nil_subset, and_true] at hps
  simp only [↓Dev.emit_besides, ↓Dev.free_besides, List.cons_subset, List.nil_subset, and_true, hps]

theorem execGetCertificate_frames (via : SpdmPath) (slot off len : Nat) (s : State) (hps : [.output] ⊆ ps) :
    Frames ps s (execGetCertificate via slot off len s) := by
  refine State.spdm_frames hps fun d => ?_
  simp only [List.cons_subset, List.nil_subset, and_true] at hps
  simp only [↓Dev.emit_besides, ↓Dev.free_besides, List.cons_subset, List.nil_subset, and_true, hps]

theorem execChallenge_frames (via : SpdmPath) (slot nonce : Nat) (s : State) (hps : [.output] ⊆ ps) :
    Frames ps s (execChallenge via slot nonce s) := by
  refine State.spdm_frames hps fun d => ?_
  simp only [List.cons_subset, List.nil_subset, and_true] at hps
  simp only [↓Dev.emit_besides, ↓Dev.free_besides, List.cons_subset, List.nil_subset, and_true, hps]

theorem execGetMeasurements_frames (via : SpdmPath) (index nonce : Nat) (s : State) (hps : [.output] ⊆ ps) :
    Frames ps s (execGetMeasurements via index nonce s) := by
  refine State.spdm_frames hps fun d => ?_
  simp only [List.cons_subset, List.nil_subset, and_true] at hps
  dsimp only
  repeat' split
  all_goals simp only [↓Dev.emit_besides, ↓Dev.free_besides, List.cons_subset, List.nil_subset, and_true, hps]

theorem execDoeDiscovery_frames (pf index : Nat) (s : State) (hps : [.output] ⊆ ps) :
    Frames ps s (execDoeDiscovery pf index s) := by
  simp only [List.cons_subset, List.nil_subset, and_true] at hps
  refine State.onDev_frames fun d => ?_
  simp only [↓Dev.emit_besides, ↓Dev.besides_ite, ite_self, List.cons_subset, List.nil_subset, and_true, hps]

end Sys2Proof.Machine
end

section
/-!
The statements about every command: its answer, and what it leaves.
-/

namespace Sys2Proof.Machine

variable {ps : List Part}

theorem exec_frames (c : Instr) (s : State) : Frames (mayChange c) s (exec c s) := by
  cases c with
  | mbxSend => exact execMbxSend_frames (hps := List.Subset.refl _) ..
  | mbxRxLatch => exact execMbxRxLatch_frames (hps := List.Subset.refl _) ..
  | mbxRxAck => exact execMbxRxAck_frames (hps := List.Subset.refl _) ..
  | doorbellProducerWrite => exact execDoorbellProducerWrite_frames (hps := List.Subset.refl _) ..
  | doorbellCqHeadWrite => exact execDoorbellCqHeadWrite_frames (hps := List.Subset.refl _) ..
  | irqTimeExpiry => exact execIrqTimeExpiry_frames (hps := List.Subset.refl _) ..
  | qmgCtxSnap => exact execQmgCtxSnap_frames (hps := List.Subset.refl _) ..
  | qmgCtxSnapDone => exact execQmgCtxSnapDone_frames (hps := List.Subset.refl _) ..
  | qmgErrFifoRead => exact execQmgErrFifoRead_frames (hps := List.Subset.refl _) ..
  | mtbRead => exact execMtbRead_frames (hps := List.Subset.refl _) ..
  | mtbWrite => exact execMtbWrite_frames (hps := List.Subset.refl _) ..
  | mtbInsert => exact execMtbInsert_frames (hps := List.Subset.refl _) ..
  | mtbDelete => exact execMtbDelete_frames (hps := List.Subset.refl _) ..
  | mtbSearch => exact execMtbSearch_frames (hps := List.Subset.refl _) ..
  | mtbAgeQuery => exact execMtbAgeQuery_frames (hps := List.Subset.refl _) ..
  | mtbStage => exact execMtbStage_frames (hps := List.Subset.refl _) ..
  | mtbDirectWrite => exact execMtbDirectWrite_frames (hps := List.Subset.refl _) ..
  | mtbDirectRead => exact execMtbDirectRead_frames (hps := List.Subset.refl _) ..
  | prefixAdd => exact execPrefixAdd_frames (hps := List.Subset.refl _) ..
  | prefixDelete => exact execPrefixDelete_frames (hps := List.Subset.refl _) ..
  | prefixSearch => exact execPrefixSearch_frames (hps := List.Subset.refl _) ..
  | ternaryWrite => exact execTernaryWrite_frames (hps := List.Subset.refl _) ..
  | ternaryRead => exact execTernaryRead_frames (hps := List.Subset.refl _) ..
  | mtbCommandDone => exact execMtbCommandDone_frames (hps := List.Subset.refl _) ..
  | learnOfferProcess => exact execLearnOfferProcess_frames (hps := List.Subset.refl _) ..
  | ageScanVisit => exact execAgeScanVisit_frames (hps := List.Subset.refl _) ..
  | rehashStart => exact execRehashStart_frames (hps := List.Subset.refl _) ..
  | rehashResume => exact execRehashResume_frames (hps := List.Subset.refl _) ..
  | rehashWalkBucket => exact execRehashWalkBucket_frames (hps := List.Subset.refl _) ..
  | compareStart => exact execCompareStart_frames (hps := List.Subset.refl _) ..
  | compareRegion => exact execCompareRegion_frames (hps := List.Subset.refl _) ..
  | compareRecheck => exact execCompareRecheck_frames (hps := List.Subset.refl _) ..
  | compareIntervalExpiry => exact execCompareIntervalExpiry_frames (hps := List.Subset.refl _) ..
  | compareFifoRead => exact execCompareFifoRead_frames (hps := List.Subset.refl _) ..
  | cryCtxSnap => exact execCryCtxSnap_frames (hps := List.Subset.refl _) ..
  | cryCtxSnapDone => exact execCryCtxSnapDone_frames (hps := List.Subset.refl _) ..
  | tempoTick => exact execTempoTick_frames (hps := List.Subset.refl _) ..
  | referenceLost => exact execReferenceLost_frames (hps := List.Subset.refl _) ..
  | referenceRestored => exact execReferenceRestored_frames (hps := List.Subset.refl _) ..
  | uncertaintyUpdate => exact execUncertaintyUpdate_frames (hps := List.Subset.refl _) ..
  | holdoverEntry => exact execHoldoverEntry_frames (hps := List.Subset.refl _) ..
  | incrementCommit => exact execIncrementCommit_frames (hps := List.Subset.refl _) ..
  | domainSet => exact execDomainSet_frames (hps := List.Subset.refl _) ..
  | domainAdd => exact execDomainAdd_frames (hps := List.Subset.refl _) ..
  | domainTimeRead => exact execDomainTimeRead_frames (hps := List.Subset.refl _) ..
  | tempoSnapshot => exact execTempoSnapshot_frames (hps := List.Subset.refl _) ..
  | domainAnchor => exact execDomainAnchor_frames (hps := List.Subset.refl _) ..
  | slotArm => exact execSlotArm_frames (hps := List.Subset.refl _) ..
  | slotDisarm => exact execSlotDisarm_frames (hps := List.Subset.refl _) ..
  | slotSwitch => exact execSlotSwitch_frames (hps := List.Subset.refl _) ..
  | slotPulse => exact execSlotPulse_frames (hps := List.Subset.refl _) ..
  | pulseWidthEnd => exact execPulseWidthEnd_frames (hps := List.Subset.refl _) ..
  | slewComplete => exact execSlewComplete_frames (hps := List.Subset.refl _) ..
  | timeIoEdge => exact execTimeIoEdge_frames (hps := List.Subset.refl _) ..
  | captureIntervalEnd => exact execCaptureIntervalEnd_frames (hps := List.Subset.refl _) ..
  | pinConfigWrite => exact execPinConfigWrite_frames (hps := List.Subset.refl _) ..
  | portUp => exact execPortUp_frames (hps := List.Subset.refl _) ..
  | portDown => exact execPortDown_frames (hps := List.Subset.refl _) ..
  | laneCalibrationDone => exact execLaneCalibrationDone_frames (hps := List.Subset.refl _) ..
  | laneCalCheck => exact execLaneCalCheck_frames (hps := List.Subset.refl _) ..
  | frameTransmit => exact execFrameTransmit_frames (hps := List.Subset.refl _) ..
  | launchTime => exact execLaunchTime_frames (hps := List.Subset.refl _) ..
  | pauseFrame => exact execPauseFrame_frames (hps := List.Subset.refl _) ..
  | pfcFrame => exact execPfcFrame_frames (hps := List.Subset.refl _) ..
  | pauseTimerExpiry => exact execPauseTimerExpiry_frames (hps := List.Subset.refl _) ..
  | xoffRefresh => exact execXoffRefresh_frames (hps := List.Subset.refl _) ..
  | stormWatchdogExpiry => exact execStormWatchdogExpiry_frames (hps := List.Subset.refl _) ..
  | stormEnd => exact execStormEnd_frames (hps := List.Subset.refl _) ..
  | lpiIdleExpiry => exact execLpiIdleExpiry_frames (hps := List.Subset.refl _) ..
  | peerLpiChange => exact execPeerLpiChange_frames (hps := List.Subset.refl _) ..
  | flexeCalendarSwitch => exact execFlexeCalendarSwitch_frames (hps := List.Subset.refl _) ..
  | flexeSwitchDone => exact execFlexeSwitchDone_frames (hps := List.Subset.refl _) ..
  | flexeSwitchTimeout => exact execFlexeSwitchTimeout_frames (hps := List.Subset.refl _) ..
  | flexeOverheadLockLoss => exact execFlexeOverheadLockLoss_frames (hps := List.Subset.refl _) ..
  | macCounterRead => exact execMacCounterRead_frames (hps := List.Subset.refl _) ..
  | paceMeasure => exact execPaceMeasure_frames (hps := List.Subset.refl _) ..
  | paceLowPersist => exact execPaceLowPersist_frames (hps := List.Subset.refl _) ..
  | governorTick => exact execGovernorTick_frames (hps := List.Subset.refl _) ..
  | boostIntervalExpiry => exact execBoostIntervalExpiry_frames (hps := List.Subset.refl _) ..
  | boostBucketAge => exact execBoostBucketAge_frames (hps := List.Subset.refl _) ..
  | avsTransactionDone => exact execAvsTransactionDone_frames (hps := List.Subset.refl _) ..
  | avsRetryExpiry => exact execAvsRetryExpiry_frames (hps := List.Subset.refl _) ..
  | powerPublish => exact execPowerPublish_frames (hps := List.Subset.refl _) ..
  | tjSample => exact execTjSample_frames (hps := List.Subset.refl _) ..
  | domainOffCmd => exact execDomainOffCmd_frames (hps := List.Subset.refl _) ..
  | domainWakeCmd => exact execDomainWakeCmd_frames (hps := List.Subset.refl _) ..
  | domainReady => exact execDomainReady_frames (hps := List.Subset.refl _) ..
  | frameReceived => exact execFrameReceived_frames (hps := List.Subset.refl _) ..
  | losslessFifoAdmit => exact execLosslessFifoAdmit_frames (hps := List.Subset.refl _) ..
  | txDescriptorPlain => exact execTxDescriptorPlain_frames (hps := List.Subset.refl _) ..
  | txDescriptorOffload => exact execTxDescriptorOffload_frames (hps := List.Subset.refl _) ..
  | txDescriptorNoop => exact execTxDescriptorNoop_frames (hps := List.Subset.refl _) ..
  | itemDispatch => exact execItemDispatch_frames (hps := List.Subset.refl _) ..
  | threadStartPass => exact execThreadStartPass_frames (hps := List.Subset.refl _) ..
  | channelWordDelivery => exact execChannelWordDelivery_frames (hps := List.Subset.refl _) ..
  | assistAnswer => exact execAssistAnswer_frames (hps := List.Subset.refl _) ..
  | waitLimitExpiry => exact execWaitLimitExpiry_frames (hps := List.Subset.refl _) ..
  | standstill => exact execStandstill_frames (hps := List.Subset.refl _) ..
  | dbgStop => exact execDbgStop_frames (hps := List.Subset.refl _) ..
  | dbgResume => exact execDbgResume_frames (hps := List.Subset.refl _) ..
  | dbgStep => exact execDbgStep_frames (hps := List.Subset.refl _) ..
  | dbgKill => exact execDbgKill_frames (hps := List.Subset.refl _) ..
  | csRead => exact execCsRead_frames (hps := List.Subset.refl _) ..
  | csWrite => exact execCsWrite_frames (hps := List.Subset.refl _) ..
  | owedCompletionWrite => exact execOwedCompletionWrite_frames (hps := List.Subset.refl _) ..
  | waitingFrameDelivery => exact execWaitingFrameDelivery_frames (hps := List.Subset.refl _) ..
  | switchedWaitExpiry => exact execSwitchedWaitExpiry_frames (hps := List.Subset.refl _) ..
  | launchGateOpen => exact execLaunchGateOpen_frames (hps := List.Subset.refl _) ..
  | send => exact execSend_frames (hps := List.Subset.refl _) ..
  | sendWithImmediate => exact execSendWithImmediate_frames (hps := List.Subset.refl _) ..
  | rdmaWrite => exact execRdmaWrite_frames (hps := List.Subset.refl _) ..
  | rdmaWriteWithImmediate => exact execRdmaWriteWithImmediate_frames (hps := List.Subset.refl _) ..
  | rdmaRead => exact execRdmaRead_frames (hps := List.Subset.refl _) ..
  | recv => exact execRecv_frames (hps := List.Subset.refl _) ..
  | cnpRateStep => exact execCnpRateStep_frames (hps := List.Subset.refl _) ..
  | nvmeSqTailDoorbell => exact execNvmeSqTailDoorbell_frames (hps := List.Subset.refl _) ..
  | nvmeCcEnClear => exact execNvmeCcEnClear_frames (hps := List.Subset.refl _) ..
  | nvmeCcEnSet => exact execNvmeCcEnSet_frames (hps := List.Subset.refl _) ..
  | nvmeIdentify => exact execNvmeIdentify_frames (hps := List.Subset.refl _) ..
  | nvmeCreateIoSq => exact execNvmeCreateIoSq_frames (hps := List.Subset.refl _) ..
  | nvmeCreateIoCq => exact execNvmeCreateIoCq_frames (hps := List.Subset.refl _) ..
  | nvmeDeleteIoSq => exact execNvmeDeleteIoSq_frames (hps := List.Subset.refl _) ..
  | nvmeDeleteIoCq => exact execNvmeDeleteIoCq_frames (hps := List.Subset.refl _) ..
  | nvmeGetFeatures => exact execNvmeGetFeatures_frames (hps := List.Subset.refl _) ..
  | nvmeSetFeatures => exact execNvmeSetFeatures_frames (hps := List.Subset.refl _) ..
  | nvmeGetLogPage => exact execNvmeGetLogPage_frames (hps := List.Subset.refl _) ..
  | nvmeAbort => exact execNvmeAbort_frames (hps := List.Subset.refl _) ..
  | nvmeAsyncEventRequest => exact execNvmeAsyncEventRequest_frames (hps := List.Subset.refl _) ..
  | nvmeRead => exact execNvmeRead_frames (hps := List.Subset.refl _) ..
  | nvmeWrite => exact execNvmeWrite_frames (hps := List.Subset.refl _) ..
  | nvmeFlush => exact execNvmeFlush_frames (hps := List.Subset.refl _) ..
  | nvmeWriteZeroes => exact execNvmeWriteZeroes_frames (hps := List.Subset.refl _) ..
  | nvmeDatasetManagement => exact execNvmeDatasetManagement_frames (hps := List.Subset.refl _) ..
  | itemRetire => exact execItemRetire_frames (hps := List.Subset.refl _) ..
  | roceAckTimeout => exact execRoceAckTimeout_frames (hps := List.Subset.refl _) ..
  | nvmeTcpRtoExpiry => exact execNvmeTcpRtoExpiry_frames (hps := List.Subset.refl _) ..
  | dmaStart => exact execDmaStart_frames (hps := List.Subset.refl _) ..
  | dmaStop mid channel => exact execDmaStop_frames mid channel s (List.Subset.refl _)
  | dmaResume mid channel => exact execDmaResume_frames mid channel s (List.Subset.refl _)
  | dmaRequest mid channel => exact execDmaRequest_frames mid channel s (List.Subset.refl _)
  | dmaDescriptorFetched => exact execDmaDescriptorFetched_frames (hps := List.Subset.refl _) ..
  | dmaBurstStart => exact execDmaBurstStart_frames (hps := List.Subset.refl _) ..
  | stpTrainingDone => exact execStpTrainingDone_frames (hps := List.Subset.refl _) ..
  | stpTrainingRetry => exact execStpTrainingRetry_frames (hps := List.Subset.refl _) ..
  | stpFlitSend => exact execStpFlitSend_frames (hps := List.Subset.refl _) ..
  | stpDataFlit => exact execStpDataFlit_frames (hps := List.Subset.refl _) ..
  | stpDataLastFlit => exact execStpDataLastFlit_frames (hps := List.Subset.refl _) ..
  | stpMessageFlit => exact execStpMessageFlit_frames (hps := List.Subset.refl _) ..
  | stpControlFlit => exact execStpControlFlit_frames (hps := List.Subset.refl _) ..
  | stpIdleFlit => exact execStpIdleFlit_frames (hps := List.Subset.refl _) ..
  | stpFlitDiscard => exact execStpFlitDiscard_frames (hps := List.Subset.refl _) ..
  | stpAckTimeout => exact execStpAckTimeout_frames (hps := List.Subset.refl _) ..
  | stpMatchTimeout => exact execStpMatchTimeout_frames (hps := List.Subset.refl _) ..
  | stpPeerDown => exact execStpPeerDown_frames (hps := List.Subset.refl _) ..
  | bulkTransfer => exact execBulkTransfer_frames (hps := List.Subset.refl _) ..
  | cancel => exact execCancel_frames (hps := List.Subset.refl _) ..
  | dmaBurstComplete => exact execDmaBurstComplete_frames (hps := List.Subset.refl _) ..
  | perstNAssert => exact execPerstNAssert_frames (hps := List.Subset.refl _) ..
  | perstNDeassert => exact execPerstNDeassert_frames (hps := List.Subset.refl _) ..
  | hotReset => exact execHotReset_frames (hps := List.Subset.refl _) ..
  | dlDown => exact execDlDown_frames (hps := List.Subset.refl _) ..
  | linkUp => exact execLinkUp_frames (hps := List.Subset.refl _) ..
  | initiateFlr => exact execInitiateFlr_frames (hps := List.Subset.refl _) ..
  | resetSquashComplete => exact execResetSquashComplete_frames (hps := List.Subset.refl _) ..
  | busMasterEnableClear => exact execBusMasterEnableClear_frames (hps := List.Subset.refl _) ..
  | busMasterEnableSet => exact execBusMasterEnableSet_frames (hps := List.Subset.refl _) ..
  | vfEnableSet => exact execVfEnableSet_frames (hps := List.Subset.refl _) ..
  | vfEnableClear => exact execVfEnableClear_frames (hps := List.Subset.refl _) ..
  | drainEnd => exact execDrainEnd_frames (hps := List.Subset.refl _) ..
  | msixVectorUnmask => exact execMsixVectorUnmask_frames (hps := List.Subset.refl _) ..
  | atsInvalidateRequest => exact execAtsInvalidateRequest_frames (hps := List.Subset.refl _) ..
  | ideIntegrityFailure => exact execIdeIntegrityFailure_frames (hps := List.Subset.refl _) ..
  | p2pCommit => exact execP2pCommit_frames (hps := List.Subset.refl _) ..
  | p2pCommitDone => exact execP2pCommitDone_frames (hps := List.Subset.refl _) ..
  | aspmL1Entry => exact execAspmL1Entry_frames (hps := List.Subset.refl _) ..
  | setFault => exact execSetFault_frames (hps := List.Subset.refl _) ..
  | replayDone => exact execReplayDone_frames (hps := List.Subset.refl _) ..
  | sitoutGraceExpiry => exact execSitoutGraceExpiry_frames (hps := List.Subset.refl _) ..
  | thermalSitout => exact execThermalSitout_frames (hps := List.Subset.refl _) ..
  | thermalRejoin => exact execThermalRejoin_frames (hps := List.Subset.refl _) ..
  | cryptoInstanceFault => exact execCryptoInstanceFault_frames (hps := List.Subset.refl _) ..
  | inboundEspJobDone => exact execInboundEspJobDone_frames (hps := List.Subset.refl _) ..
  | figureFullPersist => exact execFigureFullPersist_frames (hps := List.Subset.refl _) ..
  | lgrFailLogRead => exact execLgrFailLogRead_frames (hps := List.Subset.refl _) ..
  | standbyPowerOn => exact execStandbyPowerOn_frames (hps := List.Subset.refl _) ..
  | mainRailFail => exact execMainRailFail_frames (hps := List.Subset.refl _) ..
  | standbyBrownout => exact execStandbyBrownout_frames (hps := List.Subset.refl _) ..
  | sysRstNAssert => exact execSysRstNAssert_frames (hps := List.Subset.refl _) ..
  | testenAssert => exact execTestenAssert_frames (hps := List.Subset.refl _) ..
  | coldStart => exact execColdStart_frames (hps := List.Subset.refl _) ..
  | mainRailsRestored => exact execMainRailsRestored_frames (hps := List.Subset.refl _) ..
  | serviceReset => exact execServiceReset_frames (hps := List.Subset.refl _) ..
  | serviceResetCommand => exact execServiceResetCommand_frames (hps := List.Subset.refl _) ..
  | serviceReplayDone => exact execServiceReplayDone_frames (hps := List.Subset.refl _) ..
  | snapshotNow => exact execSnapshotNow_frames (hps := List.Subset.refl _) ..
  | snapshotIntervalExpiry => exact execSnapshotIntervalExpiry_frames (hps := List.Subset.refl _) ..
  | snapshotWriteDone => exact execSnapshotWriteDone_frames (hps := List.Subset.refl _) ..
  | orderlyShutdown => exact execOrderlyShutdown_frames (hps := List.Subset.refl _) ..
  | shutdownDrainDone => exact execShutdownDrainDone_frames (hps := List.Subset.refl _) ..
  | confirmTrial => exact execConfirmTrial_frames (hps := List.Subset.refl _) ..
  | discardRetained => exact execDiscardRetained_frames (hps := List.Subset.refl _) ..
  | retentionRecordClose => exact execRetentionRecordClose_frames (hps := List.Subset.refl _) ..
  | thermtrip => exact execThermtrip_frames (hps := List.Subset.refl _) ..
  | memoryScrub => exact execMemoryScrub_frames (hps := List.Subset.refl _) ..
  | eccError => exact execEccError_frames (hps := List.Subset.refl _) ..
  | handshakeTimeout => exact execHandshakeTimeout_frames (hps := List.Subset.refl _) ..
  | hbmStackLost => exact execHbmStackLost_frames (hps := List.Subset.refl _) ..
  | moverFault => exact execMoverFault_frames (hps := List.Subset.refl _) ..
  | controlCoreFault => exact execControlCoreFault_frames (hps := List.Subset.refl _) ..
  | faultAck => exact execFaultAck_frames (hps := List.Subset.refl _) ..
  | barStart => exact execBarStart_frames (hps := List.Subset.refl _) ..
  | schNodeRead => exact execSchNodeRead_frames (hps := List.Subset.refl _) ..
  | schNodeWrite => exact execSchNodeWrite_frames (hps := List.Subset.refl _) ..
  | schNodeCmdDone => exact execSchNodeCmdDone_frames (hps := List.Subset.refl _) ..
  | ringGroupCreate => exact execRingGroupCreate_frames (hps := List.Subset.refl _) ..
  | ringGroupDestroy => exact execRingGroupDestroy_frames (hps := List.Subset.refl _) ..
  | ringCreate => exact execRingCreate_frames (hps := List.Subset.refl _) ..
  | ringEnable => exact execRingEnable_frames (hps := List.Subset.refl _) ..
  | ringDisable => exact execRingDisable_frames (hps := List.Subset.refl _) ..
  | ringRestart => exact execRingRestart_frames (hps := List.Subset.refl _) ..
  | ringDestroy => exact execRingDestroy_frames (hps := List.Subset.refl _) ..
  | ringTune => exact execRingTune_frames (hps := List.Subset.refl _) ..
  | tenantCreate => exact execTenantCreate_frames (hps := List.Subset.refl _) ..
  | tenantDestroy => exact execTenantDestroy_frames (hps := List.Subset.refl _) ..
  | vfAssign => exact execVfAssign_frames (hps := List.Subset.refl _) ..
  | vfProperties => exact execVfProperties_frames (hps := List.Subset.refl _) ..
  | functionReset => exact execFunctionReset_frames (hps := List.Subset.refl _) ..
  | contextCreate => exact execContextCreate_frames (hps := List.Subset.refl _) ..
  | contextChange => exact execContextChange_frames (hps := List.Subset.refl _) ..
  | contextDestroy => exact execContextDestroy_frames (hps := List.Subset.refl _) ..
  | epilogueResend => exact execEpilogueResend_frames (hps := List.Subset.refl _) ..
  | getConfiguration => exact execGetConfiguration_frames (hps := List.Subset.refl _) ..
  | setMacFilter => exact execSetMacFilter_frames (hps := List.Subset.refl _) ..
  | setVlanFilter => exact execSetVlanFilter_frames (hps := List.Subset.refl _) ..
  | linkQuery => exact execLinkQuery_frames (hps := List.Subset.refl _) ..
  | s44SoftReset => exact execS44SoftReset_frames (hps := List.Subset.refl _) ..
  | s44QueueEnable => exact execS44QueueEnable_frames (hps := List.Subset.refl _) ..
  | s44QueueDisable => exact execS44QueueDisable_frames (hps := List.Subset.refl _) ..
  | sitOut => exact execSitOut_frames (hps := List.Subset.refl _) ..
  | rejoin => exact execRejoin_frames (hps := List.Subset.refl _) ..
  | rejoinTestDone => exact execRejoinTestDone_frames (hps := List.Subset.refl _) ..
  | imageStage => exact execImageStage_frames (hps := List.Subset.refl _) ..
  | imageApply => exact execImageApply_frames (hps := List.Subset.refl _) ..
  | eventSwTrigger => exact execEventSwTrigger_frames (hps := List.Subset.refl _) ..
  | eventEoi => exact execEventEoi_frames (hps := List.Subset.refl _) ..
  | eventRouteWrite => exact execEventRouteWrite_frames (hps := List.Subset.refl _) ..
  | eventMessageIssue => exact execEventMessageIssue_frames (hps := List.Subset.refl _) ..
  | stormLimitMillisecond => exact execStormLimitMillisecond_frames (hps := List.Subset.refl _) ..
  | causeMaskWrite => exact execCauseMaskWrite_frames (hps := List.Subset.refl _) ..
  | registerWrite => exact execRegisterWrite_frames (hps := List.Subset.refl _) ..
  | doorbellLogDrained => exact execDoorbellLogDrained_frames (hps := List.Subset.refl _) ..
  | configRequest => exact execConfigRequest_frames (hps := List.Subset.refl _) ..
  | barMemoryRead => exact execBarMemoryRead_frames (hps := List.Subset.refl _) ..
  | readCompletion => exact execReadCompletion_frames (hps := List.Subset.refl _) ..
  | completionTimeout => exact execCompletionTimeout_frames (hps := List.Subset.refl _) ..
  | bypass => exact execBypass_frames (hps := List.Subset.refl _) ..
  | samplePreload => exact execSamplePreload_frames (hps := List.Subset.refl _) ..
  | extest => exact execExtest_frames (hps := List.Subset.refl _) ..
  | idcode => exact execIdcode_frames (hps := List.Subset.refl _) ..
  | dbgChallenge => exact execDbgChallenge_frames (hps := List.Subset.refl _) ..
  | dbgResponse => exact execDbgResponse_frames (hps := List.Subset.refl _) ..
  | trstNAssert => exact execTrstNAssert_frames (hps := List.Subset.refl _) ..
  | seq => exact execSeq_frames (hps := List.Subset.refl _) ..
  | jump => exact execJump_frames (hps := List.Subset.refl _) ..
  | branch => exact execBranch_frames (hps := List.Subset.refl _) ..
  | call => exact execCall_frames (hps := List.Subset.refl _) ..
  | callIf => exact execCallIf_frames (hps := List.Subset.refl _) ..
  | popReturn => exact execPopReturn_frames (hps := List.Subset.refl _) ..
  | popReturnIf => exact execPopReturnIf_frames (hps := List.Subset.refl _) ..
  | wait => exact execWait_frames (hps := List.Subset.refl _) ..
  | table => exact execTable_frames (hps := List.Subset.refl _) ..
  | passEnd => exact execPassEnd_frames (hps := List.Subset.refl _) ..
  | trap => exact execTrap_frames (hps := List.Subset.refl _) ..
  | aluAdd => exact execAluAdd_frames (hps := List.Subset.refl _) ..
  | aluSub => exact execAluSub_frames (hps := List.Subset.refl _) ..
  | aluAnd => exact execAluAnd_frames (hps := List.Subset.refl _) ..
  | aluOr => exact execAluOr_frames (hps := List.Subset.refl _) ..
  | aluXor => exact execAluXor_frames (hps := List.Subset.refl _) ..
  | aluCompare => exact execAluCompare_frames (hps := List.Subset.refl _) ..
  | aluMove => exact execAluMove_frames (hps := List.Subset.refl _) ..
  | addWithCarry => exact execAddWithCarry_frames (hps := List.Subset.refl _) ..
  | shiftLeft => exact execShiftLeft_frames (hps := List.Subset.refl _) ..
  | shiftRight => exact execShiftRight_frames (hps := List.Subset.refl _) ..
  | rotate => exact execRotate_frames (hps := List.Subset.refl _) ..
  | fieldExtract => exact execFieldExtract_frames (hps := List.Subset.refl _) ..
  | fieldInsert => exact execFieldInsert_frames (hps := List.Subset.refl _) ..
  | load8b => exact execLoad8b_frames (hps := List.Subset.refl _) ..
  | store8b => exact execStore8b_frames (hps := List.Subset.refl _) ..
  | atomicAdd => exact execAtomicAdd_frames (hps := List.Subset.refl _) ..
  | compareAndSwap => exact execCompareAndSwap_frames (hps := List.Subset.refl _) ..
  | readHead => exact execReadHead_frames (hps := List.Subset.refl _) ..
  | readParseRecord => exact execReadParseRecord_frames (hps := List.Subset.refl _) ..
  | readPacketBuffer => exact execReadPacketBuffer_frames (hps := List.Subset.refl _) ..
  | appendEdit => exact execAppendEdit_frames (hps := List.Subset.refl _) ..
  | readLedgerFields => exact execReadLedgerFields_frames (hps := List.Subset.refl _) ..
  | payloadRead => exact execPayloadRead_frames (hps := List.Subset.refl _) ..
  | parse => exact execParse_frames (hps := List.Subset.refl _) ..
  | classify => exact execClassify_frames (hps := List.Subset.refl _) ..
  | lookup => exact execLookup_frames (hps := List.Subset.refl _) ..
  | checksum position thread off len => exact execChecksum_frames position thread off len s (List.Subset.refl _)
  | hash => exact execHash_frames (hps := List.Subset.refl _) ..
  | headerRewrite => exact execHeaderRewrite_frames (hps := List.Subset.refl _) ..
  | setDestination => exact execSetDestination_frames (hps := List.Subset.refl _) ..
  | dropRequest => exact execDropRequest_frames (hps := List.Subset.refl _) ..
  | learnOffer => exact execLearnOffer_frames (hps := List.Subset.refl _) ..
  | dmaAssist => exact execDmaAssist_frames (hps := List.Subset.refl _) ..
  | partnerChannelSend position thread => exact execPartnerChannelSend_frames position thread s (List.Subset.refl _)
  | channelWrite => exact execChannelWrite_frames (hps := List.Subset.refl _) ..
  | channelClose => exact execChannelClose_frames (hps := List.Subset.refl _) ..
  | channelRead => exact execChannelRead_frames (hps := List.Subset.refl _) ..
  | channelDiscard => exact execChannelDiscard_frames (hps := List.Subset.refl _) ..
  | flagSet => exact execFlagSet_frames (hps := List.Subset.refl _) ..
  | flagClear => exact execFlagClear_frames (hps := List.Subset.refl _) ..
  | counterAdd => exact execCounterAdd_frames (hps := List.Subset.refl _) ..
  | stateWrite => exact execStateWrite_frames (hps := List.Subset.refl _) ..
  | sequenceBearingRequest => exact execSequenceBearingRequest_frames (hps := List.Subset.refl _) ..
  | mctpSetEndpointId => exact execMctpSetEndpointId_frames (hps := List.Subset.refl _) ..
  | mctpKeySlotProvision => exact execMctpKeySlotProvision_frames (hps := List.Subset.refl _) ..
  | mctpDiscard => exact execMctpDiscard_frames (hps := List.Subset.refl _) ..
  | mctpIdeKeyLoad => exact execMctpIdeKeyLoad_frames (hps := List.Subset.refl _) ..
  | mctpFaultLogRead => exact execMctpFaultLogRead_frames (hps := List.Subset.refl _) ..
  | pldmSensorRead => exact execPldmSensorRead_frames (hps := List.Subset.refl _) ..
  | pldmFirmwareUpdate => exact execPldmFirmwareUpdate_frames (hps := List.Subset.refl _) ..
  | getVersion => exact execGetVersion_frames (hps := List.Subset.refl _) ..
  | getCapabilities => exact execGetCapabilities_frames (hps := List.Subset.refl _) ..
  | negotiateAlgorithms => exact execNegotiateAlgorithms_frames (hps := List.Subset.refl _) ..
  | getDigests => exact execGetDigests_frames (hps := List.Subset.refl _) ..
  | getCertificate => exact execGetCertificate_frames (hps := List.Subset.refl _) ..
  | challenge => exact execChallenge_frames (hps := List.Subset.refl _) ..
  | getMeasurements => exact execGetMeasurements_frames (hps := List.Subset.refl _) ..
  | doeDiscovery => exact execDoeDiscovery_frames (hps := List.Subset.refl _) ..
theorem Dev.phase_of_besides {d e : Dev} (h : e.besides ps = d.besides ps) (hp : .start ∉ ps := by decide) : e.phase = d.phase := by
  simpa only [Dev.besides, if_neg hp] using congrArg Dev.phase h

theorem Dev.railsGood_of_besides {d e : Dev} (h : e.besides ps = d.besides ps) (hp : .start ∉ ps := by decide) : e.railsGood = d.railsGood := by
  simpa only [Dev.besides, if_neg hp] using congrArg Dev.railsGood h

theorem Dev.resetLow_of_besides {d e : Dev} (h : e.besides ps = d.besides ps) (hp : .start ∉ ps := by decide) : e.resetLow = d.resetLow := by
  simpa only [Dev.besides, if_neg hp] using congrArg Dev.resetLow h

theorem Dev.testen_of_besides {d e : Dev} (h : e.besides ps = d.besides ps) (hp : .start ∉ ps := by decide) : e.testen = d.testen := by
  simpa only [Dev.besides, if_neg hp] using congrArg Dev.testen h

theorem Dev.regs_of_besides {d e : Dev} (h : e.besides ps = d.besides ps) (hp : .registers ∉ ps := by decide) : e.regs = d.regs := by
  simpa only [Dev.besides, if_neg hp] using congrArg Dev.regs h

theorem Dev.out_of_besides {d e : Dev} (h : e.besides ps = d.besides ps) (hp : .output ∉ ps := by decide) : e.out = d.out := by
  simpa only [Dev.besides, if_neg hp] using congrArg Dev.out h

theorem Dev.die_of_besides {d e : Dev} (h : e.besides ps = d.besides ps) (hp : .start ∉ ps := by decide) : e.die = d.die := by
  simpa only [Dev.besides, if_neg hp] using congrArg Dev.die h

theorem Dev.boot_of_besides {d e : Dev} (h : e.besides ps = d.besides ps) (hp : .start ∉ ps := by decide) : e.boot = d.boot := by
  simpa only [Dev.besides, if_neg hp] using congrArg Dev.boot h

theorem Dev.keep_of_besides {d e : Dev} (h : e.besides ps = d.besides ps) (hp : .retained ∉ ps := by decide) : e.keep = d.keep := by
  simpa only [Dev.besides, if_neg hp] using congrArg Dev.keep h

theorem Dev.card_of_besides {d e : Dev} (h : e.besides ps = d.besides ps) (hp : .start ∉ ps := by decide) : e.card = d.card := by
  simpa only [Dev.besides, if_neg hp] using congrArg Dev.card h

theorem Dev.setPos_of_besides {d e : Dev} (h : e.besides ps = d.besides ps) (hp : .positions ∉ ps := by decide) : e.setPos = d.setPos := by
  simpa only [Dev.besides, if_neg hp] using congrArg Dev.setPos h

theorem Dev.cryPos_of_besides {d e : Dev} (h : e.besides ps = d.besides ps) (hp : .positions ∉ ps := by decide) : e.cryPos = d.cryPos := by
  simpa only [Dev.besides, if_neg hp] using congrArg Dev.cryPos h

theorem Dev.power_of_besides {d e : Dev} (h : e.besides ps = d.besides ps) (hp : .power ∉ ps := by decide) : e.power = d.power := by
  simpa only [Dev.besides, if_neg hp] using congrArg Dev.power h

theorem Dev.links_of_besides {d e : Dev} (h : e.besides ps = d.besides ps) (hp : .links ∉ ps := by decide) : e.links = d.links := by
  simpa only [Dev.besides, if_neg hp] using congrArg Dev.links h

theorem Dev.funcs_of_besides {d e : Dev} (h : e.besides ps = d.besides ps) (hp : .functions ∉ ps := by decide) : e.funcs = d.funcs := by
  simpa only [Dev.besides, if_neg hp] using congrArg Dev.funcs h

theorem Dev.chans_of_besides {d e : Dev} (h : e.besides ps = d.besides ps) (hp : .channels ∉ ps := by decide) : e.chans = d.chans := by
  simpa only [Dev.besides, if_neg hp] using congrArg Dev.chans h

theorem Dev.routes_of_besides {d e : Dev} (h : e.besides ps = d.besides ps) (hp : .routes ∉ ps := by decide) : e.routes = d.routes := by
  simpa only [Dev.besides, if_neg hp] using congrArg Dev.routes h

theorem Dev.cores_of_besides {d e : Dev} (h : e.besides ps = d.besides ps) (hp : .positions ∉ ps := by decide) : e.cores = d.cores := by
  simpa only [Dev.besides, if_neg hp] using congrArg Dev.cores h

theorem Dev.escalations_of_besides {d e : Dev} (h : e.besides ps = d.besides ps)
    (hp : .routes ∉ ps := by decide) : e.escalations = d.escalations := by
  simpa only [Dev.besides, if_neg hp] using congrArg Dev.escalations h

theorem Dev.rings_of_besides {d e : Dev} (h : e.besides ps = d.besides ps) (hp : .rings ∉ ps := by decide) : e.rings = d.rings := by
  simpa only [Dev.besides, if_neg hp] using congrArg Dev.rings h

theorem Dev.groups_of_besides {d e : Dev} (h : e.besides ps = d.besides ps) (hp : .rings ∉ ps := by decide) : e.groups = d.groups := by
  simpa only [Dev.besides, if_neg hp] using congrArg Dev.groups h

theorem Dev.ringErrors_of_besides {d e : Dev} (h : e.besides ps = d.besides ps) (hp : .rings ∉ ps := by decide) : e.ringErrors = d.ringErrors := by
  simpa only [Dev.besides, if_neg hp] using congrArg Dev.ringErrors h

theorem Dev.ctxCache_of_besides {d e : Dev} (h : e.besides ps = d.besides ps) (hp : .rings ∉ ps := by decide) : e.ctxCache = d.ctxCache := by
  simpa only [Dev.besides, if_neg hp] using congrArg Dev.ctxCache h

theorem Dev.ctxSnap_of_besides {d e : Dev} (h : e.besides ps = d.besides ps) (hp : .rings ∉ ps := by decide) : e.ctxSnap = d.ctxSnap := by
  simpa only [Dev.besides, if_neg hp] using congrArg Dev.ctxSnap h

theorem Dev.items_of_besides {d e : Dev} (h : e.besides ps = d.besides ps) (hp : .items ∉ ps := by decide) : e.items = d.items := by
  simpa only [Dev.besides, if_neg hp] using congrArg Dev.items h

theorem Dev.nextItem_of_besides {d e : Dev} (h : e.besides ps = d.besides ps) (hp : .items ∉ ps := by decide) : e.nextItem = d.nextItem := by
  simpa only [Dev.besides, if_neg hp] using congrArg Dev.nextItem h

theorem Dev.admitted_of_besides {d e : Dev} (h : e.besides ps = d.besides ps) (hp : .items ∉ ps := by decide) : e.admitted = d.admitted := by
  simpa only [Dev.besides, if_neg hp] using congrArg Dev.admitted h

theorem Dev.dispatched_of_besides {d e : Dev} (h : e.besides ps = d.besides ps) (hp : .items ∉ ps := by decide) : e.dispatched = d.dispatched := by
  simpa only [Dev.besides, if_neg hp] using congrArg Dev.dispatched h

theorem Dev.failures_of_besides {d e : Dev} (h : e.besides ps = d.besides ps) (hp : .items ∉ ps := by decide) : e.failures = d.failures := by
  simpa only [Dev.besides, if_neg hp] using congrArg Dev.failures h

theorem Dev.replays_of_besides {d e : Dev} (h : e.besides ps = d.besides ps) (hp : .items ∉ ps := by decide) : e.replays = d.replays := by
  simpa only [Dev.besides, if_neg hp] using congrArg Dev.replays h

theorem Dev.epilogues_of_besides {d e : Dev} (h : e.besides ps = d.besides ps) (hp : .items ∉ ps := by decide) : e.epilogues = d.epilogues := by
  simpa only [Dev.besides, if_neg hp] using congrArg Dev.epilogues h

theorem Dev.credits_of_besides {d e : Dev} (h : e.besides ps = d.besides ps) (hp : .shares ∉ ps := by decide) : e.credits = d.credits := by
  simpa only [Dev.besides, if_neg hp] using congrArg Dev.credits h

theorem Dev.sched_of_besides {d e : Dev} (h : e.besides ps = d.besides ps) (hp : .shares ∉ ps := by decide) : e.sched = d.sched := by
  simpa only [Dev.besides, if_neg hp] using congrArg Dev.sched h

theorem Dev.macs_of_besides {d e : Dev} (h : e.besides ps = d.besides ps) (hp : .ports ∉ ps := by decide) : e.macs = d.macs := by
  simpa only [Dev.besides, if_neg hp] using congrArg Dev.macs h

theorem Dev.tempo_of_besides {d e : Dev} (h : e.besides ps = d.besides ps) (hp : .time ∉ ps := by decide) : e.tempo = d.tempo := by
  simpa only [Dev.besides, if_neg hp] using congrArg Dev.tempo h

theorem Dev.tenants_of_besides {d e : Dev} (h : e.besides ps = d.besides ps) (hp : .tenants ∉ ps := by decide) : e.tenants = d.tenants := by
  simpa only [Dev.besides, if_neg hp] using congrArg Dev.tenants h

theorem Dev.mtb_of_besides {d e : Dev} (h : e.besides ps = d.besides ps) (hp : .tables ∉ ps := by decide) : e.mtb = d.mtb := by
  simpa only [Dev.besides, if_neg hp] using congrArg Dev.mtb h

theorem Dev.ctxs_of_besides {d e : Dev} (h : e.besides ps = d.besides ps) (hp : .contexts ∉ ps := by decide) : e.ctxs = d.ctxs := by
  simpa only [Dev.besides, if_neg hp] using congrArg Dev.ctxs h

theorem Dev.ctxKeys_of_besides {d e : Dev} (h : e.besides ps = d.besides ps) (hp : .contexts ∉ ps := by decide) : e.ctxKeys = d.ctxKeys := by
  simpa only [Dev.besides, if_neg hp] using congrArg Dev.ctxKeys h

theorem Dev.ctxFailed_of_besides {d e : Dev} (h : e.besides ps = d.besides ps) (hp : .contexts ∉ ps := by decide) : e.ctxFailed = d.ctxFailed := by
  simpa only [Dev.besides, if_neg hp] using congrArg Dev.ctxFailed h

theorem Dev.crySnap_of_besides {d e : Dev} (h : e.besides ps = d.besides ps) (hp : .contexts ∉ ps := by decide) : e.crySnap = d.crySnap := by
  simpa only [Dev.besides, if_neg hp] using congrArg Dev.crySnap h

theorem Dev.idents_of_besides {d e : Dev} (h : e.besides ps = d.besides ps) (hp : .tables ∉ ps := by decide) : e.idents = d.idents := by
  simpa only [Dev.besides, if_neg hp] using congrArg Dev.idents h

theorem Dev.counters_of_besides {d e : Dev} (h : e.besides ps = d.besides ps) (hp : .tables ∉ ps := by decide) : e.counters = d.counters := by
  simpa only [Dev.besides, if_neg hp] using congrArg Dev.counters h

theorem Dev.cells_of_besides {d e : Dev} (h : e.besides ps = d.besides ps) (hp : .tables ∉ ps := by decide) : e.cells = d.cells := by
  simpa only [Dev.besides, if_neg hp] using congrArg Dev.cells h

theorem Dev.sites_of_besides {d e : Dev} (h : e.besides ps = d.besides ps) (hp : .sets ∉ ps := by decide) : e.sites = d.sites := by
  simpa only [Dev.besides, if_neg hp] using congrArg Dev.sites h

theorem Dev.jobs_of_besides {d e : Dev} (h : e.besides ps = d.besides ps) (hp : .work ∉ ps := by decide) : e.jobs = d.jobs := by
  simpa only [Dev.besides, if_neg hp] using congrArg Dev.jobs h

theorem Dev.nextJob_of_besides {d e : Dev} (h : e.besides ps = d.besides ps) (hp : .work ∉ ps := by decide) : e.nextJob = d.nextJob := by
  simpa only [Dev.besides, if_neg hp] using congrArg Dev.nextJob h

theorem Dev.apply_of_besides {d e : Dev} (h : e.besides ps = d.besides ps) (hp : .work ∉ ps := by decide) : e.apply = d.apply := by
  simpa only [Dev.besides, if_neg hp] using congrArg Dev.apply h

theorem Dev.drains_of_besides {d e : Dev} (h : e.besides ps = d.besides ps) (hp : .tenants ∉ ps := by decide) : e.drains = d.drains := by
  simpa only [Dev.besides, if_neg hp] using congrArg Dev.drains h

theorem Dev.qps_of_besides {d e : Dev} (h : e.besides ps = d.besides ps) (hp : .storage ∉ ps := by decide) : e.qps = d.qps := by
  simpa only [Dev.besides, if_neg hp] using congrArg Dev.qps h

theorem Dev.conns_of_besides {d e : Dev} (h : e.besides ps = d.besides ps) (hp : .storage ∉ ps := by decide) : e.conns = d.conns := by
  simpa only [Dev.besides, if_neg hp] using congrArg Dev.conns h

theorem Dev.nvmes_of_besides {d e : Dev} (h : e.besides ps = d.besides ps) (hp : .storage ∉ ps := by decide) : e.nvmes = d.nvmes := by
  simpa only [Dev.besides, if_neg hp] using congrArg Dev.nvmes h

theorem Dev.dma_of_besides {d e : Dev} (h : e.besides ps = d.besides ps) (hp : .engines ∉ ps := by decide) : e.dma = d.dma := by
  simpa only [Dev.besides, if_neg hp] using congrArg Dev.dma h

theorem Dev.region_of_besides {d e : Dev} (h : e.besides ps = d.besides ps) (hp : .engines ∉ ps := by decide) : e.region = d.region := by
  simpa only [Dev.besides, if_neg hp] using congrArg Dev.region h

theorem Dev.movers_of_besides {d e : Dev} (h : e.besides ps = d.besides ps) (hp : .power ∉ ps := by decide) : e.movers = d.movers := by
  simpa only [Dev.besides, if_neg hp] using congrArg Dev.movers h

theorem Dev.stp_of_besides {d e : Dev} (h : e.besides ps = d.besides ps) (hp : .stream ∉ ps := by decide) : e.stp = d.stp := by
  simpa only [Dev.besides, if_neg hp] using congrArg Dev.stp h

theorem Dev.dbg_of_besides {d e : Dev} (h : e.besides ps = d.besides ps) (hp : .debug ∉ ps := by decide) : e.dbg = d.dbg := by
  simpa only [Dev.besides, if_neg hp] using congrArg Dev.dbg h

theorem Dev.eid_of_besides {d e : Dev} (h : e.besides ps = d.besides ps) (hp : .debug ∉ ps := by decide) : e.eid = d.eid := by
  simpa only [Dev.besides, if_neg hp] using congrArg Dev.eid h

theorem Dev.macCounts_of_besides {d e : Dev} (h : e.besides ps = d.besides ps) (hp : .ports ∉ ps := by decide) : e.macCounts = d.macCounts := by
  simpa only [Dev.besides, if_neg hp] using congrArg Dev.macCounts h


/-- A part that is not among those blotted out is the same. -/
theorem Part.same_of_besides {s t : State} {p : Part} (hp : p ∉ ps) (h : t.besides ps = s.besides ps) : p.same s t := by
  have hd : t.dev.besides ps = s.dev.besides ps := State.dev_of_besides h
  cases p with
  | start => exact ⟨Dev.phase_of_besides hd hp, Dev.railsGood_of_besides hd hp, Dev.resetLow_of_besides hd hp, Dev.testen_of_besides hd hp,
      Dev.boot_of_besides hd hp, Dev.card_of_besides hd hp, Dev.die_of_besides hd hp⟩
  | debug => exact ⟨Dev.dbg_of_besides hd hp, Dev.eid_of_besides hd hp⟩
  | positions => exact ⟨Dev.setPos_of_besides hd hp, Dev.cryPos_of_besides hd hp, Dev.cores_of_besides hd hp⟩
  | power => exact ⟨Dev.power_of_besides hd hp, Dev.movers_of_besides hd hp⟩
  | links => exact Dev.links_of_besides hd hp
  | functions => exact Dev.funcs_of_besides hd hp
  | tenants => exact ⟨Dev.tenants_of_besides hd hp, Dev.drains_of_besides hd hp⟩
  | work => exact ⟨Dev.jobs_of_besides hd hp, Dev.nextJob_of_besides hd hp, Dev.apply_of_besides hd hp⟩
  | channels => exact Dev.chans_of_besides hd hp
  | routes => exact ⟨Dev.routes_of_besides hd hp, Dev.escalations_of_besides hd hp⟩
  | rings => exact ⟨Dev.rings_of_besides hd hp, Dev.groups_of_besides hd hp, Dev.ringErrors_of_besides hd hp,
      Dev.ctxCache_of_besides hd hp, Dev.ctxSnap_of_besides hd hp⟩
  | items => exact ⟨Dev.items_of_besides hd hp, Dev.nextItem_of_besides hd hp, Dev.admitted_of_besides hd hp,
      Dev.dispatched_of_besides hd hp, Dev.failures_of_besides hd hp, Dev.replays_of_besides hd hp, Dev.epilogues_of_besides hd hp⟩
  | shares => exact ⟨Dev.credits_of_besides hd hp, Dev.sched_of_besides hd hp⟩
  | ports => exact ⟨Dev.macs_of_besides hd hp, Dev.macCounts_of_besides hd hp⟩
  | time => exact Dev.tempo_of_besides hd hp
  | tables => exact ⟨Dev.mtb_of_besides hd hp, Dev.idents_of_besides hd hp, Dev.counters_of_besides hd hp, Dev.cells_of_besides hd hp⟩
  | contexts => exact ⟨Dev.ctxs_of_besides hd hp, Dev.ctxKeys_of_besides hd hp, Dev.ctxFailed_of_besides hd hp, Dev.crySnap_of_besides hd hp⟩
  | sets => exact Dev.sites_of_besides hd hp
  | storage => exact ⟨Dev.qps_of_besides hd hp, Dev.conns_of_besides hd hp, Dev.nvmes_of_besides hd hp⟩
  | engines => exact ⟨Dev.dma_of_besides hd hp, Dev.region_of_besides hd hp⟩
  | stream => exact Dev.stp_of_besides hd hp
  | retained => exact Dev.keep_of_besides hd hp
  | registers => exact Dev.regs_of_besides hd hp
  | output => exact Dev.out_of_besides hd hp
  | flash => simpa only [State.besides, if_neg hp, Part.same] using congrArg State.flash h
  | fuses => simpa only [State.besides, if_neg hp, Part.same] using congrArg State.fuses h

theorem exec_same {c : Instr} {s t : State} {p : Part} (h : exec c s = .next t) (hp : p ∉ mayChange c) : p.same s t := by
  obtain ⟨u, hu, hb⟩ := exec_frames c s
  rw [hu] at h
  cases h
  exact Part.same_of_besides hp hb

/-- Settles O3: every command's answer is a next state that keeps what its frame leaves, the queue among it. -/
theorem everyCommandAnswersANextState : Obligations.EveryCommandAnswersANextState := by
  intro c s
  obtain ⟨t, ht, hb⟩ := exec_frames c s
  exact ⟨t, ht, State.pending_of_besides hb⟩

/-- Settles O6. -/
theorem framesOfTheDevice : Obligations.FramesOfTheDevice := fun _ _ _ _ _ h hp => exec_same h hp

/-- Settles O7. -/
theorem framesOfTheDatapath : Obligations.FramesOfTheDatapath := fun _ _ _ _ _ h hp => exec_same h hp

/-- Settles O8. -/
theorem framesOfTheHostSide : Obligations.FramesOfTheHostSide := fun _ _ _ _ _ h hp => exec_same h hp

end Sys2Proof.Machine
end

section
/-!
The fuses (R63), and the step.
-/

namespace Sys2Proof.Machine

variable {ps : List Part}

/-! ### The fuses -/

theorem KeySlot.grows_refl (k : KeySlot) : k.grows k := ⟨fun h => ⟨h, rfl⟩, id⟩

theorem KeySlot.grows_trans {a b c : KeySlot} (hab : a.grows b) (hbc : b.grows c) : a.grows c := by
  refine ⟨fun h => ?_, fun h => hbc.2 (hab.2 h)⟩
  obtain ⟨hb, hdb⟩ := hab.1 h
  obtain ⟨hc, hdc⟩ := hbc.1 hb
  exact ⟨hc, hdc.trans hdb⟩

/-- A change that fuses can make: they only blow, and stay as the die allows. -/
def Fuses.lawful (a b : Fuses) : Prop := a.grows b ∧ (a.ok → b.ok)

theorem Fuses.lawful_refl (f : Fuses) : f.lawful f :=
  ⟨⟨KeySlot.grows_refl _, KeySlot.grows_refl _, KeySlot.grows_refl _, KeySlot.grows_refl _, le_refl _⟩, id⟩

theorem Fuses.lawful_of_eq {a b : Fuses} (h : b = a) : a.lawful b := h ▸ Fuses.lawful_refl b

theorem Fuses.lawful.trans {a b c : Fuses} (hab : a.lawful b) (hbc : b.lawful c) : a.lawful c := by
  obtain ⟨⟨h0, h1, h2, h3, hf⟩, hok⟩ := hab
  obtain ⟨⟨g0, g1, g2, g3, gf⟩, gok⟩ := hbc
  exact ⟨⟨KeySlot.grows_trans h0 g0, KeySlot.grows_trans h1 g1, KeySlot.grows_trans h2 g2, KeySlot.grows_trans h3 g3, hf.trans gf⟩,
      fun h => gok (hok h)⟩

/-- The floor rises to at most 64 (R63). -/
theorem Fuses.lawful_floor (f : Fuses) (v : Nat) : f.lawful { f with floor := max f.floor (min 64 v) } := by
  refine ⟨⟨KeySlot.grows_refl _, KeySlot.grows_refl _, KeySlot.grows_refl _, KeySlot.grows_refl _, le_max_left _ _⟩, fun h => ⟨?_, h.2⟩⟩
  exact max_le h.1 (min_le_left _ _)

theorem Fuses.lawful_setSlot (f : Fuses) (n : Nat) (k : KeySlot) (hk : (keySlotOf f n).grows k) : f.lawful (f.setSlot n k) := by
  have hr := KeySlot.grows_refl
  match n with
  | 0 => exact ⟨⟨hk, hr _, hr _, hr _, le_refl _⟩, fun h => ⟨h.1, (hk.1 h.2).1⟩⟩
  | 1 => exact ⟨⟨hr _, hk, hr _, hr _, le_refl _⟩, id⟩
  | 2 => exact ⟨⟨hr _, hr _, hk, hr _, le_refl _⟩, id⟩
  | n + 3 =>
    have hs : f.setSlot (n + 3) k = { f with slot3 := k } := by
      simp only [Fuses.setSlot, Nat.add_eq_zero_iff, OfNat.ofNat_ne_zero, and_false, if_false, show n + 3 ≠ 1 by omega, show n + 3 ≠ 2 by omega]
    exact hs ▸ ⟨⟨hr _, hr _, hr _, hk, le_refl _⟩, id⟩

theorem State.fuses_of_besides {s t : State} (hp : .fuses ∉ ps) (h : t.besides ps = s.besides ps) : t.fuses = s.fuses :=
  Part.same_of_besides (p := .fuses) hp h

theorem State.raiseFloor_lawful (f : Fuses) (img : Image) :
    f.lawful (if img.raiseFloor then { f with floor := max f.floor (min 64 img.securityVersion) } else f) := by
  split
  · exact f.lawful_floor _
  · exact f.lawful_refl

theorem State.confirmTrial_lawful (s : State) : s.fuses.lawful s.confirmTrial.fuses := by
  unfold State.confirmTrial
  split
  · dsimp only
    split
    · exact State.raiseFloor_lawful _ _
    · exact Fuses.lawful_refl _
  · exact Fuses.lawful_refl _

theorem State.finishApply_lawful (s : State) (a : Apply) : s.fuses.lawful (s.finishApply a).fuses := by
  unfold State.finishApply
  dsimp only
  split
  · exact Fuses.lawful_refl _
  · exact State.raiseFloor_lawful _ _

theorem State.goOnApply_lawful (s : State) : s.fuses.lawful s.goOnApply.fuses := by
  unfold State.goOnApply
  split
  · split
    · exact Fuses.lawful_refl _
    · split
      · exact Fuses.lawful_refl _
      · split
        · exact Fuses.lawful_refl _
        · exact Fuses.lawful_refl _
        · exact Fuses.lawful_refl _
        · exact State.finishApply_lawful s _
        · exact Fuses.lawful_refl _
  · exact Fuses.lawful_refl _

/-- A key slot other than slot 0 is programmed once, and any slot is revoked (R84). -/
theorem State.provision_lawful (slot : Nat) (op : KeySlotOp) (s : State) : s.fuses.lawful (s.provision slot op).fuses := by
  unfold State.provision
  dsimp only
  split
  · split
    · next h => exact s.fuses.lawful_setSlot _ _ ⟨fun hp => absurd hp (by simp only [h.2.2, Bool.false_eq_true, not_false_eq_true]), id⟩
    · exact Fuses.lawful_refl _
  · split
    · exact s.fuses.lawful_setSlot _ _ ⟨fun hp => ⟨hp, rfl⟩, fun _ => rfl⟩
    · exact Fuses.lawful_refl _

theorem State.snapStart_fuses (s : State) : s.snapStart.fuses = s.fuses := by
  unfold State.snapStart
  split <;> rfl

theorem State.finishService_fuses (s : State) : s.finishService.fuses = s.fuses := by
  unfold State.finishService
  split
  · rfl
  · split <;> rfl

theorem State.bootCommand_lawful (v : Nat) (s : State) : s.fuses.lawful (s.bootCommand v).fuses := by
  unfold State.bootCommand
  split
  · exact Fuses.lawful_refl _
  · split
    · exact Fuses.lawful_of_eq s.snapStart_fuses
    · split
      · exact Fuses.lawful_refl _
      · split
        · exact s.confirmTrial_lawful
        · split
          · exact Fuses.lawful_refl _
          · split <;> exact Fuses.lawful_refl _

theorem State.writeWord_lawful (mid unit inst off v : Nat) (s : State) : s.fuses.lawful (s.writeWord mid unit inst off v).fuses := by
  unfold State.writeWord
  split
  · exact Fuses.lawful_refl _
  · split
    · exact Fuses.lawful_refl _
    · split
      · split
        · exact s.bootCommand_lawful v
        · exact Fuses.lawful_refl _
      · exact Fuses.lawful_refl _

theorem State.releaseWrite_lawful (w : HeldWrite) (s : State) : s.fuses.lawful (s.releaseWrite w).fuses := by
  cases w with
  | doorbell => exact Fuses.lawful_refl _
  | register mid unit inst off value => exact s.writeWord_lawful mid unit inst off value

theorem State.foldl_lawful {α : Type} (f : State → α → State) (hf : ∀ (s : State) a, s.fuses.lawful (f s a).fuses) (l : List α) (s : State) :
    s.fuses.lawful (l.foldl f s).fuses := by
  induction l generalizing s with
  | nil => exact Fuses.lawful_refl _
  | cons a l ih => exact (hf s a).trans (ih _)

theorem State.releaseLink_lawful (link : Nat) (s : State) : s.fuses.lawful (s.releaseLink link).fuses := by
  have hfold (l : List HeldWrite) (u : State) := State.foldl_lawful _ (fun s w => State.releaseWrite_lawful w s) l u
  unfold State.releaseLink
  dsimp only
  refine Fuses.lawful.trans ?_ (hfold _ _)
  exact Fuses.lawful_refl _

theorem exec_doorbellLogDrained_lawful (link : Nat) (s t : State) (h : exec (.doorbellLogDrained link) s = .next t) :
    s.fuses.lawful t.fuses := by
  have ht : t = if s.finishService.dev.phase = .running then s.finishService.releaseLink link else s.finishService :=
    (Host.Outcome.next.inj h).symm
  rw [ht, ← s.finishService_fuses]
  split
  · exact State.releaseLink_lawful link _
  · exact Fuses.lawful_refl _

/-- The commands that may blow fuses. -/
theorem fuses_mem_mayChange {c : Instr} (h : Part.fuses ∈ mayChange c) :
    (∃ link, c = .doorbellLogDrained link) ∨ c = .confirmTrial ∨ (∃ slot op, c = .mctpKeySlotProvision slot op) ∨
      ∃ mid unit inst off bytes value, c = .registerWrite mid unit inst off bytes value := by
  revert h
  cases c <;> simp [mayChange]

theorem exec_lawful {c : Instr} {s t : State} (h : exec c s = .next t) : s.fuses.lawful t.fuses := by
  by_cases hc : Part.fuses ∈ mayChange c
  · obtain ⟨link, rfl⟩ | rfl | ⟨slot, op, rfl⟩ | ⟨mid, unit, inst, off, bytes, value, rfl⟩ := fuses_mem_mayChange hc
    · exact exec_doorbellLogDrained_lawful link s t h
    · have ht : t = if s.dev.phase = .running then s.confirmTrial else s := (Host.Outcome.next.inj h).symm
      rw [ht]
      split
      · exact s.confirmTrial_lawful
      · exact Fuses.lawful_refl _
    · cases h
      exact s.provision_lawful slot op
    · cases h
      exact State.foldl_lawful _ (fun s k => State.writeWord_lawful mid unit inst _ _ s) _ _
  · exact Fuses.lawful_of_eq (exec_same h hc)

theorem idle_lawful (s : State) : s.fuses.lawful (idle s).fuses := by
  unfold idle
  dsimp only
  split
  · exact s.finishService_fuses ▸ State.goOnApply_lawful { s.finishService with dev := s.finishService.dev.firmwareIdle.recordIdle }
  · exact Fuses.lawful_of_eq s.finishService_fuses

theorem step_lawful {s t : State} (h : step s = .next t) : s.fuses.lawful t.fuses := by
  unfold step at h
  split at h
  · next rest _ => exact exec_lawful (s := { s with pending := rest }) h
  · cases h
    exact idle_lawful s

/-- Settles O4: every step makes a lawful change of the fuses. -/
theorem fusesOnlyBlow : Obligations.FusesOnlyBlow :=
  ⟨fun _ _ h => (step_lawful h).1, fun _ _ hok h => (step_lawful h).2 hok⟩

/-- Settles O1. -/
theorem stepRunsTheFrontCommand : Obligations.StepRunsTheFrontCommand := by
  intro c rest s h
  simp only [step, h]

theorem idle_pending (s : State) : (idle s).pending = s.pending :=
  State.pending_of_besides (idle_besides s (List.Subset.refl _))

/-- Outside a run and a service reset an idle step does nothing. -/
theorem idle_of_still (s : State) (hr : s.dev.phase ≠ .running) (hs : s.dev.phase ≠ .serviceReset) : idle s = s := by
  have hf : s.finishService = s := by
    unfold State.finishService
    exact if_pos hs
  unfold idle
  simp only [hf, if_neg hr]

/-- Settles O2. -/
theorem idleStep : Obligations.IdleStep := by
  intro s h
  have hstep : step s = .next (idle s) := by simp only [step, h]
  exact ⟨⟨idle s, hstep, (idle_pending s).trans h⟩, fun hr hs => by rw [hstep, idle_of_still s hr hs]⟩

/-- Settles O5. -/
theorem fusesLegalAtReset : Obligations.FusesLegalAtReset := ⟨by decide, rfl⟩

end Sys2Proof.Machine
end

section
/-!
Rules that the statements about single commands share.
-/

namespace Sys2Proof.Machine

/-! ## Commands by their lift -/

theorem State.onLive_live {s : State} (f : Dev → Dev) (h : s.dev.phase = .running ∨ s.dev.phase = .serviceReset ∨ s.dev.phase = .faultStop) :
    s.onLive f = .next { s with dev := f s.dev } := by
  rw [State.onLive, if_pos h]

theorem State.onLinks_answering {s : State} (f : Dev → Dev) (h : s.dev.phase = .running ∨ s.dev.phase = .serviceReset) :
    s.onLinks f = .next { s with dev := f s.dev } := by
  rw [State.onLinks, if_pos h]

theorem State.onIsland_powered {s : State} (f : Dev → Dev) (h : s.dev.phase.powered = true) : s.onIsland f = .next { s with dev := f s.dev } := by
  rw [State.onIsland, if_pos h]

theorem State.ifRunning_running {s : State} (f : State → State) (h : s.dev.phase = .running) : s.ifRunning f = .next (f s) := by
  simp only [State.ifRunning, h, if_true]

/-! ## What raising an event leaves -/

theorem Dev.rd_raise (d : Dev) (n : Nat) (fresh : Bool) (f : Field) (i a : Nat) : (d.raise n fresh).rd f i a = d.rd f i a :=
  Dev.rd_congr (Dev.raise_regs ..) f i a

/-- A field reads as before a boot event. -/
theorem Dev.rd_bootEvent (d : Dev) (n : Nat) (f : Field) (i a : Nat) : (d.bootEvent n).rd f i a = d.rd f i a := d.rd_raise ..

/-- A field reads as before a power event. -/
theorem Dev.rd_pwrEvent (d : Dev) (n : Nat) (f : Field) (i a : Nat) : (d.pwrEvent n).rd f i a = d.rd f i a := d.rd_raise ..

/-! ## The output -/

/-- What the bus carries is put out; nothing else of the device changes. -/
theorem Dev.emitAll_eq (l : List Output) (d : Dev) : Dev.each l (fun o d => d.emit o) d = { d with out := d.out ++ l } := by
  unfold Dev.each
  induction l generalizing d with
  | nil => simp only [List.foldl_nil, List.append_nil]
  | cons o l ih =>
    rw [List.foldl_cons, ih]
    simp only [Dev.emit, List.append_assoc, List.singleton_append]

/-! ## Registers that an operation leaves -/

/-- The registers under the keys `P` are the same in both. -/
def Dev.regsSame (P : Nat → Prop) (d e : Dev) : Prop := ∀ k, P k → e.regs.get? k = d.regs.get? k

section
variable {P : Nat → Prop} {d e : Dev}

theorem Dev.regsSame_refl (d : Dev) : d.regsSame P d := fun _ _ => rfl

theorem Dev.regsSame_of_regs (h : e.regs = d.regs) : d.regsSame P e := fun _ _ => by rw [h]

theorem Dev.regsSame.trans {c : Dev} (h : d.regsSame P e) (h' : e.regsSame P c) : d.regsSame P c := fun k hk => (h' k hk).trans (h k hk)

theorem Dev.regsSame.rd (h : d.regsSame P e) {g : Field} {j a : Nat} (hk : P (g.key j a)) : e.rd g j a = d.rd g j a := by
  simp only [Dev.rd, NMap.getD, h _ hk]

theorem Dev.regsSame.on (h : d.regsSame P e) {g : Field} {j a : Nat} (hk : P (g.key j a)) : e.on g j a = d.on g j a := by
  simp only [Dev.on, h.rd hk]

theorem Dev.regsSame.wr (h : d.regsSame P e) (f : Field) (v i a : Nat) (hf : ¬ P (f.key i a)) : d.regsSame P (e.wr f v i a) := by
  intro k hk
  have hne : k ≠ f.key i a := fun he => hf (he ▸ hk)
  rw [← h k hk, Dev.wr]
  dsimp only
  split
  · rw [NMap.get?_erase, if_neg hne]
  · rw [NMap.get?_set, if_neg hne]

theorem Dev.regsSame.raise (h : d.regsSame P e) (n : Nat) (fresh : Bool) : d.regsSame P (e.raise n fresh) :=
  h.trans (Dev.regsSame_of_regs (Dev.raise_regs ..))

theorem Dev.regsSame.cause (h : d.regsSame P e) (c : Causes) (b i : Nat) (hc : ¬ P ((c.bit b).key i 0)) : d.regsSame P (e.cause c b i) := by
  unfold Dev.cause
  split
  · exact h
  · dsimp only
    split
    · exact (h.wr _ _ _ _ hc).raise _ _
    · exact h.wr _ _ _ _ hc

theorem Dev.regsSame_each {α : Type} {l : List α} {f : α → Dev → Dev} (hf : ∀ a e, d.regsSame P e → d.regsSame P (f a e)) (h : d.regsSame P e) :
    d.regsSame P (Dev.each l f e) :=
  Dev.each_induct (fun x => d.regsSame P x) l f e h hf

/-- Every key of the fault log's window, and of the windows behind it, is at least this. -/
def fltBase : Nat := 146 * 65536 * 33554432 * 32

theorem fltBase_le (f : Field) (i a : Nat) (h : 146 ≤ f.unit) : ¬ f.key i a < fltBase := by
  simp only [Field.key, fltBase]
  omega

theorem Dev.regsSame.setLogWord (h : d.regsSame (· < fltBase) e) (s w v : Nat) : d.regsSame (· < fltBase) (e.setLogWord s w v) :=
  h.wr _ _ _ _ (fltBase_le _ _ _ (by decide))

theorem Dev.regsSame.refreshLog (h : d.regsSame (· < fltBase) e) : d.regsSame (· < fltBase) e.refreshLog :=
  ((h.wr _ _ _ _ (fltBase_le _ _ _ (by decide))).wr _ _ _ _ (fltBase_le _ _ _ (by decide))).wr _ _ _ _ (fltBase_le _ _ _ (by decide))

theorem Dev.regsSame.fltCause (h : d.regsSame (· < fltBase) e) (b : Nat) : d.regsSame (· < fltBase) (e.cause fltCauses b) :=
  h.cause _ _ _ (fltBase_le _ _ _ (Nat.le_refl 146))

theorem Dev.regsSame.newRecord (h : d.regsSame (· < fltBase) e) (x : Err) : d.regsSame (· < fltBase) (e.newRecord x) := by
  unfold Dev.newRecord
  extract_lets seq e₀ e₁ under related
  have h₀ : d.regsSame (· < fltBase) e₀ := h.wr _ _ _ _ (fltBase_le _ _ _ (by decide))
  have h₁ : d.regsSame (· < fltBase) e₁ := by
    show d.regsSame (· < fltBase) (if _ then _ else _)
    split
    · exact h₀.wr _ _ _ _ (fltBase_le _ _ _ (by decide))
    · exact h₀.wr _ _ _ _ (fltBase_le _ _ _ (by decide))
  clear_value e₁
  split
  · exact Dev.regsSame.fltCause (h₁.wr _ _ _ _ (fltBase_le _ _ _ (by decide))) 3
  · extract_lets e₂ e₃ e₄ e₅ e₆ e₇ e₈ e₉ e₁₀
    have h₉ : d.regsSame (· < fltBase) e₉ :=
      (((((((h₀.setLogWord _ _ _).setLogWord _ _ _).setLogWord _ _ _).setLogWord _ _ _).setLogWord _ _ _).setLogWord _ _ _).setLogWord
        _ _ _).setLogWord _ _ _ |>.refreshLog
    clear_value e₉
    have h₁₀ : d.regsSame (· < fltBase) e₁₀ := by
      show d.regsSame (· < fltBase) (if _ then _ else _)
      split
      · exact h₉.fltCause 1
      · split
        · exact h₉.fltCause 7
        · exact h₉.fltCause 0
    split
    · exact h₁₀.fltCause 2
    · exact h₁₀

/-- A record of an error leaves every register below the fault log's window. -/
theorem Dev.regsSame_record (x : Err) (d : Dev) : d.regsSame (· < fltBase) (d.record x) := by
  have hd := d.regsSame_refl (P := (· < fltBase))
  unfold Dev.record
  split
  · exact hd
  · dsimp only
    split
    · split
      · exact (hd.setLogWord _ _ _).fltCause 6
      · exact hd.setLogWord _ _ _
    · split
      · exact (hd.newRecord x).fltCause 6
      · exact hd.newRecord x

theorem Dev.rd_record (x : Err) (d : Dev) (g : Field) (j a : Nat) (h : g.key j a < fltBase) : (d.record x).rd g j a = d.rd g j a :=
  (Dev.regsSame_record x d).rd h

end

end Sys2Proof.Machine
end

section
/-!
Cold resets and cold starts (R53, R65, R74, R79, R80, R481, R488).
-/

namespace Sys2Proof.Machine

/-! ## Cold resets -/

theorem Dev.showBoost_of_closed (d : Dev) (h : d.on R.PWR_VDD_boost_open = false) : d.showBoost = d.wr R.PWR_BOOST_used_s d.boostUsed := by
  have hon : (d.wr R.PWR_BOOST_used_s d.boostUsed).on R.PWR_VDD_boost_open = false := by
    rw [Dev.on, Dev.rd_wr_ne _ _ _ _ _ _ _ _ (by decide)]
    exact h
  simp only [Dev.showBoost, hon, Bool.and_false, Bool.false_eq_true, if_false]

/-- What only the boost count of a fresh register file shows. -/
theorem Dev.logHeld_of_fresh {d : Dev} (h : d.regs = {}) (v n : Nat) : (d.wr R.PWR_BOOST_used_s v).logHeld n = false := by
  have hw : (d.wr R.PWR_BOOST_used_s v).logWord n 7 = 0 := by
    rw [Dev.logWord, Dev.rd_wr_ne _ _ _ _ _ _ _ _ (by simp only [Field.key, R.FLT_RECORD_data, R.PWR_BOOST_used_s]; omega)]
    simp only [Dev.rd, h]
    rfl
  rw [Dev.logHeld, hw]
  rfl

/-- What R80 says of the device that a cold reset leaves. -/
def Dev.heldAfter (d e : Dev) : Prop :=
  e.phase = .held ∧ e.items = {} ∧ e.rings = {} ∧ e.links = {} ∧ e.funcs = {} ∧ (∀ n, n < 256 → e.logHeld n = false) ∧
    e.dbg.unlocked = false ∧ e.dbg.fails = 0 ∧ e.die = d.die

theorem heldFrom_of_heldAfter {s : State} {e : Dev} (h : s.dev.heldAfter e) : heldFrom s { s with dev := e } := by
  obtain ⟨hphase, hitems, hrings, hlinks, hfuncs, hlog, hlock, hfails, hdie⟩ := h
  exact ⟨hphase, hitems, hrings, hlinks, hfuncs, hlog, hlock, hfails, hdie, rfl, rfl, rfl, rfl⟩

/-- The record that a cold reset ends or closes changes retention alone. -/
theorem Dev.recordForReset_besides (d : Dev) :
    (if d.keep.dirty then d.closeRecord else d.endRecord).besides [.retained] = d.besides [.retained] := by
  split
  · exact d.closeRecord_besides (List.Subset.refl _)
  · exact d.endRecord_besides (List.Subset.refl _)

theorem Dev.coldReset_heldAfter (cause : Nat) (d : Dev) : d.heldAfter (d.coldReset cause) := by
  have hdie := Dev.die_of_besides d.recordForReset_besides
  unfold Dev.coldReset
  dsimp only
  rw [Dev.showBoost_of_closed _ rfl]
  exact ⟨rfl, rfl, rfl, rfl, rfl, fun n _ => Dev.logHeld_of_fresh rfl _ n, rfl, rfl, hdie⟩

theorem Dev.coldReset_power (cause : Nat) (d : Dev) : (d.coldReset cause).power.tripPin = d.power.tripPin := by
  have htrip := congrArg Power.tripPin (Dev.power_of_besides d.recordForReset_besides)
  unfold Dev.coldReset
  dsimp only
  rw [Dev.showBoost_of_closed _ rfl]
  exact htrip

theorem Dev.coldReset_start (cause : Nat) (d : Dev) :
    (d.coldReset cause).resetLow = d.resetLow ∧ (d.coldReset cause).testen = d.testen ∧ (d.coldReset cause).railsGood = d.railsGood ∧
      (d.coldReset cause).boot.cause = if d.phase = .held then d.boot.cause else cause := by
  have hkeep := d.recordForReset_besides
  have hphase := Dev.phase_of_besides hkeep
  have hboot := Dev.boot_of_besides hkeep
  have hlow := Dev.resetLow_of_besides hkeep
  have htest := Dev.testen_of_besides hkeep
  have hrails := Dev.railsGood_of_besides hkeep
  unfold Dev.coldReset
  dsimp only
  rw [Dev.showBoost_of_closed _ rfl]
  exact ⟨hlow, htest, hrails, by simp only [Dev.wr_boot, hphase, hboot]⟩

theorem Dev.endRecord_dirty (d : Dev) : d.endRecord.keep.dirty = d.keep.dirty := by
  unfold Dev.endRecord
  split
  · rfl
  · exact (apply_ite Keep.dirty ..).trans (ite_self _)

theorem Dev.endRecord_closing (d : Dev) : d.endRecord.keep.closing = none := by
  unfold Dev.endRecord
  split
  · assumption
  · exact (apply_ite Keep.closing ..).trans (ite_self _)

theorem Dev.closeRecord_dirty (d : Dev) : d.closeRecord.keep.dirty = false := by
  simp only [Dev.closeRecord, Dev.endRecord_dirty, Dev.beginRecord, d.endRecord_closing, Option.isSome_none, Bool.false_eq_true, if_false]

/-- A K field that was written is in a record before the registers go (R76, R80). -/
theorem Dev.coldReset_dirty (cause : Nat) (d : Dev) : (d.coldReset cause).keep.dirty = false := by
  unfold Dev.coldReset
  dsimp only
  rw [Dev.showBoost_of_closed _ rfl]
  split
  · exact d.closeRecord_dirty
  · next h => exact (d.endRecord_dirty).trans (Bool.eq_false_iff.2 h)

theorem Dev.releaseTrip_tripPin (d : Dev) : d.releaseTrip.power.tripPin = false := by
  unfold Dev.releaseTrip
  split
  · rfl
  · next h => exact Bool.eq_false_iff.2 h

theorem Dev.logHeld_of_regs {d e : Dev} (h : e.regs = d.regs) (n : Nat) : e.logHeld n = d.logHeld n := by
  rw [Dev.logHeld, Dev.logHeld, Dev.logWord, Dev.logWord, Dev.rd_congr h]

/-- What leaves the state parts that R80 speaks of, the registers and the die leaves the cold reset as it stands. -/
theorem Dev.heldAfter_of_same {d e e' : Dev} (h : d.heldAfter e) (hb : e'.besides [.power, .output] = e.besides [.power, .output]) :
    d.heldAfter e' := by
  obtain ⟨hphase, hitems, hrings, hlinks, hfuncs, hlog, hlock, hfails, hdie⟩ := h
  have hdbg := Dev.dbg_of_besides hb
  refine ⟨(Dev.phase_of_besides hb).trans hphase, (Dev.items_of_besides hb).trans hitems,
    (Dev.rings_of_besides hb).trans hrings, (Dev.links_of_besides hb).trans hlinks,
    (Dev.funcs_of_besides hb).trans hfuncs, fun n hn => ?_, by rw [hdbg]; exact hlock, by rw [hdbg]; exact hfails,
    (Dev.die_of_besides hb).trans hdie⟩
  rw [Dev.logHeld_of_regs (Dev.regs_of_besides hb)]
  exact hlog n hn

theorem Dev.sysReset_besides_reset (d : Dev) :
    d.sysReset.besides [.power, .output] = (({ d with resetLow := true }).coldReset 3).besides [.power, .output] :=
  Dev.releaseTrip_besides _ (List.Subset.refl _)

theorem exec_sysRstNAssert (s : State) :
    ∃ t, exec .sysRstNAssert s = .next t ∧ heldFrom s t ∧ t.dev.resetLow = true ∧ t.dev.keep.dirty = false ∧ t.dev.power.tripPin = false := by
  have hb := s.dev.sysReset_besides_reset
  refine ⟨_, rfl, heldFrom_of_heldAfter (Dev.heldAfter_of_same (Dev.coldReset_heldAfter 3 { s.dev with resetLow := true }) hb), ?_, ?_,
    Dev.releaseTrip_tripPin _⟩
  · exact (Dev.resetLow_of_besides hb).trans (Dev.coldReset_start 3 { s.dev with resetLow := true }).1
  · exact (congrArg Keep.dirty (Dev.keep_of_besides hb)).trans (Dev.coldReset_dirty 3 _)

theorem exec_testenAssert (s : State) :
    ∃ t, exec .testenAssert s = .next t ∧ heldFrom s t ∧ t.dev.testen = true ∧ t.dev.power.tripPin = s.dev.power.tripPin :=
  ⟨_, rfl, heldFrom_of_heldAfter (Dev.coldReset_heldAfter 3 { s.dev with testen := true }), (Dev.coldReset_start 3 _).2.1,
    Dev.coldReset_power 3 { s.dev with testen := true }⟩

theorem exec_mainRailFail (s : State) :
    ∃ t, exec .mainRailFail s = .next t ∧ heldFrom s t ∧ t.dev.railsGood = false ∧ (s.dev.phase ≠ .held → t.dev.boot.cause = 2) ∧
      t.dev.power.tripPin = s.dev.power.tripPin := by
  obtain ⟨-, -, hrails, hcause⟩ := Dev.coldReset_start 2 { s.dev with railsGood := false }
  refine ⟨_, rfl, heldFrom_of_heldAfter (Dev.coldReset_heldAfter 2 { s.dev with railsGood := false }), hrails, fun h => ?_,
    Dev.coldReset_power 2 { s.dev with railsGood := false }⟩
  show min 2 (Boot.cause _) = 2
  rw [hcause, if_neg h, min_self]

theorem exec_standbyPowerOn (s : State) :
    ∃ t, exec .standbyPowerOn s = .next t ∧ heldFrom s t ∧ t.dev.keep = { discard := s.dev.keep.discard } ∧ t.dev.boot.cause = 1 ∧
      t.dev.rd R.PWR_BOOST_used_s = 86400 ∧ t.dev.power.tripPin = false := by
  refine ⟨{ s with dev := s.dev.standbyOn }, rfl, ?_⟩
  unfold Dev.standbyOn
  dsimp only
  rw [Dev.showBoost_of_closed _ rfl]
  refine ⟨heldFrom_of_heldAfter ?_, rfl, rfl, Dev.rd_wr_self .., rfl⟩
  exact ⟨rfl, rfl, rfl, rfl, rfl, fun n _ => Dev.logHeld_of_fresh rfl _ n, rfl, rfl, rfl⟩

/-- R74. -/
theorem exec_standbyBrownout (s : State) :
    ∃ t, exec .standbyBrownout s = .next t ∧ t.dev.validRecord = none ∧ t = { s with dev := { s.dev with keep := t.dev.keep } } := by
  refine ⟨_, rfl, ?_, rfl⟩
  simp only [Dev.validRecord, Bool.or_true, if_true]

/-! ## Cold starts -/

theorem Dev.cardChanged_boot (es : List Nat) (d : Dev) : (d.cardChanged es).boot = d.boot := by
  have hraise (e : Dev) : (e.raise 373).boot = e.boot := Dev.boot_of_besides (Dev.raise_besides e _ _ (List.Subset.refl _))
  unfold Dev.cardChanged
  split
  · rfl
  · exact hraise _

theorem Dev.leaveSet_boot (p trigger : Nat) (d : Dev) : (d.leaveSet p trigger).2.boot = d.boot := by
  have hredeliver (e : Dev) : (e.redeliver (midSet p)).boot = e.boot := Dev.boot_of_besides (Dev.redeliver_besides _ e (List.Subset.refl _))
  have hreplay (b : Bool) (e : Dev) : (e.replay p trigger b).boot = e.boot :=
    Dev.boot_of_besides (Dev.replay_besides p trigger b e (List.Subset.refl _))
  have hroom (e : Dev) : e.updateHeadroom.boot = e.boot := Dev.boot_of_besides (Dev.updateHeadroom_besides e (List.Subset.refl _))
  have hlost (i : Nat) (e : Dev) : (e.dropLost i).boot = e.boot := Dev.boot_of_besides (Dev.dropLost_besides i e (List.Subset.refl _))
  have hswap (r : Nat) (e : Dev) : (e.swapSets p r).boot = e.boot := Dev.boot_of_besides (Dev.swapSets_besides p r e (List.Subset.refl _))
  have hput (x : Slot) (e : Dev) : (e.putSlot p x).boot = e.boot := Dev.boot_of_besides (Dev.putSlot_besides p x e (List.Subset.refl _))
  have hsite (f : SetSite → SetSite) (e : Dev) : (e.onSite p f).boot = e.boot := Dev.boot_of_besides (Dev.onSite_besides e p f (List.Subset.refl _))
  unfold Dev.leaveSet
  dsimp only
  split
  · simp only [hreplay, hredeliver, Dev.cardChanged_boot, hroom, Dev.onPower_boot, hswap]
  · simp only [hreplay, hredeliver, Dev.cardChanged_boot, hroom, Dev.onPower_boot, hlost, hput, hsite]

theorem Dev.leaveCry_boot (p : Nat) (d : Dev) : (d.leaveCry p).2.boot = d.boot := by
  have hput (q : Nat) (x : Slot) (e : Dev) : (e.putCry q x).boot = e.boot := Dev.boot_of_besides (Dev.putCry_besides q x e (List.Subset.refl _))
  have hjobs (e : Dev) : e.assignJobs.boot = e.boot := Dev.boot_of_besides (Dev.assignJobs_besides e (List.Subset.refl _))
  unfold Dev.leaveCry
  dsimp only
  split
  · simp only [Dev.cardChanged_boot, hput]
  · simp only [hjobs, Dev.cardChanged_boot, hput]

theorem Dev.departSite_boot (unit site : Nat) (d : Dev) : (d.departSite unit site).boot = d.boot := by
  have hrecord (e : Err) (d : Dev) : (d.recordSeq e).2.boot = d.boot := Dev.boot_of_besides (Dev.recordSeq_besides e d (List.Subset.refl _))
  have hfinish (q h : Nat) (e : Dev) : (e.finishRecord q h).boot = e.boot := Dev.boot_of_besides (Dev.finishRecord_besides q h e (List.Subset.refl _))
  have hputS (q : Nat) (x : Slot) (e : Dev) : (e.putSlot q x).boot = e.boot := Dev.boot_of_besides (Dev.putSlot_besides q x e (List.Subset.refl _))
  have hputC (q : Nat) (x : Slot) (e : Dev) : (e.putCry q x).boot = e.boot := Dev.boot_of_besides (Dev.putCry_besides q x e (List.Subset.refl _))
  unfold Dev.departSite
  dsimp only
  split
  · rfl
  · simp only [apply_ite Dev.boot, hfinish, hputS, hputC, apply_ite Prod.snd, Dev.leaveSet_boot, Dev.leaveCry_boot, hrecord, Dev.free, ite_self]

theorem Dev.departSites_boot (unit : Nat) (bad : List Nat) (d : Dev) : (d.departSites unit bad).boot = d.boot :=
  Dev.each_induct (fun e => e.boot = d.boot) _ _ _ rfl fun a e he => (Dev.departSite_boot unit a e).trans he

theorem Dev.startEvents_boot (n : StartNote) (d : Dev) :
    (d.startEvents n).boot.image = d.boot.image ∧ (d.startEvents n).boot.slot = d.boot.slot ∧ (d.startEvents n).card = d.card := by
  have hboot (k : Nat) (e : Dev) : (e.bootEvent k).boot = e.boot := Dev.boot_of_besides (Dev.bootEvent_besides k e (List.Subset.refl _))
  have hcard (k : Nat) (e : Dev) : (e.bootEvent k).card = e.card := Dev.card_of_besides (Dev.bootEvent_besides k e (List.Subset.refl _))
  unfold Dev.startEvents
  dsimp only
  split <;> split <;> split <;> simp only [hboot, hcard, and_self]

/-- The image in force is the one whose sections are applied. -/
theorem Dev.applySections_boot (img : Image) (d : Dev) : (d.applySections img).boot = { d.boot with image := some img } := by
  have hlinks (e : Dev) : (e.applyLinks img).boot = e.boot := Dev.boot_of_besides (Dev.applyLinks_besides img e (List.Subset.refl _))
  have hports (e : Dev) : (e.applyPorts img).boot = e.boot := Dev.boot_of_besides (Dev.applyPorts_besides img e (List.Subset.refl _))
  have hstores (l : List Nat) (e : Dev) : (Dev.each l (Dev.loadStore img) e).boot = e.boot :=
    Dev.each_induct (fun x => x.boot = e.boot) _ _ _ rfl fun a x hx =>
      (Dev.boot_of_besides (Dev.loadStore_besides img a x (List.Subset.refl _))).trans hx
  have hschema (e : Dev) : (e.applySchema img).boot = e.boot := Dev.boot_of_besides (Dev.applySchema_besides img e (List.Subset.refl _))
  have hident (e : Dev) : (e.applyIdentity img).boot = e.boot := Dev.boot_of_besides (Dev.applyIdentity_besides img e (List.Subset.refl _))
  have hdefault (e : Dev) : (e.applyDefaults img).boot = e.boot := Dev.boot_of_besides (Dev.applyDefaults_besides img e (List.Subset.refl _))
  simp only [Dev.applySections, hlinks, hports, hstores, hschema, hident, hdefault]

/-- What a cold start with a chosen image ends in (R53, R64). -/
def Dev.runsPick (p : Pick) (d : Dev) : Prop :=
  d.phase = .running ∧ d.card.valid = true ∧ d.card.gen = 2 ∧ d.boot.image = some p.image ∧ d.boot.slot = p.slot

theorem Dev.startWith_runsPick (p : Pick) (f : StartFindings) (fl : Flash) (d : Dev) : (d.startWith p f fl).runsPick p := by
  have hevent (k : Nat) (e : Dev) := Dev.bootEvent_besides k e (List.Subset.refl _)
  unfold Dev.startWith
  extract_lets store snap discarded cause b dBoot sites dSites dSect dSlew chosen r dRet version dCores dKat dDep w dRec k dKeep dDom dTj dPub
    note dCard dEv w' dTrip
  have hsect : dSect.boot.image = some p.image ∧ dSect.boot.slot = p.slot := by
    simp only [dSect, Dev.applySections_boot, dSites, dBoot, and_self]
  have hret : dRet.boot = dSlew.boot := Dev.boot_of_besides (Dev.applyRetained_besides chosen dSlew (List.Subset.refl _))
  have hkat : dKat.boot = dCores.boot := Dev.each_induct (fun e => e.boot = dCores.boot) _ _ _ rfl fun a e he => he
  have hdep : dDep.boot = dKat.boot := (Dev.departSites_boot ..).trans (Dev.departSites_boot ..)
  have hclose (e : Dev) : e.closeRecord.boot = e.boot := Dev.boot_of_besides (e.closeRecord_besides (List.Subset.refl _))
  have hrec : dRec.boot = dDep.boot := hclose _
  have hdom : dDom.boot = dKeep.boot :=
    (Dev.boot_of_besides (Dev.acquireLanes_besides _ (List.Subset.refl _))).trans
      (Dev.boot_of_besides (Dev.domainsOn_besides dKeep (List.Subset.refl _)))
  have htj : dTj.boot = dDom.boot := Dev.boot_of_besides (Dev.sampleTj_besides _ dDom (List.Subset.refl _))
  have hpub : dPub.boot = dTj.boot :=
    (Dev.boot_of_besides (Dev.publishPower_besides _ _ _ (List.Subset.refl _))).trans
      (Dev.boot_of_besides (Dev.measurePace_besides f.ringCounts dTj (List.Subset.refl _)))
  have hbuild (e : Dev) : e.buildCard.boot = e.boot := rfl
  have hnote : dCard.boot = dPub.boot := (hbuild _).trans <| Dev.boot_of_besides (Dev.noteStart_besides note dPub (List.Subset.refl _))
  have hcard : dCard.boot = dSect.boot := by
    rw [hnote, hpub, htj, hdom, show dKeep.boot = dRec.boot from rfl, hrec, hdep, hkat]
    exact hret
  have hev : dEv.boot.image = dCard.boot.image ∧ dEv.boot.slot = dCard.boot.slot ∧ dEv.card = dCard.card := by
    obtain ⟨himage, hslot, hc⟩ := Dev.startEvents_boot note (Dev.bootEvent 0 dCard)
    rw [Dev.boot_of_besides (hevent 0 dCard)] at himage hslot
    rw [Dev.card_of_besides (hevent 0 dCard)] at hc
    have hlast : dEv.boot = (Dev.startEvents note (Dev.bootEvent 0 dCard)).boot ∧ dEv.card = (Dev.startEvents note (Dev.bootEvent 0 dCard)).card := by
      simp only [dEv, Dev.when, apply_ite Dev.boot, apply_ite Dev.card, Dev.boot_of_besides (hevent 6 _), Dev.card_of_besides (hevent 6 _),
          ite_self, and_self]
    exact ⟨(congrArg Boot.image hlast.1).trans himage, (congrArg Boot.slot hlast.1).trans hslot, hlast.2.trans hc⟩
  have htrip : dTrip.boot = dEv.boot ∧ dTrip.card = dEv.card := by
    have hrecord (x : Err) (e : Dev) := Dev.record_besides x e (List.Subset.refl _)
    have hpwr (e : Dev) := Dev.pwrEvent_besides 13 e (List.Subset.refl _)
    simp only [dTrip, apply_ite Dev.boot, apply_ite Dev.card, Dev.boot_of_besides (hrecord _ _), Dev.card_of_besides (hrecord _ _),
      Dev.boot_of_besides (hpwr _), Dev.card_of_besides (hpwr _), Dev.wr_boot, Dev.wr_card, ite_self, and_self]
  have hend (e : Dev) : ((e.enableLinks f.perstLow).stpTrain.updateHeadroom).besides [.power, .links, .routes, .stream, .retained,
      .registers, .output] =
      e.besides [.power, .links, .routes, .stream, .retained, .registers, .output] :=
    ((Dev.updateHeadroom_besides _ (by decide)).trans (Dev.stpTrain_besides _ (by decide))).trans (Dev.enableLinks_besides _ e (by decide))
  have hlast := hend { dTrip with phase := .running }
  have hb : dTrip.boot.image = some p.image ∧ dTrip.boot.slot = p.slot := by
    rw [htrip.1, hev.1, hev.2.1, hcard]
    exact hsect
  have hc : dTrip.card.valid = true ∧ dTrip.card.gen = 2 := by
    rw [htrip.2, hev.2.2]
    exact ⟨rfl, rfl⟩
  refine ⟨Dev.phase_of_besides hlast, ?_, ?_, ?_, ?_⟩
  · exact (congrArg Card.valid (Dev.card_of_besides hlast)).trans hc.1
  · exact (congrArg Card.gen (Dev.card_of_besides hlast)).trans hc.2
  · exact (congrArg Boot.image (Dev.boot_of_besides hlast)).trans hb.1
  · exact (congrArg Boot.slot (Dev.boot_of_besides hlast)).trans hb.2

theorem State.eraseSnaps_dev (s : State) : s.eraseSnaps.dev.besides [.output] = s.dev.besides [.output] := by
  exact (Dev.emit_besides _ _ (List.Subset.refl _)).trans (Dev.emit_besides _ _ (List.Subset.refl _))

theorem Dev.runsPick_of_same {p : Pick} {d e : Dev} (h : d.runsPick p) (hb : e.besides [.output] = d.besides [.output]) : e.runsPick p := by
  have hcard := Dev.card_of_besides hb
  have hboot := Dev.boot_of_besides hb
  unfold Dev.runsPick
  rw [Dev.phase_of_besides hb, hcard, hboot]
  exact h

/-- A start that is not held back by heat or by a trip ends as R53, R64 and R65 say. -/
theorem State.start_startedFrom (f : StartFindings) (s : State) (htj : s.dev.power.heldTj < 125) (htrip : s.dev.power.tripPin = false) :
    startedFrom f s (s.start f) := by
  have hgo : ¬ (125 ≤ (s.emit (.flashReset false)).dev.power.heldTj ∨ (s.emit (.flashReset false)).dev.power.tripPin = true) := by
    rintro (h | h)
    · exact absurd htj (not_lt.2 h)
    · exact absurd (htrip.symm.trans h) (by decide)
  unfold State.start
  dsimp only
  rw [if_neg hgo]
  generalize State.putFlash _ _ = u
  split
  · next hpick =>
    have hrecover : (u.dev.recover.when f.flashError (Dev.bootEvent 6)).phase = .recovery := by
      unfold Dev.when
      split
      · exact Dev.phase_of_besides (Dev.bootEvent_besides 6 u.dev.recover (List.Subset.refl _))
      · rfl
    unfold startedFrom
    rw [show (if f.hbmBad then none else (s.flash.pick s.dev.die.variant s.fuses).1) = none from hpick]
    exact hrecover
  · next p hpick =>
    have hruns : (if u.dev.keep.discard then { u with dev := u.dev.startWith p f u.flash }.eraseSnaps
        else { u with dev := u.dev.startWith p f u.flash }).dev.runsPick p := by
      split
      · exact Dev.runsPick_of_same (Dev.startWith_runsPick p f u.flash u.dev) (State.eraseSnaps_dev { u with dev := _ })
      · exact Dev.startWith_runsPick p f u.flash u.dev
    unfold startedFrom
    rw [show (if f.hbmBad then none else (s.flash.pick s.dev.die.variant s.fuses).1) = some p from hpick]
    exact hruns

/-- Settles O12. -/
theorem coldStarts : Obligations.ColdStarts := by
  refine ⟨fun s => ⟨exec_sysRstNAssert s, exec_testenAssert s, exec_mainRailFail s, exec_standbyPowerOn s, exec_standbyBrownout s⟩,
    fun f s hheld htj htrip => ⟨fun hrails => ?_, fun hlow htest => ?_⟩⟩
  · have hexec : exec (.coldStart f) s = .next (State.start f { s with dev := { s.dev with resetLow := false, testen := false } }) := by
      simp only [exec, execColdStart, hheld, hrails, ne_eq, not_true_eq_false, if_false, if_true]
    exact ⟨_, hexec, State.start_startedFrom f { s with dev := { s.dev with resetLow := false, testen := false } } htj htrip⟩
  · have hexec : exec (.mainRailsRestored f) s = .next (State.start f { s with dev := { s.dev with railsGood := true } }) := by
      simp only [exec, execMainRailsRestored, hheld, hlow, htest, and_self, if_true]
    exact ⟨_, hexec, State.start_startedFrom f { s with dev := { s.dev with railsGood := true } } htj htrip⟩

end Sys2Proof.Machine
end

section
/-!
Service resets (R81-R83, R168).
-/

namespace Sys2Proof.Machine

/-! ## Service resets -/

theorem Dev.beginService_idle {d : Dev} (cause : Nat) (h : d.phase ≠ .running) : d.beginService cause = d := if_pos h

/-- What a service reset has done by the end of its fourth step (R82). -/
def Dev.inService (cause : Nat) (d : Dev) : Prop :=
  d.phase = .serviceReset ∧ d.card.valid = false ∧ d.boot.resetCause = cause ∧ d.jobs = {} ∧ d.apply = none ∧ d.replays = []

theorem Dev.stopCard_valid (d : Dev) : d.stopCard.card.valid = false := by
  unfold Dev.stopCard
  dsimp only
  split
  · exact congrArg Card.valid (Dev.card_of_besides (Dev.stpDown_besides 5 _ (List.Subset.refl _)))
  · rfl

/-- Steps 2 and 3 with the closing of retention leave the phase, the card and the start record. -/
theorem Dev.saveForService_besides (d : Dev) :
    ((((d.serviceXoff.dropCryptoStage).dropReads).saveItems).stopSets.settlePositions.commitRecord.beginRecord.commitRecord.supersedeRecords).besides
      [.positions, .links, .rings, .items, .ports, .sets, .storage, .retained, .registers, .output] =
    d.besides [.positions, .links, .rings, .items, .ports, .sets, .storage, .retained, .registers, .output] := by
  rw [Dev.supersedeRecords_besides _ (by decide), Dev.commitRecord_besides _ (by decide), Dev.beginRecord_besides _ (by decide),
    Dev.commitRecord_besides _ (by decide), Dev.settlePositions_besides _ (by decide), Dev.stopSets_besides _ (by decide),
    Dev.saveItems_besides _ (by decide), Dev.dropReads_besides _ (by decide), Dev.dropCryptoStage_besides _ (by decide),
    Dev.serviceXoff_besides _ (by decide)]

theorem Dev.beginService_inService (cause : Nat) {d : Dev} (h : d.phase = .running) : (d.beginService cause).inService cause := by
  unfold Dev.beginService
  rw [if_neg (not_not.2 h)]
  extract_lets stopped b begun saved kept b' cut
  have hkept := Dev.saveForService_besides { stopped with phase := .serviceReset, boot := { b with resetCause := cause } }
  have hphase : kept.phase = .serviceReset := Dev.phase_of_besides hkept
  have hvalid : kept.card.valid = false := (congrArg Card.valid (Dev.card_of_besides hkept)).trans d.stopCard_valid
  have hcause : kept.boot.resetCause = cause := congrArg Boot.resetCause (Dev.boot_of_besides hkept)
  have hcut : cut.phase = .serviceReset ∧ cut.card.valid = false ∧ cut.boot.resetCause = cause := by
    unfold cut
    split
    · exact ⟨hphase, hvalid, hcause⟩
    · exact ⟨hphase, hvalid, hcause⟩
  have hclear := cut.clearForService_besides (List.Subset.refl _)
  have hlast : (cut.clearForService.closeBoost.requestVdd 750 0).besides [.power, .retained, .registers, .output] =
      cut.clearForService.besides [.power, .retained, .registers, .output] :=
    (Dev.requestVdd_besides 750 0 _ (by decide)).trans (Dev.closeBoost_besides _ (by decide))
  refine ⟨?_, ?_, ?_, Dev.jobs_of_besides hlast, Dev.apply_of_besides hlast, Dev.replays_of_besides hlast⟩
  · exact (Dev.phase_of_besides hlast).trans ((Dev.phase_of_besides hclear).trans hcut.1)
  · exact (congrArg Card.valid ((Dev.card_of_besides hlast).trans (Dev.card_of_besides hclear))).trans hcut.2.1
  · exact (congrArg Boot.resetCause ((Dev.boot_of_besides hlast).trans (Dev.boot_of_besides hclear))).trans hcut.2.2

/-! ## The log of withheld writes -/

theorem State.finishService_still {s : State} (h : s.dev.phase ≠ .serviceReset) : s.finishService = s := if_pos h

theorem exec_doorbellLogDrained_running (link : Nat) {s : State} (h : s.dev.phase = .running) :
    exec (.doorbellLogDrained link) s = .next (s.releaseLink link) := by
  have hs : s.finishService = s := State.finishService_still (by rw [h]; decide)
  show execDoorbellLogDrained link s = _
  unfold execDoorbellLogDrained
  simp only [hs, h, if_true]

/-- With no write kept for the link, only its credits are released. -/
theorem State.releaseLink_empty (link : Nat) (s : State) (h : ∀ w ∈ s.dev.boot.withheld, s.dev.heldLink w ≠ link) :
    s.releaseLink link = { s with dev := { s.dev with boot := { s.dev.boot with logFull := s.dev.boot.logFull.filter (· != link) } } } := by
  have hmine : s.dev.boot.withheld.filter (fun w => s.dev.heldLink w == link) = [] :=
    List.filter_eq_nil_iff.2 fun w hw => by simpa using h w hw
  have hrest : s.dev.boot.withheld.filter (fun w => !(s.dev.heldLink w == link)) = s.dev.boot.withheld :=
    List.filter_eq_self.2 fun w hw => by simpa using h w hw
  simp only [State.releaseLink, List.partition_eq_filter_filter, Function.comp_def, hmine, hrest, List.foldl_nil]

/-- A doorbell that was the only write kept arrives. -/
theorem State.releaseLink_doorbell (link fn page slot word value : Nat) (s : State)
    (h : s.dev.boot.withheld = [.doorbell fn page slot word value]) (hlink : s.dev.linkOf fn = link) :
    s.releaseLink link = { s with
      dev := { s.dev with boot := { s.dev.boot with logFull := s.dev.boot.logFull.filter (· != link), withheld := [] } }.doorbellArrives
        fn page slot word value } := by
  have hheld : s.dev.heldLink (.doorbell fn page slot word value) = link := hlink
  simp only [State.releaseLink, h, List.partition_eq_filter_filter, Function.comp_def, List.filter_cons, hheld, beq_self_eq_true, if_true,
    List.filter_nil, Bool.not_true, Bool.false_eq_true, if_false, List.foldl_cons, List.foldl_nil, State.releaseWrite]

theorem exec_doorbellLogDrained_empty (link : Nat) (s : State) (h : s.dev.phase = .running)
    (hheld : ∀ w ∈ s.dev.boot.withheld, s.dev.heldLink w ≠ link) :
    ∃ t, exec (.doorbellLogDrained link) s = .next t ∧ link ∉ t.dev.boot.logFull ∧
      (∀ n, n ≠ link → (n ∈ t.dev.boot.logFull ↔ n ∈ s.dev.boot.logFull)) ∧ t = { s with dev := { s.dev with boot := t.dev.boot } } := by
  refine ⟨_, exec_doorbellLogDrained_running link h, ?_⟩
  rw [State.releaseLink_empty link s hheld]
  refine ⟨?_, fun n hn => ?_, rfl⟩
  · simp only [List.mem_filter, bne_self_eq_false, Bool.false_eq_true, and_false, not_false_eq_true]
  · simp only [List.mem_filter, bne_iff_ne, ne_eq, hn, not_false_eq_true, and_true]

theorem exec_serviceReplayDone_through (s : State) (h : s.dev.phase = .running) (hon : s.dev.on R.LGR_STATUS_service_replay = true)
    (hopen : s.dev.savedOpen = false) :
    ∃ t, exec .serviceReplayDone s = .next t ∧ t.dev.rd R.LGR_STATUS_service_replay = 0 ∧ t.dev.on (lgrCauses.bit 5) = true := by
  have hs : s.finishService = s := State.finishService_still (by rw [h]; decide)
  have hexec : exec .serviceReplayDone s = .next { s with dev := (s.dev.wr R.LGR_STATUS_service_replay 0).cause lgrCauses 5 } := by
    show execServiceReplayDone s = _
    unfold execServiceReplayDone
    rw [hs, State.onRun_running _ h]
    simp only [hon, hopen, Bool.not_false, Bool.and_true, if_true]
  refine ⟨_, hexec, ?_, Dev.cause_on ..⟩
  rw [Dev.rd_cause_ne _ _ _ _ _ _ _ (by decide), Dev.rd_wr_self]
  rfl

/-- Settles O13. -/
theorem serviceResets : Obligations.ServiceResets := by
  refine ⟨fun s => ⟨fun h => ⟨⟨_, rfl, Dev.beginService_inService 4 h⟩, ⟨_, rfl, Dev.beginService_inService 5 h⟩⟩, fun h => ⟨?_, ?_⟩⟩,
    fun link s h => ⟨exec_doorbellLogDrained_empty link s h, fun fn page slot word value hheld hlink => ?_, exec_serviceReplayDone_through s h⟩⟩
  · exact congrArg (fun d => Host.Outcome.next { s with dev := d }) (Dev.beginService_idle 4 h)
  · exact congrArg (fun d => Host.Outcome.next { s with dev := d }) (Dev.beginService_idle 5 h)
  · rw [exec_doorbellLogDrained_running link h, State.releaseLink_doorbell link fn page slot word value s hheld hlink]

end Sys2Proof.Machine
end

section
/-!
Snapshots, retention records and the discard command (R76, R77, R79).
-/

namespace Sys2Proof.Machine

/-! ## Snapshots -/

/-- R77. -/
theorem State.snapStart_begun (s : State) (h : s.dev.boot.snapshot = none) : snapshotBegun s s.snapStart := by
  have hstart : s.snapStart = { s with
      flash := s.flash.putSnap s.flash.olderSnap none
      dev := { s.dev with boot := { s.dev.boot with snapshot := some (s.dev.retain s.flash.snapSeq), snapSlot := s.flash.olderSnap } }.wr
        R.BOOT_STATUS_snap_busy 1 |>.emit (.flashErase (s.flash.snapAddr s.flash.olderSnap) 32) } := by
    simp only [State.snapStart, h, Option.isSome_none, Bool.false_eq_true, if_false]
    rfl
  rw [hstart]
  exact ⟨rfl, rfl, rfl, Dev.rd_wr_self .., rfl⟩

theorem exec_snapshotNow (s : State) (h : s.dev.phase = .running) (hsnap : s.dev.boot.snapshot = none) :
    ∃ t, exec .snapshotNow s = .next t ∧ snapshotBegun s t :=
  ⟨_, State.ifRunning_running _ h, s.snapStart_begun hsnap⟩

theorem exec_snapshotIntervalExpiry (s : State) (h : s.dev.phase = .running) (hsnap : s.dev.boot.snapshot = none)
    (hon : s.dev.on R.BOOT_CONTROL_snap_interval = true) : ∃ t, exec .snapshotIntervalExpiry s = .next t ∧ snapshotBegun s t :=
  ⟨_, State.ifRunning_running _ h, by
    rw [if_pos hon]
    exact s.snapStart_begun hsnap⟩

/-- The device at the end of a snapshot write, before its result is shown. -/
def Dev.snapEnded (at_ : Nat) (d : Dev) : Dev :=
  (({ d.free.2 with boot := { d.free.2.boot with snapshot := none } }).wr R.BOOT_STATUS_snap_busy 0).emit (.flashProgram at_ (d.free.1 % 8193))

theorem Dev.rd_snapEnded (at_ : Nat) (d : Dev) :
    (d.snapEnded at_).rd R.BOOT_STATUS_snap_busy = 0 ∧
      (d.snapEnded at_).rd R.BOOT_SNAP_COUNT_snapshots = d.rd R.BOOT_SNAP_COUNT_snapshots :=
  ⟨Dev.rd_wr_self .., Dev.rd_wr_ne _ _ _ _ _ _ _ _ (by decide)⟩

theorem State.snapDone_true {s : State} {r : Retained} (h : s.dev.boot.snapshot = some r) :
    s.snapDone true = { s with
      flash := s.flash.putSnap s.dev.boot.snapSlot (some r)
      dev := (((s.dev.snapEnded
          (s.flash.snapAddr s.dev.boot.snapSlot)).bump R.BOOT_SNAP_COUNT_snapshots).wr R.BOOT_SNAP_RESULT_last 1).bootEvent 2 } := by
  unfold State.snapDone
  rw [h]
  rfl

theorem State.snapDone_false {s : State} {r : Retained} (h : s.dev.boot.snapshot = some r) :
    s.snapDone false = { s with
      dev := (((s.dev.snapEnded (s.flash.snapAddr s.dev.boot.snapSlot)).wr R.BOOT_SNAP_RESULT_last 2).bootEvent 3).bootEvent 6 } := by
  unfold State.snapDone
  rw [h]
  rfl

theorem exec_snapshotWriteDone_true (s : State) (r : Retained) (h : s.dev.boot.snapshot = some r) :
    ∃ t, exec (.snapshotWriteDone true) s = .next t ∧ t.flash = s.flash.putSnap s.dev.boot.snapSlot (some r) ∧
      t.dev.rd R.BOOT_SNAP_RESULT_last = 1 ∧ t.dev.rd R.BOOT_STATUS_snap_busy = 0 ∧
      t.dev.rd R.BOOT_SNAP_COUNT_snapshots = (s.dev.rd R.BOOT_SNAP_COUNT_snapshots + 1) % 2 ^ 32 := by
  obtain ⟨hbusy, hcount⟩ := s.dev.rd_snapEnded (s.flash.snapAddr s.dev.boot.snapSlot)
  refine ⟨_, congrArg Host.Outcome.next (State.snapDone_true h), rfl, ?_, ?_, ?_⟩
  · simp only [Dev.rd_bootEvent, Dev.rd_wr_self]
    rfl
  · simp (disch := decide) only [Dev.rd_bootEvent, Dev.rd_wr_ne, Dev.bump, hbusy]
  · rw [Dev.rd_bootEvent, Dev.rd_wr_ne _ _ _ _ _ _ _ _ (by decide), Dev.rd_bump_self, hcount]
    rfl

theorem exec_snapshotWriteDone_false (s : State) (r : Retained) (h : s.dev.boot.snapshot = some r) :
    ∃ t, exec (.snapshotWriteDone false) s = .next t ∧ t.flash = s.flash ∧ t.dev.rd R.BOOT_SNAP_RESULT_last = 2 ∧
      t.dev.rd R.BOOT_STATUS_snap_busy = 0 := by
  obtain ⟨hbusy, -⟩ := s.dev.rd_snapEnded (s.flash.snapAddr s.dev.boot.snapSlot)
  refine ⟨_, congrArg Host.Outcome.next (State.snapDone_false h), rfl, ?_, ?_⟩
  · simp only [Dev.rd_bootEvent, Dev.rd_wr_self]
    rfl
  · simp (disch := decide) only [Dev.rd_bootEvent, Dev.rd_wr_ne, hbusy]

/-! ## Retention records -/

/-- A record of a later sequence than both places hold is the one in force once it has been closed. -/
theorem Dev.endRecord_record {d : Dev} {r : Retained} (hclosing : d.keep.closing = some r)
    (hseq : r.seq = (d.keep.record.map Retained.seq).getD 0 + 1) : d.endRecord.keep.record = some r := by
  unfold Dev.endRecord
  rw [hclosing]
  dsimp only
  unfold Keep.record at hseq ⊢
  cases h0 : d.keep.rec0 with
  | none => cases h1 : d.keep.rec1 <;> simp_all
  | some a =>
    cases h1 : d.keep.rec1 with
    | none => simp_all
    | some b =>
      simp only [h0, h1] at hseq ⊢
      by_cases hab : a.seq < b.seq
      · have hr : ¬ r.seq < b.seq := by simp only [hseq, hab, if_true, Option.map_some, Option.getD_some]; omega
        simp only [not_le.2 hab, decide_false, Bool.false_eq_true, if_false, hr]
      · have hr : a.seq < r.seq := by simp only [hseq, hab, if_false, Option.map_some, Option.getD_some]; omega
        simp only [not_lt.1 hab, decide_true, if_true, hr]

theorem exec_retentionRecordClose (s : State) (h : s.dev.phase = .running) (hdirty : s.dev.keep.dirty = true)
    (hclosing : s.dev.keep.closing = none) :
    ∃ t r, exec .retentionRecordClose s = .next t ∧ t.dev.keep.record = some r ∧ r.vals = s.dev.regs.filter (fun k _ => isKKey k) ∧
      r.dieId = s.dev.die.dieId ∧ t.dev.keep.dirty = false ∧
      t.dev.rd R.BOOT_RET_COMMITS_commits = (s.dev.rd R.BOOT_RET_COMMITS_commits + 1) % 2 ^ 32 := by
  have hbegin : s.dev.beginRecord = { s.dev with keep := { s.dev.keep with
      closing := some (s.dev.retain ((s.dev.keep.record.map Retained.seq).getD 0 + 1)), dirty := false } } := by
    simp only [Dev.beginRecord, hclosing, Option.isSome_none, Bool.false_eq_true, if_false]
  have hexec : exec .retentionRecordClose s = .next { s with dev := s.dev.beginRecord.endRecord.bump R.BOOT_RET_COMMITS_commits } := by
    show execRetentionRecordClose s = _
    unfold execRetentionRecordClose
    rw [State.onLive_running _ h]
    simp only [hdirty, if_true, Dev.commitRecord, hbegin, Option.isSome_some]
  have hdirty' : s.dev.beginRecord.endRecord.keep.dirty = false := by rw [Dev.endRecord_dirty, hbegin]
  have hrecord : s.dev.beginRecord.endRecord.keep.record = some (s.dev.retain ((s.dev.keep.record.map Retained.seq).getD 0 + 1)) :=
    Dev.endRecord_record (by rw [hbegin]) (by rw [hbegin]; rfl)
  have hregs : s.dev.beginRecord.endRecord.regs = s.dev.regs :=
    Dev.regs_of_besides ((Dev.endRecord_besides _ (List.Subset.refl _)).trans (Dev.beginRecord_besides _ (List.Subset.refl _)))
  refine ⟨_, _, hexec, hrecord, rfl, rfl, hdirty', ?_⟩
  rw [Dev.rd_bump_self, Dev.rd_congr hregs]
  rfl

/-! ## The discard command -/

theorem State.discard_discardedFrom (s : State) : discardedFrom s s.discard :=
  ⟨rfl, rfl, rfl, rfl, rfl, rfl, rfl, rfl, rfl, rfl, rfl⟩

theorem State.discard_out (s : State) :
    s.discard.dev.out = s.dev.out ++ [.flashErase (s.flash.snapAddr 0) 32, .flashErase (s.flash.snapAddr 1) 32] :=
  List.append_assoc ..

/-- Settles O14. -/
theorem retainedState : Obligations.RetainedState := by
  refine ⟨fun s => ⟨fun h hsnap => ⟨exec_snapshotNow s h hsnap, exec_snapshotIntervalExpiry s h hsnap⟩,
      fun r hr => ⟨exec_snapshotWriteDone_true s r hr, exec_snapshotWriteDone_false s r hr⟩, fun hclosing => ⟨_, rfl, rfl, ?_⟩,
      exec_retentionRecordClose s⟩,
    fun s => ⟨fun h => ⟨_, State.ifRunning_running _ h, s.discard_discardedFrom, s.discard_out⟩, ⟨_, rfl, s.discard_discardedFrom⟩⟩⟩
  simp only [hclosing, Bool.or_true]

end Sys2Proof.Machine
end

section
/-!
Orderly shutdown and trial images (R63, R64, R78).
-/

namespace Sys2Proof.Machine

/-! ## Orderly shutdown -/

theorem exec_orderlyShutdown (s : State) (h : s.dev.phase = .running) :
    ∃ t, exec .orderlyShutdown s = .next t ∧ t.dev.boot.shutdown = true ∧ t = { s with dev := { s.dev with boot := t.dev.boot } } :=
  ⟨_, (State.onRun_running _ h : execOrderlyShutdown s = _), rfl, rfl⟩

theorem State.snapStart_isSome (s : State) : s.snapStart.dev.boot.snapshot.isSome = true := by
  unfold State.snapStart
  split
  · assumption
  · rfl

theorem State.snapStart_shutdownDone (s : State) : s.snapStart.dev.boot.shutdownDone = s.dev.boot.shutdownDone := by
  unfold State.snapStart
  split <;> rfl

theorem exec_shutdownDrainDone (s : State) (h : s.dev.phase = .running) (hdown : s.dev.boot.shutdown = true)
    (hdone : s.dev.boot.shutdownDone = false) (hdrained : s.dev.drained = true) :
    ∃ t, exec .shutdownDrainDone s = .next t ∧ t.dev.boot.shutdownDone = true ∧
      (s.dev.on R.BOOT_CONTROL_snap_at_shutdown → t.dev.boot.snapshot.isSome = true) ∧
      (s.dev.on R.BOOT_CONTROL_snap_at_shutdown = false → t.flash = s.flash) := by
  refine ⟨_, State.ifRunning_running _ h, ?_⟩
  unfold State.shutdownDrained
  simp only [hdown, hdone, hdrained, Bool.not_true, Bool.or_false, Bool.false_eq_true, if_false]
  split
  · next hon => exact ⟨State.snapStart_shutdownDone _, fun _ => State.snapStart_isSome _, fun hoff => absurd (hon.symm.trans hoff) (by decide)⟩
  · next hoff =>
    refine ⟨congrArg Boot.shutdownDone (Dev.boot_of_besides (Dev.bootEvent_besides 2 _ (List.Subset.refl _))), fun hon => absurd hon hoff,
        fun _ => rfl⟩

/-! ## The confirmation of a trial image -/

theorem exec_confirmTrial (c : DirCopy) (img : Image) (s : State) (h : s.dev.phase = .running) (hdir : s.flash.dir = some c)
    (htrial : c.trial = true) (hon : s.dev.boot.onTrial = true) (himg : s.dev.boot.image = some img) :
    ∃ t, exec .confirmTrial s = .next t ∧
      t.flash = s.flash.writeDir { c with active := 1 - c.active, trial := false, trialLeft := 0 } ∧
      t.fuses.floor = (if img.raiseFloor then max s.fuses.floor (min 64 img.securityVersion) else s.fuses.floor) ∧
      t.fuses.slot0 = s.fuses.slot0 ∧ t.fuses.slot1 = s.fuses.slot1 ∧ t.fuses.slot2 = s.fuses.slot2 ∧ t.fuses.slot3 = s.fuses.slot3 ∧
      t.dev = { s.dev with boot := t.dev.boot, out := t.dev.out } := by
  refine ⟨_, State.ifRunning_running _ h, ?_⟩
  unfold State.confirmTrial
  simp only [hdir, himg, htrial, hon, Bool.and_self, if_true, State.putFlash, Dev.emitAll_eq]
  split <;> simp only [and_self]

/-- Settles O15. -/
theorem shutdownAndTrial : Obligations.ShutdownAndTrial :=
  ⟨fun s h => ⟨exec_orderlyShutdown s h, exec_shutdownDrainDone s h⟩, exec_confirmTrial⟩

end Sys2Proof.Machine
end

section
/-!
Pace and power (R88, R89, R94, R99).
-/

namespace Sys2Proof.Machine

/-! ## What the governor's operations leave -/

section
variable {g : Field} {j a : Nat}

/-- A request over AVSBus writes the request and its cause. -/
theorem Dev.rd_requestVdd (d : Dev) (mv c : Nat) (hreq : g.key j a ≠ R.PWR_VDD_request_mv.key 0 0) (hcause : g.key j a ≠ R.PWR_VDD_cause.key 0 0) :
    (d.requestVdd mv c).rd g j a = d.rd g j a := by
  unfold Dev.requestVdd
  dsimp only
  split
  · exact Dev.rd_wr_ne _ _ _ _ _ _ _ _ hcause
  · rw [Dev.rd_wr_ne _ _ _ _ _ _ _ _ hcause, Dev.rd_wr_ne _ _ _ _ _ _ _ _ hreq]
    split <;> rfl

theorem Dev.rd_floorJump (d : Dev) (hreq : g.key j a ≠ R.PWR_VDD_request_mv.key 0 0) (hcause : g.key j a ≠ R.PWR_VDD_cause.key 0 0) :
    d.floorJump.rd g j a = d.rd g j a := by
  unfold Dev.floorJump
  split
  · exact d.rd_requestVdd _ _ hreq hcause
  · rfl

theorem Dev.rd_updateHeadroom (d : Dev) (hhead : g.key j a ≠ R.PWR_HEADROOM_headroom.key 0 0) (hfill : g.key j a ≠ R.PWR_HEADROOM_filled.key 0 0) :
    d.updateHeadroom.rd g j a = d.rd g j a := by
  have hwr (v w : Nat) : ((d.wr R.PWR_HEADROOM_headroom v).wr R.PWR_HEADROOM_filled w).rd g j a = d.rd g j a := by
    rw [Dev.rd_wr_ne _ _ _ _ _ _ _ _ hfill, Dev.rd_wr_ne _ _ _ _ _ _ _ _ hhead]
  unfold Dev.updateHeadroom
  dsimp only
  split
  · rfl
  · split
    · exact (Dev.rd_pwrEvent ..).trans (hwr _ _)
    · exact hwr _ _

theorem Dev.rd_closeBoost (d : Dev) (hopen : g.key j a ≠ R.PWR_VDD_boost_open.key 0 0) (hreq : g.key j a ≠ R.PWR_VDD_request_mv.key 0 0)
    (hcause : g.key j a ≠ R.PWR_VDD_cause.key 0 0) : d.closeBoost.rd g j a = d.rd g j a := by
  have hwr : (d.wr R.PWR_VDD_boost_open 0).rd g j a = d.rd g j a := Dev.rd_wr_ne _ _ _ _ _ _ _ _ hopen
  unfold Dev.closeBoost
  dsimp only
  split
  · split
    · exact (Dev.rd_requestVdd _ _ _ hreq hcause).trans hwr
    · exact hwr
  · rfl

theorem Dev.rd_checkBoost (d : Dev) (hopen : g.key j a ≠ R.PWR_VDD_boost_open.key 0 0) (hreq : g.key j a ≠ R.PWR_VDD_request_mv.key 0 0)
    (hcause : g.key j a ≠ R.PWR_VDD_cause.key 0 0) : d.checkBoost.rd g j a = d.rd g j a := by
  unfold Dev.checkBoost
  split
  · exact d.rd_closeBoost hopen hreq hcause
  · rfl

end

/-- The island of the governor holds no register but its own: a field of its window reads as before a record of an error. -/
theorem Dev.rd_pwrRecord (x : Err) (d : Dev) (g : Field) (h : g.key 0 0 < fltBase) : (d.record x).rd g = d.rd g :=
  d.rd_record x g 0 0 h

/-! ## Pace -/

/-- The smallest of a list of values and one more is one of them. -/
theorem foldl_min_map {α : Type} (f : α → Nat) (l : List α) (k : α) :
    ∃ m, (m = k ∨ m ∈ l) ∧ (l.map f).foldl min (f k) = f m ∧ f m ≤ f k ∧ ∀ j ∈ l, f m ≤ f j := by
  induction l generalizing k with
  | nil => exact ⟨k, .inl rfl, rfl, Nat.le_refl _, fun j hj => absurd hj List.not_mem_nil⟩
  | cons x l ih =>
    have hmin : ∃ n, (n = k ∨ n = x) ∧ min (f k) (f x) = f n := by
      rcases Nat.le_total (f k) (f x) with hle | hle
      · exact ⟨k, .inl rfl, Nat.min_eq_left hle⟩
      · exact ⟨x, .inr rfl, Nat.min_eq_right hle⟩
    obtain ⟨n, hn, hfn⟩ := hmin
    obtain ⟨m, hm, hfold, hle, hall⟩ := ih n
    have hk : f n ≤ f k := hfn ▸ Nat.min_le_left _ _
    have hx : f n ≤ f x := hfn ▸ Nat.min_le_right _ _
    refine ⟨m, ?_, ?_, hle.trans hk, fun j hj => ?_⟩
    · rcases hm with hm | hm
      · exact hn.imp hm.trans (fun h => List.mem_cons.2 (.inl (hm.trans h)))
      · exact .inr (List.mem_cons_of_mem _ hm)
    · rw [List.map_cons, List.foldl_cons, hfn, hfold]
    · rcases List.mem_cons.1 hj with rfl | hj
      · exact hle.trans hx
      · exact hall j hj

/-- R88: the ring whose quotient is the smallest gives the Pace. -/
theorem Dev.paceOf_smallest (d : Dev) (counts : List Nat) :
    ∃ k, k < 16 ∧ (∀ j, j < 16 → d.ringQuotient counts k ≤ d.ringQuotient counts j) ∧
      d.paceOf counts = min 0xFFFF (d.ringQuotient counts k * 99 / 100) := by
  obtain ⟨k, hk, hfold, -, hall⟩ := foldl_min_map (d.ringQuotient counts) (List.range 16) 0
  refine ⟨k, ?_, fun j hj => hall j (List.mem_range.2 hj), by rw [Dev.paceOf, hfold]⟩
  rcases hk with rfl | hk
  · decide
  · exact List.mem_range.1 hk

/-- What a measurement of Pace publishes. -/
theorem Dev.rd_measurePace (counts : List Nat) (d : Dev) :
    (d.measurePace counts).rd R.PWR_PACE_pace = d.paceOf counts ∧
      (d.measurePace counts).rd R.PWR_PACE_LOW_pace_low = min (d.paceOf counts) (d.rd R.PWR_PACE_LOW_pace_low) := by
  have hpace : d.paceOf counts < 2 ^ 16 := by
    unfold Dev.paceOf
    omega
  unfold Dev.measurePace
  extract_lets pace old d₁ d₂ d₃
  have hfloor : d₃.rd R.PWR_PACE_pace = d₂.rd R.PWR_PACE_pace ∧ d₃.rd R.PWR_PACE_LOW_pace_low = d₂.rd R.PWR_PACE_LOW_pace_low := by
    show (if _ then _ else _ : Dev).rd _ = _ ∧ (if _ then _ else _ : Dev).rd _ = _
    split
    · simp (disch := decide) only [Dev.rd_pwrRecord, Dev.rd_pwrEvent, Dev.rd_wr_ne, and_self]
    · exact ⟨rfl, rfl⟩
  have hlow : min pace (d₁.rd R.PWR_PACE_LOW_pace_low) < 2 ^ 16 := (Nat.min_le_left ..).trans_lt hpace
  constructor
  · rw [Dev.rd_updateHeadroom _ (by decide) (by decide), Dev.rd_floorJump _ (by decide) (by decide), hfloor.1,
      Dev.rd_wr_ne _ _ _ _ _ _ _ _ (by decide), Dev.rd_wr_self]
    exact Nat.mod_eq_of_lt hpace
  · rw [Dev.rd_updateHeadroom _ (by decide) (by decide), Dev.rd_floorJump _ (by decide) (by decide), hfloor.2, Dev.rd_wr_self]
    exact Nat.mod_eq_of_lt hlow

theorem exec_paceMeasure (counts : List Nat) (s : State) (h : s.dev.phase.powered = true) :
    ∃ t k, exec (.paceMeasure counts) s = .next t ∧ k < 16 ∧
      (∀ j, j < 16 → counts.getD k 0 * 32768 / s.dev.die.ringRefs.getD k 1 ≤ counts.getD j 0 * 32768 / s.dev.die.ringRefs.getD j 1) ∧
      t.dev.rd R.PWR_PACE_pace = min 0xFFFF (counts.getD k 0 * 32768 / s.dev.die.ringRefs.getD k 1 * 99 / 100) ∧
      t.dev.rd R.PWR_PACE_LOW_pace_low = min (t.dev.rd R.PWR_PACE_pace) (s.dev.rd R.PWR_PACE_LOW_pace_low) := by
  obtain ⟨k, hk, hall, hpace⟩ := s.dev.paceOf_smallest counts
  obtain ⟨hpub, hlow⟩ := s.dev.rd_measurePace counts
  exact ⟨_, k, State.onIsland_powered _ h, hk, hall, hpub.trans hpace, hlow.trans (congrArg (min · _) hpub.symm)⟩

theorem exec_paceLowPersist (s : State) (h : s.dev.phase.powered = true) (hlow : s.dev.rd R.PWR_PACE_pace < s.dev.rd R.PWR_TARGET_pace_target) :
    ∃ t, exec .paceLowPersist s = .next t ∧ t.dev.on R.PWR_STICKY_pace_low = true ∧ t.dev.rd R.PWR_PACE_pace = s.dev.rd R.PWR_PACE_pace := by
  refine ⟨_, State.onIsland_powered _ h, ?_, ?_⟩
  · simp only [if_pos hlow, Dev.on, Dev.rd_pwrEvent, Dev.rd_wr_self]
    rfl
  · simp only [if_pos hlow, Dev.rd_pwrEvent, Dev.rd_wr_ne _ _ _ _ _ _ _ _ (show R.PWR_PACE_pace.key 0 0 ≠ R.PWR_STICKY_pace_low.key 0 0 by decide)]

/-! ## Power -/

theorem Dev.closeBoost_capped (d : Dev) : d.closeBoost.power.capped = d.power.capped := by
  have hreq (e : Dev) (mv c : Nat) : (e.requestVdd mv c).power = e.power :=
    Dev.power_of_besides (Dev.requestVdd_besides mv c e (List.Subset.refl _))
  unfold Dev.closeBoost
  dsimp only
  split
  · split
    · rw [hreq]
      rfl
    · rfl
  · rfl

theorem Dev.checkBoost_capped (d : Dev) : d.checkBoost.power.capped = d.power.capped := by
  unfold Dev.checkBoost
  split
  · exact d.closeBoost_capped
  · rfl

/-- R99: the figure that is published. -/
theorem Dev.publishPower_figure (ma dw : Nat) (d : Dev) :
    (d.publishPower ma dw).rd R.PWR_POWER_power_1ms = min 0xFFFF (ma * d.rd R.PWR_VDD_request_mv / 100000 + dw) := by
  unfold Dev.publishPower
  extract_lets p log limit run d₁ d₂ d₃ d₄
  have hlast : d₄.rd R.PWR_POWER_power_1ms = d₃.rd R.PWR_POWER_power_1ms := by
    show (if _ then _ else _ : Dev).rd _ = _
    split
    · rw [Dev.rd_pwrRecord _ _ _ (by decide), Dev.rd_pwrEvent, Dev.rd_wr_ne _ _ _ _ _ _ _ _ (by decide)]
      rfl
    · rfl
  have hp : p < 2 ^ 16 := by
    show min 0xFFFF _ < _
    omega
  rw [Dev.rd_checkBoost _ (by decide) (by decide) (by decide), hlast]
  show d₂.rd _ = _
  rw [Dev.rd_wr_ne _ _ _ _ _ _ _ _ (by decide), Dev.rd_wr_self]
  exact Nat.mod_eq_of_lt hp

/-- R99: a figure above 360 W caps the power. -/
theorem Dev.publishPower_capped {ma dw : Nat} {d : Dev} (hlimit : 10 * d.rd R.PWR_LIMIT_power_limit < 3600)
    (hover : 3600 < ma * d.rd R.PWR_VDD_request_mv / 100000 + dw) :
    (d.publishPower ma dw).power.capped = true ∧ (d.publishPower ma dw).on R.PWR_STICKY_power_cap = true := by
  have hrecord (x : Err) (e : Dev) : (e.record x).power = e.power := Dev.power_of_besides (Dev.record_besides x e (List.Subset.refl _))
  have hevent (e : Dev) : (e.pwrEvent 4).power = e.power := Dev.power_of_besides (Dev.pwrEvent_besides 4 e (List.Subset.refl _))
  unfold Dev.publishPower
  extract_lets p log limit run d₁ d₂ d₃ d₄
  have hp : 3600 < p := by
    show 3600 < min 0xFFFF _
    omega
  have hfour : d₄ = (((d₃.onPower (fun w => { w with capped := limit ≤ p })).wr R.PWR_STICKY_power_cap 1).pwrEvent 4).record
      { unit := 3, severity := 4, code := 0xA, detail0 := p } := if_pos (by simp only [hp, decide_true, Bool.true_or])
  constructor
  · rw [Dev.checkBoost_capped, hfour, hrecord, hevent]
    exact decide_eq_true (hlimit.le.trans hp.le)
  · rw [Dev.on, Dev.rd_checkBoost _ (by decide) (by decide) (by decide), hfour, Dev.rd_pwrRecord _ _ _ (by decide), Dev.rd_pwrEvent, Dev.rd_wr_self]
    rfl

theorem exec_powerPublish (ma dw : Nat) (s : State) (h : s.dev.phase.powered = true) :
    ∃ t, exec (.powerPublish ma dw) s = .next t ∧
      t.dev.rd R.PWR_POWER_power_1ms = min 0xFFFF (ma * s.dev.rd R.PWR_VDD_request_mv / 100000 + dw) ∧
      (10 * s.dev.rd R.PWR_LIMIT_power_limit < 3600 → 3600 < ma * s.dev.rd R.PWR_VDD_request_mv / 100000 + dw →
        t.dev.power.capped = true ∧ t.dev.on R.PWR_STICKY_power_cap = true) :=
  ⟨_, State.onIsland_powered _ h, s.dev.publishPower_figure ma dw, Dev.publishPower_capped⟩

/-- Settles O16. -/
theorem powerAndPacePublished : Obligations.PowerAndPacePublished :=
  ⟨fun s h => ⟨fun counts => exec_paceMeasure counts s h, exec_paceLowPersist s h⟩, exec_powerPublish⟩

end Sys2Proof.Machine
end

section
/-!
The governor, boost and AVSBus (R93-R97, R489).
-/

namespace Sys2Proof.Machine

/-! ## Requests of the governor -/

theorem Dev.power_requestVdd (d : Dev) (mv c : Nat) : (d.requestVdd mv c).power = d.power :=
  Dev.power_of_besides (Dev.requestVdd_besides mv c d (List.Subset.refl _))

theorem Dev.power_pwrEvent (d : Dev) (n : Nat) : (d.pwrEvent n).power = d.power :=
  Dev.power_of_besides (Dev.pwrEvent_besides n d (List.Subset.refl _))

/-- R96: while steering is not stopped, a request stands in VDD with its cause. -/
theorem Dev.rd_requestVdd_self {d : Dev} (mv c : Nat) (h : d.power.avsStopped = false) :
    (d.requestVdd mv c).rd R.PWR_VDD_request_mv = mv % 4096 ∧ (d.requestVdd mv c).rd R.PWR_VDD_cause = c % 2 ^ R.PWR_VDD_cause.width := by
  unfold Dev.requestVdd
  simp only [h, Bool.false_eq_true, if_false]
  refine ⟨?_, Dev.rd_wr_self ..⟩
  rw [Dev.rd_wr_ne _ _ _ _ _ _ _ _ (by decide), Dev.rd_wr_self]
  rfl

/-! ## Boost -/

/-- What boost time leaves of what the governor steers by. -/
structure Dev.steersAlike (d e : Dev) : Prop where
  stopped : e.power.avsStopped = d.power.avsStopped
  phase : e.phase = d.phase
  vmin : e.rd R.PWR_AVS_CONFIG_avs_vmin = d.rd R.PWR_AVS_CONFIG_avs_vmin

theorem Dev.steersAlike.trans {c d e : Dev} (h : c.steersAlike d) (h' : d.steersAlike e) : c.steersAlike e :=
  ⟨h'.stopped.trans h.stopped, h'.phase.trans h.phase, h'.vmin.trans h.vmin⟩

theorem Dev.showBoost_power (d : Dev) : d.showBoost.power = d.power := Dev.power_of_besides (Dev.showBoost_besides d (List.Subset.refl _))

theorem Dev.rd_showBoost (d : Dev) (g : Field) (hused : g.key 0 0 ≠ R.PWR_BOOST_used_s.key 0 0)
    (hspent : g.key 0 0 ≠ R.PWR_STICKY_boost_spent.key 0 0) : d.showBoost.rd g = d.rd g := by
  unfold Dev.showBoost
  dsimp only
  split
  · rw [Dev.rd_pwrEvent, Dev.rd_wr_ne _ _ _ _ _ _ _ _ hspent, Dev.rd_wr_ne _ _ _ _ _ _ _ _ hused]
  · exact Dev.rd_wr_ne _ _ _ _ _ _ _ _ hused

theorem Dev.rd_showBoost_used (d : Dev) : d.showBoost.rd R.PWR_BOOST_used_s = d.boostUsed % 2 ^ 17 := by
  unfold Dev.showBoost
  dsimp only
  split
  · rw [Dev.rd_pwrEvent, Dev.rd_wr_ne _ _ _ _ _ _ _ _ (by decide), Dev.rd_wr_self]
    rfl
  · exact Dev.rd_wr_self ..

theorem Dev.countBoost_steersAlike (d : Dev) : d.steersAlike d.countBoost :=
  ⟨by rw [Dev.countBoost, Dev.showBoost_power]; rfl, Dev.phase_of_besides (Dev.countBoost_besides d (List.Subset.refl _)),
    Dev.rd_showBoost _ _ (by decide) (by decide)⟩

theorem Dev.boostTick_steersAlike (d : Dev) : d.steersAlike d.boostTick := by
  unfold Dev.boostTick
  dsimp only
  split
  · split
    · exact Dev.steersAlike.trans (d := d.onPower (fun p => { p with boostTicks := p.boostTicks + 1 })) ⟨rfl, rfl, rfl⟩
        (Dev.countBoost_steersAlike _)
    · exact ⟨rfl, rfl, rfl⟩
  · exact ⟨rfl, rfl, rfl⟩

theorem Dev.closeBoost_steersAlike (d : Dev) : d.steersAlike d.closeBoost := by
  refine ⟨?_, Dev.phase_of_besides (Dev.closeBoost_besides d (List.Subset.refl _)), Dev.rd_closeBoost _ (by decide) (by decide) (by decide)⟩
  unfold Dev.closeBoost
  dsimp only
  split
  · split
    · rw [Dev.power_requestVdd]
      rfl
    · rfl
  · rfl

theorem Dev.checkBoost_steersAlike (d : Dev) : d.steersAlike d.checkBoost := by
  unfold Dev.checkBoost
  split
  · exact d.closeBoost_steersAlike
  · exact ⟨rfl, rfl, rfl⟩

theorem Dev.openBoost_steersAlike (d : Dev) : d.steersAlike d.openBoost := by
  unfold Dev.openBoost
  split
  · have hopen : d.steersAlike ((d.wr R.PWR_VDD_boost_open 1).onPower (fun p => { p with boostTicks := 0 })) :=
      ⟨rfl, rfl, Dev.rd_wr_ne _ _ _ _ _ _ _ _ (by decide)⟩
    refine (hopen.trans (Dev.countBoost_steersAlike _)).trans ⟨?_, Dev.phase_of_besides (Dev.pwrEvent_besides 8 _ (List.Subset.refl _)),
      Dev.rd_pwrEvent ..⟩
    rw [Dev.power_pwrEvent]
  · exact ⟨rfl, rfl, rfl⟩

/-- With boost closed and disabled a tick of boost time only counts the time since the last interval. -/
theorem Dev.boost_disabled {d : Dev} (henable : d.on R.PWR_TARGET_boost_enable = false) (hopen : d.on R.PWR_VDD_boost_open = false) :
    d.boostTick.checkBoost.openBoost = d.onPower (fun p => { p with sinceBoost := min 200000 (p.sinceBoost + 1) }) := by
  have htick : d.boostTick = d.onPower (fun p => { p with sinceBoost := min 200000 (p.sinceBoost + 1) }) := by
    rw [Dev.boostTick, hopen]
    rfl
  have hopen' : d.boostTick.on R.PWR_VDD_boost_open = false := htick ▸ hopen
  have henable' : d.boostTick.on R.PWR_TARGET_boost_enable = false := htick ▸ henable
  have hcheck : d.boostTick.checkBoost = d.boostTick := by
    rw [Dev.checkBoost, hopen']
    rfl
  have hok : d.boostTick.boostOk = false := by
    simp only [Dev.boostOk, henable', Bool.false_and]
  rw [hcheck, Dev.openBoost, hok, Bool.and_false, Bool.false_and, Bool.false_and, ← htick]
  rfl

/-! ## The governor's tick -/

/-- A tick counts the time since the last step under heat (R93). -/
def Dev.heatTick (d : Dev) : Dev := d.onPower (fun p => { p with sinceThermal := min 200 (p.sinceThermal + 1) })

theorem Dev.governorTick_idle {d : Dev} (h : d.steers = false) : d.governorTick = d.heatTick := by
  show (if !d.heatTick.steers then d.heatTick else _) = _
  rw [show d.heatTick.steers = false from h]
  rfl

/-- What a tick of a governor that steers requests: what the rules ask for once boost time has been counted. -/
theorem Dev.governorTick_requests {d : Dev} (h : d.steers = true) :
    ∃ e : Dev, e.power.avsStopped = d.heatTick.boostTick.checkBoost.openBoost.power.avsStopped ∧
      d.governorTick = e.requestVdd d.heatTick.boostTick.checkBoost.openBoost.governorRule.1
        d.heatTick.boostTick.checkBoost.openBoost.governorRule.2 := by
  have hsteers : (!d.heatTick.steers) = false := by
    rw [show d.heatTick.steers = true from h]
    rfl
  unfold Dev.governorTick
  extract_lets d₀ d₁ next rule3 stepped d₂ d₃
  have hd₁ : d₁ = d.heatTick.boostTick.checkBoost.openBoost := rfl
  have hsteers₀ : (!d₀.steers) = false := hsteers
  have hd₂ : d₂.power = d₁.power := by
    show Dev.power (if _ then _ else _) = _
    split
    · exact Dev.power_pwrEvent ..
    · rfl
  clear_value d₂
  have hd₃ : d₃.power.avsStopped = d₂.power.avsStopped := rfl
  refine ⟨d₃, by rw [hd₃, hd₂, hd₁], ?_⟩
  rw [hsteers₀, if_neg Bool.false_ne_true, ← hd₁]

theorem exec_governorTick_tripped (s : State) (hrun : s.dev.power.avsStopped = false) (hstarted : s.dev.power.started = true)
    (h : s.dev.phase = .tripped) :
    ∃ t, exec .governorTick s = .next t ∧ t.dev.rd R.PWR_VDD_request_mv = s.dev.rd R.PWR_AVS_CONFIG_avs_vmin % 4096 ∧
      t.dev.rd R.PWR_VDD_cause = 6 := by
  have hsteers : s.dev.steers = true := by
    simp only [Dev.steers, hstarted, h]
    decide
  obtain ⟨e, hstopped, htick⟩ := Dev.governorTick_requests hsteers
  have hheat : s.dev.steersAlike s.dev.heatTick := ⟨rfl, rfl, rfl⟩
  have halike := ((hheat.trans (Dev.boostTick_steersAlike _)).trans (Dev.checkBoost_steersAlike _)).trans (Dev.openBoost_steersAlike _)
  generalize s.dev.heatTick.boostTick.checkBoost.openBoost = b at hstopped htick halike
  have hrule : b.governorRule = (s.dev.rd R.PWR_AVS_CONFIG_avs_vmin, 6) := by
    rw [Dev.governorRule, if_pos (halike.phase.trans h), halike.vmin]
  obtain ⟨hreq, hcause⟩ := Dev.rd_requestVdd_self (d := e) b.governorRule.1 b.governorRule.2 ((hstopped.trans halike.stopped).trans hrun)
  refine ⟨_, State.onIsland_powered _ (h ▸ rfl), ?_, ?_⟩
  · rw [htick, hreq, hrule]
  · rw [htick, hcause, hrule]
    rfl

/-- R97: a governor that does not steer leaves its request as it stands. -/
theorem exec_governorTick_idle (s : State) (hheld : s.dev.phase ≠ .held)
    (hidle : s.dev.power.started = false ∨ s.dev.phase ≠ .tripped ∧ s.dev.phase ≠ .running) :
    ∃ t, exec .governorTick s = .next t ∧ t.dev.regs = s.dev.regs ∧ t.dev.out = s.dev.out := by
  have hpowered : s.dev.phase.powered = true := by
    unfold Phase.powered
    split
    · contradiction
    · rfl
  have hsteers : s.dev.steers = false := by
    rcases hidle with hoff | ⟨htripped, hrunning⟩
    · simp only [Dev.steers, hoff, Bool.false_and]
    · simp only [Dev.steers, beq_eq_false_iff_ne.2 htripped, beq_eq_false_iff_ne.2 hrunning, Bool.or_self, Bool.and_false]
  refine ⟨_, State.onIsland_powered _ hpowered, ?_, ?_⟩
  · rw [Dev.governorTick_idle hsteers]
    rfl
  · rw [Dev.governorTick_idle hsteers]
    rfl

/-- R93: the rule that applies with boost closed, after the time since the last step has been counted. -/
theorem Dev.governorRule_stepped {d b : Dev} (h : d.phase = .running) (hopen : d.on R.PWR_VDD_boost_open = false)
    (hb : b = d.heatTick.onPower
      (fun p => { p with sinceBoost := min 200000 (p.sinceBoost + 1) })) :
    b.governorRule.1 = min 800 (max (d.rd R.PWR_AVS_CONFIG_avs_vmin) (steppedRequest d)) ∨
      (steppedRequest d = 800 ∧ b.governorRule.1 = 800) := by
  have hphase : b.phase ≠ .tripped := by
    rw [hb]
    exact fun hp => absurd (h.symm.trans hp) (by decide)
  have hceiling : b.vddCeiling = 800 := by
    rw [Dev.vddCeiling, hb]
    exact if_neg (fun hon => absurd (hopen.symm.trans hon) (by decide))
  have hclamp (mv : Nat) : b.clampVdd mv = min 800 (max (d.rd R.PWR_AVS_CONFIG_avs_vmin) mv) := by
    rw [Dev.clampVdd, hceiling, hb]
    rfl
  have hhot : b.power.hot = d.power.hot := hb ▸ rfl
  have hsince : 200 ≤ b.power.sinceThermal ↔ 199 ≤ d.power.sinceThermal := by
    rw [hb]
    show 200 ≤ min 200 (d.power.sinceThermal + 1) ↔ _
    omega
  have hover : b.overLimit = d.overLimit := hb ▸ rfl
  have hrd (f : Field) : b.rd f = d.rd f := hb ▸ rfl
  unfold Dev.governorRule steppedRequest
  simp only [hphase, if_false, hhot, hsince, hrd, hceiling, hclamp, hover, paceLow70, Bool.and_eq_true, decide_eq_true_eq]
  split
  · exact .inl rfl
  · split
    · exact .inr ⟨rfl, rfl⟩
    · left
      split
      · rfl
      · split
        · rfl
        · split <;> rfl

theorem exec_governorTick_steps (s : State) (hrun : s.dev.power.avsStopped = false) (hstarted : s.dev.power.started = true)
    (h : s.dev.phase = .running) (henable : s.dev.on R.PWR_TARGET_boost_enable = false) (hopen : s.dev.on R.PWR_VDD_boost_open = false) :
    ∃ t, exec .governorTick s = .next t ∧
      t.dev.rd R.PWR_VDD_request_mv = min 800 (max (s.dev.rd R.PWR_AVS_CONFIG_avs_vmin) (steppedRequest s.dev)) % 4096 := by
  have hsteers : s.dev.steers = true := by
    simp only [Dev.steers, hstarted, h]
    decide
  obtain ⟨e, hstopped, htick⟩ := Dev.governorTick_requests hsteers
  rw [Dev.boost_disabled (d := s.dev.heatTick) henable hopen] at hstopped htick
  generalize hb : s.dev.heatTick.onPower (fun p => { p with sinceBoost := min 200000 (p.sinceBoost + 1) }) = b at hstopped htick
  have hstopped' : b.power.avsStopped = false := by
    rw [← hb]
    exact hrun
  obtain ⟨hreq, -⟩ := Dev.rd_requestVdd_self (d := e) b.governorRule.1 b.governorRule.2 (hstopped.trans hstopped')
  refine ⟨_, State.onIsland_powered _ (h ▸ rfl), ?_⟩
  rw [htick, hreq]
  rcases Dev.governorRule_stepped h hopen hb.symm with hrule | ⟨hstep, hrule⟩
  · rw [hrule]
  · rw [hrule, hstep, Nat.min_eq_left (Nat.le_max_right ..)]

/-! ## Boost commands -/

theorem exec_boostIntervalExpiry (s : State) (h : s.dev.phase.powered = true) (hrun : s.dev.power.avsStopped = false)
    (hopen : s.dev.on R.PWR_VDD_boost_open = true) :
    ∃ t, exec .boostIntervalExpiry s = .next t ∧ t.dev.on R.PWR_VDD_boost_open = false ∧ t.dev.rd R.PWR_VDD_request_mv ≤ 800 ∧
      t.dev.power.sinceBoost = 0 := by
  have hclosed (d : Dev) : (d.wr R.PWR_VDD_boost_open 0).on R.PWR_VDD_boost_open = false := by
    rw [Dev.on, Dev.rd_wr_self]
    rfl
  refine ⟨_, State.onIsland_powered _ h, ?_⟩
  unfold Dev.closeBoost
  simp only [hopen, if_true]
  split
  · refine ⟨?_, ?_, ?_⟩
    · rw [Dev.on, Dev.rd_requestVdd _ _ _ (by decide) (by decide)]
      exact hclosed _
    · rw [(Dev.rd_requestVdd_self 800 _ (by exact hrun)).1]
    · rw [Dev.power_requestVdd]
      rfl
  · next hlow => exact ⟨hclosed _, not_lt.1 hlow, rfl⟩

theorem exec_boostBucketAge (s : State) :
    ∃ t, exec .boostBucketAge s = .next t ∧ t.dev.power.buckets = 0 :: s.dev.power.buckets.dropLast ∧
      t.dev.rd R.PWR_BOOST_used_s = s.dev.power.buckets.dropLast.sum % 2 ^ 17 ∧ t.dev.power.boostBan = s.dev.power.boostBan - 1 := by
  refine ⟨_, rfl, congrArg Power.buckets (Dev.showBoost_power _), ?_, congrArg Power.boostBan (Dev.showBoost_power _)⟩
  show Dev.rd (Dev.showBoost _) _ = _
  rw [Dev.rd_showBoost_used, Dev.boostUsed]
  show (0 :: s.dev.power.buckets.dropLast).sum % 2 ^ 17 = _
  rw [List.sum_cons, Nat.zero_add]

/-! ## AVSBus -/

theorem exec_avsTransactionDone_ok (s : State) (h : s.dev.phase.powered = true) :
    ∃ t, exec (.avsTransactionDone .ok) s = .next t ∧ t.dev.power.avsStopped = false ∧ t.dev.power.avsFailures = 0 ∧
      (s.dev.power.avsStopped = false ∨ s.dev.steers = true → t.dev.regs = s.dev.regs) ∧
      (s.dev.power.avsStopped = true → s.dev.steers = false → t.dev.rd R.PWR_VDD_request_mv = 750) := by
  refine ⟨_, State.onIsland_powered _ h, ?_⟩
  unfold Dev.avsDone
  dsimp only
  split
  · next hgo =>
    refine ⟨rfl, rfl, fun _ => rfl, fun hstopped => absurd hstopped ?_⟩
    simpa using hgo
  · next hstopped =>
    split
    · next hsteers => exact ⟨rfl, rfl, fun _ => rfl, fun _ hoff => absurd (hsteers.symm.trans hoff) (by decide)⟩
    · next hsteers =>
      refine ⟨by rw [Dev.power_requestVdd]; rfl, by rw [Dev.power_requestVdd]; rfl, fun hor => ?_, fun _ _ => ?_⟩
      · rcases hor with hgo | hon
        · exact absurd (by rw [hgo]; rfl) hstopped
        · exact absurd hon hsteers
      · exact (Dev.rd_requestVdd_self 750 0 rfl).1

/-- What a failed AVSBus transfer does to a governor that is not stopped. -/
def avsFailed (d e : Dev) : Prop :=
  if d.power.avsFailures < 2 then e.power.avsFailures = d.power.avsFailures + 1 ∧ e.power.avsStopped = false
  else e.power.avsStopped = true ∧ e.on R.PWR_STICKY_avs_error = true

/-- The third failure in a row stops steering. -/
theorem Dev.avsStop_avsFailed {d : Dev} (x : Err) (hlast : ¬ d.power.avsFailures < 2) :
    avsFailed d (((((d.onPower (fun p => { p with avsFailures := 0, avsStopped := true })).wr R.PWR_STICKY_avs_error 1).pwrEvent 10).record x)) := by
  have hrecord (e : Dev) : (e.record x).power = e.power := Dev.power_of_besides (Dev.record_besides x e (List.Subset.refl _))
  rw [avsFailed, if_neg hlast]
  refine ⟨?_, ?_⟩
  · rw [hrecord, Dev.power_pwrEvent]
    rfl
  · rw [Dev.on, Dev.rd_pwrRecord _ _ _ (by decide), Dev.rd_pwrEvent, Dev.rd_wr_self]
    rfl

theorem Dev.avsDone_avsFailed (r : AvsResult) {d : Dev} (hr : r ≠ .ok) (hrun : d.power.avsStopped = false) : avsFailed d (d.avsDone r) := by
  have hretry (hmore : d.power.avsFailures < 2) :
      avsFailed d ((d.onPower (fun p => { p with avsFailures := p.avsFailures + 1 })).emit .avsRetry) := by
    rw [avsFailed, if_pos hmore]
    exact ⟨rfl, hrun⟩
  unfold Dev.avsDone
  simp only [hrun, Bool.false_eq_true, if_false]
  cases r with
  | ok => contradiction
  | nack =>
    dsimp only
    split
    · next hmore => exact hretry hmore
    · next hlast => exact Dev.avsStop_avsFailed _ hlast
  | statusFault =>
    dsimp only
    split
    · next hmore => exact hretry hmore
    · next hlast => exact Dev.avsStop_avsFailed _ hlast
  | noResponse =>
    dsimp only
    split
    · next hmore => exact hretry hmore
    · next hlast => exact Dev.avsStop_avsFailed _ hlast

theorem exec_avsTransactionDone_failed (s : State) (h : s.dev.phase.powered = true) (r : AvsResult) (hr : r ≠ .ok)
    (hrun : s.dev.power.avsStopped = false) : ∃ t, exec (.avsTransactionDone r) s = .next t ∧ avsFailed s.dev t.dev :=
  ⟨_, State.onIsland_powered _ h, Dev.avsDone_avsFailed r hr hrun⟩

theorem exec_avsRetryExpiry (s : State) (h : s.dev.phase.powered = true) (hstopped : s.dev.power.avsStopped = true) :
    exec .avsRetryExpiry s = .next { s with dev := s.dev.emit (.avsWrite (s.dev.rd R.PWR_VDD_request_mv)) } := by
  show execAvsRetryExpiry s = _
  rw [execAvsRetryExpiry, State.onIsland_powered _ h, if_pos hstopped]

/-- Settles O17. -/
theorem governorAndBoost : Obligations.GovernorAndBoost :=
  ⟨fun s hrun => ⟨exec_governorTick_tripped s hrun, exec_governorTick_idle s, exec_governorTick_steps s hrun⟩,
    fun s => ⟨exec_boostIntervalExpiry s, exec_boostBucketAge s⟩,
    fun s h => ⟨exec_avsTransactionDone_ok s h, exec_avsTransactionDone_failed s h, exec_avsRetryExpiry s h⟩⟩

end Sys2Proof.Machine
end

section
/-!
Temperature, thermal sit-outs, THERMTRIP_N (R104-R107).
-/

namespace Sys2Proof.Machine

/-! ## Temperature -/

/-- Headroom keeps only the figure of its last event. -/
theorem Dev.updateHeadroom_power (d : Dev) : ∃ n, d.updateHeadroom.power = { d.power with eventHeadroom := n } := by
  unfold Dev.updateHeadroom
  dsimp only
  split
  · exact ⟨_, rfl⟩
  · split
    · exact ⟨_, Dev.power_pwrEvent ..⟩
    · exact ⟨_, rfl⟩

/-- Closing a boost interval changes only its times. -/
theorem Dev.closeBoost_power (d : Dev) : ∃ m n, d.closeBoost.power = { d.power with boostTicks := m, sinceBoost := n } := by
  unfold Dev.closeBoost
  dsimp only
  split
  · split
    · exact ⟨_, _, Dev.power_requestVdd ..⟩
    · exact ⟨_, _, rfl⟩
  · exact ⟨_, _, rfl⟩

theorem Dev.checkBoost_hot (d : Dev) : d.checkBoost.power.hot = d.power.hot := by
  unfold Dev.checkBoost
  split
  · obtain ⟨m, n, hpower⟩ := d.closeBoost_power
    rw [hpower]
  · rfl

/-- The hottest of a list of readings and one more. -/
theorem hottest_foldl (l : List (Int × Nat)) (x : Int) (n : Nat) :
    (l.foldl (fun best s => if best.1 < s.1 then (s.1, s.2) else best) (x, n)).1 = (l.map Prod.fst).foldl max x := by
  induction l generalizing x n with
  | nil => rfl
  | cons s l ih =>
    rw [List.foldl_cons, List.map_cons, List.foldl_cons]
    by_cases hlt : x < s.1
    · rw [if_pos hlt, ih, max_eq_right hlt.le]
    · rw [if_neg hlt, ih, max_eq_left (not_lt.1 hlt)]

theorem hottest_max (x : Int) (l : List Int) : (hottest (x :: l)).1 = l.foldl max x := by
  unfold hottest
  rw [hottest_foldl, List.zipIdx_map_fst]
  simp only [List.headD_cons, List.foldl_cons, max_self]

theorem foldl_max_mem (x : Int) (l : List Int) : l.foldl max x ∈ x :: l := by
  induction l generalizing x with
  | nil => exact List.mem_cons_self
  | cons y l ih =>
    rw [List.foldl_cons]
    rcases List.mem_cons.1 (ih (max x y)) with heq | hmem
    · rw [heq]
      rcases max_choice x y with h | h
      · rw [h]
        exact List.mem_cons_self
      · rw [h]
        exact List.mem_cons_of_mem _ List.mem_cons_self
    · exact List.mem_cons_of_mem _ (List.mem_cons_of_mem _ hmem)

/-- The reading that a field of eight bits gives back. -/
theorem Dev.tj_of_tjBits {d : Dev} {t : Int} (h : d.rd R.PWR_TJ_tj = tjBits t % 2 ^ 8) (hlow : -128 ≤ t) (hhigh : t ≤ 127) : d.tj = t := by
  unfold Dev.tj
  rw [h, tjBits]
  omega

/-- The thermal cap comes and goes with the reading (R104). -/
theorem Dev.capped_power (t : Int) (d e : Dev) (he : e = if 105 ≤ t then
      (if d.power.hot then d else ((d.onPower (fun p => { p with hot := true })).wr R.PWR_STICKY_thermal_cap 1).pwrEvent 5)
    else if d.power.hot then (d.onPower (fun p => { p with hot := false })).pwrEvent 14
    else d) :
    e.power.hot = decide (105 ≤ t) ∧ e.rd R.PWR_TJ_tj = d.rd R.PWR_TJ_tj ∧
      (105 ≤ t → d.power.hot = false → e.on R.PWR_STICKY_thermal_cap = true) := by
  subst he
  by_cases ht : 105 ≤ t
  · rw [if_pos ht, decide_eq_true ht]
    by_cases hhot : d.power.hot = true
    · rw [if_pos hhot]
      exact ⟨hhot, rfl, fun _ hcool => absurd (hhot.symm.trans hcool) (by decide)⟩
    · rw [if_neg hhot]
      refine ⟨by rw [Dev.power_pwrEvent]; rfl, ?_, fun _ _ => ?_⟩
      · rw [Dev.rd_pwrEvent, Dev.rd_wr_ne _ _ _ _ _ _ _ _ (by decide)]
        rfl
      · rw [Dev.on, Dev.rd_pwrEvent, Dev.rd_wr_self]
        rfl
  · rw [if_neg ht, decide_eq_false ht]
    by_cases hhot : d.power.hot = true
    · rw [if_pos hhot]
      exact ⟨by rw [Dev.power_pwrEvent]; rfl, Dev.rd_pwrEvent .., fun hle => absurd hle ht⟩
    · rw [if_neg hhot]
      exact ⟨Bool.eq_false_iff.2 hhot, rfl, fun hle => absurd hle ht⟩

theorem Dev.sampleTj_reads {x : Int} {l : List Int} (d : Dev) (hrange : ∀ y ∈ x :: l, -128 ≤ y ∧ y ≤ 127) :
    (d.sampleTj (x :: l)).tj = l.foldl max x ∧ (d.sampleTj (x :: l)).power.hot = decide (105 ≤ l.foldl max x) ∧
      (105 ≤ l.foldl max x → d.power.hot = false → (d.sampleTj (x :: l)).on R.PWR_STICKY_thermal_cap = true) := by
  obtain ⟨hlow, hhigh⟩ := hrange _ (foldl_max_mem x l)
  unfold Dev.sampleTj
  extract_lets h t d₁ d₂ d₃ d₄ d₅
  have ht : t = l.foldl max x := by
    show max (-128) (min 127 (hottest (x :: l)).1) = _
    rw [hottest_max]
    omega
  have hd₃ : d₃.rd R.PWR_TJ_tj = d₂.rd R.PWR_TJ_tj ∧ d₃.power = d₂.power := by
    show Dev.rd (if _ then _ else _) _ = _ ∧ Dev.power (if _ then _ else _) = _
    split
    · exact ⟨Dev.rd_wr_ne _ _ _ _ _ _ _ _ (by decide), rfl⟩
    · exact ⟨rfl, rfl⟩
  have hd₂ : d₂.rd R.PWR_TJ_tj = tjBits t % 2 ^ 8 := by
    rw [Dev.rd_wr_ne _ _ _ _ _ _ _ _ (by decide), Dev.rd_wr_self]
    rfl
  clear_value d₃
  have hhot : d₄.power.hot = d.power.hot := (show d₄.power.hot = d₃.power.hot from rfl).trans ((congrArg Power.hot hd₃.2).trans rfl)
  obtain ⟨hcap, htj, hsticky⟩ := Dev.capped_power t d₄ d₅ rfl
  clear_value d₅ t
  subst ht
  refine ⟨?_, ?_, fun hle hcool => ?_⟩
  · refine Dev.tj_of_tjBits ?_ hlow hhigh
    rw [Dev.rd_checkBoost _ (by decide) (by decide) (by decide), htj]
    exact hd₃.1.trans hd₂
  · rw [Dev.checkBoost_hot, hcap]
  · rw [Dev.on, Dev.rd_checkBoost _ (by decide) (by decide) (by decide)]
    exact hsticky hle (hhot.trans hcool)

theorem exec_tjSample (x : Int) (l : List Int) (s : State) (hrange : ∀ y ∈ x :: l, -128 ≤ y ∧ y ≤ 127) (h : s.dev.phase ≠ .held) :
    ∃ t, exec (.tjSample (x :: l)) s = .next t ∧ t.dev.tj = l.foldl max x ∧
      t.dev.power.hot = decide (105 ≤ l.foldl max x) ∧
      (105 ≤ l.foldl max x → s.dev.power.hot = false → t.dev.on R.PWR_STICKY_thermal_cap = true) := by
  have hpowered : s.dev.phase.powered = true := by
    unfold Phase.powered
    split
    · contradiction
    · rfl
  refine ⟨{ s with dev := s.dev.sampleTj (x :: l) }, ?_, s.dev.sampleTj_reads hrange⟩
  show execTjSample (x :: l) s = _
  rw [execTjSample, if_neg h, State.onIsland_powered _ hpowered]

/-- R489: in a cold reset the reading is only noted. -/
theorem exec_tjSample_held (x : Int) (l : List Int) (s : State) (hrange : ∀ y ∈ x :: l, -128 ≤ y ∧ y ≤ 127) (h : s.dev.phase = .held) :
    ∃ t, exec (.tjSample (x :: l)) s = .next t ∧ t.dev.power.heldTj = l.foldl max x ∧ t.dev.regs = s.dev.regs := by
  obtain ⟨hlow, hhigh⟩ := hrange _ (foldl_max_mem x l)
  have hexec : exec (.tjSample (x :: l)) s =
      .next { s with dev := s.dev.onPower (fun p => { p with heldTj := max (-128) (min 127 (hottest (x :: l)).1) }) } := by
    show execTjSample (x :: l) s = _
    rw [execTjSample, if_pos h]
    rfl
  refine ⟨_, hexec, ?_, rfl⟩
  show max (-128) (min 127 (hottest (x :: l)).1) = _
  rw [hottest_max]
  omega

/-! ## Thermal sit-out -/

theorem Dev.rd_cardChanged (es : List Nat) (d : Dev) (f : Field) (i a : Nat) : (d.cardChanged es).rd f i a = d.rd f i a :=
  Dev.rd_congr (Dev.regs_of_besides (Dev.cardChanged_besides es d (List.Subset.refl _))) f i a

theorem Dev.cardChanged_power (es : List Nat) (d : Dev) : (d.cardChanged es).power = d.power :=
  Dev.power_of_besides (Dev.cardChanged_besides es d (List.Subset.refl _))

/-- What a sit-out and a rejoin show: how many positions are out, Headroom, the card, and an event. -/
def Dev.showPositions (es : List Nat) (n : Nat) (d : Dev) : Dev := (d.updateHeadroom.cardChanged es).pwrEvent n

theorem Dev.showPositions_setPos (es : List Nat) (n : Nat) (d : Dev) : (d.showPositions es n).setPos = d.setPos :=
  Dev.setPos_of_besides (((Dev.pwrEvent_besides n _ (by decide)).trans (Dev.cardChanged_besides es _ (by decide))).trans
    (Dev.updateHeadroom_besides d (ps := [.power, .start, .routes, .retained, .registers, .output]) (by decide)))

theorem Dev.showPositions_satOut (es : List Nat) (n : Nat) (d : Dev) : (d.showPositions es n).power.satOut = d.power.satOut := by
  obtain ⟨m, hpower⟩ := d.updateHeadroom_power
  rw [Dev.showPositions, Dev.power_pwrEvent, Dev.cardChanged_power, hpower]

theorem Dev.raise_power (d : Dev) (n : Nat) (fresh : Bool) : (d.raise n fresh).power = d.power :=
  Dev.power_of_besides (Dev.raise_besides d n fresh (List.Subset.refl _))

theorem Dev.wake_satOut (n : Nat) (d : Dev) : (d.wake n).power.satOut = d.power.satOut := by
  unfold Dev.wake
  dsimp only
  split
  · rfl
  · rw [Dev.raise_power]

theorem exec_thermalSitout (s : State) (h : s.dev.phase = .running) (hhot : 115 ≤ s.dev.tj) (hreplays : s.dev.replays = []) (p : Nat)
    (hnext : s.dev.thermalNext = some p) :
    ∃ t, exec .thermalSitout s = .next t ∧ (t.dev.setAt p).phase = .grace ∧ (t.dev.setAt p).thermal = true ∧
      (t.dev.setAt p).site = (s.dev.setAt p).site ∧ t.dev.power.satOut = p :: s.dev.power.satOut ∧
      t.dev.on R.PWR_STICKY_thermal_sitout = true := by
  have hreplaying : s.dev.replaying = false := by
    rw [Dev.replaying, hreplays]
    rfl
  refine ⟨_, (State.onRun_running _ h : execThermalSitout s = _), ?_⟩
  rw [Dev.thermalSitout, if_neg (not_lt.2 hhot), hreplaying, if_neg Bool.false_ne_true, Dev.thermalStart, hnext]
  dsimp only
  generalize hd : Dev.wr (Dev.showSatOut _) R.PWR_STICKY_thermal_sitout 1 = d
  have hpos : (d.showPositions [setEntry p] 6).setAt p = { s.dev.setAt p with phase := .grace, thermal := true } := by
    rw [Dev.setAt, Dev.showPositions_setPos, ← hd]
    exact NMap.getD_set_self ..
  have hsat : (d.showPositions [setEntry p] 6).power.satOut = p :: s.dev.power.satOut := by
    rw [Dev.showPositions_satOut, ← hd]
    rfl
  have hsticky : (d.showPositions [setEntry p] 6).on R.PWR_STICKY_thermal_sitout = true := by
    rw [Dev.on, Dev.showPositions, Dev.rd_pwrEvent, Dev.rd_cardChanged, Dev.rd_updateHeadroom _ (by decide) (by decide), ← hd, Dev.rd_wr_self]
    rfl
  exact ⟨congrArg Slot.phase hpos, congrArg Slot.thermal hpos, (congrArg Slot.site hpos :), hsat, hsticky⟩

theorem exec_sitoutGraceExpiry (s : State) (h : s.dev.phase = .running) (p : Nat) (hgrace : (s.dev.setAt p).phase = .grace)
    (hthermal : (s.dev.setAt p).thermal = true) :
    ∃ t, exec (.sitoutGraceExpiry p) s = .next t ∧ (t.dev.setAt p).phase = .out ∧ (t.dev.setAt p).site = (s.dev.setAt p).site := by
  refine ⟨_, (State.onRun_running _ h : execSitoutGraceExpiry p s = _), ?_⟩
  have hend : ∃ d : Dev, s.dev.graceEnd p =
      (Dev.replay p 2 false { d with setPos := d.setPos.set p { s.dev.setAt p with phase := .out } }).setDomain (s.dev.setAt p).site false := by
    refine ⟨(s.dev.onSite p SetSite.emptied).redeliver (midSet p), ?_⟩
    rw [Dev.graceEnd]
    simp only [hgrace, hthermal, ne_eq, not_true, if_false, if_true]
  obtain ⟨d, hd⟩ := hend
  have hpos : (s.dev.graceEnd p).setAt p = { s.dev.setAt p with phase := .out } := by
    rw [hd, Dev.setAt, Dev.setPos_of_besides (Dev.setDomain_besides _ _ _ (List.Subset.refl _)),
      Dev.setPos_of_besides (Dev.replay_besides _ _ _ _ (List.Subset.refl _))]
    exact NMap.getD_set_self ..
  exact ⟨congrArg Slot.phase hpos, (congrArg Slot.site hpos :)⟩

theorem exec_thermalRejoin (s : State) (h : s.dev.phase = .running) (p : Nat) (rest : List Nat) (hsat : s.dev.power.satOut = p :: rest)
    (hcool : 1000 ≤ s.dev.power.coolMs) (hout : (s.dev.setAt p).phase = .out) (hthermal : (s.dev.setAt p).thermal = true) :
    ∃ t, exec .thermalRejoin s = .next t ∧ t.dev.setAt p = { site := (s.dev.setAt p).site } ∧ t.dev.power.satOut = rest := by
  refine ⟨_, (State.onRun_running _ h : execThermalRejoin s = _), ?_⟩
  rw [Dev.thermalRejoin, hsat]
  dsimp only
  rw [if_neg (by simp only [hout, hthermal, not_lt.2 hcool, ne_eq, not_true, or_self, Bool.true_eq_false, not_false_eq_true])]
  generalize hd : Dev.onPower _ _ = d
  have hwake : (d.wake (s.dev.setAt p).site).setPos = d.setPos := Dev.setPos_of_besides (Dev.wake_besides _ _ (List.Subset.refl _))
  have hwakeSat : (d.wake (s.dev.setAt p).site).power.satOut = d.power.satOut := d.wake_satOut _
  have hpos : (Dev.showPositions [setEntry p] 7 (d.wake (s.dev.setAt p).site).showSatOut).setAt p = { site := (s.dev.setAt p).site } := by
    rw [Dev.setAt, Dev.showPositions_setPos]
    refine (congrArg (NMap.getD · p _) hwake).trans ?_
    rw [← hd]
    exact NMap.getD_set_self ..
  refine ⟨hpos, (Dev.showPositions_satOut ..).trans (hwakeSat.trans ?_)⟩
  rw [← hd]
  rfl

/-! ## THERMTRIP_N -/

/-- What the governor's request at THERMTRIP_N leaves. -/
structure Dev.tripsAlike (d e : Dev) : Prop where
  phase : e.phase = d.phase
  items : e.items = d.items
  links : e.links = d.links
  pin : e.power.tripPin = d.power.tripPin
  record : e.keep.record = d.keep.record
  out : ∃ l, e.out = d.out ++ l

theorem Dev.tripsAlike.trans {c d e : Dev} (h : c.tripsAlike d) (h' : d.tripsAlike e) : c.tripsAlike e := by
  obtain ⟨l, hl⟩ := h.out
  obtain ⟨l', hl'⟩ := h'.out
  exact ⟨h'.phase.trans h.phase, h'.items.trans h.items, h'.links.trans h.links, h'.pin.trans h.pin, h'.record.trans h.record,
    l ++ l', by rw [hl', hl, List.append_assoc]⟩

theorem Dev.wr_tripsAlike (d : Dev) (f : Field) (v : Nat) : d.tripsAlike (d.wr f v) := by
  refine ⟨rfl, rfl, rfl, rfl, ?_, [], (List.append_nil _).symm⟩
  unfold Dev.wr
  dsimp only
  split <;> rfl

theorem Dev.emit_tripsAlike (d : Dev) (o : Output) : d.tripsAlike (d.emit o) := ⟨rfl, rfl, rfl, rfl, rfl, [o], rfl⟩

theorem Dev.requestVdd_tripsAlike (mv c : Nat) (d : Dev) : d.tripsAlike (d.requestVdd mv c) := by
  unfold Dev.requestVdd
  dsimp only
  split
  · exact d.wr_tripsAlike _ _
  · refine Dev.tripsAlike.trans (Dev.tripsAlike.trans ?_ (Dev.wr_tripsAlike _ _ _)) (Dev.wr_tripsAlike _ _ _)
    split
    · exact ⟨rfl, rfl, rfl, rfl, rfl, [], (List.append_nil _).symm⟩
    · exact d.emit_tripsAlike _

theorem Dev.closeBoost_tripsAlike (d : Dev) : d.tripsAlike d.closeBoost := by
  have hrefl : d.tripsAlike d := ⟨rfl, rfl, rfl, rfl, rfl, [], (List.append_nil _).symm⟩
  have hclose : d.tripsAlike ((d.wr R.PWR_VDD_boost_open 0).onPower (fun p => { p with boostTicks := 0, sinceBoost := 0 })) :=
    (d.wr_tripsAlike R.PWR_VDD_boost_open 0).trans ⟨rfl, rfl, rfl, rfl, rfl, [], (List.append_nil _).symm⟩
  unfold Dev.closeBoost
  dsimp only
  split
  · split
    · exact hclose.trans (Dev.requestVdd_tripsAlike _ _ _)
    · exact hclose
  · exact hrefl

/-- R107. -/
theorem Dev.trip_asserts {d : Dev} (h : d.phase ≠ .tripped) (hpin : d.power.tripPin = false) :
    ∃ e : Dev, e = ({ d.loseWork with phase := .tripped, power := { d.power with trippedBefore := true, tripPin := true } } : Dev).emit
      (.thermTrip true) ∧ e.tripsAlike d.trip := by
  refine ⟨_, rfl, ?_⟩
  unfold Dev.trip
  simp only [h, hpin, Bool.false_eq_true, if_false]
  split
  · exact (Dev.closeBoost_tripsAlike _).trans (Dev.requestVdd_tripsAlike _ _ _)
  · exact ⟨rfl, rfl, rfl, rfl, rfl, [], (List.append_nil _).symm⟩

theorem Dev.loseWork_queue (d : Dev) (n : Nat) : (d.loseWork.link n).queue = [] := by
  unfold Dev.link Dev.loseWork NMap.getD
  rw [NMap.get?_mapVals]
  cases d.links.get? n <;> rfl

theorem exec_thermtrip (s : State) (h : s.dev.phase ≠ .tripped) (hpin : s.dev.power.tripPin = false) :
    ∃ t, exec .thermtrip s = .next t ∧ t.dev.phase = .tripped ∧ t.dev.items = {} ∧ t.dev.power.tripPin = true ∧
      Output.thermTrip true ∈ t.dev.out ∧ (∀ n, (t.dev.link n).queue = []) ∧ t.flash = s.flash ∧ t.fuses = s.fuses ∧
      t.dev.keep.record = s.dev.keep.record := by
  obtain ⟨e, he, halike⟩ := Dev.trip_asserts h hpin
  obtain ⟨hphase, hitems, hlinks, htrip, hrecord, l, hout⟩ := halike
  rw [he] at hphase hitems hlinks htrip hrecord hout
  refine ⟨{ s with dev := s.dev.trip }, rfl, hphase, hitems, htrip, ?_, fun n => ?_, rfl, rfl, hrecord⟩
  · show _ ∈ s.dev.trip.out
    rw [hout]
    exact List.mem_append_left _ (List.mem_append_right _ List.mem_cons_self)
  · refine Eq.trans ?_ (s.dev.loseWork_queue n)
    exact congrArg (fun m => Link.queue (NMap.getD m n {})) hlinks

/-- Settles O18. -/
theorem thermalLimits : Obligations.ThermalLimits :=
  ⟨fun x l s hrange => ⟨exec_tjSample x l s hrange, exec_tjSample_held x l s hrange⟩,
    fun s h => ⟨exec_thermalSitout s h, fun p hgrace hthermal _ => exec_sitoutGraceExpiry s h p hgrace hthermal, exec_thermalRejoin s h⟩,
    exec_thermtrip⟩

end Sys2Proof.Machine
end

section
/-!
Power domains (R100-R103).
-/

namespace Sys2Proof.Machine

/-! ## Bits -/

theorem hasBit_eq_testBit (n b : Nat) : hasBit n b = n.testBit b := by
  rw [Nat.testBit_eq_decide_div_mod_eq, hasBit, bit]
  rfl

theorem hasBit_mod {b w : Nat} (n : Nat) (h : b < w) : hasBit (n % 2 ^ w) b = hasBit n b := by
  rw [hasBit_eq_testBit, hasBit_eq_testBit, Nat.testBit_mod_two_pow, decide_eq_true h, Bool.true_and]

theorem hasBit_setBit_self (n b : Nat) : hasBit (setBit n b) b = true := by
  unfold setBit
  split
  · assumption
  · next h =>
    simp only [hasBit, bit, beq_iff_eq, Nat.add_div_right _ (Nat.two_pow_pos b)] at h ⊢
    omega

theorem hasBit_clearBit_self (n b : Nat) : hasBit (clearBit n b) b = false := by
  unfold clearBit
  split
  · next h =>
    have hsub : (n - 2 ^ b) / 2 ^ b = n / 2 ^ b - 1 := by
      have := Nat.sub_mul_div n (2 ^ b) 1
      rwa [Nat.mul_one] at this
    simp only [hasBit, bit, beq_iff_eq, beq_eq_false_iff_ne, hsub] at h ⊢
    omega
  · next h => exact Bool.eq_false_iff.2 h

/-! ## Power domains -/

/-- Switching a domain leaves that domain as it is asked for. -/
theorem Dev.domainOn_setDomain_self {n : Nat} (d : Dev) (up : Bool) (h : n < 48) : (d.setDomain n up).domainOn n = up := by
  have hswitch (v b w : Nat) (hb : b < w) : hasBit ((if up then setBit else clearBit) v b % 2 ^ w) b = up := by
    rw [hasBit_mod _ hb]
    cases up
    · exact hasBit_clearBit_self v b
    · exact hasBit_setBit_self v b
  by_cases hlow : n < 32
  · rw [Dev.domainOn, Dev.setDomain, if_pos hlow, if_pos hlow, Dev.rd_wr_self]
    exact hswitch _ _ 32 hlow
  · rw [Dev.domainOn, Dev.setDomain, if_neg hlow, if_neg hlow, Dev.rd_wr_self]
    exact hswitch _ _ 16 (by omega)

theorem Dev.domainOn_congr {d e : Dev} (hlow : e.rd R.PWR_DOMAIN_ON_LO_on = d.rd R.PWR_DOMAIN_ON_LO_on)
    (hhigh : e.rd R.PWR_DOMAIN_ON_HI_on = d.rd R.PWR_DOMAIN_ON_HI_on) (n : Nat) : e.domainOn n = d.domainOn n := by
  rw [Dev.domainOn, Dev.domainOn, hlow, hhigh]

/-- What a result posted for a domain command shows, and what it leaves. -/
theorem Dev.domainResult_shows {n code : Nat} (d : Dev) (hn : n < 48) (hcode : code < 4) :
    (d.domainResult n code).rd R.PWR_DOMAIN_RESULT_code = code ∧ (d.domainResult n code).rd R.PWR_DOMAIN_RESULT_domain = n ∧
      (d.domainResult n code).power = d.power ∧ ∀ m, (d.domainResult n code).domainOn m = d.domainOn m := by
  have hrd (f : Field) : (d.domainResult n code).rd f = ((d.wr R.PWR_DOMAIN_RESULT_domain n).wr R.PWR_DOMAIN_RESULT_code code).rd f := by
    unfold Dev.domainResult
    dsimp only
    split
    · rfl
    · exact Dev.rd_pwrEvent ..
  refine ⟨?_, ?_, Dev.power_of_besides (Dev.domainResult_besides n code d (List.Subset.refl _)), fun m => Dev.domainOn_congr ?_ ?_ m⟩
  · rw [hrd, Dev.rd_wr_self]
    exact Nat.mod_eq_of_lt hcode
  · rw [hrd, Dev.rd_wr_ne _ _ _ _ _ _ _ _ (by decide), Dev.rd_wr_self]
    exact Nat.mod_eq_of_lt (hn.trans (by decide))
  · rw [hrd, Dev.rd_wr_ne _ _ _ _ _ _ _ _ (by decide), Dev.rd_wr_ne _ _ _ _ _ _ _ _ (by decide)]
  · rw [hrd, Dev.rd_wr_ne _ _ _ _ _ _ _ _ (by decide), Dev.rd_wr_ne _ _ _ _ _ _ _ _ (by decide)]

theorem mem_powerUpOrder {n : Nat} (h : n < 48) : n ∈ powerUpOrder := by
  have hall : ∀ m < 48, m ∈ powerUpOrder := by decide
  exact hall n h

/-- R102: a domain that is woken is on, or among those that wake. -/
theorem Dev.wake_wakes {n : Nat} (d : Dev) (h : n < 48) (hexists : d.domainExists n = true) :
    (d.wake n).domainOn n = true ∨ (d.wake n).power.waking.contains n = true := by
  unfold Dev.wake
  dsimp only
  split
  · next hwoken =>
    simp only [hexists, Bool.not_true, Bool.or_false, Bool.or_eq_true] at hwoken
    exact hwoken
  · right
    rw [Dev.raise_power]
    dsimp only
    split
    · exact List.contains_iff_mem.2 List.mem_cons_self
    · refine List.contains_iff_mem.2 (List.mem_cons_of_mem _ (List.mem_filter.2 ⟨mem_powerUpOrder h, ?_⟩))
      rw [beq_self_eq_true, Bool.true_or]

theorem exec_domainOffCmd_off {n : Nat} (s : State) (h : s.dev.phase = .running) (hn : n < 48) (hwaking : s.dev.power.waking.contains n = false)
    (hmay : s.dev.mayBeOff n = true) (hholds : s.dev.domainHolds n = false) :
    ∃ t, exec (.domainOffCmd n) s = .next t ∧ t.dev.domainOn n = false ∧ t.dev.rd R.PWR_DOMAIN_RESULT_code = 0 ∧
      t.dev.rd R.PWR_DOMAIN_RESULT_domain = n := by
  have hoff : s.dev.domainOff n = (s.dev.setDomain n false).domainResult n 0 := by
    simp only [Dev.domainOff, not_le.2 hn, hwaking, hmay, hholds, if_false, Bool.not_true, Bool.and_false, Bool.false_eq_true]
  obtain ⟨hcode, hdomain, -, hon⟩ := (s.dev.setDomain n false).domainResult_shows (code := 0) hn (by decide)
  refine ⟨_, (State.onRun_running _ h : execDomainOffCmd n s = _), ?_⟩
  rw [hoff]
  exact ⟨(hon n).trans (s.dev.domainOn_setDomain_self false hn), hcode, hdomain⟩

/-- A refused off command posts its code, and switches nothing. -/
theorem exec_domainOffCmd_refused {n code : Nat} (s : State) (h : s.dev.phase = .running) (hn : n < 48) (hcode : code < 4)
    (hoff : s.dev.domainOff n = s.dev.domainResult n code) :
    ∃ t, exec (.domainOffCmd n) s = .next t ∧ t.dev.rd R.PWR_DOMAIN_RESULT_code = code ∧ t.dev.power = s.dev.power ∧
      ∀ m, m < 48 → t.dev.domainOn m = s.dev.domainOn m := by
  obtain ⟨hres, -, hpower, hon⟩ := s.dev.domainResult_shows hn hcode
  refine ⟨_, (State.onRun_running _ h : execDomainOffCmd n s = _), ?_⟩
  rw [hoff]
  exact ⟨hres, hpower, fun m _ => hon m⟩

theorem Dev.domainOff_waking {n : Nat} {d : Dev} (hn : n < 48) (hwaking : d.power.waking.contains n = true) :
    d.domainOff n = d.domainResult n 3 := by
  rw [Dev.domainOff, if_neg (not_le.2 hn), if_pos hwaking]

theorem Dev.domainOff_needed {n : Nat} {d : Dev} (hn : n < 48) (hexists : d.domainExists n = true)
    (hwaking : d.power.waking.contains n = false) (hmay : d.mayBeOff n = false) : d.domainOff n = d.domainResult n 1 := by
  simp only [Dev.domainOff, not_le.2 hn, hwaking, hexists, hmay, if_false, if_true, Bool.not_false, Bool.and_true, Bool.false_eq_true]

theorem exec_domainWakeCmd {n : Nat} (s : State) (h : s.dev.phase = .running) (hn : n < 48) :
    ∃ t, exec (.domainWakeCmd n) s = .next t ∧ t.dev.rd R.PWR_DOMAIN_RESULT_code = 0 ∧
      (s.dev.domainExists n = true → t.dev.domainOn n = true ∨ t.dev.power.waking.contains n = true) := by
  obtain ⟨hcode, -, hpower, hon⟩ := (s.dev.wake n).domainResult_shows (code := 0) hn (by decide)
  refine ⟨_, (State.onRun_running _ h : execDomainWakeCmd n s = _), ?_⟩
  rw [Dev.domainWake, if_neg (not_le.2 hn), hon, hpower]
  exact ⟨hcode, s.dev.wake_wakes hn⟩

theorem exec_domainReady {n : Nat} (s : State) (h : s.dev.phase = .running) (hn : n < 48) (rest : List Nat)
    (hwaking : s.dev.power.waking = n :: rest) (hempty : s.dev.positionsOfSite n = []) :
    ∃ t, exec (.domainReady n) s = .next t ∧ t.dev.domainOn n = true ∧ t.dev.power.waking = rest := by
  refine ⟨_, (State.onRun_running _ h : execDomainReady n s = _), ?_⟩
  have hready : s.dev.domainReady n = (s.dev.onPower (fun p => { p with waking := rest })).setDomain n true := by
    have hpositions (g : Power → Power) : ((s.dev.onPower g).setDomain n true).positionsOfSite n = [] := by
      have hpos : ((s.dev.onPower g).setDomain n true).setPos = s.dev.setPos :=
        (Dev.setPos_of_besides (Dev.setDomain_besides (s.dev.onPower g) n true (List.Subset.refl _)) :)
      have hdie : ((s.dev.onPower g).setDomain n true).die = s.dev.die :=
        (Dev.die_of_besides (Dev.setDomain_besides (s.dev.onPower g) n true (List.Subset.refl _)) :)
      rw [← hempty]
      simp only [Dev.positionsOfSite, Dev.setAt, Dev.hasSet, hpos, hdie]
    unfold Dev.domainReady
    rw [hwaking]
    dsimp only
    rw [if_neg (not_not.2 rfl), hpositions]
    rfl
  rw [hready]
  exact ⟨Dev.domainOn_setDomain_self _ true hn, congrArg Power.waking (Dev.power_of_besides (Dev.setDomain_besides _ _ _ (List.Subset.refl _)))⟩

/-- Settles O19. -/
theorem powerDomains : Obligations.PowerDomains :=
  fun n s h hn => ⟨fun _ hwaking hmay hholds => exec_domainOffCmd_off s h hn hwaking hmay hholds,
    fun hexists hwaking hmay => exec_domainOffCmd_refused s h hn (by decide) (Dev.domainOff_needed hn hexists hwaking hmay),
    fun hwaking => exec_domainOffCmd_refused s h hn (by decide) (Dev.domainOff_waking hn hwaking),
    exec_domainWakeCmd s h hn, exec_domainReady s h hn⟩

end Sys2Proof.Machine
end

section
/-!
The sideband, the SPDM responder (R84) and the debug port (R486).
-/

namespace Sys2Proof.Machine

/-! ## The sideband -/

theorem Fuses.keySlotOf_setSlot {n m : Nat} (k : KeySlot) (f : Fuses) (hn : n ≤ 3) (hm : m ≤ 3) :
    keySlotOf (f.setSlot n k) m = if m = n then k else keySlotOf f m := by
  interval_cases n <;> interval_cases m <;> rfl

theorem Fuses.keySlotOf_setSlot_self {n : Nat} (k : KeySlot) (f : Fuses) (h : n ≤ 3) : keySlotOf (f.setSlot n k) n = k := by
  rw [Fuses.keySlotOf_setSlot k f h h, if_pos rfl]

theorem Fuses.keySlotOf_setSlot_ne {n m : Nat} (k : KeySlot) (f : Fuses) (hn : n ≤ 3) (hm : m < 4) (hne : m ≠ n) :
    keySlotOf (f.setSlot n k) m = keySlotOf f m := by
  rw [Fuses.keySlotOf_setSlot k f hn (Nat.lt_succ_iff.1 hm), if_neg hne]

theorem Fuses.floor_setSlot (n : Nat) (k : KeySlot) (f : Fuses) : (f.setSlot n k).floor = f.floor := by
  unfold Fuses.setSlot
  split
  · rfl
  · split
    · rfl
    · split <;> rfl

theorem exec_mctpSetEndpointId (eid : Nat) (s : State) (hlow : 1 ≤ eid) (hhigh : eid ≤ 254) :
    exec (.mctpSetEndpointId eid) s = .next { s with dev := ({ s.dev with eid := eid }).emit (.sideband "SetEndpointId" [0, eid]) } := by
  show execMctpSetEndpointId eid s = _
  have hmod : eid % 256 = eid := Nat.mod_eq_of_lt (by omega)
  rw [execMctpSetEndpointId, State.onDev_next, hmod, if_neg (by omega)]

theorem exec_mctpKeySlotProvision_program (s : State) (slot : Nat) (digest) (hlow : 1 ≤ slot) (hhigh : slot ≤ 3)
    (hfree : (keySlotOf s.fuses slot).programmed = false) :
    ∃ t, exec (.mctpKeySlotProvision slot (.program digest)) s = .next t ∧
      keySlotOf t.fuses slot = { keySlotOf s.fuses slot with programmed := true, digest := digest } ∧
      (∀ m, m < 4 → m ≠ slot → keySlotOf t.fuses m = keySlotOf s.fuses m) ∧ t.fuses.floor = s.fuses.floor ∧ t.flash = s.flash := by
  refine ⟨_, rfl, ?_⟩
  unfold State.provision
  dsimp only
  rw [if_pos ⟨hlow, hhigh, hfree⟩]
  exact ⟨Fuses.keySlotOf_setSlot_self _ _ hhigh, fun m => Fuses.keySlotOf_setSlot_ne _ _ hhigh, Fuses.floor_setSlot .., rfl⟩

theorem exec_mctpKeySlotProvision_refused (s : State) (slot : Nat) (digest)
    (h : slot = 0 ∨ 3 < slot ∨ (keySlotOf s.fuses slot).programmed = true) :
    ∃ t, exec (.mctpKeySlotProvision slot (.program digest)) s = .next t ∧ t.fuses = s.fuses := by
  refine ⟨_, rfl, ?_⟩
  unfold State.provision
  dsimp only
  rw [if_neg]
  · rfl
  · rintro ⟨hlow, hhigh, hfree⟩
    rcases h with hzero | hout | hprogrammed
    · omega
    · omega
    · exact absurd (hprogrammed.symm.trans hfree) (by decide)

theorem exec_mctpKeySlotProvision_revoke (s : State) (slot : Nat) (h : slot ≤ 3) :
    ∃ t, exec (.mctpKeySlotProvision slot .revoke) s = .next t ∧
      keySlotOf t.fuses slot = { keySlotOf s.fuses slot with revoked := true } ∧
      (∀ m, m < 4 → m ≠ slot → keySlotOf t.fuses m = keySlotOf s.fuses m) ∧ t.fuses.floor = s.fuses.floor ∧ t.flash = s.flash := by
  refine ⟨_, rfl, ?_⟩
  unfold State.provision
  dsimp only
  rw [if_pos h]
  exact ⟨Fuses.keySlotOf_setSlot_self _ _ h, fun m => Fuses.keySlotOf_setSlot_ne _ _ h, Fuses.floor_setSlot .., rfl⟩

theorem exec_mctpFaultLogRead (s : State) (slot : Nat) (h : slot < 256) :
    exec (.mctpFaultLogRead slot) s =
      .next { s with dev := s.dev.emit (.sideband "FaultLogRead" ((List.range 8).map (s.dev.logWord slot))) } := by
  show execMctpFaultLogRead slot s = _
  rw [execMctpFaultLogRead, Nat.mod_eq_of_lt h, State.onDev_next]

theorem Phase.powered_of_ne_held {p : Phase} (h : p ≠ .held) : p.powered = true := by
  unfold Phase.powered
  split
  · contradiction
  · rfl

theorem exec_pldmSensorRead (s : State) (x : Sensor) (h : s.dev.phase ≠ .held) :
    exec (.pldmSensorRead x) s = .next { s with dev := s.dev.emit (.sideband "GetSensorReading" [0, s.dev.sensor x]) } := by
  show execPldmSensorRead x s = _
  rw [execPldmSensorRead, State.onDev_next, Dev.sensorRead, if_pos (Phase.powered_of_ne_held h)]

theorem exec_pldmFirmwareUpdate (s : State) (img : Image) (c : DirCopy) (hdir : s.flash.dir = some c) (hsize : img.imageBytes ≤ c.slotSize)
    (happly : s.dev.applying = false) :
    ∃ t, exec (.pldmFirmwareUpdate img) s = .next t ∧
      t.flash = (if c.active = 0 then { s.flash with slotB := some img } else { s.flash with slotA := some img }).writeDir
        { c with trial := true, trialLeft := 3 } ∧ t.fuses = s.fuses := by
  have hnew : s.flash.dirOrNew = c := by rw [Flash.dirOrNew, hdir, Option.getD_some]
  refine ⟨_, rfl, ?_⟩
  unfold State.pldmUpdate
  dsimp only
  rw [hnew, if_neg (by simp only [not_lt.2 hsize, happly, Bool.false_eq_true, or_self, not_false_eq_true])]
  exact ⟨rfl, rfl⟩

theorem exec_mctpIdeKeyLoad (s : State) (link : Nat) (keys : List Byte) (hformed : s.dev.formed link = true) (hup : s.dev.linkUp link = true)
    (hflit : s.dev.on R.PCX_LINK_STATUS_flit link = true) (hide : s.dev.on R.PCX_LINK_SHAPE_ide_enabled link = true) :
    ∃ t, exec (.mctpIdeKeyLoad link keys) s = .next t ∧ (t.dev.link link).ideKeys = some keys ∧
      t.dev.rd R.PCX_LINK_STATUS_ide_secure link = 1 := by
  refine ⟨_, rfl, ?_⟩
  unfold Dev.loadIdeKeys
  simp only [hformed, hup, hflit, hide, Bool.and_self, if_true]
  refine ⟨congrArg Link.ideKeys (s.dev.link_onLink_self link _), Dev.rd_wr_self ..⟩

/-! ## The responder -/

section
variable {via : SpdmPath} {s : State}

/-- Before an image is verified the responder is not ready. -/
theorem State.spdm_notReady (f : Dev → Dev) (hreached : s.dev.spdmReached via = true) (h : s.dev.boot.image = none) :
    s.spdm via f = .next { s with dev := s.dev.emit (.spdm via "ResponseNotReady" []) } := by
  simp only [State.spdm, State.onDev_next, hreached, h, Bool.not_true, Bool.false_eq_true, if_false, Option.isNone_none, if_true]

theorem State.spdm_answers {img : Image} (f : Dev → Dev) (hreached : s.dev.spdmReached via = true) (h : s.dev.boot.image = some img) :
    s.spdm via f = .next { s with dev := f s.dev } := by
  simp only [State.spdm, State.onDev_next, hreached, h, Bool.not_true, Bool.false_eq_true, if_false, Option.isNone_some]

theorem exec_spdmRequests_notReady (hreached : s.dev.spdmReached via = true) (h : s.dev.boot.image = none) :
    ∀ c ∈ spdmRequests via, exec c s = .next { s with dev := s.dev.emit (.spdm via "ResponseNotReady" []) } := by
  simp only [spdmRequests, List.forall_mem_cons, List.not_mem_nil, false_imp_iff, implies_true, and_true]
  exact ⟨(State.spdm_notReady _ hreached h : execGetVersion via s = _), (State.spdm_notReady _ hreached h : execGetCapabilities via s = _),
    (State.spdm_notReady _ hreached h : execNegotiateAlgorithms via s = _), (State.spdm_notReady _ hreached h : execGetDigests via s = _)⟩

theorem exec_getMeasurements {img : Image} {index : Nat} {m : List Nat} (nonce : Nat) (hreached : s.dev.spdmReached via = true)
    (h : s.dev.boot.image = some img) (hzero : index ≠ 0) (hall : index ≠ 0xFF) (hm : s.measurement index = some m) :
    ∃ t v, exec (.getMeasurements via index nonce) s = .next t ∧ t.dev.out = s.dev.out ++ [.spdm via "MEASUREMENTS" (m ++ [nonce, v])] := by
  refine ⟨_, s.dev.free.1, (State.spdm_answers _ hreached h : execGetMeasurements via index nonce s = _), ?_⟩
  dsimp only
  rw [if_neg hzero, if_neg hall, hm]
  rfl

theorem exec_doeDiscovery {pf : Nat} (h : s.dev.spdmReached (.doe pf) = true) :
    exec (.doeDiscovery pf 0) s = .next { s with dev := s.dev.emit (.spdm (.doe pf) "DOE_DISCOVERY" [1, 0, 1]) } := by
  show execDoeDiscovery pf 0 s = _
  simp only [execDoeDiscovery, State.onDev_next, h, Bool.not_true, Bool.false_eq_true, if_false, if_true]

end

/-- Settles O20. -/
theorem sidebandAndResponder : Obligations.SidebandAndResponder := by
  refine ⟨fun s => ⟨fun eid => exec_mctpSetEndpointId eid s, exec_mctpKeySlotProvision_program s, exec_mctpKeySlotProvision_refused s,
      exec_mctpKeySlotProvision_revoke s, exec_mctpFaultLogRead s, exec_pldmSensorRead s, exec_pldmFirmwareUpdate s, exec_mctpIdeKeyLoad s⟩,
    fun via s hreached => ⟨exec_spdmRequests_notReady hreached, fun img himg => ?_, ?_⟩⟩
  · exact ⟨(State.spdm_answers _ hreached himg : execGetVersion via s = _), (State.spdm_answers _ hreached himg : execGetCapabilities via s = _),
      (State.spdm_answers _ hreached himg : execNegotiateAlgorithms via s = _),
      ⟨_, _, (State.spdm_answers _ hreached himg : execGetDigests via s = _), rfl⟩,
      fun slot off len => ⟨_, _, (State.spdm_answers _ hreached himg : execGetCertificate via slot off len s = _), rfl⟩,
      fun slot nonce => ⟨_, _, (State.spdm_answers _ hreached himg : execChallenge via slot nonce s = _), rfl⟩,
      fun nonce => exec_getMeasurements (index := 3) (m := [3, img.securityVersion, s.fuses.floor]) nonce hreached himg (by decide) (by decide)
        (by simp only [State.measurement, himg]),
      fun nonce => exec_getMeasurements (index := 2) (m := [2, (Config.sha384 (signedBytes img)).toNat]) nonce hreached himg (by decide)
        (by decide) (by simp only [State.measurement, himg])⟩
  · rintro pf rfl
    exact exec_doeDiscovery hreached

/-! ## The debug port -/

/-- The debug port, the output and the count of free values apart, `t` is `s`, and neither the lock nor the failures change. -/
def tapOnly (s t : State) : Prop :=
  t = { s with dev := { s.dev with dbg := t.dev.dbg, out := t.dev.out, freeCtr := t.dev.freeCtr } } ∧
    t.dev.dbg.unlocked = s.dev.dbg.unlocked ∧ t.dev.dbg.fails = s.dev.dbg.fails

theorem exec_tapCommands (s : State) : ∀ c ∈ tapCommands, ∃ t, exec c s = .next t ∧ tapOnly s t := by
  have hchallenge : tapOnly s { s with dev := (s.dev.tapTo 4).challenge } := by
    unfold Dev.challenge
    dsimp only
    split
    · exact ⟨rfl, rfl, rfl⟩
    · exact ⟨rfl, rfl, rfl⟩
  simp only [tapCommands, List.forall_mem_cons, List.not_mem_nil, false_imp_iff, implies_true, and_true]
  exact ⟨⟨_, rfl, rfl, rfl, rfl⟩, ⟨_, rfl, rfl, rfl, rfl⟩, ⟨_, rfl, rfl, rfl, rfl⟩, ⟨_, rfl, rfl, rfl, rfl⟩, ⟨_, rfl, hchallenge⟩,
    ⟨_, rfl, rfl, rfl, rfl⟩⟩

theorem exec_dbgChallenge (s : State) : ∃ t, exec .dbgChallenge s = .next t ∧
    (if 8 ≤ s.dev.dbg.fails then t.dev.out = s.dev.out ++ [.jtag 384 0] ∧ t.dev.dbg.nonce = s.dev.dbg.nonce
     else ∃ n, t.dev.out = s.dev.out ++ [.jtag 384 n] ∧ t.dev.dbg.nonce = some n) := by
  refine ⟨_, rfl, ?_⟩
  unfold Dev.challenge
  dsimp only
  split
  · next hfails =>
    rw [if_pos (show 8 ≤ (s.dev.tapTo 4).dbg.fails from hfails)]
    exact ⟨rfl, rfl⟩
  · next hfails =>
    rw [if_neg (show ¬ 8 ≤ (s.dev.tapTo 4).dbg.fails from hfails)]
    exact ⟨_, rfl, rfl⟩

theorem exec_dbgResponse (s : State) (slot signature : Nat) : ∃ t, exec (.dbgResponse slot signature) s = .next t ∧ t.dev.dbg.nonce = none ∧
    (t.dev.dbg.unlocked = true ↔ s.dev.dbg.unlocked = true ∨ s.responseOk slot signature = true) ∧
    (s.responseOk slot signature = false → t.dev.dbg.fails = s.dev.dbg.fails + 1) ∧ t = { s with dev := { s.dev with dbg := t.dev.dbg } } := by
  refine ⟨_, rfl, ?_⟩
  have hok : State.responseOk slot signature { s with dev := s.dev.tapTo 5 } = s.responseOk slot signature := rfl
  unfold State.respond
  dsimp only
  rw [hok]
  split
  · next h => exact ⟨rfl, by simp only [h, or_true], fun hbad => absurd (h.symm.trans hbad) (by decide), rfl⟩
  · next h => exact ⟨rfl, by simp only [h, Bool.false_eq_true, or_false]; rfl, fun _ => rfl, rfl⟩

/-- Settles O21. -/
theorem debugPort : Obligations.DebugPort :=
  fun s => ⟨exec_tapCommands s, ⟨_, rfl, rfl⟩, exec_dbgChallenge s, exec_dbgResponse s⟩

end Sys2Proof.Machine
end

section
/-!
Fields of one instance, what an operation leaves of links and functions.
-/

namespace Sys2Proof.Machine

/-! ## Fields of one instance -/

theorem Field.key_eq_shift (f : Field) (i a : Nat) : f.key i a = f.key 0 0 + (i * 33554432 + a) * 32 := by
  simp only [Field.key]
  ring

/-- Two fields that differ in the first instance differ in every instance. -/
theorem Field.key_ne_at {f g : Field} (i a : Nat) (h : g.key 0 0 ≠ f.key 0 0) : g.key i a ≠ f.key i a := by
  rw [g.key_eq_shift, f.key_eq_shift]
  exact fun he => h (Nat.add_right_cancel he)

theorem Dev.rd_wr_at (d : Dev) (f g : Field) (v i a : Nat) (h : g.key 0 0 ≠ f.key 0 0) : (d.wr f v i a).rd g i a = d.rd g i a :=
  d.rd_wr_ne f g v i a i a (Field.key_ne_at i a h)

theorem Dev.rd_bump_at (d : Dev) (f g : Field) (i a n : Nat) (h : g.key 0 0 ≠ f.key 0 0) : (d.bump f i a n).rd g i a = d.rd g i a :=
  d.rd_wr_at f g _ i a h

/-- Fields of different unit types differ. -/
theorem Field.key_ne_of_unit {f g : Field} {i j a b : Nat} (hunit : g.unit ≠ f.unit) (hi : i < 65536) (hj : j < 65536)
    (ha : f.off + a < 33554432) (hb : g.off + b < 33554432) (hf : f.lsb < 32) (hg : g.lsb < 32) : g.key j b ≠ f.key i a := by
  simp only [Field.key]
  omega

theorem Dev.rd_cause_at (d : Dev) (c : Causes) (b i : Nat) (g : Field) (h : g.key 0 0 ≠ (c.bit b).key 0 0) : (d.cause c b i).rd g i = d.rd g i :=
  d.rd_cause_ne c b i g i 0 (Field.key_ne_at i 0 h)

section
variable (d : Dev) (c : Causes) (b i : Nat)

theorem Dev.cause_phase : (d.cause c b i).phase = d.phase := Dev.phase_of_besides (Dev.cause_besides d c b i (List.Subset.refl _))
theorem Dev.cause_links : (d.cause c b i).links = d.links := Dev.links_of_besides (Dev.cause_besides d c b i (List.Subset.refl _))
theorem Dev.cause_funcs : (d.cause c b i).funcs = d.funcs := Dev.funcs_of_besides (Dev.cause_besides d c b i (List.Subset.refl _))
theorem Dev.cause_boot : (d.cause c b i).boot = d.boot := Dev.boot_of_besides (Dev.cause_besides d c b i (List.Subset.refl _))

end

theorem Dev.link_congr {d e : Dev} (h : e.links = d.links) (n : Nat) : e.link n = d.link n := by rw [Dev.link, Dev.link, h]

theorem Dev.fn_congr {d e : Dev} (h : e.funcs = d.funcs) (n : Nat) : e.fn n = d.fn n := by rw [Dev.fn, Dev.fn, h]

section
variable {d e : Dev} (hboot : e.boot = d.boot)
include hboot

theorem Dev.pf?_congr (n : Nat) : e.pf? n = d.pf? n := by rw [Dev.pf?, Dev.pf?, Dev.identity, Dev.identity, hboot]

theorem Dev.vfBase_congr (p : Nat) : e.vfBase p = d.vfBase p := by simp only [Dev.vfBase, Dev.pf?_congr hboot]

theorem Dev.pfOf_congr (fn : Nat) : e.pfOf fn = d.pfOf fn := by simp only [Dev.pfOf, Dev.pf?_congr hboot, Dev.vfBase_congr hboot]

theorem Dev.linkOf_congr (fn : Nat) : e.linkOf fn = d.linkOf fn := by simp only [Dev.linkOf, Dev.pf?_congr hboot, Dev.pfOf_congr hboot]

theorem Dev.vfsOf_congr (p : Nat) : e.vfsOf p = d.vfsOf p := by simp only [Dev.vfsOf, Dev.pf?_congr hboot, Dev.vfBase_congr hboot]

/-- Which functions a link carries goes by the functions and by the identity that the device runs with. -/
theorem Dev.fnsOf_congr (hfuncs : e.funcs = d.funcs) (link : Nat) : e.fnsOf link = d.fnsOf link := by
  simp only [Dev.fnsOf, Dev.linkOf_congr hboot, Dev.hasFn, Dev.fn, hfuncs]

end

theorem Dev.each_same {α : Type} {l : List α} {f : α → Dev → Dev} {d : Dev} (h : ∀ a ∈ l, f a d = d) : Dev.each l f d = d := by
  unfold Dev.each
  induction l with
  | nil => rfl
  | cons a l ih => rw [List.foldl_cons, h a List.mem_cons_self, ih (fun x hx => h x (List.mem_cons_of_mem a hx))]

theorem NMap.get?_filter_key {α : Type} (m : NMap α) (p : Nat → Bool) (k : Nat) :
    (m.filter (fun j _ => p j)).get? k = if p k then m.get? k else none := by
  unfold NMap.get? NMap.filter
  dsimp only
  induction m.entries with
  | nil => simp only [List.filter_nil, findKey, ite_self]
  | cons e l ih =>
    obtain ⟨j, v⟩ := e
    by_cases hp : p j = true
    · rw [List.filter_cons_of_pos (by exact hp), findKey, findKey, ih]
      by_cases he : k = j
      · rw [if_pos he, if_pos he, if_pos (he ▸ hp)]
      · rw [if_neg he, if_neg he]
    · rw [List.filter_cons_of_neg (by exact hp), ih, findKey]
      by_cases he : k = j
      · rw [if_neg (he ▸ hp), if_neg (he ▸ hp)]
      · rw [if_neg he]

end Sys2Proof.Machine
end

section
/-!
Host links (R112, R116, R125, R128, R130).
-/

namespace Sys2Proof.Machine

/-! ## Link resets -/

/-- A link leaves its state: the state changes and the stream is no longer secure. -/
theorem Dev.linkLeaves_facts (link state : Nat) (d : Dev) :
    (d.linkLeaves link state).rd R.PCX_LINK_STATUS_state link = state % 2 ^ 4 ∧
      (d.linkLeaves link state).rd R.PCX_LINK_STATUS_ide_secure link = 0 ∧
      (d.linkLeaves link state).rd R.PCX_LINK_STATUS_perst link = d.rd R.PCX_LINK_STATUS_perst link ∧
      (d.linkLeaves link state).rd R.PCX_RESET_COUNT_resets link = d.rd R.PCX_RESET_COUNT_resets link := by
  have hrd (f : Field) (hf : f.key 0 0 ≠ (pcxCauses.bit 0).key 0 0) : (d.linkLeaves link state).rd f link =
      ((d.wr R.PCX_LINK_STATUS_state state link).wr R.PCX_LINK_STATUS_ide_secure 0 link).rd f link := by
    unfold Dev.linkLeaves
    dsimp only
    split
    · exact Dev.rd_cause_at _ _ _ _ _ hf
    · rfl
  refine ⟨?_, ?_, ?_, ?_⟩
  · rw [hrd _ (by decide), Dev.rd_wr_at _ _ _ _ _ _ (by decide), Dev.rd_wr_self]
    rfl
  · rw [hrd _ (by decide), Dev.rd_wr_self]
    rfl
  · rw [hrd _ (by decide), Dev.rd_wr_at _ _ _ _ _ _ (by decide), Dev.rd_wr_at _ _ _ _ _ _ (by decide)]
  · rw [hrd _ (by decide), Dev.rd_wr_at _ _ _ _ _ _ (by decide), Dev.rd_wr_at _ _ _ _ _ _ (by decide)]

/-- A link that has left its state is in reset, before its functions begin theirs. -/
def Dev.linkSeized (link code : Nat) (kind : LinkReset) (d : Dev) : Dev :=
  (((d.wr R.PCX_RESET_RECORD_last code link).bump R.PCX_RESET_COUNT_resets link).onLink link (fun l =>
    { l with reset := kind, training := false, ready := false, ideKeys := none, commit := none, atc := [] })).wr R.PCX_P2P_COMMIT_commit_busy 0 link

theorem Dev.linkSeized_phase (link code : Nat) (kind : LinkReset) (d : Dev) : (d.linkSeized link code kind).phase = d.phase := rfl

theorem Dev.linkSeized_fnsOf (link code : Nat) (kind : LinkReset) (d : Dev) (n : Nat) : (d.linkSeized link code kind).fnsOf n = d.fnsOf n :=
  Dev.fnsOf_congr rfl rfl n

theorem Dev.linkLeaves_phase (link state : Nat) (d : Dev) : (d.linkLeaves link state).phase = d.phase :=
  Dev.phase_of_besides (Dev.linkLeaves_besides link state d (List.Subset.refl _))

theorem Dev.linkLeaves_fnsOf (link state : Nat) (d : Dev) (n : Nat) : (d.linkLeaves link state).fnsOf n = d.fnsOf n :=
  Dev.fnsOf_congr (Dev.boot_of_besides (Dev.linkLeaves_besides link state d (List.Subset.refl _)))
    (Dev.funcs_of_besides (Dev.linkLeaves_besides link state d (List.Subset.refl _))) n

/-- What a link reset of a link that is not in one is. -/
theorem Dev.linkReset_eq {d : Dev} {link : Nat} (code : Nat) (kind : LinkReset) (state : Nat) (h : d.phase = .running)
    (hformed : d.formed link = true) (hreset : (d.link link).reset = .none) :
    d.linkReset link code kind state = ((d.linkLeaves link state).linkSeized link code kind).resetFns link := by
  have hphase : ((d.linkLeaves link state).linkSeized link code kind).phase = .running :=
    (Dev.linkSeized_phase ..).trans ((Dev.linkLeaves_phase ..).trans h)
  unfold Dev.linkReset
  simp only [hformed, hreset, Bool.not_true, Bool.false_eq_true, if_false, ne_eq, not_true, false_and, decide_false]
  exact if_pos hphase

theorem Dev.resetFns_none {d : Dev} {link : Nat} (h : d.fnsOf link = []) : d.resetFns link = d := by
  unfold Dev.resetFns
  dsimp only
  rw [h]
  rfl

theorem Dev.linkReset_alone {d : Dev} {link : Nat} (code : Nat) (kind : LinkReset) (state : Nat) (h : d.phase = .running)
    (hformed : d.formed link = true) (hfns : d.fnsOf link = []) (hreset : (d.link link).reset = .none) :
    d.linkReset link code kind state = (d.linkLeaves link state).linkSeized link code kind := by
  rw [Dev.linkReset_eq code kind state h hformed hreset,
    Dev.resetFns_none ((Dev.linkSeized_fnsOf ..).trans ((Dev.linkLeaves_fnsOf ..).trans hfns))]

/-- The registers and the link as a reset has taken them. -/
theorem Dev.linkSeized_facts (link : Nat) {code : Nat} (kind : LinkReset) (d : Dev) (hcode : code < 4) :
    (d.linkSeized link code kind).rd R.PCX_RESET_RECORD_last link = code ∧
      (d.linkSeized link code kind).rd R.PCX_RESET_COUNT_resets link =
        (d.rd R.PCX_RESET_COUNT_resets link + 1) % 2 ^ R.PCX_RESET_COUNT_resets.width ∧
      (∀ f : Field, f.key 0 0 ≠ R.PCX_P2P_COMMIT_commit_busy.key 0 0 → f.key 0 0 ≠ R.PCX_RESET_RECORD_last.key 0 0 →
        f.key 0 0 ≠ R.PCX_RESET_COUNT_resets.key 0 0 → (d.linkSeized link code kind).rd f link = d.rd f link) ∧
      (d.linkSeized link code kind).link link =
        { d.link link with reset := kind, training := false, ready := false, ideKeys := none, commit := none, atc := [] } := by
  have hrd (f : Field) (hbusy : f.key 0 0 ≠ R.PCX_P2P_COMMIT_commit_busy.key 0 0) : (d.linkSeized link code kind).rd f link =
      ((d.wr R.PCX_RESET_RECORD_last code link).bump R.PCX_RESET_COUNT_resets link).rd f link := Dev.rd_wr_at _ _ _ _ _ _ hbusy
  refine ⟨?_, ?_, fun f hbusy hlast hresets => ?_, NMap.getD_upd_self ..⟩
  · rw [hrd _ (by decide), Dev.rd_bump_at _ _ _ _ _ _ (by decide), Dev.rd_wr_self]
    exact Nat.mod_eq_of_lt hcode
  · rw [hrd _ (by decide), Dev.rd_bump_self, Dev.rd_wr_at _ _ _ _ _ _ (by decide)]
  · rw [hrd f hbusy, Dev.rd_bump_at _ _ _ _ _ _ hresets, Dev.rd_wr_at _ _ _ _ _ _ hlast]

/-- A link reset has been taken of a link that was not in one: its record, its state, what is lost. -/
theorem Dev.linkReset_taken (link : Nat) {code state : Nat} (kind : LinkReset) (d : Dev) (hcode : code < 4) (hstate : state < 16) :
    ∃ e, (d.linkLeaves link state).linkSeized link code kind = e ∧ e.rd R.PCX_RESET_RECORD_last link = code ∧
      e.rd R.PCX_RESET_COUNT_resets link = (d.rd R.PCX_RESET_COUNT_resets link + 1) % 2 ^ R.PCX_RESET_COUNT_resets.width ∧
      e.rd R.PCX_LINK_STATUS_ide_secure link = 0 ∧ e.rd R.PCX_LINK_STATUS_state link = state ∧ (e.link link).reset = kind ∧
      (e.link link).ideKeys = none ∧ (e.link link).commit = none ∧ e.phase = d.phase ∧ e.fnsOf link = d.fnsOf link := by
  obtain ⟨hst, hide, -, hcount⟩ := d.linkLeaves_facts link state
  have hphase := Dev.linkLeaves_phase link state d
  have hfns := Dev.linkLeaves_fnsOf link state d link
  generalize d.linkLeaves link state = c at *
  obtain ⟨hlast, hresets, hrest, hlink⟩ := c.linkSeized_facts link kind hcode
  refine ⟨_, rfl, hlast, hresets.trans (by rw [hcount]), (hrest _ (by decide) (by decide) (by decide)).trans hide,
    (hrest _ (by decide) (by decide) (by decide)).trans (hst.trans (Nat.mod_eq_of_lt hstate)), (congrArg Link.reset hlink :),
    (congrArg Link.ideKeys hlink :), (congrArg Link.commit hlink :), (Dev.linkSeized_phase ..).trans hphase,
    (Dev.linkSeized_fnsOf ..).trans hfns⟩

/-! ## The end of a link reset -/

/-- Both sets of peer-to-peer windows are cleared, and nothing outside them but the commit count. -/
theorem Dev.rd_clearWindows (link w : Nat) (d : Dev) (f : Field) (hw : w < 16) (hf : f ∈ p2pShadow ++ p2pActive) :
    (d.clearWindows link).rd f link (32 * w) = 0 := by
  have hwindow : ∀ f ∈ p2pShadow ++ p2pActive, f.dflt = 0 ∧ f.unit = 0x10 ∧ 0x40 ≤ f.off ∧ f.off < 0x260 ∧ f.lsb < 32 := by decide
  obtain ⟨hdflt, hunit, hlow, hhigh, hlsb⟩ := hwindow f hf
  have hkey : f.key link (32 * w) ≠ R.PCX_P2P_GEN_commits.key link 0 := by
    simp only [Field.key, hunit, R.PCX_P2P_GEN_commits]
    omega
  unfold Dev.clearWindows
  dsimp only
  rw [Dev.rd_wr_ne _ _ _ _ _ _ _ _ hkey, Dev.rd, NMap.getD, NMap.get?_filter_key, if_neg]
  · exact hdflt
  · simp only [Field.key, hunit, R.PCX_P2P_BASE_LO_base, Bool.not_eq_true', Bool.and_eq_false_iff, decide_eq_false_iff_not, not_or, not_not]
    omega

theorem Dev.rd_clearWindows_outside (link : Nat) (d : Dev) {f : Field} (hunit : f.unit = 0x10) (hoff : f.off < 0x30) (hlsb : f.lsb < 32) :
    (d.clearWindows link).rd f link = d.rd f link := by
  have hkey : f.key link 0 ≠ R.PCX_P2P_GEN_commits.key link 0 := by
    simp only [Field.key, hunit, R.PCX_P2P_GEN_commits]
    omega
  unfold Dev.clearWindows
  dsimp only
  rw [Dev.rd_wr_ne _ _ _ _ _ _ _ _ hkey, Dev.rd, NMap.getD, NMap.get?_filter_key, if_pos]
  · rfl
  · simp only [Field.key, hunit, R.PCX_P2P_BASE_LO_base, Bool.not_eq_true', Bool.and_eq_false_iff, decide_eq_false_iff_not]
    omega

/-- The end of a link reset: windows cleared, the link trains. -/
def Dev.linkFreed (link : Nat) (d : Dev) : Dev :=
  ((((d.clearWindows link).onLink link (fun l => { l with reset := .none, training := true, enabled := true })).wr
    R.PCX_LINK_STATUS_state 2 link).cause pcxCauses 2 link)

theorem Dev.endLinkReset_eq {d : Dev} {link : Nat} (h : d.phase = .running) (hfns : d.fnsOf link = []) (hreset : (d.link link).reset ≠ .none)
    (hperst : (d.link link).reset ≠ .fundamental ∨ d.on R.PCX_LINK_STATUS_perst link = false) : d.endLinkReset link = d.linkFreed link := by
  have hover : d.linkResetOver link = true := by
    rw [Dev.linkResetOver, hfns, bne_iff_ne.2 hreset]
    rcases hperst with hkind | hoff
    · rw [bne_iff_ne.2 hkind]
      rfl
    · rw [hoff, Bool.not_false, Bool.or_true]
      rfl
  unfold Dev.endLinkReset
  rw [hover, h]
  rfl

/-- What the end of a link reset leaves of the registers of the link's window. -/
theorem Dev.rd_linkFreed (link : Nat) (d : Dev) {f : Field} (hunit : f.unit = 0x10) (hoff : f.off < 0x30) (hlsb : f.lsb < 32)
    (hstate : f.key 0 0 ≠ R.PCX_LINK_STATUS_state.key 0 0) (hcause : f.key 0 0 ≠ (pcxCauses.bit 2).key 0 0) :
    (d.linkFreed link).rd f link = d.rd f link := by
  rw [Dev.linkFreed, Dev.rd_cause_at _ _ _ _ _ hcause, Dev.rd_wr_at _ _ _ _ _ _ hstate]
  exact Dev.rd_clearWindows_outside link d hunit hoff hlsb

theorem Dev.linkFreed_link (link : Nat) (d : Dev) :
    (d.linkFreed link).link link = { (d.clearWindows link).link link with reset := .none, training := true, enabled := true } := by
  rw [Dev.linkFreed, Dev.link_congr (Dev.cause_links ..)]
  exact NMap.getD_upd_self ..

theorem linkTrains_linkFreed (link : Nat) (s : State) (d : Dev) : linkTrains link { s with dev := d.linkFreed link } := by
  have hlink := d.linkFreed_link link
  refine ⟨(congrArg Link.reset hlink :), (congrArg Link.training hlink :), ?_, Dev.cause_on ..⟩
  show (d.linkFreed link).rd _ link = 2
  rw [Dev.linkFreed, Dev.rd_cause_at _ _ _ _ _ (by decide), Dev.rd_wr_self]
  rfl

theorem Dev.rd_linkFreed_window (link w : Nat) (d : Dev) (f : Field) (hw : w < 16) (hf : f ∈ p2pShadow ++ p2pActive) :
    (d.linkFreed link).rd f link (32 * w) = 0 := by
  have hwindow : ∀ f ∈ p2pShadow ++ p2pActive, f.unit = 0x10 ∧ 0x40 ≤ f.off ∧ f.off < 0x260 ∧ f.lsb < 32 := by decide
  obtain ⟨hunit, hlow, hhigh, hlsb⟩ := hwindow f hf
  have hcause : f.key link (32 * w) ≠ (pcxCauses.bit 2).key link 0 := by
    simp only [Field.key, hunit, Causes.bit, pcxCauses]
    omega
  have hstate : f.key link (32 * w) ≠ R.PCX_LINK_STATUS_state.key link 0 := by
    simp only [Field.key, hunit, R.PCX_LINK_STATUS_state]
    omega
  rw [Dev.linkFreed, Dev.rd_cause_ne _ _ _ _ _ _ _ hcause, Dev.rd_wr_ne _ _ _ _ _ _ _ _ hstate]
  exact Dev.rd_clearWindows link w d f hw hf

/-! ## Commands -/

theorem exec_perstNAssert_alone (link : Nat) (s : State) (h : s.dev.phase = .running) (hformed : s.dev.formed link = true)
    (hfns : s.dev.fnsOf link = []) (hreset : (s.dev.link link).reset = .none) (hperst : s.dev.on R.PCX_LINK_STATUS_perst link = false) :
    ∃ t, exec (.perstNAssert link) s = .next t ∧ linkTaken link 1 s t ∧ (t.dev.link link).reset = .fundamental ∧
      t.dev.rd R.PCX_LINK_STATUS_perst link = 1 ∧ t.dev.rd R.PCX_LINK_STATUS_state link = 1 := by
  obtain ⟨e, he, hlast, hcount, hide, hstate, hkind, hkeys, hcommit, -, -⟩ :=
    s.dev.linkReset_taken link (code := 1) (state := 1) .fundamental (by decide) (by decide)
  have hassert : s.dev.perstAssert link = e.wr R.PCX_LINK_STATUS_perst 1 link := by
    simp only [Dev.perstAssert, hformed, hperst, Bool.not_true, Bool.or_self, Bool.false_eq_true, if_false,
      Dev.linkReset_alone 1 .fundamental 1 h hformed hfns hreset, he]
  refine ⟨_, (State.onLinks_answering _ (.inl h) : execPerstNAssert link s = _), ?_⟩
  rw [hassert]
  exact ⟨⟨(Dev.rd_wr_at _ _ _ _ _ _ (by decide)).trans hlast, (Dev.rd_wr_at _ _ _ _ _ _ (by decide)).trans hcount, hkeys, hcommit,
    (Dev.rd_wr_at _ _ _ _ _ _ (by decide)).trans hide⟩, hkind, Dev.rd_wr_self .., (Dev.rd_wr_at _ _ _ _ _ _ (by decide)).trans hstate⟩

/-- A hot reset, and the loss of the data link, of a link without functions end at once. -/
theorem linkReset_ends (link : Nat) {code : Nat} (state : Nat) {kind : LinkReset} (s : State) (h : s.dev.phase = .running)
    (hformed : s.dev.formed link = true) (hfns : s.dev.fnsOf link = []) (hreset : (s.dev.link link).reset = .none) (hcode : code < 4)
    (hstate : state < 16) (hnone : kind ≠ .none) (hkind : kind ≠ .fundamental) :
    linkTaken link code s { s with dev := (s.dev.linkReset link code kind state).endLinkReset link } ∧
      linkTrains link { s with dev := (s.dev.linkReset link code kind state).endLinkReset link } := by
  obtain ⟨e, he, hlast, hcount, hide, -, hreset', hkeys, hcommit, hphase, hfns'⟩ :=
    s.dev.linkReset_taken link (code := code) (state := state) kind hcode hstate
  have hfreed := e.linkFreed_link link
  rw [Dev.linkReset_alone code kind state h hformed hfns hreset, he, Dev.endLinkReset_eq (hphase.trans h) (hfns'.trans hfns)
    (fun hn => hnone (hreset'.symm.trans hn)) (.inl (fun hn => hkind (hreset'.symm.trans hn)))]
  refine ⟨⟨?_, ?_, ?_, ?_, ?_⟩, linkTrains_linkFreed link s _⟩
  · exact (Dev.rd_linkFreed link _ rfl (by decide) (by decide) (by decide) (by decide)).trans hlast
  · exact (Dev.rd_linkFreed link _ rfl (by decide) (by decide) (by decide) (by decide)).trans hcount
  · exact (congrArg Link.ideKeys hfreed).trans hkeys
  · exact (congrArg Link.commit hfreed).trans hcommit
  · exact (Dev.rd_linkFreed link _ rfl (by decide) (by decide) (by decide) (by decide)).trans hide

theorem exec_perstNDeassert_alone (link : Nat) (s : State) (h : s.dev.phase = .running) (hformed : s.dev.formed link = true)
    (hfns : s.dev.fnsOf link = []) (hreset : (s.dev.link link).reset = .fundamental) :
    ∃ t, exec (.perstNDeassert link) s = .next t ∧ linkTrains link t ∧ t.dev.rd R.PCX_LINK_STATUS_perst link = 0 ∧
      ∀ f ∈ p2pShadow ++ p2pActive, ∀ w, w < 16 → t.dev.rd f link (32 * w) = 0 := by
  have hoff : (s.dev.wr R.PCX_LINK_STATUS_perst 0 link).rd R.PCX_LINK_STATUS_perst link = 0 := Dev.rd_wr_self ..
  have hend : (s.dev.wr R.PCX_LINK_STATUS_perst 0 link).endLinkReset link = (s.dev.wr R.PCX_LINK_STATUS_perst 0 link).linkFreed link :=
    Dev.endLinkReset_eq h hfns (fun hnone => absurd (hreset.symm.trans hnone) (by decide)) (.inr (by rw [Dev.on, hoff]; rfl))
  refine ⟨_, State.onLinks_answering _ (.inl h), ?_⟩
  unfold Dev.perstDeassert
  simp only [hformed, Bool.not_true, Bool.false_eq_true, if_false, hend]
  refine ⟨linkTrains_linkFreed link s _, ?_, fun f hf w hw => Dev.rd_linkFreed_window link w _ f hw hf⟩
  exact (Dev.rd_linkFreed link _ rfl (by decide) (by decide) (by decide) (by decide)).trans hoff

/-- A link in training reaches L0: its registers and state before its functions go on. -/
def Dev.linkInL0 (link rate width : Nat) (flit : Bool) (d : Dev) : Dev :=
  ((((d.wr R.PCX_LINK_STATUS_state 3 link).wr R.PCX_LINK_STATUS_rate rate link).wr R.PCX_LINK_STATUS_width width link).wr
    R.PCX_LINK_STATUS_flit flit.toNat link).onLink link (fun l => { l with training := false, ready := true })

theorem Dev.rd_linkInL0 {link rate width : Nat} (flit : Bool) (d : Dev) (hrate : rate < 8) (hwidth : width < 32) :
    (d.linkInL0 link rate width flit).rd R.PCX_LINK_STATUS_state link = 3 ∧
      (d.linkInL0 link rate width flit).rd R.PCX_LINK_STATUS_rate link = rate ∧
      (d.linkInL0 link rate width flit).rd R.PCX_LINK_STATUS_width link = width ∧
      (d.linkInL0 link rate width flit).on R.PCX_LINK_STATUS_flit link = flit := by
  have hrd (f : Field) : (d.linkInL0 link rate width flit).rd f link =
      ((((d.wr R.PCX_LINK_STATUS_state 3 link).wr R.PCX_LINK_STATUS_rate rate link).wr R.PCX_LINK_STATUS_width width link).wr
        R.PCX_LINK_STATUS_flit flit.toNat link).rd f link := rfl
  refine ⟨?_, ?_, ?_, ?_⟩
  · rw [hrd, Dev.rd_wr_at _ _ _ _ _ _ (by decide), Dev.rd_wr_at _ _ _ _ _ _ (by decide), Dev.rd_wr_at _ _ _ _ _ _ (by decide), Dev.rd_wr_self]
    rfl
  · rw [hrd, Dev.rd_wr_at _ _ _ _ _ _ (by decide), Dev.rd_wr_at _ _ _ _ _ _ (by decide), Dev.rd_wr_self]
    exact Nat.mod_eq_of_lt (hrate.trans (by decide))
  · rw [hrd, Dev.rd_wr_at _ _ _ _ _ _ (by decide), Dev.rd_wr_self]
    exact Nat.mod_eq_of_lt hwidth
  · rw [Dev.on, hrd, Dev.rd_wr_self]
    cases flit <;> rfl

theorem Dev.pump_idle {d : Dev} {link : Nat} (h : (d.link link).queue = []) : d.pump link = d := by
  rw [Dev.pump, h]
  rfl

theorem Dev.linkUpAt_eq {d : Dev} {link rate width : Nat} {flit : Bool} (hformed : d.formed link = true) (hreset : (d.link link).reset = .none)
    (hqueue : (d.link link).queue = []) (hstate : d.rd R.PCX_LINK_STATUS_state link = 2) (hbus : ∀ fn ∈ d.fnsOf link, (d.fn fn).busMaster = false) :
    ∃ e : Dev, d.linkUpAt link rate width flit = e.cause pcxCauses 1 link ∧ e.links = (d.linkInL0 link rate width flit).links ∧
      ∀ f : Field, f.key 0 0 ≠ (pcxCauses.bit 8).key 0 0 → e.rd f link = (d.linkInL0 link rate width flit).rd f link := by
  unfold Dev.linkUpAt
  extract_lets state was changed below d₁ d₂ d₃ d₄
  have hd₂ : d₂ = d.linkInL0 link rate width flit := rfl
  have hd₃ : d₃ = d₂.cause pcxCauses 8 link ∨ d₃ = d₂ := ite_eq_or_eq _ _ _
  have hd₄ : d₄ = d₃.cause pcxCauses 1 link := if_neg (by rw [show state = 2 from hstate]; decide)
  clear_value d₄ d₃
  obtain ⟨hlinks, hfuncs, hboot, hregs⟩ : d₃.links = d₂.links ∧ d₃.funcs = d₂.funcs ∧ d₃.boot = d₂.boot ∧
      ∀ f : Field, f.key 0 0 ≠ (pcxCauses.bit 8).key 0 0 → d₃.rd f link = d₂.rd f link := by
    rcases hd₃ with rfl | rfl
    · exact ⟨Dev.cause_links .., Dev.cause_funcs .., Dev.cause_boot .., fun f => Dev.rd_cause_at _ _ _ _ _⟩
    · exact ⟨rfl, rfl, rfl, fun _ _ => rfl⟩
  have hqueue₄ : (d₄.link link).queue = [] := by
    rw [hd₄, Dev.link_congr (Dev.cause_links ..), Dev.link_congr hlinks, hd₂]
    exact (congrArg Link.queue (NMap.getD_upd_self ..)).trans hqueue
  have hfns : d₄.fnsOf link = d.fnsOf link := by
    rw [hd₄, Dev.fnsOf_congr (Dev.cause_boot ..) (Dev.cause_funcs ..), Dev.fnsOf_congr hboot hfuncs]
    rfl
  have hfn (fn : Nat) : d₄.fn fn = d.fn fn := by
    rw [hd₄, Dev.fn_congr (Dev.cause_funcs ..), Dev.fn_congr hfuncs]
    rfl
  have hstate' : state = 2 := hstate
  refine ⟨d₃, ?_, hlinks, hregs⟩
  simp only [hformed, hreset, hstate', Bool.not_true, bne_self_eq_false, Bool.or_self, Bool.false_and, Bool.false_eq_true, if_false]
  rw [Dev.pump_idle hqueue₄, hfns, ← hd₄]
  refine Dev.each_same (fun fn hmem => if_neg ?_)
  rw [hfn, hbus fn hmem]
  exact Bool.false_ne_true

theorem exec_linkUp (link : Nat) (s : State) (h : s.dev.phase = .running) (hformed : s.dev.formed link = true) (rate width : Nat) (flit : Bool)
    (hrate : rate < 8) (hwidth : width < 32) (hreset : (s.dev.link link).reset = .none) (hqueue : (s.dev.link link).queue = [])
    (hstate : s.dev.rd R.PCX_LINK_STATUS_state link = 2) (hbus : ∀ fn ∈ s.dev.fnsOf link, (s.dev.fn fn).busMaster = false) :
    ∃ t, exec (.linkUp link rate width flit) s = .next t ∧ t.dev.rd R.PCX_LINK_STATUS_state link = 3 ∧
      t.dev.rd R.PCX_LINK_STATUS_rate link = rate ∧ t.dev.rd R.PCX_LINK_STATUS_width link = width ∧
      t.dev.on R.PCX_LINK_STATUS_flit link = flit ∧ (t.dev.link link).ready = true ∧ (t.dev.link link).training = false ∧
      t.dev.on (pcxCauses.bit 1) link = true := by
  obtain ⟨e, hup, hlinks, hregs⟩ := Dev.linkUpAt_eq (rate := rate) (width := width) (flit := flit) hformed hreset hqueue hstate hbus
  obtain ⟨hst, hra, hwi, hfl⟩ := Dev.rd_linkInL0 (link := link) flit s.dev hrate hwidth
  have hlink : (e.cause pcxCauses 1 link).link link = { s.dev.link link with training := false, ready := true } := by
    rw [Dev.link_congr (Dev.cause_links ..), Dev.link_congr hlinks]
    exact NMap.getD_upd_self ..
  have hrd (f : Field) (hone : f.key 0 0 ≠ (pcxCauses.bit 1).key 0 0) (height : f.key 0 0 ≠ (pcxCauses.bit 8).key 0 0) :
      (e.cause pcxCauses 1 link).rd f link = (s.dev.linkInL0 link rate width flit).rd f link :=
    (Dev.rd_cause_at _ _ _ _ _ hone).trans (hregs f height)
  refine ⟨_, State.onLinks_answering _ (.inl h), ?_⟩
  rw [hup]
  refine ⟨(hrd _ (by decide) (by decide)).trans hst, (hrd _ (by decide) (by decide)).trans hra, (hrd _ (by decide) (by decide)).trans hwi, ?_,
    (congrArg Link.ready hlink :), (congrArg Link.training hlink :), Dev.cause_on ..⟩
  rw [Dev.on, hrd _ (by decide) (by decide)]
  exact hfl

theorem exec_aspmL1Entry (link : Nat) (s : State) (h : s.dev.phase = .running) (hstate : s.dev.rd R.PCX_LINK_STATUS_state link = 3)
    (hreads : (s.dev.link link).reads = {}) (hqueue : (s.dev.link link).queue = [])
    (hfns : ∀ fn ∈ s.dev.fnsOf link, fn < 16 → (s.dev.fn fn).aspmL1 = true) :
    exec (.aspmL1Entry link) s = .next { s with dev := s.dev.wr R.PCX_LINK_STATUS_state 6 link } := by
  have hall : ((s.dev.fnsOf link).filter (· < 16)).all (fun f => (s.dev.fn f).aspmL1) = true := by
    refine List.all_eq_true.2 (fun fn hmem => ?_)
    obtain ⟨hfn, hpf⟩ := List.mem_filter.1 hmem
    exact hfns fn hfn (of_decide_eq_true hpf)
  show execAspmL1Entry link s = _
  rw [execAspmL1Entry, State.onLinks_answering _ (.inl h), if_pos ⟨hstate, by rw [hreads]; rfl, by rw [hqueue]; rfl, hall⟩]

/-- Settles O22. -/
theorem hostLinks : Obligations.HostLinks :=
  ⟨fun link s h hformed hfns => ⟨fun hreset => ⟨exec_perstNAssert_alone link s h hformed hfns hreset,
      ⟨_, (State.onLinks_answering _ (.inl h) : execHotReset link s = _),
        linkReset_ends link 5 s h hformed hfns hreset (by decide) (by decide) (by decide) (by decide)⟩,
      ⟨_, (State.onLinks_answering _ (.inl h) : execDlDown link s = _),
        linkReset_ends link 1 s h hformed hfns hreset (by decide) (by decide) (by decide) (by decide)⟩⟩,
      exec_perstNDeassert_alone link s h hformed hfns⟩,
    fun link s h hformed => ⟨exec_linkUp link s h hformed, exec_aspmL1Entry link s h⟩⟩

end Sys2Proof.Machine
end

section
/-!
Mailboxes and DMA channels while a function is reset.
-/

namespace Sys2Proof.Machine

/-! ## What stands of a function while messages are taken back -/

/-- Of every function at most what its vectors hold differs. -/
def Dev.vecsOnly (d e : Dev) : Prop := ∀ n, ∃ l, e.fn n = { d.fn n with vecs := l }

theorem Dev.vecsOnly_of_funcs {d e : Dev} (h : e.funcs = d.funcs) : d.vecsOnly e := fun n => ⟨_, Dev.fn_congr h n⟩

theorem Dev.vecsOnly.trans {c d e : Dev} (h : c.vecsOnly d) (h' : d.vecsOnly e) : c.vecsOnly e := by
  intro n
  obtain ⟨l, hl⟩ := h n
  obtain ⟨l', hl'⟩ := h' n
  exact ⟨l', by rw [hl', hl]⟩

/-! ## Registers below the mailboxes -/

/-- Every key of the mailboxes' window, and of the windows behind it, is at least this. -/
def mbxBase : Nat := 144 * 65536 * 33554432 * 32

theorem mbxBase_le (f : Field) (i a : Nat) (h : 144 ≤ f.unit) : ¬ f.key i a < mbxBase := by
  simp only [Field.key, mbxBase]
  omega

theorem lt_mbxBase (f : Field) (i : Nat) (hunit : f.unit < 144) (hi : i < 65536) (hoff : f.off < 33554432) (hlsb : f.lsb < 32) :
    f.key i 0 < mbxBase := by
  simp only [Field.key, mbxBase]
  omega

/-- An operation on the mailboxes: it leaves the registers below theirs, and of the functions changes only what their vectors hold. -/
structure Dev.mailOnly (d e : Dev) : Prop where
  regs : d.regsSame (· < mbxBase) e
  fns : d.vecsOnly e
  xfers : e.stp.xfers = d.stp.xfers

theorem Dev.mailOnly_refl (d : Dev) : d.mailOnly d := ⟨d.regsSame_refl, Dev.vecsOnly_of_funcs rfl, rfl⟩

theorem Dev.mailOnly.trans {c d e : Dev} (h : c.mailOnly d) (h' : d.mailOnly e) : c.mailOnly e :=
  ⟨h.regs.trans h'.regs, h.fns.trans h'.fns, h'.xfers.trans h.xfers⟩

theorem Dev.mailOnly.wr {d e : Dev} (h : d.mailOnly e) (f : Field) (v i a : Nat) (hf : 144 ≤ f.unit) : d.mailOnly (e.wr f v i a) :=
  ⟨h.regs.wr f v i a (mbxBase_le f i a hf), h.fns.trans (Dev.vecsOnly_of_funcs rfl), h.xfers⟩

theorem Dev.mailOnly.same {d e e' : Dev} (h : d.mailOnly e) (hregs : e'.regs = e.regs) (hfuncs : e'.funcs = e.funcs)
    (hxfers : e'.stp.xfers = e.stp.xfers) : d.mailOnly e' :=
  h.trans ⟨Dev.regsSame_of_regs hregs, Dev.vecsOnly_of_funcs hfuncs, hxfers⟩

theorem Dev.mailOnly_each {α : Type} {l : List α} {f : α → Dev → Dev} {d e : Dev} (h : d.mailOnly e) (hf : ∀ a e, d.mailOnly e → d.mailOnly (f a e)) :
    d.mailOnly (Dev.each l f e) :=
  Dev.each_induct (fun x => d.mailOnly x) l f e h hf

theorem Dev.mailOnly.sendVector {d e : Dev} (h : d.mailOnly e) (fn v : Nat) : d.mailOnly (e.sendVector fn v) := by
  obtain ⟨g, l, o, hsend⟩ := e.sendVector_changes fn v
  refine h.trans ⟨Dev.regsSame_of_regs (by rw [hsend]), e.sendVector_fn fn v, by rw [hsend]⟩

theorem Dev.mailOnly.onChan {d e : Dev} (h : d.mailOnly e) (c : Nat) (f : Chan → Chan) : d.mailOnly (e.onChan c f) := h.same rfl rfl rfl

theorem Dev.mailOnly.setFull {d e : Dev} (h : d.mailOnly e) (c : Nat) (full : Bool) : d.mailOnly (e.setFull c full) :=
  (h.wr _ _ _ _ (by decide)).wr _ _ _ _ (by decide)

theorem Dev.mailOnly.acknowledge {d e : Dev} (h : d.mailOnly e) (c code seq : Nat) : d.mailOnly (e.acknowledge c code seq) := by
  unfold Dev.acknowledge
  extract_lets a x
  have hx : d.mailOnly x := ((h.wr _ _ _ _ (by decide)).wr _ _ _ _ (by decide)).wr _ _ _ _ (by decide)
  clear_value x
  split
  · split
    · split
      · exact hx.same rfl rfl rfl
      · exact hx
    · split
      · exact hx.sendVector _ _
      · exact hx
  · exact hx

theorem Dev.mailOnly.setView {d e : Dev} (h : d.mailOnly e) (c : Nat) (words : List Nat) (len seq : Nat) (redelivered : Bool) :
    d.mailOnly (e.setView c words len seq redelivered) :=
  (((Dev.mailOnly_each h (fun _ _ he => he.wr _ _ _ _ (by decide))).wr _ _ _ _ (by decide)).wr _ _ _ _ (by decide)).wr _ _ _ _ (by decide)

/-- The channels of a function are emptied (R404): nothing but mailboxes changes. -/
theorem Dev.mailOnly.resetChannels {d e : Dev} (h : d.mailOnly e) (fn : Nat) : d.mailOnly (e.resetChannels fn) := by
  unfold Dev.resetChannels
  refine Dev.mailOnly_each (Dev.mailOnly_each h (fun c x hx => ?_)) (fun c x hx => ?_)
  · dsimp only
    refine Dev.mailOnly.wr (Dev.mailOnly.wr (Dev.mailOnly.wr (Dev.mailOnly_each hx (fun n y hy => ?_)) _ _ _ _ (by decide)) _ _ _ _
      (by decide)) _ _ _ _ (by decide)
    exact hy.wr _ _ _ _ (by decide)
  · dsimp only
    refine Dev.mailOnly.wr (Dev.mailOnly.wr (Dev.mailOnly.onChan (Dev.mailOnly.setView ?_ _ _ _ _ _) _ _) _ _ _ _ (by decide)) _ _ _ _ (by decide)
    split
    · exact ((hx.onChan _ _).setFull _ _).acknowledge _ _ _
    · exact hx

/-! ## Channels of the DMA engines -/

theorem Dev.dmaChannelsOf_congr {d e : Dev} (h : d.regsSame (· < mbxBase) e) (fn : Nat) : e.dmaChannelsOf fn = d.dmaChannelsOf fn := by
  unfold Dev.dmaChannelsOf
  refine List.filter_congr (fun c hc => ?_)
  have hlt : c < 65536 := (List.mem_range.1 hc).trans (by decide)
  have howner : e.dmaOwner c = d.dmaOwner c := h.rd (lt_mbxBase R.DMA_STATUS_owner c (by decide) hlt (by decide) (by decide))
  have hstate : e.dmaState c = d.dmaState c := h.rd (lt_mbxBase R.DMA_STATUS_state c (by decide) hlt (by decide) (by decide))
  rw [Dev.dmaFn, Dev.dmaFn, howner, hstate, h.rd (lt_mbxBase R.DMA_FUNC_function c (by decide) hlt (by decide) (by decide))]

/-- The registers of the DMA engines stand as they were. -/
theorem Dev.dmaChannelsOf_congr_rd {d e : Dev} (h : ∀ f : Field, f.unit = 0x61 → ∀ c, c < 64 → e.rd f c = d.rd f c) (fn : Nat) :
    e.dmaChannelsOf fn = d.dmaChannelsOf fn := by
  unfold Dev.dmaChannelsOf
  refine List.filter_congr (fun c hc => ?_)
  have hlt := List.mem_range.1 hc
  have howner : e.dmaOwner c = d.dmaOwner c := h R.DMA_STATUS_owner rfl c hlt
  have hstate : e.dmaState c = d.dmaState c := h R.DMA_STATUS_state rfl c hlt
  rw [Dev.dmaFn, Dev.dmaFn, howner, hstate, h R.DMA_FUNC_function rfl c hlt]

end Sys2Proof.Machine
end

section
/-!
Resets of functions (R125-R128).
-/

namespace Sys2Proof.Machine

/-! ## Functions that hold nothing -/

/-- Function `fn` holds nothing that the start of its reset takes back. -/
structure Dev.idleFn (d : Dev) (fn : Nat) : Prop where
  rings : d.ringsOf fn = []
  reads : d.readsOf fn = []
  dma : d.dmaChannelsOf fn = []
  nvme : d.nvmes.has fn = false
  items : d.items = {}
  xfers : d.stp.xfers = []

theorem Dev.holdsNothing.idleFn {d : Dev} {fn : Nat} (h : d.holdsNothing fn) : d.idleFn fn := by
  obtain ⟨-, hrings, hreads, hdma, hnvme, hitems, -, -, hxfers, -, -⟩ := h
  exact ⟨hrings, hreads, hdma, hnvme, hitems, hxfers⟩

theorem Dev.ringsOf_congr {d e : Dev} (h : e.rings = d.rings) (fn : Nat) : e.ringsOf fn = d.ringsOf fn := by rw [Dev.ringsOf, Dev.ringsOf, h]

theorem Dev.turnSwitched_none {d : Dev} (fn : Nat) (h : d.items = {}) : d.turnSwitched fn = d := by
  unfold Dev.turnSwitched
  dsimp only
  rw [h]
  rfl

theorem Dev.squashStale_none {d : Dev} (fn : Nat) (h : d.items = {}) : d.squashStale fn = d := by
  unfold Dev.squashStale
  rw [h]
  rfl

theorem Dev.stpFnReset_none {d : Dev} (fn : Nat) (h : d.stp.xfers = []) : d.stpFnReset fn = d := by
  unfold Dev.stpFnReset Dev.retryMatches
  rw [h, List.filter_nil]
  show Dev.each (List.filter _ d.stp.xfers) Dev.tryMatch d = d
  rw [h]
  rfl

theorem Dev.dmaOwnerReset_none {d : Dev} {fn : Nat} (h : d.dmaChannelsOf fn = []) : d.dmaOwnerReset fn = d := by
  unfold Dev.dmaOwnerReset
  rw [h]
  rfl

/-- What the start of a reset makes of the function itself. -/
def Func.inReset (kind : FnReset) (f : Func) : Func :=
  { f with
    gen := (f.gen + 1) % 65536
    reset := kind
    outbox := []
    vecs := if kind = .function then f.vecs else f.vecs.mapVals (fun _ v => { v with pending := false }) }

/-- The squash of a function begins: its drain and jobs are dropped, with its posted writes and its translations. -/
def Dev.squashBegun (fn : Nat) (kind : FnReset) (d : Dev) : Dev :=
  (({ d.onFn fn (Func.inReset kind) with drains := d.drains.erase fn }.dropJobs fn kind).onLink (d.linkOf fn) (fun l =>
    { l with posted := l.posted.filter (fun p => p.fn != fn) })).dropTranslations fn

/-- `e` stands at the start of the reset of `fn`, whose squash has reached no ring, item or channel. -/
def Dev.squashStarts (d : Dev) (fn : Nat) (kind : FnReset) (e : Dev) : Prop :=
  e.funcs = (d.onFn fn (Func.inReset kind)).funcs ∧ e.epilogues = d.epilogues ∧ e.boot = d.boot ∧ e.regs = d.regs ∧
    e.items = d.items ∧ e.rings = d.rings ∧ e.nvmes = d.nvmes ∧ e.stp = d.stp ∧ e.chans = d.chans ∧ e.jobs = (d.dropJobs fn kind).jobs

theorem Dev.squashStarts.onLink {d e : Dev} {fn : Nat} {kind : FnReset} (h : d.squashStarts fn kind e) (l : Nat) (f : Link → Link) :
    d.squashStarts fn kind (e.onLink l f) := h

theorem Dev.squashStarts_begun (d : Dev) (fn : Nat) (kind : FnReset) : d.squashStarts fn kind (d.squashBegun fn kind) := by
  have hstart : d.squashStarts fn kind ({ d.onFn fn (Func.inReset kind) with drains := d.drains.erase fn }.dropJobs fn kind) :=
    ⟨rfl, rfl, rfl, rfl, rfl, rfl, rfl, rfl, rfl, rfl⟩
  exact (hstart.onLink _ _).onLink _ _

/-- The start of a reset of a function that holds nothing only empties its channels. -/
theorem Dev.beginReset_idle {d : Dev} {fn : Nat} (kind : FnReset) (h : d.idleFn fn) :
    ∃ e : Dev, d.beginReset fn kind = e.resetChannels fn ∧ e.funcs = (d.onFn fn (Func.inReset kind)).funcs ∧ e.epilogues = d.epilogues ∧
      e.boot = d.boot ∧ e.chans = d.chans ∧ e.jobs = (d.dropJobs fn kind).jobs := by
  obtain ⟨hrings, hreads, hdma, hnvme, hitems, hxfers⟩ := h
  unfold Dev.beginReset
  extract_lets link lost hungry d₁ d₂ d₃ d₄ d₅ d₆ rings d₇ d₈ d₉ stalled
  have hlost : lost = [] := by
    show (d.readsOf fn).map Read.why = []
    rw [hreads]
    rfl
  have hhungry : hungry = [] := by
    show (d.items.filter _).keys = []
    rw [hitems]
    rfl
  have hd₃ : d.squashStarts fn kind d₃ := d.squashStarts_begun fn kind
  have hd₄ : d.squashStarts fn kind d₄ :=
    iteInduction (motive := d.squashStarts fn kind) (fun _ => hd₃.onLink _ _) (fun _ => hd₃.onLink _ _)
  clear_value d₄
  obtain ⟨hfuncs, hepilogues, hboot, hregs₄, hitems₄, hrings₄, hnvmes₄, hstp₄, hchans, hjobs⟩ := hd₄
  have hd₅ : d₅ = d₄ := by
    show Dev.each (lost.filter _) Dev.loseRead d₄ = d₄
    rw [hlost]
    rfl
  have hmail : d₄.mailOnly (d₄.resetChannels fn) := d₄.mailOnly_refl.resetChannels fn
  have hbesides := Dev.resetChannels_besides fn d₄ (List.Subset.refl _)
  have hd₆ : d₆ = d₄.resetChannels fn := by
    have hchannels : (d₄.resetChannels fn).dmaChannelsOf fn = [] := by
      rw [Dev.dmaChannelsOf_congr hmail.regs, Dev.dmaChannelsOf_congr (Dev.regsSame_of_regs hregs₄), hdma]
    show ((d₅.resetChannels fn).dmaOwnerReset fn).stpFnReset fn = _
    rw [hd₅, Dev.dmaOwnerReset_none hchannels, Dev.stpFnReset_none fn (by rw [hmail.xfers, hstp₄, hxfers])]
  clear_value d₆
  have hitems₆ : d₆.items = {} := by rw [hd₆, Dev.items_of_besides hbesides, hitems₄, hitems]
  have hrings₆ : rings = [] := by
    show d₆.ringsOf fn = []
    rw [hd₆, Dev.ringsOf_congr (Dev.rings_of_besides hbesides), Dev.ringsOf_congr hrings₄, hrings]
  have hd₈ : d₈ = d₆ := by
    show (Dev.each rings Dev.emptyRing (Dev.each rings Dev.dropException d₆)).emptyNvme fn = d₆
    rw [hrings₆]
    show d₆.emptyNvme fn = d₆
    rw [Dev.emptyNvme, hd₆, Dev.nvmes_of_besides hbesides, hnvmes₄, hnvme]
    rfl
  have hd₉ : d₉ = d₆ := by
    show (d₈.turnSwitched fn).squashStale fn = d₆
    rw [hd₈, Dev.turnSwitched_none fn hitems₆, Dev.squashStale_none fn hitems₆]
  have hstalled : stalled = [] := by
    show (d₉.items.filter _).keys = []
    rw [hd₉, hitems₆]
    rfl
  refine ⟨d₄, ?_, hfuncs, hepilogues, hboot, hchans, hjobs⟩
  rw [hhungry, hstalled, hd₉, hd₆, List.append_nil, Dev.each, List.foldl_nil]

/-- No ring of a function that has none works. -/
theorem Dev.openEpilogue_idle {d : Dev} {fn : Nat} (cause : Nat) (hreset : (d.fn fn).reset = .none) (hrings : d.ringsOf fn = []) :
    d.openEpilogue fn cause false = { d with epilogues := d.epilogues.set fn { cause := cause, oldGen := (d.fn fn).gen } } := by
  have hsize : (d.rings.filter (fun r g => g.fn == fn && d.ringWorks r g)).size = 0 := by
    have hnone := List.filter_eq_nil_iff.1 (List.map_eq_nil_iff.1 hrings)
    refine List.length_eq_zero_iff.2 (List.filter_eq_nil_iff.2 (fun e he => ?_))
    have hfn : ¬ (e.2.fn == fn) = true := hnone e he
    simp only [Bool.not_eq_true] at hfn
    simp only [hfn, Bool.false_and, Bool.false_eq_true, not_false_eq_true]
  unfold Dev.openEpilogue
  rw [if_pos ⟨hreset, rfl⟩, hsize]

/-- The reset of a function that holds nothing has begun. -/
def Dev.begun (d e : Dev) (fn cause : Nat) (kind : FnReset) : Prop :=
  (e.fn fn).reset = kind ∧ (e.fn fn).gen = ((d.fn fn).gen + 1) % 65536 ∧ e.epilogues.get? fn = some { cause := cause, oldGen := (d.fn fn).gen }

theorem Dev.resetFn_idle {d : Dev} {fn cause : Nat} (kind : FnReset) (hpresent : d.hasFn fn = true) (h : d.idleFn fn)
    (hreset : (d.fn fn).reset = .none) :
    d.begun (d.resetFn fn cause kind) fn cause kind ∧ (d.resetFn fn cause kind).boot = d.boot ∧
      (∀ n, ∃ l, (d.resetFn fn cause kind).fn n = { (d.onFn fn (Func.inReset kind)).fn n with vecs := l }) := by
  have hopen := Dev.openEpilogue_idle cause hreset h.rings
  have hidle : (d.openEpilogue fn cause false).idleFn fn := by
    rw [hopen]
    exact ⟨h.rings, h.reads, h.dma, h.nvme, h.items, h.xfers⟩
  obtain ⟨e, he, hfuncs, hepilogues, hboot, -, -⟩ := Dev.beginReset_idle kind hidle
  have hbesides := Dev.resetChannels_besides fn e (List.Subset.refl _)
  have hall (n : Nat) : ∃ l, (d.resetFn fn cause kind).fn n = { (d.onFn fn (Func.inReset kind)).fn n with vecs := l } := by
    obtain ⟨l, hl⟩ := (e.mailOnly_refl.resetChannels fn).fns n
    refine ⟨l, ?_⟩
    rw [Dev.resetFn, if_pos hpresent, he, hl, Dev.fn_congr hfuncs, hopen]
    rfl
  refine ⟨?_, ?_, hall⟩
  · obtain ⟨l, hl⟩ := hall fn
    rw [Dev.fn_onFn_self] at hl
    refine ⟨(congrArg Func.reset hl :), (congrArg Func.gen hl :), ?_⟩
    rw [Dev.resetFn, if_pos hpresent, he, Dev.epilogues_of_besides hbesides, hepilogues, hopen]
    exact NMap.get?_set_self ..
  · rw [Dev.resetFn, if_pos hpresent, he, Dev.boot_of_besides hbesides, hboot, hopen]

/-! ## FLR and link resets of functions -/

theorem Dev.vfsPresent_congr {d e : Dev} (hboot : e.boot = d.boot) {pf : Nat} (h : ∀ n, (e.fn n).present = (d.fn n).present) :
    e.vfsPresent pf = d.vfsPresent pf := by
  unfold Dev.vfsPresent
  rw [Dev.vfsOf_congr hboot]
  exact List.filter_congr (fun n _ => h n)

theorem exec_initiateFlr {fn : Nat} (s : State) (h : s.dev.phase = .running) (hvfs : s.dev.vfsPresent fn = []) (hquiet : s.dev.quiet fn)
    (hreset : (s.dev.fn fn).reset = .none) : ∃ t, exec (.initiateFlr fn) s = .next t ∧ resetBegun fn 1 .flr s t := by
  obtain ⟨hnothing, -, -⟩ := hquiet
  have hpresent := hnothing.1
  obtain ⟨hbegun, hboot, hall⟩ := Dev.resetFn_idle (cause := 1) .flr hpresent hnothing.idleFn hreset
  refine ⟨_, (State.onRun_running _ h : execInitiateFlr fn s = _), ?_⟩
  have hflr : s.dev.flr fn = s.dev.resetFn fn 1 .flr ∨
      s.dev.flr fn = (s.dev.resetFn fn 1 .flr).onFn fn (fun f => { f with vfEnable := false, numVfs := 0 }) := by
    unfold Dev.flr
    simp only [hpresent, hreset, Bool.not_true, Bool.or_self, Bool.false_eq_true, if_false,
      show (FnReset.none == FnReset.flr) = false from rfl, show (FnReset.none == FnReset.link) = false from rfl]
    split
    · right
      have hsame (n : Nat) : ((s.dev.resetFn fn 1 .flr).fn n).present = (s.dev.fn n).present := by
        obtain ⟨l, hl⟩ := hall n
        rw [hl]
        by_cases hn : n = fn
        · subst hn
          rw [Dev.fn_onFn_self]
          rfl
        · rw [Dev.fn_onFn_ne _ _ hn]
      rw [Dev.vfsPresent_congr hboot hsame, hvfs]
      rfl
    · exact .inl rfl
  obtain ⟨hkind, hgen, hepilogue⟩ := hbegun
  rcases hflr with hflr | hflr
  · rw [hflr]
    exact ⟨hkind, hgen, hepilogue⟩
  · rw [hflr]
    have hfn := (s.dev.resetFn fn 1 .flr).fn_onFn_self fn (fun f => { f with vfEnable := false, numVfs := 0 })
    exact ⟨(congrArg Func.reset hfn).trans hkind, (congrArg Func.gen hfn).trans hgen, hepilogue⟩

/-- A link reset of the one function that a link has. -/
theorem Dev.resetFns_single {d : Dev} {link fn : Nat} (hfns : d.fnsOf link = [fn]) :
    d.resetFns link = (d.resetFn fn (if (d.link link).reset = .fundamental then 4 else 3) .link).onFn fn
      (fun f => { f with vfEnable := false, numVfs := 0 }) := by
  unfold Dev.resetFns
  dsimp only
  rw [hfns]
  rfl

/-- Leaving its state keeps what the functions of a link hold. -/
theorem Dev.linkLeaves_idleFn {d : Dev} {fn link state : Nat} (h : d.idleFn fn) (hlink : link < 65536) :
    (d.linkLeaves link state).idleFn fn := by
  have hbesides := Dev.linkLeaves_besides link state d (List.Subset.refl _)
  obtain ⟨hrings, hreads, hdma, hnvme, hitems, hxfers⟩ := h
  refine ⟨(Dev.ringsOf_congr (Dev.rings_of_besides hbesides) fn).trans hrings, ?_, ?_, by rw [Dev.nvmes_of_besides hbesides, hnvme],
    (Dev.items_of_besides hbesides).trans hitems, by rw [Dev.stp_of_besides hbesides, hxfers]⟩
  · rw [← hreads, Dev.readsOf, Dev.readsOf, Dev.linkOf_congr (Dev.boot_of_besides hbesides), Dev.link_congr (Dev.links_of_besides hbesides)]
  · rw [← hdma]
    refine Dev.dmaChannelsOf_congr_rd (fun f hunit c hc => ?_) fn
    have hkey (g : Field) (hg : g.unit = 0x10) (hoff : g.off < 33554432) (hlsb : g.lsb < 32) : f.key c 0 ≠ g.key link 0 := by
      simp only [Field.key, hunit, hg]
      omega
    unfold Dev.linkLeaves
    dsimp only
    split
    · rw [Dev.rd_cause_ne _ _ _ _ _ _ _ (hkey _ rfl (by decide) (by decide)), Dev.rd_wr_ne _ _ _ _ _ _ _ _ (hkey _ rfl (by decide) (by decide)),
        Dev.rd_wr_ne _ _ _ _ _ _ _ _ (hkey _ rfl (by decide) (by decide))]
    · rw [Dev.rd_wr_ne _ _ _ _ _ _ _ _ (hkey _ rfl (by decide) (by decide)), Dev.rd_wr_ne _ _ _ _ _ _ _ _ (hkey _ rfl (by decide) (by decide))]

theorem Dev.linkSeized_idleFn {d : Dev} {fn link code : Nat} {kind : LinkReset} (h : d.idleFn fn) (hlink : link < 65536) :
    (d.linkSeized link code kind).idleFn fn := by
  obtain ⟨hrings, hreads, hdma, hnvme, hitems, hxfers⟩ := h
  refine ⟨hrings, ?_, ?_, hnvme, hitems, hxfers⟩
  · have hsame : ((d.linkSeized link code kind).link (d.linkOf fn)).reads = (d.link (d.linkOf fn)).reads ∧
        ((d.linkSeized link code kind).link (d.linkOf fn)).queue = (d.link (d.linkOf fn)).queue ∧
        ((d.linkSeized link code kind).link (d.linkOf fn)).parked = (d.link (d.linkOf fn)).parked := by
      have hlinks : (d.linkSeized link code kind).link (d.linkOf fn) = (d.onLink link (fun l =>
        { l with reset := kind, training := false, ready := false, ideKeys := none, commit := none, atc := [] })).link (d.linkOf fn) := rfl
      rw [hlinks]
      by_cases hn : d.linkOf fn = link
      · rw [hn, Dev.link_onLink_self]
        exact ⟨rfl, rfl, rfl⟩
      · rw [Dev.link_onLink_ne _ _ hn]
        exact ⟨rfl, rfl, rfl⟩
    obtain ⟨hr, hq, hp⟩ := hsame
    rw [← hreads, Dev.readsOf, Dev.readsOf, show (d.linkSeized link code kind).linkOf fn = d.linkOf fn from Dev.linkOf_congr rfl fn]
    rw [hr, hq, hp]
  · rw [← hdma]
    refine Dev.dmaChannelsOf_congr_rd (fun f hunit c hc => ?_) fn
    have hkey (g : Field) (hg : g.unit = 0x10) (hoff : g.off < 33554432) (hlsb : g.lsb < 32) : f.key c 0 ≠ g.key link 0 := by
      simp only [Field.key, hunit, hg]
      omega
    refine (Dev.rd_wr_ne _ _ _ _ _ _ _ _ (hkey _ rfl (by decide) (by decide))).trans ?_
    refine (Dev.rd_wr_ne _ _ _ _ _ _ _ _ (hkey _ rfl (by decide) (by decide))).trans ?_
    exact Dev.rd_wr_ne _ _ _ _ _ _ _ _ (hkey _ rfl (by decide) (by decide))

theorem exec_perstNAssert_one {fn : Nat} (s : State) (h : s.dev.phase = .running) (hquiet : s.dev.quiet fn)
    (hreset : (s.dev.fn fn).reset = .none) (hfns : s.dev.fnsOf (s.dev.linkOf fn) = [fn]) (hformed : s.dev.formed (s.dev.linkOf fn) = true)
    (hlink : (s.dev.link (s.dev.linkOf fn)).reset = .none) (hperst : s.dev.on R.PCX_LINK_STATUS_perst (s.dev.linkOf fn) = false) :
    ∃ t, exec (.perstNAssert (s.dev.linkOf fn)) s = .next t ∧ resetBegun fn 4 .link s t := by
  obtain ⟨hnothing, -, -⟩ := hquiet
  generalize s.dev.linkOf fn = link at hfns hformed hlink hperst ⊢
  have hlt : link < 65536 := by
    simp only [Dev.formed, Bool.and_eq_true, decide_eq_true_eq] at hformed
    refine hformed.1.trans_le (le_trans ?_ (by decide : 64 ≤ 65536))
    cases s.dev.die.variant <;> decide
  have hbesides := Dev.linkLeaves_besides link 1 s.dev (List.Subset.refl _)
  have hfn (n : Nat) : ((s.dev.linkLeaves link 1).linkSeized link 1 .fundamental).fn n = s.dev.fn n := Dev.fn_congr (Dev.funcs_of_besides hbesides) n
  have hidle := Dev.linkSeized_idleFn (code := 1) (kind := .fundamental) (Dev.linkLeaves_idleFn (state := 1) hnothing.idleFn hlt) hlt
  have hfns' := (Dev.linkSeized_fnsOf link 1 .fundamental (s.dev.linkLeaves link 1) link).trans ((Dev.linkLeaves_fnsOf link 1 s.dev link).trans hfns)
  have hkind : (((s.dev.linkLeaves link 1).linkSeized link 1 .fundamental).link link).reset = .fundamental :=
    congrArg Link.reset ((s.dev.linkLeaves link 1).linkSeized_facts link .fundamental (code := 1) (by decide)).2.2.2
  have hred : s.dev.linkReset link 1 .fundamental 1 = _ := Dev.linkReset_eq 1 .fundamental 1 h hformed hlink
  generalize (s.dev.linkLeaves link 1).linkSeized link 1 .fundamental = e at *
  obtain ⟨⟨hk, hg, hep⟩, -, -⟩ := Dev.resetFn_idle (cause := 4) .link (show (e.fn fn).present = true by rw [hfn]; exact hnothing.1) hidle
    ((congrArg Func.reset (hfn fn)).trans hreset)
  have hassert : s.dev.perstAssert link =
      ((e.resetFn fn 4 .link).onFn fn (fun f => { f with vfEnable := false, numVfs := 0 })).wr R.PCX_LINK_STATUS_perst 1 link := by
    simp only [Dev.perstAssert, hformed, hperst, Bool.not_true, Bool.or_self, Bool.false_eq_true, if_false, hred, Dev.resetFns_single hfns', hkind,
      if_true]
  refine ⟨_, (State.onLinks_answering _ (.inl h) : execPerstNAssert link s = _), ?_⟩
  rw [hassert]
  have hself := (e.resetFn fn 4 .link).fn_onFn_self fn (fun f => { f with vfEnable := false, numVfs := 0 })
  refine ⟨(congrArg Func.reset hself).trans hk, (congrArg Func.gen hself).trans (hg.trans (by rw [hfn])), hep.trans (by rw [hfn])⟩

end Sys2Proof.Machine
end

section
/-!
Bus Master Enable (R127).
-/

namespace Sys2Proof.Machine

/-! ## Bus Master Enable -/

theorem Dev.dmaChannelsOf_regs {d e : Dev} (h : e.regs = d.regs) (fn : Nat) : e.dmaChannelsOf fn = d.dmaChannelsOf fn :=
  Dev.dmaChannelsOf_congr (Dev.regsSame_of_regs h) fn

theorem Dev.haltFn_idle {d : Dev} {fn : Nat} (h : d.idleFn fn) : d.haltFn fn = d.killReads fn false := by
  obtain ⟨hrings, hreads, hdma, -, -, -⟩ := h
  have hlose : d.loseReads fn = d.killReads fn false := by
    rw [Dev.loseReads, hreads]
    rfl
  have hrings' : (d.killReads fn false).ringsOf fn = [] := hrings
  have hdma' : (d.killReads fn false).dmaChannelsOf fn = [] := (Dev.dmaChannelsOf_regs rfl fn).trans hdma
  unfold Dev.haltFn
  dsimp only
  rw [hlose, hrings', List.filter_nil]
  show (d.killReads fn false).dmaHaltAll fn = _
  rw [Dev.dmaHaltAll, hdma']
  rfl

theorem Dev.onFn_idleFn {d : Dev} {fn : Nat} (n : Nat) (f : Func → Func) (h : d.idleFn fn) : (d.onFn n f).idleFn fn :=
  ⟨h.rings, h.reads, (Dev.dmaChannelsOf_regs rfl fn).trans h.dma, h.nvme, h.items, h.xfers⟩

theorem exec_busMasterEnableClear {fn : Nat} (s : State) (h : s.dev.phase = .running) (hquiet : s.dev.quiet fn)
    (hreset : (s.dev.fn fn).reset = .none) (hbus : (s.dev.fn fn).busMaster = true) :
    ∃ t, exec (.busMasterEnableClear fn) s = .next t ∧ t.dev.fn fn = { s.dev.fn fn with busMaster := false } ∧
      (∀ g, g ≠ fn → t.dev.fn g = s.dev.fn g) ∧ t.dev.regs = s.dev.regs ∧ t.dev.out = s.dev.out := by
  obtain ⟨hnothing, -, -⟩ := hquiet
  have hclear : s.dev.bmeClear fn = (s.dev.onFn fn (fun f => { f with busMaster := false })).killReads fn false := by
    simp only [Dev.bmeClear, hnothing.1, hbus, hreset, Bool.not_true, Bool.or_self,
      show (FnReset.none == FnReset.flr) = false from rfl, show (FnReset.none == FnReset.link) = false from rfl, Bool.false_eq_true, if_false]
    exact Dev.haltFn_idle (Dev.onFn_idleFn fn _ hnothing.idleFn)
  refine ⟨_, (State.onRun_running _ h : execBusMasterEnableClear fn s = _), ?_⟩
  rw [hclear]
  exact ⟨s.dev.fn_onFn_self fn _, fun g hg => s.dev.fn_onFn_ne _ hg, rfl, rfl⟩

theorem NMap.keys_filter_empty {α : Type} (p : Nat → α → Bool) : (({} : NMap α).filter p).keys = [] := rfl

theorem NMap.vals_empty {α : Type} : ({} : NMap α).vals = [] := rfl

theorem Dev.dmaRunAll_idle {d : Dev} {fn : Nat} (h : d.dmaChannelsOf fn = []) : d.dmaRunAll fn = d := by
  unfold Dev.dmaRunAll
  rw [h]
  rfl

/-- A function that holds nothing has nothing that waits to go on. -/
theorem Dev.resumeFn_idle {d : Dev} {fn : Nat} (h : d.idleFn fn) (hposted : d.postedOf fn = []) (hqps : d.qps = {}) (hvecs : (d.fn fn).vecs = {}) :
    d.resumeFn fn = d := by
  obtain ⟨hrings, -, hdma, hnvme, hitems, -⟩ := h
  have hsend : d.sendPosted fn = d := by
    rw [Dev.sendPosted, hposted]
    rfl
  unfold Dev.resumeFn
  simp only [hsend, hrings, Dev.each, List.foldl_nil, hitems, NMap.keys_filter_empty, hqps, hnvme, Bool.false_eq_true, if_false, hvecs]
  exact Dev.dmaRunAll_idle hdma

theorem Dev.sendNext_none {d : Dev} {fn : Nat} (h : (d.fn fn).outbox = []) : d.sendNext fn = d := by
  rw [Dev.sendNext, h]

theorem exec_busMasterEnableSet {fn : Nat} (s : State) (h : s.dev.phase = .running) (hquiet : s.dev.quiet fn)
    (hreset : (s.dev.fn fn).reset = .none) (hbus : (s.dev.fn fn).busMaster = false) (hvecs : (s.dev.fn fn).vecs = {}) :
    ∃ t, exec (.busMasterEnableSet fn) s = .next t ∧ t.dev.fn fn = { s.dev.fn fn with busMaster := true } ∧
      (∀ g, g ≠ fn → t.dev.fn g = s.dev.fn g) ∧ t.dev.regs = s.dev.regs ∧ t.dev.out = s.dev.out := by
  obtain ⟨hnothing, -, hepilogue⟩ := hquiet
  have hidle := hnothing.idleFn
  obtain ⟨hpresent, -, -, -, -, -, hqps, -, -, houtbox, hposted⟩ := hnothing
  have hself := s.dev.fn_onFn_self fn (fun f => { f with busMaster := true })
  have hsend : (s.dev.onFn fn (fun f => { f with busMaster := true })).sendEpilogue fn = s.dev.onFn fn (fun f => { f with busMaster := true }) := by
    rw [Dev.sendEpilogue, show (s.dev.onFn fn _).epilogues.get? fn = none from hepilogue]
  have hresume : (s.dev.onFn fn (fun f => { f with busMaster := true })).resumeFn fn = s.dev.onFn fn (fun f => { f with busMaster := true }) :=
    Dev.resumeFn_idle (Dev.onFn_idleFn fn _ hidle) hposted hqps ((congrArg Func.vecs hself).trans hvecs)
  have hset : s.dev.bmeSet fn = s.dev.onFn fn (fun f => { f with busMaster := true }) := by
    simp only [Dev.bmeSet, hpresent, hbus, hreset, Bool.not_true, Bool.or_self,
      show (FnReset.none == FnReset.flr) = false from rfl, show (FnReset.none == FnReset.link) = false from rfl, Bool.false_eq_true, if_false,
      hsend, hresume]
    exact Dev.sendNext_none ((congrArg Func.outbox hself).trans houtbox)
  refine ⟨_, (State.onRun_running _ h : execBusMasterEnableSet fn s = _), ?_⟩
  rw [hset]
  exact ⟨hself, fun g hg => s.dev.fn_onFn_ne _ hg, rfl, rfl⟩

/-! ## The end of a reset -/

/-- The generation of the card apart, a release leaves the functions. -/
theorem Dev.releaseFn_fn (fn : Nat) (d : Dev) (n : Nat) : ∃ g, (d.releaseFn fn).fn n = { d.fn n with cardGen := g } := by
  have hchanged (e : Dev) : ∃ g, (e.vfCardChanged fn).fn n = { e.fn n with cardGen := g } := by
    unfold Dev.vfCardChanged
    split
    · exact ⟨_, rfl⟩
    · by_cases hn : n = fn
      · subst hn
        exact ⟨_, Dev.fn_onFn_self ..⟩
      · exact ⟨(e.fn n).cardGen, Dev.fn_onFn_ne _ _ hn⟩
  unfold Dev.releaseFn
  dsimp only
  split
  · exact ⟨_, rfl⟩
  · exact hchanged _

/-- The function as the end of an FLR leaves it. -/
def Func.afterFlr (f : Func) : Func :=
  { present := true, gen := f.gen, tenant := f.tenant, sourceCheck := f.sourceCheck, cardGen := f.cardGen, props := f.props, outbox := f.outbox }

theorem Dev.isS44_congr {d e : Dev} (h : e.boot = d.boot) (fn : Nat) : e.isS44 fn = d.isS44 fn := by
  rw [Dev.isS44, Dev.isS44, Dev.pf?_congr h, Dev.pfOf_congr h]

theorem Dev.startS44_native {d : Dev} {fn : Nat} (h : d.isS44 fn = false) : d.startS44 fn = d := by
  rw [Dev.startS44, h]
  rfl

theorem Dev.readyEpilogue_native {d : Dev} {fn : Nat} (h : d.isS44 fn = false) : ∃ m, d.readyEpilogue fn = { d with epilogues := m } := by
  unfold Dev.readyEpilogue
  dsimp only
  rw [h]
  split
  · exact ⟨_, rfl⟩
  · exact ⟨_, rfl⟩

/-- An FLR of a function that holds nothing ends with its squash. -/
theorem Dev.endReset_flr {d : Dev} {fn : Nat} (hreset : (d.fn fn).reset = .flr) (hitems : d.items = {})
    (hreads : (d.link (d.linkOf fn)).reads = {}) (hdma : d.dmaChannelsOf fn = []) (hvfs : d.vfsPresent fn = []) (hjobs : d.jobs = {})
    (hnative : d.isS44 fn = false) (houtbox : (d.fn fn).outbox = []) (hvf : fn < 16 ∨ (d.fn (d.pfOf fn)).vfEnable = true) :
    ∃ e : Dev, d.endReset fn = e.cause pcxCauses 3 (d.linkOf fn) ∧ e.links = d.links ∧ e.phase = d.phase ∧ e.boot = d.boot ∧
      ∃ g, e.fn fn = Func.afterFlr { d.fn fn with cardGen := g } := by
  have hquiet : d.resetQuiet fn = true := by
    simp only [Dev.resetQuiet, hitems, hreads, hdma, hvfs, hreset, NMap.vals_empty, List.all_nil, List.isEmpty_nil, Bool.or_true, Bool.and_self,
      show (FnReset.flr != FnReset.function) = true from rfl, Bool.true_or]
  have hsettle : d.settleOwed fn = d := by
    rw [Dev.settleOwed, if_pos (by rw [hreset]; decide)]
  have hgone : (decide (fn ≥ 16) && !(d.fn (d.pfOf fn)).vfEnable) = false := by
    rcases hvf with hpf | hon
    · rw [decide_eq_false (not_le.2 hpf), Bool.false_and]
    · rw [hon, Bool.not_true, Bool.and_false]
  unfold Dev.endReset
  extract_lets kind d₁ vf gone d₂ d₃ d₄ d₅ d₆ d₇ d₈
  have hd₁ : d₁ = d := Dev.squashStale_none fn hitems
  have hkind : kind = .flr := hreset
  have hgone' : gone = false := by
    show (decide (fn ≥ 16) && !(d₁.fn (d₁.pfOf fn)).vfEnable) = false
    rw [hd₁, hgone]
  have hd₂ : d₂ = d.releaseFn fn := by
    show (d₁.settleOwed fn).releaseFn fn = _
    rw [hd₁, hsettle]
  have hrelease := Dev.releaseFn_besides fn d (List.Subset.refl _)
  obtain ⟨g, hg⟩ := Dev.releaseFn_fn fn d fn
  have hd₃ : d₃ = d₂.onFn fn Func.afterFlr := if_neg (by rw [hkind]; decide)
  have hd₄ : ∃ t n, d₄ = { d₃ with tenants := t, sched := n } := by
    by_cases hv : fn ≥ 16
    · have h₄ : d₄ = d₃ := if_pos hv
      exact ⟨_, _, h₄⟩
    · have h₄ : d₄ = d₃.releaseTenants fn := (if_neg hv).trans (if_neg (by rw [hkind]; decide))
      exact ⟨_, _, h₄⟩
  clear_value d₄ d₃ d₂ d₁
  obtain ⟨t, n, hd₄⟩ := hd₄
  have hboot₄ : d₄.boot = d.boot := by rw [hd₄, hd₃, hd₂]; exact (Dev.boot_of_besides hrelease :)
  have hfn₄ : d₄.fn fn = Func.afterFlr { d.fn fn with cardGen := g } := by
    rw [hd₄, hd₃, hd₂]
    refine (Dev.fn_onFn_self ..).trans ?_
    rw [hg]
  have hfields : d₄.links = d.links ∧ d₄.phase = d.phase ∧ d₄.jobs = d.jobs := by
    rw [hd₄, hd₃, hd₂]
    exact ⟨(Dev.links_of_besides hrelease :), (Dev.phase_of_besides hrelease :), (Dev.jobs_of_besides hrelease :)⟩
  clear hd₄ hd₃ hd₂
  obtain ⟨hlinks₄, hphase₄, hjobs₄⟩ := hfields
  obtain ⟨m, hm⟩ := Dev.readyEpilogue_native (d := d₄) ((Dev.isS44_congr hboot₄ fn).trans hnative)
  have hd₅ : d₅ = { d₄ with epilogues := m } := hm
  have hbus : (d₅.fn fn).busMaster = false := by
    rw [hd₅]
    exact congrArg Func.busMaster hfn₄
  have hd₆ : d₆ = d₅ := if_neg (by
    rw [hbus, Bool.false_and]
    exact Bool.false_ne_true)
  have hd₇ : d₇ = d₅ := by
    show d₆.answerResets fn = d₅
    rw [hd₆, Dev.answerResets, show d₅.jobs = {} by rw [hd₅]; exact hjobs₄.trans hjobs]
    rfl
  have hlinkOf : d₇.linkOf fn = d.linkOf fn := Dev.linkOf_congr (by rw [hd₇, hd₅]; exact hboot₄) fn
  have hd₈ : d₈ = d₇.cause pcxCauses 3 (d.linkOf fn) := by
    rw [← hlinkOf]
    exact if_pos hkind
  have hfn₇ : d₇.fn fn = Func.afterFlr { d.fn fn with cardGen := g } := by rw [hd₇, hd₅]; exact hfn₄
  have hfields₇ : d₇.links = d.links ∧ d₇.phase = d.phase ∧ d₇.boot = d.boot := by
    rw [hd₇, hd₅]
    exact ⟨hlinks₄, hphase₄, hboot₄⟩
  clear_value d₇ d₈
  have hs44 : d₈.startS44 fn = d₈ := Dev.startS44_native (by
    rw [hd₈, Dev.isS44_congr (Dev.cause_boot ..), Dev.isS44_congr hfields₇.2.2, hnative])
  have hnext : d₈.sendNext fn = d₈ := Dev.sendNext_none (by
    rw [hd₈, Dev.fn_congr (Dev.cause_funcs ..), hfn₇]
    exact houtbox)
  have hquiet₁ : (!d₁.resetQuiet fn) = false := by rw [hd₁, hquiet]; rfl
  refine ⟨d₇, ?_, hfields₇.1, hfields₇.2.1, hfields₇.2.2, g, hfn₇⟩
  rw [if_neg (by rw [hkind]; decide), hquiet₁, if_neg Bool.false_ne_true, hgone', if_neg Bool.false_ne_true, hs44, hnext, hd₈]

theorem Dev.endLinkReset_none {d : Dev} {link : Nat} (h : (d.link link).reset = .none) : d.endLinkReset link = d := by
  unfold Dev.endLinkReset Dev.linkResetOver
  rw [h]
  simp only [bne_self_eq_false, Bool.false_and, Bool.and_false, Bool.false_eq_true, if_false]

theorem exec_resetSquashComplete {fn : Nat} (s : State) (h : s.dev.phase = .running) (hvfs : s.dev.vfsPresent fn = [])
    (hreset : (s.dev.fn fn).reset = .flr) (hitems : s.dev.items = {}) (hreads : (s.dev.link (s.dev.linkOf fn)).reads = {})
    (hdma : s.dev.dmaChannelsOf fn = []) (hjobs : s.dev.jobs = {}) (hnative : s.dev.isS44 fn = false) (houtbox : (s.dev.fn fn).outbox = [])
    (hvf : fn < 16 ∨ (s.dev.fn (s.dev.pfOf fn)).vfEnable = true) (hlink : (s.dev.link (s.dev.linkOf fn)).reset = .none) :
    ∃ t, exec (.resetSquashComplete fn) s = .next t ∧ (t.dev.fn fn).reset = .none ∧ (t.dev.fn fn).gen = (s.dev.fn fn).gen ∧
      (t.dev.fn fn).busMaster = false ∧ t.dev.hasFn fn = true ∧ t.dev.on (pcxCauses.bit 3) (s.dev.linkOf fn) = true := by
  obtain ⟨e, he, hlinks, -, -, g, hfn⟩ := Dev.endReset_flr hreset hitems hreads hdma hvfs hjobs hnative houtbox hvf
  have hend : (s.dev.endReset fn).endLinkReset (s.dev.linkOf fn) = e.cause pcxCauses 3 (s.dev.linkOf fn) := by
    rw [he]
    exact Dev.endLinkReset_none (by rw [Dev.link_congr (Dev.cause_links ..), Dev.link_congr hlinks, hlink])
  have hfn' := (Dev.fn_congr (Dev.cause_funcs e pcxCauses 3 (s.dev.linkOf fn)) fn).trans hfn
  refine ⟨_, (State.onRun_running _ h : execResetSquashComplete fn s = _), ?_⟩
  dsimp only
  rw [hend]
  exact ⟨(congrArg Func.reset hfn' :), (congrArg Func.gen hfn' :), (congrArg Func.busMaster hfn' :), (congrArg Func.present hfn' :),
    Dev.cause_on ..⟩

/-! ## VF Enable -/

/-- The generation of a card apart, the functions and the identity are the same. -/
def Dev.cardGenOnly (d e : Dev) : Prop := e.boot = d.boot ∧ ∀ n, ∃ g, e.fn n = { d.fn n with cardGen := g }

theorem Dev.cardGenOnly.trans {c d e : Dev} (h : c.cardGenOnly d) (h' : d.cardGenOnly e) : c.cardGenOnly e := by
  refine ⟨h'.1.trans h.1, fun n => ?_⟩
  obtain ⟨g, hg⟩ := h.2 n
  obtain ⟨g', hg'⟩ := h'.2 n
  exact ⟨g', by rw [hg', hg]⟩

theorem Dev.onFn_cardGenOnly (d : Dev) (fn : Nat) (f : Func → Nat) : d.cardGenOnly (d.onFn fn (fun x => { x with cardGen := f x })) := by
  refine ⟨rfl, fun n => ?_⟩
  by_cases hn : n = fn
  · subst hn
    exact ⟨_, Dev.fn_onFn_self ..⟩
  · exact ⟨(d.fn n).cardGen, Dev.fn_onFn_ne _ _ hn⟩

theorem Dev.startS44_cardGenOnly (fn : Nat) (d : Dev) : d.cardGenOnly (d.startS44 fn) := by
  unfold Dev.startS44
  split
  · unfold Dev.newGroup Dev.vfCardChanged
    dsimp only
    split
    · exact ⟨rfl, fun n => ⟨_, rfl⟩⟩
    · exact Dev.cardGenOnly.trans (d := { d with groups := _, sched := _ }) ⟨rfl, fun n => ⟨_, rfl⟩⟩ (Dev.onFn_cardGenOnly _ fn _)
  · exact ⟨rfl, fun n => ⟨_, rfl⟩⟩

end Sys2Proof.Machine
end

section
/-!
VF Enable (R421).
-/

namespace Sys2Proof.Machine

/-- A VF comes into being (R421). -/
def Dev.bornVf (pf v : Nat) (d : Dev) : Dev :=
  ((d.onFn v (fun f => { present := true, gen := f.gen, tenant := pf, cardGen := f.cardGen })).startS44 v).vfCardReadable v

theorem Dev.bornVf_fn (pf v : Nat) (d : Dev) (n : Nat) : ∃ g, (d.bornVf pf v).fn n =
    { (d.onFn v (fun f => { present := true, gen := f.gen, tenant := pf, cardGen := f.cardGen })).fn n with cardGen := g } :=
  ((Dev.startS44_cardGenOnly v _).trans (Dev.onFn_cardGenOnly _ v (fun f => max 2 f.cardGen))).2 n

/-- What stands of the functions while VFs come into being. -/
structure Dev.bearsVfs (pf : Nat) (d e : Dev) : Prop where
  keeps : ∀ n, d.hasFn n = true → e.hasFn n = true
  tenants : ∀ n, d.hasFn n = false → e.hasFn n = true → (e.fn n).tenant = pf
  parent : (e.fn pf).vfEnable = (d.fn pf).vfEnable ∧ (e.fn pf).numVfs = (d.fn pf).numVfs

theorem Dev.bearsVfs.bornVf {pf v : Nat} {d e : Dev} (h : d.bearsVfs pf e) (hv : v ≠ pf) : d.bearsVfs pf (e.bornVf pf v) := by
  have hself : ∃ g, (e.bornVf pf v).fn v = { present := true, gen := (e.fn v).gen, tenant := pf, cardGen := g } := by
    obtain ⟨g, hg⟩ := Dev.bornVf_fn pf v e v
    exact ⟨g, by rw [hg, Dev.fn_onFn_self]⟩
  have hne (n : Nat) (hn : n ≠ v) : ∃ g, (e.bornVf pf v).fn n = { e.fn n with cardGen := g } := by
    obtain ⟨g, hg⟩ := Dev.bornVf_fn pf v e n
    exact ⟨g, by rw [hg, Dev.fn_onFn_ne _ _ hn]⟩
  obtain ⟨hkeeps, htenants, henable, hnum⟩ := h
  obtain ⟨g, hg⟩ := hself
  refine ⟨fun n hn => ?_, fun n hnone hn => ?_, ?_⟩
  · by_cases hnv : n = v
    · subst hnv
      exact (congrArg Func.present hg :)
    · obtain ⟨g', hg'⟩ := hne n hnv
      exact (congrArg Func.present hg').trans (hkeeps n hn)
  · by_cases hnv : n = v
    · subst hnv
      exact (congrArg Func.tenant hg :)
    · obtain ⟨g', hg'⟩ := hne n hnv
      exact (congrArg Func.tenant hg').trans (htenants n hnone ((congrArg Func.present hg').symm.trans hn))
  · obtain ⟨g', hg'⟩ := hne pf (Ne.symm hv)
    exact ⟨(congrArg Func.vfEnable hg').trans henable, (congrArg Func.numVfs hg').trans hnum⟩

/-- VFs that come into being are there, and stay. -/
theorem Dev.bearsVfs_each {pf : Nat} {l : List Nat} {d e : Dev} (h : d.bearsVfs pf e) (hl : ∀ v ∈ l, v ≠ pf) :
    d.bearsVfs pf (Dev.each l (Dev.bornVf pf) e) ∧ (∀ n, e.hasFn n = true → (Dev.each l (Dev.bornVf pf) e).hasFn n = true) ∧
      ∀ v ∈ l, (Dev.each l (Dev.bornVf pf) e).hasFn v = true := by
  unfold Dev.each
  induction l generalizing e with
  | nil => exact ⟨h, fun _ hn => hn, fun v hv => absurd hv List.not_mem_nil⟩
  | cons w l ih =>
    have hw := hl w List.mem_cons_self
    have hborn : e.bearsVfs pf (e.bornVf pf w) :=
      Dev.bearsVfs.bornVf ⟨fun _ hn => hn, fun n hnone hn => absurd (hnone.symm.trans hn) (by decide), rfl, rfl⟩ hw
    obtain ⟨g, hg⟩ := Dev.bornVf_fn pf w e w
    have hthere : (e.bornVf pf w).hasFn w = true := by
      rw [Dev.hasFn, hg, Dev.fn_onFn_self]
    obtain ⟨hb, hkeep, hall⟩ := ih (h.bornVf hw) (fun v hv => hl v (List.mem_cons_of_mem w hv))
    rw [List.foldl_cons]
    refine ⟨hb, fun n hn => hkeep n (hborn.keeps n hn), fun v hv => ?_⟩
    rcases List.mem_cons.1 hv with rfl | hv
    · exact hkeep _ hthere
    · exact hall v hv

/-- A VF is no PF. -/
theorem Dev.ge_of_mem_vfsOf {d : Dev} {pf v : Nat} (h : v ∈ d.vfsOf pf) : 16 ≤ v := by
  unfold Dev.vfsOf at h
  obtain ⟨k, -, rfl⟩ := List.mem_map.1 h
  omega

theorem exec_vfEnableSet (pf n : Nat) (s : State) (h : s.dev.phase = .running) (hpf : pf < 16) (hrec : (s.dev.pf? pf).isSome = true)
    (hpresent : s.dev.hasFn pf = true) (hreset : (s.dev.fn pf).reset = .none) (henable : (s.dev.fn pf).vfEnable = false) :
    ∃ t, exec (.vfEnableSet pf n) s = .next t ∧ (t.dev.fn pf).vfEnable = true ∧ (t.dev.fn pf).numVfs = min n (s.dev.vfsOf pf).length ∧
      ∀ v ∈ (s.dev.vfsOf pf).take n, t.dev.hasFn v = true ∧ (s.dev.hasFn v = false → (t.dev.fn v).tenant = pf) := by
  have hset : s.dev.vfEnableSet pf n = Dev.each (((s.dev.vfsOf pf).take n).filter (fun v => !s.dev.hasFn v)) (Dev.bornVf pf)
      (s.dev.onFn pf (fun f => { f with vfEnable := true, numVfs := min n (s.dev.vfsOf pf).length })) := by
    have hnone : (s.dev.pf? pf).isNone = false := by rw [← Option.not_isSome, hrec]; rfl
    simp only [Dev.vfEnableSet, hnone, hpresent, henable, hreset, Bool.not_true, Bool.or_self,
      show (FnReset.none == FnReset.flr) = false from rfl, show (FnReset.none == FnReset.link) = false from rfl, Bool.false_eq_true, if_false]
    rfl
  generalize hd : s.dev.onFn pf (fun f => { f with vfEnable := true, numVfs := min n (s.dev.vfsOf pf).length }) = d at hset
  have hself : d.fn pf = { s.dev.fn pf with vfEnable := true, numVfs := min n (s.dev.vfsOf pf).length } := hd ▸ Dev.fn_onFn_self ..
  have hother (v : Nat) (hv : 16 ≤ v) : d.fn v = s.dev.fn v := hd ▸ Dev.fn_onFn_ne _ _ (by omega)
  have hge (v : Nat) (hv : v ∈ (s.dev.vfsOf pf).take n) : 16 ≤ v := Dev.ge_of_mem_vfsOf (List.mem_of_mem_take hv)
  obtain ⟨⟨hkeeps, htenants, hvfs, hnum⟩, -, hall⟩ :=
    Dev.bearsVfs_each (pf := pf) (l := ((s.dev.vfsOf pf).take n).filter (fun v => !s.dev.hasFn v)) (d := d) (e := d)
      ⟨fun _ hn => hn, fun n hnone hn => absurd (hnone.symm.trans hn) (by decide), rfl, rfl⟩
      (fun v hv => by have := hge v (List.mem_filter.1 hv).1; omega)
  refine ⟨_, (State.onRun_running _ h : execVfEnableSet pf n s = _), ?_⟩
  rw [hset]
  refine ⟨hvfs.trans (congrArg Func.vfEnable hself), hnum.trans (congrArg Func.numVfs hself), fun v hv => ?_⟩
  have hsame : d.hasFn v = s.dev.hasFn v := congrArg Func.present (hother v (hge v hv))
  have hthere : (Dev.each (((s.dev.vfsOf pf).take n).filter (fun v => !s.dev.hasFn v)) (Dev.bornVf pf) d).hasFn v = true := by
    by_cases hhas : s.dev.hasFn v = true
    · exact hkeeps v (hsame.trans hhas)
    · exact hall v (List.mem_filter.2 ⟨hv, by rw [Bool.eq_false_iff.2 hhas]; rfl⟩)
  exact ⟨hthere, fun hnone => htenants v (hsame.trans hnone) hthere⟩

theorem exec_vfEnableClear (pf v : Nat) (s : State) (h : s.dev.phase = .running) (hpf : pf < 16) (hreset : (s.dev.fn pf).reset = .none)
    (henable : (s.dev.fn pf).vfEnable = true) (hvfs : s.dev.vfsPresent pf = [v]) (hquiet : s.dev.quiet v) (hv : (s.dev.fn v).reset = .none) :
    ∃ t, exec (.vfEnableClear pf) s = .next t ∧ (t.dev.fn pf).vfEnable = false ∧ resetBegun v 1 .flr s t := by
  obtain ⟨hnothing, -, -⟩ := hquiet
  have hmem : v ∈ s.dev.vfsPresent pf := by
    rw [hvfs]
    exact List.mem_cons_self
  have hge : 16 ≤ v := Dev.ge_of_mem_vfsOf (List.mem_filter.1 hmem).1
  generalize hd : s.dev.onFn pf (fun f => { f with vfEnable := false, numVfs := 0 }) = d
  have hself : d.fn pf = { s.dev.fn pf with vfEnable := false, numVfs := 0 } := hd ▸ Dev.fn_onFn_self ..
  have hother (n : Nat) (hn : n ≠ pf) : d.fn n = s.dev.fn n := hd ▸ Dev.fn_onFn_ne _ _ hn
  have hpresent (n : Nat) : (d.fn n).present = (s.dev.fn n).present := by
    by_cases hn : n = pf
    · subst hn
      rw [hself]
    · rw [hother n hn]
  have hvf := hother v (by omega)
  have hboot : d.boot = s.dev.boot := hd ▸ rfl
  have hvfs' : d.vfsPresent pf = [v] := (Dev.vfsPresent_congr hboot hpresent).trans hvfs
  have hclear : s.dev.vfEnableClear pf = d.resetFn v 1 .flr := by
    unfold Dev.vfEnableClear
    simp only [henable, hreset, Bool.not_true, Bool.or_self, show (FnReset.none == FnReset.flr) = false from rfl,
      show (FnReset.none == FnReset.link) = false from rfl, Bool.false_eq_true, if_false]
    rw [hd, hvfs']
    show (if (d.fn v).reset = .flr then d else d.resetFn v 1 .flr) = _
    rw [if_neg (by rw [hvf, hv]; decide)]
  have hidle : d.idleFn v := hd ▸ Dev.onFn_idleFn pf _ hnothing.idleFn
  obtain ⟨⟨hkind, hgen, hepilogue⟩, -, hall⟩ := Dev.resetFn_idle (cause := 1) .flr ((congrArg Func.present hvf).trans hnothing.1) hidle
    ((congrArg Func.reset hvf).trans hv)
  refine ⟨_, (State.onRun_running _ h : execVfEnableClear pf s = _), ?_⟩
  rw [hclear]
  refine ⟨?_, hkind, hgen.trans (by rw [hvf]), hepilogue.trans (by rw [hvf])⟩
  obtain ⟨l, hl⟩ := hall pf
  rw [Dev.fn_onFn_ne _ _ (by omega), hself] at hl
  exact (congrArg Func.vfEnable hl :)

/-- Settles O23. -/
theorem functions : Obligations.Functions :=
  ⟨fun _ s h _ hvfs => ⟨exec_initiateFlr s h hvfs, exec_perstNAssert_one s h,
      fun hreset hitems hreads hdma _ hjobs hnative houtbox _ hvf hlink =>
        exec_resetSquashComplete s h hvfs hreset hitems hreads hdma hjobs hnative houtbox hvf hlink⟩,
    fun _ s h hquiet hreset => ⟨exec_busMasterEnableClear s h hquiet hreset, exec_busMasterEnableSet s h hquiet hreset⟩,
    fun pf n s h hpf hrec hpresent hreset => ⟨exec_vfEnableSet pf n s h hpf hrec hpresent hreset,
      fun v henable hvfs hquiet hv => exec_vfEnableClear pf v s h hpf hreset henable hvfs hquiet hv⟩⟩

end Sys2Proof.Machine
end

section
/-!
Configuration requests and memory reads (R113-R119, R454).
-/

namespace Sys2Proof.Machine

/-! ## Configuration requests -/

section
variable {fn : Nat} {s : State} (h : s.dev.phase = .running) (hformed : s.dev.formed (s.dev.linkOf fn) = true)
include h hformed

theorem exec_configRequest_retries (req : ConfigReq) (hretries : s.dev.cfgRetries fn = true) :
    exec (.configRequest fn req) s = .next { s with dev := s.dev.emit (.retryStatus fn) } := by
  show execConfigRequest fn req s = _
  rw [execConfigRequest, State.onLive_running _ h, Dev.cfgRequest, hformed, hretries]
  rfl

theorem exec_configRequest_absent (req : ConfigReq) (hretries : s.dev.cfgRetries fn = false) (habsent : s.dev.hasFn fn = false) :
    exec (.configRequest fn req) s = .next { s with dev := s.dev.emit (.unsupported fn) } := by
  show execConfigRequest fn req s = _
  rw [execConfigRequest, State.onLive_running _ h, Dev.cfgRequest, hformed, hretries, habsent]
  rfl

section
variable (hretries : s.dev.cfgRetries fn = false) (hpresent : s.dev.hasFn fn = true)
include hretries hpresent

theorem exec_configRequest_read (f : CfgField) :
    exec (.configRequest fn (.read f)) s = .next { s with dev := ((s.dev.leaveL1 (s.dev.linkOf fn)).cfgRead fn f).2.emit (.configData fn
      ((s.dev.leaveL1 (s.dev.linkOf fn)).cfgRead fn f).1) } := by
  show execConfigRequest fn (.read f) s = _
  rw [execConfigRequest, State.onLive_running _ h, Dev.cfgRequest, hformed, hretries, hpresent]
  rfl

theorem exec_configRequest_write (f : CfgField) (v : Nat) :
    exec (.configRequest fn (.write f v)) s = .next { s with dev := ((s.dev.leaveL1 (s.dev.linkOf fn)).cfgWrite fn f v).emit (.configDone fn) } := by
  show execConfigRequest fn (.write f v) s = _
  rw [execConfigRequest, State.onLive_running _ h, Dev.cfgRequest, hformed, hretries, hpresent]
  simp only [Bool.not_true, Bool.false_eq_true, if_false, (Dev.leaveL1_phase s.dev (s.dev.linkOf fn)).trans h, if_true]

theorem exec_configRequest_vendorId :
    ∃ t, exec (.configRequest fn (.read .vendorId)) s = .next t ∧ t.dev.out = s.dev.out ++ [.configData fn 0x1E8C] := by
  refine ⟨_, exec_configRequest_read h hformed hretries hpresent .vendorId, ?_⟩
  show (s.dev.leaveL1 (s.dev.linkOf fn)).out ++ _ = _
  rw [Dev.leaveL1_out]
  rfl

theorem exec_configRequest_deviceId (hpf : fn < 16) : ∃ t, exec (.configRequest fn (.read .deviceId)) s = .next t ∧
    t.dev.out = s.dev.out ++ [.configData fn s.dev.die.variant.code] := by
  refine ⟨_, exec_configRequest_read h hformed hretries hpresent .deviceId, ?_⟩
  show (s.dev.leaveL1 (s.dev.linkOf fn)).out ++ [.configData fn (if fn < 16 then (s.dev.leaveL1 (s.dev.linkOf fn)).die.variant.code else _)] = _
  rw [Dev.leaveL1_out, if_pos hpf, Dev.die_of_besides (Dev.leaveL1_besides (s.dev.linkOf fn) s.dev (List.Subset.refl _))]

theorem exec_configRequest_maxPayload (v : Nat) (hv : v ∈ [128, 256, 512]) :
    ∃ t, exec (.configRequest fn (.write .maxPayload v)) s = .next t ∧ t.dev.fn fn = { s.dev.fn fn with maxPayload := v } ∧
      t.dev.out = s.dev.out ++ [.configDone fn] := by
  have hwrite : (s.dev.leaveL1 (s.dev.linkOf fn)).cfgWrite fn .maxPayload v =
      (s.dev.leaveL1 (s.dev.linkOf fn)).onFn fn (fun x => { x with maxPayload := v }) := if_pos (List.contains_iff_mem.2 hv)
  refine ⟨_, exec_configRequest_write h hformed hretries hpresent .maxPayload v, ?_, ?_⟩
  · rw [hwrite]
    refine (Dev.fn_onFn_self ..).trans ?_
    rw [Dev.fn_congr (Dev.leaveL1_funcs ..)]
  · rw [hwrite]
    show (s.dev.leaveL1 (s.dev.linkOf fn)).out ++ _ = _
    rw [Dev.leaveL1_out]

theorem exec_configRequest_readOnly (v : Nat) : ∃ t, exec (.configRequest fn (.write .vendorId v)) s = .next t ∧ t.dev.fn fn = s.dev.fn fn ∧
    t.dev.out = s.dev.out ++ [.configDone fn] := by
  refine ⟨_, exec_configRequest_write h hformed hretries hpresent .vendorId v, Dev.fn_congr (Dev.leaveL1_funcs ..) fn, ?_⟩
  show (s.dev.leaveL1 (s.dev.linkOf fn)).out ++ _ = _
  rw [Dev.leaveL1_out]

end

end

/-! ## Memory reads -/

/-- A report under AER puts out one message at most, as the function's masks allow. -/
theorem Dev.reportAer_out (link fn : Nat) (e : AerError) (d : Dev) :
    (d.reportAer link fn e).out = d.out ++ (if (d.fn fn).aer.reports e = true then [.aer link fn e] else []) := by
  have hlog : (d.logAer fn e).out = d.out := Dev.out_of_besides (Dev.logAer_besides fn e d (List.Subset.refl _))
  unfold Dev.reportAer
  dsimp only
  split
  · rw [Dev.emit, hlog]
  · rw [hlog, List.append_nil]

theorem Dev.linkOf_leaveL1 (d : Dev) (link fn : Nat) : (d.leaveL1 link).linkOf fn = d.linkOf fn :=
  Dev.linkOf_congr (Dev.boot_of_besides (Dev.leaveL1_besides link d (List.Subset.refl _))) fn

/-- A word of the card, read alone. -/
theorem Dev.barBytes_cardWord (fn k : Nat) (d : Dev) : d.barBytes fn (.card (4 * k)) 4 = (leBytes (d.cardWord fn (4 * k)) 4, d) := by
  have hlead : 4 * k % 4 = 0 := Nat.mul_mod_right 4 k
  have hword : 4 * k / 4 = k := Nat.mul_div_cancel_left k (by decide)
  simp only [Dev.barBytes, barAddrOffset, hlead, Nat.zero_add, Nat.reduceAdd, Nat.reduceDiv, List.range_one, List.foldl_cons, List.foldl_nil,
    barAddrWord, hword, Nat.add_zero, Dev.barWord, List.nil_append, sliceBytes, List.drop_zero]
  rfl

section
variable {fn : Nat} {s : State} (hup : s.dev.linkUp (s.dev.linkOf fn) = true)
include hup

theorem exec_barMemoryRead_up (a : BarAddr) (len : Nat) (h : s.dev.phase = .running) : exec (.barMemoryRead fn a len) s =
    .next { s with dev := (s.dev.leaveL1 (s.dev.linkOf fn)).barRead fn a len } := by
  have hphase : (s.dev.leaveL1 (s.dev.linkOf fn)).phase = .running := (Dev.leaveL1_phase ..).trans h
  rw [exec_barMemoryRead, execBarMemoryRead, State.onLive_running _ h]
  simp only [hup, Bool.not_true, Bool.false_eq_true, if_false, hphase, if_true]

theorem exec_barMemoryRead_card (k : Nat) (h : s.dev.phase = .running) (hopen : s.dev.doorbellOpen fn = true) :
    ∃ t, exec (.barMemoryRead fn (.card (4 * k)) 4) s = .next t ∧
      t.dev.out = s.dev.out ++ [.readData fn (leBytes ((s.dev.leaveL1 (s.dev.linkOf fn)).cardWord fn (4 * k)) 4)] := by
  refine ⟨_, exec_barMemoryRead_up hup _ _ h, ?_⟩
  have hread : (s.dev.leaveL1 (s.dev.linkOf fn)).barRead fn (.card (4 * k)) 4 = (s.dev.leaveL1 (s.dev.linkOf fn)).emit
      (.readData fn (leBytes ((s.dev.leaveL1 (s.dev.linkOf fn)).cardWord fn (4 * k)) 4)) := by
    simp only [Dev.barRead, Dev.doorbellOpen_leaveL1, hopen, Dev.romClosed, Dev.touchesDoorbell, Bool.not_true, Bool.or_self, Bool.false_eq_true,
      if_false, Bool.false_and, Nat.reduceLT, decide_false, Dev.barBytes_cardWord]
  rw [hread]
  show (s.dev.leaveL1 (s.dev.linkOf fn)).out ++ _ = _
  rw [Dev.leaveL1_out]

theorem exec_barMemoryRead_long (k len : Nat) (h : s.dev.phase = .running) (hopen : s.dev.doorbellOpen fn = true) (hlen : 64 < len) :
    ∃ t, exec (.barMemoryRead fn (.card k) len) s = .next t ∧ t.dev.out = s.dev.out ++ [.completerAbort fn] ++
      (if (s.dev.fn fn).aer.reports .completerAbort then [.aer (s.dev.linkOf fn) fn .completerAbort] else []) := by
  refine ⟨_, exec_barMemoryRead_up hup _ _ h, ?_⟩
  have hread : (s.dev.leaveL1 (s.dev.linkOf fn)).barRead fn (.card k) len = ((s.dev.leaveL1 (s.dev.linkOf fn)).emit (.completerAbort fn)).reportAer
      (s.dev.linkOf fn) fn .completerAbort := by
    simp only [Dev.barRead, Dev.doorbellOpen_leaveL1, hopen, Dev.romClosed, hlen, Bool.not_true, Bool.or_self, Bool.false_eq_true, if_false,
      decide_true, Bool.true_or, if_true, Dev.linkOf_leaveL1]
  rw [hread, Dev.reportAer_out]
  show (s.dev.leaveL1 (s.dev.linkOf fn)).out ++ _ ++ (if ((s.dev.leaveL1 (s.dev.linkOf fn)).fn fn).aer.reports _ = true then _ else _) = _
  rw [Dev.leaveL1_out, Dev.fn_congr (Dev.leaveL1_funcs ..)]

theorem exec_barMemoryRead_closed (a : BarAddr) (len : Nat) (h : s.dev.phase = .running) (hclosed : s.dev.doorbellOpen fn = false) :
    ∃ t, exec (.barMemoryRead fn a len) s = .next t ∧ t.dev.out = s.dev.out ++ [.unsupported fn] ++
      (if s.dev.hasFn fn = true ∧ (s.dev.fn fn).aer.reports .unsupported = true then [.aer (s.dev.linkOf fn) fn .unsupported] else []) := by
  refine ⟨_, exec_barMemoryRead_up hup _ _ h, ?_⟩
  have hread : (s.dev.leaveL1 (s.dev.linkOf fn)).barRead fn a len = (s.dev.leaveL1 (s.dev.linkOf fn)).refuseRead fn := by
    simp only [Dev.barRead, Dev.doorbellOpen_leaveL1, hclosed, Bool.not_false, Bool.true_or, if_true]
  have hfn : ((s.dev.leaveL1 (s.dev.linkOf fn)).emit (.unsupported fn)).fn fn = s.dev.fn fn := Dev.fn_congr (Dev.leaveL1_funcs ..) fn
  have hout : ((s.dev.leaveL1 (s.dev.linkOf fn)).emit (.unsupported fn)).out = s.dev.out ++ [.unsupported fn] := by
    rw [Dev.emit, Dev.leaveL1_out]
  have hlink : ((s.dev.leaveL1 (s.dev.linkOf fn)).emit (.unsupported fn)).linkOf fn = s.dev.linkOf fn := Dev.linkOf_leaveL1 ..
  rw [hread, Dev.refuseRead]
  generalize (s.dev.leaveL1 (s.dev.linkOf fn)).emit (.unsupported fn) = d at *
  dsimp only
  rw [Dev.hasFn, Dev.hasFn, hfn]
  by_cases hpresent : (s.dev.fn fn).present = true
  · rw [if_pos hpresent, Dev.reportAer_out, hout, hlink, hfn]
    simp only [hpresent, true_and]
  · rw [if_neg hpresent, hout, if_neg (fun hand => hpresent hand.1), List.append_nil]

theorem exec_barMemoryRead_zero (a : BarAddr) (len : Nat) (h : s.dev.phase = .serviceReset ∨ s.dev.phase = .faultStop)
    (hpresent : s.dev.hasFn fn = true) :
    ∃ t, exec (.barMemoryRead fn a len) s = .next t ∧ t.dev.out = s.dev.out ++ [.readData fn (List.replicate len 0)] := by
  have hphase : (s.dev.leaveL1 (s.dev.linkOf fn)).phase ≠ .running := by
    rw [Dev.leaveL1_phase]
    rcases h with hp | hp <;> rw [hp] <;> decide
  have hpresent' : (s.dev.leaveL1 (s.dev.linkOf fn)).hasFn fn = true := (congrArg Func.present (Dev.fn_congr
      (Dev.leaveL1_funcs ..) fn)).trans hpresent
  refine ⟨_, (State.onLive_live _ (.inr h) : execBarMemoryRead fn a len s = _), ?_⟩
  simp only [hup, Bool.not_true, Bool.false_eq_true, if_false, hphase, hpresent', if_true]
  show (s.dev.leaveL1 (s.dev.linkOf fn)).out ++ _ = _
  rw [Dev.leaveL1_out]

end

/-- Settles O24. -/
theorem hostRequests : Obligations.HostRequests :=
  ⟨fun _ _ h hformed => ⟨exec_configRequest_retries h hformed, exec_configRequest_absent h hformed, fun hretries hpresent =>
      ⟨exec_configRequest_vendorId h hformed hretries hpresent, exec_configRequest_deviceId h hformed hretries hpresent,
        exec_configRequest_maxPayload h hformed hretries hpresent, exec_configRequest_readOnly h hformed hretries hpresent⟩⟩,
    fun _ _ hup => ⟨fun h hopen => ⟨fun k => exec_barMemoryRead_card hup k h hopen, fun k len => exec_barMemoryRead_long hup k len h hopen⟩,
      exec_barMemoryRead_closed hup, exec_barMemoryRead_zero hup⟩⟩

end Sys2Proof.Machine
end

section
/-!
Completions, messages and peer-to-peer windows (R122, R123, R130, R131, R412).
-/

namespace Sys2Proof.Machine

/-! ## Completions (R122, R123) -/

theorem exec_readCompletion_running {s : State} (h : s.dev.phase = .running) (link tag : Nat) (status : CplStatus) (data : List Byte) :
    exec (.readCompletion link tag status data) s = .next { s with dev := (match (s.dev.link link).reads.get? tag with
      | none => s.dev
      | some r => if status = .success then s.dev.endRead link tag r (some data) else s.dev.failRead link tag r false) } :=
  (State.onLive_running _ h : execReadCompletion link tag status data s = _).trans rfl

theorem exec_completionTimeout_running {s : State} (h : s.dev.phase = .running) (link tag : Nat) :
    exec (.completionTimeout link tag) s = .next { s with dev := (match (s.dev.link link).reads.get? tag with
      | none => s.dev
      | some r => s.dev.failRead link tag r true) } :=
  (State.onLive_running _ h : execCompletionTimeout link tag s = _).trans rfl

/-- Where nothing waits for a tag and the data goes nowhere, the end of a request takes its tag and no more. -/
theorem Dev.endRead_dead {d : Dev} {link tag : Nat} {r : Read} (hqueue : (d.link link).queue = []) (hdead : r.dead = true)
    (data : Option (List Byte)) :
    d.endRead link tag r data = d.onLink link (fun l => { l with reads := l.reads.erase tag }) := by
  have hidle : ((d.onLink link (fun l => { l with reads := l.reads.erase tag })).link link).queue = [] := by
    rw [Dev.link_onLink_self]
    exact hqueue
  unfold Dev.endRead
  dsimp only
  split <;> rw [if_pos hdead, Dev.pump_idle hidle]

theorem Dev.reads_endRead_dead {d : Dev} {link tag : Nat} {r : Read} (hqueue : (d.link link).queue = []) (hdead : r.dead = true)
    (data : Option (List Byte)) : ((d.endRead link tag r data).link link).reads.get? tag = none := by
  rw [Dev.endRead_dead hqueue hdead, Dev.link_onLink_self]
  exact (NMap.get?_erase ..).trans (if_pos rfl)

theorem Dev.links_reportAer (link fn : Nat) (e : AerError) (d : Dev) : (d.reportAer link fn e).links = d.links :=
  Dev.links_of_besides (Dev.reportAer_besides link fn e d (List.Subset.refl _))

theorem Dev.regs_reportAer (link fn : Nat) (e : AerError) (d : Dev) : (d.reportAer link fn e).regs = d.regs :=
  Dev.regs_of_besides (Dev.reportAer_besides link fn e d (List.Subset.refl _))

theorem Dev.mem_out_reportAer {link fn : Nat} {e : AerError} {d : Dev} (h : (d.fn fn).aer.reports e = true) :
    Output.aer link fn e ∈ (d.reportAer link fn e).out := by
  rw [Dev.reportAer_out, if_pos h]
  exact List.mem_append_right _ List.mem_cons_self

/-- A failed request: `f` counts it, `b` is its cause, `e` the error that is reported. -/
theorem Dev.countedFail {d : Dev} {link tag : Nat} {r : Read} (hqueue : (d.link link).queue = []) (hdead : r.dead = true) (f : Field) (b : Nat)
    (e : AerError) (hkey : f.key 0 0 ≠ (pcxCauses.bit b).key 0 0) :
    ∃ x, x = ((((d.bump f link).cause pcxCauses b link).reportAer link r.fn e).endRead link tag r none) ∧
      (x.link link).reads.get? tag = none ∧ x.on (pcxCauses.bit b) link = true ∧
      x.rd f link = (d.rd f link + 1) % 2 ^ f.width ∧ ((d.fn r.fn).aer.reports e = true → Output.aer link r.fn e ∈ x.out) := by
  have hlinks : (((d.bump f link).cause pcxCauses b link).reportAer link r.fn e).links = d.links :=
    (Dev.links_reportAer ..).trans (Dev.cause_links ..)
  have hidle : ((((d.bump f link).cause pcxCauses b link).reportAer link r.fn e).link link).queue = [] := by
    rw [Dev.link_congr hlinks]
    exact hqueue
  refine ⟨_, rfl, Dev.reads_endRead_dead hidle hdead _, ?_, ?_, fun hshown => ?_⟩
  all_goals rw [Dev.endRead_dead hidle hdead]
  · show (((d.bump f link).cause pcxCauses b link).reportAer link r.fn e).on _ link = true
    rw [Dev.on, Dev.rd_congr (Dev.regs_reportAer ..)]
    exact Dev.cause_on ..
  · show (((d.bump f link).cause pcxCauses b link).reportAer link r.fn e).rd f link = _
    rw [Dev.rd_congr (Dev.regs_reportAer ..), Dev.rd_cause_at _ _ _ _ _ hkey, Dev.rd_bump_self]
  · refine Dev.mem_out_reportAer ?_
    rw [Dev.fn_congr (Dev.cause_funcs ..)]
    exact hshown

section
variable {link tag : Nat} {s : State} (h : s.dev.phase = .running)
include h

theorem exec_readCompletion_unknown (hget : (s.dev.link link).reads.get? tag = none) (status : CplStatus) (data : List Byte) :
    exec (.readCompletion link tag status data) s = .next s ∧ exec (.completionTimeout link tag) s = .next s := by
  rw [exec_readCompletion_running h, exec_completionTimeout_running h, hget]
  exact ⟨rfl, rfl⟩

variable {r : Read} (hget : (s.dev.link link).reads.get? tag = some r) (hqueue : (s.dev.link link).queue = []) (hdead : r.dead = true)
include hget hqueue hdead

theorem exec_readCompletion_dead (data : List Byte) : ∃ t, exec (.readCompletion link tag .success data) s = .next t ∧
    (t.dev.link link).reads.get? tag = none ∧ t.dev.regs = s.dev.regs ∧ t.dev.out = s.dev.out := by
  rw [exec_readCompletion_running h, hget]
  refine ⟨_, rfl, Dev.reads_endRead_dead hqueue hdead _, ?_, ?_⟩
  all_goals
    simp only [if_true]
    rw [Dev.endRead_dead hqueue hdead]
    rfl

theorem exec_readCompletion_failed (data : List Byte) (status : CplStatus) (hstatus : status ≠ .success) :
    ∃ t, exec (.readCompletion link tag status data) s = .next t ∧
      (t.dev.link link).reads.get? tag = none ∧ t.dev.on (pcxCauses.bit 5) link = true ∧
      t.dev.rd R.PCX_CPL_ERRORS_errors link = (s.dev.rd R.PCX_CPL_ERRORS_errors link + 1) % 2 ^ R.PCX_CPL_ERRORS_errors.width ∧
      ((s.dev.fn r.fn).aer.reports .poisoned = true → Output.aer link r.fn .poisoned ∈ t.dev.out) := by
  obtain ⟨x, hx, hfail⟩ := Dev.countedFail (tag := tag) hqueue hdead R.PCX_CPL_ERRORS_errors 5 .poisoned (by decide)
  have hfailRead : s.dev.failRead link tag r false = x := hx ▸ rfl
  rw [exec_readCompletion_running h, hget]
  simp only [if_neg hstatus, hfailRead]
  exact ⟨_, rfl, hfail⟩

theorem exec_completionTimeout_dead : ∃ t, exec (.completionTimeout link tag) s = .next t ∧
    (t.dev.link link).reads.get? tag = none ∧ t.dev.on (pcxCauses.bit 4) link = true ∧
    t.dev.rd R.PCX_CPL_TIMEOUTS_timeouts link = (s.dev.rd R.PCX_CPL_TIMEOUTS_timeouts link + 1) % 2 ^ R.PCX_CPL_TIMEOUTS_timeouts.width ∧
    ((s.dev.fn r.fn).aer.reports .completionTimeout = true → Output.aer link r.fn .completionTimeout ∈ t.dev.out) := by
  obtain ⟨x, hx, hfail⟩ := Dev.countedFail (tag := tag) hqueue hdead R.PCX_CPL_TIMEOUTS_timeouts 4 .completionTimeout (by decide)
  have hfailRead : s.dev.failRead link tag r true = x := hx ▸ rfl
  rw [exec_completionTimeout_running h, hget]
  simp only [hfailRead]
  exact ⟨_, rfl, hfail⟩

end

/-! ## MSI-X vectors (R412, R115, R120) -/

/-- A function with no posted requests that wait sends a message at once. -/
theorem Dev.sendMessage_atOnce {d : Dev} {fn : Nat} (h : d.postedOf fn = []) (v : Nat) :
    d.sendMessage fn v = d.emit (.msix fn v (if (d.fn fn).tphEnable then some (d.vec fn v).steering else none)) := by
  unfold Dev.sendMessage
  dsimp only
  rw [if_neg]
  rw [Bool.not_eq_true, List.any_eq_false]
  intro p hp hmine
  have hin : p ∈ d.postedOf fn := List.mem_filter.2 ⟨hp, by cases p <;> exact hmine⟩
  rw [h] at hin
  exact List.not_mem_nil hin

section
variable (d : Dev) (fn v : Nat) (f : Vec → Vec)

/-- The device with one vector changed. -/
def Dev.onVec : Dev := d.onFn fn (fun x => { x with vecs := x.vecs.upd v {} f })

theorem Dev.onVec_fn : (d.onVec fn v f).fn fn = { d.fn fn with vecs := (d.fn fn).vecs.upd v {} f } := Dev.fn_onFn_self ..

theorem Dev.onVec_vec : (d.onVec fn v f).vec fn v = f (d.vec fn v) := by
  rw [Dev.vec, Dev.onVec_fn]
  exact NMap.getD_upd_self ..

end

/-- A vector that nothing masks any longer sends what it holds, unless the function holds it. -/
theorem Dev.releaseVector_present {d : Dev} {fn v : Nat} (hmask : (d.vec fn v).masked = false) (hlost : d.vectorLost fn v = false)
    (hposted : d.postedOf fn = []) :
    d.releaseVector fn v = (if (d.vec fn v).pending = true ∧ (d.fn fn).busMaster = true ∧ (d.fn fn).msixEnable = true ∧ (d.fn fn).msixMask = false
      then (d.onVec fn v (fun e => { e with pending := false })).emit
        (.msix fn v (if (d.fn fn).tphEnable then some (d.vec fn v).steering else none)) else d) := by
  have hsend := Dev.sendMessage_atOnce (d := d.onVec fn v (fun e => { e with pending := false })) hposted v
  rw [Dev.onVec_vec, Dev.onVec_fn] at hsend
  have hcond : ((d.vec fn v).pending && !d.vectorHeld fn v && !d.vectorLost fn v) = true ↔
      (d.vec fn v).pending = true ∧ (d.fn fn).busMaster = true ∧ (d.fn fn).msixEnable = true ∧ (d.fn fn).msixMask = false := by
    rw [hlost, Dev.vectorHeld, hmask]
    simp only [Bool.not_false, Bool.and_true, Bool.or_false, Bool.and_eq_true, Bool.not_eq_true', Bool.or_eq_false_iff, Bool.not_eq_false', and_assoc]
  unfold Dev.releaseVector
  exact ite_congr (propext hcond) (fun _ => hsend) (fun _ => rfl)

theorem exec_msixVectorUnmask {s : State} {fn v : Nat} (h : s.dev.phase = .running) (hpresent : s.dev.hasFn fn = true) (hv : v < s.dev.msixSize fn)
    (hreset : (s.dev.link (s.dev.linkOf fn)).reset = .none) (hposted : s.dev.postedOf fn = []) :
    ∃ t, exec (.msixVectorUnmask fn v) s = .next t ∧ (t.dev.vec fn v).masked = false ∧ (t.dev.vec fn v).addr = (s.dev.vec fn v).addr ∧
      (if (s.dev.vec fn v).pending = true ∧ (s.dev.fn fn).busMaster = true ∧ (s.dev.fn fn).msixEnable = true ∧ (s.dev.fn fn).msixMask = false
       then (t.dev.vec fn v).pending = false ∧ t.dev.out = s.dev.out ++
         [.msix fn v (if (s.dev.fn fn).tphEnable then some (s.dev.vec fn v).steering else none)]
       else (t.dev.vec fn v).pending = (s.dev.vec fn v).pending ∧ t.dev.out = s.dev.out) := by
  have hexec : exec (.msixVectorUnmask fn v) s =
      .next { s with dev := (s.dev.onVec fn v (fun e => { e with masked := false })).releaseVector fn v } := by
    refine (State.onRun_running _ h : execMsixVectorUnmask fn v s = _).trans ?_
    rw [if_pos (by rw [hpresent, Bool.true_and, decide_eq_true hv])]
    rfl
  have hpresent' : (s.dev.onVec fn v (fun e => { e with masked := false })).hasFn fn = true :=
    (congrArg Func.present (Dev.onVec_fn ..)).trans hpresent
  have hlost : (s.dev.onVec fn v (fun e => { e with masked := false })).vectorLost fn v = false := by
    simp only [Dev.vectorLost, hpresent', Bool.not_true, Bool.or_false, Bool.or_eq_false_iff, decide_eq_false_iff_not, not_not, not_le]
    exact ⟨hv, hreset⟩
  have hrelease := Dev.releaseVector_present (d := s.dev.onVec fn v (fun e => { e with masked := false })) (v := v)
      (by rw [Dev.onVec_vec]) hlost hposted
  rw [Dev.onVec_vec, Dev.onVec_fn] at hrelease
  rw [hexec, hrelease]
  refine ⟨_, rfl, ?_⟩
  dsimp only
  split
  · have hvec : (((s.dev.onVec fn v (fun e => { e with masked := false })).onVec fn v (fun e => { e with pending := false })).emit
        (.msix fn v (if (s.dev.fn fn).tphEnable then some (s.dev.vec fn v).steering else none))).vec fn v =
        { s.dev.vec fn v with masked := false, pending := false } := (Dev.onVec_vec ..).trans (by rw [Dev.onVec_vec])
    rw [hvec]
    exact ⟨rfl, rfl, rfl, rfl⟩
  · rw [Dev.onVec_vec]
    exact ⟨rfl, rfl, rfl, rfl⟩

/-! ## The translation cache of a link (R115) -/

/-- What a change of a link leaves of it, it leaves of every link. -/
theorem Dev.link_onLink_keeps {β : Type} (p : Link → β) (d : Dev) (link n : Nat) (f : Link → Link) (h : ∀ l, p (f l) = p l) :
    p ((d.onLink link f).link n) = p (d.link n) := by
  by_cases hn : n = link
  · subst hn
    rw [Dev.link_onLink_self, h]
  · rw [Dev.link_onLink_ne _ _ hn]

theorem Dev.queueTranslation_atc (fn addr : Nat) (pasid : Option Nat) (d : Dev) (n : Nat) :
    ((d.queueTranslation fn addr pasid).link n).atc = (d.link n).atc := by
  unfold Dev.queueTranslation
  dsimp only
  split
  · rfl
  · exact Dev.link_onLink_keeps Link.atc d _ n _ fun _ => rfl

theorem Dev.issueHeld_atc (link n : Nat) (d : Dev) : ((d.issueHeld link).link n).atc = (d.link n).atc := by
  unfold Dev.issueHeld
  dsimp only
  split
  · rfl
  · split
    · rfl
    · split
      · exact Dev.link_onLink_keeps Link.atc d _ n _ fun _ => rfl
      · split
        · exact Dev.link_onLink_keeps Link.atc d _ n _ fun _ => rfl
        · rw [Dev.queueTranslation_atc]
          exact Dev.link_onLink_keeps Link.atc d _ n _ fun _ => rfl

theorem Dev.pump_atc (link n : Nat) (d : Dev) : ((d.pump link).link n).atc = (d.link n).atc :=
  Dev.each_induct (fun e => (e.link n).atc = (d.link n).atc) _ _ _ rfl fun _ e he => (e.issueHeld_atc link n).trans he

theorem exec_atsInvalidateRequest {s : State} (h : s.dev.phase = .running) {link : Nat} (tag addr size : Nat) (hup : s.dev.linkUp link = true) :
    ∃ t, exec (.atsInvalidateRequest link tag addr size) s = .next t ∧ t.dev.out.getLast? = some (.atsInvalidateDone link tag) ∧
      ∀ e ∈ (t.dev.link link).atc, e ∈ (s.dev.link link).atc ∧ (e.base + e.size ≤ addr ∨ addr + size ≤ e.base) := by
  refine ⟨_, (State.onRun_running _ h : execAtsInvalidateRequest link tag addr size s = _), ?_, fun e he => ?_⟩
  all_goals simp only [hup, if_true] at *
  · exact List.getLast?_concat ..
  · have hatc : (((s.dev.leaveL1 link).invalidate link addr size).link link).atc =
        (s.dev.link link).atc.filter (fun e => !(e.base < addr + size && addr < e.base + e.size)) := by
      refine (Dev.pump_atc ..).trans ?_
      rw [Dev.link_onLink_self, Dev.link_congr (Dev.links_of_besides (Dev.leaveL1_besides link s.dev (List.Subset.refl _)))]
    have hin : e ∈ (((s.dev.leaveL1 link).invalidate link addr size).link link).atc := he
    rw [hatc, List.mem_filter] at hin
    obtain ⟨hmem, hmiss⟩ := hin
    rw [Bool.not_eq_true', Bool.and_eq_false_iff, decide_eq_false_iff_not, decide_eq_false_iff_not] at hmiss
    exact ⟨hmem, by omega⟩

/-! ## IDE (R131) -/

/-- The stream of a link is no longer secure. -/
def Dev.ideLost (link : Nat) (d : Dev) : Dev :=
  ((d.wr R.PCX_LINK_STATUS_ide_secure 0 link).onLink link (fun l => { l with ideKeys := none })).cause pcxCauses 9 link

theorem Dev.ideLost_function0 (link : Nat) (d : Dev) : (d.ideLost link).function0 link = d.function0 link := by
  rw [Dev.function0, Dev.identity, Dev.ideLost, Dev.cause_boot]
  rfl

theorem exec_ideIntegrityFailure_secure {s : State} (h : s.dev.phase = .running) {link : Nat}
    (hsecure : s.dev.on R.PCX_LINK_STATUS_ide_secure link = true) :
    exec (.ideIntegrityFailure link) s = .next { s with dev := (s.dev.ideLost link).reportAer link (s.dev.function0 link) .ideCheck } := by
  refine (State.onLinks_answering _ (.inl h) : execIdeIntegrityFailure link s = _).trans ?_
  rw [if_pos hsecure, ← s.dev.ideLost_function0 link]
  rfl

theorem exec_ideIntegrityFailure {s : State} (h : s.dev.phase = .running) {link : Nat} (hsecure : s.dev.on R.PCX_LINK_STATUS_ide_secure link = true) :
    ∃ t, exec (.ideIntegrityFailure link) s = .next t ∧ t.dev.rd R.PCX_LINK_STATUS_ide_secure link = 0 ∧
      (t.dev.link link).ideKeys = none ∧ t.dev.on (pcxCauses.bit 9) link = true ∧
      ((s.dev.fn (s.dev.function0 link)).aer.reports .ideCheck = true → Output.aer link (s.dev.function0 link) .ideCheck ∈ t.dev.out) := by
  refine ⟨_, exec_ideIntegrityFailure_secure h hsecure, ?_, ?_, ?_, fun hshown => Dev.mem_out_reportAer ?_⟩
  · rw [Dev.rd_congr (Dev.regs_reportAer ..), Dev.ideLost, Dev.rd_cause_at _ _ _ _ _ (by decide)]
    exact Dev.rd_wr_self ..
  · rw [Dev.link_congr (Dev.links_reportAer ..), Dev.ideLost, Dev.link_congr (Dev.cause_links ..), Dev.link_onLink_self]
  · rw [Dev.on, Dev.rd_congr (Dev.regs_reportAer ..)]
    exact Dev.cause_on ..
  · rw [Dev.ideLost, Dev.fn_congr (Dev.cause_funcs ..)]
    exact hshown

/-! ## What every element of a loop keeps -/

section
variable {α : Type} {l : List α} {f : α → Dev → Dev}

theorem Dev.each_keeps {P : Dev → Prop} (keep : ∀ a ∈ l, ∀ e, P e → P (f a e)) {d : Dev} (h : P d) : P (Dev.each l f d) := by
  unfold Dev.each
  induction l generalizing d with
  | nil => exact h
  | cons a l ih => exact ih (fun b hb => keep b (List.mem_cons_of_mem a hb)) (keep a List.mem_cons_self d h)

/-- What one element of a loop establishes and every element keeps holds after the loop. -/
theorem Dev.each_reaches {Q : Dev → Prop} {a : α} (hmem : a ∈ l) (establish : ∀ e, Q (f a e)) (keep : ∀ b ∈ l, ∀ e, Q e → Q (f b e)) (d : Dev) :
    Q (Dev.each l f d) := by
  induction hmem generalizing d with
  | head l => exact Dev.each_keeps (fun b hb => keep b (List.mem_cons_of_mem a hb)) (establish d)
  | tail b _ ih => exact ih (fun c hc => keep c (List.mem_cons_of_mem b hc)) (f b d)

end

/-! ## Peer-to-peer windows (R130) -/

/-- The windows lie apart from the other registers of the link. -/
theorem p2pWindow_key_ne {f g : Field} (hf : f ∈ p2pShadow ++ p2pActive) (hunit : g.unit = 0x10) (hoff : g.off < 0x40 ∨ 0x440 ≤ g.off)
    (hlsb : g.lsb < 32) {w : Nat} (hw : w < 16) (link : Nat) : f.key link (32 * w) ≠ g.key link 0 := by
  have hwindow : ∀ f ∈ p2pShadow ++ p2pActive, f.unit = 0x10 ∧ 0x40 ≤ f.off ∧ f.off < 0x260 ∧ f.lsb < 32 := by decide
  obtain ⟨hfunit, hlow, hhigh, hflsb⟩ := hwindow f hf
  simp only [Field.key, hfunit, hunit]
  omega

/-- One value of one active window. -/
theorem p2pActive_key_inj {x y : Field × Nat} (hx : x ∈ p2pActive.zipIdx) (hy : y ∈ p2pActive.zipIdx) {link v w : Nat}
    (h : x.1.key link (32 * v) = y.1.key link (32 * w)) : x = y ∧ v = w := by
  have hplace : ∀ x ∈ p2pActive.zipIdx, x.1.unit = 0x10 ∧ 0x240 ≤ x.1.off ∧ x.1.off < 0x260 ∧ x.1.lsb < 32 := by decide
  have happart : ∀ x ∈ p2pActive.zipIdx, ∀ y ∈ p2pActive.zipIdx, x.1.off = y.1.off → x.1.lsb = y.1.lsb → x = y := by decide
  obtain ⟨hxunit, hxlow, hxhigh, hxlsb⟩ := hplace x hx
  obtain ⟨hyunit, hylow, hyhigh, hylsb⟩ := hplace y hy
  simp only [Field.key, hxunit, hyunit] at h
  exact ⟨happart x hx y hy (by omega) (by omega), by omega⟩

/-- An active window of a link takes its eight values of a set. -/
def Dev.takeWindow (link : Nat) (set : List Nat) (w : Nat) (d : Dev) : Dev :=
  Dev.each p2pActive.zipIdx (fun f d => d.wr f.1 (set.getD (8 * w + f.2) 0) link (32 * w)) d

/-- The active windows of a link take a set. -/
def Dev.setActive (link : Nat) (set : List Nat) (d : Dev) : Dev := Dev.each (List.range 16) (fun w d => d.takeWindow link set w) d

theorem p2pActive_mem {f : Field} {k : Nat} (h : p2pActive[k]? = some f) : (f, k) ∈ p2pActive.zipIdx := by
  generalize p2pActive = l at h
  exact List.mem_zipIdx_iff_getElem?.2 h

section
variable (link : Nat) (set : List Nat)

/-- One value written into the active windows: a value of the set that stands stays. -/
theorem Dev.rd_windowValue_keeps {w k : Nat} {f : Field} (hf : (f, k) ∈ p2pActive.zipIdx) (v : Nat) {x : Field × Nat} (hx : x ∈ p2pActive.zipIdx)
    {e : Dev} (he : e.rd f link (32 * w) = set.getD (8 * w + k) 0 % 2 ^ f.width) :
    (e.wr x.1 (set.getD (8 * v + x.2) 0) link (32 * v)).rd f link (32 * w) = set.getD (8 * w + k) 0 % 2 ^ f.width := by
  by_cases hkey : f.key link (32 * w) = x.1.key link (32 * v)
  · obtain ⟨hx, hv⟩ := p2pActive_key_inj hf hx hkey
    rw [← hx, ← hv]
    exact Dev.rd_wr_self ..
  · rw [Dev.rd_wr_ne _ _ _ _ _ _ _ _ hkey, he]

theorem Dev.rd_takeWindow_keeps {w k : Nat} {f : Field} (hf : (f, k) ∈ p2pActive.zipIdx) (v : Nat) {e : Dev}
    (he : e.rd f link (32 * w) = set.getD (8 * w + k) 0 % 2 ^ f.width) :
    (e.takeWindow link set v).rd f link (32 * w) = set.getD (8 * w + k) 0 % 2 ^ f.width := by
  unfold Dev.takeWindow
  exact Dev.each_keeps (P := fun e => e.rd f link (32 * w) = set.getD (8 * w + k) 0 % 2 ^ f.width)
    (fun x hx e he => Dev.rd_windowValue_keeps link set hf v hx he) he

theorem Dev.rd_takeWindow {w k : Nat} {f : Field} (hf : (f, k) ∈ p2pActive.zipIdx) (e : Dev) :
    (e.takeWindow link set w).rd f link (32 * w) = set.getD (8 * w + k) 0 % 2 ^ f.width := by
  unfold Dev.takeWindow
  exact Dev.each_reaches (Q := fun e => e.rd f link (32 * w) = set.getD (8 * w + k) 0 % 2 ^ f.width) hf (fun e => Dev.rd_wr_self ..)
    (fun x hx e he => Dev.rd_windowValue_keeps link set hf w hx he) e

theorem Dev.rd_setActive (d : Dev) {w k : Nat} {f : Field} (hw : w < 16) (hf : (f, k) ∈ p2pActive.zipIdx) :
    (d.setActive link set).rd f link (32 * w) = set.getD (8 * w + k) 0 % 2 ^ f.width := by
  unfold Dev.setActive
  exact Dev.each_reaches (Q := fun e => e.rd f link (32 * w) = set.getD (8 * w + k) 0 % 2 ^ f.width) (List.mem_range.2 hw)
    (Dev.rd_takeWindow link set hf) (fun v _ e he => Dev.rd_takeWindow_keeps link set hf v he) d

theorem Dev.rd_setActive_ne (d : Dev) {g : Field} {j a : Nat} (h : ∀ f ∈ p2pActive, ∀ w, w < 16 → g.key j a ≠ f.key link (32 * w)) :
    (d.setActive link set).rd g j a = d.rd g j a := by
  unfold Dev.setActive
  refine Dev.each_keeps (P := fun e => e.rd g j a = d.rd g j a) (fun w hw e he => ?_) rfl
  unfold Dev.takeWindow
  refine Dev.each_keeps (P := fun e => e.rd g j a = d.rd g j a) (fun x hx e he => ?_) he
  rw [Dev.rd_wr_ne _ _ _ _ _ _ _ _ (h x.1 (List.fst_mem_of_mem_zipIdx hx) w (List.mem_range.1 hw)), he]

theorem Dev.setActive_links (d : Dev) : (d.setActive link set).links = d.links := by
  unfold Dev.setActive
  refine Dev.each_keeps (P := fun e => e.links = d.links) (fun w _ e he => ?_) rfl
  unfold Dev.takeWindow
  refine Dev.each_keeps (P := fun e => e.links = d.links) (fun x _ e he => ?_) he
  exact he

end

section
variable {link : Nat} {s : State} (h : s.dev.phase = .running) (hformed : s.dev.formed link = true) (hreset : (s.dev.link link).reset = .none)
include h hformed hreset

theorem exec_p2pCommit (hcommit : (s.dev.link link).commit = none) : ∃ t, exec (.p2pCommit link) s = .next t ∧
    (t.dev.link link).commit = some (s.dev.shadowSet link) ∧ t.dev.rd R.PCX_P2P_COMMIT_commit_busy link = 1 ∧
    ∀ f ∈ p2pShadow ++ p2pActive, ∀ w, w < 16 → t.dev.rd f link (32 * w) = s.dev.rd f link (32 * w) := by
  have hdev : s.dev.p2pCommit link =
      (s.dev.onLink link (fun l => { l with commit := some (s.dev.shadowSet link) })).wr R.PCX_P2P_COMMIT_commit_busy 1 link := by
    unfold Dev.p2pCommit
    simp only [hformed, hreset, hcommit, Bool.not_true, bne_self_eq_false, Bool.or_self, Bool.false_eq_true, if_false, Option.isSome_none]
  refine ⟨_, (State.onRun_running _ h : execP2pCommit link s = _), ?_, ?_, fun f hf w hw => ?_⟩
  all_goals rw [hdev]
  · exact congrArg Link.commit (Dev.link_onLink_self ..)
  · exact Dev.rd_wr_self ..
  · exact Dev.rd_wr_ne _ _ _ _ _ _ _ _ (p2pWindow_key_ne hf rfl (by decide) (by decide) hw link)

theorem exec_p2pCommit_busy {set : List Nat} (hcommit : (s.dev.link link).commit = some set) : ∃ t, exec (.p2pCommit link) s = .next t ∧
    (t.dev.link link).commit = some set ∧ t.dev.on (pcxCauses.bit 7) link = true := by
  have hdev : s.dev.p2pCommit link = s.dev.cause pcxCauses 7 link := by
    unfold Dev.p2pCommit
    simp only [hformed, hreset, hcommit, Bool.not_true, bne_self_eq_false, Bool.or_self, Bool.false_eq_true, if_false, Option.isSome_some, if_true]
  refine ⟨_, (State.onRun_running _ h : execP2pCommit link s = _), ?_, ?_⟩
  all_goals rw [hdev]
  · rw [Dev.link_congr (Dev.cause_links ..), hcommit]
  · exact Dev.cause_on ..

end

/-- The active set of a link is the set taken; no commit runs. -/
def Dev.windowsCopied (link : Nat) (set : List Nat) (d : Dev) : Dev :=
  (d.onLink link (fun l => { l with commit := none })).setActive link set

theorem Dev.p2pDone_eq {d : Dev} {link : Nat} {set : List Nat} (h : (d.link link).commit = some set) : d.p2pDone link =
    (((d.windowsCopied link set).wr R.PCX_P2P_COMMIT_commit_busy 0 link).bump R.PCX_P2P_GEN_commits link).cause pcxCauses 6 link := by
  unfold Dev.p2pDone Dev.windowsCopied Dev.setActive
  rw [h]
  simp only [Dev.takeWindow]

theorem Dev.rd_windowsCopied_outside (link : Nat) (set : List Nat) (d : Dev) {g : Field} (hunit : g.unit = 0x10)
    (hoff : g.off < 0x40 ∨ 0x440 ≤ g.off) (hlsb : g.lsb < 32) : (d.windowsCopied link set).rd g link = d.rd g link :=
  Dev.rd_setActive_ne link set _ fun _ hf _ hw => (p2pWindow_key_ne (List.mem_append_right _ hf) hunit hoff hlsb hw link).symm

theorem Dev.windowsCopied_commit (link : Nat) (set : List Nat) (d : Dev) : ((d.windowsCopied link set).link link).commit = none := by
  rw [Dev.windowsCopied, Dev.link_congr (Dev.setActive_links ..), Dev.link_onLink_self]

theorem exec_p2pCommitDone {link : Nat} {s : State} (h : s.dev.phase = .running) {set : List Nat} (hcommit : (s.dev.link link).commit = some set) :
    ∃ t, exec (.p2pCommitDone link) s = .next t ∧ (t.dev.link link).commit = none ∧ t.dev.rd R.PCX_P2P_COMMIT_commit_busy link = 0 ∧
      t.dev.rd R.PCX_P2P_GEN_commits link = (s.dev.rd R.PCX_P2P_GEN_commits link + 1) % 2 ^ R.PCX_P2P_GEN_commits.width ∧
      t.dev.on (pcxCauses.bit 6) link = true ∧
      ∀ w k f, w < 16 → p2pActive[k]? = some f → t.dev.rd f link (32 * w) = set.getD (8 * w + k) 0 % 2 ^ f.width := by
  have hcount := s.dev.rd_windowsCopied_outside link set (g := R.PCX_P2P_GEN_commits) rfl (by decide) (by decide)
  have hended := s.dev.windowsCopied_commit link set
  have htaken : ∀ w k f, w < 16 → p2pActive[k]? = some f → (s.dev.windowsCopied link set).rd f link (32 * w) =
      set.getD (8 * w + k) 0 % 2 ^ f.width := fun w k f hw hf => Dev.rd_setActive link set _ hw (p2pActive_mem hf)
  have hdev := Dev.p2pDone_eq hcommit
  generalize s.dev.windowsCopied link set = copied at *
  refine ⟨_, (State.onRun_running _ h : execP2pCommitDone link s = _), ?_, ?_, ?_, ?_, fun w k f hw hf => ?_⟩
  all_goals rw [hdev]
  · rw [Dev.link_congr (Dev.cause_links ..), Dev.bump, Dev.link_congr (Dev.wr_links ..), Dev.link_congr (Dev.wr_links ..)]
    exact hended
  · rw [Dev.rd_cause_at _ _ _ _ _ (by decide), Dev.rd_bump_at _ _ _ _ _ _ (by decide), Dev.rd_wr_self]
    rfl
  · rw [Dev.rd_cause_at _ _ _ _ _ (by decide), Dev.rd_bump_self, Dev.rd_wr_at _ _ _ _ _ _ (by decide), hcount]
  · exact Dev.cause_on ..
  · have hmem : f ∈ p2pShadow ++ p2pActive := List.mem_append_right _ (List.mem_of_getElem? hf)
    rw [Dev.rd_cause_ne _ _ _ _ _ _ _ (p2pWindow_key_ne hmem rfl (by decide) (by decide) hw link), Dev.bump,
      Dev.rd_wr_ne _ _ _ _ _ _ _ _ (p2pWindow_key_ne hmem rfl (by decide) (by decide) hw link),
      Dev.rd_wr_ne _ _ _ _ _ _ _ _ (p2pWindow_key_ne hmem rfl (by decide) (by decide) hw link)]
    exact htaken w k f hw hf

/-- Settles O25. -/
theorem hostMessagesAndWindows : Obligations.HostMessagesAndWindows :=
  ⟨fun _ _ data _ _ h _ => ⟨fun hget status => exec_readCompletion_unknown h hget status data, fun hget hqueue hdead =>
      ⟨exec_readCompletion_dead h hget hqueue hdead data, exec_readCompletion_failed h hget hqueue hdead data,
        exec_completionTimeout_dead h hget hqueue hdead⟩⟩,
    fun _ h => ⟨fun _ _ => exec_msixVectorUnmask h, fun _ => exec_atsInvalidateRequest h, fun _ _ => exec_ideIntegrityFailure h⟩,
    fun _ _ h hformed hreset => ⟨exec_p2pCommit h hformed hreset, fun _ hcommit =>
      ⟨exec_p2pCommit_busy h hformed hreset hcommit, exec_p2pCommitDone h hcommit⟩⟩⟩

end Sys2Proof.Machine
end

section
/-!
What a message of firmware leaves (R401, R402, R417).
-/

namespace Sys2Proof.Machine

/-! ## What a message of firmware leaves

A message that firmware sends may find any receiver that the image binds to its channel: a function, whose vector it raises, or a Set, whose
threads it may wake, so that one of them is killed and its item fails. -/

/-- The device without what a message may touch. -/
def Dev.outsideMail (d : Dev) : Dev :=
  { d with
    power := {}, links := {}, funcs := {}, chans := {}, routes := {}, rings := {}, items := {}, epilogues := {}, failures := [], macCounts := {},
    sites := {}, stp := {}, keep := {}, regs := {}, out := [] }

/-- The registers that no message touches: those below the Ledger's, and those from above them to the Sets'. -/
def mailSafe (k : Nat) : Prop := k < 0x21 * 2 ^ 46 ∨ (0x22 * 2 ^ 46 ≤ k ∧ k < 0x41 * 2 ^ 46)

/-- What every message leaves. -/
structure Dev.mailed (d e : Dev) : Prop where
  frame : e.outsideMail = d.outsideMail
  fns : ∀ n, ∃ v o, e.fn n = { d.fn n with vecs := v, outbox := o }
  links : ∀ n, ∃ p, e.link n = { d.link n with posted := p }
  rings : ∀ r, ∃ w h, e.ring? r = (d.ring? r).map (fun g => { g with waiting := w, heldBytes := h })
  regs : d.regsSame mailSafe e
  out : d.out <+: e.out

theorem mailSafe_not_above (f : Field) (i a : Nat) (h : 0x41 ≤ f.unit) : ¬ mailSafe (f.key i a) := by
  simp only [mailSafe, Field.key]
  omega

theorem mailSafe_not_ledger (f : Field) (hunit : f.unit = 0x21) (hoff : f.off < 33554432) (hlsb : f.lsb < 32) : ¬ mailSafe (f.key 0 0) := by
  simp only [mailSafe, Field.key, hunit]
  omega

theorem mailSafe_low (f : Field) (i a : Nat) (hunit : f.unit < 0x21) (hi : i < 65536) (hoff : f.off + a < 33554432) (hlsb : f.lsb < 32) :
    mailSafe (f.key i a) := by
  simp only [mailSafe, Field.key]
  omega

namespace Dev.mailed

theorem refl (d : Dev) : d.mailed d :=
  ⟨rfl, fun _ => ⟨_, _, rfl⟩, fun _ => ⟨_, rfl⟩, fun r => by
    cases hr : d.ring? r with
    | none => exact ⟨[], 0, rfl⟩
    | some g => exact ⟨g.waiting, g.heldBytes, rfl⟩, d.regsSame_refl, List.prefix_rfl⟩

theorem trans {c d e : Dev} (h : c.mailed d) (h' : d.mailed e) : c.mailed e where
  frame := h'.frame.trans h.frame
  fns n := by
    obtain ⟨v, o, hn⟩ := h.fns n
    obtain ⟨v', o', hn'⟩ := h'.fns n
    exact ⟨v', o', by rw [hn', hn]⟩
  links n := by
    obtain ⟨p, hn⟩ := h.links n
    obtain ⟨p', hn'⟩ := h'.links n
    exact ⟨p', by rw [hn', hn]⟩
  rings r := by
    obtain ⟨w, b, hr⟩ := h.rings r
    obtain ⟨w', b', hr'⟩ := h'.rings r
    exact ⟨w', b', by rw [hr', hr, Option.map_map]; rfl⟩
  regs := h.regs.trans h'.regs
  out := h.out.trans h'.out

/-- A step that leaves functions, links, rings and registers as they are and puts nothing out. -/
theorem of_same {d e : Dev} (hframe : e.outsideMail = d.outsideMail) (hfuncs : e.funcs = d.funcs) (hlinks : e.links = d.links)
    (hrings : e.rings = d.rings) (hregs : e.regs = d.regs) (hout : e.out = d.out) : d.mailed e where
  frame := hframe
  fns n := ⟨_, _, Dev.fn_congr hfuncs n⟩
  links n := ⟨_, Dev.link_congr hlinks n⟩
  rings r := by
    obtain ⟨w, b, h⟩ := (refl d).rings r
    exact ⟨w, b, by rw [← h, Dev.ring?, Dev.ring?, hrings]⟩
  regs := Dev.regsSame_of_regs hregs
  out := by rw [hout]

theorem each {α : Type} {l : List α} {f : α → Dev → Dev} (d : Dev) (hf : ∀ a e, Dev.mailed e (f a e)) : d.mailed (Dev.each l f d) :=
  Dev.each_induct (fun x => d.mailed x) l f d (refl d) (fun a e he => he.trans (hf a e))

theorem wr (d : Dev) (f : Field) (v i a : Nat) (hf : ¬ mailSafe (f.key i a)) : d.mailed (d.wr f v i a) where
  frame := rfl
  fns _ := ⟨_, _, rfl⟩
  links _ := ⟨_, rfl⟩
  rings := (refl d).rings
  regs := d.regsSame_refl.wr f v i a hf
  out := List.prefix_rfl

theorem bump (d : Dev) (f : Field) (i a n : Nat) (hf : ¬ mailSafe (f.key i a)) : d.mailed (d.bump f i a n) := wr d f _ i a hf

theorem raise (d : Dev) (src : Nat) (fresh : Bool) : d.mailed (d.raise src fresh) := by
  obtain ⟨r, o, h⟩ := d.raise_changes src fresh
  rw [h]
  exact ⟨rfl, fun _ => ⟨_, _, rfl⟩, fun _ => ⟨_, rfl⟩, (refl d).rings, d.regsSame_refl, List.prefix_append ..⟩

theorem cause (d : Dev) (c : Causes) (b i : Nat) (hf : ¬ mailSafe ((c.bit b).key i 0)) : d.mailed (d.cause c b i) := by
  unfold Dev.cause
  split
  · exact refl d
  · dsimp only
    split
    · exact (wr d _ _ _ _ hf).trans (raise ..)
    · exact wr d _ _ _ _ hf

theorem sendMessage (d : Dev) (fn v : Nat) : d.mailed (d.sendMessage fn v) := by
  unfold Dev.sendMessage
  dsimp only
  split
  · refine ⟨rfl, fun _ => ⟨_, _, rfl⟩, fun n => ?_, (refl d).rings, d.regsSame_refl, List.prefix_rfl⟩
    by_cases hn : n = d.linkOf fn
    · subst hn
      exact ⟨_, Dev.link_onLink_self ..⟩
    · exact ⟨_, Dev.link_onLink_ne _ _ hn⟩
  · exact ⟨rfl, fun _ => ⟨_, _, rfl⟩, fun _ => ⟨_, rfl⟩, (refl d).rings, d.regsSame_refl, List.prefix_append ..⟩

/-- Only what a function's vectors or its outbox hold changes. -/
theorem onFn (d : Dev) (fn : Nat) (f : Func → Func) (hf : ∀ x, ∃ v o, f x = { x with vecs := v, outbox := o }) : d.mailed (d.onFn fn f) := by
  refine ⟨rfl, fun n => ?_, fun _ => ⟨_, rfl⟩, (refl d).rings, d.regsSame_refl, List.prefix_rfl⟩
  by_cases hn : n = fn
  · subst hn
    rw [Dev.fn_onFn_self]
    exact hf _
  · rw [Dev.fn_onFn_ne _ _ hn]
    exact ⟨_, _, rfl⟩

theorem sendVector (d : Dev) (fn v : Nat) : d.mailed (d.sendVector fn v) := by
  unfold Dev.sendVector
  split
  · exact refl d
  · split
    · exact onFn d fn _ fun x => ⟨_, _, rfl⟩
    · exact sendMessage d fn v

/-- Only the waiting list and the held bytes of a ring change. -/
theorem onRing (d : Dev) (r : Nat) (f : Ring → Ring) (hf : ∀ g, ∃ w h, f g = { g with waiting := w, heldBytes := h }) : d.mailed (d.onRing r f) := by
  refine ⟨rfl, fun _ => ⟨_, _, rfl⟩, fun _ => ⟨_, rfl⟩, fun q => ?_, d.regsSame_refl, List.prefix_rfl⟩
  rw [Dev.ring?, Dev.onRing, NMap.get?_modify]
  split
  · next hq =>
    rw [hq, ← Dev.ring?]
    cases hr : d.ring? r with
    | none => exact ⟨[], 0, rfl⟩
    | some g =>
      obtain ⟨w, b, hg⟩ := hf g
      exact ⟨w, b, congrArg some hg⟩
  · exact (refl d).rings q

/-! ### Items that fail -/

theorem releaseHeld (it : Item) (d : Dev) : d.mailed (d.releaseHeld it) := by
  unfold Dev.releaseHeld
  split
  · exact onRing d _ _ fun g => ⟨_, _, rfl⟩
  · exact refl d

theorem leaveWaiting (i : Nat) (it : Item) (d : Dev) : d.mailed (d.leaveWaiting i it) := by
  unfold Dev.leaveWaiting
  split
  · exact (releaseHeld it d).trans (onRing _ _ _ fun g => ⟨_, _, rfl⟩)
  · exact refl d

theorem onItem (d : Dev) (i : Nat) (f : Item → Item) : d.mailed (d.onItem i f) := of_same rfl rfl rfl rfl rfl rfl

theorem dropItem (i : Nat) (d : Dev) : d.mailed (d.dropItem i) := of_same rfl rfl rfl rfl rfl rfl

theorem countMac (d : Dev) (m c n : Nat) : d.mailed (d.countMac m c n) := of_same rfl rfl rfl rfl rfl rfl

theorem countEpilogue (fn : Nat) (f : Epilogue → Epilogue) (d : Dev) : d.mailed (d.countEpilogue fn f) := by
  unfold Dev.countEpilogue
  split
  · exact of_same rfl rfl rfl rfl rfl rfl
  · exact refl d

theorem logFailure (x : Failure) (d : Dev) : d.mailed (d.logFailure x) := by
  unfold Dev.logFailure
  split
  · exact of_same rfl rfl rfl rfl rfl rfl
  · exact (bump d _ _ _ _ (mailSafe_not_ledger _ rfl (by decide) (by decide))).trans
      (cause _ _ _ _ (mailSafe_not_ledger _ rfl (by decide) (by decide)))

theorem failItem (i reason : Nat) (d : Dev) : d.mailed (d.failItem i reason) := by
  unfold Dev.failItem
  split
  · exact refl d
  · split
    · exact refl d
    · extract_lets onPort waits src d₁ d₂ d₃ d₄
      have h₁ : d.mailed d₁ := by
        refine Dev.mailed.trans ?_ (onItem ..)
        split
        · exact releaseHeld ..
        · exact leaveWaiting ..
      have h₂ : d.mailed d₂ := (h₁.trans (bump _ _ _ _ _ (mailSafe_not_ledger _ rfl (by decide) (by decide)))).trans
        (cause _ _ _ _ (mailSafe_not_ledger _ rfl (by decide) (by decide)))
      have h₄ : d.mailed d₄ := (h₂.trans (logFailure ..)).trans (countEpilogue ..)
      clear_value d₄
      split
      · exact ((h₄.trans (countMac ..)).trans (cause _ _ _ _ (mailSafe_not_above _ _ _ (by decide)))).trans (dropItem ..)
      · exact h₄.trans (onItem ..)

/-! ### Threads that wake -/

theorem onSite (d : Dev) (p : Nat) (f : SetSite → SetSite) : d.mailed (d.onSite p f) := of_same rfl rfl rfl rfl rfl rfl

theorem onThread (d : Dev) (p t : Nat) (f : Thread → Thread) : d.mailed (d.onThread p t f) := onSite ..

theorem onSetChan (d : Dev) (p c : Nat) (f : SetChan → SetChan) : d.mailed (d.onSetChan p c f) := onSite ..

theorem abandonChan (p c : Nat) (d : Dev) : d.mailed (d.abandonChan p c) :=
  (wr d _ _ _ _ (mailSafe_not_above _ _ _ (by decide))).trans (cause _ _ _ _ (mailSafe_not_above _ _ _ (by decide)))

theorem stageEmptied (p c : Nat) (d : Dev) : d.mailed (d.stageEmptied p c) := by
  unfold Dev.stageEmptied
  split
  · exact onSite ..
  · exact refl d

theorem releaseChannels (p t : Nat) (d : Dev) : d.mailed (d.releaseChannels p t) := by
  unfold Dev.releaseChannels
  extract_lets th d₁ d₂
  have h₁ : d.mailed d₁ := by
    show d.mailed (match th.sendChan with | some c => _ | none => d)
    split
    · exact (onSetChan ..).trans (abandonChan ..)
    · exact refl d
  have h₂ : d₁.mailed d₂ := by
    show d₁.mailed (match th.readChan with | some (c, m) => _ | none => d₁)
    split
    · exact ((onSetChan ..).trans (stageEmptied ..)).trans (abandonChan ..)
    · exact refl d₁
  exact (h₁.trans h₂).trans (onThread ..)

theorem pushFault (p thread code pc : Nat) (d : Dev) : d.mailed (d.pushFault p thread code pc) := by
  unfold Dev.pushFault
  split
  · exact onSite ..
  · exact bump _ _ _ _ _ (mailSafe_not_above _ _ _ (by decide))

theorem threadFault (p t code : Nat) (d : Dev) : d.mailed (d.threadFault p t code) := by
  unfold Dev.threadFault
  extract_lets th d₁ d₂ d₃ d₄
  have h₁ : d.mailed d₁ := releaseChannels ..
  have h₂ : d₁.mailed d₂ := by
    show d₁.mailed (match th.item with | some i => _ | none => d₁)
    split
    · exact failItem ..
    · exact refl d₁
  have h₄ : d.mailed d₄ := ((h₁.trans h₂).trans (onThread ..)).trans (pushFault ..)
  exact (h₄.trans (bump _ _ _ _ _ (mailSafe_not_above _ _ _ (by decide)))).trans (cause _ _ _ _ (mailSafe_not_above _ _ _ (by decide)))

theorem takeEvent (p t : Nat) (d : Dev) : d.mailed (d.takeEvent p t) := by
  unfold Dev.takeEvent
  dsimp only
  split
  · exact threadFault ..
  · split
    · exact (onThread ..).trans (cause _ _ _ _ (mailSafe_not_above _ _ _ (by decide)))
    · exact refl d

theorem makeReady (p t : Nat) (f : Thread → Thread) (d : Dev) : d.mailed (d.makeReady p t f) := by
  unfold Dev.makeReady
  dsimp only
  refine Dev.mailed.trans ?_ (onThread ..)
  split
  · exact refl d
  · exact onSite ..

theorem endWait (p t : Nat) (timedOut broken : Bool) (d : Dev) : d.mailed (d.endWait p t timedOut broken) := by
  unfold Dev.endWait
  split
  · exact refl d
  · extract_lets won d₁ d₂
    refine (Dev.mailed.trans ?_ (makeReady ..)).trans (takeEvent ..)
    show d.mailed (if _ then _ else if _ then _ else d)
    split
    · exact (onSetChan ..).trans (onThread ..)
    · split
      · split
        · exact (onSetChan ..).trans (onThread ..)
        · exact refl d
      · exact refl d

theorem settleThread (p t : Nat) (d : Dev) : d.mailed (d.settleThread p t) := by
  unfold Dev.settleThread
  dsimp only
  split
  · split
    · exact endWait ..
    · exact refl d
  · exact refl d

theorem settle (p : Nat) (d : Dev) : d.mailed (d.settle p) := each d fun _ _ => settleThread ..

theorem settleMail (mid : Nat) (d : Dev) : d.mailed (d.settleMail mid) := by
  unfold Dev.settleMail
  split
  · exact settle ..
  · exact refl d

/-! ### Channels -/

theorem wake (n : Nat) (d : Dev) : d.mailed (d.wake n) := by
  unfold Dev.wake
  split
  · exact refl d
  · extract_lets l
    clear_value l
    exact (of_same rfl rfl rfl rfl rfl rfl : d.mailed { d with power := { d.power with waking := l } }).trans (raise ..)

theorem announceArrival (c : Nat) (d : Dev) : d.mailed (d.announceArrival c) := by
  unfold Dev.announceArrival
  split
  · exact refl d
  · extract_lets d₁
    have h₁ : d.mailed d₁ := by
      show d.mailed (if _ then _ else if _ then _ else if _ then _ else _)
      split
      · split
        · exact sendVector ..
        · exact refl d
      · split
        · exact raise ..
        · split
          · exact raise ..
          · exact settleMail ..
    clear_value d₁
    split
    · split
      · exact h₁
      · exact (h₁.trans (wake ..)).trans (cause _ _ _ _ (mailSafe_not_above _ _ _ (by decide)))
    · exact h₁

theorem acknowledge (c code seq : Nat) (d : Dev) : d.mailed (d.acknowledge c code seq) := by
  unfold Dev.acknowledge
  extract_lets a d₁
  have h₁ : d.mailed d₁ := ((wr d _ _ _ _ (mailSafe_not_above _ _ _ (by decide))).trans (wr _ _ _ _ _ (mailSafe_not_above _ _ _ (by decide)))).trans
    (wr _ _ _ _ _ (mailSafe_not_above _ _ _ (by decide)))
  clear_value d₁
  split
  · split
    · split
      · exact h₁.trans (of_same rfl rfl rfl rfl rfl rfl)
      · exact h₁
    · split
      · exact h₁.trans (sendVector ..)
      · exact h₁
  · exact h₁

theorem setFull (c : Nat) (v : Bool) (d : Dev) : d.mailed (d.setFull c v) :=
  (wr d _ _ _ _ (mailSafe_not_above _ _ _ (by decide))).trans (wr _ _ _ _ _ (mailSafe_not_above _ _ _ (by decide)))

theorem onChan (d : Dev) (c : Nat) (f : Chan → Chan) : d.mailed (d.onChan c f) := of_same rfl rfl rfl rfl rfl rfl

theorem post (c : Nat) (words : List Nat) (len : Nat) (d : Dev) : d.mailed (d.post c words len) := by
  unfold Dev.post
  extract_lets a seq d₁ d₂ d₃ d₄ d₅
  have h₁ : d.mailed d₁ := wr d _ _ _ _ (mailSafe_not_above _ _ _ (by decide))
  have h₃ : d₁.mailed d₃ := (((wr d₁ _ _ _ _ (mailSafe_not_above _ _ _ (by decide))).trans
    (wr _ _ _ _ _ (mailSafe_not_above _ _ _ (by decide)))).trans (bump _ _ _ _ _ (mailSafe_not_above _ _ _ (by decide)))).trans
    (wr _ _ _ _ _ (mailSafe_not_above _ _ _ (by decide)))
  have h₄ : d₁.mailed d₄ := by
    show d₁.mailed (match (d₁.chan c).held with | none => d₁ | some m => _)
    split
    · exact refl d₁
    · exact (h₃.trans (acknowledge ..)).trans (cause _ _ _ _ (mailSafe_not_above _ _ _ (by decide)))
  split
  · exact refl d
  · split
    · exact h₁.trans (acknowledge ..)
    · exact (((h₁.trans h₄).trans (onChan ..)).trans (setFull ..)).trans (announceArrival ..)

theorem sendNext (fn : Nat) (d : Dev) : d.mailed (d.sendNext fn) := by
  unfold Dev.sendNext
  extract_lets c
  split
  · exact refl d
  · split
    · exact refl d
    · exact (onFn d fn _ fun x => ⟨_, _, rfl⟩).trans (post ..)

theorem sendTo (fn : Nat) (words : List Nat) (d : Dev) : d.mailed (d.sendTo fn words) := by
  unfold Dev.sendTo
  split
  · exact (onFn d fn _ fun x => ⟨_, _, rfl⟩).trans (sendNext ..)
  · exact refl d

theorem tell (fn : Nat) (words : List Nat) (d : Dev) : d.mailed (d.tell fn words) := by
  unfold Dev.tell
  split
  · exact refl d
  · exact sendTo ..

end Dev.mailed

end Sys2Proof.Machine
end

section
/-!
Doorbells (R83, R137, R138, R149).
-/

namespace Sys2Proof.Machine

/-! ## What an operation leaves of the rings -/

theorem Dev.ring?_congr {d e : Dev} (h : e.rings = d.rings) (r : Nat) : e.ring? r = d.ring? r := by rw [Dev.ring?, Dev.ring?, h]

theorem Dev.ring?_onRing_self {d : Dev} {r : Nat} {g : Ring} (h : d.ring? r = some g) (f : Ring → Ring) : (d.onRing r f).ring? r = some (f g) := by
  rw [Dev.ring?, Dev.onRing, NMap.get?_modify, if_pos rfl, ← Dev.ring?, h]
  rfl

/-- A context that is cached changes nothing; another one is counted as a miss and cached. -/
theorem Dev.useContext_changes (r : Nat) (d : Dev) :
    d.useContext r = d ∨ ∃ c n, d.useContext r = ({ d with ctxCache := c, freeCtr := n } : Dev).bump R.QMG_CACHE_MISSES_count := by
  unfold Dev.useContext
  split
  · exact .inl rfl
  · by_cases hfull : 65536 ≤ d.ctxCache.length
    · simp only [if_pos hfull]
      exact .inr ⟨_, _, rfl⟩
    · simp only [if_neg hfull]
      exact .inr ⟨_, _, rfl⟩

theorem Dev.useContext_rings (r : Nat) (d : Dev) : (d.useContext r).rings = d.rings := by
  rcases d.useContext_changes r with h | ⟨c, n, h⟩ <;> rw [h]
  rfl

theorem Dev.hostRead_rings (fn addr len : Nat) (a : Attr) (why : Nat → Nat → ReadFor) (d : Dev) : (d.hostRead fn addr len a why).rings = d.rings :=
  Dev.rings_of_besides (Dev.hostRead_besides fn addr len a why d (List.Subset.refl _))

theorem Dev.issueFetch_ring {d : Dev} {r : Nat} {g : Ring} (h : d.ring? r = some g) (x : Ring) (n : Nat) :
    ∃ f, (d.issueFetch r x n).ring? r = some { g with fetchPos := f } := by
  unfold Dev.issueFetch
  extract_lets runs e
  refine ⟨_, (Dev.ring?_congr (d := e) ?_ r).trans (Dev.ring?_onRing_self h _)⟩
  exact Dev.each_keeps (P := fun x => x.rings = e.rings) (fun p _ x hx => (Dev.hostRead_rings ..).trans hx) rfl

/-- A read of descriptors moves the ring's fetch position and nothing else of it. -/
theorem Dev.fetch_ring {d : Dev} {r : Nat} {g : Ring} (h : d.ring? r = some g) : ∃ f, (d.fetch r).ring? r = some { g with fetchPos := f } := by
  unfold Dev.fetch
  rw [h]
  dsimp only
  split
  · exact ⟨_, h⟩
  · split
    · exact issueFetch_ring h g _
    · split
      · exact ⟨_, h⟩
      · split
        · exact ⟨_, h⟩
        · exact issueFetch_ring h g _

/-! ## A ring in its error state (R149) -/

theorem Dev.pushRingError_rings (r c : Nat) (d : Dev) : (d.pushRingError r c).rings = d.rings := by
  unfold Dev.pushRingError
  split
  · rfl
  · obtain ⟨_, _, _, _, h⟩ := (d.bump R.QMG_ERR_DROPPED_dropped).cause_changes qmgCauses 1 0
    rw [h]
    rfl

theorem Dev.rd_pushRingError (r c : Nat) (d : Dev) {f : Field} (hdrop : f.key 0 0 ≠ R.QMG_ERR_DROPPED_dropped.key 0 0)
    (hcause : f.key 0 0 ≠ (qmgCauses.bit 1).key 0 0) : (d.pushRingError r c).rd f = d.rd f := by
  unfold Dev.pushRingError
  split
  · rfl
  · rw [Dev.rd_cause_at _ _ _ _ _ hcause, Dev.rd_bump_at _ _ _ _ _ _ hdrop]

theorem Dev.cause_rings (d : Dev) (c : Causes) (b i : Nat) : (d.cause c b i).rings = d.rings :=
  Dev.rings_of_besides (Dev.cause_besides d c b i (List.Subset.refl _))

section
variable {d : Dev} {r c : Nat} {g : Ring} (h : d.ring? r = some g) (hstate : g.state ≠ .error)
include h hstate

theorem Dev.ringError_ring : ∃ w b, (d.ringError r c).ring? r =
    some { g with state := .error, errorCause := c, landed := {}, waiting := w, heldBytes := b } := by
  unfold Dev.ringError
  rw [h]
  dsimp only
  rw [if_neg hstate]
  obtain ⟨w, b, hring⟩ := (Dev.mailed.tell g.fn [0x46, r, c] (((((d.killFetches r).onRing r
    (fun g => { g with state := .error, errorCause := c, landed := {} })).pushRingError r c).cause qmgCauses 0))).rings r
  have hkill : (d.killFetches r).ring? r = some g := h
  refine ⟨w, b, hring.trans ?_⟩
  rw [Dev.ring?_congr (Dev.cause_rings ..), Dev.ring?_congr (Dev.pushRingError_rings ..), Dev.ring?_onRing_self hkill]
  rfl

theorem Dev.rd_ringError {f : Field} (hunit : f.unit < 0x21) (hoff : f.off < 33554432) (hlsb : f.lsb < 32)
    (hdrop : f.key 0 0 ≠ R.QMG_ERR_DROPPED_dropped.key 0 0) (hone : f.key 0 0 ≠ (qmgCauses.bit 1).key 0 0)
    (hzero : f.key 0 0 ≠ (qmgCauses.bit 0).key 0 0) : (d.ringError r c).rd f = d.rd f := by
  unfold Dev.ringError
  rw [h]
  dsimp only
  rw [if_neg hstate, (Dev.mailed.tell ..).regs.rd (mailSafe_low f 0 0 hunit (by decide) hoff hlsb), Dev.rd_cause_at _ _ _ _ _ hzero,
    Dev.rd_pushRingError _ _ _ hdrop hone]
  rfl

end

/-! ## Producer values (R138) -/

theorem exec_doorbellProducerWrite_open {s : State} {fn : Nat} (h : s.dev.phase = .running) (hheld : s.dev.withholds fn = false) (page slot v : Nat) :
    exec (.doorbellProducerWrite fn page slot v) s = .next { s with dev := s.dev.producerWrite fn page slot v } := by
  show execDoorbellProducerWrite fn page slot v s = _
  rw [execDoorbellProducerWrite, State.onDev_next, Dev.doorbellArrives, hheld, h]
  rfl

section
variable {d : Dev} {r v : Nat} {g : Ring} (h : d.ring? r = some g)
include h

theorem Dev.actProducer_taken (hv : v < g.size) (hproducer : g.producer < g.size) (hroom :
    (v + g.size - g.producer) % g.size + g.outstanding < g.size) :
    ∃ f, (d.actProducer r v).ring? r = some { g with producer := v, fetchPos := f } := by
  unfold Dev.actProducer
  rw [h]
  dsimp only
  rw [if_neg (Nat.not_le.2 hv)]
  split
  · next hstands =>
    have hsame : g.producer = v := by
      have hcase : v + g.size - g.producer = g.size - g.producer + v := by omega
      by_cases hle : g.producer ≤ v
      · rw [show v + g.size - g.producer = v - g.producer + g.size by omega, Nat.add_mod_right, Nat.mod_eq_of_lt (by omega)] at hstands
        omega
      · rw [Nat.mod_eq_of_lt (by omega)] at hstands
        omega
    exact ⟨g.fetchPos, by rw [h, ← hsame]⟩
  · rw [if_neg (by omega)]
    exact Dev.fetch_ring (Dev.ring?_onRing_self h _)

theorem Dev.actProducer_overrun (hv : v < g.size) (hout : g.outstanding < g.size)
    (hfull : g.size ≤ (v + g.size - g.producer) % g.size + g.outstanding) :
    d.actProducer r v = (d.ringError r 2).bump R.QMG_DB_OVERRUNS_count := by
  unfold Dev.actProducer
  rw [h]
  dsimp only
  rw [if_neg (Nat.not_le.2 hv), if_neg (by omega), if_pos (by omega)]

theorem Dev.actProducer_outside (hv : g.size ≤ v) : d.actProducer r v = d.ringError r 3 := by
  unfold Dev.actProducer
  rw [h]
  exact if_pos hv

end

section
variable {fn page slot r : Nat} {g : Ring} {s : State} (h : s.dev.phase = .running) (hopen : s.dev.doorbellOpen fn = true)
  (hheld : s.dev.withholds fn = false) (hring : s.dev.doorbellRing fn page slot = some r) (hget : s.dev.ring? r = some g)
  (hkind : g.kind ≠ 3) (hstate : g.state = .enabled) (hstopping : g.stopping = false)

/-- The context is in use, and the slot shows the value. -/
def Dev.slotWritten (r v : Nat) (d : Dev) : Dev := (d.useContext r).onRing r (fun g => { g with slotProducer := v % 65536 })

theorem Dev.slotWritten_ring {d : Dev} (hget : d.ring? r = some g) (v : Nat) :
    (d.slotWritten r v).ring? r = some { g with slotProducer := v % 65536 } :=
  Dev.ring?_onRing_self ((Dev.ring?_congr (Dev.useContext_rings ..) r).trans hget) _

theorem Dev.rd_slotWritten (d : Dev) (r v : Nat) {f : Field} (hf : f.key 0 0 ≠ R.QMG_CACHE_MISSES_count.key 0 0) :
    (d.slotWritten r v).rd f = d.rd f := by
  show (d.useContext r).rd f = d.rd f
  rcases d.useContext_changes r with h | ⟨c, n, h⟩ <;> rw [h]
  exact Dev.rd_bump_at _ _ _ _ _ _ hf

include h hopen hheld hring hget hkind hstate hstopping

theorem exec_doorbellProducerWrite_enabled (v : Nat) : exec (.doorbellProducerWrite fn page slot v) s =
    .next { s with dev := (s.dev.slotWritten r v).actProducer r v } := by
  rw [exec_doorbellProducerWrite_open h hheld, Dev.producerWrite, hopen, hring]
  dsimp only
  rw [hget]
  simp only [Bool.not_true, Bool.false_eq_true, if_false, hstate, hstopping, Bool.or_false, decide_eq_true_eq, hkind]
  rfl

theorem exec_doorbellProducerWrite_taken (hproducer : g.producer < g.size) (hsize : g.size ≤ 65536) {v : Nat} (hv : v < g.size)
    (hroom : (v + g.size - g.producer) % g.size + g.outstanding < g.size) :
    ∃ t k, exec (.doorbellProducerWrite fn page slot v) s = .next t ∧ t.dev.ring? r = some k ∧ k.producer = v ∧ k.slotProducer = v ∧
      k.state = .enabled := by
  obtain ⟨f, hf⟩ := Dev.actProducer_taken (Dev.slotWritten_ring hget v) hv hproducer hroom
  exact ⟨_, _, exec_doorbellProducerWrite_enabled h hopen hheld hring hget hkind hstate hstopping v, hf, rfl, Nat.mod_eq_of_lt (by omega), hstate⟩

theorem exec_doorbellProducerWrite_overrun {v : Nat} (hv : v < g.size) (hout : g.outstanding < g.size)
    (hfull : g.size ≤ (v + g.size - g.producer) % g.size + g.outstanding) :
    ∃ t k, exec (.doorbellProducerWrite fn page slot v) s = .next t ∧ t.dev.ring? r = some k ∧ k.producer = g.producer ∧
      k.state = .error ∧ k.errorCause = 2 ∧
      t.dev.rd R.QMG_DB_OVERRUNS_count = (s.dev.rd R.QMG_DB_OVERRUNS_count + 1) % 2 ^ R.QMG_DB_OVERRUNS_count.width := by
  have hslot := Dev.slotWritten_ring hget v
  have henabled : g.state ≠ .error := by rw [hstate]; decide
  obtain ⟨w, b, hring'⟩ := Dev.ringError_ring (c := 2) hslot henabled
  rw [exec_doorbellProducerWrite_enabled h hopen hheld hring hget hkind hstate hstopping v, Dev.actProducer_overrun hslot hv hout hfull]
  refine ⟨_, _, rfl, hring', rfl, rfl, rfl, ?_⟩
  rw [Dev.rd_bump_self, Dev.rd_ringError hslot henabled (by decide) (by decide) (by decide) (by decide) (by decide) (by decide),
      Dev.rd_slotWritten _ _ _ (by decide)]

theorem exec_doorbellProducerWrite_outside {v : Nat} (hv : g.size ≤ v) :
    ∃ t k, exec (.doorbellProducerWrite fn page slot v) s = .next t ∧ t.dev.ring? r = some k ∧ k.producer = g.producer ∧
      k.state = .error ∧ k.errorCause = 3 := by
  have hslot := Dev.slotWritten_ring hget v
  obtain ⟨w, b, hring'⟩ := Dev.ringError_ring (c := 3) hslot (by rw [hstate]; decide)
  rw [exec_doorbellProducerWrite_enabled h hopen hheld hring hget hkind hstate hstopping v, Dev.actProducer_outside hslot hv]
  exact ⟨_, _, rfl, hring', rfl, rfl, rfl⟩

end

/-! ## Doorbells that no ring takes (R83, R137) -/

theorem exec_doorbell_ignored {fn page slot : Nat} {s : State} (h : s.dev.phase = .running) (hheld : s.dev.withholds fn = false)
    (hopen : s.dev.doorbellOpen fn = true) (hring : s.dev.doorbellRing fn page slot = none) (v : Nat) (arm : Bool) :
    exec (.doorbellProducerWrite fn page slot v) s = .next { s with dev := s.dev.ignoreDoorbell } ∧
    exec (.doorbellCqHeadWrite fn page slot v arm) s = .next { s with dev := s.dev.ignoreDoorbell } ∧
    s.dev.ignoreDoorbell.rd R.QMG_DB_IGNORED_count = (s.dev.rd R.QMG_DB_IGNORED_count + 1) % 2 ^ R.QMG_DB_IGNORED_count.width ∧
    s.dev.ignoreDoorbell.on (qmgCauses.bit 2) = true ∧ s.dev.ignoreDoorbell.rings = s.dev.rings := by
  refine ⟨?_, ?_, ?_, Dev.cause_on .., Dev.cause_rings ..⟩
  · rw [exec_doorbellProducerWrite_open h hheld, Dev.producerWrite, hopen, hring]
    rfl
  · show execDoorbellCqHeadWrite fn page slot v arm s = _
    rw [execDoorbellCqHeadWrite, State.onDev_next, Dev.doorbellArrives, hheld, h]
    simp only [Bool.false_eq_true, if_false, if_true, Dev.doorbellWrite, one_ne_zero, Dev.headWrite, hopen, Bool.not_true, hring]
  · rw [Dev.ignoreDoorbell, Dev.rd_cause_at _ _ _ _ _ (by decide), Dev.rd_bump_self]

theorem exec_doorbell_logged {fn page slot v : Nat} {s : State} (h : s.dev.phase = .serviceReset) (hheld : s.dev.withholds fn = false) :
    ∃ t, exec (.doorbellProducerWrite fn page slot v) s = .next t ∧
      (if s.dev.boot.log.length < 65536 then t.dev.boot.log = s.dev.boot.log ++ [(fn, page, slot, 0, v)]
       else t.dev.boot.withheld = s.dev.boot.withheld ++ [.doorbell fn page slot 0 v] ∧ t.dev.withholds fn = true) ∧
      t = { s with dev := { s.dev with boot := t.dev.boot } } := by
  have hexec : exec (.doorbellProducerWrite fn page slot v) s = .next { s with dev := s.dev.logDoorbell fn page slot 0 v } := by
    show execDoorbellProducerWrite fn page slot v s = _
    rw [execDoorbellProducerWrite, State.onDev_next, Dev.doorbellArrives, hheld, h]
    rfl
  refine ⟨_, hexec, ?_⟩
  unfold Dev.logDoorbell
  split
  · exact ⟨rfl, rfl⟩
  · exact ⟨⟨rfl, List.contains_iff_mem.2 List.mem_cons_self⟩, rfl⟩

theorem exec_doorbell_withheld {fn page slot v : Nat} {s : State} (hheld : s.dev.withholds fn = true) :
    ∃ t, exec (.doorbellProducerWrite fn page slot v) s = .next t ∧
      t.dev.boot.withheld = s.dev.boot.withheld ++ [.doorbell fn page slot 0 v] ∧ t = { s with dev := { s.dev with boot := t.dev.boot } } := by
  refine ⟨_, (State.onDev_next .. : execDoorbellProducerWrite fn page slot v s = _), ?_⟩
  rw [Dev.doorbellArrives, if_pos hheld]
  exact ⟨rfl, rfl⟩

/-- Settles O26. -/
theorem doorbells : Obligations.Doorbells :=
  ⟨fun _ _ _ _ _ _ _ h hopen _ hheld _ hring hget hkind hstate hstopping hproducer hsize =>
      ⟨exec_doorbellProducerWrite_taken h hopen hheld hring hget hkind hstate hstopping hproducer hsize,
        fun hv hout hfull _ => exec_doorbellProducerWrite_overrun h hopen hheld hring hget hkind hstate hstopping hv hout hfull,
        exec_doorbellProducerWrite_outside h hopen hheld hring hget hkind hstate hstopping⟩,
    fun _ _ _ v arm _ => ⟨fun h hheld hopen hring => exec_doorbell_ignored h hheld hopen hring v arm, exec_doorbell_logged, exec_doorbell_withheld⟩⟩

end Sys2Proof.Machine
end

section
/-!
Completions of rings and their interrupts (R143-R145).
-/

namespace Sys2Proof.Machine

/-! ## Interrupts of a ring (R145) -/

/-- What a vector puts out goes by functions and links, not by rings. -/
theorem Dev.sendVector_out_onRing (d : Dev) (r : Nat) (f : Ring → Ring) (fn v : Nat) : ((d.onRing r f).sendVector fn v).out =
    (d.sendVector fn v).out := by
  unfold Dev.sendVector Dev.sendMessage
  simp only [apply_ite Dev.out]
  rfl

theorem Dev.sendVector_rings (d : Dev) (fn v : Nat) : (d.sendVector fn v).rings = d.rings := by
  obtain ⟨_, _, _, h⟩ := d.sendVector_changes fn v
  rw [h]

theorem Dev.sendVector_regs (d : Dev) (fn v : Nat) : (d.sendVector fn v).regs = d.regs := by
  obtain ⟨_, _, _, h⟩ := d.sendVector_changes fn v
  rw [h]

/-- A ring that came to stand as `h` raises its vector where it is armed and due. -/
theorem Dev.checkIrq_onRing {d : Dev} {r : Nat} {g : Ring} (h : d.ring? r = some g) (f : Ring → Ring) :
    ((d.onRing r f).checkIrq r).ring? r = some (f g).afterIrq ∧ ((d.onRing r f).checkIrq r).out = d.outAfterIrq (f g) ∧
      ((d.onRing r f).checkIrq r).regs = d.regs := by
  have hring := Dev.ring?_onRing_self h f
  unfold Dev.checkIrq Ring.afterIrq Dev.outAfterIrq
  rw [hring]
  dsimp only
  split
  · refine ⟨?_, ?_, Dev.sendVector_regs ..⟩
    · rw [Dev.ring?_congr (Dev.sendVector_rings ..), Dev.ring?_onRing_self hring]
    · rw [Dev.sendVector_out_onRing, Dev.sendVector_out_onRing]
  · exact ⟨hring, rfl, rfl⟩

theorem Dev.checkIrq_prefix (r : Nat) (d : Dev) : d.out <+: (d.checkIrq r).out := by
  unfold Dev.checkIrq
  split
  · split
    · rw [Dev.sendVector_out_onRing]
      exact (Dev.mailed.sendVector ..).out
    · exact List.prefix_rfl
  · exact List.prefix_rfl

section
variable {r : Nat} {g : Ring} {s : State} (h : s.dev.phase = .running) (hget : s.dev.ring? r = some g)
include h hget

theorem exec_doorbellCqHeadWrite_moves {fn page slot head : Nat} {arm : Bool} (hheld : s.dev.withholds fn = false)
    (hopen : s.dev.doorbellOpen fn = true) (hring : s.dev.doorbellRing fn page slot = some r) (hhead : head < 65536)
    (hcached : s.dev.ctxCache.contains r = true) :
    ∃ t, exec (.doorbellCqHeadWrite fn page slot head arm) s = .next t ∧ t.dev.ring? r = some (g.headMoved head arm).afterIrq ∧
      t.dev.out = s.dev.outAfterIrq (g.headMoved head arm) ∧ t.dev.regs = s.dev.regs := by
  have hvalue : (head % 65536 + 65536 * arm.toNat) % 65536 = head := by omega
  have harm : decide (65536 ≤ head % 65536 + 65536 * arm.toNat) = arm := by
    cases arm
    · exact decide_eq_false (by rw [Bool.toNat_false]; omega)
    · exact decide_eq_true (by rw [Bool.toNat_true]; omega)
  have hexec : exec (.doorbellCqHeadWrite fn page slot head arm) s =
      .next { s with dev := (s.dev.onRing r (fun g => g.headMoved head arm)).checkIrq r } := by
    show execDoorbellCqHeadWrite fn page slot head arm s = _
    rw [execDoorbellCqHeadWrite, State.onDev_next, Dev.doorbellArrives, hheld, h]
    simp only [Bool.false_eq_true, if_false, if_true, Dev.doorbellWrite, one_ne_zero, Dev.headWrite, hopen, Bool.not_true, hring, hget,
      Option.isNone_some, Dev.useContext, hcached, hvalue, harm]
    rfl
  exact ⟨_, hexec, Dev.checkIrq_onRing hget _⟩

theorem exec_irqTimeExpiry (htimer : g.timer = true) : ∃ t, exec (.irqTimeExpiry r) s = .next t ∧
    t.dev.ring? r = some { g with timer := false, expired := true }.afterIrq ∧
    t.dev.out = s.dev.outAfterIrq { g with timer := false, expired := true } ∧ t.dev.regs = s.dev.regs := by
  refine ⟨_, (State.onRun_running _ h : execIrqTimeExpiry r s = _), ?_⟩
  simp only [hget, htimer, if_true]
  exact Dev.checkIrq_onRing hget _

theorem exec_irqTimeExpiry_idle (htimer : g.timer = false) : exec (.irqTimeExpiry r) s = .next s := by
  refine (State.onRun_running _ h : execIrqTimeExpiry r s = _).trans ?_
  simp only [hget, htimer, Bool.false_eq_true, if_false]

end

/-! ## Writes to the host -/

/-- Is it a posted write of the function? -/
def Output.isWriteOf (fn : Nat) (x : Output) : Prop := ∃ a b c, x = Output.hostWrite fn a b c

theorem Dev.attrFor_ats {a : Attr} (h : a.ats = false) (d : Dev) (fn addr : Nat) : (d.attrFor fn addr a).ats = false := by
  unfold Dev.attrFor
  dsimp only
  split <;> simp only [h, Bool.false_and]

/-- A write that asks for no translation leaves at once where none of its function's waits. -/
theorem Dev.writePiece_atOnce {d : Dev} {fn : Nat} {a : Attr} (hats : a.ats = false) (hposted : d.postedOf fn = []) (addr : Nat) (data : List Byte) :
    d.writePiece fn addr data a = d.emit (.hostWrite fn addr data (d.attrFor fn addr a)) := by
  unfold Dev.writePiece Dev.resolve
  dsimp only
  rw [Dev.attrFor_ats hats, hposted]
  rfl

theorem Dev.writePieces_atOnce {fn : Nat} {a : Attr} (hats : a.ats = false) (addr : Nat) (data : List Byte) (l : List (Nat × Nat)) (d : Dev)
    (hposted : d.postedOf fn = []) :
    ∃ m, Dev.each l (fun p d => d.writePiece fn (addr + p.1) (sliceBytes data p.1 p.2) a) d = { d with out := d.out ++ m } ∧
      m.length = l.length ∧ ∀ x ∈ m, x.isWriteOf fn := by
  induction l generalizing d with
  | nil => exact ⟨[], by rw [List.append_nil]; rfl, rfl, fun x hx => absurd hx List.not_mem_nil⟩
  | cons p l ih =>
    obtain ⟨m, hm, hlen, hall⟩ := ih (d.emit (.hostWrite fn (addr + p.1) (sliceBytes data p.1 p.2) (d.attrFor fn (addr + p.1) a))) hposted
    refine ⟨.hostWrite fn (addr + p.1) (sliceBytes data p.1 p.2) (d.attrFor fn (addr + p.1) a) :: m, ?_, by rw [List.length_cons, hlen,
        List.length_cons],
      fun x hx => ?_⟩
    · refine (congrArg (Dev.each l _) (Dev.writePiece_atOnce hats hposted _ _)).trans (hm.trans ?_)
      simp only [Dev.emit, List.append_assoc, List.singleton_append]
    · rcases List.mem_cons.1 hx with rfl | hin
      · exact ⟨_, _, _, rfl⟩
      · exact hall x hin

theorem cutRequests_ne_nil {len : Nat} (h : 0 < len) (addr max : Nat) : cutRequests addr len max len 0 ≠ [] := by
  obtain ⟨n, rfl⟩ := Nat.exists_eq_succ_of_ne_zero (Nat.pos_iff_ne_zero.1 h)
  rw [cutRequests, if_neg (by omega)]
  exact List.cons_ne_nil _ _

/-- The bytes of a write leave at once where none of its function's waits. -/
theorem Dev.hostWrite_atOnce {d : Dev} {fn : Nat} {a : Attr} (hats : a.ats = false) (hposted : d.postedOf fn = []) (addr : Nat) {data : List Byte}
    (hdata : data ≠ []) :
    ∃ m, m ≠ [] ∧ (d.hostWrite fn addr data a).out = d.out ++ m ∧ ∀ x ∈ m, x.isWriteOf fn := by
  have hlinks : (d.leaveL1 (d.linkOf fn)).links = d.links := Dev.links_of_besides (Dev.leaveL1_besides _ d (List.Subset.refl _))
  have hlinkOf : (d.leaveL1 (d.linkOf fn)).linkOf fn = d.linkOf fn := Dev.linkOf_leaveL1 ..
  have hposted' : (d.leaveL1 (d.linkOf fn)).postedOf fn = [] := by
    rw [Dev.postedOf, hlinkOf, Dev.link_congr hlinks]
    exact hposted
  obtain ⟨m, hm, hlen, hall⟩ := Dev.writePieces_atOnce hats addr data (cutRequests addr data.length (d.fn fn).maxPayload data.length 0) _ hposted'
  refine ⟨m, fun hnil => ?_, ?_, hall⟩
  · rw [hnil, List.length_nil] at hlen
    exact cutRequests_ne_nil (List.length_pos_iff.2 hdata) addr _ (List.length_eq_zero_iff.1 hlen.symm)
  · refine (congrArg Dev.out hm).trans ?_
    rw [Dev.leaveL1_out]

theorem Dev.hostWrite_rings (fn addr : Nat) (data : List Byte) (a : Attr) (d : Dev) : (d.hostWrite fn addr data a).rings = d.rings :=
  Dev.rings_of_besides (Dev.hostWrite_besides fn addr data a d (List.Subset.refl _))

/-! ## Owed completions (R143, R144) -/

theorem Ring.batch_pos {g : Ring} {o : Owed} {l : List Owed} (howed : g.owed = o :: l) (hready : o.ready = true) : 1 ≤ g.batch ∧ g.batch ≤ 4 := by
  unfold Ring.batch
  rw [howed]
  dsimp only
  rw [if_pos hready]
  have htake := (List.takeWhile_sublist (fun p : Owed × Nat => p.1.ready && p.1.seq == o.seq + 1 + p.2)
    (l := (l.take (min 4 ((64 - o.seq % g.size * g.cplSize % 64) / g.cplSize) - 1)).zipIdx)).length_le
  rw [List.length_zipIdx, List.length_take] at htake
  omega

theorem Dev.useContext_out (r : Nat) (d : Dev) : (d.useContext r).out = d.out := by
  rcases d.useContext_changes r with h | ⟨c, n, h⟩ <;> rw [h]
  rfl

theorem Dev.useContext_links (r : Nat) (d : Dev) : (d.useContext r).links = d.links := by
  rcases d.useContext_changes r with h | ⟨c, n, h⟩ <;> rw [h]
  rfl

theorem Dev.useContext_boot (r : Nat) (d : Dev) : (d.useContext r).boot = d.boot := by
  rcases d.useContext_changes r with h | ⟨c, n, h⟩ <;> rw [h]
  rfl

theorem Dev.postedOf_useContext (r : Nat) (d : Dev) (fn : Nat) : (d.useContext r).postedOf fn = d.postedOf fn := by
  rw [Dev.postedOf, Dev.postedOf, Dev.linkOf_congr (Dev.useContext_boot ..), Dev.link_congr (Dev.useContext_links ..)]

/-- cpl_pos moves: what the ring owes stays, and what has left the device stays at the front of what leaves. -/
theorem Dev.advanceCpl_owed {d : Dev} {r : Nat} {g : Ring} (h : d.ring? r = some g) (n : Nat) :
    (∃ k, (d.advanceCpl r n).ring? r = some k ∧ k.owed = g.owed) ∧ d.out <+: (d.advanceCpl r n).out := by
  refine ⟨⟨_, (Dev.checkIrq_onRing h _).1, ?_⟩, Dev.checkIrq_prefix r (d.onRing r _)⟩
  unfold Ring.afterIrq
  simp only [apply_ite Ring.owed, ite_self]

section
variable {r : Nat} {g : Ring} {o : Owed} {l : List Owed} {s : State} (h : s.dev.phase = .running) (hget : s.dev.ring? r = some g)
  (howed : g.owed = o :: l)
include h hget howed

theorem exec_owedCompletionWrite_notReady (hready : o.ready = false) : exec (.owedCompletionWrite r) s = .next s := by
  refine (State.onRun_running _ h : execOwedCompletionWrite r s = _).trans ?_
  unfold Dev.writeOwed
  rw [hget]
  dsimp only
  rw [howed]
  dsimp only
  rw [hready, Bool.not_false, Bool.or_true, if_pos rfl]

/-- The device once the owed entries of a batch have left. -/
def Dev.batchWritten (r : Nat) (g : Ring) (o : Owed) (d : Dev) : Dev :=
  ((d.useContext r).onRing r (fun x => { x with owed := x.owed.drop g.batch })).hostWrite g.fn (g.cplBase + g.cplSize * (o.seq % g.size))
    ((g.owed.take g.batch).flatMap Owed.bytes) g.cplAttr

theorem exec_owedCompletionWrite_ready (hready : o.ready = true) (hissue : s.dev.canIssue g.fn = true) : exec (.owedCompletionWrite r) s =
    .next { s with dev := if g.kind = 3 then s.dev.batchWritten r g o else (s.dev.batchWritten r g o).advanceCpl r g.batch } := by
  refine (State.onRun_running _ h : execOwedCompletionWrite r s = _).trans ?_
  unfold Dev.writeOwed
  rw [hget]
  dsimp only
  split
  · next hnil => exact absurd (howed.symm.trans hnil) (List.cons_ne_nil _ _)
  · next x y hcons =>
    obtain ⟨rfl, rfl⟩ := List.cons.inj (howed.symm.trans hcons)
    rw [hready, hissue]
    rfl

theorem exec_owedCompletionWrite (hready : o.ready = true) (hbytes : o.bytes ≠ []) (hissue : s.dev.canIssue g.fn = true) (hats : g.ats = false)
    (hposted : s.dev.postedOf g.fn = []) :
    ∃ t k m, exec (.owedCompletionWrite r) s = .next t ∧ t.dev.ring? r = some k ∧ k.owed = g.owed.drop g.batch ∧ 1 ≤ g.batch ∧ g.batch ≤ 4 ∧
      m ≠ [] ∧ t.dev.out.take (s.dev.out.length + m.length) = s.dev.out ++ m ∧ ∀ x ∈ m, ∃ a b c, x = Output.hostWrite g.fn a b c := by
  obtain ⟨hlow, hhigh⟩ := Ring.batch_pos howed hready
  have hdata : (g.owed.take g.batch).flatMap Owed.bytes ≠ [] := by
    rw [howed, List.take_cons hlow, List.flatMap_cons]
    exact fun hnil => hbytes (List.append_eq_nil_iff.1 hnil).1
  obtain ⟨m, hm, hout, hall⟩ := Dev.hostWrite_atOnce (d := (s.dev.useContext r).onRing r
      (fun x => { x with owed := x.owed.drop g.batch })) (fn := g.fn)
    (a := g.cplAttr) hats ((Dev.postedOf_useContext ..).trans hposted) (g.cplBase + g.cplSize * (o.seq % g.size)) hdata
  have hwritten : (s.dev.batchWritten r g o).out = s.dev.out ++ m := hout.trans (by rw [Dev.onRing_out, Dev.useContext_out])
  have hring : (s.dev.batchWritten r g o).ring? r = some { g with owed := g.owed.drop g.batch } := by
    rw [Dev.batchWritten, Dev.ring?_congr (Dev.hostWrite_rings ..)]
    exact Dev.ring?_onRing_self ((Dev.ring?_congr (Dev.useContext_rings ..) r).trans hget) _
  rw [exec_owedCompletionWrite_ready h hget howed hready hissue]
  generalize s.dev.batchWritten r g o = d at *
  split
  · refine ⟨_, _, m, rfl, hring, rfl, hlow, hhigh, hm, ?_, hall⟩
    rw [← List.length_append, ← hwritten, List.take_length]
  · obtain ⟨⟨k, hk, howedk⟩, hprefix⟩ := Dev.advanceCpl_owed hring g.batch
    refine ⟨_, k, m, rfl, hk, howedk, hlow, hhigh, hm, ?_, hall⟩
    rw [← List.length_append, ← hwritten]
    exact (List.prefix_iff_eq_take.1 hprefix).symm

end

/-- Settles O27. -/
theorem ringCompletions : Obligations.RingCompletions :=
  ⟨fun _ _ _ h hget => ⟨fun _ _ _ _ _ => exec_doorbellCqHeadWrite_moves h hget, exec_irqTimeExpiry h hget, exec_irqTimeExpiry_idle h hget⟩,
    fun _ _ _ _ _ h hget howed => ⟨exec_owedCompletionWrite h hget howed, exec_owedCompletionWrite_notReady h hget howed⟩⟩

end Sys2Proof.Machine
end

section
/-!
Snapshots and error logs (R149, R152, R172, R290).
-/

namespace Sys2Proof.Machine

/-! ## Data windows -/

section
variable (f : Field) (i base : Nat) (v : Nat → Nat) (n : Nat)

/-- A window of `n` words takes the words `v`. -/
def Dev.fillWindow (d : Dev) : Dev := Dev.each (List.range n) (fun k d => d.wr f (v k) i (base + 4 * k)) d

theorem Dev.rd_fillWindow (d : Dev) {k : Nat} (hk : k < n) : (d.fillWindow f i base v n).rd f i (base + 4 * k) = v k % 2 ^ f.width := by
  unfold Dev.fillWindow
  refine Dev.each_reaches (Q := fun e => e.rd f i (base + 4 * k) = v k % 2 ^ f.width) (List.mem_range.2 hk) (fun e => Dev.rd_wr_self ..)
    (fun j _ e he => ?_) d
  by_cases hj : k = j
  · rw [hj]
    exact Dev.rd_wr_self ..
  · rw [Dev.rd_wr_ne _ _ _ _ _ _ _ _ (by simp only [Field.key]; omega), he]

theorem Dev.rd_fillWindow_ne (d : Dev) {g : Field} {j a : Nat} (h : ∀ k, k < n → g.key j a ≠ f.key i (base + 4 * k)) :
    (d.fillWindow f i base v n).rd g j a = d.rd g j a := by
  unfold Dev.fillWindow
  refine Dev.each_keeps (P := fun e => e.rd g j a = d.rd g j a) (fun k hk e he => ?_) rfl
  rw [Dev.rd_wr_ne _ _ _ _ _ _ _ _ (h k (List.mem_range.1 hk)), he]

/-- A window changes registers and the mark of K fields, nothing else. -/
theorem Dev.fillWindow_changes (d : Dev) : ∃ r k, d.fillWindow f i base v n = { d with regs := r, keep := k } := by
  unfold Dev.fillWindow
  refine Dev.each_keeps (P := fun e => ∃ r k, e = { d with regs := r, keep := k }) (fun _ _ e he => ?_) ⟨_, _, rfl⟩
  obtain ⟨r, k, rfl⟩ := he
  exact ⟨_, _, rfl⟩

end

/-! ## Snapshots of contexts (R152, R290) -/

/-- The fields of a snapshot unit: its data window and its status. -/
structure SnapFields where
  data : Field
  busy : Field
  valid : Field
  denied : Field
  words : Nat

/-- Do the fields lie apart, the data behind the status? -/
def SnapFields.ok (f : SnapFields) : Prop :=
  f.data.unit = f.busy.unit ∧ f.valid.unit = f.busy.unit ∧ f.denied.unit = f.busy.unit ∧ f.valid.off = f.busy.off ∧ f.denied.off = f.busy.off ∧
    f.busy.off < f.data.off ∧ f.data.lsb = 0 ∧ f.busy.lsb < 32 ∧ f.valid.lsb < 32 ∧ f.denied.lsb < 32 ∧ f.busy.lsb ≠ f.valid.lsb ∧
    f.busy.lsb ≠ f.denied.lsb ∧ f.valid.lsb ≠ f.denied.lsb ∧ f.valid.width = 1 ∧ f.denied.width = 1

/-- A snapshot lands. -/
def Dev.landSnap (f : SnapFields) (v : Nat → Nat) (ok : Bool) (d : Dev) : Dev :=
  (((d.fillWindow f.data 0 0 v f.words).wr f.busy 0).wr f.valid ok.toNat).wr f.denied (!ok).toNat

section
variable {f : SnapFields} (hf : f.ok) (v : Nat → Nat) (ok : Bool) (d : Dev)

theorem Dev.landSnap_changes (f : SnapFields) (v : Nat → Nat) (ok : Bool) (d : Dev) : ∃ r k, d.landSnap f v ok = { d with regs := r, keep := k } := by
  obtain ⟨r, k, h⟩ := d.fillWindow_changes f.data 0 0 v f.words
  rw [Dev.landSnap, h]
  exact ⟨_, _, rfl⟩

include hf

theorem Dev.landSnap_busy : (d.landSnap f v ok).rd f.busy = 0 := by
  obtain ⟨-, hvalid, hdenied, hvoff, hdoff, -, -, hb, hv, hd, hbv, hbd, -, -, -⟩ := hf
  rw [Dev.landSnap, Dev.rd_wr_ne _ _ _ _ _ _ _ _ (by simp only [Field.key]; omega), Dev.rd_wr_ne _ _ _ _ _ _ _ _ (by simp only [Field.key]; omega),
    Dev.rd_wr_self, Nat.zero_mod]

theorem Dev.landSnap_valid : (d.landSnap f v ok).rd f.valid = ok.toNat := by
  obtain ⟨-, hvalid, hdenied, hvoff, hdoff, -, -, hb, hv, hd, -, -, hvd, hwidth, -⟩ := hf
  rw [Dev.landSnap, Dev.rd_wr_ne _ _ _ _ _ _ _ _ (by simp only [Field.key]; omega), Dev.rd_wr_self, hwidth]
  exact Nat.mod_eq_of_lt ok.toNat_lt

theorem Dev.landSnap_denied : (d.landSnap f v ok).rd f.denied = (!ok).toNat := by
  obtain ⟨-, -, -, -, -, -, -, -, -, -, -, -, -, -, hwidth⟩ := hf
  rw [Dev.landSnap, Dev.rd_wr_self, hwidth]
  exact Nat.mod_eq_of_lt (!ok).toNat_lt

theorem Dev.landSnap_data {n : Nat} (hn : n < f.words) : (d.landSnap f v ok).rd f.data 0 (4 * n) = v n % 2 ^ f.data.width := by
  obtain ⟨hunit, hvalid, hdenied, hvoff, hdoff, hoff, hlsb, hb, hv, hd, -, -, -, -, -⟩ := hf
  have hvalue := d.rd_fillWindow f.data 0 0 v f.words hn
  rw [Nat.zero_add] at hvalue
  rw [Dev.landSnap, Dev.rd_wr_ne _ _ _ _ _ _ _ _ (by simp only [Field.key]; omega), Dev.rd_wr_ne _ _ _ _ _ _ _ _ (by simp only [Field.key]; omega),
    Dev.rd_wr_ne _ _ _ _ _ _ _ _ (by simp only [Field.key]; omega), hvalue]

end

/-- The fields of the ring contexts' snapshots. -/
def qmgSnap : SnapFields :=
  { data := R.QMG_CTX_DATA_data, busy := R.QMG_CTX_STATUS_busy, valid := R.QMG_CTX_STATUS_valid, denied := R.QMG_CTX_STATUS_denied, words := 32 }

/-- The fields of the connection contexts' snapshots. -/
def crySnapFields : SnapFields :=
  { data := R.CRY_CTX_DATA_data, busy := R.CRY_CTX_STATUS_busy, valid := R.CRY_CTX_STATUS_valid, denied := R.CRY_CTX_STATUS_denied, words := 64 }

theorem qmgSnap_ok : qmgSnap.ok := by
  unfold SnapFields.ok
  decide

theorem crySnapFields_ok : crySnapFields.ok := by
  unfold SnapFields.ok
  decide

/-- The words that a snapshot of ring `r` shows master `mid`. -/
def Dev.ctxSnapWords (d : Dev) (mid r : Nat) : List Nat :=
  match d.ring? r with
  | some g => if d.mayRead mid r then g.contextWords else List.replicate 32 0
  | none => List.replicate 32 0

/-- The device once the snapshot has landed. -/
def Dev.ctxSnapLanded (mid r : Nat) (d : Dev) : Dev :=
  ({ d with ctxSnap := none } : Dev).landSnap qmgSnap (fun k => (d.ctxSnapWords mid r).getD k 0) (d.mayRead mid r)

theorem Dev.ctxSnapEnd_eq {d : Dev} {mid r : Nat} (h : d.ctxSnap = some (mid, r)) : d.ctxSnapEnd = d.ctxSnapLanded mid r := by
  unfold Dev.ctxSnapEnd Dev.ctxSnapLanded Dev.landSnap Dev.fillWindow Dev.ctxSnapWords
  rw [h]
  simp only [Nat.zero_add]
  rfl

/-- The bytes that a snapshot of context `c` shows master `mid`. -/
def Dev.crySnapBytes (d : Dev) (mid c : Nat) : List Byte := if d.mayReadCtx mid c then maskedCtx (d.ctx c) else []

/-- The device once the snapshot has landed. -/
def Dev.crySnapLanded (mid c : Nat) (d : Dev) : Dev :=
  ({ d with crySnap := none } : Dev).landSnap crySnapFields (fun k => leAt (d.crySnapBytes mid c) (4 * k) 4) (d.mayReadCtx mid c)

theorem Dev.crySnapEnd_eq {d : Dev} {mid c : Nat} (h : d.crySnap = some (mid, c)) : d.crySnapEnd = d.crySnapLanded mid c := by
  unfold Dev.crySnapEnd Dev.crySnapLanded Dev.landSnap Dev.fillWindow Dev.crySnapBytes
  rw [h]
  simp only [Nat.zero_add]
  rfl

theorem leAt_nil (o w : Nat) : leAt [] o w = 0 := by
  unfold leAt
  induction w with
  | zero => rfl
  | succ w ih =>
    rw [List.range_succ, List.foldr_append]
    exact ih

section
variable {mid : Nat} {s : State} (h : s.dev.phase = .running)
include h

theorem exec_qmgCtxSnap {r : Nat} (hbusy : s.dev.on R.QMG_CTX_STATUS_busy = false) (hr : r < 2 ^ 22) :
    ∃ t, exec (.qmgCtxSnap mid r) s = .next t ∧ t.dev.ctxSnap = some (mid, r) ∧ t.dev.rd R.QMG_CTX_STATUS_busy = 1 ∧
      t.dev.rd R.QMG_CTX_SELECT_ring = r ∧ t.dev.rings = s.dev.rings := by
  have hidle : (s.dev.wr R.QMG_CTX_SELECT_ring r).on R.QMG_CTX_STATUS_busy = false := by
    rw [Dev.on, Dev.rd_wr_at _ _ _ _ _ _ (by decide)]
    exact hbusy
  refine ⟨_, (State.onRun_running _ h : execQmgCtxSnap mid r s = _), ?_⟩
  dsimp only
  rw [Dev.ctxSnapStart, hidle, Nat.mod_eq_of_lt hr]
  refine ⟨rfl, Dev.rd_wr_self .., ?_, rfl⟩
  refine (Dev.rd_wr_at _ _ _ _ _ _ (by decide)).trans ((Dev.rd_wr_self s.dev R.QMG_CTX_SELECT_ring r 0 0 :).trans ?_)
  exact Nat.mod_eq_of_lt hr

theorem exec_cryCtxSnap {c : Nat} (hbusy : s.dev.on R.CRY_CTX_STATUS_busy = false) (hc : c < 2 ^ 24) :
    ∃ t, exec (.cryCtxSnap mid c) s = .next t ∧ t.dev.crySnap = some (mid, c) ∧ t.dev.rd R.CRY_CTX_STATUS_busy = 1 ∧
      t.dev.rd R.CRY_CTX_SELECT_context = c ∧ t.dev.ctxs = s.dev.ctxs := by
  have hidle : (s.dev.wr R.CRY_CTX_SELECT_context c).on R.CRY_CTX_STATUS_busy = false := by
    rw [Dev.on, Dev.rd_wr_at _ _ _ _ _ _ (by decide)]
    exact hbusy
  refine ⟨_, (State.onRun_running _ h : execCryCtxSnap mid c s = _), ?_⟩
  dsimp only
  rw [Dev.crySnapStart, hidle, Nat.mod_eq_of_lt hc]
  refine ⟨rfl, Dev.rd_wr_self .., ?_, rfl⟩
  refine (Dev.rd_wr_at _ _ _ _ _ _ (by decide)).trans ((Dev.rd_wr_self s.dev R.CRY_CTX_SELECT_context c 0 0 :).trans ?_)
  exact Nat.mod_eq_of_lt hc

theorem exec_qmgCtxSnapDone {r : Nat} (hsnap : s.dev.ctxSnap = some (mid, r)) :
    ∃ t, exec .qmgCtxSnapDone s = .next t ∧ t.dev.rd R.QMG_CTX_STATUS_busy = 0 ∧ t.dev.ctxSnap = none ∧ t.dev.rings = s.dev.rings ∧
      (s.dev.mayRead mid r = false → t.dev.rd R.QMG_CTX_STATUS_denied = 1 ∧ t.dev.rd R.QMG_CTX_STATUS_valid = 0 ∧
        ∀ n, n < 32 → t.dev.rd R.QMG_CTX_DATA_data 0 (4 * n) = 0) ∧
      (∀ g, s.dev.mayRead mid r = true → s.dev.ring? r = some g → t.dev.rd R.QMG_CTX_STATUS_valid = 1 ∧ t.dev.rd R.QMG_CTX_STATUS_denied = 0 ∧
        ∀ n, n < 32 → t.dev.rd R.QMG_CTX_DATA_data 0 (4 * n) = g.contextWords.getD n 0 % 2 ^ 32) := by
  have hexec : exec .qmgCtxSnapDone s = .next { s with dev := s.dev.ctxSnapLanded mid r } :=
    (State.onRun_running _ h : execQmgCtxSnapDone s = _).trans (by rw [Dev.ctxSnapEnd_eq hsnap])
  have hdata : ∀ n, n < 32 → (s.dev.ctxSnapLanded mid r).rd R.QMG_CTX_DATA_data 0 (4 * n) = (s.dev.ctxSnapWords mid r).getD n 0 % 2 ^ 32 :=
    fun n hn => Dev.landSnap_data qmgSnap_ok _ _ _ hn
  have hvalid : (s.dev.ctxSnapLanded mid r).rd R.QMG_CTX_STATUS_valid = (s.dev.mayRead mid r).toNat := Dev.landSnap_valid qmgSnap_ok ..
  have hdenied : (s.dev.ctxSnapLanded mid r).rd R.QMG_CTX_STATUS_denied = (!s.dev.mayRead mid r).toNat := Dev.landSnap_denied qmgSnap_ok ..
  obtain ⟨regs, keep, hland⟩ := ({ s.dev with ctxSnap := none } : Dev).landSnap_changes qmgSnap (fun k => (s.dev.ctxSnapWords mid r).getD k 0)
    (s.dev.mayRead mid r)
  refine ⟨_, hexec, Dev.landSnap_busy qmgSnap_ok _ _ _, (congrArg Dev.ctxSnap hland :), (congrArg Dev.rings hland :), fun hno => ?_,
      fun g hmay hg => ?_⟩
  · have hzero : s.dev.ctxSnapWords mid r = List.replicate 32 0 := by
      unfold Dev.ctxSnapWords
      rw [hno]
      split <;> rfl
    rw [hno] at hvalid hdenied
    refine ⟨hdenied, hvalid, fun n hn => (hdata n hn).trans ?_⟩
    rw [hzero, List.getD_replicate _ hn, Nat.zero_mod]
  · have hwords : s.dev.ctxSnapWords mid r = g.contextWords := by
      rw [Dev.ctxSnapWords, hg, hmay]
      rfl
    rw [hmay] at hvalid hdenied
    rw [hwords] at hdata
    exact ⟨hvalid, hdenied, hdata⟩

theorem exec_cryCtxSnapDone {c : Nat} (hsnap : s.dev.crySnap = some (mid, c)) :
    ∃ t, exec .cryCtxSnapDone s = .next t ∧ t.dev.rd R.CRY_CTX_STATUS_busy = 0 ∧ t.dev.crySnap = none ∧
      t.dev.ctxs = s.dev.ctxs ∧
      (s.dev.mayReadCtx mid c = false → t.dev.rd R.CRY_CTX_STATUS_denied = 1 ∧ t.dev.rd R.CRY_CTX_STATUS_valid = 0 ∧
        ∀ n, n < 64 → t.dev.rd R.CRY_CTX_DATA_data 0 (4 * n) = 0) ∧
      (s.dev.mayReadCtx mid c = true → t.dev.rd R.CRY_CTX_STATUS_valid = 1 ∧ t.dev.rd R.CRY_CTX_STATUS_denied = 0 ∧
        ∀ n, n < 64 → t.dev.rd R.CRY_CTX_DATA_data 0 (4 * n) = leAt (maskedCtx (s.dev.ctx c)) (4 * n) 4 % 2 ^ 32) := by
  have hexec : exec .cryCtxSnapDone s = .next { s with dev := s.dev.crySnapLanded mid c } :=
    (State.onRun_running _ h : execCryCtxSnapDone s = _).trans (by rw [Dev.crySnapEnd_eq hsnap])
  have hdata : ∀ n, n < 64 → (s.dev.crySnapLanded mid c).rd R.CRY_CTX_DATA_data 0 (4 * n) = leAt (s.dev.crySnapBytes mid c) (4 * n) 4 % 2 ^ 32 :=
    fun n hn => Dev.landSnap_data crySnapFields_ok _ _ _ hn
  have hvalid : (s.dev.crySnapLanded mid c).rd R.CRY_CTX_STATUS_valid = (s.dev.mayReadCtx mid c).toNat := Dev.landSnap_valid crySnapFields_ok ..
  have hdenied : (s.dev.crySnapLanded mid c).rd R.CRY_CTX_STATUS_denied = (!s.dev.mayReadCtx mid c).toNat :=
    Dev.landSnap_denied crySnapFields_ok ..
  obtain ⟨regs, keep, hland⟩ := ({ s.dev with crySnap := none } : Dev).landSnap_changes crySnapFields
    (fun k => leAt (s.dev.crySnapBytes mid c) (4 * k) 4) (s.dev.mayReadCtx mid c)
  refine ⟨_, hexec, Dev.landSnap_busy crySnapFields_ok _ _ _, (congrArg Dev.crySnap hland :), (congrArg Dev.ctxs hland :), fun hno => ?_,
      fun hmay => ?_⟩
  · rw [Dev.crySnapBytes, hno] at hdata
    rw [hno] at hvalid hdenied
    refine ⟨hdenied, hvalid, fun n hn => (hdata n hn).trans ?_⟩
    rw [if_neg Bool.false_ne_true, leAt_nil, Nat.zero_mod]
  · rw [Dev.crySnapBytes, hmay] at hdata
    rw [hmay] at hvalid hdenied
    exact ⟨hvalid, hdenied, hdata⟩

/-! ## Error logs (R149, R172) -/

theorem exec_qmgErrFifoRead {w : Nat} {l : List Nat} (hlog : s.dev.ringErrors = w :: l) :
    exec (.qmgErrFifoRead mid) s = .next { s with dev := ({ s.dev with ringErrors := l } : Dev).emit (.answer mid w) } := by
  refine (State.onRun_running _ h : execQmgErrFifoRead mid s = _).trans ?_
  rw [Dev.popRingError, hlog]

theorem exec_qmgErrFifoRead_empty (hlog : s.dev.ringErrors = []) :
    exec (.qmgErrFifoRead mid) s = .next { s with dev := s.dev.emit (.answer mid 0) } := by
  refine (State.onRun_running _ h : execQmgErrFifoRead mid s = _).trans ?_
  rw [Dev.popRingError, hlog]

theorem exec_lgrFailLogRead {f : Failure} {l : List Failure} (hlog : s.dev.failures = f :: l) :
    ∃ t, exec (.lgrFailLogRead mid) s = .next t ∧ t.dev.failures = l ∧
      t.dev.out = s.dev.out ++ [.answer mid (f.source % 2 ^ 22 + 2 ^ 22 * f.onPort.toNat + 2 ^ 23 * f.reason + 2 ^ 31)] ∧
      t.dev.rd R.LGR_FAIL_LOG_1_seq_lo = f.seq % 2 ^ 32 := by
  refine ⟨_, (State.onRun_running _ h : execLgrFailLogRead mid s = _), ?_⟩
  rw [Dev.popFailure, hlog]
  refine ⟨rfl, rfl, ?_⟩
  show (((({ s.dev with failures := l } : Dev).wr R.LGR_FAIL_LOG_1_seq_lo (f.seq % 2 ^ 32)).wr R.LGR_FAIL_LOG_2_seq_hi (f.seq / 2 ^ 32)).wr
    R.LGR_FAIL_LOG_2_function f.fn).rd R.LGR_FAIL_LOG_1_seq_lo = _
  rw [Dev.rd_wr_at _ _ _ _ _ _ (by decide), Dev.rd_wr_at _ _ _ _ _ _ (by decide), Dev.rd_wr_self]
  exact Nat.mod_mod ..

theorem exec_lgrFailLogRead_empty (hlog : s.dev.failures = []) :
    exec (.lgrFailLogRead mid) s = .next { s with dev := s.dev.emit (.answer mid 0) } := by
  refine (State.onRun_running _ h : execLgrFailLogRead mid s = _).trans ?_
  rw [Dev.popFailure, hlog]

end

/-- Settles O28. -/
theorem snapshotsAndLogs : Obligations.SnapshotsAndLogs :=
  ⟨fun _ _ _ h => ⟨exec_qmgCtxSnap h, exec_qmgCtxSnapDone h⟩,
    fun _ _ h => ⟨fun _ _ => exec_qmgErrFifoRead h, exec_qmgErrFifoRead_empty h, fun _ _ => exec_lgrFailLogRead h, exec_lgrFailLogRead_empty h⟩,
    fun _ _ _ h => ⟨exec_cryCtxSnap h, exec_cryCtxSnapDone h⟩⟩

end Sys2Proof.Machine
end

section
/-!
Transmit descriptors (R141, R142).
-/

namespace Sys2Proof.Machine

/-! ## Descriptors of transmit rings (R141, R142) -/

/-- The kind of a descriptor's command: that of opcode 1, of opcode 2, or of any other. -/
def descKind (opcode : Nat) : Nat := if opcode = 1 ∨ opcode = 2 then opcode else 0

theorem exec_txDescriptor {c : Instr} {r n : Nat} {s : State} (h : s.dev.phase = .running)
    (hc : c = .txDescriptorPlain r ∧ n = 0 ∨ c = .txDescriptorOffload r ∧ n = 1 ∨ c = .txDescriptorNoop r ∧ n = 2) :
    exec c s = .next { s with dev := s.dev.takeDescriptor r n } := by
  rcases hc with ⟨rfl, rfl⟩ | ⟨rfl, rfl⟩ | ⟨rfl, rfl⟩
  · exact (State.onRun_running _ h : execTxDescriptorPlain r s = _)
  · exact (State.onRun_running _ h : execTxDescriptorOffload r s = _)
  · exact (State.onRun_running _ h : execTxDescriptorNoop r s = _)

/-- An item that is added is there under the next number. -/
theorem Dev.item?_addItem (it : Item) (d : Dev) : ((d.addItem it).2).item? d.nextItem = some it := NMap.get?_set_self ..

section
variable {r : Nat} {g : Ring} {x : Desc} {l : List Desc} {d : Dev} (hget : d.ring? r = some g) (hkind : g.kind = 0) (hacc : g.accepted = x :: l)

/-- The device once the descriptor at the head of ring `r` is taken; `frame` is the open frame then. -/
def Dev.descTaken (r : Nat) (l : List Desc) (frame : List Desc) (d : Dev) : Dev :=
  d.onRing r (fun g => { g with accepted := l, saved := g.saved - 1, frame := frame })

theorem Dev.descTaken_ring {d : Dev} {r : Nat} {g : Ring} (hget : d.ring? r = some g) (l frame : List Desc) :
    (d.descTaken r l frame).ring? r = some { g with accepted := l, saved := g.saved - 1, frame := frame } :=
  Dev.ring?_onRing_self hget _

include hget hkind hacc

theorem Dev.takeDescriptor_bad (hbad : g.txBad g.frame.length (g.txFields g.frame.isEmpty x) = true) :
    d.takeDescriptor r (descKind (g.txFields g.frame.isEmpty x).opcode) =
      (d.descTaken r l []).directItem (d.ringItem r g 0 (g.frame ++ [x])) 1 := by
  unfold Dev.takeDescriptor
  rw [hget]
  dsimp only
  rw [hacc]
  simp only [descKind, hkind, ne_eq, not_true, or_self, if_false, hbad, Bool.true_or, if_true]
  rfl

theorem Dev.takeDescriptor_good (hbad : g.txBad g.frame.length (g.txFields g.frame.isEmpty x) = false) :
    d.takeDescriptor r (descKind (g.txFields g.frame.isEmpty x).opcode) =
      if (g.txFields g.frame.isEmpty x).opcode = 2 then (d.descTaken r l []).directItem (d.ringItem r g 0 (g.frame ++ [x])) 0
      else if (g.txFields g.frame.isEmpty x).eop then ((d.descTaken r l []).addItem (d.ringItem r g 0 (g.frame ++ [x]))).2
      else d.descTaken r l (g.frame ++ [x]) := by
  unfold Dev.takeDescriptor
  rw [hget]
  dsimp only
  rw [hacc]
  simp only [descKind, hkind, ne_eq, not_true, or_self, if_false, hbad, Bool.false_or, Bool.false_eq_true]
  by_cases hop : (g.txFields g.frame.isEmpty x).opcode = 2
  · simp only [hop, beq_self_eq_true, Bool.or_true, if_true]
    rfl
  · have hne : ((g.txFields g.frame.isEmpty x).opcode == 2) = false := beq_false_of_ne hop
    cases heop : (g.txFields g.frame.isEmpty x).eop with
    | true =>
      simp only [if_neg hop, hne, Bool.or_false, if_true]
      rfl
    | false =>
      simp only [if_neg hop, hne, Bool.or_false, Bool.false_eq_true, if_false]
      rfl

end

section
variable {r : Nat} {g : Ring} {x : Desc} {l : List Desc} {s : State} (h : s.dev.phase = .running) (hget : s.dev.ring? r = some g)
  (hkind : g.kind = 0) (hacc : g.accepted = x :: l)
include h hget hkind hacc

theorem exec_txDescriptor_good {c : Instr}
    (hc : (c = .txDescriptorPlain r ∧ (g.txFields g.frame.isEmpty x).opcode = 0) ∨ (c = .txDescriptorOffload r ∧
        (g.txFields g.frame.isEmpty x).opcode = 1))
    (hbad : g.txBad g.frame.length (g.txFields g.frame.isEmpty x) = false) :
    ((g.txFields g.frame.isEmpty x).eop = false → ∃ t, exec c s = .next t ∧
      t.dev.ring? r = some { g with accepted := l, saved := g.saved - 1, frame := g.frame ++ [x] } ∧ t.dev.items = s.dev.items) ∧
    ((g.txFields g.frame.isEmpty x).eop = true → ∃ t, exec c s = .next t ∧
      t.dev.ring? r = some { g with accepted := l, saved := g.saved - 1, frame := [] } ∧
      t.dev.item? s.dev.nextItem = some (s.dev.ringItem r g 0 (g.frame ++ [x]))) := by
  have htake := Dev.takeDescriptor_good hget hkind hacc hbad
  have hexec : exec c s = .next { s with dev := s.dev.takeDescriptor r (descKind (g.txFields g.frame.isEmpty x).opcode) } := by
    rcases hc with ⟨hc, hop⟩ | ⟨hc, hop⟩
    · exact exec_txDescriptor h (.inl ⟨hc, by rw [hop]; rfl⟩)
    · exact exec_txDescriptor h (.inr (.inl ⟨hc, by rw [hop]; rfl⟩))
  have hop : (g.txFields g.frame.isEmpty x).opcode ≠ 2 := by
    rcases hc with ⟨-, hop⟩ | ⟨-, hop⟩ <;> rw [hop] <;> decide
  rw [hexec, htake, if_neg hop]
  refine ⟨fun heop => ?_, fun heop => ?_⟩
  · rw [heop]
    exact ⟨_, rfl, Dev.descTaken_ring hget .., rfl⟩
  · rw [heop]
    exact ⟨_, rfl, Dev.descTaken_ring hget .., Dev.item?_addItem ..⟩

theorem exec_txDescriptorNoop_good (hop : (g.txFields g.frame.isEmpty x).opcode = 2)
    (hbad : g.txBad g.frame.length (g.txFields g.frame.isEmpty x) = false) :
    ∃ t, exec (.txDescriptorNoop r) s = .next t ∧ t.dev.ring? r = some { g with accepted := l, saved := g.saved - 1, frame := [] } ∧
      t.dev.item? s.dev.nextItem = some { s.dev.ringItem r g 0 (g.frame ++ [x]) with stage := .retiring, direct := true } := by
  have htake := Dev.takeDescriptor_good hget hkind hacc hbad
  have hexec : exec (.txDescriptorNoop r) s = .next { s with dev := s.dev.takeDescriptor r (descKind (g.txFields g.frame.isEmpty x).opcode) } :=
    exec_txDescriptor h (.inr (.inr ⟨rfl, by rw [hop]; rfl⟩))
  rw [hexec, htake, if_pos hop]
  exact ⟨_, rfl, Dev.descTaken_ring hget .., Dev.item?_addItem ..⟩

theorem exec_txDescriptorPlain_bad (hop : (g.txFields g.frame.isEmpty x).opcode = 0)
    (hbad : g.txBad g.frame.length (g.txFields g.frame.isEmpty x) = true) :
    ∃ t, exec (.txDescriptorPlain r) s = .next t ∧ t.dev.ring? r = some { g with accepted := l, saved := g.saved - 1, frame := [] } ∧
      t.dev.item? s.dev.nextItem = some { s.dev.ringItem r g 0 (g.frame ++ [x]) with stage := .retiring, direct := true, status := 1 } := by
  have htake := Dev.takeDescriptor_bad hget hkind hacc hbad
  have hexec : exec (.txDescriptorPlain r) s = .next { s with dev := s.dev.takeDescriptor r (descKind (g.txFields g.frame.isEmpty x).opcode) } :=
    exec_txDescriptor h (.inl ⟨rfl, by rw [hop]; rfl⟩)
  rw [hexec, htake]
  exact ⟨_, rfl, Dev.descTaken_ring hget .., Dev.item?_addItem ..⟩

end

/-- Settles O29. -/
theorem transmitDescriptors : Obligations.TransmitDescriptors :=
  fun _ _ _ _ _ h hget hkind hacc => ⟨fun _ => exec_txDescriptor_good h hget hkind hacc, exec_txDescriptorNoop_good h hget hkind hacc,
    exec_txDescriptorPlain_bad h hget hkind hacc⟩

end Sys2Proof.Machine
end

section
/-!
Dispatch and retirement (R155, R157, R169, R187, R426).
-/

namespace Sys2Proof.Machine

/-! ## Items -/

theorem Dev.item?_congr {d e : Dev} (h : e.items = d.items) (i : Nat) : e.item? i = d.item? i := by rw [Dev.item?, Dev.item?, h]

theorem Dev.item?_onItem_self {d : Dev} {i : Nat} {it : Item} (h : d.item? i = some it) (f : Item → Item) : (d.onItem i f).item? i = some (f it) := by
  rw [Dev.item?, Dev.onItem, NMap.get?_modify, if_pos rfl, ← Dev.item?, h]
  rfl

theorem Dev.item?_dropItem_self (i : Nat) (d : Dev) : (d.dropItem i).item? i = none := NMap.get?_erase_self ..

theorem Dev.siteAt_onSite_self (d : Dev) (p : Nat) (f : SetSite → SetSite) : (d.onSite p f).siteAt p = f (d.siteAt p) := NMap.getD_upd_self ..

/-! ## Dispatch (R157, R169, R187) -/

/-- What becomes of the first item of Figure `f`'s queue. -/
def Dev.dispatchHead (i f : Nat) (it : Item) (d : Dev) : Dev :=
  if it.kind != 1 && it.order == 0 && !it.restored && d.savedFor f then d
  else match d.pickPosition f it with
    | some p => d.deliverItem i p
    | none => d

section
variable {i f : Nat} {it : Item} {s : State} (h : s.dev.phase = .running) (hget : s.dev.item? i = some it) (hstage : it.stage = .queued)
  (hfigure : s.dev.figureOf it = some f) (hhead : (s.dev.queueOf f (it.kind == 1)).head? = some i)
include h hget hstage hfigure hhead

theorem exec_itemDispatch_head : exec (.itemDispatch i) s = .next { s with dev := s.dev.dispatchHead i f it } := by
  refine (State.onRun_running _ h : execItemDispatch i s = _).trans ?_
  unfold Dev.dispatchItem
  rw [hget]
  dsimp only
  rw [hfigure]
  simp only [hstage, hhead, ne_eq, not_true, or_self, if_false]
  rfl

theorem exec_itemDispatch {p : Nat} (hpick : s.dev.pickPosition f it = some p)
    (hnow : it.kind = 1 ∨ it.order ≠ 0 ∨ it.restored = true ∨ s.dev.savedFor f = false) :
    ∃ t, exec (.itemDispatch i) s = .next t ∧
      t.dev.item? i = some { it with stage := .delivered, position := p, figure := p / 8,
                                     order := if it.order = 0 then s.dev.dispatched + 1 else it.order } ∧
      (t.dev.siteAt p).input = (s.dev.siteAt p).input ++ [i] ∧ t.dev.regs = s.dev.regs ∧ t.dev.rings = s.dev.rings := by
  have hfree : (it.kind != 1 && it.order == 0 && !it.restored && s.dev.savedFor f) = false := by
    rcases hnow with hk | ho | hr | hs
    · rw [hk]; rfl
    · rw [beq_false_of_ne ho, Bool.and_false]; rfl
    · rw [hr, Bool.not_true, Bool.and_false]; rfl
    · rw [hs, Bool.and_false]
  rw [exec_itemDispatch_head h hget hstage hfigure hhead, Dev.dispatchHead, hfree, hpick]
  have hget' : ({ s.dev with dispatched := s.dev.dispatched + 1 } : Dev).item? i = some it := hget
  refine ⟨_, rfl, Dev.item?_onItem_self hget' _, ?_, rfl, rfl⟩
  exact congrArg SetSite.input (Dev.siteAt_onSite_self ..)

theorem exec_itemDispatch_full (hpick : s.dev.pickPosition f it = none) : exec (.itemDispatch i) s = .next s := by
  rw [exec_itemDispatch_head h hget hstage hfigure hhead, Dev.dispatchHead, hpick]
  dsimp only
  rw [ite_self]

theorem exec_itemDispatch_behind (hkind : it.kind ≠ 1) (horder : it.order = 0) (hnew : it.restored = false) (hsaved : s.dev.savedFor f = true) :
    exec (.itemDispatch i) s = .next s := by
  rw [exec_itemDispatch_head h hget hstage hfigure hhead, Dev.dispatchHead, hsaved, hnew, horder, bne_iff_ne.2 hkind]
  rfl

end

/-! ## 64-bit counters -/

theorem Dev.rd64_congr {d e : Dev} (h : e.regs = d.regs) (lo hi : Field) (i a : Nat) : e.rd64 lo hi i a = d.rd64 lo hi i a := by
  rw [Dev.rd64, Dev.rd64, Dev.rd_congr h, Dev.rd_congr h]

theorem Dev.dropItem_regs (i : Nat) (d : Dev) : (d.dropItem i).regs = d.regs := rfl

theorem Dev.rd64_wr64_self (d : Dev) (lo hi : Field) (v i a : Nat) (hne : lo.key i a ≠ hi.key i a) (hlo : lo.width = 32) (hhi : hi.width = 32) :
    (d.wr64 lo hi v i a).rd64 lo hi i a = v % 2 ^ 64 := by
  rw [Dev.rd64, Dev.wr64, Dev.rd_wr_ne _ _ _ _ _ _ _ _ hne, Dev.rd_wr_self, Dev.rd_wr_self, hlo, hhi]
  omega

/-- A 64-bit counter of another instance or unit reads as before. -/
theorem Dev.rd_wr64_ne (d : Dev) (lo hi g : Field) (v i a j b : Nat) (hlo : g.key j b ≠ lo.key i a) (hhi : g.key j b ≠ hi.key i a) :
    (d.wr64 lo hi v i a).rd g j b = d.rd g j b := by
  rw [Dev.wr64, Dev.rd_wr_ne _ _ _ _ _ _ _ _ hhi, Dev.rd_wr_ne _ _ _ _ _ _ _ _ hlo]

theorem Dev.rd_countEpilogue (fn : Nat) (f : Epilogue → Epilogue) (d : Dev) (g : Field) (j b : Nat) : (d.countEpilogue fn f).rd g j b = d.rd g j b :=
  Dev.rd_congr (Dev.regs_of_besides (Dev.countEpilogue_besides fn f d (List.Subset.refl _))) g j b

/-- The items that are abandoned are counted by the Ledger (R172). -/
theorem Dev.rd64_countAbandoned (fn n : Nat) (d : Dev) (hlink : d.linkOf fn < 17) :
    (d.countAbandoned fn n).rd64 R.LGR_SQUASHED_LO_squashed R.LGR_SQUASHED_HI_squashed =
      (d.rd64 R.LGR_SQUASHED_LO_squashed R.LGR_SQUASHED_HI_squashed + n) % 2 ^ 64 := by
  have hcount := d.rd64_wr64_self R.LGR_SQUASHED_LO_squashed R.LGR_SQUASHED_HI_squashed
    ((d.rd64 R.LGR_SQUASHED_LO_squashed R.LGR_SQUASHED_HI_squashed + n) % 2 ^ 64) 0 0 (by decide) rfl rfl
  rw [Nat.mod_mod] at hcount
  refine Eq.trans ?_ hcount
  have hkey : ∀ g ∈ [R.LGR_SQUASHED_LO_squashed, R.LGR_SQUASHED_HI_squashed], ∀ k ∈ [R.PCX_ABANDONED_LO_abandoned, R.PCX_ABANDONED_HI_abandoned],
      g.key 0 0 ≠ k.key (d.linkOf fn) 0 := by
    intro g hg k hk
    have hunits : g.unit = 0x21 ∧ g.off < 33554432 ∧ g.lsb < 32 ∧ k.unit = 0x10 ∧ k.off < 33554432 ∧ k.lsb < 32 := by
      revert g k
      decide
    obtain ⟨hgu, hgo, hgl, hku, hko, hkl⟩ := hunits
    exact Field.key_ne_of_unit (by rw [hgu, hku]; decide) (by omega) (by decide) (by omega) (by omega) hkl hgl
  unfold Dev.countAbandoned
  dsimp only
  generalize d.wr64 R.LGR_SQUASHED_LO_squashed R.LGR_SQUASHED_HI_squashed
    ((d.rd64 R.LGR_SQUASHED_LO_squashed R.LGR_SQUASHED_HI_squashed + n) % 2 ^ 64) = e
  rw [Dev.rd64, Dev.rd64, Dev.rd_countEpilogue, Dev.rd_countEpilogue]
  split
  · rw [Dev.rd_wr64_ne _ _ _ _ _ _ _ _ _ (hkey _ (by decide) _ (by decide)) (hkey _ (by decide) _ (by decide)),
      Dev.rd_wr64_ne _ _ _ _ _ _ _ _ _ (hkey _ (by decide) _ (by decide)) (hkey _ (by decide) _ (by decide))]
    rfl
  · rfl

/-! ## Retirement (R155, R161, R426) -/

/-- What an item owes is put on its ring, and written where it may be: items stay, and so do the rings that there are. -/
theorem Dev.owe_ring {d : Dev} {r : Nat} (h : (d.ring? r).isSome) (q s : Nat) (c : Cpl) : ((d.owe q s c).ring? r).isSome := by
  rw [Dev.ring?, Dev.owe, Dev.onRing, NMap.get?_modify]
  split
  · next hq => rw [← hq, Option.isSome_map]; exact h
  · exact h

theorem Dev.onRing_isSome {d : Dev} {r : Nat} (h : (d.ring? r).isSome) (q : Nat) (f : Ring → Ring) : ((d.onRing q f).ring? r).isSome := by
  rw [Dev.ring?, Dev.onRing, NMap.get?_modify]
  split
  · next hq => rw [← hq, Option.isSome_map]; exact h
  · exact h

theorem Dev.advanceCpl_isSome {d : Dev} {r : Nat} (h : (d.ring? r).isSome) (n : Nat) : ((d.advanceCpl r n).ring? r).isSome := by
  obtain ⟨g, hg⟩ := Option.isSome_iff_exists.1 h
  obtain ⟨⟨k, hk, -⟩, -⟩ := Dev.advanceCpl_owed hg n
  rw [hk]
  rfl

theorem Dev.writeOwed_isSome {d : Dev} {r : Nat} (h : (d.ring? r).isSome) : ((d.writeOwed r).ring? r).isSome := by
  unfold Dev.writeOwed
  split
  · exact h
  · split
    · exact h
    · split
      · exact h
      · extract_lets n data d₁ d₂
        have h₂ : (d₂.ring? r).isSome := by
          rw [Dev.ring?_congr (Dev.hostWrite_rings ..)]
          refine Dev.onRing_isSome ?_ _ _
          rw [Dev.ring?_congr (Dev.useContext_rings ..)]
          exact h
        split
        · exact h₂
        · exact Dev.advanceCpl_isSome h₂ _

theorem Dev.flushOwed_isSome {d : Dev} {r : Nat} (h : (d.ring? r).isSome) : ((d.flushOwed r).ring? r).isSome := by
  unfold Dev.flushOwed
  split
  · exact Dev.each_induct (fun e => (e.ring? r).isSome) _ _ _ h fun _ _ => Dev.writeOwed_isSome
  · exact h

theorem Dev.applyCommits_same (l : List Commit) (d : Dev) : (Dev.each l Dev.applyCommit d).rings = d.rings ∧
    (Dev.each l Dev.applyCommit d).items = d.items := by
  refine Dev.each_keeps (P := fun e => e.rings = d.rings ∧ e.items = d.items) (fun c _ e he => ?_) ⟨rfl, rfl⟩
  cases c <;> exact he

theorem Dev.countEpilogue_rings (fn : Nat) (f : Epilogue → Epilogue) (d : Dev) : (d.countEpilogue fn f).rings = d.rings := by
  unfold Dev.countEpilogue
  split <;> rfl

theorem Dev.provePosition_rings (p : Nat) (d : Dev) : (d.provePosition p).rings = d.rings :=
  Dev.rings_of_besides (Dev.provePosition_besides p d (List.Subset.refl _))

/-- What the end of an item does before the item is gone. -/
def Dev.itemEnds (it : Item) (d : Dev) : Dev :=
  let d := Dev.each it.commits Dev.applyCommit d
  let d := if it.failedIn then d else d.countEpilogue it.fn (fun e => { e with retired := e.retired + 1 })
  let d := if it.kind = 1 then d else d.onRing it.source (fun g => { g with retireSeq := (it.seq + it.count) % 2 ^ 48 })
  d.provePosition it.position

theorem Dev.retired_eq {d : Dev} {i : Nat} {it : Item} (hget : d.item? i = some it) : d.retired i = (d.itemEnds it).dropItem i := by
  unfold Dev.retired
  rw [hget]
  rfl

/-- A retired item of a ring is gone, and the ring knows up to where its items have retired. -/
theorem Dev.retired_ofRing {d : Dev} {i : Nat} {it : Item} (hget : d.item? i = some it) (hkind : it.kind ≠ 1) (hring : (d.ring? it.source).isSome) :
    (d.retired i).item? i = none ∧ ∃ k, (d.retired i).ring? it.source = some k ∧ k.retireSeq = (it.seq + it.count) % 2 ^ 48 := by
  rw [Dev.retired_eq hget]
  refine ⟨Dev.item?_dropItem_self .., ?_⟩
  show ∃ k, (d.itemEnds it).ring? it.source = some k ∧ _
  unfold Dev.itemEnds
  extract_lets d₁ d₂ d₃
  have h₁ : d₁.rings = d.rings := (Dev.applyCommits_same ..).1
  have h₂ : d₂.rings = d.rings := by
    rcases ite_eq_or_eq (it.failedIn = true) d₁ (d₁.countEpilogue it.fn (fun e => { e with retired := e.retired + 1 })) with h | h
    · exact (congrArg Dev.rings h).trans h₁
    · exact ((congrArg Dev.rings h).trans (Dev.countEpilogue_rings ..)).trans h₁
  obtain ⟨g, hg⟩ := Option.isSome_iff_exists.1 hring
  have h₃ : d₃.ring? it.source = some { g with retireSeq := (it.seq + it.count) % 2 ^ 48 } :=
    (congrArg (fun e => e.ring? it.source) (if_neg hkind : d₃ = _)).trans (Dev.ring?_onRing_self ((Dev.ring?_congr h₂ _).trans hg) _)
  exact ⟨_, (Dev.ring?_congr (Dev.provePosition_rings ..) _).trans h₃, rfl⟩

theorem Dev.owes_same (r : Nat) (l : List (Nat × Cpl)) (d : Dev) (h : (d.ring? r).isSome) :
    ((Dev.each l (fun c d => d.owe r c.1 c.2) d).ring? r).isSome ∧ (Dev.each l (fun c d => d.owe r c.1 c.2) d).items = d.items :=
  Dev.each_keeps (P := fun e => (e.ring? r).isSome ∧ e.items = d.items) (fun _ _ _ he => ⟨Dev.owe_ring he.1 .., he.2⟩) ⟨h, rfl⟩

theorem Dev.flushOwed_items (r : Nat) (d : Dev) : (d.flushOwed r).items = d.items :=
  Dev.items_of_besides (Dev.flushOwed_besides r d (List.Subset.refl _))

theorem Dev.completeSource_ofRing {d : Dev} {i : Nat} {it : Item} (hget : d.item? i = some it) (hkind : it.kind ≠ 1)
    (hopen : d.cplOpen it.source = true)
    (hring : (d.ring? it.source).isSome) (status : Nat) :
    (d.completeSource i status).item? i = none ∧
      ∃ k, (d.completeSource i status).ring? it.source = some k ∧ k.retireSeq = (it.seq + it.count) % 2 ^ 48 := by
  obtain ⟨g, hg⟩ := Option.isSome_iff_exists.1 hring
  have howes := Dev.owes_same it.source (g.txCpls it status) d hring
  have hdev : d.completeSource i status =
      ((Dev.each (g.txCpls it status) (fun c d => d.owe it.source c.1 c.2) d).flushOwed it.source).retired i := by
    unfold Dev.completeSource
    rw [hget]
    dsimp only
    rw [hg, hopen]
    rfl
  rw [hdev]
  obtain ⟨hring', hitems⟩ := howes
  refine Dev.retired_ofRing ?_ hkind (Dev.flushOwed_isSome hring')
  rw [Dev.item?_congr (Dev.flushOwed_items ..), Dev.item?_congr hitems, hget]

section
variable {i : Nat} {it : Item} {s : State} (h : s.dev.phase = .running) (hget : s.dev.item? i = some it) (hstage : it.stage = .retiring)
include h hget

theorem exec_itemRetire_waits (hnext : s.dev.nextInOrder i it = false) : exec (.itemRetire i) s = .next s := by
  refine (State.onRun_running _ h : execItemRetire i s = _).trans ?_
  rw [Dev.retireItem, hget]
  dsimp only
  rw [if_pos (.inr hnext)]

include hstage

theorem exec_itemRetire_stale (hlink : s.dev.linkOf it.fn < 17) (hnext : s.dev.nextInOrder i it = true) (hstale : s.dev.stale it = true)
    (hfailed : it.failedIn = false) :
    ∃ t, exec (.itemRetire i) s = .next t ∧ t.dev.item? i = none ∧
      t.dev.rd64 R.LGR_SQUASHED_LO_squashed R.LGR_SQUASHED_HI_squashed =
        (s.dev.rd64 R.LGR_SQUASHED_LO_squashed R.LGR_SQUASHED_HI_squashed + 1) % 2 ^ 64 := by
  have hleave : (s.dev.leaveWaiting i it).regs = s.dev.regs ∧ (s.dev.leaveWaiting i it).boot = s.dev.boot := by
    unfold Dev.leaveWaiting Dev.releaseHeld
    split <;> exact ⟨rfl, rfl⟩
  obtain ⟨hregs, hboot⟩ := hleave
  have hdev : s.dev.retireItem i = ((s.dev.leaveWaiting i it).countAbandoned it.fn 1).dropItem i := by
    unfold Dev.retireItem Dev.squash
    rw [hget]
    dsimp only
    rw [if_neg (by simp only [hstage, hnext, ne_eq, not_true, Bool.true_eq_false, or_self, not_false_eq_true]), if_pos hstale, hfailed]
    rfl
  refine ⟨_, (State.onRun_running _ h : execItemRetire i s = _), ?_, ?_⟩
  all_goals rw [hdev]
  · exact Dev.item?_dropItem_self ..
  · rw [Dev.rd64_congr (Dev.dropItem_regs ..), Dev.rd64_countAbandoned _ _ _ (by rw [Dev.linkOf_congr hboot]; exact hlink), Dev.rd64_congr hregs]

theorem exec_itemRetire_completes {g : Ring} (hnext : s.dev.nextInOrder i it = true) (hstale : s.dev.stale it = false) (hesp : it.espOf = none)
    (htls : it.tlsOf = none) (hkind : it.kind = 0) (hnvme : it.nvme = none) (hring : s.dev.ring? it.source = some g)
    (hopen : s.dev.cplOpen it.source = true) (hend : it.failed.isSome = true ∨ it.status ≠ 0) :
    ∃ t k, exec (.itemRetire i) s = .next t ∧ t.dev.item? i = none ∧ t.dev.ring? it.source = some k ∧
      k.retireSeq = (it.seq + it.count) % 2 ^ 48 := by
  have hdev : s.dev.retireItem i = s.dev.completeSource i (if it.failed.isSome then 6 else it.status) := by
    unfold Dev.retireItem
    rw [hget]
    dsimp only
    rw [if_neg (by simp only [hstage, hnext, ne_eq, not_true, Bool.true_eq_false, or_self, not_false_eq_true]), hstale, hesp, htls, hnvme, hring]
    simp only [hkind, Bool.false_eq_true, if_false, Option.isSome_none, Bool.or_self, Bool.false_and, zero_ne_one, OfNat.zero_ne_ofNat]
    cases hfailed : it.failed.isSome with
    | true => rfl
    | false =>
      have hstatus : it.status ≠ 0 := by
        rcases hend with hf | hs
        · rw [hfailed] at hf
          exact absurd hf Bool.false_ne_true
        · exact hs
      simp only [Bool.false_eq_true, if_false, hstatus, ne_eq, not_false_eq_true, if_true]
  obtain ⟨hgone, k, hk, hseq⟩ := Dev.completeSource_ofRing hget (by rw [hkind]; decide) hopen (by rw [hring]; rfl)
    (if it.failed.isSome then 6 else it.status)
  refine ⟨_, k, (State.onRun_running _ h : execItemRetire i s = _), ?_, ?_, hseq⟩
  all_goals rw [hdev]
  · exact hgone
  · exact hk

end

/-- Settles O30. -/
theorem dispatchAndRetirement : Obligations.DispatchAndRetirement :=
  ⟨fun _ _ _ _ h hget hstage hfigure hhead => ⟨fun _ => exec_itemDispatch h hget hstage hfigure hhead,
      exec_itemDispatch_full h hget hstage hfigure hhead,
      exec_itemDispatch_behind h hget hstage hfigure hhead⟩,
    fun _ _ _ h hget hstage hlink => ⟨exec_itemRetire_waits h hget, exec_itemRetire_stale h hget hstage hlink,
      fun _ => exec_itemRetire_completes h hget hstage⟩⟩

end Sys2Proof.Machine
end

section
/-!
Reception and delivery (R147, R168, R182-R191, R204, R349, R353).
-/

namespace Sys2Proof.Machine

/-! ## What work on rings leaves of one ring -/

/-- Ring `r` is there with the waiting list `l` and buffers of which `b` holds. -/
def Dev.ringStands (r : Nat) (l : List Nat) (b : List Desc → Prop) (e : Dev) : Prop := ∃ k, e.ring? r = some k ∧ k.waiting = l ∧ b k.buffers

section
variable {r : Nat} {l : List Nat} {b : List Desc → Prop} {d : Dev}

theorem Dev.ringStands.of_rings {e : Dev} (h : d.ringStands r l b) (hrings : e.rings = d.rings) : e.ringStands r l b := by
  obtain ⟨k, hk, hwaiting, hbuffers⟩ := h
  exact ⟨k, (Dev.ring?_congr hrings r).trans hk, hwaiting, hbuffers⟩

/-- A change of a ring that leaves its waiting list and its buffers. -/
theorem Dev.ringStands.onRing (h : d.ringStands r l b) (q : Nat) (f : Ring → Ring) (hf : ∀ g, (f g).waiting = g.waiting ∧ (f g).buffers = g.buffers) :
    (d.onRing q f).ringStands r l b := by
  obtain ⟨k, hk, hwaiting, hbuffers⟩ := h
  by_cases hq : r = q
  · obtain ⟨hw, hb⟩ := hf k
    exact ⟨f k, hq ▸ Dev.ring?_onRing_self (hq ▸ hk) f, hw.trans hwaiting, hb ▸ hbuffers⟩
  · refine ⟨k, ?_, hwaiting, hbuffers⟩
    rw [Dev.ring?, Dev.onRing, NMap.get?_modify, if_neg hq]
    exact hk

theorem Dev.ringStands.owe (h : d.ringStands r l b) (q s : Nat) (c : Cpl) : (d.owe q s c).ringStands r l b := h.onRing q _ fun _ => ⟨rfl, rfl⟩

theorem Dev.ringStands.checkIrq (h : d.ringStands r l b) (q : Nat) : (d.checkIrq q).ringStands r l b := by
  unfold Dev.checkIrq
  split
  · split
    · refine Dev.ringStands.of_rings ?_ (Dev.sendVector_rings ..)
      exact h.onRing q _ fun _ => ⟨rfl, rfl⟩
    · exact h
  · exact h

theorem Dev.ringStands.advanceCpl (h : d.ringStands r l b) (q m : Nat) : (d.advanceCpl q m).ringStands r l b := by
  unfold Dev.advanceCpl
  refine Dev.ringStands.checkIrq (h.onRing q _ fun g => ?_) q
  dsimp only
  split <;> exact ⟨rfl, rfl⟩

theorem Dev.ringStands.writeOwed (h : d.ringStands r l b) (q : Nat) : (d.writeOwed q).ringStands r l b := by
  unfold Dev.writeOwed
  split
  · exact h
  · split
    · exact h
    · split
      · exact h
      · extract_lets m data d₁ d₂
        have h₁ : d₁.ringStands r l b := by
          refine Dev.ringStands.onRing ?_ q _ fun _ => ⟨rfl, rfl⟩
          exact h.of_rings (Dev.useContext_rings ..)
        have h₂ : d₂.ringStands r l b := h₁.of_rings (Dev.hostWrite_rings ..)
        split
        · exact h₂
        · exact h₂.advanceCpl _ _

theorem Dev.ringStands.flushOwed (h : d.ringStands r l b) (q : Nat) : (d.flushOwed q).ringStands r l b := by
  unfold Dev.flushOwed
  split
  · exact Dev.each_induct (fun e => e.ringStands r l b) _ _ _ h fun _ _ he => he.writeOwed q
  · exact h

/-- Malformed buffers leave from the front. -/
theorem Dev.ringStands.rejectBuffers (hb : ∀ x y, b (x :: y) → b y) (h : d.ringStands r l b) (q fuel : Nat) :
    (d.rejectBuffers q fuel).ringStands r l b := by
  induction fuel generalizing d with
  | zero => exact h
  | succ fuel ih =>
    unfold Dev.rejectBuffers
    split
    · next g hg =>
      split
      · next x rest hbuffers =>
        split
        · exact h
        · refine ih (Dev.ringStands.flushOwed (Dev.ringStands.owe ?_ q x.seq _) q)
          obtain ⟨k, hk, hwaiting, hkb⟩ := h
          by_cases hq : r = q
          · subst hq
            have hkg : k = g := Option.some.inj (hk.symm.trans hg)
            rw [hkg, hbuffers] at hkb
            exact ⟨{ k with buffers := rest }, Dev.ring?_onRing_self hk _, hwaiting, hb x rest hkb⟩
          · refine ⟨k, ?_, hwaiting, hkb⟩
            rw [Dev.ring?, Dev.onRing, NMap.get?_modify, if_neg hq]
            exact hk
      · exact h
    · exact h

theorem Dev.ringStands.notify (h : d.ringStands r l b) (q : Nat) (words : List Nat) : (d.notify q words).2.ringStands r l b := by
  unfold Dev.notify
  split
  · split
    · extract_lets s bytes d₁
      have h₁ : d₁.ringStands r l b := by
        refine Dev.ringStands.onRing ?_ q _ fun _ => ⟨rfl, rfl⟩
        exact h.of_rings (Dev.useContext_rings ..)
      exact (h₁.advanceCpl _ _).flushOwed q
    · dsimp only
      split
      · exact h.of_rings (Dev.cause_rings ..)
      · exact h
  · exact h

theorem Dev.loseStamp_rings (m r : Nat) (rx : Bool) (d : Dev) : (d.loseStamp m r rx).rings = d.rings :=
  Dev.rings_of_besides (Dev.loseStamp_besides m r rx d (List.Subset.refl _))

theorem Dev.ringStands.rxRecord (h : d.ringStands r l b) (it : Item) (q seq : Nat) : (d.rxRecord it q seq).ringStands r l b := by
  unfold Dev.rxRecord
  extract_lets m want
  clear_value want
  split
  · exact h
  · split
    · exact h.of_rings (Dev.loseStamp_rings ..)
    · have hnotify := h.notify (d.rd R.TMP_RX_TS_RING_ring 0 (4 * m)) (it.stamp.words true seq q)
      split
      · next heq => rw [heq] at hnotify; exact hnotify
      · next heq => rw [heq] at hnotify; exact hnotify.of_rings (Dev.loseStamp_rings ..)

theorem fillBuffers_length_pos {l : List Desc} (h : l ≠ []) (f : List Byte) : 0 < (fillBuffers l f).length := by
  cases l with
  | nil => exact absurd rfl h
  | cons b l =>
    unfold fillBuffers
    split <;> exact Nat.succ_pos _

/-- At most `n` buffers. -/
def fewBuffers (n : Nat) (l : List Desc) : Prop := l.length ≤ n

theorem fewBuffers_tail (n : Nat) (x : Desc) (l : List Desc) (h : fewBuffers n (x :: l)) : fewBuffers n l := Nat.le_of_succ_le h

/-- A frame that is written into a ring's buffers takes at least one. -/
theorem Dev.fillRing_takes {bs : List Desc} (h : d.ringStands r l (· = bs)) (hbs : bs ≠ []) (f : Frame) (c : Cpl) :
    (d.fillRing r f c).ringStands r l (fewBuffers (bs.length - 1)) := by
  obtain ⟨g, hget, hwaiting, hbuffers⟩ := h
  unfold Dev.fillRing
  split
  · next hnone => exact absurd (hnone.symm.trans hget) (Option.some_ne_none g).symm
  · next k hk =>
    have hkg : k = g := Option.some.inj (hk.symm.trans hget)
    extract_lets parts d₁ d₂ d₃
    have h₁ : d₁.ringStands r l (fewBuffers (bs.length - 1)) := by
      refine ⟨_, Dev.ring?_onRing_self hget _, hwaiting, ?_⟩
      have hpos : 0 < parts.length := fillBuffers_length_pos (hkg ▸ hbuffers ▸ hbs) f
      show (g.buffers.drop parts.length).length ≤ _
      rw [hbuffers, List.length_drop]
      exact Nat.sub_le_sub_left hpos _
    have h₂ : d₂.ringStands r l (fewBuffers (bs.length - 1)) := by
      refine Dev.each_induct (fun e => e.ringStands r l (fewBuffers (bs.length - 1))) _ _ _ h₁ fun p e he => ?_
      split
      · split
        · exact he
        · exact he.of_rings (Dev.hostWrite_rings ..)
      · exact he
    have h₃ : d₃.ringStands r l (fewBuffers (bs.length - 1)) :=
      Dev.each_induct (fun e => e.ringStands r l (fewBuffers (bs.length - 1))) _ _ _ h₂ fun p e he => he.owe _ _ _
    exact (h₃.rejectBuffers (fewBuffers_tail _) _ _).flushOwed _

theorem Dev.itemEnds_stands (h : d.ringStands r l b) (it : Item) : (d.itemEnds it).ringStands r l b := by
  unfold Dev.itemEnds
  extract_lets d₁ d₂ d₃
  have h₁ : d₁.ringStands r l b := h.of_rings (Dev.applyCommits_same ..).1
  have h₂ : d₂.ringStands r l b :=
    iteInduction (motive := Dev.ringStands r l b) (fun _ => h₁) (fun _ => h₁.of_rings (Dev.countEpilogue_rings ..))
  have h₃ : d₃.ringStands r l b :=
    iteInduction (motive := Dev.ringStands r l b) (fun _ => h₂) (fun _ => h₂.onRing _ _ fun _ => ⟨rfl, rfl⟩)
  exact h₃.of_rings (Dev.provePosition_rings ..)

theorem Dev.ringStands.retired (h : d.ringStands r l b) (i : Nat) : (d.retired i).ringStands r l b := by
  cases hget : d.item? i with
  | none =>
    unfold Dev.retired
    rw [hget]
    exact h
  | some it =>
    rw [Dev.retired_eq hget]
    exact (Dev.itemEnds_stands h it).of_rings rfl

theorem Dev.item?_retired (i : Nat) (d : Dev) : (d.retired i).item? i = none := by
  cases hget : d.item? i with
  | none =>
    unfold Dev.retired
    rw [hget]
    exact hget
  | some it =>
    rw [Dev.retired_eq hget]
    exact Dev.item?_dropItem_self ..

end

/-! ## Frames that wait at a ring (R147, R168, R191) -/

section
variable {r i : Nat} {g : Ring} {it : Item} {d : Dev} (hring : d.ring? r = some g)

theorem Item.heldAt_waiting {d : Dev} {it : Item} (hstage : it.stage = .waiting) (hitem : d.itemRing it = some r) : it.heldAt = some r := by
  rw [Dev.itemRing, if_pos hstage] at hitem
  exact hitem

include hring

/-- A frame that waits at a ring leaves its list, and nothing else of the ring but its held bytes. -/
theorem Dev.leaveWaiting_ring (i : Nat) (hheld : it.heldAt = some r) :
    ∃ b, (d.leaveWaiting i it).ring? r = some { g with waiting := g.waiting.filter (· != i), heldBytes := b } := by
  unfold Dev.leaveWaiting Dev.releaseHeld
  rw [hheld]
  exact ⟨_, Dev.ring?_onRing_self (Dev.ring?_onRing_self hring _) _⟩

theorem Dev.mayFill_buffers {m : Nat} (h : d.mayFill r [m] = true) : g.buffers ≠ [] := by
  intro hnil
  rw [Dev.mayFill, hring] at h
  dsimp only at h
  rw [hnil] at h
  simp only [List.foldl_cons, List.foldl_nil, Option.bind_some, takeBuffers, Option.isSome_none, Bool.and_false, Bool.false_eq_true] at h

theorem Dev.deliverRx_stands (hheld : it.heldAt = some r) (hbuffers : g.buffers ≠ []) :
    (d.deliverRx i it r).item? i = none ∧
      (d.deliverRx i it r).ringStands r (g.waiting.filter (· != i)) (fewBuffers (g.buffers.length - 1)) := by
  obtain ⟨b, hleft⟩ := Dev.leaveWaiting_ring hring i hheld
  unfold Dev.deliverRx
  rw [hring]
  dsimp only
  split
  · split
    · next x rest hcons =>
      refine ⟨Dev.item?_retired .., Dev.ringStands.retired (Dev.ringStands.flushOwed (Dev.ringStands.rejectBuffers (fewBuffers_tail _)
        (Dev.ringStands.owe ?_ _ _ _) _ _) _) _⟩
      refine ⟨_, Dev.ring?_onRing_self hleft _, rfl, ?_⟩
      rw [hcons]
      exact Nat.le_refl _
    · next hnil => exact absurd hnil hbuffers
  · refine ⟨Dev.item?_retired .., Dev.ringStands.retired (Dev.fillRing_takes ?_ hbuffers _ _) _⟩
    have hstands : (d.leaveWaiting i it).ringStands r (g.waiting.filter (· != i)) (· = g.buffers) := ⟨_, hleft, rfl, rfl⟩
    have hrecord := hstands.rxRecord it r (g.eopSeq ((d.leaveWaiting i it).rxDelivery it).1)
    split
    · exact hrecord.of_rings rfl
    · exact hrecord

end

section
variable {r i : Nat} {g : Ring} {it : Item} {s : State} (h : s.dev.phase = .running) (hget : s.dev.item? i = some it)
  (hitem : s.dev.itemRing it = some r) (hring : s.dev.ring? r = some g) (hstage : it.stage = .waiting)
include h hget hring

theorem exec_waitingFrameDelivery_head {l : List Nat} (hhead : g.waiting = i :: l) (hkind : it.kind = 1) :
    exec (.waitingFrameDelivery r) s = .next { s with dev := (if !s.dev.nextInOrder i it then s.dev
      else if s.dev.mayFill r [s.dev.rxNeeds it] then s.dev.deliverRx i it r else s.dev) } := by
  refine (State.onRun_running _ h : execWaitingFrameDelivery r s = _).trans ?_
  unfold Dev.deliverWaiting
  rw [hring]
  dsimp only
  rw [hhead]
  dsimp only
  rw [hget]
  simp only [hkind, if_true]

theorem exec_waitingFrameDelivery_waits {l : List Nat} (hhead : g.waiting = i :: l) (hkind : it.kind = 1)
    (hwait : s.dev.nextInOrder i it = false ∨ s.dev.mayFill r [s.dev.rxNeeds it] = false) : exec (.waitingFrameDelivery r) s = .next s := by
  rw [exec_waitingFrameDelivery_head h hget hring hhead hkind]
  rcases hwait with hw | hw
  · rw [hw]
    rfl
  · rw [hw, if_neg Bool.false_ne_true, ite_self]

include hitem hstage

theorem exec_waitingFrameDelivery {l : List Nat} (hhead : g.waiting = i :: l) (hkind : it.kind = 1) (hnext : s.dev.nextInOrder i it = true)
    (hfill : s.dev.mayFill r [s.dev.rxNeeds it] = true) :
    ∃ t k, exec (.waitingFrameDelivery r) s = .next t ∧ t.dev.item? i = none ∧ t.dev.ring? r = some k ∧
      k.waiting = g.waiting.filter (· != i) ∧ k.buffers.length < g.buffers.length := by
  have hbuffers := Dev.mayFill_buffers hring hfill
  obtain ⟨hgone, k, hk, hwaiting, hlen⟩ := Dev.deliverRx_stands (i := i) hring (Item.heldAt_waiting hstage hitem) hbuffers
  have hpos := List.length_pos_iff.2 hbuffers
  rw [exec_waitingFrameDelivery_head h hget hring hhead hkind, hnext, hfill]
  refine ⟨_, k, rfl, hgone, hk, hwaiting, ?_⟩
  unfold fewBuffers at hlen
  omega

end

/-! ## Registers that completions leave -/

theorem Dev.writePiece_regs (fn addr : Nat) (data : List Byte) (a : Attr) (d : Dev) : (d.writePiece fn addr data a).regs = d.regs :=
  Dev.regs_of_besides (Dev.writePiece_besides fn addr data a d (List.Subset.refl _))

theorem Dev.owe_regs (r s : Nat) (c : Cpl) (d : Dev) : (d.owe r s c).regs = d.regs := rfl

theorem Dev.checkIrq_regs (r : Nat) (x : Dev) : (x.checkIrq r).regs = x.regs := by
  unfold Dev.checkIrq
  split
  · split
    · exact Dev.sendVector_regs ..
    · rfl
  · rfl

section
variable {P : Nat → Prop} {d e : Dev} (h : d.regsSame P e)
include h

theorem Dev.regsSame.hostWrite (hlink : ∀ i, ¬ P (R.PCX_LINK_STATUS_state.key i 0)) (fn addr : Nat) (data : List Byte) (a : Attr) :
    d.regsSame P (e.hostWrite fn addr data a) := by
  unfold Dev.hostWrite
  refine Dev.regsSame_each (fun p x hx => hx.trans (Dev.regsSame_of_regs (Dev.writePiece_regs ..))) ?_
  unfold Dev.leaveL1
  split
  · exact h.wr _ _ _ _ (hlink _)
  · exact h

theorem Dev.regsSame.useContext (hmiss : ¬ P (R.QMG_CACHE_MISSES_count.key 0 0)) (r : Nat) : d.regsSame P (e.useContext r) := by
  rcases e.useContext_changes r with hu | ⟨c, n, hu⟩
  · rw [hu]
    exact h
  · rw [hu]
    exact Dev.regsSame.wr (e := { e with ctxCache := c, freeCtr := n }) h _ _ _ _ hmiss

theorem Dev.regsSame.writeOwed (hlink : ∀ i, ¬ P (R.PCX_LINK_STATUS_state.key i 0)) (hmiss : ¬ P (R.QMG_CACHE_MISSES_count.key 0 0)) (r : Nat) :
    d.regsSame P (e.writeOwed r) := by
  unfold Dev.writeOwed
  split
  · exact h
  · split
    · exact h
    · split
      · exact h
      · extract_lets n data d₁ d₂
        have h₁ : d.regsSame P d₁ := (h.useContext hmiss r).trans (Dev.regsSame_of_regs rfl)
        have h₂ : d.regsSame P d₂ := h₁.hostWrite hlink _ _ _ _
        split
        · exact h₂
        · exact h₂.trans (Dev.regsSame_of_regs (Dev.checkIrq_regs ..))

theorem Dev.regsSame.flushOwed (hlink : ∀ i, ¬ P (R.PCX_LINK_STATUS_state.key i 0)) (hmiss : ¬ P (R.QMG_CACHE_MISSES_count.key 0 0)) (r : Nat) :
    d.regsSame P (e.flushOwed r) := by
  unfold Dev.flushOwed
  split
  · exact Dev.regsSame_each (fun _ x hx => hx.writeOwed hlink hmiss r) h
  · exact h

theorem Dev.regsSame.updateHeadroom (hroom : ¬ P (R.PWR_HEADROOM_headroom.key 0 0)) (hfilled : ¬ P (R.PWR_HEADROOM_filled.key 0 0)) :
    d.regsSame P e.updateHeadroom := by
  unfold Dev.updateHeadroom
  split
  · exact h
  · extract_lets room k last fresh x
    have hx : d.regsSame P x := (h.wr _ _ _ _ hroom).wr _ _ _ _ hfilled
    clear_value x fresh
    split
    · exact (hx.trans (Dev.regsSame_of_regs (Dev.onPower_regs ..))).raise _ _
    · exact hx

theorem Dev.regsSame.provePosition (hroom : ¬ P (R.PWR_HEADROOM_headroom.key 0 0)) (hfilled : ¬ P (R.PWR_HEADROOM_filled.key 0 0)) (p : Nat) :
    d.regsSame P (e.provePosition p) := by
  unfold Dev.provePosition
  split
  · exact Dev.regsSame.updateHeadroom (h.trans (Dev.regsSame_of_regs (Dev.onPower_regs ..))) hroom hfilled
  · exact h

theorem Dev.regsSame.retired (hroom : ¬ P (R.PWR_HEADROOM_headroom.key 0 0)) (hfilled : ¬ P (R.PWR_HEADROOM_filled.key 0 0)) (i : Nat) :
    d.regsSame P (e.retired i) := by
  cases hget : e.item? i with
  | none =>
    unfold Dev.retired
    rw [hget]
    exact h
  | some it =>
    rw [Dev.retired_eq hget]
    refine Dev.regsSame.trans ?_ (Dev.regsSame_of_regs (Dev.dropItem_regs ..))
    unfold Dev.itemEnds
    extract_lets d₁ d₂ d₃
    have h₁ : d.regsSame P d₁ := by
      refine Dev.regsSame_each (fun c x hx => ?_) h
      cases c <;> exact hx.trans (Dev.regsSame_of_regs rfl)
    have h₂ : d.regsSame P d₂ :=
      iteInduction (motive := d.regsSame P) (fun _ => h₁) (fun _ => h₁.trans (Dev.regsSame_of_regs
        (Dev.regs_of_besides (Dev.countEpilogue_besides _ _ _ (List.Subset.refl _)))))
    have h₃ : d.regsSame P d₃ :=
      iteInduction (motive := d.regsSame P) (fun _ => h₂) (fun _ => h₂.trans (Dev.regsSame_of_regs rfl))
    exact h₃.provePosition hroom hfilled _

theorem Dev.regsSame.completeSource (hlink : ∀ i, ¬ P (R.PCX_LINK_STATUS_state.key i 0)) (hmiss : ¬ P (R.QMG_CACHE_MISSES_count.key 0 0))
    (hroom : ¬ P (R.PWR_HEADROOM_headroom.key 0 0)) (hfilled : ¬ P (R.PWR_HEADROOM_filled.key 0 0)) (i status : Nat) :
    d.regsSame P (e.completeSource i status) := by
  unfold Dev.completeSource
  split
  · exact h
  · split
    · exact h
    · split
      · exact h
      · exact Dev.regsSame.retired (Dev.regsSame.flushOwed (Dev.regsSame_each (fun _ x hx => hx.trans (Dev.regsSame_of_regs
            (Dev.owe_regs ..))) h) hlink hmiss _)
          hroom hfilled _

end

/-! ## A switched item whose wait has passed (R191) -/

theorem Dev.ringStands.completeSource {r : Nat} {l : List Nat} {b : List Desc → Prop} {d : Dev} (h : d.ringStands r l b) (i status : Nat) :
    (d.completeSource i status).ringStands r l b := by
  unfold Dev.completeSource
  split
  · exact h
  · split
    · exact h
    · split
      · exact h
      · exact Dev.ringStands.retired (Dev.ringStands.flushOwed (Dev.each_induct (fun e => e.ringStands r l b) _ _ _ h fun _ _ he => he.owe _ _ _) _) _

section
variable {r i : Nat} {g : Ring} {it : Item} {d : Dev} (hheld : it.heldAt = some r) (hne : it.source ≠ r)
include hheld hne

theorem Dev.leaveWaiting_source : (d.leaveWaiting i it).ring? it.source = d.ring? it.source := by
  unfold Dev.leaveWaiting Dev.releaseHeld
  rw [hheld]
  dsimp only
  rw [Dev.ring?, Dev.onRing, NMap.get?_modify, if_neg hne, Dev.onRing, NMap.get?_modify, if_neg hne]
  rfl

theorem Dev.leaveWaiting_cplOpen : (d.leaveWaiting i it).cplOpen it.source = d.cplOpen it.source := by
  have hissue : ∀ fn, (d.leaveWaiting i it).canIssue fn = d.canIssue fn := by
    intro fn
    unfold Dev.leaveWaiting Dev.releaseHeld
    rw [hheld]
    rfl
  rw [Dev.cplOpen, Dev.cplOpen, Dev.leaveWaiting_source hheld hne]
  simp only [hissue]

end

/-- A counter that lies elsewhere does not decide whether a completion may be written. -/
theorem Dev.cplOpen_bump (d : Dev) (f : Field) (i n r : Nat) (hf : ∀ k, R.PCX_LINK_STATUS_state.key k 0 ≠ f.key i 0) :
    (d.bump f i 0 n).cplOpen r = d.cplOpen r := by
  have hissue : ∀ fn, (d.bump f i 0 n).canIssue fn = d.canIssue fn := by
    intro fn
    have hup : ∀ link, (d.bump f i 0 n).linkUp link = d.linkUp link := by
      intro link
      rw [Dev.linkUp, Dev.linkUp, Dev.bump, Dev.rd_wr_ne _ _ _ _ _ _ _ _ (hf link)]
    rw [Dev.canIssue, Dev.canIssue, hup]
    rfl
  rw [Dev.cplOpen, Dev.cplOpen]
  simp only [hissue]
  rfl

theorem Dev.leaveWaiting_items (i : Nat) (it : Item) (d : Dev) : (d.leaveWaiting i it).items = d.items := by
  unfold Dev.leaveWaiting Dev.releaseHeld
  split <;> rfl

theorem Dev.leaveWaiting_regs (i : Nat) (it : Item) (d : Dev) : (d.leaveWaiting i it).regs = d.regs := by
  unfold Dev.leaveWaiting Dev.releaseHeld
  split <;> rfl

section
variable {r i : Nat} {g : Ring} {it : Item} {s : State} (h : s.dev.phase = .running) (hget : s.dev.item? i = some it)
  (hitem : s.dev.itemRing it = some r) (hring : s.dev.ring? r = some g) (hstage : it.stage = .waiting) (hkind : it.kind = 3)
  (hne : it.source ≠ r) (hopen : s.dev.cplOpen it.source = true)
include h hget hitem hring hstage hkind hne hopen

theorem exec_switchedWaitExpiry : ∃ t k, exec (.switchedWaitExpiry i) s = .next t ∧ t.dev.item? i = none ∧ t.dev.ring? r = some k ∧
    k.waiting = g.waiting.filter (· != i) ∧
    t.dev.rd R.PPL_SW_TIMEOUTS_count 1 = (s.dev.rd R.PPL_SW_TIMEOUTS_count 1 + 1) % 2 ^ R.PPL_SW_TIMEOUTS_count.width := by
  have hheld := Item.heldAt_waiting hstage hitem
  have hdev : s.dev.switchTimeout i it = ((s.dev.leaveWaiting i it).bump R.PPL_SW_TIMEOUTS_count 1).completeSource i 7 := by
    unfold Dev.switchTimeout Dev.refuseSource
    rw [if_pos hopen, Dev.item?_congr (Dev.leaveWaiting_items ..), hget]
    dsimp only
    rw [Dev.leaveWaiting_cplOpen hheld hne, if_pos hopen]
    rfl
  have hexec : exec (.switchedWaitExpiry i) s = .next { s with dev := s.dev.switchTimeout i it } := by
    refine (State.onRun_running _ h : execSwitchedWaitExpiry i s = _).trans ?_
    rw [hget]
    dsimp only
    rw [if_pos ⟨hkind, hstage⟩]
  obtain ⟨b, hleft⟩ := Dev.leaveWaiting_ring hring i hheld
  have hstands : ((s.dev.leaveWaiting i it).bump R.PPL_SW_TIMEOUTS_count 1).ringStands r (g.waiting.filter (· != i)) (fun _ => True) :=
    ⟨_, hleft, rfl, trivial⟩
  obtain ⟨k, hk, hwaiting, -⟩ := hstands.completeSource i 7
  have hsource : (((s.dev.leaveWaiting i it).bump R.PPL_SW_TIMEOUTS_count 1).ring? it.source).isSome := by
    have hsome : (s.dev.ring? it.source).isSome := by
      rw [Dev.cplOpen] at hopen
      split at hopen
      · next k hk => rw [hk]; rfl
      · exact absurd hopen Bool.false_ne_true
    rw [Dev.bump, Dev.ring?_congr (Dev.wr_rings ..), Dev.leaveWaiting_source hheld hne]
    exact hsome
  have hapart : ∀ n, R.PCX_LINK_STATUS_state.key n 0 ≠ R.PPL_SW_TIMEOUTS_count.key 1 0 := by
    intro n
    simp only [Field.key, R.PCX_LINK_STATUS_state, R.PPL_SW_TIMEOUTS_count]
    omega
  have hcount := (Dev.regsSame_refl ((s.dev.leaveWaiting i it).bump R.PPL_SW_TIMEOUTS_count 1)
    (P := (· = R.PPL_SW_TIMEOUTS_count.key 1 0))).completeSource hapart (by decide) (by decide) (by decide) i 7
  rw [hexec, hdev]
  refine ⟨_, k, rfl, ?_, hk, hwaiting, ?_⟩
  · refine (Dev.completeSource_ofRing (it := it) ?_ (by rw [hkind]; decide) ?_ hsource 7).1
    · exact (Dev.item?_congr (Dev.leaveWaiting_items ..) i).trans hget
    · rw [Dev.cplOpen_bump _ _ _ _ _ hapart, Dev.leaveWaiting_cplOpen hheld hne, hopen]
  · rw [hcount.rd rfl, Dev.rd_bump_self, Dev.rd_congr (Dev.leaveWaiting_regs ..)]

end

/-! ## Frames from the line (R349, R182) -/

section
variable {m : Nat} {f : Frame} {s : State} (h : s.dev.phase = .running) (hup : s.dev.macUp m = true)
include h hup

theorem exec_frameReceived_badFcs : exec (.frameReceived m f false) s = .next { s with dev := s.dev.countMac m 2 } := by
  refine (State.onLive_running _ h : execFrameReceived m f false s = _).trans ?_
  simp only [Dev.receiveFrame, hup, Bool.not_true, Bool.false_eq_true, if_false, Bool.not_false, if_true]

variable (hdata : beAt f 12 2 ≠ 0x8808)
include hdata

theorem exec_frameReceived_short (hlen : f.length < 60) : exec (.frameReceived m f true) s = .next { s with dev := s.dev.countMac m 3 } := by
  refine (State.onLive_running _ h : execFrameReceived m f true s = _).trans ?_
  simp only [Dev.receiveFrame, hup, Bool.not_true, Bool.false_eq_true, if_false, hdata, h, ne_eq, not_true, hlen, if_true]

variable (hlong : 60 ≤ f.length)
include hlong

theorem exec_frameReceived_large (hsize : s.dev.rd R.MAC_INST_CFG_max_frame 0 (16 * m) < f.length + 4) :
    exec (.frameReceived m f true) s = .next { s with dev := s.dev.countMac m 4 } := by
  refine (State.onLive_running _ h : execFrameReceived m f true s = _).trans ?_
  simp only [Dev.receiveFrame, hup, Bool.not_true, Bool.false_eq_true, if_false, hdata, h, ne_eq, not_true, not_lt.2 hlong, hsize, if_true]

theorem exec_frameReceived_passes (hsize : f.length + 4 ≤ s.dev.rd R.MAC_INST_CFG_max_frame 0 (16 * m))
    (hclear : s.dev.on R.CRY_MACSEC_RX_rx_enable 0 (8 * m) = false) :
    exec (.frameReceived m f true) s = .next { s with dev := s.dev.ingress m f (s.dev.portStamp m true) (s.dev.plane m true) } := by
  refine (State.onLive_running _ h : execFrameReceived m f true s = _).trans ?_
  simp only [Dev.receiveFrame, hup, Bool.not_true, Bool.false_eq_true, if_false, hdata, h, ne_eq, not_true, not_lt.2 hlong, not_lt.2 hsize, hclear,
    false_and, Dev.macsecReceive, Bool.not_false, if_true]

end

/-- A frame that is not tunnelled meets no termination. -/
theorem Dev.terminate_plain {p : Parse} (h : p.tunnel = 0) (m : Nat) (d : Dev) : d.terminate m p = ((p, 0), d) := by
  unfold Dev.terminate
  split
  · rw [if_pos (.inl h)]
  · rfl

theorem Dev.inboundSa_notEsp {p : Parse} (h : p.l4 ≠ 4) (f : Frame) (d : Dev) : d.inboundSa p f = (none, d) := by
  unfold Dev.inboundSa
  split
  · rw [if_pos (.inl h)]
  · rfl

theorem Dev.preStage_plain {m : Nat} {f : Frame} {vnid : Nat} {d : Dev} (hwhole : (parse d.parseCfg f).truncated = false)
    (hvnid : d.portVnid m (d.portParse m f) f = some vnid) (htunnel : (d.plainItem m f vnid).parse.tunnel = 0)
    (hroce : (d.plainItem m f vnid).parse.roce = false) (htcp : d.tcpConn m (d.plainItem m f vnid).parse = none)
    (hl4 : (d.plainItem m f vnid).parse.l4 ≠ 4) :
    d.preStage m f (d.portStamp m true) (d.plane m true) = (some (d.plainItem m f vnid), d) := by
  have hstages : d.portStages m true f = (some ((d.plainItem m f vnid).parse, 0), d) := by
    have hterm := Dev.terminate_plain (p := { d.portParse m f with vnid := vnid }) htunnel m d
    unfold Dev.portStages
    show (match d.portVnid m (d.portParse m f) f with
      | none => (none, d)
      | some v => (some ({ (d.terminate m { d.portParse m f with vnid := v }).1.1 with
          hashInner := (d.terminate m { d.portParse m f with vnid := v }).1.1.terminated &&
            (d.terminate m { d.portParse m f with vnid := v }).2.on R.PPL_PORT_FLOW_hash_inner 0 (16 * m) },
          (d.terminate m { d.portParse m f with vnid := v }).1.2), (d.terminate m { d.portParse m f with vnid := v }).2)) = _
    rw [hvnid]
    dsimp only
    rw [hterm]
    rfl
  unfold Dev.preStage
  rw [hwhole, Dev.when, if_neg Bool.false_ne_true]
  dsimp only
  rw [hstages]
  dsimp only
  rw [hroce, if_neg Bool.false_ne_true, htcp, Dev.inboundSa_notEsp hl4]
  rfl

theorem Dev.item?_addItem' {it : Item} {d : Dev} {n : Nat} (h : d.nextItem = n) : ((d.addItem it).2).item? n = some it := h ▸ Dev.item?_addItem it d

/-- A frame that no rule refuses is queued under the next admission sequence of its instance. -/
theorem Dev.acceptFrame_item (it : Item) (d : Dev) :
    (∃ z, (d.acceptFrame it).item? d.nextItem = some z ∧ z.stage = .queued ∧ z.bytes = it.bytes ∧ z.seq = d.admitted.getD it.source 0 ∧
      z.verdict = it.verdict) ∧ (d.acceptFrame it).admitted.getD it.source 0 = (d.admitted.getD it.source 0 + 1) % 2 ^ 48 ∧
      (d.acceptFrame it).macs = d.macs := by
  unfold Dev.acceptFrame
  extract_lets m n seq ring held fn d₁ d₂ d₃
  have h₃ : d₃.nextItem = d.nextItem ∧ d₃.admitted = d₁.admitted ∧ d₃.macs = d.macs := by
    cases hring : ring with
    | none => simp only [d₃, hring]; exact ⟨rfl, rfl, rfl⟩
    | some r => simp only [d₃, hring]; exact ⟨rfl, rfl, rfl⟩
  obtain ⟨hnext, hadmitted, hmacs⟩ := h₃
  clear_value d₃ d₂
  refine ⟨⟨_, Dev.item?_addItem' hnext, rfl, rfl, rfl, rfl⟩, ?_, hmacs⟩
  show d₃.admitted.getD it.source 0 = _
  rw [hadmitted]
  exact NMap.getD_set_self ..

theorem exec_frameReceived_accepted {m : Nat} {f : Frame} {s : State} (h : s.dev.phase = .running) (hup : s.dev.macUp m = true) (vnid : Nat)
    (hdata : beAt f 12 2 ≠ 0x8808) (hlong : 60 ≤ f.length) (hsize : f.length + 4 ≤ s.dev.rd R.MAC_INST_CFG_max_frame 0 (16 * m))
    (hclear : s.dev.on R.CRY_MACSEC_RX_rx_enable 0 (8 * m) = false) (hwhole : (parse s.dev.parseCfg f).truncated = false)
    (hstage : s.dev.cryStage m = []) :
    let x := s.dev.plainItem m f vnid
    let y := s.dev.classified x
    s.dev.portVnid m (s.dev.portParse m f) f = some vnid → x.parse.tunnel = 0 → x.parse.roce = false →
    s.dev.tcpConn m x.parse = none → x.parse.l4 ≠ 4 → y.2.mustWait y.1 = false → y.2.boot.shutdown = false → y.2.refusal y.1 = none →
    ∃ t z, exec (.frameReceived m f true) s = .next t ∧ t.dev.item? y.2.nextItem = some z ∧ z.stage = .queued ∧ z.bytes = f ∧
      z.seq = y.2.admitted.getD m 0 ∧ z.verdict = y.1.verdict ∧ t.dev.admitted.getD m 0 = (y.2.admitted.getD m 0 + 1) % 2 ^ 48 := by
  intro x y hvnid htunnel hroce htcp hl4 hwait hshut hrefusal
  have hpre := Dev.preStage_plain hwhole hvnid htunnel hroce htcp hl4
  have hingress : s.dev.ingress m f (s.dev.portStamp m true) (s.dev.plane m true) = y.2.acceptFrame y.1 := by
    unfold Dev.ingress
    rw [hpre]
    dsimp only
    rw [if_pos ⟨rfl, by rw [hstage]; rfl⟩]
    show y.2.admitItem y.1 = _
    rw [Dev.admitItem, hwait, if_neg Bool.false_ne_true, Dev.admitOrRefuse, hshut, if_neg Bool.false_ne_true, hrefusal]
  obtain ⟨⟨z, hz, hqueued, hbytes, hseq, hverdict⟩, hadmitted, -⟩ := y.2.acceptFrame_item y.1
  rw [exec_frameReceived_passes h hup hdata hlong hsize hclear, hingress]
  exact ⟨_, z, rfl, hz, hqueued, hbytes, hseq, hverdict, hadmitted⟩

/-! ## The lossless receive FIFO (R184, R204, R353) -/

/-- What an XON of a port leaves: the MAC instances with their receive FIFOs, the items and the admission sequences. -/
def Dev.linesOnly (d e : Dev) : Prop := e.macs = d.macs ∧ e.items = d.items ∧ e.admitted = d.admitted

section
variable {d e : Dev} (h : d.linesOnly e)
include h

theorem Dev.linesOnly.wr (f : Field) (v u i : Nat) : d.linesOnly (e.wr f v u i) := by
  obtain ⟨hmacs, hitems, hadmitted⟩ := h
  exact ⟨(Dev.wr_macs ..).trans hmacs, (Dev.wr_items ..).trans hitems, (Dev.wr_admitted ..).trans hadmitted⟩

theorem Dev.linesOnly.emit (o : Output) : d.linesOnly (e.emit o) := h

theorem Dev.linesOnly.countMac (m c n : Nat) : d.linesOnly (e.countMac m c n) := h

theorem Dev.linesOnly.putOnLine (m : Nat) (f : Frame) (stomped : Bool) : d.linesOnly (e.putOnLine m f stomped) :=
  ((h.countMac m 12 1).countMac m 13 (wireLen f)).emit _

theorem Dev.linesOnly.wakeMac (m : Nat) : d.linesOnly (e.wakeMac m) := by
  unfold Dev.wakeMac Dev.wakeLpi
  split
  · split
    · exact (h.wr _ _ _ _).emit _
    · exact h
  · exact h

theorem Dev.linesOnly.sendControl (m cls time : Nat) : d.linesOnly (e.sendControl m cls time) := by
  unfold Dev.sendControl
  split
  · exact h
  · exact ((h.wakeMac m).countMac m 14 1).putOnLine m _ _

theorem Dev.linesOnly.checkXon (m cls : Nat) : d.linesOnly (e.checkXon m cls) := by
  have hxoff : d.linesOnly (e.setXoff m cls false) := h.wr _ _ _ _
  unfold Dev.checkXon
  exact iteInduction (motive := d.linesOnly) (fun _ => iteInduction (motive := d.linesOnly)
    (fun _ => iteInduction (motive := d.linesOnly) (fun _ => hxoff) (fun _ => hxoff.sendControl _ _ _)) (fun _ => hxoff)) (fun _ => h)

end

section
variable {m cls : Nat} {it : Item} {l : List Item} {s : State} {x : Parse × Nat} (h : s.dev.phase = .running)
  (hrx : (s.dev.mac m).rx = it :: l) (hcls : it.parse.tc = cls) (hsource : it.source = m) (hopen : s.dev.boot.shutdown = false)
  (hx : (s.dev.portStages m (it.job != 1) it.bytes).1 = some x)
include h hrx hcls hopen hx

theorem exec_losslessFifoAdmit (y : Item × Dev) (hy : y = (s.dev.portStages m (it.job != 1) it.bytes).2.classified (it.after x)) :
    exec (.losslessFifoAdmit m cls) s = .next { s with dev :=
      (if (y.2.refusal y.1 == some 4 || y.2.refusal y.1 == some 5) && s.dev.lossless m y.1.parse.tc then s.dev
       else ((y.2.onMac m (fun z => { z with rx := z.rx.erase it })).admitOrRefuse y.1).checkXon m cls) } := by
  have hfind : (s.dev.mac m).rx.find? (fun it => it.parse.tc == cls) = some it := by
    rw [hrx]
    exact List.find?_cons_of_pos (by rw [hcls, beq_self_eq_true])
  have hpair : s.dev.portStages m (it.job != 1) it.bytes = (some x, (s.dev.portStages m (it.job != 1) it.bytes).2) := Prod.ext hx rfl
  refine (State.onRun_running _ h : execLosslessFifoAdmit m cls s = _).trans ?_
  unfold Dev.admitWaiting
  rw [hfind]
  dsimp only
  rw [hpair]
  dsimp only
  rw [hopen, Bool.false_or, hy]

theorem exec_losslessFifoAdmit_waits :
    let y := (s.dev.portStages m (it.job != 1) it.bytes).2.classified (it.after x)
    y.2.refusal y.1 = some 4 ∨ y.2.refusal y.1 = some 5 → s.dev.lossless m y.1.parse.tc = true →
    exec (.losslessFifoAdmit m cls) s = .next s := by
  intro y hfull hlossless
  rw [exec_losslessFifoAdmit h hrx hcls hopen hx y rfl]
  have hkept : ((y.2.refusal y.1 == some 4 || y.2.refusal y.1 == some 5) && s.dev.lossless m y.1.parse.tc) = true := by
    rw [hlossless, Bool.and_true]
    rcases hfull with hfull | hfull <;> rw [hfull] <;> rfl
  rw [if_pos hkept]

include hsource in
theorem exec_losslessFifoAdmit_accepts :
    let y := (s.dev.portStages m (it.job != 1) it.bytes).2.classified (it.after x)
    y.2.refusal y.1 = none → ∃ t z, exec (.losslessFifoAdmit m cls) s = .next t ∧ (t.dev.mac m).rx = l ∧
      t.dev.item? s.dev.nextItem = some z ∧ z.stage = .queued ∧ z.bytes = it.bytes ∧ z.seq = s.dev.admitted.getD m 0 := by
  intro y hrefusal
  rw [exec_losslessFifoAdmit h hrx hcls hopen hx y rfl]
  have hports := Dev.portStages_besides m (it.job != 1) it.bytes s.dev (List.Subset.refl _)
  have hclass := Dev.classified_besides (it.after x) (s.dev.portStages m (it.job != 1) it.bytes).2 (List.Subset.refl _)
  have hmacs : y.2.macs = s.dev.macs := (Dev.macs_of_besides hclass :).trans (Dev.macs_of_besides hports :)
  have hnext : y.2.nextItem = s.dev.nextItem := (Dev.nextItem_of_besides hclass :).trans (Dev.nextItem_of_besides hports :)
  have hadmitted : y.2.admitted = s.dev.admitted := (Dev.admitted_of_besides hclass :).trans (Dev.admitted_of_besides hports :)
  have hboot : y.2.boot = s.dev.boot := (Dev.boot_of_besides hclass :).trans (Dev.boot_of_besides hports :)
  have hsource' : y.1.source = m := hsource
  have hbytes' : y.1.bytes = it.bytes := rfl
  clear_value y
  generalize hd₁ : y.2.onMac m (fun z => { z with rx := z.rx.erase it }) = d₁
  have hd : d₁.refusal y.1 = y.2.refusal y.1 ∧ d₁.boot = y.2.boot ∧ d₁.nextItem = y.2.nextItem ∧ d₁.admitted = y.2.admitted ∧
      (d₁.mac m).rx = (y.2.mac m).rx.erase it := by
    rw [← hd₁]
    refine ⟨rfl, rfl, rfl, rfl, ?_⟩
    rw [Dev.mac, Dev.onMac, NMap.getD_upd_self]
    rfl
  obtain ⟨hrefuses, hboot₁, hnext₁, hadmitted₁, hrx₁⟩ := hd
  have hgone : (d₁.mac m).rx = l := by
    rw [hrx₁, Dev.mac, hmacs, ← Dev.mac, hrx, List.erase_cons_head]
  have haccept : d₁.admitOrRefuse y.1 = d₁.acceptFrame y.1 := by
    rw [Dev.admitOrRefuse, hboot₁, hboot, hopen, if_neg Bool.false_ne_true, hrefuses, hrefusal]
  obtain ⟨⟨z, hz, hqueued, hzbytes, hzseq, -⟩, -, hmacs₁⟩ := d₁.acceptFrame_item y.1
  obtain ⟨hmacs₂, hitems₂, -⟩ := (show (d₁.acceptFrame y.1).linesOnly (d₁.acceptFrame y.1) from ⟨rfl, rfl, rfl⟩).checkXon m cls
  have hfull : ¬ ((y.2.refusal y.1 == some 4 || y.2.refusal y.1 == some 5) && s.dev.lossless m y.1.parse.tc) = true := by
    rw [hrefusal]
    exact Bool.false_ne_true
  rw [if_neg hfull, haccept]
  refine ⟨_, z, rfl, ?_, ?_, hqueued, hzbytes.trans hbytes', ?_⟩
  · rw [← hgone, Dev.mac, hmacs₂, hmacs₁, Dev.mac]
  · rw [← hnext, ← hnext₁]
    exact (Dev.item?_congr hitems₂ _).trans hz
  · rw [hzseq, hsource', hadmitted₁, hadmitted]

end

/-- Settles O31. -/
theorem receptionAndDelivery : Obligations.ReceptionAndDelivery :=
  ⟨fun _ _ _ h hup => ⟨exec_frameReceived_badFcs h hup, exec_frameReceived_short h hup, exec_frameReceived_large h hup,
      fun vnid => exec_frameReceived_accepted h hup vnid⟩,
    fun _ _ _ _ _ h hrx hcls hsource hopen _ hx => ⟨exec_losslessFifoAdmit_accepts h hrx hcls hsource hopen hx,
      exec_losslessFifoAdmit_waits h hrx hcls hopen hx⟩,
    fun _ _ _ _ _ h hget hitem hring _ hstage => ⟨fun _ hwaits hreceived hnext hfill => exec_waitingFrameDelivery h hget hitem hring hstage
        hwaits hreceived hnext hfill,
      fun _ hwaits hreceived hnot => exec_waitingFrameDelivery_waits h hget hring hwaits hreceived hnot,
      fun hkind₃ hne hcpl => exec_switchedWaitExpiry h hget hitem hring hstage hkind₃ hne hcpl⟩⟩

end Sys2Proof.Machine
end

section
/-!
The microword at a thread's pc (R242, R248, R264).
-/

namespace Sys2Proof.Machine

/-! ## Waits of a position -/

theorem mem_insertKey_of {α : Type} {k : Nat} {v : α} {q : Nat × α} {m : List (Nat × α)} (h : q ∈ insertKey k v m) : q = (k, v) ∨ q ∈ m := by
  induction m with
  | nil => exact .inl (List.mem_singleton.1 h)
  | cons p m ih =>
    obtain ⟨k', v'⟩ := p
    unfold insertKey at h
    split at h
    · exact (List.mem_cons.1 h).imp id (List.mem_cons_of_mem _)
    · split at h
      · exact List.mem_cons.1 h
      · rcases List.mem_cons.1 h with rfl | h
        · exact .inr List.mem_cons_self
        · exact (ih h).imp id (List.mem_cons_of_mem _)

/-- No thread of position `p` waits. -/
def Dev.unwaiting (d : Dev) (p : Nat) : Prop := ∀ e ∈ (d.siteAt p).threads.entries, e.2.wait = none

theorem Dev.waiters_nil {d : Dev} {p : Nat} : d.waiters p = [] ↔ d.unwaiting p := by
  unfold Dev.waiters Dev.unwaiting
  rw [List.map_eq_nil_iff, ← List.length_eq_zero_iff, List.length_mergeSort, List.length_eq_zero_iff, List.filterMap_eq_nil_iff]
  simp only [Option.map_eq_none_iff]

theorem Dev.settle_unwaiting {d : Dev} {p : Nat} (h : d.unwaiting p) : d.settle p = d := by
  rw [Dev.settle, Dev.waiters_nil.2 h]
  rfl

theorem Dev.unwaiting_congr {d e : Dev} {p : Nat} (h : (e.siteAt p).threads = (d.siteAt p).threads) (hquiet : d.unwaiting p) : e.unwaiting p := by
  unfold Dev.unwaiting
  rw [h]
  exact hquiet

theorem Dev.thread_congr {d e : Dev} {p : Nat} (h : (e.siteAt p).threads = (d.siteAt p).threads) (t : Nat) : e.thread p t = d.thread p t := by
  rw [Dev.thread, Dev.thread, h]

theorem Dev.thread_onThread_self (d : Dev) (p t : Nat) (f : Thread → Thread) : (d.onThread p t f).thread p t = f (d.thread p t) := by
  rw [Dev.thread, Dev.onThread, Dev.siteAt_onSite_self]
  exact NMap.getD_upd_self ..

theorem Dev.thread_onThread_ne (d : Dev) (p : Nat) {t u : Nat} (f : Thread → Thread) (h : u ≠ t) :
    (d.onThread p t f).thread p u = d.thread p u := by
  rw [Dev.thread, Dev.onThread, Dev.siteAt_onSite_self]
  exact NMap.getD_upd_ne _ _ _ _ h

theorem Dev.siteAt_onSite_ne (d : Dev) {p q : Nat} (f : SetSite → SetSite) (h : (d.setAt q).site ≠ (d.setAt p).site) :
    (d.onSite p f).siteAt q = d.siteAt q := NMap.getD_upd_ne _ _ _ _ h

theorem Dev.unwaiting.onThread {d : Dev} {p t : Nat} (h : d.unwaiting p) {f : Thread → Thread} (hf : (f (d.thread p t)).wait = none) :
    (d.onThread p t f).unwaiting p := by
  intro e he
  rw [Dev.onThread, Dev.siteAt_onSite_self] at he
  rcases mem_insertKey_of he with rfl | he
  · exact hf
  · exact h e he

/-! ## What an issued microword leaves -/

/-- Beside sites and the count of free values only the token that thread `t` took for its microword shows in `e`. -/
def Dev.acted (p t : Nat) (d e : Dev) : Prop :=
  e = { d with sites := e.sites, freeCtr := e.freeCtr, regs := (d.tokenFor p t).regs } ∧ (e.siteAt p).callers = ((d.tokenFor p t).siteAt p).callers

/-- Of every site only thread `t` of position `p`, and the Callers there, differ. -/
def Dev.threadOnly (p t : Nat) (d e : Dev) : Prop :=
  (∀ u, u ≠ t → e.thread p u = d.thread p u) ∧
  e.siteAt p = { d.siteAt p with threads := (e.siteAt p).threads, callers := (e.siteAt p).callers } ∧
  (∀ q, (d.setAt q).site ≠ (d.setAt p).site → e.siteAt q = d.siteAt q) ∧ e.setPos = d.setPos

theorem Dev.siteAt_congr {d e : Dev} (hpos : e.setPos = d.setPos) (hsites : e.sites = d.sites) (p : Nat) : e.siteAt p = d.siteAt p := by
  rw [Dev.siteAt, Dev.siteAt, Dev.setAt, Dev.setAt, hpos, hsites]

theorem Dev.countIssued_eq (p : Nat) (d : Dev) : d.countIssued p = { d with regs := (d.countIssued p).regs } := rfl

theorem Dev.countIssued_siteAt (p q : Nat) (d : Dev) : (d.countIssued p).siteAt q = d.siteAt q := Dev.siteAt_congr rfl rfl q

theorem Dev.takeToken_siteAt (p t : Nat) (d : Dev) : ∃ c, (d.takeToken p t).siteAt p = { d.siteAt p with callers := c } :=
  ⟨_, Dev.siteAt_onSite_self ..⟩

/-- A token leaves every thread, and each site but its Callers. -/
theorem Dev.tokenFor_threads (p t : Nat) (d : Dev) : ∃ c, (d.tokenFor p t).siteAt p = { d.siteAt p with callers := c } := by
  unfold Dev.tokenFor
  split
  · exact ⟨_, rfl⟩
  · rw [Dev.countIssued_siteAt]
    exact d.takeToken_siteAt p t

theorem Dev.tokenFor_thread (p t u : Nat) (d : Dev) : (d.tokenFor p t).thread p u = d.thread p u := by
  obtain ⟨c, hc⟩ := d.tokenFor_threads p t
  exact Dev.thread_congr (by rw [hc]) u

theorem Dev.unwaiting.tokenFor {d : Dev} {p : Nat} (h : d.unwaiting p) (t : Nat) : (d.tokenFor p t).unwaiting p := by
  obtain ⟨c, hc⟩ := d.tokenFor_threads p t
  exact Dev.unwaiting_congr (by rw [hc]) h

theorem Dev.acted_tokenFor (p t : Nat) (d : Dev) : d.acted p t (d.tokenFor p t) := by
  refine ⟨?_, rfl⟩
  unfold Dev.tokenFor
  split
  · rfl
  · rw [Dev.countIssued_eq]
    rfl

theorem Dev.threadOnly_refl (p t : Nat) (d : Dev) : d.threadOnly p t d := ⟨fun _ _ => rfl, rfl, fun _ _ => rfl, rfl⟩

theorem Dev.threadOnly_tokenFor (p t : Nat) (d : Dev) : d.threadOnly p t (d.tokenFor p t) := by
  obtain ⟨c, hc⟩ := d.tokenFor_threads p t
  refine ⟨fun u _ => d.tokenFor_thread p t u, by rw [hc], fun q hq => ?_, ?_⟩
  · unfold Dev.tokenFor
    split
    · rfl
    · rw [Dev.countIssued_siteAt]
      exact Dev.siteAt_onSite_ne _ _ hq
  · unfold Dev.tokenFor
    split <;> rfl

section
variable {p t : Nat} {d e : Dev}

theorem Dev.acted.onSite (h : d.acted p t e) {f : SetSite → SetSite} (hf : (f (e.siteAt p)).callers = (e.siteAt p).callers) :
    d.acted p t (e.onSite p f) := by
  obtain ⟨hrest, hcallers⟩ := h
  refine ⟨?_, by rw [Dev.siteAt_onSite_self, hf, hcallers]⟩
  rw [hrest]
  rfl

theorem Dev.acted.onThread (h : d.acted p t e) (u : Nat) (f : Thread → Thread) : d.acted p t (e.onThread p u f) := h.onSite rfl

theorem Dev.acted.freed (h : d.acted p t e) (n : Nat) : d.acted p t { e with freeCtr := n } := by
  obtain ⟨hrest, hcallers⟩ := h
  refine ⟨?_, hcallers⟩
  rw [hrest]

theorem Dev.acted.issues {s : State} (h : s.dev.acted p t e) : issues p t s { s with dev := e } := by
  obtain ⟨hrest, hcallers⟩ := h
  exact ⟨congrArg (fun x : Dev => ({ s with dev := x } : State)) hrest, hcallers⟩

theorem Dev.threadOnly.onThread (h : d.threadOnly p t e) (f : Thread → Thread) : d.threadOnly p t (e.onThread p t f) := by
  obtain ⟨hothers, hsite, helse, hpos⟩ := h
  refine ⟨fun u hu => (Dev.thread_onThread_ne _ _ _ hu).trans (hothers u hu), ?_, fun q hq => ?_, hpos⟩
  · rw [Dev.onThread, Dev.siteAt_onSite_self, hsite]
  · refine (Dev.siteAt_onSite_ne _ _ ?_).trans (helse q hq)
    rw [Dev.setAt, Dev.setAt, hpos]
    exact hq

theorem Dev.threadOnly.freed (h : d.threadOnly p t e) (n : Nat) : d.threadOnly p t { e with freeCtr := n } := h

theorem Dev.threadOnly.becomes {s : State} {th : Thread} (h : s.dev.threadOnly p t e) (hth : e.thread p t = th) :
    threadBecomes p t th s { s with dev := e } := by
  obtain ⟨hothers, hsite, helse, -⟩ := h
  exact ⟨hth, hothers, hsite, helse⟩

end

/-! ## The microword at a thread's pc (R242, R248, R264) -/

section
variable {p t : Nat} {d : Dev}

theorem Dev.fetchMicroword_checked (h : checkOk (d.word p t) = true) : d.fetchMicroword p t = d := by
  have hsyndrome : syndrome (d.word p t) = (0, false) := eq_of_beq h
  unfold Dev.fetchMicroword fetchWord
  rw [hsyndrome]
  exact ite_self d

theorem Dev.fetchMicroword_unnamed (h : d.named p t = false) : d.fetchMicroword p t = d := by
  unfold Dev.fetchMicroword
  rw [h]
  exact if_pos (Bool.or_true _)

theorem Dev.atWord.mayIssue (h : d.atWord p t) : (d.thread p t).mayIssue = true := by
  obtain ⟨hready, hitem, hwait, -⟩ := h
  rw [Thread.mayIssue, hready, hitem, hwait]
  rfl

theorem Dev.atWord.legal (h : d.atWord p t) : mwLegal (d.word p t) = true := by
  obtain ⟨-, -, -, -, -, hlegal, -⟩ := h
  rw [Dev.legalAt, Bool.and_eq_true] at hlegal
  exact hlegal.1

/-- A legal microword of a thread that its engine's step falls to is issued, with the token. -/
theorem Dev.atWord.issueWord (h : d.atWord p t) (hfresh : (d.thread p t).issuedData = false) :
    d.issueWord p t (d.word p t) = (true, d.tokenFor p t) := by
  have hmay := h.mayIssue
  obtain ⟨-, -, -, hnamed, -, hlegal, -⟩ := h
  have hlegal' : (d.takeToken p t).legalAt p (d.word p t) = true := hlegal
  rw [Dev.issueWord, hmay, hnamed, if_neg (by decide), Dev.tokenFor, hfresh]
  dsimp only
  rw [if_pos hlegal', if_neg Bool.false_ne_true]

theorem Dev.atData.dataOp {cls fn : Nat} (h : d.atData p t cls fn) (f : Microword → Thread → Dev → Dev) :
    (d.fetchMicroword p t).dataOp p t cls fn f = (f (d.word p t) (d.thread p t) (d.issued p t)).settle p := by
  obtain ⟨hword, hcls, hfn, hfresh⟩ := h
  have hissue := hword.issueWord hfresh
  have hlegal := hword.legal
  obtain ⟨-, -, -, -, hcheck, -, -⟩ := hword
  rw [Dev.fetchMicroword_checked hcheck, Dev.dataOp, hfresh, if_neg Bool.false_ne_true]
  dsimp only
  rw [hissue, hcls, hfn]
  simp only [bne_self_eq_false, Bool.or_self, Bool.and_false, Bool.false_eq_true, if_false, if_true]
  rw [Dev.tokenFor_thread]
  rfl

theorem Dev.atNext.nextOp {op : Nat} (h : d.atNext p t op) (f : Microword → Thread → Dev → Dev) :
    (d.fetchMicroword p t).nextOp p t op f = (f (d.word p t) (d.thread p t) (d.tokenFor p t)).settle p := by
  obtain ⟨hword, hop, hdata, -, -⟩ := h
  have hissue := hword.issueWord
  have hlegal := hword.legal
  obtain ⟨-, -, -, -, hcheck, -, -⟩ := hword
  rw [Dev.fetchMicroword_checked hcheck, Dev.nextOp]
  cases hfresh : (d.thread p t).issuedData with
  | true =>
    rw [if_pos rfl, if_pos hop, Dev.tokenFor, hfresh, if_pos rfl]
  | false =>
    have hcls : mwClass (d.word p t) = 0 := hdata.resolve_right (by rw [hfresh]; exact Bool.false_ne_true)
    rw [if_neg Bool.false_ne_true, hissue hfresh, hop, hcls]
    simp only [bne_self_eq_false, Bool.or_self, Bool.and_false, Bool.false_eq_true, if_false, if_true]
    rw [Dev.tokenFor_thread]

theorem Dev.atWord.unwaiting (h : d.atWord p t) : d.unwaiting p := by
  obtain ⟨-, -, -, -, -, -, hwaiters⟩ := h
  exact Dev.waiters_nil.1 hwaiters

theorem Dev.atWord.noWait (h : d.atWord p t) : (d.thread p t).wait = none := by
  obtain ⟨-, -, hwait, -⟩ := h
  exact hwait

theorem Dev.issued_thread (p t : Nat) (d : Dev) : (d.issued p t).thread p t = { d.thread p t with issuedData := true } := by
  rw [Dev.issued, Dev.thread_onThread_self, Dev.tokenFor_thread]

theorem Dev.acted_issued (p t : Nat) (d : Dev) : d.acted p t (d.issued p t) := (d.acted_tokenFor p t).onThread _ _

theorem Dev.threadOnly_issued (p t : Nat) (d : Dev) : d.threadOnly p t (d.issued p t) := (d.threadOnly_tokenFor p t).onThread _

theorem Dev.atWord.unwaiting_issued (h : d.atWord p t) : (d.issued p t).unwaiting p :=
  (h.unwaiting.tokenFor t).onThread ((congrArg Thread.wait (d.tokenFor_thread p t t)).trans h.noWait)

end

section
variable {p t cls fn : Nat} {s : State} (h : s.dev.phase = .running)
include h

theorem State.onData_next (hat : s.dev.atData p t cls fn) (f : Microword → Thread → Dev → Dev) :
    s.onData p t cls fn f = .next { s with dev := (f (s.dev.word p t) (s.dev.thread p t) (s.dev.issued p t)).settle p } := by
  rw [State.onData, State.onRun_running _ h, hat.dataOp]

theorem State.onNext_next {op : Nat} (hat : s.dev.atNext p t op) (f : Microword → Thread → Dev → Dev) :
    s.onNext p t op f = .next { s with dev := (f (s.dev.word p t) (s.dev.thread p t) (s.dev.tokenFor p t)).settle p } := by
  rw [State.onNext, State.onRun_running _ h, hat.nextOp]

/-- A datapath function that only makes another of its thread, which does not wait. -/
theorem State.onData_thread (hat : s.dev.atData p t cls fn) {f : Microword → Thread → Dev → Dev} {n : Nat} {g : Thread → Thread} {th : Thread}
    (hf : f (s.dev.word p t) (s.dev.thread p t) (s.dev.issued p t) = { s.dev.issued p t with freeCtr := n }.onThread p t g)
    (hth : g { s.dev.thread p t with issuedData := true } = th) (hwait : th.wait = none) :
    ∃ s', s.onData p t cls fn f = .next s' ∧ issues p t s s' ∧ threadBecomes p t th s s' := by
  have hthread : ({ s.dev.issued p t with freeCtr := n }.onThread p t g).thread p t = th := by
    rw [Dev.thread_onThread_self]
    exact (congrArg g (Dev.issued_thread p t s.dev)).trans hth
  have hquiet : ({ s.dev.issued p t with freeCtr := n }.onThread p t g).unwaiting p :=
    Dev.unwaiting.onThread (d := { s.dev.issued p t with freeCtr := n }) hat.1.unwaiting_issued
      ((congrArg Thread.wait ((congrArg g (Dev.issued_thread p t s.dev)).trans hth)).trans hwait)
  rw [State.onData_next h hat, hf, Dev.settle_unwaiting hquiet]
  exact ⟨_, rfl, (((Dev.acted_issued p t s.dev).freed n).onThread _ _).issues,
    (((Dev.threadOnly_issued p t s.dev).freed n).onThread _).becomes hthread⟩

end

end Sys2Proof.Machine
end

section
/-!
Arithmetic, shifts and fields of the microcode (R250).
-/

namespace Sys2Proof.Machine

/-! ## Arithmetic and logic (R250 class 1) -/

theorem Dev.flagOr_freed (o : Option Bool) (d : Dev) : ∃ n, (d.flagOr o).2 = { d with freeCtr := n } := by
  cases o with
  | none => exact ⟨_, rfl⟩
  | some b => exact ⟨_, rfl⟩

/-- What an arithmetic function makes of its thread. -/
theorem Dev.alu_thread (p t f : Nat) (w : Microword) (th : Thread) (d : Dev) :
    ∃ n c v, (∀ b, (aluResult f (opA w th) (opB w th) th.carry).2.1 = some b → c = b) ∧
      (∀ b, (aluResult f (opA w th) (opB w th) th.carry).2.2 = some b → v = b) ∧
      d.alu p t f w th = { d with freeCtr := n }.onThread p t (fun x =>
        (if f = 5 then x else x.setReg (mwDst w) (aluResult f (opA w th) (opB w th) th.carry).1).setFlags
          (aluResult f (opA w th) (opB w th) th.carry).1 c v) := by
  unfold Dev.alu
  generalize aluResult f (opA w th) (opB w th) th.carry = r
  obtain ⟨r, o, o'⟩ := r
  have hcarry : ∀ b, o = some b → (d.flagOr o).1 = b := by rintro b rfl; rfl
  have hover : ∀ b, o' = some b → ((d.flagOr o).2.flagOr o').1 = b := by rintro b rfl; rfl
  obtain ⟨m, hm⟩ := d.flagOr_freed o
  obtain ⟨n, hn⟩ := (d.flagOr o).2.flagOr_freed o'
  exact ⟨n, _, _, hcarry, hover, by dsimp only; rw [hn, hm]⟩

section
variable {p t : Nat} {s : State} (h : s.dev.phase = .running)
include h

/-- An arithmetic function at its microword: its result goes to dst but for compare, with the flags that the spec states. -/
theorem State.onData_alu {f : Nat} (hat : s.dev.atData p t 1 f) :
    let r := aluResult f (opA (s.dev.word p t) (s.dev.thread p t)) (opB (s.dev.word p t) (s.dev.thread p t)) (s.dev.thread p t).carry
    ∃ s' c v, s.onData p t 1 f (Dev.alu p t f) = .next s' ∧ issues p t s s' ∧
      threadBecomes p t ((s.dev.thread p t).computed (if f = 5 then none else some (mwDst (s.dev.word p t))) r.1 c v) s s' ∧
      (∀ b, r.2.1 = some b → c = b) ∧ (∀ b, r.2.2 = some b → v = b) := by
  intro r
  obtain ⟨n, c, v, hc, hv, halu⟩ := Dev.alu_thread p t f (s.dev.word p t) (s.dev.thread p t) (s.dev.issued p t)
  obtain ⟨s', hnext, hissues, hbecomes⟩ := State.onData_thread h hat halu (th := (s.dev.thread p t).computed
    (if f = 5 then none else some (mwDst (s.dev.word p t))) r.1 c v) (by split <;> rfl) hat.1.noWait
  exact ⟨s', c, v, hnext, hissues, hbecomes, hc, hv⟩

/-- A function whose flags the spec states. -/
theorem State.onData_alu_flags {f : Nat} (hat : s.dev.atData p t 1 f) {r : Word64} {b b' : Bool} {k : Option Nat}
    (hr : aluResult f (opA (s.dev.word p t) (s.dev.thread p t)) (opB (s.dev.word p t) (s.dev.thread p t)) (s.dev.thread p t).carry =
      (r, some b, some b')) (hk : (if f = 5 then none else some (mwDst (s.dev.word p t))) = k) :
    ∃ s', s.onData p t 1 f (Dev.alu p t f) = .next s' ∧ issues p t s s' ∧ threadBecomes p t ((s.dev.thread p t).computed k r b b') s s' := by
  obtain ⟨s', c, v, hnext, hissues, hbecomes, hc, hv⟩ := State.onData_alu h hat
  rw [hr] at hc hv hbecomes
  rw [hk, hc b rfl, hv b' rfl] at hbecomes
  exact ⟨s', hnext, hissues, hbecomes⟩

/-- A function whose carry the spec leaves open. -/
theorem State.onData_alu_overflow {f : Nat} (hat : s.dev.atData p t 1 f) {r : Word64} {b' : Bool} {k : Option Nat}
    (hr : aluResult f (opA (s.dev.word p t) (s.dev.thread p t)) (opB (s.dev.word p t) (s.dev.thread p t)) (s.dev.thread p t).carry =
      (r, none, some b')) (hk : (if f = 5 then none else some (mwDst (s.dev.word p t))) = k) :
    ∃ s' c, s.onData p t 1 f (Dev.alu p t f) = .next s' ∧ issues p t s s' ∧ threadBecomes p t ((s.dev.thread p t).computed k r c b') s s' := by
  obtain ⟨s', c, v, hnext, hissues, hbecomes, -, hv⟩ := State.onData_alu h hat
  rw [hr] at hv hbecomes
  rw [hk, hv b' rfl] at hbecomes
  exact ⟨s', c, hnext, hissues, hbecomes⟩

/-- A function whose carry and overflow the spec leaves open. -/
theorem State.onData_alu_open {f : Nat} (hat : s.dev.atData p t 1 f) {r : Word64} {k : Option Nat}
    (hr : aluResult f (opA (s.dev.word p t) (s.dev.thread p t)) (opB (s.dev.word p t) (s.dev.thread p t)) (s.dev.thread p t).carry =
      (r, none, none)) (hk : (if f = 5 then none else some (mwDst (s.dev.word p t))) = k) :
    ∃ s' c v, s.onData p t 1 f (Dev.alu p t f) = .next s' ∧ issues p t s s' ∧ threadBecomes p t ((s.dev.thread p t).computed k r c v) s s' := by
  obtain ⟨s', c, v, hnext, hissues, hbecomes, -, -⟩ := State.onData_alu h hat
  rw [hr, hk] at hbecomes
  exact ⟨s', c, v, hnext, hissues, hbecomes⟩

/-! ## Shifts and fields (R250 class 2) -/

omit h in
theorem Dev.shift_thread (p t f : Nat) (w : Microword) (th : Thread) (d : Dev) :
    ∃ n r, (∀ b, shiftResult f (opA w th) (opB w th) (mwOffset w) (mwWidth w) = some b → r = b) ∧
      d.shift p t f w th = { d with freeCtr := n }.onThread p t (fun x => x.setReg (mwDst w) r) := by
  unfold Dev.shift
  cases shiftResult f (opA w th) (opB w th) (mwOffset w) (mwWidth w) with
  | none => exact ⟨_, _, fun b hb => absurd hb (by simp), rfl⟩
  | some r => exact ⟨d.freeCtr, r, fun b hb => Option.some.inj hb, rfl⟩

/-- A shift at its microword: its result goes to dst, where the spec states one. -/
theorem State.onData_shift {f : Nat} (hat : s.dev.atData p t 2 f) :
    ∃ s' r, s.onData p t 2 f (Dev.shift p t f) = .next s' ∧ issues p t s s' ∧
      threadBecomes p t { s.dev.thread p t with issuedData := true, regs := (s.dev.thread p t).regs.set (mwDst (s.dev.word p t)) r } s s' ∧
      ∀ b, shiftResult f (opA (s.dev.word p t) (s.dev.thread p t)) (opB (s.dev.word p t) (s.dev.thread p t)) (mwOffset (s.dev.word p t))
        (mwWidth (s.dev.word p t)) = some b → r = b := by
  obtain ⟨n, r, hr, hshift⟩ := Dev.shift_thread p t f (s.dev.word p t) (s.dev.thread p t) (s.dev.issued p t)
  obtain ⟨s', hnext, hissues, hbecomes⟩ := State.onData_thread h hat hshift rfl hat.1.noWait
  exact ⟨s', r, hnext, hissues, hbecomes, hr⟩

/-- One whose result the spec states in any case. -/
theorem State.onData_shift_stated {f : Nat} (hat : s.dev.atData p t 2 f) {r : Word64}
    (hr : shiftResult f (opA (s.dev.word p t) (s.dev.thread p t)) (opB (s.dev.word p t) (s.dev.thread p t)) (mwOffset (s.dev.word p t))
      (mwWidth (s.dev.word p t)) = some r) :
    ∃ s', s.onData p t 2 f (Dev.shift p t f) = .next s' ∧ issues p t s s' ∧
      threadBecomes p t { s.dev.thread p t with issuedData := true, regs := (s.dev.thread p t).regs.set (mwDst (s.dev.word p t)) r } s s' := by
  obtain ⟨s', r', hnext, hissues, hbecomes, hstated⟩ := State.onData_shift h hat
  rw [hstated r hr] at hbecomes
  exact ⟨s', hnext, hissues, hbecomes⟩

end

theorem getLsbD_maskWord (w i : Nat) (h : i < 64) : (maskWord w).getLsbD i = decide (i < w) := by
  rw [maskWord, BitVec.getLsbD_ofNat, Nat.testBit_two_pow_sub_one]
  simp only [h, decide_true, Bool.true_and]

/-- The bits of an extracted field. -/
theorem getLsbD_extract (a : Word64) (off width i : Nat) (h : i < 64) :
    ((a >>> off) &&& maskWord width).getLsbD i = (decide (i < width) && a.getLsbD (off + i)) := by
  rw [BitVec.getLsbD_and, BitVec.getLsbD_ushiftRight, getLsbD_maskWord _ _ h, Bool.and_comm]

/-- The bits of a word with a field inserted. -/
theorem getLsbD_insert (a b : Word64) (off width i : Nat) (h : i < 64) :
    ((b &&& ~~~(maskWord width <<< off)) ||| ((a &&& maskWord width) <<< off)).getLsbD i =
      (if off ≤ i ∧ i < off + width then a.getLsbD (i - off) else b.getLsbD i) := by
  simp only [BitVec.getLsbD_or, BitVec.getLsbD_and, BitVec.getLsbD_not, BitVec.getLsbD_shiftLeft, h, decide_true, Bool.true_and]
  rw [getLsbD_maskWord _ _ (by omega)]
  by_cases hlow : off ≤ i
  · by_cases hhigh : i < off + width
    · have hin : i - off < width := by omega
      simp [hlow, hhigh, hin, Nat.not_lt.2 hlow]
    · have hout : ¬ i - off < width := by omega
      simp [hlow, hhigh, hout, Nat.not_lt.2 hlow]
  · simp [hlow, Nat.lt_of_not_le hlow]

/-- Settles O34. -/
theorem arithmeticAndShifts : Obligations.ArithmeticAndShifts := by
  refine ⟨fun p t s h => ⟨fun hat => ?_, fun hat => ?_, fun hat => ?_, fun hat => ?_, fun hat => ?_, fun hat => ?_, fun hat => ?_,
    fun hat => ?_⟩, fun p t s h => ⟨fun hat => ?_, fun hat => ?_, fun hat => ?_, fun hat => ?_, fun hat => ?_⟩⟩
  · exact State.onData_alu_flags h hat rfl rfl
  · exact State.onData_alu_overflow h hat rfl rfl
  · exact State.onData_alu_open h hat rfl rfl
  · exact State.onData_alu_open h hat rfl rfl
  · exact State.onData_alu_open h hat rfl rfl
  · exact State.onData_alu_overflow h hat rfl rfl
  · exact State.onData_alu_open h hat rfl rfl
  · exact State.onData_alu_flags h hat rfl rfl
  · exact State.onData_shift_stated h hat rfl
  · exact State.onData_shift_stated h hat rfl
  · exact State.onData_shift_stated h hat rfl
  · obtain ⟨s', r, hnext, hissues, hbecomes, hr⟩ := State.onData_shift h hat
    refine ⟨s', r, hnext, hissues, hbecomes, fun hwidth i hi => ?_⟩
    rw [hr _ ((if_neg hwidth).trans rfl), getLsbD_extract _ _ _ _ hi]
  · obtain ⟨s', r, hnext, hissues, hbecomes, hr⟩ := State.onData_shift h hat
    refine ⟨s', r, hnext, hissues, hbecomes, fun hwidth i hi => ?_⟩
    rw [hr _ ((if_neg hwidth).trans rfl), getLsbD_insert _ _ _ _ _ hi]

end Sys2Proof.Machine
end

section
/-!
The Caller (R242-R244).
-/

namespace Sys2Proof.Machine

/-! ## Next-address operations that only move their thread -/

section
variable {p t op : Nat} {s : State} (h : s.dev.phase = .running)
include h

/-- A next-address operation that only makes another of its thread, which does not wait. -/
theorem State.onNext_thread (hat : s.dev.atNext p t op) {f : Microword → Thread → Dev → Dev} {g : Thread → Thread} {th : Thread}
    (hf : f (s.dev.word p t) (s.dev.thread p t) (s.dev.tokenFor p t) = (s.dev.tokenFor p t).onThread p t g)
    (hth : g (s.dev.thread p t) = th) (hwait : th.wait = none) :
    ∃ s', s.onNext p t op f = .next s' ∧ issues p t s s' ∧ threadBecomes p t th s s' := by
  have hthread : ((s.dev.tokenFor p t).onThread p t g).thread p t = th := by
    rw [Dev.thread_onThread_self, Dev.tokenFor_thread, hth]
  have hquiet : ((s.dev.tokenFor p t).onThread p t g).unwaiting p :=
    (hat.1.unwaiting.tokenFor t).onThread (by rw [Dev.tokenFor_thread, hth, hwait])
  rw [State.onNext_next h hat, hf, Dev.settle_unwaiting hquiet]
  exact ⟨_, rfl, ((Dev.acted_tokenFor p t s.dev).onThread _ _).issues, ((Dev.threadOnly_tokenFor p t s.dev).onThread _).becomes hthread⟩

end

/-- Where neither the distance from a yield point nor the debugger intervenes, a thread goes on at the address. -/
theorem Dev.goTo_on {p t pc : Nat} {w : Microword} {d : Dev} (hyield : mwYield w = true ∨ (d.thread p t).sinceYield < 1023)
    (hkill : (d.thread p t).kill = false) (hstate : (d.thread p t).state = .ready) :
    d.goTo p t pc w = d.onThread p t (fun th => th.goesTo w pc) := by
  have hnear : ¬ (!mwYield w && decide (1023 ≤ (d.thread p t).sinceYield)) = true := by
    rcases hyield with hyield | hyield
    · rw [hyield]
      exact Bool.false_ne_true
    · rw [decide_eq_false (Nat.not_le.2 hyield), Bool.and_false]
      exact Bool.false_ne_true
  have hevent : (d.onThread p t (fun th => th.goesTo w pc)).takeEvent p t = d.onThread p t (fun th => th.goesTo w pc) := by
    have hthread := Dev.thread_onThread_self d p t (fun th => th.goesTo w pc)
    have hkill' : ((d.onThread p t (fun th => th.goesTo w pc)).thread p t).kill = false := by rw [hthread]; exact hkill
    have hstate' : ((d.onThread p t (fun th => th.goesTo w pc)).thread p t).state = .ready := by rw [hthread]; exact hstate
    rw [Dev.takeEvent, hkill', hstate']
    rfl
  unfold Dev.goTo
  rw [if_neg hnear]
  exact (congrArg (fun x => if mwYield w then x else d.onThread p t (fun th => th.goesTo w pc)) hevent).trans (ite_self _)

theorem Dev.atNext.goTo {p t op : Nat} {d : Dev} (h : d.atNext p t op) (pc : Nat) :
    (d.tokenFor p t).goTo p t pc (d.word p t) = (d.tokenFor p t).onThread p t (fun th => th.goesTo (d.word p t) pc) := by
  obtain ⟨⟨hready, -⟩, -, -, hkill, hyield⟩ := h
  exact Dev.goTo_on (by rw [Dev.tokenFor_thread]; exact hyield) (by rw [Dev.tokenFor_thread]; exact hkill)
    (by rw [Dev.tokenFor_thread]; exact hready)

theorem exec_seq {p t : Nat} {s : State} (h : s.dev.phase = .running) (hat : s.dev.atNext p t 0) :
    ∃ s', exec (.seq p t) s = .next s' ∧ issues p t s s' ∧
      threadBecomes p t ((s.dev.thread p t).goesTo (s.dev.word p t) ((s.dev.thread p t).pc + 1)) s s' :=
  State.onNext_thread h hat (hat.goTo _) rfl hat.1.noWait

/-! ## A thread that its engine's step does not fall to (R243) -/

theorem Dev.issueWord_unnamed {p t : Nat} {d : Dev} (h : d.named p t = false) (w : Microword) : d.issueWord p t w = (false, d) := by
  rw [Dev.issueWord, h]
  exact if_pos (Bool.or_true _)

section
variable {p t : Nat} {s : State} (hnamed : s.dev.named p t = false) (hfresh : (s.dev.thread p t).issuedData = false)
include hnamed hfresh

theorem State.onNext_unnamed (op : Nat) (f : Microword → Thread → Dev → Dev) : s.onNext p t op f = .next s := by
  have hsame : (s.dev.fetchMicroword p t).nextOp p t op f = s.dev := by
    rw [Dev.fetchMicroword_unnamed hnamed, Dev.nextOp, hfresh, if_neg Bool.false_ne_true]
    dsimp only
    rw [Dev.issueWord_unnamed hnamed, if_neg Bool.false_ne_true, ite_self]
  unfold State.onNext State.onRun
  dsimp only
  rw [hsame]
  exact congrArg Host.Outcome.next (ite_self s)

theorem State.onData_unnamed (cls fn : Nat) (f : Microword → Thread → Dev → Dev) : s.onData p t cls fn f = .next s := by
  have hsame : (s.dev.fetchMicroword p t).dataOp p t cls fn f = s.dev := by
    rw [Dev.fetchMicroword_unnamed hnamed, Dev.dataOp, hfresh, if_neg Bool.false_ne_true]
    dsimp only
    rw [Dev.issueWord_unnamed hnamed, if_neg Bool.false_ne_true, ite_self]
  unfold State.onData State.onRun
  dsimp only
  rw [hsame]
  exact congrArg Host.Outcome.next (ite_self s)

theorem exec_unnamed {op : Nat → Nat → Instr} (hop : op ∈ [Instr.seq, .jump, .branch, .call, .callIf, .popReturn, .popReturnIf, .wait, .table,
    .passEnd, .trap, .aluAdd, .aluSub, .shiftLeft, .load8b, .store8b, .readHead, .classify, .channelWrite, .channelRead, .flagSet]) :
    exec (op p t) s = .next s := by
  have hnext := State.onNext_unnamed hnamed hfresh
  have hdata := State.onData_unnamed hnamed hfresh
  simp only [List.mem_cons, List.not_mem_nil, or_false] at hop
  rcases hop with rfl | rfl | rfl | rfl | rfl | rfl | rfl | rfl | rfl | rfl | rfl | rfl | rfl | rfl | rfl | rfl | rfl | rfl | rfl | rfl | rfl
  iterate 11 exact hnext _ _
  iterate 10 exact hdata _ _ _

end

/-! ## Whom the Caller names (R243) -/

namespace Caller
variable {c : Caller} {ready : Nat → Bool}

/-- The threads in the order of the round robin. -/
def order (c : Caller) : List Nat := (List.range 8).map (fun k => (c.last + 1 + k) % 8)

/-- Thread `k` is ready and below its floor. -/
def below (c : Caller) (ready : Nat → Bool) (k : Nat) : Bool := ready k && c.claimed.getD k 0 < (if hasBit c.floor2 k then 2 else 1)

/-- Thread `k` is ready and has priority. -/
def prio (c : Caller) (ready : Nat → Bool) (k : Nat) : Bool := ready k && hasBit c.priority k

theorem mem_order {k : Nat} : k ∈ c.order ↔ k < 8 := by
  simp only [order, List.mem_map, List.mem_range]
  constructor
  · rintro ⟨j, -, rfl⟩
    exact Nat.mod_lt _ (by decide)
  · intro hk
    exact ⟨(k + 8 - (c.last + 1) % 8) % 8, Nat.mod_lt _ (by decide), by omega⟩

theorem next_eq : c.next ready = (match c.order.find? (c.below ready) with
    | some k => some (k, false)
    | none => (match (List.range 8).filter (c.prio ready) with
      | [] => (c.order.find? ready).map (fun k => (k, false))
      | [a] => some (a, true)
      | a :: b :: _ => some (if c.lastPrio = a then b else a, true))) := rfl

theorem next_below {k : Nat} (hk : k < 8) (h : c.below ready k = true) : ∃ j, j < 8 ∧ c.next ready = some (j, false) ∧ c.below ready j = true := by
  obtain ⟨j, hj⟩ := Option.isSome_iff_exists.1 (List.find?_isSome.2 ⟨k, c.mem_order.2 hk, h⟩)
  refine ⟨j, c.mem_order.1 (List.mem_of_find?_eq_some hj), ?_, List.find?_some (p := c.below ready) hj⟩
  rw [next_eq, hj]

/-- Where no thread is below its floor, the priority threads that are ready decide. -/
theorem next_noneBelow (h : ∀ k, k < 8 → c.below ready k = false) : c.next ready = (match (List.range 8).filter (c.prio ready) with
    | [] => (c.order.find? ready).map (fun k => (k, false))
    | [a] => some (a, true)
    | a :: b :: _ => some (if c.lastPrio = a then b else a, true)) := by
  have hnone : c.order.find? (c.below ready) = none :=
    List.find?_eq_none.2 (fun k hk => by rw [h k (c.mem_order.1 hk)]; exact Bool.false_ne_true)
  rw [next_eq, hnone]

variable (h : ∀ k, k < 8 → c.below ready k = false)
include h

theorem next_prio {a : Nat} (ha : a < 8) (hprio : c.prio ready a = true) :
    ∃ j, j < 8 ∧ c.next ready = some (j, true) ∧ c.prio ready j = true := by
  have hmem : ∀ {k}, k ∈ (List.range 8).filter (c.prio ready) ↔ k < 8 ∧ c.prio ready k = true := by
    simp only [List.mem_filter, List.mem_range, implies_true]
  have hin := hmem.2 ⟨ha, hprio⟩
  rw [next_noneBelow h]
  generalize (List.range 8).filter (c.prio ready) = l at hmem hin
  match l with
  | [] => exact absurd hin List.not_mem_nil
  | [x] =>
    obtain ⟨hx, hprio'⟩ := hmem.1 (List.mem_singleton_self x)
    exact ⟨x, hx, rfl, hprio'⟩
  | x :: y :: l =>
    have hboth : (if c.lastPrio = x then y else x) ∈ x :: y :: l := by
      split
      · exact List.mem_cons_of_mem _ List.mem_cons_self
      · exact List.mem_cons_self
    obtain ⟨hlt, hprio'⟩ := hmem.1 hboth
    exact ⟨_, hlt, rfl, hprio'⟩

theorem next_otherPrio {a b : Nat} (ha : a < 8) (hprio : c.prio ready a = true) (hb : b < 8) (hne : a ≠ b) (hprio' : c.prio ready b = true)
    (honly : ∀ x, x < 8 → c.prio ready x = true → x = a ∨ x = b) (hlast : c.lastPrio = a) : c.next ready = some (b, true) := by
  have hmem : ∀ {k}, k ∈ (List.range 8).filter (c.prio ready) ↔ k < 8 ∧ c.prio ready k = true := by
    simp only [List.mem_filter, List.mem_range, implies_true]
  have hina := hmem.2 ⟨ha, hprio⟩
  have hinb := hmem.2 ⟨hb, hprio'⟩
  have hnodup : ((List.range 8).filter (c.prio ready)).Nodup := List.nodup_range.filter _
  rw [next_noneBelow h]
  generalize (List.range 8).filter (c.prio ready) = l at hmem hina hinb hnodup
  match l with
  | [] => exact absurd hina List.not_mem_nil
  | [x] => exact absurd ((List.mem_singleton.1 hina).trans (List.mem_singleton.1 hinb).symm) hne
  | x :: y :: l =>
    have hx := hmem.1 (List.mem_cons_self (a := x))
    have hy := hmem.1 (List.mem_cons_of_mem x (List.mem_cons_self (a := y)))
    have hxy : x ≠ y := fun e => (List.nodup_cons.1 hnodup).1 (by rw [e]; exact List.mem_cons_self)
    have hx' := honly x hx.1 hx.2
    have hy' := honly y hy.1 hy.2
    have hpick : (if c.lastPrio = x then y else x) = b := by
      rw [hlast]
      split
      · omega
      · omega
    exact congrArg (fun j => some (j, true)) hpick

theorem next_ready (hprio : ∀ k, k < 8 → c.prio ready k = false) : c.next ready = (c.order.find? ready).map (fun k => (k, false)) := by
  have hnone : (List.range 8).filter (c.prio ready) = [] :=
    List.filter_eq_nil_iff.2 (fun k hk => by rw [hprio k (List.mem_range.1 hk)]; exact Bool.false_ne_true)
  rw [next_noneBelow h, hnone]

theorem next_anyReady (hprio : ∀ k, k < 8 → c.prio ready k = false) {a : Nat} (ha : a < 8) (hready : ready a = true) :
    ∃ j, j < 8 ∧ c.next ready = some (j, false) ∧ ready j = true := by
  obtain ⟨j, hj⟩ := Option.isSome_iff_exists.1 (List.find?_isSome.2 ⟨a, c.mem_order.2 ha, hready⟩)
  refine ⟨j, c.mem_order.1 (List.mem_of_find?_eq_some hj), ?_, List.find?_some hj⟩
  rw [next_ready h hprio, hj]
  rfl

omit h in
theorem next_noneReady (hready : ∀ k, k < 8 → ready k = false) : c.next ready = none := by
  have hbelow : ∀ k, k < 8 → c.below ready k = false := fun k hk => by rw [below, hready k hk, Bool.false_and]
  have hprio : ∀ k, k < 8 → c.prio ready k = false := fun k hk => by rw [prio, hready k hk, Bool.false_and]
  have hnone : c.order.find? ready = none := List.find?_eq_none.2 (fun k hk => by rw [hready k (c.mem_order.1 hk)]; exact Bool.false_ne_true)
  rw [next_ready hbelow hprio, hnone]
  rfl

end Caller

/-! ## Rounds (R242) -/

theorem Dev.takeToken_caller (p t : Nat) (d : Dev) :
    ∃ x, ((d.takeToken p t).siteAt p).callers.getD (t / 8) {} = { d.caller p (t / 8) with
      granted := (d.caller p (t / 8)).granted + 1
      claimed := (d.caller p (t / 8)).claimed.set (t % 8) ((d.caller p (t / 8)).claimed.getD (t % 8) 0 + 1)
      last := t % 8
      lastPrio := x } := by
  rw [Dev.takeToken, Dev.siteAt_onSite_self]
  exact ⟨_, NMap.getD_set_self ..⟩

/-- The token that `seq` takes moves the round on. -/
theorem exec_seq_token {p t : Nat} {s : State} (h : s.dev.phase = .running) (hat : s.dev.atNext p t 0)
    (hfresh : (s.dev.thread p t).issuedData = false) :
    ∃ s', exec (.seq p t) s = .next s' ∧
      let c := s.dev.caller p (t / 8)
      let c' := (s'.dev.siteAt p).callers.getD (t / 8) {}
      c'.granted = c.granted + 1 ∧ c'.last = t % 8 ∧ c'.floor2 = c.floor2 ∧ c'.priority = c.priority ∧
      (c.claimed.length = 8 → ∀ k, k < 8 → c'.claimed.getD k 0 = c.claimed.getD k 0 + (if k = t % 8 then 1 else 0)) := by
  obtain ⟨s', hnext, ⟨-, hcallers⟩, -⟩ := exec_seq h hat
  refine ⟨s', hnext, ?_⟩
  have htoken : ((s.dev.tokenFor p t).siteAt p).callers = ((s.dev.takeToken p t).siteAt p).callers := by
    rw [Dev.tokenFor, hfresh, if_neg Bool.false_ne_true, Dev.countIssued_siteAt]
  intro c c'
  obtain ⟨x, hx⟩ := Dev.takeToken_caller p t s.dev
  have hc' : c' = _ := (congrArg (fun l : NMap Caller => l.getD (t / 8) {}) (hcallers.trans htoken)).trans hx
  rw [hc']
  refine ⟨rfl, rfl, rfl, rfl, fun hlen k hk => ?_⟩
  show (c.claimed.set (t % 8) (c.claimed.getD (t % 8) 0 + 1)).getD k 0 = _
  rw [List.getD_eq_getElem?_getD, List.getElem?_set]
  by_cases hkt : k = t % 8
  · subst hkt
    rw [if_pos rfl, if_pos (by omega), if_pos rfl]
    rfl
  · rw [if_neg (Ne.symm hkt), if_neg hkt, ← List.getD_eq_getElem?_getD, Nat.add_zero]

/-- Settles O35. -/
theorem theCaller : Obligations.TheCaller := by
  intro p t s h hp ht d e c ready floor below prio
  have hbelow : ∀ k, below k ↔ c.below ready k = true := fun k => by rw [Caller.below, Bool.and_eq_true, decide_eq_true_iff]
  have hprio : ∀ k, prio k ↔ c.prio ready k = true := fun k => by rw [Caller.prio, Bool.and_eq_true]
  have hno : (∀ k, k < 8 → ¬ below k) → ∀ k, k < 8 → c.below ready k = false := fun hn k hk =>
    Bool.eq_false_iff.2 fun hb => hn k hk ((hbelow k).2 hb)
  refine ⟨fun op hnamed hop hfresh => exec_unnamed hnamed hfresh hop, fun k hk hb => ?_, fun hn a ha hpa => ⟨?_, ?_⟩, fun hn a ha hra => ?_,
    Caller.next_noneReady, fun hg => if_pos hg, fun hg => ?_, fun hat hfresh => exec_seq_token h hat hfresh⟩
  · obtain ⟨j, hj, hnext, hbj⟩ := Caller.next_below hk ((hbelow k).1 hb)
    exact ⟨j, hj, hnext, (hbelow j).2 hbj⟩
  · obtain ⟨j, hj, hnext, hpj⟩ := Caller.next_prio (hno hn) ha ((hprio a).1 hpa)
    exact ⟨j, hj, hnext, (hprio j).2 hpj⟩
  · intro b hb hne hpb honly hlast
    exact Caller.next_otherPrio (hno hn) ha ((hprio a).1 hpa) hb hne ((hprio b).1 hpb) (fun x hx hpx => honly x hx ((hprio x).2 hpx)) hlast
  · exact Caller.next_anyReady (hno fun k hk => (hn k hk).1) (fun k hk => Bool.eq_false_iff.2 fun hpk => (hn k hk).2 ((hprio k).2 hpk)) ha hra
  · have hc : c = _ := if_neg (Nat.not_lt.2 hg)
    rw [hc]
    exact ⟨rfl, rfl, rfl, rfl⟩

end Sys2Proof.Machine
end

section
/-!
Next-address operations and passes (R240, R248, R249, R255).
-/

namespace Sys2Proof.Machine

/-! ## Registers, threads and items through a thread's fault (R256, R260) -/

theorem NMap.mem_of_get? {α : Type} {m : NMap α} {k : Nat} {v : α} (h : m.get? k = some v) : (k, v) ∈ m.entries := by
  obtain ⟨l⟩ := m
  replace h : findKey k l = some v := h
  induction l with
  | nil => exact absurd h (by simp [findKey])
  | cons e l ih =>
    obtain ⟨k', v'⟩ := e
    unfold findKey at h
    split at h
    · next hk =>
      obtain rfl := Option.some.inj h
      rw [hk]
      exact List.mem_cons_self
    · exact List.mem_cons_of_mem _ (ih h)

/-- No thread of an unwaiting position waits. -/
theorem Dev.unwaiting.thread {d : Dev} {p : Nat} (h : d.unwaiting p) (t : Nat) : (d.thread p t).wait = none := by
  rw [Dev.thread, NMap.getD]
  cases hget : (d.siteAt p).threads.get? t with
  | none => rfl
  | some th => exact h _ (NMap.mem_of_get? hget)

/-- The sites and their positions stay. -/
def Dev.sitesSame (d e : Dev) : Prop := e.sites = d.sites ∧ e.setPos = d.setPos

theorem Dev.sitesSame.siteAt {d e : Dev} (h : d.sitesSame e) (p : Nat) : e.siteAt p = d.siteAt p := Dev.siteAt_congr h.2 h.1 p

theorem Dev.unwaiting.sitesSame {d e : Dev} {p : Nat} (hd : d.unwaiting p) (h : d.sitesSame e) : e.unwaiting p :=
  Dev.unwaiting_congr (by rw [h.siteAt]) hd

theorem Dev.sitesSame.thread {d e : Dev} (h : d.sitesSame e) (p t : Nat) : e.thread p t = d.thread p t := Dev.thread_congr (by rw [h.siteAt]) t

theorem Dev.sitesSame_of_besides {ps : List Part} {d e : Dev} (h : e.besides ps = d.besides ps) (hsets : Part.sets ∉ ps)
    (hpos : Part.positions ∉ ps) : d.sitesSame e :=
  ⟨Dev.sites_of_besides h hsets, Dev.setPos_of_besides h hpos⟩

theorem Dev.sitesSame_cause (d : Dev) (c : Causes) (b i : Nat) : d.sitesSame (d.cause c b i) :=
  Dev.sitesSame_of_besides (Dev.cause_besides d c b i (List.Subset.refl _)) (by decide) (by decide)

theorem Dev.sitesSame_wr (d : Dev) (f : Field) (v i a : Nat) : d.sitesSame (d.wr f v i a) := ⟨rfl, rfl⟩

theorem Dev.sitesSame.trans {c d e : Dev} (h : c.sitesSame d) (h' : d.sitesSame e) : c.sitesSame e :=
  ⟨h'.1.trans h.1, h'.2.trans h.2⟩

theorem Field.key_unit (f : Field) {i a : Nat} (hi : i < 65536) (ha : f.off + a < 33554432) (hlsb : f.lsb < 32) : f.key i a / 2 ^ 46 = f.unit := by
  simp only [Field.key]
  omega

/-! ## An item that a thread's fault fails -/

/-- The fields of unit type `u` stay. -/
def Dev.unitSame (u : Nat) (d e : Dev) : Prop := d.regsSame (fun k => k / 2 ^ 46 = u) e

theorem Dev.logFailure_unit (x : Failure) (d : Dev) : d.unitSame 0x41 (d.logFailure x) := by
  unfold Dev.logFailure
  split
  · exact Dev.regsSame_refl d
  · exact ((Dev.regsSame_refl d).wr _ _ _ _ (by decide)).cause _ _ _ (by decide)

/-- An item leaves the place where it waits without a change of a register. -/
theorem Dev.leftPlace_regs (waits : Bool) (i : Nat) (it : Item) (d : Dev) :
    (if waits = true then Dev.releaseHeld it d else d.leaveWaiting i it).regs = d.regs := by
  split
  · unfold Dev.releaseHeld
    split <;> rfl
  · exact Dev.leaveWaiting_regs ..

theorem Dev.failItem_regs (i reason : Nat) (d : Dev) : d.unitSame 0x41 (d.failItem i reason) := by
  have hd : d.unitSame 0x41 d := Dev.regsSame_refl d
  unfold Dev.failItem
  split
  · exact hd
  · split
    · exact hd
    · next it _ _ =>
      extract_lets onPort waits src d₁ d₂ d₃ d₄
      have h₁ : d.unitSame 0x41 d₁ := Dev.regsSame_of_regs (Dev.leftPlace_regs ..)
      have h₂ : d.unitSame 0x41 d₂ := (Dev.regsSame.wr h₁ _ _ _ _ (by decide)).cause _ _ _ (by decide)
      have h₃ : d.unitSame 0x41 d₃ := Dev.regsSame.trans h₂ (Dev.logFailure_unit _ d₂)
      have h₄ : d.unitSame 0x41 d₄ := Dev.regsSame.trans h₃ (Dev.regsSame_of_regs
        (Dev.regs_of_besides (Dev.countEpilogue_besides _ _ _ (List.Subset.refl _))))
      clear_value d₄
      split
      · exact Dev.regsSame.cause (e := d₄.countMac it.source 9) h₄ macCauses 6 0 (by decide)
      · exact h₄

theorem Dev.failItem_item {i reason : Nat} {it : Item} {d : Dev} (hget : d.item? i = some it) (hfailed : it.failed = none)
    (hstage : it.stage ≠ .crypto) {x : Item} (hx : (d.failItem i reason).item? i = some x) : x.failed = some reason ∧ x.status = 6 := by
  unfold Dev.failItem at hx
  split at hx
  · next hnone => exact absurd (hget.symm.trans hnone) (by simp)
  · next y hy =>
    obtain rfl : it = y := Option.some.inj (hget.symm.trans hy)
    have hgoes : ¬ (it.failed.isSome || decide (it.stage = .crypto)) = true := by
      rw [hfailed, Option.isSome_none, Bool.false_or, decide_eq_false hstage]
      exact Bool.false_ne_true
    rw [if_neg hgoes] at hx
    extract_lets onPort waits src d₁ d₂ d₃ d₄ at hx
    clear_value d₄
    split at hx
    · rw [Dev.item?_dropItem_self] at hx
      exact absurd hx (by simp)
    · rw [Dev.item?, Dev.onItem, NMap.get?_modify, if_pos rfl] at hx
      obtain ⟨z, -, rfl⟩ := Option.map_eq_some_iff.1 hx
      exact ⟨rfl, rfl⟩

theorem Dev.failItem_sites (i reason : Nat) (d : Dev) : d.sitesSame (d.failItem i reason) :=
  Dev.sitesSame_of_besides (Dev.failItem_besides i reason d (List.Subset.refl _)) (by decide) (by decide)

/-! ## A thread's fault -/

/-- The key of the count of a position's thread faults. -/
def faultKey (p : Nat) (k : Nat) : Prop := k = R.SET_THREAD_FAULTS_count.key p 0

theorem not_faultKey_abandoned (p a : Nat) : ¬ faultKey p (R.SET_CHAN_ABANDONED_abandoned.key p a) := by
  simp only [faultKey, Field.key, R.SET_THREAD_FAULTS_count, R.SET_CHAN_ABANDONED_abandoned]
  omega

theorem not_faultKey_at (p : Nat) {f : Field} (h : f.key 0 0 ≠ R.SET_THREAD_FAULTS_count.key 0 0) : ¬ faultKey p (f.key p 0) :=
  Field.key_ne_at p 0 h

section
variable {p : Nat} {d e : Dev}

theorem Dev.regsSame.faultsOnSite (h : d.regsSame (faultKey p) e) (f : SetSite → SetSite) : d.regsSame (faultKey p) (e.onSite p f) := h

theorem Dev.regsSame.abandonChan (h : d.regsSame (faultKey p) e) (c : Nat) : d.regsSame (faultKey p) (e.abandonChan p c) :=
  (h.wr _ _ _ _ (not_faultKey_abandoned p _)).cause _ _ _ (not_faultKey_at p (by decide))

theorem Dev.regsSame.stageEmptied (h : d.regsSame (faultKey p) e) (c : Nat) : d.regsSame (faultKey p) (e.stageEmptied p c) := by
  unfold Dev.stageEmptied
  split
  · exact h
  · exact h

theorem Dev.regsSame.releaseChannels (h : d.regsSame (faultKey p) e) (t : Nat) : d.regsSame (faultKey p) (e.releaseChannels p t) := by
  unfold Dev.releaseChannels
  extract_lets th e₁ e₂
  have h₁ : d.regsSame (faultKey p) e₁ := by
    show d.regsSame (faultKey p) (match th.sendChan with
      | some c => _
      | none => _)
    split
    · exact Dev.regsSame.abandonChan (h.faultsOnSite _) _
    · exact h
  have h₂ : d.regsSame (faultKey p) e₂ := by
    show d.regsSame (faultKey p) (match th.readChan with
      | some (c, m) => _
      | none => _)
    split
    · exact Dev.regsSame.abandonChan (Dev.regsSame.stageEmptied (h₁.faultsOnSite _) _) _
    · exact h₁
  exact h₂

theorem Dev.regsSame.pushFault (h : d.regsSame (faultKey p) e) (t code pc : Nat) : d.regsSame (faultKey p) (e.pushFault p t code pc) := by
  unfold Dev.pushFault
  split
  · exact h
  · exact h.wr _ _ _ _ (not_faultKey_at p (by decide))

theorem Dev.unwaiting.abandonChan (h : d.unwaiting p) (c : Nat) : (d.abandonChan p c).unwaiting p :=
  h.sitesSame ((d.sitesSame_wr _ _ _ _).trans (Dev.sitesSame_cause ..))

theorem Dev.unwaiting.onSetChan (h : d.unwaiting p) (c : Nat) (f : SetChan → SetChan) : (d.onSetChan p c f).unwaiting p :=
  Dev.unwaiting_congr (by rw [Dev.onSetChan, Dev.siteAt_onSite_self]) h

theorem Dev.unwaiting.stageEmptied (h : d.unwaiting p) (c : Nat) : (d.stageEmptied p c).unwaiting p := by
  unfold Dev.stageEmptied
  split
  · intro x hx
    rw [Dev.siteAt_onSite_self] at hx
    obtain ⟨y, hy, rfl⟩ := List.mem_map.1 hx
    show (if _ then _ else _ : Thread).wait = none
    split
    · exact h y hy
    · exact h y hy
  · exact h

theorem Dev.unwaiting.releaseChannels (h : d.unwaiting p) (t : Nat) : (d.releaseChannels p t).unwaiting p := by
  unfold Dev.releaseChannels
  extract_lets th d₁ d₂
  have h₁ : d₁.unwaiting p := by
    show (match th.sendChan with
      | some c => _
      | none => _ : Dev).unwaiting p
    split
    · exact (h.onSetChan _ _).abandonChan _
    · exact h
  have h₂ : d₂.unwaiting p := by
    show (match th.readChan with
      | some (c, m) => _
      | none => _ : Dev).unwaiting p
    split
    · exact ((h₁.onSetChan _ _).stageEmptied _).abandonChan _
    · exact h₁
  exact h₂.onThread (h₂.thread t)

theorem Dev.unwaiting.pushFault (h : d.unwaiting p) (t code pc : Nat) : (d.pushFault p t code pc).unwaiting p := by
  unfold Dev.pushFault
  split
  · exact Dev.unwaiting_congr (by rw [Dev.siteAt_onSite_self]) h
  · exact h.sitesSame (Dev.sitesSame_wr ..)

theorem Dev.pushFault_thread (p t code pc u : Nat) (d : Dev) : (d.pushFault p t code pc).thread p u = d.thread p u := by
  unfold Dev.pushFault
  split
  · exact Dev.thread_congr (by rw [Dev.siteAt_onSite_self]) u
  · exact (Dev.sitesSame_wr ..).thread p u

end

/-- What a fault of thread `t` leaves: it is idle, its item failed, and the fault is counted. -/
def Dev.faultLeaves (p t i : Nat) (d e : Dev) : Prop :=
  (e.thread p t).state = .idle ∧ (e.thread p t).item = none ∧
  e.rd R.SET_THREAD_FAULTS_count p = (d.rd R.SET_THREAD_FAULTS_count p + 1) % 2 ^ R.SET_THREAD_FAULTS_count.width ∧
  e.on (setCauses.bit 0) p = true ∧ ∀ x, e.item? i = some x → x.failed = some 4 ∧ x.status = 6

theorem Dev.threadFault_leaves {p t i : Nat} {it : Item} {d : Dev} (hp : p < 34) (hquiet : d.unwaiting p)
    (hitem : (d.thread p t).item = some i) (hget : d.item? i = some it) (hfailed : it.failed = none) (hstage : it.stage ≠ .crypto) (code : Nat) :
    d.faultLeaves p t i (d.threadFault p t code) ∧ (d.threadFault p t code).unwaiting p := by
  unfold Dev.threadFault
  extract_lets th d₁ d₂ d₃ d₄
  have hitems₁ : d₁.items = d.items := Dev.items_of_besides (Dev.releaseChannels_besides p t d (List.Subset.refl _))
  have hd₂ : d₂ = d₁.failItem i 4 := by
    show (match th.item with
      | some i => _
      | none => _) = _
    rw [show th.item = some i from hitem]
  have hfail : ∀ x, d₂.item? i = some x → x.failed = some 4 ∧ x.status = 6 := by
    rw [hd₂]
    exact fun x hx => Dev.failItem_item ((Dev.item?_congr hitems₁ i).trans hget) hfailed hstage hx
  have hregs₂ : d.regsSame (faultKey p) d₂ := by
    rw [hd₂]
    refine ((Dev.regsSame_refl d).releaseChannels t).trans (fun k hk => Dev.failItem_regs i 4 d₁ k ?_)
    rw [show k = _ from hk]
    exact Field.key_unit _ (by omega) (by decide) (by decide)
  have hquiet₂ : d₂.unwaiting p := by
    rw [hd₂]
    exact (hquiet.releaseChannels t).sitesSame (Dev.failItem_sites ..)
  clear_value d₂
  have hregs₄ : d.regsSame (faultKey p) d₄ := Dev.regsSame.pushFault (show d.regsSame (faultKey p) d₃ from hregs₂) t code th.pc
  have hquiet₄ : d₄.unwaiting p := (hquiet₂.onThread rfl).pushFault _ _ _
  have hthread₄ : d₄.thread p t = (d₂.thread p t).toIdle := (Dev.pushFault_thread ..).trans (Dev.thread_onThread_self ..)
  have hitems₄ : d₄.items = d₂.items := (Dev.items_of_besides (Dev.pushFault_besides p t code th.pc d₃ (List.Subset.refl _)) :)
  have hlast : d₄.sitesSame ((d₄.bump R.SET_THREAD_FAULTS_count p).cause setCauses 0 p) := (d₄.sitesSame_wr _ _ _ _).trans (Dev.sitesSame_cause ..)
  have hitems : ((d₄.bump R.SET_THREAD_FAULTS_count p).cause setCauses 0 p).items = d₂.items :=
    (Dev.items_of_besides (Dev.cause_besides _ _ _ _ (List.Subset.refl _)) :).trans ((Dev.wr_items ..).trans hitems₄)
  refine ⟨⟨?_, ?_, ?_, Dev.cause_on .., fun x hx => hfail x ((Dev.item?_congr hitems i).symm.trans hx)⟩, hquiet₄.sitesSame hlast⟩
  · rw [hlast.thread, hthread₄]
    rfl
  · rw [hlast.thread, hthread₄]
    rfl
  · rw [Dev.rd_cause_at _ _ _ _ _ (by decide), Dev.rd_bump_self, hregs₄.rd rfl]

/-! ## Next-address operations (R248, R249) -/

theorem insertKey_insertKey {α : Type} (k : Nat) (v w : α) (m : List (Nat × α)) : insertKey k w (insertKey k v m) = insertKey k w m := by
  induction m with
  | nil => simp only [insertKey, if_true]
  | cons e m ih =>
    obtain ⟨k', v'⟩ := e
    by_cases hk : k = k'
    · simp only [insertKey, hk, if_true]
    · by_cases hlt : k < k'
      · simp only [insertKey, hk, hlt, if_true, if_false]
      · simp only [insertKey, hk, hlt, if_false, ih]

theorem NMap.upd_upd {α : Type} (m : NMap α) (k : Nat) (x : α) (f g : α → α) : (m.upd k x f).upd k x g = m.upd k x (fun v => g (f v)) := by
  show (⟨insertKey k (g ((m.upd k x f).getD k x)) (insertKey k _ m.entries)⟩ : NMap α) = _
  rw [NMap.getD_upd_self, insertKey_insertKey]
  rfl

theorem Dev.onSite_onSite (d : Dev) (p : Nat) (f g : SetSite → SetSite) : (d.onSite p f).onSite p g = d.onSite p (fun x => g (f x)) :=
  congrArg (fun l : NMap SetSite => { d with sites := l }) (NMap.upd_upd ..)

theorem Dev.onThread_onThread (d : Dev) (p t : Nat) (f g : Thread → Thread) :
    (d.onThread p t f).onThread p t g = d.onThread p t (fun x => g (f x)) := by
  rw [Dev.onThread, Dev.onThread, Dev.onSite_onSite, Dev.onThread]
  exact congrArg (d.onSite p) (funext fun x => congrArg (fun l : NMap Thread => { x with threads := l }) (NMap.upd_upd ..))

/-- What a condition looks at. -/
theorem Dev.condTest_congr {d e : Dev} {p : Nat} (hflags : (e.siteAt p).flags = (d.siteAt p).flags)
    (hchannels : (e.siteAt p).channels = (d.siteAt p).channels) (hitems : e.items = d.items) (hchans : e.chans = d.chans)
    (hboot : e.boot = d.boot) (th : Thread) (w : Microword) : e.condTest p th w = d.condTest p th w := by
  simp only [Dev.condTest, Dev.condValue, Dev.setChan, Dev.itemReplayed, Dev.payloadIn, Dev.mailFor, Dev.binding, hflags, hchannels, hchans,
    hboot, funext (Dev.item?_congr hitems)]

theorem Dev.condTest_tokenFor (d : Dev) (p t : Nat) (th : Thread) (w : Microword) : (d.tokenFor p t).condTest p th w = d.condTest p th w := by
  obtain ⟨c, hc⟩ := d.tokenFor_threads p t
  have hrest := (d.acted_tokenFor p t).1
  exact Dev.condTest_congr (by rw [hc]) (by rw [hc]) (by rw [hrest]) (by rw [hrest]) (by rw [hrest]) th w

section
variable {p t op : Nat} {d : Dev}

/-- A thread that changed something else first goes on all the same. -/
theorem Dev.atNext.goTo_after (h : d.atNext p t op) {f : Thread → Thread} (hyield : (f (d.thread p t)).sinceYield = (d.thread p t).sinceYield)
    (hkill : (f (d.thread p t)).kill = (d.thread p t).kill) (hstate : (f (d.thread p t)).state = (d.thread p t).state) (pc : Nat) :
    ((d.tokenFor p t).onThread p t f).goTo p t pc (d.word p t) =
      (d.tokenFor p t).onThread p t (fun th => (f th).goesTo (d.word p t) pc) := by
  obtain ⟨⟨hready, -⟩, -, -, hkilled, hnear⟩ := h
  have hthread := Dev.thread_onThread_self (d.tokenFor p t) p t f
  rw [Dev.tokenFor_thread] at hthread
  rw [Dev.goTo_on (by rw [hthread, hyield]; exact hnear) (by rw [hthread, hkill]; exact hkilled) (by rw [hthread, hstate]; exact hready),
    Dev.onThread_onThread]

theorem Dev.atNext.callTo (h : d.atNext p t op) (hroom : (d.thread p t).stack.length < 8) :
    (d.tokenFor p t).callTo p t (d.word p t) (d.thread p t) = (d.tokenFor p t).onThread p t (fun th =>
      ({ th with stack := (th.pc + 1) % 16384 :: th.stack } : Thread).goesTo (d.word p t) (mwImm (d.word p t) % 16384)) := by
  rw [Dev.callTo, if_neg (Nat.not_le.2 hroom)]
  exact h.goTo_after rfl rfl rfl _

theorem Dev.atNext.returnTo (h : d.atNext p t op) {a : Nat} {l : List Nat} (hstack : (d.thread p t).stack = a :: l) :
    (d.tokenFor p t).returnTo p t (d.word p t) (d.thread p t) =
      (d.tokenFor p t).onThread p t (fun th => ({ th with stack := l } : Thread).goesTo (d.word p t) a) := by
  rw [Dev.returnTo, hstack]
  exact h.goTo_after rfl rfl rfl _

theorem Dev.tokenFor_faultKey (p t : Nat) (d : Dev) : d.regsSame (faultKey p) (d.tokenFor p t) := by
  unfold Dev.tokenFor
  split
  · exact Dev.regsSame_refl d
  · exact Dev.regsSame.wr (Dev.regsSame.wr (Dev.regsSame_of_regs rfl) _ _ _ _ (not_faultKey_at p (by decide))) _ _ _ _ (not_faultKey_at p (by decide))

end

section
variable {p t op : Nat} {s : State} (h : s.dev.phase = .running)
include h

omit h in
theorem issues.one {s' : State} (hissues : issues p t s s') (hfresh : (s.dev.thread p t).issuedData = false) : issuedOne p s s' := by
  have hregs : s'.dev.regs = ((s.dev.takeToken p t).countIssued p).regs := by
    rw [hissues.1, Dev.tokenFor, hfresh, if_neg Bool.false_ne_true]
  rw [issuedOne, Dev.rd64_congr hregs, Dev.countIssued, Dev.rd64_wr64_self _ _ _ _ _ _ (Field.key_ne_at p 0 (by decide)) rfl rfl, Nat.mod_mod]
  rfl

theorem exec_jump (hat : s.dev.atNext p t 1) : ∃ s', exec (.jump p t) s = .next s' ∧ issues p t s s' ∧
    threadBecomes p t ((s.dev.thread p t).goesTo (s.dev.word p t) (mwImm (s.dev.word p t) % 16384)) s s' :=
  State.onNext_thread h hat (hat.goTo _) rfl hat.1.noWait

theorem exec_branch (hat : s.dev.atNext p t 2) : ∃ s', exec (.branch p t) s = .next s' ∧ issues p t s s' ∧
    threadBecomes p t ((s.dev.thread p t).goesTo (s.dev.word p t) (if s.dev.condTest p (s.dev.thread p t) (s.dev.word p t)
      then mwImm (s.dev.word p t) % 16384 else (s.dev.thread p t).pc + 1)) s s' :=
  State.onNext_thread h hat (by rw [Dev.condTest_tokenFor]; exact hat.goTo _) rfl hat.1.noWait

theorem exec_call (hat : s.dev.atNext p t 3) (hroom : (s.dev.thread p t).stack.length < 8) :
    ∃ s', exec (.call p t) s = .next s' ∧ issues p t s s' ∧
      threadBecomes p t ({ s.dev.thread p t with stack := ((s.dev.thread p t).pc + 1) % 16384 :: (s.dev.thread p t).stack : Thread }.goesTo
        (s.dev.word p t) (mwImm (s.dev.word p t) % 16384)) s s' :=
  State.onNext_thread h hat (hat.callTo hroom) rfl hat.1.noWait

theorem exec_callIf (hat : s.dev.atNext p t 4) (hroom : (s.dev.thread p t).stack.length < 8) :
    ∃ s', exec (.callIf p t) s = .next s' ∧ issues p t s s' ∧
      threadBecomes p t (if s.dev.condTest p (s.dev.thread p t) (s.dev.word p t)
        then { s.dev.thread p t with stack := ((s.dev.thread p t).pc + 1) % 16384 :: (s.dev.thread p t).stack : Thread }.goesTo
          (s.dev.word p t) (mwImm (s.dev.word p t) % 16384)
        else (s.dev.thread p t).goesTo (s.dev.word p t) ((s.dev.thread p t).pc + 1)) s s' := by
  cases hc : s.dev.condTest p (s.dev.thread p t) (s.dev.word p t) with
  | true => exact State.onNext_thread h hat (by rw [Dev.condTest_tokenFor, hc]; exact hat.callTo hroom) rfl hat.1.noWait
  | false => exact State.onNext_thread h hat (by rw [Dev.condTest_tokenFor, hc]; exact hat.goTo _) rfl hat.1.noWait

theorem exec_popReturn {a : Nat} {l : List Nat} (hat : s.dev.atNext p t 5) (hstack : (s.dev.thread p t).stack = a :: l) :
    ∃ s', exec (.popReturn p t) s = .next s' ∧ issues p t s s' ∧
      threadBecomes p t ({ s.dev.thread p t with stack := l : Thread }.goesTo (s.dev.word p t) a) s s' :=
  State.onNext_thread h hat (hat.returnTo hstack) rfl hat.1.noWait

theorem exec_popReturnIf {a : Nat} {l : List Nat} (hat : s.dev.atNext p t 6) (hstack : (s.dev.thread p t).stack = a :: l) :
    ∃ s', exec (.popReturnIf p t) s = .next s' ∧ issues p t s s' ∧
      threadBecomes p t (if s.dev.condTest p (s.dev.thread p t) (s.dev.word p t)
        then { s.dev.thread p t with stack := l : Thread }.goesTo (s.dev.word p t) a
        else (s.dev.thread p t).goesTo (s.dev.word p t) ((s.dev.thread p t).pc + 1)) s s' := by
  cases hc : s.dev.condTest p (s.dev.thread p t) (s.dev.word p t) with
  | true => exact State.onNext_thread h hat (by rw [Dev.condTest_tokenFor, hc]; exact hat.returnTo hstack) rfl hat.1.noWait
  | false => exact State.onNext_thread h hat (by rw [Dev.condTest_tokenFor, hc]; exact hat.goTo _) rfl hat.1.noWait

theorem exec_table (hat : s.dev.atNext p t 8) : ∃ s', exec (.table p t) s = .next s' ∧ issues p t s s' ∧
    threadBecomes p t ((s.dev.thread p t).goesTo (s.dev.word p t) (mwImm (s.dev.word p t) % 16384 / 16 * 16 +
      ((s.dev.thread p t).reg (mwCond (s.dev.word p t) / 8 % 16)).toNat % 16)) s s' :=
  State.onNext_thread h hat (hat.goTo _) rfl hat.1.noWait

/-- A microword whose next-address operation is a fault. -/
theorem State.onNext_fault (hat : s.dev.atNext p t op) {f : Microword → Thread → Dev → Dev} {code i : Nat} {it : Item} (hp : p < 34)
    (hf : f (s.dev.word p t) (s.dev.thread p t) (s.dev.tokenFor p t) = (s.dev.tokenFor p t).threadFault p t code)
    (hitem : (s.dev.thread p t).item = some i) (hget : s.dev.item? i = some it) (hfailed : it.failed = none) (hstage : it.stage = .running) :
    ∃ s', s.onNext p t op f = .next s' ∧ faulted p t i s s' := by
  have hitems : (s.dev.tokenFor p t).items = s.dev.items := by rw [(s.dev.acted_tokenFor p t).1]
  have hleaves := Dev.threadFault_leaves hp (hat.1.unwaiting.tokenFor t)
    ((congrArg Thread.item (s.dev.tokenFor_thread p t t)).trans hitem) ((Dev.item?_congr hitems i).trans hget) hfailed
    (by rw [hstage]; decide) code
  rw [State.onNext_next h hat, hf]
  generalize (s.dev.tokenFor p t).threadFault p t code = e at hleaves
  obtain ⟨⟨hidle, hnone, hcount, hcause, hfails⟩, hquiet⟩ := hleaves
  rw [(s.dev.tokenFor_faultKey p t).rd rfl] at hcount
  rw [Dev.settle_unwaiting hquiet]
  exact ⟨_, rfl, hidle, hnone, hcount, hcause, hfails⟩

section
variable {i : Nat} {it : Item} (hp : p < 34) (hitem : (s.dev.thread p t).item = some i) (hget : s.dev.item? i = some it)
  (hfailed : it.failed = none) (hstage : it.stage = .running)
include hp hitem hget hfailed hstage

theorem exec_call_full (hat : s.dev.atNext p t 3) (hfull : 8 ≤ (s.dev.thread p t).stack.length) :
    ∃ s', exec (.call p t) s = .next s' ∧ faulted p t i s s' :=
  State.onNext_fault h hat hp (if_pos hfull) hitem hget hfailed hstage

theorem exec_popReturn_empty (hat : s.dev.atNext p t 5) (hempty : (s.dev.thread p t).stack = []) :
    ∃ s', exec (.popReturn p t) s = .next s' ∧ faulted p t i s s' :=
  State.onNext_fault h hat hp (by rw [Dev.returnTo, hempty]) hitem hget hfailed hstage

theorem exec_trap (hat : s.dev.atNext p t 10) : ∃ s', exec (.trap p t) s = .next s' ∧ faulted p t i s s' :=
  State.onNext_fault h hat hp rfl hitem hget hfailed hstage

theorem exec_passEnd_held (hat : s.dev.atNext p t 9) (hheld : (s.dev.thread p t).sendChan.isSome ∨ (s.dev.thread p t).readChan.isSome) :
    ∃ s', exec (.passEnd p t) s = .next s' ∧ faulted p t i s s' :=
  State.onNext_fault h hat hp (if_pos hheld) hitem hget hfailed hstage

end

end

/-! ## Passes (R240, R255) -/

theorem Dev.makeReady_siteAt (p t : Nat) (f : Thread → Thread) (d : Dev) :
    ∃ c, (d.makeReady p t f).siteAt p = { d.siteAt p with callers := c, threads := (d.siteAt p).threads.upd t {} f } := by
  unfold Dev.makeReady
  dsimp only
  split
  · rw [Dev.onThread, Dev.siteAt_onSite_self]
    exact ⟨_, rfl⟩
  · rw [Dev.onThread, Dev.siteAt_onSite_self, Dev.siteAt_onSite_self]
    exact ⟨_, rfl⟩

theorem Dev.makeReady_items (p t : Nat) (f : Thread → Thread) (d : Dev) :
    (d.makeReady p t f).items = d.items ∧ (d.makeReady p t f).regs = d.regs := by
  unfold Dev.makeReady
  dsimp only
  split <;> exact ⟨rfl, rfl⟩

theorem Dev.directEntry_congr {d e : Dev} (hmtb : e.mtb = d.mtb) (hregs : d.unitSame R.MTB_TABLE_CFG_kind.unit e) (n : Nat) :
    e.directEntry templateTable n = d.directEntry templateTable n := by
  have hkind : e.tabKind templateTable = d.tabKind templateTable := hregs.rd (Field.key_unit _ (by decide) (by decide) (by decide))
  have hwide : e.tabWide templateTable = d.tabWide templateTable := hregs.on (Field.key_unit _ (by decide) (by decide) (by decide))
  rw [Dev.directEntry, Dev.directEntry, Dev.lineBytes, Dev.lineBytes, hmtb, hkind, hwide]

theorem Item.with_template (it : Item) {x : Option (List Byte)} (hx : x = it.template) : { it with template := x } = it := by
  rw [hx]

/-- The item of a pass that ends holds the template that it leaves in. -/
theorem Dev.holdTemplate_item {i : Nat} {it : Item} {d : Dev} (hget : d.item? i = some it) :
    (d.holdTemplate i).item? i = some { it with
      template := if it.template.isSome then it.template else it.templateOf.map (d.directEntry templateTable) } := by
  unfold Dev.holdTemplate
  rw [hget]
  dsimp only
  cases hof : it.templateOf with
  | none =>
    refine hget.trans (congrArg some (Item.with_template it ?_).symm)
    cases it.template <;> rfl
  | some n =>
    dsimp only
    split
    · exact hget.trans (congrArg some (Item.with_template it rfl).symm)
    · exact Dev.item?_onItem_self hget _

theorem Dev.holdTemplate_keeps (i : Nat) (d : Dev) : (d.holdTemplate i).regs = d.regs ∧ d.sitesSame (d.holdTemplate i) := by
  unfold Dev.holdTemplate
  split
  · split
    · split
      · exact ⟨rfl, rfl, rfl⟩
      · exact ⟨rfl, rfl, rfl⟩
    · exact ⟨rfl, rfl, rfl⟩
  · exact ⟨rfl, rfl, rfl⟩

/-- Fields of different unit types lie apart. -/
theorem Field.key_otherUnit {f : Field} {u i a : Nat} (hi : i < 65536) (ha : f.off + a < 33554432) (hlsb : f.lsb < 32) (hu : f.unit ≠ u) :
    ¬ f.key i a / 2 ^ 46 = u := by
  rw [f.key_unit hi ha hlsb]
  exact hu

theorem Dev.rd_tokenFor (d : Dev) (p t : Nat) {f : Field} (hlo : f.key 0 0 ≠ R.SET_ISSUED_LO_issued.key 0 0)
    (hhi : f.key 0 0 ≠ R.SET_ISSUED_HI_issued.key 0 0) : (d.tokenFor p t).rd f p = d.rd f p := by
  unfold Dev.tokenFor
  split
  · rfl
  · rw [Dev.countIssued, Dev.wr64, Dev.rd_wr_at _ _ _ _ _ _ hhi, Dev.rd_wr_at _ _ _ _ _ _ hlo]
    rfl

theorem Dev.tokenFor_units {p : Nat} (d : Dev) (hp : p < 34) (t : Nat) {u : Nat} (hu : 0x41 ≠ u) : d.unitSame u (d.tokenFor p t) := by
  have hlo : ¬ R.SET_ISSUED_LO_issued.key p 0 / 2 ^ 46 = u := Field.key_otherUnit (by omega) (by decide) (by decide) hu
  have hhi : ¬ R.SET_ISSUED_HI_issued.key p 0 / 2 ^ 46 = u := Field.key_otherUnit (by omega) (by decide) (by decide) hu
  unfold Dev.tokenFor
  split
  · exact Dev.regsSame_refl _
  · exact Dev.regsSame.wr (Dev.regsSame.wr (Dev.regsSame_of_regs rfl) _ _ _ _ hlo) _ _ _ _ hhi

/-- A thread once its pass has ended. -/
def Thread.ended (th : Thread) : Thread :=
  { th.toIdle with
    pc := if th.kill then th.pc else 0
    kill := th.kill
    state := if th.state = .stopPending then .stopPending else .idle }

section
variable {p t op : Nat} {s : State} (h : s.dev.phase = .running)
include h

theorem exec_threadStartPass {i : Nat} {it : Item} {l : List Nat} (hget : s.dev.item? i = some it) (hinput : (s.dev.siteAt p).input = i :: l)
    (hidle : (s.dev.thread p t).state = .idle) (ht : t < 128) (hruns : s.dev.setRuns p = true) :
    ∃ s', exec (.threadStartPass p t) s = .next s' ∧ (s'.dev.siteAt p).input = l ∧
      s'.dev.thread p t = { state := .ready, item := some i, pc := it.verdict.entry % 16384, delivering := (s.dev.thread p t).delivering } ∧
      s'.dev.item? i = some { it with stage := .running } ∧ s'.dev.regs = s.dev.regs := by
  refine ⟨_, (State.onRun_running _ h : execThreadStartPass p t s = _), ?_⟩
  unfold Dev.startPass
  dsimp only
  rw [hinput]
  dsimp only
  rw [if_pos ⟨hidle, ht, hruns⟩, hget]
  dsimp only
  generalize hd₁ : s.dev.onSite p (fun x => { x with input := l }) = d₁
  have hsite₁ : d₁.siteAt p = { s.dev.siteAt p with input := l } := by rw [← hd₁, Dev.siteAt_onSite_self]
  have hkeeps₁ : d₁.items = s.dev.items ∧ d₁.regs = s.dev.regs := by rw [← hd₁]; exact ⟨rfl, rfl⟩
  obtain ⟨c, hsite⟩ := d₁.makeReady_siteAt p t (fun th =>
    { state := .ready, item := some i, pc := it.verdict.entry % 16384, delivering := th.delivering })
  have hkeeps := d₁.makeReady_items p t (fun th =>
    { state := .ready, item := some i, pc := it.verdict.entry % 16384, delivering := th.delivering })
  generalize d₁.makeReady p t _ = d₂ at hsite hkeeps
  have hitem : d₂.item? i = some it := (Dev.item?_congr (hkeeps.1.trans hkeeps₁.1) i).trans hget
  have hsite₂ : (d₂.onItem i (fun x => { x with stage := .running })).siteAt p = d₂.siteAt p := rfl
  refine ⟨?_, ?_, Dev.item?_onItem_self hitem _, hkeeps.2.trans hkeeps₁.2⟩
  · rw [hsite₂, hsite, hsite₁]
  · rw [Dev.thread, hsite₂, hsite, hsite₁]
    exact NMap.getD_upd_self ..

theorem exec_passEnd {i : Nat} {it : Item} (hp : p < 34) (hat : s.dev.atNext p t 9) (hitem : (s.dev.thread p t).item = some i)
    (hget : s.dev.item? i = some it) (hsend : (s.dev.thread p t).sendChan = none) (hread : (s.dev.thread p t).readChan = none) :
    ∃ s', exec (.passEnd p t) s = .next s' ∧ s'.dev.thread p t = { delivering := (s.dev.thread p t).delivering } ∧
      s'.dev.item? i = some { it with
        stage := .retiring
        template := if it.template.isSome then it.template else it.templateOf.map (s.dev.directEntry templateTable) } ∧
      s'.dev.rd64 R.SET_PASSES_LO_passes R.SET_PASSES_HI_passes p =
        (s.dev.rd64 R.SET_PASSES_LO_passes R.SET_PASSES_HI_passes p + 1) % 2 ^ 64 := by
  have hrest := (s.dev.acted_tokenFor p t).1
  have hthread₀ := s.dev.tokenFor_thread p t t
  have hquiet₀ := hat.1.unwaiting.tokenFor t
  have hpasses₀ : (s.dev.tokenFor p t).rd64 R.SET_PASSES_LO_passes R.SET_PASSES_HI_passes p =
      s.dev.rd64 R.SET_PASSES_LO_passes R.SET_PASSES_HI_passes p := by
    rw [Dev.rd64, Dev.rd_tokenFor _ _ _ (by decide) (by decide), Dev.rd_tokenFor _ _ _ (by decide) (by decide), Dev.rd64]
  generalize hd₀ : s.dev.tokenFor p t = d₀ at *
  generalize hd₁ : d₀.wr64 R.SET_PASSES_LO_passes R.SET_PASSES_HI_passes
      ((d₀.rd64 R.SET_PASSES_LO_passes R.SET_PASSES_HI_passes p + 1) % 2 ^ 64) p = d₁
  have hpasses : d₁.rd64 R.SET_PASSES_LO_passes R.SET_PASSES_HI_passes p =
      (s.dev.rd64 R.SET_PASSES_LO_passes R.SET_PASSES_HI_passes p + 1) % 2 ^ 64 := by
    rw [← hd₁, Dev.rd64_wr64_self _ _ _ _ _ _ (Field.key_ne_at p 0 (by decide)) rfl rfl, Nat.mod_mod, hpasses₀]
  have htable : s.dev.unitSame R.MTB_TABLE_CFG_kind.unit d₁ := by
    have hlo : ¬ R.SET_PASSES_LO_passes.key p 0 / 2 ^ 46 = R.MTB_TABLE_CFG_kind.unit :=
      Field.key_otherUnit (by omega) (by decide) (by decide) (by decide)
    have hhi : ¬ R.SET_PASSES_HI_passes.key p 0 / 2 ^ 46 = R.MTB_TABLE_CFG_kind.unit :=
      Field.key_otherUnit (by omega) (by decide) (by decide) (by decide)
    rw [← hd₁, ← hd₀]
    exact Dev.regsSame.wr (Dev.regsSame.wr (s.dev.tokenFor_units hp t (by decide)) _ _ _ _ hlo) _ _ _ _ hhi
  have hsites : d₀.sitesSame d₁ := by
    rw [← hd₁]
    exact ⟨rfl, rfl⟩
  have hitem₁ : d₁.item? i = some it := by
    rw [← hget]
    refine Dev.item?_congr ?_ i
    rw [← hd₁, Dev.wr64, Dev.wr_items, Dev.wr_items, hrest]
  have hmtb : d₁.mtb = s.dev.mtb := by rw [← hd₁, Dev.wr64, Dev.wr_mtb, Dev.wr_mtb, hrest]
  obtain ⟨hregs₂, hsites₂⟩ := d₁.holdTemplate_keeps i
  have hitem₂ := Dev.holdTemplate_item hitem₁
  have hend : (d₀.endPass p t (s.dev.word p t) (s.dev.thread p t)) = (((d₁.holdTemplate i).onItem i (fun x => { x with stage := .retiring })).onThread
      p t Thread.ended).takeEvent p t := by
    unfold Dev.endPass
    rw [hsend, hread, if_neg (by decide), hitem, hd₁]
    rfl
  have hd₂ : d₀.sitesSame ((d₁.holdTemplate i).onItem i (fun x => { x with stage := .retiring })) := hsites.trans hsites₂
  have hexec : exec (.passEnd p t) s = _ := State.onNext_next h hat (Dev.endPass p t)
  rw [hexec, hd₀, hend]
  have hitem₃ := Dev.item?_onItem_self hitem₂ (fun x => { x with stage := .retiring })
  have hpasses₃ : ((d₁.holdTemplate i).onItem i (fun x => { x with stage := .retiring })).regs = d₁.regs := hregs₂
  generalize (d₁.holdTemplate i).onItem i (fun x => { x with stage := .retiring }) = d₂ at *
  have hthread₂ : d₂.thread p t = s.dev.thread p t := (hd₂.thread p t).trans hthread₀
  have hended : (s.dev.thread p t).ended = { delivering := (s.dev.thread p t).delivering } := by
    obtain ⟨⟨hready, -⟩, -, -, hkill, -⟩ := hat
    simp only [Thread.ended, Thread.toIdle, hready, hkill]
    rfl
  have hthread₃ : (d₂.onThread p t Thread.ended).thread p t = { delivering := (s.dev.thread p t).delivering } := by
    rw [Dev.thread_onThread_self, hthread₂, hended]
  have hquiet₃ : (d₂.onThread p t Thread.ended).unwaiting p :=
    (hquiet₀.sitesSame hd₂).onThread (by rw [hthread₂, hended])
  have hevent : (d₂.onThread p t Thread.ended).takeEvent p t = d₂.onThread p t Thread.ended := by
    rw [Dev.takeEvent, hthread₃]
    rfl
  rw [hevent, Dev.settle_unwaiting hquiet₃]
  refine ⟨_, rfl, hthread₃, ?_, ?_⟩
  · refine Eq.trans (b := d₂.item? i) rfl (hitem₃.trans ?_)
    rw [funext (Dev.directEntry_congr hmtb htable)]
  · refine (Dev.rd64_congr hpasses₃ _ _ _ _).trans hpasses

end

/-- Settles O36. -/
theorem controlFlow : Obligations.ControlFlow := by
  refine ⟨fun p t s h hp => ⟨fun hat => ?_, fun hat => ?_, exec_branch h, exec_call h, exec_callIf h, fun _ _ => exec_popReturn h,
      fun _ _ => exec_popReturnIf h, exec_table h, fun _ _ hat hfull hitem hget hfailed hstage => exec_call_full h hp hitem hget hfailed
          hstage hat hfull,
      fun _ _ hat hempty hitem hget hfailed hstage => exec_popReturn_empty h hp hitem hget hfailed hstage hat hempty,
      fun _ _ hat hitem hget hfailed hstage => exec_trap h hp hitem hget hfailed hstage hat⟩,
    fun p t i it s h hget => ⟨fun _ => exec_threadStartPass h hget, fun hp hat hitem => exec_passEnd h hp hat hitem hget,
      fun hp hat hitem hfailed hstage => exec_passEnd_held h hp hitem hget hfailed hstage hat⟩⟩
  · obtain ⟨s', hnext, hissues, hbecomes⟩ := exec_seq h hat
    exact ⟨s', hnext, hbecomes, hissues, hissues.one⟩
  · obtain ⟨s', hnext, hissues, hbecomes⟩ := exec_jump h hat
    exact ⟨s', hnext, hbecomes, hissues, hissues.one⟩

end Sys2Proof.Machine
end

section
/-!
Waits, flags and retire commits (R250-R253, R261).
-/

namespace Sys2Proof.Machine

/-! ## Positions where one thread waits (R251, R253) -/

/-- No thread of position `p` but `t` waits. -/
def Dev.waitsOnly (d : Dev) (p t : Nat) : Prop := ∀ e ∈ (d.siteAt p).threads.entries, e.2.wait.isSome = true → e.1 = t

theorem Dev.mem_waiters {d : Dev} {p u : Nat} : u ∈ d.waiters p ↔ ∃ e ∈ (d.siteAt p).threads.entries, e.2.wait.isSome = true ∧ e.1 = u := by
  unfold Dev.waiters
  simp only [List.mem_map, List.mem_mergeSort, List.mem_filterMap, Option.map_eq_some_iff]
  constructor
  · rintro ⟨x, ⟨e, he, w, hw, rfl⟩, rfl⟩
    exact ⟨e, he, Option.isSome_iff_exists.2 ⟨w, hw⟩, rfl⟩
  · rintro ⟨e, he, hw, rfl⟩
    obtain ⟨w, hw⟩ := Option.isSome_iff_exists.1 hw
    exact ⟨_, ⟨e, he, w, hw, rfl⟩, rfl⟩

section
variable {d e : Dev} {p t : Nat}

theorem Dev.unwaiting.waitsOnly (h : d.unwaiting p) (t : Nat) : d.waitsOnly p t := fun e he hwait => by
  rw [h e he] at hwait
  exact absurd hwait Bool.false_ne_true

theorem Dev.waitsOnly_of_waiters (h : d.waiters p = [t]) : d.waitsOnly p t := fun e he hwait =>
  List.mem_singleton.1 (h ▸ Dev.mem_waiters.2 ⟨e, he, hwait, rfl⟩)

theorem Dev.waitsOnly_congr (hthreads : (e.siteAt p).threads = (d.siteAt p).threads) (h : d.waitsOnly p t) : e.waitsOnly p t := by
  unfold Dev.waitsOnly
  rw [hthreads]
  exact h

theorem Dev.waitsOnly.upd (h : d.waitsOnly p t) {f : Thread → Thread} (hthreads : (e.siteAt p).threads = (d.siteAt p).threads.upd t {} f) :
    e.waitsOnly p t := by
  intro x hx hwait
  rw [hthreads] at hx
  rcases mem_insertKey_of hx with rfl | hx
  · rfl
  · exact h x hx hwait

theorem Dev.waitsOnly.onThread (h : d.waitsOnly p t) (f : Thread → Thread) : (d.onThread p t f).waitsOnly p t :=
  h.upd (by rw [Dev.onThread, Dev.siteAt_onSite_self])

theorem Dev.waitsOnly.makeReady (h : d.waitsOnly p t) (f : Thread → Thread) : (d.makeReady p t f).waitsOnly p t := by
  obtain ⟨c, hc⟩ := d.makeReady_siteAt p t f
  exact h.upd (by rw [hc])

/-- Where the one thread that waits goes on waiting, nothing settles. -/
theorem Dev.waitsOnly.settle (h : d.waitsOnly p t) (hsame : d.settleThread p t = d) : d.settle p = d := by
  refine Dev.each_same (fun u hu => ?_)
  obtain ⟨e, he, hwait, rfl⟩ := Dev.mem_waiters.1 hu
  rw [h e he hwait, hsame]

theorem Dev.settleThread_noWait (h : (d.thread p t).wait = none) : d.settleThread p t = d := by
  rw [Dev.settleThread, h]

/-! ## Ends of waits -/

/-- A thread whose wait has ended. -/
def Thread.waitEnded (timedOut broken : Bool) (th : Thread) : Thread :=
  { th with
    wait := none
    timedOut := timedOut
    broken := broken
    pc := (th.pc + 1) % 16384
    issuedData := false
    state := if th.state = .waiting then .ready else th.state }

theorem Dev.makeReady_thread (p t : Nat) (f : Thread → Thread) (d : Dev) : (d.makeReady p t f).thread p t = f (d.thread p t) := by
  obtain ⟨c, hc⟩ := d.makeReady_siteAt p t f
  rw [Dev.thread, hc]
  exact NMap.getD_upd_self ..

/-- The debugger has asked for nothing. -/
theorem Dev.takeEvent_none (hkill : (d.thread p t).kill = false) (hstate : (d.thread p t).state ≠ .stopPending) : d.takeEvent p t = d := by
  rw [Dev.takeEvent, hkill, if_neg Bool.false_ne_true, if_neg hstate]

theorem Dev.takeEvent_makeReady (hkill : (d.thread p t).kill = false) (hstate : (d.thread p t).state = .waiting) (timedOut broken : Bool) :
    (d.makeReady p t (Thread.waitEnded timedOut broken)).takeEvent p t = d.makeReady p t (Thread.waitEnded timedOut broken) := by
  refine Dev.takeEvent_none ?_ ?_
  · rw [Dev.makeReady_thread]
    exact hkill
  · rw [Dev.makeReady_thread]
    show (if (d.thread p t).state = .waiting then ThreadState.ready else _) ≠ _
    rw [if_pos hstate]
    decide

section
variable {w : Wait} (hwait : (d.thread p t).wait = some w) (hkill : (d.thread p t).kill = false) (hstate : (d.thread p t).state = .waiting)
include hwait hkill hstate

/-- A wait that gives no channel. -/
theorem Dev.endWait_plain {timedOut broken : Bool} (hplain : timedOut = true ∨ broken = true ∨ ¬ (w.invert = false ∧
    (w.cond = 0x20 ∨ w.cond = 0x21))) :
    d.endWait p t timedOut broken = d.makeReady p t (Thread.waitEnded timedOut broken) := by
  have hsend : (!timedOut && !broken && !w.invert && w.cond == 0x21) = false := by
    rcases hplain with rfl | rfl | hplain
    · rfl
    · rw [Bool.not_true, Bool.and_false]
      rfl
    · cases hinvert : w.invert with
      | true => rw [Bool.not_true, Bool.and_false]; rfl
      | false =>
        have hcond : w.cond ≠ 0x21 := fun hc => hplain ⟨hinvert, .inr hc⟩
        rw [beq_false_of_ne hcond, Bool.and_false]
  have hread : (!timedOut && !broken && !w.invert && w.cond == 0x20) = false := by
    rcases hplain with rfl | rfl | hplain
    · rfl
    · rw [Bool.not_true, Bool.and_false]
      rfl
    · cases hinvert : w.invert with
      | true => rw [Bool.not_true, Bool.and_false]; rfl
      | false =>
        have hcond : w.cond ≠ 0x20 := fun hc => hplain ⟨hinvert, .inl hc⟩
        rw [beq_false_of_ne hcond, Bool.and_false]
  unfold Dev.endWait
  rw [hwait]
  dsimp only
  rw [hsend, hread, if_neg Bool.false_ne_true, Bool.false_and, if_neg Bool.false_ne_true]
  exact Dev.takeEvent_makeReady hkill hstate _ _

/-- A wait on chan_open gives the thread the channel's send side. -/
theorem Dev.endWait_opens (hinvert : w.invert = false) (hcond : w.cond = 0x21) :
    d.endWait p t false false = ((d.onSetChan p w.channel (fun c => { c with open_ := some t })).onThread p t
      (fun th => { th with sendChan := some w.channel })).makeReady p t (Thread.waitEnded false false) := by
  unfold Dev.endWait
  rw [hwait]
  dsimp only
  rw [hinvert, hcond, if_pos (by decide)]
  refine Dev.takeEvent_makeReady ?_ ?_ _ _
  · rw [Dev.thread_onThread_self]
    exact (congrArg Thread.kill (Dev.thread_congr (by rw [Dev.onSetChan, Dev.siteAt_onSite_self]) t)).trans hkill
  · rw [Dev.thread_onThread_self]
    exact (congrArg Thread.state (Dev.thread_congr (by rw [Dev.onSetChan, Dev.siteAt_onSite_self]) t)).trans hstate

/-- A wait on chan_data gives it the read side, with the oldest message. -/
theorem Dev.endWait_reads (hinvert : w.invert = false) (hcond : w.cond = 0x20) (hnone : (d.thread p t).readChan = none) {m : Nat} {l : List Nat}
    (hclosed : (d.setChan p w.channel).closed = m :: l) :
    d.endWait p t false false = ((d.onSetChan p w.channel (fun c => { c with closed := c.closed.drop 1 })).onThread p t
      (fun th => { th with readChan := some (w.channel, m) })).makeReady p t (Thread.waitEnded false false) := by
  unfold Dev.endWait
  rw [hwait]
  dsimp only
  rw [hinvert, hcond, hnone, if_neg (by decide), if_pos (by decide), hclosed]
  refine Dev.takeEvent_makeReady ?_ ?_ _ _
  · rw [Dev.thread_onThread_self]
    exact (congrArg Thread.kill (Dev.thread_congr (by rw [Dev.onSetChan, Dev.siteAt_onSite_self]) t)).trans hkill
  · rw [Dev.thread_onThread_self]
    exact (congrArg Thread.state (Dev.thread_congr (by rw [Dev.onSetChan, Dev.siteAt_onSite_self]) t)).trans hstate

end

end

/-! ## WAIT (R251) -/

/-- The wait that a microword begins. -/
def Dev.newWait (d : Dev) (p : Nat) (w : Microword) : Wait :=
  { cond := mwCond w, invert := mwInvert w, channel := mwChannel w, limit := d.rd (waitLimit (mwLimitSel w)) p
    began := (d.siteAt p).waits, yield := mwYield w }

/-- A thread that has begun a wait. -/
def Thread.waits (w : Microword) (x : Wait) (th : Thread) : Thread :=
  { th with
    state := if th.state = .ready then .waiting else th.state
    timedOut := false
    broken := false
    sinceYield := if mwYield w then 0 else th.sinceYield + 1
    wait := some x }

/-- The device once the wait has begun, before its condition is looked at. -/
def Dev.waitBegun (p t : Nat) (w : Microword) (d : Dev) : Dev :=
  (d.onSite p (fun x => { x with waits := x.waits + 1 })).onThread p t (Thread.waits w (d.newWait p w))

/-- A condition that is none of class F looks at none of the flags that WAIT clears. -/
theorem Dev.condValue_waits (d : Dev) (p : Nat) (w : Microword) (x : Wait) (th : Thread) {cond : Nat} (h : 16 ≤ cond) (c : Nat) :
    d.condValue p (th.waits w x) cond c = d.condValue p th cond c := by
  have hne : ∀ k < 16, cond ≠ k := fun k hk => by omega
  simp only [Dev.condValue, hne 0 (by decide), hne 1 (by decide), hne 2 (by decide), hne 3 (by decide), hne 4 (by decide), hne 5 (by decide),
    hne 6 (by decide), hne 7 (by decide), Nat.not_lt.2 h, if_false]
  rfl

theorem mwLegal_wait {w : Microword} (h : mwLegal w = true) (hnext : mwNext w = 7) : 16 ≤ mwCond w ∨ mwCond w = 0 := by
  rw [mwLegal, Bool.and_eq_true, hnext] at h
  have hclass := h.2
  simp only [condF, bne_self_eq_false, Bool.false_or, Bool.or_eq_true, Bool.not_eq_true', decide_eq_false_iff_not, Bool.and_eq_true,
      beq_iff_eq] at hclass
  omega

section
variable {p t : Nat} {d : Dev}

theorem Dev.waitBegun_siteAt (w : Microword) : (d.waitBegun p t w).siteAt p = { d.siteAt p with
    waits := (d.siteAt p).waits + 1
    threads := (d.siteAt p).threads.upd t {} (Thread.waits w (d.newWait p w)) } := by
  rw [Dev.waitBegun, Dev.onThread, Dev.siteAt_onSite_self, Dev.siteAt_onSite_self]

theorem Dev.waitBegun_thread (w : Microword) : (d.waitBegun p t w).thread p t = (d.thread p t).waits w (d.newWait p w) := by
  rw [Dev.thread, Dev.waitBegun_siteAt]
  exact NMap.getD_upd_self ..

theorem Dev.waitBegun_setChan (w : Microword) (c : Nat) : (d.waitBegun p t w).setChan p c = d.setChan p c := by
  rw [Dev.setChan, Dev.waitBegun_siteAt, Dev.setChan]

theorem Dev.waitBegun_condTest (w : Microword) (th : Thread) : (d.waitBegun p t w).condTest p th w = d.condTest p th w :=
  Dev.condTest_congr (d := d) (e := d.waitBegun p t w) (by rw [Dev.waitBegun_siteAt]) (by rw [Dev.waitBegun_siteAt]) rfl rfl rfl th w

/-- When the condition of a wait just begun holds. -/
theorem Dev.waitDone_begun {w : Microword} (hcond : 16 ≤ mwCond w ∨ mwCond w = 0) :
    (d.waitBegun p t w).waitDone p ((d.thread p t).waits w (d.newWait p w)) (d.newWait p w) =
      if mwCond w = 0 then false
      else if mwCond w = 0x21 ∧ mwInvert w = false then
        (d.setChan p (mwChannel w)).free && (d.thread p t).delivering.isNone && (d.thread p t).sendChan.isNone
      else if mwCond w = 0x20 ∧ mwInvert w = false then
        (match (d.thread p t).readChan with
        | some (c, m) => c == mwChannel w && (d.setChan p c).fifo.any (fun x => x.msg == m)
        | none => (d.setChan p (mwChannel w)).holds)
      else d.condTest p (d.thread p t) w := by
  unfold Dev.waitDone
  simp only [Dev.waitBegun_setChan]
  show (if mwCond w = 0 then _ else if mwCond w = 0x21 ∧ mwInvert w = false then _
    else if mwCond w = 0x20 ∧ mwInvert w = false then _ else xor _ (mwInvert w)) = _
  by_cases hzero : mwCond w = 0
  · rw [if_pos hzero, if_pos hzero]
  · rw [if_neg hzero, if_neg hzero]
    have hvalue := (d.waitBegun p t w).condValue_waits p w (d.newWait p w) (d.thread p t) (hcond.resolve_right hzero) (mwChannel w)
    have htest : xor ((d.waitBegun p t w).condValue p ((d.thread p t).waits w (d.newWait p w)) (mwCond w) (mwChannel w)) (mwInvert w) =
        d.condTest p (d.thread p t) w := by
      rw [hvalue]
      exact Dev.waitBegun_condTest w (d.thread p t)
    exact congrArg (fun b => if mwCond w = 0x21 ∧ mwInvert w = false then _ else if mwCond w = 0x20 ∧ mwInvert w = false then _ else b) htest

/-- WAIT begins its wait, and ends it at once where its condition holds. -/
theorem Dev.beginWait_eq {w : Microword} (hnear : mwYield w = true ∨ (d.thread p t).sinceYield < 1023) (th : Thread) :
    d.beginWait p t w th = (if mwYield w ∧ (((d.waitBegun p t w).settleThread p t).thread p t).wait.isSome
      then ((d.waitBegun p t w).settleThread p t).takeEvent p t else (d.waitBegun p t w).settleThread p t) := by
  have hnot : ¬ (!mwYield w && decide (1023 ≤ (d.thread p t).sinceYield)) = true := by
    rcases hnear with hnear | hnear
    · rw [hnear]
      exact Bool.false_ne_true
    · rw [decide_eq_false (Nat.not_le.2 hnear), Bool.and_false]
      exact Bool.false_ne_true
  rw [Dev.beginWait, if_neg hnot]
  rfl

theorem Dev.waitBegun_waitsOnly (h : d.waitsOnly p t) (w : Microword) : (d.waitBegun p t w).waitsOnly p t :=
  h.upd (by rw [Dev.waitBegun_siteAt])

theorem Dev.settleThread_waits {th : Thread} {x : Wait} (hth : d.thread p t = th) (hwait : th.wait = some x) (hstate : th.state = .waiting) :
    d.settleThread p t = if d.waitDone p th x then d.endWait p t false false else d := by
  rw [Dev.settleThread, hth, hwait, hstate]
  rfl

section
variable {w : Microword} {e : Dev} {th : Thread} (hnear : mwYield w = true ∨ (d.thread p t).sinceYield < 1023) (he : d.waitBegun p t w = e)
  (hth : e.thread p t = th) (honly : d.waitsOnly p t) (hwait : th.wait = some (d.newWait p w)) (hstate : th.state = .waiting)
include hnear he hth hwait hstate

/-- A wait whose condition does not hold stands. -/
theorem Dev.beginWait_stands (honly : d.waitsOnly p t) (hkill : th.kill = false) (hnot : e.waitDone p th (d.newWait p w) = false) (x : Thread) :
    (d.beginWait p t w x).settle p = e := by
  have hsame : e.settleThread p t = e := by rw [Dev.settleThread_waits hth hwait hstate, hnot, if_neg Bool.false_ne_true]
  have hevent : e.takeEvent p t = e := Dev.takeEvent_none (by rw [hth, hkill]) (by rw [hth, hstate]; decide)
  have honly' : e.waitsOnly p t := he ▸ Dev.waitBegun_waitsOnly honly w
  rw [Dev.beginWait_eq hnear, he, hsame, hevent, ite_self, honly'.settle hsame]

/-- One whose condition holds has ended. -/
theorem Dev.beginWait_ends (hdone : e.waitDone p th (d.newWait p w) = true) {y : Dev} (hy : e.endWait p t false false = y)
    (hgone : (y.thread p t).wait = none) (honly' : y.waitsOnly p t) (x : Thread) : (d.beginWait p t w x).settle p = y := by
  have hends : e.settleThread p t = y := by rw [Dev.settleThread_waits hth hwait hstate, hdone, if_pos rfl, hy]
  have hstays : ¬ (mwYield w = true ∧ (y.thread p t).wait.isSome = true) := by
    rw [hgone]
    exact fun h => Bool.false_ne_true h.2
  rw [Dev.beginWait_eq hnear, he, hends, if_neg hstays, honly'.settle (Dev.settleThread_noWait hgone)]

end

end

/-- A thread that goes on after its WAIT. -/
def Thread.wentOn (w : Microword) (th : Thread) : Thread := { th.goesTo w (th.pc + 1) with timedOut := false, broken := false }

/-- The device, and the thread, once WAIT has begun its wait. -/
def Dev.waiting (p t : Nat) (d : Dev) : Dev := (d.tokenFor p t).waitBegun p t (d.word p t)
def Dev.waitingThread (p t : Nat) (d : Dev) : Thread := (d.thread p t).waits (d.word p t) ((d.tokenFor p t).newWait p (d.word p t))

section
variable {p t : Nat} {d : Dev} (hat : d.atNext p t 7)
include hat

theorem Dev.atNext.waitingThread_state : (d.waitingThread p t).state = .waiting := by
  obtain ⟨⟨hready, -⟩, -⟩ := hat
  rw [Dev.waitingThread, Thread.waits, hready]
  rfl

theorem Dev.atNext.waitingThread_kill : (d.waitingThread p t).kill = false := by
  obtain ⟨-, -, -, hkill, -⟩ := hat
  exact hkill

theorem Dev.atNext.waitingThread_ended : (d.waitingThread p t).waitEnded false false = (d.thread p t).wentOn (d.word p t) := by
  have hstate := hat.waitingThread_state
  obtain ⟨⟨hready, -, hwait, -⟩, -⟩ := hat
  rw [Thread.waitEnded, hstate, Dev.waitingThread, Thread.waits, Thread.wentOn, Thread.goesTo]
  simp only [if_true, hready, hwait]

omit hat in
theorem Dev.waiting_thread : (d.waiting p t).thread p t = d.waitingThread p t := by
  rw [Dev.waiting, Dev.waitBegun_thread, Dev.tokenFor_thread]
  rfl

theorem Dev.atNext.waiting_waitsOnly : (d.waiting p t).waitsOnly p t :=
  Dev.waitBegun_waitsOnly ((hat.1.unwaiting.tokenFor t).waitsOnly t) _

end

section
variable {p t : Nat} {s : State} (h : s.dev.phase = .running) (hat : s.dev.atNext p t 7)
include h hat

theorem exec_wait_stands (hnot : (s.dev.waiting p t).waitDone p (s.dev.waitingThread p t) ((s.dev.tokenFor p t).newWait p (s.dev.word p t)) = false) :
    exec (.wait p t) s = .next { s with dev := s.dev.waiting p t } := by
  have hexec : exec (.wait p t) s = _ := State.onNext_next h hat (Dev.beginWait p t)
  rw [hexec, Dev.beginWait_stands (by rw [Dev.tokenFor_thread]; exact hat.2.2.2.2) rfl Dev.waiting_thread rfl hat.waitingThread_state
    ((hat.1.unwaiting.tokenFor t).waitsOnly t) hat.waitingThread_kill hnot]
  rfl

theorem exec_wait_ends (hdone : (s.dev.waiting p t).waitDone p (s.dev.waitingThread p t) ((s.dev.tokenFor p t).newWait p (s.dev.word p t)) = true)
    {y : Dev} (hy : (s.dev.waiting p t).endWait p t false false = y) (hgone : (y.thread p t).wait = none) (honly : y.waitsOnly p t) :
    exec (.wait p t) s = .next { s with dev := y } := by
  have hexec : exec (.wait p t) s = _ := State.onNext_next h hat (Dev.beginWait p t)
  rw [hexec, Dev.beginWait_ends (by rw [Dev.tokenFor_thread]; exact hat.2.2.2.2) rfl Dev.waiting_thread rfl hat.waitingThread_state
    hdone hy hgone honly]

end

theorem Dev.tokenFor_setChan (d : Dev) (p t c : Nat) : (d.tokenFor p t).setChan p c = d.setChan p c := by
  obtain ⟨x, hx⟩ := d.tokenFor_threads p t
  rw [Dev.setChan, hx, Dev.setChan]

/-- Does the condition of a WAIT hold as it begins? -/
def Dev.waitHolds (d : Dev) (p t : Nat) : Bool :=
  let w := d.word p t
  let th := d.thread p t
  if mwCond w = 0 then false
  else if mwCond w = 0x21 ∧ mwInvert w = false then (d.setChan p (mwChannel w)).free && th.delivering.isNone && th.sendChan.isNone
  else if mwCond w = 0x20 ∧ mwInvert w = false then
    (match th.readChan with
    | some (c, m) => c == mwChannel w && (d.setChan p c).fifo.any (fun x => x.msg == m)
    | none => (d.setChan p (mwChannel w)).holds)
  else d.condTest p th w

theorem Dev.atNext.waitDone {p t : Nat} {d : Dev} (hat : d.atNext p t 7) :
    (d.waiting p t).waitDone p (d.waitingThread p t) ((d.tokenFor p t).newWait p (d.word p t)) = d.waitHolds p t := by
  have hbegun := Dev.waitDone_begun (p := p) (t := t) (d := d.tokenFor p t) (mwLegal_wait hat.1.legal hat.2.1)
  simp only [Dev.tokenFor_thread, Dev.tokenFor_setChan, Dev.condTest_tokenFor] at hbegun
  exact hbegun

theorem Dev.threadOnly.counted {p t : Nat} {d e : Dev} (h : d.threadOnly p t e) :
    (d.onSite p (fun x => { x with waits := x.waits + 1 })).threadOnly p t (e.onSite p (fun x => { x with waits := x.waits + 1 })) := by
  obtain ⟨hothers, hsite, helse, hpos⟩ := h
  have hthread : ∀ (x : Dev) (u : Nat), (x.onSite p (fun y => { y with waits := y.waits + 1 })).thread p u = x.thread p u :=
    fun x u => Dev.thread_congr (by rw [Dev.siteAt_onSite_self]) u
  refine ⟨fun u hu => (hthread e u).trans ((hothers u hu).trans (hthread d u).symm), ?_, fun q hq => ?_, hpos⟩
  · rw [Dev.siteAt_onSite_self, Dev.siteAt_onSite_self, hsite]
  · refine (Dev.siteAt_onSite_ne _ _ ?_).trans ((helse q hq).trans (d.siteAt_onSite_ne _ hq).symm)
    rw [Dev.setAt, Dev.setAt, hpos]
    exact hq

theorem Dev.threadOnly.makeReady {p t : Nat} {d e : Dev} (h : d.threadOnly p t e) (f : Thread → Thread) : d.threadOnly p t (e.makeReady p t f) := by
  obtain ⟨hothers, hsite, helse, hpos⟩ := h
  obtain ⟨c, hc⟩ := e.makeReady_siteAt p t f
  have hsites : (e.makeReady p t f).setPos = e.setPos ∧ ∀ q, (e.setAt q).site ≠ (e.setAt p).site → (e.makeReady p t f).siteAt q = e.siteAt q := by
    unfold Dev.makeReady
    dsimp only
    split
    · exact ⟨rfl, fun q hq => Dev.siteAt_onSite_ne _ _ hq⟩
    · exact ⟨rfl, fun q hq => (Dev.siteAt_onSite_ne (e.onSite p _) _ hq).trans (e.siteAt_onSite_ne _ hq)⟩
  refine ⟨fun u hu => ?_, ?_, fun q hq => ?_, hsites.1.trans hpos⟩
  · rw [Dev.thread, hc]
    exact (NMap.getD_upd_ne _ _ _ _ hu).trans (hothers u hu)
  · rw [hc, hsite]
  · refine (hsites.2 q ?_).trans (helse q hq)
    rw [Dev.setAt, Dev.setAt, hpos]
    exact hq

/-- The end of a wait that gives a channel. -/
theorem Dev.channelGiven (e : Dev) (p t c : Nat) (f : SetChan → SetChan) (g k : Thread → Thread) :
    let y := ((e.onSetChan p c f).onThread p t g).makeReady p t k
    y.thread p t = k (g (e.thread p t)) ∧ y.setChan p c = f (e.setChan p c) ∧ (e.waitsOnly p t → y.waitsOnly p t) := by
  intro y
  obtain ⟨x, hx⟩ := ((e.onSetChan p c f).onThread p t g).makeReady_siteAt p t k
  have hchan : (e.onSetChan p c f).siteAt p = { e.siteAt p with channels := (e.siteAt p).channels.upd c {} f } := by
    rw [Dev.onSetChan, Dev.siteAt_onSite_self]
  refine ⟨?_, ?_, fun honly => ((Dev.waitsOnly_congr (by rw [hchan]) honly).onThread g).makeReady k⟩
  · rw [Dev.makeReady_thread, Dev.thread_onThread_self, Dev.thread_congr (d := e) (by rw [hchan])]
  · rw [Dev.setChan, hx, Dev.onThread, Dev.siteAt_onSite_self, hchan]
    exact NMap.getD_upd_self ..

section
variable {p t : Nat} {s : State} (h : s.dev.phase = .running) (hat : s.dev.atNext p t 7)
include h hat

theorem exec_wait_goes (hchan : ¬ (mwInvert (s.dev.word p t) = false ∧ (mwCond (s.dev.word p t) = 0x20 ∨ mwCond (s.dev.word p t) = 0x21)))
    (hzero : mwCond (s.dev.word p t) ≠ 0) (hc : s.dev.condTest p (s.dev.thread p t) (s.dev.word p t) = true) :
    ∃ s', exec (.wait p t) s = .next s' ∧ s'.dev.regs = (s.dev.tokenFor p t).regs ∧
      threadBecomes p t ((s.dev.thread p t).wentOn (s.dev.word p t)) (waitCounted p s) s' := by
  have hholds : s.dev.waitHolds p t = true := by
    unfold Dev.waitHolds
    rw [if_neg hzero, if_neg (fun hx => hchan ⟨hx.2, .inr hx.1⟩), if_neg (fun hx => hchan ⟨hx.2, .inl hx.1⟩), hc]
  have hend := Dev.endWait_plain (congrArg Thread.wait Dev.waiting_thread) (by rw [Dev.waiting_thread]; exact hat.waitingThread_kill)
    (by rw [Dev.waiting_thread]; exact hat.waitingThread_state) (timedOut := false) (broken := false) (.inr (.inr hchan))
  have hthread : ((s.dev.waiting p t).makeReady p t (Thread.waitEnded false false)).thread p t = (s.dev.thread p t).wentOn (s.dev.word p t) := by
    rw [Dev.makeReady_thread, Dev.waiting_thread, hat.waitingThread_ended]
  refine ⟨_, exec_wait_ends h hat (hat.waitDone.trans hholds) hend (by rw [hthread]; exact hat.1.noWait) (hat.waiting_waitsOnly.makeReady _),
    (Dev.makeReady_items ..).2, ?_⟩
  exact Dev.threadOnly.becomes (s := waitCounted p s) ((((s.dev.threadOnly_tokenFor p t).counted).onThread _).makeReady _) hthread

theorem exec_wait_opens (hinvert : mwInvert (s.dev.word p t) = false) (hcond : mwCond (s.dev.word p t) = 0x21)
    (hopens : (s.dev.setChan p (mwChannel (s.dev.word p t))).open_ = none ∧ (s.dev.setChan p (mwChannel (s.dev.word p t))).delivery = [] ∧
      (s.dev.thread p t).delivering = none ∧ (s.dev.thread p t).sendChan = none) :
    ∃ s', exec (.wait p t) s = .next s' ∧
      s'.dev.thread p t = { (s.dev.thread p t).wentOn (s.dev.word p t) with sendChan := some (mwChannel (s.dev.word p t)) } ∧
      (s'.dev.setChan p (mwChannel (s.dev.word p t))).open_ = some t := by
  obtain ⟨hopen, hdelivery, hnone, hsend⟩ := hopens
  have hholds : s.dev.waitHolds p t = true := by
    unfold Dev.waitHolds
    dsimp only
    rw [hcond, if_neg (by decide), if_pos ⟨rfl, hinvert⟩, SetChan.free, hopen, hdelivery, hnone, hsend]
    rfl
  obtain ⟨hthread, hchan, honly⟩ := (s.dev.waiting p t).channelGiven p t (mwChannel (s.dev.word p t)) (fun c => { c with open_ := some t })
    (fun th => { th with sendChan := some (mwChannel (s.dev.word p t)) }) (Thread.waitEnded false false)
  have hend := Dev.endWait_opens (congrArg Thread.wait Dev.waiting_thread) (by rw [Dev.waiting_thread]; exact hat.waitingThread_kill)
    (by rw [Dev.waiting_thread]; exact hat.waitingThread_state) hinvert hcond
  have hbecomes : ({ s.dev.waitingThread p t with sendChan := some (mwChannel (s.dev.word p t)) } : Thread).waitEnded false false =
      { (s.dev.thread p t).wentOn (s.dev.word p t) with sendChan := some (mwChannel (s.dev.word p t)) } := by
    rw [← hat.waitingThread_ended]
    rfl
  rw [Dev.waiting_thread, hbecomes] at hthread
  exact ⟨_, exec_wait_ends h hat (hat.waitDone.trans hholds) hend (hthread ▸ hat.1.noWait) (honly hat.waiting_waitsOnly), hthread,
    congrArg SetChan.open_ hchan⟩

theorem exec_wait_reads {m : Nat} {l : List Nat} (hinvert : mwInvert (s.dev.word p t) = false) (hcond : mwCond (s.dev.word p t) = 0x20)
    (hread : (s.dev.thread p t).readChan = none) (hclosed : (s.dev.setChan p (mwChannel (s.dev.word p t))).closed = m :: l) :
    ∃ s', exec (.wait p t) s = .next s' ∧
      s'.dev.thread p t = { (s.dev.thread p t).wentOn (s.dev.word p t) with readChan := some (mwChannel (s.dev.word p t), m) } ∧
      (s'.dev.setChan p (mwChannel (s.dev.word p t))).closed = l := by
  have hholds : s.dev.waitHolds p t = true := by
    unfold Dev.waitHolds
    dsimp only
    rw [hcond, if_neg (by decide), if_neg (fun hx => absurd hx.1 (by decide)), if_pos ⟨rfl, hinvert⟩, hread]
    dsimp only
    rw [SetChan.holds, hclosed]
    rfl
  have hsame : (s.dev.waiting p t).setChan p (mwChannel (s.dev.word p t)) = s.dev.setChan p (mwChannel (s.dev.word p t)) := by
    rw [Dev.waiting, Dev.waitBegun_setChan, Dev.tokenFor_setChan]
  obtain ⟨hthread, hchan, honly⟩ := (s.dev.waiting p t).channelGiven p t (mwChannel (s.dev.word p t))
    (fun c => { c with closed := c.closed.drop 1 }) (fun th => { th with readChan := some (mwChannel (s.dev.word p t), m) })
    (Thread.waitEnded false false)
  have hend := Dev.endWait_reads (congrArg Thread.wait Dev.waiting_thread) (by rw [Dev.waiting_thread]; exact hat.waitingThread_kill)
    (by rw [Dev.waiting_thread]; exact hat.waitingThread_state) hinvert hcond (by rw [Dev.waiting_thread]; exact hread)
    ((congrArg SetChan.closed hsame).trans hclosed)
  have hbecomes : ({ s.dev.waitingThread p t with readChan := some (mwChannel (s.dev.word p t), m) } : Thread).waitEnded false false =
      { (s.dev.thread p t).wentOn (s.dev.word p t) with readChan := some (mwChannel (s.dev.word p t), m) } := by
    rw [← hat.waitingThread_ended]
    rfl
  rw [Dev.waiting_thread, hbecomes] at hthread
  exact ⟨_, exec_wait_ends h hat (hat.waitDone.trans hholds) hend (hthread ▸ hat.1.noWait) (honly hat.waiting_waitsOnly), hthread,
    (congrArg SetChan.closed hchan).trans (congrArg (List.drop 1) ((congrArg SetChan.closed hsame).trans hclosed))⟩

theorem exec_wait_waits (hnot : s.dev.waitHolds p t = false) : ∃ s', exec (.wait p t) s = .next s' ∧ s'.dev.thread p t = s.dev.waitingThread p t :=
  ⟨_, exec_wait_stands h hat (hat.waitDone.trans hnot), Dev.waiting_thread⟩

end

theorem waitLimit_eq {n : Nat} (h : n < 4) : waitLimit n = [R.SET_WAIT_LIMIT_0_limit, R.SET_WAIT_LIMIT_1_limit, R.SET_WAIT_LIMIT_2_limit,
    R.SET_WAIT_LIMIT_3_limit].getD n R.SET_WAIT_LIMIT_0_limit := by
  match n with
  | 0 => rfl
  | 1 => rfl
  | 2 => rfl
  | 3 => rfl

theorem mwLimitSel_lt (w : Microword) : mwLimitSel w < 4 := Nat.mod_lt _ (by decide)

theorem Dev.newWait_eq (d : Dev) (p : Nat) (w : Microword) : d.newWait p w =
    { cond := mwCond w, invert := mwInvert w, channel := mwChannel w
      limit := d.rd ([R.SET_WAIT_LIMIT_0_limit, R.SET_WAIT_LIMIT_1_limit, R.SET_WAIT_LIMIT_2_limit, R.SET_WAIT_LIMIT_3_limit].getD
        (mwLimitSel w) R.SET_WAIT_LIMIT_0_limit) p
      began := (d.siteAt p).waits, yield := mwYield w } := by
  rw [Dev.newWait, waitLimit_eq (mwLimitSel_lt w)]

/-- The token changes neither the limit nor the place of a wait. -/
theorem Dev.newWait_tokenFor (d : Dev) (p t : Nat) (w : Microword) : (d.tokenFor p t).newWait p w = d.newWait p w := by
  have hlimit : (d.tokenFor p t).rd (waitLimit (mwLimitSel w)) p = d.rd (waitLimit (mwLimitSel w)) p := by
    have hcases : ∀ n < 4, (waitLimit n).key 0 0 ≠ R.SET_ISSUED_LO_issued.key 0 0 ∧ (waitLimit n).key 0 0 ≠ R.SET_ISSUED_HI_issued.key 0 0 := by
      decide
    exact d.rd_tokenFor p t (hcases _ (mwLimitSel_lt w)).1 (hcases _ (mwLimitSel_lt w)).2
  obtain ⟨x, hx⟩ := d.tokenFor_threads p t
  rw [Dev.newWait, hlimit, hx, Dev.newWait]

/-- When a WAIT's condition does not hold as it begins. -/
theorem Dev.waitHolds_false {d : Dev} {p t : Nat}
    (h : (¬ (mwInvert (d.word p t) = false ∧ (mwCond (d.word p t) = 0x20 ∨ mwCond (d.word p t) = 0x21)) ∧
        d.condTest p (d.thread p t) (d.word p t) = false) ∨ mwCond (d.word p t) = 0 ∨
      (mwInvert (d.word p t) = false ∧ mwCond (d.word p t) = 0x21 ∧ ¬ ((d.setChan p (mwChannel (d.word p t))).open_ = none ∧
        (d.setChan p (mwChannel (d.word p t))).delivery = [] ∧ (d.thread p t).delivering = none ∧ (d.thread p t).sendChan = none)) ∨
      (mwInvert (d.word p t) = false ∧ mwCond (d.word p t) = 0x20 ∧ (d.thread p t).readChan = none ∧
        (d.setChan p (mwChannel (d.word p t))).closed = [])) : d.waitHolds p t = false := by
  unfold Dev.waitHolds
  dsimp only
  rcases h with ⟨hchan, htest⟩ | hzero | ⟨hinvert, hcond, hnot⟩ | ⟨hinvert, hcond, hread, hclosed⟩
  · rw [if_neg (fun hx : _ ∧ _ => hchan ⟨hx.2, .inr hx.1⟩), if_neg (fun hx : _ ∧ _ => hchan ⟨hx.2, .inl hx.1⟩), htest, ite_self]
  · exact if_pos hzero
  · rw [hcond, if_neg (by decide), if_pos ⟨rfl, hinvert⟩]
    refine Bool.eq_false_iff.2 (fun hholds => hnot ?_)
    simp only [SetChan.free, Bool.and_eq_true, Option.isNone_iff_eq_none, List.isEmpty_iff] at hholds
    obtain ⟨⟨⟨hopen, hdelivery⟩, hnone⟩, hsend⟩ := hholds
    exact ⟨hopen, hdelivery, hnone, hsend⟩
  · rw [hcond, if_neg (by decide), if_neg (fun hx : _ ∧ _ => absurd hx.1 (by decide)), if_pos ⟨rfl, hinvert⟩, hread]
    dsimp only
    rw [SetChan.holds, hclosed]
    rfl

/-! ## Limits and the standstill (R251, R261) -/

section
variable {p t : Nat} {x : Wait} {s : State} (h : s.dev.phase = .running) (hwait : (s.dev.thread p t).wait = some x)
  (hstate : (s.dev.thread p t).state = .waiting) (hkill : (s.dev.thread p t).kill = false) (hwaiters : s.dev.waiters p = [t])

include hwait hstate hkill hwaiters

/-- A wait that is broken off, in a device where only registers changed since. -/
theorem Dev.sitesSame.endWait {e : Dev} (hsame : s.dev.sitesSame e) {timedOut broken : Bool} (hbroken : timedOut = true ∨ broken = true) :
    let y := (e.endWait p t timedOut broken).settle p
    y.thread p t = (s.dev.thread p t).waitEnded timedOut broken ∧ y.regs = e.regs := by
  have hthread := hsame.thread p t
  have honly : e.waitsOnly p t := Dev.waitsOnly_congr (by rw [hsame.siteAt]) (Dev.waitsOnly_of_waiters hwaiters)
  have hend := Dev.endWait_plain (d := e) (by rw [hthread]; exact hwait) (by rw [hthread]; exact hkill) (by rw [hthread]; exact hstate)
    (hbroken.imp id .inl)
  have hended := e.makeReady_thread p t (Thread.waitEnded timedOut broken)
  rw [hthread] at hended
  intro y
  have hy : y = e.makeReady p t (Thread.waitEnded timedOut broken) := by
    show (e.endWait p t timedOut broken).settle p = _
    rw [hend]
    exact (honly.makeReady _).settle (Dev.settleThread_noWait (by rw [hended]; rfl))
  rw [hy]
  exact ⟨hended, (Dev.makeReady_items ..).2⟩

include h

theorem exec_waitLimitExpiry (hlimit : x.limit ≠ 0) (hnot : s.dev.waitDone p (s.dev.thread p t) x = false) :
    ∃ s', exec (.waitLimitExpiry p t) s = .next s' ∧ (s'.dev.thread p t).wait = none ∧ (s'.dev.thread p t).timedOut = true ∧
      (s'.dev.thread p t).pc = ((s.dev.thread p t).pc + 1) % 16384 ∧ (s'.dev.thread p t).state = .ready ∧
      s'.dev.rd R.SET_WAIT_TIMEOUTS_count p = (s.dev.rd R.SET_WAIT_TIMEOUTS_count p + 1) % 2 ^ R.SET_WAIT_TIMEOUTS_count.width := by
  obtain ⟨hthread, hregs⟩ := Dev.sitesSame.endWait hwait hstate hkill hwaiters (s.dev.sitesSame_wr R.SET_WAIT_TIMEOUTS_count
    (s.dev.rd R.SET_WAIT_TIMEOUTS_count p + 1) p 0) (timedOut := true) (broken := false) (.inl rfl)
  have hexec : exec (.waitLimitExpiry p t) s = .next { s with dev :=
      ((s.dev.bump R.SET_WAIT_TIMEOUTS_count p).endWait p t true false).settle p } := by
    refine (State.onRun_running _ h : execWaitLimitExpiry p t s = _).trans ?_
    dsimp only
    rw [hwait]
    dsimp only
    rw [hnot, hstate, if_neg (by rintro (hl | hl); exacts [hlimit hl, absurd hl (by decide)]), if_neg Bool.false_ne_true]
  refine ⟨_, hexec, ?_⟩
  rw [show ({ s with dev := ((s.dev.bump R.SET_WAIT_TIMEOUTS_count p).endWait p t true false).settle p } : State).dev.thread p t = _ from hthread]
  refine ⟨rfl, rfl, rfl, if_pos hstate, ?_⟩
  exact (Dev.rd_congr hregs _ _ _).trans (s.dev.rd_bump_self R.SET_WAIT_TIMEOUTS_count p 0 1)

theorem exec_standstill (hstill : s.dev.atStandstill p = true) :
    ∃ s', exec (.standstill p) s = .next s' ∧ (s'.dev.thread p t).wait = none ∧
      (s'.dev.thread p t).broken = true ∧ (s'.dev.thread p t).timedOut = false ∧
      (s'.dev.thread p t).pc = ((s.dev.thread p t).pc + 1) % 16384 ∧
      s'.dev.on (setCauses.bit 4) p = true ∧ (t < 128 → s'.dev.rd R.SET_LAST_STANDSTILL_thread p = t) := by
  generalize hd₁ : (s.dev.bump R.SET_STANDSTILLS_count p).cause setCauses 4 p = d₁
  generalize hd₂ : (d₁.wr R.SET_LAST_STANDSTILL_thread t p).wr R.SET_LAST_STANDSTILL_cond x.cond p = d₂
  have hsame : s.dev.sitesSame d₂ := by
    rw [← hd₂, ← hd₁]
    exact (((s.dev.sitesSame_wr _ _ _ _).trans (Dev.sitesSame_cause ..)).trans (Dev.sitesSame_wr ..)).trans (Dev.sitesSame_wr ..)
  obtain ⟨hthread, hregs⟩ := Dev.sitesSame.endWait hwait hstate hkill hwaiters hsame (timedOut := false) (broken := true) (.inr rfl)
  have hexec : exec (.standstill p) s = .next { s with dev := (d₂.endWait p t false true).settle p } := by
    refine (State.onRun_running _ h : execStandstill p s = _).trans ?_
    dsimp only
    rw [if_pos hstill, hwaiters]
    dsimp only
    rw [hd₁, hwait]
    exact congrArg (fun e : Dev => Host.Outcome.next ({ s with dev := (e.endWait p t false true).settle p } : State)) hd₂
  have hon : d₁.on (setCauses.bit 4) p = true := hd₁ ▸ Dev.cause_on ..
  refine ⟨_, hexec, ?_⟩
  rw [show ({ s with dev := (d₂.endWait p t false true).settle p } : State).dev.thread p t = _ from hthread]
  refine ⟨rfl, rfl, rfl, rfl, ?_, fun ht => ?_⟩
  · show ((d₂.endWait p t false true).settle p).on _ p = true
    rw [Dev.on, Dev.rd_congr hregs, ← hd₂, Dev.rd_wr_at _ _ _ _ _ _ (by decide), Dev.rd_wr_at _ _ _ _ _ _ (by decide)]
    exact hon
  · rw [Dev.rd_congr hregs, ← hd₂, Dev.rd_wr_at _ _ _ _ _ _ (by decide), Dev.rd_wr_self]
    exact Nat.mod_eq_of_lt ht

end

/-! ## Flags (R250 class 7) -/

theorem hasBit_setBit_ne (n : Nat) {b j : Nat} (h : j ≠ b) : hasBit (setBit n b) j = hasBit n j := by
  unfold setBit
  split
  · rfl
  · next hclear =>
    rw [hasBit_eq_testBit, hasBit_eq_testBit]
    rcases Nat.lt_or_gt_of_ne h with hlt | hlt
    · rw [Nat.add_comm, Nat.testBit_two_pow_add_gt hlt]
    · obtain ⟨k, rfl⟩ : ∃ k, j = b + 1 + k := ⟨j - (b + 1), by omega⟩
      have hhigh : (n + 2 ^ b) / 2 ^ (b + 1) = n / 2 ^ (b + 1) := by
        simp only [hasBit, bit, beq_iff_eq] at hclear
        rw [Nat.pow_succ, ← Nat.div_div_eq_div_mul, ← Nat.div_div_eq_div_mul, Nat.add_div_right _ (Nat.two_pow_pos b)]
        omega
      rw [Nat.add_comm (b + 1) k, ← Nat.testBit_div_two_pow, hhigh, Nat.testBit_div_two_pow]

theorem hasBit_clearBit_ne (n : Nat) {b j : Nat} (h : j ≠ b) : hasBit (clearBit n b) j = hasBit n j := by
  have hself := hasBit_clearBit_self n b
  unfold clearBit at hself ⊢
  split
  · next hset =>
    rw [if_pos hset] at hself
    have hle : 2 ^ b ≤ n := by
      by_contra hlt
      have hzero : n / 2 ^ b = 0 := Nat.div_eq_of_lt (Nat.lt_of_not_le hlt)
      rw [hasBit, bit, hzero] at hset
      exact absurd hset (by decide)
    have hback : setBit (n - 2 ^ b) b = n := by
      rw [setBit, hself, if_neg Bool.false_ne_true]
      omega
    rw [← hasBit_setBit_ne (n - 2 ^ b) h, hback]
  · rfl

theorem hasBit_setBit (n k b : Nat) : hasBit (setBit n k) b = (b == k || hasBit n b) := by
  by_cases h : b = k
  · rw [h, hasBit_setBit_self, beq_self_eq_true, Bool.true_or]
  · rw [hasBit_setBit_ne n h, beq_false_of_ne h, Bool.false_or]

theorem hasBit_clearBit (n k b : Nat) : hasBit (clearBit n k) b = (b != k && hasBit n b) := by
  by_cases h : b = k
  · rw [h, hasBit_clearBit_self, bne_self_eq_false, Bool.false_and]
  · rw [hasBit_clearBit_ne n h, bne_iff_ne.2 h, Bool.true_and]

section
variable {p t : Nat} {s : State} (h : s.dev.phase = .running)
include h

theorem State.onData_flag {fn : Nat} {up : Bool} (hat : s.dev.atData p t 7 fn) (hn : mwExt (s.dev.word p t) % 32 < 8) :
    ∃ s', s.onData p t 7 fn (Dev.putFlag p t up) = .next s' ∧ issues p t s s' ∧
      threadBecomes p t { s.dev.thread p t with
        issuedData := true
        uf := (if up then setBit else clearBit) (s.dev.thread p t).uf (mwExt (s.dev.word p t) % 32) } s s' := by
  have hbits : bits (mwExt (s.dev.word p t)) 0 5 = mwExt (s.dev.word p t) % 32 := congrArg (· % 32) (Nat.div_one _)
  refine State.onData_thread h hat (n := (s.dev.issued p t).freeCtr) (g := fun th =>
    { th with uf := (if up then setBit else clearBit) th.uf (mwExt (s.dev.word p t) % 32) }) ?_ rfl hat.1.noWait
  rw [Dev.putFlag, hbits]
  exact if_pos hn

/-- Flags of the Set. -/
theorem exec_flagSet_set (hat : s.dev.atData p t 7 0) (hn : 16 ≤ mwExt (s.dev.word p t) % 32) :
    ∃ s', exec (.flagSet p t) s = .next s' ∧ issues p t s s' ∧
      ∀ b, b < 16 → hasBit (s'.dev.siteAt p).flags b = (b == mwExt (s.dev.word p t) % 32 - 16 || hasBit (s.dev.siteAt p).flags b) := by
  have hbits : bits (mwExt (s.dev.word p t)) 0 5 = mwExt (s.dev.word p t) % 32 := congrArg (· % 32) (Nat.div_one _)
  have hput : Dev.putFlag p t true (s.dev.word p t) (s.dev.thread p t) (s.dev.issued p t) =
      (s.dev.issued p t).onSite p (fun x => { x with flags := setBit x.flags (mwExt (s.dev.word p t) % 32 - 16) }) := by
    rw [Dev.putFlag, hbits]
    exact (if_neg (by omega)).trans (if_pos hn)
  have hsite := (s.dev.issued p t).siteAt_onSite_self p (fun x => { x with flags := setBit x.flags (mwExt (s.dev.word p t) % 32 - 16) })
  have hexec : exec (.flagSet p t) s = _ := State.onData_next h hat (Dev.putFlag p t true)
  rw [hexec, hput, Dev.settle_unwaiting (Dev.unwaiting_congr (by rw [hsite]) hat.1.unwaiting_issued)]
  refine ⟨_, rfl, ((Dev.acted_issued p t s.dev).onSite rfl).issues, fun b _ => ?_⟩
  rw [hsite]
  refine (hasBit_setBit ..).trans ?_
  rw [(s.dev.threadOnly_issued p t).2.1]

/-! ## Retire commits (R250 class 8, R160) -/

omit h in
theorem Dev.issued_item? (d : Dev) (p t i : Nat) : (d.issued p t).item? i = d.item? i :=
  Dev.item?_congr (by rw [(d.acted_issued p t).1]) i

theorem State.onData_commit {fn : Nat} {c : Commit} (hat : s.dev.atData p t 8 fn) {i : Nat} {it : Item}
    (hitem : (s.dev.thread p t).item = some i) (hget : s.dev.item? i = some it) (hroom : it.commits.length < 8) :
    ∃ s', s.onData p t 8 fn (Dev.commit p t c) = .next s' ∧ s'.dev.item? i = some { it with commits := it.commits ++ [c] } ∧
      threadBecomes p t ((s.dev.thread p t).asked 13 0 0 false) s s' ∧ s'.dev.counters = s.dev.counters ∧ s'.dev.cells = s.dev.cells := by
  have hget' := (s.dev.issued_item? p t i).trans hget
  have hof : (s.dev.issued p t).threadItem (s.dev.thread p t) = it := by
    rw [Dev.threadItem, hitem, Option.bind_some, hget']
    rfl
  have hcommit : Dev.commit p t c (s.dev.word p t) (s.dev.thread p t) (s.dev.issued p t) =
      ((s.dev.issued p t).onItem i (fun x => { x with commits := x.commits ++ [c] })).request p t 13 0 0 false := by
    rw [Dev.commit, hitem]
    dsimp only
    rw [hof, if_neg (Nat.not_le.2 hroom)]
  have hjoined := Dev.item?_onItem_self hget' (fun x => { x with commits := x.commits ++ [c] })
  have honly : s.dev.threadOnly p t ((s.dev.issued p t).onItem i (fun x => { x with commits := x.commits ++ [c] })) := s.dev.threadOnly_issued p t
  have hthread : ((s.dev.issued p t).onItem i (fun x => { x with commits := x.commits ++ [c] })).thread p t =
      { s.dev.thread p t with issuedData := true } := s.dev.issued_thread p t
  have hquiet : ((s.dev.issued p t).onItem i (fun x => { x with commits := x.commits ++ [c] })).unwaiting p := hat.1.unwaiting_issued
  have hrest : ((s.dev.issued p t).onItem i (fun x => { x with commits := x.commits ++ [c] })).counters = s.dev.counters ∧
      ((s.dev.issued p t).onItem i (fun x => { x with commits := x.commits ++ [c] })).cells = s.dev.cells := by
    rw [Dev.onItem_counters, Dev.onItem_cells, (s.dev.acted_issued p t).1]
    exact ⟨rfl, rfl⟩
  rw [State.onData_next h hat, hcommit]
  generalize (s.dev.issued p t).onItem i (fun x => { x with commits := x.commits ++ [c] }) = e at *
  have hquiet' : (e.request p t 13 0 0 false).unwaiting p := hquiet.onThread (by rw [hthread]; exact hat.1.noWait)
  rw [Dev.settle_unwaiting hquiet']
  refine ⟨_, rfl, hjoined, (honly.onThread _).becomes ?_, hrest⟩
  rw [Dev.thread_onThread_self, hthread]
  rfl

/-- A datapath function that is a fault of its thread. -/
theorem State.onData_fault {cls fn : Nat} (hp : p < 34)
    (hat : s.dev.atData p t cls fn) {f : Microword → Thread → Dev → Dev} {code i : Nat} {it : Item}
    (hf : f (s.dev.word p t) (s.dev.thread p t) (s.dev.issued p t) = (s.dev.issued p t).threadFault p t code)
    (hitem : (s.dev.thread p t).item = some i) (hget : s.dev.item? i = some it) (hfailed : it.failed = none) (hstage : it.stage = .running) :
    ∃ s', s.onData p t cls fn f = .next s' ∧ faulted p t i s s' := by
  have hleaves := Dev.threadFault_leaves hp hat.1.unwaiting_issued ((congrArg Thread.item (s.dev.issued_thread p t)).trans hitem)
    ((s.dev.issued_item? p t i).trans hget) hfailed (by rw [hstage]; decide) code
  have hcount : (s.dev.issued p t).rd R.SET_THREAD_FAULTS_count p = s.dev.rd R.SET_THREAD_FAULTS_count p :=
    (s.dev.tokenFor_faultKey p t).rd rfl
  rw [State.onData_next h hat, hf]
  generalize (s.dev.issued p t).threadFault p t code = e at hleaves
  obtain ⟨⟨hidle, hnone, hcounted, hcause, hfails⟩, hquiet⟩ := hleaves
  rw [hcount] at hcounted
  rw [Dev.settle_unwaiting hquiet]
  exact ⟨_, rfl, hidle, hnone, hcounted, hcause, hfails⟩

theorem State.onData_commit_full {fn : Nat} {c : Commit} (hp : p < 34) (hat : s.dev.atData p t 8 fn) {i : Nat} {it : Item}
    (hitem : (s.dev.thread p t).item = some i) (hget : s.dev.item? i = some it) (hfull : 8 ≤ it.commits.length) (hfailed : it.failed = none)
    (hstage : it.stage = .running) : ∃ s', s.onData p t 8 fn (Dev.commit p t c) = .next s' ∧ faulted p t i s s' := by
  refine State.onData_fault h hp hat (code := 7) ?_ hitem hget hfailed hstage
  have hof : (s.dev.issued p t).threadItem (s.dev.thread p t) = it := by
    rw [Dev.threadItem, hitem, Option.bind_some, (s.dev.issued_item? p t i).trans hget]
    rfl
  rw [Dev.commit, hitem]
  dsimp only
  rw [hof, if_pos hfull]

end

/-- Settles O37. -/
theorem waitsAndCommits : Obligations.WaitsAndCommits := by
  refine ⟨fun p t s h hp => ⟨fun hat => ⟨exec_wait_goes h hat, exec_wait_opens h hat, fun _ _ hinvert hcond hread hclosed =>
      exec_wait_reads h hat hinvert hcond hread hclosed, fun hnot => ?_⟩, fun x hwait hstate hkill hlimit hnot hwaiters =>
      ⟨exec_waitLimitExpiry h hwait hstate hkill hwaiters hlimit hnot, exec_standstill h hwait hstate hkill hwaiters⟩⟩,
    fun p t s h => ⟨fun hat hn => ?_, fun hat hn => ?_, exec_flagSet_set h, fun i it hitem hget hroom => ⟨fun _ _ hat => ?_, fun _ _ hat => ?_,
      fun _ _ hat => ?_⟩, fun i it hp hitem hget hfull hfailed hstage => ⟨fun _ _ hat => ?_, fun _ _ hat => ?_, fun _ _ hat => ?_⟩⟩⟩
  · obtain ⟨s', hnext, hthread⟩ := exec_wait_waits h hat (Dev.waitHolds_false hnot)
    refine ⟨s', hnext, ?_⟩
    rw [hthread]
    exact ⟨hat.waitingThread_state, rfl, rfl, congrArg some ((s.dev.newWait_tokenFor p t _).trans (Dev.newWait_eq ..))⟩
  · obtain ⟨s', hnext, hissues, hbecomes⟩ := State.onData_flag h (up := true) hat hn
    exact ⟨s', _, hnext, hissues, hbecomes, fun b _ => hasBit_setBit _ _ b⟩
  · obtain ⟨s', hnext, hissues, hbecomes⟩ := State.onData_flag h (up := false) hat hn
    exact ⟨s', _, hnext, hissues, hbecomes, fun b _ => hasBit_clearBit _ _ b⟩
  · obtain ⟨s', hnext, hjoined, hbecomes, hcounters, -⟩ := State.onData_commit h hat hitem hget hroom
    exact ⟨s', hnext, hjoined, hbecomes, hcounters⟩
  · obtain ⟨s', hnext, hjoined, hbecomes, -, hcells⟩ := State.onData_commit h hat hitem hget hroom
    exact ⟨s', hnext, hjoined, hbecomes, hcells⟩
  · obtain ⟨s', hnext, hjoined, hbecomes, -⟩ := State.onData_commit h hat hitem hget hroom
    exact ⟨s', hnext, hjoined, hbecomes⟩
  · exact State.onData_commit_full h hp hat hitem hget hfull hfailed hstage
  · exact State.onData_commit_full h hp hat hitem hget hfull hfailed hstage
  · exact State.onData_commit_full h hp hat hitem hget hfull hfailed hstage

end Sys2Proof.Machine
end

section
/-!
Local SRAM and the reads of an item (R250).
-/

namespace Sys2Proof.Machine

/-! ## Bytes and words -/

theorem byteAt_map_range (f : Nat → Byte) {n k : Nat} (h : k < n) : byteAt ((List.range n).map f) k = (f k).toNat := by
  rw [byteAt, List.getD_eq_getElem?_getD, List.getElem?_map, List.getElem?_range h]
  rfl

theorem byteAt_append {l l' : List Byte} {k : Nat} (h : k < l.length) : byteAt (l ++ l') k = byteAt l k := by
  rw [byteAt, byteAt, List.getD_eq_getElem?_getD, List.getD_eq_getElem?_getD, List.getElem?_append_left h]

/-- The number that the low bytes of `v` make. -/
theorem foldr_digits (w : Nat) : ∀ v, (List.range w).foldr (fun k acc => v / 256 ^ k % 256 + 256 * acc) 0 = v % 256 ^ w := by
  induction w with
  | zero => exact fun v => (Nat.mod_one v).symm
  | succ w ih =>
    intro v
    have hnext : ∀ k, v / 256 ^ (k + 1) = v / 256 / 256 ^ k := fun k => by rw [Nat.pow_succ, Nat.mul_comm, Nat.div_div_eq_div_mul]
    rw [List.range_succ_eq_map, List.foldr_cons, List.foldr_map]
    simp only [Nat.succ_eq_add_one, hnext, ih]
    rw [Nat.pow_zero, Nat.div_one, Nat.pow_succ, Nat.mul_comm (256 ^ w), Nat.mod_mul]

theorem foldr_congr_mem {α β : Type} {f g : α → β → β} {l : List α} (x : β) (h : ∀ a ∈ l, ∀ b, f a b = g a b) : l.foldr f x = l.foldr g x := by
  induction l with
  | nil => rfl
  | cons a l ih =>
    rw [List.foldr_cons, List.foldr_cons, ih fun a ha => h a (List.mem_cons_of_mem _ ha), h a List.mem_cons_self]

/-- Bytes that are those of `v` read as `v`. -/
theorem leAt_of_bytes {l : List Byte} {v w : Nat} (h : ∀ k, k < w → byteAt l k = v / 256 ^ k % 256) : leAt l 0 w = v % 256 ^ w := by
  rw [leAt, ← foldr_digits]
  refine foldr_congr_mem 0 (fun k hk acc => ?_)
  rw [Nat.zero_add, h k (List.mem_range.1 hk)]

theorem byteAt_leBytes {v n k : Nat} (h : k < n) : byteAt (leBytes v n) k = v / 256 ^ k % 256 := by
  rw [leBytes, byteAt_map_range _ h, BitVec.toNat_ofNat]

/-! ## Local SRAM (R250 class 3) -/

namespace SetSite

theorem byte_putByte (s : SetSite) (a b : Nat) (x : Byte) : (s.putByte a x).byte b = if b = a then x else s.byte b := by
  unfold byte putByte
  split
  · next hx =>
    rw [NMap.getD, NMap.get?_erase]
    split
    · exact hx.symm
    · rfl
  · rw [NMap.getD, NMap.get?_set]
    split
    · rfl
    · rfl

theorem byte_putBytes (l : List (Nat × Byte)) (a b : Nat) : ∀ s : SetSite, (∀ x ∈ l, a + x.1 ≠ b) →
    (l.foldl (fun s x => s.putByte (a + x.1) x.2) s).byte b = s.byte b := by
  induction l with
  | nil => exact fun _ _ => rfl
  | cons x l ih =>
    intro s hne
    rw [List.foldl_cons, ih _ fun y hy => hne y (List.mem_cons_of_mem _ hy), byte_putByte, if_neg (Ne.symm (hne x List.mem_cons_self))]

/-- A store leaves every byte but the eight that it addresses. -/
theorem byte_store8_outside (s : SetSite) {a b : Nat} (v : Word64) (h : b < a ∨ a + 8 ≤ b) : (s.store8 a v).byte b = s.byte b := by
  refine byte_putBytes _ a b s (fun x hx => ?_)
  have hlt := List.mem_range.1 (List.of_mem_zip hx).1
  omega

theorem byte_putRange (f : Nat → Byte) (s : SetSite) (a : Nat) {k : Nat} : ∀ n, k < n →
    (((List.range n).map (fun k => (k, f k))).foldl (fun s x => s.putByte (a + x.1) x.2) s).byte (a + k) = f k := by
  intro n
  induction n with
  | zero => exact fun h => absurd h (Nat.not_lt_zero k)
  | succ n ih =>
    intro h
    rw [List.range_succ, List.map_append, List.foldl_append, List.map_singleton, List.foldl_cons, List.foldl_nil, byte_putByte]
    by_cases hk : k = n
    · rw [if_pos (by rw [hk]), hk]
    · rw [if_neg (by omega), ih (by omega)]

theorem byte_store8 (s : SetSite) (a : Nat) (v : Word64) {k : Nat} (h : k < 8) :
    (s.store8 a v).byte (a + k) = BitVec.ofNat 8 (v.toNat / 256 ^ k) := byte_putRange (fun k => BitVec.ofNat 8 (v.toNat / 256 ^ k)) s a 8 h

/-- A store is read back. -/
theorem load8_store8 (s : SetSite) (a : Nat) (v : Word64) : (s.store8 a v).load8 a = v := by
  refine BitVec.eq_of_toNat_eq ?_
  rw [load8, BitVec.toNat_ofNat, leAt_of_bytes (v := v.toNat) (fun k hk => ?_)]
  · have := v.isLt
    omega
  · rw [byteAt_map_range _ hk, byte_store8 s a v hk, BitVec.toNat_ofNat]

end SetSite

theorem Dev.issued_load8 (d : Dev) (p t a : Nat) : ((d.issued p t).siteAt p).load8 a = (d.siteAt p).load8 a := by
  rw [(d.threadOnly_issued p t).2.1]
  rfl

namespace SetSite

/-- A store at its microword: what it leaves of the bytes. -/
theorem stored {x y z : SetSite} {a : Nat} {v : Word64} (hy : y = { x.store8 a v with threads := y.threads }) (hx : x.sram = z.sram) :
    y.load8 a = v ∧ ∀ b, b < a ∨ a + 8 ≤ b → y.byte b = z.byte b := by
  refine ⟨?_, fun b hb => ?_⟩
  · rw [hy]
    exact x.load8_store8 a v
  · rw [hy]
    exact (x.byte_store8_outside v hb).trans (by rw [byte, byte, hx])

theorem store8_keeps (a : Nat) (v : Word64) (x : SetSite) : (x.store8 a v).threads = x.threads ∧ (x.store8 a v).callers = x.callers := ⟨rfl, rfl⟩

end SetSite

section
variable {p t cls fn : Nat} {s : State} (h : s.dev.phase = .running)
include h

/-- A datapath function that stores in its site's local SRAM. -/
theorem exec_stores {i : Instr} {f : Microword → Thread → Dev → Dev} (hexec : exec i s = s.onData p t cls fn f) (hat : s.dev.atData p t cls fn)
    {a : Nat} {v : Word64} {e : Dev} {th : Thread} (hf : f (s.dev.word p t) (s.dev.thread p t) (s.dev.issued p t) = e) (hacted : s.dev.acted p t e)
    (hthread : e.thread p t = th) (hquiet : e.unwaiting p)
    (hsite : e.siteAt p = { ((s.dev.issued p t).siteAt p).store8 a v with threads := (e.siteAt p).threads }) :
    ∃ s', exec i s = .next s' ∧ issues p t s s' ∧ ((s'.dev.siteAt p).load8 a = v ∧
      ∀ b, b < a ∨ a + 8 ≤ b → (s'.dev.siteAt p).byte b = (s.dev.siteAt p).byte b) ∧ s'.dev.thread p t = th := by
  rw [hexec, State.onData_next h hat, hf, Dev.settle_unwaiting hquiet]
  refine ⟨_, rfl, hacted.issues, SetSite.stored hsite ?_, hthread⟩
  rw [(s.dev.threadOnly_issued p t).2.1]

/-- One that then writes a register. -/
theorem exec_storesAndWrites {i : Instr} {f : Microword → Thread → Dev → Dev} (hexec : exec i s = s.onData p t cls fn f)
    (hat : s.dev.atData p t cls fn) {a n : Nat} {v r : Word64}
    (hf : f (s.dev.word p t) (s.dev.thread p t) (s.dev.issued p t) = ((s.dev.issued p t).onSite p (fun x => x.store8 a v)).setReg p t n r) :
    ∃ s', exec i s = .next s' ∧ issues p t s s' ∧ ((s'.dev.siteAt p).load8 a = v ∧
      ∀ b, b < a ∨ a + 8 ≤ b → (s'.dev.siteAt p).byte b = (s.dev.siteAt p).byte b) ∧
      s'.dev.thread p t = { s.dev.thread p t with issuedData := true, regs := (s.dev.thread p t).regs.set n r } := by
  have hsite := (s.dev.issued p t).siteAt_onSite_self p (fun x => x.store8 a v)
  have hthread : ((s.dev.issued p t).onSite p (fun x => x.store8 a v)).thread p t = { s.dev.thread p t with issuedData := true } :=
    (Dev.thread_congr ((congrArg SetSite.threads hsite).trans (SetSite.store8_keeps ..).1) t).trans (s.dev.issued_thread p t)
  have hquiet : ((s.dev.issued p t).onSite p (fun x => x.store8 a v)).unwaiting p :=
    Dev.unwaiting_congr ((congrArg SetSite.threads hsite).trans (SetSite.store8_keeps ..).1) hat.1.unwaiting_issued
  refine exec_stores h hexec hat hf (((Dev.acted_issued p t s.dev).onSite (SetSite.store8_keeps ..).2).onThread _ _) ?_ (hquiet.onThread ?_) ?_
  · rw [Dev.setReg, Dev.thread_onThread_self, hthread]
    rfl
  · rw [hthread]
    exact hat.1.noWait
  · rw [Dev.setReg, Dev.onThread, Dev.siteAt_onSite_self, hsite]

section
variable {a : Nat} {old : Word64} (haddress : mwAddress (s.dev.word p t) (s.dev.thread p t) = a) (ha : a < 0x1C0000)
  (hold : (s.dev.siteAt p).load8 a = old)
include haddress ha

omit h in
theorem not_inBlocks : inBlocks (mwAddress (s.dev.word p t) (s.dev.thread p t)) = false := by
  rw [haddress]
  exact decide_eq_false (Nat.not_le.2 ha)

theorem exec_store8b (hat : s.dev.atData p t 3 1) : ∃ s', exec (.store8b p t) s = .next s' ∧ issues p t s s' ∧
    ((s'.dev.siteAt p).load8 a = opB (s.dev.word p t) (s.dev.thread p t) ∧
      ∀ b, b < a ∨ a + 8 ≤ b → (s'.dev.siteAt p).byte b = (s.dev.siteAt p).byte b) ∧
    s'.dev.thread p t = { s.dev.thread p t with issuedData := true } := by
  have hsite := (s.dev.issued p t).siteAt_onSite_self p (fun x => x.store8 a (opB (s.dev.word p t) (s.dev.thread p t)))
  have hthread := (Dev.thread_congr ((congrArg SetSite.threads hsite).trans (SetSite.store8_keeps ..).1) t).trans (s.dev.issued_thread p t)
  refine exec_stores (i := .store8b p t) h rfl hat ?_ ((Dev.acted_issued p t s.dev).onSite (SetSite.store8_keeps ..).2) hthread
    (Dev.unwaiting_congr ((congrArg SetSite.threads hsite).trans (SetSite.store8_keeps ..).1) hat.1.unwaiting_issued) ?_
  · rw [Dev.store8, not_inBlocks haddress ha, if_neg Bool.false_ne_true, haddress]
  · rw [hsite]

include hold

theorem exec_load8b (hat : s.dev.atData p t 3 0) : ∃ s', exec (.load8b p t) s = .next s' ∧ issues p t s s' ∧
    threadBecomes p t { s.dev.thread p t with issuedData := true, regs := (s.dev.thread p t).regs.set (mwDst (s.dev.word p t)) old } s s' := by
  refine State.onData_thread h hat (n := (s.dev.issued p t).freeCtr) (g := fun th => th.setReg (mwDst (s.dev.word p t)) old) ?_ rfl hat.1.noWait
  rw [Dev.load8, not_inBlocks haddress ha, if_neg Bool.false_ne_true, Dev.issued_load8, haddress, hold]
  rfl

theorem exec_atomicAdd (hat : s.dev.atData p t 3 2) : ∃ s', exec (.atomicAdd p t) s = .next s' ∧ issues p t s s' ∧
    ((s'.dev.siteAt p).load8 a = old + opB (s.dev.word p t) (s.dev.thread p t) ∧
      ∀ b, b < a ∨ a + 8 ≤ b → (s'.dev.siteAt p).byte b = (s.dev.siteAt p).byte b) ∧
    s'.dev.thread p t = { s.dev.thread p t with issuedData := true, regs := (s.dev.thread p t).regs.set (mwDst (s.dev.word p t)) old } := by
  refine exec_storesAndWrites (i := .atomicAdd p t) h rfl hat ?_
  dsimp only
  rw [not_inBlocks haddress ha, if_neg Bool.false_ne_true, Dev.issued_load8, haddress, hold]

theorem exec_compareAndSwap (hat : s.dev.atData p t 3 3) : ∃ s', exec (.compareAndSwap p t) s = .next s' ∧ issues p t s s' ∧
    s'.dev.thread p t = { s.dev.thread p t with issuedData := true, regs := (s.dev.thread p t).regs.set (mwDst (s.dev.word p t)) old } ∧
    (s'.dev.siteAt p).load8 a =
      (if old = (s.dev.thread p t).reg (mwDst (s.dev.word p t)) then opB (s.dev.word p t) (s.dev.thread p t) else old) ∧
    ∀ b, b < a ∨ a + 8 ≤ b → (s'.dev.siteAt p).byte b = (s.dev.siteAt p).byte b := by
  by_cases hequal : old = (s.dev.thread p t).reg (mwDst (s.dev.word p t))
  · obtain ⟨s', hnext, hissues, hstored, hthread⟩ := exec_storesAndWrites (i := .compareAndSwap p t) h rfl hat
      (a := a) (v := opB (s.dev.word p t) (s.dev.thread p t)) (n := mwDst (s.dev.word p t)) (r := old) (by
        dsimp only
        rw [not_inBlocks haddress ha, if_neg Bool.false_ne_true, Dev.issued_load8, haddress, hold, if_pos hequal])
    rw [if_pos hequal]
    exact ⟨s', hnext, hissues, hthread, hstored⟩
  · obtain ⟨s', hnext, hissues, hthread, -, hsite, -⟩ := State.onData_thread h hat (n := (s.dev.issued p t).freeCtr)
      (f := fun w th d =>
        if inBlocks (mwAddress w th) then d.setReg p t (mwDst w) 0
        else (if (d.siteAt p).load8 (mwAddress w th) = th.reg (mwDst w) then d.onSite p (fun s => s.store8 (mwAddress w th) (opB w th)) else d).setReg
          p t (mwDst w) ((d.siteAt p).load8 (mwAddress w th)))
      (g := fun th => th.setReg (mwDst (s.dev.word p t)) old) (by
        rw [not_inBlocks haddress ha, if_neg Bool.false_ne_true, Dev.issued_load8, haddress, hold, if_neg hequal]
        rfl) rfl hat.1.noWait
    rw [if_neg hequal]
    have hsram : (s'.dev.siteAt p).sram = (s.dev.siteAt p).sram := by rw [hsite]
    refine ⟨s', hnext, hissues, hthread, ?_, fun b _ => ?_⟩
    · rw [← hold, SetSite.load8, SetSite.load8]
      simp only [SetSite.byte, hsram]
    · rw [SetSite.byte, SetSite.byte, hsram]

end

end

/-! ## Reads of an item, and edits (R250 class 4) -/

/-- The keys below those of the Set windows. -/
theorem Dev.tokenFor_low (p t : Nat) (d : Dev) : d.regsSame (· < 0x41 * 2 ^ 46) (d.tokenFor p t) := by
  have hapart : ∀ f : Field, f.unit = 0x41 → ¬ f.key p 0 < 0x41 * 2 ^ 46 := by
    intro f hunit
    simp only [Field.key, hunit]
    omega
  unfold Dev.tokenFor
  split
  · exact Dev.regsSame_refl _
  · exact Dev.regsSame.wr (Dev.regsSame.wr (Dev.regsSame_of_regs rfl) _ _ _ _ (hapart _ rfl)) _ _ _ _ (hapart _ rfl)

theorem Dev.issued_directEntry (d : Dev) (p t n : Nat) : (d.issued p t).directEntry templateTable n = d.directEntry templateTable n := by
  refine Dev.directEntry_congr (e := d.issued p t) (by rw [(d.acted_issued p t).1]) (fun k hk => d.tokenFor_low p t k ?_) n
  simp only [R.MTB_TABLE_CFG_kind] at hk
  omega

/-- A Ledger entry shows registers of the Packet Pipeline alone. -/
theorem Dev.ledgerBytes_congr {d e : Dev} (hregs : d.regsSame (· < 0x41 * 2 ^ 46) e) (i : Nat)
    (it : Item) : e.ledgerBytes i it = d.ledgerBytes i it := by
  have hkey : ∀ f : Field, f.unit = 0x30 → f.off = 0x808 → f.lsb < 32 → f.key 0 (16 * (it.source % 256)) < 0x41 * 2 ^ 46 := by
    intro f hunit hoff hlsb
    simp only [Field.key, hunit, hoff]
    omega
  have hring : e.itemRing it = d.itemRing it := by
    simp only [Dev.itemRing, hregs.rd (hkey R.PPL_PORT_EXC_exception_ring rfl rfl (by decide)),
      hregs.on (hkey R.PPL_PORT_EXC_exception_valid rfl rfl (by decide))]
  have hknown : e.destKnown it = d.destKnown it := by simp only [Dev.destKnown, hring]
  simp only [Dev.ledgerBytes, hring, hknown]

theorem Dev.ledgerBytes_seq (d : Dev) (i : Nat) (it : Item) : leAt (d.ledgerBytes i it) 0 6 = it.seq % 2 ^ 48 := by
  have hlen : ∀ v n, (leBytes v n).length = n := fun v n => by rw [leBytes, List.length_map, List.length_range]
  have hbyte : ∀ k, k < 6 → byteAt (d.ledgerBytes i it) k = (it.seq % 2 ^ 48 + 2 ^ 48 * (it.kind % 16) + 2 ^ 52 * (it.position % 64) +
      2 ^ 58 * (it.replays % 4) + 2 ^ 60 * (!it.edits.isEmpty).toNat) / 256 ^ k % 256 := by
    intro k hk
    unfold Dev.ledgerBytes
    dsimp only
    iterate 9 rw [byteAt_append (by simp only [List.length_append, hlen]; omega)]
    exact byteAt_leBytes (by omega)
  rw [leAt_of_bytes hbyte]
  omega

theorem Dev.threadOnly.sitesSame {p t : Nat} {c d e : Dev} (h : c.threadOnly p t d) (hsame : d.sitesSame e) : c.threadOnly p t e := by
  obtain ⟨hothers, hsite, helse, hpos⟩ := h
  refine ⟨fun u hu => (hsame.thread p u).trans (hothers u hu), ?_, fun q hq => (hsame.siteAt q).trans (helse q hq), hsame.2.trans hpos⟩
  rw [hsame.siteAt]
  exact hsite

section
variable {p t i : Nat} {it : Item} {s : State} (h : s.dev.phase = .running) (hitem : (s.dev.thread p t).item = some i)
  (hget : s.dev.item? i = some it)

include hitem hget in
theorem Dev.issued_threadItem : (s.dev.issued p t).threadItem (s.dev.thread p t) = it := by
  rw [Dev.threadItem, hitem, Option.bind_some, (s.dev.issued_item? p t i).trans hget]
  rfl

include h

/-- A read that writes dst. -/
theorem exec_reads {cls fn r : Nat} {op : Instr} {f : Microword → Thread → Dev → Dev} (hexec : exec op s = s.onData p t cls fn f)
    (hat : s.dev.atData p t cls fn)
    (hf : f (s.dev.word p t) (s.dev.thread p t) (s.dev.issued p t) = (s.dev.issued p t).setReg p t (mwDst (s.dev.word p t)) (BitVec.ofNat 64 r)) :
    ∃ s', exec op s = .next s' ∧ issues p t s s' ∧ threadBecomes p t { s.dev.thread p t with
      issuedData := true
      regs := (s.dev.thread p t).regs.set (mwDst (s.dev.word p t)) (BitVec.ofNat 64 r) } s s' := by
  rw [hexec]
  exact State.onData_thread h hat (n := (s.dev.issued p t).freeCtr)
    (g := fun th => th.setReg (mwDst (s.dev.word p t)) (BitVec.ofNat 64 r)) hf rfl hat.1.noWait

omit h in
theorem Dev.addEdit_keeps (th : Thread) (e : Edit) (d : Dev) : d.sitesSame (d.addEdit th e) ∧ (d.addEdit th e).regs = d.regs := by
  unfold Dev.addEdit
  split
  · cases e <;> exact ⟨⟨rfl, rfl⟩, rfl⟩
  · exact ⟨⟨rfl, rfl⟩, rfl⟩

omit h in
theorem Dev.item?_addEdit {d : Dev} {th : Thread} {j : Nat} {x : Item} (hth : th.item = some j) (hx : d.item? j = some x) (e : Edit) :
    (d.addEdit th e).item? j = some (d.edited x e) := by
  have hfirst := Dev.item?_onItem_self hx (fun y => { y with edits := y.edits ++ [e] })
  rw [Dev.addEdit, hth]
  cases e with
  | encap n => exact Dev.item?_onItem_self hfirst _
  | _ => exact hfirst

omit h in
theorem Dev.issued_edited (d : Dev) (p t : Nat) (x : Item) (e : Edit) : (d.issued p t).edited x e = d.edited x e := by
  cases e with
  | encap n =>
    unfold Dev.edited
    dsimp only
    rw [Dev.issued_directEntry]
  | _ => rfl

include hitem hget

theorem exec_appendEdit (e : Edit) (hat : s.dev.atData p t 4 3) : ∃ s', exec (.appendEdit p t e) s = .next s' ∧
    threadBecomes p t { s.dev.thread p t with issuedData := true } s s' ∧ s'.dev.item? i = some (s.dev.edited it e) ∧
    s'.dev.regs = (s.dev.tokenFor p t).regs := by
  have hexec : exec (.appendEdit p t e) s = _ := State.onData_next h hat (fun _ th d => d.addEdit th e)
  have hget' := (s.dev.issued_item? p t i).trans hget
  have hjoined := Dev.item?_addEdit hitem hget' e
  rw [Dev.issued_edited] at hjoined
  obtain ⟨hsites, hregs⟩ := Dev.addEdit_keeps (s.dev.thread p t) e (s.dev.issued p t)
  rw [hexec]
  generalize (s.dev.issued p t).addEdit (s.dev.thread p t) e = d at *
  rw [Dev.settle_unwaiting (hat.1.unwaiting_issued.sitesSame hsites)]
  exact ⟨_, rfl, ((s.dev.threadOnly_issued p t).sitesSame hsites).becomes ((hsites.thread p t).trans (s.dev.issued_thread p t)), hjoined, hregs⟩

end

/-- Settles O38. -/
theorem localMemoryAndItems : Obligations.LocalMemoryAndItems := by
  refine ⟨fun p t s h ha => ⟨exec_load8b h rfl ha rfl, exec_store8b h rfl ha, exec_atomicAdd h rfl ha rfl, exec_compareAndSwap h rfl ha rfl⟩,
    fun p t i it s h hitem hget => ⟨fun hat => exec_reads h rfl hat ?_, fun hat => exec_reads h rfl hat ?_, fun hat => ?_,
      fun e hat => exec_appendEdit h hitem hget e hat, fun hat => ?_⟩⟩
  · rw [Dev.issued_threadItem hitem hget]
    rfl
  · rw [Dev.issued_threadItem hitem hget]
    rfl
  · refine State.onData_thread h hat (n := (s.dev.issued p t).freeCtr) (g := fun th => { th with
      assists := th.assists ++ [{ kind := 12, dst := mwDst (s.dev.word p t)
                                  answer := word8 it.bytes (mwAddress (s.dev.word p t) (s.dev.thread p t)), writes := true }] })
      ?_ rfl hat.1.noWait
    rw [Dev.issued_threadItem hitem hget]
  · obtain ⟨s', hnext, hissues, hbecomes⟩ := exec_reads (op := .readLedgerFields p t) h rfl hat (r := leAt (s.dev.ledgerBytes i it)
      (mwAddress (s.dev.word p t) (s.dev.thread p t)) 8) (by
        dsimp only
        rw [Dev.issued_threadItem hitem hget, hitem]
        show Dev.setReg p t _ (word8 ((s.dev.issued p t).ledgerBytes i it) _) _ = _
        rw [Dev.ledgerBytes_congr (d := s.dev) (e := s.dev.issued p t) (s.dev.tokenFor_low p t)]
        rfl)
    exact ⟨s', hnext, hissues, hbecomes, s.dev.ledgerBytes_seq i it⟩

end Sys2Proof.Machine
end

section
/-!
The debugger and the control store (R262-R265).
-/

namespace Sys2Proof.Machine

/-! ## The debugger (R262) -/

/-- A thread that goes on from the point where it was frozen. -/
def Thread.resumed (th : Thread) : Thread :=
  { th with state := if th.item.isNone then .idle else if th.wait.isSome then .waiting else .ready }

theorem Thread.resumed_eq {th : Thread} (h : th.wait = none) : th.resumed = { th with state := if th.item.isSome then .ready else .idle } := by
  have hstate : (if th.item.isNone then ThreadState.idle else if th.wait.isSome then .waiting else .ready) =
      if th.item.isSome then .ready else .idle := by
    rw [h]
    cases th.item <;> rfl
  rw [Thread.resumed, hstate]

section
variable {p t : Nat} {s : State} (h : s.dev.phase = .running)

theorem Dev.onlySites_onThread (f : Thread → Thread) : onlySites s { s with dev := s.dev.onThread p t f } := rfl

theorem threadBecomes_onThread {f : Thread → Thread} {th : Thread} (hth : f (s.dev.thread p t) = th) :
    threadBecomes p t th s { s with dev := s.dev.onThread p t f } :=
  ((s.dev.threadOnly_refl p t).onThread f).becomes ((Dev.thread_onThread_self ..).trans hth)

include h

theorem exec_dbgStop_ready (hstate : (s.dev.thread p t).state = .ready) : ∃ s', exec (.dbgStop p t) s = .next s' ∧ onlySites s s' ∧
    threadBecomes p t { s.dev.thread p t with state := .stopPending } s s' := by
  refine ⟨_, (State.onRun_running _ h : execDbgStop p t s = _), ?_⟩
  unfold Dev.dbgStop
  rw [if_pos hstate]
  exact ⟨Dev.onlySites_onThread _, threadBecomes_onThread rfl⟩

theorem exec_dbgStop_wait {x : Wait} (hstate : (s.dev.thread p t).state = .waiting) (hwait : (s.dev.thread p t).wait = some x)
    (hyield : x.yield = false) : ∃ s', exec (.dbgStop p t) s = .next s' ∧ onlySites s s' ∧
      threadBecomes p t { s.dev.thread p t with state := .stopPending } s s' := by
  refine ⟨_, (State.onRun_running _ h : execDbgStop p t s = _), ?_⟩
  unfold Dev.dbgStop
  have hstands : ((s.dev.thread p t).wait.map Wait.yield).getD false = false := by rw [hwait]; exact hyield
  dsimp only
  rw [if_neg (by rw [hstate]; decide), if_pos hstate, hstands, if_neg Bool.false_ne_true]
  exact ⟨Dev.onlySites_onThread _, threadBecomes_onThread rfl⟩

theorem exec_dbgStop_yields {x : Wait} (hstate : (s.dev.thread p t).state = .waiting) (hwait : (s.dev.thread p t).wait = some x)
    (hyield : x.yield = true) (hkill : (s.dev.thread p t).kill = false) : ∃ s', exec (.dbgStop p t) s = .next s' ∧
      (s'.dev.thread p t).state = .stopped ∧ (s'.dev.thread p t).wait = some x ∧ s'.dev.on (setCauses.bit 6) p = true := by
  have hpending := Dev.thread_onThread_self s.dev p t (fun th => { th with state := .stopPending })
  generalize hd : s.dev.onThread p t (fun th => { th with state := .stopPending }) = d at hpending
  have hexec : exec (.dbgStop p t) s = .next { s with dev := (d.onThread p t (fun th => { th with state := .stopped })).cause setCauses 6 p } := by
    refine (State.onRun_running _ h : execDbgStop p t s = _).trans ?_
    have hkill' : (d.thread p t).kill = false := by rw [hpending]; exact hkill
    have hstate' : (d.thread p t).state = .stopPending := by rw [hpending]
    unfold Dev.dbgStop
    dsimp only
    rw [hstate, hwait, Option.map_some, Option.getD_some, hyield, if_neg (by decide), if_pos rfl, if_pos rfl, hd, Dev.takeEvent, hkill',
        if_neg Bool.false_ne_true, if_pos hstate']
  have hthread : ((d.onThread p t (fun th => { th with state := .stopped })).cause setCauses 6 p).thread p t =
      { d.thread p t with state := .stopped } :=
    ((Dev.sitesSame_cause ..).thread p t).trans (Dev.thread_onThread_self ..)
  refine ⟨_, hexec, (congrArg Thread.state hthread).trans rfl, (congrArg Thread.wait hthread).trans ?_, Dev.cause_on ..⟩
  rw [hpending]
  exact hwait

section
variable (hstate : (s.dev.thread p t).state = .stopped) (hwait : (s.dev.thread p t).wait = none) (hwaiters : s.dev.waiters p = [])
include hstate hwait hwaiters

omit h in
/-- A stopped thread that waits for nothing goes on. -/
theorem Dev.dbgResume_stopped : s.dev.dbgResume p t = s.dev.makeReady p t Thread.resumed := by
  have hthread := s.dev.makeReady_thread p t Thread.resumed
  have hquiet := ((Dev.waiters_nil.1 hwaiters).waitsOnly t).makeReady Thread.resumed
  unfold Dev.dbgResume
  rw [if_pos (.inl hstate)]
  exact hquiet.settle (Dev.settleThread_noWait (by rw [hthread]; exact hwait))

omit h hstate hwaiters in
theorem Dev.makeReady_resumed : (s.dev.makeReady p t Thread.resumed).thread p t =
      { s.dev.thread p t with state := if (s.dev.thread p t).item.isSome then .ready else .idle } := by
  rw [Dev.makeReady_thread, Thread.resumed_eq hwait]

omit h hstate hwait hwaiters in
theorem Dev.onlySites_makeReady (f : Thread → Thread) : onlySites s { s with dev := s.dev.makeReady p t f } := by
  unfold Dev.makeReady
  dsimp only
  split <;> rfl

theorem exec_dbgResume : ∃ s', exec (.dbgResume p t) s = .next s' ∧ onlySites s s' ∧
    threadBecomes p t { s.dev.thread p t with state := if (s.dev.thread p t).item.isSome then .ready else .idle } s s' := by
  refine ⟨_, (State.onRun_running _ h : execDbgResume p t s = _), ?_⟩
  rw [Dev.dbgResume_stopped hstate hwait hwaiters]
  exact ⟨Dev.onlySites_makeReady _, ((s.dev.threadOnly_refl p t).makeReady _).becomes (Dev.makeReady_resumed hwait)⟩

theorem exec_dbgStep : ∃ s', exec (.dbgStep p t) s = .next s' ∧ onlySites s s' ∧
    threadBecomes p t { s.dev.thread p t with state := if (s.dev.thread p t).item.isSome then .stopPending else .idle } s s' := by
  have hmade := Dev.makeReady_resumed hwait
  have honly := (s.dev.threadOnly_refl p t).makeReady Thread.resumed
  have hsites := Dev.onlySites_makeReady (s := s) (p := p) (t := t) Thread.resumed
  refine ⟨_, (State.onRun_running _ h : execDbgStep p t s = _), ?_⟩
  unfold Dev.dbgStepOp
  rw [if_pos hstate, Dev.dbgResume_stopped hstate hwait hwaiters]
  generalize s.dev.makeReady p t Thread.resumed = d at *
  refine ⟨?_, (honly.onThread _).becomes ?_⟩
  · have hd : d = { s.dev with sites := d.sites, freeCtr := d.freeCtr } := congrArg State.dev hsites
    exact congrArg (fun e : Dev => ({ s with dev := { e with sites := (d.onThread p t _).sites } } : State)) hd
  · rw [Dev.thread_onThread_self, hmade]
    generalize s.dev.thread p t = th
    obtain ⟨state, item⟩ := th
    cases item <;> rfl

omit hwait in
theorem exec_dbgKill_stopped {i : Nat} {it : Item} (hp : p < 34) (hitem : (s.dev.thread p t).item = some i) (hget : s.dev.item? i = some it)
    (hfailed : it.failed = none) (hstage : it.stage = .running) : ∃ s', exec (.dbgKill p t) s = .next s' ∧ faulted p t i s s' := by
  have hleaves := Dev.threadFault_leaves hp (Dev.waiters_nil.1 hwaiters) hitem hget hfailed (by rw [hstage]; decide) 8
  refine ⟨_, (State.onRun_running _ h : execDbgKill p t s = _), ?_⟩
  unfold Dev.dbgKillOp
  dsimp only
  rw [hstate, if_neg (by decide), if_pos (.inl rfl)]
  generalize s.dev.threadFault p t 8 = e at hleaves
  rw [Dev.settle_unwaiting hleaves.2]
  exact hleaves.1

end

theorem exec_dbgKill_ready (hstate : (s.dev.thread p t).state = .ready) (hwait : (s.dev.thread p t).wait = none) :
    ∃ s', exec (.dbgKill p t) s = .next s' ∧ onlySites s s' ∧ threadBecomes p t { s.dev.thread p t with kill := true } s s' := by
  refine ⟨_, (State.onRun_running _ h : execDbgKill p t s = _), ?_⟩
  unfold Dev.dbgKillOp
  have hstands : ((s.dev.thread p t).wait.map Wait.yield).getD false = false := by rw [hwait]; rfl
  dsimp only
  rw [hstands, if_neg (by rw [hstate]; decide), if_neg (by rw [hstate]; decide)]
  exact ⟨Dev.onlySites_onThread _, threadBecomes_onThread rfl⟩

end

/-! ## The control-store port (R265) -/

theorem SetSite.store_putWord (x : SetSite) (a b : Nat) (w : Microword) :
    (x.putWord a w).store.getD b 0 = if b = a then w else x.store.getD b 0 := by
  unfold SetSite.putWord
  dsimp only
  split
  · next hw =>
    rw [NMap.getD, NMap.get?_erase]
    split
    · exact hw.symm
    · rfl
  · rw [NMap.getD, NMap.get?_set]
    split
    · rfl
    · rfl

section
variable {p : Nat} {s : State} (h : s.dev.phase = .running)

theorem Dev.rd_csStep (d : Dev) : (d.csStep p).rd R.SET_CS_ADDR_addr p = (d.rd R.SET_CS_ADDR_addr p + 1) % 16384 :=
  (Dev.rd_wr_self ..).trans (Nat.mod_mod _ _)

theorem Dev.csStep_siteAt (d : Dev) (q : Nat) : (d.csStep p).siteAt q = d.siteAt q := Dev.siteAt_congr rfl rfl q

include h

theorem exec_csRead : ∃ s', exec (.csRead p) s = .next s' ∧
    s'.dev.rd R.SET_CS_ADDR_addr p = (s.dev.rd R.SET_CS_ADDR_addr p + 1) % 16384 ∧ s'.dev.sites = s.dev.sites ∧
    ∀ n, n < 4 → s'.dev.rd R.SET_CS_DATA_data p (4 * n) =
      ((s.dev.siteAt p).store.getD (s.dev.rd R.SET_CS_ADDR_addr p) 0).toNat / 2 ^ (32 * n) % 2 ^ 32 := by
  have hexec : exec (.csRead p) s = .next { s with dev := (s.dev.fillWindow R.SET_CS_DATA_data p 0
      (fun n => bits ((s.dev.siteAt p).store.getD (s.dev.rd R.SET_CS_ADDR_addr p) 0).toNat (32 * n) 32) 4).csStep p } := by
    refine (State.onRun_running _ h : execCsRead p s = _).trans ?_
    rw [Dev.csRead, Dev.fillWindow]
    simp only [Nat.zero_add]
  obtain ⟨r, k, hchanges⟩ := s.dev.fillWindow_changes R.SET_CS_DATA_data p 0
    (fun n => bits ((s.dev.siteAt p).store.getD (s.dev.rd R.SET_CS_ADDR_addr p) 0).toNat (32 * n) 32) 4
  have hapart : ∀ k, k < 4 → R.SET_CS_ADDR_addr.key p 0 ≠ R.SET_CS_DATA_data.key p (0 + 4 * k) := by
    intro k hk
    simp only [Field.key, R.SET_CS_ADDR_addr, R.SET_CS_DATA_data]
    omega
  refine ⟨_, hexec, ?_, ?_, fun n hn => ?_⟩
  · rw [Dev.rd_csStep, Dev.rd_fillWindow_ne _ _ _ _ _ _ hapart]
  · show ((s.dev.fillWindow _ _ _ _ _).csStep p).sites = _
    rw [Dev.csStep, Dev.wr_sites, hchanges]
  · have hvalue := s.dev.rd_fillWindow R.SET_CS_DATA_data p 0
      (fun n => bits ((s.dev.siteAt p).store.getD (s.dev.rd R.SET_CS_ADDR_addr p) 0).toNat (32 * n) 32) 4 hn
    rw [Nat.zero_add] at hvalue
    rw [Dev.csStep, Dev.rd_wr_ne _ _ _ _ _ _ _ _ (Ne.symm (by rw [← Nat.zero_add (4 * n)]; exact hapart n hn)), hvalue]
    exact Nat.mod_mod _ _

theorem exec_csWrite_refused (hwritable : s.dev.csWritable p = false) : exec (.csWrite p) s = .next s := by
  refine (State.onRun_running _ h : execCsWrite p s = _).trans ?_
  rw [Dev.csWrite, hwritable]
  rfl

section
variable (hwritable : s.dev.csWritable p = true)
include hwritable

theorem exec_csWrite (hok : checkOk (s.dev.csData p) = true) : ∃ s', exec (.csWrite p) s = .next s' ∧
    (s'.dev.siteAt p).store.getD (s.dev.rd R.SET_CS_ADDR_addr p) 0 = s.dev.csData p ∧
    (∀ b, b ≠ s.dev.rd R.SET_CS_ADDR_addr p → (s'.dev.siteAt p).store.getD b 0 = (s.dev.siteAt p).store.getD b 0) ∧
    s'.dev.rd R.SET_CS_ADDR_addr p = (s.dev.rd R.SET_CS_ADDR_addr p + 1) % 16384 := by
  have hexec : exec (.csWrite p) s = .next { s with dev := (s.dev.onSite p (fun x =>
      x.putWord (s.dev.rd R.SET_CS_ADDR_addr p) (s.dev.csData p))).csStep p } := by
    refine (State.onRun_running _ h : execCsWrite p s = _).trans ?_
    rw [Dev.csWrite, hwritable, Bool.not_true, if_neg Bool.false_ne_true]
    dsimp only
    rw [if_pos hok]
  have hsite := s.dev.siteAt_onSite_self p (fun x => x.putWord (s.dev.rd R.SET_CS_ADDR_addr p) (s.dev.csData p))
  refine ⟨_, hexec, ?_, fun b hb => ?_, Dev.rd_csStep _⟩
  · rw [Dev.csStep_siteAt, hsite, SetSite.store_putWord, if_pos rfl]
  · rw [Dev.csStep_siteAt, hsite, SetSite.store_putWord, if_neg hb]

theorem exec_csWrite_bad (hbad : checkOk (s.dev.csData p) = false) : ∃ s', exec (.csWrite p) s = .next s' ∧ s'.dev.sites = s.dev.sites ∧
    s'.dev.on (setCauses.bit 7) p = true := by
  have hexec : exec (.csWrite p) s = .next { s with dev := (s.dev.cause setCauses 7 p).csStep p } := by
    refine (State.onRun_running _ h : execCsWrite p s = _).trans ?_
    rw [Dev.csWrite, hwritable, Bool.not_true, if_neg Bool.false_ne_true]
    dsimp only
    rw [hbad, if_neg Bool.false_ne_true]
  refine ⟨_, hexec, ?_, ?_⟩
  · exact (s.dev.sitesSame_cause setCauses 7 p).1
  · show ((s.dev.cause setCauses 7 p).csStep p).on _ p = true
    rw [Dev.on, Dev.csStep, Dev.rd_wr_at _ _ _ _ _ _ (by decide)]
    exact Dev.cause_on ..

end

end

/-! ## A single error that a fetch meets (R264) -/

/-- The key of the count of corrected microwords. -/
def correctedKey (p : Nat) (k : Nat) : Prop := k = R.SET_CS_CORRECTED_count.key p 0

/-- The control store of position `p` and the count of its corrections stay. -/
def Dev.storeSame (p : Nat) (d e : Dev) : Prop := (e.siteAt p).store = (d.siteAt p).store ∧ d.regsSame (correctedKey p) e

theorem not_correctedKey_at (p : Nat) {f : Field} (h : f.key 0 0 ≠ R.SET_CS_CORRECTED_count.key 0 0) : ¬ correctedKey p (f.key p 0) :=
  Field.key_ne_at p 0 h

theorem not_correctedKey_abandoned (p a : Nat) : ¬ correctedKey p (R.SET_CHAN_ABANDONED_abandoned.key p a) := by
  simp only [correctedKey, Field.key, R.SET_CS_CORRECTED_count, R.SET_CHAN_ABANDONED_abandoned]
  omega

theorem Dev.storeSame_refl (p : Nat) (d : Dev) : d.storeSame p d := ⟨rfl, Dev.regsSame_refl d⟩

section
variable {p : Nat} {d e : Dev} (h : d.storeSame p e)
include h

theorem Dev.storeSame.onSite {f : SetSite → SetSite} (hf : ∀ x, (f x).store = x.store) : d.storeSame p (e.onSite p f) :=
  ⟨by rw [Dev.siteAt_onSite_self, hf, h.1], h.2⟩

theorem Dev.storeSame.onThread (t : Nat) (f : Thread → Thread) : d.storeSame p (e.onThread p t f) := h.onSite fun _ => rfl

theorem Dev.storeSame.onSetChan (c : Nat) (f : SetChan → SetChan) : d.storeSame p (e.onSetChan p c f) := h.onSite fun _ => rfl

theorem Dev.storeSame.regs {x : Dev} (hsites : e.sitesSame x) (hregs : e.regsSame (correctedKey p) x) : d.storeSame p x :=
  ⟨by rw [hsites.siteAt, h.1], h.2.trans hregs⟩

theorem Dev.storeSame.wr {f : Field} (v a : Nat) (hf : ¬ correctedKey p (f.key p a)) : d.storeSame p (e.wr f v p a) :=
  h.regs (Dev.sitesSame_wr ..) ((Dev.regsSame_refl e).wr _ _ _ _ hf)

theorem Dev.storeSame.setCause (b : Nat) (hb : b < 32) : d.storeSame p (e.cause setCauses b p) :=
  h.regs (Dev.sitesSame_cause ..) ((Dev.regsSame_refl e).cause _ _ _ (by
    simp only [correctedKey, Causes.bit, Field.key, R.SET_CS_CORRECTED_count, setCauses]
    omega))

theorem Dev.storeSame.abandonChan (c : Nat) : d.storeSame p (e.abandonChan p c) :=
  (h.wr _ _ (not_correctedKey_abandoned p _)).setCause 5 (by decide)

theorem Dev.storeSame.stageEmptied (c : Nat) : d.storeSame p (e.stageEmptied p c) := by
  unfold Dev.stageEmptied
  split
  · exact h.onSite fun _ => rfl
  · exact h

theorem Dev.storeSame.releaseChannels (t : Nat) : d.storeSame p (e.releaseChannels p t) := by
  unfold Dev.releaseChannels
  extract_lets th e₁ e₂
  have h₁ : d.storeSame p e₁ := by
    show d.storeSame p (match th.sendChan with
      | some c => _
      | none => _)
    split
    · exact Dev.storeSame.abandonChan (h.onSetChan _ _) _
    · exact h
  have h₂ : d.storeSame p e₂ := by
    show d.storeSame p (match th.readChan with
      | some (c, m) => _
      | none => _)
    split
    · exact Dev.storeSame.abandonChan (Dev.storeSame.stageEmptied (h₁.onSetChan _ _) _) _
    · exact h₁
  exact h₂.onThread _ _

theorem Dev.storeSame.pushFault (t code pc : Nat) : d.storeSame p (e.pushFault p t code pc) := by
  unfold Dev.pushFault
  split
  · exact h.onSite fun _ => rfl
  · exact h.wr _ _ (not_correctedKey_at p (by decide))

theorem Dev.storeSame.failItem (hp : p < 34) (i reason : Nat) : d.storeSame p (e.failItem i reason) :=
  h.regs (Dev.failItem_sites ..) fun k hk => Dev.failItem_regs i reason e k (by
    rw [show k = _ from hk]
    exact Field.key_unit _ (by omega) (by decide) (by decide))

theorem Dev.storeSame.threadFault (hp : p < 34) (t code : Nat) : d.storeSame p (e.threadFault p t code) := by
  unfold Dev.threadFault
  extract_lets th e₁ e₂ e₃ e₄
  have h₁ : d.storeSame p e₁ := h.releaseChannels t
  have h₂ : d.storeSame p e₂ := by
    show d.storeSame p (match th.item with
      | some i => _
      | none => _)
    split
    · exact h₁.failItem hp _ _
    · exact h₁
  have h₄ : d.storeSame p e₄ := Dev.storeSame.pushFault (h₂.onThread t _) _ _ _
  exact (h₄.wr _ _ (not_correctedKey_at p (by decide))).setCause 0 (by decide)

theorem Dev.storeSame.takeEvent (hp : p < 34) (t : Nat) : d.storeSame p (e.takeEvent p t) := by
  unfold Dev.takeEvent
  extract_lets th
  split
  · exact h.threadFault hp t 8
  · split
    · exact (h.onThread _ _).setCause 6 (by decide)
    · exact h

theorem Dev.storeSame.makeReady (t : Nat) (f : Thread → Thread) : d.storeSame p (e.makeReady p t f) := by
  unfold Dev.makeReady
  extract_lets e₁
  have h₁ : d.storeSame p e₁ := by
    show d.storeSame p (if _ then _ else _)
    split
    · exact h
    · exact h.onSite fun _ => rfl
  exact h₁.onThread _ _

theorem Dev.storeSame.endWait (hp : p < 34) (t : Nat) (timedOut broken : Bool) : d.storeSame p (e.endWait p t timedOut broken) := by
  unfold Dev.endWait
  split
  · exact h
  · next w _ =>
    extract_lets won e₁ e₂
    have h₁ : d.storeSame p e₁ := by
      show d.storeSame p (if _ then _ else _)
      split
      · exact (h.onSetChan _ _).onThread _ _
      · split
        · split
          · exact (h.onSetChan _ _).onThread _ _
          · exact h
        · exact h
    exact (h₁.makeReady t _).takeEvent hp t

theorem Dev.storeSame.settleThread (hp : p < 34) (t : Nat) : d.storeSame p (e.settleThread p t) := by
  unfold Dev.settleThread
  extract_lets th
  split
  · split
    · exact h.endWait hp t false false
    · exact h
  · exact h

theorem Dev.storeSame.settle (hp : p < 34) : d.storeSame p (e.settle p) :=
  Dev.each_induct (d.storeSame p) _ _ _ h fun t _ h => Dev.storeSame.settleThread h hp t

theorem Dev.storeSame.goTo (hp : p < 34) (t pc : Nat) (w : Microword) : d.storeSame p (e.goTo p t pc w) := by
  unfold Dev.goTo
  split
  · exact h.threadFault hp t 5
  · extract_lets e₁
    have h₁ : d.storeSame p e₁ := h.onThread t _
    split
    · exact h₁.takeEvent hp t
    · exact h₁

theorem Dev.storeSame.issueWord (hp : p < 34) (t : Nat) (w : Microword) : d.storeSame p (e.issueWord p t w).2 := by
  unfold Dev.issueWord
  split
  · exact h
  · extract_lets e₁
    have h₁ : d.storeSame p e₁ := h.onSite fun _ => rfl
    split
    · exact (h₁.wr _ _ (not_correctedKey_at p (by decide))).wr _ _ (not_correctedKey_at p (by decide))
    · exact (h₁.threadFault hp t 4).settle hp

theorem Dev.storeSame.nextOp (hp : p < 34) (t op : Nat) {f : Microword → Thread → Dev → Dev}
    (hf : ∀ w th x, d.storeSame p x → d.storeSame p (f w th x)) : d.storeSame p (e.nextOp p t op f) := by
  unfold Dev.nextOp
  extract_lets w r
  split
  · split
    · exact (hf _ _ _ h).settle hp
    · exact h
  · split
    · exact h
    · have hr : d.storeSame p r.2 := h.issueWord hp t w
      clear_value r
      split
      · exact (hf _ _ _ hr).settle hp
      · exact hr

end

section
variable {p t : Nat} {s : State}

/-- A fetch that meets a single error writes the microword back. -/
theorem Dev.fetchMicroword_corrects {d : Dev} {w : Microword} (hmay : (d.thread p t).mayIssue = true) (hfresh : (d.thread p t).issuedData = false)
    (hnamed : d.named p t = true) (hword : fetchWord (d.word p t) = some (w, true)) :
    d.fetchMicroword p t =
      ((d.onSite p (fun x => x.putWord (d.thread p t).pc w)).bump R.SET_CS_CORRECTED_count p).cause setCauses 2 p := by
  simp only [Dev.fetchMicroword, hmay, hfresh, hnamed, hword, Bool.not_true, Bool.or_self, Bool.false_eq_true, if_false]

theorem exec_seq_corrects {w : Microword} (h : s.dev.phase = .running) (hp : p < 34) (hmay : (s.dev.thread p t).mayIssue = true)
    (hfresh : (s.dev.thread p t).issuedData = false) (hnamed : s.dev.named p t = true) (hword : fetchWord (s.dev.word p t) = some (w, true)) :
    ∃ s', exec (.seq p t) s = .next s' ∧ (s'.dev.siteAt p).store.getD (s.dev.thread p t).pc 0 = w ∧
      s'.dev.rd R.SET_CS_CORRECTED_count p = (s.dev.rd R.SET_CS_CORRECTED_count p + 1) % 2 ^ R.SET_CS_CORRECTED_count.width := by
  let d := s.dev.fetchMicroword p t
  have hfetch : d = _ := Dev.fetchMicroword_corrects hmay hfresh hnamed hword
  have hstore : (d.siteAt p).store.getD (s.dev.thread p t).pc 0 = w := by
    rw [hfetch, (Dev.sitesSame_cause ..).siteAt, Dev.bump, (Dev.sitesSame_wr ..).siteAt, Dev.siteAt_onSite_self, SetSite.store_putWord, if_pos rfl]
  have hcount : d.rd R.SET_CS_CORRECTED_count p = (s.dev.rd R.SET_CS_CORRECTED_count p + 1) % 2 ^ R.SET_CS_CORRECTED_count.width := by
    rw [hfetch, Dev.rd_cause_at _ _ _ _ _ (by decide), Dev.rd_bump_self]
    rfl
  have hkept : d.storeSame p (d.nextOp p t 0 (fun w th d => d.goTo p t (th.pc + 1) w)) :=
    (Dev.storeSame_refl p d).nextOp hp t 0 fun w th _ hx => hx.goTo hp t (th.pc + 1) w
  refine ⟨_, (State.onRun_running _ h : s.onNext p t 0 _ = _), ?_, ?_⟩
  · exact (congrArg (fun m : NMap Microword => m.getD (s.dev.thread p t).pc 0) hkept.1).trans hstore
  · exact (hkept.2.rd rfl).trans hcount

end

/-- Settles O41. -/
theorem debuggerAndControlStore : Obligations.DebuggerAndControlStore :=
  ⟨fun p t s h hp =>
    ⟨exec_dbgStop_ready h, fun _ hstate hwait hyield hkill => exec_dbgStop_yields h hstate hwait hyield hkill,
      fun _ hstate hwait hyield => exec_dbgStop_wait h hstate hwait hyield,
      fun hstate hwait hquiet => ⟨exec_dbgResume h hstate hwait hquiet, exec_dbgStep h hstate hwait hquiet,
        fun _ _ hitem hget hfailed hstage => exec_dbgKill_stopped h hstate hquiet hp hitem hget hfailed hstage⟩,
      fun hstate _ hwait => exec_dbgKill_ready h hstate hwait⟩,
   fun p s h hp =>
    ⟨exec_csRead h, exec_csWrite_refused h, exec_csWrite h, exec_csWrite_bad h,
      fun t w _ hstate hitem hwait hfresh hnamed hword =>
        exec_seq_corrects h hp (by rw [Thread.mayIssue, hstate, hitem, hwait]; rfl) hfresh hnamed hword⟩⟩

end Sys2Proof.Machine
end

section
/-!
Channels of a Set and the answers of assists (R250, R254-R256, R398).
-/

namespace Sys2Proof.Machine

/-! ## Words and messages of a Set's channels (R254-R256) -/

theorem messageWords_words (m : Nat) (l : List Word64) : (messageWords m l).map ChanWord.word = l := by
  rw [messageWords, List.map_map]
  exact List.zipIdx_map_fst 0 l

/-- The last word of a message alone is tagged. -/
theorem messageWords_tags (m : Nat) {l : List Word64} (h : l ≠ []) :
    (messageWords m l).map ChanWord.last = List.replicate (l.length - 1) false ++ [true] := by
  have hpos : 0 < l.length := List.length_pos_iff.2 h
  refine List.ext_getElem ?_ fun n hn hn' => ?_
  · simp only [messageWords, List.length_map, List.length_zipIdx, List.length_append, List.length_replicate, List.length_singleton]
    omega
  · have hlast : ((messageWords m l).map ChanWord.last)[n] = (n + 1 == l.length) := by
      simp only [messageWords, List.getElem_map, List.getElem_zipIdx, Nat.zero_add]
    have hlt : n < l.length := by simpa only [messageWords, List.length_map, List.length_zipIdx] using hn
    rw [hlast, List.getElem_append]
    split
    · next hbefore =>
      rw [List.length_replicate] at hbefore
      rw [List.getElem_replicate, beq_eq_false_iff_ne]
      omega
    · next hbefore =>
      rw [List.length_replicate] at hbefore
      rw [List.getElem_singleton, beq_iff_eq]
      omega

theorem Dev.issued_setChan (d : Dev) (p t c : Nat) : (d.issued p t).setChan p c = d.setChan p c := by
  rw [Dev.setChan, Dev.issued, Dev.onThread, Dev.siteAt_onSite_self]
  exact d.tokenFor_setChan p t c

theorem Dev.setChan_congr {d e : Dev} {p : Nat} (h : (e.siteAt p).channels = (d.siteAt p).channels) (c : Nat) : e.setChan p c = d.setChan p c := by
  rw [Dev.setChan, h, Dev.setChan]

theorem Dev.setChan_onSetChan_self (d : Dev) (p c : Nat) (f : SetChan → SetChan) : (d.onSetChan p c f).setChan p c = f (d.setChan p c) := by
  rw [Dev.setChan, Dev.onSetChan, Dev.siteAt_onSite_self]
  exact NMap.getD_upd_self ..

theorem Dev.setChan_onThread (d : Dev) (p t c : Nat) (f : Thread → Thread) : (d.onThread p t f).setChan p c = d.setChan p c :=
  Dev.setChan_congr (by rw [Dev.onThread, Dev.siteAt_onSite_self]) c

theorem Dev.setChan_stageEmptied (d : Dev) (p c k : Nat) : (d.stageEmptied p c).setChan p k = d.setChan p k := by
  unfold Dev.stageEmptied
  split
  · exact Dev.setChan_congr (by rw [Dev.siteAt_onSite_self]) k
  · rfl

/-- A channel whose staged words were closed into a message. -/
def SetChan.closedWith (l : List Word64) (x : SetChan) : SetChan :=
  { x with open_ := none, delivery := messageWords x.nextMsg l, closed := x.closed ++ [x.nextMsg], nextMsg := x.nextMsg + 1 }

/-- A channel whose sender has let go of it. -/
def SetChan.released (x : SetChan) : SetChan := { x with open_ := none }

/-- A channel whose reader has taken word `w`. -/
def SetChan.without (w : ChanWord) (x : SetChan) : SetChan := { x with fifo := x.fifo.erase w }

section
variable {p t c : Nat} {s : State} (h : s.dev.phase = .running)
include h

/-- A datapath function that makes another of one channel and of its thread, which does not wait. -/
theorem State.onData_chan {cls fn : Nat} (hat : s.dev.atData p t cls fn) {f : Microword → Thread → Dev → Dev} {g : SetChan → SetChan}
    {k : Thread → Thread} (hf : f (s.dev.word p t) (s.dev.thread p t) (s.dev.issued p t) = ((s.dev.issued p t).onSetChan p c g).onThread p t k)
    {th : Thread} (hth : k { s.dev.thread p t with issuedData := true } = th) (hwait : th.wait = none) :
    ∃ s', s.onData p t cls fn f = .next s' ∧ issues p t s s' ∧ s'.dev.thread p t = th ∧ s'.dev.setChan p c = g (s.dev.setChan p c) := by
  have hthread : (((s.dev.issued p t).onSetChan p c g).onThread p t k).thread p t = th := by
    rw [Dev.thread_onThread_self, Dev.thread_congr (d := s.dev.issued p t) (by rw [Dev.onSetChan, Dev.siteAt_onSite_self]), Dev.issued_thread, hth]
  have hquiet : (((s.dev.issued p t).onSetChan p c g).onThread p t k).unwaiting p := by
    refine (hat.1.unwaiting_issued.onSetChan c g).onThread ?_
    rw [← Dev.thread_onThread_self _ p t k, hthread, hwait]
  rw [State.onData_next h hat, hf, Dev.settle_unwaiting hquiet]
  refine ⟨_, rfl, (((Dev.acted_issued p t s.dev).onSite rfl).onThread t k).issues, hthread, ?_⟩
  rw [Dev.setChan_onThread, Dev.setChan_onSetChan_self, Dev.issued_setChan]

theorem exec_channelWrite (hat : s.dev.atData p t 6 0) (hchan : (s.dev.thread p t).sendChan = some c) (hroom : (s.dev.thread p t).stage.length < 8) :
    ∃ s', exec (.channelWrite p t) s = .next s' ∧ issues p t s s' ∧ threadBecomes p t { s.dev.thread p t with
      issuedData := true
      stage := (s.dev.thread p t).stage ++ [opA (s.dev.word p t) (s.dev.thread p t)] } s s' :=
  State.onData_thread h hat (if_neg (by rw [hchan]; simpa using hroom)) rfl hat.1.noWait

theorem exec_channelClose (hat : s.dev.atData p t 6 1) (hchan : (s.dev.thread p t).sendChan = some c) (hstage : (s.dev.thread p t).stage ≠ []) :
    ∃ s', exec (.channelClose p t) s = .next s' ∧ issues p t s s' ∧
      s'.dev.thread p t = { s.dev.thread p t with issuedData := true, sendChan := none, stage := [], delivering := some c } ∧
      (s'.dev.setChan p c).open_ = none ∧ (s'.dev.setChan p c).closed = (s.dev.setChan p c).closed ++ [(s.dev.setChan p c).nextMsg] ∧
      (s'.dev.setChan p c).delivery.map ChanWord.word = (s.dev.thread p t).stage ∧
      (s'.dev.setChan p c).delivery.map ChanWord.last = List.replicate ((s.dev.thread p t).stage.length - 1) false ++ [true] := by
  have hclosed : ∃ s', exec (.channelClose p t) s = .next s' ∧ issues p t s s' ∧
      s'.dev.thread p t = { s.dev.thread p t with issuedData := true, sendChan := none, stage := [], delivering := some c } ∧
      s'.dev.setChan p c = (s.dev.setChan p c).closedWith (s.dev.thread p t).stage :=
    State.onData_chan h hat (by rw [hchan]; exact if_neg (by rwa [List.isEmpty_iff])) rfl hat.1.noWait
  obtain ⟨s', hnext, hissues, hthread, hset⟩ := hclosed
  refine ⟨s', hnext, hissues, hthread, ?_⟩
  rw [hset]
  exact ⟨rfl, rfl, messageWords_words .., messageWords_tags _ hstage⟩

theorem exec_channelDiscard (hat : s.dev.atData p t 6 3) (hchan : (s.dev.thread p t).sendChan = some c) :
    ∃ s', exec (.channelDiscard p t) s = .next s' ∧ issues p t s s' ∧
      s'.dev.thread p t = { s.dev.thread p t with issuedData := true, sendChan := none, stage := [] } ∧ (s'.dev.setChan p c).open_ = none ∧
      (s'.dev.setChan p c).closed = (s.dev.setChan p c).closed := by
  have hdiscarded : ∃ s', exec (.channelDiscard p t) s = .next s' ∧ issues p t s s' ∧
      s'.dev.thread p t = { s.dev.thread p t with issuedData := true, sendChan := none, stage := [] } ∧
      s'.dev.setChan p c = (s.dev.setChan p c).released :=
    State.onData_chan h hat (by rw [hchan]; rfl) rfl hat.1.noWait
  obtain ⟨s', hnext, hissues, hthread, hset⟩ := hdiscarded
  refine ⟨s', hnext, hissues, hthread, ?_⟩
  rw [hset]
  exact ⟨rfl, rfl⟩

theorem exec_channelRead {m : Nat} {x : ChanWord} {l : List ChanWord} (hat : s.dev.atData p t 6 2)
    (hchan : (s.dev.thread p t).readChan = some (c, m)) (hfifo : (s.dev.setChan p c).fifo = x :: l) (hmsg : x.msg = m) :
    ∃ s', exec (.channelRead p t) s = .next s' ∧ issues p t s s' ∧ (s'.dev.setChan p c).fifo = l ∧
      s'.dev.thread p t = { s.dev.thread p t with
        issuedData := true
        regs := (s.dev.thread p t).regs.set (mwDst (s.dev.word p t)) x.word
        zero := x.last
        readChan := if x.last then none else (s.dev.thread p t).readChan } := by
  have hfind : (((s.dev.issued p t).setChan p c).fifo.find? (fun x => x.msg == m)) = some x := by
    rw [Dev.issued_setChan, hfifo, List.find?_cons_of_pos (by rw [hmsg, beq_self_eq_true])]
  have hread : ∃ s', exec (.channelRead p t) s = .next s' ∧ issues p t s s' ∧
      s'.dev.thread p t = { s.dev.thread p t with
        issuedData := true
        regs := (s.dev.thread p t).regs.set (mwDst (s.dev.word p t)) x.word
        zero := x.last
        readChan := if x.last then none else (s.dev.thread p t).readChan } ∧
      s'.dev.setChan p c = (s.dev.setChan p c).without x :=
    State.onData_chan h hat (by rw [hchan]; dsimp only; rw [hfind]; rfl) rfl hat.1.noWait
  obtain ⟨s', hnext, hissues, hthread, hset⟩ := hread
  refine ⟨s', hnext, hissues, ?_, hthread⟩
  rw [hset]
  show (s.dev.setChan p c).fifo.erase x = l
  rw [hfifo, List.erase_cons_head]

theorem exec_channelWordDelivery (hwaiters : s.dev.waiters p = []) : ∃ s', exec (.channelWordDelivery p c) s = .next s' ∧ onlySites s s' ∧
    (s'.dev.setChan p c).fifo = (s.dev.setChan p c).fifo ++ (s.dev.setChan p c).delivery.take (4 - (s.dev.setChan p c).fifo.length) ∧
    (s'.dev.setChan p c).delivery = (s.dev.setChan p c).delivery.drop (4 - (s.dev.setChan p c).fifo.length) := by
  refine ⟨_, (State.onRun_running _ h : execChannelWordDelivery p c s = _), ?_⟩
  unfold Dev.deliver
  rw [Dev.settle_unwaiting (((Dev.waiters_nil.1 hwaiters).onSetChan c _).stageEmptied c)]
  refine ⟨?_, ?_⟩
  · unfold Dev.stageEmptied
    split <;> rfl
  · rw [Dev.setChan_stageEmptied, Dev.setChan_onSetChan_self]
    exact ⟨rfl, rfl⟩

theorem exec_channelWrite_refused {i : Nat} {it : Item} (hp : p < 34) (hat : s.dev.atData p t 6 0)
    (hbad : (s.dev.thread p t).sendChan = none ∨ 8 ≤ (s.dev.thread p t).stage.length) (hitem : (s.dev.thread p t).item = some i)
    (hget : s.dev.item? i = some it) (hfailed : it.failed = none) (hstage : it.stage = .running) :
    ∃ s', exec (.channelWrite p t) s = .next s' ∧ faulted p t i s s' :=
  State.onData_fault h hp hat (if_pos (by rwa [Option.isNone_iff_eq_none])) hitem hget hfailed hstage

/-! ## Answers of assists and the partner-channel send (R250, R398) -/

theorem exec_assistAnswer {a : Assist} {l : List Assist} (hassists : (s.dev.thread p t).assists = a :: l) (hkind : a.kind ≠ 0)
    (hwaiters : s.dev.waiters p = []) : ∃ s', exec (.assistAnswer p t a.kind) s = .next s' ∧ onlySites s s' ∧
    threadBecomes p t { s.dev.thread p t with
      assists := l
      regs := if a.writes then (s.dev.thread p t).regs.set a.dst a.answer else (s.dev.thread p t).regs } s s' := by
  have htake : (if a.kind = 0 then none else takeAssist a.kind (s.dev.thread p t).assists) = some (a, l) := by
    rw [if_neg hkind, hassists, takeAssist, if_pos rfl]
  refine ⟨_, (State.onRun_running _ h : execAssistAnswer p t a.kind s = _), ?_⟩
  rw [htake]
  have hquiet := Dev.waiters_nil.1 hwaiters
  have hth : ∀ th : Thread, ({ (if a.writes then th.setReg a.dst a.answer else th) with assists := l } : Thread) =
      { th with assists := l, regs := if a.writes then th.regs.set a.dst a.answer else th.regs } := by
    intro th
    cases a.writes <;> rfl
  dsimp only
  rw [Dev.settle_unwaiting (hquiet.onThread (by rw [hth]; exact hquiet.thread t)), funext hth]
  exact ⟨rfl, ((s.dev.threadOnly_refl p t).onThread _).becomes (Dev.thread_onThread_self ..)⟩

end

theorem Dev.setChannel_congr {d e : Dev} (h : e.boot = d.boot) (mid k : Nat) : e.setChannel mid k = d.setChannel mid k := by
  simp only [Dev.setChannel, Dev.binding, h]

/-- A channel with message `m` in it. -/
def Dev.channelTakes (c : Nat) (m : Msg) (d : Dev) : Dev :=
  ((d.wr R.MBX_TX_STATUS_seq m.seq 0 (256 * c)).onChan c (fun h => { h with held := some m, latched := false })).setFull c true

/-- What a message to a control core that finds its channel empty leaves. -/
theorem Dev.post_core {d : Dev} {c mid r len : Nat} (hbound : d.binding c = some (mid, r)) (hlow : 1 ≤ r) (hhigh : r ≤ 8)
    (hempty : (d.chan c).held = none) (words : List Nat) :
    d.post c words len =
      (d.channelTakes c ⟨cutWords words len, len, (d.rd R.MBX_TX_STATUS_seq 0 (256 * c) + 1) % 65536, false⟩).raise (302 + (r - 1)) := by
  have hpresent : ∀ e : Dev, e.receiverAbsent r = false := by
    intro e
    have hset : isSetMid r = false := by simp only [isSetMid, Bool.and_eq_false_iff, decide_eq_false_iff_not]; omega
    have hstp : (r == midStp) = false := by simp only [midStp, beq_eq_false_iff_ne]; omega
    rw [Dev.receiverAbsent, hset, hstp]
    rfl
  have hannounce : ∀ e : Dev, e.binding c = some (mid, r) → e.announceArrival c = e.raise (302 + (r - 1)) := by
    intro e he
    have hfn : isFnMid r = false := by simp only [isFnMid, Bool.and_eq_false_iff, decide_eq_false_iff_not]; omega
    have hcore : isCoreMid r = true := by simp only [isCoreMid, Bool.and_eq_true, decide_eq_true_eq]; omega
    have hset : isSetMid r = false := by simp only [isSetMid, Bool.and_eq_false_iff, decide_eq_false_iff_not]; omega
    have hdomain : (e.raise (302 + (r - 1))).domainOfMid r = none := by
      rw [Dev.domainOfMid, hset, if_neg Bool.false_ne_true, if_neg (by rw [midStp]; omega)]
    rw [Dev.announceArrival, he]
    dsimp only
    rw [hfn, if_neg Bool.false_ne_true, hcore, if_pos rfl, hdomain]
  unfold Dev.post
  rw [hbound]
  dsimp only
  have hheld : ((d.wr R.MBX_TX_STATUS_seq ((d.rd R.MBX_TX_STATUS_seq 0 (256 * c) + 1) % 65536) 0 (256 * c)).chan c).held = none := hempty
  rw [hpresent, if_neg Bool.false_ne_true, hheld]
  exact hannounce _ hbound

theorem Dev.post_core_leaves {d : Dev} {c mid r len : Nat} (hbound : d.binding c = some (mid, r)) (hlow : 1 ≤ r) (hhigh : r ≤ 8)
    (hempty : (d.chan c).held = none) (words : List Nat) :
    d.sitesSame (d.post c words len) ∧ (∃ m, ((d.post c words len).chan c).held = some m ∧ m.len = len ∧ m.redelivered = false ∧
      m.seq = (d.rd R.MBX_TX_STATUS_seq 0 (256 * c) + 1) % 65536) ∧ (d.post c words len).rd R.MBX_TX_STATUS_full 0 (256 * c) = 1 := by
  rw [Dev.post_core hbound hlow hhigh hempty]
  obtain ⟨m, hm⟩ : ∃ m : Msg, m = ⟨cutWords words len, len, (d.rd R.MBX_TX_STATUS_seq 0 (256 * c) + 1) % 65536, false⟩ := ⟨_, rfl⟩
  rw [← hm]
  obtain ⟨x, o, hx⟩ := Dev.raise_changes (d.channelTakes c m) (302 + (r - 1)) true
  refine ⟨?_, ⟨m, ?_, by rw [hm], by rw [hm], by rw [hm]⟩, ?_⟩
  · rw [hx]
    exact ⟨rfl, rfl⟩
  · rw [hx]
    exact congrArg Chan.held (Dev.chan_onChan_self (d.wr R.MBX_TX_STATUS_seq m.seq 0 (256 * c)) c _)
  · have hapart : R.MBX_TX_STATUS_full.key 0 (256 * c) ≠ R.MBX_RX_STATUS_full.key 0 (256 * c) := by
      simp only [Field.key, R.MBX_TX_STATUS_full, R.MBX_RX_STATUS_full]
      omega
    rw [Dev.rd_raise, Dev.channelTakes, Dev.setFull, Dev.rd_wr_ne _ _ _ _ _ _ _ _ hapart, Dev.rd_wr_self]
    rfl

theorem Dev.request_eq (p t kind dst : Nat) (answer : Word64) (writes : Bool) (d : Dev) : d.request p t kind dst answer writes =
    d.onThread p t (fun th => { th with assists := th.assists ++ [{ kind := kind, dst := dst, answer := answer, writes := writes }] }) := rfl

/-- Of the registers an issue with an assist request changes those that the Caller's token does. -/
theorem Dev.request_issued_regs (p t kind dst : Nat) (answer : Word64) (writes : Bool) (d : Dev) :
    ((d.issued p t).request p t kind dst answer writes).regs = (d.tokenFor p t).regs := by
  rw [Dev.request_eq, Dev.issued]
  rfl

theorem Dev.unwaiting.request {d : Dev} {p t : Nat} (h : d.unwaiting p) (hwait : (d.thread p t).wait = none) (kind dst : Nat) (answer : Word64)
    (writes : Bool) : (d.request p t kind dst answer writes).unwaiting p := by
  rw [Dev.request_eq]
  exact h.onThread hwait

/-- The words that the partner-channel send assist takes from local SRAM at `a`. -/
def Dev.sramWords (p a : Nat) (d : Dev) : List Nat :=
  (List.range 16).map (fun n => leAt ((List.range 64).map (fun k => (d.siteAt p).byte (a + k))) (4 * n) 4)

section
variable {p t c r : Nat} {s : State}

theorem exec_partnerChannelSend (h : s.dev.phase = .running) (hp : p < 34) (hat : s.dev.atData p t 5 11)
    (hchan : s.dev.setChannel (0x100 + p) (mwExt (s.dev.word p t) % 1024) = some c) (hbound : s.dev.binding c = some (0x100 + p, r))
    (hlow : 1 ≤ r) (hhigh : r ≤ 8) (hc : c < 18432) (hlen : 1 ≤ mwExt (s.dev.word p t) / 1024 % 128) (hcap : mwExt (s.dev.word p t) / 1024 % 128 ≤ 64)
    (hempty : (s.dev.chan c).held = none) :
    ∃ s' m, exec (.partnerChannelSend p t) s = .next s' ∧ (s'.dev.chan c).held = some m ∧ m.len = mwExt (s.dev.word p t) / 1024 % 128 ∧
      m.redelivered = false ∧ m.seq = (s.dev.rd R.MBX_TX_STATUS_seq 0 (256 * c) + 1) % 65536 ∧
      s'.dev.rd R.MBX_TX_STATUS_full 0 (256 * c) = 1 ∧ s'.dev.thread p t = (s.dev.thread p t).asked 11 (mwDst (s.dev.word p t)) 0 false := by
  obtain ⟨d, hd⟩ : ∃ d, (s.dev.issued p t).request p t 11 (mwDst (s.dev.word p t)) 0 false = d := ⟨_, rfl⟩
  have hrest := (s.dev.acted_issued p t).1
  have hboot : d.boot = s.dev.boot := by rw [← hd]; exact (congrArg Dev.boot hrest :)
  have hchans : d.chans = s.dev.chans := by rw [← hd]; exact (congrArg Dev.chans hrest :)
  have hseq : d.rd R.MBX_TX_STATUS_seq 0 (256 * c) = s.dev.rd R.MBX_TX_STATUS_seq 0 (256 * c) := by
    rw [← hd]
    refine (Dev.rd_congr (Dev.request_issued_regs ..) ..).trans ?_
    exact (s.dev.tokenFor_units hp t (u := 144) (by decide)).rd (Field.key_unit _ (by decide)
        (by show 0x10044 + 256 * c < 33554432; omega) (by decide))
  have hthread : d.thread p t = (s.dev.thread p t).asked 11 (mwDst (s.dev.word p t)) 0 false := by
    rw [← hd, Dev.request_eq, Dev.thread_onThread_self, Dev.issued_thread]
    rfl
  have hquiet : d.unwaiting p := by
    rw [← hd]
    exact hat.1.unwaiting_issued.request ((congrArg Thread.wait (s.dev.issued_thread p t)).trans hat.1.noWait) _ _ _ _
  have hchan' : d.setChannel (midSet p) (bits (mwExt (s.dev.word p t)) 0 10) = some c := by
    rw [Dev.setChannel_congr hboot, ← hchan, bits, pow_zero, Nat.div_one]
    rfl
  have hbound' : d.binding c = some (midSet p, r) := by
    rw [← show s.dev.binding c = some (midSet p, r) from hbound]
    simp only [Dev.binding, hboot]
  have hlens : bits (mwExt (s.dev.word p t)) 10 7 = mwExt (s.dev.word p t) / 1024 % 128 := rfl
  have hexec : ∃ words, exec (.partnerChannelSend p t) s =
      .next { s with dev := (d.post c words (mwExt (s.dev.word p t) / 1024 % 128)).settle p } := by
    refine ⟨d.sramWords p ((opA (s.dev.word p t) (s.dev.thread p t)).toNat % 2 ^ 21),
        (State.onData_next h hat _).trans (congrArg (fun e : Dev => Host.Outcome.next { s with dev := e.settle p }) ?_)⟩
    dsimp only
    rw [hd, hchan', hlens]
    dsimp only
    rw [hbound']
    dsimp only
    rw [if_neg (not_not.2 rfl), if_neg (by omega), Dev.sramWords]
  obtain ⟨words, hexec⟩ := hexec
  obtain ⟨hsites, ⟨m, hm, hmlen, hfresh, hmseq⟩, hfull⟩ := Dev.post_core_leaves (len := mwExt (s.dev.word p t) / 1024 % 128) hbound' hlow hhigh
    (by rw [Dev.chan, hchans]; exact hempty) words
  rw [Dev.settle_unwaiting (hquiet.sitesSame hsites)] at hexec
  exact ⟨_, m, hexec, hm, hmlen, hfresh, hmseq.trans (by rw [hseq]), hfull, (hsites.thread p t).trans hthread⟩

end

/-- Settles O40. -/
theorem channelsAndAnswers : Obligations.ChannelsAndAnswers :=
  ⟨fun _ _ _ _ h hp => ⟨exec_channelWrite h, exec_channelClose h, exec_channelDiscard h, fun _ _ _ => exec_channelRead h, exec_channelWordDelivery h,
    fun _ _ => exec_channelWrite_refused h hp⟩,
   fun _ _ _ h hp => ⟨fun _ _ => exec_assistAnswer h,
    fun _ _ hat hchan hbound hlow hhigh hc hlen hcap hempty => exec_partnerChannelSend h hp hat hchan hbound hlow hhigh hc hlen hcap hempty⟩⟩

end Sys2Proof.Machine
end

section
/-!
Assists (R180, R190, R192, R218, R226, R250).
-/

namespace Sys2Proof.Machine

/-! ## What an assist request does to its thread and item (R250 class 5) -/

theorem Dev.assist_item {d : Dev} {th : Thread} {p t i kind : Nat} {it : Item} (hitem : th.item = some i) (hget : d.item? i = some it)
    (act : Nat → Item → Dev → Dev) (answer : Option Word64) (w : Microword) :
    d.assist p t kind act answer w th = act i it (d.request p t kind (mwDst w) (answer.getD 0) answer.isSome) := by
  unfold Dev.assist
  rw [hitem]
  dsimp only
  rw [show (d.request p t kind (mwDst w) (answer.getD 0) answer.isSome).item? i = some it from hget]

theorem Dev.item?_bump (d : Dev) (f : Field) (k i : Nat) : (d.bump f k).item? i = d.item? i := Dev.item?_congr (Dev.wr_items ..) i

theorem Dev.item?_request (p t kind dst i : Nat) (answer : Word64) (writes : Bool) (d : Dev) :
    (d.request p t kind dst answer writes).item? i = d.item? i := rfl

theorem Dev.rd_request (p t kind dst : Nat) (answer : Word64) (writes : Bool) (d : Dev) (f : Field) (k a : Nat) :
    (d.request p t kind dst answer writes).rd f k a = d.rd f k a := rfl

theorem Field.key_low (f : Field) {i a : Nat} (hunit : f.unit < 0x41) (hi : i < 65536) (hoff : f.off + a < 33554432) (hlsb : f.lsb < 32) :
    f.key i a < 0x41 * 2 ^ 46 := by
  simp only [Field.key]
  omega

theorem Dev.parseCfg_congr {d e : Dev} (h : d.regsSame (· < 0x41 * 2 ^ 46) e) : e.parseCfg = d.parseCfg := by
  have hrd : ∀ f : Field, f.unit < 0x41 → f.off < 33554432 → f.lsb < 32 → e.rd f = d.rd f := fun f hunit hoff hlsb =>
    h.rd (f.key_low hunit (by decide) hoff hlsb)
  rw [Dev.parseCfg, hrd _ (by decide) (by decide) (by decide), hrd _ (by decide) (by decide) (by decide),
    hrd _ (by decide) (by decide) (by decide), hrd _ (by decide) (by decide) (by decide)]
  rfl

theorem Dev.hashOf_congr {d e : Dev} (h : d.regsSame (· < 0x41 * 2 ^ 46) e) {dir : Nat} (hdir : dir < 65536) (x : Parse) (f : Frame) :
    e.hashOf dir x f = d.hashOf dir x f := by
  have hkey : ∀ f : Field, f.unit < 0x41 → f.off < 33554432 → f.lsb < 32 → f.key dir 0 < 0x41 * 2 ^ 46 := fun f hunit hoff hlsb =>
    f.key_low hunit hdir hoff hlsb
  rw [Dev.hashOf, h.rd (hkey _ (by decide) (by decide) (by decide)), h.on (hkey _ (by decide) (by decide) (by decide)),
    h.on (hkey _ (by decide) (by decide) (by decide)), h.on (hkey _ (by decide) (by decide) (by decide))]
  rfl

section
variable {p t i : Nat} {it : Item} {s : State} (h : s.dev.phase = .running) (hitem : (s.dev.thread p t).item = some i)
  (hget : s.dev.item? i = some it)
include h hitem hget

/-- The device once thread `t` has asked, on a device that the request's unit made of the one at issue. -/
theorem State.onData_assist {cls fn kind : Nat} (hat : s.dev.atData p t cls fn) {f : Microword → Thread → Dev → Dev} {r e : Dev}
    {act : Nat → Item → Dev → Dev} {answer : Option Word64}
    (hf : f (s.dev.word p t) (s.dev.thread p t) (s.dev.issued p t) = r.assist p t kind act answer (s.dev.word p t) (s.dev.thread p t))
    (hr : (s.dev.issued p t).sitesSame r) (hitems : r.items = s.dev.items)
    (he : act i it (r.request p t kind (mwDst (s.dev.word p t)) (answer.getD 0) answer.isSome) = e)
    (hact : (r.request p t kind (mwDst (s.dev.word p t)) (answer.getD 0) answer.isSome).sitesSame e) :
    s.onData p t cls fn f = .next { s with dev := e } ∧
      threadBecomes p t ((s.dev.thread p t).asked kind (mwDst (s.dev.word p t)) (answer.getD 0) answer.isSome) s { s with dev := e } := by
  have hthread : (r.request p t kind (mwDst (s.dev.word p t)) (answer.getD 0) answer.isSome).thread p t =
      (s.dev.thread p t).asked kind (mwDst (s.dev.word p t)) (answer.getD 0) answer.isSome := by
    rw [Dev.request_eq, Dev.thread_onThread_self, hr.thread, Dev.issued_thread]
    rfl
  have hquiet : (r.request p t kind (mwDst (s.dev.word p t)) (answer.getD 0) answer.isSome).unwaiting p := by
    refine (hat.1.unwaiting_issued.sitesSame hr).onThread ?_
    rw [hr.thread, Dev.issued_thread]
    exact hat.1.noWait
  refine ⟨?_, ((((s.dev.threadOnly_issued p t).sitesSame hr).onThread _).sitesSame hact).becomes ((hact.thread p t).trans hthread)⟩
  rw [State.onData_next h hat, hf, Dev.assist_item hitem ((Dev.item?_congr hitems i).trans hget), he,
    Dev.settle_unwaiting (hquiet.sitesSame hact)]

/-- An assist that reads and writes nothing but the request. -/
theorem State.onData_asks {cls fn kind : Nat} (hat : s.dev.atData p t cls fn) {f : Microword → Thread → Dev → Dev} {n : Nat}
    {act : Nat → Item → Dev → Dev} {answer : Option Word64}
    (hf : f (s.dev.word p t) (s.dev.thread p t) (s.dev.issued p t) =
      ({ s.dev.issued p t with freeCtr := n } : Dev).assist p t kind act answer (s.dev.word p t) (s.dev.thread p t))
    (hact : ∀ d, act i it d = d) :
    ∃ s', s.onData p t cls fn f = .next s' ∧
      threadBecomes p t ((s.dev.thread p t).asked kind (mwDst (s.dev.word p t)) (answer.getD 0) answer.isSome) s s' ∧ issues p t s s' := by
  obtain ⟨hnext, hbecomes⟩ := State.onData_assist h hitem hget hat hf ⟨rfl, rfl⟩ (by rw [(s.dev.acted_issued p t).1]) (hact _) ⟨rfl, rfl⟩
  exact ⟨_, hnext, hbecomes, (((Dev.acted_issued p t s.dev).freed n).onThread t _).issues⟩

theorem exec_parse (hat : s.dev.atData p t 5 1) (htx : it.isTx = true) : ∃ s', exec (.parse p t) s = .next s' ∧
    threadBecomes p t ((s.dev.thread p t).asked 1 (mwDst (s.dev.word p t)) 0 false) s s' ∧
    s'.dev.item? i = some { it with parse := { parse s.dev.parseCfg it.bytes with source := it.source, fromRing := true } } := by
  obtain ⟨hnext, hbecomes⟩ := State.onData_assist h hitem hget hat (kind := 1) (answer := none)
    (act := fun i it d => if it.isTx then d.onItem i (fun it => { it with parse := d.parseItem it }) else d) (f := Dev.assist p t 1 _ none)
    rfl ⟨rfl, rfl⟩ (by rw [(s.dev.acted_issued p t).1]) (if_pos htx) ⟨rfl, rfl⟩
  have hget' := (Dev.item?_request p t 1 (mwDst (s.dev.word p t)) i 0 false (s.dev.issued p t)).trans ((s.dev.issued_item? p t i).trans hget)
  have hcfg : ((s.dev.issued p t).request p t 1 (mwDst (s.dev.word p t)) 0 false).parseCfg = s.dev.parseCfg :=
    Dev.parseCfg_congr ((s.dev.tokenFor_low p t).trans (Dev.regsSame_of_regs (Dev.request_issued_regs ..)))
  refine ⟨_, hnext, hbecomes, (Dev.item?_onItem_self hget' _).trans (congrArg some ?_)⟩
  rw [← hcfg]
  rfl

theorem exec_checksum (off len : Nat) (hat : s.dev.atData p t 5 4) : ∃ s' v, exec (.checksum p t off len) s = .next s' ∧
    threadBecomes p t ((s.dev.thread p t).asked 4 (mwDst (s.dev.word p t)) v true) s s' ∧ issues p t s s' := by
  obtain ⟨s', hasks⟩ := State.onData_asks h hitem hget hat (f := Dev.assistOpen p t 4 (fun _ _ d => d)) rfl fun _ => rfl
  exact ⟨s', _, hasks⟩

theorem exec_dmaAssist (hat : s.dev.atData p t 5 10) : ∃ s', exec (.dmaAssist p t) s = .next s' ∧
    threadBecomes p t ((s.dev.thread p t).asked 10 (mwDst (s.dev.word p t)) 0 false) s s' ∧ issues p t s s' :=
  State.onData_asks h hitem hget hat (n := (s.dev.issued p t).freeCtr) (answer := none) rfl fun _ => rfl

theorem exec_hash (hat : s.dev.atData p t 5 5) : ∃ s', exec (.hash p t) s = .next s' ∧
    threadBecomes p t ((s.dev.thread p t).asked 5 (mwDst (s.dev.word p t))
      (BitVec.ofNat 64 (s.dev.hashOf (if it.kind = 1 then 0 else 1) it.parse it.bytes)) true) s s' ∧
    s'.dev.item? i = some (if it.isTx then
      { it with parse := { it.parse with hash := s.dev.hashOf (if it.kind = 1 then 0 else 1) it.parse it.bytes } } else it) := by
  have hhash : (s.dev.issued p t).hashOf (if it.kind = 1 then 0 else 1) it.parse it.bytes =
      s.dev.hashOf (if it.kind = 1 then 0 else 1) it.parse it.bytes :=
    Dev.hashOf_congr (e := s.dev.issued p t) (s.dev.tokenFor_low p t) (by split <;> decide) _ _
  generalize hv : s.dev.hashOf (if it.kind = 1 then 0 else 1) it.parse it.bytes = v at hhash ⊢
  have hget' : ((s.dev.issued p t).request p t 5 (mwDst (s.dev.word p t)) (BitVec.ofNat 64 v) true).item? i = some it :=
    (s.dev.issued_item? p t i).trans hget
  obtain ⟨hnext, hbecomes⟩ := State.onData_assist h hitem hget hat (kind := 5) (answer := some (BitVec.ofNat 64 v)) (r := s.dev.issued p t)
    (act := fun i it d => if it.isTx then d.onItem i (fun it => { it with parse := { it.parse with hash := v } }) else d)
    (f := fun w th d =>
      let it := d.threadItem th
      let h := d.hashOf (if it.kind = 1 then 0 else 1) it.parse it.bytes
      d.assist p t 5 (fun i it d => if it.isTx then d.onItem i (fun it => { it with parse := { it.parse with hash := h } }) else d)
        (some (BitVec.ofNat 64 h)) w th)
    (by dsimp only; rw [Dev.issued_threadItem hitem hget, hhash]) ⟨rfl, rfl⟩ (by rw [(s.dev.acted_issued p t).1]) rfl
    (by dsimp only; split <;> exact ⟨rfl, rfl⟩)
  refine ⟨_, hnext, hbecomes, ?_⟩
  dsimp only
  split
  · exact Dev.item?_onItem_self hget' _
  · exact hget'

theorem exec_headerRewrite (e : Edit) (hat : s.dev.atData p t 5 6) : ∃ s', exec (.headerRewrite p t e) s = .next s' ∧
    threadBecomes p t ((s.dev.thread p t).asked 6 (mwDst (s.dev.word p t)) 0 false) s s' ∧ s'.dev.item? i = some (s.dev.edited it e) := by
  obtain ⟨hsites, -⟩ := Dev.addEdit_keeps (s.dev.thread p t) e (s.dev.issued p t)
  have hjoined := Dev.item?_addEdit hitem ((s.dev.issued_item? p t i).trans hget) e
  rw [Dev.issued_edited] at hjoined
  have hexec : exec (.headerRewrite p t e) s = _ := State.onData_next h hat
    (fun w th d => (d.addEdit th e).request p t 6 (mwDst w) 0 false)
  have hthread : ((s.dev.issued p t).addEdit (s.dev.thread p t) e).thread p t = { s.dev.thread p t with issuedData := true } :=
    (hsites.thread p t).trans (s.dev.issued_thread p t)
  rw [hexec]
  generalize (s.dev.issued p t).addEdit (s.dev.thread p t) e = d at *
  have hquiet : (d.request p t 6 (mwDst (s.dev.word p t)) 0 false).unwaiting p :=
    (hat.1.unwaiting_issued.sitesSame hsites).onThread (by rw [hthread]; exact hat.1.noWait)
  rw [Dev.settle_unwaiting hquiet]
  refine ⟨_, rfl, (((s.dev.threadOnly_issued p t).sitesSame hsites).onThread _).becomes ?_, hjoined⟩
  rw [Dev.thread_onThread_self, hthread]
  rfl

theorem exec_dropRequest (hkind : it.kind ≠ 1) (hat : s.dev.atData p t 5 8) : ∃ s', exec (.dropRequest p t) s = .next s' ∧
    threadBecomes p t ((s.dev.thread p t).asked 8 (mwDst (s.dev.word p t)) 0 false) s s' ∧ s'.dev.item? i = some { it with status := 7 } ∧
    s'.dev.rd R.PPL_TX_ACTION_DROPS_count 1 = (s.dev.rd R.PPL_TX_ACTION_DROPS_count 1 + 1) % 2 ^ R.PPL_TX_ACTION_DROPS_count.width := by
  have hput : ((s.dev.issued p t).onItem i (fun it => { it with status := 7 })).item? i = some { it with status := 7 } :=
    Dev.item?_onItem_self ((s.dev.issued_item? p t i).trans hget) _
  let d := ((s.dev.issued p t).onItem i (fun it => { it with status := 7 })).bump R.PPL_TX_ACTION_DROPS_count 1
  have hput' : d.item? i = some { it with status := 7 } := (Dev.item?_bump ..).trans hput
  have hsites : (s.dev.issued p t).sitesSame d := ⟨rfl, rfl⟩
  have hcount : (s.dev.issued p t).rd R.PPL_TX_ACTION_DROPS_count 1 = s.dev.rd R.PPL_TX_ACTION_DROPS_count 1 :=
    (s.dev.tokenFor_low p t).rd (Field.key_low _ (by decide) (by decide) (by decide) (by decide))
  have hexec : exec (.dropRequest p t) s = .next { s with dev := (d.request p t 8 (mwDst (s.dev.word p t)) 0 false).settle p } := by
    refine (State.onData_next h hat _).trans (congrArg (fun e : Dev => Host.Outcome.next { s with dev := e.settle p }) ?_)
    rw [hitem, Dev.issued_threadItem hitem hget]
    exact if_neg hkind
  have hthread : d.thread p t = { s.dev.thread p t with issuedData := true } := (hsites.thread p t).trans (s.dev.issued_thread p t)
  have hquiet : (d.request p t 8 (mwDst (s.dev.word p t)) 0 false).unwaiting p :=
    (hat.1.unwaiting_issued.sitesSame hsites).onThread (by rw [hthread]; exact hat.1.noWait)
  rw [Dev.settle_unwaiting hquiet] at hexec
  refine ⟨_, hexec, (((s.dev.threadOnly_issued p t).sitesSame hsites).onThread _).becomes ?_, ?_, ?_⟩
  · rw [Dev.thread_onThread_self, hthread]
    rfl
  · exact (Dev.item?_request ..).trans hput'
  · rw [Dev.rd_request, Dev.rd_bump_self, ← hcount]
    rfl

theorem exec_dropRequest_received (hat : s.dev.atData p t 5 8) (hkind : it.kind = 1) (hp : p < 34) (hfailed : it.failed = none)
    (hstage : it.stage = .running) : ∃ s', exec (.dropRequest p t) s = .next s' ∧ faulted p t i s s' := by
  refine State.onData_fault h hp hat ?_ hitem hget hfailed hstage (code := 7)
  rw [hitem, Dev.issued_threadItem hitem hget]
  exact if_pos hkind

/-! ## Lookups (R218, R232, R234) -/

omit h hitem hget in
theorem Dev.issued_tabKind (d : Dev) (p t table : Nat) : (d.issued p t).tabKind table = d.tabKind table := by
  unfold Dev.tabKind
  split
  · next hlt => exact (d.tokenFor_low p t).rd (Field.key_low _ (by decide) (by decide) (by show 0x100 + 32 * table < 33554432; omega) (by decide))
  · rfl

omit h hitem hget in
theorem Dev.tabSize_congr {d e : Dev} (hlow : d.regsSame (· < 0x41 * 2 ^ 46) e) {table : Nat}
    (htable : table < 16) : e.tabSize table = d.tabSize table := by
  rw [Dev.tabSize, hlow.rd (Field.key_low _ (by decide) (by decide) (by show 0x100 + 32 * table < 33554432; omega) (by decide)), Dev.tabSize]

omit h hitem hget in
theorem word8_leBytes (v : Nat) : word8 (leBytes v 4) 0 = BitVec.ofNat 64 (v % 2 ^ 32) := by
  have hbyte : ∀ k, k < 8 → byteAt (leBytes v 4) k = v % 2 ^ 32 / 256 ^ k % 256 := by
    intro k hk
    by_cases hlow : k < 4
    · rw [byteAt_leBytes hlow]
      interval_cases k <;> omega
    · have hout : byteAt (leBytes v 4) k = 0 := by
        rw [byteAt, List.getD_eq_default _ _ (by rw [leBytes, List.length_map, List.length_range]; omega)]
        rfl
      rw [hout]
      interval_cases k <;> omega
  rw [word8, leAt_of_bytes hbyte, Nat.mod_eq_of_lt (by omega)]

/-- The device once a lookup that found `b` has been asked for. -/
def Dev.lookedUp (p t table figure : Nat) (key b : List Byte) (d : Dev) : Dev :=
  ((d.issued p t).assistLookup table figure key).2.request p t 3 (mwDst (d.word p t)) (word8 b 0) true

theorem exec_lookup (table : Nat) (key b : List Byte) (hat : s.dev.atData p t 5 3)
    (hfound : ((s.dev.issued p t).assistLookup table it.figure key).1 = some b) :
    exec (.lookup p t table key) s = .next { s with dev := s.dev.lookedUp p t table it.figure key b } ∧
      threadBecomes p t ((s.dev.thread p t).asked 3 (mwDst (s.dev.word p t)) (word8 b 0) true) s
        { s with dev := s.dev.lookedUp p t table it.figure key b } ∧
      (s.dev.lookedUp p t table it.figure key b).items = s.dev.items := by
  have hframe := Dev.assistLookup_besides table it.figure key (s.dev.issued p t) (List.Subset.refl _)
  have hitems := (Dev.items_of_besides hframe (by decide)).trans (congrArg Dev.items (s.dev.acted_issued p t).1 :)
  have hsites := Dev.sitesSame_of_besides hframe (by decide) (by decide)
  obtain ⟨hnext, hbecomes⟩ := State.onData_assist h hitem hget hat (kind := 3) (answer := some (word8 b 0))
    (r := ((s.dev.issued p t).assistLookup table it.figure key).2) (act := fun _ _ d => d)
    (f := fun w th d =>
      let r := d.assistLookup table (d.threadItem th).figure key
      match r.1 with
      | some b => r.2.assist p t 3 (fun _ _ d => d) (some (word8 b 0)) w th
      | none => r.2.assistOpen p t 3 (fun _ _ d => d) w th)
    (by dsimp only; rw [Dev.issued_threadItem hitem hget, hfound]) hsites hitems rfl ⟨rfl, rfl⟩
  exact ⟨hnext, hbecomes, hitems⟩

omit h hitem hget in
/-- A lookup of a table without a cache moves nothing. -/
theorem Dev.lookedUp_issues {table figure : Nat} {key b : List Byte}
    (hsame : ((s.dev.issued p t).assistLookup table figure key).2 = s.dev.issued p t) :
    issues p t s { s with dev := s.dev.lookedUp p t table figure key b } := by
  unfold Dev.lookedUp
  rw [hsame]
  exact ((Dev.acted_issued p t s.dev).onThread t _).issues

theorem exec_lookup_none (table : Nat) (key : List Byte) (hat : s.dev.atData p t 5 3)
    (hmissed : ((s.dev.issued p t).assistLookup table it.figure key).1 = none) :
    ∃ s' v, exec (.lookup p t table key) s = .next s' ∧
      threadBecomes p t ((s.dev.thread p t).asked 3 (mwDst (s.dev.word p t)) v true) s s' ∧ s'.dev.items = s.dev.items := by
  have hframe := Dev.assistLookup_besides table it.figure key (s.dev.issued p t) (List.Subset.refl _)
  have hitems := (Dev.items_of_besides hframe (by decide)).trans (congrArg Dev.items (s.dev.acted_issued p t).1 :)
  have hsites := Dev.sitesSame_of_besides hframe (by decide) (by decide)
  obtain ⟨hnext, hbecomes⟩ := State.onData_assist h hitem hget hat (kind := 3)
    (answer := some (BitVec.ofNat 64 ((s.dev.issued p t).assistLookup table it.figure key).2.free.1))
    (r := ((s.dev.issued p t).assistLookup table it.figure key).2.free.2) (act := fun _ _ d => d)
    (f := fun w th d =>
      let r := d.assistLookup table (d.threadItem th).figure key
      match r.1 with
      | some b => r.2.assist p t 3 (fun _ _ d => d) (some (word8 b 0)) w th
      | none => r.2.assistOpen p t 3 (fun _ _ d => d) w th)
    (by dsimp only; rw [Dev.issued_threadItem hitem hget, hmissed, Dev.assistOpen]) hsites hitems rfl ⟨rfl, rfl⟩
  exact ⟨_, _, hnext, hbecomes, hitems⟩

theorem exec_lookup_exact (table : Nat) (key : List Byte) (hat : s.dev.atData p t 5 3) {e : MtbEntry} (htable : table < 16)
    (hkind : s.dev.tabKind table ≠ 2)
    (hfound : ((s.dev.issued p t).lookup table it.figure key).1 = some e) : ∃ s', exec (.lookup p t table key) s = .next s' ∧
      threadBecomes p t ((s.dev.thread p t).asked 3 (mwDst (s.dev.word p t)) (BitVec.ofNat 64 (leAt (padTo 16 e.result) 0 8)) true) s s' ∧
      s'.dev.items = s.dev.items := by
  obtain ⟨hnext, hbecomes, hitems⟩ := exec_lookup h hitem hget table key (padTo 16 e.result) hat (by
    rw [Dev.assistLookup, if_neg (by omega), if_neg (by omega), if_neg (by rwa [Dev.issued_tabKind])]
    dsimp only
    rw [hfound]
    rfl)
  exact ⟨_, hnext, hbecomes, hitems⟩

theorem exec_lookup_direct (table : Nat) (key : List Byte) (hat : s.dev.atData p t 5 3) (htable : table < 16) (hkind : s.dev.tabKind table = 2)
    (hsize : leAt key 0 4 < s.dev.tabSize table) : ∃ s', exec (.lookup p t table key) s = .next s' ∧
      threadBecomes p t ((s.dev.thread p t).asked 3 (mwDst (s.dev.word p t))
        (BitVec.ofNat 64 (leAt (s.dev.directEntry table (leAt key 0 4)) 0 8)) true) s s' ∧ s'.dev.items = s.dev.items := by
  have hsame : (s.dev.issued p t).tabKind table = 2 := by rw [Dev.issued_tabKind, hkind]
  have hlow := s.dev.tokenFor_low p t
  have hentry : (s.dev.issued p t).directEntry table (leAt key 0 4) = s.dev.directEntry table (leAt key 0 4) := by
    have hrd : ∀ f : Field, f.unit < 0x41 → f.off = 0x100 → f.lsb < 32 → (s.dev.issued p t).rd f 0 (32 * table) = s.dev.rd f 0 (32 * table) :=
      fun f hunit hoff hlsb => hlow.rd (f.key_low hunit (by decide) (by omega) hlsb)
    have hwide : (s.dev.issued p t).tabWide table = s.dev.tabWide table := congrArg (fun n => n != 0) (hrd _ (by decide) rfl (by decide))
    rw [Dev.directEntry, Dev.directEntry, Dev.lineBytes, Dev.lineBytes, Dev.issued_tabKind, hwide, (congrArg Dev.mtb (s.dev.acted_issued p t).1 :)]
  obtain ⟨hnext, hbecomes, hitems⟩ := exec_lookup h hitem hget table key (s.dev.directEntry table (leAt key 0 4)) hat (by
    rw [Dev.assistLookup, if_neg (by omega), if_neg (by omega), if_pos hsame, Dev.lookupDirect,
      if_pos ⟨hsame, by rwa [show (s.dev.issued p t).tabSize table = _ from Dev.tabSize_congr hlow htable]⟩, hentry])
  exact ⟨_, hnext, hbecomes, hitems⟩

theorem exec_lookup_prefix (key : List Byte) (hat : s.dev.atData p t 5 3) {v : Nat}
    (hfound : s.dev.longestPrefix (byteAt key 0 % 16) (key.drop 1) = some v) : ∃ s', exec (.lookup p t 16 key) s = .next s' ∧
      threadBecomes p t ((s.dev.thread p t).asked 3 (mwDst (s.dev.word p t)) (BitVec.ofNat 64 (v % 2 ^ 32)) true) s s' ∧ issues p t s s' := by
  have hpre : (s.dev.issued p t).longestPrefix (byteAt key 0 % 16) (key.drop 1) = some v := by
    rw [← hfound, Dev.longestPrefix, Dev.longestPrefix, (congrArg Dev.mtb (s.dev.acted_issued p t).1 :)]
  have hlookup : (s.dev.issued p t).assistLookup 16 it.figure key = (some (leBytes v 4), s.dev.issued p t) := by
    rw [Dev.assistLookup, if_pos rfl, hpre]
    rfl
  obtain ⟨hnext, hbecomes, -⟩ := exec_lookup h hitem hget 16 key (leBytes v 4) hat (by rw [hlookup])
  rw [word8_leBytes] at hbecomes
  exact ⟨_, hnext, hbecomes, Dev.lookedUp_issues (by rw [hlookup])⟩

theorem exec_lookup_ternary (key : List Byte) (hat : s.dev.atData p t 5 3) {b : List Byte} (hfound : s.dev.ternaryHit key = some b) :
    ∃ s', exec (.lookup p t 17 key) s = .next s' ∧
      threadBecomes p t ((s.dev.thread p t).asked 3 (mwDst (s.dev.word p t)) (BitVec.ofNat 64 (leAt b 0 8)) true) s s' ∧ issues p t s s' := by
  have hhit : (s.dev.issued p t).ternaryHit key = some b := by
    rw [← hfound, Dev.ternaryHit, Dev.ternaryHit, (congrArg Dev.mtb (s.dev.acted_issued p t).1 :)]
  have hlookup : (s.dev.issued p t).assistLookup 17 it.figure key = (some b, s.dev.issued p t) := by
    rw [Dev.assistLookup, if_neg (by decide), if_pos rfl, hhit]
  obtain ⟨hnext, hbecomes, -⟩ := exec_lookup h hitem hget 17 key b hat (by rw [hlookup])
  exact ⟨_, hnext, hbecomes, Dev.lookedUp_issues (by rw [hlookup])⟩

end

/-! ## Destinations (R190) -/

theorem Dev.ring?_onRing_fn (d : Dev) (q r : Nat) {f : Ring → Ring} (hf : ∀ g, (f g).fn = g.fn) :
    ((d.onRing q f).ring? r).map Ring.fn = (d.ring? r).map Ring.fn := by
  rw [Dev.ring?, Dev.onRing, NMap.get?_modify]
  split
  · next heq =>
    subst heq
    rw [Option.map_map]
    exact congrArg (fun k => ((d.rings.get? r).map k : Option Nat)) (funext hf)
  · rfl

theorem Dev.releaseHeld_fn (it : Item) (d : Dev) (r : Nat) : ((d.releaseHeld it).ring? r).map Ring.fn = (d.ring? r).map Ring.fn := by
  unfold Dev.releaseHeld
  split
  · exact Dev.ring?_onRing_fn _ _ _ fun _ => rfl
  · rfl

theorem Dev.releaseHeld_items (it : Item) (d : Dev) : (d.releaseHeld it).items = d.items := by
  unfold Dev.releaseHeld
  split <;> rfl

/-- A received frame whose bytes count at another ring. -/
theorem Dev.moveHeld_leaves {d : Dev} {i : Nat} {it : Item} (hget : d.item? i = some it) (dst : Option Nat) :
    (∃ n, (d.moveHeld i dst).item? i = some { it with held := n, heldAt := dst }) ∧
      ∀ r, ((d.moveHeld i dst).ring? r).map Ring.fn = (d.ring? r).map Ring.fn := by
  unfold Dev.moveHeld
  rw [hget]
  dsimp only
  have hreleased := d.releaseHeld_items it
  have hfn := d.releaseHeld_fn it
  generalize d.releaseHeld it = e at *
  have hget' : e.item? i = some it := (Dev.item?_congr hreleased i).trans hget
  cases dst with
  | none => exact ⟨⟨_, Dev.item?_onItem_self hget' _⟩, hfn⟩
  | some q => exact ⟨⟨_, Dev.item?_onItem_self (d := e.onRing q _) hget' _⟩, fun r => Eq.trans (by exact e.ring?_onRing_fn q r fun _ => rfl) (hfn r)⟩

theorem Dev.redirectRx_ring {d : Dev} {i r : Nat} {it : Item} {g : Ring} (hget : d.item? i = some it) (hring : d.ring? r = some g) :
    ∃ x, (d.redirectRx i (.ring r)).item? i = some x ∧ x.dest = some (.ring r) ∧ x.fn = g.fn := by
  obtain ⟨⟨n, hitem⟩, hfn⟩ := Dev.moveHeld_leaves hget (some r)
  have hmoved : ((some r).bind (d.moveHeld i (some r)).ring?).map Ring.fn = some g.fn := by
    rw [Option.bind_some, hfn, hring]
    rfl
  unfold Dev.redirectRx
  rw [hget]
  dsimp only
  rw [hmoved]
  exact ⟨_, Dev.item?_onItem_self hitem _, rfl, rfl⟩

theorem Dev.redirectRx_mac {d : Dev} {i m : Nat} {it : Item} (hget : d.item? i = some it) :
    ∃ x, (d.redirectRx i (.mac m)).item? i = some x ∧ x.dest = some (.mac m) ∧ x.fn = it.fn := by
  obtain ⟨⟨n, hitem⟩, -⟩ := Dev.moveHeld_leaves hget none
  unfold Dev.redirectRx
  rw [hget]
  exact ⟨_, Dev.item?_onItem_self hitem _, rfl, rfl⟩

section
variable {d : Dev} {i r m : Nat} {it : Item} (hget : d.item? i = some it) (hconn : it.conn = none)
include hget hconn

theorem Dev.setDest_tx (htx : it.isTx = true) (dest : Dest) : d.setDest i dest = match dest with
    | .ring r => if d.isRxRing r then d.onItem i (fun it => { it with dest := some dest, kind := 3, switched := true }) else d
    | .mac m => if m < 256 then d.onItem i (fun it => { it with dest := some dest, kind := 0, switched := false }) else d
    | .exception => d := by
  rw [Item.isTx, Bool.or_eq_true, beq_iff_eq, beq_iff_eq] at htx
  unfold Dev.setDest
  rw [hget]
  dsimp only
  rw [if_neg (by rw [hconn]; simp only [Option.isSome_none, Bool.false_eq_true, or_false]; omega), if_neg (by omega)]
  rfl

theorem Dev.setDest_rx (hkind : it.kind = 1) (dest : Dest) : d.setDest i dest = match dest with
    | .ring r => if d.isRxRing r then d.redirectRx i dest else d
    | .mac m => if it.verdict.hairpin && m < 256 then d.redirectRx i dest else d
    | .exception => d.redirectRx i dest := by
  unfold Dev.setDest
  rw [hget]
  dsimp only
  rw [if_neg (by rw [hconn]; simp only [Option.isSome_none, Bool.false_eq_true, or_false]; omega), if_pos hkind]
  rfl

end

section
variable {p t i : Nat} {it : Item} {s : State} (h : s.dev.phase = .running) (hitem : (s.dev.thread p t).item = some i)
  (hget : s.dev.item? i = some it) (hat : s.dev.atData p t 5 7)
include h hitem hget hat

/-- The device as the set-destination assist finds it. -/
theorem exec_setDestination (dest : Dest) {e : Dev}
    (he : ((s.dev.issued p t).request p t 7 (mwDst (s.dev.word p t)) 0 false).setDest i dest = e) :
    exec (.setDestination p t dest) s = .next { s with dev := e } ∧
      threadBecomes p t ((s.dev.thread p t).asked 7 (mwDst (s.dev.word p t)) 0 false) s { s with dev := e } := by
  refine State.onData_assist h hitem hget hat (answer := none) (act := fun i _ d => d.setDest i dest) rfl ⟨rfl, rfl⟩
    (by rw [(s.dev.acted_issued p t).1]) he ?_
  rw [← he]
  exact Dev.sitesSame_of_besides (Dev.setDest_besides _ _ _ (List.Subset.refl _)) (by decide) (by decide)

/-- An effect of the assist on the item. -/
theorem exec_setDestination_item {P : Item → Prop} {dest : Dest}
    (hset : ∀ d : Dev, d.rings = s.dev.rings → d.item? i = some it → ∃ x, (d.setDest i dest).item? i = some x ∧ P x) :
    ∃ s' x, exec (.setDestination p t dest) s = .next s' ∧
      threadBecomes p t ((s.dev.thread p t).asked 7 (mwDst (s.dev.word p t)) 0 false) s s' ∧ s'.dev.item? i = some x ∧ P x := by
  obtain ⟨hnext, hbecomes⟩ := exec_setDestination h hitem hget hat dest rfl
  obtain ⟨x, hx, hp⟩ := hset ((s.dev.issued p t).request p t 7 (mwDst (s.dev.word p t)) 0 false)
    ((congrArg Dev.rings (s.dev.acted_issued p t).1 :)) ((s.dev.issued_item? p t i).trans hget)
  exact ⟨_, x, hnext, hbecomes, hx, hp⟩

theorem exec_setDestination_kept {dest : Dest} (hset : ∀ d : Dev, d.item? i = some it → d.setDest i dest = d) :
    ∃ s', exec (.setDestination p t dest) s = .next s' ∧
      threadBecomes p t ((s.dev.thread p t).asked 7 (mwDst (s.dev.word p t)) 0 false) s s' ∧ issues p t s s' := by
  obtain ⟨hnext, hbecomes⟩ := exec_setDestination h hitem hget hat dest (hset _ ((s.dev.issued_item? p t i).trans hget))
  exact ⟨_, hnext, hbecomes, ((Dev.acted_issued p t s.dev).onThread t _).issues⟩

section
variable (hconn : it.conn = none)
include hconn

theorem exec_setDestination_mac {m : Nat} (htx : it.isTx = true) (hm : m < 256) : ∃ s', exec (.setDestination p t (.mac m)) s = .next s' ∧
    threadBecomes p t ((s.dev.thread p t).asked 7 (mwDst (s.dev.word p t)) 0 false) s s' ∧
    s'.dev.item? i = some { it with dest := some (.mac m), kind := 0, switched := false } := by
  obtain ⟨s', x, hnext, hbecomes, hx, rfl⟩ := exec_setDestination_item h hitem hget hat (dest := .mac m)
    (P := (· = { it with dest := some (.mac m), kind := 0, switched := false })) fun d _ hd => ⟨_, by
      rw [Dev.setDest_tx hd hconn htx]
      dsimp only
      rw [if_pos hm, Dev.item?_onItem_self hd], rfl⟩
  exact ⟨s', hnext, hbecomes, hx⟩

theorem exec_setDestination_ring {r : Nat} (htx : it.isTx = true) (hrx : s.dev.isRxRing r = true) :
    ∃ s', exec (.setDestination p t (.ring r)) s = .next s' ∧
      threadBecomes p t ((s.dev.thread p t).asked 7 (mwDst (s.dev.word p t)) 0 false) s s' ∧
      s'.dev.item? i = some { it with dest := some (.ring r), kind := 3, switched := true } := by
  obtain ⟨s', x, hnext, hbecomes, hx, rfl⟩ := exec_setDestination_item h hitem hget hat (dest := .ring r)
    (P := (· = { it with dest := some (.ring r), kind := 3, switched := true })) fun d hrings hd => ⟨_, by
      rw [Dev.setDest_tx hd hconn htx]
      dsimp only
      rw [if_pos (by rw [Dev.isRxRing, Dev.ring?_congr hrings]; exact hrx), Dev.item?_onItem_self hd], rfl⟩
  exact ⟨s', hnext, hbecomes, hx⟩

theorem exec_setDestination_redirects {r : Nat} {g : Ring} (hkind : it.kind = 1) (hring : s.dev.ring? r = some g) (hg : g.kind = 1) :
    ∃ s' x, exec (.setDestination p t (.ring r)) s = .next s' ∧
      threadBecomes p t ((s.dev.thread p t).asked 7 (mwDst (s.dev.word p t)) 0 false) s s' ∧ s'.dev.item? i = some x ∧
      x.dest = some (.ring r) ∧ x.fn = g.fn :=
  exec_setDestination_item h hitem hget hat (P := fun x => x.dest = some (.ring r) ∧ x.fn = g.fn) fun d hrings hd => by
    have hring' : d.ring? r = some g := (Dev.ring?_congr hrings r).trans hring
    have hrx : d.isRxRing r = true := by rw [Dev.isRxRing, hring', Option.map_some, hg]; rfl
    rw [Dev.setDest_rx hd hconn hkind]
    dsimp only
    rw [if_pos hrx]
    exact Dev.redirectRx_ring hd hring'

theorem exec_setDestination_hairpin {m : Nat} (hkind : it.kind = 1) (hm : m < 256) (hpin : it.verdict.hairpin = true) :
    ∃ s' x, exec (.setDestination p t (.mac m)) s = .next s' ∧
      threadBecomes p t ((s.dev.thread p t).asked 7 (mwDst (s.dev.word p t)) 0 false) s s' ∧ s'.dev.item? i = some x ∧
      x.dest = some (.mac m) ∧ x.fn = it.fn :=
  exec_setDestination_item h hitem hget hat (P := fun x => x.dest = some (.mac m) ∧ x.fn = it.fn) fun d _ hd => by
    rw [Dev.setDest_rx hd hconn hkind]
    dsimp only
    rw [if_pos (by rw [hpin, decide_eq_true hm]; rfl)]
    exact Dev.redirectRx_mac hd

end

end

/-! ## Learn offers (R226) -/

theorem Dev.request_issued_mtb (p t kind dst : Nat) (answer : Word64) (writes : Bool) (d : Dev) :
    ((d.issued p t).request p t kind dst answer writes).mtb = d.mtb := by
  have hissued : (d.issued p t).mtb = d.mtb := (congrArg Dev.mtb (d.acted_issued p t).1 :)
  rw [← hissued, Dev.request_eq]
  rfl

/-- An offer that finds its Figure's queue full is dropped, and counted. -/
theorem Dev.offer_dropped {d : Dev} {f : Nat} (o : LearnOffer) (hfull : 1024 ≤ (d.mtb.offers.getD f []).length) :
    (d.offer f o).mtb.offers = d.mtb.offers ∧
      (d.offer f o).rd R.MTB_LEARN_DROPS_count = (d.rd R.MTB_LEARN_DROPS_count + 1) % 2 ^ R.MTB_LEARN_DROPS_count.width := by
  unfold Dev.offer
  rw [if_neg (Nat.not_lt.2 hfull)]
  refine ⟨?_, ?_⟩
  · have hkeeps : ((d.bump R.MTB_LEARN_DROPS_count).cause mtbCauses 9).mtb = d.mtb :=
      (Dev.mtb_of_besides (Dev.cause_besides _ _ _ _ (List.Subset.refl _)) :).trans (Dev.wr_mtb ..)
    rw [hkeeps]
  · rw [Dev.rd_cause_at _ _ _ _ _ (by decide), Dev.rd_bump_self]

section
variable {p t i : Nat} {it : Item} {s : State} (h : s.dev.phase = .running) (hitem : (s.dev.thread p t).item = some i)
  (hget : s.dev.item? i = some it) (hat : s.dev.atData p t 5 9)
include h hitem hget hat

theorem exec_learnOffer_unasked (o : Offer) (hlearn : it.verdict.learn = false) : ∃ s', exec (.learnOffer p t o) s = .next s' ∧
    threadBecomes p t ((s.dev.thread p t).asked 9 (mwDst (s.dev.word p t)) 0 false) s s' ∧ issues p t s s' :=
  State.onData_asks h hitem hget hat (n := (s.dev.issued p t).freeCtr) (answer := none) rfl fun _ => if_pos (by rw [hlearn]; rfl)

/-- What an item offers to its Figure's learn unit. -/
def Item.offers (it : Item) (o : Offer) : LearnOffer :=
  { vnid := o.vnid, mac := o.mac, source := if it.kind = 1 then it.source else it.fn, fromFunction := it.fromRing }

theorem exec_learnOffer (o : Offer) (hlearn : it.verdict.learn = true) {e : Dev}
    (he : ((s.dev.issued p t).request p t 9 (mwDst (s.dev.word p t)) 0 false).offer it.figure (it.offers o) = e) :
    exec (.learnOffer p t o) s = .next { s with dev := e } ∧
      threadBecomes p t ((s.dev.thread p t).asked 9 (mwDst (s.dev.word p t)) 0 false) s { s with dev := e } := by
  refine State.onData_assist h hitem hget hat (r := s.dev.issued p t) (answer := none) rfl ⟨rfl, rfl⟩ (by rw [(s.dev.acted_issued p t).1]) ?_ ?_
  · rw [← he, Item.offers, Item.fromRing, hlearn, Bool.not_true, if_neg Bool.false_ne_true]
    split
    · next hkind =>
      rw [hkind]
      rfl
    · next hkind =>
      rw [bne_iff_ne.2 hkind]
      rfl
  · rw [← he]
    exact Dev.sitesSame_of_besides (Dev.offer_besides _ _ _ (List.Subset.refl _)) (by decide) (by decide)

theorem exec_learnOffer_joins (o : Offer) (hlearn : it.verdict.learn = true) (hroom : (s.dev.mtb.offers.getD it.figure []).length < 1024) :
    ∃ s', exec (.learnOffer p t o) s = .next s' ∧ threadBecomes p t ((s.dev.thread p t).asked 9 (mwDst (s.dev.word p t)) 0 false) s s' ∧
      s'.dev.mtb.offers.getD it.figure [] = s.dev.mtb.offers.getD it.figure [] ++ [it.offers o] := by
  obtain ⟨hnext, hbecomes⟩ := exec_learnOffer h hitem hget hat o hlearn rfl
  refine ⟨_, hnext, hbecomes, ?_⟩
  have hmtb := s.dev.request_issued_mtb p t 9 (mwDst (s.dev.word p t)) 0 false
  generalize (s.dev.issued p t).request p t 9 (mwDst (s.dev.word p t)) 0 false = d at hmtb ⊢
  rw [← hmtb] at hroom ⊢
  unfold Dev.offer
  rw [if_pos hroom]
  exact NMap.getD_upd_self ..

theorem exec_learnOffer_dropped (o : Offer) (hlearn : it.verdict.learn = true) (hfull : 1024 ≤ (s.dev.mtb.offers.getD it.figure []).length) :
    ∃ s', exec (.learnOffer p t o) s = .next s' ∧ threadBecomes p t ((s.dev.thread p t).asked 9 (mwDst (s.dev.word p t)) 0 false) s s' ∧
      s'.dev.mtb.offers = s.dev.mtb.offers ∧
      s'.dev.rd R.MTB_LEARN_DROPS_count = (s.dev.rd R.MTB_LEARN_DROPS_count + 1) % 2 ^ R.MTB_LEARN_DROPS_count.width := by
  obtain ⟨hnext, hbecomes⟩ := exec_learnOffer h hitem hget hat o hlearn rfl
  refine ⟨_, hnext, hbecomes, ?_⟩
  have hmtb := s.dev.request_issued_mtb p t 9 (mwDst (s.dev.word p t)) 0 false
  have hcount : ((s.dev.issued p t).request p t 9 (mwDst (s.dev.word p t)) 0 false).rd R.MTB_LEARN_DROPS_count = s.dev.rd R.MTB_LEARN_DROPS_count :=
    (Dev.rd_congr (Dev.request_issued_regs ..) ..).trans <| (s.dev.tokenFor_low p t).rd (Field.key_low _ (by decide) (by decide)
        (by decide) (by decide))
  generalize (s.dev.issued p t).request p t 9 (mwDst (s.dev.word p t)) 0 false = d at hmtb hcount ⊢
  rw [← hmtb, ← hcount]
  exact d.offer_dropped (it.offers o) (by rw [hmtb]; exact hfull)

end

/-! ## Payload reads (R159, R164) -/

/-- What an issued microword leaves of who may issue requests. -/
theorem Dev.issued_canIssue (d : Dev) (p t fn : Nat) : (d.issued p t).canIssue fn = d.canIssue fn := by
  have hrest := (d.acted_issued p t).1
  have hfn : (d.issued p t).fn fn = d.fn fn := Dev.fn_congr (congrArg Dev.funcs hrest :) fn
  have hlink : (d.issued p t).linkOf fn = d.linkOf fn := Dev.linkOf_congr (congrArg Dev.boot hrest :) fn
  have hstate : ∀ k, (d.issued p t).rd R.PCX_LINK_STATUS_state k = d.rd R.PCX_LINK_STATUS_state k := by
    intro k
    show (d.tokenFor p t).rd R.PCX_LINK_STATUS_state k = _
    unfold Dev.tokenFor
    split
    · rfl
    · have hapart : R.PCX_LINK_STATUS_state.key k 0 ≠ R.SET_ISSUED_LO_issued.key p 0 ∧
          R.PCX_LINK_STATUS_state.key k 0 ≠ R.SET_ISSUED_HI_issued.key p 0 := by
        simp only [Field.key, R.PCX_LINK_STATUS_state, R.SET_ISSUED_LO_issued, R.SET_ISSUED_HI_issued]
        omega
      rw [Dev.countIssued, Dev.wr64, Dev.rd_wr_ne _ _ _ _ _ _ _ _ hapart.2, Dev.rd_wr_ne _ _ _ _ _ _ _ _ hapart.1]
      rfl
  rw [Dev.canIssue, Dev.hasFn, Dev.linkUp, hfn, hlink, hstate, Dev.canIssue, Dev.hasFn, Dev.linkUp]

theorem Dev.request_canIssue (p t kind dst fn : Nat) (answer : Word64) (writes : Bool) (d : Dev) :
    (d.request p t kind dst answer writes).canIssue fn = d.canIssue fn := rfl

theorem Dev.request_fn (p t kind dst fn : Nat) (answer : Word64) (writes : Bool) (d : Dev) :
    (d.request p t kind dst answer writes).fn fn = d.fn fn := rfl

theorem Dev.issued_fn (d : Dev) (p t fn : Nat) : (d.issued p t).fn fn = d.fn fn := Dev.fn_congr (congrArg Dev.funcs (d.acted_issued p t).1 :) fn

theorem Dev.issued_rings (d : Dev) (p t : Nat) : (d.issued p t).rings = d.rings := (congrArg Dev.rings (d.acted_issued p t).1 :)

theorem Dev.request_ring? (p t kind dst r : Nat) (answer : Word64) (writes : Bool) (d : Dev) :
    (d.request p t kind dst answer writes).ring? r = d.ring? r := rfl

theorem Dev.issued_ring? (d : Dev) (p t r : Nat) : (d.issued p t).ring? r = d.ring? r := Dev.ring?_congr (d.issued_rings p t) r

theorem Dev.ring?_stallRing {d : Dev} {r : Nat} {g : Ring} (hring : d.ring? r = some g) (henabled : g.state = .enabled) :
    ((d.stallRing r).ring? r).map Ring.state = some .stalled := by
  rw [Dev.stallRing, Dev.ring?, Dev.onRing, NMap.get?_modify, if_pos rfl, show (d.killFetches r).rings.get? r = some g from hring]
  dsimp only [Option.map_some]
  rw [if_pos henabled]

/-- The payload of an item whose function may not issue. -/
theorem Dev.issuePayload_stalls {d : Dev} {i : Nat} {it : Item} (hget : d.item? i = some it) (hkind : it.kind ≠ 1) (hnvme : it.nvme = none)
    (hfresh : it.readIssued = false) (hgen : (d.fn it.fn).gen = it.gen) (hissue : d.canIssue it.fn = false) :
    d.sitesSame (d.issuePayload i) ∧ (d.issuePayload i).item? i = some { it with stalled := true } ∧
      ∀ g, d.ring? it.source = some g → g.state = .enabled → ((d.issuePayload i).ring? it.source).map Ring.state = some .stalled := by
  have hstalls : d.issuePayload i = (d.onItem i (fun it => { it with stalled := true })).stallRing it.source := by
    unfold Dev.issuePayload
    rw [hget]
    dsimp only
    rw [if_neg (by rw [hfresh]; simp [hkind]), if_neg (by rw [hgen, bne_self_eq_false]; exact Bool.false_ne_true), hissue, Bool.not_false,
      if_pos rfl, hnvme, Option.isSome_none, if_neg Bool.false_ne_true]
  rw [hstalls]
  exact ⟨⟨rfl, rfl⟩, Dev.item?_onItem_self hget _, fun g hring henabled =>
    Dev.ring?_stallRing (d := d.onItem i (fun it => { it with stalled := true })) hring henabled⟩

/-- Item `i` came from a ring and its payload is read. -/
def Dev.fetching (i : Nat) (d : Dev) : Prop := ∃ x, d.item? i = some x ∧ x.kind ≠ 1 ∧ x.readIssued = true ∧ x.stalled = false

theorem Dev.fetching_congr {d e : Dev} {i : Nat} (h : e.items = d.items) (hd : d.fetching i) : e.fetching i := by
  obtain ⟨x, hx, hrest⟩ := hd
  exact ⟨x, (Dev.item?_congr h i).trans hx, hrest⟩

theorem Dev.fetching.onItem {d : Dev} {i : Nat} (h : d.fetching i) (j : Nat) {f : Item → Item}
    (hf : ∀ x, (f x).kind = x.kind ∧ (f x).readIssued = x.readIssued ∧ (f x).stalled = x.stalled) : (d.onItem j f).fetching i := by
  obtain ⟨x, hx, hkind, hread, hgoes⟩ := h
  by_cases hij : i = j
  · obtain ⟨hk, hr, hs⟩ := hf x
    subst hij
    exact ⟨f x, Dev.item?_onItem_self hx f, by rwa [hk], by rwa [hr], by rwa [hs]⟩
  · refine ⟨x, ?_, hkind, hread, hgoes⟩
    rw [Dev.item?, Dev.onItem, NMap.get?_modify, if_neg hij]
    exact hx

theorem Dev.logFailure_items (x : Failure) (d : Dev) : (d.logFailure x).items = d.items := by
  unfold Dev.logFailure
  split
  · rfl
  · exact (Dev.items_of_besides (Dev.cause_besides _ _ _ _ (List.Subset.refl _)) (by decide)).trans (Dev.wr_items ..)

theorem Dev.countEpilogue_items (fn : Nat) (f : Epilogue → Epilogue) (d : Dev) : (d.countEpilogue fn f).items = d.items := by
  unfold Dev.countEpilogue
  split <;> rfl

theorem Dev.fetching.dropItem {d : Dev} {i j : Nat} (h : d.fetching i) (hij : i ≠ j) : (d.dropItem j).fetching i := by
  obtain ⟨x, hx, hrest⟩ := h
  refine ⟨x, ?_, hrest⟩
  rw [Dev.item?, Dev.dropItem, NMap.get?_erase, if_neg hij]
  exact hx

section
variable {d : Dev} {i : Nat} (h : d.fetching i)
include h

theorem Dev.fetching.failItem (j reason : Nat) : (d.failItem j reason).fetching i := by
  unfold Dev.failItem
  split
  · exact h
  · next it hit =>
    split
    · exact h
    · extract_lets onPort waits src d₁ d₂ d₃ d₄
      have h₁ : d₁.fetching i := by
        refine Dev.fetching.onItem (Dev.fetching_congr ?_ h) j fun _ => ⟨rfl, rfl, rfl⟩
        split
        · exact d.releaseHeld_items it
        · exact (Dev.items_of_besides (Dev.leaveWaiting_besides _ _ _ (List.Subset.refl _)) (by decide) :)
      have h₂ : d₂.fetching i :=
        Dev.fetching_congr ((Dev.items_of_besides (Dev.cause_besides _ _ _ _ (List.Subset.refl _)) (by decide)).trans (Dev.wr_items ..)) h₁
      have h₃ : d₃.fetching i := Dev.fetching_congr (Dev.logFailure_items ..) h₂
      have h₄ : d₄.fetching i := Dev.fetching_congr (Dev.countEpilogue_items ..) h₃
      clear_value d₄
      split
      · next hport =>
        have hij : i ≠ j := by
          rintro rfl
          obtain ⟨x, hx, hkind, -⟩ := h
          obtain rfl : it = x := Option.some.inj (hit.symm.trans hx)
          have hring : it.fromRing = true := bne_iff_ne.2 hkind
          rw [show onPort = (!it.fromRing && !d.destKnown it) from rfl, hring] at hport
          exact absurd hport Bool.false_ne_true
        refine Dev.fetching.dropItem ?_ hij
        exact Dev.fetching_congr ((Dev.items_of_besides (Dev.cause_besides _ _ _ _ (List.Subset.refl _)) (by decide)).trans rfl) h₄
      · exact h₄.onItem j fun _ => ⟨rfl, rfl, rfl⟩

theorem Dev.fetching.threadFault (p t code : Nat) : (d.threadFault p t code).fetching i := by
  unfold Dev.threadFault
  extract_lets th d₁ d₂ d₃ d₄
  have h₁ : d₁.fetching i := Dev.fetching_congr (Dev.items_of_besides (Dev.releaseChannels_besides p t d (List.Subset.refl _)) (by decide)) h
  have h₂ : d₂.fetching i := by
    show Dev.fetching i (match th.item with
      | some j => d₁.failItem j 4
      | none => d₁)
    split
    · exact h₁.failItem _ _
    · exact h₁
  have h₄ : d₄.fetching i := Dev.fetching_congr (Dev.items_of_besides (Dev.pushFault_besides p t code th.pc d₃ (List.Subset.refl _)) (by decide))
    (show d₃.fetching i from h₂)
  exact Dev.fetching_congr ((Dev.items_of_besides (Dev.cause_besides _ _ _ _ (List.Subset.refl _)) (by decide)).trans (Dev.wr_items ..)) h₄

theorem Dev.fetching.takeEvent (p t : Nat) : (d.takeEvent p t).fetching i := by
  unfold Dev.takeEvent
  extract_lets th
  split
  · exact h.threadFault p t 8
  · split
    · exact Dev.fetching_congr (Dev.items_of_besides (Dev.cause_besides _ _ _ _ (List.Subset.refl _)) (by decide))
        (show (d.onThread p t (fun th => { th with state := .stopped })).fetching i from h)
    · exact h

theorem Dev.fetching.endWait (p t : Nat) (timedOut broken : Bool) : (d.endWait p t timedOut broken).fetching i := by
  unfold Dev.endWait
  split
  · exact h
  · next w _ =>
    extract_lets won d₁ d₂
    have h₁ : d₁.fetching i := by
      show Dev.fetching i (if _ then _ else _)
      split
      · exact h
      · split
        · split
          · exact h
          · exact h
        · exact h
    exact Dev.fetching.takeEvent (Dev.fetching_congr (Dev.makeReady_items ..).1 h₁) p t

theorem Dev.fetching.settle (p : Nat) : (d.settle p).fetching i := by
  refine Dev.each_induct (Dev.fetching i) _ _ _ h fun t e he => ?_
  unfold Dev.settleThread
  extract_lets th
  split
  · split
    · exact he.endWait p t false false
    · exact he
  · exact he

theorem Dev.fetching.answerPayload (j : Nat) : (d.answerPayload j).fetching i := by
  unfold Dev.answerPayload
  split
  · exact h
  · split
    · extract_lets p e
      exact Dev.fetching.settle (show e.fetching i from h) p
    · exact h

omit h in
theorem Dev.fetching.readSegments (j fn : Nat) (a : Attr) (l : List (Nat × Nat)) (base : Nat) {e : Dev} (he : e.fetching i) :
    (e.readSegments j fn a l base).fetching i := by
  induction l generalizing base e with
  | nil => exact he
  | cons x l ih =>
    exact ih _ (Dev.fetching_congr (Dev.items_of_besides (Dev.hostRead_besides _ _ _ _ _ _ (List.Subset.refl _)) (by decide))
      (he.onItem j fun _ => ⟨rfl, rfl, rfl⟩))

theorem Dev.fetching.payloadDone (j : Nat) : (d.payloadDone j).fetching i := by
  unfold Dev.payloadDone
  split
  · exact h
  · split
    · exact h
    · extract_lets whole
      have hwhole : ∀ e : Dev, e.fetching i → (whole e).fetching i := fun e he =>
        Dev.fetching.answerPayload (he.onItem j (f := fun it => { it with
          bytes := ((it.pieces.entries.filter (fun p => p.1 < listBase)).map Prod.snd).flatten }) fun _ => ⟨rfl, rfl, rfl⟩) j
      split
      · exact hwhole _ h
      · split
        · exact hwhole _ h
        · split
          · extract_lets e
            exact Dev.fetching_congr (Dev.items_of_besides (Dev.hostRead_besides _ _ _ _ _ _ (List.Subset.refl _)) (by decide))
              (h.onItem j fun _ => ⟨rfl, rfl, rfl⟩)
          · split
            · exact hwhole _ h
            · exact h.readSegments j _ _ _ _
          · exact hwhole _ (h.onItem j fun _ => ⟨rfl, rfl, rfl⟩)

end

/-- The payload of an item whose function may issue. -/
theorem Dev.issuePayload_fetching {d : Dev} {i : Nat} {it : Item} (hget : d.item? i = some it) (hkind : it.kind ≠ 1)
    (hfresh : it.readIssued = false) (hgen : (d.fn it.fn).gen = it.gen) (hissue : d.canIssue it.fn = true) : (d.issuePayload i).fetching i := by
  unfold Dev.issuePayload
  rw [hget]
  dsimp only
  rw [if_neg (by rw [hfresh]; simp [hkind]), if_neg (by rw [hgen, bne_self_eq_false]; exact Bool.false_ne_true), hissue, Bool.not_true,
    if_neg Bool.false_ne_true]
  have hset := Dev.item?_onItem_self hget (fun it => { it with readIssued := true, stalled := false, want := 0, pieces := {}, readBad := false })
  refine Dev.fetching.payloadDone ?_ i
  generalize d.onItem i _ = e at hset ⊢
  have he : e.fetching i := ⟨_, hset, hkind, rfl, rfl⟩
  split
  · exact he.readSegments ..
  · exact he

/-- A thread whose payload reads of item `i` have been answered. -/
def Thread.payloadAnswered (i : Nat) (t : Thread) : Thread :=
  if t.item == some i then { t with assists := t.assists.filter (fun a => a.kind != 0) } else t

theorem Thread.payloadAnswered_wait (i : Nat) (t : Thread) : (t.payloadAnswered i).wait = t.wait := by
  unfold Thread.payloadAnswered
  split <;> rfl

/-- The threads of position `p` that hold item `i` have the answer of their payload reads. -/
theorem Dev.answerPayload_thread {d : Dev} {i : Nat} {it : Item} {p t : Nat} (hget : d.item? i = some it) (hpos : it.position = p) (hp : p < 34)
    (hitem : (d.thread p t).item = some i) (hquiet : d.unwaiting p) :
    ((d.answerPayload i).thread p t).assists = (d.thread p t).assists.filter (fun a => a.kind != 0) ∧ (d.answerPayload i).unwaiting p ∧
      (d.answerPayload i).items = d.items := by
  unfold Dev.answerPayload
  rw [hget]
  dsimp only
  rw [hpos, if_pos hp]
  have hthreads : ((d.onSite p (fun s => { s with threads := s.threads.mapVals (fun _ t =>
      if t.item == some i then { t with assists := t.assists.filter (fun a => a.kind != 0) } else t) })).siteAt p).threads =
      (d.siteAt p).threads.mapVals (fun _ => Thread.payloadAnswered i) := by rw [Dev.siteAt_onSite_self]; rfl
  have hquiet' : (d.onSite p (fun s => { s with threads := s.threads.mapVals (fun _ t =>
      if t.item == some i then { t with assists := t.assists.filter (fun a => a.kind != 0) } else t) })).unwaiting p := by
    intro e he
    rw [hthreads] at he
    obtain ⟨x, hx, rfl⟩ := List.mem_map.1 he
    exact (Thread.payloadAnswered_wait ..).trans (hquiet x hx)
  rw [Dev.settle_unwaiting hquiet']
  refine ⟨?_, hquiet', rfl⟩
  rw [Dev.thread, hthreads, NMap.getD, NMap.get?_mapVals]
  rw [Dev.thread, NMap.getD] at hitem ⊢
  cases hth : (d.siteAt p).threads.get? t with
  | none =>
    rw [hth] at hitem
    exact absurd hitem (by simp)
  | some th =>
    rw [hth] at hitem
    rw [Option.map_some, Option.getD_some, Option.getD_some, Thread.payloadAnswered, show th.item = some i from hitem, beq_self_eq_true, if_pos rfl]

section
variable {p t i : Nat} {it : Item} {s : State} (h : s.dev.phase = .running) (hitem : (s.dev.thread p t).item = some i)
  (hget : s.dev.item? i = some it) (hat : s.dev.atData p t 5 0)
include h hitem hget hat

theorem exec_payloadRead : exec (.payloadRead p t) s =
    .next { s with dev := (((s.dev.issued p t).request p t 0 (mwDst (s.dev.word p t)) 0 false).issuePayload i).settle p } := by
  refine (State.onData_next h hat _).trans (congrArg (fun e : Dev => Host.Outcome.next { s with dev := e.settle p }) ?_)
  exact Dev.assist_item hitem ((s.dev.issued_item? p t i).trans hget) _ _ _

section
variable (hkind : it.kind ≠ 1) (hfresh : it.readIssued = false) (hgen : (s.dev.fn it.fn).gen = it.gen)
include hkind hfresh hgen

theorem exec_payloadRead_stalls (hnvme : it.nvme = none) (hissue : s.dev.canIssue it.fn = false) : ∃ s', exec (.payloadRead p t) s = .next s' ∧
    threadBecomes p t ((s.dev.thread p t).asked 0 (mwDst (s.dev.word p t)) 0 false) s s' ∧ s'.dev.item? i = some { it with stalled := true } ∧
    ∀ g, s.dev.ring? it.source = some g → g.state = .enabled → (s'.dev.ring? it.source).map Ring.state = some .stalled := by
  have hget' : ((s.dev.issued p t).request p t 0 (mwDst (s.dev.word p t)) 0 false).item? i = some it := (s.dev.issued_item? p t i).trans hget
  have hgen' : (((s.dev.issued p t).request p t 0 (mwDst (s.dev.word p t)) 0 false).fn it.fn).gen = it.gen := by
    rw [Dev.request_fn, Dev.issued_fn, hgen]
  have hissue' : ((s.dev.issued p t).request p t 0 (mwDst (s.dev.word p t)) 0 false).canIssue it.fn = false := by
    rw [Dev.request_canIssue, Dev.issued_canIssue, hissue]
  obtain ⟨hsites, hstalled, hring⟩ := Dev.issuePayload_stalls hget' hkind hnvme hfresh hgen' hissue'
  obtain ⟨hnext, hbecomes⟩ := State.onData_assist h hitem hget hat (kind := 0) (answer := none) (act := fun i _ d => d.issuePayload i)
    (f := Dev.assist p t 0 (fun i _ d => d.issuePayload i) none) rfl ⟨rfl, rfl⟩ (by rw [(s.dev.acted_issued p t).1]) rfl hsites
  refine ⟨_, hnext, hbecomes, hstalled, fun g hg => hring g ?_⟩
  rw [Dev.request_ring?, Dev.issued_ring?, hg]

theorem exec_payloadRead_reads (hissue : s.dev.canIssue it.fn = true) : ∃ s' x, exec (.payloadRead p t) s = .next s' ∧ s'.dev.item? i = some x ∧
    x.readIssued = true ∧ x.stalled = false := by
  have hgen' : (((s.dev.issued p t).request p t 0 (mwDst (s.dev.word p t)) 0 false).fn it.fn).gen = it.gen := by
    rw [Dev.request_fn, Dev.issued_fn, hgen]
  obtain ⟨x, hx, -, hread, hgoes⟩ := (Dev.issuePayload_fetching (d := (s.dev.issued p t).request p t 0 (mwDst (s.dev.word p t)) 0 false)
    ((s.dev.issued_item? p t i).trans hget) hkind hfresh hgen' (by rw [Dev.request_canIssue, Dev.issued_canIssue, hissue])).settle p
  exact ⟨_, x, exec_payloadRead h hitem hget hat, hx, hread, hgoes⟩

end

theorem exec_payloadRead_received (hkind : it.kind = 1) (hpos : it.position = p) (hp : p < 34) : ∃ s', exec (.payloadRead p t) s = .next s' ∧
    (s'.dev.thread p t).assists = (s.dev.thread p t).assists.filter (fun a => a.kind != 0) ∧ s'.dev.items = s.dev.items := by
  have hexec := exec_payloadRead h hitem hget hat
  have hthread : ((s.dev.issued p t).request p t 0 (mwDst (s.dev.word p t)) 0 false).thread p t =
      (s.dev.thread p t).asked 0 (mwDst (s.dev.word p t)) 0 false := by
    rw [Dev.request_eq, Dev.thread_onThread_self, Dev.issued_thread]
    rfl
  have hquiet : ((s.dev.issued p t).request p t 0 (mwDst (s.dev.word p t)) 0 false).unwaiting p :=
    hat.1.unwaiting_issued.onThread ((congrArg Thread.wait (s.dev.issued_thread p t)).trans hat.1.noWait)
  have hget' : ((s.dev.issued p t).request p t 0 (mwDst (s.dev.word p t)) 0 false).item? i = some it := (s.dev.issued_item? p t i).trans hget
  have hitems : ((s.dev.issued p t).request p t 0 (mwDst (s.dev.word p t)) 0 false).items = s.dev.items :=
    (congrArg Dev.items (s.dev.acted_issued p t).1 :)
  generalize (s.dev.issued p t).request p t 0 (mwDst (s.dev.word p t)) 0 false = d at *
  obtain ⟨hassists, hquiet', hitems'⟩ := Dev.answerPayload_thread hget' hpos hp (by rw [hthread]; exact hitem) hquiet
  have hanswers : d.issuePayload i = d.answerPayload i := by
    unfold Dev.issuePayload
    rw [hget']
    exact if_pos (.inl hkind)
  rw [hanswers, Dev.settle_unwaiting hquiet'] at hexec
  refine ⟨_, hexec, hassists.trans ?_, hitems'.trans hitems⟩
  rw [hthread, Thread.asked, List.filter_append]
  exact List.append_nil _

end

/-! ## Classification of a transmit item (R180, R192) -/

theorem Dev.onThread_congr {d : Dev} {p t : Nat} {f g : Thread → Thread} (h : f (d.thread p t) = g (d.thread p t)) :
    d.onThread p t f = d.onThread p t g := by
  have hthreads : (d.siteAt p).threads.upd t {} f = (d.siteAt p).threads.upd t {} g := by
    rw [NMap.upd, NMap.upd]
    exact congrArg (fun x => (d.siteAt p).threads.set t x) h
  have hsite : ({ d.siteAt p with threads := (d.siteAt p).threads.upd t {} f } : SetSite) =
      { d.siteAt p with threads := (d.siteAt p).threads.upd t {} g } := by rw [hthreads]
  exact congrArg (fun x => ({ d with sites := d.sites.set (d.setAt p).site x } : Dev)) hsite

/-- The device once a transmit item's classification has been asked for. -/
theorem Dev.request_issued (d : Dev) (p t kind dst : Nat) (answer : Word64) (writes : Bool) :
    (d.issued p t).request p t kind dst answer writes = (d.issued p t).onThread p t (fun th => th.asked kind dst answer writes) := by
  rw [Dev.request_eq]
  refine Dev.onThread_congr ?_
  rw [Dev.issued_thread]
  rfl

theorem Dev.lookup_rd (table figure : Nat) (key : List Byte) (d : Dev) {f : Field} {k a : Nat}
    (hapart : f.key k a ≠ R.MTB_CACHE_MISSES_count.key 0 0) : (d.lookup table figure key).2.rd f k a = d.rd f k a := by
  have hfill : ∀ (b : Bool) (e : Dev), e.regs = d.regs → (e.countFill b).rd f k a = d.rd f k a := by
    intro b e he
    unfold Dev.countFill
    split
    · rw [Dev.bump, Dev.rd_wr_ne _ _ _ _ _ _ _ _ hapart, Dev.rd_congr he]
    · rw [Dev.rd_congr he]
  have hscope : ∀ (scope : Nat) (e : Dev), (e.lookupScope table scope key).2.regs = e.regs := fun scope e =>
    Dev.regs_of_besides (Dev.lookupScope_besides table scope key e (List.Subset.refl _)) (by decide)
  unfold Dev.lookup
  dsimp only
  split
  · exact hfill _ _ (hscope ..)
  · exact hfill _ _ ((hscope ..).trans (hscope ..))

theorem Dev.sourceOk_rd (it : Item) (vid : Nat) (d : Dev) {f : Field} {k a : Nat} (hapart : f.key k a ≠ R.MTB_CACHE_MISSES_count.key 0 0) :
    (d.sourceOk it vid).2.rd f k a = d.rd f k a := by
  unfold Dev.sourceOk
  split
  · rfl
  · dsimp only
    split <;> exact Dev.lookup_rd _ _ _ _ hapart

theorem Dev.sourceOk_items (it : Item) (vid : Nat) (d : Dev) : (d.sourceOk it vid).2.items = d.items :=
  Dev.items_of_besides (Dev.sourceOk_besides it vid d (List.Subset.refl _)) (by decide)

/-- The parse record of a transmit item after stages 1 and 3. -/
def Dev.txParse (it : Item) (d : Dev) : Parse :=
  let vid := d.txVid { it with parse := d.parseItem it }
  { d.parseItem it with vnid := vid, hash := d.hashOf 1 { d.parseItem it with vnid := vid } it.bytes }

section
variable {d : Dev} {i : Nat} {it : Item} (hget : d.item? i = some it)
include hget

/-- A frame that fails its function's source check. -/
theorem Dev.classifyTx_spoofed (hbad : (d.sourceOk it (d.txVid { it with parse := d.parseItem it })).1 = false) :
    (d.classifyTx i it).item? i = some { it with parse := d.txParse it, status := 7 } ∧
      (d.classifyTx i it).rd R.PPL_SPOOF_DROPS_count 1 = (d.rd R.PPL_SPOOF_DROPS_count 1 + 1) % 2 ^ R.PPL_SPOOF_DROPS_count.width := by
  have heq : d.classifyTx i it = ((d.sourceOk it (d.txVid { it with parse := d.parseItem it })).2.onItem i (fun it' => { it' with
      parse := d.txParse it, status := 7 })).bump R.PPL_SPOOF_DROPS_count 1 := by
    unfold Dev.classifyTx
    dsimp only
    rw [hbad, Bool.not_false, if_pos rfl]
    rfl
  have hitems := Dev.sourceOk_items it (d.txVid { it with parse := d.parseItem it }) d
  have hcount := Dev.sourceOk_rd it (d.txVid { it with parse := d.parseItem it }) d (f := R.PPL_SPOOF_DROPS_count) (k := 1) (a := 0) (by decide)
  rw [heq]
  generalize (d.sourceOk it (d.txVid { it with parse := d.parseItem it })).2 = e at hitems hcount
  refine ⟨(Dev.item?_bump ..).trans (Dev.item?_onItem_self ((Dev.item?_congr hitems i).trans hget) _), ?_⟩
  rw [Dev.rd_bump_self, ← hcount]
  rfl

omit hget in
theorem Dev.item?_bumpIf (b : Bool) (e : Dev) (f : Field) (k j : Nat) : (if b then e.bump f k else e).item? j = e.item? j := by
  split
  · exact Dev.item?_bump ..
  · rfl

/-- What the verdict of stages 4 to 6 makes of a transmit item. -/
def Dev.classifiedItem (it : Item) (r : (Parse × Verdict) × Dev) : Item :=
  let v := { r.1.2 with entry := it.verdict.entry, toException := false }
  let ring := v.ring.filter (fun n => r.2.isRxRing n)
  { it with
    parse := r.1.1
    verdict := { v with ring := ring }
    actionIndex := if it.actionKind = 0 then v.action else it.actionIndex
    kind := if ring.isSome && !v.drop then 3 else it.kind
    switched := ring.isSome && !v.drop
    status := if v.drop then 7 else it.status }

theorem Dev.classifyTx_passed (hok : (d.sourceOk it (d.txVid { it with parse := d.parseItem it })).1 = true) :
    (d.classifyTx i it).item? i = some (Dev.classifiedItem it
      ((d.sourceOk it (d.txVid { it with parse := d.parseItem it })).2.chooseAction it.figure 0 (d.txParse it) it.bytes)) := by
  have hitems := Dev.sourceOk_items it (d.txVid { it with parse := d.parseItem it }) d
  unfold Dev.classifyTx
  dsimp only
  rw [hok, Bool.not_true, if_neg Bool.false_ne_true]
  rw [show ({ d.parseItem it with vnid := _, hash := _ } : Parse) = d.txParse it from rfl]
  generalize (d.sourceOk it (d.txVid { it with parse := d.parseItem it })).2 = e at hitems ⊢
  have hchosen : (e.chooseAction it.figure 0 (d.txParse it) it.bytes).2.items = e.items :=
    Dev.items_of_besides (Dev.chooseAction_besides _ _ _ _ _ (List.Subset.refl _)) (by decide)
  generalize e.chooseAction it.figure 0 (d.txParse it) it.bytes = r at hchosen ⊢
  have hset := Dev.item?_onItem_self ((Dev.item?_congr (hchosen.trans hitems) i).trans hget)
  rw [Dev.item?_bumpIf]
  exact hset _

end

/-- What a microword's request leaves of what the parse of a transmit item reads. -/
theorem Dev.asked_parse {d e : Dev} (hlow : d.regsSame (· < 0x41 * 2 ^ 46) e) (hrings : e.rings = d.rings) (it : Item) :
    e.parseItem it = d.parseItem it ∧ (∀ x, e.txVid x = d.txVid x) ∧ e.txParse it = d.txParse it := by
  have hparse : e.parseItem it = d.parseItem it := by rw [Dev.parseItem, Dev.parseCfg_congr hlow, Dev.parseItem]
  have hvid : ∀ x, e.txVid x = d.txVid x := fun x => by rw [Dev.txVid, Dev.ring?_congr hrings, Dev.txVid]
  refine ⟨hparse, hvid, ?_⟩
  rw [Dev.txParse, Dev.txParse, hparse, hvid, Dev.hashOf_congr hlow (by decide)]

section
variable {p t i : Nat} {it : Item} {s : State} (h : s.dev.phase = .running) (hitem : (s.dev.thread p t).item = some i)
  (hget : s.dev.item? i = some it) (hkind : it.kind = 0) (hat : s.dev.atData p t 5 2)

/-- The device as the classify assist finds it. -/
def Dev.classifying (p t : Nat) (d : Dev) : Dev := (d.issued p t).onThread p t (fun th => th.asked 2 (mwDst (d.word p t)) 0 false)

theorem Dev.classifying_keeps (d : Dev) (p t : Nat) : d.regsSame (· < 0x41 * 2 ^ 46) (d.classifying p t) ∧
    (d.classifying p t).rings = d.rings ∧ (d.classifying p t).items = d.items ∧ (d.classifying p t).funcs = d.funcs :=
  have hrest := (d.acted_issued p t).1
  ⟨d.tokenFor_low p t, (congrArg Dev.rings hrest :), (congrArg Dev.items hrest :), (congrArg Dev.funcs hrest :)⟩

include h hitem hget hkind hat

theorem exec_classify : exec (.classify p t) s = .next { s with dev := (s.dev.classifying p t).classifyTx i it } := by
  obtain ⟨hlow, hrings, hitems, -⟩ := s.dev.classifying_keeps p t
  have hact : (if it.isTx then ((s.dev.issued p t).request p t 2 (mwDst (s.dev.word p t)) 0 false).classifyTx i it
      else (s.dev.issued p t).request p t 2 (mwDst (s.dev.word p t)) 0 false) = (s.dev.classifying p t).classifyTx i it := by
    rw [if_pos (by rw [Item.isTx, hkind]; rfl), Dev.request_issued, Dev.classifying]
  obtain ⟨hnext, -⟩ := State.onData_assist h hitem hget hat (kind := 2) (answer := none) (r := s.dev.issued p t)
    (act := fun i it d => if it.isTx then d.classifyTx i it else d)
    (f := Dev.assist p t 2 (fun i it d => if it.isTx then d.classifyTx i it else d) none) rfl ⟨rfl, rfl⟩
    (by rw [(s.dev.acted_issued p t).1]) hact (by
      show ((s.dev.issued p t).request p t 2 (mwDst (s.dev.word p t)) 0 false).sitesSame _
      rw [Dev.request_issued]
      exact Dev.sitesSame_of_besides (Dev.classifyTx_besides i it (s.dev.classifying p t) (List.Subset.refl _)) (by decide) (by decide))
  exact hnext

theorem exec_classify_spoofed (hbad : ((s.dev.classifying p t).sourceOk it (s.dev.txVid { it with parse := s.dev.parseItem it })).1 = false) :
    ∃ s' z, exec (.classify p t) s = .next s' ∧ s'.dev.item? i = some z ∧ z.status = 7 ∧ z.parse = s.dev.txParse it ∧ z.kind = 0 ∧
      s'.dev.rd R.PPL_SPOOF_DROPS_count 1 = (s.dev.rd R.PPL_SPOOF_DROPS_count 1 + 1) % 2 ^ R.PPL_SPOOF_DROPS_count.width := by
  have hexec := exec_classify h hitem hget hkind hat
  obtain ⟨hlow, hrings, hitems, -⟩ := s.dev.classifying_keeps p t
  have hcount := hlow.rd (g := R.PPL_SPOOF_DROPS_count) (j := 1) (a := 0) (Field.key_low _ (by decide) (by decide) (by decide) (by decide))
  generalize s.dev.classifying p t = d at *
  obtain ⟨hparse, hvid, htx⟩ := Dev.asked_parse hlow hrings it
  obtain ⟨hz, hspoof⟩ := Dev.classifyTx_spoofed ((Dev.item?_congr hitems i).trans hget) (by rw [hvid, hparse]; exact hbad)
  rw [htx] at hz
  rw [hcount] at hspoof
  exact ⟨_, _, hexec, hz, rfl, rfl, hkind, hspoof⟩

theorem exec_classify_passed (hok : ((s.dev.classifying p t).sourceOk it (s.dev.txVid { it with parse := s.dev.parseItem it })).1 = true) :
    ∃ s' z, exec (.classify p t) s = .next s' ∧ s'.dev.item? i = some z ∧
      let r := (((s.dev.classifying p t).sourceOk it (s.dev.txVid { it with parse := s.dev.parseItem it })).2.chooseAction it.figure 0
        (s.dev.txParse it) it.bytes).1
      z.parse = r.1 ∧ z.verdict.action = r.2.action ∧ z.verdict.mark = r.2.mark ∧ (r.2.drop = true → z.status = 7 ∧ z.kind = 0) ∧
        (r.2.drop = false → r.2.ring = none → z.kind = 0 ∧ z.status = it.status) ∧
        (∀ n, r.2.drop = false → r.2.ring = some n → s.dev.isRxRing n = true → z.kind = 3 ∧ z.switched = true ∧ z.verdict.ring = some n) := by
  have hexec := exec_classify h hitem hget hkind hat
  obtain ⟨hlow, hrings, hitems, -⟩ := s.dev.classifying_keeps p t
  generalize s.dev.classifying p t = d at *
  obtain ⟨hparse, hvid, htx⟩ := Dev.asked_parse hlow hrings it
  have hz := Dev.classifyTx_passed ((Dev.item?_congr hitems i).trans hget) (by rw [hvid, hparse]; exact hok)
  rw [htx, hvid, hparse] at hz
  have hsame : ((d.sourceOk it (s.dev.txVid { it with parse := s.dev.parseItem it })).2.chooseAction it.figure 0
      (s.dev.txParse it) it.bytes).2.rings =
      s.dev.rings :=
    (Dev.rings_of_besides (Dev.chooseAction_besides _ _ _ _ _ (List.Subset.refl _)) (by decide)).trans
      ((Dev.rings_of_besides (Dev.sourceOk_besides _ _ _ (List.Subset.refl _)) (by decide)).trans hrings)
  generalize (d.sourceOk it (s.dev.txVid { it with parse := s.dev.parseItem it })).2.chooseAction it.figure 0 (s.dev.txParse it) it.bytes = r at *
  refine ⟨_, _, hexec, hz, rfl, rfl, rfl, fun hdrop => ⟨if_pos hdrop, ?_⟩, fun hdrop hring => ⟨?_, if_neg (by rw [hdrop]; exact Bool.false_ne_true)⟩,
    fun n hdrop hring hrx => ?_⟩
  · refine (if_neg ?_).trans hkind
    rw [hdrop, Bool.not_true, Bool.and_false]
    exact Bool.false_ne_true
  · refine (if_neg ?_).trans hkind
    rw [hring]
    exact Bool.false_ne_true
  · have hrx' : r.2.isRxRing n = true := by rw [Dev.isRxRing, Dev.ring?_congr hsame]; exact hrx
    have hfilter : r.1.2.ring.filter (fun n => r.2.isRxRing n) = some n := by rw [hring, Option.filter_some, if_pos hrx']
    have hswitched : ((r.1.2.ring.filter (fun n => r.2.isRxRing n)).isSome && !r.1.2.drop) = true := by
      rw [hfilter, hdrop]
      rfl
    exact ⟨if_pos hswitched, hswitched, hfilter⟩

end

/-- Settles O39. -/
theorem assists : Obligations.Assists := by
  refine ⟨fun p t i it s h hitem hget => ⟨?_, ?_, ?_, ?_, ?_, ?_, ?_, ?_, ?_, ?_, ?_, ?_, ?_⟩, fun p t i it s h hitem hget hkind hat => ?_⟩
  · exact fun hat hkind hnvme hfresh hgen => ⟨exec_payloadRead_stalls h hitem hget hat hkind hfresh hgen hnvme,
      exec_payloadRead_reads h hitem hget hat hkind hfresh hgen⟩
  · exact exec_payloadRead_received h hitem hget
  · exact exec_parse h hitem hget
  · exact fun table key hat => ⟨fun e htable hkind => exec_lookup_exact h hitem hget table key hat htable hkind,
      exec_lookup_direct h hitem hget table key hat, fun v htable => htable ▸ exec_lookup_prefix h hitem hget key hat,
      fun b htable => htable ▸ exec_lookup_ternary h hitem hget key hat, exec_lookup_none h hitem hget table key hat⟩
  · exact fun off len => exec_checksum h hitem hget off len
  · exact exec_hash h hitem hget
  · exact exec_headerRewrite h hitem hget
  · refine fun hat hconn => ⟨fun m htx hm => ?_, fun r htx hrx => ?_, fun r g hkind hring hg => ?_, fun m hkind hm hpin => ?_, fun m hkind hpin => ?_⟩
    · exact exec_setDestination_mac h hitem hget hat hconn htx hm
    · exact exec_setDestination_ring h hitem hget hat hconn htx hrx
    · exact exec_setDestination_redirects h hitem hget hat hconn hkind hring hg
    · exact exec_setDestination_hairpin h hitem hget hat hconn hkind hm hpin
    · exact exec_setDestination_kept h hitem hget hat fun d hd => by
        rw [Dev.setDest_rx hd hconn hkind, hpin]
        rfl
  · exact fun hat hkind => exec_dropRequest h hitem hget hkind hat
  · exact exec_dropRequest_received h hitem hget
  · exact fun o hat => exec_learnOffer_unasked h hitem hget hat o
  · exact fun o hat hlearn => ⟨exec_learnOffer_joins h hitem hget hat o hlearn, exec_learnOffer_dropped h hitem hget hat o hlearn⟩
  · exact exec_dmaAssist h hitem hget
  · refine ⟨exec_classify_spoofed h hitem hget hkind hat, fun hpf hcheck => ?_, exec_classify_passed h hitem hget hkind hat⟩
    obtain ⟨-, -, -, hfuncs⟩ := s.dev.classifying_keeps p t
    have hcheck' : ((s.dev.classifying p t).fn it.fn).sourceCheck = false := by rw [Dev.fn_congr hfuncs, hcheck]
    exact congrArg Prod.fst (if_pos ⟨hpf, hcheck'⟩ : (s.dev.classifying p t).sourceOk it _ = _)

end Sys2Proof.Machine
end

section
/-!
The event matrix (R411-R415, R493).
-/

namespace Sys2Proof.Machine

/-! ## Routes and the sending of levels (R411-R414) -/

section
variable {pf src : Nat} {d : Dev}

theorem Dev.sendLevel_regs (pf src : Nat) (d : Dev) : (d.sendLevel pf src).regs = d.regs := by
  unfold Dev.sendLevel
  split <;> rfl

theorem Dev.routeOn_congr {d e : Dev} (h : e.regs = d.regs) (pf src : Nat) : e.routeOn pf src = d.routeOn pf src := by
  rw [Dev.routeOn, Dev.on, Dev.rd_congr h]
  rfl

theorem Dev.routeLevel_congr {d e : Dev} (h : e.regs = d.regs) (pf src : Nat) : e.routeLevel pf src = d.routeLevel pf src := by
  rw [Dev.routeLevel, Dev.on, Dev.rd_congr h]
  rfl

theorem Dev.levelActive_congr {d e : Dev} (h : e.regs = d.regs) (src : Nat) : e.levelActive src = d.levelActive src := by
  have hactive : ∀ c i b, e.causeActive c i b = d.causeActive c i b := fun c i b => by
    rw [Dev.causeActive, Dev.on, Dev.rd_congr h, Dev.rd_congr h]
    rfl
  unfold Dev.levelActive
  simp only [hactive]

/-- A route that sends its level becomes pending; nothing else of any route differs. -/
theorem Dev.sendLevel_route (pf src q n : Nat) (d : Dev) :
    (d.sendLevel pf src).route q n = { d.route q n with pending := ((d.sendLevel pf src).route q n).pending } ∧
      ((d.route q n).pending = true → ((d.sendLevel pf src).route q n).pending = true) := by
  unfold Dev.sendLevel
  split
  · by_cases hkey : routeKey q n = routeKey pf src
    · have hroute : (d.onRoute pf src (fun r => { r with pending := true })).route q n = { d.route q n with pending := true } := by
        rw [Dev.route, hkey]
        exact (d.route_onRoute_self pf src _).trans (by rw [Dev.route, Dev.route, hkey])
      rw [hroute]
      exact ⟨rfl, fun _ => rfl⟩
    · rw [d.route_onRoute_ne _ hkey]
      exact ⟨rfl, id⟩
  · exact ⟨rfl, id⟩

theorem Dev.sendLevel_pends (hroute : d.routeIs pf src true) (hactive : d.levelActive src = true) (hout : (d.route pf src).inService = false) :
    ((d.sendLevel pf src).route pf src).pending = true := by
  obtain ⟨-, hon, hlevel⟩ := hroute
  rw [Dev.sendLevel, hon, hlevel, hactive, hout]
  exact congrArg Route.pending (d.route_onRoute_self pf src _)

theorem Dev.sendLevel_off (hoff : d.routeOn pf src = false) : d.sendLevel pf src = d := by
  rw [Dev.sendLevel, hoff]
  exact if_neg Bool.false_ne_true

end

/-! ## Messages of routes (R412-R414) -/

/-- A posted write or message of function `fn`. -/
def Posted.isOf (fn : Nat) : Posted → Bool
  | .write f _ _ _ => f == fn
  | .message f _ => f == fn

theorem Dev.sendMessage_eq (d : Dev) (fn v : Nat) : d.sendMessage fn v = if (d.link (d.linkOf fn)).posted.any (Posted.isOf fn)
    then d.onLink (d.linkOf fn) (fun l => { l with posted := l.posted ++ [.message fn v] })
    else d.emit (.msix fn v (if (d.fn fn).tphEnable then some (d.vec fn v).steering else none)) := by
  unfold Dev.sendMessage
  refine if_congr (iff_of_eq (congrArg (· = true) (congrArg (List.any _) (funext fun p => ?_)))) rfl rfl
  cases p <;> rfl

theorem Dev.postsWait_iff (d : Dev) (fn : Nat) : d.postsWait fn ↔ (d.link (d.linkOf fn)).posted.any (Posted.isOf fn) = true := by
  rw [List.any_eq_true, Dev.postsWait]
  refine exists_congr fun p => and_congr_right fun _ => ?_
  cases p with
  | write f addr data a =>
    constructor
    · rintro (⟨_, _, _, h⟩ | ⟨_, h⟩)
      · exact beq_iff_eq.2 (Posted.write.inj h).1
      · exact absurd h (by simp)
    · intro h
      obtain rfl := beq_iff_eq.1 h
      exact .inl ⟨addr, data, a, rfl⟩
  | message f v =>
    constructor
    · rintro (⟨_, _, _, h⟩ | ⟨_, h⟩)
      · exact absurd h (by simp)
      · exact beq_iff_eq.2 (Posted.message.inj h).1
    · intro h
      obtain rfl := beq_iff_eq.1 h
      exact .inr ⟨v, rfl⟩

theorem Dev.messageOf_sendMessage (s : State) (fn v : Nat) {d : Dev} (hlinks : d.links = s.dev.links) (hfuncs : d.funcs = s.dev.funcs)
    (hboot : d.boot = s.dev.boot) (hout : d.out = s.dev.out) : messageOf fn v s { s with dev := d.sendMessage fn v } := by
  have hlinkOf : d.linkOf fn = s.dev.linkOf fn := Dev.linkOf_congr hboot fn
  have hlink : ∀ n, d.link n = s.dev.link n := fun n => by rw [Dev.link, hlinks, Dev.link]
  have hfn : d.fn fn = s.dev.fn fn := Dev.fn_congr hfuncs fn
  have hvec : d.vec fn v = s.dev.vec fn v := by rw [Dev.vec, hfn, Dev.vec]
  refine ⟨fun hfree => ?_, fun hwaits => ?_⟩
  · rw [Dev.postsWait_iff] at hfree
    show (d.sendMessage fn v).out = _
    rw [Dev.sendMessage_eq, hlinkOf, hlink, if_neg hfree, hfn, hvec, ← hout]
    rfl
  · rw [Dev.postsWait_iff] at hwaits
    show (d.sendMessage fn v).out = _ ∧ ((d.sendMessage fn v).link _).posted = _
    rw [Dev.sendMessage_eq, hlinkOf, hlink, if_pos hwaits, Dev.link_onLink_self, hlink]
    exact ⟨hout, rfl⟩

/-- A route in a new millisecond. -/
def Route.anew (r : Route) : Route := { r with sent := 0, withheld := false }

/-- A level route whose message goes out. -/
def Route.serves (r : Route) : Route := { r with inService := true, sent := r.sent + 1 }

section
variable {pf src v : Nat} {s : State} (h : s.dev.phase = .running)
include h

theorem exec_eventSwTrigger_pends {n : Nat} (hn : n < 10) (hbit : hasBit v n = true) (hpf : pf ∈ s.dev.pfs) (hroute : s.dev.routeIs pf
    (374 + n) false) :
    ∃ t, exec (.eventSwTrigger v) s = .next t ∧ (t.dev.route pf (374 + n)).pending = true ∧ t.dev.regs = s.dev.regs := by
  refine ⟨_, exec_eventSwTrigger v h, s.dev.route_swTrigger_edge hn hbit hpf hroute, ?_⟩
  exact Dev.each_induct (fun e => e.regs = s.dev.regs) _ _ _ rfl fun b e he => (Dev.raise_regs ..).trans he

theorem exec_causeMaskWrite {unit inst off : Nat} {c : Causes} (hc : causesOf unit off = some c) :
    ∃ t, exec (.causeMaskWrite unit inst off v) s = .next t ∧ t.dev.rd c.mask (if c.perInst = 1 then inst else 0) = v % 2 ^ c.mask.width := by
  refine ⟨_, (State.onRun_running _ h : execCauseMaskWrite unit inst off v s = _), ?_⟩
  rw [hc]
  dsimp only
  unfold Dev.writeMask
  dsimp only
  refine Dev.each_induct (fun e => e.rd c.mask _ = v % 2 ^ c.mask.width) _ _ _ (Dev.rd_wr_self ..) fun b e he => ?_
  rw [Dev.rd_raise]
  exact he

/-! ### Writes of routes -/

theorem exec_eventEoi (hsrc : src < 384) (hpf : (s.dev.pf? pf).isSome = true) : ∃ t, exec (.eventEoi pf src) s = .next t ∧
    (t.dev.route pf src).inService = false ∧ t.dev.regs = s.dev.regs ∧
    (s.dev.routeIs pf src true → s.dev.levelActive src = true → (t.dev.route pf src).pending = true) := by
  refine ⟨_, (State.onRun_running _ h : execEventEoi pf src s = _), ?_⟩
  unfold Dev.endOfInterrupt
  rw [decide_eq_true hsrc, hpf, Bool.true_and, if_pos rfl]
  have hout : ((s.dev.onRoute pf src (fun r => { r with inService := false })).route pf src).inService = false := by rw [Dev.route_onRoute_self]
  have hregs : (s.dev.onRoute pf src (fun r => { r with inService := false })).regs = s.dev.regs := rfl
  generalize s.dev.onRoute pf src (fun r => { r with inService := false }) = d at hout hregs
  refine ⟨?_, (d.sendLevel_regs ..).trans hregs, fun hroute hactive => Dev.sendLevel_pends ?_ ?_ hout⟩
  · rw [(d.sendLevel_route pf src pf src).1]
    exact hout
  · obtain ⟨hlt, hon, hlevel⟩ := hroute
    exact ⟨hlt, by rw [Dev.routeOn_congr hregs, hon], by rw [Dev.routeLevel_congr hregs, hlevel]⟩
  · rw [Dev.levelActive_congr hregs, hactive]

omit h in
theorem Dev.regs_onRouteIf (b : Bool) (d : Dev) (pf src : Nat) (f : Route → Route) : (if b then d else d.onRoute pf src f).regs = d.regs := by
  split <;> rfl

omit h in
/-- What a written route's registers hold. -/
theorem Dev.writeRoute_regs (d : Dev) (hsrc : src < 384) (hpf : (d.pf? pf).isSome = true) :
    (d.writeRoute pf src v).regs = (((d.wr R.EVT_ROUTE_vector (bits v 0 11) pf (4 * src)).wr R.EVT_ROUTE_enable
      (if hasBit (d.rd R.EVT_PERMIT_permit pf (4 * (src / 32))) (src % 32) then bit v 11 else 0) pf (4 * src)).wr R.EVT_ROUTE_level
      (if (causesFor src).isEmpty then 0 else bit v 12) pf (4 * src)).regs := by
  unfold Dev.writeRoute
  have hruns : ¬ (384 ≤ src ∨ (d.pf? pf).isNone = true) := by
    rw [Option.isNone_iff_eq_none]
    rintro (hge | hnone)
    · omega
    · rw [hnone] at hpf
      exact Bool.false_ne_true hpf
  rw [if_neg hruns]
  extract_lets ok d₁ d₂ d₃ d₄ d₅
  have h₄ : d₄.regs = d₃.regs := Dev.regs_onRouteIf ..
  have h₅ : d₅.regs = d₄.regs := Dev.regs_onRouteIf ..
  rw [Dev.sendLevel_regs, h₅, h₄]

theorem exec_eventRouteWrite (hsrc : src < 384) (hpf : (s.dev.pf? pf).isSome = true) : ∃ t, exec (.eventRouteWrite pf src v) s = .next t ∧
    t.dev.rd R.EVT_ROUTE_vector pf (4 * src) = v % 2048 ∧
    t.dev.rd R.EVT_ROUTE_enable pf (4 * src) =
      (if hasBit (s.dev.rd R.EVT_PERMIT_permit pf (4 * (src / 32))) (src % 32) = true then bit v 11 else 0) ∧
    t.dev.rd R.EVT_ROUTE_level pf (4 * src) = (if (causesFor src).isEmpty = true then 0 else bit v 12) := by
  refine ⟨_, (State.onRun_running _ h : execEventRouteWrite pf src v s = _), ?_⟩
  have hregs := s.dev.writeRoute_regs (v := v) hsrc hpf
  have hve : R.EVT_ROUTE_vector.key pf (4 * src) ≠ R.EVT_ROUTE_enable.key pf (4 * src) := by
    simp only [Field.key, R.EVT_ROUTE_vector, R.EVT_ROUTE_enable]; omega
  have hvl : R.EVT_ROUTE_vector.key pf (4 * src) ≠ R.EVT_ROUTE_level.key pf (4 * src) := by
    simp only [Field.key, R.EVT_ROUTE_vector, R.EVT_ROUTE_level]; omega
  have hel : R.EVT_ROUTE_enable.key pf (4 * src) ≠ R.EVT_ROUTE_level.key pf (4 * src) := by
    simp only [Field.key, R.EVT_ROUTE_enable, R.EVT_ROUTE_level]; omega
  have hbit : ∀ b n, (if b = true then bit v n else 0) % 2 ^ 1 = if b = true then bit v n else 0 := fun b n => by
    rw [bit]
    split <;> omega
  have hbit' : ∀ b n, (if b = true then 0 else bit v n) % 2 ^ 1 = if b = true then 0 else bit v n := fun b n => by
    rw [bit]
    split <;> omega
  refine ⟨?_, ?_, ?_⟩
  · rw [Dev.rd_congr hregs, Dev.rd_wr_ne _ _ _ _ _ _ _ _ hvl, Dev.rd_wr_ne _ _ _ _ _ _ _ _ hve, Dev.rd_wr_self, bits]
    simp only [R.EVT_ROUTE_vector]
    omega
  · rw [Dev.rd_congr hregs, Dev.rd_wr_ne _ _ _ _ _ _ _ _ hel, Dev.rd_wr_self]
    exact hbit _ 11
  · rw [Dev.rd_congr hregs, Dev.rd_wr_self]
    exact hbit' _ 12

omit h in
theorem Dev.routeOn_wr_level (d : Dev) (x pf src : Nat) : (d.wr R.EVT_ROUTE_level x pf (4 * src)).routeOn pf src = d.routeOn pf src := by
  have hapart : R.EVT_ROUTE_enable.key pf (4 * src) ≠ R.EVT_ROUTE_level.key pf (4 * src) := by
    simp only [Field.key, R.EVT_ROUTE_enable, R.EVT_ROUTE_level]
    omega
  rw [Dev.routeOn, Dev.on, Dev.rd_wr_ne _ _ _ _ _ _ _ _ hapart]
  rfl

omit h in
theorem Dev.routeOn_wr_enable (d : Dev) {x pf src : Nat} (hx : x = 0) : (d.wr R.EVT_ROUTE_enable x pf (4 * src)).routeOn pf src = false := by
  rw [Dev.routeOn, Dev.on, Dev.rd_wr_self, hx]
  rfl

omit h in
theorem Dev.route_cleared {d : Dev} (hoff : d.routeOn pf src = false) :
    let e := if d.routeOn pf src && d.routeLevel pf src then d else d.onRoute pf src (fun r => { r with inService := false })
    let x := (if e.routeOn pf src then e else e.onRoute pf src (fun r => { r with pending := false })).sendLevel pf src
    (x.route pf src).pending = false ∧ (x.route pf src).inService = false := by
  intro e x
  have he : e = d.onRoute pf src (fun r => { r with inService := false }) := if_neg (by rw [hoff]; exact Bool.false_ne_true)
  have hoff' : e.routeOn pf src = false := by rw [he]; exact hoff
  have hx : x = e.onRoute pf src (fun r => { r with pending := false }) :=
    (congrArg (Dev.sendLevel pf src) (if_neg (by rw [hoff']; exact Bool.false_ne_true))).trans (Dev.sendLevel_off hoff')
  rw [hx, Dev.route_onRoute_self, he, Dev.route_onRoute_self]
  exact ⟨rfl, rfl⟩

/-- A route whose enable is cleared is neither pending nor in service. -/
theorem exec_eventRouteWrite_off (hsrc : src < 384) (hpf : (s.dev.pf? pf).isSome = true) (hoff : bit v 11 = 0) :
    ∃ t, exec (.eventRouteWrite pf src v) s = .next t ∧ (t.dev.route pf src).pending = false ∧ (t.dev.route pf src).inService = false := by
  refine ⟨_, (State.onRun_running _ h : execEventRouteWrite pf src v s = _), ?_⟩
  have hruns : ¬ (384 ≤ src ∨ (s.dev.pf? pf).isNone = true) := by
    rw [Option.isNone_iff_eq_none]
    rintro (hge | hnone)
    · omega
    · rw [hnone] at hpf
      exact Bool.false_ne_true hpf
  unfold Dev.writeRoute
  rw [if_neg hruns]
  refine Dev.route_cleared ?_
  rw [Dev.routeOn_wr_level]
  exact Dev.routeOn_wr_enable _ (by rw [hoff, ite_self])

/-! ### Issuing of messages -/

section
variable (hpending : (s.dev.route pf src).pending = true) (hfound : s.dev.vectorLost pf (s.dev.rd R.EVT_ROUTE_vector pf (4 * src)) = false)
include hpending hfound

section
variable (hroute : s.dev.routeIs pf src false)
include hroute

omit hfound in
theorem exec_eventMessageIssue_edge : exec (.eventMessageIssue pf src) s = .next { s with
    dev := (s.dev.onRoute pf src (fun r => { r with pending := false })).sendVector pf (s.dev.rd R.EVT_ROUTE_vector pf (4 * src)) } := by
  obtain ⟨-, hon, hlevel⟩ := hroute
  have hon' : (s.dev.onRoute pf src (fun r => { r with pending := false })).routeOn pf src = true := hon
  have hlevel' : (s.dev.onRoute pf src (fun r => { r with pending := false })).routeLevel pf src = false := hlevel
  refine (State.onRun_running _ h : execEventMessageIssue pf src s = _).trans ?_
  unfold Dev.issue
  dsimp only
  rw [hpending, Bool.not_true, if_neg Bool.false_ne_true, hon', Bool.not_true, if_neg Bool.false_ne_true, hlevel', if_neg Bool.false_ne_true]

theorem exec_eventMessageIssue_sends (hheld : s.dev.vectorHeld pf (s.dev.rd R.EVT_ROUTE_vector pf (4 * src)) = false) :
    ∃ t, exec (.eventMessageIssue pf src) s = .next t ∧ (t.dev.route pf src).pending = false ∧
      messageOf pf (s.dev.rd R.EVT_ROUTE_vector pf (4 * src)) s t := by
  refine ⟨_, exec_eventMessageIssue_edge h hpending hroute, ?_⟩
  generalize s.dev.rd R.EVT_ROUTE_vector pf (4 * src) = vec at *
  have hfound' : (s.dev.onRoute pf src (fun r => { r with pending := false })).vectorLost pf vec = false := hfound
  have hheld' : (s.dev.onRoute pf src (fun r => { r with pending := false })).vectorHeld pf vec = false := hheld
  unfold Dev.sendVector
  rw [hfound', if_neg Bool.false_ne_true, hheld', if_neg Bool.false_ne_true]
  refine ⟨?_, Dev.messageOf_sendMessage s pf vec rfl rfl rfl rfl⟩
  obtain ⟨l, o, hsent⟩ := (s.dev.onRoute pf src (fun r => { r with pending := false })).sendMessage_changes pf vec
  rw [hsent]
  exact congrArg Route.pending (s.dev.route_onRoute_self pf src _)

theorem exec_eventMessageIssue_keeps (hheld : s.dev.vectorHeld pf (s.dev.rd R.EVT_ROUTE_vector pf (4 * src)) = true) :
    ∃ t, exec (.eventMessageIssue pf src) s = .next t ∧ (t.dev.route pf src).pending = false ∧
      (t.dev.vec pf (s.dev.rd R.EVT_ROUTE_vector pf (4 * src))).pending = true ∧ t.dev.out = s.dev.out := by
  refine ⟨_, exec_eventMessageIssue_edge h hpending hroute, ?_⟩
  generalize s.dev.rd R.EVT_ROUTE_vector pf (4 * src) = vec at *
  have hfound' : (s.dev.onRoute pf src (fun r => { r with pending := false })).vectorLost pf vec = false := hfound
  have hheld' : (s.dev.onRoute pf src (fun r => { r with pending := false })).vectorHeld pf vec = true := hheld
  unfold Dev.sendVector
  rw [hfound', if_neg Bool.false_ne_true, hheld', if_pos rfl]
  exact ⟨congrArg Route.pending (s.dev.route_onRoute_self pf src _),
      congrArg Vec.pending (Dev.onVec_vec (s.dev.onRoute pf src (fun r => { r with pending := false })) pf vec _), rfl⟩

end

section
variable (hroute : s.dev.routeIs pf src true)
include hroute

theorem exec_eventMessageIssue_serves (hroom : (s.dev.route pf src).sent < s.dev.stormMax)
    (hheld : s.dev.vectorHeld pf (s.dev.rd R.EVT_ROUTE_vector pf (4 * src)) = false) :
    ∃ t, exec (.eventMessageIssue pf src) s = .next t ∧ (t.dev.route pf src).pending = false ∧ (t.dev.route pf src).inService = true ∧
      (t.dev.route pf src).sent = (s.dev.route pf src).sent + 1 ∧ messageOf pf (s.dev.rd R.EVT_ROUTE_vector pf (4 * src)) s t := by
  obtain ⟨-, hon, hlevel⟩ := hroute
  refine ⟨_, (State.onRun_running _ h : execEventMessageIssue pf src s = _), ?_⟩
  unfold Dev.issue
  dsimp only
  generalize s.dev.rd R.EVT_ROUTE_vector pf (4 * src) = vec at *
  have hcleared := s.dev.route_onRoute_self pf src (fun r => { r with pending := false })
  obtain ⟨d, hd⟩ : ∃ d, s.dev.onRoute pf src (fun r => { r with pending := false }) = d := ⟨_, rfl⟩
  have hon' : d.routeOn pf src = true := by rw [← hd]; exact hon
  have hlevel' : d.routeLevel pf src = true := by rw [← hd]; exact hlevel
  have hfound' : d.vectorLost pf vec = false := by rw [← hd]; exact hfound
  have hmax : d.stormMax = s.dev.stormMax := by rw [← hd]; rfl
  rw [hpending, Bool.not_true, if_neg Bool.false_ne_true, hd, hon', Bool.not_true, if_neg Bool.false_ne_true, hlevel', if_pos rfl, hfound',
    if_neg Bool.false_ne_true, hmax, if_neg (Nat.not_le.2 hroom)]
  show ((Dev.sendVector (d.onRoute pf src Route.serves) pf vec).route pf src).pending = false ∧ _
  have hserved := d.route_onRoute_self pf src Route.serves
  rw [hd] at hcleared
  rw [hcleared] at hserved
  obtain ⟨e, he⟩ : ∃ e, d.onRoute pf src Route.serves = e := ⟨_, rfl⟩
  have hfound'' : e.vectorLost pf vec = false := by rw [← he]; exact hfound'
  have hheld'' : e.vectorHeld pf vec = false := by rw [← he, ← hd]; exact hheld
  have hmessage := Dev.messageOf_sendMessage s pf vec (d := e) (by rw [← he, ← hd]; rfl) (by rw [← he, ← hd]; rfl) (by rw [← he, ← hd]; rfl)
    (by rw [← he, ← hd]; rfl)
  have hsend : (d.onRoute pf src Route.serves).sendVector pf vec = e.sendMessage pf vec := by
    rw [he]
    unfold Dev.sendVector
    rw [hfound'', if_neg Bool.false_ne_true, hheld'', if_neg Bool.false_ne_true]
  have hroute : (e.sendMessage pf vec).route pf src = { s.dev.route pf src with
      pending := false, inService := true, sent := (s.dev.route pf src).sent + 1 } := by
    obtain ⟨l, o, hsent⟩ := e.sendMessage_changes pf vec
    rw [hsent]
    exact (congrArg (fun x : Dev => x.route pf src) he).symm.trans hserved
  rw [hsend, hroute]
  refine ⟨rfl, ?_⟩
  show ((Dev.sendVector (d.onRoute pf src Route.serves) pf vec).route pf src).inService = true ∧
    ((Dev.sendVector (d.onRoute pf src Route.serves) pf vec).route pf src).sent = _ ∧
    messageOf pf vec s { s with dev := Dev.sendVector (d.onRoute pf src Route.serves) pf vec }
  rw [hsend, hroute]
  exact ⟨rfl, rfl, hmessage⟩

theorem exec_eventMessageIssue_withheld (hfull : s.dev.stormMax ≤ (s.dev.route pf src).sent) :
    ∃ t, exec (.eventMessageIssue pf src) s = .next t ∧ (t.dev.route pf src).withheld = true ∧ t.dev.out = s.dev.out ∧
      hasBit (t.dev.rd R.EVT_STORM_storm pf (4 * (src / 32))) (src % 32) = true := by
  obtain ⟨hsrc, hon, hlevel⟩ := hroute
  refine ⟨_, (State.onRun_running _ h : execEventMessageIssue pf src s = _), ?_⟩
  unfold Dev.issue
  dsimp only
  generalize s.dev.rd R.EVT_ROUTE_vector pf (4 * src) = vec at *
  obtain ⟨d, hd⟩ : ∃ d, s.dev.onRoute pf src (fun r => { r with pending := false }) = d := ⟨_, rfl⟩
  have hon' : d.routeOn pf src = true := by rw [← hd]; exact hon
  have hlevel' : d.routeLevel pf src = true := by rw [← hd]; exact hlevel
  have hfound' : d.vectorLost pf vec = false := by rw [← hd]; exact hfound
  have hmax : d.stormMax = s.dev.stormMax := by rw [← hd]; rfl
  have hout : d.out = s.dev.out := by rw [← hd]; rfl
  rw [hpending, Bool.not_true, if_neg Bool.false_ne_true, hd, hon', Bool.not_true, if_neg Bool.false_ne_true, hlevel', if_pos rfl, hfound',
    if_neg Bool.false_ne_true, hmax, if_pos hfull]
  have hdrops : R.EVT_STORM_storm.key pf (4 * (src / 32)) ≠ R.EVT_STORM_DROPS_count.key 0 0 := by
    simp only [Field.key, R.EVT_STORM_storm, R.EVT_STORM_DROPS_count]
    omega
  have hwithheld := d.route_onRoute_self pf src (fun r => { r with withheld := true })
  obtain ⟨e, he⟩ : ∃ e, d.onRoute pf src (fun r => { r with withheld := true }) = e := ⟨_, rfl⟩
  rw [he] at hwithheld ⊢
  refine ⟨?_, ?_, ?_⟩
  · exact congrArg Route.withheld hwithheld
  · rw [← hout, ← he]
    rfl
  · rw [Dev.bump, Dev.rd_wr_ne _ _ _ _ _ _ _ _ hdrops, Dev.rd_wr_self, R.EVT_STORM_storm, hasBit_mod _ (Nat.mod_lt _ (by decide))]
    exact hasBit_setBit_self ..

end

end

/-! ### A new millisecond (R414) -/

theorem exec_stormLimitMillisecond : ∃ t, exec .stormLimitMillisecond s = .next t ∧ ∀ q n, (t.dev.route q n).sent = 0 ∧
    (t.dev.route q n).withheld = false ∧
      (n < 384 → (s.dev.route q n).withheld = true → (s.dev.route q n).inService = false → s.dev.routeIs q n true →
        s.dev.levelActive n = true → (t.dev.route q n).pending = true) := by
  refine ⟨_, (State.onRun_running _ h : execStormLimitMillisecond s = _), fun q n => ?_⟩
  unfold Dev.stormMs
  extract_lets held d
  have hregs : d.regs = s.dev.regs := rfl
  have hroute : d.route q n = { s.dev.route q n with sent := 0, withheld := false } := by
    show (s.dev.routes.mapVals (fun _ => Route.anew)).getD (routeKey q n) {} = _
    rw [NMap.getD, NMap.get?_mapVals, Dev.route, NMap.getD]
    cases s.dev.routes.get? (routeKey q n) <;> rfl
  have hkeeps : ∀ l : List Nat, ∀ e : Dev, e.regs = s.dev.regs ∧ (∃ b, e.route q n = { s.dev.route q n with
        pending := b, sent := 0, withheld := false }) →
      let x := Dev.each l (fun k d => d.sendLevel (k / 384) (k % 384)) e
      x.regs = s.dev.regs ∧ (∃ b, x.route q n = { s.dev.route q n with pending := b, sent := 0, withheld := false }) := by
    intro l e he
    refine Dev.each_induct (fun x => x.regs = s.dev.regs ∧ (∃ b, x.route q n = { s.dev.route q n with
      pending := b, sent := 0, withheld := false })) _ _ _ he fun k x ⟨hx, b, hb⟩ => ⟨(x.sendLevel_regs ..).trans hx, ?_⟩
    refine ⟨((x.sendLevel (k / 384) (k % 384)).route q n).pending, ?_⟩
    rw [(x.sendLevel_route (k / 384) (k % 384) q n).1, hb]
  obtain ⟨-, b, hb⟩ := hkeeps held d ⟨hregs, _, hroute⟩
  refine ⟨by rw [hb], by rw [hb], fun hn hwithheld hout hlevel hactive => ?_⟩
  have hmem : routeKey q n ∈ held := by
    rw [Dev.route, NMap.getD] at hwithheld
    cases hget : s.dev.routes.get? (routeKey q n) with
    | none =>
      rw [hget] at hwithheld
      exact absurd hwithheld Bool.false_ne_true
    | some r =>
      rw [hget] at hwithheld
      exact List.mem_map.2 ⟨(routeKey q n, r), List.mem_filter.2 ⟨NMap.mem_of_get? hget, hwithheld⟩, rfl⟩
  refine Dev.each_establishes (P := fun x => x.regs = s.dev.regs ∧ (x.route q n).inService = false) (Q := fun x => (x.route q n).pending = true)
    hmem ?_ ?_ ?_ d ⟨hregs, by rw [hroute]; exact hout⟩
  · rintro k x ⟨hx, hservice⟩
    refine ⟨(x.sendLevel_regs ..).trans hx, ?_⟩
    rw [(x.sendLevel_route (k / 384) (k % 384) q n).1]
    exact hservice
  · rintro x ⟨hx, hservice⟩
    rw [routeKey, Nat.mul_add_div (by decide), Nat.mul_add_mod, Nat.mod_eq_of_lt hn, Nat.div_eq_of_lt hn, Nat.add_zero]
    obtain ⟨-, hon, hmode⟩ := hlevel
    exact Dev.sendLevel_pends ⟨hn, by rw [Dev.routeOn_congr hx, hon], by rw [Dev.routeLevel_congr hx, hmode]⟩
      (by rw [Dev.levelActive_congr hx, hactive]) hservice
  · exact fun k x hx => (x.sendLevel_route (k / 384) (k % 384) q n).2 hx

end

/-- Settles O54. -/
theorem eventMatrix : Obligations.EventMatrix :=
  fun _ _ _ _ h _ => ⟨fun _ hn hbit hpf hroute => exec_eventSwTrigger_pends h hn hbit hpf hroute, exec_eventRouteWrite h,
    exec_eventRouteWrite_off h, fun hpending hfound => ⟨exec_eventMessageIssue_sends h hpending hfound,
      exec_eventMessageIssue_keeps h hpending hfound, exec_eventMessageIssue_serves h hpending hfound,
      exec_eventMessageIssue_withheld h hpending hfound⟩,
    exec_eventEoi h, exec_stormLimitMillisecond h, fun _ _ _ _ hc => exec_causeMaskWrite h hc⟩

end Sys2Proof.Machine
end

section
/-!
Register writes (R5, R8, R83, R115).
-/

namespace Sys2Proof.Machine

/-! ## Writes that change no register -/

theorem midFn_sub (fn : Nat) : midFn fn - 0x1000 = fn := by simp [midFn]

/-- A write of fewer than four bytes covers no whole word. -/
theorem exec_registerWrite_short {mid unit inst off bytes v : Nat} (s : State) (h : bytes < 4) :
    exec (.registerWrite mid unit inst off bytes v) s = .next s := by
  have hnone : (off + bytes) / 4 - (off + 3) / 4 = 0 := by omega
  simp [exec_registerWrite, execRegisterWrite, hnone]

/-- No word is written while the device does not run, but on a link that keeps it. -/
theorem State.writeWord_idle {mid : Nat} {s : State} (unit inst off v : Nat) (h : s.dev.phase ≠ .running)
    (hfree : isFnMid mid = true → s.dev.withholds (mid - 0x1000) = false) : s.writeWord mid unit inst off v = s := by
  have hkeeps : ¬ (isFnMid mid && s.dev.withholds (mid - 0x1000)) = true := by
    simpa using hfree
  unfold State.writeWord
  rw [if_neg hkeeps, if_pos h]

theorem exec_registerWrite_idle {mid : Nat} {s : State} (unit inst off bytes v : Nat) (h : s.dev.phase ≠ .running)
    (hfree : isFnMid mid = true → s.dev.withholds (mid - 0x1000) = false) :
    exec (.registerWrite mid unit inst off bytes v) s = .next s := by
  rw [exec_registerWrite]
  unfold execRegisterWrite
  have hsame (l : List Nat) : l.foldl (fun s k => s.writeWord mid unit inst (4 * ((off + 3) / 4 + k))
      (bits v (8 * (4 * ((off + 3) / 4 + k) - off)) 32)) s = s :=
    List.foldlRecOn (motive := fun t => t = s) _ _ rfl fun t ht k _ => by rw [ht]; exact s.writeWord_idle _ _ _ _ h hfree
  simp only [hsame]

/-- A write stays on a link whose posted credits are withheld (R83). -/
theorem exec_registerWrite_withheld {fn off : Nat} {s : State} (unit inst v : Nat) (hfn : fn < 8208) (h : s.dev.withholds fn = true)
    (hal : off % 4 = 0) :
    exec (.registerWrite (midFn fn) unit inst off 4 v) s =
      .next { s with dev := s.dev.withhold (.register (midFn fn) unit inst off (v % 2 ^ 32)) } := by
  rw [exec_registerWrite_word _ _ _ _ _ _ hal]
  unfold State.writeWord
  rw [if_pos (by simp [isFnMid_midFn hfn, midFn_sub, h])]
  simp [bits]

/-- A word that a master may not reach is not written, where its unit is not one of those that a function has for itself. -/
theorem Dev.writeReg_closed {d : Dev} {mid unit inst off : Nat} (v : Nat) (hreach : d.mayReach mid unit inst = false)
    (hbox : unit = 0x90 → off < 0x10000) (hmsix : unit ≠ msixUnit) (hs44 : unit ≠ 0x4400) (hpf : mid - 0x1000 < 16) :
    d.writeReg mid unit inst off v = d := by
  unfold Dev.writeReg
  split_ifs <;> grind

theorem exec_registerWrite_closed {fn unit inst off : Nat} {s : State} (v : Nat) (hfn : fn < 16) (hfree : s.dev.withholds fn = false)
    (hreach : s.dev.mayReach (midFn fn) unit inst = false) (hbox : unit = 0x90 → off < 0x10000) (hmsix : unit ≠ msixUnit)
    (hs44 : unit ≠ 0x4400) (hal : off % 4 = 0) : exec (.registerWrite (midFn fn) unit inst off 4 v) s = .next s := by
  rw [exec_registerWrite_word _ _ _ _ _ _ hal]
  unfold State.writeWord
  rw [s.dev.writeReg_closed _ hreach hbox hmsix hs44 (by rw [midFn_sub]; exact hfn)]
  simp [midFn_sub, hfree, hreach]

/-! ## Writes of a control core to the registers of the fault unit -/

/-- The core's write of a register of the fault unit, but of its mask and of its acknowledgement, is a plain one (R8). -/
theorem exec_registerWrite_fault {mid off : Nat} {s : State} (v : Nat) (h : s.dev.phase = .running) (hmid : isCoreMid mid = true)
    (hal : off % 4 = 0) (hmask : causesOf 0x92 off = none) (hack : off ≠ 0x1C) :
    exec (.registerWrite mid 0x92 0 off 4 v) s = .next { s with dev := s.dev.plainWrite 0x92 0 off (v % 2 ^ 32) } := by
  have hfn := isFnMid_of_isCoreMid hmid
  have hlive : s.dev.registerLive 0x92 0 off = true := by
    have hcard : (cardIndex 0x92 0).isSome = true := by decide
    simp [Dev.registerLive, Dev.unitPresent, hcard]
  have hlow : bits v 0 32 = v % 2 ^ 32 := by simp [bits]
  have hreg : s.dev.writeReg mid 0x92 0 off (v % 2 ^ 32) = s.dev.plainWrite 0x92 0 off (v % 2 ^ 32) := by
    simp [Dev.writeReg, Dev.barOpen, hfn, msixUnit, s.dev.mayReach_core 0x92 0 hmid, hlive, Dev.writeLive, hmask, hack, bankOf,
      Dev.storedWord]
  rw [exec_registerWrite_word _ _ _ _ _ _ hal, hlow]
  unfold State.writeWord
  rw [hreg]
  simp [hfn, h]

/-- FLT_CONFIG has four fields, each of which a write stores. -/
theorem Dev.plainWrite_fltConfig (v : Nat) (d : Dev) :
    d.plainWrite 0x92 0 0x0C v =
      (((d.wr R.FLT_CONFIG_corr_window_ms (bits v 0 16)).wr R.FLT_CONFIG_corr_threshold (bits v 16 8)).wr R.FLT_CONFIG_esc_limit
        (bits v 24 4)).wr R.FLT_CONFIG_nest_escalate (bits v 28 1) := by
  have hfields : fieldsAt 0x92 0 0x0C =
      [R.FLT_CONFIG_corr_window_ms, R.FLT_CONFIG_corr_threshold, R.FLT_CONFIG_esc_limit, R.FLT_CONFIG_nest_escalate] := by decide
  unfold Dev.plainWrite
  rw [hfields]
  rfl

/-- The low word of a value holds the value's fields. -/
theorem bits_mod_word (v : Nat) {lsb w : Nat} (h : lsb + w ≤ 32) : bits (v % 2 ^ 32) lsb w = bits v lsb w := by
  obtain ⟨k, hk⟩ := Nat.exists_eq_add_of_le h
  have hsplit : (2 : Nat) ^ 32 = 2 ^ lsb * 2 ^ (w + k) := by rw [← Nat.pow_add]; congr 1; omega
  simp only [bits]
  rw [hsplit, Nat.mod_mul_right_div_self]
  exact Nat.mod_mod_of_dvd _ (Nat.pow_dvd_pow 2 (by omega))

/-- A K field that is written waits for its retention record (R76). -/
theorem Dev.wr_dirty {f : Field} (hf : f.isK = true) (d : Dev) (v i a : Nat) : (d.wr f v i a).keep.dirty = true := by
  simp [Dev.wr, hf]

/-- R8: FLT_CONFIG takes what a core writes. -/
theorem exec_registerWrite_fltConfig {mid : Nat} {s : State} (v : Nat) (h : s.dev.phase = .running) (hmid : isCoreMid mid = true) :
    ∃ t, exec (.registerWrite mid 0x92 0 0x0C 4 v) s = .next t ∧ t.dev.rd R.FLT_CONFIG_corr_window_ms = bits v 0 16 ∧
      t.dev.rd R.FLT_CONFIG_corr_threshold = bits v 16 8 ∧ t.dev.rd R.FLT_CONFIG_esc_limit = bits v 24 4 ∧
      t.dev.rd R.FLT_CONFIG_nest_escalate = bits v 28 1 ∧ t.dev.keep.dirty = true := by
  refine ⟨_, exec_registerWrite_fault v h hmid rfl (by decide) (by decide), ?_⟩
  dsimp only
  rw [s.dev.plainWrite_fltConfig, bits_mod_word v (by decide), bits_mod_word v (by decide), bits_mod_word v (by decide),
    bits_mod_word v (by decide)]
  refine ⟨?_, ?_, ?_, ?_, Dev.wr_dirty (by decide) ..⟩
  · rw [Dev.rd_wr_ne _ _ _ _ _ _ _ _ (by decide), Dev.rd_wr_ne _ _ _ _ _ _ _ _ (by decide), Dev.rd_wr_ne _ _ _ _ _ _ _ _ (by decide),
      Dev.rd_wr_self]
    exact Nat.mod_mod _ _
  · rw [Dev.rd_wr_ne _ _ _ _ _ _ _ _ (by decide), Dev.rd_wr_ne _ _ _ _ _ _ _ _ (by decide), Dev.rd_wr_self]
    exact Nat.mod_mod _ _
  · rw [Dev.rd_wr_ne _ _ _ _ _ _ _ _ (by decide), Dev.rd_wr_self]
    exact Nat.mod_mod _ _
  · rw [Dev.rd_wr_self]
    exact Nat.mod_mod _ _

/-- A write of a cause bit clears it where it writes 1, and leaves it elsewhere (R8). -/
def Dev.clearCause (c : Causes) (v b : Nat) (d : Dev) : Dev := d.wr (c.bit b) (Nat.land (d.rd (c.bit b)) (1 - bits v b 1))

/-- FLT_CAUSE holds the ten cause bits of the unit. -/
theorem Dev.plainWrite_fltCause (v : Nat) (d : Dev) :
    d.plainWrite 0x92 0 0x04 v = Dev.each (List.range 10) (Dev.clearCause fltCauses v) d := by
  have hfields : fieldsAt 0x92 0 0x04 = (List.range 10).map fltCauses.bit := by decide
  unfold Dev.plainWrite
  rw [hfields]
  rfl

theorem Causes.bit_key_ne (c : Causes) {a b : Nat} (h : a ≠ b) : (c.bit a).key 0 0 ≠ (c.bit b).key 0 0 := by
  simp only [Field.key, Causes.bit]
  omega

theorem Dev.rd_clearCause (c : Causes) (v b : Nat) (d : Dev) :
    (d.clearCause c v b).rd (c.bit b) = if hasBit v b = true then 0 else d.rd (c.bit b) % 2 := by
  have hbit : bits v b 1 = 0 ∨ bits v b 1 = 1 := by simp only [bits]; omega
  have hhas : hasBit v b = (bits v b 1 == 1) := by simp [hasBit, bit, bits]
  unfold Dev.clearCause
  rw [Dev.rd_wr_self, hhas]
  rcases hbit with h0 | h1
  · simp [h0, Causes.bit]
  · simp [h1, Causes.bit]

/-- Clearing causes of a list that names each at most once leaves each of the list as a write of the register does. -/
theorem Dev.rd_clearCauses (c : Causes) (v : Nat) {l : List Nat} {b : Nat} (hl : l.Nodup) (hb : b ∈ l) (d : Dev) :
    (Dev.each l (Dev.clearCause c v) d).rd (c.bit b) = if hasBit v b = true then 0 else d.rd (c.bit b) % 2 := by
  induction l generalizing d with
  | nil => simp at hb
  | cons x l ih =>
    obtain ⟨hx, hl⟩ := List.nodup_cons.1 hl
    change (Dev.each l (Dev.clearCause c v) (d.clearCause c v x)).rd (c.bit b) = _
    by_cases hbx : b = x
    · subst hbx
      refine Eq.trans ?_ (d.rd_clearCause c v b)
      refine List.foldlRecOn (motive := fun e : Dev => e.rd (c.bit b) = (d.clearCause c v b).rd (c.bit b)) _ _ rfl fun e he y hy => ?_
      exact (Dev.rd_wr_ne _ _ _ _ _ _ _ _ (c.bit_key_ne (by rintro rfl; exact hx hy))).trans he
    · rw [ih hl (List.mem_of_ne_of_mem hbx hb)]
      have hkeep : (d.clearCause c v x).rd (c.bit b) = d.rd (c.bit b) := Dev.rd_wr_ne _ _ _ _ _ _ _ _ (c.bit_key_ne hbx)
      rw [hkeep]

/-- R8: a core's write of FLT_CAUSE clears the causes to which it writes 1. -/
theorem exec_registerWrite_fltCause {mid : Nat} {s : State} (v : Nat) (h : s.dev.phase = .running) (hmid : isCoreMid mid = true) :
    ∃ t, exec (.registerWrite mid 0x92 0 0x04 4 v) s = .next t ∧ ∀ b, b < 10 →
      t.dev.rd (fltCauses.bit b) = if hasBit v b = true then 0 else s.dev.rd (fltCauses.bit b) % 2 := by
  refine ⟨_, exec_registerWrite_fault v h hmid rfl (by decide) (by decide), fun b hb => ?_⟩
  have hlow : hasBit (v % 2 ^ 32) b = hasBit v b := hasBit_mod v (by omega)
  dsimp only
  rw [s.dev.plainWrite_fltCause, Dev.rd_clearCauses _ _ List.nodup_range (List.mem_range.2 hb), hlow]

/-! ## Writes of a function to its MSI-X table -/

theorem Dev.writeVector_data {fn n : Nat} (v : Nat) (d : Dev) (h : n < d.msixSize fn) :
    d.writeVector fn (16 * n + 8) v =
      d.onFn fn (fun x => { x with vecs := x.vecs.upd n {} (fun e => { e with data := v }) }) := by
  have hdiv : (16 * n + 8) / 16 = n := by omega
  have hmod : (16 * n + 8) % 16 = 8 := by omega
  unfold Dev.writeVector
  rw [hdiv, hmod, if_neg (by omega)]
  rfl

/-- R115: the data of a function's vector is what the function writes to its MSI-X table. -/
theorem exec_registerWrite_vectorData {fn n : Nat} {s : State} (inst v : Nat) (h : s.dev.phase = .running) (hfn : fn < 8208)
    (hopen : s.dev.doorbellOpen fn = true) (hfree : s.dev.withholds fn = false) (hn : n < s.dev.msixSize fn) :
    ∃ t, exec (.registerWrite (midFn fn) msixUnit inst (16 * n + 8) 4 v) s = .next t ∧ (t.dev.vec fn n).data = v % 2 ^ 32 ∧
      t.dev.regs = s.dev.regs := by
  have hmid := isFnMid_midFn hfn
  have hlow : bits v 0 32 = v % 2 ^ 32 := by simp [bits]
  have hreg : s.dev.writeReg (midFn fn) msixUnit inst (16 * n + 8) (v % 2 ^ 32) = s.dev.writeVector fn (16 * n + 8) (v % 2 ^ 32) := by
    simp [Dev.writeReg, Dev.barOpen, hmid, midFn_sub, hopen, msixUnit]
  refine ⟨{ s with dev := s.dev.writeVector fn (16 * n + 8) (v % 2 ^ 32) }, ?_, ?_, ?_⟩
  · rw [exec_registerWrite_word _ _ _ _ _ _ (by omega), hlow]
    unfold State.writeWord
    rw [hreg]
    simp [midFn_sub, hfree, h, msixUnit]
  · rw [s.dev.writeVector_data _ hn]
    simp [Dev.vec]
  · rw [s.dev.writeVector_data _ hn]
    rfl

/-- Settles O55: each clause is the lemma about a write of that kind. -/
theorem registerWrites : Obligations.RegisterWrites := by
  unfold Obligations.RegisterWrites
  intro mid unit inst off v s
  refine ⟨?short, ?idle, ?withheld, ?closed, ?core, ?msix⟩
  case short => exact fun bytes hb => exec_registerWrite_short s hb
  case idle => exact fun bytes h hfree => exec_registerWrite_idle _ _ _ _ _ h hfree
  case withheld =>
    rintro fn hfn rfl hkeeps hal
    exact ⟨_, exec_registerWrite_withheld unit inst v hfn hkeeps hal, rfl, rfl⟩
  case closed =>
    rintro fn hfn rfl hfree hreach hbox hmsix hs44 hal
    exact exec_registerWrite_closed v hfn hfree hreach hbox hmsix hs44 hal
  case core => exact fun h hmid => ⟨exec_registerWrite_fltConfig v h hmid, exec_registerWrite_fltCause v h hmid⟩
  case msix =>
    rintro fn n h hfn rfl hopen hfree hn
    exact exec_registerWrite_vectorData inst v h hfn hopen hfree hn

end Sys2Proof.Machine
end

section
/-!
Partner channels (R397-R401).
-/

namespace Sys2Proof.Machine

/-! ## The registers of a channel and those of the unit -/

/-- A register of a channel lies above those that the unit has for all of them. -/
theorem Field.box_key_ne_low {f g : Field} (c : Nat) (hunit : f.unit = g.unit) (hf : 0x10000 ≤ f.off) (hg : g.off < 0x10000) (hlsb : g.lsb < 32) :
    f.key 0 (256 * c) ≠ g.key 0 0 := by
  simp only [Field.key, hunit]
  omega

theorem Dev.rd_wr_low_box (d : Dev) {f g : Field} (v c : Nat) (hunit : f.unit = g.unit) (hf : 0x10000 ≤ f.off) (hg : g.off < 0x10000)
    (hlsb : g.lsb < 32) : (d.wr f v 0 (256 * c)).rd g = d.rd g :=
  Dev.rd_wr_ne _ _ _ _ _ _ _ _ (Field.box_key_ne_low c hunit hf hg hlsb).symm

theorem Dev.rd_wr_box_low (d : Dev) {f g : Field} (v c : Nat) (hunit : f.unit = g.unit) (hf : 0x10000 ≤ f.off) (hg : g.off < 0x10000)
    (hlsb : g.lsb < 32) : (d.wr g v).rd f 0 (256 * c) = d.rd f 0 (256 * c) :=
  Dev.rd_wr_ne _ _ _ _ _ _ _ _ (Field.box_key_ne_low c hunit hf hg hlsb)

theorem Dev.rd_cause_box (d : Dev) {f : Field} (b c : Nat) (hunit : f.unit = 144) (hf : 0x10000 ≤ f.off) (hb : b < 32) :
    (d.cause mbxCauses b).rd f 0 (256 * c) = d.rd f 0 (256 * c) :=
  Dev.rd_cause_ne _ _ _ _ _ _ _ (Field.box_key_ne_low c hunit hf (by show 0 < 0x10000; decide) hb)

/-! ## What announcements leave -/

/-- Registers, channels and the image with its bindings stay. -/
structure Dev.boxesSame (d e : Dev) : Prop where
  regs : e.regs = d.regs
  chans : e.chans = d.chans
  boot : e.boot = d.boot

namespace Dev.boxesSame

theorem refl (d : Dev) : d.boxesSame d := ⟨rfl, rfl, rfl⟩

theorem rd {d e : Dev} (h : d.boxesSame e) (f : Field) (i a : Nat) : e.rd f i a = d.rd f i a := Dev.rd_congr h.regs ..

theorem chan {d e : Dev} (h : d.boxesSame e) (c : Nat) : e.chan c = d.chan c := by rw [Dev.chan, h.chans, Dev.chan]

theorem sendVector (d : Dev) (fn v : Nat) : d.boxesSame (d.sendVector fn v) := by
  obtain ⟨_, _, _, h⟩ := d.sendVector_changes fn v
  rw [h]
  exact ⟨rfl, rfl, rfl⟩

theorem raise (d : Dev) (src : Nat) : d.boxesSame (d.raise src) := by
  obtain ⟨_, _, h⟩ := d.raise_changes src true
  rw [h]
  exact ⟨rfl, rfl, rfl⟩

end Dev.boxesSame

theorem Dev.binding_congr {d e : Dev} (h : e.boot = d.boot) (c : Nat) : e.binding c = d.binding c := by
  rw [Dev.binding, h, Dev.binding]

/-- What an acknowledgement shows the sender; its announcement to the sender leaves the registers and channels. -/
theorem Dev.acknowledge_boxes (c code seq : Nat) (d : Dev) :
    (((d.wr R.MBX_TX_ACK_code code 0 (256 * c)).wr R.MBX_TX_ACK_ack_seq seq 0 (256 * c)).wr R.MBX_TX_STATUS_acked 1 0 (256 * c)).boxesSame
      (d.acknowledge c code seq) := by
  unfold Dev.acknowledge
  extract_lets a e
  split
  · split
    · split
      · exact ⟨rfl, rfl, rfl⟩
      · exact Dev.boxesSame.refl e
    · split
      · exact Dev.boxesSame.sendVector ..
      · exact Dev.boxesSame.refl e
  · exact Dev.boxesSame.refl e

theorem Dev.acknowledge_chans (c code seq : Nat) (d : Dev) : (d.acknowledge c code seq).chans = d.chans := (d.acknowledge_boxes c code seq).chans

theorem Dev.acknowledge_boot (c code seq : Nat) (d : Dev) : (d.acknowledge c code seq).boot = d.boot := (d.acknowledge_boxes c code seq).boot

/-- A channel's registers other than the three of its acknowledgement. -/
theorem Dev.rd_acknowledge_box (c code seq : Nat) (d : Dev) {f : Field} (hcode : f.key 0 0 ≠ R.MBX_TX_ACK_code.key 0 0)
    (hseq : f.key 0 0 ≠ R.MBX_TX_ACK_ack_seq.key 0 0) (hacked : f.key 0 0 ≠ R.MBX_TX_STATUS_acked.key 0 0) :
    (d.acknowledge c code seq).rd f 0 (256 * c) = d.rd f 0 (256 * c) := by
  rw [(d.acknowledge_boxes c code seq).rd, Dev.rd_wr_at _ _ _ _ _ _ hacked, Dev.rd_wr_at _ _ _ _ _ _ hseq, Dev.rd_wr_at _ _ _ _ _ _ hcode]

theorem Dev.rd_acknowledge_low (c code seq : Nat) (d : Dev) {f : Field} (hunit : f.unit = 144) (hf : f.off < 0x10000) (hlsb : f.lsb < 32) :
    (d.acknowledge c code seq).rd f = d.rd f := by
  rw [(d.acknowledge_boxes c code seq).rd, Dev.rd_wr_low_box _ _ _ hunit.symm (by decide) hf hlsb,
    Dev.rd_wr_low_box _ _ _ hunit.symm (by decide) hf hlsb, Dev.rd_wr_low_box _ _ _ hunit.symm (by decide) hf hlsb]

theorem Dev.acknowledge_shows (c code seq : Nat) (d : Dev) :
    (d.acknowledge c code seq).rd R.MBX_TX_ACK_code 0 (256 * c) = code % 65536 ∧
    (d.acknowledge c code seq).rd R.MBX_TX_ACK_ack_seq 0 (256 * c) = seq % 65536 ∧
    (d.acknowledge c code seq).on R.MBX_TX_STATUS_acked 0 (256 * c) = true := by
  have h := d.acknowledge_boxes c code seq
  refine ⟨?_, ?_, ?_⟩
  · rw [h.rd, Dev.rd_wr_at _ _ _ _ _ _ (by decide), Dev.rd_wr_at _ _ _ _ _ _ (by decide), Dev.rd_wr_self]
    rfl
  · rw [h.rd, Dev.rd_wr_at _ _ _ _ _ _ (by decide), Dev.rd_wr_self]
    rfl
  · rw [Dev.on, h.rd, Dev.rd_wr_self]
    rfl

/-- A message for a function or a control core is announced by a vector or an event (R402). -/
theorem Dev.announceArrival_boxes {d : Dev} {c mid r : Nat} (hbound : d.binding c = some (mid, r)) (hr : isFnMid r = true ∨ isCoreMid r = true) :
    d.boxesSame (d.announceArrival c) := by
  have hnoDomain (e : Dev) : e.domainOfMid r = none := by
    have hset : isSetMid r = false := by
      simp only [isFnMid, isCoreMid, isSetMid, Bool.and_eq_true, decide_eq_true_eq, Bool.and_eq_false_iff, decide_eq_false_iff_not] at hr ⊢
      omega
    have hstp : r ≠ midStp := by
      simp only [isFnMid, isCoreMid, Bool.and_eq_true, decide_eq_true_eq, midStp] at hr ⊢
      omega
    simp [Dev.domainOfMid, hset, hstp]
  unfold Dev.announceArrival
  rw [hbound]
  dsimp only
  rw [hnoDomain]
  dsimp only
  split
  · split
    · exact Dev.boxesSame.sendVector ..
    · exact Dev.boxesSame.refl d
  · next hfn => rw [if_pos (hr.resolve_left hfn)]; exact Dev.boxesSame.raise ..

/-! ## A message is put into its channel (R398, R399) -/

/-- What is shown of the message that a new one displaces (R401). -/
def Dev.collided (c : Nat) (m : Msg) (d : Dev) : Dev :=
  (((((d.wr R.MBX_TX_STATUS_collision 1 0 (256 * c)).wr R.MBX_RX_STATUS_collision 1 0 (256 * c)).bump R.MBX_COLLISIONS_count).wr
    R.MBX_LAST_COLLISION_channel c).acknowledge c 0xFFFF m.seq).cause mbxCauses 0

/-- The channel that holds a message shows itself full. -/
def Dev.filled (c : Nat) (m : Msg) (d : Dev) : Dev := (d.onChan c (fun h => { h with held := some m, latched := false })).setFull c true

theorem Dev.post_eq {d : Dev} {c mid r : Nat} (hbound : d.binding c = some (mid, r)) (hr : isFnMid r = true ∨ isCoreMid r = true)
    (words : List Nat) (len : Nat) :
    let seq := (d.rd R.MBX_TX_STATUS_seq 0 (256 * c) + 1) % 65536
    let e := d.wr R.MBX_TX_STATUS_seq seq 0 (256 * c)
    d.post c words len = ((match (d.chan c).held with
      | none => e
      | some m => e.collided c m).filled c { words := cutWords words len, len := len, seq := seq }).announceArrival c := by
  have hpresent (e : Dev) : e.receiverAbsent r = false := by
    have hset : isSetMid r = false := by
      simp only [isFnMid, isCoreMid, isSetMid, Bool.and_eq_true, decide_eq_true_eq, Bool.and_eq_false_iff, decide_eq_false_iff_not] at hr ⊢
      omega
    have hstp : (r == midStp) = false := by
      simp only [isFnMid, isCoreMid, Bool.and_eq_true, decide_eq_true_eq, midStp, beq_eq_false_iff_ne] at hr ⊢
      omega
    simp [Dev.receiverAbsent, hset, hstp]
  intro seq e
  unfold Dev.post
  rw [hbound]
  dsimp only
  rw [hpresent, if_neg Bool.false_ne_true]
  have hchan : e.chan c = d.chan c := rfl
  show Dev.announceArrival c (Dev.setFull c true (Dev.onChan (match (e.chan c).held with | none => e | some m => e.collided c m) c _)) = _
  rw [hchan]
  rfl

theorem Dev.chan_filled (c : Nat) (m : Msg) (d : Dev) : ((d.filled c m).chan c).held = some m := by
  show ((d.onChan c _).chan c).held = _
  rw [Dev.chan_onChan_self]

theorem Dev.rd_filled_box (c : Nat) (m : Msg) (d : Dev) {f : Field} (htx : f.key 0 0 ≠ R.MBX_TX_STATUS_full.key 0 0)
    (hrx : f.key 0 0 ≠ R.MBX_RX_STATUS_full.key 0 0) : (d.filled c m).rd f 0 (256 * c) = d.rd f 0 (256 * c) := by
  rw [Dev.filled, Dev.setFull, Dev.rd_wr_at _ _ _ _ _ _ hrx, Dev.rd_wr_at _ _ _ _ _ _ htx]
  rfl

theorem Dev.rd_filled_low (c : Nat) (m : Msg) (d : Dev) {f : Field} (hunit : f.unit = 144) (hf : f.off < 0x10000) (hlsb : f.lsb < 32) :
    (d.filled c m).rd f = d.rd f := by
  rw [Dev.filled, Dev.setFull, Dev.rd_wr_low_box _ _ _ hunit.symm (by decide) hf hlsb, Dev.rd_wr_low_box _ _ _ hunit.symm (by decide) hf hlsb]
  rfl

theorem Dev.setFull_shows (c : Nat) (v : Bool) (d : Dev) :
    (d.setFull c v).on R.MBX_TX_STATUS_full 0 (256 * c) = v ∧ (d.setFull c v).on R.MBX_RX_STATUS_full 0 (256 * c) = v := by
  simp only [Dev.setFull, Dev.on]
  refine ⟨?_, ?_⟩
  · rw [Dev.rd_wr_at _ _ _ _ _ _ (by decide), Dev.rd_wr_self]
    cases v <;> rfl
  · rw [Dev.rd_wr_self]
    cases v <;> rfl

/-- What a displaced message leaves in the registers. -/
theorem Dev.collided_shows (c : Nat) (m : Msg) (d : Dev) (hc : c < 18432) :
    ((d.collided c m).rd R.MBX_TX_ACK_code 0 (256 * c) = 0xFFFF ∧ (d.collided c m).rd R.MBX_TX_ACK_ack_seq 0 (256 * c) = m.seq % 65536 ∧
      (d.collided c m).on R.MBX_TX_STATUS_acked 0 (256 * c) = true) ∧
    (d.collided c m).on R.MBX_TX_STATUS_collision 0 (256 * c) = true ∧ (d.collided c m).on R.MBX_RX_STATUS_collision 0 (256 * c) = true ∧
    (d.collided c m).rd R.MBX_LAST_COLLISION_channel = c ∧
    (d.collided c m).rd R.MBX_COLLISIONS_count = (d.rd R.MBX_COLLISIONS_count + 1) % 2 ^ R.MBX_COLLISIONS_count.width := by
  have hbox (e : Dev) {f : Field} (hunit : f.unit = 144) (hf : 0x10000 ≤ f.off) : (e.cause mbxCauses 0).rd f 0 (256 * c) = e.rd f 0 (256 * c) :=
    e.rd_cause_box 0 c hunit hf (by decide)
  unfold Dev.collided Dev.on
  obtain ⟨hcode, hseq, hacked⟩ := Dev.acknowledge_shows c 0xFFFF m.seq ((((d.wr R.MBX_TX_STATUS_collision 1 0 (256 * c)).wr
    R.MBX_RX_STATUS_collision 1 0 (256 * c)).bump R.MBX_COLLISIONS_count).wr R.MBX_LAST_COLLISION_channel c)
  refine ⟨⟨?_, ?_, ?_⟩, ?_, ?_, ?_, ?_⟩
  · rw [hbox _ rfl (by decide), hcode]
  · rw [hbox _ rfl (by decide), hseq]
  · rw [hbox _ rfl (by decide)]
    exact hacked
  · rw [hbox _ rfl (by decide), Dev.rd_acknowledge_box _ _ _ _ (by decide) (by decide) (by decide),
        Dev.rd_wr_box_low _ _ _ (by decide) (by decide) (by decide) (by decide), Dev.bump,
      Dev.rd_wr_box_low _ _ _ (by decide) (by decide) (by decide) (by decide), Dev.rd_wr_at _ _ _ _ _ _ (by decide), Dev.rd_wr_self]
    rfl
  · rw [hbox _ rfl (by decide), Dev.rd_acknowledge_box _ _ _ _ (by decide) (by decide) (by decide),
        Dev.rd_wr_box_low _ _ _ (by decide) (by decide) (by decide) (by decide), Dev.bump,
      Dev.rd_wr_box_low _ _ _ (by decide) (by decide) (by decide) (by decide), Dev.rd_wr_self]
    rfl
  · rw [Dev.rd_cause_at _ _ _ _ _ (by decide), Dev.rd_acknowledge_low _ _ _ _ rfl (by decide) (by decide), Dev.rd_wr_self]
    exact Nat.mod_eq_of_lt (lt_trans hc (by decide))
  · rw [Dev.rd_cause_at _ _ _ _ _ (by decide), Dev.rd_acknowledge_low _ _ _ _ rfl (by decide) (by decide), Dev.rd_wr_at _ _ _ _ _ _ (by decide),
      Dev.rd_bump_self, Dev.rd_wr_low_box _ _ _ (by decide) (by decide) (by decide) (by decide),
          Dev.rd_wr_low_box _ _ _ (by decide) (by decide) (by decide) (by decide)]

theorem Dev.collided_boot (c : Nat) (m : Msg) (d : Dev) : (d.collided c m).boot = d.boot := by
  rw [Dev.collided, Dev.cause_boot, Dev.acknowledge_boot]
  rfl

section
variable {mid c : Nat} {s : State} (h : s.dev.phase = .running)
include h

theorem exec_mbxSend (len : Nat) : exec (.mbxSend mid c len) s = .next { s with dev := s.dev.mbxSend mid c len } :=
  State.onRun_running _ h

/-- The send of a message of legal length. -/
theorem exec_mbxSend_post {len r : Nat} (hbound : s.dev.binding c = some (mid, r)) (hpos : 0 < len) (hlen : len ≤ 64) :
    exec (.mbxSend mid c len) s =
      .next { s with dev := s.dev.post c ((List.range 16).map (fun n => s.dev.rd R.MBX_TX_DATA_data 0 (256 * c + 4 * n))) len } := by
  rw [exec_mbxSend h]
  simp only [Dev.mbxSend, hbound, ne_eq, not_true_eq_false, if_false]
  rw [if_neg (by omega)]

/-- R398: a message goes into its empty channel. -/
theorem exec_mbxSend_empty {len r : Nat} (hbound : s.dev.binding c = some (mid, r)) (hr : isFnMid r = true ∨ isCoreMid r = true) (hpos : 0 < len)
    (hlen : len ≤ 64) (hempty : (s.dev.chan c).held = none) :
    ∃ t, exec (.mbxSend mid c len) s = .next t ∧ (t.dev.chan c).held = some (s.dev.stagedMsg c len) ∧
      t.dev.on R.MBX_TX_STATUS_full 0 (256 * c) = true ∧ t.dev.on R.MBX_RX_STATUS_full 0 (256 * c) = true ∧
      t.dev.rd R.MBX_TX_STATUS_seq 0 (256 * c) = (s.dev.stagedMsg c len).seq := by
  refine ⟨_, exec_mbxSend_post h hbound hpos hlen, ?_⟩
  dsimp only
  rw [Dev.post_eq hbound hr, hempty]
  dsimp only
  generalize he : s.dev.wr R.MBX_TX_STATUS_seq ((s.dev.rd R.MBX_TX_STATUS_seq 0 (256 * c) + 1) % 65536) 0 (256 * c) = e
  have hboot : e.boot = s.dev.boot := by rw [← he]; rfl
  have hseq : e.rd R.MBX_TX_STATUS_seq 0 (256 * c) = (s.dev.stagedMsg c len).seq := by
    rw [← he, Dev.rd_wr_self]
    exact Nat.mod_mod _ _
  have hsame := Dev.announceArrival_boxes (d := e.filled c (s.dev.stagedMsg c len)) ((Dev.binding_congr hboot c).trans hbound) hr
  obtain ⟨htx, hrx⟩ := Dev.setFull_shows c true (e.onChan c (fun h => { h with held := some (s.dev.stagedMsg c len), latched := false }))
  refine ⟨?_, ?_, ?_, ?_⟩
  · exact (congrArg Chan.held (hsame.chan c)).trans (Dev.chan_filled ..)
  · exact (congrArg (· != 0) (hsame.rd ..)).trans htx
  · exact (congrArg (· != 0) (hsame.rd ..)).trans hrx
  · exact (hsame.rd ..).trans ((Dev.rd_filled_box _ _ _ (by decide) (by decide)).trans hseq)

/-- R399, R401: a message that stands in the channel is displaced, answered with 0xFFFF and counted. -/
theorem exec_mbxSend_collision {len r : Nat} {m : Msg} (hc : c < 18432) (hbound : s.dev.binding c = some (mid, r))
    (hr : isFnMid r = true ∨ isCoreMid r = true) (hpos : 0 < len) (hlen : len ≤ 64) (hheld : (s.dev.chan c).held = some m) :
    ∃ t, exec (.mbxSend mid c len) s = .next t ∧ (t.dev.chan c).held = some (s.dev.stagedMsg c len) ∧ ackShown c 0xFFFF m.seq t ∧
      t.dev.on R.MBX_TX_STATUS_collision 0 (256 * c) = true ∧ t.dev.on R.MBX_RX_STATUS_collision 0 (256 * c) = true ∧
      t.dev.rd R.MBX_LAST_COLLISION_channel = c ∧
      t.dev.rd R.MBX_COLLISIONS_count = (s.dev.rd R.MBX_COLLISIONS_count + 1) % 2 ^ R.MBX_COLLISIONS_count.width := by
  refine ⟨_, exec_mbxSend_post h hbound hpos hlen, ?_⟩
  unfold ackShown
  dsimp only
  rw [Dev.post_eq hbound hr, hheld]
  dsimp only
  have hcount := Dev.rd_wr_low_box (f := R.MBX_TX_STATUS_seq) (g := R.MBX_COLLISIONS_count) s.dev ((s.dev.rd R.MBX_TX_STATUS_seq 0
      (256 * c) + 1) % 65536) c
    (by decide) (by decide) (by decide) (by decide)
  have hboot : ((s.dev.wr R.MBX_TX_STATUS_seq ((s.dev.rd R.MBX_TX_STATUS_seq 0 (256 * c) + 1) % 65536) 0 (256 * c)).collided c m).boot = s.dev.boot :=
    Dev.collided_boot ..
  obtain ⟨⟨hcode, hseq, hacked⟩, htx, hrx, hlast, hcnt⟩ := Dev.collided_shows c m (s.dev.wr R.MBX_TX_STATUS_seq
      ((s.dev.rd R.MBX_TX_STATUS_seq 0 (256 * c) + 1) % 65536) 0 (256 * c)) hc
  rw [hcount] at hcnt
  generalize (s.dev.wr R.MBX_TX_STATUS_seq ((s.dev.rd R.MBX_TX_STATUS_seq 0 (256 * c) + 1) % 65536) 0 (256 * c)).collided c m = e at *
  have hsame := Dev.announceArrival_boxes (d := e.filled c (s.dev.stagedMsg c len)) ((Dev.binding_congr hboot c).trans hbound) hr
  have hbox {f : Field} (htx : f.key 0 0 ≠ R.MBX_TX_STATUS_full.key 0 0) (hrx : f.key 0 0 ≠ R.MBX_RX_STATUS_full.key 0 0) :
      ((e.filled c (s.dev.stagedMsg c len)).announceArrival c).rd f 0 (256 * c) = e.rd f 0 (256 * c) :=
    (hsame.rd ..).trans (Dev.rd_filled_box _ _ _ htx hrx)
  have hlow {f : Field} (hunit : f.unit = 144) (hf : f.off < 0x10000) (hlsb : f.lsb < 32) :
      ((e.filled c (s.dev.stagedMsg c len)).announceArrival c).rd f = e.rd f :=
    (hsame.rd ..).trans (Dev.rd_filled_low _ _ _ hunit hf hlsb)
  refine ⟨?_, ⟨?_, ?_, ?_⟩, ?_, ?_, ?_, ?_⟩
  · exact (congrArg Chan.held (hsame.chan c)).trans (Dev.chan_filled ..)
  · exact (hbox (by decide) (by decide)).trans hcode
  · exact (hbox (by decide) (by decide)).trans hseq
  · exact (congrArg (· != 0) (hbox (by decide) (by decide))).trans hacked
  · exact (congrArg (· != 0) (hbox (by decide) (by decide))).trans htx
  · exact (congrArg (· != 0) (hbox (by decide) (by decide))).trans hrx
  · exact (hlow rfl (by decide) (by decide)).trans hlast
  · exact (hlow rfl (by decide) (by decide)).trans hcnt

theorem exec_mbxSend_bad {len r : Nat} (hbound : s.dev.binding c = some (mid, r)) (hlen : len = 0 ∨ 64 < len) :
    ∃ t, exec (.mbxSend mid c len) s = .next t ∧ t.dev.chans = s.dev.chans ∧ t.dev.on R.MBX_TX_STATUS_tx_bad 0 (256 * c) = true := by
  refine ⟨_, exec_mbxSend h len, ?_⟩
  simp only [Dev.mbxSend, hbound, ne_eq, not_true_eq_false, if_false]
  rw [if_pos hlen]
  exact ⟨rfl, by rw [Dev.on, Dev.rd_wr_self]; rfl⟩

omit h in
/-- R397: a refused access changes no channel and is counted. -/
theorem Dev.wrongMid_counts (d : Dev) : d.wrongMid.chans = d.chans ∧
    d.wrongMid.rd R.MBX_WRONG_MID_count = (d.rd R.MBX_WRONG_MID_count + 1) % 2 ^ R.MBX_WRONG_MID_count.width := by
  refine ⟨(Dev.chans_of_besides (Dev.cause_besides _ _ _ _ (List.Subset.refl _)) (by decide)).trans (Dev.wr_chans ..), ?_⟩
  rw [Dev.wrongMid, Dev.rd_cause_at _ _ _ _ _ (by decide), Dev.rd_bump_self]

theorem exec_mbxSend_wrongMid {x r : Nat} (len : Nat) (hbound : s.dev.binding c = some (x, r)) (hx : x ≠ mid) :
    exec (.mbxSend mid c len) s = .next { s with dev := s.dev.wrongMid } := by
  rw [exec_mbxSend h, Dev.mbxSend, hbound]
  dsimp only
  rw [if_pos hx]

theorem exec_mbxRxAck (code : Nat) : exec (.mbxRxAck mid c code) s = .next { s with dev := s.dev.mbxAck mid c code } :=
  State.onRun_running _ h

theorem exec_mbxRxAck_wrongMid {x r : Nat} (code : Nat) (hbound : s.dev.binding c = some (x, r)) (hr : r ≠ mid) :
    exec (.mbxRxAck mid c code) s = .next { s with dev := s.dev.wrongMid } := by
  rw [exec_mbxRxAck h, Dev.mbxAck, hbound]
  dsimp only
  rw [if_pos hr]

theorem exec_mbxRxAck_receiver {x : Nat} (code : Nat) (hbound : s.dev.binding c = some (x, mid)) :
    exec (.mbxRxAck mid c code) s = .next { s with dev := s.dev.ackView c code } := by
  rw [exec_mbxRxAck h, Dev.mbxAck, hbound]
  dsimp only
  rw [if_neg (not_not.2 rfl)]

/-! ## The receiver's view and its acknowledgement (R400) -/

theorem exec_mbxRxAck_stale {x : Nat} (code : Nat) (hbound : s.dev.binding c = some (x, mid)) (hempty : (s.dev.chan c).held = none) :
    ∃ t, exec (.mbxRxAck mid c code) s = .next t ∧ t.dev.chans = s.dev.chans ∧ t.dev.on R.MBX_RX_STATUS_stale_ack 0 (256 * c) = true := by
  refine ⟨_, exec_mbxRxAck_receiver h code hbound, ?_⟩
  dsimp only
  rw [Dev.ackView, hempty]
  exact ⟨rfl, by rw [Dev.on, Dev.rd_wr_self]; rfl⟩

/-- An acknowledgement of the message in view frees the channel, and shows the sender its code. -/
theorem exec_mbxRxAck_frees {x code : Nat} {m : Msg} (hbound : s.dev.binding c = some (x, mid)) (hheld : (s.dev.chan c).held = some m)
    (hview : (s.dev.chan c).viewEmpty = false) (hseq : s.dev.rd R.MBX_RX_STATUS_seq 0 (256 * c) = m.seq)
    (hbox : ∀ fn, mid = midFn fn → (s.dev.fn fn).outbox = []) :
    ∃ t, exec (.mbxRxAck mid c code) s = .next t ∧ (t.dev.chan c).held = none ∧ t.dev.on R.MBX_TX_STATUS_full 0 (256 * c) = false ∧
      ackShown c (if 0xFF00 ≤ code then 0xFEFF else code) m.seq t := by
  obtain ⟨e, he⟩ : ∃ e, s.dev.onChan c (fun h => { h with held := none, latched := false }) = e := ⟨_, rfl⟩
  have hview' : s.dev.ackView c code = (e.setFull c false).acknowledge c (ackCode code) m.seq := by
    have hmail : s.dev.mailOnly ((e.setFull c false).acknowledge c (ackCode code) m.seq) :=
      (((s.dev.mailOnly_refl.onChan _ _).setFull _ _).acknowledge _ _ _ : s.dev.mailOnly _) |> (he ▸ ·)
    have hbound' : ((e.setFull c false).acknowledge c (ackCode code) m.seq).binding c = some (x, mid) := by
      rw [← hbound]
      exact Dev.binding_congr ((Dev.acknowledge_boot ..).trans (by rw [← he]; rfl)) c
    rw [Dev.ackView, hheld]
    dsimp only
    rw [hview, hseq, beq_self_eq_true, Bool.not_false, Bool.true_and, if_pos rfl, he, hbound']
    dsimp only
    split
    · next hfn =>
      have hmid : mid = midFn (mid - 0x1000) := by
        simp only [isFnMid, Bool.and_eq_true, decide_eq_true_eq, midFn] at hfn ⊢
        omega
      obtain ⟨l, hl⟩ := hmail.fns (mid - 0x1000)
      exact Dev.sendNext_none (by rw [hl]; exact hbox _ hmid)
    · rfl
  refine ⟨_, exec_mbxRxAck_receiver h code hbound, ?_⟩
  unfold ackShown
  dsimp only
  rw [hview']
  refine ⟨?_, ?_, Dev.acknowledge_shows ..⟩
  · rw [Dev.chan, Dev.acknowledge_chans, ← he]
    exact congrArg Chan.held (Dev.chan_onChan_self s.dev c _)
  · rw [Dev.on, Dev.rd_acknowledge_box _ _ _ _ (by decide) (by decide) (by decide)]
    exact (Dev.setFull_shows c false e).1

omit h in
/-- The words of a view. -/
theorem Dev.rd_viewWords (c : Nat) (words : List Nat) (d : Dev) {n : Nat} (hn : n < 16) :
    (Dev.each (List.range 16) (fun n d => d.wr R.MBX_RX_DATA_data (words.getD n 0) 0 (256 * c + 4 * n)) d).rd R.MBX_RX_DATA_data 0
      (256 * c + 4 * n) = words.getD n 0 % 2 ^ 32 := by
  refine Dev.each_establishes (P := fun _ => True) (Q := fun e => e.rd R.MBX_RX_DATA_data 0 (256 * c + 4 * n) = words.getD n 0 % 2 ^ 32)
    (List.mem_range.2 hn) (fun _ _ _ => trivial) (fun e _ => Dev.rd_wr_self ..) (fun b e he => ?_) d trivial
  by_cases hb : b = n
  · rw [hb, Dev.rd_wr_self]
    rfl
  · rw [Dev.rd_wr_ne _ _ _ _ _ _ _ _ (by simp only [Field.key]; omega)]
    exact he

omit h in
theorem Dev.each_wr_out (f : Field) (g : Nat → Nat) (a : Nat → Nat) (l : List Nat) (d : Dev) :
    (Dev.each l (fun n d => d.wr f (g n) 0 (a n)) d).out = d.out :=
  Dev.each_induct (fun e => e.out = d.out) _ _ _ rfl fun _ _ he => he

/-- A read of MBX_RX_STATUS shows its receiver the message. -/
theorem exec_mbxRxLatch_held {x : Nat} {m : Msg} (hbound : s.dev.binding c = some (x, mid)) (hheld : (s.dev.chan c).held = some m) :
    ∃ t, exec (.mbxRxLatch mid c) s = .next t ∧ (t.dev.chan c).held = some m ∧ (t.dev.chan c).viewEmpty = false ∧
      t.dev.rd R.MBX_RX_STATUS_len 0 (256 * c) = m.len % 128 ∧ t.dev.rd R.MBX_RX_STATUS_seq 0 (256 * c) = m.seq % 65536 ∧
      (∀ n, n < 16 → t.dev.rd R.MBX_RX_DATA_data 0 (256 * c + 4 * n) = m.words.getD n 0 % 2 ^ 32) ∧
      t.dev.out = s.dev.out ++ [.answer mid (t.dev.rxStatus c)] := by
  have hexec : exec (.mbxRxLatch mid c) s = .next { s with dev := (s.dev.latchView c).emit (.answer mid ((s.dev.latchView c).rxStatus c)) } := by
    refine (State.onRun_running _ h : execMbxRxLatch mid c s = _).trans ?_
    rw [Dev.mbxLatch, hbound]
    dsimp only
    rw [if_neg (not_not.2 rfl)]
  obtain ⟨e, he⟩ : ∃ e, Dev.each (List.range 16) (fun n d => d.wr R.MBX_RX_DATA_data (m.words.getD n 0) 0 (256 * c + 4 * n)) s.dev = e := ⟨_, rfl⟩
  have hlatch : s.dev.latchView c = (((e.wr R.MBX_RX_STATUS_len m.len 0 (256 * c)).wr R.MBX_RX_STATUS_seq m.seq 0 (256 * c)).wr
      R.MBX_RX_STATUS_redelivered m.redelivered.toNat 0 (256 * c)).onChan c (fun h => { h with viewEmpty := false, latched := true }) := by
    rw [Dev.latchView, hheld]
    dsimp only
    rw [Dev.setView, he]
  have hchan : e.chan c = s.dev.chan c := by
    rw [← he]
    exact Dev.each_induct (fun e => e.chan c = s.dev.chan c) _ _ _ rfl fun _ _ he => he
  have hout : e.out = s.dev.out := by
    rw [← he]
    exact Dev.each_wr_out ..
  refine ⟨_, hexec, ?_⟩
  dsimp only
  rw [hlatch]
  have hself : ∀ d : Dev, ∀ f, (d.onChan c f).chan c = f (d.chan c) := fun d f => Dev.chan_onChan_self d c f
  refine ⟨?_, ?_, ?_, ?_, fun n hn => ?_, ?_⟩
  · refine (congrArg Chan.held (hself _ _)).trans ?_
    exact (congrArg Chan.held hchan).trans hheld
  · exact congrArg Chan.viewEmpty (hself _ _)
  · show Dev.rd (Dev.wr (Dev.wr (Dev.wr e _ _ _ _) _ _ _ _) _ _ _ _) _ 0 (256 * c) = _
    rw [Dev.rd_wr_at _ _ _ _ _ _ (by decide), Dev.rd_wr_at _ _ _ _ _ _ (by decide), Dev.rd_wr_self]
    rfl
  · show Dev.rd (Dev.wr (Dev.wr (Dev.wr e _ _ _ _) _ _ _ _) _ _ _ _) _ 0 (256 * c) = _
    rw [Dev.rd_wr_at _ _ _ _ _ _ (by decide), Dev.rd_wr_self]
    rfl
  · have hkey {f : Field} (hunit : f.unit = 144) (hoff : f.off = 0x100C0) (hlsb : f.lsb < 32) :
        R.MBX_RX_DATA_data.key 0 (256 * c + 4 * n) ≠ f.key 0 (256 * c) := by
      simp only [Field.key, R.MBX_RX_DATA_data, hunit, hoff]
      omega
    show Dev.rd (Dev.wr (Dev.wr (Dev.wr e _ _ _ _) _ _ _ _) _ _ _ _) _ 0 (256 * c + 4 * n) = _
    rw [Dev.rd_wr_ne _ _ _ _ _ _ _ _ (hkey rfl rfl (by decide)), Dev.rd_wr_ne _ _ _ _ _ _ _ _ (hkey rfl rfl (by decide)),
      Dev.rd_wr_ne _ _ _ _ _ _ _ _ (hkey rfl rfl (by decide)), ← he]
    exact Dev.rd_viewWords c m.words s.dev hn
  · exact congrArg (· ++ _) hout

end

/-- Settles O53: each clause is the lemma about that command. -/
theorem partnerChannels : Obligations.PartnerChannels := by
  unfold Obligations.PartnerChannels
  intro mid c s h hc
  refine ⟨fun len r hbound hr hpos hlen => ⟨exec_mbxSend_empty h hbound hr hpos hlen, fun m => exec_mbxSend_collision h hc hbound hr hpos hlen⟩,
    fun len r hbound hlen => exec_mbxSend_bad h hbound hlen, fun x r k hbound => ⟨fun hx => ?_, fun hr => ?_⟩,
    fun x hbound => ⟨fun m => exec_mbxRxLatch_held h hbound, fun m code => exec_mbxRxAck_frees h hbound,
        fun code => exec_mbxRxAck_stale h code hbound⟩⟩
  · exact ⟨_, exec_mbxSend_wrongMid h k hbound hx, s.dev.wrongMid_counts⟩
  · exact ⟨_, exec_mbxRxAck_wrongMid h k hbound hr, s.dev.wrongMid_counts⟩

end Sys2Proof.Machine
end

section
/-!
The scheduler (R312-R320).
-/

namespace Sys2Proof.Machine

/-! ## What reads of descriptors leave of the scheduler -/

/-- The key is one of the scheduler's, but none at the start of its window: the state of any link, whatever its number, is at the start of
its instance's window. -/
def schedKey (k : Nat) : Prop := k / 2 ^ 46 = 96 ∧ k % 2 ^ 30 ≠ 0

/-- The nodes, those in force and the scheduler's registers stand. -/
structure Dev.schedStands (d e : Dev) : Prop where
  nodes : e.sched.nodes = d.sched.nodes
  force : e.sched.force = d.sched.force
  regs : d.regsSame schedKey e

namespace Dev.schedStands

theorem refl (d : Dev) : d.schedStands d := ⟨rfl, rfl, d.regsSame_refl⟩

theorem trans {c d e : Dev} (h : c.schedStands d) (h' : d.schedStands e) : c.schedStands e :=
  ⟨h'.nodes.trans h.nodes, h'.force.trans h.force, h.regs.trans h'.regs⟩

theorem of_same {d e : Dev} (hsched : e.sched = d.sched) (hregs : e.regs = d.regs) : d.schedStands e :=
  ⟨by rw [hsched], by rw [hsched], Dev.regsSame_of_regs hregs⟩

theorem each {α : Type} {l : List α} {f : α → Dev → Dev} (hf : ∀ a e, Dev.schedStands e (f a e)) (d : Dev) : d.schedStands (Dev.each l f d) :=
  Dev.each_induct (fun e => d.schedStands e) _ _ _ (refl d) fun a e he => he.trans (hf a e)

theorem leaveL1 (link : Nat) (d : Dev) : d.schedStands (d.leaveL1 link) := by
  have hsched : (d.leaveL1 link).sched = d.sched := by unfold Dev.leaveL1; split <;> rfl
  refine ⟨by rw [hsched], by rw [hsched], ?_⟩
  unfold Dev.leaveL1
  split
  · refine Dev.regsSame.wr d.regsSame_refl _ _ _ _ fun ⟨_, hlow⟩ => hlow ?_
    simp only [Field.key, R.PCX_LINK_STATUS_state]
    omega
  · exact d.regsSame_refl

theorem onLink (d : Dev) (n : Nat) (f : Link → Link) : d.schedStands (d.onLink n f) := of_same rfl rfl

theorem onRing (d : Dev) (r : Nat) (f : Ring → Ring) : d.schedStands (d.onRing r f) := of_same rfl rfl

theorem onNvme (d : Dev) (fn : Nat) (f : Nvme → Nvme) : d.schedStands (d.onNvme fn f) := of_same rfl rfl

theorem hostRead (fn addr len : Nat) (a : Attr) (why : Nat → Nat → ReadFor) (d : Dev) : d.schedStands (d.hostRead fn addr len a why) := by
  refine (leaveL1 (d.linkOf fn) d).trans ?_
  unfold Dev.hostRead
  have hpump (link : Nat) (e : Dev) : e.schedStands (e.pump link) :=
    of_same (Dev.sched_of_besides (Dev.pump_besides _ _ (List.Subset.refl _)) (by decide))
      (Dev.regs_of_besides (Dev.pump_besides _ _ (List.Subset.refl _)) (by decide))
  exact (onLink ..).trans (hpump _ _)

theorem fetch (r : Nat) (d : Dev) : d.schedStands (d.fetch r) := by
  have hissue (g : Ring) (n : Nat) : d.schedStands (d.issueFetch r g n) :=
    (onRing ..).trans (each (fun _ _ => hostRead ..) _)
  unfold Dev.fetch
  split
  · exact refl d
  · split
    · exact refl d
    · split
      · exact hissue ..
      · dsimp only
        split
        · exact refl d
        · split
          · exact ⟨rfl, rfl, d.regsSame_refl⟩
          · exact hissue ..

theorem fetchSq (fn q : Nat) (d : Dev) : d.schedStands (d.fetchSq fn q) := by
  unfold Dev.fetchSq
  split
  · exact refl d
  · dsimp only
    split
    · exact refl d
    · split
      · have hsched : ((d.bump R.STO_DEEP_WAITS_count).cause stoCauses 3).sched = d.sched :=
          (Dev.sched_of_besides (Dev.cause_besides _ _ _ _ (List.Subset.refl _)) (by decide)).trans (Dev.wr_sched ..)
        refine ⟨by rw [hsched], by rw [hsched], ?_⟩
        exact (Dev.regsSame.wr d.regsSame_refl _ _ _ _ (fun h => absurd h.1 (by decide))).cause _ _ _ (fun h => absurd h.1 (by decide))
      · split
        · exact refl d
        · split
          · exact ⟨rfl, rfl, d.regsSame_refl⟩
          · exact (onNvme ..).trans (each (fun _ _ => hostRead ..) _)

theorem creditLeaf (x : Spread) (leaf : Leaf) (d : Dev) : d.schedStands (d.creditLeaf x leaf) := by
  unfold Dev.creditLeaf
  extract_lets l burst put
  split
  · exact refl d
  · split
    · exact ⟨rfl, rfl, d.regsSame_refl⟩
    · split
      · exact ⟨rfl, rfl, d.regsSame_refl⟩
      · exact ⟨rfl, rfl, d.regsSame_refl⟩
      · exact refl d

end Dev.schedStands

/-! ## The bar (R312-R315) -/

/-- The bar before its credits: the counts, the cap and the parameters in force. -/
def Dev.barOpened (d e : Dev) : Prop :=
  e.sched.nodes = d.sched.nodes ∧ e.sched.force = d.nodesInForce ∧
  e.rd64 R.SCH_BARS_LO_bars R.SCH_BARS_HI_bars = (d.rd64 R.SCH_BARS_LO_bars R.SCH_BARS_HI_bars + 1) % 2 ^ 64 ∧
  e.rd R.SCH_STATUS_cap = d.rd R.PWR_HEADROOM_headroom * d.rd R.SCH_CONFIG_bar_ticks * 4 / 1000 % 2 ^ R.SCH_STATUS_cap.width

theorem Dev.barOpened.stands {d e e' : Dev} (h : d.barOpened e) (hs : e.schedStands e') : d.barOpened e' := by
  obtain ⟨hnodes, hforce, hbars, hcap⟩ := h
  refine ⟨hs.nodes.trans hnodes, hs.force.trans hforce, ?_, ?_⟩
  · rw [← hbars, Dev.rd64, Dev.rd64, hs.regs.rd ⟨by decide, by decide⟩, hs.regs.rd ⟨by decide, by decide⟩]
  · rw [← hcap, hs.regs.rd ⟨by decide, by decide⟩]

/-- The schedule of a bar replaces the one before without a change of a register. -/
theorem Dev.barOpened_of_regs {d e e' : Dev} (hregs : e'.regs = e.regs) (hnodes : e'.sched.nodes = d.sched.nodes)
    (hforce : e'.sched.force = d.nodesInForce)
    (hbars : e.rd64 R.SCH_BARS_LO_bars R.SCH_BARS_HI_bars = (d.rd64 R.SCH_BARS_LO_bars R.SCH_BARS_HI_bars + 1) % 2 ^ 64)
    (hcap : e.rd R.SCH_STATUS_cap = d.rd R.PWR_HEADROOM_headroom * d.rd R.SCH_CONFIG_bar_ticks * 4 / 1000 % 2 ^ R.SCH_STATUS_cap.width) :
    d.barOpened e' :=
  ⟨hnodes, hforce, (Dev.rd64_congr hregs ..).trans hbars, (Dev.rd_congr hregs ..).trans hcap⟩

/-- The parameters in force come from the node table and from the registers of the links and of the root. -/
theorem Dev.nodesInForce_congr {d e : Dev} (hnodes : e.sched.nodes = d.sched.nodes)
    (hlinks : ∀ f ∈ [R.SCH_LINK_W_weight, R.SCH_LINK_FLOOR_floor_mbps, R.SCH_LINK_CEIL_ceiling_mbps], ∀ n < 16, e.rd f 0 (16 * n) = d.rd f 0 (16 * n))
    (hroot : e.rd R.SCH_DEVICE_dev_ceiling = d.rd R.SCH_DEVICE_dev_ceiling) : e.nodesInForce = d.nodesInForce := by
  unfold Dev.nodesInForce
  rw [hnodes, hroot]
  dsimp only
  congr 2
  refine List.map_congr_left fun n hn => ?_
  have hn := List.mem_range.1 hn
  rw [hlinks _ (by simp) n hn, hlinks _ (by simp) n hn, hlinks _ (by simp) n hn]

/-- The counters that a bar writes are none of the registers that it takes parameters from. -/
theorem Dev.barCounted {d : Dev} {capped : Bool} {cap : Nat} {e : Dev}
    (he : e = ((d.wr64 R.SCH_BARS_LO_bars R.SCH_BARS_HI_bars ((d.rd64 R.SCH_BARS_LO_bars R.SCH_BARS_HI_bars + 1) % 2 ^ 64)).when capped
      (fun d => d.bump R.SCH_PKT_CAPPED_count)).wr R.SCH_STATUS_cap cap) :
    e.sched = d.sched ∧ e.nodesInForce = d.nodesInForce ∧
    e.rd64 R.SCH_BARS_LO_bars R.SCH_BARS_HI_bars = (d.rd64 R.SCH_BARS_LO_bars R.SCH_BARS_HI_bars + 1) % 2 ^ 64 ∧
    e.rd R.SCH_STATUS_cap = cap % 2 ^ R.SCH_STATUS_cap.width := by
  have hwhen (x : Dev) (f : Field) (i a : Nat) (hf : f.key i a ≠ R.SCH_PKT_CAPPED_count.key 0 0) :
      (x.when capped (fun d => d.bump R.SCH_PKT_CAPPED_count)).rd f i a = x.rd f i a := by
    unfold Dev.when
    split
    · exact Dev.rd_wr_ne _ _ _ _ _ _ _ _ hf
    · rfl
  have hrd (f : Field) (i a : Nat) (hcap : f.key i a ≠ R.SCH_STATUS_cap.key 0 0) (hcount : f.key i a ≠ R.SCH_PKT_CAPPED_count.key 0 0)
      (hlo : f.key i a ≠ R.SCH_BARS_LO_bars.key 0 0) (hhi : f.key i a ≠ R.SCH_BARS_HI_bars.key 0 0) : e.rd f i a = d.rd f i a := by
    rw [he, Dev.rd_wr_ne _ _ _ _ _ _ _ _ hcap, hwhen _ _ _ _ hcount, Dev.rd_wr64_ne _ _ _ _ _ _ _ _ _ hlo hhi]
  have hsched : e.sched = d.sched := by
    rw [he, Dev.wr_sched, Dev.when]
    split <;> rfl
  refine ⟨hsched, Dev.nodesInForce_congr (by rw [hsched]) (fun f hf n hn => ?_) (hrd _ _ _ (by decide) (by decide) (by decide) (by decide)), ?_, ?_⟩
  · have hoff : f.unit = 96 ∧ 0x100 ≤ f.off ∧ f.lsb = 0 := by
      simp only [List.mem_cons, List.not_mem_nil, or_false] at hf
      rcases hf with rfl | rfl | rfl <;> decide
    obtain ⟨hunit, hoff, hlsb⟩ := hoff
    have hne (g : Field) (hg : g.unit = 96) (hgoff : g.off < 0x100) (hglsb : g.lsb = 0) : f.key 0 (16 * n) ≠ g.key 0 0 := by
      simp only [Field.key, hunit, hlsb, hg, hglsb]
      omega
    exact hrd _ _ _ (hne _ rfl (by decide) rfl) (hne _ rfl (by decide) rfl) (hne _ rfl (by decide) rfl) (hne _ rfl (by decide) rfl)
  · have hself := d.rd64_wr64_self R.SCH_BARS_LO_bars R.SCH_BARS_HI_bars ((d.rd64 R.SCH_BARS_LO_bars R.SCH_BARS_HI_bars + 1) % 2 ^ 64) 0 0
        (by decide) rfl rfl
    rw [Nat.mod_mod] at hself
    rw [← hself]
    unfold Dev.rd64
    rw [he, Dev.rd_wr_at _ _ _ _ _ _ (by decide), Dev.rd_wr_at _ _ _ _ _ _ (by decide), hwhen _ _ _ _ (by decide),
      hwhen _ _ _ _ (by decide)]
    rfl
  · rw [he, Dev.rd_wr_self]

theorem Dev.rd_when_bump (d : Dev) (c : Bool) (f g : Field) (h : g.key 0 0 ≠ f.key 0 0) : (d.when c (fun d => d.bump f)).rd g = d.rd g := by
  unfold Dev.when
  split
  · exact Dev.rd_wr_at _ _ _ _ _ _ h
  · rfl

theorem Dev.barOpened_barStart (d : Dev) : d.barOpened d.barStart := by
  unfold Dev.barStart
  extract_lets ticks d₁ d₂ d₃ macs src d₄ leaves spread src' d₅ d₆ d₇ d₈
  obtain ⟨hsched, hforce, hbars, hcap⟩ := Dev.barCounted (d := d) (e := d₃) rfl
  have hcapped : d₂.rd R.PWR_HEADROOM_headroom = d.rd R.PWR_HEADROOM_headroom := by
    rw [Dev.rd_when_bump _ _ _ _ (by decide), Dev.rd_wr64_ne _ _ _ _ _ _ _ _ _ (by decide) (by decide)]
  rw [hcapped] at hcap
  clear_value d₃
  have h₅ : d.barOpened d₅ := Dev.barOpened_of_regs (e := d₃) rfl (congrArg Sched.nodes hsched :) hforce hbars hcap
  clear_value d₅ spread
  have h₆ : d.barOpened d₆ := by
    obtain ⟨hnodes, hforce, hbars, hcap⟩ := h₅
    have hkeep : d₆.sched = d₅.sched := by
      show (Dev.when _ _ _).sched = _
      unfold Dev.when
      split <;> rfl
    refine ⟨by rw [hkeep, hnodes], by rw [hkeep, hforce], ?_, ?_⟩
    · rw [← hbars, Dev.rd64, Dev.rd64, Dev.rd_when_bump _ _ _ _ (by decide), Dev.rd_when_bump _ _ _ _ (by decide)]
    · rw [← hcap, Dev.rd_when_bump _ _ _ _ (by decide)]
  clear_value d₆
  have h₇ : d.barOpened d₇ := h₆.stands (Dev.schedStands.each (fun x e => Dev.schedStands.creditLeaf spread x e) _)
  have h₈ : d.barOpened d₈ := h₇.stands (Dev.schedStands.each (fun r e => Dev.schedStands.fetch r e) _)
  exact h₈.stands (Dev.schedStands.each (fun fn e => Dev.schedStands.each (fun q e => Dev.schedStands.fetchSq fn q e) e) _)

/-! ## Node commands (R320) -/

theorem Dev.nodeResult_le (d : Dev) (c : NodeCmd) : d.nodeResult c ≤ 3 := by
  unfold Dev.nodeResult
  split
  · decide
  · split_ifs <;> decide

/-- The command that a node command of the interface becomes. -/
theorem Dev.selectNode_idle {mid level index : Nat} {write : Bool} {d : Dev} (hlevel : level < 8) (hindex : index < 2 ^ 22)
    (hidle : d.on R.SCH_NODE_STATUS_busy = false) :
    ∃ c, (d.selectNode mid level index write).sched.cmd = some c ∧ (d.selectNode mid level index write).on R.SCH_NODE_STATUS_busy = true ∧
      c.write = write ∧ c.mid = mid ∧ c.level = level ∧ c.index = index ∧ c.node.weight = d.rd R.SCH_NODE_DATA0_weight ∧
      c.node.burst = max 1 (d.rd R.SCH_NODE_DATA0_burst_kib) ∧ c.node.floor = d.rd R.SCH_NODE_DATA1_floor_mbps ∧
      c.node.ceiling = d.rd R.SCH_NODE_DATA2_ceiling_mbps := by
  obtain ⟨e, he⟩ : ∃ e, (d.wr R.SCH_NODE_SELECT_index index).wr R.SCH_NODE_SELECT_level level = e := ⟨_, rfl⟩
  have hrd (f : Field) (hi : f.key 0 0 ≠ R.SCH_NODE_SELECT_index.key 0 0) (hl : f.key 0 0 ≠ R.SCH_NODE_SELECT_level.key 0 0) : e.rd f = d.rd f := by
    rw [← he, Dev.rd_wr_at _ _ _ _ _ _ hl, Dev.rd_wr_at _ _ _ _ _ _ hi]
  have hbusy : ¬ e.on R.SCH_NODE_STATUS_busy = true := by
    rw [Dev.on, hrd _ (by decide) (by decide)]
    exact Bool.not_eq_true _ ▸ hidle
  unfold Dev.selectNode
  rw [he]
  unfold Dev.nodeCommand
  rw [if_neg hbusy]
  refine ⟨_, rfl, by rw [Dev.on, Dev.rd_wr_self]; rfl, rfl, rfl, ?_, ?_, hrd _ (by decide) (by decide),
    congrArg (max 1) (hrd _ (by decide) (by decide)), hrd _ (by decide) (by decide), hrd _ (by decide) (by decide)⟩
  · show e.rd R.SCH_NODE_SELECT_level = level
    rw [← he, Dev.rd_wr_self]
    exact Nat.mod_eq_of_lt hlevel
  · show e.rd R.SCH_NODE_SELECT_index = index
    rw [← he, Dev.rd_wr_at _ _ _ _ _ _ (by decide), Dev.rd_wr_self]
    exact Nat.mod_eq_of_lt hindex

/-- What a node that was read shows in the data registers. -/
def Dev.showNode (n : Node) (d : Dev) : Dev :=
  ((((((d.wr R.SCH_NODE_DATA0_weight n.weight).wr R.SCH_NODE_DATA0_burst_kib n.burst).wr R.SCH_NODE_DATA1_floor_mbps n.floor).wr
    R.SCH_NODE_DATA2_ceiling_mbps n.ceiling).wr R.SCH_NODE_DATA3_mac_instance n.mac).wr R.SCH_NODE_DATA3_mac_valid n.macValid.toNat).wr
    R.SCH_NODE_DATA3_tc n.tc

theorem Dev.rd_showNode (n : Node) (d : Dev) (f : Field) (hoff : f.key 0 0 < R.SCH_NODE_DATA0_weight.key 0 0) : (d.showNode n).rd f = d.rd f := by
  have hne (g : Field) (hg : R.SCH_NODE_DATA0_weight.key 0 0 ≤ g.key 0 0) : f.key 0 0 ≠ g.key 0 0 := by omega
  rw [Dev.showNode, Dev.rd_wr_at _ _ _ _ _ _ (hne _ (by decide)), Dev.rd_wr_at _ _ _ _ _ _ (hne _ (by decide)),
    Dev.rd_wr_at _ _ _ _ _ _ (hne _ (by decide)), Dev.rd_wr_at _ _ _ _ _ _ (hne _ (by decide)), Dev.rd_wr_at _ _ _ _ _ _ (hne _ (by decide)),
    Dev.rd_wr_at _ _ _ _ _ _ (hne _ (by decide)), Dev.rd_wr_at _ _ _ _ _ _ (hne _ (by decide))]

theorem Dev.showNode_shows (n : Node) (d : Dev) :
    (d.showNode n).rd R.SCH_NODE_DATA0_weight = n.weight % 2 ^ R.SCH_NODE_DATA0_weight.width ∧
    (d.showNode n).rd R.SCH_NODE_DATA1_floor_mbps = n.floor % 2 ^ R.SCH_NODE_DATA1_floor_mbps.width ∧
    (d.showNode n).rd R.SCH_NODE_DATA2_ceiling_mbps = n.ceiling % 2 ^ R.SCH_NODE_DATA2_ceiling_mbps.width := by
  unfold Dev.showNode
  refine ⟨?_, ?_, ?_⟩
  · rw [Dev.rd_wr_at _ _ _ _ _ _ (by decide), Dev.rd_wr_at _ _ _ _ _ _ (by decide), Dev.rd_wr_at _ _ _ _ _ _ (by decide),
      Dev.rd_wr_at _ _ _ _ _ _ (by decide), Dev.rd_wr_at _ _ _ _ _ _ (by decide), Dev.rd_wr_at _ _ _ _ _ _ (by decide), Dev.rd_wr_self]
  · rw [Dev.rd_wr_at _ _ _ _ _ _ (by decide), Dev.rd_wr_at _ _ _ _ _ _ (by decide), Dev.rd_wr_at _ _ _ _ _ _ (by decide),
      Dev.rd_wr_at _ _ _ _ _ _ (by decide), Dev.rd_wr_self]
  · rw [Dev.rd_wr_at _ _ _ _ _ _ (by decide), Dev.rd_wr_at _ _ _ _ _ _ (by decide), Dev.rd_wr_at _ _ _ _ _ _ (by decide), Dev.rd_wr_self]

/-- The node command is over, with a result. -/
def Dev.nodeEnded (r : Nat) (d : Dev) : Dev :=
  (({ d with sched := { d.sched with cmd := none } } : Dev).wr R.SCH_NODE_STATUS_busy 0).wr R.SCH_NODE_STATUS_result r

theorem Dev.nodeEnded_shows {r : Nat} (d : Dev) (hr : r ≤ 3) :
    (d.nodeEnded r).rd R.SCH_NODE_STATUS_busy = 0 ∧ (d.nodeEnded r).rd R.SCH_NODE_STATUS_result = r := by
  unfold Dev.nodeEnded
  refine ⟨?_, ?_⟩
  · rw [Dev.rd_wr_at _ _ _ _ _ _ (by decide), Dev.rd_wr_self]
    rfl
  · rw [Dev.rd_wr_self]
    exact Nat.mod_eq_of_lt (lt_of_le_of_lt hr (by decide))

theorem Dev.nodeDone_eq {d : Dev} {c : NodeCmd} (hcmd : d.sched.cmd = some c) :
    d.nodeDone = if d.nodeResult c ≠ 0 then d.nodeEnded (d.nodeResult c)
      else if c.write then { d.nodeEnded (d.nodeResult c) with
        sched := { (d.nodeEnded (d.nodeResult c)).sched with nodes := d.sched.nodes.set (nodeKey c.level c.index) c.node } }
      else (d.nodeEnded (d.nodeResult c)).showNode (d.sched.nodes.getD (nodeKey c.level c.index) {}) := by
  unfold Dev.nodeDone
  rw [hcmd]
  rfl

theorem exec_schNodeCmdDone {s : State} {c : NodeCmd} (h : s.dev.phase = .running) (hcmd : s.dev.sched.cmd = some c) :
    ∃ t, exec .schNodeCmdDone s = .next t ∧ t.dev.sched.cmd = none ∧ t.dev.on R.SCH_NODE_STATUS_busy = false ∧
      t.dev.rd R.SCH_NODE_STATUS_result = s.dev.nodeResult c ∧ s.dev.nodeResult c ≤ 3 ∧
      (s.dev.nodeResult c ≠ 0 ∨ c.write = false → t.dev.sched.nodes = s.dev.sched.nodes) ∧
      (s.dev.nodeResult c = 0 → c.write = true → t.dev.sched.nodes.get? (nodeKey c.level c.index) = some c.node) ∧
      (∀ n, s.dev.nodeResult c = 0 → c.write = false → s.dev.sched.nodes.get? (nodeKey c.level c.index) = some n →
        t.dev.rd R.SCH_NODE_DATA0_weight = n.weight % 2 ^ R.SCH_NODE_DATA0_weight.width ∧
        t.dev.rd R.SCH_NODE_DATA1_floor_mbps = n.floor % 2 ^ R.SCH_NODE_DATA1_floor_mbps.width ∧
        t.dev.rd R.SCH_NODE_DATA2_ceiling_mbps = n.ceiling % 2 ^ R.SCH_NODE_DATA2_ceiling_mbps.width) := by
  have hle := s.dev.nodeResult_le c
  obtain ⟨hbusy, hresult⟩ := s.dev.nodeEnded_shows hle
  refine ⟨_, (State.onRun_running _ h : execSchNodeCmdDone s = _), ?_⟩
  dsimp only
  rw [Dev.nodeDone_eq hcmd, Dev.on]
  by_cases hfail : s.dev.nodeResult c ≠ 0
  · rw [if_pos hfail]
    exact ⟨rfl, by rw [hbusy]; rfl, hresult, hle, fun _ => rfl, fun h0 => absurd h0 hfail, fun _ h0 => absurd h0 hfail⟩
  · rw [if_neg hfail]
    by_cases hwrite : c.write = true
    · rw [if_pos hwrite]
      refine ⟨rfl, (congrArg (· != 0) hbusy :), hresult, hle, fun h' => ?_, fun _ _ => ?_, fun _ _ h' => ?_⟩
      · exact absurd h' (by rw [hwrite]; simpa using hfail)
      · exact (NMap.get?_set ..).trans (if_pos rfl)
      · exact absurd (hwrite.symm.trans h') (by decide)
    · rw [if_neg hwrite]
      refine ⟨rfl, ?_, ?_, hle, fun _ => rfl, fun _ h' => absurd h' hwrite, fun n _ _ hn => ?_⟩
      · rw [Dev.rd_showNode _ _ _ (by decide), hbusy]
        rfl
      · rw [Dev.rd_showNode _ _ _ (by decide), hresult]
      · rw [NMap.getD, hn]
        exact Dev.showNode_shows n _

/-- Settles O49: the bar, the two node commands and their end. -/
theorem scheduler : Obligations.Scheduler := by
  unfold Obligations.Scheduler
  intro s h
  refine ⟨?bar, fun mid level index hlevel hindex hidle => ⟨?read, ?write⟩, fun c hcmd => exec_schNodeCmdDone h hcmd⟩
  case bar => exact ⟨_, (State.onRun_running _ h : execBarStart s = _), s.dev.barOpened_barStart⟩
  case read =>
    obtain ⟨c, hcmd, hbusy, hwrite, hmid, hlevel, hindex, -⟩ := Dev.selectNode_idle (mid := mid) (write := false) hlevel hindex hidle
    exact ⟨_, c, (State.onRun_running _ h : execSchNodeRead mid level index s = _), hcmd, hbusy, hwrite, hmid, hlevel, hindex⟩
  case write =>
    obtain ⟨c, hc⟩ := Dev.selectNode_idle (mid := mid) (write := true) hlevel hindex hidle
    exact ⟨_, c, (State.onRun_running _ h : execSchNodeWrite mid level index s = _), hc⟩

end Sys2Proof.Machine
end

section
/-!
Rules of the match tables (R209-R223).
-/

namespace Sys2Proof.Machine

/-! ## Slots of an exact-match table (R209) -/

theorem Cuckoo.slot_put_self (c : Cuckoo) (i : Nat) (e : MtbEntry) : (c.put i e).slot i = e := by
  unfold Cuckoo.slot Cuckoo.put
  split
  · next h => rw [NMap.getD, NMap.get?_erase, if_pos rfl, h]; rfl
  · exact NMap.getD_set_self ..

theorem Cuckoo.slot_put_ne (c : Cuckoo) {i j : Nat} (e : MtbEntry) (h : j ≠ i) : (c.put i e).slot j = c.slot j := by
  unfold Cuckoo.slot Cuckoo.put
  split
  · rw [NMap.getD, NMap.get?_erase, if_neg h, NMap.getD]
  · rw [NMap.getD, NMap.get?_set, if_neg h, NMap.getD]

@[simp] theorem Dev.cuckoo_setCuckoo (t : Nat) (c : Cuckoo) (d : Dev) : (d.setCuckoo t c).cuckoo t = c := NMap.getD_set_self ..

theorem Dev.cuckoo_congr {d e : Dev} (h : e.mtb.tables = d.mtb.tables) (t : Nat) : e.cuckoo t = d.cuckoo t := by
  rw [Dev.cuckoo, h, Dev.cuckoo]

/-! ## What searches of a table read -/

/-- The keys that the search of a table reads: those of the unit below its ports' registers, and those of the clock. -/
def tableKey (k : Nat) : Prop := k < ((49 * 65536) * 33554432 + 0x1000) * 32 ∨ k / 2 ^ 46 = 128

theorem tableKey_low (f : Field) {a : Nat} (hunit : f.unit = 49) (hoff : f.off + a < 0x1000) (hlsb : f.lsb < 32) : tableKey (f.key 0 a) := by
  left
  simp only [Field.key, hunit]
  omega

theorem not_tableKey_port (f : Field) (p : Nat) (hunit : f.unit = 49) (hlow : 0x1000 ≤ f.off) (hoff : f.off < 0x2000) (hp : p < 16)
    (hlsb : f.lsb < 32) :
    ¬ tableKey (f.key 0 (256 * p)) := by
  simp only [tableKey, Field.key, hunit]
  omega

/-- The entries stand, and so does what a search of a table reads of the registers. -/
structure Dev.tablesStand (d e : Dev) : Prop where
  tables : e.mtb.tables = d.mtb.tables
  regs : d.regsSame tableKey e

namespace Dev.tablesStand

variable {d e : Dev}

theorem of_same (htables : e.mtb.tables = d.mtb.tables) (hregs : e.regs = d.regs) : d.tablesStand e := ⟨htables, Dev.regsSame_of_regs hregs⟩

theorem cuckoo (h : d.tablesStand e) (t : Nat) : e.cuckoo t = d.cuckoo t := Dev.cuckoo_congr h.tables t

variable (h : d.tablesStand e)
include h

theorem rdLow {f : Field} {a : Nat} (hunit : f.unit = 49) (hoff : f.off + a < 0x1000) (hlsb : f.lsb < 32) : e.rd f 0 a = d.rd f 0 a :=
  h.regs.rd (tableKey_low f hunit hoff hlsb)

theorem onLow {f : Field} {a : Nat} (hunit : f.unit = 49) (hoff : f.off + a < 0x1000) (hlsb : f.lsb < 32) : e.on f 0 a = d.on f 0 a :=
  h.regs.on (tableKey_low f hunit hoff hlsb)

theorem tabKind (t : Nat) : e.tabKind t = d.tabKind t := by
  unfold Dev.tabKind
  split
  · next ht => exact h.rdLow rfl (by simp only [R.MTB_TABLE_CFG_kind]; omega) (by decide)
  · rfl

theorem rehashing (t : Nat) : e.rehashing t = d.rehashing t := by
  unfold Dev.rehashing
  rw [h.onLow rfl (by decide) (by decide), h.rdLow rfl (by decide) (by decide)]

theorem stampNow : e.stampNow = d.stampNow := by
  rw [Dev.stampNow, Dev.uptime, h.regs.rd (.inr (by decide)), Dev.stampNow, Dev.uptime]

theorem ageOf (x : MtbEntry) : e.ageOf x = d.ageOf x := by rw [Dev.ageOf, h.stampNow, Dev.ageOf]

variable {t : Nat} (ht : t < 16)
include ht

theorem rdTable {f : Field} (hunit : f.unit = 49) (hoff : f.off < 0x200) (hlsb : f.lsb < 32) : e.rd f 0 (32 * t) = d.rd f 0 (32 * t) :=
  h.rdLow hunit (by omega) hlsb

theorem onTable {f : Field} (hunit : f.unit = 49) (hoff : f.off < 0x200) (hlsb : f.lsb < 32) : e.on f 0 (32 * t) = d.on f 0 (32 * t) :=
  h.onLow hunit (by omega) hlsb

theorem tabKeyLen : e.tabKeyLen t = d.tabKeyLen t := h.rdTable ht rfl (by decide) (by decide)

theorem tabSize : e.tabSize t = d.tabSize t := by rw [Dev.tabSize, h.rdTable ht rfl (by decide) (by decide), Dev.tabSize]

theorem tabWide : e.tabWide t = d.tabWide t := h.onTable ht rfl (by decide) (by decide)

theorem curGen : e.curGen t = d.curGen t := h.rdTable ht rfl (by decide) (by decide)

theorem newGen : e.newGen t = d.newGen t := by rw [Dev.newGen, h.rehashing, h.curGen ht, Dev.newGen]

theorem seeds (g : Nat) : e.seeds t g = d.seeds t g := by
  unfold Dev.seeds
  rw [h.rdTable ht rfl (by decide) (by decide), h.rdTable ht rfl (by decide) (by decide), h.rdTable ht rfl (by decide) (by decide),
    h.rdTable ht rfl (by decide) (by decide)]

theorem buckets (g scope : Nat) (key : List Byte) : e.buckets t g scope key = d.buckets t g scope key := by
  unfold Dev.buckets
  rw [h.tabKeyLen ht, h.seeds ht, h.tabSize ht]

theorem probe (scope : Nat) (key : List Byte) : e.probe t scope key = d.probe t scope key := by
  unfold Dev.probe
  simp only [h.rehashing, h.curGen ht, h.buckets ht]

theorem findKey (scope : Nat) (key : List Byte) : e.findKey t scope key = d.findKey t scope key := by
  have hkey (x : MtbEntry) : e.keyIs t scope key x = d.keyIs t scope key x := by rw [Dev.keyIs, h.tabKeyLen ht, Dev.keyIs]
  unfold Dev.findKey
  rw [h.probe ht]
  simp only [hkey, h.cuckoo]

omit ht in
theorem asRead (bs : List Nat) : e.asRead t bs = d.asRead t bs := by
  unfold Dev.asRead
  rw [h.cuckoo]

omit ht in
theorem stillAsRead (seen : List (Nat × Nat)) : e.stillAsRead t seen = d.stillAsRead t seen := by
  rw [Dev.stillAsRead, h.asRead, Dev.stillAsRead]

theorem otherBucket (g : Nat) (x : MtbEntry) (b : Nat) : e.otherBucket t g x b = d.otherBucket t g x b := by
  unfold Dev.otherBucket
  rw [h.buckets ht]

theorem searchPath (g : Nat) (avoid : List Nat) (fuel b v : Nat) (path : List Nat) :
    e.searchPath t g avoid fuel b v path = d.searchPath t g avoid fuel b v path := by
  induction fuel generalizing b v path with
  | zero => rfl
  | succ fuel ih => simp only [Dev.searchPath, h.cuckoo, h.otherBucket ht, ih]

theorem planNew (avoid : List Nat) (x : MtbEntry) : e.planNew t avoid x = d.planNew t avoid x := by
  unfold Dev.planNew
  simp only [h.newGen ht, h.buckets ht, h.cuckoo, h.asRead, h.searchPath ht]

theorem planKey (x : MtbEntry) : e.planKey t x = d.planKey t x := by
  unfold Dev.planKey
  simp only [h.findKey ht, h.cuckoo, h.asRead, h.planNew ht]

theorem planPut (op : PutOp) (x : MtbEntry) : e.planPut t op x = d.planPut t op x := by
  unfold Dev.planPut
  rw [h.findKey ht, h.planKey ht]

end Dev.tablesStand

theorem Dev.tabKind_lt {d : Dev} {t k : Nat} (h : d.tabKind t = k) (hk : k ≠ 0) : t < 16 := by
  unfold Dev.tabKind at h
  split at h
  · assumption
  · exact absurd h.symm hk

/-- What a plan has read stands until the table changes. -/
theorem Dev.stillAsRead_asRead (d : Dev) (t : Nat) (bs : List Nat) : d.stillAsRead t (d.asRead t bs) = true := by
  have hfst : (d.asRead t bs).map (·.1) = bs := by simp [Dev.asRead, Function.comp_def]
  rw [Dev.stillAsRead, hfst, beq_self_eq_true]

theorem Dev.planNew_stands {d : Dev} {t : Nat} {avoid : List Nat} {e : MtbEntry} {p : MtbPlan} (h : d.planNew t avoid e = some p) :
    d.stillAsRead t p.seen = true := by
  unfold Dev.planNew at h
  dsimp only at h
  split at h
  · obtain rfl := Option.some.inj h
    exact d.stillAsRead_asRead ..
  · split at h
    · obtain rfl := Option.some.inj h
      exact d.stillAsRead_asRead ..
    · obtain ⟨x, -, rfl⟩ := Option.map_eq_some_iff.1 h
      exact d.stillAsRead_asRead ..

theorem Dev.planKey_stands {d : Dev} {t : Nat} {e : MtbEntry} {p : MtbPlan} (h : d.planKey t e = some p) : d.stillAsRead t p.seen = true := by
  unfold Dev.planKey at h
  split at h
  · obtain rfl := Option.some.inj h
    exact d.stillAsRead_asRead ..
  · exact Dev.planNew_stands h

theorem Dev.planPut_stands {d : Dev} {t n : Nat} {op : PutOp} {e : MtbEntry} {p : MtbPlan} (h : d.planPut t op e = (some p, n)) :
    d.stillAsRead t p.seen = true := by
  unfold Dev.planPut at h
  dsimp only at h
  split at h
  · exact absurd (congrArg Prod.fst h) (by simp)
  · split at h
    · exact absurd (congrArg Prod.fst h) (by simp)
    · exact Dev.planKey_stands (congrArg Prod.fst h)

/-! ## A port takes a command (R221) -/

/-- Port `p` shows that it is busy, without overrun. -/
def Dev.portTaken (p : Nat) (d : Dev) : Dev := (d.wr R.MTB_CMD_STATUS_busy 1 0 (256 * p)).wr R.MTB_CMD_STATUS_overrun 0 0 (256 * p)

/-- Port `p` holds a command's run. -/
def Dev.holdsRun (p : Nat) (r : PortRun) (d : Dev) : Dev := d.onMtb (fun m => { m with runs := m.runs.set p r })

/-- The device once port `p` has run `act`. -/
def Dev.portRan (p : Nat) (irq : Bool) (act : Dev → PortRun × Dev) (d : Dev) : Dev :=
  (act (d.portTaken p)).2.holdsRun p { (act (d.portTaken p)).1 with irq := irq }

theorem Dev.runPort_taken {d : Dev} {mid p : Nat} (h : d.portTakes mid p) (irq : Bool) (act : Dev → PortRun × Dev) :
    d.runPort mid p irq act = d.portRan p irq act := by
  obtain ⟨hp, hmid, hidle⟩ := h
  unfold Dev.runPort
  have hmid' : mid = midFn p := hmid
  rw [if_neg (by omega), if_neg (not_not.2 hmid'), hidle, if_neg Bool.false_ne_true]
  rfl

theorem exec_port {mid p : Nat} {s : State} (h : s.dev.phase = .running) (ht : s.dev.portTakes mid p) (irq : Bool) (act : Dev → PortRun × Dev) :
    s.onRun (Dev.runPort mid p irq act) = .next { s with dev := s.dev.portRan p irq act } := by
  rw [State.onRun_running _ h, Dev.runPort_taken ht]

section
variable {p : Nat} (d : Dev)

theorem Dev.portTaken_mtb : (d.portTaken p).mtb = d.mtb := rfl

theorem Dev.rd_portTaken (f : Field) (i a : Nat) (hbusy : f.key i a ≠ R.MTB_CMD_STATUS_busy.key 0 (256 * p))
    (hover : f.key i a ≠ R.MTB_CMD_STATUS_overrun.key 0 (256 * p)) : (d.portTaken p).rd f i a = d.rd f i a := by
  rw [Dev.portTaken, Dev.rd_wr_ne _ _ _ _ _ _ _ _ hover, Dev.rd_wr_ne _ _ _ _ _ _ _ _ hbusy]

theorem Dev.portTaken_busy : (d.portTaken p).on R.MTB_CMD_STATUS_busy 0 (256 * p) = true := by
  rw [Dev.portTaken, Dev.on, Dev.rd_wr_at _ _ _ _ _ _ (by decide), Dev.rd_wr_self]
  rfl

theorem Dev.portTaken_stands (hp : p < 16) : d.tablesStand (d.portTaken p) :=
  ⟨rfl, (d.regsSame_refl.wr _ _ _ _ (not_tableKey_port _ p rfl (by decide) (by decide) hp (by decide))).wr _ _ _ _
    (not_tableKey_port _ p rfl (by decide) (by decide) hp (by decide))⟩

theorem Dev.window_portTaken : (d.portTaken p).window p = d.window p := by
  unfold Dev.window
  congr 1
  funext n
  rw [Dev.rd_portTaken]
  · simp only [Field.key, R.MTB_CMD_DATA_data, R.MTB_CMD_STATUS_busy]
    omega
  · simp only [Field.key, R.MTB_CMD_DATA_data, R.MTB_CMD_STATUS_overrun]
    omega

theorem Dev.rd_portTaken_at (f : Field) (hbusy : f.key 0 0 ≠ R.MTB_CMD_STATUS_busy.key 0 0) (hover : f.key 0 0 ≠ R.MTB_CMD_STATUS_overrun.key 0 0) :
    (d.portTaken p).rd f 0 (256 * p) = d.rd f 0 (256 * p) := by
  rw [Dev.portTaken, Dev.rd_wr_at _ _ _ _ _ _ hover, Dev.rd_wr_at _ _ _ _ _ _ hbusy]

theorem Dev.argIndex_portTaken : (d.portTaken p).argIndex p = d.argIndex p := d.rd_portTaken_at _ (by decide) (by decide)

theorem Dev.argSlot_portTaken : (d.portTaken p).argSlot p = d.argSlot p := d.rd_portTaken_at _ (by decide) (by decide)

theorem Dev.windowEntry_portTaken {t : Nat} (hp : p < 16) (ht : t < 16) : (d.portTaken p).windowEntry p t = d.windowEntry p t := by
  unfold Dev.windowEntry
  rw [Dev.window_portTaken, (d.portTaken_stands hp).stampNow, (d.portTaken_stands hp).tabKeyLen ht]

theorem Dev.stage_portTaken (n : Nat) : (d.portTaken p).stage p n = d.stage p n := rfl

end

/-! ## The end of a port's command (R222, R223) -/

/-- What the end of a command posts of the place that it found. -/
def Dev.postPlace (p : Nat) (r : PortRun) (d : Dev) : Dev :=
  match r.place with
  | some (i, b1) =>
    (((d.wr R.MTB_CMD_WHERE_bucket (i / 4) 0 (256 * p)).wr R.MTB_CMD_WHERE_slot (i % 4) 0 (256 * p)).wr R.MTB_CMD_WHERE_gen r.gen 0 (256 * p)).wr
      R.MTB_CMD_WHERE_in_b1 b1.toNat 0 (256 * p)
  | none => d

def Dev.postAge (p : Nat) (r : PortRun) (d : Dev) : Dev :=
  match r.age with
  | some v => d.wr R.MTB_CMD_AGE_age_ms v 0 (256 * p)
  | none => d

def Dev.postWindow (p : Nat) (r : PortRun) (d : Dev) : Dev :=
  match r.window with
  | some b => d.setWindow p b
  | none => d

/-- The port shows that its command has ended, and how. -/
def Dev.postStatus (p : Nat) (r : PortRun) (d : Dev) : Dev :=
  (((d.onMtb (fun m => { m with runs := m.runs.erase p })).wr R.MTB_CMD_STATUS_busy 0 0 (256 * p)).wr R.MTB_CMD_STATUS_result r.result 0
    (256 * p)).wr R.MTB_CMD_STATUS_steps r.steps 0 (256 * p)

theorem Dev.postRun_eq (p : Nat) (r : PortRun) (d : Dev) :
    d.postRun p r = if r.irq then ((((d.postStatus p r).postPlace p r).postAge p r).postWindow p r).cause mtbCauses 12
      else (((d.postStatus p r).postPlace p r).postAge p r).postWindow p r := rfl

theorem Dev.setWindow_mtb (p : Nat) (b : List Byte) (d : Dev) : (d.setWindow p b).mtb = d.mtb :=
  Dev.each_induct (fun e => e.mtb = d.mtb) _ _ _ rfl fun _ _ he => he

theorem Dev.postRun_mtb (p : Nat) (r : PortRun) (d : Dev) : (d.postRun p r).mtb = { d.mtb with runs := d.mtb.runs.erase p } := by
  have hplace (e : Dev) : (e.postPlace p r).mtb = e.mtb := by
    unfold Dev.postPlace
    split <;> rfl
  have hage (e : Dev) : (e.postAge p r).mtb = e.mtb := by
    unfold Dev.postAge
    split <;> rfl
  have hwindow (e : Dev) : (e.postWindow p r).mtb = e.mtb := by
    unfold Dev.postWindow
    split
    · exact e.setWindow_mtb ..
    · rfl
  have hall : ((((d.postStatus p r).postPlace p r).postAge p r).postWindow p r).mtb = { d.mtb with runs := d.mtb.runs.erase p } := by
    rw [hwindow, hage, hplace]
    rfl
  rw [Dev.postRun_eq]
  split
  · rw [Dev.mtb_of_besides (Dev.cause_besides _ _ _ _ (List.Subset.refl _)), hall]
  · exact hall

theorem Dev.postRun_tables (p : Nat) (r : PortRun) (d : Dev) : (d.postRun p r).mtb.tables = d.mtb.tables := by rw [Dev.postRun_mtb]

theorem Dev.postRun_runs (p : Nat) (r : PortRun) (d : Dev) : (d.postRun p r).mtb.runs.get? p = none := by
  rw [Dev.postRun_mtb]
  exact (NMap.get?_erase ..).trans (if_pos rfl)

section
variable {p : Nat} (hp : p < 16)
include hp

/-- A port's register, but its data window, after the end: as the status, the place and the age were posted. -/
theorem Dev.rd_postRun (r : PortRun) (d : Dev) {f : Field} (hunit : f.unit = 49) (hlow : 0x1000 ≤ f.off) (hoff : f.off < 0x1040)
    (hlsb : f.lsb < 32) :
    (d.postRun p r).rd f 0 (256 * p) = (((d.postStatus p r).postPlace p r).postAge p r).rd f 0 (256 * p) := by
  have hwindow (e : Dev) : (e.postWindow p r).rd f 0 (256 * p) = e.rd f 0 (256 * p) := by
    unfold Dev.postWindow
    split
    · refine Dev.each_induct (fun x => x.rd f 0 (256 * p) = e.rd f 0 (256 * p)) _ _ _ rfl fun n x hx => ?_
      rw [Dev.rd_wr_ne, hx]
      simp only [Field.key, hunit, R.MTB_CMD_DATA_data]
      omega
    · rfl
  rw [Dev.postRun_eq]
  split
  · rw [Dev.rd_cause_ne _ _ _ _ _ _ _ (by simp only [Field.key, hunit, Causes.bit, mtbCauses]; omega), hwindow]
  · exact hwindow _

theorem Dev.rd_postRun_status (r : PortRun) (d : Dev) {f : Field} (hunit : f.unit = 49) (hoff : f.off = 0x1008) (hlsb : f.lsb < 32) :
    (d.postRun p r).rd f 0 (256 * p) = (d.postStatus p r).rd f 0 (256 * p) := by
  have hne (g : Field) (hg : g.unit = 49) (hgoff : g.off = 0x100C ∨ g.off = 0x1010) (hglsb : g.lsb < 32) : f.key 0 0 ≠ g.key 0 0 := by
    simp only [Field.key, hunit, hg, hoff]
    omega
  have hplace (e : Dev) : (e.postPlace p r).rd f 0 (256 * p) = e.rd f 0 (256 * p) := by
    unfold Dev.postPlace
    split
    · rw [Dev.rd_wr_at _ _ _ _ _ _ (hne _ rfl (by decide) (by decide)), Dev.rd_wr_at _ _ _ _ _ _ (hne _ rfl (by decide) (by decide)),
        Dev.rd_wr_at _ _ _ _ _ _ (hne _ rfl (by decide) (by decide)), Dev.rd_wr_at _ _ _ _ _ _ (hne _ rfl (by decide) (by decide))]
    · rfl
  have hage (e : Dev) : (e.postAge p r).rd f 0 (256 * p) = e.rd f 0 (256 * p) := by
    unfold Dev.postAge
    split
    · exact Dev.rd_wr_at _ _ _ _ _ _ (hne _ rfl (by decide) (by decide))
    · rfl
  rw [Dev.rd_postRun hp r d hunit (by omega) (by omega) hlsb, hage, hplace]

theorem Dev.postRun_busy (r : PortRun) (d : Dev) : (d.postRun p r).rd R.MTB_CMD_STATUS_busy 0 (256 * p) = 0 := by
  rw [Dev.rd_postRun_status hp r d rfl rfl (by decide), Dev.postStatus, Dev.rd_wr_at _ _ _ _ _ _ (by decide), Dev.rd_wr_at _ _ _ _ _ _ (by decide),
    Dev.rd_wr_self]
  rfl

theorem Dev.postRun_result {r : PortRun} (d : Dev) (hr : r.result < 16) : (d.postRun p r).rd R.MTB_CMD_STATUS_result 0 (256 * p) = r.result := by
  rw [Dev.rd_postRun_status hp r d rfl rfl (by decide), Dev.postStatus, Dev.rd_wr_at _ _ _ _ _ _ (by decide), Dev.rd_wr_self]
  exact Nat.mod_eq_of_lt hr

theorem Dev.postRun_steps {r : PortRun} (d : Dev) (hr : r.steps < 64) : (d.postRun p r).rd R.MTB_CMD_STATUS_steps 0 (256 * p) = r.steps := by
  rw [Dev.rd_postRun_status hp r d rfl rfl (by decide), Dev.postStatus, Dev.rd_wr_self]
  exact Nat.mod_eq_of_lt hr

/-- The place that a command found, in MTB_CMD_WHERE. -/
theorem Dev.postRun_where {r : PortRun} (d : Dev) {k : Nat} {b1 : Bool} (hplace : r.place = some (k, b1)) :
    (d.postRun p r).rd R.MTB_CMD_WHERE_bucket 0 (256 * p) = k / 4 % 2 ^ R.MTB_CMD_WHERE_bucket.width ∧
    (d.postRun p r).rd R.MTB_CMD_WHERE_slot 0 (256 * p) = k % 4 ∧
    (d.postRun p r).rd R.MTB_CMD_WHERE_gen 0 (256 * p) = r.gen % 2 ^ R.MTB_CMD_WHERE_gen.width ∧
    (d.postRun p r).rd R.MTB_CMD_WHERE_in_b1 0 (256 * p) = b1.toNat := by
  have hrd (f : Field) (hunit : f.unit = 49) (hoff : f.off = 0x100C) (hlsb : f.lsb < 32) :
      (d.postRun p r).rd f 0 (256 * p) = ((d.postStatus p r).postPlace p r).rd f 0 (256 * p) := by
    rw [Dev.rd_postRun hp r d hunit (by omega) (by omega) hlsb]
    unfold Dev.postAge
    split
    · refine Dev.rd_wr_at _ _ _ _ _ _ ?_
      simp only [Field.key, hunit, hoff, R.MTB_CMD_AGE_age_ms]
      omega
    · rfl
  rw [hrd _ rfl rfl (by decide), hrd _ rfl rfl (by decide), hrd _ rfl rfl (by decide), hrd _ rfl rfl (by decide)]
  unfold Dev.postPlace
  rw [hplace]
  dsimp only
  refine ⟨?_, ?_, ?_, ?_⟩
  · rw [Dev.rd_wr_at _ _ _ _ _ _ (by decide), Dev.rd_wr_at _ _ _ _ _ _ (by decide), Dev.rd_wr_at _ _ _ _ _ _ (by decide), Dev.rd_wr_self]
  · rw [Dev.rd_wr_at _ _ _ _ _ _ (by decide), Dev.rd_wr_at _ _ _ _ _ _ (by decide), Dev.rd_wr_self]
    exact Nat.mod_mod _ _
  · rw [Dev.rd_wr_at _ _ _ _ _ _ (by decide), Dev.rd_wr_self]
  · rw [Dev.rd_wr_self]
    cases b1 <;> rfl

theorem portPosted_postRun (s : State) {r : PortRun} (d : Dev) (hr : r.result < 16) :
    portPosted p r.result r.place r.gen { s with dev := d.postRun p r } :=
  ⟨Dev.postRun_runs .., Dev.postRun_busy hp r d, Dev.postRun_result hp d hr, fun _ _ hplace => Dev.postRun_where hp d hplace⟩

end

theorem exec_mtbCommandDone {s : State} (p : Nat) (h : s.dev.phase = .running) : exec
    (.mtbCommandDone p) s = .next { s with dev := s.dev.portDone p } :=
  State.onRun_running _ h

/-- The end of a command that has nothing to write. -/
theorem Dev.portDone_ran {d : Dev} {p : Nat} {r : PortRun} (hrun : d.mtb.runs.get? p = some r)
    (hput : r.put = none) : d.portDone p = d.postRun p r := by
  unfold Dev.portDone
  rw [hrun]
  dsimp only
  rw [hput]

end Sys2Proof.Machine
end

section
/-!
Commands on exact-match tables (R218, R222).
-/

namespace Sys2Proof.Machine

/-! ## Commands on a table (R222) -/

theorem Dev.onTable_takes {d : Dev} {t kind : Nat} (h : d.tableTakes t kind) (writes : Bool) (act : Dev → PortRun × Dev) :
    d.onTable t kind writes act = ({ (act d).1 with table := t }, (act d).2) := by
  obtain ⟨hkind, hwrite⟩ := h
  unfold Dev.onTable
  rw [if_neg (not_not.2 hkind), hwrite, Bool.not_true, Bool.and_false, if_neg Bool.false_ne_true]

theorem Dev.tableTakes_portTaken {d : Dev} {p t kind : Nat} (hp : p < 16) (hkind : kind ≠ 0) (h : d.tableTakes t kind) :
    (d.portTaken p).tableTakes t kind :=
  ⟨((d.portTaken_stands hp).tabKind t).trans h.1, ((d.portTaken_stands hp).onTable (Dev.tabKind_lt h.1 hkind) rfl (by decide) (by decide)).trans h.2⟩

/-- What the port of a command on a table leaves. -/
theorem exec_portOnTable {mid p t kind : Nat} {s : State} (h : s.dev.phase = .running) (hp : s.dev.portTakes mid p) (hkind : kind ≠ 0)
    (ht : s.dev.tableTakes t kind) (irq writes : Bool) (act : Dev → PortRun × Dev) :
    s.onRun (Dev.runPort mid p irq (Dev.onTable t kind writes act)) = .next { s with
      dev := (act (s.dev.portTaken p)).2.holdsRun p { (act (s.dev.portTaken p)).1 with table := t, irq := irq } } := by
  rw [exec_port h hp, Dev.portRan, Dev.onTable_takes (Dev.tableTakes_portTaken hp.1 hkind ht)]

theorem Dev.holdsRun_runs (p : Nat) (r : PortRun) (d : Dev) : (d.holdsRun p r).mtb.runs.get? p = some r := (NMap.get?_set ..).trans (if_pos rfl)

/-- A command that leaves the table and the registers. -/
theorem exec_portOnTable_asks {mid p t kind : Nat} {s : State} (h : s.dev.phase = .running) (hp : s.dev.portTakes mid p) (hkind : kind ≠ 0)
    (ht : s.dev.tableTakes t kind) (irq writes : Bool) {act : Dev → PortRun × Dev} {r : PortRun} (hact : act (s.dev.portTaken p) = (r,
        s.dev.portTaken p)) :
    ∃ s', s.onRun (Dev.runPort mid p irq (Dev.onTable t kind writes act)) = .next s' ∧ sameTable t s s' ∧ s'.dev.mtb.direct = s.dev.mtb.direct ∧
      portRuns p { r with table := t, irq := irq } s' := by
  refine ⟨_, exec_portOnTable h hp hkind ht irq writes act, ?_⟩
  rw [hact]
  exact ⟨rfl, rfl, Dev.holdsRun_runs .., s.dev.portTaken_busy⟩

/-! ## Inserts, writes and deletes (R216, R217, R222) -/

/-- The table once a plan is carried out. -/
def Dev.putTable (t : Nat) (op : PutOp) (e : MtbEntry) (pl : MtbPlan) (d : Dev) : Cuckoo :=
  if op = .delete then (d.cuckoo t).erase pl.place.1
  else if pl.found then
    (d.cuckoo t).put pl.place.1 { e with gen := ((d.cuckoo t).slot pl.place.1).gen, lastHit := ((d.cuckoo t).slot pl.place.1).lastHit, table := t }
  else ((d.cuckoo t).doSiDo pl.gen pl.path pl.free).put pl.place.1 { e with gen := pl.gen, table := t }

theorem Dev.putNow_eq (t : Nat) (op : PutOp) (e : MtbEntry) (pl : MtbPlan) (d : Dev) : d.putNow t op e pl =
    ({ place := some pl.place, gen := pl.gen, steps := pl.path.length }, d.setCuckoo t (d.putTable t op e pl)) := by
  unfold Dev.putNow Dev.putTable Dev.carryOut
  split
  · rfl
  · split <;> rfl

theorem Dev.putTable_congr {d e : Dev} (h : e.mtb.tables = d.mtb.tables) (t : Nat) (op : PutOp) (x : MtbEntry) (pl : MtbPlan) :
    e.putTable t op x pl = d.putTable t op x pl := by
  unfold Dev.putTable
  rw [Dev.cuckoo_congr h]

/-- The end of a command whose plan still stands carries it out. -/
theorem Dev.portDone_put {d : Dev} {p : Nat} {r : PortRun} {q : Put} {pl : MtbPlan} (hrun : d.mtb.runs.get? p = some r) (hput : r.put = some q)
    (hplan : q.plan = some pl) (hstands : d.stillAsRead r.table pl.seen = true) :
    d.portDone p = (d.setCuckoo r.table (d.putTable r.table q.op q.entry pl)).postRun p
      { place := some pl.place, gen := pl.gen, steps := pl.path.length, table := r.table, irq := r.irq } := by
  have hretry : d.retryPut r.table q = d.putNow r.table q.op q.entry pl := by
    unfold Dev.retryPut
    rw [hplan]
    dsimp only
    rw [if_pos hstands]
  have hready : (q.plan.isNone && d.engineBusy) = false := by rw [hplan, Option.isNone_some, Bool.false_and]
  unfold Dev.portDone
  rw [hrun]
  dsimp only
  rw [hput]
  dsimp only
  rw [hready, if_neg Bool.false_ne_true, hretry, Dev.putNow_eq]
  rfl

/-- A port that holds a command with its plan, on a device whose tables are those that the plan has read. -/
theorem Dev.portDone_holds {d e : Dev} {p t : Nat} {irq : Bool} {q : Put} {pl : MtbPlan} (htables : e.mtb.tables = d.mtb.tables)
    (hstands : d.stillAsRead t pl.seen = true) (hplan : q.plan = some pl) :
    ∃ x : Dev, (e.holdsRun p { table := t, irq := irq, put := some q }).portDone p =
        x.postRun p { place := some pl.place, gen := pl.gen, steps := pl.path.length, table := t, irq := irq } ∧
      x.cuckoo t = d.putTable t q.op q.entry pl := by
  have hheld : (e.holdsRun p { table := t, irq := irq, put := some q }).mtb.tables = d.mtb.tables := htables
  have hstands' : (e.holdsRun p { table := t, irq := irq, put := some q }).stillAsRead t pl.seen = true := by
    rw [← hstands, Dev.stillAsRead, Dev.stillAsRead, Dev.asRead, Dev.asRead, Dev.cuckoo_congr hheld]
  refine ⟨_, Dev.portDone_put (Dev.holdsRun_runs ..) rfl hplan hstands', ?_⟩
  exact (Dev.cuckoo_setCuckoo ..).trans (Dev.putTable_congr hheld ..)

section
variable {mid p : Nat} {c : MtbCmd} {s : State} (h : s.dev.phase = .running) (hp : s.dev.portTakes mid p) (ht : s.dev.tableTakes c.table 1)

/-- The command's plan, on the device with its port taken. -/
theorem Dev.planPut_portTaken {d : Dev} {p t : Nat} (hp : p < 16) (ht : t < 16) (op : PutOp) (e : MtbEntry) :
    (d.portTaken p).planPut t op e = d.planPut t op e := (d.portTaken_stands hp).planPut ht op e

theorem Dev.startPut_planned {d : Dev} {p t n : Nat} {op : PutOp} {pl : MtbPlan} (hp : p < 16) (ht : t < 16) (hfree : d.engineBusy = false)
    (hplan : d.planPut t op (d.windowEntry p t) = (some pl, n)) : (d.portTaken p).startPut p t op =
      if (d.portTaken p).free.1 % 3 = 0 then (d.portTaken p).free.2.putNow t op (d.windowEntry p t) pl
      else ({ put := some { op := op, entry := d.windowEntry p t, plan := some pl, locked := (d.portTaken p).free.1 % 3 == 1 } },
          (d.portTaken p).free.2) := by
  have hfree' : ¬ (d.portTaken p).engineBusy = true := by
    rw [Dev.engineBusy, Dev.portTaken_mtb, ← Dev.engineBusy, hfree]
    exact Bool.false_ne_true
  unfold Dev.startPut
  rw [if_neg hfree', Dev.windowEntry_portTaken _ hp ht, Dev.planPut_portTaken hp ht, hplan]

theorem Dev.startPut_unplanned {d : Dev} {p t n : Nat} {op : PutOp} (hp : p < 16) (ht : t < 16) (hfree : d.engineBusy = false)
    (hplan : d.planPut t op (d.windowEntry p t) = (none, n)) : (d.portTaken p).startPut p t op = (d.portTaken p).endPut t n := by
  have hfree' : ¬ (d.portTaken p).engineBusy = true := by
    rw [Dev.engineBusy, Dev.portTaken_mtb, ← Dev.engineBusy, hfree]
    exact Bool.false_ne_true
  unfold Dev.startPut
  rw [if_neg hfree', Dev.windowEntry_portTaken _ hp ht, Dev.planPut_portTaken hp ht, hplan]

include h hp ht

/-- A command with a plan: whether it writes at once or at its end, the plan has been carried out by its end, and its place is posted. -/
theorem put_ends {op : PutOp} {i : Instr} {n : Nat} {pl : MtbPlan}
    (hi : exec i s = s.onRun (Dev.runPort mid p c.irq (Dev.onTable c.table 1 true (Dev.startPut p c.table op)))) (hfree : s.dev.engineBusy = false)
    (hplan : s.dev.planPut c.table op (s.dev.windowEntry p c.table) = (some pl, n)) :
    ∃ t, portEnds p i s t ∧ portPosted p 0 (some pl.place) pl.gen t ∧
      t.dev.cuckoo c.table = s.dev.putTable c.table op (s.dev.windowEntry p c.table) pl := by
  have hlt := Dev.tabKind_lt ht.1 (by decide)
  rw [exec_portOnTable h hp (by decide) ht, Dev.startPut_planned hp.1 hlt hfree hplan] at hi
  have hstands := Dev.planPut_stands hplan
  by_cases hnow : (s.dev.portTaken p).free.1 % 3 = 0
  · rw [if_pos hnow, Dev.putNow_eq, Dev.putTable_congr (d := s.dev) (e := (s.dev.portTaken p).free.2) rfl] at hi
    refine ⟨_, ⟨_, hi, s.dev.portTaken_busy, exec_mtbCommandDone p h⟩, ?_⟩
    dsimp only
    rw [Dev.portDone_ran (Dev.holdsRun_runs ..) rfl]
    refine ⟨portPosted_postRun hp.1 _ _ (Nat.succ_pos 15), (Dev.cuckoo_congr (Dev.postRun_tables ..) _).trans ?_⟩
    exact Dev.cuckoo_setCuckoo ..
  · rw [if_neg hnow] at hi
    refine ⟨_, ⟨_, hi, s.dev.portTaken_busy, exec_mtbCommandDone p h⟩, ?_⟩
    dsimp only
    obtain ⟨x, hdone, htable⟩ := Dev.portDone_holds (p := p) (e := (s.dev.portTaken p).free.2) (irq := c.irq)
      (q := { op := op, entry := s.dev.windowEntry p c.table, plan := some pl, locked := (s.dev.portTaken p).free.1 % 3 == 1 }) rfl hstands rfl
    rw [hdone]
    exact ⟨portPosted_postRun hp.1 _ _ (Nat.succ_pos 15), (Dev.cuckoo_congr (Dev.postRun_tables ..) _).trans htable⟩

/-- A command without a plan ends at its search. -/
theorem put_unplanned {op : PutOp} {i : Instr} {n : Nat}
    (hi : exec i s = s.onRun (Dev.runPort mid p c.irq (Dev.onTable c.table 1 true (Dev.startPut p c.table op)))) (hfree : s.dev.engineBusy = false)
    (hplan : s.dev.planPut c.table op (s.dev.windowEntry p c.table) = (none, n)) :
    exec i s = .next { s with dev := ((s.dev.portTaken p).endPut c.table n).2.holdsRun p { table := c.table, irq := c.irq, result := n } } := by
  have hlt := Dev.tabKind_lt ht.1 (by decide)
  rw [hi, exec_portOnTable h hp (by decide) ht, Dev.startPut_unplanned hp.1 hlt hfree hplan]
  rfl

/-- Results 1 and 2 change nothing. -/
theorem put_refused {op : PutOp} {i : Instr} {n : Nat}
    (hi : exec i s = s.onRun (Dev.runPort mid p c.irq (Dev.onTable c.table 1 true (Dev.startPut p c.table op)))) (hfree : s.dev.engineBusy = false)
    (hplan : s.dev.planPut c.table op (s.dev.windowEntry p c.table) = (none, n)) (hn : n ≠ 3) :
    ∃ s', exec i s = .next s' ∧ sameTable c.table s s' ∧ portRuns p { table := c.table, irq := c.irq, result := n } s' := by
  refine ⟨_, put_unplanned h hp ht hi hfree hplan, ?_⟩
  rw [Dev.endPut, if_neg hn]
  exact ⟨rfl, Dev.holdsRun_runs .., s.dev.portTaken_busy⟩

omit h hp ht in
/-- A failed insertion shows itself, and leaves the tables and the ports (R218). -/
theorem Dev.insertFailed_shows (t : Nat) (fromLearn : Bool) (d : Dev) {p : Nat} (hp : p < 16) :
    (d.insertFailed t fromLearn).mtb = d.mtb ∧ (d.insertFailed t fromLearn).on (mtbCauses.bit 0) = true ∧
    (d.insertFailed t fromLearn).on R.MTB_REHASH_REQ_valid = true ∧
    (d.insertFailed t fromLearn).on R.MTB_CMD_STATUS_busy 0 (256 * p) = d.on R.MTB_CMD_STATUS_busy 0 (256 * p) := by
  obtain ⟨e, he⟩ : ∃ e, d.bump R.MTB_INSERT_FAILS_count = e := ⟨_, rfl⟩
  obtain ⟨x, hx⟩ : ∃ x, (if e.on R.MTB_REHASH_REQ_valid then e
    else ((e.wr R.MTB_REHASH_REQ_table t).wr R.MTB_REHASH_REQ_from_learn fromLearn.toNat).wr R.MTB_REHASH_REQ_valid 1) = x := ⟨_, rfl⟩
  have hfail : d.insertFailed t fromLearn = x.cause mtbCauses 0 := by rw [← hx, ← he]; rfl
  have hmtb : x.mtb = d.mtb := by
    rw [← hx, ← he]
    split <;> rfl
  have hvalid : x.on R.MTB_REHASH_REQ_valid = true := by
    rw [← hx]
    split
    · assumption
    · rw [Dev.on, Dev.rd_wr_self]
      rfl
  have hlow (f : Field) (hunit : f.unit = 49) (hoff : f.off < 0x1000) (hlsb : f.lsb < 32) :
      R.MTB_CMD_STATUS_busy.key 0 (256 * p) ≠ f.key 0 0 := by
    simp only [Field.key, hunit, R.MTB_CMD_STATUS_busy]
    omega
  have hbusy : x.rd R.MTB_CMD_STATUS_busy 0 (256 * p) = d.rd R.MTB_CMD_STATUS_busy 0 (256 * p) := by
    have hbump : e.rd R.MTB_CMD_STATUS_busy 0 (256 * p) = d.rd R.MTB_CMD_STATUS_busy 0 (256 * p) := by
      rw [← he]
      exact Dev.rd_wr_ne _ _ _ _ _ _ _ _ (hlow _ rfl (by decide) (by decide))
    rw [← hx, ← hbump]
    split
    · rfl
    · rw [Dev.rd_wr_ne _ _ _ _ _ _ _ _ (hlow _ rfl (by decide) (by decide)), Dev.rd_wr_ne _ _ _ _ _ _ _ _ (hlow _ rfl (by decide) (by decide)),
        Dev.rd_wr_ne _ _ _ _ _ _ _ _ (hlow _ rfl (by decide) (by decide))]
  rw [hfail]
  refine ⟨(Dev.mtb_of_besides (Dev.cause_besides _ _ _ _ (List.Subset.refl _))).trans hmtb, Dev.cause_on .., ?_, ?_⟩
  · rw [Dev.on, Dev.rd_cause_at _ _ _ _ _ (by decide)]
    exact hvalid
  · rw [Dev.on, Dev.rd_cause_ne _ _ _ _ _ _ _ (hlow _ rfl (by decide) (by decide)), hbusy, Dev.on]

/-- Result 3 asks for a rehash. -/
theorem put_noPlace {op : PutOp} {i : Instr}
    (hi : exec i s = s.onRun (Dev.runPort mid p c.irq (Dev.onTable c.table 1 true (Dev.startPut p c.table op)))) (hfree : s.dev.engineBusy = false)
    (hplan : s.dev.planPut c.table op (s.dev.windowEntry p c.table) = (none, 3)) :
    ∃ s', exec i s = .next s' ∧ sameTable c.table s s' ∧ s'.dev.on (mtbCauses.bit 0) = true ∧
      portRuns p { table := c.table, irq := c.irq, result := 3 } s' ∧ s'.dev.on R.MTB_REHASH_REQ_valid = true := by
  refine ⟨_, put_unplanned h hp ht hi hfree hplan, ?_⟩
  rw [Dev.endPut, if_pos rfl]
  dsimp only
  obtain ⟨hmtb, hcause, hvalid, hbusy⟩ := Dev.insertFailed_shows c.table false (s.dev.portTaken p) hp.1
  generalize (s.dev.portTaken p).insertFailed c.table false = e at hmtb hcause hvalid hbusy
  exact ⟨Dev.cuckoo_congr (by rw [Dev.holdsRun, Dev.onMtb, hmtb]; rfl) _, hcause, ⟨Dev.holdsRun_runs .., hbusy.trans s.dev.portTaken_busy⟩, hvalid⟩

end

/-! ## The plans -/

section
variable {d : Dev} {t : Nat} {e : MtbEntry}

theorem Dev.planNew_free {k : Nat} (hfree : (d.cuckoo t).freeSlot [] (d.buckets t (d.newGen t) e.scope e.key).2.1 = some k) :
    ∃ seen, d.planNew t [] e = some { place := (k, false), free := k, gen := d.newGen t, seen := seen } := by
  unfold Dev.planNew
  dsimp only
  rw [hfree]
  exact ⟨_, rfl⟩

theorem Dev.planPut_absent {op : PutOp} (hnow : d.findKey t e.scope e.key = none) (hop : op ≠ .delete) :
    d.planPut t op e = (d.planNew t [] e, 3) := by
  unfold Dev.planPut
  rw [hnow, Option.isSome_none, if_neg (by simp), if_neg (by simp [hop]), Dev.planKey, hnow]

theorem Dev.planPut_present {op : PutOp} {k : Nat} {b1 : Bool} (hnow : d.findKey t e.scope e.key = some (k, b1)) (hop : op ≠ .insert) :
    d.planPut t op e = (some { place := (k, b1), found := true, free := k, gen := ((d.cuckoo t).slot k).gen, seen := d.asRead t [k / 4] }, 3) := by
  unfold Dev.planPut
  rw [hnow, Option.isSome_some, if_neg (by simp [hop]), if_neg (by simp), Dev.planKey, hnow]

theorem Dev.planPut_insert_present {k : Nat} {b1 : Bool} (hnow : d.findKey t e.scope e.key = some (k, b1)) : d.planPut t .insert e = (none, 2) := by
  unfold Dev.planPut
  rw [hnow, Option.isSome_some, if_pos ⟨rfl, rfl⟩]

theorem Dev.planPut_delete_absent (hnow : d.findKey t e.scope e.key = none) : d.planPut t .delete e = (none, 1) := by
  unfold Dev.planPut
  rw [hnow, Option.isSome_none, if_neg (by simp), if_pos ⟨rfl, rfl⟩]

end

section
variable {mid p : Nat} {c : MtbCmd} {s : State} (h : s.dev.phase = .running) (hp : s.dev.portTakes mid p) (ht : s.dev.tableTakes c.table 1)
include h hp ht

/-- A key that is absent takes the lowest free slot of its first bucket. -/
theorem put_takesFree {op : PutOp} {i : Instr} {k : Nat}
    (hi : exec i s = s.onRun (Dev.runPort mid p c.irq (Dev.onTable c.table 1 true (Dev.startPut p c.table op)))) (hfree : s.dev.engineBusy = false)
    (hop : op ≠ .delete) (hnow : s.dev.findKey c.table (s.dev.windowEntry p c.table).scope (s.dev.windowEntry p c.table).key = none)
    (hslot : (s.dev.cuckoo c.table).freeSlot [] (s.dev.buckets c.table (s.dev.newGen c.table) (s.dev.windowEntry p c.table).scope
      (s.dev.windowEntry p c.table).key).2.1 = some k) :
    ∃ t, portEnds p i s t ∧ portPosted p 0 (some (k, false)) (s.dev.newGen c.table) t ∧
      (t.dev.cuckoo c.table).slot k = { s.dev.windowEntry p c.table with gen := s.dev.newGen c.table, table := c.table } ∧
      ∀ j, j ≠ k → (t.dev.cuckoo c.table).slot j = (s.dev.cuckoo c.table).slot j := by
  obtain ⟨seen, hplan⟩ := Dev.planNew_free hslot
  obtain ⟨t, hends, hposted, htable⟩ := put_ends h hp ht hi hfree ((Dev.planPut_absent hnow hop).trans (congrArg (·, 3) hplan))
  refine ⟨t, hends, hposted, ?_⟩
  rw [htable, Dev.putTable, if_neg hop]
  exact ⟨Cuckoo.slot_put_self .., fun j hj => Cuckoo.slot_put_ne _ _ hj⟩

/-- A write of a key that is present replaces its entry, which keeps its generation and its last hit. -/
theorem put_replaces {k : Nat} {b1 : Bool} (hfree : s.dev.engineBusy = false)
    (hnow : s.dev.findKey c.table (s.dev.windowEntry p c.table).scope (s.dev.windowEntry p c.table).key = some (k, b1)) :
    ∃ t, portEnds p (.mtbWrite mid p c) s t ∧ portPosted p 0 (some (k, b1)) ((s.dev.cuckoo c.table).slot k).gen t ∧
      (t.dev.cuckoo c.table).slot k = { s.dev.windowEntry p c.table with
        gen := ((s.dev.cuckoo c.table).slot k).gen, lastHit := ((s.dev.cuckoo c.table).slot k).lastHit, table := c.table } ∧
      ∀ j, j ≠ k → (t.dev.cuckoo c.table).slot j = (s.dev.cuckoo c.table).slot j := by
  obtain ⟨t, hends, hposted, htable⟩ := put_ends h hp ht (i := .mtbWrite mid p c) rfl hfree (Dev.planPut_present hnow (by decide))
  refine ⟨t, hends, hposted, ?_⟩
  rw [htable, Dev.putTable, if_neg (by decide), if_pos rfl]
  exact ⟨Cuckoo.slot_put_self .., fun j hj => Cuckoo.slot_put_ne _ _ hj⟩

theorem put_deletes {k : Nat} {b1 : Bool} (hfree : s.dev.engineBusy = false)
    (hnow : s.dev.findKey c.table (s.dev.windowEntry p c.table).scope (s.dev.windowEntry p c.table).key = some (k, b1)) :
    ∃ t, portEnds p (.mtbDelete mid p c) s t ∧ portPosted p 0 (some (k, b1)) ((s.dev.cuckoo c.table).slot k).gen t ∧
      (t.dev.cuckoo c.table).slot k = {} ∧ ∀ j, j ≠ k → (t.dev.cuckoo c.table).slot j = (s.dev.cuckoo c.table).slot j := by
  obtain ⟨t, hends, hposted, htable⟩ := put_ends h hp ht (i := .mtbDelete mid p c) rfl hfree (Dev.planPut_present hnow (by decide))
  refine ⟨t, hends, hposted, ?_⟩
  rw [htable, Dev.putTable, if_pos rfl]
  exact ⟨Cuckoo.slot_put_self .., fun j hj => Cuckoo.slot_put_ne _ _ hj⟩

/-! ## Reads and searches -/

theorem exec_mtbRead (hi : s.dev.argIndex p < s.dev.tabSize c.table) : ∃ s', exec (.mtbRead mid p c) s = .next s' ∧ sameTable c.table s s' ∧
    portRuns p { table := c.table, irq := c.irq
                 window := some ((s.dev.cuckoo c.table).slotBytes (4 * s.dev.argIndex p + s.dev.argSlot p)) } s' := by
  have hlt := Dev.tabKind_lt ht.1 (by decide)
  have hact : (s.dev.portTaken p).mtbRead p c.table =
      ({ window := some ((s.dev.cuckoo c.table).slotBytes (4 * s.dev.argIndex p + s.dev.argSlot p)) }, s.dev.portTaken p) := by
    rw [Dev.mtbRead, Dev.argIndex_portTaken, Dev.argSlot_portTaken, (s.dev.portTaken_stands hp.1).tabSize hlt, if_neg (Nat.not_le.2 hi)]
    rfl
  obtain ⟨s', hexec, hsame, -, hruns⟩ := exec_portOnTable_asks h hp (by decide) ht c.irq false hact
  exact ⟨s', hexec, hsame, hruns⟩

omit h in
/-- What a search of the window's key finds. -/
theorem Dev.mtbSearch_portTaken (withAge : Bool) : (s.dev.portTaken p).mtbSearch p c.table withAge =
    (match s.dev.findKey c.table (s.dev.windowEntry p c.table).scope (s.dev.windowEntry p c.table).key with
      | some (k, b1) => { place := some (k, b1), gen := ((s.dev.cuckoo c.table).slot k).gen, window := some ((s.dev.cuckoo c.table).slotBytes k)
                          age := if withAge then some (s.dev.ageOf ((s.dev.cuckoo c.table).slot k)) else none }
      | none => { result := 1 }, s.dev.portTaken p) := by
  have hlt := Dev.tabKind_lt ht.1 (by decide)
  have hstands := s.dev.portTaken_stands hp.1
  unfold Dev.mtbSearch
  dsimp only
  rw [Dev.windowEntry_portTaken _ hp.1 hlt, hstands.findKey hlt]
  cases s.dev.findKey c.table (s.dev.windowEntry p c.table).scope (s.dev.windowEntry p c.table).key with
  | none => rfl
  | some x =>
    dsimp only
    rw [hstands.ageOf, hstands.cuckoo]

/-- Ops 5 and 6. -/
theorem exec_mtbSearches {i : Instr} {withAge : Bool} {r : PortRun}
    (hi : exec i s = s.onRun (Dev.runPort mid p c.irq (Dev.onTable c.table 1 false (Dev.mtbSearch p c.table withAge))))
    (hr : ((s.dev.portTaken p).mtbSearch p c.table withAge).1 = r) :
    ∃ s', exec i s = .next s' ∧ sameTable c.table s s' ∧ portRuns p { r with table := c.table, irq := c.irq } s' := by
  have hact : (s.dev.portTaken p).mtbSearch p c.table withAge = (r, s.dev.portTaken p) := Prod.ext hr (by rw [Dev.mtbSearch_portTaken hp ht])
  obtain ⟨s', hexec, hsame, -, hruns⟩ := exec_portOnTable_asks h hp (by decide) ht c.irq false hact
  exact ⟨s', hi.trans hexec, hsame, hruns⟩

end

section
variable {mid p : Nat} {c : MtbCmd} {s : State} (h : s.dev.phase = .running) (hp : s.dev.portTakes mid p) (ht : s.dev.tableTakes c.table 1)
  {i : Instr} {withAge : Bool}
  (hi : exec i s = s.onRun (Dev.runPort mid p c.irq (Dev.onTable c.table 1 false (Dev.mtbSearch p c.table withAge))))
include h hp ht hi

theorem search_found {k : Nat} {b1 : Bool}
    (hnow : s.dev.findKey c.table (s.dev.windowEntry p c.table).scope (s.dev.windowEntry p c.table).key = some (k, b1)) :
    ∃ s', exec i s = .next s' ∧ sameTable c.table s s' ∧
      portRuns p { table := c.table, irq := c.irq, place := some (k, b1), gen := ((s.dev.cuckoo c.table).slot k).gen
                   window := some ((s.dev.cuckoo c.table).slotBytes k)
                   age := if withAge then some (s.dev.ageOf ((s.dev.cuckoo c.table).slot k)) else none } s' :=
  exec_mtbSearches h hp ht hi (by rw [Dev.mtbSearch_portTaken hp ht, hnow])

theorem search_missed (hnow : s.dev.findKey c.table (s.dev.windowEntry p c.table).scope (s.dev.windowEntry p c.table).key = none) :
    ∃ s', exec i s = .next s' ∧ sameTable c.table s s' ∧ portRuns p { table := c.table, irq := c.irq, result := 1 } s' :=
  exec_mtbSearches h hp ht hi (by rw [Dev.mtbSearch_portTaken hp ht, hnow])

end

/-- Settles O42: each command by its plan, or by what it finds. -/
theorem exactMatchCommands : Obligations.ExactMatchCommands := by
  unfold Obligations.ExactMatchCommands
  intro mid p c s h hp ht e now tab i g
  refine ⟨exec_mtbRead h hp ht, fun hfree => ⟨fun k _ hnow hslot => ⟨?insert, ?write⟩, fun hnow hplan => ⟨?noPlace, ?noPlaceWrite⟩,
    fun k b1 hnow => ⟨?present, fun _ => put_replaces h hp ht hfree hnow, put_deletes h hp ht hfree hnow⟩, fun hnow => ?absent⟩,
    fun k b1 hnow => ⟨?found, ?aged⟩, fun hnow => ⟨?missed, ?missedAge⟩⟩
  case insert => exact put_takesFree h hp ht (i := .mtbInsert mid p c) rfl hfree (by decide) hnow hslot
  case write => exact put_takesFree h hp ht (i := .mtbWrite mid p c) rfl hfree (by decide) hnow hslot
  case noPlace =>
    exact put_noPlace h hp ht (i := .mtbInsert mid p c) rfl hfree ((Dev.planPut_absent hnow (by decide)).trans (congrArg (·, 3) hplan))
  case noPlaceWrite =>
    obtain ⟨s', hexec, hsame, -, hruns, -⟩ :=
      put_noPlace h hp ht (i := .mtbWrite mid p c) rfl hfree ((Dev.planPut_absent hnow (by decide)).trans (congrArg (·, 3) hplan))
    exact ⟨s', hexec, hsame, hruns⟩
  case present => exact put_refused h hp ht (i := .mtbInsert mid p c) rfl hfree (Dev.planPut_insert_present hnow) (by decide)
  case absent => exact put_refused h hp ht (i := .mtbDelete mid p c) rfl hfree (Dev.planPut_delete_absent hnow) (by decide)
  case found => exact search_found h hp ht (i := .mtbSearch mid p c) (withAge := false) rfl hnow
  case aged => exact search_found h hp ht (i := .mtbAgeQuery mid p c) (withAge := true) rfl hnow
  case missed => exact search_missed h hp ht (i := .mtbSearch mid p c) (withAge := false) rfl hnow
  case missedAge => exact search_missed h hp ht (i := .mtbAgeQuery mid p c) (withAge := true) rfl hnow

end Sys2Proof.Machine
end

section
/-!
Other table commands and the ports (R217, R221-R223, R233, R234).
-/

namespace Sys2Proof.Machine

/-! ## The data window (R221) -/

/-- Four bytes are spelled by the word that they make. -/
theorem leBytes_leAt (b : List Byte) (o : Nat) :
    leBytes (leAt b o 4) 4 = [b.getD o 0, b.getD (o + 1) 0, b.getD (o + 2) 0, b.getD (o + 3) 0] := by
  have h0 := (b.getD o 0).isLt
  have h1 := (b.getD (o + 1) 0).isLt
  have h2 := (b.getD (o + 2) 0).isLt
  have h3 := (b.getD (o + 3) 0).isLt
  simp only [leBytes, leAt, List.range_succ, List.range_zero, List.nil_append, List.cons_append, List.map_cons, List.map_nil, List.foldr_cons,
    List.foldr_nil, byteAt, Nat.add_zero]
  refine congrArg₂ _ ?_ (congrArg₂ _ ?_ (congrArg₂ _ ?_ (congrArg₂ _ ?_ rfl))) <;>
  · apply BitVec.eq_of_toNat_eq
    rw [BitVec.toNat_ofNat]
    omega

theorem leAt_lt (b : List Byte) (o : Nat) : leAt b o 4 < 2 ^ 32 := by
  have h0 := (b.getD o 0).isLt
  have h1 := (b.getD (o + 1) 0).isLt
  have h2 := (b.getD (o + 2) 0).isLt
  have h3 := (b.getD (o + 3) 0).isLt
  simp only [leAt, List.range_succ, List.range_zero, List.nil_append, List.cons_append, List.foldr_cons, List.foldr_nil, byteAt, Nat.add_zero]
  omega

/-- The words of a byte string spell it. -/
theorem flatMap_words {b : List Byte} {n : Nat} (h : 4 * n ≤ b.length) : (List.range n).flatMap (fun k => leBytes (leAt b
    (4 * k) 4) 4) = b.take (4 * n) := by
  induction n with
  | zero => simp
  | succ n ih =>
    have hget (k : Nat) (hk : k < b.length) : b.getD k 0 = b[k] := by rw [List.getD_eq_getElem?_getD, List.getElem?_eq_getElem hk, Option.getD_some]
    rw [List.range_succ, List.flatMap_append, ih (by omega), List.flatMap_singleton, leBytes_leAt, hget _ (by omega), hget _ (by omega),
        hget _ (by omega),
      hget _ (by omega), show 4 * (n + 1) = 4 * n + 1 + 1 + 1 + 1 from by omega, List.take_succ_eq_append_getElem (by omega),
      List.take_succ_eq_append_getElem (by omega), List.take_succ_eq_append_getElem (by omega), List.take_succ_eq_append_getElem (by omega)]
    simp only [List.append_assoc, List.cons_append, List.nil_append]

theorem Dev.window_setWindow (p : Nat) {b : List Byte} (d : Dev) (hb : b.length = 64) : (d.setWindow p b).window p = b := by
  have hword (n : Nat) (hn : n < 16) : (d.setWindow p b).rd R.MTB_CMD_DATA_data 0 (256 * p + 4 * n) = leAt b (4 * n) 4 := by
    refine Dev.each_establishes (P := fun _ => True) (Q := fun e => e.rd R.MTB_CMD_DATA_data 0 (256 * p + 4 * n) = leAt b (4 * n) 4)
      (List.mem_range.2 hn) (fun _ _ _ => trivial) (fun e _ => ?_) (fun k e he => ?_) d trivial
    · rw [Dev.rd_wr_self]
      exact Nat.mod_eq_of_lt (leAt_lt ..)
    · by_cases hk : k = n
      · rw [hk, Dev.rd_wr_self]
        exact Nat.mod_eq_of_lt (leAt_lt ..)
      · rw [Dev.rd_wr_ne _ _ _ _ _ _ _ _ (by simp only [Field.key]; omega), he]
  have hwords : (d.setWindow p b).window p = (List.range 16).flatMap (fun k => leBytes (leAt b (4 * k) 4) 4) := by
    unfold Dev.window
    rw [List.flatMap_def, List.flatMap_def]
    exact congrArg List.flatten (List.map_congr_left fun n hn => by rw [hword n (List.mem_range.1 hn)])
  rw [hwords, flatMap_words (by omega), List.take_of_length_le (by omega)]

theorem Dev.window_postRun {p : Nat} {r : PortRun} (d : Dev) {b : List Byte} (hb : b.length = 64) (hwindow : r.window = some b) :
    (d.postRun p r).window p = b := by
  have hpost (e : Dev) : (e.postWindow p r).window p = b := by
    unfold Dev.postWindow
    rw [hwindow]
    exact e.window_setWindow p hb
  rw [Dev.postRun_eq]
  split
  · refine Eq.trans ?_ (hpost (((d.postStatus p r).postPlace p r).postAge p r))
    unfold Dev.window
    refine congrArg (List.flatMap · _) ?_
    funext n
    rw [Dev.rd_cause_ne _ _ _ _ _ _ _ (by simp only [Field.key, R.MTB_CMD_DATA_data, Causes.bit, mtbCauses]; omega)]
  · exact hpost _

/-! ## Commands of a port that leave the registers -/

section
variable {mid p : Nat} {c : MtbCmd} {s : State} (h : s.dev.phase = .running) (hp : s.dev.portTakes mid p)
include h hp

theorem exec_port_runs (irq : Bool) {act : Dev → PortRun × Dev} {r : PortRun} {x : Dev} (hact : act (s.dev.portTaken p) = (r, x))
    (hregs : x.regs = (s.dev.portTaken p).regs) :
    s.onRun (Dev.runPort mid p irq act) = .next { s with dev := x.holdsRun p { r with irq := irq } } ∧
      portRuns p { r with irq := irq } { s with dev := x.holdsRun p { r with irq := irq } } := by
  rw [exec_port h hp, Dev.portRan, hact]
  exact ⟨rfl, Dev.holdsRun_runs .., (congrArg (· != 0) (Dev.rd_congr hregs ..)).trans s.dev.portTaken_busy⟩

/-- Op 7. -/
theorem exec_mtbStage (hn : c.stage < 3) : ∃ s', exec (.mtbStage mid p c) s = .next s' ∧ s'.dev.stage p c.stage = s.dev.window p ∧
    portRuns p { irq := c.irq } s' := by
  have hact : (s.dev.portTaken p).mtbStageOp p c.stage = ({}, (s.dev.portTaken p).setStage p c.stage (s.dev.window p)) := by
    rw [Dev.mtbStageOp, if_neg (Nat.not_le.2 hn), Dev.window_portTaken]
  obtain ⟨hexec, hruns⟩ := exec_port_runs h hp c.irq hact rfl
  exact ⟨_, hexec, NMap.getD_set_self .., hruns⟩

/-! ## Direct tables (R233) -/

omit h hp in
/-- Op 8 on an entry of the table. -/
theorem Dev.mtbDirectPut_portTaken {d : Dev} {t : Nat} (hp : p < 16) (ht : t < 16) (hi : d.argIndex p < d.tabSize t) :
    (d.portTaken p).mtbDirectPut p t = ({}, let x := (d.portTaken p).onMtb (fun m => { m with
        direct := m.direct.set (2 ^ 26 * t + d.argIndex p) (if d.tabWide t then d.stage p 0 ++ d.window p else d.window p) })
      if d.tabWide t then x.clearStage p 0 else x) := by
  have hstands := d.portTaken_stands hp
  have hwide (e : Dev) (f : Mtb → Mtb) : (e.onMtb f).tabWide t = e.tabWide t := rfl
  unfold Dev.mtbDirectPut
  dsimp only
  rw [Dev.argIndex_portTaken, hstands.tabSize ht, if_neg (Nat.not_le.2 hi), hwide, hstands.tabWide ht, Dev.window_portTaken, Dev.stage_portTaken]

section
variable (ht : s.dev.tableTakes c.table 2) (hi : s.dev.argIndex p < s.dev.tabSize c.table)
include ht hi

theorem exec_mtbDirectWrite_narrow (hwide : s.dev.tabWide c.table = false) : ∃ s', exec (.mtbDirectWrite mid p c) s = .next s' ∧
    s'.dev.directEntry c.table (s.dev.argIndex p) = s.dev.window p ∧ portRuns p { table := c.table, irq := c.irq } s' := by
  refine ⟨_, exec_portOnTable h hp (by decide) ht c.irq true (Dev.mtbDirectPut p c.table), ?_⟩
  rw [Dev.mtbDirectPut_portTaken hp.1 (Dev.tabKind_lt ht.1 (by decide)) hi, hwide]
  exact ⟨NMap.getD_set_self .., Dev.holdsRun_runs .., s.dev.portTaken_busy⟩

theorem exec_mtbDirectWrite_wide (hwide : s.dev.tabWide c.table = true) : ∃ s', exec (.mtbDirectWrite mid p c) s = .next s' ∧
    s'.dev.directEntry c.table (s.dev.argIndex p) = s.dev.stage p 0 ++ s.dev.window p := by
  refine ⟨_, exec_portOnTable h hp (by decide) ht c.irq true (Dev.mtbDirectPut p c.table), ?_⟩
  rw [Dev.mtbDirectPut_portTaken hp.1 (Dev.tabKind_lt ht.1 (by decide)) hi, hwide]
  exact NMap.getD_set_self ..

theorem exec_mtbDirectRead (hwide : s.dev.tabWide c.table = false) : ∃ s', exec (.mtbDirectRead mid p c) s = .next s' ∧
    s'.dev.mtb.direct = s.dev.mtb.direct ∧
    portRuns p { table := c.table, irq := c.irq, window := some (s.dev.directEntry c.table (s.dev.argIndex p)) } s' := by
  have hlt := Dev.tabKind_lt ht.1 (by decide)
  have hstands := s.dev.portTaken_stands hp.1
  have hentry : (s.dev.portTaken p).directEntry c.table (s.dev.argIndex p) = s.dev.directEntry c.table (s.dev.argIndex p) := by
    rw [Dev.directEntry, Dev.lineBytes, hstands.tabKind, hstands.tabWide hlt, Dev.portTaken_mtb, Dev.directEntry, Dev.lineBytes]
  have hact : (s.dev.portTaken p).mtbDirectGet p c.table =
      ({ window := some (s.dev.directEntry c.table (s.dev.argIndex p)) }, s.dev.portTaken p) := by
    rw [Dev.mtbDirectGet, Dev.argIndex_portTaken, hstands.tabSize hlt, if_neg (Nat.not_le.2 hi), hstands.tabWide hlt, hwide, hentry]
    rfl
  obtain ⟨s', hexec, -, hdirect, hruns⟩ := exec_portOnTable_asks h hp (by decide) ht c.irq false hact
  exact ⟨s', hexec, hdirect, hruns⟩

end

/-! ## Prefixes (R232, R234) -/

section
variable {x : Prefix} (hx : prefixOf (s.dev.window p) = some x)
include hx

theorem exec_prefixAdd (hroom : ((s.dev.mtb.prefixes.filter (fun y => !x.same y)).map Prefix.units).sum + x.units ≤ 1048576) :
    ∃ s', exec (.prefixAdd mid p c) s = .next s' ∧ portRuns p { irq := c.irq } s' ∧ x ∈ s'.dev.mtb.prefixes ∧
      ∀ y, x.same y = false → (y ∈ s'.dev.mtb.prefixes ↔ y ∈ s.dev.mtb.prefixes) := by
  have hact : (s.dev.portTaken p).prefixAdd p = ({}, (s.dev.portTaken p).onMtb (fun m =>
      { m with prefixes := s.dev.mtb.prefixes.filter (fun y => !x.same y) ++ [x] })) := by
    rw [Dev.prefixAdd, Dev.window_portTaken, hx]
    exact if_pos hroom
  obtain ⟨hexec, hruns⟩ := exec_port_runs h hp c.irq hact rfl
  refine ⟨_, hexec, hruns, List.mem_append_right _ (List.mem_singleton_self x), fun y hy => ?_⟩
  have hne : y ≠ x := by
    rintro rfl
    simp [Prefix.same] at hy
  show y ∈ s.dev.mtb.prefixes.filter (fun y => !x.same y) ++ [x] ↔ _
  simp [hy, hne]

theorem exec_prefixDelete (hthere : s.dev.mtb.prefixes.any x.same = true) : ∃ s', exec (.prefixDelete mid p c) s = .next s' ∧
    portRuns p { irq := c.irq } s' ∧ ∀ y, y ∈ s'.dev.mtb.prefixes ↔ y ∈ s.dev.mtb.prefixes ∧ x.same y = false := by
  have hact : (s.dev.portTaken p).prefixDelete p = ({}, (s.dev.portTaken p).onMtb (fun m =>
      { m with prefixes := m.prefixes.filter (fun y => !x.same y) })) := by
    rw [Dev.prefixDelete, Dev.window_portTaken, hx]
    exact if_pos hthere
  obtain ⟨hexec, hruns⟩ := exec_port_runs h hp c.irq hact rfl
  refine ⟨_, hexec, hruns, fun y => ?_⟩
  show y ∈ s.dev.mtb.prefixes.filter (fun y => !x.same y) ↔ _
  simp

theorem exec_prefixSearch {y : Prefix} (hfound : s.dev.mtb.prefixes.find? x.same = some y) : ∃ s', exec (.prefixSearch mid p c) s = .next s' ∧
    portRuns p { irq := c.irq, window := some (putBytes (s.dev.window p) 32 (leBytes y.result 4)) } s' ∧
    s'.dev.mtb.prefixes = s.dev.mtb.prefixes := by
  have hact : (s.dev.portTaken p).prefixSearch p =
      ({ window := some (putBytes (s.dev.window p) 32 (leBytes y.result 4)) }, s.dev.portTaken p) := by
    rw [Dev.prefixSearch, Dev.window_portTaken, hx]
    dsimp only
    rw [Dev.portTaken_mtb, hfound]
  obtain ⟨hexec, hruns⟩ := exec_port_runs h hp c.irq hact rfl
  exact ⟨_, hexec, hruns, rfl⟩

end

/-! ## Ternary entries (R234) -/

theorem exec_ternaryWrite (hi : s.dev.argIndex p < 16384) : ∃ s', exec (.ternaryWrite mid p c) s = .next s' ∧ portRuns p { irq := c.irq } s' ∧
    s'.dev.mtb.ternary.get? (s.dev.argIndex p) = some (s.dev.stage p 0, s.dev.stage p 1, (s.dev.window p).take 16) := by
  have hact : (s.dev.portTaken p).ternaryPut p = ({}, (((s.dev.portTaken p).onMtb (fun m => { m with
      ternary := m.ternary.set (s.dev.argIndex p) (s.dev.stage p 0, s.dev.stage p 1,
          (s.dev.window p).take 16) })).clearStage p 0).clearStage p 1) := by
    rw [Dev.ternaryPut, Dev.argIndex_portTaken, if_neg (Nat.not_le.2 hi), Dev.window_portTaken]
    rfl
  obtain ⟨hexec, hruns⟩ := exec_port_runs h hp c.irq hact rfl
  exact ⟨_, hexec, hruns, (NMap.get?_set ..).trans (if_pos rfl)⟩

theorem exec_ternaryRead (hi : s.dev.argIndex p < 16384) {v m r : List Byte}
    (hentry : s.dev.mtb.ternary.get? (s.dev.argIndex p) = some (v, m, r)) : ∃ s', exec (.ternaryRead mid p c) s = .next s' ∧
    portRuns p { irq := c.irq, window := some (padTo 64 r) } s' ∧ s'.dev.stage p 0 = v ∧ s'.dev.stage p 1 = m ∧
    s'.dev.mtb.ternary = s.dev.mtb.ternary := by
  have hact : (s.dev.portTaken p).ternaryGet p = ({ window := some (padTo 64 r) }, ((s.dev.portTaken p).setStage p 0 v).setStage p 1 m) := by
    have hgot (z : List Byte × List Byte × List Byte) : s.dev.mtb.ternary.getD (s.dev.argIndex p) z = (v, m, r) := by
      rw [NMap.getD, hentry]
      rfl
    unfold Dev.ternaryGet
    dsimp only
    rw [Dev.argIndex_portTaken, if_neg (Nat.not_le.2 hi), Dev.portTaken_mtb, hgot]
  obtain ⟨hexec, hruns⟩ := exec_port_runs h hp c.irq hact rfl
  refine ⟨_, hexec, hruns, ?_, NMap.getD_set_self .., rfl⟩
  show ((((s.dev.mtb.stages.set (4 * p + 0) v).set (4 * p + 1) m).getD (4 * p + 0) _) : List Byte) = v
  rw [NMap.getD, NMap.get?_set, if_neg (by omega), NMap.get?_set, if_pos rfl]
  rfl

end

/-! ## Ports (R217, R221-R223) -/

section
variable {mid p : Nat} {c : MtbCmd} {s : State} (h : s.dev.phase = .running) (hp : p < 16)
include h hp

theorem exec_mtbRead_wrongMid (hmid : mid ≠ 0x1000 + p) : ∃ s', exec (.mtbRead mid p c) s = .next s' ∧ s'.dev.mtb = s.dev.mtb ∧
    s'.dev.rd R.MTB_WRONG_PORT_count = (s.dev.rd R.MTB_WRONG_PORT_count + 1) % 2 ^ R.MTB_WRONG_PORT_count.width := by
  have hexec : exec (.mtbRead mid p c) s = .next { s with dev := (s.dev.bump R.MTB_WRONG_PORT_count).cause mtbCauses 10 } := by
    refine (State.onRun_running _ h : execMtbRead mid p c s = _).trans ?_
    unfold Dev.runPort
    rw [if_neg (by omega), if_pos (show mid ≠ midFn p from hmid)]
  refine ⟨_, hexec, (Dev.mtb_of_besides (Dev.cause_besides _ _ _ _ (List.Subset.refl _))).trans (Dev.wr_mtb ..), ?_⟩
  rw [Dev.rd_cause_at _ _ _ _ _ (by decide), Dev.rd_bump_self]

theorem exec_mtbRead_busy (hmid : mid = 0x1000 + p) (hbusy : s.dev.on R.MTB_CMD_STATUS_busy 0 (256 * p) = true) :
    ∃ s', exec (.mtbRead mid p c) s = .next s' ∧ s'.dev.mtb = s.dev.mtb ∧ s'.dev.rd R.MTB_CMD_STATUS_overrun 0 (256 * p) = 1 := by
  have hexec : exec (.mtbRead mid p c) s = .next { s with dev := s.dev.wr R.MTB_CMD_STATUS_overrun 1 0 (256 * p) } := by
    refine (State.onRun_running _ h : execMtbRead mid p c s = _).trans ?_
    unfold Dev.runPort
    rw [if_neg (by omega), if_neg (not_not.2 (show mid = midFn p from hmid)), if_pos hbusy]
  exact ⟨_, hexec, rfl, Dev.rd_wr_self ..⟩

/-- The end of a command that has nothing to write posts what it found. -/
theorem exec_mtbCommandDone_posts {r : PortRun} (hrun : s.dev.mtb.runs.get? p = some r) (hput : r.put = none) (hresult : r.result < 16)
    (hsteps : r.steps < 64) : ∃ s', exec (.mtbCommandDone p) s = .next s' ∧
    s'.dev.rd R.MTB_CMD_STATUS_busy 0 (256 * p) = 0 ∧ s'.dev.rd R.MTB_CMD_STATUS_result 0 (256 * p) = r.result ∧
    s'.dev.rd R.MTB_CMD_STATUS_steps 0 (256 * p) = r.steps ∧ s'.dev.mtb.runs.get? p = none ∧ s'.dev.mtb.tables = s.dev.mtb.tables ∧
    (∀ b, r.window = some b → b.length = 64 → s'.dev.window p = b) ∧
    (∀ k b1, r.place = some (k, b1) → s'.dev.rd R.MTB_CMD_WHERE_bucket 0 (256 * p) = k / 4 % 2 ^ R.MTB_CMD_WHERE_bucket.width ∧
      s'.dev.rd R.MTB_CMD_WHERE_slot 0 (256 * p) = k % 4) ∧
    (r.irq = true → s'.dev.on (mtbCauses.bit 12) = true) := by
  refine ⟨_, exec_mtbCommandDone p h, ?_⟩
  dsimp only
  rw [Dev.portDone_ran hrun hput]
  refine ⟨Dev.postRun_busy hp .., Dev.postRun_result hp _ hresult, Dev.postRun_steps hp _ hsteps, Dev.postRun_runs .., Dev.postRun_tables ..,
    fun b hwindow hb => Dev.window_postRun _ hb hwindow, fun k b1 hplace => ?_, fun hirq => ?_⟩
  · obtain ⟨hbucket, hslot, -⟩ := Dev.postRun_where hp s.dev hplace
    exact ⟨hbucket, hslot⟩
  · rw [Dev.postRun_eq, if_pos hirq]
    exact Dev.cause_on ..

omit h hp in
/-- A command whose plan no longer stands is not ready before its next search. -/
theorem Dev.portDone_stale {d : Dev} {r : PortRun} {q : Put} {pl : MtbPlan} (hrun : d.mtb.runs.get? p = some r) (hput : r.put = some q)
    (hplan : q.plan = some pl) : d.portDone p =
      if ({ (d.retryPut r.table q).1 with table := r.table, irq := r.irq } : PortRun).put.isSome then
        (d.retryPut r.table q).2.onMtb (fun m => { m with runs := m.runs.set p { (d.retryPut r.table q).1 with table := r.table, irq := r.irq } })
      else (d.retryPut r.table q).2.postRun p { (d.retryPut r.table q).1 with table := r.table, irq := r.irq } := by
  have hready : (q.plan.isNone && d.engineBusy) = false := by rw [hplan, Option.isNone_some, Bool.false_and]
  unfold Dev.portDone
  rw [hrun]
  dsimp only
  rw [hput]
  dsimp only
  rw [hready, if_neg Bool.false_ne_true]

section
variable {r : PortRun} {q : Put} {pl : MtbPlan} (hrun : s.dev.mtb.runs.get? p = some r) (hput : r.put = some q) (hplan : q.plan = some pl)
  (hstale : s.dev.stillAsRead r.table pl.seen = false)
include hrun hput hplan hstale

/-- The fourth failed check ends a write with result 9. -/
theorem exec_mtbCommandDone_gaveUp (hfails : 3 ≤ q.fails) : ∃ s', exec (.mtbCommandDone p) s = .next s' ∧ portPosted p 9 none 0 s' ∧
    s'.dev.mtb.tables = s.dev.mtb.tables := by
  have hretry : s.dev.retryPut r.table q = ({ result := 9 }, s.dev) := by
    unfold Dev.retryPut
    rw [hplan]
    dsimp only
    rw [hstale, if_neg Bool.false_ne_true, if_pos hfails]
  refine ⟨_, exec_mtbCommandDone p h, ?_⟩
  dsimp only
  rw [Dev.portDone_stale hrun hput hplan, hretry]
  exact ⟨portPosted_postRun hp s s.dev (r := { result := 9, table := r.table, irq := r.irq }) (by simp), Dev.postRun_tables ..⟩

omit hp in
/-- Before that, the search is made again. -/
theorem exec_mtbCommandDone_again {new : MtbPlan} {n : Nat} (hfails : q.fails < 3) (hnew : s.dev.planPut r.table q.op q.entry = (some new, n)) :
    ∃ s', exec (.mtbCommandDone p) s = .next s' ∧
      s'.dev.mtb.runs.get? p = some { table := r.table, irq := r.irq,
                                        put := some { q with plan := some new, locked := false, fails := q.fails + 1 } } ∧
      s'.dev.regs = s.dev.regs ∧ s'.dev.mtb.tables = s.dev.mtb.tables := by
  have hretry : s.dev.retryPut r.table q = ({ put := some { q with plan := some new, locked := false, fails := q.fails + 1 } }, s.dev) := by
    unfold Dev.retryPut
    rw [hplan]
    dsimp only
    rw [hstale, if_neg Bool.false_ne_true, if_neg (Nat.not_le.2 hfails), hnew]
  refine ⟨_, exec_mtbCommandDone p h, ?_⟩
  dsimp only
  rw [Dev.portDone_stale hrun hput hplan, hretry]
  exact ⟨(NMap.get?_set ..).trans (if_pos rfl), rfl, rfl⟩

end

end

/-- Settles O43: each clause is the lemma about that command. -/
theorem tableCommands : Obligations.TableCommands := by
  unfold Obligations.TableCommands
  refine ⟨fun mid p c s h hp => ⟨exec_mtbStage h hp, fun ht hi => ⟨exec_mtbDirectWrite_narrow h hp ht hi, exec_mtbDirectWrite_wide h hp ht hi,
      exec_mtbDirectRead h hp ht hi⟩, fun x hx => ⟨exec_prefixAdd h hp hx, exec_prefixDelete h hp hx, fun y => exec_prefixSearch h hp hx⟩,
      fun hi => ⟨exec_ternaryWrite h hp hi, fun v m r => exec_ternaryRead h hp hi⟩⟩,
    fun mid p c s h hp => ⟨exec_mtbRead_wrongMid h hp, exec_mtbRead_busy h hp, fun r => exec_mtbCommandDone_posts h hp,
      fun r q pl hrun hput hplan hstale => ⟨exec_mtbCommandDone_gaveUp h hp hrun hput hplan hstale,
        fun new n => exec_mtbCommandDone_again h hrun hput hplan hstale⟩⟩⟩

end Sys2Proof.Machine
end

section
/-!
Learning, aging and rehash (R217-R219, R225-R229).
-/

namespace Sys2Proof.Machine

/-! ## The registers that host writes and notification records leave -/

/-- The key is none of the Queue Manager's, and none at the start of an instance's window, where a link's state is. -/
def farKey (k : Nat) : Prop := k / 2 ^ 46 ≠ 32 ∧ k % 2 ^ 30 ≠ 0

theorem not_farKey_qmg {f : Field} {i a : Nat} (hunit : f.unit = 32) (hi : i < 65536) (ha : f.off + a < 33554432) (hlsb : f.lsb < 32) :
    ¬ farKey (f.key i a) := fun h => h.1 ((f.key_unit hi ha hlsb).trans hunit)

/-- The far registers stand. -/
abbrev Dev.farSame (d e : Dev) : Prop := d.regsSame farKey e

theorem Dev.farSame_leaveL1 (link : Nat) (d : Dev) : d.farSame (d.leaveL1 link) := by
  unfold Dev.leaveL1
  split
  · refine Dev.regsSame.wr d.regsSame_refl _ _ _ _ fun h => h.2 ?_
    simp only [Field.key, R.PCX_LINK_STATUS_state]
    omega
  · exact d.regsSame_refl

theorem Dev.farSame_each {α : Type} {l : List α} {f : α → Dev → Dev} (hf : ∀ a e, Dev.farSame e (f a e)) (d : Dev) : d.farSame (Dev.each l f d) :=
  Dev.each_induct (fun e => d.farSame e) _ _ _ d.regsSame_refl fun a e he => he.trans (hf a e)

theorem Dev.farSame_hostWrite (fn addr : Nat) (data : List Byte) (a : Attr) (d : Dev) : d.farSame (d.hostWrite fn addr data a) :=
  (d.farSame_leaveL1 _).trans (Dev.farSame_each (fun _ _ => Dev.regsSame_of_regs (Dev.regs_of_besides (Dev.writePiece_besides _ _ _ _ _
      (List.Subset.refl _)))) _)

theorem Dev.farSame_useContext (r : Nat) (d : Dev) : d.farSame (d.useContext r) := by
  rcases d.useContext_changes r with h | ⟨c, n, h⟩
  · rw [h]
    exact d.regsSame_refl
  · rw [h]
    exact Dev.regsSame.wr (Dev.regsSame_of_regs rfl) _ _ _ _ (not_farKey_qmg rfl (by decide) (by decide) (by decide))

theorem Dev.farSame_advanceCpl (r n : Nat) (d : Dev) : d.farSame (d.advanceCpl r n) :=
  Dev.regsSame_of_regs (Dev.regs_of_besides (Dev.advanceCpl_besides _ _ _ (List.Subset.refl _)))

theorem Dev.farSame_onRing (r : Nat) (f : Ring → Ring) (d : Dev) : d.farSame (d.onRing r f) := Dev.regsSame_of_regs rfl

theorem Dev.farSame_writeOwed (r : Nat) (d : Dev) : d.farSame (d.writeOwed r) := by
  unfold Dev.writeOwed
  split
  · exact d.regsSame_refl
  · split
    · exact d.regsSame_refl
    · split
      · exact d.regsSame_refl
      · dsimp only
        have htaken (f : Ring → Ring) : d.farSame ((d.useContext r).onRing r f) := (d.farSame_useContext r).trans (Dev.farSame_onRing r f _)
        split
        · exact (htaken _).trans (Dev.farSame_hostWrite _ _ _ _ _)
        · exact ((htaken _).trans (Dev.farSame_hostWrite _ _ _ _ _)).trans (Dev.farSame_advanceCpl _ _ _)

theorem Dev.farSame_flushOwed (r : Nat) (d : Dev) : d.farSame (d.flushOwed r) := by
  unfold Dev.flushOwed
  split
  · exact Dev.farSame_each (fun _ _ => Dev.farSame_writeOwed _ _) d
  · exact d.regsSame_refl

theorem Dev.farSame_notify (r : Nat) (words : List Nat) (d : Dev) : d.farSame (d.notify r words).2 := by
  unfold Dev.notify
  split
  · split
    · exact (((d.farSame_useContext r).trans (Dev.farSame_onRing _ _ _)).trans (Dev.farSame_advanceCpl _ _ _)).trans (Dev.farSame_flushOwed _ _)
    · dsimp only
      split
      · exact Dev.regsSame.cause d.regsSame_refl _ _ _ (not_farKey_qmg rfl (by decide) (by decide) (by decide))
      · exact d.regsSame_refl
  · exact d.regsSame_refl

/-! ## Learn records (R229) -/

theorem Dev.learnRecord_mtb (kind : Nat) (e : MtbEntry) (d : Dev) : (d.learnRecord kind e).mtb = d.mtb :=
  Dev.mtb_of_besides (Dev.learnRecord_besides _ _ _ (List.Subset.refl _))

theorem Dev.cause_mtb (d : Dev) (c : Causes) (b i : Nat) : (d.cause c b i).mtb = d.mtb :=
  Dev.mtb_of_besides (Dev.cause_besides _ _ _ _ (List.Subset.refl _))

/-- A record is written or counted as lost; the unit's other far registers stand. -/
theorem Dev.rd_learnRecord (kind : Nat) (x : MtbEntry) (d : Dev) {f : Field} (hfar : farKey (f.key 0 0))
    (hlost : f.key 0 0 ≠ R.MTB_NOTIFY_LOST_count.key 0 0) (hcause : f.key 0 0 ≠ (mtbCauses.bit 4).key 0 0) :
        (d.learnRecord kind x).rd f = d.rd f := by
  have hend {r : Bool × Dev} (hr : r.2.rd f = d.rd f) :
      (if r.1 then r.2 else (r.2.bump R.MTB_NOTIFY_LOST_count).cause mtbCauses 4).rd f = d.rd f := by
    split
    · exact hr
    · rw [Dev.rd_cause_at _ _ _ _ _ hcause, Dev.rd_bump_at _ _ _ _ _ _ hlost, hr]
  have hnotify (c : Bool) (r : Nat) (words : List Nat) : (if c then d.notify r words else (false, d)).2.rd f = d.rd f := by
    split
    · exact Dev.regsSame.rd (Dev.farSame_notify r words d) hfar
    · rfl
  unfold Dev.learnRecord
  exact hend (hnotify _ _ _)

/-! ## Entries that an offer makes or meets (R226-R228) -/

/-- A stamp moves the last hit of one entry alone. -/
theorem Dev.stampHit_slots (t i : Nat) (d : Dev) :
    (∃ n, ((d.stampHit t i).cuckoo t).slot i = { (d.cuckoo t).slot i with lastHit := n }) ∧
    ∀ j, j ≠ i → ((d.stampHit t i).cuckoo t).slot j = (d.cuckoo t).slot j := by
  unfold Dev.stampHit
  dsimp only
  split
  · rw [Dev.cuckoo_setCuckoo]
    exact ⟨⟨_, Cuckoo.slot_put_self ..⟩, fun j hj => Cuckoo.slot_put_ne _ _ hj⟩
  · exact ⟨⟨_, rfl⟩, fun _ _ => rfl⟩

theorem Dev.stampHit_offers (t i : Nat) (d : Dev) : (d.stampHit t i).mtb.offers = d.mtb.offers := by
  unfold Dev.stampHit
  dsimp only
  split <;> rfl

/-- What a move leaves: the entry with its source replaced, its key and scope as they were, and the offers. -/
theorem Dev.learnMove_entry (i : Nat) (e : MtbEntry) (o : LearnOffer) (d : Dev) :
    (((d.learnMove i e o).cuckoo 0).slot i).result = putBytes (padTo 16 e.result) 8 (sliceBytes (d.learnResult o) 8 4) ∧
    (((d.learnMove i e o).cuckoo 0).slot i).key = e.key ∧ (((d.learnMove i e o).cuckoo 0).slot i).scope = e.scope ∧
    (∀ j, j ≠ i → ((d.learnMove i e o).cuckoo 0).slot j = (d.cuckoo 0).slot j) ∧ (d.learnMove i e o).mtb.offers = d.mtb.offers := by
  have hput (x : MtbEntry) (k : Nat) (y : MtbEntry) :
      (∃ n, (((((d.setCuckoo 0 ((d.cuckoo 0).put i x)).stampHit 0 i).learnRecord k y).cuckoo 0).slot i) = { x with lastHit := n }) ∧
      (∀ j, j ≠ i → ((((d.setCuckoo 0 ((d.cuckoo 0).put i x)).stampHit 0 i).learnRecord k y).cuckoo 0).slot j = (d.cuckoo 0).slot j) ∧
      (((d.setCuckoo 0 ((d.cuckoo 0).put i x)).stampHit 0 i).learnRecord k y).mtb.offers = d.mtb.offers := by
    obtain ⟨⟨n, hself⟩, hother⟩ := Dev.stampHit_slots 0 i (d.setCuckoo 0 ((d.cuckoo 0).put i x))
    rw [Dev.cuckoo_setCuckoo] at hself hother
    rw [Cuckoo.slot_put_self] at hself
    rw [Dev.cuckoo_congr (congrArg Mtb.tables (Dev.learnRecord_mtb ..)), Dev.learnRecord_mtb, Dev.stampHit_offers]
    exact ⟨⟨n, hself⟩, fun j hj => (hother j hj).trans (Cuckoo.slot_put_ne _ _ hj), rfl⟩
  unfold Dev.learnMove
  extract_lets now e₁ fresh e₂ flaps e₃ d'
  split
  · obtain ⟨⟨n, hself⟩, hother, hoffers⟩ := hput e₁ 1 e₁
    exact ⟨by rw [hself], by rw [hself], by rw [hself], hother, hoffers⟩
  · have he₃ : e₃.result = e₁.result ∧ e₃.key = e₁.key ∧ e₃.scope = e₁.scope := by
      show (if flaps then _ else e₂ : MtbEntry).result = _ ∧ (if flaps then _ else e₂ : MtbEntry).key = _ ∧
          (if flaps then _ else e₂ : MtbEntry).scope = _
      split <;> exact ⟨rfl, rfl, rfl⟩
    obtain ⟨hresult, hkey, hscope⟩ := he₃
    obtain ⟨⟨n, hself⟩, hother, hoffers⟩ := hput e₃ 2 e₃
    have hd' : (((d'.cuckoo 0).slot i).result = e₁.result ∧ ((d'.cuckoo 0).slot i).key = e₁.key ∧ ((d'.cuckoo 0).slot i).scope = e₁.scope) ∧
        (∀ j, j ≠ i → (d'.cuckoo 0).slot j = (d.cuckoo 0).slot j) ∧ d'.mtb.offers = d.mtb.offers := by
      refine ⟨?_, hother, hoffers⟩
      rw [hself]
      exact ⟨hresult, hkey, hscope⟩
    clear_value d'
    obtain ⟨⟨hresult, hkey, hscope⟩, hother, hoffers⟩ := hd'
    have hend : (if flaps then (d'.learnRecord 4 e₃).cause mtbCauses 3 else d').mtb = d'.mtb := by
      split
      · rw [Dev.cause_mtb, Dev.learnRecord_mtb]
      · rfl
    rw [Dev.cuckoo_congr (congrArg Mtb.tables hend), hend]
    exact ⟨hresult, hkey, hscope, hother, hoffers⟩

theorem Dev.insertNew_offers (t : Nat) (fromLearn : Bool) (e : MtbEntry) (d : Dev) : (d.insertNew t fromLearn e).2.mtb.offers = d.mtb.offers := by
  unfold Dev.insertNew
  split
  · next p _ =>
    show (d.carryOut t e p).mtb.offers = _
    unfold Dev.carryOut
    dsimp only
    split <;> rfl
  · exact congrArg Mtb.offers (d.insertFailed_shows t fromLearn (p := 0) (by decide)).1

/-- An offer that is acted on leaves the queues of offers. -/
theorem Dev.learn_offers (f : Nat) (o : LearnOffer) (d : Dev) : (d.learn f o).mtb.offers = d.mtb.offers := by
  unfold Dev.learn
  extract_lets key
  split
  · split
    · rfl
    · split
      · rw [Dev.learnRecord_mtb]
        exact Dev.insertNew_offers ..
      · exact Dev.insertNew_offers ..
  · next i _ _ =>
    dsimp only
    split
    · exact d.stampHit_offers 0 i
    · split
      · rw [Dev.cause_mtb]
        rfl
      · split
        · rfl
        · split
          · rfl
          · obtain ⟨-, -, -, -, hoffers⟩ := d.learnMove_entry i ((d.cuckoo 0).slot i) o
            exact hoffers

/-- A key that is absent makes an entry in the lowest free slot of its first bucket. -/
theorem Dev.learn_absent {d : Dev} {f : Nat} {o : LearnOffer} {k : Nat} (hkind : d.tabKind 0 = 1)
    (hnow : d.findKey 0 f (destKey o.vnid o.mac) = none)
    (hslot : (d.cuckoo 0).freeSlot [] (d.buckets 0 (d.newGen 0) f (padTo 32 (destKey o.vnid o.mac))).2.1 = some k) :
    ((d.learn f o).cuckoo 0).slot k = { valid := true, learned := true, gen := d.newGen 0, scope := f, lastHit := d.stampNow
                                        key := padTo 32 (destKey o.vnid o.mac), result := d.learnResult o } ∧
    ∀ j, j ≠ k → ((d.learn f o).cuckoo 0).slot j = (d.cuckoo 0).slot j := by
  obtain ⟨e, he⟩ : ∃ e : MtbEntry, { valid := true, learned := true, scope := f, lastHit := d.stampNow
                                     key := padTo 32 (destKey o.vnid o.mac), result := d.learnResult o } = e := ⟨_, rfl⟩
  obtain ⟨seen, hplan⟩ := Dev.planNew_free (d := d) (t := 0) (e := e) (k := k) (by rw [← he]; exact hslot)
  have hlearn : d.learn f o = (d.carryOut 0 e { place := (k, false), free := k, gen := d.newGen 0, seen := seen }).learnRecord 1 e := by
    unfold Dev.learn
    dsimp only
    rw [hnow]
    dsimp only
    rw [if_neg (not_not.2 hkind), he, Dev.insertNew, hplan]
    rfl
  rw [hlearn, Dev.cuckoo_congr (congrArg Mtb.tables (Dev.learnRecord_mtb ..)), Dev.carryOut, if_neg Bool.false_ne_true, Dev.cuckoo_setCuckoo, ← he]
  exact ⟨Cuckoo.slot_put_self .., fun j hj => Cuckoo.slot_put_ne _ _ hj⟩

/-- What a key that is present makes of an offer. -/
theorem Dev.learn_present {d : Dev} {f : Nat} {o : LearnOffer} {k : Nat} {b1 : Bool} (hnow : d.findKey 0 f (destKey o.vnid o.mac) = some (k, b1)) :
    d.learn f o = if ((d.cuckoo 0).slot k).source = (o.fromFunction, o.source) then d.stampHit 0 k
      else if ((d.cuckoo 0).slot k).static then (d.bump R.MTB_STATIC_CONFLICTS_count).cause mtbCauses 11
      else if ((d.cuckoo 0).slot k).pinned then d.bump R.MTB_FLAP_IGNORED_count
      else if !((d.cuckoo 0).slot k).learned then d
      else d.learnMove k ((d.cuckoo 0).slot k) o := by
  unfold Dev.learn
  dsimp only
  rw [hnow]

section
variable {d : Dev} {f : Nat} {o : LearnOffer} {k : Nat} {b1 : Bool} (hnow : d.findKey 0 f (destKey o.vnid o.mac) = some (k, b1))
include hnow

theorem Dev.learn_present_others {j : Nat} (hj : j ≠ k) : ((d.learn f o).cuckoo 0).slot j = (d.cuckoo 0).slot j := by
  rw [Dev.learn_present hnow]
  split
  · exact (d.stampHit_slots 0 k).2 j hj
  · split
    · rw [Dev.cuckoo_congr (congrArg Mtb.tables (Dev.cause_mtb ..))]
      rfl
    · split
      · rfl
      · split
        · rfl
        · obtain ⟨-, -, -, hother, -⟩ := d.learnMove_entry k ((d.cuckoo 0).slot k) o
          exact hother j hj

variable (hsource : ((d.cuckoo 0).slot k).source ≠ (o.fromFunction, o.source))
include hsource

theorem Dev.learn_static (hstatic : ((d.cuckoo 0).slot k).static = true) : ((d.learn f o).cuckoo 0).slot k = (d.cuckoo 0).slot k ∧
    (d.learn f o).on (mtbCauses.bit 11) = true ∧
    (d.learn f o).rd R.MTB_STATIC_CONFLICTS_count = (d.rd R.MTB_STATIC_CONFLICTS_count + 1) % 2 ^ R.MTB_STATIC_CONFLICTS_count.width := by
  rw [Dev.learn_present hnow, if_neg hsource, if_pos hstatic]
  refine ⟨?_, Dev.cause_on .., ?_⟩
  · rw [Dev.cuckoo_congr (congrArg Mtb.tables (Dev.cause_mtb ..))]
    rfl
  · rw [Dev.rd_cause_at _ _ _ _ _ (by decide), Dev.rd_bump_self]

theorem Dev.learn_pinned (hstatic : ((d.cuckoo 0).slot k).static = false) (hpinned : ((d.cuckoo 0).slot k).pinned = true) :
    ((d.learn f o).cuckoo 0).slot k = (d.cuckoo 0).slot k ∧
    (d.learn f o).rd R.MTB_FLAP_IGNORED_count = (d.rd R.MTB_FLAP_IGNORED_count + 1) % 2 ^ R.MTB_FLAP_IGNORED_count.width := by
  rw [Dev.learn_present hnow, if_neg hsource, hstatic, if_neg Bool.false_ne_true, if_pos hpinned]
  exact ⟨rfl, Dev.rd_bump_self ..⟩

theorem Dev.learn_moved (hstatic : ((d.cuckoo 0).slot k).static = false) (hpinned : ((d.cuckoo 0).slot k).pinned = false)
    (hlearned : ((d.cuckoo 0).slot k).learned = true) :
    (((d.learn f o).cuckoo 0).slot k).result = putBytes (padTo 16 ((d.cuckoo 0).slot k).result) 8 (sliceBytes (d.learnResult o) 8 4) ∧
    (((d.learn f o).cuckoo 0).slot k).key = ((d.cuckoo 0).slot k).key ∧ (((d.learn f o).cuckoo 0).slot k).scope = ((d.cuckoo 0).slot k).scope := by
  rw [Dev.learn_present hnow, if_neg hsource, hstatic, if_neg Bool.false_ne_true, hpinned, if_neg Bool.false_ne_true, hlearned, Bool.not_true,
    if_neg Bool.false_ne_true]
  obtain ⟨hresult, hkey, hscope, -⟩ := d.learnMove_entry k ((d.cuckoo 0).slot k) o
  exact ⟨hresult, hkey, hscope⟩

end

/-! ## The learn unit takes an offer (R217) -/

theorem Dev.lockedBuckets_congr {d e : Dev} (h : e.mtb.runs = d.mtb.runs) (t : Nat) : e.lockedBuckets t = d.lockedBuckets t := by
  rw [Dev.lockedBuckets, h, Dev.lockedBuckets]

theorem Dev.meetsLock_congr {d e : Dev} (h : e.mtb.runs = d.mtb.runs) (t : Nat) (bs : List Nat) : e.meetsLock t bs = d.meetsLock t bs := by
  rw [Dev.meetsLock, Dev.lockedBuckets_congr h, Dev.meetsLock]

theorem Dev.meetsLock_nil {d : Dev} {t : Nat} (h : d.lockedBuckets t = []) (bs : List Nat) : d.meetsLock t bs = false := by
  rw [Dev.meetsLock, h]
  exact List.any_eq_false.2 (by simp)

theorem Dev.tablesStand.learnBuckets {d e : Dev} (h : d.tablesStand e) (f : Nat) (o : LearnOffer) : e.learnBuckets f o = d.learnBuckets f o := by
  unfold Dev.learnBuckets
  dsimp only
  rw [h.findKey (by decide)]
  simp only [h.planNew (by decide : 0 < 16), h.cuckoo]

/-- The queue of Figure `f` has lost its first offer. -/
def Dev.offerTaken (f : Nat) (l : List LearnOffer) (d : Dev) : Dev := d.onMtb (fun m => { m with offers := m.offers.set f l })

/-- The learn unit of Figure `f` has left the offer that waited. -/
def Dev.offerFreed (f : Nat) (d : Dev) : Dev := d.onMtb (fun m => { m with learning := m.learning.erase f })

section
variable {f : Nat} {s : State} (h : s.dev.phase = .running)
include h

section
variable {o : LearnOffer} {l : List LearnOffer} (hqueue : s.dev.mtb.offers.getD f [] = o :: l) (hidle : s.dev.mtb.learning.get? f = none)
include hqueue hidle

theorem exec_learnOfferProcess_first : exec (.learnOfferProcess f) s = .next { s with dev := (s.dev.offerTaken f l).learnNext f { offer := o } } := by
  refine (State.onRun_running _ h : execLearnOfferProcess f s = _).trans ?_
  rw [hidle, hqueue]
  rfl

/-- With no bucket locked the oldest offer is acted on. -/
theorem exec_learnOfferProcess_learns (hfree : s.dev.lockedBuckets 0 = []) :
    exec (.learnOfferProcess f) s = .next { s with dev := ((s.dev.offerTaken f l).offerFreed f).learn f o } := by
  rw [exec_learnOfferProcess_first h hqueue hidle]
  unfold Dev.learnNext
  dsimp only
  rw [Dev.meetsLock_nil (d := s.dev.offerTaken f l) hfree, if_neg Bool.false_ne_true]
  rfl

omit h hqueue hidle in
theorem Dev.offerFreed_stands (d : Dev) : d.tablesStand ((d.offerTaken f l).offerFreed f) := ⟨rfl, Dev.regsSame_of_regs rfl⟩

/-- On a locked bucket the offer waits. -/
theorem exec_learnOfferProcess_waits (hlocked : s.dev.meetsLock 0 (s.dev.learnBuckets f o) = true) :
    ∃ s' w, exec (.learnOfferProcess f) s = .next s' ∧ s'.dev.mtb.learning.get? f = some w ∧ w.offer = o ∧ sameTable 0 s s' ∧
      s'.dev.regs = s.dev.regs := by
  have hstands : s.dev.tablesStand (s.dev.offerTaken f l) := ⟨rfl, Dev.regsSame_of_regs rfl⟩
  have hlocked' : (s.dev.offerTaken f l).meetsLock 0 ((s.dev.offerTaken f l).learnBuckets f o) = true := by
    rw [hstands.learnBuckets, ← hlocked]
    exact Dev.meetsLock_congr rfl ..
  refine ⟨_, { offer := o, seen := (s.dev.offerTaken f l).asRead 0 ((s.dev.offerTaken f l).learnBuckets f o) },
      exec_learnOfferProcess_first h hqueue hidle,
    ?_, rfl, ?_⟩
  all_goals
    dsimp only
    unfold Dev.learnNext
    dsimp only
    rw [if_pos hlocked']
  · exact (NMap.get?_set ..).trans (if_pos rfl)
  · exact ⟨rfl, rfl⟩

end

/-- The fourth failed check drops the offer that waited. -/
theorem exec_learnOfferProcess_drops {w : Learning} (hwaits : s.dev.mtb.learning.get? f = some w)
    (hfree : s.dev.meetsLock 0 (s.dev.learnBuckets f w.offer) = false) (hstale : s.dev.stillAsRead 0 w.seen = false) (hfails : 3 ≤ w.fails) :
    ∃ s', exec (.learnOfferProcess f) s = .next s' ∧ s'.dev.mtb.learning.get? f = none ∧ sameTable 0 s s' ∧
      s'.dev.rd R.MTB_LEARN_DROPS_count = (s.dev.rd R.MTB_LEARN_DROPS_count + 1) % 2 ^ R.MTB_LEARN_DROPS_count.width := by
  have hexec : exec (.learnOfferProcess f) s =
      .next { s with dev := ((s.dev.offerFreed f).bump R.MTB_LEARN_DROPS_count).cause mtbCauses 9 } := by
    refine (State.onRun_running _ h : execLearnOfferProcess f s = _).trans ?_
    rw [hwaits]
    dsimp only
    unfold Dev.learnNext
    dsimp only
    rw [hfree, if_neg Bool.false_ne_true, hstale, if_neg Bool.false_ne_true, if_pos hfails]
    rfl
  have hmtb : (((s.dev.offerFreed f).bump R.MTB_LEARN_DROPS_count).cause mtbCauses 9).mtb = (s.dev.offerFreed f).mtb := Dev.cause_mtb ..
  refine ⟨_, hexec, ?_, Dev.cuckoo_congr (congrArg Mtb.tables hmtb) 0, ?_⟩
  · dsimp only
    rw [hmtb]
    exact (NMap.get?_erase ..).trans (if_pos rfl)
  · rw [Dev.rd_cause_at _ _ _ _ _ (by decide), Dev.rd_bump_self]
    rfl

/-! ## Aging (R225) -/

section
variable {t b n : Nat} (hn : n < 4)
include hn

theorem exec_ageScanVisit : exec (.ageScanVisit t b n) s = .next { s with dev := s.dev.ageVisit t (4 * b + n) } := by
  refine (State.onRun_running _ h : execAgeScanVisit t b n s = _).trans ?_
  rw [Nat.mod_eq_of_lt hn]

/-- The scanner skips a locked bucket. -/
theorem exec_ageScanVisit_locked (hlocked : s.dev.meetsLock t [b] = true) : exec (.ageScanVisit t b n) s = .next s := by
  have hbucket : (4 * b + n) / 4 = b := by omega
  rw [exec_ageScanVisit h hn]
  unfold Dev.ageVisit
  rw [hbucket, hlocked, Bool.or_true, if_pos rfl]

variable (hscan : s.dev.on R.MTB_AGE_CONFIG_scan_enable = true) (hkind : s.dev.tabKind t = 1) (haging : s.dev.on R.MTB_TABLE_CFG_aging 0
    (32 * t) = true)
  (hb : b < s.dev.tabSize t) (hvalid : ((s.dev.cuckoo t).slot (4 * b + n)).valid = true)
  (hstatic : ((s.dev.cuckoo t).slot (4 * b + n)).static = false) (hpinned : ((s.dev.cuckoo t).slot (4 * b + n)).pinned = false)
include hscan hkind haging hb hvalid hstatic hpinned

omit h in
/-- What the scanner makes of an entry that may age. -/
theorem Dev.ageVisit_entry (hfree : s.dev.meetsLock t [b] = false) : s.dev.ageVisit t (4 * b + n) =
    if s.dev.rd R.MTB_TABLE_AGE_age_limit 0 (32 * t) < s.dev.ageOf ((s.dev.cuckoo t).slot (4 * b + n)) ∨
      2 ^ 31 ≤ s.dev.ageOf ((s.dev.cuckoo t).slot (4 * b + n)) then
      ((s.dev.setCuckoo t ((s.dev.cuckoo t).erase (4 * b + n))).bump R.MTB_AGED_count).learnRecord 3 ((s.dev.cuckoo t).slot (4 * b + n))
    else s.dev := by
  have hbucket : (4 * b + n) / 4 = b := by omega
  have hin : ¬ 4 * s.dev.tabSize t ≤ 4 * b + n := by omega
  unfold Dev.ageVisit
  rw [hscan, hkind, haging, hbucket, hfree, decide_eq_false hin]
  dsimp only
  rw [hvalid, hpinned, Bool.false_and, hstatic]
  simp only [Bool.not_true, bne_self_eq_false, Bool.or_self, Bool.false_eq_true, if_false, Bool.not_false, Bool.true_and,
    Bool.or_eq_true, decide_eq_true_eq, hpinned, hstatic]

theorem exec_ageScanVisit_aged (hfree : s.dev.meetsLock t [b] = false)
    (hold : s.dev.rd R.MTB_TABLE_AGE_age_limit 0 (32 * t) < s.dev.ageOf ((s.dev.cuckoo t).slot (4 * b + n))) :
    ∃ s', exec (.ageScanVisit t b n) s = .next s' ∧ (s'.dev.cuckoo t).slot (4 * b + n) = {} ∧
      s'.dev.rd R.MTB_AGED_count = (s.dev.rd R.MTB_AGED_count + 1) % 2 ^ R.MTB_AGED_count.width ∧
      ∀ j, j ≠ 4 * b + n → (s'.dev.cuckoo t).slot j = (s.dev.cuckoo t).slot j := by
  refine ⟨_, exec_ageScanVisit h hn, ?_⟩
  dsimp only
  rw [Dev.ageVisit_entry hn hscan hkind haging hb hvalid hstatic hpinned hfree, if_pos (.inl hold),
    Dev.cuckoo_congr (congrArg Mtb.tables (Dev.learnRecord_mtb ..)), Dev.rd_learnRecord _ _ _ ⟨by decide,
        by decide⟩ (by decide) (by decide), Dev.rd_bump_self]
  have htable : (((s.dev.setCuckoo t ((s.dev.cuckoo t).erase (4 * b + n))).bump R.MTB_AGED_count).cuckoo t) = (s.dev.cuckoo t).erase (4 * b + n) :=
    Dev.cuckoo_setCuckoo ..
  rw [htable]
  exact ⟨Cuckoo.slot_put_self .., rfl, fun j hj => Cuckoo.slot_put_ne _ _ hj⟩

theorem exec_ageScanVisit_young (hyoung : s.dev.ageOf ((s.dev.cuckoo t).slot (4 * b + n)) ≤ s.dev.rd R.MTB_TABLE_AGE_age_limit 0 (32 * t))
    (hrecent : s.dev.ageOf ((s.dev.cuckoo t).slot (4 * b + n)) < 2 ^ 31) : exec (.ageScanVisit t b n) s = .next s := by
  cases hlock : s.dev.meetsLock t [b] with
  | true => exact exec_ageScanVisit_locked h hn hlock
  | false => rw [exec_ageScanVisit h hn, Dev.ageVisit_entry hn hscan hkind haging hb hvalid hstatic hpinned hlock, if_neg (by omega)]

end

end

/-! ## Rehash (R219) -/

section
variable {t : Nat} {s : State} (h : s.dev.phase = .running) (ht : t < 16) (hkind : s.dev.tabKind t = 1)
include h ht hkind

theorem exec_rehashStart (hidle : s.dev.on R.MTB_STATUS_rehash_active = false) : ∃ s', exec (.rehashStart t) s = .next s' ∧
    s'.dev.rehashing t = true ∧ s'.dev.rd R.MTB_REHASH_POS_bucket = 0 ∧ s'.dev.rd R.MTB_STATUS_rehash_stalled = 0 ∧ s'.dev.mtb = s.dev.mtb := by
  have hstart : s.dev.rehashStart t =
      (((s.dev.wr R.MTB_STATUS_rehash_active 1).wr R.MTB_STATUS_rehash_table t).wr R.MTB_STATUS_rehash_stalled 0).wr R.MTB_REHASH_POS_bucket 0 := by
    unfold Dev.rehashStart
    rw [hidle, hkind, bne_self_eq_false, Bool.or_self, if_neg Bool.false_ne_true]
  refine ⟨_, (State.onRun_running _ h : execRehashStart t s = _), ?_⟩
  dsimp only
  rw [hstart]
  have hnumber : t % 2 ^ R.MTB_STATUS_rehash_table.width = t := Nat.mod_eq_of_lt ht
  refine ⟨?_, Dev.rd_wr_self .., ?_, rfl⟩
  · rw [Dev.rehashing, Dev.on, Dev.rd_wr_at _ _ _ _ _ _ (by decide), Dev.rd_wr_at _ _ _ _ _ _ (by decide), Dev.rd_wr_at _ _ _ _ _ _ (by decide),
      Dev.rd_wr_self, Dev.rd_wr_at _ _ _ _ _ _ (by decide), Dev.rd_wr_at _ _ _ _ _ _ (by decide), Dev.rd_wr_self, hnumber, beq_self_eq_true]
    rfl
  · rw [Dev.rd_wr_at _ _ _ _ _ _ (by decide), Dev.rd_wr_self]
    rfl

omit ht hkind in
theorem exec_rehashResume (hactive : s.dev.rehashing t = true) (hstalled : s.dev.on R.MTB_STATUS_rehash_stalled = true) :
    ∃ s', exec (.rehashResume t) s = .next s' ∧ s'.dev.rd R.MTB_STATUS_rehash_stalled = 0 ∧ s'.dev.mtb = s.dev.mtb := by
  refine ⟨_, (State.onRun_running _ h : execRehashResume t s = _), ?_⟩
  dsimp only
  rw [Dev.rehashResume, hactive, hstalled, Bool.and_self, if_pos rfl]
  exact ⟨Dev.rd_wr_self .., rfl⟩

omit h ht hkind in
/-- A slot that does not await the walk is passed over. -/
theorem Dev.rehashSlot_passes {d : Dev} {i : Nat} (hdone : d.awaitsWalk t i = false) : d.rehashSlot t i = d := by
  unfold Dev.rehashSlot
  dsimp only
  rw [hdone, Bool.not_false, Bool.or_true, if_pos rfl]

omit h ht hkind in
theorem Dev.rehashSlots_pass {d : Dev} {l : List Nat} {b : Nat} (hdone : ∀ n ∈ l, d.awaitsWalk t (4 * b + n) = false) :
    Dev.each l (fun n d => d.rehashSlot t (4 * b + n)) d = d := by
  induction l with
  | nil => rfl
  | cons n l ih =>
    show Dev.each l _ (d.rehashSlot t (4 * b + n)) = d
    rw [Dev.rehashSlot_passes (hdone n List.mem_cons_self)]
    exact ih fun k hk => hdone k (List.mem_cons_of_mem _ hk)

variable (hactive : s.dev.rehashing t = true) (hgoes : s.dev.on R.MTB_STATUS_rehash_stalled = false)
include hactive hgoes

omit h ht hkind hactive hgoes in
/-- Bucket `b` is done: the walk goes on, or ends. -/
def Dev.walkOn (t b : Nat) (d : Dev) : Dev :=
  if b + 1 < d.tabSize t then d.wr R.MTB_REHASH_POS_bucket (b + 1)
  else ((d.wr R.MTB_TABLE_GEN_cur_gen (1 - d.curGen t) 0 (32 * t)).wr R.MTB_STATUS_rehash_active 0).cause mtbCauses 1

omit h ht hkind hactive hgoes in
theorem Dev.walkOn_mtb (t b : Nat) (d : Dev) : (d.walkOn t b).mtb = d.mtb := by
  unfold Dev.walkOn
  split
  · rfl
  · exact Dev.cause_mtb ..

omit ht hkind in
/-- The walk of a bucket that nothing is left in, and from which the walker has moved what it could, in `d`. -/
theorem exec_rehashWalkBucket {d : Dev}
    (hmoved : Dev.each (List.range 4) (fun n d => d.rehashSlot t (4 * s.dev.rd R.MTB_REHASH_POS_bucket + n)) s.dev = d)
    (hdone : ∀ n < 4, d.awaitsWalk t (4 * s.dev.rd R.MTB_REHASH_POS_bucket + n) = false) :
    exec (.rehashWalkBucket t) s = .next { s with dev := d.walkOn t (s.dev.rd R.MTB_REHASH_POS_bucket) } := by
  have hnone : (List.range 4).any (fun n => d.awaitsWalk t (4 * s.dev.rd R.MTB_REHASH_POS_bucket + n)) = false :=
    List.any_eq_false.2 fun n hn => by rw [hdone n (List.mem_range.1 hn)]; exact Bool.false_ne_true
  refine (State.onRun_running _ h : execRehashWalkBucket t s = _).trans ?_
  unfold Dev.rehashWalk
  rw [hactive, hgoes, Bool.not_true, Bool.or_self, if_neg Bool.false_ne_true]
  dsimp only
  rw [hmoved, hnone, if_neg Bool.false_ne_true]
  rfl

omit hkind in
/-- An empty bucket is passed over: the walk goes on, or ends with the generation turned. -/
theorem exec_rehashWalkBucket_empty
    (hempty : ∀ n, n < 4 → ((s.dev.cuckoo t).slot (4 * s.dev.rd R.MTB_REHASH_POS_bucket + n)).valid = false) :
    ∃ s', exec (.rehashWalkBucket t) s = .next s' ∧ s'.dev.mtb = s.dev.mtb ∧
      (if s.dev.rd R.MTB_REHASH_POS_bucket + 1 < s.dev.tabSize t then
        s'.dev.rd R.MTB_REHASH_POS_bucket = (s.dev.rd R.MTB_REHASH_POS_bucket + 1) % 2 ^ R.MTB_REHASH_POS_bucket.width ∧ s'.dev.rehashing t = true
      else s'.dev.curGen t = (1 - s.dev.curGen t) % 2 ∧ s'.dev.on R.MTB_STATUS_rehash_active = false ∧ s'.dev.on (mtbCauses.bit 1) = true) := by
  have hdone (n : Nat) (hn : n < 4) : s.dev.awaitsWalk t (4 * s.dev.rd R.MTB_REHASH_POS_bucket + n) = false := by
    rw [Dev.awaitsWalk, hempty n hn, Bool.false_and]
  refine ⟨_, exec_rehashWalkBucket h hactive hgoes (Dev.rehashSlots_pass fun n hn => hdone n (List.mem_range.1 hn)) hdone, Dev.walkOn_mtb .., ?_⟩
  dsimp only
  unfold Dev.walkOn
  by_cases hmore : s.dev.rd R.MTB_REHASH_POS_bucket + 1 < s.dev.tabSize t
  · rw [if_pos hmore, if_pos hmore]
    refine ⟨Dev.rd_wr_self .., ?_⟩
    rw [Dev.rehashing, Dev.on, Dev.rd_wr_at _ _ _ _ _ _ (by decide), Dev.rd_wr_at _ _ _ _ _ _ (by decide)]
    exact hactive
  · rw [if_neg hmore, if_neg hmore]
    have hgen {f : Field} (hunit : f.unit = 49) (hoff : f.off < 0x100) (hlsb : f.lsb < 32) : R.MTB_TABLE_GEN_cur_gen.key 0 (32 * t) ≠ f.key 0 0 := by
      simp only [Field.key, R.MTB_TABLE_GEN_cur_gen, hunit]
      omega
    refine ⟨?_, ?_, Dev.cause_on ..⟩
    · rw [Dev.curGen, Dev.rd_cause_ne _ _ _ _ _ _ _ (hgen rfl (by decide) (by decide)),
          Dev.rd_wr_ne _ _ _ _ _ _ _ _ (hgen rfl (by decide) (by decide)),
        Dev.rd_wr_self]
      rfl
    · rw [Dev.on, Dev.rd_cause_at _ _ _ _ _ (by decide), Dev.rd_wr_self]
      rfl

omit h ht hkind hgoes in
/-- New entries of a table that is rehashed are placed under the other generation. -/
theorem Dev.newGen_rehashing : s.dev.newGen t = 1 - s.dev.curGen t := by rw [Dev.newGen, if_pos hactive]

omit ht hkind in
/-- The only entry of a bucket moves to a free place of another bucket under the new seeds. -/
theorem exec_rehashWalkBucket_moves {k : Nat} (hfree : s.dev.lockedBuckets t = [])
    (hvalid : ((s.dev.cuckoo t).slot (4 * s.dev.rd R.MTB_REHASH_POS_bucket)).valid = true)
    (hgen : ((s.dev.cuckoo t).slot (4 * s.dev.rd R.MTB_REHASH_POS_bucket)).gen = s.dev.curGen t)
    (hempty : ∀ n, 1 ≤ n → n < 4 → ((s.dev.cuckoo t).slot (4 * s.dev.rd R.MTB_REHASH_POS_bucket + n)).valid = false)
    (hslot : (s.dev.cuckoo t).freeSlot [4 * s.dev.rd R.MTB_REHASH_POS_bucket] (s.dev.buckets t (1 - s.dev.curGen t)
      ((s.dev.cuckoo t).slot (4 * s.dev.rd R.MTB_REHASH_POS_bucket)).scope ((s.dev.cuckoo t).slot
          (4 * s.dev.rd R.MTB_REHASH_POS_bucket)).key).2.1 = some k)
    (hother : k / 4 ≠ s.dev.rd R.MTB_REHASH_POS_bucket) :
    ∃ s', exec (.rehashWalkBucket t) s = .next s' ∧ (s'.dev.cuckoo t).slot (4 * s.dev.rd R.MTB_REHASH_POS_bucket) = {} ∧
      (s'.dev.cuckoo t).slot k = { (s.dev.cuckoo t).slot (4 * s.dev.rd R.MTB_REHASH_POS_bucket) with gen := 1 - s.dev.curGen t, table := t } := by
  generalize hb : s.dev.rd R.MTB_REHASH_POS_bucket = b at *
  obtain ⟨e, he⟩ : ∃ e, (s.dev.cuckoo t).slot (4 * b) = e := ⟨_, rfl⟩
  obtain ⟨c, hc⟩ : ∃ c : Cuckoo, ((s.dev.cuckoo t).put k { e with gen := 1 - s.dev.curGen t, table := t }).erase (4 * b) = c := ⟨_, rfl⟩
  have hk : k ≠ 4 * b := by omega
  have hself : c.slot (4 * b) = {} := by rw [← hc]; exact Cuckoo.slot_put_self ..
  have hmoved : c.slot k = { e with gen := 1 - s.dev.curGen t, table := t } := by
    rw [← hc]
    exact (Cuckoo.slot_put_ne _ _ hk).trans (Cuckoo.slot_put_self ..)
  have hstays (n : Nat) (hlow : 1 ≤ n) (hn : n < 4) : c.slot (4 * b + n) = (s.dev.cuckoo t).slot (4 * b + n) := by
    rw [← hc]
    exact (Cuckoo.slot_put_ne _ _ (by omega)).trans (Cuckoo.slot_put_ne _ _ (by omega))
  have hplan : ∃ seen, s.dev.planNew t [4 * b] e = some { place := (k, false), free := k, gen := 1 - s.dev.curGen t, seen := seen } := by
    unfold Dev.planNew
    dsimp only
    rw [Dev.newGen_rehashing hactive, ← he, hslot]
    exact ⟨_, rfl⟩
  obtain ⟨seen, hplan⟩ := hplan
  have hawaits : s.dev.awaitsWalk t (4 * b) = true := by rw [Dev.awaitsWalk, hvalid, hgen, beq_self_eq_true, Bool.true_and]
  obtain ⟨d, hd⟩ : ∃ d : Dev, s.dev.rehashSlot t (4 * b) = d := ⟨_, rfl⟩
  have htable : d.cuckoo t = c := by
    rw [← hd]
    unfold Dev.rehashSlot
    dsimp only
    rw [hgoes, hawaits, Bool.not_true, Bool.or_self, if_neg Bool.false_ne_true, he, hplan]
    dsimp only
    rw [Dev.meetsLock_nil hfree, if_neg Bool.false_ne_true, Dev.cuckoo_setCuckoo, Dev.carryOut, if_neg Bool.false_ne_true, Dev.cuckoo_setCuckoo]
    exact hc
  have hdone (n : Nat) (hn : n < 4) : d.awaitsWalk t (4 * b + n) = false := by
    rw [Dev.awaitsWalk, htable]
    rcases Nat.eq_zero_or_pos n with rfl | hlow
    · rw [Nat.add_zero, hself, Bool.false_and]
    · rw [hstays n hlow hn, hempty n hlow hn, Bool.false_and]
  have hwalk : Dev.each (List.range 4) (fun n d => d.rehashSlot t (4 * b + n)) s.dev = d := by
    have hfour : List.range 4 = 0 :: [1, 2, 3] := rfl
    rw [hfour, Dev.each, List.foldl_cons, Nat.add_zero, hd]
    exact Dev.rehashSlots_pass fun n hn => hdone n (by simp at hn; omega)
  rw [← hb] at hwalk hdone
  refine ⟨_, exec_rehashWalkBucket h hactive hgoes hwalk hdone, ?_⟩
  dsimp only
  rw [Dev.cuckoo_congr (congrArg Mtb.tables (Dev.walkOn_mtb ..)), htable]
  exact ⟨hself, by rw [hmoved, he]⟩

end

/-- What an offer that is acted on at once reads of the device with the offer taken up. -/
theorem exec_learnOfferProcess_now {f : Nat} {o : LearnOffer} {l : List LearnOffer} {s : State} (h : s.dev.phase = .running)
    (hqueue : s.dev.mtb.offers.getD f [] = o :: l) (hidle : s.dev.mtb.learning.get? f = none) (hkind : s.dev.tabKind 0 = 1)
    (hfree : s.dev.lockedBuckets 0 = []) :
    let key := destKey o.vnid o.mac
    ∃ s', exec (.learnOfferProcess f) s = .next s' ∧ s'.dev.mtb.offers.getD f [] = l ∧
      (∀ k, s.dev.findKey 0 f key = none → (s.dev.cuckoo 0).freeSlot [] (s.dev.buckets 0 (s.dev.newGen 0) f (padTo 32 key)).2.1 = some k →
        (s'.dev.cuckoo 0).slot k = { valid := true, learned := true, gen := s.dev.newGen 0, scope := f, lastHit := s.dev.stampNow
                                     key := padTo 32 key, result := s.dev.learnResult o } ∧
        ∀ j, j ≠ k → (s'.dev.cuckoo 0).slot j = (s.dev.cuckoo 0).slot j) ∧
      (∀ k b1, s.dev.findKey 0 f key = some (k, b1) →
        let e := (s.dev.cuckoo 0).slot k
        (∀ j, j ≠ k → (s'.dev.cuckoo 0).slot j = (s.dev.cuckoo 0).slot j) ∧
        (e.source ≠ (o.fromFunction, o.source) → e.static = true → (s'.dev.cuckoo 0).slot k = e ∧ s'.dev.on (mtbCauses.bit 11) = true ∧
          s'.dev.rd R.MTB_STATIC_CONFLICTS_count = (s.dev.rd R.MTB_STATIC_CONFLICTS_count + 1) % 2 ^ R.MTB_STATIC_CONFLICTS_count.width) ∧
        (e.source ≠ (o.fromFunction, o.source) → e.static = false → e.pinned = true → (s'.dev.cuckoo 0).slot k = e ∧
          s'.dev.rd R.MTB_FLAP_IGNORED_count = (s.dev.rd R.MTB_FLAP_IGNORED_count + 1) % 2 ^ R.MTB_FLAP_IGNORED_count.width) ∧
        (e.valid = true → e.source ≠ (o.fromFunction, o.source) → e.static = false → e.pinned = false → e.learned = true →
          ((s'.dev.cuckoo 0).slot k).result = putBytes (padTo 16 e.result) 8 (sliceBytes (s.dev.learnResult o) 8 4) ∧
          ((s'.dev.cuckoo 0).slot k).key = e.key ∧ ((s'.dev.cuckoo 0).slot k).scope = e.scope)) := by
  intro key
  have hstands := s.dev.offerFreed_stands (f := f) (l := l)
  have hregs : ((s.dev.offerTaken f l).offerFreed f).regs = s.dev.regs := rfl
  have hoffers : ((s.dev.offerTaken f l).offerFreed f).mtb.offers.getD f [] = l := NMap.getD_set_self ..
  have hresult : ((s.dev.offerTaken f l).offerFreed f).learnResult o = s.dev.learnResult o := rfl
  refine ⟨_, exec_learnOfferProcess_learns h hqueue hidle hfree, ?_⟩
  dsimp only
  rw [Dev.learn_offers]
  generalize (s.dev.offerTaken f l).offerFreed f = d at hstands hregs hoffers hresult ⊢
  have hrd (g : Field) : d.rd g = s.dev.rd g := Dev.rd_congr hregs ..
  refine ⟨hoffers, fun k hnow hslot => ?_, fun k b1 hnow => ?_⟩
  · have hnew := Dev.learn_absent (d := d) (k := k) ((hstands.tabKind 0).trans hkind) ((hstands.findKey (by decide) ..).trans hnow)
      (by rw [hstands.cuckoo, hstands.newGen (by decide), hstands.buckets (by decide)]; exact hslot)
    rw [hstands.cuckoo, hstands.newGen (by decide), hstands.stampNow, hresult] at hnew
    exact hnew
  · have hnow' := (hstands.findKey (by decide) f key).trans hnow
    have hcuckoo := hstands.cuckoo 0
    refine ⟨fun j hj => hcuckoo ▸ Dev.learn_present_others hnow' hj, fun hsource hstatic => ?_, fun hsource hstatic hpinned => ?_,
      fun _ hsource hstatic hpinned hlearned => ?_⟩
    · have := Dev.learn_static hnow' (by rw [hcuckoo]; exact hsource) (by rw [hcuckoo]; exact hstatic)
      rwa [hcuckoo, hrd] at this
    · have := Dev.learn_pinned hnow' (by rw [hcuckoo]; exact hsource) (by rw [hcuckoo]; exact hstatic) (by rw [hcuckoo]; exact hpinned)
      rwa [hcuckoo, hrd] at this
    · have := Dev.learn_moved hnow' (by rw [hcuckoo]; exact hsource) (by rw [hcuckoo]; exact hstatic) (by rw [hcuckoo]; exact hpinned)
        (by rw [hcuckoo]; exact hlearned)
      rwa [hcuckoo, hresult] at this

/-- Settles O44: the learn unit, the age scanner and the walk of a rehash. -/
theorem learningAndRehash : Obligations.LearningAndRehash := by
  unfold Obligations.LearningAndRehash
  refine ⟨fun s h => ⟨fun f o l hqueue hidle hkind => ⟨exec_learnOfferProcess_now h hqueue hidle hkind, exec_learnOfferProcess_waits h hqueue hidle⟩,
      fun f w => exec_learnOfferProcess_drops h, fun t b n hscan hkind haging hb hn hvalid hstatic hpinned =>
        ⟨exec_ageScanVisit_aged h hn hscan hkind haging hb hvalid hstatic hpinned, exec_ageScanVisit_locked h hn,
          exec_ageScanVisit_young h hn hscan hkind haging hb hvalid hstatic hpinned⟩⟩,
    fun t s h ht hkind => ⟨exec_rehashStart h ht hkind, fun hactive => ⟨exec_rehashResume h hactive, fun hgoes =>
      ⟨exec_rehashWalkBucket_empty h ht hactive hgoes, fun k => exec_rehashWalkBucket_moves h hactive hgoes⟩⟩⟩⟩

end Sys2Proof.Machine
end

section
/-!
The background compare (R230, R231).
-/

namespace Sys2Proof.Machine

/-! ## Passes of the background compare (R230) -/

/-- A record is compared by the registers and the tables. -/
theorem Dev.compareRecord_congr {d e : Dev} (hregs : e.regs = d.regs) (htables : e.mtb.tables = d.mtb.tables) (t : Nat) (b : List Byte) :
    e.compareRecord t b = d.compareRecord t b := by
  have hfind (scope : Nat) (key : List Byte) : e.findKey t scope key = d.findKey t scope key := by
    simp only [Dev.findKey, Dev.probe, Dev.rehashing, Dev.curGen, Dev.buckets, Dev.tabKeyLen, Dev.seeds, Dev.tabSize, Dev.keyIs, Dev.on,
      Dev.rd_congr hregs, Dev.cuckoo_congr htables]
    rfl
  unfold Dev.compareRecord
  simp only [hfind, Dev.cuckoo_congr htables]

/-- The end of a pass, before its cause is set. -/
def Dev.passEnded (hostError : Bool) (d : Dev) : Dev :=
  let e := (d.wr R.MTB_STATUS_compare_active 0).onCompare (fun c => { c with waits := d.rd R.MTB_COMPARE_CTRL_compare_interval != 0 })
  if hostError then e.wr R.MTB_COMPARE_STATUS_host_error 1 else e.bump R.MTB_COMPARE_STATUS_passes

theorem Dev.comparePassEnd_eq (hostError : Bool) (d : Dev) : d.comparePassEnd hostError = (d.passEnded hostError).cause mtbCauses 6 := rfl

/-- What the end of a pass leaves of the compare. -/
theorem Dev.comparePassEnd_compare (hostError : Bool) (d : Dev) : (d.comparePassEnd hostError).mtb.compare.recheck = d.mtb.compare.recheck ∧
    (d.comparePassEnd hostError).mtb.compare.region = d.mtb.compare.region := by
  rw [Dev.comparePassEnd_eq, Dev.cause_mtb]
  cases hostError <;> exact ⟨rfl, rfl⟩

theorem Dev.comparePassEnd_inactive (hostError : Bool) (d : Dev) : (d.comparePassEnd hostError).on R.MTB_STATUS_compare_active = false := by
  have hended : (d.passEnded hostError).rd R.MTB_STATUS_compare_active = 0 := by
    cases hostError
    · show Dev.rd (Dev.bump _ _) _ = 0
      rw [Dev.rd_bump_at _ _ _ _ _ _ (by decide)]
      exact Dev.rd_wr_self ..
    · show Dev.rd (Dev.wr _ _ _) _ = 0
      rw [Dev.rd_wr_at _ _ _ _ _ _ (by decide)]
      exact Dev.rd_wr_self ..
  rw [Dev.comparePassEnd_eq, Dev.on, Dev.rd_cause_at _ _ _ _ _ (by decide), hended]
  rfl

/-- A field that the end of a pass does not write. -/
theorem Dev.rd_comparePassEnd (hostError : Bool) (d : Dev) {f : Field} (hactive : f.key 0 0 ≠ R.MTB_STATUS_compare_active.key 0 0)
    (herror : f.key 0 0 ≠ R.MTB_COMPARE_STATUS_host_error.key 0 0) (hpasses : f.key 0 0 ≠ R.MTB_COMPARE_STATUS_passes.key 0 0)
    (hcause : f.key 0 0 ≠ (mtbCauses.bit 6).key 0 0) : (d.comparePassEnd hostError).rd f = d.rd f := by
  have hfirst (g : Compare → Compare) : ((d.wr R.MTB_STATUS_compare_active 0).onCompare g).rd f = d.rd f := Dev.rd_wr_at _ _ _ _ _ _ hactive
  rw [Dev.comparePassEnd_eq, Dev.rd_cause_at _ _ _ _ _ hcause]
  cases hostError
  · exact (Dev.rd_bump_at _ _ _ _ _ _ hpasses).trans (hfirst _)
  · exact (Dev.rd_wr_at _ _ _ _ _ _ herror).trans (hfirst _)

/-- The pass has begun, and has read nothing. -/
def Dev.passBegun (d : Dev) : Dev := (d.wr R.MTB_STATUS_compare_active 1).onCompare (fun c => { c with region := 0, waits := false })

theorem Dev.rd_passBegun (d : Dev) {f : Field} (h : f.key 0 0 ≠ R.MTB_STATUS_compare_active.key 0 0) : d.passBegun.rd f = d.rd f :=
  Dev.rd_wr_at _ _ _ _ _ _ h

theorem Dev.compareStart_idle {d : Dev} (h : d.on R.MTB_STATUS_compare_active = false) : d.compareStart = d.passBegun.compareFetch := by
  unfold Dev.compareStart
  rw [h, if_neg Bool.false_ne_true]
  rfl

section
variable {t mid : Nat} {data : List Byte} {s : State} (h : s.dev.phase = .running)
include h

/-- A pass over no records ends at once. -/
theorem exec_compareStart_empty (hidle : s.dev.on R.MTB_STATUS_compare_active = false) (hnone : s.dev.rd R.MTB_COMPARE_COUNT_records = 0) :
    ∃ s', exec (.compareStart t) s = .next s' ∧ s'.dev.on R.MTB_STATUS_compare_active = false ∧ s'.dev.rd R.MTB_COMPARE_CTRL_table = t % 16 ∧
      s'.dev.on R.MTB_COMPARE_CTRL_enable = true ∧
      s'.dev.rd R.MTB_COMPARE_STATUS_passes = (s.dev.rd R.MTB_COMPARE_STATUS_passes + 1) % 2 ^ R.MTB_COMPARE_STATUS_passes.width ∧
      s'.dev.on (mtbCauses.bit 6) = true ∧ s'.dev.mtb.compare.recheck = s.dev.mtb.compare.recheck := by
  obtain ⟨e, he⟩ : ∃ e, (s.dev.wr R.MTB_COMPARE_CTRL_table t).wr R.MTB_COMPARE_CTRL_enable 1 = e := ⟨_, rfl⟩
  have hrd {f : Field} (htable : f.key 0 0 ≠ R.MTB_COMPARE_CTRL_table.key 0 0) (henable : f.key 0 0 ≠ R.MTB_COMPARE_CTRL_enable.key 0 0) :
      e.rd f = s.dev.rd f := by
    rw [← he, Dev.rd_wr_at _ _ _ _ _ _ henable, Dev.rd_wr_at _ _ _ _ _ _ htable]
  have hpass : e.compareStart = e.passBegun.comparePassEnd false := by
    rw [Dev.compareStart_idle (by rw [Dev.on, hrd (by decide) (by decide)]; exact hidle)]
    unfold Dev.compareFetch
    dsimp only
    rw [Dev.rd_passBegun _ (by decide), hrd (by decide) (by decide), hnone, if_pos (Nat.zero_le _)]
  have hexec : exec (.compareStart t) s = .next { s with dev := e.passBegun.comparePassEnd false } := by
    refine (State.onRun_running _ h : execCompareStart t s = _).trans ?_
    rw [he, hpass]
  refine ⟨_, hexec, Dev.comparePassEnd_inactive .., ?_, ?_, ?_, Dev.cause_on .., ?_⟩
  · rw [Dev.rd_comparePassEnd _ _ (by decide) (by decide) (by decide) (by decide), Dev.rd_passBegun _ (by decide), ← he,
      Dev.rd_wr_at _ _ _ _ _ _ (by decide), Dev.rd_wr_self]
    rfl
  · rw [Dev.on, Dev.rd_comparePassEnd _ _ (by decide) (by decide) (by decide) (by decide), Dev.rd_passBegun _ (by decide), ← he, Dev.rd_wr_self]
    rfl
  · have hpasses : e.passBegun.rd R.MTB_COMPARE_STATUS_passes = s.dev.rd R.MTB_COMPARE_STATUS_passes := by
      rw [Dev.rd_passBegun _ (by decide), hrd (by decide) (by decide)]
    rw [Dev.comparePassEnd_eq, Dev.rd_cause_at _ _ _ _ _ (by decide), ← hpasses]
    show Dev.rd (Dev.bump (Dev.onCompare (Dev.wr e.passBegun _ 0) _) _) _ = _
    rw [Dev.rd_bump_self]
    exact congrArg (fun n => (n + 1) % _) (Dev.rd_wr_at _ _ _ _ _ _ (by decide))
  · rw [(Dev.comparePassEnd_compare ..).1, ← he]
    rfl

/-- A pass whose PF may not issue ends with a host error. -/
theorem exec_compareIntervalExpiry_error (hidle : s.dev.on R.MTB_STATUS_compare_active = false) (hwaits : s.dev.mtb.compare.waits = true)
    (henable : s.dev.on R.MTB_COMPARE_CTRL_enable = true) (htable : s.dev.rd R.MTB_COMPARE_CTRL_table = t) (ht : t < 16)
    (hsome : 0 < s.dev.rd R.MTB_COMPARE_COUNT_records) (hissue : s.dev.canIssue (s.dev.rd R.MTB_COMPARE_CTRL_compare_pf) = false) :
    ∃ s', exec (.compareIntervalExpiry t) s = .next s' ∧ s'.dev.rd R.MTB_COMPARE_STATUS_host_error = 1 ∧
      s'.dev.on R.MTB_STATUS_compare_active = false ∧ s'.dev.mtb.compare.region = 0 := by
  have hissue' : s.dev.passBegun.canIssue (s.dev.rd R.MTB_COMPARE_CTRL_compare_pf) = false := by
    rw [← hissue]
    have hlink (n : Nat) : s.dev.passBegun.linkUp n = s.dev.linkUp n := by
      unfold Dev.linkUp
      rw [show s.dev.passBegun.rd R.PCX_LINK_STATUS_state n = s.dev.rd R.PCX_LINK_STATUS_state n from Dev.rd_wr_ne _ _ _ _ _ _ _ _ (by
        simp only [Field.key, R.PCX_LINK_STATUS_state, R.MTB_STATUS_compare_active]
        omega)]
    unfold Dev.canIssue
    rw [hlink]
    rfl
  have hpass : s.dev.compareStart = s.dev.passBegun.comparePassEnd true := by
    rw [Dev.compareStart_idle hidle]
    unfold Dev.compareFetch
    dsimp only
    have hregion : s.dev.passBegun.mtb.compare.region = 0 := rfl
    rw [Dev.rd_passBegun _ (by decide), Dev.rd_passBegun _ (by decide), hregion, if_neg (by omega), hissue', Bool.not_false, if_pos rfl]
  have hexec : exec (.compareIntervalExpiry t) s = .next { s with dev := s.dev.passBegun.comparePassEnd true } := by
    refine (State.onRun_running _ h : execCompareIntervalExpiry t s = _).trans ?_
    rw [hwaits, henable, htable, Nat.mod_eq_of_lt ht, beq_self_eq_true, Bool.and_self, Bool.and_self, if_pos rfl, hpass]
  refine ⟨_, hexec, ?_, Dev.comparePassEnd_inactive .., (Dev.comparePassEnd_compare ..).2.trans rfl⟩
  rw [Dev.comparePassEnd_eq, Dev.rd_cause_at _ _ _ _ _ (by decide)]
  exact Dev.rd_wr_self ..

/-- The records of the first region that differ wait to be checked again. -/
theorem exec_compareRegion_first (hactive : s.dev.on R.MTB_STATUS_compare_active = true) (henable : s.dev.on R.MTB_COMPARE_CTRL_enable = false)
    (hregion : s.dev.mtb.compare.region = 0) (hcap : s.dev.rd R.MTB_COMPARE_COUNT_records ≤ 64) :
    ∃ s', exec (.compareRegion t data) s = .next s' ∧ s'.dev.mtb.compare.region = 1 ∧
      ∀ k, k < s.dev.rd R.MTB_COMPARE_COUNT_records → s.dev.mtb.compare.recheck = [] →
        (k ∈ s'.dev.mtb.compare.recheck ↔ s.dev.compareRecord t (sliceBytes data (64 * k) 64) ≠ 0) := by
  obtain ⟨bad, hbad⟩ : ∃ bad, (List.range (min 64 (s.dev.rd R.MTB_COMPARE_COUNT_records - 64 * 0))).filter
      (fun k => s.dev.compareRecord t (sliceBytes data (64 * k) 64) != 0) = bad := ⟨_, rfl⟩
  obtain ⟨e, he⟩ : ∃ e, s.dev.onCompare (fun c => { c with region := c.region + 1, recheck := c.recheck ++ bad.map (64 * 0 + ·) }) = e := ⟨_, rfl⟩
  have henable' : e.on R.MTB_COMPARE_CTRL_enable = false := by rw [← he]; exact henable
  have hexec : exec (.compareRegion t data) s = .next { s with dev := e.wr R.MTB_STATUS_compare_active 0 } := by
    refine (State.onRun_running _ h : execCompareRegion t data s = _).trans ?_
    unfold Dev.compareRegion
    dsimp only
    rw [hactive, Bool.not_true, if_neg Bool.false_ne_true, hregion, hbad, he, henable', if_neg Bool.false_ne_true]
  refine ⟨_, hexec, ?_, fun k hk hnone => ?_⟩
  · show e.mtb.compare.region = 1
    rw [← he]
    show s.dev.mtb.compare.region + 1 = 1
    rw [hregion]
  · show k ∈ e.mtb.compare.recheck ↔ _
    rw [← he]
    show k ∈ s.dev.mtb.compare.recheck ++ bad.map (64 * 0 + ·) ↔ _
    have hin : k < min 64 (s.dev.rd R.MTB_COMPARE_COUNT_records - 64 * 0) := by omega
    rw [hnone, ← hbad]
    simp only [Nat.mul_zero, Nat.zero_add, List.map_id', List.nil_append, List.mem_filter, List.mem_range, bne_iff_ne]
    exact and_iff_right hin

/-! ## Records that are checked again, and the FIFO (R231) -/

theorem exec_compareRecheck_oldest {n : Nat} {l : List Nat} (hnext : s.dev.mtb.compare.recheck = n :: l)
    (hroom : s.dev.mtb.compare.fifo.length < 64) :
    ∃ s', exec (.compareRecheck t data) s = .next s' ∧ s'.dev.mtb.compare.recheck = l ∧
      s'.dev.mtb.compare.fifo = s.dev.mtb.compare.fifo ++
        (if s.dev.compareRecord t data = 0 then [] else [n + 2 ^ 24 * s.dev.compareRecord t data + 2 ^ 31]) ∧
      (s.dev.compareRecord t data ≠ 0 → s'.dev.on (mtbCauses.bit 5) = true) := by
  obtain ⟨e, he⟩ : ∃ e, s.dev.onCompare (fun c => { c with recheck := l }) = e := ⟨_, rfl⟩
  have hrecord : e.compareRecord t data = s.dev.compareRecord t data := by
    rw [← he]
    exact Dev.compareRecord_congr rfl rfl t data
  have hlist : e.mtb.compare.recheck = l ∧ e.mtb.compare.fifo = s.dev.mtb.compare.fifo := by rw [← he]; exact ⟨rfl, rfl⟩
  obtain ⟨hleft, hfifo⟩ := hlist
  refine ⟨_, (State.onRun_running _ h : execCompareRecheck t data s = _), ?_⟩
  dsimp only
  unfold Dev.compareRecheck
  rw [hnext]
  dsimp only
  rw [he, hrecord]
  by_cases hsame : s.dev.compareRecord t data = 0
  · rw [if_pos hsame, if_pos hsame, List.append_nil]
    exact ⟨hleft, hfifo, fun hne => absurd hsame hne⟩
  · rw [if_neg hsame, if_neg hsame, hfifo, if_pos hroom, Dev.cause_mtb]
    refine ⟨hleft, ?_, fun _ => Dev.cause_on ..⟩
    show e.mtb.compare.fifo ++ _ = _
    rw [hfifo]

theorem exec_compareFifoRead : exec (.compareFifoRead mid) s =
    .next { s with dev := s.dev.popCompare.2.emit (.answer mid s.dev.popCompare.1) } :=
  (State.onRun_running _ h : execCompareFifoRead mid s = _)

theorem exec_compareFifoRead_oldest {w : Nat} {l : List Nat} (hfifo : s.dev.mtb.compare.fifo = w :: l) :
    ∃ s', exec (.compareFifoRead mid) s = .next s' ∧ s'.dev.mtb.compare.fifo = l ∧ s'.dev.out = s.dev.out ++ [.answer mid w] := by
  refine ⟨_, exec_compareFifoRead h, ?_⟩
  dsimp only
  rw [Dev.popCompare, hfifo]
  exact ⟨rfl, rfl⟩

theorem exec_compareFifoRead_empty (hfifo : s.dev.mtb.compare.fifo = []) :
    exec (.compareFifoRead mid) s = .next { s with dev := s.dev.emit (.answer mid 0) } := by
  rw [exec_compareFifoRead h, Dev.popCompare, hfifo]

end

/-- Settles O45: the passes, the records that are checked again, and the FIFO. -/
theorem backgroundCompare : Obligations.BackgroundCompare := by
  unfold Obligations.BackgroundCompare
  intro t mid data s h
  exact ⟨exec_compareStart_empty h, exec_compareIntervalExpiry_error h,
    fun hactive henable hregion _ hcap => exec_compareRegion_first h hactive henable hregion hcap,
    fun n l => exec_compareRecheck_oldest h, fun w l => exec_compareFifoRead_oldest h, exec_compareFifoRead_empty h⟩

end Sys2Proof.Machine
end

section
/-!
Requests of functions and their answers (R400-R402, R417, R418).
-/

namespace Sys2Proof.Machine

/-! ## A message between firmware and a function

A request of a function is acknowledged, and its answer put into the function's receiving channel; both are announced by a vector of the
function (R401, R402). -/

/-- The device without what such a message touches. -/
def Dev.outsideChat (d : Dev) : Dev := { d with links := {}, funcs := {}, chans := {}, keep := {}, regs := {}, out := [] }

/-- The registers beside those of the channels. -/
def chatSafe (k : Nat) : Prop := k < (0x90 * 2 ^ 41 + 0x10000) * 32 ∨ (0x90 * 2 ^ 41 + 0x490000) * 32 ≤ k

/-- What such a message leaves. -/
structure Dev.chats (d e : Dev) : Prop where
  frame : e.outsideChat = d.outsideChat
  fns : ∀ n, ∃ v, e.fn n = { d.fn n with vecs := v }
  links : ∀ n, ∃ p, e.link n = { d.link n with posted := p }
  regs : d.regsSame chatSafe e
  dirty : d.keep.dirty = true → e.keep.dirty = true

/-- A register of another block. -/
theorem chatSafe_unit (f : Field) (i a : Nat) (hunit : f.unit ≠ 0x90) (hi : i < 65536) (hoff : f.off + a < 33554432) (hlsb : f.lsb < 32) :
    chatSafe (f.key i a) := by
  simp only [chatSafe, Field.key]
  omega

/-- A register below the channels' in its block, whatever the instance. -/
theorem chatSafe_low (f : Field) (i a : Nat) (hoff : f.off + a < 0x10000) (hlsb : f.lsb < 32) : chatSafe (f.key i a) := by
  simp only [chatSafe, Field.key]
  omega

/-- A register of a channel. -/
theorem not_chatSafe (f : Field) (c : Nat) (hunit : f.unit = 0x90) (hoff : 0x10000 ≤ f.off ∧ f.off < 0x10100) (hc : c < 18432) (hlsb : f.lsb < 32) :
    ¬ chatSafe (f.key 0 (256 * c)) := by
  simp only [chatSafe, Field.key, hunit]
  omega

theorem Dev.wr_keeps_dirty (d : Dev) (f : Field) (v i a : Nat) (h : d.keep.dirty = true) : (d.wr f v i a).keep.dirty = true := by
  unfold Dev.wr
  dsimp only
  split
  · rfl
  · exact h

theorem Dev.chan_congr {d e : Dev} (h : e.chans = d.chans) (c : Nat) : e.chan c = d.chan c := by rw [Dev.chan, h, Dev.chan]

namespace Dev.chats

theorem refl (d : Dev) : d.chats d := ⟨rfl, fun _ => ⟨_, rfl⟩, fun _ => ⟨_, rfl⟩, d.regsSame_refl, id⟩

theorem trans {c d e : Dev} (h : c.chats d) (h' : d.chats e) : c.chats e where
  frame := h'.frame.trans h.frame
  fns n := by
    obtain ⟨v, hn⟩ := h.fns n
    obtain ⟨v', hn'⟩ := h'.fns n
    exact ⟨v', by rw [hn', hn]⟩
  links n := by
    obtain ⟨p, hn⟩ := h.links n
    obtain ⟨p', hn'⟩ := h'.links n
    exact ⟨p', by rw [hn', hn]⟩
  regs := h.regs.trans h'.regs
  dirty := h'.dirty ∘ h.dirty

theorem wr (d : Dev) (f : Field) (v i a : Nat) (hf : ¬ chatSafe (f.key i a)) : d.chats (d.wr f v i a) where
  frame := rfl
  fns _ := ⟨_, rfl⟩
  links _ := ⟨_, rfl⟩
  regs := d.regsSame_refl.wr f v i a hf
  dirty := d.wr_keeps_dirty f v i a

theorem each {α : Type} {f : α → Dev → Dev} (hf : ∀ a e, Dev.chats e (f a e)) (l : List α) (d : Dev) : d.chats (Dev.each l f d) :=
  Dev.each_induct (fun x => d.chats x) l f d (refl d) (fun a e he => he.trans (hf a e))

theorem onChan (d : Dev) (c : Nat) (f : Chan → Chan) : d.chats (d.onChan c f) :=
  ⟨rfl, fun _ => ⟨_, rfl⟩, fun _ => ⟨_, rfl⟩, d.regsSame_refl, id⟩

theorem sendMessage (d : Dev) (fn v : Nat) : d.chats (d.sendMessage fn v) := by
  unfold Dev.sendMessage
  dsimp only
  split
  · refine ⟨rfl, fun _ => ⟨_, rfl⟩, fun n => ?_, d.regsSame_refl, id⟩
    by_cases hn : n = d.linkOf fn
    · subst hn
      exact ⟨_, Dev.link_onLink_self ..⟩
    · exact ⟨_, Dev.link_onLink_ne _ _ hn⟩
  · exact ⟨rfl, fun _ => ⟨_, rfl⟩, fun _ => ⟨_, rfl⟩, d.regsSame_refl, id⟩

theorem sendVector (d : Dev) (fn v : Nat) : d.chats (d.sendVector fn v) := by
  unfold Dev.sendVector
  split
  · exact refl d
  · split
    · refine ⟨rfl, fun n => ?_, fun _ => ⟨_, rfl⟩, d.regsSame_refl, id⟩
      by_cases hn : n = fn
      · subst hn
        exact ⟨_, Dev.fn_onFn_self ..⟩
      · exact ⟨_, Dev.fn_onFn_ne _ _ hn⟩
    · exact sendMessage d fn v

section
variable {c : Nat} (hc : c < 18432)
include hc

theorem setFull (full : Bool) (d : Dev) : d.chats (d.setFull c full) :=
  (wr d _ _ _ _ (not_chatSafe _ c rfl (by decide) hc (by decide))).trans (wr _ _ _ _ _ (not_chatSafe _ c rfl (by decide) hc (by decide)))

theorem setView (words : List Nat) (len seq : Nat) (redelivered : Bool) (d : Dev) : d.chats (d.setView c words len seq redelivered) := by
  have hword (n : Nat) (hn : n < 16) (e : Dev) : e.chats (e.wr R.MBX_RX_DATA_data (words.getD n 0) 0 (256 * c + 4 * n)) := by
    refine wr e _ _ _ _ ?_
    simp only [chatSafe, Field.key, R.MBX_RX_DATA_data]
    omega
  have hwords : d.chats (Dev.each (List.range 16) (fun n d => d.wr R.MBX_RX_DATA_data (words.getD n 0) 0 (256 * c + 4 * n)) d) :=
    Dev.each_keeps (fun n hn e he => he.trans (hword n (List.mem_range.1 hn) e)) (refl d)
  exact ((hwords.trans (wr _ _ _ _ _ (not_chatSafe _ c rfl (by decide) hc (by decide)))).trans
    (wr _ _ _ _ _ (not_chatSafe _ c rfl (by decide) hc (by decide)))).trans (wr _ _ _ _ _ (not_chatSafe _ c rfl (by decide) hc (by decide)))

theorem latchView (d : Dev) : d.chats (d.latchView c) := by
  unfold Dev.latchView
  split
  · exact (setView hc ..).trans (onChan ..)
  · exact (setView hc ..).trans (onChan ..)

/-- The acknowledgement of a function's message. -/
theorem acknowledge {t r : Nat} (code seq : Nat) {d : Dev} (hbound : d.binding c = some (t, r)) (ht : t ≠ midStp) :
    d.chats (d.acknowledge c code seq) := by
  obtain ⟨e, he⟩ : ∃ e, ((d.wr R.MBX_TX_ACK_code code 0 (256 * c)).wr R.MBX_TX_ACK_ack_seq seq 0 (256 * c)).wr R.MBX_TX_STATUS_acked 1 0
    (256 * c) = e := ⟨_, rfl⟩
  have hshown : d.chats e := by
    rw [← he]
    exact ((wr d _ _ _ _ (not_chatSafe _ c rfl (by decide) hc (by decide))).trans
      (wr _ _ _ _ _ (not_chatSafe _ c rfl (by decide) hc (by decide)))).trans (wr _ _ _ _ _ (not_chatSafe _ c rfl (by decide) hc (by decide)))
  have hboot : e.boot = d.boot := by rw [← he]; rfl
  unfold Dev.acknowledge
  dsimp only
  rw [he, Dev.binding_congr hboot, hbound]
  dsimp only
  rw [if_neg ht]
  split
  · exact hshown.trans (sendVector ..)
  · exact hshown

omit hc in
/-- The arrival of a message at a function. -/
theorem announceArrival {t r : Nat} {d : Dev} (hbound : d.binding c = some (t, r)) (hr : isFnMid r = true) : d.chats (d.announceArrival c) := by
  have hset : isSetMid r = false ∧ r ≠ midStp := by
    simp only [isFnMid, isSetMid, Bool.and_eq_true, decide_eq_true_eq, Bool.and_eq_false_iff, decide_eq_false_iff_not, midStp] at hr ⊢
    omega
  obtain ⟨hset, hstp⟩ := hset
  have hnoDomain (e : Dev) : e.domainOfMid r = none := by simp [Dev.domainOfMid, hset, hstp]
  unfold Dev.announceArrival
  rw [hbound]
  dsimp only
  rw [hnoDomain, if_pos hr]
  dsimp only
  split
  · exact sendVector ..
  · exact refl d

end

/-- A part of the device outside such messages. -/
theorem part {d e : Dev} (h : d.chats e) {α : Type} (f : Dev → α) (hf : ∀ x : Dev, f x.outsideChat = f x := by intro x; rfl) : f e = f d := by
  rw [← hf e, h.frame, hf d]

theorem boot {d e : Dev} (h : d.chats e) : e.boot = d.boot := h.part Dev.boot

theorem isS44 {d e : Dev} (h : d.chats e) (fn : Nat) : e.isS44 fn = d.isS44 fn := by
  have hboot := h.boot
  rw [Dev.isS44, Dev.isS44, Dev.pf?_congr hboot, Dev.pfOf_congr hboot]

theorem hasFn {d e : Dev} (h : d.chats e) (fn : Nat) : e.hasFn fn = d.hasFn fn := by
  obtain ⟨v, hv⟩ := h.fns fn
  rw [Dev.hasFn, hv]
  rfl

theorem quietFn {d e : Dev} (h : d.chats e) (fn : Nat) : e.quietFn fn = d.quietFn fn := by
  obtain ⟨v, hv⟩ := h.fns fn
  have hepilogues : e.epilogues = d.epilogues := h.part Dev.epilogues
  rw [Dev.quietFn, hv, hepilogues]
  rfl

/-- Firmware may still send to a function whose channel is free. -/
theorem hears {d e : Dev} (h : d.chats e) {fn : Nat} (hfree : (e.chan (receiveChannel fn)).held = none) (hears : d.hears fn) : e.hears fn := by
  obtain ⟨hfn, hhas, hbox, hjobs, hquiet, -, m, hm, hbound⟩ := hears
  obtain ⟨v, hv⟩ := h.fns fn
  refine ⟨hfn, (h.hasFn fn).trans hhas, ?_, (h.part Dev.jobs).trans hjobs, (h.quietFn fn).trans hquiet, hfree, m, hm, ?_⟩
  · rw [hv]
    exact hbox
  · rw [Dev.binding_congr h.boot, hbound]

end Dev.chats

/-! ## A message to a function (R417) -/

theorem requestChannel_lt {fn : Nat} (h : fn < 8208) : requestChannel fn < 18432 := by
  unfold requestChannel
  split <;> omega

theorem receiveChannel_lt {fn : Nat} (h : fn < 8208) : receiveChannel fn < 18432 := by
  unfold receiveChannel requestChannel
  split <;> omega

theorem receiveChannel_ne_requestChannel (fn gn : Nat) : receiveChannel fn ≠ requestChannel gn := by
  unfold receiveChannel requestChannel
  split <;> split <;> omega

/-- The words `l` stand as a message in a channel. -/
def Chan.holds (c : Chan) (l : List Nat) : Prop := ∃ m, c.held = some m ∧ m.words = cutWords l (4 * l.length) ∧ m.len = 4 * l.length

theorem told_iff {fn : Nat} {l : List Nat} {t : State} : told fn l t ↔ (t.dev.chan (receiveChannel fn)).holds l := Iff.rfl

/-- A message is put into the free receiving channel of a function. -/
theorem Dev.post_receives {fn : Nat} {d : Dev} {x : Nat} (hfn : fn < 8208) (hbound : d.binding (receiveChannel fn) = some (x, midFn fn))
    (hfree : (d.chan (receiveChannel fn)).held = none) (l : List Nat) :
    d.chats (d.post (receiveChannel fn) l (4 * l.length)) ∧ ((d.post (receiveChannel fn) l (4 * l.length)).chan (receiveChannel fn)).holds l ∧
      ∀ c, c ≠ receiveChannel fn → (d.post (receiveChannel fn) l (4 * l.length)).chan c = d.chan c := by
  have hmid : isFnMid (midFn fn) = true := isFnMid_midFn hfn
  have hc := receiveChannel_lt hfn
  obtain ⟨m, hm⟩ : ∃ m : Msg, { words := cutWords l (4 * l.length), len := 4 * l.length
                                seq := (d.rd R.MBX_TX_STATUS_seq 0 (256 * receiveChannel fn) + 1) % 65536 } = m := ⟨_, rfl⟩
  obtain ⟨e, he⟩ : ∃ e, (d.wr R.MBX_TX_STATUS_seq ((d.rd R.MBX_TX_STATUS_seq 0 (256 * receiveChannel fn) + 1) % 65536) 0
    (256 * receiveChannel fn)) = e := ⟨_, rfl⟩
  have hpost : d.post (receiveChannel fn) l (4 * l.length) = (e.filled (receiveChannel fn) m).announceArrival (receiveChannel fn) := by
    refine (Dev.post_eq hbound (Or.inl hmid) l (4 * l.length)).trans ?_
    rw [hfree, hm, he]
  have hwritten : d.chats e := by
    rw [← he]
    exact Dev.chats.wr _ _ _ _ _ (not_chatSafe _ _ rfl (by decide) hc (by decide))
  have hfilled : d.chats (e.filled (receiveChannel fn) m) := (hwritten.trans (Dev.chats.onChan ..)).trans (Dev.chats.setFull hc ..)
  have hbound' : (e.filled (receiveChannel fn) m).binding (receiveChannel fn) = some (x, midFn fn) := by
    rw [Dev.binding_congr hfilled.boot, hbound]
  have hboxes := Dev.announceArrival_boxes hbound' (Or.inl hmid)
  rw [hpost]
  refine ⟨hfilled.trans (Dev.chats.announceArrival hbound' hmid), ?_, fun c hne => ?_⟩
  · rw [hboxes.chan]
    exact ⟨m, Dev.chan_filled .., by rw [← hm], by rw [← hm]⟩
  · rw [hboxes.chan]
    refine (Dev.chan_onChan_ne e _ hne : _).trans ?_
    rw [← he]
    rfl

/-- What firmware tells a function stands in its receiving channel at once. -/
theorem Dev.sendTo_hears {fn : Nat} {d : Dev} (hears : d.hears fn) (l : List Nat) :
    d.chats (d.sendTo fn l) ∧ ((d.sendTo fn l).chan (receiveChannel fn)).holds l ∧
      ∀ c, c ≠ receiveChannel fn → (d.sendTo fn l).chan c = d.chan c := by
  obtain ⟨hfn, hhas, hbox, hjobs, hquiet, hfree, m, hm, hbound⟩ := hears
  obtain ⟨e, he⟩ : ∃ e, (d.onFn fn (fun f => { f with outbox := f.outbox ++ [l] })).onFn fn (fun f => { f with outbox := [] }) = e := ⟨_, rfl⟩
  have hsame : d.chats e := by
    rw [← he]
    refine ⟨rfl, fun n => ?_, fun _ => ⟨_, rfl⟩, d.regsSame_refl, id⟩
    by_cases hn : n = fn
    · subst hn
      rw [Dev.fn_onFn_self, Dev.fn_onFn_self]
      refine ⟨(d.fn n).vecs, ?_⟩
      rw [← hbox]
    · rw [Dev.fn_onFn_ne _ _ hn, Dev.fn_onFn_ne _ _ hn]
      exact ⟨_, rfl⟩
  have hsend : d.sendTo fn l = e.post (receiveChannel fn) l (4 * l.length) := by
    have hquiet' : (d.onFn fn (fun f => { f with outbox := f.outbox ++ [l] })).quietFn fn = false := by
      rw [← hquiet, Dev.quietFn, Dev.fn_onFn_self]
      rfl
    have hout : ((d.onFn fn (fun f => { f with outbox := f.outbox ++ [l] })).fn fn).outbox = [l] := by
      rw [Dev.fn_onFn_self, hbox]
      rfl
    rw [Dev.sendTo, if_pos hhas, Dev.sendNext]
    rw [hout]
    dsimp only
    have hchan : ((d.onFn fn (fun f => { f with outbox := f.outbox ++ [l] })).chan (receiveChannel fn)).held = none := hfree
    have hbind : (d.onFn fn (fun f => { f with outbox := f.outbox ++ [l] })).binding (receiveChannel fn) = some (m, midFn fn) := hbound
    rw [hquiet', hchan, hbind, Option.isSome_none, Option.isNone_some, Bool.or_false, Bool.or_false, if_neg Bool.false_ne_true, he]
  have hchans : e.chans = d.chans := by rw [← he]; rfl
  have hchan (c : Nat) : e.chan c = d.chan c := by rw [Dev.chan, hchans, Dev.chan]
  obtain ⟨hchats, hholds, hothers⟩ := Dev.post_receives (d := e) hfn
    ((Dev.binding_congr hsame.boot _).trans hbound) ((congrArg Chan.held (hchan _)).trans hfree) l
  rw [hsend]
  exact ⟨hsame.trans hchats, hholds, fun c hc => (hothers c hc).trans (hchan c)⟩

/-! ## A request of a function is taken (R417, R418) -/

theorem Dev.rd_latchView_seq {c : Nat} {m : Msg} {d : Dev} (hheld : (d.chan c).held = some m) :
    (d.latchView c).rd R.MBX_RX_STATUS_seq 0 (256 * c) = m.seq % 65536 := by
  obtain ⟨e, he⟩ : ∃ e, Dev.each (List.range 16) (fun n d => d.wr R.MBX_RX_DATA_data (m.words.getD n 0) 0 (256 * c + 4 * n)) d = e := ⟨_, rfl⟩
  rw [Dev.latchView, hheld]
  dsimp only
  rw [Dev.setView, he]
  show Dev.rd (Dev.wr (Dev.wr _ _ _ _ _) _ _ _ _) _ 0 (256 * c) = _
  rw [Dev.rd_wr_at _ _ _ _ _ _ (by decide), Dev.rd_wr_self]
  rfl

theorem Dev.setView_chans (c : Nat) (words : List Nat) (len seq : Nat) (redelivered : Bool) (d : Dev) :
    (d.setView c words len seq redelivered).chans = d.chans := by
  unfold Dev.setView
  rw [Dev.wr_chans, Dev.wr_chans, Dev.wr_chans]
  exact Dev.each_induct (fun e => e.chans = d.chans) _ _ _ rfl fun _ _ he => he

/-- The request is acknowledged, and its channel is free. -/
theorem Dev.ackRequest_frees {fn : Nat} {m : Msg} {x : Nat} {d : Dev} (code : Nat) (hfn : fn < 8208) (hx : isCoreMid x = true)
    (hbound : d.binding (requestChannel fn) = some (midFn fn, x)) (hheld : (d.chan (requestChannel fn)).held = some m) (hseq : m.seq < 65536) :
    d.chats (d.ackRequest fn code) ∧ ((d.ackRequest fn code).chan (requestChannel fn)).held = none ∧
      ∀ c, c ≠ requestChannel fn → (d.ackRequest fn code).chan c = d.chan c := by
  have hc := requestChannel_lt hfn
  obtain ⟨e, he⟩ : ∃ e, d.latchView (requestChannel fn) = e := ⟨_, rfl⟩
  have hlatched : d.chats e := by rw [← he]; exact Dev.chats.latchView hc d
  have hchans : (e.chan (requestChannel fn)).held = some m ∧ (e.chan (requestChannel fn)).viewEmpty = false ∧
      ∀ c, c ≠ requestChannel fn → e.chan c = d.chan c := by
    have hsame (c : Nat) : (d.setView (requestChannel fn) m.words m.len m.seq m.redelivered).chan c = d.chan c := by
      rw [Dev.chan, Dev.setView_chans, Dev.chan]
    rw [← he, Dev.latchView, hheld]
    dsimp only
    refine ⟨?_, ?_, fun c hne => ?_⟩
    · rw [Dev.chan_onChan_self, hsame]
      exact hheld
    · rw [Dev.chan_onChan_self]
    · rw [Dev.chan_onChan_ne _ _ hne, hsame]
  have hview : e.rd R.MBX_RX_STATUS_seq 0 (256 * requestChannel fn) = m.seq := by
    rw [← he, Dev.rd_latchView_seq hheld, Nat.mod_eq_of_lt hseq]
  obtain ⟨hheld', hviewEmpty, hothers⟩ := hchans
  obtain ⟨f, hf⟩ : ∃ f, (e.onChan (requestChannel fn) (fun h => { h with held := none, latched := false })).setFull (requestChannel fn) false = f :=
    ⟨_, rfl⟩
  have hfreed : e.chats f := by
    rw [← hf]
    exact (Dev.chats.onChan ..).trans (Dev.chats.setFull hc ..)
  have hboot : f.boot = d.boot := (hlatched.trans hfreed).boot
  have hfchan : (f.chan (requestChannel fn)).held = none ∧ ∀ c, c ≠ requestChannel fn → f.chan c = e.chan c := by
    rw [← hf]
    exact ⟨congrArg Chan.held (Dev.chan_onChan_self e _ _), fun c hne => Dev.chan_onChan_ne e _ hne⟩
  have hack : d.ackRequest fn code = f.acknowledge (requestChannel fn) (ackCode code) m.seq := by
    have hnotFn : isFnMid x = false := by
      simp only [isCoreMid, Bool.and_eq_true, decide_eq_true_eq, isFnMid, Bool.and_eq_false_iff, decide_eq_false_iff_not] at hx ⊢
      omega
    have hbound' : (f.acknowledge (requestChannel fn) (ackCode code) m.seq).binding (requestChannel fn) = some (midFn fn, x) := by
      rw [Dev.binding_congr ((Dev.acknowledge_boot ..).trans hboot), hbound]
    rw [Dev.ackRequest, he, Dev.ackView, hheld']
    dsimp only
    rw [hviewEmpty, hview, beq_self_eq_true, Bool.not_false, Bool.true_and, if_pos rfl, hf, hbound']
    dsimp only
    rw [hnotFn, Bool.false_and, if_neg Bool.false_ne_true]
  have hmid : midFn fn ≠ midStp := by simp only [midFn, midStp]; omega
  have hchan (c : Nat) : (f.acknowledge (requestChannel fn) (ackCode code) m.seq).chan c = f.chan c := by
    rw [Dev.chan, Dev.acknowledge_chans, Dev.chan]
  rw [hack]
  refine ⟨(hlatched.trans hfreed).trans (Dev.chats.acknowledge hc _ _ ((Dev.binding_congr hboot _).trans hbound) hmid), ?_, fun c hne => ?_⟩
  · rw [hchan]
    exact hfchan.1
  · rw [hchan, hfchan.2 c hne, hothers c hne]

/-- What a device comes to once it took the request of function `fn`: only the request's channel is free in addition. -/
structure Dev.took (fn : Nat) (d e : Dev) : Prop where
  chats : d.chats e
  freed : (e.chan (requestChannel fn)).held = none
  others : ∀ c, c ≠ requestChannel fn → e.chan c = d.chan c

namespace Dev.took

/-- Firmware may answer at once. -/
theorem hears {fn : Nat} {d e : Dev} (h : d.took fn e) {gn : Nat} (hears : d.hears gn) : e.hears gn :=
  h.chats.hears (by rw [h.others _ (receiveChannel_ne_requestChannel _ _)]; exact hears.2.2.2.2.2.1) hears

end Dev.took

section
variable {fn kind n tag : Nat} {s44 : Bool} {w : List Nat} {d : Dev} (hasks : d.asks fn kind n s44 tag w)
include hasks

/-- A request that firmware has room for is taken, and acted on. -/
theorem Dev.takeKind_asks (hform : s44Kind kind = s44 ∨ kind = 0x34) (act : Nat → List Nat → Dev → Dev) :
    ∃ e, d.took fn e ∧ d.takeKind fn kind n act = act tag w e := by
  obtain ⟨⟨hfn, hhas, hbox, hjobs, hrest⟩, hs44, ⟨x, hx, hbound⟩, m, hheld, hwords, hkind, htag, hlen, hseq⟩ := hasks
  obtain ⟨hchats, hfreed, hothers⟩ := Dev.ackRequest_frees 0 hfn hx hbound hheld hseq
  refine ⟨d.ackRequest fn 0, ⟨hchats, hfreed, hothers⟩, ?_⟩
  have hroom : d.heldFor fn = 0 := by
    rw [Dev.heldFor, hbox, hjobs]
    rfl
  have hsame : (d.ackRequest fn 0).isS44 fn = s44 := (hchats.isS44 fn).trans hs44
  rw [Dev.takeKind, Dev.requestOf, if_pos hhas, hheld]
  dsimp only
  rw [if_neg (not_not.2 hkind), hroom, hsame, hs44, htag, hwords, decide_eq_false (Nat.not_lt.2 hlen), Bool.false_or]
  rcases hform with rfl | rfl
  · cases s44Kind kind <;> rfl
  · cases s44 <;> rfl

end

/-- A device whose jobs are none has nothing to go on with. -/
theorem Dev.goOnJobs_none {d : Dev} (h : d.jobs = {}) : d.goOnJobs = d := by
  rw [Dev.goOnJobs, h]
  rfl

/-- A set-up request that a function sent is taken and acted on, and then every job goes on. -/
theorem State.setup_asks {fn kind n tag : Nat} {s44 : Bool} {w : List Nat} {s : State} (h : s.dev.phase = .running)
    (hasks : s.dev.asks fn kind n s44 tag w) (hform : s44Kind kind = s44 ∨ kind = 0x34) (act : Nat → List Nat → Dev → Dev) :
    ∃ e, s.dev.took fn e ∧ s.setup fn kind n act = .next { s with dev := (act tag w e).goOnJobs } := by
  obtain ⟨e, htook, hact⟩ := Dev.takeKind_asks hasks hform act
  exact ⟨e, htook, by rw [State.setup, State.onRun_running _ h, hact]⟩

/-- Firmware may answer the request that it took from function `fn`. -/
def Dev.listens (fn : Nat) (d : Dev) : Prop := d.hears fn ∧ (d.chan (requestChannel fn)).held = none

theorem Dev.took.listens {fn : Nat} {d e : Dev} (h : d.took fn e) (hears : d.hears fn) : e.listens fn := ⟨h.hears hears, h.freed⟩

/-- What of a function decides whether firmware may send to it. -/
def Func.mail (f : Func) : Bool × Bool × FnReset × List (List Nat) := (f.present, f.busMaster, f.reset, f.outbox)

theorem Dev.listens_of {fn : Nat} {d e : Dev} (h : d.listens fn) (hfn : (e.fn fn).mail = (d.fn fn).mail) (hchans : e.chans = d.chans)
    (hjobs : e.jobs = d.jobs) (hboot : e.boot = d.boot) (hepilogues : e.epilogues = d.epilogues) : e.listens fn := by
  obtain ⟨⟨hlow, hhas, hbox, hnone, hquiet, hfree, m, hm, hbound⟩, hreq⟩ := h
  simp only [Func.mail, Prod.mk.injEq] at hfn
  obtain ⟨hpresent, hmaster, hreset, houtbox⟩ := hfn
  refine ⟨⟨hlow, ?_, ?_, hjobs.trans hnone, ?_, ?_, m, hm, (Dev.binding_congr hboot _).trans hbound⟩, ?_⟩
  · rw [Dev.hasFn, hpresent]
    exact hhas
  · rw [houtbox, hbox]
  · rw [← hquiet, Dev.quietFn, Dev.quietFn, hreset, hmaster, hepilogues]
  · rw [Dev.chan_congr hchans, hfree]
  · rw [Dev.chan_congr hchans, hreq]

/-- What firmware does for a request seldom touches functions, channels and jobs. -/
theorem Dev.listens_congr {fn : Nat} {d e : Dev} (h : d.listens fn) (hfn : e.fn fn = d.fn fn) (hchans : e.chans = d.chans) (hjobs : e.jobs = d.jobs)
    (hboot : e.boot = d.boot) (hepilogues : e.epilogues = d.epilogues) : e.listens fn :=
  Dev.listens_of h (by rw [hfn]) hchans hjobs hboot hepilogues

/-- A message that is no answer leaves firmware free to answer. -/
theorem Dev.chats.listens {fn : Nat} {d e : Dev} (hchats : d.chats e) (hchans : e.chans = d.chans) (h : d.listens fn) : e.listens fn := by
  obtain ⟨v, hv⟩ := hchats.fns fn
  exact Dev.listens_of h (by rw [hv]; rfl) hchans (hchats.part Dev.jobs) hchats.boot (hchats.part Dev.epilogues)

/-- An answer stands in the function's receiving channel at once. -/
theorem Dev.answers {fn : Nat} {d : Dev} (h : d.listens fn) (kind tag status : Nat) (results : List Nat) :
    d.chats (d.answerRequest fn kind tag status results) ∧
      ∀ t : State, t.dev = d.answerRequest fn kind tag status results → answered fn kind tag status results t := by
  obtain ⟨hears, hreq⟩ := h
  obtain ⟨hchats, hholds, hothers⟩ := Dev.sendTo_hears hears ([0x80 + 256 * (kind % 256) + 65536 * (tag % 65536), status] ++ results)
  refine ⟨hchats, fun t ht => ?_⟩
  rw [answered, told_iff, ht]
  exact ⟨(congrArg Chan.held (hothers _ (receiveChannel_ne_requestChannel _ _).symm)).trans hreq, hholds⟩

/-- A set-up request that is answered as soon as it is taken. -/
theorem State.setup_answered {fn kind n tag : Nat} {s44 : Bool} {w : List Nat} {s : State} (h : s.dev.phase = .running)
    (hasks : s.dev.asks fn kind n s44 tag w) (hform : s44Kind kind = s44 ∨ kind = 0x34) (act : Nat → List Nat → Dev → Dev) :
    ∃ e, s.dev.took fn e ∧ e.listens fn ∧ ∀ (x : Dev) status results, act tag w e = x.answerRequest fn kind tag status results → x.listens fn →
      ∃ t, s.setup fn kind n act = .next t ∧ answered fn kind tag status results t ∧ x.chats t.dev := by
  obtain ⟨e, htook, hsetup⟩ := State.setup_asks h hasks hform act
  refine ⟨e, htook, htook.listens hasks.1, fun x status results hx hlistens => ?_⟩
  obtain ⟨hchats, hanswered⟩ := Dev.answers hlistens kind tag status results
  have hjobs : (x.answerRequest fn kind tag status results).jobs = {} := (hchats.part Dev.jobs).trans hlistens.1.2.2.2.1
  refine ⟨{ s with dev := x.answerRequest fn kind tag status results }, ?_, hanswered _ rfl, hchats⟩
  rw [hsetup, hx, Dev.goOnJobs_none hjobs]

/-- Firmware goes on with a request by itself. -/
def Awaits.works : Awaits → Bool
  | .ringDisable _ | .s44Disable _ | .destroy _ => true
  | _ => false

theorem Dev.goOnJob_waits {j : Nat} {x : Job} (d : Dev) (h : x.awaits.works = false) : d.goOnJob j x = d := by
  unfold Dev.goOnJob
  dsimp only
  split
  · next hx => rw [hx] at h; exact Bool.noConfusion h
  · next hx => rw [hx] at h; exact Bool.noConfusion h
  · next hx => rw [hx] at h; exact Bool.noConfusion h
  · rfl

/-- The only job is one that something else ends. -/
theorem Dev.goOnJobs_waits {j : Nat} {x : Job} {d : Dev} (hjobs : d.jobs = { entries := [(j, x)] })
    (h : x.awaits.works = false) : d.goOnJobs = d := by
  rw [Dev.goOnJobs, hjobs]
  exact Dev.goOnJob_waits d h

end Sys2Proof.Machine
end

section
/-!
Tenants, VFs and function resets (R419, R421, R422, R425).
-/

namespace Sys2Proof.Machine

/-! ## The lowest free index (R421, R423) -/

theorem NMap.lowestFree_spec {α : Type} (m : NMap α) (k fuel : Nat) : k ≤ m.lowestFree k fuel ∧ (∀ j,
    k ≤ j → j < m.lowestFree k fuel → m.has j = true) ∧
    (m.has (m.lowestFree k fuel) = false ∨ m.lowestFree k fuel = k + fuel) := by
  induction fuel generalizing k with
  | zero => exact ⟨Nat.le_refl k, fun j hj hlt => absurd hlt (Nat.not_lt.2 hj), .inr rfl⟩
  | succ fuel ih =>
    rw [NMap.lowestFree]
    split
    · next hhas =>
      obtain ⟨hle, hall, hend⟩ := ih (k + 1)
      refine ⟨by omega, fun j hj hlt => ?_, hend.imp id (fun h => by omega)⟩
      rcases Nat.eq_or_lt_of_le hj with rfl | hj
      · exact hhas
      · exact hall j hj hlt
    · next hhas => exact ⟨Nat.le_refl k, fun j hj hlt => absurd hlt (Nat.not_lt.2 hj), .inl (by rwa [Bool.not_eq_true] at hhas)⟩

theorem NMap.mem_keys_of_has {α : Type} {m : NMap α} {k : Nat} (h : m.has k = true) : k ∈ m.keys := by
  obtain ⟨v, hv⟩ := Option.isSome_iff_exists.1 h
  exact List.mem_map.2 ⟨_, NMap.mem_of_get? hv, rfl⟩

/-- A map has no more keys than entries. -/
theorem NMap.exists_free {α : Type} (m : NMap α) (k n : Nat) (hn : m.size < n) : ∃ j, k ≤ j ∧ j < k + n ∧ m.has j = false := by
  by_contra hall
  push Not at hall
  have hsub : List.range' k n ⊆ m.keys := fun j hj => by
    rw [List.mem_range'_1] at hj
    exact NMap.mem_keys_of_has (Bool.eq_true_of_not_eq_false (hall j hj.1 hj.2))
  have hlen := (List.Nodup.subperm (List.nodup_range' ..) hsub).length_le
  rw [List.length_range', NMap.keys, List.length_map] at hlen
  exact absurd hn (Nat.not_lt.2 hlen)

/-- The lowest free index is free, and all below are not. -/
theorem NMap.lowestFree_free {α : Type} (m : NMap α) (k : Nat) : m.has (m.lowestFree k (m.size + 1)) = false := by
  obtain ⟨hle, hall, hend⟩ := NMap.lowestFree_spec m k (m.size + 1)
  rcases hend with hend | hend
  · exact hend
  · obtain ⟨j, hj, hlt, hfree⟩ := NMap.exists_free m k (m.size + 1) (Nat.lt_succ_self _)
    rw [hall j hj (hend ▸ hlt)] at hfree
    exact Bool.noConfusion hfree

theorem NMap.has_erase_self {α : Type} (m : NMap α) (k : Nat) : (m.erase k).has k = false := by
  rw [NMap.has, NMap.get?_erase, if_pos rfl]
  rfl

/-! ## What a message leaves of a function -/

theorem Dev.chats.inReset {d e : Dev} (h : d.chats e) (fn : Nat) : e.inReset fn = d.inReset fn := by
  obtain ⟨v, hv⟩ := h.fns fn
  rw [Dev.inReset, hv]
  rfl

theorem Dev.chats.tenant {d e : Dev} (h : d.chats e) (fn : Nat) : (e.fn fn).tenant = (d.fn fn).tenant := by
  obtain ⟨v, hv⟩ := h.fns fn
  rw [hv]

theorem Dev.chats.props {d e : Dev} (h : d.chats e) (fn : Nat) : (e.fn fn).props = (d.fn fn).props := by
  obtain ⟨v, hv⟩ := h.fns fn
  rw [hv]

theorem Dev.chats.vfsPresent {d e : Dev} (h : d.chats e) (pf : Nat) : e.vfsPresent pf = d.vfsPresent pf :=
  Dev.vfsPresent_congr h.boot h.hasFn

theorem Dev.chats.tenantPf {d e : Dev} (h : d.chats e) (n : Nat) : e.tenantPf n = d.tenantPf n := by
  have htenants : e.tenants = d.tenants := h.part Dev.tenants
  rw [Dev.tenantPf, Dev.tenantPf, Dev.pf?_congr h.boot, htenants]

theorem Dev.chats.groupsOf {d e : Dev} (h : d.chats e) (fn : Nat) : e.groupsOf fn = d.groupsOf fn := h.part (fun x => x.groupsOf fn)

theorem Dev.inReset_none {d : Dev} {fn : Nat} (h : (d.fn fn).reset = .none) : d.inReset fn = false := by
  rw [Dev.inReset, h]
  rfl

/-! ## Tenants (R419, R421) -/

section
variable {fn tag : Nat} {w : List Nat} {s : State} (h : s.dev.phase = .running)
include h

theorem exec_tenantCreate_lowest (hasks : s.dev.asks fn 0x10 1 false tag w) (hfn : fn < 16) (hreset : (s.dev.fn fn).reset = .none)
    (hfree : ∃ k, 16 ≤ k ∧ k < 16 + s.dev.die.variant.vfs ∧ s.dev.tenants.has k = false) :
    ∃ t n, exec (.tenantCreate fn) s = .next t ∧ 16 ≤ n ∧ s.dev.tenants.has n = false ∧ (∀ k, 16 ≤ k → k < n → s.dev.tenants.has k = true) ∧
      t.dev.tenants.get? n = some fn ∧ answered fn 0x10 tag 0 [n] t := by
  obtain ⟨hlow, hall, -⟩ := NMap.lowestFree_spec s.dev.tenants 16 (s.dev.tenants.size + 1)
  have hnew := NMap.lowestFree_free s.dev.tenants 16
  obtain ⟨n, hn⟩ : ∃ n, s.dev.tenants.lowestFree 16 (s.dev.tenants.size + 1) = n := ⟨_, rfl⟩
  rw [hn] at hlow hall hnew
  have hroom : n < 16 + s.dev.die.variant.vfs := by
    obtain ⟨k, hk, hlt, hfree⟩ := hfree
    by_contra hge
    have hhas := hall k hk (by omega)
    rw [hfree] at hhas
    exact Bool.noConfusion hhas
  obtain ⟨e, htook, hlistens, hanswers⟩ := State.setup_answered h hasks (.inl rfl) (fun tag _ d => d.tenantCreate fn tag)
  have htenants : e.tenants = s.dev.tenants := htook.chats.part Dev.tenants
  have hdie : e.die = s.dev.die := htook.chats.part Dev.die
  have hreset' : e.inReset fn = false := (htook.chats.inReset fn).trans (Dev.inReset_none hreset)
  obtain ⟨t, hexec, hanswered, hchats⟩ := hanswers ({ e with tenants := e.tenants.set n fn }.dropNodes [nodeKey 4 n]) 0 [n]
    (by rw [Dev.tenantCreate, htenants, hn, hdie, if_neg (by omega), hreset', if_neg Bool.false_ne_true, if_neg (by omega)])
    (Dev.listens_congr hlistens rfl rfl rfl rfl rfl)
  exact ⟨t, n, hexec, hlow, hnew, hall, (congrArg (·.get? n) (hchats.part Dev.tenants)).trans (NMap.get?_set_self ..), hanswered⟩

section
variable {n : Nat} (hasks : s.dev.asks fn 0x11 2 false tag w) (hname : bits (reqWord w 1) 0 14 = n) (hn : 16 ≤ n)
    (hown : s.dev.tenants.get? n = some fn)
include hasks hname hn hown

omit h hasks in
theorem Dev.tenantPf_own {e : Dev} (htook : s.dev.took fn e) : e.tenantPf (bits (reqWord w 1) 0 14) = some fn := by
  rw [htook.chats.tenantPf, hname, Dev.tenantPf, if_neg (Nat.not_lt.2 hn), hown]

/-- A Tenant without functions is destroyed. -/
theorem exec_tenantDestroy_empty (hempty : ∀ x ∈ s.dev.vfsPresent fn, (s.dev.fn x).tenant ≠ n) :
    ∃ t, exec (.tenantDestroy fn) s = .next t ∧ t.dev.tenants.has n = false ∧ answered fn 0x11 tag 0 [] t := by
  obtain ⟨e, htook, hlistens, hanswers⟩ := State.setup_answered h hasks (.inl rfl) (fun tag w d => d.tenantDestroy fn tag (bits (reqWord w 1) 0 14))
  have hnone : ¬ (n < 16 ∨ (e.vfsPresent fn).any (fun v => (e.fn v).tenant == n) = true) := by
    rw [htook.chats.vfsPresent, List.any_eq_true]
    rintro (hlow | ⟨x, hx, hsame⟩)
    · omega
    · rw [htook.chats.tenant, beq_iff_eq] at hsame
      exact hempty x hx hsame
  obtain ⟨t, hexec, hanswered, hchats⟩ := hanswers ({ e with tenants := e.tenants.erase n }.dropNodes [nodeKey 4 n]) 0 [] (by
      rw [Dev.tenantDestroy, Dev.tenantPf_own hname hn hown htook, hname]
      dsimp only
      rw [if_neg (not_not.2 rfl), if_neg hnone])
    (Dev.listens_congr hlistens rfl rfl rfl rfl rfl)
  exact ⟨t, hexec, (congrArg (·.has n) (hchats.part Dev.tenants)).trans (NMap.has_erase_self ..), hanswered⟩

/-- A Tenant that has a function stays. -/
theorem exec_tenantDestroy_used {x : Nat} (hx : x ∈ s.dev.vfsPresent fn) (huses : (s.dev.fn x).tenant = n) :
    ∃ t, exec (.tenantDestroy fn) s = .next t ∧ t.dev.tenants.get? n = some fn ∧ answered fn 0x11 tag 4 [] t := by
  obtain ⟨e, htook, hlistens, hanswers⟩ := State.setup_answered h hasks (.inl rfl) (fun tag w d => d.tenantDestroy fn tag (bits (reqWord w 1) 0 14))
  have hsome : n < 16 ∨ (e.vfsPresent fn).any (fun v => (e.fn v).tenant == n) = true := by
    rw [htook.chats.vfsPresent, List.any_eq_true]
    exact .inr ⟨x, hx, by rw [htook.chats.tenant, beq_iff_eq, huses]⟩
  obtain ⟨t, hexec, hanswered, hchats⟩ := hanswers e 4 [] (by
      rw [Dev.tenantDestroy, Dev.tenantPf_own hname hn hown htook, hname]
      dsimp only
      rw [if_neg (not_not.2 rfl), if_pos hsome]) hlistens
  exact ⟨t, hexec, (congrArg (·.get? n) ((htook.chats.trans hchats).part Dev.tenants)).trans hown, hanswered⟩

end

/-! ## VFs (R421, R422) -/

section
variable {v : Nat} (hfn : fn < 16) (hv : 16 ≤ v) (hhas : s.dev.hasFn v = true) (hpf : s.dev.pfOf v = fn) (hreset : (s.dev.fn v).reset = .none)
  (hname : bits (reqWord w 1) 0 14 = v)
include hfn hv hhas hpf

omit h in
/-- A VF of the PF's own. -/
theorem Dev.vfRefusal_own {e : Dev} (htook : s.dev.took fn e) : e.vfRefusal fn v = none := by
  rw [Dev.vfRefusal, if_neg (by omega), htook.chats.hasFn, hhas, Dev.pfOf_congr htook.chats.boot, hpf,
      if_neg (by simp only [Bool.true_eq_false, or_false]; omega),
    if_neg (not_not.2 rfl)]

include hreset hname

theorem exec_vfAssign_own (hasks : s.dev.asks fn 0x12 3 false tag w) (htenant : s.dev.tenantPf (bits (reqWord w 2) 0 14) = some fn)
    (hgroups : s.dev.groupsOf v = []) :
    ∃ t, exec (.vfAssign fn) s = .next t ∧ (t.dev.fn v).tenant = bits (reqWord w 2) 0 14 ∧ answered fn 0x12 tag 0 [] t := by
  obtain ⟨e, htook, hlistens, hanswers⟩ := State.setup_answered h hasks (.inl rfl)
    (fun tag w d => d.vfAssign fn tag (bits (reqWord w 1) 0 14) (bits (reqWord w 2) 0 14))
  obtain ⟨t, hexec, hanswered, hchats⟩ := hanswers (e.onFn v (fun f => { f with tenant := bits (reqWord w 2) 0 14 })) 0 [] (by
      rw [Dev.vfAssign, hname, Dev.vfRefusal_own hfn hv hhas hpf htook, htook.chats.tenantPf, htenant]
      dsimp only
      rw [if_neg (not_not.2 rfl), htook.chats.inReset, Dev.inReset_none hreset, htook.chats.groupsOf, hgroups, if_neg (by simp)])
    (Dev.listens_congr hlistens (Dev.fn_onFn_ne _ _ (by omega)) rfl rfl rfl rfl)
  exact ⟨t, hexec, (hchats.tenant v).trans (congrArg Func.tenant (Dev.fn_onFn_self e v _)), hanswered⟩

theorem exec_vfProperties_own (hasks : s.dev.asks fn 0x13 16 false tag w) (hok : s.dev.propsOk w = true) :
    ∃ t status, exec (.vfProperties fn) s = .next t ∧ (t.dev.fn v).props = propsOf w ∧ answered fn 0x13 tag status [] t ∧
      (s.dev.tabKind 2 ≠ 1 → status = 0) := by
  obtain ⟨e, htook, hlistens, hanswers⟩ := State.setup_answered h hasks (.inl rfl) (fun tag w d => d.vfProperties fn tag w)
  obtain ⟨d, hd⟩ : ∃ d, e.onFn v (fun f => { f with props := propsOf w }) = d := ⟨_, rfl⟩
  have hprops : (d.fn v).props = propsOf w := by rw [← hd, Dev.fn_onFn_self]
  have hlistens' : d.listens fn := by
    rw [← hd]
    exact Dev.listens_congr hlistens (Dev.fn_onFn_ne _ _ (by omega)) rfl rfl rfl rfl
  have hbesides := Dev.putSources_besides v (propsOf w) d (List.Subset.refl _)
  have hfuncs := Dev.fn_congr (Dev.funcs_of_besides hbesides)
  have hok' : e.propsOk w = true := by rw [Dev.propsOk, htook.chats.part Dev.die]; exact hok
  obtain ⟨t, hexec, hanswered, hchats⟩ := hanswers (d.putSources v (propsOf w)).2 (if (d.putSources v (propsOf w)).1 then 0 else 2) [] (by
      rw [Dev.vfProperties, hname]
      dsimp only
      rw [Dev.vfRefusal_own hfn hv hhas hpf htook]
      dsimp only
      rw [htook.chats.inReset, Dev.inReset_none hreset, if_neg Bool.false_ne_true, hok', Bool.not_true, if_neg Bool.false_ne_true, hd])
    (Dev.listens_congr hlistens' (hfuncs fn) (Dev.chans_of_besides hbesides) (Dev.jobs_of_besides hbesides) (Dev.boot_of_besides hbesides)
      (Dev.epilogues_of_besides hbesides))
  refine ⟨t, _, hexec, (hchats.props v).trans ?_, hanswered, fun hkind => ?_⟩
  · rw [hfuncs, hprops]
  · have hkind' : d.tabKind 2 ≠ 1 := by
      have hsame : d.tabKind 2 = s.dev.tabKind 2 := by
        rw [← hd]
        exact htook.chats.regs.rd (chatSafe_unit _ _ _ (by decide) (by decide) (by decide) (by decide))
      rwa [hsame]
    rw [Dev.putSources, if_pos hkind', if_pos rfl]

/-! ## Resets of functions (R425) -/

omit h hfn hv hhas hpf hreset hname in
theorem Dev.chats.idleFn {d e : Dev} (hchats : d.chats e) (h : d.idleFn v) : e.idleFn v where
  rings := (hchats.part (fun x => x.ringsOf v)).trans h.rings
  reads := by
    obtain ⟨p, hp⟩ := hchats.links (d.linkOf v)
    rw [← h.reads, Dev.readsOf, Dev.linkOf_congr hchats.boot, hp]
    rfl
  dma := by
    rw [← h.dma]
    exact Dev.dmaChannelsOf_congr (fun k hk => hchats.regs k (.inl (lt_trans hk (by decide)))) v
  nvme := (hchats.part (fun x => x.nvmes.has v)).trans h.nvme
  items := (hchats.part Dev.items).trans h.items
  xfers := (hchats.part (fun x => x.stp.xfers)).trans h.xfers

omit h hfn hv hhas hpf hreset hname in
/-- A reset of a function leaves the channels of other receivers. -/
theorem Dev.resetChannels_chan {c t r : Nat} {d : Dev} (hbound : d.binding c = some (t, r)) (hr : r ≠ midFn v) :
    (d.resetChannels v).chan c = d.chan c := by
  have htaken {b : Nat} (hb : b ∈ d.channelsOf (midFn v) false) : c ≠ b := by
    rintro rfl
    have hmatch := (List.mem_filter.1 hb).2
    rw [hbound] at hmatch
    exact hr (beq_iff_eq.1 hmatch)
  unfold Dev.resetChannels
  dsimp only
  refine Dev.each_keeps (P := fun e => e.chan c = d.chan c) (fun b hb e he => ?_) ?_
  · have hview (e : Dev) : ((e.setView b [] 0 0 false).onChan b (fun h => { h with viewEmpty := true })).chan c = e.chan c := by
      rw [Dev.chan_onChan_ne _ _ (htaken hb), Dev.chan, Dev.setView_chans, Dev.chan]
    refine ((Dev.chan_congr ((Dev.wr_chans ..).trans (Dev.wr_chans ..)) c).trans (hview _)).trans (Eq.trans ?_ he)
    split
    · next m _ => exact (Dev.chan_congr (Dev.acknowledge_chans ..) c).trans (Dev.chan_onChan_ne e _ (htaken hb))
    · rfl
  · refine Dev.each_induct (fun e => e.chan c = d.chan c) _ _ _ rfl (fun b e he => ?_)
    refine (Dev.chan_congr ((Dev.wr_chans ..).trans ((Dev.wr_chans ..).trans (Dev.wr_chans ..))) c).trans (Eq.trans ?_ he)
    exact Dev.each_induct (fun x => x.chan c = e.chan c) _ _ _ rfl fun _ _ hx => hx

end

end

/-- The squash of a function that holds nothing begins. -/
theorem Dev.beginReset_holds {v k : Nat} {d : Dev} {j : Job} (hidle : d.idleFn v) (hjobs : d.jobs = {} ∨ d.jobs = { entries := [(k,
    j)] } ∧ j.fn ≠ v) :
    ((d.beginReset v .function).fn v).reset = .function ∧ ((d.beginReset v .function).fn v).gen = ((d.fn v).gen + 1) % 65536 ∧
      (d.beginReset v .function).epilogues = d.epilogues ∧ (d.beginReset v .function).jobs = d.jobs ∧
      ∀ c t r, d.binding c = some (t, r) → r ≠ midFn v → (d.beginReset v .function).chan c = d.chan c := by
  obtain ⟨x, hx, hfuncs, hepilogues, hboot, hchans, hdropped⟩ := Dev.beginReset_idle .function hidle
  have hbesides := Dev.resetChannels_besides v x (List.Subset.refl _)
  obtain ⟨l, hl⟩ := (x.mailOnly_refl.resetChannels v).fns v
  rw [Dev.fn_congr hfuncs, Dev.fn_onFn_self] at hl
  rw [hx]
  refine ⟨(congrArg Func.reset hl :), (congrArg Func.gen hl :), (Dev.epilogues_of_besides hbesides).trans hepilogues, ?_, fun c t r hbound hr => ?_⟩
  · rw [Dev.jobs_of_besides hbesides, hdropped, Dev.dropJobs]
    dsimp only
    rcases hjobs with hjobs | ⟨hjobs, hj⟩
    · rw [hjobs]
      rfl
    · rw [hjobs, NMap.filter]
      exact congrArg NMap.mk (List.filter_cons_of_pos (by simp only [bne_iff_ne.2 hj, Bool.true_or]))
  · exact (Dev.resetChannels_chan ((Dev.binding_congr hboot c).trans hbound) hr).trans (Dev.chan_congr hchans c)

/-- The reset that its PF asks for begins for a function that holds nothing. -/
theorem Dev.functionReset_holds {v k ms : Nat} {d : Dev} {j : Job} (drain : Bool) (hreset : (d.fn v).reset = .none) (hidle : d.idleFn v)
    (hjobs : d.jobs = { entries := [(k, j)] }) (hj : j.fn ≠ v) :
    ∃ x, d.functionReset v drain ms = x ∧ x.jobs = d.jobs ∧ (∀ c t r, d.binding c = some (t, r) → r ≠ midFn v → x.chan c = d.chan c) ∧
      x.epilogues.get? v = some { cause := 5, oldGen := (d.fn v).gen } ∧
      (drain = false → (x.fn v).reset = .function ∧ (x.fn v).gen = ((d.fn v).gen + 1) % 65536) ∧
      (drain = true → (x.fn v).reset = .draining ∧ x.drains.get? v = some (min ms 1000)) := by
  obtain ⟨e, he⟩ : ∃ e, { d with epilogues := d.epilogues.set v { cause := 5, oldGen := (d.fn v).gen } } = e := ⟨_, rfl⟩
  have hopen : d.openEpilogue v 5 false = e := (Dev.openEpilogue_idle 5 hreset hidle.rings).trans he
  have hepilogue : e.epilogues.get? v = some { cause := 5, oldGen := (d.fn v).gen } := by
    rw [← he]
    exact NMap.get?_set_self ..
  have hidle' : e.idleFn v := by
    rw [← he]
    exact ⟨hidle.rings, hidle.reads, hidle.dma, hidle.nvme, hidle.items, hidle.xfers⟩
  have hsame : e.jobs = d.jobs ∧ e.chans = d.chans ∧ e.boot = d.boot ∧ e.funcs = d.funcs := by
    rw [← he]
    exact ⟨rfl, rfl, rfl, rfl⟩
  obtain ⟨hjobs', hchans, hboot, hfuncs⟩ := hsame
  refine ⟨_, rfl, ?_⟩
  rw [Dev.functionReset, if_neg (not_not.2 hreset), hidle.rings, hopen]
  show Dev.jobs (if drain then _ else e.beginReset v .function) = _ ∧ _
  cases drain with
  | false =>
    obtain ⟨hkind, hgen, hepilogues, hkept, hchan⟩ := Dev.beginReset_holds hidle' (.inr ⟨hjobs'.trans hjobs, hj⟩)
    refine ⟨hkept.trans hjobs', fun c t r hbound hr => ?_, ?_, fun _ => ⟨hkind, ?_⟩, fun h => Bool.noConfusion h⟩
    · exact (hchan c t r ((Dev.binding_congr hboot c).trans hbound) hr).trans (Dev.chan_congr hchans c)
    · exact (congrArg (·.get? v) hepilogues).trans hepilogue
    · rw [← Dev.fn_congr hfuncs]
      exact hgen
  | true =>
    refine ⟨hjobs', fun c t r _ _ => Dev.chan_congr hchans c, hepilogue, fun h => Bool.noConfusion h, fun _ => ⟨?_, NMap.get?_set_self ..⟩⟩
    exact congrArg Func.reset (Dev.fn_onFn_self e v _)

section
variable {fn v tag : Nat} {w : List Nat} {s : State} (h : s.dev.phase = .running)
include h

section
variable (hfn : fn < 16) (hv : 16 ≤ v) (hhas : s.dev.hasFn v = true) (hpf : s.dev.pfOf v = fn) (hreset : (s.dev.fn v).reset = .none)
  (hname : bits (reqWord w 1) 0 14 = v) (hasks : s.dev.asks fn 0x14 3 false tag w) (hnothing : s.dev.holdsNothing v)
include hfn hv hhas hpf hreset hname hasks hnothing

/-- The reset of a VF that its PF asks for, with a drain or without. -/
theorem exec_functionReset_taken : ∃ t, exec (.functionReset fn) s = .next t ∧ takenUp fn 0x14 tag (.functionReset v) s t ∧
    (hasBit (reqWord w 1) 16 = false → resetBegun v 5 .function s t) ∧
    (hasBit (reqWord w 1) 16 = true → (t.dev.fn v).reset = .draining ∧ t.dev.drains.get? v = some (min (reqWord w 2 % 65536) 1000)) := by
  obtain ⟨e, htook, hsetup⟩ := State.setup_asks h hasks (.inl rfl) (fun tag w d => d.resetRequest fn tag w)
  obtain ⟨hears, -, ⟨m, hm, hbound⟩, -⟩ := hasks
  obtain ⟨j, hj⟩ : ∃ j : Job, { fn := fn, kind := 0x14, tag := tag, words := w, awaits := .functionReset v } = j := ⟨_, rfl⟩
  have hjobs : (e.addJob j).jobs = { entries := [(e.nextJob, j)] } := by
    rw [Dev.addJob, htook.chats.part Dev.jobs, hears.2.2.2.1]
    rfl
  have hidle : (e.addJob j).idleFn v := by
    have hidle := htook.chats.idleFn hnothing.idleFn
    exact ⟨hidle.rings, hidle.reads, hidle.dma, hidle.nvme, hidle.items, hidle.xfers⟩
  obtain ⟨l, hl⟩ := htook.chats.fns v
  have hfnv : (e.addJob j).fn v = { s.dev.fn v with vecs := l } := hl
  have hreset' : ((e.addJob j).fn v).reset = .none := by rw [hfnv, ← hreset]
  obtain ⟨x, hx, hkept, hchan, hepilogue, hplain, hdrain⟩ := Dev.functionReset_holds (ms := reqWord w 2 % 65536) (hasBit (reqWord w 1) 16)
    hreset' hidle hjobs (by rw [← hj]; dsimp only; omega)
  have hact : e.resetRequest fn tag w = x := by
    have hreset'' : (e.fn v).reset = .none := hreset'
    rw [Dev.resetRequest, hname]
    dsimp only
    rw [htook.chats.hasFn, hhas, Dev.pfOf_congr htook.chats.boot, hpf, if_neg (by omega), Bool.not_true, if_neg Bool.false_ne_true, hreset'',
      if_neg (by simp), hj, hx]
  have hgen : ((e.addJob j).fn v).gen = (s.dev.fn v).gen := by rw [hfnv]
  have hnext : e.nextJob = s.dev.nextJob := htook.chats.part Dev.nextJob
  refine ⟨{ s with dev := x }, ?_, ⟨?_, j, ?_, ?_⟩, fun hno => ?_, hdrain⟩
  · refine (hsetup : execFunctionReset fn s = _).trans ?_
    rw [hact, Dev.goOnJobs_waits (hkept.trans hjobs) (by rw [← hj]; rfl)]
  · refine (congrArg Chan.held (hchan _ _ _ ((Dev.binding_congr htook.chats.boot _).trans hbound) ?_)).trans htook.freed
    simp only [isCoreMid, Bool.and_eq_true, decide_eq_true_eq, midFn] at hm ⊢
    omega
  · rw [← hnext]
    show x.jobs.get? e.nextJob = some j
    rw [hkept, hjobs]
    exact NMap.get?_set_self {} e.nextJob j
  · rw [← hj]
    exact ⟨rfl, rfl, rfl, rfl⟩
  · obtain ⟨hkind, hnew⟩ := hplain hno
    rw [hgen] at hepilogue hnew
    exact ⟨hkind, hnew, hepilogue⟩

end

/-- The end of a drain begins the squash. -/
theorem exec_drainEnd_squashes (hnothing : s.dev.holdsNothing v) (hdraining : (s.dev.fn v).reset = .draining) :
    ∃ t, exec (.drainEnd v) s = .next t ∧ (t.dev.fn v).reset = .function ∧ (t.dev.fn v).gen = ((s.dev.fn v).gen + 1) % 65536 := by
  obtain ⟨hkind, hgen, -⟩ := Dev.beginReset_holds (k := 0) (j := { fn := 0, kind := 0, tag := 0, words := [], awaits := .functionReset 0 })
    hnothing.idleFn (.inl hnothing.2.2.2.2.2.2.2.1)
  refine ⟨_, (State.onRun_running _ h : execDrainEnd v s = _), ?_⟩
  dsimp only
  rw [Dev.drainEnd, if_pos hdraining]
  exact ⟨hkind, hgen⟩

/-- An epilogue record that is ready is sent again. -/
theorem exec_epilogueResend_ready {r : Epilogue} {s44 : Bool} (hasks : s.dev.asks fn 0x34 1 s44 tag w) (hrecord : s.dev.epilogues.get? fn = some r)
    (hready : r.ready = true) : ∃ t, exec (.epilogueResend fn) s = .next t ∧ answered fn 0x34 tag 0 (r.words fn) t := by
  obtain ⟨e, htook, hlistens, hanswers⟩ := State.setup_answered h hasks (.inr rfl) (fun tag _ d => d.epilogueResend fn tag)
  have hepilogues : e.epilogues = s.dev.epilogues := htook.chats.part Dev.epilogues
  obtain ⟨t, hexec, hanswered, -⟩ := hanswers e 0 (r.words fn) (by
    rw [Dev.epilogueResend, hepilogues, hrecord]
    dsimp only
    rw [if_pos hready]) hlistens
  exact ⟨t, hexec, hanswered⟩

end

/-- Settles O57: Tenants, VFs and their properties, function resets, drains and epilogue records. -/
theorem tenantsAndFunctions : Obligations.TenantsAndFunctions := by
  unfold Obligations.TenantsAndFunctions
  intro fn v tag w s h
  refine ⟨exec_tenantCreate_lowest h, fun n hasks hname hn hown => ⟨exec_tenantDestroy_empty h hasks hname hn hown, fun x =>
    exec_tenantDestroy_used h hasks hname hn hown⟩, fun hfn hv hhas hpf hreset hname => ⟨exec_vfAssign_own h hfn hv hhas hpf hreset hname,
    exec_vfProperties_own h hfn hv hhas hpf hreset hname, fun hasks hnothing _ => ?_⟩, exec_drainEnd_squashes h, fun r s44 =>
    exec_epilogueResend_ready h⟩
  obtain ⟨t, hexec, htaken, hplain, hdrain⟩ := exec_functionReset_taken h hfn hv hhas hpf hreset hname hasks hnothing
  exact ⟨fun hno => ⟨t, hexec, hplain hno, htaken⟩, fun hyes => ⟨t, hexec, (hdrain hyes).1, (hdrain hyes).2, htaken⟩⟩

end Sys2Proof.Machine
end

section
/-!
Ring Groups and rings (R419, R420, R423).
-/

namespace Sys2Proof.Machine

/-! ## What the set-up of rings reads -/

theorem Dev.chats.linkUp {d e : Dev} (h : d.chats e) (l : Nat) : e.linkUp l = d.linkUp l := by
  have hstate : e.rd R.PCX_LINK_STATUS_state l = d.rd R.PCX_LINK_STATUS_state l := h.regs.rd (chatSafe_low _ _ _ (by decide) (by decide))
  rw [Dev.linkUp, Dev.linkUp, hstate]

theorem Dev.chats.canIssue {d e : Dev} (h : d.chats e) (fn : Nat) : e.canIssue fn = d.canIssue fn := by
  obtain ⟨v, hv⟩ := h.fns fn
  rw [Dev.canIssue, Dev.canIssue, h.hasFn, h.linkUp, Dev.linkOf_congr h.boot, hv]

theorem Dev.chats.isException {d e : Dev} (h : d.chats e) (r : Nat) : e.isException r = d.isException r := by
  have hport (m : Nat) (hm : m < 256) (f : Field) (hoff : f.off < 0x8000) (hlsb : f.lsb < 32) : e.rd f 0 (16 * m) = d.rd f 0 (16 * m) :=
    h.regs.rd (chatSafe_low _ _ _ (by omega) hlsb)
  unfold Dev.isException
  refine Bool.eq_iff_iff.2 ?_
  simp only [List.any_eq_true, List.mem_range]
  refine exists_congr fun m => and_congr_right fun hm => ?_
  rw [Dev.on, hport m hm _ (by decide) (by decide), hport m hm _ (by decide) (by decide), Dev.on]

theorem Dev.chats.ring? {d e : Dev} (h : d.chats e) (r : Nat) : e.ring? r = d.ring? r := h.part (fun x => x.ring? r)

theorem Dev.pickIndex_free {α : Type} (m : NMap α) (size : Nat) (d : Dev) : m.has (d.pickIndex m size).1 = false := by
  rw [Dev.pickIndex]
  dsimp only
  split
  · exact NMap.lowestFree_free ..
  · exact NMap.lowestFree_free ..

theorem Dev.vfCardChanged_groups (fn : Nat) (d : Dev) : (d.vfCardChanged fn).groups = d.groups := by
  unfold Dev.vfCardChanged
  split <;> rfl

/-- A new card of a VF is announced to nobody. -/
theorem Dev.listens_vfCardChanged {fn : Nat} {d : Dev} (h : d.listens fn) (gn : Nat) : (d.vfCardChanged gn).listens fn := by
  unfold Dev.vfCardChanged
  split
  · exact h
  · refine Dev.listens_of h ?_ rfl rfl rfl rfl
    by_cases hfn : fn = gn
    · subst hfn
      rw [Dev.fn_onFn_self]
      rfl
    · rw [Dev.fn_onFn_ne _ _ hfn]

/-! ## Ring Groups (R423) -/

section
variable {fn tag : Nat} {w : List Nat} {s : State} (h : s.dev.phase = .running) (hreset : (s.dev.fn fn).reset = .none)
include h hreset

theorem exec_ringGroupCreate_free (hasks : s.dev.asks fn 1 1 false tag w) (hpages : (s.dev.groupsOf fn).length < s.dev.pageRoom fn)
    (hsize : s.dev.groups.size < 2 ^ 18) (hquota : fn < 16 ∨ (s.dev.groupsOf fn).length < (s.dev.fn fn).props.groupQuota) :
    ∃ t g, exec (.ringGroupCreate fn) s = .next t ∧ s.dev.groups.has g = false ∧
      t.dev.groups.get? g = some { fn := fn, page := s.dev.freePage fn } ∧ answered fn 1 tag 0 [g, s.dev.freePage fn] t := by
  obtain ⟨e, htook, hlistens, hanswers⟩ := State.setup_answered h hasks (.inl rfl) (fun tag _ d => d.groupCreate fn tag)
  have hgroups : e.groups = s.dev.groups := htook.chats.part Dev.groups
  have hpage : e.freePage fn = s.dev.freePage fn := htook.chats.part (fun x => x.freePage fn)
  have hroom : e.pageRoom fn = s.dev.pageRoom fn := by
    rw [Dev.pageRoom, Dev.pageRoom, Dev.pf?_congr htook.chats.boot, Dev.pfOf_congr htook.chats.boot, htook.chats.isS44]
  obtain ⟨g, hg⟩ : ∃ g, (e.pickIndex e.groups (2 ^ 18)).1 = g := ⟨_, rfl⟩
  have hfree : e.groups.has g = false := hg ▸ Dev.pickIndex_free ..
  obtain ⟨x, hx⟩ : ∃ x, (({ { e with freeCtr := e.freeCtr + 1 } with
      groups := e.groups.set g { fn := fn, page := s.dev.freePage fn } } : Dev).dropNodes [nodeKey 2 g]) = x := ⟨_, rfl⟩
  have hnew : e.newGroup fn = (g, x.vfCardChanged fn) := by rw [Dev.newGroup, hpage, ← hg, ← hx, ← hg]; rfl
  have hget : (x.vfCardChanged fn).groups.get? g = some { fn := fn, page := s.dev.freePage fn } := by
    rw [Dev.vfCardChanged_groups, ← hx]
    exact NMap.get?_set_self ..
  have hlistens' : (x.vfCardChanged fn).listens fn := by
    refine Dev.listens_vfCardChanged ?_ fn
    rw [← hx]
    exact Dev.listens_congr hlistens rfl rfl rfl rfl rfl
  obtain ⟨t, hexec, hanswered, hchats⟩ := hanswers (x.vfCardChanged fn) 0 [g, s.dev.freePage fn] (by
      rw [Dev.groupCreate, htook.chats.inReset, Dev.inReset_none hreset, hroom, htook.chats.groupsOf, hgroups, htook.chats.props,
        if_neg Bool.false_ne_true, if_neg (by omega), hnew]
      dsimp only
      rw [hget]
      rfl) hlistens'
  exact ⟨t, g, hexec, hgroups ▸ hfree, (congrArg (·.get? g) (hchats.part Dev.groups)).trans hget, hanswered⟩

theorem exec_ringGroupDestroy_empty {g : Nat} {x : Group} (hasks : s.dev.asks fn 2 2 false tag w) (hname : bits (reqWord w 1) 0 18 = g)
    (hgroup : s.dev.groups.get? g = some x) (hown : x.fn = fn) (hempty : x.slots.entries = [])
    (hlast : fn < 16 ∨ x.page + 1 = (s.dev.groupsOf fn).length) :
    ∃ t, exec (.ringGroupDestroy fn) s = .next t ∧ t.dev.groups.has g = false ∧ answered fn 2 tag 0 [] t := by
  obtain ⟨e, htook, hlistens, hanswers⟩ := State.setup_answered h hasks (.inl rfl) (fun tag w d => d.groupDestroy fn tag (bits (reqWord w 1) 0 18))
  have hgroups : e.groups = s.dev.groups := htook.chats.part Dev.groups
  obtain ⟨y, hy⟩ : ∃ y, (({ e with groups := e.groups.erase g } : Dev).dropNodes [nodeKey 2 g]) = y := ⟨_, rfl⟩
  have hlistens' : (y.vfCardChanged fn).listens fn := by
    refine Dev.listens_vfCardChanged ?_ fn
    rw [← hy]
    exact Dev.listens_congr hlistens rfl rfl rfl rfl rfl
  have hsize : x.slots.size = 0 := by rw [NMap.size, hempty]; rfl
  have hleaves : ¬ (false = true ∨ 0 ≠ 0 ∨ (16 ≤ fn ∧ x.page + 1 ≠ (s.dev.groupsOf fn).length)) := by
    rintro (hf | hz | ⟨hge, hne⟩)
    · exact Bool.noConfusion hf
    · exact hz rfl
    · exact hlast.elim (Nat.not_lt.2 hge) hne
  obtain ⟨t, hexec, hanswered, hchats⟩ := hanswers (y.vfCardChanged fn) 0 [] (by
      rw [Dev.groupDestroy, hname, hgroups, hgroup]
      dsimp only
      rw [hown, Dev.owns, beq_self_eq_true, Bool.true_or, Bool.not_true, if_neg Bool.false_ne_true, htook.chats.inReset,
        Dev.inReset_none hreset, hsize, htook.chats.groupsOf, if_neg hleaves]
      rw [← hy]
      rw [hgroups]) hlistens'
  refine ⟨t, hexec, (congrArg (·.has g) ((hchats.part Dev.groups).trans (Dev.vfCardChanged_groups ..))).trans ?_, hanswered⟩
  rw [← hy]
  exact NMap.has_erase_self ..

end

/-! ## Rings (R420) -/

section
variable {fn tag : Nat} {w : List Nat} {s : State} (h : s.dev.phase = .running) (hreset : (s.dev.fn fn).reset = .none)
include h hreset

theorem exec_ringCreate_free {x : Group} (hasks : s.dev.asks fn 3 13 false tag w) (hgroup : s.dev.groups.get? (ringOf fn w).group = some x)
    (hown : x.fn = fn) (hargs : s.dev.ringArgsOk fn w (ringOf fn w) x = true) (hsize : s.dev.rings.size < 2 ^ 22)
    (hquota : fn < 16 ∨ (s.dev.ringsOf fn).length < (s.dev.fn fn).props.ringQuota) :
    ∃ t r, exec (.ringCreate fn) s = .next t ∧ s.dev.rings.has r = false ∧ t.dev.ring? r = some { ringOf fn w with gen := (s.dev.fn fn).gen } ∧
      (∀ q, q ≠ r → t.dev.ring? q = s.dev.ring? q) ∧ answered fn 3 tag 0 [r] t := by
  obtain ⟨e, htook, hlistens, hanswers⟩ := State.setup_answered h hasks (.inl rfl) (fun tag w d => d.ringCreate fn tag w)
  have hgroups : e.groups = s.dev.groups := htook.chats.part Dev.groups
  have hrings : e.rings = s.dev.rings := htook.chats.part Dev.rings
  obtain ⟨l, hl⟩ := htook.chats.fns fn
  have hgen : (e.fn (ringOf fn w).fn).gen = (s.dev.fn fn).gen := (congrArg Func.gen hl : (e.fn fn).gen = _)
  obtain ⟨r, hr⟩ : ∃ r, (e.pickIndex e.rings (2 ^ 22)).1 = r := ⟨_, rfl⟩
  have hfree : e.rings.has r = false := hr ▸ Dev.pickIndex_free ..
  obtain ⟨g, hg⟩ : ∃ g, ringOf fn w = g := ⟨_, rfl⟩
  obtain ⟨y, hy⟩ : ∃ y, ((({ { e with freeCtr := e.freeCtr + 1 } with
      rings := e.rings.set r { g with gen := (s.dev.fn fn).gen }
      groups := e.groups.modify g.group (fun x => { x with slots := x.slots.set g.slot r }) } : Dev).dropNodes [nodeKey 1 r]).freshBalance r) = y :=
    ⟨_, rfl⟩
  rw [hg] at hgroup hargs hgen ⊢
  have hnew : e.newRing g = (r, y) := by
    rw [Dev.newRing, ← hy, ← hr, ← hgen]
    rfl
  have hget (q : Nat) : y.ring? q = if q = r then some { g with gen := (s.dev.fn fn).gen } else s.dev.ring? q := by
    rw [← hy, ← htook.chats.ring? q]
    exact NMap.get?_set ..
  have hargs' : e.ringArgsOk fn w g x = true := by
    rw [← hargs, Dev.ringArgsOk, Dev.ringArgsOk, Dev.msixSize, Dev.msixSize, Dev.pf?_congr htook.chats.boot, Dev.pfOf_congr htook.chats.boot,
      htook.chats.ring?, Dev.slotGranted, Dev.slotGranted, htook.chats.props]
  have hroom : e.ringRoom fn 1 = true := by
    rw [Dev.ringRoom, hrings, Dev.ringsOf_congr hrings, htook.chats.props]
    simp only [Bool.and_eq_true, Bool.or_eq_true, decide_eq_true_eq]
    omega
  obtain ⟨t, hexec, hanswered, hchats⟩ := hanswers y 0 [r] (by
      rw [Dev.ringCreate, hg]
      dsimp only
      rw [hgroups, hgroup]
      dsimp only
      rw [if_neg (not_not.2 hown), htook.chats.inReset, Dev.inReset_none hreset, if_neg Bool.false_ne_true, hargs', Bool.not_true,
        if_neg Bool.false_ne_true, hroom, Bool.not_true, if_neg Bool.false_ne_true, hnew]) (by
    rw [← hy]
    exact Dev.listens_congr hlistens rfl rfl rfl rfl rfl)
  refine ⟨t, r, hexec, hrings ▸ hfree, ?_, fun q hq => ?_, hanswered⟩
  · rw [hchats.ring?, hget, if_pos rfl]
  · rw [hchats.ring?, hget, if_neg hq]

end

/-! ## Requests that a ring's state refuses -/

/-- Acting on a ring that the requester may act on, one that is in no reset. -/
theorem Dev.onOwnRing_own {fn kind tag r : Nat} {pf : Bool} {act : Ring → Dev → Dev} {d : Dev} {g : Ring} (hring : d.ring? r = some g)
    (hown : g.fn = fn) (hreset : d.inReset fn = false) : d.onOwnRing fn kind tag r pf act = act g d := by
  rw [Dev.onOwnRing, hring]
  dsimp only
  rw [hown, Dev.owns, beq_self_eq_true, Bool.true_or, Bool.not_true, if_neg Bool.false_ne_true, hreset, if_neg Bool.false_ne_true]

theorem Dev.onOwnRing_absent {fn kind tag r : Nat} {pf : Bool} {act : Ring → Dev → Dev} {d : Dev} (hring : d.ring? r = none) :
    d.onOwnRing fn kind tag r pf act = d.answerRequest fn kind tag 3 [] := by
  rw [Dev.onOwnRing, hring]

theorem Dev.onOwnRing_foreign {fn kind tag r : Nat} {pf : Bool} {act : Ring → Dev → Dev} {d : Dev} {g : Ring} (hring : d.ring? r = some g)
    (howns : d.owns fn g.fn pf = false) : d.onOwnRing fn kind tag r pf act = d.answerRequest fn kind tag 1 [] := by
  rw [Dev.onOwnRing, hring]
  dsimp only
  rw [howns, Bool.not_false, if_pos rfl]

theorem Dev.chats.owns {d e : Dev} (h : d.chats e) (fn owner : Nat) (pf : Bool) : e.owns fn owner pf = d.owns fn owner pf := by
  rw [Dev.owns, Dev.owns, Dev.pfOf_congr h.boot]

section
variable {fn kind n tag : Nat} {w : List Nat} {s : State} {pf : Bool} {c : Instr} {act : Nat → List Nat → Ring → Dev → Dev}
  (h : s.dev.phase = .running) (hasks : s.dev.asks fn kind n false tag w) (hform : s44Kind kind = false)
  (hc : exec c s = s.setup fn kind n (fun tag w d => d.onOwnRing fn kind tag (namedRing w) pf (act tag w)))
include h hasks hform hc

/-- A request that is answered without a change of the rings. -/
theorem exec_ringRequest_refused {status : Nat} (hrefused : ∀ e, s.dev.took fn e →
      e.onOwnRing fn kind tag (namedRing w) pf (act tag w) = e.answerRequest fn kind tag status []) :
    ∃ t, exec c s = .next t ∧ t.dev.rings = s.dev.rings ∧ answered fn kind tag status [] t := by
  obtain ⟨e, htook, hlistens, hanswers⟩ := State.setup_answered h hasks (.inl hform)
    (fun tag w d => d.onOwnRing fn kind tag (namedRing w) pf (act tag w))
  obtain ⟨t, hexec, hanswered, hchats⟩ := hanswers e status [] (hrefused e htook) hlistens
  exact ⟨t, hc.trans hexec, (htook.chats.trans hchats).part Dev.rings, hanswered⟩

theorem exec_ringRequest_absent (hring : s.dev.ring? (namedRing w) = none) :
    ∃ t, exec c s = .next t ∧ t.dev.rings = s.dev.rings ∧ answered fn kind tag 3 [] t :=
  exec_ringRequest_refused h hasks hform hc fun _ htook => Dev.onOwnRing_absent ((htook.chats.ring? _).trans hring)

theorem exec_ringRequest_foreign {g : Ring} (hring : s.dev.ring? (namedRing w) = some g) (howns : s.dev.owns fn g.fn pf = false) :
    ∃ t, exec c s = .next t ∧ t.dev.rings = s.dev.rings ∧ answered fn kind tag 1 [] t :=
  exec_ringRequest_refused h hasks hform hc fun _ htook =>
    Dev.onOwnRing_foreign ((htook.chats.ring? _).trans hring) ((htook.chats.owns ..).trans howns)

theorem exec_ringRequest_wrongState {g : Ring} (hreset : (s.dev.fn fn).reset = .none) (hring : s.dev.ring? (namedRing w) = some g) (hown : g.fn = fn)
    (hwrong : ∀ e, s.dev.took fn e → act tag w g e = e.answerRequest fn kind tag 4 []) :
    ∃ t, exec c s = .next t ∧ t.dev.rings = s.dev.rings ∧ answered fn kind tag 4 [] t :=
  exec_ringRequest_refused h hasks hform hc fun e htook =>
    (Dev.onOwnRing_own ((htook.chats.ring? _).trans hring) hown ((htook.chats.inReset _).trans (Dev.inReset_none hreset))).trans (hwrong e htook)

end

/-! ## Requests that act on a ring (R420, R423) -/

/-- Reads that the ring's fetching issues are no message. -/
theorem Dev.listens_fetch {fn r : Nat} {d : Dev} (h : d.listens fn) : (d.fetch r).listens fn := by
  have hbesides := Dev.fetch_besides r d (List.Subset.refl _)
  exact Dev.listens_congr h (Dev.fn_congr (Dev.funcs_of_besides hbesides) fn) (Dev.chans_of_besides hbesides) (Dev.jobs_of_besides hbesides)
    (Dev.boot_of_besides hbesides) (Dev.epilogues_of_besides hbesides)

theorem Dev.flushOwed_none {r : Nat} {d : Dev} {g : Ring} (hring : d.ring? r = some g) (howed : g.owed = []) : d.flushOwed r = d := by
  rw [Dev.flushOwed, hring]
  dsimp only
  rw [howed]
  rfl

/-- A ring whose producer stands where its doorbell says has nothing to act on. -/
theorem Dev.actProducer_same {r : Nat} {d : Dev} {g : Ring} (hring : d.ring? r = some g) (hlt : g.producer < g.size) :
    d.actProducer r g.producer = d := by
  have hsame : (g.producer + g.size - g.producer) % g.size = 0 := by rw [Nat.add_sub_cancel_left, Nat.mod_self]
  rw [Dev.actProducer, hring]
  dsimp only
  rw [if_neg (Nat.not_le.2 hlt), hsame, if_pos rfl]

theorem Dev.chats.itemRing {d e : Dev} (h : d.chats e) (it : Item) : e.itemRing it = d.itemRing it := by
  have hport (f : Field) (hoff : f.off < 0x8000) (hlsb : f.lsb < 32) : e.rd f 0 (16 * (it.source % 256)) = d.rd f 0 (16 * (it.source % 256)) :=
    h.regs.rd (chatSafe_low _ _ _ (by omega) hlsb)
  unfold Dev.itemRing Dev.on
  rw [hport _ (by decide) (by decide), hport _ (by decide) (by decide)]

/-- What may be left of a ring's work lies in its items and in the QPs. -/
theorem Dev.ringQuiet_congr {d e : Dev} (hitems : e.items = d.items) (hqps : e.qps = d.qps) (hring : ∀ it, e.itemRing it = d.itemRing it) (r : Nat)
    (g : Ring) : e.ringQuiet r g = d.ringQuiet r g := by
  unfold Dev.ringQuiet
  simp only [hitems, hqps, hring]

theorem Dev.returnDescriptors_none {r : Nat} {d : Dev} {g : Ring} (hring : d.ring? r = some g) (hframe : g.frame = []) (hbuffers : g.buffers = [])
    (howed : g.owed = []) : d.returnDescriptors r = d.onRing r (fun g => { g with frame := [], buffers := [] }) := by
  rw [Dev.returnDescriptors, hring]
  dsimp only
  rw [hframe, hbuffers]
  exact Dev.flushOwed_none (Dev.ring?_onRing_self hring _) howed

/-- A ring that is to stop, and one that has. -/
def Ring.toStop (g : Ring) : Ring := { g with stopping := true }
def Ring.stopped (g : Ring) : Ring := { g with state := .disabled, stopping := false }

/-- A ring that nothing is left of is disabled. -/
theorem Dev.goOnDisable_quiet {r : Nat} {d : Dev} {g : Ring} (hring : d.ring? r = some g) (hstopping : g.stopping = true)
    (hquiet : d.ringQuiet r g = true) (hframe : g.frame = []) (hbuffers : g.buffers = []) (howed : g.owed = []) :
    (d.goOnDisable r).ring? r = some g.stopped ∧ ∃ m, d.goOnDisable r = { d with rings := m } := by
  have hget := Dev.ring?_onRing_self hring (fun g => { g with frame := [], buffers := [] })
  rw [Dev.goOnDisable, hring]
  dsimp only
  rw [hstopping, hquiet, Bool.not_true, Bool.or_false, if_neg Bool.false_ne_true, Dev.returnDescriptors_none hring hframe hbuffers howed]
  refine ⟨?_, _, rfl⟩
  rw [Dev.ring?_onRing_self hget]
  cases g
  dsimp only at hframe hbuffers howed
  subst hframe hbuffers howed
  rfl

/-- A ring that still has descriptors to complete waits. -/
theorem Dev.goOnDisable_busy {r : Nat} {d : Dev} {g : Ring} (hring : d.ring? r = some g) (hbusy : g.accepted ≠ []) : d.goOnDisable r = d := by
  have hquiet : d.ringQuiet r g = false := by
    rw [Dev.ringQuiet, List.isEmpty_eq_false_iff.2 hbusy]
    simp only [Bool.false_and]
  rw [Dev.goOnDisable, hring]
  dsimp only
  rw [hquiet, Bool.not_false, Bool.or_true, if_pos rfl]

/-- A ring that is enabled again, or stalled where its function may not issue. -/
def Ring.reopened (g : Ring) (issues : Bool) : Ring :=
  { g with state := if issues then .enabled else .stalled, landed := {}, fetchPos := g.nextSeq % g.size }

section
variable {fn tag : Nat} {w : List Nat} {s : State} (h : s.dev.phase = .running) (hreset : (s.dev.fn fn).reset = .none) {g : Ring}
  (hring : s.dev.ring? (namedRing w) = some g) (hown : g.fn = fn)
include h hreset hring hown

omit h in
theorem Dev.took.ownRing {e : Dev} (htook : s.dev.took fn e) (kind : Nat) (pf : Bool) (act : Ring → Dev → Dev) :
    e.onOwnRing fn kind tag (namedRing w) pf act = act g e :=
  Dev.onOwnRing_own ((htook.chats.ring? _).trans hring) hown ((htook.chats.inReset _).trans (Dev.inReset_none hreset))

theorem exec_ringEnable_disabled (hasks : s.dev.asks fn 4 2 false tag w) (hstate : g.state = .disabled) :
    ∃ t h, exec (.ringEnable fn) s = .next t ∧ t.dev.ring? (namedRing w) = some h ∧
      h.state = (if s.dev.canIssue fn then .enabled else .stalled) ∧ h.nextSeq = g.nextSeq ∧ answered fn 4 tag 0 [] t := by
  obtain ⟨e, htook, hlistens, hanswers⟩ := State.setup_answered h hasks (.inl rfl) (fun tag w d => d.ringEnable fn tag (namedRing w))
  obtain ⟨y, hy⟩ : ∃ y, e.onRing (namedRing w) (fun g => g.reopened (e.canIssue g.fn)) = y := ⟨_, rfl⟩
  have hget := Dev.ring?_onRing_self ((htook.chats.ring? _).trans hring) (fun g => g.reopened (e.canIssue g.fn))
  rw [hy] at hget
  obtain ⟨f, hf⟩ := Dev.fetch_ring hget
  have hlistens' : y.listens fn := by
    rw [← hy]
    exact Dev.listens_congr hlistens rfl rfl rfl rfl rfl
  obtain ⟨t, hexec, hanswered, hchats⟩ := hanswers (y.fetch (namedRing w)) 0 [] (by
    rw [Dev.ringEnable, htook.ownRing hreset hring hown, if_neg (not_not.2 hstate), ← hy]
    rfl) (Dev.listens_fetch hlistens')
  refine ⟨t, _, (hexec : execRingEnable fn s = _), (hchats.ring? _).trans hf, ?_, rfl, hanswered⟩
  rw [Ring.reopened, hown, htook.chats.canIssue]

section
variable (hasks : s.dev.asks fn 5 2 false tag w) (hstate : g.state ≠ .disabled) (hexception : s.dev.isException (namedRing w) = false)
include hasks hstate hexception

/-- The ring is to stop, and the request waits for its last completion. -/
theorem State.setup_ringDisable : ∃ e y j, s.dev.took fn e ∧ e.listens fn ∧ e.onRing (namedRing w) Ring.toStop = y ∧
    y.listens fn ∧ y.ring? (namedRing w) = some g.toStop ∧ j.awaits = .ringDisable (namedRing w) ∧ j.fn = fn ∧ j.kind = 5 ∧
    j.tag = tag ∧ y.nextJob = s.dev.nextJob ∧ exec (.ringDisable fn) s = .next { s with dev := (y.addJob j).goOnJobs } := by
  obtain ⟨e, htook, hsetup⟩ := State.setup_asks h hasks (.inl rfl) (fun tag w d => d.ringDisable fn tag (namedRing w))
  have hlistens := htook.listens hasks.1
  refine ⟨e, _, { fn := fn, kind := 0x05, tag := tag, words := [], awaits := .ringDisable (namedRing w) }, htook, hlistens, rfl,
    Dev.listens_congr hlistens rfl rfl rfl rfl rfl, Dev.ring?_onRing_self ((htook.chats.ring? _).trans hring) _, rfl, rfl, rfl, rfl,
    htook.chats.part Dev.nextJob, (hsetup : execRingDisable fn s = _).trans ?_⟩
  rw [Dev.ringDisable, htook.ownRing hreset hring hown, htook.chats.isException, hexception, if_neg Bool.false_ne_true, if_neg hstate]
  rfl

/-- A ring that nothing is left of is disabled at once, and the request answered. -/
theorem exec_ringDisable_idle (hidle : s.dev.ringIdle (namedRing w) g) :
    ∃ t, exec (.ringDisable fn) s = .next t ∧ t.dev.ring? (namedRing w) = some { g with state := .disabled, stopping := false } ∧
      answered fn 5 tag 0 [] t := by
  obtain ⟨e, y, j, htook, hlistens, hy, hlistens', hget, hawaits, hfn, hkind, htag, -, hexec⟩ :=
    State.setup_ringDisable h hreset hring hown hasks hstate hexception
  obtain ⟨-, hquiet, hframe, hbuffers, howed⟩ := hidle
  have hjobs : (y.addJob j).jobs = { entries := [(y.nextJob, j)] } := by
    rw [Dev.addJob, hlistens'.1.2.2.2.1]
    rfl
  have hquiet' : (y.addJob j).ringQuiet (namedRing w) g.toStop = true := by
    refine (Dev.ringQuiet_congr (d := s.dev) ?_ ?_ (fun it => ?_) _ _).trans hquiet
    · rw [← hy]
      exact htook.chats.part Dev.items
    · rw [← hy]
      exact htook.chats.part Dev.qps
    · rw [← hy]
      exact htook.chats.itemRing it
  obtain ⟨hdisabled, m, hm⟩ := Dev.goOnDisable_quiet (d := y.addJob j) hget rfl hquiet' hframe hbuffers howed
  obtain ⟨x, hx⟩ : ∃ x, ({ { y.addJob j with rings := m } with jobs := {} } : Dev) = x := ⟨_, rfl⟩
  have hgo : (y.addJob j).goOnJobs = x.answerRequest fn 5 tag 0 [] := by
    rw [Dev.goOnJobs, hjobs]
    show (y.addJob j).goOnJob y.nextJob j = _
    rw [Dev.goOnJob, hawaits]
    dsimp only
    rw [hdisabled, hm]
    refine (if_pos rfl).trans ?_
    rw [hfn, hkind, htag, ← hx]
    show Dev.answerRequest fn 5 tag 0 [] { { y.addJob j with rings := m } with jobs := (y.addJob j).jobs.erase y.nextJob } = _
    rw [hjobs]
    refine congrArg (fun l => Dev.answerRequest fn 5 tag 0 [] { { y.addJob j with rings := m } with jobs := l }) (congrArg NMap.mk ?_)
    exact List.filter_cons_of_neg (by simp)
  obtain ⟨hchats, hanswered⟩ := Dev.answers (d := x) (fn := fn) (by
    rw [← hx]
    exact Dev.listens_congr hlistens' rfl rfl hlistens'.1.2.2.2.1.symm rfl rfl) 5 tag 0 []
  refine ⟨_, hexec, ?_, ?_⟩
  · show (Dev.goOnJobs _).ring? _ = _
    rw [hgo, hchats.ring?, ← hx]
    exact (congrArg (·.ring? (namedRing w)) hm).symm.trans hdisabled
  · exact hanswered _ hgo

/-- While the ring has descriptors to complete, firmware works on the request. -/
theorem exec_ringDisable_busy (hbusy : g.accepted ≠ []) :
    ∃ t, exec (.ringDisable fn) s = .next t ∧ t.dev.ring? (namedRing w) = some { g with stopping := true } ∧
      takenUp fn 5 tag (.ringDisable (namedRing w)) s t := by
  obtain ⟨e, y, j, htook, hlistens, hy, hlistens', hget, hawaits, hfn, hkind, htag, hnext, hexec⟩ :=
    State.setup_ringDisable h hreset hring hown hasks hstate hexception
  have hjobs : (y.addJob j).jobs = { entries := [(y.nextJob, j)] } := by
    rw [Dev.addJob, hlistens'.1.2.2.2.1]
    rfl
  have hgo : (y.addJob j).goOnJobs = y.addJob j := by
    rw [Dev.goOnJobs, hjobs]
    show (y.addJob j).goOnJob y.nextJob j = _
    have hget' : (y.addJob j).ring? (namedRing w) = some g.toStop := hget
    rw [Dev.goOnJob, hawaits]
    dsimp only
    rw [Dev.goOnDisable_busy hget' hbusy, hget']
    rfl
  refine ⟨_, hexec, ?_, ?_, j, ?_, hfn, hkind, htag, hawaits⟩
  · show (Dev.goOnJobs _).ring? _ = _
    rw [hgo]
    exact hget
  · show ((Dev.goOnJobs _).chan _).held = none
    rw [hgo]
    exact hlistens'.2
  · show (Dev.goOnJobs _).jobs.get? _ = _
    rw [hgo, hjobs, hnext]
    exact NMap.get?_set_self {} s.dev.nextJob j

end

/-- A ring in error whose doorbell says nothing new resumes. -/
theorem exec_ringRestart_error (hasks : s.dev.asks fn 6 2 false tag w) (hstate : g.state = .error) (hstopping : g.stopping = false)
    (hproducer : g.slotProducer = g.producer) (hlt : g.producer < g.size) (howed : g.owed = []) :
    ∃ t x, exec (.ringRestart fn) s = .next t ∧ t.dev.ring? (namedRing w) = some x ∧
      x.state = (if s.dev.canIssue fn then .enabled else .stalled) ∧ x.nextSeq = g.nextSeq ∧ x.landed = {} ∧ answered fn 6 tag 0 [] t := by
  obtain ⟨e, htook, hlistens, hanswers⟩ := State.setup_answered h hasks (.inl rfl) (fun tag w d => d.ringRestart fn tag (namedRing w))
  have hring' : e.ring? (namedRing w) = some g := (htook.chats.ring? _).trans hring
  have hgo : ¬ (g.state ≠ .error ∨ g.stopping = true) := by
    rw [hstate, hstopping]
    simp only [ne_eq, not_true_eq_false, Bool.false_eq_true, or_self, not_false_eq_true]
  have hcan : e.canIssue g.fn = s.dev.canIssue fn := by rw [hown, htook.chats.canIssue]
  have hact : e.ringRestart fn tag (namedRing w) = (if s.dev.canIssue fn then e.resumeRing (namedRing w) else
      e.onRing (namedRing w) (fun g => g.reopened false)).answerRequest fn 6 tag 0 [] := by
    rw [Dev.ringRestart, htook.ownRing hreset hring hown, if_neg hgo, hcan]
    rfl
  cases hissue : s.dev.canIssue fn with
  | false =>
    obtain ⟨t, hexec, hanswered, hchats⟩ := hanswers (e.onRing (namedRing w) (fun g => g.reopened false)) 0 []
      (by rw [hact, hissue, if_neg Bool.false_ne_true]) (Dev.listens_congr hlistens rfl rfl rfl rfl rfl)
    exact ⟨t, _, hexec, (hchats.ring? _).trans (Dev.ring?_onRing_self hring' _), rfl, rfl, rfl, hanswered⟩
  | true =>
    obtain ⟨y, hy⟩ : ∃ y, (e.killFetches (namedRing w)).onRing (namedRing w) (fun g => g.reopened true) = y := ⟨_, rfl⟩
    have hget : y.ring? (namedRing w) = some (g.reopened true) := by
      rw [← hy]
      exact Dev.ring?_onRing_self (d := e.killFetches (namedRing w)) hring' _
    have hlistens' : y.listens fn := by
      rw [← hy]
      exact Dev.listens_congr hlistens rfl rfl rfl rfl rfl
    obtain ⟨f, hf⟩ := Dev.fetch_ring hget
    have hresume : e.resumeRing (namedRing w) = if g.kind = 3 then y else y.fetch (namedRing w) := by
      have hstart : e.resumeRing (namedRing w) =
          (if g.kind = 3 then y else (y.fetch (namedRing w)).actProducer (namedRing w) g.slotProducer).flushOwed (namedRing w) := by
        rw [Dev.resumeRing, hring', ← hy]
        rfl
      have hsame : (y.fetch (namedRing w)).actProducer (namedRing w) g.slotProducer = y.fetch (namedRing w) := by
        rw [hproducer]
        have hsame := Dev.actProducer_same hf hlt
        exact hsame
      rw [hstart, hsame]
      split
      · exact Dev.flushOwed_none hget howed
      · exact Dev.flushOwed_none hf howed
    rw [hissue, if_pos rfl, hresume] at hact
    by_cases hkind : g.kind = 3
    · rw [if_pos hkind] at hact
      obtain ⟨t, hexec, hanswered, hchats⟩ := hanswers y 0 [] hact hlistens'
      exact ⟨t, _, hexec, (hchats.ring? _).trans hget, rfl, rfl, rfl, hanswered⟩
    · rw [if_neg hkind] at hact
      obtain ⟨t, hexec, hanswered, hchats⟩ := hanswers _ 0 [] hact (Dev.listens_fetch hlistens')
      exact ⟨t, _, hexec, (hchats.ring? _).trans hf, rfl, rfl, rfl, hanswered⟩

theorem exec_ringDestroy_disabled (hasks : s.dev.asks fn 7 2 false tag w) (hstate : g.state = .disabled) :
    ∃ t, exec (.ringDestroy fn) s = .next t ∧ t.dev.ring? (namedRing w) = none ∧
      (∀ q, q ≠ namedRing w → t.dev.ring? q = s.dev.ring? q) ∧ answered fn 7 tag 0 [] t := by
  obtain ⟨e, htook, hlistens, hanswers⟩ := State.setup_answered h hasks (.inl rfl) (fun tag w d => d.ringDestroy fn tag (namedRing w))
  obtain ⟨t, hexec, hanswered, hchats⟩ := hanswers (e.eraseRing (namedRing w) g) 0 []
    (by rw [Dev.ringDestroy, htook.ownRing hreset hring hown, if_neg (not_not.2 hstate)]) (Dev.listens_congr hlistens rfl rfl rfl rfl rfl)
  have hget (q : Nat) : (e.eraseRing (namedRing w) g).ring? q = if q = namedRing w then none else s.dev.ring? q := by
    rw [← htook.chats.ring? q]
    exact NMap.get?_erase ..
  refine ⟨t, hexec, ?_, fun q hq => ?_, hanswered⟩
  · rw [hchats.ring?, hget, if_pos rfl]
  · rw [hchats.ring?, hget, if_neg hq]

/-- The context bytes that a tune request writes. -/
def Ring.tuned (w : List Nat) (g : Ring) : Ring :=
  { g with
    tphTag := bits (reqWord w 2) 0 16
    rxHoldKib := bits (reqWord w 2) 16 16
    irqCount := bits (reqWord w 3) 0 8
    irqTime := bits (reqWord w 3) 8 8
    armed := hasBit (reqWord w 3) 16 }

theorem exec_ringTune_clear (hasks : s.dev.asks fn 8 4 false tag w) (hclear : bits (reqWord w 3) 17 15 = 0) :
    ∃ t, exec (.ringTune fn) s = .next t ∧ answered fn 8 tag 0 [] t ∧ t.dev.ring? (namedRing w) = some (g.tuned w).afterIrq := by
  obtain ⟨e, htook, hlistens, hanswers⟩ := State.setup_answered h hasks (.inl rfl) (fun tag w d => d.ringTune fn tag (namedRing w) w)
  have hring' : e.ring? (namedRing w) = some g := (htook.chats.ring? _).trans hring
  obtain ⟨hget, -, -⟩ := Dev.checkIrq_onRing hring' (Ring.tuned w)
  have hlistens' : ((e.onRing (namedRing w) (Ring.tuned w)).checkIrq (namedRing w)).listens fn := by
    unfold Dev.checkIrq
    split
    · split
      · exact (Dev.chats.sendVector ..).listens (Dev.chans_of_besides (Dev.sendVector_besides _ _ _ (List.Subset.refl _)))
          (Dev.listens_congr hlistens rfl rfl rfl rfl rfl)
      · exact Dev.listens_congr hlistens rfl rfl rfl rfl rfl
    · exact Dev.listens_congr hlistens rfl rfl rfl rfl rfl
  obtain ⟨t, hexec, hanswered, hchats⟩ := hanswers _ 0 []
    (by rw [Dev.ringTune, htook.ownRing hreset hring hown, if_neg (not_not.2 hclear)]; rfl) hlistens'
  exact ⟨t, hexec, hanswered, (hchats.ring? _).trans hget⟩

end

/-- Settles O56: Ring Groups, rings that come and go, and the requests that are refused. -/
theorem ringsAndGroups : Obligations.RingsAndGroups := by
  unfold Obligations.RingsAndGroups
  intro fn tag w s h hreset
  refine ⟨exec_ringGroupCreate_free h hreset, fun g x => exec_ringGroupDestroy_empty h hreset, fun x => exec_ringCreate_free h hreset,
    fun c k n pf hc hasks => ?_, fun c k wrong hc hasks g hring hown hwrong => ?_, fun g hring hown => ⟨exec_ringEnable_disabled h hreset hring hown,
      fun hasks hstate hexc => exec_ringDisable_idle h hreset hring hown hasks hstate hexc,
      fun hasks hstate hexc => exec_ringDisable_busy h hreset hring hown hasks hstate hexc, exec_ringRestart_error h hreset hring hown,
      exec_ringDestroy_disabled h hreset hring hown, fun hasks hclear => ?_⟩⟩
  · simp only [List.mem_cons, Prod.mk.injEq, List.not_mem_nil, or_false] at hc
    rcases hc with ⟨rfl, rfl, rfl, rfl⟩ | ⟨rfl, rfl, rfl, rfl⟩ | ⟨rfl, rfl, rfl, rfl⟩ | ⟨rfl, rfl, rfl, rfl⟩ | ⟨rfl, rfl, rfl, rfl⟩
    all_goals exact ⟨exec_ringRequest_absent h hasks rfl rfl, fun g => exec_ringRequest_foreign h hasks rfl rfl⟩
  · simp only [List.mem_cons, Prod.mk.injEq, List.not_mem_nil, or_false] at hc
    rcases hc with ⟨rfl, rfl, rfl⟩ | ⟨rfl, rfl, rfl⟩ | ⟨rfl, rfl, rfl⟩ | ⟨rfl, rfl, rfl⟩
    · exact exec_ringRequest_wrongState h hasks rfl rfl hreset hring hown fun e _ => if_pos hwrong
    · exact exec_ringRequest_wrongState h hasks rfl rfl hreset hring hown fun e htook => if_pos ((htook.chats.isException _).trans hwrong)
    · exact exec_ringRequest_wrongState h hasks rfl rfl hreset hring hown fun e _ => if_pos (.inl hwrong)
    · exact exec_ringRequest_wrongState h hasks rfl rfl hreset hring hown fun e _ => if_pos hwrong
  · exact exec_ringTune_clear (g := g) h hreset hring hown hasks hclear

end Sys2Proof.Machine
end

section
/-!
Virtual NVMe controllers (R301, R302).
-/

namespace Sys2Proof.Machine

/-! ## A controller beside the rest of the device -/

theorem Dev.nvme_onNvme_self (d : Dev) (fn : Nat) (f : Nvme → Nvme) : (d.onNvme fn f).nvme fn = f (d.nvme fn) := NMap.getD_upd_self ..

theorem Dev.nvme_congr {d e : Dev} (h : e.nvmes = d.nvmes) (fn : Nat) : e.nvme fn = d.nvme fn := by rw [Dev.nvme, Dev.nvme, h]

theorem Dev.nvmes_cause (d : Dev) (c : Causes) (b i : Nat) : (d.cause c b i).nvmes = d.nvmes :=
  Dev.nvmes_of_besides (Dev.cause_besides d c b i (List.Subset.refl _))

theorem Dev.nvmes_stoRecord (kind c : Nat) (d : Dev) : (d.stoRecord kind c).nvmes = d.nvmes :=
  Dev.nvmes_of_besides (Dev.stoRecord_besides kind c d (List.Subset.refl _))

theorem Dev.nvmes_sendEpilogue (fn : Nat) (d : Dev) : (d.sendEpilogue fn).nvmes = d.nvmes :=
  Dev.nvmes_of_besides (Dev.sendEpilogue_besides fn d (List.Subset.refl _))

theorem Dev.nvmes_hostRead (fn addr len : Nat) (a : Attr) (why : Nat → Nat → ReadFor) (d : Dev) : (d.hostRead fn addr len a why).nvmes = d.nvmes :=
  Dev.nvmes_of_besides (Dev.hostRead_besides fn addr len a why d (List.Subset.refl _))

/-- What goes through a list and leaves the controllers in each turn leaves them. -/
theorem Dev.nvmes_each {α : Type} {l : List α} {f : α → Dev → Dev} (hf : ∀ a e, (f a e).nvmes = e.nvmes) (d : Dev) :
    (Dev.each l f d).nvmes = d.nvmes :=
  Dev.each_induct (fun e => e.nvmes = d.nvmes) _ _ _ rfl fun a e he => (hf a e).trans he

/-! ## Registers that completions of controllers leave -/

theorem Dev.farSame_sendVector (fn v : Nat) (d : Dev) : d.farSame (d.sendVector fn v) := Dev.regsSame_of_regs (Dev.sendVector_regs ..)

theorem Dev.farSame_onNvme (fn : Nat) (f : Nvme → Nvme) (d : Dev) : d.farSame (d.onNvme fn f) := Dev.regsSame_of_regs rfl

theorem Dev.farSame_postOwed (fn : Nat) (d : Dev) : d.farSame (d.postOwed fn) := by
  unfold Dev.postOwed
  dsimp only
  split
  · exact d.regsSame_refl
  · split
    · exact Dev.farSame_onNvme fn _ d
    · split
      · exact Dev.farSame_onNvme fn _ d
      · split
        · exact d.regsSame_refl
        · have hwritten (f : Nvme → Nvme) (a : Nat) (l : List Byte) : d.farSame ((d.onNvme fn f).hostWrite fn a l {}) :=
            (Dev.farSame_onNvme fn f d).trans (Dev.farSame_hostWrite _ _ _ _ _)
          split
          · exact (hwritten _ _ _).trans (Dev.farSame_sendVector _ _ _)
          · exact hwritten _ _ _

theorem Dev.farSame_completeNvme (fn q cid status result : Nat) (d : Dev) : d.farSame (d.completeNvme fn q cid status result) :=
  (Dev.farSame_onNvme fn _ d).trans (Dev.farSame_each (fun _ e => e.farSame_postOwed fn) _)

theorem Dev.farSame_nvmeEvent (fn ev : Nat) (d : Dev) : d.farSame (d.nvmeEvent fn ev) := by
  unfold Dev.nvmeEvent
  split
  · exact Dev.farSame_onNvme fn _ d
  · exact (Dev.farSame_onNvme fn _ d).trans (Dev.farSame_completeNvme _ _ _ _ _ _)

/-- A key of the Storage Offload Unit beside its first word. -/
theorem farKey_sto {f : Field} (hunit : f.unit = 0x51) (hoff : f.off < 33554432) (hlsb : f.lsb < 32) (hfar : f.off ≠ 0 ∨ f.lsb ≠ 0) :
    farKey (f.key 0 0) := by
  unfold farKey
  simp only [Field.key, hunit]
  omega

/-! ## CC.EN (R302) -/

/-- A controller that CC.EN has enabled. -/
def Nvme.enabled (x : Nvme) : Nvme where
  cc := setBit x.cc 0
  ready := true
  intMask := x.intMask
  aqa := x.aqa
  asq := x.asq
  acq := x.acq
  sqs := ({} : NMap Sq).set 0 { base := x.asq / 4096 * 4096, size := x.aqa % 4096 + 1 }
  cqs := ({} : NMap Cq).set 0 { base := x.acq / 4096 * 4096, size := bits x.aqa 16 12 + 1, irq := true }
  features := x.features
  aers := x.aers
  events := x.events
  owed := x.owed
  nextTag := x.nextTag
  closing := x.closing

theorem Dev.nvmes_openConn (c : Nat) (d : Dev) : (d.openConn c).nvmes = d.nvmes := rfl

theorem Dev.nvme_nvmeEnable {d : Dev} {fn : Nat} (hnvme : d.isNvme fn = true) (hoff : hasBit (d.nvme fn).cc 0 = false)
    (hopen : (d.nvme fn).closing = false) : (d.nvmeEnable fn).nvme fn = (d.nvme fn).enabled := by
  unfold Dev.nvmeEnable
  simp only [hnvme, hoff, hopen, Bool.not_true, Bool.or_self, Bool.false_eq_true, if_false]
  refine (Dev.nvme_congr ?_ fn).trans (Dev.nvme_onNvme_self d fn _)
  exact Dev.nvmes_each Dev.nvmes_openConn _

theorem exec_nvmeCcEnSet {fn : Nat} {s : State} (hrun : s.dev.phase = .running) (hnvme : s.dev.isNvme fn = true)
    (hoff : hasBit (s.dev.nvme fn).cc 0 = false) (hopen : (s.dev.nvme fn).closing = false) :
    ∃ t, exec (.nvmeCcEnSet fn) s = .next t ∧ (t.dev.nvme fn).ready = true ∧ hasBit (t.dev.nvme fn).cc 0 = true ∧
      ((t.dev.nvme fn).sqs.get? 0).map Sq.size = some ((s.dev.nvme fn).aqa % 4096 + 1) ∧
      ((t.dev.nvme fn).cqs.get? 0).map Cq.size = some (bits (s.dev.nvme fn).aqa 16 12 + 1) := by
  refine ⟨_, State.onRun_running (Dev.nvmeEnable fn) hrun, ?_⟩
  rw [Dev.nvme_nvmeEnable hnvme hoff hopen]
  exact ⟨rfl, hasBit_setBit_self _ _, rfl, rfl⟩

/-- A record leaves the cause of a controller's reset. -/
theorem Dev.stoRecord_keepsReset (kind c : Nat) {d : Dev} (h : d.on (stoCauses.bit 5) = true) : (d.stoRecord kind c).on (stoCauses.bit 5) = true := by
  unfold Dev.stoRecord
  extract_lets r
  have hr : r.2.on (stoCauses.bit 5) = true := by
    unfold r
    split
    · rw [(Dev.farSame_notify _ _ d).on (farKey_sto rfl (by decide) (by decide) (.inl (by decide)))]
      exact h
    · exact h
  clear_value r
  split
  · exact hr
  · unfold Dev.on
    rw [Dev.rd_cause_at _ _ _ _ _ (by decide), Dev.rd_bump_at _ _ _ _ _ _ (by decide)]
    exact hr

theorem Dev.items_countEpilogue (fn : Nat) (f : Epilogue → Epilogue) (d : Dev) : (d.countEpilogue fn f).items = d.items := by
  unfold Dev.countEpilogue
  split
  · rfl
  · rfl

theorem Dev.items_countAbandoned (fn n : Nat) (d : Dev) : (d.countAbandoned fn n).items = d.items := by
  unfold Dev.countAbandoned
  extract_lets link d₁ d₂
  have h₂ : d₂.items = d.items := iteInduction (motive := fun e : Dev => e.items = d.items) (fun _ => rfl) (fun _ => rfl)
  clear_value d₂
  exact (Dev.items_countEpilogue fn _ d₂).trans h₂

/-- A controller that is closed has nothing left, and its reset is recorded. -/
theorem Dev.nvmeCleared_leaves (fn : Nat) (d : Dev) :
    ((d.nvmeCleared fn).nvme fn).ready = false ∧ ((d.nvmeCleared fn).nvme fn).cc = (d.nvme fn).cc ∧ ((d.nvmeCleared fn).nvme fn).sqs = {} ∧
    ((d.nvmeCleared fn).nvme fn).cqs = {} ∧ ((d.nvmeCleared fn).nvme fn).owed = [] ∧ (d.nvmeCleared fn).on (stoCauses.bit 5) = true := by
  unfold Dev.nvmeCleared
  extract_lets d₁ d₂ d₃
  have hsame : d₃.nvmes = d₁.nvmes := by
    refine (?_ : d₃.nvmes = d₂.nvmes).trans rfl
    unfold d₃
    split
    · exact Dev.nvmes_sendEpilogue ..
    · rfl
  clear_value d₃
  have hcount : d₃.countControllers.nvmes = d₃.nvmes := Dev.wr_nvmes ..
  have hcleared : (Dev.stoRecord 3 fn (d₃.countControllers.cause stoCauses 5)).nvme fn = d₁.nvme fn :=
    Dev.nvme_congr ((Dev.nvmes_stoRecord _ _ _).trans ((Dev.nvmes_cause _ _ _ _).trans (hcount.trans hsame))) fn
  rw [hcleared, Dev.nvme_onNvme_self]
  refine ⟨rfl, rfl, rfl, rfl, rfl, ?_⟩
  have hset := Dev.cause_on d₃.countControllers stoCauses 5 0
  exact Dev.stoRecord_keepsReset 3 fn hset

theorem exec_nvmeCcEnClear {fn : Nat} {s : State} (hrun : s.dev.phase = .running) (hon : hasBit (s.dev.nvme fn).cc 0 = true)
    (hitems : s.dev.items = {}) :
    ∃ t, exec (.nvmeCcEnClear fn) s = .next t ∧ (t.dev.nvme fn).ready = false ∧ hasBit (t.dev.nvme fn).cc 0 = false ∧
      (t.dev.nvme fn).sqs = {} ∧ (t.dev.nvme fn).cqs = {} ∧ (t.dev.nvme fn).owed = [] ∧ t.dev.on (stoCauses.bit 5) = true := by
  refine ⟨_, State.onRun_running (Dev.nvmeDisable fn) hrun, ?_⟩
  show ((s.dev.nvmeDisable fn).nvme fn).ready = false ∧ hasBit ((s.dev.nvmeDisable fn).nvme fn).cc 0 = false ∧
    ((s.dev.nvmeDisable fn).nvme fn).sqs = {} ∧ ((s.dev.nvmeDisable fn).nvme fn).cqs = {} ∧ ((s.dev.nvmeDisable fn).nvme fn).owed = [] ∧
    (s.dev.nvmeDisable fn).on (stoCauses.bit 5) = true
  unfold Dev.nvmeDisable
  extract_lets x conns held regions d₁ d₂ d₃ gone
  rw [if_neg (by rw [show hasBit x.cc 0 = true from hon]; decide)]
  have hlist : d₃.nvmes = d₁.nvmes ∧ d₃.items = s.dev.items := by
    have hdropped : (Dev.each regions Dev.dropRegion d₂).nvmes = d₂.nvmes ∧ (Dev.each regions Dev.dropRegion d₂).items = d₂.items :=
      Dev.each_induct (fun e => e.nvmes = d₂.nvmes ∧ e.items = d₂.items) _ _ _ ⟨rfl, rfl⟩ fun k e he => by
        unfold Dev.dropRegion
        split
        · exact he
        · exact he
    obtain ⟨hnvmes, hsame⟩ := hdropped
    exact ⟨(Dev.nvmes_of_besides (Dev.countAbandoned_besides fn held _ (List.Subset.refl _))).trans (hnvmes.trans rfl),
      (Dev.items_countAbandoned fn held _).trans (hsame.trans rfl)⟩
  obtain ⟨hnvmes, hsame⟩ := hlist
  have hgone : gone = [] := by
    unfold gone
    rw [hsame, hitems]
    rfl
  rw [hgone]
  obtain ⟨e, he⟩ : ∃ e, Dev.killReads fn false d₃ = e := ⟨_, rfl⟩
  have hx : e.nvme fn = d₁.nvme fn :=
    Dev.nvme_congr ((he ▸ Dev.nvmes_of_besides (Dev.killReads_besides fn false d₃ (List.Subset.refl _))).trans hnvmes) fn
  have hnone : e.items = {} :=
    (he ▸ Dev.items_of_besides (Dev.killReads_besides fn false d₃ (List.Subset.refl _)) : e.items = d₃.items).trans (hsame.trans hitems)
  rw [he]
  have hclosed : Dev.checkClosed fn e = e.nvmeCleared fn := by
    have hclosing : (e.nvme fn).closing = true := by
      rw [hx, Dev.nvme_onNvme_self]
    unfold Dev.checkClosed
    rw [hclosing, hnone]
    rfl
  obtain ⟨hready, hcc, hsqs, hcqs, howed, hcause⟩ := e.nvmeCleared_leaves fn
  rw [show Dev.each [] Dev.squash e = e from rfl, hclosed]
  refine ⟨hready, ?_, hsqs, hcqs, howed, hcause⟩
  rw [hcc, hx, Dev.nvme_onNvme_self]
  exact hasBit_clearBit_self _ _

/-! ## The tail doorbell (R302) -/

/-- Fetching reads entries, and leaves the tail. -/
theorem Dev.fetchSq_tail {d : Dev} {fn q : Nat} {a : Sq} (hq : (d.nvme fn).sqs.get? q = some a) :
    ∃ b, ((d.fetchSq fn q).nvme fn).sqs.get? q = some b ∧ b.tail = a.tail := by
  unfold Dev.fetchSq
  rw [hq]
  dsimp only
  split
  · exact ⟨a, hq, rfl⟩
  · split
    · refine ⟨a, ?_, rfl⟩
      rw [Dev.nvme_congr (Dev.nvmes_cause ..)]
      exact hq
    · split
      · exact ⟨a, hq, rfl⟩
      · split
        · refine ⟨a, ?_, rfl⟩
          rw [Dev.nvme_congr (Dev.nvmes_of_besides (Dev.markCapped_besides d (List.Subset.refl _)))]
          exact hq
        · rw [Dev.nvme_congr (Dev.nvmes_each (fun _ _ => Dev.nvmes_hostRead ..) _), Dev.nvme_onNvme_self]
          exact ⟨_, NMap.get?_set_self .., rfl⟩

/-- A bad doorbell is counted and recorded. -/
theorem Dev.badSqDoorbell_counts (fn : Nat) (d : Dev) :
    (d.badSqDoorbell fn).on (stoCauses.bit 6) = true ∧
    (d.badSqDoorbell fn).rd R.STO_BAD_DOORBELLS_count = (d.rd R.STO_BAD_DOORBELLS_count + 1) % 2 ^ R.STO_BAD_DOORBELLS_count.width := by
  unfold Dev.badSqDoorbell
  have hfar := Dev.farSame_nvmeEvent fn 0x010100 ((d.bump R.STO_BAD_DOORBELLS_count).cause stoCauses 6)
  constructor
  · rw [hfar.on (farKey_sto rfl (by decide) (by decide) (.inl (by decide)))]
    exact Dev.cause_on ..
  · rw [hfar.rd (farKey_sto rfl (by decide) (by decide) (.inl (by decide))), Dev.rd_cause_at _ _ _ _ _ (by decide)]
    exact Dev.rd_bump_self ..

theorem exec_nvmeSqTailDoorbell {fn q : Nat} {a : Sq} {s : State} (tail : Nat) (hrun : s.dev.phase = .running) (hopen : s.dev.doorbellOpen fn = true)
    (hnvme : s.dev.isNvme fn = true) (hclosing : (s.dev.nvme fn).closing = false) (hq : (s.dev.nvme fn).sqs.get? q = some a)
        (hsize : a.size ≤ 65536) :
    (tail < a.size → (a.tail + a.size - a.nextSeq % max 1 a.size) % max 1 a.size + (tail + a.size - a.tail) % max 1 a.size < a.size →
      ∃ t b, exec (.nvmeSqTailDoorbell fn q tail) s = .next t ∧ (t.dev.nvme fn).sqs.get? q = some b ∧ b.tail = tail) ∧
    (a.size ≤ tail → tail < 65536 → ∃ t, exec (.nvmeSqTailDoorbell fn q tail) s = .next t ∧ t.dev.on (stoCauses.bit 6) = true ∧
      t.dev.rd R.STO_BAD_DOORBELLS_count = (s.dev.rd R.STO_BAD_DOORBELLS_count + 1) % 2 ^ R.STO_BAD_DOORBELLS_count.width) := by
  have hexec : exec (.nvmeSqTailDoorbell fn q tail) s = .next { s with dev := s.dev.sqDoorbell fn q (tail % 65536) } :=
    State.onRun_running (Dev.sqDoorbell fn q (tail % 65536)) hrun
  have htakes : s.dev.sqDoorbell fn q (tail % 65536) =
      if a.size ≤ tail % 65536 ∨ a.size - 1 <
          (a.tail + a.size - a.nextSeq % max 1 a.size) % max 1 a.size + (tail % 65536 + a.size - a.tail) % max 1 a.size then
        s.dev.badSqDoorbell fn
      else (s.dev.onNvme fn (fun x => { x with sqs := x.sqs.set q { a with tail := tail % 65536 } })).fetchSq fn q := by
    unfold Dev.sqDoorbell
    rw [hopen, hnvme, hclosing, hq]
    rfl
  constructor
  · intro htail hroom
    rw [Nat.mod_eq_of_lt (htail.trans_le hsize)] at hexec htakes
    rw [if_neg (by omega)] at htakes
    obtain ⟨b, hb, hbtail⟩ := Dev.fetchSq_tail (fn := fn) (q := q) (a := { a with tail := tail })
      (d := s.dev.onNvme fn (fun x => { x with sqs := x.sqs.set q { a with tail := tail } }))
      (by rw [Dev.nvme_onNvme_self]; exact NMap.get?_set_self ..)
    exact ⟨_, b, hexec, (congrArg (fun d : Dev => (d.nvme fn).sqs.get? q) htakes).trans hb, hbtail⟩
  · intro htail hsmall
    rw [Nat.mod_eq_of_lt hsmall] at hexec htakes
    rw [if_pos (.inl htail)] at htakes
    refine ⟨_, hexec, ?_⟩
    rw [htakes]
    exact s.dev.badSqDoorbell_counts fn

/-! ## Admin commands (R301) -/

section
variable {fn seq op : Nat} {a : Sq} {b : List Byte} {l : List (Nat × List Byte)} {d : Dev} (hstands : d.nvmeStands fn 0 seq a b l op)
include hstands

theorem Dev.adminCommand_taken {want : Nat} (act : NvmeFields → Dev → Dev) (hop : op = want) :
    d.adminCommand fn want act = act (nvmeFields b) (d.nvmeTaken fn 0 a l) := by
  obtain ⟨hget, haccepted, hopcode⟩ := hstands
  unfold Dev.adminCommand
  rw [hget]
  dsimp only
  rw [haccepted]
  dsimp only
  rw [if_pos (hopcode.trans hop)]
  rfl

theorem Dev.adminCommand_unknown {want : Nat} (act : NvmeFields → Dev → Dev) (hwant : op ≠ want) (hop : adminOpcodes.contains op = false) :
    d.adminCommand fn want act = (d.nvmeTaken fn 0 a l).completeNvme fn 0 (nvmeFields b).cid 1 0 := by
  obtain ⟨hget, haccepted, hopcode⟩ := hstands
  unfold Dev.adminCommand
  rw [hget]
  dsimp only
  rw [haccepted]
  dsimp only
  rw [hopcode, if_neg hwant, hop]
  rfl

end

theorem Dev.nvme_nvmeTaken (d : Dev) (fn q : Nat) (a : Sq) (l : List (Nat × List Byte)) :
    (d.nvmeTaken fn q a l).nvme fn = { d.nvme fn with sqs := (d.nvme fn).sqs.set q { a with accepted := l, saved := a.saved - 1 } } :=
  Dev.nvme_onNvme_self ..

section
variable {fn : Nat} {x : NvmeFields} {d : Dev}

theorem Dev.nvmeIdentify_unknown (h : 3 < x.cdw10 % 256) : d.nvmeIdentify fn x = d.adminDone fn x 2 0 := by
  unfold Dev.nvmeIdentify
  dsimp only
  rw [if_neg (by omega), if_pos h]
  rfl

theorem Dev.nvmeIdentify_controller (h : x.cdw10 % 256 = 1) :
    d.nvmeIdentify fn x = { d with freeCtr := d.freeCtr + 1 }.adminData fn x (d.freeBytes 4096).1 := by
  unfold Dev.nvmeIdentify
  dsimp only
  rw [if_neg (by omega), if_neg (by omega), if_neg (by omega)]
  rfl

theorem Dev.freeBytes_length (n : Nat) (d : Dev) : (d.freeBytes n).1.length = n := by
  simp [Dev.freeBytes]

theorem Dev.nvmeLogPage_unknown (h : x.cdw10 % 256 = 0) : d.nvmeLogPage fn x = d.adminDone fn x 0x109 0 := by
  unfold Dev.nvmeLogPage
  dsimp only
  rw [if_pos (by rw [h]; rfl)]

theorem Dev.nvmeLogPage_health (h : x.cdw10 % 256 = 2) : d.nvmeLogPage fn x =
    { d with freeCtr := d.freeCtr + 1 }.adminData fn x (d.freeBytes (4 * (x.cdw10 / 65536 + 65536 * (x.cdw11 % 65536) + 1))).1 := by
  unfold Dev.nvmeLogPage
  dsimp only
  rw [if_neg (by rw [h]; decide)]
  rfl

theorem Dev.nvmeGetFeature_queues (h : x.cdw10 % 256 = 7) : d.nvmeGetFeature fn x = d.adminDone fn x 0 (63 + 65536 * 63) := by
  unfold Dev.nvmeGetFeature
  dsimp only
  rw [h, if_neg (by decide), if_pos rfl]
  rfl

theorem Dev.nvmeSetFeature_events (h : x.cdw10 % 256 = 11) :
    d.nvmeSetFeature fn x = (d.onNvme fn (fun c => { c with features := c.features.set 11 x.cdw11 })).adminDone fn x 0 0 := by
  unfold Dev.nvmeSetFeature
  dsimp only
  rw [h, if_neg (by decide), if_neg (by decide)]
  rfl

theorem Dev.nvmeAer_held (h : (d.nvme fn).events = []) :
    d.nvmeAer fn x = d.onNvme fn (fun c => { c with aers := c.aers ++ [x.cid] }) := by
  unfold Dev.nvmeAer
  rw [h]

theorem Dev.nvmeAbort_absent (h : (d.nvme fn).sqs.get? (x.cdw10 % 65536) = none) : d.nvmeAbort fn x = d.adminDone fn x 0 1 := by
  unfold Dev.nvmeAbort
  dsimp only
  rw [h]
  rfl

/-- The completion queue, and the submission queue, that a command creates. -/
def NvmeFields.newCq (x : NvmeFields) : Cq where
  base := x.prp1
  size := x.cdw10 / 65536 + 1
  irq := hasBit x.cdw11 1
  vector := x.cdw11 / 65536
def NvmeFields.newSq (x : NvmeFields) : Sq where
  base := x.prp1
  size := x.cdw10 / 65536 + 1
  cq := x.cdw11 / 65536

theorem Dev.nvmeCreateCq_made (hlow : 1 ≤ x.cdw10 % 65536) (hhigh : x.cdw10 % 65536 ≤ 64) (hfree : (d.nvme fn).cqs.has (x.cdw10 % 65536) = false)
    (hsize : 1 ≤ x.cdw10 / 65536) (hsmall : x.cdw10 / 65536 < 4096) (hphys : hasBit x.cdw11 0 = true) (hvector : x.cdw11 / 65536 < d.msixSize fn) :
    d.nvmeCreateCq fn x =
      (d.onNvme fn (fun c => { c with cqs := c.cqs.set (x.cdw10 % 65536) x.newCq })).adminDone fn x 0 0 := by
  have hnumber : ¬ (x.cdw10 % 65536 = 0 ∨ 64 < x.cdw10 % 65536 ∨ (d.nvme fn).cqs.has (x.cdw10 % 65536) = true) := by
    rw [hfree]
    simp only [Bool.false_eq_true, or_false]
    omega
  unfold Dev.nvmeCreateCq
  dsimp only
  rw [if_neg hnumber, hphys, if_neg (by omega), if_neg (by decide), if_neg (by omega)]
  rfl

theorem Dev.nvmeCreateSq_made (hlow : 1 ≤ x.cdw10 % 65536) (hhigh : x.cdw10 % 65536 ≤ 64) (hfree : (d.nvme fn).sqs.has (x.cdw10 % 65536) = false)
    (hsize : 1 ≤ x.cdw10 / 65536) (hsmall : x.cdw10 / 65536 < 4096) (hphys : hasBit x.cdw11 0 = true) (hcq : x.cdw11 / 65536 ≠ 0)
    (hhas : (d.nvme fn).cqs.has (x.cdw11 / 65536) = true) :
    d.nvmeCreateSq fn x = ((d.freshBalance (sqLeaf fn (x.cdw10 % 65536))).onNvme fn
      (fun c => { c with sqs := c.sqs.set (x.cdw10 % 65536) x.newSq })).adminDone fn x 0 0 := by
  have hnumber : ¬ (x.cdw10 % 65536 = 0 ∨ 64 < x.cdw10 % 65536 ∨ (d.nvme fn).sqs.has (x.cdw10 % 65536) = true) := by
    rw [hfree]
    simp only [Bool.false_eq_true, or_false]
    omega
  have hnamed : ¬ (x.cdw11 / 65536 = 0 ∨ (d.nvme fn).cqs.has (x.cdw11 / 65536) = false) := by
    rw [hhas]
    simpa only [Bool.true_eq_false, or_false] using hcq
  unfold Dev.nvmeCreateSq
  dsimp only
  rw [if_neg hnamed, if_neg hnumber, hphys, if_neg (by omega), if_neg (by decide)]
  rfl

theorem Dev.nvmeDeleteSq_done (hq : x.cdw10 % 65536 ≠ 0) (hhas : (d.nvme fn).sqs.has (x.cdw10 % 65536) = true) :
    d.nvmeDeleteSq fn x = (d.onNvme fn (fun c => { c with sqs := c.sqs.erase (x.cdw10 % 65536) })).adminDone fn x 0 0 := by
  unfold Dev.nvmeDeleteSq
  dsimp only
  rw [hhas, if_neg (by simpa using hq)]
  rfl

theorem Dev.nvmeDeleteCq_done (hq : x.cdw10 % 65536 ≠ 0) (hhas : (d.nvme fn).cqs.has (x.cdw10 % 65536) = true)
    (hunnamed : ∀ y ∈ (d.nvme fn).sqs.vals, y.cq ≠ x.cdw10 % 65536) :
    d.nvmeDeleteCq fn x = (d.onNvme fn (fun c => { c with cqs := c.cqs.erase (x.cdw10 % 65536) })).adminDone fn x 0 0 := by
  have hnone : (d.nvme fn).sqs.vals.any (fun s => s.cq == x.cdw10 % 65536) = false := by
    rw [List.any_eq_false]
    exact fun y hy => by simpa using hunnamed y hy
  unfold Dev.nvmeDeleteCq
  dsimp only
  rw [hhas, hnone, if_neg (by simpa using hq), if_neg (by decide)]
  rfl

end

/-- Delete I/O SQ, at the head of the admin queue, of a queue without commands. -/
theorem exec_nvmeDeleteIoSq {fn seq : Nat} {a : Sq} {b : List Byte} {l : List (Nat × List Byte)} {s : State} (hrun : s.dev.phase = .running)
    (hstands : s.dev.nvmeStands fn 0 seq a b l 0) (hidle : s.dev.sqBusy fn ((nvmeFields b).cdw10 % 65536) = false) :
    exec (.nvmeDeleteIoSq fn) s = .next { s with dev := (s.dev.nvmeTaken fn 0 a l).nvmeDeleteSq fn (nvmeFields b) } := by
  have htaken := Dev.adminCommand_taken hstands (Dev.nvmeDeleteSq fn) rfl
  obtain ⟨hget, haccepted, -⟩ := hstands
  refine (State.onRun_running _ hrun : execNvmeDeleteIoSq fn s = _).trans ?_
  rw [hget]
  simp only [Option.bind_some, haccepted, List.head?_cons, Option.map_some, hidle, Bool.false_eq_true, false_and, and_false, if_false]
  rw [htaken]

/-! ## I/O commands (R302) -/

/-- The item that the head of an I/O queue becomes. -/
def Dev.ioItem (d : Dev) (fn q seq : Nat) (a : Sq) (b : List Byte) : Item where
  kind := 2
  seq := seq
  fn := fn
  gen := (d.fn fn).gen
  descs := [{ seq := seq, bytes := b }]
  nvme := some (fn, q)
  verdict := { entry := (Config.workEntry (2 ^ 22 + fn)).toNat }
  restored := a.saved != 0
  since := (32 * d.ticks : Nat)

theorem Dev.ioCommand_taken {fn q seq op : Nat} {a : Sq} {b : List Byte} {l : List (Nat × List Byte)} {d : Dev} (hq : q ≠ 0)
    (hstands : d.nvmeStands fn q seq a b l op) : d.ioCommand fn q op = ((d.nvmeTaken fn q a l).addItem (d.ioItem fn q seq a b)).2 := by
  obtain ⟨hget, haccepted, hopcode⟩ := hstands
  unfold Dev.ioCommand
  rw [hget]
  dsimp only
  rw [haccepted]
  dsimp only
  rw [if_neg hq, if_pos hopcode]
  rfl

theorem exec_nvmeIo {c : Instr} {fn q seq op : Nat} {a : Sq} {b : List Byte} {l : List (Nat × List Byte)} {s : State} (hrun : s.dev.phase = .running)
    (hc : exec c s = s.onRun (Dev.ioCommand fn q op)) (hq : q ≠ 0) (hstands : s.dev.nvmeStands fn q seq a b l op) :
    ∃ t it, exec c s = .next t ∧ (t.dev.nvme fn).sqs.get? q = some { a with accepted := l, saved := a.saved - 1 } ∧
      t.dev.item? s.dev.nextItem = some it ∧ it.nvme = some (fn, q) ∧ it.seq = seq ∧ it.kind = 2 ∧ it.stage = .queued ∧ t.dev.regs = s.dev.regs := by
  refine ⟨_, s.dev.ioItem fn q seq a b, hc.trans (State.onRun_running _ hrun), ?_⟩
  rw [Dev.ioCommand_taken hq hstands]
  refine ⟨?_, Dev.item?_addItem _ _, rfl, rfl, rfl, rfl, rfl⟩
  show ((s.dev.nvmeTaken fn q a l).nvme fn).sqs.get? q = _
  rw [Dev.nvme_nvmeTaken]
  exact NMap.get?_set_self ..

/-- Settles O48: enabling, disabling and the doorbell by what the operations leave of the controller, the commands by their branch. -/
theorem nvmeControllers : Obligations.NvmeControllers := by
  unfold Obligations.NvmeControllers
  intro fn q s hrun
  refine ⟨exec_nvmeCcEnSet hrun, exec_nvmeCcEnClear hrun, fun tail a hopen hnvme hclosing hq hsize =>
    exec_nvmeSqTailDoorbell tail hrun hopen hnvme hclosing hq hsize, ?_, ?_⟩
  · intro seq a b l op hstands x d k ends
    have hadmin {c : Instr} {want : Nat} {act : NvmeFields → Dev → Dev} (hc : exec c s = s.onRun (Dev.adminCommand fn want act)) (hop : op = want)
        {e : Dev} (he : act x d = e) : exec c s = .next { s with dev := e } := by
      rw [hc, State.onRun_running _ hrun, Dev.adminCommand_taken hstands act hop, ← he]
    have hcqs : (d.nvme fn).cqs = (s.dev.nvme fn).cqs :=
      (congrArg Nvme.cqs (Dev.nvme_nvmeTaken s.dev fn 0 a l) :)
    have hevents : (d.nvme fn).events = (s.dev.nvme fn).events :=
      (congrArg Nvme.events (Dev.nvme_nvmeTaken s.dev fn 0 a l) :)
    have hsqs (hk : k ≠ 0) : (d.nvme fn).sqs.get? k = (s.dev.nvme fn).sqs.get? k :=
      (congrArg (fun y : Nvme => y.sqs.get? k) (Dev.nvme_nvmeTaken s.dev fn 0 a l)).trans (NMap.get?_set_ne _ _ hk)
    have hhasSq (hk : k ≠ 0) : (d.nvme fn).sqs.has k = (s.dev.nvme fn).sqs.has k := congrArg Option.isSome (hsqs hk)
    refine ⟨fun hop h => hadmin rfl hop (Dev.nvmeIdentify_unknown h),
      fun hop h => ⟨_, Dev.freeBytes_length 4096 d, hadmin rfl hop (Dev.nvmeIdentify_controller h)⟩, ?_, ?_, ?_, ?_,
      fun hop h => hadmin rfl hop (Dev.nvmeGetFeature_queues h), fun hop h => hadmin rfl hop (Dev.nvmeSetFeature_events h),
      fun hop h => hadmin rfl hop (Dev.nvmeLogPage_unknown h),
      fun hop h => ⟨_, Dev.freeBytes_length _ d, hadmin rfl hop (Dev.nvmeLogPage_health h)⟩, ?_, ?_, ?_⟩
    · intro hop hlow hhigh hfree hsize hsmall hphys hvector
      exact hadmin rfl hop (Dev.nvmeCreateCq_made hlow hhigh ((congrArg (·.has k) hcqs).trans hfree) hsize hsmall hphys hvector)
    · intro hop hlow hhigh hfree hsize hsmall hphys hcq hhas
      exact hadmin rfl hop (Dev.nvmeCreateSq_made hlow hhigh ((hhasSq (Nat.ne_of_gt hlow)).trans hfree) hsize hsmall hphys hcq
        ((congrArg (·.has ((nvmeFields b).cdw11 / 65536)) hcqs).trans hhas))
    · intro hop hk hhas hidle
      subst hop
      refine (exec_nvmeDeleteIoSq hrun hstands hidle).trans (congrArg (fun e => Host.Outcome.next { s with dev := e }) ?_)
      exact Dev.nvmeDeleteSq_done hk ((hhasSq hk).trans hhas)
    · intro hop hk hhas hunnamed
      exact hadmin rfl hop (Dev.nvmeDeleteCq_done hk ((congrArg (·.has k) hcqs).trans hhas) hunnamed)
    · intro hop hnone hk
      exact hadmin rfl hop (Dev.nvmeAbort_absent ((hsqs hk).trans hnone))
    · intro hop hnone
      exact hadmin rfl hop (Dev.nvmeAer_held (hevents.trans hnone))
    · intro hop
      have hwant : op ≠ 6 := fun h => by rw [h] at hop; exact absurd hop (by decide)
      show execNvmeIdentify fn s = _
      unfold execNvmeIdentify
      rw [State.onRun_running _ hrun, Dev.adminCommand_unknown hstands _ hwant hop]
  · intro c op seq a b l hc hq hstands
    simp only [List.mem_cons, List.not_mem_nil, or_false, Prod.mk.injEq] at hc
    rcases hc with ⟨rfl, rfl⟩ | ⟨rfl, rfl⟩ | ⟨rfl, rfl⟩ | ⟨rfl, rfl⟩ | ⟨rfl, rfl⟩
    all_goals exact exec_nvmeIo hrun rfl hq hstands

end Sys2Proof.Machine
end

section
/-!
DMA channels: what their requests leave, stops, starts (R325-R330, R335).
-/

namespace Sys2Proof.Machine

/-! ## What the channels' requests leave -/

theorem Dev.dma_hostRead (fn addr len : Nat) (a : Attr) (why : Nat → Nat → ReadFor) (d : Dev) : (d.hostRead fn addr len a why).dma = d.dma :=
  Dev.dma_of_besides (Dev.hostRead_besides fn addr len a why d (List.Subset.refl _))

theorem Dev.dma_hostWrite (fn addr : Nat) (data : List Byte) (a : Attr) (d : Dev) : (d.hostWrite fn addr data a).dma = d.dma :=
  Dev.dma_of_besides (Dev.hostWrite_besides fn addr data a d (List.Subset.refl _))

theorem Dev.dma_cause (d : Dev) (c : Causes) (b i : Nat) : (d.cause c b i).dma = d.dma :=
  Dev.dma_of_besides (Dev.cause_besides d c b i (List.Subset.refl _))

theorem Dev.farSame_hostRead (fn addr len : Nat) (a : Attr) (why : Nat → Nat → ReadFor) (d : Dev) : d.farSame (d.hostRead fn addr len a why) := by
  unfold Dev.hostRead
  extract_lets link reqs
  exact (d.farSame_leaveL1 link).trans ((Dev.regsSame_of_regs rfl).trans
    (Dev.regsSame_of_regs (Dev.regs_of_besides (Dev.pump_besides link _ (List.Subset.refl _)))))

theorem Dev.chanDma_congr {d e : Dev} (h : e.dma = d.dma) (c : Nat) : e.chanDma c = d.chanDma c := by rw [Dev.chanDma, Dev.chanDma, h]

theorem Dev.chanDma_onDma_self (d : Dev) (c : Nat) (f : DmaChan → DmaChan) : (d.onDma c f).chanDma c = f (d.chanDma c) := NMap.getD_upd_self ..

/-- The keys of the links' states and of the fields that lie as they do. -/
def linkKey (k : Nat) : Prop := k % 2 ^ 30 = 0

theorem Dev.linkUp_congr {d e : Dev} (h : d.regsSame linkKey e) (l : Nat) : e.linkUp l = d.linkUp l := by
  have hkey : linkKey (R.PCX_LINK_STATUS_state.key l 0) := by
    unfold linkKey
    simp only [Field.key, R.PCX_LINK_STATUS_state]
    omega
  rw [Dev.linkUp, Dev.linkUp, h.rd hkey]

theorem Dev.canIssue_congr {d e : Dev} (hfuncs : e.funcs = d.funcs) (hboot : e.boot = d.boot) (hregs : d.regsSame linkKey e) (fn : Nat) :
    e.canIssue fn = d.canIssue fn := by
  rw [Dev.canIssue, Dev.canIssue, Dev.hasFn, Dev.hasFn, Dev.fn_congr hfuncs, Dev.linkOf_congr hboot, Dev.linkUp_congr hregs]

/-- A link that is up is up when it has left L1. -/
theorem Dev.linkUp_leaveL1 {d : Dev} {l : Nat} (link : Nat) (h : d.linkUp l = true) : (d.leaveL1 link).linkUp l = true := by
  unfold Dev.leaveL1
  split
  · by_cases hlink : l = link
    · subst hlink
      rw [Dev.linkUp, Dev.rd_wr_self]
      rfl
    · rw [Dev.linkUp, Dev.rd_wr_ne _ _ _ _ _ _ _ _ (by simp only [Field.key]; omega)]
      exact h
  · exact h

theorem Dev.canIssue_hostRead {d : Dev} {f : Nat} (fn addr len : Nat) (a : Attr) (why : Nat → Nat → ReadFor) (h : d.canIssue f = true) :
    (d.hostRead fn addr len a why).canIssue f = true := by
  have hleft : (d.leaveL1 (d.linkOf fn)).canIssue f = true := by
    rw [Dev.canIssue, Bool.and_eq_true] at h ⊢
    obtain ⟨hfn, hup⟩ := h
    rw [Dev.linkOf_leaveL1]
    refine ⟨?_, Dev.linkUp_leaveL1 _ hup⟩
    rw [← hfn, Dev.hasFn, Dev.hasFn, Dev.fn_congr (Dev.leaveL1_funcs d _)]
  unfold Dev.hostRead
  extract_lets link reqs
  refine (Dev.canIssue_congr ?_ ?_ ?_ f).trans hleft
  · exact Dev.funcs_of_besides (Dev.pump_besides link _ (List.Subset.refl _))
  · exact Dev.boot_of_besides (Dev.pump_besides link _ (List.Subset.refl _))
  · exact Dev.regsSame_of_regs (Dev.regs_of_besides (Dev.pump_besides link _ (List.Subset.refl _)))

/-! ## The registers of a channel -/

/-- A field of the DMA engines' channels that is not the first of its block. -/
def Field.ofDma (f : Field) : Prop := f.unit = 0x61 ∧ f.off < 0x1000 ∧ f.lsb < 32 ∧ f.off ≠ 0

section
variable {c : Nat} (hc : c < 64)
include hc

theorem farKey_dma {f : Field} (hf : f.ofDma) : farKey (f.key c 0) := by
  obtain ⟨hunit, hoff, hlsb, hfirst⟩ := hf
  unfold farKey
  simp only [Field.key, hunit]
  omega

/-- What leaves the far registers leaves those of a channel. -/
theorem Dev.rd_dma {d e : Dev} (h : d.farSame e) {f : Field} (hf : f.ofDma) : e.rd f c = d.rd f c := h.rd (farKey_dma hc hf)

end

theorem not_linkKey_dma {f : Field} (c : Nat) (hf : f.ofDma) : ¬ linkKey (f.key c 0) := by
  obtain ⟨hunit, hoff, hlsb, hfirst⟩ := hf
  unfold linkKey
  simp only [Field.key, hunit]
  omega

theorem Field.ofDma_state : R.DMA_STATUS_state.ofDma := ⟨rfl, by decide, by decide, by decide⟩
theorem Field.ofDma_code : R.DMA_STATUS_code.ofDma := ⟨rfl, by decide, by decide, by decide⟩
theorem Field.ofDma_owner : R.DMA_STATUS_owner.ofDma := ⟨rfl, by decide, by decide, by decide⟩
theorem Field.ofDma_function : R.DMA_FUNC_function.ofDma := ⟨rfl, by decide, by decide, by decide⟩
theorem Field.ofDma_done : R.DMA_DESC_DONE_count.ofDma := ⟨rfl, by decide, by decide, by decide⟩
theorem Field.ofDma_bytesLo : R.DMA_BYTES_LO_bytes.ofDma := ⟨rfl, by decide, by decide, by decide⟩
theorem Field.ofDma_bytesHi : R.DMA_BYTES_HI_bytes.ofDma := ⟨rfl, by decide, by decide, by decide⟩
theorem Field.ofDma_curLo : R.DMA_CUR_LO_cur.ofDma := ⟨rfl, by decide, by decide, by decide⟩
theorem Field.ofDma_curHi : R.DMA_CUR_HI_cur.ofDma := ⟨rfl, by decide, by decide, by decide⟩
theorem Field.ofDma_remain : R.DMA_REMAIN_remain.ofDma := ⟨rfl, by decide, by decide, by decide⟩

/-- Showing where a channel stands leaves every other field of it. -/
theorem Dev.rd_showCur (c addr remain : Nat) (d : Dev) (g : Field) (hlo : g.key 0 0 ≠ R.DMA_CUR_LO_cur.key 0 0)
    (hhi : g.key 0 0 ≠ R.DMA_CUR_HI_cur.key 0 0) (hremain : g.key 0 0 ≠ R.DMA_REMAIN_remain.key 0 0) :
        (d.showCur c addr remain).rd g c = d.rd g c := by
  unfold Dev.showCur
  rw [Dev.rd_wr_at _ _ _ _ _ _ hremain, Dev.rd_wr64_ne _ _ _ _ _ _ _ _ _ (Field.key_ne_at c 0 hlo) (Field.key_ne_at c 0 hhi)]

theorem Dev.dma_showCur (c addr remain : Nat) (d : Dev) : (d.showCur c addr remain).dma = d.dma := rfl

theorem Dev.rd64_congr_rd {d e : Dev} {lo hi : Field} {i : Nat} (hlo : e.rd lo i = d.rd lo i) (hhi : e.rd hi i = d.rd hi i) :
    e.rd64 lo hi i = d.rd64 lo hi i := by rw [Dev.rd64, Dev.rd64, hlo, hhi]

/-- The bytes that a channel has moved. -/
def Dev.dmaBytes (d : Dev) (c : Nat) : Nat := d.rd64 R.DMA_BYTES_LO_bytes R.DMA_BYTES_HI_bytes c

theorem Dev.dmaBytes_wr64 (d : Dev) (c v : Nat) : (d.wr64 R.DMA_BYTES_LO_bytes R.DMA_BYTES_HI_bytes v c).dmaBytes c = v % 2 ^ 64 :=
  Dev.rd64_wr64_self _ _ _ _ _ _ (Field.key_ne_at c 0 (by decide)) rfl rfl

theorem Dev.rd_dmaBytes_wr64 (d : Dev) (c v : Nat) (g : Field) (hlo : g.key 0 0 ≠ R.DMA_BYTES_LO_bytes.key 0 0)
    (hhi : g.key 0 0 ≠ R.DMA_BYTES_HI_bytes.key 0 0) : (d.wr64 R.DMA_BYTES_LO_bytes R.DMA_BYTES_HI_bytes v c).rd g c = d.rd g c :=
  Dev.rd_wr64_ne _ _ _ _ _ _ _ _ _ (Field.key_ne_at c 0 hlo) (Field.key_ne_at c 0 hhi)

/-! ## Stops (R335) -/

theorem Dev.dma_writeRegion {a : Nat} {b : List Byte} {d e : Dev} (h : d.writeRegion a b = some e) : e.dma = d.dma ∧ e.regs = d.regs := by
  unfold Dev.writeRegion at h
  split at h
  · cases h
    exact ⟨rfl, rfl⟩
  · split at h
    · cases h
    · cases h
      refine Dev.each_induct (fun e => e.dma = d.dma ∧ e.regs = d.regs) _ _ _ ⟨rfl, rfl⟩ fun p e he => ?_
      unfold Dev.putRegion
      exact he

theorem Dev.writeDone_leaves (c : Nat) (x : DmaDesc) (code : Nat) (d : Dev) : (d.writeDone c x code).dma = d.dma ∧ d.farSame
    (d.writeDone c x code) := by
  unfold Dev.writeDone
  dsimp only
  split
  · cases hwritten : d.writeRegion (x.addr + 0x14) (leBytes (1 + 2 * code) 4) with
    | none => exact ⟨rfl, d.regsSame_refl⟩
    | some e =>
      obtain ⟨hdma, hregs⟩ := Dev.dma_writeRegion hwritten
      exact ⟨hdma, Dev.regsSame_of_regs hregs⟩
  · split
    · exact ⟨Dev.dma_hostWrite .., Dev.farSame_hostWrite _ _ _ _ _⟩
    · exact ⟨rfl, d.regsSame_refl⟩

/-- A channel that stops reads state 5 and the code, and has no descriptor. -/
theorem Dev.dmaStop_stops {c : Nat} (hc : c < 64) (code : Nat) (x : DmaDesc) (d : Dev) :
    (d.dmaStop c code x).dmaState c = 5 ∧ (d.dmaStop c code x).rd R.DMA_STATUS_code c = code % 16 ∧ ((d.dmaStop c code x).chanDma c).descs = [] ∧
    ((d.dmaStop c code x).chanDma c).flight = [] ∧ (d.dmaStop c code x).on (dmaCauses.bit 3) c = true ∧
    (d.dmaStop c code x).dmaBytes c = d.dmaBytes c := by
  unfold Dev.dmaStop
  extract_lets d₁ d₂ d₃ d₄
  have h₁ : d₁.rd R.DMA_STATUS_state c = 5 ∧ d₁.rd R.DMA_STATUS_code c = code % 16 ∧ d₁.rd R.DMA_BYTES_LO_bytes c = d.rd R.DMA_BYTES_LO_bytes c ∧
      d₁.rd R.DMA_BYTES_HI_bytes c = d.rd R.DMA_BYTES_HI_bytes c := by
    unfold d₁
    refine ⟨?_, Dev.rd_wr_self .., ?_, ?_⟩
    · rw [Dev.rd_wr_at _ _ _ _ _ _ (by decide)]
      exact Dev.rd_wr_self ..
    · rw [Dev.rd_wr_at _ _ _ _ _ _ (by decide), Dev.rd_wr_at _ _ _ _ _ _ (by decide)]
      rfl
    · rw [Dev.rd_wr_at _ _ _ _ _ _ (by decide), Dev.rd_wr_at _ _ _ _ _ _ (by decide)]
      rfl
  clear_value d₁
  have h₃ (f : Field) (hf : f.ofDma) (hlo : f.key 0 0 ≠ R.DMA_CUR_LO_cur.key 0 0) (hhi : f.key 0 0 ≠ R.DMA_CUR_HI_cur.key 0 0)
      (hremain : f.key 0 0 ≠ R.DMA_REMAIN_remain.key 0 0) : d₃.rd f c = d₁.rd f c := by
    refine Eq.trans ?_ (Dev.rd_showCur c x.addr (x.length - x.written) d₁ f hlo hhi hremain)
    unfold d₃
    split
    · rfl
    · exact Dev.rd_dma hc (Dev.writeDone_leaves c x code d₂).2 hf
  clear_value d₃
  have h₄ (f : Field) (hf : f.ofDma) (hlo : f.key 0 0 ≠ R.DMA_CUR_LO_cur.key 0 0) (hhi : f.key 0 0 ≠ R.DMA_CUR_HI_cur.key 0 0)
      (hremain : f.key 0 0 ≠ R.DMA_REMAIN_remain.key 0 0) (hcause : f.key 0 0 ≠ (dmaCauses.bit 3).key 0 0) :
      (d₄.cause dmaCauses 3 c).rd f c = d₁.rd f c :=
    (Dev.rd_cause_at _ _ _ _ _ hcause).trans (h₃ f hf hlo hhi hremain)
  have hchan : (d₄.cause dmaCauses 3 c).chanDma c = d₄.chanDma c := Dev.chanDma_congr (Dev.dma_cause ..) c
  obtain ⟨hstate, hcode, hlo, hhi⟩ := h₁
  refine ⟨(h₄ _ Field.ofDma_state (by decide) (by decide) (by decide) (by decide)).trans hstate,
    (h₄ _ Field.ofDma_code (by decide) (by decide) (by decide) (by decide)).trans hcode, ?_, ?_, Dev.cause_on .., Dev.rd64_congr_rd ?_ ?_⟩
  · rw [hchan, Dev.chanDma_onDma_self]
  · rw [hchan, Dev.chanDma_onDma_self]
  · exact (h₄ _ Field.ofDma_bytesLo (by decide) (by decide) (by decide) (by decide)).trans hlo
  · exact (h₄ _ Field.ofDma_bytesHi (by decide) (by decide) (by decide) (by decide)).trans hhi

/-! ## Starting and fetching (R326, R330) -/

theorem Dev.dmaFn_congr {d e : Dev} {c : Nat} (howner : e.rd R.DMA_STATUS_owner c = d.rd R.DMA_STATUS_owner c)
    (hfn : e.rd R.DMA_FUNC_function c = d.rd R.DMA_FUNC_function c) : e.dmaFn c = d.dmaFn c := by
  rw [Dev.dmaFn, Dev.dmaFn, Dev.dmaOwner, Dev.dmaOwner, howner, hfn]

theorem Dev.dmaFn_farSame {d e : Dev} {c : Nat} (hc : c < 64) (h : d.farSame e) : e.dmaFn c = d.dmaFn c :=
  Dev.dmaFn_congr (Dev.rd_dma hc h Field.ofDma_owner) (Dev.rd_dma hc h Field.ofDma_function)

/-- A channel that may issue reads its descriptor, and nothing else about it changes. -/
theorem Dev.dmaFetch_leaves {d : Dev} {c : Nat} (addr : Nat) (hissue : d.canIssue (d.dmaFn c) = true) :
    (d.dmaFetch c addr).chanDma c = { d.chanDma c with fetching := some addr, fetched := none, fetchBad := false } ∧
    d.farSame (d.dmaFetch c addr) ∧ ((d.dmaFetch c addr).canIssue (d.dmaFn c) = true) := by
  have hfn : d.hasFn (d.dmaFn c) = true := by
    rw [Dev.canIssue] at hissue
    simp only [Bool.and_eq_true] at hissue
    obtain ⟨⟨⟨⟨hfn, -⟩, -⟩, -⟩, -⟩ := hissue
    exact hfn
  unfold Dev.dmaFetch
  extract_lets e
  have he : e.chanDma c = { d.chanDma c with fetching := some addr, fetched := none, fetchBad := false } := Dev.chanDma_onDma_self ..
  split
  · exact ⟨he, Dev.regsSame_of_regs rfl, hissue⟩
  · rw [if_neg (by rw [show e.hasFn (e.dmaFn c) = true from hfn]; decide), if_pos (show e.canIssue (e.dmaFn c) = true from hissue)]
    exact ⟨(Dev.chanDma_congr (Dev.dma_hostRead ..) c).trans he, (Dev.regsSame_of_regs rfl).trans (Dev.farSame_hostRead _ _ _ _ _ e),
      Dev.canIssue_hostRead _ _ _ _ _ hissue⟩

theorem Dev.dmaSettle_waits {d : Dev} {c : Nat} (hdescs : (d.chanDma c).descs = []) (hbad : (d.chanDma c).fetchBad = false) : d.dmaSettle c = d := by
  unfold Dev.dmaSettle
  rw [hdescs, hbad]
  dsimp only
  split
  · exact if_neg Bool.false_ne_true
  · rfl

theorem Dev.dmaSettle_sound {d : Dev} {c : Nat} {x : DmaDesc} {l : List DmaDesc} (hdescs : (d.chanDma c).descs = x :: l) (hsound : x.bad = none) :
    d.dmaSettle c = d := by
  unfold Dev.dmaSettle
  rw [hdescs]
  dsimp only
  rw [hsound]

theorem Dev.dmaSettle_stops {d : Dev} {c code : Nat} {x : DmaDesc} {l : List DmaDesc} (hdescs : (d.chanDma c).descs = x :: l)
    (hbad : x.bad = some code) :
    d.dmaSettle c = d.dmaStop c code x := by
  unfold Dev.dmaSettle
  rw [hdescs]
  dsimp only
  rw [hbad]

/-- A master has taken a channel: owner, state and code. -/
def Dev.dmaTaken (mid c : Nat) (d : Dev) : Dev :=
  (({ d with dma := d.dma.set c {} }.wr R.DMA_STATUS_owner mid c).wr R.DMA_STATUS_state 1 c).wr R.DMA_STATUS_code 0 c

/-- A channel is started (R326): its registers as they stand before the first descriptor is read. -/
def Dev.dmaStarted (mid c list : Nat) (d : Dev) : Dev :=
  ((d.dmaTaken mid c).wr64 R.DMA_BYTES_LO_bytes R.DMA_BYTES_HI_bytes 0 c).showCur c list 0

theorem Dev.dmaTaken_shows {mid : Nat} (c : Nat) (d : Dev) (hmid : mid < 65536) :
    (d.dmaTaken mid c).rd R.DMA_STATUS_state c = 1 ∧ (d.dmaTaken mid c).rd R.DMA_STATUS_owner c = mid ∧
    (d.dmaTaken mid c).rd R.DMA_STATUS_code c = 0 ∧ (d.dmaTaken mid c).rd R.DMA_FUNC_function c = d.rd R.DMA_FUNC_function c := by
  unfold Dev.dmaTaken
  refine ⟨?_, ?_, Dev.rd_wr_self .., ?_⟩
  · rw [Dev.rd_wr_at _ _ _ _ _ _ (by decide)]
    exact Dev.rd_wr_self ..
  · rw [Dev.rd_wr_at _ _ _ _ _ _ (by decide), Dev.rd_wr_at _ _ _ _ _ _ (by decide), Dev.rd_wr_self]
    exact Nat.mod_eq_of_lt hmid
  · rw [Dev.rd_wr_at _ _ _ _ _ _ (by decide), Dev.rd_wr_at _ _ _ _ _ _ (by decide), Dev.rd_wr_at _ _ _ _ _ _ (by decide)]
    rfl

theorem Dev.dmaTaken_links (mid c : Nat) (d : Dev) : d.regsSame linkKey (d.dmaTaken mid c) :=
  ((Dev.regsSame.wr (Dev.regsSame_of_regs rfl) _ _ _ _ (not_linkKey_dma c Field.ofDma_owner)).wr _ _ _ _ (not_linkKey_dma c Field.ofDma_state)).wr
    _ _ _ _ (not_linkKey_dma c Field.ofDma_code)

theorem Dev.dmaStarted_links (mid c list : Nat) (d : Dev) : d.regsSame linkKey (d.dmaStarted mid c list) := by
  unfold Dev.dmaStarted Dev.showCur Dev.wr64
  exact (((((d.dmaTaken_links mid c).wr _ _ _ _ (not_linkKey_dma c Field.ofDma_bytesLo)).wr _ _ _ _ (not_linkKey_dma c Field.ofDma_bytesHi)).wr
    _ _ _ _ (not_linkKey_dma c Field.ofDma_curLo)).wr _ _ _ _ (not_linkKey_dma c Field.ofDma_curHi)).wr _ _ _ _ (not_linkKey_dma c Field.ofDma_remain)

theorem Dev.dmaStarted_parts (mid c list : Nat) (d : Dev) :
    (d.dmaStarted mid c list).dma = d.dma.set c {} ∧ (d.dmaStarted mid c list).funcs = d.funcs ∧ (d.dmaStarted mid c list).boot = d.boot := by
  unfold Dev.dmaStarted Dev.showCur Dev.wr64 Dev.dmaTaken
  simp only [Dev.wr_dma, Dev.wr_funcs, Dev.wr_boot, and_self]

theorem Dev.dmaStarted_shows {mid : Nat} (c list : Nat) (d : Dev) (hmid : mid < 65536) :
    (d.dmaStarted mid c list).dmaState c = 1 ∧ (d.dmaStarted mid c list).dmaOwner c = mid ∧ (d.dmaStarted mid c list).rd R.DMA_STATUS_code c = 0 ∧
    (d.dmaStarted mid c list).dmaBytes c = 0 ∧ (d.dmaStarted mid c list).rd R.DMA_FUNC_function c = d.rd R.DMA_FUNC_function c := by
  obtain ⟨hstate, howner, hcode, hfn⟩ := d.dmaTaken_shows c hmid
  unfold Dev.dmaStarted
  obtain ⟨e, he⟩ : ∃ e, d.dmaTaken mid c = e := ⟨_, rfl⟩
  rw [he] at hstate howner hcode hfn
  rw [he]
  refine ⟨?_, ?_, ?_, ?_, ?_⟩
  · rw [Dev.dmaState, Dev.rd_showCur _ _ _ _ _ (by decide) (by decide) (by decide), Dev.rd_dmaBytes_wr64 _ _ _ _ (by decide) (by decide), hstate]
  · rw [Dev.dmaOwner, Dev.rd_showCur _ _ _ _ _ (by decide) (by decide) (by decide), Dev.rd_dmaBytes_wr64 _ _ _ _ (by decide) (by decide), howner]
  · rw [Dev.rd_showCur _ _ _ _ _ (by decide) (by decide) (by decide), Dev.rd_dmaBytes_wr64 _ _ _ _ (by decide) (by decide), hcode]
  · refine (Dev.rd64_congr_rd ?_ ?_).trans (Dev.dmaBytes_wr64 e c 0)
    · exact Dev.rd_showCur _ _ _ _ _ (by decide) (by decide) (by decide)
    · exact Dev.rd_showCur _ _ _ _ _ (by decide) (by decide) (by decide)
  · rw [Dev.rd_showCur _ _ _ _ _ (by decide) (by decide) (by decide), Dev.rd_dmaBytes_wr64 _ _ _ _ (by decide) (by decide), hfn]

/-- The states in which a channel takes a start (R326). -/
theorem Dev.dmaStart_eq {d : Dev} {c : Nat} (mid : Nat) (hstate : d.dmaState c ∈ [0, 4, 5]) :
    d.dmaStart mid c =
      (let e := ((d.dmaStarted mid c (32 * d.rd R.DMA_LIST_LO_list c + 2 ^ 32 * d.rd R.DMA_LIST_HI_list c)).dmaFetch c
        (32 * d.rd R.DMA_LIST_LO_list c + 2 ^ 32 * d.rd R.DMA_LIST_HI_list c)).dmaSettle c
      if e.canIssue (e.dmaFn c) then e else e.dmaHalt c) := by
  have hfree : ¬ (d.dmaState c ≠ 0 ∧ d.dmaState c ≠ 4 ∧ d.dmaState c ≠ 5) := by
    simp only [List.mem_cons, List.not_mem_nil, or_false] at hstate
    omega
  unfold Dev.dmaStart
  rw [if_neg hfree]
  rfl

theorem exec_dmaStart {c mid : Nat} {s : State} (hrun : s.dev.phase = .running) (hc : c < 64) (hstate : s.dev.dmaState c ∈ [0, 4, 5])
    (hmid : mid < 65536) (hissue : s.dev.canIssue (if isFnMid mid then mid - 0x1000 else s.dev.rd R.DMA_FUNC_function c) = true) :
    ∃ t, exec (.dmaStart mid c) s = .next t ∧ t.dev.dmaState c = 1 ∧ t.dev.dmaOwner c = mid ∧ t.dev.rd R.DMA_STATUS_code c = 0 ∧
      (t.dev.chanDma c).fetching = some (32 * s.dev.rd R.DMA_LIST_LO_list c + 2 ^ 32 * s.dev.rd R.DMA_LIST_HI_list c) ∧
      (t.dev.chanDma c).descs = [] ∧ t.dev.rd64 R.DMA_BYTES_LO_bytes R.DMA_BYTES_HI_bytes c = 0 := by
  refine ⟨_, State.onRun_running (Dev.dmaStart mid c) hrun, ?_⟩
  obtain ⟨list, hlist⟩ : ∃ n, 32 * s.dev.rd R.DMA_LIST_LO_list c + 2 ^ 32 * s.dev.rd R.DMA_LIST_HI_list c = n := ⟨_, rfl⟩
  obtain ⟨hrunning, howner, hcode, hbytes, hfn⟩ := s.dev.dmaStarted_shows c list hmid
  obtain ⟨hdma, hfuncs, hboot⟩ := s.dev.dmaStarted_parts mid c list
  have hlinks := s.dev.dmaStarted_links mid c list
  have hstart := s.dev.dmaStart_eq mid hstate
  rw [hlist] at hstart
  obtain ⟨e, he⟩ : ∃ e, s.dev.dmaStarted mid c list = e := ⟨_, rfl⟩
  rw [he] at hrunning howner hcode hbytes hfn hdma hfuncs hboot hlinks hstart
  have hchan : e.chanDma c = {} := by rw [Dev.chanDma, hdma, NMap.getD_set_self]
  have hissued : e.canIssue (e.dmaFn c) = true := by
    rw [Dev.dmaFn, howner, hfn, Dev.canIssue_congr hfuncs hboot hlinks]
    exact hissue
  obtain ⟨hfetching, hfar, hcan⟩ := Dev.dmaFetch_leaves list hissued
  have hwaits : (e.dmaFetch c list).dmaSettle c = e.dmaFetch c list :=
    Dev.dmaSettle_waits (by rw [hfetching, hchan]) (by rw [hfetching])
  have hfetch : s.dev.dmaStart mid c = e.dmaFetch c list := by
    rw [hstart, hwaits]
    exact if_pos (by rw [Dev.dmaFn_farSame hc hfar]; exact hcan)
  rw [hfetch]
  refine ⟨(Dev.rd_dma hc hfar Field.ofDma_state).trans hrunning, (Dev.rd_dma hc hfar Field.ofDma_owner).trans howner,
    (Dev.rd_dma hc hfar Field.ofDma_code).trans hcode, by rw [hfetching, hlist], by rw [hfetching, hchan], ?_⟩
  exact (Dev.rd64_congr_rd (Dev.rd_dma hc hfar Field.ofDma_bytesLo) (Dev.rd_dma hc hfar Field.ofDma_bytesHi)).trans hbytes

end Sys2Proof.Machine
end

section
/-!
Starts refused, pauses, requests and descriptors that have come (R330, R334, R336).
-/

namespace Sys2Proof.Machine

/-! ## Starts refused, stops, resumptions, requests (R326, R334, R336) -/

theorem Dev.dma_bump (d : Dev) (f : Field) (i a n : Nat) : (d.bump f i a n).dma = d.dma := Dev.wr_dma ..

theorem exec_dmaStart_refused {c : Nat} (mid : Nat) {s : State} (hrun : s.dev.phase = .running) (hstate : s.dev.dmaState c ∈ [1, 2, 3]) :
    ∃ t, exec (.dmaStart mid c) s = .next t ∧ t.dev.dma = s.dev.dma ∧ t.dev.dmaState c = s.dev.dmaState c ∧
      t.dev.rd R.DMA_REFUSED_count c = (s.dev.rd R.DMA_REFUSED_count c + 1) % 2 ^ R.DMA_REFUSED_count.width := by
  have hbusy : s.dev.dmaState c ≠ 0 ∧ s.dev.dmaState c ≠ 4 ∧ s.dev.dmaState c ≠ 5 := by
    simp only [List.mem_cons, List.not_mem_nil, or_false] at hstate
    omega
  have hrefused : s.dev.dmaStart mid c = (s.dev.bump R.DMA_REFUSED_count c).cause dmaCauses 7 c := if_pos hbusy
  refine ⟨_, State.onRun_running (Dev.dmaStart mid c) hrun, ?_⟩
  rw [hrefused]
  refine ⟨(Dev.dma_cause ..).trans (Dev.dma_bump ..), ?_, ?_⟩
  · rw [Dev.dmaState, Dev.rd_cause_at _ _ _ _ _ (by decide), Dev.rd_bump_at _ _ _ _ _ _ (by decide)]
    rfl
  · rw [Dev.rd_cause_at _ _ _ _ _ (by decide)]
    exact Dev.rd_bump_self ..

theorem exec_dmaStop_pauses {c : Nat} (mid : Nat) {s : State} (hrun : s.dev.phase = .running) (hstate : s.dev.dmaState c = 1)
    (hflight : (s.dev.chanDma c).flight = []) : ∃ t, exec (.dmaStop mid c) s = .next t ∧ t.dev.dmaState c = 2 := by
  refine ⟨_, State.onRun_running (Dev.dmaStopOp c) hrun, ?_⟩
  rw [Dev.dmaStopOp, if_pos (.inl hstate), Dev.dmaPause, Dev.chanDma_onDma_self, hflight]
  rw [if_pos (by rw [show (s.dev.onDma c fun h => { h with stopping := true }).dmaState c = 1 from hstate]; rfl)]
  exact Dev.rd_wr_self ..

theorem Dev.canIssue_dmaWr {d : Dev} (fn : Nat) {f : Field} (c v : Nat) (hf : f.ofDma) : (d.wr f v c).canIssue fn = d.canIssue fn :=
  Dev.canIssue_congr (Dev.wr_funcs ..) (Dev.wr_boot ..) (d.regsSame_refl.wr _ _ _ _ (not_linkKey_dma c hf)) fn

/-- A channel's function does not depend on its state. -/
theorem Dev.dmaFn_wrState (d : Dev) (c v : Nat) : (d.wr R.DMA_STATUS_state v c).dmaFn c = d.dmaFn c :=
  Dev.dmaFn_congr (Dev.rd_wr_at _ _ _ _ _ _ (by decide)) (Dev.rd_wr_at _ _ _ _ _ _ (by decide))

theorem Dev.canIssue_resumed (d : Dev) (c v : Nat) :
    (d.wr R.DMA_STATUS_state v c).canIssue ((d.wr R.DMA_STATUS_state v c).dmaFn c) = d.canIssue (d.dmaFn c) := by
  rw [Dev.dmaFn_wrState, Dev.canIssue_dmaWr _ _ _ Field.ofDma_state]

theorem exec_dmaResume {c : Nat} (mid : Nat) {s : State} (hrun : s.dev.phase = .running) (hstate : s.dev.dmaState c = 2)
    (hissue : s.dev.canIssue (s.dev.dmaFn c) = true) :
    exec (.dmaResume mid c) s = .next { s with dev := s.dev.wr R.DMA_STATUS_state 1 c } := by
  refine (State.onRun_running (Dev.dmaResumeOp c) hrun).trans ?_
  rw [Dev.dmaResumeOp, if_pos hstate]
  dsimp only
  rw [Dev.canIssue_resumed, if_pos hissue]

theorem exec_dmaResume_halted {c : Nat} (mid : Nat) {s : State} (hrun : s.dev.phase = .running) (hstate : s.dev.dmaState c = 2)
    (hissue : s.dev.canIssue (s.dev.dmaFn c) = false) :
    ∃ t, exec (.dmaResume mid c) s = .next t ∧ t.dev.dmaState c = 3 ∧ t.dev.on (dmaCauses.bit 6) c = true := by
  refine ⟨_, State.onRun_running (Dev.dmaResumeOp c) hrun, ?_⟩
  have hhalted : s.dev.dmaResumeOp c = ((s.dev.wr R.DMA_STATUS_state 1 c).wr R.DMA_STATUS_state 3 c).cause dmaCauses 6 c := by
    rw [Dev.dmaResumeOp, if_pos hstate]
    dsimp only
    rw [Dev.canIssue_resumed, hissue, if_neg Bool.false_ne_true, Dev.dmaHalt]
    exact if_pos (Dev.rd_wr_self ..)
  rw [hhalted]
  refine ⟨?_, Dev.cause_on ..⟩
  rw [Dev.dmaState, Dev.rd_cause_at _ _ _ _ _ (by decide)]
  exact Dev.rd_wr_self ..

theorem exec_dmaRequest {c : Nat} (mid : Nat) {s : State} (hrun : s.dev.phase = .running) (hroom : s.dev.rd R.DMA_STATUS_requests c < 255) :
    ∃ t, exec (.dmaRequest mid c) s = .next t ∧ t.dev.rd R.DMA_STATUS_requests c = s.dev.rd R.DMA_STATUS_requests c + 1 ∧ t.dev.dma = s.dev.dma := by
  refine ⟨_, State.onRun_running (Dev.dmaRequestOp c) hrun, ?_⟩
  rw [Dev.dmaRequestOp, if_neg (by omega)]
  exact ⟨(Dev.rd_wr_self ..).trans (Nat.mod_eq_of_lt (show _ < 256 by omega)), Dev.wr_dma ..⟩

theorem exec_dmaRequest_full {c : Nat} (mid : Nat) {s : State} (hrun : s.dev.phase = .running) (hfull : s.dev.rd R.DMA_STATUS_requests c = 255) :
    ∃ t, exec (.dmaRequest mid c) s = .next t ∧ t.dev.rd R.DMA_STATUS_requests c = 255 ∧ t.dev.on (dmaCauses.bit 8) c = true := by
  refine ⟨_, State.onRun_running (Dev.dmaRequestOp c) hrun, ?_⟩
  rw [Dev.dmaRequestOp, if_pos hfull]
  exact ⟨(Dev.rd_cause_at _ _ _ _ _ (by decide)).trans hfull, Dev.cause_on ..⟩

/-! ## Descriptors that have come (R330) -/

/-- The verdict on a descriptor that has come: none, malformed (2), or a table that refuses it (4). -/
def Dev.dmaVerdict (c a : Nat) (b : List Byte) (d : Dev) : DmaDesc :=
  if d.dmaBad (d.dmaOwner c) b (dmaDesc a b) then { dmaDesc a b with bad := some 2 }
  else if (dmaDesc a b).dstSpace = 2 ∧ (d.tabKind (dmaDesc a b).table ≠ 2 ∨ d.on R.MTB_TABLE_CFG_host_write 0 (32 * (dmaDesc a b).table) = false) then
    { dmaDesc a b with bad := some 4 }
  else dmaDesc a b

/-- The fetched descriptor `x` has joined the channel's list. -/
def DmaChan.joined (x : DmaDesc) (h : DmaChan) : DmaChan :=
  { h with descs := h.descs ++ [x], fetching := none, fetched := none }

/-- The descriptor has joined an empty list, and the channel shows it. -/
def Dev.dmaJoined (c a : Nat) (b : List Byte) (d : Dev) : Dev :=
  (d.onDma c (DmaChan.joined (d.dmaVerdict c a b))).showCur c a (d.dmaVerdict c a b).length

theorem Dev.dmaFetched_joins {d : Dev} {c a : Nat} {b : List Byte} (hfetching : (d.chanDma c).fetching = some a)
    (hfetched : (d.chanDma c).fetched = some b) (hdescs : (d.chanDma c).descs = []) : d.dmaFetched c = (d.dmaJoined c a b).dmaSettle c := by
  unfold Dev.dmaFetched
  dsimp only
  rw [hfetching, hfetched, hdescs]
  rfl

theorem Dev.chanDma_dmaJoined {d : Dev} {c : Nat} (a : Nat) (b : List Byte) (hdescs : (d.chanDma c).descs = []) :
    ((d.dmaJoined c a b).chanDma c).descs = [d.dmaVerdict c a b] ∧ ((d.dmaJoined c a b).chanDma c).fetching = none := by
  have hchan : (d.dmaJoined c a b).chanDma c = (d.chanDma c).joined (d.dmaVerdict c a b) :=
    (Dev.chanDma_congr (Dev.dma_showCur ..) c).trans (Dev.chanDma_onDma_self ..)
  rw [hchan, DmaChan.joined, hdescs]
  exact ⟨rfl, rfl⟩

section
variable {c a : Nat} {b : List Byte} {s : State} (hrun : s.dev.phase = .running) (hc : c < 64) (hfetching : (s.dev.chanDma c).fetching = some a)
  (hfetched : (s.dev.chanDma c).fetched = some b) (hdescs : (s.dev.chanDma c).descs = [])
include hrun hfetching hfetched hdescs

theorem exec_dmaDescriptorFetched_sound (hsound : s.dev.dmaBad (s.dev.dmaOwner c) b (dmaDesc a b) = false)
    (htakes : (dmaDesc a b).dstSpace = 2 → s.dev.tableTakes (dmaDesc a b).table 2) :
    ∃ t, exec (.dmaDescriptorFetched c) s = .next t ∧ (t.dev.chanDma c).descs = [dmaDesc a b] ∧ (t.dev.chanDma c).fetching = none ∧
      t.dev.dmaState c = s.dev.dmaState c := by
  refine ⟨_, State.onRun_running (Dev.dmaFetched c) hrun, ?_⟩
  have hverdict : s.dev.dmaVerdict c a b = dmaDesc a b := by
    unfold Dev.dmaVerdict
    rw [hsound, if_neg Bool.false_ne_true, if_neg ?_]
    rintro ⟨hspace, hrefused⟩
    obtain ⟨hkind, hwrite⟩ := htakes hspace
    rw [hkind, hwrite] at hrefused
    simp at hrefused
  obtain ⟨hjoined, hnone⟩ := Dev.chanDma_dmaJoined a b hdescs
  rw [hverdict] at hjoined
  rw [Dev.dmaFetched_joins hfetching hfetched hdescs, Dev.dmaSettle_sound hjoined rfl]
  refine ⟨hjoined, hnone, ?_⟩
  exact Dev.rd_showCur _ _ _ _ _ (by decide) (by decide) (by decide)

include hc

/-- A descriptor with a verdict stops its channel with the verdict's code. -/
theorem exec_dmaDescriptorFetched_stops {code : Nat} (hbad : (s.dev.dmaVerdict c a b).bad = some code) (hcode : code < 16) :
    ∃ t, exec (.dmaDescriptorFetched c) s = .next t ∧ (t.dev.chanDma c).descs = [] ∧ t.dev.dmaState c = 5 ∧
      t.dev.rd R.DMA_STATUS_code c = code ∧ t.dev.on (dmaCauses.bit 3) c = true := by
  refine ⟨_, State.onRun_running (Dev.dmaFetched c) hrun, ?_⟩
  rw [Dev.dmaFetched_joins hfetching hfetched hdescs, Dev.dmaSettle_stops (Dev.chanDma_dmaJoined a b hdescs).1 hbad]
  obtain ⟨hstate, hshown, hempty, -, hcause, -⟩ := Dev.dmaStop_stops hc code (s.dev.dmaVerdict c a b) (s.dev.dmaJoined c a b)
  exact ⟨hempty, hstate, hshown.trans (Nat.mod_eq_of_lt hcode), hcause⟩

end

theorem Dev.dmaVerdict_malformed {d : Dev} {c a : Nat} {b : List Byte} (h : d.dmaBad (d.dmaOwner c) b (dmaDesc a b) = true) :
    (d.dmaVerdict c a b).bad = some 2 := by
  unfold Dev.dmaVerdict
  rw [if_pos h]

theorem Dev.dmaVerdict_refused {d : Dev} {c a : Nat} {b : List Byte} (h : d.dmaBad (d.dmaOwner c) b (dmaDesc a b) = false)
    (hspace : (dmaDesc a b).dstSpace = 2) (hrefused : ¬ d.tableTakes (dmaDesc a b).table 2) : (d.dmaVerdict c a b).bad = some 4 := by
  have hwrong : d.tabKind (dmaDesc a b).table ≠ 2 ∨ d.on R.MTB_TABLE_CFG_host_write 0 (32 * (dmaDesc a b).table) = false := by
    by_cases hkind : d.tabKind (dmaDesc a b).table = 2
    · exact .inr (Bool.eq_false_iff.2 fun hwrite => hrefused ⟨hkind, hwrite⟩)
    · exact .inl hkind
  unfold Dev.dmaVerdict
  rw [h, if_neg Bool.false_ne_true, if_pos ⟨hspace, hwrong⟩]

end Sys2Proof.Machine
end

section
/-!
Bursts that start, bursts that failed (R331, R333).
-/

namespace Sys2Proof.Machine

/-! ## Bursts (R331, R333) -/

/-- Fetching leaves what a channel has in flight and its descriptors. -/
theorem Dev.dmaFetch_keeps (c addr : Nat) (d : Dev) :
    ((d.dmaFetch c addr).chanDma c).descs = (d.chanDma c).descs ∧ ((d.dmaFetch c addr).chanDma c).flight = (d.chanDma c).flight := by
  unfold Dev.dmaFetch
  extract_lets e
  have he : (e.chanDma c).descs = (d.chanDma c).descs ∧ (e.chanDma c).flight = (d.chanDma c).flight := by
    unfold e
    rw [Dev.chanDma_onDma_self]
    exact ⟨rfl, rfl⟩
  split
  · exact he
  · split
    · rw [Dev.chanDma_onDma_self]
      exact he
    · split
      · rw [Dev.chanDma_congr (Dev.dma_hostRead ..) c]
        exact he
      · exact he

theorem Dev.dma_readRegion (a n : Nat) (d : Dev) : (d.readRegion a n).2.dma = d.dma := by
  unfold Dev.readRegion
  split
  · rfl
  · split
    · rfl
    · rfl

/-- The burst `b` is the one that starts descriptor `x` where it stands. -/
def Burst.startsAt (b : Burst) (x : DmaDesc) (n : Nat) : Prop := b.desc = x.addr ∧ b.off = x.started ∧ b.len = n

/-- The one burst of the channel is the next of descriptor `x`, which has moved on. -/
def Dev.bursts (d : Dev) (c : Nat) (x : DmaDesc) (n : Nat) : Prop :=
  ∃ b, (d.chanDma c).flight = [b] ∧ b.startsAt x n ∧ (d.chanDma c).descs = [{ x with started := x.started + n }]

theorem Dev.bursts_congr {d e : Dev} {c n : Nat} {x : DmaDesc} (h : d.bursts c x n) (hdma : e.dma = d.dma) : e.bursts c x n := by
  rw [Dev.bursts, Dev.chanDma_congr hdma]
  exact h

theorem Dev.bursts_dmaFetch {d : Dev} {c n : Nat} {x : DmaDesc} (addr : Nat) (h : d.bursts c x n) : (d.dmaFetch c addr).bursts c x n := by
  obtain ⟨hdescs, hflight⟩ := d.dmaFetch_keeps c addr
  rw [Dev.bursts, hdescs, hflight]
  exact h

theorem Dev.bursts_answered {d : Dev} {c n : Nat} {x : DmaDesc} (g : Burst → Burst) (hg : ∀ b, b.startsAt x n → (g b).startsAt x n)
    (h : d.bursts c x n) : (d.onDma c (fun h => { h with flight := h.flight.map g })).bursts c x n := by
  obtain ⟨b, hflight, hstarts, hdescs⟩ := h
  rw [Dev.bursts, Dev.chanDma_onDma_self]
  refine ⟨g b, ?_, hg b hstarts, hdescs⟩
  rw [hflight]
  rfl

theorem exec_dmaBurstStart {c : Nat} {x : DmaDesc} {s : State} (hrun : s.dev.phase = .running) (hruns : s.dev.dmaRuns c)
    (hflight : (s.dev.chanDma c).flight = []) (hdescs : (s.dev.chanDma c).descs = [x]) (hsound : x.bad = none) (hleft : x.started < x.length)
    (hspaced : s.dev.spaced c = true) (hissue : s.dev.canIssue (s.dev.dmaFn c) = true) (hpaced : s.dev.on R.DMA_CTRL_paced c = false) :
    ∃ t, exec (.dmaBurstStart c) s = .next t ∧ t.dev.bursts c x (s.dev.burstLen c x) := by
  refine ⟨_, State.onRun_running (Dev.dmaBurst c) hrun, ?_⟩
  obtain ⟨-, hstate, hstopping⟩ := hruns
  have hcurrent : (s.dev.chanDma c).current = some x := by
    rw [DmaChan.current, hdescs, List.find?_cons_of_pos]
    simpa [hsound] using hleft
  unfold Dev.dmaBurst
  extract_lets h paced fn d₀ id line site
  split
  next hnone => exact absurd (hnone.symm.trans hcurrent) (by simp)
  next y hsome =>
  obtain rfl : y = x := Option.some.inj (hsome.symm.trans hcurrent)
  extract_lets n attr log2 moved d₁ r d₂
  rw [if_neg (by simp [h, paced, fn, hstate, hstopping, hflight, hspaced, hissue, hpaced])]
  have h₀ : d₀ = s.dev := if_neg (by rw [show paced = false from hpaced]; simp)
  have h₁ : d₁.bursts c y (s.dev.burstLen c y) := by
    unfold d₁
    rw [Dev.bursts, Dev.chanDma_onDma_self, h₀, hflight, hdescs]
    refine ⟨_, rfl, ⟨rfl, rfl, rfl⟩, ?_⟩
    exact congrArg (fun z => [z]) (if_pos rfl)
  clear_value d₁
  have h₂ : d₂.bursts c y (s.dev.burstLen c y) := by
    unfold d₂
    split
    · exact Dev.bursts_congr h₁ (Dev.dma_hostRead ..)
    · refine Dev.bursts_answered _ (fun b hb => ?_) (Dev.bursts_congr h₁ (Dev.dma_readRegion ..))
      split
      · exact hb
      · exact hb
  clear_value d₂
  split
  · exact Dev.bursts_dmaFetch _ h₂
  · exact h₂

/-! ## Bursts that end (R331, R332, R339) -/

theorem Dev.xfers_writeRegion {a : Nat} {b : List Byte} {d e : Dev} (h : d.writeRegion a b = some e) : e.stp.xfers = d.stp.xfers := by
  unfold Dev.writeRegion at h
  split at h
  · cases h
    rfl
  · split at h
    · cases h
    · cases h
      refine Dev.each_induct (fun e => e.stp.xfers = d.stp.xfers) _ _ _ rfl fun p e he => ?_
      unfold Dev.putRegion
      exact he

theorem Dev.stp_hostWrite (fn addr : Nat) (data : List Byte) (a : Attr) (d : Dev) : (d.hostWrite fn addr data a).stp = d.stp :=
  Dev.stp_of_besides (Dev.hostWrite_besides fn addr data a d (List.Subset.refl _))

theorem Dev.stp_cause (d : Dev) (cs : Causes) (b i : Nat) : (d.cause cs b i).stp = d.stp :=
  Dev.stp_of_besides (Dev.cause_besides d cs b i (List.Subset.refl _))

theorem Dev.xfers_writeDone (c : Nat) (x : DmaDesc) (code : Nat) (d : Dev) : (d.writeDone c x code).stp.xfers = d.stp.xfers := by
  unfold Dev.writeDone
  dsimp only
  split
  · cases hwritten : d.writeRegion (x.addr + 0x14) (leBytes (1 + 2 * code) 4) with
    | none => rfl
    | some e => exact Dev.xfers_writeRegion hwritten
  · split
    · rw [Dev.stp_hostWrite]
    · rfl

theorem Dev.stp_showCur (c addr remain : Nat) (d : Dev) : (d.showCur c addr remain).stp = d.stp := by
  unfold Dev.showCur Dev.wr64
  simp only [Dev.wr_stp]

theorem Dev.xfers_dmaStop (c code : Nat) (x : DmaDesc) (d : Dev) : (d.dmaStop c code x).stp.xfers = d.stp.xfers := by
  unfold Dev.dmaStop
  extract_lets d₁ d₂ d₃ d₄
  have h₂ : d₂.stp = d.stp := (Dev.stp_showCur ..).trans (by unfold d₁; simp only [Dev.wr_stp]; rfl)
  have h₃ : d₃.stp.xfers = d.stp.xfers := by
    unfold d₃
    rw [← h₂]
    split
    · rfl
    · exact Dev.xfers_writeDone ..
  rw [Dev.stp_cause]
  exact h₃

theorem Dev.serveXfer_none {d : Dev} (c : Nat) (h : d.stp.xfers = []) : d.serveXfer c = d := by
  unfold Dev.serveXfer
  rw [h]
  rfl

theorem exec_dmaBurstComplete_failed {c : Nat} {x : DmaDesc} {b : Burst} {s : State} (hrun : s.dev.phase = .running) (hruns : s.dev.dmaRuns c)
    (hxfers : s.dev.stp.xfers = []) (hflight : (s.dev.chanDma c).flight = [b]) (hdescs : (s.dev.chanDma c).descs = [x]) (hfailed : b.failed = true) :
    ∃ t, exec (.dmaBurstComplete c) s = .next t ∧ t.dev.dmaState c = 5 ∧ t.dev.rd R.DMA_STATUS_code c = 3 := by
  refine ⟨_, State.onRun_running (fun d => (d.dmaBurstDone c).serveXfer c) hrun, ?_⟩
  obtain ⟨hc, -, -⟩ := hruns
  have hdone : s.dev.dmaBurstDone c = s.dev.dmaStop c 3 x := by
    unfold Dev.dmaBurstDone
    dsimp only
    rw [hflight, hdescs]
    exact if_pos hfailed
  obtain ⟨hstate, hcode, -⟩ := Dev.dmaStop_stops hc 3 x s.dev
  rw [hdone, Dev.serveXfer_none c ((Dev.xfers_dmaStop ..).trans hxfers)]
  exact ⟨hstate, hcode⟩

end Sys2Proof.Machine
end

section
/-!
Bursts that end (R331, R332, R339).
-/

namespace Sys2Proof.Machine

/-- Where a channel stands after a burst: nothing in flight, nothing stopping; its state, its descriptors,
    the bytes moved and the descriptors done. -/
structure Dev.DmaMoved (d : Dev) (c st bytes done : Nat) (descs : List DmaDesc) : Prop where
  flight : (d.chanDma c).flight = []
  stopping : (d.chanDma c).stopping = false
  descs : (d.chanDma c).descs = descs
  bytes : d.dmaBytes c = bytes
  done : d.rd R.DMA_DESC_DONE_count c = done
  state : d.dmaState c = st
  xfers : d.stp.xfers = []

section
variable {d : Dev} {c st bytes done : Nat} {descs : List DmaDesc}

/-- What leaves the channels and writes no register of channel `c` but those of its place and its causes keeps what a burst has left. -/
theorem Dev.DmaMoved.congr {e : Dev} (h : d.DmaMoved c st bytes done descs) (hdma : e.dma = d.dma)
    (hlo : e.rd R.DMA_BYTES_LO_bytes c = d.rd R.DMA_BYTES_LO_bytes c)
    (hhi : e.rd R.DMA_BYTES_HI_bytes c = d.rd R.DMA_BYTES_HI_bytes c) (hdone : e.rd R.DMA_DESC_DONE_count c = d.rd R.DMA_DESC_DONE_count c)
    (hstate : e.rd R.DMA_STATUS_state c = d.rd R.DMA_STATUS_state c) (hxfers : e.stp.xfers = d.stp.xfers) : e.DmaMoved c st bytes done descs where
  flight := by rw [Dev.chanDma_congr hdma, h.flight]
  stopping := by rw [Dev.chanDma_congr hdma, h.stopping]
  descs := by rw [Dev.chanDma_congr hdma, h.descs]
  bytes := (Dev.rd64_congr_rd hlo hhi).trans h.bytes
  done := hdone.trans h.done
  state := hstate.trans h.state
  xfers := hxfers.trans h.xfers

theorem Dev.DmaMoved.farSame {e : Dev} (hc : c < 64) (h : d.DmaMoved c st bytes done descs) (hdma : e.dma = d.dma) (hfar : d.farSame e)
    (hxfers : e.stp.xfers = d.stp.xfers) : e.DmaMoved c st bytes done descs :=
  h.congr hdma (Dev.rd_dma hc hfar Field.ofDma_bytesLo) (Dev.rd_dma hc hfar Field.ofDma_bytesHi) (Dev.rd_dma hc hfar Field.ofDma_done)
    (Dev.rd_dma hc hfar Field.ofDma_state) hxfers

theorem Dev.DmaMoved.cause (h : d.DmaMoved c st bytes done descs) (b : Nat) (hlo : R.DMA_BYTES_LO_bytes.key 0 0 ≠ (dmaCauses.bit b).key 0 0)
    (hhi : R.DMA_BYTES_HI_bytes.key 0 0 ≠ (dmaCauses.bit b).key 0 0) (hdone : R.DMA_DESC_DONE_count.key 0 0 ≠ (dmaCauses.bit b).key 0 0)
    (hstate : R.DMA_STATUS_state.key 0 0 ≠ (dmaCauses.bit b).key 0 0) : (d.cause dmaCauses b c).DmaMoved c st bytes done descs :=
  h.congr (Dev.dma_cause ..) (Dev.rd_cause_at _ _ _ _ _ hlo) (Dev.rd_cause_at _ _ _ _ _ hhi) (Dev.rd_cause_at _ _ _ _ _ hdone)
    (Dev.rd_cause_at _ _ _ _ _ hstate) (congrArg Stp.xfers (Dev.stp_cause ..))

theorem Dev.DmaMoved.showCur (h : d.DmaMoved c st bytes done descs) (addr remain : Nat) : (d.showCur c addr remain).DmaMoved c st bytes done descs :=
  h.congr (Dev.dma_showCur ..) (Dev.rd_showCur _ _ _ _ _ (by decide) (by decide) (by decide))
    (Dev.rd_showCur _ _ _ _ _ (by decide) (by decide) (by decide)) (Dev.rd_showCur _ _ _ _ _ (by decide) (by decide) (by decide))
    (Dev.rd_showCur _ _ _ _ _ (by decide) (by decide) (by decide)) (congrArg Stp.xfers (Dev.stp_showCur ..))

theorem Dev.DmaMoved.writeDone (hc : c < 64) (h : d.DmaMoved c st bytes done descs) (x : DmaDesc) (code : Nat) :
    (d.writeDone c x code).DmaMoved c st bytes done descs :=
  h.farSame hc (Dev.writeDone_leaves ..).1 (Dev.writeDone_leaves ..).2 (Dev.xfers_writeDone ..)

theorem Dev.DmaMoved.onDma (h : d.DmaMoved c st bytes done descs) (f : DmaChan → DmaChan) (l : List DmaDesc)
    (hflight : (f (d.chanDma c)).flight = []) (hstopping : (f (d.chanDma c)).stopping = false) (hdescs : (f (d.chanDma c)).descs = l) :
    (d.onDma c f).DmaMoved c st bytes done l where
  flight := by rw [Dev.chanDma_onDma_self, hflight]
  stopping := by rw [Dev.chanDma_onDma_self, hstopping]
  descs := by rw [Dev.chanDma_onDma_self, hdescs]
  bytes := h.bytes
  done := h.done
  state := h.state
  xfers := h.xfers

theorem Dev.dmaPause_none (h : (d.chanDma c).stopping = false) : d.dmaPause c = d := by
  rw [Dev.dmaPause, h]
  rfl

end

/-- What a completed descriptor leaves before the next one is looked at: word 0x14, the count and the cause. -/
def Dev.dmaCounted (c : Nat) (x : DmaDesc) (d : Dev) : Dev :=
  let d := (d.writeDone c x 0).bump R.DMA_DESC_DONE_count c
  if x.irqFull then d.cause dmaCauses 1 c else d

section
variable {d : Dev} {c st bytes done : Nat} {y : DmaDesc} {descs : List DmaDesc}

theorem Dev.DmaMoved.counted (hc : c < 64) (h : d.DmaMoved c st bytes done descs) (x : DmaDesc) :
    (d.dmaCounted c x).DmaMoved c st bytes ((done + 1) % 2 ^ R.DMA_DESC_DONE_count.width) descs := by
  have hdone := h.writeDone hc x 0
  have hbumped : ((d.writeDone c x 0).bump R.DMA_DESC_DONE_count c).DmaMoved c st bytes ((done + 1) % 2 ^ R.DMA_DESC_DONE_count.width) descs :=
    { flight := by rw [Dev.chanDma_congr (Dev.dma_bump ..), hdone.flight]
      stopping := by rw [Dev.chanDma_congr (Dev.dma_bump ..), hdone.stopping]
      descs := by rw [Dev.chanDma_congr (Dev.dma_bump ..), hdone.descs]
      bytes := (Dev.rd64_congr_rd (Dev.rd_bump_at _ _ _ _ _ _ (by decide)) (Dev.rd_bump_at _ _ _ _ _ _ (by decide))).trans hdone.bytes
      done := (Dev.rd_bump_self ..).trans (by rw [hdone.done])
      state := (Dev.rd_bump_at _ _ _ _ _ _ (by decide)).trans hdone.state
      xfers := hdone.xfers }
  unfold Dev.dmaCounted
  dsimp only
  split
  · exact hbumped.cause 1 (by decide) (by decide) (by decide) (by decide)
  · exact hbumped

/-- The completed descriptor leaves the list. -/
theorem Dev.DmaMoved.dropped (h : d.DmaMoved c st bytes done descs) :
    (d.onDma c (fun h => { h with descs := h.descs.drop 1 })).DmaMoved c st bytes done (descs.drop 1) :=
  h.onDma _ _ h.flight h.stopping (by rw [h.descs])

/-- The channel's list has ended. -/
theorem Dev.DmaMoved.ended (h : d.DmaMoved c st bytes done descs) :
    (d.wr R.DMA_STATUS_state 4 c).DmaMoved c 4 bytes done descs where
  flight := by rw [Dev.chanDma_congr (Dev.wr_dma ..), h.flight]
  stopping := by rw [Dev.chanDma_congr (Dev.wr_dma ..), h.stopping]
  descs := by rw [Dev.chanDma_congr (Dev.wr_dma ..), h.descs]
  bytes := (Dev.rd64_congr_rd (Dev.rd_wr_at _ _ _ _ _ _ (by decide)) (Dev.rd_wr_at _ _ _ _ _ _ (by decide))).trans h.bytes
  done := (Dev.rd_wr_at _ _ _ _ _ _ (by decide)).trans h.done
  state := Dev.rd_wr_self ..
  xfers := h.xfers

/-- The last descriptor ends the channel. -/
theorem Dev.dmaComplete_last (hc : c < 64) (h : d.DmaMoved c st bytes done descs) (hlast : y.last = true) :
    (d.dmaComplete c y).DmaMoved c 4 bytes ((done + 1) % 2 ^ R.DMA_DESC_DONE_count.width) [] ∧
    (d.dmaComplete c y).on (dmaCauses.bit 2) c = true := by
  have hdropped := (h.counted hc y).dropped
  have hempty := (hdropped.onDma (fun h => { h with descs := [], stopping := false }) [] hdropped.flight rfl rfl).ended
  unfold Dev.dmaComplete
  rw [hlast]
  exact ⟨hempty.cause 2 (by decide) (by decide) (by decide) (by decide), Dev.cause_on ..⟩

/-- A channel with nothing in flight, and the bytes that it has moved. -/
structure Dev.DmaQuiet (d : Dev) (c bytes : Nat) : Prop where
  flight : (d.chanDma c).flight = []
  bytes : d.dmaBytes c = bytes
  xfers : d.stp.xfers = []

theorem Dev.DmaMoved.quiet (h : d.DmaMoved c st bytes done descs) : d.DmaQuiet c bytes := ⟨h.flight, h.bytes, h.xfers⟩

theorem Dev.DmaQuiet.dmaStop (hc : c < 64) (h : d.DmaQuiet c bytes) (code : Nat) (x : DmaDesc) : (d.dmaStop c code x).DmaQuiet c bytes := by
  obtain ⟨-, -, -, hflight, -, hbytes⟩ := Dev.dmaStop_stops hc code x d
  exact ⟨hflight, hbytes.trans h.bytes, (Dev.xfers_dmaStop ..).trans h.xfers⟩

theorem Dev.DmaQuiet.dmaSettle (hc : c < 64) (h : d.DmaQuiet c bytes) : (d.dmaSettle c).DmaQuiet c bytes := by
  unfold Dev.dmaSettle
  split
  · split
    · split
      · exact h.dmaStop hc _ _
      · exact h
    · exact h
  · split
    · exact h.dmaStop hc _ _
    · exact h

theorem Dev.DmaQuiet.dmaPause (h : d.DmaQuiet c bytes) : (d.dmaPause c).DmaQuiet c bytes := by
  unfold Dev.dmaPause
  split
  · refine ⟨?_, (Dev.rd64_congr_rd (Dev.rd_wr_at _ _ _ _ _ _ (by decide)) (Dev.rd_wr_at _ _ _ _ _ _ (by decide))).trans h.bytes, h.xfers⟩
    rw [Dev.chanDma_congr (Dev.wr_dma ..), Dev.chanDma_onDma_self]
    exact h.flight
  · exact h

theorem Dev.dmaComplete_quiet (hc : c < 64) (h : d.DmaMoved c st bytes done descs) : (d.dmaComplete c y).DmaQuiet c bytes := by
  by_cases hlast : y.last = true
  · exact (Dev.dmaComplete_last hc h hlast).1.quiet
  · have hdropped := (h.counted hc y).dropped
    unfold Dev.dmaComplete
    rw [if_neg hlast]
    refine Dev.DmaQuiet.dmaSettle hc ?_
    split
    · exact (hdropped.showCur _ _).quiet
    · exact (hdropped.showCur _ _).quiet

end

/-! ## The end of a burst (R331, R339) -/

/-- A burst's bytes have been issued, `n` of them counted: descriptor `y` stands for `x`, and the rest of the flight remains. -/
def Dev.dmaTallied (c n : Nat) (x y : DmaDesc) (rest : List Burst) (d : Dev) : Dev :=
  let d := d.onDma c (fun h => { h with flight := rest, descs := y :: h.descs.drop 1 })
  let d := d.wr64 R.DMA_BYTES_LO_bytes R.DMA_BYTES_HI_bytes ((d.rd64 R.DMA_BYTES_LO_bytes R.DMA_BYTES_HI_bytes c + n) % 2 ^ 64) c
  let d := d.showCur c x.addr (x.length - y.written)
  if y.half && !x.half && x.irqHalf then (if d.on R.DMA_CAUSE_half c then d.cause dmaCauses 4 c else d.cause dmaCauses 0 c) else d

/-- Where the end of a burst leaves its channel. -/
def Dev.dmaTurned (c n : Nat) (x y : DmaDesc) (rest : List Burst) (d : Dev) : Dev :=
  (if y.written = x.length then (d.dmaTallied c n x y rest).dmaComplete c y else d.dmaTallied c n x y rest).dmaPause c

theorem Dev.dmaTallied_moved {d : Dev} {c : Nat} {x : DmaDesc} (hdescs : (d.chanDma c).descs = [x]) (hstopping : (d.chanDma c).stopping = false)
    (hxfers : d.stp.xfers = []) (n : Nat) (y : DmaDesc) :
    (d.dmaTallied c n x y []).DmaMoved c (d.dmaState c) ((d.dmaBytes c + n) % 2 ^ 64) (d.rd R.DMA_DESC_DONE_count c) [y] := by
  unfold Dev.dmaTallied
  extract_lets d₁ d₂ d₃
  have h₁ : d₁.chanDma c = { d.chanDma c with flight := [], descs := [y] } := by
    unfold d₁
    rw [Dev.chanDma_onDma_self, hdescs]
    rfl
  have h₂ : d₂.DmaMoved c (d.dmaState c) ((d.dmaBytes c + n) % 2 ^ 64) (d.rd R.DMA_DESC_DONE_count c) [y] :=
    { flight := congrArg DmaChan.flight h₁
      stopping := (congrArg DmaChan.stopping h₁).trans hstopping
      descs := congrArg DmaChan.descs h₁
      bytes := (Dev.dmaBytes_wr64 ..).trans (Nat.mod_mod _ _)
      done := Dev.rd_dmaBytes_wr64 _ _ _ _ (by decide) (by decide)
      state := Dev.rd_dmaBytes_wr64 _ _ _ _ (by decide) (by decide)
      xfers := hxfers }
  have h₃ := h₂.showCur x.addr (x.length - y.written)
  split
  · split
    · exact h₃.cause 4 (by decide) (by decide) (by decide) (by decide)
    · exact h₃.cause 0 (by decide) (by decide) (by decide) (by decide)
  · exact h₃

/-- A descriptor of which `n` bytes more have been written. -/
def DmaDesc.moved (x : DmaDesc) (n : Nat) : DmaDesc := { x with written := x.written + n, half := x.length / 2 ≤ x.written + n }

theorem Dev.putBurst_host {c : Nat} {x : DmaDesc} (b : Burst) (data : List Byte) (d : Dev) (hspace : x.dstSpace = 0) :
    ∃ early e, d.putBurst c x b data = some ({ x with early := early }, e) ∧ e.dma = d.dma ∧ d.farSame e ∧ e.stp = d.stp := by
  unfold Dev.putBurst
  extract_lets unit bytes size n at_ whole x'
  rw [if_pos (show x'.dstSpace = 0 from hspace)]
  exact ⟨_, _, rfl, Dev.dma_hostWrite .., Dev.farSame_hostWrite _ _ _ _ _, Dev.stp_hostWrite ..⟩

/-- What the issue of a burst's bytes leaves: the channel, its far registers, and firmware's transfers. -/
theorem Dev.dmaBurstDone_issued {c : Nat} {x : DmaDesc} {b : Burst} {data : List Byte} {d : Dev} (hflight : (d.chanDma c).flight = [b])
    (hdescs : (d.chanDma c).descs = [x]) (hstate : d.dmaState c = 1) (hfailed : b.failed = false) (hdata : b.data = some data)
    (hspace : x.dstSpace = 0) (hissue : d.canIssue (d.dmaFn c) = true) :
    ∃ (e : Dev) (y : DmaDesc), d.dmaBurstDone c = e.dmaTurned c (if d.burstLost c x b then 0 else b.len) x y [] ∧
      e.dma = d.dma ∧ d.farSame e ∧ e.stp = d.stp ∧ y.written = x.written + b.len ∧ y.last = x.last := by
  obtain ⟨early, e, hput, hdma, hfar, hstp⟩ := d.putBurst_host (c := c) b data hspace
  unfold Dev.dmaBurstDone
  dsimp only
  rw [hflight, hdescs]
  dsimp only
  rw [hfailed, if_neg Bool.false_ne_true, hdata]
  dsimp only
  rw [if_neg (by simp [hstate, hissue])]
  cases d.burstLost c x b with
  | true => exact ⟨d, x.moved b.len, rfl, rfl, d.regsSame_refl, rfl, rfl, rfl⟩
  | false =>
    rw [if_neg Bool.false_ne_true, hput]
    exact ⟨e, DmaDesc.moved { x with early := early } b.len, rfl, hdma, hfar, hstp, rfl, rfl⟩

section
variable {c : Nat} {x : DmaDesc} {b : Burst} {data : List Byte} {s : State} (hrun : s.dev.phase = .running) (hruns : s.dev.dmaRuns c)
  (hxfers : s.dev.stp.xfers = []) (hflight : (s.dev.chanDma c).flight = [b]) (hdescs : (s.dev.chanDma c).descs = [x])
include hrun hruns hxfers hflight hdescs

theorem exec_dmaBurstComplete (hfailed : b.failed = false) (hdata : b.data = some data) (hspace : x.dstSpace = 0)
    (hissue : s.dev.canIssue (s.dev.dmaFn c) = true) :
    ∃ t, exec (.dmaBurstComplete c) s = .next t ∧ (t.dev.chanDma c).flight = [] ∧
      t.dev.dmaBytes c = (s.dev.dmaBytes c + (if s.dev.burstLost c x b then 0 else b.len)) % 2 ^ 64 ∧
      (x.written + b.len = x.length → x.last = true → t.dev.dmaState c = 4 ∧ (t.dev.chanDma c).descs = [] ∧ t.dev.on (dmaCauses.bit 2) c = true ∧
        t.dev.rd R.DMA_DESC_DONE_count c = (s.dev.rd R.DMA_DESC_DONE_count c + 1) % 2 ^ R.DMA_DESC_DONE_count.width) ∧
      (x.written + b.len < x.length → t.dev.dmaState c = 1) := by
  refine ⟨_, State.onRun_running (fun d => (d.dmaBurstDone c).serveXfer c) hrun, ?_⟩
  obtain ⟨hc, hstate, hstopping⟩ := hruns
  obtain ⟨e, y, hdone, hdma, hfar, hstp, hwritten, hlast⟩ := Dev.dmaBurstDone_issued hflight hdescs hstate hfailed hdata hspace hissue
  obtain ⟨n, hn⟩ : ∃ n, (if s.dev.burstLost c x b then 0 else b.len) = n := ⟨_, rfl⟩
  rw [hn] at hdone ⊢
  have hchan := Dev.chanDma_congr hdma c
  have hmoved := Dev.dmaTallied_moved (d := e) (c := c) (by rw [hchan, hdescs]) (by rw [hchan, hstopping]) (by rw [hstp, hxfers]) n y
  rw [Dev.dmaState, Dev.dmaBytes, Dev.rd_dma hc hfar Field.ofDma_state, Dev.rd_dma hc hfar Field.ofDma_done,
    Dev.rd64_congr_rd (Dev.rd_dma hc hfar Field.ofDma_bytesLo) (Dev.rd_dma hc hfar Field.ofDma_bytesHi)] at hmoved
  have hquiet : (e.dmaTurned c n x y []).DmaQuiet c ((s.dev.dmaBytes c + n) % 2 ^ 64) := by
    refine Dev.DmaQuiet.dmaPause ?_
    split
    · exact Dev.dmaComplete_quiet hc hmoved
    · exact hmoved.quiet
  have hserved : (s.dev.dmaBurstDone c).serveXfer c = e.dmaTurned c n x y [] := by
    rw [hdone]
    exact Dev.serveXfer_none c hquiet.xfers
  dsimp only
  rw [hserved]
  refine ⟨hquiet.flight, hquiet.bytes, fun hwhole hlastx => ?_, fun hpart => ?_⟩
  · obtain ⟨hended, hcause⟩ := Dev.dmaComplete_last hc hmoved (hlast.trans hlastx)
    rw [Dev.dmaTurned, if_pos (hwritten.trans hwhole), Dev.dmaPause_none hended.stopping]
    exact ⟨hended.state, hended.descs, hcause, hended.done⟩
  · rw [Dev.dmaTurned, if_neg (by omega), Dev.dmaPause_none hmoved.stopping]
    exact hmoved.state.trans hstate

end

/-- Settles O50: the channels, command by command. -/
theorem dmaChannels : Obligations.DmaChannels := by
  unfold Obligations.DmaChannels
  intro c mid s hrun hc
  refine ⟨fun hfree hmid hissue => exec_dmaStart hrun hc hfree hmid hissue, exec_dmaStart_refused mid hrun, exec_dmaStop_pauses mid hrun,
    exec_dmaResume mid hrun, exec_dmaResume_halted mid hrun, exec_dmaRequest mid hrun, exec_dmaRequest_full mid hrun,
    fun a b hfetching hfetched hdescs => ⟨?_, ?_, ?_⟩, fun x hruns hflight hdescs hsound hleft hspaced hissue hpaced => ?_,
    fun x b data hruns hxfers hflight hdescs => ⟨?_, ?_⟩⟩
  · exact exec_dmaDescriptorFetched_sound hrun hfetching hfetched hdescs
  · intro hsound hspace hrefused
    exact exec_dmaDescriptorFetched_stops hrun hc hfetching hfetched hdescs (Dev.dmaVerdict_refused hsound hspace hrefused) (by decide)
  · intro hbad
    exact exec_dmaDescriptorFetched_stops hrun hc hfetching hfetched hdescs (Dev.dmaVerdict_malformed hbad) (by decide)
  · obtain ⟨t, ht, b, hburst, ⟨haddr, hoff, hlen⟩, hmoved⟩ := exec_dmaBurstStart hrun hruns hflight hdescs hsound hleft hspaced hissue hpaced
    exact ⟨t, b, ht, hburst, haddr, hoff, hlen, by rw [hlen]; exact hmoved⟩
  · exact exec_dmaBurstComplete_failed hrun hruns hxfers hflight hdescs
  · exact exec_dmaBurstComplete hrun hruns hxfers hflight hdescs

end Sys2Proof.Machine
end

section
/-!
Inbound ESP jobs behind one another (R270, R274).
-/

namespace Sys2Proof.Machine

/-! ## Jobs that have started (R270, R274) -/

theorem insertKey_listed {α : Type} {k : Nat} {v : α} : ∀ {m : List (Nat × α)}, keysRise m = true → findKey k m = some v → insertKey k v m = m
  | [], _, h => by cases h
  | (j, w) :: m, hrise, h => by
    rw [keysRise_cons] at hrise
    obtain ⟨habove, hrise⟩ := hrise
    rw [findKey] at h
    rw [insertKey]
    split at h
    next hkey => rw [if_pos hkey, hkey, Option.some.inj h]
    next hkey =>
      have hbelow : ¬ k < j := by
        have := habove _ (NMap.mem_of_get? (m := ⟨m⟩) h)
        simp only at this
        omega
      rw [if_neg hkey, if_neg hbelow, insertKey_listed hrise h]

/-- A change that leaves the listed value leaves the table. -/
theorem NMap.modify_fixed {α : Type} {m : NMap α} {k : Nat} {f : α → α} (hwf : m.wf = true) (hf : ∀ v, m.get? k = some v → f v = v) :
    m.modify k f = m := by
  unfold NMap.modify
  cases hget : m.get? k with
  | none => rfl
  | some v =>
    dsimp only
    rw [hf v hget, NMap.set, insertKey_listed hwf hget]

/-- Where every job has started, none starts. -/
theorem Dev.startJobs_started {d : Dev} (hwf : d.items.wf = true) (h : ∀ p ∈ d.items.entries, p.2.jobCtx.isSome = true) : d.startJobs = d := by
  refine Dev.each_induct (fun e => e = d) _ _ _ rfl fun p e he => ?_
  subst he
  split
  next i hhead =>
    unfold Dev.onItem
    rw [NMap.modify_fixed hwf fun y hy => if_pos (h _ (NMap.mem_of_get? hy))]
  · rfl

theorem Dev.assignJobs_started {d : Dev} (hwf : d.items.wf = true) (h : ∀ p ∈ d.items.entries, p.2.jobCtx.isSome = true)
    (hphase : ∀ p ∈ d.items.entries, (d.cryAt p.2.cryPosition).phase = .inService) : d.assignJobs = d := by
  have hlost : (d.items.filter (fun _ it => it.stage == .crypto && it.job == 0 && (d.cryAt it.cryPosition).phase != .inService &&
      !(decide ((d.cryAt it.cryPosition).phase = .grace) && it.jobCtx.isSome))).keys = [] := by
    unfold NMap.filter NMap.keys
    rw [List.map_eq_nil_iff, List.filter_eq_nil_iff]
    intro p hp
    simp [hphase p hp]
  unfold Dev.assignJobs
  rw [hlost]
  exact Dev.startJobs_started hwf h

/-- Behind an inbound job that has not ended, the frames of its instance wait. -/
theorem Dev.leaveCrypto_waits {d : Dev} {m j : Nat} {x : Item} (hhead : (d.cryStage m).head? = some j) (hitem : d.item? j = some x) (hjob : x.job = 0)
    (fuel : Nat) : d.leaveCrypto m fuel = d := by
  cases fuel with
  | zero => rfl
  | succ n =>
    unfold Dev.leaveCrypto
    rw [hhead, Option.bind_some, hitem]
    dsimp only [Option.map_some]
    rw [hjob, if_neg (by simp), if_neg (by simp)]

/-! ## An inbound ESP job behind another of its port (R281, R282) -/

/-- Two inbound jobs of one instance run, `j` before `i`, at positions `q` and `p` in service. -/
structure Dev.TwoJobs (d : Dev) (i j p q : Nat) (it x : Item) (cfg : List Byte × List Byte) : Prop where
  before : j < i
  items : d.items = { entries := [(j, x), (i, it)] }
  stage : it.stage = .crypto
  firstStage : x.stage = .crypto
  source : it.source = x.source
  job : it.job = 0
  firstJob : x.job = 0
  position : it.cryPosition = p
  firstPosition : x.cryPosition = q
  apart : p ≠ q
  phase : (d.cryAt p).phase = .inService
  firstPhase : (d.cryAt q).phase = .inService
  started : it.jobCtx = some cfg
  firstStarted : x.jobCtx.isSome = true

theorem NMap.wf_one {α : Type} (j : Nat) (x : α) : (⟨[(j, x)]⟩ : NMap α).wf = true := by simp [NMap.wf, keysRise]

theorem NMap.wf_two {α : Type} {i j : Nat} (x y : α) (h : j < i) : (⟨[(j, x), (i, y)]⟩ : NMap α).wf = true := by simp [NMap.wf, keysRise, h]

theorem NMap.get?_two {α : Type} {i j : Nat} (x y : α) (h : j < i) :
    (⟨[(j, x), (i, y)]⟩ : NMap α).get? i = some y ∧ (⟨[(j, x), (i, y)]⟩ : NMap α).get? j = some x := by
  simp [NMap.get?, Sys2Proof.findKey, show i ≠ j by omega]

section
variable {d : Dev} {i j p q : Nat} {it x : Item} {cfg : List Byte × List Byte} (h : d.TwoJobs i j p q it x cfg)
include h

theorem Dev.TwoJobs.item : d.item? i = some it := by
  rw [Dev.item?, h.items]
  exact (NMap.get?_two x it h.before).1

theorem Dev.TwoJobs.head : d.cryHead p = some i := by
  unfold Dev.cryHead Dev.cryJobs
  rw [h.items]
  simp [NMap.filter, NMap.keys, h.stage, h.job, h.position, h.firstPosition, h.apart.symm, h.started]

theorem Dev.TwoJobs.assigned : d.assignJobs = d := by
  refine Dev.assignJobs_started ?_ (fun e he => ?_) (fun e he => ?_)
  · rw [h.items]
    exact NMap.wf_two x it h.before
  · rw [h.items] at he
    simp only [List.mem_cons, List.not_mem_nil, or_false] at he
    obtain rfl | rfl := he
    · exact h.firstStarted
    · rw [h.started]
      rfl
  · rw [h.items] at he
    simp only [List.mem_cons, List.not_mem_nil, or_false] at he
    obtain rfl | rfl := he
    · rw [h.firstPosition, h.firstPhase]
    · rw [h.position, h.phase]

end

/-- The outcome of the job of item `i`: the stripped frame stays, a refused one leaves, counted. -/
def Dev.espSettled (i : Nat) (it : Item) (v : Dev) : EspEnd × Dev → Dev
  | (.passed f, d) => d.onItem i (fun x => { x with
      bytes := f
      job := 1
      espMark := if v.ctxBit it.sa 13 then some (bits (v.ctxAt it.sa 0 4) 14 14) else none })
  | (.refused kind, d) => ((d.countEspRefusal kind).countRefusal it.source 0).dropItem i

theorem Dev.espJobDone_settles {d : Dev} {i j p q : Nat} {it x : Item} {cfg : List Byte × List Byte} {ip : Ip} (h : d.TwoJobs i j p q it x cfg)
    (hip : it.parse.ip = some ip) :
    d.espJobDone i =
      (let e := d.cryCount p it.bytes.length
       let v := e.jobView it.sa cfg
       let g := Dev.espSettled i it v (Dev.espJob it.sa ip it.bytes v e)
       (g.leaveCrypto it.source (2 * (g.cryStage it.source).length)).startJobs) := by
  unfold Dev.espJobDone
  rw [h.assigned]
  dsimp only
  rw [h.item]
  dsimp only
  rw [hip, h.started]
  dsimp only
  rw [if_neg (by simp [h.stage, h.job, h.position, h.phase, h.head]), h.position]
  rfl

/-- With the earlier job still running, nothing else of the instance moves. -/
theorem Dev.leaveCrypto_behind {g : Dev} {j m : Nat} {x : Item} {l : List (Nat × Item)} (hitems : g.items = { entries := (j, x) :: l })
    (hwf : g.items.wf = true) (hstarted : ∀ e ∈ g.items.entries, e.2.jobCtx.isSome = true) (hstage : x.stage = .crypto) (hsource : x.source = m)
    (hjob : x.job = 0) (fuel : Nat) : (g.leaveCrypto m fuel).startJobs = g := by
  rw [Dev.leaveCrypto_waits (j := j) (x := x) ?_ ?_ hjob, Dev.startJobs_started hwf hstarted]
  · unfold Dev.cryStage
    rw [hitems]
    simp [NMap.filter, NMap.keys, hstage, hsource]
  · rw [Dev.item?, hitems]
    simp [NMap.get?, Sys2Proof.findKey]

end Sys2Proof.Machine
end

section
/-!
How an inbound ESP job ends (R281, R282).
-/

namespace Sys2Proof.Machine

/-! ## How an inbound ESP job ends (R281, R282) -/

/-- An item whose frame has been stripped of ESP. -/
def Item.opened (it : Item) (v : Dev) (f : Frame) : Item :=
  { it with
    bytes := f
    job := 1
    espMark := if v.ctxBit it.sa 13 then some (bits (v.ctxAt it.sa 0 4) 14 14) else none }

section
variable {i j : Nat} {it x : Item} {v : Dev} {r : EspEnd × Dev} (hlt : j < i) (hitems : r.2.items = { entries := [(j, x), (i, it)] })
include hlt hitems

theorem Dev.items_espSettled_passed {f : Frame} (hr : r.1 = .passed f) :
    (Dev.espSettled i it v r).items = { entries := [(j, x), (i, it.opened v f)] } := by
  obtain ⟨_, e⟩ := r
  subst hr
  unfold Dev.espSettled Dev.onItem NMap.modify
  dsimp only at hitems ⊢
  rw [hitems, (NMap.get?_two x it hlt).1]
  simp [NMap.set, insertKey, show i ≠ j by omega, show ¬ i < j by omega]
  rfl

theorem Dev.items_espSettled_refused {k : Nat} (hr : r.1 = .refused k) : (Dev.espSettled i it v r).items = { entries := [(j, x)] } := by
  obtain ⟨_, e⟩ := r
  subst hr
  have hsame : ((e.countEspRefusal k).countRefusal it.source 0).items = e.items :=
    (Dev.items_of_besides (Dev.countRefusal_besides it.source 0 _ (List.Subset.refl _))).trans
      (Dev.items_of_besides (Dev.countEspRefusal_besides k _ (List.Subset.refl _)))
  unfold Dev.espSettled Dev.dropItem NMap.erase
  dsimp only at hitems ⊢
  rw [hsame, hitems]
  simp [eraseKey, show j ≠ i by omega]

end

/-- The job's count of malformed packets (R281). -/
theorem Dev.rd_malformed_espSettled {i : Nat} {it : Item} {v : Dev} {r : EspEnd × Dev} (hr : r.1 = .refused 2) :
    (Dev.espSettled i it v r).rd R.CRY_RX_MALFORMED_count =
      (r.2.rd R.CRY_RX_MALFORMED_count + 1) % 2 ^ R.CRY_RX_MALFORMED_count.width := by
  obtain ⟨_, e⟩ := r
  subst hr
  unfold Dev.espSettled Dev.dropItem Dev.countRefusal Dev.countMac
  dsimp only
  rw [if_neg (by decide)]
  refine (Dev.rd_congr (e := (e.countEspRefusal 2).bump R.PPL_REFUSED_count 0 (4 * 0)) rfl _ _ _).trans ?_
  rw [Dev.bump, Dev.rd_wr_ne _ _ _ _ _ _ _ _ (by decide), Dev.countEspRefusal, if_neg (by decide), if_neg (by decide)]
  exact Dev.rd_bump_self ..

theorem Dev.items_espJob (c n p : Nat) (ip : Ip) (f : Frame) (v d : Dev) : (Dev.espJob c ip f v (d.cryCount p n)).2.items = d.items :=
  (Dev.items_of_besides (Dev.espJob_besides c ip f v _ (List.Subset.refl _))).trans
    (Dev.items_of_besides (Dev.cryCount_besides p n d (List.Subset.refl _)))

theorem Dev.rd_malformed_espJob (c n p : Nat) (ip : Ip) (f : Frame) (v d : Dev) :
    (Dev.espJob c ip f v (d.cryCount p n)).2.rd R.CRY_RX_MALFORMED_count = d.rd R.CRY_RX_MALFORMED_count := by
  rw [Dev.rd_congr (Dev.regs_of_besides (Dev.espJob_besides c ip f v _ (List.Subset.refl _)))]
  unfold Dev.cryCount
  refine Dev.rd_wr64_ne _ _ _ _ _ _ _ _ _ ?_ ?_
  · simp only [Field.key, R.CRY_RX_MALFORMED_count, R.CRY_INST_BYTES_LO_bytes]
    omega
  · simp only [Field.key, R.CRY_RX_MALFORMED_count, R.CRY_INST_BYTES_HI_bytes]
    omega

theorem Dev.espJob_other {c : Nat} (ip : Ip) (f : Frame) {v : Dev} (d : Dev) (h : v.ctxType c ≠ 2) : (Dev.espJob c ip f v d).1 = .refused 2 := by
  unfold Dev.espJob
  dsimp only
  rw [if_pos (.inl h)]

section
variable {d : Dev} {i j p q : Nat} {it x : Item} {cfg : List Byte × List Byte} {ip : Ip} (h : d.TwoJobs i j p q it x cfg)
  (hip : it.parse.ip = some ip)
include h hip

/-- The end of the job as the device finds it: the frame of the earlier job holds back what passed. -/
theorem Dev.espJobDone_eq :
    d.espJobDone i = Dev.espSettled i it ((d.cryCount p it.bytes.length).jobView it.sa cfg)
      (Dev.espJob it.sa ip it.bytes ((d.cryCount p it.bytes.length).jobView it.sa cfg) (d.cryCount p it.bytes.length)) := by
  rw [Dev.espJobDone_settles h hip]
  dsimp only
  obtain ⟨v, hv⟩ : ∃ v, (d.cryCount p it.bytes.length).jobView it.sa cfg = v := ⟨_, rfl⟩
  have hitems := (Dev.items_espJob it.sa it.bytes.length p ip it.bytes v d).trans h.items
  rw [hv]
  obtain ⟨r, hr⟩ : ∃ r, Dev.espJob it.sa ip it.bytes v (d.cryCount p it.bytes.length) = r := ⟨_, rfl⟩
  rw [hr] at hitems ⊢
  cases hend : r.1 with
  | passed f =>
    have hleft := Dev.items_espSettled_passed (v := v) h.before hitems hend
    refine Dev.leaveCrypto_behind hleft ?_ (fun e he => ?_) h.firstStage h.source.symm h.firstJob _
    · rw [hleft]
      exact NMap.wf_two _ _ h.before
    · rw [hleft] at he
      simp only [List.mem_cons, List.not_mem_nil, or_false] at he
      obtain rfl | rfl := he
      · exact h.firstStarted
      · rw [Item.opened, h.started]
        rfl
  | refused k =>
    have hleft := Dev.items_espSettled_refused (v := v) h.before hitems hend
    refine Dev.leaveCrypto_behind hleft ?_ (fun e he => ?_) h.firstStage h.source.symm h.firstJob _
    · rw [hleft]
      exact NMap.wf_one _ _
    · rw [hleft] at he
      simp only [List.mem_cons, List.not_mem_nil, or_false] at he
      rw [he]
      exact h.firstStarted

end

/-- The position stays in service, so nothing else of it is answered. -/
theorem exec_inboundEspJobDone {i j p q : Nat} {it x : Item} {cfg : List Byte × List Byte} {s : State} (hrun : s.dev.phase = .running)
    (h : s.dev.TwoJobs i j p q it x cfg) :
    exec (.inboundEspJobDone i) s = .next { s with dev := s.dev.espJobDone i } := by
  refine (State.onRun_running (fun d =>
    let p := ((d.item? i).map Item.cryPosition).getD 0
    let d := d.espJobDone i
    if (d.cryAt p).phase = .grace ∧ d.cryBusy p = false then (d.leaveCry p).2.answerUnit false 0x50 p 0 else d) hrun).trans ?_
  have hphase : ((s.dev.espJobDone i).cryAt p).phase = .inService := by
    rw [Dev.cryAt, Dev.cryPos_of_besides (Dev.espJobDone_besides i s.dev (List.Subset.refl _))]
    exact h.phase
  dsimp only
  rw [h.item, Option.map_some, Option.getD_some, h.position, if_neg (by simp [hphase])]

/-- Settles O33: the job's frame is stripped or dropped, and the frame before it holds it back. -/
theorem espJobs : Obligations.EspJobs := by
  unfold Obligations.EspJobs
  intro i j p q it x ip cfg s hrun hlt hitems hstage hstagex hsource hjob hjobx hp hq _ _ hne _ _ hphase hphaseq hip hcfg hcfgx
  have h : s.dev.TwoJobs i j p q it x cfg :=
    ⟨hlt, hitems, hstage, hstagex, hsource, hjob, hjobx, hp, hq, hne, hphase, hphaseq, hcfg, hcfgx⟩
  dsimp only
  refine ⟨_, exec_inboundEspJobDone hrun h, ?_⟩
  dsimp only
  rw [Dev.espJobDone_eq h hip]
  have hsame := fun v => (Dev.items_espJob it.sa it.bytes.length p ip it.bytes v s.dev).trans hitems
  have hcount := fun v => Dev.rd_malformed_espJob it.sa it.bytes.length p ip it.bytes v s.dev
  obtain ⟨v, hv⟩ : ∃ v, (s.dev.cryCount p it.bytes.length).jobView it.sa cfg = v := ⟨_, rfl⟩
  rw [hv]
  have hother := fun hv => Dev.espJob_other ip it.bytes (c := it.sa) (v := v) (s.dev.cryCount p it.bytes.length) hv
  specialize hsame v
  specialize hcount v
  obtain ⟨r, hr⟩ : ∃ r, Dev.espJob it.sa ip it.bytes v (s.dev.cryCount p it.bytes.length) = r := ⟨_, rfl⟩
  rw [hr] at hsame hcount hother ⊢
  have hgone (k : Nat) (hk : r.1 = .refused k) : (Dev.espSettled i it v r).item? i = none := by
    rw [Dev.item?, Dev.items_espSettled_refused hlt hsame hk]
    simp [NMap.get?, Sys2Proof.findKey, show i ≠ j by omega]
  refine ⟨?_, fun f hf => ?_, fun k hk => ⟨hgone k hk, ?_⟩, fun htype => hgone 2 (hother htype)⟩
  · cases hend : r.1 with
    | passed f =>
      rw [Dev.item?, Dev.items_espSettled_passed hlt hsame hend]
      exact (NMap.get?_two _ _ hlt).2
    | refused k =>
      rw [Dev.item?, Dev.items_espSettled_refused hlt hsame hend]
      simp [NMap.get?, Sys2Proof.findKey]
  · rw [Dev.item?, Dev.items_espSettled_passed hlt hsame hf]
    exact (NMap.get?_two _ _ hlt).1
  · rintro rfl
    rw [Dev.rd_malformed_espSettled hk, hcount]

end Sys2Proof.Machine
end

section
/-!
The sequence of the last record (R445).
-/

namespace Sys2Proof.Machine

/-! ## The sequence of the last record (R445) -/

/-- The key of FLT_LAST_SEQ. -/
abbrev seqKey (k : Nat) : Prop := k = R.FLT_LAST_SEQ_seq.key 0 0

/-- Only FLT_LAST_SEQ itself is under its key, among the registers of unit types below 0x92 that lie in their windows. -/
theorem not_seqKey_below {f : Field} {i a : Nat} (hunit : f.unit < 0x92) (hi : i < 65536) (hoff : f.off + a < 2 ^ 25) (hlsb : f.lsb < 32) :
    ¬ seqKey (f.key i a) := by
  simp only [seqKey, Field.key, R.FLT_LAST_SEQ_seq]
  omega

theorem not_seqKey_logWord (s w : Nat) : ¬ seqKey (R.FLT_RECORD_data.key 0 (32 * s + 4 * w)) := by
  simp only [seqKey, Field.key, R.FLT_LAST_SEQ_seq, R.FLT_RECORD_data]
  omega

section
variable {d e : Dev}

theorem Dev.regsSame.seq (h : d.regsSame seqKey e) : e.rd R.FLT_LAST_SEQ_seq = d.rd R.FLT_LAST_SEQ_seq := h.rd rfl

theorem Dev.regsSame.seqLogWord (h : d.regsSame seqKey e) (s w v : Nat) : d.regsSame seqKey (e.setLogWord s w v) :=
  h.wr _ _ _ _ (not_seqKey_logWord s w)

theorem Dev.regsSame.seqRefreshLog (h : d.regsSame seqKey e) : d.regsSame seqKey e.refreshLog :=
  ((h.wr _ _ _ _ (by decide)).wr _ _ _ _ (by decide)).wr _ _ _ _ (by decide)

theorem Dev.regsSame.seqCause (h : d.regsSame seqKey e) {b : Nat} (hb : b < 10) : d.regsSame seqKey (e.cause fltCauses b) := by
  refine h.cause _ _ _ ?_
  simp only [seqKey, Causes.bit, fltCauses, Field.key, R.FLT_LAST_SEQ_seq]
  omega

/-- The answer of a unit to a fault changes the record and its cause, not the sequence. -/
theorem Dev.seq_finishRecord (seq h : Nat) (d : Dev) : d.regsSame seqKey (d.finishRecord seq h) := by
  unfold Dev.finishRecord
  extract_lets under d₁ d₂
  have h₁ : d.regsSame seqKey d₁ := by
    unfold d₁
    cases under with
    | some t => exact d.regsSame_refl.seqLogWord _ _ _
    | none => exact d.regsSame_refl
  have h₂ : d.regsSame seqKey d₂ := by
    unfold d₂ Dev.handleSeq
    split
    · exact h₁.seqLogWord _ _ _
    · exact h₁
  split
  · exact h₂.seqCause (by decide)
  · exact h₂

/-- A new record takes the next sequence. -/
theorem Dev.seq_newRecord (x : Err) (d : Dev) : (d.newRecord x).rd R.FLT_LAST_SEQ_seq = d.nextLogSeq % 2 ^ 32 := by
  unfold Dev.newRecord
  extract_lets seq e₀ e₁ under related
  have h₀ : e₀.rd R.FLT_LAST_SEQ_seq = d.nextLogSeq % 2 ^ 32 := Dev.rd_wr_self ..
  refine Eq.trans (Dev.regsSame.seq (d := e₀) ?_) h₀
  have hsame := e₀.regsSame_refl (P := seqKey)
  split
  · refine Dev.regsSame.seqCause (Dev.regsSame.wr ?_ _ _ _ _ (by decide)) (by decide)
    unfold e₁
    split
    · exact hsame.wr _ _ _ _ (by decide)
    · exact hsame.wr _ _ _ _ (by decide)
  · extract_lets e₂ e₃ e₄ e₅ e₆ e₇ e₈ e₉ e₁₀
    have h₉ : e₀.regsSame seqKey e₉ :=
      (((((((hsame.seqLogWord _ _ _).seqLogWord _ _ _).seqLogWord _ _ _).seqLogWord _ _ _).seqLogWord _ _ _).seqLogWord _ _ _).seqLogWord
        _ _ _).seqLogWord _ _ _ |>.seqRefreshLog
    clear_value e₉
    have h₁₀ : e₀.regsSame seqKey e₁₀ := by
      show e₀.regsSame seqKey (if _ then _ else _)
      split
      · exact h₉.seqCause (by decide)
      · split
        · exact h₉.seqCause (by decide)
        · exact h₉.seqCause (by decide)
    split
    · exact h₁₀.seqCause (by decide)
    · exact h₁₀

/-- An error that is not a corrected one is recorded under the next sequence. -/
theorem Dev.seq_recordSeq {x : Err} {d : Dev} (hphase : d.phase ≠ .faultStop) (hsev : x.severity ≠ 0) :
    (d.recordSeq x).2.rd R.FLT_LAST_SEQ_seq = d.nextLogSeq % 2 ^ 32 := by
  rw [Dev.recordSeq]
  dsimp only
  rw [Dev.record_of_not_corrected d hphase hsev, Dev.seq_newRecord]

/-- What a state shows once an error has been recorded, with nothing else that writes the sequence (R445). -/
theorem recorded_of_seq {s t : State} (h : t.dev.rd R.FLT_LAST_SEQ_seq = s.dev.nextLogSeq % 2 ^ 32) : recorded s t := by
  rw [recorded, h, Dev.nextLogSeq]
  split
  · rfl
  · rfl

end

end Sys2Proof.Machine
end

section
/-!
Crypto instances that fault, Figures that are full (R157, R272).
-/

namespace Sys2Proof.Machine

/-! ## A crypto instance that faults (R272) -/

/-- The key of a register of a unit type below the fault log's. -/
theorem fltBase_above {f : Field} {i a : Nat} (hunit : f.unit < 0x92) (hi : i < 65536) (hoff : f.off + a < 2 ^ 25) (hlsb : f.lsb < 32) :
    f.key i a < fltBase := by
  simp only [Field.key, fltBase]
  omega

theorem Dev.regsSame_finishRecord (seq h : Nat) (d : Dev) : d.regsSame (· < fltBase) (d.finishRecord seq h) := by
  unfold Dev.finishRecord
  extract_lets under d₁ d₂
  have h₁ : d.regsSame (· < fltBase) d₁ := by
    unfold d₁
    cases under with
    | some t => exact d.regsSame_refl.setLogWord _ _ _
    | none => exact d.regsSame_refl
  have h₂ : d.regsSame (· < fltBase) d₂ := by
    unfold d₂ Dev.handleSeq
    split
    · exact h₁.setLogWord _ _ _
    · exact h₁
  split
  · exact h₂.fltCause _
  · exact h₂

theorem Dev.regs_cardChanged (es : List Nat) (d : Dev) : (d.cardChanged es).regs = d.regs := by
  unfold Dev.cardChanged
  split
  · rfl
  · exact Dev.raise_regs ..

theorem Dev.cryPos_cardChanged (es : List Nat) (d : Dev) : (d.cardChanged es).cryPos = d.cryPos :=
  Dev.cryPos_of_besides (Dev.cardChanged_besides es d (List.Subset.refl _))

theorem Dev.items_cardChanged (es : List Nat) (d : Dev) : (d.cardChanged es).items = d.items :=
  Dev.items_of_besides (Dev.cardChanged_besides es d (List.Subset.refl _))

theorem Dev.cryAt_congr {d e : Dev} (h : e.cryPos = d.cryPos) (p : Nat) : e.cryAt p = d.cryAt p := by rw [Dev.cryAt, Dev.cryAt, h]

theorem Dev.cryAt_putCry_self (p : Nat) (x : Slot) (d : Dev) : (d.putCry p x).cryAt p = x := NMap.getD_set_self ..

theorem Dev.cryAt_putCry_ne {p q : Nat} (x : Slot) (d : Dev) (h : q ≠ p) : (d.putCry p x).cryAt q = d.cryAt q := NMap.getD_set_ne _ _ _ h

theorem Dev.fitCry_congr {d e : Dev} (h : e.cryPos = d.cryPos) : e.fitCry = d.fitCry := by
  unfold Dev.fitCry
  simp only [Dev.cryAt_congr h]

theorem Dev.fitCry_reserve {d : Dev} {r : Nat} (h : d.fitCry = some r) : r = 46 ∨ r = 47 := by
  have := List.mem_of_find?_eq_some h
  simpa using this

/-- The instance's fault stands recorded, and its cause: what leaves the position then starts from. -/
def Dev.cryFaulted (p code : Nat) (d : Dev) : Nat × Dev := (d.cause cryInstCauses 1 p).recordSeq (d.cryErr p code)

theorem Dev.cryFaulted_besides (p code : Nat) (d : Dev) :
    (d.cryFaulted p code).2.besides [.routes, .retained, .registers, .output] = d.besides [.routes, .retained, .registers, .output] :=
  (Dev.record_besides _ _ (by decide)).trans (Dev.cause_besides _ _ _ _ (by decide))

theorem not_seqKey_cryInst {p : Nat} (hp : p < 46) : ¬ seqKey ((cryInstCauses.bit 1).key p 0) :=
  not_seqKey_below (by decide) (by omega) (by decide) (by decide)

theorem Dev.seq_cryFaulted {p : Nat} (hp : p < 46) (code : Nat) {d : Dev} (hrun : d.phase = .running) :
    (d.cryFaulted p code).2.rd R.FLT_LAST_SEQ_seq = d.nextLogSeq % 2 ^ 32 := by
  have hcaused : d.regsSame seqKey (d.cause cryInstCauses 1 p) := d.regsSame_refl.cause _ _ _ (not_seqKey_cryInst hp)
  have hphase : (d.cause cryInstCauses 1 p).phase ≠ .faultStop := by
    rw [Dev.cause_phase, hrun]
    decide
  refine (Dev.seq_recordSeq hphase ?_).trans ?_
  · exact Nat.succ_ne_zero 1
  · rw [Dev.nextLogSeq, Dev.nextLogSeq, hcaused.seq]

theorem Dev.on_cryFaulted {p : Nat} (hp : p < 46) (code : Nat) (d : Dev) : (d.cryFaulted p code).2.on (cryInstCauses.bit 1) p = true := by
  rw [Dev.on]
  refine (congrArg (· != 0) (Dev.rd_record _ _ _ _ _ (fltBase_above (by decide) (by omega) (by decide) (by decide)))).trans ?_
  exact Dev.cause_on ..

section
variable {p : Nat} {s : State} (hrun : s.dev.phase = .running) (hp : p < 46) (hpart : s.dev.hasCry p = true)
  (hphase : (s.dev.cryAt p).phase = .inService)
include hrun hp hpart hphase

theorem exec_cryptoInstanceFault :
    exec (.cryptoInstanceFault p) s =
      .next { s with dev :=
        let x := s.dev.cryFaulted p 3
        let y := x.2.leaveCry p
        y.2.finishRecord x.1 (if y.1 then 3 else 4) } := by
  refine (State.onLinks_answering (Dev.cryFault p 3) (.inl hrun)).trans ?_
  rw [Dev.cryFault, hpart, if_neg (by decide)]
  dsimp only
  rw [if_pos ⟨hp, .inl hphase⟩]
  rfl

theorem exec_cryptoInstanceFault_taken {r : Nat} (hfit : s.dev.fitCry = some r) :
    ∃ t, exec (.cryptoInstanceFault p) s = .next t ∧ t.dev.cryAt p = { site := (s.dev.cryAt r).site } ∧
      t.dev.cryAt r = { site := (s.dev.cryAt p).site, phase := .out } ∧ t.dev.on (cryInstCauses.bit 1) p = true ∧ recorded s t ∧
      t.dev.items = s.dev.items := by
  refine ⟨_, exec_cryptoInstanceFault hrun hp hpart hphase, ?_⟩
  dsimp only
  have hbesides := Dev.cryFaulted_besides p 3 s.dev
  have hcry := Dev.cryPos_of_besides hbesides
  have hitems := Dev.items_of_besides hbesides
  have hseq := Dev.seq_cryFaulted hp 3 hrun
  have hon := Dev.on_cryFaulted hp 3 s.dev
  obtain ⟨x, hx⟩ : ∃ x, s.dev.cryFaulted p 3 = x := ⟨_, rfl⟩
  obtain ⟨n, e⟩ := x
  rw [hx] at hcry hitems hseq hon ⊢
  dsimp only at hcry hitems hseq hon ⊢
  have hne : r ≠ p := by
    have := Dev.fitCry_reserve hfit
    omega
  have hleft : e.leaveCry p = (true, ((e.putCry p { site := (e.cryAt r).site }).putCry r { site := (e.cryAt p).site, phase := .out }).cardChanged
      [cryEntry p, cryEntry r]) := by
    unfold Dev.leaveCry
    dsimp only
    rw [Dev.fitCry_congr hcry, hfit]
  obtain ⟨g, hg⟩ : ∃ g, (e.putCry p { site := (e.cryAt r).site }).putCry r { site := (e.cryAt p).site, phase := .out } = g := ⟨_, rfl⟩
  rw [hg] at hleft
  rw [hleft]
  have hfinish := (g.cardChanged [cryEntry p, cryEntry r]).finishRecord_besides n 3 (List.Subset.refl _)
  have hpos : ((g.cardChanged [cryEntry p, cryEntry r]).finishRecord n 3).cryPos = g.cryPos :=
    (Dev.cryPos_of_besides hfinish).trans (Dev.cryPos_cardChanged ..)
  have hregs : (g.cardChanged [cryEntry p, cryEntry r]).regs = e.regs := (Dev.regs_cardChanged ..).trans (by rw [← hg]; rfl)
  refine ⟨?_, ?_, ?_, recorded_of_seq ?_, ?_⟩
  · rw [if_pos rfl, Dev.cryAt_congr hpos, ← hg, Dev.cryAt_putCry_ne _ _ hne.symm, Dev.cryAt_putCry_self, Dev.cryAt_congr hcry]
  · rw [if_pos rfl, Dev.cryAt_congr hpos, ← hg, Dev.cryAt_putCry_self, Dev.cryAt_congr hcry]
  · rw [if_pos rfl, (Dev.regsSame_finishRecord _ _ _).on (fltBase_above (by decide) (by omega) (by decide) (by decide)), Dev.on, Dev.rd_congr hregs]
    exact hon
  · rw [if_pos rfl]
    exact (Dev.seq_finishRecord _ _ _).seq.trans ((Dev.rd_congr hregs _ _ _).trans hseq)
  · rw [if_pos rfl, Dev.items_of_besides hfinish, Dev.items_cardChanged, ← hitems, ← hg]
    rfl

theorem exec_cryptoInstanceFault_vacant (hfit : s.dev.fitCry = none) :
    ∃ t, exec (.cryptoInstanceFault p) s = .next t ∧ t.dev.cryAt p = { s.dev.cryAt p with phase := .out } ∧
      ∀ q, q ≠ p → t.dev.cryAt q = s.dev.cryAt q := by
  refine ⟨_, exec_cryptoInstanceFault hrun hp hpart hphase, ?_⟩
  dsimp only
  have hcry := Dev.cryPos_of_besides (Dev.cryFaulted_besides p 3 s.dev)
  obtain ⟨x, hx⟩ : ∃ x, s.dev.cryFaulted p 3 = x := ⟨_, rfl⟩
  obtain ⟨n, e⟩ := x
  rw [hx] at hcry ⊢
  dsimp only at hcry ⊢
  have hleft : e.leaveCry p = (false, ((e.putCry p { e.cryAt p with phase := .out }).cardChanged [cryEntry p]).assignJobs) := by
    unfold Dev.leaveCry
    dsimp only
    rw [Dev.fitCry_congr hcry, hfit]
  obtain ⟨g, hg⟩ : ∃ g, e.putCry p { e.cryAt p with phase := .out } = g := ⟨_, rfl⟩
  rw [hg] at hleft
  rw [hleft]
  have hpos : (((g.cardChanged [cryEntry p]).assignJobs).finishRecord n 4).cryPos = g.cryPos :=
    (Dev.cryPos_of_besides (Dev.finishRecord_besides _ _ _ (List.Subset.refl _))).trans
      ((Dev.cryPos_of_besides (Dev.assignJobs_besides _ (List.Subset.refl _))).trans (Dev.cryPos_cardChanged ..))
  refine ⟨?_, fun q hq => ?_⟩
  · rw [if_neg Bool.false_ne_true, Dev.cryAt_congr hpos, ← hg, Dev.cryAt_putCry_self, Dev.cryAt_congr hcry]
  · rw [if_neg Bool.false_ne_true, Dev.cryAt_congr hpos, ← hg, Dev.cryAt_putCry_ne _ _ hq, Dev.cryAt_congr hcry]

end

/-! ## A Figure that is full (R157) -/

theorem exec_figureFullPersist {f : Nat} {s : State} (hrun : s.dev.phase = .running) (hsome : s.dev.figurePositions f ≠ [])
    (hfull : ∀ p ∈ s.dev.figurePositions f, 512 ≤ s.dev.occupancy p) :
    ∃ t, exec (.figureFullPersist f) s = .next t ∧ t.dev.on (lgrCauses.bit 6) = true ∧ t.dev.items = s.dev.items := by
  have hexec : exec (.figureFullPersist f) s = .next { s with dev := s.dev.cause lgrCauses 6 } := by
    rw [show exec (.figureFullPersist f) s = execFigureFullPersist f s from rfl, execFigureFullPersist, State.onRun_running _ hrun, if_pos]
    rw [Bool.and_eq_true, Bool.not_eq_true', List.isEmpty_eq_false_iff, List.all_eq_true]
    exact ⟨hsome, fun p hp => decide_eq_true (hfull p hp)⟩
  exact ⟨_, hexec, Dev.cause_on .., Dev.items_of_besides (Dev.cause_besides _ _ _ _ (List.Subset.refl _))⟩

theorem exec_figureFullPersist_open {f p : Nat} {s : State} (hrun : s.dev.phase = .running) (hp : p ∈ s.dev.figurePositions f)
    (hopen : s.dev.occupancy p < 512) : exec (.figureFullPersist f) s = .next s := by
  rw [show exec (.figureFullPersist f) s = execFigureFullPersist f s from rfl, execFigureFullPersist, State.onRun_running _ hrun, if_neg]
  rw [Bool.and_eq_true, List.all_eq_true]
  rintro ⟨-, hfull⟩
  have := of_decide_eq_true (hfull p hp)
  exact absurd hopen (by omega)

end Sys2Proof.Machine
end

section
/-!
The end of a replay (R166).
-/

namespace Sys2Proof.Machine

/-! ## The end of a replay (R166) -/

/-- The stall of a replay is shown, and its greatest value. -/
def Dev.stallShown (stall : Nat) (d : Dev) : Dev :=
  (d.wr R.LGR_LAST_STALL_stall_ns (min stall 0xFFFFFF)).wr R.LGR_STALL_MAX_stall_ns (max (min stall 0xFFFFFF) (d.rd R.LGR_STALL_MAX_stall_ns))

/-- The stall of the last replay is shown, and its cause where it was too long. -/
def Dev.stalled (stall : Nat) (d : Dev) : Dev :=
  if d.rd R.LGR_STALL_LIMIT_stall_limit < stall then d.cause lgrCauses 4 else d

theorem Dev.rd_stallShown (stall : Nat) (d : Dev) :
    (d.stallShown stall).rd R.LGR_LAST_STALL_stall_ns = min stall 0xFFFFFF ∧
    (d.stallShown stall).rd R.LGR_STALL_MAX_stall_ns =
      max (min stall 0xFFFFFF) (d.rd R.LGR_STALL_MAX_stall_ns) % 2 ^ R.LGR_STALL_MAX_stall_ns.width ∧
    (d.stallShown stall).rd R.LGR_STALL_LIMIT_stall_limit = d.rd R.LGR_STALL_LIMIT_stall_limit := by
  unfold Dev.stallShown
  refine ⟨?_, Dev.rd_wr_self .., ?_⟩
  · rw [Dev.rd_wr_at _ _ _ _ _ _ (by decide), Dev.rd_wr_self]
    exact Nat.mod_eq_of_lt (show min stall 0xFFFFFF < 2 ^ 24 by omega)
  · rw [Dev.rd_wr_at _ _ _ _ _ _ (by decide), Dev.rd_wr_at _ _ _ _ _ _ (by decide)]

/-- What the bit of a replay's end leaves of the bits before it. -/
theorem Dev.on_cause_keeps {d : Dev} {c : Causes} {b b' : Nat} {i : Nat} (hb : (c.bit b').key 0 0 ≠ (c.bit b).key 0 0) (h : d.on
    (c.bit b') i = true) :
    (d.cause c b i).on (c.bit b') i = true := by
  rw [Dev.on, Dev.rd_cause_at _ _ _ _ _ hb]
  exact h

theorem Dev.on_wr_keeps {d : Dev} {f g : Field} {i : Nat} (v : Nat) (hne : g.key 0 0 ≠ f.key 0 0) (h : d.on g i = true) :
    (d.wr f v i).on g i = true := by
  rw [Dev.on, Dev.rd_wr_at _ _ _ _ _ _ hne]
  exact h

theorem Dev.afterReplay_none {d : Dev} (hreplays : d.replays = []) (hjobs : d.jobs = {})
    (hwaits : d.power.sitOutWaits = false) : d.afterReplay = d := by
  unfold Dev.afterReplay
  rw [hjobs, NMap.vals_empty, Dev.replaying, hreplays, if_neg (by decide)]
  exact if_neg (Bool.not_eq_true _ ▸ hwaits)

theorem Dev.rd_stalled (stall : Nat) (d : Dev) {g : Field} (hg : g.key 0 0 ≠ (lgrCauses.bit 4).key 0 0) : (d.stalled stall).rd g = d.rd g := by
  unfold Dev.stalled
  split
  · exact Dev.rd_cause_at _ _ _ _ _ hg
  · rfl

/-- What the end of the only replay leaves, where nothing waited for it. -/
theorem Dev.replayEnd_eq {d : Dev} {p stall : Nat} {l : List Nat} (hreplays : d.replays = [{ position := p, items := l }]) (hitems : d.items = {})
    (hjobs : d.jobs = {}) (hwaits : d.power.sitOutWaits = false) :
    d.replayEnd p stall =
      ((({ d with replays := [] }.stallShown stall).stalled stall).wr R.LGR_STATUS_replay_active 0).cause lgrCauses 1 := by
  have hfind : d.replays.find? (fun r => r.position == p &&
      r.items.all (fun i => ((d.item? i).map (fun it => !(it.inLedger || it.stage == .queued))).getD true)) = some { position := p, items := l } := by
    rw [hreplays, List.find?_cons_of_pos]
    simp only [Dev.item?, hitems]
    simp [NMap.get?, Sys2Proof.findKey]
  have herase : d.replays.erase { position := p, items := l } = [] := by
    rw [hreplays]
    exact List.erase_cons_head ..
  obtain ⟨e, he⟩ : ∃ e, (({ d with replays := [] } : Dev).stallShown stall).stalled stall = e := ⟨_, rfl⟩
  have hbesides : e.besides [.routes, .retained, .registers, .output] = ({ d with replays := [] } : Dev).besides [.routes, .retained,
      .registers, .output] := by
    rw [← he]
    unfold Dev.stalled Dev.stallShown
    split
    · exact (Dev.cause_besides _ _ _ _ (by decide)).trans ((Dev.wr_besides _ _ _ _ _ (by decide)).trans (Dev.wr_besides _ _ _ _ _ (by decide)))
    · exact (Dev.wr_besides _ _ _ _ _ (by decide)).trans (Dev.wr_besides _ _ _ _ _ (by decide))
  have hnone : e.replays = [] := (Dev.replays_of_besides hbesides :)
  have hended : ((e.wr R.LGR_STATUS_replay_active 0).cause lgrCauses 1).besides [.routes, .retained, .registers, .output] =
      e.besides [.routes, .retained, .registers, .output] :=
    (Dev.cause_besides _ _ _ _ (by decide)).trans (Dev.wr_besides _ _ _ _ _ (by decide))
  have hafter : ((if e.replaying then e else e.wr R.LGR_STATUS_replay_active 0).cause lgrCauses 1).afterReplay =
      (e.wr R.LGR_STATUS_replay_active 0).cause lgrCauses 1 := by
    rw [Dev.replaying, hnone, if_neg (by decide)]
    exact Dev.afterReplay_none ((Dev.replays_of_besides hended).trans hnone)
      ((Dev.jobs_of_besides hended).trans ((Dev.jobs_of_besides hbesides :).trans hjobs))
      ((congrArg Power.sitOutWaits ((Dev.power_of_besides hended).trans (Dev.power_of_besides hbesides :))).trans hwaits)
  unfold Dev.replayEnd
  rw [hfind]
  dsimp only
  rw [herase, he, ← hafter, ← he]
  rfl

theorem replayDone_shows {p stall : Nat} {l : List Nat} {s : State} (hrun : s.dev.phase = .running)
    (hreplays : s.dev.replays = [{ position := p, items := l }]) (hitems : s.dev.items = {}) (hjobs : s.dev.jobs = {})
    (hwaits : s.dev.power.sitOutWaits = false) :
    ∃ t, exec (.replayDone p stall) s = .next t ∧ t.dev.replays = [] ∧ t.dev.rd R.LGR_STATUS_replay_active = 0 ∧
      t.dev.rd R.LGR_LAST_STALL_stall_ns = min stall 0xFFFFFF ∧
      t.dev.rd R.LGR_STALL_MAX_stall_ns = max (min stall 0xFFFFFF) (s.dev.rd R.LGR_STALL_MAX_stall_ns) % 2 ^ R.LGR_STALL_MAX_stall_ns.width ∧
      t.dev.on (lgrCauses.bit 1) = true ∧ (s.dev.rd R.LGR_STALL_LIMIT_stall_limit < stall → t.dev.on (lgrCauses.bit 4) = true) := by
  refine ⟨_, State.onRun_running (Dev.replayEnd p stall) hrun, ?_⟩
  rw [Dev.replayEnd_eq hreplays hitems hjobs hwaits]
  obtain ⟨hlast, hmax, hlimit⟩ := Dev.rd_stallShown stall { s.dev with replays := [] }
  obtain ⟨d, hd⟩ : ∃ d, ({ s.dev with replays := [] } : Dev).stallShown stall = d := ⟨_, rfl⟩
  have hempty : d.replays = [] := by
    rw [← hd]
    rfl
  rw [hd] at hlast hmax hlimit ⊢
  have hended : (((d.stalled stall).wr R.LGR_STATUS_replay_active 0).cause lgrCauses 1).replays = (d.stalled stall).replays :=
    Dev.replays_of_besides ((Dev.cause_besides _ _ _ _ (by decide)).trans (Dev.wr_besides (ps := [.routes, .retained, .registers,
        .output]) _ _ _ _ _ (by decide)))
  have hrd (g : Field) (h₁ : g.key 0 0 ≠ (lgrCauses.bit 1).key 0 0) (h₀ : g.key 0 0 ≠ R.LGR_STATUS_replay_active.key 0 0)
      (h₄ : g.key 0 0 ≠ (lgrCauses.bit 4).key 0 0) : (((d.stalled stall).wr R.LGR_STATUS_replay_active 0).cause lgrCauses 1).rd g = d.rd g :=
    (Dev.rd_cause_at _ _ _ _ _ h₁).trans ((Dev.rd_wr_at _ _ _ _ _ _ h₀).trans (Dev.rd_stalled _ _ h₄))
  refine ⟨hended.trans ?_, ?_, ?_, ?_, Dev.cause_on .., fun hlong => ?_⟩
  · unfold Dev.stalled
    split
    · exact (Dev.replays_of_besides (Dev.cause_besides _ _ _ _ (List.Subset.refl _))).trans hempty
    · exact hempty
  · exact (Dev.rd_cause_at _ _ _ _ _ (by decide)).trans (Dev.rd_wr_self ..)
  · exact (hrd _ (by decide) (by decide) (by decide)).trans hlast
  · exact (hrd _ (by decide) (by decide) (by decide)).trans hmax
  · rw [Dev.stalled, if_pos (by rw [hlimit]; exact hlong)]
    exact Dev.on_cause_keeps (by decide) (Dev.on_wr_keeps _ (by decide) (Dev.cause_on ..))

end Sys2Proof.Machine
end

section
/-!
What a change of the map is followed by (R21, R405).
-/

namespace Sys2Proof.Machine

/-! ## Messages and headroom when a Set leaves (R21, R405) -/

/-- With no message in any channel, a MID's takeover only clears its staged words. -/
theorem Dev.redeliver_silent {d : Dev} (mid : Nat) (h : d.chans = {}) :
    d.redeliver mid = Dev.each (d.channelsOf mid true) (fun c d =>
      Dev.each (List.range 16) (fun n d => d.wr R.MBX_TX_DATA_data 0 0 (256 * c + 4 * n)) d) d := by
  have hnone : Dev.each (d.channelsOf mid false) (fun c d =>
      if (d.chan c).latched && (d.chan c).held.isSome then
        (((d.onChan c (fun h => { h with latched := false, held := h.held.map (fun m => { m with redelivered := true }) })).announceArrival c).cause
          mbxCauses 2)
      else d) d = d :=
    Dev.each_same fun c _ => by
      rw [Dev.chan, h]
      rfl
  unfold Dev.redeliver
  exact congrArg (fun e : Dev => Dev.each (e.channelsOf mid true) (fun c d =>
    Dev.each (List.range 16) (fun n d => d.wr R.MBX_TX_DATA_data 0 0 (256 * c + 4 * n)) d) e) hnone

theorem Dev.redeliver_silent_besides {ps : List Part} {d : Dev} (mid : Nat) (h : d.chans = {}) (hps : [.retained, .registers] ⊆ ps) :
    (d.redeliver mid).besides ps = d.besides ps := by
  rw [Dev.redeliver_silent mid h]
  exact Dev.besides_each _ _ _ fun c e => Dev.besides_each _ _ _ fun n e => Dev.wr_besides _ _ _ _ _ hps

theorem Dev.seq_redeliver_silent {d : Dev} (mid : Nat) (h : d.chans = {}) : d.regsSame seqKey (d.redeliver mid) := by
  rw [Dev.redeliver_silent mid h]
  refine Dev.each_keeps (P := fun e => d.regsSame seqKey e) (fun c hc e he => ?_) d.regsSame_refl
  rw [Dev.channelsOf, List.mem_filter, List.mem_range] at hc
  obtain ⟨hbound, -⟩ := hc
  refine Dev.each_keeps (P := fun e => d.regsSame seqKey e) (fun n hn e he => ?_) he
  have hword : n < 16 := List.mem_range.1 hn
  exact he.wr _ _ _ _ (not_seqKey_below (by decide) (by decide) (by simp only [R.MBX_TX_DATA_data]; omega) (by decide))

theorem Dev.seq_updateHeadroom {d e : Dev} (h : d.regsSame seqKey e) : d.regsSame seqKey e.updateHeadroom :=
  h.updateHeadroom (by decide) (by decide)

theorem Dev.seq_cardChanged {d e : Dev} (h : d.regsSame seqKey e) (es : List Nat) : d.regsSame seqKey (e.cardChanged es) :=
  h.trans (Dev.regsSame_of_regs (Dev.regs_cardChanged ..))

/-- What the map's change is followed by: Headroom, the card, and the mail of the position's MID. -/
def Dev.mapChanged (es : List Nat) (mid : Nat) (d : Dev) : Dev := (d.updateHeadroom.cardChanged es).redeliver mid

/-- The parts that a change of the map touches behind it. -/
def mapParts : List Part := [.start, .power, .routes, .retained, .registers, .output]

theorem Dev.chans_mapBefore (es : List Nat) (d : Dev) : (d.updateHeadroom.cardChanged es).chans = d.chans :=
  (Dev.chans_of_besides (Dev.cardChanged_besides es _ (List.Subset.refl _))).trans
    (Dev.chans_of_besides (Dev.updateHeadroom_besides d (List.Subset.refl _)))

theorem Dev.mapChanged_besides {d : Dev} (es : List Nat) (mid : Nat) (h : d.chans = {}) :
    (d.mapChanged es mid).besides mapParts = d.besides mapParts := by
  exact (Dev.redeliver_silent_besides mid ((d.chans_mapBefore es).trans h) (by decide)).trans
    ((Dev.cardChanged_besides es _ (by decide)).trans (Dev.updateHeadroom_besides d (by decide)))

theorem Dev.seq_mapChanged {d : Dev} (es : List Nat) (mid : Nat) (h : d.chans = {}) : d.regsSame seqKey (d.mapChanged es mid) :=
  (Dev.seq_cardChanged (Dev.seq_updateHeadroom d.regsSame_refl) es).trans (Dev.seq_redeliver_silent mid ((d.chans_mapBefore es).trans h))

/-! ## Replays of nothing (R165) -/

/-- The last takeover is shown. -/
def Dev.showFailover (p trigger n : Nat) (d : Dev) : Dev :=
  ((d.wr R.LGR_LAST_FAILOVER_position p).wr R.LGR_LAST_FAILOVER_trigger trigger).wr R.LGR_LAST_FAILOVER_items n

theorem Dev.replay_empty {d : Dev} (p trigger : Nat) (taken : Bool) (h : d.items = {}) : d.replay p trigger taken = d.showFailover p trigger 0 := by
  have hheld : (d.items.filter (fun _ it => it.inLedger && it.position == p)).entries.mergeSort (fun a b => a.2.order ≤ b.2.order) = [] := by
    rw [h]
    exact List.mergeSort_nil
  unfold Dev.replay
  dsimp only
  rw [hheld]
  rfl

theorem Dev.rd_showFailover {p trigger : Nat} (n : Nat) (d : Dev) (hp : p < 64) (ht : trigger < 4) :
    (d.showFailover p trigger n).rd R.LGR_LAST_FAILOVER_position = p ∧ (d.showFailover p trigger n).rd R.LGR_LAST_FAILOVER_trigger = trigger := by
  unfold Dev.showFailover
  constructor
  · rw [Dev.rd_wr_at _ _ _ _ _ _ (by decide), Dev.rd_wr_at _ _ _ _ _ _ (by decide), Dev.rd_wr_self]
    exact Nat.mod_eq_of_lt hp
  · rw [Dev.rd_wr_at _ _ _ _ _ _ (by decide), Dev.rd_wr_self]
    exact Nat.mod_eq_of_lt ht

theorem Dev.seq_showFailover (p trigger n : Nat) (d : Dev) : d.regsSame seqKey (d.showFailover p trigger n) :=
  ((d.regsSame_refl.wr _ _ _ _ (by decide)).wr _ _ _ _ (by decide)).wr _ _ _ _ (by decide)

end Sys2Proof.Machine
end

section
/-!
Set faults before the replay (R21, R22).
-/

namespace Sys2Proof.Machine

/-! ## A Set that faults (R21, R22) -/

/-- The finding stands in the position's FIFO and in the log. -/
def Dev.setFaulted (p code addr : Nat) (thread : Option Nat) (d : Dev) : Nat × Dev :=
  let pc := if code = 1 then addr % 16384 else ((thread.map (d.thread p)).map Thread.pc).getD 0
  ((d.pushFault p (thread.getD 0xFF) code pc).cause setCauses 1 p).recordSeq
    { unit := 0x41, inst := p, severity := 2, code := if code = 9 then 5 else 4, handling := 1, site := (d.setAt p).site
      domain := (d.setAt p).site, detail0 := addr }

/-- A position that has left service no longer counts as thermally sat out. -/
def Dev.satIn (p : Nat) (d : Dev) : Dev := (d.onPower (fun w => { w with satOut := w.satOut.filter (· != p) })).showSatOut

/-- The parts that a fault touches before the position leaves. -/
def faultParts : List Part := [.power, .sets, .routes, .retained, .registers, .output]

theorem Dev.setFaulted_besides (p code addr : Nat) (thread : Option Nat) (d : Dev) :
    ((d.setFaulted p code addr thread).2.satIn p).besides faultParts = d.besides faultParts :=
  (Dev.wr_besides _ _ _ _ _ (by decide)).trans ((Dev.onPower_besides _ _ (by decide)).trans
    ((Dev.record_besides _ _ (by decide)).trans ((Dev.cause_besides _ _ _ _ (by decide)).trans (Dev.pushFault_besides _ _ _ _ _ (by decide)))))

theorem Dev.seq_pushFault {p : Nat} (hp : p < 64) (thread code pc : Nat) (d : Dev) : d.regsSame seqKey (d.pushFault p thread code pc) := by
  unfold Dev.pushFault
  split
  · exact Dev.regsSame_of_regs rfl
  · exact d.regsSame_refl.wr _ _ _ _ (not_seqKey_below (by decide) (by omega) (by decide) (by decide))

theorem Dev.seq_setFaulted {p : Nat} (hp : p < 64) (code addr : Nat) (thread : Option Nat) {d : Dev} (hrun : d.phase = .running) :
    ((d.setFaulted p code addr thread).2.satIn p).rd R.FLT_LAST_SEQ_seq = d.nextLogSeq % 2 ^ 32 := by
  have hsat (e : Dev) : e.regsSame seqKey (e.satIn p) := (Dev.regsSame_of_regs (d := e) rfl).wr _ _ _ _ (by decide)
  rw [(hsat _).seq]
  unfold Dev.setFaulted
  dsimp only
  obtain ⟨pc, hpc⟩ : ∃ pc, (if code = 1 then addr % 16384 else ((thread.map (d.thread p)).map Thread.pc).getD 0) = pc := ⟨_, rfl⟩
  rw [hpc]
  have hcaused : d.regsSame seqKey ((d.pushFault p (thread.getD 0xFF) code pc).cause setCauses 1 p) :=
    (Dev.seq_pushFault hp _ _ _ d).cause _ _ _ (not_seqKey_below (by decide) (by omega) (by decide) (by decide))
  have hphase : ((d.pushFault p (thread.getD 0xFF) code pc).cause setCauses 1 p).phase = d.phase :=
    Dev.phase_of_besides (ps := faultParts) ((Dev.cause_besides _ _ _ _ (by decide)).trans (Dev.pushFault_besides _ _ _ _ _ (by decide)))
  refine (Dev.seq_recordSeq (by rw [hphase, hrun]; decide) (Nat.succ_ne_zero 1)).trans ?_
  rw [Dev.nextLogSeq, Dev.nextLogSeq, hcaused.seq]

theorem Dev.setAt_congr {d e : Dev} (h : e.setPos = d.setPos) (p : Nat) : e.setAt p = d.setAt p := by rw [Dev.setAt, Dev.setAt, h]

theorem Dev.setAt_putSlot_self (p : Nat) (x : Slot) (d : Dev) : (d.putSlot p x).setAt p = x := NMap.getD_set_self ..

theorem Dev.setAt_putSlot_ne {p q : Nat} (x : Slot) (d : Dev) (h : q ≠ p) : (d.putSlot p x).setAt q = d.setAt q := NMap.getD_set_ne _ _ _ h

theorem Dev.fitReserve_congr {d e : Dev} (h : e.setPos = d.setPos) : e.fitReserve = d.fitReserve := by
  have hfit : e.setFit = d.setFit := funext fun p => by rw [Dev.setFit, Dev.setFit, Dev.setAt_congr h]
  rw [Dev.fitReserve, Dev.fitReserve, hfit]

theorem Dev.fitReserve_reserve {d : Dev} {r : Nat} (h : d.fitReserve = some r) : r = 32 ∨ r = 33 := by
  have := List.mem_of_find?_eq_some h
  simpa using this

theorem Dev.setAt_swapSets {p r : Nat} (d : Dev) (h : r ≠ p) :
    (d.swapSets p r).setAt p = { site := (d.setAt r).site } ∧ (d.swapSets p r).setAt r = { site := (d.setAt p).site, phase := .out } := by
  unfold Dev.swapSets
  exact ⟨(Dev.setAt_putSlot_ne _ _ h.symm).trans (Dev.setAt_putSlot_self ..), Dev.setAt_putSlot_self ..⟩

theorem Dev.regs_swapSets (p r : Nat) (d : Dev) : (d.swapSets p r).regs = d.regs := by
  unfold Dev.swapSets Dev.putSlot
  rfl

/-- A reserve has taken position `p`; what the position held is still to be replayed. -/
def Dev.takenOver (p r : Nat) (d : Dev) : Dev :=
  ((((d.onPower (fun w => { w with unproven := w.unproven.filter (· != p) })).swapSets p r).onPower
    (fun w => { w with unproven := p :: w.unproven })).mapChanged [setEntry p, setEntry r] (midSet p))

/-- Position `p` stands vacant; what it held is still to be replayed. -/
def Dev.vacated (p : Nat) (d : Dev) : Dev :=
  let d := d.onPower (fun w => { w with unproven := w.unproven.filter (· != p) })
  (((d.onSite p SetSite.emptied).putSlot p { d.setAt p with phase := .out, thermal := false }).dropLost (p / 8)).mapChanged [setEntry p] (midSet p)

theorem Dev.leaveSet_taken {d : Dev} {p r : Nat} (trigger : Nat) (hfit : d.fitReserve = some r) :
    d.leaveSet p trigger = (true, (d.takenOver p r).replay p trigger true) := by
  unfold Dev.leaveSet
  dsimp only
  rw [Dev.fitReserve_congr (d := d) (e := d.onPower _) rfl, hfit]
  rfl

theorem Dev.leaveSet_vacant {d : Dev} {p : Nat} (trigger : Nat) (hfit : d.fitReserve = none) :
    d.leaveSet p trigger = (false, (d.vacated p).replay p trigger false) := by
  unfold Dev.leaveSet
  dsimp only
  rw [Dev.fitReserve_congr (d := d) (e := d.onPower _) rfl, hfit]
  rfl

/-- What a reserve's takeover leaves of messages and items, and where it puts the sites. -/
theorem Dev.takenOver_holds {d : Dev} {p r : Nat} (hchans : d.chans = {}) (h : r ≠ p) :
    (d.takenOver p r).items = d.items ∧ (d.takenOver p r).setAt p = { site := (d.setAt r).site } ∧
    (d.takenOver p r).setAt r = { site := (d.setAt p).site, phase := .out } ∧ d.regsSame seqKey (d.takenOver p r) := by
  unfold Dev.takenOver
  obtain ⟨e, he⟩ : ∃ e, d.onPower (fun w => { w with unproven := w.unproven.filter (· != p) }) = e := ⟨_, rfl⟩
  obtain ⟨hself, hreserve⟩ := e.setAt_swapSets h
  have hpower : e.besides [.power] = d.besides [.power] := he ▸ Dev.onPower_besides _ _ (List.Subset.refl _)
  have hswapped := e.swapSets_besides p r (List.Subset.refl _)
  have hregs : (e.swapSets p r).regs = d.regs := (Dev.regs_swapSets ..).trans (Dev.regs_of_besides hpower)
  have hitems : (e.swapSets p r).items = d.items := (Dev.items_of_besides hswapped).trans (Dev.items_of_besides hpower)
  have hmail : (e.swapSets p r).chans = d.chans := (Dev.chans_of_besides hswapped).trans (Dev.chans_of_besides hpower)
  have hsame (q : Nat) : e.setAt q = d.setAt q := Dev.setAt_congr (Dev.setPos_of_besides hpower) q
  rw [he]
  obtain ⟨g, hg⟩ : ∃ g, e.swapSets p r = g := ⟨_, rfl⟩
  rw [hg] at hself hreserve hregs hitems hmail ⊢
  have hproven := g.onPower_besides (fun w => { w with unproven := p :: w.unproven }) (List.Subset.refl _)
  have hregs' : (g.onPower (fun w => { w with unproven := p :: w.unproven })).regs = g.regs := rfl
  obtain ⟨k, hk⟩ : ∃ k, g.onPower (fun w => { w with unproven := p :: w.unproven }) = k := ⟨_, rfl⟩
  rw [hk] at hproven hregs' ⊢
  have hquiet : k.chans = {} := (Dev.chans_of_besides hproven).trans (hmail.trans hchans)
  have hbesides := k.mapChanged_besides [setEntry p, setEntry r] (midSet p) hquiet
  have hpos := (Dev.setPos_of_besides hbesides).trans (Dev.setPos_of_besides hproven)
  refine ⟨(Dev.items_of_besides hbesides).trans ((Dev.items_of_besides hproven).trans hitems), ?_, ?_,
    (Dev.regsSame_of_regs (hregs'.trans hregs)).trans (k.seq_mapChanged _ _ hquiet)⟩
  · rw [Dev.setAt_congr hpos, ← hsame]
    exact hself
  · rw [Dev.setAt_congr hpos, ← hsame]
    exact hreserve

theorem Dev.vacated_holds {d : Dev} {p : Nat} (hchans : d.chans = {}) :
    (d.vacated p).items = d.items ∧ (d.vacated p).setAt p = { site := (d.setAt p).site, phase := .out } ∧
    ∀ q, q ≠ p → (d.vacated p).setAt q = d.setAt q := by
  unfold Dev.vacated
  extract_lets e
  have he (q : Nat) : e.setAt q = d.setAt q := Dev.setAt_congr rfl q
  obtain ⟨g, hg⟩ : ∃ g, (e.onSite p SetSite.emptied).putSlot p { e.setAt p with phase := .out, thermal := false } = g := ⟨_, rfl⟩
  have hself : g.setAt p = { site := (d.setAt p).site, phase := .out } := by
    rw [← hg, Dev.setAt_putSlot_self, he]
  have hothers (q : Nat) (hq : q ≠ p) : g.setAt q = d.setAt q := by
    rw [← hg, Dev.setAt_putSlot_ne _ _ hq]
    exact he q
  have hitems : g.items = d.items := by
    rw [← hg]
    rfl
  have hmail : g.chans = d.chans := by
    rw [← hg]
    rfl
  rw [hg]
  have hlost := g.dropLost_besides (p / 8) (List.Subset.refl _)
  have hbesides := Dev.mapChanged_besides [setEntry p] (midSet p) (((Dev.chans_of_besides hlost).trans hmail).trans hchans)
  have hpos := (Dev.setPos_of_besides hbesides).trans (Dev.setPos_of_besides hlost)
  refine ⟨((Dev.items_of_besides hbesides).trans (Dev.items_of_besides hlost)).trans hitems, ?_, fun q hq => ?_⟩
  · rw [Dev.setAt_congr hpos, hself]
  · rw [Dev.setAt_congr hpos, hothers q hq]

end Sys2Proof.Machine
end

section
/-!
What a position held is delivered afresh (R165).
-/

namespace Sys2Proof.Machine

/-! ## What a position held is delivered afresh (R165) -/

theorem Dev.freshItem_rx {it : Item} (d : Dev) (hkind : it.kind = 1) :
    (d.freshItem it).edits = [] ∧ (d.freshItem it).dest = none ∧ (d.freshItem it).replays = it.replays := by
  unfold Dev.freshItem
  extract_lets x y
  have hy : y.kind = 1 ∧ y.edits = [] ∧ y.dest = none ∧ y.replays = it.replays := by
    unfold y
    split
    · exact ⟨hkind, rfl, rfl, rfl⟩
    · exact ⟨hkind, rfl, rfl, rfl⟩
  obtain ⟨hsame, hy⟩ := hy
  rw [if_pos hsame]
  exact hy

/-- A recalled item of the line waits for its delivery, with nothing of its pass left. -/
theorem Dev.recall_item {d : Dev} {i : Nat} {it : Item} (hitem : d.item? i = some it) (hkind : it.kind = 1) (hreplays : it.replays < 2) :
    ∃ x, (d.recall i).item? i = some x ∧ x.stage = .queued ∧ x.replays = it.replays + 1 ∧ x.edits = [] ∧ x.dest = none := by
  unfold Dev.recall
  rw [hitem]
  dsimp only
  rw [if_neg (by omega)]
  unfold Dev.restartItem
  extract_lets e x ring n e'
  obtain ⟨hedits, hdest, hcount⟩ := Dev.freshItem_rx e hkind
  have hitems : e.items = d.items :=
    (Dev.items_of_besides (Dev.forgetReads_besides i _ (List.Subset.refl _))).trans
      (Dev.items_of_besides (Dev.leaveWaiting_besides i it d (List.Subset.refl _)))
  have he : e'.items = d.items := by
    unfold e'
    cases ring with
    | some r => exact hitems
    | none => exact hitems
  have hstands : e'.item? i = some it := (Dev.item?_congr he i).trans hitem
  exact ⟨_, Dev.item?_onItem_self (Dev.item?_onItem_self hstands _) _, rfl, congrArg (· + 1) hcount, hedits, hdest⟩

/-- The registers of a replay that begins (R166). -/
def Dev.replayBegun (p trigger : Nat) (l : List Nat) (d : Dev) : Dev :=
  let d := d.showFailover p trigger l.length
  let d := { d with replays := d.replays ++ [({ position := p, items := l } : Replay)] }
  let d := (d.wr R.LGR_STATUS_replay_active 1).bump R.LGR_FAILOVERS_failovers
  let d := d.wr64 R.LGR_REPLAYED_LO_replayed R.LGR_REPLAYED_HI_replayed
    ((d.rd64 R.LGR_REPLAYED_LO_replayed R.LGR_REPLAYED_HI_replayed + l.length) % 2 ^ 64)
  d.cause lgrCauses 0

theorem Dev.items_replayBegun (p trigger : Nat) (l : List Nat) (d : Dev) : (d.replayBegun p trigger l).items = d.items := by
  unfold Dev.replayBegun Dev.showFailover Dev.wr64
  refine (Dev.items_of_besides (Dev.cause_besides _ _ _ _ (List.Subset.refl _))).trans ?_
  simp only [Dev.wr_items, Dev.bump]

/-- The replay of the one item that the position held. -/
theorem Dev.replay_one {d : Dev} {p i : Nat} {it x : Item} (trigger : Nat) (hitems : d.items = { entries := [(i, it)] })
    (hledger : it.inLedger = true)
    (hposition : it.position = p) (hrecalled : (d.recall i).item? i = some x) (hstage : x.stage = .queued) :
    d.replay p trigger true = ((d.recall i).replayBegun p trigger [i]).deliverItem i p := by
  have hheld : (d.items.filter (fun _ it => it.inLedger && it.position == p)).entries.mergeSort (fun a b => a.2.order ≤ b.2.order) = [(i, it)] := by
    rw [hitems]
    simp [NMap.filter, hledger, hposition]
  have hagain : [i].filter (fun j => (((d.recall i).item? j).map (fun it => it.stage == .queued)).getD false) = [i] := by
    rw [List.filter_cons_of_pos, List.filter_nil]
    rw [hrecalled, Option.map_some, hstage]
    rfl
  have hstill : ((d.recall i).replayBegun p trigger [i]).item? i = some x := (Dev.item?_congr (Dev.items_replayBegun ..) i).trans hrecalled
  have hdelivered : ((d.recall i).replayBegun p trigger [i]).redeliverItem p true i = ((d.recall i).replayBegun p trigger [i]).deliverItem i p := by
    unfold Dev.redeliverItem
    rw [hstill]
    dsimp only
    rw [if_neg (by rw [hstage]; decide), if_pos rfl]
  rw [← hdelivered]
  unfold Dev.replay
  dsimp only
  rw [hheld]
  refine (?_ : (let again := [i].filter (fun j => (((d.recall i).item? j).map (fun it => it.stage == .queued)).getD false)
    if again.isEmpty then (d.recall i).showFailover p trigger again.length
    else Dev.each again (Dev.redeliverItem p true) ((d.recall i).replayBegun p trigger again)) = _)
  rw [hagain]
  rfl

theorem Dev.deliverItem_holds {d : Dev} {i p : Nat} {x : Item} (h : d.item? i = some x) :
    ∃ y, (d.deliverItem i p).item? i = some y ∧ y.stage = .delivered ∧ y.position = p ∧ y.replays = x.replays ∧ y.edits = x.edits ∧ y.dest = x.dest ∧
      ((d.deliverItem i p).siteAt p).input.getLast? = some i := by
  unfold Dev.deliverItem
  extract_lets e₀ e₁
  have hitem : e₀.item? i = some x := h
  refine ⟨_, Dev.item?_onItem_self hitem _, rfl, rfl, rfl, rfl, rfl, ?_⟩
  rw [Dev.siteAt_onSite_self]
  exact List.getLast?_concat

/-! ## Set faults -/

section
variable {p code addr : Nat} {thread : Option Nat} {s : State} (hrun : s.dev.phase = .running) (hcode : code = 1 ∨ code = 9) (hp : p < 32)
  (hset : s.dev.hasSet p = true) (hphase : (s.dev.setAt p).phase = .inService)
include hrun hcode hp hset hphase

/-- A Set fault: the finding is recorded, the position leaves, and the record takes the answer. -/
theorem exec_setFault (b : Bool) (g : Dev) (hleft : ((s.dev.setFaulted p code addr thread).2.satIn p).leaveSet p 0 = (b, g)) :
    exec (.setFault p ⟨code, addr, thread⟩) s =
      .next { s with dev := g.finishRecord (s.dev.setFaulted p code addr thread).1 (if b then 3 else 4) } := by
  rw [show exec (.setFault p ⟨code, addr, thread⟩) s = execSetFault p ⟨code, addr, thread⟩ s from rfl, execSetFault,
    State.onLinks_answering _ (.inl hrun), if_pos hcode]
  unfold Dev.setFault
  rw [hset, if_neg (by decide)]
  dsimp only
  rw [if_pos ⟨hp, .inl hphase⟩]
  refine congrArg (fun d => Host.Outcome.next { s with dev := d }) ((?_ : (
    (((s.dev.setFaulted p code addr thread).2.satIn p).leaveSet p 0).2.finishRecord (s.dev.setFaulted p code addr thread).1
      (if (((s.dev.setFaulted p code addr thread).2.satIn p).leaveSet p 0).1 then 3 else 4)) = _))
  rw [hleft]

/-- With an empty Ledger the reserve's takeover is all that a fault makes of the map. -/
theorem exec_setFault_taken {r : Nat} (hchans : s.dev.chans = {}) (hitems : s.dev.items = {}) (hfit : s.dev.fitReserve = some r) :
    ∃ t, exec (.setFault p ⟨code, addr, thread⟩) s = .next t ∧ t.dev.setAt p = { site := (s.dev.setAt r).site } ∧
      t.dev.setAt r = { site := (s.dev.setAt p).site, phase := .out } ∧ t.dev.rd R.LGR_LAST_FAILOVER_position = p ∧
      t.dev.rd R.LGR_LAST_FAILOVER_trigger = 0 ∧ recorded s t := by
  have hbesides := s.dev.setFaulted_besides p code addr thread
  have hseq := Dev.seq_setFaulted (by omega) code addr thread hrun (p := p)
  have hexec := fun b g => exec_setFault (thread := thread) (addr := addr) hrun hcode hp hset hphase b g
  obtain ⟨e, he⟩ : ∃ e, (s.dev.setFaulted p code addr thread).2.satIn p = e := ⟨_, rfl⟩
  rw [he] at hbesides hseq hexec
  have hpos := Dev.setPos_of_besides hbesides
  have hne : r ≠ p := by
    have := Dev.fitReserve_reserve hfit
    omega
  obtain ⟨hempty, hself, hreserve, hsame⟩ := Dev.takenOver_holds (d := e) (p := p) (r := r) ((Dev.chans_of_besides hbesides).trans hchans) hne
  have hleft := Dev.leaveSet_taken (p := p) 0 ((Dev.fitReserve_congr hpos).trans hfit)
  rw [Dev.replay_empty _ _ _ (hempty.trans ((Dev.items_of_besides hbesides).trans hitems))] at hleft
  refine ⟨_, hexec _ _ hleft, ?_⟩
  dsimp only
  obtain ⟨hshown, htrigger⟩ := Dev.rd_showFailover (p := p) (trigger := 0) 0 (e.takenOver p r) (by omega) (by decide)
  have hshow : ((e.takenOver p r).showFailover p 0 0).setPos = (e.takenOver p r).setPos := by
    unfold Dev.showFailover
    simp only [Dev.wr_setPos]
  have hseqs := (Dev.seq_showFailover p 0 0 (e.takenOver p r)).seq
  obtain ⟨g, hg⟩ : ∃ g, (e.takenOver p r).showFailover p 0 0 = g := ⟨_, rfl⟩
  rw [hg] at hshown htrigger hshow hseqs ⊢
  obtain ⟨n, hn⟩ : ∃ n, (s.dev.setFaulted p code addr thread).1 = n := ⟨_, rfl⟩
  rw [hn]
  have hfinal := (Dev.setPos_of_besides (g.finishRecord_besides n (if true then 3 else 4) (List.Subset.refl _))).trans hshow
  have hregs := g.regsSame_finishRecord n (if true then 3 else 4)
  refine ⟨?_, ?_, ?_, ?_, recorded_of_seq ?_⟩
  · rw [Dev.setAt_congr hfinal, hself, Dev.setAt_congr hpos]
  · rw [Dev.setAt_congr hfinal, hreserve, Dev.setAt_congr hpos]
  · exact (hregs.rd (by decide)).trans hshown
  · exact (hregs.rd (by decide)).trans htrigger
  · rw [(g.seq_finishRecord _ _).seq, hseqs, hsame.seq, hseq]

theorem exec_setFault_vacant (hchans : s.dev.chans = {}) (hitems : s.dev.items = {}) (hfit : s.dev.fitReserve = none) :
    ∃ t, exec (.setFault p ⟨code, addr, thread⟩) s = .next t ∧ t.dev.setAt p = { site := (s.dev.setAt p).site, phase := .out } ∧
      ∀ q, q ≠ p → t.dev.setAt q = s.dev.setAt q := by
  have hbesides := s.dev.setFaulted_besides p code addr thread
  have hexec := fun b g => exec_setFault (thread := thread) (addr := addr) hrun hcode hp hset hphase b g
  obtain ⟨e, he⟩ : ∃ e, (s.dev.setFaulted p code addr thread).2.satIn p = e := ⟨_, rfl⟩
  rw [he] at hbesides hexec
  have hpos := Dev.setPos_of_besides hbesides
  obtain ⟨hempty, hself, hothers⟩ := Dev.vacated_holds (d := e) (p := p) ((Dev.chans_of_besides hbesides).trans hchans)
  have hleft := Dev.leaveSet_vacant (p := p) 0 ((Dev.fitReserve_congr hpos).trans hfit)
  rw [Dev.replay_empty _ _ _ (hempty.trans ((Dev.items_of_besides hbesides).trans hitems))] at hleft
  refine ⟨_, hexec _ _ hleft, ?_⟩
  have hshow : ((e.vacated p).showFailover p 0 0).setPos = (e.vacated p).setPos := by
    unfold Dev.showFailover
    simp only [Dev.wr_setPos]
  have hfinal := fun n h => (Dev.setPos_of_besides (((e.vacated p).showFailover p 0 0).finishRecord_besides n h (List.Subset.refl _))).trans hshow
  refine ⟨?_, fun q hq => ?_⟩
  · rw [Dev.setAt_congr (hfinal _ _), hself, Dev.setAt_congr hpos]
  · rw [Dev.setAt_congr (hfinal _ _), hothers q hq, Dev.setAt_congr hpos]

/-- What the position held is delivered to the site that took it. -/
theorem exec_setFault_redelivers {r i : Nat} {it : Item} (hchans : s.dev.chans = {}) (hfit : s.dev.fitReserve = some r)
    (hitems : s.dev.items = { entries := [(i, it)] }) (hledger : it.inLedger = true) (hposition : it.position = p) (hkind : it.kind = 1)
    (hreplays : it.replays < 2) :
    ∃ t x, exec (.setFault p ⟨code, addr, thread⟩) s = .next t ∧ t.dev.item? i = some x ∧ x.stage = .delivered ∧ x.position = p ∧
      x.replays = it.replays + 1 ∧ x.edits = [] ∧ x.dest = none ∧ (t.dev.siteAt p).input.getLast? = some i := by
  have hbesides := s.dev.setFaulted_besides p code addr thread
  have hexec := fun b g => exec_setFault (thread := thread) (addr := addr) hrun hcode hp hset hphase b g
  obtain ⟨e, he⟩ : ∃ e, (s.dev.setFaulted p code addr thread).2.satIn p = e := ⟨_, rfl⟩
  rw [he] at hbesides hexec
  have hne : r ≠ p := by
    have := Dev.fitReserve_reserve hfit
    omega
  obtain ⟨hkept, -, -, -⟩ := Dev.takenOver_holds (d := e) (p := p) (r := r) ((Dev.chans_of_besides hbesides).trans hchans) hne
  have hheld := hkept.trans ((Dev.items_of_besides hbesides).trans hitems)
  have hleft := Dev.leaveSet_taken (p := p) 0 ((Dev.fitReserve_congr (Dev.setPos_of_besides hbesides)).trans hfit)
  obtain ⟨g, hg⟩ : ∃ g, e.takenOver p r = g := ⟨_, rfl⟩
  rw [hg] at hheld hleft
  have hitem : g.item? i = some it := by
    rw [Dev.item?, hheld]
    simp [NMap.get?, Sys2Proof.findKey]
  obtain ⟨x, hx, hstage, hcount, hedits, hdest⟩ := Dev.recall_item hitem hkind hreplays
  rw [Dev.replay_one 0 hheld hledger hposition hx hstage] at hleft
  have hstill : ((g.recall i).replayBegun p 0 [i]).item? i = some x := (Dev.item?_congr (Dev.items_replayBegun ..) i).trans hx
  obtain ⟨y, hy, hystage, hyposition, hycount, hyedits, hydest, hinput⟩ := Dev.deliverItem_holds (p := p) hstill
  refine ⟨_, y, hexec _ _ hleft, ?_, hystage, hyposition, hycount.trans hcount, hyedits.trans hedits, hydest.trans hdest, ?_⟩
  · exact (Dev.item?_congr (Dev.items_of_besides (Dev.finishRecord_besides _ _ _ (List.Subset.refl _))) i).trans hy
  · refine Eq.trans (congrArg (fun x => x.input.getLast?) (Dev.siteAt_congr ?_ ?_ p)) hinput
    · exact Dev.setPos_of_besides (Dev.finishRecord_besides _ _ _ (List.Subset.refl _))
    · exact Dev.sites_of_besides (Dev.finishRecord_besides _ _ _ (List.Subset.refl _))

end

/-- Settles O32: takeovers by fit reserves, the end of a replay, and a full Figure. -/
theorem takeovers : Obligations.Takeovers := by
  unfold Obligations.Takeovers
  refine ⟨fun p code addr thread s hrun hcode hp hset hphase hchans => ⟨fun hitems => ⟨?_, ?_⟩, ?_⟩, ?_, fun f s hrun => ⟨?_, ?_⟩,
    fun p s hrun hp hpart hphase => ⟨?_, ?_⟩⟩
  · intro r hfit
    exact exec_setFault_taken hrun hcode hp hset hphase hchans hitems hfit
  · exact exec_setFault_vacant hrun hcode hp hset hphase hchans hitems
  · intro r i it hfit hitems hledger hposition hkind _ hreplays
    exact exec_setFault_redelivers hrun hcode hp hset hphase hchans hfit hitems hledger hposition hkind hreplays
  · intro p stall l s hrun hreplays hitems hjobs hwaits
    exact replayDone_shows hrun hreplays hitems hjobs hwaits
  · exact exec_figureFullPersist hrun
  · exact fun p hp hopen => exec_figureFullPersist_open hrun hp hopen
  · intro r hfit
    exact exec_cryptoInstanceFault_taken hrun hp hpart hphase hfit
  · exact exec_cryptoInstanceFault_vacant hrun hp hpart hphase

end Sys2Proof.Machine
end

section
/-!
The MAC complex: instances that go down, frames that are discarded (R344, R358).
-/

namespace Sys2Proof.Machine

/-! ## Registers of the MAC complex (R344, R358)

The registers of ports and the settings of instances lie below the states of the instances; neither a cause of the block, nor a lane,
    nor the time unit
shares a key with them. -/

/-- The registers of ports, and the settings of instances. -/
def portKey (k : Nat) : Prop := 0x71 * 2 ^ 46 + 0x100 * 32 ≤ k ∧ k < 0x71 * 2 ^ 46 + 0x2000 * 32

theorem portKey_of (f : Field) (a : Nat) (hunit : f.unit = 0x71) (hlow : 0x100 ≤ f.off) (hhigh : f.off + a < 0x2000) (hlsb : f.lsb < 32) :
    portKey (f.key 0 a) := by
  simp only [portKey, Field.key, hunit]
  omega

theorem not_portKey_state (f : Field) (a : Nat) (hunit : f.unit = 0x71) (hoff : 0x2000 ≤ f.off) : ¬ portKey (f.key 0 a) := by
  simp only [portKey, Field.key, hunit]
  omega

theorem not_portKey_cause (b : Nat) (hb : b < 32) : ¬ portKey ((macCauses.bit b).key 0 0) := by
  simp only [portKey, Field.key, Causes.bit, macCauses]
  omega

/-- Lanes are of a lower unit, the time unit of a higher. -/
theorem not_portKey_unit (f : Field) (i a : Nat) (hunit : f.unit < 0x71 ∨ 0x71 < f.unit) (hi : i < 65536) (hoff : f.off + a < 33554432)
    (hlsb : f.lsb < 32) :
    ¬ portKey (f.key i a) := by
  simp only [portKey, Field.key]
  omega

/-- The registers that no record of a timestamp touches: those below the time unit's, and the uptime. -/
def offStamps (k : Nat) : Prop := k < 0x80 * 2 ^ 46 ∨ k = R.TMP_UPTIME_MS_value.key 0 0

theorem offStamps_of (f : Field) (i a : Nat) (hunit : f.unit < 0x80) (hi : i < 65536) (hoff : f.off + a < 33554432) (hlsb : f.lsb < 32) :
    offStamps (f.key i a) := by
  simp only [offStamps, Field.key]
  omega

theorem not_offStamps (f : Field) (a : Nat) (hunit : f.unit = 0x80) (hoff : 0x4000 ≤ f.off) : ¬ offStamps (f.key 0 a) := by
  simp only [offStamps, Field.key, hunit, R.TMP_UPTIME_MS_value]
  omega

theorem not_offStamps_cause (b : Nat) (hb : b < 32) : ¬ offStamps ((tmpCauses.bit b).key 0 0) := by
  simp only [offStamps, Field.key, Causes.bit, tmpCauses, R.TMP_UPTIME_MS_value]
  omega

theorem portKey_offStamps {k : Nat} (h : portKey k) : offStamps k := .inl (lt_trans h.2 (by decide))

theorem Dev.regsSame.mono {P Q : Nat → Prop} {d e : Dev} (h : d.regsSame P e) (hPQ : ∀ {k}, Q k → P k) : d.regsSame Q e := fun k hk => h k (hPQ hk)

/-! ## The instances of a port -/

theorem Dev.portRec_congr {d e : Dev} (h : e.boot = d.boot) (p : Nat) : e.portRec p = d.portRec p := by rw [Dev.portRec, Dev.portRec, h]

theorem Dev.instancesUnder_congr {d e : Dev} (h : e.boot = d.boot) (p : Nat) (b : Bool) : e.instancesUnder p b = d.instancesUnder p b := by
  rw [Dev.instancesUnder, Dev.instancesUnder, Dev.portRec_congr h]

theorem Dev.instancesOf_congr {d e : Dev} (h : e.boot = d.boot) {p : Nat}
    (hcal : e.on R.MAC_PORT_STATUS_cal_b 0 (16 * p) = d.on R.MAC_PORT_STATUS_cal_b 0 (16 * p)) : e.instancesOf p = d.instancesOf p := by
  rw [Dev.instancesOf, Dev.instancesOf, Dev.instancesUnder_congr h, hcal]

theorem Dev.instancesUnder_nodup (d : Dev) (p : Nat) (b : Bool) : (d.instancesUnder p b).Nodup := by
  unfold Dev.instancesUnder
  split
  · split
    · exact List.nodup_dedup _
    · exact List.nodup_singleton _
  · exact List.nodup_nil

theorem Dev.instancesOf_nodup (d : Dev) (p : Nat) : (d.instancesOf p).Nodup := d.instancesUnder_nodup p _

/-- A port has at most 39 lanes' numbers. -/
theorem Dev.lanesOf_lt {d : Dev} {p l : Nat} (hp : p < 32) (hl : l ∈ d.lanesOf p) : l < 65536 := by
  obtain ⟨k, hk, rfl⟩ := List.mem_map.1 hl
  have hlanes : speedLanes (d.portSpeed p) ≤ 8 := by
    unfold speedLanes
    split <;> decide
  have := List.mem_range.1 hk
  omega

/-! ## Counters of an instance -/

theorem Dev.macCount_congr {d e : Dev} (h : e.macCounts = d.macCounts) (m c : Nat) : e.macCount m c = d.macCount m c := by
  rw [Dev.macCount, Dev.macCount, h]

theorem Dev.macCount_countMac_self (d : Dev) (m c n : Nat) : (d.countMac m c n).macCount m c = (d.macCount m c + n) % 2 ^ 64 := by
  rw [Dev.macCount, Dev.countMac, NMap.getD_upd_self]
  rfl

theorem Dev.macCount_countMac_ne (d : Dev) {m c k a : Nat} (n : Nat) (hc : c < 32) (ha : a < 32) (h : m ≠ k ∨ c ≠ a) :
    (d.countMac k a n).macCount m c = d.macCount m c :=
  NMap.getD_upd_ne _ _ _ _ (by omega)

/-! ## Frames that are discarded (R344, R354, R374) -/

/-- What a discarded frame leaves of the MAC complex: all but the counter `c` of instance `m`. -/
structure Dev.discards (m c : Nat) (d e : Dev) : Prop where
  regs : d.regsSame offStamps e
  macs : e.macs = d.macs
  boot : e.boot = d.boot
  counts : ∀ n k, k < 32 → m ≠ n ∨ c ≠ k → e.macCount n k = d.macCount n k

theorem Dev.discards.refl (m c : Nat) (d : Dev) : d.discards m c d := ⟨d.regsSame_refl, rfl, rfl, fun _ _ _ _ => rfl⟩

theorem Dev.discards.trans {m c : Nat} {d e x : Dev} (h : d.discards m c e) (h' : e.discards m c x) : d.discards m c x where
  regs := h.regs.trans h'.regs
  macs := h'.macs.trans h.macs
  boot := h'.boot.trans h.boot
  counts n k hk hne := (h'.counts n k hk hne).trans (h.counts n k hk hne)

/-- A step of which only the time unit's registers and other parts of the device are touched. -/
theorem Dev.discards.of_same {m c : Nat} {d e : Dev} (hregs : d.regsSame offStamps e) (hports : e.macs = d.macs) (hcounts : e.macCounts = d.macCounts)
    (hboot : e.boot = d.boot) : d.discards m c e :=
  ⟨hregs, hports, hboot, fun n k _ _ => Dev.macCount_congr hcounts n k⟩

theorem Dev.discards.loseStamp {m c : Nat} (k r : Nat) (rx : Bool) (d : Dev) : d.discards m c (d.loseStamp k r rx) := by
  have hbesides := Dev.loseStamp_besides k r rx d (List.Subset.refl _)
  refine .of_same ?_ (Dev.macs_of_besides hbesides) (Dev.macCounts_of_besides hbesides) (Dev.boot_of_besides hbesides)
  exact (((d.regsSame_refl.wr _ _ _ _ (not_offStamps _ _ rfl (by decide))).wr _ _ _ _ (not_offStamps _ _ rfl (by decide))).wr _ _ _ _
      (not_offStamps _ _ rfl (by decide))).cause
    tmpCauses 12 0 (not_offStamps_cause 12 (by decide))

theorem Dev.discards.finishFrame {m c : Nat} (f : TxFrame) (late lost : Bool) (d : Dev) : d.discards m c (d.finishFrame f late lost) := by
  have hbesides := Dev.finishFrame_besides f late lost d (List.Subset.refl _)
  exact .of_same (Dev.regsSame_of_regs (Dev.regs_of_besides hbesides)) (Dev.macs_of_besides hbesides) (Dev.macCounts_of_besides hbesides)
    (Dev.boot_of_besides hbesides)

theorem Dev.discards.discardFrame {m c : Nat} (hc : c < 32) (f : TxFrame) (d : Dev) : d.discards m c (d.discardFrame m c f) := by
  have hcount : d.discards m c (d.countMac m c) :=
    ⟨d.regsSame_refl, rfl, rfl, fun n k hk hne => Dev.macCount_countMac_ne d 1 hk hc (hne.imp Ne.symm Ne.symm)⟩
  unfold Dev.discardFrame
  refine hcount.trans (Dev.discards.trans ?_ (Dev.discards.finishFrame ..))
  split
  · exact Dev.discards.loseStamp ..
  · exact Dev.discards.refl ..

theorem Dev.discards.each {m c : Nat} (hc : c < 32) (l : List TxFrame) (d : Dev) : d.discards m c (Dev.each l (Dev.discardFrame m c) d) :=
  Dev.each_induct (fun e => d.discards m c e) _ _ _ (Dev.discards.refl ..) fun f _ he => he.trans (Dev.discards.discardFrame hc f _)

/-! ## The paused classes (R316, R352) -/

theorem Dev.rd_setPaused (m v : Nat) (d : Dev) : (d.setPaused m v).rd R.MAC_INST_STATE_paused 0 (4 * m) = v % 2 ^ 8 := by
  rw [Dev.setPaused, Dev.rd_wr_ne _ _ _ _ _ _ _ _ (by simp only [Field.key, R.MAC_INST_STATE_paused, R.SCH_PORT_paused]; omega), Dev.rd_wr_self]
  rfl

/-- A register of the MAC block beside the paused classes. -/
theorem Dev.rd_setPaused_ne {m v : Nat} (d : Dev) {f : Field} {a : Nat} (hunit : f.unit = 0x71) (hm : m < 256) (hoff : f.off + a < 33554432)
    (hlsb : f.lsb < 32) (hne : f.key 0 a ≠ R.MAC_INST_STATE_paused.key 0 (4 * m)) : (d.setPaused m v).rd f 0 a = d.rd f 0 a := by
  rw [Dev.setPaused, Dev.rd_wr_ne _ _ _ _ _ _ _ _ ?_, Dev.rd_wr_ne _ _ _ _ _ _ _ _ hne]
  simp only [Field.key, R.SCH_PORT_paused, hunit]
  omega

/-! ## An instance that goes down (R344) -/

theorem Dev.mac_congr {d e : Dev} (h : e.macs = d.macs) (m : Nat) : e.mac m = d.mac m := by rw [Dev.mac, Dev.mac, h]

theorem Dev.mac_onMac_self (d : Dev) (m : Nat) (f : Mac → Mac) : (d.onMac m f).mac m = f (d.mac m) := NMap.getD_upd_self ..

theorem Dev.mac_onMac_ne (d : Dev) {m n : Nat} (f : Mac → Mac) (h : n ≠ m) : (d.onMac m f).mac n = d.mac n := NMap.getD_upd_ne _ _ _ _ h

/-- Instance `m` is down: no class is paused, and nothing waits to be sent. -/
structure Dev.instIsDown (m : Nat) (d : Dev) : Prop where
  up : d.macUp m = false
  fifo : (d.mac m).fifo = []
  launch : (d.mac m).launch = []
  paused : d.rd R.MAC_INST_STATE_paused 0 (4 * m) = 0

section
variable {m : Nat} (hm : m < 256)
include hm

theorem Dev.instIsDown.of_discards {n c : Nat} {d e : Dev} (h : d.instIsDown m) (hdiscards : d.discards n c e) : e.instIsDown m where
  up := (hdiscards.regs.on (offStamps_of _ _ _ (by decide) (by decide) (by simp only [R.MAC_INST_STATE_up]; omega) (by decide))).trans h.up
  fifo := by rw [Dev.mac_congr hdiscards.macs, h.fifo]
  launch := by rw [Dev.mac_congr hdiscards.macs, h.launch]
  paused := (hdiscards.regs.rd (offStamps_of _ _ _ (by decide) (by decide) (by simp only [R.MAC_INST_STATE_paused]; omega)
      (by decide))).trans h.paused

/-- The instance as it goes down, its frames not yet discarded. -/
theorem Dev.instDown_eq (d : Dev) : ∃ e, d.instDown m = Dev.each ((d.mac m).fifo ++ (d.mac m).launch) (Dev.discardFrame m 15) e ∧ e.instIsDown m ∧
    (∀ P : Nat → Prop, (∀ f ∈ [R.MAC_INST_STATE_up, R.MAC_INST_STATE_paused, R.SCH_PORT_paused], ¬ P (f.key 0 (4 * m))) → d.regsSame P e) ∧
    (∀ n, n ≠ m → e.mac n = d.mac n) ∧ e.boot = d.boot ∧ e.macCounts = d.macCounts := by
  refine ⟨_, rfl, ⟨?_, congrArg Mac.fifo (Dev.mac_onMac_self ..), congrArg Mac.launch (Dev.mac_onMac_self ..), ?_⟩, fun P hP => ?_,
    fun n hn => (Dev.mac_onMac_ne _ _ hn).trans rfl, rfl, rfl⟩
  · show ((Dev.setPaused m 0 _).rd R.MAC_INST_STATE_up 0 (4 * m) != 0) = false
    rw [Dev.rd_setPaused_ne _ rfl hm (by simp only [R.MAC_INST_STATE_up]; omega) (by decide) (Field.key_ne_at _ _ (by decide)), Dev.rd_wr_self]
    rfl
  · exact Dev.rd_setPaused m 0 _
  · simp only [List.mem_cons, List.not_mem_nil, or_false, forall_eq_or_imp, forall_eq] at hP
    obtain ⟨hup, hpaused, hsched⟩ := hP
    exact ((d.regsSame_refl.wr _ _ _ _ hup).wr _ _ _ _ hpaused).wr _ _ _ _ hsched

theorem Dev.instDown_isDown (d : Dev) : (d.instDown m).instIsDown m := by
  obtain ⟨e, he, hdown, -⟩ := d.instDown_eq hm
  rw [he]
  exact hdown.of_discards hm (Dev.discards.each (m := m) (by decide) _ _)

/-- An instance that goes down leaves the ports' registers, the other instances and their counters. -/
theorem Dev.instDown_leaves (d : Dev) : d.regsSame portKey (d.instDown m) ∧ (d.instDown m).boot = d.boot ∧
    (∀ n, n < 256 → n ≠ m → d.instIsDown n → (d.instDown m).instIsDown n) ∧
    ∀ n k, k < 32 → k ≠ 15 → (d.instDown m).macCount n k = d.macCount n k := by
  obtain ⟨e, he, -, hregs, hmacs, hboot, hcounts⟩ := d.instDown_eq hm
  have hdiscards := Dev.discards.each (m := m) (c := 15) (by decide) ((d.mac m).fifo ++ (d.mac m).launch) e
  rw [he]
  refine ⟨?_, hdiscards.boot.trans hboot, fun n hn hne hdown => ?_, fun n k hk hne => ?_⟩
  · refine Dev.regsSame.trans (hregs portKey ?_) (hdiscards.regs.mono portKey_offStamps)
    simp only [List.mem_cons, List.not_mem_nil, or_false, forall_eq_or_imp, forall_eq]
    exact ⟨not_portKey_state _ _ rfl (by decide), not_portKey_state _ _ rfl (by decide),
      not_portKey_unit _ _ _ (.inl (by decide)) (by decide) (by simp only [R.SCH_PORT_paused]; omega) (by decide)⟩
  · refine Dev.instIsDown.of_discards hn ?_ hdiscards
    have hother : d.regsSame (fun k => k = R.MAC_INST_STATE_up.key 0 (4 * n) ∨ k = R.MAC_INST_STATE_paused.key 0 (4 * n)) e := by
      refine hregs _ ?_
      simp only [List.mem_cons, List.not_mem_nil, or_false, forall_eq_or_imp, forall_eq, Field.key, R.MAC_INST_STATE_up, R.MAC_INST_STATE_paused,
        R.SCH_PORT_paused]
      omega
    exact ⟨(hother.on (.inl rfl)).trans hdown.up, by rw [hmacs n hne, hdown.fifo], by rw [hmacs n hne, hdown.launch],
      (hother.rd (.inr rfl)).trans hdown.paused⟩
  · exact (hdiscards.counts n k hk (.inr (Ne.symm hne))).trans (Dev.macCount_congr hcounts n k)

end

/-- Instances go down, one after another. -/
theorem Dev.instsDown {l : List Nat} (hl : ∀ m ∈ l, m < 256) (d : Dev) :
    (∀ m ∈ l, (Dev.each l Dev.instDown d).instIsDown m) ∧ d.regsSame portKey (Dev.each l Dev.instDown d) ∧ (Dev.each l Dev.instDown d).boot = d.boot ∧
      ∀ n k, k < 32 → k ≠ 15 → (Dev.each l Dev.instDown d).macCount n k = d.macCount n k := by
  refine ⟨fun m hm => Dev.each_reaches hm (fun e => e.instDown_isDown (hl m hm)) (fun b hb e he => ?_) d, ?_, ?_, fun n k hk hne => ?_⟩
  · by_cases hsame : m = b
    · subst hsame
      exact e.instDown_isDown (hl m hm)
    · obtain ⟨-, -, hothers, -⟩ := e.instDown_leaves (hl b hb)
      exact hothers m (hl m hm) hsame he
  · refine Dev.each_keeps (P := fun e => d.regsSame portKey e) (fun m hm e he => he.trans ?_) d.regsSame_refl
    exact (e.instDown_leaves (hl m hm)).1
  · refine Dev.each_keeps (P := fun e => e.boot = d.boot) (fun m hm e he => ?_) rfl
    obtain ⟨-, hboot, -⟩ := e.instDown_leaves (hl m hm)
    exact hboot.trans he
  · refine Dev.each_keeps (P := fun e => e.macCount n k = d.macCount n k) (fun m hm e he => ?_) rfl
    obtain ⟨-, -, -, hcounts⟩ := e.instDown_leaves (hl m hm)
    exact (hcounts n k hk hne).trans he

end Sys2Proof.Machine
end

section
/-!
Ports up and down, low-power idle, lanes, calendars (R344, R347, R355-R357).
-/

namespace Sys2Proof.Machine

theorem Dev.on_wr_one (d : Dev) (f : Field) {i a : Nat} (hwidth : 1 % 2 ^ f.width ≠ 0) : (d.wr f 1 i a).on f i a = true := by
  rw [Dev.on, Dev.rd_wr_self]
  exact bne_iff_ne.2 hwidth

/-! ## Ports up and down (R344) -/

theorem Dev.instancesOf_of_regs {d e : Dev} (hboot : e.boot = d.boot) (hregs : d.regsSame portKey e) {p : Nat} (hp : p < 32) :
    e.instancesOf p = d.instancesOf p :=
  Dev.instancesOf_congr hboot (hregs.on (portKey_of _ _ rfl (by decide) (by simp only [R.MAC_PORT_STATUS_cal_b]; omega) (by decide)))

/-- Every lane of the port shows a state and a cause of its own; ports and instances stand as they did. -/
theorem Dev.lanesShown {p : Nat} (hp : p < 32) {v b : Nat} (hb : b < 32) (d : Dev) {e : Dev}
    (he : e = Dev.each (d.lanesOf p) (fun l d => (d.wr R.MAC_LANE_STATUS_state v l).cause laneCauses b l) d) :
    d.regsSame portKey e ∧ e.boot = d.boot ∧ e.macCounts = d.macCounts ∧ e.macs = d.macs := by
  subst he
  have hbesides := Dev.besides_each (ps := [.routes, .retained, .registers, .output]) (d.lanesOf p)
    (fun l d => (d.wr R.MAC_LANE_STATUS_state v l).cause laneCauses b l) d
    (fun l e => (Dev.cause_besides _ _ _ _ (by decide)).trans (Dev.wr_besides e _ _ _ _ (by decide)))
  refine ⟨Dev.each_keeps (P := fun e => d.regsSame portKey e) (fun l hl e he => ?_) d.regsSame_refl, Dev.boot_of_besides hbesides,
    Dev.macCounts_of_besides hbesides, Dev.macs_of_besides hbesides⟩
  have hlane := Dev.lanesOf_lt hp hl
  exact (he.wr _ _ _ _ (not_portKey_unit _ _ _ (.inl (by decide)) hlane (by decide) (by decide))).cause _ _ _
    (not_portKey_unit (laneCauses.bit b) l 0 (.inl (Nat.lt_succ_self 0x70)) hlane (by decide : 0x4 + 0 < 33554432) hb)

section
variable {p : Nat} {s : State} (h : s.dev.phase = .running) (hp : p < 32)
include h hp

theorem exec_portUp_shows (hspeed : s.dev.portSpeed p ≠ 0)
    (hdown : s.dev.on R.MAC_PORT_STATUS_up 0 (16 * p) = false) :
    ∃ t, exec (.portUp p) s = .next t ∧ t.dev.on R.MAC_PORT_STATUS_up 0 (16 * p) = true ∧ t.dev.on (macCauses.bit 0) = true ∧
      ∀ m ∈ s.dev.instancesOf p, t.dev.macUp m = true := by
  obtain ⟨d, hd⟩ : ∃ d, Dev.each (s.dev.lanesOf p) (fun l d => (d.wr R.MAC_LANE_STATUS_state 3 l).cause laneCauses 1 l) s.dev = d := ⟨_, rfl⟩
  obtain ⟨hlanes, hboot, -⟩ := Dev.lanesShown hp (by decide) s.dev hd.symm
  obtain ⟨e, he⟩ : ∃ e, (d.wr R.MAC_PORT_STATUS_up 1 0 (16 * p)).wr R.MAC_PORT_STATUS_flexe_lock (d.rd R.MAC_PORT_CFG_flexe 0 (16 * p)) 0
    (16 * p) = e := ⟨_, rfl⟩
  have hup : e.on R.MAC_PORT_STATUS_up 0 (16 * p) = true := by
    rw [← he, Dev.on, Dev.rd_wr_at _ _ _ _ _ _ (by decide), Dev.rd_wr_self]
    rfl
  have hsame : e.instancesOf p = s.dev.instancesOf p := by
    refine Eq.trans ?_ (Dev.instancesOf_of_regs hboot hlanes hp)
    rw [← he]
    refine Dev.instancesOf_congr ((Dev.wr_boot ..).trans (Dev.wr_boot ..)) ?_
    rw [Dev.on, Dev.rd_wr_at _ _ _ _ _ _ (by decide), Dev.rd_wr_at _ _ _ _ _ _ (by decide)]
    rfl
  obtain ⟨x, hx⟩ : ∃ x, Dev.each (e.instancesOf p) (fun m d => d.wr R.MAC_INST_STATE_up 1 0 (4 * m)) e = x := ⟨_, rfl⟩
  have hxregs : e.regsSame portKey x := by
    rw [← hx]
    exact Dev.regsSame_each (fun m e he => he.wr _ _ _ _ (not_portKey_state _ _ rfl (by decide))) e.regsSame_refl
  have hxup (m : Nat) (hm : m ∈ e.instancesOf p) : x.macUp m = true := by
    rw [← hx]
    refine Dev.each_reaches (Q := fun e => e.macUp m = true) hm (fun e => ?_) (fun b _ e he => ?_) e
    · rw [Dev.macUp, Dev.on, Dev.rd_wr_self]
      rfl
    · by_cases hsame : m = b
      · subst hsame
        rw [Dev.macUp, Dev.on, Dev.rd_wr_self]
        rfl
      · rw [Dev.macUp, Dev.on, Dev.rd_wr_ne _ _ _ _ _ _ _ _ (by simp only [Field.key]; omega)]
        exact he
  have hexec : exec (.portUp p) s = .next { s with dev := x.cause macCauses 0 } := by
    rw [show exec (.portUp p) s = execPortUp p s from rfl, execPortUp, State.onLive_live _ (.inl h), Dev.portUp]
    dsimp only
    rw [hdown, Bool.or_false, decide_eq_false hspeed, if_neg Bool.false_ne_true, hd, he, hx]
  refine ⟨_, hexec, ?_, Dev.cause_on .., fun m hm => ?_⟩
  · show Dev.on _ _ _ _ = _
    rw [Dev.on, Dev.rd_cause_ne _ _ _ _ _ _ _ (by simp only [Field.key, Causes.bit, macCauses, R.MAC_PORT_STATUS_up]; omega)]
    exact (hxregs.on (portKey_of _ _ rfl (by decide) (by simp only [R.MAC_PORT_STATUS_up]; omega) (by decide))).trans hup
  · show Dev.on _ _ _ _ = _
    rw [Dev.on, Dev.rd_cause_ne _ _ _ _ _ _ _ (by simp only [Field.key, Causes.bit, macCauses, R.MAC_INST_STATE_up]; omega)]
    exact hxup m (hsame ▸ hm)

end

/-- The registers of a port that goes down. -/
def Dev.portLost (p : Nat) (d : Dev) : Dev :=
  (((d.wr R.MAC_PORT_STATUS_up 0 0 (16 * p)).wr R.MAC_PORT_STATUS_flexe_lock 0 0 (16 * p)).wr R.MAC_PORT_STATUS_lpi_tx 0 0 (16 * p)).wr
    R.MAC_PORT_STATUS_lpi_rx 0 0 (16 * p)

/-- What the instances of a port count when a frame that one of them was receiving is cut. -/
theorem Dev.cutCounted {l : List Nat} (hl : l.Nodup) (d : Dev) {m : Nat} (hm : m ∈ l) :
    (Dev.each l (fun m d => d.countMac m 2) d).macCount m 2 = (d.macCount m 2 + 1) % 2 ^ 64 := by
  have hother (n : Nat) (e : Dev) (hn : m ≠ n) : (e.countMac n 2).macCount m 2 = e.macCount m 2 :=
    Dev.macCount_countMac_ne e 1 (by decide) (by decide) (.inl hn)
  induction l generalizing d with
  | nil => exact absurd hm List.not_mem_nil
  | cons n l ih =>
    obtain ⟨hnew, hrest⟩ := List.nodup_cons.1 hl
    rcases List.mem_cons.1 hm with rfl | hin
    · have hkept : (Dev.each l (fun m d => d.countMac m 2) (d.countMac m 2)).macCount m 2 = (d.countMac m 2).macCount m 2 :=
        Dev.each_keeps (P := fun e => e.macCount m 2 = (d.countMac m 2).macCount m 2)
          (fun b hb e he => (hother b e fun hsame => hnew (hsame ▸ hb)).trans he) rfl
      exact hkept.trans (Dev.macCount_countMac_self ..)
    · refine (ih hrest (d.countMac n 2) hin).trans ?_
      rw [hother n d fun hsame => hnew (hsame ▸ hin)]

/-- A port that is up goes down with its instances. -/
theorem Dev.portDown_holds {p : Nat} {d : Dev} (hp : p < 32) (hinst : ∀ m ∈ d.instancesOf p, m < 256) (hup : d.on R.MAC_PORT_STATUS_up 0
    (16 * p) = true)
    (cut : List Nat) :
    (d.portDown p cut).on R.MAC_PORT_STATUS_up 0 (16 * p) = false ∧ (d.portDown p cut).on (macCauses.bit 0) = true ∧
      ∀ m ∈ d.instancesOf p, (d.portDown p cut).instIsDown m ∧ (m ∈ cut → (d.portDown p cut).macCount m 2 = (d.macCount m 2 + 1) % 2 ^ 64) := by
  obtain ⟨a, ha⟩ : ∃ a, Dev.each ((d.instancesOf p).filter cut.contains) (fun m d => d.countMac m 2) d = a := ⟨_, rfl⟩
  have hcounted : a.regs = d.regs ∧ a.boot = d.boot := by
    rw [← ha]
    exact Dev.each_induct (fun e => e.regs = d.regs ∧ e.boot = d.boot) _ _ _ ⟨rfl, rfl⟩ fun _ _ he => he
  obtain ⟨haregs, haboot⟩ := hcounted
  obtain ⟨b, hb⟩ : ∃ b, Dev.each (a.lanesOf p) (fun l d => (d.wr R.MAC_LANE_STATUS_state 1 l).cause laneCauses 0 l) a = b := ⟨_, rfl⟩
  obtain ⟨hbregs, hbboot, hbcounts, -⟩ := Dev.lanesShown hp (by decide) a hb.symm
  obtain ⟨c, hc⟩ : ∃ c, b.portLost p = c := ⟨_, rfl⟩
  have hcup : c.on R.MAC_PORT_STATUS_up 0 (16 * p) = false := by
    rw [← hc, Dev.portLost, Dev.on, Dev.rd_wr_at _ _ _ _ _ _ (by decide), Dev.rd_wr_at _ _ _ _ _ _ (by decide),
      Dev.rd_wr_at _ _ _ _ _ _ (by decide), Dev.rd_wr_self]
    rfl
  have hcboot : c.boot = b.boot ∧ c.macCounts = b.macCounts := by
    rw [← hc]
    exact ⟨rfl, rfl⟩
  obtain ⟨hcboot, hccounts⟩ := hcboot
  have hsame : c.instancesOf p = d.instancesOf p := by
    have hcal : c.on R.MAC_PORT_STATUS_cal_b 0 (16 * p) = b.on R.MAC_PORT_STATUS_cal_b 0 (16 * p) := by
      rw [← hc, Dev.portLost, Dev.on, Dev.rd_wr_at _ _ _ _ _ _ (by decide), Dev.rd_wr_at _ _ _ _ _ _ (by decide),
        Dev.rd_wr_at _ _ _ _ _ _ (by decide), Dev.rd_wr_at _ _ _ _ _ _ (by decide)]
      rfl
    exact (Dev.instancesOf_congr hcboot hcal).trans
      (Dev.instancesOf_of_regs (hbboot.trans haboot) ((Dev.regsSame_of_regs haregs).trans hbregs) hp)
  obtain ⟨hdown, heregs, -, hcounts⟩ := Dev.instsDown hinst c
  obtain ⟨e, he⟩ : ∃ e, Dev.each (d.instancesOf p) Dev.instDown c = e := ⟨_, rfl⟩
  rw [he] at hdown heregs hcounts
  have hport : d.portDown p cut = e.cause macCauses 0 := by
    rw [Dev.portDown]
    dsimp only
    rw [hup, Bool.not_true, if_neg Bool.false_ne_true, ha, hb]
    rw [← he, ← hsame, ← hc]
    rfl
  have hbesides := Dev.cause_besides e macCauses 0 0 (List.Subset.refl _)
  rw [hport]
  refine ⟨?_, Dev.cause_on .., fun m hm => ⟨?_, fun hcut => ?_⟩⟩
  · rw [Dev.on, Dev.rd_cause_ne _ _ _ _ _ _ _ (by simp only [Field.key, Causes.bit, macCauses, R.MAC_PORT_STATUS_up]; omega)]
    exact (heregs.on (portKey_of _ _ rfl (by decide) (by simp only [R.MAC_PORT_STATUS_up]; omega) (by decide))).trans hcup
  · obtain ⟨hmup, hfifo, hlaunch, hpaused⟩ := hdown m hm
    have hmacs := Dev.mac_congr (Dev.macs_of_besides hbesides) m
    refine ⟨?_, by rw [hmacs, hfifo], by rw [hmacs, hlaunch], ?_⟩
    · rw [Dev.macUp, Dev.on, Dev.rd_cause_ne _ _ _ _ _ _ _ (by simp only [Field.key, Causes.bit, macCauses, R.MAC_INST_STATE_up]; omega)]
      exact hmup
    · rw [Dev.rd_cause_ne _ _ _ _ _ _ _ (by simp only [Field.key, Causes.bit, macCauses, R.MAC_INST_STATE_paused]; omega), hpaused]
  · have hin : m ∈ (d.instancesOf p).filter cut.contains := List.mem_filter.2 ⟨hm, List.contains_iff_mem.2 hcut⟩
    rw [Dev.macCount_congr (Dev.macCounts_of_besides hbesides), hcounts m 2 (by decide) (by decide),
        Dev.macCount_congr (hccounts.trans hbcounts), ← ha,
      Dev.cutCounted ((d.instancesOf_nodup p).filter _) d hin]

section
variable {p : Nat} {s : State} (h : s.dev.phase = .running) (hp : p < 32) (hinst : ∀ m ∈ s.dev.instancesOf p, m < 256)
  (hup : s.dev.on R.MAC_PORT_STATUS_up 0 (16 * p) = true)
include h hp hinst hup

theorem exec_portDown_shows (cut : List Nat) :
    ∃ t, exec (.portDown ⟨p, cut⟩) s = .next t ∧ t.dev.on R.MAC_PORT_STATUS_up 0 (16 * p) = false ∧ t.dev.on (macCauses.bit 0) = true ∧
      ∀ m ∈ s.dev.instancesOf p, t.dev.macUp m = false ∧ (t.dev.mac m).fifo = [] ∧ (t.dev.mac m).launch = [] ∧
        t.dev.rd R.MAC_INST_STATE_paused 0 (4 * m) = 0 ∧ (m ∈ cut → t.dev.macCount m 2 = (s.dev.macCount m 2 + 1) % 2 ^ 64) := by
  obtain ⟨hdown, hcause, hinsts⟩ := Dev.portDown_holds hp hinst hup cut
  refine ⟨_, State.onLive_live _ (.inl h), hdown, hcause, fun m hm => ?_⟩
  obtain ⟨⟨hmup, hfifo, hlaunch, hpaused⟩, hcount⟩ := hinsts m hm
  exact ⟨hmup, hfifo, hlaunch, hpaused, hcount⟩

theorem exec_flexeOverheadLockLoss_shows (cut : List Nat) (hlock : s.dev.on R.MAC_PORT_STATUS_flexe_lock 0 (16 * p) = true) :
    ∃ t, exec (.flexeOverheadLockLoss ⟨p, cut⟩) s = .next t ∧ t.dev.on R.MAC_PORT_STATUS_up 0 (16 * p) = false ∧
      t.dev.on (macCauses.bit 5) = true := by
  obtain ⟨hdown, -⟩ := Dev.portDown_holds hp hinst hup cut
  refine ⟨{ s with dev := (s.dev.portDown p cut).cause macCauses 5 }, ?_, ?_, Dev.cause_on ..⟩
  · refine (State.onLive_live _ (.inl h)).trans ?_
    rw [hlock, if_pos rfl]
  · show Dev.on _ _ _ _ = _
    rw [Dev.on, Dev.rd_cause_ne _ _ _ _ _ _ _ (by simp only [Field.key, Causes.bit, macCauses, R.MAC_PORT_STATUS_up]; omega)]
    exact hdown

end

/-! ## Low-power idle (R355) -/

section
variable {p : Nat} {s : State} (h : s.dev.phase = .running)
include h

theorem exec_peerLpiChange_shows (hup : s.dev.on R.MAC_PORT_STATUS_up 0 (16 * p) = true) (lpi : Bool) :
    ∃ t, exec (.peerLpiChange p lpi) s = .next t ∧ t.dev.on R.MAC_PORT_STATUS_lpi_rx 0 (16 * p) = lpi ∧ t.dev.out = s.dev.out := by
  refine ⟨{ s with dev := s.dev.wr R.MAC_PORT_STATUS_lpi_rx lpi.toNat 0 (16 * p) }, ?_, ?_, rfl⟩
  · refine (State.onLive_live _ (.inl h)).trans ?_
    rw [hup, if_pos rfl]
  · show Dev.on _ _ _ _ = _
    rw [Dev.on, Dev.rd_wr_self]
    cases lpi <;> rfl

theorem exec_lpiIdleExpiry_enters (hup : s.dev.on R.MAC_PORT_STATUS_up 0 (16 * p) = true)
    (heee : s.dev.on R.MAC_PORT_CFG_eee_enable 0 (16 * p) = true) (hspeed : s.dev.portSpeed p = 1)
    (hlpi : s.dev.on R.MAC_PORT_STATUS_lpi_tx 0 (16 * p) = false)
    (hempty : ∀ m ∈ s.dev.instancesOf p, (s.dev.mac m).fifo = [] ∧ (s.dev.mac m).launch = []) (htimed : s.dev.timedWaiting p = false) :
    ∃ t, exec (.lpiIdleExpiry p) s = .next t ∧ t.dev.on R.MAC_PORT_STATUS_lpi_tx 0 (16 * p) = true ∧ t.dev.out = s.dev.out ++ [.lpi p true] := by
  have hall : (s.dev.instancesOf p).all (fun m => (s.dev.mac m).fifo.isEmpty && (s.dev.mac m).launch.isEmpty) = true := by
    refine List.all_eq_true.2 fun m hm => ?_
    obtain ⟨hfifo, hlaunch⟩ := hempty m hm
    rw [hfifo, hlaunch]
    rfl
  obtain ⟨e, he⟩ : ∃ e, (s.dev.wr R.MAC_PORT_STATUS_lpi_tx 1 0 (16 * p)).emit (.lpi p true) = e := ⟨_, rfl⟩
  obtain ⟨x, hx⟩ : ∃ x, Dev.each (s.dev.instancesOf p) (fun m d => d.countMac m 18) e = x := ⟨_, rfl⟩
  have hcounted : x.regs = e.regs ∧ x.out = e.out := by
    rw [← hx]
    exact Dev.each_induct (fun x => x.regs = e.regs ∧ x.out = e.out) _ _ _ ⟨rfl, rfl⟩ fun _ _ hx => hx
  obtain ⟨hregs, hout⟩ := hcounted
  refine ⟨{ s with dev := x }, ?_, ?_, ?_⟩
  · refine (State.onLive_live _ (.inl h)).trans ?_
    rw [Dev.enterLpi]
    rw [heee, hspeed, hup, hlpi, hall, htimed, if_pos (by rfl), he, hx]
  · show Dev.on _ _ _ _ = _
    rw [Dev.on, Dev.rd_congr hregs, ← he]
    exact Dev.on_wr_one s.dev _ (by decide)
  · show Dev.out _ = _
    rw [hout, ← he]
    rfl

end

/-! ## Lanes (R356, R357) -/

section
variable {l : Nat} {s : State} (h : s.dev.phase = .running)
include h

theorem exec_laneCalibrationDone_shows (v : Nat) (hport : (s.dev.portOfLane l).isSome = true) :
    ∃ t, exec (.laneCalibrationDone l v) s = .next t ∧ t.dev.rd R.MAC_LANE_CAL_int_rx l = bits v 0 16 ∧
      t.dev.rd R.MAC_LANE_CAL_int_tx l = bits v 16 16 ∧ t.dev.on R.MAC_LANE_STATUS_cal_valid l = true ∧ t.dev.on (laneCauses.bit 3) l = true := by
  obtain ⟨d, hd⟩ : ∃ d, ((s.dev.wr R.MAC_LANE_CAL_int_rx (bits v 0 16) l).wr R.MAC_LANE_CAL_int_tx (bits v 16 16) l).wr
      R.MAC_LANE_STATUS_cal_valid 1 l = d := ⟨_, rfl⟩
  refine ⟨{ s with dev := d.cause laneCauses 3 l }, ?_, ?_, ?_, ?_, Dev.cause_on ..⟩
  · show execLaneCalibrationDone l v s = _
    rw [execLaneCalibrationDone, State.onLive_live _ (.inl h)]
    rw [← Option.not_isSome, hport, Bool.not_true, if_neg Bool.false_ne_true, hd]
  · show Dev.rd _ _ _ _ = _
    rw [Dev.rd_cause_at _ _ _ _ _ (by decide), ← hd, Dev.rd_wr_at _ _ _ _ _ _ (by decide), Dev.rd_wr_at _ _ _ _ _ _ (by decide), Dev.rd_wr_self]
    exact Nat.mod_mod ..
  · show Dev.rd _ _ _ _ = _
    rw [Dev.rd_cause_at _ _ _ _ _ (by decide), ← hd, Dev.rd_wr_at _ _ _ _ _ _ (by decide), Dev.rd_wr_self]
    exact Nat.mod_mod ..
  · show Dev.on _ _ _ _ = _
    rw [Dev.on, Dev.rd_cause_at _ _ _ _ _ (by decide), ← hd, Dev.rd_wr_self]
    rfl

theorem exec_laneCalCheck_shows (drift : Nat) (hvalid : s.dev.on R.MAC_LANE_STATUS_cal_valid l = true) :
    (250 < drift → ∃ t, exec (.laneCalCheck l drift) s = .next t ∧ t.dev.on R.MAC_LANE_STATUS_cal_valid l = false ∧
      t.dev.on (laneCauses.bit 4) l = true) ∧
    (drift ≤ 250 → exec (.laneCalCheck l drift) s = .next s) := by
  refine ⟨fun hfar => ⟨{ s with dev := (s.dev.wr R.MAC_LANE_STATUS_cal_valid 0 l).cause laneCauses 4 l }, ?_, ?_, Dev.cause_on ..⟩, fun hnear => ?_⟩
  · refine (State.onLive_live _ (.inl h)).trans ?_
    rw [hvalid, decide_eq_true hfar, Bool.and_true, if_pos rfl]
  · show Dev.on _ _ _ _ = _
    rw [Dev.on, Dev.rd_cause_at _ _ _ _ _ (by decide), Dev.rd_wr_self]
    rfl
  · refine (State.onLive_live _ (.inl h)).trans ?_
    rw [decide_eq_false (Nat.not_lt.2 hnear), Bool.false_and, if_neg Bool.false_ne_true]

end

/-! ## Calendars (R347) -/

/-- Instances take the rates of a calendar. -/
theorem Dev.regsSame_rates {l : List Nat} {d e : Dev} (p : Nat) (b : Bool) (hl : ∀ m ∈ l, m < 256) (hsame : d.regsSame portKey e) :
    d.regsSame portKey (Dev.each l (fun m d => d.wr R.SCH_PORT_rate_gbps (d.rateUnder p m b) 0 (4 * m)) e) := by
  refine Dev.each_keeps (P := fun e => d.regsSame portKey e) (fun m hm e he => ?_) hsame
  have hlow := hl m hm
  exact he.wr _ _ _ _ (not_portKey_unit _ _ _ (.inl (by decide)) (by decide) (by simp only [R.SCH_PORT_rate_gbps]; omega) (by decide))

/-- Instances that come in come up where the port is up. -/
theorem Dev.regsSame_come {d e : Dev} (up : Bool) (l : List Nat) (hsame : d.regsSame portKey e) :
    d.regsSame portKey (if up then Dev.each l (fun m d => d.wr R.MAC_INST_STATE_up 1 0 (4 * m)) e else e) := by
  split
  · exact Dev.regsSame_each (fun m e he => he.wr _ _ _ _ (not_portKey_state _ _ rfl (by decide))) hsame
  · exact hsame

/-- What a port shows while its calendar changes. -/
def Dev.calendarShown (p : Nat) (d : Dev) : Dev :=
  (d.wr R.MAC_PORT_STATUS_cal_b (!d.on R.MAC_PORT_STATUS_cal_b 0 (16 * p)).toNat 0 (16 * p)).wr R.MAC_PORT_STATUS_switch_busy 0 0 (16 * p)

section
variable {p : Nat} {s : State} (h : s.dev.phase = .running)
include h

theorem exec_flexeCalendarSwitch_asks {r : PortRec} (hrec : s.dev.portRec p = some r) (hflexe : r.flexe = true) (hcal : r.calB = true)
    (hbusy : s.dev.on R.MAC_PORT_STATUS_switch_busy 0 (16 * p) = false) :
    ∃ t, exec (.flexeCalendarSwitch p) s = .next t ∧ t.dev.on R.MAC_PORT_STATUS_switch_busy 0 (16 * p) = true ∧
      t.dev.out = s.dev.out ++ [.flexeRequest p] := by
  refine ⟨{ s with dev := (s.dev.wr R.MAC_PORT_STATUS_switch_busy 1 0 (16 * p)).emit (.flexeRequest p) }, ?_, ?_, rfl⟩
  · refine (State.onRun_running _ h).trans ?_
    rw [Dev.flexeCommand]
    rw [hrec]
    dsimp only
    rw [hflexe, hcal, hbusy, Bool.not_true, Bool.or_false, if_neg Bool.false_ne_true, if_neg Bool.false_ne_true]
  · exact Dev.on_wr_one s.dev _ (by decide)

section
variable (hbusy : s.dev.on R.MAC_PORT_STATUS_switch_busy 0 (16 * p) = true) (hp : p < 32)
include hbusy hp

theorem exec_flexeSwitchTimeout_fails :
    ∃ t, exec (.flexeSwitchTimeout p) s = .next t ∧ t.dev.on R.MAC_PORT_STATUS_switch_busy 0 (16 * p) = false ∧
      t.dev.on R.MAC_PORT_STATUS_cal_b 0 (16 * p) = s.dev.on R.MAC_PORT_STATUS_cal_b 0 (16 * p) ∧ t.dev.on (macCauses.bit 5) = true := by
  refine ⟨{ s with dev := (s.dev.wr R.MAC_PORT_STATUS_switch_busy 0 0 (16 * p)).cause macCauses 5 }, ?_, ?_, ?_, Dev.cause_on ..⟩
  · refine (State.onLive_live _ (.inl h)).trans ?_
    rw [hbusy, if_pos rfl]
  · show Dev.on _ _ _ _ = _
    rw [Dev.on, Dev.rd_cause_ne _ _ _ _ _ _ _ (by simp only [Field.key, Causes.bit, macCauses, R.MAC_PORT_STATUS_switch_busy]; omega), Dev.rd_wr_self]
    rfl
  · show Dev.on _ _ _ _ = _
    rw [Dev.on, Dev.rd_cause_ne _ _ _ _ _ _ _ (by simp only [Field.key, Causes.bit, macCauses, R.MAC_PORT_STATUS_cal_b]; omega),
      Dev.rd_wr_at _ _ _ _ _ _ (by decide)]
    rfl

theorem exec_flexeSwitchDone_turns (hup : s.dev.on R.MAC_PORT_STATUS_up 0 (16 * p) = true) (hinst : ∀ m b, m ∈ s.dev.instancesUnder p b → m < 256) :
    ∃ t, exec (.flexeSwitchDone p) s = .next t ∧ t.dev.on R.MAC_PORT_STATUS_switch_busy 0 (16 * p) = false ∧
      t.dev.on R.MAC_PORT_STATUS_cal_b 0 (16 * p) = (!s.dev.on R.MAC_PORT_STATUS_cal_b 0 (16 * p)) ∧ t.dev.on (macCauses.bit 4) = true := by
  obtain ⟨c, hc⟩ : ∃ c, s.dev.calendarShown p = c := ⟨_, rfl⟩
  have hcbusy : c.on R.MAC_PORT_STATUS_switch_busy 0 (16 * p) = false := by
    rw [← hc, Dev.calendarShown, Dev.on, Dev.rd_wr_self]
    rfl
  have hccal : c.on R.MAC_PORT_STATUS_cal_b 0 (16 * p) = (!s.dev.on R.MAC_PORT_STATUS_cal_b 0 (16 * p)) := by
    rw [← hc, Dev.calendarShown, Dev.on, Dev.rd_wr_at _ _ _ _ _ _ (by decide), Dev.rd_wr_self]
    cases s.dev.on R.MAC_PORT_STATUS_cal_b 0 (16 * p) <;> rfl
  obtain ⟨x, hx, hxregs⟩ : ∃ x, s.dev.flexeSwitch p = x.cause macCauses 4 ∧ c.regsSame portKey x := by
    rw [Dev.flexeSwitch]
    dsimp only
    rw [hbusy, hup, Bool.not_true, Bool.or_false, if_neg Bool.false_ne_true]
    rw [Dev.calendarShown] at hc
    rw [hc]
    have hunder : ∀ b, ∀ m ∈ s.dev.instancesUnder p b, m < 256 := fun b m hm => hinst m b hm
    obtain ⟨-, hgone, -⟩ := Dev.instsDown (l := (s.dev.instancesUnder p (s.dev.on R.MAC_PORT_STATUS_cal_b 0 (16 * p))).filter
      (fun m => !(s.dev.instancesUnder p (!s.dev.on R.MAC_PORT_STATUS_cal_b 0 (16 * p))).contains m)) (fun m hm => hunder _ m
          (List.mem_filter.1 hm).1) c
    refine ⟨_, rfl, ?_⟩
    have hrates := Dev.regsSame_rates (l := s.dev.instancesUnder p (s.dev.on R.MAC_PORT_STATUS_cal_b 0 (16 * p)) ++
        s.dev.instancesUnder p (!s.dev.on R.MAC_PORT_STATUS_cal_b 0 (16 * p))) p (!s.dev.on R.MAC_PORT_STATUS_cal_b 0 (16 * p))
      (fun m hm => (List.mem_append.1 hm).elim (hunder _ m) (hunder _ m)) hgone
    generalize Dev.each (_ ++ _) _ _ = y at hrates ⊢
    have hcome := Dev.regsSame_come (y.on R.MAC_PORT_STATUS_up 0 (16 * p)) ((s.dev.instancesUnder p (!s.dev.on R.MAC_PORT_STATUS_cal_b 0
        (16 * p))).filter
      (fun m => !(s.dev.instancesUnder p (s.dev.on R.MAC_PORT_STATUS_cal_b 0 (16 * p))).contains m)) hrates
    split
    · exact hcome
    · exact hcome.cause _ _ _ (not_portKey_cause 0 (by decide))
  refine ⟨{ s with dev := x.cause macCauses 4 }, ?_, ?_, ?_, Dev.cause_on ..⟩
  · rw [← hx]
    exact State.onLive_live _ (.inl h)
  · show Dev.on _ _ _ _ = _
    rw [Dev.on, Dev.rd_cause_ne _ _ _ _ _ _ _ (by simp only [Field.key, Causes.bit, macCauses, R.MAC_PORT_STATUS_switch_busy]; omega)]
    exact (hxregs.on (portKey_of _ _ rfl (by decide) (by simp only [R.MAC_PORT_STATUS_switch_busy]; omega) (by decide))).trans hcbusy
  · show Dev.on _ _ _ _ = _
    rw [Dev.on, Dev.rd_cause_ne _ _ _ _ _ _ _ (by simp only [Field.key, Causes.bit, macCauses, R.MAC_PORT_STATUS_cal_b]; omega)]
    exact (hxregs.on (portKey_of _ _ rfl (by decide) (by simp only [R.MAC_PORT_STATUS_cal_b]; omega) (by decide))).trans hccal

end

end

end Sys2Proof.Machine
end

section
/-!
Received pause (R316, R352).
-/

namespace Sys2Proof.Machine

/-! ## Bits of the paused classes and of those in storm (R352, R354) -/

section
variable {m : Nat} (v : Nat) (d : Dev)

theorem Dev.paused_setPaused {c : Nat} (hc : c < 8) : (d.setPaused m v).paused m c = hasBit v c := by
  rw [Dev.paused, Dev.rd_setPaused]
  exact hasBit_mod v hc

theorem Dev.schedPaused_setPaused {c : Nat} (hc : c < 8) : hasBit ((d.setPaused m v).rd R.SCH_PORT_paused 0 (4 * m)) c = hasBit v c := by
  rw [Dev.setPaused, Dev.rd_wr_self]
  exact hasBit_mod v hc

theorem Dev.stormy_setPaused (hm : m < 256) (c : Nat) : (d.setPaused m v).stormy m c = d.stormy m c := by
  rw [Dev.stormy, Dev.rd_setPaused_ne _ rfl hm (by simp only [R.MAC_INST_STATE_storm]; omega) (by decide) (Field.key_ne_at _ _
      (by decide)), Dev.stormy]

/-- The bits of the classes in storm are stored. -/
def Dev.setStorm (m v : Nat) (d : Dev) : Dev := d.wr R.MAC_INST_STATE_storm v 0 (4 * m)

theorem Dev.stormy_setStorm {c : Nat} (hc : c < 8) : (d.setStorm m v).stormy m c = hasBit v c := by
  rw [Dev.stormy, Dev.setStorm, Dev.rd_wr_self]
  exact hasBit_mod v hc

theorem Dev.paused_setStorm (c : Nat) : (d.setStorm m v).paused m c = d.paused m c := by
  rw [Dev.paused, Dev.setStorm, Dev.rd_wr_at _ _ _ _ _ _ (by decide), Dev.paused]

end

theorem Dev.pauseScope_mem (d : Dev) (m : Nat) {cls : Nat} (hcls : cls < 8) : cls ∈ d.pauseScope m cls := by
  unfold Dev.pauseScope
  split
  · exact List.mem_range.2 hcls
  · exact List.mem_singleton.2 rfl

theorem Dev.pauseScope_one {d : Dev} {m : Nat} (hmode : d.fcMode m ≠ 1) (cls : Nat) : d.pauseScope m cls = [cls] := if_neg hmode

/-- What one element of a loop establishes from what the others keep, and every element keeps, holds after the loop. -/
theorem Dev.each_turns {α : Type} {P Q : Dev → Prop} {l : List α} {f : α → Dev → Dev} {a : α} (hmem : a ∈ l) (establish : ∀ e, P e → Q (f a e))
    (wait : ∀ b ∈ l, b ≠ a → ∀ e, P e → P (f b e)) (keep : ∀ b ∈ l, ∀ e, Q e → Q (f b e)) {d : Dev} (h : P d) : Q (Dev.each l f d) := by
  induction l generalizing d with
  | nil => exact absurd hmem List.not_mem_nil
  | cons b l ih =>
    have hkeep : ∀ c ∈ l, ∀ e, Q e → Q (f c e) := fun c hc => keep c (List.mem_cons_of_mem b hc)
    by_cases hsame : b = a
    · subst hsame
      exact Dev.each_keeps hkeep (establish d h)
    · exact ih (List.mem_of_ne_of_mem (Ne.symm hsame) hmem) (fun c hc => wait c (List.mem_cons_of_mem b hc)) hkeep
          (wait b List.mem_cons_self hsame d h)

/-! ## A received pause (R352) -/

/-- The paused classes once a time came for class `c`. -/
def pausedAfter (now c time : Nat) : Nat := if time = 0 then clearBit now c else setBit now c

theorem hasBit_pausedAfter (now c time k : Nat) : hasBit (pausedAfter now c time) k = if k = c then time != 0 else hasBit now k := by
  unfold pausedAfter
  by_cases htime : time = 0
  · rw [if_pos htime, hasBit_clearBit, htime]
    by_cases hk : k = c <;> simp [hk]
  · rw [if_neg htime, hasBit_setBit]
    by_cases hk : k = c <;> simp [hk, htime]

/-- A time that comes while the class is in no storm is acted on. -/
theorem Dev.pauseClass_acts {m c : Nat} (time : Nat) {d : Dev} (hcalm : d.stormy m c = false) :
    ∃ x : Dev, d.pauseClass m c time = x.setPaused m (pausedAfter (d.rd R.MAC_INST_STATE_paused 0 (4 * m)) c time) ∧ x.regs = d.regs ∧
      x.out = d.out := by
  obtain ⟨e, he⟩ : ∃ e, (if time = 0 then d else d.onMac m (fun x => { x with lastPause := x.lastPause.set c d.uptime })) = e := ⟨_, rfl⟩
  have hsame : e.regs = d.regs ∧ e.out = d.out := by
    rw [← he]
    split <;> exact ⟨rfl, rfl⟩
  obtain ⟨hregs, hout⟩ := hsame
  have hno : e.stormy m c = false := by rw [Dev.stormy, Dev.rd_congr hregs]; exact hcalm
  rw [Dev.pauseClass]
  dsimp only
  rw [he, hno, if_neg Bool.false_ne_true, Dev.rd_congr hregs]
  unfold pausedAfter
  by_cases htime : time = 0
  · rw [if_pos htime, if_pos htime]
    exact ⟨e, rfl, hregs, hout⟩
  · rw [if_neg htime, if_neg htime]
    split
    · exact ⟨e, rfl, hregs, hout⟩
    · exact ⟨_, rfl, hregs, hout⟩

/-- Class `c` of instance `m` stands so, to the scheduler as well, and the instance is in no storm. -/
structure Dev.pauseStands (m c : Nat) (paused : Bool) (d : Dev) : Prop where
  calm : d.rd R.MAC_INST_STATE_storm 0 (4 * m) = 0
  bit : d.paused m c = paused
  sched : hasBit (d.rd R.SCH_PORT_paused 0 (4 * m)) c = paused

section
variable {m : Nat} (hm : m < 256)
include hm

/-- The class is paused, or resumed by a time of zero; another class stands as it did. -/
theorem Dev.pauseClass_calm (c time : Nat) {d : Dev} (hcalm : d.rd R.MAC_INST_STATE_storm 0 (4 * m) = 0) :
    (d.pauseClass m c time).out = d.out ∧
      ∀ k, k < 8 → (d.pauseClass m c time).pauseStands m k (if k = c then time != 0 else d.paused m k) := by
  have hno : d.stormy m c = false := by rw [Dev.stormy, hcalm, hasBit_eq_testBit, Nat.zero_testBit]
  obtain ⟨x, hx, hregs, hout⟩ := Dev.pauseClass_acts time hno
  rw [hx]
  refine ⟨hout, fun k hk => ⟨?_, ?_, ?_⟩⟩
  · rw [Dev.rd_setPaused_ne _ rfl hm (by simp only [R.MAC_INST_STATE_storm]; omega) (by decide) (Field.key_ne_at _ _ (by decide)), Dev.rd_congr hregs,
      hcalm]
  · rw [Dev.paused_setPaused _ _ hk, hasBit_pausedAfter, Dev.paused]
  · rw [Dev.schedPaused_setPaused _ _ hk, hasBit_pausedAfter, Dev.paused]

/-- Times come for several classes: one for which a time came stands as it says. -/
theorem Dev.pauseClasses {l : List Nat} (times : Nat → Nat) {d : Dev} (hcalm : d.rd R.MAC_INST_STATE_storm 0 (4 * m) = 0) :
    (Dev.each l (fun c d => d.pauseClass m c (times c)) d).out = d.out ∧
      (∀ c, c < 8 → c ∈ l → (Dev.each l (fun c d => d.pauseClass m c (times c)) d).pauseStands m c (times c != 0)) ∧
      ∀ c, c < 8 → c ∉ l → (Dev.each l (fun c d => d.pauseClass m c (times c)) d).paused m c = d.paused m c := by
  have hkeep (c : Nat) (hc : c < 8) (b : Nat) (e : Dev) (he : e.pauseStands m c (times c != 0)) : (e.pauseClass m b
      (times b)).pauseStands m c (times c != 0) := by
    have hstands := (Dev.pauseClass_calm hm b (times b) he.calm).2 c hc
    by_cases hsame : c = b
    · subst hsame
      rwa [if_pos rfl] at hstands
    · rwa [if_neg hsame, he.bit] at hstands
  refine ⟨?_, fun c hc hin => ?_, fun c hc hout => ?_⟩
  · refine (Dev.each_induct (fun e => e.rd R.MAC_INST_STATE_storm 0 (4 * m) = 0 ∧ e.out = d.out) _ _ _ ⟨hcalm, rfl⟩ fun b e he => ?_).2
    obtain ⟨hout, hstands⟩ := Dev.pauseClass_calm hm b (times b) he.1
    exact ⟨(hstands 0 (by decide)).calm, hout.trans he.2⟩
  · refine Dev.each_turns (P := fun e => e.rd R.MAC_INST_STATE_storm 0 (4 * m) = 0) (Q := fun e => e.pauseStands m c (times c != 0)) hin
      (fun e he => ?_) (fun b _ _ e he => ?_) (fun b _ e he => hkeep c hc b e he) hcalm
    · have hstands := (Dev.pauseClass_calm hm c (times c) he).2 c hc
      rwa [if_pos rfl] at hstands
    · exact ((Dev.pauseClass_calm hm b (times b) he).2 c hc).calm
  · refine (Dev.each_keeps (P := fun e => e.rd R.MAC_INST_STATE_storm 0 (4 * m) = 0 ∧ e.paused m c = d.paused m c)
        (fun b hb e he => ?_) ⟨hcalm, rfl⟩).2
    have hstands := (Dev.pauseClass_calm hm b (times b) he.1).2 c hc
    rw [if_neg fun hsame : c = b => hout (hsame ▸ hb)] at hstands
    exact ⟨hstands.calm, hstands.bit.trans he.2⟩

end

section
variable {m : Nat} {s : State} (h : s.dev.phase = .running) (hm : m < 256)
include h hm

theorem exec_pauseFrame_acts (hup : s.dev.macUp m = true) {q : Nat} (hq : q < 65536) (hhonour : s.dev.on R.MAC_INST_CFG_rx_honour 0 (16 * m) = true)
    (hmode : s.dev.fcMode m = 1) (hcalm : s.dev.rd R.MAC_INST_STATE_storm 0 (4 * m) = 0) :
    ∃ t, exec (.pauseFrame m q) s = .next t ∧ t.dev.out = s.dev.out ∧
      ∀ c, c < 8 → (if q = 0 then t.dev.paused m c = false else t.dev.pausedNow m c) := by
  obtain ⟨hout, hstands, -⟩ := Dev.pauseClasses hm (l := List.range 8) (fun _ => q) (d := s.dev.countMac m 10) hcalm
  refine ⟨{ s with dev := Dev.each (List.range 8) (fun c d => d.pauseClass m c q) (s.dev.countMac m 10) }, ?_, hout, fun c hc => ?_⟩
  · show execPauseFrame m q s = _
    rw [execPauseFrame, State.onLive_live _ (.inl h), Nat.mod_eq_of_lt hq, Dev.rxPause, hup, hhonour, hmode, Bool.not_true, if_neg Bool.false_ne_true,
      if_pos (by rfl)]
  · obtain ⟨-, hbit, hsched⟩ := hstands c hc (List.mem_range.2 hc)
    split
    · next hzero => rw [hbit, hzero]; rfl
    · next hpos =>
      have hset : (q != 0) = true := bne_iff_ne.2 hpos
      exact ⟨hbit.trans hset, hsched.trans hset⟩

theorem exec_pfcFrame_acts (hup : s.dev.macUp m = true) (e : Nat) (q : List Nat) (hhonour : s.dev.on R.MAC_INST_CFG_rx_honour 0 (16 * m) = true)
    (hmode : s.dev.fcMode m = 2) (hcalm : s.dev.rd R.MAC_INST_STATE_storm 0 (4 * m) = 0) :
    ∃ t, exec (.pfcFrame m e q) s = .next t ∧ t.dev.out = s.dev.out ∧
      ∀ c, c < 8 → t.dev.paused m c = if hasBit e c && s.dev.lossless m c then (q.getD c 0 % 65536 != 0) else s.dev.paused m c := by
  obtain ⟨l, hl⟩ : ∃ l, (List.range 8).filter (fun c => hasBit (e % 256) c && s.dev.lossless m c) = l := ⟨_, rfl⟩
  obtain ⟨hout, hin, hothers⟩ := Dev.pauseClasses hm (l := l) (fun c => (q.map (· % 65536)).getD c 0) (d := s.dev.countMac m 10) hcalm
  refine ⟨{ s with dev := Dev.each l (fun c d => d.pauseClass m c ((q.map (· % 65536)).getD c 0)) (s.dev.countMac m 10) }, ?_, hout, fun c hc => ?_⟩
  · show execPfcFrame m e q s = _
    rw [execPfcFrame, State.onLive_live _ (.inl h), Dev.rxPfc, hup, hhonour, hmode, Bool.not_true, if_neg Bool.false_ne_true, if_pos (by rfl), hl]
  · have hmem : c ∈ l ↔ (hasBit e c && s.dev.lossless m c) = true := by
      rw [← hl, List.mem_filter, List.mem_range, show 256 = 2 ^ 8 from rfl, hasBit_mod e hc]
      exact and_iff_right hc
    have htime : (q.map (· % 65536)).getD c 0 = q.getD c 0 % 65536 := by
      rw [List.getD_eq_getElem?_getD, List.getElem?_map, List.getD_eq_getElem?_getD]
      cases q[c]? <;> rfl
    split
    · next hset => rw [(hin c hc (hmem.2 hset)).bit, htime]
    · next hclear => exact hothers c hc fun hset => hclear (hmem.1 hset)

omit hm in
/-- Without rx_honour a control frame is only counted. -/
theorem exec_control_ignored (hup : s.dev.macUp m = true) (hhonour : s.dev.on R.MAC_INST_CFG_rx_honour 0 (16 * m) = false) :
    (∀ q, exec (.pauseFrame m q) s = .next { s with dev := s.dev.countMac m 11 }) ∧
      ∀ e q, exec (.pfcFrame m e q) s = .next { s with dev := s.dev.countMac m 11 } := by
  refine ⟨fun q => ?_, fun e q => ?_⟩
  · show execPauseFrame m q s = _
    rw [execPauseFrame, State.onLive_live _ (.inl h), Dev.rxPause, hup, hhonour, Bool.not_true, Bool.false_and, if_neg Bool.false_ne_true,
      if_neg Bool.false_ne_true, Dev.ignoreControl]
  · show execPfcFrame m e q s = _
    rw [execPfcFrame, State.onLive_live _ (.inl h), Dev.rxPfc, hup, hhonour, Bool.not_true, Bool.false_and, if_neg Bool.false_ne_true,
      if_neg Bool.false_ne_true, Dev.ignoreControl]

end

end Sys2Proof.Machine
end

section
/-!
Storms and counters (R354, R358).
-/

namespace Sys2Proof.Machine

/-! ## Storms (R354) -/

/-- A class of an instance enters storm: its frames are discarded. -/
def Dev.stormBegun (m c : Nat) (d : Dev) : Dev :=
  ((d.setPaused m (clearBit (d.rd R.MAC_INST_STATE_paused 0 (4 * m)) c)).setStorm m (setBit
    ((d.setPaused m (clearBit (d.rd R.MAC_INST_STATE_paused 0 (4 * m)) c)).rd R.MAC_INST_STATE_storm 0 (4 * m)) c)).cause macCauses 1

/-- The watchdog of a paused class has run. -/
def Dev.stormDue (m c : Nat) (d : Dev) : Bool :=
  d.paused m c && d.rd R.MAC_INST_PFC_watchdog_ms 0 (16 * m) != 0 && d.watchdogRan m ((d.mac m).pausedAt.getD c 0)

theorem Dev.storm_eq (m c : Nat) (d : Dev) : d.storm m c = if d.stormDue m c then (d.stormBegun m c).stormDiscard m c else d := rfl

/-- The frames of a class leave the instance before they are discarded. -/
theorem Dev.stormDiscard_takes (m c : Nat) (d : Dev) : ∃ e : Dev, e.discards m 17 (d.stormDiscard m c) ∧ e.regs = d.regs ∧
    (e.mac m).fifo = (d.mac m).fifo.filter (fun f => f.cls != c) ∧ (e.mac m).pausedAt = (d.mac m).pausedAt := by
  refine ⟨_, Dev.discards.each (by decide) _ _, rfl, ?_, ?_⟩
  · rw [Dev.mac_onMac_self]
  · rw [Dev.mac_onMac_self]

section
variable {m : Nat} (hm : m < 256)
include hm

theorem Dev.rd_stormBegun (c : Nat) (d : Dev) {f : Field} {a : Nat} (hunit : f.unit = 0x71) (hoff : f.off + a < 33554432) (hlsb : f.lsb < 32)
    (hpaused : f.key 0 a ≠ R.MAC_INST_STATE_paused.key 0 (4 * m)) (hstorm : f.key 0 a ≠ R.MAC_INST_STATE_storm.key 0 (4 * m))
    (hcause : f.key 0 a ≠ (macCauses.bit 1).key 0 0) : (d.stormBegun m c).rd f 0 a = d.rd f 0 a := by
  rw [Dev.stormBegun, Dev.rd_cause_ne _ _ _ _ _ _ _ hcause, Dev.setStorm, Dev.rd_wr_ne _ _ _ _ _ _ _ _ hstorm,
    Dev.rd_setPaused_ne _ hunit hm hoff hlsb hpaused]

theorem Dev.bits_stormBegun {c : Nat} (d : Dev) {k : Nat} (hk : k < 8) :
    (d.stormBegun m c).paused m k = (d.paused m k && k != c) ∧ (d.stormBegun m c).stormy m k = (d.stormy m k || k == c) := by
  have hcause (x : Dev) (f : Field) (hlow : 0x2000 ≤ f.off) (hunit : f.unit = 0x71) (hlsb : f.lsb < 32) :
      (x.cause macCauses 1).rd f 0 (4 * m) = x.rd f 0 (4 * m) :=
    Dev.rd_cause_ne _ _ _ _ _ _ _ (by simp only [Field.key, Causes.bit, macCauses, hunit]; omega)
  refine ⟨?_, ?_⟩
  · rw [Dev.paused, Dev.stormBegun, hcause _ _ (by decide) rfl (by decide)]
    show Dev.paused _ m k = _
    rw [Dev.paused_setStorm, Dev.paused_setPaused _ _ hk, hasBit_clearBit, Bool.and_comm]
    rfl
  · rw [Dev.stormy, Dev.stormBegun, hcause _ _ (by decide) rfl (by decide)]
    show Dev.stormy _ m k = _
    rw [Dev.stormy_setStorm _ _ hk, hasBit_setBit, Bool.or_comm]
    show (Dev.stormy _ m k || _) = _
    rw [Dev.stormy_setPaused _ _ hm]

/-- What a class that enters storm leaves of an instance, and what it shows. -/
theorem Dev.storm_begins {c : Nat} {d : Dev} (hdue : d.stormDue m c = true) :
    (∀ k, k < 8 → (d.storm m c).paused m k = (d.paused m k && k != c) ∧ (d.storm m c).stormy m k = (d.stormy m k || k == c)) ∧
      (d.storm m c).on (macCauses.bit 1) = true ∧ ((d.storm m c).mac m).fifo = (d.mac m).fifo.filter (fun f => f.cls != c) ∧
      ((d.storm m c).mac m).pausedAt = (d.mac m).pausedAt ∧
      (d.storm m c).rd R.MAC_INST_PFC_watchdog_ms 0 (16 * m) = d.rd R.MAC_INST_PFC_watchdog_ms 0 (16 * m) ∧ (d.storm m c).uptime = d.uptime := by
  obtain ⟨b, hb⟩ : ∃ b, d.stormBegun m c = b := ⟨_, rfl⟩
  have hbits (k : Nat) (hk : k < 8) := d.bits_stormBegun hm (c := c) hk
  have hwatch : b.rd R.MAC_INST_PFC_watchdog_ms 0 (16 * m) = d.rd R.MAC_INST_PFC_watchdog_ms 0 (16 * m) := by
    rw [← hb, Dev.rd_stormBegun hm c d rfl (by simp only [R.MAC_INST_PFC_watchdog_ms]; omega) (by decide)
      (by simp only [Field.key, R.MAC_INST_PFC_watchdog_ms, R.MAC_INST_STATE_paused]; omega)
      (by simp only [Field.key, R.MAC_INST_PFC_watchdog_ms, R.MAC_INST_STATE_storm]; omega)
      (by simp only [Field.key, R.MAC_INST_PFC_watchdog_ms, Causes.bit, macCauses]; omega)]
  have hup : b.uptime = d.uptime := by
    rw [← hb, Dev.uptime, Dev.stormBegun, Dev.rd_cause_ne _ _ _ _ _ _ _ (by decide), Dev.setStorm, Dev.setPaused,
      Dev.rd_wr_ne _ _ _ _ _ _ _ _ (by simp only [Field.key, R.TMP_UPTIME_MS_value, R.MAC_INST_STATE_storm]; omega),
      Dev.rd_wr_ne _ _ _ _ _ _ _ _ (by simp only [Field.key, R.TMP_UPTIME_MS_value, R.SCH_PORT_paused]; omega),
      Dev.rd_wr_ne _ _ _ _ _ _ _ _ (by simp only [Field.key, R.TMP_UPTIME_MS_value, R.MAC_INST_STATE_paused]; omega), Dev.uptime]
  have hcause : b.on (macCauses.bit 1) = true := by
    rw [← hb]
    exact Dev.cause_on ..
  have hmac : b.mac m = d.mac m := by
    rw [← hb]
    exact Dev.mac_congr (Dev.macs_of_besides (Dev.cause_besides _ macCauses 1 0 (List.Subset.refl _))) m
  obtain ⟨e, hdiscards, heregs, hfifo, hat⟩ := b.stormDiscard_takes m c
  rw [Dev.storm_eq, if_pos hdue, hb]
  have hrd {f : Field} {a : Nat} (hunit : f.unit = 0x71) (hoff : f.off + a < 33554432) (hlsb : f.lsb < 32) :
      (b.stormDiscard m c).rd f 0 a = b.rd f 0 a :=
    (hdiscards.regs.rd (offStamps_of _ _ _ (by rw [hunit]; decide) (by decide) hoff hlsb)).trans (Dev.rd_congr heregs ..)
  rw [hb] at hbits
  refine ⟨fun k hk => ?_, ?_, ?_, ?_, ?_, ?_⟩
  · rw [Dev.paused, Dev.stormy, hrd rfl (by simp only [R.MAC_INST_STATE_paused]; omega) (by decide),
      hrd rfl (by simp only [R.MAC_INST_STATE_storm]; omega) (by decide)]
    exact hbits k hk
  · rw [Dev.on, hrd rfl (by decide) (by decide)]
    exact hcause
  · rw [Dev.mac_congr hdiscards.macs, hfifo, hmac]
  · rw [Dev.mac_congr hdiscards.macs, hat, hmac]
  · rw [hrd rfl (by simp only [R.MAC_INST_PFC_watchdog_ms]; omega) (by decide), hwatch]
  · rw [← hup]
    exact (hdiscards.regs.rd (.inr rfl)).trans (Dev.rd_congr heregs ..)

/-- A class that is in storm, not paused and shown stays so. -/
structure Dev.stormStands (m c : Nat) (d : Dev) : Prop where
  paused : d.paused m c = false
  storm : d.stormy m c = true
  shown : d.on (macCauses.bit 1) = true

/-- The watchdogs of several classes are looked at: one that is due enters storm. -/
theorem Dev.storms {l : List Nat} {c : Nat} (hc : c < 8) (hin : c ∈ l) {d : Dev} (hdue : d.stormDue m c = true) :
    (Dev.each l (Dev.storm m) d).stormStands m c := by
  have hother {b : Nat} (hne : c ≠ b) : (c == b) = false := beq_false_of_ne hne
  refine Dev.each_turns (P := fun e => e.stormDue m c = true) (Q := fun e => e.stormStands m c) hin (fun e he => ?_) (fun b _ hne e he => ?_)
    (fun b _ e he => ?_) hdue
  · obtain ⟨hbits, hshown, -⟩ := Dev.storm_begins hm he
    obtain ⟨hpaused, hstorm⟩ := hbits c hc
    exact ⟨by rw [hpaused, bne_self_eq_false, Bool.and_false], by rw [hstorm, beq_self_eq_true, Bool.or_true], hshown⟩
  · cases hb : e.stormDue m b with
    | false => rwa [Dev.storm_eq, hb, if_neg Bool.false_ne_true]
    | true =>
      obtain ⟨hbits, -, -, hat, hwatch, hup⟩ := Dev.storm_begins hm hb
      rw [Dev.stormDue, (hbits c hc).1, Dev.watchdogRan, hat, hwatch, hup, bne, hother (Ne.symm hne), Bool.not_false, Bool.and_true]
      exact he
  · cases hb : e.stormDue m b with
    | false => rwa [Dev.storm_eq, hb, if_neg Bool.false_ne_true]
    | true =>
      obtain ⟨hbits, hshown, -⟩ := Dev.storm_begins hm hb
      obtain ⟨hpaused, hstorm⟩ := hbits c hc
      exact ⟨by rw [hpaused, he.paused, Bool.false_and], by rw [hstorm, he.storm, Bool.true_or], hshown⟩

end

section
variable {m cls : Nat} {s : State} (h : s.dev.phase = .running) (hcls : cls < 8)
include h hcls

theorem exec_stormWatchdogExpiry_begins (hm : m < 256) (hpaused : s.dev.paused m cls = true)
    (hwatch : s.dev.rd R.MAC_INST_PFC_watchdog_ms 0 (16 * m) ≠ 0) (hran : s.dev.watchdogRan m ((s.dev.mac m).pausedAt.getD cls 0) = true) :
    ∃ t, exec (.stormWatchdogExpiry m cls) s = .next t ∧ t.dev.paused m cls = false ∧ t.dev.stormy m cls = true ∧ t.dev.on (macCauses.bit 1) = true ∧
      (s.dev.fcMode m ≠ 1 → (t.dev.mac m).fifo = (s.dev.mac m).fifo.filter (fun f => f.cls != cls)) := by
  have hdue : s.dev.stormDue m cls = true := by rw [Dev.stormDue, hpaused, bne_iff_ne.2 hwatch, hran]; rfl
  obtain ⟨hclear, hstorm, hshown⟩ := Dev.storms hm hcls (s.dev.pauseScope_mem m hcls) hdue
  refine ⟨{ s with dev := Dev.each (s.dev.pauseScope m cls) (Dev.storm m) s.dev }, State.onLive_live _ (.inl h), hclear, hstorm, hshown,
      fun hmode => ?_⟩
  obtain ⟨-, -, hfifo, -⟩ := Dev.storm_begins hm hdue
  rw [Dev.pauseScope_one hmode]
  exact hfifo

/-- The timer of a class under priority flow control ends. -/
theorem exec_pauseTimerExpiry_resumes (hmode : s.dev.fcMode m ≠ 1) :
    ∃ t, exec (.pauseTimerExpiry m cls) s = .next t ∧ t.dev.paused m cls = false ∧
      ∀ c, c < 8 → c ≠ cls → t.dev.paused m c = s.dev.paused m c := by
  obtain ⟨now, hnow⟩ : ∃ now, s.dev.rd R.MAC_INST_STATE_paused 0 (4 * m) = now := ⟨_, rfl⟩
  refine ⟨{ s with dev := s.dev.setPaused m (clearBit now cls) }, ?_, ?_, fun c hc hne => ?_⟩
  · refine (State.onLive_live _ (.inl h)).trans ?_
    rw [Dev.pauseScope_one hmode, ← hnow]
    rfl
  · rw [Dev.paused_setPaused _ _ hcls, hasBit_clearBit, bne_self_eq_false, Bool.false_and]
  · rw [Dev.paused_setPaused _ _ hc, hasBit_clearBit, bne_iff_ne.2 hne, Bool.true_and, ← hnow, Dev.paused]

end

/-- A storm that ends clears its own bit alone. -/
theorem Dev.calm_bits {m c : Nat} (d : Dev) {k : Nat} (hk : k < 8) :
    (d.calm m c).stormy m k = (d.stormy m k && !(d.watchdogRan m ((d.mac m).lastPause.getD c 0) && k == c)) := by
  unfold Dev.calm
  split
  · next hran =>
    show Dev.stormy (d.setStorm m _) m k = _
    rw [Dev.stormy_setStorm _ _ hk, hasBit_clearBit, hran, Bool.true_and, Bool.and_comm]
    rfl
  · next hran =>
    rw [Bool.not_eq_true] at hran
    rw [hran, Bool.false_and, Bool.not_false, Bool.and_true]

theorem Dev.calm_leaves (m c : Nat) (d : Dev) : (d.calm m c).macs = d.macs ∧
    ∀ since, m < 256 → (d.calm m c).watchdogRan m since = d.watchdogRan m since := by
  unfold Dev.calm
  split
  · refine ⟨rfl, fun since hm => ?_⟩
    have hwatch : R.MAC_INST_PFC_watchdog_ms.key 0 (16 * m) ≠ R.MAC_INST_STATE_storm.key 0 (4 * m) := by
      simp only [Field.key, R.MAC_INST_PFC_watchdog_ms, R.MAC_INST_STATE_storm]
      omega
    have hup : R.TMP_UPTIME_MS_value.key 0 0 ≠ R.MAC_INST_STATE_storm.key 0 (4 * m) := by
      simp only [Field.key, R.TMP_UPTIME_MS_value, R.MAC_INST_STATE_storm]
      omega
    rw [Dev.watchdogRan, Dev.uptime, Dev.rd_wr_ne _ _ _ _ _ _ _ _ hwatch, Dev.rd_wr_ne _ _ _ _ _ _ _ _ hup, Dev.watchdogRan, Dev.uptime]
  · exact ⟨rfl, fun _ _ => rfl⟩

section
variable {m cls : Nat} {s : State} (h : s.dev.phase = .running) (hcls : cls < 8)
include h hcls

theorem exec_stormEnd_ends (hm : m < 256) (hran : s.dev.watchdogRan m ((s.dev.mac m).lastPause.getD cls 0) = true) :
    ∃ t, exec (.stormEnd m cls) s = .next t ∧ t.dev.stormy m cls = false ∧ t.dev.macs = s.dev.macs ∧
      (s.dev.fcMode m ≠ 1 → ∀ c, c < 8 → c ≠ cls → t.dev.stormy m c = s.dev.stormy m c) := by
  refine ⟨{ s with dev := Dev.each (s.dev.pauseScope m cls) (Dev.calm m) s.dev }, State.onLive_live _ (.inl h), ?_, ?_, fun hmode c hc hne => ?_⟩
  · refine Dev.each_turns (P := fun e => e.watchdogRan m ((e.mac m).lastPause.getD cls 0) = true) (Q := fun e => e.stormy m cls = false)
      (s.dev.pauseScope_mem m hcls) (fun e he => ?_) (fun b _ _ e he => ?_) (fun b _ e he => ?_) hran
    · rw [Dev.calm_bits e hcls, he, beq_self_eq_true]
      exact Bool.and_false _
    · obtain ⟨hmacs, hwatch⟩ := e.calm_leaves m b
      rw [Dev.mac_congr hmacs, hwatch _ hm]
      exact he
    · rw [Dev.calm_bits e hcls, he, Bool.false_and]
  · exact Dev.each_induct (fun e => e.macs = s.dev.macs) _ _ _ rfl fun b e he => (e.calm_leaves m b).1.trans he
  · rw [Dev.pauseScope_one hmode]
    show (s.dev.calm m cls).stormy m c = _
    rw [Dev.calm_bits s.dev hc, beq_false_of_ne hne, Bool.and_false, Bool.not_false, Bool.and_true]

omit hcls in
theorem exec_stormEnd_waits (hmode : s.dev.fcMode m ≠ 1) (hran : s.dev.watchdogRan m ((s.dev.mac m).lastPause.getD cls 0) = false) :
    exec (.stormEnd m cls) s = .next s := by
  refine (State.onLive_live _ (.inl h)).trans ?_
  rw [Dev.pauseScope_one hmode]
  show Host.Outcome.next { s with dev := s.dev.calm m cls } = _
  rw [Dev.calm, hran, if_neg Bool.false_ne_true]

omit hcls in
/-- A counter read clears the counter and latches its high half (R358). -/
theorem exec_macCounterRead_clears (mid c : Nat) (hcount : s.dev.macCount m c < 2 ^ 64) :
    ∃ t, exec (.macCounterRead mid m c) s = .next t ∧ t.dev.macCount m c = 0 ∧
      t.dev.out = s.dev.out ++ [.answer mid (s.dev.macCount m c % 2 ^ 32)] ∧
      t.dev.rd R.MAC_COUNTER_HI_count 0 (256 * m + 8 * c) = s.dev.macCount m c / 2 ^ 32 := by
  refine ⟨{ s with dev := (s.dev.readMacCount m c).2.emit (.answer mid (s.dev.readMacCount m c).1) }, ?_, ?_, rfl, ?_⟩
  · show execMacCounterRead mid m c s = _
    rw [execMacCounterRead, State.onRun_running _ h]
  · show NMap.getD (NMap.erase _ _) _ _ = _
    rw [NMap.getD, NMap.get?_erase, if_pos rfl]
    rfl
  · refine (Dev.rd_wr_self ..).trans (Nat.mod_eq_of_lt ?_)
    exact Nat.div_lt_of_lt_mul (by rw [← Nat.pow_add]; exact hcount)

end

end Sys2Proof.Machine
end

section
/-!
Frames on the line (R348, R384).
-/

namespace Sys2Proof.Machine

/-! ## What has left the device stays at the front of what leaves -/

/-- What left `d` is the beginning of what left `e`. -/
def Dev.grows (d e : Dev) : Prop := d.out <+: e.out

namespace Dev.grows

variable {d e x : Dev}

theorem of_out (h : e.out = d.out) : d.grows e := by rw [Dev.grows, h]

theorem trans (h : d.grows e) (h' : e.grows x) : d.grows x := List.IsPrefix.trans h h'

theorem wr (h : d.grows e) (f : Field) (v i a : Nat) : d.grows (e.wr f v i a) := h

theorem setLogWord (h : d.grows e) (s w v : Nat) : d.grows (e.setLogWord s w v) := h.wr ..

theorem refreshLog (h : d.grows e) : d.grows e.refreshLog := ((h.wr _ _ _ _).wr _ _ _ _).wr ..

theorem onRing (h : d.grows e) (r : Nat) (f : Ring → Ring) : d.grows (e.onRing r f) := h

theorem onLink (h : d.grows e) (n : Nat) (f : Link → Link) : d.grows (e.onLink n f) := h

theorem countMac (h : d.grows e) (m c n : Nat) : d.grows (e.countMac m c n) := h

theorem emit (h : d.grows e) (o : Output) : d.grows (e.emit o) := List.IsPrefix.trans h (List.prefix_append ..)

theorem cause (h : d.grows e) (c : Causes) (b i : Nat) : d.grows (e.cause c b i) := by
  obtain ⟨_, _, _, o, hcause⟩ := e.cause_changes c b i
  rw [hcause]
  exact List.IsPrefix.trans h (List.prefix_append ..)

theorem each {α : Type} {l : List α} {f : α → Dev → Dev} (hf : ∀ a e, Dev.grows e (f a e)) (h : d.grows e) : d.grows (Dev.each l f e) :=
  Dev.each_induct (fun x => d.grows x) l f e h fun a _ hx => hx.trans (hf a _)

theorem newRecord (h : d.grows e) (x : Err) : d.grows (e.newRecord x) := by
  unfold Dev.newRecord
  extract_lets seq e₀ e₁ under related
  have h₁ : d.grows e₁ := by
    show d.grows (if _ then _ else _)
    split
    · exact (h.wr R.FLT_LAST_SEQ_seq seq 0 0).wr ..
    · exact (h.wr R.FLT_LAST_SEQ_seq seq 0 0).wr ..
  clear_value e₁
  split
  · exact (h₁.wr ..).cause fltCauses 3 0
  · extract_lets e₂ e₃ e₄ e₅ e₆ e₇ e₈ e₉ e₁₀
    have h₉ : d.grows e₉ := (((((((((h.wr ..).setLogWord ..).setLogWord ..).setLogWord ..).setLogWord ..).setLogWord ..).setLogWord ..).setLogWord
      ..).setLogWord ..).refreshLog
    clear_value e₉
    have h₁₀ : d.grows e₁₀ := by
      show d.grows (if _ then _ else _)
      split
      · exact h₉.cause _ _ _
      · split <;> exact h₉.cause _ _ _
    split
    · exact h₁₀.cause _ _ _
    · exact h₁₀

theorem record (h : d.grows e) (x : Err) : d.grows (e.record x) := by
  unfold Dev.record
  split
  · exact h
  · dsimp only
    split
    · split
      · exact (h.setLogWord ..).cause fltCauses 6 0
      · exact h.setLogWord ..
    · split
      · exact (h.newRecord x).cause _ _ _
      · exact h.newRecord x

theorem loseStamp (h : d.grows e) (m r : Nat) (rx : Bool) : d.grows (e.loseStamp m r rx) :=
  (((h.wr _ _ _ _).wr _ _ _ _).wr _ _ _ _).cause tmpCauses 12 0

theorem finishFrame (h : d.grows e) (f : TxFrame) (late lost : Bool) : d.grows (e.finishFrame f late lost) :=
  h.trans (of_out (Dev.out_of_besides (Dev.finishFrame_besides f late lost e (List.Subset.refl _))))

theorem useContext (h : d.grows e) (r : Nat) : d.grows (e.useContext r) := h.trans (of_out (Dev.useContext_out ..))

theorem advanceCpl (h : d.grows e) (r n : Nat) : d.grows (e.advanceCpl r n) := h.trans (Dev.grows.trans (of_out rfl)
    (Dev.checkIrq_prefix r (e.onRing r _)))

theorem sendMessage (h : d.grows e) (fn v : Nat) : d.grows (e.sendMessage fn v) := h.trans (Dev.mailed.sendMessage e fn v).out

theorem queueTranslation (h : d.grows e) (fn addr : Nat) (pasid : Option Nat) : d.grows (e.queueTranslation fn addr pasid) := by
  unfold Dev.queueTranslation
  dsimp only
  split
  · exact h
  · exact h.onLink _ _

theorem issueHeld (h : d.grows e) (link : Nat) : d.grows (e.issueHeld link) := by
  unfold Dev.issueHeld
  dsimp only
  split
  · exact h
  · split
    · exact h
    · split
      · exact (h.onLink _ _).emit _
      · split
        · exact (h.onLink _ _).emit _
        · exact (h.onLink _ _).queueTranslation ..

theorem pump (h : d.grows e) (link : Nat) : d.grows (e.pump link) := Dev.grows.each (fun _ _ => Dev.grows.issueHeld (of_out rfl) link) h

theorem flushPosted (h : d.grows e) (fn : Nat) (l : List Posted) : d.grows (e.flushPosted fn l) := by
  induction l generalizing e with
  | nil => exact h
  | cons p l ih =>
    unfold Dev.flushPosted
    dsimp only
    split
    · exact ih ((h.onLink _ _).sendMessage ..)
    · split
      · exact ih ((h.onLink _ _).emit _)
      · exact (h.queueTranslation ..).pump _

theorem writePiece (h : d.grows e) (fn addr : Nat) (data : List Byte) (a : Attr) : d.grows (e.writePiece fn addr data a) := by
  unfold Dev.writePiece
  split
  · exact h.emit _
  · dsimp only
    split
    · exact (h.onLink _ _).flushPosted ..
    · exact h.onLink _ _

theorem hostWrite (h : d.grows e) (fn addr : Nat) (data : List Byte) (a : Attr) : d.grows (e.hostWrite fn addr data a) :=
  Dev.grows.each (fun _ _ => Dev.grows.writePiece (of_out rfl) ..) (h.trans (of_out (Dev.leaveL1_out ..)))

theorem writeOwed (h : d.grows e) (r : Nat) : d.grows (e.writeOwed r) := by
  unfold Dev.writeOwed
  split
  · exact h
  · split
    · exact h
    · split
      · exact h
      · dsimp only
        split
        · exact ((h.useContext r).onRing r _).hostWrite ..
        · exact (((h.useContext r).onRing r _).hostWrite ..).advanceCpl ..

theorem flushOwed (h : d.grows e) (r : Nat) : d.grows (e.flushOwed r) := by
  unfold Dev.flushOwed
  split
  · exact Dev.grows.each (fun _ _ => Dev.grows.writeOwed (of_out rfl) r) h
  · exact h

theorem notify (h : d.grows e) (r : Nat) (words : List Nat) : d.grows (e.notify r words).2 := by
  unfold Dev.notify
  split
  · split
    · exact (((h.useContext r).onRing r _).advanceCpl ..).flushOwed r
    · dsimp only
      split
      · exact h.cause _ _ _
      · exact h
  · exact h

end Dev.grows

/-! ## Frames on the line (R348) -/

/-- A frame left on the line of instance `m` on the way from `d` to `e`. -/
def Dev.sends (m : Nat) (d e : Dev) : Prop := d.grows e ∧ ∃ f stomped, Output.lineFrame m f stomped ∈ e.out.drop d.out.length

theorem frameLeft_iff {m : Nat} {s t : State} : frameLeft m s t ↔ Dev.sends m s.dev t.dev := Iff.rfl

theorem Dev.sends.grows {m : Nat} {d e x : Dev} (h : d.sends m e) (h' : e.grows x) : d.sends m x := by
  obtain ⟨hgrows, f, stomped, hmem⟩ := h
  obtain ⟨l, hl⟩ := h'
  refine ⟨hgrows.trans ⟨l, hl⟩, f, stomped, ?_⟩
  rw [← hl, List.drop_append_of_le_length hgrows.length_le]
  exact List.mem_append_left _ hmem

theorem Dev.grows.sends {m : Nat} {d e x : Dev} (h : d.grows e) (h' : e.sends m x) : d.sends m x := by
  obtain ⟨hgrows, f, stomped, hmem⟩ := h'
  exact ⟨h.trans hgrows, f, stomped, List.drop_subset_drop_left _ h.length_le hmem⟩

/-- A frame is put on the line. -/
theorem Dev.grows.putOnLine {d e : Dev} (h : d.grows e) (m : Nat) (f : Frame) (stomped : Bool) : d.sends m (e.putOnLine m f stomped) := by
  refine ⟨h.emit _, f ++ List.replicate (60 - f.length) 0, stomped, ?_⟩
  show _ ∈ (e.out ++ [_]).drop d.out.length
  rw [List.drop_append_of_le_length h.length_le]
  exact List.mem_append_right _ (List.mem_singleton.2 rfl)

/-- What left `d` left before `e`, whose FIFOs and launch queues are those of `d`. -/
def Dev.follows (d e : Dev) : Prop := d.grows e ∧ e.macs = d.macs

namespace Dev.follows

variable {d e x : Dev}

theorem refl (d : Dev) : d.follows d := ⟨.of_out rfl, rfl⟩

theorem trans (h : d.follows e) (h' : e.follows x) : d.follows x := ⟨h.1.trans h'.1, h'.2.trans h.2⟩

theorem cause (d : Dev) (c : Causes) (b i : Nat) : d.follows (d.cause c b i) :=
  ⟨.cause (.of_out rfl) .., Dev.macs_of_besides (Dev.cause_besides d c b i (List.Subset.refl _))⟩

theorem record (x : Err) (d : Dev) : d.follows (d.record x) :=
  ⟨.record (.of_out rfl) x, Dev.macs_of_besides (Dev.record_besides x d (List.Subset.refl _))⟩

theorem loseStamp (m r : Nat) (rx : Bool) (d : Dev) : d.follows (d.loseStamp m r rx) :=
  ⟨.loseStamp (.of_out rfl) .., Dev.macs_of_besides (Dev.loseStamp_besides m r rx d (List.Subset.refl _))⟩

theorem finishFrame (f : TxFrame) (late lost : Bool) (d : Dev) : d.follows (d.finishFrame f late lost) :=
  ⟨.finishFrame (.of_out rfl) .., Dev.macs_of_besides (Dev.finishFrame_besides f late lost d (List.Subset.refl _))⟩

theorem notify (r : Nat) (words : List Nat) (d : Dev) : d.follows (d.notify r words).2 :=
  ⟨.notify (.of_out rfl) .., Dev.macs_of_besides (Dev.notify_besides r words d (List.Subset.refl _))⟩

theorem sends {m : Nat} (h : d.sends m e) (h' : e.follows x) : d.sends m x := h.grows h'.1

end Dev.follows

/-- A frame that starts leaves on the line, and leaves FIFOs and launch queues as they are. -/
theorem Dev.startFrame_sends (m : Nat) (f : TxFrame) (late : Bool) (d : Dev) :
    d.sends m (d.startFrame m f late) ∧ (d.startFrame m f late).macs = d.macs := by
  unfold Dev.startFrame
  extract_lets t p bytes want skip x sent y z
  have hx : d.follows x := by
    show d.follows (if _ then _ else _)
    split
    · exact Dev.follows.cause (d.bump R.TMP_ONESTEP_SKIPPED_count) tmpCauses 20 0
    · exact .refl d
  clear_value x sent
  have hy : d.follows y := by
    show d.follows (if _ then _ else _)
    split
    · exact hx.trans (.trans (.record _ (x.countMac m 16)) (.cause ..))
    · exact hx
  clear_value y
  have hz : d.sends m z ∧ z.macs = d.macs := ⟨hy.1.putOnLine m sent f.stomp, hy.2⟩
  clear_value z
  have hends (e : Dev) (h : z.follows e) : d.sends m e ∧ e.macs = d.macs := ⟨h.sends hz.1, h.2.trans hz.2⟩
  split
  · exact hends _ (.finishFrame ..)
  · split
    · exact hz
    · split
      · exact hends _ (.trans (.loseStamp ..) (.finishFrame ..))
      · next r _ n _ =>
        have hnotify := Dev.follows.notify n (t.words false f.seq m) z
        split
        · next hn => rw [hn] at hnotify; exact hends _ (hnotify.trans (.finishFrame ..))
        · next hn => rw [hn] at hnotify; exact hends _ (hnotify.trans (.trans (.loseStamp ..) (.finishFrame ..)))

theorem Dev.grows_wakeMac (m : Nat) (d : Dev) : d.grows (d.wakeMac m) := by
  unfold Dev.wakeMac Dev.wakeLpi
  split
  · split
    · exact Dev.grows.emit (e := d.wr R.MAC_PORT_STATUS_lpi_tx 0 0 _) (.of_out rfl) _
    · exact .of_out rfl
  · exact .of_out rfl

/-- A control frame is sent, by a port that leaves low-power idle for it. -/
theorem Dev.sendControl_sends {m : Nat} {d : Dev} (hup : d.macUp m = true) (cls time : Nat) : d.sends m (d.sendControl m cls time) := by
  unfold Dev.sendControl
  rw [hup, Bool.not_true, if_neg Bool.false_ne_true]
  exact ((d.grows_wakeMac m).countMac m 14 1).putOnLine ..

section
variable {m : Nat} {s : State} (h : s.dev.phase = .running) (hup : s.dev.macUp m = true)
include h hup

theorem exec_frameTransmit_sends {cls : Nat} {f : TxFrame} {l : List TxFrame} (htake : takeClass cls (s.dev.mac m).fifo = some (f, l))
    (hpaused : s.dev.paused m cls = false) (hclear : s.dev.launchClear m f.bytes = true) :
    ∃ t, exec (.frameTransmit m cls) s = .next t ∧ (t.dev.mac m).fifo = l ∧ frameLeft m s t := by
  obtain ⟨d, hd⟩ : ∃ d, s.dev.onMac m (fun x => { x with fifo := l }) = d := ⟨_, rfl⟩
  obtain ⟨hsends, hmacs⟩ := Dev.startFrame_sends m f false d
  refine ⟨{ s with dev := d.startFrame m f false }, ?_, ?_, ?_⟩
  · refine (State.onLive_live _ (.inl h)).trans ?_
    rw [Dev.transmit, htake]
    dsimp only
    rw [hup, hpaused, hclear, Bool.not_true, Bool.or_false, Bool.or_false, if_neg Bool.false_ne_true, hd]
  · rw [Dev.mac_congr hmacs, ← hd, Dev.mac_onMac_self]
  · have hsame : s.dev.grows d := .of_out (by rw [← hd]; rfl)
    exact hsame.sends hsends

omit hup in
theorem exec_frameTransmit_paused {cls : Nat} (hpaused : s.dev.paused m cls = true) : exec (.frameTransmit m cls) s = .next s := by
  refine (State.onLive_live _ (.inl h)).trans ?_
  unfold Dev.transmit
  cases takeClass cls (s.dev.mac m).fifo with
  | none => rfl
  | some x =>
    dsimp only
    rw [hpaused, Bool.or_true, Bool.true_or, if_pos rfl]

theorem exec_launchTime_sends {f : TxFrame} (hfirst : (s.dev.mac m).launch.find? (fun f => !s.dev.paused m f.cls) = some f) :
    ∃ t, exec (.launchTime m) s = .next t ∧ (t.dev.mac m).launch = (s.dev.mac m).launch.erase f ∧ frameLeft m s t := by
  obtain ⟨late, y, hlaunch, hgrows, hmacs⟩ : ∃ late y, s.dev.launchFirst m = Dev.startFrame m f late y ∧ s.dev.grows y ∧
      y.macs = (s.dev.onMac m (fun x => { x with launch := x.launch.erase f })).macs := by
    rw [Dev.launchFirst, hfirst]
    dsimp only
    rw [hup, Bool.not_true, if_neg Bool.false_ne_true]
    refine ⟨_, _, rfl, ?_⟩
    split <;> exact ⟨.of_out rfl, rfl⟩
  obtain ⟨hsends, hsame⟩ := Dev.startFrame_sends m f late y
  refine ⟨{ s with dev := s.dev.launchFirst m }, State.onLive_live _ (.inl h), ?_, ?_⟩
  · show ((s.dev.launchFirst m).mac m).launch = _
    rw [hlaunch, Dev.mac_congr (hsame.trans hmacs), Dev.mac_onMac_self]
  · rw [frameLeft_iff, hlaunch]
    exact hgrows.sends hsends

theorem exec_xoffRefresh_sends {cls : Nat} (hsent : s.dev.xoffSent m cls = true) (hgen : s.dev.on R.MAC_INST_CFG_tx_generate 0 (16 * m) = true)
    (habove : s.dev.xonAt m < s.dev.waitingOf m cls) : ∃ t, exec (.xoffRefresh m cls) s = .next t ∧ frameLeft m s t := by
  refine ⟨{ s with dev := s.dev.sendControl m cls (s.dev.quanta m) }, ?_, Dev.sendControl_sends hup ..⟩
  refine (State.onLive_live _ (.inl h)).trans ?_
  rw [if_pos ⟨by rw [h]; decide, hsent, hgen, .inr habove⟩]

end

end Sys2Proof.Machine
end

section
/-!
Ports and instances: the statement.
-/

namespace Sys2Proof.Machine

/-- Settles O51: registers of ports, bits of the classes of an instance, and what leaves on the line. -/
theorem portsAndInstances : Obligations.PortsAndInstances := by
  unfold Obligations.PortsAndInstances
  refine ⟨fun p s h hsane => ?_, fun m cls s h hm hcls => ?_⟩
  · obtain ⟨hp, hinst⟩ := hsane
    refine ⟨fun hspeed hdown => exec_portUp_shows h hp hspeed hdown, fun hup => ⟨fun cut => exec_portDown_shows h hp hinst hup cut,
      fun cut hlock => exec_flexeOverheadLockLoss_shows h hp hinst hup cut hlock, fun lpi => exec_peerLpiChange_shows h hup lpi,
      fun heee hspeed hlpi hempty htimed => exec_lpiIdleExpiry_enters h hup heee hspeed hlpi hempty htimed⟩,
      fun l v _ hport => exec_laneCalibrationDone_shows h v hport, fun l drift _ hvalid => exec_laneCalCheck_shows h drift hvalid,
      fun r hrec hflexe hcal hbusy => exec_flexeCalendarSwitch_asks h hrec hflexe hcal hbusy, fun hbusy => ⟨exec_flexeSwitchTimeout_fails h hbusy hp,
      fun hup hunder => exec_flexeSwitchDone_turns h hbusy hp hup hunder⟩⟩
  · refine ⟨fun hup => ⟨fun f l htake hpaused hclear => exec_frameTransmit_sends h hup htake hpaused hclear, exec_frameTransmit_paused h,
      fun f hfirst => exec_launchTime_sends h hup hfirst, fun q hq hhonour hmode hcalm => exec_pauseFrame_acts h hm hup hq hhonour hmode hcalm,
      exec_control_ignored h hup, fun e q hhonour hmode hcalm => exec_pfcFrame_acts h hm hup e q hhonour hmode hcalm,
      fun hsent hgen habove => exec_xoffRefresh_sends h hup hsent hgen habove⟩,
      exec_pauseTimerExpiry_resumes h hcls, exec_stormWatchdogExpiry_begins h hcls hm, exec_stormEnd_ends h hcls hm, exec_stormEnd_waits h,
      fun mid c _ hcount => exec_macCounterRead_clears h mid c hcount⟩

end Sys2Proof.Machine
end

section
/-!
The configuration request of an S4400 VF (R430).
-/

namespace Sys2Proof.Machine

/-! ## A VF whose uplink is no MAC instance (R430)

The registers are one map. The key of MAC_INST_CFG at an instance that the block does not have is that of a word which a mailbox channel shows to its
receiver, and no hypothesis of the statement bounds the uplink that a VF's properties name. -/

/-- The uplink whose MAC_INST_CFG lies where the request channel of function 16 shows word 0 of a message. -/
def strayUplink : Nat := (31 * 2 ^ 41 + 0x10080 + 256 * requestChannel 16 - 0x800) / 16

/-- Function 16, an S4400 VF with that uplink, asks for its configuration. -/
def strayConfiguration : State :=
  Tests.Change.ask 0x60 [] (fun d => Tests.Change.vf0 (fun f => { f with props := { f.props with uplink := some strayUplink } })
    (Tests.Change.withImg (Tests.Change.withIden { Tests.pf0 with vfKind := 1, vfBar0Log2 := 15 }) d)) 16

/-- Word 4 of the message that function 16 is told. -/
def toldWord4 (o : Out) : Nat :=
  match o with
  | .next t => ((t.dev.chan (receiveChannel 16)).held.map (fun m => m.words.getD 4 0)).getD 0
  | _ => 0

/-- Firmware answers with the word 0 of the request, which the acknowledgement has put into that register. -/
theorem toldWord4_strayConfiguration : toldWord4 (exec (.getConfiguration 16) strayConfiguration) = 0x60 + 7 * 65536 := by decide +kernel

/-- Refutes O58: before the request is taken, max_frame of that uplink reads 9,216, and the answer holds another value. -/
theorem not_contextsAndS4400 : ¬ Obligations.ContextsAndS4400 := by
  unfold Obligations.ContextsAndS4400
  rintro ⟨-, h⟩
  obtain ⟨hconfig, -⟩ := h 16 0 0 7 (Tests.Change.words 0x60 []) strayConfiguration (by decide +kernel)
  obtain ⟨t, ht, -, m, hm, hwords, -⟩ := hconfig (Tests.asks_of rfl)
  have htold := toldWord4_strayConfiguration
  rw [ht] at htold
  have hword : m.words.getD 4 0 = 0x60 + 7 * 65536 := by
    rw [← htold, toldWord4]
    rw [hm]
    rfl
  rw [hwords] at hword
  exact absurd hword (by decide +kernel)

end Sys2Proof.Machine
end

section
/-!
A pulse on a pin that the block does not have (R381, R388).
-/

namespace Sys2Proof.Machine

/-! ## A pulse on a pin that the block does not have (R381, R388)

The registers are one map, and no hypothesis of the statement bounds the pin that a slot names. The key of TMP_PIN_CFG at pin 1,021 is that
    of slot 0's
TMP_SLOT_COUNT, which a pulse counts up before it drives its pin. -/

/-- A running device whose slot 0 is armed, repeats, has counted one pulse and names pin 1,021. -/
def strayPulse : State :=
  Tests.up (fun d => (((d.onSlot 0 (fun s => { s with kind := 2, pin := 1021 })).setSlotState 0 1).wr R.TMP_SLOT_COUNT_value 1))

/-- How much a step puts out. -/
def outSize (o : Out) : Nat :=
  match o with
  | .next t => t.dev.out.length
  | _ => 0

/-- The count of two pulses makes the pin an output, and it is driven. -/
theorem outSize_strayPulse : outSize (exec (.slotPulse 0) strayPulse) = strayPulse.dev.out.length + 1 := by decide +kernel

/-- Before the pulse the count of one makes the pin an input, which shows nothing. -/
theorem drives_strayPulse : strayPulse.dev.drives (strayPulse.dev.slot 0).pin true = [] := by decide +kernel

/-- Refutes O52: the pulse drives a pin that is no output before the pulse. -/
theorem not_timeAndActions : ¬ Obligations.TimeAndActions := by
  unfold Obligations.TimeAndActions
  rintro ⟨-, h⟩
  obtain ⟨-, harmed, -⟩ := h 0 strayPulse (by decide +kernel) (by decide)
  obtain ⟨-, -, -, -, hpulse⟩ := harmed (by decide +kernel)
  obtain ⟨t, ht, -, -, -, hout⟩ := hpulse (by decide +kernel)
  have hsize := outSize_strayPulse
  rw [ht] at hsize
  have hsame : t.dev.out.length = strayPulse.dev.out.length := by rw [hout, drives_strayPulse, List.append_nil]
  exact absurd (hsize.symm.trans hsame) (Nat.succ_ne_self _)

end Sys2Proof.Machine
end

section
/-!
A thread that holds a channel which no Set has (R256, R260).
-/

namespace Sys2Proof.Machine

/-! ## A thread that holds a channel which no Set has (R256, R260)

The registers are one map, and no hypothesis of the statement bounds the channel that a thread holds open. The key of SET_CHAN_ABANDONED at
    that channel
is the key of FLT_LAST_SEQ. A Set fault redelivers the mail of the position to the reserve's site; that ends the wait of a thread there, the debugger
kills it, and the channel that it held is marked abandoned. -/

/-- The channel whose SET_CHAN_ABANDONED word of position 0 lies where FLT_LAST_SEQ does; its bit is bit 5. -/
def strayChannel : Nat := 8 * ((0x92 - 0x41) * 2 ^ 41 + 0x10 - 0x50) + 5

/-- A thread that waits, holds that channel open and is to be killed. -/
def doomedThread : Thread where
  state := .waiting
  wait := some ⟨0x01, true, 0, 0, 0, true⟩
  sendChan := some strayChannel
  kill := true

/-- An image that says only that channel 5 is bound from control core 1 to Set position 0. -/
def mailImage : Image := Tests.bareOf [.bindings [(5, (midCore 1, midSet 0))]]

/-- Position 0 has latched a message, and the thread stands on the site of the reserve that takes the position over. -/
def strayAbandon : State :=
  Tests.up (fun d => { d with
    boot := { d.boot with image := some mailImage }
    sites := d.sites.set (d.setAt 32).site { threads := { entries := [(0, doomedThread)] } }
    chans := { entries := [(5, { held := some (Tests.Change.msg [5] 4 9), latched := true })] } })

/-- FLT_LAST_SEQ after a step. -/
def lastSeqAfter (o : Out) : Nat :=
  match o with
  | .next t => t.dev.rd R.FLT_LAST_SEQ_seq
  | _ => 0

/-- The sequence 1 of the fault's record, with bit 5 of the abandoned channel in it. -/
theorem lastSeqAfter_strayAbandon : lastSeqAfter (exec (.eccError (.setSram 0 0 none) false) strayAbandon) = 33 := by decide +kernel

/-- Refutes O46: the record of the Set fault takes sequence 1, and the register does not show it. -/
theorem not_errorsAndEscalation : ¬ Obligations.ErrorsAndEscalation := by
  unfold Obligations.ErrorsAndEscalation
  rintro ⟨h, -⟩
  obtain ⟨-, -, hfault, -⟩ := h strayAbandon (by decide +kernel)
  obtain ⟨t, ht, hrecorded⟩ := hfault 0 0 none (by decide +kernel)
  have hseq := lastSeqAfter_strayAbandon
  rw [ht, lastSeqAfter, hrecorded] at hseq
  exact absurd hseq (by decide +kernel)

end Sys2Proof.Machine
end

section
/-!
An answer that a Set receives (R256, R417, R470).
-/

namespace Sys2Proof.Machine

/-! ## An answer that a Set receives (R256, R417, R470)

The registers are one map; no hypothesis of the statement bounds the channel that a thread holds open, nor says who receives on a function's answering
channel. The key of SET_CHAN_ABANDONED at that channel is the key of STP_STATUS.state. When training is given up, the answer to a transfer's requester
arrives at Set position 0; that ends the wait of a thread there, the debugger kills it, and the channel that it held is marked abandoned. -/

/-- The channel whose SET_CHAN_ABANDONED word of position 0 lies where STP_STATUS.state does; its bit is bit 1. -/
def strayStpChannel : Nat := 8 * ((0xA0 - 0x41) * 2 ^ 41 + 0x4 - 0x50) + 1

/-- The image with the answering channel of function 0 bound to Set position 0. -/
def withSetAnswers (im : Image) : Image :=
  { im with sections := im.sections.map (fun s => match s.body with
    | .bindings l => { s with body := .bindings ((receiveChannel 0, (midCore 1, midSet 0)) :: l) }
    | _ => s) }

/-- A transfer of function 0 stands, the thread waits at Set position 0, and the tries of training are used up. -/
def strayTraining : State :=
  Tests.Change.stp 4 (fun d => Tests.Change.withImg withSetAnswers { d with
    stp := { waits := true, fails := 16, xfers := [Tests.Change.xf] }
    sites := d.sites.set (d.setAt 0).site { threads := { entries := [(0, { doomedThread with sendChan := some strayStpChannel })] } } })

/-- The state of the port after a step. -/
def stpStateAfter (o : Out) : Nat :=
  match o with
  | .next t => t.dev.stpState
  | _ => 0

/-- State 5, with bit 1 of the abandoned channel in it. -/
theorem stpStateAfter_strayTraining : stpStateAfter (exec .stpTrainingRetry strayTraining) = 7 := by decide +kernel

/-- Refutes O60: training is given up, and the port does not read down. -/
theorem not_streamPort : ¬ Obligations.StreamPort := by
  unfold Obligations.StreamPort
  rintro ⟨h, -⟩
  obtain ⟨-, hretry, -⟩ := h strayTraining (by decide +kernel)
  have hsane : strayTraining.dev.stpSane := ⟨by decide +kernel, by decide +kernel⟩
  obtain ⟨-, hgiveUp⟩ := hretry (by decide +kernel) hsane
  obtain ⟨t, ht, hdown, -⟩ := hgiveUp (by decide +kernel)
  have hstate := stpStateAfter_strayTraining
  rw [ht, stpStateAfter, hdown] at hstate
  exact absurd hstate (by decide)

end Sys2Proof.Machine
end

section
/-!
A command whose region is its QP (R299, R303).
-/

namespace Sys2Proof.Machine

/-! ## A QP whose command's region is the QP itself (R299, R303)

Contexts are one map, and no hypothesis of the statement says that the region of a command's buffers is another context than the QP that carries the
command. When the tries of the timer are used up, the QP enters its error state, its commands complete as lost, and their regions are erased. -/

/-- The number of the QP, and of the region. -/
def ownQp : Nat := 5

/-- An outstanding request, and a command whose region is context 5. -/
def ownRegionQp : Qp where
  reqs := [{ ring := 0, seq := 0, desc := [], opcode := 0, first := 0, last := 0 }]
  cmds := [{ tag := 0, fn := 0, sq := 1, cid := 0, ns := 0, region := some (256 * ownQp) }]

/-- The context of a RoCEv2 QP in state 3 that does not retry. -/
def readyContext : List Byte := putBytes (List.replicate 256 0) 0 (leBytes (8 + 16 * 3) 4)

/-- The device with that QP. -/
def ownRegion : State :=
  Tests.up (fun d => { d with ctxs := d.ctxs.set ownQp readyContext, qps := d.qps.set ownQp ownRegionQp })

/-- The state of the QP after a step. -/
def ownQpStateAfter (o : Out) : Nat :=
  match o with
  | .next t => t.dev.qpState ownQp
  | _ => 4

/-- The context is gone, and reads zero. -/
theorem ownQpStateAfter_ownRegion : ownQpStateAfter (exec (.roceAckTimeout ownQp) ownRegion) = 0 := by decide +kernel

/-- Refutes O47: the QP does not read its error state. -/
theorem not_workRequests : ¬ Obligations.WorkRequests := by
  unfold Obligations.WorkRequests
  intro h
  obtain ⟨-, -, -, htimeout, -⟩ := h 0 ownQp ownRegion (by decide +kernel)
  obtain ⟨hspent, -⟩ := htimeout (by decide +kernel) (by decide +kernel) (by decide +kernel)
  obtain ⟨t, ht, hfailed, -⟩ := hspent (by decide +kernel)
  have hstate := ownQpStateAfter_ownRegion
  rw [ht, ownQpStateAfter, hfailed] at hstate
  exact absurd hstate (by decide)

end Sys2Proof.Machine
end

section
/-!
A crypto position whose slot carries the mark of a thermal sit-out (R105, R432).
-/

namespace Sys2Proof.Machine

/-! ## A crypto position whose slot carries the mark of a thermal sit-out (R105, R432)

A thermal sit-out is of a Set position, and the statement asks only of a Set position that its slot is not so marked. The rejoin of a
    crypto position reads
the same mark of its own slot, which no hypothesis excludes, and answers with status 4. -/

/-- Function 0 asks for the rejoin of crypto position 0, which is out and marked as thermal. -/
def hotCrypto : State :=
  Tests.Change.ask 0x31 [0x50] (fun d => { d with cryPos := { entries := [(0, { site := 0, phase := .out, thermal := true })] } })

/-- How crypto position 0 stands after a step. -/
def crypto0After (o : Out) : PosPhase :=
  match o with
  | .next t => (t.dev.cryAt 0).phase
  | _ => .inService

/-- The request is refused: no test runs. -/
theorem crypto0After_hotCrypto : crypto0After (exec (.rejoin 0) hotCrypto) = .out := by decide +kernel

/-- Refutes O59: a crypto position that is out is asked back, and its test does not start. -/
theorem not_inServiceChange : ¬ Obligations.InServiceChange := by
  unfold Obligations.InServiceChange
  rintro ⟨h, -⟩
  obtain ⟨-, hrejoin, -⟩ := h 0 7 0 (Tests.Change.words 0x31 [0x50]) hotCrypto (by decide +kernel)
  obtain ⟨-, -, hcrypto, -⟩ := hrejoin (Tests.asks_of rfl) ⟨by decide +kernel, by decide +kernel⟩
  obtain ⟨t, ht, htesting, -⟩ := hcrypto ⟨by decide +kernel, by decide +kernel⟩ (by decide +kernel) (by decide +kernel) (by decide +kernel)
  have hphase := crypto0After_hotCrypto
  rw [ht, crypto0After, htesting] at hphase
  exact absurd hphase (by decide)

end Sys2Proof.Machine
end

end
